-- ==== Sys2Proof/Word.lean ====
section
/-!
DEFINITION. Word.lean: the word types and the plainest arithmetic on them.  Registers are 32 bits wide (R13), bytes
are the unit of every buffer (R15), multi-byte fields are little-endian (R7), fixed-point values are two's complement (R9).
-/

namespace Sys2Proof

/-- A byte of a descriptor, record, buffer or memory (R15). -/
abbrev Byte := BitVec 8

/-- A register of BAR0 (R13), or one word of a body. -/
abbrev Word := BitVec 32

/-- A 64-bit quantity: cell nanoseconds, an axis position, event detail (R10). -/
abbrev DWord := BitVec 64

/-- The value of an `n`-bit two's complement field whose bits are `v` (R9). -/
def sgn (n v : Nat) : Int :=
  if v % 2 ^ n < 2 ^ (n - 1) then ((v % 2 ^ n : Nat) : Int) else ((v % 2 ^ n : Nat) : Int) - (2 ^ n : Nat)

/-- The `n` bits that hold the integer `x` in two's complement, wrapping (R9). -/
def uns (n : Nat) (x : Int) : Nat := (x % (2 ^ n : Nat)).toNat

/-- `x` brought to the nearer of the two bounds. -/
def clampI (lo hi x : Int) : Int := if x < lo then lo else if hi < x then hi else x

/-- The integer part of the square root, by binary search over `k` bits. -/
def isqrtAux (x : Nat) : Nat → Nat → Nat
  | 0, r => r
  | k + 1, r => isqrtAux x k (if (r + 2 ^ k) * (r + 2 ^ k) ≤ x then r + 2 ^ k else r)

/-- The largest natural number whose square is at most `x`. -/
def isqrt (x : Nat) : Nat := isqrtAux x (x.log2 / 2 + 1) 0

/-- Floor division of an integer by `2 ^ n`: the arithmetic shift right. -/
def asr (x : Int) (n : Nat) : Int := x / (2 ^ n : Nat)

/-- Division by `2 ^ n` rounded half up: add one half of the last place, then floor. -/
def rhu (x : Int) (n : Nat) : Int := if n = 0 then x else (x + (2 ^ (n - 1) : Nat)) / (2 ^ n : Nat)

/-- Division by `d` rounded half up. -/
def rhuDiv (x : Int) (d : Nat) : Int := (2 * x + d) / (2 * d : Nat)

/-- Division of integers rounded towards zero. -/
def tdiv (a b : Int) : Int := Int.tdiv a b

end Sys2Proof
end

