-- ==== Sys2Proof/Syntax.lean ====
section
/-!
DEFINITION. Syntax.lean: the commands of the block, one constructor for each row of the opcode table with the row's operands, and the
types of their operands.  What the world outside supplies with a command (the answer of host memory, the levels of pins, the frames
on the wire) is an operand of it.
-/

namespace Sys2Proof

/-- A master of register accesses (R81); a Forager's privilege follows the item its core runs. -/
inductive Master where
  | host
  | forager (core : Fin 32)
  | farrier
  | quench
  | debug
  | engine
  deriving DecidableEq, Repr

/-- A window through which registers and windows are accessed (R49). -/
inductive Bar where
  | bar0 | bar2 | bar4
  deriving DecidableEq, Repr

/-- How an access to host memory fails (R72, R513). -/
inductive HostErr where
  | unsupported | aborted | poisoned | timeout
  deriving DecidableEq, Repr

/-- How the host answers the accesses of one operation: the extended body it returns, whether reading it failed, and
whether writing a result failed (R72). -/
structure HostIo where
  body : List Byte := []
  bodyErr : Bool := false
  resultErr : Bool := false
  deriving DecidableEq, Repr

/-- A window that a Forager prepares for a chain on an engine (R206, R208): the address of its buffer, its first 24
bytes, and the pieces that it writes into the path table. -/
structure PlanWindow where
  engine : Fin 64
  chain : Fin 16
  addr : BitVec 17
  head : List Byte
  pieces : List (List Byte)
  deriving DecidableEq, Repr

/-- The problem that a Forager builds for one swarm or solo chain at a planning tick (R168): its job slot, job
descriptor, body, commit list and windows. -/
structure PlanWork where
  swarm : Bool
  index : Fin 16
  slot : Fin 1024
  job : List Byte
  body : List Byte
  list : List Byte
  windows : List PlanWindow
  deriving DecidableEq, Repr

/-- The feedback of one axis slot in a cycle, as the runtime finds it in the deposits (log entry 23): whether the sample
is there (R311), motor and load position, velocity, current, joint torque (R199). -/
structure Meas where
  valid : Bool
  motor : DWord
  load : DWord
  vel : Word
  cur : BitVec 16
  torque : BitVec 16
  deriving DecidableEq, Repr

/-- What one channel carries of one Combway frame (R307): whether the start sequence is present, whether no code-group or
disparity error occurs, whether the end sequence is complete, the action point in 2⁻⁴ ns of cell time, the CMB clock at
which the end sequence completes, and the bytes from the header to the frame CRC. -/
structure Copy where
  start : Bool
  clean : Bool
  complete : Bool
  action : DWord
  done : Word
  bytes : List Byte
  deriving DecidableEq, Repr

/-- A zone message as it is received (R188). -/
structure ZoneMsg where
  zone : Fin 32
  pos : BitVec 8
  chain : BitVec 8
  time : DWord
  cell : BitVec 16
  seq : BitVec 16
  deriving DecidableEq, Repr

/-- What Quench finds at its pins at a safety tick, and what the evaluation took (R369, R370, R402, R408): the readbacks of
the sixteen safe output switches, pair k in bits 2k (A) and 2k + 1 (B); those of the 32 brake enables, channel b in bits 2b
(high side) and 2b + 1 (low side); the evaluation time in µs; whether the SAF clock deviates by more than ±2 % (R357). -/
structure QuenchPins where
  outputs : BitVec 16
  brakes : BitVec 32
  evalUs : BitVec 16
  clockOff : Bool
  deriving DecidableEq, Repr

/-- A switch pair that an off-test acts on (R370, R402). -/
inductive SwitchPair where
  | output (k : Fin 8)
  | brake (b : Fin 16)
  deriving DecidableEq, Repr

/-- What a heartbeat carries (R429). -/
structure Heartbeat where
  cycle : Word
  role : BitVec 2
  ready : Bool
  epoch : BitVec 16
  digest : Word
  swap : Word
  deriving DecidableEq, Repr

/-- The mirrored state of one axis slot (R430): observer states, the u that took effect, and its origin if it changed. -/
structure MirrorAxis where
  engine : Fin 64
  slot : Fin 16
  xhat : List Word
  u : BitVec 16
  origin : Option DWord
  deriving DecidableEq, Repr

/-- A mirrored window of a chain on an engine (R206, R430): the buffer, whether it is ready, whether it is the pending one, and
path-table pieces (R208). -/
structure MirrorWindow where
  engine : Fin 64
  chain : Fin 16
  pending : Bool
  ready : Bool
  bytes : List Byte
  pieces : List (List Byte)
  deriving DecidableEq, Repr

/-- A mirrored chain (R430): its state, the zone tokens it holds, and its waiting request: zones, timestamp, zones obtained,
sequence number. -/
structure MirrorChain where
  chain : Fin 16
  state : BitVec 3
  tokens : Word
  request : Option (Word × DWord × Word × BitVec 16)
  deriving DecidableEq, Repr

/-- The mirrored keeper state of a zone (R190, R430): its holder and its waiting requests. -/
structure MirrorKeeper where
  zone : Fin 32
  holder : Option ZoneMsg
  waiting : List ZoneMsg
  deriving DecidableEq, Repr

/-- The mirror set of one cycle, with whether every frame of it was valid (R430): its size in KiB, the active's mode,
cell cycle and dynamic counters by segment, axes, windows, chains, keepers, consecutive numbers of
output connections, and task contexts. -/
structure Mirror where
  complete : Bool
  kib : BitVec 16
  mode : BitVec 3
  counters : List (Fin 8 × Word × BitVec 10)
  axes : List MirrorAxis
  windows : List MirrorWindow
  chains : List MirrorChain
  keepers : List MirrorKeeper
  numbers : List (Fin 128 × BitVec 24)
  contexts : List (Fin 1024 × List Word)
  deriving DecidableEq, Repr

/-- What the Ethernet update service asks of the stage lock (R468, R470): the operations of R468 with their operands. -/
inductive StageOp where
  | stageOpen (length : Word)
  | stageWrite (offset : Word) (body : List Byte)
  | stageCommit
  | stageRelease
  deriving DecidableEq, Repr

/-- The commands: one constructor for each row of the opcode table. -/
inductive Instr where
  /-- REGISTER_WRITE (R82): A write to a register that has no row of its own, checked field by field for alignment, PV, RO, WD, WP, WS and range. -/
  | registerWrite (m : Master) (bar : Bar) (off : BitVec 24) (size : BitVec 4) (v : Word)
  /-- RC_READ (R84): A read by masters 0 to 4 of a register that holds RC fields returns their values and clears them in the same FAB clock. -/
  | rcRead (m : Master) (bar : Bar) (off : BitVec 24) (size : BitVec 4)
  /-- WP_WRITE_LAND (R88): A posted write lands in its slow-domain register after up to 8 SLO clocks, and busy falls to 0. -/
  | wpWriteLand (off : BitVec 24)
  /-- STROBE_AT_INSTANT (R86): A write of GLB_STROBE with now 0 marks the masked groups pending for application at the first common instant at least 2 µs later. -/
  | strobeAtInstant (mask : BitVec 16)
  /-- STROBE_NOW (R86): A write of GLB_STROBE with now 1 marks the masked groups pending for application within 64 FAB clocks, or after a running Temper program ends. -/
  | strobeNow (mask : BitVec 16)
  /-- STROBE_APPLY (R87): Every staged copy of the pending groups is applied to its active copy at one instant, and the pending bits clear. -/
  | strobeApply
  /-- SCRUBBER_VISIT (R89): The scrubber visits each T3 field once per 1 ms, writes the voted value back into all three copies and reports a new disagreement. -/
  | scrubberVisit (upsets : List (BitVec 24 × Fin 3 × Word))
  /-- MAILBOX_HEADER_READ (R92): A header read of a Fresh mailbox takes the snapshot and starts the 10 µs hold; other states return the header unchanged. -/
  | mailboxHeaderRead (m : Fin 16384)
  /-- MAILBOX_DATA_READ (R92): A data-word read of a mailbox returns the snapshot when Held and the current or last result otherwise. -/
  | mailboxDataRead (m : Fin 16384) (i : Fin 62)
  /-- MAILBOX_TRAILER_READ (R92): A trailer read of a Held mailbox reports consumed 1, empties it and lets a waiting result enter as Fresh. -/
  | mailboxTrailerRead (m : Fin 16384)
  /-- MAILBOX_HOLD_EXPIRY (R93): The 10 µs hold of a Held mailbox expires with a result waiting; the snapshot is discarded and the waiting result enters with OVERRUN, raising source 11. -/
  | mailboxHoldExpiry (m : Fin 16384)
  /-- UNLOCK_REQUEST (R96): A write of GLB_UNLOCK_CTL.request asks Farrier for a nonce, or is ignored according to the unlock state and the failure wait. -/
  | unlockRequest
  /-- NONCE_ISSUED (R95): Farrier places a fresh 32-byte nonce in GLB_NONCE0 to 7 within 1 ms of the request and sets state 1. -/
  | nonceIssued (nonce : BitVec 256)
  /-- UNOWNED_UNLOCK_GRANT (R98): On an unowned device Farrier serves a request by setting state 3 and host_priv within 1 ms, raising source 9. -/
  | unownedUnlockGrant
  /-- UNLOCK_VERIFY (R96): A write of GLB_UNLOCK_CTL.verify starts Farrier's Ed25519 verification in state 1, fails in states 0 and 4, or is ignored. -/
  | unlockVerify
  /-- VERIFY_COMPLETE (R95): Farrier finishes verification within 2 ms and sets state 3 with host_priv and source 9, or state 4 with a counted failure. -/
  | verifyComplete
  /-- NONCE_EXPIRY (R96): An unused nonce expires 1 s after issue; Oluend clears it and state returns to 0. -/
  | nonceExpiry
  /-- UNLOCK_WAIT_EXPIRY (R96): The 1 s or 60 s wait after a verification failure ends and nonce requests are accepted again. -/
  | unlockWaitExpiry
  /-- UNLOCK_LOCK (R97): A write of GLB_UNLOCK_CTL.lock withdraws the commissioning unlock, clears host_priv and raises source 9. -/
  | unlockLock
  /-- HIF_RESET (R51): A function-level reset, hot reset or link-down resets the HIF block, disables rings and MSI-X, withdraws the unlock and aborts outstanding non-MOTION descriptors as 0xE0. -/
  | hifReset
  /-- D3HOT_ENTRY (R51): The function enters D3hot; descriptor fetch and interrupts stop while operations continue. -/
  | d3hotEntry
  /-- D0_RETURN (R51): The function returns to D0 and completions waiting in completion staging are written. -/
  | d0Return
  /-- PCIE_LINK_CHANGE (R513): The PCIe link comes up, goes down or changes speed or width, raising source 0. -/
  | pcieLinkChange (up : Bool) (speed : Fin 5) (width : Fin 4)
  /-- AER_ERROR (R513): An AER correctable or uncorrectable error is logged, raising source 1 or 2. -/
  | aerError (kind : Fin 3) (bits : Word)
  /-- SUBMISSION_DOORBELL (R63): A host write to a submission ring's doorbell sets its producer index, or is dropped and counted as stale, out of range or regressive. -/
  | submissionDoorbell (r : Fin 64) (v : Word)
  /-- COMPLETION_DOORBELL (R63): A host write to a completion ring's doorbell frees entries up to the consumer index, or is dropped and counted. -/
  | completionDoorbell (q : Fin 64) (v : Word)
  /-- DESCRIPTOR_FETCH (R68): The fetch arbiter grants a ring a burst of up to 8 descriptors when every fetch condition holds, reserving one completion slot per descriptor. -/
  | descriptorFetch (r : Fin 64) (shadow : Option HostErr)
  /-- FETCH_COMPLETE (R58): Fetched descriptors arrive from host memory and are checked in order, creating work or completing with an error status; a failed fetch faults the ring. -/
  | fetchComplete (r : Fin 64) (descs : List (List Byte)) (err : Option HostErr)
  /-- COMPLETION_WRITE (R62): Oluend writes a completion as one 32-byte write after its results, when the ring has room and is enabled, then counts it towards the MSI-X vector. -/
  | completionWrite (q : Fin 63) (err : Option HostErr)
  /-- MODERATION_TIMER_EXPIRY (R79): mod_time µs after the first unsignalled completion or record, the vector fires. -/
  | moderationTimerExpiry (v : Fin 128)
  /-- EVENT_DELIVERY (R77): An event record in event staging is written to the event ring within 2 µs once the ring has space. -/
  | eventDelivery (err : Option HostErr)
  /-- EVENTS_LOST_REPORT (R77): Once staging has room after a loss, Oluend raises source 7. -/
  | eventsLostReport
  /-- SQ_ENABLE (R69): A write of 1 to HIF_SQ_CTL.enable enables a submission ring, or is refused with refuse_code and source 5. -/
  | sqEnable (m : Master) (r : Fin 64)
  /-- SQ_DISABLE (R67): A write of 0 to HIF_SQ_CTL.enable stops fetch from the ring while outstanding descriptors complete. -/
  | sqDisable (r : Fin 64)
  /-- SQ_RESET (R67): A write of HIF_SQ_CTL.reset sets the fetch and producer indices to 0, or is ignored while enabled or outstanding. -/
  | sqReset (r : Fin 64)
  /-- SQ_ABORT_ALL (R73): A write of HIF_SQ_CTL.abort_all aborts every outstanding descriptor of the ring without a completion of its own. -/
  | sqAbortAll (r : Fin 64)
  /-- CQ_ENABLE (R80): A write of 1 to HIF_CQ_CTL.enable enables a completion ring so waiting completions can be written. -/
  | cqEnable (q : Fin 64)
  /-- CQ_DISABLE (R70): A write of 0 to HIF_CQ_CTL.enable disables a completion ring, stopping fetch from the rings that feed it. -/
  | cqDisable (q : Fin 64)
  /-- CQ_RESET (R67): A write of HIF_CQ_CTL.reset restarts the completion ring at slot 0 with phase 1, or is ignored while fed or bound. -/
  | cqReset (q : Fin 64)
  /-- NOP (R57): Descriptor NOP completes with 0x01 and has no other effect. -/
  | nop (r : Fin 64)
  /-- ABORT (R73): Descriptor ABORT acts on fetch against the oldest outstanding descriptor with the tag, or all, each target reporting its own outcome or ABORTED. -/
  | abortOp (r : Fin 64)
  /-- HIVE_DISPATCH (R109): When a core is free and an item is eligible, the Hive chooses within 32 FAB clocks and raises the dispatch interrupt on the chosen core. -/
  | hiveDispatch
  /-- AFFINITY_WAIT_EXPIRY (R109): An item's affinity wait expires; it takes the lowest free core in its mask and ranks above lower priorities. -/
  | affinityWaitExpiry (seq : Word)
  /-- RUN_LIMIT_EXPIRY (R103): A work item passes its run limit; the Hive raises the run-limit interrupt and source 24 + n code 1. -/
  | runLimitExpiry (c : Fin 32)
  /-- CORE_RESET (R103): 10 µs after the run-limit interrupt without FGR_END, the Hive resets the core, advances its epoch and marks the context FAULTED. -/
  | coreReset (c : Fin 32)
  /-- CORE_REJOIN (R103): A reset core completes its reset within 50 µs and rejoins dispatch. -/
  | coreRejoin (c : Fin 32)
  /-- FGR_END_DONE (R120): A core writes FGR_END with done; the item ends, the core becomes free and a PERIODIC context arms its next release. -/
  | fgrEndDone (c : Fin 32)
  /-- FGR_END_YIELD (R120): A core writes FGR_END with yield; the item is queued again with its argument and a new sequence. -/
  | fgrEndYield (c : Fin 32)
  /-- FGR_END_SLEEP (R120): A core writes FGR_END with sleep; the context arms a list-1 timer at FGR_WAKE. -/
  | fgrEndSleep (c : Fin 32) (wake : DWord)
  /-- FGR_SUBMIT (R120): A core write of FGR_SUBMIT creates a work item of a context, or reads a refusal status. -/
  | fgrSubmit (c : Fin 32) (ctx : Fin 1024) (prio : Fin 8) (arg : Word)
  /-- TIMER_ARM_TIMEOUT (R115): FGR_TIMER with op 0 arms a list-2 timer and returns a handle, or fails with status 4 on a full pool. -/
  | timerArmTimeout (c : Fin 32) (ctx : Fin 1024) (arg : DWord) (wake : DWord)
  /-- TIMER_ARM_GENERAL (R115): FGR_TIMER with op 1 arms a list-3 timer and returns a handle, or fails with status 4 on a full pool. -/
  | timerArmGeneral (c : Fin 32) (ctx : Fin 1024) (arg : DWord) (wake : DWord)
  /-- TIMER_CANCEL (R118): FGR_TIMER with op 2 cancels a timer, or reads status 5 if its release was recorded first. -/
  | timerCancel (c : Fin 32) (handle : BitVec 16)
  /-- CONTEXT_SET_FREE (R120): FGR_CTXSET with state FREE frees a context, discarding its timers and orphaning its queued items. -/
  | contextSetFree (c : Fin 32) (ctx : Fin 1024)
  /-- CONTEXT_SET_ACTIVE (R120): FGR_CTXSET with state ACTIVE makes a written context eligible for dispatch. -/
  | contextSetActive (c : Fin 32) (ctx : Fin 1024)
  /-- HIVE_TICK (R116): At each Hive tick every timer whose wake time is due is released as a ready item within 64 FAB clocks. -/
  | hiveTick
  /-- SPILL_REFILL (R112): When a share's on-chip occupancy falls to 1,536, spilled items return from DDR oldest first. -/
  | spillRefill (ring : Bool)
  /-- BACKPRESSURE_TIMEOUT (R113): A Forager stalled by back-pressure for 10 µs has its FGR_SUBMIT or planner submission completed refused. -/
  | backpressureTimeout (c : Fin 32)
  /-- ANVIL_SUBMIT (R126): A write of ANV_SUBMIT enqueues a firmware job slot as a planner job, or refuses it with a status. -/
  | anvilSubmit (m : Master) (slot : BitVec 11)
  /-- ANVIL_ABORT (R150): A write of ANV_ABORT aborts a planner job waiting or running, or reports nothing to abort. -/
  | anvilAbort (m : Master) (slot : BitVec 11)
  /-- ANVIL_RESET (R151): A write of ANV_CTL.reset resets the engine, advances its epoch, completes its job with 0xE0 and raises source 32 + n. -/
  | anvilReset (n : Fin 8)
  /-- ANVIL_FAULT (R151): A microcode fault or uncorrectable SRAM error resets the engine as ANV_CTL.reset does and raises code 4. -/
  | anvilFault (n : Fin 8) (sram : Bool)
  /-- ANVIL_DISABLE (R155): A write of 0 to ANV_CTL.enable lets the current job finish, after which stopped reads 1. -/
  | anvilDisable (n : Fin 8)
  /-- SOLVE (R129): Descriptor SOLVE turns into a host solver job in a free host slot, applying back-pressure to SOLVE rings when none is free. -/
  | solve (r : Fin 64)
  /-- WARM_CLEAR (R130): Descriptor WARM_CLEAR marks a host warm slot empty and completes with 0x01. -/
  | warmClear (r : Fin 64)
  /-- ANVIL_DISPATCH (R119): When an engine finishes, the Hive chooses the next job within 32 FAB clocks, planner jobs first and then earliest deadline. -/
  | anvilDispatch
  /-- JOB_LOAD_COMPLETE (R137): The problem body is loaded into engine SRAM and checked in order; the first failing check ends the job. -/
  | jobLoadComplete (n : Fin 8) (io : HostIo)
  /-- FACTORISATION_COMPLETE (R138): Symbolic analysis and LDLᵀ factorisation end, with pivot regularisation; SAT ends the job. -/
  | factorisationComplete (n : Fin 8)
  /-- ITERATION (R141): The engine performs one ADMM iteration and checks the iterate when k is a multiple of check_every. -/
  | iteration (n : Fin 8)
  /-- REFACTORISATION_COMPLETE (R140): An adaptive-ρ numeric refactorisation ends and iteration continues from the same iterate. -/
  | refactorisationComplete (n : Fin 8)
  /-- JOB_DEADLINE (R146): A job's deadline passes; the engine records the outcome within 128 FAB clocks and discards the iteration in progress. -/
  | jobDeadline (n : Fin 8)
  /-- JOB_OUTPUT (R147): After the outcome, the engine writes the result, updates the warm slot, executes the commit list and hands over the completion. -/
  | jobOutput (n : Fin 8) (io : HostIo)
  /-- COMMIT_SIGNAL (R147): When every committed word has landed, Anvil signals each named Temper engine, marking the pending window ready. -/
  | commitSignal
  /-- MOVE_JOINT (R157): Segment MOVE_JOINT queues a joint-space line to joint targets. -/
  | moveJoint (r : Fin 64) (io : HostIo)
  /-- MOVE_LINE (R157): Segment MOVE_LINE queues a Cartesian straight line to a pose. -/
  | moveLine (r : Fin 64) (io : HostIo)
  /-- MOVE_ARC (R157): Segment MOVE_ARC queues a Cartesian arc through a via point to a pose. -/
  | moveArc (r : Fin 64) (io : HostIo)
  /-- MOVE_SPLINE (R157): Segment MOVE_SPLINE queues a quintic spline through 2 to 256 knots. -/
  | moveSpline (r : Fin 64) (io : HostIo)
  /-- DWELL (R160): Segment DWELL queues a standstill for a duration or until the deadline. -/
  | dwell (r : Fin 64)
  /-- HOLD (R176): Immediate HOLD stops the chain along its path from the next planning tick, keeping the remainder. -/
  | hold (r : Fin 64)
  /-- STOP (R177): Immediate STOP commits a stop ramp along the committed path within one cell cycle, keeping the remainder. -/
  | stopOp (r : Fin 64)
  /-- RESUME (R178): Immediate RESUME makes the kept remainder of a HELD chain its current segment. -/
  | resume (r : Fin 64)
  /-- CANCEL (R179): Immediate CANCEL stops the chain and then discards the remainder and every queued segment. -/
  | cancel (r : Fin 64)
  /-- SET_ACCEL (R181): Immediate SET_ACCEL changes the chain's acceleration and deceleration scales, deferring a smaller deceleration during a ramp. -/
  | setAccel (r : Fin 64)
  /-- STATUS (R182): Immediate STATUS completes at once with the chain's state. -/
  | status (r : Fin 64)
  /-- SEGMENT_COMPLETE (R163): At the common instant when set-points reach a segment's hand-over point, it completes and its successor starts. -/
  | segmentComplete (c : Fin 16)
  /-- CHAIN_STANDSTILL (R176): A held or stopped chain's set-points stop changing; the segment completes with 0x06 and waiting HOLD, CANCEL and RESUME act. -/
  | chainStandstill (c : Fin 16) (rem : Word) (len : Word)
  /-- PLANNING_TICK (R168): At each planning tick a Forager builds and submits the problem of every swarm and solo chain with its deadline. -/
  | planningTick (work : List PlanWork) (unreachable : List (Fin 16))
  /-- PLANNER_COMPLETION (R174): The Forager handling a planner completion commits nothing more on success, or commits a bridging deceleration and raises source 22. -/
  | plannerCompletion (c : Fin 32)
  /-- ZONE_REQUEST_FORM (R183): A chain forms an atomic zone request when a segment's start enters the horizon and its predecessor has started. -/
  | zoneRequestForm (c : Fin 16)
  /-- KEEPER_DECISION (R186): Once per cell cycle a keeper decides grants among the requests received and sends STATE when the holder changes. -/
  | keeperDecision
  /-- ZONE_WAIT_EXPIRY (R187): A zone request's waiting limit or deadline passes; it is withdrawn, the segment completes with 0x31 and source 21 is raised. -/
  | zoneWaitExpiry (c : Fin 16) (deadline : Bool)
  /-- ZONE_HOLD_LIMIT_EXPIRY (R26): A token is held past its hold limit; source 20 is raised and the chain goes to HOLD. -/
  | zoneHoldLimitExpiry (c : Fin 16) (z : Fin 32)
  /-- ZONE_REQUEST_MSG (R189): A REQUEST zone message is received by a keeper. -/
  | zoneRequestMsg (m : ZoneMsg)
  /-- ZONE_RELEASE_MSG (R189): A RELEASE zone message is received by a keeper. -/
  | zoneReleaseMsg (m : ZoneMsg)
  /-- ZONE_WITHDRAW_MSG (R189): A WITHDRAW zone message ends a request at the keeper. -/
  | zoneWithdrawMsg (m : ZoneMsg)
  /-- ZONE_STATE_MSG (R189): A STATE zone message tells requesters and holders the zone's holder. -/
  | zoneStateMsg (m : ZoneMsg)
  /-- ZONE_CLAIM_MSG (R190): A CLAIM zone message lets a restarting keeper rebuild its holder list. -/
  | zoneClaimMsg (m : ZoneMsg)
  /-- KEEPER_RESTART_END (R190): 16 cycles after a keeper restarts, it starts granting again. -/
  | keeperRestartEnd
  /-- PLAN_CFG (R191): PARAM PLAN_CFG sets the planning tick, commit window and knots. -/
  | planCfg (r : Fin 64)
  /-- SWARM_CFG (R191): PARAM SWARM_CFG configures or dissolves a swarm. -/
  | swarmCfg (r : Fin 64)
  /-- CHAIN_CFG (R191): PARAM CHAIN_CFG sets a chain's warm slot, fractions, budget and limits. -/
  | chainCfg (r : Fin 64)
  /-- ZONE_TABLE (R185): PARAM ZONE_TABLE loads the 32-entry zone table, refusing zero hold limits with 0x11. -/
  | zoneTable (r : Fin 64) (io : HostIo)
  /-- PLANNER_SETTING_APPLY (R191): A planner setting applies at the first planning tick at which every affected chain is IDLE, and its descriptor completes. -/
  | plannerSettingApply
  /-- ALLOWANCE_TABLE_STOP (R393): Cell firmware stops a chain whose published entry shows SS1 or SS2 as by STOP within two cell cycles. -/
  | allowanceTableStop (c : Fin 16)
  /-- TEMPER_PROGRAM_START (R194): An engine's cycle program starts within 20 FAB clocks of its latest feedback-complete instant, runs every valid slot's law and writes the set-points. -/
  | temperProgramStart (n : Fin 64) (fb : List Meas) (clocks : BitVec 24) (sramError : Bool)
  /-- TEMPER_ENABLE (R198): A write of 1 to TMP_CTL.enable enables an engine, which initialises origins and states at the next common instant. -/
  | temperEnable (n : Fin 64)
  /-- TEMPER_DISABLE (R216): A write of 0 to TMP_CTL.enable is accepted only while every axis is in STO. -/
  | temperDisable (n : Fin 64)
  /-- TEMPER_RESET_WRITE (R215): A write of TMP_CTL.reset traps and resets the engine. -/
  | temperResetWrite (n : Fin 64)
  /-- FE_CLEAR (R214): A write of TMP_AX_CLR.fe_clr clears a latched following error and its count. -/
  | feClear (n : Fin 64) (j : Fin 16)
  /-- LAW_LOAD (R204): PARAM LAW_LOAD writes a law image to page 0 of a stopped engine or stages it on the inactive page. -/
  | lawLoad (r : Fin 64) (io : HostIo)
  /-- INJECT (R219): TUNE INJECT schedules a test signal on one axis with an optional capture. -/
  | inject (r : Fin 64) (io : HostIo)
  /-- CAPTURE_SET (R218): TUNE CAPTURE_SET defines a capture set and its buffer. -/
  | captureSet (r : Fin 64)
  /-- CAPTURE (R219): TUNE CAPTURE runs a capture set without injection. -/
  | capture (r : Fin 64)
  /-- FRA (R222): TUNE FRA requests a frequency-response estimate from a completed capture. -/
  | fra (r : Fin 64)
  /-- INJECTION_START (R217): At the first common instant at or after the deadline, the injection or capture starts. -/
  | injectionStart (r : Fin 64)
  /-- INJECTION_END (R220): The duration passes or another ending applies; the signal is removed and the operation completes once its capture has landed. -/
  | injectionEnd (r : Fin 64)
  /-- CAPTURE_DRAIN (R221): The fabric drains capture staging to DDR; a full staging ends the capture with OVERRUN. -/
  | captureDrain (i : Fin 16)
  /-- FRA_START (R222): FRA starts after every capture of its engine has ended, in the free time of the engine. -/
  | fraStart (r : Fin 64)
  /-- FRA_COMPLETE (R223): FRA writes the averaged bins and header to the host and completes. -/
  | fraComplete (r : Fin 64) (io : HostIo)
  /-- FRA_DEADLINE (R223): FRA's deadline passes; it completes with 0x03 over the averages made so far. -/
  | fraDeadline (r : Fin 64) (io : HostIo)
  /-- PROG_LOAD (R247): PARAM PROG_LOAD verifies and writes an owner-signed program into the owner code area. -/
  | progLoad (r : Fin 64) (io : HostIo) (sig : Bool)
  /-- PROG_CLEAR (R247): PARAM PROG_CLEAR clears the owner code and data areas and loaded. -/
  | progClear (r : Fin 64)
  /-- BG_START (R249): A write of TMP_PROG.bg_start starts the owner background program at the next idle FAB clock, or is ignored. -/
  | bgStart (n : Fin 64)
  /-- BACKGROUND_PREEMPTION (R243): A cycle program start preempts a background program at the first allowed bundle boundary, recording bpc. -/
  | backgroundPreemption (n : Fin 64)
  /-- LD_W (R232): Bundle operation LD.W loads 32 bits at a(ax) into a data register. -/
  | ldW (n : Fin 64) (gap : BitVec 4) (ax : BitVec 3) (mode : BitVec 2) (dd : BitVec 6) (ext : BitVec 10)
  /-- LD_D (R232): Bundle operation LD.D loads 64 bits into a register pair. -/
  | ldD (n : Fin 64) (gap : BitVec 4) (ax : BitVec 3) (mode : BitVec 2) (dd : BitVec 6) (ext : BitVec 10)
  /-- LD_B (R232): Bundle operation LD.B loads a sign-extended byte. -/
  | ldB (n : Fin 64) (gap : BitVec 4) (ax : BitVec 3) (mode : BitVec 2) (dd : BitVec 6) (ext : BitVec 10)
  /-- ST_W (R232): Bundle operation ST.W stores 32 bits at a(ax). -/
  | stW (n : Fin 64) (gap : BitVec 4) (ax : BitVec 3) (mode : BitVec 2) (dd : BitVec 6) (ext : BitVec 10)
  /-- ST_D (R232): Bundle operation ST.D stores a register pair. -/
  | stD (n : Fin 64) (gap : BitVec 4) (ax : BitVec 3) (mode : BitVec 2) (dd : BitVec 6) (ext : BitVec 10)
  /-- LDXY (R232): Bundle operation LDXY loads a pair from X or coefficient memory and a pair from Y. -/
  | ldxy (n : Fin 64) (gap : BitVec 4) (ax : BitVec 3) (mode : BitVec 2) (dd : BitVec 6) (ext : BitVec 10)
  /-- ST_N (R236): Bundle operation ST.N stores a narrowed accumulator. -/
  | stN (n : Fin 64) (gap : BitVec 4) (ax : BitVec 3) (mode : BitVec 2) (dd : BitVec 6) (ext : BitVec 10)
  /-- ST_NC (R236): Bundle operation ST.NC stores narrowed acc0 then acc1. -/
  | stNc (n : Fin 64) (gap : BitVec 4) (ax : BitVec 3) (mode : BitVec 2) (dd : BitVec 6) (ext : BitVec 10)
  /-- AMOD (R232): Bundle operation AMOD adds a signed increment to an address register. -/
  | amod (n : Fin 64) (gap : BitVec 4) (ax : BitVec 3) (mode : BitVec 2) (dd : BitVec 6) (ext : BitVec 10)
  /-- MVA (R232): Bundle operation MVA moves a data register into an address register. -/
  | mva (n : Fin 64) (gap : BitVec 4) (ax : BitVec 3) (mode : BitVec 2) (dd : BitVec 6) (ext : BitVec 10)
  /-- MVM (R232): Bundle operation MVM moves a data register into a modifier. -/
  | mvm (n : Fin 64) (gap : BitVec 4) (ax : BitVec 3) (mode : BitVec 2) (dd : BitVec 6) (ext : BitVec 10)
  /-- MVD (R232): Bundle operation MVD moves an address register into a data register. -/
  | mvd (n : Fin 64) (gap : BitVec 4) (ax : BitVec 3) (mode : BitVec 2) (dd : BitVec 6) (ext : BitVec 10)
  /-- MVMD (R232): Bundle operation MVMD moves a modifier into a data register. -/
  | mvmd (n : Fin 64) (gap : BitVec 4) (ax : BitVec 3) (mode : BitVec 2) (dd : BitVec 6) (ext : BitVec 10)
  /-- MVC (R232): Bundle operation MVC reads a control register into a data register. -/
  | mvc (n : Fin 64) (gap : BitVec 4) (ax : BitVec 3) (mode : BitVec 2) (dd : BitVec 6) (ext : BitVec 10)
  /-- MVCW (R232): Bundle operation MVCW writes a control register from a data register. -/
  | mvcw (n : Fin 64) (gap : BitVec 4) (ax : BitVec 3) (mode : BitVec 2) (dd : BitVec 6) (ext : BitVec 10)
  /-- MUL (R234): Bundle operation MUL sets an accumulator to an aligned product. -/
  | mul (n : Fin 64) (gap : BitVec 4) (s1 : BitVec 6) (s2 : BitVec 6) (aux : BitVec 7)
  /-- MAC (R234): Bundle operation MAC adds an aligned product to an accumulator. -/
  | mac (n : Fin 64) (gap : BitVec 4) (s1 : BitVec 6) (s2 : BitVec 6) (aux : BitVec 7)
  /-- MSU (R234): Bundle operation MSU subtracts an aligned product from an accumulator. -/
  | msu (n : Fin 64) (gap : BitVec 4) (s1 : BitVec 6) (s2 : BitVec 6) (aux : BitVec 7)
  /-- DMAC (R234): Bundle operation DMAC performs two multiply-accumulates on pairs into acc0 and acc1. -/
  | dmac (n : Fin 64) (gap : BitVec 4) (s1 : BitVec 6) (s2 : BitVec 6) (aux : BitVec 7)
  /-- CMUL (R234): Bundle operation CMUL sets the accumulators to a complex product. -/
  | cmul (n : Fin 64) (gap : BitVec 4) (s1 : BitVec 6) (s2 : BitVec 6) (aux : BitVec 7)
  /-- CMAC (R234): Bundle operation CMAC adds a complex product to the accumulators. -/
  | cmac (n : Fin 64) (gap : BitVec 4) (s1 : BitVec 6) (s2 : BitVec 6) (aux : BitVec 7)
  /-- CMACJ (R234): Bundle operation CMACJ adds s1 times the conjugate of s2 to the accumulators. -/
  | cmacj (n : Fin 64) (gap : BitVec 4) (s1 : BitVec 6) (s2 : BitVec 6) (aux : BitVec 7)
  /-- ACLR (R234): Bundle operation ACLR clears the selected accumulators. -/
  | aclr (n : Fin 64) (gap : BitVec 4) (s1 : BitVec 6) (s2 : BitVec 6) (aux : BitVec 7)
  /-- NRW (R236): Bundle operation NRW narrows an accumulator into a data register. -/
  | nrw (n : Fin 64) (gap : BitVec 4) (s1 : BitVec 6) (s2 : BitVec 6) (aux : BitVec 7)
  /-- ASH (R234): Bundle operation ASH shifts an accumulator. -/
  | ash (n : Fin 64) (gap : BitVec 4) (s1 : BitVec 6) (s2 : BitVec 6) (aux : BitVec 7)
  /-- ADD (R234): Bundle operation ADD adds with wrap. -/
  | add (n : Fin 64) (gap : BitVec 4) (s1 : BitVec 6) (s2 : BitVec 6) (aux : BitVec 7)
  /-- SUB (R234): Bundle operation SUB subtracts with wrap. -/
  | sub (n : Fin 64) (gap : BitVec 4) (s1 : BitVec 6) (s2 : BitVec 6) (aux : BitVec 7)
  /-- ADDS (R234): Bundle operation ADDS adds with saturation. -/
  | adds (n : Fin 64) (gap : BitVec 4) (s1 : BitVec 6) (s2 : BitVec 6) (aux : BitVec 7)
  /-- SUBS (R234): Bundle operation SUBS subtracts with saturation. -/
  | subs (n : Fin 64) (gap : BitVec 4) (s1 : BitVec 6) (s2 : BitVec 6) (aux : BitVec 7)
  /-- AND (R234): Bundle operation AND forms a bitwise and. -/
  | and (n : Fin 64) (gap : BitVec 4) (s1 : BitVec 6) (s2 : BitVec 6) (aux : BitVec 7)
  /-- OR (R234): Bundle operation OR forms a bitwise or. -/
  | or (n : Fin 64) (gap : BitVec 4) (s1 : BitVec 6) (s2 : BitVec 6) (aux : BitVec 7)
  /-- XOR (R234): Bundle operation XOR forms a bitwise exclusive or. -/
  | xor (n : Fin 64) (gap : BitVec 4) (s1 : BitVec 6) (s2 : BitVec 6) (aux : BitVec 7)
  /-- SHL (R234): Bundle operation SHL shifts left with wrap. -/
  | shl (n : Fin 64) (gap : BitVec 4) (s1 : BitVec 6) (s2 : BitVec 6) (aux : BitVec 7)
  /-- SHR (R234): Bundle operation SHR shifts right arithmetically. -/
  | shr (n : Fin 64) (gap : BitVec 4) (s1 : BitVec 6) (s2 : BitVec 6) (aux : BitVec 7)
  /-- SHRR (R234): Bundle operation SHRR shifts right arithmetically with round half up. -/
  | shrr (n : Fin 64) (gap : BitVec 4) (s1 : BitVec 6) (s2 : BitVec 6) (aux : BitVec 7)
  /-- MIN (R234): Bundle operation MIN takes the signed minimum. -/
  | min (n : Fin 64) (gap : BitVec 4) (s1 : BitVec 6) (s2 : BitVec 6) (aux : BitVec 7)
  /-- MAX (R234): Bundle operation MAX takes the signed maximum. -/
  | max (n : Fin 64) (gap : BitVec 4) (s1 : BitVec 6) (s2 : BitVec 6) (aux : BitVec 7)
  /-- CLS (R234): Bundle operation CLS counts the redundant sign bits of a register. -/
  | cls (n : Fin 64) (gap : BitVec 4) (s1 : BitVec 6) (s2 : BitVec 6) (aux : BitVec 7)
  /-- CLSA (R234): Bundle operation CLSA counts the redundant sign bits of an accumulator. -/
  | clsa (n : Fin 64) (gap : BitVec 4) (s1 : BitVec 6) (s2 : BitVec 6) (aux : BitVec 7)
  /-- MOVI (R234): Bundle operation MOVI loads a signed 13-bit immediate. -/
  | movi (n : Fin 64) (gap : BitVec 4) (s1 : BitVec 6) (s2 : BitVec 6) (aux : BitVec 7)
  /-- TST (R234): Bundle operation TST sets the Z and N flags from a register. -/
  | tst (n : Fin 64) (gap : BitVec 4) (s1 : BitVec 6) (s2 : BitVec 6) (aux : BitVec 7)
  /-- BR (R237): Bundle operation BR branches after two delay slots. -/
  | br (n : Fin 64) (gap : BitVec 4) (op : BitVec 10)
  /-- BZ (R237): Bundle operation BZ branches when Z is set. -/
  | bz (n : Fin 64) (gap : BitVec 4) (op : BitVec 10)
  /-- BNZ (R237): Bundle operation BNZ branches when Z is clear. -/
  | bnz (n : Fin 64) (gap : BitVec 4) (op : BitVec 10)
  /-- BN (R237): Bundle operation BN branches when N is set. -/
  | bn (n : Fin 64) (gap : BitVec 4) (op : BitVec 10)
  /-- BNN (R237): Bundle operation BNN branches when N is clear. -/
  | bnn (n : Fin 64) (gap : BitVec 4) (op : BitVec 10)
  /-- CALL (R237): Bundle operation CALL sets link and branches. -/
  | call (n : Fin 64) (gap : BitVec 4) (op : BitVec 10)
  /-- RET (R237): Bundle operation RET returns to link. -/
  | ret (n : Fin 64) (gap : BitVec 4) (op : BitVec 10)
  /-- END (R237): Bundle operation END ends the program. -/
  | endOp (n : Fin 64) (gap : BitVec 4) (op : BitVec 10)
  /-- RBG (R244): Bundle operation RBG resumes a preempted background program at bpc. -/
  | rbg (n : Fin 64) (gap : BitVec 4) (op : BitVec 10)
  /-- LSET (R238): Bundle operation LSET sets a loop count from a register. -/
  | lset (n : Fin 64) (gap : BitVec 4) (op : BitVec 10)
  /-- LOOP (R238): Bundle operation LOOP sets up a zero-overhead loop body that repeats until its count reaches zero. -/
  | loop (n : Fin 64) (gap : BitVec 4) (op : BitVec 10)
  /-- ROT (R237): Bundle operation ROT sets or decrements the rotating base. -/
  | rot (n : Fin 64) (gap : BitVec 4) (op : BitVec 10)
  /-- ATOM (R237): Bundle operation ATOM makes the next n bundles non-preemptible. -/
  | atom (n : Fin 64) (gap : BitVec 4) (op : BitVec 10)
  /-- TONGS_ENABLE (R252): Enabling a Tongs channel sets ext and clears referenced. -/
  | tongsEnable (m : Master) (c : Fin 32) (levels : BitVec 3)
  /-- TONGS_DISABLE (R270): Disabling a Tongs channel stops it and disarms its probes. -/
  | tongsDisable (m : Master) (c : Fin 32)
  /-- QUADRATURE_EDGE (R255): An accepted change of A or B moves ext by one count and timestamps the edge, or flags an illegal transition. -/
  | quadratureEdge (c : Fin 32) (a : Bool) (b : Bool) (te : DWord) (skew : Fin 5)
  /-- WIRE_DISAGREEMENT (R256): Both lines of a pair stand on one side for wire sample clocks; WIRE latches, valid clears and code 2 is raised. -/
  | wireDisagreement (c : Fin 32) (pair : Fin 3)
  /-- INDEX_EVENT (R257): The filtered Z rises; ext is latched and the index is checked, corrected or referenced by mode. -/
  | indexEvent (c : Fin 32) (te : DWord) (skew : Fin 5)
  /-- HALL_SECTOR_CHANGE (R260): The Hall code changes; ext moves by one sector or HALL_ILLEGAL latches. -/
  | hallSectorChange (c : Fin 32) (code : BitVec 3) (te : DWord) (skew : Fin 5)
  /-- SSI_FRAME_START (R261): At common instant plus start, Tongs begins clocking an SSI frame. -/
  | ssiFrameStart (c : Fin 32) (low : Bool)
  /-- SSI_FRAME_END (R262): An SSI frame ends and is accepted and unwrapped into ext, or rejected with a cause. -/
  | ssiFrameEnd (c : Fin 32) (bits : BitVec 40) (stopLow : Bool)
  /-- STANDSTILL_TIMEOUT (R264): T_ss passes since the last edge; the speed reads 0 and STANDSTILL is set. -/
  | standstillTimeout (c : Fin 32)
  /-- TONGS_CLEAR (R273): A write of TNG_CH_CLR.clr clears latched flags and TNG_CH_IDXMIS. -/
  | tongsClear (c : Fin 32)
  /-- PROBE_ARM (R269): A write of 1 to TNG_PRB_CFG.arm arms a probe. -/
  | probeArm (p : Fin 8)
  /-- PROBE_DISARM (R270): A write of 0 to TNG_PRB_CFG.arm disarms a probe. -/
  | probeDisarm (p : Fin 8)
  /-- PROBE_LATCH (R269): A selected probe edge latches the channel state and timestamp into mailbox 96 + p and raises code 7. -/
  | probeLatch (p : Fin 8) (rising : Bool) (te : DWord) (skew : Fin 5)
  /-- TNG_SAMPLE (R272): DIAG TNG_SAMPLE samples a channel at fetch and returns position, velocity and status. -/
  | tngSample (r : Fin 64)
  /-- SWAGE_LINK_SLOT (R276): In each 2.5 µs slot of the link cycle Oluend sends the channel's command message. -/
  | swageLinkSlot (c : Fin 16)
  /-- SWAGE_STATUS_MESSAGE (R277): A status message arrives and updates limits, debounce, chatter and stage_fault. -/
  | swageStatusMessage (c : Fin 16) (w : Word)
  /-- STATUS_MESSAGE_MISSING (R277): A status message fails to start in time or is invalid; three in a row latch link_fault. -/
  | statusMessageMissing (c : Fin 16)
  /-- PROFILE_TICK (R280): At each profile tick a channel chooses its velocity, advances its move and ends it at the target. -/
  | profileTick (c : Fin 16) (pick : DWord)
  /-- SWG_MOVE (R283): PARAM SWG_MOVE starts an absolute, relative or velocity move. -/
  | swgMove (r : Fin 64)
  /-- SWG_STOP (R283): PARAM SWG_STOP stops a channel with a stop ramp. -/
  | swgStop (r : Fin 64)
  /-- SWG_RESUME (R287): PARAM SWG_RESUME runs a kept remainder to its target. -/
  | swgResume (r : Fin 64)
  /-- SWG_HOME (R288): PARAM SWG_HOME runs a ram-home against a hard stop. -/
  | swgHome (r : Fin 64)
  /-- SWG_SET_ACCEL (R289): PARAM SWG_SET_ACCEL changes acceleration, deceleration and jerk. -/
  | swgSetAccel (r : Fin 64)
  /-- SWAGE_ACCEL_WRITE (R289): A write of SWG_CH_ACC, DEC or JERK records a new value applied as R289 gives. -/
  | swageAccelWrite (c : Fin 16) (which : Fin 3) (v : Word)
  /-- SWAGE_STOP_REQUEST (R286): A write of SWG_CH_CTL.stop requests a stop as SWG_STOP. -/
  | swageStopRequest (c : Fin 16)
  /-- SWAGE_ENABLE (R282): Enabling a Swage channel sends drive messages at the hold current. -/
  | swageEnable (c : Fin 16)
  /-- SWAGE_DISABLE (R282): Disabling a Swage channel stops it and sends off messages at standstill, clearing referenced. -/
  | swageDisable (c : Fin 16)
  /-- SWAGE_CLEAR (R291): A write of SWG_CH_CLR.clr clears LIMIT_CHATTER, link_fault and stage_fault. -/
  | swageClear (c : Fin 16)
  /-- HOMING_SETTLE_END (R288): The settle time ends; the position is set to the reference and the backoff starts. -/
  | homingSettleEnd (c : Fin 16)
  /-- HOLD_CURRENT_DELAY (R282): After hold_delay ms of standstill the channel sends the hold current. -/
  | holdCurrentDelay (c : Fin 16)
  /-- SCHED_LOAD (R301): BUS SCHED_LOAD checks a schedule and loads or stages it for a segment. -/
  | schedLoad (r : Fin 64) (io : HostIo)
  /-- STAGED_SCHEDULE_APPLY (R305): A staged schedule replaces the running one at the first common instant at or after its strobe, raising code 9. -/
  | stagedScheduleApply (g : Fin 8)
  /-- SEGMENT_ENABLE (R317): A write of 1 to CMB_SEG_CTL.enable starts the segment in LISTEN, or is ignored. -/
  | segmentEnable (m : Master) (g : Fin 8)
  /-- SEGMENT_DISABLE (R314): A write of 0 to CMB_SEG_CTL.enable silences the segment from the next common instant. -/
  | segmentDisable (m : Master) (g : Fin 8)
  /-- COMMON_INSTANT (R35): Compare unit 0 matches; outputs take effect, inputs are sampled, windows switch and stopping segments stop. -/
  | commonInstant
  /-- FEEDBACK_COMPLETE (R36): The feedback-complete instant of a segment fires its event. -/
  | feedbackComplete (g : Fin 8)
  /-- FRAME_RECEPTION (R308): Copies of a frame on A and B are checked, a taken copy chosen and deposited, and losses and mismatches counted. -/
  | frameReception (g : Fin 8) (slot : Option (Fin 64)) (a : Option Copy) (b : Option Copy)
  /-- MINISLOT_BOUNDARY (R300): At a mini-slot boundary the dynamic counter advances and the owner of that identifier may start a frame. -/
  | minislotBoundary (g : Fin 8)
  /-- DYNAMIC_FRAME_POST (R312): Cell firmware posts a dynamic frame for an owned identifier, refused when 4 are already waiting. -/
  | dynamicFramePost (g : Fin 8) (id : BitVec 10) (payload : List Byte)
  /-- TRANSMIT_LEAD_EXAMINATION (R313): At slot start minus 1 µs the fill buffer is copied to the send buffer, or the frame goes as a REPEAT with a late set-point. -/
  | transmitLeadExamination (g : Fin 8) (k : Fin 64)
  /-- STATIC_FRAME_TRANSMIT (R312): Oluend sends its frame in an owned static slot on both channels in the same CMB clock. -/
  | staticFrameTransmit (g : Fin 8) (k : Fin 64)
  /-- ERROR_WINDOW_ROLLOVER (R314): The per-second window counts restart each second of cell time. -/
  | errorWindowRollover
  /-- LISTEN_TIMEOUT (R319): The listen timeout expires and a coldstart-capable node enters COLDSTART. -/
  | listenTimeout (g : Fin 8)
  /-- COLDSTART_COMPLETE (R320): Four clean coldstart cycles end; the node enters SYNC as sync master. -/
  | coldstartComplete (g : Fin 8)
  /-- BACKOFF_EXPIRY (R321): The back-off expires and the node enters COLDSTART again. -/
  | backoffExpiry (g : Fin 8)
  /-- TIME_MESSAGE (R323): A TIME message gives the full cycle counter and cell time of the sender. -/
  | timeMessage (g : Fin 8)
  /-- ECHO_REQ (R325): An ECHO_REQ addressed to Oluend is answered in the same or next cycle. -/
  | echoReq (g : Fin 8)
  /-- ECHO_RESP (R325): An ECHO_RESP gives the requester its delays d_A, d_B and offset θ. -/
  | echoResp (g : Fin 8)
  /-- INTEGRATION_COMPLETE (R324): After 8 full valid cycles with an echo result, the node enters SYNC as a follower. -/
  | integrationComplete (g : Fin 8)
  /-- INTEGRATION_LIMIT_EXPIRY (R324): SYNC is not reached within integ_limit cycles; the node returns to LISTEN and raises code 5. -/
  | integrationLimitExpiry (g : Fin 8)
  /-- CLOCK_CORRECTION (R328): In the network idle time a follower applies the offset and rate corrections of its deviation. -/
  | clockCorrection (g : Fin 8)
  /-- PASSIVE_RECOVERY (R329): After 8 consecutive good cycles the node returns from PASSIVE to SYNC. -/
  | passiveRecovery (g : Fin 8)
  /-- SYNC_MASTER_LOSS (R330): The master's frame is invalid for 4 cycles; the lowest valid sync node becomes sync master. -/
  | syncMasterLoss (g : Fin 8)
  /-- SYNC_FRAME_ABSENCE (R330): No valid sync frame for 16 cycles returns the segment to LISTEN. -/
  | syncFrameAbsence (g : Fin 8)
  /-- RELEARN (R326): A write of CMB_SYNC_CTL.relearn makes every arrival offset be learned again. -/
  | relearn (g : Fin 8)
  /-- NODE_LEFT (R339): A heard slot owner is silent for 16 cycles, raising code 10. -/
  | nodeLeft (g : Fin 8) (node : Fin 32)
  /-- GUARD_CUT (R332): A drive request outside a Guard window is cut, counted and reported as code 8. -/
  | guardCut (g : Fin 8) (slot : Option (Fin 64))
  /-- GUARD_VIEW_COMPARE (R333): Each cycle Guard compares its predicted common instant with the controller's and closes on a difference above 100 ns. -/
  | guardViewCompare (g : Fin 8) (b : Bool) (diff : Word)
  /-- GUARD_SYNC_LOSS (R333): Guard closes the port after 4 cycles without any valid sync frame. -/
  | guardSyncLoss (g : Fin 8)
  /-- WAGGLE_START (R338): A write of CMB_WGL_CTL.start starts Waggle shots, or is ignored. -/
  | waggleStart (g : Fin 8)
  /-- WAGGLE_STOP (R336): A write of CMB_WGL_CTL.stop ends Waggle early. -/
  | waggleStop (g : Fin 8)
  /-- WAGGLE_SHOT (R336): Guard sends a test pulse and timestamps its reflections. -/
  | waggleShot (g : Fin 8) (crossings : List (BitVec 16 × Bool))
  /-- WAGGLE_DONE (R336): After the last shot the result goes to its mailbox and code 8 is raised. -/
  | waggleDone (g : Fin 8)
  /-- COMPARE_ARM (R347): Arming a compare unit, firing at the next tick if its target has passed. -/
  | compareArm (u : Fin 32)
  /-- COMPARE_DISARM (R347): Disarming a compare unit, which loses to a match in the same tick. -/
  | compareDisarm (u : Fin 32)
  /-- COMPARE_MATCH (R346): A compare unit 2 to 31 matches, acts, and re-arms with its period. -/
  | compareMatch (u : Fin 32)
  /-- ADC_WAKE (R413): A compare unit with action 2 wakes its converter 2,000 ns before its match. -/
  | adcWake (u : Fin 32)
  /-- CAPTURE_EDGE (R348): A capture unit timestamps an edge into its queue, or loses it when full. -/
  | captureEdge (u : Fin 16) (rising : Bool) (te : DWord) (skew : Fin 3)
  /-- CYCLE_WRITE (R34): A write of TIM_CYCLE sets the cell cycle while every segment is stopped, or is ignored. -/
  | cycleWrite (m : Master) (v : Word)
  /-- TIME_SNAPSHOT_READ (R355): A read of TIM_NOW_NS latches seconds and fraction for the reading master. -/
  | timeSnapshotRead (m : Master)
  /-- LINE_OFFSET_DELIVERY (R349): Cell firmware delivers a domain's measured offset θ to the time base. -/
  | lineOffsetDelivery (b : Bool) (theta : DWord) (rate : Word) (slave : Bool)
  /-- DOMAIN_LOSS (R350): A domain delivers no offset for loss seconds and loses validity. -/
  | domainLoss (b : Bool)
  /-- DOMAIN_REVERT (R350): A valid A domain for the revert time is selected again. -/
  | domainRevert
  /-- TPO_PULSE_END (R352): A time-pulse output returns inactive after width µs. -/
  | tpoPulseEnd (p : Fin 4)
  /-- ETH_LINK_CHANGE (R354): An Ethernet port's link changes and link_chg is set. -/
  | ethLinkChange (n : Fin 2) (link : Bool) (lock : Bool) (los : Bool) (present : Bool)
  /-- ETH_FRAME_RECEIVED (R353): An Ethernet frame is received, timestamped, taken as a zone message or by firmware, or dropped. -/
  | ethFrameReceived (n : Fin 2) (frame : List Byte) (ok : Bool) (taken : Bool)
  /-- MDIO_READ (R354): ETH_MDIO_CMD with op 0 starts a management read frame. -/
  | mdioRead (m : Master) (phy : BitVec 5) (reg : BitVec 5) (c45 : Bool)
  /-- MDIO_WRITE (R354): ETH_MDIO_CMD with op 1 starts a management write frame. -/
  | mdioWrite (m : Master) (phy : BitVec 5) (reg : BitVec 5) (c45 : Bool) (data : BitVec 16)
  /-- MDIO_ADDRESS (R354): ETH_MDIO_CMD with op 2 starts a Clause 45 address frame. -/
  | mdioAddress (m : Master) (phy : BitVec 5) (dev : BitVec 5) (reg : BitVec 16)
  /-- MDIO_FRAME_DONE (R354): A management frame ends after 25.6 µs and busy clears. -/
  | mdioFrameDone (answer : Option (BitVec 16))
  /-- SAFETY_TICK (R368): Quench evaluates inputs, resets, connections, separation, stops, outputs and PDUs, then compares its two pairs. -/
  | safetyTick (pins : QuenchPins)
  /-- SAFETY_TICK_TIMEOUT (R360): No compare match for 300 µs; Quench ticks from its SAF timer and raises source 105 code 3. -/
  | safetyTickTimeout (pins : QuenchPins)
  /-- DISCREPANCY_FAULT (R366): A pair's discrepancy count reaches T_disc; a discrepancy fault latches and source 95 code 1 is raised. -/
  | discrepancyFault (p : Fin 16)
  /-- TEST_PULSE (R365): A test-pulse source emits its pulse; an input that does not read low latches a test-pulse fault. -/
  | testPulse (t : Fin 16) (low : BitVec 32)
  /-- OUTPUT_OFF_TEST (R370): Quench switches each switch of an on output off for the test width and checks its readback. -/
  | outputOffTest (p : SwitchPair) (sw : Bool) (fell : Bool)
  /-- CONNECTION_WATCHDOG_EXPIRY (R375): An input connection has no new PDU within its watchdog time and enters FAILSAFE with source 100. -/
  | connectionWatchdogExpiry (n : Fin 128)
  /-- SOURCE_MISSING_LIMIT (R384): A position source stays missing past its limit, causing a position fault. -/
  | sourceMissingLimit (c : Fin 16) (j : Fin 16)
  /-- SS1_LIMIT_TIME_EXPIRY (R397): SS1 passes its limit time, giving cause 10 and STO. -/
  | ss1LimitTimeExpiry (c : Fin 16)
  /-- RESTART_DELAY_EXPIRY (R394): A_c has stayed above 0 for the restart delay and an automatic restart clears the separation stop. -/
  | restartDelayExpiry (c : Fin 16)
  /-- STO_FEEDBACK_TIMEOUT (R396): A drive still reports not in STO 8 ticks after STO was sent; source 93 code 4 is raised. -/
  | stoFeedbackTimeout (c : Fin 16)
  /-- LOCKSTEP_MISMATCH (R358): A mismatch within a lockstep pair puts Quench in SAFE. -/
  | lockstepMismatch (which : Fin 3)
  /-- QUENCH_WATCHDOG_EXPIRY (R357): The window watchdog is not served in its window; Quench goes to SAFE. -/
  | quenchWatchdogExpiry
  /-- QUENCH_SRAM_ERROR (R357): An uncorrectable Quench SRAM error puts Quench in SAFE. -/
  | quenchSramError
  /-- QUENCH_SCRUB (R357): Quench SRAM is scrubbed once every 10 s. -/
  | quenchScrub (corrected : BitVec 16)
  /-- CODE_CHECK (R361): Once per second Quench checks the CRC over its code, going to SAFE on failure. -/
  | codeCheck (ok : Bool)
  /-- SELF_TEST_COMPLETE (R362): Quench's self-tests end and it leaves START, or goes to SAFE on failure. -/
  | selfTestComplete (failed : Option (BitVec 8))
  /-- QUENCH_RAIL_FAULT (R498): VDD_QN or VIO_QN leaves ±8 %; Quench goes to SAFE and is held in reset. -/
  | quenchRailFault
  /-- QUENCH_RAIL_RETURN (R363): A Quench rail returns to range; Quench leaves reset directly in SAFE. -/
  | quenchRailReturn
  /-- SPS_LOAD (R378): SAFETY SPS_LOAD checks and loads the safety parameter set and writes it to flash. -/
  | spsLoad (r : Fin 64) (io : HostIo)
  /-- SPS_READ (R378): SAFETY SPS_READ writes the current set to a host buffer. -/
  | spsRead (r : Fin 64) (io : HostIo)
  /-- SPS_CONFIRM_WRITE (R379): A write of QNC_SPS_CONFIRM is compared at the next tick, confirming the set or raising source 103. -/
  | spsConfirmWrite (m : Master) (v : Word)
  /-- BRAKE_TEST (R403): SAFETY BRAKE_TEST starts a brake test or completes at once with 0x12 or 0x15. -/
  | brakeTest (r : Fin 64)
  /-- BRAKE_ENGAGE_TIME_EXPIRY (R404): t_eng after engagement the coil current is checked and test torque is requested. -/
  | brakeEngageTimeExpiry
  /-- TORQUE_RAMP_END (R404): The 50 ms torque ramp ends and the engine holds T_test. -/
  | torqueRampEnd
  /-- TORQUE_REACH_TIMEOUT (R404): Torque fails to reach 90 % within 200 ms after the ramp, giving result 2. -/
  | torqueReachTimeout
  /-- TEST_DURATION_EXPIRY (R404): The test duration ends and the torque ramps back. -/
  | testDurationExpiry
  /-- BRAKE_RELEASE_TIME_EXPIRY (R404): t_rel after release the brake test completes with its result. -/
  | brakeReleaseTimeExpiry
  /-- BRAKE_TEST_DUE (R405): The test interval passes without a passed test; due is set and source 99 code 3 raised. -/
  | brakeTestDue (b : Fin 16)
  /-- BRAKE_TEST_OVERDUE (R405): 1.5 times the test interval passes and the channel counts as failed. -/
  | brakeTestOverdue (b : Fin 16)
  /-- ADC_SOFTWARE_TRIGGER (R412): A write of ADC_SEQ_CTLq.start triggers a run, or is dropped as missed or ignored. -/
  | adcSoftwareTrigger (q : Fin 2)
  /-- ADC_TRIGGER_INPUT_EVENT (R412): A trigger input event starts a sequencer run. -/
  | adcTriggerInputEvent (tin : Fin 4) (rising : Bool)
  /-- ADC_SAMPLE (R411): At each entry's sampling instant the converter samples its input. -/
  | adcSample (q : Fin 2) (code : BitVec 16)
  /-- ADC_RESULT (R419): A conversion result completes, checks limits and open wire, updates the latest-result registers and enters the queue. -/
  | adcResult (q : Fin 2)
  /-- ADC_QUEUE_POP (R420): A read of ADC_Q_POP0 removes the oldest result and latches its rest for the reader. -/
  | adcQueuePop (m : Master)
  /-- ADC_LAST_READ (R421): A read of ADC_LAST_LOn latches ADC_LAST_HIn for the reader. -/
  | adcLastRead (m : Master) (n : Fin 24)
  /-- ADC_SEQ_DISABLE (R415): A write of 0 to ADC_SEQ_CTLq.enable lets the run finish and then sets stopped. -/
  | adcSeqDisable (q : Fin 2)
  /-- ROLE_DECISION (R426): On entry to RUN or HOLD or at boot end a paired device takes the active, standby or no role. -/
  | roleDecision
  /-- BELLOWS_LINK_TIMEOUT (R426): The Bellows link stays down for 1 s after enable; the device becomes active unpaired or raises source 110 code 3. -/
  | bellowsLinkTimeout
  /-- BELLOWS_DISABLE (R444): A write of 0 to BLW_CTL.enable moves a standby device to COMMISSION. -/
  | bellowsDisable (m : Master)
  /-- HEARTBEAT_SEND (R429): At the start of the network idle time each device sends the heartbeat for the next cycle. -/
  | heartbeatSend
  /-- HEARTBEAT_RECEIVED (R429): A heartbeat arrives, updating the partner's state and possibly silencing an active device. -/
  | heartbeatReceived (h : Heartbeat)
  /-- HEARTBEAT_LOST (R429): A heartbeat has not arrived by its deadline; hb_lost counts up and source 108 code 1 is raised at 2. -/
  | heartbeatLost
  /-- MIRROR_APPLY (R430): The closing mark of a complete mirror cycle arrives and the standby applies its items together. -/
  | mirrorApply (m : Mirror)
  /-- LANE_LOSS (R428): A Bellows lane loses block lock and is removed from the stripe. -/
  | laneLoss (n : Fin 4)
  /-- LANE_RESTORE (R441): A Bellows lane regains alignment and rejoins the stripe. -/
  | laneRestore (n : Fin 4)
  /-- TAKEOVER (R435): A ready standby takes over at the end of the pair's first slot after two lost heartbeats and a missing frame. -/
  | takeover
  /-- PAIR_SWAP (R438): BUS PAIR_SWAP schedules a planned swap to the standby. -/
  | pairSwap (r : Fin 64)
  /-- SWAP_EXECUTE (R438): At the swap cycle the active enters STANDBY and the partner becomes active. -/
  | swapExecute (firstA : Bool) (firstB : Bool)
  /-- MODE_REQUEST_RUN (R443): A write of GLB_MODE_REQ with target RUN marks a request pending. -/
  | modeRequestRun (m : Master)
  /-- MODE_REQUEST_HOLD (R443): A write of GLB_MODE_REQ with target HOLD marks a request pending. -/
  | modeRequestHold (m : Master)
  /-- MODE_REQUEST_COMMISSION (R443): A privileged write of GLB_MODE_REQ with target COMMISSION marks a request pending. -/
  | modeRequestCommission (m : Master)
  /-- MODE_REQUEST_STAGE (R443): A privileged write of GLB_MODE_REQ with target STAGE marks a request pending. -/
  | modeRequestStage (m : Master)
  /-- MODE_REQUEST_SENTINEL (R448): A privileged write of GLB_MODE_REQ with target SENTINEL marks a request pending. -/
  | modeRequestSentinel (m : Master)
  /-- MODE_REQUEST_STANDBY (R443): A write of GLB_MODE_REQ with target STANDBY, which the table does not allow by request. -/
  | modeRequestStandby (m : Master)
  /-- MODE_REQUEST_COLD_KINDLE (R443): A write of GLB_MODE_REQ with target COLD or KINDLE, refused as not allowed. -/
  | modeRequestColdKindle (m : Master) (kindle : Bool)
  /-- MODE_TRANSITION (R444): At the common instant the pending request is checked and applied or refused with a status. -/
  | modeTransition
  /-- SENTINEL_ENTRY (R449): Within 10 µs of a cause Oluend sets mode 5, stops the Hive, Foragers and Anvil, and refuses DDR requests. -/
  | sentinelEntry
  /-- SENTINEL_RAMP_SWITCH (R450): At the first common instant 2 µs after entry every engine switches chains to their SENTINEL ramps. -/
  | sentinelRampSwitch
  /-- FW_WATCHDOG_SERVE (R463): A Forager write of 0xA5A5 to GLB_FW_WDT restarts the firmware watchdog. -/
  | fwWatchdogServe (m : Master) (v : BitVec 16)
  /-- FW_WATCHDOG_EXPIRY (R448): The firmware watchdog expires, SENTINEL cause 7. -/
  | fwWatchdogExpiry
  /-- DDR_UNCORRECTABLE_READ (R45): A DDR read with an uncorrectable error is retried once and then gives an error response and source 15. -/
  | ddrUncorrectableRead (ch : Fin 2) (addr : DWord) (retryOk : Bool)
  /-- DDR_CONTROLLER_FAULT (R448): Loss of DDR training or a controller fault clears ddr_ok, SENTINEL cause 6. -/
  | ddrControllerFault (ch : Fin 2)
  /-- DDR_CORRECTABLE_THRESHOLD (R513): DDR correctable errors pass their threshold, raising source 14. -/
  | ddrCorrectableThreshold (ch : Fin 2) (n : Word)
  /-- POWER_ON_RESET (R457): Supplies rise or a monitor falls below its limit and the device resets with cause 1. -/
  | powerOnReset
  /-- PIN_RESET (R507): RESET_N low for at least 10 µs resets the device with cause 2. -/
  | pinReset (ns : Word)
  /-- SOFTWARE_RESET (R457): A write of CLK_RST_CTL.dev_reset resets the device with cause 3. -/
  | softwareReset (m : Master)
  /-- FARRIER_WATCHDOG_RESET (R457): Farrier fails to serve its own watchdog and the device resets with cause 4. -/
  | farrierWatchdogReset
  /-- PLL_UNLOCK (R509): A PLL loses lock: FAB or CMB resets the device, APP or MEM enters SENTINEL, HST acts as link-down. -/
  | pllUnlock (k : Fin 7)
  /-- STALE_RESPONSE_DISCARD (R460): A fabric response bearing an old epoch is discarded and frees its tag. -/
  | staleResponseDiscard
  /-- RESET_RELEASE (R462): Reset is released and Farrier ROM starts the boot in COLD. -/
  | resetRelease
  /-- PLL_LOCK (R462): The PLLs lock during boot and Farrier moves to FAB. -/
  | pllLock
  /-- OTP_READ_DONE (R462): Farrier has read and voted OTP and reads the KINDLE request and kindle_next. -/
  | otpReadDone (kindlePin : Bool)
  /-- IMAGE_SLOT_CHOICE (R472): Farrier checks and chooses the image slot to boot, or enters KINDLE with cause 12. -/
  | imageSlotChoice
  /-- DDR_TRAINING_DONE (R462): DDR training completes and ddr_ok is set, or Farrier resets with kindle_next. -/
  | ddrTrainingDone (ok : Bool)
  /-- FORAGER_START (R462): Farrier starts the Foragers and sets HIV and ANV enables. -/
  | foragerStart (regionsFit : Bool)
  /-- SETTINGS_MIGRATION (R477): An image at its first start migrates the settings into the other slot, or rejects itself and resets. -/
  | settingsMigration (content : List Byte) (refusal : Option Word)
  /-- END_OF_BOOT (R444): Boot ends and the start mode is entered. -/
  | endOfBoot (startRun : Bool)
  /-- STAGE_OPEN (R468): UPDATE STAGE_OPEN takes the stage lock and marks the slot EMPTY. -/
  | stageOpen (r : Fin 64)
  /-- STAGE_WRITE (R468): UPDATE STAGE_WRITE programs a body into the staged slot. -/
  | stageWrite (r : Fin 64) (io : HostIo)
  /-- STAGE_COMMIT (R468): UPDATE STAGE_COMMIT marks the slot STAGED and releases the lock. -/
  | stageCommit (r : Fin 64)
  /-- STAGE_RELEASE (R468): UPDATE STAGE_RELEASE releases the lock with the slot EMPTY. -/
  | stageRelease (r : Fin 64)
  /-- ETHERNET_STAGE_REQUEST (R470): The Ethernet update service requests a staging operation as a source. -/
  | ethernetStageRequest (op : StageOp)
  /-- STAGE_LOCK_TIMEOUT (R470): 60 s pass without a completed STAGE_WRITE and the lock is released. -/
  | stageLockTimeout
  /-- IMAGE_CONFIRM (R474): UPDATE IMAGE_CONFIRM confirms the running image and advances rollback and revocation fuses. -/
  | imageConfirm (r : Fin 64)
  /-- OWNER_FUSE (R475): UPDATE OWNER_FUSE fuses the owner key and the owner fuse. -/
  | ownerFuse (r : Fin 64) (io : HostIo) (readBack : Bool)
  /-- SETTINGS_SAVE (R476): UPDATE SETTINGS_SAVE writes the live configuration as a new generation. -/
  | settingsSave (r : Fin 64) (content : List Byte)
  /-- ATTEST (R478): DIAG ATTEST writes a report signed with the device key. -/
  | attest (r : Fin 64) (io : HostIo)
  /-- SOFTWARE_TRIGGER (R482): A write to WAX_SOFT fires a software trigger. -/
  | softwareTrigger (mask : Word)
  /-- RECORD_TAKE (R485): Waxbook takes a queued trigger and writes its record, or stops when the store is full. -/
  | recordTake
  /-- WAXBOOK_CLEAR (R490): A privileged write of WAX_CTL.clear empties the store. -/
  | waxbookClear (m : Master)
  /-- CURSOR_WINDOW_READ (R491): A read of the cursor window returns store bytes at WAX_CUR plus the offset. -/
  | cursorWindowRead (m : Master) (w : BitVec 22) (size : BitVec 4)
  /-- TRC_START (R492): TRACE TRC_START sets the trace registers and enables tracing. -/
  | trcStart (r : Fin 64)
  /-- TRC_STOP (R492): TRACE TRC_STOP stops tracing once staging has drained. -/
  | trcStop (r : Fin 64)
  /-- TRC_READ (R492): TRACE TRC_READ copies part of the trace buffer to the host. -/
  | trcRead (r : Fin 64) (io : HostIo)
  /-- COUNTERS (R493): DIAG COUNTERS writes a counter report, clearing the counters when CLEAR is set. -/
  | counters (r : Fin 64) (io : HostIo)
  /-- SUPPLY_MONITOR_SAMPLE (R498): Every 1 µs each rail is checked, latching excursions or resetting the device. -/
  | supplyMonitorSample (devs : List (BitVec 16))
  /-- THERMAL_SAMPLE (R502): Every 100 µs the hottest sensor reading raises a warning, enters SENTINEL or resets the device. -/
  | thermalSample (r0 : BitVec 8) (r1 : BitVec 8) (r2 : BitVec 8) (r3 : BitVec 8)
  /-- SAFETY_INPUT_SAMPLE (R364): Every 10 µs of SAF time Quench samples every safety input and its filter accepts a new level after the pair's filter time, excluding test-pulse windows. -/
  | safetyInputSample (levels : BitVec 32)
  /-- FLASH_PROGRAM_COMPLETE (R468): A flash erase and program started by STAGE_WRITE, SPS_LOAD, the set confirmation record or SETTINGS_SAVE ends, and the operation completes or fails with 0x13. -/
  | flashProgramComplete (ok : Bool)
  /-- WAXBOOK_RECORD_COMPLETE (R487): The last byte of a Waxbook record lands, WAX_FILL advances by its length, and a waiting clear proceeds. -/
  | waxbookRecordComplete (extFail : Bool)
  deriving DecidableEq, Repr

end Sys2Proof
end

