-- ==== Sys2Proof/Machine/RegMap.lean ====
section
/-!
DEFINITION. Machine/RegMap.lean: the register map of BAR0 (R13, R19), written from the register tables of the
chapters: one `Fld` per field (its BAR0 offset, the strides of its instances, its bits), one row per register with
the access codes, the range and the unit whose enable gates its WD fields, and the word each register holds after
reset.  A register that the map does not name reads zero (R19).
-/

namespace Sys2Proof.Machine

/-- A register field: the BAR0 offset of its register in instance (0, 0), the strides of the two instance numbers, and
its lowest bit and width (R7, R13). -/
structure Fld where
  off : Nat
  s1 : Nat
  s2 : Nat
  lo : Nat
  width : Nat
  deriving DecidableEq, Repr

/-- Access codes (R14).  `act`: the write acts through a command of its own; `actClr`: a write of 0 does; `roLt16`:
RO on instances 0 to 15 (HIF_SQ_CFG.class). -/
inductive AccCode where
  | rw | ro | rc | wd | ws | wp | pv | t3 | mb | act | actClr | roLt16
  deriving DecidableEq, Repr

/-- The values a field's map admits (R82, check 7). -/
inductive Rng where
  | any
  | span (lo hi : Nat)
  | step (lo hi by_ : Nat)
  deriving DecidableEq, Repr

/-- A field's reset value, by its instance number. -/
inductive Rst where
  | k (v : Nat)
  | ix
  | cqOf
  | evt
  | lt16 (v : Nat)
  | at0 (v : Nat)
  | pick (a b : Nat)
  deriving DecidableEq, Repr

/-- The unit whose disable condition and wr_ignored flag a register follows (R85). -/
inductive RegUnit where
  | plain | sq | cq | hiv | trc | ctx | anv | anvg | tmp | tng | prb | swg | seg | ptp | cmp | cap | tpo | ethp | ethz
  | qnc | adc | adcs | adce | blw | wax
  deriving DecidableEq, Repr

/-- One field of a register row. -/
structure FieldRow where
  fld : Fld
  acc : List AccCode
  rng : Rng
  rst : Rst
  deriving DecidableEq, Repr

/-- One register: the offset of its first instance, stride and count of both instance numbers, its unit, its fields. -/
structure RegRow where
  off : Nat
  s1 : Nat
  c1 : Nat
  s2 : Nat
  c2 : Nat
  unit : RegUnit
  fields : List FieldRow
  deriving DecidableEq, Repr

/-! ## The fields -/

def F.HIF_STAT_link_speed : Fld := ⟨0x10004, 0x0, 0x0, 0, 4⟩
def F.HIF_STAT_link_width : Fld := ⟨0x10004, 0x0, 0x0, 4, 6⟩
def F.HIF_STAT_host_priv : Fld := ⟨0x10004, 0x0, 0x0, 10, 1⟩
def F.HIF_STAT_sentinel : Fld := ⟨0x10004, 0x0, 0x0, 11, 1⟩
def F.HIF_ACC_ERR_bad_access : Fld := ⟨0x10008, 0x0, 0x0, 0, 16⟩
def F.HIF_ACC_ERR_bad_doorbell : Fld := ⟨0x10008, 0x0, 0x0, 16, 16⟩
def F.HIF_SQ_BASE_LO_addr : Fld := ⟨0x11000, 0x40, 0x0, 6, 26⟩
def F.HIF_SQ_BASE_HI_addr : Fld := ⟨0x11004, 0x40, 0x0, 0, 32⟩
def F.HIF_SQ_CFG_size_log2 : Fld := ⟨0x11008, 0x40, 0x0, 0, 5⟩
def F.HIF_SQ_CFG_class : Fld := ⟨0x11008, 0x40, 0x0, 8, 4⟩
def F.HIF_SQ_CFG_cq : Fld := ⟨0x11008, 0x40, 0x0, 16, 6⟩
def F.HIF_SQ_CREDIT_credit : Fld := ⟨0x1100C, 0x40, 0x0, 0, 14⟩
def F.HIF_SQ_EPOCH_epoch : Fld := ⟨0x11010, 0x40, 0x0, 0, 16⟩
def F.HIF_SQ_CTL_enable : Fld := ⟨0x11014, 0x40, 0x0, 0, 1⟩
def F.HIF_SQ_CTL_reset : Fld := ⟨0x11014, 0x40, 0x0, 1, 1⟩
def F.HIF_SQ_CTL_abort_all : Fld := ⟨0x11014, 0x40, 0x0, 2, 1⟩
def F.HIF_SQ_CTL_shadow_en : Fld := ⟨0x11014, 0x40, 0x0, 3, 1⟩
def F.HIF_SQ_STAT_head : Fld := ⟨0x11018, 0x40, 0x0, 0, 16⟩
def F.HIF_SQ_STAT_outstanding : Fld := ⟨0x11018, 0x40, 0x0, 16, 14⟩
def F.HIF_SQ_STAT_refused : Fld := ⟨0x11018, 0x40, 0x0, 30, 1⟩
def F.HIF_SQ_STAT_fetch_stop : Fld := ⟨0x11018, 0x40, 0x0, 31, 1⟩
def F.HIF_SQ_INFO_refuse_code : Fld := ⟨0x1101C, 0x40, 0x0, 0, 4⟩
def F.HIF_SQ_INFO_staged : Fld := ⟨0x1101C, 0x40, 0x0, 8, 8⟩
def F.HIF_SQ_INFO_fault : Fld := ⟨0x1101C, 0x40, 0x0, 16, 1⟩
def F.HIF_SQ_ERR_stale : Fld := ⟨0x11020, 0x40, 0x0, 0, 16⟩
def F.HIF_SQ_ERR_regressive : Fld := ⟨0x11020, 0x40, 0x0, 16, 8⟩
def F.HIF_SQ_ERR_wr_ignored : Fld := ⟨0x11020, 0x40, 0x0, 24, 1⟩
def F.HIF_SQ_SHADOW_LO_addr : Fld := ⟨0x11024, 0x40, 0x0, 3, 29⟩
def F.HIF_SQ_SHADOW_HI_addr : Fld := ⟨0x11028, 0x40, 0x0, 0, 32⟩
def F.HIF_CQ_BASE_LO_addr : Fld := ⟨0x12000, 0x40, 0x0, 6, 26⟩
def F.HIF_CQ_BASE_HI_addr : Fld := ⟨0x12004, 0x40, 0x0, 0, 32⟩
def F.HIF_CQ_CFG_size_log2 : Fld := ⟨0x12008, 0x40, 0x0, 0, 5⟩
def F.HIF_CQ_CFG_vector : Fld := ⟨0x12008, 0x40, 0x0, 8, 7⟩
def F.HIF_CQ_CFG_mod_count : Fld := ⟨0x12008, 0x40, 0x0, 16, 8⟩
def F.HIF_CQ_MOD_mod_time : Fld := ⟨0x1200C, 0x40, 0x0, 0, 10⟩
def F.HIF_CQ_EPOCH_epoch : Fld := ⟨0x12010, 0x40, 0x0, 0, 16⟩
def F.HIF_CQ_CTL_enable : Fld := ⟨0x12014, 0x40, 0x0, 0, 1⟩
def F.HIF_CQ_CTL_reset : Fld := ⟨0x12014, 0x40, 0x0, 1, 1⟩
def F.HIF_CQ_STAT_tail : Fld := ⟨0x12018, 0x40, 0x0, 0, 16⟩
def F.HIF_CQ_STAT_phase : Fld := ⟨0x12018, 0x40, 0x0, 16, 1⟩
def F.HIF_CQ_STAT_full : Fld := ⟨0x12018, 0x40, 0x0, 17, 1⟩
def F.HIF_CQ_STAT_fault : Fld := ⟨0x12018, 0x40, 0x0, 18, 1⟩
def F.HIF_CQ_ERR_stale : Fld := ⟨0x12020, 0x40, 0x0, 0, 16⟩
def F.HIF_CQ_ERR_wr_ignored : Fld := ⟨0x12020, 0x40, 0x0, 24, 1⟩
def F.HIF_EVT_MAP_enable : Fld := ⟨0x13000, 0x4, 0x0, 0, 1⟩
def F.HIF_EVT_MAP_vector : Fld := ⟨0x13000, 0x4, 0x0, 8, 7⟩
def F.HIF_EVT_LOST_lost : Fld := ⟨0x13200, 0x4, 0x0, 0, 32⟩
def F.HIF_EVT_LOST_CNT_count : Fld := ⟨0x13210, 0x0, 0x0, 0, 32⟩
def F.GLB_ID_part : Fld := ⟨0x0, 0x0, 0x0, 0, 16⟩
def F.GLB_ID_stepping : Fld := ⟨0x0, 0x0, 0x0, 16, 8⟩
def F.GLB_ID_family : Fld := ⟨0x0, 0x0, 0x0, 24, 8⟩
def F.GLB_IMG_VER_version : Fld := ⟨0x4, 0x0, 0x0, 0, 32⟩
def F.GLB_UID_uid : Fld := ⟨0x10, 0x4, 0x0, 0, 32⟩
def F.GLB_STAT_mode : Fld := ⟨0x20, 0x0, 0x0, 0, 3⟩
def F.GLB_STAT_owned : Fld := ⟨0x20, 0x0, 0x0, 3, 1⟩
def F.GLB_STAT_role : Fld := ⟨0x20, 0x0, 0x0, 4, 2⟩
def F.GLB_STAT_ddr_ok : Fld := ⟨0x20, 0x0, 0x0, 6, 1⟩
def F.GLB_STAT_cycle_run : Fld := ⟨0x20, 0x0, 0x0, 7, 1⟩
def F.GLB_WRIGN_block : Fld := ⟨0x24, 0x0, 0x0, 0, 16⟩
def F.GLB_STROBE_mask : Fld := ⟨0x40, 0x0, 0x0, 0, 16⟩
def F.GLB_STROBE_now : Fld := ⟨0x40, 0x0, 0x0, 16, 1⟩
def F.GLB_STROBE_STAT_pending : Fld := ⟨0x44, 0x0, 0x0, 0, 16⟩
def F.GLB_SG_CHAIN0_group : Fld := ⟨0x48, 0x0, 0x0, 0, 32⟩
def F.GLB_SG_CHAIN1_group : Fld := ⟨0x4C, 0x0, 0x0, 0, 32⟩
def F.GLB_SG_SWARM_group : Fld := ⟨0x50, 0x0, 0x0, 0, 32⟩
def F.GLB_SG_SEG_group : Fld := ⟨0x54, 0x0, 0x0, 0, 32⟩
def F.GLB_T3_STAT_disagree : Fld := ⟨0x60, 0x0, 0x0, 0, 16⟩
def F.GLB_T3_STAT_scrub_on : Fld := ⟨0x60, 0x0, 0x0, 16, 1⟩
def F.GLB_T3_LAST_offset : Fld := ⟨0x64, 0x0, 0x0, 0, 24⟩
def F.GLB_PV_LOG_offset : Fld := ⟨0x70, 0x0, 0x0, 0, 24⟩
def F.GLB_PV_LOG_bar4 : Fld := ⟨0x70, 0x0, 0x0, 29, 1⟩
def F.GLB_PV_LOG_master : Fld := ⟨0x70, 0x0, 0x0, 24, 3⟩
def F.GLB_PV_LOG_write : Fld := ⟨0x70, 0x0, 0x0, 28, 1⟩
def F.GLB_PV_LOG_valid : Fld := ⟨0x70, 0x0, 0x0, 31, 1⟩
def F.GLB_PV_CNT_count : Fld := ⟨0x74, 0x0, 0x0, 0, 32⟩
def F.GLB_UNLOCK_CTL_request : Fld := ⟨0x80, 0x0, 0x0, 0, 1⟩
def F.GLB_UNLOCK_CTL_verify : Fld := ⟨0x80, 0x0, 0x0, 1, 1⟩
def F.GLB_UNLOCK_CTL_lock : Fld := ⟨0x80, 0x0, 0x0, 2, 1⟩
def F.GLB_UNLOCK_STAT_state : Fld := ⟨0x84, 0x0, 0x0, 0, 3⟩
def F.GLB_UNLOCK_STAT_fails : Fld := ⟨0x84, 0x0, 0x0, 8, 8⟩
def F.GLB_UNLOCK_STAT_wait : Fld := ⟨0x84, 0x0, 0x0, 16, 16⟩
def F.GLB_NONCE_nonce : Fld := ⟨0x90, 0x4, 0x0, 0, 32⟩
def F.GLB_UNLOCK_SIG_sig : Fld := ⟨0xC0, 0x4, 0x0, 0, 32⟩
def F.GLB_SCRATCH_value : Fld := ⟨0x100, 0x0, 0x0, 0, 32⟩
def F.GLB_DBG_dbg_open : Fld := ⟨0x110, 0x0, 0x0, 0, 1⟩
def F.GLB_DBG_jtag_off : Fld := ⟨0x110, 0x0, 0x0, 1, 1⟩
def F.HIV_CTL_enable : Fld := ⟨0x20000, 0x0, 0x0, 0, 1⟩
def F.HIV_STAT_fw_share : Fld := ⟨0x20004, 0x0, 0x0, 0, 12⟩
def F.HIV_STAT_ring_share : Fld := ⟨0x20004, 0x0, 0x0, 16, 12⟩
def F.HIV_STAT_spilling : Fld := ⟨0x20004, 0x0, 0x0, 28, 1⟩
def F.HIV_STAT_backpressure : Fld := ⟨0x20004, 0x0, 0x0, 29, 1⟩
def F.HIV_TICK_units : Fld := ⟨0x20008, 0x0, 0x0, 0, 7⟩
def F.HIV_AFF_wait : Fld := ⟨0x2000C, 0x0, 0x0, 0, 14⟩
def F.HIV_RESV_cores : Fld := ⟨0x20010, 0x0, 0x0, 0, 5⟩
def F.HIV_RESV_prio : Fld := ⟨0x20010, 0x0, 0x0, 8, 3⟩
def F.HIV_SPILL_BASE_LO_addr : Fld := ⟨0x20020, 0x0, 0x0, 4, 28⟩
def F.HIV_SPILL_BASE_HI_addr : Fld := ⟨0x20024, 0x0, 0x0, 0, 32⟩
def F.HIV_SPILL_SIZE_entries : Fld := ⟨0x20028, 0x0, 0x0, 0, 17⟩
def F.HIV_SPILL_STAT_count : Fld := ⟨0x2002C, 0x0, 0x0, 0, 17⟩
def F.HIV_SPILL_HIGH_high : Fld := ⟨0x20034, 0x0, 0x0, 0, 17⟩
def F.HIV_DLY_STAT_used : Fld := ⟨0x20030, 0x0, 0x0, 0, 12⟩
def F.HIV_DLY_STAT_high : Fld := ⟨0x20030, 0x0, 0x0, 16, 12⟩
def F.HIV_TRC_BASE_LO_addr : Fld := ⟨0x20040, 0x0, 0x0, 12, 20⟩
def F.HIV_TRC_BASE_HI_addr : Fld := ⟨0x20044, 0x0, 0x0, 0, 32⟩
def F.HIV_TRC_CTL_enable : Fld := ⟨0x20048, 0x0, 0x0, 0, 1⟩
def F.HIV_TRC_CTL_wrap : Fld := ⟨0x20048, 0x0, 0x0, 1, 1⟩
def F.HIV_TRC_CTL_size_log2 : Fld := ⟨0x20048, 0x0, 0x0, 4, 4⟩
def F.HIV_TRC_CTL_kinds : Fld := ⟨0x20048, 0x0, 0x0, 16, 16⟩
def F.HIV_TRC_STAT_offset : Fld := ⟨0x2004C, 0x0, 0x0, 0, 28⟩
def F.HIV_TRC_STAT_full : Fld := ⟨0x2004C, 0x0, 0x0, 28, 1⟩
def F.HIV_TRC_LOST_count : Fld := ⟨0x20050, 0x0, 0x0, 0, 32⟩
def F.HIV_ERR_wr_ignored : Fld := ⟨0x20060, 0x0, 0x0, 0, 1⟩
def F.HIV_ERR_foreign_wr : Fld := ⟨0x20060, 0x0, 0x0, 8, 8⟩
def F.HIV_ERR_orphan : Fld := ⟨0x20060, 0x0, 0x0, 16, 16⟩
def F.ANV_CTL_enable : Fld := ⟨0x40000, 0x1000, 0x0, 0, 1⟩
def F.ANV_CTL_reset : Fld := ⟨0x40000, 0x1000, 0x0, 1, 1⟩
def F.ANV_STAT_busy : Fld := ⟨0x40004, 0x1000, 0x0, 0, 1⟩
def F.ANV_STAT_stopped : Fld := ⟨0x40004, 0x1000, 0x0, 1, 1⟩
def F.ANV_STAT_phase : Fld := ⟨0x40004, 0x1000, 0x0, 4, 4⟩
def F.ANV_STAT_epoch : Fld := ⟨0x40004, 0x1000, 0x0, 8, 4⟩
def F.ANV_STAT_slot : Fld := ⟨0x40004, 0x1000, 0x0, 16, 11⟩
def F.ANV_ITER_iter : Fld := ⟨0x40008, 0x1000, 0x0, 0, 16⟩
def F.ANV_ITER_checks : Fld := ⟨0x40008, 0x1000, 0x0, 16, 16⟩
def F.ANV_CFG_resid_mb : Fld := ⟨0x4000C, 0x1000, 0x0, 0, 1⟩
def F.ANV_CNT_JOBS_count : Fld := ⟨0x40010, 0x1000, 0x0, 0, 32⟩
def F.ANV_CNT_END_deadline : Fld := ⟨0x40014, 0x1000, 0x0, 0, 16⟩
def F.ANV_CNT_END_unusable : Fld := ⟨0x40014, 0x1000, 0x0, 16, 16⟩
def F.ANV_CNT_NOTE_pivot_reg : Fld := ⟨0x40018, 0x1000, 0x0, 0, 16⟩
def F.ANV_CNT_NOTE_sat : Fld := ⟨0x40018, 0x1000, 0x0, 16, 16⟩
def F.ANV_ERR_wr_ignored : Fld := ⟨0x4001C, 0x1000, 0x0, 0, 1⟩
def F.ANV_ERR_mcode_fault : Fld := ⟨0x4001C, 0x1000, 0x0, 1, 1⟩
def F.ANV_ERR_ecc_corr : Fld := ⟨0x4001C, 0x1000, 0x0, 8, 8⟩
def F.ANV_ERR_ecc_uncorr : Fld := ⟨0x4001C, 0x1000, 0x0, 16, 1⟩
def F.ANV_RESID_value : Fld := ⟨0x40020, 0x1000, 0x0, 0, 32⟩
def F.ANV_GCTL_host_share : Fld := ⟨0x48000, 0x0, 0x0, 0, 4⟩
def F.ANV_GCTL_tau_log2 : Fld := ⟨0x48000, 0x0, 0x0, 8, 5⟩
def F.ANV_GSTAT_busy : Fld := ⟨0x48004, 0x0, 0x0, 0, 8⟩
def F.ANV_GSTAT_host_running : Fld := ⟨0x48004, 0x0, 0x0, 8, 4⟩
def F.ANV_GSTAT_planner_ready : Fld := ⟨0x48004, 0x0, 0x0, 16, 12⟩
def F.ANV_JOBTAB_LO_addr : Fld := ⟨0x48008, 0x0, 0x0, 16, 16⟩
def F.ANV_JOBTAB_HI_addr : Fld := ⟨0x4800C, 0x0, 0x0, 0, 32⟩
def F.ANV_WARM_LO_addr : Fld := ⟨0x48010, 0x0, 0x0, 16, 16⟩
def F.ANV_WARM_HI_addr : Fld := ⟨0x48014, 0x0, 0x0, 0, 32⟩
def F.ANV_SUBMIT_slot : Fld := ⟨0x48018, 0x0, 0x0, 0, 11⟩
def F.ANV_SUBMIT_status : Fld := ⟨0x48018, 0x0, 0x0, 28, 4⟩
def F.ANV_ABORT_slot : Fld := ⟨0x4801C, 0x0, 0x0, 0, 11⟩
def F.ANV_ABORT_status : Fld := ⟨0x4801C, 0x0, 0x0, 28, 4⟩
def F.ANV_GERR_wr_ignored : Fld := ⟨0x48020, 0x0, 0x0, 0, 1⟩
def F.ANV_GERR_foreign : Fld := ⟨0x48020, 0x0, 0x0, 8, 8⟩
def F.TMP_CTL_enable : Fld := ⟨0x80000, 0x1000, 0x0, 0, 1⟩
def F.TMP_CTL_reset : Fld := ⟨0x80000, 0x1000, 0x0, 1, 1⟩
def F.TMP_CTL_sat_en : Fld := ⟨0x80000, 0x1000, 0x0, 2, 1⟩
def F.TMP_STAT_running : Fld := ⟨0x80004, 0x1000, 0x0, 0, 1⟩
def F.TMP_STAT_stopped : Fld := ⟨0x80004, 0x1000, 0x0, 1, 1⟩
def F.TMP_STAT_page : Fld := ⟨0x80004, 0x1000, 0x0, 2, 1⟩
def F.TMP_STAT_trapped : Fld := ⟨0x80004, 0x1000, 0x0, 3, 1⟩
def F.TMP_STAT_epoch : Fld := ⟨0x80004, 0x1000, 0x0, 4, 4⟩
def F.TMP_STAT_slots : Fld := ⟨0x80004, 0x1000, 0x0, 8, 5⟩
def F.TMP_STAT_coupled : Fld := ⟨0x80004, 0x1000, 0x0, 13, 1⟩
def F.TMP_STAT_tune : Fld := ⟨0x80004, 0x1000, 0x0, 14, 1⟩
def F.TMP_START_seg_mask : Fld := ⟨0x80008, 0x1000, 0x0, 0, 8⟩
def F.TMP_START_ovr_limit : Fld := ⟨0x80008, 0x1000, 0x0, 16, 4⟩
def F.TMP_RUNTIME_declared : Fld := ⟨0x8000C, 0x1000, 0x0, 0, 16⟩
def F.TMP_RUNTIME_longest : Fld := ⟨0x8000C, 0x1000, 0x0, 16, 16⟩
def F.TMP_ERR_wr_ignored : Fld := ⟨0x80010, 0x1000, 0x0, 0, 1⟩
def F.TMP_ERR_trap_ill : Fld := ⟨0x80010, 0x1000, 0x0, 1, 1⟩
def F.TMP_ERR_ecc_uncorr : Fld := ⟨0x80010, 0x1000, 0x0, 2, 1⟩
def F.TMP_ERR_ecc_corr : Fld := ⟨0x80010, 0x1000, 0x0, 8, 8⟩
def F.TMP_ERR_overruns : Fld := ⟨0x80010, 0x1000, 0x0, 16, 8⟩
def F.TMP_ERR_narrow_sat : Fld := ⟨0x80010, 0x1000, 0x0, 24, 1⟩
def F.TMP_AX_CFG_axis : Fld := ⟨0x80100, 0x1000, 0x40, 0, 8⟩
def F.TMP_AX_CFG_chain : Fld := ⟨0x80100, 0x1000, 0x40, 8, 4⟩
def F.TMP_AX_CFG_in_chain : Fld := ⟨0x80100, 0x1000, 0x40, 12, 1⟩
def F.TMP_AX_CFG_ref_src : Fld := ⟨0x80100, 0x1000, 0x40, 13, 2⟩
def F.TMP_AX_CFG_fe_react : Fld := ⟨0x80100, 0x1000, 0x40, 16, 2⟩
def F.TMP_AX_CFG_gear_master : Fld := ⟨0x80100, 0x1000, 0x40, 20, 4⟩
def F.TMP_AX_CFG_valid : Fld := ⟨0x80100, 0x1000, 0x40, 31, 1⟩
def F.TMP_AX_FELIM_limit : Fld := ⟨0x80104, 0x1000, 0x40, 0, 32⟩
def F.TMP_AX_FEWARN_level : Fld := ⟨0x80108, 0x1000, 0x40, 0, 32⟩
def F.TMP_AX_FETIME_cycles : Fld := ⟨0x8010C, 0x1000, 0x40, 0, 16⟩
def F.TMP_AX_ULIM_u_min : Fld := ⟨0x80110, 0x1000, 0x40, 0, 16⟩
def F.TMP_AX_ULIM_u_max : Fld := ⟨0x80110, 0x1000, 0x40, 16, 16⟩
def F.TMP_AX_VEL_vel : Fld := ⟨0x80114, 0x1000, 0x40, 0, 32⟩
def F.TMP_AX_RAMP_accel : Fld := ⟨0x80118, 0x1000, 0x40, 0, 32⟩
def F.TMP_AX_GEAR_ratio : Fld := ⟨0x8011C, 0x1000, 0x40, 0, 32⟩
def F.TMP_AX_STAT_fe_count : Fld := ⟨0x80120, 0x1000, 0x40, 0, 16⟩
def F.TMP_AX_STAT_fe_warn : Fld := ⟨0x80120, 0x1000, 0x40, 16, 1⟩
def F.TMP_AX_STAT_fe_fault : Fld := ⟨0x80120, 0x1000, 0x40, 17, 1⟩
def F.TMP_AX_STAT_u_sat : Fld := ⟨0x80120, 0x1000, 0x40, 18, 1⟩
def F.TMP_AX_STAT_window : Fld := ⟨0x80120, 0x1000, 0x40, 19, 2⟩
def F.TMP_AX_FEMAX_max : Fld := ⟨0x80124, 0x1000, 0x40, 0, 32⟩
def F.TMP_AX_CLR_fe_clr : Fld := ⟨0x80128, 0x1000, 0x40, 0, 1⟩
def F.TMP_PROG_loaded : Fld := ⟨0x80014, 0x1000, 0x0, 0, 1⟩
def F.TMP_PROG_bg_start : Fld := ⟨0x80014, 0x1000, 0x0, 1, 1⟩
def F.TMP_PROG_bg_active : Fld := ⟨0x80014, 0x1000, 0x0, 2, 1⟩
def F.TMP_PROG_version : Fld := ⟨0x80014, 0x1000, 0x0, 16, 16⟩
def F.TMP_PROG_CNT_preempt : Fld := ⟨0x80018, 0x1000, 0x0, 0, 32⟩
def F.TMP_AX_HOOK_entry : Fld := ⟨0x8012C, 0x1000, 0x40, 0, 12⟩
def F.TMP_AX_HOOK_en : Fld := ⟨0x8012C, 0x1000, 0x40, 31, 1⟩
def F.TNG_CH_CTL_enable : Fld := ⟨0x100000, 0x200, 0x0, 0, 1⟩
def F.TNG_CH_CFG_mode : Fld := ⟨0x100004, 0x200, 0x0, 0, 2⟩
def F.TNG_CH_CFG_dir : Fld := ⟨0x100004, 0x200, 0x0, 4, 1⟩
def F.TNG_CH_CFG_ill_inval : Fld := ⟨0x100004, 0x200, 0x0, 5, 1⟩
def F.TNG_CH_CFG_quench : Fld := ⟨0x100004, 0x200, 0x0, 8, 1⟩
def F.TNG_CH_CFG_scale_shift : Fld := ⟨0x100004, 0x200, 0x0, 16, 6⟩
def F.TNG_CH_FILT_n : Fld := ⟨0x100008, 0x200, 0x0, 0, 7⟩
def F.TNG_CH_FILT_wire : Fld := ⟨0x100008, 0x200, 0x0, 8, 8⟩
def F.TNG_CH_FILT_nz : Fld := ⟨0x100008, 0x200, 0x0, 16, 7⟩
def F.TNG_CH_SCALE_scale : Fld := ⟨0x10000C, 0x200, 0x0, 0, 32⟩
def F.TNG_CH_OFFSET_LO_offset : Fld := ⟨0x100010, 0x200, 0x0, 0, 32⟩
def F.TNG_CH_OFFSET_HI_offset : Fld := ⟨0x100014, 0x200, 0x0, 0, 32⟩
def F.TNG_CH_IDX_mode : Fld := ⟨0x100018, 0x200, 0x0, 0, 3⟩
def F.TNG_CH_IDX_gate : Fld := ⟨0x100018, 0x200, 0x0, 4, 2⟩
def F.TNG_CH_IDX_gate_en : Fld := ⟨0x100018, 0x200, 0x0, 6, 1⟩
def F.TNG_CH_IDX_tol : Fld := ⟨0x100018, 0x200, 0x0, 8, 8⟩
def F.TNG_CH_CPR_cpr : Fld := ⟨0x10001C, 0x200, 0x0, 0, 24⟩
def F.TNG_CH_IDXREF_ref : Fld := ⟨0x100020, 0x200, 0x0, 0, 24⟩
def F.TNG_CH_VMIN_vmin : Fld := ⟨0x100024, 0x200, 0x0, 0, 32⟩
def F.TNG_CH_SPD_avg : Fld := ⟨0x100028, 0x200, 0x0, 0, 16⟩
def F.TNG_CH_SPD_stand : Fld := ⟨0x100028, 0x200, 0x0, 16, 16⟩
def F.TNG_CH_SSI_half : Fld := ⟨0x10002C, 0x200, 0x0, 0, 11⟩
def F.TNG_CH_SSI_len : Fld := ⟨0x10002C, 0x200, 0x0, 16, 6⟩
def F.TNG_CH_SSI_gray : Fld := ⟨0x10002C, 0x200, 0x0, 22, 1⟩
def F.TNG_CH_SSI_parity : Fld := ⟨0x10002C, 0x200, 0x0, 23, 2⟩
def F.TNG_CH_SSI_errbit_en : Fld := ⟨0x10002C, 0x200, 0x0, 25, 1⟩
def F.TNG_CH_SSI_mono : Fld := ⟨0x10002C, 0x200, 0x0, 26, 6⟩
def F.TNG_CH_SSI2_data_lsb : Fld := ⟨0x100030, 0x200, 0x0, 0, 6⟩
def F.TNG_CH_SSI2_data_w : Fld := ⟨0x100030, 0x200, 0x0, 8, 6⟩
def F.TNG_CH_SSI2_err_pos : Fld := ⟨0x100030, 0x200, 0x0, 16, 6⟩
def F.TNG_CH_SSI2_rx_delay : Fld := ⟨0x100030, 0x200, 0x0, 24, 8⟩
def F.TNG_CH_SSI3_start : Fld := ⟨0x100034, 0x200, 0x0, 0, 22⟩
def F.TNG_CH_SSIJ_jump : Fld := ⟨0x100038, 0x200, 0x0, 0, 32⟩
def F.TNG_CH_DEST_engine : Fld := ⟨0x10003C, 0x200, 0x0, 0, 6⟩
def F.TNG_CH_DEST_slot : Fld := ⟨0x10003C, 0x200, 0x0, 8, 4⟩
def F.TNG_CH_DEST_role : Fld := ⟨0x10003C, 0x200, 0x0, 12, 2⟩
def F.TNG_CH_STAT_status : Fld := ⟨0x100040, 0x200, 0x0, 0, 32⟩
def F.TNG_CH_COUNT_ext : Fld := ⟨0x100044, 0x200, 0x0, 0, 32⟩
def F.TNG_CH_VEL_vel : Fld := ⟨0x100048, 0x200, 0x0, 0, 32⟩
def F.TNG_CH_IDXLAT_ext : Fld := ⟨0x10004C, 0x200, 0x0, 0, 32⟩
def F.TNG_CH_IDXMIS_ext : Fld := ⟨0x100050, 0x200, 0x0, 0, 32⟩
def F.TNG_CH_ERR_wr_ignored : Fld := ⟨0x100054, 0x200, 0x0, 0, 1⟩
def F.TNG_CH_ERR_illegal : Fld := ⟨0x100054, 0x200, 0x0, 4, 4⟩
def F.TNG_CH_ERR_wire : Fld := ⟨0x100054, 0x200, 0x0, 8, 4⟩
def F.TNG_CH_ERR_ssi_err : Fld := ⟨0x100054, 0x200, 0x0, 12, 4⟩
def F.TNG_CH_ERR_idx_corr : Fld := ⟨0x100054, 0x200, 0x0, 16, 8⟩
def F.TNG_CH_ERR_late : Fld := ⟨0x100054, 0x200, 0x0, 24, 8⟩
def F.TNG_CH_CLR_clr : Fld := ⟨0x100058, 0x200, 0x0, 0, 1⟩
def F.TNG_CH_POS_value : Fld := ⟨0x10005C, 0x200, 0x0, 0, 32⟩
def F.TNG_PRB_CFG_arm : Fld := ⟨0x104000, 0x20, 0x0, 0, 1⟩
def F.TNG_PRB_CFG_cont : Fld := ⟨0x104000, 0x20, 0x0, 1, 1⟩
def F.TNG_PRB_CFG_edge : Fld := ⟨0x104000, 0x20, 0x0, 2, 2⟩
def F.TNG_PRB_CFG_chan : Fld := ⟨0x104000, 0x20, 0x0, 8, 5⟩
def F.TNG_PRB_CFG_filt : Fld := ⟨0x104000, 0x20, 0x0, 16, 5⟩
def F.TNG_PRB_STAT_armed : Fld := ⟨0x104004, 0x20, 0x0, 0, 1⟩
def F.TNG_PRB_STAT_lost : Fld := ⟨0x104004, 0x20, 0x0, 8, 8⟩
def F.TNG_PRB_STAT_wr_ignored : Fld := ⟨0x104004, 0x20, 0x0, 16, 1⟩
def F.TNG_PRB_RES_value : Fld := ⟨0x104008, 0x20, 0x0, 0, 32⟩
def F.SWG_CH_CTL_enable : Fld := ⟨0x110000, 0x200, 0x0, 0, 1⟩
def F.SWG_CH_CTL_stop : Fld := ⟨0x110000, 0x200, 0x0, 1, 1⟩
def F.SWG_CH_CFG_tick : Fld := ⟨0x110004, 0x200, 0x0, 0, 7⟩
def F.SWG_CH_CFG_dir : Fld := ⟨0x110004, 0x200, 0x0, 8, 1⟩
def F.SWG_CH_CFG_lim_pos_en : Fld := ⟨0x110004, 0x200, 0x0, 9, 1⟩
def F.SWG_CH_CFG_lim_neg_en : Fld := ⟨0x110004, 0x200, 0x0, 10, 1⟩
def F.SWG_CH_CFG_lim_pos_low : Fld := ⟨0x110004, 0x200, 0x0, 11, 1⟩
def F.SWG_CH_CFG_lim_neg_low : Fld := ⟨0x110004, 0x200, 0x0, 12, 1⟩
def F.SWG_CH_VMAX_vmax : Fld := ⟨0x110008, 0x200, 0x0, 0, 32⟩
def F.SWG_CH_ACC_accel : Fld := ⟨0x11000C, 0x200, 0x0, 0, 32⟩
def F.SWG_CH_DEC_decel : Fld := ⟨0x110010, 0x200, 0x0, 0, 32⟩
def F.SWG_CH_JERK_jerk : Fld := ⟨0x110014, 0x200, 0x0, 0, 32⟩
def F.SWG_CH_STOPDEC_decel : Fld := ⟨0x110018, 0x200, 0x0, 0, 32⟩
def F.SWG_CH_CUR_run : Fld := ⟨0x11001C, 0x200, 0x0, 0, 8⟩
def F.SWG_CH_CUR_hold : Fld := ⟨0x11001C, 0x200, 0x0, 8, 8⟩
def F.SWG_CH_CUR_hold_delay : Fld := ⟨0x11001C, 0x200, 0x0, 16, 8⟩
def F.SWG_CH_LIM_deb : Fld := ⟨0x110020, 0x200, 0x0, 0, 8⟩
def F.SWG_CH_LIM_chat_n : Fld := ⟨0x110020, 0x200, 0x0, 8, 8⟩
def F.SWG_CH_LIM_chat_win : Fld := ⟨0x110020, 0x200, 0x0, 16, 8⟩
def F.SWG_CH_POS_LO_pos : Fld := ⟨0x110024, 0x200, 0x0, 0, 32⟩
def F.SWG_CH_POS_HI_pos : Fld := ⟨0x110028, 0x200, 0x0, 0, 32⟩
def F.SWG_CH_VEL_vel : Fld := ⟨0x11002C, 0x200, 0x0, 0, 32⟩
def F.SWG_CH_REM_LO_rem : Fld := ⟨0x110030, 0x200, 0x0, 0, 32⟩
def F.SWG_CH_REM_HI_rem : Fld := ⟨0x110034, 0x200, 0x0, 0, 32⟩
def F.SWG_CH_STAT_state : Fld := ⟨0x110038, 0x200, 0x0, 0, 3⟩
def F.SWG_CH_STAT_referenced : Fld := ⟨0x110038, 0x200, 0x0, 3, 1⟩
def F.SWG_CH_STAT_lim_pos : Fld := ⟨0x110038, 0x200, 0x0, 4, 1⟩
def F.SWG_CH_STAT_lim_neg : Fld := ⟨0x110038, 0x200, 0x0, 5, 1⟩
def F.SWG_CH_STAT_limit_chatter : Fld := ⟨0x110038, 0x200, 0x0, 6, 1⟩
def F.SWG_CH_STAT_link_fault : Fld := ⟨0x110038, 0x200, 0x0, 7, 1⟩
def F.SWG_CH_STAT_stage_fault : Fld := ⟨0x110038, 0x200, 0x0, 8, 1⟩
def F.SWG_CH_STAT_accel_deferred : Fld := ⟨0x110038, 0x200, 0x0, 9, 1⟩
def F.SWG_CH_STAT_incr_log2 : Fld := ⟨0x110038, 0x200, 0x0, 12, 4⟩
def F.SWG_CH_STAT_address : Fld := ⟨0x110038, 0x200, 0x0, 16, 10⟩
def F.SWG_CH_ERR_wr_ignored : Fld := ⟨0x11003C, 0x200, 0x0, 0, 1⟩
def F.SWG_CH_ERR_crc : Fld := ⟨0x11003C, 0x200, 0x0, 8, 8⟩
def F.SWG_CH_ERR_missing : Fld := ⟨0x11003C, 0x200, 0x0, 16, 8⟩
def F.SWG_CH_ERR_trips : Fld := ⟨0x11003C, 0x200, 0x0, 24, 8⟩
def F.SWG_CH_CLR_clr : Fld := ⟨0x110040, 0x200, 0x0, 0, 1⟩
def F.CMB_SEG_CTL_enable : Fld := ⟨0x140000, 0x2000, 0x0, 0, 1⟩
def F.CMB_SEG_CTL_chan_a_en : Fld := ⟨0x140000, 0x2000, 0x0, 1, 1⟩
def F.CMB_SEG_CTL_chan_b_en : Fld := ⟨0x140000, 0x2000, 0x0, 2, 1⟩
def F.CMB_SEG_CTL_term_a : Fld := ⟨0x140000, 0x2000, 0x0, 3, 1⟩
def F.CMB_SEG_CTL_term_b : Fld := ⟨0x140000, 0x2000, 0x0, 4, 1⟩
def F.CMB_SEG_STAT_stopped : Fld := ⟨0x140004, 0x2000, 0x0, 0, 1⟩
def F.CMB_SEG_STAT_loaded : Fld := ⟨0x140004, 0x2000, 0x0, 1, 1⟩
def F.CMB_SEG_STAT_staged : Fld := ⟨0x140004, 0x2000, 0x0, 2, 1⟩
def F.CMB_SEG_STAT_line_mode : Fld := ⟨0x140004, 0x2000, 0x0, 4, 2⟩
def F.CMB_SEG_STAT_node : Fld := ⟨0x140004, 0x2000, 0x0, 8, 5⟩
def F.CMB_SEG_STAT_epoch : Fld := ⟨0x140004, 0x2000, 0x0, 16, 4⟩
def F.CMB_SLOT_LEN_len : Fld := ⟨0x140008, 0x2000, 0x0, 0, 10⟩
def F.CMB_SLOT_LEN_slots : Fld := ⟨0x140008, 0x2000, 0x0, 16, 7⟩
def F.CMB_DYN_minislots : Fld := ⟨0x14000C, 0x2000, 0x0, 0, 10⟩
def F.CMB_DYN_nit : Fld := ⟨0x14000C, 0x2000, 0x0, 12, 18⟩
def F.CMB_CYCLE_ns : Fld := ⟨0x140010, 0x2000, 0x0, 0, 22⟩
def F.CMB_FBC_ns : Fld := ⟨0x140014, 0x2000, 0x0, 0, 22⟩
def F.CMB_SCHED_ID_crc : Fld := ⟨0x140018, 0x2000, 0x0, 0, 32⟩
def F.CMB_SCHED_VER_version : Fld := ⟨0x14001C, 0x2000, 0x0, 0, 32⟩
def F.CMB_CYC_CNT_count : Fld := ⟨0x140020, 0x2000, 0x0, 0, 32⟩
def F.CMB_THR_loss : Fld := ⟨0x140030, 0x2000, 0x0, 0, 8⟩
def F.CMB_THR_mismatch : Fld := ⟨0x140030, 0x2000, 0x0, 8, 8⟩
def F.CMB_THR_errors : Fld := ⟨0x140030, 0x2000, 0x0, 16, 8⟩
def F.CMB_THR_late : Fld := ⟨0x140030, 0x2000, 0x0, 24, 8⟩
def F.CMB_ERR0_coding : Fld := ⟨0x140040, 0x2000, 0x10, 0, 16⟩
def F.CMB_ERR0_hdr_crc : Fld := ⟨0x140040, 0x2000, 0x10, 16, 16⟩
def F.CMB_ERR1_frm_crc : Fld := ⟨0x140044, 0x2000, 0x10, 0, 16⟩
def F.CMB_ERR1_stranger : Fld := ⟨0x140044, 0x2000, 0x10, 16, 16⟩
def F.CMB_ERR2_cycle : Fld := ⟨0x140048, 0x2000, 0x10, 0, 16⟩
def F.CMB_ERR2_length : Fld := ⟨0x140048, 0x2000, 0x10, 16, 16⟩
def F.CMB_ERR3_window : Fld := ⟨0x14004C, 0x2000, 0x10, 0, 16⟩
def F.CMB_ERR3_loss : Fld := ⟨0x14004C, 0x2000, 0x10, 16, 16⟩
def F.CMB_RX_valid : Fld := ⟨0x140060, 0x2000, 0x4, 0, 32⟩
def F.CMB_RX_ERR_mismatch : Fld := ⟨0x140068, 0x2000, 0x0, 0, 16⟩
def F.CMB_RX_ERR_lost : Fld := ⟨0x140068, 0x2000, 0x0, 16, 16⟩
def F.CMB_TX_ERR_late : Fld := ⟨0x14006C, 0x2000, 0x0, 0, 16⟩
def F.CMB_TX_ERR_drxq_ovf : Fld := ⟨0x14006C, 0x2000, 0x0, 16, 8⟩
def F.CMB_TX_ERR_wr_ignored : Fld := ⟨0x14006C, 0x2000, 0x0, 31, 1⟩
def F.CMB_SLOT_STAT_status : Fld := ⟨0x140400, 0x2000, 0x4, 0, 32⟩
def F.CMB_SYNC_CFG_timing : Fld := ⟨0x140080, 0x2000, 0x0, 0, 1⟩
def F.CMB_SYNC_CFG_coldstart_en : Fld := ⟨0x140080, 0x2000, 0x0, 1, 1⟩
def F.CMB_SYNC_CFG_rate_gain : Fld := ⟨0x140080, 0x2000, 0x0, 4, 3⟩
def F.CMB_SYNC_CFG_integ_limit : Fld := ⟨0x140080, 0x2000, 0x0, 8, 8⟩
def F.CMB_SYNC_STAT_state : Fld := ⟨0x140084, 0x2000, 0x0, 0, 3⟩
def F.CMB_SYNC_STAT_master_self : Fld := ⟨0x140084, 0x2000, 0x0, 3, 1⟩
def F.CMB_SYNC_STAT_master : Fld := ⟨0x140084, 0x2000, 0x0, 8, 5⟩
def F.CMB_SYNC_STAT_locked : Fld := ⟨0x140084, 0x2000, 0x0, 13, 1⟩
def F.CMB_SYNC_DEV_dev : Fld := ⟨0x140088, 0x2000, 0x0, 0, 16⟩
def F.CMB_SYNC_DEV_rate : Fld := ⟨0x140088, 0x2000, 0x0, 16, 16⟩
def F.CMB_SYNC_DELAY_a : Fld := ⟨0x14008C, 0x2000, 0x0, 0, 16⟩
def F.CMB_SYNC_DELAY_b : Fld := ⟨0x14008C, 0x2000, 0x0, 16, 16⟩
def F.CMB_SYNC_CNT_clamped : Fld := ⟨0x140090, 0x2000, 0x0, 0, 16⟩
def F.CMB_SYNC_CNT_losses : Fld := ⟨0x140090, 0x2000, 0x0, 16, 8⟩
def F.CMB_SYNC_CNT_collisions : Fld := ⟨0x140090, 0x2000, 0x0, 24, 8⟩
def F.CMB_SYNC_CTL_relearn : Fld := ⟨0x140094, 0x2000, 0x0, 0, 1⟩
def F.CMB_SYNC_DELAY_SET_delay : Fld := ⟨0x140098, 0x2000, 0x0, 0, 12⟩
def F.CMB_GRD_CTL_trust_star : Fld := ⟨0x1400A0, 0x2000, 0x0, 0, 1⟩
def F.CMB_GRD_STAT_closed_a : Fld := ⟨0x1400A4, 0x2000, 0x0, 0, 1⟩
def F.CMB_GRD_STAT_closed_b : Fld := ⟨0x1400A4, 0x2000, 0x0, 1, 1⟩
def F.CMB_GRD_STAT_diff : Fld := ⟨0x1400A4, 0x2000, 0x0, 8, 8⟩
def F.CMB_GRD_STAT_cuts : Fld := ⟨0x1400A4, 0x2000, 0x0, 16, 16⟩
def F.CMB_WGL_CTL_start : Fld := ⟨0x1400B0, 0x2000, 0x0, 0, 1⟩
def F.CMB_WGL_CTL_stop : Fld := ⟨0x1400B0, 0x2000, 0x0, 1, 1⟩
def F.CMB_WGL_CTL_mode : Fld := ⟨0x1400B0, 0x2000, 0x0, 2, 1⟩
def F.CMB_WGL_CTL_chan : Fld := ⟨0x1400B0, 0x2000, 0x0, 3, 1⟩
def F.CMB_WGL_CFG_vf : Fld := ⟨0x1400B4, 0x2000, 0x0, 0, 16⟩
def F.CMB_WGL_CFG_pulse : Fld := ⟨0x1400B4, 0x2000, 0x0, 16, 5⟩
def F.CMB_WGL_CFG_window : Fld := ⟨0x1400B4, 0x2000, 0x0, 21, 3⟩
def F.CMB_WGL_CFG_thr : Fld := ⟨0x1400B4, 0x2000, 0x0, 24, 8⟩
def F.CMB_WGL_STAT_busy : Fld := ⟨0x1400B8, 0x2000, 0x0, 0, 1⟩
def F.CMB_WGL_STAT_blank : Fld := ⟨0x1400B8, 0x2000, 0x0, 4, 4⟩
def F.CMB_WGL_STAT_ident : Fld := ⟨0x1400B8, 0x2000, 0x0, 16, 10⟩
def F.CMB_WGL_STAT_shots_log2 : Fld := ⟨0x1400B8, 0x2000, 0x0, 26, 6⟩
def F.CMB_WGL_RES_value : Fld := ⟨0x1400BC, 0x2000, 0x0, 0, 32⟩
def F.CMB_ARR_A_offset : Fld := ⟨0x140500, 0x2000, 0x8, 0, 16⟩
def F.CMB_ARR_B_offset : Fld := ⟨0x140504, 0x2000, 0x8, 0, 16⟩
def F.CMB_ARR_A_learned : Fld := ⟨0x140500, 0x2000, 0x8, 16, 1⟩
def F.CMB_ARR_B_learned : Fld := ⟨0x140504, 0x2000, 0x8, 16, 1⟩
def F.ETH_CTL_enable : Fld := ⟨0x190000, 0x100, 0x0, 0, 1⟩
def F.ETH_CTL_mode : Fld := ⟨0x190000, 0x100, 0x0, 1, 2⟩
def F.ETH_CTL_txdis : Fld := ⟨0x190000, 0x100, 0x0, 3, 1⟩
def F.ETH_CTL_an_en : Fld := ⟨0x190000, 0x100, 0x0, 4, 1⟩
def F.ETH_MAC_LO_addr : Fld := ⟨0x190004, 0x100, 0x0, 0, 32⟩
def F.ETH_MAC_HI_addr : Fld := ⟨0x190008, 0x100, 0x0, 0, 16⟩
def F.ETH_STAT_link : Fld := ⟨0x19000C, 0x100, 0x0, 0, 1⟩
def F.ETH_STAT_lock : Fld := ⟨0x19000C, 0x100, 0x0, 1, 1⟩
def F.ETH_STAT_los : Fld := ⟨0x19000C, 0x100, 0x0, 2, 1⟩
def F.ETH_STAT_present : Fld := ⟨0x19000C, 0x100, 0x0, 3, 1⟩
def F.ETH_STAT_link_chg : Fld := ⟨0x19000C, 0x100, 0x0, 8, 1⟩
def F.ETH_RX_FRAMES_count : Fld := ⟨0x190010, 0x100, 0x0, 0, 32⟩
def F.ETH_TX_FRAMES_count : Fld := ⟨0x190014, 0x100, 0x0, 0, 32⟩
def F.ETH_ERR_fcs : Fld := ⟨0x190018, 0x100, 0x0, 0, 16⟩
def F.ETH_ERR_dropped : Fld := ⟨0x190018, 0x100, 0x0, 16, 8⟩
def F.ETH_ERR_wr_ignored : Fld := ⟨0x190018, 0x100, 0x0, 31, 1⟩
def F.ETH_ZONE_CFG_enable : Fld := ⟨0x190400, 0x0, 0x0, 0, 1⟩
def F.ETH_ZONE_CFG_port : Fld := ⟨0x190400, 0x0, 0x0, 1, 1⟩
def F.ETH_ZONE_DST_LO_addr : Fld := ⟨0x190404, 0x0, 0x0, 0, 32⟩
def F.ETH_ZONE_DST_HI_addr : Fld := ⟨0x190408, 0x0, 0x0, 0, 16⟩
def F.ETH_MDIO_CMD_phy : Fld := ⟨0x190410, 0x0, 0x0, 0, 5⟩
def F.ETH_MDIO_CMD_reg : Fld := ⟨0x190410, 0x0, 0x0, 5, 5⟩
def F.ETH_MDIO_CMD_op : Fld := ⟨0x190410, 0x0, 0x0, 10, 2⟩
def F.ETH_MDIO_CMD_c45 : Fld := ⟨0x190410, 0x0, 0x0, 12, 1⟩
def F.ETH_MDIO_CMD_data : Fld := ⟨0x190410, 0x0, 0x0, 16, 16⟩
def F.ETH_MDIO_STAT_data : Fld := ⟨0x190414, 0x0, 0x0, 0, 16⟩
def F.ETH_MDIO_STAT_busy : Fld := ⟨0x190414, 0x0, 0x0, 16, 1⟩
def F.ETH_MDIO_STAT_noresp : Fld := ⟨0x190414, 0x0, 0x0, 17, 1⟩
def F.TIM_CYCLE_ns : Fld := ⟨0x180000, 0x0, 0x0, 0, 22⟩
def F.TIM_STAT_locked : Fld := ⟨0x180004, 0x0, 0x0, 0, 1⟩
def F.TIM_STAT_master : Fld := ⟨0x180004, 0x0, 0x0, 1, 1⟩
def F.TIM_STAT_holdover : Fld := ⟨0x180004, 0x0, 0x0, 2, 1⟩
def F.TIM_STAT_rate_limit : Fld := ⟨0x180004, 0x0, 0x0, 3, 1⟩
def F.TIM_NOW_NS_ns : Fld := ⟨0x180008, 0x0, 0x0, 0, 30⟩
def F.TIM_NOW_SEC_LO_sec : Fld := ⟨0x18000C, 0x0, 0x0, 0, 32⟩
def F.TIM_NOW_SEC_HI_sec : Fld := ⟨0x180010, 0x0, 0x0, 0, 16⟩
def F.TIM_NOW_FRAC_frac : Fld := ⟨0x180014, 0x0, 0x0, 0, 32⟩
def F.TIM_RATE_rho : Fld := ⟨0x180018, 0x0, 0x0, 0, 24⟩
def F.TIM_INIT_SEC_LO_sec : Fld := ⟨0x180020, 0x0, 0x0, 0, 32⟩
def F.TIM_INIT_SEC_HI_sec : Fld := ⟨0x180024, 0x0, 0x0, 0, 16⟩
def F.TIM_INIT_SEC_HI_valid : Fld := ⟨0x180024, 0x0, 0x0, 31, 1⟩
def F.TIM_LINE_CFG_select : Fld := ⟨0x180040, 0x0, 0x0, 0, 2⟩
def F.TIM_LINE_CFG_tau_log2 : Fld := ⟨0x180040, 0x0, 0x0, 4, 3⟩
def F.TIM_LINE_CFG_slew_max : Fld := ⟨0x180040, 0x0, 0x0, 8, 8⟩
def F.TIM_LINE_CFG_slope : Fld := ⟨0x180040, 0x0, 0x0, 16, 8⟩
def F.TIM_LINE_CFG_loss : Fld := ⟨0x180040, 0x0, 0x0, 24, 4⟩
def F.TIM_LINE_CFG_revert_log2 : Fld := ⟨0x180040, 0x0, 0x0, 28, 4⟩
def F.TIM_LINE_STAT_selected : Fld := ⟨0x180044, 0x0, 0x0, 0, 2⟩
def F.TIM_LINE_STAT_a_valid : Fld := ⟨0x180044, 0x0, 0x0, 2, 1⟩
def F.TIM_LINE_STAT_b_valid : Fld := ⟨0x180044, 0x0, 0x0, 3, 1⟩
def F.TIM_LINE_OFS_theta : Fld := ⟨0x180048, 0x4, 0x0, 0, 32⟩
def F.TIM_PTP_domain : Fld := ⟨0x180050, 0x4, 0x0, 0, 7⟩
def F.TIM_PTP_port : Fld := ⟨0x180050, 0x4, 0x0, 8, 1⟩
def F.TIM_PTP_p2p : Fld := ⟨0x180050, 0x4, 0x0, 9, 1⟩
def F.TIM_PTP_udp : Fld := ⟨0x180050, 0x4, 0x0, 10, 1⟩
def F.TIM_PTP_pd_onestep : Fld := ⟨0x180050, 0x4, 0x0, 11, 1⟩
def F.TIM_PTP_enable : Fld := ⟨0x180050, 0x4, 0x0, 31, 1⟩
def F.TIM_PTP_LAT_ingress : Fld := ⟨0x180058, 0x4, 0x0, 0, 16⟩
def F.TIM_PTP_LAT_egress : Fld := ⟨0x180058, 0x4, 0x0, 16, 16⟩
def F.TIM_CMP_CFG_arm : Fld := ⟨0x180100, 0x10, 0x0, 0, 1⟩
def F.TIM_CMP_CFG_fired : Fld := ⟨0x180100, 0x10, 0x0, 1, 1⟩
def F.TIM_CMP_CFG_action : Fld := ⟨0x180100, 0x10, 0x0, 2, 3⟩
def F.TIM_CMP_CFG_target : Fld := ⟨0x180100, 0x10, 0x0, 5, 6⟩
def F.TIM_CMP_T_LO_t : Fld := ⟨0x180104, 0x10, 0x0, 0, 32⟩
def F.TIM_CMP_T_HI_t : Fld := ⟨0x180108, 0x10, 0x0, 0, 32⟩
def F.TIM_CMP_PER_period : Fld := ⟨0x18010C, 0x10, 0x0, 0, 32⟩
def F.TIM_CAP_CFG_enable : Fld := ⟨0x180300, 0x10, 0x0, 0, 1⟩
def F.TIM_CAP_CFG_source : Fld := ⟨0x180300, 0x10, 0x0, 1, 6⟩
def F.TIM_CAP_CFG_edge : Fld := ⟨0x180300, 0x10, 0x0, 8, 2⟩
def F.TIM_CAP_CFG_filt : Fld := ⟨0x180300, 0x10, 0x0, 12, 4⟩
def F.TIM_CAP_STAT_queued : Fld := ⟨0x180304, 0x10, 0x0, 0, 4⟩
def F.TIM_CAP_STAT_lost : Fld := ⟨0x180304, 0x10, 0x0, 8, 8⟩
def F.TIM_CAP_RES_value : Fld := ⟨0x180308, 0x10, 0x0, 0, 32⟩
def F.TIM_TPO_CFG_enable : Fld := ⟨0x180400, 0x10, 0x0, 0, 1⟩
def F.TIM_TPO_CFG_invert : Fld := ⟨0x180400, 0x10, 0x0, 1, 1⟩
def F.TIM_TPO_CFG_width : Fld := ⟨0x180400, 0x10, 0x0, 8, 16⟩
def F.TIM_ERR_cmp_late : Fld := ⟨0x180500, 0x0, 0x0, 0, 32⟩
def F.QNC_STAT_behaviour : Fld := ⟨0x1A0000, 0x0, 0x0, 0, 3⟩
def F.QNC_STAT_confirmed : Fld := ⟨0x1A0000, 0x0, 0x0, 3, 1⟩
def F.QNC_STAT_set_present : Fld := ⟨0x1A0000, 0x0, 0x0, 4, 1⟩
def F.QNC_STAT_free_tick : Fld := ⟨0x1A0000, 0x0, 0x0, 5, 1⟩
def F.QNC_STAT_sto_all : Fld := ⟨0x1A0000, 0x0, 0x0, 6, 1⟩
def F.QNC_STAT_safe_cause : Fld := ⟨0x1A0000, 0x0, 0x0, 8, 4⟩
def F.QNC_SPS_CRC_crc : Fld := ⟨0x1A0004, 0x0, 0x0, 0, 32⟩
def F.QNC_SPS_CONFIRM_value : Fld := ⟨0x1A0008, 0x0, 0x0, 0, 32⟩
def F.QNC_SPS_VER_version : Fld := ⟨0x1A000C, 0x0, 0x0, 0, 32⟩
def F.QNC_IN_VAL_value : Fld := ⟨0x1A0010, 0x0, 0x0, 0, 16⟩
def F.QNC_IN_VAL_partial : Fld := ⟨0x1A0010, 0x0, 0x0, 16, 16⟩
def F.QNC_IN_FLT_disc : Fld := ⟨0x1A0014, 0x0, 0x0, 0, 16⟩
def F.QNC_IN_FLT_tp : Fld := ⟨0x1A0014, 0x0, 0x0, 16, 16⟩
def F.QNC_OUT_STAT_on : Fld := ⟨0x1A0018, 0x0, 0x0, 0, 8⟩
def F.QNC_OUT_STAT_fault : Fld := ⟨0x1A0018, 0x0, 0x0, 8, 8⟩
def F.QNC_ERR_ecc_corr : Fld := ⟨0x1A001C, 0x0, 0x0, 0, 16⟩
def F.QNC_ERR_crc_err : Fld := ⟨0x1A001C, 0x0, 0x0, 16, 8⟩
def F.QNC_ERR_wr_ignored : Fld := ⟨0x1A001C, 0x0, 0x0, 31, 1⟩
def F.QNC_TICK_count : Fld := ⟨0x1A0020, 0x0, 0x0, 0, 32⟩
def F.QNC_CONN_STAT_state : Fld := ⟨0x1A0100, 0x4, 0x0, 0, 2⟩
def F.QNC_CONN_STAT_ack_wait : Fld := ⟨0x1A0100, 0x4, 0x0, 2, 1⟩
def F.QNC_CONN_STAT_cause : Fld := ⟨0x1A0100, 0x4, 0x0, 4, 4⟩
def F.QNC_CONN_STAT_number : Fld := ⟨0x1A0100, 0x4, 0x0, 8, 24⟩
def F.QNC_SPACE_objects : Fld := ⟨0x1A0024, 0x0, 0x0, 0, 7⟩
def F.QNC_SPACE_sensors : Fld := ⟨0x1A0024, 0x0, 0x0, 8, 8⟩
def F.QNC_SPACE_eval_us : Fld := ⟨0x1A0024, 0x0, 0x0, 16, 16⟩
def F.QNC_CHAIN_STAT_stop : Fld := ⟨0x1A0400, 0x4, 0x0, 0, 2⟩
def F.QNC_CHAIN_STAT_state : Fld := ⟨0x1A0400, 0x4, 0x0, 2, 2⟩
def F.QNC_CHAIN_STAT_cause : Fld := ⟨0x1A0400, 0x4, 0x0, 4, 4⟩
def F.QNC_CHAIN_STAT_sls : Fld := ⟨0x1A0400, 0x4, 0x0, 8, 1⟩
def F.QNC_CHAIN_STAT_degraded : Fld := ⟨0x1A0400, 0x4, 0x0, 9, 1⟩
def F.QNC_CHAIN_STAT_restart : Fld := ⟨0x1A0400, 0x4, 0x0, 10, 1⟩
def F.QNC_CHAIN_STAT_allow : Fld := ⟨0x1A0400, 0x4, 0x0, 16, 16⟩
def F.QNC_BRK_STAT_state : Fld := ⟨0x1A0440, 0x4, 0x0, 0, 2⟩
def F.QNC_BRK_STAT_fault : Fld := ⟨0x1A0440, 0x4, 0x0, 2, 1⟩
def F.QNC_BRK_STAT_test_fail : Fld := ⟨0x1A0440, 0x4, 0x0, 3, 1⟩
def F.QNC_BRK_STAT_due : Fld := ⟨0x1A0440, 0x4, 0x0, 4, 1⟩
def F.QNC_BRK_STAT_result : Fld := ⟨0x1A0440, 0x4, 0x0, 5, 3⟩
def F.QNC_BRK_STAT_hours : Fld := ⟨0x1A0440, 0x4, 0x0, 16, 16⟩
def F.ADC_SEQ_CFG_first : Fld := ⟨0x120010, 0x10, 0x0, 0, 5⟩
def F.ADC_SEQ_CFG_last : Fld := ⟨0x120010, 0x10, 0x0, 8, 5⟩
def F.ADC_SEQ_CFG_trig : Fld := ⟨0x120010, 0x10, 0x0, 13, 2⟩
def F.ADC_SEQ_CFG_tin : Fld := ⟨0x120010, 0x10, 0x0, 15, 2⟩
def F.ADC_SEQ_CFG_edge : Fld := ⟨0x120010, 0x10, 0x0, 17, 2⟩
def F.ADC_SEQ_CFG_delay : Fld := ⟨0x120010, 0x10, 0x0, 19, 11⟩
def F.ADC_SEQ_CTL_enable : Fld := ⟨0x120014, 0x10, 0x0, 0, 1⟩
def F.ADC_SEQ_CTL_start : Fld := ⟨0x120014, 0x10, 0x0, 1, 1⟩
def F.ADC_SEQ_STAT_stopped : Fld := ⟨0x120018, 0x10, 0x0, 0, 1⟩
def F.ADC_SEQ_STAT_powered : Fld := ⟨0x120018, 0x10, 0x0, 1, 1⟩
def F.ADC_SEQ_STAT_missed : Fld := ⟨0x120018, 0x10, 0x0, 8, 8⟩
def F.ADC_SEQ_STAT_runs : Fld := ⟨0x120018, 0x10, 0x0, 16, 16⟩
def F.ADC_OW_THR_up : Fld := ⟨0x120040, 0x0, 0x0, 0, 8⟩
def F.ADC_OW_THR_down : Fld := ⟨0x120040, 0x0, 0x0, 8, 8⟩
def F.ADC_Q_CFG_thr : Fld := ⟨0x120044, 0x0, 0x0, 0, 9⟩
def F.ADC_Q_STAT_count : Fld := ⟨0x120048, 0x0, 0x0, 0, 10⟩
def F.ADC_Q_STAT_high : Fld := ⟨0x120048, 0x0, 0x0, 16, 10⟩
def F.ADC_Q_POP_bytes : Fld := ⟨0x120050, 0x4, 0x0, 0, 32⟩
def F.ADC_ERR_wr_ignored : Fld := ⟨0x120060, 0x0, 0x0, 0, 1⟩
def F.ADC_ERR_dropped : Fld := ⟨0x120060, 0x0, 0x0, 8, 8⟩
def F.ADC_LIM_LO_low : Fld := ⟨0x120080, 0x8, 0x0, 0, 16⟩
def F.ADC_LIM_HI_high : Fld := ⟨0x120084, 0x8, 0x0, 0, 16⟩
def F.ADC_ENT_input : Fld := ⟨0x120100, 0x4, 0x0, 0, 5⟩
def F.ADC_ENT_diff : Fld := ⟨0x120100, 0x4, 0x0, 5, 1⟩
def F.ADC_ENT_ow : Fld := ⟨0x120100, 0x4, 0x0, 6, 2⟩
def F.ADC_ENT_lim : Fld := ⟨0x120100, 0x4, 0x0, 8, 3⟩
def F.ADC_ENT_lim_en : Fld := ⟨0x120100, 0x4, 0x0, 11, 1⟩
def F.ADC_ENT_noq : Fld := ⟨0x120100, 0x4, 0x0, 12, 1⟩
def F.ADC_LAST_LO_code : Fld := ⟨0x120200, 0x8, 0x0, 0, 16⟩
def F.ADC_LAST_LO_valid : Fld := ⟨0x120200, 0x8, 0x0, 16, 1⟩
def F.ADC_LAST_LO_ow : Fld := ⟨0x120200, 0x8, 0x0, 17, 1⟩
def F.ADC_LAST_LO_lim : Fld := ⟨0x120200, 0x8, 0x0, 18, 1⟩
def F.ADC_LAST_LO_diff : Fld := ⟨0x120200, 0x8, 0x0, 19, 1⟩
def F.ADC_LAST_HI_time : Fld := ⟨0x120204, 0x8, 0x0, 0, 32⟩
def F.BLW_CTL_enable : Fld := ⟨0x1D0000, 0x0, 0x0, 0, 1⟩
def F.BLW_CFG_primary : Fld := ⟨0x1D0004, 0x0, 0x0, 0, 1⟩
def F.BLW_CFG_hb_wait : Fld := ⟨0x1D0004, 0x0, 0x0, 8, 8⟩
def F.BLW_CFG_diff_thr : Fld := ⟨0x1D0004, 0x0, 0x0, 16, 16⟩
def F.BLW_STAT_link : Fld := ⟨0x1D0008, 0x0, 0x0, 0, 1⟩
def F.BLW_STAT_lanes : Fld := ⟨0x1D0008, 0x0, 0x0, 1, 4⟩
def F.BLW_STAT_partner_role : Fld := ⟨0x1D0008, 0x0, 0x0, 5, 2⟩
def F.BLW_STAT_ready : Fld := ⟨0x1D0008, 0x0, 0x0, 7, 1⟩
def F.BLW_STAT_partner_ready : Fld := ⟨0x1D0008, 0x0, 0x0, 8, 1⟩
def F.BLW_STAT_hb_lost : Fld := ⟨0x1D0008, 0x0, 0x0, 9, 3⟩
def F.BLW_STAT_epoch : Fld := ⟨0x1D0008, 0x0, 0x0, 16, 16⟩
def F.BLW_DIGEST_digest : Fld := ⟨0x1D000C, 0x0, 0x0, 0, 32⟩
def F.BLW_PDIGEST_digest : Fld := ⟨0x1D0010, 0x0, 0x0, 0, 32⟩
def F.BLW_MIRROR_age : Fld := ⟨0x1D0014, 0x0, 0x0, 0, 8⟩
def F.BLW_MIRROR_kib : Fld := ⟨0x1D0014, 0x0, 0x0, 16, 16⟩
def F.BLW_ERR_wr_ignored : Fld := ⟨0x1D0018, 0x0, 0x0, 0, 1⟩
def F.BLW_ERR_crc : Fld := ⟨0x1D0018, 0x0, 0x0, 8, 8⟩
def F.BLW_ERR_incomplete : Fld := ⟨0x1D0018, 0x0, 0x0, 16, 8⟩
def F.BLW_ERR_shadow_diff : Fld := ⟨0x1D0018, 0x0, 0x0, 24, 8⟩
def F.BLW_LANE_ERR_blocks : Fld := ⟨0x1D001C, 0x0, 0x0, 0, 32⟩
def F.GLB_MODE_REQ_target : Fld := ⟨0x120, 0x0, 0x0, 0, 3⟩
def F.GLB_MODE_REQ_status : Fld := ⟨0x120, 0x0, 0x0, 4, 4⟩
def F.GLB_MODE_REQ_why : Fld := ⟨0x120, 0x0, 0x0, 8, 4⟩
def F.GLB_MODE_INFO_previous : Fld := ⟨0x124, 0x0, 0x0, 0, 3⟩
def F.GLB_MODE_INFO_cause : Fld := ⟨0x124, 0x0, 0x0, 8, 4⟩
def F.GLB_FW_WDT_serve : Fld := ⟨0x128, 0x0, 0x0, 0, 16⟩
def F.GLB_FW_WDT_timeout : Fld := ⟨0x128, 0x0, 0x0, 16, 8⟩
def F.GLB_KDL_STAT_torque : Fld := ⟨0x180, 0x0, 0x0, 0, 8⟩
def F.GLB_KDL_STAT_fb_valid : Fld := ⟨0x180, 0x0, 0x0, 8, 8⟩
def F.GLB_KDL_STAT_speed_fault : Fld := ⟨0x180, 0x0, 0x0, 16, 8⟩
def F.GLB_KDL_STAT_enabling : Fld := ⟨0x180, 0x0, 0x0, 24, 1⟩
def F.GLB_KDL_KP_kp : Fld := ⟨0x200, 0x10, 0x0, 0, 32⟩
def F.GLB_KDL_KD_kd : Fld := ⟨0x204, 0x10, 0x0, 0, 32⟩
def F.GLB_KDL_JOG_vel : Fld := ⟨0x208, 0x10, 0x0, 0, 32⟩
def F.GLB_KDL_CFG_ulim : Fld := ⟨0x20C, 0x10, 0x0, 0, 15⟩
def F.GLB_KDL_CFG_ramp_log2 : Fld := ⟨0x20C, 0x10, 0x0, 16, 5⟩
def F.GLB_KDL_CFG_axis_en : Fld := ⟨0x20C, 0x10, 0x0, 24, 1⟩
def F.GLB_KDL_CFG_brake : Fld := ⟨0x20C, 0x10, 0x0, 25, 1⟩
def F.CLK_RST_CTL_dev_reset : Fld := ⟨0x1F0000, 0x0, 0x0, 0, 1⟩
def F.CLK_RST_CTL_kindle_next : Fld := ⟨0x1F0000, 0x0, 0x0, 1, 1⟩
def F.CLK_RST_CTL_busy : Fld := ⟨0x1F0000, 0x0, 0x0, 31, 1⟩
def F.CLK_RST_CAUSE_cause : Fld := ⟨0x1F0004, 0x0, 0x0, 0, 4⟩
def F.CLK_RST_CAUSE_warm : Fld := ⟨0x1F0004, 0x0, 0x0, 8, 8⟩
def F.CLK_RST_CAUSE_busy : Fld := ⟨0x1F0004, 0x0, 0x0, 31, 1⟩
def F.UPD_STAT_running : Fld := ⟨0x1E0000, 0x0, 0x0, 0, 1⟩
def F.UPD_STAT_confirmed : Fld := ⟨0x1E0000, 0x0, 0x0, 1, 1⟩
def F.UPD_STAT_busy : Fld := ⟨0x1E0000, 0x0, 0x0, 31, 1⟩
def F.UPD_SLOT_VER_LO_version : Fld := ⟨0x1E0010, 0x10, 0x0, 0, 16⟩
def F.UPD_SLOT_VER_HI_version : Fld := ⟨0x1E0014, 0x10, 0x0, 0, 16⟩
def F.UPD_SLOT_REC_state : Fld := ⟨0x1E0018, 0x10, 0x0, 0, 3⟩
def F.UPD_SLOT_REC_trials : Fld := ⟨0x1E0018, 0x10, 0x0, 4, 2⟩
def F.UPD_SLOT_REC_reject : Fld := ⟨0x1E0018, 0x10, 0x0, 8, 4⟩
def F.UPD_SLOT_REC_rollback : Fld := ⟨0x1E0018, 0x10, 0x0, 16, 7⟩
def F.UPD_STAGE_owner : Fld := ⟨0x1E0040, 0x0, 0x0, 0, 2⟩
def F.UPD_STAGE_slot : Fld := ⟨0x1E0040, 0x0, 0x0, 2, 1⟩
def F.UPD_STAGE_written : Fld := ⟨0x1E0040, 0x0, 0x0, 4, 25⟩
def F.UPD_FUSE_rollback : Fld := ⟨0x1E0050, 0x0, 0x0, 0, 7⟩
def F.UPD_FUSE_revoked : Fld := ⟨0x1E0050, 0x0, 0x0, 8, 4⟩
def F.UPD_BOOT_NOTE_fell_back : Fld := ⟨0x1E0060, 0x0, 0x0, 0, 1⟩
def F.UPD_BOOT_NOTE_first : Fld := ⟨0x1E0060, 0x0, 0x0, 1, 1⟩
def F.UPD_BOOT_NOTE_reject : Fld := ⟨0x1E0060, 0x0, 0x0, 4, 4⟩
def F.UPD_SET_slot : Fld := ⟨0x1E0070, 0x0, 0x0, 0, 1⟩
def F.UPD_SET_format : Fld := ⟨0x1E0070, 0x0, 0x0, 8, 16⟩
def F.WAX_CTL_enable : Fld := ⟨0x1C0000, 0x0, 0x0, 0, 1⟩
def F.WAX_CTL_clear : Fld := ⟨0x1C0000, 0x0, 0x0, 1, 1⟩
def F.WAX_STAT_full : Fld := ⟨0x1C0004, 0x0, 0x0, 0, 1⟩
def F.WAX_STAT_busy : Fld := ⟨0x1C0004, 0x0, 0x0, 1, 1⟩
def F.WAX_STAT_pending : Fld := ⟨0x1C0004, 0x0, 0x0, 2, 4⟩
def F.WAX_STAT_ext_fault : Fld := ⟨0x1C0004, 0x0, 0x0, 6, 1⟩
def F.WAX_STAT_ext_lost : Fld := ⟨0x1C0004, 0x0, 0x0, 7, 1⟩
def F.WAX_STAT_epoch : Fld := ⟨0x1C0004, 0x0, 0x0, 8, 4⟩
def F.WAX_STAT_lost : Fld := ⟨0x1C0004, 0x0, 0x0, 16, 16⟩
def F.WAX_FILL_bytes : Fld := ⟨0x1C0008, 0x0, 0x0, 0, 27⟩
def F.WAX_SEQ_next : Fld := ⟨0x1C000C, 0x0, 0x0, 0, 32⟩
def F.WAX_CUR_offset : Fld := ⟨0x1C0010, 0x0, 0x0, 3, 24⟩
def F.WAX_EXT_BASE_LO_addr : Fld := ⟨0x1C0014, 0x0, 0x0, 20, 12⟩
def F.WAX_EXT_BASE_HI_addr : Fld := ⟨0x1C0018, 0x0, 0x0, 0, 32⟩
def F.WAX_EXT_SIZE_mib : Fld := ⟨0x1C001C, 0x0, 0x0, 0, 7⟩
def F.WAX_SOFT_fire : Fld := ⟨0x1C0020, 0x0, 0x0, 0, 32⟩
def F.WAX_ERR_wr_ignored : Fld := ⟨0x1C0024, 0x0, 0x0, 0, 1⟩
def F.WAX_ERR_missed : Fld := ⟨0x1C0024, 0x0, 0x0, 8, 8⟩
def F.WAX_ERR_suppressed : Fld := ⟨0x1C0024, 0x0, 0x0, 16, 16⟩
def F.CLK_TEMP_now : Fld := ⟨0x1F0010, 0x0, 0x0, 0, 8⟩
def F.CLK_TEMP_peak : Fld := ⟨0x1F0010, 0x0, 0x0, 8, 8⟩
def F.CLK_TEMP_sensor : Fld := ⟨0x1F0010, 0x0, 0x0, 16, 2⟩
def F.CLK_TEMP_busy : Fld := ⟨0x1F0010, 0x0, 0x0, 31, 1⟩
def F.CLK_THERM_CFG_warn : Fld := ⟨0x1F0014, 0x0, 0x0, 0, 8⟩
def F.CLK_THERM_CFG_busy : Fld := ⟨0x1F0014, 0x0, 0x0, 31, 1⟩
def F.CLK_SUP_STAT_low : Fld := ⟨0x1F0018, 0x0, 0x0, 0, 11⟩
def F.CLK_SUP_STAT_high : Fld := ⟨0x1F0018, 0x0, 0x0, 16, 11⟩
def F.CLK_SUP_STAT_busy : Fld := ⟨0x1F0018, 0x0, 0x0, 31, 1⟩
def F.CLK_PLL_STAT_locked : Fld := ⟨0x1F001C, 0x0, 0x0, 0, 7⟩
def F.CLK_PLL_STAT_unlock : Fld := ⟨0x1F001C, 0x0, 0x0, 8, 7⟩
def F.CLK_PLL_STAT_busy : Fld := ⟨0x1F001C, 0x0, 0x0, 31, 1⟩
def F.HIV_CTX0_state : Fld := ⟨0x30000, 0x40, 0x0, 0, 3⟩
def F.HIV_CTX0_mirrored : Fld := ⟨0x30000, 0x40, 0x0, 3, 1⟩
def F.HIV_CTX0_periodic : Fld := ⟨0x30000, 0x40, 0x0, 4, 1⟩
def F.HIV_CTX0_serial : Fld := ⟨0x30000, 0x40, 0x0, 5, 1⟩
def F.HIV_CTX0_prio : Fld := ⟨0x30000, 0x40, 0x0, 8, 3⟩
def F.HIV_CTX0_last : Fld := ⟨0x30000, 0x40, 0x0, 16, 8⟩
def F.HIV_CTX0_running : Fld := ⟨0x30000, 0x40, 0x0, 24, 8⟩
def F.HIV_CTX1_mask : Fld := ⟨0x30004, 0x40, 0x0, 0, 32⟩
def F.HIV_CTX2_entry_lo : Fld := ⟨0x30008, 0x40, 0x0, 0, 32⟩
def F.HIV_CTX3_entry_hi : Fld := ⟨0x3000C, 0x40, 0x0, 0, 32⟩
def F.HIV_CTX4_save_lo : Fld := ⟨0x30010, 0x40, 0x0, 0, 32⟩
def F.HIV_CTX5_save_hi : Fld := ⟨0x30014, 0x40, 0x0, 0, 32⟩
def F.HIV_CTX6_wake_lo : Fld := ⟨0x30018, 0x40, 0x0, 0, 32⟩
def F.HIV_CTX7_wake_hi : Fld := ⟨0x3001C, 0x40, 0x0, 0, 32⟩
def F.HIV_CTX8_period : Fld := ⟨0x30020, 0x40, 0x0, 0, 32⟩
def F.HIV_CTX9_run_limit : Fld := ⟨0x30024, 0x40, 0x0, 0, 16⟩
def F.HIV_CTX9_source : Fld := ⟨0x30024, 0x40, 0x0, 16, 16⟩
def F.HIV_CTX10_runs : Fld := ⟨0x30028, 0x40, 0x0, 0, 32⟩
def F.HIV_CTX11_longest : Fld := ⟨0x3002C, 0x40, 0x0, 0, 32⟩
def F.HIV_CTX12_missed : Fld := ⟨0x30030, 0x40, 0x0, 0, 16⟩
def F.WAX_TRIG0_kind : Fld := ⟨0x1C1000, 0x10, 0x0, 0, 8⟩
def F.WAX_TRIG0_list : Fld := ⟨0x1C1000, 0x10, 0x0, 8, 4⟩
def F.WAX_TRIG0_source : Fld := ⟨0x1C1000, 0x10, 0x0, 16, 16⟩
def F.WAX_TRIG1_code : Fld := ⟨0x1C1004, 0x10, 0x0, 0, 32⟩
def F.WAX_TRIG2_instance : Fld := ⟨0x1C1008, 0x10, 0x0, 0, 16⟩
def F.WAX_TRIG2_rearm : Fld := ⟨0x1C1008, 0x10, 0x0, 16, 1⟩
def F.WAX_TRIG3_holdoff : Fld := ⟨0x1C100C, 0x10, 0x0, 0, 16⟩
def F.WAX_LIST_entry : Fld := ⟨0x1C2000, 0x100, 0x4, 0, 32⟩
def F.HIF_MSIX_ADDR_LO_addr : Fld := ⟨0x18000, 0x10, 0x0, 2, 30⟩
def F.HIF_MSIX_ADDR_HI_addr : Fld := ⟨0x18004, 0x10, 0x0, 0, 32⟩
def F.HIF_MSIX_DATA_data : Fld := ⟨0x18008, 0x10, 0x0, 0, 32⟩
def F.HIF_MSIX_CTRL_mask : Fld := ⟨0x1800C, 0x10, 0x0, 0, 1⟩
def F.HIF_MSIX_PBA_pending : Fld := ⟨0x19000, 0x4, 0x0, 0, 32⟩

/-! ## The rows -/

/-- Part 0 of the register table. -/
def regTable0 : List RegRow := [
  ⟨0x0, 0x0, 1, 0x0, 1, .plain, [⟨F.GLB_ID_part, [.ro], .any, .k 33366⟩, ⟨F.GLB_ID_stepping, [.ro], .any, .k 176⟩, ⟨F.GLB_ID_family, [.ro], .any, .k 1⟩]⟩,
  ⟨0x4, 0x0, 1, 0x0, 1, .plain, [⟨F.GLB_IMG_VER_version, [.ro], .any, .k 0⟩]⟩,
  ⟨0x10, 0x4, 4, 0x0, 1, .plain, [⟨F.GLB_UID_uid, [.ro], .any, .k 0⟩]⟩,
  ⟨0x20, 0x0, 1, 0x0, 1, .plain, [⟨F.GLB_STAT_mode, [.ro], .any, .k 0⟩, ⟨F.GLB_STAT_owned, [.ro], .any, .k 0⟩, ⟨F.GLB_STAT_role, [.ro], .any, .k 0⟩, ⟨F.GLB_STAT_ddr_ok, [.ro], .any, .k 0⟩, ⟨F.GLB_STAT_cycle_run, [.ro], .any, .k 0⟩]⟩,
  ⟨0x24, 0x0, 1, 0x0, 1, .plain, [⟨F.GLB_WRIGN_block, [.rc], .any, .k 0⟩]⟩,
  ⟨0x40, 0x0, 1, 0x0, 1, .plain, [⟨F.GLB_STROBE_mask, [.act], .any, .k 0⟩, ⟨F.GLB_STROBE_now, [.act], .any, .k 0⟩]⟩,
  ⟨0x44, 0x0, 1, 0x0, 1, .plain, [⟨F.GLB_STROBE_STAT_pending, [.ro], .any, .k 0⟩]⟩,
  ⟨0x48, 0x0, 1, 0x0, 1, .plain, [⟨F.GLB_SG_CHAIN0_group, [.rw], .any, .k 1985229328⟩]⟩,
  ⟨0x4C, 0x0, 1, 0x0, 1, .plain, [⟨F.GLB_SG_CHAIN1_group, [.rw], .any, .k 4275878552⟩]⟩,
  ⟨0x50, 0x0, 1, 0x0, 1, .plain, [⟨F.GLB_SG_SWARM_group, [.rw], .any, .k 4294967295⟩]⟩,
  ⟨0x54, 0x0, 1, 0x0, 1, .plain, [⟨F.GLB_SG_SEG_group, [.rw], .any, .k 4008636142⟩]⟩,
  ⟨0x60, 0x0, 1, 0x0, 1, .plain, [⟨F.GLB_T3_STAT_disagree, [.rc], .any, .k 0⟩, ⟨F.GLB_T3_STAT_scrub_on, [.ro], .any, .k 1⟩]⟩,
  ⟨0x64, 0x0, 1, 0x0, 1, .plain, [⟨F.GLB_T3_LAST_offset, [.ro], .any, .k 0⟩]⟩,
  ⟨0x70, 0x0, 1, 0x0, 1, .plain, [⟨F.GLB_PV_LOG_offset, [.rc], .any, .k 0⟩, ⟨F.GLB_PV_LOG_bar4, [.rc], .any, .k 0⟩, ⟨F.GLB_PV_LOG_master, [.rc], .any, .k 0⟩, ⟨F.GLB_PV_LOG_write, [.rc], .any, .k 0⟩, ⟨F.GLB_PV_LOG_valid, [.rc], .any, .k 0⟩]⟩,
  ⟨0x74, 0x0, 1, 0x0, 1, .plain, [⟨F.GLB_PV_CNT_count, [.rc], .any, .k 0⟩]⟩,
  ⟨0x80, 0x0, 1, 0x0, 1, .plain, [⟨F.GLB_UNLOCK_CTL_request, [.act], .any, .k 0⟩, ⟨F.GLB_UNLOCK_CTL_verify, [.act], .any, .k 0⟩, ⟨F.GLB_UNLOCK_CTL_lock, [.act], .any, .k 0⟩]⟩,
  ⟨0x84, 0x0, 1, 0x0, 1, .plain, [⟨F.GLB_UNLOCK_STAT_state, [.ro], .any, .k 0⟩, ⟨F.GLB_UNLOCK_STAT_fails, [.ro], .any, .k 0⟩, ⟨F.GLB_UNLOCK_STAT_wait, [.ro], .any, .k 0⟩]⟩,
  ⟨0x90, 0x4, 8, 0x0, 1, .plain, [⟨F.GLB_NONCE_nonce, [.ro], .any, .k 0⟩]⟩,
  ⟨0xC0, 0x4, 16, 0x0, 1, .plain, [⟨F.GLB_UNLOCK_SIG_sig, [.rw], .any, .k 0⟩]⟩,
  ⟨0x100, 0x0, 1, 0x0, 1, .plain, [⟨F.GLB_SCRATCH_value, [.rw], .any, .k 0⟩]⟩,
  ⟨0x110, 0x0, 1, 0x0, 1, .plain, [⟨F.GLB_DBG_dbg_open, [.pv, .t3], .any, .k 0⟩, ⟨F.GLB_DBG_jtag_off, [.pv, .t3], .any, .k 0⟩]⟩,
  ⟨0x120, 0x0, 1, 0x0, 1, .plain, [⟨F.GLB_MODE_REQ_target, [.act], .any, .k 0⟩, ⟨F.GLB_MODE_REQ_status, [.ro], .any, .k 0⟩, ⟨F.GLB_MODE_REQ_why, [.ro], .any, .k 0⟩]⟩,
  ⟨0x124, 0x0, 1, 0x0, 1, .plain, [⟨F.GLB_MODE_INFO_previous, [.ro], .any, .k 0⟩, ⟨F.GLB_MODE_INFO_cause, [.ro], .any, .k 1⟩]⟩,
  ⟨0x128, 0x0, 1, 0x0, 1, .plain, [⟨F.GLB_FW_WDT_serve, [.act], .any, .k 0⟩, ⟨F.GLB_FW_WDT_timeout, [.rw], .span 1 255, .k 20⟩]⟩]

/-- Part 1 of the register table. -/
def regTable1 : List RegRow := [
  ⟨0x180, 0x0, 1, 0x0, 1, .plain, [⟨F.GLB_KDL_STAT_torque, [.ro], .any, .k 0⟩, ⟨F.GLB_KDL_STAT_fb_valid, [.ro], .any, .k 0⟩, ⟨F.GLB_KDL_STAT_speed_fault, [.ro], .any, .k 0⟩, ⟨F.GLB_KDL_STAT_enabling, [.ro], .any, .k 0⟩]⟩,
  ⟨0x200, 0x10, 8, 0x0, 1, .plain, [⟨F.GLB_KDL_KP_kp, [.rw], .any, .k 0⟩]⟩,
  ⟨0x204, 0x10, 8, 0x0, 1, .plain, [⟨F.GLB_KDL_KD_kd, [.rw], .any, .k 0⟩]⟩,
  ⟨0x208, 0x10, 8, 0x0, 1, .plain, [⟨F.GLB_KDL_JOG_vel, [.rw], .any, .k 0⟩]⟩,
  ⟨0x20C, 0x10, 8, 0x0, 1, .plain, [⟨F.GLB_KDL_CFG_ulim, [.rw], .any, .k 0⟩, ⟨F.GLB_KDL_CFG_ramp_log2, [.rw], .any, .k 16⟩, ⟨F.GLB_KDL_CFG_axis_en, [.rw], .any, .k 0⟩, ⟨F.GLB_KDL_CFG_brake, [.rw], .any, .k 0⟩]⟩,
  ⟨0x10004, 0x0, 1, 0x0, 1, .plain, [⟨F.HIF_STAT_link_speed, [.ro], .any, .k 0⟩, ⟨F.HIF_STAT_link_width, [.ro], .any, .k 0⟩, ⟨F.HIF_STAT_host_priv, [.ro], .any, .k 0⟩, ⟨F.HIF_STAT_sentinel, [.ro], .any, .k 0⟩]⟩,
  ⟨0x10008, 0x0, 1, 0x0, 1, .plain, [⟨F.HIF_ACC_ERR_bad_access, [.rc], .any, .k 0⟩, ⟨F.HIF_ACC_ERR_bad_doorbell, [.rc], .any, .k 0⟩]⟩,
  ⟨0x11000, 0x40, 64, 0x0, 1, .sq, [⟨F.HIF_SQ_BASE_LO_addr, [.wd], .any, .k 0⟩]⟩,
  ⟨0x11004, 0x40, 64, 0x0, 1, .sq, [⟨F.HIF_SQ_BASE_HI_addr, [.wd], .any, .k 0⟩]⟩,
  ⟨0x11008, 0x40, 64, 0x0, 1, .sq, [⟨F.HIF_SQ_CFG_size_log2, [.wd], .span 6 16, .k 6⟩, ⟨F.HIF_SQ_CFG_class, [.wd, .roLt16], .any, .lt16 1⟩, ⟨F.HIF_SQ_CFG_cq, [.wd], .span 0 62, .cqOf⟩]⟩,
  ⟨0x1100C, 0x40, 64, 0x0, 1, .sq, [⟨F.HIF_SQ_CREDIT_credit, [.wd], .span 1 8192, .k 64⟩]⟩,
  ⟨0x11010, 0x40, 64, 0x0, 1, .sq, [⟨F.HIF_SQ_EPOCH_epoch, [.wd], .any, .k 0⟩]⟩,
  ⟨0x11014, 0x40, 64, 0x0, 1, .sq, [⟨F.HIF_SQ_CTL_enable, [.act], .any, .k 0⟩, ⟨F.HIF_SQ_CTL_reset, [.act], .any, .k 0⟩, ⟨F.HIF_SQ_CTL_abort_all, [.act], .any, .k 0⟩, ⟨F.HIF_SQ_CTL_shadow_en, [.wd], .any, .k 0⟩]⟩,
  ⟨0x11018, 0x40, 64, 0x0, 1, .sq, [⟨F.HIF_SQ_STAT_head, [.ro], .any, .k 0⟩, ⟨F.HIF_SQ_STAT_outstanding, [.ro], .any, .k 0⟩, ⟨F.HIF_SQ_STAT_refused, [.ro], .any, .k 0⟩, ⟨F.HIF_SQ_STAT_fetch_stop, [.ro], .any, .k 0⟩]⟩,
  ⟨0x1101C, 0x40, 64, 0x0, 1, .sq, [⟨F.HIF_SQ_INFO_refuse_code, [.ro], .any, .k 0⟩, ⟨F.HIF_SQ_INFO_staged, [.ro], .any, .k 0⟩, ⟨F.HIF_SQ_INFO_fault, [.ro], .any, .k 0⟩]⟩,
  ⟨0x11020, 0x40, 64, 0x0, 1, .sq, [⟨F.HIF_SQ_ERR_stale, [.rc], .any, .k 0⟩, ⟨F.HIF_SQ_ERR_regressive, [.rc], .any, .k 0⟩, ⟨F.HIF_SQ_ERR_wr_ignored, [.rc], .any, .k 0⟩]⟩,
  ⟨0x11024, 0x40, 64, 0x0, 1, .sq, [⟨F.HIF_SQ_SHADOW_LO_addr, [.wd], .any, .k 0⟩]⟩,
  ⟨0x11028, 0x40, 64, 0x0, 1, .sq, [⟨F.HIF_SQ_SHADOW_HI_addr, [.wd], .any, .k 0⟩]⟩,
  ⟨0x12000, 0x40, 64, 0x0, 1, .cq, [⟨F.HIF_CQ_BASE_LO_addr, [.wd], .any, .k 0⟩]⟩,
  ⟨0x12004, 0x40, 64, 0x0, 1, .cq, [⟨F.HIF_CQ_BASE_HI_addr, [.wd], .any, .k 0⟩]⟩,
  ⟨0x12008, 0x40, 64, 0x0, 1, .cq, [⟨F.HIF_CQ_CFG_size_log2, [.wd], .span 6 16, .k 6⟩, ⟨F.HIF_CQ_CFG_vector, [.wd], .any, .ix⟩, ⟨F.HIF_CQ_CFG_mod_count, [.wd], .span 1 255, .k 1⟩]⟩,
  ⟨0x1200C, 0x40, 64, 0x0, 1, .cq, [⟨F.HIF_CQ_MOD_mod_time, [.wd], .any, .k 0⟩]⟩,
  ⟨0x12010, 0x40, 64, 0x0, 1, .cq, [⟨F.HIF_CQ_EPOCH_epoch, [.wd], .any, .k 0⟩]⟩,
  ⟨0x12014, 0x40, 64, 0x0, 1, .cq, [⟨F.HIF_CQ_CTL_enable, [.act], .any, .k 0⟩, ⟨F.HIF_CQ_CTL_reset, [.act], .any, .k 0⟩]⟩]

/-- Part 2 of the register table. -/
def regTable2 : List RegRow := [
  ⟨0x12018, 0x40, 64, 0x0, 1, .cq, [⟨F.HIF_CQ_STAT_tail, [.ro], .any, .k 0⟩, ⟨F.HIF_CQ_STAT_phase, [.ro], .any, .k 1⟩, ⟨F.HIF_CQ_STAT_full, [.ro], .any, .k 0⟩, ⟨F.HIF_CQ_STAT_fault, [.ro], .any, .k 0⟩]⟩,
  ⟨0x12020, 0x40, 64, 0x0, 1, .cq, [⟨F.HIF_CQ_ERR_stale, [.rc], .any, .k 0⟩, ⟨F.HIF_CQ_ERR_wr_ignored, [.rc], .any, .k 0⟩]⟩,
  ⟨0x13000, 0x4, 128, 0x0, 1, .plain, [⟨F.HIF_EVT_MAP_enable, [.rw], .any, .k 1⟩, ⟨F.HIF_EVT_MAP_vector, [.rw], .any, .evt⟩]⟩,
  ⟨0x13200, 0x4, 4, 0x0, 1, .plain, [⟨F.HIF_EVT_LOST_lost, [.rc], .any, .k 0⟩]⟩,
  ⟨0x13210, 0x0, 1, 0x0, 1, .plain, [⟨F.HIF_EVT_LOST_CNT_count, [.rc], .any, .k 0⟩]⟩,
  ⟨0x18000, 0x10, 128, 0x0, 1, .plain, [⟨F.HIF_MSIX_ADDR_LO_addr, [.rw], .any, .k 0⟩]⟩,
  ⟨0x18004, 0x10, 128, 0x0, 1, .plain, [⟨F.HIF_MSIX_ADDR_HI_addr, [.rw], .any, .k 0⟩]⟩,
  ⟨0x18008, 0x10, 128, 0x0, 1, .plain, [⟨F.HIF_MSIX_DATA_data, [.rw], .any, .k 0⟩]⟩,
  ⟨0x1800C, 0x10, 128, 0x0, 1, .plain, [⟨F.HIF_MSIX_CTRL_mask, [.rw], .any, .k 1⟩]⟩,
  ⟨0x19000, 0x4, 4, 0x0, 1, .plain, [⟨F.HIF_MSIX_PBA_pending, [.ro], .any, .k 0⟩]⟩,
  ⟨0x20000, 0x0, 1, 0x0, 1, .hiv, [⟨F.HIV_CTL_enable, [.rw], .any, .k 0⟩]⟩,
  ⟨0x20004, 0x0, 1, 0x0, 1, .hiv, [⟨F.HIV_STAT_fw_share, [.ro], .any, .k 0⟩, ⟨F.HIV_STAT_ring_share, [.ro], .any, .k 0⟩, ⟨F.HIV_STAT_spilling, [.ro], .any, .k 0⟩, ⟨F.HIV_STAT_backpressure, [.ro], .any, .k 0⟩]⟩,
  ⟨0x20008, 0x0, 1, 0x0, 1, .hiv, [⟨F.HIV_TICK_units, [.wd], .span 1 64, .k 4⟩]⟩,
  ⟨0x2000C, 0x0, 1, 0x0, 1, .hiv, [⟨F.HIV_AFF_wait, [.rw], .any, .k 2000⟩]⟩,
  ⟨0x20010, 0x0, 1, 0x0, 1, .hiv, [⟨F.HIV_RESV_cores, [.rw], .span 0 16, .k 0⟩, ⟨F.HIV_RESV_prio, [.rw], .any, .k 7⟩]⟩,
  ⟨0x20020, 0x0, 1, 0x0, 1, .hiv, [⟨F.HIV_SPILL_BASE_LO_addr, [.wd], .any, .k 0⟩]⟩,
  ⟨0x20024, 0x0, 1, 0x0, 1, .hiv, [⟨F.HIV_SPILL_BASE_HI_addr, [.wd], .any, .k 0⟩]⟩,
  ⟨0x20028, 0x0, 1, 0x0, 1, .hiv, [⟨F.HIV_SPILL_SIZE_entries, [.wd], .step 0 65536 1024, .k 0⟩]⟩,
  ⟨0x2002C, 0x0, 1, 0x0, 1, .hiv, [⟨F.HIV_SPILL_STAT_count, [.ro], .any, .k 0⟩]⟩,
  ⟨0x20030, 0x0, 1, 0x0, 1, .hiv, [⟨F.HIV_DLY_STAT_used, [.ro], .any, .k 0⟩, ⟨F.HIV_DLY_STAT_high, [.rc], .any, .k 0⟩]⟩,
  ⟨0x20034, 0x0, 1, 0x0, 1, .hiv, [⟨F.HIV_SPILL_HIGH_high, [.rc], .any, .k 0⟩]⟩,
  ⟨0x20040, 0x0, 1, 0x0, 1, .trc, [⟨F.HIV_TRC_BASE_LO_addr, [.wd], .any, .k 0⟩]⟩,
  ⟨0x20044, 0x0, 1, 0x0, 1, .trc, [⟨F.HIV_TRC_BASE_HI_addr, [.wd], .any, .k 0⟩]⟩,
  ⟨0x20048, 0x0, 1, 0x0, 1, .trc, [⟨F.HIV_TRC_CTL_enable, [.rw], .any, .k 0⟩, ⟨F.HIV_TRC_CTL_wrap, [.wd], .any, .k 0⟩, ⟨F.HIV_TRC_CTL_size_log2, [.wd], .span 0 8, .k 0⟩, ⟨F.HIV_TRC_CTL_kinds, [.wd], .any, .k 0⟩]⟩]

/-- Part 3 of the register table. -/
def regTable3 : List RegRow := [
  ⟨0x2004C, 0x0, 1, 0x0, 1, .trc, [⟨F.HIV_TRC_STAT_offset, [.ro], .any, .k 0⟩, ⟨F.HIV_TRC_STAT_full, [.ro], .any, .k 0⟩]⟩,
  ⟨0x20050, 0x0, 1, 0x0, 1, .trc, [⟨F.HIV_TRC_LOST_count, [.rc], .any, .k 0⟩]⟩,
  ⟨0x20060, 0x0, 1, 0x0, 1, .hiv, [⟨F.HIV_ERR_wr_ignored, [.rc], .any, .k 0⟩, ⟨F.HIV_ERR_foreign_wr, [.rc], .any, .k 0⟩, ⟨F.HIV_ERR_orphan, [.rc], .any, .k 0⟩]⟩,
  ⟨0x30000, 0x40, 1024, 0x0, 1, .ctx, [⟨F.HIV_CTX0_state, [.wd], .any, .k 0⟩, ⟨F.HIV_CTX0_mirrored, [.wd], .any, .k 0⟩, ⟨F.HIV_CTX0_periodic, [.wd], .any, .k 0⟩, ⟨F.HIV_CTX0_serial, [.wd], .any, .k 0⟩, ⟨F.HIV_CTX0_prio, [.wd], .any, .k 0⟩, ⟨F.HIV_CTX0_last, [.ro], .any, .k 0⟩, ⟨F.HIV_CTX0_running, [.ro], .any, .k 0⟩]⟩,
  ⟨0x30004, 0x40, 1024, 0x0, 1, .ctx, [⟨F.HIV_CTX1_mask, [.wd], .any, .k 0⟩]⟩,
  ⟨0x30008, 0x40, 1024, 0x0, 1, .ctx, [⟨F.HIV_CTX2_entry_lo, [.wd], .any, .k 0⟩]⟩,
  ⟨0x3000C, 0x40, 1024, 0x0, 1, .ctx, [⟨F.HIV_CTX3_entry_hi, [.wd], .any, .k 0⟩]⟩,
  ⟨0x30010, 0x40, 1024, 0x0, 1, .ctx, [⟨F.HIV_CTX4_save_lo, [.wd], .any, .k 0⟩]⟩,
  ⟨0x30014, 0x40, 1024, 0x0, 1, .ctx, [⟨F.HIV_CTX5_save_hi, [.wd], .any, .k 0⟩]⟩,
  ⟨0x30018, 0x40, 1024, 0x0, 1, .ctx, [⟨F.HIV_CTX6_wake_lo, [.wd], .any, .k 0⟩]⟩,
  ⟨0x3001C, 0x40, 1024, 0x0, 1, .ctx, [⟨F.HIV_CTX7_wake_hi, [.wd], .any, .k 0⟩]⟩,
  ⟨0x30020, 0x40, 1024, 0x0, 1, .ctx, [⟨F.HIV_CTX8_period, [.wd], .any, .k 0⟩]⟩,
  ⟨0x30024, 0x40, 1024, 0x0, 1, .ctx, [⟨F.HIV_CTX9_run_limit, [.wd], .any, .k 0⟩, ⟨F.HIV_CTX9_source, [.wd], .any, .k 0⟩]⟩,
  ⟨0x30028, 0x40, 1024, 0x0, 1, .ctx, [⟨F.HIV_CTX10_runs, [.ro], .any, .k 0⟩]⟩,
  ⟨0x3002C, 0x40, 1024, 0x0, 1, .ctx, [⟨F.HIV_CTX11_longest, [.ro], .any, .k 0⟩]⟩,
  ⟨0x30030, 0x40, 1024, 0x0, 1, .ctx, [⟨F.HIV_CTX12_missed, [.ro], .any, .k 0⟩]⟩,
  ⟨0x40000, 0x1000, 8, 0x0, 1, .anv, [⟨F.ANV_CTL_enable, [.actClr], .any, .k 0⟩, ⟨F.ANV_CTL_reset, [.act], .any, .k 0⟩]⟩,
  ⟨0x40004, 0x1000, 8, 0x0, 1, .anv, [⟨F.ANV_STAT_busy, [.ro], .any, .k 0⟩, ⟨F.ANV_STAT_stopped, [.ro], .any, .k 1⟩, ⟨F.ANV_STAT_phase, [.ro], .any, .k 0⟩, ⟨F.ANV_STAT_epoch, [.ro], .any, .k 0⟩, ⟨F.ANV_STAT_slot, [.ro], .any, .k 0⟩]⟩,
  ⟨0x40008, 0x1000, 8, 0x0, 1, .anv, [⟨F.ANV_ITER_iter, [.ro], .any, .k 0⟩, ⟨F.ANV_ITER_checks, [.ro], .any, .k 0⟩]⟩,
  ⟨0x4000C, 0x1000, 8, 0x0, 1, .anv, [⟨F.ANV_CFG_resid_mb, [.rw], .any, .k 1⟩]⟩,
  ⟨0x40010, 0x1000, 8, 0x0, 1, .anv, [⟨F.ANV_CNT_JOBS_count, [.rc], .any, .k 0⟩]⟩,
  ⟨0x40014, 0x1000, 8, 0x0, 1, .anv, [⟨F.ANV_CNT_END_deadline, [.rc], .any, .k 0⟩, ⟨F.ANV_CNT_END_unusable, [.rc], .any, .k 0⟩]⟩,
  ⟨0x40018, 0x1000, 8, 0x0, 1, .anv, [⟨F.ANV_CNT_NOTE_pivot_reg, [.rc], .any, .k 0⟩, ⟨F.ANV_CNT_NOTE_sat, [.rc], .any, .k 0⟩]⟩,
  ⟨0x4001C, 0x1000, 8, 0x0, 1, .anv, [⟨F.ANV_ERR_wr_ignored, [.rc], .any, .k 0⟩, ⟨F.ANV_ERR_mcode_fault, [.rc], .any, .k 0⟩, ⟨F.ANV_ERR_ecc_corr, [.rc], .any, .k 0⟩, ⟨F.ANV_ERR_ecc_uncorr, [.rc], .any, .k 0⟩]⟩]

/-- Part 4 of the register table. -/
def regTable4 : List RegRow := [
  ⟨0x40020, 0x1000, 8, 0x0, 1, .anv, [⟨F.ANV_RESID_value, [.mb], .any, .k 0⟩]⟩,
  ⟨0x48000, 0x0, 1, 0x0, 1, .anvg, [⟨F.ANV_GCTL_host_share, [.rw], .any, .k 2⟩, ⟨F.ANV_GCTL_tau_log2, [.rw], .span 8 31, .k 20⟩]⟩,
  ⟨0x48004, 0x0, 1, 0x0, 1, .anvg, [⟨F.ANV_GSTAT_busy, [.ro], .any, .k 0⟩, ⟨F.ANV_GSTAT_host_running, [.ro], .any, .k 0⟩, ⟨F.ANV_GSTAT_planner_ready, [.ro], .any, .k 0⟩]⟩,
  ⟨0x48008, 0x0, 1, 0x0, 1, .anvg, [⟨F.ANV_JOBTAB_LO_addr, [.wd], .any, .k 0⟩]⟩,
  ⟨0x4800C, 0x0, 1, 0x0, 1, .anvg, [⟨F.ANV_JOBTAB_HI_addr, [.wd], .any, .k 0⟩]⟩,
  ⟨0x48010, 0x0, 1, 0x0, 1, .anvg, [⟨F.ANV_WARM_LO_addr, [.wd], .any, .k 0⟩]⟩,
  ⟨0x48014, 0x0, 1, 0x0, 1, .anvg, [⟨F.ANV_WARM_HI_addr, [.wd], .any, .k 0⟩]⟩,
  ⟨0x48018, 0x0, 1, 0x0, 1, .anvg, [⟨F.ANV_SUBMIT_slot, [.act], .any, .k 0⟩, ⟨F.ANV_SUBMIT_status, [.ro], .any, .k 0⟩]⟩,
  ⟨0x4801C, 0x0, 1, 0x0, 1, .anvg, [⟨F.ANV_ABORT_slot, [.act], .any, .k 0⟩, ⟨F.ANV_ABORT_status, [.ro], .any, .k 0⟩]⟩,
  ⟨0x48020, 0x0, 1, 0x0, 1, .anvg, [⟨F.ANV_GERR_wr_ignored, [.rc], .any, .k 0⟩, ⟨F.ANV_GERR_foreign, [.rc], .any, .k 0⟩]⟩,
  ⟨0x80000, 0x1000, 64, 0x0, 1, .tmp, [⟨F.TMP_CTL_enable, [.act], .any, .k 0⟩, ⟨F.TMP_CTL_reset, [.act], .any, .k 0⟩, ⟨F.TMP_CTL_sat_en, [.wd], .any, .k 1⟩]⟩,
  ⟨0x80004, 0x1000, 64, 0x0, 1, .tmp, [⟨F.TMP_STAT_running, [.ro], .any, .k 0⟩, ⟨F.TMP_STAT_stopped, [.ro], .any, .k 1⟩, ⟨F.TMP_STAT_page, [.ro], .any, .k 0⟩, ⟨F.TMP_STAT_trapped, [.ro], .any, .k 0⟩, ⟨F.TMP_STAT_epoch, [.ro], .any, .k 0⟩, ⟨F.TMP_STAT_slots, [.ro], .any, .k 0⟩, ⟨F.TMP_STAT_coupled, [.ro], .any, .k 0⟩, ⟨F.TMP_STAT_tune, [.ro], .any, .k 0⟩]⟩,
  ⟨0x80008, 0x1000, 64, 0x0, 1, .tmp, [⟨F.TMP_START_seg_mask, [.wd], .any, .k 1⟩, ⟨F.TMP_START_ovr_limit, [.wd], .span 1 15, .k 3⟩]⟩,
  ⟨0x8000C, 0x1000, 64, 0x0, 1, .tmp, [⟨F.TMP_RUNTIME_declared, [.ro], .any, .k 0⟩, ⟨F.TMP_RUNTIME_longest, [.rc], .any, .k 0⟩]⟩,
  ⟨0x80010, 0x1000, 64, 0x0, 1, .tmp, [⟨F.TMP_ERR_wr_ignored, [.rc], .any, .k 0⟩, ⟨F.TMP_ERR_trap_ill, [.rc], .any, .k 0⟩, ⟨F.TMP_ERR_ecc_uncorr, [.rc], .any, .k 0⟩, ⟨F.TMP_ERR_ecc_corr, [.rc], .any, .k 0⟩, ⟨F.TMP_ERR_overruns, [.rc], .any, .k 0⟩, ⟨F.TMP_ERR_narrow_sat, [.rc], .any, .k 0⟩]⟩,
  ⟨0x80014, 0x1000, 64, 0x0, 1, .tmp, [⟨F.TMP_PROG_loaded, [.ro], .any, .k 0⟩, ⟨F.TMP_PROG_bg_start, [.act], .any, .k 0⟩, ⟨F.TMP_PROG_bg_active, [.ro], .any, .k 0⟩, ⟨F.TMP_PROG_version, [.ro], .any, .k 0⟩]⟩,
  ⟨0x80018, 0x1000, 64, 0x0, 1, .tmp, [⟨F.TMP_PROG_CNT_preempt, [.rc], .any, .k 0⟩]⟩,
  ⟨0x80100, 0x1000, 64, 0x40, 16, .tmp, [⟨F.TMP_AX_CFG_axis, [.wd], .any, .k 0⟩, ⟨F.TMP_AX_CFG_chain, [.wd], .any, .k 0⟩, ⟨F.TMP_AX_CFG_in_chain, [.wd], .any, .k 0⟩, ⟨F.TMP_AX_CFG_ref_src, [.wd], .any, .k 1⟩, ⟨F.TMP_AX_CFG_fe_react, [.ws], .any, .k 0⟩, ⟨F.TMP_AX_CFG_gear_master, [.wd], .any, .k 0⟩, ⟨F.TMP_AX_CFG_valid, [.wd], .any, .k 0⟩]⟩,
  ⟨0x80104, 0x1000, 64, 0x40, 16, .tmp, [⟨F.TMP_AX_FELIM_limit, [.ws], .any, .k 16384⟩]⟩,
  ⟨0x80108, 0x1000, 64, 0x40, 16, .tmp, [⟨F.TMP_AX_FEWARN_level, [.ws], .any, .k 8192⟩]⟩,
  ⟨0x8010C, 0x1000, 64, 0x40, 16, .tmp, [⟨F.TMP_AX_FETIME_cycles, [.ws], .span 1 65535, .k 8⟩]⟩,
  ⟨0x80110, 0x1000, 64, 0x40, 16, .tmp, [⟨F.TMP_AX_ULIM_u_min, [.ws], .any, .k 32769⟩, ⟨F.TMP_AX_ULIM_u_max, [.ws], .any, .k 32767⟩]⟩,
  ⟨0x80114, 0x1000, 64, 0x40, 16, .tmp, [⟨F.TMP_AX_VEL_vel, [.ws], .any, .k 0⟩]⟩,
  ⟨0x80118, 0x1000, 64, 0x40, 16, .tmp, [⟨F.TMP_AX_RAMP_accel, [.ws], .any, .k 65536⟩]⟩]

/-- Part 5 of the register table. -/
def regTable5 : List RegRow := [
  ⟨0x8011C, 0x1000, 64, 0x40, 16, .tmp, [⟨F.TMP_AX_GEAR_ratio, [.ws], .any, .k 65536⟩]⟩,
  ⟨0x80120, 0x1000, 64, 0x40, 16, .tmp, [⟨F.TMP_AX_STAT_fe_count, [.ro], .any, .k 0⟩, ⟨F.TMP_AX_STAT_fe_warn, [.ro], .any, .k 0⟩, ⟨F.TMP_AX_STAT_fe_fault, [.ro], .any, .k 0⟩, ⟨F.TMP_AX_STAT_u_sat, [.ro], .any, .k 0⟩, ⟨F.TMP_AX_STAT_window, [.ro], .any, .k 0⟩]⟩,
  ⟨0x80124, 0x1000, 64, 0x40, 16, .tmp, [⟨F.TMP_AX_FEMAX_max, [.rc], .any, .k 0⟩]⟩,
  ⟨0x80128, 0x1000, 64, 0x40, 16, .tmp, [⟨F.TMP_AX_CLR_fe_clr, [.act], .any, .k 0⟩]⟩,
  ⟨0x8012C, 0x1000, 64, 0x40, 16, .tmp, [⟨F.TMP_AX_HOOK_entry, [.wd], .any, .k 0⟩, ⟨F.TMP_AX_HOOK_en, [.wd], .any, .k 0⟩]⟩,
  ⟨0x100000, 0x200, 32, 0x0, 1, .tng, [⟨F.TNG_CH_CTL_enable, [.act], .any, .k 0⟩]⟩,
  ⟨0x100004, 0x200, 32, 0x0, 1, .tng, [⟨F.TNG_CH_CFG_mode, [.wd], .span 0 2, .k 0⟩, ⟨F.TNG_CH_CFG_dir, [.wd], .any, .k 0⟩, ⟨F.TNG_CH_CFG_ill_inval, [.wd], .any, .k 1⟩, ⟨F.TNG_CH_CFG_quench, [.pv, .t3], .any, .k 0⟩, ⟨F.TNG_CH_CFG_scale_shift, [.wd], .span 32 63, .k 32⟩]⟩,
  ⟨0x100008, 0x200, 32, 0x0, 1, .tng, [⟨F.TNG_CH_FILT_n, [.wd], .span 1 64, .k 4⟩, ⟨F.TNG_CH_FILT_wire, [.wd], .span 1 255, .k 64⟩, ⟨F.TNG_CH_FILT_nz, [.wd], .span 1 64, .k 4⟩]⟩,
  ⟨0x10000C, 0x200, 32, 0x0, 1, .tng, [⟨F.TNG_CH_SCALE_scale, [.wd], .any, .k 0⟩]⟩,
  ⟨0x100010, 0x200, 32, 0x0, 1, .tng, [⟨F.TNG_CH_OFFSET_LO_offset, [.wd], .any, .k 0⟩]⟩,
  ⟨0x100014, 0x200, 32, 0x0, 1, .tng, [⟨F.TNG_CH_OFFSET_HI_offset, [.wd], .any, .k 0⟩]⟩,
  ⟨0x100018, 0x200, 32, 0x0, 1, .tng, [⟨F.TNG_CH_IDX_mode, [.wd], .span 0 4, .k 0⟩, ⟨F.TNG_CH_IDX_gate, [.wd], .any, .k 3⟩, ⟨F.TNG_CH_IDX_gate_en, [.wd], .any, .k 0⟩, ⟨F.TNG_CH_IDX_tol, [.wd], .any, .k 2⟩]⟩,
  ⟨0x10001C, 0x200, 32, 0x0, 1, .tng, [⟨F.TNG_CH_CPR_cpr, [.wd], .any, .k 0⟩]⟩,
  ⟨0x100020, 0x200, 32, 0x0, 1, .tng, [⟨F.TNG_CH_IDXREF_ref, [.wd], .any, .k 0⟩]⟩,
  ⟨0x100024, 0x200, 32, 0x0, 1, .tng, [⟨F.TNG_CH_VMIN_vmin, [.wd], .any, .k 8192⟩]⟩,
  ⟨0x100028, 0x200, 32, 0x0, 1, .tng, [⟨F.TNG_CH_SPD_avg, [.wd], .any, .k 125⟩, ⟨F.TNG_CH_SPD_stand, [.wd], .any, .k 0⟩]⟩,
  ⟨0x10002C, 0x200, 32, 0x0, 1, .tng, [⟨F.TNG_CH_SSI_half, [.wd], .span 50 2000, .k 50⟩, ⟨F.TNG_CH_SSI_len, [.wd], .span 8 40, .k 25⟩, ⟨F.TNG_CH_SSI_gray, [.wd], .any, .k 1⟩, ⟨F.TNG_CH_SSI_parity, [.wd], .span 0 2, .k 0⟩, ⟨F.TNG_CH_SSI_errbit_en, [.wd], .any, .k 0⟩, ⟨F.TNG_CH_SSI_mono, [.wd], .span 1 63, .k 20⟩]⟩,
  ⟨0x100030, 0x200, 32, 0x0, 1, .tng, [⟨F.TNG_CH_SSI2_data_lsb, [.wd], .any, .k 0⟩, ⟨F.TNG_CH_SSI2_data_w, [.wd], .span 8 40, .k 25⟩, ⟨F.TNG_CH_SSI2_err_pos, [.wd], .any, .k 0⟩, ⟨F.TNG_CH_SSI2_rx_delay, [.wd], .any, .k 0⟩]⟩,
  ⟨0x100034, 0x200, 32, 0x0, 1, .tng, [⟨F.TNG_CH_SSI3_start, [.wd], .any, .k 0⟩]⟩,
  ⟨0x100038, 0x200, 32, 0x0, 1, .tng, [⟨F.TNG_CH_SSIJ_jump, [.wd], .any, .k 0⟩]⟩,
  ⟨0x10003C, 0x200, 32, 0x0, 1, .tng, [⟨F.TNG_CH_DEST_engine, [.wd], .any, .k 0⟩, ⟨F.TNG_CH_DEST_slot, [.wd], .any, .k 0⟩, ⟨F.TNG_CH_DEST_role, [.wd], .span 0 2, .k 0⟩]⟩,
  ⟨0x100040, 0x200, 32, 0x0, 1, .tng, [⟨F.TNG_CH_STAT_status, [.ro], .any, .k 0⟩]⟩,
  ⟨0x100044, 0x200, 32, 0x0, 1, .tng, [⟨F.TNG_CH_COUNT_ext, [.ro], .any, .k 0⟩]⟩,
  ⟨0x100048, 0x200, 32, 0x0, 1, .tng, [⟨F.TNG_CH_VEL_vel, [.ro], .any, .k 0⟩]⟩]

/-- Part 6 of the register table. -/
def regTable6 : List RegRow := [
  ⟨0x10004C, 0x200, 32, 0x0, 1, .tng, [⟨F.TNG_CH_IDXLAT_ext, [.ro], .any, .k 0⟩]⟩,
  ⟨0x100050, 0x200, 32, 0x0, 1, .tng, [⟨F.TNG_CH_IDXMIS_ext, [.ro], .any, .k 0⟩]⟩,
  ⟨0x100054, 0x200, 32, 0x0, 1, .tng, [⟨F.TNG_CH_ERR_wr_ignored, [.rc], .any, .k 0⟩, ⟨F.TNG_CH_ERR_illegal, [.rc], .any, .k 0⟩, ⟨F.TNG_CH_ERR_wire, [.rc], .any, .k 0⟩, ⟨F.TNG_CH_ERR_ssi_err, [.rc], .any, .k 0⟩, ⟨F.TNG_CH_ERR_idx_corr, [.rc], .any, .k 0⟩, ⟨F.TNG_CH_ERR_late, [.rc], .any, .k 0⟩]⟩,
  ⟨0x100058, 0x200, 32, 0x0, 1, .tng, [⟨F.TNG_CH_CLR_clr, [.act], .any, .k 0⟩]⟩,
  ⟨0x10005C, 0x200, 32, 0x0, 1, .tng, [⟨F.TNG_CH_POS_value, [.mb], .any, .k 0⟩]⟩,
  ⟨0x104000, 0x20, 8, 0x0, 1, .prb, [⟨F.TNG_PRB_CFG_arm, [.act], .any, .k 0⟩, ⟨F.TNG_PRB_CFG_cont, [.wd], .any, .k 0⟩, ⟨F.TNG_PRB_CFG_edge, [.wd], .span 1 3, .k 1⟩, ⟨F.TNG_PRB_CFG_chan, [.wd], .any, .k 0⟩, ⟨F.TNG_PRB_CFG_filt, [.wd], .span 1 16, .k 2⟩]⟩,
  ⟨0x104004, 0x20, 8, 0x0, 1, .prb, [⟨F.TNG_PRB_STAT_armed, [.ro], .any, .k 0⟩, ⟨F.TNG_PRB_STAT_lost, [.rc], .any, .k 0⟩, ⟨F.TNG_PRB_STAT_wr_ignored, [.rc], .any, .k 0⟩]⟩,
  ⟨0x104008, 0x20, 8, 0x0, 1, .prb, [⟨F.TNG_PRB_RES_value, [.mb], .any, .k 0⟩]⟩,
  ⟨0x110000, 0x200, 16, 0x0, 1, .swg, [⟨F.SWG_CH_CTL_enable, [.act], .any, .k 0⟩, ⟨F.SWG_CH_CTL_stop, [.act], .any, .k 0⟩]⟩,
  ⟨0x110004, 0x200, 16, 0x0, 1, .swg, [⟨F.SWG_CH_CFG_tick, [.wd], .span 1 100, .k 5⟩, ⟨F.SWG_CH_CFG_dir, [.wd], .any, .k 0⟩, ⟨F.SWG_CH_CFG_lim_pos_en, [.wd], .any, .k 0⟩, ⟨F.SWG_CH_CFG_lim_neg_en, [.wd], .any, .k 0⟩, ⟨F.SWG_CH_CFG_lim_pos_low, [.wd], .any, .k 0⟩, ⟨F.SWG_CH_CFG_lim_neg_low, [.wd], .any, .k 0⟩]⟩,
  ⟨0x110008, 0x200, 16, 0x0, 1, .swg, [⟨F.SWG_CH_VMAX_vmax, [.wd], .span 0 204800000, .k 40960000⟩]⟩,
  ⟨0x11000C, 0x200, 16, 0x0, 1, .swg, [⟨F.SWG_CH_ACC_accel, [.act], .any, .k 25600000⟩]⟩,
  ⟨0x110010, 0x200, 16, 0x0, 1, .swg, [⟨F.SWG_CH_DEC_decel, [.act], .any, .k 25600000⟩]⟩,
  ⟨0x110014, 0x200, 16, 0x0, 1, .swg, [⟨F.SWG_CH_JERK_jerk, [.act], .any, .k 0⟩]⟩,
  ⟨0x110018, 0x200, 16, 0x0, 1, .swg, [⟨F.SWG_CH_STOPDEC_decel, [.rw], .any, .k 51200000⟩]⟩,
  ⟨0x11001C, 0x200, 16, 0x0, 1, .swg, [⟨F.SWG_CH_CUR_run, [.rw], .any, .k 128⟩, ⟨F.SWG_CH_CUR_hold, [.rw], .any, .k 64⟩, ⟨F.SWG_CH_CUR_hold_delay, [.rw], .any, .k 100⟩]⟩,
  ⟨0x110020, 0x200, 16, 0x0, 1, .swg, [⟨F.SWG_CH_LIM_deb, [.wd], .span 1 255, .k 3⟩, ⟨F.SWG_CH_LIM_chat_n, [.wd], .span 1 255, .k 8⟩, ⟨F.SWG_CH_LIM_chat_win, [.wd], .span 1 255, .k 100⟩]⟩,
  ⟨0x110024, 0x200, 16, 0x0, 1, .swg, [⟨F.SWG_CH_POS_LO_pos, [.ro], .any, .k 0⟩]⟩,
  ⟨0x110028, 0x200, 16, 0x0, 1, .swg, [⟨F.SWG_CH_POS_HI_pos, [.ro], .any, .k 0⟩]⟩,
  ⟨0x11002C, 0x200, 16, 0x0, 1, .swg, [⟨F.SWG_CH_VEL_vel, [.ro], .any, .k 0⟩]⟩,
  ⟨0x110030, 0x200, 16, 0x0, 1, .swg, [⟨F.SWG_CH_REM_LO_rem, [.ro], .any, .k 0⟩]⟩,
  ⟨0x110034, 0x200, 16, 0x0, 1, .swg, [⟨F.SWG_CH_REM_HI_rem, [.ro], .any, .k 0⟩]⟩,
  ⟨0x110038, 0x200, 16, 0x0, 1, .swg, [⟨F.SWG_CH_STAT_state, [.ro], .any, .k 5⟩, ⟨F.SWG_CH_STAT_referenced, [.ro], .any, .k 0⟩, ⟨F.SWG_CH_STAT_lim_pos, [.ro], .any, .k 0⟩, ⟨F.SWG_CH_STAT_lim_neg, [.ro], .any, .k 0⟩, ⟨F.SWG_CH_STAT_limit_chatter, [.ro], .any, .k 0⟩, ⟨F.SWG_CH_STAT_link_fault, [.ro], .any, .k 0⟩, ⟨F.SWG_CH_STAT_stage_fault, [.ro], .any, .k 0⟩, ⟨F.SWG_CH_STAT_accel_deferred, [.ro], .any, .k 0⟩, ⟨F.SWG_CH_STAT_incr_log2, [.ro], .any, .k 0⟩, ⟨F.SWG_CH_STAT_address, [.ro], .any, .k 0⟩]⟩,
  ⟨0x11003C, 0x200, 16, 0x0, 1, .swg, [⟨F.SWG_CH_ERR_wr_ignored, [.rc], .any, .k 0⟩, ⟨F.SWG_CH_ERR_crc, [.rc], .any, .k 0⟩, ⟨F.SWG_CH_ERR_missing, [.rc], .any, .k 0⟩, ⟨F.SWG_CH_ERR_trips, [.rc], .any, .k 0⟩]⟩]

/-- Part 7 of the register table. -/
def regTable7 : List RegRow := [
  ⟨0x110040, 0x200, 16, 0x0, 1, .swg, [⟨F.SWG_CH_CLR_clr, [.act], .any, .k 0⟩]⟩,
  ⟨0x120010, 0x10, 2, 0x0, 1, .adcs, [⟨F.ADC_SEQ_CFG_first, [.wp, .wd], .any, .pick 0 16⟩, ⟨F.ADC_SEQ_CFG_last, [.wp, .wd], .any, .pick 15 31⟩, ⟨F.ADC_SEQ_CFG_trig, [.wp, .wd], .span 0 2, .k 0⟩, ⟨F.ADC_SEQ_CFG_tin, [.wp, .wd], .any, .k 0⟩, ⟨F.ADC_SEQ_CFG_edge, [.wp, .wd], .span 1 3, .k 1⟩, ⟨F.ADC_SEQ_CFG_delay, [.wp, .wd], .any, .k 0⟩]⟩,
  ⟨0x120014, 0x10, 2, 0x0, 1, .adcs, [⟨F.ADC_SEQ_CTL_enable, [.actClr, .wp], .any, .k 0⟩, ⟨F.ADC_SEQ_CTL_start, [.act, .wp], .any, .k 0⟩]⟩,
  ⟨0x120018, 0x10, 2, 0x0, 1, .adcs, [⟨F.ADC_SEQ_STAT_stopped, [.ro], .any, .k 1⟩, ⟨F.ADC_SEQ_STAT_powered, [.ro], .any, .k 0⟩, ⟨F.ADC_SEQ_STAT_missed, [.rc], .any, .k 0⟩, ⟨F.ADC_SEQ_STAT_runs, [.ro], .any, .k 0⟩]⟩,
  ⟨0x120040, 0x0, 1, 0x0, 1, .adc, [⟨F.ADC_OW_THR_up, [.wp], .any, .k 248⟩, ⟨F.ADC_OW_THR_down, [.wp], .any, .k 8⟩]⟩,
  ⟨0x120044, 0x0, 1, 0x0, 1, .adc, [⟨F.ADC_Q_CFG_thr, [.rw], .span 1 511, .k 384⟩]⟩,
  ⟨0x120048, 0x0, 1, 0x0, 1, .adc, [⟨F.ADC_Q_STAT_count, [.ro], .any, .k 0⟩, ⟨F.ADC_Q_STAT_high, [.rc], .any, .k 0⟩]⟩,
  ⟨0x120050, 0x4, 4, 0x0, 1, .adc, [⟨F.ADC_Q_POP_bytes, [.ro], .any, .k 0⟩]⟩,
  ⟨0x120060, 0x0, 1, 0x0, 1, .adc, [⟨F.ADC_ERR_wr_ignored, [.rc], .any, .k 0⟩, ⟨F.ADC_ERR_dropped, [.rc], .any, .k 0⟩]⟩,
  ⟨0x120080, 0x8, 8, 0x0, 1, .adc, [⟨F.ADC_LIM_LO_low, [.wp], .any, .k 0⟩]⟩,
  ⟨0x120084, 0x8, 8, 0x0, 1, .adc, [⟨F.ADC_LIM_HI_high, [.wp], .any, .k 65535⟩]⟩,
  ⟨0x120100, 0x4, 32, 0x0, 1, .adce, [⟨F.ADC_ENT_input, [.wp, .wd], .span 0 23, .k 0⟩, ⟨F.ADC_ENT_diff, [.wp, .wd], .any, .k 0⟩, ⟨F.ADC_ENT_ow, [.wp, .wd], .span 0 2, .k 0⟩, ⟨F.ADC_ENT_lim, [.wp, .wd], .any, .k 0⟩, ⟨F.ADC_ENT_lim_en, [.wp, .wd], .any, .k 0⟩, ⟨F.ADC_ENT_noq, [.wp, .wd], .any, .k 0⟩]⟩,
  ⟨0x120200, 0x8, 24, 0x0, 1, .adc, [⟨F.ADC_LAST_LO_code, [.ro], .any, .k 0⟩, ⟨F.ADC_LAST_LO_valid, [.ro], .any, .k 0⟩, ⟨F.ADC_LAST_LO_ow, [.ro], .any, .k 0⟩, ⟨F.ADC_LAST_LO_lim, [.ro], .any, .k 0⟩, ⟨F.ADC_LAST_LO_diff, [.ro], .any, .k 0⟩]⟩,
  ⟨0x120204, 0x8, 24, 0x0, 1, .adc, [⟨F.ADC_LAST_HI_time, [.ro], .any, .k 0⟩]⟩,
  ⟨0x140000, 0x2000, 8, 0x0, 1, .seg, [⟨F.CMB_SEG_CTL_enable, [.act, .pv], .any, .k 0⟩, ⟨F.CMB_SEG_CTL_chan_a_en, [.ws], .any, .k 1⟩, ⟨F.CMB_SEG_CTL_chan_b_en, [.ws], .any, .k 1⟩, ⟨F.CMB_SEG_CTL_term_a, [.wd], .any, .k 0⟩, ⟨F.CMB_SEG_CTL_term_b, [.wd], .any, .k 0⟩]⟩,
  ⟨0x140004, 0x2000, 8, 0x0, 1, .seg, [⟨F.CMB_SEG_STAT_stopped, [.ro], .any, .k 1⟩, ⟨F.CMB_SEG_STAT_loaded, [.ro], .any, .k 0⟩, ⟨F.CMB_SEG_STAT_staged, [.ro], .any, .k 0⟩, ⟨F.CMB_SEG_STAT_line_mode, [.ro], .any, .k 0⟩, ⟨F.CMB_SEG_STAT_node, [.ro], .any, .k 0⟩, ⟨F.CMB_SEG_STAT_epoch, [.ro], .any, .k 0⟩]⟩,
  ⟨0x140008, 0x2000, 8, 0x0, 1, .seg, [⟨F.CMB_SLOT_LEN_len, [.ro], .any, .k 0⟩, ⟨F.CMB_SLOT_LEN_slots, [.ro], .any, .k 0⟩]⟩,
  ⟨0x14000C, 0x2000, 8, 0x0, 1, .seg, [⟨F.CMB_DYN_minislots, [.ro], .any, .k 0⟩, ⟨F.CMB_DYN_nit, [.ro], .any, .k 0⟩]⟩,
  ⟨0x140010, 0x2000, 8, 0x0, 1, .seg, [⟨F.CMB_CYCLE_ns, [.ro], .any, .k 0⟩]⟩,
  ⟨0x140014, 0x2000, 8, 0x0, 1, .seg, [⟨F.CMB_FBC_ns, [.ro], .any, .k 0⟩]⟩,
  ⟨0x140018, 0x2000, 8, 0x0, 1, .seg, [⟨F.CMB_SCHED_ID_crc, [.ro], .any, .k 0⟩]⟩,
  ⟨0x14001C, 0x2000, 8, 0x0, 1, .seg, [⟨F.CMB_SCHED_VER_version, [.ro], .any, .k 0⟩]⟩,
  ⟨0x140020, 0x2000, 8, 0x0, 1, .seg, [⟨F.CMB_CYC_CNT_count, [.ro], .any, .k 0⟩]⟩,
  ⟨0x140030, 0x2000, 8, 0x0, 1, .seg, [⟨F.CMB_THR_loss, [.rw], .any, .k 16⟩, ⟨F.CMB_THR_mismatch, [.rw], .any, .k 16⟩, ⟨F.CMB_THR_errors, [.rw], .any, .k 64⟩, ⟨F.CMB_THR_late, [.rw], .any, .k 1⟩]⟩]

/-- Part 8 of the register table. -/
def regTable8 : List RegRow := [
  ⟨0x140040, 0x2000, 8, 0x10, 2, .seg, [⟨F.CMB_ERR0_coding, [.rc], .any, .k 0⟩, ⟨F.CMB_ERR0_hdr_crc, [.rc], .any, .k 0⟩]⟩,
  ⟨0x140044, 0x2000, 8, 0x10, 2, .seg, [⟨F.CMB_ERR1_frm_crc, [.rc], .any, .k 0⟩, ⟨F.CMB_ERR1_stranger, [.rc], .any, .k 0⟩]⟩,
  ⟨0x140048, 0x2000, 8, 0x10, 2, .seg, [⟨F.CMB_ERR2_cycle, [.rc], .any, .k 0⟩, ⟨F.CMB_ERR2_length, [.rc], .any, .k 0⟩]⟩,
  ⟨0x14004C, 0x2000, 8, 0x10, 2, .seg, [⟨F.CMB_ERR3_window, [.rc], .any, .k 0⟩, ⟨F.CMB_ERR3_loss, [.rc], .any, .k 0⟩]⟩,
  ⟨0x140060, 0x2000, 8, 0x4, 2, .seg, [⟨F.CMB_RX_valid, [.rc], .any, .k 0⟩]⟩,
  ⟨0x140068, 0x2000, 8, 0x0, 1, .seg, [⟨F.CMB_RX_ERR_mismatch, [.rc], .any, .k 0⟩, ⟨F.CMB_RX_ERR_lost, [.rc], .any, .k 0⟩]⟩,
  ⟨0x14006C, 0x2000, 8, 0x0, 1, .seg, [⟨F.CMB_TX_ERR_late, [.rc], .any, .k 0⟩, ⟨F.CMB_TX_ERR_drxq_ovf, [.rc], .any, .k 0⟩, ⟨F.CMB_TX_ERR_wr_ignored, [.rc], .any, .k 0⟩]⟩,
  ⟨0x140080, 0x2000, 8, 0x0, 1, .seg, [⟨F.CMB_SYNC_CFG_timing, [.wd, .pv], .any, .at0 1⟩, ⟨F.CMB_SYNC_CFG_coldstart_en, [.wd], .any, .k 1⟩, ⟨F.CMB_SYNC_CFG_rate_gain, [.wd], .any, .k 1⟩, ⟨F.CMB_SYNC_CFG_integ_limit, [.wd], .span 16 255, .k 64⟩]⟩,
  ⟨0x140084, 0x2000, 8, 0x0, 1, .seg, [⟨F.CMB_SYNC_STAT_state, [.ro], .any, .k 0⟩, ⟨F.CMB_SYNC_STAT_master_self, [.ro], .any, .k 0⟩, ⟨F.CMB_SYNC_STAT_master, [.ro], .any, .k 0⟩, ⟨F.CMB_SYNC_STAT_locked, [.ro], .any, .k 0⟩]⟩,
  ⟨0x140088, 0x2000, 8, 0x0, 1, .seg, [⟨F.CMB_SYNC_DEV_dev, [.ro], .any, .k 0⟩, ⟨F.CMB_SYNC_DEV_rate, [.ro], .any, .k 0⟩]⟩,
  ⟨0x14008C, 0x2000, 8, 0x0, 1, .seg, [⟨F.CMB_SYNC_DELAY_a, [.ro], .any, .k 0⟩, ⟨F.CMB_SYNC_DELAY_b, [.ro], .any, .k 0⟩]⟩,
  ⟨0x140090, 0x2000, 8, 0x0, 1, .seg, [⟨F.CMB_SYNC_CNT_clamped, [.rc], .any, .k 0⟩, ⟨F.CMB_SYNC_CNT_losses, [.rc], .any, .k 0⟩, ⟨F.CMB_SYNC_CNT_collisions, [.rc], .any, .k 0⟩]⟩,
  ⟨0x140094, 0x2000, 8, 0x0, 1, .seg, [⟨F.CMB_SYNC_CTL_relearn, [.act], .any, .k 0⟩]⟩,
  ⟨0x140098, 0x2000, 8, 0x0, 1, .seg, [⟨F.CMB_SYNC_DELAY_SET_delay, [.wd], .span 0 3200, .k 0⟩]⟩,
  ⟨0x1400A0, 0x2000, 8, 0x0, 1, .seg, [⟨F.CMB_GRD_CTL_trust_star, [.wd, .pv], .any, .k 0⟩]⟩,
  ⟨0x1400A4, 0x2000, 8, 0x0, 1, .seg, [⟨F.CMB_GRD_STAT_closed_a, [.ro], .any, .k 1⟩, ⟨F.CMB_GRD_STAT_closed_b, [.ro], .any, .k 1⟩, ⟨F.CMB_GRD_STAT_diff, [.ro], .any, .k 0⟩, ⟨F.CMB_GRD_STAT_cuts, [.rc], .any, .k 0⟩]⟩,
  ⟨0x1400B0, 0x2000, 8, 0x0, 1, .seg, [⟨F.CMB_WGL_CTL_start, [.act], .any, .k 0⟩, ⟨F.CMB_WGL_CTL_stop, [.act], .any, .k 0⟩, ⟨F.CMB_WGL_CTL_mode, [.wd], .any, .k 0⟩, ⟨F.CMB_WGL_CTL_chan, [.wd], .any, .k 0⟩]⟩,
  ⟨0x1400B4, 0x2000, 8, 0x0, 1, .seg, [⟨F.CMB_WGL_CFG_vf, [.wd], .any, .k 43254⟩, ⟨F.CMB_WGL_CFG_pulse, [.wd], .span 2 20, .k 5⟩, ⟨F.CMB_WGL_CFG_window, [.wd], .any, .k 3⟩, ⟨F.CMB_WGL_CFG_thr, [.wd], .any, .k 40⟩]⟩,
  ⟨0x1400B8, 0x2000, 8, 0x0, 1, .seg, [⟨F.CMB_WGL_STAT_busy, [.ro], .any, .k 0⟩, ⟨F.CMB_WGL_STAT_blank, [.wd], .span 1 15, .k 2⟩, ⟨F.CMB_WGL_STAT_ident, [.wd], .any, .k 0⟩, ⟨F.CMB_WGL_STAT_shots_log2, [.wd], .span 4 10, .k 6⟩]⟩,
  ⟨0x1400BC, 0x2000, 8, 0x0, 1, .seg, [⟨F.CMB_WGL_RES_value, [.mb], .any, .k 0⟩]⟩,
  ⟨0x140400, 0x2000, 8, 0x4, 64, .seg, [⟨F.CMB_SLOT_STAT_status, [.ro], .any, .k 0⟩]⟩,
  ⟨0x140500, 0x2000, 8, 0x8, 64, .seg, [⟨F.CMB_ARR_A_offset, [.ro], .any, .k 0⟩, ⟨F.CMB_ARR_A_learned, [.ro], .any, .k 0⟩]⟩,
  ⟨0x140504, 0x2000, 8, 0x8, 64, .seg, [⟨F.CMB_ARR_B_offset, [.ro], .any, .k 0⟩, ⟨F.CMB_ARR_B_learned, [.ro], .any, .k 0⟩]⟩,
  ⟨0x180000, 0x0, 1, 0x0, 1, .plain, [⟨F.TIM_CYCLE_ns, [.act, .pv], .any, .k 125000⟩]⟩]

/-- Part 9 of the register table. -/
def regTable9 : List RegRow := [
  ⟨0x180004, 0x0, 1, 0x0, 1, .plain, [⟨F.TIM_STAT_locked, [.ro], .any, .k 0⟩, ⟨F.TIM_STAT_master, [.ro], .any, .k 0⟩, ⟨F.TIM_STAT_holdover, [.ro], .any, .k 0⟩, ⟨F.TIM_STAT_rate_limit, [.ro], .any, .k 0⟩]⟩,
  ⟨0x180008, 0x0, 1, 0x0, 1, .plain, [⟨F.TIM_NOW_NS_ns, [.ro], .any, .k 0⟩]⟩,
  ⟨0x18000C, 0x0, 1, 0x0, 1, .plain, [⟨F.TIM_NOW_SEC_LO_sec, [.ro], .any, .k 0⟩]⟩,
  ⟨0x180010, 0x0, 1, 0x0, 1, .plain, [⟨F.TIM_NOW_SEC_HI_sec, [.ro], .any, .k 0⟩]⟩,
  ⟨0x180014, 0x0, 1, 0x0, 1, .plain, [⟨F.TIM_NOW_FRAC_frac, [.ro], .any, .k 0⟩]⟩,
  ⟨0x180018, 0x0, 1, 0x0, 1, .plain, [⟨F.TIM_RATE_rho, [.ro], .any, .k 0⟩]⟩,
  ⟨0x180020, 0x0, 1, 0x0, 1, .plain, [⟨F.TIM_INIT_SEC_LO_sec, [.pv], .any, .k 0⟩]⟩,
  ⟨0x180024, 0x0, 1, 0x0, 1, .plain, [⟨F.TIM_INIT_SEC_HI_sec, [.pv], .any, .k 0⟩, ⟨F.TIM_INIT_SEC_HI_valid, [.pv], .any, .k 0⟩]⟩,
  ⟨0x180040, 0x0, 1, 0x0, 1, .plain, [⟨F.TIM_LINE_CFG_select, [.pv], .any, .k 0⟩, ⟨F.TIM_LINE_CFG_tau_log2, [.pv], .span 0 6, .k 2⟩, ⟨F.TIM_LINE_CFG_slew_max, [.pv], .span 1 255, .k 100⟩, ⟨F.TIM_LINE_CFG_slope, [.pv], .span 1 100, .k 5⟩, ⟨F.TIM_LINE_CFG_loss, [.pv], .span 1 15, .k 3⟩, ⟨F.TIM_LINE_CFG_revert_log2, [.pv], .any, .k 5⟩]⟩,
  ⟨0x180044, 0x0, 1, 0x0, 1, .plain, [⟨F.TIM_LINE_STAT_selected, [.ro], .any, .k 0⟩, ⟨F.TIM_LINE_STAT_a_valid, [.ro], .any, .k 0⟩, ⟨F.TIM_LINE_STAT_b_valid, [.ro], .any, .k 0⟩]⟩,
  ⟨0x180048, 0x4, 2, 0x0, 1, .plain, [⟨F.TIM_LINE_OFS_theta, [.ro], .any, .k 0⟩]⟩,
  ⟨0x180050, 0x4, 2, 0x0, 1, .ptp, [⟨F.TIM_PTP_domain, [.pv, .wd], .any, .k 0⟩, ⟨F.TIM_PTP_port, [.pv, .wd], .any, .ix⟩, ⟨F.TIM_PTP_p2p, [.pv, .wd], .any, .k 0⟩, ⟨F.TIM_PTP_udp, [.pv, .wd], .any, .k 0⟩, ⟨F.TIM_PTP_pd_onestep, [.pv, .wd], .any, .k 0⟩, ⟨F.TIM_PTP_enable, [.pv], .any, .k 0⟩]⟩,
  ⟨0x180058, 0x4, 2, 0x0, 1, .plain, [⟨F.TIM_PTP_LAT_ingress, [.pv], .any, .k 0⟩, ⟨F.TIM_PTP_LAT_egress, [.pv], .any, .k 0⟩]⟩,
  ⟨0x180100, 0x10, 32, 0x0, 1, .cmp, [⟨F.TIM_CMP_CFG_arm, [.act], .any, .k 0⟩, ⟨F.TIM_CMP_CFG_fired, [.rc], .any, .k 0⟩, ⟨F.TIM_CMP_CFG_action, [.wd], .any, .k 0⟩, ⟨F.TIM_CMP_CFG_target, [.wd], .any, .k 0⟩]⟩,
  ⟨0x180104, 0x10, 32, 0x0, 1, .cmp, [⟨F.TIM_CMP_T_LO_t, [.wd], .any, .k 0⟩]⟩,
  ⟨0x180108, 0x10, 32, 0x0, 1, .cmp, [⟨F.TIM_CMP_T_HI_t, [.wd], .any, .k 0⟩]⟩,
  ⟨0x18010C, 0x10, 32, 0x0, 1, .cmp, [⟨F.TIM_CMP_PER_period, [.wd], .any, .k 0⟩]⟩,
  ⟨0x180300, 0x10, 16, 0x0, 1, .cap, [⟨F.TIM_CAP_CFG_enable, [.rw], .any, .k 0⟩, ⟨F.TIM_CAP_CFG_source, [.wd], .any, .k 0⟩, ⟨F.TIM_CAP_CFG_edge, [.wd], .span 1 3, .k 1⟩, ⟨F.TIM_CAP_CFG_filt, [.wd], .span 1 15, .k 2⟩]⟩,
  ⟨0x180304, 0x10, 16, 0x0, 1, .cap, [⟨F.TIM_CAP_STAT_queued, [.ro], .any, .k 0⟩, ⟨F.TIM_CAP_STAT_lost, [.rc], .any, .k 0⟩]⟩,
  ⟨0x180308, 0x10, 16, 0x0, 1, .cap, [⟨F.TIM_CAP_RES_value, [.mb], .any, .k 0⟩]⟩,
  ⟨0x180400, 0x10, 4, 0x0, 1, .tpo, [⟨F.TIM_TPO_CFG_enable, [.rw], .any, .k 0⟩, ⟨F.TIM_TPO_CFG_invert, [.wd], .any, .k 0⟩, ⟨F.TIM_TPO_CFG_width, [.wd], .any, .k 1000⟩]⟩,
  ⟨0x180500, 0x0, 1, 0x0, 1, .plain, [⟨F.TIM_ERR_cmp_late, [.rc], .any, .k 0⟩]⟩,
  ⟨0x190000, 0x100, 2, 0x0, 1, .ethp, [⟨F.ETH_CTL_enable, [.pv], .any, .k 0⟩, ⟨F.ETH_CTL_mode, [.pv, .wd], .span 0 1, .k 0⟩, ⟨F.ETH_CTL_txdis, [.pv], .any, .k 1⟩, ⟨F.ETH_CTL_an_en, [.pv, .wd], .any, .k 1⟩]⟩,
  ⟨0x190004, 0x100, 2, 0x0, 1, .ethp, [⟨F.ETH_MAC_LO_addr, [.pv, .wd], .any, .k 0⟩]⟩]

/-- Part 10 of the register table. -/
def regTable10 : List RegRow := [
  ⟨0x190008, 0x100, 2, 0x0, 1, .ethp, [⟨F.ETH_MAC_HI_addr, [.pv, .wd], .any, .k 0⟩]⟩,
  ⟨0x19000C, 0x100, 2, 0x0, 1, .ethp, [⟨F.ETH_STAT_link, [.ro], .any, .k 0⟩, ⟨F.ETH_STAT_lock, [.ro], .any, .k 0⟩, ⟨F.ETH_STAT_los, [.ro], .any, .k 0⟩, ⟨F.ETH_STAT_present, [.ro], .any, .k 0⟩, ⟨F.ETH_STAT_link_chg, [.rc], .any, .k 0⟩]⟩,
  ⟨0x190010, 0x100, 2, 0x0, 1, .ethp, [⟨F.ETH_RX_FRAMES_count, [.rc], .any, .k 0⟩]⟩,
  ⟨0x190014, 0x100, 2, 0x0, 1, .ethp, [⟨F.ETH_TX_FRAMES_count, [.rc], .any, .k 0⟩]⟩,
  ⟨0x190018, 0x100, 2, 0x0, 1, .ethp, [⟨F.ETH_ERR_fcs, [.rc], .any, .k 0⟩, ⟨F.ETH_ERR_dropped, [.rc], .any, .k 0⟩, ⟨F.ETH_ERR_wr_ignored, [.rc], .any, .k 0⟩]⟩,
  ⟨0x190400, 0x0, 1, 0x0, 1, .ethz, [⟨F.ETH_ZONE_CFG_enable, [.pv], .any, .k 0⟩, ⟨F.ETH_ZONE_CFG_port, [.pv, .wd], .any, .k 0⟩]⟩,
  ⟨0x190404, 0x0, 1, 0x0, 1, .ethz, [⟨F.ETH_ZONE_DST_LO_addr, [.pv, .wd], .any, .k 0⟩]⟩,
  ⟨0x190408, 0x0, 1, 0x0, 1, .ethz, [⟨F.ETH_ZONE_DST_HI_addr, [.pv, .wd], .any, .k 0⟩]⟩,
  ⟨0x190410, 0x0, 1, 0x0, 1, .ethz, [⟨F.ETH_MDIO_CMD_phy, [.act, .pv], .any, .k 0⟩, ⟨F.ETH_MDIO_CMD_reg, [.act, .pv], .any, .k 0⟩, ⟨F.ETH_MDIO_CMD_op, [.act, .pv], .any, .k 0⟩, ⟨F.ETH_MDIO_CMD_c45, [.act, .pv], .any, .k 0⟩, ⟨F.ETH_MDIO_CMD_data, [.act, .pv], .any, .k 0⟩]⟩,
  ⟨0x190414, 0x0, 1, 0x0, 1, .ethz, [⟨F.ETH_MDIO_STAT_data, [.ro], .any, .k 0⟩, ⟨F.ETH_MDIO_STAT_busy, [.ro], .any, .k 0⟩, ⟨F.ETH_MDIO_STAT_noresp, [.ro], .any, .k 0⟩]⟩,
  ⟨0x1A0000, 0x0, 1, 0x0, 1, .qnc, [⟨F.QNC_STAT_behaviour, [.ro, .pv], .any, .k 0⟩, ⟨F.QNC_STAT_confirmed, [.ro, .pv], .any, .k 0⟩, ⟨F.QNC_STAT_set_present, [.ro, .pv], .any, .k 0⟩, ⟨F.QNC_STAT_free_tick, [.ro, .pv], .any, .k 0⟩, ⟨F.QNC_STAT_sto_all, [.ro, .pv], .any, .k 1⟩, ⟨F.QNC_STAT_safe_cause, [.ro, .pv], .any, .k 0⟩]⟩,
  ⟨0x1A0004, 0x0, 1, 0x0, 1, .qnc, [⟨F.QNC_SPS_CRC_crc, [.ro, .pv], .any, .k 0⟩]⟩,
  ⟨0x1A0008, 0x0, 1, 0x0, 1, .qnc, [⟨F.QNC_SPS_CONFIRM_value, [.act, .t3, .pv], .any, .k 0⟩]⟩,
  ⟨0x1A000C, 0x0, 1, 0x0, 1, .qnc, [⟨F.QNC_SPS_VER_version, [.ro, .pv], .any, .k 0⟩]⟩,
  ⟨0x1A0010, 0x0, 1, 0x0, 1, .qnc, [⟨F.QNC_IN_VAL_value, [.ro, .pv], .any, .k 0⟩, ⟨F.QNC_IN_VAL_partial, [.ro, .pv], .any, .k 0⟩]⟩,
  ⟨0x1A0014, 0x0, 1, 0x0, 1, .qnc, [⟨F.QNC_IN_FLT_disc, [.ro, .pv], .any, .k 0⟩, ⟨F.QNC_IN_FLT_tp, [.ro, .pv], .any, .k 0⟩]⟩,
  ⟨0x1A0018, 0x0, 1, 0x0, 1, .qnc, [⟨F.QNC_OUT_STAT_on, [.ro, .pv], .any, .k 0⟩, ⟨F.QNC_OUT_STAT_fault, [.ro, .pv], .any, .k 0⟩]⟩,
  ⟨0x1A001C, 0x0, 1, 0x0, 1, .qnc, [⟨F.QNC_ERR_ecc_corr, [.rc, .pv], .any, .k 0⟩, ⟨F.QNC_ERR_crc_err, [.rc, .pv], .any, .k 0⟩, ⟨F.QNC_ERR_wr_ignored, [.rc, .pv], .any, .k 0⟩]⟩,
  ⟨0x1A0020, 0x0, 1, 0x0, 1, .qnc, [⟨F.QNC_TICK_count, [.ro, .pv], .any, .k 0⟩]⟩,
  ⟨0x1A0024, 0x0, 1, 0x0, 1, .qnc, [⟨F.QNC_SPACE_objects, [.ro, .pv], .any, .k 0⟩, ⟨F.QNC_SPACE_sensors, [.ro, .pv], .any, .k 0⟩, ⟨F.QNC_SPACE_eval_us, [.ro, .pv], .any, .k 0⟩]⟩,
  ⟨0x1A0100, 0x4, 128, 0x0, 1, .qnc, [⟨F.QNC_CONN_STAT_state, [.ro, .pv], .any, .k 0⟩, ⟨F.QNC_CONN_STAT_ack_wait, [.ro, .pv], .any, .k 0⟩, ⟨F.QNC_CONN_STAT_cause, [.ro, .pv], .any, .k 0⟩, ⟨F.QNC_CONN_STAT_number, [.ro, .pv], .any, .k 0⟩]⟩,
  ⟨0x1A0400, 0x4, 16, 0x0, 1, .qnc, [⟨F.QNC_CHAIN_STAT_stop, [.ro, .pv], .any, .k 3⟩, ⟨F.QNC_CHAIN_STAT_state, [.ro, .pv], .any, .k 3⟩, ⟨F.QNC_CHAIN_STAT_cause, [.ro, .pv], .any, .k 14⟩, ⟨F.QNC_CHAIN_STAT_sls, [.ro, .pv], .any, .k 0⟩, ⟨F.QNC_CHAIN_STAT_degraded, [.ro, .pv], .any, .k 0⟩, ⟨F.QNC_CHAIN_STAT_restart, [.ro, .pv], .any, .k 0⟩, ⟨F.QNC_CHAIN_STAT_allow, [.ro, .pv], .any, .k 0⟩]⟩,
  ⟨0x1A0440, 0x4, 16, 0x0, 1, .qnc, [⟨F.QNC_BRK_STAT_state, [.ro, .pv], .any, .k 0⟩, ⟨F.QNC_BRK_STAT_fault, [.ro, .pv], .any, .k 0⟩, ⟨F.QNC_BRK_STAT_test_fail, [.ro, .pv], .any, .k 0⟩, ⟨F.QNC_BRK_STAT_due, [.ro, .pv], .any, .k 0⟩, ⟨F.QNC_BRK_STAT_result, [.ro, .pv], .any, .k 0⟩, ⟨F.QNC_BRK_STAT_hours, [.ro, .pv], .any, .k 0⟩]⟩,
  ⟨0x1C0000, 0x0, 1, 0x0, 1, .wax, [⟨F.WAX_CTL_enable, [.pv], .any, .k 0⟩, ⟨F.WAX_CTL_clear, [.act, .pv], .any, .k 0⟩]⟩]

/-- Part 11 of the register table. -/
def regTable11 : List RegRow := [
  ⟨0x1C0004, 0x0, 1, 0x0, 1, .wax, [⟨F.WAX_STAT_full, [.ro], .any, .k 0⟩, ⟨F.WAX_STAT_busy, [.ro], .any, .k 0⟩, ⟨F.WAX_STAT_pending, [.ro], .any, .k 0⟩, ⟨F.WAX_STAT_ext_fault, [.ro], .any, .k 0⟩, ⟨F.WAX_STAT_ext_lost, [.ro], .any, .k 0⟩, ⟨F.WAX_STAT_epoch, [.ro], .any, .k 0⟩, ⟨F.WAX_STAT_lost, [.ro], .any, .k 0⟩]⟩,
  ⟨0x1C0008, 0x0, 1, 0x0, 1, .wax, [⟨F.WAX_FILL_bytes, [.ro], .any, .k 0⟩]⟩,
  ⟨0x1C000C, 0x0, 1, 0x0, 1, .wax, [⟨F.WAX_SEQ_next, [.ro], .any, .k 1⟩]⟩,
  ⟨0x1C0010, 0x0, 1, 0x0, 1, .wax, [⟨F.WAX_CUR_offset, [.rw], .any, .k 0⟩]⟩,
  ⟨0x1C0014, 0x0, 1, 0x0, 1, .wax, [⟨F.WAX_EXT_BASE_LO_addr, [.wd], .any, .k 0⟩]⟩,
  ⟨0x1C0018, 0x0, 1, 0x0, 1, .wax, [⟨F.WAX_EXT_BASE_HI_addr, [.wd], .any, .k 0⟩]⟩,
  ⟨0x1C001C, 0x0, 1, 0x0, 1, .wax, [⟨F.WAX_EXT_SIZE_mib, [.wd], .span 0 64, .k 0⟩]⟩,
  ⟨0x1C0020, 0x0, 1, 0x0, 1, .wax, [⟨F.WAX_SOFT_fire, [.act], .any, .k 0⟩]⟩,
  ⟨0x1C0024, 0x0, 1, 0x0, 1, .wax, [⟨F.WAX_ERR_wr_ignored, [.rc], .any, .k 0⟩, ⟨F.WAX_ERR_missed, [.rc], .any, .k 0⟩, ⟨F.WAX_ERR_suppressed, [.rc], .any, .k 0⟩]⟩,
  ⟨0x1C1000, 0x10, 32, 0x0, 1, .wax, [⟨F.WAX_TRIG0_kind, [.wd], .any, .k 0⟩, ⟨F.WAX_TRIG0_list, [.wd], .any, .k 0⟩, ⟨F.WAX_TRIG0_source, [.wd], .any, .k 0⟩]⟩,
  ⟨0x1C1004, 0x10, 32, 0x0, 1, .wax, [⟨F.WAX_TRIG1_code, [.wd], .any, .k 0⟩]⟩,
  ⟨0x1C1008, 0x10, 32, 0x0, 1, .wax, [⟨F.WAX_TRIG2_instance, [.wd], .any, .k 0⟩, ⟨F.WAX_TRIG2_rearm, [.wd], .any, .k 0⟩]⟩,
  ⟨0x1C100C, 0x10, 32, 0x0, 1, .wax, [⟨F.WAX_TRIG3_holdoff, [.wd], .any, .k 0⟩]⟩,
  ⟨0x1C2000, 0x100, 16, 0x4, 64, .wax, [⟨F.WAX_LIST_entry, [.wd], .any, .k 0⟩]⟩,
  ⟨0x1D0000, 0x0, 1, 0x0, 1, .blw, [⟨F.BLW_CTL_enable, [.actClr, .pv], .any, .k 0⟩]⟩,
  ⟨0x1D0004, 0x0, 1, 0x0, 1, .blw, [⟨F.BLW_CFG_primary, [.wd, .pv], .any, .k 0⟩, ⟨F.BLW_CFG_hb_wait, [.wd], .any, .k 0⟩, ⟨F.BLW_CFG_diff_thr, [.wd], .any, .k 256⟩]⟩,
  ⟨0x1D0008, 0x0, 1, 0x0, 1, .blw, [⟨F.BLW_STAT_link, [.ro], .any, .k 0⟩, ⟨F.BLW_STAT_lanes, [.ro], .any, .k 0⟩, ⟨F.BLW_STAT_partner_role, [.ro], .any, .k 0⟩, ⟨F.BLW_STAT_ready, [.ro], .any, .k 0⟩, ⟨F.BLW_STAT_partner_ready, [.ro], .any, .k 0⟩, ⟨F.BLW_STAT_hb_lost, [.ro], .any, .k 0⟩, ⟨F.BLW_STAT_epoch, [.ro], .any, .k 0⟩]⟩,
  ⟨0x1D000C, 0x0, 1, 0x0, 1, .blw, [⟨F.BLW_DIGEST_digest, [.ro], .any, .k 0⟩]⟩,
  ⟨0x1D0010, 0x0, 1, 0x0, 1, .blw, [⟨F.BLW_PDIGEST_digest, [.ro], .any, .k 0⟩]⟩,
  ⟨0x1D0014, 0x0, 1, 0x0, 1, .blw, [⟨F.BLW_MIRROR_age, [.ro], .any, .k 255⟩, ⟨F.BLW_MIRROR_kib, [.ro], .any, .k 0⟩]⟩,
  ⟨0x1D0018, 0x0, 1, 0x0, 1, .blw, [⟨F.BLW_ERR_wr_ignored, [.rc], .any, .k 0⟩, ⟨F.BLW_ERR_crc, [.rc], .any, .k 0⟩, ⟨F.BLW_ERR_incomplete, [.rc], .any, .k 0⟩, ⟨F.BLW_ERR_shadow_diff, [.rc], .any, .k 0⟩]⟩,
  ⟨0x1D001C, 0x0, 1, 0x0, 1, .blw, [⟨F.BLW_LANE_ERR_blocks, [.rc], .any, .k 0⟩]⟩,
  ⟨0x1E0000, 0x0, 1, 0x0, 1, .plain, [⟨F.UPD_STAT_running, [.ro, .pv], .any, .k 0⟩, ⟨F.UPD_STAT_confirmed, [.ro, .pv], .any, .k 0⟩, ⟨F.UPD_STAT_busy, [.ro, .pv], .any, .k 0⟩]⟩,
  ⟨0x1E0010, 0x10, 2, 0x0, 1, .plain, [⟨F.UPD_SLOT_VER_LO_version, [.ro, .pv], .any, .k 0⟩]⟩]

/-- Part 12 of the register table. -/
def regTable12 : List RegRow := [
  ⟨0x1E0014, 0x10, 2, 0x0, 1, .plain, [⟨F.UPD_SLOT_VER_HI_version, [.ro, .pv], .any, .k 0⟩]⟩,
  ⟨0x1E0018, 0x10, 2, 0x0, 1, .plain, [⟨F.UPD_SLOT_REC_state, [.ro, .pv], .any, .k 0⟩, ⟨F.UPD_SLOT_REC_trials, [.ro, .pv], .any, .k 0⟩, ⟨F.UPD_SLOT_REC_reject, [.ro, .pv], .any, .k 0⟩, ⟨F.UPD_SLOT_REC_rollback, [.ro, .pv], .any, .k 0⟩]⟩,
  ⟨0x1E0040, 0x0, 1, 0x0, 1, .plain, [⟨F.UPD_STAGE_owner, [.ro, .pv], .any, .k 0⟩, ⟨F.UPD_STAGE_slot, [.ro, .pv], .any, .k 0⟩, ⟨F.UPD_STAGE_written, [.ro, .pv], .any, .k 0⟩]⟩,
  ⟨0x1E0050, 0x0, 1, 0x0, 1, .plain, [⟨F.UPD_FUSE_rollback, [.ro, .pv], .any, .k 0⟩, ⟨F.UPD_FUSE_revoked, [.ro, .pv], .any, .k 0⟩]⟩,
  ⟨0x1E0060, 0x0, 1, 0x0, 1, .plain, [⟨F.UPD_BOOT_NOTE_fell_back, [.ro, .pv], .any, .k 0⟩, ⟨F.UPD_BOOT_NOTE_first, [.ro, .pv], .any, .k 0⟩, ⟨F.UPD_BOOT_NOTE_reject, [.ro, .pv], .any, .k 0⟩]⟩,
  ⟨0x1E0070, 0x0, 1, 0x0, 1, .plain, [⟨F.UPD_SET_slot, [.ro, .pv], .any, .k 0⟩, ⟨F.UPD_SET_format, [.ro, .pv], .any, .k 0⟩]⟩,
  ⟨0x1F0000, 0x0, 1, 0x0, 1, .plain, [⟨F.CLK_RST_CTL_dev_reset, [.act, .pv, .wp], .any, .k 0⟩, ⟨F.CLK_RST_CTL_kindle_next, [.rw, .pv, .wp], .any, .k 0⟩, ⟨F.CLK_RST_CTL_busy, [.ro, .pv], .any, .k 0⟩]⟩,
  ⟨0x1F0004, 0x0, 1, 0x0, 1, .plain, [⟨F.CLK_RST_CAUSE_cause, [.ro, .pv], .any, .k 1⟩, ⟨F.CLK_RST_CAUSE_warm, [.ro, .pv], .any, .k 0⟩, ⟨F.CLK_RST_CAUSE_busy, [.ro, .pv], .any, .k 0⟩]⟩,
  ⟨0x1F0010, 0x0, 1, 0x0, 1, .plain, [⟨F.CLK_TEMP_now, [.ro, .pv], .any, .k 0⟩, ⟨F.CLK_TEMP_peak, [.rc, .pv], .any, .k 0⟩, ⟨F.CLK_TEMP_sensor, [.ro, .pv], .any, .k 0⟩, ⟨F.CLK_TEMP_busy, [.ro, .pv], .any, .k 0⟩]⟩,
  ⟨0x1F0014, 0x0, 1, 0x0, 1, .plain, [⟨F.CLK_THERM_CFG_warn, [.rw, .pv, .wp], .any, .k 100⟩, ⟨F.CLK_THERM_CFG_busy, [.ro, .pv], .any, .k 0⟩]⟩,
  ⟨0x1F0018, 0x0, 1, 0x0, 1, .plain, [⟨F.CLK_SUP_STAT_low, [.rc, .pv], .any, .k 0⟩, ⟨F.CLK_SUP_STAT_high, [.rc, .pv], .any, .k 0⟩, ⟨F.CLK_SUP_STAT_busy, [.ro, .pv], .any, .k 0⟩]⟩,
  ⟨0x1F001C, 0x0, 1, 0x0, 1, .plain, [⟨F.CLK_PLL_STAT_locked, [.ro, .pv], .any, .k 0⟩, ⟨F.CLK_PLL_STAT_unlock, [.rc, .pv], .any, .k 0⟩, ⟨F.CLK_PLL_STAT_busy, [.ro, .pv], .any, .k 0⟩]⟩]

/-- Every register of BAR0 that a chapter names, in offset order. -/
def regTable : List RegRow :=
  regTable0 ++ regTable1 ++ regTable2 ++ regTable3 ++ regTable4 ++ regTable5 ++ regTable6 ++ regTable7 ++ regTable8 ++ regTable9 ++ regTable10 ++ regTable11 ++ regTable12

/-! ## Reset values -/

/-- A register with a nonzero reset value: offset, strides and counts, and each nonzero field's lowest bit and value. -/
structure ResetRow where
  off : Nat
  s1 : Nat
  c1 : Nat
  s2 : Nat
  c2 : Nat
  fields : List (Nat × Rst)
  deriving DecidableEq, Repr

/-- Every register whose reset value is not zero (the Reset columns of the maps). -/
def resetTable : List ResetRow := [
  ⟨0x0, 0x0, 1, 0x0, 1, [(0, .k 33366), (16, .k 176), (24, .k 1)]⟩,
  ⟨0x48, 0x0, 1, 0x0, 1, [(0, .k 1985229328)]⟩,
  ⟨0x4C, 0x0, 1, 0x0, 1, [(0, .k 4275878552)]⟩,
  ⟨0x50, 0x0, 1, 0x0, 1, [(0, .k 4294967295)]⟩,
  ⟨0x54, 0x0, 1, 0x0, 1, [(0, .k 4008636142)]⟩,
  ⟨0x60, 0x0, 1, 0x0, 1, [(16, .k 1)]⟩,
  ⟨0x124, 0x0, 1, 0x0, 1, [(8, .k 1)]⟩,
  ⟨0x128, 0x0, 1, 0x0, 1, [(16, .k 20)]⟩,
  ⟨0x20C, 0x10, 8, 0x0, 1, [(16, .k 16)]⟩,
  ⟨0x11008, 0x40, 64, 0x0, 1, [(0, .k 6), (8, .lt16 1), (16, .cqOf)]⟩,
  ⟨0x1100C, 0x40, 64, 0x0, 1, [(0, .k 64)]⟩,
  ⟨0x12008, 0x40, 64, 0x0, 1, [(0, .k 6), (8, .ix), (16, .k 1)]⟩,
  ⟨0x12018, 0x40, 64, 0x0, 1, [(16, .k 1)]⟩,
  ⟨0x13000, 0x4, 128, 0x0, 1, [(0, .k 1), (8, .evt)]⟩,
  ⟨0x1800C, 0x10, 128, 0x0, 1, [(0, .k 1)]⟩,
  ⟨0x20008, 0x0, 1, 0x0, 1, [(0, .k 4)]⟩,
  ⟨0x2000C, 0x0, 1, 0x0, 1, [(0, .k 2000)]⟩,
  ⟨0x20010, 0x0, 1, 0x0, 1, [(8, .k 7)]⟩,
  ⟨0x40004, 0x1000, 8, 0x0, 1, [(1, .k 1)]⟩,
  ⟨0x4000C, 0x1000, 8, 0x0, 1, [(0, .k 1)]⟩,
  ⟨0x48000, 0x0, 1, 0x0, 1, [(0, .k 2), (8, .k 20)]⟩,
  ⟨0x80000, 0x1000, 64, 0x0, 1, [(2, .k 1)]⟩,
  ⟨0x80004, 0x1000, 64, 0x0, 1, [(1, .k 1)]⟩,
  ⟨0x80008, 0x1000, 64, 0x0, 1, [(0, .k 1), (16, .k 3)]⟩,
  ⟨0x80100, 0x1000, 64, 0x40, 16, [(13, .k 1)]⟩,
  ⟨0x80104, 0x1000, 64, 0x40, 16, [(0, .k 16384)]⟩,
  ⟨0x80108, 0x1000, 64, 0x40, 16, [(0, .k 8192)]⟩,
  ⟨0x8010C, 0x1000, 64, 0x40, 16, [(0, .k 8)]⟩,
  ⟨0x80110, 0x1000, 64, 0x40, 16, [(0, .k 32769), (16, .k 32767)]⟩,
  ⟨0x80118, 0x1000, 64, 0x40, 16, [(0, .k 65536)]⟩,
  ⟨0x8011C, 0x1000, 64, 0x40, 16, [(0, .k 65536)]⟩,
  ⟨0x100004, 0x200, 32, 0x0, 1, [(5, .k 1), (16, .k 32)]⟩,
  ⟨0x100008, 0x200, 32, 0x0, 1, [(0, .k 4), (8, .k 64), (16, .k 4)]⟩,
  ⟨0x100018, 0x200, 32, 0x0, 1, [(4, .k 3), (8, .k 2)]⟩,
  ⟨0x100024, 0x200, 32, 0x0, 1, [(0, .k 8192)]⟩,
  ⟨0x100028, 0x200, 32, 0x0, 1, [(0, .k 125)]⟩,
  ⟨0x10002C, 0x200, 32, 0x0, 1, [(0, .k 50), (16, .k 25), (22, .k 1), (26, .k 20)]⟩,
  ⟨0x100030, 0x200, 32, 0x0, 1, [(8, .k 25)]⟩,
  ⟨0x104000, 0x20, 8, 0x0, 1, [(2, .k 1), (16, .k 2)]⟩,
  ⟨0x110004, 0x200, 16, 0x0, 1, [(0, .k 5)]⟩,
  ⟨0x110008, 0x200, 16, 0x0, 1, [(0, .k 40960000)]⟩,
  ⟨0x11000C, 0x200, 16, 0x0, 1, [(0, .k 25600000)]⟩,
  ⟨0x110010, 0x200, 16, 0x0, 1, [(0, .k 25600000)]⟩,
  ⟨0x110018, 0x200, 16, 0x0, 1, [(0, .k 51200000)]⟩,
  ⟨0x11001C, 0x200, 16, 0x0, 1, [(0, .k 128), (8, .k 64), (16, .k 100)]⟩,
  ⟨0x110020, 0x200, 16, 0x0, 1, [(0, .k 3), (8, .k 8), (16, .k 100)]⟩,
  ⟨0x110038, 0x200, 16, 0x0, 1, [(0, .k 5)]⟩,
  ⟨0x120010, 0x10, 2, 0x0, 1, [(0, .pick 0 16), (8, .pick 15 31), (17, .k 1)]⟩,
  ⟨0x120018, 0x10, 2, 0x0, 1, [(0, .k 1)]⟩,
  ⟨0x120040, 0x0, 1, 0x0, 1, [(0, .k 248), (8, .k 8)]⟩,
  ⟨0x120044, 0x0, 1, 0x0, 1, [(0, .k 384)]⟩,
  ⟨0x120084, 0x8, 8, 0x0, 1, [(0, .k 65535)]⟩,
  ⟨0x140000, 0x2000, 8, 0x0, 1, [(1, .k 1), (2, .k 1)]⟩,
  ⟨0x140004, 0x2000, 8, 0x0, 1, [(0, .k 1)]⟩,
  ⟨0x140030, 0x2000, 8, 0x0, 1, [(0, .k 16), (8, .k 16), (16, .k 64), (24, .k 1)]⟩,
  ⟨0x140080, 0x2000, 8, 0x0, 1, [(0, .at0 1), (1, .k 1), (4, .k 1), (8, .k 64)]⟩,
  ⟨0x1400A4, 0x2000, 8, 0x0, 1, [(0, .k 1), (1, .k 1)]⟩,
  ⟨0x1400B4, 0x2000, 8, 0x0, 1, [(0, .k 43254), (16, .k 5), (21, .k 3), (24, .k 40)]⟩,
  ⟨0x1400B8, 0x2000, 8, 0x0, 1, [(4, .k 2), (26, .k 6)]⟩,
  ⟨0x180000, 0x0, 1, 0x0, 1, [(0, .k 125000)]⟩,
  ⟨0x180040, 0x0, 1, 0x0, 1, [(4, .k 2), (8, .k 100), (16, .k 5), (24, .k 3), (28, .k 5)]⟩,
  ⟨0x180050, 0x4, 2, 0x0, 1, [(8, .ix)]⟩,
  ⟨0x180300, 0x10, 16, 0x0, 1, [(8, .k 1), (12, .k 2)]⟩,
  ⟨0x180400, 0x10, 4, 0x0, 1, [(8, .k 1000)]⟩,
  ⟨0x190000, 0x100, 2, 0x0, 1, [(3, .k 1), (4, .k 1)]⟩,
  ⟨0x1A0000, 0x0, 1, 0x0, 1, [(6, .k 1)]⟩,
  ⟨0x1A0400, 0x4, 16, 0x0, 1, [(0, .k 3), (2, .k 3), (4, .k 14)]⟩,
  ⟨0x1C000C, 0x0, 1, 0x0, 1, [(0, .k 1)]⟩,
  ⟨0x1D0004, 0x0, 1, 0x0, 1, [(16, .k 256)]⟩,
  ⟨0x1D0014, 0x0, 1, 0x0, 1, [(0, .k 255)]⟩,
  ⟨0x1F0004, 0x0, 1, 0x0, 1, [(0, .k 1)]⟩,
  ⟨0x1F0014, 0x0, 1, 0x0, 1, [(0, .k 100)]⟩]

/-- The instance numbers of the register at `off` within a row, if the row holds it. -/
def locate (base s1 c1 s2 c2 off : Nat) : Option (Nat × Nat) :=
  if off < base then none else
  let d := off - base
  let i := if s1 = 0 then 0 else d / s1
  let r := if s1 = 0 then d else d % s1
  let j := if s2 = 0 then 0 else r / s2
  let q := if s2 = 0 then r else r % s2
  if i < c1 ∧ j < c2 ∧ q = 0 then some (i, j) else none

/-- A field's reset value in instance (i, j). -/
def Rst.value (r : Rst) (i : Nat) : Nat :=
  match r with
  | .k v => v
  | .ix => i
  | .cqOf => if i = 63 then 62 else i
  | .evt => 64 + i / 2
  | .lt16 v => if i < 16 then v else 0
  | .at0 v => if i = 0 then v else 0
  | .pick a b => if i = 0 then a else b

/-- The reset word a list of rows gives the register at `off`. -/
def resetWordOf (off : Nat) : List ResetRow → Nat
  | [] => 0
  | r :: rs =>
    match locate r.off r.s1 r.c1 r.s2 r.c2 off with
    | some (i, _) => r.fields.foldl (fun a f => a + f.2.value i * 2 ^ f.1) 0
    | none => resetWordOf off rs

/-- The word the register at BAR0 offset `off` holds after a power-on reset (R13); 0 where no chapter names one. -/
def resetWord (off : Nat) : Word := BitVec.ofNat 32 (resetWordOf off resetTable)

/-- The row of the register at `off` and its instance numbers, among the given rows. -/
def findRow (off : Nat) : List RegRow → Option (RegRow × Nat × Nat)
  | [] => none
  | r :: rs =>
    match locate r.off r.s1 r.c1 r.s2 r.c2 off with
    | some (i, j) => some (r, i, j)
    | none => findRow off rs

/-- The BAR0 offset of the register that holds a field in instance (i, j). -/
def Fld.addr (f : Fld) (i j : Nat) : Nat := f.off + f.s1 * i + f.s2 * j

/-- The index of the block that owns a BAR0 offset (R19); 16 where none does. -/
def blockIndex (off : Nat) : Nat :=
  if off < 0x10000 then 0 else if off < 0x20000 then 1 else if off < 0x40000 then 2
  else if off < 0x80000 then 3 else if off < 0x100000 then 4 else if off < 0x110000 then 5
  else if off < 0x120000 then 6 else if off < 0x140000 then 7 else if off < 0x180000 then 8
  else if off < 0x190000 then 9 else if off < 0x1A0000 then 10 else if off < 0x1C0000 then 11
  else if off < 0x1D0000 then 12 else if off < 0x1E0000 then 13 else if off < 0x1F0000 then 14
  else if off < 0x200000 then 15 else 16

end Sys2Proof.Machine
end

