-- ==== Sys2Proof/Config.lean ====
section
/-!
DEFINITION. Config.lean: what one device fixes and the free values.  Each constant here is opaque: no proof can see a
value of it, so a claim holds whatever it is.
-/

namespace Sys2Proof.Config

/-- The 128-bit unique identifier fused at manufacture (R3); its value is the device's own. -/
opaque uid : BitVec 128

/-- The device secret from which the attestation key is derived (R478): its value is the device's own. -/
opaque deviceSecret : BitVec 256

/-- SHA-512 (R466, R467, R476), the Ed25519 signature check (public key, 64-byte message digest, signature; R95, R467), and the
device key: its public half and its signature of a message (R478).  The standards fix them; the model does not compute them. -/
opaque sha512 : List (BitVec 8) → BitVec 512
opaque ed25519Verify : BitVec 256 → List (BitVec 8) → BitVec 512 → Bool
opaque devicePublic : BitVec 256
opaque deviceSign : List (BitVec 8) → BitVec 512

/-- The Grainawick public keys in Farrier's boot ROM (R467). -/
opaque grainawickKey : Nat → BitVec 256

/-- FREE VALUE: the bytes of a settings record header (R476), whose layout the manual does not give: format, generation, image
version, content, byte. -/
opaque settingsHeader : Nat → Nat → Nat → List (BitVec 8) → Nat → BitVec 8

/-- Commissioning: whether a chain's kinematics has a Cartesian model (R157). -/
opaque cartesian : Nat → Bool

/-- Commissioning: the soft limits of an axis, positions in the format of R10 (R162). -/
opaque softLow : Nat → BitVec 64
opaque softHigh : Nat → BitVec 64

/-- Commissioning: the tuning-capture region of DDR (R32, R218): its base and its size. -/
opaque tuneBase : Nat
opaque tuneSize : Nat

/-- Commissioning: the trace-stream region of DDR (R32): its base and its size. -/
opaque traceBase : Nat
opaque traceSize : Nat

/-- FREE VALUE: whether the Hall sector after 4 (U alone) is 6 in upward counting (R260). -/
opaque hallUp : Bool

/-- FREE VALUE: the status of a Swage motion operation on a channel that accepts no motion (R277, R282). -/
opaque swageRefusal : BitVec 8

/-- FREE VALUE: the `n`-th 32-bit value that the manual leaves open (log entry 5). -/
opaque freeWord : Nat → BitVec 32

/-- FREE VALUE: the `n`-th 64-bit value that the manual leaves open (log entry 5). -/
opaque freeDWord : Nat → BitVec 64

end Sys2Proof.Config
end

