-- ==== Sys2Proof/Machine/TypesAdc.lean ====
section
/-!
DEFINITION. Machine/TypesAdc.lean: what the chapter "ADC subsystem" gives the sequencers and the result queue beside
their registers.  Instants are cell nanoseconds.
-/

namespace Sys2Proof.Machine

/-- A sample whose result is still to come (R411): its entry, the word of that entry when it was sampled, the code, the
sampling instant, whether the other converter's current flowed into the input, and whether it is the last of its run. -/
structure AdcSampleRec where
  entry : Nat
  conf : Word
  code : BitVec 16
  time : Nat
  pull : Bool
  ext : Bool
  last : Bool
  deriving DecidableEq, Repr

/-- A sequencer with its converter (R411 to R415). -/
structure AdcSeq where
  /-- First sampling instant of the run in progress, and how many entries it has sampled. -/
  start : Option Nat := none
  taken : Nat := 0
  /-- The start-up time is part of this run's instants (R414). -/
  ext : Bool := false
  pending : List AdcSampleRec := []
  /-- The instant from which the converter can sample since it was woken. -/
  ready : Nat := 0
  /-- A wake signal came during a run (R413). -/
  stay : Bool := false
  /-- Pulse centre (R412): tick of the last rising edge, high time of the previous pulse. -/
  rise : Option Nat := none
  high : Option Nat := none
  deriving DecidableEq, Repr

structure Adc where
  seq0 : AdcSeq := {}
  seq1 : AdcSeq := {}
  /-- The result queue, oldest first, at most 512 (R420). -/
  queue : List (List Byte) := []
  /-- A result was lost since the last one that entered. -/
  lost : Bool := false
  /-- Inputs whose open wire or limit has been reported (R417, R418). -/
  owTold : Nat := 0
  limTold : Nat := 0
  /-- Holding copies of bytes 4 to 15 of a popped result, and of ADC_LAST_HI, by reading master (R420, R421). -/
  popped : List (Nat × List Byte) := []
  last : List (Nat × Word) := []
  deriving DecidableEq, Repr

end Sys2Proof.Machine
end

