-- ==== Sys2Proof/Machine/TypesAnvil.lean ====
section
/-!
DEFINITION. Machine/TypesAnvil.lean: what the chapter "Anvil solver engines" gives the machine beside its registers:
jobs, the problem and iterates of each engine, warm slots, commit signals owed.
-/

namespace Sys2Proof.Machine

/-- A job that is queued or on an engine (R126 to R129). -/
structure Job where
  /-- The 64-byte job descriptor (R128); a host job's is built from its SOLVE descriptor (R129). -/
  bytes : List Byte
  /-- The SOLVE descriptor of a host job. -/
  desc : Option Nat := none
  /-- Cell nanoseconds; 0 for none. -/
  deadline : Nat
  deriving DecidableEq, Repr

/-- One stored matrix entry: row, column, 32-bit value. -/
structure Entry where
  row : Nat
  col : Nat
  val : Int
  deriving DecidableEq, Repr

/-- A problem as its body gives it (R132, R133). -/
structure Prob where
  n : Nat := 0
  m : Nat := 0
  frac : Nat := 0
  fracL : Nat := 0
  c0 : Int := 0
  sigma : Int := 0
  rho : Int := 0
  alpha : Nat := 16
  tau : Nat := 0
  checkEvery : Nat := 1
  maxIter : Nat := 1
  adapt : Nat := 1
  maxRefactor : Nat := 0
  adaptive : Bool := false
  hasWarm : Bool := false
  epsAbs : Nat := 0
  epsRel : Nat := 0
  epsUse : Nat := 0
  epsPinf : Nat := 0
  p : List Entry := []
  a : List Entry := []
  q : List Int := []
  l : List Int := []
  u : List Int := []
  d : List Int := []
  e : List Int := []
  order : List Nat := []
  warmX : List Int := []
  warmY : List Int := []
  deriving DecidableEq, Repr

/-- The result of one check (R142): the residuals and tolerances in units of 2^−(2F + 94), and its usability. -/
structure Check where
  iter : Nat
  rp : Nat
  rd : Nat
  ep : Nat
  ed : Nat
  usable : Bool
  deriving DecidableEq, Repr

/-- An iterate. -/
structure Iterate where
  x : List Int := []
  y : List Int := []
  z : List Int := []
  deriving DecidableEq, Repr

/-- A recorded outcome (R145, R148). -/
structure JobEnd where
  status : Nat
  ending : Nat
  usable : Bool := false
  iterate : Option Iterate := none
  check : Option Check := none
  loadCheck : Nat := 0
  time : Nat := 0
  deriving DecidableEq, Repr

/-- The job on an engine. -/
structure Solve where
  slot : Nat
  prob : Prob := {}
  hash : Nat := 0
  cur : Iterate := {}
  /-- ȳ at the previous check (R142). -/
  yPrev : Option (List Int) := none
  rho : Int := 0
  k : Nat := 0
  checks : Nat := 0
  sat : Bool := false
  best : Option (Check × Iterate) := none
  pivots : Nat := 0
  firstPivot : Nat := 0xFFFFFFFF
  warmReject : Bool := false
  warmUsed : Bool := false
  adapted : Bool := false
  refactors : Nat := 0
  outcome : Option JobEnd := none
  deriving DecidableEq, Repr

/-- A warm slot (R152). -/
structure WarmSlot where
  valid : Bool := false
  hash : Nat := 0
  frac : Nat := 0
  d : List Int := []
  e : List Int := []
  rho : Int := 0
  it : Iterate := {}
  deriving DecidableEq, Repr

structure Anvil where
  job : List (Nat × Option Job) := []
  eng : List (Nat × Option Solve) := []
  warm : List (Nat × WarmSlot) := []
  /-- The descriptor to which each host slot was last given (R127). -/
  hostSlot : List (Nat × Option Nat) := []
  /-- Temper engines whose commit signal is owed, oldest commit first (R147). -/
  signals : List (List Nat) := []
  deriving DecidableEq, Repr

end Sys2Proof.Machine
end

