-- ==== Sys2Proof/Machine/TypesBellows.lean ====
section
/-!
DEFINITION. Machine/TypesBellows.lean: what the chapter "Bellows pairing and takeover" gives the machine beside its registers.
-/

namespace Sys2Proof.Machine

structure Bellows where
  /-- The tick at which the link was enabled, and that it has stayed down for 1 s (R426). -/
  enabledAt : Nat := 0
  timedOut : Bool := false
  /-- The cycle of the newest heartbeat received, and the newest cycle whose heartbeat was found lost (R429). -/
  heard : Option Nat := none
  lost : Option Nat := none
  /-- The partner's digest was found to differ (R425). -/
  mismatch : Bool := false
  /-- The last heartbeat sent; none while it is withheld (R429). -/
  sent : Option Heartbeat := none
  /-- The cycle of the last mirror applied, and the mirrors applied in a row (R427, R430). -/
  mirrorAt : Option Nat := none
  mirrors : Nat := 0
  /-- Mirrors were complete when the last heartbeat came, and the mirrored counters agree with the device's own. -/
  mirrorOk : Bool := false
  countersOk : Bool := true
  /-- The partner's operating mode as the last applied mirror names it. -/
  mode : Nat := 0
  /-- Mirrored consecutive numbers of Quench's output connections. -/
  numbers : List (Nat × Nat) := []
  /-- PAIR_SWAP operations accepted: descriptor and swap cycle (R438); the swap cycle that the partner names. -/
  swaps : List (Nat × Nat) := []
  partnerSwap : Nat := 0
  /-- The device falls silent at the next common instant (R452). -/
  yielding : Bool := false
  deriving DecidableEq, Repr

end Sys2Proof.Machine
end

