-- ==== Sys2Proof/Machine/TypesCombway.lean ====
section
/-!
DEFINITION. Machine/TypesCombway.lean: what the chapters "Combway link, frames and schedule" and "Combway start-up,
synchronisation and the guardian" give each segment beside its registers.  Times within a cycle are in units of 2⁻⁴ ns.
-/

namespace Sys2Proof.Machine

/-- The buffers of an owned static slot (R313). -/
structure TxSlot where
  fill : List Byte := []
  send : List Byte := []
  /-- Source-1 placements written since the previous examination. -/
  written : List Nat := []
  /-- No examination has found every source-1 placement written since the segment was enabled. -/
  null : Bool := true
  rep : Bool := false
  deriving DecidableEq, Repr

/-- A window count of R314: its value, and whether its event has been raised in this second. -/
structure WinCount where
  n : Nat := 0
  told : Bool := false
  deriving DecidableEq, Repr

/-- The arrival offset of a slot on a channel (R326): copies learned from and the sum of their deviations, then the
offset; `bad` when it lay outside ±200 ns. -/
structure Learn where
  n : Nat := 0
  sum : Int := 0
  off : Option Int := none
  bad : Bool := false
  deriving DecidableEq, Repr

/-- A Guard (R332, R333): whether it is closed shows in CMB_GRD_STAT; here whether a fault closed it, whether the segment
has entered SYNC since, and the cycles without a valid sync frame on its channel. -/
structure Guard where
  fault : Bool := false
  reentered : Bool := false
  missed : Nat := 0
  seen : Bool := false
  deriving DecidableEq, Repr

/-- A reflection of Waggle (R336, R337): its last crossing in 100 ps, sign, the shots it appeared in and the last of them,
and the sum of its times. -/
structure Reflection where
  last : Nat
  negative : Bool
  shots : Nat
  shot : Nat
  sum : Nat
  deriving DecidableEq, Repr

structure Waggle where
  shots : Nat := 0
  refl : List Reflection := []
  /-- It ends early: 1 stopped, 2 the segment left SYNC. -/
  ending : Option Nat := none
  /-- The cycle of its last shot in window mode. -/
  cycle : Option Nat := none
  deriving DecidableEq, Repr

/-- A Combway message that waits for an owned identifier (R322, R323). -/
inductive CmbMsg where
  | time
  | echoReq
  | echoResp (req resp seq : Nat) (t1 : Nat) (t2a t2b : Nat)
  deriving DecidableEq, Repr

/-- A Combway message received: its payload, and the arrival of its valid copies in 2⁻⁴ ns. -/
structure CmbIn where
  payload : List Byte
  atA : Option Nat
  atB : Option Nat
  deriving DecidableEq, Repr

structure Seg8 where
  sched : Option (List Byte) := none
  stagedSched : Option (List Byte) := none
  /-- The strobe group has been applied with a schedule staged (R305). -/
  strobed : Bool := false
  /-- A write of 0 to `enable` waits for the common instant (R314). -/
  stopping : Bool := false
  tx : List (Nat × TxSlot) := []
  /-- The frames sent in this cycle: identifier and bytes from the header to the frame CRC. -/
  sent : List (Nat × List Byte) := []
  /-- Receive area (R304). -/
  area : List Host.Cell := []
  /-- Dynamic receive ring, oldest first (R309). -/
  ring : List (List Byte) := []
  /-- Posted dynamic frames and Combway messages of each identifier, oldest first (R312, R322). -/
  posted : List (Nat × List (List Byte)) := []
  msgs : List (Nat × List CmbMsg) := []
  /-- Combway messages received and not yet evaluated. -/
  inbox : List CmbIn := []
  /-- Dynamic counter, boundaries passed, boundaries left inside an occupancy (R300). -/
  dynId : Nat := 64
  mini : Nat := 0
  occ : Nat := 0
  /-- No further dynamic frame in this cycle (R300). -/
  mute : Bool := false
  /-- Cell nanoseconds of the entry into the present state, and the cycles since (R319, R324). -/
  since : Nat := 0
  cycles : Nat := 0
  attempts : Nat := 0
  /-- Integration (R324): the common instant of the present cycle as taken from the sync frame (2⁻⁴ ns), its counter, and,
  once TIME is taken, its cell time and the cycle in which it came. -/
  base : Int := 0
  count : Nat := 0
  timed : Bool := false
  timeNs : Nat := 0
  timeAt : Nat := 0
  /-- Full valid cycles (R324, R329), and that the last of them ends integration. -/
  good : Nat := 0
  ready : Bool := false
  echoSeq : Nat := 0
  echoOk : Bool := false
  /-- The echo result was obtained before the present cycle. -/
  echoPast : Bool := false
  delayA : Option Int := none
  delayB : Option Int := none
  theta : Int := 0
  learnA : List (Nat × Learn) := []
  learnB : List (Nat × Learn) := []
  /-- Valid copies of this cycle that offsets are learned from: slot, channel B, deviation. -/
  samples : List (Nat × Bool × Int) := []
  /-- The master's frame of this cycle: channel B, action point less slot start and 2 byte times, and deviation e. -/
  master : Option (Bool × Int × Int) := none
  /-- The same of the cycle before. -/
  masterLast : Option (Bool × Int × Int) := none
  prevDev : Option Int := none
  newRho : Option Int := none
  /-- A TIME message has contradicted the counter in this cycle (R324). -/
  contra : Bool := false
  noMaster : Nat := 0
  noSync : Nat := 0
  /-- Sync slots whose frame was valid in this and in the last cycle. -/
  syncNow : List Nat := []
  syncLast : List Nat := []
  /-- Silent cycles of each owner; none before it has been heard (R339). -/
  silent : List (Nat × Option Nat) := []
  heardNow : List Nat := []
  lossA : WinCount := {}
  lossB : WinCount := {}
  mism : WinCount := {}
  lateW : WinCount := {}
  lostW : WinCount := {}
  /-- Window counts of the seven checks of R307, per channel. -/
  errA : List (Nat × Nat) := []
  errB : List (Nat × Nat) := []
  errToldA : Bool := false
  errToldB : Bool := false
  guardA : Guard := {}
  guardB : Guard := {}
  wag : Waggle := {}
  deriving DecidableEq, Repr

structure Combway where
  seg : List (Nat × Seg8) := []
  /-- Segments whose feedback-complete instant has come in this cycle (R36). -/
  fbc : Nat := 0
  /-- The device has fallen silent until its reset (R436). -/
  silenced : Bool := false
  /-- Quench's input buffer: 8 KiB of each segment (R304), by segment × 8192 + offset. -/
  qin : List Host.Cell := []
  /-- Its deposits: start of the placement, its length, and the cell time of the deposit. -/
  qinAt : List (Nat × (Nat × Nat)) := []
  deriving DecidableEq, Repr

end Sys2Proof.Machine
end

