-- ==== Sys2Proof/Machine/TypesHost.lean ====
section
/-!
DEFINITION. Machine/TypesHost.lean: the state that the chapters "Register behaviour and privilege", "Host interface
and descriptor rings", "Forager cores and the Hive scheduler", "Time base and line time" and "Waxbook recorder and
diagnostics" give the machine beside its registers.  A field's default is its value after a power-on reset.
Sparse tables are lists of (index, entry) pairs in rising index order; an index that is not listed holds the
entry's reset value.
-/

namespace Sys2Proof.Machine

/-! ## Register behaviour and privilege -/

/-- The three states of a mailbox (R92). -/
inductive MbState where
  | empty | fresh | held
  deriving DecidableEq, Repr

/-- One mailbox page (R91 to R93). -/
structure Mailbox where
  st : MbState := .empty
  /-- Sequence number of the result in the page; 0 before the first (R92). -/
  seq : Nat := 0
  data : List Word := []
  overrun : Bool := false
  /-- The snapshot of a Held mailbox: sequence number and data (R92). -/
  snapSeq : Nat := 0
  snap : List Word := []
  snapOverrun : Bool := false
  /-- A newer result that waits while the mailbox is Held: its sequence number and data (R93). -/
  waiting : Option (Nat × List Word) := none
  /-- The tick at which the 10 µs hold started (R92). -/
  heldAt : Nat := 0
  deriving DecidableEq, Repr

/-- One write of GLB_STROBE that is not yet applied (R86). -/
structure Strobe where
  mask : Nat
  now : Bool
  /-- Cell nanoseconds of the arrival. -/
  cellAt : Nat
  deriving DecidableEq, Repr

/-- A posted write into a slow domain that has not landed (R88). -/
structure Posted where
  off : Nat
  value : Word
  arrived : Nat
  deriving DecidableEq, Repr

/-- The commissioning unlock's state beside GLB_UNLOCK_STAT (R95, R96). -/
structure Unlock where
  /-- A request that Farrier has not yet served. -/
  requested : Bool := false
  /-- Tick at which the present nonce was issued. -/
  nonceAt : Nat := 0
  /-- Tick at which nonces may be requested again, while the failure wait runs (R96). -/
  waitEnd : Option Nat := none
  deriving DecidableEq, Repr

/-- A mode request that is pending (R443): target, the privilege of its master, and cell time and tick of its arrival. -/
structure ModeReq where
  target : Nat
  priv : Bool
  cellAt : Nat
  tickAt : Nat
  deriving DecidableEq, Repr

structure Glb where
  /-- Staged copies of WS registers that differ from their active copies, by BAR0 offset (R86). -/
  staged : List (Nat × Option Word) := []
  strobes : List Strobe := []
  posted : List Posted := []
  /-- The second and third copies of a T3 register while they disagree with the first, and whether the disagreement
  has been reported (R89). -/
  t3copies : List (Nat × Option (Word × Word × Bool)) := []
  mailbox : List (Nat × Mailbox) := []
  unlock : Unlock := {}
  /-- Firmware watchdog: tick of the last service while it runs (R463). -/
  wdtServed : Nat := 0
  modeReq : Option ModeReq := none
  /-- A SENTINEL cause whose entry is due (R448, R449), and the entry's cell time until the engines have switched to their
  SENTINEL ramps (R450). -/
  sentinelDue : Option Nat := none
  sentinelAt : Option Nat := none
  deriving DecidableEq, Repr

/-! ## Host interface -/

/-- An outstanding descriptor: fetched, and its outcome not yet recorded (R68). -/
structure Desc where
  /-- Order of fetch over all rings. -/
  id : Nat
  ring : Nat
  slot : Nat
  bytes : List Byte
  /-- The completion ring in which its slot is reserved (R68). -/
  cq : Nat := 0
  /-- A privileged descriptor of R81. -/
  priv : Bool := false
  started : Bool := false
  deriving DecidableEq, Repr

/-- A completion whose outcome is recorded and that waits in its reserved slot (R70). -/
structure Compl where
  /-- The descriptor it ends. -/
  id : Nat
  cq : Nat
  ring : Nat
  /-- The sixteen bytes 16 to 31 and the rest of the completion but for its phase bit (R59). -/
  status : Nat
  notes : Nat
  tag : Nat
  time : Nat
  result : List Byte
  deriving DecidableEq, Repr

/-- An event record in event staging (R76, R77). -/
structure EventRec where
  src : Nat
  code : Nat
  time : Nat
  count : Nat
  inst : Nat
  epoch : Nat
  detail : DWord
  deriving DecidableEq, Repr

/-- The signalling state of one vector source (R79): records since it last fired, and the tick of the first of them. -/
structure Signal where
  since : Nat := 0
  first : Option Nat := none
  deriving DecidableEq, Repr

/-- A submission ring beside its registers: the producer index of the newest doorbell (R63) and the burst whose data
has not yet arrived (R68). -/
structure Sq where
  producer : Nat := 0
  inFlight : Nat := 0
  deriving DecidableEq, Repr

/-- A completion ring beside its registers: the consumer index and its signalling. -/
structure Cq where
  consumer : Nat := 0
  signal : Signal := {}
  deriving DecidableEq, Repr

structure Hif where
  sq : List (Nat × Sq) := []
  cq : List (Nat × Cq) := []
  /-- Outstanding descriptors in fetch order. -/
  desc : List Desc := []
  nextDesc : Nat := 0
  /-- Completions that wait for their completion ring, in the order of R71. -/
  compl : List Compl := []
  /-- Event staging, at most 768 records (R77). -/
  events : List EventRec := []
  /-- Source 7 is owed (R77). -/
  lostOwed : Bool := false
  /-- The signalling of each event vector (R79). -/
  vector : List (Nat × Signal) := []
  /-- The function is in D3hot (R51). -/
  d3hot : Bool := false
  linkUp : Bool := false
  epoch : Nat := 0
  /-- AER status registers (R48, R513). -/
  aerCorr : Word := 0
  aerUncorr : Word := 0
  deriving DecidableEq, Repr

/-! ## Hive -/

/-- One ready-list entry (R108), a planner or host job when `anvil` holds. -/
structure Item where
  /-- Context number, or Anvil job slot (R108). -/
  ctx : Nat
  anvil : Bool := false
  prio : Nat
  /-- Bit 7 of byte 2: planner job, or its completion. -/
  planner : Bool := false
  /-- 0 to 63 ring; 0x40 firmware; 0x41 timer. -/
  source : Nat
  seq : Nat
  arg : Nat
  /-- Tick at which the item became ready. -/
  ready : Nat
  spilled : Bool := false
  /-- Its affinity wait has expired (R109). -/
  waited : Bool := false
  /-- The privileged descriptor whose line of items this is (R81). -/
  line : Option Nat := none
  deriving DecidableEq, Repr

/-- One Forager core as the Hive sees it (R102, R103, R120). -/
structure Core where
  item : Option Item := none
  /-- Tick at which the item was dispatched. -/
  start : Nat := 0
  /-- Tick at which the run-limit interrupt was raised (R103). -/
  limitAt : Option Nat := none
  inReset : Bool := false
  epoch : Nat := 0
  /-- mip bits 16 and 17 (R102, R103). -/
  dispatchIrq : Bool := false
  limitIrq : Bool := false
  endHow : Nat := 0
  endStatus : Nat := 0
  wake : Nat := 0
  submit : Nat := 0
  submitStatus : Nat := 0
  timer : Nat := 0
  timerHandle : Nat := 0
  timerStatus : Nat := 0
  ctxset : Nat := 0
  ctxsetStatus : Nat := 0
  /-- A submission that stalls under back-pressure, and the tick of its write (R113): context or planner slot,
  priority, argument, planner flag. -/
  stalled : Option (Nat × Nat × Nat × Bool) := none
  stalledAt : Nat := 0
  deriving DecidableEq, Repr

/-- One timer of the delay lists (R115). -/
structure Timer where
  list : Nat
  ctx : Nat
  arg : Nat
  wake : Nat
  handle : Nat
  line : Option Nat := none
  deriving DecidableEq, Repr

structure Hive where
  items : List Item := []
  seq : Nat := 0
  timers : List Timer := []
  nextHandle : Nat := 1
  core : List (Nat × Core) := []
  epoch : Nat := 0
  /-- Trace records in staging, oldest first (R121). -/
  trace : List (List Byte) := []
  deriving DecidableEq, Repr

/-! ## Time base -/

/-- A capture waiting in its unit's queue: timestamp, level, edges lost before it (R348). -/
structure Capture where
  time : Nat
  rising : Bool
  lost : Nat
  deriving DecidableEq, Repr

structure CapUnit where
  queue : List Capture := []
  lostSince : Nat := 0
  lostReported : Bool := false
  deriving DecidableEq, Repr

/-- A line domain (R350): its offset in 2⁻³² ns and the rate of line time against cell time in 2⁻³² ns per tick, as the
time base tracks them, the offset delivered last in ns, and the ticks of the last delivery and of the start of the
present validity. -/
structure Domain where
  theta : Int := 0
  rate : Int := 0
  last : Int := 0
  delivered : Nat := 0
  since : Nat := 0
  deriving DecidableEq, Repr

/-- A management frame in progress (R354). -/
structure Mdio where
  op : Nat
  cmd : Nat
  endTick : Nat
  deriving DecidableEq, Repr

structure Tim where
  /-- Cell time in units of 2⁻³² ns (R340). -/
  cell : Nat := 0
  /-- The slew σ (R341). -/
  sigma : Int := 0
  /-- Cell nanoseconds of the next common instant, while a cycle runs (R345). -/
  instant : Nat := 0
  /-- Cell nanoseconds of the latest common instant. -/
  lastInstant : Nat := 0
  /-- Cell cycle counter of the current cycle (R10). -/
  cycle : Nat := 0
  /-- The cycle length in force until the next common instant (R345). -/
  cycleNs : Nat := 125000
  domA : Domain := {}
  domB : Domain := {}
  cap : List (Nat × CapUnit) := []
  /-- The tick at which each active time-pulse output ends (R352). -/
  pulse : List (Nat × Option Nat) := []
  /-- Snapshots of seconds and fraction by master identifier (R355). -/
  snapshot : List (Nat × (Nat × Nat)) := []
  /-- ADC wake signals already sent for a unit's present target (R345). -/
  waked : List (Nat × Bool) := []
  mdio : Option Mdio := none
  /-- Timestamp of the PTP event message received last on each port, cell nanoseconds (R349). -/
  ptp : List (Nat × Nat) := []
  /-- Zone and line frames the firmware has taken from the MACs (R353). -/
  ethIn : List (List Byte) := []
  deriving DecidableEq, Repr

/-- Epochs of the blocks that show theirs in no register (R459). -/
structure Epochs where
  tongs : Nat := 0
  swage : Nat := 0
  adc : Nat := 0
  bellows : Nat := 0
  deriving DecidableEq, Repr

/-! ## Waxbook -/

/-- A firing that waits in the queue of 8 (R483), with what its record's header carries (R486). -/
structure Firing where
  trig : Nat
  kind : Nat
  src : Nat
  inst : Nat
  code : Nat
  time : Nat
  mode : Nat
  provisional : Bool
  deriving DecidableEq, Repr

/-- The history of one trigger: it has fired, and the tick of its last firing (R482). -/
structure TrigHist where
  fired : Bool := false
  last : Nat := 0
  deriving DecidableEq, Repr

/-- The record being written (R487): its bytes and the store offset at which it lands. -/
structure WaxRecord where
  bytes : List Byte
  at_ : Nat
  deriving DecidableEq, Repr

structure Wax where
  hist : List (Nat × TrigHist) := []
  queue : List Firing := []
  busy : Option WaxRecord := none
  /-- The on-chip store, offsets 0 to 786,431 (R487). -/
  store : List Host.Cell := []
  /-- A clear waits for the record in progress (R490). -/
  clearWaiting : Bool := false
  /-- The record in progress lost its extension write (R488). -/
  failed : Bool := false
  /-- Offset of the end of the last complete on-chip record (R489). -/
  onChipEnd : Nat := 0
  deriving DecidableEq, Repr

end Sys2Proof.Machine
end

