-- ==== Sys2Proof/Machine/TypesMotion.lean ====
section
/-!
DEFINITION. Machine/TypesMotion.lean: what the chapters "Trajectories, swarms and zones", "Temper control laws" and
"Temper datapath programming" give the machine beside its registers: chains, swarms, zones, planner settings, committed
windows, axis contexts, tuning operations, and the datapath of each engine.
-/

namespace Sys2Proof.Machine

/-- A rational number as a fraction; exact progress along a path. -/
structure Q where
  num : Int := 0
  den : Nat := 1
  deriving DecidableEq, Repr

/-! ## Chains (R157 to R182) -/

/-- A segment: accepted from a MOTION ring and not yet completed. -/
structure Seg where
  desc : Nat
  op : Nat
  bytes : List Byte
  body : List Byte
  /-- A smaller deceleration was deferred in its course (R181). -/
  deferred : Bool := false
  deriving DecidableEq, Repr

/-- A zone request (R183 to R187): its zones, its timestamp, and the zones obtained so far. -/
structure ZoneReq where
  zones : Nat
  time : Nat
  got : Nat := 0
  seq : Nat := 0
  deriving DecidableEq, Repr

/-- What brings a chain to standstill (the causes of source 23), and what follows there. -/
structure Halt where
  cause : Nat
  /-- The status that the segment in progress completes with at standstill, unless it has completed already. -/
  status : Option Nat := some 6
  /-- HOLD, STOP and CANCEL descriptors that complete at standstill. -/
  waiting : List Nat := []
  /-- The segment in progress is discarded (ABORT, R179). -/
  discard : Bool := false
  /-- Every queued segment and the remainder are discarded (CANCEL, R179). -/
  cancel : Bool := false
  deriving DecidableEq, Repr

/-- New scales of a SET_ACCEL that wait for the next planning tick: descriptor, acceleration, deceleration (R181). -/
structure NewScales where
  desc : Nat
  accel : Nat
  decel : Nat
  deriving DecidableEq, Repr

/-- One chain (R157 to R184, R191). -/
structure Chain where
  /-- 0 IDLE, 1 MOVING, 2 WAITING, 3 HOLDING, 4 HELD, 5 STOPPING, 6 BRIDGING. -/
  state : Nat := 0
  cur : Option Seg := none
  queue : List Seg := []
  /-- The kept remainder: segment, remaining fraction, remaining tool-centre length (R176, R178). -/
  kept : Option (Seg × Nat × Nat) := none
  halt : Option Halt := none
  /-- The cause of the last hold (R446). -/
  heldCause : Nat := 0
  /-- HOLD takes effect at the next planning tick (R176). -/
  holdDue : Bool := false
  /-- RESUME descriptors that wait until the chain is HELD (R178). -/
  resumes : List Nat := []
  accel : Nat := 0x8000
  decel : Nat := 0x8000
  scales : List NewScales := []
  /-- A smaller deceleration that waits for the end of the ramp (R181). -/
  later : Option Nat := none
  /-- Cell nanoseconds at which the segment in progress started. -/
  startedAt : Nat := 0
  /-- The zone mask of the segment started last (R183). -/
  pred : Nat := 0
  /-- The chain is held at the hand-over point of the segment in progress, with this cause (R162, R183). -/
  heldNext : Option Nat := none
  tokens : Nat := 0
  /-- Cell nanoseconds of each token's grant, and whether its hold limit has been reported (R187). -/
  grants : List (Nat × (Nat × Bool)) := []
  req : Option ZoneReq := none
  reqSeq : Nat := 0
  warm : Nat := 0xFF
  holdFrac : Nat := 0x4000
  stopFrac : Nat := 0x8000
  budget : Nat := 240
  vmax : Nat := 0
  ramp : Nat := 5000
  deriving DecidableEq, Repr

/-- One swarm (R170, R191). -/
structure Swarm where
  pairs : Nat := 10
  warm : Nat
  mask : Nat := 0
  budget : Nat := 240
  margin : Nat := 102400
  deriving DecidableEq, Repr

/-- An entry of the zone table (R185). -/
structure Zone where
  scope : Nat := 0
  pos : Nat := 0
  cell : Nat := 0
  hold : Nat := 0
  wait : Nat := 0
  seg : Nat := 0
  deriving DecidableEq, Repr

/-- A party that asks for or holds a zone: position, chain, cell (R188). -/
structure Party where
  pos : Nat
  chain : Nat
  cell : Nat
  deriving DecidableEq, Repr

/-- A request that a keeper has received. -/
structure Asked where
  who : Party
  time : Nat
  seq : Nat
  deriving DecidableEq, Repr

/-- The keeper's state of one zone (R186, R189). -/
structure Keeper where
  holder : Option Party := none
  waiting : List Asked := []
  deriving DecidableEq, Repr

/-- A planner setting that waits for its planning tick (R191). -/
structure Setting where
  desc : Nat
  op : Nat
  bytes : List Byte
  body : List Byte
  deriving DecidableEq, Repr

/-- A planner job that has been submitted: its chains and its switch instant (R168). -/
structure PlanJob where
  chains : List Nat
  switch : Nat
  deriving DecidableEq, Repr

structure Planner where
  chain : List (Nat × Chain) := []
  swarm : List (Nat × Swarm) := []
  /-- Planning tick in cell cycles, commit window in planning ticks, knots K (R167). -/
  tickCycles : Nat := 8
  windowTicks : Nat := 4
  knots : Nat := 64
  /-- Warm slots of the automatic solo chains (R191). -/
  autoWarm : List (Nat × Nat) := []
  settings : List Setting := []
  zone : List (Nat × Zone) := []
  keeper : List (Nat × Keeper) := []
  /-- The keepers have restarted and rebuild their holder lists (R190). -/
  restarting : Bool := true
  job : List (Nat × Option PlanJob) := []
  /-- Zones given up whose keeper has not yet shown them free: zone, chain (R189). -/
  releasing : List (Nat × Nat) := []
  /-- Zone messages that this device sends, oldest first (R188). -/
  out : List (List Byte) := []
  deriving DecidableEq, Repr

/-! ## Temper (R192 to R225) -/

/-- A window buffer that is committed (R206, R207).  A ramp window has jerk `s1` and deceleration limit `v1`. -/
structure Window where
  t0 : Nat
  len : Nat
  ramp : Bool
  s0 : Q
  v0 : Q
  a0 : Q
  s1 : Q
  v1 : Q
  a1 : Q
  ready : Bool
  deriving DecidableEq, Repr

/-- The windows and path table of a chain on an engine (R205, R208). -/
structure ChainWin where
  active : Option Window := none
  pending : Option Window := none
  /-- A window that the Forager has prepared: address of its buffer and its first 24 bytes (R206). -/
  prep : Option (Nat × List Byte) := none
  /-- The pieces written, oldest first, at most 32 (R208). -/
  pieces : List (List Byte) := []
  exhausted : Bool := false
  /-- The SENTINEL ramp: its jerk and its deceleration limit (R450). -/
  sentinel : Option (Q × Q) := none
  deriving DecidableEq, Repr

/-- The dynamic state of an axis slot (R196 to R199, R205). -/
structure Slot where
  origin : Int := 0
  pos : Int := 0
  vel : Int := 0
  acc : Int := 0
  /-- Position held by source 1, and the reference of the gear master at engagement (R205). -/
  held : Int := 0
  /-- u of the last cycle as the drive has it, and the set-point computed last (R199). -/
  uPrev : Int := 0
  u : Int := 0
  /-- The set-point that the last frame carried. -/
  sent : Int := 0
  /-- The mirrored u that a standby has applied since the last common instant (R430). -/
  mirrored : Option Int := none
  /-- Measured position and velocity of the last cycle. -/
  mpos : Int := 0
  mvel : Int := 0
  cur : Int := 0
  fe : Int := 0
  inj : Int := 0
  /-- Velocity or gear source ramps to standstill after a following error (R213). -/
  halted : Bool := false
  deriving DecidableEq, Repr

/-- A set-point that a program has computed and that is not yet in its fill buffer (R313). -/
structure SetPoint where
  index : Nat
  value : Nat
  deriving DecidableEq, Repr

/-- An accepted INJECT or CAPTURE (R217 to R220). -/
structure Tune where
  desc : Nat
  inject : Bool
  bytes : List Byte
  body : List Byte
  engine : Nat
  slot : Nat
  set : Option Nat
  start : Nat
  started : Bool := false
  elapsed : Nat := 0
  /-- The status of its recorded ending, which waits for the capture to land. -/
  ending : Option Nat := none
  deriving DecidableEq, Repr

/-- A capture set (R218, R221). -/
structure CapSet where
  channels : List (Nat × Nat) := []
  samples : Nat := 0
  addr : Nat := 0
  engine : Nat := 0
  running : Bool := false
  /-- Rows in staging, oldest first; rows taken and landed. -/
  staging : List (List Byte) := []
  taken : Nat := 0
  landed : Nat := 0
  firstCycle : Nat := 0
  firstNs : Nat := 0
  /-- Reference positions at capture start, by channel. -/
  base : List Int := []
  done : Bool := false
  overrun : Bool := false
  deriving DecidableEq, Repr

/-- An accepted FRA (R222). -/
structure Fra where
  desc : Nat
  bytes : List Byte
  engine : Nat
  started : Bool := false
  deriving DecidableEq, Repr

/-! ## The datapath (R226 to R249) -/

/-- What lands in a register or in memory a fixed number of bundles after issue (R241). -/
inductive Land where
  | data (reg : Nat) (v : Word)
  | addr (k v : Nat)
  | modif (k v : Nat)
  | acc (k : Nat) (v : BitVec 80)
  | accPart (k part : Nat) (v : Word)
  | ctl (num : Nat) (v : Nat)
  | zn (z n : Bool)
  | mem (a : Nat) (bytes : List Byte)
  deriving DecidableEq, Repr

/-- What follows the two delay slots of a control transfer (R239). -/
inductive Goal where
  | bundle (b : Nat) (hookEnd : Bool)
  | finish
  | resume
  deriving DecidableEq, Repr

/-- The registers and sequencing of an engine's datapath (R228). -/
structure Dp where
  d : List (Nat × Word) := []
  a : List (Nat × Nat) := []
  m : List (Nat × Nat) := []
  acc0 : BitVec 80 := 0
  acc1 : BitVec 80 := 0
  /-- The accumulators after every operation issued, landed or not (R241). -/
  acc0i : BitVec 80 := 0
  acc1i : BitVec 80 := 0
  lc0 : Nat := 0
  lc1 : Nat := 0
  ls0 : Nat := 0
  le0 : Nat := 0
  ls1 : Nat := 0
  le1 : Nat := 0
  rrb : Nat := 0
  z : Bool := false
  n : Bool := false
  act0 : Bool := false
  act1 : Bool := false
  link : Nat := 0
  bpc : Nat := 0
  /-- The bundle that issues, and the count of issued bundles. -/
  pc : Nat := 0
  clock : Nat := 0
  /-- Results in flight, in issue order: the clock at which each lands. -/
  flight : List (Nat × Land) := []
  /-- Delay slots left before a transfer, and its goal. -/
  goal : Option (Nat × Goal) := none
  atom : Nat := 0
  /-- A LOOP whose body has not started: its level. -/
  entering : Option Nat := none
  /-- Clocks of the last accumulator operation on each accumulator and of the last LSET of each level. -/
  accAt0 : Option Nat := none
  accAt1 : Option Nat := none
  lset0 : Option Nat := none
  lset1 : Option Nat := none
  /-- 0 idle, 1 cycle program, 2 background program. -/
  run : Nat := 0
  inHook : Bool := false
  deriving DecidableEq, Repr

/-- One engine beside its registers and SRAM. -/
structure Engine where
  slot : List (Nat × Slot) := []
  win : List (Nat × ChainWin) := []
  /-- Observer states of a slot's law: a coupled law's on slot 0 (R196). -/
  xhat : List (Nat × List Int) := []
  /-- Law images by slot: the two pages (R193, R204). -/
  page0 : List (Nat × List Byte) := []
  page1 : List (Nat × List Byte) := []
  /-- A law is staged since the last page switch. -/
  staged : Bool := false
  /-- The next common instant initialises the engine (R198). -/
  init : Bool := false
  /-- Consecutive overruns (R215). -/
  ovr : Nat := 0
  /-- Set-points of the last program, and the cell nanoseconds at which it ends. -/
  out : List SetPoint := []
  endAt : Nat := 0
  /-- The run time of the program in FAB clocks; its overrun has been counted. -/
  ran : Nat := 0
  late : Bool := false
  dp : Dp := {}
  saved : Option Dp := none
  /-- Owner code area: bundles from 2,048 on (R227, R246). -/
  code : List Nat := []
  bgEntry : Nat := 0xFFFF
  tHook : Nat := 0
  /-- A compare unit has started the engine, whose mask names no segment (R345). -/
  kick : Bool := false
  deriving DecidableEq, Repr

structure Temper where
  eng : List (Nat × Engine) := []
  capset : List (Nat × CapSet) := []
  tune : List Tune := []
  fra : List Fra := []
  /-- The engines that entry into STAGE disabled (R447). -/
  wasOn : List Nat := []
  deriving DecidableEq, Repr

end Sys2Proof.Machine
end

