-- ==== Sys2Proof/Machine/TypesQuench.lean ====
section
/-!
DEFINITION. Machine/TypesQuench.lean: what the chapters "Quench safety island" and "Separation monitoring, stops and
brakes" give the machine beside its registers.  Ticks are device ticks of 2.5 ns, "cell" times are cell nanoseconds.
-/

namespace Sys2Proof.Machine

/-- The filter of one safety input (R364): its filtered level, and the samples in a row that showed the other level. -/
structure QInput where
  level : Bool := false
  streak : Nat := 0
  deriving DecidableEq, Repr

/-- An input pair (R366, R367): both channels have been seen not active since its value last left 1; one alone has gone
inactive; the discrepancy count; the tick at which its value became 1. -/
structure QPair where
  seen : Bool := false
  gone : Bool := false
  count : Nat := 0
  since : Nat := 0
  deriving DecidableEq, Repr

/-- A pair of switches (R370): the ticks at which each readback last agreed with its switch or the switch changed. -/
structure QSwitch where
  agreeA : Nat := 0
  agreeB : Nat := 0
  deriving DecidableEq, Repr

/-- A connection (R373 to R375): the data and FS of the last new PDU, the cell time of its deposit, the deposit examined
last, the cell time of the last check value failure, and the new PDUs in a row. -/
structure QConn where
  data : List Byte := []
  fs : Bool := false
  at_ : Nat := 0
  taken : Option Nat := none
  crcAt : Option Nat := none
  news : Nat := 0
  deriving DecidableEq, Repr

/-- The position sources of an axis record (R384), in 2⁻⁵⁶ joint units, and the ticks that each has been missing. -/
structure QAxis where
  a : Int := 0
  b : Int := 0
  missA : Nat := 0
  missB : Nat := 0
  deriving DecidableEq, Repr

/-- A chain of the parameter set (R384 to R398). -/
structure QChain where
  axes : List (Nat × QAxis) := []
  /-- The latest set of joint positions, and its sample instant. -/
  pos : List Int := []
  posAt : Option Nat := none
  /-- v_c, L_c, A_c without stops and brakes, and A_c, in 1/4,096 mm/s. -/
  v : Nat := 0
  limit : Nat := 0
  free : Nat := 0
  allow : Nat := 0
  /-- The least distance in 1/4,096 mm with its capsule and object. -/
  least : Option (Int × Nat × Nat) := none
  /-- The causes in force (R394). -/
  causes : List Nat := [14]
  /-- The tick t0 and the speed v0 of the stop in progress, and the ticks in a row at standstill (R397). -/
  t0 : Nat := 0
  v0 : Nat := 0
  still : Nat := 0
  /-- The joint positions recorded at the entry into SOS (R398). -/
  sos : List Int := []
  /-- The tick from which the speed has been at or below standstill (R403). -/
  slow : Option Nat := none
  /-- The tick from which the free allowance has been above 0 (R394). -/
  clear : Option Nat := none
  /-- Ticks since STO was sent, and its drive's disagreement, which holds until a reset (R396). -/
  stoTicks : Nat := 0
  stoHold : Bool := false
  deriving DecidableEq, Repr

/-- A brake channel (R401, R402, R405): its switches, the tick of its last change, the tick of its last passed test. -/
structure QBrake where
  sw : QSwitch := {}
  since : Nat := 0
  passed : Nat := 0
  /-- Overdue by 1.5 intervals. -/
  overdue : Bool := false
  deriving DecidableEq, Repr

/-- The brake test in progress (R403, R404).  Phases: 0 engaging, 1 torque ramp, 2 holding, 3 ramp back, 4 releasing. -/
structure QTest where
  desc : Nat
  brake : Nat
  dir : Nat
  /-- The negative half runs. -/
  second : Bool := false
  phase : Nat := 0
  /-- The tick at which the phase began. -/
  at_ : Nat := 0
  p0 : Int := 0
  most : Nat := 0
  lowest : Option Nat := none
  /-- The tick at which the measured torque reached 90 % of T_test. -/
  reached : Option Nat := none
  res : Nat := 0
  aborted : Bool := false
  deriving DecidableEq, Repr

/-- The test torque that an engine applies to an axis (R404): a ramp of 50 ms from tick `at_`, between `start` and T_test,
or back to the law. -/
structure QTorque where
  axis : Nat
  at_ : Nat
  start : Int
  target : Int
  back : Bool
  deriving DecidableEq, Repr

/-- A KINDLE axis in Quench and Temper (R455, R456): the last position with its sample instant; torque was permitted when
the engine ran last. -/
structure QKindle where
  pos : Int := 0
  posAt : Option Nat := none
  torque : Bool := false
  /-- GLB_KDL_CFGa as the last common instant took it (R463). -/
  cfg : Word := 0x100000
  deriving DecidableEq, Repr

structure Quench where
  /-- The parameter set in force, its raw bytes (R377); empty for none. -/
  set : List Byte := []
  /-- Tongs records in the input buffer, by channel (R267). -/
  tongs : List (Nat × List Byte) := []
  /-- The SAF clock has stopped (R359). -/
  safStopped : Bool := false
  /-- Held in reset: before its release at boot, and while a rail is out of range (R363). -/
  held : Bool := true
  /-- A Quench rail is out of range (R498). -/
  railOut : Bool := false
  /-- The self-tests have passed (R362). -/
  tested : Bool := false
  /-- The parameter area of flash (R378, R379): the set marked current, and the value of its confirmation record. -/
  stored : List Byte := []
  record : Option Nat := none
  /-- A set that takes effect at the next tick, and a typed-back value that is compared there. -/
  nextSet : Option (List Byte) := none
  typed : Option Nat := none
  /-- The tick of the last safety tick, and of the last sample of the inputs. -/
  tickAt : Nat := 0
  sampleAt : Nat := 0
  input : List (Nat × QInput) := []
  pair : List (Nat × QPair) := []
  output : List (Nat × QSwitch) := []
  conn : List (Nat × QConn) := []
  chain : List (Nat × QChain) := []
  brake : List (Nat × QBrake) := []
  /-- The tick until which the samples of each test source are left out (R364). -/
  pulse : List (Nat × Nat) := []
  /-- Input connections of lost sensors (R389). -/
  lost : List Nat := []
  test : Option QTest := none
  torque : Option QTorque := none
  kindle : List (Nat × QKindle) := []
  /-- The allowance table (R393): its two copies of 16 entries, and the header word. -/
  table0 : List Byte := []
  table1 : List Byte := []
  header : Nat := 0
  deriving DecidableEq, Repr

end Sys2Proof.Machine
end

