-- ==== Sys2Proof/Machine/TypesTongs.lean ====
section
/-!
DEFINITION. Machine/TypesTongs.lean: what the chapters "Tongs feedback interface" and "Swage profiles and microstep
output" give each channel, probe and link beside its registers.
-/

namespace Sys2Proof.Machine

/-! ## Tongs (R251 to R274) -/

/-- One Tongs channel. -/
structure TngCh where
  /-- The extended count: 48 bits (R252). -/
  ext : Nat := 0
  /-- Filtered levels: A, B and Z as bits 0 to 2, or U, V and W as bits 2 to 0 (R253, R260). -/
  levels : BitVec 3 := 0
  /-- Timestamps of the accepted edges since the last reversal, newest first, as far as R263 looks back. -/
  edges : List Nat := []
  /-- The last edge counted upwards. -/
  up : Bool := false
  /-- The status flags of R266. -/
  standstill : Bool := false
  reversal : Bool := false
  illegal : Bool := false
  wire : Bool := false
  mismatch : Bool := false
  referenced : Bool := false
  stale : Bool := false
  index : Bool := false
  ssiErr : Bool := false
  hallIllegal : Bool := false
  /-- An index correction: its tick, the timestamp of its index event, and ext before it (R259). -/
  corr : Option (Nat × Nat × Nat) := none
  /-- SSI: the frame in progress (its sample instant and the tick at which it ends), the sample instant of the latest
  frame, the tick at which the monoflop wait ends, the previous field value, consecutive rejected frames, sample instants
  and positions of the last two accepted frames (newest first), and the velocity before there are two. -/
  frame : Option (Nat × Nat) := none
  framed : Option Nat := none
  monoEnd : Nat := 0
  prev : Option Nat := none
  rejects : Nat := 0
  frames : List (Nat × Int) := []
  early : Int := 0
  deriving DecidableEq, Repr

structure Tongs where
  ch : List (Nat × TngCh) := []
  /-- Selected edges seen by each probe, modulo 256 (R270). -/
  count : List (Nat × Nat) := []
  deriving DecidableEq, Repr

/-! ## Swage (R275 to R291) -/

/-- Homing (R288): travelling, settling, backing off. -/
inductive HomePhase where
  | travel | settle | backoff
  deriving DecidableEq, Repr

/-- A motion of a channel: its descriptor until it completes, its kind, and its target in index units. -/
structure SwgMove where
  desc : Option Nat := none
  /-- 0 absolute, 1 relative, 2 velocity. -/
  mode : Nat := 0
  negative : Bool := false
  jerkLimited : Bool := false
  speed : Nat := 0
  target : Int := 0
  /-- ACCEL_DEFERRED accompanies its completion (R289). -/
  deferred : Bool := false
  home : Option HomePhase := none
  current : Nat := 0
  backoff : Nat := 0
  reference : Int := 0
  settleMs : Nat := 0
  deriving DecidableEq, Repr

/-- A stop ramp (R285, R286): the status that the move ends with, and whether its remainder is kept. -/
structure SwgHalt where
  status : Nat
  keep : Bool
  /-- The ramp has begun, at this deceleration. -/
  begun : Option Nat := none
  deriving DecidableEq, Repr

/-- One debounced limit input (R290): last raw level, consecutive messages with a level, toggles. -/
structure LimIn where
  raw : Option Bool := none
  run : Nat := 0
  toggles : List Nat := []
  deriving DecidableEq, Repr

structure SwgCh where
  /-- Commanded position in 2⁻³² index units, velocity of the tick in 2⁻³² index units/s (R280). -/
  pos : Int := 0
  vel : Int := 0
  /-- Change of velocity in the last tick, in the same unit. -/
  dv : Int := 0
  /-- Link cycles left in the profile tick; the last tick of the move. -/
  left : Nat := 0
  landing : Bool := false
  move : Option SwgMove := none
  kept : Option SwgMove := none
  halt : Option SwgHalt := none
  accel : Nat := 25600000
  decel : Nat := 25600000
  jerk : Nat := 0
  newAccel : Option Nat := none
  newDecel : Option Nat := none
  newJerk : Option Nat := none
  /-- SWG_SET_ACCEL descriptors that wait for their profile tick, and SWG_STOP descriptors that wait for standstill. -/
  setting : List Nat := []
  stops : List Nat := []
  current : Nat := 0
  /-- Tick since which the channel stands still. -/
  stood : Nat := 0
  /-- Address on the link less the position (R288), 2⁻³² index units. -/
  shift : Int := 0
  seq : Nat := 0
  /-- The latest command message. -/
  sent : List Byte := []
  negStep : Bool := false
  missing : Nat := 0
  limPos : LimIn := {}
  limNeg : LimIn := {}
  deriving DecidableEq, Repr

structure Swage where
  ch : List (Nat × SwgCh) := []
  /-- Links whose four channels are all missing. -/
  down : Nat := 0
  deriving DecidableEq, Repr

end Sys2Proof.Machine
end

