-- ==== Sys2Proof/Machine/TypesUpd.lean ====
section
/-!
DEFINITION. Machine/TypesUpd.lean: what the chapter "Firmware images, update and settings" gives the machine beside
its registers: the OTP fuses, the two flash chip selects with their slot records, and the staging in progress.
-/

namespace Sys2Proof.Machine

/-- OTP (R2, R95, R474, R475).  Fused values are changed by no reset (R458). -/
structure Otp where
  /-- The owner fuse. -/
  owner : Bool := false
  /-- The owner public key, 32 bytes. -/
  ownerKey : List Byte := []
  /-- Fused rollback count, 0 to 64. -/
  rollback : Nat := 0
  /-- Bit k: Grainawick key k revoked. -/
  revoked : Nat := 0
  deriving DecidableEq, Repr

/-- The slot record of an image slot (R465). -/
structure SlotRec where
  /-- 0 EMPTY, 1 STAGED, 2 TRIAL, 3 CONFIRMED, 4 BACKUP, 5 REJECTED. -/
  state : Nat := 0
  trials : Nat := 0
  reject : Nat := 0
  /-- Refusal reason of a migration (R477). -/
  reason : Nat := 0
  deriving DecidableEq, Repr

/-- The record header of a settings slot (R476). -/
structure SettingsRec where
  valid : Bool := false
  format : Nat := 0
  generation : Nat := 0
  /-- Image version that wrote it, and the length of the content. -/
  version : Nat := 0
  length : Nat := 0
  deriving DecidableEq, Repr

/-- What a flash program in progress does when it ends (R468, R378, R379, R476). -/
inductive FlashJob where
  /-- STAGE_WRITE: descriptor (none for the Ethernet service), offset in the ingot, bytes. -/
  | stage (desc : Option Nat) (off : Nat) (bytes : List Byte)
  /-- SPS_LOAD: descriptor, the set. -/
  | sps (desc : Nat) (set : List Byte)
  /-- The confirmation record of the parameter set: the check value. -/
  | confirm (crc : Nat)
  /-- SETTINGS_SAVE: descriptor, settings slot, content. -/
  | settings (desc : Nat) (slot : Nat) (content : List Byte)
  deriving DecidableEq, Repr

structure Upd where
  /-- Flash of the two chip selects, byte by byte (R464). -/
  flash0 : List Host.Cell := []
  flash1 : List Host.Cell := []
  slot0 : SlotRec := {}
  slot1 : SlotRec := {}
  set0 : SettingsRec := {}
  set1 : SettingsRec := {}
  /-- Length L of the ingot being staged (R468). -/
  length : Nat := 0
  /-- Bytes written of it. -/
  written : Nat := 0
  /-- Tick of the lock's taking or of the last completed STAGE_WRITE (R470). -/
  lockTick : Nat := 0
  jobs : List FlashJob := []
  /-- The settings slot that the running image has migrated into (R476, R477). -/
  migrated : Option Nat := none
  /-- The running image is the one of this slot. -/
  running : Nat := 0
  /-- How far the boot has come (R462): 0 in reset, 1 Farrier ROM, 2 PLLs locked, 3 OTP read, 4 image verified, 5 DDR
  trained, 6 Foragers started, 7 settings read, 8 end of boot or KINDLE entered. -/
  boot : Nat := 0
  /-- The cause of the KINDLE path (R463), 0 on the normal path. -/
  kindle : Nat := 0
  /-- Farrier has reset the device because DDR training failed (R462). -/
  ddrFailed : Bool := false
  deriving DecidableEq, Repr

/-- The supply and thermal monitors (R498, R502). -/
structure Clk where
  /-- Held in reset since a reading of 125 °C until every sensor reads below 100 °C. -/
  hot : Bool := false
  /-- The thermal warning stands; the critical level has been passed since the last device reset. -/
  warned : Bool := false
  critical : Bool := false
  /-- A reading since the last read of CLK_TEMP.peak. -/
  peaked : Bool := false
  /-- Rails other than Quench's that are beyond their reset limits: the device is held in reset. -/
  railHeld : Nat := 0
  /-- By rail: samples in a row outside each limit: −5 %, +5 %, and the reset or Quench limit (R498). -/
  streak : List (Nat × (Nat × Nat × Nat)) := []
  deriving DecidableEq, Repr

end Sys2Proof.Machine
end

