-- ==== Sys2Proof/Machine/State.lean ====
section
/-!
DEFINITION. Machine/State.lean: the state of the device as plain data, its value after a power-on reset, and the
reasons a command can stop.
-/

namespace Sys2Proof.Machine

/-- The reasons a command stops with a fault.  No command of the table does: where the manual describes what
the hardware does, the meaning does it. -/
inductive Fault where
  /-- No command raises it: the type is closed over the stops that the manual gives, and it gives none (safe). -/
  | none
  deriving DecidableEq, Repr

/-- The reasons a command is refused. -/
inductive Refusal where
  /-- A command whose meaning has not been written; the dispatcher raises it (safe). -/
  | notModelled (mnemonic : String)
  deriving DecidableEq, Repr

/-- The whole device.  `regs` holds every BAR0 register by its offset; a register that is not listed holds its reset
value (`resetWord`).  The other fields hold what the chapters give each block beside its registers. -/
structure State where
  /-- The commands that wait, first in, first out. -/
  pending : List Instr := []
  /-- Ticks of 2.5 ns of main reference time since the power-on reset (R27, R340). -/
  tick : Nat := 0
  /-- BAR0 registers, the active copies (R13, R86). -/
  regs : List (Nat × Word) := []
  glb : Glb := {}
  hif : Hif := {}
  hive : Hive := {}
  anvil : Anvil := {}
  plan : Planner := {}
  temper : Temper := {}
  combway : Combway := {}
  quench : Quench := {}
  tongs : Tongs := {}
  swage : Swage := {}
  adc : Adc := {}
  bellows : Bellows := {}
  /-- Temper SRAM of each engine: its data banks by byte address (R226). -/
  sram : List (Nat × List Host.Cell) := []
  otp : Otp := {}
  upd : Upd := {}
  tim : Tim := {}
  wax : Wax := {}
  clk : Clk := {}
  epochs : Epochs := {}
  /-- Host memory as Oluend writes it (R62). -/
  hostMem : List Host.Cell := []
  /-- DDR (R32). -/
  ddr : List Host.Cell := []
  /-- The value that the latest read answered (the model's own field, log entry 4). -/
  rdata : Word := 0
  /-- How many free values have been drawn (the model's own field, log entry 5). -/
  free : Nat := 0
  deriving DecidableEq, Repr

/-- The device right after a power-on reset (R457, R458): every register at its reset value (`resetWord`), every other field at its
default, nothing waiting. -/
def State.reset : State := {}

end Sys2Proof.Machine
end

