-- ==== Sys2Proof/Machine/Ops.lean ====
section
/-!
DEFINITION. Machine/Ops.lean: the named operations the commands share: sparse tables, byte memories, registers, time,
free values, events (R76, R77) and the Waxbook triggers they fire (R482), completions (R59 to R62, R71), mailboxes
(R93), and the wr_ignored report (R85).
-/

namespace Sys2Proof.Machine

/-! ## Sparse tables -/

/-- The entry of key `k`; a key that is not listed holds `d k`. -/
def lookup {α : Type} (d : Nat → α) : List (Nat × α) → Nat → α
  | [], k => d k
  | (a, v) :: m, k => if k < a then d k else if k = a then v else lookup d m k

/-- The table with entry `v` at key `k`, in canonical form: keys rising, no entry equal to what an unlisted key holds. -/
def store {α : Type} [DecidableEq α] (d : Nat → α) : List (Nat × α) → Nat → α → List (Nat × α)
  | [], k, v => if v = d k then [] else [(k, v)]
  | (a, w) :: m, k, v =>
    if k < a then (if v = d k then (a, w) :: m else (k, v) :: (a, w) :: m)
    else if k = a then (if v = d k then m.dropWhile (fun p => decide (p.1 ≤ a)) else (a, v) :: m)
    else (a, w) :: store d m k v

/-- A table is canonical: keys rise strictly from above `lo`, and no entry is the default. -/
def canonicalFrom {α : Type} [DecidableEq α] (d : Nat → α) : Nat → List (Nat × α) → Bool
  | _, [] => true
  | lo, (a, v) :: m => decide (lo ≤ a) && decide (v ≠ d a) && canonicalFrom d (a + 1) m

/-- The canonical form of a sparse table. -/
def canonical {α : Type} [DecidableEq α] (d : Nat → α) (m : List (Nat × α)) : Bool := canonicalFrom d 0 m

/-! ## Byte memories -/

/-- What a byte of memory that is not listed reads as: zero (log entry 3). -/
def blank (_ : Nat) : Byte := 0

/-- One byte of a memory. -/
def readByte (m : List Host.Cell) (a : Nat) : Byte := lookup blank m a

/-- A memory with one byte written. -/
def writeByte (m : List Host.Cell) (a : Nat) (b : Byte) : List Host.Cell := store blank m a b

/-- The canonical form of a byte memory. -/
def Memory.wf (m : List Host.Cell) : Bool := canonical blank m

/-- `n` bytes from address `a` on. -/
def readBytes (m : List Host.Cell) (a : Nat) : Nat → List Byte
  | 0 => []
  | n + 1 => readByte m a :: readBytes m (a + 1) n

/-- A memory with a run of bytes written from address `a` on. -/
def writeBytes (m : List Host.Cell) (a : Nat) : List Byte → List Host.Cell
  | [] => m
  | b :: bs => writeBytes (writeByte m a b) (a + 1) bs

/-- The Temper SRAM of engine `n`: its data banks by byte address (R226). -/
def State.sramOf (s : State) (n : Nat) : List Host.Cell := lookup (fun _ => []) s.sram n

def State.setSram (s : State) (n : Nat) (m : List Host.Cell) : State :=
  { s with sram := store (fun _ => []) s.sram n m }

/-! ## Bits and bytes (R7) -/

/-- The `n` bits of a word from bit `lo` up. -/
def getBits (w : Word) (lo n : Nat) : Nat := (w.toNat >>> lo) % 2 ^ n

/-- A word with the `n` bits from bit `lo` up replaced by the low `n` bits of `v`. -/
def setBits (w : Word) (lo n v : Nat) : Word :=
  (w &&& ~~~(BitVec.ofNat 32 ((2 ^ n - 1) <<< lo))) ||| BitVec.ofNat 32 ((v % 2 ^ n) <<< lo)

/-- `n` bits of a natural number from bit `lo` up. -/
def bitsOf (x lo n : Nat) : Nat := (x >>> lo) % 2 ^ n

/-- One bit of a natural number. -/
def bitAt (x i : Nat) : Bool := x.testBit i

def b2n (b : Bool) : Nat := if b then 1 else 0

/-- A natural number with one bit set or cleared. -/
def putBit (x i : Nat) (v : Bool) : Nat :=
  if v then x ||| 2 ^ i else if x.testBit i then x - 2 ^ i else x

/-- The little-endian value of a run of bytes (R7). -/
def le : List Byte → Nat
  | [] => 0
  | b :: bs => b.toNat + 256 * le bs

/-- The `n` little-endian bytes of a value (R7). -/
def toBytes : Nat → Nat → List Byte
  | 0, _ => []
  | n + 1, v => BitVec.ofNat 8 v :: toBytes n (v / 256)

/-- Byte `i` of a run; zero past its end. -/
def byteAt (l : List Byte) (i : Nat) : Nat := (l.getD i 0).toNat

/-- The `n`-byte little-endian field at byte `i` of a run. -/
def field (l : List Byte) (i n : Nat) : Nat := le ((l.drop i).take n)

/-- The same field as a two's complement integer. -/
def fieldS (l : List Byte) (i n : Nat) : Int := sgn (8 * n) (field l i n)

/-- Whether every byte of the range is zero (R8). -/
def zeroBytes (l : List Byte) (i n : Nat) : Bool := field l i n == 0

/-- A run of bytes with the field at byte `i` replaced. -/
def putBytes (l : List Byte) (i : Nat) (bs : List Byte) : List Byte :=
  l.take i ++ bs ++ l.drop (i + bs.length)

/-- Bytes 24 to 31 of an event record from (byte offset − 24, value) pairs (R76). -/
def detail (l : List (Nat × Nat)) : DWord :=
  BitVec.ofNat 64 (l.foldl (fun a p => a + p.2 * 256 ^ p.1) 0)

/-- The 32-bit two's complement image of a signed value, for event detail and results. -/
def i32 (x : Int) : Nat := uns 32 x

/-! ## Registers -/

/-- The bitwise majority of three copies (R89). -/
def majority (a b c : Word) : Word := (a &&& b) ||| (a &&& c) ||| (b &&& c)

/-- The second and third copies of a register whose three copies disagree. -/
def State.copies (s : State) (off : Nat) : Option (Word × Word × Bool) := lookup (fun _ => none) s.glb.t3copies off

/-- The register word at a BAR0 offset (active copy), voted where its copies disagree (R89). -/
def State.word (s : State) (off : Nat) : Word :=
  match s.copies off with
  | none => lookup resetWord s.regs off
  | some (b, c, _) => majority (lookup resetWord s.regs off) b c

/-- A register word replaced, in all its copies (R89). -/
def State.setWord (s : State) (off : Nat) (w : Word) : State :=
  { s with regs := store resetWord s.regs off w,
           glb := { s.glb with t3copies := store (fun _ => none) s.glb.t3copies off none } }

/-- A field of instance (i, j). -/
def State.rd (s : State) (f : Fld) (i : Nat := 0) (j : Nat := 0) : Nat :=
  getBits (s.word (f.addr i j)) f.lo f.width

/-- A field as a flag. -/
def State.on (s : State) (f : Fld) (i : Nat := 0) (j : Nat := 0) : Bool := s.rd f i j != 0

/-- A field as a two's complement integer. -/
def State.rdS (s : State) (f : Fld) (i : Nat := 0) (j : Nat := 0) : Int := sgn f.width (s.rd f i j)

/-- A field of instance (i, j) replaced; the other bits of its register stay. -/
def State.wr (s : State) (f : Fld) (v : Nat) (i : Nat := 0) (j : Nat := 0) : State :=
  s.setWord (f.addr i j) (setBits (s.word (f.addr i j)) f.lo f.width v)

/-- A flag written. -/
def State.put (s : State) (f : Fld) (b : Bool) (i : Nat := 0) (j : Nat := 0) : State := s.wr f (b2n b) i j

/-- A signed value written. -/
def State.wrS (s : State) (f : Fld) (v : Int) (i : Nat := 0) (j : Nat := 0) : State :=
  s.wr f (uns f.width v) i j

/-- A saturating counter field advanced by `n` (R84). -/
def State.bump (s : State) (f : Fld) (i : Nat := 0) (j : Nat := 0) (n : Nat := 1) : State :=
  s.wr f (min (2 ^ f.width - 1) (s.rd f i j + n)) i j

/-- One bit of a field set or cleared. -/
def State.wrBit (s : State) (f : Fld) (b : Nat) (v : Bool) (i : Nat := 0) (j : Nat := 0) : State :=
  s.wr f (putBit (s.rd f i j) b v) i j

/-- A 64-bit register pair. -/
def State.rd64 (s : State) (lo hi : Fld) (i : Nat := 0) : Nat :=
  (s.rd lo i) * 2 ^ lo.lo + s.rd hi i * 2 ^ 32

/-- A 64-bit value written to a register pair. -/
def State.wr64 (s : State) (lo hi : Fld) (v : Nat) (i : Nat := 0) : State :=
  (s.wr lo (v % 2 ^ 32 / 2 ^ lo.lo) i).wr hi (v / 2 ^ 32 % 2 ^ 32) i

/-! ## Time (R11, R340) -/

/-- Ticks of 2.5 ns in a microsecond, a millisecond and a second of main reference time. -/
def us (n : Nat) : Nat := 400 * n
def ms (n : Nat) : Nat := 400000 * n
def sec (n : Nat) : Nat := 400000000 * n

/-- Ticks that cover `n` FAB clocks of 1 ns (R27). -/
def fab (n : Nat) : Nat := (2 * n + 4) / 5

/-- FAB clocks that `n` ticks last. -/
def fabOf (n : Nat) : Nat := 5 * n / 2

/-- The addend: 2.5 ns + ρ + σ in units of 2⁻³² ns (R341). -/
def State.addend (s : State) : Nat :=
  (10737418240 + s.rdS F.TIM_RATE_rho + s.tim.sigma).toNat

/-- Cell time wraps at 2⁴⁸ seconds (R340). -/
def cellWrap : Nat := 2 ^ 48 * 1000000000 * 2 ^ 32

/-- `n` CMB ticks pass (R340). -/
def State.ticks (s : State) (n : Nat) : State :=
  { s with tick := s.tick + n, tim := { s.tim with cell := (s.tim.cell + n * s.addend) % cellWrap } }

/-- Time passes at least to tick `t`: the coming of a timed event (log entry 2). -/
def State.advanceTo (s : State) (t : Nat) : State := s.ticks (t - s.tick)

/-- Cell nanoseconds: (seconds × 1,000,000,000 + nanoseconds) modulo 2⁶⁴ (R340). -/
def State.cellNs (s : State) : Nat := s.tim.cell / 2 ^ 32 % 2 ^ 64

/-- The signed 64-bit difference of two cell times (R346). -/
def cellDiff (a b : Nat) : Int := sgn 64 (uns 64 ((a : Int) - (b : Int)))

/-- Time passes at least to the first tick at which cell nanoseconds have reached `t` (R346). -/
def State.advanceCell (s : State) (t : Nat) : State :=
  let d := cellDiff t s.cellNs
  if d ≤ 0 ∨ s.addend = 0 then s
  else s.ticks ((d.toNat * 2 ^ 32 - s.tim.cell % 2 ^ 32 + s.addend - 1) / s.addend)

/-! ## Free values (log entry 5) -/

/-- The next free 32-bit value. -/
def State.freshWord (s : State) : Word := Config.freeWord s.free

/-- The next free 64-bit value. -/
def State.freshDWord (s : State) : DWord := Config.freeDWord s.free

/-- A free value has been drawn. -/
def State.drawn (s : State) : State := { s with free := s.free + 1 }

/-! ## Masters and privilege (R81) -/

/-- The master identifier of R81. -/
def masterId : Master → Nat
  | .host => 0
  | .forager _ => 1
  | .farrier => 2
  | .quench => 3
  | .debug => 4
  | .engine => 5

/-- A key for what a register read latches for its master alone (R355, R420, R421). -/
def readerKey : Master → Nat
  | .host => 0
  | .forager c => 16 + c.val
  | .farrier => 2
  | .quench => 3
  | .debug => 4
  | .engine => 5

/-- A core's record. -/
def State.core (s : State) (c : Nat) : Core := lookup (fun _ => {}) s.hive.core c

def State.setCore (s : State) (c : Nat) (v : Core) : State :=
  { s with hive := { s.hive with core := store (fun _ => {}) s.hive.core c v } }

/-- A line of work items is privileged while the privileged descriptor that started it is outstanding (R81). -/
def State.linePriv (s : State) (l : Option Nat) : Bool :=
  match l with
  | none => false
  | some d => s.hif.desc.any fun x => x.id == d && x.priv

/-- Whether an access by this master is privileged now (R81). -/
def State.privileged (s : State) : Master → Bool
  | .host => s.on F.HIF_STAT_host_priv
  | .forager c => match (s.core c.val).item with
    | some it => s.linePriv it.line
    | none => false
  | .farrier => true
  | .quench => true
  | .debug => s.on F.GLB_DBG_dbg_open
  | .engine => false

/-! ## Modes -/

/-- The operating mode code (R442). -/
def State.mode (s : State) : Nat := s.rd F.GLB_STAT_mode

/-! ## Block epochs (R459) -/

/-- The epoch of the block that raises a source with an instance (R76, R459). -/
def State.epochOf (s : State) (src inst : Nat) : Nat :=
  if src = 11 then 0
  else if src < 11 then s.hif.epoch
  else if 16 ≤ src ∧ src ≤ 19 then s.hive.epoch
  else if 24 ≤ src ∧ src ≤ 31 then (s.core inst).epoch
  else if 32 ≤ src ∧ src ≤ 39 then s.rd F.ANV_STAT_epoch (src - 32)
  else if 40 ≤ src ∧ src ≤ 47 then s.rd F.TMP_STAT_epoch (inst % 64)
  else if 48 ≤ src ∧ src ≤ 63 then s.rd F.CMB_SEG_STAT_epoch ((src - 48) / 2)
  else if 72 ≤ src ∧ src ≤ 79 then s.epochs.tongs
  else if 80 ≤ src ∧ src ≤ 87 then s.epochs.swage
  else if 88 ≤ src ∧ src ≤ 91 then s.epochs.adc
  else if 108 ≤ src ∧ src ≤ 111 then s.epochs.bellows
  else if 120 ≤ src ∧ src ≤ 123 then s.rd F.WAX_STAT_epoch
  else 0

/-! ## Events and Waxbook triggers -/

/-- An occurrence enters event staging (R77): it merges into a record of the same source, code and instance, is
appended, or is lost; a disabled source records nothing. -/
def State.stageEvent (s : State) (src code inst : Nat) (d : DWord) : State :=
  if s.rd F.HIF_EVT_MAP_enable src = 0 then s
  else if s.hif.events.any fun e => e.src == src && e.code == code && e.inst == inst then
    { s with hif := { s.hif with events := s.hif.events.map fun e =>
        if e.src == src && e.code == code && e.inst == inst then { e with count := e.count + 1 } else e } }
  else if s.hif.events.length < 768 then
    { s with hif := { s.hif with events := s.hif.events ++
        [{ src := src, code := code, time := s.cellNs, count := 1, inst := inst,
           epoch := s.epochOf src inst, detail := d }] } }
  else
    let s := (s.wrBit F.HIF_EVT_LOST_lost (src % 32) true (src / 32)).bump F.HIF_EVT_LOST_CNT_count
    { s with hif := { s.hif with lostOwed := true } }

/-- The record of a trigger's firings. -/
def State.trigHist (s : State) (t : Nat) : TrigHist := lookup (fun _ => {}) s.wax.hist t

/-- Whether a trigger may fire now: enabled, and idle only after its one firing without REARM (R482). -/
def State.trigReady (s : State) (t : Nat) : Bool :=
  s.on F.WAX_CTL_enable && (s.on F.WAX_TRIG2_rearm t || !(s.trigHist t).fired)

/-- The trigger lies within its hold-off (R482). -/
def State.inHoldoff (s : State) (t : Nat) : Bool :=
  (s.trigHist t).fired && s.tick < (s.trigHist t).last + ms (s.rd F.WAX_TRIG3_holdoff t)

/-- The sequence number that the record of a firing queued now will carry (R482, R486). -/
def State.waxSeqOf (s : State) (ahead : Nat) : Nat :=
  let n := s.rd F.WAX_SEQ_next + ahead + (if s.wax.busy.isSome then 1 else 0)
  if n < 2 ^ 32 then n else n - 2 ^ 32 + 1

/-- A trigger fires (R482, R483, R487): suppressed in its hold-off, lost while the store is full, missed at a full
queue, else queued.  The flag says that it was queued, so that source 120 follows. -/
def State.fireTrigger (s : State) (t kind src inst code : Nat) : State × Bool :=
  if !s.trigReady t then (s, false)
  else if s.inHoldoff t then (s.bump F.WAX_ERR_suppressed, false)
  else
    let s := { s with wax := { s.wax with
      hist := store (fun _ => {}) s.wax.hist t { fired := true, last := s.tick } } }
    if s.on F.WAX_STAT_full then (s.bump F.WAX_STAT_lost, false)
    else if 8 ≤ s.wax.queue.length then (s.bump F.WAX_ERR_missed, false)
    else
      let f : Firing := { trig := t, kind := kind, src := src, inst := inst, code := code, time := s.cellNs,
                          mode := s.mode, provisional := !s.on F.TIM_STAT_locked }
      let s := { s with wax := { s.wax with queue := s.wax.queue ++ [f] } }
      (s.wr F.WAX_STAT_pending s.wax.queue.length, true)

/-- An event trigger matches an occurrence (R481). -/
def State.eventMatches (s : State) (t src code inst : Nat) : Bool :=
  s.rd F.WAX_TRIG0_kind t == 1 && s.rd F.WAX_TRIG0_source t == src
    && (s.rd F.WAX_TRIG1_code t == 0xFFFFFFFF || s.rd F.WAX_TRIG1_code t == code)
    && (s.rd F.WAX_TRIG2_instance t == 0xFFFF || s.rd F.WAX_TRIG2_instance t == inst)

/-- A source raises an occurrence: it enters event staging, and every matching Waxbook trigger fires, in ascending
order, each queued firing raising source 120 (R77, R482).  `fuel` bounds the chain of source 120 by the queue of 8. -/
def raiseAux : Nat → State → Nat → Nat → Nat → DWord → State
  | 0, s, src, code, inst, d => s.stageEvent src code inst d
  | fuel + 1, s, src, code, inst, d =>
    (List.range 32).foldl (fun s t =>
      if s.eventMatches t src code inst then
        match s.fireTrigger t 1 src inst code with
        | (s', true) =>
          raiseAux fuel s' 120 1 0xFFFF (detail [(0, t), (4, s'.waxSeqOf (s'.wax.queue.length - 1))])
        | (s', false) => s'
      else s) (s.stageEvent src code inst d)

/-- A source raises an occurrence (R76 to R78). -/
def State.raise (s : State) (src code : Nat) (inst : Nat := 0xFFFF) (d : DWord := 0) : State :=
  raiseAux 9 s src code inst d

/-- A mode or software trigger fires; a queued firing raises source 120 (R482). -/
def State.fireOther (s : State) (t kind code : Nat) : State :=
  match s.fireTrigger t kind 0xFFFF 0xFFFF code with
  | (s', true) => s'.raise 120 1 0xFFFF (detail [(0, t), (4, s'.waxSeqOf (s'.wax.queue.length - 1))])
  | (s', false) => s'

/-- The stage lock is released with a cause: source 114 (R470). -/
def State.releaseLock (s : State) (cause : Nat) : State :=
  let owner := s.rd F.UPD_STAGE_owner
  if owner = 0 then s else (s.wr F.UPD_STAGE_owner 0).raise 114 1 0xFFFF (detail [(0, 2), (1, owner), (2, cause)])

/-- A pending mode request is overtaken (R445). -/
def State.overtake (s : State) : State :=
  if s.glb.modeReq.isNone then s
  else { s with glb := { s.glb with modeReq := none } }.wr F.GLB_MODE_REQ_status 5

/-- The mode takes a new code: a pending request is overtaken, the stage lock is released, and the mode triggers of that
code fire (R445, R470, R482). -/
def State.setMode (s : State) (m cause : Nat) : State :=
  let s := s.overtake.releaseLock 4
  let s := ((s.wr F.GLB_MODE_INFO_previous s.mode).wr F.GLB_MODE_INFO_cause cause).wr F.GLB_STAT_mode m
  (List.range 32).foldl (fun s t =>
    if s.rd F.WAX_TRIG0_kind t == 2 && s.rd F.WAX_TRIG0_source t == m then s.fireOther t 2 m else s) s

/-! ## wr_ignored (R85) -/

/-- The wr_ignored flag of a unit, where its block has one. -/
def RegUnit.flag : RegUnit → Option Fld
  | .sq => some F.HIF_SQ_ERR_wr_ignored
  | .cq => some F.HIF_CQ_ERR_wr_ignored
  | .hiv => some F.HIV_ERR_wr_ignored
  | .trc => some F.HIV_ERR_wr_ignored
  | .ctx => some F.HIV_ERR_wr_ignored
  | .anv => some F.ANV_ERR_wr_ignored
  | .anvg => some F.ANV_GERR_wr_ignored
  | .tmp => some F.TMP_ERR_wr_ignored
  | .tng => some F.TNG_CH_ERR_wr_ignored
  | .prb => some F.TNG_PRB_STAT_wr_ignored
  | .swg => some F.SWG_CH_ERR_wr_ignored
  | .seg => some F.CMB_TX_ERR_wr_ignored
  | .ethp => some F.ETH_ERR_wr_ignored
  | .ethz => some F.ETH_ERR_wr_ignored
  | .qnc => some F.QNC_ERR_wr_ignored
  | .adc => some F.ADC_ERR_wr_ignored
  | .adcs => some F.ADC_ERR_wr_ignored
  | .adce => some F.ADC_ERR_wr_ignored
  | .blw => some F.BLW_ERR_wr_ignored
  | .wax => some F.WAX_ERR_wr_ignored
  | .plain | .ptp | .cmp | .cap | .tpo => none

/-- Units whose instances have a flag each; the others share one. -/
def RegUnit.perInstance : RegUnit → Bool
  | .sq | .cq | .anv | .tmp | .tng | .prb | .swg | .seg | .ethp => true
  | _ => false

/-- A write to `off` is ignored: the unit's flag, the block's bit in GLB_WRIGN, and source 12 (R85). -/
def State.wrIgnored (s : State) (u : RegUnit) (i off : Nat) : State :=
  let s := match u.flag with
    | some f => s.wr f 1 (if u.perInstance then i else 0)
    | none => s
  (s.wrBit F.GLB_WRIGN_block (blockIndex off) true).raise 12 1 (blockIndex off) (detail [(4, off)])

/-- An unprivileged access to a PV field is counted, logged and raised (R90). -/
def State.pvDropped (s : State) (m : Master) (bar4 write : Bool) (off : Nat) : State :=
  let s := s.bump F.GLB_PV_CNT_count
  let s := if s.on F.GLB_PV_LOG_valid then s else
    ((((s.wr F.GLB_PV_LOG_offset off).put F.GLB_PV_LOG_bar4 bar4).wr F.GLB_PV_LOG_master (masterId m)).put
      F.GLB_PV_LOG_write write).wr F.GLB_PV_LOG_valid 1
  s.raise 8 (if write then 2 else 1) (masterId m) (detail [(0, b2n bar4), (4, off)])

/-- A bad BAR access is counted and raised (R50, R91, R513): code 1 for BAR0 and BAR2, 2 for BAR4. -/
def State.badAccess (s : State) (bar4 write : Bool) (off : Nat) : State :=
  (s.bump F.HIF_ACC_ERR_bad_access).raise 4 (if bar4 then 2 else 1) 0xFFFF
    (detail [(0, if write then 2 else 1), (4, off)])

/-! ## Completions (R59 to R62, R71) -/

/-- A result laid out as R59 gives it: sixteen bytes from (offset in the completion, width, value) parts. -/
def result (l : List (Nat × Nat × Nat)) : List Byte :=
  l.foldl (fun r p => putBytes r (p.1 - 16) (toBytes p.2.1 p.2.2)) (List.replicate 16 0)

/-- The result of an error completion (R58): offending field, check or reason code, entry index. -/
def errResult (off check idx : Nat) : List Byte := result [(16, 2, off), (18, 2, check), (20, 2, idx)]

/-- A submission and a completion ring beside their registers. -/
def State.sq (s : State) (r : Nat) : Sq := lookup (fun _ => {}) s.hif.sq r
def State.cq (s : State) (q : Nat) : Cq := lookup (fun _ => {}) s.hif.cq q

def State.setSq (s : State) (r : Nat) (v : Sq) : State :=
  { s with hif := { s.hif with sq := store (fun _ => {}) s.hif.sq r v } }
def State.setCq (s : State) (q : Nat) (v : Cq) : State :=
  { s with hif := { s.hif with cq := store (fun _ => {}) s.hif.cq q v } }

/-- The number of outstanding descriptors of a ring: those of a burst whose data has not arrived count (R68). -/
def State.outstanding (s : State) (r : Nat) : Nat := (s.hif.desc.filter (·.ring == r)).length + (s.sq r).inFlight

/-- Descriptors of a ring that have not started. -/
def State.staged (s : State) (r : Nat) : Nat :=
  (s.hif.desc.filter fun d => d.ring == r && !d.started).length

/-- HIF_SQ_STAT.outstanding and HIF_SQ_INFO.staged follow the ring's descriptors (R80). -/
def State.syncRing (s : State) (r : Nat) : State :=
  (s.wr F.HIF_SQ_STAT_outstanding (s.outstanding r) r).wr F.HIF_SQ_INFO_staged (s.staged r) r

/-- A completion takes its place by time, equal times by lower ring (R71). -/
def insertCompl (c : Compl) : List Compl → List Compl
  | [] => [c]
  | d :: l => if d.time < c.time ∨ (d.time = c.time ∧ d.ring ≤ c.ring) then d :: insertCompl c l else c :: d :: l

/-- The outcome of an outstanding descriptor is recorded (R61, R56, R73): it leaves the outstanding descriptors, and
its completion waits for its ring unless QUIET suppresses it.  Without such a descriptor nothing happens. -/
def State.complete (s : State) (id status : Nat) (notes : Nat := 0) (res : List Byte := []) (ind : Bool := false) :
    State :=
  match s.hif.desc.find? (·.id == id) with
  | none => s
  | some d =>
    let st := if status = 1 ∧ notes ≠ 0 then 2 else status
    let s := { s with hif := { s.hif with desc := s.hif.desc.filter (·.id != id) } }
    let s := if st = 1 ∧ bitAt (byteAt d.bytes 2) 0 then s else
      let c : Compl := { id := d.id, cq := d.cq, ring := d.ring, status := st,
                         notes := notes + (if ind then 128 else 0), tag := field d.bytes 4 4, time := s.cellNs,
                         result := (res ++ List.replicate 16 0).take 16 }
      { s with hif := { s.hif with compl := insertCompl c s.hif.compl } }
    s.syncRing d.ring

/-- An error completion with its result layout (R58). -/
def State.fail (s : State) (id status : Nat) (off : Nat := 0xFFFF) (check : Nat := 0) (idx : Nat := 0) : State :=
  s.complete id status 0 (errResult off check idx)

/-- The inline result that points to a host buffer (R59, IND = 1). -/
def indResult (addr len : Nat) : List Byte := result [(16, 8, addr), (24, 4, len)]

/-- A result is written to host memory (R62), unless the write fails at the host, which completes the descriptor with
0x13 (R72). -/
def State.hostResult (s : State) (d : Desc) (io : HostIo) (addr : Nat) (bytes : List Byte) (notes : Nat := 0)
    (status : Nat := 1) : State :=
  if io.resultErr then s.fail d.id 0x13
  else { s with hostMem := writeBytes s.hostMem addr bytes }.complete d.id status notes
    (indResult addr bytes.length) true

/-- The opcode of a descriptor (R55). -/
def Desc.opcode (d : Desc) : Nat := field d.bytes 0 2
def Desc.tag (d : Desc) : Nat := field d.bytes 4 4
def Desc.deadline (d : Desc) : Nat := field d.bytes 8 8
def Desc.prio (d : Desc) : Nat := byteAt d.bytes 3
def Desc.quiet (d : Desc) : Bool := bitAt (byteAt d.bytes 2) 0
def Desc.ext (d : Desc) : Bool := bitAt (byteAt d.bytes 2) 1
def Desc.fence (d : Desc) : Bool := bitAt (byteAt d.bytes 2) 2
/-- An operand field: byte `i`, `n` bytes. -/
def Desc.op (d : Desc) (i n : Nat) : Nat := field d.bytes i n
def Desc.opS (d : Desc) (i n : Nat) : Int := fieldS d.bytes i n

/-- The class code of a ring (R52). -/
def State.ringClass (s : State) (r : Nat) : Nat := s.rd F.HIF_SQ_CFG_class r

/-- Whether a descriptor may start under the order of its class (R52, R71) and its FENCE (R56). -/
def State.mayStart (s : State) (d : Desc) : Bool :=
  let earlier := s.hif.desc.filter fun e => e.ring == d.ring && e.id < d.id
  let cls := s.ringClass d.ring
  !d.started && (!d.fence || earlier.isEmpty)
    && (if cls = 1 then earlier.all (·.started)
        else if cls = 3 ∨ cls = 4 ∨ cls = 5 ∨ cls = 8 then earlier.isEmpty
        else if cls = 6 ∨ cls = 7 then earlier.all (·.started)
        else true)

/-- The descriptor of a ring with a given opcode that starts now. -/
def State.nextDesc (s : State) (r opcode : Nat) : Option Desc :=
  s.hif.desc.find? fun d => d.ring == r && d.opcode == opcode && s.mayStart d

/-- A descriptor has started: it leaves submission staging. -/
def State.startDesc (s : State) (d : Desc) : State :=
  let l := s.hif.desc.map fun e : Desc => if e.id = d.id then { e with started := true } else e
  { s with hif := { s.hif with desc := l } }.syncRing d.ring

/-- The command of a descriptor row: the ring's descriptor with that opcode starts and `f` acts; without one the
command has nothing to act on (log entry 6). -/
def State.runDesc (s : State) (r opcode : Nat) (f : State → Desc → State) : State :=
  match s.nextDesc r opcode with
  | some d => f (s.startDesc d) d
  | none => s

/-- The extended body of a descriptor as the host answers its read, or the 0x13 completion (R72). -/
def State.withBody (s : State) (d : Desc) (io : HostIo) (f : State → List Byte → State) : State :=
  if io.bodyErr then s.fail d.id 0x13 else f s io.body

/-! ## Mailboxes (R91 to R93) -/

def State.mailbox (s : State) (m : Nat) : Mailbox := lookup (fun _ => {}) s.glb.mailbox m

def State.setMailbox (s : State) (m : Nat) (b : Mailbox) : State :=
  { s with glb := { s.glb with mailbox := store (fun _ => {}) s.glb.mailbox m b } }

/-- The next sequence number of a mailbox: 0 before the first result, then 1 to 65,535 and 1 again (R92). -/
def nextSeq (n : Nat) : Nat := if n = 65535 then 1 else n + 1

/-- A new result reaches a mailbox (R93). -/
def Mailbox.post (b : Mailbox) (d : List Word) : Mailbox :=
  match b.st with
  | .empty => { b with st := .fresh, seq := nextSeq b.seq, data := d, overrun := false }
  | .fresh => { b with seq := nextSeq b.seq, data := d }
  | .held =>
    { b with waiting := some (nextSeq (match b.waiting with | some w => w.1 | none => b.seq), d) }

/-- A new result of words reaches mailbox `m` (R93). -/
def State.post (s : State) (m : Nat) (d : List Word) : State := s.setMailbox m ((s.mailbox m).post d)

/-- The two words of a 64-bit value. -/
def words64 (v : Nat) : List Word := [BitVec.ofNat 32 v, BitVec.ofNat 32 (v / 2 ^ 32)]

end Sys2Proof.Machine
end

