-- ==== Sys2Proof/Machine/Adc.lean ====
section
/-!
DEFINITION. Machine/Adc.lean: the ADC subsystem (R410 to R424): triggers, sampling instants, results, limits, open
wires, the result queue and the latest-result registers.
-/

namespace Sys2Proof.Machine

def State.adcSeq (s : State) (q : Nat) : AdcSeq := if q = 0 then s.adc.seq0 else s.adc.seq1

def State.setAdcSeq (s : State) (q : Nat) (v : AdcSeq) : State :=
  { s with adc := if q = 0 then { s.adc with seq0 := v } else { s.adc with seq1 := v } }

/-- The delay of a sequencer in nanoseconds (R412). -/
def State.adcDelay (s : State) (q : Nat) : Nat := s.rd F.ADC_SEQ_CFG_delay q * 40

/-- A converter is woken: it can sample 1.5 µs later (R413). -/
def State.adcWake (s : State) (q : Nat) : State :=
  let x := s.adcSeq q
  let x := if s.on F.ADC_SEQ_STAT_powered q then { x with stay := x.start.isSome }
    else { x with ready := uns 64 (s.cellNs + 1500 : Nat) }
  (s.setAdcSeq q x).wr F.ADC_SEQ_STAT_powered 1 q

/-- A run starts with its first sampling instant (R411). -/
def State.adcRun (s : State) (q first : Nat) (ext : Bool) : State :=
  let x := s.adcSeq q
  let s := s.setAdcSeq q { x with start := some first, taken := 0, ext := ext, stay := false }
  (s.wr F.ADC_SEQ_STAT_runs (s.rd F.ADC_SEQ_STAT_runs q + 1) q).wr F.ADC_SEQ_STAT_stopped 0 q

/-- A trigger reaches a sequencer with its first sampling instant: dropped and counted while a run waits or runs (R415). -/
def State.adcTrigger (s : State) (q first : Nat) (ext : Bool) : State :=
  if !s.on F.ADC_SEQ_CTL_enable q then s
  else if (s.adcSeq q).start.isSome then s.bump F.ADC_SEQ_STAT_missed q
  else s.adcRun q first ext

/-- The trigger of a compare unit at its match (R412): the converter was woken 2,000 ns before, and is ready (R413). -/
def State.adcMatch (s : State) (q : Nat) : State :=
  if s.rd F.ADC_SEQ_CFG_trig q ≠ 1 then s
  else
    let x := s.adcSeq q
    let t := uns 64 (s.cellNs + s.adcDelay q : Nat)
    if !s.on F.ADC_SEQ_CTL_enable q || x.start.isSome || (s.on F.ADC_SEQ_STAT_powered q && cellDiff x.ready t ≤ 0) then
      s.adcTrigger q t false
    else
      let s := if s.on F.ADC_SEQ_STAT_powered q then s else s.adcWake q
      s.adcTrigger q (s.adcSeq q).ready true

/-- ADC_SOFTWARE_TRIGGER (R412, R423): a write while `enable` is 0 is ignored. -/
def execAdcSoftwareTrigger (q : Fin 2) (s : State) : Host.Outcome State Fault Refusal :=
  if !s.on F.ADC_SEQ_CTL_enable q then .next (s.wrIgnored .adcs q (F.ADC_SEQ_CTL_start.addr q 0))
  else if s.rd F.ADC_SEQ_CFG_trig q ≠ 0 then .next s
  else if (s.adcSeq q).start.isSome then .next (s.bump F.ADC_SEQ_STAT_missed q)
  else
    let t := uns 64 (s.cellNs + s.adcDelay q + 1500 : Nat)
    .next ((s.adcWake q).adcTrigger q t true)

/-- An event on a trigger input at cell nanoseconds `t` (R412): with the converter already powered, no start-up time. -/
def State.adcEvent (s : State) (q t : Nat) : State :=
  let x := s.adcSeq q
  let at_ := uns 64 (t + s.adcDelay q : Nat)
  if x.start.isSome then s.adcTrigger q at_ false
  else if s.on F.ADC_SEQ_STAT_powered q && cellDiff x.ready at_ ≤ 0 then s.adcTrigger q at_ false
  else (s.adcWake q).adcTrigger q (uns 64 (at_ + 1500 : Nat)) true

/-- A filtered edge of trigger input `tin` reaches a sequencer (R412). -/
def State.adcEdge (s : State) (q tin : Nat) (rising : Bool) : State :=
  let e := s.rd F.ADC_SEQ_CFG_edge q
  if !s.on F.ADC_SEQ_CTL_enable q ∨ s.rd F.ADC_SEQ_CFG_trig q ≠ 2 ∨ s.rd F.ADC_SEQ_CFG_tin q ≠ tin then s
  else if e = 3 then
    let x := s.adcSeq q
    if rising then
      let s := s.setAdcSeq q { x with rise := some s.tick }
      match x.high with
      | some h => s.adcEvent q (uns 64 ((s.tim.cell + h / 2 * s.addend) / 2 ^ 32 : Nat))
      | none => s
    else s.setAdcSeq q { x with high := x.rise.map fun r => s.tick - r }
  else if (e = 1) = rising then s.adcEvent q s.cellNs
  else s

/-- ADC_TRIGGER_INPUT_EVENT (R412): an edge of a trigger input. -/
def execAdcTriggerInputEvent (tin : Fin 4) (rising : Bool) (s : State) : Host.Outcome State Fault Refusal :=
  .next ((s.adcEdge 0 tin rising).adcEdge 1 tin rising)

/-- The inputs that an entry converts. -/
def entryInputs (w : Word) : List Nat :=
  let n := getBits w 0 5
  if getBits w 5 1 = 1 then [n, n + 1] else [n]

/-- The other sequencer's current flows into one of these inputs at instant `t` (R417). -/
def State.adcPull (s : State) (q t : Nat) (ins : List Nat) : Bool :=
  let x := s.adcSeq q
  match x.start with
  | none => false
  | some f =>
    let e := s.rd F.ADC_SEQ_CFG_first q + x.taken
    let w := s.word (F.ADC_ENT_input.addr e 0)
    let d := cellDiff (uns 64 (f + x.taken * 1000 : Nat)) t
    decide (e ≤ s.rd F.ADC_SEQ_CFG_last q) && getBits w 6 2 != 0 && (entryInputs w).any ins.contains
      && decide (0 ≤ d ∧ d ≤ 1000)

/-- ADC_SAMPLE (R411): the next entry of the run is sampled at its instant; `code` is what the converter reads. -/
def execAdcSample (q : Fin 2) (code : BitVec 16) (s : State) : Host.Outcome State Fault Refusal :=
  let x := s.adcSeq q
  match x.start with
  | none => .next s
  | some f =>
    let e := s.rd F.ADC_SEQ_CFG_first q + x.taken
    let last := s.rd F.ADC_SEQ_CFG_last q
    if last < e then .next s
    else
      let t := uns 64 (f + x.taken * 1000 : Nat)
      let s := s.advanceCell t
      let w := s.word (F.ADC_ENT_input.addr e 0)
      let r : AdcSampleRec := { entry := e, conf := w, code := code, time := t,
                                pull := s.adcPull (1 - q.val) t (entryInputs w), ext := x.ext, last := e == last }
      .next (s.setAdcSeq q { x with taken := x.taken + 1, pending := x.pending ++ [r] })

/-- The value of a result in its own format (R410). -/
def AdcSampleRec.value (r : AdcSampleRec) : Int :=
  if getBits r.conf 5 1 = 1 then r.code.toInt else (r.code.toNat : Int)

/-- A value of 16 bits in the format of a result. -/
def AdcSampleRec.bound (r : AdcSampleRec) (v : Nat) : Int := if getBits r.conf 5 1 = 1 then sgn 16 v else (v : Int)

/-- Open-wire detection (R417). -/
def State.adcOw (s : State) (r : AdcSampleRec) : Bool :=
  let ow := getBits r.conf 6 2
  (ow == 1 && decide (((s.rd F.ADC_OW_THR_up * 256 : Nat) : Int) ≤ r.value))
    || (ow == 2 && decide (r.value ≤ ((s.rd F.ADC_OW_THR_down * 256 : Nat) : Int)))

/-- The limit check (R418). -/
def State.adcLim (s : State) (r : AdcSampleRec) : Bool :=
  let k := getBits r.conf 8 3
  getBits r.conf 11 1 == 1 && (decide (r.value < r.bound (s.rd F.ADC_LIM_LO_low k))
    || decide (r.bound (s.rd F.ADC_LIM_HI_high k) < r.value))

/-- Sources 90 and 91 of an input, once until it has been seen good (R417, R418). -/
def State.adcReport (s : State) (r : AdcSampleRec) (ow lim : Bool) : State :=
  let n := getBits r.conf 0 5
  let kind := getBits r.conf 6 2
  let code := i32 r.value
  let told := s.adc.owTold.testBit n
  let s := if kind = 0 then s else { s with adc := { s.adc with owTold := putBit s.adc.owTold n ow } }
  let s := if ow && !told then s.raise 90 1 n (detail [(0, kind), (4, code)]) else s
  let told := s.adc.limTold.testBit n
  let s := if getBits r.conf 11 1 = 0 then s else { s with adc := { s.adc with limTold := putBit s.adc.limTold n lim } }
  if lim && !told then s.raise 91 1 n (detail [(0, getBits r.conf 8 3), (4, code)]) else s

/-- The 16 bytes of a result (R419). -/
def AdcSampleRec.bytes (r : AdcSampleRec) (q runs : Nat) (ow lim dropped : Bool) : List Byte :=
  toBytes 2 r.code.toNat
    ++ [BitVec.ofNat 8 (getBits r.conf 0 6 + 64 * q + 128),
        BitVec.ofNat 8 (b2n ow + 2 * b2n lim + 4 * b2n r.pull + 8 * b2n r.ext + 16 * b2n dropped),
        BitVec.ofNat 8 r.entry, 0]
    ++ toBytes 2 runs ++ toBytes 8 r.time

/-- A result enters the queue, or is dropped at a full one (R420). -/
def State.adcEnqueue (s : State) (bytes : Bool → List Byte) : State :=
  let n := s.adc.queue.length
  if 512 ≤ n then
    let first := !s.on F.ADC_ERR_dropped
    let s := { s with adc := { s.adc with lost := true } }.bump F.ADC_ERR_dropped
    if first then s.raise 89 1 0xFFFF (detail [(4, s.rd F.ADC_ERR_dropped)]) else s
  else
    let s := { s with adc := { s.adc with queue := s.adc.queue ++ [bytes s.adc.lost], lost := false } }
    let s := (s.wr F.ADC_Q_STAT_count (n + 1)).wr F.ADC_Q_STAT_high (max (s.rd F.ADC_Q_STAT_high) (n + 1))
    if n + 1 = s.rd F.ADC_Q_CFG_thr then s.raise 88 1 0xFFFF (detail [(4, n + 1)]) else s

/-- A run ends: the converter powers down unless it was woken again, and a disabled sequencer stops (R413, R415). -/
def State.adcRunEnd (s : State) (q : Nat) : State :=
  let x := s.adcSeq q
  let s := s.setAdcSeq q { x with start := none, taken := 0, stay := false }
  let s := if x.stay then s else s.wr F.ADC_SEQ_STAT_powered 0 q
  if s.on F.ADC_SEQ_CTL_enable q then s else s.wr F.ADC_SEQ_STAT_stopped 1 q

/-- ADC_RESULT (R417 to R421): the oldest pending sample of a sequencer becomes a result. -/
def execAdcResult (q : Fin 2) (s : State) : Host.Outcome State Fault Refusal :=
  let x := s.adcSeq q
  match x.pending with
  | [] => .next s
  | r :: rest =>
    let s := s.setAdcSeq q { x with pending := rest }
    let n := getBits r.conf 0 5
    let ow := s.adcOw r
    let lim := s.adcLim r
    let runs := s.rd F.ADC_SEQ_STAT_runs q
    let s := (s.wr F.ADC_LAST_LO_code r.code.toNat n).wr F.ADC_LAST_LO_valid 1 n
    let s := (s.put F.ADC_LAST_LO_ow ow n).put F.ADC_LAST_LO_lim lim n
    let s := (s.wr F.ADC_LAST_LO_diff (getBits r.conf 5 1) n).wr F.ADC_LAST_HI_time r.time n
    let s := s.adcReport r ow lim
    let s := if getBits r.conf 12 1 = 1 then s else s.adcEnqueue fun d => r.bytes q runs ow lim d
    .next (if r.last then s.adcRunEnd q else s)

/-- ADC_QUEUE_POP (R420): a read of ADC_Q_POP0; on an empty queue all but VALID is a free value (log entry 32). -/
def execAdcQueuePop (m : Master) (s : State) : Host.Outcome State Fault Refusal :=
  match s.adc.queue with
  | [] => .next { s.drawn with rdata := s.freshWord &&& 0xFF7FFFFF }
  | r :: rest =>
    let s := { s with
      adc := { s.adc with queue := rest, popped := store (fun _ => []) s.adc.popped (readerKey m) (r.drop 4) }
      rdata := BitVec.ofNat 32 (le (r.take 4)) }
    .next (s.wr F.ADC_Q_STAT_count rest.length)

/-- ADC_LAST_READ (R421): a read of ADC_LAST_LOn. -/
def execAdcLastRead (m : Master) (n : Fin 24) (s : State) : Host.Outcome State Fault Refusal :=
  .next { s with
    rdata := s.word (F.ADC_LAST_LO_code.addr n 0)
    adc := { s.adc with last := store (fun _ => 0) s.adc.last (32 * readerKey m + n)
                          (s.word (F.ADC_LAST_HI_time.addr n 0)) } }

/-- The copies that ADC_Q_POP1 to ADC_Q_POP3 and ADC_LAST_HIn return to a master (R420, R421). -/
def State.adcCopy (s : State) (m : Master) (off : Nat) : Option Word :=
  let k := (off - F.ADC_Q_POP_bytes.off) / 4
  let n := (off - F.ADC_LAST_HI_time.off) / 8
  if F.ADC_Q_POP_bytes.off < off ∧ k < 4 ∧ off % 4 = 0 then
    some (BitVec.ofNat 32 (field (lookup (fun _ => []) s.adc.popped (readerKey m)) (4 * (k - 1)) 4))
  else if F.ADC_LAST_HI_time.off ≤ off ∧ n < 24 ∧ off % 8 = 4 then
    some (lookup (fun _ => 0) s.adc.last (32 * readerKey m + n))
  else none

/-- ADC_SEQ_DISABLE (R415): the run in progress finishes. -/
def execAdcSeqDisable (q : Fin 2) (s : State) : Host.Outcome State Fault Refusal :=
  let s := s.wr F.ADC_SEQ_CTL_enable 0 q
  .next (if (s.adcSeq q).start.isSome then s else s.wr F.ADC_SEQ_STAT_stopped 1 q)

/-- A sequencer is enabled: `stopped` clears, and the first pulse gives no centre (R412). -/
def State.adcEnable (s : State) (q : Nat) : State :=
  (s.wr F.ADC_SEQ_STAT_stopped 0 q).setAdcSeq q { s.adcSeq q with rise := none, high := none }

end Sys2Proof.Machine
end

