-- ==== Sys2Proof/Machine/Hive.lean ====
section
/-!
DEFINITION. Machine/Hive.lean: the Hive scheduler (chapter "Forager cores and the Hive scheduler"): work items, shares,
spill and back-pressure, dispatch with affinity, delay lists, the Forager CSRs as the Hive serves them, the trace.
-/

namespace Sys2Proof.Machine

/-! ## The scheduling trace (R121) -/

/-- DDR answers requests: it is operational and Oluend is not in SENTINEL (R33, R449). -/
def State.ddrServes (s : State) : Bool := s.on F.GLB_STAT_ddr_ok && s.mode != 5

/-- One trace record lands in the trace buffer; a full buffer stops tracing or wraps, raising source 19 (R121). -/
def State.traceLand (s : State) (r : List Byte) : State :=
  let size := 2 ^ (20 + s.rd F.HIV_TRC_CTL_size_log2)
  let off := s.rd F.HIV_TRC_STAT_offset
  let base := s.rd64 F.HIV_TRC_BASE_LO_addr F.HIV_TRC_BASE_HI_addr
  let s := { s with ddr := writeBytes s.ddr (base + off) r }
  let off' := off + 16
  if off' < size then s.wr F.HIV_TRC_STAT_offset off'
  else if s.on F.HIV_TRC_CTL_wrap then
    let first := !s.on F.HIV_TRC_STAT_full
    let s := (s.wr F.HIV_TRC_STAT_offset 0).wr F.HIV_TRC_STAT_full 1
    if first then s.raise 19 2 0xFFFF (detail [(4, 0)]) else s
  else ((s.wr F.HIV_TRC_STAT_offset off').wr F.HIV_TRC_STAT_full 1).raise 19 1 0xFFFF (detail [(4, off')])

/-- Trace staging drains to DDR while DDR answers (log entry 12). -/
def State.traceDrain (s : State) : State :=
  if s.ddrServes then
    s.hive.trace.foldl (fun s r => s.traceLand r) { s with hive := { s.hive with trace := [] } }
  else s

/-- The Hive records a scheduling decision of a selected kind, or counts it lost in full staging (R121). -/
def State.trace (s : State) (kind prio ctx who source extra : Nat) : State :=
  if !s.on F.HIV_TRC_CTL_enable || !bitAt (s.rd F.HIV_TRC_CTL_kinds) kind then s
  else if !s.on F.HIV_TRC_CTL_wrap && s.on F.HIV_TRC_STAT_full then s
  else if 64 ≤ s.hive.trace.length then s.bump F.HIV_TRC_LOST_count
  else
    let r := toBytes 6 s.cellNs ++ toBytes 1 kind ++ toBytes 1 (prio % 8 + 16 * (s.hive.epoch % 16))
      ++ toBytes 2 ctx ++ toBytes 1 who ++ toBytes 1 source ++ toBytes 4 extra
    { s with hive := { s.hive with trace := s.hive.trace ++ [r] } }.traceDrain

/-- The context or slot field of a trace record (R121). -/
def Item.traceCtx (it : Item) : Nat := it.ctx + (if it.anvil then 2 ^ 15 else 0)

/-! ## Shares, spill and back-pressure (R108, R112, R113) -/

/-- The ring share holds items of descriptors and host solver jobs (R108). -/
def Item.ringShare (it : Item) : Bool := if it.anvil then !it.planner else it.source < 64

/-- Items of a share that are on chip. -/
def State.onChip (s : State) (ring : Bool) : Nat :=
  (s.hive.items.filter fun it => it.ringShare == ring && !it.spilled).length

/-- Items of a share in the spill area. -/
def State.inSpill (s : State) (ring : Bool) : Nat :=
  (s.hive.items.filter fun it => it.ringShare == ring && it.spilled).length

/-- The ring reserve: the credits of every ring that is enabled or has descriptors outstanding, less 2,048 (R113). -/
def State.ringReserve (s : State) : Nat :=
  ((List.range 64).filter fun r => s.on F.HIF_SQ_CTL_enable r || s.outstanding r != 0).foldl
    (fun a r => a + s.rd F.HIF_SQ_CREDIT_credit r) 0 - 2048

/-- Spill entries that firmware-share items may use. -/
def State.fwSpill (s : State) : Nat := s.rd F.HIV_SPILL_SIZE_entries - s.ringReserve

/-- HIV_STAT, HIV_SPILL_STAT, HIV_SPILL_HIGH, HIV_DLY_STAT and ANV_GSTAT.planner_ready follow the lists (R122, R155). -/
def State.syncHive (s : State) : State :=
  let n := s.inSpill true + s.inSpill false
  let t := s.hive.timers.length
  let s := ((s.wr F.HIV_STAT_fw_share (s.onChip false)).wr F.HIV_STAT_ring_share (s.onChip true)).put
    F.HIV_STAT_spilling (n != 0)
  let s := (s.wr F.HIV_SPILL_STAT_count n).wr F.HIV_SPILL_HIGH_high (max n (s.rd F.HIV_SPILL_HIGH_high))
  let s := s.wr F.ANV_GSTAT_planner_ready (s.hive.items.filter fun it => it.anvil && it.planner).length
  (s.wr F.HIV_DLY_STAT_used t).wr F.HIV_DLY_STAT_high (max t (s.rd F.HIV_DLY_STAT_high))

/-- The order of R109 reversed: the item that its share would serve last. -/
def laterThan (a b : Item) : Bool := a.prio < b.prio || (a.prio == b.prio && b.seq < a.seq)

/-- The oldest item of its priority in its share: it stays on chip (R112). -/
def State.isHead (s : State) (it : Item) : Bool :=
  !s.hive.items.any fun j => j.ringShare == it.ringShare && j.prio == it.prio && j.seq < it.seq

/-- The newest on-chip item of the lowest priority of a share that holds more than its head on chip (R112, log entry 80). -/
def State.spillVictim (s : State) (ring : Bool) : Option Item :=
  (s.hive.items.filter fun it => it.ringShare == ring && !it.spilled && !s.isHead it).foldl
    (fun v it => match v with
      | none => some it
      | some w => if laterThan it w then some it else some w) none

/-- A share that holds more than its 2,048 on-chip entries spills one item (R112). -/
def State.spillOne (s : State) (ring : Bool) : State :=
  if s.onChip ring ≤ 2048 then s else
  match s.spillVictim ring with
  | none => s
  | some v =>
    let first := s.inSpill true + s.inSpill false == 0
    let l := s.hive.items.map fun it : Item => if it.seq = v.seq then { it with spilled := true } else it
    let s := { s with hive := { s.hive with items := l } }.syncHive
    let s := s.trace 7 v.prio v.traceCtx 0xFF v.source (s.rd F.HIV_SPILL_STAT_count)
    if first then s.raise 16 (if ring then 1 else 2) 0xFFFF (detail [(4, s.rd F.HIV_SPILL_STAT_count)]) else s

/-- The firmware share can take one more item: on chip, or by a spill entry that it may use (R113). -/
def State.fwRoom (s : State) : Bool := s.onChip false < 2048 || s.inSpill false < s.fwSpill

/-- An item enters the ready lists with the next sequence number (R108), its share spilling if it must (R112). -/
def State.queueItem (s : State) (it : Item) : State :=
  let it := { it with seq := s.hive.seq, ready := s.tick }
  let s := { s with hive := { s.hive with items := s.hive.items ++ [it], seq := (s.hive.seq + 1) % 2 ^ 32 } }.syncHive
  (s.trace 1 it.prio it.traceCtx 0xFF it.source 0).spillOne it.ringShare

/-! ## Fetch stops (R70, R113, R127) -/

/-- A host slot is in use until the completion of its descriptor is written (R127). -/
def State.hostSlotFree (s : State) (slot : Nat) : Bool :=
  match lookup (fun _ => none) s.anvil.hostSlot slot with
  | none => true
  | some id => !(s.hif.desc.any (·.id == id) || s.hif.compl.any (·.id == id))

/-- The lowest free host slot. -/
def State.freeHostSlot (s : State) : Option Nat := ((List.range 1024).map (· + 1024)).find? s.hostSlotFree

/-- A completion ring that is full, disabled or faulted (R70). -/
def State.cqBlocked (s : State) (q : Nat) : Bool :=
  !s.on F.HIF_CQ_CTL_enable q || s.on F.HIF_CQ_STAT_full q || s.on F.HIF_CQ_STAT_fault q

/-- Fetch from an enabled ring is held by its completion ring, by back-pressure, or for want of a host slot. -/
def State.fetchHeld (s : State) (r : Nat) : Bool :=
  s.on F.HIF_SQ_CTL_enable r && (s.cqBlocked (s.rd F.HIF_SQ_CFG_cq r) || s.on F.HIV_STAT_backpressure
    || (s.ringClass r == 2 && s.freeHostSlot.isNone))

/-- Every ring shows `fetch_stop` while its fetch is held. -/
def State.showStops (s : State) : State :=
  (List.range 64).foldl (fun s r =>
    let h := s.fetchHeld r
    if s.on F.HIF_SQ_STAT_fetch_stop r == h then s else s.put F.HIF_SQ_STAT_fetch_stop h r) s

/-- The Hive applies back-pressure and raises source 17 (R113). -/
def State.pressureOn (s : State) : State :=
  if s.on F.HIV_STAT_backpressure then s else
  ((s.wr F.HIV_STAT_backpressure 1).showStops.raise 17 1 0xFFFF (detail [(4, s.onChip false)])).trace 9 0 0 0xFF 0x40
    (s.rd F.HIV_SPILL_STAT_count)

/-- 64 entries of the firmware part are free; with a firmware part of 0 entries, 64 on-chip entries (R113). -/
def State.pressureEnds (s : State) : Bool :=
  if s.fwSpill = 0 then s.onChip false + 64 ≤ 2048 else s.inSpill false + 64 ≤ s.fwSpill

/-- The Hive releases back-pressure (R113). -/
def State.pressureOff (s : State) : State :=
  if s.on F.HIV_STAT_backpressure && s.pressureEnds then
    (s.wr F.HIV_STAT_backpressure 0).showStops.trace 10 0 0 0xFF 0x40 (s.rd F.HIV_SPILL_STAT_count)
  else s

/-! ## Contexts (R104) -/

/-- The state of a context: 0 FREE, 1 ACTIVE, 2 SLEEP, 3 FAULTED, 4 SHADOW. -/
def State.ctxState (s : State) (c : Nat) : Nat := s.rd F.HIV_CTX0_state c

/-- The context that handles a ring's descriptors (R104, bytes 38 to 39). -/
def State.ctxOfRing (s : State) (r : Nat) : Option Nat :=
  (List.range 1024).find? fun c => s.rd F.HIV_CTX9_source c == r && s.ctxState c != 0

/-- A stalled submission that finds room is accepted when back-pressure ends (R113). -/
def State.unstall (s : State) : State :=
  (List.range 32).foldl (fun s c =>
    match (s.core c).stalled with
    | none => s
    | some (ctx, prio, arg, planner) =>
      if s.on F.HIV_STAT_backpressure || !s.fwRoom then s else
      let k := s.core c
      let line := if s.linePriv (k.item.bind (·.line)) then k.item.bind (·.line) else none
      let s := s.setCore c { k with stalled := none, submitStatus := if planner then k.submitStatus else 0 }
      let s := if planner then s.wr F.ANV_SUBMIT_status 0 else s
      s.queueItem { ctx := ctx, anvil := planner, prio := prio, planner := planner, source := 0x40, seq := 0,
                    arg := arg, ready := 0, line := line }) s

/-- A spilled item returns on chip (R112). -/
def State.refill (s : State) (it : Item) : State :=
  let l := s.hive.items.map fun j : Item => if j.seq = it.seq then { j with spilled := false } else j
  let s := { s with hive := { s.hive with items := l } }.syncHive
  s.trace 8 it.prio it.traceCtx 0xFF it.source (s.rd F.HIV_SPILL_STAT_count)

/-- A spilled item that has become the head of its priority returns, while DDR answers (R112). -/
def State.returnHeads (s : State) : State :=
  if s.ddrServes then (s.hive.items.filter fun it => it.spilled && s.isHead it).foldl (fun s it => s.refill it) s else s

/-- Items left the lists: heads return, registers follow, back-pressure may end, stalled submissions may enter. -/
def State.hiveSettle (s : State) : State := ((s.syncHive.returnHeads).pressureOff).unstall

/-! ## Dispatch (R105, R109, R110) -/

/-- A core is free when it holds no item and is not in reset (R103, R109). -/
def State.coreFree (s : State) (c : Nat) : Bool :=
  (s.core c).item.isNone && !(s.core c).inReset && (s.core c).stalled.isNone

/-- A core may run items of this priority: the highest HIV_RESV.cores cores run only HIV_RESV.prio or higher (R110). -/
def State.coreTakes (s : State) (c prio : Nat) : Bool :=
  c < 32 - s.rd F.HIV_RESV_cores || s.rd F.HIV_RESV_prio ≤ prio

/-- An item may be dispatched: its context is ACTIVE or SLEEP with a core mask, and no other item of a SERIAL context runs
or is ahead of it (R105). Spilling does not change the order of service (R112). -/
def State.eligible (s : State) (it : Item) : Bool :=
  !it.anvil && (s.ctxState it.ctx == 1 || s.ctxState it.ctx == 2)
    && s.rd F.HIV_CTX1_mask it.ctx != 0
    && (!s.on F.HIV_CTX0_serial it.ctx
        || (s.rd F.HIV_CTX0_running it.ctx == 0
            && !s.hive.items.any fun j => !j.anvil && j.ctx == it.ctx && j.seq < it.seq))

/-- The lowest-numbered free core in the context's mask that takes the item. -/
def State.lowestCore (s : State) (it : Item) : Option Nat :=
  (List.range 32).find? fun c =>
    s.coreFree c && bitAt (s.rd F.HIV_CTX1_mask it.ctx) c && s.coreTakes c it.prio

/-- The core an item takes now, if any (R109 steps 2 and 3). -/
def State.coreFor (s : State) (it : Item) : Option Nat :=
  let last := s.rd F.HIV_CTX0_last it.ctx
  if 32 ≤ last ∨ !bitAt (s.rd F.HIV_CTX1_mask it.ctx) last ∨ it.waited then s.lowestCore it
  else if s.coreFree last && s.coreTakes last it.prio then some last
  else none

/-- The order of service: higher priority first, then older (R109 step 1). -/
def insertServe (it : Item) : List Item → List Item
  | [] => [it]
  | j :: l => if laterThan it j then j :: insertServe it l else it :: j :: l

/-- The items in the order of service. -/
def State.served (s : State) : List Item := s.hive.items.foldl (fun l it => insertServe it l) []

/-- An item goes to a core: FGR_ITEM and FGR_ARG are written and the dispatch interrupt is raised (R102). -/
def State.dispatchTo (s : State) (it : Item) (c : Nat) : State :=
  let k := s.core c
  let s := { s with hive := { s.hive with items := s.hive.items.filter (·.seq != it.seq) } }
  let s := s.setCore c { k with item := some it, start := s.tick, limitAt := none, dispatchIrq := true, limitIrq := false }
  let s := (s.wr F.HIV_CTX0_last c it.ctx).wr F.HIV_CTX0_running (s.rd F.HIV_CTX0_running it.ctx + 1) it.ctx
  (s.trace 2 it.prio it.traceCtx c it.source (fabOf (s.tick - it.ready))).hiveSettle

/-- Items of a freed context are removed at dispatch and counted (R120). -/
def State.dropOrphans (s : State) : State :=
  let orphan := fun it : Item => !it.anvil && !it.spilled && s.ctxState it.ctx == 0
  let n := (s.hive.items.filter orphan).length
  if n = 0 then s else
  ({ s with hive := { s.hive with items := s.hive.items.filter (!orphan ·) } }.bump F.HIV_ERR_orphan 0 0 n).hiveSettle

/-- The Hive chooses the next item and core and dispatches (R109). -/
def State.dispatch (s : State) : State :=
  if !s.on F.HIV_CTL_enable || s.mode == 5 then s else
  let s := s.dropOrphans
  match (s.served.filter s.eligible).findSome? (fun it => (s.coreFor it).map fun c => (it, c)) with
  | some (it, c) => if !it.spilled then s.dispatchTo it c else if s.ddrServes then (s.refill it).dispatchTo it c else s
  | none => s

/-- Descriptor fetch, a firmware submission, a timer or a planner completion creates a work item of a context. -/
def State.newItem (s : State) (ctx prio source arg : Nat) (line : Option Nat := none) (planner : Bool := false) : State :=
  s.queueItem { ctx := ctx, prio := prio, planner := planner, source := source, seq := 0, arg := arg, ready := 0,
                line := line }

/-! ## Timers (R115 to R118) -/

/-- A timer joins its delay list, or finds the pool full: status 4 and source 18 code 1 (R117). -/
def State.armTimer (s : State) (list ctx arg wake : Nat) (line : Option Nat) : State × Nat × Nat :=
  if 2048 ≤ s.hive.timers.length then (s.raise 18 1, 4, 0)
  else
    let h := s.hive.nextHandle
    let t : Timer := { list := list, ctx := ctx, arg := arg, wake := wake, handle := h, line := line }
    ({ s with hive := { s.hive with timers := s.hive.timers ++ [t],
                                    nextHandle := if h = 65535 then 1 else h + 1 } }.syncHive, 0, h)

/-- The Hive tick in cell nanoseconds (R116). -/
def State.tickNs (s : State) : Nat := s.rd F.HIV_TICK_units * 250

/-- The next release of a PERIODIC context: by whole periods from the previous release to the first in the future
(R106). -/
def nextRelease (prev period now : Nat) : Nat × Nat :=
  if period = 0 then (prev, 0)
  else if now < prev + period then (prev + period, 0)
  else
    let k := (now - prev) / period
    (prev + (k + 1) * period, k)

/-- A PERIODIC context whose item ended arms its next release, counting skipped periods (R106). -/
def State.armPeriodic (s : State) (ctx : Nat) : State :=
  if !s.on F.HIV_CTX0_periodic ctx || s.hive.timers.any (fun t => t.ctx == ctx && t.list < 2) then s else
  let prev := s.rd64 F.HIV_CTX6_wake_lo F.HIV_CTX7_wake_hi ctx
  let (w, k) := nextRelease prev (s.rd F.HIV_CTX8_period ctx * s.tickNs) s.cellNs
  let s := if k = 0 then s else (s.bump F.HIV_CTX12_missed ctx 0 k).raise 18 2
  let s := s.wr64 F.HIV_CTX6_wake_lo F.HIV_CTX7_wake_hi w ctx
  (s.armTimer 0 ctx s.freshDWord.toNat w none).1.drawn

/-- A context that becomes ACTIVE arms its first release at its wake time, if it is PERIODIC and neither a timer nor a
release of it waits or runs (R106, log entry 81). -/
def State.armFirst (s : State) (ctx : Nat) : State :=
  if !s.on F.HIV_CTX0_periodic ctx || s.ctxState ctx != 1 || s.rd F.HIV_CTX0_running ctx != 0
      || s.hive.timers.any (fun t => t.ctx == ctx && t.list < 2)
      || s.hive.items.any (fun it => !it.anvil && it.ctx == ctx && it.source == 0x41) then s
  else (s.armTimer 0 ctx s.freshDWord.toNat (s.rd64 F.HIV_CTX6_wake_lo F.HIV_CTX7_wake_hi ctx) none).1.drawn

/-- A timer is released: it becomes a ready item of its context, and a sleeping context is active again (R116). -/
def State.releaseTimer (s : State) (t : Timer) : State :=
  let s := { s with hive := { s.hive with timers := s.hive.timers.filter (·.handle != t.handle) } }.syncHive
  let s := if t.list = 1 ∧ s.ctxState t.ctx = 2 then s.wr F.HIV_CTX0_state 1 t.ctx else s
  let s := s.trace 6 (s.rd F.HIV_CTX0_prio t.ctx) t.ctx 0xFF 0x41 0
  s.newItem t.ctx (s.rd F.HIV_CTX0_prio t.ctx) 0x41 t.arg (if s.linePriv t.line then t.line else none)

/-- A timer takes its place in wake order. -/
def insertTimer (t : Timer) : List Timer → List Timer
  | [] => [t]
  | u :: l => if u.wake ≤ t.wake then u :: insertTimer t l else t :: u :: l

/-- Every timer that is due is released while the firmware share has room; without room the Hive applies back-pressure
and the timer stays due (R116, R113, log entry 13). -/
def State.releaseDue (s : State) : State :=
  let due := (s.hive.timers.filter fun t => 0 ≤ cellDiff s.cellNs t.wake).foldl (fun l t => insertTimer t l) []
  due.foldl (fun s t => if s.fwRoom then s.releaseTimer t else s.pressureOn) s

/-! ## The commands -/

/-- HIVE_DISPATCH (R109). -/
def execHiveDispatch (s : State) : Host.Outcome State Fault Refusal := .next s.dispatch

/-- AFFINITY_WAIT_EXPIRY (R109 step 2): the item with this sequence has waited HIV_AFF.wait for its last core. -/
def execAffinityWaitExpiry (seq : Word) (s : State) : Host.Outcome State Fault Refusal :=
  match s.hive.items.find? (fun it => it.seq == seq.toNat && !it.anvil && !it.waited) with
  | none => .next s
  | some it =>
    if s.coreFor it |>.isSome then .next s else
    let s := s.advanceTo (it.ready + fab (min 16000 (s.rd F.HIV_AFF_wait)))
    let l := s.hive.items.map fun j : Item => if j.seq = it.seq then { j with waited := true } else j
    let s := { s with hive := { s.hive with items := l } }.trace 13 it.prio it.traceCtx 0xFF it.source 0
    .next s.dispatch

/-- RUN_LIMIT_EXPIRY (R103): the item of core `c` passes its context's run limit. -/
def execRunLimitExpiry (c : Fin 32) (s : State) : Host.Outcome State Fault Refusal :=
  let k := s.core c
  match k.item with
  | some it =>
    if k.limitAt.isSome ∨ it.anvil then .next s else
    let s := s.advanceTo (k.start + us (s.rd F.HIV_CTX9_run_limit it.ctx))
    let s := s.setCore c { k with limitAt := some s.tick, limitIrq := true }
    .next ((s.raise (24 + c.val / 4) 1 c.val).trace 14 it.prio it.traceCtx c.val it.source 0)
  | none => .next s

/-- A stalled submission goes; the slot of a planner job that did not get in is free again (R113). -/
def State.dropStall (s : State) (c : Nat) : State :=
  let k := s.core c
  let s := match k.stalled with
    | some (slot, _, _, true) => { s with anvil := { s.anvil with job := store (fun _ => none) s.anvil.job slot none } }
    | _ => s
  s.setCore c { k with stalled := none }

/-- A core's reset: its epoch advances, its item ends without an outcome and the context is FAULTED (R103, R459). -/
def State.resetCore (s : State) (c : Nat) : State :=
  let k := s.core c
  let s := (s.dropStall c).setCore c { epoch := (k.epoch + 1) % 16, inReset := true }
  match k.item with
  | some it =>
    ((s.wr F.HIV_CTX0_state 3 it.ctx).wr F.HIV_CTX0_running (s.rd F.HIV_CTX0_running it.ctx - 1) it.ctx)
  | none => s

/-- CORE_RESET (R103): 10 µs after the run-limit interrupt without FGR_END. -/
def execCoreReset (c : Fin 32) (s : State) : Host.Outcome State Fault Refusal :=
  match (s.core c).limitAt with
  | some t => .next ((s.advanceTo (t + us 10)).resetCore c)
  | none => .next s

/-- CORE_REJOIN (R103): the reset completes and the core takes items again; in SENTINEL the cores are held in reset (R449). -/
def execCoreRejoin (c : Fin 32) (s : State) : Host.Outcome State Fault Refusal :=
  .next (if (s.core c).inReset && s.mode != 5 then s.setCore c { s.core c with inReset := false } else s)

/-- The end of a running item: run count, longest run, running count, and the core is free (R104, R109). -/
def State.endItem (s : State) (c : Nat) (it : Item) (how kind : Nat) : State :=
  let k := s.core c
  let ran := fabOf (s.tick - k.start)
  let s := s.setCore c { k with item := none, limitAt := none, dispatchIrq := false, limitIrq := false,
                                endHow := how, endStatus := 0 }
  let s := s.trace kind it.prio it.traceCtx c it.source ran
  if it.anvil then s else
  let s := s.wr F.HIV_CTX0_running (s.rd F.HIV_CTX0_running it.ctx - 1) it.ctx
  let s := s.wr F.HIV_CTX10_runs (s.rd F.HIV_CTX10_runs it.ctx + 1) it.ctx
  s.wr F.HIV_CTX11_longest (max (s.rd F.HIV_CTX11_longest it.ctx) (min ran (2 ^ 32 - 1))) it.ctx

/-- FGR_END without an item has no effect and reads status 0 (R120). -/
def State.endNothing (s : State) (c how : Nat) : State :=
  s.setCore c { s.core c with endHow := how, endStatus := 0 }

/-- FGR_END_DONE (R120, R106). -/
def execFgrEndDone (c : Fin 32) (s : State) : Host.Outcome State Fault Refusal :=
  match (s.core c).item with
  | none => .next (s.endNothing c 0)
  | some it =>
    let s := s.endItem c it 0 3
    .next (if it.anvil then s else s.armPeriodic it.ctx)

/-- FGR_END_YIELD (R120): the item is queued again with its argument and a new sequence. -/
def execFgrEndYield (c : Fin 32) (s : State) : Host.Outcome State Fault Refusal :=
  match (s.core c).item with
  | none => .next (s.endNothing c 1)
  | some it =>
    let s := s.endItem c it 1 4
    .next (s.queueItem { it with waited := false, spilled := false,
                                 line := if s.linePriv it.line then it.line else none })

/-- FGR_END_SLEEP (R120): the context arms a list-1 timer at FGR_WAKE and sleeps, or reads status 4. -/
def execFgrEndSleep (c : Fin 32) (wake : DWord) (s : State) : Host.Outcome State Fault Refusal :=
  let s := s.setCore c { s.core c with wake := wake.toNat }
  match (s.core c).item with
  | none => .next (s.endNothing c 2)
  | some it =>
    let s := s.endItem c it 2 5
    let l := if s.linePriv it.line then it.line else none
    if s.hive.timers.any (fun t => t.ctx == it.ctx && t.list < 2) then .next s else
    match (s.armTimer 1 it.ctx s.freshDWord.toNat wake.toNat l) with
    | (s', 0, _) => .next ((s'.drawn.wr F.HIV_CTX0_state 2 it.ctx).wr64 F.HIV_CTX6_wake_lo F.HIV_CTX7_wake_hi
        wake.toNat it.ctx)
    | (s', st, _) => .next (s'.setCore c { s'.core c with endStatus := st })

/-- FGR_SUBMIT (R120): a work item of a context, a refusal status, or a stall under back-pressure (R113). -/
def execFgrSubmit (c : Fin 32) (ctx : Fin 1024) (prio : Fin 8) (arg : Word) (s : State) :
    Host.Outcome State Fault Refusal :=
  let k := s.core c
  let reg := ctx.val + prio.val * 2 ^ 16 + arg.toNat * 2 ^ 32
  let st := s.ctxState ctx
  if st = 0 ∨ st = 3 then .next (s.setCore c { k with submit := reg, submitStatus := 1 })
  else if s.rd F.HIV_CTX1_mask ctx = 0 then .next (s.setCore c { k with submit := reg, submitStatus := 2 })
  else if s.on F.HIV_STAT_backpressure || !s.fwRoom then
    let s := s.pressureOn
    .next (s.setCore c { s.core c with submit := reg, stalled := some (ctx, prio, arg.toNat, false), stalledAt := s.tick })
  else
    let line := if s.linePriv (k.item.bind (·.line)) then k.item.bind (·.line) else none
    .next ((s.setCore c { k with submit := reg, submitStatus := 0 }).newItem ctx prio 0x40 arg.toNat line)

/-- A core arms a list-2 or list-3 timer and reads its handle, or status 4 (R115, R117). -/
def State.coreArms (s : State) (c list ctx arg wake : Nat) : State :=
  let k := s.core c
  let line := if s.linePriv (k.item.bind (·.line)) then k.item.bind (·.line) else none
  let (s', st, h) := s.armTimer list ctx arg wake line
  s'.setCore c { s'.core c with wake := wake, timer := ctx + (list - 2) * 2 ^ 10, timerStatus := st,
                                timerHandle := if st = 0 then h else k.timerHandle }

/-- TIMER_ARM_TIMEOUT (R115): FGR_TIMER with op 0. -/
def execTimerArmTimeout (c : Fin 32) (ctx : Fin 1024) (arg wake : DWord) (s : State) :
    Host.Outcome State Fault Refusal := .next (s.coreArms c 2 ctx arg.toNat wake.toNat)

/-- TIMER_ARM_GENERAL (R115): FGR_TIMER with op 1. -/
def execTimerArmGeneral (c : Fin 32) (ctx : Fin 1024) (arg wake : DWord) (s : State) :
    Host.Outcome State Fault Refusal := .next (s.coreArms c 3 ctx arg.toNat wake.toNat)

/-- TIMER_CANCEL (R118): the timer goes, or reads status 5 when its release was recorded first. -/
def execTimerCancel (c : Fin 32) (handle : BitVec 16) (s : State) : Host.Outcome State Fault Refusal :=
  let k := s.core c
  let reg := 2 * 2 ^ 10 + handle.toNat * 2 ^ 16
  match s.hive.timers.find? (·.handle == handle.toNat) with
  | none => .next (s.setCore c { k with timer := reg, timerStatus := 5 })
  | some t =>
    let s := { s with hive := { s.hive with timers := s.hive.timers.filter (·.handle != t.handle) } }.syncHive
    let s := s.setCore c { k with timer := reg, timerStatus := 0 }
    .next (s.trace 15 (s.rd F.HIV_CTX0_prio t.ctx) t.ctx c.val 0x41 0)

/-- CONTEXT_SET_FREE (R120): the context is freed and its timers go; its queued items stay to be removed at dispatch. -/
def execContextSetFree (c : Fin 32) (ctx : Fin 1024) (s : State) : Host.Outcome State Fault Refusal :=
  let s := s.setCore c { s.core c with ctxset := ctx.val, ctxsetStatus := 0 }
  let s := { s with hive := { s.hive with timers := s.hive.timers.filter (·.ctx != ctx.val) } }
  .next ((s.wr F.HIV_CTX0_state 0 ctx).syncHive)

/-- CONTEXT_SET_ACTIVE (R120): the context may be dispatched; on a standby a MIRRORED context holds SHADOW (R107);
a PERIODIC context arms its release at its wake time (R106). -/
def execContextSetActive (c : Fin 32) (ctx : Fin 1024) (s : State) : Host.Outcome State Fault Refusal :=
  let s := s.setCore c { s.core c with ctxset := ctx.val + 2 ^ 12, ctxsetStatus := 0 }
  let s := s.wr F.HIV_CTX0_state (if s.on F.HIV_CTX0_mirrored ctx && s.rd F.GLB_STAT_role == 2 then 4 else 1) ctx
  .next (s.armFirst ctx)

/-- HIVE_TICK (R116): at the next tick every timer that is due is released. -/
def execHiveTick (s : State) : Host.Outcome State Fault Refusal :=
  if !s.on F.HIV_CTL_enable || s.mode == 5 then .next s else
  let p := s.tickNs
  let s := if p = 0 then s else s.advanceCell ((s.cellNs / p + 1) * p)
  .next s.releaseDue

/-- SPILL_REFILL (R112): a share whose on-chip occupancy fell to 1,536 takes its spilled items back, oldest first. -/
def execSpillRefill (ring : Bool) (s : State) : Host.Outcome State Fault Refusal :=
  if 1536 < s.onChip ring ∨ !s.ddrServes then .next s else
  let back := ((s.hive.items.filter fun it => it.ringShare == ring && it.spilled).take (2048 - s.onChip ring))
  .next ((back.foldl (fun s it => s.refill it) s).hiveSettle)

/-- BACKPRESSURE_TIMEOUT (R113): a submission that has stalled for 10 µs completes refused. -/
def execBackpressureTimeout (c : Fin 32) (s : State) : Host.Outcome State Fault Refusal :=
  let k := s.core c
  match k.stalled with
  | none => .next s
  | some (_, _, _, planner) =>
    let s := s.advanceTo (k.stalledAt + us 10)
    if planner then .next ((s.dropStall c).wr F.ANV_SUBMIT_status 3)
    else .next (s.setCore c { k with stalled := none, submitStatus := 3 })

end Sys2Proof.Machine
end

