-- ==== Sys2Proof/Machine/Anvil.lean ====
section
/-!
DEFINITION. Machine/Anvil.lean: the Anvil solver engines (chapter "Anvil solver engines"): submission, dispatch, load
checks, the ADMM iteration in fixed point, checks, endings, results, warm starts and commits.  The bits that the KKT
solve and the factorisation yield depend on an order of roundings that the manual does not give; they are free values
(log entry 14).
-/

namespace Sys2Proof.Machine

/-! ## Tables -/

def State.job (s : State) (slot : Nat) : Option Job := lookup (fun _ => none) s.anvil.job slot

def State.setJob (s : State) (slot : Nat) (j : Option Job) : State :=
  { s with anvil := { s.anvil with job := store (fun _ => none) s.anvil.job slot j } }

def State.solve (s : State) (n : Nat) : Option Solve := lookup (fun _ => none) s.anvil.eng n

def State.setSolve (s : State) (n : Nat) (v : Option Solve) : State :=
  { s with anvil := { s.anvil with eng := store (fun _ => none) s.anvil.eng n v } }

def State.warmSlot (s : State) (w : Nat) : WarmSlot := lookup (fun _ => {}) s.anvil.warm w

def State.setWarm (s : State) (w : Nat) (v : WarmSlot) : State :=
  { s with anvil := { s.anvil with warm := store (fun _ => {}) s.anvil.warm w v } }

/-! ## Fixed point (R134) -/

/-- The nearest 32-bit value of the correct sign (R134). -/
def sat32 (x : Int) : Int := clampI (-2147483648) 2147483647 x

/-- Whether a narrowing leaves 32 bits and sets SAT. -/
def overflows32 (x : Int) : Bool := x < -2147483648 || 2147483647 < x

/-- A shift by a signed count: left exactly, right rounded half up (R134, R141). -/
def scale2 (x k : Int) : Int := if 0 ≤ k then x * (2 ^ k.toNat : Nat) else rhu x (-k).toNat

/-! ## The structure hash (R152): CRC-64 of ECMA-182 -/

def crc64Bit (c : Nat) : Nat → Nat
  | 0 => c
  | n + 1 => crc64Bit (if c.testBit 63 then ((c * 2) % 2 ^ 64) ^^^ 0x42F0E1EBA9EA3693 else c * 2) n

/-- The CRC-64 of a run of bytes, most significant bit first. -/
def crc64 (bs : List Byte) : Nat := bs.foldl (fun c b => crc64Bit (c ^^^ (b.toNat * 2 ^ 56)) 8) 0

/-! ## The problem body (R132, R137) -/

/-- The offset and length in bytes of each section the body holds. -/
def sections (b : List Byte) : List (Nat × Nat) :=
  let n := field b 4 2; let m := field b 6 2; let np := field b 8 4; let na := field b 12 4
  (if bitAt (field b 2 2) 0 then [(field b 48 4, 4 * (n + 1)), (field b 52 4, 2 * np), (field b 56 4, 4 * np)] else [])
  ++ [(field b 60 4, 4 * (n + 1)), (field b 64 4, 2 * na), (field b 68 4, 4 * na), (field b 72 4, 4 * n),
      (field b 76 4, 4 * m), (field b 80 4, 4 * m), (field b 84 4, n + m), (field b 88 4, 2 * (n + m))]
  ++ (if bitAt (field b 2 2) 1 then [(field b 92 4, 4 * n), (field b 96 4, 4 * m)] else [])

def overlapFree : List (Nat × Nat) → Bool
  | [] => true
  | (o, k) :: l => l.all (fun p => k == 0 || p.2 == 0 || o + k ≤ p.1 || p.1 + p.2 ≤ o) && overlapFree l

/-- Check 4 of R137: sections inside the body, aligned to 4 bytes and apart. -/
def sectionsOk (b : List Byte) : Bool :=
  (sections b).all (fun p => p.1 % 4 == 0 && p.1 + p.2 ≤ b.length) && overlapFree (sections b)

/-- The 32-bit words of a section. -/
def wordsAt (b : List Byte) (off n : Nat) : List Nat := (List.range n).map fun i => field b (off + 4 * i) 4
def intsAt (b : List Byte) (off n : Nat) : List Int := (List.range n).map fun i => fieldS b (off + 4 * i) 4
def halvesAt (b : List Byte) (off n : Nat) : List Nat := (List.range n).map fun i => field b (off + 2 * i) 2

def nonDecreasing : List Nat → Bool
  | a :: b :: l => a ≤ b && nonDecreasing (b :: l)
  | _ => true

/-- Check 5 of R137 for one matrix: pointers do not decrease and the last equals the nonzero count. -/
def pointersOk (b : List Byte) (off n nnz : Nat) : Bool :=
  nonDecreasing (wordsAt b off (n + 1)) && field b (off + 4 * n) 4 == nnz

/-- The entries of a matrix stored by column. -/
def entriesOf (b : List Byte) (ptr idx val n : Nat) : List Entry :=
  (List.range n).flatMap fun j =>
    let lo := field b (ptr + 4 * j) 4
    (List.range (field b (ptr + 4 * (j + 1)) 4 - lo)).map fun t =>
      { row := field b (idx + 2 * (lo + t)) 2, col := j, val := fieldS b (val + 4 * (lo + t)) 4 }

/-- Rows rise strictly within each column. -/
def rowsRise : List Entry → Bool
  | a :: b :: l => (a.col != b.col || a.row < b.row) && rowsRise (b :: l)
  | _ => true

/-- Check 7 of R137: the order is a permutation of 0 to n + m − 1. -/
def isPerm (l : List Nat) : Bool := (List.range l.length).all fun i => l.contains i

/-- The problem of a body whose sections are in place. -/
def parseProb (b : List Byte) (tauDefault : Nat) : Prob :=
  let n := field b 4 2; let m := field b 6 2
  { n := n, m := m, frac := byteAt b 16, fracL := byteAt b 17, c0 := fieldS b 18 1, sigma := fieldS b 19 1,
    rho := fieldS b 20 1, alpha := byteAt b 21, tau := if byteAt b 22 = 0 then tauDefault else byteAt b 22,
    checkEvery := byteAt b 23, maxIter := field b 24 2, adapt := byteAt b 26, maxRefactor := byteAt b 27,
    adaptive := bitAt (field b 2 2) 2, hasWarm := bitAt (field b 2 2) 1,
    epsAbs := field b 28 4, epsRel := field b 32 4, epsUse := field b 36 4, epsPinf := field b 40 4,
    p := if bitAt (field b 2 2) 0 then entriesOf b (field b 48 4) (field b 52 4) (field b 56 4) n else [],
    a := entriesOf b (field b 60 4) (field b 64 4) (field b 68 4) n,
    q := intsAt b (field b 72 4) n, l := intsAt b (field b 76 4) m, u := intsAt b (field b 80 4) m,
    d := (List.range n).map fun i => fieldS b (field b 84 4 + i) 1,
    e := (List.range m).map fun i => fieldS b (field b 84 4 + n + i) 1,
    order := halvesAt b (field b 88 4) (n + m),
    warmX := if bitAt (field b 2 2) 1 then intsAt b (field b 92 4) n else [],
    warmY := if bitAt (field b 2 2) 1 then intsAt b (field b 96 4) m else [] }

/-- A lower bound of 0x8000_0000 and an upper bound of 0x7FFF_FFFF are infinite (R133). -/
def negInf : Int := -2147483648
def posInf : Int := 2147483647

/-- The exponent of ρ_i: ρ·2^10 for equal finite bounds, ρ·2^(−10) for a free row, else ρ (Factorisation). -/
def Prob.rhoRow (p : Prob) (rho : Int) (i : Nat) : Int :=
  let l := p.l.getD i 0; let u := p.u.getD i 0
  if l = u ∧ l ≠ negInf ∧ u ≠ posInf then rho + 10
  else if l = negInf ∧ u = posInf then rho - 10 else rho

/-- 2^k lies between 2^(−F) and 2^(30 − F) (R135 rule 3). -/
def rule3 (f : Nat) (k : Int) : Bool := decide (-(f : Int) ≤ k) && decide (k ≤ 30 - (f : Int))

/-- Every 1/ρ_i meets rule 3. -/
def Prob.rhoOk (p : Prob) (rho : Int) : Bool := (List.range p.m).all fun i => rule3 p.frac (-(p.rhoRow rho i))

/-- KKT rows coupled to row `r`: the off-diagonal structure of K (R138). -/
def Prob.neighbours (p : Prob) (r : Nat) : List Nat :=
  (p.p.filterMap fun t => if t.row = t.col then none else if t.row = r then some t.col else if t.col = r then some t.row
    else none)
  ++ (p.a.filterMap fun t => if t.col = r then some (p.n + t.row) else if p.n + t.row = r then some t.col else none)

/-- One step of the symbolic analysis: column `pos` takes its later neighbours and what its children pass on; the
state is the list of (parent, structure) handed up and the count so far. -/
def symbolicStep (p : Prob) (acc : List (Nat × List Nat) × Nat) (pos : Nat) : List (Nat × List Nat) × Nat :=
  let own := ((p.neighbours (p.order.getD pos 0)).map fun r => p.order.idxOf r).filter (pos < ·)
  let kids := (acc.1.filter (·.1 == pos)).flatMap (·.2)
  let st := ((own ++ kids).filter (pos < ·)).eraseDups
  match st.foldl (fun m x => match m with | none => some x | some y => some (min x y)) none with
  | none => (acc.1.filter (·.1 != pos), acc.2)
  | some par => ((par, st) :: acc.1.filter (·.1 != pos), acc.2 + st.length)

/-- The nonzeros of the factor L in the elimination order (R123, R138). -/
def Prob.nnzL (p : Prob) : Nat := ((List.range (p.n + p.m)).foldl (symbolicStep p) ([], 0)).2

/-- Bytes of the result: the record, x, then y and z where asked (R148). -/
def resultSize (flags n m : Nat) : Nat :=
  128 + 4 * n + (if bitAt flags 3 then 4 * m else 0) + (if bitAt flags 4 then 4 * m else 0)

/-- The first load check that fails, or 0 (R137).  `flags` and `cap` come from the job descriptor. -/
def loadCheck (b : List Byte) (tauDefault flags cap : Nat) : Nat :=
  let n := field b 4 2; let m := field b 6 2; let np := field b 8 4; let na := field b 12 4
  let hasP := bitAt (field b 2 2) 0
  if field b 0 2 ≠ 1 ∨ field b 2 2 / 8 ≠ 0 ∨ !zeroBytes b 44 4 ∨ !zeroBytes b 100 28 then 1
  else if n = 0 ∨ 4096 < n ∨ 8192 < m then 2
  else if 65536 < np + na then 3
  else if !sectionsOk b then 4
  else if (hasP && !pointersOk b (field b 48 4) n np) || !pointersOk b (field b 60 4) n na then 5
  else
    let p := parseProb b tauDefault
    if !rowsRise p.p || !rowsRise p.a || p.p.any (fun t => t.col < t.row || n ≤ t.row) || p.a.any (fun t => m ≤ t.row)
    then 6
    else if !isPerm p.order then 7
    else if p.frac < 8 ∨ 28 < p.frac ∨ p.fracL < 8 ∨ 28 < p.fracL ∨ p.c0 < -31 ∨ 31 < p.c0 ∨ p.alpha < 16 ∨ 30 < p.alpha
        ∨ (byteAt b 22 ≠ 0 ∧ (byteAt b 22 < 8 ∨ 31 < byteAt b 22)) ∨ p.checkEvery < 1 ∨ 64 < p.checkEvery ∨ p.maxIter = 0
        ∨ p.adapt < 1 ∨ 8 < p.adapt ∨ 7 < p.maxRefactor ∨ !rule3 p.frac p.sigma ∨ !p.rhoOk p.rho then 8
    else if p.d.any (fun x => x < -31 || 31 < x) || p.e.any (fun x => x < -31 || 31 < x) then 9
    else if (List.range m).any (fun i => p.u.getD i 0 < p.l.getD i 0) then 10
    else if 196608 < p.nnzL then 11
    else if cap < resultSize flags n m then 12
    else 0

/-- The bytes over which the structure hash runs, in order (R152). -/
def hashBytes (b : List Byte) : List Byte :=
  let n := field b 4 2; let m := field b 6 2; let np := field b 8 4; let na := field b 12 4
  let cut := fun o k => (b.drop o).take k
  cut 4 12 ++ (if bitAt (field b 2 2) 0 then cut (field b 48 4) (4 * (n + 1)) ++ cut (field b 52 4) (2 * np) else [])
    ++ cut (field b 60 4) (4 * (n + 1)) ++ cut (field b 64 4) (2 * na) ++ cut (field b 88 4) (2 * (n + m))

/-! ## Products and checks (R142) -/

/-- A sum lies outside 64 bits and sets SAT (R134). -/
def overflows64 (x : Int) : Bool := x < -9223372036854775808 || 9223372036854775807 < x

/-- A sum with 2F fractional bits; one that overflows 64 bits yields the largest or smallest 32-bit value (R134). -/
def acc64 (f : Nat) (x : Int) : Int := if overflows64 x then sat32 x * (2 ^ f : Nat) else x

/-- A·x with 2F fractional bits, by row, exactly. -/
def Prob.aSum (p : Prob) (x : List Int) : List Int :=
  (List.range p.m).map fun i => (p.a.filter (·.row == i)).foldl (fun s t => s + t.val * x.getD t.col 0) 0

/-- A·x with 2F fractional bits, by row. -/
def Prob.aMul (p : Prob) (x : List Int) : List Int := (p.aSum x).map (acc64 p.frac)

/-- Aᵀ·y with 2F fractional bits, by column, exactly. -/
def Prob.atSum (p : Prob) (y : List Int) : List Int :=
  (List.range p.n).map fun j => (p.a.filter (·.col == j)).foldl (fun s t => s + t.val * y.getD t.row 0) 0

/-- Aᵀ·y with 2F fractional bits, by column. -/
def Prob.atMul (p : Prob) (y : List Int) : List Int := (p.atSum y).map (acc64 p.frac)

/-- P·x with 2F fractional bits, exactly; P stores its upper triangle. -/
def Prob.pSum (p : Prob) (x : List Int) : List Int :=
  (List.range p.n).map fun j => p.p.foldl (fun s t =>
    s + (if t.row = j then t.val * x.getD t.col 0 else 0)
      + (if t.col = j ∧ t.row ≠ j then t.val * x.getD t.row 0 else 0)) 0

/-- P·x with 2F fractional bits. -/
def Prob.pMul (p : Prob) (x : List Int) : List Int := (p.pSum x).map (acc64 p.frac)

/-- A product of a check overflows 64 bits (R134). -/
def Prob.checkOverflows (p : Prob) (it : Iterate) : Bool :=
  (p.aSum it.x).any overflows64 || (p.atSum it.y).any overflows64 || (p.pSum it.x).any overflows64

/-- The exponent U of the common unit 2^−U of checked values. -/
def Prob.unit (p : Prob) : Nat := 2 * p.frac + 94

/-- A value with `f` fractional bits, unscaled by 2^(−k), in units of 2^−U. -/
def Prob.inUnits (p : Prob) (f : Nat) (k v : Int) : Int := v * (2 ^ ((p.unit : Int) - f - k).toNat : Nat)

/-- The largest magnitude of a list. -/
def normInf (l : List Int) : Nat := l.foldl (fun a x => max a x.natAbs) 0

/-- Residuals and tolerances of an iterate (R142). -/
def Prob.check (p : Prob) (it : Iterate) (k : Nat) (sat : Bool) : Check :=
  let f := p.frac
  let ax := p.aMul it.x; let px := p.pMul it.x; let aty := p.atMul it.y
  let e := fun i => p.e.getD i 0
  let dc := fun j => p.d.getD j 0 + p.c0
  let rows := List.range p.m; let cols := List.range p.n
  let rp := normInf (rows.map fun i => p.inUnits (2 * f) (e i) (ax.getD i 0 - it.z.getD i 0 * (2 ^ f : Nat)))
  let rd := normInf (cols.map fun j => p.inUnits (2 * f) (dc j)
    (px.getD j 0 + p.q.getD j 0 * (2 ^ f : Nat) + aty.getD j 0))
  let mp := max (normInf (rows.map fun i => p.inUnits (2 * f) (e i) (ax.getD i 0)))
    (normInf (rows.map fun i => p.inUnits f (e i) (it.z.getD i 0)))
  let md := max (normInf (cols.map fun j => p.inUnits (2 * f) (dc j) (px.getD j 0)))
    (max (normInf (cols.map fun j => p.inUnits (2 * f) (dc j) (aty.getD j 0)))
      (normInf (cols.map fun j => p.inUnits f (dc j) (p.q.getD j 0))))
  let eps := fun m => p.epsAbs * 2 ^ (p.unit - 16) + p.epsRel * m / 2 ^ 32
  { iter := k, rp := rp, rd := rd, ep := eps mp, ed := eps md,
    usable := decide (rp ≤ p.epsUse * 2 ^ (p.unit - 16)) && !sat }

/-- A value in units of 2^−U in the residual format, rounded half up (R132). -/
def Prob.resid (p : Prob) (v : Nat) : Nat := min 0xFFFFFFFF ((v + 2 ^ (p.unit - 17)) / 2 ^ (p.unit - 16))

/-- a/b ≤ c/d for fractions of natural numbers. -/
def fracLe (a b c d : Nat) : Bool := a * d ≤ c * b

/-- The merit of a check as a fraction (R142). -/
def Check.merit (c : Check) : Nat × Nat := if fracLe c.rp c.ep c.rd c.ed then (c.rd, c.ed) else (c.rp, c.ep)

def Check.converges (c : Check) : Bool := c.rp ≤ c.ep && c.rd ≤ c.ed

/-- A new check becomes the best iterate: usable before unusable, lower merit, the later among equals (R143). -/
def betterThan (c b : Check) : Bool :=
  if c.usable != b.usable then c.usable else fracLe c.merit.1 c.merit.2 b.merit.1 b.merit.2

/-- The certificate of primal infeasibility for δ, the change of ȳ since the previous check (R142). -/
def Prob.infeasible (p : Prob) (dl : List Int) : Bool :=
  let f := p.frac
  let lhs := normInf ((List.range p.n).map fun j => p.inUnits (2 * f) (p.d.getD j 0) ((p.atMul dl).getD j 0))
  let rhs := normInf ((List.range p.m).map fun i => p.inUnits f (p.e.getD i 0) (dl.getD i 0))
  let term := fun i => let x := dl.getD i 0
    if 0 < x then p.u.getD i 0 * x else p.l.getD i 0 * x
  let finite := (List.range p.m).all fun i => let x := dl.getD i 0
    !(p.u.getD i 0 == posInf && 0 < x) && !(p.l.getD i 0 == negInf && x < 0)
  dl.any (· != 0) && lhs * 2 ^ 32 ≤ p.epsPinf * rhs && finite
    && decide (((List.range p.m).foldl (fun s i => s + term i) 0) < 0)

/-! ## Engine registers -/

/-- ANV_GSTAT follows the engines and the ready lists (R155). -/
def State.syncAnvil (s : State) : State :=
  let hosts := (List.range 8).filter fun n => match s.solve n with | some v => 1024 ≤ v.slot | none => false
  let ready := s.hive.items.filter fun it => it.anvil && it.planner
  let s := (List.range 8).foldl (fun s n =>
    let b := (s.solve n).isSome
    ((s.put F.ANV_STAT_busy b n).put F.ANV_STAT_stopped (!b && !s.on F.ANV_CTL_enable n) n).wrBit F.ANV_GSTAT_busy n b) s
  (s.wr F.ANV_GSTAT_host_running hosts.length).wr F.ANV_GSTAT_planner_ready ready.length

/-- ANV_ITER and ANV_STAT.phase of an engine. -/
def State.showSolve (s : State) (n phase : Nat) : State :=
  match s.solve n with
  | some v => ((s.wr F.ANV_STAT_phase phase n).wr F.ANV_ITER_iter v.k n).wr F.ANV_ITER_checks v.checks n
  | none => (s.wr F.ANV_STAT_phase 0 n)

/-! ## Submission (R126, R131) -/

/-- The 64-byte job descriptor of a firmware slot in DDR (R126). -/
def State.jobBytes (s : State) (slot : Nat) : List Byte :=
  readBytes s.ddr (s.rd64 F.ANV_JOBTAB_LO_addr F.ANV_JOBTAB_HI_addr + 64 * slot) 64

/-- Following successors from `slot` returns to `start`, or does not end, within the links left (R131). -/
def State.chainBad (s : State) (start : Nat) : Nat → Nat → Bool
  | 0, _ => true
  | k + 1, slot =>
    let nx := field (s.jobBytes slot) 6 2
    if nx = 0xFFFF then false else if nx = start then true else s.chainBad start k nx

/-- The slot is queued or running. -/
def State.slotBusy (s : State) (slot : Nat) : Bool := (s.job slot).isSome

/-- The reason ANV_SUBMIT refuses a slot, or 0 (R155). -/
def State.submitCheck (s : State) (slot : Nat) : Nat :=
  if 1024 ≤ slot ∨ s.slotBusy slot then 1
  else if s.chainBad slot 16 slot then 2
  else
    let b := s.jobBytes slot
    if (bitAt (field b 0 2) 0 ∨ bitAt (field b 0 2) 2) ∧ 15 < byteAt b 2 then 4 else 0

/-- A firmware job slot becomes a planner job in the firmware share (R108, R119). -/
def State.enqueuePlanner (s : State) (slot : Nat) (line : Option Nat) : State :=
  let b := s.jobBytes slot
  let s := s.setJob slot (some { bytes := b, deadline := field b 8 8 })
  (s.queueItem { ctx := slot, anvil := true, prio := 0, planner := true, source := 0x40, seq := 0, arg := 0, ready := 0,
                 line := line }).syncAnvil

/-- ANVIL_SUBMIT (R126): a write of ANV_SUBMIT by a Forager or Farrier. -/
def execAnvilSubmit (m : Master) (slot : BitVec 11) (s : State) : Host.Outcome State Fault Refusal :=
  if masterId m ≠ 1 ∧ masterId m ≠ 2 then .next (s.bump F.ANV_GERR_foreign) else
  let s := s.wr F.ANV_SUBMIT_slot slot.toNat
  match s.submitCheck slot.toNat with
  | 0 =>
    if s.on F.HIV_STAT_backpressure || !s.fwRoom then
      let s := s.pressureOn
      match m with
      | .forager c =>
        let b := s.jobBytes slot.toNat
        let s := s.setJob slot.toNat (some { bytes := b, deadline := field b 8 8 })
        .next (s.setCore c { s.core c with stalled := some (slot.toNat, 0, 0, true), stalledAt := s.tick })
      | _ => .next (s.wr F.ANV_SUBMIT_status 3)
    else
      let line := match m with
        | .forager c => (s.core c).item.bind (·.line)
        | _ => none
      .next ((s.wr F.ANV_SUBMIT_status 0).enqueuePlanner slot.toNat (if s.linePriv line then line else none))
  | r => .next (s.wr F.ANV_SUBMIT_status r)

/-! ## Outcomes and completion -/

/-- The note flags of a job (R59, R145). -/
def Solve.notes (v : Solve) : Nat := (if v.pivots ≠ 0 then 2 else 0) + (if v.warmReject then 4 else 0)

/-- The job leaves its slot and engine; the counters of ended jobs advance (R155). -/
def State.releaseEngine (s : State) (n : Nat) : State :=
  match s.solve n with
  | none => s
  | some v =>
    let s := (s.setSolve n none).setJob v.slot none
    ((s.bump F.ANV_CNT_JOBS_count n).showSolve n 0).syncAnvil.trace 12 0 (v.slot + 2 ^ 15) (0x80 + n) 0x40 0

/-- A planner job completes: a work item of its context, then its successor as if submitted now (R131). -/
def State.plannerDone (s : State) (j : Job) (slot status byte1 : Nat) : State :=
  let ctx := field j.bytes 4 2 % 1024
  let s := s.newItem ctx (s.rd F.HIV_CTX0_prio ctx) 0x40 (slot + status * 2 ^ 16 + byte1 * 2 ^ 24) none true
  let nx := field j.bytes 6 2
  if nx ≠ 0xFFFF ∧ s.submitCheck nx = 0 then s.enqueuePlanner nx none else s

/-- An outcome is recorded (R145): the event, the counters, and the phase. -/
def State.recordEnd (s : State) (n : Nat) (v : Solve) (e : JobEnd) : State :=
  let e := { e with time := s.cellNs }
  let s := (s.setSolve n (some { v with outcome := some e })).showSolve n 5
  let det := detail [(0, v.slot), (4, v.k)]
  let s := if e.status = 0x20 then s.raise (32 + n) 1 n det else s
  let s := if v.sat then (s.raise (32 + n) 2 n det).bump F.ANV_CNT_NOTE_sat n else s
  let s := if v.pivots ≠ 0 then s.bump F.ANV_CNT_NOTE_pivot_reg n else s
  if e.ending = 3 ∨ e.ending = 4 ∨ e.ending = 5 then
    let s := s.bump F.ANV_CNT_END_deadline n
    if e.usable then s else (s.raise (32 + n) 3 n det).bump F.ANV_CNT_END_unusable n
  else s

/-- The outcome at the deadline or the iteration limit (R145). -/
def Solve.limitEnd (v : Solve) (ending : Nat) : JobEnd :=
  match v.best with
  | none => { status := if v.sat then 0x21 else 0x03, ending := 5 }
  | some (c, it) =>
    { status := if c.usable then 0x03 else if v.sat then 0x21 else 0x03, ending := ending, usable := c.usable,
      iterate := some it, check := some c }

/-- A job on engine `n` ends without a result, with status `st`: abort, reset or fault (R145, R150, R151). -/
def State.dropJob (s : State) (n st : Nat) : State :=
  match s.solve n with
  | none => s
  | some v =>
    match s.job v.slot with
    | none => s.releaseEngine n
    | some j =>
      let s := s.releaseEngine n
      match j.desc with
      | some d => s.complete d st
      | none => s.plannerDone j v.slot st 0

/-! ## Check of an iterate and its endings (R142 to R145, R149) -/

/-- The residual mailbox of an engine (R149). -/
def State.postResid (s : State) (n : Nat) (v : Solve) (c : Check) : State :=
  if !s.on F.ANV_CFG_resid_mb n then s else
  let p := v.prob
  s.post (32 + n) [BitVec.ofNat 32 (v.slot + c.iter * 2 ^ 16), BitVec.ofNat 32 (p.resid c.rp),
    BitVec.ofNat 32 (p.resid c.rd), BitVec.ofNat 32 (p.resid c.ep), BitVec.ofNat 32 (p.resid c.ed),
    BitVec.ofNat 32 (b2n c.usable + 2 * b2n v.sat + 256 * uns 8 v.rho)]

/-- The new exponent of ρ that adaptation asks for, if any (R140). -/
def Solve.adaptTo (v : Solve) (c : Check) : Option Int :=
  let p := v.prob
  let k := 2 ^ p.adapt
  if !p.adaptive || p.maxRefactor ≤ v.refactors then none
  else
    let up := k * c.rd * c.ep < c.rp * c.ed
    let dn := k * c.rp * c.ed < c.rd * c.ep
    let r := if up then v.rho + 1 else v.rho - 1
    if (up || dn) && p.rhoOk r then some r else none

/-- The engine checks its current iterate (R142): mailbox, best iterate, convergence, certificate, adaptation. -/
def State.checkIterate (s : State) (n : Nat) (v : Solve) : State :=
  let v := { v with sat := v.sat || v.prob.checkOverflows v.cur }
  let c := v.prob.check v.cur v.k v.sat
  let dl := v.yPrev.map fun y => (List.range v.prob.m).map fun i => v.cur.y.getD i 0 - y.getD i 0
  let best := match v.best with
    | none => some (c, v.cur)
    | some (b, _) => if betterThan c b then some (c, v.cur) else v.best
  let v := { v with checks := v.checks + 1, best := best, yPrev := some v.cur.y }
  let s := (s.setSolve n (some v)).postResid n v c
  if c.converges then
    let st := if v.sat then 0x21 else if v.notes ≠ 0 then 0x02 else 0x01
    s.recordEnd n v { status := st, ending := 1, usable := !v.sat, iterate := some v.cur, check := some c }
  else if (match dl with | some d => v.prob.infeasible d | none => false) then
    let it : Iterate := { v.cur with y := dl.getD [] }
    s.recordEnd n v { status := 0x20, ending := 2, check := some c, iterate := some it }
  else
    match v.adaptTo c with
    | some r =>
      (s.setSolve n (some { v with rho := r, adapted := true, refactors := v.refactors + 1 })).showSolve n 3
    | none => s.showSolve n 4

/-! ## Abort, reset, disable (R150, R151, R155) -/

/-- The waiting job of a slot is removed from the ready lists. -/
def State.unqueueJob (s : State) (slot : Nat) : State :=
  let l := s.hive.items.filter fun it => !(it.anvil && it.ctx == slot)
  ({ s with hive := { s.hive with items := l } }.setJob slot none).hiveSettle.syncAnvil

/-- The engine that runs a slot without a recorded outcome. -/
def State.engineOf (s : State) (slot : Nat) : Option Nat :=
  (List.range 8).find? fun n => match s.solve n with
    | some v => v.slot == slot && v.outcome.isNone
    | none => false

/-- The abort of a job slot (R150); the flag tells whether it was aborted. -/
def State.abortSlot (s : State) (slot : Nat) : State × Bool :=
  match s.job slot with
  | none => (s, false)
  | some j =>
    if s.hive.items.any (fun it => it.anvil && it.ctx == slot) then
      let s := s.unqueueJob slot
      (match j.desc with
       | some d => s.complete d 4
       | none => s.plannerDone j slot 4 0, true)
    else match s.engineOf slot with
      | some n => (s.dropJob n 4, true)
      | none => (s, false)

/-- ANVIL_ABORT (R150): a write of ANV_ABORT by a Forager or Farrier. -/
def execAnvilAbort (m : Master) (slot : BitVec 11) (s : State) : Host.Outcome State Fault Refusal :=
  if masterId m ≠ 1 ∧ masterId m ≠ 2 then .next (s.bump F.ANV_GERR_foreign) else
  let s := s.wr F.ANV_ABORT_slot slot.toNat
  match if slot.toNat < 1024 then s.abortSlot slot.toNat else (s, false) with
  | (s', true) => .next (s'.wr F.ANV_ABORT_status 0)
  | (s', false) => .next (s'.wr F.ANV_ABORT_status 5)

/-- A reset of an engine (R151): its epoch advances, its job without an outcome completes with 0xE0, source 32 + n. -/
def State.resetEngine (s : State) (n : Nat) : State :=
  let slot := match s.solve n with | some v => v.slot | none => 0
  let k := match s.solve n with | some v => v.k | none => 0
  let s := s.wr F.ANV_STAT_epoch (s.rd F.ANV_STAT_epoch n + 1) n
  let kept := match s.solve n with | some v => v.outcome.isSome | none => false
  ((if kept then s else s.dropJob n 0xE0).syncAnvil).raise (32 + n) 4 n (detail [(0, slot), (4, k)])

/-- ANVIL_RESET (R151). -/
def execAnvilReset (n : Fin 8) (s : State) : Host.Outcome State Fault Refusal := .next (s.resetEngine n)

/-- ANVIL_FAULT (R151): a microcode fault, or an uncorrectable SRAM error. -/
def execAnvilFault (n : Fin 8) (sram : Bool) (s : State) : Host.Outcome State Fault Refusal :=
  .next ((s.put (if sram then F.ANV_ERR_ecc_uncorr else F.ANV_ERR_mcode_fault) true n).resetEngine n)

/-- ANVIL_DISABLE (R155): the current job runs to its end, after which `stopped` reads 1. -/
def execAnvilDisable (n : Fin 8) (s : State) : Host.Outcome State Fault Refusal :=
  .next ((s.wr F.ANV_CTL_enable 0 n).syncAnvil)

/-! ## Host jobs (R127, R129, R130) -/

/-- SOLVE (R129): the ring's descriptor turns into a host job, or every SOLVE ring shows fetch_stop (R127). -/
def execSolve (r : Fin 64) (s : State) : Host.Outcome State Fault Refusal :=
  match s.freeHostSlot with
  | none =>
    .next s.showStops
  | some slot => .next (s.runDesc r 0x0201 fun s d =>
      let flags := byteAt d.bytes 45
      let b := toBytes 2 flags ++ toBytes 1 (byteAt d.bytes 44) ++ toBytes 5 (0xFFFF * 2 ^ 24) ++ toBytes 8 d.deadline
        ++ (d.bytes.drop 16).take 12 ++ toBytes 2 (d.op 46 2) ++ toBytes 2 0 ++ (d.bytes.drop 32).take 12
        ++ toBytes 20 0
      let s := s.setJob slot (some { bytes := b, desc := some d.id, deadline := d.deadline })
      let s := { s with anvil := { s.anvil with hostSlot := store (fun _ => none) s.anvil.hostSlot slot (some d.id) } }
      (s.queueItem { ctx := slot, anvil := true, prio := d.prio, source := d.ring, seq := 0, arg := 0, ready := 0,
                     line := none }).syncAnvil)

/-- WARM_CLEAR (R130): a host warm slot is marked empty. -/
def execWarmClear (r : Fin 64) (s : State) : Host.Outcome State Fault Refusal :=
  .next (s.runDesc r 0x0202 fun s d =>
    let w := byteAt d.bytes 32
    (s.setWarm w { s.warmSlot w with valid := false }).complete d.id 1)

/-! ## Dispatch (R119, R146) -/

/-- The order of dispatch: planner jobs first, then the earliest deadline, none last, then submission (R119). -/
def State.jobBefore (s : State) (a b : Item) : Bool :=
  let dl := fun (it : Item) => match s.job it.ctx with | some j => j.deadline | none => 0
  if a.planner != b.planner then a.planner
  else if dl a = dl b then a.seq < b.seq
  else if dl a = 0 then false else if dl b = 0 then true else dl a < dl b

/-- The next job to run: host jobs only within the host share (R23); a spilled job returns for it (R112). -/
def State.nextJob (s : State) : Option Item :=
  let share := min 8 (s.rd F.ANV_GCTL_host_share)
  (s.hive.items.filter fun it => it.anvil
      && (it.planner || s.rd F.ANV_GSTAT_host_running < share)).foldl
    (fun b it => match b with | none => some it | some w => if s.jobBefore it w then some it else some w) none

/-- ANVIL_DISPATCH (R119): the lowest-numbered idle enabled engine takes the next job; one past its deadline ends at
once as 0x03 with zero iterations (R146). -/
def execAnvilDispatch (s : State) : Host.Outcome State Fault Refusal :=
  if s.mode = 5 ∨ s.mode = 7 ∨ !s.on F.HIV_CTL_enable then .next s else
  match (List.range 8).find? (fun n => s.on F.ANV_CTL_enable n && (s.solve n).isNone), s.nextJob with
  | some n, some it =>
    if it.spilled && !s.ddrServes then .next s else
    let s := if it.spilled then s.refill it else s
    let s := { s with hive := { s.hive with items := s.hive.items.filter (·.seq != it.seq) } }
    let v : Solve := { slot := it.ctx }
    let s := ((s.setSolve n (some v)).wr F.ANV_STAT_slot it.ctx n).showSolve n 1
    let s := (s.syncAnvil.trace 11 it.prio it.traceCtx (0x80 + n) it.source 0).hiveSettle
    let dl := match s.job it.ctx with | some j => j.deadline | none => 0
    if dl ≠ 0 ∧ 0 ≤ cellDiff s.cellNs dl then .next (s.recordEnd n v { status := 0x03, ending := 5 }) else .next s
  | _, _ => .next s

/-! ## Loading (R137, R153) -/

/-- The starting iterate of a slot whose hash fits: every element shifted by the differences of row shifts and of F
(R153). -/
def WarmSlot.adaptTo (w : WarmSlot) (p : Prob) : Iterate :=
  let df := (p.frac : Int) - w.frac
  { x := (List.range p.n).map fun j => sat32 (scale2 (w.it.x.getD j 0) (w.d.getD j 0 - p.d.getD j 0 + df)),
    y := (List.range p.m).map fun i => sat32 (scale2 (w.it.y.getD i 0) (w.e.getD i 0 - p.e.getD i 0 + df)),
    z := (List.range p.m).map fun i => sat32 (scale2 (w.it.z.getD i 0) (p.e.getD i 0 - w.e.getD i 0 + df)) }

/-- Each element clipped to its row's bounds. -/
def Prob.clip (p : Prob) (z : List Int) : List Int :=
  (List.range p.m).map fun i => clampI (p.l.getD i 0) (p.u.getD i 0) (z.getD i 0)

/-- A cold start (R141). -/
def Prob.cold (p : Prob) : Iterate :=
  { x := List.replicate p.n 0, y := List.replicate p.m 0, z := p.clip (List.replicate p.m 0) }

/-- The starting iterate and ρ of a job (R153). -/
def State.startSolve (s : State) (v : Solve) (flags wslot : Nat) : Solve :=
  let p := v.prob
  if bitAt flags 1 ∧ p.hasWarm then
    let ax := (p.aSum p.warmX).map fun t => rhu t p.frac
    { v with cur := { x := p.warmX, y := p.warmY, z := p.clip (ax.map sat32) }, warmUsed := true,
             sat := v.sat || ax.any overflows32 }
  else if bitAt flags 0 then
    let w := s.warmSlot wslot
    if w.valid ∧ w.hash = v.hash then
      { v with cur := w.adaptTo p, warmUsed := true, rho := if p.adaptive then w.rho else v.rho }
    else { v with cur := p.cold, warmReject := true }
  else { v with cur := p.cold }

/-- The status a failed load check gives (R137). -/
def loadStatus (code : Nat) : Nat := if code = 1 then 0x11 else 0x12

/-- JOB_LOAD_COMPLETE (R137): the body is in engine SRAM; `io` answers the read of a host job's body. -/
def execJobLoadComplete (n : Fin 8) (io : HostIo) (s : State) : Host.Outcome State Fault Refusal :=
  match s.solve n with
  | none => .next s
  | some v =>
    if v.outcome.isSome ∨ s.rd F.ANV_STAT_phase n ≠ 1 then .next s else
    match s.job v.slot with
    | none => .next s
    | some j =>
      if j.desc.isSome ∧ io.bodyErr then
        let s := s.releaseEngine n
        match j.desc with
        | some d => .next (s.fail d 0x13)
        | none => .next s
      else
        let b := if j.desc.isSome then io.body else readBytes s.ddr (field j.bytes 16 8) (field j.bytes 24 4)
        let flags := field j.bytes 0 2
        match loadCheck b (s.rd F.ANV_GCTL_tau_log2) flags (field j.bytes 40 4) with
        | 0 =>
          let p := parseProb b (s.rd F.ANV_GCTL_tau_log2)
          let v := { v with prob := p, hash := crc64 (hashBytes b), rho := p.rho }
          .next ((s.setSolve n (some (s.startSolve v flags (byteAt j.bytes 2)))).showSolve n 2)
        | c => .next (s.recordEnd n v { status := loadStatus c, ending := 7, loadCheck := c })

/-! ## Factorisation and iteration -/

/-- FACTORISATION_COMPLETE (R138, R139, R144): the number of regularised pivots, the first one and SAT are free values;
without SAT, check 0 follows. -/
def execFactorisationComplete (n : Fin 8) (s : State) : Host.Outcome State Fault Refusal :=
  match s.solve n with
  | none => .next s
  | some v =>
    if v.outcome.isSome ∨ s.rd F.ANV_STAT_phase n ≠ 2 then .next s else
    let size := v.prob.n + v.prob.m
    let w := s.freshDWord.toNat
    let piv := w % (size + 1)
    let v := { v with pivots := piv, firstPivot := if piv = 0 then 0xFFFFFFFF else w / 2 ^ 20 % size,
                      sat := v.sat || w.testBit 63 }
    let s := s.drawn
    if w.testBit 63 then .next (s.recordEnd n v { status := 0x21, ending := 6 })
    else .next ((s.showSolve n 4).checkIterate n v)

/-- One ADMM step from the free solution (x~, v) of the KKT system (R141); the flag tells whether a narrowing
saturated. -/
def admmStep (p : Prob) (rho : Int) (it : Iterate) (xt vt : List Int) : Iterate × Bool :=
  let a : Int := p.alpha
  let rr := p.rhoRow rho
  let zt := (List.range p.m).map fun i => it.z.getD i 0 + scale2 (vt.getD i 0 - it.y.getD i 0) (-(rr i))
  let x := (List.range p.n).map fun j => rhu (a * xt.getD j 0 + (16 - a) * it.x.getD j 0) 4
  let w := (List.range p.m).map fun i => rhu (a * sat32 (zt.getD i 0) + (16 - a) * it.z.getD i 0) 4
  let t := (List.range p.m).map fun i => sat32 (w.getD i 0) + scale2 (it.y.getD i 0) (-(rr i))
  let z := p.clip (t.map sat32)
  let y := (List.range p.m).map fun i => it.y.getD i 0 + scale2 (sat32 (w.getD i 0) - z.getD i 0) (rr i)
  ({ x := x.map sat32, y := y.map sat32, z := z },
   zt.any overflows32 || x.any overflows32 || w.any overflows32 || t.any overflows32 || y.any overflows32)

/-- The iteration limit of a job: its descriptor's, or the header's (R128). -/
def State.iterLimit (s : State) (v : Solve) : Nat :=
  match s.job v.slot with
  | some j => if field j.bytes 28 2 = 0 then v.prob.maxIter else field j.bytes 28 2
  | none => v.prob.maxIter

/-- ITERATION (R141): one iteration; a check when k is a multiple of check_every; the iteration limit ends the job. -/
def execIteration (n : Fin 8) (s : State) : Host.Outcome State Fault Refusal :=
  match s.solve n with
  | none => .next s
  | some v =>
    if v.outcome.isSome ∨ s.rd F.ANV_STAT_phase n ≠ 4 then .next s else
    let p := v.prob
    let free := fun i => sgn 32 (Config.freeWord (s.free + i)).toNat
    let xt := (List.range p.n).map free
    let vt := (List.range p.m).map fun i => free (p.n + i)
    let solveSat := (Config.freeWord (s.free + p.n + p.m)).toNat.testBit 0
    let s := { s with free := s.free + p.n + p.m + 1 }
    let (it, ov) := admmStep p v.rho v.cur xt vt
    let v := { v with cur := it, k := v.k + 1, sat := v.sat || ov || solveSat }
    let s := (s.setSolve n (some v)).showSolve n 4
    let s := if v.k % p.checkEvery = 0 then s.checkIterate n v else s
    match s.solve n with
    | some v' =>
      if v'.outcome.isNone ∧ s.iterLimit v' ≤ v'.k then .next (s.recordEnd n v' (v'.limitEnd 4)) else .next s
    | none => .next s

/-- REFACTORISATION_COMPLETE (R140, R144): SAT of the factorisation is free; without it iteration goes on from the same
iterate. -/
def execRefactorisationComplete (n : Fin 8) (s : State) : Host.Outcome State Fault Refusal :=
  match s.solve n with
  | none => .next s
  | some v =>
    if v.outcome.isSome ∨ s.rd F.ANV_STAT_phase n ≠ 3 then .next s else
    let sat := s.freshWord.toNat.testBit 0
    let s := s.drawn
    if sat then .next (s.recordEnd n { v with sat := true } { status := 0x21, ending := 6 })
    else .next (s.showSolve n 4)

/-- JOB_DEADLINE (R146): the job's deadline passes; the iteration in progress is discarded. -/
def execJobDeadline (n : Fin 8) (s : State) : Host.Outcome State Fault Refusal :=
  match s.solve n with
  | none => .next s
  | some v =>
    match s.job v.slot with
    | none => .next s
    | some j =>
      if v.outcome.isSome ∨ j.deadline = 0 then .next s else
      .next ((s.advanceCell j.deadline).recordEnd n v (v.limitEnd 3))

/-! ## Output (R147, R148) -/

/-- The objective ½xᵀPx + qᵀx of the unscaled problem with 32 fractional bits, rounded half up and saturating. -/
def Prob.objective (p : Prob) (x : List Int) : Int :=
  let px := p.pMul x
  let quad := (List.range p.n).foldl (fun s j => s + x.getD j 0 * px.getD j 0) 0
  let lin := (List.range p.n).foldl (fun s j => s + x.getD j 0 * p.q.getD j 0) 0
  clampI (-(2 ^ 63 : Nat)) ((2 ^ 63 : Nat) - 1)
    (scale2 (quad + lin * (2 ^ (p.frac + 1) : Nat)) (32 - (3 * p.frac + 1 : Nat) - p.c0))

/-- An iterate as it is written: scaled, or unscaled with saturation (R136). -/
def Prob.written (p : Prob) (it : Iterate) (unscale : Bool) : Iterate :=
  if !unscale then it else
  { x := (List.range p.n).map fun j => sat32 (scale2 (it.x.getD j 0) (p.d.getD j 0)),
    y := (List.range p.m).map fun i => sat32 (scale2 (it.y.getD i 0) (p.e.getD i 0 - p.c0)),
    z := (List.range p.m).map fun i => sat32 (scale2 (it.z.getD i 0) (-(p.e.getD i 0))) }

def wordBytes (l : List Int) : List Byte := l.flatMap fun x => toBytes 4 (uns 32 x)

/-- The result record and arrays of an ended job (R148). -/
def State.resultBytes (_s : State) (v : Solve) (e : JobEnd) (flags : Nat) (host : Bool) : List Byte :=
  let p := v.prob
  let arr := match e.iterate with
    | none => ({} : Iterate)
    | some it => p.written it (host && bitAt flags 5)
  let has := e.iterate.isSome
  let y := if bitAt flags 3 then wordBytes arr.y else []
  let z := if bitAt flags 4 then wordBytes arr.z else []
  let x := wordBytes arr.x
  let total := 128 + x.length + y.length + z.length
  let r := fun f => match e.check with | some c => if has then p.resid (f c) else 0xFFFFFFFF | none => 0xFFFFFFFF
  let head := toBytes 1 e.status ++ toBytes 1 v.notes ++ toBytes 1 e.ending
    ++ toBytes 1 (b2n e.usable + 2 * b2n v.sat + 4 * b2n v.warmUsed + 8 * b2n v.adapted)
    ++ toBytes 4 v.k ++ toBytes 4 (match e.check with | some c => c.iter | none => 0) ++ toBytes 4 v.pivots
    ++ toBytes 4 v.firstPivot ++ toBytes 8 v.hash ++ toBytes 4 (r Check.rp) ++ toBytes 4 (r Check.rd)
    ++ toBytes 4 (r Check.ep) ++ toBytes 4 (r Check.ed) ++ toBytes 1 (uns 8 v.rho) ++ toBytes 1 v.refactors
    ++ toBytes 1 e.loadCheck ++ toBytes 1 0
    ++ toBytes 8 (match e.iterate with | some it => uns 64 (p.objective it.x) | none => 0) ++ toBytes 8 e.time
    ++ toBytes 4 (if has then 128 else 0) ++ toBytes 4 (if y.isEmpty then 0 else 128 + x.length)
    ++ toBytes 4 (if z.isEmpty then 0 else 128 + x.length + y.length) ++ toBytes 4 total ++ toBytes 48 0
  head ++ x ++ y ++ z

/-- A job that returns an iterate without SAT updates its warm slot (R153). -/
def State.updateWarm (s : State) (v : Solve) (e : JobEnd) (flags w : Nat) : State :=
  match e.iterate with
  | none => s
  | some it =>
    if bitAt flags 2 ∧ !v.sat then
      s.setWarm w { valid := true, hash := v.hash, frac := v.prob.frac, d := v.prob.d, e := v.prob.e, rho := v.rho,
                    it := it }
    else s

/-- One commit-list entry: words of x̄ go to a Temper address (R147). -/
def State.commitEntry (s : State) (it : Iterate) (e : List Byte) : State :=
  let n := byteAt e 0 % 64
  let ws := (it.x.drop (field e 2 2)).take (field e 4 2)
  s.setSram n (writeBytes (s.sramOf n) (field e 8 4) (wordBytes ws))

/-- The entries of a commit list up to the last. -/
def commitEntries (m : List Host.Cell) (addr : Nat) : Nat → List (List Byte)
  | 0 => []
  | k + 1 =>
    let e := readBytes m addr 16
    if bitAt (byteAt e 1) 0 then [e] else e :: commitEntries m (addr + 16) k

/-- The commit list of a planner job whose iterate is usable is executed; its engines' signals are owed (R147). -/
def State.commit (s : State) (j : Job) (e : JobEnd) : State :=
  match e.iterate with
  | none => s
  | some it =>
    let addr := field j.bytes 48 8
    if j.desc.isSome ∨ !e.usable ∨ addr = 0 ∨ ¬ (e.status = 1 ∨ e.status = 2 ∨ e.status = 3) then s else
    let es := commitEntries s.ddr addr (min 64 (field j.bytes 56 2))
    let s := es.foldl (fun s x => s.commitEntry it x) s
    if es.isEmpty then s else
    { s with anvil := { s.anvil with signals := s.anvil.signals ++ [(es.map fun x => byteAt x 0 % 64).eraseDups] } }

/-- The output of a host job, the descriptor `d`: the result goes to host memory, then the warm slot, then the completion.
Without WARM_SLOT the warm slot of a SOLVE is ignored (R129, log entry 82). -/
def State.hostOutput (s : State) (n : Nat) (v : Solve) (e : JobEnd) (j : Job) (d : Nat) (io : HostIo) : State :=
  let flags := field j.bytes 0 2
  let addr := field j.bytes 32 8
  let bytes := s.resultBytes v e flags true
  if e.ending = 7 then (s.releaseEngine n).fail d e.status 0xFFFF e.loadCheck
  else if io.resultErr then (s.releaseEngine n).fail d 0x13
  else
    let s := { s with hostMem := writeBytes s.hostMem addr bytes }
    let s := if bitAt flags 0 then s.updateWarm v e flags (byteAt j.bytes 2) else s
    (s.releaseEngine n).complete d e.status v.notes (indResult addr bytes.length) true

/-- The output of a planner job: the result goes to DDR, then the warm slot, the commit list and the completion item. -/
def State.plannerOutput (s : State) (n : Nat) (v : Solve) (e : JobEnd) (j : Job) : State :=
  let flags := field j.bytes 0 2
  let bytes := s.resultBytes v e flags false
  let s := if e.loadCheck = 12 then s else { s with ddr := writeBytes s.ddr (field j.bytes 32 8) bytes }
  let s := (s.updateWarm v e flags (byteAt j.bytes 2)).commit j e
  (s.releaseEngine n).plannerDone j v.slot e.status v.notes

/-- JOB_OUTPUT (R147): result, warm slot, commit list, completion, in this order. -/
def execJobOutput (n : Fin 8) (io : HostIo) (s : State) : Host.Outcome State Fault Refusal :=
  match s.solve n with
  | none => .next s
  | some v =>
    match v.outcome, s.job v.slot with
    | some e, some j =>
      match j.desc with
      | some d => .next (s.hostOutput n v e j d io)
      | none => .next (s.plannerOutput n v e j)
    | _, _ => .next s

end Sys2Proof.Machine
end

