-- ==== Sys2Proof/Machine/Schedule.lean ====
section
/-!
DEFINITION. Machine/Schedule.lean: a Combway schedule read from its body (R302 to R304), the checks on it that need no
other state (R306), the checks of a frame (R297), and the fill buffers that set-points enter (R313).
-/

namespace Sys2Proof.Machine

/-! ## Segments -/

def State.seg (s : State) (g : Nat) : Seg8 := lookup (fun _ => {}) s.combway.seg g

def State.setSeg (s : State) (g : Nat) (v : Seg8) : State :=
  { s with combway := { s.combway with seg := store (fun _ => {}) s.combway.seg g v } }

/-! ## The CRCs (R297) -/

def crcStep (top poly width : Nat) : Nat → Nat → Nat
  | 0, c => c
  | n + 1, c => crcStep top poly width n (if c.testBit top then (c * 2) % 2 ^ width ^^^ poly else (c * 2) % 2 ^ width)

/-- The header CRC: polynomial 0x1021, initial value 0xFFFF. -/
def crc16 (bs : List Byte) : Nat := bs.foldl (fun c b => crcStep 15 0x1021 16 8 (c ^^^ (b.toNat * 256))) 0xFFFF

def crcReflStep (poly : Nat) : Nat → Nat → Nat
  | 0, c => c
  | n + 1, c => crcReflStep poly n (if c.testBit 0 then (c / 2) ^^^ poly else c / 2)

/-- CRC-32C: polynomial 0x1EDC_6F41 reflected, initial value and final XOR of all ones. -/
def crc32c (bs : List Byte) : Nat :=
  (bs.foldl (fun c b => crcReflStep 0x82F63B78 8 (c ^^^ b.toNat)) 0xFFFFFFFF) ^^^ 0xFFFFFFFF

/-! ## The schedule body -/

structure SlotEnt where
  owner : Nat
  flags : Nat
  len : Nat
  reserved : Nat
  deriving DecidableEq, Repr

/-- A placement of R304: slot, destination or source, engine, byte 3, payload offset, length, bytes 8 to 11. -/
structure Place where
  slot : Nat
  kind : Nat
  eng : Nat
  b3 : Nat
  off : Nat
  len : Nat
  arg : Nat
  deriving DecidableEq, Repr

structure DynEnt where
  id : Nat
  owner : Nat
  reserved : Nat
  deriving DecidableEq, Repr

namespace Sched

def own (b : List Byte) : Nat := byteAt b 3
def mode (b : List Byte) : Nat := byteAt b 4
def slots (b : List Byte) : Nat := byteAt b 5
/-- L in units of 25 ns. -/
def slotLen (b : List Byte) : Nat := field b 6 2
def minis (b : List Byte) : Nat := field b 8 2
def cycle (b : List Byte) : Nat := field b 12 4
def tickPoint (b : List Byte) : Nat := field b 16 4
def nSync (b : List Byte) : Nat := byteAt b 20
def syncSlots (b : List Byte) : List Nat := (List.range (min 3 (nSync b))).map fun i => byteAt b (21 + i)
def nRx (b : List Byte) : Nat := field b 24 2
def nTx (b : List Byte) : Nat := field b 26 2
def nDyn (b : List Byte) : Nat := field b 28 2
def version (b : List Byte) : Nat := field b 48 4

/-- The byte time in units of 2⁻⁴ ns (R292). -/
def byteTime (b : List Byte) : Nat := if mode b = 1 then 800 else if mode b = 2 then 1600 else 400

def slot (b : List Byte) (k : Nat) : SlotEnt :=
  let o := field b 32 4 + 4 * k
  { owner := byteAt b o, flags := byteAt b (o + 1), len := byteAt b (o + 2), reserved := byteAt b (o + 3) }

def placeAt (b : List Byte) (o : Nat) : Place :=
  { slot := byteAt b o, kind := byteAt b (o + 1), eng := byteAt b (o + 2), b3 := byteAt b (o + 3),
    off := field b (o + 4) 2, len := field b (o + 6) 2, arg := field b (o + 8) 4 }

def rx (b : List Byte) : List Place := (List.range (nRx b)).map fun i => placeAt b (field b 36 4 + 12 * i)
def tx (b : List Byte) : List Place := (List.range (nTx b)).map fun i => placeAt b (field b 40 4 + 12 * i)

def dyn (b : List Byte) : List DynEnt := (List.range (nDyn b)).map fun i =>
  let o := field b 44 4 + 4 * i
  { id := field b o 2, owner := byteAt b (o + 2), reserved := byteAt b (o + 3) }

def slotEnts (b : List Byte) : List SlotEnt := (List.range (slots b)).map (slot b)

/-- The network idle time in ns (R302). -/
def nit (b : List Byte) : Int := (cycle b : Int) - slots b * slotLen b * 25 - minis b * 250

/-- The capacity of a slot (R299). -/
def capacity (b : List Byte) : Nat := min 254 (slotLen b * 400 / byteTime b - 28)

/-- Slots marked feedback. -/
def feedback (b : List Byte) : List Nat := (List.range (slots b)).filter fun k => bitAt (slot b k).flags 0

/-- The feedback-complete instant in ns after the common instant (R36, R303). -/
def fbc (b : List Byte) : Nat :=
  match (feedback b).getLast? with
  | none => 0
  | some k => (k + 1) * slotLen b * 25 + 300

/-- Start of slot `k` in ns after the common instant (R298). -/
def slotStart (b : List Byte) (k : Nat) : Nat := k * slotLen b * 25

/-- The sync slot that a node owns. -/
def syncOf (b : List Byte) (node : Nat) : Option Nat := (syncSlots b).find? fun k => (slot b k).owner == node

/-- The lowest dynamic identifier of a node. -/
def dynOf (b : List Byte) (node : Nat) : Option Nat :=
  (dyn b).foldl (fun m e => if e.owner = node then (match m with | none => some e.id | some x => some (min x e.id)) else m)
    none

/-- The owner of a dynamic identifier. -/
def ownerOf (b : List Byte) (id : Nat) : Option Nat := ((dyn b).find? (·.id == id)).map (·.owner)

end Sched

/-- The schedule of a segment that is loaded. -/
def State.sched (s : State) (g : Nat) : List Byte := (s.seg g).sched.getD []

/-! ## Fill buffers (R313) -/

/-- The buffers of an owned slot; before anything is written they hold zeros of the scheduled length. -/
def State.txSlot (s : State) (g k : Nat) : TxSlot :=
  let z := List.replicate (Sched.slot (s.sched g) k).len (0 : Byte)
  lookup (fun _ => { fill := z, send := z }) (s.seg g).tx k

def State.setTxSlot (s : State) (g k : Nat) (v : TxSlot) : State :=
  let z := List.replicate (Sched.slot (s.sched g) k).len (0 : Byte)
  let x := s.seg g
  s.setSeg g { x with tx := store (fun _ => { fill := z, send := z }) x.tx k v }

/-- Bytes enter the fill buffer of a placement; a source-1 placement counts as written (R313). -/
def State.fillPlace (s : State) (g i : Nat) (p : Place) (bs : List Byte) : State :=
  let t := s.txSlot g p.slot
  let t := { t with fill := putBytes t.fill p.off (bs.take p.len) }
  s.setTxSlot g p.slot (if p.kind = 1 then { t with written := if t.written.contains i then t.written else i :: t.written }
    else t)

/-- Placements of a schedule with their indexes. -/
def Sched.txIdx (b : List Byte) : List (Nat × Place) := (List.range (Sched.nTx b)).zip (Sched.tx b)

/-- A drive set-point of an engine enters every source-1 placement that names it (R199, R304). -/
def State.writeSetPoint (s : State) (n idx v : Nat) : State :=
  (List.range 8).foldl (fun s g =>
    (Sched.txIdx (s.sched g)).foldl (fun s ip =>
      if ip.2.kind = 1 ∧ ip.2.eng = n ∧ ip.2.b3 = idx then s.fillPlace g ip.1 ip.2 (toBytes 2 v) else s) s) s

/-- The start in ns of the first slot that carries a set-point of engine `n` (R215). -/
def State.firstSetPointSlot (s : State) (n : Nat) : Option Nat :=
  (List.range 8).foldl (fun m g =>
    let b := s.sched g
    (Sched.tx b).foldl (fun m p =>
      if p.kind = 1 ∧ p.eng = n then
        let t := Sched.slotStart b p.slot
        (match m with | none => some t | some x => some (min x t))
      else m) m) none

end Sys2Proof.Machine
end

