-- ==== Sys2Proof/Machine/Engine.lean ====
section
/-!
DEFINITION. Machine/Engine.lean: the tables of the Temper engines, capture sets and tuning operations, and the trap of an
engine (R215), which several chapters reach.
-/

namespace Sys2Proof.Machine

/-! ## Tables -/

/-- A field of GLB_KDL_CFGa as the last common instant took it (R463). -/
def State.kdlCfg (s : State) (f : Fld) (a : Nat) : Nat := getBits (lookup (fun _ => {}) s.quench.kindle a : QKindle).cfg f.lo f.width

def State.eng (s : State) (n : Nat) : Engine := lookup (fun _ => {}) s.temper.eng n

def State.setEng (s : State) (n : Nat) (v : Engine) : State :=
  { s with temper := { s.temper with eng := store (fun _ => {}) s.temper.eng n v } }

def Engine.ax (e : Engine) (j : Nat) : Slot := lookup (fun _ => {}) e.slot j

def Engine.setAx (e : Engine) (j : Nat) (v : Slot) : Engine := { e with slot := store (fun _ => {}) e.slot j v }

def Engine.chainWin (e : Engine) (c : Nat) : ChainWin := lookup (fun _ => {}) e.win c

def Engine.setChainWin (e : Engine) (c : Nat) (v : ChainWin) : Engine := { e with win := store (fun _ => {}) e.win c v }

def Engine.states (e : Engine) (j : Nat) : List Int := lookup (fun _ => []) e.xhat j

def Engine.setStates (e : Engine) (j : Nat) (v : List Int) : Engine :=
  { e with xhat := store (fun _ => []) e.xhat j v }

def State.capset (s : State) (k : Nat) : CapSet := lookup (fun _ => {}) s.temper.capset k

def State.setCapset (s : State) (k : Nat) (v : CapSet) : State :=
  { s with temper := { s.temper with capset := store (fun _ => {}) s.temper.capset k v } }

/-- The valid slots of an engine, in slot order (R194). -/
def State.slotsOf (s : State) (n : Nat) : List Nat := (List.range 16).filter fun j => s.on F.TMP_AX_CFG_valid n j

/-- The engine and slot that hold an axis (R22). -/
def State.axisHome (s : State) (a : Nat) : Option (Nat × Nat) :=
  (List.range 64).findSome? fun n =>
    ((s.slotsOf n).find? fun j => s.rd F.TMP_AX_CFG_axis n j == a).map fun j => (n, j)

/-- The slots of an engine that hold axes of a chain. -/
def State.chainSlots (s : State) (n c : Nat) : List Nat :=
  (s.slotsOf n).filter fun j => s.on F.TMP_AX_CFG_in_chain n j && s.rd F.TMP_AX_CFG_chain n j == c

/-- The engines that hold axes of a chain. -/
def State.chainEngines (s : State) (c : Nat) : List Nat := (List.range 64).filter fun n => !(s.chainSlots n c).isEmpty

/-- Engine `n` raises its event source (R225). -/
def State.tmpEvent (s : State) (n code slot value : Nat) : State :=
  s.raise (40 + n / 8) code n (detail [(0, slot), (4, value % 2 ^ 32)])

/-! ## Tuning operations (R217 to R221) -/

/-- TMP_STAT.tune shows whether an injection, capture or FRA is active on an engine (R224). -/
def State.syncTune (s : State) (n : Nat) : State :=
  s.put F.TMP_STAT_tune (s.temper.tune.any (fun t => t.engine == n && t.started && t.ending.isNone)
    || s.temper.fra.any fun f => f.engine == n && f.started) n

/-- The inline result of INJECT and CAPTURE (R220). -/
def State.tuneResult (s : State) (t : Tune) : List Byte :=
  match t.set with
  | none => result []
  | some k => result [(16, 4, (s.capset k).taken), (20, 4, (s.capset k).firstCycle)]

/-- A capture set stops taking samples. -/
def State.stopCapture (s : State) (set : Option Nat) : State :=
  match set with
  | none => s
  | some k => s.setCapset k { s.capset k with running := false, done := true }

/-- An injection or capture ends early with a status: the signal is removed and the operation completes (R220). -/
def State.endTune (s : State) (t : Tune) (status : Nat) : State :=
  let s := { s with temper := { s.temper with tune := s.temper.tune.filter (·.desc != t.desc) } }
  let s := if t.started then s.stopCapture t.set else s
  ((s.tmpEvent t.engine 6 t.slot status).complete t.desc status 0 (s.tuneResult t)).syncTune t.engine

/-- Every injection and capture of an engine ends, and its analyses, with a status. -/
def State.endTunes (s : State) (n status : Nat) : State :=
  let s := (s.temper.tune.filter (·.engine == n)).foldl (fun s t => s.endTune t status) s
  let l := s.temper.fra.filter (·.engine == n)
  let s := { s with temper := { s.temper with fra := s.temper.fra.filter (·.engine != n) } }
  (l.foldl (fun s f => s.complete f.desc status) s).syncTune n

/-! ## The trap (R215) -/

/-- An engine traps: it stops, its epoch advances, its tuning operations end with 0xE0, Quench is asked for STO of its
axes, and code 4 is raised with the cause. -/
def State.trapEngine (s : State) (n cause : Nat) : State :=
  let e := s.eng n
  let s := s.setEng n { e with out := [], init := false, dp := { e.dp with run := 0, goal := none, flight := [] } }
  let s := (((s.wr F.TMP_STAT_running 0 n).wr F.TMP_STAT_trapped 1 n).wr F.TMP_STAT_epoch (s.rd F.TMP_STAT_epoch n + 1) n)
  let s := (s.wr F.TMP_CTL_enable 0 n).wr F.TMP_STAT_stopped 1 n
  let s := s.wr F.TMP_PROG_bg_active 0 n
  let s := if cause = 2 then s.wr F.TMP_ERR_trap_ill 1 n else if cause = 3 then s.wr F.TMP_ERR_ecc_uncorr 1 n else s
  (s.endTunes n 0xE0).tmpEvent n 4 0 cause

/-- A narrowing has overflowed: narrow_sat is set, and code 7 is raised on the first since the field was read (R203). -/
def State.narrowSat (s : State) (n slot : Nat) : State :=
  if s.on F.TMP_ERR_narrow_sat n then s else (s.wr F.TMP_ERR_narrow_sat 1 n).tmpEvent n 7 slot 0

end Sys2Proof.Machine
end

