-- ==== Sys2Proof/Machine/TimeBase.lean ====
section
/-!
DEFINITION. Machine/TimeBase.lean: cell time, its first lock and steering (R340 to R344, R349 to R351), compare and
capture units (R345 to R348), time-pulse outputs (R352) and the Ethernet ports (R353, R354).
-/

namespace Sys2Proof.Machine

/-! ## Compare units 0 and 1 (R345) -/

/-- The next common instant: what compare unit 0 shows as its target, and its period. -/
def State.setInstant (s : State) (t : Nat) : State :=
  let s := { s with tim := { s.tim with instant := t } }
  (((s.wr64 F.TIM_CMP_T_LO_t F.TIM_CMP_T_HI_t t 0).wr F.TIM_CMP_PER_period s.tim.cycleNs 0).wr
    F.TIM_CMP_CFG_arm 1 0).wr F.GLB_STAT_cycle_run 1

/-- The cell cycle in force from the next common instant on: TIM_CYCLE, or 1 ms in KINDLE (R34, R345). -/
def State.cycleSet (s : State) : Nat := if s.mode = 1 then 1000000 else s.rd F.TIM_CYCLE_ns

/-- The offset of the safety tick points from the common instant: the one a loaded schedule names, else 0 (R38). -/
def State.tickOffset (s : State) : Nat :=
  (((List.range 8).map fun g => Sched.tickPoint (s.sched g)).find? (· != 0)).getD 0

/-- Compare unit 1 takes the first safety tick point after the present cell time as its target (R38, R345): the points lie
250 µs apart from the one of the cycle whose counter is 0. -/
def State.armTick (s : State) : State :=
  let since := ((cellDiff s.cellNs s.tim.lastInstant - s.tickOffset + (s.tim.cycle * s.tim.cycleNs : Nat)) % 250000).toNat
  let s := s.wr64 F.TIM_CMP_T_LO_t F.TIM_CMP_T_HI_t (uns 64 (s.cellNs + 250000 - since : Nat)) 1
  (s.wr F.TIM_CMP_PER_period 250000 1).wr F.TIM_CMP_CFG_arm 1 1

/-- The tick points follow a change of the cycle or of the schedules, unless one is due. -/
def State.moveTick (s : State) : State :=
  if s.on F.TIM_CMP_CFG_arm 1 && decide (0 ≤ cellDiff s.cellNs (s.rd64 F.TIM_CMP_T_LO_t F.TIM_CMP_T_HI_t 1)) then s
  else s.armTick

/-- A cycle is placed whose common instant is at cell nanoseconds `t`, with cell cycle counter `c` (R320, R343). -/
def State.placeCycle (s : State) (t c : Nat) : State :=
  let n := s.cycleSet
  let s := { s with tim := { s.tim with lastInstant := t, cycle := c % 2 ^ 32, cycleNs := n } }
  let s := (s.setInstant (uns 64 (t + n : Nat))).armTick
  (List.range 8).foldl (fun s g => s.wr F.CMB_CYC_CNT_count (c % 2 ^ 32) g) s

/-- Seconds × 10⁹ + nanoseconds, with the fraction, as the 2⁻³² ns count of cell time (R340). -/
def cellOf (sec ns : Nat) : Nat := (sec % 2 ^ 48 * 1000000000 + ns) * 2 ^ 32

/-! ## First lock (R343) -/

/-- A descriptor's deadline moves with the step of cell time. -/
def shiftDeadline (delta : Int) (b : List Byte) : List Byte :=
  let d := field b 8 8
  if d = 0 then b else putBytes b 8 (toBytes 8 (uns 64 ((d : Int) + delta)))

/-- A deadline of cell nanoseconds moves with the step; 0 stands for none. -/
def shiftTime (delta : Int) (t : Nat) : Nat := if t = 0 then 0 else uns 64 ((t : Int) + delta)

/-- The segment of a chain moves its deadline. -/
def Seg.shift (delta : Int) (g : Seg) : Seg := { g with bytes := shiftDeadline delta g.bytes }

/-- The targets of armed compare units move by the step (R343). -/
def State.shiftTargets (s : State) (delta : Int) : State :=
  (List.range 32).foldl (fun s u =>
    if s.on F.TIM_CMP_CFG_arm u then
      s.wr64 F.TIM_CMP_T_LO_t F.TIM_CMP_T_HI_t (uns 64 ((s.rd64 F.TIM_CMP_T_LO_t F.TIM_CMP_T_HI_t u : Int) + delta)) u
    else s) s

/-- A time of cell nanoseconds moved by the step of the first lock. -/
def movedTime (delta : Int) (t : Nat) : Nat := uns 64 ((t : Int) + delta)

/-- The wake times of the contexts whose release or sleep waits (R104, R343). -/
def State.shiftWakes (s : State) (delta : Int) : State :=
  (s.hive.timers.filter fun t => t.list < 2).foldl (fun s t =>
    s.wr64 F.HIV_CTX6_wake_lo F.HIV_CTX7_wake_hi (movedTime delta (s.rd64 F.HIV_CTX6_wake_lo F.HIV_CTX7_wake_hi t.ctx)) t.ctx) s

/-- Every pending target moves with cell time at the first lock: compare targets, timers, and the deadlines of descriptors, segments and
jobs. -/
def State.moveTargets (s : State) (delta : Int) : State :=
  let s := (s.shiftTargets delta).shiftWakes delta
  let timers := s.hive.timers.map fun t : Timer => { t with wake := movedTime delta t.wake }
  let s := { s with hive := { s.hive with timers := timers } }
  let desc := s.hif.desc.map fun d : Desc => { d with bytes := shiftDeadline delta d.bytes }
  let s := { s with hif := { s.hif with desc := desc } }
  let chains := s.plan.chain.map fun p : Nat × Chain =>
    (p.1, { p.2 with cur := p.2.cur.map (Seg.shift delta), queue := p.2.queue.map (Seg.shift delta) })
  let s := { s with plan := { s.plan with chain := chains } }
  let jobs := s.anvil.job.map fun p : Nat × Option Job =>
    (p.1, p.2.map fun j => { j with deadline := shiftTime delta j.deadline })
  { s with anvil := { s.anvil with job := jobs } }

/-- The first lock: cell time takes `cell` in one step Δ, and targets, wake times and deadlines keep their distance
(R343). -/
def State.firstLock (s : State) (cell : Nat) : State :=
  if s.on F.TIM_STAT_locked then s
  else
    let delta : Int := cellDiff (cell / 2 ^ 32 % 2 ^ 64) s.cellNs
    let s := { s with tim := { s.tim with
      cell := cell % cellWrap
      instant := movedTime delta s.tim.instant
      lastInstant := movedTime delta s.tim.lastInstant } }
    let s := s.moveTargets delta
    let s := (List.range 8).foldl (fun s g => s.wr F.CMB_SYNC_STAT_locked 1 g) (s.wr F.TIM_STAT_locked 1)
    s.raise 64 1 0xFFFF (BitVec.ofInt 64 delta)

/-! ## Line time (R349 to R351) -/

def State.domain (s : State) (b : Bool) : Domain := if b then s.tim.domB else s.tim.domA

def State.setDomain (s : State) (b : Bool) (d : Domain) : State :=
  { s with tim := if b then { s.tim with domB := d } else { s.tim with domA := d } }

def State.domainValid (s : State) (b : Bool) : Bool :=
  s.on (if b then F.TIM_LINE_STAT_b_valid else F.TIM_LINE_STAT_a_valid)

/-- Holdover: master with no valid domain selected, or in SENTINEL (R342, R355, R451). -/
def State.syncHoldover (s : State) : State :=
  s.put F.TIM_STAT_holdover (s.on F.TIM_STAT_master && (!s.on F.TIM_LINE_STAT_selected || s.mode == 5))

/-- The selection of R350. -/
def State.lineChoice (s : State) : Nat :=
  let a := s.domainValid false
  let b := s.domainValid true
  let k := s.rd F.TIM_LINE_CFG_select
  if k = 1 then b2n a
  else if k = 2 then (if b then 2 else 0)
  else if k = 3 then 0
  else if s.rd F.TIM_LINE_STAT_selected = 2 ∧ b then 2
  else if a then 1
  else if b then 2
  else 0

/-- θ of a selection, saturated to 32 bits. -/
def State.thetaOf (s : State) (sel : Nat) : Nat :=
  if sel = 0 then 0 else i32 (clampI (-(2 ^ 31 : Int)) (2 ^ 31 - 1) (s.domain (sel == 2)).last)

/-- The selected domain changes: source 68 (R350). -/
def State.selectLine (s : State) (k : Nat) : State :=
  if s.rd F.TIM_LINE_STAT_selected = k then s.syncHoldover
  else
    ((s.wr F.TIM_LINE_STAT_selected k).raise 68 1 0xFFFF (detail [(0, k), (4, s.thetaOf k)])).syncHoldover

/-- The selection follows validity and TIM_LINE_CFG (R350). -/
def State.lineSelect (s : State) : State := s.selectLine s.lineChoice

/-- A domain loses validity: source 66 or 67 (R350). -/
def State.domainDown (s : State) (b : Bool) : State :=
  if !s.domainValid b then s
  else
    ((s.wr (if b then F.TIM_LINE_STAT_b_valid else F.TIM_LINE_STAT_a_valid) 0).raise (if b then 67 else 66) 1 0xFFFF
      (detail [(4, s.thetaOf (if b then 2 else 1))])).lineSelect

/-- LINE_OFFSET_DELIVERY (R349, R350): the measured offset of domain A or B in ns, the rate of line time against cell time
that the time base has tracked (log entry 33), and whether the port is in the SLAVE state. -/
def execLineOffsetDelivery (b : Bool) (theta : DWord) (rate : Word) (slave : Bool) (s : State) :
    Host.Outcome State Fault Refusal :=
  let i := b2n b
  if !s.on F.TIM_PTP_enable i then .next s
  else
    let d := s.domain b
    let was := s.domainValid b
    let s := s.setDomain b { d with
      theta := theta.toInt * 2 ^ 32
      rate := rate.toInt
      last := theta.toInt
      delivered := s.tick
      since := if was then d.since else s.tick }
    let s := s.wr F.TIM_LINE_OFS_theta (s.thetaOf (i + 1)) i
    if slave then .next (s.wr (if b then F.TIM_LINE_STAT_b_valid else F.TIM_LINE_STAT_a_valid) 1).lineSelect
    else .next (s.domainDown b)

/-- DOMAIN_LOSS (R350): `loss` seconds without an offset. -/
def execDomainLoss (b : Bool) (s : State) : Host.Outcome State Fault Refusal :=
  if !s.domainValid b then .next s
  else .next ((s.advanceTo ((s.domain b).delivered + sec (s.rd F.TIM_LINE_CFG_loss))).domainDown b)

/-- DOMAIN_REVERT (R350): A has been valid for the revert time without a break. -/
def execDomainRevert (s : State) : Host.Outcome State Fault Refusal :=
  let n := s.rd F.TIM_LINE_CFG_revert_log2
  if s.rd F.TIM_LINE_CFG_select ≠ 0 ∨ s.rd F.TIM_LINE_STAT_selected ≠ 2 ∨ !s.domainValid false ∨ n = 0 then .next s
  else .next ((s.advanceTo (s.tim.domA.since + sec (2 ^ (n + 1)))).selectLine 1)

/-- ρ moves by `d`: the tracked rates of line time against cell time move against it. -/
def State.moveRho (s : State) (rho : Int) : State :=
  let d := rho - s.rdS F.TIM_RATE_rho
  let a := s.domain false
  let b := s.domain true
  ((s.setDomain false { a with rate := a.rate - d }).setDomain true { b with rate := b.rate - d }).wrS F.TIM_RATE_rho rho

/-- The steering of one cell cycle (R351): ρ moves so that dθ/dt = −θ/τ, within `slope`, `slew_max` and ±500 ppm.  In
units of 2⁻³² ns per tick, 1 ppm is 10,737.41824 and 1 ns of θ per second is 10.73741824. -/
def State.steer (s : State) : State :=
  let track := fun (s : State) (b : Bool) =>
    let d := s.domain b
    if s.domainValid b then s.setDomain b { d with theta := d.theta + d.rate * (s.tim.cycleNs * 2 / 5 : Nat) } else s
  let s := track (track s false) true
  let sel := s.rd F.TIM_LINE_STAT_selected
  if !s.on F.TIM_STAT_master ∨ !s.on F.TIM_STAT_locked ∨ sel = 0 ∨ s.mode = 5 then s
  else
    let d := s.domain (sel == 2)
    let rho := s.rdS F.TIM_RATE_rho
    let want := rho + d.rate
      + tdiv (d.theta * 1073741824) (100000000 * 2 ^ s.rd F.TIM_LINE_CFG_tau_log2 * 2 ^ 32)
    let bound : Int := min 5368709 ((min 250 (s.rd F.TIM_LINE_CFG_slew_max) * 10737418240 / 1000000 : Nat) : Int)
    let slope : Int := (s.rd F.TIM_LINE_CFG_slope * 1073741824 / 1000000 : Nat)
    let new := clampI (-bound) bound (clampI (rho - slope) (rho + slope) want)
    let held := decide (want < -bound ∨ bound < want)
    let was := s.on F.TIM_STAT_rate_limit
    let s := (s.moveRho new).put F.TIM_STAT_rate_limit held
    if held && !was then
      s.raise 65 1 0xFFFF (detail [(0, 0), (4, i32 (tdiv (new * 1000000) 1073741824))])
    else s

/-! ## Compare units (R345 to R347) -/

def State.cmpTarget (s : State) (u : Nat) : Nat := s.rd64 F.TIM_CMP_T_LO_t F.TIM_CMP_T_HI_t u

/-- Cell nanoseconds less the target, signed (R346). -/
def State.cmpDiff (s : State) (u : Nat) : Int := cellDiff s.cellNs (s.cmpTarget u)

/-- The target of a wake signal is new again. -/
def State.unwake (s : State) (u : Nat) : State :=
  { s with tim := { s.tim with waked := store (fun _ => false) s.tim.waked u false } }

/-- A unit takes its next target, or disarms (R346, R347). -/
def State.cmpReload (s : State) (u : Nat) : State :=
  let per := s.rd F.TIM_CMP_PER_period u
  if per = 0 then s.wr F.TIM_CMP_CFG_arm 0 u
  else
    let p := max 100 per
    let next := uns 64 (s.cmpTarget u + p : Nat)
    let d := cellDiff s.cellNs next
    let skip := if d < 0 then 0 else d.toNat / p + 1
    let s := (s.wr64 F.TIM_CMP_T_LO_t F.TIM_CMP_T_HI_t (uns 64 (next + skip * p : Nat)) u).unwake u
    if skip = 0 then s else s.raise 69 2 u (detail [(0, 2), (4, skip)])

/-- What a match does (R345). -/
def State.cmpAct (s : State) (u : Nat) : State :=
  let a := s.rd F.TIM_CMP_CFG_action u
  let t := s.rd F.TIM_CMP_CFG_target u
  if a = 1 ∧ t < 4 then
    if s.on F.TIM_TPO_CFG_enable t then
      let w := s.tick + us (max 1 (s.rd F.TIM_TPO_CFG_width t))
      { s with tim := { s.tim with pulse := store (fun _ => none) s.tim.pulse t (some w) } }
    else s
  else if a = 2 ∧ t < 2 then s.adcMatch t
  else if a = 3 ∧ s.rd F.TMP_START_seg_mask t = 0 then s.setEng t { s.eng t with kick := true }
  else s

/-- A unit matches (R345 to R347). -/
def State.cmpFire (s : State) (u : Nat) : State := ((s.wr F.TIM_CMP_CFG_fired 1 u).cmpAct u).cmpReload u

/-- COMPARE_ARM (R347): units 0 and 1 are fixed (R345). -/
def execCompareArm (u : Fin 32) (s : State) : Host.Outcome State Fault Refusal :=
  if u.val < 2 ∨ s.on F.TIM_CMP_CFG_arm u then .next s
  else
    let s := (s.wr F.TIM_CMP_CFG_arm 1 u).unwake u
    if s.cmpDiff u < 0 then .next s
    else
      let s := ((s.ticks 1).wrBit F.TIM_ERR_cmp_late u true).raise 69 1 u (detail [(0, 1)])
      .next (s.cmpFire u)

/-- COMPARE_DISARM (R347): it loses to a match in the same tick. -/
def execCompareDisarm (u : Fin 32) (s : State) : Host.Outcome State Fault Refusal :=
  if u.val < 2 ∨ !s.on F.TIM_CMP_CFG_arm u then .next s
  else if 0 ≤ s.cmpDiff u then .next ((s.cmpFire u).wr F.TIM_CMP_CFG_arm 0 u)
  else .next (s.wr F.TIM_CMP_CFG_arm 0 u)

/-- COMPARE_MATCH (R346): never early. -/
def execCompareMatch (u : Fin 32) (s : State) : Host.Outcome State Fault Refusal :=
  if u.val < 2 ∨ !s.on F.TIM_CMP_CFG_arm u then .next s
  else .next ((s.advanceCell (s.cmpTarget u)).cmpFire u)

/-- ADC_WAKE (R345, R413): 2,000 ns before the match of a unit with action 2, once per target. -/
def execAdcWake (u : Fin 32) (s : State) : Host.Outcome State Fault Refusal :=
  let q := s.rd F.TIM_CMP_CFG_target u
  if u.val < 2 ∨ !s.on F.TIM_CMP_CFG_arm u ∨ s.rd F.TIM_CMP_CFG_action u ≠ 2 ∨ 2 ≤ q
      ∨ lookup (fun _ => false) s.tim.waked u then .next s
  else
    let s := s.advanceCell (uns 64 ((s.cmpTarget u : Int) - 2000))
    let s := { s with tim := { s.tim with waked := store (fun _ => false) s.tim.waked u true } }
    .next (if s.on F.ADC_SEQ_CTL_enable q ∧ s.rd F.ADC_SEQ_CFG_trig q = 1 then s.adcWake q else s)

/-! ## Capture units (R348) -/

def State.capUnit (s : State) (u : Nat) : CapUnit := lookup (fun _ => {}) s.tim.cap u

def State.setCapUnit (s : State) (u : Nat) (v : CapUnit) : State :=
  { s with tim := { s.tim with cap := store (fun _ => {}) s.tim.cap u v } }

/-- The oldest capture goes to its mailbox while that is Empty (R348). -/
def State.capOffer (s : State) (u : Nat) : State :=
  let x := s.capUnit u
  match x.queue with
  | [] => s
  | c :: rest =>
    if (s.mailbox (128 + u)).st ≠ .empty then s
    else
      let s := (s.setCapUnit u { x with queue := rest }).wr F.TIM_CAP_STAT_queued rest.length u
      s.post (128 + u) (words64 c.time ++ [BitVec.ofNat 32 (b2n c.rising + 256 * min 255 c.lost)])

/-- CAPTURE_EDGE (R348): an edge of the unit's source that reaches the ball at `te`. -/
def execCaptureEdge (u : Fin 16) (rising : Bool) (te : DWord) (skew : Fin 3) (s : State) :
    Host.Outcome State Fault Refusal :=
  if !s.on F.TIM_CAP_CFG_enable u || !bitAt (s.rd F.TIM_CAP_CFG_edge u) (if rising then 0 else 1) then .next s
  else
    let t := uns 64 (te.toNat + skew.val : Nat)
    let s := (s.advanceCell t).ticks (s.rd F.TIM_CAP_CFG_filt u)
    let x := s.capUnit u
    if 8 ≤ x.queue.length then
      let told := s.on F.TIM_CAP_STAT_lost u
      let s := (s.setCapUnit u { x with lostSince := x.lostSince + 1 }).bump F.TIM_CAP_STAT_lost u
      .next (if told then s else s.raise 70 1 u 0)
    else
      let c : Capture := { time := t, rising := rising, lost := x.lostSince }
      let s := s.setCapUnit u { x with queue := x.queue ++ [c], lostSince := 0 }
      .next ((s.wr F.TIM_CAP_STAT_queued (x.queue.length + 1) u).capOffer u)

/-! ## Cycle, snapshot and pulses -/

/-- CYCLE_WRITE (R34, R355): ignored while a segment runs, or outside the range and steps of R34. -/
def execCycleWrite (m : Master) (v : Word) (s : State) : Host.Outcome State Fault Refusal :=
  let n := v.toNat % 2 ^ 22
  if !s.privileged m then .next (s.pvDropped m false true F.TIM_CYCLE_ns.off)
  else if n < 62500 ∨ 4000000 < n ∨ n % 25 ≠ 0 ∨ (List.range 8).any (fun g => !s.on F.CMB_SEG_STAT_stopped g) then
    .next (s.wrIgnored .plain 0 F.TIM_CYCLE_ns.off)
  else .next (s.wr F.TIM_CYCLE_ns n)

/-- Nanoseconds, seconds and fraction of cell time (R340). -/
def State.nowNs (s : State) : Nat := s.tim.cell / 2 ^ 32 % 1000000000
def State.nowSec (s : State) : Nat := s.tim.cell / 2 ^ 32 / 1000000000
def State.nowFrac (s : State) : Nat := s.tim.cell % 2 ^ 32

/-- TIME_SNAPSHOT_READ (R355). -/
def execTimeSnapshotRead (m : Master) (s : State) : Host.Outcome State Fault Refusal :=
  .next { s with
    rdata := BitVec.ofNat 32 s.nowNs
    tim := { s.tim with snapshot := store (fun _ => (0, 0)) s.tim.snapshot (readerKey m) (s.nowSec, s.nowFrac) } }

/-- What TIM_NOW_SEC_LO, TIM_NOW_SEC_HI and TIM_NOW_FRAC return to a master (R355). -/
def State.snapshotRead (s : State) (m : Master) (off : Nat) : Option Word :=
  let p := lookup (fun _ => (0, 0)) s.tim.snapshot (readerKey m)
  if off = F.TIM_NOW_SEC_LO_sec.off then some (BitVec.ofNat 32 p.1)
  else if off = F.TIM_NOW_SEC_HI_sec.off then some (BitVec.ofNat 32 (p.1 / 2 ^ 32))
  else if off = F.TIM_NOW_FRAC_frac.off then some (BitVec.ofNat 32 p.2)
  else none

/-- TPO_PULSE_END (R352). -/
def execTpoPulseEnd (p : Fin 4) (s : State) : Host.Outcome State Fault Refusal :=
  match lookup (fun _ => none) s.tim.pulse p with
  | none => .next s
  | some t =>
    let s := s.advanceTo t
    .next { s with tim := { s.tim with pulse := store (fun _ => none) s.tim.pulse p none } }

/-! ## Ethernet (R349, R353, R354) -/

/-- ETH_LINK_CHANGE (R354): the port's link, lock, loss of signal and module presence. -/
def execEthLinkChange (n : Fin 2) (link lock los present : Bool) (s : State) : Host.Outcome State Fault Refusal :=
  let was := s.on F.ETH_STAT_link n
  let s := (((s.put F.ETH_STAT_link link n).put F.ETH_STAT_lock lock n).put F.ETH_STAT_los los n).put
    F.ETH_STAT_present present n
  .next (if link = was then s else s.wr F.ETH_STAT_link_chg 1 n)

/-- The offset of a frame's EtherType: after the addresses and at most one VLAN tag (R353). -/
def typeOffset (f : List Byte) : Nat := if byteAt f 12 = 0x81 ∧ byteAt f 13 = 0 then 16 else 12

/-- A frame's EtherType, first byte most significant. -/
def etherType (f : List Byte) : Nat := 256 * byteAt f (typeOffset f) + byteAt f (typeOffset f + 1)

/-- A PTP event message: Sync, Delay_Req, Pdelay_Req or Pdelay_Resp, over EtherType 0x88F7 or UDP port 319 (R349). -/
def ptpEvent (f : List Byte) : Bool :=
  let o := typeOffset f + 2
  if etherType f = 0x88F7 then byteAt f o % 16 < 4
  else etherType f == 0x0800 && byteAt f (o + 9) == 17
    && 256 * byteAt f (o + byteAt f o % 16 * 4 + 2) + byteAt f (o + byteAt f o % 16 * 4 + 3) == 319

/-- The destination of zone messages (R353). -/
def State.zoneDst (s : State) : Nat := s.rd F.ETH_ZONE_DST_LO_addr + s.rd F.ETH_ZONE_DST_HI_addr * 2 ^ 32

/-- ETH_FRAME_RECEIVED (R349, R353): a frame of port `n` from its destination address to the end of its payload, whether
its FCS and coding are right, and whether cell firmware takes it. -/
def execEthFrameReceived (n : Fin 2) (frame : List Byte) (ok taken : Bool) (s : State) :
    Host.Outcome State Fault Refusal :=
  if !s.on F.ETH_CTL_enable n then .next s
  else if !ok then .next (s.bump F.ETH_ERR_fcs n)
  else
    let s := s.bump F.ETH_RX_FRAMES_count n
    let stamp := uns 64 ((s.cellNs : Int) - (s.rd F.TIM_PTP_LAT_ingress n / 10 : Nat))
    let s := if ptpEvent frame then { s with tim := { s.tim with ptp := store (fun _ => 0) s.tim.ptp n stamp } } else s
    let zone := s.on F.ETH_ZONE_CFG_enable && etherType frame == 0x88B5
    let named := s.rd F.ETH_ZONE_CFG_port == n.val
    let forZone := zone && named && field frame 0 6 == s.zoneDst
    if etherType frame = 0x8808 ∨ (zone && !named) ∨ 1518 < frame.length ∨ s.mode = 5 ∨ (!forZone && !taken) then
      .next (s.bump F.ETH_ERR_dropped n)
    else .next { s with tim := { s.tim with ethIn := s.tim.ethIn ++ [frame] } }

/-- A write of ETH_MDIO_CMD starts a management frame of 25.6 µs (R353, R354). -/
def State.mdioStart (s : State) (m : Master) (phy reg : BitVec 5) (op : Nat) (c45 : Bool) (data : BitVec 16) : State :=
  if !s.privileged m then s.pvDropped m false true F.ETH_MDIO_CMD_phy.off
  else if s.on F.ETH_MDIO_STAT_busy then s.wrIgnored .ethp 0 F.ETH_MDIO_CMD_phy.off
  else
    let w := phy.toNat + reg.toNat * 2 ^ 5 + op * 2 ^ 10 + b2n c45 * 2 ^ 12 + data.toNat * 2 ^ 16
    let s := s.setWord F.ETH_MDIO_CMD_phy.off (BitVec.ofNat 32 w)
    { s.wr F.ETH_MDIO_STAT_busy 1 with tim := { s.tim with mdio := some { op := op, cmd := w, endTick := s.tick + 10240 } } }

/-- MDIO_READ (R354). -/
def execMdioRead (m : Master) (phy reg : BitVec 5) (c45 : Bool) (s : State) : Host.Outcome State Fault Refusal :=
  .next (s.mdioStart m phy reg 0 c45 0)

/-- MDIO_WRITE (R354). -/
def execMdioWrite (m : Master) (phy reg : BitVec 5) (c45 : Bool) (data : BitVec 16) (s : State) :
    Host.Outcome State Fault Refusal := .next (s.mdioStart m phy reg 1 c45 data)

/-- MDIO_ADDRESS (R354): Clause 45 only. -/
def execMdioAddress (m : Master) (phy dev : BitVec 5) (reg : BitVec 16) (s : State) : Host.Outcome State Fault Refusal :=
  .next (s.mdioStart m phy dev 2 true reg)

/-- MDIO_FRAME_DONE (R354): what the PHY answers a read with, if one is there. -/
def execMdioFrameDone (answer : Option (BitVec 16)) (s : State) : Host.Outcome State Fault Refusal :=
  match s.tim.mdio with
  | none => .next s
  | some f =>
    let s := { (s.advanceTo f.endTick).wr F.ETH_MDIO_STAT_busy 0 with tim := { (s.advanceTo f.endTick).tim with mdio := none } }
    if f.op ≠ 0 then .next s
    else
      match answer with
      | some d => .next ((s.wr F.ETH_MDIO_STAT_data d.toNat).wr F.ETH_MDIO_STAT_noresp 0)
      | none => .next (s.wr F.ETH_MDIO_STAT_noresp 1)

end Sys2Proof.Machine
end

