-- ==== Sys2Proof/Machine/SchedLoad.lean ====
section
/-!
DEFINITION. Machine/SchedLoad.lean: loading a Combway schedule (R301, R305) and the schedule check of condition C4 (R306).
-/

namespace Sys2Proof.Machine

/-- The outcome of a check: none, or the check code with the index of the offending entry (R301). -/
abbrev SchedFault := Option (Nat × Nat)

namespace Sched

/-- The first index of a list at which a check fails. -/
def firstBad {α : Type} (p : Nat → α → Bool) : Nat → List α → Option Nat
  | _, [] => none
  | i, x :: l => if p i x then some i else firstBad p (i + 1) l

/-- A failed check with the index of its entry. -/
def failAt (code : Nat) (i : Option Nat) : SchedFault := i.map fun i => (code, i)

/-- A failed check that concerns no entry. -/
def failIf (code : Nat) (c : Bool) : SchedFault := if c then some (code, 0xFFFF) else none

/-- Check 1: format and reserved fields. -/
def check1 (b : List Byte) : SchedFault :=
  (failIf 1 (field b 0 2 != 1 || !zeroBytes b 10 2 || !zeroBytes b 30 2 || !zeroBytes b 52 12)).or <|
  (failAt 1 (firstBad (fun _ (e : SlotEnt) => decide (8 ≤ e.flags) || e.reserved != 0) 0 (slotEnts b))).or <|
  (failAt 1 (firstBad (fun _ (p : Place) => decide (2 ≤ p.b3) || (p.kind != 1 && p.eng != 0)) 0 (rx b))).or <|
  (failAt 1 (firstBad (fun _ (p : Place) => (p.kind != 1 && (p.eng != 0 || p.b3 != 0)) || (p.kind != 2 && p.arg != 0)) 0
    (tx b))).or <|
  failAt 1 (firstBad (fun _ (e : DynEnt) => e.reserved != 0) 0 (dyn b))

/-- Check 3: geometry and counts. -/
def check3 (b : List Byte) : Bool :=
  decide (1 < mode b) || decide (slots b < 8 ∨ 64 < slots b) || decide (slotLen b < (if mode b = 1 then 56 else 28))
    || decide (800 < slotLen b) || (mode b == 1 && slotLen b % 2 == 1) || decide (512 < minis b)
    || decide (1024 < nRx b) || decide (1024 < nTx b) || decide (512 < nDyn b)

/-- The sections with their sizes. -/
def sections (b : List Byte) : List (Nat × Nat) :=
  [(field b 32 4, 4 * slots b), (field b 36 4, 12 * nRx b), (field b 40 4, 12 * nTx b), (field b 44 4, 4 * nDyn b)]

/-- Two byte ranges overlap. -/
def overlap (a b : Nat × Nat) : Bool := decide (a.2 ≠ 0 ∧ b.2 ≠ 0 ∧ a.1 < b.1 + b.2 ∧ b.1 < a.1 + a.2)

/-- Whether an element of a list clashes with a later one. -/
def anyPair {α : Type} (p : α → α → Bool) : List α → Bool
  | [] => false
  | x :: l => l.any (p x) || anyPair p l

/-- Check 5: the sections lie inside the body, aligned and apart, and the body ends with the last. -/
def check5 (b : List Byte) : Bool :=
  let l := (0, 64) :: sections b
  (sections b).any (fun s => s.1 % 4 != 0 || decide (b.length < s.1 + s.2)) || anyPair overlap l
    || (l.filter (·.2 != 0)).foldl (fun m s => max m (s.1 + s.2)) 0 != b.length

/-- Check 6: owners and lengths. -/
def check6 (b : List Byte) : SchedFault :=
  (failAt 6 (firstBad (fun _ (e : SlotEnt) => decide (24 < e.owner) || (e.owner != 0 && decide (capacity b < e.len))) 0
    (slotEnts b))).or <|
  failIf 6 ((slotEnts b).all fun e => e.owner != own b)

/-- Check 7: the sync slots. -/
def check7 (b : List Byte) : SchedFault :=
  let l := syncSlots b
  (failIf 7 (decide (nSync b < 1 ∨ 3 < nSync b) || ((List.range 3).any fun i => decide (nSync b ≤ i) && byteAt b (21 + i) != 255)
    || anyPair (· == ·) l)).or <|
  ((failAt 7 (l.find? fun k => decide (slots b ≤ k) || (slot b k).owner == 0 || !bitAt (slot b k).flags 2))).or <|
  failIf 7 (anyPair (· == ·) (l.map fun k => (slot b k).owner))

/-- The space and range that a receive placement and its status word cover. -/
def rxCover (p : Place) : (Nat × Nat) × (Nat × Nat) :=
  let w := if bitAt p.b3 0 then 4 else 0
  ((p.kind, p.eng), (p.arg - w, p.len + w))

/-- Check 8: the receive placements. -/
def bad8 (b : List Byte) (i : Nat) (p : Place) : Bool :=
  let e := slot b p.slot
  let w := if bitAt p.b3 0 then 4 else 0
  decide (p.kind < 1 ∨ 3 < p.kind) || (p.kind == 1 && decide (63 < p.eng)) || decide (slots b ≤ p.slot) || e.owner == 0
    || e.owner == own b || decide (p.len < 1 ∨ 254 < p.len) || decide (e.len < p.off + p.len) || p.arg % 4 != 0
    || decide (p.arg < w) || decide ((if p.kind = 1 then 0x5000 else 8192) < p.arg + p.len)
    || (p.kind != 3 && !bitAt e.flags 0)
    || ((rx b).take i).any fun q => (rxCover q).1 == (rxCover p).1 && overlap (rxCover q).2 (rxCover p).2

/-- Check 9: the transmit placements. -/
def bad9 (b : List Byte) (i : Nat) (p : Place) : Bool :=
  decide (p.kind < 1 ∨ 3 < p.kind) || (p.kind == 1 && (decide (63 < p.eng) || decide (15 < p.b3) || p.len != 2))
    || (p.kind == 2 && decide (127 < p.arg)) || decide (slots b ≤ p.slot) || (slot b p.slot).owner != own b
    || decide (p.len < 1 ∨ 254 < p.len) || decide ((slot b p.slot).len < p.off + p.len)
    || ((tx b).take i).any fun q => q.slot == p.slot && overlap (q.off, q.len) (p.off, p.len)

/-- Check 10: the dynamic table. -/
def bad10 (b : List Byte) (i : Nat) (e : DynEnt) : Bool :=
  decide (e.id < 64 ∨ 63 + minis b < e.id) || ((dyn b).take i).any (·.id == e.id) || decide (e.owner < 1 ∨ 24 < e.owner)

/-- Check 13: what a staged schedule keeps (R305). -/
def check13 (b old : List Byte) : SchedFault :=
  (failIf 13 (mode b != mode old || own b != own old || slots b != slots old || slotLen b != slotLen old
    || minis b != minis old || cycle b != cycle old || syncSlots b != syncSlots old)).or <|
  (failAt 13 (firstBad (fun k (e : SlotEnt) => e.owner != (slot old k).owner) 0 (slotEnts b))).or <|
  failIf 13 (!((dyn b).all fun e => ownerOf old e.id == some e.owner) || !((dyn old).all fun e => ownerOf b e.id == some e.owner))

end Sched

/-- Check 11: the set-points of an engine are ready one transmit lead before the slot (R37, R306). -/
def State.bad11 (s : State) (g : Nat) (b : List Byte) (p : Place) : Bool :=
  let n := p.eng
  let mask := s.rd F.TMP_START_seg_mask n
  let ready := (List.range 8).foldl (fun m h =>
    if !mask.testBit h then m
    else if h = g then max m (Sched.fbc b)
    else match (s.seg h).sched with
      | some c => max m (Sched.fbc c)
      | none => m) 0
  p.kind == 1 && decide (((Sched.slotStart b p.slot : Nat) : Int) - 1000
    < ((ready + 20 + s.rd F.TMP_RUNTIME_declared n + 40 * (s.slotsOf n).length + 11 : Nat) : Int))

/-- Check 12: the safety tick point (R38, R306). -/
def State.bad12 (s : State) (g : Nat) (b : List Byte) : Bool :=
  let o := Sched.tickPoint b
  let c := Sched.cycle b
  let aligned := c % 250000 == 0 || 250000 % c == 0
  let others := (List.range 8).any fun h => h != g
    && (((s.seg h).sched.toList ++ (s.seg h).stagedSched.toList).any fun x =>
      Sched.tickPoint x != 0 && Sched.tickPoint x != o)
  o != 0 && (decide (c ≤ o) || (c % 250000 == 0 && decide (250000 ≤ o))
    || (aligned && decide (o < Sched.fbc b) && (Sched.slotEnts b).any fun e => bitAt e.flags 1) || others)

/-- The schedule check of R306, in order. -/
def State.schedCheck (s : State) (g : Nat) (stage : Bool) (b : List Byte) : SchedFault :=
  (Sched.check1 b).or <|
  (Sched.failIf 2 (byteAt b 2 != g || decide (Sched.own b < 1 ∨ 24 < Sched.own b))).or <|
  (Sched.failIf 3 (Sched.check3 b)).or <|
  (Sched.failIf 4 (Sched.cycle b != s.rd F.TIM_CYCLE_ns || decide (Sched.nit b < 2500))).or <|
  (Sched.failIf 5 (Sched.check5 b)).or <|
  (Sched.check6 b).or <|
  (Sched.check7 b).or <|
  (Sched.failAt 8 (Sched.firstBad (Sched.bad8 b) 0 (Sched.rx b))).or <|
  (Sched.failAt 9 (Sched.firstBad (Sched.bad9 b) 0 (Sched.tx b))).or <|
  (Sched.failAt 10 (Sched.firstBad (Sched.bad10 b) 0 (Sched.dyn b))).or <|
  (Sched.failAt 11 (Sched.firstBad (fun _ p => s.bad11 g b p) 0 (Sched.tx b))).or <|
  (Sched.failIf 12 (s.bad12 g b)).or <|
  (if stage then Sched.check13 b (s.sched g) else none)

/-- A schedule becomes the one of its segment: the registers that show it (R314). -/
def State.installSched (s : State) (g : Nat) (b : List Byte) : State :=
  let s := s.setSeg g { s.seg g with sched := some b }
  let s := ((s.wr F.CMB_SEG_STAT_loaded 1 g).wr F.CMB_SEG_STAT_line_mode (Sched.mode b) g).wr F.CMB_SEG_STAT_node (Sched.own b) g
  let s := (s.wr F.CMB_SLOT_LEN_len (Sched.slotLen b) g).wr F.CMB_SLOT_LEN_slots (Sched.slots b) g
  let s := (s.wr F.CMB_DYN_minislots (Sched.minis b) g).wr F.CMB_DYN_nit (Sched.nit b / 25).toNat g
  let s := (s.wr F.CMB_CYCLE_ns (Sched.cycle b) g).wr F.CMB_FBC_ns (Sched.fbc b) g
  (s.wr F.CMB_SCHED_ID_crc (crc32c b) g).wr F.CMB_SCHED_VER_version (Sched.version b) g

/-- SCHED_LOAD (R301, R305, R306). -/
def execSchedLoad (r : Fin 64) (io : HostIo) (s : State) : Host.Outcome State Fault Refusal :=
  .next (s.runDesc r 0x0501 fun s d => s.withBody d io fun s b =>
    let g := d.op 32 1
    let stage := bitAt (d.op 33 1) 0
    let ok := if stage then (s.mode == 2 || s.mode == 3) && (s.seg g).sched.isSome
      else s.mode == 2 && s.on F.CMB_SEG_STAT_stopped g
    if !ok then s.fail d.id 0x15
    else match s.schedCheck g stage b with
      | some (code, idx) => s.fail d.id 0x17 0xFFFF code idx
      | none =>
        let s := if stage then
            (s.setSeg g { s.seg g with stagedSched := some b, strobed := false }).wr F.CMB_SEG_STAT_staged 1 g
          else s.installSched g b
        s.complete d.id 1 0 (result [(16, 4, crc32c b)]))

end Sys2Proof.Machine
end

