-- ==== Sys2Proof/Machine/Datapath.lean ====
section
/-!
DEFINITION. Machine/Datapath.lean: the bundle operations of a Temper engine (chapter "Temper datapath programming"):
operands read at issue, results that land a fixed number of bundles later (R241), loops, delay slots, rotating registers,
owner-code rules.  Each operation is one command; `gap` is the number of bundles between the bundle of the operation
before it and its own, 0 for the same bundle (log entry 15).
-/

namespace Sys2Proof.Machine

/-- What an operation acts on: the datapath, the SRAM, the saturation default, and what it reports. -/
structure Px where
  dp : Dp
  mem : List Host.Cell
  saved : Option Dp := none
  satEn : Bool := true
  narrow : Bool := false
  trap : Bool := false
  free : Nat := 0
  deriving DecidableEq, Repr

/-! ## Registers (R228 to R230) -/

/-- The physical register that an operand names now (R229). -/
def Px.phys (p : Px) (r : Nat) : Nat := if r < 32 then r else 32 + (r - 32 + p.dp.rrb) % 32

/-- A data register by physical number. -/
def Dp.dreg (x : Dp) (r : Nat) : Word := lookup (fun _ => 0) x.d r

/-- The value of a data register operand. -/
def Px.reg (p : Px) (r : Nat) : Word := p.dp.dreg (p.phys r)

/-- The same as a signed integer. -/
def Px.regS (p : Px) (r : Nat) : Int := (p.reg r).toInt

/-- A pair names an even register, and in the rotating range rrb is even (R230). -/
def Px.pairOk (p : Px) (r : Nat) : Bool := r % 2 == 0 && (r < 32 || p.dp.rrb % 2 == 0)

/-- The upper register of a pair: the physical register that follows. -/
def Px.upper (p : Px) (r : Nat) : Nat := p.phys r + 1

def Px.addr (p : Px) (k : Nat) : Nat := lookup (fun _ => 0) p.dp.a k
def Px.modif (p : Px) (k : Nat) : Nat := lookup (fun _ => 0) p.dp.m k

/-- The operation is illegal: the engine traps with cause 2 (R240). -/
def Px.ill (p : Px) : Px := { p with trap := true }

/-- An operation with a condition under which it is illegal. -/
def Px.unless (p : Px) (bad : Bool) (f : Px → Px) : Px := if bad then p.ill else f p

/-- A result lands `k` bundles after issue (R241). -/
def Px.later (p : Px) (k : Nat) (l : Land) : Px :=
  { p with dp := { p.dp with flight := p.dp.flight ++ [(p.dp.clock + k, l)] } }

/-- A part of an accumulator replaced (control registers 10 to 15). -/
def accPart (a : BitVec 80) (part : Nat) (v : Word) : BitVec 80 :=
  if part = 2 then BitVec.ofNat 80 (a.toNat % 2 ^ 64 + (v.toNat % 2 ^ 16) * 2 ^ 64)
  else BitVec.ofNat 80 (a.toNat - (a.toNat / 2 ^ (32 * part) % 2 ^ 32) * 2 ^ (32 * part) + v.toNat * 2 ^ (32 * part))

/-- A control register written (R228); the reserved flag bits and the read-only bpc take nothing. -/
def Dp.setCtl (x : Dp) (num v : Nat) : Dp :=
  match num with
  | 0 => { x with lc0 := v % 2 ^ 16 }
  | 1 => { x with lc1 := v % 2 ^ 16 }
  | 2 => { x with ls0 := v % 2 ^ 12 }
  | 3 => { x with le0 := v % 2 ^ 12 }
  | 4 => { x with ls1 := v % 2 ^ 12 }
  | 5 => { x with le1 := v % 2 ^ 12 }
  | 6 => { x with rrb := v % 2 ^ 5 }
  | 7 => { x with z := v.testBit 0, n := v.testBit 1, act0 := v.testBit 2, act1 := v.testBit 3 }
  | 8 => { x with link := v % 2 ^ 12 }
  | _ => x

/-- A control register read (R228). -/
def Dp.ctl (x : Dp) (num : Nat) : Word :=
  let part := fun (a : BitVec 80) k => if k = 2 then BitVec.ofInt 32 (sgn 16 (a.toNat / 2 ^ 64))
    else BitVec.ofNat 32 (a.toNat / 2 ^ (32 * k))
  match num with
  | 0 => BitVec.ofNat 32 x.lc0
  | 1 => BitVec.ofNat 32 x.lc1
  | 2 => BitVec.ofNat 32 x.ls0
  | 3 => BitVec.ofNat 32 x.le0
  | 4 => BitVec.ofNat 32 x.ls1
  | 5 => BitVec.ofNat 32 x.le1
  | 6 => BitVec.ofNat 32 x.rrb
  | 7 => BitVec.ofNat 32 (b2n x.z + 2 * b2n x.n + 4 * b2n x.act0 + 8 * b2n x.act1)
  | 8 => BitVec.ofNat 32 x.link
  | 9 => BitVec.ofNat 32 x.bpc
  | 10 => part x.acc0 0
  | 11 => part x.acc0 1
  | 12 => part x.acc0 2
  | 13 => part x.acc1 0
  | 14 => part x.acc1 1
  | _ => part x.acc1 2

/-- One result lands. -/
def Px.land (p : Px) (l : Land) : Px :=
  let x := p.dp
  match l with
  | .data r v => { p with dp := { x with d := store (fun _ => 0) x.d r v } }
  | .addr k v => { p with dp := { x with a := store (fun _ => 0) x.a k (v % 2 ^ 17) } }
  | .modif k v => { p with dp := { x with m := store (fun _ => 0) x.m k (v % 2 ^ 17) } }
  | .acc k v => { p with dp := if k = 0 then { x with acc0 := v } else { x with acc1 := v } }
  | .accPart k q v =>
    if k = 0 then { p with dp := { x with acc0 := accPart x.acc0 q v, acc0i := accPart x.acc0i q v } }
    else { p with dp := { x with acc1 := accPart x.acc1 q v, acc1i := accPart x.acc1i q v } }
  | .ctl num v => { p with dp := x.setCtl num v }
  | .zn z n => { p with dp := { x with z := z, n := n } }
  | .mem a bs => { p with mem := writeBytes p.mem a bs }

/-- The results due by clock `t` land in issue order; of two that land together the later-issued prevails (R241). -/
def Px.landDue (p : Px) (t : Nat) : Px :=
  let due := p.dp.flight.filter fun f => f.1 ≤ t
  let p := { p with dp := { p.dp with flight := p.dp.flight.filter fun f => t < f.1 } }
  due.foldl (fun p f => p.land f.2) p

/-- Every issued operation completes (R243). -/
def Px.drain (p : Px) : Px :=
  let l := p.dp.flight
  let p := { p with dp := { p.dp with flight := [] } }
  l.foldl (fun p f => p.land f.2) p

/-! ## Sequencing (R237 to R239) -/

/-- The bundle after the present one in the absence of a transfer: loop back-edges, then the next bundle (R238). -/
def Dp.follow (x : Dp) : Dp :=
  let x := if x.act1 ∧ x.entering ≠ some 1 ∧ x.pc = x.le1 then { x with lc1 := x.lc1 - 1 } else x
  if x.act1 ∧ x.entering ≠ some 1 ∧ x.pc = x.le1 ∧ x.lc1 ≠ 0 then { x with pc := x.ls1 }
  else
    let x := if x.act1 ∧ x.entering ≠ some 1 ∧ x.pc = x.le1 then { x with act1 := false } else x
    let x' := if x.act0 ∧ x.entering ≠ some 0 ∧ x.pc = x.le0 then { x with lc0 := x.lc0 - 1 } else x
    if x.act0 ∧ x.entering ≠ some 0 ∧ x.pc = x.le0 ∧ x'.lc0 ≠ 0 then { x' with pc := x.ls0 }
    else
      let x' := if x.act0 ∧ x.entering ≠ some 0 ∧ x.pc = x.le0 then { x' with act0 := false } else x'
      { x' with pc := x.pc + 1 }

/-- The start of a body: with count 0 execution passes to the bundle after it (R238). -/
def Dp.enter (x : Dp) : Dp :=
  match x.entering with
  | some 0 => if x.pc = x.ls0 then
      (if x.lc0 = 0 then { x with entering := none, act0 := false, pc := x.le0 + 1 } else { x with entering := none })
    else x
  | some _ => if x.pc = x.ls1 then
      (if x.lc1 = 0 then { x with entering := none, act1 := false, pc := x.le1 + 1 } else { x with entering := none })
    else x
  | none => x

/-- The engine passes to the next bundle. -/
def Px.next (p : Px) : Px :=
  let x := p.dp
  let was := x.pc
  let p := { p with dp := { x with clock := x.clock + 1, atom := x.atom - 1 } }
  let p := match x.goal with
    | some (1, .bundle b h) => { p with dp := { p.dp.follow with goal := none, pc := b, inHook := p.dp.inHook && !h } }
    | some (1, .finish) => { p with dp := { p.dp with goal := none, run := 0 } }
    | some (1, .resume) =>
      match p.saved with
      | some y => { p with dp := { y with run := 2, pc := p.dp.bpc, bpc := p.dp.bpc, clock := p.dp.clock, flight := [] },
                           saved := none }
      | none => { p with dp := { p.dp with goal := none } }
    | some (k, g) => { p with dp := { p.dp.follow.enter with goal := some (k - 1, g) } }
    | none => { p with dp := p.dp.follow.enter }
  let p := p.landDue p.dp.clock
  if 4096 ≤ p.dp.pc then (if 2048 ≤ was then p.ill else { p with dp := { p.dp with pc := p.dp.pc % 4096 } }) else p

/-- `k` bundles pass. -/
def Px.advance : Nat → Px → Px
  | 0, p => p
  | k + 1, p => if p.trap then p else Px.advance k p.next

/-- The executing bundle lies in the owner code area (R227). -/
def Px.owner (p : Px) : Bool := 2048 ≤ p.dp.pc

/-! ## The address slot (R232, R233) -/

/-- The bits of a 17-bit value reversed. -/
def rev17 (v : Nat) : Nat := (List.range 17).foldl (fun a i => if v.testBit i then a + 2 ^ (16 - i) else a) 0

/-- Addition with reversed carry (R233). -/
def addRev (a m : Nat) : Nat := rev17 ((rev17 a + rev17 m) % 2 ^ 17)

/-- The pointer after an access (R233): mode 1 adds `inc` accesses of `size` bytes. -/
def Px.pointer (p : Px) (k mode size : Nat) (inc : Int) : Nat :=
  match mode with
  | 0 => p.addr k
  | 1 => uns 17 ((p.addr k : Int) + inc * size)
  | 2 => (p.addr k + p.modif k) % 2 ^ 17
  | _ => addRev (p.addr k) (p.modif k)

/-- The post-modified pointer lands one bundle later; mode 0 leaves it. -/
def Px.modify (p : Px) (k mode size : Nat) (inc : Int) : Px :=
  if mode = 0 then p else p.later 1 (.addr k (p.pointer k mode size inc))

/-- A load address is aligned and inside the map of R226. -/
def loadBad (a size : Nat) : Bool := a % size != 0 || 0x18000 ≤ a

/-- A store address is aligned, inside X and Y, and for owner code inside the owner area (R226, R227, R240). -/
def Px.storeBad (p : Px) (a size : Nat) : Bool :=
  a % size != 0 || 0x10000 ≤ a
    || (p.owner && !((0x7400 ≤ a && a + size ≤ 0x7E00) || (0xF000 ≤ a && a + size ≤ 0x10000)))

/-- The bytes at an address; the layout of laws in coefficient memory is open, so what is read there is free (log
entry 16). -/
def Px.fetch (p : Px) (a size : Nat) : Nat × Px :=
  if 0x10000 ≤ a then ((Config.freeDWord p.free).toNat % 2 ^ (8 * size), { p with free := p.free + 1 })
  else (le (readBytes p.mem a size), p)

/-- Increments are used in mode 1 only; in other modes ext is zero (R232). -/
def incBad (mode ext : Nat) : Bool := mode != 1 && ext != 0

/-- LD.W and LD.B: a value into a data register three bundles later. -/
def Px.loadOne (size : Nat) (ext' : Nat → Nat) (ax mode dd ext : Nat) (p : Px) : Px :=
  let a := p.addr ax
  p.unless (loadBad a size || incBad mode ext) fun p =>
    let (v, p) := p.fetch a size
    (p.later 3 (.data (p.phys dd) (BitVec.ofNat 32 (ext' v)))).modify ax mode size (sgn 10 ext)

def Px.ldW (ax mode dd ext : Nat) (p : Px) : Px := p.loadOne 4 id ax mode dd ext
def Px.ldB (ax mode dd ext : Nat) (p : Px) : Px := p.loadOne 1 (fun v => uns 32 (sgn 8 v)) ax mode dd ext

/-- The two words of a pair land three bundles later. -/
def Px.loadPair (p : Px) (dd v : Nat) : Px :=
  (p.later 3 (.data (p.phys dd) (BitVec.ofNat 32 v))).later 3 (.data (p.upper dd) (BitVec.ofNat 32 (v / 2 ^ 32)))

def Px.ldD (ax mode dd ext : Nat) (p : Px) : Px :=
  let a := p.addr ax
  p.unless (loadBad a 8 || incBad mode ext || !p.pairOk dd) fun p =>
    let (v, p) := p.fetch a 8
    (p.loadPair dd v).modify ax mode 8 (sgn 10 ext)

def Px.stW (ax mode dd ext : Nat) (p : Px) : Px :=
  let a := p.addr ax
  p.unless (p.storeBad a 4 || incBad mode ext) fun p =>
    (p.later 2 (.mem a (toBytes 4 (p.reg dd).toNat))).modify ax mode 4 (sgn 10 ext)

def Px.stD (ax mode dd ext : Nat) (p : Px) : Px :=
  let a := p.addr ax
  p.unless (p.storeBad a 8 || incBad mode ext || !p.pairOk dd) fun p =>
    (p.later 2 (.mem a (toBytes 4 (p.reg dd).toNat ++ toBytes 4 (p.dp.dreg (p.upper dd)).toNat))).modify ax mode 8
      (sgn 10 ext)

/-- LDXY: a pair from X or coefficient memory and a pair from Y; both pointers follow the mode. -/
def Px.ldXY (ax mode dd ext : Nat) (p : Px) : Px :=
  let ay := bitsOf ext 7 3
  let dq := 2 * bitsOf ext 2 5
  let a := p.addr ax
  let b := p.addr ay
  p.unless (loadBad a 8 || loadBad b 8 || (0x8000 ≤ a && a < 0x10000) || b < 0x8000 || 0x10000 ≤ b || ext % 4 != 0
      || !p.pairOk dd || !p.pairOk dq) fun p =>
    let (v, p) := p.fetch a 8
    let (w, p) := p.fetch b 8
    (((p.loadPair dd v).loadPair dq w).modify ax mode 8 1).modify ay mode 8 1

/-- An accumulator as its operations issued so far that have landed leave it. -/
def Px.acc (p : Px) (k : Nat) : Int := if k = 0 then p.dp.acc0.toInt else p.dp.acc1.toInt

/-- Narrowing (R236): the 32-bit result, and whether it overflowed. -/
def narrowTo (v : Int) (sh : Nat) (w24 sat : Bool) : Word × Bool :=
  let r := rhu v sh
  let n := if w24 then 24 else 32
  let outside := decide (r < -((2 ^ (n - 1) : Nat) : Int)) || decide (((2 ^ (n - 1) : Nat) : Int) ≤ r)
  let r := if outside && sat then clampI (-((2 ^ (n - 1) : Nat) : Int)) ((2 ^ (n - 1) : Nat) - 1) r else r
  (BitVec.ofNat 32 (if w24 then uns 24 r * 256 else uns 32 r), outside)

/-- Narrowing under a saturation mode: 0 follows sat_en, 1 saturates, 2 wraps (R236). -/
def Px.narrowOf (p : Px) (k sh mode : Nat) (w24 : Bool) : Word × Bool :=
  narrowTo (p.acc k) sh w24 (if mode = 0 then p.satEn else mode == 1)

/-- The pointer after ST.N or ST.NC: the manual gives mode 1 no increment field there, so it is free (log entry 17). -/
def Px.modifyN (p : Px) (k mode size : Nat) : Px :=
  if mode = 1 then
    { p with free := p.free + 1 }.later 1 (.addr k ((Config.freeWord p.free).toNat % 2 ^ 17))
  else p.modify k mode size 0

def Px.stN (ax mode dd ext : Nat) (p : Px) : Px :=
  let a := p.addr ax
  p.unless (p.storeBad a 4 || dd != 0 || bitsOf ext 2 2 == 3) fun p =>
    let (v, o) := p.narrowOf (bitsOf ext 1 1) (bitsOf ext 4 6) (bitsOf ext 2 2) (bitAt ext 0)
    ({ p with narrow := p.narrow || o }.later 2 (.mem a (toBytes 4 v.toNat))).modifyN ax mode 4

def Px.stNC (ax mode dd ext : Nat) (p : Px) : Px :=
  let a := p.addr ax
  p.unless (p.storeBad a 8 || dd != 0 || bitsOf ext 2 2 == 3 || bitAt ext 1) fun p =>
    let (v, o) := p.narrowOf 0 (bitsOf ext 4 6) (bitsOf ext 2 2) (bitAt ext 0)
    let (w, q) := p.narrowOf 1 (bitsOf ext 4 6) (bitsOf ext 2 2) (bitAt ext 0)
    ({ p with narrow := p.narrow || o || q }.later 2 (.mem a (toBytes 4 v.toNat ++ toBytes 4 w.toNat))).modifyN ax mode 8

def Px.amod (ax mode dd ext : Nat) (p : Px) : Px :=
  p.unless (mode != 0 || dd != 0) fun p => p.later 1 (.addr ax (uns 17 ((p.addr ax : Int) + sgn 10 ext)))

def Px.mva (ax mode dd ext : Nat) (p : Px) : Px :=
  p.unless (mode != 0 || ext != 0) fun p => p.later 1 (.addr ax (p.reg dd).toNat)

def Px.mvm (ax mode dd ext : Nat) (p : Px) : Px :=
  p.unless (mode != 0 || ext != 0) fun p => p.later 1 (.modif ax (p.reg dd).toNat)

def Px.mvd (ax mode dd ext : Nat) (p : Px) : Px :=
  p.unless (mode != 0 || ext != 0) fun p => p.later 1 (.data (p.phys dd) (BitVec.ofNat 32 (p.addr ax)))

def Px.mvmd (ax mode dd ext : Nat) (p : Px) : Px :=
  p.unless (mode != 0 || ext != 0) fun p => p.later 1 (.data (p.phys dd) (BitVec.ofNat 32 (p.modif ax)))

def Px.mvc (ax mode dd ext : Nat) (p : Px) : Px :=
  p.unless (ax != 0 || mode != 0 || 16 ≤ ext) fun p => p.later 1 (.data (p.phys dd) (p.dp.ctl ext))

/-- An accumulator operation issued within 3 bundles before (R240). -/
def recent (clock : Nat) : Option Nat → Bool
  | none => false
  | some t => t < clock && clock ≤ t + 3

def Px.mvcw (ax mode dd ext : Nat) (p : Px) : Px :=
  let bad := (ext == 9) || (10 ≤ ext && ext < 13 && recent p.dp.clock p.dp.accAt0)
    || (13 ≤ ext && recent p.dp.clock p.dp.accAt1)
  p.unless (ax != 0 || mode != 0 || 16 ≤ ext || bad) fun p =>
    if ext < 10 then p.later 1 (.ctl ext (p.reg dd).toNat)
    else p.later 1 (.accPart ((ext - 10) / 3) ((ext - 10) % 3) (p.reg dd))

/-! ## The multiply-accumulate slot (R234 to R236) -/

/-- The alignment k of a multiplying operation: immediate, or bits [4:0] of a register d0 to d31. -/
def Px.shiftOf (p : Px) (aux : Nat) : Nat :=
  if bitAt aux 5 then (p.dp.dreg (aux % 32)).toNat % 32 else aux % 32

/-- A product aligned by k (R235). -/
def alignProd (a b : Int) (k : Nat) : Int := if k ≤ 16 then a * b * (2 ^ (16 - k) : Nat) else (a * b) / (2 ^ (k - 16) : Nat)

/-- An operation on an accumulator: it acts on the result of the operation before it, visible four bundles later. -/
def Px.accOp (p : Px) (k : Nat) (f : Int → Int) : Px :=
  let x := p.dp
  if k = 0 then
    let v := BitVec.ofInt 80 (f x.acc0i.toInt)
    { p with dp := { x with acc0i := v, accAt0 := some x.clock } }.later 4 (.acc 0 v)
  else
    let v := BitVec.ofInt 80 (f x.acc1i.toInt)
    { p with dp := { x with acc1i := v, accAt1 := some x.clock } }.later 4 (.acc 1 v)

def Px.macReal (f : Int → Int → Int) (s1 s2 aux : Nat) (p : Px) : Px :=
  let q := alignProd (p.regS s1) (p.regS s2) (p.shiftOf aux)
  p.accOp (aux / 64) fun a => f a q

def Px.mul (s1 s2 aux : Nat) (p : Px) : Px := p.macReal (fun _ q => q) s1 s2 aux
def Px.mac (s1 s2 aux : Nat) (p : Px) : Px := p.macReal (fun a q => a + q) s1 s2 aux
def Px.msu (s1 s2 aux : Nat) (p : Px) : Px := p.macReal (fun a q => a - q) s1 s2 aux

def Px.hi (p : Px) (r : Nat) : Int := (p.dp.dreg (p.upper r)).toInt

def Px.dmac (s1 s2 aux : Nat) (p : Px) : Px :=
  p.unless (bitAt aux 6 || !p.pairOk s1 || !p.pairOk s2) fun p =>
    let k := p.shiftOf aux
    (p.accOp 0 fun a => a + alignProd (p.regS s1) (p.regS s2) k).accOp 1 fun a => a + alignProd (p.hi s1) (p.hi s2) k

/-- A complex product, each of its four products shifted alone (R235); `cj` conjugates s2, `add` keeps the sums. -/
def Px.complex (cj add : Bool) (s1 s2 aux : Nat) (p : Px) : Px :=
  p.unless (bitAt aux 6 || !p.pairOk s1 || !p.pairOk s2) fun p =>
    let k := p.shiftOf aux
    let ar := p.regS s1; let ai := p.hi s1; let br := p.regS s2
    let bi := if cj then -(p.hi s2) else p.hi s2
    let keep := fun (a : Int) => if add then a else 0
    (p.accOp 0 fun a => keep a + alignProd ar br k - alignProd ai bi k).accOp 1 fun a =>
      keep a + alignProd ar bi k + alignProd ai br k

def Px.cmul (s1 s2 aux : Nat) (p : Px) : Px := p.complex false false s1 s2 aux
def Px.cmac (s1 s2 aux : Nat) (p : Px) : Px := p.complex false true s1 s2 aux
def Px.cmacj (s1 s2 aux : Nat) (p : Px) : Px := p.complex true true s1 s2 aux

def Px.aclr (s1 s2 aux : Nat) (p : Px) : Px :=
  p.unless (s1 != 0 || s2 != 0 || 4 ≤ aux) fun p =>
    let p := if bitAt aux 0 then p.accOp 0 fun _ => 0 else p
    if bitAt aux 1 then p.accOp 1 fun _ => 0 else p

def Px.nrw (s1 s2 aux : Nat) (p : Px) : Px :=
  p.unless (aux % 8 != 0 || bitsOf aux 4 2 == 3) fun p =>
    let (v, o) := p.narrowOf (aux / 64) s2 (bitsOf aux 4 2) (bitAt aux 3)
    { p with narrow := p.narrow || o }.later 2 (.data (p.phys s1) v)

def Px.ash (s1 s2 aux : Nat) (p : Px) : Px :=
  p.unless (s1 != 0 || aux % 64 != 0) fun p =>
    let k := sgn 6 s2
    p.accOp (aux / 64) fun a => if 0 ≤ k then a * (2 ^ k.toNat : Nat) else a / (2 ^ (-k).toNat : Nat)

/-- A register result of the MAC slot, visible in the next bundle; aux bit 6 is zero. -/
def Px.alu (f : Int → Int → Int) (s1 s2 aux : Nat) (p : Px) : Px :=
  p.unless (bitAt aux 6) fun p =>
    p.later 1 (.data (p.phys aux) (BitVec.ofInt 32 (f (p.regS s1) (p.regS s2))))

def Px.add (s1 s2 aux : Nat) (p : Px) : Px := p.alu (fun a b => a + b) s1 s2 aux
def Px.sub (s1 s2 aux : Nat) (p : Px) : Px := p.alu (fun a b => a - b) s1 s2 aux
def Px.adds (s1 s2 aux : Nat) (p : Px) : Px := p.alu (fun a b => clampI (-2147483648) 2147483647 (a + b)) s1 s2 aux
def Px.subs (s1 s2 aux : Nat) (p : Px) : Px := p.alu (fun a b => clampI (-2147483648) 2147483647 (a - b)) s1 s2 aux

/-- A bitwise result. -/
def Px.bitwise (f : Word → Word → Word) (s1 s2 aux : Nat) (p : Px) : Px :=
  p.unless (bitAt aux 6) fun p => p.later 1 (.data (p.phys aux) (f (p.reg s1) (p.reg s2)))

def Px.and (s1 s2 aux : Nat) (p : Px) : Px := p.bitwise (· &&& ·) s1 s2 aux
def Px.or (s1 s2 aux : Nat) (p : Px) : Px := p.bitwise (· ||| ·) s1 s2 aux
def Px.xor (s1 s2 aux : Nat) (p : Px) : Px := p.bitwise (· ^^^ ·) s1 s2 aux
def Px.shl (s1 s2 aux : Nat) (p : Px) : Px := p.alu (fun a b => a * (2 ^ uns 5 b : Nat)) s1 s2 aux
def Px.shr (s1 s2 aux : Nat) (p : Px) : Px := p.alu (fun a b => a / (2 ^ uns 5 b : Nat)) s1 s2 aux
def Px.shrr (s1 s2 aux : Nat) (p : Px) : Px := p.alu (fun a b => rhu a (uns 5 b)) s1 s2 aux
def Px.min (s1 s2 aux : Nat) (p : Px) : Px := p.alu (fun a b => if a < b then a else b) s1 s2 aux
def Px.max (s1 s2 aux : Nat) (p : Px) : Px := p.alu (fun a b => if a < b then b else a) s1 s2 aux

/-- Redundant sign bits of an `n`-bit value: the bits below the sign that equal it, from the top. -/
def redundant (v : Int) : Nat → Nat
  | 0 => 0
  | k + 1 => if decide (-((2 ^ k : Nat) : Int) ≤ v) && decide (v < ((2 ^ k : Nat) : Int)) then redundant v k + 1 else 0

def Px.cls (s1 s2 aux : Nat) (p : Px) : Px :=
  p.unless (s2 != 0 || bitAt aux 6) fun p =>
    p.later 1 (.data (p.phys aux) (BitVec.ofNat 32 (redundant (p.regS s1) 31)))

def Px.clsa (s1 s2 aux : Nat) (p : Px) : Px :=
  p.unless (s1 != 0 || 2 ≤ s2 || bitAt aux 6) fun p =>
    p.later 2 (.data (p.phys aux) (BitVec.ofNat 32 (redundant (p.acc s2) 79)))

def Px.movi (s1 s2 aux : Nat) (p : Px) : Px :=
  p.later 1 (.data (p.phys s1) (BitVec.ofInt 32 (sgn 13 (s2 * 128 + aux))))

def Px.tst (s1 s2 aux : Nat) (p : Px) : Px :=
  p.unless (s2 != 0 || aux != 0) fun p => p.later 1 (.zn (p.reg s1 == 0) (decide (p.regS s1 < 0)))

/-! ## The control slot (R237 to R239) -/

/-- The bundle lies in the last two of an active loop body (R238). -/
def Dp.lastTwo (x : Dp) : Bool :=
  let inB := fun (act : Bool) (lv ls le : Nat) =>
    act && x.entering != some lv && ls ≤ x.pc && x.pc ≤ le && le ≤ x.pc + 1
  inB x.act0 0 x.ls0 x.le0 || inB x.act1 1 x.ls1 x.le1

/-- A control operation in a delay slot is illegal (R239). -/
def Px.control (p : Px) (bad : Bool) (f : Px → Px) : Px := p.unless (p.dp.goal.isSome || bad) f

/-- A control transfer: not in the last two bundles of a body and not in an ATOM window (R238, R243); from owner code
only to owner code, but for RET from a hook call (R227). -/
def Px.transfer (p : Px) (bad : Bool) (f : Px → Px) : Px := p.control (bad || p.dp.lastTwo || p.dp.atom != 0) f

/-- The target of a relative branch. -/
def Px.target (p : Px) (op : Nat) : Nat := uns 12 ((p.dp.pc : Int) + sgn 10 op)

/-- Leaving the owner code area. -/
def Px.escapes (p : Px) (t : Nat) : Bool := p.owner && t < 2048

def Px.goTo (p : Px) (g : Goal) : Px := { p with dp := { p.dp with goal := some (3, g) } }

/-- A branch taken under a condition on the flags at its issue. -/
def Px.branch (c : Bool) (op : Nat) (p : Px) : Px :=
  p.transfer (c && p.escapes (p.target op)) fun p => if c then p.goTo (.bundle (p.target op) false) else p

def Px.br (op : Nat) (p : Px) : Px := p.branch true op
def Px.bz (op : Nat) (p : Px) : Px := p.branch p.dp.z op
def Px.bnz (op : Nat) (p : Px) : Px := p.branch (!p.dp.z) op
def Px.bn (op : Nat) (p : Px) : Px := p.branch p.dp.n op
def Px.bnn (op : Nat) (p : Px) : Px := p.branch (!p.dp.n) op

def Px.call (op : Nat) (p : Px) : Px :=
  p.transfer (p.escapes (p.target op)) fun p =>
    let hook := !p.owner && 2048 ≤ p.target op
    ({ p with dp := { p.dp with link := (p.dp.pc + 3) % 4096, inHook := p.dp.inHook || hook } }).goTo
      (.bundle (p.target op) false)

def Px.ret (op : Nat) (p : Px) : Px :=
  let out := p.escapes p.dp.link
  p.transfer (op != 0 || (out && (!p.dp.inHook || p.dp.act0 || p.dp.act1))) fun p => p.goTo (.bundle p.dp.link out)

def Px.endp (op : Nat) (p : Px) : Px := p.transfer (op != 0) fun p => p.goTo .finish

/-- RBG is the runtime's only; it resumes the background program that was preempted (R237, R244). -/
def Px.rbg (op : Nat) (p : Px) : Px := p.transfer (op != 0 || p.owner) fun p => p.goTo .resume

def Px.lset (op : Nat) (p : Px) : Px :=
  p.control (bitsOf op 6 3 != 0) fun p =>
    let v := (p.reg (op % 64)).toNat % 2 ^ 16
    if bitAt op 9 then { p with dp := { p.dp with lset1 := some p.dp.clock } }.later 1 (.ctl 1 v)
    else { p with dp := { p.dp with lset0 := some p.dp.clock } }.later 1 (.ctl 0 v)

/-- LSET of the level within the bundle before (R238). -/
def tooSoon (clock : Nat) : Option Nat → Bool
  | none => false
  | some t => clock < t + 2

def Px.loop (op : Nat) (p : Px) : Px :=
  let x := p.dp
  let l := x.pc + bitsOf op 6 3 + 1
  let e := l + op % 64
  if bitAt op 9 then
    p.transfer (tooSoon x.clock x.lset1 || 4096 ≤ e || (x.act0 && (l < x.ls0 || x.le0 < e))) fun p =>
      { p with dp := { p.dp with ls1 := l, le1 := e, act1 := true, entering := some 1 } }
  else
    p.transfer (tooSoon x.clock x.lset0 || 4096 ≤ e || x.act1) fun p =>
      { p with dp := { p.dp with ls0 := l, le0 := e, act0 := true, entering := some 0 } }

def Px.rot (op : Nat) (p : Px) : Px :=
  p.control (bitsOf op 5 4 != 0) fun p =>
    p.later 1 (.ctl 6 (if bitAt op 9 then (p.dp.rrb + 32 - op % 32) % 32 else op % 32))

def Px.atom (op : Nat) (p : Px) : Px :=
  p.control (8 ≤ op || p.dp.atom != 0) fun p => { p with dp := { p.dp with atom := op % 8 + 2 } }

/-! ## Whole bundles, for hooks (R231, R248) -/

/-- The address operation of a bundle. -/
def Px.addrOp (op ax mode dd ext : Nat) (p : Px) : Px :=
  match op with
  | 0x00 => p.unless (ax != 0 || mode != 0 || dd != 0 || ext != 0) id
  | 0x01 => p.ldW ax mode dd ext
  | 0x02 => p.ldD ax mode dd ext
  | 0x03 => p.ldB ax mode dd ext
  | 0x04 => p.stW ax mode dd ext
  | 0x05 => p.stD ax mode dd ext
  | 0x06 => p.ldXY ax mode dd ext
  | 0x07 => p.stN ax mode dd ext
  | 0x08 => p.stNC ax mode dd ext
  | 0x09 => p.amod ax mode dd ext
  | 0x0A => p.mva ax mode dd ext
  | 0x0B => p.mvm ax mode dd ext
  | 0x0C => p.mvd ax mode dd ext
  | 0x0D => p.mvmd ax mode dd ext
  | 0x0E => p.mvc ax mode dd ext
  | 0x0F => p.mvcw ax mode dd ext
  | _ => p.ill

/-- The MAC operation of a bundle. -/
def Px.macOp (op s1 s2 aux : Nat) (p : Px) : Px :=
  match op with
  | 0x00 => p.unless (s1 != 0 || s2 != 0 || aux != 0) id
  | 0x01 => p.mul s1 s2 aux
  | 0x02 => p.mac s1 s2 aux
  | 0x03 => p.msu s1 s2 aux
  | 0x04 => p.dmac s1 s2 aux
  | 0x05 => p.cmul s1 s2 aux
  | 0x06 => p.cmac s1 s2 aux
  | 0x07 => p.cmacj s1 s2 aux
  | 0x08 => p.aclr s1 s2 aux
  | 0x09 => p.nrw s1 s2 aux
  | 0x0A => p.ash s1 s2 aux
  | 0x0B => p.add s1 s2 aux
  | 0x0C => p.sub s1 s2 aux
  | 0x0D => p.adds s1 s2 aux
  | 0x0E => p.subs s1 s2 aux
  | 0x0F => p.and s1 s2 aux
  | 0x10 => p.or s1 s2 aux
  | 0x11 => p.xor s1 s2 aux
  | 0x12 => p.shl s1 s2 aux
  | 0x13 => p.shr s1 s2 aux
  | 0x14 => p.shrr s1 s2 aux
  | 0x15 => p.min s1 s2 aux
  | 0x16 => p.max s1 s2 aux
  | 0x17 => p.cls s1 s2 aux
  | 0x18 => p.clsa s1 s2 aux
  | 0x19 => p.movi s1 s2 aux
  | 0x1A => p.tst s1 s2 aux
  | _ => p.ill

/-- The control operation of a bundle. -/
def Px.ctlOp (op x : Nat) (p : Px) : Px :=
  match op with
  | 0x0 => p.unless (x != 0) id
  | 0x1 => p.br x
  | 0x2 => p.bz x
  | 0x3 => p.bnz x
  | 0x4 => p.bn x
  | 0x5 => p.bnn x
  | 0x6 => p.call x
  | 0x7 => p.ret x
  | 0x8 => p.endp x
  | 0x9 => p.rbg x
  | 0xA => p.lset x
  | 0xB => p.loop x
  | 0xC => p.rot x
  | 0xD => p.atom x
  | _ => p.ill

/-- A 64-bit bundle issues (R231). -/
def Px.bundle (w : Nat) (p : Px) : Px :=
  ((p.addrOp (bitsOf w 59 5) (bitsOf w 56 3) (bitsOf w 54 2) (bitsOf w 48 6) (bitsOf w 38 10)).macOp (bitsOf w 33 5)
    (bitsOf w 27 6) (bitsOf w 21 6) (bitsOf w 14 7)).ctlOp (bitsOf w 10 4) (bitsOf w 0 10)

/-- A hook runs from its entry until its RET has taken effect, or until the fuel of one cell cycle is spent; the flag
tells that it returned, the number counts its bundles. -/
def Px.runHook (code : List Nat) : Nat → Px → Px × Bool × Nat
  | 0, p => (p, false, 0)
  | k + 1, p =>
    if p.trap then (p, true, 0)
    else if !p.dp.inHook then (p, true, 0)
    else
      let (q, r, n) := Px.runHook code k (p.bundle (code.getD (p.dp.pc - 2048) 0)).next
      (q, r, n + 1)

/-! ## The commands -/

/-- What engine `n`'s operations act on. -/
def State.px (s : State) (n : Nat) : Px :=
  { dp := (s.eng n).dp, mem := s.sramOf n, saved := (s.eng n).saved, satEn := s.on F.TMP_CTL_sat_en n, free := s.free }

/-- The results of operations enter the state: a narrowing that overflowed, a trap, an END that took effect (R203, R240,
R249). -/
def State.setPx (s : State) (n : Nat) (p : Px) : State :=
  let s := ({ s with free := p.free }.setSram n p.mem).setEng n { s.eng n with dp := p.dp, saved := p.saved }
  let s := if p.narrow then s.narrowSat n 0 else s
  let s := if p.dp.run = 0 ∧ s.on F.TMP_PROG_bg_active n then s.wr F.TMP_PROG_bg_active 0 n else s
  if p.trap then s.trapEngine n 2 else s

/-- Engine `n` issues an operation `gap` bundles after its last one; a trapped engine issues nothing (R215). -/
def State.issue (s : State) (n : Fin 64) (gap : BitVec 4) (f : Px → Px) : State :=
  if s.on F.TMP_STAT_trapped n then s else
  let p := Px.advance gap.toNat (s.px n)
  s.setPx n (if p.trap then p else f p)

/-- LD.W (R232, R233). -/
def execLdW (n : Fin 64) (gap : BitVec 4) (ax : BitVec 3) (mode : BitVec 2) (dd : BitVec 6) (ext : BitVec 10) (s : State) :
    Host.Outcome State Fault Refusal := .next (s.issue n gap (Px.ldW ax.toNat mode.toNat dd.toNat ext.toNat))

/-- LD.D (R232, R233). -/
def execLdD (n : Fin 64) (gap : BitVec 4) (ax : BitVec 3) (mode : BitVec 2) (dd : BitVec 6) (ext : BitVec 10) (s : State) :
    Host.Outcome State Fault Refusal := .next (s.issue n gap (Px.ldD ax.toNat mode.toNat dd.toNat ext.toNat))

/-- LD.B (R232, R233). -/
def execLdB (n : Fin 64) (gap : BitVec 4) (ax : BitVec 3) (mode : BitVec 2) (dd : BitVec 6) (ext : BitVec 10) (s : State) :
    Host.Outcome State Fault Refusal := .next (s.issue n gap (Px.ldB ax.toNat mode.toNat dd.toNat ext.toNat))

/-- ST.W (R232, R233). -/
def execStW (n : Fin 64) (gap : BitVec 4) (ax : BitVec 3) (mode : BitVec 2) (dd : BitVec 6) (ext : BitVec 10) (s : State) :
    Host.Outcome State Fault Refusal := .next (s.issue n gap (Px.stW ax.toNat mode.toNat dd.toNat ext.toNat))

/-- ST.D (R232, R233). -/
def execStD (n : Fin 64) (gap : BitVec 4) (ax : BitVec 3) (mode : BitVec 2) (dd : BitVec 6) (ext : BitVec 10) (s : State) :
    Host.Outcome State Fault Refusal := .next (s.issue n gap (Px.stD ax.toNat mode.toNat dd.toNat ext.toNat))

/-- LDXY (R232, R233). -/
def execLdxy (n : Fin 64) (gap : BitVec 4) (ax : BitVec 3) (mode : BitVec 2) (dd : BitVec 6) (ext : BitVec 10) (s : State) :
    Host.Outcome State Fault Refusal := .next (s.issue n gap (Px.ldXY ax.toNat mode.toNat dd.toNat ext.toNat))

/-- ST.N (R232, R233). -/
def execStN (n : Fin 64) (gap : BitVec 4) (ax : BitVec 3) (mode : BitVec 2) (dd : BitVec 6) (ext : BitVec 10) (s : State) :
    Host.Outcome State Fault Refusal := .next (s.issue n gap (Px.stN ax.toNat mode.toNat dd.toNat ext.toNat))

/-- ST.NC (R232, R233). -/
def execStNc (n : Fin 64) (gap : BitVec 4) (ax : BitVec 3) (mode : BitVec 2) (dd : BitVec 6) (ext : BitVec 10) (s : State) :
    Host.Outcome State Fault Refusal := .next (s.issue n gap (Px.stNC ax.toNat mode.toNat dd.toNat ext.toNat))

/-- AMOD (R232, R233). -/
def execAmod (n : Fin 64) (gap : BitVec 4) (ax : BitVec 3) (mode : BitVec 2) (dd : BitVec 6) (ext : BitVec 10) (s : State) :
    Host.Outcome State Fault Refusal := .next (s.issue n gap (Px.amod ax.toNat mode.toNat dd.toNat ext.toNat))

/-- MVA (R232, R233). -/
def execMva (n : Fin 64) (gap : BitVec 4) (ax : BitVec 3) (mode : BitVec 2) (dd : BitVec 6) (ext : BitVec 10) (s : State) :
    Host.Outcome State Fault Refusal := .next (s.issue n gap (Px.mva ax.toNat mode.toNat dd.toNat ext.toNat))

/-- MVM (R232, R233). -/
def execMvm (n : Fin 64) (gap : BitVec 4) (ax : BitVec 3) (mode : BitVec 2) (dd : BitVec 6) (ext : BitVec 10) (s : State) :
    Host.Outcome State Fault Refusal := .next (s.issue n gap (Px.mvm ax.toNat mode.toNat dd.toNat ext.toNat))

/-- MVD (R232, R233). -/
def execMvd (n : Fin 64) (gap : BitVec 4) (ax : BitVec 3) (mode : BitVec 2) (dd : BitVec 6) (ext : BitVec 10) (s : State) :
    Host.Outcome State Fault Refusal := .next (s.issue n gap (Px.mvd ax.toNat mode.toNat dd.toNat ext.toNat))

/-- MVMD (R232, R233). -/
def execMvmd (n : Fin 64) (gap : BitVec 4) (ax : BitVec 3) (mode : BitVec 2) (dd : BitVec 6) (ext : BitVec 10) (s : State) :
    Host.Outcome State Fault Refusal := .next (s.issue n gap (Px.mvmd ax.toNat mode.toNat dd.toNat ext.toNat))

/-- MVC (R232, R233). -/
def execMvc (n : Fin 64) (gap : BitVec 4) (ax : BitVec 3) (mode : BitVec 2) (dd : BitVec 6) (ext : BitVec 10) (s : State) :
    Host.Outcome State Fault Refusal := .next (s.issue n gap (Px.mvc ax.toNat mode.toNat dd.toNat ext.toNat))

/-- MVCW (R232, R233). -/
def execMvcw (n : Fin 64) (gap : BitVec 4) (ax : BitVec 3) (mode : BitVec 2) (dd : BitVec 6) (ext : BitVec 10) (s : State) :
    Host.Outcome State Fault Refusal := .next (s.issue n gap (Px.mvcw ax.toNat mode.toNat dd.toNat ext.toNat))

/-- MUL (R234 to R236). -/
def execMul (n : Fin 64) (gap : BitVec 4) (s1 s2 : BitVec 6) (aux : BitVec 7) (s : State) :
    Host.Outcome State Fault Refusal := .next (s.issue n gap (Px.mul s1.toNat s2.toNat aux.toNat))

/-- MAC (R234 to R236). -/
def execMac (n : Fin 64) (gap : BitVec 4) (s1 s2 : BitVec 6) (aux : BitVec 7) (s : State) :
    Host.Outcome State Fault Refusal := .next (s.issue n gap (Px.mac s1.toNat s2.toNat aux.toNat))

/-- MSU (R234 to R236). -/
def execMsu (n : Fin 64) (gap : BitVec 4) (s1 s2 : BitVec 6) (aux : BitVec 7) (s : State) :
    Host.Outcome State Fault Refusal := .next (s.issue n gap (Px.msu s1.toNat s2.toNat aux.toNat))

/-- DMAC (R234 to R236). -/
def execDmac (n : Fin 64) (gap : BitVec 4) (s1 s2 : BitVec 6) (aux : BitVec 7) (s : State) :
    Host.Outcome State Fault Refusal := .next (s.issue n gap (Px.dmac s1.toNat s2.toNat aux.toNat))

/-- CMUL (R234 to R236). -/
def execCmul (n : Fin 64) (gap : BitVec 4) (s1 s2 : BitVec 6) (aux : BitVec 7) (s : State) :
    Host.Outcome State Fault Refusal := .next (s.issue n gap (Px.cmul s1.toNat s2.toNat aux.toNat))

/-- CMAC (R234 to R236). -/
def execCmac (n : Fin 64) (gap : BitVec 4) (s1 s2 : BitVec 6) (aux : BitVec 7) (s : State) :
    Host.Outcome State Fault Refusal := .next (s.issue n gap (Px.cmac s1.toNat s2.toNat aux.toNat))

/-- CMACJ (R234 to R236). -/
def execCmacj (n : Fin 64) (gap : BitVec 4) (s1 s2 : BitVec 6) (aux : BitVec 7) (s : State) :
    Host.Outcome State Fault Refusal := .next (s.issue n gap (Px.cmacj s1.toNat s2.toNat aux.toNat))

/-- ACLR (R234 to R236). -/
def execAclr (n : Fin 64) (gap : BitVec 4) (s1 s2 : BitVec 6) (aux : BitVec 7) (s : State) :
    Host.Outcome State Fault Refusal := .next (s.issue n gap (Px.aclr s1.toNat s2.toNat aux.toNat))

/-- NRW (R234 to R236). -/
def execNrw (n : Fin 64) (gap : BitVec 4) (s1 s2 : BitVec 6) (aux : BitVec 7) (s : State) :
    Host.Outcome State Fault Refusal := .next (s.issue n gap (Px.nrw s1.toNat s2.toNat aux.toNat))

/-- ASH (R234 to R236). -/
def execAsh (n : Fin 64) (gap : BitVec 4) (s1 s2 : BitVec 6) (aux : BitVec 7) (s : State) :
    Host.Outcome State Fault Refusal := .next (s.issue n gap (Px.ash s1.toNat s2.toNat aux.toNat))

/-- ADD (R234 to R236). -/
def execAdd (n : Fin 64) (gap : BitVec 4) (s1 s2 : BitVec 6) (aux : BitVec 7) (s : State) :
    Host.Outcome State Fault Refusal := .next (s.issue n gap (Px.add s1.toNat s2.toNat aux.toNat))

/-- SUB (R234 to R236). -/
def execSub (n : Fin 64) (gap : BitVec 4) (s1 s2 : BitVec 6) (aux : BitVec 7) (s : State) :
    Host.Outcome State Fault Refusal := .next (s.issue n gap (Px.sub s1.toNat s2.toNat aux.toNat))

/-- ADDS (R234 to R236). -/
def execAdds (n : Fin 64) (gap : BitVec 4) (s1 s2 : BitVec 6) (aux : BitVec 7) (s : State) :
    Host.Outcome State Fault Refusal := .next (s.issue n gap (Px.adds s1.toNat s2.toNat aux.toNat))

/-- SUBS (R234 to R236). -/
def execSubs (n : Fin 64) (gap : BitVec 4) (s1 s2 : BitVec 6) (aux : BitVec 7) (s : State) :
    Host.Outcome State Fault Refusal := .next (s.issue n gap (Px.subs s1.toNat s2.toNat aux.toNat))

/-- AND (R234 to R236). -/
def execAnd (n : Fin 64) (gap : BitVec 4) (s1 s2 : BitVec 6) (aux : BitVec 7) (s : State) :
    Host.Outcome State Fault Refusal := .next (s.issue n gap (Px.and s1.toNat s2.toNat aux.toNat))

/-- OR (R234 to R236). -/
def execOr (n : Fin 64) (gap : BitVec 4) (s1 s2 : BitVec 6) (aux : BitVec 7) (s : State) :
    Host.Outcome State Fault Refusal := .next (s.issue n gap (Px.or s1.toNat s2.toNat aux.toNat))

/-- XOR (R234 to R236). -/
def execXor (n : Fin 64) (gap : BitVec 4) (s1 s2 : BitVec 6) (aux : BitVec 7) (s : State) :
    Host.Outcome State Fault Refusal := .next (s.issue n gap (Px.xor s1.toNat s2.toNat aux.toNat))

/-- SHL (R234 to R236). -/
def execShl (n : Fin 64) (gap : BitVec 4) (s1 s2 : BitVec 6) (aux : BitVec 7) (s : State) :
    Host.Outcome State Fault Refusal := .next (s.issue n gap (Px.shl s1.toNat s2.toNat aux.toNat))

/-- SHR (R234 to R236). -/
def execShr (n : Fin 64) (gap : BitVec 4) (s1 s2 : BitVec 6) (aux : BitVec 7) (s : State) :
    Host.Outcome State Fault Refusal := .next (s.issue n gap (Px.shr s1.toNat s2.toNat aux.toNat))

/-- SHRR (R234 to R236). -/
def execShrr (n : Fin 64) (gap : BitVec 4) (s1 s2 : BitVec 6) (aux : BitVec 7) (s : State) :
    Host.Outcome State Fault Refusal := .next (s.issue n gap (Px.shrr s1.toNat s2.toNat aux.toNat))

/-- MIN (R234 to R236). -/
def execMin (n : Fin 64) (gap : BitVec 4) (s1 s2 : BitVec 6) (aux : BitVec 7) (s : State) :
    Host.Outcome State Fault Refusal := .next (s.issue n gap (Px.min s1.toNat s2.toNat aux.toNat))

/-- MAX (R234 to R236). -/
def execMax (n : Fin 64) (gap : BitVec 4) (s1 s2 : BitVec 6) (aux : BitVec 7) (s : State) :
    Host.Outcome State Fault Refusal := .next (s.issue n gap (Px.max s1.toNat s2.toNat aux.toNat))

/-- CLS (R234 to R236). -/
def execCls (n : Fin 64) (gap : BitVec 4) (s1 s2 : BitVec 6) (aux : BitVec 7) (s : State) :
    Host.Outcome State Fault Refusal := .next (s.issue n gap (Px.cls s1.toNat s2.toNat aux.toNat))

/-- CLSA (R234 to R236). -/
def execClsa (n : Fin 64) (gap : BitVec 4) (s1 s2 : BitVec 6) (aux : BitVec 7) (s : State) :
    Host.Outcome State Fault Refusal := .next (s.issue n gap (Px.clsa s1.toNat s2.toNat aux.toNat))

/-- MOVI (R234 to R236). -/
def execMovi (n : Fin 64) (gap : BitVec 4) (s1 s2 : BitVec 6) (aux : BitVec 7) (s : State) :
    Host.Outcome State Fault Refusal := .next (s.issue n gap (Px.movi s1.toNat s2.toNat aux.toNat))

/-- TST (R234 to R236). -/
def execTst (n : Fin 64) (gap : BitVec 4) (s1 s2 : BitVec 6) (aux : BitVec 7) (s : State) :
    Host.Outcome State Fault Refusal := .next (s.issue n gap (Px.tst s1.toNat s2.toNat aux.toNat))

/-- BR (R237 to R239). -/
def execBr (n : Fin 64) (gap : BitVec 4) (op : BitVec 10) (s : State) :
    Host.Outcome State Fault Refusal := .next (s.issue n gap (Px.br op.toNat))

/-- BZ (R237 to R239). -/
def execBz (n : Fin 64) (gap : BitVec 4) (op : BitVec 10) (s : State) :
    Host.Outcome State Fault Refusal := .next (s.issue n gap (Px.bz op.toNat))

/-- BNZ (R237 to R239). -/
def execBnz (n : Fin 64) (gap : BitVec 4) (op : BitVec 10) (s : State) :
    Host.Outcome State Fault Refusal := .next (s.issue n gap (Px.bnz op.toNat))

/-- BN (R237 to R239). -/
def execBn (n : Fin 64) (gap : BitVec 4) (op : BitVec 10) (s : State) :
    Host.Outcome State Fault Refusal := .next (s.issue n gap (Px.bn op.toNat))

/-- BNN (R237 to R239). -/
def execBnn (n : Fin 64) (gap : BitVec 4) (op : BitVec 10) (s : State) :
    Host.Outcome State Fault Refusal := .next (s.issue n gap (Px.bnn op.toNat))

/-- CALL (R237 to R239). -/
def execCall (n : Fin 64) (gap : BitVec 4) (op : BitVec 10) (s : State) :
    Host.Outcome State Fault Refusal := .next (s.issue n gap (Px.call op.toNat))

/-- RET (R237 to R239). -/
def execRet (n : Fin 64) (gap : BitVec 4) (op : BitVec 10) (s : State) :
    Host.Outcome State Fault Refusal := .next (s.issue n gap (Px.ret op.toNat))

/-- END (R237 to R239). -/
def execEnd (n : Fin 64) (gap : BitVec 4) (op : BitVec 10) (s : State) :
    Host.Outcome State Fault Refusal := .next (s.issue n gap (Px.endp op.toNat))

/-- RBG (R237 to R239). -/
def execRbg (n : Fin 64) (gap : BitVec 4) (op : BitVec 10) (s : State) :
    Host.Outcome State Fault Refusal := .next (s.issue n gap (Px.rbg op.toNat))

/-- LSET (R237 to R239). -/
def execLset (n : Fin 64) (gap : BitVec 4) (op : BitVec 10) (s : State) :
    Host.Outcome State Fault Refusal := .next (s.issue n gap (Px.lset op.toNat))

/-- LOOP (R237 to R239). -/
def execLoop (n : Fin 64) (gap : BitVec 4) (op : BitVec 10) (s : State) :
    Host.Outcome State Fault Refusal := .next (s.issue n gap (Px.loop op.toNat))

/-- ROT (R237 to R239). -/
def execRot (n : Fin 64) (gap : BitVec 4) (op : BitVec 10) (s : State) :
    Host.Outcome State Fault Refusal := .next (s.issue n gap (Px.rot op.toNat))

/-- ATOM (R237 to R239). -/
def execAtom (n : Fin 64) (gap : BitVec 4) (op : BitVec 10) (s : State) :
    Host.Outcome State Fault Refusal := .next (s.issue n gap (Px.atom op.toNat))

end Sys2Proof.Machine
end

