-- ==== Sys2Proof/Machine/Chain.lean ====
section
/-!
DEFINITION. Machine/Chain.lean: what several chapters do to a chain: committed windows and their evaluation (R205 to
R211), ramps (R174, R177), segments and standstill (R163, R176 to R181), zones of a chain (R183 to R187).
-/

namespace Sys2Proof.Machine

/-! ## Exact fractions -/

def Q.of (x : Int) : Q := { num := x }
def Q.add (a b : Q) : Q := { num := a.num * b.den + b.num * a.den, den := a.den * b.den }
def Q.neg (a : Q) : Q := { a with num := -a.num }
def Q.sub (a b : Q) : Q := a.add b.neg
def Q.mul (a b : Q) : Q := { num := a.num * b.num, den := a.den * b.den }
/-- a ≤ b. -/
def Q.le (a b : Q) : Bool := a.num * b.den ≤ b.num * a.den
def Q.lt (a b : Q) : Bool := a.num * b.den < b.num * a.den
def Q.pow (a : Q) : Nat → Q
  | 0 => Q.of 1
  | n + 1 => a.mul (a.pow n)
/-- The quotient by a positive fraction. -/
def Q.div (a b : Q) : Q := { num := a.num * b.den * b.num.sign, den := a.den * b.num.natAbs }
def Q.frac (a : Int) (b : Nat) : Q := { num := a, den := b }
/-- A value of `k` fractional bits. -/
def Q.bits (a : Int) (k : Nat) : Q := { num := a, den := 2 ^ k }

/-- A fraction at `k` fractional bits; how the last bit is rounded is open, so a value between two is either neighbour
(log entry 18). -/
def State.near (s : State) (a : Q) (k : Nat) : Int × State :=
  let n := a.num * (2 ^ k : Nat)
  let f := n / (a.den : Int)
  if n % (a.den : Int) = 0 then (f, s) else (f + b2n (s.freshWord.toNat.testBit 0), s.drawn)

/-! ## Windows (R206, R207) -/

/-- A committed word: 2^d × w × 2^(−F) (R206). -/
def committed (f : Nat) (d w : Int) : Q :=
  if 0 ≤ d then Q.bits (w * (2 ^ d.toNat : Nat)) f else Q.bits w (f + (-d).toNat)

/-- A window from its 48 bytes (R206). -/
def windowOf (b : List Byte) (ready : Bool) : Window :=
  let f := byteAt b 12
  let w := fun i (d : Nat) => committed f (fieldS b d 1) (fieldS b (24 + 4 * i) 4)
  let off := Q.bits (field b 16 8) 32
  let ramp := byteAt b 49 == 1
  { t0 := field b 0 8, len := field b 8 4, ramp := ramp, ready := ready,
    s0 := off.add (w 0 13), v0 := w 1 14, a0 := w 2 15,
    s1 := if ramp then w 3 15 else off.add (w 3 13), v1 := w 4 (if ramp then 15 else 14), a1 := w 5 15 }

/-- Progress, its rate and its acceleration at fraction `u` of a solve window of `t` seconds (R207). -/
def quintic (w : Window) (t u : Q) : Q × Q × Q :=
  let k := Q.of
  let d := w.s1.sub w.s0
  let t2 := t.mul t
  let c1 := t.mul w.v0
  let c2 := (t2.mul w.a0).mul (Q.frac 1 2)
  let c3 := (((k 10).mul d).sub (t.mul (((k 6).mul w.v0).add ((k 4).mul w.v1)))).sub
    (t2.mul (((Q.frac 3 2).mul w.a0).sub ((Q.frac 1 2).mul w.a1)))
  let c4 := (((k (-15)).mul d).add (t.mul (((k 8).mul w.v0).add ((k 7).mul w.v1)))).add
    (t2.mul (((Q.frac 3 2).mul w.a0).sub w.a1))
  let c5 := (((k 6).mul d).sub ((t.mul (k 3)).mul (w.v0.add w.v1))).sub ((t2.mul (Q.frac 1 2)).mul (w.a0.sub w.a1))
  let p := fun n => u.pow n
  let s := ((((w.s0.add (c1.mul u)).add (c2.mul (p 2))).add (c3.mul (p 3))).add (c4.mul (p 4))).add (c5.mul (p 5))
  let v := (((c1.add ((k 2).mul (c2.mul u))).add ((k 3).mul (c3.mul (p 2)))).add ((k 4).mul (c4.mul (p 3)))).add
    ((k 5).mul (c5.mul (p 4)))
  let a := ((((k 2).mul c2).add ((k 6).mul (c3.mul u))).add ((k 12).mul (c4.mul (p 2)))).add ((k 20).mul (c5.mul (p 3)))
  (s, v.div t, a.div t2)

/-- The state of a ramp at `t` seconds while its rate is positive: jerk `s1` down to the limit `v1` (R207). -/
def rampFree (w : Window) (t : Q) : Q × Q × Q :=
  let at1 := fun (x : Q) =>
    let a := w.a0.add (w.s1.mul x)
    let v := (w.v0.add (w.a0.mul x)).add ((w.s1.mul (x.mul x)).mul (Q.frac 1 2))
    let s := ((w.s0.add (w.v0.mul x)).add ((w.a0.mul (x.mul x)).mul (Q.frac 1 2))).add
      ((w.s1.mul (x.pow 3)).mul (Q.frac 1 6))
    (s, v, a)
  let flat := fun (s v a x : Q) =>
    ((s.add (v.mul x)).add ((a.mul (x.mul x)).mul (Q.frac 1 2)), v.add (a.mul x), a)
  if w.a0.le w.v1 then flat w.s0 w.v0 w.v1 t
  else if w.s1.num = 0 then at1 t
  else
    let tj := (w.v1.sub w.a0).div w.s1
    if t.le tj then at1 t
    else
      let (s, v, _) := at1 tj
      flat s v w.v1 (t.sub tj)

/-- Bisection for the instant at which the rate of a ramp reaches 0. -/
def rampStop (w : Window) : Nat → Q → Q → Q
  | 0, lo, _ => lo
  | n + 1, lo, hi =>
    let m := (lo.add hi).mul (Q.frac 1 2)
    if (Q.of 0).lt (rampFree w m).2.1 then rampStop w n m hi else rampStop w n lo m

/-- Progress, rate and acceleration of a window at cell nanoseconds `t` (R207); beyond its length progress holds
(R211). -/
def Window.eval (w : Window) (t : Nat) : Q × Q × Q :=
  let dt := (cellDiff t w.t0).toNat
  if w.ramp then
    let x := Q.frac dt 1000000000
    let r := rampFree w x
    if (Q.of 0).lt r.2.1 then r
    else ((rampFree w (rampStop w 80 (Q.of 0) x)).1, Q.of 0, Q.of 0)
  else if w.len ≤ dt then (if w.len = dt then (w.s1, w.v1, w.a1) else (w.s1, Q.of 0, Q.of 0))
  else quintic w (Q.frac w.len 1000000000) (Q.frac dt w.len)

/-- A window has ended at `t` (R211). -/
def Window.past (w : Window) (t : Nat) : Bool :=
  !(w.ramp && w.len == 0xFFFFFFFF) && decide ((w.len : Int) < cellDiff t w.t0)

/-! ## Chains -/

def State.chain (s : State) (c : Nat) : Chain := lookup (fun _ => {}) s.plan.chain c

def State.setChain (s : State) (c : Nat) (v : Chain) : State :=
  { s with plan := { s.plan with chain := store (fun _ => {}) s.plan.chain c v } }

def State.swarm (s : State) (w : Nat) : Swarm := lookup (fun i => { warm := i }) s.plan.swarm w

def State.zoneEnt (s : State) (z : Nat) : Zone := lookup (fun _ => {}) s.plan.zone z

/-- The device's position in its cell and its cell identifier, from the safety parameter set (R377). -/
def State.position (s : State) : Nat := byteAt s.quench.set 14
def State.cellId (s : State) : Nat := field s.quench.set 12 2

/-- Axes of a chain (R22). -/
def State.chainAxes (s : State) (c : Nat) : Nat :=
  (List.range 64).foldl (fun a n => a + (s.chainSlots n c).length) 0

/-- The zone mask of a segment (R160). -/
def Seg.mask (g : Seg) : Nat := field g.bytes 32 4

/-- The deadline of a segment, which a zone request observes (R187); 0 for none. -/
def Seg.deadline (g : Seg) : Nat := field g.bytes 8 8

/-- Source 23: a chain enters HOLDING or HELD (R184). -/
def State.heldEvent (s : State) (c cause st : Nat) : State :=
  (s.setChain c { s.chain c with heldCause := cause }).raise 23 cause c (detail [(0, st)])

/-- A chain that is HELD is held for another cause as well (R446). -/
def State.heldAgain (s : State) (c cause : Nat) : State :=
  if cause = 7 then s else s.setChain c { s.chain c with heldCause := cause }

/-- The inline result of a segment (R164). -/
def segResult (rem len radius : Nat) : List Byte := result [(16, 4, rem), (20, 4, len), (24, 4, radius)]

/-- A segment completes (R163, R164, R181). -/
def State.endSeg (s : State) (g : Seg) (status rem len radius : Nat) : State :=
  s.complete g.desc status (if g.deferred then 8 else 0) (segResult rem len radius)

/-! ## Ramps (R174, R177) -/

/-- A ramp window of chain `c` replaces the pending window of every engine of the chain: it starts at `t0` from the
state that the committed plan gives there, with a deceleration that rises over `riseMs` to a limit.  The limit, a fraction
of the tightest axis limit along the path, is a free value (log entry 19). -/
def State.commitRamp (s : State) (c t0 riseMs : Nat) : State :=
  let amin := Q.frac (-((s.freshWord.toNat : Int) + 1)) (2 ^ 16)
  let j := amin.mul (Q.frac 1000 riseMs)
  (s.chainEngines c).foldl (fun s n =>
    let e := s.eng n
    let w := e.chainWin c
    match w.active with
    | none => s
    | some a =>
      let (p, v, acc) := a.eval t0
      let len := s.plan.windowTicks * s.plan.tickCycles * s.tim.cycleNs
      let r : Window := { t0 := t0, len := len, ramp := true, s0 := p, v0 := v, a0 := acc, s1 := j, v1 := amin,
                          a1 := Q.of 0, ready := true }
      s.setEng n (e.setChainWin c { w with pending := some r })) s.drawn

/-- The SENTINEL ramp of a chain is written: the values that a STOP ramp would take (R450, log entry 19). -/
def State.writeSentinelRamp (s : State) (c : Nat) : State :=
  let amin := Q.frac (-((s.freshWord.toNat : Int) + 1)) (2 ^ 16)
  (s.chainEngines c).foldl (fun s n =>
    let e := s.eng n
    let w := e.chainWin c
    s.setEng n (e.setChainWin c { w with sentinel := some (amin.mul (Q.frac 1000 4), amin) })) s.drawn

/-- The ramp of a chain goes on for another window from `t0` (R174). -/
def State.extendRamp (s : State) (c t0 : Nat) : State :=
  (s.chainEngines c).foldl (fun s n =>
    let e := s.eng n
    let w := e.chainWin c
    match w.active with
    | some a =>
      if !a.ramp || a.len == 0xFFFFFFFF || w.pending.isSome then s else
      let (p, v, acc) := a.eval t0
      let r : Window := { a with t0 := t0, s0 := p, v0 := v, a0 := acc }
      s.setEng n (e.setChainWin c { w with pending := some r })
    | none => s) s

/-- A chain that moves or waits is stopped by a ramp at the next common instant (R177). -/
def State.stopRamp (s : State) (c : Nat) : State :=
  let s := s.commitRamp c s.tim.instant 4
  s.setChain c { s.chain c with state := 5, holdDue := false }

/-! ## Zones of a chain (R183 to R187) -/

/-- The keeper of a zone is this device (R186). -/
def State.keeps (s : State) (z : Nat) : Bool :=
  let e := s.zoneEnt z
  if e.scope = 1 then true
  else if e.scope = 2 then e.pos == s.position
  else if e.scope = 3 then e.cell == s.cellId && s.position == 0
  else false

/-- The keeper of a zone: scope, device position, cell. -/
def State.keeperOf (s : State) (z : Nat) : Nat × Nat × Nat :=
  let e := s.zoneEnt z
  if e.scope = 1 then (1, s.position, s.cellId) else if e.scope = 2 then (2, e.pos, s.cellId) else (3, 0, e.cell)

def State.keeper (s : State) (z : Nat) : Keeper := lookup (fun _ => {}) s.plan.keeper z

def State.setKeeper (s : State) (z : Nat) (k : Keeper) : State :=
  { s with plan := { s.plan with keeper := store (fun _ => {}) s.plan.keeper z k } }

/-- This device's chain as a party. -/
def State.me (s : State) (c : Nat) : Party := { pos := s.position, chain := c, cell := s.cellId }

/-- A zone message (R188). -/
def zoneMsg (type z : Nat) (who : Party) (time seq : Nat) : List Byte :=
  toBytes 1 type ++ toBytes 1 z ++ toBytes 1 who.pos ++ toBytes 1 who.chain ++ toBytes 8 time ++ toBytes 2 who.cell
    ++ toBytes 2 seq ++ toBytes 8 0

/-- A message leaves for the zone's keeper or holders. -/
def State.sendZone (s : State) (m : List Byte) : State := { s with plan := { s.plan with out := s.plan.out ++ [m] } }

/-- Bits of a mask in ascending order. -/
def bitsIn (m : Nat) : List Nat := (List.range 32).filter fun z => m.testBit z

/-- The zones that a request asks of one keeper now: that of the lowest zone not obtained (R186). -/
def State.askNow (s : State) (q : ZoneReq) : List Nat :=
  let left := (bitsIn q.zones).filter fun z => !q.got.testBit z
  match left with
  | [] => []
  | z :: _ => left.filter fun y => s.keeperOf y == s.keeperOf z

/-- A request goes to its next keeper: own lists, or REQUEST messages (R186, R189). -/
def State.askKeeper (s : State) (c : Nat) : State :=
  match (s.chain c).req with
  | none => s
  | some q => (s.askNow q).foldl (fun s z =>
      if s.keeps z then
        let k := s.keeper z
        if k.waiting.any (fun a => a.who == s.me c && a.seq == q.seq) then s
        else s.setKeeper z { k with waiting := k.waiting ++ [{ who := s.me c, time := q.time, seq := q.seq }] }
      else s.sendZone (zoneMsg 1 z (s.me c) q.time q.seq)) s

/-- Zones are given up: a zone kept here is free at once, another's keeper is told (R184, R189). -/
def State.releaseZones (s : State) (c m : Nat) : State :=
  let ch := s.chain c
  let zs := (bitsIn m).filter fun z => ch.tokens.testBit z || (match ch.req with | some q => q.got.testBit z | none => false)
  let s := s.setChain c { ch with tokens := zs.foldl (fun t z => putBit t z false) ch.tokens,
                                  grants := ch.grants.filter fun g => !zs.contains g.1 }
  zs.foldl (fun s z =>
    if s.keeps z then s.setKeeper z { s.keeper z with holder := none }
    else { s with plan := { s.plan with releasing := s.plan.releasing ++ [(z, c)] } }.sendZone
      (zoneMsg 2 z (s.me c) 0 0)) s

/-- A waiting request is withdrawn and the parts already obtained are released (R187). -/
def State.withdraw (s : State) (c : Nat) : State :=
  match (s.chain c).req with
  | none => s
  | some q =>
    let s := s.releaseZones c q.got
    let s := s.setChain c { s.chain c with req := none }
    (bitsIn q.zones).foldl (fun s z =>
      if s.keeps z then
        let k := s.keeper z
        s.setKeeper z { k with waiting := k.waiting.filter fun a => !(a.who == s.me c && a.seq == q.seq) }
      else s.sendZone (zoneMsg 3 z (s.me c) q.time q.seq)) s

/-! ## Segments -/

/-- While an injection runs on an axis of the chain no segment of it starts (R217). -/
def State.injecting (s : State) (c : Nat) : Bool :=
  s.temper.tune.any fun t => t.inject && t.started && t.ending.isNone
    && s.on F.TMP_AX_CFG_in_chain t.engine t.slot && s.rd F.TMP_AX_CFG_chain t.engine t.slot == c

/-- The FENCE of a segment lets it start: every earlier descriptor of its ring has completed (R56). -/
def State.fenceOk (s : State) (c : Nat) (g : Seg) : Bool :=
  !bitAt (byteAt g.bytes 2) 2 || !s.hif.desc.any fun d => d.ring == c && d.id < g.desc

/-- A segment becomes the segment in progress: zones that its mask does not name are released (R184). -/
def State.startSeg (s : State) (c : Nat) (g : Seg) (rest : List Seg) : State :=
  let s := s.releaseZones c (bitsIn (s.chain c).tokens |>.foldl (fun m z => if g.mask.testBit z then m else m + 2 ^ z) 0)
  let s := s.setChain c { s.chain c with cur := some g, queue := rest, state := 1, pred := g.mask, startedAt := s.cellNs }
  match s.hif.desc.find? (·.id == g.desc) with
  | some d => s.startDesc d
  | none => s

/-- The next segment starts if its zones are granted; otherwise the chain waits, or is idle without one (R158, R183,
R184). -/
def State.startNext (s : State) (c : Nat) : State :=
  let ch := s.chain c
  match ch.queue with
  | [] => s.setChain c { ch with state := 0 }
  | g :: rest =>
    if !s.fenceOk c g || s.injecting c then s.setChain c { ch with state := 0 }
    else if g.mask &&& ch.tokens = g.mask then s.startSeg c g rest
    else s.setChain c { ch with state := 2 }

/-- A chain that is idle or waits takes up its next segment when it can. -/
def State.stir (s : State) (c : Nat) : State :=
  let ch := s.chain c
  if (ch.state = 0 ∨ ch.state = 2) ∧ ch.cur.isNone ∧ ch.halt.isNone ∧ !ch.queue.isEmpty then s.startNext c else s

/-- A token is granted to this device's chain (R183, R187). -/
def State.obtain (s : State) (c z : Nat) : State :=
  let ch := s.chain c
  match ch.req with
  | none => s
  | some q =>
    if !q.zones.testBit z || q.got.testBit z then s else
    let q := { q with got := q.got ||| 2 ^ z }
    let ch := { ch with grants := ch.grants ++ [(z, (s.cellNs, false))] }
    if q.got = q.zones then
      (s.setChain c { ch with req := none, tokens := ch.tokens ||| q.zones }).stir c
    else (s.setChain c { ch with req := some q }).askKeeper c

/-- The chain is held where it stands, with a cause (R184). -/
def State.holdHere (s : State) (c cause : Nat) : State :=
  (s.setChain c { s.chain c with state := 4, heldNext := none, holdDue := false, halt := none }).heldEvent c cause 4

/-- A segment that is not in progress is refused, and the chain is held at the hand-over point of its predecessor
(R162, R183, R187). -/
def State.refuseNext (s : State) (c status off cause : Nat) : State :=
  let ch := s.chain c
  match ch.queue with
  | [] => s
  | g :: rest =>
    let s := (s.withdraw c)
    let s := s.setChain c { s.chain c with queue := rest }
    let s := if 0x10 ≤ status ∧ status ≤ 0x18 then s.fail g.desc status off else s.endSeg g status 0 0 0
    if ch.cur.isSome then s.setChain c { s.chain c with heldNext := some cause } else s.holdHere c cause

/-! ## Holds and stops -/

/-- The chain goes to HOLD along its path with a cause, or a standing one is held at once (R26, R176). -/
def State.holdChain (s : State) (c cause : Nat) (desc : Option Nat) : State :=
  let ch := s.chain c
  match ch.state with
  | 0 => let s := s.holdHere c cause
    (match desc with | some d => s.complete d 1 | none => s)
  | 4 => let s := s.heldAgain c cause
    (match desc with | some d => s.complete d 1 | none => s)
  | _ =>
    let h := match ch.halt with
      | some h => { h with waiting := h.waiting ++ desc.toList }
      | none => { cause := cause, waiting := desc.toList }
    s.setChain c { ch with halt := some h, holdDue := ch.holdDue || (ch.state != 3 && ch.state != 5) }

/-- A chain is stopped as by STOP, with a cause and what follows at standstill (R177, R213). -/
def State.stopChain (s : State) (c : Nat) (h : Halt) : State :=
  let ch := s.chain c
  match ch.state with
  | 0 | 4 =>
    let s := if ch.state = 0 ∧ !h.cancel then s.holdHere c h.cause else if ch.state = 4 then s.heldAgain c h.cause else s
    h.waiting.foldl (fun s d => s.complete d 1) s
  | _ =>
    let h' := match ch.halt with
      | some o => { o with waiting := o.waiting ++ h.waiting, cancel := o.cancel || h.cancel, discard := o.discard || h.discard,
                           status := if h.status = some 0x30 ∧ o.status.isSome then some 0x30 else if h.discard then none else o.status }
      | none => h
    let s := s.setChain c { ch with halt := some h' }
    if ch.state = 5 then s else s.stopRamp c

/-- Every queued segment completes with 0x04 and the remainder goes (R179). -/
def State.discardAll (s : State) (c : Nat) : State :=
  let ch := s.chain c
  let s := (s.withdraw c)
  let s := s.setChain c { s.chain c with queue := [], kept := none, cur := none, state := 0, halt := none,
                                         heldNext := none, holdDue := false }
  ch.queue.foldl (fun s g => s.endSeg g 4 0 0 0) s

/-- A deferred smaller deceleration applies when its ramp ends (R181). -/
def State.applyLater (s : State) (c : Nat) : State :=
  let ch := s.chain c
  match ch.later with
  | some d => s.setChain c { ch with decel := d, later := none }
  | none => s

/-- A latched following error of every axis of a chain is cleared (R214). -/
def State.clearFe (s : State) (c : Nat) : State :=
  (List.range 64).foldl (fun s n => (s.chainSlots n c).foldl (fun s j =>
    (s.wr F.TMP_AX_STAT_fe_fault 0 n j).wr F.TMP_AX_STAT_fe_count 0 n j) s) s

/-- RESUME reaches a chain (R178, R214, R217). -/
def State.resumeChain (s : State) (c desc : Nat) : State :=
  let ch := s.chain c
  if s.injecting c then s.fail desc 0x15 else
  let s := s.clearFe c
  match ch.state with
  | 4 =>
    (match ch.kept with
     | some (g, _, _) =>
       let s := s.setChain c { ch with kept := none, state := 0 }
       s.startSeg c { g with desc := desc, deferred := false } ch.queue
     | none => ((s.setChain c { ch with state := 0 }).complete desc 1).startNext c)
  | 3 | 5 => s.setChain c { ch with resumes := ch.resumes ++ [desc] }
  | _ => s.complete desc 1

end Sys2Proof.Machine
end

