-- ==== Sys2Proof/Machine/Tongs.lean ====
section
/-!
DEFINITION. Machine/Tongs.lean: the Tongs feedback interface (R251 to R274): counting, index and Hall handling, SSI
frames, speed, records and mailboxes, probes.
-/

namespace Sys2Proof.Machine

def State.tngCh (s : State) (c : Nat) : TngCh := lookup (fun _ => {}) s.tongs.ch c

def State.setTngCh (s : State) (c : Nat) (v : TngCh) : State :=
  { s with tongs := { s.tongs with ch := store (fun _ => {}) s.tongs.ch c v } }

def State.tngOn (s : State) (c : Nat) : Bool := s.on F.TNG_CH_CTL_enable c

def State.tngMode (s : State) (c : Nat) : Nat := s.rd F.TNG_CH_CFG_mode c

/-- A channel or probe raises its source (R274). -/
def State.tngEvent (s : State) (code c : Nat) (d : DWord) : State := s.raise (72 + c / 4) code c d

/-! ## Position and speed (R252, R263 to R265) -/

/-- The position of a count: offset + ext × scale × 2^(−f), rounded half up to 32 fractional bits (R252). -/
def State.tngPos (s : State) (c ext : Nat) : Int :=
  sgn 64 (uns 64 ((s.rd64 F.TNG_CH_OFFSET_LO_offset F.TNG_CH_OFFSET_HI_offset c : Nat)
    + rhu (sgn 48 ext * (s.rd F.TNG_CH_SCALE_scale c : Nat)) (s.rd F.TNG_CH_CFG_scale_shift c - 32)))

/-- A quotient rounded half up and saturated to the velocity range of R10. -/
def velRound (num : Int) (den : Nat) : Int :=
  if den = 0 then (if num < 0 then -(2 ^ 31 : Int) else if num = 0 then 0 else 2 ^ 31 - 1)
  else clampI (-(2 ^ 31 : Int)) (2 ^ 31 - 1) ((2 * num + den) / (2 * den : Nat))

/-- The numerator and denominator of `m` counts in `dt` nanoseconds, in units of 2⁻²⁰ per second. -/
def State.tngRate (s : State) (c m dt : Nat) : Nat × Nat :=
  (m * s.rd F.TNG_CH_SCALE_scale c * (2 ^ 20 * 1000000000), 2 ^ s.rd F.TNG_CH_CFG_scale_shift c * dt)

/-- The time from one edge to another, in nanoseconds. -/
def edgeSpan (later earlier : Nat) : Nat := (cellDiff later earlier).toNat

/-- The count of edges back to t_F: the earliest within T_avg of the last, or else the edge before it; from 4 counts on, a
multiple of 4 (R263). -/
def countsBack (avg : Nat) : List Nat → Nat
  | [] => 0
  | last :: rest =>
    let n := (rest.takeWhile fun e => edgeSpan last e ≤ avg).length
    let m := if n = 0 then min 1 rest.length else n
    if m ≥ 4 then m / 4 * 4 else m

/-- T_ss has passed since the last edge (R264). -/
def State.standsStill (s : State) (c dt : Nat) : Bool :=
  let st := s.rd F.TNG_CH_SPD_stand c
  if st ≠ 0 then decide (st * 10000 ≤ dt)
  else
    let vmin := s.rd F.TNG_CH_VMIN_vmin c
    vmin != 0 && decide (2 * s.rd F.TNG_CH_SCALE_scale c * (2 ^ 20 * 1000000000)
      ≤ dt * vmin * 2 ^ s.rd F.TNG_CH_CFG_scale_shift c)

/-- T_ss in nanoseconds, rounded up; none while v_min gives none. -/
def State.tss (s : State) (c : Nat) : Option Nat :=
  let st := s.rd F.TNG_CH_SPD_stand c
  if st ≠ 0 then some (st * 10000)
  else
    let den := s.rd F.TNG_CH_VMIN_vmin c * 2 ^ s.rd F.TNG_CH_CFG_scale_shift c
    if den = 0 then none
    else some ((2 * s.rd F.TNG_CH_SCALE_scale c * (2 ^ 20 * 1000000000) + den - 1) / den)

/-- STANDSTILL is set once T_ss has passed (R264). -/
def State.tngStill (s : State) (c : Nat) : State :=
  let x := s.tngCh c
  match x.edges with
  | last :: _ =>
    if s.tngOn c && s.tngMode c != 2 && s.standsStill c (edgeSpan s.cellNs last) then
      s.setTngCh c { x with standstill := true }
    else s
  | [] => s

/-- The speed of a channel at the present time (R263 to R265). -/
def State.tngVel (s : State) (c : Nat) : Int :=
  let x := s.tngCh c
  if s.tngMode c = 2 then
    match x.frames with
    | (t1, p1) :: (t0, p0) :: _ => velRound (sgn 64 (uns 64 (p1 - p0)) * 1000000000) (4096 * edgeSpan t1 t0)
    | _ => x.early
  else if x.standstill || x.reversal then 0
  else
    match x.edges with
    | last :: before :: _ =>
      let m := countsBack (s.rd F.TNG_CH_SPD_avg c * 1000) x.edges
      let raw := s.tngRate c m (edgeSpan last (x.edges.getD m last))
      let dt := edgeSpan s.cellNs last
      let sign : Int := if x.up then 1 else -1
      let v := velRound (sign * raw.1) raw.2
      if edgeSpan last before < dt then
        let b := s.tngRate c 1 dt
        let w := velRound (sign * b.1) b.2
        if x.up then min v w else max v w
      else v
    | _ => 0

/-! ## Status, records and mailboxes (R266, R267, R271) -/

/-- The `valid` flag (R266). -/
def State.tngValid (s : State) (c : Nat) : Bool :=
  let x := s.tngCh c
  !((x.illegal && s.on F.TNG_CH_CFG_ill_inval c) || x.wire || x.hallIllegal || 2 ≤ x.rejects)

/-- The count that a sample of the present sample clock carries, and whether a correction follows it (R259). -/
def State.tngExt (s : State) (c : Nat) : Nat × Bool :=
  let x := s.tngCh c
  match x.corr with
  | some (t, _, e) => if t = s.tick then (e, true) else (x.ext, false)
  | none => (x.ext, false)

/-- The status word (R266). -/
def State.tngStatus (s : State) (c : Nat) : Nat :=
  let x := s.tngCh c
  b2n (s.tngValid c) + 2 * b2n x.standstill + 4 * b2n x.reversal + 8 * b2n x.illegal + 16 * b2n x.wire
    + 32 * b2n x.mismatch + 64 * b2n x.referenced + 128 * b2n x.stale + 256 * b2n x.index + 512 * b2n x.ssiErr
    + 1024 * b2n x.hallIllegal + (if s.tngMode c = 1 then x.levels.toNat * 2048 else 0)
    + 16384 * b2n (s.tngExt c).2

/-- Position, velocity and status word of a sample taken now. -/
def State.tngSample (s : State) (c : Nat) : Nat × Nat × Nat :=
  (uns 64 (s.tngPos c (s.tngExt c).1), i32 (s.tngVel c), s.tngStatus c)

/-- The 16 bytes of a Tongs record (R267). -/
def tngRecord (v : Nat × Nat × Nat) : List Byte := toBytes 8 v.1 ++ toBytes 4 v.2.1 ++ toBytes 4 v.2.2

/-- The SRAM address of the Tongs feedback record of slot `j` (R267); none for role 0. -/
def tngSlotAddr (role j : Nat) : Option Nat :=
  if role = 1 then some (0xCE00 + 0x20 * j) else if role = 2 then some (0xCE10 + 0x20 * j) else none

/-- The record of a sample goes to its destinations (R267). -/
def State.tngDeposit (s : State) (c : Nat) : State :=
  let s := s.tngStill c
  let r := tngRecord (s.tngSample c)
  let n := s.rd F.TNG_CH_DEST_engine c
  let s := match tngSlotAddr (s.rd F.TNG_CH_DEST_role c) (s.rd F.TNG_CH_DEST_slot c) with
    | some a => s.setSram n (writeBytes (s.sramOf n) a r)
    | none => s
  let s := if s.on F.TNG_CH_CFG_quench c then
      { s with quench := { s.quench with tongs := store (fun _ => []) s.quench.tongs c r } }
    else s
  s.setTngCh c { s.tngCh c with index := false }

/-- The mailbox result of a channel (R271). -/
def State.tngMail (s : State) (c : Nat) : State :=
  let x := s.tngCh c
  let v := s.tngSample c
  let at_ := if s.tngMode c = 2 then (x.frames.head?.map (·.1)).getD 0 else x.edges.headD 0
  s.post (64 + c) (words64 v.1 ++ [BitVec.ofNat 32 v.2.1, BitVec.ofNat 32 v.2.2] ++ words64 at_)

/-- The common instant (R267, R271): every enabled quadrature or Hall channel is sampled, and every enabled channel writes
its mailbox. -/
def State.tngInstant (s : State) : State :=
  (List.range 32).foldl (fun s c =>
    if !s.tngOn c then s
    else
      let s := s.tngStill c
      let m := s.tngMail c
      if s.tngMode c = 2 then m else m.tngDeposit c) s

/-- A control program starts (R267): the record of an SSI channel whose frame has not ended stays, marked stale. -/
def State.tngLate (s : State) (n : Nat) : State :=
  (List.range 32).foldl (fun s c =>
    let x := s.tngCh c
    match tngSlotAddr (s.rd F.TNG_CH_DEST_role c) (s.rd F.TNG_CH_DEST_slot c) with
    | some a =>
      if s.tngOn c && s.tngMode c == 2 && s.rd F.TNG_CH_DEST_engine c == n
          && (x.frame.isSome || x.framed != some (uns 64 (s.tim.lastInstant + s.rd F.TNG_CH_SSI3_start c : Nat))) then
        let s := s.setSram n (writeByte (s.sramOf n) (a + 12) (readByte (s.sramOf n) (a + 12) ||| 0x80))
        ((s.setTngCh c { x with stale := true }).bump F.TNG_CH_ERR_late c).tngEvent 6 c 0
      else s
    | none => s) s

/-! ## Enable and disable (R252, R268, R270) -/

/-- Whether a master may enable, disable or change a channel (R268). -/
def State.tngMay (s : State) (m : Master) (c : Nat) : Bool := !s.on F.TNG_CH_CFG_quench c || s.privileged m

/-- TONGS_ENABLE (R252): the filtered levels are those at the inputs.  Before the first SSI frames the velocity is a free
value (log entry 28). -/
def execTongsEnable (m : Master) (c : Fin 32) (levels : BitVec 3) (s : State) : Host.Outcome State Fault Refusal :=
  if s.tngOn c then .next s
  else if !s.tngMay m c then .next (s.pvDropped m false true (F.TNG_CH_CTL_enable.addr c 0))
  else
    let x := s.tngCh c
    let ssi := s.tngMode c == 2
    let y : TngCh := { x with
      ext := if ssi then x.ext else 0
      levels := levels
      edges := []
      standstill := !ssi
      reversal := false
      referenced := false
      stale := false
      index := false
      corr := none
      frame := none
      framed := none
      prev := none
      frames := []
      early := if ssi then sgn 32 s.freshWord.toNat else 0 }
    let s := (s.wr F.TNG_CH_CTL_enable 1 c).setTngCh c y
    .next (if ssi then s.drawn else s)

/-- A probe disarms. -/
def State.disarm (s : State) (p : Nat) : State := (s.wr F.TNG_PRB_CFG_arm 0 p).wr F.TNG_PRB_STAT_armed 0 p

/-- TONGS_DISABLE (R270): the registers keep the last sample, and the probes of the channel disarm. -/
def execTongsDisable (m : Master) (c : Fin 32) (s : State) : Host.Outcome State Fault Refusal :=
  if !s.tngOn c then .next s
  else if !s.tngMay m c then .next (s.pvDropped m false true (F.TNG_CH_CTL_enable.addr c 0))
  else
    let s := s.tngStill c
    let v := s.tngSample c
    let e := (s.tngExt c).1
    let s := ((s.wr F.TNG_CH_STAT_status v.2.2 c).wr F.TNG_CH_VEL_vel v.2.1 c).wr F.TNG_CH_COUNT_ext e c
    let s := (s.wr F.TNG_CH_CTL_enable 0 c).setTngCh c { s.tngCh c with frame := none }
    .next ((List.range 8).foldl (fun s p =>
      if s.rd F.TNG_PRB_CFG_chan p = c.val ∧ s.on F.TNG_PRB_CFG_arm p then s.disarm p else s) s)

/-! ## Edges (R253 to R256, R260) -/

/-- The timestamp of an edge that reaches the ball at `te` (R254). -/
def stampOf (te : DWord) (skew : Fin 5) : Nat := uns 64 (te.toNat + skew.val : Nat)

/-- The time at which an edge stamped `t` has passed a filter of `n` samples (R253, R254). -/
def State.filtered (s : State) (t n : Nat) : State := s.advanceCell (uns 64 (t + 12 + 4 * n : Nat))

/-- The part of the edges that R263 looks back at: those within T_avg of the last, and the one before them. -/
def keepEdges (avg : Nat) : List Nat → List Nat
  | [] => []
  | last :: rest => last :: rest.take ((rest.takeWhile fun e => edgeSpan last e ≤ avg).length + 1)

/-- An accepted edge moves ext by one count (R252, R264, R265). -/
def State.tngEdge (s : State) (c t : Nat) (up : Bool) : State :=
  let x := s.tngCh c
  let up := up != s.on F.TNG_CH_CFG_dir c
  let x := { x with ext := uns 48 ((x.ext : Int) + (if up then 1 else -1)), corr := none, stale := false }
  if !x.edges.isEmpty && up != x.up then
    s.setTngCh c { x with up := up, edges := [t], reversal := true }
  else
    let l := keepEdges (s.rd F.TNG_CH_SPD_avg c * 1000) (t :: x.edges)
    let two := decide (2 ≤ l.length)
    s.setTngCh c { x with
      up := up
      edges := l
      reversal := x.reversal && !two
      standstill := x.standstill && !two }

/-- The place of A and B in the Gray sequence in which A leads B. -/
def grayPos (a b : Bool) : Nat := if a then (if b then 2 else 1) else (if b then 3 else 0)

/-- QUADRATURE_EDGE (R255). -/
def execQuadratureEdge (c : Fin 32) (a b : Bool) (te : DWord) (skew : Fin 5) (s : State) :
    Host.Outcome State Fault Refusal :=
  if !s.tngOn c ∨ s.tngMode c ≠ 0 then .next s
  else
    let s := s.filtered (stampOf te skew) (s.rd F.TNG_CH_FILT_n c)
    let s := s.tngStill c
    let x := s.tngCh c
    let a0 := x.levels.getLsbD 0
    let b0 := x.levels.getLsbD 1
    let y := { x with levels := (x.levels &&& 4) ||| BitVec.ofNat 3 (b2n a + 2 * b2n b) }
    if a = a0 ∧ b = b0 then .next s
    else if a ≠ a0 ∧ b ≠ b0 then
      let s := (s.setTngCh c { y with illegal := true }).bump F.TNG_CH_ERR_illegal c
      .next (if x.illegal then s else s.tngEvent 1 c 0)
    else .next ((s.setTngCh c y).tngEdge c (stampOf te skew) ((grayPos a0 b0 + 1) % 4 == grayPos a b))

/-- WIRE_DISAGREEMENT (R256): `pair` is 0 for A, 1 for B, 2 for Z. -/
def execWireDisagreement (c : Fin 32) (pair : Fin 3) (s : State) : Host.Outcome State Fault Refusal :=
  let checked := if s.tngMode c = 0 then pair.val < 2 || s.on F.TNG_CH_IDX_mode c
    else s.tngMode c == 2 && pair.val == 0
  if !s.tngOn c || !checked then .next s
  else
    let x := s.tngCh c
    let s := (s.setTngCh c { x with wire := true }).bump F.TNG_CH_ERR_wire c
    .next (if x.wire then s else s.tngEvent 2 c (detail [(0, pair)]))

/-- d of an index event, folded into (−C/2, C/2] (R257). -/
def indexDev (ext : Int) (cpr ref : Nat) : Int :=
  let d := (ext - ref) % (cpr : Int)
  if (cpr : Int) < 2 * d then d - cpr else d

/-- An index event acts by its mode (R257, R258). -/
def State.indexActs (s : State) (c t : Nat) : State :=
  let x := s.tngCh c
  let cpr := s.rd F.TNG_CH_CPR_cpr c
  let m := if cpr = 0 then min 1 (s.rd F.TNG_CH_IDX_mode c) else s.rd F.TNG_CH_IDX_mode c
  let d := indexDev (sgn 48 x.ext) cpr (s.rd F.TNG_CH_IDXREF_ref c)
  let s := (s.setTngCh c { x with index := true }).wr F.TNG_CH_IDXLAT_ext x.ext c
  let x := s.tngCh c
  let fixed : TngCh := { x with ext := uns 48 ((x.ext : Int) - d), corr := some (s.tick, t, x.ext) }
  if m = 1 then s
  else if m = 4 ∧ !x.referenced then s.setTngCh c { fixed with referenced := true }
  else if d.natAbs ≤ s.rd F.TNG_CH_IDX_tol c then
    if m = 2 ∨ d = 0 then s else (s.setTngCh c fixed).bump F.TNG_CH_ERR_idx_corr c
  else if x.mismatch then s
  else
    ((s.setTngCh c { x with mismatch := true }).wr F.TNG_CH_IDXMIS_ext x.ext c).tngEvent 3 c
      (detail [(4, x.ext % 2 ^ 32)])

/-- INDEX_EVENT (R257): the filtered Z of a quadrature channel rises. -/
def execIndexEvent (c : Fin 32) (te : DWord) (skew : Fin 5) (s : State) : Host.Outcome State Fault Refusal :=
  if !s.tngOn c ∨ s.tngMode c ≠ 0 then .next s
  else
    let s := s.filtered (stampOf te skew) (s.rd F.TNG_CH_FILT_nz c)
    let gate := s.rd F.TNG_CH_IDX_gate c
    let x := s.tngCh c
    let ok := !s.on F.TNG_CH_IDX_gate_en c || (x.levels.getLsbD 0 == bitAt gate 0 && x.levels.getLsbD 1 == bitAt gate 1)
    .next (if s.rd F.TNG_CH_IDX_mode c = 0 ∨ !ok then s else s.indexActs c (stampOf te skew))

/-- The place of a Hall code in the order U, U V, V, V W, W, W U (R260); none for an illegal code. -/
def hallPos (h : Nat) : Option Nat :=
  if h = 4 then some 0 else if h = 6 then some 1 else if h = 2 then some 2 else if h = 3 then some 3
  else if h = 1 then some 4 else if h = 5 then some 5 else none

/-- HALL_SECTOR_CHANGE (R260): the code U, V, W as bits 2 to 0.  Which order counts upwards is a free value (log entry
29). -/
def execHallSectorChange (c : Fin 32) (code : BitVec 3) (te : DWord) (skew : Fin 5) (s : State) :
    Host.Outcome State Fault Refusal :=
  if !s.tngOn c ∨ s.tngMode c ≠ 1 ∨ (s.tngCh c).levels = code then .next s
  else
    let s := s.filtered (stampOf te skew) (s.rd F.TNG_CH_FILT_n c)
    let s := s.tngStill c
    let x := s.tngCh c
    let y := { x with levels := code }
    let bad :=
      let s := s.setTngCh c { y with hallIllegal := true }
      if x.hallIllegal then s else s.tngEvent 4 c (detail [(0, code.toNat)])
    match hallPos code.toNat, hallPos x.levels.toNat with
    | none, _ => .next bad
    | some _, none => .next (s.setTngCh c y)
    | some q, some p =>
      if (p + 1) % 6 = q then .next ((s.setTngCh c y).tngEdge c (stampOf te skew) Config.hallUp)
      else if (q + 1) % 6 = p then .next ((s.setTngCh c y).tngEdge c (stampOf te skew) (!Config.hallUp))
      else .next bad

/-- STANDSTILL_TIMEOUT (R264). -/
def execStandstillTimeout (c : Fin 32) (s : State) : Host.Outcome State Fault Refusal :=
  match (s.tngCh c).edges, s.tss c with
  | last :: _, some d =>
    if s.tngOn c && s.tngMode c != 2 && !(s.tngCh c).standstill then
      .next ((s.advanceCell (uns 64 (last + d : Nat))).tngStill c)
    else .next s
  | _, _ => .next s

/-- TONGS_CLEAR (R273): latched flags and TNG_CH_IDXMIS clear. -/
def execTongsClear (c : Fin 32) (s : State) : Host.Outcome State Fault Refusal :=
  .next ((s.setTngCh c { s.tngCh c with illegal := false, wire := false, mismatch := false, hallIllegal := false }).wr
    F.TNG_CH_IDXMIS_ext 0 c)

/-! ## SSI (R261, R262) -/

/-- A frame is rejected (R262). -/
def State.ssiReject (s : State) (c cause : Nat) : State :=
  let x := s.tngCh c
  (((s.setTngCh c { x with stale := true, ssiErr := true, rejects := min 2 (x.rejects + 1), frame := none }).bump
    F.TNG_CH_ERR_ssi_err c).tngEvent 5 c (detail [(0, cause)])).tngDeposit c

/-- SSI_FRAME_START (R261): one frame per cell cycle, at common instant + start, after the monoflop wait; `low` is the data
line at that time. -/
def execSsiFrameStart (c : Fin 32) (low : Bool) (s : State) : Host.Outcome State Fault Refusal :=
  let x := s.tngCh c
  let t := uns 64 (s.tim.lastInstant + s.rd F.TNG_CH_SSI3_start c : Nat)
  if !s.tngOn c ∨ s.tngMode c ≠ 2 ∨ x.frame.isSome ∨ x.framed = some t then .next s
  else
    let s := s.advanceCell t
    if s.tick < x.monoEnd then .next s
    else
      let s := s.setTngCh c { x with framed := some t }
      if low then .next (s.ssiReject c 1)
      else .next (s.setTngCh c { s.tngCh c with
        frame := some (t, s.tick + fab (s.rd F.TNG_CH_SSI_len c * 2 * s.rd F.TNG_CH_SSI_half c)) })

/-- Gray decoding of a field of `n` bits: bit i is the parity of the bits from i up. -/
def grayDecode : Nat → Nat → Nat
  | 0, v => v
  | n + 1, v => v ^^^ grayDecode n (v / 2)

/-- Set bits among the low `n`. -/
def popBits (n v : Nat) : Nat := ((List.range n).filter fun i => v.testBit i).length

/-- The field value of a frame (R261): bit 0 is the last bit clocked (log entry 30). -/
def State.ssiField (s : State) (c frame : Nat) : Nat :=
  let w := s.rd F.TNG_CH_SSI2_data_w c
  let v := bitsOf frame (s.rd F.TNG_CH_SSI2_data_lsb c) w
  if s.on F.TNG_CH_SSI_gray c then grayDecode w v else v

/-- The cause for which a frame is rejected, if any (R262). -/
def State.ssiCause (s : State) (c frame : Nat) (stopLow : Bool) : Option Nat :=
  let par := s.rd F.TNG_CH_SSI_parity c
  let ones := popBits (s.rd F.TNG_CH_SSI_len c) frame
  let w := s.rd F.TNG_CH_SSI2_data_w c
  let jump := s.rd F.TNG_CH_SSIJ_jump c
  if !stopLow then some 2
  else if (par = 1 ∧ ones % 2 = 1) ∨ (par = 2 ∧ ones % 2 = 0) then some 3
  else if s.on F.TNG_CH_SSI_errbit_en c && frame.testBit (s.rd F.TNG_CH_SSI2_err_pos c) then some 4
  else
    match (s.tngCh c).prev with
    | some p => if jump ≠ 0 ∧ jump < (sgn w (uns w ((s.ssiField c frame : Int) - p))).natAbs then some 5 else none
    | none => none

/-- SSI_FRAME_END (R261, R262): the bits of the frame, the last one clocked as bit 0, and the line after it. -/
def execSsiFrameEnd (c : Fin 32) (bits : BitVec 40) (stopLow : Bool) (s : State) : Host.Outcome State Fault Refusal :=
  match (s.tngCh c).frame with
  | none => .next s
  | some (t, endTick) =>
    let s := s.advanceTo endTick
    let frame := bits.toNat % 2 ^ s.rd F.TNG_CH_SSI_len c
    let s := s.setTngCh c { s.tngCh c with frame := none, monoEnd := s.tick + us (s.rd F.TNG_CH_SSI_mono c) }
    match s.ssiCause c frame stopLow with
    | some cause => .next (s.ssiReject c cause)
    | none =>
      let x := s.tngCh c
      let w := s.rd F.TNG_CH_SSI2_data_w c
      let v := s.ssiField c frame
      let ext := match x.prev with
        | none => v
        | some p =>
          let d := sgn w (uns w ((v : Int) - p))
          uns 48 ((x.ext : Int) + (if s.on F.TNG_CH_CFG_dir c then -d else d))
      .next ((s.setTngCh c { x with
        ext := ext
        prev := some v
        rejects := 0
        stale := false
        ssiErr := false
        frames := (t, s.tngPos c ext) :: x.frames.take 1 }).tngDeposit c)

/-! ## Probes (R269, R270) -/

/-- PROBE_ARM (R269). -/
def execProbeArm (p : Fin 8) (s : State) : Host.Outcome State Fault Refusal :=
  .next ((s.wr F.TNG_PRB_CFG_arm 1 p).wr F.TNG_PRB_STAT_armed 1 p)

/-- PROBE_DISARM (R270). -/
def execProbeDisarm (p : Fin 8) (s : State) : Host.Outcome State Fault Refusal := .next (s.disarm p)

/-- The words of a probe result (R270). -/
def State.probeWords (s : State) (c t n : Nat) (rising : Bool) : List Word :=
  let x := s.tngCh c
  let e := match x.corr with
    | some (_, ct, e) => if ct = t then (e, true) else (x.ext, false)
    | none => (x.ext, false)
  words64 (uns 64 (s.tngPos c e.1)) ++ [BitVec.ofNat 32 e.1] ++ words64 t
    ++ [BitVec.ofNat 32 (b2n rising + 2 * b2n (s.tngValid c) + 4 * b2n e.2 + 256 * n)]

/-- A mailbox result that has not been read would be replaced (R93). -/
def Mailbox.unread (b : Mailbox) : Bool := b.st == .fresh || b.waiting.isSome

/-- PROBE_LATCH (R269, R270): an edge of the probe that reaches the ball at `te`. -/
def execProbeLatch (p : Fin 8) (rising : Bool) (te : DWord) (skew : Fin 5) (s : State) :
    Host.Outcome State Fault Refusal :=
  let sel := bitAt (s.rd F.TNG_PRB_CFG_edge p) (if rising then 0 else 1)
  if !s.on F.TNG_PRB_STAT_armed p || !sel then .next s
  else
    let t := stampOf te skew
    let s := s.filtered t (s.rd F.TNG_PRB_CFG_filt p)
    let c := s.rd F.TNG_PRB_CFG_chan p
    let n := (lookup (fun _ => 0) s.tongs.count p + 1) % 256
    let s := { s with tongs := { s.tongs with count := store (fun _ => 0) s.tongs.count p n } }
    let ws := s.probeWords c t n rising
    let s := if (s.mailbox (96 + p)).unread then
        let told := s.on F.TNG_PRB_STAT_lost p
        let s := s.bump F.TNG_PRB_STAT_lost p
        if told then s else s.raise (72 + p) 8 (256 + p) 0
      else s
    let s := (s.post (96 + p) ws).raise (72 + p) 7 (256 + p) (detail [(4, (ws.getD 2 0).toNat)])
    .next (if s.on F.TNG_PRB_CFG_cont p then s else s.disarm p)

/-! ## TNG_SAMPLE (R272) -/

/-- TNG_SAMPLE: the channel is sampled at fetch. -/
def execTngSample (r : Fin 64) (s : State) : Host.Outcome State Fault Refusal :=
  .next (s.runDesc r 0x0920 fun s d =>
    let c := d.op 32 1
    if 32 ≤ c ∨ !s.tngOn c then s.fail d.id 0x12 32
    else
      let s := s.tngStill c
      let v := s.tngSample c
      s.complete d.id 1 (if (s.tngCh c).reversal then 16 else 0) (result [(16, 8, v.1), (24, 4, v.2.1), (28, 4, v.2.2)]))

/-- TNG_CH_STAT, TNG_CH_COUNT and TNG_CH_VEL of an enabled channel are sampled on read (R273). -/
def State.tngRead (s : State) (off : Nat) : Option (Word × State) :=
  let c := (off - F.TNG_CH_CTL_enable.off) / F.TNG_CH_CTL_enable.s1
  if F.TNG_CH_CTL_enable.off ≤ off ∧ c < 32 ∧ s.tngOn c then
    let s := s.tngStill c
    let v := s.tngSample c
    if off = F.TNG_CH_STAT_status.addr c 0 then some (BitVec.ofNat 32 v.2.2, s)
    else if off = F.TNG_CH_COUNT_ext.addr c 0 then some (BitVec.ofNat 32 (s.tngExt c).1, s)
    else if off = F.TNG_CH_VEL_vel.addr c 0 then some (BitVec.ofNat 32 v.2.1, s)
    else none
  else none

end Sys2Proof.Machine
end

