-- ==== Sys2Proof/Machine/Temper.lean ====
section
/-!
DEFINITION. Machine/Temper.lean: the Temper engines (chapter "Temper control laws") and owner programs (R246 to R250):
laws, references, following error, the cycle program, test signals, captures and analyses, loading of laws and programs.
-/

namespace Sys2Proof.Machine

/-! ## Law images (R200, R201) -/

namespace Law

def fixed (b : List Byte) : Bool := byteAt b 2 == 0
def coupled (b : List Byte) : Bool := byteAt b 3 == 1
def s (b : List Byte) : Nat := byteAt b 4
def i (b : List Byte) : Nat := byteAt b 5
def p (b : List Byte) : Nat := byteAt b 6
def g (b : List Byte) : Nat := byteAt b 7
def t (b : List Byte) : Nat := field b 8 4
/-- Offset of section `k`: F, B, L, K, Kr, signal table, state table. -/
def sec (b : List Byte) (k : Nat) : Nat := field b (12 + 4 * k) 4

/-- Rows and columns that a matrix section has. -/
def dims (b : List Byte) (k : Nat) : Nat × Nat :=
  match k with
  | 0 => (s b, s b)
  | 1 => (s b, i b)
  | 2 => (s b, p b)
  | 3 => (i b, s b)
  | _ => (i b, 3)

/-- The declared run time that R195 asks at least. -/
def need (b : List Byte) : Nat :=
  240 + 60 * i b + s b * s b + 2 * s b * i b + s b * p b + 3 * i b + (if fixed b then 0 else 4 * s b)

/-- Bytes of a section. -/
def secLen (b : List Byte) (k : Nat) : Nat :=
  if k < 5 then
    let n := (dims b k).1 * (dims b k).2
    4 + 4 * n + (if fixed b then (n + 3) / 4 * 4 else 0)
  else if k = 5 then 4 * (p b + i b) else s b

/-- Coefficient memory that a law takes: its image less the heads of its matrix sections and the shift bytes, which the Y
bank holds; 868 bytes for the law of 12 states and two outputs of R193 (R193, R201). -/
def size (b : List Byte) : Nat :=
  64 + (List.range 5).foldl (fun a k => a + 4 * ((dims b k).1 * (dims b k).2)) 0 + 4 * (p b + i b) + s b

/-- A matrix section's head and its shift bytes. -/
def matrixOk (b : List Byte) (k : Nat) : Bool :=
  let o := sec b k
  let n := (dims b k).1 * (dims b k).2
  byteAt b (o + 1) == (dims b k).1 && byteAt b (o + 2) == (dims b k).2 && byteAt b (o + 3) == 0
    && (!fixed b || (byteAt b o == 0 && (List.range n).all fun m => byteAt b (o + 4 + 4 * n + m) ≤ 31))

/-- The signal and state tables name axes of the law and quantities of R199 (R200). -/
def tablesOk (b : List Byte) : Bool :=
  (List.range (p b)).all (fun j => let o := sec b 5 + 4 * j
    byteAt b o < i b && 1 ≤ byteAt b (o + 1) && byteAt b (o + 1) ≤ 5 && byteAt b (o + 3) == 0)
    && (List.range (s b)).all fun j => let x := byteAt b (sec b 6 + j); x == 0xFF || x < i b

/-- The checks of R204 on an image alone: format, dimensions, section bounds, declared run time. -/
def ok (b : List Byte) : Bool :=
  64 ≤ b.length && field b 0 2 == 1 && byteAt b 2 ≤ 1 && byteAt b 3 ≤ 1 && zeroBytes b 40 24
    && (if coupled b then s b ≤ 64 && 1 ≤ i b && i b ≤ 12 && p b ≤ 24 else s b ≤ 16 && i b == 1 && p b ≤ 4)
    && (if fixed b then 8 ≤ g b && g b ≤ 28 else g b == 0)
    && (List.range 7).all (fun k => sec b k % 4 == 0 && sec b k + secLen b k ≤ b.length)
    && (List.range 5).all (matrixOk b) && tablesOk b && need b ≤ t b

/-- A coefficient: its word and its shift. -/
def coef (b : List Byte) (k r c : Nat) : Int × Nat :=
  let o := sec b k
  let n := (dims b k).1 * (dims b k).2
  let m := r * (dims b k).2 + c
  (fieldS b (o + 4 + 4 * m) 4, byteAt b (o + 4 + 4 * n + m))

/-- A row of a matrix times a vector, aligned to G + 16 bits (R201). -/
def rowSum (b : List Byte) (k r : Nat) (v : List Int) : Int :=
  (List.range (dims b k).2).foldl (fun a c =>
    let q := coef b k r c
    a + alignProd q.1 (v.getD c 0) q.2) 0

/-- Output entry j: axis index, quantity, shift. -/
def output (b : List Byte) (j : Nat) : Nat × Nat × Int :=
  let o := sec b 5 + 4 * j
  (byteAt b o, byteAt b (o + 1), fieldS b (o + 2) 1)

/-- Input entry m: the set-point shift and the shifts of reference position, velocity and acceleration. -/
def input (b : List Byte) (m k : Nat) : Int := fieldS b (sec b 5 + 4 * p b + 4 * m + k) 1

/-- The axis of which state j is a position, if any. -/
def stateAxis (b : List Byte) (j : Nat) : Option Nat :=
  let x := byteAt b (sec b 6 + j)
  if x = 0xFF then none else some x

/-- What a staged law keeps: dimensions, number format, signal table, state table (R204). -/
def keeps (a b : List Byte) : Bool :=
  s a == s b && i a == i b && p a == p b && byteAt a 2 == byteAt b 2
    && (a.drop (sec a 5)).take (secLen a 5) == (b.drop (sec b 5)).take (secLen b 5)
    && (a.drop (sec a 6)).take (secLen a 6) == (b.drop (sec b 6)).take (secLen b 6)

end Law

/-- The laws of the active page. -/
def State.lawsOf (s : State) (n : Nat) : List (Nat × List Byte) :=
  if s.on F.TMP_STAT_page n then (s.eng n).page1 else (s.eng n).page0

/-- The active law of a slot; none before one is loaded. -/
def State.law (s : State) (n j : Nat) : List Byte := lookup (fun _ => []) (s.lawsOf n) j

/-- The engine runs a coupled law. -/
def State.isCoupled (s : State) (n : Nat) : Bool := let b := s.law n 0; !b.isEmpty && Law.coupled b

/-! ## Registers that follow an engine's configuration -/

/-- The hook of a slot replaces its law (R248). -/
def State.hooked (s : State) (n j : Nat) : Bool :=
  s.on F.TMP_AX_HOOK_en n j && s.on F.TMP_PROG_loaded n && 2048 ≤ s.rd F.TMP_AX_HOOK_entry n j && !s.isCoupled n
    && !(s.law n j).isEmpty && Law.fixed (s.law n j)

/-- Injection or capture is active on a slot's axis (R195). -/
def State.slotTuned (s : State) (n j : Nat) : Bool :=
  s.temper.tune.any fun t => t.engine == n && t.slot == j && t.started && t.ending.isNone

/-- The run time a slot declares (R195, R248). -/
def State.slotTime (s : State) (n j : Nat) : Nat :=
  (if s.hooked n j then 240 + (s.eng n).tHook else if (s.law n j).isEmpty then 0 else Law.t (s.law n j))
    + (if s.slotTuned n j then 40 else 0)

/-- TMP_STAT.slots and coupled and TMP_RUNTIME.declared follow the configuration (R195, R224). -/
def State.syncEngine (s : State) (n : Nat) : State :=
  let js := s.slotsOf n
  let t := if s.isCoupled n then s.slotTime n 0 else js.foldl (fun a j => a + s.slotTime n j) 0
  ((s.wr F.TMP_STAT_slots js.length n).put F.TMP_STAT_coupled (s.isCoupled n) n).wr F.TMP_RUNTIME_declared (min 65535 t) n

/-- The staged page of an engine becomes active, keeping states and origins (R204). -/
def State.pageSwitch (s : State) (n : Nat) : State :=
  let e := s.eng n
  if !e.staged then s else
  ((s.setEng n { e with staged := false }).put F.TMP_STAT_page (!s.on F.TMP_STAT_page n) n).syncEngine n

/-! ## Signals (R199, R201, R203) -/

/-- A narrowing to 32 bits: saturating with sat_en, else wrapping; the flag tells that it overflowed. -/
def narrow32 (sat : Bool) (x : Int) : Int × Bool :=
  let outside := decide (x < -2147483648) || decide (2147483647 < x)
  (if !outside then x else if sat then clampI (-2147483648) 2147483647 x else sgn 32 (uns 32 x), outside)

/-- A quantity scaled by a shift: to the right with round half up, or to the left (log entry 24). -/
def shiftBy (x sh : Int) : Int := if 0 ≤ sh then rhu x sh.toNat else x * (2 ^ (-sh).toNat : Nat)

/-- The quantity that an output names (R199). -/
def measured (m : Meas) (q : Nat) (origin : Int) : Int :=
  match q with
  | 1 => m.motor.toInt - origin
  | 2 => m.load.toInt - origin
  | 3 => m.vel.toInt
  | 4 => m.cur.toInt
  | _ => m.torque.toInt

/-- A drive's 16-bit set-point clamped to TMP_AX_ULIM; the flag tells that the clamp acted (R199). -/
def State.clampU (s : State) (n j : Nat) (x : Int) : Int × Bool :=
  let lo := sgn 16 (s.rd F.TMP_AX_ULIM_u_min n j)
  let hi := sgn 16 (s.rd F.TMP_AX_ULIM_u_max n j)
  let v := clampI lo hi x
  (v, v != x)

/-! ## References (R205 to R209) -/

/-- The piece of a path table for a progress, and the progress clamped to the pieces written; the flag tells that it was
clamped (R208). -/
def pieceFor (ps : List (List Byte)) (p : Q) : Option (List Byte × Q × Bool) :=
  let start := fun (b : List Byte) => Q.bits (field b 0 8) 32
  let inv := fun (b : List Byte) => Q.bits (field b 8 4) (byteAt b 12)
  match ps with
  | [] => none
  | first :: _ =>
    if p.lt (start first) then some (first, start first, true)
    else
      let b := (ps.filter fun b => (start b).le p).foldl (fun (m : List Byte) b => if (start m).le (start b) then b else m) first
      let last := ps.all fun x => (start x).le (start b)
      let i := inv b
      if i.num = 0 then some (b, p, false) else
      let stop := (start b).add ((Q.of 1).div i)
      if last && stop.lt p then some (b, stop, true) else some (b, p, false)

/-- Position, velocity and acceleration of axis `m` of a piece at progress `p` with rate `v` and acceleration `a` (R208). -/
def pieceRef (b : List Byte) (m : Nat) (p v a : Q) : Q × Q × Q :=
  let inv := Q.bits (field b 8 4) (byteAt b 12)
  let lam := (p.sub (Q.bits (field b 0 8) 32)).mul inv
  let o := 16 + 28 * m
  let c := fun k => Q.bits (fieldS b (o + 4 + 4 * k) 4) (byteAt b 13)
  let sum := fun (f : Nat → Q) => (List.range 5).foldl (fun x k => x.add (f (k + 1))) (Q.of 0)
  let q := (Q.bits (fieldS b o 8) 32).add (sum fun k => (c k).mul (lam.pow k))
  let d1 := (sum fun k => ((Q.of k).mul (c k)).mul (lam.pow (k - 1))).mul inv
  let d2 := ((sum fun k => ((Q.of (k * (k - 1))).mul (c k)).mul (lam.pow (k - 2))).mul inv).mul inv
  (q, d1.mul v, (d2.mul (v.mul v)).add (d1.mul a))

/-- A velocity that ramps to a target within one cycle: the new velocity, the distance, and the acceleration (R205). -/
def rampStep (v target acc : Q) (tc : Q) : Q × Q × Q :=
  let d := target.sub v
  let up := (Q.of 0).le d
  let mag := if up then d else d.neg
  let reach := mag.le (acc.mul tc)
  if reach then
    let t1 := if acc.num = 0 then Q.of 0 else mag.div acc
    let dist := (((v.add target).mul (Q.frac 1 2)).mul t1).add (target.mul (tc.sub t1))
    (target, dist, Q.of 0)
  else
    let a := if up then acc else acc.neg
    let v' := v.add (a.mul tc)
    (v', ((v.add v').mul (Q.frac 1 2)).mul tc, a)

/-- The reference of a slot becomes the three exact values, at the resolutions of R10 (log entry 18). -/
def State.setRef (s : State) (n j : Nat) (p v a : Q) : State :=
  let (pi, s) := s.near p 32
  let (vi, s) := s.near v 20
  let (ai, s) := s.near a 12
  let e := s.eng n
  s.setEng n (e.setAx j { e.ax j with pos := sgn 64 (uns 64 pi), vel := clampI (-2147483648) 2147483647 vi,
                                      acc := clampI (-2147483648) 2147483647 ai })

/-- The reference of a slot for the cycle that began at `t` (R205, R209, R213). -/
def State.evalRef (s : State) (n j t : Nat) : State :=
  let e := s.eng n
  let x := e.ax j
  let src := s.rd F.TMP_AX_CFG_ref_src n j
  let tc := Q.frac s.tim.cycleNs 1000000000
  let ramp := Q.bits (s.rd F.TMP_AX_RAMP_accel n j) 12
  let hold := s.setEng n (e.setAx j { x with vel := 0, acc := 0 })
  let toward := fun (target : Q) =>
    let (v, d, a) := rampStep (Q.bits x.vel 20) target ramp tc
    s.setRef n j ((Q.bits x.pos 32).add d) v a
  let inChain := s.on F.TMP_AX_CFG_in_chain n j
  match src with
  | 0 =>
    if !inChain then hold else
    let c := s.rd F.TMP_AX_CFG_chain n j
    let w := e.chainWin c
    (match w.active with
     | none => hold
     | some a =>
       let (p, v, acc) := a.eval t
       match pieceFor w.pieces p with
       | none => hold
       | some (b, p', clamped) =>
         let m := (s.chainSlots n c).idxOf j
         let (q, qv, qa) := pieceRef b m p' v acc
         let s := s.setRef n j q qv qa
         if clamped then s.tmpEvent n 5 j c else s)
  | 2 => if inChain then hold else toward (if x.halted then Q.of 0 else Q.bits (s.rdS F.TMP_AX_VEL_vel n j) 20)
  | 3 =>
    let g := s.rd F.TMP_AX_CFG_gear_master n j
    if x.halted then toward (Q.of 0)
    else if inChain || j ≤ g || !s.on F.TMP_AX_CFG_valid n g then hold
    else
      let k := Q.bits (s.rdS F.TMP_AX_GEAR_ratio n j) 16
      let y := e.ax g
      s.setRef n j (k.mul (Q.bits y.pos 32)) (k.mul (Q.bits y.vel 20)) (k.mul (Q.bits y.acc 12))
  | _ => s.setEng n (e.setAx j { x with pos := x.held, vel := 0, acc := 0 })

/-! ## Test signals (R219) -/

/-- The signal of an injection in a cycle, in the format of its amplitude: a step and the sign of a PRBS exactly; the bits
of a sine and of the sequence are free within the amplitude (log entry 25). -/
def State.signal (s : State) (t : Tune) : Int × State :=
  let a := fieldS t.bytes 36 4
  match byteAt t.bytes 34 with
  | 1 => (a, s)
  | 2 => (clampI (-(a.natAbs : Int)) a.natAbs s.freshWord.toInt, s.drawn)
  | 3 => if t.elapsed = 0 then (a, s) else (if s.freshWord.toNat.testBit 0 then a else -a, s.drawn)
  | _ =>
    let lines := (List.range (t.body.length / 8)).foldl (fun x i => x + field t.body (8 * i + 2) 2) 0
    let top : Int := (a.natAbs * lines / 65536 + 1 : Nat)
    (clampI (-top) top s.freshWord.toInt, s.drawn)

/-- The injection that acts on a slot now. -/
def State.injOn (s : State) (n j : Nat) : Option Tune :=
  s.temper.tune.find? fun t => t.inject && t.engine == n && t.slot == j && t.started && t.ending.isNone
    && t.elapsed < field t.bytes 40 4

/-! ## Following error (R212 to R214) -/

/-- The reaction to a latched following error (R213, R220). -/
def State.feReact (s : State) (n j : Nat) : State :=
  let e := s.eng n
  let s := (s.temper.tune.filter fun t => t.inject && t.engine == n && t.slot == j && t.started).foldl
    (fun s t => s.endTune t 0x30) s
  if s.on F.TMP_AX_CFG_in_chain n j then
    s.stopChain (s.rd F.TMP_AX_CFG_chain n j) { cause := 5, status := some 0x30 }
  else
    let e := s.eng n
    s.setEng n (e.setAx j { e.ax j with halted := true })

/-- Supervision of one slot: `err` is the following error with 32 fractional bits, none without a sample (R212, R311). -/
def State.supervise (s : State) (n j : Nat) (err : Option Int) : State :=
  let lim := s.rd F.TMP_AX_FELIM_limit n j
  let warn := s.rd F.TMP_AX_FEWARN_level n j
  let mag := match err with | some e => e.natAbs | none => 0
  let (m20, s) := s.near (Q.bits mag 32) 20
  let shown := min 0xFFFFFFFF m20.toNat
  let s := s.wr F.TMP_AX_FEMAX_max (max (s.rd F.TMP_AX_FEMAX_max n j) shown) n j
  let beyond := fun (l : Nat) => l != 0 && decide (l * 4096 < mag)
  let s := match err with
    | none => s
    | some _ =>
      if beyond warn then
        (if s.on F.TMP_AX_STAT_fe_warn n j then s else (s.wr F.TMP_AX_STAT_fe_warn 1 n j).tmpEvent n 1 j shown)
      else s.wr F.TMP_AX_STAT_fe_warn 0 n j
  if beyond lim || (err.isNone && lim != 0) then
    let k := min 65535 (s.rd F.TMP_AX_STAT_fe_count n j + 1)
    let s := s.wr F.TMP_AX_STAT_fe_count k n j
    if s.rd F.TMP_AX_FETIME_cycles n j ≤ k ∧ !s.on F.TMP_AX_STAT_fe_fault n j then
      ((s.wr F.TMP_AX_STAT_fe_fault 1 n j).tmpEvent n 2 j shown).feReact n j
    else s
  else s.wr F.TMP_AX_STAT_fe_count 0 n j

/-! ## One slot's law (R196 to R203, R248) -/

/-- The measured position that supervision uses: quantity 1 of the axis, or quantity 2 (R212). -/
def Law.posOf (b : List Byte) (ix : Nat) (m : Meas) : Int :=
  let outs := (List.range (Law.p b)).map (Law.output b)
  if outs.any (fun o => o.1 == ix && o.2.1 == 1) || !outs.any (fun o => o.1 == ix && o.2.1 == 2) then m.motor.toInt
  else m.load.toInt

/-- The input block of a hook (R248). -/
def hookBlock (y : List Int) (rp rv ra u : Int) (cyc : Nat) : List Byte :=
  (List.range 4).flatMap (fun i => toBytes 4 (uns 32 (y.getD i 0))) ++ toBytes 4 (uns 32 rp) ++ toBytes 4 (uns 32 rv)
    ++ toBytes 4 (uns 32 ra) ++ toBytes 4 (uns 32 u) ++ toBytes 4 cyc ++ toBytes 28 0

/-- A hook is called for a slot: u in the signal format, and the bundles that it ran (R248). -/
def State.callHook (s : State) (n j : Nat) (blk : List Byte) : Int × Nat × State :=
  let at_ := 0x7000 + 0x40 * j
  let s := s.setSram n (writeBytes (s.sramOf n) at_ blk)
  let x := s.px n
  let entry := s.rd F.TMP_AX_HOOK_entry n j
  let dp := { x.dp with a := store (fun _ => 0) x.dp.a 0 at_, rrb := 0, pc := entry, link := 0, inHook := true, flight := [],
                        goal := none, atom := 0, act0 := false, act1 := false, entering := none }
  let (q, _, k) := Px.runHook (s.eng n).code s.tim.cycleNs { x with dp := dp }
  let q := q.drain
  let s := s.setPx n { q with dp := { q.dp with run := x.dp.run, inHook := false } }
  ((q.reg 0).toInt, k, s)

/-- The law of a slot, or of a whole chain on slot 0 of a coupled engine, computes its set-points in counts from the
measurements (R196 to R203); block floating-point values are free (log entry 26). -/
def State.runLaw (s : State) (n j : Nat) (fb : List Meas) : List Int × State :=
  let b := s.law n j
  let e := s.eng n
  let sat := s.on F.TMP_CTL_sat_en n
  let none' : Meas := { valid := false, motor := 0, load := 0, vel := 0, cur := 0, torque := 0 }
  let slotOf := fun ix => if Law.coupled b then ix else j
  let meas := fun ix => fb.getD (slotOf ix) none'
  let ins := List.range (Law.i b)
  let sts := List.range (Law.s b)
  if !Law.fixed b then
    let xs := sts.map fun k => (Config.freeWord (s.free + k)).toInt
    let us := ins.map fun k => sgn 16 (Config.freeWord (s.free + Law.s b + k)).toNat
    let sat' := (Config.freeWord (s.free + Law.s b + Law.i b)).toNat.testBit 0
    let s := { s with free := s.free + Law.s b + Law.i b + 1 }.setEng n (e.setStates j xs)
    (us, if sat' then s.narrowSat n j else s)
  else
    let nar := narrow32 sat
    let ys := (List.range (Law.p b)).map fun k =>
      let (ix, q, sh) := Law.output b k
      nar (shiftBy (measured (meas ix) q (e.ax (slotOf ix)).origin) sh)
    let refs := ins.map fun m =>
      let x := e.ax (slotOf m)
      (nar (shiftBy (x.pos + x.inj - x.origin) (Law.input b m 1)), nar (shiftBy x.vel (Law.input b m 2)),
       nar (shiftBy x.acc (Law.input b m 3)))
    let up := ins.map fun m => nar (shiftBy (e.ax (slotOf m)).uPrev (-(Law.input b m 0)))
    let over0 := ys.any (·.2) || refs.any (fun r => r.1.2 || r.2.1.2 || r.2.2.2) || up.any (·.2)
    let y := ys.map (·.1)
    let u := up.map (·.1)
    if s.hooked n j then
      let r := refs.getD 0 ((0, false), (0, false), (0, false))
      let (v, k, s) := s.callHook n j (hookBlock y r.1.1 r.2.1.1 r.2.2.1 (u.getD 0 0) s.tim.cycle)
      let e := s.eng n
      let s := s.setEng n { e with ran := e.ran + k }
      let c := shiftBy v (Law.input b 0 0)
      ([c], if over0 then s.narrowSat n j else s)
    else
      let x := e.states j
      let valid := sts.isEmpty || (List.range (Law.p b)).all fun k => (meas (Law.output b k).1).valid
      let xn := sts.map fun k =>
        nar (rhu (Law.rowSum b 0 k x + Law.rowSum b 1 k u + (if valid then Law.rowSum b 2 k y else 0)) 16)
      let x' := xn.map (·.1)
      let un := ins.map fun m =>
        let r := refs.getD m ((0, false), (0, false), (0, false))
        nar (rhu (Law.rowSum b 4 m [r.1.1, r.2.1.1, r.2.2.1] - Law.rowSum b 3 m x') 16)
      let cs := ins.map fun m => shiftBy (un.getD m (0, false)).1 (Law.input b m 0)
      let s := s.setEng n ((s.eng n).setStates j x')
      (cs, if over0 || xn.any (·.2) || un.any (·.2) then s.narrowSat n j else s)

/-- The test torque of a brake test replaces u: a ramp of 50 ms to T_test, or back to the law's u (R404). -/
def State.withTestTorque (s : State) (n j : Nat) (c : Int) : Int :=
  match s.quench.torque with
  | none => c
  | some q =>
    if q.axis ≠ s.rd F.TMP_AX_CFG_axis n j then c
    else
      let goal := if q.back then c else q.target
      let t := min (ms 50) (s.tick - q.at_)
      q.start + rhuDiv ((goal - q.start) * (t : Int)) (ms 50)

/-- The set-point of one axis slot: torque injection, test torque, clamp, and the place where it waits for its frame (R199, R219). -/
def State.setPoint (s : State) (n j idx : Nat) (c : Int) : State :=
  let (c, s) := match s.injOn n j with
    | some t =>
      if byteAt t.bytes 33 = 1 then
        let (v, s) := s.signal t
        let e := s.eng n
        let s := s.setEng n (e.setAx j { e.ax j with inj := v })
        let (k, s) := s.near (Q.bits (c * 65536 + v) 16) 0
        (k, s)
      else (c, s)
    | none => (c, s)
  let (v, hit) := s.clampU n j (s.withTestTorque n j c)
  let s := s.put F.TMP_AX_STAT_u_sat hit n j
  let e := s.eng n
  let e := e.setAx j { e.ax j with u := v }
  s.setEng n { e with out := e.out ++ [{ index := idx, value := uns 16 v }] }

/-- One slot of the program: reference, reference injection, supervision (R194, R209, R212). -/
def State.runSlotRef (s : State) (n j t : Nat) (b : List Byte) (ix : Nat) (m : Meas) : State :=
  let s := s.evalRef n j t
  let (v, s) := match s.injOn n j with
    | some q => if byteAt q.bytes 33 = 0 then s.signal q else (0, s)
    | none => (0, s)
  let e := s.eng n
  let x := e.ax j
  let pos := Law.posOf b ix m
  let ref := x.pos + (match s.injOn n j with | some q => if byteAt q.bytes 33 = 0 then v * 256 else 0 | none => 0)
  let fe := ref - pos
  let s := s.setEng n (e.setAx j { x with inj := v * 256, mpos := pos, mvel := m.vel.toInt, cur := m.cur.toInt, fe := fe })
  s.supervise n j (if m.valid then some fe else none)

/-- Injections that act on a slot have run one more cycle (R219). -/
def State.tickTunes (s : State) (n : Nat) : State :=
  { s with temper := { s.temper with tune := s.temper.tune.map fun t =>
      if t.engine = n ∧ t.started then { t with elapsed := t.elapsed + 1 } else t } }

/-! ## Capture (R218, R221) -/

/-- One sample of a channel. -/
def State.sample (s : State) (n : Nat) (k : CapSet) (ch : Nat) : Int :=
  let (a, q) := k.channels.getD ch (0, 0)
  let j := ((s.slotsOf n).find? fun j => s.rd F.TMP_AX_CFG_axis n j == a).getD 0
  let e := s.eng n
  let x := e.ax j
  match q with
  | 1 => (x.pos - k.base.getD ch 0) / 256
  | 2 => x.vel
  | 3 => x.acc
  | 4 => (x.mpos - k.base.getD ch 0) / 256
  | 5 => x.mvel
  | 6 => x.cur
  | 7 => x.uPrev
  | 8 => x.fe / 256
  | 9 => match s.injOn n j with
    | some t => if byteAt t.bytes 33 = 0 then x.inj / 256 else x.inj
    | none => 0
  | q => (e.states (if s.isCoupled n then 0 else j)).getD (q - 0x40) 0

/-- Bytes that the staging of an engine holds (R226). -/
def stagingBytes : Nat := 16384

/-- A running capture of the engine takes one row, or ends at a full staging with OVERRUN (R221). -/
def State.captureRow (s : State) (n i : Nat) : State :=
  let k := s.capset i
  if !k.running || k.engine != n || k.samples ≤ k.taken then s else
  let c := k.channels.length
  if stagingBytes < 4 * c * (k.staging.length + 1) then s.setCapset i { k with running := false, done := true, overrun := true }
  else
    let base := if k.taken = 0 then (List.range c).map fun ch =>
        let a := (k.channels.getD ch (0, 0)).1
        let j := ((s.slotsOf n).find? fun j => s.rd F.TMP_AX_CFG_axis n j == a).getD 0
        ((s.eng n).ax j).pos
      else k.base
    let k := { k with base := base, firstCycle := if k.taken = 0 then s.tim.cycle else k.firstCycle,
                      firstNs := if k.taken = 0 then s.tim.lastInstant else k.firstNs }
    let row := (List.range c).flatMap fun ch => toBytes 4 (uns 32 (s.sample n k ch))
    s.setCapset i { k with staging := k.staging ++ [row], taken := k.taken + 1, running := k.taken + 1 < k.samples,
                           done := k.samples ≤ k.taken + 1 }

/-! ## The cycle program (R194, R215, R216) -/

/-- A program that has ended hands its set-points over; a disabled engine is then stopped (R216). -/
def State.endProgram (s : State) (n : Nat) : State :=
  let e := s.eng n
  if !s.on F.TMP_STAT_running n ∨ cellDiff s.cellNs e.endAt < 0 then s else
  let s := e.out.foldl (fun s p => s.writeSetPoint n p.index p.value) s
  let s := s.setEng n { e with out := [], ovr := if e.late then e.ovr else 0, late := false }
  let s := s.wr F.TMP_RUNTIME_longest (max (s.rd F.TMP_RUNTIME_longest n) (min 65535 e.ran)) n
  let s := s.wr F.TMP_STAT_running 0 n
  if s.on F.TMP_CTL_enable n then s else s.wr F.TMP_STAT_stopped 1 n

/-- The transmit lead of the engine's first set-point finds its program running: an overrun (R215). -/
def State.overrun (s : State) (n : Nat) : State :=
  let e := s.eng n
  if !s.on F.TMP_STAT_running n || e.late then s else
  let s := s.setEng n { e with late := true, ovr := e.ovr + 1 }
  let s := (s.bump F.TMP_ERR_overruns n).tmpEvent n 3 0 e.ran
  let s := s.wr F.TMP_RUNTIME_longest (max (s.rd F.TMP_RUNTIME_longest n) (min 65535 e.ran)) n
  if s.rd F.TMP_START_ovr_limit n ≤ e.ovr + 1 then s.trapEngine n 1 else s

/-- The start event of an engine is still to come: the feedback of a segment of its mask (R194), or, with a mask of 0,
the match of a compare unit (R345). -/
def State.feedbackDue (s : State) (n : Nat) : Bool :=
  if s.mode == 1 then n != 0 || !s.combway.fbc.testBit 0 else
  (s.rd F.TMP_START_seg_mask n == 0 && !(s.eng n).kick) || (List.range 8).any fun g => (s.rd F.TMP_START_seg_mask n).testBit g && !s.on F.CMB_SEG_STAT_stopped g
    && !s.combway.fbc.testBit g

/-! ## The law of KINDLE (R454, R455) -/

/-- Axis `a` of KINDLE in a cycle: its feedback lies in Quench's input buffer behind its status word (R454). -/
def State.kindleAxis (s : State) (a : Nat) : State :=
  let b := readBytes s.combway.qin (32 * a) 20
  let w := field b 0 4
  let s := s.wrBit F.GLB_KDL_STAT_fb_valid a (bitAt w 16 && w % 65536 == s.tim.cycle % 65536)
  let k := lookup (fun _ => {}) s.quench.kindle a
  let torque := bitAt (s.rd F.GLB_KDL_STAT_torque) a && (s.kdlCfg F.GLB_KDL_CFG_axis_en a != 0)
  let s := { s with quench := { s.quench with kindle := store (fun _ => {}) s.quench.kindle a { k with torque := torque } } }
  let p := fieldS b 4 8
  let v := fieldS b 12 4
  let e := s.eng 0
  let s := if torque && !k.torque then s.setEng 0 (e.setAx a { e.ax a with pos := p, vel := 0 }) else s
  let u : Int × State := if !torque then (0, s) else
    let x := (s.eng 0).ax a
    let ramp := Q.bits (2 ^ s.kdlCfg F.GLB_KDL_CFG_ramp_log2 a) 8
    let (rv, d, ra) := rampStep (Q.bits x.vel 20) (Q.bits (s.rdS F.GLB_KDL_JOG_vel a) 20) ramp (Q.frac s.tim.cycleNs 1000000000)
    let s := s.setRef 0 a ((Q.bits x.pos 32).add d) rv ra
    let x := (s.eng 0).ax a
    let kp := (s.rd F.GLB_KDL_KP_kp a : Int)
    let kd := (s.rd F.GLB_KDL_KD_kd a : Int)
    let lim := (s.kdlCfg F.GLB_KDL_CFG_ulim a : Int)
    (clampI (-lim) lim (rhu (-(kp * (p - x.pos)) - kd * (v - x.vel) * 4096) 48), s)
  let e := u.2.eng 0
  u.2.setEng 0 { e.setAx a { e.ax a with u := u.1 } with out := e.out ++ [{ index := a, value := uns 16 u.1 }] }

/-- Every valid slot's law runs in slot order (R194); in KINDLE the fixed law of R455. -/
def State.runSlots (s : State) (n : Nat) (fb : List Meas) : State :=
  if s.mode == 1 then (List.range 8).foldl (fun s a => s.kindleAxis a) s else
  let t := s.tim.lastInstant
  let none' : Meas := { valid := false, motor := 0, load := 0, vel := 0, cur := 0, torque := 0 }
  let js := (s.slotsOf n)
  if s.isCoupled n then
    let b := s.law n 0
    let s := js.foldl (fun s j => s.runSlotRef n j t b j (fb.getD j none')) s
    let (cs, s) := s.runLaw n 0 fb
    js.foldl (fun s j => if j < cs.length then s.setPoint n j j (cs.getD j 0) else s) s
  else
    js.foldl (fun s j =>
      let b := s.law n j
      let s := s.runSlotRef n j t b 0 (fb.getD j none')
      if b.isEmpty then s else
      let (cs, s) := s.runLaw n j fb
      s.setPoint n j j (cs.getD 0 0)) s

/-- TEMPER_PROGRAM_START (R194): the program of engine `n` runs with the cycle's feedback and takes `clocks` FAB clocks
beside its hooks; an uncorrectable SRAM error traps it (R215). -/
def execTemperProgramStart (n : Fin 64) (fb : List Meas) (clocks : BitVec 24) (sramError : Bool) (s : State) :
    Host.Outcome State Fault Refusal :=
  let s := s.endProgram n
  if !s.on F.TMP_CTL_enable n ∨ s.on F.TMP_STAT_trapped n ∨ s.on F.TMP_STAT_running n ∨ (s.eng n).init
      ∨ s.feedbackDue n then .next s
  else if sramError then .next (s.trapEngine n 3)
  else
    let e := s.eng n
    let s := (s.wr F.TMP_STAT_running 1 n).setEng n { e with out := [], ran := clocks.toNat, late := false, kick := false }
    let s := (((s.tngLate n).runSlots n fb).tickTunes n)
    if s.on F.TMP_STAT_trapped n then .next s else
    let s := (List.range 16).foldl (fun s i => s.captureRow n i) s
    let e := s.eng n
    .next (s.setEng n { e with endAt := s.cellNs + e.ran })

/-- TEMPER_ENABLE (R198): a trapped engine first needs a reset (R215). -/
def execTemperEnable (n : Fin 64) (s : State) : Host.Outcome State Fault Refusal :=
  if s.on F.TMP_CTL_enable n then .next s
  else if s.on F.TMP_STAT_trapped n then .next (s.wrIgnored .tmp n (F.TMP_CTL_enable.addr n 0))
  else .next (((s.wr F.TMP_CTL_enable 1 n).wr F.TMP_STAT_stopped 0 n).setEng n { s.eng n with init := true })

/-- Quench reports STO for every axis of an engine (R216). -/
def State.allSto (s : State) (n : Nat) : Bool :=
  s.on F.QNC_STAT_sto_all || (s.slotsOf n).all fun j => s.rd F.QNC_CHAIN_STAT_stop (s.rd F.TMP_AX_CFG_chain n j) == 3

/-- An engine is disabled: it finishes its program and stops; a background program is abandoned (R216, R249). -/
def State.disableEngine (s : State) (n : Nat) : State :=
  let s := (s.wr F.TMP_CTL_enable 0 n).wr F.TMP_PROG_bg_active 0 n
  let e := s.eng n
  let s := s.setEng n { e with init := false, saved := none, dp := { e.dp with run := 0, goal := none } }
  if s.on F.TMP_STAT_running n then s else s.wr F.TMP_STAT_stopped 1 n

/-- TEMPER_DISABLE (R216). -/
def execTemperDisable (n : Fin 64) (s : State) : Host.Outcome State Fault Refusal :=
  if !s.on F.TMP_CTL_enable n then .next s
  else if s.allSto n then .next ((s.disableEngine n).endProgram n)
  else .next (s.wrIgnored .tmp n (F.TMP_CTL_enable.addr n 0))

/-- The registers of a datapath after an engine reset are undefined but for rrb (R228): free values. -/
def freeDp (k : Nat) : Dp :=
  { d := (List.range 64).foldl (fun l i => store (fun _ => 0) l i (Config.freeWord (k + i))) [],
    a := (List.range 8).foldl (fun l i => store (fun _ => 0) l i ((Config.freeWord (k + 64 + i)).toNat % 2 ^ 17)) [],
    m := (List.range 8).foldl (fun l i => store (fun _ => 0) l i ((Config.freeWord (k + 72 + i)).toNat % 2 ^ 17)) [],
    acc0 := BitVec.ofNat 80 (Config.freeDWord k).toNat, acc1 := BitVec.ofNat 80 (Config.freeDWord (k + 1)).toNat,
    acc0i := BitVec.ofNat 80 (Config.freeDWord k).toNat, acc1i := BitVec.ofNat 80 (Config.freeDWord (k + 1)).toNat,
    lc0 := (Config.freeWord (k + 80)).toNat % 2 ^ 16, lc1 := (Config.freeWord (k + 81)).toNat % 2 ^ 16,
    ls0 := (Config.freeWord (k + 82)).toNat % 2 ^ 12, le0 := (Config.freeWord (k + 83)).toNat % 2 ^ 12,
    ls1 := (Config.freeWord (k + 84)).toNat % 2 ^ 12, le1 := (Config.freeWord (k + 85)).toNat % 2 ^ 12,
    z := (Config.freeWord (k + 86)).toNat.testBit 0, n := (Config.freeWord (k + 86)).toNat.testBit 1,
    link := (Config.freeWord (k + 87)).toNat % 2 ^ 12, bpc := (Config.freeWord (k + 88)).toNat % 2 ^ 12 }

/-- TEMPER_RESET_WRITE (R215): the engine traps with cause 4 and is reset. -/
def execTemperResetWrite (n : Fin 64) (s : State) : Host.Outcome State Fault Refusal :=
  let s := (s.trapEngine n 4).wr F.TMP_STAT_trapped 0 n
  let e := s.eng n
  .next { (s.setEng n { e with dp := freeDp s.free, saved := none, ovr := 0, late := false }) with free := s.free + 89 }

/-- FE_CLEAR (R214). -/
def execFeClear (n : Fin 64) (j : Fin 16) (s : State) : Host.Outcome State Fault Refusal :=
  let e := s.eng n
  .next (((s.wr F.TMP_AX_STAT_fe_fault 0 n j).wr F.TMP_AX_STAT_fe_count 0 n j).setEng n
    (e.setAx j { e.ax j with halted := false }))

/-! ## The common instant (R198, R210, R211) -/

/-- An engine that was enabled starts at the measured position and holds there until a window applies (R198, log entry
83); the measurement before the first feedback is the last one deposited. -/
def State.initEngine (s : State) (n : Nat) : State :=
  let e := s.eng n
  let e := (s.slotsOf n).foldl (fun e j =>
    let x := e.ax j
    e.setAx j { x with origin := x.mpos, pos := x.mpos, vel := 0, acc := 0, held := x.mpos, uPrev := 0, u := 0, sent := 0,
                       inj := 0, halted := false }) { e with init := false, xhat := [], ovr := 0 }
  (List.range 16).foldl (fun s c =>
    let js := s.chainSlots n c
    if js.isEmpty then s else
    let e := s.eng n
    js.foldl (fun s j => s.wr F.TMP_AX_STAT_window 0 n j)
      (s.setEng n (e.setChainWin c { e.chainWin c with active := none, exhausted := false }))) (s.setEng n e)

/-- The origin of a slot moves to its reference when that lies further away than a quarter of the signal range (R198, log
entry 24). -/
def State.rebase (s : State) (n j : Nat) : State :=
  let cp := s.isCoupled n
  let home := if cp then 0 else j
  let b := s.law n home
  if b.isEmpty || !Law.fixed b then s else
  let sh := Law.input b (if cp then j else 0) 1
  let step : Int := if 0 ≤ sh then (2 ^ sh.toNat : Nat) else 1
  let e := s.eng n
  let x := e.ax j
  let d := x.pos - x.origin
  let far := decide ((2 ^ 30 : Nat) < (shiftBy d sh).natAbs)
  if !far then s else
  let move := shiftBy d sh
  let xs := (e.states home)
  let xs := (List.range xs.length).map fun k =>
    if Law.stateAxis b k = some (if cp then j else 0) then xs.getD k 0 - move else xs.getD k 0
  s.setEng n ((e.setAx j { x with origin := x.origin + (if 0 ≤ sh then move * step else d) }).setStates home xs)

/-- The active window of a chain is over with no new one: source 23 cause 10 and code 5, once (R211). -/
def State.exhaustCheck (s : State) (n c t : Nat) : State :=
  let e := s.eng n
  let w := e.chainWin c
  match w.active with
  | some a =>
    if w.exhausted ∨ !a.past t then s else
    let s := s.setEng n (e.setChainWin c { w with exhausted := true })
    let js := s.chainSlots n c
    let s := js.foldl (fun s j => s.wr F.TMP_AX_STAT_window 3 n j) s
    (s.tmpEvent n 5 (js.headD 0) c).holdChain c 10 none
  | none => s

/-- Windows of a chain on an engine at common instant `t`: a ready pending window whose t0 has come becomes active, and an
active one that is over is exhausted (R210, R211). -/
def State.switchWindow (s : State) (n c t : Nat) : State :=
  let js := s.chainSlots n c
  if js.isEmpty then s else
  let e := s.eng n
  let w := e.chainWin c
  match w.pending with
  | some p =>
    if p.ready ∧ 0 ≤ cellDiff t p.t0 then
      js.foldl (fun s j => s.wr F.TMP_AX_STAT_window (if p.ramp then 2 else 1) n j)
        (s.setEng n (e.setChainWin c { w with active := some p, pending := none, exhausted := false }))
    else s.exhaustCheck n c t
  | none => s.exhaustCheck n c t

/-- The set-point that takes effect becomes u of the last cycle; on a standby its own shadow takes effect, and u is the
mirrored one if a mirror came (R430, R431). -/
def Slot.latch (x : Slot) (standby : Bool) : Slot :=
  if standby then { x with sent := x.u, uPrev := x.mirrored.getD x.u, mirrored := none } else { x with uPrev := x.sent }

/-- What an engine does at a common instant `t`. -/
def State.engineInstant (s : State) (n t : Nat) : State :=
  let s := s.endProgram n
  if !s.on F.TMP_CTL_enable n then s else
  let s := if (s.eng n).init then s.initEngine n else s
  let e := s.eng n
  let s := s.setEng n ((s.slotsOf n).foldl (fun e j => e.setAx j ((e.ax j).latch (s.mode == 6))) e)
  let s := (List.range 16).foldl (fun s c => s.switchWindow n c t) s
  (s.slotsOf n).foldl (fun s j => s.rebase n j) s

/-! ## Loading laws (R204) -/

/-- A table of laws with one replaced. -/
def putLaw (l : List (Nat × List Byte)) (j : Nat) (b : List Byte) : List (Nat × List Byte) := store (fun _ => []) l j b

/-- Coefficient memory that a table of laws takes. -/
def lawsSize (l : List (Nat × List Byte)) : Nat := l.foldl (fun a p => a + Law.size p.2) 0

/-- The law may be loaded into the slot beside the others: one use per engine (R192). -/
def usesOk (l : List (Nat × List Byte)) (j : Nat) (b : List Byte) : Bool :=
  if Law.coupled b then j == 0 && l.all (fun p => p.1 == 0)
  else l.all fun p => p.1 == j || !Law.coupled p.2

/-- LAW_LOAD (R204). -/
def execLawLoad (r : Fin 64) (io : HostIo) (s : State) : Host.Outcome State Fault Refusal :=
  .next (s.runDesc r 0x0330 fun s d => s.withBody d io fun s b =>
    let n := d.op 32 1
    let j := d.op 33 1
    let stage := bitAt (d.op 34 1) 0
    let act := s.lawsOf n
    let e := s.eng n
    if !stage then
      if !s.on F.TMP_STAT_stopped n then s.fail d.id 0x15
      else if !Law.ok b || !usesOk act j b || 32768 < lawsSize (putLaw act j b) then s.fail d.id 0x12
      else
        let s := s.setEng n { (e.setStates j []) with page0 := putLaw act j b, staged := false }
        ((s.wr F.TMP_STAT_page 0 n).syncEngine n).complete d.id 1
    else
      let old := lookup (fun _ => []) act j
      let page1 := s.on F.TMP_STAT_page n
      let base := if e.staged then (if page1 then e.page0 else e.page1) else act
      let new := putLaw base j b
      if !Law.ok b || old.isEmpty || !Law.keeps old b || 16384 < lawsSize act || 16384 < lawsSize new then s.fail d.id 0x12
      else
        let e := if page1 then { e with page0 := new, staged := true } else { e with page1 := new, staged := true }
        (s.setEng n e).complete d.id 1)

/-! ## Tuning operations (R217 to R223) -/

/-- The start of a tuning operation: its deadline, or 10 µs after fetch (R217). -/
def State.tuneStart (s : State) (d : Desc) : Nat := if d.deadline = 0 then s.cellNs + 10000 else d.deadline

/-- INJECT (R217, R219). -/
def execInject (r : Fin 64) (io : HostIo) (s : State) : Host.Outcome State Fault Refusal :=
  .next (s.runDesc r 0x0601 fun s d =>
    if d.ext ∧ io.bodyErr then s.fail d.id 0x13 else
    match s.axisHome (d.op 32 1) with
    | none => s.fail d.id 0x12 32
    | some (n, j) =>
      let c := s.rd F.TMP_AX_CFG_chain n j
      let st := (s.chain c).state
      let set := if d.op 52 1 = 0 then none else some (d.op 52 1 - 1)
      let b := io.body
      if s.on F.TMP_AX_CFG_in_chain n j ∧ st ≠ 0 ∧ st ≠ 4 then s.fail d.id 0x15
      else if d.op 34 1 = 2 ∧ 10 ^ 12 < 2 * d.op 48 4 * s.tim.cycleNs then s.fail d.id 0x12 48
      else if d.op 34 1 = 4 ∧ (b.length % 8 ≠ 0 ∨ b.length = 0 ∨ 256 < b.length) then s.fail d.id 0x12
      else { s with temper := { s.temper with tune := s.temper.tune ++
        [{ desc := d.id, inject := true, bytes := d.bytes, body := b, engine := n, slot := j, set := set,
           start := s.tuneStart d }] } })

/-- A quantity of R218 that a channel may name. -/
def quantityOk (q : Nat) : Bool := (1 ≤ q && q ≤ 9) || (0x40 ≤ q && q < 0x80)

/-- CAPTURE_SET (R218). -/
def execCaptureSet (r : Fin 64) (s : State) : Host.Outcome State Fault Refusal :=
  .next (s.runDesc r 0x0602 fun s d =>
    let k := d.op 33 1
    let chs := (List.range k).map fun i => (d.op (40 + 2 * i) 1, d.op (41 + 2 * i) 1)
    let homes := chs.map fun c => (s.axisHome c.1).map (·.1)
    let addr := d.op 56 8
    let n := d.op 36 4
    let same := match homes with | some e :: l => l.all (· == some e) | _ => false
    let fits := Config.tuneBase ≤ addr && addr + 64 + 4 * k * n ≤ Config.tuneBase + Config.tuneSize
    if !same || !fits || addr % 64 != 0 || !chs.all (fun c => quantityOk c.2) then s.fail d.id 0x12
    else (s.setCapset (d.op 32 1) { channels := chs, samples := n, addr := addr, engine := (homes.headD none).getD 0 }).complete
      d.id 1)

/-- CAPTURE (R219). -/
def execCapture (r : Fin 64) (s : State) : Host.Outcome State Fault Refusal :=
  .next (s.runDesc r 0x0603 fun s d =>
    let k := s.capset (d.op 32 1)
    if k.channels.isEmpty then s.fail d.id 0x12 32 else
    let j := match k.channels with
      | c :: _ => ((s.axisHome c.1).map (·.2)).getD 0
      | [] => 0
    { s with temper := { s.temper with tune := s.temper.tune ++
      [{ desc := d.id, inject := false, bytes := d.bytes, body := [], engine := k.engine, slot := j,
         set := some (d.op 32 1), start := s.tuneStart d }] } })

/-- INJECTION_START (R217): at a common instant at or after its start, the oldest accepted operation of the ring starts. -/
def execInjectionStart (r : Fin 64) (s : State) : Host.Outcome State Fault Refusal :=
  match s.temper.tune.find? (fun t => !t.started && s.hif.desc.any fun d => d.id == t.desc && d.ring == r.val) with
  | none => .next s
  | some t =>
    if cellDiff s.tim.lastInstant t.start < 0 then .next s else
    let l := s.temper.tune.map fun x : Tune => if x.desc = t.desc then { x with started := true } else x
    let s := { s with temper := { s.temper with tune := l } }
    let s := match t.set with
      | none => s
      | some k => s.setCapset k { s.capset k with running := true, done := false, overrun := false, staging := [], taken := 0,
                                                  landed := 0, base := [] }
    .next ((s.syncTune t.engine).syncEngine t.engine)

/-- The capture of an operation has ended and every row of it has landed. -/
def State.captureLanded (s : State) (set : Option Nat) : Bool :=
  match set with
  | none => true
  | some k => !(s.capset k).running && (s.capset k).staging.isEmpty

/-- INJECTION_END (R220): the oldest started operation of the ring ends: its duration has passed and its capture has
landed, or Oluend has left COMMISSION. -/
def execInjectionEnd (r : Fin 64) (s : State) : Host.Outcome State Fault Refusal :=
  match s.temper.tune.find? (fun t => t.started && s.hif.desc.any fun d => d.id == t.desc && d.ring == r.val) with
  | none => .next s
  | some t =>
    let out := if t.inject then s.mode != 2 else s.mode != 3 && s.mode != 2
    if out then .next ((s.endTune t 0x15).syncEngine t.engine) else
    let done : Bool := if t.inject then decide (field t.bytes 40 4 ≤ t.elapsed) else
      (match t.set with | some k => !(s.capset k).running | none => true)
    if !done then .next s else
    let note := match t.set with | some k => if (s.capset k).overrun then 32 else 0 | none => 0
    let s := if t.inject ∧ t.ending.isNone then s.stopCapture t.set else s
    if !s.captureLanded t.set then
      let l := s.temper.tune.map fun x : Tune => if x.desc = t.desc then { x with ending := some 1 } else x
      .next (({ s with temper := { s.temper with tune := l } }.syncTune t.engine).syncEngine t.engine)
    else
      let res := s.tuneResult t
      let s := { s with temper := { s.temper with tune := s.temper.tune.filter (·.desc != t.desc) } }
      .next (((s.complete t.desc 1 note res).syncTune t.engine).syncEngine t.engine)

/-- CAPTURE_DRAIN (R221): the staging of a capture set lands in DDR, under its header. -/
def execCaptureDrain (i : Fin 16) (s : State) : Host.Outcome State Fault Refusal :=
  let k := s.capset i
  if k.staging.isEmpty ∨ !s.on F.GLB_STAT_ddr_ok ∨ s.mode = 5 then .next s else
  let row := 4 * k.channels.length
  let n := k.landed + k.staging.length
  let sel := (List.range 8).flatMap fun c => let p := k.channels.getD c (0, 0); toBytes 1 p.1 ++ toBytes 1 p.2
  let head := toBytes 4 n ++ toBytes 4 k.firstCycle ++ toBytes 8 k.firstNs ++ sel ++ toBytes 32 0
  let ddr := writeBytes (writeBytes s.ddr k.addr head) (k.addr + 64 + row * k.landed) (k.staging.flatMap id)
  .next ({ s with ddr := ddr }.setCapset i { k with staging := [], landed := n })

/-- FRA (R222). -/
def execFra (r : Fin 64) (s : State) : Host.Outcome State Fault Refusal :=
  .next (s.runDesc r 0x0604 fun s d =>
    let k := s.capset (d.op 32 1)
    let own := d.op 38 1 == 0xFF
    let n := if own then k.engine else d.op 38 1
    let len := 2 ^ d.op 36 1
    if k.channels.isEmpty || (!own && !(s.slotsOf n).isEmpty) || d.op 56 4 < 32 + 16 * (len / 2 - 1)
        || k.samples < d.op 40 4 + len || s.on F.TMP_PROG_bg_active n || (own && 10 < d.op 36 1)
        || k.channels.length ≤ d.op 33 1 || k.channels.length ≤ d.op 34 1 then s.fail d.id 0x12
    else { s with temper := { s.temper with fra := s.temper.fra ++ [{ desc := d.id, bytes := d.bytes, engine := n }] } })

/-- The oldest FRA of a ring. -/
def State.fraOf (s : State) (r : Nat) : Option Fra :=
  s.temper.fra.find? fun f => s.hif.desc.any fun d => d.id == f.desc && d.ring == r

/-- FRA_START (R222): after every capture of its engine has ended. -/
def execFraStart (r : Fin 64) (s : State) : Host.Outcome State Fault Refusal :=
  match s.fraOf r with
  | none => .next s
  | some f =>
    if f.started ∨ (List.range 16).any (fun i => (s.capset i).running && (s.capset i).engine == f.engine) then .next s else
    let l := s.temper.fra.map fun x : Fra => if x.desc = f.desc then { x with started := true } else x
    .next ({ s with temper := { s.temper with fra := l } }.syncTune f.engine)

/-- An unsigned fraction as IEEE 754 binary32 with its last place free (log entry 18): mantissa and exponent by halving
or doubling within bounds. -/
def scaleMant (num den : Nat) : Nat → Nat → Nat × Nat
  | 0, e => (num / den, e)
  | k + 1, e => if num < den * 2 ^ 23 then scaleMant (2 * num) den k (e - 1)
    else if den * 2 ^ 24 ≤ num then scaleMant num (2 * den) k (e + 1) else (num / den, e)

def bin32 (num den : Nat) : Nat := let (m, e) := scaleMant num den 100 150; e * 2 ^ 23 + (m - 2 ^ 23)

/-- The result of FRA (R223): the header, and for each bin its frequency and free values for the response and the
coherence, whose arithmetic the manual does not fix (log entry 27). -/
def State.fraBytes (s : State) (f : Fra) (avg : Nat) : List Byte :=
  let n := 2 ^ byteAt f.bytes 36
  let w := fun i => toBytes 4 (Config.freeWord (s.free + i)).toNat
  toBytes 4 avg ++ toBytes 4 n ++ toBytes 4 s.tim.cycleNs ++ toBytes 20 0
    ++ (List.range (n / 2 - 1)).flatMap fun b =>
      toBytes 4 (bin32 ((b + 1) * 1000000000) (n * s.tim.cycleNs) + b2n ((Config.freeWord (s.free + 4 * b)).toNat.testBit 0))
        ++ w (4 * b + 1) ++ w (4 * b + 2) ++ w (4 * b + 3)

/-- The segments that a capture gives an FRA (R223). -/
def State.fraSegments (s : State) (f : Fra) : Nat :=
  let n := 2 ^ byteAt f.bytes 36
  let step := if byteAt f.bytes 37 = 1 then n / 2 else n
  ((s.capset (byteAt f.bytes 32)).landed - field f.bytes 40 4 - n) / step + 1

/-- An FRA ends with its result. -/
def State.endFra (s : State) (f : Fra) (io : HostIo) (avg status : Nat) : State :=
  match s.hif.desc.find? (·.id == f.desc) with
  | none => s
  | some d =>
    let bytes := s.fraBytes f avg
    let n := 2 ^ byteAt f.bytes 36
    let s := { s with temper := { s.temper with fra := s.temper.fra.filter (·.desc != f.desc) }, free := s.free + 2 * n }
    (s.hostResult d io (field f.bytes 48 8) bytes 0 status).syncTune f.engine

/-- FRA_COMPLETE (R223). -/
def execFraComplete (r : Fin 64) (io : HostIo) (s : State) : Host.Outcome State Fault Refusal :=
  match s.fraOf r with
  | none => .next s
  | some f => if f.started then .next (s.endFra f io (s.fraSegments f) 1) else .next s

/-- FRA_DEADLINE (R223): over the averages made so far, whose number follows from the engine's free time and is free. -/
def execFraDeadline (r : Fin 64) (io : HostIo) (s : State) : Host.Outcome State Fault Refusal :=
  match s.fraOf r with
  | none => .next s
  | some f =>
    if field f.bytes 8 8 = 0 then .next s else
    let s := s.advanceCell (field f.bytes 8 8)
    let avg := s.freshWord.toNat % (s.fraSegments f + 1)
    .next (s.drawn.endFra f io (if f.started then avg else 0) 3)

/-! ## Owner programs (R246 to R249) -/

/-- A header of an owner program is in range (R246). -/
def progOk (b : List Byte) : Bool :=
  let c := field b 12 2
  field b 0 4 == 0x54504F31 && field b 4 2 == 1 && byteAt b 6 ≤ 3 && byteAt b 7 == 0 && 1 ≤ c && c ≤ 2048
    && b.length == 128 + 8 * c && (field b 14 2 == 0xFFFF || (2048 ≤ field b 14 2 && field b 14 2 ≤ 2047 + c))
    && zeroBytes b 20 44

/-- The owner area of an engine is cleared (R226, R247). -/
def clearOwner (m : List Host.Cell) : List Host.Cell :=
  m.filter fun c => !((0x7400 ≤ c.1 && c.1 < 0x7E00) || 0xF000 ≤ c.1)

/-- PROG_LOAD (R247): `sig` is Farrier's verdict on the signature. -/
def execProgLoad (r : Fin 64) (io : HostIo) (sig : Bool) (s : State) : Host.Outcome State Fault Refusal :=
  .next (s.runDesc r 0x0331 fun s d => s.withBody d io fun s b =>
    let n := d.op 32 1
    if !s.on F.TMP_STAT_stopped n then s.fail d.id 0x15
    else if !progOk b then s.fail d.id 0x12
    else if !s.otp.owner then s.fail d.id 0x14 0xFFFF 1
    else if !sig then s.fail d.id 0x14 0xFFFF 2
    else
      let c := field b 12 2
      let e := s.eng n
      let s := s.setEng n { e with code := (List.range c).map fun i => field b (64 + 8 * i) 8,
                                   bgEntry := field b 14 2, tHook := field b 16 4 }
      let s := s.setSram n (clearOwner (s.sramOf n))
      (((s.wr F.TMP_PROG_loaded 1 n).wr F.TMP_PROG_version (field b 8 2) n).syncEngine n).complete d.id 1)

/-- PROG_CLEAR (R247). -/
def execProgClear (r : Fin 64) (s : State) : Host.Outcome State Fault Refusal :=
  .next (s.runDesc r 0x0332 fun s d =>
    let n := d.op 32 1
    if !s.on F.TMP_STAT_stopped n then s.fail d.id 0x15
    else
      let e := s.eng n
      let s := s.setEng n { e with code := [], bgEntry := 0xFFFF, tHook := 0 }
      let s := s.setSram n (clearOwner (s.sramOf n))
      ((s.wr F.TMP_PROG_loaded 0 n).syncEngine n).complete d.id 1)

/-- BG_START (R249): the background program starts when the engine is idle. -/
def execBgStart (n : Fin 64) (s : State) : Host.Outcome State Fault Refusal :=
  let e := s.eng n
  if s.on F.TMP_PROG_bg_active n ∨ s.temper.fra.any (fun f => f.engine == n.val && f.started) ∨ !s.on F.TMP_PROG_loaded n
      ∨ e.bgEntry = 0xFFFF then .next (s.wrIgnored .tmp n (F.TMP_PROG_bg_start.addr n 0))
  else .next ((s.wr F.TMP_PROG_bg_active 1 n).setEng n { e with dp := { e.dp with run := 2, pc := e.bgEntry } })

/-- The words that the entry handler saves, in order (R244). -/
def Dp.saveWords (x : Dp) : List Byte :=
  let w := fun (v : Nat) => toBytes 4 v
  w x.rrb ++ (List.range 64).flatMap (fun i => w (x.dreg i).toNat)
    ++ (List.range 8).flatMap (fun i => w (lookup (fun _ => 0) x.a i)) ++ (List.range 8).flatMap (fun i => w (lookup (fun _ => 0) x.m i))
    ++ (List.range 6).flatMap (fun i => w (x.ctl (10 + i)).toNat)
    ++ w x.lc0 ++ w x.lc1 ++ w x.ls0 ++ w x.le0 ++ w x.ls1 ++ w x.le1 ++ w (x.ctl 7).toNat ++ w x.link

/-- BACKGROUND_PREEMPTION (R243, R244): at a bundle boundary outside ATOM windows, delay slots and LOOP entries, bpc takes
the first bundle not issued, every issued operation completes, the entry handler saves the registers and the cycle
program starts at bundle 0. -/
def execBackgroundPreemption (n : Fin 64) (s : State) : Host.Outcome State Fault Refusal :=
  let p := (s.px n)
  if p.dp.run ≠ 2 ∨ s.on F.TMP_STAT_trapped n then .next s else
  let q := p.next
  if q.dp.atom ≠ 0 ∨ q.dp.goal.isSome ∨ q.dp.entering.isSome ∨ q.dp.run ≠ 2 ∨ q.trap then .next s else
  let q := q.drain
  let x := { q.dp with bpc := q.dp.pc }
  let m := writeBytes q.mem 0x7E00 x.saveWords
  let q := { q with dp := { x with rrb := 0, pc := 0, run := 1 }, saved := some x, mem := m }
  .next ((s.setPx n q).bump F.TMP_PROG_CNT_preempt n)

end Sys2Proof.Machine
end

