-- ==== Sys2Proof/Machine/CmbSync.lean ====
section
/-!
DEFINITION. Machine/CmbSync.lean: the states of a segment and the changes between them (R316 to R321), its Guards (R332,
R333), arrival offsets (R326), and what the end and the start of a cycle do (R320, R324, R326, R330, R333, R339).
Times within a cycle are in units of 2⁻⁴ ns.
-/

namespace Sys2Proof.Machine

/-! ## A segment -/

def State.cmbState (s : State) (g : Nat) : Nat := s.rd F.CMB_SYNC_STAT_state g

def State.ownNode (s : State) (g : Nat) : Nat := Sched.own (s.sched g)

/-- Source 48 + 2s (R339) and source 49 + 2s (R315). -/
def State.syncEvent (s : State) (g code : Nat) (d : DWord := 0) : State := s.raise (48 + 2 * g) code g d
def State.dataEvent (s : State) (g code : Nat) (d : DWord := 0) : State := s.raise (49 + 2 * g) code g d

/-- The timing segment (R317). -/
def State.isTiming (s : State) (g : Nat) : Bool := s.on F.CMB_SYNC_CFG_timing g

/-- Coldstart-capable (R316). -/
def State.capable (s : State) (g : Nat) : Bool :=
  s.on F.CMB_SYNC_CFG_coldstart_en g && (Sched.syncOf (s.sched g) (s.ownNode g)).isSome

/-- Channel A or B carries the segment; KINDLE uses A alone (R292). -/
def State.chanOn (s : State) (g : Nat) (b : Bool) : Bool :=
  s.on (if b then F.CMB_SEG_CTL_chan_b_en else F.CMB_SEG_CTL_chan_a_en) g && !(b && Sched.mode (s.sched g) == 2)

/-- Whether a node is another than this device: the standby of a pair follows the frames of its own node number (R432). -/
def State.other (s : State) (g node : Nat) : Bool := node != 0 && (node != s.ownNode g || s.mode == 6)

/-- The device may drive a line: it is no standby (R432) and has not fallen silent (R436). -/
def State.maySpeak (s : State) : Bool := s.mode != 6 && !s.combway.silenced

/-- The cell cycle of the device runs (R320). -/
def State.running (s : State) : Bool := s.on F.GLB_STAT_cycle_run

/-- Common instant of the present cycle as the segment sees it, 2⁻⁴ ns: provisional while it integrates without a cycle. -/
def State.segBase (s : State) (g : Nat) : Int :=
  if s.cmbState g = 4 ∧ !s.running then (s.seg g).base else 16 * (s.tim.lastInstant : Int)

/-- The cell cycle counter as the segment holds it. -/
def State.segCount (s : State) (g : Nat) : Nat :=
  if s.cmbState g = 4 ∧ !s.running then (s.seg g).count else s.tim.cycle

/-- The residue of `x` modulo `m` nearest to zero. -/
def nearest (m x : Int) : Int := if m < 2 * (x % m) then x % m - m else x % m

/-- An action point less its slot's start and 2 byte times, without the arrival offset (R299). -/
def State.slotDev (s : State) (g start : Nat) (action : DWord) : Int :=
  let b := s.sched g
  let due := s.segBase g + 16 * start + 2 * Sched.byteTime b
  nearest (16 * Sched.cycle b) (sgn 64 (uns 64 ((action.toNat : Int) - due)))

/-- A new state of R318; the counts that belong to it start again. -/
def State.enterCmb (s : State) (g k : Nat) : State :=
  let x := s.seg g
  (s.setSeg g { x with since := s.cellNs, cycles := 0, good := 0, ready := false, noMaster := 0, noSync := 0 }).wr
    F.CMB_SYNC_STAT_state k g

/-! ## Guards (R333) -/

def guardFld (b : Bool) : Fld := if b then F.CMB_GRD_STAT_closed_b else F.CMB_GRD_STAT_closed_a

def State.guardClosed (s : State) (g : Nat) (b : Bool) : Bool := s.on (guardFld b) g

def Seg8.guard (x : Seg8) (b : Bool) : Guard := if b then x.guardB else x.guardA

def State.setGuard (s : State) (g : Nat) (b : Bool) (v : Guard) (closed : Bool) : State :=
  let x := s.seg g
  (s.setSeg g (if b then { x with guardB := v } else { x with guardA := v })).put (guardFld b) closed g

/-- Both Guards close or open afresh; none opens once Quench's clock has stopped (R359). -/
def State.setGuards (s : State) (g : Nat) (closed : Bool) : State :=
  let c := closed || s.quench.safStopped
  (s.setGuard g false {} c).setGuard g true {} c

/-- The channels on which Oluend can drive a frame. -/
def State.opens (s : State) (g : Nat) (b : Bool) : Bool := s.chanOn g b && !s.guardClosed g b && s.maySpeak

/-- The segment enters SYNC: a Guard that a fault has closed may open again (R333). -/
def Guard.reenter (v : Guard) : Guard := if v.fault then { v with reentered := true } else v

/-! ## The sync master -/

/-- A node becomes sync master; on the timing segment it decides who is cell time master (R317). -/
def State.setMaster (s : State) (g node : Nat) : State :=
  let own := node == s.ownNode g && node != 0 && s.mode != 6
  let s := (s.wr F.CMB_SYNC_STAT_master node g).put F.CMB_SYNC_STAT_master_self own g
  if s.isTiming g then (s.put F.TIM_STAT_master own).syncHoldover else s

/-- The sync slot of the sync master. -/
def State.masterSlot (s : State) (g : Nat) : Option Nat := Sched.syncOf (s.sched g) (s.rd F.CMB_SYNC_STAT_master g)

/-! ## Combway messages -/

/-- The own dynamic identifier that carries them. -/
def State.msgId (s : State) (g : Nat) : Option Nat := Sched.dynOf (s.sched g) (s.ownNode g)

/-- A message waits in an identifier; a TIME or an ECHO_REQ replaces an older one. -/
def State.queueMsg (s : State) (g : Nat) (id : Option Nat) (m : CmbMsg) : State :=
  match id with
  | none => s
  | some i =>
    let x := s.seg g
    let l := (lookup (fun _ => []) x.msgs i).filter fun o => o != m
    s.setSeg g { x with msgs := store (fun _ => []) x.msgs i (l ++ [m]) }

/-! ## Arrival offsets (R326) -/

def Seg8.learn (x : Seg8) (b : Bool) (k : Nat) : Learn := lookup (fun _ => {}) (if b then x.learnB else x.learnA) k

def Seg8.setLearn (x : Seg8) (b : Bool) (k : Nat) (v : Learn) : Seg8 :=
  if b then { x with learnB := store (fun _ => {}) x.learnB k v } else { x with learnA := store (fun _ => {}) x.learnA k v }

/-- An offset takes its place, with the register that shows it. -/
def State.setLearn (s : State) (g : Nat) (b : Bool) (k : Nat) (v : Learn) : State :=
  let s := s.setSeg g ((s.seg g).setLearn b k v)
  (s.wrS (if b then F.CMB_ARR_B_offset else F.CMB_ARR_A_offset) (v.off.getD 0) g k).put
    (if b then F.CMB_ARR_B_learned else F.CMB_ARR_A_learned) v.off.isSome g k

/-- A slot and channel of the slot table, for every slot. -/
def slotChans : List (Nat × Bool) := (List.range 64).flatMap fun k => [(k, false), (k, true)]

/-- Every arrival offset is forgotten, but for that of a slot given. -/
def State.forget (s : State) (g : Nat) (keep : Option Nat) : State :=
  slotChans.foldl (fun s p => if keep = some p.1 then s else s.setLearn g p.2 p.1 {}) s

/-- A copy to learn from. -/
def Learn.add (v : Learn) (d : Int) : Learn :=
  if v.off.isSome || v.bad then v else { v with n := v.n + 1, sum := v.sum + d }

/-- The mean becomes the offset, unless it lies outside ±200 ns. -/
def Learn.settle (v : Learn) : Learn :=
  let o := v.sum / (v.n : Int)
  if v.off.isSome || v.bad || v.n == 0 then v
  else if -3200 ≤ o ∧ o ≤ 3200 then { v with off := some o } else { v with bad := true }

/-- The copies of a cycle enter the offsets; those with 8 copies settle, or every one. -/
def State.learnCycle (s : State) (g : Nat) (all : Bool) : State :=
  let x := s.seg g
  let x := x.samples.foldl (fun x p => x.setLearn p.2.1 p.1 ((x.learn p.2.1 p.1).add p.2.2)) x
  let s := s.setSeg g { x with samples := [] }
  slotChans.foldl (fun s p =>
    let v := (s.seg g).learn p.2 p.1
    if v.off.isSome || v.n == 0 || !(all || decide (8 ≤ v.n)) then s else s.setLearn g p.2 p.1 v.settle) s

/-! ## Changes of state -/

/-- An own cycle that has not been locked ends (R321, log entry 34). -/
def State.dropCycle (s : State) (g : Nat) : State :=
  if s.isTiming g && !s.on F.TIM_STAT_locked then (s.wr F.GLB_STAT_cycle_run 0).wr F.TIM_CMP_CFG_arm 0 0 else s

def State.enterListen (s : State) (g : Nat) : State :=
  let s := ((s.dropCycle g).enterCmb g 1).setGuards g true
  (s.setSeg g { s.seg g with attempts := 0, dynId := 64, mini := 0, occ := 0, mute := false }).setMaster g 0

/-- OFF (R314, R318). -/
def State.segOff (s : State) (g : Nat) : State :=
  let s := ((s.enterCmb g 0).setGuards g true).setMaster g 0
  (s.setSeg g { s.seg g with stopping := false }).wr F.CMB_SEG_STAT_stopped 1 g

/-- SYNC is entered, as sync master or as a follower (R320, R324, R329). -/
def State.enterSync (s : State) (g : Nat) (own : Bool) : State :=
  let s := s.enterCmb g 5
  let x := s.seg g
  (s.setSeg g { x with guardA := x.guardA.reenter, guardB := x.guardB.reenter }).syncEvent g 1 (detail [(0, b2n own)])

/-- The time source of a coldstart: the selected line domain, or TIM_INIT_SEC (R343). -/
def State.timeSource (s : State) : Option Nat :=
  let sel := s.rd F.TIM_LINE_STAT_selected
  if sel ≠ 0 then some (((s.tim.cell : Int) + (s.domain (sel == 2)).theta) % (cellWrap : Int)).toNat
  else if s.on F.TIM_INIT_SEC_HI_valid then
    some (cellOf (s.rd F.TIM_INIT_SEC_LO_sec + s.rd F.TIM_INIT_SEC_HI_sec * 2 ^ 32) 0)
  else none

/-- COLDSTART is entered: with no cycle running the own sync slot starts now (R320), and a device with a time source takes
its first lock (R343). -/
def State.enterColdstart (s : State) (g : Nat) : State :=
  let b := s.sched g
  let start := Sched.slotStart b ((Sched.syncOf b (s.ownNode g)).getD 0)
  let s := if s.running then s.advanceCell (uns 64 (s.tim.lastInstant + start : Nat)) else s
  let s := ((s.enterCmb g 2).setGuards g false).syncEvent g 3
  let s := if s.running || !s.isTiming g then s
    else
      let s := match s.timeSource with
        | some c => s.firstLock c
        | none => s
      s.placeCycle (uns 64 ((s.cellNs : Int) - start)) 0
  s.queueMsg g (s.msgId g) .time

/-- A collision in COLDSTART (R321). -/
def State.collide (s : State) (g : Nat) : State :=
  let s := ((s.dropCycle g).enterCmb g 3).setGuards g true
  let x := s.seg g
  let n := min 255 (x.attempts + 1)
  ((s.setSeg g { x with attempts := n }).bump F.CMB_SYNC_CNT_collisions g).syncEvent g 4 (detail [(0, n)])

/-- INTEGRATE is entered with the first valid sync frame, of slot `k` (R324 steps 1 and 2).  A cycle that runs is not moved
(R344); a node without own identifier, and a standby, use CMB_SYNC_DELAY_SET (R324, R432). -/
def State.enterIntegrate (s : State) (g k count : Nat) (action : DWord) : State :=
  let b := s.sched g
  let s := ((s.enterCmb g 4).setGuards g false).forget g none
  let s := s.setMaster g (Sched.slot b k).owner
  let none_ := (s.msgId g).isNone || s.mode == 6
  let d : Option Int := if none_ then some (s.rd F.CMB_SYNC_DELAY_SET_delay g : Int) else none
  let x := s.seg g
  let base : Int := (action.toNat : Int) - 16 * Sched.slotStart b k - 2 * Sched.byteTime b
  s.setSeg g { x with
    base := base, count := count, timed := false, timeNs := 0, timeAt := 0, echoOk := none_, echoPast := none_
    dynId := 64, mini := 0, occ := 0, mute := false
    delayA := d, delayB := d, samples := [], master := none, prevDev := none, contra := false, syncNow := [k] }

/-! ## The end and the start of a cycle -/

/-- Silent cycles of each owner (R339): 16 stay until their event is raised, 17 after it. -/
def quieter (heard : List Nat) (p : Nat × Option Nat) : Nat × Option Nat :=
  if heard.contains p.1 then (p.1, some 0)
  else (p.1, p.2.map fun n => if n < 16 then n + 1 else n)

/-- A cycle without a valid sync frame counts for Guard (R333). -/
def Guard.tick (v : Guard) : Guard := { v with missed := if v.seen then 0 else v.missed + 1, seen := false }

/-- The cycle of a segment has ended: full valid cycles (R324, R329), learning (R326), frames that were missing (R330,
R333, R339), and the counters of the next cycle. -/
def State.cycleEnd (s : State) (g : Nat) : State :=
  let b := s.sched g
  let x := s.seg g
  let st := s.cmbState g
  let e := x.master.map (·.2.2)
  let full := match e with
    | some v => decide (-2400 ≤ v ∧ v ≤ 2400) && !x.contra
    | none => false
  let near := match e with
    | some v => decide (-1200 ≤ v ∧ v ≤ 1200)
    | none => false
  let good := if st = 4 then (if full && x.timed && decide (x.timeAt < x.cycles) then min 8 (x.good + 1) else x.good)
    else if st = 6 then (if full && near then x.good + 1 else 0)
    else x.good
  let settling := st == 4 && decide (x.good < 8)
  let s := if st = 5 ∨ st = 6 ∨ (st = 4 ∧ 8 ≤ x.good) then s.learnCycle g false
    else if settling && good != x.good then s.learnCycle g (good == 8)
    else s
  let x := s.seg g
  let own := (Sched.syncOf b (s.ownNode g)).any fun k => x.syncNow.contains k
  let alive := e.isSome || (s.on F.CMB_SYNC_STAT_master_self g && own)
  s.setSeg g { x with
    good := good
    ready := st == 4 && full && good == 8 && x.echoPast
    echoPast := x.echoOk
    cycles := if st = 2 ∧ !own then x.cycles else x.cycles + 1
    noMaster := if alive then 0 else x.noMaster + 1
    noSync := if x.syncNow.isEmpty then x.noSync + 1 else 0
    syncLast := x.syncNow
    syncNow := []
    silent := x.silent.map (quieter x.heardNow)
    heardNow := []
    guardA := x.guardA.tick
    guardB := x.guardB.tick
    prevDev := e.or x.prevDev
    masterLast := x.master
    master := none
    contra := false
    samples := []
    base := x.base + 16 * Sched.cycle b
    count := (x.count + 1) % 2 ^ 32
    timeNs := x.timeNs + Sched.cycle b
    dynId := 64, mini := 0, occ := 0, mute := false, sent := [] }

/-- A cycle starts: TIME in COLDSTART and in every sixteenth cycle of a sync master (R320), ECHO_REQ while integrating
(R324 step 3). -/
def State.cycleStart (s : State) (g : Nat) : State :=
  let st := s.cmbState g
  let x := s.seg g
  if st = 2 ∨ (st = 5 ∧ s.on F.CMB_SYNC_STAT_master_self g ∧ s.tim.cycle % 16 = 0) then s.queueMsg g (s.msgId g) .time
  else if st = 4 ∧ x.timed ∧ !x.echoOk then
    (s.setSeg g { x with echoSeq := (x.echoSeq + 1) % 256 }).queueMsg g (s.msgId g) .echoReq
  else s

/-! ## A device that falls silent (R436) -/

/-- A device that has entered STANDBY follows the sync frames of its pair's active device without echo, with
CMB_SYNC_DELAY_SET as its delay (R432). -/
def State.followPartner (s : State) : State :=
  (List.range 8).foldl (fun s g =>
    if s.on F.CMB_SEG_STAT_stopped g then s else
    let d : Option Int := some (s.rd F.CMB_SYNC_DELAY_SET_delay g : Int)
    (s.setSeg g { s.seg g with delayA := d, delayB := d, echoOk := true, echoPast := true }).setMaster g
      (s.rd F.CMB_SYNC_STAT_master g)) s

/-- It sends nothing until its reset, enters STANDBY from RUN or HOLD (R444), source 109 code 2 is raised, and every outstanding descriptor completes with 0xE2. -/
def State.fallSilent (s : State) : State :=
  if s.combway.silenced then s
  else
    let s := { s with combway := { s.combway with silenced := true } }.raise 109 2 0xFFFF (detail [(4, s.tim.cycle)])
    let s := if s.mode = 3 ∨ s.mode = 4 then ((s.setMode 6 15).wr F.GLB_STAT_role 2).followPartner else s
    s.hif.desc.foldl (fun s d => s.complete d.id 0xE2) s

end Sys2Proof.Machine
end

