-- ==== Sys2Proof/Machine/Pair.lean ====
section
/-!
DEFINITION. Machine/Pair.lean: what both devices of a pair hold ready: the configuration digest (R425), readiness (R427), the
role decision (R426), and what a common instant does for the pair.
-/

namespace Sys2Proof.Machine

/-- An entry of the zone table as its bytes (R185); an unused entry is zero. -/
def Zone.bytes (z : Zone) : List Byte :=
  if z.scope = 0 then List.replicate 16 0
  else toBytes 1 z.scope ++ toBytes 1 z.pos ++ toBytes 2 z.cell ++ toBytes 4 z.hold ++ toBytes 4 z.wait ++ toBytes 1 z.seg
    ++ toBytes 3 0

/-- The values that the digest covers, in the order of R425, each in its own width (log entry 37). -/
def State.digestBytes (s : State) : List Byte :=
  toBytes 4 (s.rd F.GLB_IMG_VER_version)
    ++ (List.range 8).flatMap (fun g => if (s.seg g).sched.isSome then toBytes 4 (s.rd F.CMB_SCHED_ID_crc g) else [])
    ++ toBytes 4 (s.rd F.QNC_SPS_CRC_crc)
    ++ (List.range 64).flatMap (fun n => (s.lawsOf n).flatMap fun p => toBytes 4 (crc32c p.2))
    ++ toBytes 4 (crc32c ((List.range 32).flatMap fun z => (s.zoneEnt z).bytes))

/-- The configuration digest (R425). -/
def State.digest (s : State) : Nat := crc32c s.digestBytes

/-- The timing segment. -/
def State.timingSeg (s : State) : Option Nat := (List.range 8).find? fun g => s.isTiming g

/-- A ready standby (R427; log entry 40 on the mirrors). -/
def State.isReady (s : State) : Bool :=
  let b := s.bellows
  s.mode == 6 && !s.combway.silenced && s.on F.BLW_STAT_link
    && s.rd F.BLW_DIGEST_digest == s.rd F.BLW_PDIGEST_digest
    && (b.mode == 3 || b.mode == 4) && b.mirrorOk && b.countersOk
    && s.timingSeg.any (fun g => s.cmbState g == 5) && s.on F.QNC_STAT_confirmed

/-- BLW_DIGEST and BLW_STAT.ready while the pairing runs. -/
def State.syncPair (s : State) : State :=
  if !s.on F.BLW_CTL_enable then s else
  let s := s.wr F.BLW_DIGEST_digest s.digest
  s.put F.BLW_STAT_ready s.isReady

/-- Source 108 to 111 (R441). -/
def State.blwEvent (s : State) (src code : Nat) (d : DWord := 0) : State := s.raise src code 0xFFFF d

/-- The role that R426 gives now: 0 pairing off; 1 active; 2 standby; 3 it waits for an active partner; 4 none, the link is
down; 5 a primary whose link has not yet been down for 1 s (log entry 38). -/
def State.roleChoice (s : State) : Nat :=
  if !s.on F.BLW_CTL_enable then 0
  else
    let link := s.on F.BLW_STAT_link
    let primary := s.on F.BLW_CFG_primary
    if link && s.rd F.BLW_STAT_partner_role == 1 then 2
    else if link then (if primary then 1 else 3)
    else if s.bellows.timedOut then (if primary then 1 else 4)
    else (if primary then 5 else 3)

/-- The state of a context as a standby holds it: SHADOW for a mirrored one (R107). -/
def State.shadowContexts (s : State) : State :=
  (List.range 1024).foldl (fun s c =>
    if s.on F.HIV_CTX0_mirrored c && (s.ctxState c == 1 || s.ctxState c == 2) then s.wr F.HIV_CTX0_state 4 c else s) s

/-- STANDBY is entered (R426, R432, R438). -/
def State.enterStandby (s : State) (cause : Nat) : State :=
  ((s.setMode 6 cause).wr F.GLB_STAT_role 2).followPartner.shadowContexts

/-- RUN or HOLD is entered from COMMISSION or at the end of boot with the role that R426 gives; without one the device stays
where it is (R426, R444). -/
def State.takeRole (s : State) (target cause : Nat) : State :=
  match s.roleChoice with
  | 1 => (s.setMode target cause).wr F.GLB_STAT_role 1
  | 2 => s.enterStandby cause
  | 3 => s
  | 4 => s.blwEvent 110 3
  | _ => (s.setMode target cause).wr F.GLB_STAT_role 0

/-- What a common instant does for the pair: the mirror ages, a device that yields to its ready partner falls silent
(R452). -/
def State.pairInstant (s : State) : State :=
  let s := s.bump F.BLW_MIRROR_age
  let s := if s.bellows.yielding then
      { s with combway := { s.combway with silenced := true }, bellows := { s.bellows with yielding := false } }
    else s
  s.syncPair

end Sys2Proof.Machine
end

