-- ==== Sys2Proof/Machine/CmbFrame.lean ====
section
/-!
DEFINITION. Machine/CmbFrame.lean: frames as they are sent (R295 to R297, R300, R312, R313, R323) and as they are received
(R307 to R311, R321, R326 to R328, R339).
-/

namespace Sys2Proof.Machine

/-! ## Frames (R295 to R297) -/

/-- A frame from its header to its frame CRC. -/
def frameBytes (id cycle flags : Nat) (payload : List Byte) : List Byte :=
  let h := toBytes 2 id ++ toBytes 2 cycle ++ toBytes 1 payload.length ++ toBytes 1 flags
  let c := crc16 h
  let f := h ++ toBytes 1 (c / 256) ++ toBytes 1 c ++ payload
  f ++ toBytes 4 (crc32c f)

def frameId (f : List Byte) : Nat := field f 0 2 % 1024
def frameLen (f : List Byte) : Nat := byteAt f 4
def frameFlag (f : List Byte) (i : Nat) : Bool := bitAt (byteAt f 5) i
def framePayload (f : List Byte) : List Byte := (f.drop 8).take (frameLen f)

def headerOk (f : List Byte) : Bool :=
  crc16 (f.take 6) == 256 * byteAt f 6 + byteAt f 7 && frameLen f != 255

def frameCrcOk (f : List Byte) : Bool :=
  f.length == 12 + frameLen f && field f (8 + frameLen f) 4 == crc32c (f.take (8 + frameLen f))

/-- Mini-slots that a frame of `n` payload bytes occupies (R300). -/
def occupancy (b : List Byte) (n : Nat) : Nat := ((28 + n) * Sched.byteTime b + 3999) / 4000

/-- Mini-slots that remain at the present boundary. -/
def remaining (b : List Byte) (x : Seg8) : Nat := Sched.minis b - (x.mini - 1)

/-- Start in ns after the common instant of the present mini-slot. -/
def miniStart (b : List Byte) (x : Seg8) : Nat := Sched.slots b * Sched.slotLen b * 25 + 250 * (x.mini - 1)

/-! ## The checks of a copy (R307) -/

/-- Copies are accepted at any time, and their cycle count is not checked (R327). -/
def State.freeRx (s : State) (g : Nat) : Bool :=
  let st := s.cmbState g
  st == 1 || st == 2 || st == 3 || (st == 4 && !(s.seg g).timed)

/-- The owner of an identifier; 0 for none. -/
def idOwner (b : List Byte) (id : Nat) : Nat :=
  if id < 64 then (if id < Sched.slots b then (Sched.slot b id).owner else 0) else (Sched.ownerOf b id).getD 0

/-- The lowest static slot of a node. -/
def firstSlot (b : List Byte) (node : Nat) : Option Nat :=
  (List.range (Sched.slots b)).find? fun k => (Sched.slot b k).owner == node

/-- The acceptance window (R327, R334): `k` is the static slot, none for the dynamic segment. -/
def State.inWindow (s : State) (g : Nat) (k : Option Nat) (chanB : Bool) (action : DWord) : Bool :=
  let b := s.sched g
  let x := s.seg g
  let narrow : Int := if Sched.mode b = 1 then 2000 else 1200
  let within := fun (w d : Int) => decide (-w ≤ d ∧ d ≤ w)
  match k with
  | some k =>
    let v := x.learn chanB k
    let d := s.slotDev g (Sched.slotStart b k) action
    if v.bad then false
    else match v.off with
      | some o => within narrow (d - o)
      | none => within 4000 d
  | none =>
    let d := s.slotDev g (miniStart b x) action
    match (firstSlot b (idOwner b x.dynId)).bind fun k => (x.learn chanB k).off with
    | some o => within narrow (d - o)
    | none => within 4000 d

/-- The first check of R307 that a copy fails; 0 for a valid copy. -/
def State.checkCopy (s : State) (g : Nat) (k : Option Nat) (chanB : Bool) (c : Copy) : Nat :=
  let b := s.sched g
  let x := s.seg g
  let free := s.freeRx g
  let id := frameId c.bytes
  let owner := idOwner b id
  if !c.start || !c.clean then 1
  else if !free && !s.inWindow g k chanB c.action then 2
  else if !headerOk c.bytes then 3
  else if (!free && id != k.getD x.dynId) || !s.other g owner then 4
  else if !free && field c.bytes 2 2 != s.segCount g % 65536 then 5
  else if (if id < 64 then frameLen c.bytes != (Sched.slot b id).len
      else !free && decide (remaining b x < occupancy b (frameLen c.bytes))) then 6
  else if !frameCrcOk c.bytes || !c.complete then 7
  else 0

/-! ## Counters and window counts (R314, R315) -/

def errFld (code : Nat) : Fld :=
  match code with
  | 1 => F.CMB_ERR0_coding
  | 2 => F.CMB_ERR3_window
  | 3 => F.CMB_ERR0_hdr_crc
  | 4 => F.CMB_ERR1_stranger
  | 5 => F.CMB_ERR2_cycle
  | 6 => F.CMB_ERR2_length
  | _ => F.CMB_ERR1_frm_crc

/-- One more in a window count: the event follows once per window, at its threshold. -/
def WinCount.hit (w : WinCount) (thr : Nat) : WinCount × Bool :=
  let fire := thr != 0 && !w.told && decide (thr ≤ w.n + 1)
  ({ n := w.n + 1, told := w.told || fire }, fire)

/-- The check with the largest window count. -/
def largest (l : List (Nat × Nat)) : Nat :=
  (l.foldl (fun m p => if m.2 < p.2 then p else m) ((1, 0) : Nat × Nat)).1

/-- A copy failed a check (R307, R315 code 5). -/
def State.countError (s : State) (g : Nat) (b : Bool) (code : Nat) : State :=
  let s := s.bump (errFld code) g (b2n b)
  let x := s.seg g
  let l := if b then x.errB else x.errA
  let l := store (fun _ => 0) l code (lookup (fun _ => 0) l code + 1)
  let told := if b then x.errToldB else x.errToldA
  let thr := s.rd F.CMB_THR_errors g
  let fire := thr != 0 && !told && decide (thr ≤ l.foldl (fun n p => n + p.2) 0)
  let s := s.setSeg g (if b then { x with errB := l, errToldB := told || fire }
    else { x with errA := l, errToldA := told || fire })
  if fire then s.dataEvent g 5 (detail [(0, b2n b), (1, largest l)]) else s

/-- One channel lost a frame that the other carried (codes 2 and 3). -/
def State.countLoss (s : State) (g : Nat) (b : Bool) (at_ : Nat) : State :=
  let s := s.bump F.CMB_ERR3_loss g (b2n b)
  let x := s.seg g
  let (w, fire) := (if b then x.lossB else x.lossA).hit (s.rd F.CMB_THR_loss g)
  let s := s.setSeg g (if b then { x with lossB := w } else { x with lossA := w })
  if fire then s.dataEvent g (2 + b2n b) (detail [(0, at_)]) else s

/-- Both copies were valid and differed (code 4). -/
def State.countMismatch (s : State) (g at_ : Nat) : State :=
  let s := s.bump F.CMB_RX_ERR_mismatch g
  let x := s.seg g
  let (w, fire) := x.mism.hit (s.rd F.CMB_THR_mismatch g)
  let s := s.setSeg g { x with mism := w }
  if fire then s.dataEvent g 4 (detail [(0, at_)]) else s

/-- No copy was valid (code 6): an event for every safety slot, else by the threshold of losses. -/
def State.countLost (s : State) (g at_ : Nat) (safety : Bool) : State :=
  let s := s.bump F.CMB_RX_ERR_lost g
  let x := s.seg g
  let (w, fire) := x.lostW.hit (s.rd F.CMB_THR_loss g)
  let s := s.setSeg g { x with lostW := w }
  if safety || fire then s.dataEvent g 6 (detail [(0, at_)]) else s

/-- A late set-point (R313, code 1). -/
def State.countLate (s : State) (g k : Nat) : State :=
  let s := s.bump F.CMB_TX_ERR_late g
  let x := s.seg g
  let (w, fire) := x.lateW.hit (s.rd F.CMB_THR_late g)
  let s := s.setSeg g { x with lateW := w }
  if fire then s.dataEvent g 1 (detail [(0, k)]) else s

/-! ## Deposits (R309, R311) -/

/-- Bytes enter a destination of R304. -/
def State.depositAt (s : State) (g kind eng a : Nat) (bs : List Byte) : State :=
  match kind with
  | 1 => s.setSram eng (writeBytes (s.sramOf eng) a bs)
  | 2 => { s with combway := { s.combway with qin := writeBytes s.combway.qin (8192 * g + a) bs } }
  | _ => s.setSeg g { s.seg g with area := writeBytes (s.seg g).area a bs }

/-- The time of a deposit into Quench's input buffer is kept for the watchdogs of R374. -/
def State.noteDeposit (s : State) (g : Nat) (p : Place) : State :=
  if p.kind ≠ 2 then s
  else { s with combway := { s.combway with
    qinAt := store (fun _ => (0, 0)) s.combway.qinAt (8192 * g + p.arg) (p.len, s.cellNs) } }

/-- What a static slot received: whether the copies were valid, the taken frame, mismatch. -/
structure SlotRx where
  a : Bool
  b : Bool
  frame : Option (List Byte)
  mism : Bool
  deriving DecidableEq, Repr

/-- The receive status word (R311). -/
def State.statusWord (s : State) (g : Nat) (r : SlotRx) : Nat :=
  let f := r.frame.getD []
  let null := frameFlag f 2
  s.segCount g % 65536 + 65536 * b2n (r.frame.isSome && !null) + 2 ^ 17 * b2n r.a + 2 ^ 18 * b2n r.b
    + 2 ^ 19 * b2n r.mism + 2 ^ 20 * b2n null + 2 ^ 21 * b2n (frameFlag f 3)

/-- The placements and status words of a slot (R309, R311). -/
def State.depositSlot (s : State) (g k : Nat) (r : SlotRx) : State :=
  let w := s.statusWord g r
  let s := s.wr F.CMB_SLOT_STAT_status w g k
  (Sched.rx (s.sched g)).foldl (fun s p =>
    if p.slot ≠ k then s
    else
      let s := match r.frame with
        | some f => if frameFlag f 2 then s
          else (s.depositAt g p.kind p.eng p.arg (((framePayload f).drop p.off).take p.len)).noteDeposit g p
        | none => s
      if bitAt p.b3 0 then s.depositAt g p.kind p.eng (p.arg - 4) (toBytes 4 w) else s) s

/-! ## What a valid frame tells (R326, R328, R339) -/

/-- A node has been heard: code 9 where it counted as silent. -/
def State.heard (s : State) (g node : Nat) : State :=
  let x := s.seg g
  let prev := ((x.silent.find? fun p => p.1 == node).bind (·.2)).getD 16
  let joined := !x.heardNow.contains node && decide (16 ≤ prev)
  let l := (x.silent.filter fun p => p.1 != node) ++ [(node, some 0)]
  let s := s.setSeg g { x with heardNow := if x.heardNow.contains node then x.heardNow else node :: x.heardNow, silent := l }
  if joined then s.syncEvent g 9 (detail [(0, node)]) else s

/-- A valid static frame: collision, integration, the master's deviation, and copies to learn from. -/
def State.syncFrame (s : State) (g id : Nat) (f : List Byte) (taken : Bool × DWord) (ca cb : Option DWord) : State :=
  let b := s.sched g
  let st := s.cmbState g
  let isSync := frameFlag f 0 && (Sched.syncSlots b).contains id
  if st = 2 ∧ frameFlag f 1 then s.collide g
  else if isSync ∧ (st = 1 ∨ (st = 3 ∧ frameFlag f 1)) then s.enterIntegrate g id (field f 2 2) taken.2
  else if st < 4 then s
  else
    let start := Sched.slotStart b id
    let isMaster := s.masterSlot g == some id
    let x := s.seg g
    let x := if isMaster then x
      else
        let add := fun (x : Seg8) (chanB : Bool) (c : Option DWord) => match c with
          | some t => { x with samples := x.samples ++ [(id, chanB, s.slotDev g start t)] }
          | none => x
        add (add x false ca) true cb
    if !isSync then s.setSeg g x
    else
      let x := { x with
        syncNow := if x.syncNow.contains id then x.syncNow else id :: x.syncNow
        guardA := if ca.isSome then { x.guardA with seen := true } else x.guardA
        guardB := if cb.isSome then { x.guardB with seen := true } else x.guardB }
      if !isMaster || x.master.isSome then s.setSeg g x
      else
        let raw := s.slotDev g start taken.2
        s.setSeg g { x with master := some (taken.1, raw, raw - ((x.learn taken.1 id).off.getD 0)) }

/-- A taken dynamic frame: a Combway message waits for its evaluation (R322), another enters the ring (R309). -/
def State.dynFrame (s : State) (g id : Nat) (f : List Byte) (ca cb : Option DWord) : State :=
  let p := framePayload f
  let x := s.seg g
  let t := byteAt p 0
  if 0xE0 ≤ t then
    let need := if t = 0xE0 then 16 else if t = 0xE1 then 40 else 20
    if 0xE2 < t ∨ p.length < need then s
    else s.setSeg g { x with inbox := x.inbox ++ [{ payload := p, atA := ca.map (·.toNat), atB := cb.map (·.toNat) }] }
  else if x.ring.foldl (fun n r => n + r.length) 0 + 8 + p.length ≤ 16384 then
    s.setSeg g { x with ring := x.ring ++ [f.take (8 + p.length)] }
  else (s.bump F.CMB_TX_ERR_drxq_ovf g).dataEvent g 7 (detail [(0, id)])

/-! ## Reception (R308) -/

/-- The copy whose end sequence completes first; in the same CMB clock the copy on A. -/
def bFirst (a b : Copy) : Bool := decide (sgn 32 (uns 32 ((b.done.toNat : Int) - a.done.toNat)) < 0)

/-- In the dynamic segment a frame occupies the mini-slots that its valid header gives; a start without one ends the segment for
Oluend (R300). -/
def State.heardDyn (s : State) (g : Nat) (k : Option Nat) (a b : Option Copy) : State :=
  let l := a.toList ++ b.toList
  let x := s.seg g
  if k.isSome then s else
  match (l.filter fun c => c.start && headerOk c.bytes).head? with
  | some c => s.setSeg g { x with occ := occupancy (s.sched g) (frameLen c.bytes) - 1 }
  | none => if l.any (·.start) then s.setSeg g { x with mute := true } else s

/-- The counts of the copies on the two channels, by the check that each fails: 0 valid, 1 to 7 a check, 8 nothing (R307, R309). -/
def State.countCopies (s : State) (g va vb : Nat) : State :=
  let s := if 1 ≤ va ∧ va ≤ 7 then s.countError g false va else s
  let s := if 1 ≤ vb ∧ vb ≤ 7 then s.countError g true vb else s
  let s := if va = 0 then s.bump F.CMB_RX_valid g 0 else s
  if vb = 0 then s.bump F.CMB_RX_valid g 1 else s

/-- The counts of the pair of copies: a mismatch, a loss on one channel (R309, R311). -/
def State.countPair (s : State) (g id : Nat) (okA okB mism : Bool) : State :=
  let s := if mism then s.countMismatch g id else s
  let s := if okA && !okB && s.chanOn g true then s.countLoss g true id else s
  if okB && !okA && s.chanOn g false then s.countLoss g false id else s

/-- A frame of another node, in static slot `k` or in the dynamic segment. -/
def State.receive (s : State) (g : Nat) (k : Option Nat) (a b : Option Copy) : State :=
  let bs := s.sched g
  let free := s.freeRx g
  let va := match a with
    | some c => s.checkCopy g k false c
    | none => 8
  let vb := match b with
    | some c => s.checkCopy g k true c
    | none => 8
  let okA := va == 0
  let okB := vb == 0
  let any := a.isSome || b.isSome
  let taken : Option (Bool × Copy) := match a, b with
    | some x, some y => if okA && okB then (if bFirst x y then some (true, y) else some (false, x))
      else if okA then some (false, x) else if okB then some (true, y) else none
    | some x, none => if okA then some (false, x) else none
    | none, some y => if okB then some (true, y) else none
    | none, none => none
  let id := match taken with
    | some t => frameId t.2.bytes
    | none => k.getD (s.seg g).dynId
  let text := fun (c : Option Copy) => (c.map fun c => c.bytes.take (8 + frameLen c.bytes)).getD []
  let mism := okA && okB && text a != text b
  let s := ((s.heardDyn g k a b).countCopies g va vb).countPair g id okA okB mism
  let ca := if okA then a.map (·.action) else none
  let cb := if okB then b.map (·.action) else none
  match taken with
  | some (onB, c) =>
    let s := s.heard g (idOwner bs id)
    if id < 64 then
      (s.depositSlot g id { a := okA, b := okB, frame := some c.bytes, mism := mism }).syncFrame g id c.bytes
        (onB, c.action) ca cb
    else s.dynFrame g id c.bytes ca cb
  | none =>
    match k with
    | some k =>
      let due := !free && idOwner bs k != 0
      let s := if due || any then s.countLost g k (bitAt (Sched.slot bs k).flags 1) else s
      if free then s else s.depositSlot g k { a := false, b := false, frame := none, mism := false }
    | none => if any then s.countLost g id false else s

/-- A frame in an own slot.  In COLDSTART a copy of the own frame that is damaged or differs is a collision (R321); an
active device that hears its slot in use on its timing segment while its own driver was off falls silent (R436). -/
def State.receiveOwn (s : State) (g k : Nat) (a b : Option Copy) : State :=
  let mine := ((s.seg g).sent.find? fun p => p.1 == k).map (·.2)
  let l := a.toList ++ b.toList
  match mine with
  | some f =>
    if s.cmbState g = 2 ∧ (l.any fun c => !c.start || !c.clean || c.bytes != f) then s.collide g else s
  | none =>
    let valid := fun (c : Copy) => c.start && c.clean && c.complete && headerOk c.bytes && frameCrcOk c.bytes
      && frameId c.bytes == k && field c.bytes 2 2 == s.segCount g % 65536
      && frameLen c.bytes == (Sched.slot (s.sched g) k).len
    if s.rd F.GLB_STAT_role = 1 ∧ s.on F.BLW_CTL_enable ∧ s.isTiming g ∧ s.cmbState g = 5 ∧ l.any valid then s.fallSilent
    else s

/-! ## Sending (R300, R312, R313, R323) -/

/-- What a segment sends is noted for its own receiver. -/
def State.sendFrame (s : State) (g id : Nat) (f : List Byte) : State :=
  let x := s.seg g
  s.setSeg g { x with sent := x.sent ++ [(id, f)] }

/-- The frame of an own static slot: SYNC and STARTUP in COLDSTART, the scheduled frames in SYNC (R318, R320). -/
def State.sendStatic (s : State) (g k : Nat) : State :=
  let b := s.sched g
  let st := s.cmbState g
  let sync := Sched.syncOf b (s.ownNode g) == some k
  if (Sched.slot b k).owner ≠ s.ownNode g ∨ !(st == 5 || (st == 2 && sync)) ∨ !(s.opens g false || s.opens g true) then s
  else
    let t := s.txSlot g k
    let flags := b2n sync + 2 * b2n (st == 2) + 4 * b2n t.null + 8 * b2n t.rep
    let p := if t.null then List.replicate (Sched.slot b k).len (0 : Byte) else t.send
    let s := s.sendFrame g k (frameBytes k (s.tim.cycle % 65536) flags p)
    if !sync then s
    else
      let x := s.seg g
      s.setSeg g { x with
        syncNow := if x.syncNow.contains k then x.syncNow else k :: x.syncNow
        guardA := if s.opens g false then { x.guardA with seen := true } else x.guardA
        guardB := if s.opens g true then { x.guardB with seen := true } else x.guardB }

/-- The examination of an own slot at its transmit lead (R313); stopped engines count as written in SENTINEL and STAGE
(R451). -/
def State.examine (s : State) (g k : Nat) : State :=
  let b := s.sched g
  if (Sched.slot b k).owner ≠ s.ownNode g ∨ s.on F.CMB_SEG_STAT_stopped g then s
  else
    let ps := (Sched.txIdx b).filter fun p => p.2.slot == k
    let ones := ps.filter fun p => p.2.kind == 1
    let rest := fun (p : Nat × Place) => (s.mode == 5 || s.mode == 7) && s.on F.TMP_STAT_stopped p.2.eng
    let s := ones.foldl (fun s p => if rest p then s.fillPlace g p.1 p.2 [0, 0] else s) s
    let t := s.txSlot g k
    let all := ones.all fun p => t.written.contains p.1
    if all then
      let s := s.setTxSlot g k { t with send := t.fill, written := [], null := false, rep := false }
      ones.foldl (fun s p =>
        let e := s.eng p.2.eng
        s.setEng p.2.eng (e.setAx p.2.b3 { e.ax p.2.b3 with sent := fieldS t.fill p.2.off 2 })) s
    else if t.null then s.setTxSlot g k { t with written := [] }
    else
      let send := (ps.filter fun p => p.2.kind != 1).foldl
        (fun l p => putBytes l p.2.off ((t.fill.drop p.2.off).take p.2.len)) t.send
      (s.setTxSlot g k { t with send := send, written := [], rep := true }).countLate g k

/-- Whether a state permits a Combway message (R318, R325, R332). -/
def State.msgAllowed (s : State) (g : Nat) (m : CmbMsg) : Bool :=
  let st := s.cmbState g
  match m with
  | .echoReq => st == 4
  | .time | .echoResp .. => st == 2 || (st == 5 && s.on F.CMB_SYNC_STAT_master_self g)

/-- Cell seconds and nanoseconds of the present common instant. -/
def State.instantTime (s : State) : Nat :=
  (((s.tim.cell / 2 ^ 32 : Nat) : Int) - cellDiff s.cellNs s.tim.lastInstant).toNat

/-- The payload of a Combway message whose action point is `t` (R323). -/
def State.msgPayload (s : State) (g t : Nat) (m : CmbMsg) : List Byte :=
  let b1 := fun (v : Nat) => toBytes 1 v
  match m with
  | .time =>
    let c := s.instantTime
    b1 0xE2 ++ b1 (s.ownNode g) ++ toBytes 2 0 ++ toBytes 4 s.tim.cycle ++ toBytes 6 (c / 1000000000)
      ++ toBytes 4 (c % 1000000000) ++ toBytes 2 0
  | .echoReq =>
    b1 0xE0 ++ b1 (s.ownNode g) ++ b1 (s.rd F.CMB_SYNC_STAT_master g) ++ b1 (s.seg g).echoSeq ++ toBytes 4 0 ++ toBytes 8 t
  | .echoResp req resp seq t1 t2a t2b =>
    b1 0xE1 ++ b1 req ++ b1 resp ++ b1 seq ++ toBytes 4 0 ++ toBytes 8 t1 ++ toBytes 8 t2a ++ toBytes 8 t2b ++ toBytes 8 t

/-- The frame that an own identifier sends now, if any: a Combway message first, then the oldest posted frame in SYNC. -/
def State.sendDyn (s : State) (g id : Nat) : State :=
  let b := s.sched g
  let x := s.seg g
  let t := uns 64 (s.segBase g + 16 * miniStart b x + 2 * Sched.byteTime b)
  let ms := (lookup (fun _ => []) x.msgs id).filter (s.msgAllowed g)
  let s := s.setSeg g { x with msgs := store (fun _ => []) x.msgs id ms }
  let x := s.seg g
  let left := remaining b x
  let go := fun (s : State) (p : List Byte) =>
    let x := s.seg g
    (s.setSeg g { x with occ := occupancy b p.length - 1 }).sendFrame g id (frameBytes id (s.segCount g % 65536) 0 p)
  if !(s.opens g false || s.opens g true) then s
  else match ms with
    | m :: rest =>
      let p := s.msgPayload g t m
      if left < occupancy b p.length then s
      else go (s.setSeg g { x with msgs := store (fun _ => []) x.msgs id rest }) p
    | [] =>
      match lookup (fun _ => []) x.posted id with
      | p :: rest =>
        if s.cmbState g ≠ 5 ∨ left < occupancy b p.length then s
        else go (s.setSeg g { x with posted := store (fun _ => []) x.posted id rest }) p
      | [] => s

/-- A mini-slot boundary (R300): the dynamic counter, and the own identifier whose turn comes. -/
def State.boundary (s : State) (g : Nat) : State :=
  let b := s.sched g
  let x := s.seg g
  if Sched.minis b ≤ x.mini ∨ s.on F.CMB_SEG_STAT_stopped g then s
  else if 0 < x.occ then s.setSeg g { x with mini := x.mini + 1, occ := x.occ - 1 }
  else
    let id := if x.mini = 0 then 64 else x.dynId + 1
    let s := s.setSeg g { x with mini := x.mini + 1, dynId := id }
    if x.mute ∨ Sched.ownerOf b id ≠ some (s.ownNode g) then s else s.sendDyn g id

end Sys2Proof.Machine
end

