-- ==== Sys2Proof/Machine/Combway.lean ====
section
/-!
DEFINITION. Machine/Combway.lean: the commands of the Combway segments: schedules and cycles (R35, R36, R305, R314),
frames (R300, R308, R312, R313), start-up and synchronisation (R316 to R330), Guard (R332, R333) and Waggle (R335 to R338).
-/

namespace Sys2Proof.Machine

/-! ## Schedules, enable and disable -/

/-- STAGED_SCHEDULE_APPLY (R305): at the first common instant at or after the strobe of the segment's group. -/
def execStagedScheduleApply (g : Fin 8) (s : State) : Host.Outcome State Fault Refusal :=
  let x := s.seg g
  match x.stagedSched with
  | some b =>
    if !x.strobed then .next s
    else
      let s := s.setSeg g { x with stagedSched := none, strobed := false }
      .next (((s.installSched g b).wr F.CMB_SEG_STAT_staged 0 g).dataEvent g 9 (detail [(4, crc32c b)]))
  | none => .next s

/-- Whether `enable` may be written with 1 (R314, R317): a schedule is loaded, the segment is not stopping, and a segment
beside the timing segment has Oluend as its only coldstart-capable node and starts while that is in SYNC. -/
def State.mayEnable (s : State) (g : Nat) : Bool :=
  let b := s.sched g
  let timing := (List.range 8).find? fun h => s.isTiming h
  (s.seg g).sched.isSome && !(s.seg g).stopping
    && (s.isTiming g ||
      (s.capable g && (Sched.syncSlots b).all (fun k => (Sched.slot b k).owner == s.ownNode g)
        && timing.any fun h => s.cmbState h == 5))

/-- A segment starts in LISTEN with its run state cleared (R318, R459). -/
def State.startSegment (s : State) (g : Nat) : State :=
  let x := s.seg g
  let fresh : Seg8 := {
    sched := x.sched, stagedSched := x.stagedSched, strobed := x.strobed, area := x.area, ring := x.ring
    posted := x.posted, lossA := x.lossA, lossB := x.lossB, mism := x.mism, lateW := x.lateW, lostW := x.lostW
    errA := x.errA, errB := x.errB, errToldA := x.errToldA, errToldB := x.errToldB, wag := x.wag
    silent := (Sched.slotEnts (s.sched g)).foldl (fun l e =>
      if e.owner = 0 ∨ e.owner = s.ownNode g ∨ l.any (·.1 == e.owner) then l else l ++ [(e.owner, none)]) [] }
  let s := ((s.setSeg g fresh).wr F.CMB_SEG_CTL_enable 1 g).wr F.CMB_SEG_STAT_stopped 0 g
  let s := (s.wr F.CMB_SEG_STAT_epoch (s.rd F.CMB_SEG_STAT_epoch g + 1) g).forget g none
  s.enterListen g

/-- SEGMENT_ENABLE (R314, R317, R318). -/
def execSegmentEnable (m : Master) (g : Fin 8) (s : State) : Host.Outcome State Fault Refusal :=
  if !s.privileged m then .next (s.pvDropped m false true (F.CMB_SEG_CTL_enable.addr g 0))
  else if !s.on F.CMB_SEG_STAT_stopped g && !(s.seg g).stopping then .next s
  else if !s.mayEnable g then .next (s.wrIgnored .seg g (F.CMB_SEG_CTL_enable.addr g 0))
  else .next (s.startSegment g)

/-- SEGMENT_DISABLE (R314, R318). -/
def execSegmentDisable (m : Master) (g : Fin 8) (s : State) : Host.Outcome State Fault Refusal :=
  if !s.privileged m then .next (s.pvDropped m false true (F.CMB_SEG_CTL_enable.addr g 0))
  else if s.on F.CMB_SEG_STAT_stopped g then .next s
  else
    let s := s.wr F.CMB_SEG_CTL_enable 0 g
    if s.running then .next (s.setSeg g { s.seg g with stopping := true }) else .next (s.segOff g)

/-! ## The cycle -/

/-- A segment at a common instant: a stopping one goes OFF, else its cycle ends, its rate correction applies (R328), and
its next cycle starts. -/
def State.segInstant (s : State) (g : Nat) : State :=
  if s.on F.CMB_SEG_STAT_stopped g then s
  else if (s.seg g).stopping then s.segOff g
  else
    let s := s.cycleEnd g
    let s := match (s.seg g).newRho with
      | some r => (s.setSeg g { s.seg g with newRho := none }).moveRho r
      | none => s
    s.cycleStart g

/-- GLB_KDL_CFG takes effect at the common instant (R463). -/
def State.kindleInstant (s : State) : State :=
  if s.mode != 1 then s else
  (List.range 8).foldl (fun s a =>
    let k : QKindle := lookup (fun _ => {}) s.quench.kindle a
    let k := { k with cfg := s.word (F.GLB_KDL_CFG_ulim.addr a 0) }
    { s with quench := { s.quench with kindle := store (fun _ => {}) s.quench.kindle a k } }) s

/-- COMMON_INSTANT (R35, R345): compare unit 0 matches. -/
def execCommonInstant (s : State) : Host.Outcome State Fault Refusal :=
  if !s.running then .next s
  else
    let t := s.tim.instant
    let s := s.advanceCell t
    let n := s.cycleSet
    let c := (s.tim.cycle + 1) % 2 ^ 32
    let tim := { s.tim with sigma := 0, lastInstant := t, cycle := c, cycleNs := n }
    let s := { s with tim := tim, combway := { s.combway with fbc := 0 } }
    let s := ((s.setInstant (uns 64 (t + n : Nat))).wr F.TIM_CMP_CFG_fired 1 0).moveTick
    let s := (List.range 8).foldl (fun s g => (s.segInstant g).wr F.CMB_CYC_CNT_count c g) s
    let s := (List.range 64).foldl (fun s e => s.engineInstant e t) s.kindleInstant.steer
    .next s.tngInstant.pairInstant

/-- FEEDBACK_COMPLETE (R36). -/
def execFeedbackComplete (g : Fin 8) (s : State) : Host.Outcome State Fault Refusal :=
  if !s.running ∨ s.on F.CMB_SEG_STAT_stopped g then .next s
  else
    let s := s.advanceCell (uns 64 (s.tim.lastInstant + s.rd F.CMB_FBC_ns g : Nat))
    .next { s with combway := { s.combway with fbc := putBit s.combway.fbc g true } }

/-- ERROR_WINDOW_ROLLOVER (R314): a second of cell time ends. -/
def execErrorWindowRollover (s : State) : Host.Outcome State Fault Refusal :=
  let s := s.advanceCell (uns 64 (s.cellNs + 1000000000 - s.nowNs : Nat))
  .next ((List.range 8).foldl (fun s g =>
    let x := s.seg g
    s.setSeg g { x with
      lossA := {}, lossB := {}, mism := {}, lateW := {}, lostW := {}, errA := [], errB := []
      errToldA := false, errToldB := false }) s)

/-! ## Frames -/

/-- FRAME_RECEPTION (R307 to R311): what channels A and B carry of the frame of a static slot, or of the dynamic segment;
none where a channel carries nothing. -/
def execFrameReception (g : Fin 8) (slot : Option (Fin 64)) (a b : Option Copy) (s : State) :
    Host.Outcome State Fault Refusal :=
  if s.on F.CMB_SEG_STAT_stopped g then .next s
  else
    let a := if s.chanOn g false then a else none
    let b := if s.chanOn g true then b else none
    let k := slot.map (·.val)
    let own := match k with
      | some k => (Sched.slot (s.sched g) k).owner == s.ownNode g && decide (k < Sched.slots (s.sched g))
      | none => false
    if own && s.mode != 6 && (!s.freeRx g || s.cmbState g == 2) then .next (s.receiveOwn g (k.getD 0) a b)
    else .next (s.receive g k a b)

/-- MINISLOT_BOUNDARY (R300). -/
def execMinislotBoundary (g : Fin 8) (s : State) : Host.Outcome State Fault Refusal := .next (s.boundary g)

/-- DYNAMIC_FRAME_POST (R312): the read value is 1 where the frame is queued and 0 where it is refused; firmware posts none in
SENTINEL (R451). -/
def execDynamicFramePost (g : Fin 8) (id : BitVec 10) (payload : List Byte) (s : State) :
    Host.Outcome State Fault Refusal :=
  let x := s.seg g
  let l := lookup (fun _ => []) x.posted id.toNat
  if s.mode = 5 ∨ Sched.ownerOf (s.sched g) id.toNat ≠ some (s.ownNode g) ∨ 4 ≤ l.length ∨ 254 < payload.length then
    .next { s with rdata := 0 }
  else .next { s.setSeg g { x with posted := store (fun _ => []) x.posted id.toNat (l ++ [payload]) } with rdata := 1 }

/-- Engines whose first set-point goes out in a slot of a segment (R215). -/
def State.leadEngines (s : State) (g k : Nat) : List Nat :=
  let b := s.sched g
  (List.range 64).filter fun n =>
    (Sched.tx b).any (fun p => p.slot == k && p.kind == 1 && p.eng == n)
      && s.firstSetPointSlot n == some (Sched.slotStart b k)

/-- TRANSMIT_LEAD_EXAMINATION (R313): with it the overruns of engines whose first set-point this lead is for (R215). -/
def execTransmitLeadExamination (g : Fin 8) (k : Fin 64) (s : State) : Host.Outcome State Fault Refusal :=
  if s.on F.CMB_SEG_STAT_stopped g ∨ Sched.slots (s.sched g) ≤ k.val then .next s
  else
    let es := s.leadEngines g k
    let s := es.foldl (fun s n => (s.endProgram n).overrun n) s
    .next (s.examine g k)

/-- STATIC_FRAME_TRANSMIT (R312). -/
def execStaticFrameTransmit (g : Fin 8) (k : Fin 64) (s : State) : Host.Outcome State Fault Refusal :=
  if s.on F.CMB_SEG_STAT_stopped g ∨ Sched.slots (s.sched g) ≤ k.val then .next s else .next (s.sendStatic g k)

/-! ## Start-up -/

/-- LISTEN_TIMEOUT (R317, R319): beside the timing segment it is skipped. -/
def execListenTimeout (g : Fin 8) (s : State) : Host.Outcome State Fault Refusal :=
  let b := s.sched g
  if s.cmbState g ≠ 1 ∨ !s.capable g then .next s
  else
    let wait := if s.isTiming g then 2 * Sched.cycle b + 1250 * s.ownNode g else 0
    .next ((s.advanceCell (uns 64 ((s.seg g).since + wait : Nat))).enterColdstart g)

/-- COLDSTART_COMPLETE (R320, R343): four clean cycles. -/
def execColdstartComplete (g : Fin 8) (s : State) : Host.Outcome State Fault Refusal :=
  if s.cmbState g ≠ 2 ∨ (s.seg g).cycles < 4 then .next s
  else
    let s := s.setMaster g (s.ownNode g)
    let s := if s.isTiming g then s.firstLock s.tim.cell else s
    .next (s.enterSync g true)

/-- BACKOFF_EXPIRY (R321). -/
def execBackoffExpiry (g : Fin 8) (s : State) : Host.Outcome State Fault Refusal :=
  let b := s.sched g
  if s.cmbState g ≠ 3 ∨ !s.capable g then .next s
  else
    let due := (s.seg g).since + Sched.cycle b + 1250 * s.ownNode g
    .next ((s.advanceCell (uns 64 due)).enterColdstart g)

/-! ## Combway messages (R322, R323) -/

/-- The oldest message of a type leaves the inbox. -/
def State.takeMsg (s : State) (g t : Nat) : Option (CmbIn × State) :=
  let x := s.seg g
  match x.inbox.find? fun m => byteAt m.payload 0 == t with
  | some m => some (m, s.setSeg g { x with inbox := x.inbox.erase m })
  | none => none

/-- TIME_MESSAGE (R323, R324): the sync master's time is taken while integrating, and later ones are compared. -/
def execTimeMessage (g : Fin 8) (s : State) : Host.Outcome State Fault Refusal :=
  match s.takeMsg g 0xE2 with
  | none => .next s
  | some (m, s) =>
    let p := m.payload
    let x := s.seg g
    let count := field p 4 4
    if byteAt p 1 ≠ s.rd F.CMB_SYNC_STAT_master g ∨ s.cmbState g < 4 then .next s
    else if s.cmbState g = 4 ∧ !x.timed then
      .next (s.setSeg g { x with
        timed := true, count := count, timeNs := field p 8 6 * 1000000000 + field p 14 4 % 2 ^ 30, timeAt := x.cycles
        contra := s.running && count != s.tim.cycle })
    else if count ≠ s.segCount g then .next (s.setSeg g { x with contra := true })
    else .next s

/-- −2⁶³: a copy that was not valid (R323). -/
def noTime : Nat := 2 ^ 63

/-- ECHO_REQ (R325): the answer waits for an own identifier above the requester's, else for the lowest. -/
def execEchoReq (g : Fin 8) (s : State) : Host.Outcome State Fault Refusal :=
  match s.takeMsg g 0xE0 with
  | none => .next s
  | some (m, s) =>
    let p := m.payload
    let b := s.sched g
    let st := s.cmbState g
    let own := s.ownNode g
    if byteAt p 2 ≠ own ∨ !(st == 2 || (st == 5 && s.on F.CMB_SYNC_STAT_master_self g)) then .next s
    else
      let low := (Sched.dynOf b (byteAt p 1)).getD 0
      let above := (Sched.dyn b).foldl (fun (r : Option Nat) e =>
        if e.owner = own ∧ low < e.id then some (match r with | some v => min v e.id | none => e.id) else r) none
      .next (s.queueMsg g (above.or (s.msgId g))
        (.echoResp (byteAt p 1) own (byteAt p 3) (field p 8 8) (m.atA.getD noTime) (m.atB.getD noTime)))

/-- ECHO_RESP (R325): the delays of the channels whose copies were valid both ways, each from 0 to 200 ns. -/
def execEchoResp (g : Fin 8) (s : State) : Host.Outcome State Fault Refusal :=
  match s.takeMsg g 0xE1 with
  | none => .next s
  | some (m, s) =>
    let p := m.payload
    let x := s.seg g
    let t1 := field p 8 8
    let t3 := field p 32 8
    let diff := fun (a b : Nat) => sgn 64 (uns 64 ((a : Int) - (b : Int)))
    let one := fun (t2 : Nat) (t4 : Option Nat) => match t4 with
      | some t4 => if t2 = noTime then none
        else some ((diff t4 t1 - diff t3 t2) / 2, (diff t2 t1 - diff t4 t3) / 2)
      | none => none
    let a := one (field p 16 8) m.atA
    let b := one (field p 24 8) m.atB
    let ok := (a.toList ++ b.toList).all fun d => decide (0 ≤ d.1 ∧ d.1 ≤ 3200)
    if byteAt p 1 ≠ s.ownNode g ∨ s.cmbState g ≠ 4 ∨ (a.isNone && b.isNone) ∨ !ok then .next s
    else
      let s := s.setSeg g { x with
        delayA := a.map (·.1), delayB := b.map (·.1), echoOk := true, theta := ((a.or b).map (·.2)).getD 0 }
      let s := match a with
        | some d => s.wrS F.CMB_SYNC_DELAY_a d.1 g
        | none => s
      .next (match b with
        | some d => s.wrS F.CMB_SYNC_DELAY_b d.1 g
        | none => s)

/-! ## Integration and synchronisation -/

/-- Learned offsets move with the phase correction (R324). -/
def State.shiftOffsets (s : State) (g : Nat) (d : Int) : State :=
  slotChans.foldl (fun s p =>
    let v := (s.seg g).learn p.2 p.1
    if v.n = 0 ∧ v.off.isNone then s
    else s.setLearn g p.2 p.1 { v with off := v.off.map (· - d), sum := v.sum - v.n * d }) s

/-- INTEGRATION_COMPLETE (R324, R343, R344): with the first lock, the phase correction from the master's frame of the cycle
that has ended. -/
def execIntegrationComplete (g : Fin 8) (s : State) : Host.Outcome State Fault Refusal :=
  let x := s.seg g
  if s.cmbState g ≠ 4 ∨ !x.ready then .next s
  else
    match x.masterLast, s.masterSlot g with
    | some (chanB, raw, _), some k =>
      let dA := (x.delayA.or x.delayB).getD 0
      let dB := (x.delayB.or x.delayA).getD 0
      let shift := raw - (if chanB then dB else dA)
      let finish := fun (s : State) =>
        let s := (s.setLearn g false k { off := some dA }).setLearn g true k { off := some dB }
        s.enterSync g false
      if s.running then
        -- R344: the cycle is not moved, and a master more than 150 ns away cannot be followed
        let apart := cellDiff (x.timeNs % 2 ^ 64) s.tim.lastInstant
        if shift < -2400 ∨ 2400 < shift ∨ apart < -150 ∨ 150 < apart then .next s else .next (finish s)
      else
        let base := x.base + shift
        let s := s.advanceCell (uns 64 ((base + 15) / 16))
        let late : Int := ((s.tim.cell : Int) - base * 2 ^ 28) % ((2 ^ 64 * 2 ^ 32 : Nat) : Int)
        let s := s.firstLock ((x.timeNs * 2 ^ 32 + late.toNat) % cellWrap)
        let s := (s.placeCycle (x.timeNs % 2 ^ 64) x.count).shiftOffsets g shift
        .next (finish s)
    | _, _ => .next s

/-- INTEGRATION_LIMIT_EXPIRY (R318, R324): code 5 names the step that is not complete. -/
def execIntegrationLimitExpiry (g : Fin 8) (s : State) : Host.Outcome State Fault Refusal :=
  let x := s.seg g
  let st := s.cmbState g
  if (st ≠ 4 ∧ st ≠ 6) ∨ x.cycles < s.rd F.CMB_SYNC_CFG_integ_limit g then .next s
  else if st = 6 then .next (s.enterListen g)
  else
    let step := if !x.timed then 2 else if !x.echoOk then 3 else if x.good < 8 then 4 else 5
    .next ((s.enterListen g).syncEvent g 5 (detail [(0, step)]))

/-- One part per 10⁷ of rate, in the units of ρ per tick. -/
def rateShown (rho : Int) : Int := clampI (-32768) 32767 (tdiv (rho * 10000000) 10737418240)

/-- A follower leaves synchrony (R329). -/
def State.enterPassive (s : State) (g : Nat) (e : Int) : State :=
  ((s.enterCmb g 6).bump F.CMB_SYNC_CNT_losses g).syncEvent g 2 (detail [(4, i32 e)])

/-- The corrections of R328 for a deviation `e`: the slew over the idle time, and the rate from the next common instant. -/
def State.correct (s : State) (g : Nat) (e : Int) : State :=
  let x := s.seg g
  let b := s.sched g
  let c := clampI (-960) 960 (-e)
  let s := if c = -e then s else s.bump F.CMB_SYNC_CNT_clamped g
  let s := if s.isTiming g then { s with tim := { s.tim with sigma := tdiv (c * 2 ^ 28 * 5) (2 * Sched.nit b) } } else s
  let rho := match x.prevDev with
    | some p =>
      clampI (-5368709) 5368709 (s.rdS F.TIM_RATE_rho
        - tdiv ((e - p) * 671088640) (Sched.cycle b * 2 ^ s.rd F.CMB_SYNC_CFG_rate_gain g))
    | none => s.rdS F.TIM_RATE_rho
  let s := if s.isTiming g then s.setSeg g { x with newRho := some rho } else s
  (s.wrS F.CMB_SYNC_DEV_dev (clampI (-32768) 32767 e) g).wrS F.CMB_SYNC_DEV_rate (rateShown rho) g

/-- CLOCK_CORRECTION (R328, R329): the idle time of a follower's cycle.  A segment that integrates while no cycle of the
device runs ends its provisional cycle here. -/
def execClockCorrection (g : Fin 8) (s : State) : Host.Outcome State Fault Refusal :=
  let st := s.cmbState g
  if st = 4 ∧ !s.running then
    let b := s.sched g
    let s := s.advanceCell (uns 64 (((s.seg g).base + 15) / 16 + Sched.cycle b))
    .next ((s.cycleEnd g).cycleStart g)
  else if (st ≠ 5 ∧ st ≠ 6) ∨ s.on F.CMB_SYNC_STAT_master_self g then .next s
  else
    match (s.seg g).master with
    | some (_, _, e) =>
      let s := s.correct g e
      if st = 5 ∧ (e < -2400 ∨ 2400 < e) then .next (s.enterPassive g e) else .next s
    | none => .next s

/-- PASSIVE_RECOVERY (R329): 8 consecutive good cycles. -/
def execPassiveRecovery (g : Fin 8) (s : State) : Host.Outcome State Fault Refusal :=
  if s.cmbState g ≠ 6 ∨ (s.seg g).good < 8 then .next s else .next (s.enterSync g false)

/-- SYNC_MASTER_LOSS (R330): the owner of the lowest sync slot valid in the last cycle becomes sync master. -/
def execSyncMasterLoss (g : Fin 8) (s : State) : Host.Outcome State Fault Refusal :=
  let x := s.seg g
  let st := s.cmbState g
  if (st ≠ 5 ∧ st ≠ 6) ∨ x.noMaster < 4 then .next s
  else
    match x.syncLast.min? with
    | none => .next s
    | some k =>
      let node := (Sched.slot (s.sched g) k).owner
      let s := s.setSeg g { x with noMaster := 0, prevDev := none }
      if node = s.rd F.CMB_SYNC_STAT_master g then .next s
      else
        let s := (s.setMaster g node).syncEvent g 6 (detail [(0, node)])
        .next (if s.isTiming g then
            s.raise 71 1 0xFFFF (detail [(0, node), (1, s.rd F.CMB_SYNC_STAT_master_self g)])
          else s)

/-- SYNC_FRAME_ABSENCE (R330). -/
def execSyncFrameAbsence (g : Fin 8) (s : State) : Host.Outcome State Fault Refusal :=
  if s.cmbState g < 4 ∨ (s.seg g).noSync < 16 then .next s else .next (s.enterListen g)

/-- RELEARN (R326): every offset but the sync master's d_x is learned again. -/
def execRelearn (g : Fin 8) (s : State) : Host.Outcome State Fault Refusal := .next (s.forget g (s.masterSlot g))

/-- NODE_LEFT (R339): an owner that has been heard is silent for 16 cycles. -/
def execNodeLeft (g : Fin 8) (node : Fin 32) (s : State) : Host.Outcome State Fault Refusal :=
  let x := s.seg g
  if !x.silent.contains (node.val, some 16) then .next s
  else
    let l := x.silent.map fun p => if p.1 = node.val then (p.1, some 17) else p
    .next ((s.setSeg g { x with silent := l }).syncEvent g 10 (detail [(0, node.val)]))

/-! ## Guard -/

/-- GUARD_CUT (R332): a drive request outside a window, in a static slot or in the dynamic segment. -/
def execGuardCut (g : Fin 8) (slot : Option (Fin 64)) (s : State) : Host.Outcome State Fault Refusal :=
  .next ((s.bump F.CMB_GRD_STAT_cuts g).syncEvent g 8 (detail [(0, (slot.map (·.val)).getD 0xFF)]))

/-- GUARD_VIEW_COMPARE (R333, R334): Guard's predicted common instant less the controller's, in ns. -/
def execGuardViewCompare (g : Fin 8) (b : Bool) (diff : Word) (s : State) : Host.Outcome State Fault Refusal :=
  let d := diff.toInt
  let v := (s.seg g).guard b
  let s := s.wrS F.CMB_GRD_STAT_diff (clampI (-128) 127 (tdiv d 4)) g
  if s.cmbState g = 0 then .next s
  else if d < -100 ∨ 100 < d then
    if s.guardClosed g b then .next s
    else
      let s := if s.on F.CMB_GRD_CTL_trust_star g then s
        else s.setGuard g b { v with fault := true, reentered := false } true
      .next (s.syncEvent g 7 (detail [(0, b2n b), (4, diff.toNat)]))
  else if s.guardClosed g b ∧ v.fault ∧ v.reentered ∧ !s.quench.safStopped then .next (s.setGuard g b {} false)
  else .next s

/-- GUARD_SYNC_LOSS (R333): 4 cycles without any valid sync frame on the channel. -/
def execGuardSyncLoss (g : Fin 8) (s : State) : Host.Outcome State Fault Refusal :=
  .next ([false, true].foldl (fun s b =>
    let v := (s.seg g).guard b
    if s.guardClosed g b ∨ v.missed < 4 then s
    else s.setGuard g b { v with fault := true, reentered := false } true) s)

/-! ## Waggle (R335 to R338) -/

/-- WAGGLE_START (R338). -/
def execWaggleStart (g : Fin 8) (s : State) : Host.Outcome State Fault Refusal :=
  let b := s.sched g
  let chanB := s.on F.CMB_WGL_CTL_chan g
  let bad := if s.on F.CMB_WGL_CTL_mode g then s.chanOn g chanB && !s.on F.CMB_SEG_STAT_stopped g
    else s.cmbState g != 5 || Sched.mode b == 1
      || Sched.ownerOf b (s.rd F.CMB_WGL_STAT_ident g) != some (s.ownNode g)
  if s.on F.CMB_WGL_STAT_busy g || bad then .next (s.wrIgnored .seg g (F.CMB_WGL_CTL_start.addr g 0))
  else .next ((s.setSeg g { s.seg g with wag := {} }).wr F.CMB_WGL_STAT_busy 1 g)

/-- WAGGLE_STOP (R336). -/
def execWaggleStop (g : Fin 8) (s : State) : Host.Outcome State Fault Refusal :=
  let x := s.seg g
  if !s.on F.CMB_WGL_STAT_busy g ∨ x.wag.ending.isSome then .next s
  else .next (s.setSeg g { x with wag := { x.wag with ending := some 1 } })

/-- A crossing joins a reflection of the shot before that lies within 500 ps, or is a new one (R336). -/
def mergeCrossing (shot : Nat) (c : Nat × Bool) : List Reflection → List Reflection
  | [] => [{ last := c.1, negative := c.2, shots := 1, shot := shot, sum := c.1 }]
  | r :: l =>
    if r.shot + 1 = shot ∧ r.negative = c.2 ∧ c.1 ≤ r.last + 5 ∧ r.last ≤ c.1 + 5 then
      { r with last := c.1, shots := r.shots + 1, shot := shot, sum := r.sum + c.1 } :: l
    else r :: mergeCrossing shot c l

/-- WAGGLE_SHOT (R335, R336): the crossings of ±`thr`, in 100 ps after launch, and whether each is negative.  Offline shots
are 5 µs apart, window shots one per cycle. -/
def execWaggleShot (g : Fin 8) (crossings : List (BitVec 16 × Bool)) (s : State) : Host.Outcome State Fault Refusal :=
  let x := s.seg g
  let w := x.wag
  let offline := s.on F.CMB_WGL_CTL_mode g
  if !s.on F.CMB_WGL_STAT_busy g ∨ w.ending.isSome ∨ 2 ^ s.rd F.CMB_WGL_STAT_shots_log2 g ≤ w.shots then .next s
  else if !offline && s.cmbState g != 5 then .next (s.setSeg g { x with wag := { w with ending := some 2 } })
  else if !offline && w.cycle == some s.tim.cycle then .next s
  else
    let s := if offline && w.shots != 0 then s.ticks (us 5) else s
    let blank := 10 * s.rd F.CMB_WGL_STAT_blank g
    let cs := ((crossings.map fun c => (c.1.toNat, c.2)).filter fun c => decide (blank ≤ c.1)).take 16
    let shot := w.shots + 1
    let refl := cs.foldl (fun l c => mergeCrossing shot c l) w.refl
    .next (s.setSeg g { x with wag := { w with shots := shot, refl := refl, cycle := some s.tim.cycle } })

/-- The two words of a reflection (R337): time, and distance VF × c × t / 2 in mm with polarity and shots. -/
def reflWords (vf : Nat) (r : Reflection) : List Word :=
  let t := (2 * r.sum + r.shots) / (2 * r.shots)
  let den := 65536 * 2 * 10000000
  let mm := (2 * vf * 299792458 * t + den) / (2 * den)
  [BitVec.ofNat 32 t, BitVec.ofNat 32 (min 65535 mm + 65536 * b2n r.negative + 2 ^ 17 * r.shots)]

/-- WAGGLE_DONE (R336, R337): after the last shot, a stop, or the end of SYNC in window mode. -/
def execWaggleDone (g : Fin 8) (s : State) : Host.Outcome State Fault Refusal :=
  let w := (s.seg g).wag
  let n := s.rd F.CMB_WGL_STAT_shots_log2 g
  let left := !s.on F.CMB_WGL_CTL_mode g && s.cmbState g != 5
  let ending := if 2 ^ n ≤ w.shots then some 0 else match w.ending with
    | some k => some k
    | none => if left then some 2 else none
  match ending with
  | none => .next s
  | some k =>
    if !s.on F.CMB_WGL_STAT_busy g then .next s
    else
      let rs := w.refl.take 16
      let vf := s.rd F.CMB_WGL_CFG_vf g
      let chan := s.rd F.CMB_WGL_CTL_chan g
      let ws := BitVec.ofNat 32 (rs.length + 256 * n + 65536 * vf) :: BitVec.ofNat 32 w.shots :: rs.flatMap (reflWords vf)
      let s := (s.wr F.CMB_WGL_STAT_busy 0 g).post (112 + 2 * g + chan) ws
      .next (s.dataEvent g 8 (detail [(0, chan), (1, rs.length), (2, k)]))

end Sys2Proof.Machine
end

