-- ==== Sys2Proof/Machine/Planner.lean ====
section
/-!
DEFINITION. Machine/Planner.lean: the commands of the chapter "Trajectories, swarms and zones": segments and immediate
operations of MOTION rings, the planning cycle, missed solves, zone tokens, planner settings; and the commit signal of
Anvil (R147, R206).
-/

namespace Sys2Proof.Machine

/-! ## Descriptors of a MOTION ring (R157, R158) -/

/-- A descriptor waits in the queue of its chain. -/
def State.queuedSeg (s : State) (d : Desc) : Bool := (s.chain d.ring).queue.any (·.desc == d.id)

/-- The descriptor of a MOTION ring that acts now: every MOTION operation fetched before it has acted or is queued (R158). -/
def State.nextMotion (s : State) (r op : Nat) : Option Desc :=
  s.hif.desc.find? fun d => d.ring == r && d.opcode == op && r < 16 && !d.started && !s.queuedSeg d
    && (s.hif.desc.all fun e => e.ring != r || d.id ≤ e.id || e.started || s.queuedSeg e || e.opcode < 0x100)

/-- An immediate operation acts on fetch: it waits for no segment and takes no FENCE (R158). -/
def State.runNow (s : State) (r op : Nat) (f : State → Desc → State) : State :=
  match s.nextMotion r op with
  | some d => f (s.startDesc d) d
  | none => s

/-! ## Segment checks (R162) -/

/-- The length that the layout of R161 gives the body. -/
def bodyLen (op axes : Nat) (b : List Byte) : Nat :=
  match op with
  | 0x0101 => 8 * axes
  | 0x0102 => 32
  | 0x0103 => 48
  | _ => 8 + field b 2 2 * (if byteAt b 0 = 0 then 8 * axes else 32)

/-- The norm of a quaternion differs from 1 by no more than 2^−16. -/
def quatOk (b : List Byte) (o : Nat) : Bool :=
  let n := (List.range 4).foldl (fun a i => a + fieldS b (o + 4 * i) 4 * fieldS b (o + 4 * i) 4) 0
  decide (((2 ^ 30 - 2 ^ 14) * (2 ^ 30 - 2 ^ 14) : Int) ≤ n) && decide (n ≤ ((2 ^ 30 + 2 ^ 14) * (2 ^ 30 + 2 ^ 14) : Int))

/-- The axes of a chain in its axis order, as the slots that hold them list them. -/
def State.axesOf (s : State) (c : Nat) : List Nat :=
  (s.chainEngines c).flatMap fun n => (s.chainSlots n c).map fun j => s.rd F.TMP_AX_CFG_axis n j

/-- Joint targets at byte `o` lie inside the soft limits of their axes. -/
def State.jointOk (s : State) (c : Nat) (b : List Byte) (o : Nat) : Bool :=
  let ax := s.axesOf c
  (List.range ax.length).all fun i =>
    let a := ax.getD i 0
    let v := fieldS b (o + 8 * i) 8
    decide ((Config.softLow a).toInt ≤ v) && decide (v ≤ (Config.softHigh a).toInt)

/-- Three points lie within 0.01 mm of one straight line: |ab × ac| ≤ 0.01 mm · the longest side, with 12 fractional
bits. -/
def nearLine (a b c : Int × Int × Int) : Bool :=
  let d := fun (p q : Int × Int × Int) => (q.1 - p.1, q.2.1 - p.2.1, q.2.2 - p.2.2)
  let dot := fun (p q : Int × Int × Int) => p.1 * q.1 + p.2.1 * q.2.1 + p.2.2 * q.2.2
  let u := d a b; let v := d a c; let w := d b c
  let x := (u.2.1 * v.2.2 - u.2.2 * v.2.1, u.2.2 * v.1 - u.1 * v.2.2, u.1 * v.2.1 - u.2.1 * v.1)
  let m := max (dot u u) (max (dot v v) (dot w w))
  decide (dot x x * 10000 ≤ m * (4096 * 4096))

def point (b : List Byte) (o : Nat) : Int × Int × Int := (fieldS b o 4, fieldS b (o + 4) 4, fieldS b (o + 8) 4)

/-- The end point of a Cartesian segment. -/
def Seg.endPoint (g : Seg) : Option (Int × Int × Int) :=
  match g.op with
  | 0x0102 => some (point g.body 0)
  | 0x0103 => some (point g.body 16)
  | 0x0104 => if byteAt g.body 0 = 1 then some (point g.body (8 + 32 * (field g.body 2 2 - 1))) else none
  | _ => none

/-- The point at which a new segment starts, where a Cartesian segment before it gives it. -/
def State.startPoint (s : State) (c : Nat) : Option (Int × Int × Int) :=
  let ch := s.chain c
  match ch.queue.getLast? with
  | some g => g.endPoint
  | none => match ch.cur with
    | some g => g.endPoint
    | none => none

/-- The arc is too flat; where the start point follows from kinematics alone the answer is free (log entry 20). -/
def State.flatArc (s : State) (c : Nat) (b : List Byte) : Bool :=
  match s.startPoint c with
  | some p => nearLine p (point b 0) (point b 16)
  | none => s.freshWord.toNat.testBit 0

/-- The reserved bytes of a pose (R161): the bits beside the configuration, and bytes 13 to 15. -/
def poseReserved (b : List Byte) (o : Nat) : Bool := byteAt b (o + 12) / 8 != 0 || !zeroBytes b (o + 13) 3

/-- A reserved field of a segment's body is nonzero (R161, log entry 8). -/
def segReserved (op : Nat) (b : List Byte) : Bool :=
  match op with
  | 0x0102 => poseReserved b 0
  | 0x0103 => !zeroBytes b 12 4 || poseReserved b 16
  | 0x0104 => !zeroBytes b 1 1 || !zeroBytes b 4 4
      || (byteAt b 0 == 1 && (List.range (field b 2 2)).any fun k => poseReserved b (8 + 32 * k))
  | _ => false

/-- The checks of R162 on the body and the zone mask: none, or the byte offset reported. -/
def State.segBad (s : State) (c : Nat) (d : Desc) (b : List Byte) : Option Nat :=
  let axes := s.chainAxes c
  let op := d.opcode
  let cart := op == 0x0102 || op == 0x0103 || (op == 0x0104 && byteAt b 0 == 1)
  if b.length ≠ bodyLen op axes b then some 24
  else if (bitsIn (d.op 32 4)).any fun z => (s.zoneEnt z).scope == 0 then some 32
  else if op = 0x0104 ∧ (1 < byteAt b 0 ∨ field b 2 2 < 2 ∨ 256 < field b 2 2) then
    some 0xFFFF
  else if op = 0x0104 ∧ !cart ∧ 0x8000 < d.op 44 4 then some 44
  else if op = 0x0101 ∧ !s.jointOk c b 0 then some 0xFFFF
  else if op = 0x0104 ∧ !cart ∧ !((List.range (field b 2 2)).all fun k => s.jointOk c b (8 + 8 * axes * k)) then some 0xFFFF
  else if op = 0x0102 ∧ !quatOk b 16 then some 0xFFFF
  else if op = 0x0103 ∧ (!quatOk b 32 ∨ s.flatArc c b) then some 0xFFFF
  else if op = 0x0104 ∧ cart ∧ !((List.range (field b 2 2)).all fun k => quatOk b (8 + 32 * k + 16)) then some 0xFFFF
  else none

/-- A segment is accepted and queued behind the others of its chain, or completes with 0x12 (R158, R162). -/
def State.queueSeg (s : State) (r op : Nat) (io : HostIo) : State :=
  match s.nextMotion r op with
  | none => s
  | some d =>
    if op ≠ 0x0105 ∧ io.bodyErr then s.fail d.id 0x13
    else if op = 0x0104 ∧ byteAt io.body 0 = 1 ∧ !Config.cartesian r then s.fail d.id 0x10
    else if op = 0x0104 ∧ byteAt io.body 0 = 0 ∧ d.op 37 1 ≠ 0 then s.fail d.id 0x11 37
    else if op ≠ 0x0105 ∧ io.body.length = bodyLen op (s.chainAxes r) io.body ∧ segReserved op io.body then s.fail d.id 0x11 else
    match if op = 0x0105 then (if (bitsIn (d.op 32 4)).any fun z => (s.zoneEnt z).scope == 0 then some 32 else none)
          else s.segBad r d io.body with
    | some off => (s.drawn).fail d.id 0x12 off
    | none =>
      let ch := s.chain r
      let g : Seg := { desc := d.id, op := op, bytes := d.bytes, body := if op = 0x0105 then [] else io.body }
      (s.drawn.setChain r { ch with queue := ch.queue ++ [g] }).stir r

/-- MOVE_JOINT (R157). -/
def execMoveJoint (r : Fin 64) (io : HostIo) (s : State) : Host.Outcome State Fault Refusal := .next (s.queueSeg r 0x0101 io)
/-- MOVE_LINE (R157). -/
def execMoveLine (r : Fin 64) (io : HostIo) (s : State) : Host.Outcome State Fault Refusal := .next (s.queueSeg r 0x0102 io)
/-- MOVE_ARC (R157). -/
def execMoveArc (r : Fin 64) (io : HostIo) (s : State) : Host.Outcome State Fault Refusal := .next (s.queueSeg r 0x0103 io)
/-- MOVE_SPLINE (R157). -/
def execMoveSpline (r : Fin 64) (io : HostIo) (s : State) : Host.Outcome State Fault Refusal := .next (s.queueSeg r 0x0104 io)
/-- DWELL (R160). -/
def execDwell (r : Fin 64) (s : State) : Host.Outcome State Fault Refusal := .next (s.queueSeg r 0x0105 {})

/-! ## Immediate operations (R176 to R182) -/

/-- HOLD (R176). -/
def execHold (r : Fin 64) (s : State) : Host.Outcome State Fault Refusal :=
  .next (s.runNow r 0x0110 fun s d => s.holdChain r 1 (some d.id))

/-- STOP (R177). -/
def execStop (r : Fin 64) (s : State) : Host.Outcome State Fault Refusal :=
  .next (s.runNow r 0x0111 fun s d => s.stopChain r { cause := 8, waiting := [d.id] })

/-- RESUME (R178). -/
def execResume (r : Fin 64) (s : State) : Host.Outcome State Fault Refusal :=
  .next (s.runNow r 0x0112 fun s d => s.resumeChain r d.id)

/-- CANCEL (R179). -/
def execCancel (r : Fin 64) (s : State) : Host.Outcome State Fault Refusal :=
  .next (s.runNow r 0x0113 fun s d =>
    let st := (s.chain r).state
    if st = 0 ∨ st = 4 then (s.discardAll r).complete d.id 1
    else s.stopChain r { cause := 8, waiting := [d.id], cancel := true })

/-- SET_ACCEL (R181): the scales wait for the next planning tick. -/
def execSetAccel (r : Fin 64) (s : State) : Host.Outcome State Fault Refusal :=
  .next (s.runNow r 0x0114 fun s d =>
    let ch := s.chain r
    s.setChain r { ch with scales := ch.scales ++ [{ desc := d.id, accel := d.op 16 2, decel := d.op 18 2 }] })

/-- STATUS (R182); the fraction that remains of a segment in motion follows from the solved plan and is free (log entry
21). -/
def execStatus (r : Fin 64) (s : State) : Host.Outcome State Fault Refusal :=
  .next (s.runNow r 0x0115 fun s d =>
    let ch := s.chain r
    let tag := match ch.cur with | some g => field g.bytes 4 4 | none => 0
    let rem := match ch.cur, ch.kept with
      | some _, _ => s.freshWord.toNat
      | none, some (_, f, _) => f
      | none, none => 0
    s.drawn.complete d.id 1 0 (result [(16, 1, ch.state), (17, 1, r.val + 16 * b2n ch.kept.isSome),
      (18, 2, ch.queue.length), (20, 4, tag), (24, 4, rem), (28, 4, ch.tokens)]))

/-- An ABORT reaches a segment (R179): the one in progress is stopped and discarded, a queued one removed; whether the
blend of the next one has entered a committed window is free (log entry 21).  The flag tells whether it was aborted. -/
def State.abortSeg (s : State) (c id : Nat) : State × Bool :=
  let ch := s.chain c
  match ch.cur with
  | some g =>
    if g.desc = id then
      let s := s.stopChain c { cause := 9, status := none, discard := true }
      (s.endSeg g 4 0 0 0, true)
    else match ch.queue with
      | q :: rest =>
        if q.desc = id ∧ bitAt (byteAt g.bytes 36) 0 ∧ s.freshWord.toNat.testBit 0 then
          let s := (s.drawn.setChain c { ch with queue := rest }).stopChain c { cause := 9 }
          (s.endSeg q 4 0 0 0, true)
        else match ch.queue.find? (·.desc == id) with
          | some x => ((s.drawn.setChain c { ch with queue := ch.queue.filter (·.desc != id) }).endSeg x 4 0 0 0, true)
          | none => (s, false)
      | [] => (s, false)
  | none =>
    match ch.queue.find? (·.desc == id) with
    | some x =>
      let s := if (ch.queue.head?.map (·.desc)) = some id then s.withdraw c else s
      (((s.setChain c { s.chain c with queue := ch.queue.filter (·.desc != id) }).endSeg x 4 0 0 0).stir c, true)
    | none => (s, false)

/-! ## Segments in time (R163, R176) -/

/-- SEGMENT_COMPLETE (R163): the set-points reach the hand-over point of the segment in progress; its successor starts.
A DWELL reaches it when its time is over.  The radius used is the request clipped by geometry, free below it (log entry
21). -/
def execSegmentComplete (c : Fin 16) (s : State) : Host.Outcome State Fault Refusal :=
  let ch := s.chain c
  match ch.cur with
  | none => .next s
  | some g =>
    if ch.state ≠ 1 ∧ ch.state ≠ 6 then .next s else
    let s := if g.op = 0x0105 then
        s.advanceCell (if field g.bytes 16 8 = 0 then field g.bytes 8 8 else ch.startedAt + field g.bytes 16 8) else s
    let blended := bitAt (byteAt g.bytes 36) 0 && !ch.queue.isEmpty && g.op != 0x0105
    let req := field g.bytes 44 4
    let radius := if !blended then 0 else if g.op = 0x0101 then req else s.freshWord.toNat % (req + 1)
    let s := (s.drawn.endSeg g 1 0 0 radius).setChain c { ch with cur := none }
    let s := s.applyLater c
    match ch.heldNext with
    | some cause => .next (s.holdHere c cause)
    | none => .next (if ch.halt.isSome then s else s.startNext c)

/-- CHAIN_STANDSTILL (R176 to R179): the set-points of a chain that is being held or stopped stop changing, with the
remaining path fraction and tool-centre length of its segment. -/
def execChainStandstill (c : Fin 16) (rem len : Word) (s : State) : Host.Outcome State Fault Refusal :=
  let ch := s.chain c
  match ch.halt with
  | none => .next s
  | some h =>
    if ch.state ≠ 3 ∧ ch.state ≠ 5 then .next s else
    let s := match ch.cur, h.status with
      | some g, some st => s.endSeg g st rem.toNat len.toNat 0
      | _, _ => s
    let kept := match ch.cur with
      | some g => if h.discard || h.cancel then none else some (g, rem.toNat, len.toNat)
      | none => none
    let s := s.setChain c { s.chain c with cur := none, halt := none, holdDue := false, heldNext := none, state := 4,
                                           kept := kept, resumes := [] }
    let s := s.applyLater c
    let s := if h.cancel then s.discardAll c else s.heldEvent c h.cause 4
    let s := h.waiting.foldl (fun s d => s.complete d 1) s
    .next (ch.resumes.foldl (fun s d => s.resumeChain c d) s)

/-! ## The planning cycle (R167 to R175) -/

/-- The chains of a swarm or of a solo chain (R21). -/
def State.jobChains (s : State) (w : PlanWork) : List Nat :=
  if w.swarm then (if w.index.val < 8 then bitsIn ((s.swarm w.index).mask) else [])
  else if (List.range 8).any fun k => (s.swarm k).mask.testBit w.index then [] else [w.index.val]

/-- The solve budget of a job in ns (R168). -/
def State.jobBudget (s : State) (w : PlanWork) : Nat :=
  1000 * (if w.swarm then (s.swarm w.index).budget else (s.chain w.index).budget)

/-- The warm slot of a job (R191). -/
def State.jobWarm (s : State) (w : PlanWork) : Nat :=
  if w.swarm then (s.swarm w.index).warm
  else if (s.chain w.index).warm = 0xFF then
    match s.plan.autoWarm.find? (·.1 == w.index.val) with | some p => p.2 | none => 0
  else (s.chain w.index).warm

/-- The switch instant: the first common instant at least 10 µs after the deadline (R168). -/
def switchInstant (tj budget tc : Nat) : Nat := tj + (budget + 10000 + tc - 1) / tc * tc

/-- A Forager prepares a pending window and writes its pieces into the path table (R206, R208). -/
def State.prepare (s : State) (w : PlanWindow) : State :=
  let e := s.eng w.engine
  let x := e.chainWin w.chain
  let pieces := (x.pieces ++ w.pieces)
  s.setEng w.engine (e.setChainWin w.chain { x with prep := some (w.addr.toNat, w.head.take 24),
                                                    pieces := pieces.drop (pieces.length - 32) })

/-- One problem is built and submitted with its deadline (R168). -/
def State.submitWork (s : State) (tj : Nat) (w : PlanWork) : State :=
  let cs := s.jobChains w
  if cs.isEmpty then s else
  let b := s.jobBudget w
  let job := putBytes (putBytes ((w.job ++ List.replicate 64 0).take 64) 2 (toBytes 1 (s.jobWarm w))) 8 (toBytes 8 (tj + b))
  let slot := w.slot.val
  let s := { s with ddr := writeBytes s.ddr (s.rd64 F.ANV_JOBTAB_LO_addr F.ANV_JOBTAB_HI_addr + 64 * slot) job }
  let s := { s with ddr := writeBytes (writeBytes s.ddr (field job 16 8) w.body) (field job 48 8) w.list }
  let s := w.windows.foldl (fun s x => s.prepare x) s
  let j : PlanJob := { chains := cs, switch := switchInstant tj b s.tim.cycleNs }
  let s : State := { s with plan := { s.plan with job := store (fun _ => none) s.plan.job slot (some j) } }
  if s.submitCheck slot = 0 then s.enqueuePlanner slot none else s

/-- New scales of a chain apply at a planning tick (R181): a smaller deceleration waits during a ramp; otherwise whether
the chain can still stop with it follows from its path and is free (log entry 21). -/
def State.applyScales (s : State) (c : Nat) : State :=
  let l := (s.chain c).scales
  l.foldl (fun s n =>
    let ch := s.chain c
    let ramp := ch.state = 3 ∨ ch.state = 5 ∨ ch.state = 6
    let moving := ch.state = 1 ∨ ch.state = 2
    let defer := decide (n.decel < ch.decel) && (decide ramp || (decide moving && s.freshWord.toNat.testBit 0))
    let g := ch.cur.map fun g => { g with deferred := g.deferred || defer }
    let s := s.drawn.setChain c { ch with accel := n.accel, decel := if defer then ch.decel else n.decel, cur := g,
                                          later := if defer then some n.decel else none }
    s.complete n.desc 1 (if defer then 8 else 0)) (s.setChain c { s.chain c with scales := [] })

/-- A HOLD takes effect at a planning tick (R176). -/
def State.takeHold (s : State) (c : Nat) : State :=
  let ch := s.chain c
  if !ch.holdDue then s else
  let cause := match ch.halt with | some h => h.cause | none => 1
  (s.setChain c { ch with holdDue := false, state := 3 }).heldEvent c cause 3

/-- PLANNING_TICK (R167, R168): at a common instant whose cycle is a planning tick, scales and holds take effect, ramps
go on, segments that the kinematics cannot reach complete with 0x20 (R162), a segment that a FENCE or an injection held
back is taken up (log entry 69), and every problem is submitted.  What the
problems hold beside deadline and warm slot is the Forager's (log entry 22). -/
def execPlanningTick (work : List PlanWork) (unreachable : List (Fin 16)) (s : State) : Host.Outcome State Fault Refusal :=
  if !s.on F.GLB_STAT_cycle_run ∨ s.tim.cycle % s.plan.tickCycles ≠ 0 then .next s else
  let tj := s.tim.lastInstant
  let s := (List.range 16).foldl (fun s c => (s.applyScales c).takeHold c) s
  let s := unreachable.foldl (fun s c => s.refuseNext c.val 0x20 0xFFFF 4) s
  let s := (List.range 16).foldl (fun s c =>
    let st := (s.chain c).state
    if st = 5 ∨ st = 6 then s.extendRamp c (switchInstant tj (1000 * (s.chain c).budget) s.tim.cycleNs) else s) s
  let s := (List.range 16).foldl (fun s c => s.stir c) s
  .next (work.foldl (fun s w => s.submitWork tj w) s)

/-- The result record of a planner job is usable (R148, R174). -/
def State.usableResult (s : State) (slot : Nat) : Bool :=
  bitAt (byteAt (readBytes s.ddr (field (s.jobBytes slot) 32 8 + 3) 1) 0) 0

/-- PLANNER_COMPLETION (R174, R175): the Forager on core `c` handles the completion item that it runs. -/
def execPlannerCompletion (c : Fin 32) (s : State) : Host.Outcome State Fault Refusal :=
  match (s.core c).item with
  | none => .next s
  | some it =>
    if !it.planner || it.anvil then .next s else
    let slot := it.arg % 2 ^ 16
    let st := it.arg / 2 ^ 16 % 256
    match lookup (fun _ => none) s.plan.job slot with
    | none => .next s
    | some j =>
      let s := { s with plan := { s.plan with job := store (fun _ => none) s.plan.job slot none } }
      if (st = 1 ∨ st = 2 ∨ st = 3) ∧ s.usableResult slot then
        .next (j.chains.foldl (fun s c =>
          let ch := s.chain c
          if ch.state = 6 then s.setChain c { ch with state := if ch.cur.isSome then 1 else 2 } else s) s)
      else
        let s := s.raise 22 1 0xFFFF (detail [(0, slot), (2, st)])
        .next (j.chains.foldl (fun s c =>
          let ch := s.chain c
          if ch.state = 0 ∨ ch.state = 4 ∨ ch.state = 5 then s
          else (s.commitRamp c j.switch 16).setChain c { ch with state := if ch.state = 3 then 3 else 6 }) s)

/-- COMMIT_SIGNAL (R147, R206): Anvil's signal marks the prepared windows of its engines ready, with the words that the
commit wrote into them. -/
def execCommitSignal (s : State) : Host.Outcome State Fault Refusal :=
  match s.anvil.signals with
  | [] => .next s
  | l :: rest =>
    let s := { s with anvil := { s.anvil with signals := rest } }
    .next (l.foldl (fun s n => (List.range 16).foldl (fun s c =>
      let e := s.eng n
      let w := e.chainWin c
      match w.prep with
      | none => s
      | some (a, head) =>
        let b := head ++ readBytes (s.sramOf n) (a + 24) 24 ++ [2, 0]
        s.setEng n (e.setChainWin c { w with prep := none, pending := some (windowOf b true) })) s) s)

/-! ## Zone tokens (R183 to R190) -/

/-- ZONE_REQUEST_FORM (R183): the next segment's start has entered the horizon; the zones that the chain does not hold
are requested, in ascending order above its predecessor's, or the segment is refused with 0x12. -/
def execZoneRequestForm (c : Fin 16) (s : State) : Host.Outcome State Fault Refusal :=
  let ch := s.chain c
  match ch.queue with
  | [] => .next s
  | g :: _ =>
    let need := (bitsIn g.mask).filter fun z => !ch.tokens.testBit z
    if need.isEmpty ∨ ch.req.isSome ∨ ch.state = 3 ∨ ch.state = 4 ∨ ch.state = 5 then .next s
    else if need.any fun z => (bitsIn ch.pred).any fun y => z ≤ y then .next (s.refuseNext c 0x12 32 6)
    else
      let m := need.foldl (fun a z => a + 2 ^ z) 0
      let q : ZoneReq := { zones := m, time := s.cellNs, seq := ch.reqSeq % 65536 }
      .next ((s.setChain c { ch with req := some q, reqSeq := (ch.reqSeq + 1) % 65536 }).askKeeper c)

/-- A request ranks before another: timestamp, then cell, device position, chain (R25). -/
def Asked.before (a b : Asked) : Bool :=
  if a.time != b.time then a.time < b.time
  else if a.who.cell != b.who.cell then a.who.cell < b.who.cell
  else if a.who.pos != b.who.pos then a.who.pos < b.who.pos
  else a.who.chain < b.who.chain

/-- The zones kept here that a waiting request names. -/
def State.askedZones (s : State) (a : Asked) : List Nat :=
  (List.range 32).filter fun z => s.keeps z && (s.keeper z).waiting.any fun b => b.who == a.who && b.seq == a.seq

/-- A request takes its place by rank. -/
def insertAsked (a : Asked) : List Asked → List Asked
  | [] => [a]
  | b :: l => if a == b then b :: l else if a.before b then a :: b :: l else b :: insertAsked a l

/-- A keeper grants a request whole when its zones are free and no earlier one names any of them (R186). -/
def State.decideOne (s : State) (taken : List Nat) (a : Asked) : State × List Nat :=
  let zs := s.askedZones a
  if zs.all (fun z => (s.keeper z).holder.isNone && !taken.contains z) then
    let s := zs.foldl (fun s z =>
      let k := s.keeper z
      let s := s.setKeeper z { holder := some a.who, waiting := k.waiting.filter fun b => !(b.who == a.who && b.seq == a.seq) }
      if (s.zoneEnt z).scope = 1 then s else s.sendZone (zoneMsg 4 z a.who a.time a.seq)) s
    (if a.who = s.me a.who.chain then zs.foldl (fun s z => s.obtain a.who.chain z) s else s, zs ++ taken)
  else (s, zs ++ taken)

/-- The messages that this device repeats in every cycle: its requests and releases, and every eight cycles the states it
keeps and the claims it holds (R189, R190). -/
def State.zoneRepeat (s : State) : State :=
  let s := (List.range 16).foldl (fun s c => match (s.chain c).req with
    | some q => (s.askNow q).foldl (fun s z => if s.keeps z then s else s.sendZone (zoneMsg 1 z (s.me c) q.time q.seq)) s
    | none => s) s
  let s := s.plan.releasing.foldl (fun s p => s.sendZone (zoneMsg 2 p.1 (s.me p.2) 0 0)) s
  if s.tim.cycle % 8 ≠ 0 then s else
  let s := (List.range 32).foldl (fun s z =>
    if s.keeps z ∧ (s.zoneEnt z).scope ≠ 1 then
      match (s.keeper z).holder with
      | some w => s.sendZone (zoneMsg 4 z w 0 0)
      | none => s.sendZone (zoneMsg 4 z { pos := 0xFF, chain := 0, cell := s.cellId } 0 0)
    else s) s
  (List.range 16).foldl (fun s c => (bitsIn (s.chain c).tokens).foldl (fun s z =>
    if s.keeps z then s else s.sendZone (zoneMsg 5 z (s.me c) 0 0)) s) s

/-- KEEPER_DECISION (R186, R189): once per cell cycle, among all requests received, by rank; a restarting keeper grants
nothing (R190). -/
def execKeeperDecision (s : State) : Host.Outcome State Fault Refusal :=
  let s := s.zoneRepeat
  if s.plan.restarting then .next s else
  let all := (List.range 32).foldl (fun l z => if s.keeps z then (s.keeper z).waiting.foldl (fun l a => insertAsked a l) l else l) []
  .next (all.foldl (fun p a => p.1.decideOne p.2 a) (s, [])).1

/-- ZONE_WAIT_EXPIRY (R187): the request of a chain has waited for its smallest waiting limit, or until its segment's
deadline. -/
def execZoneWaitExpiry (c : Fin 16) (deadline : Bool) (s : State) : Host.Outcome State Fault Refusal :=
  let ch := s.chain c
  match ch.req, ch.queue with
  | some q, g :: _ =>
    let limits := ((bitsIn q.zones).map fun z => (s.zoneEnt z).wait).filter (· != 0)
    let until' := if deadline then (if g.deadline = 0 then none else some g.deadline)
      else (limits.foldl (fun m x => match m with | none => some x | some y => some (min x y)) none).map
        fun w => q.time + 1000 * w
    match until' with
    | none => .next s
    | some t =>
      let s := s.advanceCell t
      let first := ((bitsIn q.zones).filter fun z => !q.got.testBit z).headD 0
      let s := s.raise 21 (if deadline then 2 else 1) c (detail [(0, first)])
      .next (s.refuseNext c 0x31 0 3)
  | _, _ => .next s

/-- ZONE_HOLD_LIMIT_EXPIRY (R26, R187): a token has been held for its hold limit; source 20 once per grant, and the chain
goes to HOLD. -/
def execZoneHoldLimitExpiry (c : Fin 16) (z : Fin 32) (s : State) : Host.Outcome State Fault Refusal :=
  let ch := s.chain c
  match ch.grants.find? (fun g => g.1 == z.val && !g.2.2) with
  | none => .next s
  | some g =>
    let s := s.advanceCell (g.2.1 + 1000 * (s.zoneEnt z).hold)
    let l := ch.grants.map fun x => if x.1 = z.val then (x.1, (x.2.1, true)) else x
    .next (((s.setChain c { ch with grants := l }).raise 20 1 c (detail [(0, z.val)])).holdChain c 2 none)

def whoOf (m : ZoneMsg) : Party := { pos := m.pos.toNat, chain := m.chain.toNat, cell := m.cell.toNat }

/-- ZONE_REQUEST_MSG (R189): a keeper receives a request. -/
def execZoneRequestMsg (m : ZoneMsg) (s : State) : Host.Outcome State Fault Refusal :=
  let k := s.keeper m.zone
  if !s.keeps m.zone ∨ k.holder = some (whoOf m) ∨ k.waiting.any (fun a => a.who == (whoOf m) && a.seq == m.seq.toNat) then .next s
  else .next (s.setKeeper m.zone { k with waiting := k.waiting ++ [{ who := (whoOf m), time := m.time.toNat, seq := m.seq.toNat }] })

/-- ZONE_RELEASE_MSG (R189): the holder gives the zone up, and STATE shows it free. -/
def execZoneReleaseMsg (m : ZoneMsg) (s : State) : Host.Outcome State Fault Refusal :=
  let k := s.keeper m.zone
  if !s.keeps m.zone ∨ k.holder ≠ some (whoOf m) then .next s
  else .next ((s.setKeeper m.zone { k with holder := none }).sendZone
    (zoneMsg 4 m.zone { pos := 0xFF, chain := 0, cell := s.cellId } 0 0))

/-- ZONE_WITHDRAW_MSG (R189). -/
def execZoneWithdrawMsg (m : ZoneMsg) (s : State) : Host.Outcome State Fault Refusal :=
  let k := s.keeper m.zone
  if !s.keeps m.zone then .next s
  else .next (s.setKeeper m.zone { k with waiting := k.waiting.filter fun a => !(a.who == (whoOf m) && a.seq == m.seq.toNat) })

/-- ZONE_STATE_MSG (R189): a requester that STATE shows as holder has its token; a release ends when STATE shows the zone
free or held by another. -/
def execZoneStateMsg (m : ZoneMsg) (s : State) : Host.Outcome State Fault Refusal :=
  let mine := m.pos.toNat != 0xFF && (whoOf m) == s.me m.chain.toNat
  let s := { s with plan := { s.plan with releasing := s.plan.releasing.filter fun p =>
    !(p.1 == m.zone.val && !(mine && p.2 == m.chain.toNat)) } }
  .next (if mine && m.chain.toNat < 16 && !s.plan.releasing.any (fun p => p.1 == m.zone.val && p.2 == m.chain.toNat) then
    s.obtain m.chain.toNat m.zone else s)

/-- ZONE_CLAIM_MSG (R190): a restarting keeper rebuilds its holder list. -/
def execZoneClaimMsg (m : ZoneMsg) (s : State) : Host.Outcome State Fault Refusal :=
  if s.plan.restarting ∧ s.keeps m.zone then
    .next (s.setKeeper m.zone { s.keeper m.zone with holder := some (whoOf m) })
  else .next s

/-- KEEPER_RESTART_END (R190). -/
def execKeeperRestartEnd (s : State) : Host.Outcome State Fault Refusal :=
  .next { s with plan := { s.plan with restarting := false } }

/-! ## Planner settings (R191) -/

/-- Variables and rows of a problem of the given chains fit an Anvil engine (R123, R170). -/
def State.problemFits (s : State) (k : Nat) (cs : List Nat) (pairs : Nat) : Bool :=
  let n := 3 * k * cs.length
  let m := cs.foldl (fun a c => a + k * (2 * s.chainAxes c + 4)) 0 + k * pairs * (cs.length * (cs.length - 1) / 2)
  n ≤ 4096 && m ≤ 8192

/-- The planning tick in ns. -/
def State.tickLen (s : State) : Nat := s.plan.tickCycles * s.tim.cycleNs

/-- Solo chains whose warm slot is explicit. -/
def State.soloWarm (s : State) (masks : Nat) : List Nat :=
  ((List.range 16).filter fun c => !masks.testBit c && (s.chain c).warm != 0xFF).map fun c => (s.chain c).warm

/-- Masks of every swarm but `w`. -/
def State.otherMasks (s : State) (w : Nat) : Nat :=
  (List.range 8).foldl (fun a k => if k = w then a else a ||| (s.swarm k).mask) 0

/-- The status of PLAN_CFG's operands (R167, R191). -/
def State.planCfgOk (s : State) (b : List Byte) : Bool :=
  let t := field b 16 2; let w := field b 18 2; let k := field b 20 2
  let tp := t * s.tim.cycleNs
  500000 ≤ tp && tp ≤ 4000000 && 2 ≤ w && 1000000 ≤ w * tp && w * tp ≤ 16000000 && 8 ≤ k && k ≤ 128
    && (List.range 8).all (fun i => s.problemFits k (bitsIn (s.swarm i).mask) (s.swarm i).pairs)
    && (List.range 16).all (fun c => s.problemFits k [c] 0)

/-- No value stands twice. -/
def noDup : List Nat → Bool
  | [] => true
  | x :: l => !l.contains x && noDup l

/-- The warm slots that the swarms and solo chains of one tick name by choice, after a setting, are all different (R191). -/
def State.warmApart (s : State) (masks : List Nat) (warm solo : Nat → Nat) : Bool :=
  let all := masks.foldl (fun a m => a ||| m) 0
  noDup (((List.range 8).filter fun k => masks.getD k 0 != 0).map warm
    ++ (((List.range 16).filter fun c => !all.testBit c).map solo).filter (· != 0xFF))

/-- SWARM_CFG's operands (R191). -/
def State.swarmCfgOk (s : State) (b : List Byte) : Bool :=
  let w := byteAt b 16; let mask := field b 20 2; let bud := field b 24 4
  let cs := bitsIn mask
  w < 8 && 1 ≤ byteAt b 17 && byteAt b 17 ≤ 32 && byteAt b 18 ≤ 15 && 50 ≤ bud && 1000 * bud + 10000 ≤ s.tickLen
    && decide (0 ≤ fieldS b 28 4) && cs.length != 1 && mask &&& s.otherMasks w == 0
    && s.problemFits s.plan.knots cs (byteAt b 17)
    && s.warmApart ((List.range 8).map fun k => if k = w then mask else (s.swarm k).mask)
        (fun k => if k = w then byteAt b 18 else (s.swarm k).warm) (fun c => (s.chain c).warm)

/-- CHAIN_CFG's operands (R191). -/
def State.chainCfgOk (s : State) (b : List Byte) : Bool :=
  let c := byteAt b 16; let w := byteAt b 17; let h := field b 18 2; let st := field b 20 2; let bud := field b 24 4
  c < 16 && (w ≤ 15 || w == 0xFF) && 1 ≤ h && h ≤ 0x8000 && 1 ≤ st && st ≤ 0x8000 && 50 ≤ bud
    && 1000 * bud + 10000 ≤ s.tickLen
    && s.warmApart ((List.range 8).map fun k => (s.swarm k).mask) (fun k => (s.swarm k).warm)
        (fun d => if d = c then w else (s.chain d).warm)

/-- The zone of an entry of the zone table (R185). -/
def zoneOf (b : List Byte) (z : Nat) : Zone :=
  let o := 16 * z
  if byteAt b o = 0 then {} else
  { scope := byteAt b o, pos := byteAt b (o + 1), cell := field b (o + 2) 2, hold := field b (o + 4) 4,
    wait := field b (o + 8) 4, seg := byteAt b (o + 12) }

/-- A used entry is in range. -/
def zoneOk (b : List Byte) (z : Nat) : Bool :=
  let e := zoneOf b z
  e.scope == 0 || (e.scope ≤ 3 && (e.scope != 2 || (e.pos ≤ 7 && e.seg ≤ 7)) && 1000 ≤ e.hold && e.hold ≤ 600000000
    && (e.wait == 0 || (1000 ≤ e.wait && e.wait ≤ 600000000)) && zeroBytes b (16 * z + 13) 3)

/-- A setting that passes its checks waits for its planning tick; another completes with its status (R191). -/
def State.keepSetting (s : State) (d : Desc) (op : Nat) (body : List Byte) (ok : Bool) : State :=
  if !ok then s.fail d.id 0x12
  else { s with plan := { s.plan with settings := s.plan.settings ++ [{ desc := d.id, op := op, bytes := d.bytes, body := body }] } }

/-- PLAN_CFG (R191). -/
def execPlanCfg (r : Fin 64) (s : State) : Host.Outcome State Fault Refusal :=
  .next (s.runDesc r 0x0320 fun s d => s.keepSetting d 0x0320 [] (s.planCfgOk d.bytes))

/-- SWARM_CFG (R191). -/
def execSwarmCfg (r : Fin 64) (s : State) : Host.Outcome State Fault Refusal :=
  .next (s.runDesc r 0x0321 fun s d => s.keepSetting d 0x0321 [] (s.swarmCfgOk d.bytes))

/-- CHAIN_CFG (R191). -/
def execChainCfg (r : Fin 64) (s : State) : Host.Outcome State Fault Refusal :=
  .next (s.runDesc r 0x0322 fun s d => s.keepSetting d 0x0322 [] (s.chainCfgOk d.bytes))

/-- ZONE_TABLE (R185, R191): a used entry with a hold limit of zero completes it with 0x11. -/
def execZoneTable (r : Fin 64) (io : HostIo) (s : State) : Host.Outcome State Fault Refusal :=
  .next (s.runDesc r 0x0323 fun s d => s.withBody d io fun s b =>
    if (List.range 32).any fun z => byteAt b (16 * z) != 0 && zeroBytes b (16 * z + 4) 4 then s.fail d.id 0x11
    else s.keepSetting d 0x0323 b ((List.range 32).all (zoneOk b)))

/-- The chains that a setting affects. -/
def State.affected (s : State) (x : Setting) : List Nat :=
  if x.op = 0x0321 then bitsIn (field x.bytes 20 2 ||| (s.swarm (byteAt x.bytes 16)).mask)
  else if x.op = 0x0322 then [byteAt x.bytes 16]
  else List.range 16

/-- Automatic warm slots (R191): each solo chain takes the lowest slot that no swarm, no explicit solo chain and no
automatic one before it uses. -/
def State.assignWarm (s : State) : State :=
  let masks := s.otherMasks 8
  let used := ((List.range 8).filter fun k => (s.swarm k).mask != 0).map (fun k => (s.swarm k).warm) ++ s.soloWarm masks
  let l := (List.range 16).foldl (fun (l : List (Nat × Nat)) c =>
    if masks.testBit c || (s.chain c).warm != 0xFF then l else
    match (List.range 16).find? fun w => !used.contains w && !l.any (·.2 == w) with
    | some w => l ++ [(c, w)]
    | none => l) []
  { s with plan := { s.plan with autoWarm := l } }

/-- A setting takes effect (R191). -/
def State.applySetting (s : State) (x : Setting) : State :=
  let b := x.bytes
  if x.op = 0x0320 then
    { s with plan := { s.plan with tickCycles := field b 16 2, windowTicks := field b 18 2, knots := field b 20 2 } }
  else if x.op = 0x0321 then
    let w : Swarm := { pairs := byteAt b 17, warm := byteAt b 18, mask := field b 20 2, budget := field b 24 4,
                       margin := field b 28 4 }
    ({ s with plan := { s.plan with swarm := store (fun i => { warm := i }) s.plan.swarm (byteAt b 16) w } }).assignWarm
  else if x.op = 0x0322 then
    let c := byteAt b 16
    (s.setChain c { s.chain c with warm := byteAt b 17, holdFrac := field b 18 2, stopFrac := field b 20 2,
                                   budget := field b 24 4, vmax := field b 28 4, ramp := field b 32 4 }).assignWarm.writeSentinelRamp c
  else
    { s with plan := { s.plan with zone := (List.range 32).foldl (fun t z => store (fun _ => {}) t z (zoneOf x.body z))
                                             s.plan.zone } }

/-- PLANNER_SETTING_APPLY (R191): the first setting whose chains are all IDLE applies, and its descriptor completes. -/
def execPlannerSettingApply (s : State) : Host.Outcome State Fault Refusal :=
  match s.plan.settings.find? fun x => (s.affected x).all fun c => (s.chain c).state == 0 with
  | none => .next s
  | some x =>
    let s := { s with plan := { s.plan with settings := s.plan.settings.filter (·.desc != x.desc) } }
    .next ((s.applySetting x).complete x.desc 1)

end Sys2Proof.Machine
end

