-- ==== Sys2Proof/Machine/Geometry.lean ====
section
/-!
DEFINITION. Machine/Geometry.lean: the arithmetic of Quench's spacing unit: poses and rotations (R385), the least distance
of two segments (R390), and the speed of a protective separation distance (R391).  Lengths are integers in units of 2⁻⁹⁶ mm
and matrix entries in units of 2⁻⁹⁶; the trigonometric functions are evaluated to about that precision (log entry 35).
-/

namespace Sys2Proof.Machine

namespace Geo

/-- One in fixed point. -/
def one : Int := 2 ^ 96

/-- The product of two fixed-point values. -/
def mul (a b : Int) : Int := (a * b) / 2 ^ 96

/-- 2π in units of 2⁻¹¹². -/
def twoPi : Int := 32624163332060752803334972325496544

/-- The sum of a power series whose term n follows from its predecessor by −x² / ((2n + k)(2n + k + 1)). -/
def series (x2 : Int) : Nat → Nat → Int → Int
  | 0, _, _ => 0
  | fuel + 1, k, t => t + series x2 fuel (k + 2) (-(t * x2 / 2 ^ 112) / ((k * (k + 1) : Nat) : Int))

/-- Cosine and sine of an angle of 0 to π/2, in units of 2⁻¹¹² in and out. -/
def cosSin0 (x : Int) : Int × Int := let x2 := x * x / 2 ^ 112; (series x2 24 1 (2 ^ 112), series x2 24 2 x)

/-- Cosine and sine of an angle in units of 2⁻⁵⁶ turns. -/
def cosSin (turns : Int) : Int × Int :=
  let f := turns % 2 ^ 56
  let (c, s) := cosSin0 (f % 2 ^ 54 * twoPi / 2 ^ 56)
  let c := c / 2 ^ 16
  let s := s / 2 ^ 16
  match (f / 2 ^ 54).toNat with
  | 0 => (c, s)
  | 1 => (-s, c)
  | 2 => (-c, -s)
  | _ => (s, -c)

structure V3 where
  x : Int
  y : Int
  z : Int
  deriving DecidableEq, Repr

def V3.sub (a b : V3) : V3 := { x := a.x - b.x, y := a.y - b.y, z := a.z - b.z }
def V3.add (a b : V3) : V3 := { x := a.x + b.x, y := a.y + b.y, z := a.z + b.z }
def V3.dot (a b : V3) : Int := a.x * b.x + a.y * b.y + a.z * b.z
def V3.cross (a b : V3) : V3 :=
  { x := a.y * b.z - a.z * b.y, y := a.z * b.x - a.x * b.z, z := a.x * b.y - a.y * b.x }

/-- A pose: the columns of its rotation, and its position. -/
structure Pose where
  i : V3
  j : V3
  k : V3
  p : V3
  deriving DecidableEq, Repr

/-- The fixed-point combination of the columns. -/
def Pose.turn (f : Pose) (v : V3) : V3 :=
  { x := mul f.i.x v.x + mul f.j.x v.y + mul f.k.x v.z
    y := mul f.i.y v.x + mul f.j.y v.y + mul f.k.y v.z
    z := mul f.i.z v.x + mul f.j.z v.y + mul f.k.z v.z }

def Pose.at (f : Pose) (v : V3) : V3 := (f.turn v).add f.p

def Pose.then (f g : Pose) : Pose := { i := f.turn g.i, j := f.turn g.j, k := f.turn g.k, p := f.at g.p }

/-- A coordinate of 12 fractional bits (R10). -/
def coord (b : List Byte) (o : Nat) : V3 :=
  { x := fieldS b o 4 * 2 ^ 84, y := fieldS b (o + 4) 4 * 2 ^ 84, z := fieldS b (o + 8) 4 * 2 ^ 84 }

/-- The rotation of a quaternion w, x, y, z with 30 fractional bits (R161), and a translation. -/
def poseOf (b : List Byte) (pos quat : Nat) : Pose :=
  let w := fieldS b quat 4
  let x := fieldS b (quat + 4) 4
  let y := fieldS b (quat + 8) 4
  let z := fieldS b (quat + 12) 4
  let s : Int := 2 ^ 36
  { i := { x := one - 2 * s * (y * y + z * z), y := 2 * s * (x * y + w * z), z := 2 * s * (x * z - w * y) }
    j := { x := 2 * s * (x * y - w * z), y := one - 2 * s * (x * x + z * z), z := 2 * s * (y * z + w * x) }
    k := { x := 2 * s * (x * z + w * y), y := 2 * s * (y * z - w * x), z := one - 2 * s * (x * x + y * y) }
    p := coord b pos }

/-- A joint (R385): a rotation of 2π·q about z with q in turns, or a translation of q mm along z; q in units of 2⁻⁵⁶. -/
def joint (linear : Bool) (q : Int) : Pose :=
  if linear then
    { i := { x := one, y := 0, z := 0 }, j := { x := 0, y := one, z := 0 }, k := { x := 0, y := 0, z := one }
      p := { x := 0, y := 0, z := q * 2 ^ 40 } }
  else
    let (c, s) := cosSin q
    { i := { x := c, y := s, z := 0 }, j := { x := -s, y := c, z := 0 }, k := { x := 0, y := 0, z := one }
      p := { x := 0, y := 0, z := 0 } }

/-! ## Distances (R390) -/

/-- The smaller of two fractions with positive denominators. -/
def minFrac (a b : Int × Int) : Int × Int := if a.1 * b.2 ≤ b.1 * a.2 then a else b

/-- The square of the distance of a point and a segment, as a fraction. -/
def pointSeg (x p q : V3) : Int × Int :=
  let d := q.sub p
  let r := x.sub p
  let e := d.dot d
  let t := r.dot d
  if t ≤ 0 then (r.dot r, 1)
  else if e ≤ t then ((x.sub q).dot (x.sub q), 1)
  else (r.dot r * e - t * t, e)

/-- The square of the least distance of two segments, as a fraction. -/
def segSeg (p1 q1 p2 q2 : V3) : Int × Int :=
  let d1 := q1.sub p1
  let d2 := q2.sub p2
  let r := p1.sub p2
  let a := d1.dot d1
  let e := d2.dot d2
  let b := d1.dot d2
  let c := d1.dot r
  let f := d2.dot r
  let den := a * e - b * b
  let s := b * f - c * e
  let t := a * f - b * c
  let ends := minFrac (minFrac (pointSeg p1 p2 q2) (pointSeg q1 p2 q2)) (minFrac (pointSeg p2 p1 q1) (pointSeg q2 p1 q1))
  if 0 < den ∧ 0 ≤ s ∧ s ≤ den ∧ 0 ≤ t ∧ t ≤ den then
    let n := (d1.cross d2).dot r
    minFrac (n * n, den) ends
  else ends

/-- D − `off` rounded towards zero, in 1/4,096 mm, for D² given as a fraction and `off` in 1/4,096 mm. -/
def distLess (d2 : Int × Int) (off : Int) : Int :=
  let num := d2.1.toNat * 4096 * 4096
  let den := d2.2.toNat * 2 ^ 192
  let lo := isqrt (num / den)
  if off ≤ (lo : Int) then (lo : Int) - off
  else if lo * lo * den = num then (lo : Int) - off
  else (lo : Int) + 1 - off

/-! ## The protective separation distance (R391) -/

/-- Whether S_p(v) ≤ d.  Speeds `n`, `vo` in 1/4,096 mm/s, deceleration `a` in 1/4,096 mm/s², the sum of T_r and T in µs,
d less C, u and Z_r in 1/4,096 mm. -/
def within (n vo a tau : Nat) (d : Int) : Bool :=
  decide ((2 * a * (vo + n) * tau + 2000000 * vo * n + 1000000 * n * n : Nat) ≤ 2000000 * (a : Int) * d)

/-- The largest speed below 2 ^ bits more than `n` that is within the distance. -/
def climb (vo a tau : Nat) (d : Int) : Nat → Nat → Nat
  | 0, n => n
  | k + 1, n => climb vo a tau d k (if within (n + 2 ^ k) vo a tau d then n + 2 ^ k else n)

/-- V(d; T, a), rounded towards zero at 1/4,096 mm/s. -/
def speedFor (vo a tau : Nat) (d : Int) : Nat := if within 0 vo a tau d then climb vo a tau d 32 0 else 0

end Geo

end Sys2Proof.Machine
end

