-- ==== Sys2Proof/Machine/Sps.lean ====
section
/-!
DEFINITION. Machine/Sps.lean: the safety parameter set (R377, R382, R383, R385, R387, R400), its configuration check value,
and the checks of SPS_LOAD (R378, R407).
-/

namespace Sys2Proof.Machine

/-- The CRC of R371 over a run of bytes from a start value. -/
def crcQ (init : Nat) (bs : List Byte) : Nat :=
  bs.foldl (fun c b => (List.range 8).foldl (fun c _ =>
    if c.testBit 31 then (c * 2) % 2 ^ 32 ^^^ 0x04C11DB7 else (c * 2) % 2 ^ 32) (c ^^^ (b.toNat * 2 ^ 24))) init

/-- The configuration check value of a set (R377). -/
def setCrc (b : List Byte) : Nat := crcQ 0xFFFFFFFF b

namespace Sps

/-- Offset of section `i`: inputs, test pulses, outputs, connections, brakes, chains, spacing. -/
def sect (b : List Byte) (i : Nat) : Nat := field b (16 + 4 * i) 4

def entry (b : List Byte) (i n k : Nat) : List Byte := (b.drop (sect b i + n * k)).take n

def inp (b : List Byte) (p : Nat) : List Byte := entry b 0 8 p
def pulse (b : List Byte) (t : Nat) : List Byte := entry b 1 4 t
def out (b : List Byte) (k : Nat) : List Byte := entry b 2 8 k
def conns (b : List Byte) : Nat := byteAt b 15
def conn (b : List Byte) (n : Nat) : List Byte := entry b 3 16 n
def brake (b : List Byte) (k : Nat) : List Byte := entry b 4 32 k
def chain (b : List Byte) (c : Nat) : List Byte := entry b 5 2048 c
/-- The spacing header, and the entry of a sensor. -/
def spacing (b : List Byte) : List Byte := (b.drop (sect b 6)).take 16
def sensors (b : List Byte) : Nat := byteAt (spacing b) 4
def sensor (b : List Byte) (i : Nat) : List Byte := (b.drop (sect b 6 + 16 + 16 * i)).take 16

/-- Axis record `j` and capsule record `i` of a chain entry. -/
def axis (c : List Byte) (j : Nat) : List Byte := (c.drop (128 + 64 * j)).take 64
def axes (c : List Byte) : Nat := min 16 (byteAt c 1)
def capsule (c : List Byte) (i : Nat) : List Byte := (c.drop (1152 + 32 * i)).take 32
def capsules (c : List Byte) : Nat := min 16 (byteAt c 2)

def used (e : List Byte) : Bool := byteAt e 0 == 1

/-- Bytes of a section. -/
def size (b : List Byte) (i : Nat) : Nat :=
  match i with
  | 0 => 128
  | 1 => 64
  | 2 => 64
  | 3 => 16 * conns b
  | 4 => 512
  | 5 => 32768
  | _ => 16 + 16 * sensors b

/-- The first index below `n` at which a check fails. -/
def bad (n : Nat) (p : Nat → Bool) : Option Nat := (List.range n).find? p

/-- A failed check: its code and its entry. -/
def fails (code : Nat) (i : Option Nat) : Option (Nat × Nat) := i.map fun i => (code, i)

def failsIf (code : Nat) (c : Bool) : Option (Nat × Nat) := if c then some (code, 0xFFFF) else none

/-- A signal of R369 is well formed. -/
def signalOk (s : Nat) : Bool :=
  match s / 4096 with
  | 0 => decide (s % 4096 < 16)
  | 1 => true
  | 2 => decide (s % 4096 < 16)
  | 3 => s % 4096 == 0
  | _ => false

/-- Reserved fields of entries that are used. -/
def reservedBad (b : List Byte) : Bool :=
  !zeroBytes b 2 2 || !zeroBytes b 44 20
    || ((List.range 16).any fun t => byteAt (pulse b t) 3 != 0)
    || ((List.range (conns b)).any fun n => !zeroBytes (conn b n) 14 2 || decide (2 ≤ byteAt (conn b n) 7))
    || ((List.range 16).any fun k => let e := brake b k; used e && (byteAt e 27 != 0 || !zeroBytes e 30 2))
    || ((List.range 16).any fun c => let e := chain b c
        used e && (byteAt e 7 != 0 || decide (2 ≤ byteAt e 6) || !zeroBytes e 84 44 || !zeroBytes e 1664 384
          || ((List.range (axes e)).any fun j => !zeroBytes (axis e j) 54 10 || decide (8 ≤ byteAt (axis e j) 23))
          || ((List.range (capsules e)).any fun i => !zeroBytes (capsule e i) 1 3)))
    || !zeroBytes (spacing b) 5 11
    || ((List.range (sensors b)).any fun i => byteAt (sensor b i) 1 != 0 || !zeroBytes (sensor b i) 12 4)

/-- Check 2: the length, and the sections in the order of the header. -/
def boundsBad (b : List Byte) : Bool :=
  field b 4 4 != b.length || decide (131072 < b.length) || decide (128 < conns b)
    || ((List.range 7).foldl (fun (p : Nat × Bool) i =>
      (sect b i + size b i, p.2 || decide (sect b i < p.1) || decide (b.length < sect b i + size b i))) ((64 : Nat), false)).2

def inpBad (b : List Byte) (p : Nat) : Bool :=
  let e := inp b p
  let src := fun (v : Nat) => decide (v < 16) || v == 0xFF
  decide (2 < byteAt e 0) || (byteAt e 0 != 0 &&
    (decide (3 < byteAt e 1) || !src (byteAt e 2) || !src (byteAt e 3)
      || (byteAt e 2 != 0xFF && byteAt e 2 == byteAt e 3)
      || decide (field e 4 2 < 1 ∨ 2000 < field e 4 2) || decide (field e 6 2 < 1 ∨ 4000 < field e 6 2)
      || (byteAt e 1 == 1 && (List.range p).any fun q => byteAt (inp b q) 0 != 0 && byteAt (inp b q) 1 == 1)))

/-- A test source with period 0 is unused. -/
def pulseUsed (b : List Byte) (t : Nat) : Bool := field (pulse b t) 0 2 != 0

def pulseBad (b : List Byte) (t : Nat) : Bool :=
  let e := pulse b t
  pulseUsed b t && (decide (1000 < field e 0 2) || decide (byteAt e 2 < 2 ∨ 50 < byteAt e 2))

/-- The widths leave no stagger within the shortest period, in units of 10 µs. -/
def staggerBad (b : List Byte) : Bool :=
  let l := (List.range 16).filter (pulseUsed b)
  let sum := l.foldl (fun n t => n + byteAt (pulse b t) 2) 0
  l.any fun t => decide (100 * field (pulse b t) 0 2 < sum)

def outBad (b : List Byte) (k : Nat) : Bool :=
  let e := out b k
  decide (1 < byteAt e 0) || (used e && (decide (byteAt e 1 < 5 ∨ 50 < byteAt e 1)
    || decide (field e 2 2 < 1 ∨ 3600 < field e 2 2) || !signalOk (field e 4 2) || !signalOk (field e 6 2)))

/-- The bytes of Quench's input buffer that an input connection covers. -/
def bufOf (e : List Byte) : Nat × Nat := (8192 * byteAt e 2 + field e 4 2, byteAt e 6 + 10)

def connBad (b : List Byte) (n : Nat) : Bool :=
  let e := conn b n
  let inDir := byteAt e 0 == 0
  let earlier := (List.range n).map (conn b)
  let len := byteAt e 6
  decide (1 < byteAt e 0) || decide (3 < byteAt e 1) || decide (7 < byteAt e 2) || decide (byteAt e 3 < 1 ∨ 24 < byteAt e 3)
    || decide (len < 1 ∨ 64 < len) || field e 12 2 == 0
    || (byteAt e 1 == 1 && len != 2) || (byteAt e 1 == 2 && (!inDir || (len != 32 && len != 64)))
    || (byteAt e 1 == 3 && decide (4 < len))
    || (if inDir then decide (8192 < field e 4 2 + len + 10) else decide (127 < field e 4 2))
    || earlier.any fun q => field q 8 4 == field e 8 4
      || (byteAt q 0 == byteAt e 0 && (if inDir then
          decide ((bufOf q).1 < (bufOf e).1 + (bufOf e).2 ∧ (bufOf e).1 < (bufOf q).1 + (bufOf q).2)
        else field q 4 2 == field e 4 2))

/-- A quaternion's norm differs from 1 by more than 2⁻¹⁶. -/
def quatBad (b : List Byte) (o : Nat) : Bool :=
  let sq := (List.range 4).foldl (fun n i => n + (fieldS b (o + 4 * i) 4).natAbs ^ 2) 0
  decide (sq < (2 ^ 30 - 2 ^ 14) ^ 2 ∨ (2 ^ 30 + 2 ^ 14) ^ 2 < sq)

/-- An axis record (R383, R407). -/
def axisBad (b : List Byte) (e : List Byte) : Bool :=
  let src := fun (o len : Nat) => decide (8192 < o + len)
  let out? := fun (n dir : Nat) => decide (conns b ≤ n) || byteAt (conn b n) 0 != dir || byteAt (conn b n) 1 != 1
  decide (2 < byteAt e 1) || decide (7 < byteAt e 2) || src (field e 4 2) 8
    || (if bitAt (byteAt e 3) 7 then decide (31 < byteAt e 3 % 128) else decide (7 < byteAt e 3) || src (field e 6 2) 8)
    || decide (byteAt e 20 < 1 ∨ 16 < byteAt e 20) || out? (byteAt e 21) 1 || out? (byteAt e 22) 0
    || (byteAt e 1 != 2 && quatBad e 36) || (field e 52 2 != 0xFFFF && src (field e 52 2) 2)

/-- Joints of a chain entry. -/
def joints (e : List Byte) : Nat := ((List.range (axes e)).filter fun j => byteAt (axis e j) 1 != 2).length

def chainBad (b : List Byte) (c : Nat) : Bool :=
  let e := chain b c
  decide (1 < byteAt e 0) || (used e &&
    (decide (byteAt e 1 < 1 ∨ 16 < byteAt e 1) || decide (16 < byteAt e 2)
      || !(byteAt e 3 == 1 || byteAt e 3 == 2) || !(byteAt e 4 == 2 || byteAt e 4 == 3)
      || (byteAt e 5 != 0xFF && decide (15 < byteAt e 5)) || !signalOk (field e 10 2)
      || field e 20 4 == 0 || field e 24 4 == 0 || decide (field e 20 4 < field e 24 4)
      || decide (field e 48 2 < 10 ∨ 10000 < field e 48 2) || decide (10000 < field e 50 2) || quatBad e 68
      || ((List.range (axes e)).any fun j => axisBad b (axis e j)
        || ((List.range j).any fun i => byteAt (axis e i) 0 == byteAt (axis e j) 0)
        || ((List.range c).any fun d => used (chain b d)
          && (List.range (axes (chain b d))).any fun i => byteAt (axis (chain b d) i) 0 == byteAt (axis e j) 0))
      || ((List.range (capsules e)).any fun i => decide (joints e < byteAt (capsule e i) 0))))

def brakeBad (b : List Byte) (k : Nat) : Bool :=
  let e := brake b k
  let c := chain b (byteAt e 2)
  let within := fun (o lo hi : Nat) => decide (lo ≤ field e o 2 ∧ field e o 2 ≤ hi)
  decide (1 < byteAt e 0) || (used e &&
    (decide (15 < byteAt e 2) || !used c || !((List.range (axes c)).any fun j => byteAt (axis c j) 0 == byteAt e 1)
      || (byteAt e 3 != 0xFF && decide (23 < byteAt e 3)) || !within 10 10 2000 || !within 12 10 2000
      || !within 14 1 32767 || !within 16 256 768 || !within 18 100 10000 || !within 24 0 8760
      || decide (byteAt e 26 < 5 ∨ 50 < byteAt e 26) || !within 28 1 3600))

/-- Objects that a sensor's PDU carries. -/
def objectsOf (b : List Byte) (i : Nat) : Nat := byteAt (conn b (byteAt (sensor b i) 0)) 6 / 32

/-- The term "Combway sensor to drive" of R406 in µs for a cell cycle in ns. -/
def reaction (cycle : Nat) : Nat := (500000 + 3 * cycle + 999) / 1000

def spacingBad (b : List Byte) (cycle : Nat) : Bool :=
  decide (32 < sensors b) || decide (field (spacing b) 0 4 < reaction cycle)
    || ((List.range (sensors b)).any fun i =>
      let n := byteAt (sensor b i) 0
      decide (conns b ≤ n) || byteAt (conn b n) 0 != 0 || byteAt (conn b n) 1 != 2)
    || decide (64 < (List.range (sensors b)).foldl (fun n i => n + objectsOf b i) 0)

/-- The checks of SPS_LOAD (R378, R407), in the order of their codes. -/
def check (b : List Byte) (cycle : Nat) : Option (Nat × Nat) :=
  (failsIf 1 (field b 0 2 != 1)).or <|
  (failsIf 2 (boundsBad b)).or <|
  (failsIf 1 (reservedBad b)).or <|
  (fails 3 (bad 16 (inpBad b))).or <|
  (fails 4 (bad 16 (pulseBad b))).or <|
  (failsIf 4 (staggerBad b)).or <|
  (fails 5 (bad 8 (outBad b))).or <|
  (fails 6 (bad (conns b) (connBad b))).or <|
  (fails 7 (bad 16 (brakeBad b))).or <|
  (fails 7 (bad 16 (chainBad b))).or <|
  failsIf 7 (spacingBad b cycle)

end Sps

end Sys2Proof.Machine
end

