-- ==== Sys2Proof/Machine/QuenchIo.lean ====
section
/-!
DEFINITION. Machine/QuenchIo.lean: Quench's behaviours (R362, R363), safety inputs and pairs (R364 to R367), signals and safe
outputs (R369, R370), and the safety layer (R371 to R376).
-/

namespace Sys2Proof.Machine

/-! ## Entries in force: those of the set, or the fixed ones of KINDLE (R454, R456) -/

def kindleIn (a : Nat) : List Byte :=
  [0, 1, 0] ++ toBytes 1 (a + 2) ++ toBytes 2 (32 * a + 20) ++ [2, 1] ++ toBytes 4 (0x4B490000 + a + 2) ++ toBytes 2 500 ++ [0, 0]

def kindleOut (a : Nat) : List Byte :=
  [1, 1, 0] ++ toBytes 1 (a + 2) ++ toBytes 2 a ++ [2, 1] ++ toBytes 4 (0x4B4F0000 + a + 2) ++ toBytes 2 500 ++ [0, 0]

def State.qInp (s : State) (p : Nat) : List Byte :=
  if s.mode = 1 then (if p = 0 then [1, 2, 0xFF, 0xFF] ++ toBytes 2 500 ++ toBytes 2 100 else List.replicate 8 0)
  else if s.quench.set.isEmpty then List.replicate 8 0 else Sps.inp s.quench.set p

def State.qConns (s : State) : Nat := if s.mode = 1 then 16 else Sps.conns s.quench.set

def State.qConnEntry (s : State) (n : Nat) : List Byte :=
  if s.mode = 1 then (if n < 8 then kindleIn n else kindleOut (n - 8)) else Sps.conn s.quench.set n

/-! ## Tables of Quench -/

def State.qInput (s : State) (i : Nat) : QInput := lookup (fun _ => {}) s.quench.input i
def State.setQInput (s : State) (i : Nat) (v : QInput) : State :=
  { s with quench := { s.quench with input := store (fun _ => {}) s.quench.input i v } }
def State.qPair (s : State) (p : Nat) : QPair := lookup (fun _ => {}) s.quench.pair p
def State.setQPair (s : State) (p : Nat) (v : QPair) : State :=
  { s with quench := { s.quench with pair := store (fun _ => {}) s.quench.pair p v } }
def State.qConn (s : State) (n : Nat) : QConn := lookup (fun _ => {}) s.quench.conn n
def State.setQConn (s : State) (n : Nat) (v : QConn) : State :=
  { s with quench := { s.quench with conn := store (fun _ => {}) s.quench.conn n v } }
def State.qOutput (s : State) (k : Nat) : QSwitch := lookup (fun _ => {}) s.quench.output k
def State.setQOutput (s : State) (k : Nat) (v : QSwitch) : State :=
  { s with quench := { s.quench with output := store (fun _ => {}) s.quench.output k v } }
def State.qChain (s : State) (c : Nat) : QChain := lookup (fun _ => {}) s.quench.chain c
def State.setQChain (s : State) (c : Nat) (v : QChain) : State :=
  { s with quench := { s.quench with chain := store (fun _ => {}) s.quench.chain c v } }
def State.qBrake (s : State) (b : Nat) : QBrake := lookup (fun _ => {}) s.quench.brake b
def State.setQBrake (s : State) (b : Nat) (v : QBrake) : State :=
  { s with quench := { s.quench with brake := store (fun _ => {}) s.quench.brake b v } }

def State.behaviour (s : State) : Nat := s.rd F.QNC_STAT_behaviour

/-- Quench drives local outputs, brake enables and PDUs: not in STANDBY (R432), nor after silencing (R436). -/
def State.qDrives (s : State) : Bool := s.mode != 6 && !s.combway.silenced && !s.quench.held && !s.quench.safStopped

/-! ## Behaviours (R362, R363) -/

/-- A change of behaviour raises source 92. -/
def State.setBehaviour (s : State) (b : Nat) : State :=
  let old := s.behaviour
  if b = old then s else (s.wr F.QNC_STAT_behaviour b).raise 92 1 0xFFFF (detail [(0, b), (1, old)])

/-- The behaviour that R362 and R442 give. -/
def State.dueBehaviour (s : State) : Nat :=
  let m := s.mode
  if s.behaviour = 4 then 4
  else if !s.quench.tested then 0
  else if m = 1 then 1
  else if s.quench.set.isEmpty then 0
  else if m = 2 ∨ m = 7 ∨ !s.on F.QNC_STAT_confirmed then 2
  else if m = 0 then 0
  else 3

/-- Every output, brake enable and chain is put in its safe state. -/
def State.safeState (s : State) : State :=
  let s := s.wr F.QNC_OUT_STAT_on 0
  let s := (List.range 16).foldl (fun s b => if s.rd F.QNC_BRK_STAT_state b = 0 then s else s.wr F.QNC_BRK_STAT_state 1 b) s
  let s := (List.range 16).foldl (fun s c =>
    ((s.wr F.QNC_CHAIN_STAT_stop 3 c).wr F.QNC_CHAIN_STAT_state 3 c).wr F.QNC_CHAIN_STAT_cause 14 c) s
  let s := s.wr F.QNC_STAT_sto_all 1
  s.wr F.GLB_KDL_STAT_torque 0

/-- SAFE, with the first cause kept (R363). -/
def State.enterSafe (s : State) (cause : Nat) : State :=
  if s.behaviour = 4 then s else ((s.wr F.QNC_STAT_safe_cause cause).setBehaviour 4).safeState

/-! ## Inputs (R364 to R367) -/

/-- SAFETY_INPUT_SAMPLE (R364): the 32 inputs every 10 µs; the samples around a pulse of an input's source are left out. -/
def execSafetyInputSample (levels : BitVec 32) (s : State) : Host.Outcome State Fault Refusal :=
  if s.quench.held || s.quench.safStopped then .next s
  else
    let s := s.advanceTo (s.quench.sampleAt + us 10)
    let s := { s with quench := { s.quench with sampleAt := s.tick } }
    .next ((List.range 32).foldl (fun s i =>
      let e := s.qInp (i / 2)
      let src := byteAt e (2 + i % 2)
      let x := s.qInput i
      if byteAt e 0 = 0 ∨ (src < 16 ∧ s.tick < lookup (fun _ => 0) s.quench.pulse src) then s
      else if levels.getLsbD i == x.level then s.setQInput i { x with streak := 0 }
      else if x.streak + 1 < field e 4 2 then s.setQInput i { x with streak := x.streak + 1 }
      else s.setQInput i { level := !x.level, streak := 0 }) s)

/-- The two channels of a pair are active. -/
def State.active (s : State) (p : Nat) : Bool × Bool :=
  let anti := byteAt (s.qInp p) 0 == 2
  ((s.qInput (2 * p)).level, (s.qInput (2 * p + 1)).level != anti)

def State.pairOn (s : State) (p : Nat) : Bool := bitAt (s.rd F.QNC_IN_VAL_value) p

def State.pairFault (s : State) (p : Nat) : Bool := bitAt (s.rd F.QNC_IN_FLT_disc) p || bitAt (s.rd F.QNC_IN_FLT_tp) p

/-- The discrepancy count of a pair has reached T_disc: source 95 code 1 (R366). -/
def State.discrepancy (s : State) (p : Nat) : State :=
  let e := s.qInp p
  if byteAt e 0 = 0 ∨ (s.qPair p).count < field e 6 2 ∨ bitAt (s.rd F.QNC_IN_FLT_disc) p then s
  else ((s.wrBit F.QNC_IN_FLT_disc p true).wrBit F.QNC_IN_VAL_value p false).raise 95 1 p

/-- A pair at a safety tick (R366). -/
def State.evalPair (s : State) (p : Nat) : State :=
  if byteAt (s.qInp p) 0 = 0 then s
  else
    let (a, b) := s.active p
    let x := s.qPair p
    let old := s.pairOn p
    let new := a && b && !s.pairFault p && (old || x.seen)
    let count := if a == b then 0 else x.count + 1
    let partial_ := a && b && !new && x.gone && !x.seen
    let s := s.setQPair p {
      seen := !new && ((!a && !b) || x.seen)
      gone := !new && (a || b) && ((a != b) || x.gone)
      count := count
      since := if new && !old then s.tick else x.since }
    let s := s.wrBit F.QNC_IN_VAL_value p new
    let s := if new then s.wrBit F.QNC_IN_VAL_partial p false
      else if partial_ && !bitAt (s.rd F.QNC_IN_VAL_partial) p then (s.wrBit F.QNC_IN_VAL_partial p true).raise 95 2 p
      else s
    s.discrepancy p

/-- A reset is accepted at this tick: a reset pair that has no fault falls after 100 ms to 3 s at 1 (R367). -/
def State.resetSeen (s : State) (old : State) : Bool :=
  (List.range 16).any fun p =>
    let e := s.qInp p
    let t := s.tick - (old.qPair p).since
    byteAt e 0 != 0 && byteAt e 1 == 1 && s.mode != 1 && old.pairOn p && !s.pairOn p && !s.pairFault p
      && decide (ms 100 ≤ t ∧ t ≤ ms 3000)

/-- A reset clears the faults latched before this tick, and the connections' acknowledgements (R367, R368). -/
def State.acceptReset (s old : State) : State :=
  let s := s.wr F.QNC_IN_FLT_disc (s.rd F.QNC_IN_FLT_disc - (s.rd F.QNC_IN_FLT_disc &&& old.rd F.QNC_IN_FLT_disc))
  let s := s.wr F.QNC_IN_FLT_tp (s.rd F.QNC_IN_FLT_tp - (s.rd F.QNC_IN_FLT_tp &&& old.rd F.QNC_IN_FLT_tp))
  let s := s.wr F.QNC_OUT_STAT_fault 0
  let s := (List.range 16).foldl (fun s b => s.wr F.QNC_BRK_STAT_fault 0 b) s
  (List.range s.qConns).foldl (fun s n => s.wr F.QNC_CONN_STAT_ack_wait 0 n) s

/-- DISCREPANCY_FAULT (R366): the check that every safety tick makes of the pair. -/
def execDiscrepancyFault (p : Fin 16) (s : State) : Host.Outcome State Fault Refusal := .next (s.discrepancy p)

/-- TEST_PULSE (R365): the inputs of a source whose last sample before the end of its pulse was low.  A pair with an input
that stays high latches a fault. -/
def execTestPulse (t : Fin 16) (low : BitVec 32) (s : State) : Host.Outcome State Fault Refusal :=
  if s.quench.held || s.quench.safStopped || s.mode == 1 || s.quench.set.isEmpty || !Sps.pulseUsed s.quench.set t then .next s
  else
    let wide := us (10 * byteAt (Sps.pulse s.quench.set t) 2 + 20)
    let s := { s with quench := { s.quench with pulse := store (fun _ => 0) s.quench.pulse t (s.tick + wide) } }
    .next ((List.range 16).foldl (fun s p =>
      let e := s.qInp p
      let a := byteAt e 0 != 0 && byteAt e 2 == t.val && !low.getLsbD (2 * p)
      let b := byteAt e 0 != 0 && byteAt e 3 == t.val && !low.getLsbD (2 * p + 1)
      if !(a || b) then s
      else
        ((s.wrBit F.QNC_IN_FLT_tp p true).wrBit F.QNC_IN_VAL_value p false).raise 96
          (if a && b then 3 else if a then 1 else 2) p (detail [(0, t.val)])) s)

/-! ## The safety layer (R371 to R376) -/

/-- Bytes n + 10 of a PDU with its check value (R371). -/
def pduOf (identity : Nat) (data : List Byte) (number watchdog control : Nat) : List Byte :=
  let p := data ++ toBytes 3 number ++ toBytes 2 watchdog ++ toBytes 1 control
  p ++ toBytes 4 (crcQ 0xFFFFFFFF (toBytes 4 identity ++ p))

/-- A connection enters FAILSAFE. -/
def State.failConn (s : State) (n cause : Nat) : State :=
  let s := (s.wr F.QNC_CONN_STAT_state 3 n).wr F.QNC_CONN_STAT_cause cause n
  s.setQConn n { s.qConn n with news := 0 }

/-- The deposit that covers a byte of the input buffer: its cell time. -/
def State.depositTime (s : State) (a : Nat) : Option Nat :=
  (s.combway.qinAt.find? fun e => decide (e.1 ≤ a ∧ a < e.1 + e.2.1)).map (·.2.2)

/-- A new PDU is accepted (R374 step 4, R375). -/
def State.acceptPdu (s : State) (n t number : Nat) (data : List Byte) (control : Nat) : State :=
  let e := s.qConnEntry n
  let auto := bitAt (byteAt e 7) 0
  let x := s.qConn n
  let st := s.rd F.QNC_CONN_STAT_state n
  let news := if st = 2 then min 3 (x.news + 1) else 1
  let s := s.setQConn n { x with data := data, fs := bitAt control 0, at_ := t, news := news }
  let s := s.wr F.QNC_CONN_STAT_number number n
  let s := if st = 2 then s
    else (s.wr F.QNC_CONN_STAT_state 2 n).wr F.QNC_CONN_STAT_ack_wait (if st = 1 ∧ auto then 0 else 1) n
  if auto ∧ 3 ≤ news then s.wr F.QNC_CONN_STAT_ack_wait 0 n else s

/-- An input connection without a new PDU within its watchdog time (R375). -/
def State.expireConn (s : State) (n : Nat) : State :=
  let x := s.qConn n
  let age := cellDiff s.cellNs x.at_
  if s.rd F.QNC_CONN_STAT_state n ≠ 2 ∨ age ≤ ((field (s.qConnEntry n) 12 2 * 10000 : Nat) : Int) then s
  else (s.failConn n 1).raise 100 1 n (detail [(4, age.toNat / 1000 % 2 ^ 32)])

/-- The latest PDU deposited for an input connection (R374). -/
def State.examineConn (s : State) (n : Nat) : State :=
  let e := s.qConnEntry n
  let len := byteAt e 6
  let a := 8192 * byteAt e 2 + field e 4 2
  let x := s.qConn n
  match s.depositTime a with
  | none => s
  | some t =>
    if x.taken = some t then s
    else
      let s := s.setQConn n { x with taken := some t }
      let x := s.qConn n
      let p := readBytes s.combway.qin a (len + 10)
      if field p (len + 6) 4 ≠ crcQ 0xFFFFFFFF (e.drop 8 |>.take 4 |>.append (p.take (len + 6))) then
        let s := (s.bump F.QNC_ERR_crc_err).raise 101 1 n
        let again := match x.crcAt with
          | some c => decide (cellDiff s.cellNs c ≤ 100000000000)
          | none => false
        let s := s.setQConn n { x with crcAt := some s.cellNs }
        if again then (s.failConn n 2).raise 101 2 n else s
      else if field p (len + 3) 2 ≠ field e 12 2 then s.failConn n 4
      else
        let number := field p len 3
        let d := (number + 2 ^ 24 - s.rd F.QNC_CONN_STAT_number n) % 2 ^ 24
        if s.rd F.QNC_CONN_STAT_state n = 1 ∨ (1 ≤ d ∧ d ≤ 255) then s.acceptPdu n t number (p.take len) (byteAt p (len + 5))
        else if d = 0 then s
        else s.failConn n 3

/-- A connection of the set at a safety tick: the PDU, then the watchdog. -/
def State.evalConn (s : State) (n : Nat) : State :=
  if byteAt (s.qConnEntry n) 0 ≠ 0 then s else (s.examineConn n).expireConn n

/-- The data of an input connection as Quench uses them (R375). -/
def State.connData (s : State) (n : Nat) : List Byte :=
  let x := s.qConn n
  if s.rd F.QNC_CONN_STAT_state n = 2 ∧ !s.on F.QNC_CONN_STAT_ack_wait n ∧ !x.fs then x.data
  else List.replicate x.data.length 0

/-- Every connection returns to WAIT; connections that the set does not have are unused (R378). -/
def State.resetConns (s : State) : State :=
  let s := { s with quench := { s.quench with conn := [] } }
  (List.range 128).foldl (fun s n =>
    s.setWord (F.QNC_CONN_STAT_state.addr n 0) (if n < s.qConns then 1 else 0)) s

/-- CONNECTION_WATCHDOG_EXPIRY (R375): time passes beyond the watchdog, and the next tick finds it. -/
def execConnectionWatchdogExpiry (n : Fin 128) (s : State) : Host.Outcome State Fault Refusal :=
  if s.rd F.QNC_CONN_STAT_state n ≠ 2 ∨ byteAt (s.qConnEntry n) 0 ≠ 0 then .next s
  else
    let wd := field (s.qConnEntry n) 12 2 * 10000
    .next ((s.advanceCell (uns 64 ((s.qConn n).at_ + wd + 1 : Nat))).expireConn n)

/-! ## Signals and outputs (R369, R370) -/

/-- Torque is permitted on a chain: it has not passed to STO. -/
def State.torqueOn (s : State) (c : Nat) : Bool :=
  (s.behaviour == 2 || s.behaviour == 3) && s.rd F.QNC_CHAIN_STAT_state c != 3
    && Sps.used (Sps.chain s.quench.set c)

/-- The value of a signal (R369). -/
def State.signalOn (s : State) (v : Nat) : Bool :=
  match v / 4096 with
  | 0 => s.pairOn (v % 16)
  | 1 => bitAt (field (s.connData (v / 32 % 128)) 0 4) (v % 32)
  | 2 => s.torqueOn (v % 16)
  | 3 => true
  | _ => false

/-- A safe-output fault turns both switches off (R370). -/
def State.outputFault (s : State) (k code sw : Nat) : State :=
  ((s.wrBit F.QNC_OUT_STAT_fault k true).wrBit F.QNC_OUT_STAT_on k false).raise 97 code k (detail [(0, sw)])

/-- A safe output at a safety tick, with the readbacks of its switches (R369, R370). -/
def State.evalOutput (s : State) (pins : QuenchPins) (k : Nat) : State :=
  let e := Sps.out s.quench.set k
  if s.quench.set.isEmpty ∨ !Sps.used e then s
  else
    let on := bitAt (s.rd F.QNC_OUT_STAT_on) k
    let x := s.qOutput k
    let a := if pins.outputs.getLsbD (2 * k) == on then s.tick else x.agreeA
    let b := if pins.outputs.getLsbD (2 * k + 1) == on then s.tick else x.agreeB
    let s := s.setQOutput k { agreeA := a, agreeB := b }
    let fault := bitAt (s.rd F.QNC_OUT_STAT_fault) k
    let s := if fault then s
      else if ms 1 < s.tick - a then s.outputFault k 1 0
      else if ms 1 < s.tick - b then s.outputFault k 1 1
      else s
    let want := s.qDrives && (s.behaviour == 2 || s.behaviour == 3) && !bitAt (s.rd F.QNC_OUT_STAT_fault) k
      && s.signalOn (field e 4 2) && s.signalOn (field e 6 2)
    if want == bitAt (s.rd F.QNC_OUT_STAT_on) k && want == on then s
    else (s.wrBit F.QNC_OUT_STAT_on k want).setQOutput k { agreeA := s.tick, agreeB := s.tick }

end Sys2Proof.Machine
end

