-- ==== Sys2Proof/Machine/QuenchStop.lean ====
section
/-!
DEFINITION. Machine/QuenchStop.lean: positions and speed of a chain (R384 to R386), tracked objects (R387 to R389), limits
and allowances (R390 to R393), stops (R394 to R399), brakes (R401, R402), and the fixed rules of KINDLE (R456).
-/

namespace Sys2Proof.Machine

/-! ## Positions (R384) -/

/-- A sample of a placement source: the position in 2⁻³² units, and its sample instant; none while it is missing. -/
def State.placedSample (s : State) (g off : Nat) : Option (Int × Nat) :=
  match (Sched.rx (s.sched g)).find? fun p => decide (p.kind = 2 ∧ p.arg ≤ off ∧ off + 8 ≤ p.arg + p.len) with
  | none => none
  | some p =>
    let w := field (readBytes s.combway.qin (8192 * g + p.arg - 4) 4) 0 4
    if !bitAt p.b3 0 || !bitAt w 16 then none
    else
      let back := (s.tim.cycle + 65536 - w % 65536) % 65536
      some (fieldS (readBytes s.combway.qin (8192 * g + off) 8) 0 8,
        uns 64 ((s.tim.lastInstant : Int) - (back * s.tim.cycleNs : Nat)))

/-- A sample of a Tongs source; none while it is missing. -/
def State.tongsSample (s : State) (c : Nat) : Option Int :=
  let r := lookup (fun _ => []) s.quench.tongs c
  if bitAt (byteAt r 12) 0 then some (fieldS r 0 8) else none

/-- The sources of an axis record at a tick: the new record, its sample instant, and whether a source is missing. -/
def State.readAxis (s : State) (e : List Byte) (x : QAxis) : QAxis × Option Nat × Bool :=
  let a := s.placedSample (byteAt e 2 % 8) (field e 4 2)
  let b := if bitAt (byteAt e 3) 7 then s.tongsSample (byteAt e 3 % 32)
    else (s.placedSample (byteAt e 3 % 8) (field e 6 2)).map (·.1)
  ({ a := match a with | some v => v.1 * fieldS e 8 4 | none => x.a
     b := match b with | some v => v * fieldS e 12 4 | none => x.b
     missA := if a.isSome then 0 else x.missA + 1
     missB := if b.isSome then 0 else x.missB + 1 }, a.map (·.2), a.isNone || b.isNone)

/-- A position fault of an axis (R384); the tolerance has 24 fractional bits. -/
def axisFault (e : List Byte) (x : QAxis) : Bool :=
  decide (field e 16 4 * 2 ^ 32 < (x.a - x.b).natAbs) || decide (byteAt e 20 < x.missA ∨ byteAt e 20 < x.missB)

def QChain.axis (x : QChain) (j : Nat) : QAxis := lookup (fun _ => {}) x.axes j

/-! ## Kinematics (R385, R386) -/

/-- The frames F_0 to F_n of a chain entry at a set of joint positions (by axis record). -/
def frames (e : List Byte) (pos : List Int) : List Geo.Pose :=
  let base := Geo.poseOf e 56 68
  ((List.range (Sps.axes e)).foldl (fun (p : Geo.Pose × List Geo.Pose) j =>
    let r := Sps.axis e j
    if byteAt r 1 = 2 then p
    else
      let f := (p.1.then (Geo.poseOf r 24 36)).then (Geo.joint (byteAt r 1 == 1) (pos.getD j 0))
      (f, p.2 ++ [f])) (base, [base])).2

/-- The end points of capsule `i`. -/
def capsuleEnds (e : List Byte) (fs : List Geo.Pose) (i : Nat) : Geo.V3 × Geo.V3 :=
  let c := Sps.capsule e i
  let f := fs.getD (byteAt c 0) (Geo.poseOf e 56 68)
  (f.at (Geo.coord c 4), f.at (Geo.coord c 16))

def capsuleList (e : List Byte) (pos : List Int) : List (Geo.V3 × Geo.V3) :=
  let fs := frames e pos
  (List.range (Sps.capsules e)).map (capsuleEnds e fs)

/-- The square of the largest displacement of an end point between two sets of joint positions, in units of 2⁻¹⁹² mm². -/
def displacement2 (e : List Byte) (p q : List Int) : Nat :=
  ((capsuleList e p).zip (capsuleList e q)).foldl (fun m c =>
    let d := fun (a b : Geo.V3) => ((a.sub b).dot (a.sub b)).toNat
    max m (max (d c.1.1 c.2.1) (d c.1.2 c.2.2))) 0

/-- A displacement over a time in ns as a speed in 1/4,096 mm/s, rounded towards zero (log entry 36). -/
def speedOf (d2 dt : Nat) : Nat := isqrt (d2 * (4096 * 1000000000) ^ 2 / (2 ^ 192 * dt ^ 2))

/-- Positions, position fault and speed of chain `c` at a tick. -/
def State.readChain (s : State) (c : Nat) : State × Bool :=
  let e := Sps.chain s.quench.set c
  let x := s.qChain c
  let r := (List.range (Sps.axes e)).map fun j => (j, s.readAxis (Sps.axis e j) (x.axis j))
  let axes := r.foldl (fun l p => store (fun _ => {}) l p.1 p.2.1) x.axes
  let missing := r.any fun p => p.2.2.2
  let fault := r.any fun p => axisFault (Sps.axis e p.1) p.2.1
  let pos := r.map fun p => p.2.1.a
  let at_ := (r.head?.bind fun p => p.2.2.1)
  let x := { x with axes := axes }
  match at_ with
  | none => (s.setQChain c x, fault)
  | some t =>
    if missing || x.posAt == some t then (s.setQChain c x, fault)
    else
      let v := match x.posAt with
        | some t0 => speedOf (displacement2 e x.pos pos) (max 1 (cellDiff t t0).toNat)
        | none => x.v
      (s.setQChain c { x with pos := pos, posAt := some t, v := v }, fault)

/-! ## Objects (R387 to R389) -/

/-- An object: its sensor's chain mask, its points, speed in 1/4,096 mm/s, radius and C + u in 1/4,096 mm. -/
structure Tracked where
  mask : Nat
  a : Geo.V3
  b : Geo.V3
  speed : Nat
  radius : Nat
  extra : Int
  deriving DecidableEq, Repr

/-- The records of a sensor's PDU. -/
def State.records (s : State) (i : Nat) : List (List Byte) :=
  let n := byteAt (Sps.sensor s.quench.set i) 0
  let d := s.connData n
  (List.range (Sps.objectsOf s.quench.set i)).map fun k => (d.drop (32 * k)).take 32

/-- Why a sensor is lost: 1 its connection is not in RUN, 2 DEGRADED. -/
def State.sensorLost (s : State) (i : Nat) : Nat :=
  let n := byteAt (Sps.sensor s.quench.set i) 0
  if s.rd F.QNC_CONN_STAT_state n ≠ 2 then 1
  else if (s.records i).any fun r => bitAt (byteAt r 1) 7 then 2
  else 0

/-- The objects that the sensors report. -/
def State.objects (s : State) : List Tracked :=
  (List.range (Sps.sensors s.quench.set)).flatMap fun i =>
    let e := Sps.sensor s.quench.set i
    ((s.records i).filter fun r => byteAt r 1 % 4 == 1 || byteAt r 1 % 4 == 2).map fun r =>
      let a := Geo.coord r 4
      { mask := field e 2 2
        a := a
        b := if byteAt r 1 % 4 = 1 then a else Geo.coord r 16
        speed := max (field e 8 4) (field r 2 2 * 4096)
        radius := field r 28 2 * 256
        extra := fieldS e 4 4 + (field r 30 2 * 256 : Nat) }

/-- Sensors that have just been lost raise source 102; QNC_SPACE follows. -/
def State.evalSensors (s : State) (pins : QuenchPins) : State :=
  let l := (List.range (Sps.sensors s.quench.set)).map fun i => (byteAt (Sps.sensor s.quench.set i) 0, s.sensorLost i)
  let old := s.quench.lost
  let s := l.foldl (fun s p => if p.2 ≠ 0 ∧ !old.contains p.1 then s.raise 102 p.2 p.1 else s) s
  let now := (l.filter fun p => p.2 != 0).map (·.1)
  let s := { s with quench := { s.quench with lost := now } }
  let s := s.wr F.QNC_SPACE_sensors (l.length - now.length)
  (s.wr F.QNC_SPACE_objects s.objects.length).wr F.QNC_SPACE_eval_us pins.evalUs.toNat

/-! ## Limits (R390 to R392) -/

/-- A distance of a capsule to an object, with the object. -/
structure Gap where
  d : Int
  cap : Nat
  obj : Nat
  speed : Nat
  extra : Int
  deriving DecidableEq, Repr

/-- The distances of every capsule of a chain to every object that acts on it. -/
def State.gaps (s : State) (c : Nat) (objs : List Tracked) : List Gap :=
  let e := Sps.chain s.quench.set c
  let caps := capsuleList e (s.qChain c).pos
  ((List.range caps.length).zip caps).flatMap fun k =>
    (((List.range objs.length).zip objs).filter fun o => o.2.mask.testBit c).map fun o =>
      let r := field (Sps.capsule e k.1) 28 4
      { d := Geo.distLess (Geo.segSeg k.2.1 k.2.2 o.2.a o.2.b) ((r + o.2.radius : Nat) : Int)
        cap := k.1, obj := o.1, speed := o.2.speed, extra := o.2.extra }

/-- The brakes of a chain. -/
def State.chainBrakes (s : State) (c : Nat) : List Nat :=
  (List.range 16).filter fun b => let e := Sps.brake s.quench.set b; Sps.used e && byteAt e 2 == c

/-- SLS is active (R392). -/
def State.slsActive (s : State) (c : Nat) : Bool :=
  s.behaviour == 2 || (s.behaviour == 3 && !s.signalOn (field (Sps.chain s.quench.set c) 10 2))

/-- A brake of the chain carries a failed test (R405). -/
def State.isDegraded (s : State) (c : Nat) : Bool := (s.chainBrakes c).any fun b => s.on F.QNC_BRK_STAT_test_fail b

/-- A brake of the chain has been released for less than its release time (R401). -/
def State.brakesReleasing (s : State) (c : Nat) : Bool :=
  (s.chainBrakes c).any fun b =>
    s.rd F.QNC_BRK_STAT_state b == 2
      && decide (s.tick - (s.qBrake b).since < ms (field (Sps.brake s.quench.set b) 12 2))

/-- L_c and A_c without stops and brakes (R391, R392). -/
def State.limits (s : State) (c : Nat) (gs : List Gap) : Nat × Nat :=
  let e := Sps.chain s.quench.set c
  let tr := field (Sps.spacing s.quench.set) 0 4
  let ts := field e 28 4
  let zr := (field e 36 4 : Int)
  let vmax := field e 16 4
  let l := gs.map fun g => Geo.speedFor g.speed (field e 20 4) (tr + ts) (g.d - g.extra - zr)
  let a := gs.map fun g => Geo.speedFor g.speed (field e 24 4) (tr + ts + field e 32 4) (g.d - g.extra - zr)
  let low := a.foldl min vmax
  let low := if s.slsActive c then min low (field e 12 4) else low
  (l.min?.getD vmax, if s.isDegraded c then min low (field e 52 4) else low)

/-! ## Requests of Temper (R399) -/

/-- The SS1 and the STO request that concern a chain. -/
def State.requests (s : State) (e : List Byte) : Bool × Bool :=
  (List.range (Sps.axes e)).foldl (fun r j =>
    match s.axisHome (byteAt (Sps.axis e j) 0) with
    | some (n, k) =>
      (r.1 || (s.on F.TMP_AX_STAT_fe_fault n k && s.rd F.TMP_AX_CFG_fe_react n k == 1),
       r.2 || s.on F.TMP_STAT_trapped n || s.on F.TMP_STAT_stopped n)
    | none => r) (false, false)

/-! ## Stops (R394 to R398) -/

/-- The stop that a cause commands: 1 SS2, 2 SS1, 3 STO. -/
def stopOf (e : List Byte) (cause : Nat) : Nat :=
  match cause with
  | 1 => byteAt e 4
  | 2 => byteAt e 3
  | 3 => byteAt e 3
  | 4 => 2
  | 5 => 2
  | 6 => 2
  | 8 => 2
  | 13 => 2
  | _ => 3

/-- The drive connections of an axis: the data of its input, and both in RUN with a healthy drive. -/
def State.driveOk (s : State) (e : List Byte) : Bool :=
  let run := fun n => s.rd F.QNC_CONN_STAT_state n == 2
  run (byteAt e 21) && run (byteAt e 22) && bitAt (byteAt (s.connData (byteAt e 22)) 1) 0

/-- The drive reports the axis not in STO. -/
def State.driveLive (s : State) (e : List Byte) : Bool :=
  bitAt (byteAt (s.connData (byteAt e 22)) 0) (byteAt e 23 % 8)

/-- The conditions of R394 for chain `c`, but for the latched monitoring causes 10 and 11. -/
def State.condition (s : State) (c : Nat) (posFault : Bool) (cause : Nat) : Bool :=
  let e := Sps.chain s.quench.set c
  let x := s.qChain c
  match cause with
  | 1 => (List.range 16).any fun p => bitAt (field e 8 2) p && !s.pairOn p
  | 2 => decide (x.limit < x.v)
  | 3 => (List.range (Sps.sensors s.quench.set)).any fun i =>
      bitAt (field (Sps.sensor s.quench.set i) 2 2) c && s.sensorLost i != 0
  | 4 => (s.slsActive c && decide (field e 12 4 < x.v)) || (s.isDegraded c && decide (field e 52 4 < x.v))
  | 5 => s.behaviour == 2 && byteAt e 5 != 0xFF && !s.pairOn (byteAt e 5)
  | 6 => posFault
  | 7 => (List.range (Sps.axes e)).any fun j => !s.driveOk (Sps.axis e j)
  | 8 => (s.requests e).1
  | 9 => (s.requests e).2
  | 12 => (s.chainBrakes c).any fun b => s.on F.QNC_BRK_STAT_fault b
  | 13 => s.mode == 5
  | 14 => s.behaviour != 2 && s.behaviour != 3
  | _ => false

/-- Whether a cause goes with its condition (R394). -/
def withdrawn (cause : Nat) : Bool := cause == 5 || cause == 8 || cause == 9 || cause == 13 || cause == 14

/-- The causes in force after a tick: new conditions, latched causes, a reset, and automatic restarts. -/
def State.causesNow (s : State) (c : Nat) (posFault reset : Bool) (extra : List Nat) : List Nat :=
  let e := Sps.chain s.quench.set c
  let x := s.qChain c
  let auto := bitAt (byteAt e 6) 0
  let cleared := match x.clear with
    | some t => decide (ms (field e 50 2) ≤ s.tick - t)
    | none => false
  (List.range 15).filter fun k =>
    let cond := s.condition c posFault k || extra.contains k
    k != 0 && (cond || (x.causes.contains k && !withdrawn k &&
      !reset && !((k == 2 || k == 3) && auto && cleared)))

/-- The SS1 or SS2 envelope of R397 in 1/4,096 mm/s, at the present tick. -/
def State.envelope (s : State) (c : Nat) : Int :=
  let e := Sps.chain s.quench.set c
  let x := s.qChain c
  let ns : Int := ((s.tick - x.t0) * 5 / 2 : Nat) - (field e 28 4 * 1000 : Nat)
  max ((x.v0 : Int) - tdiv ((field e 20 4 : Int) * ns) 1000000000) 0 + field e 40 4

/-- Monitoring of a stop in progress: the causes it adds (R397, R398). -/
def State.monitor (s : State) (c : Nat) : List Nat :=
  let e := Sps.chain s.quench.set c
  let x := s.qChain c
  let st := s.rd F.QNC_CHAIN_STAT_state c
  let stop := s.rd F.QNC_CHAIN_STAT_stop c
  if stop = 0 then []
  else if st = 1 ∧ x.t0 < s.tick then
    (if s.envelope c < (x.v : Int) ∨ (stop = 2 ∧ ms (field e 48 2) < s.tick - x.t0) then [10] else [])
  else if st = 2 then
    (if field e 44 4 ^ 2 * 2 ^ 168 < displacement2 e x.sos x.pos then [11] else [])
  else []

/-- Source 93 (R409). -/
def State.stopEvent (s : State) (c code stop cause : Nat) : State := s.raise 93 code c (detail [(0, stop), (1, cause)])

/-- The stop of a chain follows its causes (R395 to R398): once the last has cleared, the next tick permits torque again. -/
def State.applyStop (s : State) (c : Nat) : State :=
  let e := Sps.chain s.quench.set c
  let x := s.qChain c
  let stop := x.causes.foldl (fun m k => max m (stopOf e k)) 0
  let cause := (x.causes.find? fun k => stopOf e k == stop).getD 0
  let old := s.rd F.QNC_CHAIN_STAT_stop c
  let st := s.rd F.QNC_CHAIN_STAT_state c
  let setAll := fun (s : State) (a b k : Nat) =>
    ((s.wr F.QNC_CHAIN_STAT_stop a c).wr F.QNC_CHAIN_STAT_state b c).wr F.QNC_CHAIN_STAT_cause k c
  if stop = 0 then
    if x.stoHold then s
    else if old = 0 then (if st = 0 then s else s.wr F.QNC_CHAIN_STAT_state 0 c)
    else
      let s := s.setQChain c { x with still := 0, stoTicks := 0, sos := [] }
      (setAll s 0 st 0).stopEvent c 3 old 0
  else if old < stop then
    let s := if stop = 3 ∨ st = 3 then setAll s stop 3 cause
      else (setAll s stop 1 cause).setQChain c { x with t0 := s.tick, v0 := x.v, still := 0 }
    s.stopEvent c (if old = 0 then 1 else 2) stop cause
  else if st = 1 then
    let still := if x.v ≤ field e 40 4 then x.still + 1 else 0
    let s := s.setQChain c { x with still := still }
    if still < 2 then s
    else if old = 2 then s.wr F.QNC_CHAIN_STAT_state 3 c
    else (s.wr F.QNC_CHAIN_STAT_state 2 c).setQChain c { x with still := still, sos := x.pos }
  else s

/-- A drive that still reports not in STO 8 ticks after STO was sent: source 93 code 4 (R396). -/
def State.stoCheck (s : State) (c : Nat) : State :=
  let e := Sps.chain s.quench.set c
  let x := s.qChain c
  let live := (List.range (Sps.axes e)).any fun j => s.driveLive (Sps.axis e j)
  if s.rd F.QNC_CHAIN_STAT_state c ≠ 3 ∨ x.stoTicks < 8 ∨ x.stoHold ∨ !live then s
  else (s.setQChain c { x with stoHold := true }).stopEvent c 4 (s.rd F.QNC_CHAIN_STAT_stop c) (s.rd F.QNC_CHAIN_STAT_cause c)

/-- STO_FEEDBACK_TIMEOUT (R396): the check that every safety tick makes of the chain. -/
def execStoFeedbackTimeout (c : Fin 16) (s : State) : Host.Outcome State Fault Refusal := .next (s.stoCheck c)

/-- The allowance of a chain, its event 94 and its register (R392, R408, R409). -/
def State.setAllowance (s : State) (c : Nat) : State :=
  let e := Sps.chain s.quench.set c
  let x := s.qChain c
  let vmax := field e 16 4
  let a := if s.rd F.QNC_CHAIN_STAT_stop c ≠ 0 ∨ s.brakesReleasing c then 0 else x.free
  let s := s.setQChain c { x with allow := a }
  let s := s.wr F.QNC_CHAIN_STAT_allow (min 65535 (a / 4096)) c
  let s := (s.put F.QNC_CHAIN_STAT_sls (s.slsActive c) c).put F.QNC_CHAIN_STAT_degraded (s.isDegraded c) c
  let pending := bitAt (byteAt e 6) 0 && (x.causes.contains 2 || x.causes.contains 3)
  let s := s.put F.QNC_CHAIN_STAT_restart pending c
  if a < vmax ∧ vmax ≤ x.allow then s.raise 94 1 c (detail [(4, a)])
  else if vmax ≤ a ∧ x.allow < vmax then s.raise 94 2 c (detail [(4, a)])
  else s

/-- A chain at a safety tick (step 6 of R368). -/
def State.evalChain (s : State) (reset : Bool) (objs : List Tracked) (c : Nat) : State :=
  let e := Sps.chain s.quench.set c
  if !Sps.used e then s
  else
    let (s, posFault) := s.readChain c
    let gs := s.gaps c objs
    let (l, a) := s.limits c gs
    let x := s.qChain c
    let least := gs.foldl (fun (m : Option (Int × Nat × Nat)) g => match m with
      | some v => if g.d < v.1 then some (g.d, g.cap, g.obj) else some v
      | none => some (g.d, g.cap, g.obj)) none
    let slow := if x.v ≤ field e 40 4 then x.slow.or (some s.tick) else none
    let lost := s.condition c posFault 3
    let clear := if 0 < a ∧ !lost then x.clear.or (some s.tick) else none
    let s := s.setQChain c { x with
      limit := l, free := a, least := least, slow := slow, clear := clear
      stoTicks := if s.rd F.QNC_CHAIN_STAT_state c = 3 then x.stoTicks + 1 else 0
      stoHold := x.stoHold && !reset }
    let causes := s.causesNow c posFault reset (s.monitor c)
    ((s.setQChain c { s.qChain c with causes := causes }).applyStop c).stoCheck c

/-- SOURCE_MISSING_LIMIT (R384, R394): a source of an axis of the chain has been missing beyond its limit. -/
def execSourceMissingLimit (c : Fin 16) (j : Fin 16) (s : State) : Host.Outcome State Fault Refusal :=
  let e := Sps.chain s.quench.set c
  let x := s.qChain c
  let r := Sps.axis e j
  if s.quench.set.isEmpty ∨ !Sps.used e ∨ Sps.axes e ≤ j.val ∨ x.causes.contains 6
      ∨ !(decide (byteAt r 20 < (x.axis j).missA ∨ byteAt r 20 < (x.axis j).missB)) then .next s
  else .next ((s.setQChain c { x with causes := x.causes ++ [6] }).applyStop c)

/-- SS1_LIMIT_TIME_EXPIRY (R397): cause 10, and STO. -/
def execSs1LimitTimeExpiry (c : Fin 16) (s : State) : Host.Outcome State Fault Refusal :=
  let e := Sps.chain s.quench.set c
  let x := s.qChain c
  if s.quench.set.isEmpty ∨ s.rd F.QNC_CHAIN_STAT_state c ≠ 1 ∨ s.rd F.QNC_CHAIN_STAT_stop c ≠ 2 ∨ x.causes.contains 10 then .next s
  else
    let s := s.advanceTo (x.t0 + ms (field e 48 2) + 1)
    .next ((s.setQChain c { x with causes := x.causes ++ [10] }).applyStop c)

/-- RESTART_DELAY_EXPIRY (R394): an automatic restart clears causes 2 and 3. -/
def execRestartDelayExpiry (c : Fin 16) (s : State) : Host.Outcome State Fault Refusal :=
  let e := Sps.chain s.quench.set c
  let x := s.qChain c
  match x.clear with
  | none => .next s
  | some t =>
    if s.quench.set.isEmpty ∨ !bitAt (byteAt e 6) 0 ∨ !(x.causes.contains 2 || x.causes.contains 3) then .next s
    else
      let s := s.advanceTo (t + ms (field e 50 2))
      let keep := fun k => (k != 2 && k != 3) || s.condition c false k
      .next (((s.setQChain c { x with causes := x.causes.filter keep }).applyStop c).setAllowance c)

/-! ## Brakes (R401, R402) -/

/-- The axis record that a brake entry names. -/
def brakeAxis (set : List Byte) (b : Nat) : Option (Nat × List Byte) :=
  let e := Sps.brake set b
  let c := Sps.chain set (byteAt e 2)
  ((List.range (Sps.axes c)).find? fun j => byteAt (Sps.axis c j) 0 == byteAt e 1).map fun j => (j, Sps.axis c j)

/-- A brake channel takes a state; a change starts its times again. -/
def State.setBrake (s : State) (b st : Nat) : State :=
  if s.rd F.QNC_BRK_STAT_state b = st then s
  else
    let x := s.qBrake b
    (s.setQBrake b { x with since := s.tick, sw := { agreeA := s.tick, agreeB := s.tick } }).wr F.QNC_BRK_STAT_state st b

/-- A brake fault (R402). -/
def State.brakeFault (s : State) (b code : Nat) : State :=
  if s.on F.QNC_BRK_STAT_fault b then s
  else ((s.wr F.QNC_BRK_STAT_fault 1 b).setBrake b 1).raise 98 code b

/-- The coil current of a brake lies within a window: the latest result of its ADC input, not older than 2 ticks. -/
def State.coilWithin (s : State) (input lo hi : Nat) : Bool :=
  let age := sgn 32 (uns 32 ((s.cellNs : Int) - s.rd F.ADC_LAST_HI_time input))
  let code := s.rd F.ADC_LAST_LO_code input
  s.on F.ADC_LAST_LO_valid input && decide (age ≤ 500000 ∧ lo ≤ code ∧ code ≤ hi)

/-- The current check of R402 fails. -/
def State.coilBad (s : State) (b : Nat) : Bool :=
  let e := Sps.brake s.quench.set b
  let t := s.tick - (s.qBrake b).since
  let input := byteAt e 3
  if input = 0xFF ∨ s.rd F.QNC_BRK_STAT_state b = 3 then false
  else if s.rd F.QNC_BRK_STAT_state b = 2 then decide (ms (field e 12 2) ≤ t) && !s.coilWithin input (field e 4 2) (field e 6 2)
  else decide (ms (field e 10 2) ≤ t) && !s.coilWithin input 0 (field e 8 2)

/-- A brake channel at a safety tick. -/
def State.evalBrake (s : State) (pins : QuenchPins) (b : Nat) : State :=
  let e := Sps.brake s.quench.set b
  if !Sps.used e then s
  else
    let c := byteAt e 2
    let st := s.rd F.QNC_BRK_STAT_state b
    let x := s.qBrake b
    let on := st == 2
    let a := if pins.brakes.getLsbD (2 * b) == on then s.tick else x.sw.agreeA
    let l := if pins.brakes.getLsbD (2 * b + 1) == on then s.tick else x.sw.agreeB
    let s := s.setQBrake b { x with sw := { agreeA := a, agreeB := l } }
    let s := s.wr F.QNC_BRK_STAT_hours (min 65535 ((s.tick - x.passed) / sec 3600)) b
    let s := if on && (decide (ms 1 < s.tick - a) || decide (ms 1 < s.tick - l)) then s.brakeFault b 1
      else if s.coilBad b then s.brakeFault b 2 else s
    let live := match brakeAxis s.quench.set b with
      | some (_, r) => s.driveLive r
      | none => false
    if s.rd F.QNC_BRK_STAT_state b = 3 then s
    else if s.rd F.QNC_CHAIN_STAT_state c = 3 ∨ !s.qDrives ∨ s.on F.QNC_BRK_STAT_fault b then s.setBrake b 1
    else if s.torqueOn c && live then s.setBrake b 2
    else if s.rd F.QNC_BRK_STAT_state b = 0 then s.setBrake b 1
    else s

/-! ## The output PDUs (R371, R373, R376) -/

/-- The data of an output connection: the torque bits of its axes. -/
def State.outData (s : State) (n : Nat) : List Byte :=
  let e := s.qConnEntry n
  let len := byteAt e 6
  if s.mode = 1 then toBytes 2 (if n < 8 then 0 else b2n (bitAt (s.rd F.GLB_KDL_STAT_torque) (n - 8)))
  else if byteAt e 1 ≠ 1 then List.replicate len 0
  else
    let bits := (List.range 16).foldl (fun m c =>
      let ch := Sps.chain s.quench.set c
      if !s.torqueOn c then m
      else (List.range (Sps.axes ch)).foldl (fun m j =>
        let r := Sps.axis ch j
        if byteAt r 21 = n then m ||| 2 ^ (byteAt r 23 % 8) else m) m) 0
    toBytes 1 bits ++ List.replicate (len - 1) 0

/-- An output PDU reaches its transmit placements (R304). -/
def State.sendPdu (s : State) (e p : List Byte) : State :=
  let g := byteAt e 2 % 8
  (Sched.txIdx (s.sched g)).foldl (fun s ip =>
    if ip.2.kind = 2 ∧ ip.2.arg = field e 4 2 then s.fillPlace g ip.1 ip.2 p else s) s

/-- An output connection at a safety tick (R373, R375); in SAFE its PDU is all zero (R363). -/
def State.evalOut (s : State) (n : Nat) : State :=
  let e := s.qConnEntry n
  if byteAt e 0 ≠ 1 then s
  else if s.behaviour = 4 then s.sendPdu e (List.replicate (byteAt e 6 + 10) 0)
  else if !s.qDrives then s
  else
    let auto := bitAt (byteAt e 7) 0
    let x := s.qConn n
    let old := s.rd F.QNC_CONN_STAT_number n
    let number := if old = 0xFFFFFF then 1 else old + 1
    let news := min 3 (x.news + 1)
    let s := s.setQConn n { x with news := news }
    let s := if s.rd F.QNC_CONN_STAT_state n = 2 then s
      else (s.wr F.QNC_CONN_STAT_state 2 n).wr F.QNC_CONN_STAT_ack_wait (b2n (!auto)) n
    let s := s.wr F.QNC_CONN_STAT_number number n
    let s := if auto && news == 3 then s.wr F.QNC_CONN_STAT_ack_wait 0 n else s
    let wait := s.on F.QNC_CONN_STAT_ack_wait n
    let data := if wait then List.replicate (byteAt e 6) 0 else s.outData n
    s.sendPdu e (pduOf (field e 8 4) data number (field e 12 2) (b2n wait + 2 * b2n wait))

/-! ## The allowance table (R393) -/

/-- The entry of a chain. -/
def State.tableEntry (s : State) (c : Nat) : List Byte :=
  let x := s.qChain c
  let cap := fun (n : Nat) => toBytes 4 (min (2 ^ 31 - 1) n)
  let (d, k, o) := match x.least with
    | some v => v
    | none => (0, 0xFF, 0xFF)
  cap x.allow ++ cap x.limit ++ cap x.v
    ++ toBytes 1 (s.rd F.QNC_CHAIN_STAT_stop c) ++ toBytes 1 (s.rd F.QNC_CHAIN_STAT_state c)
    ++ toBytes 1 (s.rd F.QNC_CHAIN_STAT_cause c)
    ++ toBytes 1 (s.rd F.QNC_CHAIN_STAT_sls c + 2 * s.rd F.QNC_CHAIN_STAT_degraded c + 4 * s.rd F.QNC_CHAIN_STAT_restart c)
    ++ toBytes 4 (i32 d) ++ toBytes 1 k ++ toBytes 1 o ++ List.replicate 10 0

/-- Quench fills the other copy and switches the header in one write (R393). -/
def State.publish (s : State) : State :=
  let t := (List.range 16).flatMap s.tableEntry
  let copy := 1 - s.quench.header / 2 ^ 32 % 2
  let q := s.quench
  let q := if copy = 1 then { q with table1 := t } else { q with table0 := t }
  { s with quench := { q with header := s.rd F.QNC_TICK_count + copy * 2 ^ 32 } }

/-! ## KINDLE (R456) -/

def State.qKindle (s : State) (a : Nat) : QKindle := lookup (fun _ => {}) s.quench.kindle a
def State.setQKindle (s : State) (a : Nat) (v : QKindle) : State :=
  { s with quench := { s.quench with kindle := store (fun _ => {}) s.quench.kindle a v } }

/-- A KINDLE axis at a safety tick: speed fault, torque and brake. -/
def State.evalKindle (s : State) (pins : QuenchPins) (a : Nat) : State :=
  let x := s.qKindle a
  let linear := bitAt (byteAt (readBytes s.combway.qin (32 * a + 4) 16) 14) 1
  let (s, fast) := match s.placedSample 0 (32 * a + 4) with
    | none => (s, false)
    | some (p, t) =>
      if x.posAt = some t then (s, false)
      else
        let fast := match x.posAt with
          | some t0 =>
            let d := (p - x.pos).natAbs * 1000000000
            let bound := 250 * 2 ^ 32 * max 1 (cellDiff t t0).toNat
            if linear then decide (bound < d) else decide (bound * 2 ^ 112 < d * 1000 * Geo.twoPi.toNat)
          | none => false
        (s.setQKindle a { x with pos := p, posAt := some t }, fast)
  let pair := s.pairOn 0
  let fault := (bitAt (s.rd F.GLB_KDL_STAT_speed_fault) a && pair) || (fast && pair)
  let s := s.wrBit F.GLB_KDL_STAT_speed_fault a fault
  let run := fun n => s.rd F.QNC_CONN_STAT_state n == 2
  let torque := pair && run a && run (8 + a) && bitAt (byteAt (s.connData a) 1) 0 && s.kdlCfg F.GLB_KDL_CFG_axis_en a != 0
    && !fault && s.behaviour == 1 && s.qDrives && !s.on F.QNC_BRK_STAT_fault a
  let s := s.wrBit F.GLB_KDL_STAT_torque a torque
  if s.kdlCfg F.GLB_KDL_CFG_brake a == 0 then s.wr F.QNC_BRK_STAT_state 0 a
  else
    let y := s.qBrake a
    let on := s.rd F.QNC_BRK_STAT_state a == 2
    let h := if pins.brakes.getLsbD (2 * a) == on then s.tick else y.sw.agreeA
    let l := if pins.brakes.getLsbD (2 * a + 1) == on then s.tick else y.sw.agreeB
    let s := s.setQBrake a { y with sw := { agreeA := h, agreeB := l } }
    let s := if on && (decide (ms 1 < s.tick - h) || decide (ms 1 < s.tick - l)) then s.brakeFault a 1 else s
    s.setBrake a (if torque && !s.on F.QNC_BRK_STAT_fault a then 2 else 1)

end Sys2Proof.Machine
end

