-- ==== Sys2Proof/Machine/Quench.lean ====
section
/-!
DEFINITION. Machine/Quench.lean: the safety tick (R360, R368), Quench's failures (R357 to R363), the parameter set (R378,
R379), and brake tests (R403 to R405).
-/

namespace Sys2Proof.Machine

/-! ## Failures (R357 to R363, R381) -/

/-- An internal failure puts Quench in SAFE and raises its source. -/
def State.quenchFail (s : State) (cause src code : Nat) (d : DWord := 0) : State :=
  (s.enterSafe cause).raise src code 0xFFFF d

/-- LOCKSTEP_MISMATCH (R358): within pair 0, within pair 1, or between the pairs. -/
def execLockstepMismatch (which : Fin 3) (s : State) : Host.Outcome State Fault Refusal :=
  .next (s.quenchFail (if which.val = 2 then 2 else 1) 104 (which.val + 1))

/-- QUENCH_WATCHDOG_EXPIRY (R357). -/
def execQuenchWatchdogExpiry (s : State) : Host.Outcome State Fault Refusal := .next (s.quenchFail 5 107 1)

/-- QUENCH_SRAM_ERROR (R357): an uncorrectable error. -/
def execQuenchSramError (s : State) : Host.Outcome State Fault Refusal := .next (s.quenchFail 6 107 4)

/-- QUENCH_SCRUB (R357): the scrub of the SRAM corrects and counts errors. -/
def execQuenchScrub (corrected : BitVec 16) (s : State) : Host.Outcome State Fault Refusal :=
  .next (s.bump F.QNC_ERR_ecc_corr 0 0 corrected.toNat)

/-- CODE_CHECK (R361): the CRC over Quench's code, once per second. -/
def execCodeCheck (ok : Bool) (s : State) : Host.Outcome State Fault Refusal :=
  .next (if ok then s else s.quenchFail 8 107 3)

/-- Quench takes the stored set at its start (R379, R453): not its KINDLE image. -/
def State.startSet (s : State) : State :=
  let b := s.quench.stored
  if b.isEmpty ∨ s.upd.kindle ≠ 0 then s
  else
    let s := ({ s with quench := { s.quench with set := b } }).resetConns
    let s := (s.wr F.QNC_STAT_set_present 1).put F.QNC_STAT_confirmed (s.quench.record == some (setCrc b))
    (s.wr F.QNC_SPS_CRC_crc (setCrc b)).wr F.QNC_SPS_VER_version (field b 8 4)

/-- SELF_TEST_COMPLETE (R362): the self-tests end; a failed one is named. -/
def execSelfTestComplete (failed : Option (BitVec 8)) (s : State) : Host.Outcome State Fault Refusal :=
  match failed with
  | some t => .next (s.quenchFail 7 107 2 (detail [(0, t.toNat)]))
  | none =>
    if s.quench.tested ∨ s.quench.held then .next s
    else
      let s := { s with quench := { s.quench with tested := true } }.startSet
      .next (s.setBehaviour s.dueBehaviour)

/-- A Quench rail leaves its range: Quench goes to SAFE and is held in reset (R357, R498). -/
def State.quenchRailFault (s : State) : State :=
  if s.quench.railOut then s else
  let s := s.quenchFail 3 105 1
  { s with quench := { s.quench with held := true, railOut := true } }

/-- Both rails are back: Quench leaves reset in SAFE, or in START where a device reset has come between (R363, R498). -/
def State.quenchRailReturn (s : State) : State :=
  if !s.quench.railOut then s
  else
    let run := s.behaviour == 4 || decide (4 ≤ s.upd.boot)
    { s with quench := { s.quench with railOut := false, held := !run, tickAt := s.tick, sampleAt := s.tick } }

/-- QUENCH_RAIL_FAULT (R357, R498). -/
def execQuenchRailFault (s : State) : Host.Outcome State Fault Refusal := .next s.quenchRailFault

/-- QUENCH_RAIL_RETURN (R363): Quench runs again, in SAFE. -/
def execQuenchRailReturn (s : State) : Host.Outcome State Fault Refusal := .next s.quenchRailReturn

/-! ## The parameter set (R378, R379) -/

/-- A loaded set takes effect at a tick. -/
def State.takeSet (s : State) : State :=
  match s.quench.nextSet with
  | none => s
  | some b =>
    let q := s.quench
    let s := { s with quench := { q with set := b, nextSet := none, typed := none, pair := [], output := [], chain := [], lost := [] } }
    let s := ((s.wr F.QNC_IN_VAL_value 0).wr F.QNC_IN_VAL_partial 0).wr F.QNC_OUT_STAT_on 0
    let s := (s.wr F.QNC_STAT_set_present 1).wr F.QNC_STAT_confirmed 0
    let s := (s.wr F.QNC_SPS_CRC_crc (setCrc b)).wr F.QNC_SPS_VER_version (field b 8 4)
    let s := (List.range 16).foldl (fun s c => s.setWord (F.QNC_CHAIN_STAT_stop.addr c 0) 0xEF) s
    let s := (List.range 16).foldl (fun s b => s.wr F.QNC_BRK_STAT_state 0 b) s
    s.resetConns.raise 106 1 0xFFFF (detail [(4, setCrc b)])

/-- The typed-back value is compared at a tick; the confirmation record follows within 500 ms (R379). -/
def State.compareTyped (s : State) : State :=
  match s.quench.typed with
  | none => s
  | some v =>
    let s := { s with quench := { s.quench with typed := none } }
    if v = s.rd F.QNC_SPS_CRC_crc then { s with upd := { s.upd with jobs := s.upd.jobs ++ [.confirm v] } }
    else s.raise 103 1 0xFFFF (detail [(4, v)])

/-- SPS_LOAD (R378): a set that passes its checks takes effect at the next tick, and the descriptor completes when flash
holds it. -/
def execSpsLoad (r : Fin 64) (io : HostIo) (s : State) : Host.Outcome State Fault Refusal :=
  .next (s.runDesc r 0x0401 fun s d => s.withBody d io fun s b =>
    if s.mode ≠ 2 ∨ !s.on F.QNC_STAT_sto_all then s.fail d.id 0x15
    else match Sps.check b (s.rd F.TIM_CYCLE_ns) with
      | some (code, idx) => s.fail d.id 0x12 0xFFFF code idx
      | none => { s with
        quench := { s.quench with nextSet := some b }
        upd := { s.upd with jobs := s.upd.jobs ++ [.sps d.id b] } })

/-- SPS_READ (R378): the current set in the host buffer, as far as it fits. -/
def execSpsRead (r : Fin 64) (io : HostIo) (s : State) : Host.Outcome State Fault Refusal :=
  .next (s.runDesc r 0x0402 fun s d => s.hostResult d io (d.op 32 8) (s.quench.set.take (d.op 40 4)))

/-- SPS_CONFIRM_WRITE (R379, R380). -/
def execSpsConfirmWrite (m : Master) (v : Word) (s : State) : Host.Outcome State Fault Refusal :=
  if !s.privileged m then .next (s.pvDropped m false true F.QNC_SPS_CONFIRM_value.off)
  else if !s.on F.QNC_STAT_set_present then .next (s.wrIgnored .qnc 0 F.QNC_SPS_CONFIRM_value.off)
  else
    let s := s.wr F.QNC_SPS_CONFIRM_value v.toNat
    .next { s with quench := { s.quench with typed := some v.toNat } }

/-! ## Off-tests (R370, R402) -/

/-- OUTPUT_OFF_TEST (R370): switch A or B of an output that is on, or of a released brake, is switched off for the test
width; `fell` says that its readback fell within it. -/
def execOutputOffTest (p : SwitchPair) (sw fell : Bool) (s : State) : Host.Outcome State Fault Refusal :=
  match p with
  | .output k => .next (if fell || !bitAt (s.rd F.QNC_OUT_STAT_on) k then s else s.outputFault k 2 (b2n sw))
  | .brake b => .next (if fell || s.rd F.QNC_BRK_STAT_state b != 2 then s else s.brakeFault b 3)

/-! ## Brake tests (R403, R404) -/

/-- T_test in drive counts: factor × holding torque / 256, rounded half up. -/
def testTorque (e : List Byte) : Nat := (field e 16 2 * field e 14 2 + 128) / 256

/-- The entry of the brake under test, and its axis record with its index. -/
def State.testAxis (s : State) (t : QTest) : Nat × List Byte := (brakeAxis s.quench.set t.brake).getD (0, [])

def State.setTest (s : State) (t : Option QTest) : State := { s with quench := { s.quench with test := t } }

/-- The engine's present u of an axis. -/
def State.axisU (s : State) (a : Nat) : Int :=
  match s.axisHome a with
  | some (n, j) => ((s.eng n).ax j).u
  | none => 0

/-- Test torque is asked of the axis's engine: a ramp over 50 ms. -/
def State.askTorque (s : State) (t : QTest) : State :=
  let e := Sps.brake s.quench.set t.brake
  let neg := t.dir == 1 || t.second
  let u : Int := if neg then -(testTorque e : Int) else testTorque e
  let q : QTorque := { axis := byteAt e 1, at_ := s.tick, start := s.axisU (byteAt e 1), target := u, back := false }
  ({ s with quench := { s.quench with torque := some q } }).setTest (some { t with phase := 1, at_ := s.tick, reached := none })

/-- The brake is released under R401 as soon as it can be. -/
def State.releaseBrake (s : State) (t : QTest) : State :=
  let e := Sps.brake s.quench.set t.brake
  let r := (s.testAxis t).2
  let s := s.setBrake t.brake 1
  let s := if s.torqueOn (byteAt e 2) && s.driveLive r && s.qDrives then s.setBrake t.brake 2 else s
  { s with quench := { s.quench with torque := none, test := some { t with phase := 4, at_ := s.tick } } }

/-- The engine ramps u back over 50 ms; without test torque the brake is released at once. -/
def State.rampBack (s : State) (t : QTest) : State :=
  match s.quench.torque with
  | none => s.releaseBrake t
  | some q =>
    let q := { q with at_ := s.tick, start := s.axisU q.axis, back := true }
    { s with quench := { s.quench with torque := some q, test := some { t with phase := 3, at_ := s.tick } } }

/-- The ramp back has ended: the negative half of direction 2, or the release. -/
def State.endRampBack (s : State) (t : QTest) : State :=
  if t.dir = 2 ∧ !t.second ∧ t.res = 0 ∧ !t.aborted then s.askTorque { t with second := true } else s.releaseBrake t

/-- An earlier result ends the test. -/
def State.endTest (s : State) (t : QTest) (res : Nat) : State := s.rampBack { t with res := res }

/-- The measured torque of the axis, if its record names it (R383). -/
def State.measuredTorque (s : State) (r : List Byte) : Option Nat :=
  let o := field r 52 2
  if o = 0xFFFF then none else some (fieldS (readBytes s.combway.qin (8192 * byteAt r 2 + o) 2) 0 2).natAbs

/-- The brake test at a safety tick: movement, torque, a stop, and the end of the ramp back. -/
def State.tickTest (s : State) : State :=
  match s.quench.test with
  | none => s
  | some t =>
    let e := Sps.brake s.quench.set t.brake
    let (j, r) := s.testAxis t
    let c := byteAt e 2
    if 4 ≤ t.phase then s
    else if t.phase = 3 then (if t.at_ + ms 50 ≤ s.tick then s.endRampBack t else s)
    else
      let d := (((s.qChain c).axis j).a - t.p0).natAbs
      let m := s.measuredTorque r
      let got := match m with
        | some v => decide (9 * testTorque e ≤ 10 * v)
        | none => false
      let reached := if t.phase ≠ 0 && got then t.reached.or (some s.tick) else t.reached
      let lowest := match m with
        | some v => if reached.isSome then some (min v (t.lowest.getD v)) else t.lowest
        | none => none
      let t := { t with most := max t.most d, reached := reached, lowest := lowest }
      let s := s.setTest (some t)
      if s.rd F.QNC_CHAIN_STAT_stop c ≠ 0 then s.endTest t 4
      else if field e 20 4 * 2 ^ 24 < d then s.endTest t 1
      else s

/-- BRAKE_TEST (R403). -/
def execBrakeTest (r : Fin 64) (s : State) : Host.Outcome State Fault Refusal :=
  .next (s.runDesc r 0x0403 fun s d =>
    let b := d.op 32 1
    let dir := d.op 33 1
    let e := Sps.brake s.quench.set b
    let c := byteAt e 2
    let x := s.qChain c
    let st := (s.chain c).state
    let quiet := match x.slow with
      | some t => decide (ms 100 ≤ s.tick - t)
      | none => false
    if 16 ≤ b ∨ s.quench.set.isEmpty ∨ !Sps.used e then s.fail d.id 0x12 32
    else if 2 < dir then s.fail d.id 0x12 33
    else if (s.mode ≠ 2 ∧ s.mode ≠ 3) ∨ (s.behaviour ≠ 2 ∧ s.behaviour ≠ 3) ∨ (st ≠ 0 ∧ st ≠ 4)
        ∨ s.rd F.QNC_CHAIN_STAT_stop c ≠ 0 ∨ !quiet ∨ s.quench.test.isSome then s.fail d.id 0x15
    else
      let j := ((brakeAxis s.quench.set b).map (·.1)).getD 0
      let t : QTest := { desc := d.id, brake := b, dir := dir, at_ := s.tick, p0 := (x.axis j).a }
      (s.setTest (some t)).setBrake b 3)

/-- BRAKE_ENGAGE_TIME_EXPIRY (R404): the coil current is checked, and test torque asked for. -/
def execBrakeEngageTimeExpiry (s : State) : Host.Outcome State Fault Refusal :=
  match s.quench.test with
  | none => .next s
  | some t =>
    if t.phase ≠ 0 then .next s
    else
      let e := Sps.brake s.quench.set t.brake
      let s := s.advanceTo (t.at_ + ms (field e 10 2))
      if byteAt e 3 ≠ 0xFF ∧ !s.coilWithin (byteAt e 3) 0 (field e 8 2) then .next (s.endTest t 3) else .next (s.askTorque t)

/-- TORQUE_RAMP_END (R404): the engine holds T_test; at the end of the ramp back it resumes the law. -/
def execTorqueRampEnd (s : State) : Host.Outcome State Fault Refusal :=
  match s.quench.test with
  | none => .next s
  | some t =>
    if t.phase ≠ 1 ∧ t.phase ≠ 3 then .next s
    else
      let s := s.advanceTo (t.at_ + ms 50)
      if t.phase = 3 then .next (s.endRampBack t)
      else
        let none' := (s.measuredTorque (s.testAxis t).2).isNone
        .next (s.setTest (some { t with phase := 2, at_ := s.tick, reached := if none' then some s.tick else t.reached }))

/-- TORQUE_REACH_TIMEOUT (R404): result 2. -/
def execTorqueReachTimeout (s : State) : Host.Outcome State Fault Refusal :=
  match s.quench.test with
  | none => .next s
  | some t => if t.phase ≠ 2 ∨ t.reached.isSome then .next s else .next ((s.advanceTo (t.at_ + ms 200)).endTest t 2)

/-- TEST_DURATION_EXPIRY (R404): the torque ramps back. -/
def execTestDurationExpiry (s : State) : Host.Outcome State Fault Refusal :=
  match s.quench.test with
  | none => .next s
  | some t =>
    match t.reached with
    | none => .next s
    | some a =>
      if t.phase ≠ 1 ∧ t.phase ≠ 2 then .next s
      else .next ((s.advanceTo (a + ms (field (Sps.brake s.quench.set t.brake) 18 2))).rampBack t)

/-- What a finished test leaves on its channel (R405). -/
def State.brakeResult (s : State) (b res : Nat) : State :=
  let s := s.wr F.QNC_BRK_STAT_result res b
  if res = 0 then
    let s := s.setQBrake b { s.qBrake b with passed := s.tick, overdue := false }
    (((s.wr F.QNC_BRK_STAT_test_fail 0 b).wr F.QNC_BRK_STAT_due 0 b).wr F.QNC_BRK_STAT_hours 0 b).raise 99 1 b 0
  else if res < 4 then (s.wr F.QNC_BRK_STAT_test_fail 1 b).raise 99 2 b (detail [(0, res)])
  else s

/-- BRAKE_RELEASE_TIME_EXPIRY (R404): the test completes; a ramp back that still runs ends first. -/
def execBrakeReleaseTimeExpiry (s : State) : Host.Outcome State Fault Refusal :=
  let s := match s.quench.test with
    | some t => if t.phase = 3 then (s.advanceTo (t.at_ + ms 50)).endRampBack t else s
    | none => s
  match s.quench.test with
  | none => .next s
  | some t =>
    if t.phase ≠ 4 then .next s
    else
      let e := Sps.brake s.quench.set t.brake
      let s := (s.advanceTo (t.at_ + ms (field e 12 2))).setTest none
      if t.aborted then .next (s.complete t.desc 4)
      else
        let s := s.brakeResult t.brake t.res
        .next (s.complete t.desc 1 0 (result [(16, 4, min (2 ^ 32 - 1) (t.most / 2 ^ 24)), (20, 2, testTorque e),
          (22, 2, t.lowest.getD 0x8000), (24, 1, t.res), (25, 1, t.brake)]))

/-- An ABORT of the brake test ramps the torque down; it completes with 0x04 (R403). -/
def State.abortBrakeTest (s : State) (desc : Nat) : State :=
  match s.quench.test with
  | none => s
  | some t =>
    if t.desc ≠ desc ∨ t.aborted then s
    else
      let t := { t with aborted := true }
      if t.phase < 3 then s.rampBack t else s.setTest (some t)

/-- BRAKE_TEST_DUE (R405): the interval has passed without a passed test. -/
def execBrakeTestDue (b : Fin 16) (s : State) : Host.Outcome State Fault Refusal :=
  let e := Sps.brake s.quench.set b
  if s.quench.set.isEmpty ∨ !Sps.used e ∨ field e 24 2 = 0 ∨ s.on F.QNC_BRK_STAT_due b then .next s
  else
    let s := s.advanceTo ((s.qBrake b).passed + sec (3600 * field e 24 2))
    .next ((s.wr F.QNC_BRK_STAT_due 1 b).raise 99 3 b (detail [(0, s.rd F.QNC_BRK_STAT_result b)]))

/-- BRAKE_TEST_OVERDUE (R405): after 1.5 intervals the channel counts as failed. -/
def execBrakeTestOverdue (b : Fin 16) (s : State) : Host.Outcome State Fault Refusal :=
  let e := Sps.brake s.quench.set b
  if s.quench.set.isEmpty ∨ !Sps.used e ∨ field e 24 2 = 0 ∨ (s.qBrake b).overdue then .next s
  else
    let s := s.advanceTo ((s.qBrake b).passed + sec (5400 * field e 24 2))
    .next ((s.setQBrake b { s.qBrake b with overdue := true }).wr F.QNC_BRK_STAT_test_fail 1 b)

/-! ## The safety tick (R368) -/

/-- What Quench does in SAFE (R363). -/
def State.safeTick (s : State) : State :=
  let s := s.safeState.tickTest
  ((List.range s.qConns).foldl (fun s n => s.evalOut n) s).publish

/-- Steps 1 to 7 of R368 in KINDLE (R456). -/
def State.kindleTick (s : State) (pins : QuenchPins) : State :=
  let s := s.evalPair 0
  let s := (List.range 16).foldl (fun s n => s.evalConn n) s
  let s := (List.range 8).foldl (fun s a => s.evalKindle pins a) s
  let s := s.put F.GLB_KDL_STAT_enabling (s.pairOn 0)
  let s := s.put F.QNC_STAT_sto_all (s.rd F.GLB_KDL_STAT_torque == 0)
  (List.range 16).foldl (fun s n => s.evalOut n) s

/-- Steps 1 to 7 of R368 with a parameter set. -/
def State.setTick (s old : State) (pins : QuenchPins) : State :=
  let s := (List.range 16).foldl (fun s p => s.evalPair p) s
  let reset := s.resetSeen old
  let s := if reset then s.acceptReset old else s
  let s := (List.range s.qConns).foldl (fun s n => s.evalConn n) s
  let s := s.evalSensors pins
  let objs := s.objects
  let s := (List.range 16).foldl (fun s c => s.evalChain reset objs c) s
  let s := s.tickTest
  let s := (List.range 16).foldl (fun s b => s.evalBrake pins b) s
  let s := (List.range 16).foldl (fun s c => if Sps.used (Sps.chain s.quench.set c) then s.setAllowance c else s) s
  let s := (List.range 8).foldl (fun s k => s.evalOutput pins k) s
  let live := (List.range 16).any fun c => s.torqueOn c
  let s := s.put F.QNC_STAT_sto_all (!live)
  ((List.range s.qConns).foldl (fun s n => s.evalOut n) s).publish

/-- QNC_TICK counts the ticks since Quench left START (R380). -/
def State.countTick (s : State) : State :=
  if s.behaviour == 0 then s else s.wr F.QNC_TICK_count (s.rd F.QNC_TICK_count + 1)

/-- The evaluation that the behaviour gives (R362, R363). -/
def State.evaluate (s old : State) (pins : QuenchPins) : State :=
  if s.behaviour == 4 then s.safeTick
  else if !s.quench.tested then s
  else if s.mode == 1 then s.kindleTick pins
  else if s.quench.set.isEmpty then s
  else s.setTick old pins

/-- In SENTINEL an engine is disabled when Quench reports STO for every axis of it (R450). -/
def State.sentinelStop (s : State) : State :=
  if s.mode != 5 then s else
  (List.range 64).foldl (fun s n => if s.on F.TMP_CTL_enable n && s.allSto n then (s.disableEngine n).endProgram n else s) s

/-- One evaluation of Quench. -/
def State.runTick (s : State) (pins : QuenchPins) : State :=
  if s.quench.held || s.quench.safStopped then s
  else
    let old := s
    let s := { s with quench := { s.quench with tickAt := s.tick } }
    let s := if pins.clockOff && s.behaviour != 4 then s.quenchFail 4 105 2 else s
    let s := s.takeSet.compareTyped
    ((s.setBehaviour s.dueBehaviour).countTick.evaluate old pins).sentinelStop

/-- The source of the ticks changes: source 105 code 3 (R360). -/
def State.tickSource (s : State) (own : Bool) : State :=
  if s.on F.QNC_STAT_free_tick == own then s
  else (s.put F.QNC_STAT_free_tick own).raise 105 3 0xFFFF (detail [(0, b2n own)])

/-- The tick of Quench's own timer: 300 µs after the last tick, or 250 µs once it ticks from the timer (R360). -/
def State.timerTick (s : State) (pins : QuenchPins) : State :=
  let s := s.advanceTo (s.quench.tickAt + us (if s.on F.QNC_STAT_free_tick then 250 else 300))
  if s.quench.held || s.quench.safStopped then s else (s.tickSource true).runTick pins

/-- SAFETY_TICK (R360, R368): the match of compare unit 1, or, while no cell cycle runs, the tick of the SAF timer. -/
def execSafetyTick (pins : QuenchPins) (s : State) : Host.Outcome State Fault Refusal :=
  if !s.on F.GLB_STAT_cycle_run then .next (s.timerTick pins)
  else
    let s := s.advanceCell (s.rd64 F.TIM_CMP_T_LO_t F.TIM_CMP_T_HI_t 1)
    let s := (s.wr F.TIM_CMP_CFG_fired 1 1).armTick
    if s.quench.held || s.quench.safStopped then .next s else .next ((s.tickSource false).runTick pins)

/-- SAFETY_TICK_TIMEOUT (R360): no match has come in time; with a match due before the timer, none is missed. -/
def execSafetyTickTimeout (pins : QuenchPins) (s : State) : Host.Outcome State Fault Refusal :=
  let t := s.advanceTo (s.quench.tickAt + us (if s.on F.QNC_STAT_free_tick then 250 else 300))
  if s.on F.GLB_STAT_cycle_run && decide (0 ≤ cellDiff t.cellNs (s.rd64 F.TIM_CMP_T_LO_t F.TIM_CMP_T_HI_t 1)) then .next s
  else .next (s.timerTick pins)

/-! ## Cell firmware and the allowance table (R393) -/

/-- The entry of a chain in the current copy of the table. -/
def State.publishedEntry (s : State) (c : Nat) : List Byte :=
  let q := s.quench
  ((if q.header / 2 ^ 32 % 2 = 1 then q.table1 else q.table0).drop (32 * c)).take 32

/-- ALLOWANCE_TABLE_STOP (R393): a chain whose entry shows SS1 or SS2 is stopped as by STOP. -/
def execAllowanceTableStop (c : Fin 16) (s : State) : Host.Outcome State Fault Refusal :=
  let stop := byteAt (s.publishedEntry c) 12
  if s.mode = 5 ∨ (stop ≠ 1 ∧ stop ≠ 2) then .next s else .next (s.stopChain c { cause := 8 })

end Sys2Proof.Machine
end

