-- ==== Sys2Proof/Machine/Bellows.lean ====
section
/-!
DEFINITION. Machine/Bellows.lean: the commands of the pairing (R425 to R441): roles, heartbeats, the mirror set, lanes, takeover
and the planned swap.
-/

namespace Sys2Proof.Machine

def State.setBellows (s : State) (b : Bellows) : State := { s with bellows := b }

/-! ## Roles (R426) -/

/-- ROLE_DECISION (R426): a device that has entered RUN or HOLD without a role takes the role that it now has. -/
def execRoleDecision (s : State) : Host.Outcome State Fault Refusal :=
  if (s.mode ≠ 3 ∧ s.mode ≠ 4) ∨ s.rd F.GLB_STAT_role ≠ 0 then .next s
  else match s.roleChoice with
    | 1 => .next ((s.wr F.GLB_STAT_role 1).syncPair)
    | 2 => .next ((s.enterStandby 2).syncPair)
    | _ => .next s

/-- BELLOWS_LINK_TIMEOUT (R426): the link has stayed down for 1 s after its enable. -/
def execBellowsLinkTimeout (s : State) : Host.Outcome State Fault Refusal :=
  if !s.on F.BLW_CTL_enable || s.on F.BLW_STAT_link || s.bellows.timedOut then .next s
  else
    let s := s.advanceTo (s.bellows.enabledAt + sec 1)
    let s := s.setBellows { s.bellows with timedOut := true }
    if !s.on F.BLW_CFG_primary then .next (s.blwEvent 110 3)
    else if (s.mode = 3 ∨ s.mode = 4) ∧ s.rd F.GLB_STAT_role = 0 then .next (s.wr F.GLB_STAT_role 1)
    else .next s

/-- BELLOWS_DISABLE (R444): a write of 0 to BLW_CTL.enable; a standby goes to COMMISSION. -/
def execBellowsDisable (m : Master) (s : State) : Host.Outcome State Fault Refusal :=
  if !s.privileged m then .next (s.pvDropped m false true (F.BLW_CTL_enable.addr 0 0))
  else if !s.on F.BLW_CTL_enable then .next s
  else
    let s := ((s.wr F.BLW_CTL_enable 0).wr F.BLW_STAT_link 0).wr F.BLW_STAT_lanes 0
    let s := ((s.wr F.BLW_STAT_partner_role 0).wr F.BLW_STAT_ready 0).wr F.BLW_STAT_partner_ready 0
    let s := ((s.wr F.BLW_STAT_hb_lost 0).wr F.GLB_STAT_role 0).setBellows { swaps := s.bellows.swaps }
    .next (if s.mode = 6 then s.setMode 2 2 else s)

/-! ## Heartbeats (R429) -/

/-- An active device withholds its heartbeats: its Guard is closed on every channel of its timing segment (R429), or it has
entered SENTINEL with a ready partner (R452). -/
def State.withholds (s : State) : Bool :=
  s.rd F.GLB_STAT_role == 1
    && ((s.mode == 5 && (s.bellows.yielding || s.combway.silenced))
      || s.timingSeg.any fun g => s.guardClosed g false && s.guardClosed g true)

/-- HEARTBEAT_SEND (R429): at the start of the network idle time. -/
def execHeartbeatSend (s : State) : Host.Outcome State Fault Refusal :=
  if !s.on F.BLW_CTL_enable || !s.running then .next s
  else
    let idle := match s.timingSeg with
      | some g => (s.tim.cycleNs : Int) - Sched.nit (s.sched g)
      | none => 0
    let s := (s.advanceCell (uns 64 ((s.tim.lastInstant : Int) + idle))).syncPair
    let swap := if s.rd F.GLB_STAT_role = 1 then (s.bellows.swaps.head?.map (·.2)).getD 0 else 0
    let hb : Heartbeat := {
      cycle := BitVec.ofNat 32 (s.tim.cycle + 1), role := BitVec.ofNat 2 (s.rd F.GLB_STAT_role)
      ready := s.on F.BLW_STAT_ready, epoch := BitVec.ofNat 16 (s.rd F.BLW_STAT_epoch)
      digest := BitVec.ofNat 32 (s.rd F.BLW_DIGEST_digest), swap := BitVec.ofNat 32 swap }
    .next (s.setBellows { s.bellows with sent := if s.withholds then none else some hb })

/-- The partner's digest differs from the own: source 108 code 3, when it is found (R425). -/
def State.comparePartner (s : State) : State :=
  let p := s.rd F.BLW_PDIGEST_digest
  let bad := s.rd F.BLW_DIGEST_digest != p
  let s := if bad && !s.bellows.mismatch then s.blwEvent 108 3 (detail [(4, p)]) else s
  s.setBellows { s.bellows with mismatch := bad }

/-- A heartbeat that had already been found lost does not end the count of lost ones. -/
def State.heartbeatLate (s : State) (cycle : Nat) : Bool :=
  s.bellows.lost.any fun l => decide (0 ≤ sgn 32 (uns 32 ((l : Int) - cycle)))

/-- Mirrors were complete in the last 8 cycles (R427, log entry 40). -/
def State.mirrorsHold (s : State) : Bool :=
  decide (8 ≤ s.bellows.mirrors) && s.bellows.mirrorAt.any fun c => decide (s.tim.cycle ≤ c + 1)

/-- HEARTBEAT_RECEIVED (R425, R429, R436). -/
def execHeartbeatReceived (h : Heartbeat) (s : State) : Host.Outcome State Fault Refusal :=
  if !s.on F.BLW_CTL_enable || !s.on F.BLW_STAT_link then .next s
  else
    let late := s.heartbeatLate h.cycle.toNat
    let s := ((s.wr F.BLW_STAT_partner_role h.role.toNat).put F.BLW_STAT_partner_ready h.ready).wr F.BLW_PDIGEST_digest
      h.digest.toNat
    let ok := if s.mode == 6 then s.mirrorsHold else s.bellows.mirrorOk
    let s := s.setBellows { s.bellows with heard := some h.cycle.toNat, partnerSwap := h.swap.toNat, mirrorOk := ok }
    let s := if late then s else
      (if 2 ≤ s.rd F.BLW_STAT_hb_lost then s.blwEvent 108 2 else s).wr F.BLW_STAT_hb_lost 0
    let s := s.syncPair.comparePartner
    let ahead := decide (0 < sgn 16 (uns 16 ((h.epoch.toNat : Int) - s.rd F.BLW_STAT_epoch)))
    let role := s.rd F.GLB_STAT_role
    if role = 1 ∧ h.role = 1 ∧ ahead then .next s.fallSilent
    else if role = 2 ∧ h.role = 1 ∧ !s.combway.silenced then .next (s.wr F.BLW_STAT_epoch h.epoch.toNat).syncPair
    else .next s.syncPair

/-- The cycle whose heartbeat is judged next. -/
def State.nextJudged (s : State) : Nat :=
  match s.bellows.heard, s.bellows.lost with
  | none, none => s.tim.cycle
  | some h, none => (h + 1) % 2 ^ 32
  | none, some l => (l + 1) % 2 ^ 32
  | some h, some l => ((if 0 ≤ sgn 32 (uns 32 ((h : Int) - l)) then h else l) + 1) % 2 ^ 32

/-- HEARTBEAT_LOST (R429): the common instant of a cycle and hb_wait have passed without its heartbeat. -/
def execHeartbeatLost (s : State) : Host.Outcome State Fault Refusal :=
  let n := s.nextJudged
  let ago := sgn 32 (uns 32 ((s.tim.cycle : Int) - n))
  if !s.on F.BLW_CTL_enable || !s.running || decide (ago < 0) then .next s
  else
    let due := (s.tim.lastInstant : Int) - ago * s.tim.cycleNs + 1000 * s.rd F.BLW_CFG_hb_wait
    let s := (s.advanceCell (uns 64 due)).bump F.BLW_STAT_hb_lost
    let s := s.setBellows { s.bellows with lost := some n }
    let s := if s.rd F.BLW_STAT_hb_lost = 2 then s.blwEvent 108 1 else s
    .next s.syncPair

/-! ## The mirror set (R430, R431) -/

def Mirror.words (ctx : Nat) (l : List Word) (s : State) : State :=
  (List.range 16).foldl (fun s i => match l[i]? with
    | some w => s.setWord (F.HIV_CTX0_state.addr ctx 0 + 4 * i) w
    | none => s) s

/-- Observer states, set-points and origins; a difference of a shadow u beyond diff_thr shows in the flag. -/
def State.mirrorAxis (s : State) (a : MirrorAxis) : State × Bool :=
  let e := s.eng a.engine
  let x := e.ax a.slot
  let u := sgn 16 a.u.toNat
  let far := decide (s.rd F.BLW_CFG_diff_thr < (x.sent - u).natAbs)
  let x := { x with mirrored := some u, origin := (a.origin.map fun o => sgn 64 o.toNat).getD x.origin }
  (s.setEng a.engine ((e.setAx a.slot x).setStates a.slot (a.xhat.map fun w => sgn 32 w.toNat)), far)

/-- A window and its path-table pieces (R206, R208). -/
def State.mirrorWindow (s : State) (w : MirrorWindow) : State :=
  let e := s.eng w.engine
  let c := e.chainWin w.chain
  let ps := c.pieces ++ w.pieces
  let c := { c with pieces := ps.drop (ps.length - 32) }
  let v := some (windowOf w.bytes w.ready)
  s.setEng w.engine (e.setChainWin w.chain (if w.pending then { c with pending := v } else { c with active := v }))

/-- A chain's state, its tokens and its waiting request. -/
def State.mirrorChain (s : State) (m : MirrorChain) : State :=
  let req := m.request.map fun (z, t, got, n) =>
    ({ zones := z.toNat, time := t.toNat, got := got.toNat, seq := n.toNat } : ZoneReq)
  s.setChain m.chain { s.chain m.chain with state := m.state.toNat, tokens := m.tokens.toNat, req := req }

def State.mirrorKeeper (s : State) (k : MirrorKeeper) : State :=
  s.setKeeper k.zone {
    holder := k.holder.map whoOf
    waiting := k.waiting.map fun m => { who := whoOf m, time := m.time.toNat, seq := m.seq.toNat } }

/-- The mirrored counters agree with the own. -/
def State.countersAgree (s : State) (m : Mirror) : Bool :=
  m.counters.all fun (g, c, d) => s.segCount g == c.toNat && (s.seg g).dynId == d.toNat

/-- The items of a complete mirror cycle are applied together. -/
def State.applyMirror (s : State) (m : Mirror) : State :=
  let (s, far) := m.axes.foldl (fun p a => let (s, f) := p.1.mirrorAxis a; (s, p.2 || f)) (s, false)
  let s := if far then s.bump F.BLW_ERR_shadow_diff else s
  let s := m.windows.foldl (fun s w => s.mirrorWindow w) s
  let s := m.chains.foldl (fun s c => s.mirrorChain c) s
  let s := m.keepers.foldl (fun s k => s.mirrorKeeper k) s
  let s := m.contexts.foldl (fun s p => (Mirror.words p.1 p.2 s).wr F.HIV_CTX0_state 4 p.1) s
  let b := s.bellows
  let again := b.mirrorAt == some s.tim.cycle
  let n := if again then b.mirrors else if b.mirrorAt.map (fun c => (c + 1) % 2 ^ 32) == some s.tim.cycle then b.mirrors + 1 else 1
  let s := s.setBellows { b with
    mirrorAt := some s.tim.cycle, mirrors := n, mirrorOk := b.mirrorOk || decide (8 ≤ n)
    countersOk := s.countersAgree m, mode := m.mode.toNat
    numbers := m.numbers.foldl (fun l p => store (fun _ => 0) l p.1.val p.2.toNat) b.numbers }
  ((s.wr F.BLW_MIRROR_age 0).wr F.BLW_MIRROR_kib m.kib.toNat).syncPair

/-- MIRROR_APPLY (R430): the closing mark of a mirror cycle arrives at a standby. -/
def execMirrorApply (m : Mirror) (s : State) : Host.Outcome State Fault Refusal :=
  if s.mode ≠ 6 ∨ !s.on F.BLW_CTL_enable ∨ !s.on F.BLW_STAT_link then .next s
  else if !m.complete then .next ((s.bump F.BLW_ERR_incomplete).setBellows { s.bellows with mirrors := 0 })
  else .next (s.applyMirror m)

/-! ## Lanes (R428) -/

/-- LANE_LOSS (R428): a lane loses block lock; with the last one the link is down. -/
def execLaneLoss (n : Fin 4) (s : State) : Host.Outcome State Fault Refusal :=
  if !bitAt (s.rd F.BLW_STAT_lanes) n then .next s
  else
    let s := (s.wrBit F.BLW_STAT_lanes n false).blwEvent 110 1 (detail [(0, n)])
    if s.rd F.BLW_STAT_lanes ≠ 0 then .next s
    else .next ((s.wr F.BLW_STAT_link 0).blwEvent 110 3).syncPair

/-- LANE_RESTORE (R441): a lane is aligned and joins the stripe. -/
def execLaneRestore (n : Fin 4) (s : State) : Host.Outcome State Fault Refusal :=
  if !s.on F.BLW_CTL_enable || bitAt (s.rd F.BLW_STAT_lanes) n then .next s
  else .next (((s.wrBit F.BLW_STAT_lanes n true).wr F.BLW_STAT_link 1).blwEvent 110 2 (detail [(0, n)])).syncPair

/-! ## Takeover (R434, R435) -/

/-- A consecutive number advanced, 1 following 0xFF_FFFF (R373). -/
def numberPlus (n k : Nat) : Nat := (n + k - 1) % (2 ^ 24 - 1) + 1

/-- R435 steps 1 to 5, as a takeover or a swap. -/
def State.becomeActive (s : State) (cause : Nat) : State :=
  let s := (s.wr F.BLW_STAT_epoch (s.rd F.BLW_STAT_epoch + 1)).setMode (if s.bellows.mode = 4 then 4 else 3) cause
  let s := (s.wr F.GLB_STAT_role 1).blwEvent 109 1 (detail [(4, s.tim.cycle)])
  let s := s.bellows.numbers.foldl (fun s p => s.wr F.QNC_CONN_STAT_number (numberPlus p.2 15) p.1) s
  let s := (List.range 8).foldl (fun s g =>
    let m := s.rd F.CMB_SYNC_STAT_master g
    if m != 0 && m == s.ownNode g then s.setMaster g m else s) s
  let s := (List.range 1024).foldl (fun s c =>
    if s.on F.HIV_CTX0_mirrored c && s.ctxState c == 4 then (s.wr F.HIV_CTX0_state 1 c).armFirst c else s) s
  s.syncPair

/-- R435 step 6: a moving chain decelerates under the bridging rule of R174 and becomes HELD without a remainder; the cause
that source 23 carries is a free value (log entry 39). -/
def State.endMoving (s : State) (c : Nat) : State :=
  if (s.chain c).state != 1 then s else
  let cause := s.freshWord.toNat
  let s := s.drawn.commitRamp c s.tim.instant 16
  (s.setChain c { s.chain c with
    state := 3, cur := none, halt := some { cause := cause, status := none, discard := true } }).heldEvent c cause 3

/-- No valid copy of the pair's frame in slot `k` of segment `g` has come in this cycle. -/
def State.frameMissing (s : State) (g k : Nat) : Bool :=
  let w := s.rd F.CMB_SLOT_STAT_status g k
  !((bitAt w 17 || bitAt w 18) && w % 65536 == s.tim.cycle % 65536)

/-- TAKEOVER (R434): at the end of the pair's first static slot on the timing segment. -/
def execTakeover (s : State) : Host.Outcome State Fault Refusal :=
  match s.timingSeg with
  | none => .next s
  | some g =>
    let b := s.sched g
    match (List.range (Sched.slots b)).find? fun k => (Sched.slot b k).owner == s.ownNode g with
    | none => .next s
    | some k =>
      if s.mode ≠ 6 ∨ !s.on F.BLW_CTL_enable ∨ !s.running ∨ s.combway.silenced ∨ s.rd F.BLW_STAT_hb_lost < 2
          ∨ s.bellows.lost ≠ some s.tim.cycle ∨ !s.frameMissing g k then .next s
      else
        let s := s.advanceCell (uns 64 (s.tim.lastInstant + Sched.slotStart b (k + 1) : Nat))
        if !s.isReady then .next (s.blwEvent 109 3 (detail [(4, s.tim.cycle)]))
        else .next ((List.range 16).foldl (fun s c => s.endMoving c) (s.becomeActive 3))

/-! ## The planned swap (R438, R439) -/

/-- PAIR_SWAP (R438). -/
def execPairSwap (r : Fin 64) (s : State) : Host.Outcome State Fault Refusal :=
  .next (s.runDesc r 0x0510 fun s d =>
    let c := d.op 32 4
    if (s.mode ≠ 3 ∧ s.mode ≠ 4) ∨ s.rd F.GLB_STAT_role ≠ 1 then s.fail d.id 0x15
    else if c ≠ 0 ∧ sgn 32 (uns 32 ((c : Int) - s.tim.cycle)) < 8 then s.fail d.id 0x12 32
    else s.setBellows { s.bellows with
      swaps := s.bellows.swaps ++ [(d.id, if c = 0 then (s.tim.cycle + 16) % 2 ^ 32 else c)] })

/-- An aborted PAIR_SWAP is given up (R73). -/
def State.abortSwap (s : State) (id : Nat) : State :=
  (s.setBellows { s.bellows with swaps := s.bellows.swaps.filter (·.1 != id) }).complete id 4

/-- The MOTION descriptors of the old active complete as in STANDBY, and its queues go (R159, R438). -/
def State.endMotion (s : State) : State :=
  let s := (List.range 16).foldl (fun s c =>
    let ch := s.chain c
    s.setChain c { ch with
      queue := [], cur := none, resumes := [], scales := [], halt := ch.halt.map fun h => { h with waiting := [] } }) s
  (s.hif.desc.filter fun d => s.ringClass d.ring == 1).foldl (fun s d => s.fail d.id 0x15) s

/-- The result code of a swap from the copies of the new active's first frame (R439). -/
def swapCode (a b : Bool) : Nat := if a && b then 0 else if a || b then 3 else 2

/-- The swap cycle has come. -/
def State.swapDue (s : State) (c : Nat) : Bool := decide (0 ≤ sgn 32 (uns 32 ((s.tim.cycle : Int) - c)))

def State.swapEvent (s : State) (code c : Nat) : State := s.blwEvent 111 1 (detail [(0, code), (4, c)])

/-- The swap on the old active. -/
def State.swapOut (s : State) (desc c : Nat) (a b : Bool) : State :=
  let ready := s.on F.BLW_STAT_partner_ready && s.rd F.BLW_STAT_hb_lost == 0
  let code := if ready then swapCode a b else 1
  let s := s.setBellows { s.bellows with swaps := s.bellows.swaps.filter (·.1 != desc) }
  let s := if code == 0 || code == 3 then (s.enterStandby 4).endMotion else s
  (s.swapEvent code c).complete desc 1 0 (result [(16, 1, code), (20, 4, c)])

/-- The swap on the partner: a new active whose first frame was absent stops (R436). -/
def State.swapIn (s : State) (c : Nat) (a b : Bool) : State :=
  let s := s.setBellows { s.bellows with partnerSwap := 0 }
  if !s.isReady || s.rd F.BLW_STAT_hb_lost != 0 then s.swapEvent 1 c
  else
    let s := (s.becomeActive 4).swapEvent (swapCode a b) c
    if swapCode a b = 2 then s.fallSilent else s

/-- SWAP_EXECUTE (R438): at the common instant of the swap cycle, with the copies on A and B of the new active's first frame. -/
def execSwapExecute (firstA firstB : Bool) (s : State) : Host.Outcome State Fault Refusal :=
  if (s.mode = 3 ∨ s.mode = 4) ∧ s.rd F.GLB_STAT_role = 1 then
    match s.bellows.swaps.head? with
    | some (d, c) => if s.swapDue c then .next (s.swapOut d c firstA firstB) else .next s
    | none => .next s
  else if s.mode = 6 ∧ s.bellows.partnerSwap ≠ 0 ∧ s.swapDue s.bellows.partnerSwap then
    .next (s.swapIn s.bellows.partnerSwap firstA firstB)
  else .next s

end Sys2Proof.Machine
end

