-- ==== Sys2Proof/Machine/Swage.lean ====
section
/-!
DEFINITION. Machine/Swage.lean: Swage profiles and microstep output (R275 to R291): link messages, profiles, stops,
homing, acceleration changes and limit inputs.  Positions are carried in 2⁻³² index units and velocities in 2⁻³² index
units/s.
-/

namespace Sys2Proof.Machine

def State.swg (s : State) (c : Nat) : SwgCh := lookup (fun _ => {}) s.swage.ch c

def State.setSwg (s : State) (c : Nat) (v : SwgCh) : State :=
  { s with swage := { s.swage with ch := store (fun _ => {}) s.swage.ch c v } }

def State.swgEvent (s : State) (code c : Nat) (d : DWord) : State := s.raise (80 + c / 4) code c d

/-- `link_fault` or `stage_fault` is latched (R277). -/
def State.swgFault (s : State) (c : Nat) : Bool := s.on F.SWG_CH_STAT_link_fault c || s.on F.SWG_CH_STAT_stage_fault c

/-- The channel sends off messages (R277, R282, R284). -/
def State.swgOff (s : State) (c : Nat) : Bool :=
  s.swgFault c || ((s.swg c).move.isNone && (!s.on F.SWG_CH_CTL_enable c || s.mode == 5))

/-- Index units of an internal position. -/
def unitsOf (p : Int) : Int := asr p 32

/-- The distance that a motion has left (R283). -/
def SwgCh.remaining (x : SwgCh) (m : Option SwgMove) : Int :=
  match m with
  | some m => if m.mode = 2 then 0 else m.target - unitsOf x.pos
  | none => 0

/-- The inline result of a Swage operation (R283). -/
def SwgCh.result (x : SwgCh) (m : Option SwgMove) : List Byte :=
  Machine.result [(16, 8, uns 64 (unitsOf x.pos)), (24, 8, uns 64 (x.remaining m))]

/-- SWG_CH_STAT.state (R291). -/
def State.swgCode (s : State) (c : Nat) : Nat :=
  let x := s.swg c
  match x.move with
  | some m => if x.halt.isSome then 2 else if m.home.isSome then 4 else 1
  | none => if s.swgOff c then 5 else if x.kept.isSome then 3 else 0

/-- The registers of a channel follow its state. -/
def State.swgSync (s : State) (c : Nat) : State :=
  let x := s.swg c
  let rem := uns 64 (x.remaining (if x.move.isSome then x.move else x.kept))
  let s := s.wr64 F.SWG_CH_POS_LO_pos F.SWG_CH_POS_HI_pos (uns 64 (unitsOf x.pos)) c
  let s := s.wr64 F.SWG_CH_REM_LO_rem F.SWG_CH_REM_HI_rem rem c
  (s.wrS F.SWG_CH_VEL_vel (asr x.vel 28) c).wr F.SWG_CH_STAT_state (s.swgCode c) c

/-! ## Ends of motion (R285) -/

/-- The motion of a channel ends with a status; in every case but 0x01 event code 4 names it. -/
def State.swgEnd (s : State) (c status : Nat) (keep : Bool) : State :=
  let x := s.swg c
  match x.move with
  | none => s
  | some m =>
    let res := x.result (some m)
    let y : SwgCh := { x with
      vel := 0
      dv := 0
      left := 0
      landing := false
      move := none
      halt := none
      kept := if keep then some { m with desc := none, home := none, deferred := false } else none
      decel := x.newDecel.getD x.decel
      newDecel := none
      stops := []
      stood := s.tick }
    let s := (s.setSwg c y).wr F.SWG_CH_STAT_accel_deferred 0 c
    let s := match m.desc with
      | some d => s.complete d status (if m.deferred then 8 else 0) res
      | none => s
    let s := if status = 1 then s else s.swgEvent 4 c (detail [(0, status)])
    let s := x.stops.foldl (fun s d => s.complete d 1 0 res) s
    let s := if s.swgOff c || (m.home.isSome && status != 1) then s.wr F.SWG_CH_STAT_referenced 0 c else s
    s.swgSync c

/-- A stop is requested (R285, R286): the ramp begins at the next profile tick.  An abort discards the remainder also of
a ramp under way; any other later cause leaves the ramp as it is. -/
def State.swgStop (s : State) (c status : Nat) (keep : Bool) : State :=
  let x := s.swg c
  if x.move.isNone then s
  else
    let h : SwgHalt := match x.halt with
      | some h => if status = 4 then { h with status := 4, keep := false } else h
      | none => { status := status, keep := keep }
    (s.setSwg c { x with halt := some h }).swgSync c

/-- Motion ends without a ramp because a fault has latched (R285, R288). -/
def State.swgFaultEnd (s : State) (c : Nat) : State :=
  let homing := match (s.swg c).move with
    | some m => m.home.isSome
    | none => false
  ((s.wr F.SWG_CH_STAT_referenced 0 c).swgEnd c (if homing then 0x33 else 6) true).swgSync c

/-- Entry into HOLD (R284): each moving channel stops as by SWG_STOP. -/
def State.swgHold (s : State) : State := (List.range 16).foldl (fun s c => s.swgStop c 6 true) s

/-- Entry into SENTINEL (R284, R285). -/
def State.swgSentinel (s : State) : State :=
  (List.range 16).foldl (fun s c => (s.swgStop c 0xE1 false).swgSync c) s

/-- ABORT of a started Swage descriptor (R285). -/
def State.swgAbort (s : State) (d : Nat) : State :=
  (List.range 16).foldl (fun s c =>
    let x := s.swg c
    match x.move with
    | some m =>
      if m.desc = some d then s.swgStop c 4 false
      else if x.stops.contains d ∨ x.setting.contains d then
        (s.setSwg c { x with stops := x.stops.filter (· != d), setting := x.setting.filter (· != d) }).complete d 4
      else s
    | none =>
      if x.setting.contains d then (s.setSwg c { x with setting := x.setting.filter (· != d) }).complete d 4 else s) s

/-! ## Links (R276 to R279) -/

/-- CRC-8 of link messages (R276). -/
def crc8 (bs : List Byte) : Nat := bs.foldl (fun c b => crcStep 7 7 8 8 (c ^^^ b.toNat)) 0

/-- One link cycle of a profile tick: the position advances by the tick's velocity, in the last tick of a move up to the
target (R280). -/
def SwgCh.linkCycle (x : SwgCh) : SwgCh :=
  if x.left = 0 then x
  else
    let p := x.pos + tdiv x.vel 100000
    match x.landing, x.move with
    | true, some m =>
      let t := m.target * 2 ^ 32
      let p := if x.left = 1 then t else if 0 ≤ x.vel then min t p else max t p
      { x with left := x.left - 1, pos := p }
    | _, _ => { x with left := x.left - 1, pos := p }

/-- The position as the link sees it: with `dir` set, changes are negated (R275). -/
def SwgCh.linkPos (x : SwgCh) (dir : Bool) : Int := x.shift + (if dir then -x.pos else x.pos)

/-- The address at increment exponent `l`: rounded half up to a multiple of 2^l, modulo 1,024 (R278). -/
def SwgCh.address (x : SwgCh) (dir : Bool) (l : Nat) : Nat := uns 10 (rhu (x.linkPos dir) (32 + l) * 2 ^ l)

/-- The increment exponent after a link cycle (R278). -/
def SwgCh.exponent (x : SwgCh) (dir : Bool) (vmax l : Nat) : Nat :=
  let v := x.vel.natAbs
  let top := vmax * 2 ^ (28 + l)
  if x.move.isNone ∨ v = 0 then 0
  else if top < v * 256 ∧ l < 8 then (if x.address dir l % 2 ^ (l + 1) = 0 then l + 1 else l)
  else if v * 4096 ≤ top * 7 ∧ 0 < l then l - 1
  else l

/-- SWAGE_LINK_SLOT (R276, R278): the channel's link cycle, and its command message. -/
def execSwageLinkSlot (c : Fin 16) (s : State) : Host.Outcome State Fault Refusal :=
  let x := (s.swg c).linkCycle
  let dir := s.on F.SWG_CH_CFG_dir c
  let l := x.exponent dir (s.rd F.SWG_CH_VMAX_vmax c) (s.rd F.SWG_CH_STAT_incr_log2 c)
  let a := x.address dir l
  let old := s.rd F.SWG_CH_STAT_address c
  let off := s.swgOff c
  let neg := if a = old then x.negStep else decide (512 < (a + 1024 - old) % 1024)
  let seq := (x.seq + 1) % 16
  let body : List Byte := [BitVec.ofNat 8 (c.val % 4 + (if off then 4 else 0) + 16 * seq), BitVec.ofNat 8 a,
    BitVec.ofNat 8 (a / 256 + 4 * b2n neg), BitVec.ofNat 8 (if off then 0 else x.current), BitVec.ofNat 8 l, 0]
  let s := s.setSwg c { x with seq := seq, negStep := neg, sent := 0xA5 :: body ++ [BitVec.ofNat 8 (crc8 body)] }
  .next (((s.wr F.SWG_CH_STAT_incr_log2 l c).wr F.SWG_CH_STAT_address a c).swgSync c)

/-- The link of a channel reports when all four of its channels are missing, and when status messages return (R291). -/
def State.linkReport (s : State) (n : Nat) : State :=
  let all := (List.range 4).all fun i => decide (3 ≤ (s.swg (4 * n + i)).missing)
  let was := bitAt s.swage.down n
  if all = was then s
  else
    { s with swage := { s.swage with down := putBit s.swage.down n all } }.raise (84 + n) (if all then 1 else 3) 0xFFFF 0

/-- A status message is missing (R277). -/
def State.swgMissing (s : State) (c : Nat) : State :=
  let x := s.swg c
  let s := (s.setSwg c { x with missing := min 3 (x.missing + 1) }).bump F.SWG_CH_ERR_missing c
  let s := if 3 ≤ x.missing + 1 ∧ !s.on F.SWG_CH_STAT_link_fault c then
      ((s.wr F.SWG_CH_STAT_link_fault 1 c).raise (84 + c / 4) 1 c 0).swgFaultEnd c
    else s
  s.linkReport (c / 4)

/-- STATUS_MESSAGE_MISSING (R277). -/
def execStatusMessageMissing (c : Fin 16) (s : State) : Host.Outcome State Fault Refusal := .next (s.swgMissing c)

/-! ## Limit inputs (R290) -/

/-- A limit input takes the raw level of a status message: debouncing and toggles within the window. -/
def LimIn.take (x : LimIn) (level : Bool) (now win : Nat) : LimIn :=
  match x.raw with
  | none => { x with raw := some level, run := 1 }
  | some r =>
    if r = level then { x with run := min 255 (x.run + 1) }
    else { raw := some level, run := 1, toggles := now :: x.toggles.filter fun t => decide (now ≤ t + win) }

/-- The direction in which a channel moves or is about to move: its velocity, else its target; 0 for none. -/
def SwgCh.heading (x : SwgCh) (m : SwgMove) : Int :=
  if x.vel ≠ 0 then x.vel.sign
  else if m.mode = 2 then (if m.negative then -1 else 1)
  else (m.target * 2 ^ 32 - x.pos).sign

/-- A debounced active limit stops a move towards it, and any homing (R288, R290). -/
def State.swgTrip (s : State) (c : Nat) (neg : Bool) : State :=
  let x := s.swg c
  match x.move with
  | none => s
  | some m =>
    let act := s.on (if neg then F.SWG_CH_STAT_lim_neg else F.SWG_CH_STAT_lim_pos) c
    if !act || x.halt.isSome || !(m.home.isSome || x.heading m == (if neg then -1 else 1)) then s
    else ((s.bump F.SWG_CH_ERR_trips c).swgEvent 1 c (detail [(0, b2n neg)])).swgStop c 0x32 true

/-- LIMIT_CHATTER latches (R290). -/
def State.swgChatter (s : State) (c : Nat) : State :=
  if s.on F.SWG_CH_STAT_limit_chatter c then s
  else ((s.wr F.SWG_CH_STAT_limit_chatter 1 c).swgEvent 2 c 0).swgStop c 0x32 true

/-- One limit input of a channel takes its level; the level is debounced after `deb` messages. -/
def State.swgLimit (s : State) (c : Nat) (neg level : Bool) : State :=
  let en := s.on (if neg then F.SWG_CH_CFG_lim_neg_en else F.SWG_CH_CFG_lim_pos_en) c
  let low := s.on (if neg then F.SWG_CH_CFG_lim_neg_low else F.SWG_CH_CFG_lim_pos_low) c
  let stat := if neg then F.SWG_CH_STAT_lim_neg else F.SWG_CH_STAT_lim_pos
  if !en then s.wr stat 0 c
  else
    let x := s.swg c
    let i := (if neg then x.limNeg else x.limPos).take level s.tick (ms (s.rd F.SWG_CH_LIM_chat_win c))
    let s := s.setSwg c (if neg then { x with limNeg := i } else { x with limPos := i })
    let s := if s.rd F.SWG_CH_LIM_deb c ≤ i.run then s.put stat (level != low) c else s
    let s := if s.rd F.SWG_CH_LIM_chat_n c < i.toggles.length then s.swgChatter c else s
    s.swgTrip c neg

/-- SWAGE_STATUS_MESSAGE (R276, R277): the four bytes of a status message; one whose sync, slot, sequence or CRC is wrong
is missing. -/
def execSwageStatusMessage (c : Fin 16) (w : Word) (s : State) : Host.Outcome State Fault Refusal :=
  let b := toBytes 4 w.toNat
  let x := s.swg c
  let crcBad := crc8 ((b.drop 1).take 2) ≠ byteAt b 3
  let s := if crcBad then s.bump F.SWG_CH_ERR_crc c else s
  if byteAt b 0 ≠ 0x5A ∨ crcBad ∨ byteAt b 1 % 4 ≠ c.val % 4 ∨ bitsOf (byteAt b 1) 2 4 ≠ x.seq then
    .next (s.swgMissing c)
  else
    let s := (s.setSwg c { x with missing := 0 }).linkReport (c / 4)
    let f := byteAt b 2
    let s := if bitAt f 2 ∧ !s.on F.SWG_CH_STAT_stage_fault c then
        ((s.wr F.SWG_CH_STAT_stage_fault 1 c).swgEvent 3 c 0).swgFaultEnd c
      else s
    .next ((s.swgLimit c false (bitAt f 0)).swgLimit c true (bitAt f 1))

/-! ## Acceleration changes (R289) -/

/-- The change of velocity in one profile tick of `n` link cycles at an acceleration. -/
def perTick (a n : Nat) : Nat := a * n * 2 ^ 32 / 100000

/-- The highest velocity from which a channel can stop within `rem` at a deceleration, tick by tick (R280). -/
def stopSpeed (rem decel n : Nat) : Nat :=
  let d := perTick decel n
  isqrt (d * d + rem * 2 ^ 33 * decel) - d

/-- The new values that apply at this profile tick apply (R289). -/
def State.swgApply (s : State) (c : Nat) : State :=
  let x := s.swg c
  let x := { x with accel := x.newAccel.getD x.accel, jerk := x.newJerk.getD x.jerk, newAccel := none, newJerk := none }
  let done := fun (s : State) (note : Nat) => x.setting.foldl (fun s d => s.complete d 1 note) s
  let apply := fun (v : Nat) => (done (s.setSwg c { x with decel := v, newDecel := none, setting := [] }) 0).wr
    F.SWG_CH_STAT_accel_deferred 0 c
  match x.newDecel, x.move with
  | none, _ => done (s.setSwg c { x with setting := [] }) 0
  | some v, none => apply v
  | some v, some m =>
    let rem := (m.target * 2 ^ 32 - x.pos).natAbs
    let can := m.mode == 2 || decide (x.vel.natAbs ≤ stopSpeed rem v (s.rd F.SWG_CH_CFG_tick c))
    if x.decel ≤ v ∨ (x.halt.isNone ∧ !m.deferred ∧ can) then apply v
    else
      let told := s.on F.SWG_CH_STAT_accel_deferred c
      let s := done (s.setSwg c { x with setting := [], move := some { m with deferred := true } }) 8
      if told then s else (s.wr F.SWG_CH_STAT_accel_deferred 1 c).swgEvent 5 c 0

/-! ## The profile tick (R280, R281, R286) -/

/-- The velocity of a tick for a move with distance `rem` ahead at speed `u0` towards its target, in any value `pick` that
the limits of the move admit (log entry 31). -/
def SwgCh.tickSpeed (x : SwgCh) (m : SwgMove) (n rem : Nat) (u0 pick : Int) : Int :=
  let a : Int := (perTick x.accel n : Nat)
  let d : Int := (perTick x.decel n : Nat)
  let top : Int := (m.speed * 2 ^ 28 : Nat)
  let hold := m.mode == 2
  let lo : Int := if u0 < 0 then min 0 (u0 + d) else if hold then (if u0 ≤ top then u0 else max top (u0 - d))
    else max 0 (u0 - d)
  let land : Int := if ((perTick x.decel n / 100000 * n : Nat) : Int) ≥ (rem : Nat) then d else 0
  let stop : Int := if hold then top else max (stopSpeed rem x.decel n : Nat) land
  let hi : Int := if u0 < 0 then lo else max lo (min (min top (u0 + a)) stop)
  if m.jerkLimited then
    let j : Int := (x.jerk * 16 * n * n * 2 ^ 32 / 10000000000 : Nat)
    let dv : Int := if u0 < 0 then (x.dv.natAbs : Int) else if 0 ≤ x.vel then x.dv else -x.dv
    clampI (if u0 < 0 then u0 else lo) hi (clampI (u0 + dv - j) (u0 + dv + j) pick)
  else clampI lo hi pick

/-- The target is reached (R280, R288): the move ends, or the travel of a homing goes on to its settle time. -/
def State.swgArrive (s : State) (c : Nat) : State :=
  let x := s.swg c
  match x.move with
  | none => s
  | some m =>
    if m.home = some .travel then
      (s.setSwg c { x with move := some { m with home := some .settle }, vel := 0, dv := 0, left := 0, landing := false,
                           stood := s.tick }).swgSync c
    else s.swgEnd c 1 false

/-- A stop ramp for one tick (R286): at the larger of the stop deceleration and the deceleration in use when it began. -/
def State.swgRamp (s : State) (c : Nat) (h : SwgHalt) : State :=
  let x := s.swg c
  let d := h.begun.getD (max (s.rd F.SWG_CH_STOPDEC_decel c) x.decel)
  let n := s.rd F.SWG_CH_CFG_tick c
  let v := x.vel.sign * ((x.vel.natAbs - perTick d n : Nat) : Int)
  if v = 0 then
    match x.move with
    | some m =>
      if m.mode ≠ 2 ∧ m.home.isNone ∧ x.pos = m.target * 2 ^ 32 then s.swgEnd c 1 false
      else s.swgEnd c h.status h.keep
    | none => s
  else
    (s.setSwg c { x with halt := some { h with begun := some d }, vel := v, dv := v - x.vel, left := n,
                         landing := false }).swgSync c

/-- The velocity for a profile tick of a move is chosen (R280, R281, R283). -/
def State.swgChoose (s : State) (c : Nat) (m : SwgMove) (pick : Int) : State :=
  let x := s.swg c
  let n := s.rd F.SWG_CH_CFG_tick c
  let ahead := m.target * 2 ^ 32 - x.pos
  let dir : Int := if m.mode = 2 then (if m.negative then -1 else 1) else if ahead = 0 then x.vel.sign else ahead.sign
  let rem := ahead.natAbs
  if m.mode ≠ 2 ∧ rem = 0 ∧ x.vel = 0 then s.swgArrive c
  else
    let u := x.tickSpeed m n rem (dir * x.vel) pick
    let land := m.mode != 2 && decide (0 < u) && decide ((rem : Int) ≤ tdiv u 100000 * n)
      && decide (u ≤ (perTick x.decel n : Nat))
    let done := m.mode = 2 ∧ u = (m.speed * 2 ^ 28 : Nat) ∧ m.desc.isSome
    let y := { x with vel := dir * u, dv := dir * u - x.vel, left := n, landing := land }
    if done then
      ((s.setSwg c { y with move := some { m with desc := none } }).complete (m.desc.getD 0) 1
        (if m.deferred then 8 else 0) (y.result (some m))).swgSync c
    else (s.setSwg c y).swgSync c

/-- PROFILE_TICK (R280): `pick` is the velocity that the channel chooses, towards the target. -/
def execProfileTick (c : Fin 16) (pick : DWord) (s : State) : Host.Outcome State Fault Refusal :=
  let x := s.swg c
  let landed := x.landing
  let s := s.setSwg c ((List.range x.left).foldl (fun x _ => x.linkCycle) x)
  let s := s.swgApply c
  let x := s.swg c
  match x.move, x.halt with
  | none, _ => .next (s.swgSync c)
  | some _, some h => .next (if landed then s.swgArrive c else s.swgRamp c h)
  | some m, none =>
    if landed then .next (s.swgArrive c)
    else if m.home = some .settle then .next (s.swgSync c)
    else .next (s.swgChoose c m pick.toInt)

/-! ## Operations (R283 to R289) -/

/-- The status with which a motion towards `m` is refused at once, if any (R277, R290). -/
def State.swgRefused (s : State) (c : Nat) (m : SwgMove) : Option Nat :=
  let x := s.swg c
  let h : Int := if m.mode = 2 then (if m.negative then -1 else 1) else (m.target * 2 ^ 32 - x.pos).sign
  if !s.on F.SWG_CH_CTL_enable c || s.swgFault c then some Config.swageRefusal.toNat
  else if s.on F.SWG_CH_STAT_limit_chatter c || (s.on F.SWG_CH_STAT_lim_pos c && h == 1)
      || (s.on F.SWG_CH_STAT_lim_neg c && h == -1) then some 0x32
  else none

/-- A motion starts from the present state; a motion in progress ends with 0x04 (R285, R287). -/
def State.swgStart (s : State) (c : Nat) (m : SwgMove) (current : Nat) : State :=
  let x := s.swg c
  match s.swgRefused c m with
  | some st => match m.desc with
    | some d => s.complete d st 0 (x.result (some m))
    | none => s
  | none =>
    let s := match x.move with
      | some old =>
        let s := match old.desc with
          | some d => s.complete d 4 (if old.deferred then 8 else 0) (x.result (some old))
          | none => s
        s.swgEvent 4 c (detail [(0, 4)])
      | none => s
    let s := if m.home.isSome then s.wr F.SWG_CH_STAT_referenced 0 c else s
    (s.setSwg c { x with move := some m, kept := none, halt := none, landing := false, current := current }).swgSync c

/-- The range of positions (R275). -/
def inRange47 (p : Int) : Bool := decide (-(2 ^ 47 : Int) ≤ p ∧ p ≤ 2 ^ 47)

/-- SWG_MOVE (R283). -/
def execSwgMove (r : Fin 64) (s : State) : Host.Outcome State Fault Refusal :=
  .next (s.runDesc r 0x0340 fun s d =>
    let c := d.op 32 1
    let x := s.swg c
    let mode := d.op 33 1
    let t := if mode = 1 then unitsOf x.pos + d.opS 40 8 else d.opS 40 8
    let m : SwgMove := { desc := some d.id, mode := mode, negative := bitAt (d.op 40 1) 0,
                         jerkLimited := bitAt (d.op 34 1) 0, speed := d.op 36 4, target := if mode = 2 then 0 else t }
    if s.rd F.SWG_CH_VMAX_vmax c < m.speed then s.fail d.id 0x12 36
    else if m.jerkLimited ∧ x.jerk = 0 then s.fail d.id 0x12 34
    else if mode ≠ 2 ∧ !inRange47 t then s.fail d.id 0x12 40
    else s.swgStart c m (s.rd F.SWG_CH_CUR_run c))

/-- SWG_STOP (R283, R286): on a standing channel it completes at once. -/
def execSwgStop (r : Fin 64) (s : State) : Host.Outcome State Fault Refusal :=
  .next (s.runDesc r 0x0341 fun s d =>
    let c := d.op 32 1
    let x := s.swg c
    if x.move.isNone then s.complete d.id 1 0 (x.result x.kept)
    else (s.setSwg c { x with stops := x.stops ++ [d.id] }).swgStop c 6 true)

/-- SWG_RESUME (R287). -/
def execSwgResume (r : Fin 64) (s : State) : Host.Outcome State Fault Refusal :=
  .next (s.runDesc r 0x0342 fun s d =>
    let c := d.op 32 1
    let x := s.swg c
    match x.move, x.kept with
    | some _, _ => s.fail d.id 0x15
    | none, none => s.complete d.id 1 0 (x.result none)
    | none, some m => s.swgStart c { m with desc := some d.id } (s.rd F.SWG_CH_CUR_run c))

/-- SWG_HOME (R288). -/
def execSwgHome (r : Fin 64) (s : State) : Host.Outcome State Fault Refusal :=
  .next (s.runDesc r 0x0343 fun s d =>
    let c := d.op 32 1
    let x := s.swg c
    let neg := d.op 33 1 == 1
    let t := unitsOf x.pos + (if neg then -(d.op 40 4 : Int) else (d.op 40 4 : Int))
    let m : SwgMove := { desc := some d.id, negative := neg, speed := d.op 36 4, target := t, home := some .travel,
                         current := d.op 34 1, backoff := d.op 44 4, reference := d.opS 48 8, settleMs := d.op 56 2 }
    if s.rd F.SWG_CH_VMAX_vmax c < m.speed then s.fail d.id 0x12 36
    else s.swgStart c m m.current)

/-- New values are recorded; 0 keeps the value in force (R283, R289). -/
def State.swgRecord (s : State) (c a d j : Nat) : State :=
  let x := s.swg c
  let s := if a = 0 then s else s.wr F.SWG_CH_ACC_accel a c
  let s := if d = 0 then s else s.wr F.SWG_CH_DEC_decel d c
  let s := if j = 0 then s else s.wr F.SWG_CH_JERK_jerk j c
  s.setSwg c { x with
    newAccel := if a = 0 then x.newAccel else some a
    newDecel := if d = 0 then x.newDecel else some d
    newJerk := if j = 0 then x.newJerk else some j }

/-- SWG_SET_ACCEL (R289). -/
def execSwgSetAccel (r : Fin 64) (s : State) : Host.Outcome State Fault Refusal :=
  .next (s.runDesc r 0x0344 fun s d =>
    let c := d.op 32 1
    let s := s.swgRecord c (d.op 36 4) (d.op 40 4) (d.op 44 4)
    s.setSwg c { s.swg c with setting := (s.swg c).setting ++ [d.id] })

/-- SWAGE_ACCEL_WRITE (R289): a write of SWG_CH_ACC (0), SWG_CH_DEC (1) or SWG_CH_JERK (2). -/
def execSwageAccelWrite (c : Fin 16) (which : Fin 3) (v : Word) (s : State) : Host.Outcome State Fault Refusal :=
  let x := s.swg c
  if which = 0 then .next ((s.wr F.SWG_CH_ACC_accel v.toNat c).setSwg c { x with newAccel := some v.toNat })
  else if which = 1 then .next ((s.wr F.SWG_CH_DEC_decel v.toNat c).setSwg c { x with newDecel := some v.toNat })
  else .next ((s.wr F.SWG_CH_JERK_jerk v.toNat c).setSwg c { x with newJerk := some v.toNat })

/-- SWAGE_STOP_REQUEST (R285, R286). -/
def execSwageStopRequest (c : Fin 16) (s : State) : Host.Outcome State Fault Refusal := .next (s.swgStop c 6 true)

/-- SWAGE_ENABLE (R282): drive messages at the hold current and at the address of the commanded position. -/
def execSwageEnable (c : Fin 16) (s : State) : Host.Outcome State Fault Refusal :=
  if s.on F.SWG_CH_CTL_enable c then .next s
  else
    let x := s.swg c
    let s := s.wr F.SWG_CH_CTL_enable 1 c
    if x.move.isSome then .next (s.swgSync c)
    else
      let base := if s.on F.SWG_CH_CFG_dir c then 2 * x.pos else 0
      .next ((s.setSwg c { x with current := s.rd F.SWG_CH_CUR_hold c, shift := base, stood := s.tick }).swgSync c)

/-- SWAGE_DISABLE (R282): while the channel moves, a stop request. -/
def execSwageDisable (c : Fin 16) (s : State) : Host.Outcome State Fault Refusal :=
  let s := s.wr F.SWG_CH_CTL_enable 0 c
  if (s.swg c).move.isSome then .next (s.swgStop c 6 true)
  else .next ((s.wr F.SWG_CH_STAT_referenced 0 c).swgSync c)

/-- SWAGE_CLEAR (R291). -/
def execSwageClear (c : Fin 16) (s : State) : Host.Outcome State Fault Refusal :=
  .next ((((s.wr F.SWG_CH_STAT_limit_chatter 0 c).wr F.SWG_CH_STAT_link_fault 0 c).wr
    F.SWG_CH_STAT_stage_fault 0 c).swgSync c)

/-- HOMING_SETTLE_END (R288): the position becomes the reference, the address stays, and the backoff starts. -/
def execHomingSettleEnd (c : Fin 16) (s : State) : Host.Outcome State Fault Refusal :=
  let x := s.swg c
  match x.move with
  | none => .next s
  | some m =>
    if m.home ≠ some .settle ∨ x.halt.isSome then .next s
    else
      let s := s.advanceTo (x.stood + ms m.settleMs)
      let dir := s.on F.SWG_CH_CFG_dir c
      let p := m.reference * 2 ^ 32
      let back := if m.negative then m.reference + m.backoff else m.reference - m.backoff
      let y := { x with
        pos := p
        shift := x.linkPos dir - (if dir then -p else p)
        current := s.rd F.SWG_CH_CUR_run c
        move := some { m with home := some .backoff, target := back } }
      .next (((s.setSwg c y).wr F.SWG_CH_STAT_referenced 1 c).swgSync c)

/-- HOLD_CURRENT_DELAY (R282). -/
def execHoldCurrentDelay (c : Fin 16) (s : State) : Host.Outcome State Fault Refusal :=
  let x := s.swg c
  if x.move.isSome ∨ s.swgOff c then .next s
  else
    let s := s.advanceTo (x.stood + ms (s.rd F.SWG_CH_CUR_hold_delay c))
    .next (s.setSwg c { x with current := s.rd F.SWG_CH_CUR_hold c })

end Sys2Proof.Machine
end

