-- ==== Sys2Proof/Machine/Kindle.lean ====
section
/-!
DEFINITION. Machine/Kindle.lean: the fixed schedule of KINDLE and the entry into the mode (R453, R454).
-/

namespace Sys2Proof.Machine

/-- An entry of the slot table (R303). -/
def slotBytes (owner flags len : Nat) : List Byte := toBytes 1 owner ++ toBytes 1 flags ++ toBytes 1 len ++ [0]

/-- A placement (R304). -/
def placeBytes (slot kind b3 off len arg : Nat) : List Byte :=
  toBytes 1 slot ++ toBytes 1 kind ++ [0] ++ toBytes 1 b3 ++ toBytes 2 off ++ toBytes 2 len ++ toBytes 4 arg

/-- The header of the schedule: node 1, 100 Mbaud, 16 slots of 20 µs, 80 mini-slots, 1 ms, first tick point 181 µs. -/
def kindleHeader : List Byte :=
  toBytes 2 1 ++ [0, 1, 2, 16] ++ toBytes 2 800 ++ toBytes 2 80 ++ toBytes 2 0 ++ toBytes 4 1000000 ++ toBytes 4 181000
    ++ [1, 0, 255, 255] ++ toBytes 2 8 ++ toBytes 2 16 ++ toBytes 2 9 ++ toBytes 2 0 ++ toBytes 4 64 ++ toBytes 4 128
    ++ toBytes 4 224 ++ toBytes 4 416 ++ toBytes 16 0

/-- The slots of R453: slot 0 sync of node 1, slots 1 to 8 of nodes 2 to 9, slot 15 of node 1. -/
def kindleSlots : List Byte :=
  slotBytes 1 4 0 ++ (List.range 8).flatMap (fun a => slotBytes (a + 2) 3 28)
    ++ (List.range 6).flatMap (fun _ => slotBytes 0 0 0) ++ slotBytes 1 2 112

/-- Where the payloads of R454 go and come from. -/
def kindlePlaces : List Byte :=
  (List.range 8).flatMap (fun a => placeBytes (a + 1) 2 1 0 28 (32 * a + 4))
    ++ (List.range 8).flatMap fun a => placeBytes 15 1 a (2 * a) 2 0 ++ placeBytes 15 2 0 (16 + 12 * a) 12 a

/-- The dynamic table of R453: identifier 64 + n of node n + 1. -/
def kindleDyn : List Byte := (List.range 9).flatMap fun n => toBytes 2 (64 + n) ++ toBytes 1 (n + 1) ++ [0]

/-- The schedule of segment 0 in KINDLE (R453). -/
def kindleBody : List Byte := kindleHeader ++ kindleSlots ++ kindlePlaces ++ kindleDyn

/-- KINDLE is entered with a cause: segment 0 runs on channel A alone, Temper engine 0 runs, and Quench is released with its
KINDLE image unless a rail is out (R453, R463, R498). -/
def State.enterKindle (s : State) (cause : Nat) : State :=
  let s := s.setMode 1 cause
  let s := { s with
    upd := { s.upd with kindle := cause, boot := 8 }
    quench := { s.quench with held := s.quench.railOut, tickAt := s.tick, sampleAt := s.tick } }
  let s := s.installSched 0 kindleBody
  let s := ((s.wr F.CMB_SEG_CTL_chan_a_en 1).wr F.CMB_SEG_CTL_chan_b_en 0)
  let s := ((s.wr F.CMB_SYNC_CFG_timing 1).wr F.CMB_SYNC_CFG_coldstart_en 1)
  let s := (s.wr F.TMP_CTL_enable 1).wr F.TMP_STAT_stopped 0
  s.startSegment 0

end Sys2Proof.Machine
end

