-- ==== Sys2Proof/Machine/Update.lean ====
section
/-!
DEFINITION. Machine/Update.lean: flash, staging, boot checks and slot selection, confirmation, settings and attestation
(R464 to R480).
-/

namespace Sys2Proof.Machine

/-! ## Flash (R464) -/

def State.flash (s : State) (n : Nat) : List Host.Cell := if n = 0 then s.upd.flash0 else s.upd.flash1

def State.setFlash (s : State) (n : Nat) (m : List Host.Cell) : State :=
  { s with upd := if n = 0 then { s.upd with flash0 := m } else { s.upd with flash1 := m } }

/-- The image slot, and the content of the settings slot behind its header of 128 bytes. -/
def settingsBase : Nat := 0x06010000

/-! ## Slot records (R465) -/

def State.slotRec (s : State) (n : Nat) : SlotRec := if n = 0 then s.upd.slot0 else s.upd.slot1

/-- The header of the ingot in a slot (R466). -/
def State.ingotHeader (s : State) (n : Nat) : List Byte := readBytes (s.flash n) 0 512

/-- The registers of a slot (R479); an EMPTY slot holds no ingot. -/
def State.showSlot (s : State) (n : Nat) : State :=
  let r := s.slotRec n
  let h := if r.state = 0 then [] else s.ingotHeader n
  let v := field h 12 4
  let s := (s.wr F.UPD_SLOT_VER_LO_version (v % 2 ^ 16) n).wr F.UPD_SLOT_VER_HI_version (v / 2 ^ 16) n
  let s := (s.wr F.UPD_SLOT_REC_state r.state n).wr F.UPD_SLOT_REC_trials r.trials n
  (s.wr F.UPD_SLOT_REC_reject r.reject n).wr F.UPD_SLOT_REC_rollback (byteAt h 16) n

def State.setSlot (s : State) (n : Nat) (r : SlotRec) : State :=
  { s with upd := if n = 0 then { s.upd with slot0 := r } else { s.upd with slot1 := r } }.showSlot n

/-- UPD_FUSE (R479). -/
def State.showFuses (s : State) : State :=
  (s.wr F.UPD_FUSE_rollback s.otp.rollback).wr F.UPD_FUSE_revoked s.otp.revoked

/-! ## The stage lock (R468 to R470) -/

/-- Sources 112 to 119 (R480). -/
def State.updEvent (s : State) (src : Nat) (d : DWord) : State := s.raise src 1 0xFFFF d

/-- The slot that does not hold the running image. -/
def State.inactiveSlot (s : State) : Nat := if s.upd.running = 0 then 1 else 0

/-- Bytes written, as UPD_STAGE shows them. -/
def State.setWritten (s : State) (n : Nat) : State :=
  { s with upd := { s.upd with written := n } }.wr F.UPD_STAGE_written (n / 1024)

/-- Whether staging is possible now (R447, R469): for the Ethernet service, which the Foragers run, only in STAGE. -/
def State.mayStage (s : State) (src : Nat) : Bool := s.mode == 7 || (s.mode == 1 && src == 1)

/-- The case of R469 that refuses a STAGE_OPEN: status and offending field.  In KINDLE no image runs that could be
unconfirmed. -/
def State.openRefused (s : State) (src slot len : Nat) : Option (Nat × Nat) :=
  let kindle := s.mode == 1
  let owner := s.rd F.UPD_STAGE_owner
  if !s.mayStage src then some (0x15, 0xFFFF)
  else if !kindle && (s.slotRec s.upd.running).state != 3 then some (0x15, 0xFFFF)
  else if slot ≠ 0xFF ∧ (!kindle ∨ 1 < slot) then some (0x12, 36)
  else if owner ≠ 0 ∧ owner ≠ src then some (0x40, 0xFFFF)
  else if 100663296 < len then some (0x41, 0xFFFF)
  else if len < 640 then some (0x12, 32)
  else none

/-- STAGE_OPEN takes the lock for its source, or starts the staging again. -/
def State.openStage (s : State) (src slot len : Nat) : State :=
  let n := if slot = 0xFF then s.inactiveSlot else slot
  let taken := s.rd F.UPD_STAGE_owner == 0
  let s := (s.setSlot n {}).setWritten 0
  let s := { s with upd := { s.upd with length := len, lockTick := s.tick } }
  let s := (s.wr F.UPD_STAGE_owner src).wr F.UPD_STAGE_slot n
  if taken then s.updEvent 114 (detail [(0, 1), (1, src)]) else s

/-- The case of R469 that refuses an operation of a source on its lock. -/
def State.lockRefused (s : State) (src : Nat) : Option (Nat × Nat) :=
  if !s.mayStage src then some (0x15, 0xFFFF)
  else if s.rd F.UPD_STAGE_owner ≠ src then some (0x42, 0xFFFF)
  else none

/-- The case that refuses a STAGE_WRITE. -/
def State.writeRefused (s : State) (src off len : Nat) : Option (Nat × Nat) :=
  (s.lockRefused src).or (if off ≠ s.upd.written ∨ s.upd.length < off + len then some (0x12, 32) else none)

/-- The case that refuses a STAGE_COMMIT. -/
def State.commitRefused (s : State) (src : Nat) : Option (Nat × Nat) :=
  (s.lockRefused src).or (if s.upd.written < s.upd.length then some (0x12, 0xFFFF) else none)

/-- STAGE_COMMIT: the slot is STAGED and the lock is free (R468, R470). -/
def State.commitStage (s : State) : State :=
  let n := s.rd F.UPD_STAGE_slot
  let s := (s.setSlot n { state := 1 }).releaseLock 0
  s.updEvent 115 (detail [(0, n), (4, s.upd.length)])

/-- STAGE_OPEN (R468, R469). -/
def execStageOpen (r : Fin 64) (s : State) : Host.Outcome State Fault Refusal :=
  .next (s.runDesc r 0x0801 fun s d =>
    match s.openRefused 1 (d.op 36 1) (d.op 32 4) with
    | some (st, off) => s.fail d.id st off
    | none => (s.openStage 1 (d.op 36 1) (d.op 32 4)).complete d.id 1)

/-- STAGE_WRITE (R468, R469): it completes when its bytes are programmed. -/
def execStageWrite (r : Fin 64) (io : HostIo) (s : State) : Host.Outcome State Fault Refusal :=
  .next (s.runDesc r 0x0802 fun s d =>
    match s.writeRefused 1 (d.op 32 4) (d.op 24 4) with
    | some (st, off) => s.fail d.id st off
    | none => s.withBody d io fun s b =>
      { s with upd := { s.upd with jobs := s.upd.jobs ++ [.stage (some d.id) (d.op 32 4) b] } })

/-- STAGE_COMMIT (R468, R469). -/
def execStageCommit (r : Fin 64) (s : State) : Host.Outcome State Fault Refusal :=
  .next (s.runDesc r 0x0803 fun s d =>
    match s.commitRefused 1 with
    | some (st, off) => s.fail d.id st off
    | none => s.commitStage.complete d.id 1 0 (result [(16, 1, s.rd F.UPD_STAGE_slot)]))

/-- STAGE_RELEASE (R468, R469). -/
def execStageRelease (r : Fin 64) (s : State) : Host.Outcome State Fault Refusal :=
  .next (s.runDesc r 0x0804 fun s d =>
    match s.lockRefused 1 with
    | some (st, off) => s.fail d.id st off
    | none => (s.releaseLock 1).complete d.id 1)

/-- ETHERNET_STAGE_REQUEST (R469, R470): the service receives the status of its request, 0 while a write is in progress. -/
def execEthernetStageRequest (op : StageOp) (s : State) : Host.Outcome State Fault Refusal :=
  let (s, st) : State × Nat := match op with
    | .stageOpen len => (match s.openRefused 2 0xFF len.toNat with
      | some p => (s, p.1)
      | none => (s.openStage 2 0xFF len.toNat, 1))
    | .stageWrite off body => (match s.writeRefused 2 off.toNat body.length with
      | some p => (s, p.1)
      | none => ({ s with upd := { s.upd with jobs := s.upd.jobs ++ [.stage none off.toNat body] } }, 0))
    | .stageCommit => (match s.commitRefused 2 with
      | some p => (s, p.1)
      | none => (s.commitStage, 1))
    | .stageRelease => (match s.lockRefused 2 with
      | some p => (s, p.1)
      | none => (s.releaseLock 1, 1))
  .next { s with rdata := BitVec.ofNat 32 st }

/-- STAGE_LOCK_TIMEOUT (R470). -/
def execStageLockTimeout (s : State) : Host.Outcome State Fault Refusal :=
  if s.rd F.UPD_STAGE_owner = 0 then .next s
  else .next ((s.advanceTo (s.upd.lockTick + sec 60)).releaseLock 2)

/-- An aborted STAGE_WRITE leaves the bytes written and the lock as they are; another flash operation likewise (R470). -/
def State.abortFlash (s : State) (id : Nat) : State :=
  let l := s.upd.jobs.filter fun j => match j with
    | .stage (some d) _ _ => d != id
    | .sps d _ => d != id
    | .settings d _ _ => d != id
    | _ => true
  { s with upd := { s.upd with jobs := l } }.complete id 4

/-! ## What a flash program ends (R468, R378, R379, R476) -/

/-- The source of a staging job gets its status. -/
def State.stageStatus (s : State) (desc : Option Nat) (st check : Nat) : State :=
  match desc with
  | some d => if st = 1 then s.complete d 1 else s.fail d st 0xFFFF check
  | none => { s with rdata := BitVec.ofNat 32 st }

/-- A STAGE_WRITE has ended; a fault releases the lock, with a cause that the manual does not give (log entry 5). -/
def State.endStageWrite (s : State) (ok : Bool) (desc : Option Nat) (off : Nat) (bytes : List Byte) : State :=
  let src := if desc.isSome then 1 else 2
  if !ok then
    let c := s.freshWord.toNat % 256
    (if s.rd F.UPD_STAGE_owner = src then s.drawn.releaseLock c else s).stageStatus desc 0x13 1
  else if s.rd F.UPD_STAGE_owner ≠ src then s.stageStatus desc 0x42 0
  else
    let n := s.rd F.UPD_STAGE_slot
    let s := (s.setFlash n (writeBytes (s.flash n) off bytes)).setWritten (off + bytes.length)
    { s with upd := { s.upd with lockTick := s.tick } }.stageStatus desc 1 0

def State.settingsRec (s : State) (n : Nat) : SettingsRec := if n = 0 then s.upd.set0 else s.upd.set1

def State.setSettings (s : State) (n : Nat) (r : SettingsRec) : State :=
  { s with upd := if n = 0 then { s.upd with set0 := r } else { s.upd with set1 := r } }

/-- The current settings slot. -/
def State.currentSet (s : State) : Nat := s.rd F.UPD_SET_slot

/-- A settings slot is written: record header and content (R476). -/
def State.writeSettings (s : State) (n format generation : Nat) (content : List Byte) : State :=
  let v := s.rd F.GLB_IMG_VER_version
  let h := (List.range 128).map (Config.settingsHeader format generation v content)
  (s.setFlash n (writeBytes (s.flash n) settingsBase (h ++ content))).setSettings n
    { valid := true, format := format, generation := generation, version := v, length := content.length }

/-- The settings slot becomes the current one. -/
def State.useSettings (s : State) (n : Nat) : State :=
  (s.wr F.UPD_SET_slot n).wr F.UPD_SET_format (s.settingsRec n).format

/-- The format of the settings that the running image writes (R466). -/
def State.imageFormat (s : State) : Nat := field (s.ingotHeader s.upd.running) 352 2

/-- SETTINGS_SAVE has written its slot (R476). -/
def State.endSettings (s : State) (ok : Bool) (desc n : Nat) (content : List Byte) : State :=
  if !ok then s.fail desc 0x13 0xFFFF 1
  else
    let g := (max s.upd.set0.generation s.upd.set1.generation + 1) % 2 ^ 32
    ((s.writeSettings n s.imageFormat g content).useSettings n).complete desc 1

/-- FLASH_PROGRAM_COMPLETE (R468, R469, R378, R379, R476). -/
def execFlashProgramComplete (ok : Bool) (s : State) : Host.Outcome State Fault Refusal :=
  match s.upd.jobs with
  | [] => .next s
  | j :: rest =>
    let s := { s with upd := { s.upd with jobs := rest } }
    match j with
    | .stage desc off bytes => .next (s.endStageWrite ok desc off bytes)
    | .sps desc set =>
      if !ok then .next (s.fail desc 0x13 0xFFFF 1)
      else .next ({ s with quench := { s.quench with stored := set, record := none } }.complete desc 1 0
        (result [(16, 4, setCrc set)]))
    | .confirm crc =>
      if !ok then .next s
      else
        let s := { s with quench := { s.quench with record := some crc } }
        if crc ≠ s.rd F.QNC_SPS_CRC_crc ∨ !s.on F.QNC_STAT_set_present then .next s
        else .next ((s.wr F.QNC_STAT_confirmed 1).raise 106 2 0xFFFF (detail [(4, crc)]))
    | .settings desc n content => .next (s.endSettings ok desc n content)

/-! ## Boot checks and slot selection (R471, R472) -/

/-- The image digest (R467): header and payload. -/
def State.imageDigest (s : State) (n : Nat) : BitVec 512 :=
  Config.sha512 (readBytes (s.flash n) 0 (512 + field (s.ingotHeader n) 20 4))

/-- A 512-bit value as its 64 bytes. -/
def bytes512 (v : BitVec 512) : List Byte := toBytes 64 v.toNat

/-- A signature of the image digest at an offset behind the payload. -/
def State.signedBy (s : State) (n off : Nat) (key : BitVec 256) : Bool :=
  Config.ed25519Verify key (bytes512 (s.imageDigest n))
    (BitVec.ofNat 512 (le (readBytes (s.flash n) (512 + field (s.ingotHeader n) 20 4 + off) 64)))

/-- The unit identifiers name this device, or none. -/
def unitBound (h : List Byte) : Bool :=
  byteAt h 10 == 0 || (List.range (min 16 (byteAt h 10))).any fun i =>
    (h.drop (96 + 16 * i)).take 16 == toBytes 16 Config.uid.toNat

/-- The first check of R471 that an image slot fails; 0 for none. -/
def State.bootCheck (s : State) (n : Nat) : Nat :=
  let r := s.slotRec n
  let h := s.ingotHeader n
  let p := field h 20 4
  let cosigned := bitAt (byteAt h 11) 0
  if r.state = 0 ∨ r.state = 5 then 1
  else if field h 0 4 ≠ 0x4F474E49 ∨ field h 4 2 ≠ 1 ∨ 2 ≤ byteAt h 11 ∨ 16 ≤ byteAt h 17 ∨ !zeroBytes h 18 2
      ∨ !zeroBytes h 356 156 then 2
  else if field h 6 2 ≠ s.rd F.GLB_ID_part then 3
  else if s.rd F.GLB_ID_stepping < byteAt h 8 then 4
  else if !unitBound h then 5
  else if 100663296 < 576 + p + (if cosigned then 64 else 0) ∨ p < field h 24 4 + field h 28 4 then 6
  else if byteAt h 9 < 4 ∧ bitAt s.otp.revoked (byteAt h 9) then 7
  else if 4 ≤ byteAt h 9 ∨ !s.signedBy n 0 (Config.grainawickKey (byteAt h 9)) then 8
  else if s.otp.owner ∧ (!cosigned ∨ !s.signedBy n 64 (BitVec.ofNat 256 (le s.otp.ownerKey))) then 9
  else if byteAt h 16 < s.otp.rollback then 10
  else if r.state = 2 ∧ r.trials = 3 then 11
  else 0

/-- The slot that is tried first (R472). -/
def State.firstSlot (s : State) : Nat :=
  let is := fun n k => (s.slotRec n).state == k
  if is 0 1 || is 0 2 then 0 else if is 1 1 || is 1 2 then 1
  else if is 0 3 then 0 else if is 1 3 then 1 else if is 0 4 then 0 else if is 1 4 then 1 else 0

/-- A slot that fails a check is REJECTED, with source 113 (R471). -/
def State.rejectSlot (s : State) (n code : Nat) : State :=
  (s.setSlot n { s.slotRec n with state := 5, reject := code }).updEvent 113 (detail [(0, n), (1, code)])

/-- A slot that passes boots: a STAGED or TRIAL one on trial; Quench's code is copied and Quench leaves reset (R462, R472). -/
def State.bootSlot (s : State) (n : Nat) : State :=
  let r := s.slotRec n
  let s := if r.state = 1 ∨ r.state = 2 then s.setSlot n { r with state := 2, trials := r.trials + 1 } else s.showSlot n
  let s := (s.wr F.UPD_STAT_running n).put F.UPD_STAT_confirmed (r.state == 3)
  let s := s.wr F.GLB_IMG_VER_version (field (s.ingotHeader n) 12 4)
  { s with
    upd := { s.upd with running := n, boot := 4, migrated := none }
    quench := { s.quench with held := s.quench.railOut, tickAt := s.tick, sampleAt := s.tick } }

/-- The note of a boot from the slot that was not chosen first: source 112. -/
def State.noteFallback (s : State) (first booted : Nat) : State :=
  let code := (s.slotRec first).reject
  let s := ((s.wr F.UPD_BOOT_NOTE_fell_back 1).wr F.UPD_BOOT_NOTE_first first).wr F.UPD_BOOT_NOTE_reject code
  s.updEvent 112 (detail [(0, first), (1, code), (2, booted)])

/-- IMAGE_SLOT_CHOICE (R471, R472): after OTP, on the normal path. -/
def execImageSlotChoice (s : State) : Host.Outcome State Fault Refusal :=
  if s.upd.boot ≠ 3 ∨ s.upd.kindle ≠ 0 then .next s
  else
    let a := s.firstSlot
    let b := if a = 0 then 1 else 0
    let ca := s.bootCheck a
    if ca = 0 then .next ((s.wr F.UPD_BOOT_NOTE_first a).bootSlot a)
    else
      let s := s.rejectSlot a ca
      let cb := s.bootCheck b
      if cb = 0 then .next ((s.bootSlot b).noteFallback a b)
      else .next ((s.rejectSlot b cb).enterKindle 12)

/-! ## Confirmation (R473 to R475) -/

/-- The steps of R474 on a TRIAL image. -/
def State.confirmImage (s : State) : State :=
  let n := s.upd.running
  let o := s.inactiveSlot
  let h := s.ingotHeader n
  let s := (s.setSlot n { s.slotRec n with state := 3 }).wr F.UPD_STAT_confirmed 1
  let s := if (s.slotRec o).state = 3 then s.setSlot o { s.slotRec o with state := 4 } else s
  let s := if s.otp.rollback < byteAt h 16 then
      { s with otp := { s.otp with rollback := byteAt h 16 } }.updEvent 118 (detail [(0, byteAt h 16)])
    else s
  let revoke := putBit (byteAt h 17 % 16) (byteAt h 9) false
  { s with otp := { s.otp with revoked := s.otp.revoked ||| revoke } }.showFuses

def State.fuseResult (s : State) : List Byte := result [(16, 1, s.otp.rollback), (17, 1, s.otp.revoked)]

/-- IMAGE_CONFIRM (R473, R474).  On a running image that is neither TRIAL nor CONFIRMED the manual gives no outcome: it changes
nothing, and which of 0x01 and 0x15 it completes with is free (log entry 5). -/
def execImageConfirm (r : Fin 64) (s : State) : Host.Outcome State Fault Refusal :=
  .next (s.runDesc r 0x0805 fun s d =>
    let st := (s.slotRec s.upd.running).state
    if s.mode ≠ 2 ∧ s.mode ≠ 3 then s.fail d.id 0x15
    else if st = 2 then let s := s.confirmImage; s.complete d.id 1 0 s.fuseResult
    else if st = 3 then s.complete d.id 1 0 s.fuseResult
    else if s.freshWord.toNat.testBit 0 then s.drawn.complete d.id 1 0 s.fuseResult
    else s.drawn.fail d.id 0x15)

/-- OWNER_FUSE (R473, R475): whether the fuses read back. -/
def execOwnerFuse (r : Fin 64) (io : HostIo) (readBack : Bool) (s : State) : Host.Outcome State Fault Refusal :=
  .next (s.runDesc r 0x0808 fun s d =>
    if s.mode ≠ 2 ∧ s.mode ≠ 3 then s.fail d.id 0x15
    else if s.otp.owner then s.fail d.id 0x14 0xFFFF 3
    else s.withBody d io fun s b =>
      if !readBack then s.fail d.id 0x13
      else ({ s with otp := { s.otp with owner := true, ownerKey := b } }.wr F.GLB_STAT_owned 1).complete d.id 1)

/-! ## Settings (R476, R477) -/

/-- The slot that a save writes: the one that a TRIAL image migrated into, else the one that is not current. -/
def State.saveSlot (s : State) : Nat :=
  let other := if s.currentSet = 0 then 1 else 0
  if (s.slotRec s.upd.running).state = 2 then s.upd.migrated.getD other else other

/-- SETTINGS_SAVE (R476): the content is the cell firmware's. -/
def execSettingsSave (r : Fin 64) (content : List Byte) (s : State) : Host.Outcome State Fault Refusal :=
  .next (s.runDesc r 0x0806 fun s d =>
    { s with upd := { s.upd with jobs := s.upd.jobs ++ [.settings d.id s.saveSlot content] } })

/-! ## Attestation (R478) -/

/-- Bytes 0 to 239 of the report. -/
def State.attestBytes (s : State) (nonce : List Byte) : List Byte :=
  let n := s.upd.running
  let c := s.currentSet
  let bits := b2n s.otp.owner + 2 * b2n (s.on F.UPD_STAT_confirmed) + 4 * b2n (s.on F.QNC_STAT_confirmed)
  let settings := readBytes (s.flash c) (settingsBase + 128) (s.settingsRec c).length
  toBytes 4 0x54535441 ++ toBytes 2 1 ++ toBytes 2 (s.rd F.GLB_ID_part) ++ toBytes 1 (s.rd F.GLB_ID_stepping)
    ++ toBytes 1 s.mode ++ toBytes 1 n ++ toBytes 1 bits ++ toBytes 4 (s.rd F.GLB_IMG_VER_version)
    ++ toBytes 16 Config.uid.toNat ++ nonce ++ bytes512 (s.imageDigest n) ++ bytes512 (Config.sha512 settings)
    ++ toBytes 4 (s.rd F.QNC_SPS_CRC_crc) ++ toBytes 1 s.otp.rollback ++ toBytes 1 s.otp.revoked ++ [0, 0]
    ++ toBytes 8 s.cellNs ++ toBytes 32 Config.devicePublic.toNat

/-- ATTEST (R478). -/
def execAttest (r : Fin 64) (io : HostIo) (s : State) : Host.Outcome State Fault Refusal :=
  .next (s.runDesc r 0x0930 fun s d =>
    if d.op 24 4 < 304 then s.fail d.id 0x12 24
    else
      let b := s.attestBytes ((d.bytes.drop 32).take 32)
      (s.hostResult d io (d.op 16 8) (b ++ bytes512 (Config.deviceSign b))).updEvent 119 (detail [(4, d.tag)]))

end Sys2Proof.Machine
end

