-- ==== Sys2Proof/Machine/HifOps.lean ====
section
/-!
DEFINITION. Machine/HifOps.lean: the abort of an outstanding descriptor in each class (R73), the withdrawal of the commissioning
unlock (R97) and the reset of the HIF (R51).
-/

namespace Sys2Proof.Machine

/-! ## Abort (R73) -/

/-- A MOTION descriptor that is no segment (R179 to R181): it has no further effect. -/
def State.abortImmediate (s : State) (c id : Nat) : State :=
  let ch := s.chain c
  (s.setChain c { ch with
    resumes := ch.resumes.filter (· != id)
    scales := ch.scales.filter (·.desc != id) }).complete id 4

/-- A tuning operation ends with ABORTED (R220). -/
def State.abortTune (s : State) (id : Nat) : State :=
  match s.temper.tune.find? (·.desc == id) with
  | some t => s.endTune t 4
  | none =>
    let n := (s.temper.fra.find? (·.desc == id)).map (·.engine)
    let s := { s with temper := { s.temper with fra := s.temper.fra.filter (·.desc != id) } }.complete id 4
    match n with
    | some n => s.syncTune n
    | none => s

/-- The slot of a host job (R150). -/
def State.hostSlot (s : State) (id : Nat) : Option Nat :=
  ((List.range 1024).map (· + 1024)).find? fun k => (s.job k).any fun j => j.desc == some id

/-- What an abort does to one outstanding descriptor, by its class.  The flag says that it ends as ABORTED; one whose own outcome
comes first keeps that. -/
def State.abortDesc (s : State) (d : Desc) : State × Bool :=
  let op := d.opcode
  if 0x0101 ≤ op ∧ op ≤ 0x0105 then
    match s.abortSeg d.ring d.id with
    | (s, true) => (s, true)
    | (s, false) => (s.complete d.id 4, true)
  else if op / 256 = 1 then (s.abortImmediate d.ring d.id, true)
  else if op = 0x0201 then
    match s.hostSlot d.id with
    | some k => s.abortSlot k
    | none => (s.complete d.id 4, true)
  else if 0x0320 ≤ op ∧ op ≤ 0x0323 then
    ({ s with plan := { s.plan with settings := s.plan.settings.filter (·.desc != d.id) } }.complete d.id 4, true)
  else if 0x0340 ≤ op ∧ op ≤ 0x0344 then (if d.started then s.swgAbort d.id else s.complete d.id 4, true)
  else if op = 0x0403 then (if d.started then s.abortBrakeTest d.id else s.complete d.id 4, true)
  else if op = 0x0510 then (s.abortSwap d.id, true)
  else if op / 256 = 6 then (s.abortTune d.id, true)
  else if op = 0x0401 ∨ op = 0x0802 ∨ op = 0x0806 then (s.abortFlash d.id, true)
  else (s.complete d.id 4, true)

/-- An abort reaches each descriptor of a list; the number that it aborts. -/
def State.abortAll (s : State) (l : List Desc) : State × Nat :=
  l.foldl (fun p d => match p.1.abortDesc d with
    | (s, ok) => (s, p.2 + b2n ok)) (s, 0)

/-! ## The unlock and the reset of the HIF (R51, R97) -/

/-- The unlock is withdrawn with the cause of source 9. -/
def State.withdrawUnlock (s : State) (cause : Nat) : State :=
  if !s.on F.HIF_STAT_host_priv then s
  else ((s.wr F.HIF_STAT_host_priv 0).wr F.GLB_UNLOCK_STAT_state 0).raise 9 2 0xFFFF (detail [(0, cause)])

/-- Event staging is emptied; each record that it held counts as lost. -/
def State.loseStaged (s : State) : State :=
  let s := s.hif.events.foldl (fun s e =>
    (s.wrBit F.HIF_EVT_LOST_lost (e.src % 32) true (e.src / 32)).bump F.HIF_EVT_LOST_CNT_count) s
  { s with hif := { s.hif with events := [] } }

/-- The run state of submission ring `r` after a reset of the HIF. -/
def State.clearSq (s : State) (r : Nat) : State :=
  ((((s.wr F.HIF_SQ_CTL_enable 0 r).setWord (F.HIF_SQ_STAT_head.addr r 0) 0).wr F.HIF_SQ_INFO_staged 0 r).wr
    F.HIF_SQ_INFO_fault 0 r)

/-- The run state of completion ring `r`. -/
def State.clearCq (s : State) (r : Nat) : State :=
  (s.wr F.HIF_CQ_CTL_enable 0 r).setWord (F.HIF_CQ_STAT_tail.addr r 0) (resetWord (F.HIF_CQ_STAT_tail.addr r 0))

/-- The run state of the HIF beside its registers after its reset: its epoch advances (R459). -/
def Hif.cleared (h : Hif) : Hif :=
  { h with sq := [], cq := [], desc := [], compl := [], vector := [], d3hot := false, lostOwed := false,
           epoch := (h.epoch + 1) % 16 }

/-- The HIF's registers after its reset: every ring is disabled, and every vector is masked with nothing pending. -/
def State.clearHifRegs (s : State) : State :=
  let s := (List.range 64).foldl (fun s r => (s.clearSq r).clearCq r) s
  let s := (List.range 128).foldl (fun s v => s.wr F.HIF_MSIX_CTRL_mask 1 v) s
  (List.range 4).foldl (fun s k => s.wr F.HIF_MSIX_PBA_pending 0 k) s

/-- A MOTION segment, which keeps running through a reset of the HIF. -/
def Desc.isSegment (d : Desc) : Bool := decide (0x0101 ≤ d.opcode) && decide (d.opcode ≤ 0x0105)

/-- The reset of the HIF (R51): a function-level reset, a hot reset or link-down. -/
def State.hifReset (s : State) : State :=
  let unlocked := s.on F.HIF_STAT_host_priv
  let s := (s.abortAll (s.hif.desc.filter fun d => !d.isSegment)).1.clearHifRegs
  let lost := s.hif.lostOwed || !s.hif.events.isEmpty
  let s := s.loseStaged
  let s := { s with hif := s.hif.cleared }
  let s := if s.rd F.UPD_STAGE_owner == 1 then s.releaseLock 3 else s
  let s := if lost then s.raise 7 1 0xFFFF (detail [(4, s.rd F.HIF_EVT_LOST_CNT_count)]) else s
  if unlocked then s.withdrawUnlock 2 else s

end Sys2Proof.Machine
end

