-- ==== Sys2Proof/Machine/Modes.lean ====
section
/-!
DEFINITION. Machine/Modes.lean: mode requests and their transitions (R443 to R447), SENTINEL (R448 to R452), the firmware
watchdog (R463) and the errors of DDR (R45, R513).
-/

namespace Sys2Proof.Machine

/-! ## Requests (R443) -/

/-- A write of GLB_MODE_REQ.target by a master. -/
def State.requestMode (s : State) (m : Master) (target : Nat) : State :=
  if s.rd F.GLB_MODE_REQ_status = 1 then s.wrIgnored .plain 0 (F.GLB_MODE_REQ_target.addr 0 0)
  else
    let s := ((s.wr F.GLB_MODE_REQ_target target).wr F.GLB_MODE_REQ_status 1).wr F.GLB_MODE_REQ_why 0
    { s with glb := { s.glb with
      modeReq := some { target := target, priv := s.privileged m, cellAt := s.cellNs, tickAt := s.tick } } }

/-- MODE_REQUEST_RUN (R443). -/
def execModeRequestRun (m : Master) (s : State) : Host.Outcome State Fault Refusal := .next (s.requestMode m 3)
/-- MODE_REQUEST_HOLD (R443). -/
def execModeRequestHold (m : Master) (s : State) : Host.Outcome State Fault Refusal := .next (s.requestMode m 4)
/-- MODE_REQUEST_COMMISSION (R443). -/
def execModeRequestCommission (m : Master) (s : State) : Host.Outcome State Fault Refusal := .next (s.requestMode m 2)
/-- MODE_REQUEST_STAGE (R443). -/
def execModeRequestStage (m : Master) (s : State) : Host.Outcome State Fault Refusal := .next (s.requestMode m 7)
/-- MODE_REQUEST_SENTINEL (R443, R448). -/
def execModeRequestSentinel (m : Master) (s : State) : Host.Outcome State Fault Refusal := .next (s.requestMode m 5)
/-- MODE_REQUEST_STANDBY (R443). -/
def execModeRequestStandby (m : Master) (s : State) : Host.Outcome State Fault Refusal := .next (s.requestMode m 6)
/-- MODE_REQUEST_COLD_KINDLE (R443). -/
def execModeRequestColdKindle (m : Master) (kindle : Bool) (s : State) : Host.Outcome State Fault Refusal :=
  .next (s.requestMode m (b2n kindle))

/-! ## SENTINEL (R448 to R452) -/

/-- The modes from which a SENTINEL cause leads to SENTINEL (R444). -/
def sentinelFrom (m : Nat) : Bool := m == 2 || m == 3 || m == 4 || m == 6 || m == 7

/-- A SENTINEL cause comes: the entry is due within 10 µs (R448, R449). -/
def State.sentinelCause (s : State) (cause : Nat) : State :=
  if sentinelFrom s.mode && s.glb.sentinelDue.isNone then { s with glb := { s.glb with sentinelDue := some cause } } else s

/-- No Forager runs: the planner does nothing more for a chain. -/
def Chain.stopped (ch : Chain) : Chain :=
  { ch with cur := none, queue := [], kept := none, halt := none, holdDue := false, resumes := [], scales := [],
            heldNext := none, req := none }

/-- What the Foragers run stops: chains, settings, tuning operations, posted frames, swaps (R449, R451). -/
def State.stopFirmware (s : State) : State :=
  let s := s.temper.tune.foldl (fun s t => s.endTune t 0xE1) s
  let fra := s.temper.fra
  let s := { s with temper := { s.temper with fra := [] } }
  let s := fra.foldl (fun s f => s.syncTune f.engine) s
  let s := (List.range 16).foldl (fun s c => s.setChain c (s.chain c).stopped) s
  let s := (List.range 8).foldl (fun s g => s.setSeg g { s.seg g with posted := [] }) s
  let s := { s with plan := { s.plan with settings := [], job := [], out := [] } }
  { s with bellows := { s.bellows with swaps := [] } }

/-- The Hive stops, the cores are held in reset, their epochs advance, and Anvil stops (R449, R114, R151). -/
def State.stopCores (s : State) : State :=
  let s := { s with hive := { s.hive with items := [], timers := [] }, anvil := { s.anvil with job := [], eng := [], signals := [] } }
  let s := (List.range 32).foldl (fun s c =>
    s.setCore c { epoch := ((s.core c).epoch + 1) % 16, inReset := true }) s
  let s := (List.range 1024).foldl (fun s c => s.wr F.HIV_CTX0_running 0 c) s
  let s := (List.range 8).foldl (fun s n => s.wr F.ANV_STAT_phase 0 n) s
  s.syncHive.syncAnvil

/-- Every descriptor without an outcome completes with 0xE1 (R75). -/
def State.endDescs (s : State) : State :=
  let s := match s.quench.test with
    | some t => s.abortBrakeTest t.desc
    | none => s
  s.hif.desc.foldl (fun s d => s.complete d.id 0xE1) s

/-- SENTINEL is entered (R449, R452). -/
def State.enterSentinel (s : State) (cause : Nat) : State :=
  let s := (s.setMode 5 cause).wr F.HIF_STAT_sentinel 1
  let s := s.stopFirmware.endDescs.stopCores.swgSentinel.syncHoldover
  let yields := s.rd F.GLB_STAT_role == 1 && s.on F.BLW_STAT_partner_ready
  let glb := { s.glb with sentinelDue := none, sentinelAt := some s.cellNs }
  ({ s with glb := glb, bellows := { s.bellows with yielding := yields } }).syncPair

/-- SENTINEL_ENTRY (R449). -/
def execSentinelEntry (s : State) : Host.Outcome State Fault Refusal :=
  match s.glb.sentinelDue with
  | none => .next s
  | some c =>
    if sentinelFrom s.mode then .next (s.enterSentinel c)
    else .next { s with glb := { s.glb with sentinelDue := none } }

/-- The ramp window that replaces a chain's windows on an engine at cell time `t` (R450).  A stored ramp is used; without one
j and a_min are free values (log entry 19). -/
def ChainWin.toSentinel (w : ChainWin) (t : Nat) (free : Q × Q) : ChainWin :=
  match w.active with
  | none => { w with pending := none }
  | some a =>
    let (j, amin) := w.sentinel.getD free
    if a.ramp && a.v1.le amin then { w with active := some { a with len := 0xFFFFFFFF }, pending := none, exhausted := false }
    else
      let (p, v, acc) := a.eval t
      let r : Window := { t0 := t, len := 0xFFFFFFFF, ramp := true, s0 := p, v0 := v, a0 := acc, s1 := j, v1 := amin,
                          a1 := Q.of 0, ready := true }
      { w with active := some r, pending := none, exhausted := false }

/-- One engine switches its chains to their SENTINEL ramps; free axes with a velocity source ramp to standstill (R450). -/
def State.sentinelEngine (s : State) (n t : Nat) : State :=
  let f := Q.frac (-((s.freshWord.toNat : Int) + 1)) (2 ^ 16)
  let s := (List.range 16).foldl (fun s c =>
    let js := s.chainSlots n c
    if js.isEmpty then s
    else
      let e := s.eng n
      let w := e.chainWin c
      let s := s.setEng n (e.setChainWin c (w.toSentinel t (f.mul (Q.frac 1000 4), f)))
      if w.active.isNone then s else js.foldl (fun s j => s.wr F.TMP_AX_STAT_window 2 n j) s) s.drawn
  (s.slotsOf n).foldl (fun s j =>
    if !s.on F.TMP_AX_CFG_in_chain n j && s.rd F.TMP_AX_CFG_ref_src n j == 2 then
      let e := s.eng n
      s.setEng n (e.setAx j { e.ax j with halted := true })
    else s) s

/-- SENTINEL_RAMP_SWITCH (R450): at the first common instant at least 2 µs after the entry. -/
def execSentinelRampSwitch (s : State) : Host.Outcome State Fault Refusal :=
  match s.glb.sentinelAt with
  | none => .next s
  | some t =>
    if !s.running || decide (cellDiff s.tim.lastInstant (t + 2000) < 0) then .next s
    else
      let s := { s with glb := { s.glb with sentinelAt := none } }
      .next ((List.range 64).foldl (fun s n => s.sentinelEngine n s.tim.lastInstant) s)

/-! ## Transitions (R444 to R447) -/

/-- The transitions that a request may make (R444). -/
def inTable (m t : Nat) : Bool :=
  if t = 5 then sentinelFrom m
  else (m == 2 && (t == 3 || t == 4 || t == 7)) || (m == 3 && (t == 4 || t == 2)) || (m == 4 && (t == 3 || t == 2))
    || (m == 7 && t == 2) || (m == 6 && t == 2)

/-- A transition that needs a privileged master (R443). -/
def needsPriv (m t : Nat) : Bool := t == 2 || t == 7 || t == 5 || m == 6

/-- The conditions of RUN and HOLD (R444): `why`, 0 if all hold. -/
def State.runWhy (s : State) : Nat :=
  if !s.on F.QNC_STAT_confirmed then 1
  else if !s.timingSeg.any (fun g => s.cmbState g == 5) then 2
  else if (List.range 64).any (fun n => s.on F.TMP_STAT_trapped n) then 3
  else if !s.on F.GLB_STAT_ddr_ok then 4
  else 0

/-- The condition of a transition that is not met (R444). -/
def State.whyNot (s : State) (t : Nat) : Nat :=
  let m := s.mode
  let states := (List.range 16).map fun c => (s.chain c).state
  if (m == 2 && (t == 3 || t == 4)) || (m == 4 && t == 3) then
    let w := s.runWhy
    if w ≠ 0 then w else if m == 2 && (s.roleChoice == 3 || s.roleChoice == 4) then 6 else 0
  else if (m == 3 || m == 4) && t == 2 then (if states.all (fun k => k == 0 || k == 4) then 0 else 5)
  else if m == 2 && t == 7 then
    (if !states.all (· == 0) then 5 else if !s.on F.QNC_STAT_sto_all then 7 else 0)
  else 0

/-- A refused request (R443). -/
def State.refuseMode (s : State) (status why : Nat) : State :=
  (s.wr F.GLB_MODE_REQ_status status).wr F.GLB_MODE_REQ_why why

/-- Injections end when the device leaves COMMISSION (R220). -/
def State.leaveCommission (s : State) : State :=
  (s.temper.tune.filter (·.inject)).foldl (fun s t => s.endTune t 0x15) s

/-- Entry into HOLD (R446). -/
def State.holdAll (s : State) : State :=
  ((List.range 16).foldl (fun s c =>
    let k := (s.chain c).state
    if k = 1 ∨ k = 2 ∨ k = 6 then s.holdChain c 7 none else s) s).swgHold

/-- A descriptor number that no descriptor has: a remainder that continues has no completion of its own (R446). -/
def noDesc : Nat := 2 ^ 64

/-- Return to RUN: a chain held with cause 7 continues its remainder as by a RESUME (R446). -/
def State.resumeAll (s : State) : State :=
  (List.range 16).foldl (fun s c =>
    let ch := s.chain c
    if ch.state = 4 ∧ ch.heldCause = 7 then s.resumeChain c noDesc
    else if ch.halt.any (·.cause == 7) then s.setChain c { ch with resumes := ch.resumes ++ [noDesc] }
    else s) s

/-- Entry into STAGE: every Temper engine is disabled (R447). -/
def State.stageAll (s : State) : State :=
  let l := (List.range 64).filter fun n => s.on F.TMP_CTL_enable n
  let s := l.foldl (fun s n => (s.disableEngine n).endProgram n) s
  { s with temper := { s.temper with wasOn := l } }

/-- Return from STAGE: the engines that were enabled are enabled again (R447, R198). -/
def State.unstageAll (s : State) : State :=
  let s := s.temper.wasOn.foldl (fun s n =>
    if s.on F.TMP_STAT_trapped n then s
    else ((s.wr F.TMP_CTL_enable 1 n).wr F.TMP_STAT_stopped 0 n).setEng n { s.eng n with init := true }) s
  { s with temper := { s.temper with wasOn := [] } }

/-- The transition of a request whose conditions hold. -/
def State.applyMode (s : State) (t : Nat) : State :=
  let m := s.mode
  let s := { s with glb := { s.glb with modeReq := none } }.refuseMode 0 0
  if t = 5 then s.enterSentinel 10
  else if m = 2 ∧ t ≠ 7 then
    let s := s.leaveCommission.takeRole t 2
    if s.mode = 4 then s.holdAll else s
  else
    let s := if m = 2 then s.leaveCommission else s
    let s := s.setMode t 2
    if t = 4 then s.holdAll
    else if t = 3 then s.resumeAll
    else if t = 7 then s.stageAll
    else (if m = 7 then s.unstageAll else s).wr F.GLB_STAT_role 0

/-- MODE_TRANSITION (R443 to R447): the pending request is applied or refused.  It is not due before the first common instant at
least 2 µs after its arrival while a cycle runs, and a SENTINEL cause that waits goes first. -/
def execModeTransition (s : State) : Host.Outcome State Fault Refusal :=
  match s.glb.modeReq with
  | none => .next s
  | some q =>
    if (s.running && decide (cellDiff s.tim.lastInstant (q.cellAt + 2000) < 0)) || s.glb.sentinelDue.isSome then .next s
    else
      let refuse := fun (st why : Nat) => ({ s with glb := { s.glb with modeReq := none } }).refuseMode st why
      if needsPriv s.mode q.target && !q.priv then .next (refuse 4 0)
      else if !inTable s.mode q.target then .next (refuse 2 0)
      else
        let w := s.whyNot q.target
        if w = 0 then .next (s.applyMode q.target)
        else
          let down := s.mode == 2 && w == 6 && s.roleChoice == 4
          let s := refuse 3 w
          .next (if down then s.blwEvent 110 3 else s)

/-! ## The firmware watchdog (R463) -/

/-- FW_WATCHDOG_SERVE (R463): only a write of 0xA5A5 by a Forager serves. -/
def execFwWatchdogServe (m : Master) (v : BitVec 16) (s : State) : Host.Outcome State Fault Refusal :=
  if masterId m = 1 ∧ v = 0xA5A5 then .next { s with glb := { s.glb with wdtServed := s.tick } }
  else .next (s.wrIgnored .plain 0 (F.GLB_FW_WDT_serve.addr 0 0))

/-- FW_WATCHDOG_EXPIRY (R448, R463): while the Foragers run. -/
def execFwWatchdogExpiry (s : State) : Host.Outcome State Fault Refusal :=
  if s.upd.boot < 6 ∨ s.mode = 1 ∨ s.mode = 5 then .next s
  else .next ((s.advanceTo (s.glb.wdtServed + ms (s.rd F.GLB_FW_WDT_timeout))).sentinelCause 7)

/-! ## DDR (R45, R448, R488, R513) -/

/-- An address in the Waxbook extension (R487). -/
def State.inExtension (s : State) (a : Nat) : Bool :=
  let b := s.rd64 F.WAX_EXT_BASE_LO_addr F.WAX_EXT_BASE_HI_addr
  decide (b ≤ a) && decide (a < b + 2 ^ 20 * s.rd F.WAX_EXT_SIZE_mib)

/-- The extension fails (R488): a record on its way into it is not written. -/
def State.extensionFault (s : State) : State :=
  let busy := s.wax.busy.any fun r => decide (786432 < r.at_ + r.bytes.length)
  let s := { s with wax := { s.wax with failed := s.wax.failed || busy } }
  (s.wr F.WAX_STAT_ext_fault 1).raise 122 1

/-- DDR_UNCORRECTABLE_READ (R45): the retry succeeds, or the error stands. -/
def execDdrUncorrectableRead (ch : Fin 2) (addr : DWord) (retryOk : Bool) (s : State) : Host.Outcome State Fault Refusal :=
  if retryOk then .next s
  else
    let s := s.raise 15 1 ch addr
    let a := addr.toNat
    if s.inExtension a then .next s.extensionFault
    else if Config.traceBase ≤ a ∧ a < Config.traceBase + Config.traceSize then .next s
    else .next ((s.wr F.GLB_STAT_ddr_ok 0).sentinelCause 5)

/-- DDR_CONTROLLER_FAULT (R448): loss of training or a controller fault. -/
def execDdrControllerFault (ch : Fin 2) (s : State) : Host.Outcome State Fault Refusal :=
  let fell := s.on F.GLB_STAT_ddr_ok
  let s := (s.wr F.GLB_STAT_ddr_ok 0).raise 15 2 ch
  .next (if fell then s.sentinelCause 6 else s)

/-- DDR_CORRECTABLE_THRESHOLD (R513): the corrected errors since the previous record. -/
def execDdrCorrectableThreshold (ch : Fin 2) (n : Word) (s : State) : Host.Outcome State Fault Refusal :=
  .next (s.raise 14 1 ch (detail [(4, n.toNat)]))

end Sys2Proof.Machine
end

