-- ==== Sys2Proof/Machine/Reset.lean ====
section
/-!
DEFINITION. Machine/Reset.lean: the device resets and what they keep (R457, R458, R489), loss of lock of a PLL (R509), and the
boot of Farrier (R462, R453, R477).
-/

namespace Sys2Proof.Machine

/-! ## Device resets (R457 to R461) -/

/-- A register word that a reset keeps (R458). -/
def State.keepWord (s old : State) (f : Fld) : State := s.setWord (f.addr 0 0) (old.word (f.addr 0 0))

/-- The state that every reset of the device leaves: fused values, flash, the parameter area and the host's memory stay, the rest
takes its reset value. -/
def State.cleared (s : State) : State :=
  { s with
    regs := [], glb := {}, hif := {}, hive := {}, anvil := {}, plan := {}, temper := {}, combway := {}, tongs := {}, swage := {}
    adc := {}, bellows := {}, tim := {}, epochs := {}
    quench := { stored := s.quench.stored, record := s.quench.record, railOut := s.quench.railOut, tickAt := s.tick, sampleAt := s.tick }
    upd := { flash0 := s.upd.flash0, flash1 := s.upd.flash1, slot0 := s.upd.slot0, slot1 := s.upd.slot1, set0 := s.upd.set0, set1 := s.upd.set1 }
    wax := {}
    clk := { hot := s.clk.hot, railHeld := s.clk.railHeld, streak := s.clk.streak } }

/-- Waxbook keeps its on-chip records through a reset that is no power-on; records in the extension are lost (R489). -/
def State.keepWax (old s : State) : State :=
  let fill := old.rd F.WAX_FILL_bytes
  let beyond := decide (786432 < fill)
  let s := { s with wax := { store := old.wax.store, onChipEnd := old.wax.onChipEnd } }
  let s := (s.wr F.WAX_FILL_bytes (if beyond then old.wax.onChipEnd else fill)).put F.WAX_STAT_ext_lost beyond
  ((s.put F.WAX_STAT_full (old.on F.WAX_STAT_full)).wr F.WAX_STAT_lost (old.rd F.WAX_STAT_lost)).wr F.WAX_SEQ_next
    (old.rd F.WAX_SEQ_next)

/-- The unlock falls with the device; the withdrawal is raised once the HIF runs again (R97, R513). -/
def State.unlockFell (old s : State) : State :=
  if old.on F.HIF_STAT_host_priv then s.raise 9 2 0xFFFF (detail [(0, 3)]) else s

/-- A device reset other than power-on, with its cause (R457, R458). -/
def State.deviceReset (s : State) (cause : Nat) : State :=
  let r := s.cleared.keepWord s F.GLB_DBG_dbg_open |>.keepWord s F.CLK_RST_CAUSE_cause |>.keepWord s F.CLK_PLL_STAT_locked
  let r := r.put F.CLK_RST_CTL_kindle_next (s.on F.CLK_RST_CTL_kindle_next)
  let r := (r.bump F.CLK_RST_CAUSE_warm).wr F.CLK_RST_CAUSE_cause cause
  State.unlockFell s (State.keepWax s r)

/-- A power-on reset (R457, R458): ticks count from it, and DDR and SRAM hold nothing. -/
def State.powerOn (s : State) : State :=
  let r := { s with tick := 0 }.cleared
  State.unlockFell s { r with sram := [], ddr := [] }

/-- POWER_ON_RESET (R457): the supplies rise, or a monitor falls below its limit. -/
def execPowerOnReset (s : State) : Host.Outcome State Fault Refusal :=
  .next { s.powerOn with clk := {}, quench := { s.powerOn.quench with railOut := false } }

/-- PIN_RESET (R507): RESET_N is low for `ns`; between 1 µs and 10 µs whether it resets is free (log entry 5). -/
def execPinReset (ns : Word) (s : State) : Host.Outcome State Fault Refusal :=
  if ns.toNat < 1000 then .next s
  else if 10000 ≤ ns.toNat then .next (s.deviceReset 2)
  else .next (if s.freshWord.toNat.testBit 0 then s.drawn.deviceReset 2 else s.drawn)

/-- SOFTWARE_RESET (R457, R90): a write of 1 to CLK_RST_CTL.dev_reset. -/
def execSoftwareReset (m : Master) (s : State) : Host.Outcome State Fault Refusal :=
  if !s.privileged m then .next (s.pvDropped m false true (F.CLK_RST_CTL_dev_reset.addr 0 0))
  else if s.glb.posted.any (·.off == F.CLK_RST_CTL_dev_reset.addr 0 0) then
    .next (s.wrIgnored .plain 0 (F.CLK_RST_CTL_dev_reset.addr 0 0))
  else .next (s.deviceReset 3)

/-- FARRIER_WATCHDOG_RESET (R457). -/
def execFarrierWatchdogReset (s : State) : Host.Outcome State Fault Refusal := .next (s.deviceReset 4)

/-- STALE_RESPONSE_DISCARD (R460): the response changes nothing. -/
def execStaleResponseDiscard (s : State) : Host.Outcome State Fault Refusal := .next s

/-! ## PLLs (R509) -/

/-- The Ethernet ports and Bellows stop (R509). -/
def State.ethClockLost (s : State) : State :=
  let s := (List.range 2).foldl (fun s n =>
    if s.on F.ETH_STAT_link n then (s.wr F.ETH_STAT_link 0 n).wr F.ETH_STAT_link_chg 1 n else s) s
  let s := (List.range 4).foldl (fun s n =>
    if bitAt (s.rd F.BLW_STAT_lanes) n then (s.wrBit F.BLW_STAT_lanes n false).blwEvent 110 1 (detail [(0, n)]) else s) s
  if s.on F.BLW_STAT_link then ((s.wr F.BLW_STAT_link 0).blwEvent 110 3).syncPair else s

/-- Quench's clock stops: its dynamic enables stop toggling, its outputs turn off and its Guard windows close (R359). -/
def State.safClockLost (s : State) : State :=
  let s := { s with quench := { s.quench with safStopped := true } }.wr F.QNC_OUT_STAT_on 0
  let s := (List.range 16).foldl (fun s b => if 2 ≤ s.rd F.QNC_BRK_STAT_state b then s.wr F.QNC_BRK_STAT_state 1 b else s) s
  (List.range 8).foldl (fun s g => s.setGuards g true) s

/-- PLL_UNLOCK (R509): 0 FAB, 1 APP, 2 MEM, 3 HST, 4 CMB, 5 ETH, 6 SAF. -/
def execPllUnlock (k : Fin 7) (s : State) : Host.Outcome State Fault Refusal :=
  let s := ((s.wrBit F.CLK_PLL_STAT_locked k false).wrBit F.CLK_PLL_STAT_unlock k true).raise 127 1 0xFFFF (detail [(0, k)])
  .next (match k.val with
    | 0 => s.deviceReset 6
    | 1 => s.sentinelCause 9
    | 2 => s.sentinelCause 9
    | 3 => s.hifReset
    | 4 => s.deviceReset 6
    | 5 => s.ethClockLost
    | _ => s.safClockLost)

/-! ## Boot (R462) -/

def State.bootTo (s : State) (n : Nat) : State := { s with upd := { s.upd with boot := n } }

/-- RESET_RELEASE (R462): not while the device is hot or a rail is out (R498, R502). -/
def execResetRelease (s : State) : Host.Outcome State Fault Refusal :=
  .next (if s.upd.boot = 0 ∧ !s.clk.hot ∧ s.clk.railHeld = 0 then s.bootTo 1 else s)

/-- PLL_LOCK (R462). -/
def execPllLock (s : State) : Host.Outcome State Fault Refusal :=
  .next (if s.upd.boot = 1 then (s.bootTo 2).wr F.CLK_PLL_STAT_locked 0x7F else s)

/-- OTP_READ_DONE (R462): the fused values show, and a KINDLE request is taken (R444). -/
def execOtpReadDone (kindlePin : Bool) (s : State) : Host.Outcome State Fault Refusal :=
  if s.upd.boot ≠ 2 then .next s
  else
    let s := (List.range 4).foldl (fun s k => s.wr F.GLB_UID_uid (Config.uid.toNat / 2 ^ (32 * k) % 2 ^ 32) k) (s.bootTo 3)
    let s := ((s.put F.GLB_STAT_owned s.otp.owner).showFuses.showSlot 0).showSlot 1
    let next := s.on F.CLK_RST_CTL_kindle_next
    let cause := if kindlePin then 11 else if next ∧ s.upd.ddrFailed then 13 else 14
    if kindlePin || next then
      let s := s.wr F.CLK_RST_CTL_kindle_next 0
      .next ({ s with upd := { s.upd with ddrFailed := false } }.enterKindle cause)
    else .next s

/-- DDR_TRAINING_DONE (R462). -/
def execDdrTrainingDone (ok : Bool) (s : State) : Host.Outcome State Fault Refusal :=
  if s.upd.boot ≠ 4 then .next s
  else if ok then .next ((s.bootTo 5).wr F.GLB_STAT_ddr_ok 1)
  else
    let s := (s.wr F.CLK_RST_CTL_kindle_next 1).deviceReset 3
    .next { s with upd := { s.upd with ddrFailed := true } }

/-- FORAGER_START (R462): not where the regions of DDR overlap or do not fit (R32). -/
def execForagerStart (regionsFit : Bool) (s : State) : Host.Outcome State Fault Refusal :=
  if s.upd.boot ≠ 5 ∨ !regionsFit then .next s
  else
    let s := (List.range 8).foldl (fun s n => s.wr F.ANV_CTL_enable 1 n) ((s.bootTo 6).wr F.HIV_CTL_enable 1)
    .next { s with glb := { s.glb with wdtServed := s.tick } }.syncAnvil

/-- A refused migration: the image rejects itself and resets the device (R477). -/
def State.refuseMigration (s : State) (format reason : Nat) : State :=
  let n := s.upd.running
  let s := s.setSlot n { s.slotRec n with state := 5, reject := 12, reason := reason }
  (s.updEvent 117 (detail [(0, format), (2, s.imageFormat), (4, reason)])).deviceReset 3

/-- The slot of the settings that the running image reads: the valid one of highest generation in a format up to its own (R476). -/
def State.readableSet (s : State) : Option Nat :=
  let ok := fun n => (s.settingsRec n).valid && decide ((s.settingsRec n).format ≤ s.imageFormat)
  if ok 0 && (!ok 1 || decide (s.upd.set1.generation ≤ s.upd.set0.generation)) then some 0
  else if ok 1 then some 1
  else none

/-- SETTINGS_MIGRATION (R477): the settings are read; at the first start of an image they are converted.  `content` is the
conversion, `refusal` the reason that the image gives for a refusal; for a format that is too old and without one, the reason is a
free value (log entry 5). -/
def execSettingsMigration (content : List Byte) (refusal : Option Word) (s : State) : Host.Outcome State Fault Refusal :=
  if s.upd.boot ≠ 6 ∨ s.mode ≠ 0 then .next s
  else
    let s := s.bootTo 7
    match s.readableSet with
    | none => .next s
    | some n =>
      let r := s.settingsRec n
      let other := if n = 0 then 1 else 0
      if r.format = s.imageFormat then
        let moved := (s.settingsRec other).valid && (s.settingsRec other).format != r.format
        .next { s.useSettings n with upd := { s.upd with migrated := if moved then some n else none } }
      else
        let old := decide (r.format < field (s.ingotHeader s.upd.running) 354 2)
        let why := if old && refusal.isNone then some s.freshWord else refusal
        match why with
        | some reason => .next ((if refusal.isNone then s.drawn else s).refuseMigration r.format reason.toNat)
        | none =>
          let s := (s.writeSettings other s.imageFormat ((r.generation + 1) % 2 ^ 32) content).useSettings other
          .next ({ s with upd := { s.upd with migrated := some other } }.updEvent 116
            (detail [(0, r.format), (2, s.imageFormat)]))

/-- END_OF_BOOT (R444, R462): `startRun` is the settings' start mode. -/
def execEndOfBoot (startRun : Bool) (s : State) : Host.Outcome State Fault Refusal :=
  if s.upd.boot ≠ 7 ∨ s.mode ≠ 0 then .next s
  else
    let s := s.bootTo 8
    let s := if startRun && s.on F.QNC_STAT_confirmed then s.takeRole 3 1 else s
    .next (if s.mode = 0 then s.setMode 2 1 else s)

end Sys2Proof.Machine
end

