-- ==== Sys2Proof/Machine/Clk.lean ====
section
/-!
DEFINITION. Machine/Clk.lean: the supply monitors (R498) and the thermal sensors (R502), with sources 124 to 126 (R510).
-/

namespace Sys2Proof.Machine

/-! ## Supplies (R496, R498) -/

/-- The rails that Quench runs from: VDD_QN and VIO_QN. -/
def quenchRail (i : Nat) : Bool := i == 3 || i == 4

/-- A deviation from nominal, in per mille, beyond the limit that resets a rail's domain. -/
def railOut (i : Nat) (d : Int) : Bool :=
  if quenchRail i then decide (80 < d.natAbs) else decide (d < -80) || decide (100 < d)

/-- A count of samples in a row, up to the third, at which an excursion has lasted 2 µs. -/
def runOf (n : Nat) (out : Bool) : Nat := if out then min 3 (n + 1) else 0

def State.streak (s : State) (i : Nat) : Nat × Nat × Nat := lookup (fun _ => (0, 0, 0)) s.clk.streak i

/-- One rail of a sample: an excursion beyond ±5 % latches and raises source 126. -/
def State.sampleRail (s : State) (i : Nat) (d : Int) : State :=
  let (lo, hi, out) := s.streak i
  let lo' := runOf lo (d < -50)
  let hi' := runOf hi (50 < d)
  let out' := runOf out (railOut i d)
  let s := { s with clk := { s.clk with streak := store (fun _ => (0, 0, 0)) s.clk.streak i (lo', hi', out') } }
  let s := if lo' = 3 ∧ lo < 3 then (s.wrBit F.CLK_SUP_STAT_low i true).raise 126 1 0xFFFF (detail [(0, i), (1, 1)]) else s
  if hi' = 3 ∧ hi < 3 then (s.wrBit F.CLK_SUP_STAT_high i true).raise 126 1 0xFFFF (detail [(0, i), (1, 2)]) else s

/-- Rails that have been out for 2 µs. -/
def State.railsOut (s : State) : List Nat := (List.range 11).filter fun i => (s.streak i).2.2 == 3

/-- SUPPLY_MONITOR_SAMPLE (R498): the deviation of each rail in per mille, by index. -/
def execSupplyMonitorSample (devs : List (BitVec 16)) (s : State) : Host.Outcome State Fault Refusal :=
  let s := (List.range 11).foldl (fun s i => s.sampleRail i (sgn 16 (devs.getD i 0).toNat)) s
  let quench := (List.range 11).any fun i => quenchRail i && railOut i (sgn 16 (devs.getD i 0).toNat)
  let s := if s.railsOut.any quenchRail then s.quenchRailFault else if quench then s else s.quenchRailReturn
  let held := (s.railsOut.filter fun i => !quenchRail i).foldl (fun m i => m + 2 ^ i) 0
  let fresh := held != 0 && s.clk.railHeld == 0
  let s := { s with clk := { s.clk with railHeld := held } }
  .next (if fresh then s.powerOn else s)

/-! ## Temperature (R502) -/

/-- The warning level (R509). -/
def State.warnLevel (s : State) : Int := clampI 60 105 (s.rd F.CLK_THERM_CFG_warn : Int)

/-- The hottest of the four readings and its sensor, the lower one of equals. -/
def hottest (l : List Int) : Int × Nat :=
  (List.range l.length).foldl (fun p i => if p.1 < l.getD i 0 then (l.getD i 0, i) else p) (l.headD 0, 0)

/-- CLK_TEMP shows a sample. -/
def State.showTemp (s : State) (t : Int) (sensor : Nat) : State :=
  let peak := if s.clk.peaked then max t (s.rdS F.CLK_TEMP_peak) else t
  let s := ((s.wrS F.CLK_TEMP_now t).wr F.CLK_TEMP_sensor sensor).wrS F.CLK_TEMP_peak peak
  { s with clk := { s.clk with peaked := true } }

/-- THERMAL_SAMPLE (R502): the readings of the four sensors, signed °C. -/
def execThermalSample (r0 r1 r2 r3 : BitVec 8) (s : State) : Host.Outcome State Fault Refusal :=
  let l := [sgn 8 r0.toNat, sgn 8 r1.toNat, sgn 8 r2.toNat, sgn 8 r3.toNat]
  let (t, k) := hottest l
  let s := s.showTemp t k
  let d := detail [(0, k), (4, i32 t)]
  if s.clk.hot then .next (if t < 100 then { s with clk := { s.clk with hot := false } } else s)
  else if 125 ≤ t then
    let s := s.deviceReset 7
    .next { s with clk := { s.clk with hot := true } }
  else
    let warn := decide (s.warnLevel ≤ t)
    let new := warn && !s.clk.warned
    let s := { s with clk := { s.clk with warned := warn || (s.clk.warned && decide (s.warnLevel - 5 ≤ t)) } }
    if 110 ≤ t ∧ !s.clk.critical then
      .next (({ s with clk := { s.clk with critical := true } }.raise 125 1 0xFFFF d).sentinelCause 8)
    else .next (if new then s.raise 124 1 0xFFFF d else s)

end Sys2Proof.Machine
end

