-- ==== Sys2Proof/Machine/Regs.lean ====
section
/-!
DEFINITION. Machine/Regs.lean: how a register reads (R13, R19, R82 to R84, R88 to R91), and when its WD and WS fields take a
write (R85 to R87).
-/

namespace Sys2Proof.Machine

/-! ## Rows and fields -/

/-- The row of the register at a BAR0 offset, with its instance numbers; none where no chapter names one (R19). -/
def regRow (off : Nat) : Option (RegRow × Nat × Nat) := findRow off regTable

/-- The bits of a field in its register word. -/
def Fld.mask (f : Fld) : Nat := (2 ^ f.width - 1) * 2 ^ f.lo

/-- The bits of a register that bear an access code. -/
def RegRow.maskOf (r : RegRow) (c : AccCode) : Nat :=
  (r.fields.filter fun f => f.acc.contains c).foldl (fun m f => m + f.fld.mask) 0

/-- The word with the bits of a mask cleared. -/
def clearBits (w : Word) (m : Nat) : Word := w &&& ~~~(BitVec.ofNat 32 m)

/-- A channel that Quench relies on: its WD fields and its enable are PV too (R268). -/
def State.quenchChannel (s : State) (r : RegRow) (i : Nat) : Bool := r.unit == .tng && s.on F.TNG_CH_CFG_quench i

/-- Whether a field is PV now (R14, R268). -/
def State.isPv (s : State) (r : RegRow) (i : Nat) (f : FieldRow) : Bool :=
  f.acc.contains .pv || (s.quenchChannel r i && (f.acc.contains .wd || f.fld == F.TNG_CH_CTL_enable))

/-- The bits of a register that an access by a master may not reach (R90). -/
def State.pvMask (s : State) (m : Master) (r : RegRow) (i : Nat) : Nat :=
  if s.privileged m then 0 else (r.fields.filter (s.isPv r i)).foldl (fun a f => a + f.fld.mask) 0

/-! ## Reading -/

/-- A WP register is busy: a posted write has not landed (R88). -/
def State.busy (s : State) (off : Nat) : Bool := s.glb.posted.any (·.off == off)

/-- Seconds of the failure wait that remain (R96). -/
def State.waitLeft (s : State) : Nat :=
  match s.glb.unlock.waitEnd with
  | some t => (t - s.tick + sec 1 - 1) / sec 1
  | none => 0

/-- The value of a register through the side path, which changes nothing (R84). -/
def State.view (s : State) (off : Nat) : Word :=
  let w := s.word off
  if off = F.GLB_UNLOCK_STAT_wait.addr 0 0 then setBits w F.GLB_UNLOCK_STAT_wait.lo F.GLB_UNLOCK_STAT_wait.width s.waitLeft
  else if s.busy off then setBits w 31 1 1
  else w

/-- A read or a visit of the scrubber finds the copies of a register disagreeing: reported once (R89). -/
def State.noteT3 (s : State) (off : Nat) : State :=
  match s.copies off with
  | none => s
  | some (b, c, told) =>
    if told then s
    else
      let g := { s.glb with t3copies := store (fun _ => none) s.glb.t3copies off (some (b, c, true)) }
      (({ s with glb := g }.bump F.GLB_T3_STAT_disagree).wr F.GLB_T3_LAST_offset off).raise 13 1 0xFFFF
        (detail [(4, off)])

/-- The state behind a meaning that always answers a next state. -/
def State.after (s : State) (o : Host.Outcome State Fault Refusal) : State :=
  match o with
  | .next t => t
  | _ => s

/-- A read whose chapter gives it more than a value: the time snapshot (R355), the queue pop and the copies of the ADC (R420,
R421), the sampled registers of Tongs (R273). -/
def State.readSpecial (s : State) (m : Master) (off : Nat) : Option State :=
  if off = F.TIM_NOW_NS_ns.off then some (s.after (execTimeSnapshotRead m s))
  else if off = F.ADC_Q_POP_bytes.off then some (s.after (execAdcQueuePop m s))
  else if F.ADC_LAST_LO_code.off ≤ off ∧ off < F.ADC_LAST_LO_code.off + 192 ∧ off % 8 = 0 then
    some (s.after (execAdcLastRead m (Fin.ofNat 24 ((off - F.ADC_LAST_LO_code.off) / 8)) s))
  else match (s.snapshotRead m off).or (s.adcCopy m off) with
    | some w => some { s with rdata := w }
    | none => (s.tngRead off).map fun p => { p.2 with rdata := p.1 }

/-- A 32-bit read of a BAR0 register by a master (R82 to R84, R90): `rdata` is the answer. -/
def State.readReg (s : State) (m : Master) (off : Nat) : State :=
  match regRow off with
  | none => { s with rdata := 0 }
  | some (r, i, _) =>
    let s := s.noteT3 off
    match s.readSpecial m off with
    | some s => s
    | none =>
      let pv := s.pvMask m r i
      let w := clearBits (s.view off) pv
      let rc := if masterId m = 5 then 0 else (BitVec.ofNat 32 (r.maskOf .rc) &&& ~~~(BitVec.ofNat 32 pv)).toNat
      let s := if rc = 0 then s else s.setWord off (clearBits (s.word off) rc)
      let s := if rc ≠ 0 ∧ off = F.CLK_TEMP_peak.off then { s with clk := { s.clk with peaked := false } } else s
      let s := if pv = 0 then s else s.pvDropped m false false off
      { s with rdata := w }

/-- The settings window: the bytes of the current settings slot (R49, R464). -/
def State.settingsBytes (s : State) (o n : Nat) : List Byte :=
  readBytes (if s.rd F.UPD_SET_slot = 0 then s.upd.flash0 else s.upd.flash1) (0x06010000 + o) n

/-! ## Gates of WD fields (R85) -/

/-- The sequencer whose range holds an entry of the ADC's table (R423). -/
def State.entryHeld (s : State) (e : Nat) : Bool :=
  (List.range 2).any fun q => decide (s.rd F.ADC_SEQ_CFG_first q ≤ e) && decide (e ≤ s.rd F.ADC_SEQ_CFG_last q)
    && !s.on F.ADC_SEQ_STAT_stopped q

/-- The unit of a register is enabled, so that its WD fields take no change (R85 and each chapter's map). -/
def State.unitOn (s : State) (u : RegUnit) (i off : Nat) : Bool :=
  match u with
  | .plain | .qnc => false
  | .sq => s.on F.HIF_SQ_CTL_enable i
  | .cq => s.on F.HIF_CQ_CTL_enable i
  | .hiv => s.on F.HIV_CTL_enable && off != F.HIV_SPILL_SIZE_entries.off
  | .trc => s.on F.HIV_TRC_CTL_enable
  | .ctx => s.rd F.HIV_CTX0_state i != 0 && s.rd F.HIV_CTX0_state i != 3
  | .anv => s.on F.ANV_CTL_enable i
  | .anvg => (List.range 8).any fun n => s.on F.ANV_CTL_enable n
  | .tmp => !s.on F.TMP_STAT_stopped i
  | .tng => s.on F.TNG_CH_CTL_enable i
  | .prb => s.on F.TNG_PRB_CFG_arm i
  | .swg => s.on F.SWG_CH_CTL_enable i
  | .seg =>
    if F.CMB_WGL_CTL_start.addr i 0 ≤ off ∧ off ≤ F.CMB_WGL_STAT_busy.addr i 0 then s.on F.CMB_WGL_STAT_busy i
    else !s.on F.CMB_SEG_STAT_stopped i
  | .ptp => s.on F.TIM_PTP_enable i
  | .cmp => s.on F.TIM_CMP_CFG_arm i
  | .cap => s.on F.TIM_CAP_CFG_enable i
  | .tpo => s.on F.TIM_TPO_CFG_enable i
  | .ethp => s.on F.ETH_CTL_enable i
  | .ethz => s.on F.ETH_ZONE_CFG_enable
  | .adc => false
  | .adcs => !s.on F.ADC_SEQ_STAT_stopped i
  | .adce => s.entryHeld i
  | .blw => s.on F.BLW_CTL_enable
  | .wax => s.on F.WAX_CTL_enable

/-! ## Strobe groups (R86, R87) -/

/-- Nibble `k` of a mapping register. -/
def State.groupAt (s : State) (f : Fld) (k : Nat) : Nat := bitsOf (s.rd f) (4 * k) 4

/-- The group of a chain, a swarm, a segment. -/
def State.chainGroup (s : State) (c : Nat) : Nat :=
  if c < 8 then s.groupAt F.GLB_SG_CHAIN0_group c else s.groupAt F.GLB_SG_CHAIN1_group (c - 8)
def State.segGroup (s : State) (g : Nat) : Nat := s.groupAt F.GLB_SG_SEG_group g

/-- The group that owns the WS fields of a register (R224, R314). -/
def State.regGroup (s : State) (u : RegUnit) (i j : Nat) : Nat :=
  if u = .seg then s.segGroup i else s.chainGroup (s.rd F.TMP_AX_CFG_chain i j)

/-- A group is strobed and not yet applied. -/
def State.groupPending (s : State) (g : Nat) : Bool := bitAt (s.rd F.GLB_STROBE_STAT_pending) g

/-- The staged copy of a register; without one it equals the active copy. -/
def State.stagedWord (s : State) (off : Nat) : Word := (lookup (fun _ => none) s.glb.staged off).getD (s.word off)

end Sys2Proof.Machine
end

