-- ==== Sys2Proof/Machine/Waxbook.lean ====
section
/-!
DEFINITION. Machine/Waxbook.lean: the recorder and its store (R481 to R491), the TRACE ring (R492) and COUNTERS (R493).
-/

namespace Sys2Proof.Machine

/-- Bytes of the on-chip store, and of the whole store (R487). -/
def onChipSize : Nat := 786432
def State.storeSize (s : State) : Nat := onChipSize + 2 ^ 20 * s.rd F.WAX_EXT_SIZE_mib

/-! ## Triggers (R481 to R483) -/

/-- SOFTWARE_TRIGGER (R482): a write of WAX_SOFT. -/
def execSoftwareTrigger (mask : Word) (s : State) : Host.Outcome State Fault Refusal :=
  .next ((List.range 32).foldl (fun s t =>
    if mask.getLsbD t && s.rd F.WAX_TRIG0_kind t == 3 then s.fireOther t 3 0 else s) s)

/-! ## Snapshots (R484, R485) -/

/-- The entries of a list up to its end: offset and count of words. -/
def State.listEntries (s : State) (l : Nat) : List (Nat × Nat) :=
  let es := (List.range 64).map fun i => s.rd F.WAX_LIST_entry l i
  let upto := es.takeWhile fun e => !bitAt e 31
  let last := (es.drop upto.length).take 1
  ((upto ++ last).map fun e => (bitsOf e 0 23, bitsOf e 24 7)).filter fun p => p.2 != 0

/-- The offsets of a list's words, in the order of R485. -/
def State.listOffsets (s : State) (l : Nat) : List Nat :=
  (s.listEntries l).flatMap fun p => (List.range p.2).map fun k => p.1 + 4 * k

/-- The owning block is in reset, or its clock has stopped: ETH and BLW run from the ETH PLL (R16, R509), Quench from its own. -/
def State.blockDark (s : State) (off : Nat) : Bool :=
  match blockIndex off with
  | 10 | 13 => !bitAt (s.rd F.CLK_PLL_STAT_locked) 5
  | 11 => s.quench.held || s.quench.safStopped
  | _ => false

/-- One word of a snapshot: its value, and the marks PV and MISSING (R485). -/
def State.snapWord (s : State) (off : Nat) : Word × Bool × Bool :=
  match regRow off with
  | none => (0, false, true)
  | some (r, i, _) =>
    let pv := r.fields.any (s.isPv r i)
    if s.blockDark off || r.fields.any (·.acc.contains .mb) then (0, false, true) else (s.view off, pv, false)

/-! ## Records (R486, R487) -/

/-- The bytes of the record of a firing, its check value in place. -/
def State.waxRecord (s : State) (f : Firing) : List Byte :=
  let l := s.rd F.WAX_TRIG0_list f.trig
  let ws := (s.listOffsets l).map s.snapWord
  let n := ws.length
  let body := ws.flatMap (fun w => toBytes 4 w.1.toNat) ++ (if n % 2 = 1 then [0, 0, 0, 0] else [])
  let marks := b2n (ws.any (·.2.1)) + 2 * b2n (ws.any (·.2.2)) + 4 * b2n f.provisional
  let head := toBytes 2 (32 + body.length) ++ toBytes 1 f.trig ++ toBytes 1 (l + 16 * s.rd F.WAX_STAT_epoch)
    ++ toBytes 4 (s.rd F.WAX_SEQ_next) ++ toBytes 8 f.time ++ toBytes 2 f.src ++ toBytes 2 f.inst ++ toBytes 4 f.code
    ++ toBytes 1 f.mode ++ toBytes 1 marks ++ toBytes 2 n
  head ++ toBytes 4 (crc32c (head ++ [0, 0, 0, 0] ++ body)) ++ body

/-- Recording stops: the record is not written, source 121 (R487). -/
def State.waxStop (s : State) : State :=
  ((s.wr F.WAX_STAT_full 1).bump F.WAX_STAT_lost).raise 121 1

/-- Whether the store takes a record of a length at WAX_FILL (R487). -/
def State.waxFits (s : State) (len : Nat) : Bool :=
  let e := s.rd F.WAX_FILL_bytes + len
  decide (e ≤ s.storeSize) && (decide (e ≤ onChipSize) || (!s.on F.WAX_STAT_ext_fault && s.mode != 5))

/-- RECORD_TAKE (R483, R485, R487). -/
def execRecordTake (s : State) : Host.Outcome State Fault Refusal :=
  match s.wax.queue with
  | [] => .next s
  | f :: rest =>
    if s.wax.busy.isSome || s.on F.WAX_STAT_full || !s.on F.WAX_CTL_enable then .next s
    else
      let b := s.waxRecord f
      let s := { s with wax := { s.wax with queue := rest } }.wr F.WAX_STAT_pending rest.length
      if !s.waxFits b.length then .next s.waxStop
      else
        let s := { s with wax := { s.wax with busy := some { bytes := b, at_ := s.rd F.WAX_FILL_bytes }, failed := false } }
        .next (s.wr F.WAX_STAT_busy 1)

/-- Bytes of a record land from a store offset on: on chip, then in the extension. -/
def State.storeBytes (s : State) (a : Nat) (b : List Byte) : State :=
  let n := onChipSize - a
  let ext := s.rd64 F.WAX_EXT_BASE_LO_addr F.WAX_EXT_BASE_HI_addr + (max a onChipSize - onChipSize)
  { s with
    wax := { s.wax with store := writeBytes s.wax.store a (b.take n) }
    ddr := writeBytes s.ddr ext (b.drop n) }

/-- The sequence number before one (R486). -/
def seqBefore (n : Nat) : Nat := if n = 1 then 2 ^ 32 - 1 else n - 1
def seqAfter (n : Nat) : Nat := if n = 2 ^ 32 - 1 then 1 else n + 1

/-- The store is emptied: source 123 with the last record's sequence number, free where there was none (R490, log entry 5). -/
def State.waxClear (s : State) : State :=
  let none := s.rd F.WAX_FILL_bytes == 0
  let seq := if none then s.freshWord.toNat else seqBefore (s.rd F.WAX_SEQ_next)
  let s := if none then s.drawn else s
  let s := (((s.wr F.WAX_FILL_bytes 0).wr F.WAX_CUR_offset 0).wr F.WAX_STAT_full 0).wr F.WAX_STAT_lost 0
  let s := (s.wr F.WAX_STAT_ext_fault 0).wr F.WAX_STAT_ext_lost 0
  { s with wax := { s.wax with store := [], onChipEnd := 0, clearWaiting := false } }.raise 123 1 0xFFFF (detail [(4, seq)])

/-- WAXBOOK_RECORD_COMPLETE (R487, R488): `extFail` says that a write to the extension failed. -/
def execWaxbookRecordComplete (extFail : Bool) (s : State) : Host.Outcome State Fault Refusal :=
  match s.wax.busy with
  | none => .next s
  | some r =>
    let e := r.at_ + r.bytes.length
    let ext := decide (onChipSize < e)
    let s := if ext && !s.wax.failed && (extFail || s.mode == 5) then s.extensionFault else s
    let lost := ext && s.wax.failed
    let s := { s with wax := { s.wax with busy := none, failed := false } }.wr F.WAX_STAT_busy 0
    let s := if lost then s.waxStop
      else
        let s := (s.storeBytes r.at_ r.bytes).wr F.WAX_FILL_bytes e
        let s := s.wr F.WAX_SEQ_next (seqAfter (s.rd F.WAX_SEQ_next))
        if ext then s else { s with wax := { s.wax with onChipEnd := e } }
    .next (if s.wax.clearWaiting then s.waxClear else s)

/-- WAXBOOK_CLEAR (R490): a write of 1 to WAX_CTL.clear. -/
def execWaxbookClear (m : Master) (s : State) : Host.Outcome State Fault Refusal :=
  if !s.privileged m then .next (s.pvDropped m false true (F.WAX_CTL_clear.addr 0 0))
  else if s.wax.busy.isSome then .next { s with wax := { s.wax with clearWaiting := true } }
  else .next s.waxClear

/-! ## The cursor window (R491) -/

/-- A byte of the store. -/
def State.storeByte (s : State) (p : Nat) : Byte :=
  if p < onChipSize then readByte s.wax.store p
  else readByte s.ddr (s.rd64 F.WAX_EXT_BASE_LO_addr F.WAX_EXT_BASE_HI_addr + (p - onChipSize))

/-- The start of the record that holds a store offset, walking from the record at `a`. -/
def State.recordStart (s : State) (p : Nat) : Nat → Nat → Nat
  | 0, a => a
  | fuel + 1, a =>
    let len := (s.storeByte a).toNat + 256 * (s.storeByte (a + 1)).toNat
    if len = 0 ∨ p < a + len then a else s.recordStart p fuel (a + len)

/-- CURSOR_WINDOW_READ (R491): a read of `size` bytes at BAR4 0x40_0000 + `w`. -/
def execCursorWindowRead (m : Master) (w : BitVec 22) (size : BitVec 4) (s : State) : Host.Outcome State Fault Refusal :=
  let off := 0x400000 + w.toNat
  if size ≠ 4 ∨ w.toNat % 4 ≠ 0 then .next { s.badAccess true false off with rdata := 0xFFFFFFFF }
  else
    let p := 8 * s.rd F.WAX_CUR_offset + w.toNat
    if s.rd F.WAX_FILL_bytes ≤ p then .next { s with rdata := 0 }
    else if onChipSize ≤ p ∧ (s.on F.WAX_STAT_ext_fault ∨ s.mode = 5) then .next { s with rdata := 0xFFFFFFFF }
    else
      let a := s.recordStart p (p / 32 + 1) 0
      if !s.privileged m ∧ a + 32 ≤ p ∧ bitAt (s.storeByte (a + 25)).toNat 0 then
        .next { s.pvDropped m true false off with rdata := 0 }
      else .next { s with rdata := BitVec.ofNat 32 (le ((List.range 4).map fun i => s.storeByte (p + i))) }

/-! ## TRACE (R492) -/

/-- TRC_START (R492). -/
def execTrcStart (r : Fin 64) (s : State) : Host.Outcome State Fault Refusal :=
  .next (s.runDesc r 0x0701 fun s d =>
    let base := d.op 32 8
    let k := d.op 40 1
    if base < Config.traceBase ∨ Config.traceBase + Config.traceSize < base + 2 ^ (20 + k) then s.fail d.id 0x12 32
    else
      let s := s.wr F.HIV_TRC_CTL_enable 0
      let s := s.wr64 F.HIV_TRC_BASE_LO_addr F.HIV_TRC_BASE_HI_addr base
      let s := ((s.put F.HIV_TRC_CTL_wrap (bitAt (d.op 41 1) 0)).wr F.HIV_TRC_CTL_size_log2 k).wr F.HIV_TRC_CTL_kinds (d.op 42 2)
      let s := (s.wr F.HIV_TRC_STAT_offset 0).wr F.HIV_TRC_STAT_full 0
      (s.wr F.HIV_TRC_CTL_enable 1).complete d.id 1)

/-- TRC_STOP (R492): staging drains, as far as DDR answers. -/
def execTrcStop (r : Fin 64) (s : State) : Host.Outcome State Fault Refusal :=
  .next (s.runDesc r 0x0702 fun s d =>
    let s := (s.wr F.HIV_TRC_CTL_enable 0).traceDrain
    let res := result [(16, 4, s.rd F.HIV_TRC_STAT_offset), (20, 1, s.rd F.HIV_TRC_STAT_full), (24, 4, s.rd F.HIV_TRC_LOST_count)]
    (s.wr F.HIV_TRC_LOST_count 0).complete d.id 1 0 res)

/-- TRC_READ (R492). -/
def execTrcRead (r : Fin 64) (io : HostIo) (s : State) : Host.Outcome State Fault Refusal :=
  .next (s.runDesc r 0x0703 fun s d =>
    let len := d.op 24 4
    let o := d.op 32 4
    if 2 ^ (20 + s.rd F.HIV_TRC_CTL_size_log2) < o + len then s.fail d.id 0x12
    else
      let base := s.rd64 F.HIV_TRC_BASE_LO_addr F.HIV_TRC_BASE_HI_addr
      s.hostResult d io (d.op 16 8) (readBytes s.ddr (base + o) len))

/-! ## COUNTERS (R493) -/

def insertNat (a : Nat) : List Nat → List Nat
  | [] => [a]
  | b :: l => if a ≤ b then a :: b :: l else b :: insertNat a l

/-- The offsets of every register with RC fields in the blocks GLB to BLW, in offset order. -/
def counterOffsets : List Nat :=
  let rows := regTable.filter fun r => r.fields.any (·.acc.contains .rc) && decide (blockIndex r.off ≤ 13)
  let offs := rows.flatMap fun r => (List.range r.c1).flatMap fun i => (List.range r.c2).map fun j => r.off + r.s1 * i + r.s2 * j
  offs.foldr insertNat []

/-- COUNTERS (R493): the QNC registers only for a privileged host. -/
def execCounters (r : Fin 64) (io : HostIo) (s : State) : Host.Outcome State Fault Refusal :=
  .next (s.runDesc r 0x0931 fun s d =>
    let offs := counterOffsets.filter fun o => blockIndex o != 11 || s.privileged .host
    if d.op 24 4 < 16 + 8 * offs.length then s.fail d.id 0x12 24
    else
      let clear := bitAt (d.op 32 1) 0
      let head := toBytes 4 offs.length ++ toBytes 8 s.cellNs ++ toBytes 4 0
      let (s', b) := offs.foldl (fun (p : State × List Byte) o =>
        if clear then
          let t := p.1.readReg .host o
          (t, p.2 ++ toBytes 4 o ++ toBytes 4 t.rdata.toNat)
        else (p.1, p.2 ++ toBytes 4 o ++ toBytes 4 (p.1.view o).toNat)) (s, head)
      ({ s' with rdata := s.rdata }).hostResult d io (d.op 16 8) b)

end Sys2Proof.Machine
end

