-- ==== Sys2Proof/Machine/Checks.lean ====
section
/-!
DEFINITION. Machine/Checks.lean: the checks of a descriptor after fetch (R58), from one row for each opcode of the chapters: its modes,
its extended body, its reserved fields and the ranges of its operand fields (R55 to R57, R129, R130, R157 to R160, R181, R191, R204,
R217 to R222, R247, R272, R283, R284, R301, R378, R403, R438, R468, R473, R475, R476, R478, R492, R493).
-/

namespace Sys2Proof.Machine

/-- Whether an operation takes an extended body: never, always, or by its signal (INJECT, R217). -/
inductive ExtRule where
  | never | always | bySignal
  deriving DecidableEq, Repr

/-- What R58 needs to know of an opcode. -/
structure OpRow where
  op : Nat
  /-- The modes in which it is permitted. -/
  modes : List Nat := [2, 3, 4, 6, 7]
  priv : Bool := false
  ext : ExtRule := .never
  /-- The shortest and the longest body. -/
  body : Nat × Nat := (1, 16777216)
  /-- Reserved bytes: offset and length. -/
  res : List (Nat × Nat) := []
  /-- Reserved bits: byte and mask. -/
  bits : List (Nat × Nat) := []
  /-- Ranges: offset, length, lowest, highest. -/
  ranges : List (Nat × Nat × Nat × Nat) := []
  /-- Alignments: offset, length, alignment. -/
  align : List (Nat × Nat × Nat) := []
  deriving DecidableEq, Repr

/-- A MOVE operation (R160). -/
def moveRow (op : Nat) (cartesian : Bool) : OpRow :=
  { op := op, modes := [2, 3, 4], ext := .always
    res := [(42, 2), (52, 12)] ++ (if op = 0x0101 then [(37, 1)] else [])
    bits := [(36, 0xFE)]
    ranges := [(37, 1, 0, 15), (38, 2, 1, 0x8000), (40, 2, 1, 0x8000),
      (44, 4, 0, if cartesian then 0x7FFFFFFF else 0x8000)] }

/-- The rows of the classes 0x00, MOTION and SOLVE. -/
def opRowsA : List OpRow :=
  [{ op := 0x0001, modes := [1, 2, 3, 4, 6, 7], res := [(16, 48)] },
   { op := 0x0002, modes := [1, 2, 3, 4, 6, 7], res := [(21, 43)], bits := [(20, 0xFE)] },
   moveRow 0x0101 false, moveRow 0x0102 true, moveRow 0x0103 true, moveRow 0x0104 true,
   { op := 0x0105, modes := [2, 3, 4], res := [(24, 8), (36, 28)] },
   { op := 0x0110, modes := [2, 3], res := [(16, 48)] },
   { op := 0x0111, modes := [2, 3], res := [(16, 48)] },
   { op := 0x0112, modes := [2, 3], res := [(16, 48)] },
   { op := 0x0113, modes := [2, 3], res := [(16, 48)] },
   { op := 0x0114, modes := [2, 3, 4], res := [(20, 44)], ranges := [(16, 2, 1, 0x8000), (18, 2, 1, 0x8000)] },
   { op := 0x0115, modes := [1, 2, 3, 4, 6, 7], res := [(16, 48)] },
   { op := 0x0201, ext := .always, body := (1, 1048576), res := [(48, 16)], bits := [(45, 0xC0)], align := [(32, 8, 8)] },
   { op := 0x0202, res := [(16, 16), (33, 31)], ranges := [(32, 1, 16, 31)] }]

/-- The rows of PARAM. -/
def opRowsB : List OpRow :=
  [{ op := 0x0320, modes := [2], res := [(22, 42)] },
   { op := 0x0321, modes := [2], res := [(19, 1), (22, 2), (32, 32)] },
   { op := 0x0322, modes := [2], res := [(22, 2), (36, 28)] },
   { op := 0x0323, modes := [2], ext := .always, body := (512, 512), res := [(32, 32)] },
   { op := 0x0330, modes := [2], ext := .always, res := [(35, 29)], bits := [(34, 0xFE)],
     ranges := [(32, 1, 0, 63), (33, 1, 0, 15)] },
   { op := 0x0331, modes := [2], priv := true, ext := .always, res := [(33, 31)], ranges := [(32, 1, 0, 63)] },
   { op := 0x0332, modes := [2], priv := true, res := [(16, 16), (33, 31)], ranges := [(32, 1, 0, 63)] },
   { op := 0x0340, modes := [2, 3], res := [(16, 16), (35, 1), (48, 16)], bits := [(34, 0xFE)],
     ranges := [(32, 1, 0, 15), (33, 1, 0, 2)] },
   { op := 0x0341, modes := [2, 3, 4], res := [(16, 16), (33, 31)], ranges := [(32, 1, 0, 15)] },
   { op := 0x0342, modes := [2, 3], res := [(16, 16), (33, 31)], ranges := [(32, 1, 0, 15)] },
   { op := 0x0343, modes := [2, 3], res := [(16, 16), (35, 1), (58, 6)],
     ranges := [(32, 1, 0, 15), (33, 1, 0, 1), (34, 1, 1, 255), (40, 4, 1, 0x7FFFFFFF), (44, 4, 0, 0x7FFFFFFF),
       (56, 2, 1, 1000)] },
   { op := 0x0344, modes := [2, 3, 4], res := [(16, 16), (33, 3), (48, 16)], ranges := [(32, 1, 0, 15)] }]

/-- The rows of SAFETY, BUS and TUNE. -/
def opRowsC : List OpRow :=
  [{ op := 0x0401, modes := [2], priv := true, ext := .always, res := [(32, 32)] },
   { op := 0x0402, priv := true, res := [(16, 16), (44, 20)] },
   { op := 0x0403, modes := [2, 3], priv := true, res := [(16, 16), (34, 30)], ranges := [(32, 1, 0, 15), (33, 1, 0, 2)] },
   { op := 0x0501, modes := [2, 3], priv := true, ext := .always, body := (64, 16777216), res := [(34, 30)], bits := [(33, 0xFE)],
     ranges := [(32, 1, 0, 7)] },
   { op := 0x0510, modes := [3, 4], priv := true, res := [(16, 16), (36, 28)] },
   { op := 0x0601, modes := [2], ext := .bySignal, body := (8, 256), res := [(53, 11)], bits := [(35, 0xFE)],
     ranges := [(33, 1, 0, 1), (34, 1, 1, 4), (40, 4, 1, 4194304), (52, 1, 0, 16)] },
   { op := 0x0602, modes := [2, 3], res := [(8, 8), (16, 16), (34, 2)],
     ranges := [(32, 1, 0, 15), (33, 1, 1, 8), (36, 4, 16, 4194304)], align := [(56, 8, 64)] },
   { op := 0x0603, modes := [2, 3], res := [(16, 16), (33, 31)], ranges := [(32, 1, 0, 15)] },
   { op := 0x0604, modes := [2, 3], res := [(16, 16), (39, 1), (44, 4), (60, 4)],
     ranges := [(32, 1, 0, 15), (33, 1, 0, 7), (34, 1, 0, 7), (35, 1, 0, 1), (36, 1, 8, 11), (37, 1, 0, 1)],
     align := [(48, 8, 8)] }]

/-- The rows of TRACE, UPDATE and DIAG. -/
def opRowsD : List OpRow :=
  [{ op := 0x0701, res := [(16, 16), (44, 20)], bits := [(41, 0xFE)], ranges := [(40, 1, 0, 8)], align := [(32, 8, 4096)] },
   { op := 0x0702, res := [(16, 48)] },
   { op := 0x0703, res := [(28, 4), (36, 28)], ranges := [(24, 4, 16, 16777216)],
     align := [(16, 8, 8), (24, 4, 16), (32, 4, 16)] },
   { op := 0x0801, modes := [1, 7], priv := true, res := [(16, 16), (37, 27)] },
   { op := 0x0802, modes := [1, 7], priv := true, ext := .always, res := [(36, 28)] },
   { op := 0x0803, modes := [1, 7], priv := true, res := [(16, 48)] },
   { op := 0x0804, modes := [1, 7], priv := true, res := [(16, 48)] },
   { op := 0x0805, modes := [2, 3], priv := true, res := [(16, 48)] },
   { op := 0x0806, priv := true, res := [(16, 48)] },
   { op := 0x0808, modes := [2, 3], priv := true, ext := .always, body := (32, 32), res := [(32, 32)] },
   { op := 0x0920, res := [(16, 16), (33, 31)], ranges := [(32, 1, 0, 31)] },
   { op := 0x0930, res := [(28, 4)], ranges := [(24, 4, 304, 0xFFFFFFFF)], align := [(16, 8, 8)] },
   { op := 0x0931, res := [(28, 4), (33, 31)], bits := [(32, 0xFE)], align := [(16, 8, 8)] }]

/-- The row of an opcode; none where no operation has it. -/
def opRow (op : Nat) : Option OpRow := (opRowsA ++ opRowsB ++ opRowsC ++ opRowsD).find? (·.op == op)

/-- Check 1: the class is 0x00 or the ring's, the operation exists, and a Cartesian operation finds a Cartesian model (R157). -/
def State.opExists (s : State) (r op : Nat) : Bool :=
  (op / 256 == 0 || op / 256 == s.ringClass r) && (opRow op).isSome
    && !((op == 0x0102 || op == 0x0103) && !Config.cartesian r)

/-- Check 2: what needs the commissioning unlock (R81, R58). -/
def State.needsUnlock (s : State) (r op : Nat) : Bool :=
  s.ringClass r == 4 || s.ringClass r == 8 || (match opRow op with | some w => w.priv | none => false)

/-- EXT belongs on this descriptor. -/
def Desc.extWanted (w : OpRow) (b : List Byte) : Bool :=
  match w.ext with
  | .never => false
  | .always => true
  | .bySignal => byteAt b 34 == 4

/-- Reserved fields that depend on another field: the body address and length of an INJECT without EXT (R217), bytes 28 to 31 beside
a body (R55), and the bytes after the direction of a mode-2 SWG_MOVE (R283). -/
def reservedMore (w : OpRow) (b : List Byte) : List (Nat × Nat) :=
  let ext := bitAt (byteAt b 2) 1
  (if ext then [(28, 4)] else if w.ext = .bySignal then [(16, 16)] else [])
    ++ (if w.op = 0x0340 ∧ byteAt b 33 = 2 then [(41, 7)] else [])

/-- Check 3: the offset of the first reserved field or flag that is not zero. -/
def reservedBad (w : OpRow) (b : List Byte) : Option Nat :=
  let deadline := decide (w.op / 256 ≠ 1 ∧ w.op / 256 ≠ 2 ∧ w.op / 256 ≠ 6) && !zeroBytes b 8 8
  if byteAt b 2 / 8 ≠ 0 ∨ (w.op = 0x0002 ∧ bitAt (byteAt b 2) 2) then some 2
  else if 7 < byteAt b 3 then some 3
  else if deadline then some 8
  else if w.op = 0x0105 ∧ !zeroBytes b 8 8 ∧ !zeroBytes b 16 8 then some 16
  else if w.op = 0x0340 ∧ byteAt b 33 = 2 ∧ 1 < byteAt b 40 then some 40
  else
    let l := (w.res ++ reservedMore w b).filterMap fun p => if zeroBytes b p.1 p.2 then none else some p.1
    let m := w.bits.filterMap fun p => if byteAt b p.1 &&& p.2 = 0 then none else some p.1
    (l ++ m).head?

/-- Ranges that depend on another field: the duration of a DWELL (R160), a blend radius without BLEND (R162), the warm slot of a
SOLVE (R129), the parameters of an injected signal (R219). -/
def rangeMore (w : OpRow) (b : List Byte) : List (Nat × Nat × Nat × Nat) :=
  if w.op = 0x0105 then (if zeroBytes b 8 8 then [(16, 8, 1000, 600000000000)] else [])
  else if 0x0101 ≤ w.op ∧ w.op ≤ 0x0104 then (if bitAt (byteAt b 36) 0 then [] else [(44, 4, 0, 0)])
  else if w.op = 0x0201 then (if bitAt (byteAt b 45) 0 then [(44, 1, 16, 31)] else [])
  else if w.op = 0x0601 then
    (if byteAt b 34 = 3 then [(44, 1, 7, 20), (45, 1, 1, 255)]
     else if byteAt b 34 = 4 then [(44, 1, 6, 12)] else [])
  else []

/-- Check 4: the offset of the first field that breaks R56 or its range. -/
def rangeBad (w : OpRow) (b : List Byte) : Option Nat :=
  let ext := bitAt (byteAt b 2) 1
  let len := field b 24 4
  if ext != Desc.extWanted w b then some 2
  else if ext && field b 16 8 % 8 != 0 then some 16
  else if ext && (decide (len < w.body.1) || decide (w.body.2 < len)) then some 24
  else
    let l := (w.ranges ++ rangeMore w b).filterMap fun (o, n, lo, hi) =>
      if lo ≤ field b o n ∧ field b o n ≤ hi then none else some o
    let m := w.align.filterMap fun (o, n, a) => if field b o n % a = 0 then none else some o
    (l ++ m).head?

/-- Check 5: the mode admits the operation; SCHED_LOAD in RUN only with STAGE (R301). -/
def State.modeBad (s : State) (w : OpRow) (b : List Byte) : Bool :=
  !w.modes.contains s.mode || (w.op == 0x0501 && s.mode == 3 && !bitAt (byteAt b 33) 0)

/-- The deadline lies in the past (check 6). -/
def State.deadlinePast (s : State) (b : List Byte) : Bool :=
  field b 8 8 != 0 && decide (cellDiff (field b 8 8) s.cellNs < 0)

/-- The checks of R58 in their order: the status and the field offset of the first that fails. -/
def State.checkDesc (s : State) (r : Nat) (b : List Byte) : Option (Nat × Nat) :=
  let op := field b 0 2
  if !s.opExists r op then some (0x10, 0)
  else if s.needsUnlock r op && !s.on F.HIF_STAT_host_priv then some (0x14, 0xFFFF)
  else match opRow op with
    | none => some (0x10, 0)
    | some w => match reservedBad w b with
      | some o => some (0x11, o)
      | none => match rangeBad w b with
        | some o => some (0x12, o)
        | none =>
          if s.modeBad w b then some (0x15, 0xFFFF)
          else if s.deadlinePast b then some (0x18, 8)
          else none

end Sys2Proof.Machine
end

