-- ==== Sys2Proof/Machine/Hif.lean ====
section
/-!
DEFINITION. Machine/Hif.lean: the commands of the chapter "Host interface and descriptor rings": the link and the resets of the
function, doorbells, fetch, the checks and the acceptance of descriptors, completions, events and MSI-X vectors, ring control, NOP
and ABORT.
-/

namespace Sys2Proof.Machine

/-! ## Link, resets and power (R48, R51, R513) -/

/-- HIF_RESET (R51): a function-level reset, a hot reset or link-down. -/
def execHifReset (s : State) : Host.Outcome State Fault Refusal := .next s.hifReset

/-- D3HOT_ENTRY (R51). -/
def execD3hotEntry (s : State) : Host.Outcome State Fault Refusal := .next { s with hif := { s.hif with d3hot := true } }

/-- D0_RETURN (R51). -/
def execD0Return (s : State) : Host.Outcome State Fault Refusal := .next { s with hif := { s.hif with d3hot := false } }

/-- The link registers, and source 0 with them in its detail. -/
def State.linkEvent (s : State) (up : Bool) (speed width code : Nat) : State :=
  let s := { s with hif := { s.hif with linkUp := up } }
  ((s.wr F.HIF_STAT_link_speed speed).wr F.HIF_STAT_link_width width).raise 0 code 0xFFFF (detail [(0, speed), (1, width)])

/-- PCIE_LINK_CHANGE (R513): the link is up with a speed of 1 to 5 and 1, 2, 4 or 8 lanes, or down, which resets the HIF (R51). -/
def execPcieLinkChange (up : Bool) (speed : Fin 5) (width : Fin 4) (s : State) : Host.Outcome State Fault Refusal :=
  let sp := speed.val + 1
  let w := 2 ^ width.val
  if !up then .next (if s.hif.linkUp then s.hifReset.linkEvent false 0 0 2 else s)
  else if !s.hif.linkUp then .next (s.linkEvent true sp w 1)
  else if s.rd F.HIF_STAT_link_speed = sp ∧ s.rd F.HIF_STAT_link_width = w then .next s
  else .next (s.linkEvent true sp w 3)

/-- AER_ERROR (R513): correctable errors (0), non-fatal (1) or fatal (2) uncorrectable ones join the AER status registers. -/
def execAerError (kind : Fin 3) (bits : Word) (s : State) : Host.Outcome State Fault Refusal :=
  if kind = 0 then
    let w := s.hif.aerCorr ||| bits
    .next ({ s with hif := { s.hif with aerCorr := w } }.raise 1 1 0xFFFF (detail [(4, w.toNat)]))
  else
    let w := s.hif.aerUncorr ||| bits
    .next ({ s with hif := { s.hif with aerUncorr := w } }.raise 2 kind.val 0xFFFF (detail [(4, w.toNat)]))

/-! ## Ring arithmetic -/

def State.sqSize (s : State) (r : Nat) : Nat := 2 ^ s.rd F.HIF_SQ_CFG_size_log2 r
def State.cqSize (s : State) (q : Nat) : Nat := 2 ^ s.rd F.HIF_CQ_CFG_size_log2 q

/-- The distance from ring index `a` to `b`. -/
def ringDist (size a b : Nat) : Nat := (b + size - a % size) % size

/-- Descriptors between the fetch index and a producer index. -/
def State.sqReady (s : State) (r p : Nat) : Nat := ringDist (s.sqSize r) (s.rd F.HIF_SQ_STAT_head r) p

/-- Entries of a completion ring that the host has not consumed. -/
def State.unconsumed (s : State) (q : Nat) : Nat := ringDist (s.cqSize q) (s.cq q).consumer (s.rd F.HIF_CQ_STAT_tail q)

/-- The code of a failed host access in the detail of source 6 (R513). -/
def hostErrCode : HostErr → Nat
  | .unsupported => 1
  | .aborted => 2
  | .poisoned => 3
  | .timeout => 4

/-! ## Fetch stops (R70) -/

/-- The fetch stops are shown; where completion ring `q` has begun to block, source 10 is raised for each enabled ring that feeds it. -/
def State.settleCq (s : State) (q : Nat) (was : Bool) : State :=
  let s := s.showStops
  if was || !s.cqBlocked q then s else
  let code := if s.on F.HIF_CQ_CTL_enable q && !s.on F.HIF_CQ_STAT_fault q then 1 else 2
  (List.range 64).foldl (fun s r =>
    if s.on F.HIF_SQ_CTL_enable r && s.rd F.HIF_SQ_CFG_cq r == q then s.raise 10 code r (detail [(0, q)]) else s) s

/-- HIF_CQ_STAT.full follows the indices. -/
def State.syncFull (s : State) (q : Nat) : State := s.put F.HIF_CQ_STAT_full (s.unconsumed q + 1 == s.cqSize q) q

/-- A failed completion write faults the completion ring (R72). -/
def State.faultCq (s : State) (q : Nat) (e : HostErr) : State :=
  let was := s.cqBlocked q
  ((s.wr F.HIF_CQ_STAT_fault 1 q).raise 6 2 q (detail [(0, hostErrCode e)])).settleCq q was

/-- A failed fetch or shadow write faults the submission ring (R72). -/
def State.faultSq (s : State) (r code : Nat) (e : HostErr) : State :=
  ((s.wr F.HIF_SQ_CTL_enable 0 r).wr F.HIF_SQ_INFO_fault 1 r).showStops.raise 6 code r (detail [(0, hostErrCode e)])

/-! ## Doorbells (R63 to R66) -/

/-- A stale doorbell is dropped: the ring's count and source 3. -/
def State.staleDoorbell (s : State) (f : Fld) (r code why : Nat) (v : Word) : State :=
  (s.bump f r).raise 3 code r (detail [(0, why), (2, v.toNat / 2 ^ 16), (4, v.toNat)])

/-- A doorbell with a bad index is dropped: the count of bad doorbells and source 4. -/
def State.badDoorbell (s : State) (r code : Nat) (v : Word) : State :=
  (s.bump F.HIF_ACC_ERR_bad_doorbell).raise 4 code r (detail [(0, 2), (4, v.toNat)])

/-- SUBMISSION_DOORBELL (R63, R65). -/
def execSubmissionDoorbell (r : Fin 64) (v : Word) (s : State) : Host.Outcome State Fault Refusal :=
  let p := v.toNat % 2 ^ 16
  if v.toNat / 2 ^ 16 ≠ s.rd F.HIF_SQ_EPOCH_epoch r then .next (s.staleDoorbell F.HIF_SQ_ERR_stale r 1 1 v)
  else if !s.on F.HIF_SQ_CTL_enable r then .next (s.staleDoorbell F.HIF_SQ_ERR_stale r 1 2 v)
  else if s.sqSize r ≤ p then .next (s.badDoorbell r 3 v)
  else if s.sqReady r p < s.sqReady r (s.sq r).producer then .next ((s.bump F.HIF_SQ_ERR_regressive r).badDoorbell r 4 v)
  else .next (s.setSq r { s.sq r with producer := p })

/-- COMPLETION_DOORBELL (R63, R65). -/
def execCompletionDoorbell (q : Fin 64) (v : Word) (s : State) : Host.Outcome State Fault Refusal :=
  let c := v.toNat % 2 ^ 16
  if v.toNat / 2 ^ 16 ≠ s.rd F.HIF_CQ_EPOCH_epoch q then .next (s.staleDoorbell F.HIF_CQ_ERR_stale q 2 1 v)
  else if !s.on F.HIF_CQ_CTL_enable q then .next (s.staleDoorbell F.HIF_CQ_ERR_stale q 2 2 v)
  else if s.cqSize q ≤ c then .next (s.badDoorbell q 3 v)
  else if s.unconsumed q < ringDist (s.cqSize q) (s.cq q).consumer c then .next (s.badDoorbell q 5 v)
  else
    let was := s.cqBlocked q
    .next (((s.setCq q { s.cq q with consumer := c }).syncFull q).settleCq q was)

/-! ## Fetch (R68) -/

/-- Completion slots of a completion ring that are reserved: by outstanding descriptors, bursts on their way, and completions that
wait. -/
def State.reserved (s : State) (q : Nat) : Nat :=
  (s.hif.desc.filter (·.cq == q)).length + (s.hif.compl.filter (·.cq == q)).length
    + ((List.range 64).filter fun r => s.rd F.HIF_SQ_CFG_cq r == q).foldl (fun a r => a + (s.sq r).inFlight) 0

/-- How many descriptors a burst of a ring may take now. -/
def State.burst (s : State) (r : Nat) : Nat :=
  let q := s.rd F.HIF_SQ_CFG_cq r
  if !s.on F.HIF_SQ_CTL_enable r || s.on F.HIF_SQ_INFO_fault r || s.hif.d3hot || s.mode == 0 || s.fetchHeld r then 0
  else
    min (min 8 (s.sqReady r (s.sq r).producer))
      (min (min (s.rd F.HIF_SQ_CREDIT_credit r - s.outstanding r) (128 - s.staged r - (s.sq r).inFlight))
        (s.cqSize q - 1 - s.unconsumed q - s.reserved q))

/-- DESCRIPTOR_FETCH (R68): the arbiter grants the ring a burst; its fetch index advances, and goes to the shadow address while
`shadow_en` is set, which may fail at the host. -/
def execDescriptorFetch (r : Fin 64) (shadow : Option HostErr) (s : State) : Host.Outcome State Fault Refusal :=
  let n := s.burst r
  if n = 0 then .next s else
  let head := (s.rd F.HIF_SQ_STAT_head r + n) % s.sqSize r
  let s := ((s.setSq r { s.sq r with inFlight := (s.sq r).inFlight + n }).wr F.HIF_SQ_STAT_head head r).syncRing r
  if !s.on F.HIF_SQ_CTL_shadow_en r then .next s
  else match shadow with
    | some e => .next (s.faultSq r 3 e)
    | none =>
      let a := s.rd64 F.HIF_SQ_SHADOW_LO_addr F.HIF_SQ_SHADOW_HI_addr r
      .next { s with hostMem := writeBytes s.hostMem a (toBytes 4 head) }

/-- An accepted descriptor creates a work item of the context that handles its ring (R69, R104, R108); the number of its staging
slot is the Hive's own. -/
def State.createWork (s : State) (d : Desc) : State :=
  match s.ctxOfRing d.ring with
  | none => s
  | some c => s.drawn.newItem c d.prio d.ring (s.freshWord.toNat % 128) (if d.priv then some d.id else none)

/-- One fetched descriptor: in SENTINEL it completes with 0xE1 (R75); else it is checked (R58), and is accepted or completes with the
status of the check. -/
def State.acceptDesc (s : State) (r : Nat) (bytes : List Byte) : State :=
  let b := (bytes ++ List.replicate 64 0).take 64
  let q := s.sq r
  let size := s.sqSize r
  let slot := ringDist size q.inFlight (s.rd F.HIF_SQ_STAT_head r)
  let id := s.hif.nextDesc
  let verdict := s.checkDesc r b
  let d : Desc := { id := id, ring := r, slot := slot, bytes := b, cq := s.rd F.HIF_SQ_CFG_cq r,
                    priv := s.needsUnlock r (field b 0 2) }
  let s := { s with hif := { s.hif with desc := s.hif.desc ++ [d], nextDesc := id + 1 } }
  let s := (s.setSq r { q with inFlight := q.inFlight - 1 }).syncRing r
  if s.mode = 5 then s.complete id 0xE1
  else match verdict with
    | some (st, off) => s.fail id st off
    | none => s.createWork d

/-- FETCH_COMPLETE (R58, R72): the descriptors of a burst arrive in ring order; where the host fails the next one, the ring faults and
the rest of the burst is never read. -/
def execFetchComplete (r : Fin 64) (descs : List (List Byte)) (err : Option HostErr) (s : State) :
    Host.Outcome State Fault Refusal :=
  let s := (descs.take (s.sq r).inFlight).foldl (fun s b => s.acceptDesc r b) s
  match err with
  | none => .next s
  | some e =>
    if (s.sq r).inFlight = 0 then .next s
    else .next (((s.setSq r { s.sq r with inFlight := 0 }).syncRing r).faultSq r 1 e)

/-! ## MSI-X vectors (R79) -/

/-- The message of a vector: a write of its data to its address; a masked vector sets its pending bit. -/
def State.msix (s : State) (v : Nat) : State :=
  if s.on F.HIF_MSIX_CTRL_mask v then s.wrBit F.HIF_MSIX_PBA_pending (v % 32) true (v / 32)
  else
    let a := s.rd64 F.HIF_MSIX_ADDR_LO_addr F.HIF_MSIX_ADDR_HI_addr v
    { s with hostMem := writeBytes s.hostMem a (toBytes 4 (s.rd F.HIF_MSIX_DATA_data v)) }

/-- A vector fires: every source of it starts counting again. -/
def State.fireVector (s : State) (v : Nat) : State :=
  let s := (List.range 63).foldl (fun s q =>
    if s.rd F.HIF_CQ_CFG_vector q == v then s.setCq q { s.cq q with signal := {} } else s) s
  let h := { s.hif with vector := store (fun _ => {}) s.hif.vector v {} }
  { s with hif := h }.msix v

/-- One more unsignalled record of a source. -/
def Signal.add (g : Signal) (now : Nat) : Signal := { since := g.since + 1, first := some (g.first.getD now) }

/-- A source with these settings fires its vector now. -/
def Signal.fires (g : Signal) (count time : Nat) : Bool := decide (count ≤ g.since) || time == 0

/-- A completion written to ring `q` counts towards its vector. -/
def State.signalCq (s : State) (q : Nat) : State :=
  let g := (s.cq q).signal.add s.tick
  let s := s.setCq q { s.cq q with signal := g }
  if g.fires (s.rd F.HIF_CQ_CFG_mod_count q) (s.rd F.HIF_CQ_MOD_mod_time q) then s.fireVector (s.rd F.HIF_CQ_CFG_vector q) else s

/-- An event record written for a source counts towards the vector of the source, under the settings of completion ring 63. -/
def State.signalEvent (s : State) (src : Nat) : State :=
  let v := s.rd F.HIF_EVT_MAP_vector src
  let g := (lookup (fun _ => ({} : Signal)) s.hif.vector v).add s.tick
  let h := { s.hif with vector := store (fun _ => {}) s.hif.vector v g }
  let s := { s with hif := h }
  if g.fires (s.rd F.HIF_CQ_CFG_mod_count 63) (s.rd F.HIF_CQ_MOD_mod_time 63) then s.fireVector v else s

/-- The tick at which a moderated source fires, if it holds an unsignalled record. -/
def Signal.due (g : Signal) (time : Nat) : Option Nat := g.first.map (· + us time)

/-- The earliest moderation time of a vector. -/
def State.vectorDue (s : State) (v : Nat) : Option Nat :=
  let rings := (List.range 63).filterMap fun q =>
    if s.rd F.HIF_CQ_CFG_vector q == v then (s.cq q).signal.due (s.rd F.HIF_CQ_MOD_mod_time q) else none
  let own := (lookup (fun _ => ({} : Signal)) s.hif.vector v).due (s.rd F.HIF_CQ_MOD_mod_time 63)
  (rings ++ own.toList).foldl (fun a t => some (match a with | none => t | some b => min b t)) none

/-- MODERATION_TIMER_EXPIRY (R79): the vector fires once its time has passed. -/
def execModerationTimerExpiry (v : Fin 128) (s : State) : Host.Outcome State Fault Refusal :=
  match s.vectorDue v with
  | none => .next s
  | some t => .next (if s.hif.d3hot then s else (s.advanceTo t).fireVector v)

/-! ## Completions and events (R59, R60, R62, R76, R77) -/

/-- The 32 bytes of a completion with its phase. -/
def Compl.entry (c : Compl) (phase : Nat) : List Byte :=
  toBytes 1 c.status ++ toBytes 1 (c.notes + phase) ++ toBytes 2 c.ring ++ toBytes 4 c.tag ++ toBytes 8 c.time
    ++ (c.result ++ List.replicate 16 0).take 16

/-- The 32 bytes of an event record with its phase. -/
def EventRec.entry (e : EventRec) (phase : Nat) : List Byte :=
  toBytes 1 0x80 ++ toBytes 1 phase ++ toBytes 2 e.src ++ toBytes 4 e.code ++ toBytes 8 e.time ++ toBytes 4 e.count
    ++ toBytes 2 e.inst ++ toBytes 1 (e.epoch % 16) ++ toBytes 1 0 ++ toBytes 8 e.detail.toNat

/-- A completion ring can take an entry now. -/
def State.cqOpen (s : State) (q : Nat) : Bool := !s.cqBlocked q && !s.hif.d3hot

/-- An entry is written at the tail of ring `q`, whose phase turns at each wrap. -/
def State.writeEntry (s : State) (q : Nat) (e : Nat → List Byte) : State :=
  let tail := s.rd F.HIF_CQ_STAT_tail q
  let phase := s.rd F.HIF_CQ_STAT_phase q
  let a := s.rd64 F.HIF_CQ_BASE_LO_addr F.HIF_CQ_BASE_HI_addr q + 32 * tail
  let next := (tail + 1) % s.cqSize q
  let was := s.cqBlocked q
  let s := { s with hostMem := writeBytes s.hostMem a (e phase) }.wr F.HIF_CQ_STAT_tail next q
  let s := if next = 0 then s.wr F.HIF_CQ_STAT_phase (1 - phase) q else s
  (s.syncFull q).settleCq q was

/-- COMPLETION_WRITE (R62, R70, R71): the first completion that waits for ring `q` is written, or its write fails at the host. -/
def execCompletionWrite (q : Fin 63) (err : Option HostErr) (s : State) : Host.Outcome State Fault Refusal :=
  match s.hif.compl.find? (·.cq == q.val) with
  | none => .next s
  | some c =>
    if !s.cqOpen q then .next s
    else match err with
      | some e => .next (s.faultCq q e)
      | none =>
        let h := { s.hif with compl := s.hif.compl.filter (·.id != c.id) }
        .next (({ s with hif := h }.writeEntry q c.entry).showStops.signalCq q)

/-- EVENT_DELIVERY (R77): the first record in event staging is written to the event ring, or its write fails at the host. -/
def execEventDelivery (err : Option HostErr) (s : State) : Host.Outcome State Fault Refusal :=
  match s.hif.events with
  | [] => .next s
  | e :: l =>
    if !s.cqOpen 63 then .next s
    else match err with
      | some x => .next (s.faultCq 63 x)
      | none =>
        let h := { s.hif with events := l }
        .next (({ s with hif := h }.writeEntry 63 e.entry).signalEvent e.src)

/-- EVENTS_LOST_REPORT (R77): source 7, once staging has room. -/
def execEventsLostReport (s : State) : Host.Outcome State Fault Refusal :=
  if s.hif.lostOwed && s.hif.events.length < 768 then
    let h := { s.hif with lostOwed := false }
    .next ({ s with hif := h }.raise 7 1 0xFFFF (detail [(4, s.rd F.HIF_EVT_LOST_CNT_count)]))
  else .next s

/-! ## Ring control (R67, R69, R70, R73, R80) -/

/-- The credits of every enabled ring, with those of ring `r`. -/
def State.creditSum (s : State) (r : Nat) : Nat :=
  ((List.range 64).filter fun k => k == r || s.on F.HIF_SQ_CTL_enable k).foldl (fun a k => a + s.rd F.HIF_SQ_CREDIT_credit k) 0

/-- The ring reserve with ring `r` enabled (R113). -/
def State.reserveWith (s : State) (r : Nat) : Nat :=
  ((List.range 64).filter fun k => k == r || s.on F.HIF_SQ_CTL_enable k || s.outstanding k != 0).foldl
    (fun a k => a + s.rd F.HIF_SQ_CREDIT_credit k) 0 - 2048

/-- The credit sum is refused (R69). -/
def State.creditRefused (s : State) (r : Nat) : Bool :=
  let spill := s.rd F.HIV_SPILL_SIZE_entries
  decide (2048 + spill < s.creditSum r) || decide (spill < s.inSpill false + s.reserveWith r)

/-- Why an enable is refused: the first reason in the order 6, 2, 3, 5, 4, 1 (R80). -/
def State.refuseCode (s : State) (m : Master) (r : Nat) : Option Nat :=
  let cls := s.ringClass r
  let q := s.rd F.HIF_SQ_CFG_cq r
  let base := s.rd64 F.HIF_SQ_BASE_LO_addr F.HIF_SQ_BASE_HI_addr r
  let secure := cls == 4 || cls == 8
  if secure && !s.privileged m then some 6
  else if 16 ≤ r ∧ (cls < 2 ∨ 9 < cls) then some 2
  else if secure && ((List.range 64).any fun k => k != r && s.on F.HIF_SQ_CTL_enable k && s.ringClass k == cls) then some 3
  else if 2 ^ 64 < base + 64 * s.sqSize r then some 5
  else if q = 63 ∨ !s.on F.HIF_CQ_CTL_enable q then some 4
  else if s.creditRefused r then some 1
  else none

/-- SQ_ENABLE (R69, R80). -/
def execSqEnable (m : Master) (r : Fin 64) (s : State) : Host.Outcome State Fault Refusal :=
  if s.on F.HIF_SQ_CTL_enable r then .next s else
  match s.refuseCode m r with
  | some c =>
    .next (((s.wr F.HIF_SQ_STAT_refused 1 r).wr F.HIF_SQ_INFO_refuse_code c r).raise 5 1 r (detail [(0, c)]))
  | none => .next (((s.wr F.HIF_SQ_CTL_enable 1 r).wr F.HIF_SQ_STAT_refused 0 r).showStops)

/-- SQ_DISABLE (R67). -/
def execSqDisable (r : Fin 64) (s : State) : Host.Outcome State Fault Refusal :=
  .next (s.wr F.HIF_SQ_CTL_enable 0 r).showStops

/-- SQ_RESET (R67, R80). -/
def execSqReset (r : Fin 64) (s : State) : Host.Outcome State Fault Refusal :=
  if s.on F.HIF_SQ_CTL_enable r || s.outstanding r != 0 then .next (s.wrIgnored .sq r (F.HIF_SQ_CTL_reset.addr r 0))
  else .next (((s.setSq r {}).wr F.HIF_SQ_STAT_head 0 r).wr F.HIF_SQ_INFO_fault 0 r)

/-- SQ_ABORT_ALL (R73). -/
def execSqAbortAll (r : Fin 64) (s : State) : Host.Outcome State Fault Refusal :=
  .next (s.abortAll (s.hif.desc.filter (·.ring == r.val))).1

/-- CQ_ENABLE (R70, R80). -/
def execCqEnable (q : Fin 64) (s : State) : Host.Outcome State Fault Refusal :=
  .next (s.wr F.HIF_CQ_CTL_enable 1 q).showStops

/-- CQ_DISABLE (R70). -/
def execCqDisable (q : Fin 64) (s : State) : Host.Outcome State Fault Refusal :=
  let was := s.cqBlocked q
  .next ((s.wr F.HIF_CQ_CTL_enable 0 q).settleCq q was)

/-- CQ_RESET (R67). -/
def execCqReset (q : Fin 64) (s : State) : Host.Outcome State Fault Refusal :=
  let fed := (List.range 64).any fun r => s.on F.HIF_SQ_CTL_enable r && s.rd F.HIF_SQ_CFG_cq r == q.val
  let bound := s.hif.desc.any (·.cq == q.val) || (List.range 64).any fun r =>
    s.rd F.HIF_SQ_CFG_cq r == q.val && (s.sq r).inFlight != 0
  if fed || bound then .next (s.wrIgnored .cq q (F.HIF_CQ_CTL_reset.addr q 0))
  else
    let s := s.setCq q {}
    .next ((((s.wr F.HIF_CQ_STAT_tail 0 q).wr F.HIF_CQ_STAT_phase 1 q).wr F.HIF_CQ_STAT_full 0 q).wr F.HIF_CQ_STAT_fault 0 q)

/-! ## Operations of class 0x00 (R57, R73) -/

/-- NOP (R57). -/
def execNop (r : Fin 64) (s : State) : Host.Outcome State Fault Refusal :=
  .next (s.runDesc r 0x0001 fun s d => s.complete d.id 1)

/-- The targets of an ABORT: the oldest outstanding descriptor of its ring with the tag, or with "all" every other one. -/
def State.abortTargets (s : State) (d : Desc) : List Desc :=
  let l := s.hif.desc.filter fun e => e.ring == d.ring && e.id != d.id
  if bitAt (d.op 20 1) 0 then l else (l.filter fun e => e.tag == d.op 16 4).take 1

/-- ABORT (R73): it acts on fetch, and waits for no earlier descriptor and no FENCE. -/
def execAbort (r : Fin 64) (s : State) : Host.Outcome State Fault Refusal :=
  match s.hif.desc.find? fun d => d.ring == r.val && d.opcode == 0x0002 && !d.started with
  | none => .next s
  | some d =>
    let (t, n) := (s.startDesc d).abortAll (s.abortTargets d)
    .next (t.complete d.id (if n = 0 then 5 else 1))

end Sys2Proof.Machine
end

