-- ==== Sys2Proof/Machine/Write.lean ====
section
/-!
DEFINITION. Machine/Write.lean: what a write does to the fields of a register (R82, R85 to R89): the checks of each field in their
order, the exclusions that chapters add, staged and posted copies, and what follows a field's new value.
-/

namespace Sys2Proof.Machine

/-- A value the field's map admits (R82, check 7). -/
def Rng.ok (r : Rng) (v : Nat) : Bool :=
  match r with
  | .any => true
  | .span lo hi => decide (lo ≤ v) && decide (v ≤ hi)
  | .step lo hi by_ => decide (lo ≤ v) && decide (v ≤ hi) && decide ((v - lo) % by_ = 0)

/-- What becomes of one field of a write. -/
inductive Take where
  /-- The field takes the value. -/
  | take
  /-- It keeps its value, and nothing is counted. -/
  | keep
  /-- It keeps its value, and the unit's `wr_ignored` is set. -/
  | ignored
  /-- An unprivileged write to a PV field. -/
  | dropped
  deriving DecidableEq, Repr

/-! ## Exclusions that chapters add -/

/-- The credits of every enabled ring. -/
def State.enabledCredits (s : State) : Nat :=
  ((List.range 64).filter fun k => s.on F.HIF_SQ_CTL_enable k).foldl (fun a k => a + s.rd F.HIF_SQ_CREDIT_credit k) 0

/-- A size of the spill area is refused (R69, R122). -/
def State.spillRefused (s : State) (n : Nat) : Bool :=
  decide (2048 + n < s.enabledCredits) || (s.on F.HIV_CTL_enable && decide (n < s.ringReserve + s.inSpill false))

/-- A mapping that would move an owner into or out of a pending group (R87). -/
def State.moveRefused (s : State) (old v : Word) : Bool :=
  (List.range 8).any fun k =>
    let a := getBits old (4 * k) 4
    let b := getBits v (4 * k) 4
    a != b && (s.groupPending a || s.groupPending b)

/-- The marks of the timing segment after a write would be none or two (R317). -/
def State.timingRefused (s : State) (g new : Nat) : Bool :=
  ((List.range 8).filter fun k => if k = g then new = 1 else s.on F.CMB_SYNC_CFG_timing k).length != 1

/-- A range of a sequencer whose end lies below its start, or that meets the other sequencer's (R411). -/
def State.seqRangeRefused (s : State) (q : Nat) (v : Word) : Bool :=
  let first := getBits v F.ADC_SEQ_CFG_first.lo F.ADC_SEQ_CFG_first.width
  let last := getBits v F.ADC_SEQ_CFG_last.lo F.ADC_SEQ_CFG_last.width
  let o := 1 - q
  decide (last < first) ||
    (decide (first ≤ s.rd F.ADC_SEQ_CFG_last o) && decide (s.rd F.ADC_SEQ_CFG_first o ≤ last))

/-- The words that an entry of a snapshot list covers. -/
def entryWords (e : Nat) : Nat := bitsOf e 24 7

/-- An entry of a snapshot list breaks its format, passes 8 MiB, or makes its list exceed 1,024 words (R484). -/
def State.listRefused (s : State) (l k : Nat) (v : Nat) : Bool :=
  let n := entryWords v
  let off := bitsOf v 0 23
  let words := (List.range 64).foldl (fun a i => a + entryWords (if i = k then v else s.rd F.WAX_LIST_entry l i)) 0
  if n = 0 then bitsOf v 23 9 != 0
  else off % 4 != 0 || decide (2 ^ 23 < off + 4 * n) || decide (1024 < words) || bitsOf v 23 1 != 0

/-- A field that a chapter refuses to give the value, in instance (i, j) of the register at `off`, whose word would be `v`. -/
def State.refused (s : State) (f : Fld) (i j : Nat) (v : Word) : Bool :=
  let new := getBits v f.lo f.width
  if f == F.HIV_SPILL_SIZE_entries then s.spillRefused new
  else if f == F.GLB_SG_CHAIN0_group || f == F.GLB_SG_CHAIN1_group || f == F.GLB_SG_SWARM_group || f == F.GLB_SG_SEG_group then
    s.moveRefused (s.word f.off) v
  else if f == F.CMB_SYNC_CFG_timing then s.timingRefused i new
  else if f == F.ADC_SEQ_CFG_first || f == F.ADC_SEQ_CFG_last then s.seqRangeRefused i v
  else if f == F.ADC_ENT_diff then
    new == 1 && !([16, 18, 20, 22].contains (getBits v F.ADC_ENT_input.lo F.ADC_ENT_input.width))
  else if f == F.WAX_LIST_entry then s.listRefused i j new
  else false

/-! ## The checks of a field (R82) -/

/-- A field that no write of its register changes: RO, RC and MB fields, fields whose write is a command of its own, the class of rings
0 to 15, and every field of compare units 0 and 1. -/
def FieldRow.fixed (f : FieldRow) (u : RegUnit) (i new : Nat) : Bool :=
  f.acc.contains .ro || f.acc.contains .rc || f.acc.contains .mb || f.acc.contains .act
    || (f.acc.contains .actClr && new == 0) || (f.acc.contains .roLt16 && decide (i < 16)) || (u == .cmp && decide (i < 2))

/-- The outcome of one field of a write of `v` to instance (i, j) of a register. -/
def State.fieldTake (s : State) (m : Master) (r : RegRow) (i j off : Nat) (v : Word) (f : FieldRow) : Take :=
  let new := getBits v f.fld.lo f.fld.width
  let ws := f.acc.contains .ws
  let old := getBits (if ws then s.stagedWord off else s.word off) f.fld.lo f.fld.width
  if s.isPv r i f && !s.privileged m then .dropped
  else if f.fixed r.unit i new then .keep
  else if f.acc.contains .wd && s.unitOn r.unit i off && new != old then .ignored
  else if f.acc.contains .wp && s.busy off then .ignored
  else if ws && s.groupPending (s.regGroup r.unit i j) && new != old then .ignored
  else if !f.rng.ok new then .ignored
  else if s.refused f.fld i j v then .ignored
  else .take

/-- A word with the fields of a list replaced by those of another word. -/
def mergeFields (w v : Word) (l : List FieldRow) : Word :=
  l.foldl (fun w f => setBits w f.fld.lo f.fld.width (getBits v f.fld.lo f.fld.width)) w

/-! ## What follows a new value -/

/-- An MSI-X vector is unmasked while its bit is pending: the message is sent (R79). -/
def State.unmasked (s : State) (v : Nat) : State :=
  if !s.on F.HIF_MSIX_CTRL_mask v && bitAt (s.rd F.HIF_MSIX_PBA_pending (v / 32)) (v % 32) then
    (s.wrBit F.HIF_MSIX_PBA_pending (v % 32) false (v / 32)).msix v
  else s

/-- What a write brings about beyond the new value, by its register; `old` is the word before it. -/
def State.wrote (s : State) (r : RegRow) (i off : Nat) (old : Word) : State :=
  if r.unit == .tmp then s.syncEngine i
  else if r.unit == .anv then s.syncAnvil
  else if off = F.HIV_SPILL_SIZE_entries.off then s.hiveSettle
  else if off = F.TIM_LINE_CFG_select.off then s.lineSelect
  else if off = F.BLW_CTL_enable.off ∧ getBits old F.BLW_CTL_enable.lo 1 = 0 ∧ s.on F.BLW_CTL_enable then
    s.setBellows { s.bellows with enabledAt := s.tick, timedOut := false }
  else if F.WAX_TRIG0_kind.off ≤ off ∧ off < F.WAX_TRIG0_kind.off + 0x200 then
    let h := { s.wax with hist := store (fun _ => {}) s.wax.hist i {} }
    { s with wax := h }
  else if r.fields.any (·.fld == F.HIF_MSIX_CTRL_mask) then s.unmasked i
  else s

/-- A posted write lands (R88): the writable fields of the register take it. -/
def State.land (s : State) (off : Nat) (v : Word) : State :=
  match regRow off with
  | none => s
  | some (r, i, _) =>
    let l := r.fields.filter fun f => f.acc.contains .wp && !f.fixed r.unit i (getBits v f.fld.lo f.fld.width)
    let on := r.fields.any fun f => f.fld == F.ADC_SEQ_CTL_enable
    let was := s.on F.ADC_SEQ_CTL_enable i
    let s := s.setWord off (mergeFields (s.word off) v l)
    if on && !was && s.on F.ADC_SEQ_CTL_enable i then s.adcEnable i else s

/-! ## The write of a register -/

/-- The fields of a write that pass take their value: in the staged copy (R86), in the posted write (R88), or in the register. -/
def State.takeFields (s : State) (r : RegRow) (i off : Nat) (v : Word) (l : List FieldRow) : State :=
  let ws := l.filter (·.acc.contains .ws)
  let wp := l.filter (·.acc.contains .wp)
  let now := l.filter fun f => !f.acc.contains .ws && !f.acc.contains .wp
  let s := if ws.isEmpty then s else
    let w := mergeFields (s.stagedWord off) v ws
    let g := { s.glb with staged := store (fun _ => none) s.glb.staged off (some w) }
    { s with glb := g }
  let s := if wp.isEmpty then s else
    let p : Posted := { off := off, value := mergeFields (s.word off) v wp, arrived := s.tick }
    let g := { s.glb with posted := s.glb.posted ++ [p] }
    { s with glb := g }
  if now.isEmpty then s
  else
    let old := s.word off
    (s.setWord off (mergeFields old v now)).wrote r i off old

/-- A 32-bit write of a BAR0 register by a master (R82, R90): field by field, with at most one report of each kind. -/
def State.writeReg (s : State) (m : Master) (off : Nat) (v : Word) : State :=
  match regRow off with
  | none => s.badAccess false true off
  | some (r, i, j) =>
    if r.unit == .ctx && masterId m != 1 && masterId m != 2 then s.bump F.HIV_ERR_foreign_wr
    else
      let t := r.fields.map fun f => (f, s.fieldTake m r i j off v f)
      let taken := (t.filter fun p => p.2 == .take).map (·.1)
      let ignored := t.any fun p => p.2 == .ignored
      let dropped := t.any fun p => p.2 == .dropped
      let s := s.takeFields r i off v taken
      let s := if ignored then s.wrIgnored r.unit i off else s
      if dropped then s.pvDropped m false true off else s

end Sys2Proof.Machine
end

