-- ==== Sys2Proof/Machine/Glb.lean ====
section
/-!
DEFINITION. Machine/Glb.lean: the commands of the chapter "Register behaviour and privilege": register accesses, posted writes,
strobes, the scrubber, mailboxes and the commissioning unlock.
-/

namespace Sys2Proof.Machine

/-! ## Mailboxes (R91 to R94) -/

/-- The data length of an assigned mailbox that never held a result: Anvil residuals, Tongs channels and probes, captures; none for
an unassigned mailbox.  Waggle results vary in length: none is stated before the first. -/
def mailboxLen (m : Nat) : Option (Option Nat) :=
  if 32 ≤ m ∧ m < 40 then some (some 6)
  else if 64 ≤ m ∧ m < 104 then some (some 6)
  else if 112 ≤ m ∧ m < 128 then some none
  else if 128 ≤ m ∧ m < 144 then some (some 3)
  else none

/-- The result that a mailbox shows: its snapshot while Held, else the current or last one. -/
def Mailbox.shown (b : Mailbox) : Nat × List Word × Bool :=
  if b.st = .held then (b.snapSeq, b.snap, b.snapOverrun) else (b.seq, b.data, b.overrun && b.st == .fresh)

/-- A header read takes the snapshot of a Fresh mailbox and starts its hold (R92). -/
def Mailbox.open_ (b : Mailbox) (now : Nat) : Mailbox :=
  if b.st = .fresh then
    { b with st := .held, snapSeq := b.seq, snap := b.data, snapOverrun := b.overrun, heldAt := now }
  else b

/-- A trailer read of a Held mailbox consumes it, and a result that waits enters as Fresh (R92, R93). -/
def Mailbox.consume (b : Mailbox) : Mailbox :=
  match b.st, b.waiting with
  | .held, none => { b with st := .empty, seq := b.snapSeq, data := b.snap, overrun := false }
  | .held, some (q, d) => { b with st := .fresh, seq := q, data := d, overrun := false, waiting := none }
  | _, _ => b

/-- The word of a header. -/
def headerWord (valid overrun held : Bool) (n seq : Nat) : Word :=
  BitVec.ofNat 32 (b2n valid + 2 * b2n overrun + 4 * b2n held + 2 ^ 8 * n + 2 ^ 16 * seq)

/-- MAILBOX_HEADER_READ (R91, R92). -/
def State.readHeader (s : State) (m : Nat) : State :=
  match mailboxLen m with
  | none => { s with rdata := 0 }
  | some len =>
    let b := (s.mailbox m).open_ s.tick
    let (seq, data, overrun) := b.shown
    let n := if data.isEmpty then len.getD (1 + s.freshWord.toNat % 62) else data.length
    let s := if data.isEmpty && len.isNone then s.drawn else s
    { (if b = s.mailbox m then s else s.setMailbox m b) with
      rdata := headerWord (b.st != .empty) overrun (b.st == .held) n seq }

/-- MAILBOX_DATA_READ (R91, R92). -/
def State.readData (s : State) (m i : Nat) : State := { s with rdata := (s.mailbox m).shown.2.1.getD i 0 }

/-- A capture mailbox that is Empty takes the next capture of its unit (R348). -/
def State.nextCapture (s : State) (m : Nat) : State := if 128 ≤ m ∧ m < 144 then s.capOffer (m - 128) else s

/-- MAILBOX_TRAILER_READ (R91 to R93). -/
def State.readTrailer (s : State) (m : Nat) : State :=
  let b := s.mailbox m
  let (seq, _, overrun) := b.shown
  let w := BitVec.ofNat 32 (b2n (b.st == .held) + 2 * b2n overrun + 2 ^ 16 * seq)
  if b.st = .held then { (s.setMailbox m b.consume).nextCapture m with rdata := w } else { s with rdata := w }

/-- A read of the mailbox window (R91). -/
def State.readMailbox (s : State) (off : Nat) : State :=
  let m := off / 256
  let k := off % 256 / 4
  if k = 0 then s.readHeader m else if k = 63 then s.readTrailer m else s.readData m (k - 1)

/-- MAILBOX_HEADER_READ (R92). -/
def execMailboxHeaderRead (m : Fin 16384) (s : State) : Host.Outcome State Fault Refusal := .next (s.readHeader m)

/-- MAILBOX_DATA_READ (R92). -/
def execMailboxDataRead (m : Fin 16384) (i : Fin 62) (s : State) : Host.Outcome State Fault Refusal := .next (s.readData m i)

/-- MAILBOX_TRAILER_READ (R92). -/
def execMailboxTrailerRead (m : Fin 16384) (s : State) : Host.Outcome State Fault Refusal := .next (s.readTrailer m)

/-- MAILBOX_HOLD_EXPIRY (R93): the snapshot is discarded, and the waiting result enters as Fresh with OVERRUN: source 11. -/
def execMailboxHoldExpiry (m : Fin 16384) (s : State) : Host.Outcome State Fault Refusal :=
  let b := s.mailbox m
  match b.st, b.waiting with
  | .held, some (q, d) =>
    let s := s.advanceTo (b.heldAt + us 10)
    let s := s.setMailbox m { b with st := .fresh, seq := q, data := d, overrun := true, waiting := none }
    .next (s.raise 11 1 m (detail [(4, q)]))
  | _, _ => .next s

/-! ## Register accesses (R50, R82 to R90) -/

/-- REGISTER_WRITE (R82): a write to BAR0, BAR2 or BAR4.  A doorbell offset takes the write as its doorbell does (R63); the windows
of BAR4 drop it (R91, R491, R464). -/
def execRegisterWrite (m : Master) (bar : Bar) (off : BitVec 24) (size : BitVec 4) (v : Word) (s : State) :
    Host.Outcome State Fault Refusal :=
  let o := off.toNat
  let good := size = 4 ∧ o % 4 = 0
  match bar with
  | .bar0 => .next (if good then s.writeReg m o v else s.badAccess false true o)
  | .bar2 =>
    if ¬ good then .next (s.badAccess false true o)
    else if o % 4096 = 0 ∧ o < 2 ^ 18 then execSubmissionDoorbell (Fin.ofNat 64 (o / 4096)) v s
    else if o % 4096 = 2048 ∧ o < 2 ^ 18 then execCompletionDoorbell (Fin.ofNat 64 (o / 4096)) v s
    else .next ((s.bump F.HIF_ACC_ERR_bad_doorbell).raise 4 1 0xFFFF (detail [(0, 2), (4, o)]))
  | .bar4 => .next (if o < 0x800000 then s.badAccess true true o else s)

/-- RC_READ (R84): a read of BAR0, BAR2 or BAR4; `rdata` is the answer.  What an aligned read of a doorbell page answers is not
stated: a free value. -/
def execRcRead (m : Master) (bar : Bar) (off : BitVec 24) (size : BitVec 4) (s : State) : Host.Outcome State Fault Refusal :=
  let o := off.toNat
  let good := size = 4 ∧ o % 4 = 0
  match bar with
  | .bar0 => .next (if good then s.readReg m o else { s.badAccess false false o with rdata := 0xFFFFFFFF })
  | .bar2 => .next (if good then { s.drawn with rdata := s.freshWord } else { s.badAccess false false o with rdata := 0xFFFFFFFF })
  | .bar4 =>
    if 0x800000 ≤ o then .next { s with rdata := BitVec.ofNat 32 (le (s.settingsBytes (o - 0x800000) 4)) }
    else if 0x400000 ≤ o then execCursorWindowRead m (BitVec.ofNat 22 o) size s
    else .next (if good then s.readMailbox o else { s.badAccess true false o with rdata := 0xFFFFFFFF })

/-- WP_WRITE_LAND (R88): the posted write of a register lands, and `busy` falls. -/
def execWpWriteLand (off : BitVec 24) (s : State) : Host.Outcome State Fault Refusal :=
  match s.glb.posted.find? (·.off == off.toNat) with
  | none => .next s
  | some p =>
    let g := { s.glb with posted := s.glb.posted.filter (·.off != off.toNat) }
    .next ({ s with glb := g }.land off.toNat p.value)

/-! ## Strobes (R86, R87) -/

/-- GLB_STROBE_STAT.pending is the union of the strobes that are not yet applied. -/
def State.syncStrobes (s : State) : State :=
  s.wr F.GLB_STROBE_STAT_pending (s.glb.strobes.foldl (fun a x => a ||| x.mask) 0)

/-- A write of GLB_STROBE. -/
def State.strobe (s : State) (mask : Nat) (now : Bool) : State :=
  if mask = 0 then s else
  let x : Strobe := { mask := mask, now := now, cellAt := s.cellNs }
  let g := { s.glb with strobes := s.glb.strobes ++ [x] }
  { s with glb := g }.syncStrobes

/-- STROBE_AT_INSTANT (R86). -/
def execStrobeAtInstant (mask : BitVec 16) (s : State) : Host.Outcome State Fault Refusal := .next (s.strobe mask.toNat false)

/-- STROBE_NOW (R86). -/
def execStrobeNow (mask : BitVec 16) (s : State) : Host.Outcome State Fault Refusal := .next (s.strobe mask.toNat true)

/-- The groups of an engine's slots. -/
def State.engineGroups (s : State) (n : Nat) : List Nat :=
  (s.slotsOf n).map fun j => s.chainGroup (s.rd F.TMP_AX_CFG_chain n j)

/-- A group of the mask owns a Temper program that is running. -/
def State.maskRuns (s : State) (mask : Nat) : Bool :=
  (List.range 64).any fun n => s.on F.TMP_STAT_running n && (s.engineGroups n).any (bitAt mask)

/-- A strobe is due: at once with `now` or while no cell cycle runs, unless a program of its groups runs; else at the first common
instant at least 2 µs of cell time after its arrival. -/
def State.strobeDue (s : State) (x : Strobe) : Bool :=
  if x.now || !s.on F.GLB_STAT_cycle_run then !s.maskRuns x.mask
  else decide (2000 ≤ cellDiff s.tim.lastInstant x.cellAt)

/-- The staged copy of one register takes effect if its group is in the mask. -/
def State.applyStaged (s : State) (mask : Nat) (p : Nat × Option Word) : State :=
  match regRow p.1, p.2 with
  | some (r, i, j), some w =>
    if bitAt mask (s.regGroup r.unit i j) then
      let g := { s.glb with staged := store (fun _ => none) s.glb.staged p.1 none }
      ({ s with glb := g }).setWord p.1 (mergeFields (s.word p.1) w (r.fields.filter (·.acc.contains .ws)))
    else s
  | _, _ => s

/-- The groups of a mask are applied at one instant: staged registers, staged law pages (R204), staged schedules (R301). -/
def State.applyGroups (s : State) (mask : Nat) : State :=
  let s := s.glb.staged.foldl (fun s p => s.applyStaged mask p) s
  let s := (List.range 64).foldl (fun s n => if (s.engineGroups n).any (bitAt mask) then s.pageSwitch n else s) s
  (List.range 8).foldl (fun s g =>
    if bitAt mask (s.segGroup g) && (s.seg g).stagedSched.isSome then s.setSeg g { s.seg g with strobed := true } else s) s

/-- STROBE_APPLY (R87): every strobe that is due is applied, and its pending bits clear. -/
def execStrobeApply (s : State) : Host.Outcome State Fault Refusal :=
  let s := (List.range 64).foldl (fun s n => s.endProgram n) s
  let due := s.glb.strobes.filter s.strobeDue
  if due.isEmpty then .next s else
  let mask := due.foldl (fun a x => a ||| x.mask) 0
  let g := { s.glb with strobes := s.glb.strobes.filter fun x => !s.strobeDue x }
  .next (({ s with glb := g }.applyGroups mask).syncStrobes)

/-! ## Voted copies (R89) -/

/-- A disagreement is reported if it is new, and the voted value goes back into all three copies. -/
def State.repair (s : State) (off : Nat) : State := let s := s.noteT3 off; s.setWord off (s.word off)

/-- One copy of a register's T3 fields is upset by an exclusive-or mask. -/
def State.upset (s : State) (off copy : Nat) (mask : Word) : State :=
  match regRow off with
  | none => s
  | some (r, _, _) =>
    let x := mask &&& BitVec.ofNat 32 (r.maskOf .t3)
    let a := lookup resetWord s.regs off
    let (b, c, told) := (s.copies off).getD (a, a, false)
    let a' := if copy = 0 then a ^^^ x else a
    let b' := if copy = 1 then b ^^^ x else b
    let c' := if copy = 2 then c ^^^ x else c
    let v := if a' = b' ∧ b' = c' then none else some (b', c', told)
    let g := { s.glb with t3copies := store (fun _ => none) s.glb.t3copies off v }
    { s with regs := store resetWord s.regs off a', glb := g }

/-- SCRUBBER_VISIT (R89): the scrubber repairs every T3 field; then the upsets that the copies suffer until its next visit strike,
each naming a register, a copy and the bits. -/
def execScrubberVisit (upsets : List (BitVec 24 × Fin 3 × Word)) (s : State) : Host.Outcome State Fault Refusal :=
  let s := s.glb.t3copies.foldl (fun s p => s.repair p.1) s
  .next (upsets.foldl (fun s u => s.upset u.1.toNat u.2.1.val u.2.2) s)

/-! ## The commissioning unlock (R95 to R98) -/

/-- A write of GLB_UNLOCK_CTL is ignored. -/
def State.unlockIgnored (s : State) : State := s.wrIgnored .plain 0 F.GLB_UNLOCK_CTL_request.off

/-- The nonce is cleared. -/
def State.clearNonce (s : State) : State := (List.range 8).foldl (fun s k => s.wr F.GLB_NONCE_nonce 0 k) s

def State.setUnlock (s : State) (u : Unlock) : State := { s with glb := { s.glb with unlock := u } }

/-- The failure wait runs (R96). -/
def State.unlockWaits (s : State) : Bool :=
  match s.glb.unlock.waitEnd with
  | some t => decide (s.tick < t)
  | none => false

/-- UNLOCK_REQUEST (R96). -/
def execUnlockRequest (s : State) : Host.Outcome State Fault Refusal :=
  let st := s.rd F.GLB_UNLOCK_STAT_state
  if st = 2 ∨ st = 3 ∨ s.unlockWaits then .next s.unlockIgnored
  else
    let s := if st = 1 then s.clearNonce.wr F.GLB_UNLOCK_STAT_state 0 else s
    .next (s.setUnlock { s.glb.unlock with requested := true })

/-- NONCE_ISSUED (R95): Farrier serves a request on an owned device. -/
def execNonceIssued (nonce : BitVec 256) (s : State) : Host.Outcome State Fault Refusal :=
  if !s.glb.unlock.requested || !s.otp.owner then .next s
  else
    let s := (List.range 8).foldl (fun s k => s.wr F.GLB_NONCE_nonce (bitsOf nonce.toNat (32 * k) 32) k) s
    .next ((s.wr F.GLB_UNLOCK_STAT_state 1).setUnlock { s.glb.unlock with requested := false, nonceAt := s.tick })

/-- The unlock is granted: source 9 (R95, R98). -/
def State.grantUnlock (s : State) (how : Nat) : State :=
  let s := ((s.wr F.GLB_UNLOCK_STAT_state 3).wr F.GLB_UNLOCK_STAT_fails 0).wr F.HIF_STAT_host_priv 1
  s.raise 9 1 0xFFFF (detail [(1, how)])

/-- UNOWNED_UNLOCK_GRANT (R98). -/
def execUnownedUnlockGrant (s : State) : Host.Outcome State Fault Refusal :=
  if !s.glb.unlock.requested || s.otp.owner then .next s
  else .next ((s.setUnlock { s.glb.unlock with requested := false }).grantUnlock 2)

/-- A verification fails: it counts, and no nonce is issued for 1 s, or for 60 s from the eighth failure in a row (R96). -/
def State.failUnlock (s : State) : State :=
  let s := (s.wr F.GLB_UNLOCK_STAT_state 4).bump F.GLB_UNLOCK_STAT_fails
  let wait := if 8 ≤ s.rd F.GLB_UNLOCK_STAT_fails then sec 60 else sec 1
  s.setUnlock { s.glb.unlock with requested := false, waitEnd := some (s.tick + wait) }

/-- UNLOCK_VERIFY (R96). -/
def execUnlockVerify (s : State) : Host.Outcome State Fault Refusal :=
  let st := s.rd F.GLB_UNLOCK_STAT_state
  if st = 1 then .next (s.wr F.GLB_UNLOCK_STAT_state 2)
  else if st = 2 ∨ st = 3 then .next s.unlockIgnored
  else .next s.failUnlock

/-- The 48-byte message that the host signs, and its signature (R95). -/
def State.unlockMessage (s : State) : List Byte :=
  ((List.range 4).flatMap fun k => toBytes 4 (s.rd F.GLB_UID_uid k)) ++ (List.range 8).flatMap fun k => toBytes 4 (s.rd F.GLB_NONCE_nonce k)
def State.unlockSignature (s : State) : Nat := le ((List.range 16).flatMap fun k => toBytes 4 (s.rd F.GLB_UNLOCK_SIG_sig k))

/-- VERIFY_COMPLETE (R95, R96). -/
def execVerifyComplete (s : State) : Host.Outcome State Fault Refusal :=
  if s.rd F.GLB_UNLOCK_STAT_state ≠ 2 then .next s
  else if Config.ed25519Verify (BitVec.ofNat 256 (le s.otp.ownerKey)) s.unlockMessage (BitVec.ofNat 512 s.unlockSignature) then
    .next (s.clearNonce.grantUnlock 1)
  else .next s.clearNonce.failUnlock

/-- NONCE_EXPIRY (R96). -/
def execNonceExpiry (s : State) : Host.Outcome State Fault Refusal :=
  if s.rd F.GLB_UNLOCK_STAT_state ≠ 1 then .next s
  else .next (((s.advanceTo (s.glb.unlock.nonceAt + sec 1)).clearNonce).wr F.GLB_UNLOCK_STAT_state 0)

/-- UNLOCK_WAIT_EXPIRY (R96). -/
def execUnlockWaitExpiry (s : State) : Host.Outcome State Fault Refusal :=
  match s.glb.unlock.waitEnd with
  | none => .next s
  | some t => .next ((s.advanceTo t).setUnlock { s.glb.unlock with waitEnd := none })

/-- UNLOCK_LOCK (R97). -/
def execUnlockLock (s : State) : Host.Outcome State Fault Refusal := .next (s.withdrawUnlock 1)

end Sys2Proof.Machine
end

