-- ==== Sys2Proof/Machine/Dispatch.lean ====
section
/-!
DEFINITION. Machine/Dispatch.lean: the effect of a command on everything but the queue: one arm for each constructor of Instr.
-/

namespace Sys2Proof.Machine

def exec (i : Instr) (s : State) : Host.Outcome State Fault Refusal :=
  match i with
  | .registerWrite m bar off size v => Sys2Proof.Machine.execRegisterWrite m bar off size v s
  | .rcRead m bar off size => Sys2Proof.Machine.execRcRead m bar off size s
  | .wpWriteLand off => Sys2Proof.Machine.execWpWriteLand off s
  | .strobeAtInstant mask => Sys2Proof.Machine.execStrobeAtInstant mask s
  | .strobeNow mask => Sys2Proof.Machine.execStrobeNow mask s
  | .strobeApply => Sys2Proof.Machine.execStrobeApply s
  | .scrubberVisit upsets => Sys2Proof.Machine.execScrubberVisit upsets s
  | .mailboxHeaderRead m => Sys2Proof.Machine.execMailboxHeaderRead m s
  | .mailboxDataRead m k => Sys2Proof.Machine.execMailboxDataRead m k s
  | .mailboxTrailerRead m => Sys2Proof.Machine.execMailboxTrailerRead m s
  | .mailboxHoldExpiry m => Sys2Proof.Machine.execMailboxHoldExpiry m s
  | .unlockRequest => Sys2Proof.Machine.execUnlockRequest s
  | .nonceIssued nonce => Sys2Proof.Machine.execNonceIssued nonce s
  | .unownedUnlockGrant => Sys2Proof.Machine.execUnownedUnlockGrant s
  | .unlockVerify => Sys2Proof.Machine.execUnlockVerify s
  | .verifyComplete => Sys2Proof.Machine.execVerifyComplete s
  | .nonceExpiry => Sys2Proof.Machine.execNonceExpiry s
  | .unlockWaitExpiry => Sys2Proof.Machine.execUnlockWaitExpiry s
  | .unlockLock => Sys2Proof.Machine.execUnlockLock s
  | .hifReset => Sys2Proof.Machine.execHifReset s
  | .d3hotEntry => Sys2Proof.Machine.execD3hotEntry s
  | .d0Return => Sys2Proof.Machine.execD0Return s
  | .pcieLinkChange up speed width => Sys2Proof.Machine.execPcieLinkChange up speed width s
  | .aerError kind bits => Sys2Proof.Machine.execAerError kind bits s
  | .submissionDoorbell r v => Sys2Proof.Machine.execSubmissionDoorbell r v s
  | .completionDoorbell q v => Sys2Proof.Machine.execCompletionDoorbell q v s
  | .descriptorFetch r shadow => Sys2Proof.Machine.execDescriptorFetch r shadow s
  | .fetchComplete r descs err => Sys2Proof.Machine.execFetchComplete r descs err s
  | .completionWrite q err => Sys2Proof.Machine.execCompletionWrite q err s
  | .moderationTimerExpiry v => Sys2Proof.Machine.execModerationTimerExpiry v s
  | .eventDelivery err => Sys2Proof.Machine.execEventDelivery err s
  | .eventsLostReport => Sys2Proof.Machine.execEventsLostReport s
  | .sqEnable m r => Sys2Proof.Machine.execSqEnable m r s
  | .sqDisable r => Sys2Proof.Machine.execSqDisable r s
  | .sqReset r => Sys2Proof.Machine.execSqReset r s
  | .sqAbortAll r => Sys2Proof.Machine.execSqAbortAll r s
  | .cqEnable q => Sys2Proof.Machine.execCqEnable q s
  | .cqDisable q => Sys2Proof.Machine.execCqDisable q s
  | .cqReset q => Sys2Proof.Machine.execCqReset q s
  | .nop r => Sys2Proof.Machine.execNop r s
  | .abortOp r => Sys2Proof.Machine.execAbort r s
  | .hiveDispatch => Sys2Proof.Machine.execHiveDispatch s
  | .affinityWaitExpiry seq => Sys2Proof.Machine.execAffinityWaitExpiry seq s
  | .runLimitExpiry c => Sys2Proof.Machine.execRunLimitExpiry c s
  | .coreReset c => Sys2Proof.Machine.execCoreReset c s
  | .coreRejoin c => Sys2Proof.Machine.execCoreRejoin c s
  | .fgrEndDone c => Sys2Proof.Machine.execFgrEndDone c s
  | .fgrEndYield c => Sys2Proof.Machine.execFgrEndYield c s
  | .fgrEndSleep c wake => Sys2Proof.Machine.execFgrEndSleep c wake s
  | .fgrSubmit c ctx prio arg => Sys2Proof.Machine.execFgrSubmit c ctx prio arg s
  | .timerArmTimeout c ctx arg wake => Sys2Proof.Machine.execTimerArmTimeout c ctx arg wake s
  | .timerArmGeneral c ctx arg wake => Sys2Proof.Machine.execTimerArmGeneral c ctx arg wake s
  | .timerCancel c handle => Sys2Proof.Machine.execTimerCancel c handle s
  | .contextSetFree c ctx => Sys2Proof.Machine.execContextSetFree c ctx s
  | .contextSetActive c ctx => Sys2Proof.Machine.execContextSetActive c ctx s
  | .hiveTick => Sys2Proof.Machine.execHiveTick s
  | .spillRefill ring => Sys2Proof.Machine.execSpillRefill ring s
  | .backpressureTimeout c => Sys2Proof.Machine.execBackpressureTimeout c s
  | .anvilSubmit m slot => Sys2Proof.Machine.execAnvilSubmit m slot s
  | .anvilAbort m slot => Sys2Proof.Machine.execAnvilAbort m slot s
  | .anvilReset n => Sys2Proof.Machine.execAnvilReset n s
  | .anvilFault n sram => Sys2Proof.Machine.execAnvilFault n sram s
  | .anvilDisable n => Sys2Proof.Machine.execAnvilDisable n s
  | .solve r => Sys2Proof.Machine.execSolve r s
  | .warmClear r => Sys2Proof.Machine.execWarmClear r s
  | .anvilDispatch => Sys2Proof.Machine.execAnvilDispatch s
  | .jobLoadComplete n io => Sys2Proof.Machine.execJobLoadComplete n io s
  | .factorisationComplete n => Sys2Proof.Machine.execFactorisationComplete n s
  | .iteration n => Sys2Proof.Machine.execIteration n s
  | .refactorisationComplete n => Sys2Proof.Machine.execRefactorisationComplete n s
  | .jobDeadline n => Sys2Proof.Machine.execJobDeadline n s
  | .jobOutput n io => Sys2Proof.Machine.execJobOutput n io s
  | .commitSignal => Sys2Proof.Machine.execCommitSignal s
  | .moveJoint r io => Sys2Proof.Machine.execMoveJoint r io s
  | .moveLine r io => Sys2Proof.Machine.execMoveLine r io s
  | .moveArc r io => Sys2Proof.Machine.execMoveArc r io s
  | .moveSpline r io => Sys2Proof.Machine.execMoveSpline r io s
  | .dwell r => Sys2Proof.Machine.execDwell r s
  | .hold r => Sys2Proof.Machine.execHold r s
  | .stopOp r => Sys2Proof.Machine.execStop r s
  | .resume r => Sys2Proof.Machine.execResume r s
  | .cancel r => Sys2Proof.Machine.execCancel r s
  | .setAccel r => Sys2Proof.Machine.execSetAccel r s
  | .status r => Sys2Proof.Machine.execStatus r s
  | .segmentComplete c => Sys2Proof.Machine.execSegmentComplete c s
  | .chainStandstill c rem len => Sys2Proof.Machine.execChainStandstill c rem len s
  | .planningTick work unreachable => Sys2Proof.Machine.execPlanningTick work unreachable s
  | .plannerCompletion c => Sys2Proof.Machine.execPlannerCompletion c s
  | .zoneRequestForm c => Sys2Proof.Machine.execZoneRequestForm c s
  | .keeperDecision => Sys2Proof.Machine.execKeeperDecision s
  | .zoneWaitExpiry c deadline => Sys2Proof.Machine.execZoneWaitExpiry c deadline s
  | .zoneHoldLimitExpiry c z => Sys2Proof.Machine.execZoneHoldLimitExpiry c z s
  | .zoneRequestMsg m => Sys2Proof.Machine.execZoneRequestMsg m s
  | .zoneReleaseMsg m => Sys2Proof.Machine.execZoneReleaseMsg m s
  | .zoneWithdrawMsg m => Sys2Proof.Machine.execZoneWithdrawMsg m s
  | .zoneStateMsg m => Sys2Proof.Machine.execZoneStateMsg m s
  | .zoneClaimMsg m => Sys2Proof.Machine.execZoneClaimMsg m s
  | .keeperRestartEnd => Sys2Proof.Machine.execKeeperRestartEnd s
  | .planCfg r => Sys2Proof.Machine.execPlanCfg r s
  | .swarmCfg r => Sys2Proof.Machine.execSwarmCfg r s
  | .chainCfg r => Sys2Proof.Machine.execChainCfg r s
  | .zoneTable r io => Sys2Proof.Machine.execZoneTable r io s
  | .plannerSettingApply => Sys2Proof.Machine.execPlannerSettingApply s
  | .allowanceTableStop c => Sys2Proof.Machine.execAllowanceTableStop c s
  | .temperProgramStart n fb clocks sramError => Sys2Proof.Machine.execTemperProgramStart n fb clocks sramError s
  | .temperEnable n => Sys2Proof.Machine.execTemperEnable n s
  | .temperDisable n => Sys2Proof.Machine.execTemperDisable n s
  | .temperResetWrite n => Sys2Proof.Machine.execTemperResetWrite n s
  | .feClear n j => Sys2Proof.Machine.execFeClear n j s
  | .lawLoad r io => Sys2Proof.Machine.execLawLoad r io s
  | .inject r io => Sys2Proof.Machine.execInject r io s
  | .captureSet r => Sys2Proof.Machine.execCaptureSet r s
  | .capture r => Sys2Proof.Machine.execCapture r s
  | .fra r => Sys2Proof.Machine.execFra r s
  | .injectionStart r => Sys2Proof.Machine.execInjectionStart r s
  | .injectionEnd r => Sys2Proof.Machine.execInjectionEnd r s
  | .captureDrain k => Sys2Proof.Machine.execCaptureDrain k s
  | .fraStart r => Sys2Proof.Machine.execFraStart r s
  | .fraComplete r io => Sys2Proof.Machine.execFraComplete r io s
  | .fraDeadline r io => Sys2Proof.Machine.execFraDeadline r io s
  | .progLoad r io sig => Sys2Proof.Machine.execProgLoad r io sig s
  | .progClear r => Sys2Proof.Machine.execProgClear r s
  | .bgStart n => Sys2Proof.Machine.execBgStart n s
  | .backgroundPreemption n => Sys2Proof.Machine.execBackgroundPreemption n s
  | .ldW n gap ax mode dd ext => Sys2Proof.Machine.execLdW n gap ax mode dd ext s
  | .ldD n gap ax mode dd ext => Sys2Proof.Machine.execLdD n gap ax mode dd ext s
  | .ldB n gap ax mode dd ext => Sys2Proof.Machine.execLdB n gap ax mode dd ext s
  | .stW n gap ax mode dd ext => Sys2Proof.Machine.execStW n gap ax mode dd ext s
  | .stD n gap ax mode dd ext => Sys2Proof.Machine.execStD n gap ax mode dd ext s
  | .ldxy n gap ax mode dd ext => Sys2Proof.Machine.execLdxy n gap ax mode dd ext s
  | .stN n gap ax mode dd ext => Sys2Proof.Machine.execStN n gap ax mode dd ext s
  | .stNc n gap ax mode dd ext => Sys2Proof.Machine.execStNc n gap ax mode dd ext s
  | .amod n gap ax mode dd ext => Sys2Proof.Machine.execAmod n gap ax mode dd ext s
  | .mva n gap ax mode dd ext => Sys2Proof.Machine.execMva n gap ax mode dd ext s
  | .mvm n gap ax mode dd ext => Sys2Proof.Machine.execMvm n gap ax mode dd ext s
  | .mvd n gap ax mode dd ext => Sys2Proof.Machine.execMvd n gap ax mode dd ext s
  | .mvmd n gap ax mode dd ext => Sys2Proof.Machine.execMvmd n gap ax mode dd ext s
  | .mvc n gap ax mode dd ext => Sys2Proof.Machine.execMvc n gap ax mode dd ext s
  | .mvcw n gap ax mode dd ext => Sys2Proof.Machine.execMvcw n gap ax mode dd ext s
  | .mul n gap s1 s2 aux => Sys2Proof.Machine.execMul n gap s1 s2 aux s
  | .mac n gap s1 s2 aux => Sys2Proof.Machine.execMac n gap s1 s2 aux s
  | .msu n gap s1 s2 aux => Sys2Proof.Machine.execMsu n gap s1 s2 aux s
  | .dmac n gap s1 s2 aux => Sys2Proof.Machine.execDmac n gap s1 s2 aux s
  | .cmul n gap s1 s2 aux => Sys2Proof.Machine.execCmul n gap s1 s2 aux s
  | .cmac n gap s1 s2 aux => Sys2Proof.Machine.execCmac n gap s1 s2 aux s
  | .cmacj n gap s1 s2 aux => Sys2Proof.Machine.execCmacj n gap s1 s2 aux s
  | .aclr n gap s1 s2 aux => Sys2Proof.Machine.execAclr n gap s1 s2 aux s
  | .nrw n gap s1 s2 aux => Sys2Proof.Machine.execNrw n gap s1 s2 aux s
  | .ash n gap s1 s2 aux => Sys2Proof.Machine.execAsh n gap s1 s2 aux s
  | .add n gap s1 s2 aux => Sys2Proof.Machine.execAdd n gap s1 s2 aux s
  | .sub n gap s1 s2 aux => Sys2Proof.Machine.execSub n gap s1 s2 aux s
  | .adds n gap s1 s2 aux => Sys2Proof.Machine.execAdds n gap s1 s2 aux s
  | .subs n gap s1 s2 aux => Sys2Proof.Machine.execSubs n gap s1 s2 aux s
  | .and n gap s1 s2 aux => Sys2Proof.Machine.execAnd n gap s1 s2 aux s
  | .or n gap s1 s2 aux => Sys2Proof.Machine.execOr n gap s1 s2 aux s
  | .xor n gap s1 s2 aux => Sys2Proof.Machine.execXor n gap s1 s2 aux s
  | .shl n gap s1 s2 aux => Sys2Proof.Machine.execShl n gap s1 s2 aux s
  | .shr n gap s1 s2 aux => Sys2Proof.Machine.execShr n gap s1 s2 aux s
  | .shrr n gap s1 s2 aux => Sys2Proof.Machine.execShrr n gap s1 s2 aux s
  | .min n gap s1 s2 aux => Sys2Proof.Machine.execMin n gap s1 s2 aux s
  | .max n gap s1 s2 aux => Sys2Proof.Machine.execMax n gap s1 s2 aux s
  | .cls n gap s1 s2 aux => Sys2Proof.Machine.execCls n gap s1 s2 aux s
  | .clsa n gap s1 s2 aux => Sys2Proof.Machine.execClsa n gap s1 s2 aux s
  | .movi n gap s1 s2 aux => Sys2Proof.Machine.execMovi n gap s1 s2 aux s
  | .tst n gap s1 s2 aux => Sys2Proof.Machine.execTst n gap s1 s2 aux s
  | .br n gap op => Sys2Proof.Machine.execBr n gap op s
  | .bz n gap op => Sys2Proof.Machine.execBz n gap op s
  | .bnz n gap op => Sys2Proof.Machine.execBnz n gap op s
  | .bn n gap op => Sys2Proof.Machine.execBn n gap op s
  | .bnn n gap op => Sys2Proof.Machine.execBnn n gap op s
  | .call n gap op => Sys2Proof.Machine.execCall n gap op s
  | .ret n gap op => Sys2Proof.Machine.execRet n gap op s
  | .endOp n gap op => Sys2Proof.Machine.execEnd n gap op s
  | .rbg n gap op => Sys2Proof.Machine.execRbg n gap op s
  | .lset n gap op => Sys2Proof.Machine.execLset n gap op s
  | .loop n gap op => Sys2Proof.Machine.execLoop n gap op s
  | .rot n gap op => Sys2Proof.Machine.execRot n gap op s
  | .atom n gap op => Sys2Proof.Machine.execAtom n gap op s
  | .tongsEnable m c levels => Sys2Proof.Machine.execTongsEnable m c levels s
  | .tongsDisable m c => Sys2Proof.Machine.execTongsDisable m c s
  | .quadratureEdge c a b te skew => Sys2Proof.Machine.execQuadratureEdge c a b te skew s
  | .wireDisagreement c pair => Sys2Proof.Machine.execWireDisagreement c pair s
  | .indexEvent c te skew => Sys2Proof.Machine.execIndexEvent c te skew s
  | .hallSectorChange c code te skew => Sys2Proof.Machine.execHallSectorChange c code te skew s
  | .ssiFrameStart c low => Sys2Proof.Machine.execSsiFrameStart c low s
  | .ssiFrameEnd c bits stopLow => Sys2Proof.Machine.execSsiFrameEnd c bits stopLow s
  | .standstillTimeout c => Sys2Proof.Machine.execStandstillTimeout c s
  | .tongsClear c => Sys2Proof.Machine.execTongsClear c s
  | .probeArm p => Sys2Proof.Machine.execProbeArm p s
  | .probeDisarm p => Sys2Proof.Machine.execProbeDisarm p s
  | .probeLatch p rising te skew => Sys2Proof.Machine.execProbeLatch p rising te skew s
  | .tngSample r => Sys2Proof.Machine.execTngSample r s
  | .swageLinkSlot c => Sys2Proof.Machine.execSwageLinkSlot c s
  | .swageStatusMessage c w => Sys2Proof.Machine.execSwageStatusMessage c w s
  | .statusMessageMissing c => Sys2Proof.Machine.execStatusMessageMissing c s
  | .profileTick c pick => Sys2Proof.Machine.execProfileTick c pick s
  | .swgMove r => Sys2Proof.Machine.execSwgMove r s
  | .swgStop r => Sys2Proof.Machine.execSwgStop r s
  | .swgResume r => Sys2Proof.Machine.execSwgResume r s
  | .swgHome r => Sys2Proof.Machine.execSwgHome r s
  | .swgSetAccel r => Sys2Proof.Machine.execSwgSetAccel r s
  | .swageAccelWrite c which v => Sys2Proof.Machine.execSwageAccelWrite c which v s
  | .swageStopRequest c => Sys2Proof.Machine.execSwageStopRequest c s
  | .swageEnable c => Sys2Proof.Machine.execSwageEnable c s
  | .swageDisable c => Sys2Proof.Machine.execSwageDisable c s
  | .swageClear c => Sys2Proof.Machine.execSwageClear c s
  | .homingSettleEnd c => Sys2Proof.Machine.execHomingSettleEnd c s
  | .holdCurrentDelay c => Sys2Proof.Machine.execHoldCurrentDelay c s
  | .schedLoad r io => Sys2Proof.Machine.execSchedLoad r io s
  | .stagedScheduleApply g => Sys2Proof.Machine.execStagedScheduleApply g s
  | .segmentEnable m g => Sys2Proof.Machine.execSegmentEnable m g s
  | .segmentDisable m g => Sys2Proof.Machine.execSegmentDisable m g s
  | .commonInstant => Sys2Proof.Machine.execCommonInstant s
  | .feedbackComplete g => Sys2Proof.Machine.execFeedbackComplete g s
  | .frameReception g slot a b => Sys2Proof.Machine.execFrameReception g slot a b s
  | .minislotBoundary g => Sys2Proof.Machine.execMinislotBoundary g s
  | .dynamicFramePost g id payload => Sys2Proof.Machine.execDynamicFramePost g id payload s
  | .transmitLeadExamination g k => Sys2Proof.Machine.execTransmitLeadExamination g k s
  | .staticFrameTransmit g k => Sys2Proof.Machine.execStaticFrameTransmit g k s
  | .errorWindowRollover => Sys2Proof.Machine.execErrorWindowRollover s
  | .listenTimeout g => Sys2Proof.Machine.execListenTimeout g s
  | .coldstartComplete g => Sys2Proof.Machine.execColdstartComplete g s
  | .backoffExpiry g => Sys2Proof.Machine.execBackoffExpiry g s
  | .timeMessage g => Sys2Proof.Machine.execTimeMessage g s
  | .echoReq g => Sys2Proof.Machine.execEchoReq g s
  | .echoResp g => Sys2Proof.Machine.execEchoResp g s
  | .integrationComplete g => Sys2Proof.Machine.execIntegrationComplete g s
  | .integrationLimitExpiry g => Sys2Proof.Machine.execIntegrationLimitExpiry g s
  | .clockCorrection g => Sys2Proof.Machine.execClockCorrection g s
  | .passiveRecovery g => Sys2Proof.Machine.execPassiveRecovery g s
  | .syncMasterLoss g => Sys2Proof.Machine.execSyncMasterLoss g s
  | .syncFrameAbsence g => Sys2Proof.Machine.execSyncFrameAbsence g s
  | .relearn g => Sys2Proof.Machine.execRelearn g s
  | .nodeLeft g node => Sys2Proof.Machine.execNodeLeft g node s
  | .guardCut g slot => Sys2Proof.Machine.execGuardCut g slot s
  | .guardViewCompare g b diff => Sys2Proof.Machine.execGuardViewCompare g b diff s
  | .guardSyncLoss g => Sys2Proof.Machine.execGuardSyncLoss g s
  | .waggleStart g => Sys2Proof.Machine.execWaggleStart g s
  | .waggleStop g => Sys2Proof.Machine.execWaggleStop g s
  | .waggleShot g crossings => Sys2Proof.Machine.execWaggleShot g crossings s
  | .waggleDone g => Sys2Proof.Machine.execWaggleDone g s
  | .compareArm u => Sys2Proof.Machine.execCompareArm u s
  | .compareDisarm u => Sys2Proof.Machine.execCompareDisarm u s
  | .compareMatch u => Sys2Proof.Machine.execCompareMatch u s
  | .adcWake u => Sys2Proof.Machine.execAdcWake u s
  | .captureEdge u rising te skew => Sys2Proof.Machine.execCaptureEdge u rising te skew s
  | .cycleWrite m v => Sys2Proof.Machine.execCycleWrite m v s
  | .timeSnapshotRead m => Sys2Proof.Machine.execTimeSnapshotRead m s
  | .lineOffsetDelivery b theta rate slave => Sys2Proof.Machine.execLineOffsetDelivery b theta rate slave s
  | .domainLoss b => Sys2Proof.Machine.execDomainLoss b s
  | .domainRevert => Sys2Proof.Machine.execDomainRevert s
  | .tpoPulseEnd p => Sys2Proof.Machine.execTpoPulseEnd p s
  | .ethLinkChange n link lock los present => Sys2Proof.Machine.execEthLinkChange n link lock los present s
  | .ethFrameReceived n frame ok taken => Sys2Proof.Machine.execEthFrameReceived n frame ok taken s
  | .mdioRead m phy reg c45 => Sys2Proof.Machine.execMdioRead m phy reg c45 s
  | .mdioWrite m phy reg c45 data => Sys2Proof.Machine.execMdioWrite m phy reg c45 data s
  | .mdioAddress m phy dev reg => Sys2Proof.Machine.execMdioAddress m phy dev reg s
  | .mdioFrameDone answer => Sys2Proof.Machine.execMdioFrameDone answer s
  | .safetyTick pins => Sys2Proof.Machine.execSafetyTick pins s
  | .safetyTickTimeout pins => Sys2Proof.Machine.execSafetyTickTimeout pins s
  | .discrepancyFault p => Sys2Proof.Machine.execDiscrepancyFault p s
  | .testPulse t low => Sys2Proof.Machine.execTestPulse t low s
  | .outputOffTest p sw fell => Sys2Proof.Machine.execOutputOffTest p sw fell s
  | .connectionWatchdogExpiry n => Sys2Proof.Machine.execConnectionWatchdogExpiry n s
  | .sourceMissingLimit c j => Sys2Proof.Machine.execSourceMissingLimit c j s
  | .ss1LimitTimeExpiry c => Sys2Proof.Machine.execSs1LimitTimeExpiry c s
  | .restartDelayExpiry c => Sys2Proof.Machine.execRestartDelayExpiry c s
  | .stoFeedbackTimeout c => Sys2Proof.Machine.execStoFeedbackTimeout c s
  | .lockstepMismatch which => Sys2Proof.Machine.execLockstepMismatch which s
  | .quenchWatchdogExpiry => Sys2Proof.Machine.execQuenchWatchdogExpiry s
  | .quenchSramError => Sys2Proof.Machine.execQuenchSramError s
  | .quenchScrub corrected => Sys2Proof.Machine.execQuenchScrub corrected s
  | .codeCheck ok => Sys2Proof.Machine.execCodeCheck ok s
  | .selfTestComplete failed => Sys2Proof.Machine.execSelfTestComplete failed s
  | .quenchRailFault => Sys2Proof.Machine.execQuenchRailFault s
  | .quenchRailReturn => Sys2Proof.Machine.execQuenchRailReturn s
  | .spsLoad r io => Sys2Proof.Machine.execSpsLoad r io s
  | .spsRead r io => Sys2Proof.Machine.execSpsRead r io s
  | .spsConfirmWrite m v => Sys2Proof.Machine.execSpsConfirmWrite m v s
  | .brakeTest r => Sys2Proof.Machine.execBrakeTest r s
  | .brakeEngageTimeExpiry => Sys2Proof.Machine.execBrakeEngageTimeExpiry s
  | .torqueRampEnd => Sys2Proof.Machine.execTorqueRampEnd s
  | .torqueReachTimeout => Sys2Proof.Machine.execTorqueReachTimeout s
  | .testDurationExpiry => Sys2Proof.Machine.execTestDurationExpiry s
  | .brakeReleaseTimeExpiry => Sys2Proof.Machine.execBrakeReleaseTimeExpiry s
  | .brakeTestDue b => Sys2Proof.Machine.execBrakeTestDue b s
  | .brakeTestOverdue b => Sys2Proof.Machine.execBrakeTestOverdue b s
  | .adcSoftwareTrigger q => Sys2Proof.Machine.execAdcSoftwareTrigger q s
  | .adcTriggerInputEvent tin rising => Sys2Proof.Machine.execAdcTriggerInputEvent tin rising s
  | .adcSample q code => Sys2Proof.Machine.execAdcSample q code s
  | .adcResult q => Sys2Proof.Machine.execAdcResult q s
  | .adcQueuePop m => Sys2Proof.Machine.execAdcQueuePop m s
  | .adcLastRead m n => Sys2Proof.Machine.execAdcLastRead m n s
  | .adcSeqDisable q => Sys2Proof.Machine.execAdcSeqDisable q s
  | .roleDecision => Sys2Proof.Machine.execRoleDecision s
  | .bellowsLinkTimeout => Sys2Proof.Machine.execBellowsLinkTimeout s
  | .bellowsDisable m => Sys2Proof.Machine.execBellowsDisable m s
  | .heartbeatSend => Sys2Proof.Machine.execHeartbeatSend s
  | .heartbeatReceived h => Sys2Proof.Machine.execHeartbeatReceived h s
  | .heartbeatLost => Sys2Proof.Machine.execHeartbeatLost s
  | .mirrorApply m => Sys2Proof.Machine.execMirrorApply m s
  | .laneLoss n => Sys2Proof.Machine.execLaneLoss n s
  | .laneRestore n => Sys2Proof.Machine.execLaneRestore n s
  | .takeover => Sys2Proof.Machine.execTakeover s
  | .pairSwap r => Sys2Proof.Machine.execPairSwap r s
  | .swapExecute firstA firstB => Sys2Proof.Machine.execSwapExecute firstA firstB s
  | .modeRequestRun m => Sys2Proof.Machine.execModeRequestRun m s
  | .modeRequestHold m => Sys2Proof.Machine.execModeRequestHold m s
  | .modeRequestCommission m => Sys2Proof.Machine.execModeRequestCommission m s
  | .modeRequestStage m => Sys2Proof.Machine.execModeRequestStage m s
  | .modeRequestSentinel m => Sys2Proof.Machine.execModeRequestSentinel m s
  | .modeRequestStandby m => Sys2Proof.Machine.execModeRequestStandby m s
  | .modeRequestColdKindle m kindle => Sys2Proof.Machine.execModeRequestColdKindle m kindle s
  | .modeTransition => Sys2Proof.Machine.execModeTransition s
  | .sentinelEntry => Sys2Proof.Machine.execSentinelEntry s
  | .sentinelRampSwitch => Sys2Proof.Machine.execSentinelRampSwitch s
  | .fwWatchdogServe m v => Sys2Proof.Machine.execFwWatchdogServe m v s
  | .fwWatchdogExpiry => Sys2Proof.Machine.execFwWatchdogExpiry s
  | .ddrUncorrectableRead ch addr retryOk => Sys2Proof.Machine.execDdrUncorrectableRead ch addr retryOk s
  | .ddrControllerFault ch => Sys2Proof.Machine.execDdrControllerFault ch s
  | .ddrCorrectableThreshold ch n => Sys2Proof.Machine.execDdrCorrectableThreshold ch n s
  | .powerOnReset => Sys2Proof.Machine.execPowerOnReset s
  | .pinReset ns => Sys2Proof.Machine.execPinReset ns s
  | .softwareReset m => Sys2Proof.Machine.execSoftwareReset m s
  | .farrierWatchdogReset => Sys2Proof.Machine.execFarrierWatchdogReset s
  | .pllUnlock k => Sys2Proof.Machine.execPllUnlock k s
  | .staleResponseDiscard => Sys2Proof.Machine.execStaleResponseDiscard s
  | .resetRelease => Sys2Proof.Machine.execResetRelease s
  | .pllLock => Sys2Proof.Machine.execPllLock s
  | .otpReadDone kindlePin => Sys2Proof.Machine.execOtpReadDone kindlePin s
  | .imageSlotChoice => Sys2Proof.Machine.execImageSlotChoice s
  | .ddrTrainingDone ok => Sys2Proof.Machine.execDdrTrainingDone ok s
  | .foragerStart regionsFit => Sys2Proof.Machine.execForagerStart regionsFit s
  | .settingsMigration content refusal => Sys2Proof.Machine.execSettingsMigration content refusal s
  | .endOfBoot startRun => Sys2Proof.Machine.execEndOfBoot startRun s
  | .stageOpen r => Sys2Proof.Machine.execStageOpen r s
  | .stageWrite r io => Sys2Proof.Machine.execStageWrite r io s
  | .stageCommit r => Sys2Proof.Machine.execStageCommit r s
  | .stageRelease r => Sys2Proof.Machine.execStageRelease r s
  | .ethernetStageRequest op => Sys2Proof.Machine.execEthernetStageRequest op s
  | .stageLockTimeout => Sys2Proof.Machine.execStageLockTimeout s
  | .imageConfirm r => Sys2Proof.Machine.execImageConfirm r s
  | .ownerFuse r io readBack => Sys2Proof.Machine.execOwnerFuse r io readBack s
  | .settingsSave r content => Sys2Proof.Machine.execSettingsSave r content s
  | .attest r io => Sys2Proof.Machine.execAttest r io s
  | .softwareTrigger mask => Sys2Proof.Machine.execSoftwareTrigger mask s
  | .recordTake => Sys2Proof.Machine.execRecordTake s
  | .waxbookClear m => Sys2Proof.Machine.execWaxbookClear m s
  | .cursorWindowRead m w size => Sys2Proof.Machine.execCursorWindowRead m w size s
  | .trcStart r => Sys2Proof.Machine.execTrcStart r s
  | .trcStop r => Sys2Proof.Machine.execTrcStop r s
  | .trcRead r io => Sys2Proof.Machine.execTrcRead r io s
  | .counters r io => Sys2Proof.Machine.execCounters r io s
  | .supplyMonitorSample devs => Sys2Proof.Machine.execSupplyMonitorSample devs s
  | .thermalSample r0 r1 r2 r3 => Sys2Proof.Machine.execThermalSample r0 r1 r2 r3 s
  | .safetyInputSample levels => Sys2Proof.Machine.execSafetyInputSample levels s
  | .flashProgramComplete ok => Sys2Proof.Machine.execFlashProgramComplete ok s
  | .waxbookRecordComplete extFail => Sys2Proof.Machine.execWaxbookRecordComplete extFail s

end Sys2Proof.Machine
end

