-- ==== Sys2Proof/WellFormed.lean ====
section
/-!
DEFINITION. WellFormed.lean: the well-formed commands.  Most operands are in range by their types; the checks here bound the data that
comes in lists: bodies (R56), descriptors (R55, R68), planner windows (R206, R208), feedback (R192), frames (R295, R353), mirrored
windows and contexts (R430), settings (R464), supply readings (R498).
-/

namespace Sys2Proof

/-- An extended body is at most 16 MiB long (R56). -/
def HostIo.wf (io : HostIo) : Bool := decide (io.body.length ≤ 16777216)

/-- The first 24 bytes of a window buffer, and pieces of 16 + 28a bytes for 1 to 16 axes (R206, R208). -/
def pieceWf (p : List Byte) : Bool := decide (44 ≤ p.length) && decide (p.length ≤ 464) && decide ((p.length - 16) % 28 = 0)
def PlanWindow.wf (w : PlanWindow) : Bool := w.head.length == 24 && w.pieces.all pieceWf && decide (w.pieces.length ≤ 32)

/-- A job descriptor has 64 bytes (R128). -/
def PlanWork.wf (w : PlanWork) : Bool := w.job.length == 64 && w.windows.all PlanWindow.wf

/-- A frame is a header of 8 bytes, at most 254 bytes of payload and 4 bytes of frame CRC (R295, R296). -/
def Copy.wf (c : Copy) : Bool := decide (c.bytes.length ≤ 266)
def Copy.wfOpt (c : Option Copy) : Bool := match c with | none => true | some c => c.wf

/-- Mirrored windows and the sixteen words of task contexts (R104, R206, R430). -/
def MirrorWindow.wf (w : MirrorWindow) : Bool := decide (w.bytes.length ≤ 1024) && w.pieces.all pieceWf
def Mirror.wf (m : Mirror) : Bool := m.windows.all MirrorWindow.wf && m.contexts.all fun p => p.2.length == 16

/-- The body of a staged write has 1 byte to 16 MiB (R468). -/
def StageOp.wf (o : StageOp) : Bool :=
  match o with
  | .stageWrite _ body => decide (1 ≤ body.length) && decide (body.length ≤ 16777216)
  | .stageOpen _ | .stageCommit | .stageRelease => true

/-- A command is well formed. -/
def Instr.wf (i : Instr) : Bool :=
  match i with
  | .scrubberVisit upsets => upsets.length ≤ 4096
  | .fetchComplete _ descs _ => descs.length ≤ 8 && descs.all (fun b => b.length == 64)
  | .jobLoadComplete _ io => io.wf
  | .jobOutput _ io => io.wf
  | .moveJoint _ io => io.wf
  | .moveLine _ io => io.wf
  | .moveArc _ io => io.wf
  | .moveSpline _ io => io.wf
  | .planningTick work unreachable => work.all PlanWork.wf && unreachable.length ≤ 16
  | .zoneTable _ io => io.wf
  | .temperProgramStart _ fb _ _ => fb.length ≤ 16
  | .lawLoad _ io => io.wf
  | .inject _ io => io.wf
  | .fraComplete _ io => io.wf
  | .fraDeadline _ io => io.wf
  | .progLoad _ io _ => io.wf
  | .schedLoad _ io => io.wf
  | .frameReception _ _ a b => Copy.wfOpt a && Copy.wfOpt b
  | .dynamicFramePost _ _ payload => payload.length ≤ 254
  | .waggleShot _ crossings => crossings.length ≤ 4096
  | .ethFrameReceived _ frame _ _ => frame.length ≤ 2048
  | .spsLoad _ io => io.wf
  | .spsRead _ io => io.wf
  | .mirrorApply m => m.wf
  | .settingsMigration content _ => content.length + 128 ≤ 8388608
  | .stageWrite _ io => io.wf
  | .ethernetStageRequest op => op.wf
  | .ownerFuse _ io _ => io.wf
  | .settingsSave _ content => content.length + 128 ≤ 8388608
  | .attest _ io => io.wf
  | .trcRead _ io => io.wf
  | .counters _ io => io.wf
  | .supplyMonitorSample devs => devs.length == 11
  | .registerWrite .. => true
  | .rcRead .. => true
  | .wpWriteLand .. => true
  | .strobeAtInstant .. => true
  | .strobeNow .. => true
  | .strobeApply => true
  | .mailboxHeaderRead .. => true
  | .mailboxDataRead .. => true
  | .mailboxTrailerRead .. => true
  | .mailboxHoldExpiry .. => true
  | .unlockRequest => true
  | .nonceIssued .. => true
  | .unownedUnlockGrant => true
  | .unlockVerify => true
  | .verifyComplete => true
  | .nonceExpiry => true
  | .unlockWaitExpiry => true
  | .unlockLock => true
  | .hifReset => true
  | .d3hotEntry => true
  | .d0Return => true
  | .pcieLinkChange .. => true
  | .aerError .. => true
  | .submissionDoorbell .. => true
  | .completionDoorbell .. => true
  | .descriptorFetch .. => true
  | .completionWrite .. => true
  | .moderationTimerExpiry .. => true
  | .eventDelivery .. => true
  | .eventsLostReport => true
  | .sqEnable .. => true
  | .sqDisable .. => true
  | .sqReset .. => true
  | .sqAbortAll .. => true
  | .cqEnable .. => true
  | .cqDisable .. => true
  | .cqReset .. => true
  | .nop .. => true
  | .abortOp .. => true
  | .hiveDispatch => true
  | .affinityWaitExpiry .. => true
  | .runLimitExpiry .. => true
  | .coreReset .. => true
  | .coreRejoin .. => true
  | .fgrEndDone .. => true
  | .fgrEndYield .. => true
  | .fgrEndSleep .. => true
  | .fgrSubmit .. => true
  | .timerArmTimeout .. => true
  | .timerArmGeneral .. => true
  | .timerCancel .. => true
  | .contextSetFree .. => true
  | .contextSetActive .. => true
  | .hiveTick => true
  | .spillRefill .. => true
  | .backpressureTimeout .. => true
  | .anvilSubmit .. => true
  | .anvilAbort .. => true
  | .anvilReset .. => true
  | .anvilFault .. => true
  | .anvilDisable .. => true
  | .solve .. => true
  | .warmClear .. => true
  | .anvilDispatch => true
  | .factorisationComplete .. => true
  | .iteration .. => true
  | .refactorisationComplete .. => true
  | .jobDeadline .. => true
  | .commitSignal => true
  | .dwell .. => true
  | .hold .. => true
  | .stopOp .. => true
  | .resume .. => true
  | .cancel .. => true
  | .setAccel .. => true
  | .status .. => true
  | .segmentComplete .. => true
  | .chainStandstill .. => true
  | .plannerCompletion .. => true
  | .zoneRequestForm .. => true
  | .keeperDecision => true
  | .zoneWaitExpiry .. => true
  | .zoneHoldLimitExpiry .. => true
  | .zoneRequestMsg .. => true
  | .zoneReleaseMsg .. => true
  | .zoneWithdrawMsg .. => true
  | .zoneStateMsg .. => true
  | .zoneClaimMsg .. => true
  | .keeperRestartEnd => true
  | .planCfg .. => true
  | .swarmCfg .. => true
  | .chainCfg .. => true
  | .plannerSettingApply => true
  | .allowanceTableStop .. => true
  | .temperEnable .. => true
  | .temperDisable .. => true
  | .temperResetWrite .. => true
  | .feClear .. => true
  | .captureSet .. => true
  | .capture .. => true
  | .fra .. => true
  | .injectionStart .. => true
  | .injectionEnd .. => true
  | .captureDrain .. => true
  | .fraStart .. => true
  | .progClear .. => true
  | .bgStart .. => true
  | .backgroundPreemption .. => true
  | .ldW .. => true
  | .ldD .. => true
  | .ldB .. => true
  | .stW .. => true
  | .stD .. => true
  | .ldxy .. => true
  | .stN .. => true
  | .stNc .. => true
  | .amod .. => true
  | .mva .. => true
  | .mvm .. => true
  | .mvd .. => true
  | .mvmd .. => true
  | .mvc .. => true
  | .mvcw .. => true
  | .mul .. => true
  | .mac .. => true
  | .msu .. => true
  | .dmac .. => true
  | .cmul .. => true
  | .cmac .. => true
  | .cmacj .. => true
  | .aclr .. => true
  | .nrw .. => true
  | .ash .. => true
  | .add .. => true
  | .sub .. => true
  | .adds .. => true
  | .subs .. => true
  | .and .. => true
  | .or .. => true
  | .xor .. => true
  | .shl .. => true
  | .shr .. => true
  | .shrr .. => true
  | .min .. => true
  | .max .. => true
  | .cls .. => true
  | .clsa .. => true
  | .movi .. => true
  | .tst .. => true
  | .br .. => true
  | .bz .. => true
  | .bnz .. => true
  | .bn .. => true
  | .bnn .. => true
  | .call .. => true
  | .ret .. => true
  | .endOp .. => true
  | .rbg .. => true
  | .lset .. => true
  | .loop .. => true
  | .rot .. => true
  | .atom .. => true
  | .tongsEnable .. => true
  | .tongsDisable .. => true
  | .quadratureEdge .. => true
  | .wireDisagreement .. => true
  | .indexEvent .. => true
  | .hallSectorChange .. => true
  | .ssiFrameStart .. => true
  | .ssiFrameEnd .. => true
  | .standstillTimeout .. => true
  | .tongsClear .. => true
  | .probeArm .. => true
  | .probeDisarm .. => true
  | .probeLatch .. => true
  | .tngSample .. => true
  | .swageLinkSlot .. => true
  | .swageStatusMessage .. => true
  | .statusMessageMissing .. => true
  | .profileTick .. => true
  | .swgMove .. => true
  | .swgStop .. => true
  | .swgResume .. => true
  | .swgHome .. => true
  | .swgSetAccel .. => true
  | .swageAccelWrite .. => true
  | .swageStopRequest .. => true
  | .swageEnable .. => true
  | .swageDisable .. => true
  | .swageClear .. => true
  | .homingSettleEnd .. => true
  | .holdCurrentDelay .. => true
  | .stagedScheduleApply .. => true
  | .segmentEnable .. => true
  | .segmentDisable .. => true
  | .commonInstant => true
  | .feedbackComplete .. => true
  | .minislotBoundary .. => true
  | .transmitLeadExamination .. => true
  | .staticFrameTransmit .. => true
  | .errorWindowRollover => true
  | .listenTimeout .. => true
  | .coldstartComplete .. => true
  | .backoffExpiry .. => true
  | .timeMessage .. => true
  | .echoReq .. => true
  | .echoResp .. => true
  | .integrationComplete .. => true
  | .integrationLimitExpiry .. => true
  | .clockCorrection .. => true
  | .passiveRecovery .. => true
  | .syncMasterLoss .. => true
  | .syncFrameAbsence .. => true
  | .relearn .. => true
  | .nodeLeft .. => true
  | .guardCut .. => true
  | .guardViewCompare .. => true
  | .guardSyncLoss .. => true
  | .waggleStart .. => true
  | .waggleStop .. => true
  | .waggleDone .. => true
  | .compareArm .. => true
  | .compareDisarm .. => true
  | .compareMatch .. => true
  | .adcWake .. => true
  | .captureEdge .. => true
  | .cycleWrite .. => true
  | .timeSnapshotRead .. => true
  | .lineOffsetDelivery .. => true
  | .domainLoss .. => true
  | .domainRevert => true
  | .tpoPulseEnd .. => true
  | .ethLinkChange .. => true
  | .mdioRead .. => true
  | .mdioWrite .. => true
  | .mdioAddress .. => true
  | .mdioFrameDone .. => true
  | .safetyTick .. => true
  | .safetyTickTimeout .. => true
  | .discrepancyFault .. => true
  | .testPulse .. => true
  | .outputOffTest .. => true
  | .connectionWatchdogExpiry .. => true
  | .sourceMissingLimit .. => true
  | .ss1LimitTimeExpiry .. => true
  | .restartDelayExpiry .. => true
  | .stoFeedbackTimeout .. => true
  | .lockstepMismatch .. => true
  | .quenchWatchdogExpiry => true
  | .quenchSramError => true
  | .quenchScrub .. => true
  | .codeCheck .. => true
  | .selfTestComplete .. => true
  | .quenchRailFault => true
  | .quenchRailReturn => true
  | .spsConfirmWrite .. => true
  | .brakeTest .. => true
  | .brakeEngageTimeExpiry => true
  | .torqueRampEnd => true
  | .torqueReachTimeout => true
  | .testDurationExpiry => true
  | .brakeReleaseTimeExpiry => true
  | .brakeTestDue .. => true
  | .brakeTestOverdue .. => true
  | .adcSoftwareTrigger .. => true
  | .adcTriggerInputEvent .. => true
  | .adcSample .. => true
  | .adcResult .. => true
  | .adcQueuePop .. => true
  | .adcLastRead .. => true
  | .adcSeqDisable .. => true
  | .roleDecision => true
  | .bellowsLinkTimeout => true
  | .bellowsDisable .. => true
  | .heartbeatSend => true
  | .heartbeatReceived .. => true
  | .heartbeatLost => true
  | .laneLoss .. => true
  | .laneRestore .. => true
  | .takeover => true
  | .pairSwap .. => true
  | .swapExecute .. => true
  | .modeRequestRun .. => true
  | .modeRequestHold .. => true
  | .modeRequestCommission .. => true
  | .modeRequestStage .. => true
  | .modeRequestSentinel .. => true
  | .modeRequestStandby .. => true
  | .modeRequestColdKindle .. => true
  | .modeTransition => true
  | .sentinelEntry => true
  | .sentinelRampSwitch => true
  | .fwWatchdogServe .. => true
  | .fwWatchdogExpiry => true
  | .ddrUncorrectableRead .. => true
  | .ddrControllerFault .. => true
  | .ddrCorrectableThreshold .. => true
  | .powerOnReset => true
  | .pinReset .. => true
  | .softwareReset .. => true
  | .farrierWatchdogReset => true
  | .pllUnlock .. => true
  | .staleResponseDiscard => true
  | .resetRelease => true
  | .pllLock => true
  | .otpReadDone .. => true
  | .imageSlotChoice => true
  | .ddrTrainingDone .. => true
  | .foragerStart .. => true
  | .endOfBoot .. => true
  | .stageOpen .. => true
  | .stageCommit .. => true
  | .stageRelease .. => true
  | .stageLockTimeout => true
  | .imageConfirm .. => true
  | .softwareTrigger .. => true
  | .recordTake => true
  | .waxbookClear .. => true
  | .cursorWindowRead .. => true
  | .trcStart .. => true
  | .trcStop .. => true
  | .thermalSample .. => true
  | .safetyInputSample .. => true
  | .flashProgramComplete .. => true
  | .waxbookRecordComplete .. => true

end Sys2Proof
end

