-- ==== Sys2Proof/Safety.lean ====
section
/-!
DEFINITION. Safety.lean: what claims call a sound state: the canonical forms of the register file and of the memories, the bounds of
the stagings and queues that the manual gives, cell time within its range, and well-formed commands in the queue.
-/

namespace Sys2Proof.Machine

/-- The parts of a state that soundness speaks of: registers, host memory, DDR, Waxbook's on-chip store and the two flash chips in
canonical form; at most 768 records in event staging (R77), 8 firings in Waxbook's queue (R483), 64 records in trace staging (R121);
cell time below its range (R340); every waiting command well formed. -/
def Sound (regs : List (Nat × Word)) (host ddr store flash0 flash1 : List Host.Cell) (events : List EventRec)
    (firings : List Firing) (trace : List (List Byte)) (cell : Nat) (pending : List Instr) : Prop :=
  canonical resetWord regs = true ∧ Memory.wf host = true ∧ Memory.wf ddr = true ∧ Memory.wf store = true
    ∧ Memory.wf flash0 = true ∧ Memory.wf flash1 = true ∧ events.length ≤ 768 ∧ firings.length ≤ 8 ∧ trace.length ≤ 64
    ∧ cell < cellWrap ∧ pending.all Instr.wf = true

/-- A sound state. -/
def State.Inv (s : State) : Prop :=
  Sound s.regs s.hostMem s.ddr s.wax.store s.upd.flash0 s.upd.flash1 s.hif.events s.wax.queue s.hive.trace s.tim.cell s.pending

/-! ## What claims say of one step -/

/-- The registers that the raising of an event may write: HIF_EVT_LOST, HIF_EVT_LOST_CNT (R77), WAX_STAT and WAX_ERR (R482). -/
def eventWords : List Nat := [0x13200, 0x13204, 0x13208, 0x1320C, 0x13210, 0x1C0004, 0x1C0024]

/-- Event staging takes an occurrence of a source: the source is enabled and there is room (R77). -/
abbrev State.takesEvent (s : State) (src : Nat) : Prop := s.rd F.HIF_EVT_MAP_enable src ≠ 0 ∧ s.hif.events.length < 768

/-- Event staging holds a record of a source with this code and instance (R76). -/
abbrev State.hasEvent (s : State) (src code inst : Nat) : Prop :=
  ∃ e ∈ s.hif.events, e.src = src ∧ e.code = code ∧ e.inst = inst

/-- Only the named registers differ between two states. -/
def State.OnlyWords (s t : State) (offs : List Nat) : Prop := ∀ off, off ∉ offs → t.word off = s.word off

/-- The parts of a state that no register, ring, event or trigger holds: everything but the register file and the records of
the Control, host interface and Waxbook blocks is the same in two states, every memory among it. -/
def State.SameBlocks (s t : State) : Prop :=
  t = { s with regs := t.regs, glb := t.glb, hif := t.hif, wax := t.wax }

/-- A descriptor starts now (R52, R56), is the one with its number, and does not suppress its completion (R56). -/
abbrev State.Starts (s : State) (r opcode : Nat) (d : Desc) : Prop :=
  s.nextDesc r opcode = some d ∧ s.hif.desc.find? (·.id == d.id) = some d ∧ d.quiet = false

/-- A descriptor has its outcome: it is no longer outstanding, and its completion waits with this status (R61, R71). -/
abbrev State.Completed (t : State) (d : Desc) (status : Nat) : Prop :=
  (∀ e ∈ t.hif.desc, e.id ≠ d.id) ∧ ∃ c ∈ t.hif.compl, c.id = d.id ∧ c.ring = d.ring ∧ c.cq = d.cq ∧ c.status = status

end Sys2Proof.Machine
end

