-- ==== Sys2Proof/Certificates/Slice0/Obligations.lean ====
section
/-!
DEFINITION. Certificates/Slice0/Obligations.lean: the statements for the provers, one definition each.
-/

open Sys2Proof Sys2Proof.Machine

/-- A step takes the command at the front of the queue and runs it on the state with the rest of the queue. -/
def Obligations.StepRunsFront : Prop :=
  ∀ (s : State) (c : Instr) (rest : List Instr), s.pending = c :: rest → step s = exec c { s with pending := rest }

/-- On an empty queue one tick of 2.5 ns of main reference time passes, cell time moves by the addend of the rate (R340), and
nothing else changes. That a step on an empty queue is one tick is the model's choice (DESIGN CHOICE, log entry 1). -/
def Obligations.IdleTick : Prop :=
  ∀ s : State, s.pending = [] →
    ∃ t, step s = .next t ∧ t.tick = s.tick + 1 ∧ t.tim.cell = (s.tim.cell + s.addend) % cellWrap
      ∧ t = { s with tick := t.tick, tim := { s.tim with cell := t.tim.cell } }

/-- After a power-on reset every register holds its reset value, no command waits, no memory holds anything, the mode is 0 and the
boot has not begun; the state is sound.  (Rests on R457, R458.) -/
def Obligations.ResetState : Prop :=
  (∀ off, State.reset.word off = resetWord off) ∧ State.reset.pending = [] ∧ State.reset.mode = 0 ∧ State.reset.upd.boot = 0
    ∧ State.reset.hostMem = [] ∧ State.reset.ddr = [] ∧ State.reset.hif.desc = [] ∧ State.reset.hif.events = []
    ∧ State.reset.Inv

/-- Every step from a sound state leads to a sound state: the register file and every memory keep their canonical forms, event
staging holds at most 768 records (R77), Waxbook's queue 8 firings (R483), trace staging 64 records (R121), cell time stays in
its range (R340), and the commands that wait stay well formed. -/
def Obligations.StepKeepsInv : Prop :=
  ∀ s t : State, s.Inv → step s = .next t → t.Inv

/-- No command stops: whatever the state and the operands, it answers a next state; where the manual leaves a value open, the value
is free and the command goes on. -/
def Obligations.NoCommandStops : Prop :=
  ∀ (c : Instr) (s : State), ∃ t, exec c s = .next t

/-- A write of the scratch register by any master reads back from it; a read of a register of RC fields answers them and clears
them, for masters 0 to 4; a posted write that lands falls out of the posted writes. A header read of a Fresh assigned mailbox
takes the snapshot, starts the hold and answers the header; of any other assigned mailbox it changes no mailbox. A data read
answers a word of what the mailbox shows and changes nothing else. A trailer read of a Held mailbox consumes it: Empty, or Fresh
with the result that waited (capture mailboxes, R348, apart, which then take the next capture). When the hold has run out with a
result waiting, that result enters as Fresh with OVERRUN, and source 11 is raised with the mailbox as its instance.  (Rests on
R83, R84, R88, R92, R93.) -/
def Obligations.AccessesAndMailboxes : Prop :=
  ((∀ (s : State) (m m' : Master) (v : Word), s.busy 0x100 = false →
    ∃ t u, exec (.registerWrite m .bar0 0x100 4 v) s = .next t ∧ t.rd F.GLB_SCRATCH_value = v.toNat
      ∧ s.OnlyWords t [0x100] ∧ t = { s with regs := t.regs, glb := { s.glb with t3copies := t.glb.t3copies } }
      ∧ exec (.rcRead m' .bar0 0x100 4) t = .next u ∧ u = { t with rdata := v })
  ∧ (∀ (s : State) (m : Master), m ≠ .engine → s.copies 0x13210 = none → s.busy 0x13210 = false →
    ∃ t, exec (.rcRead m .bar0 0x13210 4) s = .next t ∧ t.rdata = s.word 0x13210 ∧ t.word 0x13210 = 0
      ∧ s.OnlyWords t [0x13210])
  ∧ (∀ (s : State) (off : BitVec 24) (p : Posted) (r : RegRow) (i j : Nat),
    s.glb.posted.find? (·.off == off.toNat) = some p → regRow off.toNat = some (r, i, j) →
    (r.fields.any fun f => f.fld == F.ADC_SEQ_CTL_enable) = false →
    ∃ t, exec (.wpWriteLand off) s = .next t ∧ t.busy off.toNat = false
      ∧ t.word off.toNat = mergeFields (s.word off.toNat) p.value
          (r.fields.filter fun f => f.acc.contains .wp && !f.fixed r.unit i (getBits p.value f.fld.lo f.fld.width))
      ∧ s.OnlyWords t [off.toNat]))
  ∧ ((∀ (s : State) (m : Fin 16384), mailboxLen m ≠ none → (s.mailbox m).st = .fresh → (s.mailbox m).data ≠ [] →
    ∃ t, exec (.mailboxHeaderRead m) s = .next t
      ∧ t.mailbox m = { s.mailbox m with st := .held, snapSeq := (s.mailbox m).seq, snap := (s.mailbox m).data,
                                         snapOverrun := (s.mailbox m).overrun, heldAt := s.tick }
      ∧ t.rdata = headerWord true (s.mailbox m).overrun true (s.mailbox m).data.length (s.mailbox m).seq
      ∧ (∀ k, k ≠ m.val → t.mailbox k = s.mailbox k) ∧ t = { s with glb := t.glb, rdata := t.rdata })
  ∧ (∀ (s : State) (m : Fin 16384), mailboxLen m ≠ none → (s.mailbox m).st ≠ .fresh →
    ∃ t, exec (.mailboxHeaderRead m) s = .next t ∧ t = { s with rdata := t.rdata, free := t.free })
  ∧ (∀ (s : State) (m : Fin 16384) (i : Fin 62),
    exec (.mailboxDataRead m i) s = .next { s with rdata := (s.mailbox m).shown.2.1.getD i 0 })
  ∧ (∀ (s : State) (m : Fin 16384), (s.mailbox m).st = .held → ¬ (128 ≤ m.val ∧ m.val < 144) →
    ∃ t, exec (.mailboxTrailerRead m) s = .next t
      ∧ ((s.mailbox m).waiting = none → (t.mailbox m).st = .empty)
      ∧ (∀ q d, (s.mailbox m).waiting = some (q, d) →
          (t.mailbox m).st = .fresh ∧ (t.mailbox m).seq = q ∧ (t.mailbox m).data = d ∧ (t.mailbox m).waiting = none)
      ∧ (∀ k, k ≠ m.val → t.mailbox k = s.mailbox k) ∧ t = { s with glb := t.glb, rdata := t.rdata })
  ∧ (∀ (s : State) (m : Fin 16384) (q : Nat) (d : List Word), (s.mailbox m).st = .held →
    (s.mailbox m).waiting = some (q, d) → s.takesEvent 11 →
    ∃ t, exec (.mailboxHoldExpiry m) s = .next t
      ∧ (t.mailbox m).st = .fresh ∧ (t.mailbox m).overrun = true ∧ (t.mailbox m).seq = q ∧ (t.mailbox m).data = d
      ∧ t.hasEvent 11 1 m ∧ s.OnlyWords t eventWords ∧ t.hostMem = s.hostMem ∧ t.ddr = s.ddr))

/-- A strobe with groups in its mask joins the strobes that are not yet applied, and GLB_STROBE_STAT.pending shows all their groups;
while no cell cycle and no Temper program runs, STROBE_APPLY applies every one of them and clears pending. A visit of the
scrubber finds a register whose copies disagree, not yet reported: it puts the majority of the three back into all of them,
counts the disagreement, keeps the register's offset and raises source 13.  (Rests on R86, R87, R89.) -/
def Obligations.StrobesAndScrubber : Prop :=
  ((∀ (s : State) (mask : BitVec 16), mask ≠ 0 →
    ∃ t, exec (.strobeAtInstant mask) s = .next t
      ∧ t.glb.strobes = s.glb.strobes ++ [{ mask := mask.toNat, now := false, cellAt := s.cellNs }]
      ∧ t.rd F.GLB_STROBE_STAT_pending = (t.glb.strobes.foldl (fun a x => a ||| x.mask) 0) % 2 ^ 16
      ∧ s.OnlyWords t [0x44])
  ∧ (∀ (s : State) (mask : BitVec 16), mask ≠ 0 →
    ∃ t, exec (.strobeNow mask) s = .next t
      ∧ t.glb.strobes = s.glb.strobes ++ [{ mask := mask.toNat, now := true, cellAt := s.cellNs }]
      ∧ t.rd F.GLB_STROBE_STAT_pending = (t.glb.strobes.foldl (fun a x => a ||| x.mask) 0) % 2 ^ 16
      ∧ s.OnlyWords t [0x44])
  ∧ (∀ (s : State), s.glb.strobes ≠ [] → (∀ n, n < 64 → s.on F.TMP_STAT_running n = false) → s.on F.GLB_STAT_cycle_run = false →
    ∃ t, exec .strobeApply s = .next t ∧ t.glb.strobes = [] ∧ t.rd F.GLB_STROBE_STAT_pending = 0))
  ∧ (∀ (s : State) (off : Nat) (b c : Word), s.glb.t3copies = [(off, some (b, c, false))] →
    off ∉ F.GLB_T3_STAT_disagree.off :: F.GLB_T3_LAST_offset.off :: F.HIF_EVT_MAP_enable.addr 13 0 :: eventWords → s.takesEvent 13 →
    ∃ t, exec (.scrubberVisit []) s = .next t ∧ t.copies off = none
      ∧ t.word off = majority (lookup resetWord s.regs off) b c
      ∧ t.rd F.GLB_T3_STAT_disagree = min 65535 (s.rd F.GLB_T3_STAT_disagree + 1) ∧ t.rd F.GLB_T3_LAST_offset = off % 2 ^ 24
      ∧ t.hasEvent 13 1 0xFFFF)

/-- The commissioning unlock. A request waits for Farrier; on an owned device Farrier issues a nonce (state 1), a verification
starts (state 2) and ends in state 3, unlocked, or 4, failed, with the nonce cleared; an unowned device is unlocked at once; a
nonce expires after 1 s, the failure wait ends, and a lock withdraws the unlock.  (Rests on R95 to R98.) -/
def Obligations.UnlockCommands : Prop :=
  (∀ s : State, s.rd F.GLB_UNLOCK_STAT_state = 0 ∨ s.rd F.GLB_UNLOCK_STAT_state = 4 → s.unlockWaits = false →
    exec .unlockRequest s = .next { s with glb := { s.glb with unlock := { s.glb.unlock with requested := true } } })
  ∧ (∀ (s : State) (nonce : BitVec 256), s.glb.unlock.requested = true → s.otp.owner = true →
    ∃ t, exec (.nonceIssued nonce) s = .next t ∧ t.rd F.GLB_UNLOCK_STAT_state = 1
      ∧ (∀ k, k < 8 → t.rd F.GLB_NONCE_nonce k = bitsOf nonce.toNat (32 * k) 32)
      ∧ t.glb.unlock = { s.glb.unlock with requested := false, nonceAt := s.tick })
  ∧ (∀ s : State, s.glb.unlock.requested = true → s.otp.owner = false → s.takesEvent 9 →
    ∃ t, exec .unownedUnlockGrant s = .next t ∧ t.rd F.GLB_UNLOCK_STAT_state = 3 ∧ t.rd F.GLB_UNLOCK_STAT_fails = 0
      ∧ t.rd F.HIF_STAT_host_priv = 1 ∧ t.hasEvent 9 1 0xFFFF ∧ t.glb.unlock.requested = false)
  ∧ (∀ s : State, s.rd F.GLB_UNLOCK_STAT_state = 1 → exec .unlockVerify s = .next (s.wr F.GLB_UNLOCK_STAT_state 2))
  ∧ (∀ s : State, s.rd F.GLB_UNLOCK_STAT_state = 2 →
    ∃ t, exec .verifyComplete s = .next t ∧ (∀ k, k < 8 → t.rd F.GLB_NONCE_nonce k = 0)
      ∧ (if Config.ed25519Verify (BitVec.ofNat 256 (le s.otp.ownerKey)) s.unlockMessage (BitVec.ofNat 512 s.unlockSignature) then
          t.rd F.GLB_UNLOCK_STAT_state = 3 ∧ t.rd F.GLB_UNLOCK_STAT_fails = 0 ∧ t.rd F.HIF_STAT_host_priv = 1
        else t.rd F.GLB_UNLOCK_STAT_state = 4 ∧ t.rd F.GLB_UNLOCK_STAT_fails = min 255 (s.rd F.GLB_UNLOCK_STAT_fails + 1)
          ∧ t.glb.unlock.waitEnd = some (s.tick + if 8 ≤ min 255 (s.rd F.GLB_UNLOCK_STAT_fails + 1) then sec 60 else sec 1)))
  ∧ (∀ s : State, s.rd F.GLB_UNLOCK_STAT_state = 1 →
    ∃ t, exec .nonceExpiry s = .next t ∧ t.rd F.GLB_UNLOCK_STAT_state = 0 ∧ (∀ k, k < 8 → t.rd F.GLB_NONCE_nonce k = 0)
      ∧ s.glb.unlock.nonceAt + sec 1 ≤ t.tick)
  ∧ (∀ (s : State) (w : Nat), s.glb.unlock.waitEnd = some w →
    ∃ t, exec .unlockWaitExpiry s = .next t ∧ t.glb.unlock.waitEnd = none ∧ w ≤ t.tick ∧ t.unlockWaits = false)
  ∧ (∀ s : State, s.on F.HIF_STAT_host_priv = true → s.takesEvent 9 →
    ∃ t, exec .unlockLock s = .next t ∧ t.rd F.HIF_STAT_host_priv = 0 ∧ t.rd F.GLB_UNLOCK_STAT_state = 0
      ∧ t.hasEvent 9 2 0xFFFF)

/-- A reset of the HIF empties every ring, every staging of completions and events, disables every ring, masks every vector and
withdraws the unlock; D3hot and D0 stop and resume the function's writes; a change of the link shows speed and width and raises
source 0, and the first step down resets the HIF; an AER error joins the AER status and raises source 1 or 2. A doorbell of an
enabled ring with the ring's epoch and an index in range that moves forward moves the producer or the consumer index; one with
another epoch, or of a disabled ring, is dropped and counted as stale with source 3; one beyond the ring's size is dropped and
counted as bad with source 4; one that would move back is counted as regressive too.  (Rests on R51, R97, R513, R63, R65.) -/
def Obligations.LinkAndDoorbells : Prop :=
  ((∀ s : State, ∃ t, exec .hifReset s = .next t ∧ t.hif.sq = [] ∧ t.hif.cq = [] ∧ t.hif.desc = [] ∧ t.hif.compl = []
      ∧ t.hif.vector = [] ∧ t.hif.d3hot = false
      ∧ (∀ r, r < 64 → t.rd F.HIF_SQ_CTL_enable r = 0 ∧ t.rd F.HIF_CQ_CTL_enable r = 0 ∧ t.rd F.HIF_SQ_STAT_head r = 0)
      ∧ (∀ v, v < 128 → t.rd F.HIF_MSIX_CTRL_mask v = 1)
      ∧ (s.on F.HIF_STAT_host_priv = true → t.rd F.HIF_STAT_host_priv = 0 ∧ t.rd F.GLB_UNLOCK_STAT_state = 0))
  ∧ (∀ s : State, exec .d3hotEntry s = .next { s with hif := { s.hif with d3hot := true } })
  ∧ (∀ s : State, exec .d0Return s = .next { s with hif := { s.hif with d3hot := false } })
  ∧ (∀ (s : State) (sp : Fin 5) (w : Fin 4), s.hif.linkUp = false → s.takesEvent 0 →
    ∃ t, exec (.pcieLinkChange true sp w) s = .next t ∧ t.hif.linkUp = true ∧ t.rd F.HIF_STAT_link_speed = sp.val + 1
      ∧ t.rd F.HIF_STAT_link_width = 2 ^ w.val ∧ t.hasEvent 0 1 0xFFFF ∧ s.OnlyWords t (0x10004 :: eventWords))
  ∧ (∀ (s : State) (sp : Fin 5) (w : Fin 4), s.hif.linkUp = true →
      (s.rd F.HIF_STAT_link_speed ≠ sp.val + 1 ∨ s.rd F.HIF_STAT_link_width ≠ 2 ^ w.val) → s.takesEvent 0 →
    ∃ t, exec (.pcieLinkChange true sp w) s = .next t ∧ t.hif.linkUp = true ∧ t.rd F.HIF_STAT_link_speed = sp.val + 1
      ∧ t.rd F.HIF_STAT_link_width = 2 ^ w.val ∧ t.hasEvent 0 3 0xFFFF)
  ∧ (∀ (s : State) (sp : Fin 5) (w : Fin 4), s.hif.linkUp = true →
    ∃ t, exec (.pcieLinkChange false sp w) s = .next t ∧ t.hif.linkUp = false ∧ t.rd F.HIF_STAT_link_speed = 0
      ∧ t.rd F.HIF_STAT_link_width = 0 ∧ t.hif.desc = [] ∧ t.hif.compl = [])
  ∧ (∀ (s : State) (bits : Word), s.takesEvent 1 →
    ∃ t, exec (.aerError 0 bits) s = .next t ∧ t.hif.aerCorr = s.hif.aerCorr ||| bits ∧ t.hif.aerUncorr = s.hif.aerUncorr
      ∧ t.hasEvent 1 1 0xFFFF ∧ s.OnlyWords t eventWords)
  ∧ (∀ (s : State) (kind : Fin 3) (bits : Word), kind ≠ 0 → s.takesEvent 2 →
    ∃ t, exec (.aerError kind bits) s = .next t ∧ t.hif.aerUncorr = s.hif.aerUncorr ||| bits ∧ t.hif.aerCorr = s.hif.aerCorr
      ∧ t.hasEvent 2 kind.val 0xFFFF ∧ s.OnlyWords t eventWords))
  ∧ ((∀ (s : State) (r : Fin 64) (v : Word), v.toNat / 2 ^ 16 = s.rd F.HIF_SQ_EPOCH_epoch r → s.on F.HIF_SQ_CTL_enable r = true →
      v.toNat % 2 ^ 16 < s.sqSize r → s.sqReady r (s.sq r).producer ≤ s.sqReady r (v.toNat % 2 ^ 16) →
    exec (.submissionDoorbell r v) s = .next (s.setSq r { s.sq r with producer := v.toNat % 2 ^ 16 }))
  ∧ (∀ (s : State) (r : Fin 64) (v : Word), v.toNat / 2 ^ 16 ≠ s.rd F.HIF_SQ_EPOCH_epoch r ∨ s.on F.HIF_SQ_CTL_enable r = false →
      s.takesEvent 3 →
    ∃ t, exec (.submissionDoorbell r v) s = .next t ∧ t.rd F.HIF_SQ_ERR_stale r = min 65535 (s.rd F.HIF_SQ_ERR_stale r + 1)
      ∧ t.hasEvent 3 1 r ∧ t.hif.sq = s.hif.sq ∧ s.OnlyWords t (F.HIF_SQ_ERR_stale.addr r 0 :: eventWords))
  ∧ (∀ (s : State) (r : Fin 64) (v : Word), v.toNat / 2 ^ 16 = s.rd F.HIF_SQ_EPOCH_epoch r → s.on F.HIF_SQ_CTL_enable r = true →
      s.sqSize r ≤ v.toNat % 2 ^ 16 → s.takesEvent 4 →
    ∃ t, exec (.submissionDoorbell r v) s = .next t
      ∧ t.rd F.HIF_ACC_ERR_bad_doorbell = min 65535 (s.rd F.HIF_ACC_ERR_bad_doorbell + 1) ∧ t.hasEvent 4 3 r
      ∧ t.hif.sq = s.hif.sq ∧ s.OnlyWords t (0x10008 :: eventWords))
  ∧ (∀ (s : State) (r : Fin 64) (v : Word), v.toNat / 2 ^ 16 = s.rd F.HIF_SQ_EPOCH_epoch r → s.on F.HIF_SQ_CTL_enable r = true →
      v.toNat % 2 ^ 16 < s.sqSize r → s.sqReady r (v.toNat % 2 ^ 16) < s.sqReady r (s.sq r).producer → s.takesEvent 4 →
    ∃ t, exec (.submissionDoorbell r v) s = .next t
      ∧ t.rd F.HIF_SQ_ERR_regressive r = min (2 ^ F.HIF_SQ_ERR_regressive.width - 1) (s.rd F.HIF_SQ_ERR_regressive r + 1)
      ∧ t.rd F.HIF_ACC_ERR_bad_doorbell = min 65535 (s.rd F.HIF_ACC_ERR_bad_doorbell + 1) ∧ t.hasEvent 4 4 r
      ∧ t.hif.sq = s.hif.sq)
  ∧ (∀ (s : State) (q : Fin 64) (v : Word), v.toNat / 2 ^ 16 = s.rd F.HIF_CQ_EPOCH_epoch q → s.on F.HIF_CQ_CTL_enable q = true →
      v.toNat % 2 ^ 16 < s.cqSize q → ringDist (s.cqSize q) (s.cq q).consumer (v.toNat % 2 ^ 16) ≤ s.unconsumed q →
    exec (.completionDoorbell q v) s =
      .next (((s.setCq q { s.cq q with consumer := v.toNat % 2 ^ 16 }).syncFull q).settleCq q (s.cqBlocked q)))
  ∧ (∀ (s : State) (q : Fin 64) (v : Word), v.toNat / 2 ^ 16 ≠ s.rd F.HIF_CQ_EPOCH_epoch q ∨ s.on F.HIF_CQ_CTL_enable q = false →
      s.takesEvent 3 →
    ∃ t, exec (.completionDoorbell q v) s = .next t ∧ t.rd F.HIF_CQ_ERR_stale q = min 65535 (s.rd F.HIF_CQ_ERR_stale q + 1)
      ∧ t.hasEvent 3 2 q ∧ t.hif.cq = s.hif.cq ∧ s.OnlyWords t (F.HIF_CQ_ERR_stale.addr q 0 :: eventWords)))

/-- A grant of the fetch arbiter moves the fetch index by the burst and puts the burst in flight; outside SENTINEL an arriving
descriptor that passes its checks is outstanding and no longer in flight; the first completion of an open ring and the first
staged event leave for host memory; a source 7 that is owed is raised once staging has room.  (Rests on R68, R62, R77.) -/
def Obligations.FetchAndDelivery : Prop :=
  (∀ (s : State) (r : Fin 64) (x : Option HostErr), s.burst r ≠ 0 → s.on F.HIF_SQ_CTL_shadow_en r = false →
    exec (.descriptorFetch r x) s =
      .next (((s.setSq r { s.sq r with inFlight := (s.sq r).inFlight + s.burst r }).wr F.HIF_SQ_STAT_head
        ((s.rd F.HIF_SQ_STAT_head r + s.burst r) % s.sqSize r) r).syncRing r))
  ∧ (∀ (s : State) (r : Fin 64), s.burst r ≠ 0 → s.on F.HIF_SQ_CTL_shadow_en r = true →
    ∃ t, exec (.descriptorFetch r none) s = .next t
      ∧ t.hostMem = writeBytes s.hostMem (s.rd64 F.HIF_SQ_SHADOW_LO_addr F.HIF_SQ_SHADOW_HI_addr r)
          (toBytes 4 ((s.rd F.HIF_SQ_STAT_head r + s.burst r) % s.sqSize r))
      ∧ (t.sq r).inFlight = (s.sq r).inFlight + s.burst r)
  ∧ (∀ (s : State) (r : Fin 64) (b : List Byte), (s.sq r).inFlight = 1 → b.length = 64 → s.mode ≠ 5 → s.checkDesc r b = none →
    ∃ t, exec (.fetchComplete r [b] none) s = .next t ∧ (t.sq r).inFlight = 0 ∧ t.hif.nextDesc = s.hif.nextDesc + 1
      ∧ t.hif.desc = s.hif.desc ++ [{ id := s.hif.nextDesc, ring := r, bytes := b, cq := s.rd F.HIF_SQ_CFG_cq r,
                                      slot := ringDist (s.sqSize r) 1 (s.rd F.HIF_SQ_STAT_head r), priv := s.needsUnlock r (field b 0 2) }])
  ∧ (∀ (s : State) (q : Fin 63) (c : Compl), s.hif.compl.find? (·.cq == q.val) = some c → s.cqOpen q = true →
    ∃ t, exec (.completionWrite q none) s = .next t ∧ t.hif.compl = s.hif.compl.filter (·.id != c.id)
      ∧ t.rd F.HIF_CQ_STAT_tail q = (s.rd F.HIF_CQ_STAT_tail q + 1) % s.cqSize q % 2 ^ 16)
  ∧ (∀ (s : State) (e : EventRec) (l : List EventRec), s.hif.events = e :: l → s.cqOpen 63 = true →
    exec (.eventDelivery none) s =
      .next (({ s with hif := { s.hif with events := l } }.writeEntry 63 e.entry).signalEvent e.src))
  ∧ (∀ s : State, s.hif.lostOwed = true → s.takesEvent 7 →
    ∃ t, exec .eventsLostReport s = .next t ∧ t.hasEvent 7 1 0xFFFF ∧ t.hif.desc = s.hif.desc ∧ t.hif.compl = s.hif.compl)
  ∧ (∀ (s : State) (v : Fin 128) (w : Nat), s.vectorDue v = some w → s.hif.d3hot = false →
    ∃ t, exec (.moderationTimerExpiry v) s = .next t ∧ w ≤ t.tick ∧ s.tick ≤ t.tick ∧ t.vectorDue v = none)

/-- An enable that meets the ring's conditions enables it and clears `refused`; one that does not leaves it disabled, shows the
first reason and raises source 5; disables, resets and the abort of a whole ring. NOP completes with SUCCESS; ABORT ends the
oldest other descriptor of its ring with its tag as ABORTED and completes with SUCCESS, and completes with NOT_FOUND where there
is none.  (Rests on R67, R69, R70, R73, R80, R57, R73.) -/
def Obligations.RingsNopAndAbort : Prop :=
  ((∀ (s : State) (m : Master) (r : Fin 64), s.on F.HIF_SQ_CTL_enable r = false → s.refuseCode m r = none →
    exec (.sqEnable m r) s = .next (((s.wr F.HIF_SQ_CTL_enable 1 r).wr F.HIF_SQ_STAT_refused 0 r).showStops))
  ∧ (∀ (s : State) (m : Master) (r : Fin 64) (c : Nat), s.on F.HIF_SQ_CTL_enable r = false → s.refuseCode m r = some c →
      s.takesEvent 5 →
    ∃ t, exec (.sqEnable m r) s = .next t ∧ t.rd F.HIF_SQ_CTL_enable r = 0 ∧ t.rd F.HIF_SQ_STAT_refused r = 1
      ∧ t.rd F.HIF_SQ_INFO_refuse_code r = c ∧ t.hasEvent 5 1 r)
  ∧ (∀ (s : State) (r : Fin 64), exec (.sqDisable r) s = .next (s.wr F.HIF_SQ_CTL_enable 0 r).showStops)
  ∧ (∀ (s : State) (r : Fin 64), s.on F.HIF_SQ_CTL_enable r = false → s.outstanding r = 0 →
    ∃ t, exec (.sqReset r) s = .next t ∧ t.sq r = {} ∧ t.rd F.HIF_SQ_STAT_head r = 0 ∧ t.rd F.HIF_SQ_INFO_fault r = 0
      ∧ t.hif.desc = s.hif.desc ∧ ∀ k, k ≠ r.val → t.sq k = s.sq k)
  ∧ (∀ (s : State) (r : Fin 64), s.on F.HIF_SQ_CTL_enable r = true ∨ s.outstanding r ≠ 0 →
    exec (.sqReset r) s = .next (s.wrIgnored .sq r (F.HIF_SQ_CTL_reset.addr r 0)))
  ∧ (∀ (s : State) (r : Fin 64) (d : Desc), s.hif.desc.filter (·.ring == r.val) = [d] → d.opcode = 0x0001 →
    exec (.sqAbortAll r) s = .next (s.complete d.id 4))
  ∧ (∀ (s : State) (q : Fin 64), exec (.cqEnable q) s = .next (s.wr F.HIF_CQ_CTL_enable 1 q).showStops)
  ∧ (∀ (s : State) (q : Fin 64), exec (.cqDisable q) s = .next ((s.wr F.HIF_CQ_CTL_enable 0 q).settleCq q (s.cqBlocked q)))
  ∧ (∀ (s : State) (q : Fin 64), (∀ r, r < 64 → s.rd F.HIF_SQ_CFG_cq r = q.val →
        s.on F.HIF_SQ_CTL_enable r = false ∧ (s.sq r).inFlight = 0) → (∀ d ∈ s.hif.desc, d.cq ≠ q.val) →
    ∃ t, exec (.cqReset q) s = .next t ∧ t.cq q = {} ∧ t.rd F.HIF_CQ_STAT_tail q = 0 ∧ t.rd F.HIF_CQ_STAT_phase q = 1
      ∧ t.rd F.HIF_CQ_STAT_full q = 0 ∧ t.rd F.HIF_CQ_STAT_fault q = 0 ∧ ∀ k, k ≠ q.val → t.cq k = s.cq k))
  ∧ ((∀ (s : State) (r : Fin 64) (d : Desc), s.Starts r 0x0001 d →
    ∃ t, exec (.nop r) s = .next t ∧ t.Completed d 1 ∧ t = { s with regs := t.regs, glb := t.glb, hif := t.hif })
  ∧ (∀ (s : State) (r : Fin 64) (d e : Desc), s.hif.desc = [e, d] → d.id ≠ e.id → d.ring = r.val → e.ring = r.val →
      d.opcode = 0x0002 → d.started = false → d.quiet = false → e.opcode = 0x0001 → e.quiet = false →
      e.tag = d.op 16 4 → bitAt (d.op 20 1) 0 = false →
    ∃ t, exec (.abortOp r) s = .next t ∧ t.Completed d 1 ∧ t.Completed e 4)
  ∧ (∀ (s : State) (r : Fin 64) (d : Desc), s.hif.desc = [d] → d.ring = r.val → d.opcode = 0x0002 → d.started = false →
      d.quiet = false → ∃ t, exec (.abortOp r) s = .next t ∧ t.Completed d 5))

/-- The Hive's own commands. A dispatch gives the first eligible item that finds a core to that core; an affinity wait or a run
limit that expires marks the item or interrupts the core; a core that did not end its item in time is reset with a new epoch,
and rejoins; a tick releases the timers that are due; a refill takes spilled items back while DDR answers.  (Rests on R103,
R105, R109, R112, R116.) -/
def Obligations.HiveCommands : Prop :=
  (∀ (s : State) (it : Item) (c : Nat), s.on F.HIV_CTL_enable = true → s.mode ≠ 5 → s.dropOrphans = s →
      (s.served.filter s.eligible).findSome? (fun it => (s.coreFor it).map fun c => (it, c)) = some (it, c) →
      it.spilled = false →
    exec .hiveDispatch s = .next (s.dispatchTo it c))
  ∧ (∀ (s : State) (q : Word) (it : Item), s.hive.items.find? (fun it => it.seq == q.toNat && !it.anvil && !it.waited) = some it →
      s.coreFor it = none → s.on F.HIV_CTL_enable = false →
    ∃ t, exec (.affinityWaitExpiry q) s = .next t ∧ it.ready + fab (min 16000 (s.rd F.HIV_AFF_wait)) ≤ t.tick
      ∧ t.hive.items = s.hive.items.map fun j => if j.seq = it.seq then { j with waited := true } else j)
  ∧ (∀ (s : State) (c : Fin 32) (it : Item), (s.core c).item = some it → (s.core c).limitAt = none → it.anvil = false →
      s.takesEvent (24 + c.val / 4) →
    ∃ t, exec (.runLimitExpiry c) s = .next t ∧ (t.core c).limitAt = some t.tick ∧ (t.core c).limitIrq = true
      ∧ (t.core c).item = some it ∧ (s.core c).start + us (s.rd F.HIV_CTX9_run_limit it.ctx) ≤ t.tick
      ∧ ∀ k, k ≠ c.val → t.core k = s.core k)
  ∧ (∀ (s : State) (c : Fin 32) (w : Nat) (it : Item), (s.core c).limitAt = some w → (s.core c).item = some it →
    ∃ t, exec (.coreReset c) s = .next t ∧ (t.core c).inReset = true ∧ (t.core c).item = none
      ∧ (t.core c).epoch = ((s.core c).epoch + 1) % 16 ∧ t.rd F.HIV_CTX0_state it.ctx = 3 ∧ w + us 10 ≤ t.tick
      ∧ ∀ k, k ≠ c.val → t.core k = s.core k)
  ∧ (∀ (s : State) (c : Fin 32), (s.core c).inReset = true → s.mode ≠ 5 →
    exec (.coreRejoin c) s = .next (s.setCore c { s.core c with inReset := false }))
  ∧ (∀ s : State, s.on F.HIV_CTL_enable = true → s.mode ≠ 5 → s.tickNs ≠ 0 →
    exec .hiveTick s = .next (s.advanceCell ((s.cellNs / s.tickNs + 1) * s.tickNs)).releaseDue)
  ∧ (∀ (s : State) (t u : Timer), s.hive.timers = [t, u] → 0 ≤ cellDiff s.cellNs t.wake → 0 ≤ cellDiff s.cellNs u.wake →
      u.wake < t.wake → s.fwRoom = true → (s.releaseTimer u).fwRoom = true →
    s.releaseDue = (s.releaseTimer u).releaseTimer t)
  ∧ (∀ (s : State) (ring : Bool), s.onChip ring ≤ 1536 → s.ddrServes = true → s.on F.HIV_TRC_CTL_enable = false →
      s.inSpill ring ≤ 512 → (∀ it ∈ s.hive.items, ∀ j ∈ s.hive.items, it.seq = j.seq → it = j) →
      (∀ it ∈ s.hive.items, it.spilled = true → it.ringShare = ring) →
    ∃ t, exec (.spillRefill ring) s = .next t ∧ (s.on F.HIV_STAT_backpressure = false →
      (∀ c, c < 32 → (s.core c).stalled = none) →
        t.hive.items = s.hive.items.map fun it => if it.ringShare = ring then { it with spilled := false } else it))

/-- The CSRs of a Forager core as the Hive serves them. An end takes the item from its core, reads status 0 and counts a run; a
yield queues the item again; a sleep with an item makes one timer of its context, one without an item changes only the core's
CSRs; a submission to a context that is set up queues an item, one to a FREE or FAULTED context reads 1; an armed timer reads 0
with its handle, or 4 with source 18 in a full pool; a cancel reads 0, or 5 where no timer has the handle; a context becomes
FREE, which drops its timers, or ACTIVE, where a PERIODIC one arms its first release at its wake time (the model's reading, log
entry 81); a submission that stalls too long reads 3.  (Rests on R106, R113, R115, R117, R118, R120.) -/
def Obligations.ForagerCommands : Prop :=
  (∀ (s : State) (c : Fin 32) (it : Item), (s.core c).item = some it → it.anvil = false →
    exec (.fgrEndDone c) s = .next ((s.endItem c it 0 3).armPeriodic it.ctx))
  ∧ (∀ (s : State) (c : Fin 32) (it : Item), (s.core c).item = some it →
    exec (.fgrEndYield c) s = .next ((s.endItem c it 1 4).queueItem
      { it with waited := false, spilled := false, line := if (s.endItem c it 1 4).linePriv it.line then it.line else none }))
  ∧ (∀ (s : State) (c : Fin 32) (it : Item) (how kind : Nat), (s.core c).item = some it → it.anvil = false →
      s.on F.HIV_TRC_CTL_enable = false → it.ctx < 1024 →
      ((s.endItem c it how kind).core c).item = none ∧ ((s.endItem c it how kind).core c).endStatus = 0
      ∧ ((s.endItem c it how kind).core c).endHow = how
      ∧ (s.endItem c it how kind).rd F.HIV_CTX10_runs it.ctx = (s.rd F.HIV_CTX10_runs it.ctx + 1) % 2 ^ 32)
  ∧ (∀ (s : State) (c : Fin 32) (wake : DWord), (s.core c).item = none →
    ∃ t, exec (.fgrEndSleep c wake) s = .next t ∧ (t.core c).wake = wake.toNat ∧ (t.core c).endHow = 2
      ∧ (t.core c).endStatus = 0 ∧ t = { s with hive := t.hive })
  ∧ (∀ (s : State) (c : Fin 32) (wake : DWord) (it : Item), (s.core c).item = some it → it.anvil = false →
      s.on F.HIV_TRC_CTL_enable = false → it.ctx < 1024 → s.hive.timers = [] →
    ∃ t, exec (.fgrEndSleep c wake) s = .next t ∧ (t.core c).item = none ∧ t.rd F.HIV_CTX0_state it.ctx = 2
      ∧ (∃ u, t.hive.timers = [u] ∧ u.list = 1 ∧ u.ctx = it.ctx ∧ u.wake = wake.toNat ∧ u.handle = s.hive.nextHandle)
      ∧ t.free = s.free + 1)
  ∧ (∀ (s : State) (c : Fin 32) (x : Fin 1024) (p : Fin 8) (a : Word), s.ctxState x ≠ 0 → s.ctxState x ≠ 3 →
      s.rd F.HIV_CTX1_mask x ≠ 0 → s.on F.HIV_STAT_backpressure = false → s.fwRoom = true →
    exec (.fgrSubmit c x p a) s = .next (State.newItem
      (s.setCore c { s.core c with submit := x.val + p.val * 2 ^ 16 + a.toNat * 2 ^ 32, submitStatus := 0 }) x p 0x40 a.toNat
        (if s.linePriv ((s.core c).item.bind (·.line)) then (s.core c).item.bind (·.line) else none)))
  ∧ (∀ (s : State) (c : Fin 32) (x : Fin 1024) (p : Fin 8) (a : Word), s.ctxState x = 0 ∨ s.ctxState x = 3 →
    ∃ t, exec (.fgrSubmit c x p a) s = .next t ∧ (t.core c).submitStatus = 1 ∧ t.hive.items = s.hive.items)
  ∧ (∀ (s : State) (c : Fin 32) (x : Fin 1024) (a w : DWord), s.hive.timers.length < 2048 →
    ∃ t, exec (.timerArmTimeout c x a w) s = .next t ∧ (t.core c).timerStatus = 0
      ∧ (t.core c).timerHandle = s.hive.nextHandle
      ∧ ∃ u, t.hive.timers = s.hive.timers ++ [u] ∧ u.list = 2 ∧ u.ctx = x.val ∧ u.arg = a.toNat ∧ u.wake = w.toNat
        ∧ u.handle = s.hive.nextHandle)
  ∧ (∀ (s : State) (c : Fin 32) (x : Fin 1024) (a w : DWord), s.hive.timers.length < 2048 →
    ∃ t, exec (.timerArmGeneral c x a w) s = .next t ∧ (t.core c).timerStatus = 0
      ∧ (t.core c).timerHandle = s.hive.nextHandle
      ∧ ∃ u, t.hive.timers = s.hive.timers ++ [u] ∧ u.list = 3 ∧ u.ctx = x.val ∧ u.arg = a.toNat ∧ u.wake = w.toNat
        ∧ u.handle = s.hive.nextHandle)
  ∧ (∀ (s : State) (c : Fin 32) (x : Fin 1024) (a w : DWord), 2048 ≤ s.hive.timers.length → s.takesEvent 18 →
    ∃ t, exec (.timerArmGeneral c x a w) s = .next t ∧ (t.core c).timerStatus = 4 ∧ t.hive.timers = s.hive.timers
      ∧ t.hasEvent 18 1 0xFFFF)
  ∧ (∀ (s : State) (c : Fin 32) (h : BitVec 16) (u : Timer), s.hive.timers.find? (·.handle == h.toNat) = some u →
    ∃ t, exec (.timerCancel c h) s = .next t ∧ (t.core c).timerStatus = 0
      ∧ t.hive.timers = s.hive.timers.filter (·.handle != u.handle))
  ∧ (∀ (s : State) (c : Fin 32) (h : BitVec 16), s.hive.timers.find? (·.handle == h.toNat) = none →
    ∃ t, exec (.timerCancel c h) s = .next t ∧ (t.core c).timerStatus = 5 ∧ t.hive.timers = s.hive.timers)
  ∧ (∀ (s : State) (c : Fin 32) (x : Fin 1024),
    ∃ t, exec (.contextSetFree c x) s = .next t ∧ t.rd F.HIV_CTX0_state x = 0 ∧ (t.core c).ctxsetStatus = 0
      ∧ t.hive.timers = s.hive.timers.filter (·.ctx != x.val) ∧ t.hive.items = s.hive.items)
  ∧ (∀ (s : State) (c : Fin 32) (x : Fin 1024),
    ∃ t, exec (.contextSetActive c x) s = .next t
      ∧ t.rd F.HIV_CTX0_state x = (if s.on F.HIV_CTX0_mirrored x = true ∧ s.rd F.GLB_STAT_role = 2 then 4 else 1)
      ∧ (t.core c).ctxsetStatus = 0 ∧ (s.on F.HIV_CTX0_periodic x = false → t.hive.timers = s.hive.timers))
  ∧ (∀ (s : State) (c : Fin 32) (x : Fin 1024), s.on F.HIV_CTX0_periodic x = true → s.on F.HIV_CTX0_mirrored x = false →
      s.rd F.HIV_CTX0_running x = 0 → s.hive.timers = [] → s.hive.items = [] →
    ∃ t u, exec (.contextSetActive c x) s = .next t ∧ t.hive.timers = [u] ∧ u.list = 0 ∧ u.ctx = x.val
      ∧ u.wake = s.rd64 F.HIV_CTX6_wake_lo F.HIV_CTX7_wake_hi x ∧ u.handle = s.hive.nextHandle)
  ∧ (∀ (s : State) (c : Fin 32) (x p a : Nat), (s.core c).stalled = some (x, p, a, false) →
    ∃ t, exec (.backpressureTimeout c) s = .next t ∧ (t.core c).stalled = none ∧ (t.core c).submitStatus = 3
      ∧ (s.core c).stalledAt + us 10 ≤ t.tick ∧ t.hive.items = s.hive.items)

/-- What starts and ends Anvil jobs. ANV_SUBMIT takes a valid slot as a planner job with status 0, and refuses with the reason
otherwise; only Foragers and Farrier may write it; SOLVE makes a host job of its descriptor in the lowest free host slot; an
abort, a reset and a fault end the job without a result.  (Rests on R108, R126, R129, R130, R131, R150, R151, R155.) -/
def Obligations.AnvilJobs : Prop :=
  (∀ (s : State) (c : Fin 32) (slot : BitVec 11), (s.wr F.ANV_SUBMIT_slot slot.toNat).submitCheck slot.toNat = 0 →
      s.on F.HIV_STAT_backpressure = false → s.fwRoom = true →
    exec (.anvilSubmit (.forager c) slot) s =
      .next (((s.wr F.ANV_SUBMIT_slot slot.toNat).wr F.ANV_SUBMIT_status 0).enqueuePlanner slot.toNat
        (if s.linePriv ((s.core c).item.bind (·.line)) then (s.core c).item.bind (·.line) else none)))
  ∧ (∀ (s : State) (m : Master) (slot : BitVec 11), masterId m = 1 ∨ masterId m = 2 →
      (s.wr F.ANV_SUBMIT_slot slot.toNat).submitCheck slot.toNat ≠ 0 →
    ∃ t, exec (.anvilSubmit m slot) s = .next t ∧ t.anvil = s.anvil
      ∧ t.rd F.ANV_SUBMIT_status = (s.wr F.ANV_SUBMIT_slot slot.toNat).submitCheck slot.toNat)
  ∧ (∀ (s : State) (m : Master) (slot : BitVec 11), masterId m ≠ 1 → masterId m ≠ 2 →
    exec (.anvilSubmit m slot) s = .next (s.bump F.ANV_GERR_foreign)
      ∧ exec (.anvilAbort m slot) s = .next (s.bump F.ANV_GERR_foreign))
  ∧ (∀ (s : State) (c : Fin 32) (slot : BitVec 11), slot.toNat < 1024 → s.job slot.toNat = none →
    ∃ t, exec (.anvilAbort (.forager c) slot) s = .next t ∧ t.rd F.ANV_ABORT_status = 5 ∧ t.anvil = s.anvil)
  ∧ (∀ (s : State) (c : Fin 32) (slot : BitVec 11) (j : Job) (n : Nat), slot.toNat < 1024 → s.job slot.toNat = some j →
      (∀ it ∈ s.hive.items, it.anvil = false) → s.engineOf slot.toNat = some n →
    exec (.anvilAbort (.forager c) slot) s =
      .next (((s.wr F.ANV_ABORT_slot slot.toNat).dropJob n 4).wr F.ANV_ABORT_status 0))
  ∧ (∀ (s : State) (n : Fin 8), s.solve n = none → s.takesEvent (32 + n) →
    ∃ t, exec (.anvilReset n) s = .next t ∧ t.rd F.ANV_STAT_epoch n = (s.rd F.ANV_STAT_epoch n + 1) % 2 ^ F.ANV_STAT_epoch.width
      ∧ t.hasEvent (32 + n) 4 n ∧ t.anvil = s.anvil)
  ∧ (∀ (s : State) (n : Fin 8), exec (.anvilFault n true) s = .next ((s.put F.ANV_ERR_ecc_uncorr true n).resetEngine n)
      ∧ exec (.anvilFault n false) s = .next ((s.put F.ANV_ERR_mcode_fault true n).resetEngine n))
  ∧ (∀ (s : State) (n : Fin 8), exec (.anvilDisable n) s = .next (s.wr F.ANV_CTL_enable 0 n).syncAnvil)
  ∧ (∀ (s : State) (r : Fin 64) (d : Desc) (slot : Nat), s.Starts r 0x0201 d → s.freeHostSlot = some slot →
      s.on F.HIV_TRC_CTL_enable = false → s.onChip true < 2048 →
    ∃ t, exec (.solve r) s = .next t ∧ t.anvil.hostSlot = store (fun _ => none) s.anvil.hostSlot slot (some d.id)
      ∧ (∃ j, t.job slot = some j ∧ j.desc = some d.id ∧ j.deadline = d.deadline)
      ∧ ∃ it ∈ t.hive.items, it.anvil = true ∧ it.ctx = slot ∧ it.planner = false ∧ it.source = d.ring ∧ it.prio = d.prio)
  ∧ (∀ (s : State) (r : Fin 64) (d : Desc), s.Starts r 0x0202 d →
    ∃ t, exec (.warmClear r) s = .next t ∧ (t.warmSlot (byteAt d.bytes 32)).valid = false ∧ t.Completed d 1
      ∧ ∀ w, w ≠ byteAt d.bytes 32 → t.warmSlot w = s.warmSlot w)

/-- The life of a job on an engine: dispatch, the load check, check 0 after the factorisation, iterations with a check at every
multiple of check_every, the ends at the deadline and at the iteration limit, and the output.  (Rests on R119, R137 to R148.) -/
def Obligations.AnvilSolve : Prop :=
  (∀ (s : State) (n : Nat) (it : Item), s.mode ≠ 5 → s.mode ≠ 7 → s.on F.HIV_CTL_enable = true →
      (List.range 8).find? (fun n => s.on F.ANV_CTL_enable n && (s.solve n).isNone) = some n → s.nextJob = some it →
      (∀ j, s.job it.ctx = some j → j.deadline = 0) →
      s.on F.HIV_TRC_CTL_enable = false → s.on F.HIV_STAT_backpressure = false → (∀ c, c < 32 → (s.core c).stalled = none) →
      (∀ j ∈ s.hive.items, j.spilled = false) →
    ∃ t, exec .anvilDispatch s = .next t ∧ t.solve n = some { slot := it.ctx } ∧ t.rd F.ANV_STAT_phase n = 1
      ∧ t.hive.items = s.hive.items.filter (·.seq != it.seq) ∧ ∀ k, k ≠ n → t.solve k = s.solve k)
  ∧ (∀ (s : State) (n : Fin 8) (io : HostIo) (v : Solve) (j : Job), s.solve n = some v → v.outcome = none →
      s.rd F.ANV_STAT_phase n = 1 → s.job v.slot = some j → j.desc.isSome = true → io.bodyErr = false →
      loadCheck io.body (s.rd F.ANV_GCTL_tau_log2) (field j.bytes 0 2) (field j.bytes 40 4) = 0 →
    ∃ t w, exec (.jobLoadComplete n io) s = .next t ∧ t.rd F.ANV_STAT_phase n = 2 ∧ t.solve n = some w ∧ w.slot = v.slot
      ∧ w.prob = parseProb io.body (s.rd F.ANV_GCTL_tau_log2) ∧ w.hash = crc64 (hashBytes io.body) ∧ w.outcome = none)
  ∧ (∀ (s : State) (n : Fin 8) (io : HostIo) (v : Solve) (j : Job) (c : Nat), s.solve n = some v → v.outcome = none →
      s.rd F.ANV_STAT_phase n = 1 → s.job v.slot = some j → j.desc.isSome = true → io.bodyErr = false → c ≠ 0 →
      loadCheck io.body (s.rd F.ANV_GCTL_tau_log2) (field j.bytes 0 2) (field j.bytes 40 4) = c →
    ∃ t e, exec (.jobLoadComplete n io) s = .next t ∧ t.rd F.ANV_STAT_phase n = 5
      ∧ t.solve n = some { v with outcome := some e } ∧ e.status = (if c = 1 then 0x11 else 0x12) ∧ e.ending = 7
      ∧ e.loadCheck = c ∧ e.iterate = none)
  ∧ (∀ (s : State) (n : Fin 8) (v : Solve), s.solve n = some v → v.outcome = none → s.rd F.ANV_STAT_phase n = 2 →
    ∃ t w, exec (.factorisationComplete n) s = .next t ∧ t.free = s.free + 1 ∧ t.solve n = some w ∧ w.slot = v.slot
      ∧ w.pivots ≤ v.prob.n + v.prob.m ∧ (w.checks = v.checks + 1 ∨ ∃ e, w.outcome = some e ∧ e.status = 0x21 ∧ e.ending = 6))
  ∧ (∀ (s : State) (n : Fin 8) (v : Solve), s.solve n = some v → v.outcome = none → s.rd F.ANV_STAT_phase n = 4 →
    ∃ t w, exec (.iteration n) s = .next t ∧ t.free = s.free + v.prob.n + v.prob.m + 1 ∧ t.solve n = some w ∧ w.k = v.k + 1
      ∧ (w.checks = v.checks + if (v.k + 1) % v.prob.checkEvery = 0 then 1 else 0)
      ∧ (s.iterLimit v ≤ v.k + 1 → w.outcome ≠ none))
  ∧ (∀ (s : State) (n : Fin 8) (v : Solve), s.solve n = some v → v.outcome = none → s.rd F.ANV_STAT_phase n = 3 →
    ∃ t w, exec (.refactorisationComplete n) s = .next t ∧ t.free = s.free + 1 ∧ t.solve n = some w ∧ w.cur = v.cur
      ∧ (t.rd F.ANV_STAT_phase n = 4 ∧ w = v ∨ ∃ e, w.outcome = some e ∧ e.status = 0x21 ∧ e.ending = 6))
  ∧ (∀ (s : State) (n : Fin 8) (v : Solve) (j : Job), s.solve n = some v → v.outcome = none → s.job v.slot = some j →
      j.deadline ≠ 0 →
    ∃ t e, exec (.jobDeadline n) s = .next t ∧ t.solve n = some { v with outcome := some e } ∧ t.rd F.ANV_STAT_phase n = 5
      ∧ (v.best = none → e.status = (if v.sat then 0x21 else 0x03) ∧ e.ending = 5 ∧ e.iterate = none)
      ∧ (∀ c it, v.best = some (c, it) → e.ending = 3 ∧ e.iterate = some it ∧ e.usable = c.usable))
  ∧ (∀ (s : State) (n : Fin 8) (io : HostIo) (v : Solve) (e : JobEnd) (j : Job) (d : Nat), s.solve n = some v →
      v.outcome = some e → s.job v.slot = some j → j.desc = some d → e.ending ≠ 7 → io.resultErr = false →
    ∃ t, exec (.jobOutput n io) s = .next t ∧ t.solve n = none ∧ t.job v.slot = none
      ∧ t.hostMem = writeBytes s.hostMem (field j.bytes 32 8) (s.resultBytes v e (field j.bytes 0 2) true))
  ∧ (∀ (s : State) (n : Fin 8) (io : HostIo) (v : Solve) (e : JobEnd) (j : Job), s.solve n = some v →
      v.outcome = some e → s.job v.slot = some j → j.desc = none →
    exec (.jobOutput n io) s = .next (s.plannerOutput n v e j))

/-- A segment that passes its checks joins the queue of its chain behind the others, and starts if the chain can; one that does not
completes with 0x12; the segment in progress completes with SUCCESS at its hand-over point, and the next one starts; a chain
that was halted is HELD at standstill and keeps what remains.  (Rests on R158, R162, R163.) -/
def Obligations.SegmentCommands : Prop :=
  (∀ (s : State) (r : Fin 64) (io : HostIo) (i : Instr) (op : Nat) (d : Desc),
      (i, op) ∈ [(Instr.moveJoint r io, 0x0101), (Instr.moveLine r io, 0x0102), (Instr.moveArc r io, 0x0103), (Instr.moveSpline r io, 0x0104)] →
      s.nextMotion r op = some d → io.bodyErr = false → (op = 0x0104 → byteAt io.body 0 = 1 → Config.cartesian r = true) →
      (op = 0x0104 → byteAt io.body 0 = 0 → d.op 37 1 = 0) → segReserved op io.body = false → s.segBad r d io.body = none →
    exec i s = .next ((s.drawn.setChain r { s.chain r with queue := (s.chain r).queue ++
      [{ desc := d.id, op := op, bytes := d.bytes, body := io.body }] }).stir r))
  ∧ (∀ (s : State) (r : Fin 64) (d : Desc), s.nextMotion r 0x0105 = some d →
      ((bitsIn (d.op 32 4)).any fun z => (s.zoneEnt z).scope == 0) = false →
    exec (.dwell r) s = .next ((s.drawn.setChain r { s.chain r with queue := (s.chain r).queue ++
      [{ desc := d.id, op := 0x0105, bytes := d.bytes, body := [] }] }).stir r))
  ∧ (∀ (s : State) (r : Fin 64) (io : HostIo) (d : Desc) (off : Nat), s.nextMotion r 0x0102 = some d → io.bodyErr = false →
      segReserved 0x0102 io.body = false → s.segBad r d io.body = some off → exec (.moveLine r io) s = .next (s.drawn.fail d.id 0x12 off))
  ∧ (∀ (s : State) (c : Fin 16) (g : Seg), (s.chain c).cur = some g → (s.chain c).state = 1 → g.op ≠ 0x0105 →
      (s.chain c).queue = [] → (s.chain c).heldNext = none → (s.chain c).halt = none → (s.chain c).later = none →
    ∃ t, exec (.segmentComplete c) s = .next t ∧ (t.chain c).cur = none ∧ (t.chain c).state = 0 ∧ t.free = s.free + 1
      ∧ t.hif = (s.drawn.endSeg g 1 0 0 0).hif ∧ ∀ k, k ≠ c.val → t.chain k = s.chain k)
  ∧ (∀ (s : State) (c : Fin 16) (rem len : Word) (g : Seg) (h : Halt), (s.chain c).cur = some g → (s.chain c).halt = some h →
      (s.chain c).state = 3 ∨ (s.chain c).state = 5 → h.cancel = false → h.discard = false → (s.chain c).later = none →
      (s.chain c).resumes = [] → s.takesEvent 23 →
    ∃ t, exec (.chainStandstill c rem len) s = .next t ∧ (t.chain c).state = 4 ∧ (t.chain c).cur = none
      ∧ (t.chain c).halt = none ∧ (t.chain c).kept = some (g, rem.toNat, len.toNat) ∧ (t.chain c).heldCause = h.cause
      ∧ t.hasEvent 23 h.cause c)

/-- The immediate operations of a MOTION ring act on fetch. HOLD holds a standing chain at once and a moving one along its path;
STOP ramps a moving chain down; RESUME takes up what remains; CANCEL discards what is queued; SET_ACCEL waits for a planning
tick; STATUS completes with the state of the chain.  (Rests on R176 to R182.) -/
def Obligations.MotionCommands : Prop :=
  (∀ (s : State) (r : Fin 64) (d : Desc), s.nextMotion r 0x0110 = some d →
    exec (.hold r) s = .next ((s.startDesc d).holdChain r 1 (some d.id)))
  ∧ (∀ (s : State) (c cause d : Nat), (s.chain c).state = 0 → s.takesEvent 23 →
      ((s.holdChain c cause (some d)).chain c).state = 4 ∧ ((s.holdChain c cause (some d)).chain c).heldCause = cause
      ∧ (s.holdChain c cause (some d)).hasEvent 23 cause c)
  ∧ (∀ (s : State) (c cause d : Nat), (s.chain c).state = 1 → (s.chain c).halt = none →
      s.holdChain c cause (some d) = s.setChain c { s.chain c with halt := some { cause := cause, waiting := [d] }, holdDue := true })
  ∧ (∀ (s : State) (r : Fin 64) (d : Desc), s.nextMotion r 0x0111 = some d →
    exec (.stopOp r) s = .next ((s.startDesc d).stopChain r { cause := 8, waiting := [d.id] }))
  ∧ (∀ (s : State) (c : Nat) (h : Halt), (s.chain c).state = 1 → (s.chain c).halt = none →
      ((s.stopChain c h).chain c).state = 5 ∧ ((s.stopChain c h).chain c).halt = some h
      ∧ (s.stopChain c h).hif = s.hif)
  ∧ (∀ (s : State) (r : Fin 64) (d : Desc), s.nextMotion r 0x0112 = some d →
    exec (.resume r) s = .next ((s.startDesc d).resumeChain r d.id))
  ∧ (∀ (s : State) (c d : Nat), s.injecting c = false → (s.chain c).state = 3 ∨ (s.chain c).state = 5 →
      ((s.resumeChain c d).chain c).resumes = (s.chain c).resumes ++ [d] ∧ (s.resumeChain c d).hif = s.hif)
  ∧ (∀ (s : State) (r : Fin 64) (d : Desc), s.nextMotion r 0x0113 = some d → (s.chain r).state = 0 ∨ (s.chain r).state = 4 →
    exec (.cancel r) s = .next (((s.startDesc d).discardAll r).complete d.id 1))
  ∧ (∀ (s : State) (c : Nat), (s.chain c).req = none → ((s.discardAll c).chain c).state = 0 ∧ ((s.discardAll c).chain c).queue = []
      ∧ ((s.discardAll c).chain c).cur = none ∧ ((s.discardAll c).chain c).kept = none)
  ∧ (∀ (s : State) (r : Fin 64) (d : Desc), s.nextMotion r 0x0114 = some d →
    ∃ t, exec (.setAccel r) s = .next t
      ∧ (t.chain r).scales = (s.chain r).scales ++ [{ desc := d.id, accel := d.op 16 2, decel := d.op 18 2 }]
      ∧ (t.chain r).accel = (s.chain r).accel ∧ (t.chain r).decel = (s.chain r).decel ∧ t.hif.compl = s.hif.compl)
  ∧ (∀ (s : State) (r : Fin 64) (d : Desc), s.nextMotion r 0x0115 = some d → s.hif.desc.find? (·.id == d.id) = some d →
      d.quiet = false →
    ∃ t, exec (.status r) s = .next t ∧ t.plan = s.plan ∧ ∃ c ∈ t.hif.compl, c.id = d.id ∧ c.status = 1
      ∧ byteAt c.result 0 = (s.chain r).state % 256 ∧ field c.result 2 2 = (s.chain r).queue.length % 2 ^ 16
      ∧ field c.result 12 4 = (s.chain r).tokens % 2 ^ 32)

/-- The planning cycle. A tick only acts at a common instant that is a planning tick; there new scales and holds take effect; a
usable result ends a bridge, and a missed one bridges the chains of the problem from its switch instant and raises source 22;
the signal of a commit makes the prepared windows ready. Planner settings. A setting whose operands pass their checks waits; the
first whose chains are all IDLE applies, and its descriptor completes with SUCCESS.  (Rests on R147, R167, R168, R174, R176,
R181, R206, R185, R191.) -/
def Obligations.PlanningAndSettings : Prop :=
  ((∀ (s : State) (w : List PlanWork) (u : List (Fin 16)), s.on F.GLB_STAT_cycle_run = false ∨ s.tim.cycle % s.plan.tickCycles ≠ 0 →
    exec (.planningTick w u) s = .next s)
  ∧ (∀ (s : State) (c : Fin 16), s.on F.GLB_STAT_cycle_run = true → s.tim.cycle % s.plan.tickCycles = 0 →
      (s.chain c).scales = [] → (s.chain c).holdDue = true → (s.chain c).state = 1 →
      (∀ k, k < 16 → k ≠ c.val → (s.chain k).scales = [] ∧ (s.chain k).holdDue = false ∧ (s.chain k).state = 0 ∧ (s.chain k).queue = []) →
    ∃ t, exec (.planningTick [] []) s = .next t ∧ (t.chain c).state = 3 ∧ (t.chain c).holdDue = false
      ∧ ∀ k, k ≠ c.val → t.chain k = s.chain k)
  ∧ (∀ (s : State) (c n : Nat), (s.chain c).scales = [{ desc := n, accel := 1, decel := 2 }] → (s.chain c).state = 0 →
      ((s.applyScales c).chain c).accel = 1 ∧ ((s.applyScales c).chain c).decel = 2 ∧ ((s.applyScales c).chain c).scales = [])
  ∧ (∀ (s : State) (c : Fin 32) (it : Item) (j : PlanJob) (k : Nat), (s.core c).item = some it → it.planner = true → it.anvil = false →
      lookup (fun _ => none) s.plan.job (it.arg % 2 ^ 16) = some j → it.arg / 2 ^ 16 % 256 = 1 → s.usableResult (it.arg % 2 ^ 16) = true →
      j.chains = [k] → (s.chain k).state = 6 →
    ∃ t, exec (.plannerCompletion c) s = .next t ∧ (t.chain k).state = (if (s.chain k).cur.isSome then 1 else 2)
      ∧ lookup (fun _ => none) t.plan.job (it.arg % 2 ^ 16) = none ∧ t.hif = s.hif)
  ∧ (∀ (s : State) (c : Fin 32) (it : Item) (j : PlanJob) (k : Nat), (s.core c).item = some it → it.planner = true → it.anvil = false →
      lookup (fun _ => none) s.plan.job (it.arg % 2 ^ 16) = some j → 3 < it.arg / 2 ^ 16 % 256 →
      j.chains = [k] → (s.chain k).state = 1 → s.takesEvent 22 →
    ∃ t, exec (.plannerCompletion c) s = .next t ∧ (t.chain k).state = 6 ∧ t.hasEvent 22 1 0xFFFF
      ∧ lookup (fun _ => none) t.plan.job (it.arg % 2 ^ 16) = none)
  ∧ (∀ (s : State) (n c a : Nat) (head : List Byte) (rest : List (List Nat)), s.anvil.signals = [n] :: rest → c < 16 →
      ((s.eng n).chainWin c).prep = some (a, head) → (∀ k, k < 16 → k ≠ c → ((s.eng n).chainWin k).prep = none) →
    ∃ t, exec .commitSignal s = .next t ∧ t.anvil.signals = rest ∧ ((t.eng n).chainWin c).prep = none
      ∧ ((t.eng n).chainWin c).pending = some (windowOf (head ++ readBytes (s.sramOf n) (a + 24) 24 ++ [2, 0]) true)))
  ∧ ((∀ (s : State) (r : Fin 64) (d : Desc), s.Starts r 0x0320 d → (s.startDesc d).planCfgOk d.bytes = true →
    ∃ t, exec (.planCfg r) s = .next t
      ∧ t.plan.settings = s.plan.settings ++ [{ desc := d.id, op := 0x0320, bytes := d.bytes, body := [] }]
      ∧ t.hif.compl = s.hif.compl)
  ∧ (∀ (s : State) (r : Fin 64) (d : Desc), s.Starts r 0x0321 d → (s.startDesc d).swarmCfgOk d.bytes = true →
    ∃ t, exec (.swarmCfg r) s = .next t
      ∧ t.plan.settings = s.plan.settings ++ [{ desc := d.id, op := 0x0321, bytes := d.bytes, body := [] }])
  ∧ (∀ (s : State) (r : Fin 64) (d : Desc), s.Starts r 0x0322 d → (s.startDesc d).chainCfgOk d.bytes = true →
    ∃ t, exec (.chainCfg r) s = .next t
      ∧ t.plan.settings = s.plan.settings ++ [{ desc := d.id, op := 0x0322, bytes := d.bytes, body := [] }])
  ∧ (∀ (s : State) (r : Fin 64) (io : HostIo) (d : Desc), s.Starts r 0x0323 d → io.bodyErr = false →
      (∀ z, z < 32 → byteAt io.body (16 * z) = 0 ∨ field io.body (16 * z + 4) 4 ≠ 0) → (∀ z, z < 32 → zoneOk io.body z = true) →
    ∃ t, exec (.zoneTable r io) s = .next t
      ∧ t.plan.settings = s.plan.settings ++ [{ desc := d.id, op := 0x0323, bytes := d.bytes, body := io.body }])
  ∧ (∀ (s : State) (r : Fin 64) (d : Desc), s.Starts r 0x0320 d → (s.startDesc d).planCfgOk d.bytes = false →
    ∃ t, exec (.planCfg r) s = .next t ∧ t.plan = s.plan ∧ t.Completed d 0x12)
  ∧ (∀ (s : State) (x : Setting) (l : List Setting), s.plan.settings = x :: l → x.op = 0x0320 → (∀ y ∈ l, y.desc ≠ x.desc) →
      (∀ c, c < 16 → (s.chain c).state = 0) →
    ∃ t, exec .plannerSettingApply s = .next t ∧ t.plan.settings = l ∧ t.plan.tickCycles = field x.bytes 16 2
      ∧ t.plan.windowTicks = field x.bytes 18 2 ∧ t.plan.knots = field x.bytes 20 2))

/-- Zone tokens. A segment whose zones its chain does not hold forms a request, which goes to its keeper; a keeper grants by rank,
and only when every zone asked of it is free; messages move requests, releases, withdrawals, states and claims; limits expire
with sources 20 and 21.  (Rests on R183 to R190.) -/
def Obligations.ZoneCommands : Prop :=
  (∀ (s : State) (c : Fin 16) (g : Seg) (l : List Seg) (z : Nat), (s.chain c).queue = g :: l →
      (bitsIn g.mask).filter (fun z => !(s.chain c).tokens.testBit z) = [z] → (s.chain c).req = none →
      (s.chain c).state = 1 → (∀ y ∈ bitsIn (s.chain c).pred, y < z) →
    ∃ t, exec (.zoneRequestForm c) s = .next t
      ∧ (t.chain c).req = some { zones := 2 ^ z, time := s.cellNs, seq := (s.chain c).reqSeq % 65536 }
      ∧ (t.chain c).tokens = (s.chain c).tokens ∧ (t.chain c).queue = (s.chain c).queue)
  ∧ (∀ s : State, s.plan.restarting = true →
    ∃ t, exec .keeperDecision s = .next t ∧ t.plan.keeper = s.plan.keeper ∧ t.plan.chain = s.plan.chain)
  ∧ (∀ (s : State) (a : Asked) (z : Nat) (l : List Asked), s.askedZones a = [z] → s.keeper z = { holder := none, waiting := a :: l } →
      (∀ b ∈ l, ¬ (b.who = a.who ∧ b.seq = a.seq)) → a.who ≠ s.me a.who.chain →
      ((s.decideOne [] a).1.keeper z).holder = some a.who ∧ ((s.decideOne [] a).1.keeper z).waiting = l)
  ∧ (∀ (s : State) (a : Asked) (z : Nat) (p : Party), z ∈ s.askedZones a → (s.keeper z).holder = some p →
      (s.decideOne [] a).1 = s)
  ∧ (∀ (s : State) (c : Fin 16) (q : ZoneReq) (g : Seg) (l : List Seg), (s.chain c).req = some q → (s.chain c).queue = g :: l →
      g.deadline ≠ 0 → s.takesEvent 21 →
    ∃ t, exec (.zoneWaitExpiry c true) s = .next t ∧ (t.chain c).req = none ∧ t.hasEvent 21 2 c)
  ∧ (∀ (s : State) (c : Fin 16) (z : Fin 32) (a : Nat), (s.chain c).grants = [(z.val, (a, false))] → (s.chain c).state = 1 →
      (s.chain c).halt = none → s.takesEvent 20 →
    ∃ t, exec (.zoneHoldLimitExpiry c z) s = .next t ∧ (t.chain c).grants = [(z.val, (a, true))] ∧ t.hasEvent 20 1 c
      ∧ (t.chain c).halt = some { cause := 2, waiting := [] } ∧ (t.chain c).holdDue = true)
  ∧ (∀ (s : State) (m : ZoneMsg), s.keeps m.zone = true → s.keeper m.zone = {} →
    ∃ t, exec (.zoneRequestMsg m) s = .next t
      ∧ t.keeper m.zone = { holder := none, waiting := [{ who := whoOf m, time := m.time.toNat, seq := m.seq.toNat }] }
      ∧ ∀ z, z ≠ m.zone.val → t.keeper z = s.keeper z)
  ∧ (∀ (s : State) (m : ZoneMsg), s.keeps m.zone = true → (s.keeper m.zone).holder = some (whoOf m) →
    ∃ t, exec (.zoneReleaseMsg m) s = .next t ∧ t.keeper m.zone = { s.keeper m.zone with holder := none }
      ∧ t.plan.out = s.plan.out ++ [zoneMsg 4 m.zone { pos := 0xFF, chain := 0, cell := s.cellId } 0 0])
  ∧ (∀ (s : State) (m : ZoneMsg), s.keeps m.zone = true →
    ∃ t, exec (.zoneWithdrawMsg m) s = .next t ∧ (t.keeper m.zone).holder = (s.keeper m.zone).holder
      ∧ (t.keeper m.zone).waiting = (s.keeper m.zone).waiting.filter fun a => !(a.who == whoOf m && a.seq == m.seq.toNat))
  ∧ (∀ (s : State) (m : ZoneMsg) (q : ZoneReq), m.pos.toNat ≠ 0xFF → whoOf m = s.me m.chain.toNat → m.chain.toNat < 16 →
      s.plan.releasing = [] → (s.chain m.chain.toNat).req = some q → q.zones = 2 ^ m.zone.val → q.got = 0 →
      (s.chain m.chain.toNat).state = 1 →
    ∃ t, exec (.zoneStateMsg m) s = .next t ∧ (t.chain m.chain.toNat).req = none
      ∧ (t.chain m.chain.toNat).tokens = (s.chain m.chain.toNat).tokens ||| q.zones)
  ∧ (∀ (s : State) (m : ZoneMsg), s.plan.restarting = true → s.keeps m.zone = true →
    exec (.zoneClaimMsg m) s = .next (s.setKeeper m.zone { s.keeper m.zone with holder := some (whoOf m) }))
  ∧ (∀ s : State, exec .keeperRestartEnd s = .next { s with plan := { s.plan with restarting := false } })

/-- The commands of a Temper engine. Its program starts once the feedback is in; an uncorrectable SRAM error or a reset traps it,
which stops and disables it with a new epoch; an enable needs an engine that is not trapped, a disable needs STO of all its
axes; a following error is cleared; a law of a stopped engine goes to page 0, a staged one to the other page.  (Rests on R194,
R198, R204, R213 to R216.) -/
def Obligations.TemperEngine : Prop :=
  (∀ (s u : State) (n : Fin 64) (fb : List Meas) (k : BitVec 24), s.endProgram n = s → s.on F.TMP_CTL_enable n = true →
      s.on F.TMP_STAT_trapped n = false → s.on F.TMP_STAT_running n = false → (s.eng n).init = false → s.feedbackDue n = false →
      u = (((((s.wr F.TMP_STAT_running 1 n).setEng n { s.eng n with out := [], ran := k.toNat, late := false, kick := false }).tngLate
        n).runSlots n fb).tickTunes n) → u.on F.TMP_STAT_trapped n = false →
    ∃ t, exec (.temperProgramStart n fb k false) s = .next t ∧ (t.eng n).endAt = t.cellNs + (t.eng n).ran
      ∧ t.rd F.TMP_STAT_running n = u.rd F.TMP_STAT_running n ∧ (t.eng n).out = (u.eng n).out)
  ∧ (∀ (s : State) (n : Fin 64) (fb : List Meas) (k : BitVec 24), s.endProgram n = s → s.on F.TMP_CTL_enable n = true →
      s.on F.TMP_STAT_trapped n = false → s.on F.TMP_STAT_running n = false → (s.eng n).init = false → s.feedbackDue n = false →
    exec (.temperProgramStart n fb k true) s = .next (s.trapEngine n 3))
  ∧ (∀ (s : State) (n : Fin 64) (cause : Nat), (s.trapEngine n cause).rd F.TMP_STAT_trapped n = 1
      ∧ (s.trapEngine n cause).rd F.TMP_STAT_running n = 0 ∧ (s.trapEngine n cause).rd F.TMP_CTL_enable n = 0
      ∧ (s.trapEngine n cause).rd F.TMP_STAT_stopped n = 1 ∧ (s.trapEngine n cause).rd F.TMP_PROG_bg_active n = 0
      ∧ (s.trapEngine n cause).rd F.TMP_STAT_epoch n = (s.rd F.TMP_STAT_epoch n + 1) % 2 ^ F.TMP_STAT_epoch.width
      ∧ ((s.trapEngine n cause).eng n).out = [])
  ∧ (∀ (s : State) (n : Fin 64), s.on F.TMP_CTL_enable n = false → s.on F.TMP_STAT_trapped n = false →
    ∃ t, exec (.temperEnable n) s = .next t ∧ t.rd F.TMP_CTL_enable n = 1 ∧ t.rd F.TMP_STAT_stopped n = 0
      ∧ (t.eng n).init = true ∧ ∀ k, k ≠ n.val → t.eng k = s.eng k)
  ∧ (∀ (s : State) (n : Fin 64), s.on F.TMP_CTL_enable n = false → s.on F.TMP_STAT_trapped n = true →
    exec (.temperEnable n) s = .next (s.wrIgnored .tmp n (F.TMP_CTL_enable.addr n 0)))
  ∧ (∀ (s : State) (n : Fin 64), s.on F.TMP_CTL_enable n = true → s.allSto n = true → s.on F.TMP_STAT_running n = false →
    ∃ t, exec (.temperDisable n) s = .next t ∧ t.rd F.TMP_CTL_enable n = 0 ∧ t.rd F.TMP_STAT_stopped n = 1
      ∧ t.rd F.TMP_PROG_bg_active n = 0 ∧ (t.eng n).init = false)
  ∧ (∀ (s : State) (n : Fin 64), s.on F.TMP_CTL_enable n = true → s.allSto n = false →
    exec (.temperDisable n) s = .next (s.wrIgnored .tmp n (F.TMP_CTL_enable.addr n 0)))
  ∧ (∀ (s : State) (n : Fin 64),
    ∃ t, exec (.temperResetWrite n) s = .next t ∧ t.rd F.TMP_STAT_trapped n = 0 ∧ t.rd F.TMP_CTL_enable n = 0
      ∧ t.rd F.TMP_STAT_stopped n = 1 ∧ t.free = s.free + 89 ∧ (t.eng n).dp.rrb = 0 ∧ (t.eng n).dp.flight = []
      ∧ (t.eng n).saved = none ∧ (t.eng n).ovr = 0)
  ∧ (∀ (s : State) (n : Fin 64) (j : Fin 16),
    ∃ t, exec (.feClear n j) s = .next t ∧ t.rd F.TMP_AX_STAT_fe_fault n j = 0 ∧ t.rd F.TMP_AX_STAT_fe_count n j = 0
      ∧ ((t.eng n).ax j).halted = false ∧ s.OnlyWords t [F.TMP_AX_STAT_fe_fault.addr n j]
      ∧ ∀ i, i ≠ j.val → (t.eng n).ax i = (s.eng n).ax i)
  ∧ (∀ (s : State) (r : Fin 64) (io : HostIo) (d : Desc), s.Starts r 0x0330 d → io.bodyErr = false → bitAt (d.op 34 1) 0 = false →
      s.on F.TMP_STAT_stopped (d.op 32 1) = true → Law.ok io.body = true →
      usesOk (s.lawsOf (d.op 32 1)) (d.op 33 1) io.body = true →
      lawsSize (putLaw (s.lawsOf (d.op 32 1)) (d.op 33 1) io.body) ≤ 32768 → d.op 32 1 < 64 →
    ∃ t, exec (.lawLoad r io) s = .next t ∧ t.rd F.TMP_STAT_page (d.op 32 1) = 0 ∧ t.Completed d 1
      ∧ t.lawsOf (d.op 32 1) = putLaw (s.lawsOf (d.op 32 1)) (d.op 33 1) io.body)
  ∧ (∀ (s : State) (r : Fin 64) (io : HostIo) (d : Desc), s.Starts r 0x0330 d → io.bodyErr = false → bitAt (d.op 34 1) 0 = false →
      s.on F.TMP_STAT_stopped (d.op 32 1) = false →
    ∃ t, exec (.lawLoad r io) s = .next t ∧ t.Completed d 0x15 ∧ t.temper = s.temper)

/-- Tuning operations. INJECT and CAPTURE wait for their start, act from a common instant on, and complete when their time is over
and their capture has landed; CAPTURE_SET keeps a set inside the tuning region; FRA starts when the captures of its engine have
ended, and completes with its result in host memory.  (Rests on R217 to R223.) -/
def Obligations.TuningCommands : Prop :=
  (∀ (s : State) (r : Fin 64) (io : HostIo) (d : Desc) (n j : Nat), s.Starts r 0x0601 d → io.bodyErr = false →
      s.axisHome (d.op 32 1) = some (n, j) →
      (s.on F.TMP_AX_CFG_in_chain n j = true → (s.chain (s.rd F.TMP_AX_CFG_chain n j)).state = 0 ∨ (s.chain (s.rd F.TMP_AX_CFG_chain n j)).state = 4) →
      (d.op 34 1 = 2 → 2 * d.op 48 4 * s.tim.cycleNs ≤ 10 ^ 12) →
      (d.op 34 1 = 4 → io.body.length % 8 = 0 ∧ 0 < io.body.length ∧ io.body.length ≤ 256) →
    ∃ t u, exec (.inject r io) s = .next t ∧ t.temper.tune = s.temper.tune ++ [u] ∧ u.desc = d.id ∧ u.inject = true ∧ u.engine = n
      ∧ u.slot = j ∧ u.start = (if d.deadline = 0 then s.cellNs + 10000 else d.deadline) ∧ u.started = false
      ∧ t.hif.compl = s.hif.compl)
  ∧ (∀ (s : State) (r : Fin 64) (d : Desc) (n : Nat), s.Starts r 0x0602 d → 0 < d.op 33 1 →
      (∀ i, i < d.op 33 1 → (s.axisHome (d.op (40 + 2 * i) 1)).map (·.1) = some n ∧ quantityOk (d.op (41 + 2 * i) 1) = true) →
      d.op 56 8 % 64 = 0 →
    ∃ t, exec (.captureSet r) s = .next t
      ∧ (if Config.tuneBase ≤ d.op 56 8 ∧ d.op 56 8 + 64 + 4 * d.op 33 1 * d.op 36 4 ≤ Config.tuneBase + Config.tuneSize then
          t.Completed d 1 ∧ (t.capset (d.op 32 1)).engine = n
            ∧ (t.capset (d.op 32 1)).channels = (List.range (d.op 33 1)).map (fun i => (d.op (40 + 2 * i) 1, d.op (41 + 2 * i) 1))
            ∧ (t.capset (d.op 32 1)).samples = d.op 36 4 ∧ (t.capset (d.op 32 1)).addr = d.op 56 8
        else t.Completed d 0x12 ∧ t.temper = s.temper))
  ∧ (∀ (s : State) (r : Fin 64) (d : Desc), s.Starts r 0x0603 d → (s.capset (d.op 32 1)).channels ≠ [] →
    ∃ t u, exec (.capture r) s = .next t ∧ t.temper.tune = s.temper.tune ++ [u] ∧ u.desc = d.id ∧ u.inject = false
      ∧ u.engine = (s.capset (d.op 32 1)).engine ∧ u.set = some (d.op 32 1) ∧ u.started = false)
  ∧ (∀ (s : State) (r : Fin 64) (u : Tune) (k : Nat), s.temper.tune = [u] → u.started = false →
      (s.hif.desc.any fun d => d.id == u.desc && d.ring == r.val) = true → 0 ≤ cellDiff s.tim.lastInstant u.start → u.set = some k →
    ∃ t, exec (.injectionStart r) s = .next t ∧ t.temper.tune = [{ u with started := true }]
      ∧ (t.capset k).running = true ∧ (t.capset k).taken = 0 ∧ (t.capset k).staging = [])
  ∧ (∀ (s : State) (r : Fin 64) (u : Tune) (d : Desc), s.temper.tune = [u] → u.started = true → u.inject = true → u.ending = none →
      u.set = none → s.hif.desc = [d] → d.id = u.desc → d.ring = r.val → d.quiet = false → s.mode = 2 →
      field u.bytes 40 4 ≤ u.elapsed →
    ∃ t, exec (.injectionEnd r) s = .next t ∧ t.temper.tune = [] ∧ t.Completed d 1)
  ∧ (∀ (s : State) (r : Fin 64) (u : Tune) (d : Desc), s.temper.tune = [u] → u.started = true → u.inject = true →
      s.hif.desc = [d] → d.id = u.desc → d.ring = r.val → s.mode ≠ 2 →
    ∃ t, exec (.injectionEnd r) s = .next t ∧ t.temper.tune = [] ∧ t.Completed d 0x15)
  ∧ (∀ (s : State) (i : Fin 16), (s.capset i).staging ≠ [] → s.on F.GLB_STAT_ddr_ok = true → s.mode ≠ 5 →
    ∃ t head, exec (.captureDrain i) s = .next t ∧ (t.capset i).staging = []
      ∧ (t.capset i).landed = (s.capset i).landed + (s.capset i).staging.length ∧ head.length = 64
      ∧ t.ddr = writeBytes (writeBytes s.ddr (s.capset i).addr head)
          ((s.capset i).addr + 64 + 4 * (s.capset i).channels.length * (s.capset i).landed) ((s.capset i).staging.flatMap id))
  ∧ (∀ (s : State) (r : Fin 64) (d : Desc) (n : Nat), s.Starts r 0x0604 d →
      (d.op 38 1 = 0xFF ∧ d.op 36 1 ≤ 10 ∧ n = (s.capset (d.op 32 1)).engine ∨ d.op 38 1 = n ∧ n ≠ 0xFF ∧ s.slotsOf n = []) →
      d.op 33 1 < (s.capset (d.op 32 1)).channels.length → d.op 34 1 < (s.capset (d.op 32 1)).channels.length →
      32 + 16 * (2 ^ d.op 36 1 / 2 - 1) ≤ d.op 56 4 → d.op 40 4 + 2 ^ d.op 36 1 ≤ (s.capset (d.op 32 1)).samples →
      s.on F.TMP_PROG_bg_active n = false →
    ∃ t, exec (.fra r) s = .next t ∧ t.temper.fra = s.temper.fra ++ [{ desc := d.id, bytes := d.bytes, engine := n }]
      ∧ t.hif.compl = s.hif.compl)
  ∧ (∀ (s : State) (r : Fin 64) (f : Fra), s.fraOf r = some f → f.started = false →
      (∀ i, i < 16 → (s.capset i).running = false ∨ (s.capset i).engine ≠ f.engine) →
    ∃ t, exec (.fraStart r) s = .next t ∧ t.rd F.TMP_STAT_tune f.engine = 1
      ∧ t.temper.fra = s.temper.fra.map fun x => if x.desc = f.desc then { x with started := true } else x)
  ∧ (∀ (s : State) (r : Fin 64) (io : HostIo) (f : Fra), s.fraOf r = some f → f.started = true →
    exec (.fraComplete r io) s = .next (s.endFra f io (s.fraSegments f) 1))
  ∧ (∀ (s : State) (f : Fra) (io : HostIo) (d : Desc) (avg st : Nat), s.hif.desc.find? (·.id == f.desc) = some d →
      d.quiet = false → io.resultErr = false →
      (s.endFra f io avg st).hostMem = writeBytes s.hostMem (field f.bytes 48 8) (s.fraBytes f avg)
      ∧ (s.endFra f io avg st).temper.fra = s.temper.fra.filter (·.desc != f.desc)
      ∧ ∃ c ∈ (s.endFra f io avg st).hif.compl, c.id = d.id ∧ c.status = st ∧ c.notes = 128)
  ∧ (∀ (s : State) (r : Fin 64) (io : HostIo) (f : Fra), s.fraOf r = some f → field f.bytes 8 8 ≠ 0 →
    ∃ u avg, exec (.fraDeadline r io) s = .next (u.endFra f io avg 3) ∧ u = (s.advanceCell (field f.bytes 8 8)).drawn
      ∧ avg ≤ u.fraSegments f ∧ (f.started = false → avg = 0))

/-- Owner programs. A signed program of a stopped engine on an owned device is loaded and its area cleared; a clear removes it; a
background program starts when it is loaded and the engine has none; its preemption saves the registers, and the cycle program
starts at bundle 0.  (Rests on R226, R243, R244, R246, R247, R249.) -/
def Obligations.OwnerPrograms : Prop :=
  (∀ (s : State) (r : Fin 64) (io : HostIo) (d : Desc), s.Starts r 0x0331 d → io.bodyErr = false →
      s.on F.TMP_STAT_stopped (d.op 32 1) = true → progOk io.body = true → s.otp.owner = true → d.op 32 1 < 64 →
    ∃ t, exec (.progLoad r io true) s = .next t ∧ t.Completed d 1 ∧ t.rd F.TMP_PROG_loaded (d.op 32 1) = 1
      ∧ (t.eng (d.op 32 1)).code = (List.range (field io.body 12 2)).map (fun i => field io.body (64 + 8 * i) 8)
      ∧ (t.eng (d.op 32 1)).bgEntry = field io.body 14 2 ∧ (t.eng (d.op 32 1)).tHook = field io.body 16 4
      ∧ (∀ a, 0x7400 ≤ a ∧ a < 0x7E00 ∨ 0xF000 ≤ a → (∀ c ∈ t.sramOf (d.op 32 1), c.1 ≠ a)))
  ∧ (∀ (s : State) (r : Fin 64) (io : HostIo) (d : Desc), s.Starts r 0x0331 d → io.bodyErr = false →
      s.on F.TMP_STAT_stopped (d.op 32 1) = true → progOk io.body = true → s.otp.owner = false →
    ∃ t, exec (.progLoad r io true) s = .next t ∧ t.Completed d 0x14 ∧ t.temper = s.temper)
  ∧ (∀ (s : State) (r : Fin 64) (d : Desc), s.Starts r 0x0332 d → s.on F.TMP_STAT_stopped (d.op 32 1) = true → d.op 32 1 < 64 →
    ∃ t, exec (.progClear r) s = .next t ∧ t.Completed d 1 ∧ t.rd F.TMP_PROG_loaded (d.op 32 1) = 0
      ∧ (t.eng (d.op 32 1)).code = [] ∧ (t.eng (d.op 32 1)).bgEntry = 0xFFFF)
  ∧ (∀ (s : State) (n : Fin 64), s.on F.TMP_PROG_bg_active n = false → (s.temper.fra.any fun f => f.engine == n.val && f.started) = false →
      s.on F.TMP_PROG_loaded n = true → (s.eng n).bgEntry ≠ 0xFFFF →
    ∃ t, exec (.bgStart n) s = .next t ∧ t.rd F.TMP_PROG_bg_active n = 1 ∧ (t.eng n).dp.run = 2
      ∧ (t.eng n).dp.pc = (s.eng n).bgEntry ∧ (t.eng n).dp.d = (s.eng n).dp.d)
  ∧ (∀ (s : State) (n : Fin 64), s.on F.TMP_PROG_loaded n = false →
    exec (.bgStart n) s = .next (s.wrIgnored .tmp n (F.TMP_PROG_bg_start.addr n 0)))
  ∧ (∀ (s : State) (n : Fin 64), (s.eng n).dp.run = 2 → s.on F.TMP_STAT_trapped n = false → (s.px n).next.dp.atom = 0 →
      (s.px n).next.dp.goal = none → (s.px n).next.dp.entering = none → (s.px n).next.dp.run = 2 → (s.px n).next.trap = false →
    ∃ t x, exec (.backgroundPreemption n) s = .next t ∧ (t.eng n).dp.run = 1 ∧ (t.eng n).dp.pc = 0 ∧ (t.eng n).dp.rrb = 0
      ∧ (t.eng n).dp.flight = [] ∧ (t.eng n).saved = some x ∧ x.bpc = (s.px n).next.dp.pc
      ∧ t.sramOf n = writeBytes ((s.px n).next.drain).mem 0x7E00 x.saveWords)

/-- The address slot. On an engine that is not trapped, an operation issues `gap` bundles after the one before it: a load lands
three bundles later in its register, a store two bundles later in memory, a pointer change and a move one bundle later; a
misaligned access, one outside the map, or a wrong operand field traps instead. The rest of the address slot. LDXY loads a pair
through each of two pointers; ST.N and ST.NC store narrowed accumulators; MVC reads and MVCW writes a control register.  (Rests
on R226, R232, R233, R241, R226, R228, R232, R233, R236.) -/
def Obligations.AddressSlotOperations : Prop :=
  (∀ (s : State) (n : Fin 64) (gap : BitVec 4) (ax : BitVec 3) (mode : BitVec 2) (dd : BitVec 6) (ext : BitVec 10) (p : Px),
    s.on F.TMP_STAT_trapped n = false → p = Px.advance gap.toNat (s.px n) → p.trap = false → (mode ≠ 1 → ext = 0) →
  (p.addr ax.toNat % 4 = 0 → p.addr ax.toNat < 0x10000 → exec (.ldW n gap ax mode dd ext) s = .next (s.setPx n
      ((p.later 3 (.data (p.phys dd.toNat) (BitVec.ofNat 32 (le (readBytes p.mem (p.addr ax.toNat) 4))))).modify
        ax.toNat mode.toNat 4 (sgn 10 ext.toNat))))
  ∧ (p.addr ax.toNat % 4 = 0 → 0x10000 ≤ p.addr ax.toNat → p.addr ax.toNat < 0x18000 →
      exec (.ldW n gap ax mode dd ext) s = .next (s.setPx n
        (({ p with free := p.free + 1 }.later 3 (.data (p.phys dd.toNat) (BitVec.ofNat 32 ((Config.freeDWord p.free).toNat % 2 ^ 32)))).modify
          ax.toNat mode.toNat 4 (sgn 10 ext.toNat))))
  ∧ (p.addr ax.toNat < 0x10000 → exec (.ldB n gap ax mode dd ext) s = .next (s.setPx n
      ((p.later 3 (.data (p.phys dd.toNat) (BitVec.ofNat 32 (uns 32 (sgn 8 (readByte p.mem (p.addr ax.toNat)).toNat))))).modify
        ax.toNat mode.toNat 1 (sgn 10 ext.toNat))))
  ∧ (p.addr ax.toNat % 8 = 0 → p.addr ax.toNat < 0x10000 → p.pairOk dd.toNat = true → exec (.ldD n gap ax mode dd ext) s =
      .next (s.setPx n ((p.loadPair dd.toNat (le (readBytes p.mem (p.addr ax.toNat) 8))).modify ax.toNat mode.toNat 8 (sgn 10 ext.toNat))))
  ∧ (p.storeBad (p.addr ax.toNat) 4 = false → exec (.stW n gap ax mode dd ext) s = .next (s.setPx n
      ((p.later 2 (.mem (p.addr ax.toNat) (toBytes 4 (p.reg dd.toNat).toNat))).modify ax.toNat mode.toNat 4 (sgn 10 ext.toNat))))
  ∧ (p.storeBad (p.addr ax.toNat) 8 = false → p.pairOk dd.toNat = true → exec (.stD n gap ax mode dd ext) s = .next (s.setPx n
      ((p.later 2 (.mem (p.addr ax.toNat) (toBytes 4 (p.reg dd.toNat).toNat ++ toBytes 4 (p.dp.dreg (p.upper dd.toNat)).toNat))).modify
        ax.toNat mode.toNat 8 (sgn 10 ext.toNat))))
  ∧ (p.addr ax.toNat % 4 ≠ 0 ∨ 0x18000 ≤ p.addr ax.toNat → exec (.ldW n gap ax mode dd ext) s = .next (s.setPx n p.ill))
  ∧ (p.storeBad (p.addr ax.toNat) 4 = true → exec (.stW n gap ax mode dd ext) s = .next (s.setPx n p.ill))
  ∧ (mode = 0 → dd = 0 → exec (.amod n gap ax mode dd ext) s = .next (s.setPx n
      (p.later 1 (.addr ax.toNat (uns 17 ((p.addr ax.toNat : Int) + sgn 10 ext.toNat))))))
  ∧ (mode = 0 → ext = 0 → exec (.mva n gap ax mode dd ext) s = .next (s.setPx n (p.later 1 (.addr ax.toNat (p.reg dd.toNat).toNat)))
      ∧ exec (.mvm n gap ax mode dd ext) s = .next (s.setPx n (p.later 1 (.modif ax.toNat (p.reg dd.toNat).toNat)))
      ∧ exec (.mvd n gap ax mode dd ext) s = .next (s.setPx n (p.later 1 (.data (p.phys dd.toNat) (BitVec.ofNat 32 (p.addr ax.toNat)))))
      ∧ exec (.mvmd n gap ax mode dd ext) s =
          .next (s.setPx n (p.later 1 (.data (p.phys dd.toNat) (BitVec.ofNat 32 (p.modif ax.toNat)))))))
  ∧ (∀ (s : State) (n : Fin 64) (gap : BitVec 4) (ax : BitVec 3) (mode : BitVec 2) (dd : BitVec 6) (ext : BitVec 10) (p : Px),
    s.on F.TMP_STAT_trapped n = false → p = Px.advance gap.toNat (s.px n) → p.trap = false →
  (p.addr ax.toNat % 8 = 0 → p.addr (bitsOf ext.toNat 7 3) % 8 = 0 → p.addr ax.toNat < 0x8000 →
    0x8000 ≤ p.addr (bitsOf ext.toNat 7 3) → p.addr (bitsOf ext.toNat 7 3) < 0x10000 → ext.toNat % 4 = 0 →
    p.pairOk dd.toNat = true → p.pairOk (2 * bitsOf ext.toNat 2 5) = true →
    exec (.ldxy n gap ax mode dd ext) s = .next (s.setPx n
      ((((p.loadPair dd.toNat (le (readBytes p.mem (p.addr ax.toNat) 8))).loadPair (2 * bitsOf ext.toNat 2 5)
        (le (readBytes p.mem (p.addr (bitsOf ext.toNat 7 3)) 8))).modify ax.toNat mode.toNat 8 1).modify
          (bitsOf ext.toNat 7 3) mode.toNat 8 1)))
  ∧ (∀ (v : Word) (o : Bool), p.storeBad (p.addr ax.toNat) 4 = false → dd = 0 → bitsOf ext.toNat 2 2 ≠ 3 →
    p.narrowOf (bitsOf ext.toNat 1 1) (bitsOf ext.toNat 4 6) (bitsOf ext.toNat 2 2) (bitAt ext.toNat 0) = (v, o) →
    exec (.stN n gap ax mode dd ext) s = .next (s.setPx n
      (({ p with narrow := p.narrow || o }.later 2 (.mem (p.addr ax.toNat) (toBytes 4 v.toNat))).modifyN ax.toNat mode.toNat 4)))
  ∧ (∀ (v w : Word) (o q : Bool), p.storeBad (p.addr ax.toNat) 8 = false → dd = 0 → bitsOf ext.toNat 2 2 ≠ 3 → bitAt ext.toNat 1 = false →
    p.narrowOf 0 (bitsOf ext.toNat 4 6) (bitsOf ext.toNat 2 2) (bitAt ext.toNat 0) = (v, o) →
    p.narrowOf 1 (bitsOf ext.toNat 4 6) (bitsOf ext.toNat 2 2) (bitAt ext.toNat 0) = (w, q) →
    exec (.stNc n gap ax mode dd ext) s = .next (s.setPx n
      (({ p with narrow := p.narrow || o || q }.later 2
        (.mem (p.addr ax.toNat) (toBytes 4 v.toNat ++ toBytes 4 w.toNat))).modifyN ax.toNat mode.toNat 8)))
  ∧ (ax = 0 → mode = 0 → ext.toNat < 16 →
    exec (.mvc n gap ax mode dd ext) s = .next (s.setPx n (p.later 1 (.data (p.phys dd.toNat) (p.dp.ctl ext.toNat)))))
  ∧ (ax = 0 → mode = 0 → ext.toNat < 9 →
    exec (.mvcw n gap ax mode dd ext) s = .next (s.setPx n (p.later 1 (.ctl ext.toNat (p.reg dd.toNat).toNat))))
  ∧ (ax = 0 → mode = 0 → 10 ≤ ext.toNat → ext.toNat < 16 → recent p.dp.clock p.dp.accAt0 = false → recent p.dp.clock p.dp.accAt1 = false →
    exec (.mvcw n gap ax mode dd ext) s =
      .next (s.setPx n (p.later 1 (.accPart ((ext.toNat - 10) / 3) ((ext.toNat - 10) % 3) (p.reg dd.toNat)))))
  ∧ (ext.toNat = 9 → exec (.mvcw n gap ax mode dd ext) s = .next (s.setPx n p.ill)))

/-- Accumulator operations act on the exact result of the operation before them on that accumulator, kept to 80 bits, and land four
bundles later; NRW and CLSA land two bundles later. The register operations of the multiply-accumulate slot land in the next
bundle; ADDS and SUBS saturate, shifts use the low five bits of their second operand; TST sets z and n; with a bit 6 in aux the
register operations trap.  (Rests on R234, R235, R236, R241, R234, R241.) -/
def Obligations.MacSlotOperations : Prop :=
  (∀ (s : State) (n : Fin 64) (gap : BitVec 4) (s1 s2 : BitVec 6) (aux : BitVec 7) (p : Px),
    s.on F.TMP_STAT_trapped n = false → p = Px.advance gap.toNat (s.px n) → p.trap = false →
  (∀ q, q = alignProd (p.regS s1.toNat) (p.regS s2.toNat) (p.shiftOf aux.toNat) →
    exec (.mul n gap s1 s2 aux) s = .next (s.setPx n (p.accOp (aux.toNat / 64) fun _ => q))
    ∧ exec (.mac n gap s1 s2 aux) s = .next (s.setPx n (p.accOp (aux.toNat / 64) fun a => a + q))
    ∧ exec (.msu n gap s1 s2 aux) s = .next (s.setPx n (p.accOp (aux.toNat / 64) fun a => a - q)))
  ∧ (∀ (ar ai br bi : Int) (k : Nat), bitAt aux.toNat 6 = false → p.pairOk s1.toNat = true → p.pairOk s2.toNat = true →
      ar = p.regS s1.toNat → ai = p.hi s1.toNat → br = p.regS s2.toNat → bi = p.hi s2.toNat → k = p.shiftOf aux.toNat →
    exec (.dmac n gap s1 s2 aux) s = .next (s.setPx n
      ((p.accOp 0 fun a => a + alignProd ar br k).accOp 1 fun a => a + alignProd ai bi k))
    ∧ exec (.cmul n gap s1 s2 aux) s = .next (s.setPx n ((p.accOp 0 fun _ => 0 + alignProd ar br k - alignProd ai bi k).accOp 1
        fun _ => 0 + alignProd ar bi k + alignProd ai br k))
    ∧ exec (.cmac n gap s1 s2 aux) s = .next (s.setPx n ((p.accOp 0 fun a => a + alignProd ar br k - alignProd ai bi k).accOp 1
        fun a => a + alignProd ar bi k + alignProd ai br k))
    ∧ exec (.cmacj n gap s1 s2 aux) s = .next (s.setPx n ((p.accOp 0 fun a => a + alignProd ar br k - alignProd ai (-bi) k).accOp 1
        fun a => a + alignProd ar (-bi) k + alignProd ai br k)))
  ∧ (s1 = 0 → s2 = 0 → aux = 3 → exec (.aclr n gap s1 s2 aux) s = .next (s.setPx n ((p.accOp 0 fun _ => 0).accOp 1 fun _ => 0)))
  ∧ (s1 = 0 → s2 = 0 → aux = 2 → exec (.aclr n gap s1 s2 aux) s = .next (s.setPx n (p.accOp 1 fun _ => 0)))
  ∧ (s1 = 0 → s2 = 0 → aux = 1 → exec (.aclr n gap s1 s2 aux) s = .next (s.setPx n (p.accOp 0 fun _ => 0)))
  ∧ (∀ (v : Word) (o : Bool), aux.toNat % 8 = 0 → bitsOf aux.toNat 4 2 ≠ 3 →
      p.narrowOf (aux.toNat / 64) s2.toNat (bitsOf aux.toNat 4 2) (bitAt aux.toNat 3) = (v, o) →
    exec (.nrw n gap s1 s2 aux) s = .next (s.setPx n ({ p with narrow := p.narrow || o }.later 2 (.data (p.phys s1.toNat) v))))
  ∧ (s1 = 0 → aux.toNat % 64 = 0 → exec (.ash n gap s1 s2 aux) s = .next (s.setPx n (p.accOp (aux.toNat / 64) fun a =>
      if 0 ≤ sgn 6 s2.toNat then a * (2 ^ (sgn 6 s2.toNat).toNat : Nat) else a / (2 ^ (-(sgn 6 s2.toNat)).toNat : Nat))))
  ∧ (s1 = 0 → s2.toNat < 2 → bitAt aux.toNat 6 = false → exec (.clsa n gap s1 s2 aux) s = .next (s.setPx n
      (p.later 2 (.data (p.phys aux.toNat) (BitVec.ofNat 32 (redundant (p.acc s2.toNat) 79)))))))
  ∧ (∀ (s : State) (n : Fin 64) (gap : BitVec 4) (s1 s2 : BitVec 6) (aux : BitVec 7) (p : Px) (a b : Int) (k : Nat) (f : Int → Px),
    s.on F.TMP_STAT_trapped n = false → p = Px.advance gap.toNat (s.px n) → p.trap = false →
    a = p.regS s1.toNat → b = p.regS s2.toNat → k = (p.reg s2.toNat).toNat % 32 →
    f = (fun v => p.later 1 (.data (p.phys aux.toNat) (BitVec.ofInt 32 v))) →
  (bitAt aux.toNat 6 = false →
    exec (.add n gap s1 s2 aux) s = .next (s.setPx n (f (a + b)))
    ∧ exec (.sub n gap s1 s2 aux) s = .next (s.setPx n (f (a - b)))
    ∧ exec (.adds n gap s1 s2 aux) s = .next (s.setPx n (f (clampI (-2147483648) 2147483647 (a + b))))
    ∧ exec (.subs n gap s1 s2 aux) s = .next (s.setPx n (f (clampI (-2147483648) 2147483647 (a - b))))
    ∧ exec (.and n gap s1 s2 aux) s =
        .next (s.setPx n (p.later 1 (.data (p.phys aux.toNat) (p.reg s1.toNat &&& p.reg s2.toNat))))
    ∧ exec (.or n gap s1 s2 aux) s =
        .next (s.setPx n (p.later 1 (.data (p.phys aux.toNat) (p.reg s1.toNat ||| p.reg s2.toNat))))
    ∧ exec (.xor n gap s1 s2 aux) s =
        .next (s.setPx n (p.later 1 (.data (p.phys aux.toNat) (p.reg s1.toNat ^^^ p.reg s2.toNat))))
    ∧ exec (.shl n gap s1 s2 aux) s = .next (s.setPx n (f (a * (2 ^ k : Nat))))
    ∧ exec (.shr n gap s1 s2 aux) s = .next (s.setPx n (f (a / (2 ^ k : Nat))))
    ∧ exec (.shrr n gap s1 s2 aux) s = .next (s.setPx n (f (rhu a k)))
    ∧ exec (.min n gap s1 s2 aux) s = .next (s.setPx n (f (if a < b then a else b)))
    ∧ exec (.max n gap s1 s2 aux) s = .next (s.setPx n (f (if a < b then b else a))))
  ∧ (bitAt aux.toNat 6 = false → s2 = 0 → exec (.cls n gap s1 s2 aux) s = .next (s.setPx n
      (p.later 1 (.data (p.phys aux.toNat) (BitVec.ofNat 32 (redundant a 31))))))
  ∧ (exec (.movi n gap s1 s2 aux) s = .next (s.setPx n
      (p.later 1 (.data (p.phys s1.toNat) (BitVec.ofInt 32 (sgn 13 (s2.toNat * 128 + aux.toNat)))))))
  ∧ (s2 = 0 → aux = 0 → exec (.tst n gap s1 s2 aux) s =
      .next (s.setPx n (p.later 1 (.zn (p.reg s1.toNat == 0) (decide (a < 0))))))
  ∧ (bitAt aux.toNat 6 = true → exec (.add n gap s1 s2 aux) s = .next (s.setPx n p.ill)))

/-- The control slot. A taken transfer waits for two delay slots; CALL keeps the bundle after them in link; END and RBG end the
program or resume the one that was preempted; LSET and ROT land in the next bundle; LOOP opens its body; ATOM opens its window.
In a delay slot each of them traps.  (Rests on R227, R237, R238, R239, R243.) -/
def Obligations.ControlSlot : Prop :=
  ∀ (s : State) (n : Fin 64) (gap : BitVec 4) (op : BitVec 10) (p : Px),
    s.on F.TMP_STAT_trapped n = false → p = Px.advance gap.toNat (s.px n) → p.trap = false →
  (p.dp.goal = none → p.dp.lastTwo = false → p.dp.atom = 0 → p.escapes (p.target op.toNat) = false →
    exec (.br n gap op) s = .next (s.setPx n (p.goTo (.bundle (p.target op.toNat) false)))
    ∧ exec (.bz n gap op) s = .next (s.setPx n (if p.dp.z then p.goTo (.bundle (p.target op.toNat) false) else p))
    ∧ exec (.bnz n gap op) s = .next (s.setPx n (if p.dp.z then p else p.goTo (.bundle (p.target op.toNat) false)))
    ∧ exec (.bn n gap op) s = .next (s.setPx n (if p.dp.n then p.goTo (.bundle (p.target op.toNat) false) else p))
    ∧ exec (.bnn n gap op) s = .next (s.setPx n (if p.dp.n then p else p.goTo (.bundle (p.target op.toNat) false)))
    ∧ exec (.call n gap op) s = .next (s.setPx n
        ({ p with dp := { p.dp with link := (p.dp.pc + 3) % 4096, inHook := p.dp.inHook || (!p.owner && decide (2048 ≤ p.target op.toNat)) } }.goTo
          (.bundle (p.target op.toNat) false))))
  ∧ (p.dp.goal = none → p.dp.lastTwo = false → p.dp.atom = 0 → op = 0 →
    (p.escapes p.dp.link = false ∨ p.dp.inHook = true ∧ p.dp.act0 = false ∧ p.dp.act1 = false →
      exec (.ret n gap op) s = .next (s.setPx n (p.goTo (.bundle p.dp.link (p.escapes p.dp.link)))))
    ∧ exec (.endOp n gap op) s = .next (s.setPx n (p.goTo .finish))
    ∧ (p.owner = false → exec (.rbg n gap op) s = .next (s.setPx n (p.goTo .resume)))
    ∧ (p.owner = true → exec (.rbg n gap op) s = .next (s.setPx n p.ill)))
  ∧ (p.dp.goal = none → bitsOf op.toNat 6 3 = 0 → bitAt op.toNat 9 = false → exec (.lset n gap op) s = .next (s.setPx n
      ({ p with dp := { p.dp with lset0 := some p.dp.clock } }.later 1 (.ctl 0 ((p.reg (op.toNat % 64)).toNat % 2 ^ 16)))))
  ∧ (p.dp.goal = none → bitsOf op.toNat 6 3 = 0 → bitAt op.toNat 9 = true → exec (.lset n gap op) s = .next (s.setPx n
      ({ p with dp := { p.dp with lset1 := some p.dp.clock } }.later 1 (.ctl 1 ((p.reg (op.toNat % 64)).toNat % 2 ^ 16)))))
  ∧ (∀ l e, l = p.dp.pc + bitsOf op.toNat 6 3 + 1 → e = l + op.toNat % 64 → p.dp.goal = none → p.dp.lastTwo = false → p.dp.atom = 0 →
      e < 4096 → bitAt op.toNat 9 = true → tooSoon p.dp.clock p.dp.lset1 = false →
      (p.dp.act0 = true → p.dp.ls0 ≤ l ∧ e ≤ p.dp.le0) →
    exec (.loop n gap op) s = .next (s.setPx n
      { p with dp := { p.dp with ls1 := l, le1 := e, act1 := true, entering := some 1 } }))
  ∧ (∀ l e, l = p.dp.pc + bitsOf op.toNat 6 3 + 1 → e = l + op.toNat % 64 → p.dp.goal = none → p.dp.lastTwo = false → p.dp.atom = 0 →
      e < 4096 → bitAt op.toNat 9 = false → tooSoon p.dp.clock p.dp.lset0 = false → p.dp.act1 = false →
    exec (.loop n gap op) s = .next (s.setPx n
      { p with dp := { p.dp with ls0 := l, le0 := e, act0 := true, entering := some 0 } }))
  ∧ (p.dp.goal = none → bitsOf op.toNat 5 4 = 0 → exec (.rot n gap op) s = .next (s.setPx n
      (p.later 1 (.ctl 6 (if bitAt op.toNat 9 then (p.dp.rrb + 32 - op.toNat % 32) % 32 else op.toNat % 32)))))
  ∧ (p.dp.goal = none → p.dp.atom = 0 → op.toNat < 8 → exec (.atom n gap op) s = .next (s.setPx n
      { p with dp := { p.dp with atom := op.toNat % 8 + 2 } }))
  ∧ (∀ i, p.dp.goal.isSome = true → i ∈ [Instr.br n gap op, .bz n gap op, .bnz n gap op, .bn n gap op, .bnn n gap op, .call n gap op,
      .ret n gap op, .endOp n gap op, .rbg n gap op, .lset n gap op, .loop n gap op, .rot n gap op, .atom n gap op] →
    exec i s = .next (s.setPx n p.ill))

/-- A result lands the stated number of bundles after issue and not before, and of two that land together in one register the later
issued prevails; a trapped engine issues nothing.  (Rests on R241.) -/
def Obligations.ResultsLandInTime : Prop :=
  (∀ (p : Px) (r : Nat) (v : Word), p.dp.flight = [] → p.dp.goal = none →
    (p.later 1 (.data r v)).dp.dreg r = p.dp.dreg r ∧ (p.later 1 (.data r v)).next.dp.dreg r = v
    ∧ (p.later 3 (.data r v)).next.next.dp.dreg r = p.dp.dreg r ∧ (p.later 3 (.data r v)).next.next.next.dp.dreg r = v
    ∧ ∀ k, k ≠ r → (p.later 3 (.data r v)).next.next.next.dp.dreg k = p.dp.dreg k)
  ∧ (∀ (p : Px) (r : Nat) (v w : Word), p.dp.flight = [] → p.dp.goal = none →
    ((p.later 1 (.data r v)).later 1 (.data r w)).next.dp.dreg r = w)
  ∧ (∀ (p : Px) (a : Nat) (bs : List Byte), p.dp.flight = [] → p.dp.goal = none →
    (p.later 2 (.mem a bs)).next.mem = p.mem ∧ (p.later 2 (.mem a bs)).next.next.mem = writeBytes p.mem a bs)
  ∧ (∀ (s : State) (n : Fin 64) (gap : BitVec 4) (f : Px → Px), s.on F.TMP_STAT_trapped n = true → s.issue n gap f = s)

/-- The channels of the feedback interface. Enabling starts a quadrature or Hall channel at count 0 and standstill, and keeps the
count of an SSI channel; a channel of the safety processor is left to privileged masters; disabling keeps the last sample in the
registers and disarms the probes of the channel; a clear ends the latched flags; TNG_SAMPLE completes with position, velocity
and status.  (Rests on R252, R264, R268, R270, R272, R273.) -/
def Obligations.TongsChannels : Prop :=
  (∀ (s : State) (m : Master) (c : Fin 32) (l : BitVec 3), s.tngOn c = false → s.tngMay m c = true →
    ∃ t, exec (.tongsEnable m c l) s = .next t ∧ t.tngOn c = true ∧ (t.tngCh c).levels = l ∧ (t.tngCh c).edges = []
      ∧ (t.tngCh c).referenced = false ∧ (s.tngMode c ≠ 2 → (t.tngCh c).ext = 0 ∧ (t.tngCh c).standstill = true)
      ∧ (s.tngMode c = 2 → (t.tngCh c).ext = (s.tngCh c).ext ∧ (t.tngCh c).frames = [] ∧ (t.tngCh c).prev = none)
      ∧ s.OnlyWords t [F.TNG_CH_CTL_enable.addr c 0] ∧ ∀ k, k ≠ c.val → t.tngCh k = s.tngCh k)
  ∧ (∀ (s : State) (m : Master) (c : Fin 32) (l : BitVec 3), s.tngOn c = true → exec (.tongsEnable m c l) s = .next s)
  ∧ (∀ (s : State) (m : Master) (c : Fin 32) (l : BitVec 3), s.on F.TNG_CH_CFG_quench c = true → s.privileged m = false →
      (s.tngOn c = false → exec (.tongsEnable m c l) s = .next (s.pvDropped m false true (F.TNG_CH_CTL_enable.addr c 0)))
      ∧ (s.tngOn c = true → exec (.tongsDisable m c) s = .next (s.pvDropped m false true (F.TNG_CH_CTL_enable.addr c 0))))
  ∧ (∀ (s : State) (m : Master) (c : Fin 32), s.tngOn c = true → s.tngMay m c = true →
    ∃ t, exec (.tongsDisable m c) s = .next t ∧ t.tngOn c = false ∧ (t.tngCh c).frame = none
      ∧ t.rd F.TNG_CH_STAT_status c = (s.tngStill c).tngStatus c % 2 ^ F.TNG_CH_STAT_status.width
      ∧ (∀ p, p < 8 → s.rd F.TNG_PRB_CFG_chan p = c.val → s.on F.TNG_PRB_CFG_arm p = true →
          t.rd F.TNG_PRB_CFG_arm p = 0 ∧ t.rd F.TNG_PRB_STAT_armed p = 0)
      ∧ ∀ p, p < 8 → s.rd F.TNG_PRB_CFG_chan p ≠ c.val → t.rd F.TNG_PRB_STAT_armed p = s.rd F.TNG_PRB_STAT_armed p)
  ∧ (∀ (s : State) (c : Fin 32),
    ∃ t, exec (.tongsClear c) s = .next t ∧ t.rd F.TNG_CH_IDXMIS_ext c = 0
      ∧ t.tngCh c = { s.tngCh c with illegal := false, wire := false, mismatch := false, hallIllegal := false }
      ∧ s.OnlyWords t [F.TNG_CH_IDXMIS_ext.addr c 0] ∧ ∀ k, k ≠ c.val → t.tngCh k = s.tngCh k)
  ∧ (∀ (s : State) (c : Fin 32) (e : Nat) (l : List Nat), (s.tngCh c).edges = e :: l → s.tngOn c = true → s.tngMode c ≠ 2 →
      (s.tngCh c).standstill = false → s.rd F.TNG_CH_SPD_stand c ≠ 0 → e < 2 ^ 64 →
      s.rd F.TNG_CH_SPD_stand c * 10000 ≤ edgeSpan s.cellNs e →
    exec (.standstillTimeout c) s = .next (s.setTngCh c { s.tngCh c with standstill := true }))
  ∧ (∀ (s : State) (r : Fin 64) (d : Desc), s.Starts r 0x0920 d → d.op 32 1 < 32 → s.tngOn (d.op 32 1) = true →
    ∃ t v, exec (.tngSample r) s = .next t ∧ v = ((s.startDesc d).tngStill (d.op 32 1)).tngSample (d.op 32 1)
      ∧ t.Completed d (if (s.tngCh (d.op 32 1)).reversal then 2 else 1)
      ∧ ∃ c ∈ t.hif.compl, c.id = d.id ∧ c.result = result [(16, 8, v.1), (24, 4, v.2.1), (28, 4, v.2.2)])
  ∧ (∀ (s : State) (r : Fin 64) (d : Desc), s.Starts r 0x0920 d → 32 ≤ d.op 32 1 ∨ s.tngOn (d.op 32 1) = false →
    ∃ t, exec (.tngSample r) s = .next t ∧ t.Completed d 0x12 ∧ t.tongs = s.tongs)

/-- Edges. A change of one of A and B moves the count by one in its direction; a change of both is illegal and counts nothing; a
wire disagreement latches; an index event latches the count, corrects it where its mode says so, or latches a mismatch; a Hall
sector change to a neighbour moves the count by one, and an illegal code latches (which Hall order counts upwards is the free
value of log 29).  (Rests on R253 to R260.) -/
def Obligations.TongsEdges : Prop :=
  (∀ (s : State) (c : Fin 32) (a b : Bool) (te : DWord) (k : Fin 5), s.tngOn c = true → s.tngMode c = 0 →
      a ≠ (s.tngCh c).levels.getLsbD 0 → b = (s.tngCh c).levels.getLsbD 1 →
    ∃ t, exec (.quadratureEdge c a b te k) s = .next t
      ∧ (t.tngCh c).ext = uns 48 (((s.tngCh c).ext : Int)
          + (if ((grayPos ((s.tngCh c).levels.getLsbD 0) b + 1) % 4 == grayPos a b) != s.on F.TNG_CH_CFG_dir c then 1 else -1))
      ∧ (t.tngCh c).levels.getLsbD 0 = a ∧ (t.tngCh c).levels.getLsbD 1 = b ∧ (t.tngCh c).edges.head? = some (stampOf te k)
      ∧ t.regs = s.regs ∧ ∀ i, i ≠ c.val → t.tngCh i = s.tngCh i)
  ∧ (∀ (s : State) (c : Fin 32) (a b : Bool) (te : DWord) (k : Fin 5), s.tngOn c = true → s.tngMode c = 0 →
      a = (s.tngCh c).levels.getLsbD 0 → b ≠ (s.tngCh c).levels.getLsbD 1 →
    ∃ t, exec (.quadratureEdge c a b te k) s = .next t
      ∧ (t.tngCh c).ext = uns 48 (((s.tngCh c).ext : Int)
          + (if ((grayPos a ((s.tngCh c).levels.getLsbD 1) + 1) % 4 == grayPos a b) != s.on F.TNG_CH_CFG_dir c then 1 else -1))
      ∧ (t.tngCh c).levels.getLsbD 0 = a ∧ (t.tngCh c).levels.getLsbD 1 = b ∧ t.regs = s.regs)
  ∧ (∀ (s : State) (c : Fin 32) (a b : Bool) (te : DWord) (k : Fin 5), s.tngOn c = true → s.tngMode c = 0 →
      a ≠ (s.tngCh c).levels.getLsbD 0 → b ≠ (s.tngCh c).levels.getLsbD 1 → (s.tngCh c).illegal = false → s.takesEvent (72 + c / 4) →
    ∃ t, exec (.quadratureEdge c a b te k) s = .next t ∧ (t.tngCh c).ext = (s.tngCh c).ext ∧ (t.tngCh c).illegal = true
      ∧ t.hasEvent (72 + c / 4) 1 c
      ∧ t.rd F.TNG_CH_ERR_illegal c = min (s.rd F.TNG_CH_ERR_illegal c + 1) (2 ^ F.TNG_CH_ERR_illegal.width - 1))
  ∧ (∀ (s : State) (c : Fin 32) (p : Fin 3), s.tngOn c = true → s.tngMode c = 0 → p.val < 2 → (s.tngCh c).wire = false →
      s.takesEvent (72 + c / 4) →
    ∃ t, exec (.wireDisagreement c p) s = .next t ∧ (t.tngCh c).wire = true ∧ t.tngValid c = false ∧ t.hasEvent (72 + c / 4) 2 c
      ∧ t.rd F.TNG_CH_ERR_wire c = min (s.rd F.TNG_CH_ERR_wire c + 1) (2 ^ F.TNG_CH_ERR_wire.width - 1))
  ∧ (∀ (s : State) (c : Fin 32) (p : Fin 3), s.tngOn c = true → s.tngMode c = 0 → p.val < 2 → (s.tngCh c).wire = true →
    ∃ t, exec (.wireDisagreement c p) s = .next t ∧ t.hif = s.hif ∧ t.tngCh c = s.tngCh c)
  ∧ (∀ (s : State) (c : Fin 32) (te : DWord) (k : Fin 5), s.tngOn c = true → s.tngMode c = 0 → s.on F.TNG_CH_IDX_gate_en c = false →
      s.rd F.TNG_CH_IDX_mode c = 1 →
    ∃ t, exec (.indexEvent c te k) s = .next t ∧ t.tngCh c = { s.tngCh c with index := true }
      ∧ t.rd F.TNG_CH_IDXLAT_ext c = (s.tngCh c).ext % 2 ^ F.TNG_CH_IDXLAT_ext.width)
  ∧ (∀ (s : State) (c : Fin 32) (te : DWord) (k : Fin 5), s.tngOn c = true → s.tngMode c = 0 → s.on F.TNG_CH_IDX_gate_en c = false →
      s.rd F.TNG_CH_IDX_mode c = 4 → s.rd F.TNG_CH_CPR_cpr c ≠ 0 → (s.tngCh c).referenced = false →
    ∃ t, exec (.indexEvent c te k) s = .next t ∧ (t.tngCh c).referenced = true
      ∧ (t.tngCh c).ext = uns 48 (((s.tngCh c).ext : Int)
          - indexDev (sgn 48 (s.tngCh c).ext) (s.rd F.TNG_CH_CPR_cpr c) (s.rd F.TNG_CH_IDXREF_ref c)))
  ∧ (∀ (s : State) (c : Fin 32) (te : DWord) (k : Fin 5), s.tngOn c = true → s.tngMode c = 0 → s.on F.TNG_CH_IDX_gate_en c = false →
      s.rd F.TNG_CH_IDX_mode c = 2 → s.rd F.TNG_CH_CPR_cpr c ≠ 0 → (s.tngCh c).mismatch = false → s.takesEvent (72 + c / 4) →
      s.rd F.TNG_CH_IDX_tol c < (indexDev (sgn 48 (s.tngCh c).ext) (s.rd F.TNG_CH_CPR_cpr c) (s.rd F.TNG_CH_IDXREF_ref c)).natAbs →
    ∃ t, exec (.indexEvent c te k) s = .next t ∧ (t.tngCh c).ext = (s.tngCh c).ext ∧ (t.tngCh c).mismatch = true
      ∧ t.rd F.TNG_CH_IDXMIS_ext c = (s.tngCh c).ext % 2 ^ F.TNG_CH_IDXMIS_ext.width ∧ t.hasEvent (72 + c / 4) 3 c)
  ∧ (∀ (s : State) (c : Fin 32) (v : BitVec 3) (te : DWord) (k : Fin 5) (p q : Nat), s.tngOn c = true → s.tngMode c = 1 →
      hallPos (s.tngCh c).levels.toNat = some p → hallPos v.toNat = some q → (p + 1) % 6 = q →
    ∃ t, exec (.hallSectorChange c v te k) s = .next t ∧ (t.tngCh c).levels = v ∧ t.regs = s.regs
      ∧ (t.tngCh c).ext = uns 48 (((s.tngCh c).ext : Int) + (if Config.hallUp != s.on F.TNG_CH_CFG_dir c then 1 else -1)))
  ∧ (∀ (s : State) (c : Fin 32) (v : BitVec 3) (te : DWord) (k : Fin 5) (p q : Nat), s.tngOn c = true → s.tngMode c = 1 →
      hallPos (s.tngCh c).levels.toNat = some p → hallPos v.toNat = some q → (q + 1) % 6 = p →
    ∃ t, exec (.hallSectorChange c v te k) s = .next t ∧ (t.tngCh c).levels = v
      ∧ (t.tngCh c).ext = uns 48 (((s.tngCh c).ext : Int) + (if (!Config.hallUp) != s.on F.TNG_CH_CFG_dir c then 1 else -1)))
  ∧ (∀ (s : State) (c : Fin 32) (v : BitVec 3) (te : DWord) (k : Fin 5), s.tngOn c = true → s.tngMode c = 1 → v = 0 ∨ v = 7 →
      (s.tngCh c).levels ≠ v → (s.tngCh c).hallIllegal = false → s.takesEvent (72 + c / 4) →
    ∃ t, exec (.hallSectorChange c v te k) s = .next t ∧ (t.tngCh c).hallIllegal = true ∧ (t.tngCh c).ext = (s.tngCh c).ext
      ∧ t.tngValid c = false ∧ t.hasEvent (72 + c / 4) 4 c)

/-- SSI frames and probes. A frame starts once its monoflop wait is over, unless the data line is low; a frame that fails a check is
rejected with event code 5 and marks the sample stale; an accepted one moves the count by the difference of its field. A probe
latches a selected edge into its mailbox with event code 7, and disarms unless it is continuous.  (Rests on R261, R262, R269,
R270.) -/
def Obligations.TongsFramesAndProbes : Prop :=
  (∀ (s : State) (c : Fin 32), s.tngOn c = true → s.tngMode c = 2 → (s.tngCh c).frame = none →
      (s.tngCh c).framed ≠ some (uns 64 (s.tim.lastInstant + s.rd F.TNG_CH_SSI3_start c : Nat)) → (s.tngCh c).monoEnd ≤ s.tick →
    ∃ t, exec (.ssiFrameStart c false) s = .next t
      ∧ (t.tngCh c).framed = some (uns 64 (s.tim.lastInstant + s.rd F.TNG_CH_SSI3_start c : Nat))
      ∧ (t.tngCh c).frame = some (uns 64 (s.tim.lastInstant + s.rd F.TNG_CH_SSI3_start c : Nat),
          t.tick + fab (s.rd F.TNG_CH_SSI_len c * 2 * s.rd F.TNG_CH_SSI_half c))
      ∧ t.regs = s.regs ∧ s.tick ≤ t.tick)
  ∧ (∀ (s : State) (c : Fin 32), s.tngOn c = true → s.tngMode c = 2 → (s.tngCh c).frame = none → s.takesEvent (72 + c / 4) →
      (s.tngCh c).framed ≠ some (uns 64 (s.tim.lastInstant + s.rd F.TNG_CH_SSI3_start c : Nat)) → (s.tngCh c).monoEnd ≤ s.tick →
    ∃ t, exec (.ssiFrameStart c true) s = .next t ∧ (t.tngCh c).stale = true ∧ (t.tngCh c).ssiErr = true
      ∧ (t.tngCh c).rejects = min 2 ((s.tngCh c).rejects + 1) ∧ (t.tngCh c).frame = none ∧ (t.tngCh c).ext = (s.tngCh c).ext
      ∧ t.hasEvent (72 + c / 4) 5 c)
  ∧ (∀ (s : State) (c : Fin 32) (b : BitVec 40) (low : Bool) (i e : Nat), (s.tngCh c).frame = some (i, e) →
      s.ssiCause c (b.toNat % 2 ^ s.rd F.TNG_CH_SSI_len c) low = none →
    ∃ t, exec (.ssiFrameEnd c b low) s = .next t ∧ (t.tngCh c).frame = none ∧ (t.tngCh c).rejects = 0 ∧ (t.tngCh c).stale = false
      ∧ (t.tngCh c).prev = some (s.ssiField c (b.toNat % 2 ^ s.rd F.TNG_CH_SSI_len c))
      ∧ (∀ p, (s.tngCh c).prev = some p → s.on F.TNG_CH_CFG_dir c = false →
          (t.tngCh c).ext = uns 48 (((s.tngCh c).ext : Int) + sgn (s.rd F.TNG_CH_SSI2_data_w c)
            (uns (s.rd F.TNG_CH_SSI2_data_w c) ((s.ssiField c (b.toNat % 2 ^ s.rd F.TNG_CH_SSI_len c) : Int) - p))))
      ∧ ((s.tngCh c).prev = none → (t.tngCh c).ext = s.ssiField c (b.toNat % 2 ^ s.rd F.TNG_CH_SSI_len c))
      ∧ t.regs = s.regs)
  ∧ (∀ (s : State) (c : Fin 32) (b : BitVec 40) (low : Bool) (i e k : Nat), (s.tngCh c).frame = some (i, e) → s.takesEvent (72 + c / 4) →
      s.ssiCause c (b.toNat % 2 ^ s.rd F.TNG_CH_SSI_len c) low = some k →
    ∃ t, exec (.ssiFrameEnd c b low) s = .next t ∧ (t.tngCh c).stale = true ∧ (t.tngCh c).ssiErr = true
      ∧ (t.tngCh c).ext = (s.tngCh c).ext ∧ (t.tngCh c).prev = (s.tngCh c).prev ∧ t.hasEvent (72 + c / 4) 5 c
      ∧ t.rd F.TNG_CH_ERR_ssi_err c = min (s.rd F.TNG_CH_ERR_ssi_err c + 1) (2 ^ F.TNG_CH_ERR_ssi_err.width - 1))
  ∧ (∀ (s : State) (p : Fin 8),
    ∃ t, exec (.probeArm p) s = .next t ∧ t.rd F.TNG_PRB_CFG_arm p = 1 ∧ t.rd F.TNG_PRB_STAT_armed p = 1
      ∧ s.OnlyWords t [F.TNG_PRB_CFG_arm.addr p 0, F.TNG_PRB_STAT_armed.addr p 0])
  ∧ (∀ (s : State) (p : Fin 8),
    ∃ t, exec (.probeDisarm p) s = .next t ∧ t.rd F.TNG_PRB_CFG_arm p = 0 ∧ t.rd F.TNG_PRB_STAT_armed p = 0
      ∧ s.OnlyWords t [F.TNG_PRB_CFG_arm.addr p 0, F.TNG_PRB_STAT_armed.addr p 0])
  ∧ (∀ (s : State) (p : Fin 8) (up : Bool) (te : DWord) (k : Fin 5), s.on F.TNG_PRB_STAT_armed p = true →
      bitAt (s.rd F.TNG_PRB_CFG_edge p) (if up then 0 else 1) = true → (s.mailbox (96 + p)).unread = false → s.takesEvent (72 + p) →
    ∃ t w, exec (.probeLatch p up te k) s = .next t ∧ t.mailbox (96 + p) = (s.mailbox (96 + p)).post w ∧ w.length = 6
      ∧ (w.drop 3).take 2 = words64 (stampOf te k) ∧ t.hasEvent (72 + p) 7 (256 + p)
      ∧ (s.on F.TNG_PRB_CFG_cont p = false → t.rd F.TNG_PRB_STAT_armed p = 0)
      ∧ (s.on F.TNG_PRB_CFG_cont p = true → t.rd F.TNG_PRB_STAT_armed p = s.rd F.TNG_PRB_STAT_armed p))
  ∧ (∀ (s : State) (p : Fin 8) (up : Bool) (te : DWord) (k : Fin 5), s.on F.TNG_PRB_STAT_armed p = false →
    exec (.probeLatch p up te k) s = .next s)

/-- The motor links. Each slot sends a seven-byte command message with its CRC and the next sequence number after one link cycle of
the profile; a status message that fails a check counts as missing; the third missing one in a row latches `link_fault`; a
reported stage fault latches and ends motion; each profile tick keeps within the speed and the acceleration of the move, and the
tick after the last of a move completes it.  (Rests on R276, R277, R280, R290, R291.) -/
def Obligations.SwageLinks : Prop :=
  (∀ (s : State) (c : Fin 16),
    ∃ t b, exec (.swageLinkSlot c) s = .next t ∧ (t.swg c).sent = 0xA5 :: b ++ [BitVec.ofNat 8 (crc8 b)] ∧ b.length = 6
      ∧ byteAt b 0 = c.val % 4 + (if s.swgOff c then 4 else 0) + 16 * (((s.swg c).seq + 1) % 16)
      ∧ (t.swg c).seq = ((s.swg c).seq + 1) % 16 ∧ (t.swg c).pos = (s.swg c).linkCycle.pos ∧ t.hif = s.hif
      ∧ ∀ k, k ≠ c.val → t.swg k = s.swg k)
  ∧ (∀ (s : State) (c : Fin 16) (w : Word), crc8 (((toBytes 4 w.toNat).drop 1).take 2) ≠ byteAt (toBytes 4 w.toNat) 3 →
    exec (.swageStatusMessage c w) s = .next ((s.bump F.SWG_CH_ERR_crc c).swgMissing c))
  ∧ (∀ (s : State) (c : Fin 16) (w : Word), crc8 (((toBytes 4 w.toNat).drop 1).take 2) = byteAt (toBytes 4 w.toNat) 3 →
      byteAt (toBytes 4 w.toNat) 0 ≠ 0x5A ∨ bitsOf (byteAt (toBytes 4 w.toNat) 1) 2 4 ≠ (s.swg c).seq →
    exec (.swageStatusMessage c w) s = .next (s.swgMissing c))
  ∧ (∀ (s : State) (c : Fin 16) (w : Word), crc8 (((toBytes 4 w.toNat).drop 1).take 2) = byteAt (toBytes 4 w.toNat) 3 →
      byteAt (toBytes 4 w.toNat) 0 = 0x5A → byteAt (toBytes 4 w.toNat) 1 % 4 = c.val % 4 →
      bitsOf (byteAt (toBytes 4 w.toNat) 1) 2 4 = (s.swg c).seq → s.swage.down = 0 →
      bitAt (byteAt (toBytes 4 w.toNat) 2) 2 = true → s.on F.SWG_CH_STAT_stage_fault c = false → (s.swg c).move = none →
      s.on F.SWG_CH_CFG_lim_pos_en c = false → s.on F.SWG_CH_CFG_lim_neg_en c = false → s.takesEvent (80 + c / 4) →
    ∃ t, exec (.swageStatusMessage c w) s = .next t ∧ (t.swg c).missing = 0 ∧ t.rd F.SWG_CH_STAT_stage_fault c = 1
      ∧ t.rd F.SWG_CH_STAT_referenced c = 0 ∧ t.hasEvent (80 + c / 4) 3 c)
  ∧ (∀ (s : State) (c : Fin 16), (s.swg c).missing + 1 < 3 → s.swage.down = 0 →
    ∃ t, exec (.statusMessageMissing c) s = .next t ∧ (t.swg c).missing = (s.swg c).missing + 1 ∧ t.hif = s.hif
      ∧ t.rd F.SWG_CH_ERR_missing c = min (s.rd F.SWG_CH_ERR_missing c + 1) (2 ^ F.SWG_CH_ERR_missing.width - 1)
      ∧ s.OnlyWords t [F.SWG_CH_ERR_missing.addr c 0])
  ∧ (∀ (s : State) (c : Fin 16), (s.swg c).missing = 2 → s.on F.SWG_CH_STAT_link_fault c = false → (s.swg c).move = none →
      s.takesEvent (84 + c / 4) →
    ∃ t, exec (.statusMessageMissing c) s = .next t ∧ t.rd F.SWG_CH_STAT_link_fault c = 1 ∧ t.rd F.SWG_CH_STAT_referenced c = 0
      ∧ t.hasEvent (84 + c / 4) 1 c ∧ (t.swg c).missing = 3)
  ∧ (∀ (s : State) (c : Fin 16) (p : DWord) (m : SwgMove), (s.swg c).move = some m → (s.swg c).halt = none →
      (s.swg c).landing = false → (s.swg c).left = 0 → (s.swg c).vel = 0 → (s.swg c).newAccel = none → (s.swg c).newDecel = none →
      (s.swg c).newJerk = none → (s.swg c).setting = [] → m.mode = 2 → m.home = none → m.jerkLimited = false →
    ∃ t, exec (.profileTick c p) s = .next t ∧ (t.swg c).left = s.rd F.SWG_CH_CFG_tick c ∧ (t.swg c).pos = (s.swg c).pos
      ∧ (t.swg c).vel.natAbs ≤ m.speed * 2 ^ 28
      ∧ (t.swg c).vel.natAbs ≤ perTick (s.swg c).accel (s.rd F.SWG_CH_CFG_tick c)
      ∧ (m.negative = false → 0 ≤ (t.swg c).vel) ∧ (m.negative = true → (t.swg c).vel ≤ 0))
  ∧ (∀ (s : State) (c : Fin 16) (p : DWord) (m : SwgMove) (d : Desc), (s.swg c).move = some m → (s.swg c).halt = none →
      (s.swg c).landing = true → (s.swg c).left = 0 → (s.swg c).newAccel = none → (s.swg c).newDecel = none →
      (s.swg c).newJerk = none → (s.swg c).setting = [] → m.home = none → m.desc = some d.id → m.deferred = false →
      s.hif.desc.find? (·.id == d.id) = some d → d.quiet = false → (s.swg c).stops = [] →
    ∃ t, exec (.profileTick c p) s = .next t ∧ (t.swg c).move = none ∧ (t.swg c).vel = 0 ∧ (t.swg c).kept = none
      ∧ t.Completed d 1 ∧ (t.swg c).pos = (s.swg c).pos)
  ∧ (∀ (s : State) (c : Fin 16) (p : DWord) (m : SwgMove) (h : SwgHalt), (s.swg c).move = some m → (s.swg c).halt = some h →
      (s.swg c).landing = false → (s.swg c).left = 0 → (s.swg c).newAccel = none → (s.swg c).newDecel = none →
      (s.swg c).newJerk = none → (s.swg c).setting = [] → (s.swg c).pos ≠ m.target * 2 ^ 32 → m.desc = none → (s.swg c).stops = [] →
      (s.swg c).vel.natAbs ≤ perTick (h.begun.getD (max (s.rd F.SWG_CH_STOPDEC_decel c) (s.swg c).decel)) (s.rd F.SWG_CH_CFG_tick c) →
    ∃ t, exec (.profileTick c p) s = .next t ∧ (t.swg c).move = none ∧ (t.swg c).vel = 0 ∧ (t.swg c).pos = (s.swg c).pos
      ∧ (h.keep = true → (t.swg c).kept = some { m with desc := none, home := none, deferred := false })
      ∧ (h.keep = false → (t.swg c).kept = none))

/-- Swage operations and registers. SWG_MOVE starts a motion, which completes later; SWG_STOP of a standing channel completes at
once, of a moving one ramps it down; SWG_RESUME takes up what was kept; SWG_HOME leaves the channel unreferenced until its
settle time ends at the reference; new accelerations wait for a profile tick; enable, disable, stop, clear and the hold current
delay.  (Rests on R282 to R289, R291.) -/
def Obligations.SwageOperations : Prop :=
  (∀ (s : State) (r : Fin 64) (d : Desc), s.Starts r 0x0340 d → d.op 33 1 = 0 → d.op 36 4 ≤ s.rd F.SWG_CH_VMAX_vmax (d.op 32 1) →
      bitAt (d.op 34 1) 0 = false → inRange47 (d.opS 40 8) = true → d.op 32 1 < 16 → (s.swg (d.op 32 1)).move = none →
      s.on F.SWG_CH_CTL_enable (d.op 32 1) = true → s.swgFault (d.op 32 1) = false →
      s.on F.SWG_CH_STAT_limit_chatter (d.op 32 1) = false → s.on F.SWG_CH_STAT_lim_pos (d.op 32 1) = false →
      s.on F.SWG_CH_STAT_lim_neg (d.op 32 1) = false →
    ∃ t m, exec (.swgMove r) s = .next t ∧ (t.swg (d.op 32 1)).move = some m ∧ m.desc = some d.id ∧ m.target = d.opS 40 8
      ∧ m.speed = d.op 36 4 ∧ m.mode = 0 ∧ (t.swg (d.op 32 1)).kept = none ∧ (t.swg (d.op 32 1)).pos = (s.swg (d.op 32 1)).pos
      ∧ (t.swg (d.op 32 1)).current = s.rd F.SWG_CH_CUR_run (d.op 32 1) ∧ t.hif.compl = s.hif.compl)
  ∧ (∀ (s : State) (r : Fin 64) (d : Desc), s.Starts r 0x0340 d → s.rd F.SWG_CH_VMAX_vmax (d.op 32 1) < d.op 36 4 →
    ∃ t, exec (.swgMove r) s = .next t ∧ t.Completed d 0x12 ∧ t.swage = s.swage)
  ∧ (∀ (s : State) (r : Fin 64) (d : Desc), s.Starts r 0x0341 d → (s.swg (d.op 32 1)).move = none →
    ∃ t, exec (.swgStop r) s = .next t ∧ t.Completed d 1 ∧ t.swage = s.swage)
  ∧ (∀ (s : State) (r : Fin 64) (d : Desc) (m : SwgMove), s.Starts r 0x0341 d → (s.swg (d.op 32 1)).move = some m →
      (s.swg (d.op 32 1)).halt = none →
    ∃ t, exec (.swgStop r) s = .next t ∧ (t.swg (d.op 32 1)).halt = some { status := 6, keep := true }
      ∧ (t.swg (d.op 32 1)).stops = (s.swg (d.op 32 1)).stops ++ [d.id] ∧ t.hif.compl = s.hif.compl)
  ∧ (∀ (s : State) (r : Fin 64) (d : Desc) (m : SwgMove), s.Starts r 0x0342 d → (s.swg (d.op 32 1)).move = some m →
    ∃ t, exec (.swgResume r) s = .next t ∧ t.Completed d 0x15 ∧ t.swage = s.swage)
  ∧ (∀ (s : State) (r : Fin 64) (d : Desc), s.Starts r 0x0342 d → (s.swg (d.op 32 1)).move = none → (s.swg (d.op 32 1)).kept = none →
    ∃ t, exec (.swgResume r) s = .next t ∧ t.Completed d 1 ∧ t.swage = s.swage)
  ∧ (∀ (s : State) (r : Fin 64) (d : Desc) (m : SwgMove), s.Starts r 0x0342 d → (s.swg (d.op 32 1)).move = none →
      (s.swg (d.op 32 1)).kept = some m → s.swgRefused (d.op 32 1) m = none →
    ∃ t, exec (.swgResume r) s = .next t ∧ (t.swg (d.op 32 1)).move = some { m with desc := some d.id }
      ∧ (t.swg (d.op 32 1)).kept = none ∧ t.hif.compl = s.hif.compl)
  ∧ (∀ (s : State) (r : Fin 64) (d : Desc), s.Starts r 0x0343 d → d.op 36 4 ≤ s.rd F.SWG_CH_VMAX_vmax (d.op 32 1) →
      d.op 32 1 < 16 → (s.swg (d.op 32 1)).move = none → s.on F.SWG_CH_CTL_enable (d.op 32 1) = true →
      s.swgFault (d.op 32 1) = false → s.on F.SWG_CH_STAT_limit_chatter (d.op 32 1) = false →
      s.on F.SWG_CH_STAT_lim_pos (d.op 32 1) = false → s.on F.SWG_CH_STAT_lim_neg (d.op 32 1) = false →
    ∃ t m, exec (.swgHome r) s = .next t ∧ (t.swg (d.op 32 1)).move = some m ∧ m.desc = some d.id ∧ m.home = some .travel
      ∧ m.target = unitsOf (s.swg (d.op 32 1)).pos + (if d.op 33 1 = 1 then -(d.op 40 4 : Int) else d.op 40 4)
      ∧ t.rd F.SWG_CH_STAT_referenced (d.op 32 1) = 0 ∧ t.hif.compl = s.hif.compl)
  ∧ (∀ (s : State) (r : Fin 64) (d : Desc), s.Starts r 0x0344 d → d.op 36 4 ≠ 0 → d.op 40 4 ≠ 0 → d.op 44 4 = 0 → d.op 32 1 < 16 →
    ∃ t, exec (.swgSetAccel r) s = .next t ∧ (t.swg (d.op 32 1)).newAccel = some (d.op 36 4)
      ∧ (t.swg (d.op 32 1)).newDecel = some (d.op 40 4) ∧ (t.swg (d.op 32 1)).newJerk = (s.swg (d.op 32 1)).newJerk
      ∧ (t.swg (d.op 32 1)).accel = (s.swg (d.op 32 1)).accel ∧ (t.swg (d.op 32 1)).setting = (s.swg (d.op 32 1)).setting ++ [d.id]
      ∧ t.rd F.SWG_CH_ACC_accel (d.op 32 1) = d.op 36 4 % 2 ^ F.SWG_CH_ACC_accel.width ∧ t.hif.compl = s.hif.compl)
  ∧ (∀ (s : State) (c : Fin 16) (v : Word),
      exec (.swageAccelWrite c 0 v) s
        = .next ((s.wr F.SWG_CH_ACC_accel v.toNat c).setSwg c { s.swg c with newAccel := some v.toNat })
      ∧ exec (.swageAccelWrite c 1 v) s
        = .next ((s.wr F.SWG_CH_DEC_decel v.toNat c).setSwg c { s.swg c with newDecel := some v.toNat })
      ∧ exec (.swageAccelWrite c 2 v) s
        = .next ((s.wr F.SWG_CH_JERK_jerk v.toNat c).setSwg c { s.swg c with newJerk := some v.toNat }))
  ∧ (∀ (s : State) (c : Fin 16) (m : SwgMove), (s.swg c).move = some m → (s.swg c).halt = none →
    ∃ t, exec (.swageStopRequest c) s = .next t ∧ (t.swg c).halt = some { status := 6, keep := true } ∧ t.hif = s.hif
      ∧ t.rd F.SWG_CH_STAT_state c = 2)
  ∧ (∀ (s : State) (c : Fin 16), (s.swg c).move = none → exec (.swageStopRequest c) s = .next s)
  ∧ (∀ (s : State) (c : Fin 16), s.on F.SWG_CH_CTL_enable c = false → (s.swg c).move = none →
    ∃ t, exec (.swageEnable c) s = .next t ∧ t.rd F.SWG_CH_CTL_enable c = 1 ∧ (t.swg c).pos = (s.swg c).pos
      ∧ (t.swg c).current = s.rd F.SWG_CH_CUR_hold c ∧ (t.swg c).stood = s.tick
      ∧ (t.swg c).linkPos (s.on F.SWG_CH_CFG_dir c) = (s.swg c).pos)
  ∧ (∀ (s : State) (c : Fin 16), (s.swg c).move = none →
    ∃ t, exec (.swageDisable c) s = .next t ∧ t.rd F.SWG_CH_CTL_enable c = 0 ∧ t.rd F.SWG_CH_STAT_referenced c = 0
      ∧ t.rd F.SWG_CH_STAT_state c = 5 ∧ t.swage = s.swage)
  ∧ (∀ (s : State) (c : Fin 16) (m : SwgMove), (s.swg c).move = some m → (s.swg c).halt = none →
    ∃ t, exec (.swageDisable c) s = .next t ∧ t.rd F.SWG_CH_CTL_enable c = 0 ∧ (t.swg c).halt = some { status := 6, keep := true }
      ∧ t.rd F.SWG_CH_STAT_state c = 2)
  ∧ (∀ (s : State) (c : Fin 16),
    ∃ t, exec (.swageClear c) s = .next t ∧ t.rd F.SWG_CH_STAT_limit_chatter c = 0 ∧ t.rd F.SWG_CH_STAT_link_fault c = 0
      ∧ t.rd F.SWG_CH_STAT_stage_fault c = 0 ∧ t.swage = s.swage ∧ t.hif = s.hif)
  ∧ (∀ (s : State) (c : Fin 16) (m : SwgMove), (s.swg c).move = some m → m.home = some .settle → (s.swg c).halt = none →
    ∃ t, exec (.homingSettleEnd c) s = .next t ∧ (t.swg c).pos = m.reference * 2 ^ 32 ∧ t.rd F.SWG_CH_STAT_referenced c = 1
      ∧ (t.swg c).linkPos (s.on F.SWG_CH_CFG_dir c) = (s.swg c).linkPos (s.on F.SWG_CH_CFG_dir c)
      ∧ (t.swg c).move = some { m with home := some .backoff, target := if m.negative then m.reference + m.backoff else m.reference - m.backoff })
  ∧ (∀ (s : State) (c : Fin 16), (s.swg c).move = none → s.swgOff c = false →
    ∃ t, exec (.holdCurrentDelay c) s = .next t ∧ (t.swg c).current = s.rd F.SWG_CH_CUR_hold c
      ∧ (s.swg c).stood + ms (s.rd F.SWG_CH_CUR_hold_delay c) ≤ t.tick ∧ t.regs = s.regs)
  ∧ (∀ (s : State) (c : Fin 16), (s.swg c).move ≠ none ∨ s.swgOff c = true → exec (.holdCurrentDelay c) s = .next s)

/-- Schedules and the cycle of a segment. SCHED_LOAD installs a schedule that passes the check in a stopped segment, or stages it in
a loaded one; a staged one applies after its strobe; a segment is enabled into LISTEN, and disabled at the next common instant;
a common instant counts the cycle.  (Rests on R35, R36, R301, R305, R314, R317, R318.) -/
def Obligations.ScheduleCommands : Prop :=
  (∀ (s : State) (r : Fin 64) (io : HostIo) (d : Desc), s.Starts r 0x0501 d → io.bodyErr = false → bitAt (d.op 33 1) 0 = false →
      d.op 32 1 < 8 → s.mode = 2 → s.on F.CMB_SEG_STAT_stopped (d.op 32 1) = true →
      (s.startDesc d).schedCheck (d.op 32 1) false io.body = none →
    ∃ t, exec (.schedLoad r io) s = .next t ∧ t.Completed d 1 ∧ (t.seg (d.op 32 1)).sched = some io.body
      ∧ t.rd F.CMB_SEG_STAT_loaded (d.op 32 1) = 1 ∧ t.rd F.CMB_SCHED_ID_crc (d.op 32 1) = crc32c io.body % 2 ^ 32
      ∧ t.rd F.CMB_CYCLE_ns (d.op 32 1) = Sched.cycle io.body % 2 ^ F.CMB_CYCLE_ns.width
      ∧ ∀ k, k ≠ d.op 32 1 → t.seg k = s.seg k)
  ∧ (∀ (s : State) (r : Fin 64) (io : HostIo) (d : Desc), s.Starts r 0x0501 d → io.bodyErr = false → bitAt (d.op 33 1) 0 = true →
      d.op 32 1 < 8 → s.mode = 2 ∨ s.mode = 3 → (s.seg (d.op 32 1)).sched ≠ none →
      (s.startDesc d).schedCheck (d.op 32 1) true io.body = none →
    ∃ t, exec (.schedLoad r io) s = .next t ∧ t.Completed d 1 ∧ t.rd F.CMB_SEG_STAT_staged (d.op 32 1) = 1
      ∧ t.seg (d.op 32 1) = { s.seg (d.op 32 1) with stagedSched := some io.body, strobed := false })
  ∧ (∀ (s : State) (r : Fin 64) (io : HostIo) (d : Desc) (k i : Nat), s.Starts r 0x0501 d → io.bodyErr = false →
      bitAt (d.op 33 1) 0 = false → s.mode = 2 → s.on F.CMB_SEG_STAT_stopped (d.op 32 1) = true → d.op 32 1 < 8 →
      (s.startDesc d).schedCheck (d.op 32 1) false io.body = some (k, i) →
    ∃ t, exec (.schedLoad r io) s = .next t ∧ t.Completed d 0x17 ∧ t.combway = s.combway
      ∧ ∃ c ∈ t.hif.compl, c.id = d.id ∧ c.result = errResult 0xFFFF k i)
  ∧ (∀ (s : State) (r : Fin 64) (io : HostIo) (d : Desc), s.Starts r 0x0501 d → io.bodyErr = false → bitAt (d.op 33 1) 0 = false →
      s.mode ≠ 2 →
    ∃ t, exec (.schedLoad r io) s = .next t ∧ t.Completed d 0x15 ∧ t.combway = s.combway)
  ∧ (∀ (s : State) (g : Fin 8) (b : List Byte), (s.seg g).stagedSched = some b → (s.seg g).strobed = true → s.takesEvent (49 + 2 * g) →
    ∃ t, exec (.stagedScheduleApply g) s = .next t ∧ (t.seg g).sched = some b ∧ (t.seg g).stagedSched = none
      ∧ t.rd F.CMB_SEG_STAT_staged g = 0 ∧ t.hasEvent (49 + 2 * g) 9 g)
  ∧ (∀ (s : State) (g : Fin 8), (s.seg g).stagedSched = none ∨ (s.seg g).strobed = false → exec (.stagedScheduleApply g) s = .next s)
  ∧ (∀ (s : State) (m : Master) (g : Fin 8), s.privileged m = true → s.on F.CMB_SEG_STAT_stopped g = true → s.mayEnable g = true →
    ∃ t, exec (.segmentEnable m g) s = .next t ∧ t.rd F.CMB_SEG_CTL_enable g = 1 ∧ t.rd F.CMB_SEG_STAT_stopped g = 0
      ∧ t.cmbState g = 1 ∧ t.rd F.CMB_SEG_STAT_epoch g = (s.rd F.CMB_SEG_STAT_epoch g + 1) % 2 ^ F.CMB_SEG_STAT_epoch.width
      ∧ (t.seg g).sched = (s.seg g).sched ∧ t.guardClosed g false = true ∧ t.guardClosed g true = true
      ∧ t.rd F.CMB_SYNC_STAT_master g = 0)
  ∧ (∀ (s : State) (m : Master) (g : Fin 8), s.privileged m = true → s.on F.CMB_SEG_STAT_stopped g = true → s.mayEnable g = false →
    exec (.segmentEnable m g) s = .next (s.wrIgnored .seg g (F.CMB_SEG_CTL_enable.addr g 0)))
  ∧ (∀ (s : State) (m : Master) (g : Fin 8), s.privileged m = false →
    exec (.segmentEnable m g) s = .next (s.pvDropped m false true (F.CMB_SEG_CTL_enable.addr g 0))
      ∧ exec (.segmentDisable m g) s = .next (s.pvDropped m false true (F.CMB_SEG_CTL_enable.addr g 0)))
  ∧ (∀ (s : State) (m : Master) (g : Fin 8), s.privileged m = true → s.on F.CMB_SEG_STAT_stopped g = false → s.running = true →
    ∃ t, exec (.segmentDisable m g) s = .next t ∧ t.rd F.CMB_SEG_CTL_enable g = 0 ∧ t.seg g = { s.seg g with stopping := true }
      ∧ s.OnlyWords t [F.CMB_SEG_CTL_enable.addr g 0])
  ∧ (∀ (s : State) (m : Master) (g : Fin 8), s.privileged m = true → s.on F.CMB_SEG_STAT_stopped g = false → s.running = false →
    ∃ t, exec (.segmentDisable m g) s = .next t ∧ t.rd F.CMB_SEG_CTL_enable g = 0 ∧ t.rd F.CMB_SEG_STAT_stopped g = 1
      ∧ t.cmbState g = 0 ∧ t.guardClosed g false = true ∧ t.guardClosed g true = true)
  ∧ (∀ s : State, s.running = false → exec .commonInstant s = .next s)
  ∧ (∀ s : State, s.running = true →
    ∃ t, exec .commonInstant s = .next t ∧ t.tim.cycle = (s.tim.cycle + 1) % 2 ^ 32 ∧ t.tim.lastInstant = s.tim.instant
      ∧ t.tim.instant = uns 64 (s.tim.instant + s.cycleSet : Nat) ∧ t.combway.fbc = 0 ∧ t.rd F.TIM_CMP_CFG_fired 0 = 1)
  ∧ (∀ (s : State) (g : Fin 8), s.running = true → s.on F.CMB_SEG_STAT_stopped g = false →
    ∃ t, exec (.feedbackComplete g) s = .next t ∧ t.combway = { s.combway with fbc := putBit s.combway.fbc g true } ∧ t.regs = s.regs)
  ∧ (∀ s : State, ∃ t, exec .errorWindowRollover s = .next t ∧ t.regs = s.regs ∧ t.hif = s.hif
      ∧ ∀ g, g < 8 → t.seg g = { s.seg g with lossA := {}, lossB := {}, mism := {}, lateW := {}, lostW := {}, errA := [], errB := [], errToldA := false, errToldB := false })

/-- Frames. A copy that starts wrong is a coding error; a valid copy of a static slot deposits its receive status word; a mini-slot
boundary passes a mini-slot and sends the oldest posted frame of an own identifier; firmware posts up to four frames of an own
identifier; an examination swaps the buffers of a slot whose set-points are all written, and repeats the others; a static frame
goes out in SYNC with its flags.  (Rests on R300, R307 to R314.) -/
def Obligations.FrameCommands : Prop :=
  (∀ (s : State) (g : Fin 8) (k : Option (Fin 64)) (a b : Option Copy), s.on F.CMB_SEG_STAT_stopped g = true →
    exec (.frameReception g k a b) s = .next s)
  ∧ (∀ (s : State) (g : Fin 8) (k : Fin 64) (c : Copy), s.on F.CMB_SEG_STAT_stopped g = false → s.cmbState g = 5 →
      s.chanOn g false = true → s.chanOn g true = false → s.checkCopy g (some k.val) false c = 0 →
      (Sched.slot (s.sched g) k).owner ≠ s.ownNode g → frameFlag c.bytes 2 = false →
    ∃ t, exec (.frameReception g (some k) (some c) none) s = .next t
      ∧ t.rd F.CMB_SLOT_STAT_status g k = s.tim.cycle % 2 ^ 16 + 2 ^ 16 + 2 ^ 17 + 2 ^ 21 * b2n (frameFlag c.bytes 3)
      ∧ t.rd F.CMB_RX_valid g 0 = min (s.rd F.CMB_RX_valid g 0 + 1) (2 ^ F.CMB_RX_valid.width - 1))
  ∧ (∀ (s : State) (g : Fin 8) (k : Fin 64) (c : Copy), s.on F.CMB_SEG_STAT_stopped g = false → s.cmbState g = 5 →
      s.chanOn g false = true → c.start = false → (Sched.slot (s.sched g) k).owner ≠ s.ownNode g →
      (Sched.slot (s.sched g) k).owner ≠ 0 → k.val < Sched.slots (s.sched g) → bitAt (Sched.slot (s.sched g) k).flags 1 = true →
      s.rd F.CMB_THR_errors g = 0 → s.takesEvent (49 + 2 * g) →
    ∃ t, exec (.frameReception g (some k) (some c) none) s = .next t ∧ t.hasEvent (49 + 2 * g) 6 g
      ∧ t.rd F.CMB_ERR0_coding g 0 = min (s.rd F.CMB_ERR0_coding g 0 + 1) (2 ^ F.CMB_ERR0_coding.width - 1)
      ∧ t.rd F.CMB_RX_ERR_lost g = min (s.rd F.CMB_RX_ERR_lost g + 1) (2 ^ F.CMB_RX_ERR_lost.width - 1)
      ∧ t.rd F.CMB_SLOT_STAT_status g k = s.tim.cycle % 2 ^ 16)
  ∧ (∀ (s : State) (g : Fin 8), s.on F.CMB_SEG_STAT_stopped g = false → (s.seg g).mini < Sched.minis (s.sched g) → 0 < (s.seg g).occ →
    exec (.minislotBoundary g) s = .next (s.setSeg g { s.seg g with mini := (s.seg g).mini + 1, occ := (s.seg g).occ - 1 }))
  ∧ (∀ (s : State) (g : Fin 8) (p : List Byte) (l : List (List Byte)), s.on F.CMB_SEG_STAT_stopped g = false → s.cmbState g = 5 →
      (s.seg g).mini = 0 → (s.seg g).occ = 0 → (s.seg g).mute = false → Sched.ownerOf (s.sched g) 64 = some (s.ownNode g) →
      s.opens g false = true → (s.seg g).msgs = [] → lookup (fun _ => []) (s.seg g).posted 64 = p :: l →
      occupancy (s.sched g) p.length ≤ Sched.minis (s.sched g) → 0 < Sched.minis (s.sched g) →
    ∃ t, exec (.minislotBoundary g) s = .next t ∧ lookup (fun _ => []) (t.seg g).posted 64 = l ∧ (t.seg g).dynId = 64
      ∧ (t.seg g).mini = 1 ∧ (t.seg g).occ = occupancy (s.sched g) p.length - 1
      ∧ (t.seg g).sent = (s.seg g).sent ++ [(64, frameBytes 64 (s.tim.cycle % 65536) 0 p)])
  ∧ (∀ (s : State) (g : Fin 8) (i : BitVec 10) (p : List Byte), s.mode ≠ 5 → Sched.ownerOf (s.sched g) i.toNat = some (s.ownNode g) →
      (lookup (fun _ => []) (s.seg g).posted i.toNat).length < 4 → p.length ≤ 254 →
    ∃ t, exec (.dynamicFramePost g i p) s = .next t ∧ t.rdata = 1 ∧ t.regs = s.regs
      ∧ lookup (fun _ => []) (t.seg g).posted i.toNat = lookup (fun _ => []) (s.seg g).posted i.toNat ++ [p])
  ∧ (∀ (s : State) (g : Fin 8) (i : BitVec 10) (p : List Byte), s.mode = 5 ∨ Sched.ownerOf (s.sched g) i.toNat ≠ some (s.ownNode g)
      ∨ 4 ≤ (lookup (fun _ => []) (s.seg g).posted i.toNat).length →
    exec (.dynamicFramePost g i p) s = .next { s with rdata := 0 })
  ∧ (∀ (s : State) (g : Fin 8) (k : Fin 64), s.on F.CMB_SEG_STAT_stopped g = false → k.val < Sched.slots (s.sched g) →
      s.leadEngines g k = [] → exec (.transmitLeadExamination g k) s = .next (s.examine g k))
  ∧ (∀ (s : State) (g : Fin 8) (k : Fin 64), s.on F.CMB_SEG_STAT_stopped g = false → (Sched.slot (s.sched g) k).owner = s.ownNode g →
      s.mode = 4 → (∀ p ∈ Sched.txIdx (s.sched g), p.2.slot = k.val → p.2.kind = 1 → (s.txSlot g k).written.contains p.1 = true) →
      ((s.examine g k).txSlot g k) = { s.txSlot g k with send := (s.txSlot g k).fill, written := [], null := false, rep := false })
  ∧ (∀ (s : State) (g : Fin 8) (k : Fin 64) (p : Nat × Place), s.on F.CMB_SEG_STAT_stopped g = false →
      (Sched.slot (s.sched g) k).owner = s.ownNode g → s.mode = 4 → p ∈ Sched.txIdx (s.sched g) → p.2.slot = k.val → p.2.kind = 1 →
      (s.txSlot g k).written.contains p.1 = false → (s.txSlot g k).null = false →
      ((s.examine g k).txSlot g k).rep = true ∧ ((s.examine g k).txSlot g k).written = []
      ∧ (s.examine g k).rd F.CMB_TX_ERR_late g = min (s.rd F.CMB_TX_ERR_late g + 1) (2 ^ F.CMB_TX_ERR_late.width - 1))
  ∧ (∀ (s : State) (g : Fin 8) (k : Fin 64), s.on F.CMB_SEG_STAT_stopped g = false → s.cmbState g = 5 → k.val < Sched.slots (s.sched g) →
      (Sched.slot (s.sched g) k).owner = s.ownNode g → s.opens g false = true → Sched.syncOf (s.sched g) (s.ownNode g) ≠ some k.val →
      (s.txSlot g k).null = false →
    exec (.staticFrameTransmit g k) s = .next (s.setSeg g { s.seg g with sent := (s.seg g).sent ++
      [(k.val, frameBytes k (s.tim.cycle % 65536) (8 * b2n (s.txSlot g k).rep) (s.txSlot g k).send)] }))
  ∧ (∀ (s : State) (g : Fin 8) (k : Fin 64), s.opens g false = false → s.opens g true = false →
    exec (.staticFrameTransmit g k) s = .next s)

/-- Start-up and synchronisation. A coldstart-capable segment that hears nothing enters COLDSTART, and SYNC after four clean cycles;
a follower takes the time, echoes, and enters SYNC; corrections follow the deviation, and too large a one ends synchrony; a lost
master is replaced, and without sync frames the segment listens again.  (Rests on R317 to R326, R328 to R330, R339.) -/
def Obligations.SyncCommands : Prop :=
  (∀ (s : State) (g : Fin 8), s.cmbState g = 1 → s.capable g = true → s.takesEvent (48 + 2 * g) →
    ∃ t, exec (.listenTimeout g) s = .next t ∧ t.cmbState g = 2 ∧ (t.seg g).cycles = 0 ∧ t.hasEvent (48 + 2 * g) 3 g
      ∧ t.guardClosed g false = s.quench.safStopped ∧ t.guardClosed g true = s.quench.safStopped)
  ∧ (∀ (s : State) (g : Fin 8), s.cmbState g ≠ 1 ∨ s.capable g = false → exec (.listenTimeout g) s = .next s)
  ∧ (∀ (s : State) (g : Fin 8), s.cmbState g = 2 → 4 ≤ (s.seg g).cycles →
    ∃ t, exec (.coldstartComplete g) s = .next t ∧ t.cmbState g = 5 ∧ (s.isTiming g = true → t.rd F.TIM_STAT_locked = 1)
      ∧ t.rd F.CMB_SYNC_STAT_master g = s.ownNode g % 2 ^ F.CMB_SYNC_STAT_master.width
      ∧ (s.isTiming g = false → s.takesEvent (48 + 2 * g) → t.hasEvent (48 + 2 * g) 1 g))
  ∧ (∀ (s : State) (g : Fin 8), s.cmbState g ≠ 2 ∨ (s.seg g).cycles < 4 → exec (.coldstartComplete g) s = .next s)
  ∧ (∀ (s : State) (g : Fin 8), s.cmbState g = 3 → s.capable g = true → s.takesEvent (48 + 2 * g) →
    ∃ t, exec (.backoffExpiry g) s = .next t ∧ t.cmbState g = 2 ∧ (t.seg g).cycles = 0 ∧ t.hasEvent (48 + 2 * g) 3 g)
  ∧ (∀ (s : State) (g : Fin 8) (m : CmbIn), (s.seg g).inbox = [m] → byteAt m.payload 0 = 0xE2 → s.cmbState g = 4 →
      byteAt m.payload 1 = s.rd F.CMB_SYNC_STAT_master g → (s.seg g).timed = false →
    ∃ t, exec (.timeMessage g) s = .next t ∧ (t.seg g).timed = true ∧ (t.seg g).count = field m.payload 4 4 ∧ (t.seg g).inbox = []
      ∧ (t.seg g).timeNs = field m.payload 8 6 * 1000000000 + field m.payload 14 4 % 2 ^ 30 ∧ t.regs = s.regs)
  ∧ (∀ (s : State) (g : Fin 8), (∀ m ∈ (s.seg g).inbox, byteAt m.payload 0 < 0xE0) →
    exec (.timeMessage g) s = .next s ∧ exec (.echoReq g) s = .next s ∧ exec (.echoResp g) s = .next s)
  ∧ (∀ (s : State) (g : Fin 8) (m : CmbIn) (i : Nat), (s.seg g).inbox = [m] → byteAt m.payload 0 = 0xE0 → s.cmbState g = 5 →
      s.on F.CMB_SYNC_STAT_master_self g = true → byteAt m.payload 2 = s.ownNode g → s.msgId g = some i →
    ∃ t j, exec (.echoReq g) s = .next t ∧ (t.seg g).inbox = [] ∧ t.regs = s.regs
      ∧ CmbMsg.echoResp (byteAt m.payload 1) (s.ownNode g) (byteAt m.payload 3) (field m.payload 8 8) (m.atA.getD noTime) (m.atB.getD noTime)
          ∈ lookup (fun _ => []) (t.seg g).msgs j)
  ∧ (∀ (s : State) (g : Fin 8) (m : CmbIn) (t4 : Nat) (d : Int), (s.seg g).inbox = [m] → byteAt m.payload 0 = 0xE1 → s.cmbState g = 4 →
      byteAt m.payload 1 = s.ownNode g → m.atA = some t4 → m.atB = none → field m.payload 16 8 ≠ noTime →
      d = (cellDiff t4 (field m.payload 8 8) - cellDiff (field m.payload 32 8) (field m.payload 16 8)) / 2 → 0 ≤ d → d ≤ 3200 →
    ∃ t, exec (.echoResp g) s = .next t ∧ (t.seg g).delayA = some d ∧ (t.seg g).delayB = none ∧ (t.seg g).echoOk = true
      ∧ t.rdS F.CMB_SYNC_DELAY_a g = d)
  ∧ (∀ (s : State) (g : Fin 8) (raw e : Int) (k : Nat), s.cmbState g = 4 → (s.seg g).ready = true → s.running = true →
      (s.seg g).masterLast = some (false, raw, e) → s.masterSlot g = some k →
      -2400 ≤ raw - ((s.seg g).delayA.or (s.seg g).delayB).getD 0 → raw - ((s.seg g).delayA.or (s.seg g).delayB).getD 0 ≤ 2400 →
      -150 ≤ cellDiff ((s.seg g).timeNs % 2 ^ 64) s.tim.lastInstant → cellDiff ((s.seg g).timeNs % 2 ^ 64) s.tim.lastInstant ≤ 150 →
      s.takesEvent (48 + 2 * g) →
    ∃ t, exec (.integrationComplete g) s = .next t ∧ t.cmbState g = 5 ∧ t.hasEvent (48 + 2 * g) 1 g ∧ t.tim = s.tim
      ∧ ((t.seg g).learn false k).off = some (((s.seg g).delayA.or (s.seg g).delayB).getD 0))
  ∧ (∀ (s : State) (g : Fin 8), s.cmbState g ≠ 4 ∨ (s.seg g).ready = false → exec (.integrationComplete g) s = .next s)
  ∧ (∀ (s : State) (g : Fin 8), s.cmbState g = 4 → s.rd F.CMB_SYNC_CFG_integ_limit g ≤ (s.seg g).cycles → s.takesEvent (48 + 2 * g) →
    ∃ t, exec (.integrationLimitExpiry g) s = .next t ∧ t.cmbState g = 1 ∧ t.hasEvent (48 + 2 * g) 5 g ∧ t.guardClosed g false = true)
  ∧ (∀ (s : State) (g : Fin 8), s.cmbState g = 6 → s.rd F.CMB_SYNC_CFG_integ_limit g ≤ (s.seg g).cycles →
    exec (.integrationLimitExpiry g) s = .next (s.enterListen g))
  ∧ (∀ (s : State) (g : Fin 8) (b : Bool) (raw e : Int), s.cmbState g = 5 → s.on F.CMB_SYNC_STAT_master_self g = false →
      (s.seg g).master = some (b, raw, e) → -2400 ≤ e → e ≤ 2400 →
    ∃ t, exec (.clockCorrection g) s = .next t ∧ t.rdS F.CMB_SYNC_DEV_dev g = e ∧ t.cmbState g = 5 ∧ t.hif = s.hif)
  ∧ (∀ (s : State) (g : Fin 8) (b : Bool) (raw e : Int), s.cmbState g = 5 → s.on F.CMB_SYNC_STAT_master_self g = false →
      (s.seg g).master = some (b, raw, e) → e < -2400 ∨ 2400 < e → s.takesEvent (48 + 2 * g) →
    ∃ t, exec (.clockCorrection g) s = .next t ∧ t.cmbState g = 6 ∧ t.hasEvent (48 + 2 * g) 2 g
      ∧ t.rd F.CMB_SYNC_CNT_losses g = min (s.rd F.CMB_SYNC_CNT_losses g + 1) (2 ^ F.CMB_SYNC_CNT_losses.width - 1))
  ∧ (∀ (s : State) (g : Fin 8), s.cmbState g = 6 → 8 ≤ (s.seg g).good → s.takesEvent (48 + 2 * g) →
    ∃ t, exec (.passiveRecovery g) s = .next t ∧ t.cmbState g = 5 ∧ t.hasEvent (48 + 2 * g) 1 g)
  ∧ (∀ (s : State) (g : Fin 8), s.cmbState g ≠ 6 ∨ (s.seg g).good < 8 → exec (.passiveRecovery g) s = .next s)
  ∧ (∀ (s : State) (g : Fin 8) (k : Nat), s.cmbState g = 5 → 4 ≤ (s.seg g).noMaster → (s.seg g).syncLast = [k] →
      (Sched.slot (s.sched g) k).owner ≠ s.rd F.CMB_SYNC_STAT_master g → s.isTiming g = false → s.takesEvent (48 + 2 * g) →
    ∃ t, exec (.syncMasterLoss g) s = .next t ∧ (t.seg g).noMaster = 0 ∧ t.hasEvent (48 + 2 * g) 6 g ∧ t.cmbState g = 5
      ∧ t.rd F.CMB_SYNC_STAT_master g = (Sched.slot (s.sched g) k).owner % 2 ^ F.CMB_SYNC_STAT_master.width)
  ∧ (∀ (s : State) (g : Fin 8), 4 ≤ s.cmbState g → 16 ≤ (s.seg g).noSync →
    ∃ t, exec (.syncFrameAbsence g) s = .next t ∧ t.cmbState g = 1 ∧ t.rd F.CMB_SYNC_STAT_master g = 0 ∧ t.guardClosed g false = true)
  ∧ (∀ (s : State) (g : Fin 8),
    ∃ t, exec (.relearn g) s = .next t ∧ (∀ k, k < 64 → s.masterSlot g ≠ some k → (t.seg g).learn false k = {} ∧ (t.seg g).learn true k = {})
      ∧ (∀ k, s.masterSlot g = some k → (t.seg g).learn false k = (s.seg g).learn false k ∧ (t.seg g).learn true k = (s.seg g).learn true k))
  ∧ (∀ (s : State) (g : Fin 8) (n : Fin 32), (s.seg g).silent.contains (n.val, some 16) = true → s.takesEvent (48 + 2 * g) →
    ∃ t, exec (.nodeLeft g n) s = .next t ∧ t.hasEvent (48 + 2 * g) 10 g
      ∧ (t.seg g).silent = (s.seg g).silent.map fun p => if p.1 = n.val then (p.1, some 17) else p)

/-- The Guards and Waggle. A cut is counted and raised; a view more than 100 ns apart closes the Guard of the channel unless the
star is trusted; four cycles without a sync frame close it; Waggle starts only where it may, takes its shots, and posts its
result when the last is done or it is stopped.  (Rests on R332, R333, R335 to R338.) -/
def Obligations.GuardAndWaggle : Prop :=
  (∀ (s : State) (g : Fin 8) (k : Option (Fin 64)), s.takesEvent (48 + 2 * g) →
    ∃ t, exec (.guardCut g k) s = .next t ∧ t.hasEvent (48 + 2 * g) 8 g
      ∧ t.rd F.CMB_GRD_STAT_cuts g = min (s.rd F.CMB_GRD_STAT_cuts g + 1) (2 ^ F.CMB_GRD_STAT_cuts.width - 1))
  ∧ (∀ (s : State) (g : Fin 8) (b : Bool) (d : Word), s.cmbState g ≠ 0 → d.toInt < -100 ∨ 100 < d.toInt → s.guardClosed g b = false →
      s.takesEvent (48 + 2 * g) →
    ∃ t, exec (.guardViewCompare g b d) s = .next t ∧ t.hasEvent (48 + 2 * g) 7 g
      ∧ t.guardClosed g b = !s.on F.CMB_GRD_CTL_trust_star g ∧ t.guardClosed g (!b) = s.guardClosed g (!b)
      ∧ t.rdS F.CMB_GRD_STAT_diff g = clampI (-128) 127 (tdiv d.toInt 4))
  ∧ (∀ (s : State) (g : Fin 8) (b : Bool) (d : Word), -100 ≤ d.toInt → d.toInt ≤ 100 → s.guardClosed g b = false →
    ∃ t, exec (.guardViewCompare g b d) s = .next t ∧ t.rdS F.CMB_GRD_STAT_diff g = tdiv d.toInt 4
      ∧ s.OnlyWords t [F.CMB_GRD_STAT_diff.addr g 0] ∧ t.guardClosed g b = false ∧ t.combway = s.combway)
  ∧ (∀ (s : State) (g : Fin 8), s.guardClosed g false = false → 4 ≤ (s.seg g).guardA.missed → (s.seg g).guardB.missed < 4 →
    ∃ t, exec (.guardSyncLoss g) s = .next t ∧ t.guardClosed g false = true ∧ (t.seg g).guardA.fault = true
      ∧ t.guardClosed g true = s.guardClosed g true ∧ (t.seg g).guardB = (s.seg g).guardB)
  ∧ (∀ (s : State) (g : Fin 8), s.on F.CMB_WGL_STAT_busy g = false → s.on F.CMB_WGL_CTL_mode g = false → s.cmbState g = 5 →
      Sched.mode (s.sched g) ≠ 1 → Sched.ownerOf (s.sched g) (s.rd F.CMB_WGL_STAT_ident g) = some (s.ownNode g) →
    ∃ t, exec (.waggleStart g) s = .next t ∧ t.rd F.CMB_WGL_STAT_busy g = 1 ∧ (t.seg g).wag = {}
      ∧ s.OnlyWords t [F.CMB_WGL_STAT_busy.addr g 0])
  ∧ (∀ (s : State) (g : Fin 8), s.on F.CMB_WGL_STAT_busy g = true →
    exec (.waggleStart g) s = .next (s.wrIgnored .seg g (F.CMB_WGL_CTL_start.addr g 0)))
  ∧ (∀ (s : State) (g : Fin 8), s.on F.CMB_WGL_STAT_busy g = true → (s.seg g).wag.ending = none →
    exec (.waggleStop g) s = .next (s.setSeg g { s.seg g with wag := { (s.seg g).wag with ending := some 1 } }))
  ∧ (∀ (s : State) (g : Fin 8) (c : BitVec 16) (neg : Bool), s.on F.CMB_WGL_STAT_busy g = true → s.on F.CMB_WGL_CTL_mode g = true →
      (s.seg g).wag = {} → 10 * s.rd F.CMB_WGL_STAT_blank g ≤ c.toNat →
    ∃ t, exec (.waggleShot g [(c, neg)]) s = .next t ∧ (t.seg g).wag.shots = 1 ∧ t.regs = s.regs
      ∧ (t.seg g).wag.refl = [{ last := c.toNat, negative := neg, shots := 1, shot := 1, sum := c.toNat }])
  ∧ (∀ (s : State) (g : Fin 8), s.on F.CMB_WGL_STAT_busy g = true → (s.seg g).wag.ending = some 1 → s.takesEvent (49 + 2 * g) →
    ∃ t w, exec (.waggleDone g) s = .next t ∧ t.rd F.CMB_WGL_STAT_busy g = 0 ∧ t.hasEvent (49 + 2 * g) 8 g
      ∧ t.mailbox (112 + 2 * g + s.rd F.CMB_WGL_CTL_chan g) = (s.mailbox (112 + 2 * g + s.rd F.CMB_WGL_CTL_chan g)).post w
      ∧ w = BitVec.ofNat 32 (((s.seg g).wag.refl.take 16).length + 256 * s.rd F.CMB_WGL_STAT_shots_log2 g + 65536 * s.rd F.CMB_WGL_CFG_vf g)
          :: BitVec.ofNat 32 (s.seg g).wag.shots :: ((s.seg g).wag.refl.take 16).flatMap (reflWords (s.rd F.CMB_WGL_CFG_vf g)))
  ∧ (∀ (s : State) (g : Fin 8), s.on F.CMB_WGL_STAT_busy g = false → exec (.waggleDone g) s = .next s)

/-- Compare and capture units, the cycle and cell time. A unit arms with its target ahead, and matches at once with `cmp_late` when
it is not; a match sets `fired` and disarms, or takes the next target of its period; a capture unit queues an edge and loses one
when its queue is full; the cycle is written only while every segment is stopped.  (Rests on R34, R345 to R348, R352, R355.) -/
def Obligations.CompareAndCapture : Prop :=
  (∀ (s : State) (u : Fin 32), 2 ≤ u.val → s.on F.TIM_CMP_CFG_arm u = false → s.cmpDiff u < 0 →
    ∃ t, exec (.compareArm u) s = .next t ∧ t.rd F.TIM_CMP_CFG_arm u = 1 ∧ t.rd F.TIM_CMP_CFG_fired u = s.rd F.TIM_CMP_CFG_fired u
      ∧ s.OnlyWords t [F.TIM_CMP_CFG_arm.addr u 0] ∧ t.hif = s.hif)
  ∧ (∀ (s : State) (u : Fin 32), 2 ≤ u.val → s.on F.TIM_CMP_CFG_arm u = false → 0 ≤ s.cmpDiff u → s.rd F.TIM_CMP_PER_period u = 0 →
      s.rd F.TIM_CMP_CFG_action u = 0 → s.takesEvent 69 →
    ∃ t, exec (.compareArm u) s = .next t ∧ t.rd F.TIM_CMP_CFG_arm u = 0 ∧ t.rd F.TIM_CMP_CFG_fired u = 1
      ∧ (t.rd F.TIM_ERR_cmp_late).testBit u = true ∧ t.hasEvent 69 1 u ∧ t.tick = s.tick + 1)
  ∧ (∀ (s : State) (u : Fin 32), u.val < 2 ∨ s.on F.TIM_CMP_CFG_arm u = true → exec (.compareArm u) s = .next s)
  ∧ (∀ (s : State) (u : Fin 32), 2 ≤ u.val → s.on F.TIM_CMP_CFG_arm u = true → s.cmpDiff u < 0 →
    exec (.compareDisarm u) s = .next (s.wr F.TIM_CMP_CFG_arm 0 u))
  ∧ (∀ (s : State) (u : Fin 32), 2 ≤ u.val → s.on F.TIM_CMP_CFG_arm u = true → 0 ≤ s.cmpDiff u → s.rd F.TIM_CMP_PER_period u = 0 →
      s.rd F.TIM_CMP_CFG_action u = 0 →
    ∃ t, exec (.compareDisarm u) s = .next t ∧ t.rd F.TIM_CMP_CFG_arm u = 0 ∧ t.rd F.TIM_CMP_CFG_fired u = 1)
  ∧ (∀ (s : State) (u : Fin 32), u.val < 2 ∨ s.on F.TIM_CMP_CFG_arm u = false →
    exec (.compareDisarm u) s = .next s ∧ exec (.compareMatch u) s = .next s ∧ exec (.adcWake u) s = .next s)
  ∧ (∀ (s : State) (u : Fin 32), 2 ≤ u.val → s.on F.TIM_CMP_CFG_arm u = true → s.rd F.TIM_CMP_PER_period u = 0 →
      s.rd F.TIM_CMP_CFG_action u = 0 →
    ∃ t, exec (.compareMatch u) s = .next t ∧ t.rd F.TIM_CMP_CFG_arm u = 0 ∧ t.rd F.TIM_CMP_CFG_fired u = 1
      ∧ s.OnlyWords t [F.TIM_CMP_CFG_arm.addr u 0] ∧ t.tick = (s.advanceCell (s.cmpTarget u)).tick)
  ∧ (∀ (s : State) (u : Fin 32) (p : Nat), 2 ≤ u.val → s.on F.TIM_CMP_CFG_arm u = true → s.rd F.TIM_CMP_PER_period u = p → 100 ≤ p →
      s.rd F.TIM_CMP_CFG_action u = 0 → cellDiff (s.advanceCell (s.cmpTarget u)).cellNs (uns 64 (s.cmpTarget u + p : Nat)) < 0 →
    ∃ t, exec (.compareMatch u) s = .next t ∧ t.rd F.TIM_CMP_CFG_arm u = 1 ∧ t.rd F.TIM_CMP_CFG_fired u = 1
      ∧ t.cmpTarget u = (s.cmpTarget u + p) % 2 ^ 64 ∧ t.hif = s.hif)
  ∧ (∀ (s : State) (u : Fin 32) (q : Nat), 2 ≤ u.val → s.on F.TIM_CMP_CFG_arm u = true → s.rd F.TIM_CMP_CFG_action u = 2 →
      s.rd F.TIM_CMP_CFG_target u = q → q < 2 → lookup (fun _ => false) s.tim.waked u = false → s.on F.ADC_SEQ_CTL_enable q = false →
    ∃ t, exec (.adcWake u) s = .next t ∧ lookup (fun _ => false) t.tim.waked u = true ∧ t.regs = s.regs ∧ t.adc = s.adc)
  ∧ (∀ (s : State) (u : Fin 16) (up : Bool) (te : DWord) (k : Fin 3), s.on F.TIM_CAP_CFG_enable u = true →
      bitAt (s.rd F.TIM_CAP_CFG_edge u) (if up then 0 else 1) = true → (s.capUnit u).queue = [] → (s.mailbox (128 + u)).st = .empty →
    ∃ t, exec (.captureEdge u up te k) s = .next t ∧ (t.capUnit u).queue = [] ∧ (t.capUnit u).lostSince = 0
      ∧ t.rd F.TIM_CAP_STAT_queued u = 0
      ∧ t.mailbox (128 + u) = (s.mailbox (128 + u)).post (words64 (uns 64 (te.toNat + k.val : Nat))
          ++ [BitVec.ofNat 32 (b2n up + 256 * min 255 (s.capUnit u).lostSince)]))
  ∧ (∀ (s : State) (u : Fin 16) (up : Bool) (te : DWord) (k : Fin 3), s.on F.TIM_CAP_CFG_enable u = true →
      bitAt (s.rd F.TIM_CAP_CFG_edge u) (if up then 0 else 1) = true → (s.capUnit u).queue.length < 8 → (s.mailbox (128 + u)).st ≠ .empty →
    ∃ t c, exec (.captureEdge u up te k) s = .next t ∧ (t.capUnit u).queue = (s.capUnit u).queue ++ [c] ∧ c.rising = up
      ∧ c.time = uns 64 (te.toNat + k.val : Nat) ∧ c.lost = (s.capUnit u).lostSince
      ∧ t.rd F.TIM_CAP_STAT_queued u = ((s.capUnit u).queue.length + 1) % 2 ^ F.TIM_CAP_STAT_queued.width)
  ∧ (∀ (s : State) (u : Fin 16) (up : Bool) (te : DWord) (k : Fin 3), s.on F.TIM_CAP_CFG_enable u = true →
      bitAt (s.rd F.TIM_CAP_CFG_edge u) (if up then 0 else 1) = true → 8 ≤ (s.capUnit u).queue.length → s.rd F.TIM_CAP_STAT_lost u = 0 →
      s.takesEvent 70 →
    ∃ t, exec (.captureEdge u up te k) s = .next t ∧ (t.capUnit u).queue = (s.capUnit u).queue ∧ t.rd F.TIM_CAP_STAT_lost u = 1
      ∧ t.hasEvent 70 1 u)
  ∧ (∀ (s : State) (u : Fin 16) (up : Bool) (te : DWord) (k : Fin 3), s.on F.TIM_CAP_CFG_enable u = false →
    exec (.captureEdge u up te k) s = .next s)
  ∧ (∀ (s : State) (m : Master) (v : Word), s.privileged m = true → 62500 ≤ v.toNat → v.toNat ≤ 4000000 → v.toNat % 25 = 0 →
      (∀ g, g < 8 → s.on F.CMB_SEG_STAT_stopped g = true) → exec (.cycleWrite m v) s = .next (s.wr F.TIM_CYCLE_ns v.toNat))
  ∧ (∀ (s : State) (m : Master) (v : Word) (g : Fin 8), s.privileged m = true → s.on F.CMB_SEG_STAT_stopped g = false →
    exec (.cycleWrite m v) s = .next (s.wrIgnored .plain 0 F.TIM_CYCLE_ns.off))
  ∧ (∀ (s : State) (m : Master), ∃ t, exec (.timeSnapshotRead m) s = .next t ∧ t.rdata = BitVec.ofNat 32 s.nowNs ∧ t.regs = s.regs
      ∧ t.snapshotRead m F.TIM_NOW_SEC_LO_sec.off = some (BitVec.ofNat 32 s.nowSec)
      ∧ t.snapshotRead m F.TIM_NOW_FRAC_frac.off = some (BitVec.ofNat 32 s.nowFrac))
  ∧ (∀ (s : State) (p : Fin 4) (e : Nat), lookup (fun _ => none) s.tim.pulse p = some e →
    ∃ t, exec (.tpoPulseEnd p) s = .next t ∧ lookup (fun _ => none) t.tim.pulse p = none ∧ e ≤ t.tick ∧ t.regs = s.regs)
  ∧ (∀ (s : State) (p : Fin 4), lookup (fun _ => none) s.tim.pulse p = none → exec (.tpoPulseEnd p) s = .next s)

/-- Line time and the Ethernet ports. An offset of a slave port makes its domain valid; a port that is no slave, or a domain without
offsets, loses it with source 66 or 67; the selection reverts to domain A; a link change latches; a frame is counted, stamped,
taken or dropped; a management frame takes 25.6 µs and ends with the answer of its PHY.  (Rests on R349, R350, R353, R354.) -/
def Obligations.LineTimeAndEthernet : Prop :=
  (∀ (s : State) (b : Bool) (th : DWord) (r : Word) (sl : Bool), s.on F.TIM_PTP_enable (b2n b) = false →
    exec (.lineOffsetDelivery b th r sl) s = .next s)
  ∧ (∀ (s : State) (th : DWord) (r : Word), s.on F.TIM_PTP_enable 0 = true →
    ∃ t, exec (.lineOffsetDelivery false th r true) s = .next t ∧ t.rd F.TIM_LINE_STAT_a_valid = 1 ∧ t.tim.domA.last = th.toInt
      ∧ t.tim.domA.rate = r.toInt ∧ t.tim.domA.delivered = s.tick ∧ t.tim.domB = s.tim.domB
      ∧ (s.on F.TIM_LINE_STAT_a_valid = true → t.tim.domA.since = s.tim.domA.since)
      ∧ (s.on F.TIM_LINE_STAT_a_valid = false → t.tim.domA.since = s.tick))
  ∧ (∀ (s : State) (th : DWord) (r : Word), s.on F.TIM_PTP_enable 1 = true → s.on F.TIM_LINE_STAT_b_valid = true → s.takesEvent 67 →
    ∃ t, exec (.lineOffsetDelivery true th r false) s = .next t ∧ t.rd F.TIM_LINE_STAT_b_valid = 0 ∧ t.hasEvent 67 1 0xFFFF)
  ∧ (∀ (s : State) (b : Bool), s.domainValid b = true → s.takesEvent (if b then 67 else 66) →
    ∃ t, exec (.domainLoss b) s = .next t ∧ t.domainValid b = false ∧ t.hasEvent (if b then 67 else 66) 1 0xFFFF
      ∧ (s.domain b).delivered + sec (s.rd F.TIM_LINE_CFG_loss) ≤ t.tick)
  ∧ (∀ (s : State) (b : Bool), s.domainValid b = false → exec (.domainLoss b) s = .next s)
  ∧ (∀ s : State, s.rd F.TIM_LINE_CFG_select = 0 → s.rd F.TIM_LINE_STAT_selected = 2 → s.domainValid false = true →
      s.rd F.TIM_LINE_CFG_revert_log2 ≠ 0 → s.takesEvent 68 →
    ∃ t, exec .domainRevert s = .next t ∧ t.rd F.TIM_LINE_STAT_selected = 1 ∧ t.hasEvent 68 1 0xFFFF
      ∧ s.tim.domA.since + sec (2 ^ (s.rd F.TIM_LINE_CFG_revert_log2 + 1)) ≤ t.tick)
  ∧ (∀ s : State, s.rd F.TIM_LINE_CFG_select ≠ 0 ∨ s.rd F.TIM_LINE_STAT_selected ≠ 2 → exec .domainRevert s = .next s)
  ∧ (∀ (s : State) (n : Fin 2) (a b c d : Bool),
    ∃ t, exec (.ethLinkChange n a b c d) s = .next t ∧ t.on F.ETH_STAT_link n = a ∧ t.on F.ETH_STAT_lock n = b
      ∧ t.on F.ETH_STAT_los n = c ∧ t.on F.ETH_STAT_present n = d ∧ (a ≠ s.on F.ETH_STAT_link n → t.rd F.ETH_STAT_link_chg n = 1)
      ∧ (a = s.on F.ETH_STAT_link n → t.rd F.ETH_STAT_link_chg n = s.rd F.ETH_STAT_link_chg n)
      ∧ s.OnlyWords t [F.ETH_STAT_link.addr n 0])
  ∧ (∀ (s : State) (n : Fin 2) (f : List Byte) (ok k : Bool), s.on F.ETH_CTL_enable n = false →
    exec (.ethFrameReceived n f ok k) s = .next s)
  ∧ (∀ (s : State) (n : Fin 2) (f : List Byte) (k : Bool), s.on F.ETH_CTL_enable n = true →
    exec (.ethFrameReceived n f false k) s = .next (s.bump F.ETH_ERR_fcs n))
  ∧ (∀ (s : State) (n : Fin 2) (f : List Byte), s.on F.ETH_CTL_enable n = true → s.on F.ETH_ZONE_CFG_enable = false →
      etherType f ≠ 0x8808 → f.length ≤ 1518 → s.mode ≠ 5 → ptpEvent f = false →
    exec (.ethFrameReceived n f true true) s
      = .next { s.bump F.ETH_RX_FRAMES_count n with tim := { s.tim with ethIn := s.tim.ethIn ++ [f] } })
  ∧ (∀ (s : State) (n : Fin 2) (f : List Byte), s.on F.ETH_CTL_enable n = true → s.mode = 5 → ptpEvent f = true →
    ∃ t, exec (.ethFrameReceived n f true true) s = .next t ∧ t.tim.ethIn = s.tim.ethIn
      ∧ lookup (fun _ => 0) t.tim.ptp n = uns 64 ((s.cellNs : Int) - (s.rd F.TIM_PTP_LAT_ingress n / 10 : Nat))
      ∧ t.rd F.ETH_ERR_dropped n = min (s.rd F.ETH_ERR_dropped n + 1) (2 ^ F.ETH_ERR_dropped.width - 1))
  ∧ (∀ (s : State) (m : Master) (p q : BitVec 5) (c : Bool) (v : BitVec 16), s.privileged m = true → s.on F.ETH_MDIO_STAT_busy = false →
    (∃ t w, exec (.mdioRead m p q c) s = .next t ∧ t.rd F.ETH_MDIO_STAT_busy = 1
        ∧ t.tim.mdio = some { op := 0, cmd := w, endTick := s.tick + 10240 } ∧ t.rd F.ETH_MDIO_CMD_phy = p.toNat
        ∧ t.rd F.ETH_MDIO_CMD_reg = q.toNat)
      ∧ (∃ t w, exec (.mdioWrite m p q c v) s = .next t ∧ t.rd F.ETH_MDIO_STAT_busy = 1
        ∧ t.tim.mdio = some { op := 1, cmd := w, endTick := s.tick + 10240 } ∧ t.rd F.ETH_MDIO_CMD_data = v.toNat)
      ∧ (∃ t w, exec (.mdioAddress m p q v) s = .next t ∧ t.rd F.ETH_MDIO_STAT_busy = 1
        ∧ t.tim.mdio = some { op := 2, cmd := w, endTick := s.tick + 10240 } ∧ t.rd F.ETH_MDIO_CMD_data = v.toNat
        ∧ t.rd F.ETH_MDIO_CMD_c45 = 1))
  ∧ (∀ (s : State) (m : Master) (p q : BitVec 5) (c : Bool) (v : BitVec 16), s.privileged m = true → s.on F.ETH_MDIO_STAT_busy = true →
    exec (.mdioRead m p q c) s = .next (s.wrIgnored .ethp 0 F.ETH_MDIO_CMD_phy.off)
      ∧ exec (.mdioWrite m p q c v) s = .next (s.wrIgnored .ethp 0 F.ETH_MDIO_CMD_phy.off)
      ∧ exec (.mdioAddress m p q v) s = .next (s.wrIgnored .ethp 0 F.ETH_MDIO_CMD_phy.off))
  ∧ (∀ (s : State) (a : Option (BitVec 16)) (w e : Nat), s.tim.mdio = some { op := 0, cmd := w, endTick := e } →
    ∃ t, exec (.mdioFrameDone a) s = .next t ∧ t.tim.mdio = none ∧ t.rd F.ETH_MDIO_STAT_busy = 0 ∧ e ≤ t.tick
      ∧ t.rd F.ETH_MDIO_STAT_noresp = b2n a.isNone ∧ ∀ v, a = some v → t.rd F.ETH_MDIO_STAT_data = v.toNat)
  ∧ (∀ (s : State) (a : Option (BitVec 16)), s.tim.mdio = none → exec (.mdioFrameDone a) s = .next s)

/-- Failures of Quench and of what it watches. Every internal failure puts Quench in SAFE with its cause, and raises its source; in
SAFE every output, brake enable and chain is in its safe state; a pair, a safe output, a brake and a connection latch their own
faults.  (Rests on R356 to R363, R365, R366, R370, R375.) -/
def Obligations.QuenchFailures : Prop :=
  (∀ (s : State) (w : Fin 3), exec (.lockstepMismatch w) s = .next ((s.enterSafe (if w.val = 2 then 2 else 1)).raise 104 (w.val + 1)))
  ∧ (∀ s : State, exec .quenchWatchdogExpiry s = .next ((s.enterSafe 5).raise 107 1)
      ∧ exec .quenchSramError s = .next ((s.enterSafe 6).raise 107 4)
      ∧ exec (.codeCheck false) s = .next ((s.enterSafe 8).raise 107 3) ∧ exec (.codeCheck true) s = .next s)
  ∧ (∀ (s : State) (k : BitVec 8), exec (.selfTestComplete (some k)) s = .next ((s.enterSafe 7).raise 107 2 0xFFFF (detail [(0, k.toNat)])))
  ∧ (∀ (s : State) (k : Nat), s.behaviour ≠ 4 →
      (s.enterSafe k).behaviour = 4 ∧ (s.enterSafe k).rd F.QNC_STAT_safe_cause = k % 2 ^ F.QNC_STAT_safe_cause.width
      ∧ (s.enterSafe k).rd F.QNC_OUT_STAT_on = 0 ∧ (s.enterSafe k).rd F.QNC_STAT_sto_all = 1
      ∧ (∀ b, b < 16 → (s.enterSafe k).rd F.QNC_BRK_STAT_state b ≤ 1)
      ∧ ∀ c, c < 16 → (s.enterSafe k).rd F.QNC_CHAIN_STAT_stop c = 3 ∧ (s.enterSafe k).rd F.QNC_CHAIN_STAT_state c = 3)
  ∧ (∀ (s : State) (k : Nat), s.behaviour = 4 → s.enterSafe k = s)
  ∧ (∀ (s : State) (n : BitVec 16), exec (.quenchScrub n) s = .next (s.bump F.QNC_ERR_ecc_corr 0 0 n.toNat))
  ∧ (∀ s : State, s.quench.tested = true ∨ s.quench.held = true → exec (.selfTestComplete none) s = .next s)
  ∧ (∀ s : State, s.quench.tested = false → s.quench.held = false → s.quench.stored = [] →
    ∃ t, exec (.selfTestComplete none) s = .next t ∧ t.quench = { s.quench with tested := true }
      ∧ t.behaviour = { s with quench := { s.quench with tested := true } }.dueBehaviour)
  ∧ (∀ s : State, s.quench.railOut = false →
    ∃ t, exec .quenchRailFault s = .next t ∧ t.quench = { s.quench with held := true, railOut := true } ∧ t.behaviour = 4)
  ∧ (∀ s : State, s.quench.railOut = true → exec .quenchRailFault s = .next s)
  ∧ (∀ s : State, s.quench.railOut = true → s.behaviour = 4 →
    exec .quenchRailReturn s
      = .next { s with quench := { s.quench with railOut := false, held := false, tickAt := s.tick, sampleAt := s.tick } })
  ∧ (∀ s : State, s.quench.railOut = false → exec .quenchRailReturn s = .next s)
  ∧ (∀ (s : State) (p : Fin 16), byteAt (s.qInp p) 0 ≠ 0 → field (s.qInp p) 6 2 ≤ (s.qPair p).count → bitAt (s.rd F.QNC_IN_FLT_disc) p = false →
      s.takesEvent 95 →
    ∃ t, exec (.discrepancyFault p) s = .next t ∧ bitAt (t.rd F.QNC_IN_FLT_disc) p = true ∧ t.pairOn p = false ∧ t.hasEvent 95 1 p)
  ∧ (∀ (s : State) (p : Fin 16), (s.qPair p).count < field (s.qInp p) 6 2 → exec (.discrepancyFault p) s = .next s)
  ∧ (∀ (s : State) (k : Fin 16) (low : BitVec 32) (p : Fin 16), s.quench.held = false → s.quench.safStopped = false → s.mode ≠ 1 →
      s.quench.set ≠ [] → Sps.pulseUsed s.quench.set k = true → byteAt (s.qInp p) 0 ≠ 0 → byteAt (s.qInp p) 2 = k.val →
      low.getLsbD (2 * p) = false →
    ∃ t, exec (.testPulse k low) s = .next t ∧ bitAt (t.rd F.QNC_IN_FLT_tp) p = true ∧ t.pairOn p = false)
  ∧ (∀ (s : State) (k : Fin 16), s.quench.held = false → s.quench.safStopped = false → s.mode ≠ 1 → s.quench.set ≠ [] →
      Sps.pulseUsed s.quench.set k = true →
    exec (.testPulse k (BitVec.allOnes 32)) s
      = .next { s with quench := { s.quench with pulse := store (fun _ => 0) s.quench.pulse k (s.tick + us (10 * byteAt (Sps.pulse s.quench.set k) 2 + 20)) } })
  ∧ (∀ (s : State) (k : Fin 8) (w : Bool), bitAt (s.rd F.QNC_OUT_STAT_on) k = true → s.takesEvent 97 →
    ∃ t, exec (.outputOffTest (.output k) w false) s = .next t ∧ bitAt (t.rd F.QNC_OUT_STAT_fault) k = true
      ∧ bitAt (t.rd F.QNC_OUT_STAT_on) k = false ∧ t.hasEvent 97 2 k)
  ∧ (∀ (s : State) (b : Fin 16) (w : Bool), s.rd F.QNC_BRK_STAT_state b = 2 → s.on F.QNC_BRK_STAT_fault b = false → s.takesEvent 98 →
    ∃ t, exec (.outputOffTest (.brake b) w false) s = .next t ∧ t.rd F.QNC_BRK_STAT_fault b = 1 ∧ t.rd F.QNC_BRK_STAT_state b = 1
      ∧ t.hasEvent 98 3 b)
  ∧ (∀ (s : State) (p : SwitchPair) (w : Bool), exec (.outputOffTest p w true) s = .next s)
  ∧ (∀ (s : State) (n : Fin 128), s.rd F.QNC_CONN_STAT_state n = 2 → byteAt (s.qConnEntry n) 0 = 0 →
      ((field (s.qConnEntry n) 12 2 * 10000 : Nat) : Int) < cellDiff s.cellNs (s.qConn n).at_ → s.takesEvent 100 →
    ∃ t, exec (.connectionWatchdogExpiry n) s = .next t ∧ t.rd F.QNC_CONN_STAT_state n = 3 ∧ t.rd F.QNC_CONN_STAT_cause n = 1
      ∧ (t.qConn n).news = 0 ∧ t.hasEvent 100 1 n)
  ∧ (∀ (s : State) (n : Fin 128), s.rd F.QNC_CONN_STAT_state n ≠ 2 → exec (.connectionWatchdogExpiry n) s = .next s)

/-- The safety tick. Without a cell cycle, or when no match comes in time, Quench ticks from its own timer; in SAFE a tick counts
and keeps every output and chain safe; a pair whose two channels are active turns on once both have been seen inactive; a chain
takes the strongest stop that its causes command; an input is filtered.  (Rests on R360, R363, R364, R366, R368, R380, R395.) -/
def Obligations.QuenchTicks : Prop :=
  (∀ (s : State) (p : QuenchPins), s.on F.GLB_STAT_cycle_run = false → exec (.safetyTick p) s = .next (s.timerTick p))
  ∧ (∀ (s : State) (p : QuenchPins), s.on F.GLB_STAT_cycle_run = true → s.quench.held = true →
    ∃ t, exec (.safetyTick p) s = .next t ∧ t.rd F.TIM_CMP_CFG_fired 1 = 1 ∧ t.rd F.TIM_CMP_CFG_arm 1 = 1
      ∧ t.rd F.TIM_CMP_PER_period 1 = 250000 ∧ t.quench = s.quench ∧ t.hif = s.hif)
  ∧ (∀ (s : State) (p : QuenchPins), s.on F.GLB_STAT_cycle_run = true → s.quench.held = false → s.quench.safStopped = false →
      s.behaviour = 4 → s.quench.nextSet = none → s.quench.typed = none → s.mode ≠ 5 →
    ∃ t, exec (.safetyTick p) s = .next t ∧ t.rd F.QNC_TICK_count = (s.rd F.QNC_TICK_count + 1) % 2 ^ 32 ∧ t.behaviour = 4
      ∧ t.quench.tickAt = t.tick ∧ t.rd F.QNC_STAT_free_tick = 0 ∧ t.rd F.QNC_OUT_STAT_on = 0
      ∧ ∀ c, c < 16 → t.rd F.QNC_CHAIN_STAT_stop c = 3)
  ∧ (∀ (s : State) (p : QuenchPins), s.quench.held = true →
    ∃ t, s.timerTick p = t ∧ t.quench = s.quench ∧ t.regs = s.regs
      ∧ s.quench.tickAt + us (if s.on F.QNC_STAT_free_tick then 250 else 300) ≤ t.tick)
  ∧ (∀ (s : State) (p : QuenchPins), s.on F.GLB_STAT_cycle_run = false → exec (.safetyTickTimeout p) s = .next (s.timerTick p))
  ∧ (∀ (s : State) (p : Nat), p < 16 → byteAt (s.qInp p) 0 ≠ 0 → 0 < field (s.qInp p) 6 2 → s.active p = (true, true) → s.pairFault p = false →
      (s.qPair p).seen = true → (s.evalPair p).pairOn p = true ∧ ((s.evalPair p).qPair p).count = 0)
  ∧ (∀ (s : State) (p : Nat), p < 16 → byteAt (s.qInp p) 0 ≠ 0 → (s.active p).1 = false → (s.evalPair p).pairOn p = false)
  ∧ (∀ (s : State) (c k : Nat), c < 16 → (s.qChain c).causes = [k] → k ≠ 0 → k < 15 → stopOf (Sps.chain s.quench.set c) k = 3 →
      s.rd F.QNC_CHAIN_STAT_stop c < 3 → s.takesEvent 93 →
      (s.applyStop c).rd F.QNC_CHAIN_STAT_stop c = 3 ∧ (s.applyStop c).rd F.QNC_CHAIN_STAT_state c = 3
      ∧ (s.applyStop c).rd F.QNC_CHAIN_STAT_cause c = k
      ∧ (s.applyStop c).hasEvent 93 (if s.rd F.QNC_CHAIN_STAT_stop c = 0 then 1 else 2) c)
  ∧ (∀ (s : State) (l : BitVec 32), s.quench.held = true → exec (.safetyInputSample l) s = .next s)
  ∧ (∀ (s : State) (l : BitVec 32), s.quench.held = false → s.quench.safStopped = false →
    ∃ t, exec (.safetyInputSample l) s = .next t ∧ t.regs = s.regs ∧ t.quench.sampleAt = t.tick
      ∧ ∀ i, i < 32 → byteAt (s.qInp (i / 2)) 0 ≠ 0 → 16 ≤ byteAt (s.qInp (i / 2)) (2 + i % 2) →
          (l.getLsbD i = (s.qInput i).level → t.qInput i = { s.qInput i with streak := 0 })
          ∧ (l.getLsbD i ≠ (s.qInput i).level → (s.qInput i).streak + 1 < field (s.qInp (i / 2)) 4 2 →
              t.qInput i = { s.qInput i with streak := (s.qInput i).streak + 1 })
          ∧ (l.getLsbD i ≠ (s.qInput i).level → field (s.qInp (i / 2)) 4 2 ≤ (s.qInput i).streak + 1 →
              t.qInput i = { level := !(s.qInput i).level, streak := 0 }))

/-- The parameter set and the stops of a chain. SPS_LOAD takes a set that passes its checks while no axis has torque; SPS_READ
writes the set to the host; the typed-back value waits for a tick; limits that expire add their cause; an automatic restart
clears causes 2 and 3; Temper and the planner follow the stops.  (Rests on R378, R379, R384, R393, R394, R396, R397.) -/
def Obligations.SafetyParametersAndStops : Prop :=
  (∀ (s : State) (r : Fin 64) (io : HostIo) (d : Desc), s.Starts r 0x0401 d → io.bodyErr = false → s.mode = 2 →
      s.on F.QNC_STAT_sto_all = true → Sps.check io.body (s.rd F.TIM_CYCLE_ns) = none →
    ∃ t, exec (.spsLoad r io) s = .next t ∧ t.quench = { s.quench with nextSet := some io.body }
      ∧ t.upd.jobs = s.upd.jobs ++ [.sps d.id io.body] ∧ t.hif.compl = s.hif.compl)
  ∧ (∀ (s : State) (r : Fin 64) (io : HostIo) (d : Desc), s.Starts r 0x0401 d → io.bodyErr = false →
      s.mode ≠ 2 ∨ s.on F.QNC_STAT_sto_all = false →
    ∃ t, exec (.spsLoad r io) s = .next t ∧ t.Completed d 0x15 ∧ t.quench = s.quench ∧ t.upd = s.upd)
  ∧ (∀ (s : State) (r : Fin 64) (io : HostIo) (d : Desc) (k i : Nat), s.Starts r 0x0401 d → io.bodyErr = false → s.mode = 2 →
      s.on F.QNC_STAT_sto_all = true → Sps.check io.body (s.rd F.TIM_CYCLE_ns) = some (k, i) →
    ∃ t, exec (.spsLoad r io) s = .next t ∧ t.Completed d 0x12 ∧ t.quench = s.quench
      ∧ ∃ c ∈ t.hif.compl, c.id = d.id ∧ c.result = errResult 0xFFFF k i)
  ∧ (∀ (s : State) (r : Fin 64) (io : HostIo) (d : Desc), s.Starts r 0x0402 d → io.resultErr = false →
    ∃ t, exec (.spsRead r io) s = .next t ∧ t.Completed d 1 ∧ t.quench = s.quench
      ∧ t.hostMem = writeBytes s.hostMem (d.op 32 8) (s.quench.set.take (d.op 40 4)))
  ∧ (∀ (s : State) (m : Master) (v : Word), s.privileged m = true → s.on F.QNC_STAT_set_present = true →
    ∃ t, exec (.spsConfirmWrite m v) s = .next t ∧ t.rd F.QNC_SPS_CONFIRM_value = v.toNat ∧ t.quench = { s.quench with typed := some v.toNat }
      ∧ s.OnlyWords t [F.QNC_SPS_CONFIRM_value.off])
  ∧ (∀ (s : State) (m : Master) (v : Word), s.privileged m = false →
    exec (.spsConfirmWrite m v) s = .next (s.pvDropped m false true F.QNC_SPS_CONFIRM_value.off))
  ∧ (∀ (s : State) (m : Master) (v : Word), s.privileged m = true → s.on F.QNC_STAT_set_present = false →
    exec (.spsConfirmWrite m v) s = .next (s.wrIgnored .qnc 0 F.QNC_SPS_CONFIRM_value.off))
  ∧ (∀ (s : State) (c j : Fin 16), s.quench.set ≠ [] → Sps.used (Sps.chain s.quench.set c) = true → j.val < Sps.axes (Sps.chain s.quench.set c) →
      (s.qChain c).causes.contains 6 = false →
      byteAt (Sps.axis (Sps.chain s.quench.set c) j) 20 < ((s.qChain c).axis j).missA
        ∨ byteAt (Sps.axis (Sps.chain s.quench.set c) j) 20 < ((s.qChain c).axis j).missB →
    exec (.sourceMissingLimit c j) s
      = .next ((s.setQChain c { s.qChain c with causes := (s.qChain c).causes ++ [6] }).applyStop c))
  ∧ (∀ (s : State) (c j : Fin 16), s.quench.set = [] ∨ (s.qChain c).causes.contains 6 = true → exec (.sourceMissingLimit c j) s = .next s)
  ∧ (∀ (s : State) (c : Fin 16), s.quench.set ≠ [] → s.rd F.QNC_CHAIN_STAT_state c = 1 → s.rd F.QNC_CHAIN_STAT_stop c = 2 →
      (s.qChain c).causes.contains 10 = false → (∀ k ∈ (s.qChain c).causes, stopOf (Sps.chain s.quench.set c) k ≤ 3) → s.takesEvent 93 →
    ∃ t, exec (.ss1LimitTimeExpiry c) s = .next t ∧ t.rd F.QNC_CHAIN_STAT_stop c = 3 ∧ t.rd F.QNC_CHAIN_STAT_state c = 3
      ∧ (t.qChain c).causes = (s.qChain c).causes ++ [10] ∧ t.hasEvent 93 2 c
      ∧ (s.qChain c).t0 + ms (field (Sps.chain s.quench.set c) 48 2) < t.tick)
  ∧ (∀ (s : State) (c : Fin 16) (k : Nat), s.quench.set ≠ [] → (s.qChain c).clear = some k → bitAt (byteAt (Sps.chain s.quench.set c) 6) 0 = true →
      (s.qChain c).causes = [2] → (s.qChain c).v ≤ (s.qChain c).limit → (s.qChain c).stoHold = false → s.rd F.QNC_CHAIN_STAT_stop c ≠ 0 →
    ∃ t, exec (.restartDelayExpiry c) s = .next t ∧ t.rd F.QNC_CHAIN_STAT_stop c = 0
      ∧ t.rd F.QNC_CHAIN_STAT_state c = s.rd F.QNC_CHAIN_STAT_state c
      ∧ (t.qChain c).causes = [] ∧ k + ms (field (Sps.chain s.quench.set c) 50 2) ≤ t.tick)
  ∧ (∀ (s : State) (c : Fin 16), (s.qChain c).clear = none → exec (.restartDelayExpiry c) s = .next s)
  ∧ (∀ (s : State) (c : Fin 16) (j : Nat), s.rd F.QNC_CHAIN_STAT_state c = 3 → 8 ≤ (s.qChain c).stoTicks → (s.qChain c).stoHold = false →
      j < Sps.axes (Sps.chain s.quench.set c) → s.driveLive (Sps.axis (Sps.chain s.quench.set c) j) = true → s.takesEvent 93 →
    ∃ t, exec (.stoFeedbackTimeout c) s = .next t ∧ (t.qChain c).stoHold = true ∧ t.hasEvent 93 4 c)
  ∧ (∀ (s : State) (c : Fin 16), s.rd F.QNC_CHAIN_STAT_state c ≠ 3 ∨ (s.qChain c).stoTicks < 8 → exec (.stoFeedbackTimeout c) s = .next s)
  ∧ (∀ (s : State) (c : Fin 16), s.mode ≠ 5 → byteAt (s.publishedEntry c) 12 = 1 ∨ byteAt (s.publishedEntry c) 12 = 2 →
    exec (.allowanceTableStop c) s = .next (s.stopChain c { cause := 8 }))
  ∧ (∀ (s : State) (c : Fin 16), s.mode = 5 ∨ byteAt (s.publishedEntry c) 12 = 0 ∨ byteAt (s.publishedEntry c) 12 = 3 →
    exec (.allowanceTableStop c) s = .next s)

/-- Brake tests. A test starts on a standing chain and holds the brake; after the engage time the engine ramps to the test torque
and holds it; it ramps back when the test ends or no torque is reached, and completes once the brake is released; a test becomes
due and overdue by its interval.  (Rests on R403 to R405.) -/
def Obligations.BrakeTests : Prop :=
  (∀ (s : State) (r : Fin 64) (d : Desc), s.Starts r 0x0403 d → d.op 32 1 < 16 → s.quench.set ≠ [] →
      Sps.used (Sps.brake s.quench.set (d.op 32 1)) = true → d.op 33 1 ≤ 2 → s.mode = 3 → s.behaviour = 3 →
      (s.chain (byteAt (Sps.brake s.quench.set (d.op 32 1)) 2)).state = 0 →
      s.rd F.QNC_CHAIN_STAT_stop (byteAt (Sps.brake s.quench.set (d.op 32 1)) 2) = 0 →
      (∃ k, (s.qChain (byteAt (Sps.brake s.quench.set (d.op 32 1)) 2)).slow = some k ∧ ms 100 ≤ s.tick - k) → s.quench.test = none →
    ∃ t q, exec (.brakeTest r) s = .next t ∧ t.quench.test = some q ∧ q.desc = d.id ∧ q.brake = d.op 32 1 ∧ q.dir = d.op 33 1
      ∧ q.phase = 0 ∧ q.at_ = s.tick ∧ t.rd F.QNC_BRK_STAT_state (d.op 32 1) = 3 ∧ t.hif.compl = s.hif.compl)
  ∧ (∀ (s : State) (r : Fin 64) (d : Desc), s.Starts r 0x0403 d → d.op 32 1 < 16 → s.quench.set ≠ [] →
      Sps.used (Sps.brake s.quench.set (d.op 32 1)) = true → d.op 33 1 ≤ 2 → (s.mode ≠ 2 ∧ s.mode ≠ 3) ∨ s.quench.test ≠ none →
    ∃ t, exec (.brakeTest r) s = .next t ∧ t.Completed d 0x15 ∧ t.quench = s.quench)
  ∧ (∀ s : State, s.quench.test = none → exec .brakeEngageTimeExpiry s = .next s ∧ exec .torqueRampEnd s = .next s
      ∧ exec .torqueReachTimeout s = .next s ∧ exec .testDurationExpiry s = .next s ∧ exec .brakeReleaseTimeExpiry s = .next s)
  ∧ (∀ (s : State) (q : QTest), s.quench.test = some q → q.phase = 0 → byteAt (Sps.brake s.quench.set q.brake) 3 = 0xFF → q.dir = 0 →
      q.second = false →
    ∃ t u, exec .brakeEngageTimeExpiry s = .next t ∧ t.quench.test = some { q with phase := 1, at_ := t.tick, reached := none }
      ∧ t.quench.torque = some u ∧ u.axis = byteAt (Sps.brake s.quench.set q.brake) 1 ∧ u.at_ = t.tick ∧ u.back = false
      ∧ u.target = (testTorque (Sps.brake s.quench.set q.brake) : Int) ∧ t.regs = s.regs
      ∧ q.at_ + ms (field (Sps.brake s.quench.set q.brake) 10 2) ≤ t.tick)
  ∧ (∀ (s : State) (q : QTest), s.quench.test = some q → q.phase = 1 →
    ∃ t, exec .torqueRampEnd s = .next t ∧ (∃ u, t.quench.test = some u ∧ u.phase = 2 ∧ u.at_ = t.tick ∧ u.desc = q.desc)
      ∧ t.quench.torque = s.quench.torque ∧ q.at_ + ms 50 ≤ t.tick)
  ∧ (∀ (s : State) (q : QTest), s.quench.test = some q → q.phase = 3 → q.dir ≠ 2 →
    ∃ t, exec .torqueRampEnd s = .next t ∧ t.quench.test = some { q with phase := 4, at_ := t.tick } ∧ t.quench.torque = none)
  ∧ (∀ (s : State) (q : QTest) (u : QTorque), s.quench.test = some q → q.phase = 2 → q.reached = none → s.quench.torque = some u →
    ∃ t v, exec .torqueReachTimeout s = .next t ∧ t.quench.test = some { q with res := 2, phase := 3, at_ := t.tick }
      ∧ t.quench.torque = some v ∧ v.back = true ∧ v.at_ = t.tick ∧ v.axis = u.axis)
  ∧ (∀ (s : State) (q : QTest) (u : QTorque) (a : Nat), s.quench.test = some q → q.phase = 2 → q.reached = some a → s.quench.torque = some u →
    ∃ t v, exec .testDurationExpiry s = .next t ∧ t.quench.test = some { q with phase := 3, at_ := t.tick }
      ∧ t.quench.torque = some v ∧ v.back = true ∧ a + ms (field (Sps.brake s.quench.set q.brake) 18 2) ≤ t.tick)
  ∧ (∀ (s : State) (q : QTest) (d : Desc), s.quench.test = some q → q.phase = 4 → q.aborted = false → q.res = 0 → q.brake < 16 →
      s.hif.desc.find? (·.id == d.id) = some d → q.desc = d.id → d.quiet = false → s.takesEvent 99 →
    ∃ t, exec .brakeReleaseTimeExpiry s = .next t ∧ t.quench.test = none ∧ t.rd F.QNC_BRK_STAT_result q.brake = 0
      ∧ t.rd F.QNC_BRK_STAT_test_fail q.brake = 0 ∧ t.rd F.QNC_BRK_STAT_due q.brake = 0 ∧ t.Completed d 1 ∧ t.hasEvent 99 1 q.brake)
  ∧ (∀ (s : State) (q : QTest) (d : Desc), s.quench.test = some q → q.phase = 4 → q.aborted = true →
      s.hif.desc.find? (·.id == d.id) = some d → q.desc = d.id →
    ∃ t, exec .brakeReleaseTimeExpiry s = .next t ∧ t.quench.test = none ∧ t.Completed d 4)
  ∧ (∀ (s : State) (b : Fin 16), s.quench.set ≠ [] → Sps.used (Sps.brake s.quench.set b) = true → field (Sps.brake s.quench.set b) 24 2 ≠ 0 →
      s.on F.QNC_BRK_STAT_due b = false → s.takesEvent 99 →
    ∃ t, exec (.brakeTestDue b) s = .next t ∧ t.rd F.QNC_BRK_STAT_due b = 1 ∧ t.hasEvent 99 3 b
      ∧ (s.qBrake b).passed + sec (3600 * field (Sps.brake s.quench.set b) 24 2) ≤ t.tick)
  ∧ (∀ (s : State) (b : Fin 16), s.quench.set = [] ∨ s.on F.QNC_BRK_STAT_due b = true → exec (.brakeTestDue b) s = .next s)
  ∧ (∀ (s : State) (b : Fin 16), s.quench.set ≠ [] → Sps.used (Sps.brake s.quench.set b) = true → field (Sps.brake s.quench.set b) 24 2 ≠ 0 →
      (s.qBrake b).overdue = false →
    ∃ t, exec (.brakeTestOverdue b) s = .next t ∧ t.rd F.QNC_BRK_STAT_test_fail b = 1 ∧ (t.qBrake b).overdue = true
      ∧ s.OnlyWords t [F.QNC_BRK_STAT_test_fail.addr b 0])
  ∧ (∀ (s : State) (b : Fin 16), (s.qBrake b).overdue = true → exec (.brakeTestOverdue b) s = .next s)

/-- The ADC. A software or input trigger wakes the converter and starts a run, or is counted as missed while one runs; an entry is
sampled at its instant; a result enters the registers of its input and the queue; pops and reads take it out; a disabled
sequencer finishes its run.  (Rests on R411 to R421, R423.) -/
def Obligations.AdcCommands : Prop :=
  (∀ (s : State) (q : Fin 2), s.on F.ADC_SEQ_CTL_enable q = false →
    exec (.adcSoftwareTrigger q) s = .next (s.wrIgnored .adcs q (F.ADC_SEQ_CTL_start.addr q 0)))
  ∧ (∀ (s : State) (q : Fin 2), s.on F.ADC_SEQ_CTL_enable q = true → s.rd F.ADC_SEQ_CFG_trig q = 0 → (s.adcSeq q).start ≠ none →
    exec (.adcSoftwareTrigger q) s = .next (s.bump F.ADC_SEQ_STAT_missed q))
  ∧ (∀ (s : State) (q : Fin 2), s.on F.ADC_SEQ_CTL_enable q = true → s.rd F.ADC_SEQ_CFG_trig q = 0 → (s.adcSeq q).start = none →
    ∃ t, exec (.adcSoftwareTrigger q) s = .next t ∧ (t.adcSeq q).start = some (uns 64 (s.cellNs + s.rd F.ADC_SEQ_CFG_delay q * 40 + 1500 : Nat))
      ∧ (t.adcSeq q).taken = 0 ∧ (t.adcSeq q).ext = true ∧ t.rd F.ADC_SEQ_STAT_powered q = 1 ∧ t.rd F.ADC_SEQ_STAT_stopped q = 0
      ∧ t.rd F.ADC_SEQ_STAT_runs q = (s.rd F.ADC_SEQ_STAT_runs q + 1) % 2 ^ 16 ∧ t.adcSeq (1 - q.val) = s.adcSeq (1 - q.val))
  ∧ (∀ (s : State) (n : Fin 4) (up : Bool), s.on F.ADC_SEQ_CTL_enable 0 = false → s.on F.ADC_SEQ_CTL_enable 1 = false →
    exec (.adcTriggerInputEvent n up) s = .next s)
  ∧ (∀ (s : State) (n : Fin 4), s.on F.ADC_SEQ_CTL_enable 1 = false → s.on F.ADC_SEQ_CTL_enable 0 = true → s.rd F.ADC_SEQ_CFG_trig 0 = 2 →
      s.rd F.ADC_SEQ_CFG_tin 0 = n.val → s.rd F.ADC_SEQ_CFG_edge 0 = 1 → (s.adcSeq 0).start = none → s.on F.ADC_SEQ_STAT_powered 0 = true →
      cellDiff (s.adcSeq 0).ready (uns 64 (s.cellNs + s.adcDelay 0 : Nat)) ≤ 0 →
    ∃ t, exec (.adcTriggerInputEvent n true) s = .next t ∧ (t.adcSeq 0).start = some (uns 64 (s.cellNs + s.adcDelay 0 : Nat))
      ∧ (t.adcSeq 0).ext = false ∧ t.rd F.ADC_SEQ_STAT_stopped 0 = 0 ∧ t.adcSeq 1 = s.adcSeq 1)
  ∧ (∀ (s : State) (q : Fin 2) (v : BitVec 16), (s.adcSeq q).start = none → exec (.adcSample q v) s = .next s)
  ∧ (∀ (s : State) (q : Fin 2) (v : BitVec 16) (f : Nat), (s.adcSeq q).start = some f →
      s.rd F.ADC_SEQ_CFG_first q + (s.adcSeq q).taken ≤ s.rd F.ADC_SEQ_CFG_last q →
    ∃ t r, exec (.adcSample q v) s = .next t ∧ (t.adcSeq q).taken = (s.adcSeq q).taken + 1
      ∧ (t.adcSeq q).pending = (s.adcSeq q).pending ++ [r] ∧ r.code = v ∧ r.entry = s.rd F.ADC_SEQ_CFG_first q + (s.adcSeq q).taken
      ∧ r.time = uns 64 (f + (s.adcSeq q).taken * 1000 : Nat) ∧ r.conf = s.word (F.ADC_ENT_input.addr r.entry 0)
      ∧ (r.last = true ↔ r.entry = s.rd F.ADC_SEQ_CFG_last q) ∧ t.regs = s.regs)
  ∧ (∀ (s : State) (q : Fin 2), (s.adcSeq q).pending = [] → exec (.adcResult q) s = .next s)
  ∧ (∀ (s : State) (q : Fin 2) (r : AdcSampleRec) (l : List AdcSampleRec), (s.adcSeq q).pending = r :: l → getBits r.conf 0 5 < 24 →
      getBits r.conf 12 1 = 0 → s.adc.queue.length < 512 →
    ∃ t, exec (.adcResult q) s = .next t ∧ (t.adcSeq q).pending = l ∧ t.rd F.ADC_LAST_LO_code (getBits r.conf 0 5) = r.code.toNat
      ∧ t.rd F.ADC_LAST_LO_valid (getBits r.conf 0 5) = 1 ∧ t.rd F.ADC_LAST_HI_time (getBits r.conf 0 5) = r.time % 2 ^ 32
      ∧ t.adc.queue = s.adc.queue ++ [r.bytes q (s.rd F.ADC_SEQ_STAT_runs q) (s.adcOw r) (s.adcLim r) s.adc.lost]
      ∧ t.rd F.ADC_Q_STAT_count = s.adc.queue.length + 1)
  ∧ (∀ s : State, ∀ m : Master, s.adc.queue = [] →
    ∃ t, exec (.adcQueuePop m) s = .next t ∧ t.rdata.getLsbD 23 = false ∧ t.free = s.free + 1 ∧ t.regs = s.regs ∧ t.adc = s.adc)
  ∧ (∀ (s : State) (m : Master) (b : List Byte) (l : List (List Byte)), s.adc.queue = b :: l → l.length < 1024 →
    ∃ t, exec (.adcQueuePop m) s = .next t ∧ t.rdata = BitVec.ofNat 32 (le (b.take 4)) ∧ t.adc.queue = l
      ∧ lookup (fun _ => []) t.adc.popped (readerKey m) = b.drop 4 ∧ t.rd F.ADC_Q_STAT_count = l.length)
  ∧ (∀ (s : State) (m : Master) (n : Fin 24),
    ∃ t, exec (.adcLastRead m n) s = .next t ∧ t.rdata = s.word (F.ADC_LAST_LO_code.addr n 0) ∧ t.regs = s.regs
      ∧ t.adcCopy m (F.ADC_LAST_HI_time.addr n 0) = some (s.word (F.ADC_LAST_HI_time.addr n 0)))
  ∧ (∀ (s : State) (q : Fin 2),
    ∃ t, exec (.adcSeqDisable q) s = .next t ∧ t.rd F.ADC_SEQ_CTL_enable q = 0 ∧ t.adc = s.adc
      ∧ ((s.adcSeq q).start = none → t.rd F.ADC_SEQ_STAT_stopped q = 1)
      ∧ ((s.adcSeq q).start ≠ none → t.rd F.ADC_SEQ_STAT_stopped q = s.rd F.ADC_SEQ_STAT_stopped q))

/-- The pairing. A role is decided once; a link that stays down for a second ends the wait; a disable takes the role away;
heartbeats carry the role and the epoch, a standby follows those of its active partner, and of two active devices the one behind
falls silent; a mirror cycle is applied as a whole; lanes go and come.  (Rests on R425 to R431, R441, R444.) -/
def Obligations.PairCommands : Prop :=
  (∀ s : State, s.rd F.GLB_STAT_role ≠ 0 ∨ (s.mode ≠ 3 ∧ s.mode ≠ 4) → exec .roleDecision s = .next s)
  ∧ (∀ s : State, s.rd F.GLB_STAT_role = 0 → s.mode = 3 ∨ s.mode = 4 → s.roleChoice = 1 →
    ∃ t, exec .roleDecision s = .next t ∧ t.rd F.GLB_STAT_role = 1 ∧ t.mode = s.mode)
  ∧ (∀ s : State, s.rd F.GLB_STAT_role = 0 → s.mode = 3 ∨ s.mode = 4 → s.roleChoice = 2 →
    ∃ t, exec .roleDecision s = .next t ∧ t.rd F.GLB_STAT_role = 2 ∧ t.mode = 6)
  ∧ (∀ s : State, s.on F.BLW_CTL_enable = true → s.on F.BLW_STAT_link = false → s.bellows.timedOut = false → s.on F.BLW_CFG_primary = true →
      s.mode = 3 → s.rd F.GLB_STAT_role = 0 →
    ∃ t, exec .bellowsLinkTimeout s = .next t ∧ t.rd F.GLB_STAT_role = 1 ∧ t.bellows.timedOut = true
      ∧ s.bellows.enabledAt + sec 1 ≤ t.tick)
  ∧ (∀ s : State, s.on F.BLW_CTL_enable = true → s.on F.BLW_STAT_link = false → s.bellows.timedOut = false → s.on F.BLW_CFG_primary = false →
      s.takesEvent 110 →
    ∃ t, exec .bellowsLinkTimeout s = .next t ∧ t.hasEvent 110 3 0xFFFF ∧ t.bellows.timedOut = true
      ∧ t.rd F.GLB_STAT_role = s.rd F.GLB_STAT_role)
  ∧ (∀ s : State, s.on F.BLW_CTL_enable = false →
      exec .bellowsLinkTimeout s = .next s ∧ exec .heartbeatSend s = .next s ∧ exec .heartbeatLost s = .next s
      ∧ (∀ h, exec (.heartbeatReceived h) s = .next s) ∧ ∀ m, s.privileged m = true → exec (.bellowsDisable m) s = .next s)
  ∧ (∀ (s : State) (m : Master), s.privileged m = false →
    exec (.bellowsDisable m) s = .next (s.pvDropped m false true (F.BLW_CTL_enable.addr 0 0)))
  ∧ (∀ (s : State) (m : Master), s.privileged m = true → s.on F.BLW_CTL_enable = true →
    ∃ t, exec (.bellowsDisable m) s = .next t ∧ t.rd F.BLW_CTL_enable = 0 ∧ t.rd F.BLW_STAT_link = 0 ∧ t.rd F.BLW_STAT_lanes = 0
      ∧ t.rd F.GLB_STAT_role = 0 ∧ t.mode = (if s.mode = 6 then 2 else s.mode) ∧ t.bellows = { swaps := s.bellows.swaps })
  ∧ (∀ s : State, s.on F.BLW_CTL_enable = true → s.running = true → s.rd F.GLB_STAT_role = 2 →
    ∃ t h, exec .heartbeatSend s = .next t ∧ t.bellows.sent = some h ∧ h.cycle = BitVec.ofNat 32 (s.tim.cycle + 1) ∧ h.role = 2
      ∧ h.epoch.toNat = s.rd F.BLW_STAT_epoch ∧ h.swap = 0)
  ∧ (∀ (s : State) (h : Heartbeat), s.on F.BLW_CTL_enable = true → s.on F.BLW_STAT_link = true → s.rd F.GLB_STAT_role = 2 → h.role = 1 →
      s.combway.silenced = false → s.bellows.lost = none →
    ∃ t, exec (.heartbeatReceived h) s = .next t ∧ t.rd F.BLW_STAT_epoch = h.epoch.toNat ∧ t.rd F.BLW_STAT_partner_role = 1
      ∧ t.rd F.BLW_PDIGEST_digest = h.digest.toNat ∧ t.rd F.BLW_STAT_hb_lost = 0 ∧ t.bellows.heard = some h.cycle.toNat
      ∧ t.bellows.partnerSwap = h.swap.toNat)
  ∧ (∀ (s : State) (h : Heartbeat), s.on F.BLW_CTL_enable = true → s.on F.BLW_STAT_link = true → s.rd F.GLB_STAT_role = 1 → h.role = 1 →
      s.combway.silenced = false → 0 < sgn 16 (uns 16 ((h.epoch.toNat : Int) - s.rd F.BLW_STAT_epoch)) →
    ∃ t, exec (.heartbeatReceived h) s = .next t ∧ t.combway.silenced = true ∧ t.hif.desc = [])
  ∧ (∀ s : State, s.on F.BLW_CTL_enable = true → s.running = true → s.nextJudged = s.tim.cycle → s.rd F.BLW_STAT_hb_lost = 1 → s.takesEvent 108 →
    ∃ t, exec .heartbeatLost s = .next t ∧ t.rd F.BLW_STAT_hb_lost = 2 ∧ t.bellows.lost = some s.tim.cycle ∧ t.hasEvent 108 1 0xFFFF)
  ∧ (∀ (s : State) (m : Mirror), s.mode ≠ 6 → exec (.mirrorApply m) s = .next s)
  ∧ (∀ (s : State) (m : Mirror), s.mode = 6 → s.on F.BLW_CTL_enable = true → s.on F.BLW_STAT_link = true → m.complete = false →
    exec (.mirrorApply m) s = .next ((s.bump F.BLW_ERR_incomplete).setBellows { s.bellows with mirrors := 0 }))
  ∧ (∀ (s : State) (m : Mirror), s.mode = 6 → s.on F.BLW_CTL_enable = true → s.on F.BLW_STAT_link = true → m.complete = true →
    ∃ t, exec (.mirrorApply m) s = .next t ∧ t.rd F.BLW_MIRROR_age = 0 ∧ t.bellows.mirrorAt = some s.tim.cycle ∧ t.hif = s.hif
      ∧ t.rd F.BLW_MIRROR_kib = m.kib.toNat % 2 ^ 16)
  ∧ (∀ (s : State) (n : Fin 4), bitAt (s.rd F.BLW_STAT_lanes) n = false → exec (.laneLoss n) s = .next s)
  ∧ (∀ (s : State) (n : Fin 4), bitAt (s.rd F.BLW_STAT_lanes) n = true → s.takesEvent 110 →
    ∃ t, exec (.laneLoss n) s = .next t ∧ bitAt (t.rd F.BLW_STAT_lanes) n = false ∧ t.hasEvent 110 1 0xFFFF
      ∧ (∀ k, k < 4 → k ≠ n.val → bitAt (t.rd F.BLW_STAT_lanes) k = bitAt (s.rd F.BLW_STAT_lanes) k)
      ∧ (s.rd F.BLW_STAT_lanes = 2 ^ n.val → t.rd F.BLW_STAT_link = 0))
  ∧ (∀ (s : State) (n : Fin 4), s.on F.BLW_CTL_enable = false ∨ bitAt (s.rd F.BLW_STAT_lanes) n = true → exec (.laneRestore n) s = .next s)
  ∧ (∀ (s : State) (n : Fin 4), s.on F.BLW_CTL_enable = true → bitAt (s.rd F.BLW_STAT_lanes) n = false → s.takesEvent 110 →
    ∃ t, exec (.laneRestore n) s = .next t ∧ bitAt (t.rd F.BLW_STAT_lanes) n = true ∧ t.rd F.BLW_STAT_link = 1 ∧ t.hasEvent 110 2 0xFFFF)

/-- Takeover and the planned swap. A ready standby whose active partner has been lost takes over with a new epoch; one that is not
ready says so; a swap is accepted with its cycle, and executed on both devices when that cycle has come.  (Rests on R434 to
R439.) -/
def Obligations.TakeoverAndSwap : Prop :=
  (∀ s : State, s.mode ≠ 6 → exec .takeover s = .next s)
  ∧ (∀ (s : State) (g k : Nat), s.timingSeg = some g →
      (List.range (Sched.slots (s.sched g))).find? (fun k => (Sched.slot (s.sched g) k).owner == s.ownNode g) = some k →
      s.mode = 6 → s.on F.BLW_CTL_enable = true → s.running = true → s.combway.silenced = false → 2 ≤ s.rd F.BLW_STAT_hb_lost →
      s.bellows.lost = some s.tim.cycle → s.frameMissing g k = true → s.isReady = true → (∀ p ∈ s.bellows.numbers, p.1 < 128) →
    ∃ t, exec .takeover s = .next t ∧ t.rd F.GLB_STAT_role = 1 ∧ t.mode = (if s.bellows.mode = 4 then 4 else 3)
      ∧ t.rd F.BLW_STAT_epoch = (s.rd F.BLW_STAT_epoch + 1) % 2 ^ 16)
  ∧ (∀ (s : State) (g k : Nat), s.timingSeg = some g →
      (List.range (Sched.slots (s.sched g))).find? (fun k => (Sched.slot (s.sched g) k).owner == s.ownNode g) = some k →
      s.mode = 6 → s.on F.BLW_CTL_enable = true → s.running = true → s.combway.silenced = false → 2 ≤ s.rd F.BLW_STAT_hb_lost →
      s.bellows.lost = some s.tim.cycle → s.frameMissing g k = true → s.isReady = false → s.takesEvent 109 →
    ∃ t, exec .takeover s = .next t ∧ t.mode = 6 ∧ t.rd F.GLB_STAT_role = s.rd F.GLB_STAT_role ∧ t.hasEvent 109 3 0xFFFF)
  ∧ (∀ (s : State) (r : Fin 64) (d : Desc), s.Starts r 0x0510 d → s.mode = 3 ∨ s.mode = 4 → s.rd F.GLB_STAT_role = 1 → d.op 32 4 = 0 →
    ∃ t, exec (.pairSwap r) s = .next t ∧ t.bellows = { s.bellows with swaps := s.bellows.swaps ++ [(d.id, (s.tim.cycle + 16) % 2 ^ 32)] }
      ∧ t.hif.compl = s.hif.compl)
  ∧ (∀ (s : State) (r : Fin 64) (d : Desc), s.Starts r 0x0510 d → (s.mode ≠ 3 ∧ s.mode ≠ 4) ∨ s.rd F.GLB_STAT_role ≠ 1 →
    ∃ t, exec (.pairSwap r) s = .next t ∧ t.Completed d 0x15 ∧ t.bellows = s.bellows)
  ∧ (∀ (s : State) (r : Fin 64) (d : Desc), s.Starts r 0x0510 d → s.mode = 3 ∨ s.mode = 4 → s.rd F.GLB_STAT_role = 1 → d.op 32 4 ≠ 0 →
      sgn 32 (uns 32 ((d.op 32 4 : Int) - s.tim.cycle)) < 8 →
    ∃ t, exec (.pairSwap r) s = .next t ∧ t.Completed d 0x12 ∧ t.bellows = s.bellows)
  ∧ (∀ (s : State) (d : Desc) (c : Nat), s.mode = 3 ∨ s.mode = 4 → s.rd F.GLB_STAT_role = 1 → s.bellows.swaps = [(d.id, c)] →
      s.swapDue c = true → s.on F.BLW_STAT_partner_ready = true → s.rd F.BLW_STAT_hb_lost = 0 → s.hif.desc = [d] → d.quiet = false →
      s.ringClass d.ring ≠ 1 →
    ∃ t, exec (.swapExecute true true) s = .next t ∧ t.mode = 6 ∧ t.rd F.GLB_STAT_role = 2 ∧ t.bellows.swaps = [] ∧ t.Completed d 1)
  ∧ (∀ (s : State) (d : Desc) (c : Nat) (a b : Bool), s.mode = 3 ∨ s.mode = 4 → s.rd F.GLB_STAT_role = 1 → s.bellows.swaps = [(d.id, c)] →
      s.swapDue c = true → s.on F.BLW_STAT_partner_ready = false → s.hif.desc = [d] → d.quiet = false →
    ∃ t, exec (.swapExecute a b) s = .next t ∧ t.mode = s.mode ∧ t.rd F.GLB_STAT_role = 1 ∧ t.bellows.swaps = [] ∧ t.Completed d 1)
  ∧ (∀ (s : State) (a b : Bool), s.mode = 3 ∨ s.mode = 4 → s.bellows.swaps = [] → exec (.swapExecute a b) s = .next s)
  ∧ (∀ s : State, s.mode = 6 → s.bellows.partnerSwap ≠ 0 → s.swapDue s.bellows.partnerSwap = true → s.isReady = true →
      s.rd F.BLW_STAT_hb_lost = 0 → (∀ p ∈ s.bellows.numbers, p.1 < 128) →
    ∃ t, exec (.swapExecute true true) s = .next t ∧ t.rd F.GLB_STAT_role = 1 ∧ t.bellows.partnerSwap = 0
      ∧ t.mode = (if s.bellows.mode = 4 then 4 else 3))

/-- A mode request. Each of the seven stores its target, shows PENDING and waits with the privilege of its master; a request while
one is pending is ignored. The pending request is applied or refused. An unprivileged one for a target that needs privilege is
refused with 4, one outside the table with 2, one whose condition fails with 3 and the condition; those from COMMISSION to RUN,
HOLD and STAGE, from RUN to HOLD, from RUN and HOLD to COMMISSION, and to SENTINEL take the device to their target.  (Rests on
R443, R445, R443 to R447.) -/
def Obligations.ModeCommands : Prop :=
  (∀ (s : State) (m : Master) (k : Bool) (c : Instr) (n : Nat),
    (c, n) ∈ [(Instr.modeRequestRun m, 3), (.modeRequestHold m, 4), (.modeRequestCommission m, 2), (.modeRequestStage m, 7),
      (.modeRequestSentinel m, 5), (.modeRequestStandby m, 6), (.modeRequestColdKindle m k, if k then 1 else 0)] →
    (s.rd F.GLB_MODE_REQ_status = 1 → exec c s = .next (s.wrIgnored .plain 0 (F.GLB_MODE_REQ_target.addr 0 0)))
    ∧ (s.rd F.GLB_MODE_REQ_status ≠ 1 →
      ∃ t, exec c s = .next t ∧ t.rd F.GLB_MODE_REQ_target = n ∧ t.rd F.GLB_MODE_REQ_status = 1 ∧ t.rd F.GLB_MODE_REQ_why = 0
        ∧ t.glb = { s.glb with modeReq := some { target := n, priv := s.privileged m, cellAt := s.cellNs, tickAt := s.tick } }
        ∧ t = { s with regs := t.regs, glb := t.glb } ∧ s.OnlyWords t [F.GLB_MODE_REQ_target.off]))
  ∧ ((∀ s : State, s.glb.modeReq = none → exec .modeTransition s = .next s)
  ∧ (∀ (s : State) (q : ModeReq), s.glb.modeReq = some q → s.glb.sentinelDue ≠ none → exec .modeTransition s = .next s)
  ∧ (∀ (s : State) (q : ModeReq), s.glb.modeReq = some q → s.running = true → cellDiff s.tim.lastInstant (q.cellAt + 2000) < 0 →
    exec .modeTransition s = .next s)
  ∧ (∀ (s : State) (q : ModeReq), s.glb.modeReq = some q → s.glb.sentinelDue = none → s.running = false →
    (needsPriv s.mode q.target = true → q.priv = false →
      ∃ t, exec .modeTransition s = .next t ∧ t.rd F.GLB_MODE_REQ_status = 4 ∧ t.rd F.GLB_MODE_REQ_why = 0
        ∧ t.glb = { s.glb with modeReq := none } ∧ s.OnlyWords t [F.GLB_MODE_REQ_target.off])
    ∧ (needsPriv s.mode q.target = false ∨ q.priv = true → inTable s.mode q.target = false →
      ∃ t, exec .modeTransition s = .next t ∧ t.rd F.GLB_MODE_REQ_status = 2 ∧ t.glb = { s.glb with modeReq := none }
        ∧ s.OnlyWords t [F.GLB_MODE_REQ_target.off])
    ∧ (s.mode = 2 → q.target = 3 ∨ q.target = 4 → s.on F.QNC_STAT_confirmed = false →
      ∃ t, exec .modeTransition s = .next t ∧ t.rd F.GLB_MODE_REQ_status = 3 ∧ t.rd F.GLB_MODE_REQ_why = 1 ∧ t.mode = 2
        ∧ t.glb = { s.glb with modeReq := none })
    ∧ (s.mode = 2 → q.target = 3 ∨ q.target = 4 → s.runWhy = 0 → s.roleChoice = 0 ∨ s.roleChoice = 5 →
      ∃ t, exec .modeTransition s = .next t ∧ t.mode = q.target ∧ t.rd F.GLB_STAT_role = 0 ∧ t.rd F.GLB_MODE_REQ_status = 0
        ∧ t.rd F.GLB_MODE_INFO_previous = 2 ∧ t.rd F.GLB_MODE_INFO_cause = 2)
    ∧ (s.mode = 3 → q.target = 4 →
      ∃ t, exec .modeTransition s = .next t ∧ t.mode = 4 ∧ t.rd F.GLB_MODE_REQ_status = 0 ∧ t.rd F.GLB_MODE_INFO_previous = 3
        ∧ t.rd F.GLB_MODE_INFO_cause = 2)
    ∧ (s.mode = 3 ∨ s.mode = 4 → q.target = 2 → q.priv = true → (∀ c, c < 16 → (s.chain c).state = 0 ∨ (s.chain c).state = 4) →
      ∃ t, exec .modeTransition s = .next t ∧ t.mode = 2 ∧ t.rd F.GLB_STAT_role = 0 ∧ t.rd F.GLB_MODE_REQ_status = 0)
    ∧ (s.mode = 2 → q.target = 7 → q.priv = true → (∀ c, c < 16 → (s.chain c).state = 0) → s.on F.QNC_STAT_sto_all = true →
      ∃ t, exec .modeTransition s = .next t ∧ t.mode = 7 ∧ t.rd F.GLB_MODE_REQ_status = 0 ∧ ∀ n, n < 64 → t.rd F.TMP_CTL_enable n = 0)
    ∧ (sentinelFrom s.mode = true → q.target = 5 → q.priv = true →
      ∃ t, exec .modeTransition s = .next t ∧ t.mode = 5 ∧ t.rd F.GLB_MODE_INFO_cause = 10)))

/-- SENTINEL. A due cause takes the device there: its descriptors end, its cores are held in reset with nothing ready, and their
epochs advance; at the first common instant 2 µs later the ramps replace the windows. The firmware watchdog that nobody serves
is such a cause. Errors of DDR. A read that its retry does not correct raises source 15; outside the Waxbook extension and the
trace ring DDR is given up and SENTINEL is due with cause 5; a fault of the controller is cause 6; the corrected errors are
reported.  (Rests on R448 to R451, R463, R45, R448, R488, R513.) -/
def Obligations.SentinelAndDdr : Prop :=
  ((∀ s : State, s.glb.sentinelDue = none → exec .sentinelEntry s = .next s)
  ∧ (∀ (s : State) (c : Nat), s.glb.sentinelDue = some c → sentinelFrom s.mode = false →
    exec .sentinelEntry s = .next { s with glb := { s.glb with sentinelDue := none } })
  ∧ (∀ (s : State) (c : Nat), s.glb.sentinelDue = some c → sentinelFrom s.mode = true →
    ∃ t, exec .sentinelEntry s = .next t ∧ t.mode = 5 ∧ t.rd F.GLB_MODE_INFO_cause = c % 16 ∧ t.rd F.GLB_MODE_INFO_previous = s.mode
      ∧ t.rd F.HIF_STAT_sentinel = 1 ∧ t.hif.desc = [] ∧ t.hive.items = [] ∧ t.glb.sentinelDue = none ∧ t.glb.sentinelAt = some s.cellNs
      ∧ ∀ c, c < 32 → (t.core c).inReset = true ∧ (t.core c).epoch = ((s.core c).epoch + 1) % 16)
  ∧ (∀ s : State, s.glb.sentinelAt = none → exec .sentinelRampSwitch s = .next s)
  ∧ (∀ (s : State) (k : Nat), s.glb.sentinelAt = some k → s.running = false ∨ cellDiff s.tim.lastInstant (k + 2000) < 0 →
    exec .sentinelRampSwitch s = .next s)
  ∧ (∀ (s : State) (k : Nat), s.glb.sentinelAt = some k → s.running = true → 0 ≤ cellDiff s.tim.lastInstant (k + 2000) →
    ∃ t, exec .sentinelRampSwitch s = .next t ∧ t.glb.sentinelAt = none ∧ t.hif = s.hif ∧ t.plan = s.plan
      ∧ ∀ n, n < 64 → ∀ c, c < 16 → s.chainSlots n c ≠ [] →
          (((s.eng n).chainWin c).active = none → ((t.eng n).chainWin c).active = none)
          ∧ (((s.eng n).chainWin c).active ≠ none → ∃ w, ((t.eng n).chainWin c).active = some w ∧ w.ramp = true
              ∧ w.len = 0xFFFFFFFF))
  ∧ (∀ (s : State) (c : Fin 32),
    exec (.fwWatchdogServe (.forager c) 0xA5A5) s = .next { s with glb := { s.glb with wdtServed := s.tick } })
  ∧ (∀ (s : State) (m : Master) (v : BitVec 16), (∀ c, m ≠ .forager c) ∨ v ≠ 0xA5A5 →
    exec (.fwWatchdogServe m v) s = .next (s.wrIgnored .plain 0 (F.GLB_FW_WDT_serve.addr 0 0)))
  ∧ (∀ s : State, s.upd.boot < 6 ∨ s.mode = 1 ∨ s.mode = 5 → exec .fwWatchdogExpiry s = .next s)
  ∧ (∀ s : State, 6 ≤ s.upd.boot → sentinelFrom s.mode = true → s.mode ≠ 5 → s.glb.sentinelDue = none →
    ∃ t, exec .fwWatchdogExpiry s = .next t ∧ t.glb = { s.glb with sentinelDue := some 7 } ∧ t.regs = s.regs
      ∧ s.glb.wdtServed + ms (s.rd F.GLB_FW_WDT_timeout) ≤ t.tick))
  ∧ ((∀ (s : State) (ch : Fin 2) (a : DWord), exec (.ddrUncorrectableRead ch a true) s = .next s)
  ∧ (∀ (s : State) (ch : Fin 2) (a : DWord), s.takesEvent 15 →
    ∃ t, exec (.ddrUncorrectableRead ch a false) s = .next t ∧ t.hasEvent 15 1 ch
      ∧ (s.inExtension a.toNat = true → t.rd F.WAX_STAT_ext_fault = 1 ∧ t.glb = s.glb ∧ t.rd F.GLB_STAT_ddr_ok = s.rd F.GLB_STAT_ddr_ok)
      ∧ (s.inExtension a.toNat = false →
          if Config.traceBase ≤ a.toNat ∧ a.toNat < Config.traceBase + Config.traceSize then
            t.glb = s.glb ∧ t.rd F.GLB_STAT_ddr_ok = s.rd F.GLB_STAT_ddr_ok
          else t.rd F.GLB_STAT_ddr_ok = 0 ∧ (sentinelFrom s.mode = true → s.glb.sentinelDue = none → t.glb.sentinelDue = some 5)))
  ∧ (∀ (s : State) (ch : Fin 2), s.takesEvent 15 →
    ∃ t, exec (.ddrControllerFault ch) s = .next t ∧ t.hasEvent 15 2 ch ∧ t.rd F.GLB_STAT_ddr_ok = 0
      ∧ (s.on F.GLB_STAT_ddr_ok = true → sentinelFrom s.mode = true → s.glb.sentinelDue = none → t.glb.sentinelDue = some 6)
      ∧ (s.on F.GLB_STAT_ddr_ok = false → t.glb = s.glb))
  ∧ (∀ (s : State) (ch : Fin 2) (n : Word),
    exec (.ddrCorrectableThreshold ch n) s = .next (s.raise 14 1 ch (detail [(4, n.toNat)]))))

/-- The device resets. Each leaves its cause, counts one more warm reset and keeps flash, the fused values, host memory and the
records on the chip; descriptors, the planner, Temper and Combway start anew. A power-on reset loses DDR as well. A short pulse
on the pin resets nothing, a long one always does, and one between either (log entry 5). A PLL loses lock. The loss latches and
is reported; FAB and CMB reset the device, APP and MEM are causes of SENTINEL, HST resets the host interface, ETH stops the
ports and Bellows, SAF turns Quench's outputs off.  (Rests on R457 to R461, R489, R507, R90, R509, R359, R51, R513.) -/
def Obligations.ResetsAndPlls : Prop :=
  ((∀ (s : State) (c : Instr) (k : Nat),
      (c, k) ∈ [(Instr.farrierWatchdogReset, 4), (.softwareReset .farrier, 3), (.softwareReset .quench, 3), (.pinReset 10000, 2)] →
      s.glb.posted = [] →
    ∃ t, exec c s = .next t ∧ t = s.deviceReset k ∧ t.rd F.CLK_RST_CAUSE_cause = k
      ∧ t.rd F.CLK_RST_CAUSE_warm = min (2 ^ F.CLK_RST_CAUSE_warm.width - 1) (s.rd F.CLK_RST_CAUSE_warm + 1)
      ∧ t.mode = 0 ∧ t.upd.boot = 0 ∧ t.hif.desc = [] ∧ t.hif.compl = [] ∧ t.plan = {} ∧ t.temper = {} ∧ t.combway = {}
      ∧ t.otp = s.otp ∧ t.hostMem = s.hostMem ∧ t.upd.flash0 = s.upd.flash0 ∧ t.upd.flash1 = s.upd.flash1
      ∧ t.upd.slot0 = s.upd.slot0 ∧ t.upd.slot1 = s.upd.slot1 ∧ t.quench.stored = s.quench.stored ∧ t.quench.record = s.quench.record
      ∧ t.wax.store = s.wax.store ∧ t.tick = s.tick ∧ t.pending = s.pending)
  ∧ (∀ (s : State) (w : Word), w.toNat < 1000 → exec (.pinReset w) s = .next s)
  ∧ (∀ (s : State) (w : Word), 10000 ≤ w.toNat → exec (.pinReset w) s = .next (s.deviceReset 2))
  ∧ (∀ (s : State) (w : Word), 1000 ≤ w.toNat → w.toNat < 10000 →
    exec (.pinReset w) s = .next s.drawn ∨ exec (.pinReset w) s = .next (s.drawn.deviceReset 2))
  ∧ (∀ (s : State) (m : Master), s.privileged m = false →
    exec (.softwareReset m) s = .next (s.pvDropped m false true (F.CLK_RST_CTL_dev_reset.addr 0 0)))
  ∧ (∀ (s : State) (m : Master), s.privileged m = true → (∃ p ∈ s.glb.posted, p.off = F.CLK_RST_CTL_dev_reset.addr 0 0) →
    exec (.softwareReset m) s = .next (s.wrIgnored .plain 0 (F.CLK_RST_CTL_dev_reset.addr 0 0)))
  ∧ (∀ s : State,
    ∃ t, exec .powerOnReset s = .next t ∧ t.mode = 0 ∧ t.upd.boot = 0 ∧ t.tick = 0 ∧ t.ddr = [] ∧ t.sram = [] ∧ t.clk = {}
      ∧ t.quench.railOut = false ∧ t.otp = s.otp ∧ t.upd.flash0 = s.upd.flash0 ∧ t.upd.flash1 = s.upd.flash1
      ∧ t.quench.stored = s.quench.stored ∧ t.hostMem = s.hostMem ∧ t.wax.store = [])
  ∧ (∀ s : State, exec .staleResponseDiscard s = .next s))
  ∧ ((∀ (s : State) (k : Fin 7), k.val = 0 ∨ k.val = 4 →
    ∃ t, exec (.pllUnlock k) s = .next t ∧ t.rd F.CLK_RST_CAUSE_cause = 6 ∧ t.upd.boot = 0 ∧ t.mode = 0
      ∧ bitAt (t.rd F.CLK_PLL_STAT_unlock) k = true ∧ bitAt (t.rd F.CLK_PLL_STAT_locked) k = false)
  ∧ (∀ (s : State) (k : Fin 7), k.val ≠ 0 → k.val ≠ 4 → k.val ≠ 3 → s.takesEvent 127 →
    ∃ t, exec (.pllUnlock k) s = .next t ∧ t.hasEvent 127 1 0xFFFF ∧ bitAt (t.rd F.CLK_PLL_STAT_unlock) k = true
      ∧ bitAt (t.rd F.CLK_PLL_STAT_locked) k = false
      ∧ (∀ j, j < 7 → j ≠ k.val → bitAt (t.rd F.CLK_PLL_STAT_locked) j = bitAt (s.rd F.CLK_PLL_STAT_locked) j))
  ∧ (∀ (s : State) (k : Fin 7), k.val = 1 ∨ k.val = 2 → sentinelFrom s.mode = true → s.glb.sentinelDue = none →
    ∃ t, exec (.pllUnlock k) s = .next t ∧ t.glb = { s.glb with sentinelDue := some 9 })
  ∧ (∀ s : State, ∃ t, exec (.pllUnlock 3) s = .next t ∧ t.hif.epoch = (s.hif.epoch + 1) % 16
      ∧ (∀ r, r < 64 → t.rd F.HIF_SQ_CTL_enable r = 0 ∧ t.rd F.HIF_CQ_CTL_enable r = 0) ∧ t.rd F.HIF_STAT_host_priv = 0)
  ∧ (∀ s : State, ∃ t, exec (.pllUnlock 5) s = .next t ∧ t.rd F.BLW_STAT_lanes = 0 ∧ t.rd F.BLW_STAT_link = 0
      ∧ ∀ n, n < 2 → t.rd F.ETH_STAT_link n = 0)
  ∧ (∀ s : State, ∃ t, exec (.pllUnlock 6) s = .next t ∧ t.quench = { s.quench with safStopped := true } ∧ t.rd F.QNC_OUT_STAT_on = 0
      ∧ ∀ b, b < 16 → t.rd F.QNC_BRK_STAT_state b ≠ 2 ∧ t.rd F.QNC_BRK_STAT_state b ≠ 3))

/-- The boot. Each phase follows the one before it; the KINDLE pin or a request leads to KINDLE with its cause; DDR that does not
train resets the device into KINDLE; the settings are read or converted; the boot ends in COMMISSION, or in RUN where the
settings say so and the parameter set is confirmed.  (Rests on R444, R453, R462, R463, R477.) -/
def Obligations.BootPhases : Prop :=
  (∀ s : State, s.upd.boot = 0 → s.clk.hot = false → s.clk.railHeld = 0 →
    exec .resetRelease s = .next { s with upd := { s.upd with boot := 1 } })
  ∧ (∀ s : State, s.upd.boot ≠ 0 ∨ s.clk.hot = true ∨ s.clk.railHeld ≠ 0 → exec .resetRelease s = .next s)
  ∧ (∀ s : State, s.upd.boot = 1 → ∃ t, exec .pllLock s = .next t ∧ t.upd.boot = 2 ∧ t.rd F.CLK_PLL_STAT_locked = 127
      ∧ s.OnlyWords t [F.CLK_PLL_STAT_locked.off])
  ∧ (∀ s : State, s.upd.boot ≠ 1 → exec .pllLock s = .next s)
  ∧ (∀ (s : State) (p : Bool), s.upd.boot ≠ 2 → exec (.otpReadDone p) s = .next s)
  ∧ (∀ s : State, s.upd.boot = 2 → s.on F.CLK_RST_CTL_kindle_next = false →
    ∃ t, exec (.otpReadDone false) s = .next t ∧ t.upd = { s.upd with boot := 3 } ∧ t.rd F.GLB_STAT_owned = (if s.otp.owner then 1 else 0)
      ∧ t.rd F.UPD_FUSE_rollback = s.otp.rollback % 2 ^ F.UPD_FUSE_rollback.width ∧ t.mode = s.mode
      ∧ ∀ k, k < 4 → t.rd F.GLB_UID_uid k = Config.uid.toNat / 2 ^ (32 * k) % 2 ^ 32)
  ∧ (∀ (s : State) (p : Bool), s.upd.boot = 2 → p = true ∨ s.on F.CLK_RST_CTL_kindle_next = true →
    ∃ t, exec (.otpReadDone p) s = .next t ∧ t.mode = 1 ∧ t.upd.boot = 8 ∧ t.rd F.CLK_RST_CTL_kindle_next = 0
      ∧ t.upd.kindle = (if p then 11 else if s.upd.ddrFailed then 13 else 14) ∧ t.rd F.TMP_CTL_enable 0 = 1
      ∧ t.sched 0 = kindleBody ∧ t.quench.held = s.quench.railOut)
  ∧ (∀ (s : State) (ok : Bool), s.upd.boot ≠ 4 → exec (.ddrTrainingDone ok) s = .next s)
  ∧ (∀ s : State, s.upd.boot = 4 → ∃ t, exec (.ddrTrainingDone true) s = .next t ∧ t.upd = { s.upd with boot := 5 }
      ∧ t.rd F.GLB_STAT_ddr_ok = 1 ∧ s.OnlyWords t [F.GLB_STAT_ddr_ok.off])
  ∧ (∀ s : State, s.upd.boot = 4 → ∃ t, exec (.ddrTrainingDone false) s = .next t ∧ t.upd.boot = 0 ∧ t.upd.ddrFailed = true
      ∧ t.rd F.CLK_RST_CTL_kindle_next = 1 ∧ t.rd F.CLK_RST_CAUSE_cause = 3)
  ∧ (∀ (s : State) (f : Bool), s.upd.boot ≠ 5 ∨ f = false → exec (.foragerStart f) s = .next s)
  ∧ (∀ s : State, s.upd.boot = 5 → ∃ t, exec (.foragerStart true) s = .next t ∧ t.upd.boot = 6 ∧ t.rd F.HIV_CTL_enable = 1
      ∧ t.glb.wdtServed = s.tick ∧ ∀ n, n < 8 → t.rd F.ANV_CTL_enable n = 1)
  ∧ (∀ (s : State) (l : List Byte) (o : Option Word), s.upd.boot ≠ 6 ∨ s.mode ≠ 0 → exec (.settingsMigration l o) s = .next s)
  ∧ (∀ (s : State) (l : List Byte) (o : Option Word), s.upd.boot = 6 → s.mode = 0 → s.readableSet = none →
    exec (.settingsMigration l o) s = .next { s with upd := { s.upd with boot := 7 } })
  ∧ (∀ (s : State) (l : List Byte) (o : Option Word) (n : Nat), s.upd.boot = 6 → s.mode = 0 → s.readableSet = some n →
      (s.settingsRec n).format = s.imageFormat → s.imageFormat < 2 ^ F.UPD_SET_format.width →
    ∃ t, exec (.settingsMigration l o) s = .next t ∧ t.upd.boot = 7 ∧ t.rd F.UPD_SET_slot = n ∧ t.rd F.UPD_SET_format = s.imageFormat
      ∧ t.upd.flash0 = s.upd.flash0 ∧ t.upd.flash1 = s.upd.flash1)
  ∧ (∀ (s : State) (l : List Byte) (w : Word) (n : Nat), s.upd.boot = 6 → s.mode = 0 → s.readableSet = some n →
      (s.settingsRec n).format ≠ s.imageFormat →
    ∃ t, exec (.settingsMigration l (some w)) s = .next t ∧ t.upd.boot = 0 ∧ t.rd F.CLK_RST_CAUSE_cause = 3
      ∧ t.slotRec s.upd.running = { s.slotRec s.upd.running with state := 5, reject := 12, reason := w.toNat }
      ∧ t.upd.flash0 = s.upd.flash0 ∧ t.upd.flash1 = s.upd.flash1)
  ∧ (∀ (s : State) (l : List Byte) (n : Nat), s.upd.boot = 6 → s.mode = 0 → s.readableSet = some n →
      (s.settingsRec n).format ≠ s.imageFormat → field (s.ingotHeader s.upd.running) 354 2 ≤ (s.settingsRec n).format →
    ∃ t, exec (.settingsMigration l none) s = .next t ∧ t.upd.boot = 7 ∧ t.upd.migrated = some (1 - n) ∧ t.rd F.UPD_SET_slot = 1 - n
      ∧ (t.settingsRec (1 - n)).valid = true ∧ (t.settingsRec (1 - n)).format = s.imageFormat
      ∧ t.settingsRec n = s.settingsRec n ∧ t.flash n = s.flash n)
  ∧ (∀ (s : State) (b : Bool), s.upd.boot ≠ 7 ∨ s.mode ≠ 0 → exec (.endOfBoot b) s = .next s)
  ∧ (∀ (s : State) (b : Bool), s.upd.boot = 7 → s.mode = 0 → b = false ∨ s.on F.QNC_STAT_confirmed = false →
    ∃ t, exec (.endOfBoot b) s = .next t ∧ t.mode = 2 ∧ t.upd.boot = 8 ∧ t.rd F.GLB_MODE_INFO_cause = 1)
  ∧ (∀ s : State, s.upd.boot = 7 → s.mode = 0 → s.on F.QNC_STAT_confirmed = true → s.roleChoice = 0 →
    ∃ t, exec (.endOfBoot true) s = .next t ∧ t.mode = 3 ∧ t.upd.boot = 8 ∧ t.rd F.GLB_MODE_INFO_cause = 1)

/-- The image slots. The slot tried first boots where it passes every check, one on trial with one trial more; a slot that fails is
REJECTED with its code and the other is tried, with a note; where both fail the device enters KINDLE with cause 12.  (Rests on
R462, R471, R472.) -/
def Obligations.ImageSlotChoice : Prop :=
  (∀ s : State, s.upd.boot ≠ 3 ∨ s.upd.kindle ≠ 0 → exec .imageSlotChoice s = .next s)
  ∧ (∀ s : State, s.upd.boot = 3 → s.upd.kindle = 0 → s.bootCheck s.firstSlot = 0 →
    ∃ t, exec .imageSlotChoice s = .next t ∧ t.upd.boot = 4 ∧ t.upd.running = s.firstSlot ∧ t.rd F.UPD_STAT_running = s.firstSlot
      ∧ t.rd F.UPD_BOOT_NOTE_first = s.firstSlot ∧ t.quench.held = s.quench.railOut ∧ t.hif = s.hif
      ∧ (let r := s.slotRec s.firstSlot
         (r.state = 1 ∨ r.state = 2 → t.slotRec s.firstSlot = { r with state := 2, trials := r.trials + 1 } ∧ t.rd F.UPD_STAT_confirmed = 0)
         ∧ (r.state = 3 → t.slotRec s.firstSlot = r ∧ t.rd F.UPD_STAT_confirmed = 1)))
  ∧ (∀ (s : State) (k : Nat), s.upd.boot = 3 → s.upd.kindle = 0 → s.bootCheck s.firstSlot = k → k ≠ 0 →
      (s.rejectSlot s.firstSlot k).bootCheck (1 - s.firstSlot) = 0 →
    ∃ t, exec .imageSlotChoice s = .next t ∧ t.upd.boot = 4 ∧ t.upd.running = 1 - s.firstSlot ∧ t.rd F.UPD_BOOT_NOTE_fell_back = 1
      ∧ t.rd F.UPD_BOOT_NOTE_reject = k ∧ (t.slotRec s.firstSlot).state = 5 ∧ (t.slotRec s.firstSlot).reject = k)
  ∧ (∀ s : State, s.upd.boot = 3 → s.upd.kindle = 0 → s.bootCheck s.firstSlot ≠ 0 →
      (s.rejectSlot s.firstSlot (s.bootCheck s.firstSlot)).bootCheck (1 - s.firstSlot) ≠ 0 →
    ∃ t, exec .imageSlotChoice s = .next t ∧ t.mode = 1 ∧ t.upd.kindle = 12 ∧ (t.slotRec 0).state = 5 ∧ (t.slotRec 1).state = 5)

/-- Staging. STAGE_OPEN takes the lock of its source and empties the slot; writes come in order and end when flash has programmed
them; STAGE_COMMIT leaves the slot STAGED and the lock free; a release and the timeout free the lock. The Ethernet service has
the same operations and receives the status.  (Rests on R447, R468 to R470, R480.) -/
def Obligations.StagingCommands : Prop :=
  (∀ (s : State) (r : Fin 64) (d : Desc), s.Starts r 0x0801 d →
    (s.mode ≠ 7 → s.mode ≠ 1 → ∃ t, exec (.stageOpen r) s = .next t ∧ t.Completed d 0x15 ∧ t.upd = s.upd)
    ∧ (s.mode = 7 → (s.slotRec s.upd.running).state = 3 → d.op 36 1 = 0xFF → s.rd F.UPD_STAGE_owner = 2 →
        ∃ t, exec (.stageOpen r) s = .next t ∧ t.Completed d 0x40 ∧ t.upd = s.upd)
    ∧ (s.mode = 7 → (s.slotRec s.upd.running).state = 3 → d.op 36 1 = 0xFF → s.rd F.UPD_STAGE_owner = 0 →
        100663296 < d.op 32 4 → ∃ t, exec (.stageOpen r) s = .next t ∧ t.Completed d 0x41 ∧ t.upd = s.upd)
    ∧ (s.mode = 7 → (s.slotRec s.upd.running).state = 3 → d.op 36 1 = 0xFF → s.rd F.UPD_STAGE_owner = 0 →
        640 ≤ d.op 32 4 → d.op 32 4 ≤ 100663296 → s.takesEvent 114 →
        ∃ t, exec (.stageOpen r) s = .next t ∧ t.Completed d 1 ∧ t.rd F.UPD_STAGE_owner = 1 ∧ t.rd F.UPD_STAGE_slot = s.inactiveSlot
          ∧ t.rd F.UPD_STAGE_written = 0 ∧ t.upd.written = 0 ∧ t.upd.length = d.op 32 4 ∧ t.upd.lockTick = s.tick
          ∧ t.slotRec s.inactiveSlot = {} ∧ t.slotRec s.upd.running = s.slotRec s.upd.running ∧ t.hasEvent 114 1 0xFFFF))
  ∧ (∀ (s : State) (r : Fin 64) (io : HostIo) (d : Desc), s.Starts r 0x0802 d → s.mode = 7 →
    (s.rd F.UPD_STAGE_owner ≠ 1 → ∃ t, exec (.stageWrite r io) s = .next t ∧ t.Completed d 0x42 ∧ t.upd = s.upd)
    ∧ (s.rd F.UPD_STAGE_owner = 1 → d.op 32 4 ≠ s.upd.written ∨ s.upd.length < d.op 32 4 + d.op 24 4 →
        ∃ t, exec (.stageWrite r io) s = .next t ∧ t.Completed d 0x12 ∧ t.upd = s.upd)
    ∧ (s.rd F.UPD_STAGE_owner = 1 → d.op 32 4 = s.upd.written → d.op 32 4 + d.op 24 4 ≤ s.upd.length → io.bodyErr = false →
        ∃ t, exec (.stageWrite r io) s = .next t ∧ t.hif.compl = s.hif.compl
          ∧ t.upd = { s.upd with jobs := s.upd.jobs ++ [.stage (some d.id) (d.op 32 4) io.body] }))
  ∧ (∀ (s : State) (r : Fin 64) (d : Desc), s.Starts r 0x0803 d → s.mode = 7 → s.rd F.UPD_STAGE_owner = 1 →
    (s.upd.written < s.upd.length → ∃ t, exec (.stageCommit r) s = .next t ∧ t.Completed d 0x12 ∧ t.upd = s.upd)
    ∧ (s.upd.length ≤ s.upd.written → s.takesEvent 114 → s.hif.events.length < 767 → s.rd F.HIF_EVT_MAP_enable 115 ≠ 0 →
        s.on F.WAX_CTL_enable = false →
        ∃ t, exec (.stageCommit r) s = .next t ∧ t.Completed d 1 ∧ t.rd F.UPD_STAGE_owner = 0
          ∧ t.slotRec (s.rd F.UPD_STAGE_slot) = { state := 1 } ∧ t.rd F.UPD_SLOT_REC_state (s.rd F.UPD_STAGE_slot) = 1
          ∧ t.hasEvent 114 1 0xFFFF ∧ t.hasEvent 115 1 0xFFFF))
  ∧ (∀ (s : State) (r : Fin 64) (d : Desc), s.Starts r 0x0804 d → s.mode = 7 → s.rd F.UPD_STAGE_owner = 1 → s.takesEvent 114 →
    ∃ t, exec (.stageRelease r) s = .next t ∧ t.Completed d 1 ∧ t.rd F.UPD_STAGE_owner = 0 ∧ t.upd = s.upd ∧ t.hasEvent 114 1 0xFFFF)
  ∧ (∀ (s : State) (op : StageOp), s.mode ≠ 7 → exec (.ethernetStageRequest op) s = .next { s with rdata := 0x15 })
  ∧ (∀ (s : State) (l : Word), s.mode = 7 → (s.slotRec s.upd.running).state = 3 → s.rd F.UPD_STAGE_owner = 0 → 640 ≤ l.toNat →
      l.toNat ≤ 100663296 →
    ∃ t, exec (.ethernetStageRequest (.stageOpen l)) s = .next t ∧ t.rdata = 1 ∧ t.rd F.UPD_STAGE_owner = 2 ∧ t.upd.length = l.toNat
      ∧ t.rd F.UPD_STAGE_slot = s.inactiveSlot)
  ∧ (∀ (s : State) (o : Word) (l : List Byte), s.mode = 7 → s.rd F.UPD_STAGE_owner = 2 → o.toNat = s.upd.written →
      o.toNat + l.length ≤ s.upd.length →
    exec (.ethernetStageRequest (.stageWrite o l)) s
      = .next { s with rdata := 0, upd := { s.upd with jobs := s.upd.jobs ++ [.stage none o.toNat l] } })
  ∧ (∀ s : State, s.mode = 7 → s.rd F.UPD_STAGE_owner = 2 → s.upd.length ≤ s.upd.written →
    ∃ t, exec (.ethernetStageRequest .stageCommit) s = .next t ∧ t.rdata = 1 ∧ t.rd F.UPD_STAGE_owner = 0
      ∧ t.slotRec (s.rd F.UPD_STAGE_slot) = { state := 1 })
  ∧ (∀ s : State, s.rd F.UPD_STAGE_owner = 0 → exec .stageLockTimeout s = .next s)
  ∧ (∀ s : State, s.rd F.UPD_STAGE_owner ≠ 0 → s.takesEvent 114 →
    ∃ t, exec .stageLockTimeout s = .next t ∧ t.rd F.UPD_STAGE_owner = 0 ∧ s.upd.lockTick + sec 60 ≤ t.tick ∧ t.upd = s.upd
      ∧ t.hasEvent 114 1 0xFFFF)

/-- A flash program ends. A staged write lands at its offset and moves the count, or fails with 0x13 and frees the lock; a parameter
set is stored without its confirmation; a confirmation record confirms the set that is in force; saved settings become the
current ones with the next generation. Confirmation, settings and attestation. A confirmation makes a TRIAL image CONFIRMED and
its predecessor the BACKUP, and fuses its rollback count; a save writes the slot that is not in use; the report is signed.
(Rests on R378, R379, R468, R476, R473, R474, R476, R478.) -/
def Obligations.FlashAndImages : Prop :=
  ((∀ (s : State) (ok : Bool), s.upd.jobs = [] → exec (.flashProgramComplete ok) s = .next s)
  ∧ (∀ (s : State) (id off : Nat) (d : Desc) (b : List Byte) (l : List FlashJob), s.upd.jobs = .stage (some id) off b :: l →
      s.hif.desc.find? (·.id == id) = some d → d.quiet = false → s.rd F.UPD_STAGE_owner = 1 →
    (∃ t, exec (.flashProgramComplete true) s = .next t ∧ t.Completed d 1 ∧ t.upd.jobs = l ∧ t.upd.written = off + b.length
      ∧ t.flash (s.rd F.UPD_STAGE_slot) = writeBytes (s.flash (s.rd F.UPD_STAGE_slot)) off b
      ∧ t.flash (1 - s.rd F.UPD_STAGE_slot) = s.flash (1 - s.rd F.UPD_STAGE_slot) ∧ t.upd.lockTick = s.tick)
    ∧ (∃ t, exec (.flashProgramComplete false) s = .next t ∧ t.Completed d 0x13 ∧ t.upd = { s.upd with jobs := l }
      ∧ t.rd F.UPD_STAGE_owner = 0))
  ∧ (∀ (s : State) (id : Nat) (d : Desc) (b : List Byte) (l : List FlashJob), s.upd.jobs = .sps id b :: l →
      s.hif.desc.find? (·.id == id) = some d → d.quiet = false →
    (∃ t, exec (.flashProgramComplete true) s = .next t ∧ t.Completed d 1 ∧ t.quench = { s.quench with stored := b, record := none })
    ∧ (∃ t, exec (.flashProgramComplete false) s = .next t ∧ t.Completed d 0x13 ∧ t.quench = s.quench))
  ∧ (∀ (s : State) (c : Nat) (l : List FlashJob), s.upd.jobs = .confirm c :: l → c = s.rd F.QNC_SPS_CRC_crc →
      s.on F.QNC_STAT_set_present = true → s.takesEvent 106 →
    ∃ t, exec (.flashProgramComplete true) s = .next t ∧ t.rd F.QNC_STAT_confirmed = 1 ∧ t.quench = { s.quench with record := some c }
      ∧ t.hasEvent 106 2 0xFFFF)
  ∧ (∀ (s : State) (id n : Nat) (d : Desc) (b : List Byte) (l : List FlashJob), s.upd.jobs = .settings id n b :: l → n < 2 →
      s.hif.desc.find? (·.id == id) = some d → d.quiet = false →
    (∃ t, exec (.flashProgramComplete true) s = .next t ∧ t.Completed d 1 ∧ t.rd F.UPD_SET_slot = n
      ∧ t.settingsRec n = { valid := true, format := s.imageFormat, generation := (max s.upd.set0.generation s.upd.set1.generation + 1) % 2 ^ 32, version := s.rd F.GLB_IMG_VER_version, length := b.length }
      ∧ t.settingsRec (1 - n) = s.settingsRec (1 - n))
    ∧ (∃ t, exec (.flashProgramComplete false) s = .next t ∧ t.Completed d 0x13 ∧ t.upd = { s.upd with jobs := l })))
  ∧ ((∀ (s : State) (r : Fin 64) (d : Desc), s.Starts r 0x0805 d →
    (s.mode ≠ 2 → s.mode ≠ 3 → ∃ t, exec (.imageConfirm r) s = .next t ∧ t.Completed d 0x15 ∧ t.upd = s.upd ∧ t.otp = s.otp)
    ∧ (s.mode = 2 ∨ s.mode = 3 → (s.slotRec s.upd.running).state = 3 →
        ∃ t, exec (.imageConfirm r) s = .next t ∧ t.Completed d 1 ∧ t.upd = s.upd ∧ t.otp = s.otp)
    ∧ (s.mode = 2 ∨ s.mode = 3 → (s.slotRec s.upd.running).state = 2 → s.upd.running < 2 →
        ∃ t, exec (.imageConfirm r) s = .next t ∧ t.Completed d 1
          ∧ t.slotRec s.upd.running = { s.slotRec s.upd.running with state := 3 } ∧ t.rd F.UPD_STAT_confirmed = 1
          ∧ t.otp.rollback = max s.otp.rollback (byteAt (s.ingotHeader s.upd.running) 16) ∧ t.otp.owner = s.otp.owner
          ∧ ((s.slotRec s.inactiveSlot).state = 3 → (t.slotRec s.inactiveSlot).state = 4)))
  ∧ (∀ (s : State) (r : Fin 64) (l : List Byte) (d : Desc), s.Starts r 0x0806 d → (s.slotRec s.upd.running).state ≠ 2 →
    ∃ t, exec (.settingsSave r l) s = .next t ∧ t.hif.compl = s.hif.compl
      ∧ t.upd = { s.upd with jobs := s.upd.jobs ++ [.settings d.id (if s.rd F.UPD_SET_slot = 0 then 1 else 0) l] })
  ∧ (∀ (s : State) (r : Fin 64) (io : HostIo) (d : Desc), s.Starts r 0x0930 d →
    (d.op 24 4 < 304 → ∃ t, exec (.attest r io) s = .next t ∧ t.Completed d 0x12 ∧ t.hostMem = s.hostMem)
    ∧ (304 ≤ d.op 24 4 → io.resultErr = false → s.takesEvent 119 →
        ∃ t b, exec (.attest r io) s = .next t ∧ t.Completed d 1 ∧ t.hasEvent 119 1 0xFFFF ∧ b = s.attestBytes ((d.bytes.drop 32).take 32)
          ∧ t.hostMem = writeBytes s.hostMem (d.op 16 8) (b ++ toBytes 64 (Config.deviceSign b).toNat) ∧ t.upd = s.upd ∧ t.otp = s.otp)))

/-- Waxbook. A software trigger queues a firing with its mode and time; a record is taken while it fits, and stops the recorder
where it does not; a finished record is stored and counted; a clear empties the store; the window reads it.  (Rests on R482,
R483, R485 to R491.) -/
def Obligations.WaxbookCommands : Prop :=
  (∀ s : State, exec (.softwareTrigger 0) s = .next s)
  ∧ (∀ (s : State) (m : Word), s.on F.WAX_CTL_enable = false → exec (.softwareTrigger m) s = .next s)
  ∧ (∀ (s : State) (k : Fin 32), s.rd F.WAX_TRIG0_kind k = 3 → s.trigReady k = true → s.inHoldoff k = false → s.on F.WAX_STAT_full = false →
      s.wax.queue.length < 8 →
    ∃ t, exec (.softwareTrigger (BitVec.twoPow 32 k)) s = .next t
      ∧ (∃ f ∈ t.wax.queue, f.trig = k.val ∧ f.kind = 3 ∧ f.time = s.cellNs ∧ f.mode = s.mode ∧ f.provisional = !s.on F.TIM_STAT_locked)
      ∧ (t.trigHist k).fired = true ∧ t.wax.store = s.wax.store)
  ∧ (∀ s : State, s.wax.queue = [] ∨ s.wax.busy ≠ none ∨ s.on F.WAX_STAT_full = true ∨ s.on F.WAX_CTL_enable = false →
    exec .recordTake s = .next s)
  ∧ (∀ (s : State) (f : Firing) (l : List Firing), s.wax.queue = f :: l → s.wax.busy = none → s.on F.WAX_STAT_full = false →
      s.on F.WAX_CTL_enable = true →
    (s.waxFits (s.waxRecord f).length = true → ∃ t, exec .recordTake s = .next t ∧ t.rd F.WAX_STAT_busy = 1
      ∧ t.wax = { s.wax with queue := l, busy := some { bytes := s.waxRecord f, at_ := s.rd F.WAX_FILL_bytes }, failed := false }
      ∧ t.rd F.WAX_STAT_pending = l.length % 16 ∧ s.OnlyWords t [F.WAX_STAT_full.off])
    ∧ (s.waxFits (s.waxRecord f).length = false → s.takesEvent 121 → ∃ t, exec .recordTake s = .next t ∧ t.rd F.WAX_STAT_full = 1
      ∧ t.wax.busy = none ∧ t.rd F.WAX_FILL_bytes = s.rd F.WAX_FILL_bytes ∧ t.hasEvent 121 1 0xFFFF))
  ∧ (∀ (s : State) (e : Bool), s.wax.busy = none → exec (.waxbookRecordComplete e) s = .next s)
  ∧ (∀ (s : State) (e : Bool) (w : WaxRecord), s.wax.busy = some w → s.wax.clearWaiting = false → w.at_ + w.bytes.length ≤ 786432 →
    ∃ t, exec (.waxbookRecordComplete e) s = .next t ∧ t.rd F.WAX_FILL_bytes = w.at_ + w.bytes.length ∧ t.rd F.WAX_STAT_busy = 0
      ∧ t.rd F.WAX_SEQ_next = (if s.rd F.WAX_SEQ_next = 2 ^ 32 - 1 then 1 else s.rd F.WAX_SEQ_next + 1)
      ∧ t.wax = { s.wax with busy := none, failed := false, store := writeBytes s.wax.store w.at_ w.bytes, onChipEnd := w.at_ + w.bytes.length }
      ∧ t.hif = s.hif)
  ∧ (∀ (s : State) (w : WaxRecord), s.wax.busy = some w → s.wax.clearWaiting = false → 786432 < w.at_ + w.bytes.length → s.wax.failed = false →
    ∃ t, exec (.waxbookRecordComplete true) s = .next t ∧ t.rd F.WAX_STAT_ext_fault = 1 ∧ t.rd F.WAX_STAT_full = 1 ∧ t.wax.busy = none
      ∧ t.rd F.WAX_FILL_bytes = s.rd F.WAX_FILL_bytes ∧ t.rd F.WAX_SEQ_next = s.rd F.WAX_SEQ_next)
  ∧ (∀ (s : State) (m : Master), s.privileged m = false →
    exec (.waxbookClear m) s = .next (s.pvDropped m false true (F.WAX_CTL_clear.addr 0 0)))
  ∧ (∀ (s : State) (m : Master), s.privileged m = true → s.wax.busy ≠ none →
    exec (.waxbookClear m) s = .next { s with wax := { s.wax with clearWaiting := true } })
  ∧ (∀ (s : State) (m : Master), s.privileged m = true → s.wax.busy = none → s.takesEvent 123 →
    ∃ t, exec (.waxbookClear m) s = .next t ∧ t.rd F.WAX_FILL_bytes = 0 ∧ t.rd F.WAX_CUR_offset = 0 ∧ t.rd F.WAX_STAT_full = 0
      ∧ t.wax.store = [] ∧ t.wax.onChipEnd = 0 ∧ t.hasEvent 123 1 0xFFFF ∧ t.rd F.WAX_SEQ_next = s.rd F.WAX_SEQ_next)
  ∧ (∀ (s : State) (m : Master) (w : BitVec 22) (z : BitVec 4), z ≠ 4 ∨ w.toNat % 4 ≠ 0 →
    ∃ t, exec (.cursorWindowRead m w z) s = .next t ∧ t.rdata = 0xFFFFFFFF
      ∧ t.rd F.HIF_ACC_ERR_bad_access = min (2 ^ F.HIF_ACC_ERR_bad_access.width - 1) (s.rd F.HIF_ACC_ERR_bad_access + 1))
  ∧ (∀ (s : State) (m : Master) (w : BitVec 22), w.toNat % 4 = 0 →
    (s.rd F.WAX_FILL_bytes ≤ 8 * s.rd F.WAX_CUR_offset + w.toNat → exec (.cursorWindowRead m w 4) s = .next { s with rdata := 0 })
    ∧ (8 * s.rd F.WAX_CUR_offset + w.toNat < s.rd F.WAX_FILL_bytes → 786432 ≤ 8 * s.rd F.WAX_CUR_offset + w.toNat →
        s.on F.WAX_STAT_ext_fault = true ∨ s.mode = 5 → exec (.cursorWindowRead m w 4) s = .next { s with rdata := 0xFFFFFFFF })
    ∧ (8 * s.rd F.WAX_CUR_offset + w.toNat + 4 ≤ 786432 → 8 * s.rd F.WAX_CUR_offset + w.toNat < s.rd F.WAX_FILL_bytes → s.privileged m = true →
        exec (.cursorWindowRead m w 4) s
          = .next { s with rdata := BitVec.ofNat 32 (le (readBytes s.wax.store (8 * s.rd F.WAX_CUR_offset + w.toNat) 4)) }))

/-- The trace ring and the counters. TRC_START takes a buffer inside the trace region and starts at its beginning; TRC_STOP stops
and returns what the ring holds; TRC_READ copies a part of it; COUNTERS without CLEAR writes the offset and the value of every
counter register and clears none.  (Rests on R121, R492, R493.) -/
def Obligations.TraceAndCounters : Prop :=
  (∀ (s : State) (r : Fin 64) (d : Desc), s.Starts r 0x0701 d → d.op 32 8 % 4096 = 0 → d.op 40 1 ≤ 8 →
    if d.op 32 8 < Config.traceBase ∨ Config.traceBase + Config.traceSize < d.op 32 8 + 2 ^ (20 + d.op 40 1) then
      ∃ t, exec (.trcStart r) s = .next t ∧ t.Completed d 0x12 ∧ t.rd F.HIV_TRC_CTL_enable = s.rd F.HIV_TRC_CTL_enable
    else
      ∃ t, exec (.trcStart r) s = .next t ∧ t.Completed d 1 ∧ t.rd F.HIV_TRC_CTL_enable = 1 ∧ t.rd F.HIV_TRC_CTL_size_log2 = d.op 40 1
        ∧ t.rd64 F.HIV_TRC_BASE_LO_addr F.HIV_TRC_BASE_HI_addr = d.op 32 8 ∧ t.rd F.HIV_TRC_STAT_offset = 0
        ∧ t.rd F.HIV_TRC_STAT_full = 0 ∧ t.rd F.HIV_TRC_CTL_kinds = d.op 42 2 ∧ (t.on F.HIV_TRC_CTL_wrap = bitAt (d.op 41 1) 0))
  ∧ (∀ (s : State) (r : Fin 64) (d : Desc), s.Starts r 0x0702 d →
    ∃ t, exec (.trcStop r) s = .next t ∧ t.Completed d 1 ∧ t.rd F.HIV_TRC_CTL_enable = 0 ∧ t.rd F.HIV_TRC_LOST_count = 0
      ∧ (s.ddrServes = true → t.hive.trace = []) ∧ (s.ddrServes = false → t.hive.trace = s.hive.trace ∧ t.ddr = s.ddr))
  ∧ (∀ (s : State) (r : Fin 64) (io : HostIo) (d : Desc), s.Starts r 0x0703 d → io.resultErr = false →
    (2 ^ (20 + s.rd F.HIV_TRC_CTL_size_log2) < d.op 32 4 + d.op 24 4 →
      ∃ t, exec (.trcRead r io) s = .next t ∧ t.Completed d 0x12 ∧ t.hostMem = s.hostMem)
    ∧ (d.op 32 4 + d.op 24 4 ≤ 2 ^ (20 + s.rd F.HIV_TRC_CTL_size_log2) →
      ∃ t, exec (.trcRead r io) s = .next t ∧ t.Completed d 1 ∧ t.ddr = s.ddr ∧ t.hostMem = writeBytes s.hostMem (d.op 16 8)
        (readBytes s.ddr (s.rd64 F.HIV_TRC_BASE_LO_addr F.HIV_TRC_BASE_HI_addr + d.op 32 4) (d.op 24 4))))
  ∧ (∀ (s : State) (r : Fin 64) (io : HostIo) (d : Desc), s.Starts r 0x0931 d → d.op 24 4 < 16 →
    ∃ t, exec (.counters r io) s = .next t ∧ t.Completed d 0x12 ∧ t.hostMem = s.hostMem)
  ∧ (∀ (s : State) (r : Fin 64) (io : HostIo) (d : Desc), s.Starts r 0x0931 d → io.resultErr = false → s.privileged .host = true →
      16 + 8 * counterOffsets.length ≤ d.op 24 4 → bitAt (d.op 32 1) 0 = false →
    ∃ t, exec (.counters r io) s = .next t ∧ t.Completed d 1
      ∧ t.hostMem = writeBytes s.hostMem (d.op 16 8) (toBytes 4 counterOffsets.length ++ toBytes 8 s.cellNs ++ toBytes 4 0
          ++ counterOffsets.flatMap fun o => toBytes 4 o ++ toBytes 4 ((s.startDesc d).view o).toNat)
      ∧ s.OnlyWords t [F.HIF_SQ_STAT_head.addr d.ring 0, F.HIF_SQ_INFO_staged.addr d.ring 0])

/-- The supply and thermal monitors. An excursion of three samples latches and is reported; beyond the reset limit a rail of Quench
stops Quench and another rail holds the device in reset; at 110 °C SENTINEL is due, at 125 °C the device resets and stays so
until it is below 100 °C.  (Rests on R498, R502, R509, R510.) -/
def Obligations.SupplyAndThermal : Prop :=
  (∀ (s : State) (l : List (BitVec 16)), s.quench.railOut = false → (∀ i, i < 11 → (sgn 16 (l.getD i 0).toNat).natAbs ≤ 50) →
    ∃ t, exec (.supplyMonitorSample l) s = .next t ∧ t = { s with clk := t.clk } ∧ t.clk.railHeld = 0 ∧ t.clk.hot = s.clk.hot
      ∧ ∀ i, i < 11 → t.streak i = (0, 0, 0))
  ∧ (∀ (s : State) (l : List (BitVec 16)) (i : Nat), i < 11 → s.quench.railOut = false → s.streak i = (2, 0, 0) →
      -80 ≤ sgn 16 (l.getD i 0).toNat → sgn 16 (l.getD i 0).toNat < -50 →
      (∀ j, j < 11 → j ≠ i → (sgn 16 (l.getD j 0).toNat).natAbs ≤ 50) → s.takesEvent 126 →
    ∃ t, exec (.supplyMonitorSample l) s = .next t ∧ bitAt (t.rd F.CLK_SUP_STAT_low) i = true ∧ t.hasEvent 126 1 0xFFFF
      ∧ t.upd = s.upd ∧ t.quench = s.quench ∧ t.rd F.CLK_SUP_STAT_high = s.rd F.CLK_SUP_STAT_high)
  ∧ (∀ (s : State) (l : List (BitVec 16)) (i : Nat), i = 3 ∨ i = 4 → s.quench.railOut = false → s.streak i = (2, 0, 2) →
      sgn 16 (l.getD i 0).toNat < -80 → (∀ j, j < 11 → j ≠ i → (sgn 16 (l.getD j 0).toNat).natAbs ≤ 50) →
    ∃ t, exec (.supplyMonitorSample l) s = .next t ∧ t.quench.railOut = true ∧ t.quench.held = true ∧ t.behaviour = 4 ∧ t.upd = s.upd)
  ∧ (∀ (s : State) (l : List (BitVec 16)) (i : Nat), i < 11 → i ≠ 3 → i ≠ 4 → s.quench.railOut = false → s.clk.railHeld = 0 →
      s.streak i = (2, 0, 2) → sgn 16 (l.getD i 0).toNat < -80 → (∀ j, j < 11 → j ≠ i → (sgn 16 (l.getD j 0).toNat).natAbs ≤ 50) →
    ∃ t, exec (.supplyMonitorSample l) s = .next t ∧ t.upd.boot = 0 ∧ t.tick = 0 ∧ t.ddr = [] ∧ t.clk.railHeld = 2 ^ i ∧ t.otp = s.otp)
  ∧ (∀ (s : State) (a b c e : BitVec 8) (t : Int) (n : Nat), hottest [sgn 8 a.toNat, sgn 8 b.toNat, sgn 8 c.toNat, sgn 8 e.toNat] = (t, n) →
    (s.clk.hot = true → t < 100 → ∃ u, exec (.thermalSample a b c e) s = .next u ∧ u.clk.hot = false ∧ u.upd = s.upd)
    ∧ (s.clk.hot = true → 100 ≤ t → ∃ u, exec (.thermalSample a b c e) s = .next u ∧ u.clk.hot = true ∧ u.upd = s.upd)
    ∧ (s.clk.hot = false → 125 ≤ t → ∃ u, exec (.thermalSample a b c e) s = .next u ∧ u.clk.hot = true ∧ u.upd.boot = 0
        ∧ u.rd F.CLK_RST_CAUSE_cause = 7)
    ∧ (s.clk.hot = false → t < 125 → ∃ u, exec (.thermalSample a b c e) s = .next u ∧ u.rdS F.CLK_TEMP_now = t ∧ u.rd F.CLK_TEMP_sensor = n
        ∧ u.clk.hot = false ∧ u.upd = s.upd)
    ∧ (s.clk.hot = false → 110 ≤ t → t < 125 → s.clk.critical = false → s.takesEvent 125 → sentinelFrom s.mode = true →
        s.glb.sentinelDue = none → ∃ u, exec (.thermalSample a b c e) s = .next u ∧ u.clk.critical = true ∧ u.hasEvent 125 1 0xFFFF
          ∧ u.glb = { s.glb with sentinelDue := some 8 })
    ∧ (s.clk.hot = false → s.warnLevel ≤ t → t < 110 → s.clk.warned = false → s.takesEvent 124 →
        ∃ u, exec (.thermalSample a b c e) s = .next u ∧ u.clk.warned = true ∧ u.hasEvent 124 1 0xFFFF ∧ u.glb = s.glb))

/-- Recorded outcomes wait in order of their times, equal times by lower submission ring; an outcome joins them in its place, ends
its descriptor, and changes no other outcome.  (Rests on R61, R71.) -/
def Obligations.CompletionOrder : Prop :=
  ∀ (s : State) (id st notes : Nat) (res : List Byte) (ind : Bool),
    let before := fun a b : Compl => a.time < b.time ∨ (a.time = b.time ∧ a.ring ≤ b.ring)
    s.hif.compl.Pairwise before →
    (s.complete id st notes res ind).hif.compl.Pairwise before
    ∧ (∀ c ∈ s.hif.compl, c ∈ (s.complete id st notes res ind).hif.compl)
    ∧ (s.complete id st notes res ind).hif.desc = s.hif.desc.filter (·.id != id)
    ∧ ((s.complete id st notes res ind).hif.compl.length = s.hif.compl.length
        ∨ ((s.complete id st notes res ind).hif.compl.length = s.hif.compl.length + 1
          ∧ ∃ d ∈ s.hif.desc, d.id = id ∧ ∃ c ∈ (s.complete id st notes res ind).hif.compl, c.id = id ∧ c.ring = d.ring ∧ c.time = s.cellNs))

/-- Event staging. It holds at most one record of a source, code and instance; every occurrence of an enabled source is counted
once, in a record or as lost; a lost one marks its source and owes source 7; a disabled source records nothing.  (Rests on R76,
R77.) -/
def Obligations.EventStaging : Prop :=
  ∀ (s : State) (src code inst : Nat) (d : DWord),
    let key := fun e : EventRec => (e.src, e.code, e.inst)
    let counted := fun s : State => (s.hif.events.map (·.count)).sum + s.rd F.HIF_EVT_LOST_CNT_count
    (s.rd F.HIF_EVT_MAP_enable src = 0 → s.stageEvent src code inst d = s)
    ∧ ((s.hif.events.map key).Nodup → ((s.stageEvent src code inst d).hif.events.map key).Nodup)
    ∧ (s.hif.events.length ≤ 768 → (s.stageEvent src code inst d).hif.events.length ≤ 768)
    ∧ (s.rd F.HIF_EVT_MAP_enable src ≠ 0 → (s.hif.events.map key).Nodup → src < 128 →
        s.rd F.HIF_EVT_LOST_CNT_count + 1 < 2 ^ F.HIF_EVT_LOST_CNT_count.width →
        counted (s.stageEvent src code inst d) = counted s + 1
        ∧ (s.hasEvent src code inst ∨ s.hif.events.length < 768 → (s.stageEvent src code inst d).hasEvent src code inst
            ∧ (s.stageEvent src code inst d).regs = s.regs)
        ∧ (¬ s.hasEvent src code inst → 768 ≤ s.hif.events.length → (s.stageEvent src code inst d).hif.events = s.hif.events
            ∧ (s.stageEvent src code inst d).hif.lostOwed = true
            ∧ bitAt ((s.stageEvent src code inst d).rd F.HIF_EVT_LOST_lost (src / 32)) (src % 32) = true))

/-- An access of BAR0 or BAR2 that is no naturally aligned 32-bit one: a read answers 0xFFFF_FFFF, a write is dropped, and each
counts in HIF_ACC_ERR; no other register changes but those that an event may write.  (Rests on R50.) -/
def Obligations.BadAccesses : Prop :=
  ∀ (s : State) (m : Master) (b : Bar) (off : BitVec 24) (size : BitVec 4) (v : Word), b = .bar0 ∨ b = .bar2 →
    size ≠ 4 ∨ off.toNat % 4 ≠ 0 →
    (∃ t, exec (.rcRead m b off size) s = .next t ∧ t.rdata = 0xFFFFFFFF
      ∧ t.rd F.HIF_ACC_ERR_bad_access = min (2 ^ F.HIF_ACC_ERR_bad_access.width - 1) (s.rd F.HIF_ACC_ERR_bad_access + 1)
      ∧ s.OnlyWords t (F.HIF_ACC_ERR_bad_access.off :: eventWords) ∧ t.hostMem = s.hostMem ∧ t.ddr = s.ddr)
    ∧ (∃ t, exec (.registerWrite m b off size v) s = .next t
      ∧ t.rd F.HIF_ACC_ERR_bad_access = min (2 ^ F.HIF_ACC_ERR_bad_access.width - 1) (s.rd F.HIF_ACC_ERR_bad_access + 1)
      ∧ s.OnlyWords t (F.HIF_ACC_ERR_bad_access.off :: eventWords) ∧ t.hostMem = s.hostMem ∧ t.ddr = s.ddr)

/-- A trigger of any kind that arrives while its sequencer waits out a delay, wakes or runs is dropped and counted in
ADC_SEQ_STATq.missed, and the run in progress stays as it is; a disable lets it finish, takes no further trigger, and shows
`stopped` when the run has ended.  (Rests on R415.) -/
def Obligations.AdcTriggersDropped : Prop :=
  ∀ (s : State) (q : Fin 2), (s.adcSeq q).start ≠ none →
    (s.on F.ADC_SEQ_CTL_enable q = true →
      (s.rd F.ADC_SEQ_CFG_trig q = 0 → exec (.adcSoftwareTrigger q) s = .next (s.bump F.ADC_SEQ_STAT_missed q))
      ∧ (s.rd F.ADC_SEQ_CFG_trig q = 1 → s.adcMatch q = s.bump F.ADC_SEQ_STAT_missed q)
      ∧ (∀ (n : Fin 4) (up : Bool), s.rd F.ADC_SEQ_CFG_trig q = 2 → s.rd F.ADC_SEQ_CFG_tin q = n.val →
          s.rd F.ADC_SEQ_CFG_edge q = (if up then 1 else 2) →
          ∃ t, exec (.adcTriggerInputEvent n up) s = .next t ∧ t.adcSeq q = s.adcSeq q
            ∧ t.rd F.ADC_SEQ_STAT_missed q = min (2 ^ F.ADC_SEQ_STAT_missed.width - 1) (s.rd F.ADC_SEQ_STAT_missed q + 1))
      ∧ (∀ n : Fin 4, s.rd F.ADC_SEQ_CFG_trig q = 2 → s.rd F.ADC_SEQ_CFG_tin q = n.val → s.rd F.ADC_SEQ_CFG_edge q = 3 →
          (s.adcSeq q).high ≠ none →
          ∃ t, exec (.adcTriggerInputEvent n true) s = .next t ∧ t.adcSeq q = { s.adcSeq q with rise := some s.tick }
            ∧ t.rd F.ADC_SEQ_STAT_missed q = min (2 ^ F.ADC_SEQ_STAT_missed.width - 1) (s.rd F.ADC_SEQ_STAT_missed q + 1)))
    ∧ (∃ t, exec (.adcSeqDisable q) s = .next t ∧ t.adcSeq q = s.adcSeq q ∧ t.rd F.ADC_SEQ_CTL_enable q = 0
        ∧ t.rd F.ADC_SEQ_STAT_stopped q = s.rd F.ADC_SEQ_STAT_stopped q)
    ∧ (s.on F.ADC_SEQ_CTL_enable q = false →
      exec (.adcSoftwareTrigger q) s = .next (s.wrIgnored .adcs q (F.ADC_SEQ_CTL_start.addr q 0))
      ∧ (s.rd F.ADC_SEQ_CFG_trig q = 1 → s.adcMatch q = s)
      ∧ (∀ (n : Fin 4) (up : Bool), ∃ t, exec (.adcTriggerInputEvent n up) s = .next t ∧ t.adcSeq q = s.adcSeq q)
      ∧ (∀ (r : AdcSampleRec) (l : List AdcSampleRec), (s.adcSeq q).pending = r :: l → r.last = true →
          ∃ t, exec (.adcResult q) s = .next t ∧ (t.adcSeq q).start = none ∧ t.rd F.ADC_SEQ_STAT_stopped q = 1))

/-- OWNER_FUSE on an owned device completes with 0x14 and the layout of R58; else the key and then the owner fuse are blown: read
back, they complete it with 0x01 and the unlock of R95 applies, which grants nothing without a verified signature; not read
back, the device stays unowned and it completes with 0x13.  (Rests on R475.) -/
def Obligations.OwnerFuse : Prop :=
  ∀ (s : State) (r : Fin 64) (io : HostIo) (d : Desc), s.Starts r 0x0808 d → s.mode = 2 ∨ s.mode = 3 →
    (s.otp.owner = true → ∀ ok, ∃ t, exec (.ownerFuse r io ok) s = .next t ∧ t.Completed d 0x14 ∧ t.otp = s.otp
      ∧ ∃ c ∈ t.hif.compl, c.id = d.id ∧ c.result = errResult 0xFFFF 3 0)
    ∧ (s.otp.owner = false → io.bodyErr = false →
      (∃ t, exec (.ownerFuse r io true) s = .next t ∧ t.Completed d 1 ∧ t.otp = { s.otp with owner := true, ownerKey := io.body }
        ∧ t.rd F.GLB_STAT_owned = 1 ∧ exec .unownedUnlockGrant t = .next t)
      ∧ (∃ t, exec (.ownerFuse r io false) s = .next t ∧ t.Completed d 0x13 ∧ t.otp = s.otp
        ∧ t.rd F.GLB_STAT_owned = s.rd F.GLB_STAT_owned))

/-- A device reset other than power-on keeps the on-chip store, WAX_FILL, WAX_SEQ and the bits `full` and `lost`; every other
register of the block takes its reset value, no record is in progress, and nothing records before `enable` is set again. A fill
beyond the on-chip store falls back to the end of the last complete on-chip record, with `ext_lost`.  (Rests on R489.) -/
def Obligations.WaxbookThroughReset : Prop :=
  (∀ (s : State) (c : Instr) (k : Nat),
      (c, k) ∈ [(Instr.farrierWatchdogReset, 4), (.softwareReset .farrier, 3), (.pinReset 10000, 2)] → s.glb.posted = [] →
    exec c s = .next (s.deviceReset k))
  ∧ (∀ (s : State) (k : Nat),
    ∃ t, s.deviceReset k = t ∧ t.wax.store = s.wax.store ∧ t.wax.busy = none ∧ t.wax.queue = []
      ∧ t.rd F.WAX_SEQ_next = s.rd F.WAX_SEQ_next ∧ t.rd F.WAX_STAT_full = s.rd F.WAX_STAT_full ∧ t.rd F.WAX_STAT_lost = s.rd F.WAX_STAT_lost
      ∧ (s.rd F.WAX_FILL_bytes ≤ 786432 → t.rd F.WAX_FILL_bytes = s.rd F.WAX_FILL_bytes ∧ t.rd F.WAX_STAT_ext_lost = 0)
      ∧ (786432 < s.rd F.WAX_FILL_bytes → s.wax.onChipEnd ≤ 786432 →
          t.rd F.WAX_FILL_bytes = s.wax.onChipEnd ∧ t.rd F.WAX_STAT_ext_lost = 1)
      ∧ (∀ off, 0x1C0000 ≤ off → off < 0x1D0000 → off ≠ F.WAX_STAT_full.off → off ≠ F.WAX_FILL_bytes.off → off ≠ F.WAX_SEQ_next.off →
          t.word off = resetWord off)
      ∧ t.rd F.WAX_STAT_busy = 0 ∧ t.rd F.WAX_STAT_pending = 0 ∧ t.rd F.WAX_STAT_ext_fault = 0 ∧ t.rd F.WAX_STAT_epoch = 0
      ∧ t.rd F.WAX_CTL_enable = 0 ∧ exec .recordTake t = .next t
      ∧ (∀ k kind src inst code, t.fireTrigger k kind src inst code = (t, false))
      ∧ (∀ (u : State) (f : Firing) (l : List Firing), u.wax.queue = f :: l → u.wax.busy = none → u.on F.WAX_STAT_full = false →
          u.on F.WAX_CTL_enable = true → u.waxFits (u.waxRecord f).length = true →
          ∃ v b, exec .recordTake u = .next v ∧ v.wax.busy = some b ∧ b.at_ = u.rd F.WAX_FILL_bytes
            ∧ b.bytes = u.waxRecord f ∧ field b.bytes 4 4 = u.rd F.WAX_SEQ_next))
end

