-- ==== Sys2Proof/Laws/State.lean ====
section
/-!
SUPPORT. Laws/State.lean: for each update of the state, one lemma per field it leaves alone, and what it makes of the field it
changes; registers are read through every update that does not write them.
-/

namespace Sys2Proof.Machine.State

variable (s : Sys2Proof.Machine.State)

/-! ## Registers -/

@[simp] theorem setWord_pending (off : Nat) (w : Word) : (s.setWord off w).pending = s.pending := rfl
@[simp] theorem wr_pending (f : Fld) (v i j : Nat) : (s.wr f v i j).pending = s.pending := rfl
@[simp] theorem setWord_tick (off : Nat) (w : Word) : (s.setWord off w).tick = s.tick := rfl
@[simp] theorem wr_tick (f : Fld) (v i j : Nat) : (s.wr f v i j).tick = s.tick := rfl
@[simp] theorem setWord_hif (off : Nat) (w : Word) : (s.setWord off w).hif = s.hif := rfl
@[simp] theorem wr_hif (f : Fld) (v i j : Nat) : (s.wr f v i j).hif = s.hif := rfl
@[simp] theorem setWord_hive (off : Nat) (w : Word) : (s.setWord off w).hive = s.hive := rfl
@[simp] theorem wr_hive (f : Fld) (v i j : Nat) : (s.wr f v i j).hive = s.hive := rfl
@[simp] theorem setWord_anvil (off : Nat) (w : Word) : (s.setWord off w).anvil = s.anvil := rfl
@[simp] theorem wr_anvil (f : Fld) (v i j : Nat) : (s.wr f v i j).anvil = s.anvil := rfl
@[simp] theorem setWord_plan (off : Nat) (w : Word) : (s.setWord off w).plan = s.plan := rfl
@[simp] theorem wr_plan (f : Fld) (v i j : Nat) : (s.wr f v i j).plan = s.plan := rfl
@[simp] theorem setWord_temper (off : Nat) (w : Word) : (s.setWord off w).temper = s.temper := rfl
@[simp] theorem wr_temper (f : Fld) (v i j : Nat) : (s.wr f v i j).temper = s.temper := rfl
@[simp] theorem setWord_combway (off : Nat) (w : Word) : (s.setWord off w).combway = s.combway := rfl
@[simp] theorem wr_combway (f : Fld) (v i j : Nat) : (s.wr f v i j).combway = s.combway := rfl
@[simp] theorem setWord_quench (off : Nat) (w : Word) : (s.setWord off w).quench = s.quench := rfl
@[simp] theorem wr_quench (f : Fld) (v i j : Nat) : (s.wr f v i j).quench = s.quench := rfl
@[simp] theorem setWord_tongs (off : Nat) (w : Word) : (s.setWord off w).tongs = s.tongs := rfl
@[simp] theorem wr_tongs (f : Fld) (v i j : Nat) : (s.wr f v i j).tongs = s.tongs := rfl
@[simp] theorem setWord_swage (off : Nat) (w : Word) : (s.setWord off w).swage = s.swage := rfl
@[simp] theorem wr_swage (f : Fld) (v i j : Nat) : (s.wr f v i j).swage = s.swage := rfl
@[simp] theorem setWord_adc (off : Nat) (w : Word) : (s.setWord off w).adc = s.adc := rfl
@[simp] theorem wr_adc (f : Fld) (v i j : Nat) : (s.wr f v i j).adc = s.adc := rfl
@[simp] theorem setWord_bellows (off : Nat) (w : Word) : (s.setWord off w).bellows = s.bellows := rfl
@[simp] theorem wr_bellows (f : Fld) (v i j : Nat) : (s.wr f v i j).bellows = s.bellows := rfl
@[simp] theorem setWord_sram (off : Nat) (w : Word) : (s.setWord off w).sram = s.sram := rfl
@[simp] theorem wr_sram (f : Fld) (v i j : Nat) : (s.wr f v i j).sram = s.sram := rfl
@[simp] theorem setWord_otp (off : Nat) (w : Word) : (s.setWord off w).otp = s.otp := rfl
@[simp] theorem wr_otp (f : Fld) (v i j : Nat) : (s.wr f v i j).otp = s.otp := rfl
@[simp] theorem setWord_upd (off : Nat) (w : Word) : (s.setWord off w).upd = s.upd := rfl
@[simp] theorem wr_upd (f : Fld) (v i j : Nat) : (s.wr f v i j).upd = s.upd := rfl
@[simp] theorem setWord_tim (off : Nat) (w : Word) : (s.setWord off w).tim = s.tim := rfl
@[simp] theorem wr_tim (f : Fld) (v i j : Nat) : (s.wr f v i j).tim = s.tim := rfl
@[simp] theorem setWord_wax (off : Nat) (w : Word) : (s.setWord off w).wax = s.wax := rfl
@[simp] theorem wr_wax (f : Fld) (v i j : Nat) : (s.wr f v i j).wax = s.wax := rfl
@[simp] theorem setWord_clk (off : Nat) (w : Word) : (s.setWord off w).clk = s.clk := rfl
@[simp] theorem wr_clk (f : Fld) (v i j : Nat) : (s.wr f v i j).clk = s.clk := rfl
@[simp] theorem setWord_epochs (off : Nat) (w : Word) : (s.setWord off w).epochs = s.epochs := rfl
@[simp] theorem wr_epochs (f : Fld) (v i j : Nat) : (s.wr f v i j).epochs = s.epochs := rfl
@[simp] theorem setWord_hostMem (off : Nat) (w : Word) : (s.setWord off w).hostMem = s.hostMem := rfl
@[simp] theorem wr_hostMem (f : Fld) (v i j : Nat) : (s.wr f v i j).hostMem = s.hostMem := rfl
@[simp] theorem setWord_ddr (off : Nat) (w : Word) : (s.setWord off w).ddr = s.ddr := rfl
@[simp] theorem wr_ddr (f : Fld) (v i j : Nat) : (s.wr f v i j).ddr = s.ddr := rfl
@[simp] theorem setWord_rdata (off : Nat) (w : Word) : (s.setWord off w).rdata = s.rdata := rfl
@[simp] theorem wr_rdata (f : Fld) (v i j : Nat) : (s.wr f v i j).rdata = s.rdata := rfl
@[simp] theorem setWord_free (off : Nat) (w : Word) : (s.setWord off w).free = s.free := rfl
@[simp] theorem wr_free (f : Fld) (v i j : Nat) : (s.wr f v i j).free = s.free := rfl
@[simp] theorem setWord_glb_staged (off : Nat) (w : Word) : (s.setWord off w).glb.staged = s.glb.staged := rfl
@[simp] theorem wr_glb_staged (f : Fld) (v i j : Nat) : (s.wr f v i j).glb.staged = s.glb.staged := rfl
@[simp] theorem setWord_glb_strobes (off : Nat) (w : Word) : (s.setWord off w).glb.strobes = s.glb.strobes := rfl
@[simp] theorem wr_glb_strobes (f : Fld) (v i j : Nat) : (s.wr f v i j).glb.strobes = s.glb.strobes := rfl
@[simp] theorem setWord_glb_posted (off : Nat) (w : Word) : (s.setWord off w).glb.posted = s.glb.posted := rfl
@[simp] theorem wr_glb_posted (f : Fld) (v i j : Nat) : (s.wr f v i j).glb.posted = s.glb.posted := rfl
@[simp] theorem setWord_glb_mailbox (off : Nat) (w : Word) : (s.setWord off w).glb.mailbox = s.glb.mailbox := rfl
@[simp] theorem wr_glb_mailbox (f : Fld) (v i j : Nat) : (s.wr f v i j).glb.mailbox = s.glb.mailbox := rfl
@[simp] theorem setWord_glb_unlock (off : Nat) (w : Word) : (s.setWord off w).glb.unlock = s.glb.unlock := rfl
@[simp] theorem wr_glb_unlock (f : Fld) (v i j : Nat) : (s.wr f v i j).glb.unlock = s.glb.unlock := rfl
@[simp] theorem setWord_glb_wdtServed (off : Nat) (w : Word) : (s.setWord off w).glb.wdtServed = s.glb.wdtServed := rfl
@[simp] theorem wr_glb_wdtServed (f : Fld) (v i j : Nat) : (s.wr f v i j).glb.wdtServed = s.glb.wdtServed := rfl
@[simp] theorem setWord_glb_modeReq (off : Nat) (w : Word) : (s.setWord off w).glb.modeReq = s.glb.modeReq := rfl
@[simp] theorem wr_glb_modeReq (f : Fld) (v i j : Nat) : (s.wr f v i j).glb.modeReq = s.glb.modeReq := rfl
@[simp] theorem setWord_glb_sentinelDue (off : Nat) (w : Word) : (s.setWord off w).glb.sentinelDue = s.glb.sentinelDue := rfl
@[simp] theorem wr_glb_sentinelDue (f : Fld) (v i j : Nat) : (s.wr f v i j).glb.sentinelDue = s.glb.sentinelDue := rfl
@[simp] theorem setWord_glb_sentinelAt (off : Nat) (w : Word) : (s.setWord off w).glb.sentinelAt = s.glb.sentinelAt := rfl
@[simp] theorem wr_glb_sentinelAt (f : Fld) (v i j : Nat) : (s.wr f v i j).glb.sentinelAt = s.glb.sentinelAt := rfl

/-! ## setSram -/

@[simp] theorem setSram_pending (n : Nat) (m : List Host.Cell) : (s.setSram n m).pending = s.pending := rfl
@[simp] theorem setSram_tick (n : Nat) (m : List Host.Cell) : (s.setSram n m).tick = s.tick := rfl
@[simp] theorem setSram_regs (n : Nat) (m : List Host.Cell) : (s.setSram n m).regs = s.regs := rfl
@[simp] theorem setSram_glb (n : Nat) (m : List Host.Cell) : (s.setSram n m).glb = s.glb := rfl
@[simp] theorem setSram_hif (n : Nat) (m : List Host.Cell) : (s.setSram n m).hif = s.hif := rfl
@[simp] theorem setSram_hive (n : Nat) (m : List Host.Cell) : (s.setSram n m).hive = s.hive := rfl
@[simp] theorem setSram_anvil (n : Nat) (m : List Host.Cell) : (s.setSram n m).anvil = s.anvil := rfl
@[simp] theorem setSram_plan (n : Nat) (m : List Host.Cell) : (s.setSram n m).plan = s.plan := rfl
@[simp] theorem setSram_temper (n : Nat) (m : List Host.Cell) : (s.setSram n m).temper = s.temper := rfl
@[simp] theorem setSram_combway (n : Nat) (m : List Host.Cell) : (s.setSram n m).combway = s.combway := rfl
@[simp] theorem setSram_quench (n : Nat) (m : List Host.Cell) : (s.setSram n m).quench = s.quench := rfl
@[simp] theorem setSram_tongs (n : Nat) (m : List Host.Cell) : (s.setSram n m).tongs = s.tongs := rfl
@[simp] theorem setSram_swage (n : Nat) (m : List Host.Cell) : (s.setSram n m).swage = s.swage := rfl
@[simp] theorem setSram_adc (n : Nat) (m : List Host.Cell) : (s.setSram n m).adc = s.adc := rfl
@[simp] theorem setSram_bellows (n : Nat) (m : List Host.Cell) : (s.setSram n m).bellows = s.bellows := rfl
@[simp] theorem setSram_otp (n : Nat) (m : List Host.Cell) : (s.setSram n m).otp = s.otp := rfl
@[simp] theorem setSram_upd (n : Nat) (m : List Host.Cell) : (s.setSram n m).upd = s.upd := rfl
@[simp] theorem setSram_tim (n : Nat) (m : List Host.Cell) : (s.setSram n m).tim = s.tim := rfl
@[simp] theorem setSram_wax (n : Nat) (m : List Host.Cell) : (s.setSram n m).wax = s.wax := rfl
@[simp] theorem setSram_clk (n : Nat) (m : List Host.Cell) : (s.setSram n m).clk = s.clk := rfl
@[simp] theorem setSram_epochs (n : Nat) (m : List Host.Cell) : (s.setSram n m).epochs = s.epochs := rfl
@[simp] theorem setSram_hostMem (n : Nat) (m : List Host.Cell) : (s.setSram n m).hostMem = s.hostMem := rfl
@[simp] theorem setSram_ddr (n : Nat) (m : List Host.Cell) : (s.setSram n m).ddr = s.ddr := rfl
@[simp] theorem setSram_rdata (n : Nat) (m : List Host.Cell) : (s.setSram n m).rdata = s.rdata := rfl
@[simp] theorem setSram_free (n : Nat) (m : List Host.Cell) : (s.setSram n m).free = s.free := rfl
@[simp] theorem setSram_word (n : Nat) (m : List Host.Cell) (off : Nat) : (s.setSram n m).word off = s.word off := rfl
@[simp] theorem setSram_rd (n : Nat) (m : List Host.Cell) (fl : Fld) (x y : Nat) : (s.setSram n m).rd fl x y = s.rd fl x y := rfl

/-! ## setCore -/

@[simp] theorem setCore_pending (c : Nat) (v : Core) : (s.setCore c v).pending = s.pending := rfl
@[simp] theorem setCore_tick (c : Nat) (v : Core) : (s.setCore c v).tick = s.tick := rfl
@[simp] theorem setCore_regs (c : Nat) (v : Core) : (s.setCore c v).regs = s.regs := rfl
@[simp] theorem setCore_glb (c : Nat) (v : Core) : (s.setCore c v).glb = s.glb := rfl
@[simp] theorem setCore_hif (c : Nat) (v : Core) : (s.setCore c v).hif = s.hif := rfl
@[simp] theorem setCore_anvil (c : Nat) (v : Core) : (s.setCore c v).anvil = s.anvil := rfl
@[simp] theorem setCore_plan (c : Nat) (v : Core) : (s.setCore c v).plan = s.plan := rfl
@[simp] theorem setCore_temper (c : Nat) (v : Core) : (s.setCore c v).temper = s.temper := rfl
@[simp] theorem setCore_combway (c : Nat) (v : Core) : (s.setCore c v).combway = s.combway := rfl
@[simp] theorem setCore_quench (c : Nat) (v : Core) : (s.setCore c v).quench = s.quench := rfl
@[simp] theorem setCore_tongs (c : Nat) (v : Core) : (s.setCore c v).tongs = s.tongs := rfl
@[simp] theorem setCore_swage (c : Nat) (v : Core) : (s.setCore c v).swage = s.swage := rfl
@[simp] theorem setCore_adc (c : Nat) (v : Core) : (s.setCore c v).adc = s.adc := rfl
@[simp] theorem setCore_bellows (c : Nat) (v : Core) : (s.setCore c v).bellows = s.bellows := rfl
@[simp] theorem setCore_sram (c : Nat) (v : Core) : (s.setCore c v).sram = s.sram := rfl
@[simp] theorem setCore_otp (c : Nat) (v : Core) : (s.setCore c v).otp = s.otp := rfl
@[simp] theorem setCore_upd (c : Nat) (v : Core) : (s.setCore c v).upd = s.upd := rfl
@[simp] theorem setCore_tim (c : Nat) (v : Core) : (s.setCore c v).tim = s.tim := rfl
@[simp] theorem setCore_wax (c : Nat) (v : Core) : (s.setCore c v).wax = s.wax := rfl
@[simp] theorem setCore_clk (c : Nat) (v : Core) : (s.setCore c v).clk = s.clk := rfl
@[simp] theorem setCore_epochs (c : Nat) (v : Core) : (s.setCore c v).epochs = s.epochs := rfl
@[simp] theorem setCore_hostMem (c : Nat) (v : Core) : (s.setCore c v).hostMem = s.hostMem := rfl
@[simp] theorem setCore_ddr (c : Nat) (v : Core) : (s.setCore c v).ddr = s.ddr := rfl
@[simp] theorem setCore_rdata (c : Nat) (v : Core) : (s.setCore c v).rdata = s.rdata := rfl
@[simp] theorem setCore_free (c : Nat) (v : Core) : (s.setCore c v).free = s.free := rfl
@[simp] theorem setCore_word (c : Nat) (v : Core) (off : Nat) : (s.setCore c v).word off = s.word off := rfl
@[simp] theorem setCore_rd (c : Nat) (v : Core) (fl : Fld) (x y : Nat) : (s.setCore c v).rd fl x y = s.rd fl x y := rfl

/-! ## setSq -/

@[simp] theorem setSq_pending (r : Nat) (v : Sq) : (s.setSq r v).pending = s.pending := rfl
@[simp] theorem setSq_tick (r : Nat) (v : Sq) : (s.setSq r v).tick = s.tick := rfl
@[simp] theorem setSq_regs (r : Nat) (v : Sq) : (s.setSq r v).regs = s.regs := rfl
@[simp] theorem setSq_glb (r : Nat) (v : Sq) : (s.setSq r v).glb = s.glb := rfl
@[simp] theorem setSq_hive (r : Nat) (v : Sq) : (s.setSq r v).hive = s.hive := rfl
@[simp] theorem setSq_anvil (r : Nat) (v : Sq) : (s.setSq r v).anvil = s.anvil := rfl
@[simp] theorem setSq_plan (r : Nat) (v : Sq) : (s.setSq r v).plan = s.plan := rfl
@[simp] theorem setSq_temper (r : Nat) (v : Sq) : (s.setSq r v).temper = s.temper := rfl
@[simp] theorem setSq_combway (r : Nat) (v : Sq) : (s.setSq r v).combway = s.combway := rfl
@[simp] theorem setSq_quench (r : Nat) (v : Sq) : (s.setSq r v).quench = s.quench := rfl
@[simp] theorem setSq_tongs (r : Nat) (v : Sq) : (s.setSq r v).tongs = s.tongs := rfl
@[simp] theorem setSq_swage (r : Nat) (v : Sq) : (s.setSq r v).swage = s.swage := rfl
@[simp] theorem setSq_adc (r : Nat) (v : Sq) : (s.setSq r v).adc = s.adc := rfl
@[simp] theorem setSq_bellows (r : Nat) (v : Sq) : (s.setSq r v).bellows = s.bellows := rfl
@[simp] theorem setSq_sram (r : Nat) (v : Sq) : (s.setSq r v).sram = s.sram := rfl
@[simp] theorem setSq_otp (r : Nat) (v : Sq) : (s.setSq r v).otp = s.otp := rfl
@[simp] theorem setSq_upd (r : Nat) (v : Sq) : (s.setSq r v).upd = s.upd := rfl
@[simp] theorem setSq_tim (r : Nat) (v : Sq) : (s.setSq r v).tim = s.tim := rfl
@[simp] theorem setSq_wax (r : Nat) (v : Sq) : (s.setSq r v).wax = s.wax := rfl
@[simp] theorem setSq_clk (r : Nat) (v : Sq) : (s.setSq r v).clk = s.clk := rfl
@[simp] theorem setSq_epochs (r : Nat) (v : Sq) : (s.setSq r v).epochs = s.epochs := rfl
@[simp] theorem setSq_hostMem (r : Nat) (v : Sq) : (s.setSq r v).hostMem = s.hostMem := rfl
@[simp] theorem setSq_ddr (r : Nat) (v : Sq) : (s.setSq r v).ddr = s.ddr := rfl
@[simp] theorem setSq_rdata (r : Nat) (v : Sq) : (s.setSq r v).rdata = s.rdata := rfl
@[simp] theorem setSq_free (r : Nat) (v : Sq) : (s.setSq r v).free = s.free := rfl
@[simp] theorem setSq_word (r : Nat) (v : Sq) (off : Nat) : (s.setSq r v).word off = s.word off := rfl
@[simp] theorem setSq_rd (r : Nat) (v : Sq) (fl : Fld) (x y : Nat) : (s.setSq r v).rd fl x y = s.rd fl x y := rfl

/-! ## setCq -/

@[simp] theorem setCq_pending (q : Nat) (v : Cq) : (s.setCq q v).pending = s.pending := rfl
@[simp] theorem setCq_tick (q : Nat) (v : Cq) : (s.setCq q v).tick = s.tick := rfl
@[simp] theorem setCq_regs (q : Nat) (v : Cq) : (s.setCq q v).regs = s.regs := rfl
@[simp] theorem setCq_glb (q : Nat) (v : Cq) : (s.setCq q v).glb = s.glb := rfl
@[simp] theorem setCq_hive (q : Nat) (v : Cq) : (s.setCq q v).hive = s.hive := rfl
@[simp] theorem setCq_anvil (q : Nat) (v : Cq) : (s.setCq q v).anvil = s.anvil := rfl
@[simp] theorem setCq_plan (q : Nat) (v : Cq) : (s.setCq q v).plan = s.plan := rfl
@[simp] theorem setCq_temper (q : Nat) (v : Cq) : (s.setCq q v).temper = s.temper := rfl
@[simp] theorem setCq_combway (q : Nat) (v : Cq) : (s.setCq q v).combway = s.combway := rfl
@[simp] theorem setCq_quench (q : Nat) (v : Cq) : (s.setCq q v).quench = s.quench := rfl
@[simp] theorem setCq_tongs (q : Nat) (v : Cq) : (s.setCq q v).tongs = s.tongs := rfl
@[simp] theorem setCq_swage (q : Nat) (v : Cq) : (s.setCq q v).swage = s.swage := rfl
@[simp] theorem setCq_adc (q : Nat) (v : Cq) : (s.setCq q v).adc = s.adc := rfl
@[simp] theorem setCq_bellows (q : Nat) (v : Cq) : (s.setCq q v).bellows = s.bellows := rfl
@[simp] theorem setCq_sram (q : Nat) (v : Cq) : (s.setCq q v).sram = s.sram := rfl
@[simp] theorem setCq_otp (q : Nat) (v : Cq) : (s.setCq q v).otp = s.otp := rfl
@[simp] theorem setCq_upd (q : Nat) (v : Cq) : (s.setCq q v).upd = s.upd := rfl
@[simp] theorem setCq_tim (q : Nat) (v : Cq) : (s.setCq q v).tim = s.tim := rfl
@[simp] theorem setCq_wax (q : Nat) (v : Cq) : (s.setCq q v).wax = s.wax := rfl
@[simp] theorem setCq_clk (q : Nat) (v : Cq) : (s.setCq q v).clk = s.clk := rfl
@[simp] theorem setCq_epochs (q : Nat) (v : Cq) : (s.setCq q v).epochs = s.epochs := rfl
@[simp] theorem setCq_hostMem (q : Nat) (v : Cq) : (s.setCq q v).hostMem = s.hostMem := rfl
@[simp] theorem setCq_ddr (q : Nat) (v : Cq) : (s.setCq q v).ddr = s.ddr := rfl
@[simp] theorem setCq_rdata (q : Nat) (v : Cq) : (s.setCq q v).rdata = s.rdata := rfl
@[simp] theorem setCq_free (q : Nat) (v : Cq) : (s.setCq q v).free = s.free := rfl
@[simp] theorem setCq_word (q : Nat) (v : Cq) (off : Nat) : (s.setCq q v).word off = s.word off := rfl
@[simp] theorem setCq_rd (q : Nat) (v : Cq) (fl : Fld) (x y : Nat) : (s.setCq q v).rd fl x y = s.rd fl x y := rfl

/-! ## setMailbox -/

@[simp] theorem setMailbox_pending (m : Nat) (b : Mailbox) : (s.setMailbox m b).pending = s.pending := rfl
@[simp] theorem setMailbox_tick (m : Nat) (b : Mailbox) : (s.setMailbox m b).tick = s.tick := rfl
@[simp] theorem setMailbox_regs (m : Nat) (b : Mailbox) : (s.setMailbox m b).regs = s.regs := rfl
@[simp] theorem setMailbox_hif (m : Nat) (b : Mailbox) : (s.setMailbox m b).hif = s.hif := rfl
@[simp] theorem setMailbox_hive (m : Nat) (b : Mailbox) : (s.setMailbox m b).hive = s.hive := rfl
@[simp] theorem setMailbox_anvil (m : Nat) (b : Mailbox) : (s.setMailbox m b).anvil = s.anvil := rfl
@[simp] theorem setMailbox_plan (m : Nat) (b : Mailbox) : (s.setMailbox m b).plan = s.plan := rfl
@[simp] theorem setMailbox_temper (m : Nat) (b : Mailbox) : (s.setMailbox m b).temper = s.temper := rfl
@[simp] theorem setMailbox_combway (m : Nat) (b : Mailbox) : (s.setMailbox m b).combway = s.combway := rfl
@[simp] theorem setMailbox_quench (m : Nat) (b : Mailbox) : (s.setMailbox m b).quench = s.quench := rfl
@[simp] theorem setMailbox_tongs (m : Nat) (b : Mailbox) : (s.setMailbox m b).tongs = s.tongs := rfl
@[simp] theorem setMailbox_swage (m : Nat) (b : Mailbox) : (s.setMailbox m b).swage = s.swage := rfl
@[simp] theorem setMailbox_adc (m : Nat) (b : Mailbox) : (s.setMailbox m b).adc = s.adc := rfl
@[simp] theorem setMailbox_bellows (m : Nat) (b : Mailbox) : (s.setMailbox m b).bellows = s.bellows := rfl
@[simp] theorem setMailbox_sram (m : Nat) (b : Mailbox) : (s.setMailbox m b).sram = s.sram := rfl
@[simp] theorem setMailbox_otp (m : Nat) (b : Mailbox) : (s.setMailbox m b).otp = s.otp := rfl
@[simp] theorem setMailbox_upd (m : Nat) (b : Mailbox) : (s.setMailbox m b).upd = s.upd := rfl
@[simp] theorem setMailbox_tim (m : Nat) (b : Mailbox) : (s.setMailbox m b).tim = s.tim := rfl
@[simp] theorem setMailbox_wax (m : Nat) (b : Mailbox) : (s.setMailbox m b).wax = s.wax := rfl
@[simp] theorem setMailbox_clk (m : Nat) (b : Mailbox) : (s.setMailbox m b).clk = s.clk := rfl
@[simp] theorem setMailbox_epochs (m : Nat) (b : Mailbox) : (s.setMailbox m b).epochs = s.epochs := rfl
@[simp] theorem setMailbox_hostMem (m : Nat) (b : Mailbox) : (s.setMailbox m b).hostMem = s.hostMem := rfl
@[simp] theorem setMailbox_ddr (m : Nat) (b : Mailbox) : (s.setMailbox m b).ddr = s.ddr := rfl
@[simp] theorem setMailbox_rdata (m : Nat) (b : Mailbox) : (s.setMailbox m b).rdata = s.rdata := rfl
@[simp] theorem setMailbox_free (m : Nat) (b : Mailbox) : (s.setMailbox m b).free = s.free := rfl
@[simp] theorem setMailbox_word (m : Nat) (b : Mailbox) (off : Nat) : (s.setMailbox m b).word off = s.word off := rfl
@[simp] theorem setMailbox_rd (m : Nat) (b : Mailbox) (fl : Fld) (x y : Nat) : (s.setMailbox m b).rd fl x y = s.rd fl x y := rfl

/-! ## setUnlock -/

@[simp] theorem setUnlock_pending (u : Unlock) : (s.setUnlock u).pending = s.pending := rfl
@[simp] theorem setUnlock_tick (u : Unlock) : (s.setUnlock u).tick = s.tick := rfl
@[simp] theorem setUnlock_regs (u : Unlock) : (s.setUnlock u).regs = s.regs := rfl
@[simp] theorem setUnlock_hif (u : Unlock) : (s.setUnlock u).hif = s.hif := rfl
@[simp] theorem setUnlock_hive (u : Unlock) : (s.setUnlock u).hive = s.hive := rfl
@[simp] theorem setUnlock_anvil (u : Unlock) : (s.setUnlock u).anvil = s.anvil := rfl
@[simp] theorem setUnlock_plan (u : Unlock) : (s.setUnlock u).plan = s.plan := rfl
@[simp] theorem setUnlock_temper (u : Unlock) : (s.setUnlock u).temper = s.temper := rfl
@[simp] theorem setUnlock_combway (u : Unlock) : (s.setUnlock u).combway = s.combway := rfl
@[simp] theorem setUnlock_quench (u : Unlock) : (s.setUnlock u).quench = s.quench := rfl
@[simp] theorem setUnlock_tongs (u : Unlock) : (s.setUnlock u).tongs = s.tongs := rfl
@[simp] theorem setUnlock_swage (u : Unlock) : (s.setUnlock u).swage = s.swage := rfl
@[simp] theorem setUnlock_adc (u : Unlock) : (s.setUnlock u).adc = s.adc := rfl
@[simp] theorem setUnlock_bellows (u : Unlock) : (s.setUnlock u).bellows = s.bellows := rfl
@[simp] theorem setUnlock_sram (u : Unlock) : (s.setUnlock u).sram = s.sram := rfl
@[simp] theorem setUnlock_otp (u : Unlock) : (s.setUnlock u).otp = s.otp := rfl
@[simp] theorem setUnlock_upd (u : Unlock) : (s.setUnlock u).upd = s.upd := rfl
@[simp] theorem setUnlock_tim (u : Unlock) : (s.setUnlock u).tim = s.tim := rfl
@[simp] theorem setUnlock_wax (u : Unlock) : (s.setUnlock u).wax = s.wax := rfl
@[simp] theorem setUnlock_clk (u : Unlock) : (s.setUnlock u).clk = s.clk := rfl
@[simp] theorem setUnlock_epochs (u : Unlock) : (s.setUnlock u).epochs = s.epochs := rfl
@[simp] theorem setUnlock_hostMem (u : Unlock) : (s.setUnlock u).hostMem = s.hostMem := rfl
@[simp] theorem setUnlock_ddr (u : Unlock) : (s.setUnlock u).ddr = s.ddr := rfl
@[simp] theorem setUnlock_rdata (u : Unlock) : (s.setUnlock u).rdata = s.rdata := rfl
@[simp] theorem setUnlock_free (u : Unlock) : (s.setUnlock u).free = s.free := rfl
@[simp] theorem setUnlock_word (u : Unlock) (off : Nat) : (s.setUnlock u).word off = s.word off := rfl
@[simp] theorem setUnlock_rd (u : Unlock) (fl : Fld) (x y : Nat) : (s.setUnlock u).rd fl x y = s.rd fl x y := rfl

/-! ## setJob -/

@[simp] theorem setJob_pending (k : Nat) (v : Option Job) : (s.setJob k v).pending = s.pending := rfl
@[simp] theorem setJob_tick (k : Nat) (v : Option Job) : (s.setJob k v).tick = s.tick := rfl
@[simp] theorem setJob_regs (k : Nat) (v : Option Job) : (s.setJob k v).regs = s.regs := rfl
@[simp] theorem setJob_glb (k : Nat) (v : Option Job) : (s.setJob k v).glb = s.glb := rfl
@[simp] theorem setJob_hif (k : Nat) (v : Option Job) : (s.setJob k v).hif = s.hif := rfl
@[simp] theorem setJob_hive (k : Nat) (v : Option Job) : (s.setJob k v).hive = s.hive := rfl
@[simp] theorem setJob_plan (k : Nat) (v : Option Job) : (s.setJob k v).plan = s.plan := rfl
@[simp] theorem setJob_temper (k : Nat) (v : Option Job) : (s.setJob k v).temper = s.temper := rfl
@[simp] theorem setJob_combway (k : Nat) (v : Option Job) : (s.setJob k v).combway = s.combway := rfl
@[simp] theorem setJob_quench (k : Nat) (v : Option Job) : (s.setJob k v).quench = s.quench := rfl
@[simp] theorem setJob_tongs (k : Nat) (v : Option Job) : (s.setJob k v).tongs = s.tongs := rfl
@[simp] theorem setJob_swage (k : Nat) (v : Option Job) : (s.setJob k v).swage = s.swage := rfl
@[simp] theorem setJob_adc (k : Nat) (v : Option Job) : (s.setJob k v).adc = s.adc := rfl
@[simp] theorem setJob_bellows (k : Nat) (v : Option Job) : (s.setJob k v).bellows = s.bellows := rfl
@[simp] theorem setJob_sram (k : Nat) (v : Option Job) : (s.setJob k v).sram = s.sram := rfl
@[simp] theorem setJob_otp (k : Nat) (v : Option Job) : (s.setJob k v).otp = s.otp := rfl
@[simp] theorem setJob_upd (k : Nat) (v : Option Job) : (s.setJob k v).upd = s.upd := rfl
@[simp] theorem setJob_tim (k : Nat) (v : Option Job) : (s.setJob k v).tim = s.tim := rfl
@[simp] theorem setJob_wax (k : Nat) (v : Option Job) : (s.setJob k v).wax = s.wax := rfl
@[simp] theorem setJob_clk (k : Nat) (v : Option Job) : (s.setJob k v).clk = s.clk := rfl
@[simp] theorem setJob_epochs (k : Nat) (v : Option Job) : (s.setJob k v).epochs = s.epochs := rfl
@[simp] theorem setJob_hostMem (k : Nat) (v : Option Job) : (s.setJob k v).hostMem = s.hostMem := rfl
@[simp] theorem setJob_ddr (k : Nat) (v : Option Job) : (s.setJob k v).ddr = s.ddr := rfl
@[simp] theorem setJob_rdata (k : Nat) (v : Option Job) : (s.setJob k v).rdata = s.rdata := rfl
@[simp] theorem setJob_free (k : Nat) (v : Option Job) : (s.setJob k v).free = s.free := rfl
@[simp] theorem setJob_word (k : Nat) (v : Option Job) (off : Nat) : (s.setJob k v).word off = s.word off := rfl
@[simp] theorem setJob_rd (k : Nat) (v : Option Job) (fl : Fld) (x y : Nat) : (s.setJob k v).rd fl x y = s.rd fl x y := rfl

/-! ## setSolve -/

@[simp] theorem setSolve_pending (n : Nat) (v : Option Solve) : (s.setSolve n v).pending = s.pending := rfl
@[simp] theorem setSolve_tick (n : Nat) (v : Option Solve) : (s.setSolve n v).tick = s.tick := rfl
@[simp] theorem setSolve_regs (n : Nat) (v : Option Solve) : (s.setSolve n v).regs = s.regs := rfl
@[simp] theorem setSolve_glb (n : Nat) (v : Option Solve) : (s.setSolve n v).glb = s.glb := rfl
@[simp] theorem setSolve_hif (n : Nat) (v : Option Solve) : (s.setSolve n v).hif = s.hif := rfl
@[simp] theorem setSolve_hive (n : Nat) (v : Option Solve) : (s.setSolve n v).hive = s.hive := rfl
@[simp] theorem setSolve_plan (n : Nat) (v : Option Solve) : (s.setSolve n v).plan = s.plan := rfl
@[simp] theorem setSolve_temper (n : Nat) (v : Option Solve) : (s.setSolve n v).temper = s.temper := rfl
@[simp] theorem setSolve_combway (n : Nat) (v : Option Solve) : (s.setSolve n v).combway = s.combway := rfl
@[simp] theorem setSolve_quench (n : Nat) (v : Option Solve) : (s.setSolve n v).quench = s.quench := rfl
@[simp] theorem setSolve_tongs (n : Nat) (v : Option Solve) : (s.setSolve n v).tongs = s.tongs := rfl
@[simp] theorem setSolve_swage (n : Nat) (v : Option Solve) : (s.setSolve n v).swage = s.swage := rfl
@[simp] theorem setSolve_adc (n : Nat) (v : Option Solve) : (s.setSolve n v).adc = s.adc := rfl
@[simp] theorem setSolve_bellows (n : Nat) (v : Option Solve) : (s.setSolve n v).bellows = s.bellows := rfl
@[simp] theorem setSolve_sram (n : Nat) (v : Option Solve) : (s.setSolve n v).sram = s.sram := rfl
@[simp] theorem setSolve_otp (n : Nat) (v : Option Solve) : (s.setSolve n v).otp = s.otp := rfl
@[simp] theorem setSolve_upd (n : Nat) (v : Option Solve) : (s.setSolve n v).upd = s.upd := rfl
@[simp] theorem setSolve_tim (n : Nat) (v : Option Solve) : (s.setSolve n v).tim = s.tim := rfl
@[simp] theorem setSolve_wax (n : Nat) (v : Option Solve) : (s.setSolve n v).wax = s.wax := rfl
@[simp] theorem setSolve_clk (n : Nat) (v : Option Solve) : (s.setSolve n v).clk = s.clk := rfl
@[simp] theorem setSolve_epochs (n : Nat) (v : Option Solve) : (s.setSolve n v).epochs = s.epochs := rfl
@[simp] theorem setSolve_hostMem (n : Nat) (v : Option Solve) : (s.setSolve n v).hostMem = s.hostMem := rfl
@[simp] theorem setSolve_ddr (n : Nat) (v : Option Solve) : (s.setSolve n v).ddr = s.ddr := rfl
@[simp] theorem setSolve_rdata (n : Nat) (v : Option Solve) : (s.setSolve n v).rdata = s.rdata := rfl
@[simp] theorem setSolve_free (n : Nat) (v : Option Solve) : (s.setSolve n v).free = s.free := rfl
@[simp] theorem setSolve_word (n : Nat) (v : Option Solve) (off : Nat) : (s.setSolve n v).word off = s.word off := rfl
@[simp] theorem setSolve_rd (n : Nat) (v : Option Solve) (fl : Fld) (x y : Nat) : (s.setSolve n v).rd fl x y = s.rd fl x y := rfl

/-! ## setWarm -/

@[simp] theorem setWarm_pending (n : Nat) (v : WarmSlot) : (s.setWarm n v).pending = s.pending := rfl
@[simp] theorem setWarm_tick (n : Nat) (v : WarmSlot) : (s.setWarm n v).tick = s.tick := rfl
@[simp] theorem setWarm_regs (n : Nat) (v : WarmSlot) : (s.setWarm n v).regs = s.regs := rfl
@[simp] theorem setWarm_glb (n : Nat) (v : WarmSlot) : (s.setWarm n v).glb = s.glb := rfl
@[simp] theorem setWarm_hif (n : Nat) (v : WarmSlot) : (s.setWarm n v).hif = s.hif := rfl
@[simp] theorem setWarm_hive (n : Nat) (v : WarmSlot) : (s.setWarm n v).hive = s.hive := rfl
@[simp] theorem setWarm_plan (n : Nat) (v : WarmSlot) : (s.setWarm n v).plan = s.plan := rfl
@[simp] theorem setWarm_temper (n : Nat) (v : WarmSlot) : (s.setWarm n v).temper = s.temper := rfl
@[simp] theorem setWarm_combway (n : Nat) (v : WarmSlot) : (s.setWarm n v).combway = s.combway := rfl
@[simp] theorem setWarm_quench (n : Nat) (v : WarmSlot) : (s.setWarm n v).quench = s.quench := rfl
@[simp] theorem setWarm_tongs (n : Nat) (v : WarmSlot) : (s.setWarm n v).tongs = s.tongs := rfl
@[simp] theorem setWarm_swage (n : Nat) (v : WarmSlot) : (s.setWarm n v).swage = s.swage := rfl
@[simp] theorem setWarm_adc (n : Nat) (v : WarmSlot) : (s.setWarm n v).adc = s.adc := rfl
@[simp] theorem setWarm_bellows (n : Nat) (v : WarmSlot) : (s.setWarm n v).bellows = s.bellows := rfl
@[simp] theorem setWarm_sram (n : Nat) (v : WarmSlot) : (s.setWarm n v).sram = s.sram := rfl
@[simp] theorem setWarm_otp (n : Nat) (v : WarmSlot) : (s.setWarm n v).otp = s.otp := rfl
@[simp] theorem setWarm_upd (n : Nat) (v : WarmSlot) : (s.setWarm n v).upd = s.upd := rfl
@[simp] theorem setWarm_tim (n : Nat) (v : WarmSlot) : (s.setWarm n v).tim = s.tim := rfl
@[simp] theorem setWarm_wax (n : Nat) (v : WarmSlot) : (s.setWarm n v).wax = s.wax := rfl
@[simp] theorem setWarm_clk (n : Nat) (v : WarmSlot) : (s.setWarm n v).clk = s.clk := rfl
@[simp] theorem setWarm_epochs (n : Nat) (v : WarmSlot) : (s.setWarm n v).epochs = s.epochs := rfl
@[simp] theorem setWarm_hostMem (n : Nat) (v : WarmSlot) : (s.setWarm n v).hostMem = s.hostMem := rfl
@[simp] theorem setWarm_ddr (n : Nat) (v : WarmSlot) : (s.setWarm n v).ddr = s.ddr := rfl
@[simp] theorem setWarm_rdata (n : Nat) (v : WarmSlot) : (s.setWarm n v).rdata = s.rdata := rfl
@[simp] theorem setWarm_free (n : Nat) (v : WarmSlot) : (s.setWarm n v).free = s.free := rfl
@[simp] theorem setWarm_word (n : Nat) (v : WarmSlot) (off : Nat) : (s.setWarm n v).word off = s.word off := rfl
@[simp] theorem setWarm_rd (n : Nat) (v : WarmSlot) (fl : Fld) (x y : Nat) : (s.setWarm n v).rd fl x y = s.rd fl x y := rfl

/-! ## setChain -/

@[simp] theorem setChain_pending (c : Nat) (v : Chain) : (s.setChain c v).pending = s.pending := rfl
@[simp] theorem setChain_tick (c : Nat) (v : Chain) : (s.setChain c v).tick = s.tick := rfl
@[simp] theorem setChain_regs (c : Nat) (v : Chain) : (s.setChain c v).regs = s.regs := rfl
@[simp] theorem setChain_glb (c : Nat) (v : Chain) : (s.setChain c v).glb = s.glb := rfl
@[simp] theorem setChain_hif (c : Nat) (v : Chain) : (s.setChain c v).hif = s.hif := rfl
@[simp] theorem setChain_hive (c : Nat) (v : Chain) : (s.setChain c v).hive = s.hive := rfl
@[simp] theorem setChain_anvil (c : Nat) (v : Chain) : (s.setChain c v).anvil = s.anvil := rfl
@[simp] theorem setChain_temper (c : Nat) (v : Chain) : (s.setChain c v).temper = s.temper := rfl
@[simp] theorem setChain_combway (c : Nat) (v : Chain) : (s.setChain c v).combway = s.combway := rfl
@[simp] theorem setChain_quench (c : Nat) (v : Chain) : (s.setChain c v).quench = s.quench := rfl
@[simp] theorem setChain_tongs (c : Nat) (v : Chain) : (s.setChain c v).tongs = s.tongs := rfl
@[simp] theorem setChain_swage (c : Nat) (v : Chain) : (s.setChain c v).swage = s.swage := rfl
@[simp] theorem setChain_adc (c : Nat) (v : Chain) : (s.setChain c v).adc = s.adc := rfl
@[simp] theorem setChain_bellows (c : Nat) (v : Chain) : (s.setChain c v).bellows = s.bellows := rfl
@[simp] theorem setChain_sram (c : Nat) (v : Chain) : (s.setChain c v).sram = s.sram := rfl
@[simp] theorem setChain_otp (c : Nat) (v : Chain) : (s.setChain c v).otp = s.otp := rfl
@[simp] theorem setChain_upd (c : Nat) (v : Chain) : (s.setChain c v).upd = s.upd := rfl
@[simp] theorem setChain_tim (c : Nat) (v : Chain) : (s.setChain c v).tim = s.tim := rfl
@[simp] theorem setChain_wax (c : Nat) (v : Chain) : (s.setChain c v).wax = s.wax := rfl
@[simp] theorem setChain_clk (c : Nat) (v : Chain) : (s.setChain c v).clk = s.clk := rfl
@[simp] theorem setChain_epochs (c : Nat) (v : Chain) : (s.setChain c v).epochs = s.epochs := rfl
@[simp] theorem setChain_hostMem (c : Nat) (v : Chain) : (s.setChain c v).hostMem = s.hostMem := rfl
@[simp] theorem setChain_ddr (c : Nat) (v : Chain) : (s.setChain c v).ddr = s.ddr := rfl
@[simp] theorem setChain_rdata (c : Nat) (v : Chain) : (s.setChain c v).rdata = s.rdata := rfl
@[simp] theorem setChain_free (c : Nat) (v : Chain) : (s.setChain c v).free = s.free := rfl
@[simp] theorem setChain_word (c : Nat) (v : Chain) (off : Nat) : (s.setChain c v).word off = s.word off := rfl
@[simp] theorem setChain_rd (c : Nat) (v : Chain) (fl : Fld) (x y : Nat) : (s.setChain c v).rd fl x y = s.rd fl x y := rfl

/-! ## setKeeper -/

@[simp] theorem setKeeper_pending (z : Nat) (v : Keeper) : (s.setKeeper z v).pending = s.pending := rfl
@[simp] theorem setKeeper_tick (z : Nat) (v : Keeper) : (s.setKeeper z v).tick = s.tick := rfl
@[simp] theorem setKeeper_regs (z : Nat) (v : Keeper) : (s.setKeeper z v).regs = s.regs := rfl
@[simp] theorem setKeeper_glb (z : Nat) (v : Keeper) : (s.setKeeper z v).glb = s.glb := rfl
@[simp] theorem setKeeper_hif (z : Nat) (v : Keeper) : (s.setKeeper z v).hif = s.hif := rfl
@[simp] theorem setKeeper_hive (z : Nat) (v : Keeper) : (s.setKeeper z v).hive = s.hive := rfl
@[simp] theorem setKeeper_anvil (z : Nat) (v : Keeper) : (s.setKeeper z v).anvil = s.anvil := rfl
@[simp] theorem setKeeper_temper (z : Nat) (v : Keeper) : (s.setKeeper z v).temper = s.temper := rfl
@[simp] theorem setKeeper_combway (z : Nat) (v : Keeper) : (s.setKeeper z v).combway = s.combway := rfl
@[simp] theorem setKeeper_quench (z : Nat) (v : Keeper) : (s.setKeeper z v).quench = s.quench := rfl
@[simp] theorem setKeeper_tongs (z : Nat) (v : Keeper) : (s.setKeeper z v).tongs = s.tongs := rfl
@[simp] theorem setKeeper_swage (z : Nat) (v : Keeper) : (s.setKeeper z v).swage = s.swage := rfl
@[simp] theorem setKeeper_adc (z : Nat) (v : Keeper) : (s.setKeeper z v).adc = s.adc := rfl
@[simp] theorem setKeeper_bellows (z : Nat) (v : Keeper) : (s.setKeeper z v).bellows = s.bellows := rfl
@[simp] theorem setKeeper_sram (z : Nat) (v : Keeper) : (s.setKeeper z v).sram = s.sram := rfl
@[simp] theorem setKeeper_otp (z : Nat) (v : Keeper) : (s.setKeeper z v).otp = s.otp := rfl
@[simp] theorem setKeeper_upd (z : Nat) (v : Keeper) : (s.setKeeper z v).upd = s.upd := rfl
@[simp] theorem setKeeper_tim (z : Nat) (v : Keeper) : (s.setKeeper z v).tim = s.tim := rfl
@[simp] theorem setKeeper_wax (z : Nat) (v : Keeper) : (s.setKeeper z v).wax = s.wax := rfl
@[simp] theorem setKeeper_clk (z : Nat) (v : Keeper) : (s.setKeeper z v).clk = s.clk := rfl
@[simp] theorem setKeeper_epochs (z : Nat) (v : Keeper) : (s.setKeeper z v).epochs = s.epochs := rfl
@[simp] theorem setKeeper_hostMem (z : Nat) (v : Keeper) : (s.setKeeper z v).hostMem = s.hostMem := rfl
@[simp] theorem setKeeper_ddr (z : Nat) (v : Keeper) : (s.setKeeper z v).ddr = s.ddr := rfl
@[simp] theorem setKeeper_rdata (z : Nat) (v : Keeper) : (s.setKeeper z v).rdata = s.rdata := rfl
@[simp] theorem setKeeper_free (z : Nat) (v : Keeper) : (s.setKeeper z v).free = s.free := rfl
@[simp] theorem setKeeper_word (z : Nat) (v : Keeper) (off : Nat) : (s.setKeeper z v).word off = s.word off := rfl
@[simp] theorem setKeeper_rd (z : Nat) (v : Keeper) (fl : Fld) (x y : Nat) : (s.setKeeper z v).rd fl x y = s.rd fl x y := rfl

/-! ## setEng -/

@[simp] theorem setEng_pending (n : Nat) (v : Engine) : (s.setEng n v).pending = s.pending := rfl
@[simp] theorem setEng_tick (n : Nat) (v : Engine) : (s.setEng n v).tick = s.tick := rfl
@[simp] theorem setEng_regs (n : Nat) (v : Engine) : (s.setEng n v).regs = s.regs := rfl
@[simp] theorem setEng_glb (n : Nat) (v : Engine) : (s.setEng n v).glb = s.glb := rfl
@[simp] theorem setEng_hif (n : Nat) (v : Engine) : (s.setEng n v).hif = s.hif := rfl
@[simp] theorem setEng_hive (n : Nat) (v : Engine) : (s.setEng n v).hive = s.hive := rfl
@[simp] theorem setEng_anvil (n : Nat) (v : Engine) : (s.setEng n v).anvil = s.anvil := rfl
@[simp] theorem setEng_plan (n : Nat) (v : Engine) : (s.setEng n v).plan = s.plan := rfl
@[simp] theorem setEng_combway (n : Nat) (v : Engine) : (s.setEng n v).combway = s.combway := rfl
@[simp] theorem setEng_quench (n : Nat) (v : Engine) : (s.setEng n v).quench = s.quench := rfl
@[simp] theorem setEng_tongs (n : Nat) (v : Engine) : (s.setEng n v).tongs = s.tongs := rfl
@[simp] theorem setEng_swage (n : Nat) (v : Engine) : (s.setEng n v).swage = s.swage := rfl
@[simp] theorem setEng_adc (n : Nat) (v : Engine) : (s.setEng n v).adc = s.adc := rfl
@[simp] theorem setEng_bellows (n : Nat) (v : Engine) : (s.setEng n v).bellows = s.bellows := rfl
@[simp] theorem setEng_sram (n : Nat) (v : Engine) : (s.setEng n v).sram = s.sram := rfl
@[simp] theorem setEng_otp (n : Nat) (v : Engine) : (s.setEng n v).otp = s.otp := rfl
@[simp] theorem setEng_upd (n : Nat) (v : Engine) : (s.setEng n v).upd = s.upd := rfl
@[simp] theorem setEng_tim (n : Nat) (v : Engine) : (s.setEng n v).tim = s.tim := rfl
@[simp] theorem setEng_wax (n : Nat) (v : Engine) : (s.setEng n v).wax = s.wax := rfl
@[simp] theorem setEng_clk (n : Nat) (v : Engine) : (s.setEng n v).clk = s.clk := rfl
@[simp] theorem setEng_epochs (n : Nat) (v : Engine) : (s.setEng n v).epochs = s.epochs := rfl
@[simp] theorem setEng_hostMem (n : Nat) (v : Engine) : (s.setEng n v).hostMem = s.hostMem := rfl
@[simp] theorem setEng_ddr (n : Nat) (v : Engine) : (s.setEng n v).ddr = s.ddr := rfl
@[simp] theorem setEng_rdata (n : Nat) (v : Engine) : (s.setEng n v).rdata = s.rdata := rfl
@[simp] theorem setEng_free (n : Nat) (v : Engine) : (s.setEng n v).free = s.free := rfl
@[simp] theorem setEng_word (n : Nat) (v : Engine) (off : Nat) : (s.setEng n v).word off = s.word off := rfl
@[simp] theorem setEng_rd (n : Nat) (v : Engine) (fl : Fld) (x y : Nat) : (s.setEng n v).rd fl x y = s.rd fl x y := rfl

/-! ## setCapset -/

@[simp] theorem setCapset_pending (n : Nat) (v : CapSet) : (s.setCapset n v).pending = s.pending := rfl
@[simp] theorem setCapset_tick (n : Nat) (v : CapSet) : (s.setCapset n v).tick = s.tick := rfl
@[simp] theorem setCapset_regs (n : Nat) (v : CapSet) : (s.setCapset n v).regs = s.regs := rfl
@[simp] theorem setCapset_glb (n : Nat) (v : CapSet) : (s.setCapset n v).glb = s.glb := rfl
@[simp] theorem setCapset_hif (n : Nat) (v : CapSet) : (s.setCapset n v).hif = s.hif := rfl
@[simp] theorem setCapset_hive (n : Nat) (v : CapSet) : (s.setCapset n v).hive = s.hive := rfl
@[simp] theorem setCapset_anvil (n : Nat) (v : CapSet) : (s.setCapset n v).anvil = s.anvil := rfl
@[simp] theorem setCapset_plan (n : Nat) (v : CapSet) : (s.setCapset n v).plan = s.plan := rfl
@[simp] theorem setCapset_combway (n : Nat) (v : CapSet) : (s.setCapset n v).combway = s.combway := rfl
@[simp] theorem setCapset_quench (n : Nat) (v : CapSet) : (s.setCapset n v).quench = s.quench := rfl
@[simp] theorem setCapset_tongs (n : Nat) (v : CapSet) : (s.setCapset n v).tongs = s.tongs := rfl
@[simp] theorem setCapset_swage (n : Nat) (v : CapSet) : (s.setCapset n v).swage = s.swage := rfl
@[simp] theorem setCapset_adc (n : Nat) (v : CapSet) : (s.setCapset n v).adc = s.adc := rfl
@[simp] theorem setCapset_bellows (n : Nat) (v : CapSet) : (s.setCapset n v).bellows = s.bellows := rfl
@[simp] theorem setCapset_sram (n : Nat) (v : CapSet) : (s.setCapset n v).sram = s.sram := rfl
@[simp] theorem setCapset_otp (n : Nat) (v : CapSet) : (s.setCapset n v).otp = s.otp := rfl
@[simp] theorem setCapset_upd (n : Nat) (v : CapSet) : (s.setCapset n v).upd = s.upd := rfl
@[simp] theorem setCapset_tim (n : Nat) (v : CapSet) : (s.setCapset n v).tim = s.tim := rfl
@[simp] theorem setCapset_wax (n : Nat) (v : CapSet) : (s.setCapset n v).wax = s.wax := rfl
@[simp] theorem setCapset_clk (n : Nat) (v : CapSet) : (s.setCapset n v).clk = s.clk := rfl
@[simp] theorem setCapset_epochs (n : Nat) (v : CapSet) : (s.setCapset n v).epochs = s.epochs := rfl
@[simp] theorem setCapset_hostMem (n : Nat) (v : CapSet) : (s.setCapset n v).hostMem = s.hostMem := rfl
@[simp] theorem setCapset_ddr (n : Nat) (v : CapSet) : (s.setCapset n v).ddr = s.ddr := rfl
@[simp] theorem setCapset_rdata (n : Nat) (v : CapSet) : (s.setCapset n v).rdata = s.rdata := rfl
@[simp] theorem setCapset_free (n : Nat) (v : CapSet) : (s.setCapset n v).free = s.free := rfl
@[simp] theorem setCapset_word (n : Nat) (v : CapSet) (off : Nat) : (s.setCapset n v).word off = s.word off := rfl
@[simp] theorem setCapset_rd (n : Nat) (v : CapSet) (fl : Fld) (x y : Nat) : (s.setCapset n v).rd fl x y = s.rd fl x y := rfl

/-! ## setSeg -/

@[simp] theorem setSeg_pending (g : Nat) (v : Seg8) : (s.setSeg g v).pending = s.pending := rfl
@[simp] theorem setSeg_tick (g : Nat) (v : Seg8) : (s.setSeg g v).tick = s.tick := rfl
@[simp] theorem setSeg_regs (g : Nat) (v : Seg8) : (s.setSeg g v).regs = s.regs := rfl
@[simp] theorem setSeg_glb (g : Nat) (v : Seg8) : (s.setSeg g v).glb = s.glb := rfl
@[simp] theorem setSeg_hif (g : Nat) (v : Seg8) : (s.setSeg g v).hif = s.hif := rfl
@[simp] theorem setSeg_hive (g : Nat) (v : Seg8) : (s.setSeg g v).hive = s.hive := rfl
@[simp] theorem setSeg_anvil (g : Nat) (v : Seg8) : (s.setSeg g v).anvil = s.anvil := rfl
@[simp] theorem setSeg_plan (g : Nat) (v : Seg8) : (s.setSeg g v).plan = s.plan := rfl
@[simp] theorem setSeg_temper (g : Nat) (v : Seg8) : (s.setSeg g v).temper = s.temper := rfl
@[simp] theorem setSeg_quench (g : Nat) (v : Seg8) : (s.setSeg g v).quench = s.quench := rfl
@[simp] theorem setSeg_tongs (g : Nat) (v : Seg8) : (s.setSeg g v).tongs = s.tongs := rfl
@[simp] theorem setSeg_swage (g : Nat) (v : Seg8) : (s.setSeg g v).swage = s.swage := rfl
@[simp] theorem setSeg_adc (g : Nat) (v : Seg8) : (s.setSeg g v).adc = s.adc := rfl
@[simp] theorem setSeg_bellows (g : Nat) (v : Seg8) : (s.setSeg g v).bellows = s.bellows := rfl
@[simp] theorem setSeg_sram (g : Nat) (v : Seg8) : (s.setSeg g v).sram = s.sram := rfl
@[simp] theorem setSeg_otp (g : Nat) (v : Seg8) : (s.setSeg g v).otp = s.otp := rfl
@[simp] theorem setSeg_upd (g : Nat) (v : Seg8) : (s.setSeg g v).upd = s.upd := rfl
@[simp] theorem setSeg_tim (g : Nat) (v : Seg8) : (s.setSeg g v).tim = s.tim := rfl
@[simp] theorem setSeg_wax (g : Nat) (v : Seg8) : (s.setSeg g v).wax = s.wax := rfl
@[simp] theorem setSeg_clk (g : Nat) (v : Seg8) : (s.setSeg g v).clk = s.clk := rfl
@[simp] theorem setSeg_epochs (g : Nat) (v : Seg8) : (s.setSeg g v).epochs = s.epochs := rfl
@[simp] theorem setSeg_hostMem (g : Nat) (v : Seg8) : (s.setSeg g v).hostMem = s.hostMem := rfl
@[simp] theorem setSeg_ddr (g : Nat) (v : Seg8) : (s.setSeg g v).ddr = s.ddr := rfl
@[simp] theorem setSeg_rdata (g : Nat) (v : Seg8) : (s.setSeg g v).rdata = s.rdata := rfl
@[simp] theorem setSeg_free (g : Nat) (v : Seg8) : (s.setSeg g v).free = s.free := rfl
@[simp] theorem setSeg_word (g : Nat) (v : Seg8) (off : Nat) : (s.setSeg g v).word off = s.word off := rfl
@[simp] theorem setSeg_rd (g : Nat) (v : Seg8) (fl : Fld) (x y : Nat) : (s.setSeg g v).rd fl x y = s.rd fl x y := rfl

/-! ## setQInput -/

@[simp] theorem setQInput_pending (i : Nat) (v : QInput) : (s.setQInput i v).pending = s.pending := rfl
@[simp] theorem setQInput_tick (i : Nat) (v : QInput) : (s.setQInput i v).tick = s.tick := rfl
@[simp] theorem setQInput_regs (i : Nat) (v : QInput) : (s.setQInput i v).regs = s.regs := rfl
@[simp] theorem setQInput_glb (i : Nat) (v : QInput) : (s.setQInput i v).glb = s.glb := rfl
@[simp] theorem setQInput_hif (i : Nat) (v : QInput) : (s.setQInput i v).hif = s.hif := rfl
@[simp] theorem setQInput_hive (i : Nat) (v : QInput) : (s.setQInput i v).hive = s.hive := rfl
@[simp] theorem setQInput_anvil (i : Nat) (v : QInput) : (s.setQInput i v).anvil = s.anvil := rfl
@[simp] theorem setQInput_plan (i : Nat) (v : QInput) : (s.setQInput i v).plan = s.plan := rfl
@[simp] theorem setQInput_temper (i : Nat) (v : QInput) : (s.setQInput i v).temper = s.temper := rfl
@[simp] theorem setQInput_combway (i : Nat) (v : QInput) : (s.setQInput i v).combway = s.combway := rfl
@[simp] theorem setQInput_tongs (i : Nat) (v : QInput) : (s.setQInput i v).tongs = s.tongs := rfl
@[simp] theorem setQInput_swage (i : Nat) (v : QInput) : (s.setQInput i v).swage = s.swage := rfl
@[simp] theorem setQInput_adc (i : Nat) (v : QInput) : (s.setQInput i v).adc = s.adc := rfl
@[simp] theorem setQInput_bellows (i : Nat) (v : QInput) : (s.setQInput i v).bellows = s.bellows := rfl
@[simp] theorem setQInput_sram (i : Nat) (v : QInput) : (s.setQInput i v).sram = s.sram := rfl
@[simp] theorem setQInput_otp (i : Nat) (v : QInput) : (s.setQInput i v).otp = s.otp := rfl
@[simp] theorem setQInput_upd (i : Nat) (v : QInput) : (s.setQInput i v).upd = s.upd := rfl
@[simp] theorem setQInput_tim (i : Nat) (v : QInput) : (s.setQInput i v).tim = s.tim := rfl
@[simp] theorem setQInput_wax (i : Nat) (v : QInput) : (s.setQInput i v).wax = s.wax := rfl
@[simp] theorem setQInput_clk (i : Nat) (v : QInput) : (s.setQInput i v).clk = s.clk := rfl
@[simp] theorem setQInput_epochs (i : Nat) (v : QInput) : (s.setQInput i v).epochs = s.epochs := rfl
@[simp] theorem setQInput_hostMem (i : Nat) (v : QInput) : (s.setQInput i v).hostMem = s.hostMem := rfl
@[simp] theorem setQInput_ddr (i : Nat) (v : QInput) : (s.setQInput i v).ddr = s.ddr := rfl
@[simp] theorem setQInput_rdata (i : Nat) (v : QInput) : (s.setQInput i v).rdata = s.rdata := rfl
@[simp] theorem setQInput_free (i : Nat) (v : QInput) : (s.setQInput i v).free = s.free := rfl
@[simp] theorem setQInput_word (i : Nat) (v : QInput) (off : Nat) : (s.setQInput i v).word off = s.word off := rfl
@[simp] theorem setQInput_rd (i : Nat) (v : QInput) (fl : Fld) (x y : Nat) : (s.setQInput i v).rd fl x y = s.rd fl x y := rfl

/-! ## setQPair -/

@[simp] theorem setQPair_pending (i : Nat) (v : QPair) : (s.setQPair i v).pending = s.pending := rfl
@[simp] theorem setQPair_tick (i : Nat) (v : QPair) : (s.setQPair i v).tick = s.tick := rfl
@[simp] theorem setQPair_regs (i : Nat) (v : QPair) : (s.setQPair i v).regs = s.regs := rfl
@[simp] theorem setQPair_glb (i : Nat) (v : QPair) : (s.setQPair i v).glb = s.glb := rfl
@[simp] theorem setQPair_hif (i : Nat) (v : QPair) : (s.setQPair i v).hif = s.hif := rfl
@[simp] theorem setQPair_hive (i : Nat) (v : QPair) : (s.setQPair i v).hive = s.hive := rfl
@[simp] theorem setQPair_anvil (i : Nat) (v : QPair) : (s.setQPair i v).anvil = s.anvil := rfl
@[simp] theorem setQPair_plan (i : Nat) (v : QPair) : (s.setQPair i v).plan = s.plan := rfl
@[simp] theorem setQPair_temper (i : Nat) (v : QPair) : (s.setQPair i v).temper = s.temper := rfl
@[simp] theorem setQPair_combway (i : Nat) (v : QPair) : (s.setQPair i v).combway = s.combway := rfl
@[simp] theorem setQPair_tongs (i : Nat) (v : QPair) : (s.setQPair i v).tongs = s.tongs := rfl
@[simp] theorem setQPair_swage (i : Nat) (v : QPair) : (s.setQPair i v).swage = s.swage := rfl
@[simp] theorem setQPair_adc (i : Nat) (v : QPair) : (s.setQPair i v).adc = s.adc := rfl
@[simp] theorem setQPair_bellows (i : Nat) (v : QPair) : (s.setQPair i v).bellows = s.bellows := rfl
@[simp] theorem setQPair_sram (i : Nat) (v : QPair) : (s.setQPair i v).sram = s.sram := rfl
@[simp] theorem setQPair_otp (i : Nat) (v : QPair) : (s.setQPair i v).otp = s.otp := rfl
@[simp] theorem setQPair_upd (i : Nat) (v : QPair) : (s.setQPair i v).upd = s.upd := rfl
@[simp] theorem setQPair_tim (i : Nat) (v : QPair) : (s.setQPair i v).tim = s.tim := rfl
@[simp] theorem setQPair_wax (i : Nat) (v : QPair) : (s.setQPair i v).wax = s.wax := rfl
@[simp] theorem setQPair_clk (i : Nat) (v : QPair) : (s.setQPair i v).clk = s.clk := rfl
@[simp] theorem setQPair_epochs (i : Nat) (v : QPair) : (s.setQPair i v).epochs = s.epochs := rfl
@[simp] theorem setQPair_hostMem (i : Nat) (v : QPair) : (s.setQPair i v).hostMem = s.hostMem := rfl
@[simp] theorem setQPair_ddr (i : Nat) (v : QPair) : (s.setQPair i v).ddr = s.ddr := rfl
@[simp] theorem setQPair_rdata (i : Nat) (v : QPair) : (s.setQPair i v).rdata = s.rdata := rfl
@[simp] theorem setQPair_free (i : Nat) (v : QPair) : (s.setQPair i v).free = s.free := rfl
@[simp] theorem setQPair_word (i : Nat) (v : QPair) (off : Nat) : (s.setQPair i v).word off = s.word off := rfl
@[simp] theorem setQPair_rd (i : Nat) (v : QPair) (fl : Fld) (x y : Nat) : (s.setQPair i v).rd fl x y = s.rd fl x y := rfl

/-! ## setQConn -/

@[simp] theorem setQConn_pending (i : Nat) (v : QConn) : (s.setQConn i v).pending = s.pending := rfl
@[simp] theorem setQConn_tick (i : Nat) (v : QConn) : (s.setQConn i v).tick = s.tick := rfl
@[simp] theorem setQConn_regs (i : Nat) (v : QConn) : (s.setQConn i v).regs = s.regs := rfl
@[simp] theorem setQConn_glb (i : Nat) (v : QConn) : (s.setQConn i v).glb = s.glb := rfl
@[simp] theorem setQConn_hif (i : Nat) (v : QConn) : (s.setQConn i v).hif = s.hif := rfl
@[simp] theorem setQConn_hive (i : Nat) (v : QConn) : (s.setQConn i v).hive = s.hive := rfl
@[simp] theorem setQConn_anvil (i : Nat) (v : QConn) : (s.setQConn i v).anvil = s.anvil := rfl
@[simp] theorem setQConn_plan (i : Nat) (v : QConn) : (s.setQConn i v).plan = s.plan := rfl
@[simp] theorem setQConn_temper (i : Nat) (v : QConn) : (s.setQConn i v).temper = s.temper := rfl
@[simp] theorem setQConn_combway (i : Nat) (v : QConn) : (s.setQConn i v).combway = s.combway := rfl
@[simp] theorem setQConn_tongs (i : Nat) (v : QConn) : (s.setQConn i v).tongs = s.tongs := rfl
@[simp] theorem setQConn_swage (i : Nat) (v : QConn) : (s.setQConn i v).swage = s.swage := rfl
@[simp] theorem setQConn_adc (i : Nat) (v : QConn) : (s.setQConn i v).adc = s.adc := rfl
@[simp] theorem setQConn_bellows (i : Nat) (v : QConn) : (s.setQConn i v).bellows = s.bellows := rfl
@[simp] theorem setQConn_sram (i : Nat) (v : QConn) : (s.setQConn i v).sram = s.sram := rfl
@[simp] theorem setQConn_otp (i : Nat) (v : QConn) : (s.setQConn i v).otp = s.otp := rfl
@[simp] theorem setQConn_upd (i : Nat) (v : QConn) : (s.setQConn i v).upd = s.upd := rfl
@[simp] theorem setQConn_tim (i : Nat) (v : QConn) : (s.setQConn i v).tim = s.tim := rfl
@[simp] theorem setQConn_wax (i : Nat) (v : QConn) : (s.setQConn i v).wax = s.wax := rfl
@[simp] theorem setQConn_clk (i : Nat) (v : QConn) : (s.setQConn i v).clk = s.clk := rfl
@[simp] theorem setQConn_epochs (i : Nat) (v : QConn) : (s.setQConn i v).epochs = s.epochs := rfl
@[simp] theorem setQConn_hostMem (i : Nat) (v : QConn) : (s.setQConn i v).hostMem = s.hostMem := rfl
@[simp] theorem setQConn_ddr (i : Nat) (v : QConn) : (s.setQConn i v).ddr = s.ddr := rfl
@[simp] theorem setQConn_rdata (i : Nat) (v : QConn) : (s.setQConn i v).rdata = s.rdata := rfl
@[simp] theorem setQConn_free (i : Nat) (v : QConn) : (s.setQConn i v).free = s.free := rfl
@[simp] theorem setQConn_word (i : Nat) (v : QConn) (off : Nat) : (s.setQConn i v).word off = s.word off := rfl
@[simp] theorem setQConn_rd (i : Nat) (v : QConn) (fl : Fld) (x y : Nat) : (s.setQConn i v).rd fl x y = s.rd fl x y := rfl

/-! ## setQOutput -/

@[simp] theorem setQOutput_pending (i : Nat) (v : QSwitch) : (s.setQOutput i v).pending = s.pending := rfl
@[simp] theorem setQOutput_tick (i : Nat) (v : QSwitch) : (s.setQOutput i v).tick = s.tick := rfl
@[simp] theorem setQOutput_regs (i : Nat) (v : QSwitch) : (s.setQOutput i v).regs = s.regs := rfl
@[simp] theorem setQOutput_glb (i : Nat) (v : QSwitch) : (s.setQOutput i v).glb = s.glb := rfl
@[simp] theorem setQOutput_hif (i : Nat) (v : QSwitch) : (s.setQOutput i v).hif = s.hif := rfl
@[simp] theorem setQOutput_hive (i : Nat) (v : QSwitch) : (s.setQOutput i v).hive = s.hive := rfl
@[simp] theorem setQOutput_anvil (i : Nat) (v : QSwitch) : (s.setQOutput i v).anvil = s.anvil := rfl
@[simp] theorem setQOutput_plan (i : Nat) (v : QSwitch) : (s.setQOutput i v).plan = s.plan := rfl
@[simp] theorem setQOutput_temper (i : Nat) (v : QSwitch) : (s.setQOutput i v).temper = s.temper := rfl
@[simp] theorem setQOutput_combway (i : Nat) (v : QSwitch) : (s.setQOutput i v).combway = s.combway := rfl
@[simp] theorem setQOutput_tongs (i : Nat) (v : QSwitch) : (s.setQOutput i v).tongs = s.tongs := rfl
@[simp] theorem setQOutput_swage (i : Nat) (v : QSwitch) : (s.setQOutput i v).swage = s.swage := rfl
@[simp] theorem setQOutput_adc (i : Nat) (v : QSwitch) : (s.setQOutput i v).adc = s.adc := rfl
@[simp] theorem setQOutput_bellows (i : Nat) (v : QSwitch) : (s.setQOutput i v).bellows = s.bellows := rfl
@[simp] theorem setQOutput_sram (i : Nat) (v : QSwitch) : (s.setQOutput i v).sram = s.sram := rfl
@[simp] theorem setQOutput_otp (i : Nat) (v : QSwitch) : (s.setQOutput i v).otp = s.otp := rfl
@[simp] theorem setQOutput_upd (i : Nat) (v : QSwitch) : (s.setQOutput i v).upd = s.upd := rfl
@[simp] theorem setQOutput_tim (i : Nat) (v : QSwitch) : (s.setQOutput i v).tim = s.tim := rfl
@[simp] theorem setQOutput_wax (i : Nat) (v : QSwitch) : (s.setQOutput i v).wax = s.wax := rfl
@[simp] theorem setQOutput_clk (i : Nat) (v : QSwitch) : (s.setQOutput i v).clk = s.clk := rfl
@[simp] theorem setQOutput_epochs (i : Nat) (v : QSwitch) : (s.setQOutput i v).epochs = s.epochs := rfl
@[simp] theorem setQOutput_hostMem (i : Nat) (v : QSwitch) : (s.setQOutput i v).hostMem = s.hostMem := rfl
@[simp] theorem setQOutput_ddr (i : Nat) (v : QSwitch) : (s.setQOutput i v).ddr = s.ddr := rfl
@[simp] theorem setQOutput_rdata (i : Nat) (v : QSwitch) : (s.setQOutput i v).rdata = s.rdata := rfl
@[simp] theorem setQOutput_free (i : Nat) (v : QSwitch) : (s.setQOutput i v).free = s.free := rfl
@[simp] theorem setQOutput_word (i : Nat) (v : QSwitch) (off : Nat) : (s.setQOutput i v).word off = s.word off := rfl
@[simp] theorem setQOutput_rd (i : Nat) (v : QSwitch) (fl : Fld) (x y : Nat) : (s.setQOutput i v).rd fl x y = s.rd fl x y := rfl

/-! ## setQChain -/

@[simp] theorem setQChain_pending (i : Nat) (v : QChain) : (s.setQChain i v).pending = s.pending := rfl
@[simp] theorem setQChain_tick (i : Nat) (v : QChain) : (s.setQChain i v).tick = s.tick := rfl
@[simp] theorem setQChain_regs (i : Nat) (v : QChain) : (s.setQChain i v).regs = s.regs := rfl
@[simp] theorem setQChain_glb (i : Nat) (v : QChain) : (s.setQChain i v).glb = s.glb := rfl
@[simp] theorem setQChain_hif (i : Nat) (v : QChain) : (s.setQChain i v).hif = s.hif := rfl
@[simp] theorem setQChain_hive (i : Nat) (v : QChain) : (s.setQChain i v).hive = s.hive := rfl
@[simp] theorem setQChain_anvil (i : Nat) (v : QChain) : (s.setQChain i v).anvil = s.anvil := rfl
@[simp] theorem setQChain_plan (i : Nat) (v : QChain) : (s.setQChain i v).plan = s.plan := rfl
@[simp] theorem setQChain_temper (i : Nat) (v : QChain) : (s.setQChain i v).temper = s.temper := rfl
@[simp] theorem setQChain_combway (i : Nat) (v : QChain) : (s.setQChain i v).combway = s.combway := rfl
@[simp] theorem setQChain_tongs (i : Nat) (v : QChain) : (s.setQChain i v).tongs = s.tongs := rfl
@[simp] theorem setQChain_swage (i : Nat) (v : QChain) : (s.setQChain i v).swage = s.swage := rfl
@[simp] theorem setQChain_adc (i : Nat) (v : QChain) : (s.setQChain i v).adc = s.adc := rfl
@[simp] theorem setQChain_bellows (i : Nat) (v : QChain) : (s.setQChain i v).bellows = s.bellows := rfl
@[simp] theorem setQChain_sram (i : Nat) (v : QChain) : (s.setQChain i v).sram = s.sram := rfl
@[simp] theorem setQChain_otp (i : Nat) (v : QChain) : (s.setQChain i v).otp = s.otp := rfl
@[simp] theorem setQChain_upd (i : Nat) (v : QChain) : (s.setQChain i v).upd = s.upd := rfl
@[simp] theorem setQChain_tim (i : Nat) (v : QChain) : (s.setQChain i v).tim = s.tim := rfl
@[simp] theorem setQChain_wax (i : Nat) (v : QChain) : (s.setQChain i v).wax = s.wax := rfl
@[simp] theorem setQChain_clk (i : Nat) (v : QChain) : (s.setQChain i v).clk = s.clk := rfl
@[simp] theorem setQChain_epochs (i : Nat) (v : QChain) : (s.setQChain i v).epochs = s.epochs := rfl
@[simp] theorem setQChain_hostMem (i : Nat) (v : QChain) : (s.setQChain i v).hostMem = s.hostMem := rfl
@[simp] theorem setQChain_ddr (i : Nat) (v : QChain) : (s.setQChain i v).ddr = s.ddr := rfl
@[simp] theorem setQChain_rdata (i : Nat) (v : QChain) : (s.setQChain i v).rdata = s.rdata := rfl
@[simp] theorem setQChain_free (i : Nat) (v : QChain) : (s.setQChain i v).free = s.free := rfl
@[simp] theorem setQChain_word (i : Nat) (v : QChain) (off : Nat) : (s.setQChain i v).word off = s.word off := rfl
@[simp] theorem setQChain_rd (i : Nat) (v : QChain) (fl : Fld) (x y : Nat) : (s.setQChain i v).rd fl x y = s.rd fl x y := rfl

/-! ## setQBrake -/

@[simp] theorem setQBrake_pending (i : Nat) (v : QBrake) : (s.setQBrake i v).pending = s.pending := rfl
@[simp] theorem setQBrake_tick (i : Nat) (v : QBrake) : (s.setQBrake i v).tick = s.tick := rfl
@[simp] theorem setQBrake_regs (i : Nat) (v : QBrake) : (s.setQBrake i v).regs = s.regs := rfl
@[simp] theorem setQBrake_glb (i : Nat) (v : QBrake) : (s.setQBrake i v).glb = s.glb := rfl
@[simp] theorem setQBrake_hif (i : Nat) (v : QBrake) : (s.setQBrake i v).hif = s.hif := rfl
@[simp] theorem setQBrake_hive (i : Nat) (v : QBrake) : (s.setQBrake i v).hive = s.hive := rfl
@[simp] theorem setQBrake_anvil (i : Nat) (v : QBrake) : (s.setQBrake i v).anvil = s.anvil := rfl
@[simp] theorem setQBrake_plan (i : Nat) (v : QBrake) : (s.setQBrake i v).plan = s.plan := rfl
@[simp] theorem setQBrake_temper (i : Nat) (v : QBrake) : (s.setQBrake i v).temper = s.temper := rfl
@[simp] theorem setQBrake_combway (i : Nat) (v : QBrake) : (s.setQBrake i v).combway = s.combway := rfl
@[simp] theorem setQBrake_tongs (i : Nat) (v : QBrake) : (s.setQBrake i v).tongs = s.tongs := rfl
@[simp] theorem setQBrake_swage (i : Nat) (v : QBrake) : (s.setQBrake i v).swage = s.swage := rfl
@[simp] theorem setQBrake_adc (i : Nat) (v : QBrake) : (s.setQBrake i v).adc = s.adc := rfl
@[simp] theorem setQBrake_bellows (i : Nat) (v : QBrake) : (s.setQBrake i v).bellows = s.bellows := rfl
@[simp] theorem setQBrake_sram (i : Nat) (v : QBrake) : (s.setQBrake i v).sram = s.sram := rfl
@[simp] theorem setQBrake_otp (i : Nat) (v : QBrake) : (s.setQBrake i v).otp = s.otp := rfl
@[simp] theorem setQBrake_upd (i : Nat) (v : QBrake) : (s.setQBrake i v).upd = s.upd := rfl
@[simp] theorem setQBrake_tim (i : Nat) (v : QBrake) : (s.setQBrake i v).tim = s.tim := rfl
@[simp] theorem setQBrake_wax (i : Nat) (v : QBrake) : (s.setQBrake i v).wax = s.wax := rfl
@[simp] theorem setQBrake_clk (i : Nat) (v : QBrake) : (s.setQBrake i v).clk = s.clk := rfl
@[simp] theorem setQBrake_epochs (i : Nat) (v : QBrake) : (s.setQBrake i v).epochs = s.epochs := rfl
@[simp] theorem setQBrake_hostMem (i : Nat) (v : QBrake) : (s.setQBrake i v).hostMem = s.hostMem := rfl
@[simp] theorem setQBrake_ddr (i : Nat) (v : QBrake) : (s.setQBrake i v).ddr = s.ddr := rfl
@[simp] theorem setQBrake_rdata (i : Nat) (v : QBrake) : (s.setQBrake i v).rdata = s.rdata := rfl
@[simp] theorem setQBrake_free (i : Nat) (v : QBrake) : (s.setQBrake i v).free = s.free := rfl
@[simp] theorem setQBrake_word (i : Nat) (v : QBrake) (off : Nat) : (s.setQBrake i v).word off = s.word off := rfl
@[simp] theorem setQBrake_rd (i : Nat) (v : QBrake) (fl : Fld) (x y : Nat) : (s.setQBrake i v).rd fl x y = s.rd fl x y := rfl

/-! ## setTest -/

@[simp] theorem setTest_pending (t : Option QTest) : (s.setTest t).pending = s.pending := rfl
@[simp] theorem setTest_tick (t : Option QTest) : (s.setTest t).tick = s.tick := rfl
@[simp] theorem setTest_regs (t : Option QTest) : (s.setTest t).regs = s.regs := rfl
@[simp] theorem setTest_glb (t : Option QTest) : (s.setTest t).glb = s.glb := rfl
@[simp] theorem setTest_hif (t : Option QTest) : (s.setTest t).hif = s.hif := rfl
@[simp] theorem setTest_hive (t : Option QTest) : (s.setTest t).hive = s.hive := rfl
@[simp] theorem setTest_anvil (t : Option QTest) : (s.setTest t).anvil = s.anvil := rfl
@[simp] theorem setTest_plan (t : Option QTest) : (s.setTest t).plan = s.plan := rfl
@[simp] theorem setTest_temper (t : Option QTest) : (s.setTest t).temper = s.temper := rfl
@[simp] theorem setTest_combway (t : Option QTest) : (s.setTest t).combway = s.combway := rfl
@[simp] theorem setTest_tongs (t : Option QTest) : (s.setTest t).tongs = s.tongs := rfl
@[simp] theorem setTest_swage (t : Option QTest) : (s.setTest t).swage = s.swage := rfl
@[simp] theorem setTest_adc (t : Option QTest) : (s.setTest t).adc = s.adc := rfl
@[simp] theorem setTest_bellows (t : Option QTest) : (s.setTest t).bellows = s.bellows := rfl
@[simp] theorem setTest_sram (t : Option QTest) : (s.setTest t).sram = s.sram := rfl
@[simp] theorem setTest_otp (t : Option QTest) : (s.setTest t).otp = s.otp := rfl
@[simp] theorem setTest_upd (t : Option QTest) : (s.setTest t).upd = s.upd := rfl
@[simp] theorem setTest_tim (t : Option QTest) : (s.setTest t).tim = s.tim := rfl
@[simp] theorem setTest_wax (t : Option QTest) : (s.setTest t).wax = s.wax := rfl
@[simp] theorem setTest_clk (t : Option QTest) : (s.setTest t).clk = s.clk := rfl
@[simp] theorem setTest_epochs (t : Option QTest) : (s.setTest t).epochs = s.epochs := rfl
@[simp] theorem setTest_hostMem (t : Option QTest) : (s.setTest t).hostMem = s.hostMem := rfl
@[simp] theorem setTest_ddr (t : Option QTest) : (s.setTest t).ddr = s.ddr := rfl
@[simp] theorem setTest_rdata (t : Option QTest) : (s.setTest t).rdata = s.rdata := rfl
@[simp] theorem setTest_free (t : Option QTest) : (s.setTest t).free = s.free := rfl
@[simp] theorem setTest_word (t : Option QTest) (off : Nat) : (s.setTest t).word off = s.word off := rfl
@[simp] theorem setTest_rd (t : Option QTest) (fl : Fld) (x y : Nat) : (s.setTest t).rd fl x y = s.rd fl x y := rfl

/-! ## setTngCh -/

@[simp] theorem setTngCh_pending (c : Nat) (v : TngCh) : (s.setTngCh c v).pending = s.pending := rfl
@[simp] theorem setTngCh_tick (c : Nat) (v : TngCh) : (s.setTngCh c v).tick = s.tick := rfl
@[simp] theorem setTngCh_regs (c : Nat) (v : TngCh) : (s.setTngCh c v).regs = s.regs := rfl
@[simp] theorem setTngCh_glb (c : Nat) (v : TngCh) : (s.setTngCh c v).glb = s.glb := rfl
@[simp] theorem setTngCh_hif (c : Nat) (v : TngCh) : (s.setTngCh c v).hif = s.hif := rfl
@[simp] theorem setTngCh_hive (c : Nat) (v : TngCh) : (s.setTngCh c v).hive = s.hive := rfl
@[simp] theorem setTngCh_anvil (c : Nat) (v : TngCh) : (s.setTngCh c v).anvil = s.anvil := rfl
@[simp] theorem setTngCh_plan (c : Nat) (v : TngCh) : (s.setTngCh c v).plan = s.plan := rfl
@[simp] theorem setTngCh_temper (c : Nat) (v : TngCh) : (s.setTngCh c v).temper = s.temper := rfl
@[simp] theorem setTngCh_combway (c : Nat) (v : TngCh) : (s.setTngCh c v).combway = s.combway := rfl
@[simp] theorem setTngCh_quench (c : Nat) (v : TngCh) : (s.setTngCh c v).quench = s.quench := rfl
@[simp] theorem setTngCh_swage (c : Nat) (v : TngCh) : (s.setTngCh c v).swage = s.swage := rfl
@[simp] theorem setTngCh_adc (c : Nat) (v : TngCh) : (s.setTngCh c v).adc = s.adc := rfl
@[simp] theorem setTngCh_bellows (c : Nat) (v : TngCh) : (s.setTngCh c v).bellows = s.bellows := rfl
@[simp] theorem setTngCh_sram (c : Nat) (v : TngCh) : (s.setTngCh c v).sram = s.sram := rfl
@[simp] theorem setTngCh_otp (c : Nat) (v : TngCh) : (s.setTngCh c v).otp = s.otp := rfl
@[simp] theorem setTngCh_upd (c : Nat) (v : TngCh) : (s.setTngCh c v).upd = s.upd := rfl
@[simp] theorem setTngCh_tim (c : Nat) (v : TngCh) : (s.setTngCh c v).tim = s.tim := rfl
@[simp] theorem setTngCh_wax (c : Nat) (v : TngCh) : (s.setTngCh c v).wax = s.wax := rfl
@[simp] theorem setTngCh_clk (c : Nat) (v : TngCh) : (s.setTngCh c v).clk = s.clk := rfl
@[simp] theorem setTngCh_epochs (c : Nat) (v : TngCh) : (s.setTngCh c v).epochs = s.epochs := rfl
@[simp] theorem setTngCh_hostMem (c : Nat) (v : TngCh) : (s.setTngCh c v).hostMem = s.hostMem := rfl
@[simp] theorem setTngCh_ddr (c : Nat) (v : TngCh) : (s.setTngCh c v).ddr = s.ddr := rfl
@[simp] theorem setTngCh_rdata (c : Nat) (v : TngCh) : (s.setTngCh c v).rdata = s.rdata := rfl
@[simp] theorem setTngCh_free (c : Nat) (v : TngCh) : (s.setTngCh c v).free = s.free := rfl
@[simp] theorem setTngCh_word (c : Nat) (v : TngCh) (off : Nat) : (s.setTngCh c v).word off = s.word off := rfl
@[simp] theorem setTngCh_rd (c : Nat) (v : TngCh) (fl : Fld) (x y : Nat) : (s.setTngCh c v).rd fl x y = s.rd fl x y := rfl

/-! ## setSwg -/

@[simp] theorem setSwg_pending (c : Nat) (v : SwgCh) : (s.setSwg c v).pending = s.pending := rfl
@[simp] theorem setSwg_tick (c : Nat) (v : SwgCh) : (s.setSwg c v).tick = s.tick := rfl
@[simp] theorem setSwg_regs (c : Nat) (v : SwgCh) : (s.setSwg c v).regs = s.regs := rfl
@[simp] theorem setSwg_glb (c : Nat) (v : SwgCh) : (s.setSwg c v).glb = s.glb := rfl
@[simp] theorem setSwg_hif (c : Nat) (v : SwgCh) : (s.setSwg c v).hif = s.hif := rfl
@[simp] theorem setSwg_hive (c : Nat) (v : SwgCh) : (s.setSwg c v).hive = s.hive := rfl
@[simp] theorem setSwg_anvil (c : Nat) (v : SwgCh) : (s.setSwg c v).anvil = s.anvil := rfl
@[simp] theorem setSwg_plan (c : Nat) (v : SwgCh) : (s.setSwg c v).plan = s.plan := rfl
@[simp] theorem setSwg_temper (c : Nat) (v : SwgCh) : (s.setSwg c v).temper = s.temper := rfl
@[simp] theorem setSwg_combway (c : Nat) (v : SwgCh) : (s.setSwg c v).combway = s.combway := rfl
@[simp] theorem setSwg_quench (c : Nat) (v : SwgCh) : (s.setSwg c v).quench = s.quench := rfl
@[simp] theorem setSwg_tongs (c : Nat) (v : SwgCh) : (s.setSwg c v).tongs = s.tongs := rfl
@[simp] theorem setSwg_adc (c : Nat) (v : SwgCh) : (s.setSwg c v).adc = s.adc := rfl
@[simp] theorem setSwg_bellows (c : Nat) (v : SwgCh) : (s.setSwg c v).bellows = s.bellows := rfl
@[simp] theorem setSwg_sram (c : Nat) (v : SwgCh) : (s.setSwg c v).sram = s.sram := rfl
@[simp] theorem setSwg_otp (c : Nat) (v : SwgCh) : (s.setSwg c v).otp = s.otp := rfl
@[simp] theorem setSwg_upd (c : Nat) (v : SwgCh) : (s.setSwg c v).upd = s.upd := rfl
@[simp] theorem setSwg_tim (c : Nat) (v : SwgCh) : (s.setSwg c v).tim = s.tim := rfl
@[simp] theorem setSwg_wax (c : Nat) (v : SwgCh) : (s.setSwg c v).wax = s.wax := rfl
@[simp] theorem setSwg_clk (c : Nat) (v : SwgCh) : (s.setSwg c v).clk = s.clk := rfl
@[simp] theorem setSwg_epochs (c : Nat) (v : SwgCh) : (s.setSwg c v).epochs = s.epochs := rfl
@[simp] theorem setSwg_hostMem (c : Nat) (v : SwgCh) : (s.setSwg c v).hostMem = s.hostMem := rfl
@[simp] theorem setSwg_ddr (c : Nat) (v : SwgCh) : (s.setSwg c v).ddr = s.ddr := rfl
@[simp] theorem setSwg_rdata (c : Nat) (v : SwgCh) : (s.setSwg c v).rdata = s.rdata := rfl
@[simp] theorem setSwg_free (c : Nat) (v : SwgCh) : (s.setSwg c v).free = s.free := rfl
@[simp] theorem setSwg_word (c : Nat) (v : SwgCh) (off : Nat) : (s.setSwg c v).word off = s.word off := rfl
@[simp] theorem setSwg_rd (c : Nat) (v : SwgCh) (fl : Fld) (x y : Nat) : (s.setSwg c v).rd fl x y = s.rd fl x y := rfl

/-! ## setAdcSeq -/

@[simp] theorem setAdcSeq_pending (q : Nat) (v : AdcSeq) : (s.setAdcSeq q v).pending = s.pending := rfl
@[simp] theorem setAdcSeq_tick (q : Nat) (v : AdcSeq) : (s.setAdcSeq q v).tick = s.tick := rfl
@[simp] theorem setAdcSeq_regs (q : Nat) (v : AdcSeq) : (s.setAdcSeq q v).regs = s.regs := rfl
@[simp] theorem setAdcSeq_glb (q : Nat) (v : AdcSeq) : (s.setAdcSeq q v).glb = s.glb := rfl
@[simp] theorem setAdcSeq_hif (q : Nat) (v : AdcSeq) : (s.setAdcSeq q v).hif = s.hif := rfl
@[simp] theorem setAdcSeq_hive (q : Nat) (v : AdcSeq) : (s.setAdcSeq q v).hive = s.hive := rfl
@[simp] theorem setAdcSeq_anvil (q : Nat) (v : AdcSeq) : (s.setAdcSeq q v).anvil = s.anvil := rfl
@[simp] theorem setAdcSeq_plan (q : Nat) (v : AdcSeq) : (s.setAdcSeq q v).plan = s.plan := rfl
@[simp] theorem setAdcSeq_temper (q : Nat) (v : AdcSeq) : (s.setAdcSeq q v).temper = s.temper := rfl
@[simp] theorem setAdcSeq_combway (q : Nat) (v : AdcSeq) : (s.setAdcSeq q v).combway = s.combway := rfl
@[simp] theorem setAdcSeq_quench (q : Nat) (v : AdcSeq) : (s.setAdcSeq q v).quench = s.quench := rfl
@[simp] theorem setAdcSeq_tongs (q : Nat) (v : AdcSeq) : (s.setAdcSeq q v).tongs = s.tongs := rfl
@[simp] theorem setAdcSeq_swage (q : Nat) (v : AdcSeq) : (s.setAdcSeq q v).swage = s.swage := rfl
@[simp] theorem setAdcSeq_bellows (q : Nat) (v : AdcSeq) : (s.setAdcSeq q v).bellows = s.bellows := rfl
@[simp] theorem setAdcSeq_sram (q : Nat) (v : AdcSeq) : (s.setAdcSeq q v).sram = s.sram := rfl
@[simp] theorem setAdcSeq_otp (q : Nat) (v : AdcSeq) : (s.setAdcSeq q v).otp = s.otp := rfl
@[simp] theorem setAdcSeq_upd (q : Nat) (v : AdcSeq) : (s.setAdcSeq q v).upd = s.upd := rfl
@[simp] theorem setAdcSeq_tim (q : Nat) (v : AdcSeq) : (s.setAdcSeq q v).tim = s.tim := rfl
@[simp] theorem setAdcSeq_wax (q : Nat) (v : AdcSeq) : (s.setAdcSeq q v).wax = s.wax := rfl
@[simp] theorem setAdcSeq_clk (q : Nat) (v : AdcSeq) : (s.setAdcSeq q v).clk = s.clk := rfl
@[simp] theorem setAdcSeq_epochs (q : Nat) (v : AdcSeq) : (s.setAdcSeq q v).epochs = s.epochs := rfl
@[simp] theorem setAdcSeq_hostMem (q : Nat) (v : AdcSeq) : (s.setAdcSeq q v).hostMem = s.hostMem := rfl
@[simp] theorem setAdcSeq_ddr (q : Nat) (v : AdcSeq) : (s.setAdcSeq q v).ddr = s.ddr := rfl
@[simp] theorem setAdcSeq_rdata (q : Nat) (v : AdcSeq) : (s.setAdcSeq q v).rdata = s.rdata := rfl
@[simp] theorem setAdcSeq_free (q : Nat) (v : AdcSeq) : (s.setAdcSeq q v).free = s.free := rfl
@[simp] theorem setAdcSeq_word (q : Nat) (v : AdcSeq) (off : Nat) : (s.setAdcSeq q v).word off = s.word off := rfl
@[simp] theorem setAdcSeq_rd (q : Nat) (v : AdcSeq) (fl : Fld) (x y : Nat) : (s.setAdcSeq q v).rd fl x y = s.rd fl x y := rfl

/-! ## setBellows -/

@[simp] theorem setBellows_pending (b : Bellows) : (s.setBellows b).pending = s.pending := rfl
@[simp] theorem setBellows_tick (b : Bellows) : (s.setBellows b).tick = s.tick := rfl
@[simp] theorem setBellows_regs (b : Bellows) : (s.setBellows b).regs = s.regs := rfl
@[simp] theorem setBellows_glb (b : Bellows) : (s.setBellows b).glb = s.glb := rfl
@[simp] theorem setBellows_hif (b : Bellows) : (s.setBellows b).hif = s.hif := rfl
@[simp] theorem setBellows_hive (b : Bellows) : (s.setBellows b).hive = s.hive := rfl
@[simp] theorem setBellows_anvil (b : Bellows) : (s.setBellows b).anvil = s.anvil := rfl
@[simp] theorem setBellows_plan (b : Bellows) : (s.setBellows b).plan = s.plan := rfl
@[simp] theorem setBellows_temper (b : Bellows) : (s.setBellows b).temper = s.temper := rfl
@[simp] theorem setBellows_combway (b : Bellows) : (s.setBellows b).combway = s.combway := rfl
@[simp] theorem setBellows_quench (b : Bellows) : (s.setBellows b).quench = s.quench := rfl
@[simp] theorem setBellows_tongs (b : Bellows) : (s.setBellows b).tongs = s.tongs := rfl
@[simp] theorem setBellows_swage (b : Bellows) : (s.setBellows b).swage = s.swage := rfl
@[simp] theorem setBellows_adc (b : Bellows) : (s.setBellows b).adc = s.adc := rfl
@[simp] theorem setBellows_sram (b : Bellows) : (s.setBellows b).sram = s.sram := rfl
@[simp] theorem setBellows_otp (b : Bellows) : (s.setBellows b).otp = s.otp := rfl
@[simp] theorem setBellows_upd (b : Bellows) : (s.setBellows b).upd = s.upd := rfl
@[simp] theorem setBellows_tim (b : Bellows) : (s.setBellows b).tim = s.tim := rfl
@[simp] theorem setBellows_wax (b : Bellows) : (s.setBellows b).wax = s.wax := rfl
@[simp] theorem setBellows_clk (b : Bellows) : (s.setBellows b).clk = s.clk := rfl
@[simp] theorem setBellows_epochs (b : Bellows) : (s.setBellows b).epochs = s.epochs := rfl
@[simp] theorem setBellows_hostMem (b : Bellows) : (s.setBellows b).hostMem = s.hostMem := rfl
@[simp] theorem setBellows_ddr (b : Bellows) : (s.setBellows b).ddr = s.ddr := rfl
@[simp] theorem setBellows_rdata (b : Bellows) : (s.setBellows b).rdata = s.rdata := rfl
@[simp] theorem setBellows_free (b : Bellows) : (s.setBellows b).free = s.free := rfl
@[simp] theorem setBellows_word (b : Bellows) (off : Nat) : (s.setBellows b).word off = s.word off := rfl
@[simp] theorem setBellows_rd (b : Bellows) (fl : Fld) (x y : Nat) : (s.setBellows b).rd fl x y = s.rd fl x y := rfl

/-! ## setCapUnit -/

@[simp] theorem setCapUnit_pending (u : Nat) (v : CapUnit) : (s.setCapUnit u v).pending = s.pending := rfl
@[simp] theorem setCapUnit_tick (u : Nat) (v : CapUnit) : (s.setCapUnit u v).tick = s.tick := rfl
@[simp] theorem setCapUnit_regs (u : Nat) (v : CapUnit) : (s.setCapUnit u v).regs = s.regs := rfl
@[simp] theorem setCapUnit_glb (u : Nat) (v : CapUnit) : (s.setCapUnit u v).glb = s.glb := rfl
@[simp] theorem setCapUnit_hif (u : Nat) (v : CapUnit) : (s.setCapUnit u v).hif = s.hif := rfl
@[simp] theorem setCapUnit_hive (u : Nat) (v : CapUnit) : (s.setCapUnit u v).hive = s.hive := rfl
@[simp] theorem setCapUnit_anvil (u : Nat) (v : CapUnit) : (s.setCapUnit u v).anvil = s.anvil := rfl
@[simp] theorem setCapUnit_plan (u : Nat) (v : CapUnit) : (s.setCapUnit u v).plan = s.plan := rfl
@[simp] theorem setCapUnit_temper (u : Nat) (v : CapUnit) : (s.setCapUnit u v).temper = s.temper := rfl
@[simp] theorem setCapUnit_combway (u : Nat) (v : CapUnit) : (s.setCapUnit u v).combway = s.combway := rfl
@[simp] theorem setCapUnit_quench (u : Nat) (v : CapUnit) : (s.setCapUnit u v).quench = s.quench := rfl
@[simp] theorem setCapUnit_tongs (u : Nat) (v : CapUnit) : (s.setCapUnit u v).tongs = s.tongs := rfl
@[simp] theorem setCapUnit_swage (u : Nat) (v : CapUnit) : (s.setCapUnit u v).swage = s.swage := rfl
@[simp] theorem setCapUnit_adc (u : Nat) (v : CapUnit) : (s.setCapUnit u v).adc = s.adc := rfl
@[simp] theorem setCapUnit_bellows (u : Nat) (v : CapUnit) : (s.setCapUnit u v).bellows = s.bellows := rfl
@[simp] theorem setCapUnit_sram (u : Nat) (v : CapUnit) : (s.setCapUnit u v).sram = s.sram := rfl
@[simp] theorem setCapUnit_otp (u : Nat) (v : CapUnit) : (s.setCapUnit u v).otp = s.otp := rfl
@[simp] theorem setCapUnit_upd (u : Nat) (v : CapUnit) : (s.setCapUnit u v).upd = s.upd := rfl
@[simp] theorem setCapUnit_wax (u : Nat) (v : CapUnit) : (s.setCapUnit u v).wax = s.wax := rfl
@[simp] theorem setCapUnit_clk (u : Nat) (v : CapUnit) : (s.setCapUnit u v).clk = s.clk := rfl
@[simp] theorem setCapUnit_epochs (u : Nat) (v : CapUnit) : (s.setCapUnit u v).epochs = s.epochs := rfl
@[simp] theorem setCapUnit_hostMem (u : Nat) (v : CapUnit) : (s.setCapUnit u v).hostMem = s.hostMem := rfl
@[simp] theorem setCapUnit_ddr (u : Nat) (v : CapUnit) : (s.setCapUnit u v).ddr = s.ddr := rfl
@[simp] theorem setCapUnit_rdata (u : Nat) (v : CapUnit) : (s.setCapUnit u v).rdata = s.rdata := rfl
@[simp] theorem setCapUnit_free (u : Nat) (v : CapUnit) : (s.setCapUnit u v).free = s.free := rfl
@[simp] theorem setCapUnit_word (u : Nat) (v : CapUnit) (off : Nat) : (s.setCapUnit u v).word off = s.word off := rfl
@[simp] theorem setCapUnit_rd (u : Nat) (v : CapUnit) (fl : Fld) (x y : Nat) : (s.setCapUnit u v).rd fl x y = s.rd fl x y := rfl

/-! ## setDomain -/

@[simp] theorem setDomain_pending (b : Bool) (v : Domain) : (s.setDomain b v).pending = s.pending := rfl
@[simp] theorem setDomain_tick (b : Bool) (v : Domain) : (s.setDomain b v).tick = s.tick := rfl
@[simp] theorem setDomain_regs (b : Bool) (v : Domain) : (s.setDomain b v).regs = s.regs := rfl
@[simp] theorem setDomain_glb (b : Bool) (v : Domain) : (s.setDomain b v).glb = s.glb := rfl
@[simp] theorem setDomain_hif (b : Bool) (v : Domain) : (s.setDomain b v).hif = s.hif := rfl
@[simp] theorem setDomain_hive (b : Bool) (v : Domain) : (s.setDomain b v).hive = s.hive := rfl
@[simp] theorem setDomain_anvil (b : Bool) (v : Domain) : (s.setDomain b v).anvil = s.anvil := rfl
@[simp] theorem setDomain_plan (b : Bool) (v : Domain) : (s.setDomain b v).plan = s.plan := rfl
@[simp] theorem setDomain_temper (b : Bool) (v : Domain) : (s.setDomain b v).temper = s.temper := rfl
@[simp] theorem setDomain_combway (b : Bool) (v : Domain) : (s.setDomain b v).combway = s.combway := rfl
@[simp] theorem setDomain_quench (b : Bool) (v : Domain) : (s.setDomain b v).quench = s.quench := rfl
@[simp] theorem setDomain_tongs (b : Bool) (v : Domain) : (s.setDomain b v).tongs = s.tongs := rfl
@[simp] theorem setDomain_swage (b : Bool) (v : Domain) : (s.setDomain b v).swage = s.swage := rfl
@[simp] theorem setDomain_adc (b : Bool) (v : Domain) : (s.setDomain b v).adc = s.adc := rfl
@[simp] theorem setDomain_bellows (b : Bool) (v : Domain) : (s.setDomain b v).bellows = s.bellows := rfl
@[simp] theorem setDomain_sram (b : Bool) (v : Domain) : (s.setDomain b v).sram = s.sram := rfl
@[simp] theorem setDomain_otp (b : Bool) (v : Domain) : (s.setDomain b v).otp = s.otp := rfl
@[simp] theorem setDomain_upd (b : Bool) (v : Domain) : (s.setDomain b v).upd = s.upd := rfl
@[simp] theorem setDomain_wax (b : Bool) (v : Domain) : (s.setDomain b v).wax = s.wax := rfl
@[simp] theorem setDomain_clk (b : Bool) (v : Domain) : (s.setDomain b v).clk = s.clk := rfl
@[simp] theorem setDomain_epochs (b : Bool) (v : Domain) : (s.setDomain b v).epochs = s.epochs := rfl
@[simp] theorem setDomain_hostMem (b : Bool) (v : Domain) : (s.setDomain b v).hostMem = s.hostMem := rfl
@[simp] theorem setDomain_ddr (b : Bool) (v : Domain) : (s.setDomain b v).ddr = s.ddr := rfl
@[simp] theorem setDomain_rdata (b : Bool) (v : Domain) : (s.setDomain b v).rdata = s.rdata := rfl
@[simp] theorem setDomain_free (b : Bool) (v : Domain) : (s.setDomain b v).free = s.free := rfl
@[simp] theorem setDomain_word (b : Bool) (v : Domain) (off : Nat) : (s.setDomain b v).word off = s.word off := rfl
@[simp] theorem setDomain_rd (b : Bool) (v : Domain) (fl : Fld) (x y : Nat) : (s.setDomain b v).rd fl x y = s.rd fl x y := rfl

/-! ## setFlash -/

@[simp] theorem setFlash_pending (n : Nat) (m : List Host.Cell) : (s.setFlash n m).pending = s.pending := rfl
@[simp] theorem setFlash_tick (n : Nat) (m : List Host.Cell) : (s.setFlash n m).tick = s.tick := rfl
@[simp] theorem setFlash_regs (n : Nat) (m : List Host.Cell) : (s.setFlash n m).regs = s.regs := rfl
@[simp] theorem setFlash_glb (n : Nat) (m : List Host.Cell) : (s.setFlash n m).glb = s.glb := rfl
@[simp] theorem setFlash_hif (n : Nat) (m : List Host.Cell) : (s.setFlash n m).hif = s.hif := rfl
@[simp] theorem setFlash_hive (n : Nat) (m : List Host.Cell) : (s.setFlash n m).hive = s.hive := rfl
@[simp] theorem setFlash_anvil (n : Nat) (m : List Host.Cell) : (s.setFlash n m).anvil = s.anvil := rfl
@[simp] theorem setFlash_plan (n : Nat) (m : List Host.Cell) : (s.setFlash n m).plan = s.plan := rfl
@[simp] theorem setFlash_temper (n : Nat) (m : List Host.Cell) : (s.setFlash n m).temper = s.temper := rfl
@[simp] theorem setFlash_combway (n : Nat) (m : List Host.Cell) : (s.setFlash n m).combway = s.combway := rfl
@[simp] theorem setFlash_quench (n : Nat) (m : List Host.Cell) : (s.setFlash n m).quench = s.quench := rfl
@[simp] theorem setFlash_tongs (n : Nat) (m : List Host.Cell) : (s.setFlash n m).tongs = s.tongs := rfl
@[simp] theorem setFlash_swage (n : Nat) (m : List Host.Cell) : (s.setFlash n m).swage = s.swage := rfl
@[simp] theorem setFlash_adc (n : Nat) (m : List Host.Cell) : (s.setFlash n m).adc = s.adc := rfl
@[simp] theorem setFlash_bellows (n : Nat) (m : List Host.Cell) : (s.setFlash n m).bellows = s.bellows := rfl
@[simp] theorem setFlash_sram (n : Nat) (m : List Host.Cell) : (s.setFlash n m).sram = s.sram := rfl
@[simp] theorem setFlash_otp (n : Nat) (m : List Host.Cell) : (s.setFlash n m).otp = s.otp := rfl
@[simp] theorem setFlash_tim (n : Nat) (m : List Host.Cell) : (s.setFlash n m).tim = s.tim := rfl
@[simp] theorem setFlash_wax (n : Nat) (m : List Host.Cell) : (s.setFlash n m).wax = s.wax := rfl
@[simp] theorem setFlash_clk (n : Nat) (m : List Host.Cell) : (s.setFlash n m).clk = s.clk := rfl
@[simp] theorem setFlash_epochs (n : Nat) (m : List Host.Cell) : (s.setFlash n m).epochs = s.epochs := rfl
@[simp] theorem setFlash_hostMem (n : Nat) (m : List Host.Cell) : (s.setFlash n m).hostMem = s.hostMem := rfl
@[simp] theorem setFlash_ddr (n : Nat) (m : List Host.Cell) : (s.setFlash n m).ddr = s.ddr := rfl
@[simp] theorem setFlash_rdata (n : Nat) (m : List Host.Cell) : (s.setFlash n m).rdata = s.rdata := rfl
@[simp] theorem setFlash_free (n : Nat) (m : List Host.Cell) : (s.setFlash n m).free = s.free := rfl
@[simp] theorem setFlash_word (n : Nat) (m : List Host.Cell) (off : Nat) : (s.setFlash n m).word off = s.word off := rfl
@[simp] theorem setFlash_rd (n : Nat) (m : List Host.Cell) (fl : Fld) (x y : Nat) : (s.setFlash n m).rd fl x y = s.rd fl x y := rfl

/-! ## setSettings -/

@[simp] theorem setSettings_pending (n : Nat) (r : SettingsRec) : (s.setSettings n r).pending = s.pending := rfl
@[simp] theorem setSettings_tick (n : Nat) (r : SettingsRec) : (s.setSettings n r).tick = s.tick := rfl
@[simp] theorem setSettings_regs (n : Nat) (r : SettingsRec) : (s.setSettings n r).regs = s.regs := rfl
@[simp] theorem setSettings_glb (n : Nat) (r : SettingsRec) : (s.setSettings n r).glb = s.glb := rfl
@[simp] theorem setSettings_hif (n : Nat) (r : SettingsRec) : (s.setSettings n r).hif = s.hif := rfl
@[simp] theorem setSettings_hive (n : Nat) (r : SettingsRec) : (s.setSettings n r).hive = s.hive := rfl
@[simp] theorem setSettings_anvil (n : Nat) (r : SettingsRec) : (s.setSettings n r).anvil = s.anvil := rfl
@[simp] theorem setSettings_plan (n : Nat) (r : SettingsRec) : (s.setSettings n r).plan = s.plan := rfl
@[simp] theorem setSettings_temper (n : Nat) (r : SettingsRec) : (s.setSettings n r).temper = s.temper := rfl
@[simp] theorem setSettings_combway (n : Nat) (r : SettingsRec) : (s.setSettings n r).combway = s.combway := rfl
@[simp] theorem setSettings_quench (n : Nat) (r : SettingsRec) : (s.setSettings n r).quench = s.quench := rfl
@[simp] theorem setSettings_tongs (n : Nat) (r : SettingsRec) : (s.setSettings n r).tongs = s.tongs := rfl
@[simp] theorem setSettings_swage (n : Nat) (r : SettingsRec) : (s.setSettings n r).swage = s.swage := rfl
@[simp] theorem setSettings_adc (n : Nat) (r : SettingsRec) : (s.setSettings n r).adc = s.adc := rfl
@[simp] theorem setSettings_bellows (n : Nat) (r : SettingsRec) : (s.setSettings n r).bellows = s.bellows := rfl
@[simp] theorem setSettings_sram (n : Nat) (r : SettingsRec) : (s.setSettings n r).sram = s.sram := rfl
@[simp] theorem setSettings_otp (n : Nat) (r : SettingsRec) : (s.setSettings n r).otp = s.otp := rfl
@[simp] theorem setSettings_tim (n : Nat) (r : SettingsRec) : (s.setSettings n r).tim = s.tim := rfl
@[simp] theorem setSettings_wax (n : Nat) (r : SettingsRec) : (s.setSettings n r).wax = s.wax := rfl
@[simp] theorem setSettings_clk (n : Nat) (r : SettingsRec) : (s.setSettings n r).clk = s.clk := rfl
@[simp] theorem setSettings_epochs (n : Nat) (r : SettingsRec) : (s.setSettings n r).epochs = s.epochs := rfl
@[simp] theorem setSettings_hostMem (n : Nat) (r : SettingsRec) : (s.setSettings n r).hostMem = s.hostMem := rfl
@[simp] theorem setSettings_ddr (n : Nat) (r : SettingsRec) : (s.setSettings n r).ddr = s.ddr := rfl
@[simp] theorem setSettings_rdata (n : Nat) (r : SettingsRec) : (s.setSettings n r).rdata = s.rdata := rfl
@[simp] theorem setSettings_free (n : Nat) (r : SettingsRec) : (s.setSettings n r).free = s.free := rfl
@[simp] theorem setSettings_word (n : Nat) (r : SettingsRec) (off : Nat) : (s.setSettings n r).word off = s.word off := rfl
@[simp] theorem setSettings_rd (n : Nat) (r : SettingsRec) (fl : Fld) (x y : Nat) : (s.setSettings n r).rd fl x y = s.rd fl x y := rfl

/-! ## drawn -/

@[simp] theorem drawn_pending : (s.drawn).pending = s.pending := rfl
@[simp] theorem drawn_tick : (s.drawn).tick = s.tick := rfl
@[simp] theorem drawn_regs : (s.drawn).regs = s.regs := rfl
@[simp] theorem drawn_glb : (s.drawn).glb = s.glb := rfl
@[simp] theorem drawn_hif : (s.drawn).hif = s.hif := rfl
@[simp] theorem drawn_hive : (s.drawn).hive = s.hive := rfl
@[simp] theorem drawn_anvil : (s.drawn).anvil = s.anvil := rfl
@[simp] theorem drawn_plan : (s.drawn).plan = s.plan := rfl
@[simp] theorem drawn_temper : (s.drawn).temper = s.temper := rfl
@[simp] theorem drawn_combway : (s.drawn).combway = s.combway := rfl
@[simp] theorem drawn_quench : (s.drawn).quench = s.quench := rfl
@[simp] theorem drawn_tongs : (s.drawn).tongs = s.tongs := rfl
@[simp] theorem drawn_swage : (s.drawn).swage = s.swage := rfl
@[simp] theorem drawn_adc : (s.drawn).adc = s.adc := rfl
@[simp] theorem drawn_bellows : (s.drawn).bellows = s.bellows := rfl
@[simp] theorem drawn_sram : (s.drawn).sram = s.sram := rfl
@[simp] theorem drawn_otp : (s.drawn).otp = s.otp := rfl
@[simp] theorem drawn_upd : (s.drawn).upd = s.upd := rfl
@[simp] theorem drawn_tim : (s.drawn).tim = s.tim := rfl
@[simp] theorem drawn_wax : (s.drawn).wax = s.wax := rfl
@[simp] theorem drawn_clk : (s.drawn).clk = s.clk := rfl
@[simp] theorem drawn_epochs : (s.drawn).epochs = s.epochs := rfl
@[simp] theorem drawn_hostMem : (s.drawn).hostMem = s.hostMem := rfl
@[simp] theorem drawn_ddr : (s.drawn).ddr = s.ddr := rfl
@[simp] theorem drawn_rdata : (s.drawn).rdata = s.rdata := rfl
@[simp] theorem drawn_word (off : Nat) : (s.drawn).word off = s.word off := rfl
@[simp] theorem drawn_rd (fl : Fld) (x y : Nat) : (s.drawn).rd fl x y = s.rd fl x y := rfl

end Sys2Proof.Machine.State
end

