-- ==== Sys2Proof/Laws/Ops.lean ====
section
/-!
SUPPORT. Laws/Ops.lean: what the shared operations do, each said once: sparse tables and byte memories (read after write, other
keys unchanged, canonical form kept), bit fields, registers, and the raising of an event.
-/

namespace Sys2Proof.Machine

/-! ## Sparse tables -/

section Table
variable {α : Type} {d : Nat → α}

/-- A key below every key from `lo` on is not listed. -/
theorem lookup_dropWhile_same (m : List (Nat × α)) (k : Nat) :
    lookup d (m.dropWhile fun p => decide (p.1 ≤ k)) k = d k := by
  induction m with
  | nil => rfl
  | cons p m ih =>
    obtain ⟨a, v⟩ := p
    by_cases h : a ≤ k
    · simpa [List.dropWhile, h] using ih
    · have : k < a := by omega
      simp [List.dropWhile, h, lookup, this]

theorem lookup_dropWhile_lt (m : List (Nat × α)) {a k : Nat} (h : k < a) :
    lookup d (m.dropWhile fun p => decide (p.1 ≤ a)) k = d k := by
  induction m with
  | nil => rfl
  | cons p m ih =>
    obtain ⟨b, v⟩ := p
    by_cases hb : b ≤ a
    · simpa [List.dropWhile, hb] using ih
    · have : k < b := by omega
      simp [List.dropWhile, hb, lookup, this]

theorem lookup_dropWhile_gt (m : List (Nat × α)) {a k : Nat} (h : a < k) :
    lookup d (m.dropWhile fun p => decide (p.1 ≤ a)) k = lookup d m k := by
  induction m with
  | nil => rfl
  | cons p m ih =>
    obtain ⟨b, v⟩ := p
    by_cases hb : b ≤ a
    · have h1 : ¬ k < b := by omega
      have h2 : ¬ k = b := by omega
      simpa [List.dropWhile, hb, lookup, h1, h2] using ih
    · simp [List.dropWhile, hb]

variable [DecidableEq α]

/-- The entry just stored is read back. -/
@[simp] theorem lookup_store_same (m : List (Nat × α)) (k : Nat) (v : α) : lookup d (store d m k v) k = v := by
  induction m with
  | nil => by_cases h : v = d k <;> simp [store, lookup, h]
  | cons p m ih =>
    obtain ⟨a, w⟩ := p
    unfold store
    by_cases h1 : k < a
    · by_cases hv : v = d k <;> simp [lookup, h1, hv]
    · by_cases h2 : k = a
      · subst h2
        by_cases hv : v = d k
        · simp only [lt_irrefl, if_false, if_true, hv]; exact lookup_dropWhile_same m k
        · simp [lookup, hv]
      · simp [lookup, h1, h2, ih]

/-- Every other entry is as before. -/
theorem lookup_store_ne (m : List (Nat × α)) {k j : Nat} (v : α) (h : j ≠ k) :
    lookup d (store d m k v) j = lookup d m j := by
  induction m with
  | nil =>
    by_cases hv : v = d k
    · simp [store, hv]
    · simp only [store, hv, if_false, lookup]; split <;> simp_all
  | cons p m ih =>
    obtain ⟨a, w⟩ := p
    unfold store
    by_cases h1 : k < a
    · by_cases hv : v = d k
      · simp [h1, hv]
      · simp only [h1, hv, if_true, if_false, lookup, h]
        by_cases h3 : j < k
        · have : j < a := by omega
          simp [h3, this]
        · simp [h3]
    · by_cases h2 : k = a
      · subst h2
        by_cases hv : v = d k
        · simp only [lt_irrefl, if_false, if_true, hv, lookup, h]
          by_cases h3 : j < k
          · rw [lookup_dropWhile_lt m h3]; simp [h3]
          · rw [lookup_dropWhile_gt m (by omega)]; simp [h3]
        · simp [lookup, hv, h]
      · simp [lookup, h1, h2, ih]

theorem lookup_store (m : List (Nat × α)) (k j : Nat) (v : α) :
    lookup d (store d m k v) j = if j = k then v else lookup d m j := by
  split
  · subst_vars; simp
  · exact lookup_store_ne m v (by assumption)

/-- A canonical table above a bound is canonical above a lower one. -/
theorem canonicalFrom_mono {m : List (Nat × α)} {lo lo' : Nat} (h : lo' ≤ lo) (hm : canonicalFrom d lo m = true) :
    canonicalFrom d lo' m = true := by
  cases m with
  | nil => rfl
  | cons p m =>
    obtain ⟨a, v⟩ := p
    simp only [canonicalFrom, Bool.and_eq_true, decide_eq_true_eq] at *
    exact ⟨⟨by omega, hm.1.2⟩, hm.2⟩

/-- A table that is canonical above `a` has no key to drop up to `a`. -/
theorem dropWhile_canonical {m : List (Nat × α)} {a : Nat} (hm : canonicalFrom d (a + 1) m = true) :
    (m.dropWhile fun p => decide (p.1 ≤ a)) = m := by
  cases m with
  | nil => rfl
  | cons p m =>
    obtain ⟨b, v⟩ := p
    simp only [canonicalFrom, Bool.and_eq_true, decide_eq_true_eq] at hm
    have : ¬ b ≤ a := by omega
    simp [List.dropWhile, this]

theorem canonicalFrom_store {m : List (Nat × α)} {lo k : Nat} (v : α) (hk : lo ≤ k)
    (hm : canonicalFrom d lo m = true) : canonicalFrom d lo (store d m k v) = true := by
  induction m generalizing lo with
  | nil => by_cases h : v = d k <;> simp [store, canonicalFrom, h, hk]
  | cons p m ih =>
    obtain ⟨a, w⟩ := p
    have hm' := hm
    simp only [canonicalFrom, Bool.and_eq_true, decide_eq_true_eq] at hm'
    obtain ⟨⟨hlo, hw⟩, hrest⟩ := hm'
    unfold store
    by_cases h1 : k < a
    · by_cases hv : v = d k
      · simpa [h1, hv] using hm
      · simp [h1, hv, canonicalFrom, hk, hrest, hw]
    · by_cases h2 : k = a
      · subst h2
        by_cases hv : v = d k
        · simp only [lt_irrefl, if_false, if_true, hv, dropWhile_canonical hrest]
          exact canonicalFrom_mono (by omega) hrest
        · simp [hv, canonicalFrom, hk, hrest]
      · simp only [h1, h2, if_false, canonicalFrom, Bool.and_eq_true, decide_eq_true_eq]
        exact ⟨⟨hlo, hw⟩, ih (by omega) hrest⟩

/-- Storing keeps the canonical form. -/
theorem canonical_store {m : List (Nat × α)} (k : Nat) (v : α) (hm : canonical d m = true) :
    canonical d (store d m k v) = true := canonicalFrom_store v (Nat.zero_le k) hm

end Table

/-! ## Byte memories -/

@[simp] theorem readByte_writeByte_same (m : List Host.Cell) (a : Nat) (b : Byte) :
    readByte (writeByte m a b) a = b := lookup_store_same m a b

theorem readByte_writeByte_ne (m : List Host.Cell) {a x : Nat} (b : Byte) (h : x ≠ a) :
    readByte (writeByte m a b) x = readByte m x := lookup_store_ne m b h

theorem Memory.wf_writeByte {m : List Host.Cell} (a : Nat) (b : Byte) (h : Memory.wf m = true) :
    Memory.wf (writeByte m a b) = true := canonical_store a b h

/-- Writing a run of bytes keeps the canonical form. -/
theorem Memory.wf_writeBytes {m : List Host.Cell} (bs : List Byte) (a : Nat) (h : Memory.wf m = true) :
    Memory.wf (writeBytes m a bs) = true := by
  induction bs generalizing m a with
  | nil => exact h
  | cons b bs ih => exact ih (a + 1) (Memory.wf_writeByte a b h)

/-- A byte outside the written run is as before. -/
theorem readByte_writeBytes_out (bs : List Byte) (m : List Host.Cell) {a x : Nat} (h : x < a ∨ a + bs.length ≤ x) :
    readByte (writeBytes m a bs) x = readByte m x := by
  induction bs generalizing m a with
  | nil => rfl
  | cons b bs ih =>
    simp only [List.length_cons] at h
    unfold writeBytes
    rw [ih (writeByte m a b) (by omega), readByte_writeByte_ne m b (by omega)]

/-- A byte within the written run is the byte written there. -/
theorem readByte_writeBytes_in (bs : List Byte) (m : List Host.Cell) (a i : Nat) (h : i < bs.length) :
    readByte (writeBytes m a bs) (a + i) = bs.getD i 0 := by
  induction bs generalizing m a i with
  | nil => simp at h
  | cons b bs ih =>
    unfold writeBytes
    cases i with
    | zero => rw [readByte_writeBytes_out bs _ (by omega)]; simp
    | succ i =>
      have := ih (writeByte m a b) (a + 1) i (by simpa using h)
      rw [show a + (i + 1) = a + 1 + i by omega, this]; simp

/-! ## Bit fields -/

/-- The field just written is read back, cut to its width. -/
theorem getBits_setBits_same (w : Word) {lo n : Nat} (v : Nat) (h : lo + n ≤ 32) :
    getBits (setBits w lo n v) lo n = v % 2 ^ n := by
  unfold getBits setBits
  apply Nat.eq_of_testBit_eq
  intro i
  simp only [Nat.testBit_mod_two_pow, Nat.testBit_shiftRight, BitVec.testBit_toNat, BitVec.getLsbD_or, BitVec.getLsbD_and,
    BitVec.getLsbD_not, BitVec.getLsbD_ofNat, Nat.testBit_shiftLeft]
  by_cases hi : i < n
  · have h1 : lo + i < 32 := by omega
    simp [hi, h1, Nat.testBit_two_pow_sub_one]
  · simp [hi]

/-- A field that does not overlap the field written is as before. -/
theorem getBits_setBits_apart (w : Word) {lo n lo' n' : Nat} (v : Nat) (h : lo + n ≤ lo' ∨ lo' + n' ≤ lo) :
    getBits (setBits w lo n v) lo' n' = getBits w lo' n' := by
  unfold getBits setBits
  apply Nat.eq_of_testBit_eq
  intro i
  simp only [Nat.testBit_mod_two_pow, Nat.testBit_shiftRight, BitVec.testBit_toNat, BitVec.getLsbD_or, BitVec.getLsbD_and,
    BitVec.getLsbD_not, BitVec.getLsbD_ofNat, Nat.testBit_shiftLeft]
  by_cases hi : i < n'
  · by_cases hb : lo' + i < 32
    · by_cases hl : lo ≤ lo' + i
      · have : ¬ lo' + i - lo < n := by omega
        simp [hi, hb, hl, this, Nat.testBit_two_pow_sub_one]
      · simp [hi, hb, hl]
    · simp [hb]
      intro _
      exact (BitVec.getLsbD_of_ge w (lo' + i) (by omega)).symm ▸ rfl
  · simp [hi]

/-! ## Registers -/

/-- A register word just written is read back, whatever its copies were (R89). -/
@[simp] theorem State.word_setWord_same (s : State) (off : Nat) (w : Word) : (s.setWord off w).word off = w := by
  simp [State.word, State.copies, State.setWord]

theorem State.word_setWord_ne (s : State) {off x : Nat} (w : Word) (h : x ≠ off) :
    (s.setWord off w).word x = s.word x := by
  simp [State.word, State.copies, State.setWord, lookup_store_ne _ _ h]

theorem State.word_wr_ne (s : State) (f : Fld) {v i j x : Nat} (h : x ≠ f.addr i j) : (s.wr f v i j).word x = s.word x :=
  s.word_setWord_ne _ h

/-- A field just written is read back, cut to its width. -/
theorem State.rd_wr_same (s : State) {f : Fld} {v i j : Nat} (h : f.lo + f.width ≤ 32 := by decide) :
    (s.wr f v i j).rd f i j = v % 2 ^ f.width := by
  simp [State.rd, State.wr, getBits_setBits_same _ _ h]

/-- A field of another register is as before. -/
theorem State.rd_wr_ne (s : State) {f g : Fld} {v i j i' j' : Nat} (h : g.addr i' j' ≠ f.addr i j) :
    (s.wr f v i j).rd g i' j' = s.rd g i' j' := by
  simp [State.rd, s.word_wr_ne f h]

/-- Another field of the same register is as before. -/
theorem State.rd_wr_apart (s : State) {f g : Fld} {v i j i' j' : Nat} (ha : g.addr i' j' = f.addr i j)
    (h : f.lo + f.width ≤ g.lo ∨ g.lo + g.width ≤ f.lo) : (s.wr f v i j).rd g i' j' = s.rd g i' j' := by
  simp [State.rd, State.wr, ha, getBits_setBits_apart _ _ h]

/-- Two fields of one map never share bits: they lie in different registers or in different bits. -/
def Fld.Apart (g f : Fld) (i' j' i j : Nat) : Prop :=
  g.addr i' j' ≠ f.addr i j ∨ f.lo + f.width ≤ g.lo ∨ g.lo + g.width ≤ f.lo

/-- A field that shares no bits with the one written is as before. -/
theorem State.rd_wr (s : State) {f g : Fld} {v i j i' j' : Nat} (h : g.Apart f i' j' i j) :
    (s.wr f v i j).rd g i' j' = s.rd g i' j' := by
  by_cases ha : g.addr i' j' = f.addr i j
  · exact s.rd_wr_apart ha (h.resolve_left (fun hn => hn ha))
  · exact s.rd_wr_ne ha

/-- The canonical form of the register file is kept. -/
theorem State.regs_canonical_wr {s : State} (f : Fld) (v i j : Nat) (h : canonical resetWord s.regs = true) :
    canonical resetWord (s.wr f v i j).regs = true := canonical_store _ _ h

theorem State.put_eq (s : State) (f : Fld) (b : Bool) (i j : Nat) : s.put f b i j = s.wr f (b2n b) i j := rfl
theorem State.wrS_eq (s : State) (f : Fld) (v : Int) (i j : Nat) : s.wrS f v i j = s.wr f (uns f.width v) i j := rfl
theorem State.bump_eq (s : State) (f : Fld) (i j n : Nat) :
    s.bump f i j n = s.wr f (min (2 ^ f.width - 1) (s.rd f i j + n)) i j := rfl
theorem State.wrBit_eq (s : State) (f : Fld) (b : Nat) (v : Bool) (i j : Nat) :
    s.wrBit f b v i j = s.wr f (putBit (s.rd f i j) b v) i j := rfl

/-! ## Raising an event (R77, R482)

`State.raise` writes no register but `eventWords` and, beside registers, only event staging, the owed lost report and
Waxbook's queue and histories. -/

/-- A property of states that the writes of event staging and of Waxbook's triggers keep; `B` bounds the word of HIF_EVT_LOST that
a source marks. -/
structure EventKeeps (B : Nat → Prop) (P : State → Prop) : Prop where
  wr : ∀ t f v i, f ∈ [F.HIF_EVT_LOST_lost, F.HIF_EVT_LOST_CNT_count, F.WAX_ERR_suppressed, F.WAX_ERR_missed,
    F.WAX_STAT_lost, F.WAX_STAT_pending] → i = 0 ∨ B i → P t → P (t.wr f v i 0)
  record : ∀ t e, t.hif.events.length < 768 → P t → P { t with hif := { t.hif with events := t.hif.events ++ [e] } }
  merge : ∀ (t : State) src code inst, P t → P { t with hif := { t.hif with events := t.hif.events.map fun e =>
    if e.src == src && e.code == code && e.inst == inst then { e with count := e.count + 1 } else e } }
  owe : ∀ t : State, P t → P { t with hif := { t.hif with lostOwed := true } }
  hist : ∀ (t : State) k, P t → P { t with wax := { t.wax with
    hist := store (fun _ => {}) t.wax.hist k { fired := true, last := t.tick } } }
  queue : ∀ (t : State) f, t.wax.queue.length < 8 → P t → P { t with wax := { t.wax with queue := t.wax.queue ++ [f] } }

namespace EventKeeps
variable {B : Nat → Prop} {P : State → Prop} (K : EventKeeps B P)
include K

theorem stage {s : State} (src code inst : Nat) (d : DWord) (hsrc : B (src / 32)) (h : P s) :
    P (s.stageEvent src code inst d) := by
  unfold State.stageEvent
  split
  · exact h
  · split
    · exact K.merge _ _ _ _ h
    · split
      · rename_i hl; exact K.record _ _ hl h
      · exact K.owe _ (K.wr _ _ _ _ (by simp) (.inl rfl) (K.wr _ _ _ _ (by simp) (.inr hsrc) h))

theorem fire {s : State} (t kind src inst code : Nat) (h : P s) : P (s.fireTrigger t kind src inst code).1 := by
  unfold State.fireTrigger
  split
  · exact h
  · split
    · exact K.wr _ _ _ _ (by simp) (.inl rfl) h
    · dsimp only
      split
      · exact K.wr _ _ _ _ (by simp) (.inl rfl) (K.hist _ _ h)
      · split
        · exact K.wr _ _ _ _ (by simp) (.inl rfl) (K.hist _ _ h)
        · rename_i hl
          exact K.wr _ _ _ _ (by simp) (.inl rfl) (K.queue _ _ (by simpa using hl) (K.hist _ _ h))

/-- What holds once an occurrence is staged holds after its triggers have fired. -/
theorem raiseAux_of_stage (h3 : B 3) (n : Nat) {s : State} (src code inst : Nat) (d : DWord)
    (h : P (s.stageEvent src code inst d)) : P (raiseAux n s src code inst d) := by
  induction n generalizing s src code inst d with
  | zero => exact h
  | succ n ih =>
    unfold raiseAux
    generalize s.stageEvent src code inst d = u at h
    generalize List.range 32 = l
    induction l generalizing u with
    | nil => exact h
    | cons t l ihl =>
      rw [List.foldl_cons]
      apply ihl
      split
      · have hf := K.fire t 1 src inst code h
        split
        · rename_i heq; rw [heq] at hf; exact ih _ _ _ _ (K.stage _ _ _ _ h3 hf)
        · rename_i heq; rw [heq] at hf; exact hf
      · exact h

theorem raise_of_stage (h3 : B 3) {s : State} (src code inst : Nat) (d : DWord)
    (h : P (s.stageEvent src code inst d)) : P (s.raise src code inst d) := K.raiseAux_of_stage h3 9 _ _ _ _ h

theorem raise (h3 : B 3) {s : State} (src code inst : Nat) (d : DWord) (hsrc : B (src / 32)) (h : P s) :
    P (s.raise src code inst d) :=
  K.raise_of_stage h3 _ _ _ _ (K.stage _ _ _ _ hsrc h)

theorem fireOther (h3 : B 3) {s : State} (t kind code : Nat) (h : P s) : P (s.fireOther t kind code) := by
  have hf := K.fire t kind 0xFFFF 0xFFFF code h
  unfold State.fireOther
  split
  · rename_i heq; rw [heq] at hf; exact K.raise h3 _ _ _ _ h3 hf
  · rename_i heq; rw [heq] at hf; exact hf

end EventKeeps

end Sys2Proof.Machine
end

