-- ==== Sys2Proof/Laws/Raise.lean ====
section
/-!
SUPPORT. Laws/Raise.lean: what the raising of an event leaves alone, and that it records the occurrence.
-/

namespace Sys2Proof.Machine

theorem EventKeeps.word (s : State) {off : Nat} (h : off ∉ eventWords) : EventKeeps (· < 4) fun t => t.word off = s.word off where
  wr t f v i hf hi ht := by
    have hi : i < 4 := hi.elim (fun h => by omega) id
    refine (State.word_wr_ne t f ?_).trans ht
    rintro rfl
    apply h
    simp only [List.mem_cons, List.not_mem_nil, or_false] at hf
    rcases hf with rfl | rfl | rfl | rfl | rfl | rfl <;> interval_cases i <;> decide
  record _ _ _ h := h
  merge _ _ _ _ h := h
  owe _ h := h
  hist _ _ h := h
  queue _ _ _ h := h

theorem State.raise_word (s : State) {src : Nat} (code inst : Nat) (d : DWord) {off : Nat} (hsrc : src < 128)
    (h : off ∉ eventWords) : (s.raise src code inst d).word off = s.word off :=
  (EventKeeps.word s h).raise (by decide) src code inst d (by simpa using (by omega : src / 32 < 4)) rfl

theorem State.raise_rd (s : State) {src : Nat} (code inst : Nat) (d : DWord) {f : Fld} {i j : Nat} (hsrc : src < 128)
    (h : f.addr i j ∉ eventWords) : (s.raise src code inst d).rd f i j = s.rd f i j := by
  simp [State.rd, s.raise_word code inst d hsrc h]

/-- Everything but the register file, copies of registers, event staging and Waxbook's triggers is as before. -/
def State.SameButEvents (s t : State) : Prop :=
  t = { s with regs := t.regs, glb := { s.glb with t3copies := t.glb.t3copies },
               hif := { s.hif with events := t.hif.events, lostOwed := t.hif.lostOwed },
               wax := { s.wax with hist := t.wax.hist, queue := t.wax.queue } }

theorem EventKeeps.blocks (s : State) : EventKeeps (fun _ => True) s.SameButEvents where
  wr t f v i _ _ h := by unfold State.SameButEvents at h; rw [h]; rfl
  record t _ _ h := by unfold State.SameButEvents at h; rw [h]; rfl
  merge t _ _ _ h := by unfold State.SameButEvents at h; rw [h]; rfl
  owe t h := by unfold State.SameButEvents at h; rw [h]; rfl
  hist t _ h := by unfold State.SameButEvents at h; rw [h]; rfl
  queue t _ _ h := by unfold State.SameButEvents at h; rw [h]; rfl

theorem State.raise_blocks (s : State) {src : Nat} (code inst : Nat) (d : DWord) :
    s.SameButEvents (s.raise src code inst d) := (EventKeeps.blocks s).raise trivial src code inst d trivial rfl

@[simp] theorem State.raise_pending (s : State) (src code inst : Nat) (d : DWord) :
    (s.raise src code inst d).pending = s.pending :=
  (⟨fun _ _ _ _ _ _ h => h, fun _ _ _ h => h, fun _ _ _ _ h => h, fun _ h => h, fun _ _ h => h, fun _ _ _ h => h⟩ :
    EventKeeps (fun _ => True) fun t => t.pending = s.pending).raise trivial src code inst d trivial rfl
@[simp] theorem State.raise_tick (s : State) (src code inst : Nat) (d : DWord) :
    (s.raise src code inst d).tick = s.tick :=
  (⟨fun _ _ _ _ _ _ h => h, fun _ _ _ h => h, fun _ _ _ _ h => h, fun _ h => h, fun _ _ h => h, fun _ _ _ h => h⟩ :
    EventKeeps (fun _ => True) fun t => t.tick = s.tick).raise trivial src code inst d trivial rfl
@[simp] theorem State.raise_hive (s : State) (src code inst : Nat) (d : DWord) :
    (s.raise src code inst d).hive = s.hive :=
  (⟨fun _ _ _ _ _ _ h => h, fun _ _ _ h => h, fun _ _ _ _ h => h, fun _ h => h, fun _ _ h => h, fun _ _ _ h => h⟩ :
    EventKeeps (fun _ => True) fun t => t.hive = s.hive).raise trivial src code inst d trivial rfl
@[simp] theorem State.raise_anvil (s : State) (src code inst : Nat) (d : DWord) :
    (s.raise src code inst d).anvil = s.anvil :=
  (⟨fun _ _ _ _ _ _ h => h, fun _ _ _ h => h, fun _ _ _ _ h => h, fun _ h => h, fun _ _ h => h, fun _ _ _ h => h⟩ :
    EventKeeps (fun _ => True) fun t => t.anvil = s.anvil).raise trivial src code inst d trivial rfl
@[simp] theorem State.raise_plan (s : State) (src code inst : Nat) (d : DWord) :
    (s.raise src code inst d).plan = s.plan :=
  (⟨fun _ _ _ _ _ _ h => h, fun _ _ _ h => h, fun _ _ _ _ h => h, fun _ h => h, fun _ _ h => h, fun _ _ _ h => h⟩ :
    EventKeeps (fun _ => True) fun t => t.plan = s.plan).raise trivial src code inst d trivial rfl
@[simp] theorem State.raise_temper (s : State) (src code inst : Nat) (d : DWord) :
    (s.raise src code inst d).temper = s.temper :=
  (⟨fun _ _ _ _ _ _ h => h, fun _ _ _ h => h, fun _ _ _ _ h => h, fun _ h => h, fun _ _ h => h, fun _ _ _ h => h⟩ :
    EventKeeps (fun _ => True) fun t => t.temper = s.temper).raise trivial src code inst d trivial rfl
@[simp] theorem State.raise_combway (s : State) (src code inst : Nat) (d : DWord) :
    (s.raise src code inst d).combway = s.combway :=
  (⟨fun _ _ _ _ _ _ h => h, fun _ _ _ h => h, fun _ _ _ _ h => h, fun _ h => h, fun _ _ h => h, fun _ _ _ h => h⟩ :
    EventKeeps (fun _ => True) fun t => t.combway = s.combway).raise trivial src code inst d trivial rfl
@[simp] theorem State.raise_quench (s : State) (src code inst : Nat) (d : DWord) :
    (s.raise src code inst d).quench = s.quench :=
  (⟨fun _ _ _ _ _ _ h => h, fun _ _ _ h => h, fun _ _ _ _ h => h, fun _ h => h, fun _ _ h => h, fun _ _ _ h => h⟩ :
    EventKeeps (fun _ => True) fun t => t.quench = s.quench).raise trivial src code inst d trivial rfl
@[simp] theorem State.raise_tongs (s : State) (src code inst : Nat) (d : DWord) :
    (s.raise src code inst d).tongs = s.tongs :=
  (⟨fun _ _ _ _ _ _ h => h, fun _ _ _ h => h, fun _ _ _ _ h => h, fun _ h => h, fun _ _ h => h, fun _ _ _ h => h⟩ :
    EventKeeps (fun _ => True) fun t => t.tongs = s.tongs).raise trivial src code inst d trivial rfl
@[simp] theorem State.raise_swage (s : State) (src code inst : Nat) (d : DWord) :
    (s.raise src code inst d).swage = s.swage :=
  (⟨fun _ _ _ _ _ _ h => h, fun _ _ _ h => h, fun _ _ _ _ h => h, fun _ h => h, fun _ _ h => h, fun _ _ _ h => h⟩ :
    EventKeeps (fun _ => True) fun t => t.swage = s.swage).raise trivial src code inst d trivial rfl
@[simp] theorem State.raise_adc (s : State) (src code inst : Nat) (d : DWord) :
    (s.raise src code inst d).adc = s.adc :=
  (⟨fun _ _ _ _ _ _ h => h, fun _ _ _ h => h, fun _ _ _ _ h => h, fun _ h => h, fun _ _ h => h, fun _ _ _ h => h⟩ :
    EventKeeps (fun _ => True) fun t => t.adc = s.adc).raise trivial src code inst d trivial rfl
@[simp] theorem State.raise_bellows (s : State) (src code inst : Nat) (d : DWord) :
    (s.raise src code inst d).bellows = s.bellows :=
  (⟨fun _ _ _ _ _ _ h => h, fun _ _ _ h => h, fun _ _ _ _ h => h, fun _ h => h, fun _ _ h => h, fun _ _ _ h => h⟩ :
    EventKeeps (fun _ => True) fun t => t.bellows = s.bellows).raise trivial src code inst d trivial rfl
@[simp] theorem State.raise_sram (s : State) (src code inst : Nat) (d : DWord) :
    (s.raise src code inst d).sram = s.sram :=
  (⟨fun _ _ _ _ _ _ h => h, fun _ _ _ h => h, fun _ _ _ _ h => h, fun _ h => h, fun _ _ h => h, fun _ _ _ h => h⟩ :
    EventKeeps (fun _ => True) fun t => t.sram = s.sram).raise trivial src code inst d trivial rfl
@[simp] theorem State.raise_otp (s : State) (src code inst : Nat) (d : DWord) :
    (s.raise src code inst d).otp = s.otp :=
  (⟨fun _ _ _ _ _ _ h => h, fun _ _ _ h => h, fun _ _ _ _ h => h, fun _ h => h, fun _ _ h => h, fun _ _ _ h => h⟩ :
    EventKeeps (fun _ => True) fun t => t.otp = s.otp).raise trivial src code inst d trivial rfl
@[simp] theorem State.raise_upd (s : State) (src code inst : Nat) (d : DWord) :
    (s.raise src code inst d).upd = s.upd :=
  (⟨fun _ _ _ _ _ _ h => h, fun _ _ _ h => h, fun _ _ _ _ h => h, fun _ h => h, fun _ _ h => h, fun _ _ _ h => h⟩ :
    EventKeeps (fun _ => True) fun t => t.upd = s.upd).raise trivial src code inst d trivial rfl
@[simp] theorem State.raise_tim (s : State) (src code inst : Nat) (d : DWord) :
    (s.raise src code inst d).tim = s.tim :=
  (⟨fun _ _ _ _ _ _ h => h, fun _ _ _ h => h, fun _ _ _ _ h => h, fun _ h => h, fun _ _ h => h, fun _ _ _ h => h⟩ :
    EventKeeps (fun _ => True) fun t => t.tim = s.tim).raise trivial src code inst d trivial rfl
@[simp] theorem State.raise_clk (s : State) (src code inst : Nat) (d : DWord) :
    (s.raise src code inst d).clk = s.clk :=
  (⟨fun _ _ _ _ _ _ h => h, fun _ _ _ h => h, fun _ _ _ _ h => h, fun _ h => h, fun _ _ h => h, fun _ _ _ h => h⟩ :
    EventKeeps (fun _ => True) fun t => t.clk = s.clk).raise trivial src code inst d trivial rfl
@[simp] theorem State.raise_epochs (s : State) (src code inst : Nat) (d : DWord) :
    (s.raise src code inst d).epochs = s.epochs :=
  (⟨fun _ _ _ _ _ _ h => h, fun _ _ _ h => h, fun _ _ _ _ h => h, fun _ h => h, fun _ _ h => h, fun _ _ _ h => h⟩ :
    EventKeeps (fun _ => True) fun t => t.epochs = s.epochs).raise trivial src code inst d trivial rfl
@[simp] theorem State.raise_hostMem (s : State) (src code inst : Nat) (d : DWord) :
    (s.raise src code inst d).hostMem = s.hostMem :=
  (⟨fun _ _ _ _ _ _ h => h, fun _ _ _ h => h, fun _ _ _ _ h => h, fun _ h => h, fun _ _ h => h, fun _ _ _ h => h⟩ :
    EventKeeps (fun _ => True) fun t => t.hostMem = s.hostMem).raise trivial src code inst d trivial rfl
@[simp] theorem State.raise_ddr (s : State) (src code inst : Nat) (d : DWord) :
    (s.raise src code inst d).ddr = s.ddr :=
  (⟨fun _ _ _ _ _ _ h => h, fun _ _ _ h => h, fun _ _ _ _ h => h, fun _ h => h, fun _ _ h => h, fun _ _ _ h => h⟩ :
    EventKeeps (fun _ => True) fun t => t.ddr = s.ddr).raise trivial src code inst d trivial rfl
@[simp] theorem State.raise_rdata (s : State) (src code inst : Nat) (d : DWord) :
    (s.raise src code inst d).rdata = s.rdata :=
  (⟨fun _ _ _ _ _ _ h => h, fun _ _ _ h => h, fun _ _ _ _ h => h, fun _ h => h, fun _ _ h => h, fun _ _ _ h => h⟩ :
    EventKeeps (fun _ => True) fun t => t.rdata = s.rdata).raise trivial src code inst d trivial rfl
@[simp] theorem State.raise_free (s : State) (src code inst : Nat) (d : DWord) :
    (s.raise src code inst d).free = s.free :=
  (⟨fun _ _ _ _ _ _ h => h, fun _ _ _ h => h, fun _ _ _ _ h => h, fun _ h => h, fun _ _ h => h, fun _ _ _ h => h⟩ :
    EventKeeps (fun _ => True) fun t => t.free = s.free).raise trivial src code inst d trivial rfl
@[simp] theorem State.raise_glb_staged (s : State) (src code inst : Nat) (d : DWord) :
    (s.raise src code inst d).glb.staged = s.glb.staged :=
  (⟨fun _ _ _ _ _ _ h => h, fun _ _ _ h => h, fun _ _ _ _ h => h, fun _ h => h, fun _ _ h => h, fun _ _ _ h => h⟩ :
    EventKeeps (fun _ => True) fun t => t.glb.staged = s.glb.staged).raise trivial src code inst d trivial rfl
@[simp] theorem State.raise_glb_strobes (s : State) (src code inst : Nat) (d : DWord) :
    (s.raise src code inst d).glb.strobes = s.glb.strobes :=
  (⟨fun _ _ _ _ _ _ h => h, fun _ _ _ h => h, fun _ _ _ _ h => h, fun _ h => h, fun _ _ h => h, fun _ _ _ h => h⟩ :
    EventKeeps (fun _ => True) fun t => t.glb.strobes = s.glb.strobes).raise trivial src code inst d trivial rfl
@[simp] theorem State.raise_glb_posted (s : State) (src code inst : Nat) (d : DWord) :
    (s.raise src code inst d).glb.posted = s.glb.posted :=
  (⟨fun _ _ _ _ _ _ h => h, fun _ _ _ h => h, fun _ _ _ _ h => h, fun _ h => h, fun _ _ h => h, fun _ _ _ h => h⟩ :
    EventKeeps (fun _ => True) fun t => t.glb.posted = s.glb.posted).raise trivial src code inst d trivial rfl
@[simp] theorem State.raise_glb_mailbox (s : State) (src code inst : Nat) (d : DWord) :
    (s.raise src code inst d).glb.mailbox = s.glb.mailbox :=
  (⟨fun _ _ _ _ _ _ h => h, fun _ _ _ h => h, fun _ _ _ _ h => h, fun _ h => h, fun _ _ h => h, fun _ _ _ h => h⟩ :
    EventKeeps (fun _ => True) fun t => t.glb.mailbox = s.glb.mailbox).raise trivial src code inst d trivial rfl
@[simp] theorem State.raise_glb_unlock (s : State) (src code inst : Nat) (d : DWord) :
    (s.raise src code inst d).glb.unlock = s.glb.unlock :=
  (⟨fun _ _ _ _ _ _ h => h, fun _ _ _ h => h, fun _ _ _ _ h => h, fun _ h => h, fun _ _ h => h, fun _ _ _ h => h⟩ :
    EventKeeps (fun _ => True) fun t => t.glb.unlock = s.glb.unlock).raise trivial src code inst d trivial rfl
@[simp] theorem State.raise_glb_wdtServed (s : State) (src code inst : Nat) (d : DWord) :
    (s.raise src code inst d).glb.wdtServed = s.glb.wdtServed :=
  (⟨fun _ _ _ _ _ _ h => h, fun _ _ _ h => h, fun _ _ _ _ h => h, fun _ h => h, fun _ _ h => h, fun _ _ _ h => h⟩ :
    EventKeeps (fun _ => True) fun t => t.glb.wdtServed = s.glb.wdtServed).raise trivial src code inst d trivial rfl
@[simp] theorem State.raise_glb_modeReq (s : State) (src code inst : Nat) (d : DWord) :
    (s.raise src code inst d).glb.modeReq = s.glb.modeReq :=
  (⟨fun _ _ _ _ _ _ h => h, fun _ _ _ h => h, fun _ _ _ _ h => h, fun _ h => h, fun _ _ h => h, fun _ _ _ h => h⟩ :
    EventKeeps (fun _ => True) fun t => t.glb.modeReq = s.glb.modeReq).raise trivial src code inst d trivial rfl
@[simp] theorem State.raise_glb_sentinelDue (s : State) (src code inst : Nat) (d : DWord) :
    (s.raise src code inst d).glb.sentinelDue = s.glb.sentinelDue :=
  (⟨fun _ _ _ _ _ _ h => h, fun _ _ _ h => h, fun _ _ _ _ h => h, fun _ h => h, fun _ _ h => h, fun _ _ _ h => h⟩ :
    EventKeeps (fun _ => True) fun t => t.glb.sentinelDue = s.glb.sentinelDue).raise trivial src code inst d trivial rfl
@[simp] theorem State.raise_glb_sentinelAt (s : State) (src code inst : Nat) (d : DWord) :
    (s.raise src code inst d).glb.sentinelAt = s.glb.sentinelAt :=
  (⟨fun _ _ _ _ _ _ h => h, fun _ _ _ h => h, fun _ _ _ _ h => h, fun _ h => h, fun _ _ h => h, fun _ _ _ h => h⟩ :
    EventKeeps (fun _ => True) fun t => t.glb.sentinelAt = s.glb.sentinelAt).raise trivial src code inst d trivial rfl
@[simp] theorem State.raise_hif_sq (s : State) (src code inst : Nat) (d : DWord) :
    (s.raise src code inst d).hif.sq = s.hif.sq :=
  (⟨fun _ _ _ _ _ _ h => h, fun _ _ _ h => h, fun _ _ _ _ h => h, fun _ h => h, fun _ _ h => h, fun _ _ _ h => h⟩ :
    EventKeeps (fun _ => True) fun t => t.hif.sq = s.hif.sq).raise trivial src code inst d trivial rfl
@[simp] theorem State.raise_hif_cq (s : State) (src code inst : Nat) (d : DWord) :
    (s.raise src code inst d).hif.cq = s.hif.cq :=
  (⟨fun _ _ _ _ _ _ h => h, fun _ _ _ h => h, fun _ _ _ _ h => h, fun _ h => h, fun _ _ h => h, fun _ _ _ h => h⟩ :
    EventKeeps (fun _ => True) fun t => t.hif.cq = s.hif.cq).raise trivial src code inst d trivial rfl
@[simp] theorem State.raise_hif_desc (s : State) (src code inst : Nat) (d : DWord) :
    (s.raise src code inst d).hif.desc = s.hif.desc :=
  (⟨fun _ _ _ _ _ _ h => h, fun _ _ _ h => h, fun _ _ _ _ h => h, fun _ h => h, fun _ _ h => h, fun _ _ _ h => h⟩ :
    EventKeeps (fun _ => True) fun t => t.hif.desc = s.hif.desc).raise trivial src code inst d trivial rfl
@[simp] theorem State.raise_hif_nextDesc (s : State) (src code inst : Nat) (d : DWord) :
    (s.raise src code inst d).hif.nextDesc = s.hif.nextDesc :=
  (⟨fun _ _ _ _ _ _ h => h, fun _ _ _ h => h, fun _ _ _ _ h => h, fun _ h => h, fun _ _ h => h, fun _ _ _ h => h⟩ :
    EventKeeps (fun _ => True) fun t => t.hif.nextDesc = s.hif.nextDesc).raise trivial src code inst d trivial rfl
@[simp] theorem State.raise_hif_compl (s : State) (src code inst : Nat) (d : DWord) :
    (s.raise src code inst d).hif.compl = s.hif.compl :=
  (⟨fun _ _ _ _ _ _ h => h, fun _ _ _ h => h, fun _ _ _ _ h => h, fun _ h => h, fun _ _ h => h, fun _ _ _ h => h⟩ :
    EventKeeps (fun _ => True) fun t => t.hif.compl = s.hif.compl).raise trivial src code inst d trivial rfl
@[simp] theorem State.raise_hif_vector (s : State) (src code inst : Nat) (d : DWord) :
    (s.raise src code inst d).hif.vector = s.hif.vector :=
  (⟨fun _ _ _ _ _ _ h => h, fun _ _ _ h => h, fun _ _ _ _ h => h, fun _ h => h, fun _ _ h => h, fun _ _ _ h => h⟩ :
    EventKeeps (fun _ => True) fun t => t.hif.vector = s.hif.vector).raise trivial src code inst d trivial rfl
@[simp] theorem State.raise_hif_d3hot (s : State) (src code inst : Nat) (d : DWord) :
    (s.raise src code inst d).hif.d3hot = s.hif.d3hot :=
  (⟨fun _ _ _ _ _ _ h => h, fun _ _ _ h => h, fun _ _ _ _ h => h, fun _ h => h, fun _ _ h => h, fun _ _ _ h => h⟩ :
    EventKeeps (fun _ => True) fun t => t.hif.d3hot = s.hif.d3hot).raise trivial src code inst d trivial rfl
@[simp] theorem State.raise_hif_linkUp (s : State) (src code inst : Nat) (d : DWord) :
    (s.raise src code inst d).hif.linkUp = s.hif.linkUp :=
  (⟨fun _ _ _ _ _ _ h => h, fun _ _ _ h => h, fun _ _ _ _ h => h, fun _ h => h, fun _ _ h => h, fun _ _ _ h => h⟩ :
    EventKeeps (fun _ => True) fun t => t.hif.linkUp = s.hif.linkUp).raise trivial src code inst d trivial rfl
@[simp] theorem State.raise_hif_epoch (s : State) (src code inst : Nat) (d : DWord) :
    (s.raise src code inst d).hif.epoch = s.hif.epoch :=
  (⟨fun _ _ _ _ _ _ h => h, fun _ _ _ h => h, fun _ _ _ _ h => h, fun _ h => h, fun _ _ h => h, fun _ _ _ h => h⟩ :
    EventKeeps (fun _ => True) fun t => t.hif.epoch = s.hif.epoch).raise trivial src code inst d trivial rfl
@[simp] theorem State.raise_hif_aerCorr (s : State) (src code inst : Nat) (d : DWord) :
    (s.raise src code inst d).hif.aerCorr = s.hif.aerCorr :=
  (⟨fun _ _ _ _ _ _ h => h, fun _ _ _ h => h, fun _ _ _ _ h => h, fun _ h => h, fun _ _ h => h, fun _ _ _ h => h⟩ :
    EventKeeps (fun _ => True) fun t => t.hif.aerCorr = s.hif.aerCorr).raise trivial src code inst d trivial rfl
@[simp] theorem State.raise_hif_aerUncorr (s : State) (src code inst : Nat) (d : DWord) :
    (s.raise src code inst d).hif.aerUncorr = s.hif.aerUncorr :=
  (⟨fun _ _ _ _ _ _ h => h, fun _ _ _ h => h, fun _ _ _ _ h => h, fun _ h => h, fun _ _ h => h, fun _ _ _ h => h⟩ :
    EventKeeps (fun _ => True) fun t => t.hif.aerUncorr = s.hif.aerUncorr).raise trivial src code inst d trivial rfl
@[simp] theorem State.raise_wax_busy (s : State) (src code inst : Nat) (d : DWord) :
    (s.raise src code inst d).wax.busy = s.wax.busy :=
  (⟨fun _ _ _ _ _ _ h => h, fun _ _ _ h => h, fun _ _ _ _ h => h, fun _ h => h, fun _ _ h => h, fun _ _ _ h => h⟩ :
    EventKeeps (fun _ => True) fun t => t.wax.busy = s.wax.busy).raise trivial src code inst d trivial rfl
@[simp] theorem State.raise_wax_store (s : State) (src code inst : Nat) (d : DWord) :
    (s.raise src code inst d).wax.store = s.wax.store :=
  (⟨fun _ _ _ _ _ _ h => h, fun _ _ _ h => h, fun _ _ _ _ h => h, fun _ h => h, fun _ _ h => h, fun _ _ _ h => h⟩ :
    EventKeeps (fun _ => True) fun t => t.wax.store = s.wax.store).raise trivial src code inst d trivial rfl
@[simp] theorem State.raise_wax_clearWaiting (s : State) (src code inst : Nat) (d : DWord) :
    (s.raise src code inst d).wax.clearWaiting = s.wax.clearWaiting :=
  (⟨fun _ _ _ _ _ _ h => h, fun _ _ _ h => h, fun _ _ _ _ h => h, fun _ h => h, fun _ _ h => h, fun _ _ _ h => h⟩ :
    EventKeeps (fun _ => True) fun t => t.wax.clearWaiting = s.wax.clearWaiting).raise trivial src code inst d trivial rfl
@[simp] theorem State.raise_wax_failed (s : State) (src code inst : Nat) (d : DWord) :
    (s.raise src code inst d).wax.failed = s.wax.failed :=
  (⟨fun _ _ _ _ _ _ h => h, fun _ _ _ h => h, fun _ _ _ _ h => h, fun _ h => h, fun _ _ h => h, fun _ _ _ h => h⟩ :
    EventKeeps (fun _ => True) fun t => t.wax.failed = s.wax.failed).raise trivial src code inst d trivial rfl
@[simp] theorem State.raise_wax_onChipEnd (s : State) (src code inst : Nat) (d : DWord) :
    (s.raise src code inst d).wax.onChipEnd = s.wax.onChipEnd :=
  (⟨fun _ _ _ _ _ _ h => h, fun _ _ _ h => h, fun _ _ _ _ h => h, fun _ h => h, fun _ _ h => h, fun _ _ _ h => h⟩ :
    EventKeeps (fun _ => True) fun t => t.wax.onChipEnd = s.wax.onChipEnd).raise trivial src code inst d trivial rfl

/-- Event staging keeps every record it holds: only counts grow. -/
theorem EventKeeps.hasEvent (a b c : Nat) : EventKeeps (fun _ => True) fun t => t.hasEvent a b c where
  wr _ _ _ _ _ _ h := h
  record t e _ h := by obtain ⟨x, hx, hk⟩ := h; exact ⟨x, List.mem_append_left _ hx, hk⟩
  merge t src code inst h := by
    obtain ⟨x, hx, hk⟩ := h
    refine ⟨_, List.mem_map_of_mem hx, ?_⟩
    split <;> exact hk
  owe _ h := h
  hist _ _ h := h
  queue _ _ _ h := h

theorem State.hasEvent_raise {s : State} {a b c : Nat} (src code inst : Nat) (d : DWord)
    (h : s.hasEvent a b c) : (s.raise src code inst d).hasEvent a b c :=
  (EventKeeps.hasEvent a b c).raise trivial _ _ _ _ trivial h

/-- An occurrence that staging takes is recorded there (R77). -/
theorem State.stageEvent_hasEvent {s : State} {src : Nat} (code inst : Nat) (d : DWord) (h : s.takesEvent src) :
    (s.stageEvent src code inst d).hasEvent src code inst := by
  unfold State.stageEvent
  rw [if_neg h.1]
  split
  · rename_i hm
    obtain ⟨e, he, hk⟩ := List.any_eq_true.1 hm
    refine ⟨_, List.mem_map_of_mem he, ?_⟩
    rw [if_pos hk]
    simpa [and_assoc] using hk
  · rw [if_pos h.2]
    exact ⟨_, List.mem_append_right _ (List.mem_singleton_self _), rfl, rfl, rfl⟩

theorem State.raise_hasEvent {s : State} {src : Nat} (code inst : Nat) (d : DWord) (h : s.takesEvent src) :
    (s.raise src code inst d).hasEvent src code inst :=
  (EventKeeps.hasEvent src code inst).raise_of_stage trivial _ _ _ _ (State.stageEvent_hasEvent code inst d h)

end Sys2Proof.Machine
end

