-- ==== Sys2Proof/Laws/Inv.lean ====
section
/-!
SUPPORT. Laws/Inv.lean: every function of the model keeps a sound state sound: the rules that the lemmas of Laws/Inv use, and the
shared operations.
-/

namespace Sys2Proof.Machine

/-- What a command answers is sound. -/
def SoundOut (o : Host.Outcome State Fault Refusal) : Prop := ∀ t, o = .next t → t.Inv

theorem SoundOut.next {s : State} (h : s.Inv) : SoundOut (.next s) := fun _ e => by cases e; exact h

theorem SoundOut.ite {c : Prop} [Decidable c] {a b : Host.Outcome State Fault Refusal} (ha : SoundOut a) (hb : SoundOut b) :
    SoundOut (if c then a else b) := by split <;> assumption

theorem State.Inv.ite {c : Prop} [Decidable c] {a b : State} (ha : a.Inv) (hb : b.Inv) : (if c then a else b).Inv := by
  split <;> assumption

theorem State.Inv.foldl {α : Type} {f : State → α → State} {l : List α} {s : State} (hf : ∀ t a, t.Inv → (f t a).Inv)
    (h : s.Inv) : (l.foldl f s).Inv := by
  induction l generalizing s with
  | nil => exact h
  | cons a l ih => exact ih (hf s a h)

theorem State.Inv.foldl_fst {α β : Type} {f : State × β → α → State × β} {l : List α} {p : State × β}
    (hf : ∀ q a, q.1.Inv → (f q a).1.Inv) (h : p.1.Inv) : (l.foldl f p).1.Inv := by
  induction l generalizing p with
  | nil => exact h
  | cons a l ih => exact ih (hf p a h)

/-- A state whose sound parts are those of a sound state is sound, whatever else it holds. -/
theorem State.Inv.parts {s : State} (h : s.Inv) : Sound s.regs s.hostMem s.ddr s.wax.store s.upd.flash0 s.upd.flash1
    s.hif.events s.wax.queue s.hive.trace s.tim.cell s.pending := h

theorem State.Inv.setWord {s : State} (h : s.Inv) (off : Nat) (w : Word) : (s.setWord off w).Inv :=
  ⟨canonical_store _ _ h.1, h.2⟩

theorem State.Inv.wr {s : State} (h : s.Inv) (f : Fld) (v i j : Nat) : (s.wr f v i j).Inv := h.setWord _ _

theorem EventKeeps.inv : EventKeeps (fun _ => True) State.Inv where
  wr _ f v i _ _ h := h.wr f v i 0
  record t e hl h := by
    obtain ⟨h1, h2, h3, h4, h5, h6, h7, h8⟩ := h
    exact ⟨h1, h2, h3, h4, h5, h6, by simpa using hl, h8⟩
  merge t _ _ _ h := by
    obtain ⟨h1, h2, h3, h4, h5, h6, h7, h8⟩ := h
    exact ⟨h1, h2, h3, h4, h5, h6, by simpa using h7, h8⟩
  owe _ h := h
  hist _ _ h := h
  queue t f hl h := by
    obtain ⟨h1, h2, h3, h4, h5, h6, h7, h8, h9⟩ := h
    exact ⟨h1, h2, h3, h4, h5, h6, h7, by simpa using hl, h9⟩

theorem State.Inv.mk' {pe : List Instr} {ti re gl hi hv an pl te co qu tg sw ad be sr ot up tm wa ck ep ho dd rd fr}
    (h : Sound re ho dd wa.store up.flash0 up.flash1 hi.events wa.queue hv.trace tm.cell pe) :
    (State.mk pe ti re gl hi hv an pl te co qu tg sw ad be sr ot up tm wa ck ep ho dd rd fr).Inv := h

theorem State.Inv.of_fst {α : Type} {p : State × α} {s : State} {a : α} (e : p = (s, a)) (h : p.1.Inv) : s.Inv := by
  rw [e] at h; exact h

theorem State.Inv.of_snd {α : Type} {p : α × State} {s : State} {a : α} (e : p = (a, s)) (h : p.2.Inv) : s.Inv := by
  rw [e] at h; exact h

theorem State.stageEvent_inv {s : State} (h : s.Inv) (src code inst : Nat) (d : DWord) : (s.stageEvent src code inst d).Inv :=
  EventKeeps.inv.stage src code inst d trivial h

theorem State.fireTrigger_inv {s : State} (h : s.Inv) (t kind src inst code : Nat) :
    (s.fireTrigger t kind src inst code).1.Inv := EventKeeps.inv.fire t kind src inst code h

theorem State.raise_inv {s : State} (h : s.Inv) (src code inst : Nat) (d : DWord) : (s.raise src code inst d).Inv :=
  EventKeeps.inv.raise trivial src code inst d trivial h

theorem State.fireOther_inv {s : State} (h : s.Inv) (t kind code : Nat) : (s.fireOther t kind code).Inv :=
  EventKeeps.inv.fireOther trivial t kind code h

/-! ## The parts of a sound state, and a sound state with one part changed -/

theorem State.Inv.wf_host {s : State} (h : s.Inv) : Memory.wf s.hostMem = true := h.2.1
theorem State.Inv.wf_ddr {s : State} (h : s.Inv) : Memory.wf s.ddr = true := h.2.2.1
theorem State.Inv.wf_store {s : State} (h : s.Inv) : Memory.wf s.wax.store = true := h.2.2.2.1
theorem State.Inv.wf_flash0 {s : State} (h : s.Inv) : Memory.wf s.upd.flash0 = true := h.2.2.2.2.1
theorem State.Inv.wf_flash1 {s : State} (h : s.Inv) : Memory.wf s.upd.flash1 = true := h.2.2.2.2.2.1

theorem State.Inv.withHost {s : State} {m : List Host.Cell} (h : s.Inv) (hm : Memory.wf m = true) : Sound s.regs m s.ddr
    s.wax.store s.upd.flash0 s.upd.flash1 s.hif.events s.wax.queue s.hive.trace s.tim.cell s.pending := ⟨h.1, hm, h.2.2⟩

theorem State.Inv.withDdr {s : State} {m : List Host.Cell} (h : s.Inv) (hm : Memory.wf m = true) : Sound s.regs s.hostMem m
    s.wax.store s.upd.flash0 s.upd.flash1 s.hif.events s.wax.queue s.hive.trace s.tim.cell s.pending :=
  ⟨h.1, h.2.1, hm, h.2.2.2⟩

theorem State.Inv.withStore {s : State} {m x : List Host.Cell} (h : s.Inv) (hm : Memory.wf m = true)
    (hx : Memory.wf x = true) : Sound s.regs s.hostMem m x s.upd.flash0 s.upd.flash1 s.hif.events s.wax.queue s.hive.trace
    s.tim.cell s.pending := ⟨h.1, h.2.1, hm, hx, h.2.2.2.2⟩

theorem State.Inv.withFlash {s : State} {x y : List Host.Cell} (h : s.Inv) (hx : Memory.wf x = true)
    (hy : Memory.wf y = true) : Sound s.regs s.hostMem s.ddr s.wax.store x y s.hif.events s.wax.queue s.hive.trace
    s.tim.cell s.pending := ⟨h.1, h.2.1, h.2.2.1, h.2.2.2.1, hx, hy, h.2.2.2.2.2.2⟩

theorem State.Inv.withEvents {s : State} {l : List EventRec} (h : s.Inv) (hl : l.length ≤ 768) : Sound s.regs s.hostMem
    s.ddr s.wax.store s.upd.flash0 s.upd.flash1 l s.wax.queue s.hive.trace s.tim.cell s.pending :=
  ⟨h.1, h.2.1, h.2.2.1, h.2.2.2.1, h.2.2.2.2.1, h.2.2.2.2.2.1, hl, h.2.2.2.2.2.2.2⟩

theorem State.Inv.withQueue {s : State} {l : List Firing} (h : s.Inv) (hl : l.length ≤ 8) : Sound s.regs s.hostMem
    s.ddr s.wax.store s.upd.flash0 s.upd.flash1 s.hif.events l s.hive.trace s.tim.cell s.pending :=
  ⟨h.1, h.2.1, h.2.2.1, h.2.2.2.1, h.2.2.2.2.1, h.2.2.2.2.2.1, h.2.2.2.2.2.2.1, hl, h.2.2.2.2.2.2.2.2⟩

theorem State.Inv.withTrace {s : State} {l : List (List Byte)} (h : s.Inv) (hl : l.length ≤ 64) : Sound s.regs s.hostMem
    s.ddr s.wax.store s.upd.flash0 s.upd.flash1 s.hif.events s.wax.queue l s.tim.cell s.pending :=
  ⟨h.1, h.2.1, h.2.2.1, h.2.2.2.1, h.2.2.2.2.1, h.2.2.2.2.2.1, h.2.2.2.2.2.2.1, h.2.2.2.2.2.2.2.1, hl,
    h.2.2.2.2.2.2.2.2.2⟩

theorem State.Inv.withCell {s : State} {c : Nat} (h : s.Inv) (hc : c < cellWrap) : Sound s.regs s.hostMem
    s.ddr s.wax.store s.upd.flash0 s.upd.flash1 s.hif.events s.wax.queue s.hive.trace c s.pending :=
  ⟨h.1, h.2.1, h.2.2.1, h.2.2.2.1, h.2.2.2.2.1, h.2.2.2.2.2.1, h.2.2.2.2.2.2.1, h.2.2.2.2.2.2.2.1,
    h.2.2.2.2.2.2.2.2.1, hc, h.2.2.2.2.2.2.2.2.2.2⟩

theorem State.Inv.queue_le {s : State} (h : s.Inv) : s.wax.queue.length ≤ 8 := h.2.2.2.2.2.2.2.1
theorem State.Inv.events_le {s : State} (h : s.Inv) : s.hif.events.length ≤ 768 := h.2.2.2.2.2.2.1
theorem State.Inv.pending_wf {s : State} (h : s.Inv) : s.pending.all Instr.wf = true := h.2.2.2.2.2.2.2.2.2.2

end Sys2Proof.Machine
end

