-- ==== Sys2Proof/Laws/Inv/Ops.lean ====
section
/-! SUPPORT. The invariant `State.Inv` is kept by every function of Machine/Ops.lean. -/

namespace Sys2Proof.Machine

theorem State.bump_inv {s : State} (hs : s.Inv) (f : Fld) (i : optParam Nat 0) (j : optParam Nat 0) (n : optParam Nat 1) : (State.bump s f i j n).Inv := by
  unfold State.bump
  repeat' first
    | with_reducible assumption
    | with_reducible apply State.Inv.wr

theorem State.wrBit_inv {s : State} (hs : s.Inv) (f : Fld) (b : Nat) (v : Bool) (i : optParam Nat 0) (j : optParam Nat 0) : (State.wrBit s f b v i j).Inv := by
  unfold State.wrBit
  repeat' first
    | with_reducible assumption
    | with_reducible apply State.Inv.wr

theorem State.wrIgnored_inv {s : State} (hs : s.Inv) (u : RegUnit) (i : Nat) (off : Nat) : (State.wrIgnored s u i off).Inv := by
  unfold State.wrIgnored
  repeat' first
    | with_reducible assumption
    | with_reducible apply State.Inv.wr
    | with_reducible apply State.raise_inv
    | with_reducible apply State.wrBit_inv
    | split

theorem State.ticks_inv {s : State} (hs : s.Inv) (n : Nat) : (s.ticks n).Inv := hs.withCell (Nat.mod_lt _ (by decide))

theorem State.advanceCell_inv {s : State} (hs : s.Inv) (t : Nat) : (State.advanceCell s t).Inv := by
  unfold State.advanceCell
  repeat' first
    | with_reducible assumption
    | with_reducible apply State.Inv.ite
    | with_reducible apply State.ticks_inv

theorem State.put_inv {s : State} (hs : s.Inv) (f : Fld) (b : Bool) (i : optParam Nat 0) (j : optParam Nat 0) : (State.put s f b i j).Inv := by
  unfold State.put
  repeat' first
    | with_reducible assumption
    | with_reducible apply State.Inv.wr

theorem State.drawn_inv {s : State} (hs : s.Inv) : (State.drawn s).Inv := by
  unfold State.drawn
  repeat' first
    | with_reducible assumption
    | (unfold State.Inv; dsimp only; apply State.Inv.parts)

theorem State.setCore_inv {s : State} (hs : s.Inv) (c : Nat) (v : Core) : (State.setCore s c v).Inv := by
  unfold State.setCore
  repeat' first
    | with_reducible assumption
    | (unfold State.Inv; dsimp only; apply State.Inv.parts)

theorem State.syncRing_inv {s : State} (hs : s.Inv) (r : Nat) : (State.syncRing s r).Inv := by
  unfold State.syncRing
  repeat' first
    | with_reducible assumption
    | with_reducible apply State.Inv.wr

theorem State.complete_inv {s : State} (hs : s.Inv) (id : Nat) (status : Nat) (notes : optParam Nat 0) (res : optParam (List Byte) []) (ind : optParam Bool false) : (State.complete s id status notes res ind).Inv := by
  unfold State.complete
  repeat' first
    | with_reducible assumption
    | with_reducible apply State.syncRing_inv
    | split
    | (unfold State.Inv; dsimp only; apply State.Inv.parts)

theorem State.setMailbox_inv {s : State} (hs : s.Inv) (m : Nat) (b : Mailbox) : (State.setMailbox s m b).Inv := by
  unfold State.setMailbox
  repeat' first
    | with_reducible assumption
    | (unfold State.Inv; dsimp only; apply State.Inv.parts)

theorem State.post_inv {s : State} (hs : s.Inv) (m : Nat) (d : List Word) : (State.post s m d).Inv := by
  unfold State.post
  repeat' first
    | with_reducible assumption
    | with_reducible apply State.setMailbox_inv

theorem State.startDesc_inv {s : State} (hs : s.Inv) (d : Desc) : (State.startDesc s d).Inv := by
  unfold State.startDesc
  repeat' first
    | with_reducible assumption
    | with_reducible apply State.syncRing_inv
    | (unfold State.Inv; dsimp only; apply State.Inv.parts)

theorem State.runDesc_inv {s : State} (hs : s.Inv) (r : Nat) (opcode : Nat) (f : State → Desc → State)
    (hf : ∀ (t : State) d, t.Inv → (f t d).Inv) : (State.runDesc s r opcode f).Inv := by
  unfold State.runDesc
  split
  · exact hf _ _ (State.startDesc_inv hs _)
  · exact hs

theorem State.fail_inv {s : State} (hs : s.Inv) (id : Nat) (status : Nat) (off : optParam Nat 65535) (check : optParam Nat 0) (idx : optParam Nat 0) : (State.fail s id status off check idx).Inv := by
  unfold State.fail
  repeat' first
    | with_reducible assumption
    | with_reducible apply State.complete_inv

theorem State.setSram_inv {s : State} (hs : s.Inv) (n : Nat) (m : List Host.Cell) : (State.setSram s n m).Inv := by
  unfold State.setSram
  repeat' first
    | with_reducible assumption
    | (unfold State.Inv; dsimp only; apply State.Inv.parts)

theorem State.releaseLock_inv {s : State} (hs : s.Inv) (cause : Nat) : (State.releaseLock s cause).Inv := by
  unfold State.releaseLock
  repeat' first
    | with_reducible assumption
    | with_reducible apply State.Inv.ite
    | with_reducible apply State.raise_inv
    | with_reducible apply State.Inv.wr

theorem State.overtake_inv {s : State} (hs : s.Inv) : (State.overtake s).Inv := by
  unfold State.overtake
  repeat' first
    | with_reducible assumption
    | with_reducible apply State.Inv.wr
    | split
    | (unfold State.Inv; dsimp only; apply State.Inv.parts)

theorem State.setMode_inv {s : State} (hs : s.Inv) (m : Nat) (cause : Nat) : (State.setMode s m cause).Inv := by
  unfold State.setMode
  repeat' first
    | with_reducible assumption
    | with_reducible apply State.Inv.ite
    | with_reducible apply State.releaseLock_inv
    | with_reducible apply State.overtake_inv
    | with_reducible apply State.Inv.wr
    | with_reducible apply State.fireOther_inv
    | (with_reducible apply State.Inv.foldl; intro _ _ _)

theorem State.advanceTo_inv {s : State} (hs : s.Inv) (t : Nat) : (State.advanceTo s t).Inv := by
  unfold State.advanceTo
  repeat' first
    | with_reducible assumption
    | with_reducible apply State.ticks_inv

theorem State.pvDropped_inv {s : State} (hs : s.Inv) (m : Master) (bar4 : Bool) (write : Bool) (off : Nat) : (State.pvDropped s m bar4 write off).Inv := by
  unfold State.pvDropped
  repeat' first
    | with_reducible assumption
    | with_reducible apply State.Inv.ite
    | with_reducible apply State.bump_inv
    | with_reducible apply State.Inv.wr
    | with_reducible apply State.put_inv
    | with_reducible apply State.raise_inv

theorem State.wrS_inv {s : State} (hs : s.Inv) (f : Fld) (v : Int) (i : optParam Nat 0) (j : optParam Nat 0) : (State.wrS s f v i j).Inv := by
  unfold State.wrS
  repeat' first
    | with_reducible assumption
    | with_reducible apply State.Inv.wr

theorem State.wr64_inv {s : State} (hs : s.Inv) (lo : Fld) (hi : Fld) (v : Nat) (i : optParam Nat 0) : (State.wr64 s lo hi v i).Inv := by
  unfold State.wr64
  repeat' first
    | with_reducible assumption
    | with_reducible apply State.Inv.wr

theorem State.badAccess_inv {s : State} (hs : s.Inv) (bar4 : Bool) (write : Bool) (off : Nat) : (State.badAccess s bar4 write off).Inv := by
  unfold State.badAccess
  repeat' first
    | with_reducible assumption
    | with_reducible apply State.raise_inv
    | with_reducible apply State.bump_inv

theorem State.setSq_inv {s : State} (hs : s.Inv) (r : Nat) (v : Sq) : (State.setSq s r v).Inv := by
  unfold State.setSq
  repeat' first
    | with_reducible assumption
    | (unfold State.Inv; dsimp only; apply State.Inv.parts)

theorem State.setCq_inv {s : State} (hs : s.Inv) (q : Nat) (v : Cq) : (State.setCq s q v).Inv := by
  unfold State.setCq
  repeat' first
    | with_reducible assumption
    | (unfold State.Inv; dsimp only; apply State.Inv.parts)

theorem State.withBody_inv {s : State} (hs : s.Inv) (d : Desc) (io : HostIo) (f : State → List Byte → State)
    (hf : ∀ (t : State) b, t.Inv → (f t b).Inv) : (State.withBody s d io f).Inv := by
  unfold State.withBody
  split
  · exact State.fail_inv hs _ _ _ _ _
  · exact hf _ _ hs

theorem State.hostResult_inv {s : State} (hs : s.Inv) (d : Desc) (io : HostIo) (addr : Nat) (bytes : List Byte) (notes status : Nat) :
    (s.hostResult d io addr bytes notes status).Inv := by
  unfold State.hostResult
  refine State.Inv.ite (State.fail_inv hs _ _ _ _ _) (State.complete_inv ?_ _ _ _ _ _)
  exact hs.withHost (Memory.wf_writeBytes _ _ hs.wf_host)

end Sys2Proof.Machine
end

