-- ==== Sys2Proof/Laws/Inv/Adc.lean ====
section
/-! SUPPORT. The invariant `State.Inv` is kept by every function of Machine/Adc.lean. -/

namespace Sys2Proof.Machine

theorem State.setAdcSeq_inv {s : State} (hs : s.Inv) (q : Nat) (v : AdcSeq) : (State.setAdcSeq s q v).Inv := by
  unfold State.setAdcSeq
  repeat' first
    | with_reducible assumption
    | (unfold State.Inv; dsimp only; apply State.Inv.parts)

theorem State.adcWake_inv {s : State} (hs : s.Inv) (q : Nat) : (State.adcWake s q).Inv := by
  unfold State.adcWake
  repeat' first
    | with_reducible assumption
    | with_reducible apply State.Inv.wr
    | with_reducible apply State.setAdcSeq_inv

theorem State.adcRun_inv {s : State} (hs : s.Inv) (q : Nat) (first : Nat) (ext : Bool) : (State.adcRun s q first ext).Inv := by
  unfold State.adcRun
  repeat' first
    | with_reducible assumption
    | with_reducible apply State.setAdcSeq_inv
    | with_reducible apply State.Inv.wr

theorem State.adcTrigger_inv {s : State} (hs : s.Inv) (q : Nat) (first : Nat) (ext : Bool) : (State.adcTrigger s q first ext).Inv := by
  unfold State.adcTrigger
  repeat' first
    | with_reducible assumption
    | with_reducible apply State.Inv.ite
    | with_reducible apply State.bump_inv
    | with_reducible apply State.adcRun_inv

theorem State.adcMatch_inv {s : State} (hs : s.Inv) (q : Nat) : (State.adcMatch s q).Inv := by
  unfold State.adcMatch
  repeat' first
    | with_reducible assumption
    | with_reducible apply State.Inv.ite
    | with_reducible apply State.adcTrigger_inv
    | with_reducible apply State.adcWake_inv

theorem execAdcSoftwareTrigger_inv (q : Fin 2) {s : State} (hs : s.Inv) : SoundOut (execAdcSoftwareTrigger q s) := by
  unfold execAdcSoftwareTrigger
  repeat' first
    | with_reducible assumption
    | with_reducible apply SoundOut.next
    | with_reducible apply SoundOut.ite
    | with_reducible apply State.wrIgnored_inv
    | with_reducible apply State.bump_inv
    | with_reducible apply State.adcTrigger_inv
    | with_reducible apply State.adcWake_inv

theorem State.adcEvent_inv {s : State} (hs : s.Inv) (q : Nat) (t : Nat) : (State.adcEvent s q t).Inv := by
  unfold State.adcEvent
  repeat' first
    | with_reducible assumption
    | with_reducible apply State.Inv.ite
    | with_reducible apply State.adcTrigger_inv
    | with_reducible apply State.adcWake_inv

theorem State.adcEdge_inv {s : State} (hs : s.Inv) (q : Nat) (tin : Nat) (rising : Bool) : (State.adcEdge s q tin rising).Inv := by
  unfold State.adcEdge
  repeat' first
    | with_reducible assumption
    | with_reducible apply State.Inv.ite
    | with_reducible apply State.setAdcSeq_inv
    | with_reducible apply State.adcEvent_inv
    | split

theorem execAdcTriggerInputEvent_inv (tin : Fin 4) (rising : Bool) {s : State} (hs : s.Inv) : SoundOut (execAdcTriggerInputEvent tin rising s) := by
  unfold execAdcTriggerInputEvent
  repeat' first
    | with_reducible assumption
    | with_reducible apply SoundOut.next
    | with_reducible apply State.adcEdge_inv

theorem execAdcSample_inv (q : Fin 2) (code : BitVec 16) {s : State} (hs : s.Inv) : SoundOut (execAdcSample q code s) := by
  unfold execAdcSample
  repeat' first
    | with_reducible assumption
    | with_reducible apply SoundOut.next
    | with_reducible apply State.advanceCell_inv
    | with_reducible apply State.setAdcSeq_inv
    | split
    | dsimp only

theorem State.adcReport_inv {s : State} (hs : s.Inv) (r : AdcSampleRec) (ow : Bool) (lim : Bool) : (State.adcReport s r ow lim).Inv := by
  unfold State.adcReport
  repeat' first
    | with_reducible assumption
    | with_reducible apply State.raise_inv
    | split
    | (unfold State.Inv; dsimp only; apply State.Inv.parts)

theorem State.adcEnqueue_inv {s : State} (hs : s.Inv) (bytes : Bool → List Byte) : (State.adcEnqueue s bytes).Inv := by
  unfold State.adcEnqueue
  repeat' first
    | with_reducible assumption
    | with_reducible apply State.bump_inv
    | with_reducible apply State.raise_inv
    | with_reducible apply State.Inv.wr
    | split
    | (unfold State.Inv; dsimp only; apply State.Inv.parts)

theorem State.adcRunEnd_inv {s : State} (hs : s.Inv) (q : Nat) : (State.adcRunEnd s q).Inv := by
  unfold State.adcRunEnd
  repeat' first
    | with_reducible assumption
    | with_reducible apply State.Inv.ite
    | with_reducible apply State.setAdcSeq_inv
    | with_reducible apply State.Inv.wr

theorem execAdcResult_inv (q : Fin 2) {s : State} (hs : s.Inv) : SoundOut (execAdcResult q s) := by
  unfold execAdcResult
  repeat' first
    | with_reducible assumption
    | with_reducible apply SoundOut.next
    | with_reducible apply State.setAdcSeq_inv
    | with_reducible apply State.Inv.wr
    | with_reducible apply State.put_inv
    | with_reducible apply State.adcReport_inv
    | with_reducible apply State.adcEnqueue_inv
    | with_reducible apply State.adcRunEnd_inv
    | split
    | dsimp only

theorem execAdcQueuePop_inv (m : Master) {s : State} (hs : s.Inv) : SoundOut (execAdcQueuePop m s) := by
  unfold execAdcQueuePop
  repeat' first
    | with_reducible assumption
    | with_reducible apply SoundOut.next
    | with_reducible apply State.drawn_inv
    | with_reducible apply State.Inv.wr
    | split
    | (unfold State.Inv; dsimp only; apply State.Inv.parts)

theorem execAdcLastRead_inv (m : Master) (n : Fin 24) {s : State} (hs : s.Inv) : SoundOut (execAdcLastRead m n s) := by
  unfold execAdcLastRead
  repeat' first
    | with_reducible assumption
    | with_reducible apply SoundOut.next
    | (unfold State.Inv; dsimp only; apply State.Inv.parts)

theorem execAdcSeqDisable_inv (q : Fin 2) {s : State} (hs : s.Inv) : SoundOut (execAdcSeqDisable q s) := by
  unfold execAdcSeqDisable
  repeat' first
    | with_reducible assumption
    | with_reducible apply SoundOut.next
    | with_reducible apply State.Inv.ite
    | with_reducible apply State.Inv.wr

theorem State.adcEnable_inv {s : State} (hs : s.Inv) (q : Nat) : (State.adcEnable s q).Inv := by
  unfold State.adcEnable
  repeat' first
    | with_reducible assumption
    | with_reducible apply State.setAdcSeq_inv
    | with_reducible apply State.Inv.wr

end Sys2Proof.Machine
end

