-- ==== Sys2Proof/Laws/Inv/Hive.lean ====
section
/-! SUPPORT. The invariant `State.Inv` is kept by every function of Machine/Hive.lean. -/

namespace Sys2Proof.Machine

theorem State.syncHive_inv {s : State} (hs : s.Inv) : (State.syncHive s).Inv := by
  unfold State.syncHive
  repeat' first
    | with_reducible assumption
    | with_reducible apply State.put_inv
    | with_reducible apply State.Inv.wr

theorem State.traceLand_inv {s : State} (hs : s.Inv) (r : List Byte) : (s.traceLand r).Inv := by
  have hd : ∀ a, State.Inv { s with ddr := writeBytes s.ddr a r } := fun a => hs.withDdr (Memory.wf_writeBytes r a hs.wf_ddr)
  unfold State.traceLand
  dsimp only
  split
  · exact (hd _).wr _ _ _ _
  · split
    · split
      · exact State.raise_inv (((hd _).wr _ _ _ _).wr _ _ _ _) _ _ _ _
      · exact ((hd _).wr _ _ _ _).wr _ _ _ _
    · exact State.raise_inv (((hd _).wr _ _ _ _).wr _ _ _ _) _ _ _ _

theorem State.traceDrain_inv {s : State} (hs : s.Inv) : s.traceDrain.Inv := by
  unfold State.traceDrain
  split
  · exact State.Inv.foldl (fun t r h => State.traceLand_inv h r) (hs.withTrace (l := []) (by simp))
  · exact hs

theorem State.trace_inv {s : State} (hs : s.Inv) (kind prio ctx who source extra : Nat) :
    (s.trace kind prio ctx who source extra).Inv := by
  unfold State.trace
  split
  · exact hs
  · split
    · exact hs
    · split
      · exact State.bump_inv hs _ _ _ _
      · rename_i hl
        exact State.traceDrain_inv (hs.withTrace (by simpa using hl))

theorem State.spillOne_inv {s : State} (hs : s.Inv) (ring : Bool) : (State.spillOne s ring).Inv := by
  unfold State.spillOne
  repeat' first
    | with_reducible assumption
    | with_reducible apply State.syncHive_inv
    | with_reducible apply State.trace_inv
    | with_reducible apply State.raise_inv
    | split
    | (unfold State.Inv; dsimp only; apply State.Inv.parts)

theorem State.queueItem_inv {s : State} (hs : s.Inv) (it : Item) : (State.queueItem s it).Inv := by
  unfold State.queueItem
  repeat' first
    | with_reducible assumption
    | with_reducible apply State.syncHive_inv
    | with_reducible apply State.spillOne_inv
    | with_reducible apply State.trace_inv
    | (unfold State.Inv; dsimp only; apply State.Inv.parts)

theorem State.showStops_inv {s : State} (hs : s.Inv) : (State.showStops s).Inv := by
  unfold State.showStops
  repeat' first
    | with_reducible assumption
    | with_reducible apply State.Inv.ite
    | with_reducible apply State.put_inv
    | (with_reducible apply State.Inv.foldl; intro _ _ _)

theorem State.pressureOn_inv {s : State} (hs : s.Inv) : (State.pressureOn s).Inv := by
  unfold State.pressureOn
  repeat' first
    | with_reducible assumption
    | with_reducible apply State.Inv.ite
    | with_reducible apply State.trace_inv
    | with_reducible apply State.raise_inv
    | with_reducible apply State.showStops_inv
    | with_reducible apply State.Inv.wr

theorem State.newItem_inv {s : State} (hs : s.Inv) (ctx : Nat) (prio : Nat) (source : Nat) (arg : Nat) (line : optParam (Option Nat) none) (planner : optParam Bool false) : (State.newItem s ctx prio source arg line planner).Inv := by
  unfold State.newItem
  repeat' first
    | with_reducible assumption
    | with_reducible apply State.queueItem_inv

theorem State.unstall_inv {s : State} (hs : s.Inv) : (State.unstall s).Inv := by
  unfold State.unstall
  repeat' first
    | with_reducible assumption
    | with_reducible apply State.Inv.wr
    | with_reducible apply State.setCore_inv
    | with_reducible apply State.queueItem_inv
    | (with_reducible apply State.Inv.foldl; intro _ _ _)
    | split

theorem State.pressureOff_inv {s : State} (hs : s.Inv) : (State.pressureOff s).Inv := by
  unfold State.pressureOff
  repeat' first
    | with_reducible assumption
    | with_reducible apply State.Inv.ite
    | with_reducible apply State.trace_inv
    | with_reducible apply State.showStops_inv
    | with_reducible apply State.Inv.wr

theorem State.refill_inv {s : State} (hs : s.Inv) (it : Item) : (State.refill s it).Inv := by
  unfold State.refill
  repeat' first
    | with_reducible assumption
    | with_reducible apply State.trace_inv
    | with_reducible apply State.syncHive_inv
    | (unfold State.Inv; dsimp only; apply State.Inv.parts)

theorem State.returnHeads_inv {s : State} (hs : s.Inv) : (State.returnHeads s).Inv := by
  unfold State.returnHeads
  repeat' first
    | with_reducible assumption
    | with_reducible apply State.Inv.ite
    | with_reducible apply State.refill_inv
    | (with_reducible apply State.Inv.foldl; intro _ _ _)

theorem State.hiveSettle_inv {s : State} (hs : s.Inv) : (State.hiveSettle s).Inv := by
  unfold State.hiveSettle
  repeat' first
    | with_reducible assumption
    | with_reducible apply State.returnHeads_inv
    | with_reducible apply State.unstall_inv
    | with_reducible apply State.pressureOff_inv
    | with_reducible apply State.syncHive_inv

theorem State.dropOrphans_inv {s : State} (hs : s.Inv) : (State.dropOrphans s).Inv := by
  unfold State.dropOrphans
  repeat' first
    | with_reducible assumption
    | with_reducible apply State.hiveSettle_inv
    | with_reducible apply State.bump_inv
    | split
    | (unfold State.Inv; dsimp only; apply State.Inv.parts)

theorem State.dispatchTo_inv {s : State} (hs : s.Inv) (it : Item) (c : Nat) : (State.dispatchTo s it c).Inv := by
  unfold State.dispatchTo
  repeat' first
    | with_reducible assumption
    | with_reducible apply State.setCore_inv
    | with_reducible apply State.Inv.wr
    | with_reducible apply State.hiveSettle_inv
    | with_reducible apply State.trace_inv
    | (unfold State.Inv; dsimp only; apply State.Inv.parts)

theorem State.dispatch_inv {s : State} (hs : s.Inv) : (State.dispatch s).Inv := by
  unfold State.dispatch
  repeat' first
    | with_reducible assumption
    | with_reducible apply State.refill_inv
    | with_reducible apply State.dropOrphans_inv
    | with_reducible apply State.dispatchTo_inv
    | split
    | (unfold State.Inv; dsimp only; apply State.Inv.parts)

theorem execHiveDispatch_inv {s : State} (hs : s.Inv) : SoundOut (execHiveDispatch s) := by
  unfold execHiveDispatch
  repeat' first
    | with_reducible assumption
    | with_reducible apply SoundOut.next
    | with_reducible apply State.dispatch_inv

theorem execAffinityWaitExpiry_inv (seq : Word) {s : State} (hs : s.Inv) : SoundOut (execAffinityWaitExpiry seq s) := by
  unfold execAffinityWaitExpiry
  repeat' first
    | with_reducible assumption
    | with_reducible apply SoundOut.next
    | with_reducible apply State.advanceTo_inv
    | with_reducible apply State.trace_inv
    | with_reducible apply State.dispatch_inv
    | split
    | (unfold State.Inv; dsimp only; apply State.Inv.parts)

theorem execRunLimitExpiry_inv (c : Fin 32) {s : State} (hs : s.Inv) : SoundOut (execRunLimitExpiry c s) := by
  unfold execRunLimitExpiry
  repeat' first
    | with_reducible assumption
    | with_reducible apply SoundOut.next
    | with_reducible apply State.advanceTo_inv
    | with_reducible apply State.setCore_inv
    | with_reducible apply State.trace_inv
    | with_reducible apply State.raise_inv
    | split
    | dsimp only

theorem State.dropStall_inv {s : State} (hs : s.Inv) (c : Nat) : (State.dropStall s c).Inv := by
  unfold State.dropStall
  repeat' first
    | with_reducible assumption
    | with_reducible apply State.setCore_inv
    | with_reducible apply State.Inv.wr
    | with_reducible apply State.Inv.ite
    | split
    | (unfold State.Inv; dsimp only; apply State.Inv.parts)

theorem State.resetCore_inv {s : State} (hs : s.Inv) (c : Nat) : (State.resetCore s c).Inv := by
  unfold State.resetCore
  repeat' first
    | with_reducible assumption
    | with_reducible apply State.dropStall_inv
    | with_reducible apply State.setCore_inv
    | with_reducible apply State.Inv.wr
    | split
    | (unfold State.Inv; dsimp only; apply State.Inv.parts)

theorem execCoreReset_inv (c : Fin 32) {s : State} (hs : s.Inv) : SoundOut (execCoreReset c s) := by
  unfold execCoreReset
  repeat' first
    | with_reducible assumption
    | with_reducible apply SoundOut.next
    | with_reducible apply State.resetCore_inv
    | with_reducible apply State.advanceTo_inv
    | split

theorem execCoreRejoin_inv (c : Fin 32) {s : State} (hs : s.Inv) : SoundOut (execCoreRejoin c s) := by
  unfold execCoreRejoin
  repeat' first
    | with_reducible assumption
    | with_reducible apply SoundOut.next
    | with_reducible apply State.Inv.ite
    | with_reducible apply State.setCore_inv

theorem State.endNothing_inv {s : State} (hs : s.Inv) (c : Nat) (how : Nat) : (State.endNothing s c how).Inv := by
  unfold State.endNothing
  repeat' first
    | with_reducible assumption
    | with_reducible apply State.setCore_inv

theorem State.endItem_inv {s : State} (hs : s.Inv) (c : Nat) (it : Item) (how : Nat) (kind : Nat) : (State.endItem s c it how kind).Inv := by
  unfold State.endItem
  repeat' first
    | with_reducible assumption
    | with_reducible apply State.Inv.ite
    | with_reducible apply State.setCore_inv
    | with_reducible apply State.trace_inv
    | with_reducible apply State.Inv.wr

theorem State.armTimer_inv {s : State} (hs : s.Inv) (list : Nat) (ctx : Nat) (arg : Nat) (wake : Nat) (line : Option Nat) : (State.armTimer s list ctx arg wake line).1.Inv := by
  unfold State.armTimer
  repeat' first
    | with_reducible assumption
    | with_reducible apply State.raise_inv
    | with_reducible apply State.syncHive_inv
    | split
    | (unfold State.Inv; dsimp only; apply State.Inv.parts)

theorem State.armPeriodic_inv {s : State} (hs : s.Inv) (ctx : Nat) : (State.armPeriodic s ctx).Inv := by
  unfold State.armPeriodic
  repeat' first
    | with_reducible assumption
    | with_reducible apply State.Inv.ite
    | with_reducible apply State.raise_inv
    | with_reducible apply State.bump_inv
    | with_reducible apply State.wr64_inv
    | with_reducible apply State.drawn_inv
    | with_reducible apply State.armTimer_inv

theorem execFgrEndDone_inv (c : Fin 32) {s : State} (hs : s.Inv) : SoundOut (execFgrEndDone c s) := by
  unfold execFgrEndDone
  repeat' first
    | with_reducible assumption
    | with_reducible apply SoundOut.next
    | with_reducible apply State.endNothing_inv
    | with_reducible apply State.endItem_inv
    | with_reducible apply State.armPeriodic_inv
    | split

theorem execFgrEndYield_inv (c : Fin 32) {s : State} (hs : s.Inv) : SoundOut (execFgrEndYield c s) := by
  unfold execFgrEndYield
  repeat' first
    | with_reducible assumption
    | with_reducible apply SoundOut.next
    | with_reducible apply State.endNothing_inv
    | with_reducible apply State.endItem_inv
    | with_reducible apply State.queueItem_inv
    | split

theorem execFgrEndSleep_inv (c : Fin 32) (wake : DWord) {s : State} (hs : s.Inv) : SoundOut (execFgrEndSleep c wake s) := by
  unfold execFgrEndSleep
  repeat' first
    | with_reducible assumption
    | with_reducible apply SoundOut.next
    | with_reducible apply State.setCore_inv
    | with_reducible apply State.endNothing_inv
    | with_reducible apply State.endItem_inv
    | (refine State.Inv.of_fst (by assumption) ?_; with_reducible apply State.armTimer_inv)
    | with_reducible apply State.wr64_inv
    | with_reducible apply State.Inv.wr
    | with_reducible apply State.drawn_inv
    | split
    | dsimp only

theorem execFgrSubmit_inv (c : Fin 32) (ctx : Fin 1024) (prio : Fin 8) (arg : Word) {s : State} (hs : s.Inv) : SoundOut (execFgrSubmit c ctx prio arg s) := by
  unfold execFgrSubmit
  repeat' first
    | with_reducible assumption
    | with_reducible apply SoundOut.next
    | with_reducible apply SoundOut.ite
    | with_reducible apply State.setCore_inv
    | with_reducible apply State.pressureOn_inv
    | with_reducible apply State.newItem_inv

theorem State.coreArms_inv {s : State} (hs : s.Inv) (c : Nat) (list : Nat) (ctx : Nat) (arg : Nat) (wake : Nat) : (State.coreArms s c list ctx arg wake).Inv := by
  unfold State.coreArms
  repeat' first
    | with_reducible assumption
    | with_reducible apply State.armTimer_inv
    | with_reducible apply State.setCore_inv

theorem execTimerArmTimeout_inv (c : Fin 32) (ctx : Fin 1024) (arg : DWord) (wake : DWord) {s : State} (hs : s.Inv) : SoundOut (execTimerArmTimeout c ctx arg wake s) := by
  unfold execTimerArmTimeout
  repeat' first
    | with_reducible assumption
    | with_reducible apply SoundOut.next
    | with_reducible apply State.coreArms_inv

theorem execTimerArmGeneral_inv (c : Fin 32) (ctx : Fin 1024) (arg : DWord) (wake : DWord) {s : State} (hs : s.Inv) : SoundOut (execTimerArmGeneral c ctx arg wake s) := by
  unfold execTimerArmGeneral
  repeat' first
    | with_reducible assumption
    | with_reducible apply SoundOut.next
    | with_reducible apply State.coreArms_inv

theorem execTimerCancel_inv (c : Fin 32) (handle : BitVec 16) {s : State} (hs : s.Inv) : SoundOut (execTimerCancel c handle s) := by
  unfold execTimerCancel
  repeat' first
    | with_reducible assumption
    | with_reducible apply SoundOut.next
    | with_reducible apply State.setCore_inv
    | with_reducible apply State.syncHive_inv
    | with_reducible apply State.trace_inv
    | split
    | (unfold State.Inv; dsimp only; apply State.Inv.parts)

theorem execContextSetFree_inv (c : Fin 32) (ctx : Fin 1024) {s : State} (hs : s.Inv) : SoundOut (execContextSetFree c ctx s) := by
  unfold execContextSetFree
  repeat' first
    | with_reducible assumption
    | with_reducible apply SoundOut.next
    | with_reducible apply State.setCore_inv
    | with_reducible apply State.syncHive_inv
    | with_reducible apply State.Inv.wr
    | (unfold State.Inv; dsimp only; apply State.Inv.parts)

theorem State.armFirst_inv {s : State} (hs : s.Inv) (c : Nat) : (State.armFirst s c).Inv := by
  unfold State.armFirst
  repeat' first
    | with_reducible assumption
    | with_reducible apply State.Inv.ite
    | with_reducible apply State.armTimer_inv
    | with_reducible apply State.Inv.wr
    | with_reducible apply State.drawn_inv
    | split
    | (unfold State.Inv; dsimp only; apply State.Inv.parts)

theorem execContextSetActive_inv (c : Fin 32) (ctx : Fin 1024) {s : State} (hs : s.Inv) : SoundOut (execContextSetActive c ctx s) := by
  unfold execContextSetActive
  repeat' first
    | with_reducible assumption
    | with_reducible apply State.armFirst_inv
    | with_reducible apply SoundOut.next
    | with_reducible apply State.setCore_inv
    | with_reducible apply State.Inv.wr

theorem State.releaseTimer_inv {s : State} (hs : s.Inv) (t : Timer) : (State.releaseTimer s t).Inv := by
  unfold State.releaseTimer
  repeat' first
    | with_reducible assumption
    | with_reducible apply State.syncHive_inv
    | with_reducible apply State.Inv.wr
    | with_reducible apply State.trace_inv
    | with_reducible apply State.newItem_inv
    | split
    | (unfold State.Inv; dsimp only; apply State.Inv.parts)

theorem State.releaseDue_inv {s : State} (hs : s.Inv) : (State.releaseDue s).Inv := by
  unfold State.releaseDue
  repeat' first
    | with_reducible assumption
    | with_reducible apply State.Inv.ite
    | with_reducible apply State.releaseTimer_inv
    | with_reducible apply State.pressureOn_inv
    | (with_reducible apply State.Inv.foldl; intro _ _ _)

theorem execHiveTick_inv {s : State} (hs : s.Inv) : SoundOut (execHiveTick s) := by
  unfold execHiveTick
  repeat' first
    | with_reducible assumption
    | with_reducible apply SoundOut.next
    | with_reducible apply State.Inv.ite
    | with_reducible apply SoundOut.ite
    | with_reducible apply State.advanceCell_inv
    | with_reducible apply State.releaseDue_inv

theorem execSpillRefill_inv (ring : Bool) {s : State} (hs : s.Inv) : SoundOut (execSpillRefill ring s) := by
  unfold execSpillRefill
  repeat' first
    | with_reducible assumption
    | with_reducible apply State.refill_inv
    | with_reducible apply SoundOut.next
    | with_reducible apply State.hiveSettle_inv
    | (with_reducible apply State.Inv.foldl; intro _ _ _)
    | split

theorem execBackpressureTimeout_inv (c : Fin 32) {s : State} (hs : s.Inv) : SoundOut (execBackpressureTimeout c s) := by
  unfold execBackpressureTimeout
  repeat' first
    | with_reducible assumption
    | with_reducible apply State.dropStall_inv
    | with_reducible apply SoundOut.next
    | with_reducible apply State.advanceTo_inv
    | with_reducible apply State.Inv.wr
    | with_reducible apply State.setCore_inv
    | split
    | dsimp only

end Sys2Proof.Machine
end

