-- ==== Sys2Proof/Laws/Inv/Anvil.lean ====
section
/-! SUPPORT. The invariant `State.Inv` is kept by every function of Machine/Anvil.lean. -/

namespace Sys2Proof.Machine

theorem State.setJob_inv {s : State} (hs : s.Inv) (slot : Nat) (j : Option Job) : (State.setJob s slot j).Inv := by
  unfold State.setJob
  repeat' first
    | with_reducible assumption
    | (unfold State.Inv; dsimp only; apply State.Inv.parts)

theorem State.setSolve_inv {s : State} (hs : s.Inv) (n : Nat) (v : Option Solve) : (State.setSolve s n v).Inv := by
  unfold State.setSolve
  repeat' first
    | with_reducible assumption
    | (unfold State.Inv; dsimp only; apply State.Inv.parts)

theorem State.setWarm_inv {s : State} (hs : s.Inv) (w : Nat) (v : WarmSlot) : (State.setWarm s w v).Inv := by
  unfold State.setWarm
  repeat' first
    | with_reducible assumption
    | (unfold State.Inv; dsimp only; apply State.Inv.parts)

theorem State.syncAnvil_inv {s : State} (hs : s.Inv) : (State.syncAnvil s).Inv := by
  unfold State.syncAnvil
  repeat' first
    | with_reducible assumption
    | with_reducible apply State.wrBit_inv
    | with_reducible apply State.put_inv
    | with_reducible apply State.Inv.wr
    | (with_reducible apply State.Inv.foldl; intro _ _ _)

theorem State.showSolve_inv {s : State} (hs : s.Inv) (n : Nat) (phase : Nat) : (State.showSolve s n phase).Inv := by
  unfold State.showSolve
  repeat' first
    | with_reducible assumption
    | with_reducible apply State.Inv.wr
    | split

theorem State.enqueuePlanner_inv {s : State} (hs : s.Inv) (slot : Nat) (line : Option Nat) : (State.enqueuePlanner s slot line).Inv := by
  unfold State.enqueuePlanner
  repeat' first
    | with_reducible assumption
    | with_reducible apply State.setJob_inv
    | with_reducible apply State.syncAnvil_inv
    | with_reducible apply State.queueItem_inv

theorem execAnvilSubmit_inv (m : Master) (slot : BitVec 11) {s : State} (hs : s.Inv) : SoundOut (execAnvilSubmit m slot s) := by
  unfold execAnvilSubmit
  repeat' first
    | with_reducible assumption
    | with_reducible apply SoundOut.next
    | with_reducible apply State.bump_inv
    | with_reducible apply State.Inv.wr
    | with_reducible apply State.pressureOn_inv
    | with_reducible apply State.setJob_inv
    | with_reducible apply State.setCore_inv
    | with_reducible apply State.enqueuePlanner_inv
    | split
    | dsimp only

theorem State.releaseEngine_inv {s : State} (hs : s.Inv) (n : Nat) : (State.releaseEngine s n).Inv := by
  unfold State.releaseEngine
  repeat' first
    | with_reducible assumption
    | with_reducible apply State.setJob_inv
    | with_reducible apply State.setSolve_inv
    | with_reducible apply State.trace_inv
    | with_reducible apply State.syncAnvil_inv
    | with_reducible apply State.showSolve_inv
    | with_reducible apply State.bump_inv
    | split

theorem State.plannerDone_inv {s : State} (hs : s.Inv) (j : Job) (slot : Nat) (status : Nat) (byte1 : Nat) : (State.plannerDone s j slot status byte1).Inv := by
  unfold State.plannerDone
  repeat' first
    | with_reducible assumption
    | with_reducible apply State.Inv.ite
    | with_reducible apply State.newItem_inv
    | with_reducible apply State.enqueuePlanner_inv

theorem State.recordEnd_inv {s : State} (hs : s.Inv) (n : Nat) (v : Solve) (e : JobEnd) : (State.recordEnd s n v e).Inv := by
  unfold State.recordEnd
  repeat' first
    | with_reducible assumption
    | with_reducible apply State.Inv.ite
    | with_reducible apply State.showSolve_inv
    | with_reducible apply State.setSolve_inv
    | with_reducible apply State.raise_inv
    | with_reducible apply State.bump_inv

theorem State.dropJob_inv {s : State} (hs : s.Inv) (n : Nat) (st : Nat) : (State.dropJob s n st).Inv := by
  unfold State.dropJob
  repeat' first
    | with_reducible assumption
    | with_reducible apply State.releaseEngine_inv
    | with_reducible apply State.complete_inv
    | with_reducible apply State.plannerDone_inv
    | split

theorem State.postResid_inv {s : State} (hs : s.Inv) (n : Nat) (v : Solve) (c : Check) : (State.postResid s n v c).Inv := by
  unfold State.postResid
  repeat' first
    | with_reducible assumption
    | with_reducible apply State.Inv.ite
    | with_reducible apply State.post_inv

theorem State.checkIterate_inv {s : State} (hs : s.Inv) (n : Nat) (v : Solve) : (State.checkIterate s n v).Inv := by
  unfold State.checkIterate
  repeat' first
    | with_reducible assumption
    | with_reducible apply State.Inv.ite
    | with_reducible apply State.postResid_inv
    | with_reducible apply State.setSolve_inv
    | with_reducible apply State.recordEnd_inv
    | with_reducible apply State.showSolve_inv
    | split

theorem State.unqueueJob_inv {s : State} (hs : s.Inv) (slot : Nat) : (State.unqueueJob s slot).Inv := by
  unfold State.unqueueJob
  repeat' first
    | with_reducible assumption
    | with_reducible apply State.syncAnvil_inv
    | with_reducible apply State.hiveSettle_inv
    | with_reducible apply State.setJob_inv
    | (unfold State.Inv; dsimp only; apply State.Inv.parts)

theorem State.abortSlot_inv {s : State} (hs : s.Inv) (slot : Nat) : (State.abortSlot s slot).1.Inv := by
  unfold State.abortSlot
  repeat' first
    | with_reducible assumption
    | with_reducible apply State.unqueueJob_inv
    | with_reducible apply State.complete_inv
    | with_reducible apply State.plannerDone_inv
    | with_reducible apply State.dropJob_inv
    | split

theorem execAnvilAbort_inv (m : Master) (slot : BitVec 11) {s : State} (hs : s.Inv) : SoundOut (execAnvilAbort m slot s) := by
  unfold execAnvilAbort
  repeat' first
    | with_reducible assumption
    | with_reducible apply SoundOut.next
    | with_reducible apply State.bump_inv
    | with_reducible apply State.Inv.wr
    | (refine State.Inv.of_fst (by assumption) ?_; with_reducible apply State.abortSlot_inv)
    | split
    | dsimp only

theorem State.resetEngine_inv {s : State} (hs : s.Inv) (n : Nat) : (State.resetEngine s n).Inv := by
  unfold State.resetEngine
  repeat' first
    | with_reducible assumption
    | with_reducible apply State.Inv.ite
    | with_reducible apply State.Inv.wr
    | with_reducible apply State.raise_inv
    | with_reducible apply State.syncAnvil_inv
    | with_reducible apply State.dropJob_inv

theorem execAnvilReset_inv (n : Fin 8) {s : State} (hs : s.Inv) : SoundOut (execAnvilReset n s) := by
  unfold execAnvilReset
  repeat' first
    | with_reducible assumption
    | with_reducible apply SoundOut.next
    | with_reducible apply State.resetEngine_inv

theorem execAnvilFault_inv (n : Fin 8) (sram : Bool) {s : State} (hs : s.Inv) : SoundOut (execAnvilFault n sram s) := by
  unfold execAnvilFault
  repeat' first
    | with_reducible assumption
    | with_reducible apply SoundOut.next
    | with_reducible apply State.resetEngine_inv
    | with_reducible apply State.put_inv

theorem execAnvilDisable_inv (n : Fin 8) {s : State} (hs : s.Inv) : SoundOut (execAnvilDisable n s) := by
  unfold execAnvilDisable
  repeat' first
    | with_reducible assumption
    | with_reducible apply SoundOut.next
    | with_reducible apply State.syncAnvil_inv
    | with_reducible apply State.Inv.wr

theorem execSolve_inv (r : Fin 64) {s : State} (hs : s.Inv) : SoundOut (execSolve r s) := by
  unfold execSolve
  repeat' first
    | with_reducible assumption
    | with_reducible apply SoundOut.next
    | with_reducible apply State.showStops_inv
    | with_reducible apply State.runDesc_inv
    | with_reducible apply State.setJob_inv
    | with_reducible apply State.syncAnvil_inv
    | with_reducible apply State.queueItem_inv
    | split
    | (unfold State.Inv; dsimp only; apply State.Inv.parts)
    | (with_reducible intro _ _ _)

theorem execWarmClear_inv (r : Fin 64) {s : State} (hs : s.Inv) : SoundOut (execWarmClear r s) := by
  unfold execWarmClear
  repeat' first
    | with_reducible assumption
    | with_reducible apply SoundOut.next
    | with_reducible apply State.runDesc_inv
    | with_reducible apply State.complete_inv
    | with_reducible apply State.setWarm_inv
    | (with_reducible intro _ _ _)

theorem execAnvilDispatch_inv {s : State} (hs : s.Inv) : SoundOut (execAnvilDispatch s) := by
  unfold execAnvilDispatch
  repeat' first
    | with_reducible assumption
    | with_reducible apply State.refill_inv
    | with_reducible apply SoundOut.next
    | with_reducible apply SoundOut.ite
    | with_reducible apply State.showSolve_inv
    | with_reducible apply State.Inv.wr
    | with_reducible apply State.setSolve_inv
    | with_reducible apply State.hiveSettle_inv
    | with_reducible apply State.trace_inv
    | with_reducible apply State.syncAnvil_inv
    | with_reducible apply State.recordEnd_inv
    | split
    | (unfold State.Inv; dsimp only; apply State.Inv.parts)

theorem execJobLoadComplete_inv (n : Fin 8) (io : HostIo) {s : State} (hs : s.Inv) : SoundOut (execJobLoadComplete n io s) := by
  unfold execJobLoadComplete
  repeat' first
    | with_reducible assumption
    | with_reducible apply SoundOut.next
    | with_reducible apply State.releaseEngine_inv
    | with_reducible apply State.fail_inv
    | with_reducible apply State.showSolve_inv
    | with_reducible apply State.setSolve_inv
    | with_reducible apply State.recordEnd_inv
    | split
    | dsimp only

theorem execFactorisationComplete_inv (n : Fin 8) {s : State} (hs : s.Inv) : SoundOut (execFactorisationComplete n s) := by
  unfold execFactorisationComplete
  repeat' first
    | with_reducible assumption
    | with_reducible apply SoundOut.next
    | with_reducible apply SoundOut.ite
    | with_reducible apply State.drawn_inv
    | with_reducible apply State.recordEnd_inv
    | with_reducible apply State.checkIterate_inv
    | with_reducible apply State.showSolve_inv
    | split

theorem execIteration_inv (n : Fin 8) {s : State} (hs : s.Inv) : SoundOut (execIteration n s) := by
  unfold execIteration
  repeat' first
    | with_reducible assumption
    | with_reducible apply SoundOut.next
    | with_reducible apply State.showSolve_inv
    | with_reducible apply State.setSolve_inv
    | with_reducible apply State.checkIterate_inv
    | with_reducible apply State.recordEnd_inv
    | split
    | (unfold State.Inv; dsimp only; apply State.Inv.parts)
    | dsimp only

theorem execRefactorisationComplete_inv (n : Fin 8) {s : State} (hs : s.Inv) : SoundOut (execRefactorisationComplete n s) := by
  unfold execRefactorisationComplete
  repeat' first
    | with_reducible assumption
    | with_reducible apply SoundOut.next
    | with_reducible apply SoundOut.ite
    | with_reducible apply State.drawn_inv
    | with_reducible apply State.recordEnd_inv
    | with_reducible apply State.showSolve_inv
    | split

theorem execJobDeadline_inv (n : Fin 8) {s : State} (hs : s.Inv) : SoundOut (execJobDeadline n s) := by
  unfold execJobDeadline
  repeat' first
    | with_reducible assumption
    | with_reducible apply SoundOut.next
    | with_reducible apply State.recordEnd_inv
    | with_reducible apply State.advanceCell_inv
    | split

theorem State.updateWarm_inv {s : State} (hs : s.Inv) (v : Solve) (e : JobEnd) (flags : Nat) (w : Nat) : (State.updateWarm s v e flags w).Inv := by
  unfold State.updateWarm
  repeat' first
    | with_reducible assumption
    | with_reducible apply State.setWarm_inv
    | split

theorem State.commitEntry_inv {s : State} (hs : s.Inv) (it : Iterate) (e : List Byte) : (State.commitEntry s it e).Inv := by
  unfold State.commitEntry
  repeat' first
    | with_reducible assumption
    | with_reducible apply State.setSram_inv

theorem State.commit_inv {s : State} (hs : s.Inv) (j : Job) (e : JobEnd) : (State.commit s j e).Inv := by
  unfold State.commit
  repeat' first
    | with_reducible assumption
    | with_reducible apply State.commitEntry_inv
    | (with_reducible apply State.Inv.foldl; intro _ _ _)
    | split
    | (unfold State.Inv; dsimp only; apply State.Inv.parts)

theorem State.hostOutput_inv {s : State} (hs : s.Inv) (n : Nat) (v : Solve) (e : JobEnd) (j : Job) (d : Nat) (io : HostIo) :
    (s.hostOutput n v e j d io).Inv := by
  have h1 := State.releaseEngine_inv hs n
  have h2 : ∀ a b, State.Inv { s with hostMem := writeBytes s.hostMem a b } :=
    fun a b => hs.withHost (Memory.wf_writeBytes _ _ hs.wf_host)
  unfold State.hostOutput
  refine State.Inv.ite (State.fail_inv h1 _ _ _ _ _) (State.Inv.ite (State.fail_inv h1 _ _ _ _ _) ?_)
  exact State.complete_inv (State.releaseEngine_inv (State.Inv.ite (State.updateWarm_inv (h2 _ _) _ _ _ _) (h2 _ _)) _)
    _ _ _ _ _

theorem State.plannerOutput_inv {s : State} (hs : s.Inv) (n : Nat) (v : Solve) (e : JobEnd) (j : Job) :
    (s.plannerOutput n v e j).Inv := by
  have h2 : ∀ a b, State.Inv { s with ddr := writeBytes s.ddr a b } :=
    fun a b => hs.withDdr (Memory.wf_writeBytes _ _ hs.wf_ddr)
  have h3 : ∀ (t : State) a b c, t.Inv → (State.releaseEngine (State.commit (t.updateWarm v e a b) j e) c).Inv :=
    fun t a b c h => State.releaseEngine_inv (State.commit_inv (State.updateWarm_inv h _ _ _ _) _ _) _
  unfold State.plannerOutput
  exact State.plannerDone_inv (h3 _ _ _ _ (State.Inv.ite hs (h2 _ _))) _ _ _ _

theorem execJobOutput_inv (n : Fin 8) (io : HostIo) {s : State} (hs : s.Inv) : SoundOut (execJobOutput n io s) := by
  unfold execJobOutput
  repeat' first
    | with_reducible assumption
    | with_reducible apply SoundOut.next
    | with_reducible apply State.hostOutput_inv
    | with_reducible apply State.plannerOutput_inv
    | split

end Sys2Proof.Machine
end

