-- ==== Sys2Proof/Laws/Inv/Schedule.lean ====
section
/-! SUPPORT. The invariant `State.Inv` is kept by every function of Machine/Schedule.lean. -/

namespace Sys2Proof.Machine

theorem State.setSeg_inv {s : State} (hs : s.Inv) (g : Nat) (v : Seg8) : (State.setSeg s g v).Inv := by
  unfold State.setSeg
  repeat' first
    | with_reducible assumption
    | (unfold State.Inv; dsimp only; apply State.Inv.parts)

theorem State.setTxSlot_inv {s : State} (hs : s.Inv) (g : Nat) (k : Nat) (v : TxSlot) : (State.setTxSlot s g k v).Inv := by
  unfold State.setTxSlot
  repeat' first
    | with_reducible assumption
    | with_reducible apply State.setSeg_inv

theorem State.fillPlace_inv {s : State} (hs : s.Inv) (g : Nat) (i : Nat) (p : Place) (bs : List Byte) : (State.fillPlace s g i p bs).Inv := by
  unfold State.fillPlace
  repeat' first
    | with_reducible assumption
    | with_reducible apply State.setTxSlot_inv

theorem State.writeSetPoint_inv {s : State} (hs : s.Inv) (n : Nat) (idx : Nat) (v : Nat) : (State.writeSetPoint s n idx v).Inv := by
  unfold State.writeSetPoint
  repeat' first
    | with_reducible assumption
    | with_reducible apply State.Inv.ite
    | with_reducible apply State.fillPlace_inv
    | (with_reducible apply State.Inv.foldl; intro _ _ _)

end Sys2Proof.Machine
end

