-- ==== Sys2Proof/Laws/Inv/Engine.lean ====
section
/-! SUPPORT. The invariant `State.Inv` is kept by every function of Machine/Engine.lean. -/

namespace Sys2Proof.Machine

theorem State.setEng_inv {s : State} (hs : s.Inv) (n : Nat) (v : Engine) : (State.setEng s n v).Inv := by
  unfold State.setEng
  repeat' first
    | with_reducible assumption
    | (unfold State.Inv; dsimp only; apply State.Inv.parts)

theorem State.tmpEvent_inv {s : State} (hs : s.Inv) (n : Nat) (code : Nat) (slot : Nat) (value : Nat) : (State.tmpEvent s n code slot value).Inv := by
  unfold State.tmpEvent
  repeat' first
    | with_reducible assumption
    | with_reducible apply State.raise_inv

theorem State.setCapset_inv {s : State} (hs : s.Inv) (k : Nat) (v : CapSet) : (State.setCapset s k v).Inv := by
  unfold State.setCapset
  repeat' first
    | with_reducible assumption
    | (unfold State.Inv; dsimp only; apply State.Inv.parts)

theorem State.stopCapture_inv {s : State} (hs : s.Inv) (set : Option Nat) : (State.stopCapture s set).Inv := by
  unfold State.stopCapture
  repeat' first
    | with_reducible assumption
    | with_reducible apply State.setCapset_inv
    | split

theorem State.syncTune_inv {s : State} (hs : s.Inv) (n : Nat) : (State.syncTune s n).Inv := by
  unfold State.syncTune
  repeat' first
    | with_reducible assumption
    | with_reducible apply State.put_inv

theorem State.endTune_inv {s : State} (hs : s.Inv) (t : Tune) (status : Nat) : (State.endTune s t status).Inv := by
  unfold State.endTune
  repeat' first
    | with_reducible assumption
    | with_reducible apply State.stopCapture_inv
    | with_reducible apply State.syncTune_inv
    | with_reducible apply State.complete_inv
    | with_reducible apply State.tmpEvent_inv
    | split
    | (unfold State.Inv; dsimp only; apply State.Inv.parts)

theorem State.endTunes_inv {s : State} (hs : s.Inv) (n : Nat) (status : Nat) : (State.endTunes s n status).Inv := by
  unfold State.endTunes
  repeat' first
    | with_reducible assumption
    | with_reducible apply State.endTune_inv
    | with_reducible apply State.syncTune_inv
    | with_reducible apply State.complete_inv
    | (with_reducible apply State.Inv.foldl; intro _ _ _)
    | (unfold State.Inv; dsimp only; apply State.Inv.parts)

theorem State.trapEngine_inv {s : State} (hs : s.Inv) (n : Nat) (cause : Nat) : (State.trapEngine s n cause).Inv := by
  unfold State.trapEngine
  repeat' first
    | with_reducible assumption
    | with_reducible apply State.Inv.ite
    | with_reducible apply State.setEng_inv
    | with_reducible apply State.Inv.wr
    | with_reducible apply State.tmpEvent_inv
    | with_reducible apply State.endTunes_inv

theorem State.narrowSat_inv {s : State} (hs : s.Inv) (n : Nat) (slot : Nat) : (State.narrowSat s n slot).Inv := by
  unfold State.narrowSat
  repeat' first
    | with_reducible assumption
    | with_reducible apply State.Inv.ite
    | with_reducible apply State.tmpEvent_inv
    | with_reducible apply State.Inv.wr

end Sys2Proof.Machine
end

