-- ==== Sys2Proof/Laws/Inv/TimeBase.lean ====
section
/-! SUPPORT. The invariant `State.Inv` is kept by every function of Machine/TimeBase.lean. -/

namespace Sys2Proof.Machine

theorem State.syncHoldover_inv {s : State} (hs : s.Inv) : (State.syncHoldover s).Inv := by
  unfold State.syncHoldover
  repeat' first
    | with_reducible assumption
    | with_reducible apply State.put_inv

theorem State.shiftTargets_inv {s : State} (hs : s.Inv) (delta : Int) : (State.shiftTargets s delta).Inv := by
  unfold State.shiftTargets
  repeat' first
    | with_reducible assumption
    | with_reducible apply State.Inv.ite
    | with_reducible apply State.wr64_inv
    | (with_reducible apply State.Inv.foldl; intro _ _ _)

theorem State.shiftWakes_inv {s : State} (hs : s.Inv) (delta : Int) : (State.shiftWakes s delta).Inv := by
  unfold State.shiftWakes
  repeat' first
    | with_reducible assumption
    | with_reducible apply State.wr64_inv
    | (with_reducible apply State.Inv.foldl; intro _ _ _)

theorem State.moveTargets_inv {s : State} (hs : s.Inv) (delta : Int) : (State.moveTargets s delta).Inv := by
  unfold State.moveTargets
  repeat' first
    | with_reducible assumption
    | with_reducible apply State.shiftWakes_inv
    | with_reducible apply State.shiftTargets_inv
    | (unfold State.Inv; dsimp only; apply State.Inv.parts)

theorem State.firstLock_inv {s : State} (hs : s.Inv) (cell : Nat) : (s.firstLock cell).Inv := by
  have h1 : ∀ i l, State.Inv { s with tim := { s.tim with cell := cell % cellWrap, instant := i, lastInstant := l } } :=
    fun i l => hs.withCell (Nat.mod_lt _ (by decide))
  unfold State.firstLock
  refine State.Inv.ite hs ?_
  refine State.raise_inv (State.Inv.foldl (fun t g h => h.wr _ _ _ _) (State.Inv.wr ?_ _ _ _ _)) _ _ _ _
  exact State.moveTargets_inv (h1 _ _) _

theorem State.armTick_inv {s : State} (hs : s.Inv) : (State.armTick s).Inv := by
  unfold State.armTick
  repeat' first
    | with_reducible assumption
    | with_reducible apply State.wr64_inv
    | with_reducible apply State.Inv.wr

theorem State.setInstant_inv {s : State} (hs : s.Inv) (t : Nat) : (State.setInstant s t).Inv := by
  unfold State.setInstant
  repeat' first
    | with_reducible assumption
    | with_reducible apply State.Inv.wr
    | with_reducible apply State.wr64_inv
    | (unfold State.Inv; dsimp only; apply State.Inv.parts)

theorem State.placeCycle_inv {s : State} (hs : s.Inv) (t : Nat) (c : Nat) : (State.placeCycle s t c).Inv := by
  unfold State.placeCycle
  repeat' first
    | with_reducible assumption
    | with_reducible apply State.armTick_inv
    | with_reducible apply State.setInstant_inv
    | with_reducible apply State.Inv.wr
    | (with_reducible apply State.Inv.foldl; intro _ _ _)
    | (unfold State.Inv; dsimp only; apply State.Inv.parts)

theorem State.setDomain_inv {s : State} (hs : s.Inv) (b : Bool) (d : Domain) : (State.setDomain s b d).Inv := by
  unfold State.setDomain
  repeat' first
    | with_reducible assumption
    | split
    | (unfold State.Inv; dsimp only; apply State.Inv.parts)

theorem State.moveRho_inv {s : State} (hs : s.Inv) (rho : Int) : (State.moveRho s rho).Inv := by
  unfold State.moveRho
  repeat' first
    | with_reducible assumption
    | with_reducible apply State.wrS_inv
    | with_reducible apply State.setDomain_inv

theorem State.moveTick_inv {s : State} (hs : s.Inv) : (State.moveTick s).Inv := by
  unfold State.moveTick
  repeat' first
    | with_reducible assumption
    | with_reducible apply State.Inv.ite
    | with_reducible apply State.armTick_inv

theorem State.steer_inv {s : State} (hs : s.Inv) : (State.steer s).Inv := by
  unfold State.steer
  repeat' first
    | with_reducible assumption
    | with_reducible apply State.Inv.ite
    | with_reducible apply State.setDomain_inv
    | with_reducible apply State.put_inv
    | with_reducible apply State.moveRho_inv
    | with_reducible apply State.raise_inv

theorem State.selectLine_inv {s : State} (hs : s.Inv) (k : Nat) : (State.selectLine s k).Inv := by
  unfold State.selectLine
  repeat' first
    | with_reducible assumption
    | with_reducible apply State.Inv.ite
    | with_reducible apply State.syncHoldover_inv
    | with_reducible apply State.raise_inv
    | with_reducible apply State.Inv.wr

theorem State.lineSelect_inv {s : State} (hs : s.Inv) : (State.lineSelect s).Inv := by
  unfold State.lineSelect
  repeat' first
    | with_reducible assumption
    | with_reducible apply State.selectLine_inv

theorem execTimeSnapshotRead_inv (m : Master) {s : State} (hs : s.Inv) : SoundOut (execTimeSnapshotRead m s) := by
  unfold execTimeSnapshotRead
  repeat' first
    | with_reducible assumption
    | with_reducible apply SoundOut.next
    | (unfold State.Inv; dsimp only; apply State.Inv.parts)

theorem State.setCapUnit_inv {s : State} (hs : s.Inv) (u : Nat) (v : CapUnit) : (State.setCapUnit s u v).Inv := by
  unfold State.setCapUnit
  repeat' first
    | with_reducible assumption
    | (unfold State.Inv; dsimp only; apply State.Inv.parts)

theorem State.capOffer_inv {s : State} (hs : s.Inv) (u : Nat) : (State.capOffer s u).Inv := by
  unfold State.capOffer
  repeat' first
    | with_reducible assumption
    | with_reducible apply State.Inv.wr
    | with_reducible apply State.setCapUnit_inv
    | with_reducible apply State.post_inv
    | split
    | (unfold State.Inv; dsimp only; apply State.Inv.parts)

theorem State.unwake_inv {s : State} (hs : s.Inv) (u : Nat) : (State.unwake s u).Inv := by
  unfold State.unwake
  repeat' first
    | with_reducible assumption
    | (unfold State.Inv; dsimp only; apply State.Inv.parts)

theorem State.cmpReload_inv {s : State} (hs : s.Inv) (u : Nat) : (State.cmpReload s u).Inv := by
  unfold State.cmpReload
  repeat' first
    | with_reducible assumption
    | with_reducible apply State.Inv.ite
    | with_reducible apply State.Inv.wr
    | with_reducible apply State.unwake_inv
    | with_reducible apply State.wr64_inv
    | with_reducible apply State.raise_inv

theorem State.cmpAct_inv {s : State} (hs : s.Inv) (u : Nat) : (State.cmpAct s u).Inv := by
  unfold State.cmpAct
  repeat' first
    | with_reducible assumption
    | with_reducible apply State.adcMatch_inv
    | with_reducible apply State.setEng_inv
    | split
    | (unfold State.Inv; dsimp only; apply State.Inv.parts)

theorem State.cmpFire_inv {s : State} (hs : s.Inv) (u : Nat) : (State.cmpFire s u).Inv := by
  unfold State.cmpFire
  repeat' first
    | with_reducible assumption
    | with_reducible apply State.cmpReload_inv
    | with_reducible apply State.cmpAct_inv
    | with_reducible apply State.Inv.wr

theorem execCompareArm_inv (u : Fin 32) {s : State} (hs : s.Inv) : SoundOut (execCompareArm u s) := by
  unfold execCompareArm
  repeat' first
    | with_reducible assumption
    | with_reducible apply SoundOut.next
    | with_reducible apply SoundOut.ite
    | with_reducible apply State.unwake_inv
    | with_reducible apply State.Inv.wr
    | with_reducible apply State.raise_inv
    | with_reducible apply State.wrBit_inv
    | with_reducible apply State.ticks_inv
    | with_reducible apply State.cmpFire_inv

theorem execCompareDisarm_inv (u : Fin 32) {s : State} (hs : s.Inv) : SoundOut (execCompareDisarm u s) := by
  unfold execCompareDisarm
  repeat' first
    | with_reducible assumption
    | with_reducible apply SoundOut.next
    | with_reducible apply SoundOut.ite
    | with_reducible apply State.Inv.wr
    | with_reducible apply State.cmpFire_inv

theorem execCompareMatch_inv (u : Fin 32) {s : State} (hs : s.Inv) : SoundOut (execCompareMatch u s) := by
  unfold execCompareMatch
  repeat' first
    | with_reducible assumption
    | with_reducible apply SoundOut.next
    | with_reducible apply SoundOut.ite
    | with_reducible apply State.cmpFire_inv
    | with_reducible apply State.advanceCell_inv

theorem execAdcWake_inv (u : Fin 32) {s : State} (hs : s.Inv) : SoundOut (execAdcWake u s) := by
  unfold execAdcWake
  repeat' first
    | with_reducible assumption
    | with_reducible apply SoundOut.next
    | with_reducible apply SoundOut.ite
    | with_reducible apply State.advanceCell_inv
    | with_reducible apply State.adcWake_inv
    | split
    | (unfold State.Inv; dsimp only; apply State.Inv.parts)

theorem execCaptureEdge_inv (u : Fin 16) (rising : Bool) (te : DWord) (skew : Fin 3) {s : State} (hs : s.Inv) : SoundOut (execCaptureEdge u rising te skew s) := by
  unfold execCaptureEdge
  repeat' first
    | with_reducible assumption
    | with_reducible apply SoundOut.next
    | with_reducible apply State.Inv.ite
    | with_reducible apply SoundOut.ite
    | with_reducible apply State.ticks_inv
    | with_reducible apply State.advanceCell_inv
    | with_reducible apply State.bump_inv
    | with_reducible apply State.setCapUnit_inv
    | with_reducible apply State.raise_inv
    | with_reducible apply State.capOffer_inv
    | with_reducible apply State.Inv.wr

theorem execCycleWrite_inv (m : Master) (v : Word) {s : State} (hs : s.Inv) : SoundOut (execCycleWrite m v s) := by
  unfold execCycleWrite
  repeat' first
    | with_reducible assumption
    | with_reducible apply SoundOut.next
    | with_reducible apply SoundOut.ite
    | with_reducible apply State.pvDropped_inv
    | with_reducible apply State.wrIgnored_inv
    | with_reducible apply State.Inv.wr

theorem State.domainDown_inv {s : State} (hs : s.Inv) (b : Bool) : (State.domainDown s b).Inv := by
  unfold State.domainDown
  repeat' first
    | with_reducible assumption
    | with_reducible apply State.Inv.ite
    | with_reducible apply State.lineSelect_inv
    | with_reducible apply State.raise_inv
    | with_reducible apply State.Inv.wr

theorem execLineOffsetDelivery_inv (b : Bool) (theta : DWord) (rate : Word) (slave : Bool) {s : State} (hs : s.Inv) : SoundOut (execLineOffsetDelivery b theta rate slave s) := by
  unfold execLineOffsetDelivery
  repeat' first
    | with_reducible assumption
    | with_reducible apply SoundOut.next
    | with_reducible apply SoundOut.ite
    | with_reducible apply State.setDomain_inv
    | with_reducible apply State.Inv.wr
    | with_reducible apply State.lineSelect_inv
    | with_reducible apply State.domainDown_inv

theorem execDomainLoss_inv (b : Bool) {s : State} (hs : s.Inv) : SoundOut (execDomainLoss b s) := by
  unfold execDomainLoss
  repeat' first
    | with_reducible assumption
    | with_reducible apply SoundOut.next
    | with_reducible apply SoundOut.ite
    | with_reducible apply State.domainDown_inv
    | with_reducible apply State.advanceTo_inv

theorem execDomainRevert_inv {s : State} (hs : s.Inv) : SoundOut (execDomainRevert s) := by
  unfold execDomainRevert
  repeat' first
    | with_reducible assumption
    | with_reducible apply SoundOut.next
    | with_reducible apply SoundOut.ite
    | with_reducible apply State.selectLine_inv
    | with_reducible apply State.advanceTo_inv

theorem execTpoPulseEnd_inv (p : Fin 4) {s : State} (hs : s.Inv) : SoundOut (execTpoPulseEnd p s) := by
  unfold execTpoPulseEnd
  repeat' first
    | with_reducible assumption
    | with_reducible apply SoundOut.next
    | with_reducible apply State.advanceTo_inv
    | split
    | (unfold State.Inv; dsimp only; apply State.Inv.parts)

theorem execEthLinkChange_inv (n : Fin 2) (link : Bool) (lock : Bool) (los : Bool) (present : Bool) {s : State} (hs : s.Inv) : SoundOut (execEthLinkChange n link lock los present s) := by
  unfold execEthLinkChange
  repeat' first
    | with_reducible assumption
    | with_reducible apply SoundOut.next
    | with_reducible apply State.Inv.ite
    | with_reducible apply State.put_inv
    | with_reducible apply State.Inv.wr

theorem execEthFrameReceived_inv (n : Fin 2) (frame : List Byte) (ok : Bool) (taken : Bool) {s : State} (hs : s.Inv) : SoundOut (execEthFrameReceived n frame ok taken s) := by
  unfold execEthFrameReceived
  repeat' first
    | with_reducible assumption
    | with_reducible apply SoundOut.next
    | with_reducible apply SoundOut.ite
    | with_reducible apply State.bump_inv
    | split
    | (unfold State.Inv; dsimp only; apply State.Inv.parts)

theorem State.mdioStart_inv {s : State} (hs : s.Inv) (m : Master) (phy : BitVec 5) (reg : BitVec 5) (op : Nat) (c45 : Bool) (data : BitVec 16) : (State.mdioStart s m phy reg op c45 data).Inv := by
  unfold State.mdioStart
  repeat' first
    | with_reducible assumption
    | with_reducible apply State.pvDropped_inv
    | with_reducible apply State.wrIgnored_inv
    | with_reducible apply State.Inv.setWord
    | with_reducible apply State.Inv.wr
    | split
    | (unfold State.Inv; dsimp only; apply State.Inv.parts)

theorem execMdioRead_inv (m : Master) (phy : BitVec 5) (reg : BitVec 5) (c45 : Bool) {s : State} (hs : s.Inv) : SoundOut (execMdioRead m phy reg c45 s) := by
  unfold execMdioRead
  repeat' first
    | with_reducible assumption
    | with_reducible apply SoundOut.next
    | with_reducible apply State.mdioStart_inv

theorem execMdioWrite_inv (m : Master) (phy : BitVec 5) (reg : BitVec 5) (c45 : Bool) (data : BitVec 16) {s : State} (hs : s.Inv) : SoundOut (execMdioWrite m phy reg c45 data s) := by
  unfold execMdioWrite
  repeat' first
    | with_reducible assumption
    | with_reducible apply SoundOut.next
    | with_reducible apply State.mdioStart_inv

theorem execMdioAddress_inv (m : Master) (phy : BitVec 5) (dev : BitVec 5) (reg : BitVec 16) {s : State} (hs : s.Inv) : SoundOut (execMdioAddress m phy dev reg s) := by
  unfold execMdioAddress
  repeat' first
    | with_reducible assumption
    | with_reducible apply SoundOut.next
    | with_reducible apply State.mdioStart_inv

theorem execMdioFrameDone_inv (answer : Option (BitVec 16)) {s : State} (hs : s.Inv) : SoundOut (execMdioFrameDone answer s) := by
  unfold execMdioFrameDone
  repeat' first
    | with_reducible assumption
    | with_reducible apply SoundOut.next
    | with_reducible apply State.Inv.wr
    | with_reducible apply State.advanceTo_inv
    | split
    | (unfold State.Inv; dsimp only; apply State.Inv.parts)

end Sys2Proof.Machine
end

