-- ==== Sys2Proof/Laws/Inv/SchedLoad.lean ====
section
/-! SUPPORT. The invariant `State.Inv` is kept by every function of Machine/SchedLoad.lean. -/

namespace Sys2Proof.Machine

theorem State.installSched_inv {s : State} (hs : s.Inv) (g : Nat) (b : List Byte) : (State.installSched s g b).Inv := by
  unfold State.installSched
  repeat' first
    | with_reducible assumption
    | with_reducible apply State.setSeg_inv
    | with_reducible apply State.Inv.wr

theorem execSchedLoad_inv (r : Fin 64) (io : HostIo) {s : State} (hs : s.Inv) : SoundOut (execSchedLoad r io s) := by
  unfold execSchedLoad
  repeat' first
    | with_reducible assumption
    | with_reducible apply SoundOut.next
    | with_reducible apply State.runDesc_inv
    | with_reducible apply State.withBody_inv
    | with_reducible apply State.fail_inv
    | with_reducible apply State.Inv.wr
    | with_reducible apply State.setSeg_inv
    | with_reducible apply State.installSched_inv
    | with_reducible apply State.complete_inv
    | split
    | dsimp only
    | (with_reducible intro _ _ _)

end Sys2Proof.Machine
end

