-- ==== Sys2Proof/Laws/Inv/Datapath.lean ====
section
/-! SUPPORT. The invariant `State.Inv` is kept by every function of Machine/Datapath.lean. -/

namespace Sys2Proof.Machine

theorem State.setPx_inv {s : State} (hs : s.Inv) (n : Nat) (p : Px) : (State.setPx s n p).Inv := by
  unfold State.setPx
  repeat' first
    | with_reducible assumption
    | with_reducible apply State.setEng_inv
    | with_reducible apply State.setSram_inv
    | with_reducible apply State.narrowSat_inv
    | with_reducible apply State.Inv.wr
    | with_reducible apply State.trapEngine_inv
    | split
    | (unfold State.Inv; dsimp only; apply State.Inv.parts)

theorem State.issue_inv {s : State} (hs : s.Inv) (n : Fin 64) (gap : BitVec 4) (f : Px → Px) : (State.issue s n gap f).Inv := by
  unfold State.issue
  repeat' first
    | with_reducible assumption
    | with_reducible apply State.Inv.ite
    | with_reducible apply State.setPx_inv

theorem execLdW_inv (n : Fin 64) (gap : BitVec 4) (ax : BitVec 3) (mode : BitVec 2) (dd : BitVec 6) (ext : BitVec 10) {s : State} (hs : s.Inv) : SoundOut (execLdW n gap ax mode dd ext s) := by
  unfold execLdW
  repeat' first
    | with_reducible assumption
    | with_reducible apply SoundOut.next
    | with_reducible apply State.issue_inv

theorem execLdD_inv (n : Fin 64) (gap : BitVec 4) (ax : BitVec 3) (mode : BitVec 2) (dd : BitVec 6) (ext : BitVec 10) {s : State} (hs : s.Inv) : SoundOut (execLdD n gap ax mode dd ext s) := by
  unfold execLdD
  repeat' first
    | with_reducible assumption
    | with_reducible apply SoundOut.next
    | with_reducible apply State.issue_inv

theorem execLdB_inv (n : Fin 64) (gap : BitVec 4) (ax : BitVec 3) (mode : BitVec 2) (dd : BitVec 6) (ext : BitVec 10) {s : State} (hs : s.Inv) : SoundOut (execLdB n gap ax mode dd ext s) := by
  unfold execLdB
  repeat' first
    | with_reducible assumption
    | with_reducible apply SoundOut.next
    | with_reducible apply State.issue_inv

theorem execStW_inv (n : Fin 64) (gap : BitVec 4) (ax : BitVec 3) (mode : BitVec 2) (dd : BitVec 6) (ext : BitVec 10) {s : State} (hs : s.Inv) : SoundOut (execStW n gap ax mode dd ext s) := by
  unfold execStW
  repeat' first
    | with_reducible assumption
    | with_reducible apply SoundOut.next
    | with_reducible apply State.issue_inv

theorem execStD_inv (n : Fin 64) (gap : BitVec 4) (ax : BitVec 3) (mode : BitVec 2) (dd : BitVec 6) (ext : BitVec 10) {s : State} (hs : s.Inv) : SoundOut (execStD n gap ax mode dd ext s) := by
  unfold execStD
  repeat' first
    | with_reducible assumption
    | with_reducible apply SoundOut.next
    | with_reducible apply State.issue_inv

theorem execLdxy_inv (n : Fin 64) (gap : BitVec 4) (ax : BitVec 3) (mode : BitVec 2) (dd : BitVec 6) (ext : BitVec 10) {s : State} (hs : s.Inv) : SoundOut (execLdxy n gap ax mode dd ext s) := by
  unfold execLdxy
  repeat' first
    | with_reducible assumption
    | with_reducible apply SoundOut.next
    | with_reducible apply State.issue_inv

theorem execStN_inv (n : Fin 64) (gap : BitVec 4) (ax : BitVec 3) (mode : BitVec 2) (dd : BitVec 6) (ext : BitVec 10) {s : State} (hs : s.Inv) : SoundOut (execStN n gap ax mode dd ext s) := by
  unfold execStN
  repeat' first
    | with_reducible assumption
    | with_reducible apply SoundOut.next
    | with_reducible apply State.issue_inv

theorem execStNc_inv (n : Fin 64) (gap : BitVec 4) (ax : BitVec 3) (mode : BitVec 2) (dd : BitVec 6) (ext : BitVec 10) {s : State} (hs : s.Inv) : SoundOut (execStNc n gap ax mode dd ext s) := by
  unfold execStNc
  repeat' first
    | with_reducible assumption
    | with_reducible apply SoundOut.next
    | with_reducible apply State.issue_inv

theorem execAmod_inv (n : Fin 64) (gap : BitVec 4) (ax : BitVec 3) (mode : BitVec 2) (dd : BitVec 6) (ext : BitVec 10) {s : State} (hs : s.Inv) : SoundOut (execAmod n gap ax mode dd ext s) := by
  unfold execAmod
  repeat' first
    | with_reducible assumption
    | with_reducible apply SoundOut.next
    | with_reducible apply State.issue_inv

theorem execMva_inv (n : Fin 64) (gap : BitVec 4) (ax : BitVec 3) (mode : BitVec 2) (dd : BitVec 6) (ext : BitVec 10) {s : State} (hs : s.Inv) : SoundOut (execMva n gap ax mode dd ext s) := by
  unfold execMva
  repeat' first
    | with_reducible assumption
    | with_reducible apply SoundOut.next
    | with_reducible apply State.issue_inv

theorem execMvm_inv (n : Fin 64) (gap : BitVec 4) (ax : BitVec 3) (mode : BitVec 2) (dd : BitVec 6) (ext : BitVec 10) {s : State} (hs : s.Inv) : SoundOut (execMvm n gap ax mode dd ext s) := by
  unfold execMvm
  repeat' first
    | with_reducible assumption
    | with_reducible apply SoundOut.next
    | with_reducible apply State.issue_inv

theorem execMvd_inv (n : Fin 64) (gap : BitVec 4) (ax : BitVec 3) (mode : BitVec 2) (dd : BitVec 6) (ext : BitVec 10) {s : State} (hs : s.Inv) : SoundOut (execMvd n gap ax mode dd ext s) := by
  unfold execMvd
  repeat' first
    | with_reducible assumption
    | with_reducible apply SoundOut.next
    | with_reducible apply State.issue_inv

theorem execMvmd_inv (n : Fin 64) (gap : BitVec 4) (ax : BitVec 3) (mode : BitVec 2) (dd : BitVec 6) (ext : BitVec 10) {s : State} (hs : s.Inv) : SoundOut (execMvmd n gap ax mode dd ext s) := by
  unfold execMvmd
  repeat' first
    | with_reducible assumption
    | with_reducible apply SoundOut.next
    | with_reducible apply State.issue_inv

theorem execMvc_inv (n : Fin 64) (gap : BitVec 4) (ax : BitVec 3) (mode : BitVec 2) (dd : BitVec 6) (ext : BitVec 10) {s : State} (hs : s.Inv) : SoundOut (execMvc n gap ax mode dd ext s) := by
  unfold execMvc
  repeat' first
    | with_reducible assumption
    | with_reducible apply SoundOut.next
    | with_reducible apply State.issue_inv

theorem execMvcw_inv (n : Fin 64) (gap : BitVec 4) (ax : BitVec 3) (mode : BitVec 2) (dd : BitVec 6) (ext : BitVec 10) {s : State} (hs : s.Inv) : SoundOut (execMvcw n gap ax mode dd ext s) := by
  unfold execMvcw
  repeat' first
    | with_reducible assumption
    | with_reducible apply SoundOut.next
    | with_reducible apply State.issue_inv

theorem execMul_inv (n : Fin 64) (gap : BitVec 4) (s1 : BitVec 6) (s2 : BitVec 6) (aux : BitVec 7) {s : State} (hs : s.Inv) : SoundOut (execMul n gap s1 s2 aux s) := by
  unfold execMul
  repeat' first
    | with_reducible assumption
    | with_reducible apply SoundOut.next
    | with_reducible apply State.issue_inv

theorem execMac_inv (n : Fin 64) (gap : BitVec 4) (s1 : BitVec 6) (s2 : BitVec 6) (aux : BitVec 7) {s : State} (hs : s.Inv) : SoundOut (execMac n gap s1 s2 aux s) := by
  unfold execMac
  repeat' first
    | with_reducible assumption
    | with_reducible apply SoundOut.next
    | with_reducible apply State.issue_inv

theorem execMsu_inv (n : Fin 64) (gap : BitVec 4) (s1 : BitVec 6) (s2 : BitVec 6) (aux : BitVec 7) {s : State} (hs : s.Inv) : SoundOut (execMsu n gap s1 s2 aux s) := by
  unfold execMsu
  repeat' first
    | with_reducible assumption
    | with_reducible apply SoundOut.next
    | with_reducible apply State.issue_inv

theorem execDmac_inv (n : Fin 64) (gap : BitVec 4) (s1 : BitVec 6) (s2 : BitVec 6) (aux : BitVec 7) {s : State} (hs : s.Inv) : SoundOut (execDmac n gap s1 s2 aux s) := by
  unfold execDmac
  repeat' first
    | with_reducible assumption
    | with_reducible apply SoundOut.next
    | with_reducible apply State.issue_inv

theorem execCmul_inv (n : Fin 64) (gap : BitVec 4) (s1 : BitVec 6) (s2 : BitVec 6) (aux : BitVec 7) {s : State} (hs : s.Inv) : SoundOut (execCmul n gap s1 s2 aux s) := by
  unfold execCmul
  repeat' first
    | with_reducible assumption
    | with_reducible apply SoundOut.next
    | with_reducible apply State.issue_inv

theorem execCmac_inv (n : Fin 64) (gap : BitVec 4) (s1 : BitVec 6) (s2 : BitVec 6) (aux : BitVec 7) {s : State} (hs : s.Inv) : SoundOut (execCmac n gap s1 s2 aux s) := by
  unfold execCmac
  repeat' first
    | with_reducible assumption
    | with_reducible apply SoundOut.next
    | with_reducible apply State.issue_inv

theorem execCmacj_inv (n : Fin 64) (gap : BitVec 4) (s1 : BitVec 6) (s2 : BitVec 6) (aux : BitVec 7) {s : State} (hs : s.Inv) : SoundOut (execCmacj n gap s1 s2 aux s) := by
  unfold execCmacj
  repeat' first
    | with_reducible assumption
    | with_reducible apply SoundOut.next
    | with_reducible apply State.issue_inv

theorem execAclr_inv (n : Fin 64) (gap : BitVec 4) (s1 : BitVec 6) (s2 : BitVec 6) (aux : BitVec 7) {s : State} (hs : s.Inv) : SoundOut (execAclr n gap s1 s2 aux s) := by
  unfold execAclr
  repeat' first
    | with_reducible assumption
    | with_reducible apply SoundOut.next
    | with_reducible apply State.issue_inv

theorem execNrw_inv (n : Fin 64) (gap : BitVec 4) (s1 : BitVec 6) (s2 : BitVec 6) (aux : BitVec 7) {s : State} (hs : s.Inv) : SoundOut (execNrw n gap s1 s2 aux s) := by
  unfold execNrw
  repeat' first
    | with_reducible assumption
    | with_reducible apply SoundOut.next
    | with_reducible apply State.issue_inv

theorem execAsh_inv (n : Fin 64) (gap : BitVec 4) (s1 : BitVec 6) (s2 : BitVec 6) (aux : BitVec 7) {s : State} (hs : s.Inv) : SoundOut (execAsh n gap s1 s2 aux s) := by
  unfold execAsh
  repeat' first
    | with_reducible assumption
    | with_reducible apply SoundOut.next
    | with_reducible apply State.issue_inv

theorem execAdd_inv (n : Fin 64) (gap : BitVec 4) (s1 : BitVec 6) (s2 : BitVec 6) (aux : BitVec 7) {s : State} (hs : s.Inv) : SoundOut (execAdd n gap s1 s2 aux s) := by
  unfold execAdd
  repeat' first
    | with_reducible assumption
    | with_reducible apply SoundOut.next
    | with_reducible apply State.issue_inv

theorem execSub_inv (n : Fin 64) (gap : BitVec 4) (s1 : BitVec 6) (s2 : BitVec 6) (aux : BitVec 7) {s : State} (hs : s.Inv) : SoundOut (execSub n gap s1 s2 aux s) := by
  unfold execSub
  repeat' first
    | with_reducible assumption
    | with_reducible apply SoundOut.next
    | with_reducible apply State.issue_inv

theorem execAdds_inv (n : Fin 64) (gap : BitVec 4) (s1 : BitVec 6) (s2 : BitVec 6) (aux : BitVec 7) {s : State} (hs : s.Inv) : SoundOut (execAdds n gap s1 s2 aux s) := by
  unfold execAdds
  repeat' first
    | with_reducible assumption
    | with_reducible apply SoundOut.next
    | with_reducible apply State.issue_inv

theorem execSubs_inv (n : Fin 64) (gap : BitVec 4) (s1 : BitVec 6) (s2 : BitVec 6) (aux : BitVec 7) {s : State} (hs : s.Inv) : SoundOut (execSubs n gap s1 s2 aux s) := by
  unfold execSubs
  repeat' first
    | with_reducible assumption
    | with_reducible apply SoundOut.next
    | with_reducible apply State.issue_inv

theorem execAnd_inv (n : Fin 64) (gap : BitVec 4) (s1 : BitVec 6) (s2 : BitVec 6) (aux : BitVec 7) {s : State} (hs : s.Inv) : SoundOut (execAnd n gap s1 s2 aux s) := by
  unfold execAnd
  repeat' first
    | with_reducible assumption
    | with_reducible apply SoundOut.next
    | with_reducible apply State.issue_inv

theorem execOr_inv (n : Fin 64) (gap : BitVec 4) (s1 : BitVec 6) (s2 : BitVec 6) (aux : BitVec 7) {s : State} (hs : s.Inv) : SoundOut (execOr n gap s1 s2 aux s) := by
  unfold execOr
  repeat' first
    | with_reducible assumption
    | with_reducible apply SoundOut.next
    | with_reducible apply State.issue_inv

theorem execXor_inv (n : Fin 64) (gap : BitVec 4) (s1 : BitVec 6) (s2 : BitVec 6) (aux : BitVec 7) {s : State} (hs : s.Inv) : SoundOut (execXor n gap s1 s2 aux s) := by
  unfold execXor
  repeat' first
    | with_reducible assumption
    | with_reducible apply SoundOut.next
    | with_reducible apply State.issue_inv

theorem execShl_inv (n : Fin 64) (gap : BitVec 4) (s1 : BitVec 6) (s2 : BitVec 6) (aux : BitVec 7) {s : State} (hs : s.Inv) : SoundOut (execShl n gap s1 s2 aux s) := by
  unfold execShl
  repeat' first
    | with_reducible assumption
    | with_reducible apply SoundOut.next
    | with_reducible apply State.issue_inv

theorem execShr_inv (n : Fin 64) (gap : BitVec 4) (s1 : BitVec 6) (s2 : BitVec 6) (aux : BitVec 7) {s : State} (hs : s.Inv) : SoundOut (execShr n gap s1 s2 aux s) := by
  unfold execShr
  repeat' first
    | with_reducible assumption
    | with_reducible apply SoundOut.next
    | with_reducible apply State.issue_inv

theorem execShrr_inv (n : Fin 64) (gap : BitVec 4) (s1 : BitVec 6) (s2 : BitVec 6) (aux : BitVec 7) {s : State} (hs : s.Inv) : SoundOut (execShrr n gap s1 s2 aux s) := by
  unfold execShrr
  repeat' first
    | with_reducible assumption
    | with_reducible apply SoundOut.next
    | with_reducible apply State.issue_inv

theorem execMin_inv (n : Fin 64) (gap : BitVec 4) (s1 : BitVec 6) (s2 : BitVec 6) (aux : BitVec 7) {s : State} (hs : s.Inv) : SoundOut (execMin n gap s1 s2 aux s) := by
  unfold execMin
  repeat' first
    | with_reducible assumption
    | with_reducible apply SoundOut.next
    | with_reducible apply State.issue_inv

theorem execMax_inv (n : Fin 64) (gap : BitVec 4) (s1 : BitVec 6) (s2 : BitVec 6) (aux : BitVec 7) {s : State} (hs : s.Inv) : SoundOut (execMax n gap s1 s2 aux s) := by
  unfold execMax
  repeat' first
    | with_reducible assumption
    | with_reducible apply SoundOut.next
    | with_reducible apply State.issue_inv

theorem execCls_inv (n : Fin 64) (gap : BitVec 4) (s1 : BitVec 6) (s2 : BitVec 6) (aux : BitVec 7) {s : State} (hs : s.Inv) : SoundOut (execCls n gap s1 s2 aux s) := by
  unfold execCls
  repeat' first
    | with_reducible assumption
    | with_reducible apply SoundOut.next
    | with_reducible apply State.issue_inv

theorem execClsa_inv (n : Fin 64) (gap : BitVec 4) (s1 : BitVec 6) (s2 : BitVec 6) (aux : BitVec 7) {s : State} (hs : s.Inv) : SoundOut (execClsa n gap s1 s2 aux s) := by
  unfold execClsa
  repeat' first
    | with_reducible assumption
    | with_reducible apply SoundOut.next
    | with_reducible apply State.issue_inv

theorem execMovi_inv (n : Fin 64) (gap : BitVec 4) (s1 : BitVec 6) (s2 : BitVec 6) (aux : BitVec 7) {s : State} (hs : s.Inv) : SoundOut (execMovi n gap s1 s2 aux s) := by
  unfold execMovi
  repeat' first
    | with_reducible assumption
    | with_reducible apply SoundOut.next
    | with_reducible apply State.issue_inv

theorem execTst_inv (n : Fin 64) (gap : BitVec 4) (s1 : BitVec 6) (s2 : BitVec 6) (aux : BitVec 7) {s : State} (hs : s.Inv) : SoundOut (execTst n gap s1 s2 aux s) := by
  unfold execTst
  repeat' first
    | with_reducible assumption
    | with_reducible apply SoundOut.next
    | with_reducible apply State.issue_inv

theorem execBr_inv (n : Fin 64) (gap : BitVec 4) (op : BitVec 10) {s : State} (hs : s.Inv) : SoundOut (execBr n gap op s) := by
  unfold execBr
  repeat' first
    | with_reducible assumption
    | with_reducible apply SoundOut.next
    | with_reducible apply State.issue_inv

theorem execBz_inv (n : Fin 64) (gap : BitVec 4) (op : BitVec 10) {s : State} (hs : s.Inv) : SoundOut (execBz n gap op s) := by
  unfold execBz
  repeat' first
    | with_reducible assumption
    | with_reducible apply SoundOut.next
    | with_reducible apply State.issue_inv

theorem execBnz_inv (n : Fin 64) (gap : BitVec 4) (op : BitVec 10) {s : State} (hs : s.Inv) : SoundOut (execBnz n gap op s) := by
  unfold execBnz
  repeat' first
    | with_reducible assumption
    | with_reducible apply SoundOut.next
    | with_reducible apply State.issue_inv

theorem execBn_inv (n : Fin 64) (gap : BitVec 4) (op : BitVec 10) {s : State} (hs : s.Inv) : SoundOut (execBn n gap op s) := by
  unfold execBn
  repeat' first
    | with_reducible assumption
    | with_reducible apply SoundOut.next
    | with_reducible apply State.issue_inv

theorem execBnn_inv (n : Fin 64) (gap : BitVec 4) (op : BitVec 10) {s : State} (hs : s.Inv) : SoundOut (execBnn n gap op s) := by
  unfold execBnn
  repeat' first
    | with_reducible assumption
    | with_reducible apply SoundOut.next
    | with_reducible apply State.issue_inv

theorem execCall_inv (n : Fin 64) (gap : BitVec 4) (op : BitVec 10) {s : State} (hs : s.Inv) : SoundOut (execCall n gap op s) := by
  unfold execCall
  repeat' first
    | with_reducible assumption
    | with_reducible apply SoundOut.next
    | with_reducible apply State.issue_inv

theorem execRet_inv (n : Fin 64) (gap : BitVec 4) (op : BitVec 10) {s : State} (hs : s.Inv) : SoundOut (execRet n gap op s) := by
  unfold execRet
  repeat' first
    | with_reducible assumption
    | with_reducible apply SoundOut.next
    | with_reducible apply State.issue_inv

theorem execEnd_inv (n : Fin 64) (gap : BitVec 4) (op : BitVec 10) {s : State} (hs : s.Inv) : SoundOut (execEnd n gap op s) := by
  unfold execEnd
  repeat' first
    | with_reducible assumption
    | with_reducible apply SoundOut.next
    | with_reducible apply State.issue_inv

theorem execRbg_inv (n : Fin 64) (gap : BitVec 4) (op : BitVec 10) {s : State} (hs : s.Inv) : SoundOut (execRbg n gap op s) := by
  unfold execRbg
  repeat' first
    | with_reducible assumption
    | with_reducible apply SoundOut.next
    | with_reducible apply State.issue_inv

theorem execLset_inv (n : Fin 64) (gap : BitVec 4) (op : BitVec 10) {s : State} (hs : s.Inv) : SoundOut (execLset n gap op s) := by
  unfold execLset
  repeat' first
    | with_reducible assumption
    | with_reducible apply SoundOut.next
    | with_reducible apply State.issue_inv

theorem execLoop_inv (n : Fin 64) (gap : BitVec 4) (op : BitVec 10) {s : State} (hs : s.Inv) : SoundOut (execLoop n gap op s) := by
  unfold execLoop
  repeat' first
    | with_reducible assumption
    | with_reducible apply SoundOut.next
    | with_reducible apply State.issue_inv

theorem execRot_inv (n : Fin 64) (gap : BitVec 4) (op : BitVec 10) {s : State} (hs : s.Inv) : SoundOut (execRot n gap op s) := by
  unfold execRot
  repeat' first
    | with_reducible assumption
    | with_reducible apply SoundOut.next
    | with_reducible apply State.issue_inv

theorem execAtom_inv (n : Fin 64) (gap : BitVec 4) (op : BitVec 10) {s : State} (hs : s.Inv) : SoundOut (execAtom n gap op s) := by
  unfold execAtom
  repeat' first
    | with_reducible assumption
    | with_reducible apply SoundOut.next
    | with_reducible apply State.issue_inv

end Sys2Proof.Machine
end

