-- ==== Sys2Proof/Laws/Inv/Chain.lean ====
section
/-! SUPPORT. The invariant `State.Inv` is kept by every function of Machine/Chain.lean. -/

namespace Sys2Proof.Machine

theorem State.setChain_inv {s : State} (hs : s.Inv) (c : Nat) (v : Chain) : (State.setChain s c v).Inv := by
  unfold State.setChain
  repeat' first
    | with_reducible assumption
    | (unfold State.Inv; dsimp only; apply State.Inv.parts)

theorem State.setKeeper_inv {s : State} (hs : s.Inv) (z : Nat) (k : Keeper) : (State.setKeeper s z k).Inv := by
  unfold State.setKeeper
  repeat' first
    | with_reducible assumption
    | (unfold State.Inv; dsimp only; apply State.Inv.parts)

theorem State.commitRamp_inv {s : State} (hs : s.Inv) (c : Nat) (t0 : Nat) (riseMs : Nat) : (State.commitRamp s c t0 riseMs).Inv := by
  unfold State.commitRamp
  repeat' first
    | with_reducible assumption
    | with_reducible apply State.setEng_inv
    | with_reducible apply State.drawn_inv
    | (with_reducible apply State.Inv.foldl; intro _ _ _)
    | split
    | (unfold State.Inv; dsimp only; apply State.Inv.parts)

theorem State.heldEvent_inv {s : State} (hs : s.Inv) (c : Nat) (cause : Nat) (st : Nat) : (State.heldEvent s c cause st).Inv := by
  unfold State.heldEvent
  repeat' first
    | with_reducible assumption
    | with_reducible apply State.raise_inv
    | with_reducible apply State.setChain_inv

theorem State.near_inv {s : State} (hs : s.Inv) (a : Q) (k : Nat) : (State.near s a k).2.Inv := by
  unfold State.near
  repeat' first
    | with_reducible assumption
    | with_reducible apply State.drawn_inv
    | split
    | (unfold State.Inv; dsimp only; apply State.Inv.parts)

theorem State.heldAgain_inv {s : State} (hs : s.Inv) (c : Nat) (cause : Nat) : (State.heldAgain s c cause).Inv := by
  unfold State.heldAgain
  repeat' first
    | with_reducible assumption
    | with_reducible apply State.Inv.ite
    | with_reducible apply State.setChain_inv

theorem State.endSeg_inv {s : State} (hs : s.Inv) (g : Seg) (status : Nat) (rem : Nat) (len : Nat) (radius : Nat) : (State.endSeg s g status rem len radius).Inv := by
  unfold State.endSeg
  repeat' first
    | with_reducible assumption
    | with_reducible apply State.complete_inv

theorem State.writeSentinelRamp_inv {s : State} (hs : s.Inv) (c : Nat) : (State.writeSentinelRamp s c).Inv := by
  unfold State.writeSentinelRamp
  repeat' first
    | with_reducible assumption
    | with_reducible apply State.setEng_inv
    | with_reducible apply State.drawn_inv
    | (with_reducible apply State.Inv.foldl; intro _ _ _)

theorem State.extendRamp_inv {s : State} (hs : s.Inv) (c : Nat) (t0 : Nat) : (State.extendRamp s c t0).Inv := by
  unfold State.extendRamp
  repeat' first
    | with_reducible assumption
    | with_reducible apply State.setEng_inv
    | (with_reducible apply State.Inv.foldl; intro _ _ _)
    | split
    | (unfold State.Inv; dsimp only; apply State.Inv.parts)

theorem State.stopRamp_inv {s : State} (hs : s.Inv) (c : Nat) : (State.stopRamp s c).Inv := by
  unfold State.stopRamp
  repeat' first
    | with_reducible assumption
    | with_reducible apply State.commitRamp_inv
    | with_reducible apply State.setChain_inv

theorem State.sendZone_inv {s : State} (hs : s.Inv) (m : List Byte) : (State.sendZone s m).Inv := by
  unfold State.sendZone
  repeat' first
    | with_reducible assumption
    | (unfold State.Inv; dsimp only; apply State.Inv.parts)

theorem State.askKeeper_inv {s : State} (hs : s.Inv) (c : Nat) : (State.askKeeper s c).Inv := by
  unfold State.askKeeper
  repeat' first
    | with_reducible assumption
    | with_reducible apply State.Inv.ite
    | with_reducible apply State.setKeeper_inv
    | with_reducible apply State.sendZone_inv
    | (with_reducible apply State.Inv.foldl; intro _ _ _)
    | split

theorem State.releaseZones_inv {s : State} (hs : s.Inv) (c : Nat) (m : Nat) : (State.releaseZones s c m).Inv := by
  unfold State.releaseZones
  repeat' first
    | with_reducible assumption
    | with_reducible apply State.setChain_inv
    | with_reducible apply State.setKeeper_inv
    | with_reducible apply State.sendZone_inv
    | (with_reducible apply State.Inv.foldl; intro _ _ _)
    | split
    | (unfold State.Inv; dsimp only; apply State.Inv.parts)

theorem State.withdraw_inv {s : State} (hs : s.Inv) (c : Nat) : (State.withdraw s c).Inv := by
  unfold State.withdraw
  repeat' first
    | with_reducible assumption
    | with_reducible apply State.releaseZones_inv
    | with_reducible apply State.setChain_inv
    | with_reducible apply State.setKeeper_inv
    | with_reducible apply State.sendZone_inv
    | (with_reducible apply State.Inv.foldl; intro _ _ _)
    | split

theorem State.startSeg_inv {s : State} (hs : s.Inv) (c : Nat) (g : Seg) (rest : List Seg) : (State.startSeg s c g rest).Inv := by
  unfold State.startSeg
  repeat' first
    | with_reducible assumption
    | with_reducible apply State.releaseZones_inv
    | with_reducible apply State.setChain_inv
    | with_reducible apply State.startDesc_inv
    | split
    | (unfold State.Inv; dsimp only; apply State.Inv.parts)

theorem State.startNext_inv {s : State} (hs : s.Inv) (c : Nat) : (State.startNext s c).Inv := by
  unfold State.startNext
  repeat' first
    | with_reducible assumption
    | with_reducible apply State.setChain_inv
    | with_reducible apply State.startSeg_inv
    | split
    | (unfold State.Inv; dsimp only; apply State.Inv.parts)

theorem State.stir_inv {s : State} (hs : s.Inv) (c : Nat) : (State.stir s c).Inv := by
  unfold State.stir
  repeat' first
    | with_reducible assumption
    | with_reducible apply State.Inv.ite
    | with_reducible apply State.startNext_inv

theorem State.obtain_inv {s : State} (hs : s.Inv) (c : Nat) (z : Nat) : (State.obtain s c z).Inv := by
  unfold State.obtain
  repeat' first
    | with_reducible assumption
    | with_reducible apply State.stir_inv
    | with_reducible apply State.setChain_inv
    | with_reducible apply State.askKeeper_inv
    | split
    | (unfold State.Inv; dsimp only; apply State.Inv.parts)

theorem State.holdHere_inv {s : State} (hs : s.Inv) (c : Nat) (cause : Nat) : (State.holdHere s c cause).Inv := by
  unfold State.holdHere
  repeat' first
    | with_reducible assumption
    | with_reducible apply State.heldEvent_inv
    | with_reducible apply State.setChain_inv

theorem State.refuseNext_inv {s : State} (hs : s.Inv) (c : Nat) (status : Nat) (off : Nat) (cause : Nat) : (State.refuseNext s c status off cause).Inv := by
  unfold State.refuseNext
  repeat' first
    | with_reducible assumption
    | with_reducible apply State.withdraw_inv
    | with_reducible apply State.setChain_inv
    | with_reducible apply State.fail_inv
    | with_reducible apply State.endSeg_inv
    | with_reducible apply State.holdHere_inv
    | split
    | (unfold State.Inv; dsimp only; apply State.Inv.parts)

theorem State.holdChain_inv {s : State} (hs : s.Inv) (c : Nat) (cause : Nat) (desc : Option Nat) : (State.holdChain s c cause desc).Inv := by
  unfold State.holdChain
  repeat' first
    | with_reducible assumption
    | with_reducible apply State.holdHere_inv
    | with_reducible apply State.complete_inv
    | with_reducible apply State.heldAgain_inv
    | with_reducible apply State.setChain_inv
    | split
    | (unfold State.Inv; dsimp only; apply State.Inv.parts)

theorem State.stopChain_inv {s : State} (hs : s.Inv) (c : Nat) (h : Halt) : (State.stopChain s c h).Inv := by
  unfold State.stopChain
  repeat' first
    | with_reducible assumption
    | with_reducible apply State.holdHere_inv
    | with_reducible apply State.heldAgain_inv
    | with_reducible apply State.complete_inv
    | with_reducible apply State.setChain_inv
    | with_reducible apply State.stopRamp_inv
    | (with_reducible apply State.Inv.foldl; intro _ _ _)
    | split
    | (unfold State.Inv; dsimp only; apply State.Inv.parts)

theorem State.discardAll_inv {s : State} (hs : s.Inv) (c : Nat) : (State.discardAll s c).Inv := by
  unfold State.discardAll
  repeat' first
    | with_reducible assumption
    | with_reducible apply State.withdraw_inv
    | with_reducible apply State.setChain_inv
    | with_reducible apply State.endSeg_inv
    | (with_reducible apply State.Inv.foldl; intro _ _ _)

theorem State.applyLater_inv {s : State} (hs : s.Inv) (c : Nat) : (State.applyLater s c).Inv := by
  unfold State.applyLater
  repeat' first
    | with_reducible assumption
    | with_reducible apply State.setChain_inv
    | split
    | (unfold State.Inv; dsimp only; apply State.Inv.parts)

theorem State.clearFe_inv {s : State} (hs : s.Inv) (c : Nat) : (State.clearFe s c).Inv := by
  unfold State.clearFe
  repeat' first
    | with_reducible assumption
    | with_reducible apply State.Inv.wr
    | (with_reducible apply State.Inv.foldl; intro _ _ _)

theorem State.resumeChain_inv {s : State} (hs : s.Inv) (c : Nat) (desc : Nat) : (State.resumeChain s c desc).Inv := by
  unfold State.resumeChain
  repeat' first
    | with_reducible assumption
    | with_reducible apply State.Inv.ite
    | with_reducible apply State.fail_inv
    | with_reducible apply State.clearFe_inv
    | with_reducible apply State.setChain_inv
    | with_reducible apply State.startSeg_inv
    | with_reducible apply State.startNext_inv
    | with_reducible apply State.complete_inv
    | split

end Sys2Proof.Machine
end

