-- ==== Sys2Proof/Laws/Inv/Tongs.lean ====
section
/-! SUPPORT. The invariant `State.Inv` is kept by every function of Machine/Tongs.lean. -/

namespace Sys2Proof.Machine

theorem State.setTngCh_inv {s : State} (hs : s.Inv) (c : Nat) (v : TngCh) : (State.setTngCh s c v).Inv := by
  unfold State.setTngCh
  repeat' first
    | with_reducible assumption
    | (unfold State.Inv; dsimp only; apply State.Inv.parts)

theorem State.tngStill_inv {s : State} (hs : s.Inv) (c : Nat) : (State.tngStill s c).Inv := by
  unfold State.tngStill
  repeat' first
    | with_reducible assumption
    | with_reducible apply State.setTngCh_inv
    | split
    | (unfold State.Inv; dsimp only; apply State.Inv.parts)

theorem State.tngMail_inv {s : State} (hs : s.Inv) (c : Nat) : (State.tngMail s c).Inv := by
  unfold State.tngMail
  repeat' first
    | with_reducible assumption
    | with_reducible apply State.post_inv

theorem State.tngDeposit_inv {s : State} (hs : s.Inv) (c : Nat) : (State.tngDeposit s c).Inv := by
  unfold State.tngDeposit
  repeat' first
    | with_reducible assumption
    | with_reducible apply State.tngStill_inv
    | with_reducible apply State.setSram_inv
    | with_reducible apply State.setTngCh_inv
    | split
    | (unfold State.Inv; dsimp only; apply State.Inv.parts)

theorem State.tngInstant_inv {s : State} (hs : s.Inv) : (State.tngInstant s).Inv := by
  unfold State.tngInstant
  repeat' first
    | with_reducible assumption
    | with_reducible apply State.Inv.ite
    | with_reducible apply State.tngStill_inv
    | with_reducible apply State.tngMail_inv
    | with_reducible apply State.tngDeposit_inv
    | (with_reducible apply State.Inv.foldl; intro _ _ _)

theorem State.tngRead_inv {s : State} (hs : s.Inv) (off : Nat) :
    ∀ (tt : State) xx, State.tngRead s off = some (xx, tt) → tt.Inv := by
  intro tt xx e
  have ht := fun c => State.tngStill_inv hs c
  unfold State.tngRead at e
  dsimp only at e
  split at e
  · split at e
    · cases e; exact ht _
    · split at e
      · cases e; exact ht _
      · split at e
        · cases e; exact ht _
        · cases e
  · cases e

theorem State.tngEvent_inv {s : State} (hs : s.Inv) (code : Nat) (c : Nat) (d : DWord) : (State.tngEvent s code c d).Inv := by
  unfold State.tngEvent
  repeat' first
    | with_reducible assumption
    | with_reducible apply State.raise_inv

theorem State.tngLate_inv {s : State} (hs : s.Inv) (n : Nat) : (State.tngLate s n).Inv := by
  unfold State.tngLate
  repeat' first
    | with_reducible assumption
    | with_reducible apply State.Inv.ite
    | with_reducible apply State.setSram_inv
    | with_reducible apply State.tngEvent_inv
    | with_reducible apply State.bump_inv
    | with_reducible apply State.setTngCh_inv
    | (with_reducible apply State.Inv.foldl; intro _ _ _)
    | split

theorem execTongsEnable_inv (m : Master) (c : Fin 32) (levels : BitVec 3) {s : State} (hs : s.Inv) : SoundOut (execTongsEnable m c levels s) := by
  unfold execTongsEnable
  repeat' first
    | with_reducible assumption
    | with_reducible apply SoundOut.next
    | with_reducible apply State.Inv.ite
    | with_reducible apply SoundOut.ite
    | with_reducible apply State.pvDropped_inv
    | with_reducible apply State.setTngCh_inv
    | with_reducible apply State.Inv.wr
    | with_reducible apply State.drawn_inv

theorem State.disarm_inv {s : State} (hs : s.Inv) (p : Nat) : (State.disarm s p).Inv := by
  unfold State.disarm
  repeat' first
    | with_reducible assumption
    | with_reducible apply State.Inv.wr

theorem execTongsDisable_inv (m : Master) (c : Fin 32) {s : State} (hs : s.Inv) : SoundOut (execTongsDisable m c s) := by
  unfold execTongsDisable
  repeat' first
    | with_reducible assumption
    | with_reducible apply SoundOut.next
    | with_reducible apply State.Inv.ite
    | with_reducible apply SoundOut.ite
    | with_reducible apply State.pvDropped_inv
    | with_reducible apply State.tngStill_inv
    | with_reducible apply State.Inv.wr
    | with_reducible apply State.setTngCh_inv
    | with_reducible apply State.disarm_inv
    | (with_reducible apply State.Inv.foldl; intro _ _ _)

theorem State.filtered_inv {s : State} (hs : s.Inv) (t : Nat) (n : Nat) : (State.filtered s t n).Inv := by
  unfold State.filtered
  repeat' first
    | with_reducible assumption
    | with_reducible apply State.advanceCell_inv

theorem State.tngEdge_inv {s : State} (hs : s.Inv) (c : Nat) (t : Nat) (up : Bool) : (State.tngEdge s c t up).Inv := by
  unfold State.tngEdge
  repeat' first
    | with_reducible assumption
    | with_reducible apply State.Inv.ite
    | with_reducible apply State.setTngCh_inv

theorem execQuadratureEdge_inv (c : Fin 32) (a : Bool) (b : Bool) (te : DWord) (skew : Fin 5) {s : State} (hs : s.Inv) : SoundOut (execQuadratureEdge c a b te skew s) := by
  unfold execQuadratureEdge
  repeat' first
    | with_reducible assumption
    | with_reducible apply SoundOut.next
    | with_reducible apply State.Inv.ite
    | with_reducible apply SoundOut.ite
    | with_reducible apply State.filtered_inv
    | with_reducible apply State.tngStill_inv
    | with_reducible apply State.bump_inv
    | with_reducible apply State.setTngCh_inv
    | with_reducible apply State.tngEvent_inv
    | with_reducible apply State.tngEdge_inv

theorem execWireDisagreement_inv (c : Fin 32) (pair : Fin 3) {s : State} (hs : s.Inv) : SoundOut (execWireDisagreement c pair s) := by
  unfold execWireDisagreement
  repeat' first
    | with_reducible assumption
    | with_reducible apply SoundOut.next
    | with_reducible apply State.Inv.ite
    | with_reducible apply SoundOut.ite
    | with_reducible apply State.bump_inv
    | with_reducible apply State.setTngCh_inv
    | with_reducible apply State.tngEvent_inv

theorem State.indexActs_inv {s : State} (hs : s.Inv) (c : Nat) (t : Nat) : (State.indexActs s c t).Inv := by
  unfold State.indexActs
  repeat' first
    | with_reducible assumption
    | with_reducible apply State.Inv.ite
    | with_reducible apply State.Inv.wr
    | with_reducible apply State.setTngCh_inv
    | with_reducible apply State.bump_inv
    | with_reducible apply State.tngEvent_inv

theorem execIndexEvent_inv (c : Fin 32) (te : DWord) (skew : Fin 5) {s : State} (hs : s.Inv) : SoundOut (execIndexEvent c te skew s) := by
  unfold execIndexEvent
  repeat' first
    | with_reducible assumption
    | with_reducible apply SoundOut.next
    | with_reducible apply State.Inv.ite
    | with_reducible apply SoundOut.ite
    | with_reducible apply State.filtered_inv
    | with_reducible apply State.indexActs_inv

theorem execHallSectorChange_inv (c : Fin 32) (code : BitVec 3) (te : DWord) (skew : Fin 5) {s : State} (hs : s.Inv) : SoundOut (execHallSectorChange c code te skew s) := by
  unfold execHallSectorChange
  repeat' first
    | with_reducible assumption
    | with_reducible apply SoundOut.next
    | with_reducible apply State.filtered_inv
    | with_reducible apply State.tngStill_inv
    | with_reducible apply State.setTngCh_inv
    | with_reducible apply State.tngEvent_inv
    | with_reducible apply State.tngEdge_inv
    | split
    | dsimp only

theorem State.ssiReject_inv {s : State} (hs : s.Inv) (c : Nat) (cause : Nat) : (State.ssiReject s c cause).Inv := by
  unfold State.ssiReject
  repeat' first
    | with_reducible assumption
    | with_reducible apply State.tngDeposit_inv
    | with_reducible apply State.tngEvent_inv
    | with_reducible apply State.bump_inv
    | with_reducible apply State.setTngCh_inv

theorem execSsiFrameStart_inv (c : Fin 32) (low : Bool) {s : State} (hs : s.Inv) : SoundOut (execSsiFrameStart c low s) := by
  unfold execSsiFrameStart
  repeat' first
    | with_reducible assumption
    | with_reducible apply SoundOut.next
    | with_reducible apply SoundOut.ite
    | with_reducible apply State.advanceCell_inv
    | with_reducible apply State.setTngCh_inv
    | with_reducible apply State.ssiReject_inv

theorem execSsiFrameEnd_inv (c : Fin 32) (bits : BitVec 40) (stopLow : Bool) {s : State} (hs : s.Inv) : SoundOut (execSsiFrameEnd c bits stopLow s) := by
  unfold execSsiFrameEnd
  repeat' first
    | with_reducible assumption
    | with_reducible apply SoundOut.next
    | with_reducible apply State.advanceTo_inv
    | with_reducible apply State.setTngCh_inv
    | with_reducible apply State.ssiReject_inv
    | with_reducible apply State.tngDeposit_inv
    | split
    | dsimp only

theorem execStandstillTimeout_inv (c : Fin 32) {s : State} (hs : s.Inv) : SoundOut (execStandstillTimeout c s) := by
  unfold execStandstillTimeout
  repeat' first
    | with_reducible assumption
    | with_reducible apply SoundOut.next
    | with_reducible apply State.tngStill_inv
    | with_reducible apply State.advanceCell_inv
    | split

theorem execTongsClear_inv (c : Fin 32) {s : State} (hs : s.Inv) : SoundOut (execTongsClear c s) := by
  unfold execTongsClear
  repeat' first
    | with_reducible assumption
    | with_reducible apply SoundOut.next
    | with_reducible apply State.Inv.wr
    | with_reducible apply State.setTngCh_inv

theorem execProbeArm_inv (p : Fin 8) {s : State} (hs : s.Inv) : SoundOut (execProbeArm p s) := by
  unfold execProbeArm
  repeat' first
    | with_reducible assumption
    | with_reducible apply SoundOut.next
    | with_reducible apply State.Inv.wr

theorem execProbeDisarm_inv (p : Fin 8) {s : State} (hs : s.Inv) : SoundOut (execProbeDisarm p s) := by
  unfold execProbeDisarm
  repeat' first
    | with_reducible assumption
    | with_reducible apply SoundOut.next
    | with_reducible apply State.disarm_inv

theorem execProbeLatch_inv (p : Fin 8) (rising : Bool) (te : DWord) (skew : Fin 5) {s : State} (hs : s.Inv) : SoundOut (execProbeLatch p rising te skew s) := by
  unfold execProbeLatch
  repeat' first
    | with_reducible assumption
    | with_reducible apply SoundOut.next
    | with_reducible apply SoundOut.ite
    | with_reducible apply State.filtered_inv
    | with_reducible apply State.bump_inv
    | with_reducible apply State.raise_inv
    | with_reducible apply State.post_inv
    | with_reducible apply State.disarm_inv
    | split
    | (unfold State.Inv; dsimp only; apply State.Inv.parts)

theorem execTngSample_inv (r : Fin 64) {s : State} (hs : s.Inv) : SoundOut (execTngSample r s) := by
  unfold execTngSample
  repeat' first
    | with_reducible assumption
    | with_reducible apply SoundOut.next
    | with_reducible apply State.runDesc_inv
    | with_reducible apply State.fail_inv
    | with_reducible apply State.tngStill_inv
    | with_reducible apply State.complete_inv
    | split
    | dsimp only
    | (with_reducible intro _ _ _)

end Sys2Proof.Machine
end

