-- ==== Sys2Proof/Laws/Inv/Temper.lean ====
section
/-! SUPPORT. The invariant `State.Inv` is kept by every function of Machine/Temper.lean. -/

namespace Sys2Proof.Machine

theorem State.endProgram_inv {s : State} (hs : s.Inv) (n : Nat) : (State.endProgram s n).Inv := by
  unfold State.endProgram
  repeat' first
    | with_reducible assumption
    | with_reducible apply State.Inv.ite
    | with_reducible apply State.writeSetPoint_inv
    | with_reducible apply State.setEng_inv
    | with_reducible apply State.Inv.wr
    | (with_reducible apply State.Inv.foldl; intro _ _ _)

theorem State.initEngine_inv {s : State} (hs : s.Inv) (n : Nat) : (State.initEngine s n).Inv := by
  unfold State.initEngine
  repeat' first
    | with_reducible assumption
    | with_reducible apply State.Inv.wr
    | (with_reducible apply State.Inv.foldl; intro _ _ _)
    | split
    | dsimp only
    | with_reducible apply State.setEng_inv

theorem State.exhaustCheck_inv {s : State} (hs : s.Inv) (n : Nat) (c : Nat) (t : Nat) : (State.exhaustCheck s n c t).Inv := by
  unfold State.exhaustCheck
  repeat' first
    | with_reducible assumption
    | with_reducible apply State.setEng_inv
    | with_reducible apply State.Inv.wr
    | with_reducible apply State.holdChain_inv
    | with_reducible apply State.tmpEvent_inv
    | (with_reducible apply State.Inv.foldl; intro _ _ _)
    | split
    | (unfold State.Inv; dsimp only; apply State.Inv.parts)

theorem State.switchWindow_inv {s : State} (hs : s.Inv) (n : Nat) (c : Nat) (t : Nat) : (State.switchWindow s n c t).Inv := by
  unfold State.switchWindow
  repeat' first
    | with_reducible assumption
    | with_reducible apply State.Inv.wr
    | with_reducible apply State.setEng_inv
    | with_reducible apply State.exhaustCheck_inv
    | (with_reducible apply State.Inv.foldl; intro _ _ _)
    | split
    | (unfold State.Inv; dsimp only; apply State.Inv.parts)

theorem State.rebase_inv {s : State} (hs : s.Inv) (n : Nat) (j : Nat) : (State.rebase s n j).Inv := by
  unfold State.rebase
  repeat' first
    | with_reducible assumption
    | with_reducible apply State.Inv.ite
    | with_reducible apply State.setEng_inv

theorem State.engineInstant_inv {s : State} (hs : s.Inv) (n : Nat) (t : Nat) : (State.engineInstant s n t).Inv := by
  unfold State.engineInstant
  repeat' first
    | with_reducible assumption
    | with_reducible apply State.Inv.ite
    | with_reducible apply State.endProgram_inv
    | with_reducible apply State.initEngine_inv
    | with_reducible apply State.setEng_inv
    | with_reducible apply State.switchWindow_inv
    | with_reducible apply State.rebase_inv
    | (with_reducible apply State.Inv.foldl; intro _ _ _)

theorem State.overrun_inv {s : State} (hs : s.Inv) (n : Nat) : (State.overrun s n).Inv := by
  unfold State.overrun
  repeat' first
    | with_reducible assumption
    | with_reducible apply State.Inv.ite
    | with_reducible apply State.setEng_inv
    | with_reducible apply State.tmpEvent_inv
    | with_reducible apply State.bump_inv
    | with_reducible apply State.Inv.wr
    | with_reducible apply State.trapEngine_inv

theorem State.syncEngine_inv {s : State} (hs : s.Inv) (n : Nat) : (State.syncEngine s n).Inv := by
  unfold State.syncEngine
  repeat' first
    | with_reducible assumption
    | with_reducible apply State.Inv.wr
    | with_reducible apply State.put_inv

theorem State.pageSwitch_inv {s : State} (hs : s.Inv) (n : Nat) : (State.pageSwitch s n).Inv := by
  unfold State.pageSwitch
  repeat' first
    | with_reducible assumption
    | with_reducible apply State.Inv.ite
    | with_reducible apply State.syncEngine_inv
    | with_reducible apply State.put_inv
    | with_reducible apply State.setEng_inv

theorem State.tickTunes_inv {s : State} (hs : s.Inv) (n : Nat) : (State.tickTunes s n).Inv := by
  unfold State.tickTunes
  repeat' first
    | with_reducible assumption
    | (unfold State.Inv; dsimp only; apply State.Inv.parts)

theorem State.setRef_inv {s : State} (hs : s.Inv) (n : Nat) (j : Nat) (p : Q) (v : Q) (a : Q) : (State.setRef s n j p v a).Inv := by
  unfold State.setRef
  repeat' first
    | with_reducible assumption
    | with_reducible apply State.near_inv
    | with_reducible apply State.setEng_inv

theorem State.kindleAxis_inv {s : State} (hs : s.Inv) (a : Nat) : (State.kindleAxis s a).Inv := by
  unfold State.kindleAxis
  repeat' first
    | with_reducible assumption
    | with_reducible apply State.wrBit_inv
    | with_reducible apply State.setEng_inv
    | with_reducible apply State.setRef_inv
    | split
    | (unfold State.Inv; dsimp only; apply State.Inv.parts)

theorem State.evalRef_inv {s : State} (hs : s.Inv) (n : Nat) (j : Nat) (t : Nat) : (State.evalRef s n j t).Inv := by
  unfold State.evalRef
  repeat' first
    | with_reducible assumption
    | with_reducible apply State.setEng_inv
    | with_reducible apply State.setRef_inv
    | with_reducible apply State.tmpEvent_inv
    | split
    | (unfold State.Inv; dsimp only; apply State.Inv.parts)

theorem State.signal_inv {s : State} (hs : s.Inv) (t : Tune) : (State.signal s t).2.Inv := by
  unfold State.signal
  repeat' first
    | with_reducible assumption
    | with_reducible apply State.drawn_inv
    | split

theorem State.feReact_inv {s : State} (hs : s.Inv) (n : Nat) (j : Nat) : (State.feReact s n j).Inv := by
  unfold State.feReact
  repeat' first
    | with_reducible assumption
    | with_reducible apply State.Inv.ite
    | with_reducible apply State.endTune_inv
    | with_reducible apply State.stopChain_inv
    | with_reducible apply State.setEng_inv
    | (with_reducible apply State.Inv.foldl; intro _ _ _)

theorem State.supervise_inv {s : State} (hs : s.Inv) (n : Nat) (j : Nat) (err : Option Int) : (State.supervise s n j err).Inv := by
  unfold State.supervise
  repeat' first
    | with_reducible assumption
    | with_reducible apply State.Inv.ite
    | with_reducible apply State.near_inv
    | with_reducible apply State.Inv.wr
    | with_reducible apply State.tmpEvent_inv
    | with_reducible apply State.feReact_inv
    | split

theorem State.runSlotRef_inv {s : State} (hs : s.Inv) (n : Nat) (j : Nat) (t : Nat) (b : List Byte) (ix : Nat) (m : Meas) : (State.runSlotRef s n j t b ix m).Inv := by
  unfold State.runSlotRef
  repeat' first
    | with_reducible assumption
    | with_reducible apply State.evalRef_inv
    | with_reducible apply State.signal_inv
    | with_reducible apply State.setEng_inv
    | with_reducible apply State.supervise_inv
    | split

theorem State.callHook_inv {s : State} (hs : s.Inv) (n : Nat) (j : Nat) (blk : List Byte) : (State.callHook s n j blk).2.2.Inv := by
  unfold State.callHook
  repeat' first
    | with_reducible assumption
    | with_reducible apply State.setSram_inv
    | with_reducible apply State.setPx_inv

theorem State.runLaw_inv {s : State} (hs : s.Inv) (n : Nat) (j : Nat) (fb : List Meas) : (State.runLaw s n j fb).2.Inv := by
  unfold State.runLaw
  repeat' first
    | with_reducible assumption
    | with_reducible apply State.setEng_inv
    | with_reducible apply State.narrowSat_inv
    | with_reducible apply State.callHook_inv
    | split
    | (unfold State.Inv; dsimp only; apply State.Inv.parts)

theorem State.setPoint_inv {s : State} (hs : s.Inv) (n : Nat) (j : Nat) (idx : Nat) (c : Int) : (State.setPoint s n j idx c).Inv := by
  unfold State.setPoint
  repeat' first
    | with_reducible assumption
    | with_reducible apply State.signal_inv
    | with_reducible apply State.setEng_inv
    | with_reducible apply State.near_inv
    | with_reducible apply State.put_inv
    | split

theorem State.runSlots_inv {s : State} (hs : s.Inv) (n : Nat) (fb : List Meas) : (State.runSlots s n fb).Inv := by
  unfold State.runSlots
  repeat' first
    | with_reducible assumption
    | with_reducible apply State.Inv.ite
    | with_reducible apply State.kindleAxis_inv
    | with_reducible apply State.runSlotRef_inv
    | with_reducible apply State.runLaw_inv
    | with_reducible apply State.setPoint_inv
    | (with_reducible apply State.Inv.foldl; intro _ _ _)

theorem State.captureRow_inv {s : State} (hs : s.Inv) (n : Nat) (i : Nat) : (State.captureRow s n i).Inv := by
  unfold State.captureRow
  repeat' first
    | with_reducible assumption
    | with_reducible apply State.Inv.ite
    | with_reducible apply State.setCapset_inv

theorem execTemperProgramStart_inv (n : Fin 64) (fb : List Meas) (clocks : BitVec 24) (sramError : Bool) {s : State} (hs : s.Inv) : SoundOut (execTemperProgramStart n fb clocks sramError s) := by
  unfold execTemperProgramStart
  repeat' first
    | with_reducible assumption
    | with_reducible apply SoundOut.next
    | with_reducible apply SoundOut.ite
    | with_reducible apply State.endProgram_inv
    | with_reducible apply State.trapEngine_inv
    | with_reducible apply State.setEng_inv
    | with_reducible apply State.Inv.wr
    | with_reducible apply State.tickTunes_inv
    | with_reducible apply State.runSlots_inv
    | with_reducible apply State.tngLate_inv
    | with_reducible apply State.captureRow_inv
    | (with_reducible apply State.Inv.foldl; intro _ _ _)

theorem execTemperEnable_inv (n : Fin 64) {s : State} (hs : s.Inv) : SoundOut (execTemperEnable n s) := by
  unfold execTemperEnable
  repeat' first
    | with_reducible assumption
    | with_reducible apply SoundOut.next
    | with_reducible apply SoundOut.ite
    | with_reducible apply State.wrIgnored_inv
    | with_reducible apply State.setEng_inv
    | with_reducible apply State.Inv.wr

theorem State.disableEngine_inv {s : State} (hs : s.Inv) (n : Nat) : (State.disableEngine s n).Inv := by
  unfold State.disableEngine
  repeat' first
    | with_reducible assumption
    | with_reducible apply State.Inv.ite
    | with_reducible apply State.Inv.wr
    | with_reducible apply State.setEng_inv

theorem execTemperDisable_inv (n : Fin 64) {s : State} (hs : s.Inv) : SoundOut (execTemperDisable n s) := by
  unfold execTemperDisable
  repeat' first
    | with_reducible assumption
    | with_reducible apply SoundOut.next
    | with_reducible apply SoundOut.ite
    | with_reducible apply State.endProgram_inv
    | with_reducible apply State.disableEngine_inv
    | with_reducible apply State.wrIgnored_inv

theorem execTemperResetWrite_inv (n : Fin 64) {s : State} (hs : s.Inv) : SoundOut (execTemperResetWrite n s) := by
  unfold execTemperResetWrite
  repeat' first
    | with_reducible assumption
    | with_reducible apply SoundOut.next
    | with_reducible apply State.Inv.wr
    | with_reducible apply State.trapEngine_inv
    | with_reducible apply State.setEng_inv
    | (unfold State.Inv; dsimp only; apply State.Inv.parts)

theorem execFeClear_inv (n : Fin 64) (j : Fin 16) {s : State} (hs : s.Inv) : SoundOut (execFeClear n j s) := by
  unfold execFeClear
  repeat' first
    | with_reducible assumption
    | with_reducible apply SoundOut.next
    | with_reducible apply State.setEng_inv
    | with_reducible apply State.Inv.wr

theorem execLawLoad_inv (r : Fin 64) (io : HostIo) {s : State} (hs : s.Inv) : SoundOut (execLawLoad r io s) := by
  unfold execLawLoad
  repeat' first
    | with_reducible assumption
    | with_reducible apply SoundOut.next
    | with_reducible apply State.runDesc_inv
    | with_reducible apply State.withBody_inv
    | with_reducible apply State.fail_inv
    | with_reducible apply State.setEng_inv
    | with_reducible apply State.complete_inv
    | with_reducible apply State.syncEngine_inv
    | with_reducible apply State.Inv.wr
    | split
    | dsimp only
    | (with_reducible intro _ _ _)

theorem execInject_inv (r : Fin 64) (io : HostIo) {s : State} (hs : s.Inv) : SoundOut (execInject r io s) := by
  unfold execInject
  repeat' first
    | with_reducible assumption
    | with_reducible apply SoundOut.next
    | with_reducible apply State.runDesc_inv
    | with_reducible apply State.fail_inv
    | split
    | (unfold State.Inv; dsimp only; apply State.Inv.parts)
    | (with_reducible intro _ _ _)

theorem execCaptureSet_inv (r : Fin 64) {s : State} (hs : s.Inv) : SoundOut (execCaptureSet r s) := by
  unfold execCaptureSet
  repeat' first
    | with_reducible assumption
    | with_reducible apply SoundOut.next
    | with_reducible apply State.runDesc_inv
    | with_reducible apply State.fail_inv
    | with_reducible apply State.complete_inv
    | with_reducible apply State.setCapset_inv
    | split
    | dsimp only
    | (with_reducible intro _ _ _)

theorem execCapture_inv (r : Fin 64) {s : State} (hs : s.Inv) : SoundOut (execCapture r s) := by
  unfold execCapture
  repeat' first
    | with_reducible assumption
    | with_reducible apply SoundOut.next
    | with_reducible apply State.runDesc_inv
    | with_reducible apply State.fail_inv
    | split
    | (unfold State.Inv; dsimp only; apply State.Inv.parts)
    | (with_reducible intro _ _ _)

theorem execFra_inv (r : Fin 64) {s : State} (hs : s.Inv) : SoundOut (execFra r s) := by
  unfold execFra
  repeat' first
    | with_reducible assumption
    | with_reducible apply SoundOut.next
    | with_reducible apply State.runDesc_inv
    | with_reducible apply State.fail_inv
    | split
    | (unfold State.Inv; dsimp only; apply State.Inv.parts)
    | (with_reducible intro _ _ _)

theorem execInjectionStart_inv (r : Fin 64) {s : State} (hs : s.Inv) : SoundOut (execInjectionStart r s) := by
  unfold execInjectionStart
  repeat' first
    | with_reducible assumption
    | with_reducible apply SoundOut.next
    | with_reducible apply State.setCapset_inv
    | with_reducible apply State.syncEngine_inv
    | with_reducible apply State.syncTune_inv
    | split
    | (unfold State.Inv; dsimp only; apply State.Inv.parts)

theorem execInjectionEnd_inv (r : Fin 64) {s : State} (hs : s.Inv) : SoundOut (execInjectionEnd r s) := by
  unfold execInjectionEnd
  repeat' first
    | with_reducible assumption
    | with_reducible apply SoundOut.next
    | with_reducible apply SoundOut.ite
    | with_reducible apply State.syncEngine_inv
    | with_reducible apply State.endTune_inv
    | with_reducible apply State.stopCapture_inv
    | with_reducible apply State.syncTune_inv
    | with_reducible apply State.complete_inv
    | split
    | (unfold State.Inv; dsimp only; apply State.Inv.parts)

theorem execCaptureDrain_inv (i : Fin 16) {s : State} (hs : s.Inv) : SoundOut (execCaptureDrain i s) := by
  unfold execCaptureDrain
  refine SoundOut.ite (.next hs) (.next (State.setCapset_inv ?_ _ _))
  exact hs.withDdr (Memory.wf_writeBytes _ _ (Memory.wf_writeBytes _ _ hs.wf_ddr))

theorem execFraStart_inv (r : Fin 64) {s : State} (hs : s.Inv) : SoundOut (execFraStart r s) := by
  unfold execFraStart
  repeat' first
    | with_reducible assumption
    | with_reducible apply SoundOut.next
    | with_reducible apply State.syncTune_inv
    | split
    | (unfold State.Inv; dsimp only; apply State.Inv.parts)

theorem State.endFra_inv {s : State} (hs : s.Inv) (f : Fra) (io : HostIo) (avg : Nat) (status : Nat) : (State.endFra s f io avg status).Inv := by
  unfold State.endFra
  repeat' first
    | with_reducible assumption
    | with_reducible apply State.syncTune_inv
    | with_reducible apply State.hostResult_inv
    | split
    | (unfold State.Inv; dsimp only; apply State.Inv.parts)

theorem execFraComplete_inv (r : Fin 64) (io : HostIo) {s : State} (hs : s.Inv) : SoundOut (execFraComplete r io s) := by
  unfold execFraComplete
  repeat' first
    | with_reducible assumption
    | with_reducible apply SoundOut.next
    | with_reducible apply State.endFra_inv
    | split

theorem execFraDeadline_inv (r : Fin 64) (io : HostIo) {s : State} (hs : s.Inv) : SoundOut (execFraDeadline r io s) := by
  unfold execFraDeadline
  repeat' first
    | with_reducible assumption
    | with_reducible apply SoundOut.next
    | with_reducible apply State.advanceCell_inv
    | with_reducible apply State.endFra_inv
    | with_reducible apply State.drawn_inv
    | split

theorem execProgLoad_inv (r : Fin 64) (io : HostIo) (sig : Bool) {s : State} (hs : s.Inv) : SoundOut (execProgLoad r io sig s) := by
  unfold execProgLoad
  repeat' first
    | with_reducible assumption
    | with_reducible apply SoundOut.next
    | with_reducible apply State.runDesc_inv
    | with_reducible apply State.withBody_inv
    | with_reducible apply State.fail_inv
    | with_reducible apply State.setEng_inv
    | with_reducible apply State.setSram_inv
    | with_reducible apply State.complete_inv
    | with_reducible apply State.syncEngine_inv
    | with_reducible apply State.Inv.wr
    | split
    | dsimp only
    | (with_reducible intro _ _ _)

theorem execProgClear_inv (r : Fin 64) {s : State} (hs : s.Inv) : SoundOut (execProgClear r s) := by
  unfold execProgClear
  repeat' first
    | with_reducible assumption
    | with_reducible apply SoundOut.next
    | with_reducible apply State.runDesc_inv
    | with_reducible apply State.fail_inv
    | with_reducible apply State.setEng_inv
    | with_reducible apply State.setSram_inv
    | with_reducible apply State.complete_inv
    | with_reducible apply State.syncEngine_inv
    | with_reducible apply State.Inv.wr
    | split
    | dsimp only
    | (with_reducible intro _ _ _)

theorem execBgStart_inv (n : Fin 64) {s : State} (hs : s.Inv) : SoundOut (execBgStart n s) := by
  unfold execBgStart
  repeat' first
    | with_reducible assumption
    | with_reducible apply SoundOut.next
    | with_reducible apply SoundOut.ite
    | with_reducible apply State.wrIgnored_inv
    | with_reducible apply State.setEng_inv
    | with_reducible apply State.Inv.wr

theorem execBackgroundPreemption_inv (n : Fin 64) {s : State} (hs : s.Inv) : SoundOut (execBackgroundPreemption n s) := by
  unfold execBackgroundPreemption
  repeat' first
    | with_reducible assumption
    | with_reducible apply SoundOut.next
    | with_reducible apply SoundOut.ite
    | with_reducible apply State.bump_inv
    | with_reducible apply State.setPx_inv

end Sys2Proof.Machine
end

