-- ==== Sys2Proof/Laws/Inv/CmbSync.lean ====
section
/-! SUPPORT. The invariant `State.Inv` is kept by every function of Machine/CmbSync.lean. -/

namespace Sys2Proof.Machine

theorem State.setMaster_inv {s : State} (hs : s.Inv) (g : Nat) (node : Nat) : (State.setMaster s g node).Inv := by
  unfold State.setMaster
  repeat' first
    | with_reducible assumption
    | with_reducible apply State.Inv.ite
    | with_reducible apply State.put_inv
    | with_reducible apply State.Inv.wr
    | with_reducible apply State.syncHoldover_inv

theorem State.followPartner_inv {s : State} (hs : s.Inv) : (State.followPartner s).Inv := by
  unfold State.followPartner
  repeat' first
    | with_reducible assumption
    | with_reducible apply State.Inv.ite
    | with_reducible apply State.setMaster_inv
    | with_reducible apply State.setSeg_inv
    | (with_reducible apply State.Inv.foldl; intro _ _ _)

theorem State.fallSilent_inv {s : State} (hs : s.Inv) : (State.fallSilent s).Inv := by
  unfold State.fallSilent
  repeat' first
    | with_reducible assumption
    | with_reducible apply State.raise_inv
    | with_reducible apply State.followPartner_inv
    | with_reducible apply State.Inv.wr
    | with_reducible apply State.setMode_inv
    | with_reducible apply State.complete_inv
    | (with_reducible apply State.Inv.foldl; intro _ _ _)
    | split
    | (unfold State.Inv; dsimp only; apply State.Inv.parts)

theorem State.dataEvent_inv {s : State} (hs : s.Inv) (g : Nat) (code : Nat) (d : optParam DWord 0) : (State.dataEvent s g code d).Inv := by
  unfold State.dataEvent
  repeat' first
    | with_reducible assumption
    | with_reducible apply State.raise_inv

theorem State.syncEvent_inv {s : State} (hs : s.Inv) (g : Nat) (code : Nat) (d : optParam DWord 0) : (State.syncEvent s g code d).Inv := by
  unfold State.syncEvent
  repeat' first
    | with_reducible assumption
    | with_reducible apply State.raise_inv

theorem State.setGuard_inv {s : State} (hs : s.Inv) (g : Nat) (b : Bool) (v : Guard) (closed : Bool) : (State.setGuard s g b v closed).Inv := by
  unfold State.setGuard
  repeat' first
    | with_reducible assumption
    | with_reducible apply State.put_inv
    | with_reducible apply State.setSeg_inv

theorem State.setGuards_inv {s : State} (hs : s.Inv) (g : Nat) (closed : Bool) : (State.setGuards s g closed).Inv := by
  unfold State.setGuards
  repeat' first
    | with_reducible assumption
    | with_reducible apply State.setGuard_inv

theorem State.enterCmb_inv {s : State} (hs : s.Inv) (g : Nat) (k : Nat) : (State.enterCmb s g k).Inv := by
  unfold State.enterCmb
  repeat' first
    | with_reducible assumption
    | with_reducible apply State.Inv.wr
    | with_reducible apply State.setSeg_inv

theorem State.dropCycle_inv {s : State} (hs : s.Inv) (g : Nat) : (State.dropCycle s g).Inv := by
  unfold State.dropCycle
  repeat' first
    | with_reducible assumption
    | with_reducible apply State.Inv.ite
    | with_reducible apply State.Inv.wr

theorem State.collide_inv {s : State} (hs : s.Inv) (g : Nat) : (State.collide s g).Inv := by
  unfold State.collide
  repeat' first
    | with_reducible assumption
    | with_reducible apply State.setGuards_inv
    | with_reducible apply State.enterCmb_inv
    | with_reducible apply State.dropCycle_inv
    | with_reducible apply State.syncEvent_inv
    | with_reducible apply State.bump_inv
    | with_reducible apply State.setSeg_inv

theorem State.setLearn_inv {s : State} (hs : s.Inv) (g : Nat) (b : Bool) (k : Nat) (v : Learn) : (State.setLearn s g b k v).Inv := by
  unfold State.setLearn
  repeat' first
    | with_reducible assumption
    | with_reducible apply State.setSeg_inv
    | with_reducible apply State.put_inv
    | with_reducible apply State.wrS_inv

theorem State.forget_inv {s : State} (hs : s.Inv) (g : Nat) (keep : Option Nat) : (State.forget s g keep).Inv := by
  unfold State.forget
  repeat' first
    | with_reducible assumption
    | with_reducible apply State.Inv.ite
    | with_reducible apply State.setLearn_inv
    | (with_reducible apply State.Inv.foldl; intro _ _ _)

theorem State.enterIntegrate_inv {s : State} (hs : s.Inv) (g : Nat) (k : Nat) (count : Nat) (action : DWord) : (State.enterIntegrate s g k count action).Inv := by
  unfold State.enterIntegrate
  repeat' first
    | with_reducible assumption
    | with_reducible apply State.forget_inv
    | with_reducible apply State.setGuards_inv
    | with_reducible apply State.enterCmb_inv
    | with_reducible apply State.setMaster_inv
    | with_reducible apply State.setSeg_inv

theorem State.queueMsg_inv {s : State} (hs : s.Inv) (g : Nat) (id : Option Nat) (m : CmbMsg) : (State.queueMsg s g id m).Inv := by
  unfold State.queueMsg
  repeat' first
    | with_reducible assumption
    | with_reducible apply State.setSeg_inv
    | split

theorem State.learnCycle_inv {s : State} (hs : s.Inv) (g : Nat) (all : Bool) : (State.learnCycle s g all).Inv := by
  unfold State.learnCycle
  repeat' first
    | with_reducible assumption
    | with_reducible apply State.Inv.ite
    | with_reducible apply State.setSeg_inv
    | with_reducible apply State.setLearn_inv
    | (with_reducible apply State.Inv.foldl; intro _ _ _)

theorem State.enterListen_inv {s : State} (hs : s.Inv) (g : Nat) : (State.enterListen s g).Inv := by
  unfold State.enterListen
  repeat' first
    | with_reducible assumption
    | with_reducible apply State.setGuards_inv
    | with_reducible apply State.enterCmb_inv
    | with_reducible apply State.dropCycle_inv
    | with_reducible apply State.setMaster_inv
    | with_reducible apply State.setSeg_inv

theorem State.segOff_inv {s : State} (hs : s.Inv) (g : Nat) : (State.segOff s g).Inv := by
  unfold State.segOff
  repeat' first
    | with_reducible assumption
    | with_reducible apply State.setMaster_inv
    | with_reducible apply State.setGuards_inv
    | with_reducible apply State.enterCmb_inv
    | with_reducible apply State.Inv.wr
    | with_reducible apply State.setSeg_inv

theorem State.enterSync_inv {s : State} (hs : s.Inv) (g : Nat) (own : Bool) : (State.enterSync s g own).Inv := by
  unfold State.enterSync
  repeat' first
    | with_reducible assumption
    | with_reducible apply State.enterCmb_inv
    | with_reducible apply State.syncEvent_inv
    | with_reducible apply State.setSeg_inv

theorem State.enterColdstart_inv {s : State} (hs : s.Inv) (g : Nat) : (State.enterColdstart s g).Inv := by
  unfold State.enterColdstart
  repeat' first
    | with_reducible assumption
    | with_reducible apply State.advanceCell_inv
    | with_reducible apply State.syncEvent_inv
    | with_reducible apply State.setGuards_inv
    | with_reducible apply State.enterCmb_inv
    | with_reducible apply State.firstLock_inv
    | with_reducible apply State.placeCycle_inv
    | with_reducible apply State.queueMsg_inv
    | split

theorem State.cycleEnd_inv {s : State} (hs : s.Inv) (g : Nat) : (State.cycleEnd s g).Inv := by
  unfold State.cycleEnd
  repeat' first
    | with_reducible assumption
    | with_reducible apply State.Inv.ite
    | with_reducible apply State.learnCycle_inv
    | with_reducible apply State.setSeg_inv

theorem State.cycleStart_inv {s : State} (hs : s.Inv) (g : Nat) : (State.cycleStart s g).Inv := by
  unfold State.cycleStart
  repeat' first
    | with_reducible assumption
    | with_reducible apply State.Inv.ite
    | with_reducible apply State.queueMsg_inv
    | with_reducible apply State.setSeg_inv

end Sys2Proof.Machine
end

