-- ==== Sys2Proof/Laws/Inv/Pair.lean ====
section
/-! SUPPORT. The invariant `State.Inv` is kept by every function of Machine/Pair.lean. -/

namespace Sys2Proof.Machine

theorem State.syncPair_inv {s : State} (hs : s.Inv) : (State.syncPair s).Inv := by
  unfold State.syncPair
  repeat' first
    | with_reducible assumption
    | with_reducible apply State.Inv.ite
    | with_reducible apply State.Inv.wr
    | with_reducible apply State.put_inv

theorem State.shadowContexts_inv {s : State} (hs : s.Inv) : (State.shadowContexts s).Inv := by
  unfold State.shadowContexts
  repeat' first
    | with_reducible assumption
    | with_reducible apply State.Inv.ite
    | with_reducible apply State.Inv.wr
    | (with_reducible apply State.Inv.foldl; intro _ _ _)

theorem State.enterStandby_inv {s : State} (hs : s.Inv) (cause : Nat) : (State.enterStandby s cause).Inv := by
  unfold State.enterStandby
  repeat' first
    | with_reducible assumption
    | with_reducible apply State.shadowContexts_inv
    | with_reducible apply State.followPartner_inv
    | with_reducible apply State.Inv.wr
    | with_reducible apply State.setMode_inv

theorem State.blwEvent_inv {s : State} (hs : s.Inv) (src : Nat) (code : Nat) (d : optParam DWord 0) : (State.blwEvent s src code d).Inv := by
  unfold State.blwEvent
  repeat' first
    | with_reducible assumption
    | with_reducible apply State.raise_inv

theorem State.pairInstant_inv {s : State} (hs : s.Inv) : (State.pairInstant s).Inv := by
  unfold State.pairInstant
  repeat' first
    | with_reducible assumption
    | with_reducible apply State.bump_inv
    | with_reducible apply State.syncPair_inv
    | split
    | (unfold State.Inv; dsimp only; apply State.Inv.parts)

theorem State.takeRole_inv {s : State} (hs : s.Inv) (target : Nat) (cause : Nat) : (State.takeRole s target cause).Inv := by
  unfold State.takeRole
  repeat' first
    | with_reducible assumption
    | with_reducible apply State.Inv.wr
    | with_reducible apply State.setMode_inv
    | with_reducible apply State.enterStandby_inv
    | with_reducible apply State.blwEvent_inv
    | split

end Sys2Proof.Machine
end

