-- ==== Sys2Proof/Laws/Inv/CmbFrame.lean ====
section
/-! SUPPORT. The invariant `State.Inv` is kept by every function of Machine/CmbFrame.lean. -/

namespace Sys2Proof.Machine

theorem State.countError_inv {s : State} (hs : s.Inv) (g : Nat) (b : Bool) (code : Nat) : (State.countError s g b code).Inv := by
  unfold State.countError
  repeat' first
    | with_reducible assumption
    | with_reducible apply State.Inv.ite
    | with_reducible apply State.bump_inv
    | with_reducible apply State.setSeg_inv
    | with_reducible apply State.dataEvent_inv

theorem State.countLoss_inv {s : State} (hs : s.Inv) (g : Nat) (b : Bool) (at_ : Nat) : (State.countLoss s g b at_).Inv := by
  unfold State.countLoss
  repeat' first
    | with_reducible assumption
    | with_reducible apply State.Inv.ite
    | with_reducible apply State.bump_inv
    | with_reducible apply State.setSeg_inv
    | with_reducible apply State.dataEvent_inv

theorem State.countMismatch_inv {s : State} (hs : s.Inv) (g : Nat) (at_ : Nat) : (State.countMismatch s g at_).Inv := by
  unfold State.countMismatch
  repeat' first
    | with_reducible assumption
    | with_reducible apply State.Inv.ite
    | with_reducible apply State.bump_inv
    | with_reducible apply State.setSeg_inv
    | with_reducible apply State.dataEvent_inv

theorem State.countLost_inv {s : State} (hs : s.Inv) (g : Nat) (at_ : Nat) (safety : Bool) : (State.countLost s g at_ safety).Inv := by
  unfold State.countLost
  repeat' first
    | with_reducible assumption
    | with_reducible apply State.Inv.ite
    | with_reducible apply State.bump_inv
    | with_reducible apply State.setSeg_inv
    | with_reducible apply State.dataEvent_inv

theorem State.countLate_inv {s : State} (hs : s.Inv) (g : Nat) (k : Nat) : (State.countLate s g k).Inv := by
  unfold State.countLate
  repeat' first
    | with_reducible assumption
    | with_reducible apply State.Inv.ite
    | with_reducible apply State.bump_inv
    | with_reducible apply State.setSeg_inv
    | with_reducible apply State.dataEvent_inv

theorem State.depositAt_inv {s : State} (hs : s.Inv) (g : Nat) (kind : Nat) (eng : Nat) (a : Nat) (bs : List Byte) : (State.depositAt s g kind eng a bs).Inv := by
  unfold State.depositAt
  repeat' first
    | with_reducible assumption
    | with_reducible apply State.setSram_inv
    | with_reducible apply State.setSeg_inv
    | split
    | (unfold State.Inv; dsimp only; apply State.Inv.parts)

theorem State.noteDeposit_inv {s : State} (hs : s.Inv) (g : Nat) (p : Place) : (State.noteDeposit s g p).Inv := by
  unfold State.noteDeposit
  repeat' first
    | with_reducible assumption
    | split
    | (unfold State.Inv; dsimp only; apply State.Inv.parts)

theorem State.depositSlot_inv {s : State} (hs : s.Inv) (g : Nat) (k : Nat) (r : SlotRx) : (State.depositSlot s g k r).Inv := by
  unfold State.depositSlot
  repeat' first
    | with_reducible assumption
    | with_reducible apply State.Inv.wr
    | with_reducible apply State.noteDeposit_inv
    | with_reducible apply State.depositAt_inv
    | (with_reducible apply State.Inv.foldl; intro _ _ _)
    | split

theorem State.heard_inv {s : State} (hs : s.Inv) (g : Nat) (node : Nat) : (State.heard s g node).Inv := by
  unfold State.heard
  repeat' first
    | with_reducible assumption
    | with_reducible apply State.Inv.ite
    | with_reducible apply State.setSeg_inv
    | with_reducible apply State.syncEvent_inv

theorem State.syncFrame_inv {s : State} (hs : s.Inv) (g : Nat) (id : Nat) (f : List Byte) (taken : Bool × DWord) (ca : Option DWord) (cb : Option DWord) : (State.syncFrame s g id f taken ca cb).Inv := by
  unfold State.syncFrame
  repeat' first
    | with_reducible assumption
    | with_reducible apply State.Inv.ite
    | with_reducible apply State.collide_inv
    | with_reducible apply State.enterIntegrate_inv
    | with_reducible apply State.setSeg_inv

theorem State.dynFrame_inv {s : State} (hs : s.Inv) (g : Nat) (id : Nat) (f : List Byte) (ca : Option DWord) (cb : Option DWord) : (State.dynFrame s g id f ca cb).Inv := by
  unfold State.dynFrame
  repeat' first
    | with_reducible assumption
    | with_reducible apply State.Inv.ite
    | with_reducible apply State.setSeg_inv
    | with_reducible apply State.dataEvent_inv
    | with_reducible apply State.bump_inv

theorem State.heardDyn_inv {s : State} (hs : s.Inv) (g : Nat) (k : Option Nat) (a : Option Copy) (b : Option Copy) : (State.heardDyn s g k a b).Inv := by
  unfold State.heardDyn
  repeat' first
    | with_reducible assumption
    | with_reducible apply State.Inv.ite
    | with_reducible apply State.setSeg_inv
    | split

theorem State.countCopies_inv {s : State} (hs : s.Inv) (g : Nat) (va : Nat) (vb : Nat) : (State.countCopies s g va vb).Inv := by
  unfold State.countCopies
  repeat' first
    | with_reducible assumption
    | with_reducible apply State.Inv.ite
    | with_reducible apply State.countError_inv
    | with_reducible apply State.bump_inv

theorem State.countPair_inv {s : State} (hs : s.Inv) (g : Nat) (id : Nat) (okA : Bool) (okB : Bool) (mism : Bool) : (State.countPair s g id okA okB mism).Inv := by
  unfold State.countPair
  repeat' first
    | with_reducible assumption
    | with_reducible apply State.Inv.ite
    | with_reducible apply State.countMismatch_inv
    | with_reducible apply State.countLoss_inv

theorem State.receive_inv {s : State} (hs : s.Inv) (g : Nat) (k : Option Nat) (a : Option Copy) (b : Option Copy) : (State.receive s g k a b).Inv := by
  unfold State.receive
  repeat' first
    | with_reducible assumption
    | with_reducible apply State.countPair_inv
    | with_reducible apply State.countCopies_inv
    | with_reducible apply State.heardDyn_inv
    | with_reducible apply State.heard_inv
    | with_reducible apply State.syncFrame_inv
    | with_reducible apply State.depositSlot_inv
    | with_reducible apply State.dynFrame_inv
    | with_reducible apply State.countLost_inv
    | split
    | (unfold State.Inv; dsimp only; apply State.Inv.parts)

theorem State.receiveOwn_inv {s : State} (hs : s.Inv) (g : Nat) (k : Nat) (a : Option Copy) (b : Option Copy) : (State.receiveOwn s g k a b).Inv := by
  unfold State.receiveOwn
  repeat' first
    | with_reducible assumption
    | with_reducible apply State.collide_inv
    | with_reducible apply State.fallSilent_inv
    | split
    | (unfold State.Inv; dsimp only; apply State.Inv.parts)

theorem State.sendFrame_inv {s : State} (hs : s.Inv) (g : Nat) (id : Nat) (f : List Byte) : (State.sendFrame s g id f).Inv := by
  unfold State.sendFrame
  repeat' first
    | with_reducible assumption
    | with_reducible apply State.setSeg_inv

theorem State.sendStatic_inv {s : State} (hs : s.Inv) (g : Nat) (k : Nat) : (State.sendStatic s g k).Inv := by
  unfold State.sendStatic
  repeat' first
    | with_reducible assumption
    | with_reducible apply State.Inv.ite
    | with_reducible apply State.sendFrame_inv
    | with_reducible apply State.setSeg_inv

theorem State.examine_inv {s : State} (hs : s.Inv) (g : Nat) (k : Nat) : (State.examine s g k).Inv := by
  unfold State.examine
  repeat' first
    | with_reducible assumption
    | with_reducible apply State.Inv.ite
    | with_reducible apply State.fillPlace_inv
    | with_reducible apply State.setTxSlot_inv
    | with_reducible apply State.setEng_inv
    | with_reducible apply State.countLate_inv
    | (with_reducible apply State.Inv.foldl; intro _ _ _)

theorem State.sendDyn_inv {s : State} (hs : s.Inv) (g : Nat) (id : Nat) : (State.sendDyn s g id).Inv := by
  unfold State.sendDyn
  repeat' first
    | with_reducible assumption
    | with_reducible apply State.Inv.ite
    | with_reducible apply State.setSeg_inv
    | with_reducible apply State.sendFrame_inv
    | split

theorem State.boundary_inv {s : State} (hs : s.Inv) (g : Nat) : (State.boundary s g).Inv := by
  unfold State.boundary
  repeat' first
    | with_reducible assumption
    | with_reducible apply State.Inv.ite
    | with_reducible apply State.setSeg_inv
    | with_reducible apply State.sendDyn_inv

end Sys2Proof.Machine
end

