-- ==== Sys2Proof/Laws/Inv/Combway.lean ====
section
/-! SUPPORT. The invariant `State.Inv` is kept by every function of Machine/Combway.lean. -/

namespace Sys2Proof.Machine

theorem execStagedScheduleApply_inv (g : Fin 8) {s : State} (hs : s.Inv) : SoundOut (execStagedScheduleApply g s) := by
  unfold execStagedScheduleApply
  repeat' first
    | with_reducible assumption
    | with_reducible apply SoundOut.next
    | with_reducible apply State.setSeg_inv
    | with_reducible apply State.dataEvent_inv
    | with_reducible apply State.Inv.wr
    | with_reducible apply State.installSched_inv
    | split
    | dsimp only

theorem State.startSegment_inv {s : State} (hs : s.Inv) (g : Nat) : (State.startSegment s g).Inv := by
  unfold State.startSegment
  repeat' first
    | with_reducible assumption
    | with_reducible apply State.Inv.wr
    | with_reducible apply State.setSeg_inv
    | with_reducible apply State.forget_inv
    | with_reducible apply State.enterListen_inv

theorem execSegmentEnable_inv (m : Master) (g : Fin 8) {s : State} (hs : s.Inv) : SoundOut (execSegmentEnable m g s) := by
  unfold execSegmentEnable
  repeat' first
    | with_reducible assumption
    | with_reducible apply SoundOut.next
    | with_reducible apply SoundOut.ite
    | with_reducible apply State.pvDropped_inv
    | with_reducible apply State.wrIgnored_inv
    | with_reducible apply State.startSegment_inv

theorem execSegmentDisable_inv (m : Master) (g : Fin 8) {s : State} (hs : s.Inv) : SoundOut (execSegmentDisable m g s) := by
  unfold execSegmentDisable
  repeat' first
    | with_reducible assumption
    | with_reducible apply SoundOut.next
    | with_reducible apply SoundOut.ite
    | with_reducible apply State.pvDropped_inv
    | with_reducible apply State.Inv.wr
    | with_reducible apply State.setSeg_inv
    | with_reducible apply State.segOff_inv

theorem State.segInstant_inv {s : State} (hs : s.Inv) (g : Nat) : (State.segInstant s g).Inv := by
  unfold State.segInstant
  repeat' first
    | with_reducible assumption
    | with_reducible apply State.segOff_inv
    | with_reducible apply State.cycleEnd_inv
    | with_reducible apply State.moveRho_inv
    | with_reducible apply State.setSeg_inv
    | with_reducible apply State.cycleStart_inv
    | split

theorem State.kindleInstant_inv {s : State} (hs : s.Inv) : (State.kindleInstant s).Inv := by
  unfold State.kindleInstant
  repeat' first
    | with_reducible assumption
    | (with_reducible apply State.Inv.foldl; intro _ _ _)
    | split
    | (unfold State.Inv; dsimp only; apply State.Inv.parts)

theorem execCommonInstant_inv {s : State} (hs : s.Inv) : SoundOut (execCommonInstant s) := by
  unfold execCommonInstant
  repeat' first
    | with_reducible assumption
    | with_reducible apply SoundOut.next
    | with_reducible apply State.advanceCell_inv
    | with_reducible apply State.moveTick_inv
    | with_reducible apply State.Inv.wr
    | with_reducible apply State.setInstant_inv
    | with_reducible apply State.segInstant_inv
    | with_reducible apply State.engineInstant_inv
    | with_reducible apply State.steer_inv
    | with_reducible apply State.kindleInstant_inv
    | with_reducible apply State.pairInstant_inv
    | with_reducible apply State.tngInstant_inv
    | (with_reducible apply State.Inv.foldl; intro _ _ _)
    | split
    | (unfold State.Inv; dsimp only; apply State.Inv.parts)

theorem execFeedbackComplete_inv (g : Fin 8) {s : State} (hs : s.Inv) : SoundOut (execFeedbackComplete g s) := by
  unfold execFeedbackComplete
  repeat' first
    | with_reducible assumption
    | with_reducible apply SoundOut.next
    | with_reducible apply State.advanceCell_inv
    | split
    | (unfold State.Inv; dsimp only; apply State.Inv.parts)

theorem execErrorWindowRollover_inv {s : State} (hs : s.Inv) : SoundOut (execErrorWindowRollover s) := by
  unfold execErrorWindowRollover
  repeat' first
    | with_reducible assumption
    | with_reducible apply SoundOut.next
    | with_reducible apply State.advanceCell_inv
    | with_reducible apply State.setSeg_inv
    | (with_reducible apply State.Inv.foldl; intro _ _ _)

theorem execFrameReception_inv (g : Fin 8) (slot : Option (Fin 64)) (a : Option Copy) (b : Option Copy) {s : State} (hs : s.Inv) : SoundOut (execFrameReception g slot a b s) := by
  unfold execFrameReception
  repeat' first
    | with_reducible assumption
    | with_reducible apply SoundOut.next
    | with_reducible apply SoundOut.ite
    | with_reducible apply State.receiveOwn_inv
    | with_reducible apply State.receive_inv

theorem execMinislotBoundary_inv (g : Fin 8) {s : State} (hs : s.Inv) : SoundOut (execMinislotBoundary g s) := by
  unfold execMinislotBoundary
  repeat' first
    | with_reducible assumption
    | with_reducible apply SoundOut.next
    | with_reducible apply State.boundary_inv

theorem execDynamicFramePost_inv (g : Fin 8) (id : BitVec 10) (payload : List Byte) {s : State} (hs : s.Inv) : SoundOut (execDynamicFramePost g id payload s) := by
  unfold execDynamicFramePost
  repeat' first
    | with_reducible assumption
    | with_reducible apply SoundOut.next
    | with_reducible apply SoundOut.ite
    | with_reducible apply State.setSeg_inv
    | (unfold State.Inv; dsimp only; apply State.Inv.parts)

theorem execTransmitLeadExamination_inv (g : Fin 8) (k : Fin 64) {s : State} (hs : s.Inv) : SoundOut (execTransmitLeadExamination g k s) := by
  unfold execTransmitLeadExamination
  repeat' first
    | with_reducible assumption
    | with_reducible apply SoundOut.next
    | with_reducible apply SoundOut.ite
    | with_reducible apply State.overrun_inv
    | with_reducible apply State.endProgram_inv
    | with_reducible apply State.examine_inv
    | (with_reducible apply State.Inv.foldl; intro _ _ _)

theorem execStaticFrameTransmit_inv (g : Fin 8) (k : Fin 64) {s : State} (hs : s.Inv) : SoundOut (execStaticFrameTransmit g k s) := by
  unfold execStaticFrameTransmit
  repeat' first
    | with_reducible assumption
    | with_reducible apply SoundOut.next
    | with_reducible apply SoundOut.ite
    | with_reducible apply State.sendStatic_inv

theorem execListenTimeout_inv (g : Fin 8) {s : State} (hs : s.Inv) : SoundOut (execListenTimeout g s) := by
  unfold execListenTimeout
  repeat' first
    | with_reducible assumption
    | with_reducible apply SoundOut.next
    | with_reducible apply SoundOut.ite
    | with_reducible apply State.enterColdstart_inv
    | with_reducible apply State.advanceCell_inv

theorem execColdstartComplete_inv (g : Fin 8) {s : State} (hs : s.Inv) : SoundOut (execColdstartComplete g s) := by
  unfold execColdstartComplete
  repeat' first
    | with_reducible assumption
    | with_reducible apply SoundOut.next
    | with_reducible apply State.Inv.ite
    | with_reducible apply SoundOut.ite
    | with_reducible apply State.setMaster_inv
    | with_reducible apply State.firstLock_inv
    | with_reducible apply State.enterSync_inv

theorem execBackoffExpiry_inv (g : Fin 8) {s : State} (hs : s.Inv) : SoundOut (execBackoffExpiry g s) := by
  unfold execBackoffExpiry
  repeat' first
    | with_reducible assumption
    | with_reducible apply SoundOut.next
    | with_reducible apply SoundOut.ite
    | with_reducible apply State.enterColdstart_inv
    | with_reducible apply State.advanceCell_inv

theorem State.takeMsg_inv {s : State} (hs : s.Inv) (g : Nat) (t : Nat) :
    ∀ (tt : State) xx, State.takeMsg s g t = some (xx, tt) → tt.Inv := by
  intro tt xx e
  unfold State.takeMsg at e
  dsimp only at e
  split at e
  · cases e; exact State.setSeg_inv hs _ _
  · cases e

theorem execTimeMessage_inv (g : Fin 8) {s : State} (hs : s.Inv) : SoundOut (execTimeMessage g s) := by
  unfold execTimeMessage
  split
  · exact .next hs
  · rename_i m t he
    have ht := State.takeMsg_inv hs _ _ _ _ he
    exact .ite (.next ht) (.ite (.next (State.setSeg_inv ht _ _)) (.ite (.next (State.setSeg_inv ht _ _)) (.next ht)))

theorem execEchoReq_inv (g : Fin 8) {s : State} (hs : s.Inv) : SoundOut (execEchoReq g s) := by
  unfold execEchoReq
  split
  · exact .next hs
  · rename_i m t he
    have ht := State.takeMsg_inv hs _ _ _ _ he
    dsimp only
    exact SoundOut.ite (.next ht) (.next (State.queueMsg_inv ht _ _ _))

theorem execEchoResp_inv (g : Fin 8) {s : State} (hs : s.Inv) : SoundOut (execEchoResp g s) := by
  unfold execEchoResp
  split
  · exact .next hs
  · rename_i m t he
    have ht := State.takeMsg_inv hs _ _ _ _ he
    have hw : ∀ (t : State) f g (o : Option (Int × Int)), t.Inv →
        (match o with | some d => t.wrS f d.1 g | none => t).Inv := by
      intro t f g o h
      cases o with
      | none => exact h
      | some d => exact State.wrS_inv h _ _ _ _
    refine SoundOut.ite (.next ht) (.next (hw _ _ _ _ (hw _ _ _ _ (State.setSeg_inv ht _ _))))

theorem State.shiftOffsets_inv {s : State} (hs : s.Inv) (g : Nat) (d : Int) : (State.shiftOffsets s g d).Inv := by
  unfold State.shiftOffsets
  repeat' first
    | with_reducible assumption
    | with_reducible apply State.Inv.ite
    | with_reducible apply State.setLearn_inv
    | (with_reducible apply State.Inv.foldl; intro _ _ _)

theorem execIntegrationComplete_inv (g : Fin 8) {s : State} (hs : s.Inv) : SoundOut (execIntegrationComplete g s) := by
  unfold execIntegrationComplete
  repeat' first
    | with_reducible assumption
    | with_reducible apply SoundOut.next
    | with_reducible apply SoundOut.ite
    | with_reducible apply State.setLearn_inv
    | with_reducible apply State.enterSync_inv
    | with_reducible apply State.advanceCell_inv
    | with_reducible apply State.firstLock_inv
    | with_reducible apply State.shiftOffsets_inv
    | with_reducible apply State.placeCycle_inv
    | split

theorem execIntegrationLimitExpiry_inv (g : Fin 8) {s : State} (hs : s.Inv) : SoundOut (execIntegrationLimitExpiry g s) := by
  unfold execIntegrationLimitExpiry
  repeat' first
    | with_reducible assumption
    | with_reducible apply SoundOut.next
    | with_reducible apply SoundOut.ite
    | with_reducible apply State.enterListen_inv
    | with_reducible apply State.syncEvent_inv

theorem State.enterPassive_inv {s : State} (hs : s.Inv) (g : Nat) (e : Int) : (State.enterPassive s g e).Inv := by
  unfold State.enterPassive
  repeat' first
    | with_reducible assumption
    | with_reducible apply State.syncEvent_inv
    | with_reducible apply State.bump_inv
    | with_reducible apply State.enterCmb_inv

theorem State.correct_inv {s : State} (hs : s.Inv) (g : Nat) (e : Int) : (State.correct s g e).Inv := by
  unfold State.correct
  repeat' first
    | with_reducible assumption
    | with_reducible apply State.bump_inv
    | with_reducible apply State.setSeg_inv
    | with_reducible apply State.wrS_inv
    | split
    | (unfold State.Inv; dsimp only; apply State.Inv.parts)

theorem execClockCorrection_inv (g : Fin 8) {s : State} (hs : s.Inv) : SoundOut (execClockCorrection g s) := by
  unfold execClockCorrection
  repeat' first
    | with_reducible assumption
    | with_reducible apply SoundOut.next
    | with_reducible apply SoundOut.ite
    | with_reducible apply State.advanceCell_inv
    | with_reducible apply State.cycleStart_inv
    | with_reducible apply State.cycleEnd_inv
    | with_reducible apply State.correct_inv
    | with_reducible apply State.enterPassive_inv
    | split

theorem execPassiveRecovery_inv (g : Fin 8) {s : State} (hs : s.Inv) : SoundOut (execPassiveRecovery g s) := by
  unfold execPassiveRecovery
  repeat' first
    | with_reducible assumption
    | with_reducible apply SoundOut.next
    | with_reducible apply SoundOut.ite
    | with_reducible apply State.enterSync_inv

theorem execSyncMasterLoss_inv (g : Fin 8) {s : State} (hs : s.Inv) : SoundOut (execSyncMasterLoss g s) := by
  unfold execSyncMasterLoss
  repeat' first
    | with_reducible assumption
    | with_reducible apply SoundOut.next
    | with_reducible apply SoundOut.ite
    | with_reducible apply State.setSeg_inv
    | with_reducible apply State.syncEvent_inv
    | with_reducible apply State.setMaster_inv
    | with_reducible apply State.raise_inv
    | split

theorem execSyncFrameAbsence_inv (g : Fin 8) {s : State} (hs : s.Inv) : SoundOut (execSyncFrameAbsence g s) := by
  unfold execSyncFrameAbsence
  repeat' first
    | with_reducible assumption
    | with_reducible apply SoundOut.next
    | with_reducible apply SoundOut.ite
    | with_reducible apply State.enterListen_inv

theorem execRelearn_inv (g : Fin 8) {s : State} (hs : s.Inv) : SoundOut (execRelearn g s) := by
  unfold execRelearn
  repeat' first
    | with_reducible assumption
    | with_reducible apply SoundOut.next
    | with_reducible apply State.forget_inv

theorem execNodeLeft_inv (g : Fin 8) (node : Fin 32) {s : State} (hs : s.Inv) : SoundOut (execNodeLeft g node s) := by
  unfold execNodeLeft
  repeat' first
    | with_reducible assumption
    | with_reducible apply SoundOut.next
    | with_reducible apply SoundOut.ite
    | with_reducible apply State.syncEvent_inv
    | with_reducible apply State.setSeg_inv

theorem execGuardCut_inv (g : Fin 8) (slot : Option (Fin 64)) {s : State} (hs : s.Inv) : SoundOut (execGuardCut g slot s) := by
  unfold execGuardCut
  repeat' first
    | with_reducible assumption
    | with_reducible apply SoundOut.next
    | with_reducible apply State.syncEvent_inv
    | with_reducible apply State.bump_inv

theorem execGuardViewCompare_inv (g : Fin 8) (b : Bool) (diff : Word) {s : State} (hs : s.Inv) : SoundOut (execGuardViewCompare g b diff s) := by
  unfold execGuardViewCompare
  repeat' first
    | with_reducible assumption
    | with_reducible apply SoundOut.next
    | with_reducible apply State.Inv.ite
    | with_reducible apply SoundOut.ite
    | with_reducible apply State.wrS_inv
    | with_reducible apply State.setGuard_inv
    | with_reducible apply State.syncEvent_inv

theorem execGuardSyncLoss_inv (g : Fin 8) {s : State} (hs : s.Inv) : SoundOut (execGuardSyncLoss g s) := by
  unfold execGuardSyncLoss
  repeat' first
    | with_reducible assumption
    | with_reducible apply SoundOut.next
    | with_reducible apply State.Inv.ite
    | with_reducible apply State.setGuard_inv
    | (with_reducible apply State.Inv.foldl; intro _ _ _)

theorem execWaggleStart_inv (g : Fin 8) {s : State} (hs : s.Inv) : SoundOut (execWaggleStart g s) := by
  unfold execWaggleStart
  repeat' first
    | with_reducible assumption
    | with_reducible apply SoundOut.next
    | with_reducible apply SoundOut.ite
    | with_reducible apply State.wrIgnored_inv
    | with_reducible apply State.Inv.wr
    | with_reducible apply State.setSeg_inv

theorem execWaggleStop_inv (g : Fin 8) {s : State} (hs : s.Inv) : SoundOut (execWaggleStop g s) := by
  unfold execWaggleStop
  repeat' first
    | with_reducible assumption
    | with_reducible apply SoundOut.next
    | with_reducible apply SoundOut.ite
    | with_reducible apply State.setSeg_inv

theorem execWaggleShot_inv (g : Fin 8) (crossings : List (BitVec 16 × Bool)) {s : State} (hs : s.Inv) : SoundOut (execWaggleShot g crossings s) := by
  unfold execWaggleShot
  repeat' first
    | with_reducible assumption
    | with_reducible apply SoundOut.next
    | with_reducible apply State.Inv.ite
    | with_reducible apply SoundOut.ite
    | with_reducible apply State.setSeg_inv
    | with_reducible apply State.ticks_inv

theorem execWaggleDone_inv (g : Fin 8) {s : State} (hs : s.Inv) : SoundOut (execWaggleDone g s) := by
  unfold execWaggleDone
  repeat' first
    | with_reducible assumption
    | with_reducible apply SoundOut.next
    | with_reducible apply State.post_inv
    | with_reducible apply State.Inv.wr
    | with_reducible apply State.dataEvent_inv
    | split
    | dsimp only

end Sys2Proof.Machine
end

