-- ==== Sys2Proof/Laws/Inv/Planner.lean ====
section
/-! SUPPORT. The invariant `State.Inv` is kept by every function of Machine/Planner.lean. -/

namespace Sys2Proof.Machine

theorem State.abortSeg_inv {s : State} (hs : s.Inv) (c : Nat) (id : Nat) : (State.abortSeg s c id).1.Inv := by
  unfold State.abortSeg
  repeat' first
    | with_reducible assumption
    | with_reducible apply State.stopChain_inv
    | with_reducible apply State.endSeg_inv
    | with_reducible apply State.setChain_inv
    | with_reducible apply State.drawn_inv
    | with_reducible apply State.withdraw_inv
    | with_reducible apply State.stir_inv
    | split
    | (unfold State.Inv; dsimp only; apply State.Inv.parts)

theorem execCommitSignal_inv {s : State} (hs : s.Inv) : SoundOut (execCommitSignal s) := by
  unfold execCommitSignal
  repeat' first
    | with_reducible assumption
    | with_reducible apply SoundOut.next
    | with_reducible apply State.setEng_inv
    | (with_reducible apply State.Inv.foldl; intro _ _ _)
    | split
    | (unfold State.Inv; dsimp only; apply State.Inv.parts)

theorem State.queueSeg_inv {s : State} (hs : s.Inv) (r : Nat) (op : Nat) (io : HostIo) : (State.queueSeg s r op io).Inv := by
  unfold State.queueSeg
  repeat' first
    | with_reducible assumption
    | with_reducible apply State.fail_inv
    | with_reducible apply State.drawn_inv
    | with_reducible apply State.stir_inv
    | with_reducible apply State.setChain_inv
    | split

theorem execMoveJoint_inv (r : Fin 64) (io : HostIo) {s : State} (hs : s.Inv) : SoundOut (execMoveJoint r io s) := by
  unfold execMoveJoint
  repeat' first
    | with_reducible assumption
    | with_reducible apply SoundOut.next
    | with_reducible apply State.queueSeg_inv

theorem execMoveLine_inv (r : Fin 64) (io : HostIo) {s : State} (hs : s.Inv) : SoundOut (execMoveLine r io s) := by
  unfold execMoveLine
  repeat' first
    | with_reducible assumption
    | with_reducible apply SoundOut.next
    | with_reducible apply State.queueSeg_inv

theorem execMoveArc_inv (r : Fin 64) (io : HostIo) {s : State} (hs : s.Inv) : SoundOut (execMoveArc r io s) := by
  unfold execMoveArc
  repeat' first
    | with_reducible assumption
    | with_reducible apply SoundOut.next
    | with_reducible apply State.queueSeg_inv

theorem execMoveSpline_inv (r : Fin 64) (io : HostIo) {s : State} (hs : s.Inv) : SoundOut (execMoveSpline r io s) := by
  unfold execMoveSpline
  repeat' first
    | with_reducible assumption
    | with_reducible apply SoundOut.next
    | with_reducible apply State.queueSeg_inv

theorem execDwell_inv (r : Fin 64) {s : State} (hs : s.Inv) : SoundOut (execDwell r s) := by
  unfold execDwell
  repeat' first
    | with_reducible assumption
    | with_reducible apply SoundOut.next
    | with_reducible apply State.queueSeg_inv

theorem State.runNow_inv {s : State} (hs : s.Inv) (r : Nat) (opcode : Nat) (f : State → Desc → State)
    (hf : ∀ (t : State) d, t.Inv → (f t d).Inv) : (State.runNow s r opcode f).Inv := by
  unfold State.runNow
  split
  · exact hf _ _ (State.startDesc_inv hs _)
  · exact hs

theorem execHold_inv (r : Fin 64) {s : State} (hs : s.Inv) : SoundOut (execHold r s) := by
  unfold execHold
  repeat' first
    | with_reducible assumption
    | with_reducible apply SoundOut.next
    | with_reducible apply State.runNow_inv
    | with_reducible apply State.holdChain_inv
    | (with_reducible intro _ _ _)

theorem execStop_inv (r : Fin 64) {s : State} (hs : s.Inv) : SoundOut (execStop r s) := by
  unfold execStop
  repeat' first
    | with_reducible assumption
    | with_reducible apply SoundOut.next
    | with_reducible apply State.runNow_inv
    | with_reducible apply State.stopChain_inv
    | (with_reducible intro _ _ _)

theorem execResume_inv (r : Fin 64) {s : State} (hs : s.Inv) : SoundOut (execResume r s) := by
  unfold execResume
  repeat' first
    | with_reducible assumption
    | with_reducible apply SoundOut.next
    | with_reducible apply State.runNow_inv
    | with_reducible apply State.resumeChain_inv
    | (with_reducible intro _ _ _)

theorem execCancel_inv (r : Fin 64) {s : State} (hs : s.Inv) : SoundOut (execCancel r s) := by
  unfold execCancel
  repeat' first
    | with_reducible assumption
    | with_reducible apply SoundOut.next
    | with_reducible apply State.runNow_inv
    | with_reducible apply State.complete_inv
    | with_reducible apply State.discardAll_inv
    | with_reducible apply State.stopChain_inv
    | split
    | dsimp only
    | (with_reducible intro _ _ _)

theorem execSetAccel_inv (r : Fin 64) {s : State} (hs : s.Inv) : SoundOut (execSetAccel r s) := by
  unfold execSetAccel
  repeat' first
    | with_reducible assumption
    | with_reducible apply SoundOut.next
    | with_reducible apply State.runNow_inv
    | with_reducible apply State.setChain_inv
    | (with_reducible intro _ _ _)

theorem execStatus_inv (r : Fin 64) {s : State} (hs : s.Inv) : SoundOut (execStatus r s) := by
  unfold execStatus
  repeat' first
    | with_reducible assumption
    | with_reducible apply SoundOut.next
    | with_reducible apply State.runNow_inv
    | with_reducible apply State.complete_inv
    | with_reducible apply State.drawn_inv
    | (with_reducible intro _ _ _)

theorem execSegmentComplete_inv (c : Fin 16) {s : State} (hs : s.Inv) : SoundOut (execSegmentComplete c s) := by
  unfold execSegmentComplete
  repeat' first
    | with_reducible assumption
    | with_reducible apply SoundOut.next
    | with_reducible apply State.advanceCell_inv
    | with_reducible apply State.setChain_inv
    | with_reducible apply State.endSeg_inv
    | with_reducible apply State.drawn_inv
    | with_reducible apply State.applyLater_inv
    | with_reducible apply State.holdHere_inv
    | with_reducible apply State.startNext_inv
    | split
    | dsimp only

theorem execChainStandstill_inv (c : Fin 16) (rem : Word) (len : Word) {s : State} (hs : s.Inv) : SoundOut (execChainStandstill c rem len s) := by
  unfold execChainStandstill
  repeat' first
    | with_reducible assumption
    | with_reducible apply SoundOut.next
    | with_reducible apply State.endSeg_inv
    | with_reducible apply State.setChain_inv
    | with_reducible apply State.applyLater_inv
    | with_reducible apply State.discardAll_inv
    | with_reducible apply State.heldEvent_inv
    | with_reducible apply State.complete_inv
    | with_reducible apply State.resumeChain_inv
    | (with_reducible apply State.Inv.foldl; intro _ _ _)
    | split
    | dsimp only

theorem State.takeHold_inv {s : State} (hs : s.Inv) (c : Nat) : (State.takeHold s c).Inv := by
  unfold State.takeHold
  repeat' first
    | with_reducible assumption
    | with_reducible apply State.Inv.ite
    | with_reducible apply State.heldEvent_inv
    | with_reducible apply State.setChain_inv

theorem State.applyScales_inv {s : State} (hs : s.Inv) (c : Nat) : (State.applyScales s c).Inv := by
  unfold State.applyScales
  repeat' first
    | with_reducible assumption
    | with_reducible apply State.setChain_inv
    | with_reducible apply State.drawn_inv
    | with_reducible apply State.complete_inv
    | (with_reducible apply State.Inv.foldl; intro _ _ _)

theorem State.prepare_inv {s : State} (hs : s.Inv) (w : PlanWindow) : (State.prepare s w).Inv := by
  unfold State.prepare
  repeat' first
    | with_reducible assumption
    | with_reducible apply State.setEng_inv

theorem State.submitWork_inv {s : State} (hs : s.Inv) (tj : Nat) (w : PlanWork) : (s.submitWork tj w).Inv := by
  unfold State.submitWork
  dsimp only
  refine State.Inv.ite hs ?_
  have h1 : ∀ m, Memory.wf m = true → State.Inv { s with ddr := m } := fun m hm => hs.withDdr hm
  have h2 : ∀ (t : State) p, t.Inv → State.Inv { t with plan := p } := fun t p h => h
  have h3 : ∀ m, Memory.wf m = true →
      State.Inv (w.windows.foldl (fun s x => s.prepare x) { s with ddr := m }) := fun m hm =>
    State.Inv.foldl (fun t x h => State.prepare_inv h x) (h1 m hm)
  have hw : ∀ a b x y z u, Memory.wf (writeBytes (writeBytes (writeBytes s.ddr a x) b y) z u) = true := fun a b x y z u =>
    Memory.wf_writeBytes _ _ (Memory.wf_writeBytes _ _ (Memory.wf_writeBytes _ _ hs.wf_ddr))
  exact State.Inv.ite (State.enqueuePlanner_inv (h2 _ _ (h3 _ (hw _ _ _ _ _ _))) _ _) (h2 _ _ (h3 _ (hw _ _ _ _ _ _)))

theorem execPlanningTick_inv (work : List PlanWork) (unreachable : List (Fin 16)) {s : State} (hs : s.Inv) : SoundOut (execPlanningTick work unreachable s) := by
  unfold execPlanningTick
  repeat' first
    | with_reducible assumption
    | with_reducible apply State.stir_inv
    | with_reducible apply SoundOut.next
    | with_reducible apply State.Inv.ite
    | with_reducible apply SoundOut.ite
    | with_reducible apply State.takeHold_inv
    | with_reducible apply State.applyScales_inv
    | with_reducible apply State.refuseNext_inv
    | with_reducible apply State.extendRamp_inv
    | with_reducible apply State.submitWork_inv
    | (with_reducible apply State.Inv.foldl; intro _ _ _)

theorem execPlannerCompletion_inv (c : Fin 32) {s : State} (hs : s.Inv) : SoundOut (execPlannerCompletion c s) := by
  unfold execPlannerCompletion
  repeat' first
    | with_reducible assumption
    | with_reducible apply SoundOut.next
    | with_reducible apply State.setChain_inv
    | with_reducible apply State.raise_inv
    | with_reducible apply State.commitRamp_inv
    | (with_reducible apply State.Inv.foldl; intro _ _ _)
    | split
    | (unfold State.Inv; dsimp only; apply State.Inv.parts)
    | dsimp only

theorem execZoneRequestForm_inv (c : Fin 16) {s : State} (hs : s.Inv) : SoundOut (execZoneRequestForm c s) := by
  unfold execZoneRequestForm
  repeat' first
    | with_reducible assumption
    | with_reducible apply SoundOut.next
    | with_reducible apply State.refuseNext_inv
    | with_reducible apply State.askKeeper_inv
    | with_reducible apply State.setChain_inv
    | split
    | dsimp only

theorem State.zoneRepeat_inv {s : State} (hs : s.Inv) : (State.zoneRepeat s).Inv := by
  unfold State.zoneRepeat
  repeat' first
    | with_reducible assumption
    | with_reducible apply State.Inv.ite
    | with_reducible apply State.sendZone_inv
    | (with_reducible apply State.Inv.foldl; intro _ _ _)
    | split

theorem State.decideOne_inv {s : State} (hs : s.Inv) (taken : List Nat) (a : Asked) : (State.decideOne s taken a).1.Inv := by
  unfold State.decideOne
  repeat' first
    | with_reducible assumption
    | with_reducible apply State.setKeeper_inv
    | with_reducible apply State.sendZone_inv
    | with_reducible apply State.obtain_inv
    | (with_reducible apply State.Inv.foldl; intro _ _ _)
    | split
    | (unfold State.Inv; dsimp only; apply State.Inv.parts)

theorem execKeeperDecision_inv {s : State} (hs : s.Inv) : SoundOut (execKeeperDecision s) := by
  unfold execKeeperDecision
  have hz := State.zoneRepeat_inv hs
  generalize s.zoneRepeat = t at hz
  exact SoundOut.ite (.next hz) (.next (State.Inv.foldl_fst (p := (t, [])) (fun q a h => State.decideOne_inv h _ _) hz))

theorem execZoneWaitExpiry_inv (c : Fin 16) (deadline : Bool) {s : State} (hs : s.Inv) : SoundOut (execZoneWaitExpiry c deadline s) := by
  unfold execZoneWaitExpiry
  repeat' first
    | with_reducible assumption
    | with_reducible apply SoundOut.next
    | with_reducible apply State.advanceCell_inv
    | with_reducible apply State.raise_inv
    | with_reducible apply State.refuseNext_inv
    | split
    | dsimp only

theorem execZoneHoldLimitExpiry_inv (c : Fin 16) (z : Fin 32) {s : State} (hs : s.Inv) : SoundOut (execZoneHoldLimitExpiry c z s) := by
  unfold execZoneHoldLimitExpiry
  repeat' first
    | with_reducible assumption
    | with_reducible apply SoundOut.next
    | with_reducible apply State.advanceCell_inv
    | with_reducible apply State.holdChain_inv
    | with_reducible apply State.raise_inv
    | with_reducible apply State.setChain_inv
    | split
    | dsimp only

theorem execZoneRequestMsg_inv (m : ZoneMsg) {s : State} (hs : s.Inv) : SoundOut (execZoneRequestMsg m s) := by
  unfold execZoneRequestMsg
  repeat' first
    | with_reducible assumption
    | with_reducible apply SoundOut.next
    | with_reducible apply SoundOut.ite
    | with_reducible apply State.setKeeper_inv

theorem execZoneReleaseMsg_inv (m : ZoneMsg) {s : State} (hs : s.Inv) : SoundOut (execZoneReleaseMsg m s) := by
  unfold execZoneReleaseMsg
  repeat' first
    | with_reducible assumption
    | with_reducible apply SoundOut.next
    | with_reducible apply SoundOut.ite
    | with_reducible apply State.sendZone_inv
    | with_reducible apply State.setKeeper_inv

theorem execZoneWithdrawMsg_inv (m : ZoneMsg) {s : State} (hs : s.Inv) : SoundOut (execZoneWithdrawMsg m s) := by
  unfold execZoneWithdrawMsg
  repeat' first
    | with_reducible assumption
    | with_reducible apply SoundOut.next
    | with_reducible apply SoundOut.ite
    | with_reducible apply State.setKeeper_inv

theorem execZoneStateMsg_inv (m : ZoneMsg) {s : State} (hs : s.Inv) : SoundOut (execZoneStateMsg m s) := by
  unfold execZoneStateMsg
  repeat' first
    | with_reducible assumption
    | with_reducible apply SoundOut.next
    | with_reducible apply State.obtain_inv
    | split
    | (unfold State.Inv; dsimp only; apply State.Inv.parts)

theorem execZoneClaimMsg_inv (m : ZoneMsg) {s : State} (hs : s.Inv) : SoundOut (execZoneClaimMsg m s) := by
  unfold execZoneClaimMsg
  repeat' first
    | with_reducible assumption
    | with_reducible apply SoundOut.next
    | with_reducible apply SoundOut.ite
    | with_reducible apply State.setKeeper_inv

theorem execKeeperRestartEnd_inv {s : State} (hs : s.Inv) : SoundOut (execKeeperRestartEnd s) := by
  unfold execKeeperRestartEnd
  repeat' first
    | with_reducible assumption
    | with_reducible apply SoundOut.next
    | (unfold State.Inv; dsimp only; apply State.Inv.parts)

theorem State.keepSetting_inv {s : State} (hs : s.Inv) (d : Desc) (op : Nat) (body : List Byte) (ok : Bool) : (State.keepSetting s d op body ok).Inv := by
  unfold State.keepSetting
  repeat' first
    | with_reducible assumption
    | with_reducible apply State.fail_inv
    | split
    | (unfold State.Inv; dsimp only; apply State.Inv.parts)

theorem execPlanCfg_inv (r : Fin 64) {s : State} (hs : s.Inv) : SoundOut (execPlanCfg r s) := by
  unfold execPlanCfg
  repeat' first
    | with_reducible assumption
    | with_reducible apply SoundOut.next
    | with_reducible apply State.runDesc_inv
    | with_reducible apply State.keepSetting_inv
    | (with_reducible intro _ _ _)

theorem execSwarmCfg_inv (r : Fin 64) {s : State} (hs : s.Inv) : SoundOut (execSwarmCfg r s) := by
  unfold execSwarmCfg
  repeat' first
    | with_reducible assumption
    | with_reducible apply SoundOut.next
    | with_reducible apply State.runDesc_inv
    | with_reducible apply State.keepSetting_inv
    | (with_reducible intro _ _ _)

theorem execChainCfg_inv (r : Fin 64) {s : State} (hs : s.Inv) : SoundOut (execChainCfg r s) := by
  unfold execChainCfg
  repeat' first
    | with_reducible assumption
    | with_reducible apply SoundOut.next
    | with_reducible apply State.runDesc_inv
    | with_reducible apply State.keepSetting_inv
    | (with_reducible intro _ _ _)

theorem execZoneTable_inv (r : Fin 64) (io : HostIo) {s : State} (hs : s.Inv) : SoundOut (execZoneTable r io s) := by
  unfold execZoneTable
  repeat' first
    | with_reducible assumption
    | with_reducible apply SoundOut.next
    | with_reducible apply State.runDesc_inv
    | with_reducible apply State.withBody_inv
    | with_reducible apply State.fail_inv
    | with_reducible apply State.keepSetting_inv
    | split
    | (with_reducible intro _ _ _)

theorem State.assignWarm_inv {s : State} (hs : s.Inv) : (State.assignWarm s).Inv := by
  unfold State.assignWarm
  repeat' first
    | with_reducible assumption
    | (unfold State.Inv; dsimp only; apply State.Inv.parts)

theorem State.applySetting_inv {s : State} (hs : s.Inv) (x : Setting) : (State.applySetting s x).Inv := by
  unfold State.applySetting
  repeat' first
    | with_reducible assumption
    | with_reducible apply State.assignWarm_inv
    | with_reducible apply State.writeSentinelRamp_inv
    | with_reducible apply State.setChain_inv
    | split
    | (unfold State.Inv; dsimp only; apply State.Inv.parts)

theorem execPlannerSettingApply_inv {s : State} (hs : s.Inv) : SoundOut (execPlannerSettingApply s) := by
  unfold execPlannerSettingApply
  repeat' first
    | with_reducible assumption
    | with_reducible apply SoundOut.next
    | with_reducible apply State.complete_inv
    | with_reducible apply State.applySetting_inv
    | split
    | (unfold State.Inv; dsimp only; apply State.Inv.parts)

end Sys2Proof.Machine
end

