-- ==== Sys2Proof/Laws/Inv/QuenchIo.lean ====
section
/-! SUPPORT. The invariant `State.Inv` is kept by every function of Machine/QuenchIo.lean. -/

namespace Sys2Proof.Machine

theorem State.safeState_inv {s : State} (hs : s.Inv) : (State.safeState s).Inv := by
  unfold State.safeState
  repeat' first
    | with_reducible assumption
    | with_reducible apply State.Inv.ite
    | with_reducible apply State.Inv.wr
    | (with_reducible apply State.Inv.foldl; intro _ _ _)

theorem State.setBehaviour_inv {s : State} (hs : s.Inv) (b : Nat) : (State.setBehaviour s b).Inv := by
  unfold State.setBehaviour
  repeat' first
    | with_reducible assumption
    | with_reducible apply State.Inv.ite
    | with_reducible apply State.raise_inv
    | with_reducible apply State.Inv.wr

theorem State.enterSafe_inv {s : State} (hs : s.Inv) (cause : Nat) : (State.enterSafe s cause).Inv := by
  unfold State.enterSafe
  repeat' first
    | with_reducible assumption
    | with_reducible apply State.Inv.ite
    | with_reducible apply State.safeState_inv
    | with_reducible apply State.setBehaviour_inv
    | with_reducible apply State.Inv.wr

theorem State.setQBrake_inv {s : State} (hs : s.Inv) (b : Nat) (v : QBrake) : (State.setQBrake s b v).Inv := by
  unfold State.setQBrake
  repeat' first
    | with_reducible assumption
    | (unfold State.Inv; dsimp only; apply State.Inv.parts)

theorem State.resetConns_inv {s : State} (hs : s.Inv) : (State.resetConns s).Inv := by
  unfold State.resetConns
  repeat' first
    | with_reducible assumption
    | with_reducible apply State.Inv.setWord
    | (with_reducible apply State.Inv.foldl; intro _ _ _)
    | (unfold State.Inv; dsimp only; apply State.Inv.parts)

theorem State.setQConn_inv {s : State} (hs : s.Inv) (n : Nat) (v : QConn) : (State.setQConn s n v).Inv := by
  unfold State.setQConn
  repeat' first
    | with_reducible assumption
    | (unfold State.Inv; dsimp only; apply State.Inv.parts)

theorem State.setQPair_inv {s : State} (hs : s.Inv) (p : Nat) (v : QPair) : (State.setQPair s p v).Inv := by
  unfold State.setQPair
  repeat' first
    | with_reducible assumption
    | (unfold State.Inv; dsimp only; apply State.Inv.parts)

theorem State.discrepancy_inv {s : State} (hs : s.Inv) (p : Nat) : (State.discrepancy s p).Inv := by
  unfold State.discrepancy
  repeat' first
    | with_reducible assumption
    | with_reducible apply State.Inv.ite
    | with_reducible apply State.raise_inv
    | with_reducible apply State.wrBit_inv

theorem State.evalPair_inv {s : State} (hs : s.Inv) (p : Nat) : (State.evalPair s p).Inv := by
  unfold State.evalPair
  repeat' first
    | with_reducible assumption
    | with_reducible apply State.Inv.ite
    | with_reducible apply State.setQPair_inv
    | with_reducible apply State.wrBit_inv
    | with_reducible apply State.raise_inv
    | with_reducible apply State.discrepancy_inv

theorem State.failConn_inv {s : State} (hs : s.Inv) (n : Nat) (cause : Nat) : (State.failConn s n cause).Inv := by
  unfold State.failConn
  repeat' first
    | with_reducible assumption
    | with_reducible apply State.Inv.wr
    | with_reducible apply State.setQConn_inv

theorem State.expireConn_inv {s : State} (hs : s.Inv) (n : Nat) : (State.expireConn s n).Inv := by
  unfold State.expireConn
  repeat' first
    | with_reducible assumption
    | with_reducible apply State.Inv.ite
    | with_reducible apply State.raise_inv
    | with_reducible apply State.failConn_inv

theorem State.acceptPdu_inv {s : State} (hs : s.Inv) (n : Nat) (t : Nat) (number : Nat) (data : List Byte) (control : Nat) : (State.acceptPdu s n t number data control).Inv := by
  unfold State.acceptPdu
  repeat' first
    | with_reducible assumption
    | with_reducible apply State.Inv.ite
    | with_reducible apply State.setQConn_inv
    | with_reducible apply State.Inv.wr

theorem State.examineConn_inv {s : State} (hs : s.Inv) (n : Nat) : (State.examineConn s n).Inv := by
  unfold State.examineConn
  repeat' first
    | with_reducible assumption
    | with_reducible apply State.setQConn_inv
    | with_reducible apply State.raise_inv
    | with_reducible apply State.bump_inv
    | with_reducible apply State.failConn_inv
    | with_reducible apply State.acceptPdu_inv
    | split
    | (unfold State.Inv; dsimp only; apply State.Inv.parts)

theorem State.evalConn_inv {s : State} (hs : s.Inv) (n : Nat) : (State.evalConn s n).Inv := by
  unfold State.evalConn
  repeat' first
    | with_reducible assumption
    | with_reducible apply State.Inv.ite
    | with_reducible apply State.expireConn_inv
    | with_reducible apply State.examineConn_inv

theorem State.acceptReset_inv {s : State} (hs : s.Inv) (old : State) : (State.acceptReset s old).Inv := by
  unfold State.acceptReset
  repeat' first
    | with_reducible assumption
    | with_reducible apply State.Inv.wr
    | (with_reducible apply State.Inv.foldl; intro _ _ _)

theorem State.setQChain_inv {s : State} (hs : s.Inv) (c : Nat) (v : QChain) : (State.setQChain s c v).Inv := by
  unfold State.setQChain
  repeat' first
    | with_reducible assumption
    | (unfold State.Inv; dsimp only; apply State.Inv.parts)

theorem State.setQOutput_inv {s : State} (hs : s.Inv) (k : Nat) (v : QSwitch) : (State.setQOutput s k v).Inv := by
  unfold State.setQOutput
  repeat' first
    | with_reducible assumption
    | (unfold State.Inv; dsimp only; apply State.Inv.parts)

theorem State.outputFault_inv {s : State} (hs : s.Inv) (k : Nat) (code : Nat) (sw : Nat) : (State.outputFault s k code sw).Inv := by
  unfold State.outputFault
  repeat' first
    | with_reducible assumption
    | with_reducible apply State.raise_inv
    | with_reducible apply State.wrBit_inv

theorem State.evalOutput_inv {s : State} (hs : s.Inv) (pins : QuenchPins) (k : Nat) : (State.evalOutput s pins k).Inv := by
  unfold State.evalOutput
  repeat' first
    | with_reducible assumption
    | with_reducible apply State.Inv.ite
    | with_reducible apply State.setQOutput_inv
    | with_reducible apply State.outputFault_inv
    | with_reducible apply State.wrBit_inv

theorem execDiscrepancyFault_inv (p : Fin 16) {s : State} (hs : s.Inv) : SoundOut (execDiscrepancyFault p s) := by
  unfold execDiscrepancyFault
  repeat' first
    | with_reducible assumption
    | with_reducible apply SoundOut.next
    | with_reducible apply State.discrepancy_inv

theorem execTestPulse_inv (t : Fin 16) (low : BitVec 32) {s : State} (hs : s.Inv) : SoundOut (execTestPulse t low s) := by
  unfold execTestPulse
  repeat' first
    | with_reducible assumption
    | with_reducible apply SoundOut.next
    | with_reducible apply State.raise_inv
    | with_reducible apply State.wrBit_inv
    | (with_reducible apply State.Inv.foldl; intro _ _ _)
    | split
    | (unfold State.Inv; dsimp only; apply State.Inv.parts)

theorem execConnectionWatchdogExpiry_inv (n : Fin 128) {s : State} (hs : s.Inv) : SoundOut (execConnectionWatchdogExpiry n s) := by
  unfold execConnectionWatchdogExpiry
  repeat' first
    | with_reducible assumption
    | with_reducible apply SoundOut.next
    | with_reducible apply SoundOut.ite
    | with_reducible apply State.expireConn_inv
    | with_reducible apply State.advanceCell_inv

theorem State.setQInput_inv {s : State} (hs : s.Inv) (i : Nat) (v : QInput) : (State.setQInput s i v).Inv := by
  unfold State.setQInput
  repeat' first
    | with_reducible assumption
    | (unfold State.Inv; dsimp only; apply State.Inv.parts)

theorem execSafetyInputSample_inv (levels : BitVec 32) {s : State} (hs : s.Inv) : SoundOut (execSafetyInputSample levels s) := by
  unfold execSafetyInputSample
  repeat' first
    | with_reducible assumption
    | with_reducible apply SoundOut.next
    | with_reducible apply State.advanceTo_inv
    | with_reducible apply State.setQInput_inv
    | (with_reducible apply State.Inv.foldl; intro _ _ _)
    | split
    | (unfold State.Inv; dsimp only; apply State.Inv.parts)

end Sys2Proof.Machine
end

