-- ==== Sys2Proof/Laws/Inv/QuenchStop.lean ====
section
/-! SUPPORT. The invariant `State.Inv` is kept by every function of Machine/QuenchStop.lean. -/

namespace Sys2Proof.Machine

theorem State.setBrake_inv {s : State} (hs : s.Inv) (b : Nat) (st : Nat) : (State.setBrake s b st).Inv := by
  unfold State.setBrake
  repeat' first
    | with_reducible assumption
    | with_reducible apply State.Inv.ite
    | with_reducible apply State.Inv.wr
    | with_reducible apply State.setQBrake_inv

theorem State.publish_inv {s : State} (hs : s.Inv) : (State.publish s).Inv := by
  unfold State.publish
  repeat' first
    | with_reducible assumption
    | (unfold State.Inv; dsimp only; apply State.Inv.parts)

theorem State.sendPdu_inv {s : State} (hs : s.Inv) (e : List Byte) (p : List Byte) : (State.sendPdu s e p).Inv := by
  unfold State.sendPdu
  repeat' first
    | with_reducible assumption
    | with_reducible apply State.Inv.ite
    | with_reducible apply State.fillPlace_inv
    | (with_reducible apply State.Inv.foldl; intro _ _ _)

theorem State.evalOut_inv {s : State} (hs : s.Inv) (n : Nat) : (State.evalOut s n).Inv := by
  unfold State.evalOut
  repeat' first
    | with_reducible assumption
    | with_reducible apply State.Inv.ite
    | with_reducible apply State.sendPdu_inv
    | with_reducible apply State.setQConn_inv
    | with_reducible apply State.Inv.wr

theorem State.setQKindle_inv {s : State} (hs : s.Inv) (a : Nat) (v : QKindle) : (State.setQKindle s a v).Inv := by
  unfold State.setQKindle
  repeat' first
    | with_reducible assumption
    | (unfold State.Inv; dsimp only; apply State.Inv.parts)

theorem State.brakeFault_inv {s : State} (hs : s.Inv) (b : Nat) (code : Nat) : (State.brakeFault s b code).Inv := by
  unfold State.brakeFault
  repeat' first
    | with_reducible assumption
    | with_reducible apply State.Inv.ite
    | with_reducible apply State.raise_inv
    | with_reducible apply State.setBrake_inv
    | with_reducible apply State.Inv.wr

theorem State.evalKindle_inv {s : State} (hs : s.Inv) (pins : QuenchPins) (a : Nat) : (State.evalKindle s pins a).Inv := by
  unfold State.evalKindle
  repeat' first
    | with_reducible assumption
    | with_reducible apply State.Inv.ite
    | with_reducible apply State.setQKindle_inv
    | with_reducible apply State.wrBit_inv
    | with_reducible apply State.Inv.wr
    | with_reducible apply State.setQBrake_inv
    | with_reducible apply State.brakeFault_inv
    | with_reducible apply State.setBrake_inv
    | split

theorem State.evalSensors_inv {s : State} (hs : s.Inv) (pins : QuenchPins) : (State.evalSensors s pins).Inv := by
  unfold State.evalSensors
  repeat' first
    | with_reducible assumption
    | with_reducible apply State.raise_inv
    | with_reducible apply State.Inv.wr
    | (with_reducible apply State.Inv.foldl; intro _ _ _)
    | split
    | (unfold State.Inv; dsimp only; apply State.Inv.parts)

theorem State.readChain_inv {s : State} (hs : s.Inv) (c : Nat) : (State.readChain s c).1.Inv := by
  unfold State.readChain
  repeat' first
    | with_reducible assumption
    | with_reducible apply State.setQChain_inv
    | split
    | (unfold State.Inv; dsimp only; apply State.Inv.parts)

theorem State.stopEvent_inv {s : State} (hs : s.Inv) (c : Nat) (code : Nat) (stop : Nat) (cause : Nat) : (State.stopEvent s c code stop cause).Inv := by
  unfold State.stopEvent
  repeat' first
    | with_reducible assumption
    | with_reducible apply State.raise_inv

theorem State.stoCheck_inv {s : State} (hs : s.Inv) (c : Nat) : (State.stoCheck s c).Inv := by
  unfold State.stoCheck
  repeat' first
    | with_reducible assumption
    | with_reducible apply State.Inv.ite
    | with_reducible apply State.stopEvent_inv
    | with_reducible apply State.setQChain_inv

theorem State.applyStop_inv {s : State} (hs : s.Inv) (c : Nat) : (State.applyStop s c).Inv := by
  unfold State.applyStop
  repeat' first
    | with_reducible assumption
    | with_reducible apply State.Inv.ite
    | with_reducible apply State.Inv.wr
    | with_reducible apply State.setQChain_inv
    | with_reducible apply State.stopEvent_inv

theorem State.evalChain_inv {s : State} (hs : s.Inv) (reset : Bool) (objs : List Tracked) (c : Nat) : (State.evalChain s reset objs c).Inv := by
  unfold State.evalChain
  repeat' first
    | with_reducible assumption
    | with_reducible apply State.Inv.ite
    | with_reducible apply State.readChain_inv
    | with_reducible apply State.setQChain_inv
    | with_reducible apply State.stoCheck_inv
    | with_reducible apply State.applyStop_inv

theorem State.evalBrake_inv {s : State} (hs : s.Inv) (pins : QuenchPins) (b : Nat) : (State.evalBrake s pins b).Inv := by
  unfold State.evalBrake
  repeat' first
    | with_reducible assumption
    | with_reducible apply State.Inv.ite
    | with_reducible apply State.setQBrake_inv
    | with_reducible apply State.Inv.wr
    | with_reducible apply State.brakeFault_inv
    | with_reducible apply State.setBrake_inv

theorem State.setAllowance_inv {s : State} (hs : s.Inv) (c : Nat) : (State.setAllowance s c).Inv := by
  unfold State.setAllowance
  repeat' first
    | with_reducible assumption
    | with_reducible apply State.Inv.ite
    | with_reducible apply State.setQChain_inv
    | with_reducible apply State.Inv.wr
    | with_reducible apply State.put_inv
    | with_reducible apply State.raise_inv

theorem execSourceMissingLimit_inv (c : Fin 16) (j : Fin 16) {s : State} (hs : s.Inv) : SoundOut (execSourceMissingLimit c j s) := by
  unfold execSourceMissingLimit
  repeat' first
    | with_reducible assumption
    | with_reducible apply SoundOut.next
    | with_reducible apply SoundOut.ite
    | with_reducible apply State.applyStop_inv
    | with_reducible apply State.setQChain_inv

theorem execSs1LimitTimeExpiry_inv (c : Fin 16) {s : State} (hs : s.Inv) : SoundOut (execSs1LimitTimeExpiry c s) := by
  unfold execSs1LimitTimeExpiry
  repeat' first
    | with_reducible assumption
    | with_reducible apply SoundOut.next
    | with_reducible apply SoundOut.ite
    | with_reducible apply State.advanceTo_inv
    | with_reducible apply State.applyStop_inv
    | with_reducible apply State.setQChain_inv

theorem execRestartDelayExpiry_inv (c : Fin 16) {s : State} (hs : s.Inv) : SoundOut (execRestartDelayExpiry c s) := by
  unfold execRestartDelayExpiry
  repeat' first
    | with_reducible assumption
    | with_reducible apply SoundOut.next
    | with_reducible apply State.advanceTo_inv
    | with_reducible apply State.setAllowance_inv
    | with_reducible apply State.applyStop_inv
    | with_reducible apply State.setQChain_inv
    | split
    | dsimp only

theorem execStoFeedbackTimeout_inv (c : Fin 16) {s : State} (hs : s.Inv) : SoundOut (execStoFeedbackTimeout c s) := by
  unfold execStoFeedbackTimeout
  repeat' first
    | with_reducible assumption
    | with_reducible apply SoundOut.next
    | with_reducible apply State.stoCheck_inv

end Sys2Proof.Machine
end

