-- ==== Sys2Proof/Laws/Inv/Quench.lean ====
section
/-! SUPPORT. The invariant `State.Inv` is kept by every function of Machine/Quench.lean. -/

namespace Sys2Proof.Machine

theorem State.quenchFail_inv {s : State} (hs : s.Inv) (cause : Nat) (src : Nat) (code : Nat) (d : optParam DWord 0) : (State.quenchFail s cause src code d).Inv := by
  unfold State.quenchFail
  repeat' first
    | with_reducible assumption
    | with_reducible apply State.raise_inv
    | with_reducible apply State.enterSafe_inv

theorem State.quenchRailFault_inv {s : State} (hs : s.Inv) : (State.quenchRailFault s).Inv := by
  unfold State.quenchRailFault
  repeat' first
    | with_reducible assumption
    | with_reducible apply State.quenchFail_inv
    | split
    | (unfold State.Inv; dsimp only; apply State.Inv.parts)

theorem State.quenchRailReturn_inv {s : State} (hs : s.Inv) : (State.quenchRailReturn s).Inv := by
  unfold State.quenchRailReturn
  repeat' first
    | with_reducible assumption
    | split
    | (unfold State.Inv; dsimp only; apply State.Inv.parts)

theorem State.releaseBrake_inv {s : State} (hs : s.Inv) (t : QTest) : (State.releaseBrake s t).Inv := by
  unfold State.releaseBrake
  repeat' first
    | with_reducible assumption
    | with_reducible apply State.setBrake_inv
    | split
    | (unfold State.Inv; dsimp only; apply State.Inv.parts)

theorem State.rampBack_inv {s : State} (hs : s.Inv) (t : QTest) : (State.rampBack s t).Inv := by
  unfold State.rampBack
  repeat' first
    | with_reducible assumption
    | with_reducible apply State.releaseBrake_inv
    | split
    | (unfold State.Inv; dsimp only; apply State.Inv.parts)

theorem State.setTest_inv {s : State} (hs : s.Inv) (t : Option QTest) : (State.setTest s t).Inv := by
  unfold State.setTest
  repeat' first
    | with_reducible assumption
    | (unfold State.Inv; dsimp only; apply State.Inv.parts)

theorem State.abortBrakeTest_inv {s : State} (hs : s.Inv) (desc : Nat) : (State.abortBrakeTest s desc).Inv := by
  unfold State.abortBrakeTest
  repeat' first
    | with_reducible assumption
    | with_reducible apply State.Inv.ite
    | with_reducible apply State.rampBack_inv
    | with_reducible apply State.setTest_inv
    | split

theorem execAllowanceTableStop_inv (c : Fin 16) {s : State} (hs : s.Inv) : SoundOut (execAllowanceTableStop c s) := by
  unfold execAllowanceTableStop
  repeat' first
    | with_reducible assumption
    | with_reducible apply SoundOut.next
    | with_reducible apply SoundOut.ite
    | with_reducible apply State.stopChain_inv

theorem State.compareTyped_inv {s : State} (hs : s.Inv) : (State.compareTyped s).Inv := by
  unfold State.compareTyped
  repeat' first
    | with_reducible assumption
    | with_reducible apply State.raise_inv
    | split
    | (unfold State.Inv; dsimp only; apply State.Inv.parts)

theorem State.takeSet_inv {s : State} (hs : s.Inv) : (State.takeSet s).Inv := by
  unfold State.takeSet
  repeat' first
    | with_reducible assumption
    | with_reducible apply State.Inv.wr
    | with_reducible apply State.Inv.setWord
    | with_reducible apply State.raise_inv
    | with_reducible apply State.resetConns_inv
    | (with_reducible apply State.Inv.foldl; intro _ _ _)
    | split
    | (unfold State.Inv; dsimp only; apply State.Inv.parts)

theorem State.sentinelStop_inv {s : State} (hs : s.Inv) : (State.sentinelStop s).Inv := by
  unfold State.sentinelStop
  repeat' first
    | with_reducible assumption
    | with_reducible apply State.Inv.ite
    | with_reducible apply State.endProgram_inv
    | with_reducible apply State.disableEngine_inv
    | (with_reducible apply State.Inv.foldl; intro _ _ _)

theorem State.askTorque_inv {s : State} (hs : s.Inv) (t : QTest) : (State.askTorque s t).Inv := by
  unfold State.askTorque
  repeat' first
    | with_reducible assumption
    | with_reducible apply State.setTest_inv
    | (unfold State.Inv; dsimp only; apply State.Inv.parts)

theorem State.endRampBack_inv {s : State} (hs : s.Inv) (t : QTest) : (State.endRampBack s t).Inv := by
  unfold State.endRampBack
  repeat' first
    | with_reducible assumption
    | with_reducible apply State.Inv.ite
    | with_reducible apply State.askTorque_inv
    | with_reducible apply State.releaseBrake_inv

theorem State.endTest_inv {s : State} (hs : s.Inv) (t : QTest) (res : Nat) : (State.endTest s t res).Inv := by
  unfold State.endTest
  repeat' first
    | with_reducible assumption
    | with_reducible apply State.rampBack_inv

theorem State.tickTest_inv {s : State} (hs : s.Inv) : (State.tickTest s).Inv := by
  unfold State.tickTest
  repeat' first
    | with_reducible assumption
    | with_reducible apply State.Inv.ite
    | with_reducible apply State.endRampBack_inv
    | with_reducible apply State.setTest_inv
    | with_reducible apply State.endTest_inv
    | split

theorem State.safeTick_inv {s : State} (hs : s.Inv) : (State.safeTick s).Inv := by
  unfold State.safeTick
  repeat' first
    | with_reducible assumption
    | with_reducible apply State.tickTest_inv
    | with_reducible apply State.safeState_inv
    | with_reducible apply State.publish_inv
    | with_reducible apply State.evalOut_inv
    | (with_reducible apply State.Inv.foldl; intro _ _ _)

theorem State.kindleTick_inv {s : State} (hs : s.Inv) (pins : QuenchPins) : (State.kindleTick s pins).Inv := by
  unfold State.kindleTick
  repeat' first
    | with_reducible assumption
    | with_reducible apply State.evalPair_inv
    | with_reducible apply State.evalConn_inv
    | with_reducible apply State.evalKindle_inv
    | with_reducible apply State.put_inv
    | with_reducible apply State.evalOut_inv
    | (with_reducible apply State.Inv.foldl; intro _ _ _)

theorem State.setTick_inv {s : State} (hs : s.Inv) (old : State) (pins : QuenchPins) : (State.setTick s old pins).Inv := by
  unfold State.setTick
  repeat' first
    | with_reducible assumption
    | with_reducible apply State.Inv.ite
    | with_reducible apply State.evalPair_inv
    | with_reducible apply State.acceptReset_inv
    | with_reducible apply State.evalConn_inv
    | with_reducible apply State.evalSensors_inv
    | with_reducible apply State.evalChain_inv
    | with_reducible apply State.tickTest_inv
    | with_reducible apply State.evalBrake_inv
    | with_reducible apply State.setAllowance_inv
    | with_reducible apply State.evalOutput_inv
    | with_reducible apply State.put_inv
    | with_reducible apply State.publish_inv
    | with_reducible apply State.evalOut_inv
    | (with_reducible apply State.Inv.foldl; intro _ _ _)

theorem State.evaluate_inv {s : State} (hs : s.Inv) (old : State) (pins : QuenchPins) : (State.evaluate s old pins).Inv := by
  unfold State.evaluate
  repeat' first
    | with_reducible assumption
    | with_reducible apply State.Inv.ite
    | with_reducible apply State.safeTick_inv
    | with_reducible apply State.kindleTick_inv
    | with_reducible apply State.setTick_inv

theorem State.countTick_inv {s : State} (hs : s.Inv) : (State.countTick s).Inv := by
  unfold State.countTick
  repeat' first
    | with_reducible assumption
    | with_reducible apply State.Inv.ite
    | with_reducible apply State.Inv.wr

theorem State.runTick_inv {s : State} (hs : s.Inv) (pins : QuenchPins) : (State.runTick s pins).Inv := by
  unfold State.runTick
  repeat' first
    | with_reducible assumption
    | with_reducible apply State.quenchFail_inv
    | with_reducible apply State.compareTyped_inv
    | with_reducible apply State.takeSet_inv
    | with_reducible apply State.sentinelStop_inv
    | with_reducible apply State.evaluate_inv
    | with_reducible apply State.countTick_inv
    | with_reducible apply State.setBehaviour_inv
    | split
    | (unfold State.Inv; dsimp only; apply State.Inv.parts)

theorem State.tickSource_inv {s : State} (hs : s.Inv) (own : Bool) : (State.tickSource s own).Inv := by
  unfold State.tickSource
  repeat' first
    | with_reducible assumption
    | with_reducible apply State.Inv.ite
    | with_reducible apply State.raise_inv
    | with_reducible apply State.put_inv

theorem State.timerTick_inv {s : State} (hs : s.Inv) (pins : QuenchPins) : (State.timerTick s pins).Inv := by
  unfold State.timerTick
  repeat' first
    | with_reducible assumption
    | with_reducible apply State.Inv.ite
    | with_reducible apply State.advanceTo_inv
    | with_reducible apply State.runTick_inv
    | with_reducible apply State.tickSource_inv

theorem execSafetyTick_inv (pins : QuenchPins) {s : State} (hs : s.Inv) : SoundOut (execSafetyTick pins s) := by
  unfold execSafetyTick
  repeat' first
    | with_reducible assumption
    | with_reducible apply SoundOut.next
    | with_reducible apply SoundOut.ite
    | with_reducible apply State.timerTick_inv
    | with_reducible apply State.advanceCell_inv
    | with_reducible apply State.armTick_inv
    | with_reducible apply State.Inv.wr
    | with_reducible apply State.runTick_inv
    | with_reducible apply State.tickSource_inv

theorem execSafetyTickTimeout_inv (pins : QuenchPins) {s : State} (hs : s.Inv) : SoundOut (execSafetyTickTimeout pins s) := by
  unfold execSafetyTickTimeout
  repeat' first
    | with_reducible assumption
    | with_reducible apply SoundOut.next
    | with_reducible apply SoundOut.ite
    | with_reducible apply State.timerTick_inv

theorem execOutputOffTest_inv (p : SwitchPair) (sw : Bool) (fell : Bool) {s : State} (hs : s.Inv) : SoundOut (execOutputOffTest p sw fell s) := by
  unfold execOutputOffTest
  repeat' first
    | with_reducible assumption
    | with_reducible apply SoundOut.next
    | with_reducible apply State.outputFault_inv
    | with_reducible apply State.brakeFault_inv
    | split

theorem execLockstepMismatch_inv (which : Fin 3) {s : State} (hs : s.Inv) : SoundOut (execLockstepMismatch which s) := by
  unfold execLockstepMismatch
  repeat' first
    | with_reducible assumption
    | with_reducible apply SoundOut.next
    | with_reducible apply State.quenchFail_inv

theorem execQuenchWatchdogExpiry_inv {s : State} (hs : s.Inv) : SoundOut (execQuenchWatchdogExpiry s) := by
  unfold execQuenchWatchdogExpiry
  repeat' first
    | with_reducible assumption
    | with_reducible apply SoundOut.next
    | with_reducible apply State.quenchFail_inv

theorem execQuenchSramError_inv {s : State} (hs : s.Inv) : SoundOut (execQuenchSramError s) := by
  unfold execQuenchSramError
  repeat' first
    | with_reducible assumption
    | with_reducible apply SoundOut.next
    | with_reducible apply State.quenchFail_inv

theorem execQuenchScrub_inv (corrected : BitVec 16) {s : State} (hs : s.Inv) : SoundOut (execQuenchScrub corrected s) := by
  unfold execQuenchScrub
  repeat' first
    | with_reducible assumption
    | with_reducible apply SoundOut.next
    | with_reducible apply State.bump_inv

theorem execCodeCheck_inv (ok : Bool) {s : State} (hs : s.Inv) : SoundOut (execCodeCheck ok s) := by
  unfold execCodeCheck
  repeat' first
    | with_reducible assumption
    | with_reducible apply SoundOut.next
    | with_reducible apply State.Inv.ite
    | with_reducible apply State.quenchFail_inv

theorem State.startSet_inv {s : State} (hs : s.Inv) : (State.startSet s).Inv := by
  unfold State.startSet
  repeat' first
    | with_reducible assumption
    | with_reducible apply State.resetConns_inv
    | with_reducible apply State.put_inv
    | with_reducible apply State.Inv.wr
    | split
    | (unfold State.Inv; dsimp only; apply State.Inv.parts)

theorem execSelfTestComplete_inv (failed : Option (BitVec 8)) {s : State} (hs : s.Inv) : SoundOut (execSelfTestComplete failed s) := by
  unfold execSelfTestComplete
  repeat' first
    | with_reducible assumption
    | with_reducible apply SoundOut.next
    | with_reducible apply State.quenchFail_inv
    | with_reducible apply State.startSet_inv
    | with_reducible apply State.setBehaviour_inv
    | split
    | (unfold State.Inv; dsimp only; apply State.Inv.parts)

theorem execQuenchRailFault_inv {s : State} (hs : s.Inv) : SoundOut (execQuenchRailFault s) := by
  unfold execQuenchRailFault
  repeat' first
    | with_reducible assumption
    | with_reducible apply SoundOut.next
    | with_reducible apply State.quenchRailFault_inv

theorem execQuenchRailReturn_inv {s : State} (hs : s.Inv) : SoundOut (execQuenchRailReturn s) := by
  unfold execQuenchRailReturn
  repeat' first
    | with_reducible assumption
    | with_reducible apply SoundOut.next
    | with_reducible apply State.quenchRailReturn_inv

theorem execSpsLoad_inv (r : Fin 64) (io : HostIo) {s : State} (hs : s.Inv) : SoundOut (execSpsLoad r io s) := by
  unfold execSpsLoad
  repeat' first
    | with_reducible assumption
    | with_reducible apply SoundOut.next
    | with_reducible apply State.runDesc_inv
    | with_reducible apply State.withBody_inv
    | with_reducible apply State.fail_inv
    | split
    | (unfold State.Inv; dsimp only; apply State.Inv.parts)
    | (with_reducible intro _ _ _)

theorem execSpsRead_inv (r : Fin 64) (io : HostIo) {s : State} (hs : s.Inv) : SoundOut (execSpsRead r io s) := by
  unfold execSpsRead
  repeat' first
    | with_reducible assumption
    | with_reducible apply SoundOut.next
    | with_reducible apply State.runDesc_inv
    | with_reducible apply State.hostResult_inv
    | (with_reducible intro _ _ _)

theorem execSpsConfirmWrite_inv (m : Master) (v : Word) {s : State} (hs : s.Inv) : SoundOut (execSpsConfirmWrite m v s) := by
  unfold execSpsConfirmWrite
  repeat' first
    | with_reducible assumption
    | with_reducible apply SoundOut.next
    | with_reducible apply State.pvDropped_inv
    | with_reducible apply State.wrIgnored_inv
    | with_reducible apply State.Inv.wr
    | split
    | (unfold State.Inv; dsimp only; apply State.Inv.parts)

theorem execBrakeTest_inv (r : Fin 64) {s : State} (hs : s.Inv) : SoundOut (execBrakeTest r s) := by
  unfold execBrakeTest
  repeat' first
    | with_reducible assumption
    | with_reducible apply SoundOut.next
    | with_reducible apply State.runDesc_inv
    | with_reducible apply State.fail_inv
    | with_reducible apply State.setBrake_inv
    | with_reducible apply State.setTest_inv
    | split
    | dsimp only
    | (with_reducible intro _ _ _)

theorem execBrakeEngageTimeExpiry_inv {s : State} (hs : s.Inv) : SoundOut (execBrakeEngageTimeExpiry s) := by
  unfold execBrakeEngageTimeExpiry
  repeat' first
    | with_reducible assumption
    | with_reducible apply SoundOut.next
    | with_reducible apply SoundOut.ite
    | with_reducible apply State.advanceTo_inv
    | with_reducible apply State.endTest_inv
    | with_reducible apply State.askTorque_inv
    | split

theorem execTorqueRampEnd_inv {s : State} (hs : s.Inv) : SoundOut (execTorqueRampEnd s) := by
  unfold execTorqueRampEnd
  repeat' first
    | with_reducible assumption
    | with_reducible apply SoundOut.next
    | with_reducible apply State.advanceTo_inv
    | with_reducible apply State.endRampBack_inv
    | with_reducible apply State.setTest_inv
    | split

theorem execTorqueReachTimeout_inv {s : State} (hs : s.Inv) : SoundOut (execTorqueReachTimeout s) := by
  unfold execTorqueReachTimeout
  repeat' first
    | with_reducible assumption
    | with_reducible apply SoundOut.next
    | with_reducible apply State.endTest_inv
    | with_reducible apply State.advanceTo_inv
    | split

theorem execTestDurationExpiry_inv {s : State} (hs : s.Inv) : SoundOut (execTestDurationExpiry s) := by
  unfold execTestDurationExpiry
  repeat' first
    | with_reducible assumption
    | with_reducible apply SoundOut.next
    | with_reducible apply State.rampBack_inv
    | with_reducible apply State.advanceTo_inv
    | split

theorem State.brakeResult_inv {s : State} (hs : s.Inv) (b : Nat) (res : Nat) : (State.brakeResult s b res).Inv := by
  unfold State.brakeResult
  repeat' first
    | with_reducible assumption
    | with_reducible apply State.Inv.ite
    | with_reducible apply State.Inv.wr
    | with_reducible apply State.setQBrake_inv
    | with_reducible apply State.raise_inv

theorem execBrakeReleaseTimeExpiry_inv {s : State} (hs : s.Inv) : SoundOut (execBrakeReleaseTimeExpiry s) := by
  unfold execBrakeReleaseTimeExpiry
  repeat' first
    | with_reducible assumption
    | with_reducible apply SoundOut.next
    | with_reducible apply State.endRampBack_inv
    | with_reducible apply State.advanceTo_inv
    | with_reducible apply State.setTest_inv
    | with_reducible apply State.complete_inv
    | with_reducible apply State.brakeResult_inv
    | split
    | dsimp only

theorem execBrakeTestDue_inv (b : Fin 16) {s : State} (hs : s.Inv) : SoundOut (execBrakeTestDue b s) := by
  unfold execBrakeTestDue
  repeat' first
    | with_reducible assumption
    | with_reducible apply SoundOut.next
    | with_reducible apply SoundOut.ite
    | with_reducible apply State.advanceTo_inv
    | with_reducible apply State.raise_inv
    | with_reducible apply State.Inv.wr

theorem execBrakeTestOverdue_inv (b : Fin 16) {s : State} (hs : s.Inv) : SoundOut (execBrakeTestOverdue b s) := by
  unfold execBrakeTestOverdue
  repeat' first
    | with_reducible assumption
    | with_reducible apply SoundOut.next
    | with_reducible apply SoundOut.ite
    | with_reducible apply State.advanceTo_inv
    | with_reducible apply State.Inv.wr
    | with_reducible apply State.setQBrake_inv

end Sys2Proof.Machine
end

