-- ==== Sys2Proof/Laws/Inv/Bellows.lean ====
section
/-! SUPPORT. The invariant `State.Inv` is kept by every function of Machine/Bellows.lean. -/

namespace Sys2Proof.Machine

theorem State.setBellows_inv {s : State} (hs : s.Inv) (b : Bellows) : (State.setBellows s b).Inv := by
  unfold State.setBellows
  repeat' first
    | with_reducible assumption
    | (unfold State.Inv; dsimp only; apply State.Inv.parts)

theorem execRoleDecision_inv {s : State} (hs : s.Inv) : SoundOut (execRoleDecision s) := by
  unfold execRoleDecision
  repeat' first
    | with_reducible assumption
    | with_reducible apply SoundOut.next
    | with_reducible apply State.syncPair_inv
    | with_reducible apply State.Inv.wr
    | with_reducible apply State.enterStandby_inv
    | split

theorem execBellowsLinkTimeout_inv {s : State} (hs : s.Inv) : SoundOut (execBellowsLinkTimeout s) := by
  unfold execBellowsLinkTimeout
  repeat' first
    | with_reducible assumption
    | with_reducible apply SoundOut.next
    | with_reducible apply SoundOut.ite
    | with_reducible apply State.advanceTo_inv
    | with_reducible apply State.setBellows_inv
    | with_reducible apply State.blwEvent_inv
    | with_reducible apply State.Inv.wr

theorem execBellowsDisable_inv (m : Master) {s : State} (hs : s.Inv) : SoundOut (execBellowsDisable m s) := by
  unfold execBellowsDisable
  repeat' first
    | with_reducible assumption
    | with_reducible apply SoundOut.next
    | with_reducible apply State.Inv.ite
    | with_reducible apply SoundOut.ite
    | with_reducible apply State.pvDropped_inv
    | with_reducible apply State.Inv.wr
    | with_reducible apply State.setBellows_inv
    | with_reducible apply State.setMode_inv

theorem execHeartbeatSend_inv {s : State} (hs : s.Inv) : SoundOut (execHeartbeatSend s) := by
  unfold execHeartbeatSend
  repeat' first
    | with_reducible assumption
    | with_reducible apply SoundOut.next
    | with_reducible apply SoundOut.ite
    | with_reducible apply State.syncPair_inv
    | with_reducible apply State.advanceCell_inv
    | with_reducible apply State.setBellows_inv

theorem State.comparePartner_inv {s : State} (hs : s.Inv) : (State.comparePartner s).Inv := by
  unfold State.comparePartner
  repeat' first
    | with_reducible assumption
    | with_reducible apply State.Inv.ite
    | with_reducible apply State.blwEvent_inv
    | with_reducible apply State.setBellows_inv

theorem execHeartbeatReceived_inv (h : Heartbeat) {s : State} (hs : s.Inv) : SoundOut (execHeartbeatReceived h s) := by
  unfold execHeartbeatReceived
  repeat' first
    | with_reducible assumption
    | with_reducible apply SoundOut.next
    | with_reducible apply State.Inv.ite
    | with_reducible apply SoundOut.ite
    | with_reducible apply State.Inv.wr
    | with_reducible apply State.put_inv
    | with_reducible apply State.setBellows_inv
    | with_reducible apply State.blwEvent_inv
    | with_reducible apply State.comparePartner_inv
    | with_reducible apply State.syncPair_inv
    | with_reducible apply State.fallSilent_inv

theorem execHeartbeatLost_inv {s : State} (hs : s.Inv) : SoundOut (execHeartbeatLost s) := by
  unfold execHeartbeatLost
  repeat' first
    | with_reducible assumption
    | with_reducible apply SoundOut.next
    | with_reducible apply State.Inv.ite
    | with_reducible apply SoundOut.ite
    | with_reducible apply State.bump_inv
    | with_reducible apply State.advanceCell_inv
    | with_reducible apply State.setBellows_inv
    | with_reducible apply State.blwEvent_inv
    | with_reducible apply State.syncPair_inv

theorem Mirror.words_inv (ctx : Nat) (l : List Word) {s : State} (hs : s.Inv) : (Mirror.words ctx l s).Inv := by
  unfold Mirror.words
  repeat' first
    | with_reducible assumption
    | with_reducible apply State.Inv.setWord
    | (with_reducible apply State.Inv.foldl; intro _ _ _)
    | split

theorem State.mirrorAxis_inv {s : State} (hs : s.Inv) (a : MirrorAxis) : (State.mirrorAxis s a).1.Inv := by
  unfold State.mirrorAxis
  repeat' first
    | with_reducible assumption
    | with_reducible apply State.setEng_inv

theorem State.mirrorWindow_inv {s : State} (hs : s.Inv) (w : MirrorWindow) : (State.mirrorWindow s w).Inv := by
  unfold State.mirrorWindow
  repeat' first
    | with_reducible assumption
    | with_reducible apply State.setEng_inv

theorem State.mirrorChain_inv {s : State} (hs : s.Inv) (m : MirrorChain) : (State.mirrorChain s m).Inv := by
  unfold State.mirrorChain
  repeat' first
    | with_reducible assumption
    | with_reducible apply State.setChain_inv

theorem State.mirrorKeeper_inv {s : State} (hs : s.Inv) (k : MirrorKeeper) : (State.mirrorKeeper s k).Inv := by
  unfold State.mirrorKeeper
  repeat' first
    | with_reducible assumption
    | with_reducible apply State.setKeeper_inv

theorem State.applyMirror_inv {s : State} (hs : s.Inv) (m : Mirror) : (s.applyMirror m).Inv := by
  have h0 : (m.axes.foldl (fun (p : State × Bool) a => let (s, f) := p.1.mirrorAxis a; (s, p.2 || f)) (s, false)).1.Inv :=
    State.Inv.foldl_fst (fun q a h => State.mirrorAxis_inv h a) hs
  unfold State.applyMirror
  revert h0
  generalize m.axes.foldl (fun (p : State × Bool) a => let (s, f) := p.1.mirrorAxis a; (s, p.2 || f)) (s, false) = p
  intro h0
  obtain ⟨t, far⟩ := p
  dsimp only
  apply State.syncPair_inv
  refine State.Inv.wr (State.Inv.wr (State.setBellows_inv ?_ _) _ _ _ _) _ _ _ _
  refine State.Inv.foldl (fun t p h => State.Inv.wr (Mirror.words_inv _ _ h) _ _ _ _) ?_
  refine State.Inv.foldl (fun t k h => State.mirrorKeeper_inv h k) ?_
  refine State.Inv.foldl (fun t k h => State.mirrorChain_inv h k) ?_
  refine State.Inv.foldl (fun t k h => State.mirrorWindow_inv h k) ?_
  exact State.Inv.ite (State.bump_inv h0 _ _ _ _) h0

theorem execMirrorApply_inv (m : Mirror) {s : State} (hs : s.Inv) : SoundOut (execMirrorApply m s) := by
  unfold execMirrorApply
  repeat' first
    | with_reducible assumption
    | with_reducible apply SoundOut.next
    | with_reducible apply SoundOut.ite
    | with_reducible apply State.setBellows_inv
    | with_reducible apply State.bump_inv
    | with_reducible apply State.applyMirror_inv

theorem execLaneLoss_inv (n : Fin 4) {s : State} (hs : s.Inv) : SoundOut (execLaneLoss n s) := by
  unfold execLaneLoss
  repeat' first
    | with_reducible assumption
    | with_reducible apply SoundOut.next
    | with_reducible apply SoundOut.ite
    | with_reducible apply State.blwEvent_inv
    | with_reducible apply State.wrBit_inv
    | with_reducible apply State.syncPair_inv
    | with_reducible apply State.Inv.wr

theorem execLaneRestore_inv (n : Fin 4) {s : State} (hs : s.Inv) : SoundOut (execLaneRestore n s) := by
  unfold execLaneRestore
  repeat' first
    | with_reducible assumption
    | with_reducible apply SoundOut.next
    | with_reducible apply SoundOut.ite
    | with_reducible apply State.syncPair_inv
    | with_reducible apply State.blwEvent_inv
    | with_reducible apply State.Inv.wr
    | with_reducible apply State.wrBit_inv

theorem State.becomeActive_inv {s : State} (hs : s.Inv) (cause : Nat) : (State.becomeActive s cause).Inv := by
  unfold State.becomeActive
  repeat' first
    | with_reducible assumption
    | with_reducible apply State.armFirst_inv
    | with_reducible apply State.Inv.ite
    | with_reducible apply State.setMode_inv
    | with_reducible apply State.Inv.wr
    | with_reducible apply State.blwEvent_inv
    | with_reducible apply State.setMaster_inv
    | with_reducible apply State.syncPair_inv
    | (with_reducible apply State.Inv.foldl; intro _ _ _)

theorem State.endMoving_inv {s : State} (hs : s.Inv) (c : Nat) : (State.endMoving s c).Inv := by
  unfold State.endMoving
  repeat' first
    | with_reducible assumption
    | with_reducible apply State.Inv.ite
    | with_reducible apply State.commitRamp_inv
    | with_reducible apply State.drawn_inv
    | with_reducible apply State.heldEvent_inv
    | with_reducible apply State.setChain_inv

theorem execTakeover_inv {s : State} (hs : s.Inv) : SoundOut (execTakeover s) := by
  unfold execTakeover
  repeat' first
    | with_reducible assumption
    | with_reducible apply SoundOut.next
    | with_reducible apply State.advanceCell_inv
    | with_reducible apply State.blwEvent_inv
    | with_reducible apply State.endMoving_inv
    | with_reducible apply State.becomeActive_inv
    | (with_reducible apply State.Inv.foldl; intro _ _ _)
    | split
    | dsimp only

theorem execPairSwap_inv (r : Fin 64) {s : State} (hs : s.Inv) : SoundOut (execPairSwap r s) := by
  unfold execPairSwap
  repeat' first
    | with_reducible assumption
    | with_reducible apply SoundOut.next
    | with_reducible apply State.runDesc_inv
    | with_reducible apply State.fail_inv
    | with_reducible apply State.setBellows_inv
    | split
    | dsimp only
    | (with_reducible intro _ _ _)

theorem State.abortSwap_inv {s : State} (hs : s.Inv) (id : Nat) : (State.abortSwap s id).Inv := by
  unfold State.abortSwap
  repeat' first
    | with_reducible assumption
    | with_reducible apply State.complete_inv
    | with_reducible apply State.setBellows_inv

theorem State.endMotion_inv {s : State} (hs : s.Inv) : (State.endMotion s).Inv := by
  unfold State.endMotion
  repeat' first
    | with_reducible assumption
    | with_reducible apply State.setChain_inv
    | with_reducible apply State.fail_inv
    | (with_reducible apply State.Inv.foldl; intro _ _ _)

theorem State.swapEvent_inv {s : State} (hs : s.Inv) (code : Nat) (c : Nat) : (State.swapEvent s code c).Inv := by
  unfold State.swapEvent
  repeat' first
    | with_reducible assumption
    | with_reducible apply State.blwEvent_inv

theorem State.swapOut_inv {s : State} (hs : s.Inv) (desc : Nat) (c : Nat) (a : Bool) (b : Bool) : (State.swapOut s desc c a b).Inv := by
  unfold State.swapOut
  repeat' first
    | with_reducible assumption
    | with_reducible apply State.Inv.ite
    | with_reducible apply State.setBellows_inv
    | with_reducible apply State.endMotion_inv
    | with_reducible apply State.enterStandby_inv
    | with_reducible apply State.complete_inv
    | with_reducible apply State.swapEvent_inv

theorem State.swapIn_inv {s : State} (hs : s.Inv) (c : Nat) (a : Bool) (b : Bool) : (State.swapIn s c a b).Inv := by
  unfold State.swapIn
  repeat' first
    | with_reducible assumption
    | with_reducible apply State.Inv.ite
    | with_reducible apply State.setBellows_inv
    | with_reducible apply State.swapEvent_inv
    | with_reducible apply State.becomeActive_inv
    | with_reducible apply State.fallSilent_inv

theorem execSwapExecute_inv (firstA : Bool) (firstB : Bool) {s : State} (hs : s.Inv) : SoundOut (execSwapExecute firstA firstB s) := by
  unfold execSwapExecute
  repeat' first
    | with_reducible assumption
    | with_reducible apply SoundOut.next
    | with_reducible apply State.swapOut_inv
    | with_reducible apply State.swapIn_inv
    | split

end Sys2Proof.Machine
end

