-- ==== Sys2Proof/Laws/Inv/Swage.lean ====
section
/-! SUPPORT. The invariant `State.Inv` is kept by every function of Machine/Swage.lean. -/

namespace Sys2Proof.Machine

theorem State.swgSync_inv {s : State} (hs : s.Inv) (c : Nat) : (State.swgSync s c).Inv := by
  unfold State.swgSync
  repeat' first
    | with_reducible assumption
    | with_reducible apply State.wr64_inv
    | with_reducible apply State.Inv.wr
    | with_reducible apply State.wrS_inv

theorem State.setSwg_inv {s : State} (hs : s.Inv) (c : Nat) (v : SwgCh) : (State.setSwg s c v).Inv := by
  unfold State.setSwg
  repeat' first
    | with_reducible assumption
    | (unfold State.Inv; dsimp only; apply State.Inv.parts)

theorem State.swgStop_inv {s : State} (hs : s.Inv) (c : Nat) (status : Nat) (keep : Bool) : (State.swgStop s c status keep).Inv := by
  unfold State.swgStop
  repeat' first
    | with_reducible assumption
    | with_reducible apply State.Inv.ite
    | with_reducible apply State.swgSync_inv
    | with_reducible apply State.setSwg_inv

theorem State.swgAbort_inv {s : State} (hs : s.Inv) (d : Nat) : (State.swgAbort s d).Inv := by
  unfold State.swgAbort
  repeat' first
    | with_reducible assumption
    | with_reducible apply State.swgStop_inv
    | with_reducible apply State.complete_inv
    | with_reducible apply State.setSwg_inv
    | (with_reducible apply State.Inv.foldl; intro _ _ _)
    | split
    | (unfold State.Inv; dsimp only; apply State.Inv.parts)

theorem execSwageLinkSlot_inv (c : Fin 16) {s : State} (hs : s.Inv) : SoundOut (execSwageLinkSlot c s) := by
  unfold execSwageLinkSlot
  repeat' first
    | with_reducible assumption
    | with_reducible apply SoundOut.next
    | with_reducible apply State.setSwg_inv
    | with_reducible apply State.swgSync_inv
    | with_reducible apply State.Inv.wr

theorem State.swgEvent_inv {s : State} (hs : s.Inv) (code : Nat) (c : Nat) (d : DWord) : (State.swgEvent s code c d).Inv := by
  unfold State.swgEvent
  repeat' first
    | with_reducible assumption
    | with_reducible apply State.raise_inv

theorem State.swgEnd_inv {s : State} (hs : s.Inv) (c : Nat) (status : Nat) (keep : Bool) : (State.swgEnd s c status keep).Inv := by
  unfold State.swgEnd
  repeat' first
    | with_reducible assumption
    | with_reducible apply State.Inv.wr
    | with_reducible apply State.setSwg_inv
    | with_reducible apply State.complete_inv
    | with_reducible apply State.swgEvent_inv
    | with_reducible apply State.swgSync_inv
    | (with_reducible apply State.Inv.foldl; intro _ _ _)
    | split
    | (unfold State.Inv; dsimp only; apply State.Inv.parts)

theorem State.swgFaultEnd_inv {s : State} (hs : s.Inv) (c : Nat) : (State.swgFaultEnd s c).Inv := by
  unfold State.swgFaultEnd
  repeat' first
    | with_reducible assumption
    | with_reducible apply State.swgSync_inv
    | with_reducible apply State.swgEnd_inv
    | with_reducible apply State.Inv.wr

theorem State.linkReport_inv {s : State} (hs : s.Inv) (n : Nat) : (State.linkReport s n).Inv := by
  unfold State.linkReport
  repeat' first
    | with_reducible assumption
    | with_reducible apply State.raise_inv
    | split
    | (unfold State.Inv; dsimp only; apply State.Inv.parts)

theorem State.swgMissing_inv {s : State} (hs : s.Inv) (c : Nat) : (State.swgMissing s c).Inv := by
  unfold State.swgMissing
  repeat' first
    | with_reducible assumption
    | with_reducible apply State.Inv.ite
    | with_reducible apply State.bump_inv
    | with_reducible apply State.setSwg_inv
    | with_reducible apply State.swgFaultEnd_inv
    | with_reducible apply State.raise_inv
    | with_reducible apply State.Inv.wr
    | with_reducible apply State.linkReport_inv

theorem State.swgChatter_inv {s : State} (hs : s.Inv) (c : Nat) : (State.swgChatter s c).Inv := by
  unfold State.swgChatter
  repeat' first
    | with_reducible assumption
    | with_reducible apply State.Inv.ite
    | with_reducible apply State.swgStop_inv
    | with_reducible apply State.swgEvent_inv
    | with_reducible apply State.Inv.wr

theorem State.swgTrip_inv {s : State} (hs : s.Inv) (c : Nat) (neg : Bool) : (State.swgTrip s c neg).Inv := by
  unfold State.swgTrip
  repeat' first
    | with_reducible assumption
    | with_reducible apply State.swgStop_inv
    | with_reducible apply State.swgEvent_inv
    | with_reducible apply State.bump_inv
    | split
    | (unfold State.Inv; dsimp only; apply State.Inv.parts)

theorem State.swgLimit_inv {s : State} (hs : s.Inv) (c : Nat) (neg : Bool) (level : Bool) : (State.swgLimit s c neg level).Inv := by
  unfold State.swgLimit
  repeat' first
    | with_reducible assumption
    | with_reducible apply State.Inv.ite
    | with_reducible apply State.Inv.wr
    | with_reducible apply State.setSwg_inv
    | with_reducible apply State.put_inv
    | with_reducible apply State.swgChatter_inv
    | with_reducible apply State.swgTrip_inv

theorem execSwageStatusMessage_inv (c : Fin 16) (w : Word) {s : State} (hs : s.Inv) : SoundOut (execSwageStatusMessage c w s) := by
  unfold execSwageStatusMessage
  repeat' first
    | with_reducible assumption
    | with_reducible apply SoundOut.next
    | with_reducible apply State.Inv.ite
    | with_reducible apply SoundOut.ite
    | with_reducible apply State.bump_inv
    | with_reducible apply State.swgMissing_inv
    | with_reducible apply State.linkReport_inv
    | with_reducible apply State.setSwg_inv
    | with_reducible apply State.swgFaultEnd_inv
    | with_reducible apply State.swgEvent_inv
    | with_reducible apply State.Inv.wr
    | with_reducible apply State.swgLimit_inv

theorem execStatusMessageMissing_inv (c : Fin 16) {s : State} (hs : s.Inv) : SoundOut (execStatusMessageMissing c s) := by
  unfold execStatusMessageMissing
  repeat' first
    | with_reducible assumption
    | with_reducible apply SoundOut.next
    | with_reducible apply State.swgMissing_inv

theorem State.swgApply_inv {s : State} (hs : s.Inv) (c : Nat) : (State.swgApply s c).Inv := by
  unfold State.swgApply
  repeat' first
    | with_reducible assumption
    | with_reducible apply State.complete_inv
    | with_reducible apply State.Inv.wr
    | with_reducible apply State.setSwg_inv
    | with_reducible apply State.swgEvent_inv
    | (with_reducible apply State.Inv.foldl; intro _ _ _)
    | split
    | (unfold State.Inv; dsimp only; apply State.Inv.parts)

theorem State.swgArrive_inv {s : State} (hs : s.Inv) (c : Nat) : (State.swgArrive s c).Inv := by
  unfold State.swgArrive
  repeat' first
    | with_reducible assumption
    | with_reducible apply State.swgSync_inv
    | with_reducible apply State.setSwg_inv
    | with_reducible apply State.swgEnd_inv
    | split
    | (unfold State.Inv; dsimp only; apply State.Inv.parts)

theorem State.swgRamp_inv {s : State} (hs : s.Inv) (c : Nat) (h : SwgHalt) : (State.swgRamp s c h).Inv := by
  unfold State.swgRamp
  repeat' first
    | with_reducible assumption
    | with_reducible apply State.Inv.ite
    | with_reducible apply State.swgEnd_inv
    | with_reducible apply State.swgSync_inv
    | with_reducible apply State.setSwg_inv
    | split

theorem State.swgChoose_inv {s : State} (hs : s.Inv) (c : Nat) (m : SwgMove) (pick : Int) : (State.swgChoose s c m pick).Inv := by
  unfold State.swgChoose
  repeat' first
    | with_reducible assumption
    | with_reducible apply State.Inv.ite
    | with_reducible apply State.swgArrive_inv
    | with_reducible apply State.swgSync_inv
    | with_reducible apply State.complete_inv
    | with_reducible apply State.setSwg_inv

theorem execProfileTick_inv (c : Fin 16) (pick : DWord) {s : State} (hs : s.Inv) : SoundOut (execProfileTick c pick s) := by
  unfold execProfileTick
  repeat' first
    | with_reducible assumption
    | with_reducible apply SoundOut.next
    | with_reducible apply State.setSwg_inv
    | with_reducible apply State.swgApply_inv
    | with_reducible apply State.swgSync_inv
    | with_reducible apply State.swgArrive_inv
    | with_reducible apply State.swgRamp_inv
    | with_reducible apply State.swgChoose_inv
    | split
    | dsimp only

theorem State.swgStart_inv {s : State} (hs : s.Inv) (c : Nat) (m : SwgMove) (current : Nat) : (State.swgStart s c m current).Inv := by
  unfold State.swgStart
  repeat' first
    | with_reducible assumption
    | with_reducible apply State.complete_inv
    | with_reducible apply State.swgEvent_inv
    | with_reducible apply State.Inv.wr
    | with_reducible apply State.swgSync_inv
    | with_reducible apply State.setSwg_inv
    | split

theorem execSwgMove_inv (r : Fin 64) {s : State} (hs : s.Inv) : SoundOut (execSwgMove r s) := by
  unfold execSwgMove
  repeat' first
    | with_reducible assumption
    | with_reducible apply SoundOut.next
    | with_reducible apply State.runDesc_inv
    | with_reducible apply State.fail_inv
    | with_reducible apply State.swgStart_inv
    | split
    | dsimp only
    | (with_reducible intro _ _ _)

theorem execSwgStop_inv (r : Fin 64) {s : State} (hs : s.Inv) : SoundOut (execSwgStop r s) := by
  unfold execSwgStop
  repeat' first
    | with_reducible assumption
    | with_reducible apply SoundOut.next
    | with_reducible apply State.runDesc_inv
    | with_reducible apply State.complete_inv
    | with_reducible apply State.swgStop_inv
    | with_reducible apply State.setSwg_inv
    | split
    | dsimp only
    | (with_reducible intro _ _ _)

theorem execSwgResume_inv (r : Fin 64) {s : State} (hs : s.Inv) : SoundOut (execSwgResume r s) := by
  unfold execSwgResume
  repeat' first
    | with_reducible assumption
    | with_reducible apply SoundOut.next
    | with_reducible apply State.runDesc_inv
    | with_reducible apply State.fail_inv
    | with_reducible apply State.complete_inv
    | with_reducible apply State.swgStart_inv
    | split
    | dsimp only
    | (with_reducible intro _ _ _)

theorem execSwgHome_inv (r : Fin 64) {s : State} (hs : s.Inv) : SoundOut (execSwgHome r s) := by
  unfold execSwgHome
  repeat' first
    | with_reducible assumption
    | with_reducible apply SoundOut.next
    | with_reducible apply State.runDesc_inv
    | with_reducible apply State.fail_inv
    | with_reducible apply State.swgStart_inv
    | split
    | dsimp only
    | (with_reducible intro _ _ _)

theorem State.swgRecord_inv {s : State} (hs : s.Inv) (c : Nat) (a : Nat) (d : Nat) (j : Nat) : (State.swgRecord s c a d j).Inv := by
  unfold State.swgRecord
  repeat' first
    | with_reducible assumption
    | with_reducible apply State.Inv.ite
    | with_reducible apply State.Inv.wr
    | with_reducible apply State.setSwg_inv

theorem execSwgSetAccel_inv (r : Fin 64) {s : State} (hs : s.Inv) : SoundOut (execSwgSetAccel r s) := by
  unfold execSwgSetAccel
  repeat' first
    | with_reducible assumption
    | with_reducible apply SoundOut.next
    | with_reducible apply State.runDesc_inv
    | with_reducible apply State.swgRecord_inv
    | with_reducible apply State.setSwg_inv
    | (with_reducible intro _ _ _)

theorem execSwageAccelWrite_inv (c : Fin 16) (which : Fin 3) (v : Word) {s : State} (hs : s.Inv) : SoundOut (execSwageAccelWrite c which v s) := by
  unfold execSwageAccelWrite
  repeat' first
    | with_reducible assumption
    | with_reducible apply SoundOut.next
    | with_reducible apply SoundOut.ite
    | with_reducible apply State.setSwg_inv
    | with_reducible apply State.Inv.wr

theorem execSwageStopRequest_inv (c : Fin 16) {s : State} (hs : s.Inv) : SoundOut (execSwageStopRequest c s) := by
  unfold execSwageStopRequest
  repeat' first
    | with_reducible assumption
    | with_reducible apply SoundOut.next
    | with_reducible apply State.swgStop_inv

theorem execSwageEnable_inv (c : Fin 16) {s : State} (hs : s.Inv) : SoundOut (execSwageEnable c s) := by
  unfold execSwageEnable
  repeat' first
    | with_reducible assumption
    | with_reducible apply SoundOut.next
    | with_reducible apply SoundOut.ite
    | with_reducible apply State.Inv.wr
    | with_reducible apply State.swgSync_inv
    | with_reducible apply State.setSwg_inv

theorem execSwageDisable_inv (c : Fin 16) {s : State} (hs : s.Inv) : SoundOut (execSwageDisable c s) := by
  unfold execSwageDisable
  repeat' first
    | with_reducible assumption
    | with_reducible apply SoundOut.next
    | with_reducible apply SoundOut.ite
    | with_reducible apply State.Inv.wr
    | with_reducible apply State.swgStop_inv
    | with_reducible apply State.swgSync_inv

theorem execSwageClear_inv (c : Fin 16) {s : State} (hs : s.Inv) : SoundOut (execSwageClear c s) := by
  unfold execSwageClear
  repeat' first
    | with_reducible assumption
    | with_reducible apply SoundOut.next
    | with_reducible apply State.swgSync_inv
    | with_reducible apply State.Inv.wr

theorem execHomingSettleEnd_inv (c : Fin 16) {s : State} (hs : s.Inv) : SoundOut (execHomingSettleEnd c s) := by
  unfold execHomingSettleEnd
  repeat' first
    | with_reducible assumption
    | with_reducible apply SoundOut.next
    | with_reducible apply State.advanceTo_inv
    | with_reducible apply State.swgSync_inv
    | with_reducible apply State.Inv.wr
    | with_reducible apply State.setSwg_inv
    | split
    | dsimp only

theorem execHoldCurrentDelay_inv (c : Fin 16) {s : State} (hs : s.Inv) : SoundOut (execHoldCurrentDelay c s) := by
  unfold execHoldCurrentDelay
  repeat' first
    | with_reducible assumption
    | with_reducible apply SoundOut.next
    | with_reducible apply SoundOut.ite
    | with_reducible apply State.advanceTo_inv
    | with_reducible apply State.setSwg_inv

theorem State.swgSentinel_inv {s : State} (hs : s.Inv) : (State.swgSentinel s).Inv := by
  unfold State.swgSentinel
  repeat' first
    | with_reducible assumption
    | with_reducible apply State.swgSync_inv
    | with_reducible apply State.swgStop_inv
    | (with_reducible apply State.Inv.foldl; intro _ _ _)

theorem State.swgHold_inv {s : State} (hs : s.Inv) : (State.swgHold s).Inv := by
  unfold State.swgHold
  repeat' first
    | with_reducible assumption
    | with_reducible apply State.swgStop_inv
    | (with_reducible apply State.Inv.foldl; intro _ _ _)

end Sys2Proof.Machine
end

