-- ==== Sys2Proof/Laws/Inv/Kindle.lean ====
section
/-! SUPPORT. The invariant `State.Inv` is kept by every function of Machine/Kindle.lean. -/

namespace Sys2Proof.Machine

theorem State.enterKindle_inv {s : State} (hs : s.Inv) (cause : Nat) : (State.enterKindle s cause).Inv := by
  unfold State.enterKindle
  repeat' first
    | with_reducible assumption
    | with_reducible apply State.setMode_inv
    | with_reducible apply State.installSched_inv
    | with_reducible apply State.Inv.wr
    | with_reducible apply State.startSegment_inv
    | (unfold State.Inv; dsimp only; apply State.Inv.parts)

end Sys2Proof.Machine
end

