-- ==== Sys2Proof/Laws/Inv/Update.lean ====
section
/-! SUPPORT. The invariant `State.Inv` is kept by every function of Machine/Update.lean. -/

namespace Sys2Proof.Machine

theorem State.abortFlash_inv {s : State} (hs : s.Inv) (id : Nat) : (State.abortFlash s id).Inv := by
  unfold State.abortFlash
  repeat' first
    | with_reducible assumption
    | with_reducible apply State.complete_inv
    | (unfold State.Inv; dsimp only; apply State.Inv.parts)

theorem State.showSlot_inv {s : State} (hs : s.Inv) (n : Nat) : (State.showSlot s n).Inv := by
  unfold State.showSlot
  repeat' first
    | with_reducible assumption
    | with_reducible apply State.Inv.wr

theorem State.showFuses_inv {s : State} (hs : s.Inv) : (State.showFuses s).Inv := by
  unfold State.showFuses
  repeat' first
    | with_reducible assumption
    | with_reducible apply State.Inv.wr

theorem State.setSlot_inv {s : State} (hs : s.Inv) (n : Nat) (r : SlotRec) : (State.setSlot s n r).Inv := by
  unfold State.setSlot
  repeat' first
    | with_reducible assumption
    | with_reducible apply State.showSlot_inv
    | split
    | (unfold State.Inv; dsimp only; apply State.Inv.parts)

theorem State.bootSlot_inv {s : State} (hs : s.Inv) (n : Nat) : (State.bootSlot s n).Inv := by
  unfold State.bootSlot
  repeat' first
    | with_reducible assumption
    | with_reducible apply State.setSlot_inv
    | with_reducible apply State.showSlot_inv
    | with_reducible apply State.put_inv
    | with_reducible apply State.Inv.wr
    | split
    | (unfold State.Inv; dsimp only; apply State.Inv.parts)

theorem State.updEvent_inv {s : State} (hs : s.Inv) (src : Nat) (d : DWord) : (State.updEvent s src d).Inv := by
  unfold State.updEvent
  repeat' first
    | with_reducible assumption
    | with_reducible apply State.raise_inv

theorem State.rejectSlot_inv {s : State} (hs : s.Inv) (n : Nat) (code : Nat) : (State.rejectSlot s n code).Inv := by
  unfold State.rejectSlot
  repeat' first
    | with_reducible assumption
    | with_reducible apply State.updEvent_inv
    | with_reducible apply State.setSlot_inv

theorem State.noteFallback_inv {s : State} (hs : s.Inv) (first : Nat) (booted : Nat) : (State.noteFallback s first booted).Inv := by
  unfold State.noteFallback
  repeat' first
    | with_reducible assumption
    | with_reducible apply State.Inv.wr
    | with_reducible apply State.updEvent_inv

theorem execImageSlotChoice_inv {s : State} (hs : s.Inv) : SoundOut (execImageSlotChoice s) := by
  unfold execImageSlotChoice
  repeat' first
    | with_reducible assumption
    | with_reducible apply SoundOut.next
    | with_reducible apply SoundOut.ite
    | with_reducible apply State.bootSlot_inv
    | with_reducible apply State.Inv.wr
    | with_reducible apply State.rejectSlot_inv
    | with_reducible apply State.noteFallback_inv
    | with_reducible apply State.enterKindle_inv

theorem State.useSettings_inv {s : State} (hs : s.Inv) (n : Nat) : (State.useSettings s n).Inv := by
  unfold State.useSettings
  repeat' first
    | with_reducible assumption
    | with_reducible apply State.Inv.wr

theorem State.setSettings_inv {s : State} (hs : s.Inv) (n : Nat) (r : SettingsRec) : (State.setSettings s n r).Inv := by
  unfold State.setSettings
  repeat' first
    | with_reducible assumption
    | split
    | (unfold State.Inv; dsimp only; apply State.Inv.parts)

theorem State.setFlash_inv {s : State} (hs : s.Inv) (n : Nat) {m : List Host.Cell} (hm : Memory.wf m = true) : (s.setFlash n m).Inv := by
  unfold State.setFlash
  by_cases h : n = 0
  · simp only [h, if_true]; exact hs.withFlash hm hs.wf_flash1
  · simp only [h, if_false]; exact hs.withFlash hs.wf_flash0 hm

theorem State.wf_flash {s : State} (hs : s.Inv) (n : Nat) : Memory.wf (s.flash n) = true := by
  unfold State.flash
  split
  · exact hs.wf_flash0
  · exact hs.wf_flash1

theorem State.writeSettings_inv {s : State} (hs : s.Inv) (n format generation : Nat) (content : List Byte) :
    (s.writeSettings n format generation content).Inv :=
  State.setSettings_inv (State.setFlash_inv hs n (Memory.wf_writeBytes _ _ (State.wf_flash hs n))) _ _

theorem State.setWritten_inv {s : State} (hs : s.Inv) (n : Nat) : (State.setWritten s n).Inv := by
  unfold State.setWritten
  repeat' first
    | with_reducible assumption
    | with_reducible apply State.Inv.wr
    | (unfold State.Inv; dsimp only; apply State.Inv.parts)

theorem State.openStage_inv {s : State} (hs : s.Inv) (src : Nat) (slot : Nat) (len : Nat) : (State.openStage s src slot len).Inv := by
  unfold State.openStage
  repeat' first
    | with_reducible assumption
    | with_reducible apply State.setWritten_inv
    | with_reducible apply State.setSlot_inv
    | with_reducible apply State.Inv.wr
    | with_reducible apply State.updEvent_inv
    | split
    | (unfold State.Inv; dsimp only; apply State.Inv.parts)

theorem execStageOpen_inv (r : Fin 64) {s : State} (hs : s.Inv) : SoundOut (execStageOpen r s) := by
  unfold execStageOpen
  repeat' first
    | with_reducible assumption
    | with_reducible apply SoundOut.next
    | with_reducible apply State.runDesc_inv
    | with_reducible apply State.fail_inv
    | with_reducible apply State.complete_inv
    | with_reducible apply State.openStage_inv
    | split
    | (with_reducible intro _ _ _)

theorem execStageWrite_inv (r : Fin 64) (io : HostIo) {s : State} (hs : s.Inv) : SoundOut (execStageWrite r io s) := by
  unfold execStageWrite
  repeat' first
    | with_reducible assumption
    | with_reducible apply SoundOut.next
    | with_reducible apply State.runDesc_inv
    | with_reducible apply State.fail_inv
    | with_reducible apply State.withBody_inv
    | split
    | (unfold State.Inv; dsimp only; apply State.Inv.parts)
    | (with_reducible intro _ _ _)

theorem State.commitStage_inv {s : State} (hs : s.Inv) : (State.commitStage s).Inv := by
  unfold State.commitStage
  repeat' first
    | with_reducible assumption
    | with_reducible apply State.releaseLock_inv
    | with_reducible apply State.setSlot_inv
    | with_reducible apply State.updEvent_inv

theorem execStageCommit_inv (r : Fin 64) {s : State} (hs : s.Inv) : SoundOut (execStageCommit r s) := by
  unfold execStageCommit
  repeat' first
    | with_reducible assumption
    | with_reducible apply SoundOut.next
    | with_reducible apply State.runDesc_inv
    | with_reducible apply State.fail_inv
    | with_reducible apply State.complete_inv
    | with_reducible apply State.commitStage_inv
    | split
    | (with_reducible intro _ _ _)

theorem execStageRelease_inv (r : Fin 64) {s : State} (hs : s.Inv) : SoundOut (execStageRelease r s) := by
  unfold execStageRelease
  repeat' first
    | with_reducible assumption
    | with_reducible apply SoundOut.next
    | with_reducible apply State.runDesc_inv
    | with_reducible apply State.fail_inv
    | with_reducible apply State.complete_inv
    | with_reducible apply State.releaseLock_inv
    | split
    | (with_reducible intro _ _ _)

theorem execEthernetStageRequest_inv (op : StageOp) {s : State} (hs : s.Inv) : SoundOut (execEthernetStageRequest op s) := by
  unfold execEthernetStageRequest
  repeat' first
    | with_reducible assumption
    | with_reducible apply SoundOut.next
    | with_reducible apply State.openStage_inv
    | with_reducible apply State.commitStage_inv
    | with_reducible apply State.releaseLock_inv
    | split
    | (unfold State.Inv; dsimp only; apply State.Inv.parts)

theorem execStageLockTimeout_inv {s : State} (hs : s.Inv) : SoundOut (execStageLockTimeout s) := by
  unfold execStageLockTimeout
  repeat' first
    | with_reducible assumption
    | with_reducible apply SoundOut.next
    | with_reducible apply SoundOut.ite
    | with_reducible apply State.releaseLock_inv
    | with_reducible apply State.advanceTo_inv

theorem State.confirmImage_inv {s : State} (hs : s.Inv) : (State.confirmImage s).Inv := by
  unfold State.confirmImage
  repeat' first
    | with_reducible assumption
    | with_reducible apply State.Inv.wr
    | with_reducible apply State.setSlot_inv
    | with_reducible apply State.updEvent_inv
    | with_reducible apply State.showFuses_inv
    | split
    | (unfold State.Inv; dsimp only; apply State.Inv.parts)

theorem execImageConfirm_inv (r : Fin 64) {s : State} (hs : s.Inv) : SoundOut (execImageConfirm r s) := by
  unfold execImageConfirm
  repeat' first
    | with_reducible assumption
    | with_reducible apply SoundOut.next
    | with_reducible apply State.runDesc_inv
    | with_reducible apply State.fail_inv
    | with_reducible apply State.confirmImage_inv
    | with_reducible apply State.complete_inv
    | with_reducible apply State.drawn_inv
    | split
    | dsimp only
    | (with_reducible intro _ _ _)

theorem execOwnerFuse_inv (r : Fin 64) (io : HostIo) (readBack : Bool) {s : State} (hs : s.Inv) : SoundOut (execOwnerFuse r io readBack s) := by
  unfold execOwnerFuse
  repeat' first
    | with_reducible assumption
    | with_reducible apply SoundOut.next
    | with_reducible apply State.runDesc_inv
    | with_reducible apply State.fail_inv
    | with_reducible apply State.withBody_inv
    | with_reducible apply State.complete_inv
    | with_reducible apply State.Inv.wr
    | split
    | (unfold State.Inv; dsimp only; apply State.Inv.parts)
    | (with_reducible intro _ _ _)

theorem execSettingsSave_inv (r : Fin 64) (content : List Byte) {s : State} (hs : s.Inv) : SoundOut (execSettingsSave r content s) := by
  unfold execSettingsSave
  repeat' first
    | with_reducible assumption
    | with_reducible apply SoundOut.next
    | with_reducible apply State.runDesc_inv
    | (unfold State.Inv; dsimp only; apply State.Inv.parts)
    | (with_reducible intro _ _ _)

theorem execAttest_inv (r : Fin 64) (io : HostIo) {s : State} (hs : s.Inv) : SoundOut (execAttest r io s) := by
  unfold execAttest
  repeat' first
    | with_reducible assumption
    | with_reducible apply SoundOut.next
    | with_reducible apply State.runDesc_inv
    | with_reducible apply State.fail_inv
    | with_reducible apply State.updEvent_inv
    | with_reducible apply State.hostResult_inv
    | split
    | (with_reducible intro _ _ _)

theorem State.stageStatus_inv {s : State} (hs : s.Inv) (desc : Option Nat) (st : Nat) (check : Nat) : (State.stageStatus s desc st check).Inv := by
  unfold State.stageStatus
  repeat' first
    | with_reducible assumption
    | with_reducible apply State.complete_inv
    | with_reducible apply State.fail_inv
    | split
    | (unfold State.Inv; dsimp only; apply State.Inv.parts)

theorem State.endStageWrite_inv {s : State} (hs : s.Inv) (ok : Bool) (desc : Option Nat) (off : Nat) (bytes : List Byte) :
    (s.endStageWrite ok desc off bytes).Inv := by
  unfold State.endStageWrite
  refine State.Inv.ite ?_ (State.Inv.ite (State.stageStatus_inv hs _ _ _) (State.stageStatus_inv ?_ _ _ _))
  · exact State.stageStatus_inv (State.Inv.ite (State.releaseLock_inv (State.drawn_inv hs) _) hs) _ _ _
  · exact State.setWritten_inv (State.setFlash_inv hs _ (Memory.wf_writeBytes _ _ (State.wf_flash hs _))) _

theorem State.endSettings_inv {s : State} (hs : s.Inv) (ok : Bool) (desc : Nat) (n : Nat) (content : List Byte) : (State.endSettings s ok desc n content).Inv := by
  unfold State.endSettings
  repeat' first
    | with_reducible assumption
    | with_reducible apply State.Inv.ite
    | with_reducible apply State.fail_inv
    | with_reducible apply State.complete_inv
    | with_reducible apply State.useSettings_inv
    | with_reducible apply State.writeSettings_inv

theorem execFlashProgramComplete_inv (ok : Bool) {s : State} (hs : s.Inv) : SoundOut (execFlashProgramComplete ok s) := by
  unfold execFlashProgramComplete
  repeat' first
    | with_reducible assumption
    | with_reducible apply SoundOut.next
    | with_reducible apply SoundOut.ite
    | with_reducible apply State.endStageWrite_inv
    | with_reducible apply State.fail_inv
    | with_reducible apply State.complete_inv
    | with_reducible apply State.raise_inv
    | with_reducible apply State.Inv.wr
    | with_reducible apply State.endSettings_inv
    | split
    | (unfold State.Inv; dsimp only; apply State.Inv.parts)

end Sys2Proof.Machine
end

