-- ==== Sys2Proof/Laws/Inv/HifOps.lean ====
section
/-! SUPPORT. The invariant `State.Inv` is kept by every function of Machine/HifOps.lean. -/

namespace Sys2Proof.Machine

theorem State.withdrawUnlock_inv {s : State} (hs : s.Inv) (cause : Nat) : (State.withdrawUnlock s cause).Inv := by
  unfold State.withdrawUnlock
  repeat' first
    | with_reducible assumption
    | with_reducible apply State.Inv.ite
    | with_reducible apply State.raise_inv
    | with_reducible apply State.Inv.wr

theorem State.loseStaged_inv {s : State} (hs : s.Inv) : s.loseStaged.Inv := by
  unfold State.loseStaged
  have h : ∀ t : State, t.Inv → State.Inv { t with hif := { t.hif with events := [] } } :=
    fun t h => h.withEvents (l := []) (by simp)
  exact h _ (State.Inv.foldl (fun t e h => State.bump_inv (State.wrBit_inv h _ _ _ _ _) _ _ _ _) hs)

theorem State.clearCq_inv {s : State} (hs : s.Inv) (r : Nat) : (State.clearCq s r).Inv := by
  unfold State.clearCq
  repeat' first
    | with_reducible assumption
    | with_reducible apply State.Inv.setWord
    | with_reducible apply State.Inv.wr

theorem State.clearSq_inv {s : State} (hs : s.Inv) (r : Nat) : (State.clearSq s r).Inv := by
  unfold State.clearSq
  repeat' first
    | with_reducible assumption
    | with_reducible apply State.Inv.wr
    | with_reducible apply State.Inv.setWord

theorem State.clearHifRegs_inv {s : State} (hs : s.Inv) : (State.clearHifRegs s).Inv := by
  unfold State.clearHifRegs
  repeat' first
    | with_reducible assumption
    | with_reducible apply State.clearCq_inv
    | with_reducible apply State.clearSq_inv
    | with_reducible apply State.Inv.wr
    | (with_reducible apply State.Inv.foldl; intro _ _ _)

theorem State.abortImmediate_inv {s : State} (hs : s.Inv) (c : Nat) (id : Nat) : (State.abortImmediate s c id).Inv := by
  unfold State.abortImmediate
  repeat' first
    | with_reducible assumption
    | with_reducible apply State.complete_inv
    | with_reducible apply State.setChain_inv

theorem State.abortTune_inv {s : State} (hs : s.Inv) (id : Nat) : (State.abortTune s id).Inv := by
  unfold State.abortTune
  repeat' first
    | with_reducible assumption
    | with_reducible apply State.endTune_inv
    | with_reducible apply State.complete_inv
    | with_reducible apply State.syncTune_inv
    | split
    | (unfold State.Inv; dsimp only; apply State.Inv.parts)

theorem State.abortDesc_inv {s : State} (hs : s.Inv) (d : Desc) : (s.abortDesc d).1.Inv := by
  have h0 : ∀ (t : State) p, t.Inv → State.Inv { t with plan := p } := fun t p h => h
  have hc : ∀ n, (s.complete d.id n).Inv := fun n => State.complete_inv hs _ _ _ _ _
  unfold State.abortDesc
  dsimp only
  split
  · split
    · rename_i e; exact State.Inv.of_fst e (State.abortSeg_inv hs _ _)
    · rename_i e; exact State.complete_inv (State.Inv.of_fst e (State.abortSeg_inv hs _ _)) _ _ _ _ _
  · split
    · exact State.abortImmediate_inv hs _ _
    · split
      · split
        · exact State.abortSlot_inv hs _
        · exact hc 4
      · split
        · exact State.complete_inv (h0 _ _ hs) _ _ _ _ _
        · split
          · exact State.Inv.ite (State.swgAbort_inv hs _) (hc 4)
          · split
            · exact State.Inv.ite (State.abortBrakeTest_inv hs _) (hc 4)
            · split
              · exact State.abortSwap_inv hs _
              · split
                · exact State.abortTune_inv hs _
                · split
                  · exact State.abortFlash_inv hs _
                  · exact hc 4

theorem State.abortAll_inv {s : State} (hs : s.Inv) (l : List Desc) : (s.abortAll l).1.Inv :=
  State.Inv.foldl_fst (fun q a h => State.abortDesc_inv h a) hs

theorem State.hifReset_inv {s : State} (hs : s.Inv) : (State.hifReset s).Inv := by
  unfold State.hifReset
  repeat' first
    | with_reducible assumption
    | with_reducible apply State.loseStaged_inv
    | with_reducible apply State.clearHifRegs_inv
    | with_reducible apply State.abortAll_inv
    | with_reducible apply State.releaseLock_inv
    | with_reducible apply State.raise_inv
    | with_reducible apply State.withdrawUnlock_inv
    | split
    | (unfold State.Inv; dsimp only; apply State.Inv.parts)

end Sys2Proof.Machine
end

