-- ==== Sys2Proof/Laws/Inv/Modes.lean ====
section
/-! SUPPORT. The invariant `State.Inv` is kept by every function of Machine/Modes.lean. -/

namespace Sys2Proof.Machine

theorem State.sentinelCause_inv {s : State} (hs : s.Inv) (cause : Nat) : (State.sentinelCause s cause).Inv := by
  unfold State.sentinelCause
  repeat' first
    | with_reducible assumption
    | split
    | (unfold State.Inv; dsimp only; apply State.Inv.parts)

theorem State.requestMode_inv {s : State} (hs : s.Inv) (m : Master) (target : Nat) : (State.requestMode s m target).Inv := by
  unfold State.requestMode
  repeat' first
    | with_reducible assumption
    | with_reducible apply State.wrIgnored_inv
    | with_reducible apply State.Inv.wr
    | split
    | (unfold State.Inv; dsimp only; apply State.Inv.parts)

theorem execModeRequestRun_inv (m : Master) {s : State} (hs : s.Inv) : SoundOut (execModeRequestRun m s) := by
  unfold execModeRequestRun
  repeat' first
    | with_reducible assumption
    | with_reducible apply SoundOut.next
    | with_reducible apply State.requestMode_inv

theorem execModeRequestHold_inv (m : Master) {s : State} (hs : s.Inv) : SoundOut (execModeRequestHold m s) := by
  unfold execModeRequestHold
  repeat' first
    | with_reducible assumption
    | with_reducible apply SoundOut.next
    | with_reducible apply State.requestMode_inv

theorem execModeRequestCommission_inv (m : Master) {s : State} (hs : s.Inv) : SoundOut (execModeRequestCommission m s) := by
  unfold execModeRequestCommission
  repeat' first
    | with_reducible assumption
    | with_reducible apply SoundOut.next
    | with_reducible apply State.requestMode_inv

theorem execModeRequestStage_inv (m : Master) {s : State} (hs : s.Inv) : SoundOut (execModeRequestStage m s) := by
  unfold execModeRequestStage
  repeat' first
    | with_reducible assumption
    | with_reducible apply SoundOut.next
    | with_reducible apply State.requestMode_inv

theorem execModeRequestSentinel_inv (m : Master) {s : State} (hs : s.Inv) : SoundOut (execModeRequestSentinel m s) := by
  unfold execModeRequestSentinel
  repeat' first
    | with_reducible assumption
    | with_reducible apply SoundOut.next
    | with_reducible apply State.requestMode_inv

theorem execModeRequestStandby_inv (m : Master) {s : State} (hs : s.Inv) : SoundOut (execModeRequestStandby m s) := by
  unfold execModeRequestStandby
  repeat' first
    | with_reducible assumption
    | with_reducible apply SoundOut.next
    | with_reducible apply State.requestMode_inv

theorem execModeRequestColdKindle_inv (m : Master) (kindle : Bool) {s : State} (hs : s.Inv) : SoundOut (execModeRequestColdKindle m kindle s) := by
  unfold execModeRequestColdKindle
  repeat' first
    | with_reducible assumption
    | with_reducible apply SoundOut.next
    | with_reducible apply State.requestMode_inv

theorem State.refuseMode_inv {s : State} (hs : s.Inv) (status : Nat) (why : Nat) : (State.refuseMode s status why).Inv := by
  unfold State.refuseMode
  repeat' first
    | with_reducible assumption
    | with_reducible apply State.Inv.wr

theorem State.stopCores_inv {s : State} (hs : s.Inv) : (State.stopCores s).Inv := by
  unfold State.stopCores
  repeat' first
    | with_reducible assumption
    | with_reducible apply State.setCore_inv
    | with_reducible apply State.Inv.wr
    | with_reducible apply State.syncAnvil_inv
    | with_reducible apply State.syncHive_inv
    | (with_reducible apply State.Inv.foldl; intro _ _ _)
    | (unfold State.Inv; dsimp only; apply State.Inv.parts)

theorem State.endDescs_inv {s : State} (hs : s.Inv) : (State.endDescs s).Inv := by
  unfold State.endDescs
  repeat' first
    | with_reducible assumption
    | with_reducible apply State.abortBrakeTest_inv
    | with_reducible apply State.complete_inv
    | (with_reducible apply State.Inv.foldl; intro _ _ _)
    | split

theorem State.stopFirmware_inv {s : State} (hs : s.Inv) : (State.stopFirmware s).Inv := by
  unfold State.stopFirmware
  repeat' first
    | with_reducible assumption
    | with_reducible apply State.endTune_inv
    | with_reducible apply State.syncTune_inv
    | with_reducible apply State.setChain_inv
    | with_reducible apply State.setSeg_inv
    | (with_reducible apply State.Inv.foldl; intro _ _ _)
    | (unfold State.Inv; dsimp only; apply State.Inv.parts)

theorem State.enterSentinel_inv {s : State} (hs : s.Inv) (cause : Nat) : (State.enterSentinel s cause).Inv := by
  unfold State.enterSentinel
  repeat' first
    | with_reducible assumption
    | with_reducible apply State.Inv.wr
    | with_reducible apply State.setMode_inv
    | with_reducible apply State.syncHoldover_inv
    | with_reducible apply State.swgSentinel_inv
    | with_reducible apply State.stopCores_inv
    | with_reducible apply State.endDescs_inv
    | with_reducible apply State.stopFirmware_inv
    | with_reducible apply State.syncPair_inv
    | (unfold State.Inv; dsimp only; apply State.Inv.parts)

theorem State.leaveCommission_inv {s : State} (hs : s.Inv) : (State.leaveCommission s).Inv := by
  unfold State.leaveCommission
  repeat' first
    | with_reducible assumption
    | with_reducible apply State.endTune_inv
    | (with_reducible apply State.Inv.foldl; intro _ _ _)

theorem State.holdAll_inv {s : State} (hs : s.Inv) : (State.holdAll s).Inv := by
  unfold State.holdAll
  repeat' first
    | with_reducible assumption
    | with_reducible apply State.Inv.ite
    | with_reducible apply State.swgHold_inv
    | with_reducible apply State.holdChain_inv
    | (with_reducible apply State.Inv.foldl; intro _ _ _)

theorem State.resumeAll_inv {s : State} (hs : s.Inv) : (State.resumeAll s).Inv := by
  unfold State.resumeAll
  repeat' first
    | with_reducible assumption
    | with_reducible apply State.Inv.ite
    | with_reducible apply State.resumeChain_inv
    | with_reducible apply State.setChain_inv
    | (with_reducible apply State.Inv.foldl; intro _ _ _)

theorem State.stageAll_inv {s : State} (hs : s.Inv) : (State.stageAll s).Inv := by
  unfold State.stageAll
  repeat' first
    | with_reducible assumption
    | with_reducible apply State.endProgram_inv
    | with_reducible apply State.disableEngine_inv
    | (with_reducible apply State.Inv.foldl; intro _ _ _)
    | (unfold State.Inv; dsimp only; apply State.Inv.parts)

theorem State.unstageAll_inv {s : State} (hs : s.Inv) : (State.unstageAll s).Inv := by
  unfold State.unstageAll
  repeat' first
    | with_reducible assumption
    | with_reducible apply State.setEng_inv
    | with_reducible apply State.Inv.wr
    | (with_reducible apply State.Inv.foldl; intro _ _ _)
    | split
    | (unfold State.Inv; dsimp only; apply State.Inv.parts)

theorem State.applyMode_inv {s : State} (hs : s.Inv) (t : Nat) : (State.applyMode s t).Inv := by
  unfold State.applyMode
  repeat' first
    | with_reducible assumption
    | with_reducible apply State.refuseMode_inv
    | with_reducible apply State.enterSentinel_inv
    | with_reducible apply State.takeRole_inv
    | with_reducible apply State.leaveCommission_inv
    | with_reducible apply State.holdAll_inv
    | with_reducible apply State.setMode_inv
    | with_reducible apply State.resumeAll_inv
    | with_reducible apply State.stageAll_inv
    | with_reducible apply State.Inv.wr
    | with_reducible apply State.unstageAll_inv
    | split
    | (unfold State.Inv; dsimp only; apply State.Inv.parts)

theorem execModeTransition_inv {s : State} (hs : s.Inv) : SoundOut (execModeTransition s) := by
  unfold execModeTransition
  repeat' first
    | with_reducible assumption
    | with_reducible apply SoundOut.next
    | with_reducible apply SoundOut.ite
    | with_reducible apply State.refuseMode_inv
    | with_reducible apply State.applyMode_inv
    | with_reducible apply State.blwEvent_inv
    | split
    | (unfold State.Inv; dsimp only; apply State.Inv.parts)

theorem execSentinelEntry_inv {s : State} (hs : s.Inv) : SoundOut (execSentinelEntry s) := by
  unfold execSentinelEntry
  repeat' first
    | with_reducible assumption
    | with_reducible apply SoundOut.next
    | with_reducible apply State.enterSentinel_inv
    | split
    | (unfold State.Inv; dsimp only; apply State.Inv.parts)

theorem State.sentinelEngine_inv {s : State} (hs : s.Inv) (n : Nat) (t : Nat) : (State.sentinelEngine s n t).Inv := by
  unfold State.sentinelEngine
  repeat' first
    | with_reducible assumption
    | with_reducible apply State.Inv.ite
    | with_reducible apply State.setEng_inv
    | with_reducible apply State.Inv.wr
    | with_reducible apply State.drawn_inv
    | (with_reducible apply State.Inv.foldl; intro _ _ _)

theorem execSentinelRampSwitch_inv {s : State} (hs : s.Inv) : SoundOut (execSentinelRampSwitch s) := by
  unfold execSentinelRampSwitch
  repeat' first
    | with_reducible assumption
    | with_reducible apply SoundOut.next
    | with_reducible apply State.sentinelEngine_inv
    | (with_reducible apply State.Inv.foldl; intro _ _ _)
    | split
    | (unfold State.Inv; dsimp only; apply State.Inv.parts)

theorem execFwWatchdogServe_inv (m : Master) (v : BitVec 16) {s : State} (hs : s.Inv) : SoundOut (execFwWatchdogServe m v s) := by
  unfold execFwWatchdogServe
  repeat' first
    | with_reducible assumption
    | with_reducible apply SoundOut.next
    | with_reducible apply State.wrIgnored_inv
    | split
    | (unfold State.Inv; dsimp only; apply State.Inv.parts)

theorem execFwWatchdogExpiry_inv {s : State} (hs : s.Inv) : SoundOut (execFwWatchdogExpiry s) := by
  unfold execFwWatchdogExpiry
  repeat' first
    | with_reducible assumption
    | with_reducible apply SoundOut.next
    | with_reducible apply SoundOut.ite
    | with_reducible apply State.sentinelCause_inv
    | with_reducible apply State.advanceTo_inv

theorem State.extensionFault_inv {s : State} (hs : s.Inv) : (State.extensionFault s).Inv := by
  unfold State.extensionFault
  repeat' first
    | with_reducible assumption
    | with_reducible apply State.raise_inv
    | with_reducible apply State.Inv.wr
    | (unfold State.Inv; dsimp only; apply State.Inv.parts)

theorem execDdrUncorrectableRead_inv (ch : Fin 2) (addr : DWord) (retryOk : Bool) {s : State} (hs : s.Inv) : SoundOut (execDdrUncorrectableRead ch addr retryOk s) := by
  unfold execDdrUncorrectableRead
  repeat' first
    | with_reducible assumption
    | with_reducible apply SoundOut.next
    | with_reducible apply SoundOut.ite
    | with_reducible apply State.raise_inv
    | with_reducible apply State.extensionFault_inv
    | with_reducible apply State.sentinelCause_inv
    | with_reducible apply State.Inv.wr

theorem execDdrControllerFault_inv (ch : Fin 2) {s : State} (hs : s.Inv) : SoundOut (execDdrControllerFault ch s) := by
  unfold execDdrControllerFault
  repeat' first
    | with_reducible assumption
    | with_reducible apply SoundOut.next
    | with_reducible apply State.Inv.ite
    | with_reducible apply State.raise_inv
    | with_reducible apply State.Inv.wr
    | with_reducible apply State.sentinelCause_inv

theorem execDdrCorrectableThreshold_inv (ch : Fin 2) (n : Word) {s : State} (hs : s.Inv) : SoundOut (execDdrCorrectableThreshold ch n s) := by
  unfold execDdrCorrectableThreshold
  repeat' first
    | with_reducible assumption
    | with_reducible apply SoundOut.next
    | with_reducible apply State.raise_inv

end Sys2Proof.Machine
end

