-- ==== Sys2Proof/Laws/Inv/Reset.lean ====
section
/-! SUPPORT. The invariant `State.Inv` is kept by every function of Machine/Reset.lean. -/

namespace Sys2Proof.Machine

theorem State.cleared_inv {s : State} (hs : s.Inv) : s.cleared.Inv :=
  ⟨rfl, hs.wf_host, hs.wf_ddr, rfl, hs.wf_flash0, hs.wf_flash1, by simp [State.cleared], by simp [State.cleared],
    by simp [State.cleared], (by decide : 0 < cellWrap), hs.pending_wf⟩

theorem State.unlockFell_inv (old : State) {s : State} (hs : s.Inv) : (State.unlockFell old s).Inv := by
  unfold State.unlockFell
  split
  · exact State.raise_inv hs _ _ _ _
  · exact hs

theorem State.powerOn_inv {s : State} (hs : s.Inv) : s.powerOn.Inv := by
  have h0 : State.Inv { s with tick := 0 } := hs
  have h1 := State.cleared_inv h0
  have h2 : State.Inv { State.cleared { s with tick := 0 } with sram := [], ddr := [] } := h1.withDdr rfl
  exact State.unlockFell_inv _ h2

theorem State.keepWord_inv {s : State} (hs : s.Inv) (old : State) (f : Fld) : (s.keepWord old f).Inv := hs.setWord _ _

theorem State.keepWax_inv {old s : State} (ho : old.Inv) (hs : s.Inv) : (State.keepWax old s).Inv := by
  unfold State.keepWax
  refine State.Inv.wr (State.Inv.wr (State.put_inv (State.put_inv (State.Inv.wr ?_ _ _ _ _) _ _ _ _) _ _ _ _) _ _ _ _) _ _ _ _
  exact ⟨hs.1, hs.wf_host, hs.wf_ddr, ho.wf_store, hs.wf_flash0, hs.wf_flash1, hs.events_le, by simp, hs.2.2.2.2.2.2.2.2⟩

theorem State.deviceReset_inv {s : State} (hs : s.Inv) (cause : Nat) : (State.deviceReset s cause).Inv := by
  unfold State.deviceReset
  repeat' first
    | with_reducible assumption
    | with_reducible exact SoundOut.next ‹_›
    | with_reducible apply SoundOut.next
    | with_reducible apply State.Inv.ite
    | with_reducible apply SoundOut.ite
    | with_reducible apply State.keepWord_inv
    | with_reducible apply State.cleared_inv
    | with_reducible apply State.put_inv
    | with_reducible apply State.Inv.wr
    | with_reducible apply State.bump_inv
    | with_reducible apply State.unlockFell_inv
    | with_reducible apply State.keepWax_inv

theorem execPowerOnReset_inv {s : State} (hs : s.Inv) : SoundOut (execPowerOnReset s) := by
  unfold execPowerOnReset
  repeat' first
    | with_reducible assumption
    | with_reducible exact SoundOut.next ‹_›
    | with_reducible apply SoundOut.next
    | with_reducible apply State.Inv.ite
    | with_reducible apply SoundOut.ite
    | with_reducible apply State.powerOn_inv
    | split
    | (unfold State.Inv; dsimp only; apply State.Inv.parts)

theorem execPinReset_inv (ns : Word) {s : State} (hs : s.Inv) : SoundOut (execPinReset ns s) := by
  unfold execPinReset
  repeat' first
    | with_reducible assumption
    | with_reducible exact SoundOut.next ‹_›
    | with_reducible apply SoundOut.next
    | with_reducible apply State.Inv.ite
    | with_reducible apply SoundOut.ite
    | with_reducible apply State.deviceReset_inv
    | with_reducible apply State.drawn_inv

theorem execSoftwareReset_inv (m : Master) {s : State} (hs : s.Inv) : SoundOut (execSoftwareReset m s) := by
  unfold execSoftwareReset
  repeat' first
    | with_reducible assumption
    | with_reducible exact SoundOut.next ‹_›
    | with_reducible apply SoundOut.next
    | with_reducible apply State.Inv.ite
    | with_reducible apply SoundOut.ite
    | with_reducible apply State.pvDropped_inv
    | with_reducible apply State.wrIgnored_inv
    | with_reducible apply State.deviceReset_inv

theorem execFarrierWatchdogReset_inv {s : State} (hs : s.Inv) : SoundOut (execFarrierWatchdogReset s) := by
  unfold execFarrierWatchdogReset
  repeat' first
    | with_reducible assumption
    | with_reducible exact SoundOut.next ‹_›
    | with_reducible apply SoundOut.next
    | with_reducible apply State.Inv.ite
    | with_reducible apply SoundOut.ite
    | with_reducible apply State.deviceReset_inv

theorem State.ethClockLost_inv {s : State} (hs : s.Inv) : (State.ethClockLost s).Inv := by
  unfold State.ethClockLost
  repeat' first
    | with_reducible assumption
    | with_reducible exact SoundOut.next ‹_›
    | with_reducible apply SoundOut.next
    | with_reducible apply State.Inv.ite
    | with_reducible apply SoundOut.ite
    | with_reducible apply State.Inv.wr
    | with_reducible apply State.blwEvent_inv
    | with_reducible apply State.wrBit_inv
    | with_reducible apply State.syncPair_inv
    | (with_reducible apply State.Inv.foldl; intro _ _ _)

theorem State.safClockLost_inv {s : State} (hs : s.Inv) : (State.safClockLost s).Inv := by
  unfold State.safClockLost
  repeat' first
    | with_reducible assumption
    | with_reducible exact SoundOut.next ‹_›
    | with_reducible apply SoundOut.next
    | with_reducible apply State.Inv.ite
    | with_reducible apply SoundOut.ite
    | with_reducible apply State.Inv.wr
    | with_reducible apply State.setGuards_inv
    | (with_reducible apply State.Inv.foldl; intro _ _ _)
    | split
    | (unfold State.Inv; dsimp only; apply State.Inv.parts)

theorem execPllUnlock_inv (k : Fin 7) {s : State} (hs : s.Inv) : SoundOut (execPllUnlock k s) := by
  unfold execPllUnlock
  repeat' first
    | with_reducible assumption
    | with_reducible exact SoundOut.next ‹_›
    | with_reducible apply SoundOut.next
    | with_reducible apply State.Inv.ite
    | with_reducible apply SoundOut.ite
    | with_reducible apply State.raise_inv
    | with_reducible apply State.wrBit_inv
    | with_reducible apply State.deviceReset_inv
    | with_reducible apply State.sentinelCause_inv
    | with_reducible apply State.hifReset_inv
    | with_reducible apply State.ethClockLost_inv
    | with_reducible apply State.safClockLost_inv
    | split

theorem execStaleResponseDiscard_inv {s : State} (hs : s.Inv) : SoundOut (execStaleResponseDiscard s) := by
  unfold execStaleResponseDiscard
  repeat' first
    | with_reducible assumption
    | with_reducible exact SoundOut.next ‹_›

theorem State.bootTo_inv {s : State} (hs : s.Inv) (n : Nat) : (State.bootTo s n).Inv := by
  unfold State.bootTo
  repeat' first
    | with_reducible assumption
    | with_reducible exact SoundOut.next ‹_›
    | with_reducible apply SoundOut.next
    | with_reducible apply State.Inv.ite
    | with_reducible apply SoundOut.ite
    | split
    | (unfold State.Inv; dsimp only; apply State.Inv.parts)

theorem execResetRelease_inv {s : State} (hs : s.Inv) : SoundOut (execResetRelease s) := by
  unfold execResetRelease
  repeat' first
    | with_reducible assumption
    | with_reducible exact SoundOut.next ‹_›
    | with_reducible apply SoundOut.next
    | with_reducible apply State.Inv.ite
    | with_reducible apply SoundOut.ite
    | with_reducible apply State.bootTo_inv

theorem execPllLock_inv {s : State} (hs : s.Inv) : SoundOut (execPllLock s) := by
  unfold execPllLock
  repeat' first
    | with_reducible assumption
    | with_reducible exact SoundOut.next ‹_›
    | with_reducible apply SoundOut.next
    | with_reducible apply State.Inv.ite
    | with_reducible apply SoundOut.ite
    | with_reducible apply State.Inv.wr
    | with_reducible apply State.bootTo_inv

theorem execOtpReadDone_inv (kindlePin : Bool) {s : State} (hs : s.Inv) : SoundOut (execOtpReadDone kindlePin s) := by
  unfold execOtpReadDone
  repeat' first
    | with_reducible assumption
    | with_reducible exact SoundOut.next ‹_›
    | with_reducible apply SoundOut.next
    | with_reducible apply State.Inv.ite
    | with_reducible apply SoundOut.ite
    | with_reducible apply State.Inv.wr
    | with_reducible apply State.bootTo_inv
    | with_reducible apply State.showSlot_inv
    | with_reducible apply State.showFuses_inv
    | with_reducible apply State.put_inv
    | with_reducible apply State.enterKindle_inv
    | (with_reducible apply State.Inv.foldl; intro _ _ _)
    | split
    | (unfold State.Inv; dsimp only; apply State.Inv.parts)

theorem execDdrTrainingDone_inv (ok : Bool) {s : State} (hs : s.Inv) : SoundOut (execDdrTrainingDone ok s) := by
  unfold execDdrTrainingDone
  repeat' first
    | with_reducible assumption
    | with_reducible exact SoundOut.next ‹_›
    | with_reducible apply SoundOut.next
    | with_reducible apply State.Inv.ite
    | with_reducible apply SoundOut.ite
    | with_reducible apply State.Inv.wr
    | with_reducible apply State.bootTo_inv
    | with_reducible apply State.deviceReset_inv
    | split
    | (unfold State.Inv; dsimp only; apply State.Inv.parts)

theorem execForagerStart_inv (regionsFit : Bool) {s : State} (hs : s.Inv) : SoundOut (execForagerStart regionsFit s) := by
  unfold execForagerStart
  repeat' first
    | with_reducible assumption
    | with_reducible exact SoundOut.next ‹_›
    | with_reducible apply SoundOut.next
    | with_reducible apply State.Inv.ite
    | with_reducible apply SoundOut.ite
    | with_reducible apply State.Inv.wr
    | with_reducible apply State.bootTo_inv
    | with_reducible apply State.syncAnvil_inv
    | (with_reducible apply State.Inv.foldl; intro _ _ _)
    | split
    | (unfold State.Inv; dsimp only; apply State.Inv.parts)

theorem State.refuseMigration_inv {s : State} (hs : s.Inv) (format : Nat) (reason : Nat) : (State.refuseMigration s format reason).Inv := by
  unfold State.refuseMigration
  repeat' first
    | with_reducible assumption
    | with_reducible exact SoundOut.next ‹_›
    | with_reducible apply SoundOut.next
    | with_reducible apply State.Inv.ite
    | with_reducible apply SoundOut.ite
    | with_reducible apply State.setSlot_inv
    | with_reducible apply State.deviceReset_inv
    | with_reducible apply State.updEvent_inv

theorem execSettingsMigration_inv (content : List Byte) (refusal : Option Word) {s : State} (hs : s.Inv) : SoundOut (execSettingsMigration content refusal s) := by
  unfold execSettingsMigration
  repeat' first
    | with_reducible assumption
    | with_reducible exact SoundOut.next ‹_›
    | with_reducible apply SoundOut.next
    | with_reducible apply State.Inv.ite
    | with_reducible apply SoundOut.ite
    | with_reducible apply State.bootTo_inv
    | with_reducible apply State.useSettings_inv
    | with_reducible apply State.refuseMigration_inv
    | with_reducible apply State.drawn_inv
    | with_reducible apply State.writeSettings_inv
    | with_reducible apply State.updEvent_inv
    | split
    | (unfold State.Inv; dsimp only; apply State.Inv.parts)
    | dsimp only

theorem execEndOfBoot_inv (startRun : Bool) {s : State} (hs : s.Inv) : SoundOut (execEndOfBoot startRun s) := by
  unfold execEndOfBoot
  repeat' first
    | with_reducible assumption
    | with_reducible exact SoundOut.next ‹_›
    | with_reducible apply SoundOut.next
    | with_reducible apply State.Inv.ite
    | with_reducible apply SoundOut.ite
    | with_reducible apply State.bootTo_inv
    | with_reducible apply State.takeRole_inv
    | with_reducible apply State.setMode_inv

end Sys2Proof.Machine
end

