-- ==== Sys2Proof/Laws/Inv/Clk.lean ====
section
/-! SUPPORT. The invariant `State.Inv` is kept by every function of Machine/Clk.lean. -/

namespace Sys2Proof.Machine

theorem State.sampleRail_inv {s : State} (hs : s.Inv) (i : Nat) (d : Int) : (State.sampleRail s i d).Inv := by
  unfold State.sampleRail
  repeat' first
    | with_reducible assumption
    | with_reducible apply State.raise_inv
    | with_reducible apply State.wrBit_inv
    | split
    | (unfold State.Inv; dsimp only; apply State.Inv.parts)

theorem execSupplyMonitorSample_inv (devs : List (BitVec 16)) {s : State} (hs : s.Inv) : SoundOut (execSupplyMonitorSample devs s) := by
  unfold execSupplyMonitorSample
  repeat' first
    | with_reducible assumption
    | with_reducible apply SoundOut.next
    | with_reducible apply State.sampleRail_inv
    | with_reducible apply State.quenchRailFault_inv
    | with_reducible apply State.quenchRailReturn_inv
    | with_reducible apply State.powerOn_inv
    | (with_reducible apply State.Inv.foldl; intro _ _ _)
    | split
    | (unfold State.Inv; dsimp only; apply State.Inv.parts)

theorem State.showTemp_inv {s : State} (hs : s.Inv) (t : Int) (sensor : Nat) : (State.showTemp s t sensor).Inv := by
  unfold State.showTemp
  repeat' first
    | with_reducible assumption
    | with_reducible apply State.wrS_inv
    | with_reducible apply State.Inv.wr
    | (unfold State.Inv; dsimp only; apply State.Inv.parts)

theorem execThermalSample_inv (r0 : BitVec 8) (r1 : BitVec 8) (r2 : BitVec 8) (r3 : BitVec 8) {s : State} (hs : s.Inv) : SoundOut (execThermalSample r0 r1 r2 r3 s) := by
  unfold execThermalSample
  repeat' first
    | with_reducible assumption
    | with_reducible apply SoundOut.next
    | with_reducible apply SoundOut.ite
    | with_reducible apply State.showTemp_inv
    | with_reducible apply State.deviceReset_inv
    | with_reducible apply State.sentinelCause_inv
    | with_reducible apply State.raise_inv
    | split
    | (unfold State.Inv; dsimp only; apply State.Inv.parts)

end Sys2Proof.Machine
end

