-- ==== Sys2Proof/Laws/Inv/Regs.lean ====
section
/-! SUPPORT. The invariant `State.Inv` is kept by every function of Machine/Regs.lean. -/

namespace Sys2Proof.Machine

theorem State.noteT3_inv {s : State} (hs : s.Inv) (off : Nat) : (State.noteT3 s off).Inv := by
  unfold State.noteT3
  repeat' first
    | with_reducible assumption
    | with_reducible apply State.raise_inv
    | with_reducible apply State.Inv.wr
    | with_reducible apply State.bump_inv
    | split
    | (unfold State.Inv; dsimp only; apply State.Inv.parts)

theorem State.after_inv {s : State} (hs : s.Inv) {o : Host.Outcome State Fault Refusal} (ho : SoundOut o) : (s.after o).Inv := by
  unfold State.after
  split
  · exact ho _ rfl
  · exact hs

theorem State.readSpecial_inv {s : State} (hs : s.Inv) (m : Master) (off : Nat) :
    ∀ tt : State, State.readSpecial s m off = some tt → tt.Inv := by
  intro tt e
  have h0 : ∀ (t : State) w, t.Inv → State.Inv { t with rdata := w } := fun t w h => h
  unfold State.readSpecial at e
  split at e
  · cases e; exact State.after_inv hs (execTimeSnapshotRead_inv _ hs)
  · split at e
    · cases e; exact State.after_inv hs (execAdcQueuePop_inv _ hs)
    · split at e
      · cases e; exact State.after_inv hs (execAdcLastRead_inv _ _ hs)
      · split at e
        · cases e; exact h0 _ _ hs
        · obtain ⟨p, hp, rfl⟩ := Option.map_eq_some_iff.1 e
          exact h0 _ _ (State.tngRead_inv hs _ _ _ hp)

theorem State.readReg_inv {s : State} (hs : s.Inv) (m : Master) (off : Nat) : (s.readReg m off).Inv := by
  have h0 : ∀ (t : State) w, t.Inv → State.Inv { t with rdata := w } := fun t w h => h
  have h1 : ∀ (t : State) w, t.Inv → State.Inv { t with clk := w } := fun t w h => h
  unfold State.readReg
  split
  · exact h0 _ _ hs
  · have ht := State.noteT3_inv hs off
    dsimp only
    split
    · rename_i he; exact State.readSpecial_inv ht _ _ _ he
    · apply h0
      refine State.Inv.ite ?_ (State.pvDropped_inv ?_ _ _ _ _)
      all_goals
        refine State.Inv.ite (h1 _ _ ?_) ?_
        all_goals exact State.Inv.ite ht (ht.setWord _ _)

end Sys2Proof.Machine
end

