-- ==== Sys2Proof/Laws/Inv/Waxbook.lean ====
section
/-! SUPPORT. The invariant `State.Inv` is kept by every function of Machine/Waxbook.lean. -/

namespace Sys2Proof.Machine

theorem execCursorWindowRead_inv (m : Master) (w : BitVec 22) (size : BitVec 4) {s : State} (hs : s.Inv) : SoundOut (execCursorWindowRead m w size s) := by
  unfold execCursorWindowRead
  repeat' first
    | with_reducible assumption
    | with_reducible apply SoundOut.next
    | with_reducible apply SoundOut.ite
    | with_reducible apply State.badAccess_inv
    | with_reducible apply State.pvDropped_inv
    | (unfold State.Inv; dsimp only; apply State.Inv.parts)

theorem execSoftwareTrigger_inv (mask : Word) {s : State} (hs : s.Inv) : SoundOut (execSoftwareTrigger mask s) := by
  unfold execSoftwareTrigger
  repeat' first
    | with_reducible assumption
    | with_reducible apply SoundOut.next
    | with_reducible apply State.Inv.ite
    | with_reducible apply State.fireOther_inv
    | (with_reducible apply State.Inv.foldl; intro _ _ _)

theorem State.waxStop_inv {s : State} (hs : s.Inv) : (State.waxStop s).Inv := by
  unfold State.waxStop
  repeat' first
    | with_reducible assumption
    | with_reducible apply State.raise_inv
    | with_reducible apply State.bump_inv
    | with_reducible apply State.Inv.wr

theorem execRecordTake_inv {s : State} (hs : s.Inv) : SoundOut (execRecordTake s) := by
  unfold execRecordTake
  split
  · exact .next hs
  · rename_i f rest he
    have hl : rest.length ≤ 8 := by
      have := hs.queue_le
      rw [he] at this
      simp only [List.length_cons] at this
      omega
    have hq : State.Inv { s with wax := { s.wax with queue := rest } } := hs.withQueue hl
    have h2 : ∀ (t : State) b f, t.Inv → State.Inv { t with wax := { t.wax with busy := b, failed := f } } := fun t b f h => h
    refine SoundOut.ite (.next hs) (SoundOut.ite (.next (State.waxStop_inv (hq.wr _ _ _ _))) (.next (State.Inv.wr ?_ _ _ _ _)))
    exact h2 _ _ _ (hq.wr _ _ _ _)

theorem State.waxClear_inv {s : State} (hs : s.Inv) : s.waxClear.Inv := by
  have h0 : ∀ t : State, t.Inv → State.Inv { t with wax := { t.wax with store := [], onChipEnd := 0, clearWaiting := false } } :=
    fun t h => h.withStore h.wf_ddr rfl
  unfold State.waxClear
  refine State.raise_inv (h0 _ ?_) _ _ _ _
  refine ((((State.Inv.wr ?_ _ _ _ _).wr _ _ _ _).wr _ _ _ _).wr _ _ _ _).wr _ _ _ _ |>.wr _ _ _ _
  exact State.Inv.ite (State.drawn_inv hs) hs

theorem execWaxbookClear_inv (m : Master) {s : State} (hs : s.Inv) : SoundOut (execWaxbookClear m s) := by
  unfold execWaxbookClear
  repeat' first
    | with_reducible assumption
    | with_reducible apply SoundOut.next
    | with_reducible apply State.pvDropped_inv
    | with_reducible apply State.waxClear_inv
    | split
    | (unfold State.Inv; dsimp only; apply State.Inv.parts)

theorem execTrcStart_inv (r : Fin 64) {s : State} (hs : s.Inv) : SoundOut (execTrcStart r s) := by
  unfold execTrcStart
  repeat' first
    | with_reducible assumption
    | with_reducible apply SoundOut.next
    | with_reducible apply State.runDesc_inv
    | with_reducible apply State.fail_inv
    | with_reducible apply State.Inv.wr
    | with_reducible apply State.wr64_inv
    | with_reducible apply State.put_inv
    | with_reducible apply State.complete_inv
    | split
    | dsimp only
    | (with_reducible intro _ _ _)

theorem execTrcStop_inv (r : Fin 64) {s : State} (hs : s.Inv) : SoundOut (execTrcStop r s) := by
  unfold execTrcStop
  repeat' first
    | with_reducible assumption
    | with_reducible apply SoundOut.next
    | with_reducible apply State.runDesc_inv
    | with_reducible apply State.traceDrain_inv
    | with_reducible apply State.Inv.wr
    | with_reducible apply State.complete_inv
    | (with_reducible intro _ _ _)

theorem execTrcRead_inv (r : Fin 64) (io : HostIo) {s : State} (hs : s.Inv) : SoundOut (execTrcRead r io s) := by
  unfold execTrcRead
  repeat' first
    | with_reducible assumption
    | with_reducible apply SoundOut.next
    | with_reducible apply State.runDesc_inv
    | with_reducible apply State.fail_inv
    | with_reducible apply State.hostResult_inv
    | split
    | dsimp only
    | (with_reducible intro _ _ _)

theorem execCounters_inv (r : Fin 64) (io : HostIo) {s : State} (hs : s.Inv) : SoundOut (execCounters r io s) := by
  have h0 : ∀ (t : State) w, t.Inv → State.Inv { t with rdata := w } := fun t w h => h
  refine .next (State.runDesc_inv hs _ _ _ ?_)
  intro t d ht
  dsimp only
  refine State.Inv.ite (State.fail_inv ht _ _ _ _ _) ?_
  refine State.hostResult_inv (h0 _ _ (State.Inv.foldl_fst (fun q o h => ?_) ht)) _ _ _ _ _ _
  split
  · exact State.readReg_inv h _ _
  · exact h

theorem State.storeBytes_inv {s : State} (hs : s.Inv) (a : Nat) (b : List Byte) : (s.storeBytes a b).Inv :=
  hs.withStore (Memory.wf_writeBytes _ _ hs.wf_ddr) (Memory.wf_writeBytes _ _ hs.wf_store)

theorem execWaxbookRecordComplete_inv (extFail : Bool) {s : State} (hs : s.Inv) : SoundOut (execWaxbookRecordComplete extFail s) := by
  unfold execWaxbookRecordComplete
  repeat' first
    | with_reducible assumption
    | with_reducible apply SoundOut.next
    | with_reducible apply State.extensionFault_inv
    | with_reducible apply State.Inv.wr
    | with_reducible apply State.waxStop_inv
    | with_reducible apply State.storeBytes_inv
    | with_reducible apply State.waxClear_inv
    | split
    | (unfold State.Inv; dsimp only; apply State.Inv.parts)

end Sys2Proof.Machine
end

