-- ==== Sys2Proof/Laws/Inv/Hif.lean ====
section
/-! SUPPORT. The invariant `State.Inv` is kept by every function of Machine/Hif.lean. -/

namespace Sys2Proof.Machine

theorem State.msix_inv {s : State} (hs : s.Inv) (v : Nat) : (s.msix v).Inv := by
  unfold State.msix
  split
  · exact State.wrBit_inv hs _ _ _ _ _
  · exact hs.withHost (Memory.wf_writeBytes _ _ hs.wf_host)

theorem State.staleDoorbell_inv {s : State} (hs : s.Inv) (f : Fld) (r : Nat) (code : Nat) (why : Nat) (v : Word) : (State.staleDoorbell s f r code why v).Inv := by
  unfold State.staleDoorbell
  repeat' first
    | with_reducible assumption
    | with_reducible apply State.raise_inv
    | with_reducible apply State.bump_inv

theorem State.badDoorbell_inv {s : State} (hs : s.Inv) (r : Nat) (code : Nat) (v : Word) : (State.badDoorbell s r code v).Inv := by
  unfold State.badDoorbell
  repeat' first
    | with_reducible assumption
    | with_reducible apply State.raise_inv
    | with_reducible apply State.bump_inv

theorem execSubmissionDoorbell_inv (r : Fin 64) (v : Word) {s : State} (hs : s.Inv) : SoundOut (execSubmissionDoorbell r v s) := by
  unfold execSubmissionDoorbell
  repeat' first
    | with_reducible assumption
    | with_reducible apply SoundOut.next
    | with_reducible apply SoundOut.ite
    | with_reducible apply State.staleDoorbell_inv
    | with_reducible apply State.badDoorbell_inv
    | with_reducible apply State.bump_inv
    | with_reducible apply State.setSq_inv

theorem State.settleCq_inv {s : State} (hs : s.Inv) (q : Nat) (was : Bool) : (State.settleCq s q was).Inv := by
  unfold State.settleCq
  repeat' first
    | with_reducible assumption
    | with_reducible apply State.Inv.ite
    | with_reducible apply State.showStops_inv
    | with_reducible apply State.raise_inv
    | (with_reducible apply State.Inv.foldl; intro _ _ _)

theorem State.syncFull_inv {s : State} (hs : s.Inv) (q : Nat) : (State.syncFull s q).Inv := by
  unfold State.syncFull
  repeat' first
    | with_reducible assumption
    | with_reducible apply State.put_inv

theorem execCompletionDoorbell_inv (q : Fin 64) (v : Word) {s : State} (hs : s.Inv) : SoundOut (execCompletionDoorbell q v s) := by
  unfold execCompletionDoorbell
  repeat' first
    | with_reducible assumption
    | with_reducible apply SoundOut.next
    | with_reducible apply SoundOut.ite
    | with_reducible apply State.staleDoorbell_inv
    | with_reducible apply State.badDoorbell_inv
    | with_reducible apply State.settleCq_inv
    | with_reducible apply State.syncFull_inv
    | with_reducible apply State.setCq_inv

theorem execHifReset_inv {s : State} (hs : s.Inv) : SoundOut (execHifReset s) := by
  unfold execHifReset
  repeat' first
    | with_reducible assumption
    | with_reducible apply SoundOut.next
    | with_reducible apply State.hifReset_inv

theorem execD3hotEntry_inv {s : State} (hs : s.Inv) : SoundOut (execD3hotEntry s) := by
  unfold execD3hotEntry
  repeat' first
    | with_reducible assumption
    | with_reducible apply SoundOut.next
    | (unfold State.Inv; dsimp only; apply State.Inv.parts)

theorem execD0Return_inv {s : State} (hs : s.Inv) : SoundOut (execD0Return s) := by
  unfold execD0Return
  repeat' first
    | with_reducible assumption
    | with_reducible apply SoundOut.next
    | (unfold State.Inv; dsimp only; apply State.Inv.parts)

theorem State.linkEvent_inv {s : State} (hs : s.Inv) (up : Bool) (speed : Nat) (width : Nat) (code : Nat) : (State.linkEvent s up speed width code).Inv := by
  unfold State.linkEvent
  repeat' first
    | with_reducible assumption
    | with_reducible apply State.raise_inv
    | with_reducible apply State.Inv.wr
    | (unfold State.Inv; dsimp only; apply State.Inv.parts)

theorem execPcieLinkChange_inv (up : Bool) (speed : Fin 5) (width : Fin 4) {s : State} (hs : s.Inv) : SoundOut (execPcieLinkChange up speed width s) := by
  unfold execPcieLinkChange
  repeat' first
    | with_reducible assumption
    | with_reducible apply SoundOut.next
    | with_reducible apply State.Inv.ite
    | with_reducible apply SoundOut.ite
    | with_reducible apply State.linkEvent_inv
    | with_reducible apply State.hifReset_inv

theorem execAerError_inv (kind : Fin 3) (bits : Word) {s : State} (hs : s.Inv) : SoundOut (execAerError kind bits s) := by
  unfold execAerError
  repeat' first
    | with_reducible assumption
    | with_reducible apply SoundOut.next
    | with_reducible apply State.raise_inv
    | split
    | (unfold State.Inv; dsimp only; apply State.Inv.parts)

theorem State.faultSq_inv {s : State} (hs : s.Inv) (r : Nat) (code : Nat) (e : HostErr) : (State.faultSq s r code e).Inv := by
  unfold State.faultSq
  repeat' first
    | with_reducible assumption
    | with_reducible apply State.raise_inv
    | with_reducible apply State.showStops_inv
    | with_reducible apply State.Inv.wr

theorem execDescriptorFetch_inv (r : Fin 64) (shadow : Option HostErr) {s : State} (hs : s.Inv) : SoundOut (execDescriptorFetch r shadow s) := by
  unfold execDescriptorFetch
  dsimp only
  split
  · exact .next hs
  · have ht := State.syncRing_inv ((State.setSq_inv hs r.val
      { s.sq r.val with inFlight := (s.sq r.val).inFlight + s.burst r.val }).wr F.HIF_SQ_STAT_head
      ((s.rd F.HIF_SQ_STAT_head r.val + s.burst r.val) % s.sqSize r.val) r.val 0) r.val
    split
    · exact .next ht
    · split
      · exact .next (State.faultSq_inv ht _ _ _)
      · exact .next (ht.withHost (Memory.wf_writeBytes _ _ ht.wf_host))

theorem State.createWork_inv {s : State} (hs : s.Inv) (d : Desc) : (State.createWork s d).Inv := by
  unfold State.createWork
  repeat' first
    | with_reducible assumption
    | with_reducible apply State.newItem_inv
    | with_reducible apply State.drawn_inv
    | split

theorem State.acceptDesc_inv {s : State} (hs : s.Inv) (r : Nat) (bytes : List Byte) : (State.acceptDesc s r bytes).Inv := by
  unfold State.acceptDesc
  repeat' first
    | with_reducible assumption
    | with_reducible apply State.syncRing_inv
    | with_reducible apply State.setSq_inv
    | with_reducible apply State.complete_inv
    | with_reducible apply State.fail_inv
    | with_reducible apply State.createWork_inv
    | split
    | (unfold State.Inv; dsimp only; apply State.Inv.parts)

theorem execFetchComplete_inv (r : Fin 64) (descs : List (List Byte)) (err : Option HostErr) {s : State} (hs : s.Inv) : SoundOut (execFetchComplete r descs err s) := by
  unfold execFetchComplete
  repeat' first
    | with_reducible assumption
    | with_reducible apply SoundOut.next
    | with_reducible apply SoundOut.ite
    | with_reducible apply State.acceptDesc_inv
    | with_reducible apply State.faultSq_inv
    | with_reducible apply State.syncRing_inv
    | with_reducible apply State.setSq_inv
    | (with_reducible apply State.Inv.foldl; intro _ _ _)
    | split

theorem State.faultCq_inv {s : State} (hs : s.Inv) (q : Nat) (e : HostErr) : (State.faultCq s q e).Inv := by
  unfold State.faultCq
  repeat' first
    | with_reducible assumption
    | with_reducible apply State.settleCq_inv
    | with_reducible apply State.raise_inv
    | with_reducible apply State.Inv.wr

theorem State.fireVector_inv {s : State} (hs : s.Inv) (v : Nat) : (State.fireVector s v).Inv := by
  unfold State.fireVector
  repeat' first
    | with_reducible assumption
    | with_reducible apply State.setCq_inv
    | with_reducible apply State.msix_inv
    | (with_reducible apply State.Inv.foldl; intro _ _ _)
    | split
    | (unfold State.Inv; dsimp only; apply State.Inv.parts)

theorem State.signalCq_inv {s : State} (hs : s.Inv) (q : Nat) : (State.signalCq s q).Inv := by
  unfold State.signalCq
  repeat' first
    | with_reducible assumption
    | with_reducible apply State.Inv.ite
    | with_reducible apply State.setCq_inv
    | with_reducible apply State.fireVector_inv

theorem State.writeEntry_inv {s : State} (hs : s.Inv) (q : Nat) (e : Nat → List Byte) : (s.writeEntry q e).Inv := by
  unfold State.writeEntry
  have h0 : ∀ a, State.Inv { s with hostMem := writeBytes s.hostMem a (e (s.rd F.HIF_CQ_STAT_phase q)) } :=
    fun a => hs.withHost (Memory.wf_writeBytes _ _ hs.wf_host)
  refine State.settleCq_inv (State.syncFull_inv ?_ _) _ _
  exact State.Inv.ite (((h0 _).wr _ _ _ _).wr _ _ _ _) ((h0 _).wr _ _ _ _)

theorem execCompletionWrite_inv (q : Fin 63) (err : Option HostErr) {s : State} (hs : s.Inv) : SoundOut (execCompletionWrite q err s) := by
  unfold execCompletionWrite
  repeat' first
    | with_reducible assumption
    | with_reducible apply SoundOut.next
    | with_reducible apply State.faultCq_inv
    | with_reducible apply State.signalCq_inv
    | with_reducible apply State.showStops_inv
    | with_reducible apply State.writeEntry_inv
    | split
    | (unfold State.Inv; dsimp only; apply State.Inv.parts)

theorem execModerationTimerExpiry_inv (v : Fin 128) {s : State} (hs : s.Inv) : SoundOut (execModerationTimerExpiry v s) := by
  unfold execModerationTimerExpiry
  repeat' first
    | with_reducible assumption
    | with_reducible apply SoundOut.next
    | with_reducible apply State.fireVector_inv
    | with_reducible apply State.advanceTo_inv
    | split

theorem State.signalEvent_inv {s : State} (hs : s.Inv) (src : Nat) : (State.signalEvent s src).Inv := by
  unfold State.signalEvent
  repeat' first
    | with_reducible assumption
    | with_reducible apply State.fireVector_inv
    | split
    | (unfold State.Inv; dsimp only; apply State.Inv.parts)

theorem execEventDelivery_inv (err : Option HostErr) {s : State} (hs : s.Inv) : SoundOut (execEventDelivery err s) := by
  unfold execEventDelivery
  split
  · exact .next hs
  · rename_i e l he
    split
    · exact .next hs
    · split
      · exact .next (State.faultCq_inv hs _ _)
      · refine .next (State.signalEvent_inv (State.writeEntry_inv ?_ _ _) _)
        refine hs.withEvents (l := l) ?_
        have := hs.events_le
        rw [he] at this
        simp only [List.length_cons] at this
        omega

theorem execEventsLostReport_inv {s : State} (hs : s.Inv) : SoundOut (execEventsLostReport s) := by
  unfold execEventsLostReport
  repeat' first
    | with_reducible assumption
    | with_reducible apply SoundOut.next
    | with_reducible apply State.raise_inv
    | split
    | (unfold State.Inv; dsimp only; apply State.Inv.parts)

theorem execSqEnable_inv (m : Master) (r : Fin 64) {s : State} (hs : s.Inv) : SoundOut (execSqEnable m r s) := by
  unfold execSqEnable
  repeat' first
    | with_reducible assumption
    | with_reducible apply SoundOut.next
    | with_reducible apply State.raise_inv
    | with_reducible apply State.Inv.wr
    | with_reducible apply State.showStops_inv
    | split

theorem execSqDisable_inv (r : Fin 64) {s : State} (hs : s.Inv) : SoundOut (execSqDisable r s) := by
  unfold execSqDisable
  repeat' first
    | with_reducible assumption
    | with_reducible apply SoundOut.next
    | with_reducible apply State.showStops_inv
    | with_reducible apply State.Inv.wr

theorem execSqReset_inv (r : Fin 64) {s : State} (hs : s.Inv) : SoundOut (execSqReset r s) := by
  unfold execSqReset
  repeat' first
    | with_reducible assumption
    | with_reducible apply SoundOut.next
    | with_reducible apply SoundOut.ite
    | with_reducible apply State.wrIgnored_inv
    | with_reducible apply State.Inv.wr
    | with_reducible apply State.setSq_inv

theorem execSqAbortAll_inv (r : Fin 64) {s : State} (hs : s.Inv) : SoundOut (execSqAbortAll r s) := by
  unfold execSqAbortAll
  repeat' first
    | with_reducible assumption
    | with_reducible apply SoundOut.next
    | with_reducible apply State.abortAll_inv

theorem execCqEnable_inv (q : Fin 64) {s : State} (hs : s.Inv) : SoundOut (execCqEnable q s) := by
  unfold execCqEnable
  repeat' first
    | with_reducible assumption
    | with_reducible apply SoundOut.next
    | with_reducible apply State.showStops_inv
    | with_reducible apply State.Inv.wr

theorem execCqDisable_inv (q : Fin 64) {s : State} (hs : s.Inv) : SoundOut (execCqDisable q s) := by
  unfold execCqDisable
  repeat' first
    | with_reducible assumption
    | with_reducible apply SoundOut.next
    | with_reducible apply State.settleCq_inv
    | with_reducible apply State.Inv.wr

theorem execCqReset_inv (q : Fin 64) {s : State} (hs : s.Inv) : SoundOut (execCqReset q s) := by
  unfold execCqReset
  repeat' first
    | with_reducible assumption
    | with_reducible apply SoundOut.next
    | with_reducible apply SoundOut.ite
    | with_reducible apply State.wrIgnored_inv
    | with_reducible apply State.setCq_inv
    | with_reducible apply State.Inv.wr

theorem execNop_inv (r : Fin 64) {s : State} (hs : s.Inv) : SoundOut (execNop r s) := by
  unfold execNop
  repeat' first
    | with_reducible assumption
    | with_reducible apply SoundOut.next
    | with_reducible apply State.runDesc_inv
    | with_reducible apply State.complete_inv
    | (with_reducible intro _ _ _)

theorem execAbort_inv (r : Fin 64) {s : State} (hs : s.Inv) : SoundOut (execAbort r s) := by
  unfold execAbort
  repeat' first
    | with_reducible assumption
    | with_reducible apply SoundOut.next
    | with_reducible apply State.abortAll_inv
    | with_reducible apply State.startDesc_inv
    | with_reducible apply State.complete_inv
    | split

end Sys2Proof.Machine
end

