-- ==== Sys2Proof/Laws/Inv/Write.lean ====
section
/-! SUPPORT. The invariant `State.Inv` is kept by every function of Machine/Write.lean. -/

namespace Sys2Proof.Machine

theorem State.unmasked_inv {s : State} (hs : s.Inv) (v : Nat) : (State.unmasked s v).Inv := by
  unfold State.unmasked
  repeat' first
    | with_reducible assumption
    | with_reducible apply State.Inv.ite
    | with_reducible apply State.msix_inv
    | with_reducible apply State.wrBit_inv

theorem State.wrote_inv {s : State} (hs : s.Inv) (r : RegRow) (i : Nat) (off : Nat) (old : Word) : (State.wrote s r i off old).Inv := by
  unfold State.wrote
  repeat' first
    | with_reducible assumption
    | with_reducible apply State.syncEngine_inv
    | with_reducible apply State.syncAnvil_inv
    | with_reducible apply State.hiveSettle_inv
    | with_reducible apply State.lineSelect_inv
    | with_reducible apply State.setBellows_inv
    | with_reducible apply State.unmasked_inv
    | split
    | (unfold State.Inv; dsimp only; apply State.Inv.parts)

theorem State.takeFields_inv {s : State} (hs : s.Inv) (r : RegRow) (i : Nat) (off : Nat) (v : Word) (l : List FieldRow) : (State.takeFields s r i off v l).Inv := by
  unfold State.takeFields
  repeat' first
    | with_reducible assumption
    | with_reducible apply State.wrote_inv
    | with_reducible apply State.Inv.setWord
    | split
    | (unfold State.Inv; dsimp only; apply State.Inv.parts)

theorem State.writeReg_inv {s : State} (hs : s.Inv) (m : Master) (off : Nat) (v : Word) : (State.writeReg s m off v).Inv := by
  unfold State.writeReg
  repeat' first
    | with_reducible assumption
    | with_reducible apply State.Inv.ite
    | with_reducible apply State.badAccess_inv
    | with_reducible apply State.bump_inv
    | with_reducible apply State.takeFields_inv
    | with_reducible apply State.wrIgnored_inv
    | with_reducible apply State.pvDropped_inv
    | split

theorem State.land_inv {s : State} (hs : s.Inv) (off : Nat) (v : Word) : (State.land s off v).Inv := by
  unfold State.land
  repeat' first
    | with_reducible assumption
    | with_reducible apply State.Inv.ite
    | with_reducible apply State.Inv.setWord
    | with_reducible apply State.adcEnable_inv
    | split

end Sys2Proof.Machine
end

