-- ==== Sys2Proof/Laws/Inv/Glb.lean ====
section
/-! SUPPORT. The invariant `State.Inv` is kept by every function of Machine/Glb.lean. -/

namespace Sys2Proof.Machine

theorem execRegisterWrite_inv (m : Master) (bar : Bar) (off : BitVec 24) (size : BitVec 4) (v : Word) {s : State} (hs : s.Inv) : SoundOut (execRegisterWrite m bar off size v s) := by
  unfold execRegisterWrite
  repeat' first
    | with_reducible assumption
    | with_reducible apply SoundOut.next
    | with_reducible apply SoundOut.ite
    | with_reducible apply State.writeReg_inv
    | with_reducible apply State.badAccess_inv
    | with_reducible apply execSubmissionDoorbell_inv
    | with_reducible apply execCompletionDoorbell_inv
    | with_reducible apply State.raise_inv
    | with_reducible apply State.bump_inv
    | split

theorem State.readHeader_inv {s : State} (hs : s.Inv) (m : Nat) : (State.readHeader s m).Inv := by
  unfold State.readHeader
  repeat' first
    | with_reducible assumption
    | with_reducible apply State.drawn_inv
    | with_reducible apply State.setMailbox_inv
    | split
    | (unfold State.Inv; dsimp only; apply State.Inv.parts)

theorem State.nextCapture_inv {s : State} (hs : s.Inv) (m : Nat) : (State.nextCapture s m).Inv := by
  unfold State.nextCapture
  repeat' first
    | with_reducible assumption
    | with_reducible apply State.Inv.ite
    | with_reducible apply State.capOffer_inv

theorem State.readTrailer_inv {s : State} (hs : s.Inv) (m : Nat) : (State.readTrailer s m).Inv := by
  unfold State.readTrailer
  repeat' first
    | with_reducible assumption
    | with_reducible apply State.nextCapture_inv
    | with_reducible apply State.setMailbox_inv
    | split
    | (unfold State.Inv; dsimp only; apply State.Inv.parts)

theorem State.readData_inv {s : State} (hs : s.Inv) (m : Nat) (i : Nat) : (State.readData s m i).Inv := by
  unfold State.readData
  repeat' first
    | with_reducible assumption
    | (unfold State.Inv; dsimp only; apply State.Inv.parts)

theorem State.readMailbox_inv {s : State} (hs : s.Inv) (off : Nat) : (State.readMailbox s off).Inv := by
  unfold State.readMailbox
  repeat' first
    | with_reducible assumption
    | with_reducible apply State.Inv.ite
    | with_reducible apply State.readHeader_inv
    | with_reducible apply State.readTrailer_inv
    | with_reducible apply State.readData_inv

theorem execRcRead_inv (m : Master) (bar : Bar) (off : BitVec 24) (size : BitVec 4) {s : State} (hs : s.Inv) : SoundOut (execRcRead m bar off size s) := by
  unfold execRcRead
  repeat' first
    | with_reducible assumption
    | with_reducible apply SoundOut.next
    | with_reducible apply SoundOut.ite
    | with_reducible apply State.readReg_inv
    | with_reducible apply State.badAccess_inv
    | with_reducible apply State.drawn_inv
    | with_reducible apply execCursorWindowRead_inv
    | with_reducible apply State.readMailbox_inv
    | split
    | (unfold State.Inv; dsimp only; apply State.Inv.parts)

theorem execWpWriteLand_inv (off : BitVec 24) {s : State} (hs : s.Inv) : SoundOut (execWpWriteLand off s) := by
  unfold execWpWriteLand
  repeat' first
    | with_reducible assumption
    | with_reducible apply SoundOut.next
    | with_reducible apply State.land_inv
    | split
    | (unfold State.Inv; dsimp only; apply State.Inv.parts)

theorem State.syncStrobes_inv {s : State} (hs : s.Inv) : (State.syncStrobes s).Inv := by
  unfold State.syncStrobes
  repeat' first
    | with_reducible assumption
    | with_reducible apply State.Inv.wr

theorem State.strobe_inv {s : State} (hs : s.Inv) (mask : Nat) (now : Bool) : (State.strobe s mask now).Inv := by
  unfold State.strobe
  repeat' first
    | with_reducible assumption
    | with_reducible apply State.syncStrobes_inv
    | split
    | (unfold State.Inv; dsimp only; apply State.Inv.parts)

theorem execStrobeAtInstant_inv (mask : BitVec 16) {s : State} (hs : s.Inv) : SoundOut (execStrobeAtInstant mask s) := by
  unfold execStrobeAtInstant
  repeat' first
    | with_reducible assumption
    | with_reducible apply SoundOut.next
    | with_reducible apply State.strobe_inv

theorem execStrobeNow_inv (mask : BitVec 16) {s : State} (hs : s.Inv) : SoundOut (execStrobeNow mask s) := by
  unfold execStrobeNow
  repeat' first
    | with_reducible assumption
    | with_reducible apply SoundOut.next
    | with_reducible apply State.strobe_inv

theorem State.applyStaged_inv {s : State} (hs : s.Inv) (mask : Nat) (p : Nat × Option Word) : (State.applyStaged s mask p).Inv := by
  unfold State.applyStaged
  repeat' first
    | with_reducible assumption
    | with_reducible apply State.Inv.setWord
    | split
    | (unfold State.Inv; dsimp only; apply State.Inv.parts)

theorem State.applyGroups_inv {s : State} (hs : s.Inv) (mask : Nat) : (State.applyGroups s mask).Inv := by
  unfold State.applyGroups
  repeat' first
    | with_reducible assumption
    | with_reducible apply State.Inv.ite
    | with_reducible apply State.applyStaged_inv
    | with_reducible apply State.pageSwitch_inv
    | with_reducible apply State.setSeg_inv
    | (with_reducible apply State.Inv.foldl; intro _ _ _)

theorem execStrobeApply_inv {s : State} (hs : s.Inv) : SoundOut (execStrobeApply s) := by
  unfold execStrobeApply
  repeat' first
    | with_reducible assumption
    | with_reducible apply SoundOut.next
    | with_reducible apply SoundOut.ite
    | with_reducible apply State.endProgram_inv
    | with_reducible apply State.syncStrobes_inv
    | with_reducible apply State.applyGroups_inv
    | (with_reducible apply State.Inv.foldl; intro _ _ _)
    | (unfold State.Inv; dsimp only; apply State.Inv.parts)

theorem State.repair_inv {s : State} (hs : s.Inv) (off : Nat) : (State.repair s off).Inv := by
  unfold State.repair
  repeat' first
    | with_reducible assumption
    | with_reducible apply State.noteT3_inv
    | with_reducible apply State.Inv.setWord

theorem State.upset_inv {s : State} (hs : s.Inv) (off copy : Nat) (mask : Word) : (s.upset off copy mask).Inv := by
  unfold State.upset
  split
  · exact hs
  · exact ⟨canonical_store _ _ hs.1, hs.2⟩

theorem execScrubberVisit_inv (upsets : List (BitVec 24 × Fin 3 × Word)) {s : State} (hs : s.Inv) : SoundOut (execScrubberVisit upsets s) := by
  unfold execScrubberVisit
  repeat' first
    | with_reducible assumption
    | with_reducible apply SoundOut.next
    | with_reducible apply State.repair_inv
    | with_reducible apply State.upset_inv
    | (with_reducible apply State.Inv.foldl; intro _ _ _)

theorem execMailboxHeaderRead_inv (m : Fin 16384) {s : State} (hs : s.Inv) : SoundOut (execMailboxHeaderRead m s) := by
  unfold execMailboxHeaderRead
  repeat' first
    | with_reducible assumption
    | with_reducible apply SoundOut.next
    | with_reducible apply State.readHeader_inv

theorem execMailboxDataRead_inv (m : Fin 16384) (i : Fin 62) {s : State} (hs : s.Inv) : SoundOut (execMailboxDataRead m i s) := by
  unfold execMailboxDataRead
  repeat' first
    | with_reducible assumption
    | with_reducible apply SoundOut.next
    | with_reducible apply State.readData_inv

theorem execMailboxTrailerRead_inv (m : Fin 16384) {s : State} (hs : s.Inv) : SoundOut (execMailboxTrailerRead m s) := by
  unfold execMailboxTrailerRead
  repeat' first
    | with_reducible assumption
    | with_reducible apply SoundOut.next
    | with_reducible apply State.readTrailer_inv

theorem execMailboxHoldExpiry_inv (m : Fin 16384) {s : State} (hs : s.Inv) : SoundOut (execMailboxHoldExpiry m s) := by
  unfold execMailboxHoldExpiry
  repeat' first
    | with_reducible assumption
    | with_reducible apply SoundOut.next
    | with_reducible apply State.advanceTo_inv
    | with_reducible apply State.setMailbox_inv
    | with_reducible apply State.raise_inv
    | split
    | dsimp only

theorem State.unlockIgnored_inv {s : State} (hs : s.Inv) : (State.unlockIgnored s).Inv := by
  unfold State.unlockIgnored
  repeat' first
    | with_reducible assumption
    | with_reducible apply State.wrIgnored_inv

theorem State.clearNonce_inv {s : State} (hs : s.Inv) : (State.clearNonce s).Inv := by
  unfold State.clearNonce
  repeat' first
    | with_reducible assumption
    | with_reducible apply State.Inv.wr
    | (with_reducible apply State.Inv.foldl; intro _ _ _)

theorem State.setUnlock_inv {s : State} (hs : s.Inv) (u : Unlock) : (State.setUnlock s u).Inv := by
  unfold State.setUnlock
  repeat' first
    | with_reducible assumption
    | (unfold State.Inv; dsimp only; apply State.Inv.parts)

theorem execUnlockRequest_inv {s : State} (hs : s.Inv) : SoundOut (execUnlockRequest s) := by
  unfold execUnlockRequest
  repeat' first
    | with_reducible assumption
    | with_reducible apply SoundOut.next
    | with_reducible apply State.Inv.ite
    | with_reducible apply SoundOut.ite
    | with_reducible apply State.unlockIgnored_inv
    | with_reducible apply State.Inv.wr
    | with_reducible apply State.clearNonce_inv
    | with_reducible apply State.setUnlock_inv

theorem execNonceIssued_inv (nonce : BitVec 256) {s : State} (hs : s.Inv) : SoundOut (execNonceIssued nonce s) := by
  unfold execNonceIssued
  repeat' first
    | with_reducible assumption
    | with_reducible apply SoundOut.next
    | with_reducible apply SoundOut.ite
    | with_reducible apply State.Inv.wr
    | with_reducible apply State.setUnlock_inv
    | (with_reducible apply State.Inv.foldl; intro _ _ _)

theorem State.grantUnlock_inv {s : State} (hs : s.Inv) (how : Nat) : (State.grantUnlock s how).Inv := by
  unfold State.grantUnlock
  repeat' first
    | with_reducible assumption
    | with_reducible apply State.Inv.wr
    | with_reducible apply State.raise_inv

theorem execUnownedUnlockGrant_inv {s : State} (hs : s.Inv) : SoundOut (execUnownedUnlockGrant s) := by
  unfold execUnownedUnlockGrant
  repeat' first
    | with_reducible assumption
    | with_reducible apply SoundOut.next
    | with_reducible apply SoundOut.ite
    | with_reducible apply State.grantUnlock_inv
    | with_reducible apply State.setUnlock_inv

theorem State.failUnlock_inv {s : State} (hs : s.Inv) : (State.failUnlock s).Inv := by
  unfold State.failUnlock
  repeat' first
    | with_reducible assumption
    | with_reducible apply State.bump_inv
    | with_reducible apply State.Inv.wr
    | with_reducible apply State.setUnlock_inv

theorem execUnlockVerify_inv {s : State} (hs : s.Inv) : SoundOut (execUnlockVerify s) := by
  unfold execUnlockVerify
  repeat' first
    | with_reducible assumption
    | with_reducible apply SoundOut.next
    | with_reducible apply SoundOut.ite
    | with_reducible apply State.Inv.wr
    | with_reducible apply State.unlockIgnored_inv
    | with_reducible apply State.failUnlock_inv

theorem execVerifyComplete_inv {s : State} (hs : s.Inv) : SoundOut (execVerifyComplete s) := by
  unfold execVerifyComplete
  repeat' first
    | with_reducible assumption
    | with_reducible apply SoundOut.next
    | with_reducible apply SoundOut.ite
    | with_reducible apply State.grantUnlock_inv
    | with_reducible apply State.clearNonce_inv
    | with_reducible apply State.failUnlock_inv

theorem execNonceExpiry_inv {s : State} (hs : s.Inv) : SoundOut (execNonceExpiry s) := by
  unfold execNonceExpiry
  repeat' first
    | with_reducible assumption
    | with_reducible apply SoundOut.next
    | with_reducible apply SoundOut.ite
    | with_reducible apply State.Inv.wr
    | with_reducible apply State.clearNonce_inv
    | with_reducible apply State.advanceTo_inv

theorem execUnlockWaitExpiry_inv {s : State} (hs : s.Inv) : SoundOut (execUnlockWaitExpiry s) := by
  unfold execUnlockWaitExpiry
  repeat' first
    | with_reducible assumption
    | with_reducible apply SoundOut.next
    | with_reducible apply State.setUnlock_inv
    | with_reducible apply State.advanceTo_inv
    | split

theorem execUnlockLock_inv {s : State} (hs : s.Inv) : SoundOut (execUnlockLock s) := by
  unfold execUnlockLock
  repeat' first
    | with_reducible assumption
    | with_reducible apply SoundOut.next
    | with_reducible apply State.withdrawUnlock_inv

end Sys2Proof.Machine
end

