-- ==== Sys2Proof/Tests/Helpers.lean ====
section
/-!
SUPPORT. Tests/Helpers.lean: small bodies and states that the tests share.
-/

namespace Sys2Proof.Machine

/-- `n` bytes, zero but for the given fields: each field is (byte, width in bytes, value). -/
def bytesOf (n : Nat) (l : List (Nat × Nat × Nat)) : List Byte :=
  (List.range n).map fun i => (l.findSome? fun (o, w, v) =>
    if o ≤ i ∧ i < o + w then some (BitVec.ofNat 8 (v / 256 ^ (i - o))) else none).getD 0

/-- The 64 bytes of a descriptor. -/
def dsc (l : List (Nat × Nat × Nat)) : List Byte := bytesOf 64 l

/-- The schedule of KINDLE at 200 Mbaud (mode 1), which a segment may load. -/
def schedBody : List Byte := kindleBody.set 4 1

/-- A safety parameter set in which nothing is used. -/
def spsBody : List Byte :=
  bytesOf 64 [(0, 2, 1), (4, 4, 33616), (16, 4, 64), (20, 4, 192), (24, 4, 256), (28, 4, 320), (32, 4, 320), (36, 4, 832),
    (40, 4, 33600)] ++ List.replicate 33536 0 ++ bytesOf 16 [(0, 4, 1000000)]

/-- A law image with one axis, no states and no outputs. -/
def lawBody : List Byte :=
  bytesOf 100 [(0, 2, 1), (2, 1, 1), (5, 1, 1), (8, 4, 1000), (12, 4, 64), (16, 4, 68), (20, 4, 72), (24, 4, 76), (28, 4, 80), (32, 4, 96),
    (36, 4, 100), (70, 1, 1), (77, 1, 1), (81, 1, 1), (82, 1, 3)]

/-- A problem with one variable and no rows. -/
def probBody : List Byte :=
  bytesOf 148 [(0, 2, 1), (4, 2, 1), (16, 1, 16), (17, 1, 16), (21, 1, 16), (23, 1, 1), (24, 2, 1), (26, 1, 1), (60, 4, 128), (64, 4, 128),
    (68, 4, 128), (72, 4, 136), (76, 4, 140), (80, 4, 140), (84, 4, 140), (88, 4, 144)]

def cap0 : Capture := ⟨0, false, 0⟩

/-- The beginning of an ingot header that checks 1 to 7 of R471 accept. -/
def goodHeader : List Host.Cell := [(0, 0x49), (1, 0x4E), (2, 0x47), (3, 0x4F), (4, 1), (6, 0x56), (7, 0x82)]

def bootState (flash0 flash1 : List Host.Cell) : State :=
  { (State.reset) with upd := { boot := 3, flash0 := flash0, flash1 := flash1, slot0 := { state := 3 }, slot1 := { state := 3 } } }

end Sys2Proof.Machine
end

