-- ==== Sys2Proof/Tests/Slice0.lean ====
section
/-!
SUPPORT. Tests/Slice0.lean: small tests.  Ill-formed commands that WellFormed refuses, one for each check; the worked examples of the
manual, each named in its test; the published check values of the CRCs that R297 and R371 name.
-/

set_option Elab.async false

namespace Sys2Proof.Machine

/-- Whether an outcome is a next state with a property. -/
def after (o : Host.Outcome State Fault Refusal) (p : State → Bool) : Bool :=
  match o with
  | .next s => p s
  | .fault _ => false
  | .refused _ => false

/-! ## WellFormed refuses -/

theorem test_wf_scrubberVisit : (Instr.scrubberVisit (List.replicate 4097 (0, 0, 0))).wf = false := by decide +kernel
theorem test_wf_fetch_count : (Instr.fetchComplete 0 (List.replicate 9 (bytesOf 64 [])) none).wf = false := by decide +kernel
theorem test_wf_fetch_length : (Instr.fetchComplete 0 [bytesOf 63 []] none).wf = false := by decide +kernel
theorem test_wf_body (h : List Byte) (hl : h.length = 16777217) : (Instr.lawLoad 0 ⟨h, false, false⟩).wf = false := by
  simp [Instr.wf, HostIo.wf, hl]
theorem test_wf_job : (Instr.planningTick [⟨true, 0, 0, bytesOf 63 [], [], [], []⟩] []).wf = false := by decide +kernel
theorem test_wf_window_head :
    (Instr.planningTick [⟨true, 0, 0, bytesOf 64 [], [], [], [⟨0, 0, 0, bytesOf 23 [], []⟩]⟩] []).wf = false := by decide +kernel
theorem test_wf_window_piece :
    (Instr.planningTick [⟨true, 0, 0, bytesOf 64 [], [], [], [⟨0, 0, 0, bytesOf 24 [], [bytesOf 45 []]⟩]⟩] []).wf = false := by
  decide +kernel
theorem test_wf_window_count :
    (Instr.planningTick [⟨true, 0, 0, bytesOf 64 [], [], [], [⟨0, 0, 0, bytesOf 24 [], List.replicate 33 (bytesOf 44 [])⟩]⟩] []).wf
      = false := by decide +kernel
theorem test_wf_unreachable : (Instr.planningTick [] (List.replicate 17 0)).wf = false := by decide +kernel
theorem test_wf_feedback : (Instr.temperProgramStart 0 (List.replicate 17 ⟨true, 0, 0, 0, 0, 0⟩) 0 false).wf = false := by
  decide +kernel
theorem test_wf_frame : (Instr.frameReception 0 none (some ⟨true, true, true, 0, 0, bytesOf 267 []⟩) none).wf = false := by
  decide +kernel
theorem test_wf_post : (Instr.dynamicFramePost 0 0 (bytesOf 255 [])).wf = false := by decide +kernel
theorem test_wf_crossings : (Instr.waggleShot 0 (List.replicate 4097 (0, false))).wf = false := by decide +kernel
theorem test_wf_eth : (Instr.ethFrameReceived 0 (bytesOf 2049 []) false false).wf = false := by decide +kernel
theorem test_wf_mirror :
    (Instr.mirrorApply ⟨true, 0, 2, [], [], [⟨0, 0, false, true, bytesOf 1025 [], []⟩], [], [], [], []⟩).wf = false := by
  decide +kernel
theorem test_wf_mirror_context :
    (Instr.mirrorApply ⟨true, 0, 2, [], [], [], [], [], [], [(0, List.replicate 15 0)]⟩).wf = false := by decide +kernel
theorem test_wf_stage : (Instr.ethernetStageRequest (.stageWrite 0 [])).wf = false := by decide +kernel
theorem test_wf_settings (c : List Byte) (h : c.length = 8388608) : (Instr.settingsSave 0 c).wf = false := by
  simp [Instr.wf, h]
theorem test_wf_supply : (Instr.supplyMonitorSample (List.replicate 10 0)).wf = false := by decide +kernel

/-! ## Worked examples of the manual -/

/-- "`CMB_SLOT_LEN` of segment 3 lies at 0x0014_6008." -/
theorem test_slotLen_address : F.CMB_SLOT_LEN_len.addr 3 0 = 0x146008 := by decide
/-- "`TMP_AX_FELIM` of engine 9, slot 1, lies at 0x0008_9144." -/
theorem test_feLim_address : F.TMP_AX_FELIM_limit.addr 9 1 = 0x89144 := by decide
/-- R79: "Source 93, for example" signals on vector 64 + 46. -/
theorem test_default_vector : State.reset.rd F.HIF_EVT_MAP_vector 93 = 110 := by decide +kernel

/-- Ring 20 of the calibration solve: enabled, 256 entries, epoch 3, class SOLVE. -/
def ring20 : State :=
  (((State.reset.wr F.HIF_SQ_CFG_size_log2 8 20).wr F.HIF_SQ_EPOCH_epoch 3 20).wr F.HIF_SQ_CTL_enable 1 20)
/-- The doorbell 0x0003_0006: epoch 3 matches, and the producer index is 6. -/
theorem test_doorbell_epoch :
    after (execSubmissionDoorbell 20 0x00030006 ring20) (fun s => s.sq 20 == { (ring20.sq 20) with producer := 6 }) = true := by
  decide +kernel
/-- With epoch 2 the doorbell is dropped and counted in `HIF_SQ_ERR.stale`. -/
theorem test_doorbell_stale :
    after (execSubmissionDoorbell 20 0x00020006 ring20) (fun s => (s.sq 20).producer == 0 && s.rd F.HIF_SQ_ERR_stale 20 == 1) = true
      := by decide +kernel

/-- Mailbox 37 with a residual vector of 6 words and sequence number 0x0112. -/
def mailbox37 : State := State.reset.setMailbox 37 { st := .fresh, seq := 0x112, data := List.replicate 6 7 }
/-- The header read returns 0x0112_0605. -/
theorem test_mailbox_header : (mailbox37.readHeader 37).rdata = 0x01120605 := by decide +kernel
/-- After the hold of the snapshot has expired over result 0x0113, the trailer reads 0x0113_0002, a new header read
0x0113_0607 and the trailer then 0x0113_0003. -/
theorem test_mailbox_overrun :
    after (execMailboxHoldExpiry 37
        (mailbox37.setMailbox 37 { (mailbox37.mailbox 37) with st := .held, snapSeq := 0x112, waiting := some (0x113, List.replicate 6 8) }))
      (fun s => (s.readTrailer 37).rdata == 0x01130002 && (s.readHeader 37).rdata == 0x01130607
          && ((s.readHeader 37).readTrailer 37).rdata == 0x01130003) = true := by decide +kernel

/-- Channel 5 of the Tongs example: scale 2^31, shift 44, v_min 0x0000_5000; now, edges and direction. -/
def channel5 (now : Nat) (edges : List Nat) (up : Bool) : State :=
  let s : State := { (State.reset) with tim := { (State.reset.tim) with cell := now * 2 ^ 32 } }
  (((s.wr F.TNG_CH_CFG_scale_shift 44 5).wr F.TNG_CH_SCALE_scale 0x80000000 5).wr F.TNG_CH_VMIN_vmin 0x5000 5).setTngCh 5
    { edges := edges, up := up }
/-- "The derived standstill timeout is therefore 12.5 ms." -/
theorem test_tongs_tss : (channel5 0 [] true).tss 5 = some 12500000 := by decide +kernel
/-- At 5.125 ms the record shows velocity 0x0000_C800. -/
theorem test_tongs_estimate : (channel5 5125000 [5000000, 2500000, 0] true).tngVel 5 = 0xC800 := by decide +kernel
/-- 5 ms after the last edge the bound q / 5 ms gives 0x0000_6400. -/
theorem test_tongs_bound : (channel5 10000000 [5000000, 2500000, 0] true).tngVel 5 = 0x6400 := by decide +kernel
/-- The second downward edge gives 0xFFFE_0C00. -/
theorem test_tongs_reversed : i32 ((channel5 21000000 [21000000, 20000000] false).tngVel 5) = 0xFFFE0C00 := by decide +kernel

/-- Chain 2 of the spacing example at d = 900 mm, 400 mm and 280 mm less C, u and Z_r (190 mm): L_2 with T_r + T_s0 = 55 ms, which the
manual gives as 1,414.97, 348 and 6.2 mm/s. -/
theorem test_separation_limit :
    ([900, 400, 280].map fun d => (Geo.speedFor (1600 * 4096) (6000 * 4096) 55000 ((d - 190) * 4096) / 4096)) = [1414, 347, 6]
      := by decide +kernel
/-- A_2 at the same distances, with T = 12 ms more and 5,000 mm/s². -/
theorem test_allowance :
    ([900, 400, 280].map fun d => (Geo.speedFor (1600 * 4096) (5000 * 4096) 57000 ((d - 190) * 4096) / 4096)) = [1236, 292, 0] := by
  decide +kernel

/-- KINDLE's schedule (R453): slots of 172 bytes capacity, mini-slots from 320 µs, idle time of 660 µs. -/
theorem test_kindle_schedule :
    Sched.capacity kindleBody = 172 ∧ Sched.slotStart kindleBody 16 = 320000 ∧ Sched.nit kindleBody = 660000 := by decide +kernel
/-- A zone message has an occupancy of ⌈52 × 25 / 250⌉ = 6 mini-slots. -/
theorem test_zone_message : occupancy [] 24 = 6 := by decide +kernel

/-- A value loaded as d32 is named d44 three rotations of 4 later. -/
theorem test_rotation (p : Px) (h : p.dp.rrb = 0) (q : Px) (hq : q.dp.rrb = 20) : p.phys 32 = q.phys 44 := by
  simp [Px.phys, h, hq]

/-! ## Published check values of the CRCs -/

/-- The nine characters 1 to 9, over which CRC catalogues state a check value. -/
def digits : List Byte := [0x31, 0x32, 0x33, 0x34, 0x35, 0x36, 0x37, 0x38, 0x39]
theorem test_crc16 : crc16 digits = 0x29B1 := by decide +kernel
theorem test_crc32c : crc32c digits = 0xE3069283 := by decide +kernel
theorem test_crcQ : crcQ 0xFFFFFFFF digits = 0x0376E6E7 := by decide +kernel

/-! ## The queue -/

theorem test_step_front :
    step { (State.reset) with pending := [.unlockLock, .nop 0] } = execUnlockLock { (State.reset) with pending := [.nop 0] } := rfl
theorem test_decode_none : decodeTableWord 0 0 = none := rfl

end Sys2Proof.Machine
end

