-- ==== Sys2Proof/Tests/Witness1.lean ====
section
/-!
SUPPORT. Tests/Witness1.lean: for the obligations from StepRunsFront to TuningCommands, a state and operands that meet the
hypotheses of each clause together.
-/

set_option Elab.async false
set_option linter.unusedVariables false

namespace Sys2Proof.Machine

theorem reset_inv : State.reset.Inv := by
  unfold State.Inv Sound
  decide +kernel

theorem witness_StepRunsFront :
    (∃ (s : State) (c : Instr) (rest : List Instr), (s.pending = c :: rest)) :=
  ⟨(let s : State := .reset; let s : State := { s with pending := [.farrierWatchdogReset] }; s), Instr.farrierWatchdogReset, [], by decide +kernel⟩

theorem witness_IdleTick :
    (∃ (s : State), (s.pending = [])) :=
  ⟨(let s : State := .reset; s), by decide +kernel⟩

theorem witness_StepKeepsInv :
    (∃ (s : State) (t : State), (s.Inv) ∧ (step s = .next t)) :=
  ⟨State.reset, (State.reset.ticks 1), reset_inv, rfl⟩

theorem witness_AccessesAndMailboxes :
    (∃ (s : State) (m : Master) (m' : Master) (v : Word), (s.busy 0x100 = false))
    ∧ (∃ (s : State) (m : Master), (m ≠ .engine) ∧ (s.copies 0x13210 = none) ∧ (s.busy 0x13210 = false))
    ∧ (∃ (s : State) (off : BitVec 24) (p : Posted) (r : RegRow) (i : Nat) (j : Nat), (s.glb.posted.find? (·.off == off.toNat) = some p) ∧ (regRow off.toNat = some (r, i, j)) ∧ ((r.fields.any fun f => f.fld == F.ADC_SEQ_CTL_enable) = false))
    ∧ (∃ (s : State) (m : Fin 16384), (mailboxLen m ≠ none) ∧ ((s.mailbox m).st = .fresh) ∧ ((s.mailbox m).data ≠ []))
    ∧ (∃ (s : State) (m : Fin 16384), (mailboxLen m ≠ none) ∧ ((s.mailbox m).st ≠ .fresh))
    ∧ (∃ (s : State) (m : Fin 16384), ((s.mailbox m).st = .held) ∧ (¬ (128 ≤ m.val ∧ m.val < 144)))
    ∧ (∃ (s : State) (m : Fin 16384) (q : Nat) (d : List Word), ((s.mailbox m).st = .held) ∧ ((s.mailbox m).waiting = some (q, d)) ∧ (s.takesEvent 11)) :=
  ⟨⟨(let s : State := .reset; s), .host, .host, 0, by decide +kernel⟩,
   ⟨(let s : State := .reset; s), .host, by decide +kernel⟩,
   ⟨{ (State.reset) with glb := { posted := [{ off := 0x100000, value := 0, arrived := 0 }] } }, 0x100000, { off := 0x100000, value := 0, arrived := 0 }, ((regRow 0x100000).get (by decide +kernel)).1, ((regRow 0x100000).get (by decide +kernel)).2.1, ((regRow 0x100000).get (by decide +kernel)).2.2, by decide +kernel⟩,
   ⟨(let s : State := .reset; let s : State := s.setMailbox 143 { (s.mailbox 143) with st := .fresh }; let s : State := s.setMailbox 143 { (s.mailbox 143) with data := [1] }; s), 143, by decide +kernel⟩,
   ⟨(let s : State := .reset; s), 143, by decide +kernel⟩,
   ⟨(let s : State := .reset; let s : State := s.setMailbox 16383 { (s.mailbox 16383) with st := .held }; s), 16383, by decide +kernel⟩,
   ⟨(let s : State := .reset; let s : State := s.setMailbox 16383 { (s.mailbox 16383) with st := .held }; let s : State := s.setMailbox 16383 { (s.mailbox 16383) with waiting := some (0, []) }; let s : State := s.wr F.HIF_EVT_MAP_enable (1) 11; s), 16383, 0, [], by decide +kernel⟩⟩

theorem witness_StrobesAndScrubber :
    (∃ (s : State) (mask : BitVec 16), (mask ≠ 0))
    ∧ (∃ (s : State), (s.glb.strobes ≠ []) ∧ ((∀ n, n < 64 → s.on F.TMP_STAT_running n = false)) ∧ (s.on F.GLB_STAT_cycle_run = false))
    ∧ (∃ (s : State) (off : Nat) (b : Word) (c : Word), (s.glb.t3copies = [(off, some (b, c, false))]) ∧ (off ∉ F.GLB_T3_STAT_disagree.off :: F.GLB_T3_LAST_offset.off :: F.HIF_EVT_MAP_enable.addr 13 0 :: eventWords) ∧ (s.takesEvent 13)) :=
  ⟨⟨(let s : State := .reset; s), 1, by decide +kernel⟩,
   ⟨(let s : State := .reset; let s : State := s.wr F.GLB_STAT_cycle_run (0); let s : State := { s with glb := { s.glb with strobes := [{ mask := 1, now := false, cellAt := 0 }] } }; s), by decide +kernel⟩,
   ⟨(let s : State := .reset; let s : State := { s with glb := { s.glb with t3copies := [(0, some (0, 0, false))] } }; let s : State := s.wr F.HIF_EVT_MAP_enable (1) 13; s), 0, 0, 0, by decide +kernel⟩⟩

theorem witness_UnlockCommands :
    (∃ (s : State), (s.rd F.GLB_UNLOCK_STAT_state = 0 ∨ s.rd F.GLB_UNLOCK_STAT_state = 4) ∧ (s.unlockWaits = false))
    ∧ (∃ (s : State) (nonce : BitVec 256), (s.glb.unlock.requested = true) ∧ (s.otp.owner = true))
    ∧ (∃ (s : State), (s.glb.unlock.requested = true) ∧ (s.otp.owner = false) ∧ (s.takesEvent 9))
    ∧ (∃ (s : State), (s.rd F.GLB_UNLOCK_STAT_state = 1))
    ∧ (∃ (s : State), (s.rd F.GLB_UNLOCK_STAT_state = 2))
    ∧ (∃ (s : State) (w : Nat), (s.glb.unlock.waitEnd = some w))
    ∧ (∃ (s : State), (s.on F.HIF_STAT_host_priv = true) ∧ (s.takesEvent 9)) :=
  ⟨⟨(let s : State := .reset; let s : State := s.wr F.GLB_UNLOCK_STAT_state (0); s), by decide +kernel⟩,
   ⟨(let s : State := .reset; let s : State := { s with glb := { s.glb with unlock := { s.glb.unlock with requested := true } } }; let s : State := { s with otp := { s.otp with owner := true } }; s), 0, by decide +kernel⟩,
   ⟨(let s : State := .reset; let s : State := { s with glb := { s.glb with unlock := { s.glb.unlock with requested := true } } }; let s : State := { s with otp := { s.otp with owner := false } }; let s : State := s.wr F.HIF_EVT_MAP_enable (1) 9; s), by decide +kernel⟩,
   ⟨(let s : State := .reset; let s : State := s.wr F.GLB_UNLOCK_STAT_state (1); s), by decide +kernel⟩,
   ⟨(let s : State := .reset; let s : State := s.wr F.GLB_UNLOCK_STAT_state (2); s), by decide +kernel⟩,
   ⟨(let s : State := .reset; let s : State := { s with glb := { s.glb with unlock := { s.glb.unlock with waitEnd := some 0 } } }; s), 0, by decide +kernel⟩,
   ⟨(let s : State := .reset; let s : State := s.wr F.HIF_STAT_host_priv (1); let s : State := s.wr F.HIF_EVT_MAP_enable (1) 9; s), by decide +kernel⟩⟩

theorem witness_LinkAndDoorbells :
    (∃ (s : State) (sp : Fin 5) (w : Fin 4), (s.hif.linkUp = false) ∧ (s.takesEvent 0))
    ∧ (∃ (s : State) (sp : Fin 5) (w : Fin 4), (s.hif.linkUp = true) ∧ ((s.rd F.HIF_STAT_link_speed ≠ sp.val + 1 ∨ s.rd F.HIF_STAT_link_width ≠ 2 ^ w.val)) ∧ (s.takesEvent 0))
    ∧ (∃ (s : State) (sp : Fin 5) (w : Fin 4), (s.hif.linkUp = true))
    ∧ (∃ (s : State) (bits : Word), (s.takesEvent 1))
    ∧ (∃ (s : State) (kind : Fin 3) (bits : Word), (kind ≠ 0) ∧ (s.takesEvent 2))
    ∧ (∃ (s : State) (r : Fin 64) (v : Word), (v.toNat / 2 ^ 16 = s.rd F.HIF_SQ_EPOCH_epoch r) ∧ (s.on F.HIF_SQ_CTL_enable r = true) ∧ (v.toNat % 2 ^ 16 < s.sqSize r) ∧ (s.sqReady r (s.sq r).producer ≤ s.sqReady r (v.toNat % 2 ^ 16)))
    ∧ (∃ (s : State) (r : Fin 64) (v : Word), (v.toNat / 2 ^ 16 ≠ s.rd F.HIF_SQ_EPOCH_epoch r ∨ s.on F.HIF_SQ_CTL_enable r = false) ∧ (s.takesEvent 3))
    ∧ (∃ (s : State) (r : Fin 64) (v : Word), (v.toNat / 2 ^ 16 = s.rd F.HIF_SQ_EPOCH_epoch r) ∧ (s.on F.HIF_SQ_CTL_enable r = true) ∧ (s.sqSize r ≤ v.toNat % 2 ^ 16) ∧ (s.takesEvent 4))
    ∧ (∃ (s : State) (r : Fin 64) (v : Word), (v.toNat / 2 ^ 16 = s.rd F.HIF_SQ_EPOCH_epoch r) ∧ (s.on F.HIF_SQ_CTL_enable r = true) ∧ (v.toNat % 2 ^ 16 < s.sqSize r) ∧ (s.sqReady r (v.toNat % 2 ^ 16) < s.sqReady r (s.sq r).producer) ∧ (s.takesEvent 4))
    ∧ (∃ (s : State) (q : Fin 64) (v : Word), (v.toNat / 2 ^ 16 = s.rd F.HIF_CQ_EPOCH_epoch q) ∧ (s.on F.HIF_CQ_CTL_enable q = true) ∧ (v.toNat % 2 ^ 16 < s.cqSize q) ∧ (ringDist (s.cqSize q) (s.cq q).consumer (v.toNat % 2 ^ 16) ≤ s.unconsumed q))
    ∧ (∃ (s : State) (q : Fin 64) (v : Word), (v.toNat / 2 ^ 16 ≠ s.rd F.HIF_CQ_EPOCH_epoch q ∨ s.on F.HIF_CQ_CTL_enable q = false) ∧ (s.takesEvent 3)) :=
  ⟨⟨(let s : State := .reset; let s : State := { s with hif := { s.hif with linkUp := false } }; let s : State := s.wr F.HIF_EVT_MAP_enable (1) 0; s), 4, 3, by decide +kernel⟩,
   ⟨(let s : State := .reset; let s : State := { s with hif := { s.hif with linkUp := true } }; let s : State := s.wr F.HIF_EVT_MAP_enable (1) 0; s), 4, 3, by decide +kernel⟩,
   ⟨(let s : State := .reset; let s : State := { s with hif := { s.hif with linkUp := true } }; s), 4, 3, by decide +kernel⟩,
   ⟨(let s : State := .reset; let s : State := s.wr F.HIF_EVT_MAP_enable (1) 1; s), 0, by decide +kernel⟩,
   ⟨(let s : State := .reset; let s : State := s.wr F.HIF_EVT_MAP_enable (1) 2; s), 1, 0, by decide +kernel⟩,
   ⟨(let s : State := .reset; let s : State := s.wr F.HIF_SQ_CTL_enable (1) 63; s), 63, 0, by decide +kernel⟩,
   ⟨(let s : State := .reset; let s : State := s.wr F.HIF_EVT_MAP_enable (1) 3; s), 63, 0, by decide +kernel⟩,
   ⟨(let s : State := .reset; let s : State := s.wr F.HIF_SQ_CTL_enable (1) 63; let s : State := s.wr F.HIF_EVT_MAP_enable (1) 4; let s : State := s.wr F.HIF_SQ_CFG_size_log2 5 63; s), 63, 32, by decide +kernel⟩,
   ⟨(let s : State := .reset; let s : State := s.wr F.HIF_SQ_CTL_enable (1) 63; let s : State := s.wr F.HIF_EVT_MAP_enable (1) 4; let s : State := s.wr F.HIF_SQ_CFG_size_log2 5 63; let s : State := s.setSq 63 { (s.sq 63) with producer := 1 }; s), 63, 0, by decide +kernel⟩,
   ⟨(let s : State := .reset; let s : State := s.wr F.HIF_CQ_CTL_enable (1) 63; s), 63, 0, by decide +kernel⟩,
   ⟨(let s : State := .reset; let s : State := s.wr F.HIF_EVT_MAP_enable (1) 3; s), 63, 0, by decide +kernel⟩⟩

theorem witness_FetchAndDelivery :
    (∃ (s : State) (r : Fin 64) (x : Option HostErr), (s.burst r ≠ 0) ∧ (s.on F.HIF_SQ_CTL_shadow_en r = false))
    ∧ (∃ (s : State) (r : Fin 64), (s.burst r ≠ 0) ∧ (s.on F.HIF_SQ_CTL_shadow_en r = true))
    ∧ (∃ (s : State) (r : Fin 64) (b : List Byte), ((s.sq r).inFlight = 1) ∧ (b.length = 64) ∧ (s.mode ≠ 5) ∧ (s.checkDesc r b = none))
    ∧ (∃ (s : State) (q : Fin 63) (c : Compl), (s.hif.compl.find? (·.cq == q.val) = some c) ∧ (s.cqOpen q = true))
    ∧ (∃ (s : State) (e : EventRec) (l : List EventRec), (s.hif.events = e :: l) ∧ (s.cqOpen 63 = true))
    ∧ (∃ (s : State), (s.hif.lostOwed = true) ∧ (s.takesEvent 7))
    ∧ (∃ (s : State) (v : Fin 128) (w : Nat), (s.vectorDue v = some w) ∧ (s.hif.d3hot = false)) :=
  ⟨⟨(let s : State := .reset; let s : State := s.wr F.HIF_SQ_CTL_shadow_en (0) 63; let s : State := s.wr F.HIF_SQ_CFG_size_log2 5 63; let s : State := s.setSq 63 { (s.sq 63) with producer := 1 }; let s : State := s.wr F.HIF_SQ_CTL_enable 1 63; let s : State := s.wr F.HIF_SQ_CREDIT_credit 8 63; let s : State := s.wr F.HIF_CQ_CTL_enable 1 0; let s : State := s.wr F.HIF_CQ_CFG_size_log2 5 0; let s : State := s.wr F.HIF_SQ_CFG_class 5 63; let s : State := s.wr F.GLB_STAT_mode 2; let s : State := s.wr F.HIF_SQ_CFG_cq 0 63; s), 63, none, by decide +kernel⟩,
   ⟨(let s : State := .reset; let s : State := s.wr F.HIF_SQ_CTL_shadow_en (1) 63; let s : State := s.wr F.HIF_SQ_CFG_size_log2 5 63; let s : State := s.setSq 63 { (s.sq 63) with producer := 1 }; let s : State := s.wr F.HIF_SQ_CTL_enable 1 63; let s : State := s.wr F.HIF_SQ_CREDIT_credit 8 63; let s : State := s.wr F.HIF_CQ_CTL_enable 1 0; let s : State := s.wr F.HIF_CQ_CFG_size_log2 5 0; let s : State := s.wr F.HIF_SQ_CFG_class 5 63; let s : State := s.wr F.GLB_STAT_mode 2; let s : State := s.wr F.HIF_SQ_CFG_cq 0 63; s), 63, by decide +kernel⟩,
   ⟨(let s : State := .reset; let s : State := s.setSq 63 { (s.sq 63) with inFlight := 1 }; let s : State := s.wr F.GLB_STAT_mode (0); let s : State := s.wr F.GLB_STAT_mode 2; s), 63, (dsc [(0, 2, 1)]), by decide +kernel⟩,
   ⟨(let s : State := .reset; let s : State := { s with hif := { s.hif with compl := [({ id := 0, cq := 62, ring := 0, status := 0, notes := 0, tag := 0, time := 0, result := [] } : Compl)] } }; let s : State := s.wr F.HIF_CQ_CTL_enable 1 62; let s : State := s.wr F.HIF_CQ_CFG_size_log2 5 62; s), 62, ({ id := 0, cq := 62, ring := 0, status := 0, notes := 0, tag := 0, time := 0, result := [] } : Compl), by decide +kernel⟩,
   ⟨(let s : State := .reset; let s : State := { s with hif := { s.hif with events := ({ src := 0, code := 0, time := 0, count := 0, inst := 0, epoch := 0, detail := 0 } : EventRec) :: [] } }; let s : State := s.wr F.HIF_CQ_CTL_enable 1 63; let s : State := s.wr F.HIF_CQ_CFG_size_log2 5 63; s), ({ src := 0, code := 0, time := 0, count := 0, inst := 0, epoch := 0, detail := 0 } : EventRec), [], by decide +kernel⟩,
   ⟨(let s : State := .reset; let s : State := { s with hif := { s.hif with lostOwed := true } }; let s : State := s.wr F.HIF_EVT_MAP_enable (1) 7; s), by decide +kernel⟩,
   ⟨(let s : State := .reset; let s : State := { s with hif := { s.hif with d3hot := false } }; let s : State := { s with hif.vector := [(127, { since := 1, first := some 0 })] }; s), 127, 0, by decide +kernel⟩⟩

theorem witness_RingsNopAndAbort :
    (∃ (s : State) (m : Master) (r : Fin 64), (s.on F.HIF_SQ_CTL_enable r = false) ∧ (s.refuseCode m r = none))
    ∧ (∃ (s : State) (m : Master) (r : Fin 64) (c : Nat), (s.on F.HIF_SQ_CTL_enable r = false) ∧ (s.refuseCode m r = some c) ∧ (s.takesEvent 5))
    ∧ (∃ (s : State) (r : Fin 64), (s.on F.HIF_SQ_CTL_enable r = false) ∧ (s.outstanding r = 0))
    ∧ (∃ (s : State) (r : Fin 64), (s.on F.HIF_SQ_CTL_enable r = true ∨ s.outstanding r ≠ 0))
    ∧ (∃ (s : State) (r : Fin 64) (d : Desc), (s.hif.desc.filter (·.ring == r.val) = [d]) ∧ (d.opcode = 0x0001))
    ∧ (∃ (s : State) (q : Fin 64), ((∀ r, r < 64 → s.rd F.HIF_SQ_CFG_cq r = q.val → s.on F.HIF_SQ_CTL_enable r = false ∧ (s.sq r).inFlight = 0)) ∧ ((∀ d ∈ s.hif.desc, d.cq ≠ q.val)))
    ∧ (∃ (s : State) (r : Fin 64) (d : Desc), (s.Starts r 0x0001 d))
    ∧ (∃ (s : State) (r : Fin 64) (d : Desc) (e : Desc), (s.hif.desc = [e, d]) ∧ (d.id ≠ e.id) ∧ (d.ring = r.val) ∧ (e.ring = r.val) ∧ (d.opcode = 0x0002) ∧ (d.started = false) ∧ (d.quiet = false) ∧ (e.opcode = 0x0001) ∧ (e.quiet = false) ∧ (e.tag = d.op 16 4) ∧ (bitAt (d.op 20 1) 0 = false))
    ∧ (∃ (s : State) (r : Fin 64) (d : Desc), (s.hif.desc = [d]) ∧ (d.ring = r.val) ∧ (d.opcode = 0x0002) ∧ (d.started = false) ∧ (d.quiet = false)) :=
  ⟨⟨(let s : State := .reset; let s : State := s.wr F.HIF_SQ_CTL_enable (0) 63; let s : State := s.wr F.HIF_SQ_CFG_size_log2 5 63; let s : State := s.wr F.HIF_SQ_CFG_class 5 63; let s : State := s.wr F.HIF_CQ_CTL_enable 1 0; let s : State := s.wr F.HIF_CQ_CFG_size_log2 5 0; let s : State := s.wr F.HIF_SQ_CFG_cq 0 63; s), .host, 63, by decide +kernel⟩,
   ⟨(let s : State := .reset; let s : State := s.wr F.HIF_SQ_CTL_enable (0) 63; let s : State := s.wr F.HIF_EVT_MAP_enable (1) 5; s), .host, 63, 2, by decide +kernel⟩,
   ⟨(let s : State := .reset; let s : State := s.wr F.HIF_SQ_CTL_enable (0) 63; s), 63, by decide +kernel⟩,
   ⟨(let s : State := .reset; let s : State := s.wr F.HIF_SQ_CTL_enable (1) 63; s), 63, by decide +kernel⟩,
   ⟨(let s : State := .reset; let s : State := { s with hif := { s.hif with desc := [({ id := 0, ring := 63, slot := 0, bytes := dsc [(0, 2, 0x0001)] } : Desc)] } }; s), 63, ({ id := 0, ring := 63, slot := 0, bytes := dsc [(0, 2, 0x0001)] } : Desc), by decide +kernel⟩,
   ⟨(let s : State := .reset; s), 63, by decide +kernel⟩,
   ⟨(let s : State := .reset; let s : State := { s with hif.desc := [({ id := 0, ring := 63, slot := 0, bytes := dsc [(0, 2, 0x0001)] } : Desc)] }; s), 63, ({ id := 0, ring := 63, slot := 0, bytes := dsc [(0, 2, 0x0001)] } : Desc), by decide +kernel⟩,
   ⟨(let s : State := .reset; let s : State := { s with hif := { s.hif with desc := [({ id := 0, ring := 63, slot := 0, bytes := dsc [(0, 2, 0x0001)] } : Desc), ({ id := 1, ring := 63, slot := 0, bytes := dsc [(0, 2, 0x0002)], started := false } : Desc)] } }; s), 63, ({ id := 1, ring := 63, slot := 0, bytes := dsc [(0, 2, 0x0002)], started := false } : Desc), ({ id := 0, ring := 63, slot := 0, bytes := dsc [(0, 2, 0x0001)] } : Desc), by decide +kernel⟩,
   ⟨(let s : State := .reset; let s : State := { s with hif := { s.hif with desc := [({ id := 0, ring := 63, slot := 0, bytes := dsc [(0, 2, 0x0002)], started := false } : Desc)] } }; s), 63, ({ id := 0, ring := 63, slot := 0, bytes := dsc [(0, 2, 0x0002)], started := false } : Desc), by decide +kernel⟩⟩

theorem witness_HiveCommands :
    (∃ (s : State) (it : Item) (c : Nat), (s.on F.HIV_CTL_enable = true) ∧ (s.mode ≠ 5) ∧ (s.dropOrphans = s) ∧ ((s.served.filter s.eligible).findSome? (fun it => (s.coreFor it).map fun c => (it, c)) = some (it, c)) ∧ (it.spilled = false))
    ∧ (∃ (s : State) (q : Word) (it : Item), (s.hive.items.find? (fun it => it.seq == q.toNat && !it.anvil && !it.waited) = some it) ∧ (s.coreFor it = none) ∧ (s.on F.HIV_CTL_enable = false))
    ∧ (∃ (s : State) (c : Fin 32) (it : Item), ((s.core c).item = some it) ∧ ((s.core c).limitAt = none) ∧ (it.anvil = false) ∧ (s.takesEvent (24 + c.val / 4)))
    ∧ (∃ (s : State) (c : Fin 32) (w : Nat) (it : Item), ((s.core c).limitAt = some w) ∧ ((s.core c).item = some it))
    ∧ (∃ (s : State) (c : Fin 32), ((s.core c).inReset = true) ∧ (s.mode ≠ 5))
    ∧ (∃ (s : State), (s.on F.HIV_CTL_enable = true) ∧ (s.mode ≠ 5) ∧ (s.tickNs ≠ 0))
    ∧ (∃ (s : State) (t : Timer) (u : Timer), (s.hive.timers = [t, u]) ∧ (0 ≤ cellDiff s.cellNs t.wake) ∧ (0 ≤ cellDiff s.cellNs u.wake) ∧ (u.wake < t.wake) ∧ (s.fwRoom = true) ∧ ((s.releaseTimer u).fwRoom = true))
    ∧ (∃ (s : State) (ring : Bool), (s.onChip ring ≤ 1536) ∧ (s.ddrServes = true) ∧ (s.on F.HIV_TRC_CTL_enable = false) ∧ (s.inSpill ring ≤ 512) ∧ ((∀ it ∈ s.hive.items, ∀ j ∈ s.hive.items, it.seq = j.seq → it = j)) ∧ ((∀ it ∈ s.hive.items, it.spilled = true → it.ringShare = ring))) :=
  ⟨⟨(let s : State := .reset; let s : State := s.wr F.HIV_CTL_enable (1); let s : State := s.wr F.GLB_STAT_mode (0); let s : State := s.wr F.HIV_CTX0_state 1 0; let s : State := s.wr F.HIV_CTX1_mask 1 0; let s : State := s.wr F.HIV_CTX0_last 0xFF 0; let s : State := { s with hive.items := [{ ctx := 0, prio := 0, source := 0, seq := 0, arg := 0, ready := 0 }] }; s), ({ ctx := 0, prio := 0, source := 0, seq := 0, arg := 0, ready := 0, spilled := false } : Item), 0, by decide +kernel⟩,
   ⟨(let s : State := .reset; let s : State := { s with hive := { s.hive with items := [({ ctx := 0, prio := 0, source := 0, seq := 0, arg := 0, ready := 0 } : Item)] } }; let s : State := s.wr F.HIV_CTL_enable (0); s), 0, ({ ctx := 0, prio := 0, source := 0, seq := 0, arg := 0, ready := 0 } : Item), by decide +kernel⟩,
   ⟨(let s : State := .reset; let s : State := s.setCore 31 { (s.core 31) with item := some ({ ctx := 0, anvil := false, prio := 0, source := 0, seq := 0, arg := 0, ready := 0 } : Item) }; let s : State := s.setCore 31 { (s.core 31) with limitAt := none }; let s : State := s.wr F.HIF_EVT_MAP_enable (1) (24 + 31 / 4); s), 31, ({ ctx := 0, anvil := false, prio := 0, source := 0, seq := 0, arg := 0, ready := 0 } : Item), by decide +kernel⟩,
   ⟨(let s : State := .reset; let s : State := s.setCore 31 { (s.core 31) with limitAt := some 0 }; let s : State := s.setCore 31 { (s.core 31) with item := some ({ ctx := 0, prio := 0, source := 0, seq := 0, arg := 0, ready := 0 } : Item) }; s), 31, 0, ({ ctx := 0, prio := 0, source := 0, seq := 0, arg := 0, ready := 0 } : Item), by decide +kernel⟩,
   ⟨(let s : State := .reset; let s : State := s.setCore 31 { (s.core 31) with inReset := true }; let s : State := s.wr F.GLB_STAT_mode (0); s), 31, by decide +kernel⟩,
   ⟨(let s : State := .reset; let s : State := s.wr F.HIV_CTL_enable (1); let s : State := s.wr F.GLB_STAT_mode (0); s), by decide +kernel⟩,
   ⟨(let s : State := .reset; let s : State := { s with hive := { s.hive with timers := [({ list := 0, ctx := 0, arg := 0, wake := 1, handle := 1 } : Timer), ({ list := 0, ctx := 0, arg := 0, wake := 0, handle := 2 } : Timer)] } }; let s : State := { s with tim.cell := 2 ^ 33 }; s), ({ list := 0, ctx := 0, arg := 0, wake := 1, handle := 1 } : Timer), ({ list := 0, ctx := 0, arg := 0, wake := 0, handle := 2 } : Timer), by decide +kernel⟩,
   ⟨(let s : State := .reset; let s : State := s.wr F.HIV_TRC_CTL_enable (0); let s : State := s.wr F.GLB_STAT_ddr_ok 1; s), false, by decide +kernel⟩⟩

theorem witness_ForagerCommands_a :
    (∃ (s : State) (c : Fin 32) (it : Item), ((s.core c).item = some it) ∧ (it.anvil = false))
    ∧ (∃ (s : State) (c : Fin 32) (it : Item), ((s.core c).item = some it))
    ∧ (∃ (s : State) (c : Fin 32) (it : Item) (how : Nat) (kind : Nat), ((s.core c).item = some it) ∧ (it.anvil = false) ∧ (s.on F.HIV_TRC_CTL_enable = false) ∧ (it.ctx < 1024))
    ∧ (∃ (s : State) (c : Fin 32) (wake : DWord), ((s.core c).item = none))
    ∧ (∃ (s : State) (c : Fin 32) (wake : DWord) (it : Item), ((s.core c).item = some it) ∧ (it.anvil = false) ∧ (s.on F.HIV_TRC_CTL_enable = false) ∧ (it.ctx < 1024) ∧ (s.hive.timers = []))
    ∧ (∃ (s : State) (c : Fin 32) (x : Fin 1024) (p : Fin 8) (a : Word), (s.ctxState x ≠ 0) ∧ (s.ctxState x ≠ 3) ∧ (s.rd F.HIV_CTX1_mask x ≠ 0) ∧ (s.on F.HIV_STAT_backpressure = false) ∧ (s.fwRoom = true))
    ∧ (∃ (s : State) (c : Fin 32) (x : Fin 1024) (p : Fin 8) (a : Word), (s.ctxState x = 0 ∨ s.ctxState x = 3))
    ∧ (∃ (s : State) (c : Fin 32) (x : Fin 1024) (a : DWord) (w : DWord), (s.hive.timers.length < 2048))
    ∧ (∃ (s : State) (c : Fin 32) (x : Fin 1024) (a : DWord) (w : DWord), (2048 ≤ s.hive.timers.length) ∧ (s.takesEvent 18))
    ∧ (∃ (s : State) (c : Fin 32) (h : BitVec 16) (u : Timer), (s.hive.timers.find? (·.handle == h.toNat) = some u))
    ∧ (∃ (s : State) (c : Fin 32) (h : BitVec 16), (s.hive.timers.find? (·.handle == h.toNat) = none))
    ∧ (∃ (s : State) (c : Fin 32) (x : Fin 1024), (s.on F.HIV_CTX0_periodic x = true) ∧ (s.on F.HIV_CTX0_mirrored x = false) ∧ (s.rd F.HIV_CTX0_running x = 0) ∧ (s.hive.timers = []) ∧ (s.hive.items = [])) :=
  ⟨⟨(let s : State := .reset; let s : State := s.setCore 31 { (s.core 31) with item := some ({ ctx := 0, anvil := false, prio := 0, source := 0, seq := 0, arg := 0, ready := 0 } : Item) }; s), 31, ({ ctx := 0, anvil := false, prio := 0, source := 0, seq := 0, arg := 0, ready := 0 } : Item), by decide +kernel⟩,
   ⟨(let s : State := .reset; let s : State := s.setCore 31 { (s.core 31) with item := some ({ ctx := 0, prio := 0, source := 0, seq := 0, arg := 0, ready := 0 } : Item) }; s), 31, ({ ctx := 0, prio := 0, source := 0, seq := 0, arg := 0, ready := 0 } : Item), by decide +kernel⟩,
   ⟨(let s : State := .reset; let s : State := s.setCore 31 { (s.core 31) with item := some ({ ctx := 1023, anvil := false, prio := 0, source := 0, seq := 0, arg := 0, ready := 0 } : Item) }; let s : State := s.wr F.HIV_TRC_CTL_enable (0); s), 31, ({ ctx := 1023, anvil := false, prio := 0, source := 0, seq := 0, arg := 0, ready := 0 } : Item), 0, 0, by decide +kernel⟩,
   ⟨(let s : State := .reset; let s : State := s.setCore 31 { (s.core 31) with item := none }; s), 31, 0, by decide +kernel⟩,
   ⟨(let s : State := .reset; let s : State := s.setCore 31 { (s.core 31) with item := some ({ ctx := 1023, anvil := false, prio := 0, source := 0, seq := 0, arg := 0, ready := 0 } : Item) }; let s : State := s.wr F.HIV_TRC_CTL_enable (0); let s : State := { s with hive := { s.hive with timers := [] } }; s), 31, 0, ({ ctx := 1023, anvil := false, prio := 0, source := 0, seq := 0, arg := 0, ready := 0 } : Item), by decide +kernel⟩,
   ⟨(let s : State := .reset; let s : State := s.wr F.HIV_CTX0_state (1) 1023; let s : State := s.wr F.HIV_CTX0_state (0) 1023; let s : State := s.wr F.HIV_CTX1_mask (1) 1023; let s : State := s.wr F.HIV_STAT_backpressure (0); let s : State := s.wr F.HIV_CTX0_state 1 1023; s), 31, 1023, 7, 0, by decide +kernel⟩,
   ⟨(let s : State := .reset; let s : State := s.wr F.HIV_CTX0_state (0) 1023; s), 31, 1023, 7, 0, by decide +kernel⟩,
   ⟨(let s : State := .reset; s), 31, 1023, 0, 0, by decide +kernel⟩,
   ⟨(let s : State := .reset; let s : State := s.wr F.HIF_EVT_MAP_enable (1) 18; let s : State := { s with hive.timers := List.replicate 2048 { list := 0, ctx := 0, arg := 0, wake := 0, handle := 0 } }; s), 31, 1023, 0, 0, by decide +kernel⟩,
   ⟨(let s : State := .reset; let s : State := { s with hive := { s.hive with timers := [({ list := 0, ctx := 0, arg := 0, wake := 0, handle := 0 } : Timer)] } }; s), 31, 0, ({ list := 0, ctx := 0, arg := 0, wake := 0, handle := 0 } : Timer), by decide +kernel⟩,
   ⟨(let s : State := .reset; s), 31, 0, by decide +kernel⟩,
   ⟨(let s : State := .reset; let s : State := s.wr F.HIV_CTX0_periodic (1) 1023; let s : State := s.wr F.HIV_CTX0_mirrored (0) 1023; let s : State := s.wr F.HIV_CTX0_running (0) 1023; let s : State := { s with hive := { s.hive with timers := [] } }; let s : State := { s with hive := { s.hive with items := [] } }; s), 31, 1023, by decide +kernel⟩⟩

theorem witness_ForagerCommands_b :
    (∃ (s : State) (c : Fin 32) (x : Nat) (p : Nat) (a : Nat), ((s.core c).stalled = some (x, p, a, false))) :=
  ⟨(let s : State := .reset; let s : State := s.setCore 31 { (s.core 31) with stalled := some (0, 0, 0, false) }; s), 31, 0, 0, 0, by decide +kernel⟩

theorem witness_AnvilJobs :
    (∃ (s : State) (c : Fin 32) (slot : BitVec 11), ((s.wr F.ANV_SUBMIT_slot slot.toNat).submitCheck slot.toNat = 0) ∧ (s.on F.HIV_STAT_backpressure = false) ∧ (s.fwRoom = true))
    ∧ (∃ (s : State) (m : Master) (slot : BitVec 11), (masterId m = 1 ∨ masterId m = 2) ∧ ((s.wr F.ANV_SUBMIT_slot slot.toNat).submitCheck slot.toNat ≠ 0))
    ∧ (∃ (s : State) (m : Master) (slot : BitVec 11), (masterId m ≠ 1) ∧ (masterId m ≠ 2))
    ∧ (∃ (s : State) (c : Fin 32) (slot : BitVec 11), (slot.toNat < 1024) ∧ (s.job slot.toNat = none))
    ∧ (∃ (s : State) (c : Fin 32) (slot : BitVec 11) (j : Job) (n : Nat), (slot.toNat < 1024) ∧ (s.job slot.toNat = some j) ∧ ((∀ it ∈ s.hive.items, it.anvil = false)) ∧ (s.engineOf slot.toNat = some n))
    ∧ (∃ (s : State) (n : Fin 8), (s.solve n = none) ∧ (s.takesEvent (32 + n)))
    ∧ (∃ (s : State) (r : Fin 64) (d : Desc) (slot : Nat), (s.Starts r 0x0201 d) ∧ (s.freeHostSlot = some slot) ∧ (s.on F.HIV_TRC_CTL_enable = false) ∧ (s.onChip true < 2048))
    ∧ (∃ (s : State) (r : Fin 64) (d : Desc), (s.Starts r 0x0202 d)) :=
  ⟨⟨(let s : State := .reset; let s : State := s.wr F.HIV_STAT_backpressure (0); let s : State := { s with ddr := [(6, 0xFF), (7, 0xFF)] }; s), 31, 0, by decide +kernel⟩,
   ⟨(let s : State := .reset; s), .farrier, 1024, by decide +kernel⟩,
   ⟨(let s : State := .reset; s), .host, 0, by decide +kernel⟩,
   ⟨(let s : State := .reset; let s : State := s.setJob 1023 (none); s), 31, 1023, by decide +kernel⟩,
   ⟨(let s : State := .reset; let s : State := s.setJob 1023 (some ({ bytes := [], deadline := 0 } : Job)); let s : State := s.setSolve 7 (some { slot := 1023 }); s), 31, 1023, ({ bytes := [], deadline := 0 } : Job), 7, by decide +kernel⟩,
   ⟨(let s : State := .reset; let s : State := s.setSolve 7 (none); let s : State := s.wr F.HIF_EVT_MAP_enable (1) (32 + 7); s), 7, by decide +kernel⟩,
   ⟨(let s : State := .reset; let s : State := { s with hif.desc := [({ id := 0, ring := 63, slot := 0, bytes := dsc [(0, 2, 0x0201)] } : Desc)] }; let s : State := s.wr F.HIV_TRC_CTL_enable (0); s), 63, ({ id := 0, ring := 63, slot := 0, bytes := dsc [(0, 2, 0x0201)] } : Desc), 1024, by decide +kernel⟩,
   ⟨(let s : State := .reset; let s : State := { s with hif.desc := [({ id := 0, ring := 63, slot := 0, bytes := dsc [(0, 2, 0x0202)] } : Desc)] }; s), 63, ({ id := 0, ring := 63, slot := 0, bytes := dsc [(0, 2, 0x0202)] } : Desc), by decide +kernel⟩⟩

theorem witness_AnvilSolve :
    (∃ (s : State) (n : Nat) (it : Item), (s.mode ≠ 5) ∧ (s.mode ≠ 7) ∧ (s.on F.HIV_CTL_enable = true) ∧ ((List.range 8).find? (fun n => s.on F.ANV_CTL_enable n && (s.solve n).isNone) = some n) ∧ (s.nextJob = some it) ∧ ((∀ j, s.job it.ctx = some j → j.deadline = 0)) ∧ (s.on F.HIV_TRC_CTL_enable = false) ∧ (s.on F.HIV_STAT_backpressure = false) ∧ ((∀ c, c < 32 → (s.core c).stalled = none)) ∧ ((∀ j ∈ s.hive.items, j.spilled = false)))
    ∧ (∃ (s : State) (n : Fin 8) (io : HostIo) (v : Solve) (j : Job), (s.solve n = some v) ∧ (v.outcome = none) ∧ (s.rd F.ANV_STAT_phase n = 1) ∧ (s.job v.slot = some j) ∧ (j.desc.isSome = true) ∧ (io.bodyErr = false) ∧ (loadCheck io.body (s.rd F.ANV_GCTL_tau_log2) (field j.bytes 0 2) (field j.bytes 40 4) = 0))
    ∧ (∃ (s : State) (n : Fin 8) (io : HostIo) (v : Solve) (j : Job) (c : Nat), (s.solve n = some v) ∧ (v.outcome = none) ∧ (s.rd F.ANV_STAT_phase n = 1) ∧ (s.job v.slot = some j) ∧ (j.desc.isSome = true) ∧ (io.bodyErr = false) ∧ (c ≠ 0) ∧ (loadCheck io.body (s.rd F.ANV_GCTL_tau_log2) (field j.bytes 0 2) (field j.bytes 40 4) = c))
    ∧ (∃ (s : State) (n : Fin 8) (v : Solve), (s.solve n = some v) ∧ (v.outcome = none) ∧ (s.rd F.ANV_STAT_phase n = 2))
    ∧ (∃ (s : State) (n : Fin 8) (v : Solve), (s.solve n = some v) ∧ (v.outcome = none) ∧ (s.rd F.ANV_STAT_phase n = 4))
    ∧ (∃ (s : State) (n : Fin 8) (v : Solve), (s.solve n = some v) ∧ (v.outcome = none) ∧ (s.rd F.ANV_STAT_phase n = 3))
    ∧ (∃ (s : State) (n : Fin 8) (v : Solve) (j : Job), (s.solve n = some v) ∧ (v.outcome = none) ∧ (s.job v.slot = some j) ∧ (j.deadline ≠ 0))
    ∧ (∃ (s : State) (n : Fin 8) (io : HostIo) (v : Solve) (e : JobEnd) (j : Job) (d : Nat), (s.solve n = some v) ∧ (v.outcome = some e) ∧ (s.job v.slot = some j) ∧ (j.desc = some d) ∧ (e.ending ≠ 7) ∧ (io.resultErr = false))
    ∧ (∃ (s : State) (n : Fin 8) (io : HostIo) (v : Solve) (e : JobEnd) (j : Job), (s.solve n = some v) ∧ (v.outcome = some e) ∧ (s.job v.slot = some j) ∧ (j.desc = none)) :=
  ⟨⟨(let s : State := .reset; let s : State := s.wr F.GLB_STAT_mode (0); let s : State := s.wr F.GLB_STAT_mode (0); let s : State := s.wr F.HIV_CTL_enable (1); let s : State := s.wr F.HIV_TRC_CTL_enable (0); let s : State := s.wr F.HIV_STAT_backpressure (0); let s : State := s.wr F.ANV_CTL_enable 0 0; let s : State := s.wr F.ANV_CTL_enable 0 1; let s : State := s.wr F.ANV_CTL_enable 0 2; let s : State := s.wr F.ANV_CTL_enable 0 3; let s : State := s.wr F.ANV_CTL_enable 0 4; let s : State := s.wr F.ANV_CTL_enable 0 5; let s : State := s.wr F.ANV_CTL_enable 0 6; let s : State := s.wr F.ANV_CTL_enable 1 7; let s : State := { s with hive.items := [{ ctx := 3, anvil := true, prio := 0, planner := true, source := 0, seq := 0, arg := 0, ready := 0 }] }; s), 7, ({ ctx := 3, anvil := true, prio := 0, planner := true, source := 0, seq := 0, arg := 0, ready := 0 } : Item), by decide +kernel, by decide +kernel, by decide +kernel, by decide +kernel, by decide +kernel, (fun _ h => nomatch h), by decide +kernel, by decide +kernel, by decide +kernel⟩,
   ⟨(let s : State := .reset; let s : State := s.setSolve 7 (some ({ slot := 0, outcome := none } : Solve)); let s : State := s.wr F.ANV_STAT_phase (1) 7; let s : State := s.setJob ({ slot := 0, outcome := none } : Solve).slot (some ({ bytes := dsc [(40, 4, 132)], desc := some 0, deadline := 0 } : Job)); s), 7, ({ body := probBody, bodyErr := false } : HostIo), ({ slot := 0, outcome := none } : Solve), ({ bytes := dsc [(40, 4, 132)], desc := some 0, deadline := 0 } : Job), by decide +kernel⟩,
   ⟨(let s : State := .reset; let s : State := s.setSolve 7 (some ({ slot := 0, outcome := none } : Solve)); let s : State := s.wr F.ANV_STAT_phase (1) 7; let s : State := s.setJob ({ slot := 0, outcome := none } : Solve).slot (some ({ bytes := [], desc := some 0, deadline := 0 } : Job)); s), 7, ({ bodyErr := false } : HostIo), ({ slot := 0, outcome := none } : Solve), ({ bytes := [], desc := some 0, deadline := 0 } : Job), 1, by decide +kernel⟩,
   ⟨(let s : State := .reset; let s : State := s.setSolve 7 (some ({ slot := 0, outcome := none } : Solve)); let s : State := s.wr F.ANV_STAT_phase (2) 7; s), 7, ({ slot := 0, outcome := none } : Solve), by decide +kernel⟩,
   ⟨(let s : State := .reset; let s : State := s.setSolve 7 (some ({ slot := 0, outcome := none } : Solve)); let s : State := s.wr F.ANV_STAT_phase (4) 7; s), 7, ({ slot := 0, outcome := none } : Solve), by decide +kernel⟩,
   ⟨(let s : State := .reset; let s : State := s.setSolve 7 (some ({ slot := 0, outcome := none } : Solve)); let s : State := s.wr F.ANV_STAT_phase (3) 7; s), 7, ({ slot := 0, outcome := none } : Solve), by decide +kernel⟩,
   ⟨(let s : State := .reset; let s : State := s.setSolve 7 (some ({ slot := 0, outcome := none } : Solve)); let s : State := s.setJob ({ slot := 0, outcome := none } : Solve).slot (some ({ bytes := [], deadline := 1 } : Job)); s), 7, ({ slot := 0, outcome := none } : Solve), ({ bytes := [], deadline := 1 } : Job), by decide +kernel⟩,
   ⟨(let s : State := .reset; let s : State := s.setSolve 7 (some ({ slot := 0, outcome := some ({ status := 0, ending := 0 } : JobEnd) } : Solve)); let s : State := s.setJob ({ slot := 0, outcome := some ({ status := 0, ending := 0 } : JobEnd) } : Solve).slot (some ({ bytes := [], desc := some 0, deadline := 0 } : Job)); s), 7, ({ resultErr := false } : HostIo), ({ slot := 0, outcome := some ({ status := 0, ending := 0 } : JobEnd) } : Solve), ({ status := 0, ending := 0 } : JobEnd), ({ bytes := [], desc := some 0, deadline := 0 } : Job), 0, by decide +kernel⟩,
   ⟨(let s : State := .reset; let s : State := s.setSolve 7 (some ({ slot := 0, outcome := some ({ status := 0, ending := 0 } : JobEnd) } : Solve)); let s : State := s.setJob ({ slot := 0, outcome := some ({ status := 0, ending := 0 } : JobEnd) } : Solve).slot (some ({ bytes := [], desc := none, deadline := 0 } : Job)); s), 7, ({} : HostIo), ({ slot := 0, outcome := some ({ status := 0, ending := 0 } : JobEnd) } : Solve), ({ status := 0, ending := 0 } : JobEnd), ({ bytes := [], desc := none, deadline := 0 } : Job), by decide +kernel⟩⟩

theorem witness_SegmentCommands :
    (∃ (s : State) (r : Fin 64) (io : HostIo) (i : Instr) (op : Nat) (d : Desc), ((i, op) ∈ [(Instr.moveJoint r io, 0x0101), (Instr.moveLine r io, 0x0102), (Instr.moveArc r io, 0x0103), (Instr.moveSpline r io, 0x0104)]) ∧ (s.nextMotion r op = some d) ∧ (io.bodyErr = false) ∧ ((op = 0x0104 → byteAt io.body 0 = 1 → Config.cartesian r = true)) ∧ ((op = 0x0104 → byteAt io.body 0 = 0 → d.op 37 1 = 0)) ∧ (segReserved op io.body = false) ∧ (s.segBad r d io.body = none))
    ∧ (∃ (s : State) (r : Fin 64) (d : Desc), (s.nextMotion r 0x0105 = some d) ∧ (((bitsIn (d.op 32 4)).any fun z => (s.zoneEnt z).scope == 0) = false))
    ∧ (∃ (s : State) (r : Fin 64) (io : HostIo) (d : Desc) (off : Nat), (s.nextMotion r 0x0102 = some d) ∧ (io.bodyErr = false) ∧ (segReserved 0x0102 io.body = false) ∧ (s.segBad r d io.body = some off))
    ∧ (∃ (s : State) (c : Fin 16) (g : Seg), ((s.chain c).cur = some g) ∧ ((s.chain c).state = 1) ∧ (g.op ≠ 0x0105) ∧ ((s.chain c).queue = []) ∧ ((s.chain c).heldNext = none) ∧ ((s.chain c).halt = none) ∧ ((s.chain c).later = none))
    ∧ (∃ (s : State) (c : Fin 16) (rem : Word) (len : Word) (g : Seg) (h : Halt), ((s.chain c).cur = some g) ∧ ((s.chain c).halt = some h) ∧ ((s.chain c).state = 3 ∨ (s.chain c).state = 5) ∧ (h.cancel = false) ∧ (h.discard = false) ∧ ((s.chain c).later = none) ∧ ((s.chain c).resumes = []) ∧ (s.takesEvent 23)) :=
  ⟨⟨(let s : State := .reset; let s : State := { s with hif.desc := [({ id := 0, ring := 15, slot := 0, bytes := dsc [(0, 2, 0x0102)] } : Desc)] }; s), 15, ({ body := bytesOf 32 [(28, 4, 2 ^ 30)], bodyErr := false } : HostIo), (Instr.moveLine 15 { body := bytesOf 32 [(28, 4, 2 ^ 30)] }), 0x0102, ({ id := 0, ring := 15, slot := 0, bytes := dsc [(0, 2, 0x0102)] } : Desc), by decide +kernel⟩,
   ⟨(let s : State := .reset; let s : State := { s with hif.desc := [({ id := 0, ring := 15, slot := 0, bytes := dsc [(0, 2, 0x0105)] } : Desc)] }; s), 15, ({ id := 0, ring := 15, slot := 0, bytes := dsc [(0, 2, 0x0105)] } : Desc), by decide +kernel⟩,
   ⟨(let s : State := .reset; let s : State := { s with hif.desc := [({ id := 0, ring := 15, slot := 0, bytes := dsc [(0, 2, 0x0102)] } : Desc)] }; s), 15, ({ bodyErr := false } : HostIo), ({ id := 0, ring := 15, slot := 0, bytes := dsc [(0, 2, 0x0102)] } : Desc), 24, by decide +kernel⟩,
   ⟨(let s : State := .reset; let s : State := s.setChain 15 { (s.chain 15) with cur := some ({ desc := 0, op := 0, bytes := [], body := [] } : Seg) }; let s : State := s.setChain 15 { (s.chain 15) with state := 1 }; let s : State := s.setChain 15 { (s.chain 15) with queue := [] }; let s : State := s.setChain 15 { (s.chain 15) with heldNext := none }; let s : State := s.setChain 15 { (s.chain 15) with halt := none }; let s : State := s.setChain 15 { (s.chain 15) with later := none }; s), 15, ({ desc := 0, op := 0, bytes := [], body := [] } : Seg), by decide +kernel⟩,
   ⟨(let s : State := .reset; let s : State := s.setChain 15 { (s.chain 15) with cur := some ({ desc := 0, op := 0, bytes := [], body := [] } : Seg) }; let s : State := s.setChain 15 { (s.chain 15) with halt := some ({ cause := 0, discard := false, cancel := false } : Halt) }; let s : State := s.setChain 15 { (s.chain 15) with state := 3 }; let s : State := s.setChain 15 { (s.chain 15) with later := none }; let s : State := s.setChain 15 { (s.chain 15) with resumes := [] }; let s : State := s.wr F.HIF_EVT_MAP_enable (1) 23; s), 15, 0, 0, ({ desc := 0, op := 0, bytes := [], body := [] } : Seg), ({ cause := 0, discard := false, cancel := false } : Halt), by decide +kernel⟩⟩

theorem witness_MotionCommands :
    (∃ (s : State) (r : Fin 64) (d : Desc), (s.nextMotion r 0x0110 = some d))
    ∧ (∃ (s : State) (c : Nat) (cause : Nat) (d : Nat), ((s.chain c).state = 0) ∧ (s.takesEvent 23))
    ∧ (∃ (s : State) (c : Nat) (cause : Nat) (d : Nat), ((s.chain c).state = 1) ∧ ((s.chain c).halt = none))
    ∧ (∃ (s : State) (r : Fin 64) (d : Desc), (s.nextMotion r 0x0111 = some d))
    ∧ (∃ (s : State) (c : Nat) (h : Halt), ((s.chain c).state = 1) ∧ ((s.chain c).halt = none))
    ∧ (∃ (s : State) (r : Fin 64) (d : Desc), (s.nextMotion r 0x0112 = some d))
    ∧ (∃ (s : State) (c : Nat) (d : Nat), (s.injecting c = false) ∧ ((s.chain c).state = 3 ∨ (s.chain c).state = 5))
    ∧ (∃ (s : State) (r : Fin 64) (d : Desc), (s.nextMotion r 0x0113 = some d) ∧ ((s.chain r).state = 0 ∨ (s.chain r).state = 4))
    ∧ (∃ (s : State) (c : Nat), ((s.chain c).req = none))
    ∧ (∃ (s : State) (r : Fin 64) (d : Desc), (s.nextMotion r 0x0114 = some d))
    ∧ (∃ (s : State) (r : Fin 64) (d : Desc), (s.nextMotion r 0x0115 = some d) ∧ (s.hif.desc.find? (·.id == d.id) = some d) ∧ (d.quiet = false)) :=
  ⟨⟨(let s : State := .reset; let s : State := { s with hif.desc := [({ id := 0, ring := 15, slot := 0, bytes := dsc [(0, 2, 0x0110)] } : Desc)] }; s), 15, ({ id := 0, ring := 15, slot := 0, bytes := dsc [(0, 2, 0x0110)] } : Desc), by decide +kernel⟩,
   ⟨(let s : State := .reset; let s : State := s.setChain 0 { (s.chain 0) with state := 0 }; let s : State := s.wr F.HIF_EVT_MAP_enable (1) 23; s), 0, 0, 0, by decide +kernel⟩,
   ⟨(let s : State := .reset; let s : State := s.setChain 0 { (s.chain 0) with state := 1 }; let s : State := s.setChain 0 { (s.chain 0) with halt := none }; s), 0, 0, 0, by decide +kernel⟩,
   ⟨(let s : State := .reset; let s : State := { s with hif.desc := [({ id := 0, ring := 15, slot := 0, bytes := dsc [(0, 2, 0x0111)] } : Desc)] }; s), 15, ({ id := 0, ring := 15, slot := 0, bytes := dsc [(0, 2, 0x0111)] } : Desc), by decide +kernel⟩,
   ⟨(let s : State := .reset; let s : State := s.setChain 0 { (s.chain 0) with state := 1 }; let s : State := s.setChain 0 { (s.chain 0) with halt := none }; s), 0, ({ cause := 0 } : Halt), by decide +kernel⟩,
   ⟨(let s : State := .reset; let s : State := { s with hif.desc := [({ id := 0, ring := 15, slot := 0, bytes := dsc [(0, 2, 0x0112)] } : Desc)] }; s), 15, ({ id := 0, ring := 15, slot := 0, bytes := dsc [(0, 2, 0x0112)] } : Desc), by decide +kernel⟩,
   ⟨(let s : State := .reset; let s : State := s.setChain 0 { (s.chain 0) with state := 3 }; s), 0, 0, by decide +kernel⟩,
   ⟨(let s : State := .reset; let s : State := { s with hif.desc := [({ id := 0, ring := 15, slot := 0, bytes := dsc [(0, 2, 0x0113)] } : Desc)] }; let s : State := s.setChain 15 { (s.chain 15) with state := 0 }; s), 15, ({ id := 0, ring := 15, slot := 0, bytes := dsc [(0, 2, 0x0113)] } : Desc), by decide +kernel⟩,
   ⟨(let s : State := .reset; let s : State := s.setChain 0 { (s.chain 0) with req := none }; s), 0, by decide +kernel⟩,
   ⟨(let s : State := .reset; let s : State := { s with hif.desc := [({ id := 0, ring := 15, slot := 0, bytes := dsc [(0, 2, 0x0114)] } : Desc)] }; s), 15, ({ id := 0, ring := 15, slot := 0, bytes := dsc [(0, 2, 0x0114)] } : Desc), by decide +kernel⟩,
   ⟨(let s : State := .reset; let s : State := { s with hif.desc := [({ id := 0, ring := 15, slot := 0, bytes := dsc [(0, 2, 0x0115)] } : Desc)] }; let s : State := { s with hif := { s.hif with desc := [({ id := 0, ring := 15, slot := 0, bytes := dsc [(0, 2, 0x0115)] } : Desc)] } }; s), 15, ({ id := 0, ring := 15, slot := 0, bytes := dsc [(0, 2, 0x0115)] } : Desc), by decide +kernel⟩⟩

theorem witness_PlanningAndSettings :
    (∃ (s : State) (w : List PlanWork) (u : List (Fin 16)), (s.on F.GLB_STAT_cycle_run = false ∨ s.tim.cycle % s.plan.tickCycles ≠ 0))
    ∧ (∃ (s : State) (c : Fin 16), (s.on F.GLB_STAT_cycle_run = true) ∧ (s.tim.cycle % s.plan.tickCycles = 0) ∧ ((s.chain c).scales = []) ∧ ((s.chain c).holdDue = true) ∧ ((s.chain c).state = 1) ∧ ((∀ k, k < 16 → k ≠ c.val → (s.chain k).scales = [] ∧ (s.chain k).holdDue = false ∧ (s.chain k).state = 0 ∧ (s.chain k).queue = [])))
    ∧ (∃ (s : State) (c : Nat) (n : Nat), ((s.chain c).scales = [{ desc := n, accel := 1, decel := 2 }]) ∧ ((s.chain c).state = 0))
    ∧ (∃ (s : State) (c : Fin 32) (it : Item) (j : PlanJob) (k : Nat), ((s.core c).item = some it) ∧ (it.planner = true) ∧ (it.anvil = false) ∧ (lookup (fun _ => none) s.plan.job (it.arg % 2 ^ 16) = some j) ∧ (it.arg / 2 ^ 16 % 256 = 1) ∧ (s.usableResult (it.arg % 2 ^ 16) = true) ∧ (j.chains = [k]) ∧ ((s.chain k).state = 6))
    ∧ (∃ (s : State) (c : Fin 32) (it : Item) (j : PlanJob) (k : Nat), ((s.core c).item = some it) ∧ (it.planner = true) ∧ (it.anvil = false) ∧ (lookup (fun _ => none) s.plan.job (it.arg % 2 ^ 16) = some j) ∧ (3 < it.arg / 2 ^ 16 % 256) ∧ (j.chains = [k]) ∧ ((s.chain k).state = 1) ∧ (s.takesEvent 22))
    ∧ (∃ (s : State) (n : Nat) (c : Nat) (a : Nat) (head : List Byte) (rest : List (List Nat)), (s.anvil.signals = [n] :: rest) ∧ (c < 16) ∧ (((s.eng n).chainWin c).prep = some (a, head)) ∧ ((∀ k, k < 16 → k ≠ c → ((s.eng n).chainWin k).prep = none)))
    ∧ (∃ (s : State) (r : Fin 64) (d : Desc), (s.Starts r 0x0320 d) ∧ ((s.startDesc d).planCfgOk d.bytes = true))
    ∧ (∃ (s : State) (r : Fin 64) (d : Desc), (s.Starts r 0x0321 d) ∧ ((s.startDesc d).swarmCfgOk d.bytes = true))
    ∧ (∃ (s : State) (r : Fin 64) (d : Desc), (s.Starts r 0x0322 d) ∧ ((s.startDesc d).chainCfgOk d.bytes = true))
    ∧ (∃ (s : State) (r : Fin 64) (io : HostIo) (d : Desc), (s.Starts r 0x0323 d) ∧ (io.bodyErr = false) ∧ ((∀ z, z < 32 → byteAt io.body (16 * z) = 0 ∨ field io.body (16 * z + 4) 4 ≠ 0)) ∧ ((∀ z, z < 32 → zoneOk io.body z = true)))
    ∧ (∃ (s : State) (r : Fin 64) (d : Desc), (s.Starts r 0x0320 d) ∧ ((s.startDesc d).planCfgOk d.bytes = false))
    ∧ (∃ (s : State) (x : Setting) (l : List Setting), (s.plan.settings = x :: l) ∧ (x.op = 0x0320) ∧ ((∀ y ∈ l, y.desc ≠ x.desc)) ∧ ((∀ c, c < 16 → (s.chain c).state = 0))) :=
  ⟨⟨(let s : State := .reset; let s : State := s.wr F.GLB_STAT_cycle_run (0); s), [], [], by decide +kernel⟩,
   ⟨(let s : State := .reset; let s : State := s.wr F.GLB_STAT_cycle_run (1); let s : State := s.setChain 15 { (s.chain 15) with scales := [] }; let s : State := s.setChain 15 { (s.chain 15) with holdDue := true }; let s : State := s.setChain 15 { (s.chain 15) with state := 1 }; s), 15, by decide +kernel⟩,
   ⟨(let s : State := .reset; let s : State := s.setChain 0 { (s.chain 0) with scales := [{ desc := 0, accel := 1, decel := 2 }] }; let s : State := s.setChain 0 { (s.chain 0) with state := 0 }; s), 0, 0, by decide +kernel⟩,
   ⟨(let s : State := .reset; let s : State := s.setCore 31 { (s.core 31) with item := some ({ ctx := 0, anvil := false, prio := 0, planner := true, source := 0, seq := 0, arg := 65536, ready := 0 } : Item) }; let s : State := s.setChain 0 { (s.chain 0) with state := 6 }; let s : State := { s with plan.job := [(0, some { chains := [0], switch := 0 })] }; let s : State := { s with ddr := [(32, 64), (67, 1)] }; s), 31, ({ ctx := 0, anvil := false, prio := 0, planner := true, source := 0, seq := 0, arg := 65536, ready := 0 } : Item), ({ chains := [0], switch := 0 } : PlanJob), 0, by decide +kernel⟩,
   ⟨(let s : State := .reset; let s : State := s.setCore 31 { (s.core 31) with item := some ({ ctx := 0, anvil := false, prio := 0, planner := true, source := 0, seq := 0, arg := 262144, ready := 0 } : Item) }; let s : State := s.setChain 0 { (s.chain 0) with state := 1 }; let s : State := s.wr F.HIF_EVT_MAP_enable (1) 22; let s : State := { s with plan.job := [(0, some { chains := [0], switch := 0 })] }; s), 31, ({ ctx := 0, anvil := false, prio := 0, planner := true, source := 0, seq := 0, arg := 262144, ready := 0 } : Item), ({ chains := [0], switch := 0 } : PlanJob), 0, by decide +kernel⟩,
   ⟨(let s : State := .reset; let s : State := { s with anvil := { s.anvil with signals := [0] :: [] } }; let s : State := s.setEng 0 { (s.eng 0) with win := [(15, { prep := some (0, []) })] }; s), 0, 15, 0, [], [], by decide +kernel⟩,
   ⟨(let s : State := .reset; let s : State := { s with hif.desc := [({ id := 0, ring := 63, slot := 0, bytes := dsc [(0, 2, 0x0320), (16, 2, 8), (18, 2, 2), (20, 2, 64)] } : Desc)] }; s), 63, ({ id := 0, ring := 63, slot := 0, bytes := dsc [(0, 2, 0x0320), (16, 2, 8), (18, 2, 2), (20, 2, 64)] } : Desc), by decide +kernel⟩,
   ⟨(let s : State := .reset; let s : State := { s with hif.desc := [({ id := 0, ring := 63, slot := 0, bytes := dsc [(0, 2, 0x0321), (17, 1, 1), (24, 4, 50)] } : Desc)] }; s), 63, ({ id := 0, ring := 63, slot := 0, bytes := dsc [(0, 2, 0x0321), (17, 1, 1), (24, 4, 50)] } : Desc), by decide +kernel⟩,
   ⟨(let s : State := .reset; let s : State := { s with hif.desc := [({ id := 0, ring := 63, slot := 0, bytes := dsc [(0, 2, 0x0322), (17, 1, 255), (18, 2, 0x8000), (20, 2, 1), (24, 4, 50)] } : Desc)] }; s), 63, ({ id := 0, ring := 63, slot := 0, bytes := dsc [(0, 2, 0x0322), (17, 1, 255), (18, 2, 0x8000), (20, 2, 1), (24, 4, 50)] } : Desc), by decide +kernel⟩,
   ⟨(let s : State := .reset; let s : State := { s with hif.desc := [({ id := 0, ring := 63, slot := 0, bytes := dsc [(0, 2, 0x0323)] } : Desc)] }; s), 63, ({ bodyErr := false } : HostIo), ({ id := 0, ring := 63, slot := 0, bytes := dsc [(0, 2, 0x0323)] } : Desc), by decide +kernel⟩,
   ⟨(let s : State := .reset; let s : State := { s with hif.desc := [({ id := 0, ring := 63, slot := 0, bytes := dsc [(0, 2, 0x0320)] } : Desc)] }; s), 63, ({ id := 0, ring := 63, slot := 0, bytes := dsc [(0, 2, 0x0320)] } : Desc), by decide +kernel⟩,
   ⟨(let s : State := .reset; let s : State := { s with plan := { s.plan with settings := ({ desc := 0, op := 0x0320, bytes := [], body := [] } : Setting) :: [] } }; s), ({ desc := 0, op := 0x0320, bytes := [], body := [] } : Setting), [], by decide +kernel⟩⟩

theorem witness_ZoneCommands :
    (∃ (s : State) (c : Fin 16) (g : Seg) (l : List Seg) (z : Nat), ((s.chain c).queue = g :: l) ∧ ((bitsIn g.mask).filter (fun z => !(s.chain c).tokens.testBit z) = [z]) ∧ ((s.chain c).req = none) ∧ ((s.chain c).state = 1) ∧ ((∀ y ∈ bitsIn (s.chain c).pred, y < z)))
    ∧ (∃ (s : State), (s.plan.restarting = true))
    ∧ (∃ (s : State) (a : Asked) (z : Nat) (l : List Asked), (s.askedZones a = [z]) ∧ (s.keeper z = { holder := none, waiting := a :: l }) ∧ ((∀ b ∈ l, ¬ (b.who = a.who ∧ b.seq = a.seq))) ∧ (a.who ≠ s.me a.who.chain))
    ∧ (∃ (s : State) (a : Asked) (z : Nat) (p : Party), (z ∈ s.askedZones a) ∧ ((s.keeper z).holder = some p))
    ∧ (∃ (s : State) (c : Fin 16) (q : ZoneReq) (g : Seg) (l : List Seg), ((s.chain c).req = some q) ∧ ((s.chain c).queue = g :: l) ∧ (g.deadline ≠ 0) ∧ (s.takesEvent 21))
    ∧ (∃ (s : State) (c : Fin 16) (z : Fin 32) (a : Nat), ((s.chain c).grants = [(z.val, (a, false))]) ∧ ((s.chain c).state = 1) ∧ ((s.chain c).halt = none) ∧ (s.takesEvent 20))
    ∧ (∃ (s : State) (m : ZoneMsg), (s.keeps m.zone = true) ∧ (s.keeper m.zone = {}))
    ∧ (∃ (s : State) (m : ZoneMsg), (s.keeps m.zone = true) ∧ ((s.keeper m.zone).holder = some (whoOf m)))
    ∧ (∃ (s : State) (m : ZoneMsg), (s.keeps m.zone = true))
    ∧ (∃ (s : State) (m : ZoneMsg) (q : ZoneReq), (m.pos.toNat ≠ 0xFF) ∧ (whoOf m = s.me m.chain.toNat) ∧ (m.chain.toNat < 16) ∧ (s.plan.releasing = []) ∧ ((s.chain m.chain.toNat).req = some q) ∧ (q.zones = 2 ^ m.zone.val) ∧ (q.got = 0) ∧ ((s.chain m.chain.toNat).state = 1))
    ∧ (∃ (s : State) (m : ZoneMsg), (s.plan.restarting = true) ∧ (s.keeps m.zone = true)) :=
  ⟨⟨(let s : State := .reset; let s : State := s.setChain 15 { (s.chain 15) with queue := ({ desc := 0, op := 0, bytes := dsc [(32, 4, 0x80000000)], body := [] } : Seg) :: [] }; let s : State := s.setChain 15 { (s.chain 15) with req := none }; let s : State := s.setChain 15 { (s.chain 15) with state := 1 }; s), 15, ({ desc := 0, op := 0, bytes := dsc [(32, 4, 0x80000000)], body := [] } : Seg), [], 31, by decide +kernel⟩,
   ⟨(let s : State := .reset; let s : State := { s with plan := { s.plan with restarting := true } }; s), by decide +kernel⟩,
   ⟨(let s : State := .reset; let s : State := s.setKeeper 31 ({ holder := none, waiting := ({ who := { pos := 1, chain := 0, cell := 0 }, time := 0, seq := 0 } : Asked) :: [] }); let s : State := { s with plan.zone := [(31, { scope := 1 })] }; s), ({ who := { pos := 1, chain := 0, cell := 0 }, time := 0, seq := 0 } : Asked), 31, [], by decide +kernel⟩,
   ⟨(let s : State := .reset; let s : State := s.setKeeper 31 { (s.keeper 31) with holder := some ({ pos := 0, chain := 0, cell := 0 } : Party) }; let s : State := { s with plan.zone := [(31, { scope := 1 })] }; let s : State := s.setKeeper 31 { (s.keeper 31) with waiting := [{ who := { pos := 1, chain := 0, cell := 0 }, time := 0, seq := 0 }] }; s), ({ who := { pos := 1, chain := 0, cell := 0 }, time := 0, seq := 0 } : Asked), 31, ({ pos := 0, chain := 0, cell := 0 } : Party), by decide +kernel⟩,
   ⟨(let s : State := .reset; let s : State := s.setChain 15 { (s.chain 15) with req := some ({ zones := 0, time := 0 } : ZoneReq) }; let s : State := s.setChain 15 { (s.chain 15) with queue := ({ desc := 0, op := 0, bytes := dsc [(8, 8, 1)], body := [] } : Seg) :: [] }; let s : State := s.wr F.HIF_EVT_MAP_enable (1) 21; s), 15, ({ zones := 0, time := 0 } : ZoneReq), ({ desc := 0, op := 0, bytes := dsc [(8, 8, 1)], body := [] } : Seg), [], by decide +kernel⟩,
   ⟨(let s : State := .reset; let s : State := s.setChain 15 { (s.chain 15) with grants := [(31, (0, false))] }; let s : State := s.setChain 15 { (s.chain 15) with state := 1 }; let s : State := s.setChain 15 { (s.chain 15) with halt := none }; let s : State := s.wr F.HIF_EVT_MAP_enable (1) 20; s), 15, 31, 0, by decide +kernel⟩,
   ⟨(let s : State := .reset; let s : State := s.setKeeper (31) ({}); let s : State := { s with plan.zone := [(31, { scope := 1 })] }; s), ({ zone := 31, pos := 0, chain := 0, time := 0, cell := 0, seq := 0 } : ZoneMsg), by decide +kernel⟩,
   ⟨(let s : State := .reset; let s : State := s.setKeeper (31) { (s.keeper (31)) with holder := some (whoOf ({ zone := 31, pos := 0, chain := 0, time := 0, cell := 0, seq := 0 } : ZoneMsg)) }; let s : State := { s with plan.zone := [(31, { scope := 1 })] }; s), ({ zone := 31, pos := 0, chain := 0, time := 0, cell := 0, seq := 0 } : ZoneMsg), by decide +kernel⟩,
   ⟨(let s : State := .reset; let s : State := { s with plan.zone := [(31, { scope := 1 })] }; s), ({ zone := 31, pos := 0, chain := 0, time := 0, cell := 0, seq := 0 } : ZoneMsg), by decide +kernel⟩,
   ⟨(let s : State := .reset; let s : State := { s with plan := { s.plan with releasing := [] } }; let s : State := s.setChain ({ zone := 31, pos := 0, chain := 0, time := 0, cell := 0, seq := 0 } : ZoneMsg).chain.toNat { (s.chain ({ zone := 31, pos := 0, chain := 0, time := 0, cell := 0, seq := 0 } : ZoneMsg).chain.toNat) with req := some ({ zones := 2 ^ 31, time := 0, got := 0 } : ZoneReq) }; let s : State := s.setChain ({ zone := 31, pos := 0, chain := 0, time := 0, cell := 0, seq := 0 } : ZoneMsg).chain.toNat { (s.chain ({ zone := 31, pos := 0, chain := 0, time := 0, cell := 0, seq := 0 } : ZoneMsg).chain.toNat) with state := 1 }; s), ({ zone := 31, pos := 0, chain := 0, time := 0, cell := 0, seq := 0 } : ZoneMsg), ({ zones := 2 ^ 31, time := 0, got := 0 } : ZoneReq), by decide +kernel⟩,
   ⟨(let s : State := .reset; let s : State := { s with plan := { s.plan with restarting := true } }; let s : State := { s with plan.zone := [(31, { scope := 1 })] }; s), ({ zone := 31, pos := 0, chain := 0, time := 0, cell := 0, seq := 0 } : ZoneMsg), by decide +kernel⟩⟩

theorem witness_TemperEngine :
    (∃ (s : State) (u : State) (n : Fin 64) (fb : List Meas) (k : BitVec 24), (s.endProgram n = s) ∧ (s.on F.TMP_CTL_enable n = true) ∧ (s.on F.TMP_STAT_trapped n = false) ∧ (s.on F.TMP_STAT_running n = false) ∧ ((s.eng n).init = false) ∧ (s.feedbackDue n = false) ∧ (u = (((((s.wr F.TMP_STAT_running 1 n).setEng n { s.eng n with out := [], ran := k.toNat, late := false, kick := false }).tngLate n).runSlots n fb).tickTunes n)) ∧ (u.on F.TMP_STAT_trapped n = false))
    ∧ (∃ (s : State) (n : Fin 64) (fb : List Meas) (k : BitVec 24), (s.endProgram n = s) ∧ (s.on F.TMP_CTL_enable n = true) ∧ (s.on F.TMP_STAT_trapped n = false) ∧ (s.on F.TMP_STAT_running n = false) ∧ ((s.eng n).init = false) ∧ (s.feedbackDue n = false))
    ∧ (∃ (s : State) (n : Fin 64), (s.on F.TMP_CTL_enable n = false) ∧ (s.on F.TMP_STAT_trapped n = false))
    ∧ (∃ (s : State) (n : Fin 64), (s.on F.TMP_CTL_enable n = false) ∧ (s.on F.TMP_STAT_trapped n = true))
    ∧ (∃ (s : State) (n : Fin 64), (s.on F.TMP_CTL_enable n = true) ∧ (s.allSto n = true) ∧ (s.on F.TMP_STAT_running n = false))
    ∧ (∃ (s : State) (n : Fin 64), (s.on F.TMP_CTL_enable n = true) ∧ (s.allSto n = false))
    ∧ (∃ (s : State) (r : Fin 64) (io : HostIo) (d : Desc), (s.Starts r 0x0330 d) ∧ (io.bodyErr = false) ∧ (bitAt (d.op 34 1) 0 = false) ∧ (s.on F.TMP_STAT_stopped (d.op 32 1) = true) ∧ (Law.ok io.body = true) ∧ (usesOk (s.lawsOf (d.op 32 1)) (d.op 33 1) io.body = true) ∧ (lawsSize (putLaw (s.lawsOf (d.op 32 1)) (d.op 33 1) io.body) ≤ 32768) ∧ (d.op 32 1 < 64))
    ∧ (∃ (s : State) (r : Fin 64) (io : HostIo) (d : Desc), (s.Starts r 0x0330 d) ∧ (io.bodyErr = false) ∧ (bitAt (d.op 34 1) 0 = false) ∧ (s.on F.TMP_STAT_stopped (d.op 32 1) = false)) :=
  ⟨⟨(let s : State := .reset; let s : State := s.wr F.TMP_CTL_enable (1) 63; let s : State := s.wr F.TMP_STAT_trapped (0) 63; let s : State := s.wr F.TMP_STAT_running (0) 63; let s : State := s.setEng 63 { (s.eng 63) with init := false }; s), (((((((let s : State := .reset; let s : State := s.wr F.TMP_CTL_enable (1) 63; let s : State := s.wr F.TMP_STAT_trapped (0) 63; let s : State := s.wr F.TMP_STAT_running (0) 63; let s : State := s.setEng 63 { (s.eng 63) with init := false }; s).wr F.TMP_STAT_running 1 63).setEng 63 { (let s : State := .reset; let s : State := s.wr F.TMP_CTL_enable (1) 63; let s : State := s.wr F.TMP_STAT_trapped (0) 63; let s : State := s.wr F.TMP_STAT_running (0) 63; let s : State := s.setEng 63 { (s.eng 63) with init := false }; s).eng 63 with out := [], ran := 0, late := false, kick := false }).tngLate 63).runSlots 63 []).tickTunes 63)), 63, [], 0, by decide +kernel, by decide +kernel, by decide +kernel, by decide +kernel, by decide +kernel, by decide +kernel, rfl, by decide +kernel⟩,
   ⟨(let s : State := .reset; let s : State := s.wr F.TMP_CTL_enable (1) 63; let s : State := s.wr F.TMP_STAT_trapped (0) 63; let s : State := s.wr F.TMP_STAT_running (0) 63; let s : State := s.setEng 63 { (s.eng 63) with init := false }; s), 63, [], 0, by decide +kernel⟩,
   ⟨(let s : State := .reset; let s : State := s.wr F.TMP_CTL_enable (0) 63; let s : State := s.wr F.TMP_STAT_trapped (0) 63; s), 63, by decide +kernel⟩,
   ⟨(let s : State := .reset; let s : State := s.wr F.TMP_CTL_enable (0) 63; let s : State := s.wr F.TMP_STAT_trapped (1) 63; s), 63, by decide +kernel⟩,
   ⟨(let s : State := .reset; let s : State := s.wr F.TMP_CTL_enable (1) 63; let s : State := s.wr F.TMP_STAT_running (0) 63; s), 63, by decide +kernel⟩,
   ⟨(let s : State := .reset; let s : State := s.wr F.TMP_CTL_enable (1) 63; let s : State := s.wr F.TMP_AX_CFG_valid 1 63 15; let s : State := s.wr F.QNC_STAT_sto_all 0; let s : State := s.wr F.QNC_CHAIN_STAT_stop 0 0; s), 63, by decide +kernel⟩,
   ⟨(let s : State := .reset; let s : State := { s with hif.desc := [({ id := 0, ring := 63, slot := 0, bytes := dsc [(0, 2, 0x0330), (32, 1, 63)] } : Desc)] }; let s : State := s.wr F.TMP_STAT_stopped (1) (({ id := 0, ring := 63, slot := 0, bytes := dsc [(0, 2, 0x0330), (32, 1, 63)] } : Desc).op 32 1); s), 63, ({ body := lawBody, bodyErr := false } : HostIo), ({ id := 0, ring := 63, slot := 0, bytes := dsc [(0, 2, 0x0330), (32, 1, 63)] } : Desc), by decide +kernel⟩,
   ⟨(let s : State := .reset; let s : State := { s with hif.desc := [({ id := 0, ring := 63, slot := 0, bytes := dsc [(0, 2, 0x0330)] } : Desc)] }; let s : State := s.wr F.TMP_STAT_stopped (0) (({ id := 0, ring := 63, slot := 0, bytes := dsc [(0, 2, 0x0330)] } : Desc).op 32 1); s), 63, ({ bodyErr := false } : HostIo), ({ id := 0, ring := 63, slot := 0, bytes := dsc [(0, 2, 0x0330)] } : Desc), by decide +kernel⟩⟩

theorem witness_TuningCommands :
    (∃ (s : State) (r : Fin 64) (io : HostIo) (d : Desc) (n : Nat) (j : Nat), (s.Starts r 0x0601 d) ∧ (io.bodyErr = false) ∧ (s.axisHome (d.op 32 1) = some (n, j)) ∧ ((s.on F.TMP_AX_CFG_in_chain n j = true → (s.chain (s.rd F.TMP_AX_CFG_chain n j)).state = 0 ∨ (s.chain (s.rd F.TMP_AX_CFG_chain n j)).state = 4)) ∧ ((d.op 34 1 = 2 → 2 * d.op 48 4 * s.tim.cycleNs ≤ 10 ^ 12)) ∧ ((d.op 34 1 = 4 → io.body.length % 8 = 0 ∧ 0 < io.body.length ∧ io.body.length ≤ 256)))
    ∧ (∃ (s : State) (r : Fin 64) (d : Desc) (n : Nat), (s.Starts r 0x0602 d) ∧ (0 < d.op 33 1) ∧ ((∀ i, i < d.op 33 1 → (s.axisHome (d.op (40 + 2 * i) 1)).map (·.1) = some n ∧ quantityOk (d.op (41 + 2 * i) 1) = true)) ∧ (d.op 56 8 % 64 = 0))
    ∧ (∃ (s : State) (r : Fin 64) (d : Desc), (s.Starts r 0x0603 d) ∧ ((s.capset (d.op 32 1)).channels ≠ []))
    ∧ (∃ (s : State) (r : Fin 64) (u : Tune) (k : Nat), (s.temper.tune = [u]) ∧ (u.started = false) ∧ ((s.hif.desc.any fun d => d.id == u.desc && d.ring == r.val) = true) ∧ (0 ≤ cellDiff s.tim.lastInstant u.start) ∧ (u.set = some k))
    ∧ (∃ (s : State) (r : Fin 64) (u : Tune) (d : Desc), (s.temper.tune = [u]) ∧ (u.started = true) ∧ (u.inject = true) ∧ (u.ending = none) ∧ (u.set = none) ∧ (s.hif.desc = [d]) ∧ (d.id = u.desc) ∧ (d.ring = r.val) ∧ (d.quiet = false) ∧ (s.mode = 2) ∧ (field u.bytes 40 4 ≤ u.elapsed))
    ∧ (∃ (s : State) (r : Fin 64) (u : Tune) (d : Desc), (s.temper.tune = [u]) ∧ (u.started = true) ∧ (u.inject = true) ∧ (s.hif.desc = [d]) ∧ (d.id = u.desc) ∧ (d.ring = r.val) ∧ (s.mode ≠ 2))
    ∧ (∃ (s : State) (i : Fin 16), ((s.capset i).staging ≠ []) ∧ (s.on F.GLB_STAT_ddr_ok = true) ∧ (s.mode ≠ 5))
    ∧ (∃ (s : State) (r : Fin 64) (d : Desc) (n : Nat), (s.Starts r 0x0604 d) ∧ ((d.op 38 1 = 0xFF ∧ d.op 36 1 ≤ 10 ∧ n = (s.capset (d.op 32 1)).engine ∨ d.op 38 1 = n ∧ n ≠ 0xFF ∧ s.slotsOf n = [])) ∧ (d.op 33 1 < (s.capset (d.op 32 1)).channels.length) ∧ (d.op 34 1 < (s.capset (d.op 32 1)).channels.length) ∧ (32 + 16 * (2 ^ d.op 36 1 / 2 - 1) ≤ d.op 56 4) ∧ (d.op 40 4 + 2 ^ d.op 36 1 ≤ (s.capset (d.op 32 1)).samples) ∧ (s.on F.TMP_PROG_bg_active n = false))
    ∧ (∃ (s : State) (r : Fin 64) (f : Fra), (s.fraOf r = some f) ∧ (f.started = false) ∧ ((∀ i, i < 16 → (s.capset i).running = false ∨ (s.capset i).engine ≠ f.engine)))
    ∧ (∃ (s : State) (r : Fin 64) (io : HostIo) (f : Fra), (s.fraOf r = some f) ∧ (f.started = true))
    ∧ (∃ (s : State) (f : Fra) (io : HostIo) (d : Desc) (avg : Nat) (st : Nat), (s.hif.desc.find? (·.id == f.desc) = some d) ∧ (d.quiet = false) ∧ (io.resultErr = false))
    ∧ (∃ (s : State) (r : Fin 64) (io : HostIo) (f : Fra), (s.fraOf r = some f) ∧ (field f.bytes 8 8 ≠ 0)) :=
  ⟨⟨(let s : State := .reset; let s : State := { s with hif.desc := [({ id := 0, ring := 63, slot := 0, bytes := dsc [(0, 2, 0x0601), (32, 1, 200)] } : Desc)] }; let s : State := s.wr F.TMP_AX_CFG_valid 1 63 15; let s : State := s.wr F.TMP_AX_CFG_axis 200 63 15; s), 63, ({ bodyErr := false } : HostIo), ({ id := 0, ring := 63, slot := 0, bytes := dsc [(0, 2, 0x0601), (32, 1, 200)] } : Desc), 63, 15, by decide +kernel⟩,
   ⟨(let s : State := .reset; let s : State := { s with hif.desc := [({ id := 0, ring := 63, slot := 0, bytes := dsc [(0, 2, 0x0602), (33, 1, 1), (40, 1, 200), (41, 1, 1)] } : Desc)] }; let s : State := s.wr F.TMP_AX_CFG_valid 1 63 15; let s : State := s.wr F.TMP_AX_CFG_axis 200 63 15; s), 63, ({ id := 0, ring := 63, slot := 0, bytes := dsc [(0, 2, 0x0602), (33, 1, 1), (40, 1, 200), (41, 1, 1)] } : Desc), 63, by decide +kernel⟩,
   ⟨(let s : State := .reset; let s : State := { s with hif.desc := [({ id := 0, ring := 63, slot := 0, bytes := dsc [(0, 2, 0x0603), (32, 1, 15)] } : Desc)] }; let s : State := s.setCapset 15 { (s.capset 15) with channels := [(0, 1)], samples := 1024 }; s), 63, ({ id := 0, ring := 63, slot := 0, bytes := dsc [(0, 2, 0x0603), (32, 1, 15)] } : Desc), by decide +kernel⟩,
   ⟨(let s : State := .reset; let s : State := { s with temper := { s.temper with tune := [({ desc := 0, inject := false, bytes := [], body := [], engine := 0, slot := 0, set := some 0, start := 0, started := false } : Tune)] } }; let s : State := { s with hif.desc := [{ id := 0, ring := 63, slot := 0, bytes := [] }] }; s), 63, ({ desc := 0, inject := false, bytes := [], body := [], engine := 0, slot := 0, set := some 0, start := 0, started := false } : Tune), 0, by decide +kernel⟩,
   ⟨(let s : State := .reset; let s : State := { s with temper := { s.temper with tune := [({ desc := 0, inject := true, bytes := [], body := [], engine := 0, slot := 0, set := none, start := 0, started := true, ending := none } : Tune)] } }; let s : State := { s with hif := { s.hif with desc := [({ id := 0, ring := 63, slot := 0, bytes := dsc [] } : Desc)] } }; let s : State := s.wr F.GLB_STAT_mode (2); s), 63, ({ desc := 0, inject := true, bytes := [], body := [], engine := 0, slot := 0, set := none, start := 0, started := true, ending := none } : Tune), ({ id := 0, ring := 63, slot := 0, bytes := dsc [] } : Desc), by decide +kernel⟩,
   ⟨(let s : State := .reset; let s : State := { s with temper := { s.temper with tune := [({ desc := 0, inject := true, bytes := [], body := [], engine := 0, slot := 0, set := none, start := 0, started := true } : Tune)] } }; let s : State := { s with hif := { s.hif with desc := [({ id := 0, ring := 63, slot := 0, bytes := dsc [] } : Desc)] } }; let s : State := s.wr F.GLB_STAT_mode (0); s), 63, ({ desc := 0, inject := true, bytes := [], body := [], engine := 0, slot := 0, set := none, start := 0, started := true } : Tune), ({ id := 0, ring := 63, slot := 0, bytes := dsc [] } : Desc), by decide +kernel⟩,
   ⟨(let s : State := .reset; let s : State := s.wr F.GLB_STAT_ddr_ok (1); let s : State := s.wr F.GLB_STAT_mode (0); let s : State := s.setCapset 15 { (s.capset 15) with staging := [[1]] }; s), 15, by decide +kernel⟩,
   ⟨(let s : State := .reset; let s : State := { s with hif.desc := [({ id := 0, ring := 63, slot := 0, bytes := dsc [(0, 2, 0x0604), (32, 1, 15), (33, 1, 0), (34, 1, 0), (36, 1, 10), (38, 1, 0xFF), (56, 4, 8208)] } : Desc)] }; let s : State := s.wr F.TMP_PROG_bg_active (0) 0; let s : State := s.setCapset 15 { (s.capset 15) with channels := [(0, 1)], samples := 1024 }; s), 63, ({ id := 0, ring := 63, slot := 0, bytes := dsc [(0, 2, 0x0604), (32, 1, 15), (33, 1, 0), (34, 1, 0), (36, 1, 10), (38, 1, 0xFF), (56, 4, 8208)] } : Desc), 0, by decide +kernel⟩,
   ⟨(let s : State := .reset; let s : State := { s with hif.desc := [{ id := 0, ring := 63, slot := 0, bytes := [] }] }; let s : State := { s with temper.fra := [{ desc := 0, bytes := [], engine := 0, started := false }] }; s), 63, ({ desc := 0, bytes := [], engine := 0, started := false } : Fra), by decide +kernel⟩,
   ⟨(let s : State := .reset; let s : State := { s with hif.desc := [{ id := 0, ring := 63, slot := 0, bytes := [] }] }; let s : State := { s with temper.fra := [{ desc := 0, bytes := [], engine := 0, started := true }] }; s), 63, ({} : HostIo), ({ desc := 0, bytes := [], engine := 0, started := true } : Fra), by decide +kernel⟩,
   ⟨(let s : State := .reset; let s : State := { s with hif := { s.hif with desc := [({ id := 0, ring := 0, slot := 0, bytes := dsc [] } : Desc)] } }; s), ({ desc := 0, bytes := [], engine := 0 } : Fra), ({ resultErr := false } : HostIo), ({ id := 0, ring := 0, slot := 0, bytes := dsc [] } : Desc), 0, 0, by decide +kernel⟩,
   ⟨(let s : State := .reset; let s : State := { s with hif.desc := [{ id := 0, ring := 63, slot := 0, bytes := [] }] }; let s : State := { s with temper.fra := [{ desc := 0, bytes := dsc [(8, 8, 1)], engine := 0, started := false }] }; s), 63, ({} : HostIo), ({ desc := 0, bytes := dsc [(8, 8, 1)], engine := 0 } : Fra), by decide +kernel⟩⟩

end Sys2Proof.Machine
end

