-- ==== Sys2Proof/Tests/Witness2.lean ====
section
/-!
SUPPORT. Tests/Witness2.lean: for the obligations from OwnerPrograms to SwageOperations, a state and operands that meet the
hypotheses of each clause together.
-/

set_option Elab.async false
set_option linter.unusedVariables false

namespace Sys2Proof.Machine

theorem witness_OwnerPrograms :
    (∃ (s : State) (r : Fin 64) (io : HostIo) (d : Desc), (s.Starts r 0x0331 d) ∧ (io.bodyErr = false) ∧ (s.on F.TMP_STAT_stopped (d.op 32 1) = true) ∧ (progOk io.body = true) ∧ (s.otp.owner = true) ∧ (d.op 32 1 < 64))
    ∧ (∃ (s : State) (r : Fin 64) (io : HostIo) (d : Desc), (s.Starts r 0x0331 d) ∧ (io.bodyErr = false) ∧ (s.on F.TMP_STAT_stopped (d.op 32 1) = true) ∧ (progOk io.body = true) ∧ (s.otp.owner = false))
    ∧ (∃ (s : State) (r : Fin 64) (d : Desc), (s.Starts r 0x0332 d) ∧ (s.on F.TMP_STAT_stopped (d.op 32 1) = true) ∧ (d.op 32 1 < 64))
    ∧ (∃ (s : State) (n : Fin 64), (s.on F.TMP_PROG_bg_active n = false) ∧ ((s.temper.fra.any fun f => f.engine == n.val && f.started) = false) ∧ (s.on F.TMP_PROG_loaded n = true) ∧ ((s.eng n).bgEntry ≠ 0xFFFF))
    ∧ (∃ (s : State) (n : Fin 64), (s.on F.TMP_PROG_loaded n = false))
    ∧ (∃ (s : State) (n : Fin 64), ((s.eng n).dp.run = 2) ∧ (s.on F.TMP_STAT_trapped n = false) ∧ ((s.px n).next.dp.atom = 0) ∧ ((s.px n).next.dp.goal = none) ∧ ((s.px n).next.dp.entering = none) ∧ ((s.px n).next.dp.run = 2) ∧ ((s.px n).next.trap = false)) :=
  ⟨⟨(let s : State := .reset; let s : State := { s with hif.desc := [({ id := 0, ring := 63, slot := 0, bytes := dsc [(0, 2, 0x0331), (32, 1, 63)] } : Desc)] }; let s : State := s.wr F.TMP_STAT_stopped (1) (({ id := 0, ring := 63, slot := 0, bytes := dsc [(0, 2, 0x0331), (32, 1, 63)] } : Desc).op 32 1); let s : State := { s with otp := { s.otp with owner := true } }; s), 63, ({ body := bytesOf 136 [(0, 4, 0x54504F31), (4, 2, 1), (12, 2, 1), (14, 2, 0xFFFF)], bodyErr := false } : HostIo), ({ id := 0, ring := 63, slot := 0, bytes := dsc [(0, 2, 0x0331), (32, 1, 63)] } : Desc), by decide +kernel⟩,
   ⟨(let s : State := .reset; let s : State := { s with hif.desc := [({ id := 0, ring := 63, slot := 0, bytes := dsc [(0, 2, 0x0331)] } : Desc)] }; let s : State := s.wr F.TMP_STAT_stopped (1) (({ id := 0, ring := 63, slot := 0, bytes := dsc [(0, 2, 0x0331)] } : Desc).op 32 1); let s : State := { s with otp := { s.otp with owner := false } }; s), 63, ({ body := bytesOf 136 [(0, 4, 0x54504F31), (4, 2, 1), (12, 2, 1), (14, 2, 0xFFFF)], bodyErr := false } : HostIo), ({ id := 0, ring := 63, slot := 0, bytes := dsc [(0, 2, 0x0331)] } : Desc), by decide +kernel⟩,
   ⟨(let s : State := .reset; let s : State := { s with hif.desc := [({ id := 0, ring := 63, slot := 0, bytes := dsc [(0, 2, 0x0332), (32, 1, 63)] } : Desc)] }; let s : State := s.wr F.TMP_STAT_stopped (1) (({ id := 0, ring := 63, slot := 0, bytes := dsc [(0, 2, 0x0332), (32, 1, 63)] } : Desc).op 32 1); s), 63, ({ id := 0, ring := 63, slot := 0, bytes := dsc [(0, 2, 0x0332), (32, 1, 63)] } : Desc), by decide +kernel⟩,
   ⟨(let s : State := .reset; let s : State := s.wr F.TMP_PROG_bg_active (0) 63; let s : State := s.wr F.TMP_PROG_loaded (1) 63; let s : State := s.setEng 63 { (s.eng 63) with bgEntry := 0 }; s), 63, by decide +kernel⟩,
   ⟨(let s : State := .reset; let s : State := s.wr F.TMP_PROG_loaded (0) 63; s), 63, by decide +kernel⟩,
   ⟨(let s : State := .reset; let s : State := s.setEng 63 { (s.eng 63) with dp := { (s.eng 63).dp with run := 2 } }; let s : State := s.wr F.TMP_STAT_trapped (0) 63; s), 63, by decide +kernel⟩⟩

theorem witness_AddressSlotOperations_a :
    (∃ (s : State) (n : Fin 64) (gap : BitVec 4) (ax : BitVec 3) (mode : BitVec 2) (dd : BitVec 6) (ext : BitVec 10) (p : Px), (s.on F.TMP_STAT_trapped n = false) ∧ (p = Px.advance gap.toNat (s.px n)) ∧ (p.trap = false) ∧ ((mode ≠ 1 → ext = 0)) ∧ (p.addr ax.toNat % 4 = 0) ∧ (p.addr ax.toNat < 0x10000))
    ∧ (∃ (s : State) (n : Fin 64) (gap : BitVec 4) (ax : BitVec 3) (mode : BitVec 2) (dd : BitVec 6) (ext : BitVec 10) (p : Px), (s.on F.TMP_STAT_trapped n = false) ∧ (p = Px.advance gap.toNat (s.px n)) ∧ (p.trap = false) ∧ ((mode ≠ 1 → ext = 0)) ∧ (p.addr ax.toNat % 4 = 0) ∧ (0x10000 ≤ p.addr ax.toNat) ∧ (p.addr ax.toNat < 0x18000))
    ∧ (∃ (s : State) (n : Fin 64) (gap : BitVec 4) (ax : BitVec 3) (mode : BitVec 2) (dd : BitVec 6) (ext : BitVec 10) (p : Px), (s.on F.TMP_STAT_trapped n = false) ∧ (p = Px.advance gap.toNat (s.px n)) ∧ (p.trap = false) ∧ ((mode ≠ 1 → ext = 0)) ∧ (p.addr ax.toNat < 0x10000))
    ∧ (∃ (s : State) (n : Fin 64) (gap : BitVec 4) (ax : BitVec 3) (mode : BitVec 2) (dd : BitVec 6) (ext : BitVec 10) (p : Px), (s.on F.TMP_STAT_trapped n = false) ∧ (p = Px.advance gap.toNat (s.px n)) ∧ (p.trap = false) ∧ ((mode ≠ 1 → ext = 0)) ∧ (p.addr ax.toNat % 8 = 0) ∧ (p.addr ax.toNat < 0x10000) ∧ (p.pairOk dd.toNat = true))
    ∧ (∃ (s : State) (n : Fin 64) (gap : BitVec 4) (ax : BitVec 3) (mode : BitVec 2) (dd : BitVec 6) (ext : BitVec 10) (p : Px), (s.on F.TMP_STAT_trapped n = false) ∧ (p = Px.advance gap.toNat (s.px n)) ∧ (p.trap = false) ∧ ((mode ≠ 1 → ext = 0)) ∧ (p.storeBad (p.addr ax.toNat) 4 = false))
    ∧ (∃ (s : State) (n : Fin 64) (gap : BitVec 4) (ax : BitVec 3) (mode : BitVec 2) (dd : BitVec 6) (ext : BitVec 10) (p : Px), (s.on F.TMP_STAT_trapped n = false) ∧ (p = Px.advance gap.toNat (s.px n)) ∧ (p.trap = false) ∧ ((mode ≠ 1 → ext = 0)) ∧ (p.storeBad (p.addr ax.toNat) 8 = false) ∧ (p.pairOk dd.toNat = true))
    ∧ (∃ (s : State) (n : Fin 64) (gap : BitVec 4) (ax : BitVec 3) (mode : BitVec 2) (dd : BitVec 6) (ext : BitVec 10) (p : Px), (s.on F.TMP_STAT_trapped n = false) ∧ (p = Px.advance gap.toNat (s.px n)) ∧ (p.trap = false) ∧ ((mode ≠ 1 → ext = 0)) ∧ (p.addr ax.toNat % 4 ≠ 0 ∨ 0x18000 ≤ p.addr ax.toNat))
    ∧ (∃ (s : State) (n : Fin 64) (gap : BitVec 4) (ax : BitVec 3) (mode : BitVec 2) (dd : BitVec 6) (ext : BitVec 10) (p : Px), (s.on F.TMP_STAT_trapped n = false) ∧ (p = Px.advance gap.toNat (s.px n)) ∧ (p.trap = false) ∧ ((mode ≠ 1 → ext = 0)) ∧ (p.storeBad (p.addr ax.toNat) 4 = true))
    ∧ (∃ (s : State) (n : Fin 64) (gap : BitVec 4) (ax : BitVec 3) (mode : BitVec 2) (dd : BitVec 6) (ext : BitVec 10) (p : Px), (s.on F.TMP_STAT_trapped n = false) ∧ (p = Px.advance gap.toNat (s.px n)) ∧ (p.trap = false) ∧ ((mode ≠ 1 → ext = 0)) ∧ (mode = 0) ∧ (dd = 0))
    ∧ (∃ (s : State) (n : Fin 64) (gap : BitVec 4) (ax : BitVec 3) (mode : BitVec 2) (dd : BitVec 6) (ext : BitVec 10) (p : Px), (s.on F.TMP_STAT_trapped n = false) ∧ (p = Px.advance gap.toNat (s.px n)) ∧ (p.trap = false) ∧ ((mode ≠ 1 → ext = 0)) ∧ (mode = 0) ∧ (ext = 0))
    ∧ (∃ (s : State) (n : Fin 64) (gap : BitVec 4) (ax : BitVec 3) (mode : BitVec 2) (dd : BitVec 6) (ext : BitVec 10) (p : Px), (s.on F.TMP_STAT_trapped n = false) ∧ (p = Px.advance gap.toNat (s.px n)) ∧ (p.trap = false) ∧ (p.addr ax.toNat % 8 = 0) ∧ (p.addr (bitsOf ext.toNat 7 3) % 8 = 0) ∧ (p.addr ax.toNat < 0x8000) ∧ (0x8000 ≤ p.addr (bitsOf ext.toNat 7 3)) ∧ (p.addr (bitsOf ext.toNat 7 3) < 0x10000) ∧ (ext.toNat % 4 = 0) ∧ (p.pairOk dd.toNat = true) ∧ (p.pairOk (2 * bitsOf ext.toNat 2 5) = true))
    ∧ (∃ (s : State) (n : Fin 64) (gap : BitVec 4) (ax : BitVec 3) (mode : BitVec 2) (dd : BitVec 6) (ext : BitVec 10) (p : Px) (v : Word) (o : Bool), (s.on F.TMP_STAT_trapped n = false) ∧ (p = Px.advance gap.toNat (s.px n)) ∧ (p.trap = false) ∧ (p.storeBad (p.addr ax.toNat) 4 = false) ∧ (dd = 0) ∧ (bitsOf ext.toNat 2 2 ≠ 3) ∧ (p.narrowOf (bitsOf ext.toNat 1 1) (bitsOf ext.toNat 4 6) (bitsOf ext.toNat 2 2) (bitAt ext.toNat 0) = (v, o))) :=
  ⟨⟨(let s : State := .reset; let s : State := s.wr F.TMP_STAT_trapped (0) 63; s), 63, 0, 0, 0, 0, 0, (Px.advance 0 ((let s : State := .reset; let s : State := s.wr F.TMP_STAT_trapped (0) 63; s).px 63)), by decide +kernel⟩,
   ⟨(let s : State := .reset; let s : State := s.wr F.TMP_STAT_trapped (0) 63; let s : State := s.setEng 63 { (s.eng 63) with dp.a := [(7, 0x17FFC)] }; s), 63, 0, 7, 0, 0, 0, (Px.advance 0 ((let s : State := .reset; let s : State := s.wr F.TMP_STAT_trapped (0) 63; let s : State := s.setEng 63 { (s.eng 63) with dp.a := [(7, 0x17FFC)] }; s).px 63)), by decide +kernel⟩,
   ⟨(let s : State := .reset; let s : State := s.wr F.TMP_STAT_trapped (0) 63; s), 63, 0, 0, 0, 0, 0, (Px.advance 0 ((let s : State := .reset; let s : State := s.wr F.TMP_STAT_trapped (0) 63; s).px 63)), by decide +kernel⟩,
   ⟨(let s : State := .reset; let s : State := s.wr F.TMP_STAT_trapped (0) 63; s), 63, 0, 0, 0, 0, 0, (Px.advance 0 ((let s : State := .reset; let s : State := s.wr F.TMP_STAT_trapped (0) 63; s).px 63)), by decide +kernel⟩,
   ⟨(let s : State := .reset; let s : State := s.wr F.TMP_STAT_trapped (0) 63; s), 63, 0, 0, 0, 0, 0, (Px.advance 0 ((let s : State := .reset; let s : State := s.wr F.TMP_STAT_trapped (0) 63; s).px 63)), by decide +kernel⟩,
   ⟨(let s : State := .reset; let s : State := s.wr F.TMP_STAT_trapped (0) 63; s), 63, 0, 0, 0, 0, 0, (Px.advance 0 ((let s : State := .reset; let s : State := s.wr F.TMP_STAT_trapped (0) 63; s).px 63)), by decide +kernel⟩,
   ⟨(let s : State := .reset; let s : State := s.wr F.TMP_STAT_trapped (0) 63; let s : State := s.setEng 63 { (s.eng 63) with dp.a := [(7, 0x17FFE)] }; s), 63, 0, 7, 0, 0, 0, (Px.advance 0 ((let s : State := .reset; let s : State := s.wr F.TMP_STAT_trapped (0) 63; let s : State := s.setEng 63 { (s.eng 63) with dp.a := [(7, 0x17FFE)] }; s).px 63)), by decide +kernel⟩,
   ⟨(let s : State := .reset; let s : State := s.wr F.TMP_STAT_trapped (0) 63; let s : State := s.setEng 63 { (s.eng 63) with dp.a := [(7, 0x10000)] }; s), 63, 0, 7, 0, 0, 0, (Px.advance 0 ((let s : State := .reset; let s : State := s.wr F.TMP_STAT_trapped (0) 63; let s : State := s.setEng 63 { (s.eng 63) with dp.a := [(7, 0x10000)] }; s).px 63)), by decide +kernel⟩,
   ⟨(let s : State := .reset; let s : State := s.wr F.TMP_STAT_trapped (0) 63; s), 63, 0, 0, 0, 0, 0, (Px.advance 0 ((let s : State := .reset; let s : State := s.wr F.TMP_STAT_trapped (0) 63; s).px 63)), by decide +kernel⟩,
   ⟨(let s : State := .reset; let s : State := s.wr F.TMP_STAT_trapped (0) 63; s), 63, 0, 0, 0, 0, 0, (Px.advance 0 ((let s : State := .reset; let s : State := s.wr F.TMP_STAT_trapped (0) 63; s).px 63)), by decide +kernel⟩,
   ⟨(let s : State := .reset; let s : State := s.wr F.TMP_STAT_trapped (0) 63; let s : State := s.setEng 63 { (s.eng 63) with dp.a := [(7, 0x8000)] }; s), 63, 0, 0, 0, 0, (7 * 128), (Px.advance 0 ((let s : State := .reset; let s : State := s.wr F.TMP_STAT_trapped (0) 63; let s : State := s.setEng 63 { (s.eng 63) with dp.a := [(7, 0x8000)] }; s).px 63)), by decide +kernel⟩,
   ⟨(let s : State := .reset; let s : State := s.wr F.TMP_STAT_trapped (0) 63; s), 63, 0, 0, 0, 0, 0, (Px.advance 0 ((let s : State := .reset; let s : State := s.wr F.TMP_STAT_trapped (0) 63; s).px 63)), 0, false, by decide +kernel⟩⟩

theorem witness_AddressSlotOperations_b :
    (∃ (s : State) (n : Fin 64) (gap : BitVec 4) (ax : BitVec 3) (mode : BitVec 2) (dd : BitVec 6) (ext : BitVec 10) (p : Px) (v : Word) (w : Word) (o : Bool) (q : Bool), (s.on F.TMP_STAT_trapped n = false) ∧ (p = Px.advance gap.toNat (s.px n)) ∧ (p.trap = false) ∧ (p.storeBad (p.addr ax.toNat) 8 = false) ∧ (dd = 0) ∧ (bitsOf ext.toNat 2 2 ≠ 3) ∧ (bitAt ext.toNat 1 = false) ∧ (p.narrowOf 0 (bitsOf ext.toNat 4 6) (bitsOf ext.toNat 2 2) (bitAt ext.toNat 0) = (v, o)) ∧ (p.narrowOf 1 (bitsOf ext.toNat 4 6) (bitsOf ext.toNat 2 2) (bitAt ext.toNat 0) = (w, q)))
    ∧ (∃ (s : State) (n : Fin 64) (gap : BitVec 4) (ax : BitVec 3) (mode : BitVec 2) (dd : BitVec 6) (ext : BitVec 10) (p : Px), (s.on F.TMP_STAT_trapped n = false) ∧ (p = Px.advance gap.toNat (s.px n)) ∧ (p.trap = false) ∧ (ax = 0) ∧ (mode = 0) ∧ (ext.toNat < 16))
    ∧ (∃ (s : State) (n : Fin 64) (gap : BitVec 4) (ax : BitVec 3) (mode : BitVec 2) (dd : BitVec 6) (ext : BitVec 10) (p : Px), (s.on F.TMP_STAT_trapped n = false) ∧ (p = Px.advance gap.toNat (s.px n)) ∧ (p.trap = false) ∧ (ax = 0) ∧ (mode = 0) ∧ (ext.toNat < 9))
    ∧ (∃ (s : State) (n : Fin 64) (gap : BitVec 4) (ax : BitVec 3) (mode : BitVec 2) (dd : BitVec 6) (ext : BitVec 10) (p : Px), (s.on F.TMP_STAT_trapped n = false) ∧ (p = Px.advance gap.toNat (s.px n)) ∧ (p.trap = false) ∧ (ax = 0) ∧ (mode = 0) ∧ (10 ≤ ext.toNat) ∧ (ext.toNat < 16) ∧ (recent p.dp.clock p.dp.accAt0 = false) ∧ (recent p.dp.clock p.dp.accAt1 = false))
    ∧ (∃ (s : State) (n : Fin 64) (gap : BitVec 4) (ax : BitVec 3) (mode : BitVec 2) (dd : BitVec 6) (ext : BitVec 10) (p : Px), (s.on F.TMP_STAT_trapped n = false) ∧ (p = Px.advance gap.toNat (s.px n)) ∧ (p.trap = false) ∧ (ext.toNat = 9)) :=
  ⟨⟨(let s : State := .reset; let s : State := s.wr F.TMP_STAT_trapped (0) 63; s), 63, 0, 0, 0, 0, 0, (Px.advance 0 ((let s : State := .reset; let s : State := s.wr F.TMP_STAT_trapped (0) 63; s).px 63)), 0, 0, false, false, by decide +kernel⟩,
   ⟨(let s : State := .reset; let s : State := s.wr F.TMP_STAT_trapped (0) 63; s), 63, 0, 0, 0, 0, 15, (Px.advance 0 ((let s : State := .reset; let s : State := s.wr F.TMP_STAT_trapped (0) 63; s).px 63)), by decide +kernel⟩,
   ⟨(let s : State := .reset; let s : State := s.wr F.TMP_STAT_trapped (0) 63; s), 63, 0, 0, 0, 0, 8, (Px.advance 0 ((let s : State := .reset; let s : State := s.wr F.TMP_STAT_trapped (0) 63; s).px 63)), by decide +kernel⟩,
   ⟨(let s : State := .reset; let s : State := s.wr F.TMP_STAT_trapped (0) 63; s), 63, 0, 0, 0, 0, 15, (Px.advance 0 ((let s : State := .reset; let s : State := s.wr F.TMP_STAT_trapped (0) 63; s).px 63)), by decide +kernel⟩,
   ⟨(let s : State := .reset; let s : State := s.wr F.TMP_STAT_trapped (0) 63; s), 63, 0, 0, 0, 0, 9, (Px.advance 0 ((let s : State := .reset; let s : State := s.wr F.TMP_STAT_trapped (0) 63; s).px 63)), by decide +kernel⟩⟩

theorem witness_MacSlotOperations_a :
    (∃ (s : State) (n : Fin 64) (gap : BitVec 4) (s1 : BitVec 6) (s2 : BitVec 6) (aux : BitVec 7) (p : Px) (q : Int), (s.on F.TMP_STAT_trapped n = false) ∧ (p = Px.advance gap.toNat (s.px n)) ∧ (p.trap = false) ∧ (q = alignProd (p.regS s1.toNat) (p.regS s2.toNat) (p.shiftOf aux.toNat)))
    ∧ (∃ (s : State) (n : Fin 64) (gap : BitVec 4) (s1 : BitVec 6) (s2 : BitVec 6) (aux : BitVec 7) (p : Px) (ar : Int) (ai : Int) (br : Int) (bi : Int) (k : Nat), (s.on F.TMP_STAT_trapped n = false) ∧ (p = Px.advance gap.toNat (s.px n)) ∧ (p.trap = false) ∧ (bitAt aux.toNat 6 = false) ∧ (p.pairOk s1.toNat = true) ∧ (p.pairOk s2.toNat = true) ∧ (ar = p.regS s1.toNat) ∧ (ai = p.hi s1.toNat) ∧ (br = p.regS s2.toNat) ∧ (bi = p.hi s2.toNat) ∧ (k = p.shiftOf aux.toNat))
    ∧ (∃ (s : State) (n : Fin 64) (gap : BitVec 4) (s1 : BitVec 6) (s2 : BitVec 6) (aux : BitVec 7) (p : Px), (s.on F.TMP_STAT_trapped n = false) ∧ (p = Px.advance gap.toNat (s.px n)) ∧ (p.trap = false) ∧ (s1 = 0) ∧ (s2 = 0) ∧ (aux = 3))
    ∧ (∃ (s : State) (n : Fin 64) (gap : BitVec 4) (s1 : BitVec 6) (s2 : BitVec 6) (aux : BitVec 7) (p : Px), (s.on F.TMP_STAT_trapped n = false) ∧ (p = Px.advance gap.toNat (s.px n)) ∧ (p.trap = false) ∧ (s1 = 0) ∧ (s2 = 0) ∧ (aux = 2))
    ∧ (∃ (s : State) (n : Fin 64) (gap : BitVec 4) (s1 : BitVec 6) (s2 : BitVec 6) (aux : BitVec 7) (p : Px), (s.on F.TMP_STAT_trapped n = false) ∧ (p = Px.advance gap.toNat (s.px n)) ∧ (p.trap = false) ∧ (s1 = 0) ∧ (s2 = 0) ∧ (aux = 1))
    ∧ (∃ (s : State) (n : Fin 64) (gap : BitVec 4) (s1 : BitVec 6) (s2 : BitVec 6) (aux : BitVec 7) (p : Px) (v : Word) (o : Bool), (s.on F.TMP_STAT_trapped n = false) ∧ (p = Px.advance gap.toNat (s.px n)) ∧ (p.trap = false) ∧ (aux.toNat % 8 = 0) ∧ (bitsOf aux.toNat 4 2 ≠ 3) ∧ (p.narrowOf (aux.toNat / 64) s2.toNat (bitsOf aux.toNat 4 2) (bitAt aux.toNat 3) = (v, o)))
    ∧ (∃ (s : State) (n : Fin 64) (gap : BitVec 4) (s1 : BitVec 6) (s2 : BitVec 6) (aux : BitVec 7) (p : Px), (s.on F.TMP_STAT_trapped n = false) ∧ (p = Px.advance gap.toNat (s.px n)) ∧ (p.trap = false) ∧ (s1 = 0) ∧ (aux.toNat % 64 = 0))
    ∧ (∃ (s : State) (n : Fin 64) (gap : BitVec 4) (s1 : BitVec 6) (s2 : BitVec 6) (aux : BitVec 7) (p : Px), (s.on F.TMP_STAT_trapped n = false) ∧ (p = Px.advance gap.toNat (s.px n)) ∧ (p.trap = false) ∧ (s1 = 0) ∧ (s2.toNat < 2) ∧ (bitAt aux.toNat 6 = false))
    ∧ (∃ (s : State) (n : Fin 64) (gap : BitVec 4) (s1 : BitVec 6) (s2 : BitVec 6) (aux : BitVec 7) (p : Px) (a : Int) (b : Int) (k : Nat) (f : Int → Px), (s.on F.TMP_STAT_trapped n = false) ∧ (p = Px.advance gap.toNat (s.px n)) ∧ (p.trap = false) ∧ (a = p.regS s1.toNat) ∧ (b = p.regS s2.toNat) ∧ (k = (p.reg s2.toNat).toNat % 32) ∧ (f = (fun v => p.later 1 (.data (p.phys aux.toNat) (BitVec.ofInt 32 v)))))
    ∧ (∃ (s : State) (n : Fin 64) (gap : BitVec 4) (s1 : BitVec 6) (s2 : BitVec 6) (aux : BitVec 7) (p : Px) (a : Int) (b : Int) (k : Nat) (f : Int → Px), (s.on F.TMP_STAT_trapped n = false) ∧ (p = Px.advance gap.toNat (s.px n)) ∧ (p.trap = false) ∧ (a = p.regS s1.toNat) ∧ (b = p.regS s2.toNat) ∧ (k = (p.reg s2.toNat).toNat % 32) ∧ (f = (fun v => p.later 1 (.data (p.phys aux.toNat) (BitVec.ofInt 32 v)))) ∧ (bitAt aux.toNat 6 = false))
    ∧ (∃ (s : State) (n : Fin 64) (gap : BitVec 4) (s1 : BitVec 6) (s2 : BitVec 6) (aux : BitVec 7) (p : Px) (a : Int) (b : Int) (k : Nat) (f : Int → Px), (s.on F.TMP_STAT_trapped n = false) ∧ (p = Px.advance gap.toNat (s.px n)) ∧ (p.trap = false) ∧ (a = p.regS s1.toNat) ∧ (b = p.regS s2.toNat) ∧ (k = (p.reg s2.toNat).toNat % 32) ∧ (f = (fun v => p.later 1 (.data (p.phys aux.toNat) (BitVec.ofInt 32 v)))) ∧ (bitAt aux.toNat 6 = false) ∧ (s2 = 0))
    ∧ (∃ (s : State) (n : Fin 64) (gap : BitVec 4) (s1 : BitVec 6) (s2 : BitVec 6) (aux : BitVec 7) (p : Px) (a : Int) (b : Int) (k : Nat) (f : Int → Px), (s.on F.TMP_STAT_trapped n = false) ∧ (p = Px.advance gap.toNat (s.px n)) ∧ (p.trap = false) ∧ (a = p.regS s1.toNat) ∧ (b = p.regS s2.toNat) ∧ (k = (p.reg s2.toNat).toNat % 32) ∧ (f = (fun v => p.later 1 (.data (p.phys aux.toNat) (BitVec.ofInt 32 v)))) ∧ (s2 = 0) ∧ (aux = 0)) :=
  ⟨⟨(let s : State := .reset; let s : State := s.wr F.TMP_STAT_trapped (0) 63; s), 63, 0, 0, 0, 0, (Px.advance 0 ((let s : State := .reset; let s : State := s.wr F.TMP_STAT_trapped (0) 63; s).px 63)), alignProd ((Px.advance 0 ((let s : State := .reset; let s : State := s.wr F.TMP_STAT_trapped (0) 63; s).px 63)).regS 0) ((Px.advance 0 ((let s : State := .reset; let s : State := s.wr F.TMP_STAT_trapped (0) 63; s).px 63)).regS 0) ((Px.advance 0 ((let s : State := .reset; let s : State := s.wr F.TMP_STAT_trapped (0) 63; s).px 63)).shiftOf 0), by decide +kernel⟩,
   ⟨(let s : State := .reset; let s : State := s.wr F.TMP_STAT_trapped (0) 63; s), 63, 0, 0, 0, 0, (Px.advance 0 ((let s : State := .reset; let s : State := s.wr F.TMP_STAT_trapped (0) 63; s).px 63)), (Px.advance 0 ((let s : State := .reset; let s : State := s.wr F.TMP_STAT_trapped (0) 63; s).px 63)).regS 0, (Px.advance 0 ((let s : State := .reset; let s : State := s.wr F.TMP_STAT_trapped (0) 63; s).px 63)).hi 0, (Px.advance 0 ((let s : State := .reset; let s : State := s.wr F.TMP_STAT_trapped (0) 63; s).px 63)).regS 0, (Px.advance 0 ((let s : State := .reset; let s : State := s.wr F.TMP_STAT_trapped (0) 63; s).px 63)).hi 0, (Px.advance 0 ((let s : State := .reset; let s : State := s.wr F.TMP_STAT_trapped (0) 63; s).px 63)).shiftOf 0, by decide +kernel⟩,
   ⟨(let s : State := .reset; let s : State := s.wr F.TMP_STAT_trapped (0) 63; s), 63, 0, 0, 0, 3, (Px.advance 0 ((let s : State := .reset; let s : State := s.wr F.TMP_STAT_trapped (0) 63; s).px 63)), by decide +kernel⟩,
   ⟨(let s : State := .reset; let s : State := s.wr F.TMP_STAT_trapped (0) 63; s), 63, 0, 0, 0, 2, (Px.advance 0 ((let s : State := .reset; let s : State := s.wr F.TMP_STAT_trapped (0) 63; s).px 63)), by decide +kernel⟩,
   ⟨(let s : State := .reset; let s : State := s.wr F.TMP_STAT_trapped (0) 63; s), 63, 0, 0, 0, 1, (Px.advance 0 ((let s : State := .reset; let s : State := s.wr F.TMP_STAT_trapped (0) 63; s).px 63)), by decide +kernel⟩,
   ⟨(let s : State := .reset; let s : State := s.wr F.TMP_STAT_trapped (0) 63; s), 63, 0, 0, 0, 0, (Px.advance 0 ((let s : State := .reset; let s : State := s.wr F.TMP_STAT_trapped (0) 63; s).px 63)), 0, false, by decide +kernel⟩,
   ⟨(let s : State := .reset; let s : State := s.wr F.TMP_STAT_trapped (0) 63; s), 63, 0, 0, 0, 0, (Px.advance 0 ((let s : State := .reset; let s : State := s.wr F.TMP_STAT_trapped (0) 63; s).px 63)), by decide +kernel⟩,
   ⟨(let s : State := .reset; let s : State := s.wr F.TMP_STAT_trapped (0) 63; s), 63, 0, 0, 1, 0, (Px.advance 0 ((let s : State := .reset; let s : State := s.wr F.TMP_STAT_trapped (0) 63; s).px 63)), by decide +kernel⟩,
   ⟨(let s : State := .reset; let s : State := s.wr F.TMP_STAT_trapped (0) 63; s), 63, 0, 0, 0, 0, (Px.advance 0 ((let s : State := .reset; let s : State := s.wr F.TMP_STAT_trapped (0) 63; s).px 63)), (Px.advance 0 ((let s : State := .reset; let s : State := s.wr F.TMP_STAT_trapped (0) 63; s).px 63)).regS 0, (Px.advance 0 ((let s : State := .reset; let s : State := s.wr F.TMP_STAT_trapped (0) 63; s).px 63)).regS 0, ((Px.advance 0 ((let s : State := .reset; let s : State := s.wr F.TMP_STAT_trapped (0) 63; s).px 63)).reg 0).toNat % 32, (fun v => (Px.advance 0 ((let s : State := .reset; let s : State := s.wr F.TMP_STAT_trapped (0) 63; s).px 63)).later 1 (.data ((Px.advance 0 ((let s : State := .reset; let s : State := s.wr F.TMP_STAT_trapped (0) 63; s).px 63)).phys 0) (BitVec.ofInt 32 v))), by decide +kernel, by decide +kernel, by decide +kernel, by decide +kernel, by decide +kernel, by decide +kernel, rfl⟩,
   ⟨(let s : State := .reset; let s : State := s.wr F.TMP_STAT_trapped (0) 63; s), 63, 0, 0, 0, 0, (Px.advance 0 ((let s : State := .reset; let s : State := s.wr F.TMP_STAT_trapped (0) 63; s).px 63)), (Px.advance 0 ((let s : State := .reset; let s : State := s.wr F.TMP_STAT_trapped (0) 63; s).px 63)).regS 0, (Px.advance 0 ((let s : State := .reset; let s : State := s.wr F.TMP_STAT_trapped (0) 63; s).px 63)).regS 0, ((Px.advance 0 ((let s : State := .reset; let s : State := s.wr F.TMP_STAT_trapped (0) 63; s).px 63)).reg 0).toNat % 32, (fun v => (Px.advance 0 ((let s : State := .reset; let s : State := s.wr F.TMP_STAT_trapped (0) 63; s).px 63)).later 1 (.data ((Px.advance 0 ((let s : State := .reset; let s : State := s.wr F.TMP_STAT_trapped (0) 63; s).px 63)).phys 0) (BitVec.ofInt 32 v))), by decide +kernel, by decide +kernel, by decide +kernel, by decide +kernel, by decide +kernel, by decide +kernel, rfl, by decide +kernel⟩,
   ⟨(let s : State := .reset; let s : State := s.wr F.TMP_STAT_trapped (0) 63; s), 63, 0, 0, 0, 0, (Px.advance 0 ((let s : State := .reset; let s : State := s.wr F.TMP_STAT_trapped (0) 63; s).px 63)), (Px.advance 0 ((let s : State := .reset; let s : State := s.wr F.TMP_STAT_trapped (0) 63; s).px 63)).regS 0, (Px.advance 0 ((let s : State := .reset; let s : State := s.wr F.TMP_STAT_trapped (0) 63; s).px 63)).regS 0, ((Px.advance 0 ((let s : State := .reset; let s : State := s.wr F.TMP_STAT_trapped (0) 63; s).px 63)).reg 0).toNat % 32, (fun v => (Px.advance 0 ((let s : State := .reset; let s : State := s.wr F.TMP_STAT_trapped (0) 63; s).px 63)).later 1 (.data ((Px.advance 0 ((let s : State := .reset; let s : State := s.wr F.TMP_STAT_trapped (0) 63; s).px 63)).phys 0) (BitVec.ofInt 32 v))), by decide +kernel, by decide +kernel, by decide +kernel, by decide +kernel, by decide +kernel, by decide +kernel, rfl, by decide +kernel, by decide +kernel⟩,
   ⟨(let s : State := .reset; let s : State := s.wr F.TMP_STAT_trapped (0) 63; s), 63, 0, 0, 0, 0, (Px.advance 0 ((let s : State := .reset; let s : State := s.wr F.TMP_STAT_trapped (0) 63; s).px 63)), (Px.advance 0 ((let s : State := .reset; let s : State := s.wr F.TMP_STAT_trapped (0) 63; s).px 63)).regS 0, (Px.advance 0 ((let s : State := .reset; let s : State := s.wr F.TMP_STAT_trapped (0) 63; s).px 63)).regS 0, ((Px.advance 0 ((let s : State := .reset; let s : State := s.wr F.TMP_STAT_trapped (0) 63; s).px 63)).reg 0).toNat % 32, (fun v => (Px.advance 0 ((let s : State := .reset; let s : State := s.wr F.TMP_STAT_trapped (0) 63; s).px 63)).later 1 (.data ((Px.advance 0 ((let s : State := .reset; let s : State := s.wr F.TMP_STAT_trapped (0) 63; s).px 63)).phys 0) (BitVec.ofInt 32 v))), by decide +kernel, by decide +kernel, by decide +kernel, by decide +kernel, by decide +kernel, by decide +kernel, rfl, by decide +kernel, by decide +kernel⟩⟩

theorem witness_MacSlotOperations_b :
    (∃ (s : State) (n : Fin 64) (gap : BitVec 4) (s1 : BitVec 6) (s2 : BitVec 6) (aux : BitVec 7) (p : Px) (a : Int) (b : Int) (k : Nat) (f : Int → Px), (s.on F.TMP_STAT_trapped n = false) ∧ (p = Px.advance gap.toNat (s.px n)) ∧ (p.trap = false) ∧ (a = p.regS s1.toNat) ∧ (b = p.regS s2.toNat) ∧ (k = (p.reg s2.toNat).toNat % 32) ∧ (f = (fun v => p.later 1 (.data (p.phys aux.toNat) (BitVec.ofInt 32 v)))) ∧ (bitAt aux.toNat 6 = true)) :=
  ⟨(let s : State := .reset; let s : State := s.wr F.TMP_STAT_trapped (0) 63; s), 63, 0, 0, 0, 64, (Px.advance 0 ((let s : State := .reset; let s : State := s.wr F.TMP_STAT_trapped (0) 63; s).px 63)), (Px.advance 0 ((let s : State := .reset; let s : State := s.wr F.TMP_STAT_trapped (0) 63; s).px 63)).regS 0, (Px.advance 0 ((let s : State := .reset; let s : State := s.wr F.TMP_STAT_trapped (0) 63; s).px 63)).regS 0, ((Px.advance 0 ((let s : State := .reset; let s : State := s.wr F.TMP_STAT_trapped (0) 63; s).px 63)).reg 0).toNat % 32, (fun v => (Px.advance 0 ((let s : State := .reset; let s : State := s.wr F.TMP_STAT_trapped (0) 63; s).px 63)).later 1 (.data ((Px.advance 0 ((let s : State := .reset; let s : State := s.wr F.TMP_STAT_trapped (0) 63; s).px 63)).phys 64) (BitVec.ofInt 32 v))), by decide +kernel, by decide +kernel, by decide +kernel, by decide +kernel, by decide +kernel, by decide +kernel, rfl, by decide +kernel⟩

theorem witness_ControlSlot :
    (∃ (s : State) (n : Fin 64) (gap : BitVec 4) (op : BitVec 10) (p : Px), (s.on F.TMP_STAT_trapped n = false) ∧ (p = Px.advance gap.toNat (s.px n)) ∧ (p.trap = false) ∧ (p.dp.goal = none) ∧ (p.dp.lastTwo = false) ∧ (p.dp.atom = 0) ∧ (p.escapes (p.target op.toNat) = false))
    ∧ (∃ (s : State) (n : Fin 64) (gap : BitVec 4) (op : BitVec 10) (p : Px), (s.on F.TMP_STAT_trapped n = false) ∧ (p = Px.advance gap.toNat (s.px n)) ∧ (p.trap = false) ∧ (p.dp.goal = none) ∧ (p.dp.lastTwo = false) ∧ (p.dp.atom = 0) ∧ (op = 0))
    ∧ (∃ (s : State) (n : Fin 64) (gap : BitVec 4) (op : BitVec 10) (p : Px), (s.on F.TMP_STAT_trapped n = false) ∧ (p = Px.advance gap.toNat (s.px n)) ∧ (p.trap = false) ∧ (p.dp.goal = none) ∧ (p.dp.lastTwo = false) ∧ (p.dp.atom = 0) ∧ (op = 0) ∧ (p.escapes p.dp.link = false ∨ p.dp.inHook = true ∧ p.dp.act0 = false ∧ p.dp.act1 = false))
    ∧ (∃ (s : State) (n : Fin 64) (gap : BitVec 4) (op : BitVec 10) (p : Px), (s.on F.TMP_STAT_trapped n = false) ∧ (p = Px.advance gap.toNat (s.px n)) ∧ (p.trap = false) ∧ (p.dp.goal = none) ∧ (p.dp.lastTwo = false) ∧ (p.dp.atom = 0) ∧ (op = 0) ∧ (p.owner = false))
    ∧ (∃ (s : State) (n : Fin 64) (gap : BitVec 4) (op : BitVec 10) (p : Px), (s.on F.TMP_STAT_trapped n = false) ∧ (p = Px.advance gap.toNat (s.px n)) ∧ (p.trap = false) ∧ (p.dp.goal = none) ∧ (p.dp.lastTwo = false) ∧ (p.dp.atom = 0) ∧ (op = 0) ∧ (p.owner = true))
    ∧ (∃ (s : State) (n : Fin 64) (gap : BitVec 4) (op : BitVec 10) (p : Px), (s.on F.TMP_STAT_trapped n = false) ∧ (p = Px.advance gap.toNat (s.px n)) ∧ (p.trap = false) ∧ (p.dp.goal = none) ∧ (bitsOf op.toNat 6 3 = 0) ∧ (bitAt op.toNat 9 = false))
    ∧ (∃ (s : State) (n : Fin 64) (gap : BitVec 4) (op : BitVec 10) (p : Px), (s.on F.TMP_STAT_trapped n = false) ∧ (p = Px.advance gap.toNat (s.px n)) ∧ (p.trap = false) ∧ (p.dp.goal = none) ∧ (bitsOf op.toNat 6 3 = 0) ∧ (bitAt op.toNat 9 = true))
    ∧ (∃ (s : State) (n : Fin 64) (gap : BitVec 4) (op : BitVec 10) (p : Px) (l : Nat) (e : Nat), (s.on F.TMP_STAT_trapped n = false) ∧ (p = Px.advance gap.toNat (s.px n)) ∧ (p.trap = false) ∧ (l = p.dp.pc + bitsOf op.toNat 6 3 + 1) ∧ (e = l + op.toNat % 64) ∧ (p.dp.goal = none) ∧ (p.dp.lastTwo = false) ∧ (p.dp.atom = 0) ∧ (e < 4096) ∧ (bitAt op.toNat 9 = true) ∧ (tooSoon p.dp.clock p.dp.lset1 = false) ∧ ((p.dp.act0 = true → p.dp.ls0 ≤ l ∧ e ≤ p.dp.le0)))
    ∧ (∃ (s : State) (n : Fin 64) (gap : BitVec 4) (op : BitVec 10) (p : Px) (l : Nat) (e : Nat), (s.on F.TMP_STAT_trapped n = false) ∧ (p = Px.advance gap.toNat (s.px n)) ∧ (p.trap = false) ∧ (l = p.dp.pc + bitsOf op.toNat 6 3 + 1) ∧ (e = l + op.toNat % 64) ∧ (p.dp.goal = none) ∧ (p.dp.lastTwo = false) ∧ (p.dp.atom = 0) ∧ (e < 4096) ∧ (bitAt op.toNat 9 = false) ∧ (tooSoon p.dp.clock p.dp.lset0 = false) ∧ (p.dp.act1 = false))
    ∧ (∃ (s : State) (n : Fin 64) (gap : BitVec 4) (op : BitVec 10) (p : Px), (s.on F.TMP_STAT_trapped n = false) ∧ (p = Px.advance gap.toNat (s.px n)) ∧ (p.trap = false) ∧ (p.dp.goal = none) ∧ (bitsOf op.toNat 5 4 = 0))
    ∧ (∃ (s : State) (n : Fin 64) (gap : BitVec 4) (op : BitVec 10) (p : Px), (s.on F.TMP_STAT_trapped n = false) ∧ (p = Px.advance gap.toNat (s.px n)) ∧ (p.trap = false) ∧ (p.dp.goal = none) ∧ (p.dp.atom = 0) ∧ (op.toNat < 8))
    ∧ (∃ (s : State) (n : Fin 64) (gap : BitVec 4) (op : BitVec 10) (p : Px) (i : Instr), (s.on F.TMP_STAT_trapped n = false) ∧ (p = Px.advance gap.toNat (s.px n)) ∧ (p.trap = false) ∧ (p.dp.goal.isSome = true) ∧ (i ∈ [Instr.br n gap op, .bz n gap op, .bnz n gap op, .bn n gap op, .bnn n gap op, .call n gap op, .ret n gap op, .endOp n gap op, .rbg n gap op, .lset n gap op, .loop n gap op, .rot n gap op, .atom n gap op])) :=
  ⟨⟨(let s : State := .reset; let s : State := s.wr F.TMP_STAT_trapped (0) 63; s), 63, 0, 0, (Px.advance 0 ((let s : State := .reset; let s : State := s.wr F.TMP_STAT_trapped (0) 63; s).px 63)), by decide +kernel⟩,
   ⟨(let s : State := .reset; let s : State := s.wr F.TMP_STAT_trapped (0) 63; s), 63, 0, 0, (Px.advance 0 ((let s : State := .reset; let s : State := s.wr F.TMP_STAT_trapped (0) 63; s).px 63)), by decide +kernel⟩,
   ⟨(let s : State := .reset; let s : State := s.wr F.TMP_STAT_trapped (0) 63; s), 63, 0, 0, (Px.advance 0 ((let s : State := .reset; let s : State := s.wr F.TMP_STAT_trapped (0) 63; s).px 63)), by decide +kernel⟩,
   ⟨(let s : State := .reset; let s : State := s.wr F.TMP_STAT_trapped (0) 63; s), 63, 0, 0, (Px.advance 0 ((let s : State := .reset; let s : State := s.wr F.TMP_STAT_trapped (0) 63; s).px 63)), by decide +kernel⟩,
   ⟨(let s : State := .reset; let s : State := s.wr F.TMP_STAT_trapped (0) 63; let s : State := s.setEng 63 { (s.eng 63) with dp.pc := 2048 }; s), 63, 0, 0, (Px.advance 0 ((let s : State := .reset; let s : State := s.wr F.TMP_STAT_trapped (0) 63; let s : State := s.setEng 63 { (s.eng 63) with dp.pc := 2048 }; s).px 63)), by decide +kernel⟩,
   ⟨(let s : State := .reset; let s : State := s.wr F.TMP_STAT_trapped (0) 63; s), 63, 0, 0, (Px.advance 0 ((let s : State := .reset; let s : State := s.wr F.TMP_STAT_trapped (0) 63; s).px 63)), by decide +kernel⟩,
   ⟨(let s : State := .reset; let s : State := s.wr F.TMP_STAT_trapped (0) 63; s), 63, 0, 512, (Px.advance 0 ((let s : State := .reset; let s : State := s.wr F.TMP_STAT_trapped (0) 63; s).px 63)), by decide +kernel⟩,
   ⟨(let s : State := .reset; let s : State := s.wr F.TMP_STAT_trapped (0) 63; s), 63, 0, 512, (Px.advance 0 ((let s : State := .reset; let s : State := s.wr F.TMP_STAT_trapped (0) 63; s).px 63)), (Px.advance 0 ((let s : State := .reset; let s : State := s.wr F.TMP_STAT_trapped (0) 63; s).px 63)).dp.pc + bitsOf 512 6 3 + 1, 1, by decide +kernel⟩,
   ⟨(let s : State := .reset; let s : State := s.wr F.TMP_STAT_trapped (0) 63; s), 63, 0, 0, (Px.advance 0 ((let s : State := .reset; let s : State := s.wr F.TMP_STAT_trapped (0) 63; s).px 63)), (Px.advance 0 ((let s : State := .reset; let s : State := s.wr F.TMP_STAT_trapped (0) 63; s).px 63)).dp.pc + bitsOf 0 6 3 + 1, 1, by decide +kernel⟩,
   ⟨(let s : State := .reset; let s : State := s.wr F.TMP_STAT_trapped (0) 63; s), 63, 0, 0, (Px.advance 0 ((let s : State := .reset; let s : State := s.wr F.TMP_STAT_trapped (0) 63; s).px 63)), by decide +kernel⟩,
   ⟨(let s : State := .reset; let s : State := s.wr F.TMP_STAT_trapped (0) 63; s), 63, 0, 7, (Px.advance 0 ((let s : State := .reset; let s : State := s.wr F.TMP_STAT_trapped (0) 63; s).px 63)), by decide +kernel⟩,
   ⟨(let s : State := .reset; let s : State := s.wr F.TMP_STAT_trapped (0) 63; let s : State := s.setEng 63 { (s.eng 63) with dp.goal := some (0, .finish) }; s), 63, 0, 0, (Px.advance 0 ((let s : State := .reset; let s : State := s.wr F.TMP_STAT_trapped (0) 63; let s : State := s.setEng 63 { (s.eng 63) with dp.goal := some (0, .finish) }; s).px 63)), (Instr.br 63 0 0), by decide +kernel⟩⟩

theorem witness_ResultsLandInTime :
    (∃ (p : Px) (r : Nat) (v : Word), (p.dp.flight = []) ∧ (p.dp.goal = none))
    ∧ (∃ (p : Px) (r : Nat) (v : Word) (k : Nat), (p.dp.flight = []) ∧ (p.dp.goal = none) ∧ (k ≠ r))
    ∧ (∃ (p : Px) (r : Nat) (v : Word) (w : Word), (p.dp.flight = []) ∧ (p.dp.goal = none))
    ∧ (∃ (p : Px) (a : Nat) (bs : List Byte), (p.dp.flight = []) ∧ (p.dp.goal = none))
    ∧ (∃ (s : State) (n : Fin 64) (gap : BitVec 4) (f : Px → Px), (s.on F.TMP_STAT_trapped n = true)) :=
  ⟨⟨({ dp := ({} : Dp), mem := [] } : Px), 0, 0, by decide +kernel⟩,
   ⟨({ dp := ({} : Dp), mem := [] } : Px), 0, 0, 1, by decide +kernel⟩,
   ⟨({ dp := ({} : Dp), mem := [] } : Px), 0, 0, 0, by decide +kernel⟩,
   ⟨({ dp := ({} : Dp), mem := [] } : Px), 0, [], by decide +kernel⟩,
   ⟨(let s : State := .reset; let s : State := s.wr F.TMP_STAT_trapped (1) 63; s), 63, 0, id, by decide +kernel⟩⟩

theorem witness_TongsChannels :
    (∃ (s : State) (m : Master) (c : Fin 32) (l : BitVec 3), (s.tngOn c = false) ∧ (s.tngMay m c = true))
    ∧ (∃ (s : State) (m : Master) (c : Fin 32) (l : BitVec 3), (s.tngOn c = true))
    ∧ (∃ (s : State) (m : Master) (c : Fin 32) (l : BitVec 3), (s.on F.TNG_CH_CFG_quench c = true) ∧ (s.privileged m = false) ∧ (s.tngOn c = false))
    ∧ (∃ (s : State) (m : Master) (c : Fin 32) (l : BitVec 3), (s.on F.TNG_CH_CFG_quench c = true) ∧ (s.privileged m = false) ∧ (s.tngOn c = true))
    ∧ (∃ (s : State) (m : Master) (c : Fin 32), (s.tngOn c = true) ∧ (s.tngMay m c = true))
    ∧ (∃ (s : State) (c : Fin 32) (e : Nat) (l : List Nat), ((s.tngCh c).edges = e :: l) ∧ (s.tngOn c = true) ∧ (s.tngMode c ≠ 2) ∧ ((s.tngCh c).standstill = false) ∧ (s.rd F.TNG_CH_SPD_stand c ≠ 0) ∧ (e < 2 ^ 64) ∧ (s.rd F.TNG_CH_SPD_stand c * 10000 ≤ edgeSpan s.cellNs e))
    ∧ (∃ (s : State) (r : Fin 64) (d : Desc), (s.Starts r 0x0920 d) ∧ (d.op 32 1 < 32) ∧ (s.tngOn (d.op 32 1) = true))
    ∧ (∃ (s : State) (r : Fin 64) (d : Desc), (s.Starts r 0x0920 d) ∧ (32 ≤ d.op 32 1 ∨ s.tngOn (d.op 32 1) = false)) :=
  ⟨⟨(let s : State := .reset; let s : State := s.wr F.TNG_CH_CTL_enable (0) 31; s), .host, 31, 0, by decide +kernel⟩,
   ⟨(let s : State := .reset; let s : State := s.wr F.TNG_CH_CTL_enable (1) 31; s), .host, 31, 0, by decide +kernel⟩,
   ⟨(let s : State := .reset; let s : State := s.wr F.TNG_CH_CFG_quench (1) 31; let s : State := s.wr F.TNG_CH_CTL_enable (0) 31; s), .engine, 31, 0, by decide +kernel⟩,
   ⟨(let s : State := .reset; let s : State := s.wr F.TNG_CH_CFG_quench (1) 31; let s : State := s.wr F.TNG_CH_CTL_enable (1) 31; s), .engine, 31, 0, by decide +kernel⟩,
   ⟨(let s : State := .reset; let s : State := s.wr F.TNG_CH_CTL_enable (1) 31; s), .host, 31, by decide +kernel⟩,
   ⟨(let s : State := .reset; let s : State := s.setTngCh 31 { (s.tngCh 31) with edges := 18446744073709541616 :: [] }; let s : State := s.wr F.TNG_CH_CTL_enable (1) 31; let s : State := s.wr F.TNG_CH_CFG_mode (0) 31; let s : State := s.setTngCh 31 { (s.tngCh 31) with standstill := false }; let s : State := s.wr F.TNG_CH_SPD_stand (1) 31; s), 31, 18446744073709541616, [], by decide +kernel⟩,
   ⟨(let s : State := .reset; let s : State := { s with hif.desc := [({ id := 0, ring := 63, slot := 0, bytes := dsc [(0, 2, 0x0920), (32, 1, 31)] } : Desc)] }; let s : State := s.wr F.TNG_CH_CTL_enable (1) (({ id := 0, ring := 63, slot := 0, bytes := dsc [(0, 2, 0x0920), (32, 1, 31)] } : Desc).op 32 1); s), 63, ({ id := 0, ring := 63, slot := 0, bytes := dsc [(0, 2, 0x0920), (32, 1, 31)] } : Desc), by decide +kernel⟩,
   ⟨(let s : State := .reset; let s : State := { s with hif.desc := [({ id := 0, ring := 63, slot := 0, bytes := dsc [(0, 2, 0x0920), (32, 1, 32)] } : Desc)] }; s), 63, ({ id := 0, ring := 63, slot := 0, bytes := dsc [(0, 2, 0x0920), (32, 1, 32)] } : Desc), by decide +kernel⟩⟩

theorem witness_TongsEdges :
    (∃ (s : State) (c : Fin 32) (a : Bool) (b : Bool) (te : DWord) (k : Fin 5), (s.tngOn c = true) ∧ (s.tngMode c = 0) ∧ (a ≠ (s.tngCh c).levels.getLsbD 0) ∧ (b = (s.tngCh c).levels.getLsbD 1))
    ∧ (∃ (s : State) (c : Fin 32) (a : Bool) (b : Bool) (te : DWord) (k : Fin 5), (s.tngOn c = true) ∧ (s.tngMode c = 0) ∧ (a = (s.tngCh c).levels.getLsbD 0) ∧ (b ≠ (s.tngCh c).levels.getLsbD 1))
    ∧ (∃ (s : State) (c : Fin 32) (a : Bool) (b : Bool) (te : DWord) (k : Fin 5), (s.tngOn c = true) ∧ (s.tngMode c = 0) ∧ (a ≠ (s.tngCh c).levels.getLsbD 0) ∧ (b ≠ (s.tngCh c).levels.getLsbD 1) ∧ ((s.tngCh c).illegal = false) ∧ (s.takesEvent (72 + c / 4)))
    ∧ (∃ (s : State) (c : Fin 32) (p : Fin 3), (s.tngOn c = true) ∧ (s.tngMode c = 0) ∧ (p.val < 2) ∧ ((s.tngCh c).wire = false) ∧ (s.takesEvent (72 + c / 4)))
    ∧ (∃ (s : State) (c : Fin 32) (p : Fin 3), (s.tngOn c = true) ∧ (s.tngMode c = 0) ∧ (p.val < 2) ∧ ((s.tngCh c).wire = true))
    ∧ (∃ (s : State) (c : Fin 32) (te : DWord) (k : Fin 5), (s.tngOn c = true) ∧ (s.tngMode c = 0) ∧ (s.on F.TNG_CH_IDX_gate_en c = false) ∧ (s.rd F.TNG_CH_IDX_mode c = 1))
    ∧ (∃ (s : State) (c : Fin 32) (te : DWord) (k : Fin 5), (s.tngOn c = true) ∧ (s.tngMode c = 0) ∧ (s.on F.TNG_CH_IDX_gate_en c = false) ∧ (s.rd F.TNG_CH_IDX_mode c = 4) ∧ (s.rd F.TNG_CH_CPR_cpr c ≠ 0) ∧ ((s.tngCh c).referenced = false))
    ∧ (∃ (s : State) (c : Fin 32) (te : DWord) (k : Fin 5), (s.tngOn c = true) ∧ (s.tngMode c = 0) ∧ (s.on F.TNG_CH_IDX_gate_en c = false) ∧ (s.rd F.TNG_CH_IDX_mode c = 2) ∧ (s.rd F.TNG_CH_CPR_cpr c ≠ 0) ∧ ((s.tngCh c).mismatch = false) ∧ (s.takesEvent (72 + c / 4)) ∧ (s.rd F.TNG_CH_IDX_tol c < (indexDev (sgn 48 (s.tngCh c).ext) (s.rd F.TNG_CH_CPR_cpr c) (s.rd F.TNG_CH_IDXREF_ref c)).natAbs))
    ∧ (∃ (s : State) (c : Fin 32) (v : BitVec 3) (te : DWord) (k : Fin 5) (p : Nat) (q : Nat), (s.tngOn c = true) ∧ (s.tngMode c = 1) ∧ (hallPos (s.tngCh c).levels.toNat = some p) ∧ (hallPos v.toNat = some q) ∧ ((p + 1) % 6 = q))
    ∧ (∃ (s : State) (c : Fin 32) (v : BitVec 3) (te : DWord) (k : Fin 5) (p : Nat) (q : Nat), (s.tngOn c = true) ∧ (s.tngMode c = 1) ∧ (hallPos (s.tngCh c).levels.toNat = some p) ∧ (hallPos v.toNat = some q) ∧ ((q + 1) % 6 = p))
    ∧ (∃ (s : State) (c : Fin 32) (v : BitVec 3) (te : DWord) (k : Fin 5), (s.tngOn c = true) ∧ (s.tngMode c = 1) ∧ (v = 0 ∨ v = 7) ∧ ((s.tngCh c).levels ≠ v) ∧ ((s.tngCh c).hallIllegal = false) ∧ (s.takesEvent (72 + c / 4))) :=
  ⟨⟨(let s : State := .reset; let s : State := s.wr F.TNG_CH_CTL_enable (1) 31; let s : State := s.wr F.TNG_CH_CFG_mode (0) 31; s), 31, true, false, 0, 4, by decide +kernel⟩,
   ⟨(let s : State := .reset; let s : State := s.wr F.TNG_CH_CTL_enable (1) 31; let s : State := s.wr F.TNG_CH_CFG_mode (0) 31; s), 31, false, true, 0, 4, by decide +kernel⟩,
   ⟨(let s : State := .reset; let s : State := s.wr F.TNG_CH_CTL_enable (1) 31; let s : State := s.wr F.TNG_CH_CFG_mode (0) 31; let s : State := s.setTngCh 31 { (s.tngCh 31) with illegal := false }; let s : State := s.wr F.HIF_EVT_MAP_enable (1) (72 + 31 / 4); s), 31, true, true, 0, 4, by decide +kernel⟩,
   ⟨(let s : State := .reset; let s : State := s.wr F.TNG_CH_CTL_enable (1) 31; let s : State := s.wr F.TNG_CH_CFG_mode (0) 31; let s : State := s.setTngCh 31 { (s.tngCh 31) with wire := false }; let s : State := s.wr F.HIF_EVT_MAP_enable (1) (72 + 31 / 4); s), 31, 1, by decide +kernel⟩,
   ⟨(let s : State := .reset; let s : State := s.wr F.TNG_CH_CTL_enable (1) 31; let s : State := s.wr F.TNG_CH_CFG_mode (0) 31; let s : State := s.setTngCh 31 { (s.tngCh 31) with wire := true }; s), 31, 1, by decide +kernel⟩,
   ⟨(let s : State := .reset; let s : State := s.wr F.TNG_CH_CTL_enable (1) 31; let s : State := s.wr F.TNG_CH_CFG_mode (0) 31; let s : State := s.wr F.TNG_CH_IDX_gate_en (0) 31; let s : State := s.wr F.TNG_CH_IDX_mode (1) 31; s), 31, 0, 4, by decide +kernel⟩,
   ⟨(let s : State := .reset; let s : State := s.wr F.TNG_CH_CTL_enable (1) 31; let s : State := s.wr F.TNG_CH_CFG_mode (0) 31; let s : State := s.wr F.TNG_CH_IDX_gate_en (0) 31; let s : State := s.wr F.TNG_CH_IDX_mode (4) 31; let s : State := s.wr F.TNG_CH_CPR_cpr (1) 31; let s : State := s.setTngCh 31 { (s.tngCh 31) with referenced := false }; s), 31, 0, 4, by decide +kernel⟩,
   ⟨(let s : State := .reset; let s : State := s.wr F.TNG_CH_CTL_enable (1) 31; let s : State := s.wr F.TNG_CH_CFG_mode (0) 31; let s : State := s.wr F.TNG_CH_IDX_gate_en (0) 31; let s : State := s.wr F.TNG_CH_IDX_mode (2) 31; let s : State := s.wr F.TNG_CH_CPR_cpr (1) 31; let s : State := s.setTngCh 31 { (s.tngCh 31) with mismatch := false }; let s : State := s.wr F.HIF_EVT_MAP_enable (1) (72 + 31 / 4); let s : State := s.wr F.TNG_CH_CPR_cpr 10 31; let s : State := s.wr F.TNG_CH_IDXREF_ref 3 31; let s : State := s.wr F.TNG_CH_IDX_tol 2 31; s), 31, 0, 4, by decide +kernel⟩,
   ⟨(let s : State := .reset; let s : State := s.wr F.TNG_CH_CTL_enable (1) 31; let s : State := s.wr F.TNG_CH_CFG_mode (1) 31; let s : State := s.setTngCh 31 { (s.tngCh 31) with levels := 4 }; s), 31, 6, 0, 4, 0, 1, by decide +kernel⟩,
   ⟨(let s : State := .reset; let s : State := s.wr F.TNG_CH_CTL_enable (1) 31; let s : State := s.wr F.TNG_CH_CFG_mode (1) 31; let s : State := s.setTngCh 31 { (s.tngCh 31) with levels := 6 }; s), 31, 4, 0, 4, 1, 0, by decide +kernel⟩,
   ⟨(let s : State := .reset; let s : State := s.wr F.TNG_CH_CTL_enable (1) 31; let s : State := s.wr F.TNG_CH_CFG_mode (1) 31; let s : State := s.setTngCh 31 { (s.tngCh 31) with hallIllegal := false }; let s : State := s.wr F.HIF_EVT_MAP_enable (1) (72 + 31 / 4); let s : State := s.setTngCh 31 { (s.tngCh 31) with levels := 1 }; s), 31, 0, 0, 4, by decide +kernel⟩⟩

theorem witness_TongsFramesAndProbes :
    (∃ (s : State) (c : Fin 32), (s.tngOn c = true) ∧ (s.tngMode c = 2) ∧ ((s.tngCh c).frame = none) ∧ ((s.tngCh c).framed ≠ some (uns 64 (s.tim.lastInstant + s.rd F.TNG_CH_SSI3_start c : Nat))) ∧ ((s.tngCh c).monoEnd ≤ s.tick))
    ∧ (∃ (s : State) (c : Fin 32), (s.tngOn c = true) ∧ (s.tngMode c = 2) ∧ ((s.tngCh c).frame = none) ∧ (s.takesEvent (72 + c / 4)) ∧ ((s.tngCh c).framed ≠ some (uns 64 (s.tim.lastInstant + s.rd F.TNG_CH_SSI3_start c : Nat))) ∧ ((s.tngCh c).monoEnd ≤ s.tick))
    ∧ (∃ (s : State) (c : Fin 32) (b : BitVec 40) (low : Bool) (i : Nat) (e : Nat), ((s.tngCh c).frame = some (i, e)) ∧ (s.ssiCause c (b.toNat % 2 ^ s.rd F.TNG_CH_SSI_len c) low = none))
    ∧ (∃ (s : State) (c : Fin 32) (b : BitVec 40) (low : Bool) (i : Nat) (e : Nat) (k : Nat), ((s.tngCh c).frame = some (i, e)) ∧ (s.takesEvent (72 + c / 4)) ∧ (s.ssiCause c (b.toNat % 2 ^ s.rd F.TNG_CH_SSI_len c) low = some k))
    ∧ (∃ (s : State) (p : Fin 8) (up : Bool) (te : DWord) (k : Fin 5), (s.on F.TNG_PRB_STAT_armed p = true) ∧ (bitAt (s.rd F.TNG_PRB_CFG_edge p) (if up then 0 else 1) = true) ∧ ((s.mailbox (96 + p)).unread = false) ∧ (s.takesEvent (72 + p)))
    ∧ (∃ (s : State) (p : Fin 8) (up : Bool) (te : DWord) (k : Fin 5), (s.on F.TNG_PRB_STAT_armed p = false)) :=
  ⟨⟨(let s : State := .reset; let s : State := s.wr F.TNG_CH_CTL_enable (1) 31; let s : State := s.wr F.TNG_CH_CFG_mode (2) 31; let s : State := s.setTngCh 31 { (s.tngCh 31) with frame := none }; s), 31, by decide +kernel⟩,
   ⟨(let s : State := .reset; let s : State := s.wr F.TNG_CH_CTL_enable (1) 31; let s : State := s.wr F.TNG_CH_CFG_mode (2) 31; let s : State := s.setTngCh 31 { (s.tngCh 31) with frame := none }; let s : State := s.wr F.HIF_EVT_MAP_enable (1) (72 + 31 / 4); s), 31, by decide +kernel⟩,
   ⟨(let s : State := .reset; let s : State := s.setTngCh 31 { (s.tngCh 31) with frame := some (0, 0) }; s), 31, 0, true, 0, 0, by decide +kernel⟩,
   ⟨(let s : State := .reset; let s : State := s.setTngCh 31 { (s.tngCh 31) with frame := some (0, 0) }; let s : State := s.wr F.HIF_EVT_MAP_enable (1) (72 + 31 / 4); s), 31, 0, false, 0, 0, 2, by decide +kernel⟩,
   ⟨(let s : State := .reset; let s : State := s.wr F.TNG_PRB_STAT_armed 1 7; let s : State := s.wr F.TNG_PRB_CFG_edge 2 7; let s : State := s.wr F.HIF_EVT_MAP_enable 1 79; s), 7, false, 0, 4, by decide +kernel⟩,
   ⟨(let s : State := .reset; let s : State := s.wr F.TNG_PRB_STAT_armed (0) 7; s), 7, false, 0, 4, by decide +kernel⟩⟩

theorem witness_SwageLinks :
    (∃ (s : State) (c : Fin 16) (w : Word), (crc8 (((toBytes 4 w.toNat).drop 1).take 2) ≠ byteAt (toBytes 4 w.toNat) 3))
    ∧ (∃ (s : State) (c : Fin 16) (w : Word), (crc8 (((toBytes 4 w.toNat).drop 1).take 2) = byteAt (toBytes 4 w.toNat) 3) ∧ (byteAt (toBytes 4 w.toNat) 0 ≠ 0x5A ∨ bitsOf (byteAt (toBytes 4 w.toNat) 1) 2 4 ≠ (s.swg c).seq))
    ∧ (∃ (s : State) (c : Fin 16) (w : Word), (crc8 (((toBytes 4 w.toNat).drop 1).take 2) = byteAt (toBytes 4 w.toNat) 3) ∧ (byteAt (toBytes 4 w.toNat) 0 = 0x5A) ∧ (byteAt (toBytes 4 w.toNat) 1 % 4 = c.val % 4) ∧ (bitsOf (byteAt (toBytes 4 w.toNat) 1) 2 4 = (s.swg c).seq) ∧ (s.swage.down = 0) ∧ (bitAt (byteAt (toBytes 4 w.toNat) 2) 2 = true) ∧ (s.on F.SWG_CH_STAT_stage_fault c = false) ∧ ((s.swg c).move = none) ∧ (s.on F.SWG_CH_CFG_lim_pos_en c = false) ∧ (s.on F.SWG_CH_CFG_lim_neg_en c = false) ∧ (s.takesEvent (80 + c / 4)))
    ∧ (∃ (s : State) (c : Fin 16), ((s.swg c).missing + 1 < 3) ∧ (s.swage.down = 0))
    ∧ (∃ (s : State) (c : Fin 16), ((s.swg c).missing = 2) ∧ (s.on F.SWG_CH_STAT_link_fault c = false) ∧ ((s.swg c).move = none) ∧ (s.takesEvent (84 + c / 4)))
    ∧ (∃ (s : State) (c : Fin 16) (p : DWord) (m : SwgMove), ((s.swg c).move = some m) ∧ ((s.swg c).halt = none) ∧ ((s.swg c).landing = false) ∧ ((s.swg c).left = 0) ∧ ((s.swg c).vel = 0) ∧ ((s.swg c).newAccel = none) ∧ ((s.swg c).newDecel = none) ∧ ((s.swg c).newJerk = none) ∧ ((s.swg c).setting = []) ∧ (m.mode = 2) ∧ (m.home = none) ∧ (m.jerkLimited = false))
    ∧ (∃ (s : State) (c : Fin 16) (p : DWord) (m : SwgMove) (d : Desc), ((s.swg c).move = some m) ∧ ((s.swg c).halt = none) ∧ ((s.swg c).landing = true) ∧ ((s.swg c).left = 0) ∧ ((s.swg c).newAccel = none) ∧ ((s.swg c).newDecel = none) ∧ ((s.swg c).newJerk = none) ∧ ((s.swg c).setting = []) ∧ (m.home = none) ∧ (m.desc = some d.id) ∧ (m.deferred = false) ∧ (s.hif.desc.find? (·.id == d.id) = some d) ∧ (d.quiet = false) ∧ ((s.swg c).stops = []))
    ∧ (∃ (s : State) (c : Fin 16) (p : DWord) (m : SwgMove) (h : SwgHalt), ((s.swg c).move = some m) ∧ ((s.swg c).halt = some h) ∧ ((s.swg c).landing = false) ∧ ((s.swg c).left = 0) ∧ ((s.swg c).newAccel = none) ∧ ((s.swg c).newDecel = none) ∧ ((s.swg c).newJerk = none) ∧ ((s.swg c).setting = []) ∧ ((s.swg c).pos ≠ m.target * 2 ^ 32) ∧ (m.desc = none) ∧ ((s.swg c).stops = []) ∧ ((s.swg c).vel.natAbs ≤ perTick (h.begun.getD (max (s.rd F.SWG_CH_STOPDEC_decel c) (s.swg c).decel)) (s.rd F.SWG_CH_CFG_tick c))) :=
  ⟨⟨(let s : State := .reset; s), 15, 0x01000000, by decide +kernel⟩,
   ⟨(let s : State := .reset; s), 15, 0, by decide +kernel⟩,
   ⟨(let s : State := .reset; let s : State := { s with swage := { s.swage with down := 0 } }; let s : State := s.wr F.SWG_CH_STAT_stage_fault (0) 15; let s : State := s.setSwg 15 { (s.swg 15) with move := none }; let s : State := s.wr F.SWG_CH_CFG_lim_pos_en (0) 15; let s : State := s.wr F.SWG_CH_CFG_lim_neg_en (0) 15; let s : State := s.wr F.HIF_EVT_MAP_enable (1) (80 + 15 / 4); s), 15, 0x2304035a, by decide +kernel⟩,
   ⟨(let s : State := .reset; let s : State := { s with swage := { s.swage with down := 0 } }; s), 15, by decide +kernel⟩,
   ⟨(let s : State := .reset; let s : State := s.setSwg 15 { (s.swg 15) with missing := 2 }; let s : State := s.wr F.SWG_CH_STAT_link_fault (0) 15; let s : State := s.setSwg 15 { (s.swg 15) with move := none }; let s : State := s.wr F.HIF_EVT_MAP_enable (1) (84 + 15 / 4); s), 15, by decide +kernel⟩,
   ⟨(let s : State := .reset; let s : State := s.setSwg 15 { (s.swg 15) with move := some ({ mode := 2, jerkLimited := false, home := none } : SwgMove) }; let s : State := s.setSwg 15 { (s.swg 15) with halt := none }; let s : State := s.setSwg 15 { (s.swg 15) with landing := false }; let s : State := s.setSwg 15 { (s.swg 15) with left := 0 }; let s : State := s.setSwg 15 { (s.swg 15) with vel := 0 }; let s : State := s.setSwg 15 { (s.swg 15) with newAccel := none }; let s : State := s.setSwg 15 { (s.swg 15) with newDecel := none }; let s : State := s.setSwg 15 { (s.swg 15) with newJerk := none }; let s : State := s.setSwg 15 { (s.swg 15) with setting := [] }; s), 15, 0, ({ mode := 2, jerkLimited := false, home := none } : SwgMove), by decide +kernel⟩,
   ⟨(let s : State := .reset; let s : State := s.setSwg 15 { (s.swg 15) with move := some ({ desc := some (({ id := 0, ring := 0, slot := 0, bytes := dsc [] } : Desc)).id, deferred := false, home := none } : SwgMove) }; let s : State := s.setSwg 15 { (s.swg 15) with halt := none }; let s : State := s.setSwg 15 { (s.swg 15) with landing := true }; let s : State := s.setSwg 15 { (s.swg 15) with left := 0 }; let s : State := s.setSwg 15 { (s.swg 15) with newAccel := none }; let s : State := s.setSwg 15 { (s.swg 15) with newDecel := none }; let s : State := s.setSwg 15 { (s.swg 15) with newJerk := none }; let s : State := s.setSwg 15 { (s.swg 15) with setting := [] }; let s : State := { s with hif := { s.hif with desc := [({ id := 0, ring := 0, slot := 0, bytes := dsc [] } : Desc)] } }; let s : State := s.setSwg 15 { (s.swg 15) with stops := [] }; s), 15, 0, ({ desc := some (({ id := 0, ring := 0, slot := 0, bytes := dsc [] } : Desc)).id, deferred := false, home := none } : SwgMove), ({ id := 0, ring := 0, slot := 0, bytes := dsc [] } : Desc), by decide +kernel⟩,
   ⟨(let s : State := .reset; let s : State := s.setSwg 15 { (s.swg 15) with move := some ({ desc := none } : SwgMove) }; let s : State := s.setSwg 15 { (s.swg 15) with halt := some ({ status := 0, keep := false } : SwgHalt) }; let s : State := s.setSwg 15 { (s.swg 15) with landing := false }; let s : State := s.setSwg 15 { (s.swg 15) with left := 0 }; let s : State := s.setSwg 15 { (s.swg 15) with newAccel := none }; let s : State := s.setSwg 15 { (s.swg 15) with newDecel := none }; let s : State := s.setSwg 15 { (s.swg 15) with newJerk := none }; let s : State := s.setSwg 15 { (s.swg 15) with setting := [] }; let s : State := s.setSwg 15 { (s.swg 15) with stops := [] }; let s : State := s.setSwg 15 { (s.swg 15) with pos := 1 }; s), 15, 0, ({ desc := none } : SwgMove), ({ status := 0, keep := false } : SwgHalt), by decide +kernel⟩⟩

theorem witness_SwageOperations_a :
    (∃ (s : State) (r : Fin 64) (d : Desc), (s.Starts r 0x0340 d) ∧ (d.op 33 1 = 0) ∧ (d.op 36 4 ≤ s.rd F.SWG_CH_VMAX_vmax (d.op 32 1)) ∧ (bitAt (d.op 34 1) 0 = false) ∧ (inRange47 (d.opS 40 8) = true) ∧ (d.op 32 1 < 16) ∧ ((s.swg (d.op 32 1)).move = none) ∧ (s.on F.SWG_CH_CTL_enable (d.op 32 1) = true) ∧ (s.swgFault (d.op 32 1) = false) ∧ (s.on F.SWG_CH_STAT_limit_chatter (d.op 32 1) = false) ∧ (s.on F.SWG_CH_STAT_lim_pos (d.op 32 1) = false) ∧ (s.on F.SWG_CH_STAT_lim_neg (d.op 32 1) = false))
    ∧ (∃ (s : State) (r : Fin 64) (d : Desc), (s.Starts r 0x0340 d) ∧ (s.rd F.SWG_CH_VMAX_vmax (d.op 32 1) < d.op 36 4))
    ∧ (∃ (s : State) (r : Fin 64) (d : Desc), (s.Starts r 0x0341 d) ∧ ((s.swg (d.op 32 1)).move = none))
    ∧ (∃ (s : State) (r : Fin 64) (d : Desc) (m : SwgMove), (s.Starts r 0x0341 d) ∧ ((s.swg (d.op 32 1)).move = some m) ∧ ((s.swg (d.op 32 1)).halt = none))
    ∧ (∃ (s : State) (r : Fin 64) (d : Desc) (m : SwgMove), (s.Starts r 0x0342 d) ∧ ((s.swg (d.op 32 1)).move = some m))
    ∧ (∃ (s : State) (r : Fin 64) (d : Desc), (s.Starts r 0x0342 d) ∧ ((s.swg (d.op 32 1)).move = none) ∧ ((s.swg (d.op 32 1)).kept = none))
    ∧ (∃ (s : State) (r : Fin 64) (d : Desc) (m : SwgMove), (s.Starts r 0x0342 d) ∧ ((s.swg (d.op 32 1)).move = none) ∧ ((s.swg (d.op 32 1)).kept = some m) ∧ (s.swgRefused (d.op 32 1) m = none))
    ∧ (∃ (s : State) (r : Fin 64) (d : Desc), (s.Starts r 0x0343 d) ∧ (d.op 36 4 ≤ s.rd F.SWG_CH_VMAX_vmax (d.op 32 1)) ∧ (d.op 32 1 < 16) ∧ ((s.swg (d.op 32 1)).move = none) ∧ (s.on F.SWG_CH_CTL_enable (d.op 32 1) = true) ∧ (s.swgFault (d.op 32 1) = false) ∧ (s.on F.SWG_CH_STAT_limit_chatter (d.op 32 1) = false) ∧ (s.on F.SWG_CH_STAT_lim_pos (d.op 32 1) = false) ∧ (s.on F.SWG_CH_STAT_lim_neg (d.op 32 1) = false))
    ∧ (∃ (s : State) (r : Fin 64) (d : Desc), (s.Starts r 0x0344 d) ∧ (d.op 36 4 ≠ 0) ∧ (d.op 40 4 ≠ 0) ∧ (d.op 44 4 = 0) ∧ (d.op 32 1 < 16))
    ∧ (∃ (s : State) (c : Fin 16) (m : SwgMove), ((s.swg c).move = some m) ∧ ((s.swg c).halt = none))
    ∧ (∃ (s : State) (c : Fin 16), ((s.swg c).move = none))
    ∧ (∃ (s : State) (c : Fin 16), (s.on F.SWG_CH_CTL_enable c = false) ∧ ((s.swg c).move = none)) :=
  ⟨⟨(let s : State := .reset; let s : State := { s with hif.desc := [({ id := 0, ring := 63, slot := 0, bytes := dsc [(0, 2, 0x0340), (32, 1, 15), (33, 1, 0)] } : Desc)] }; let s : State := s.setSwg (({ id := 0, ring := 63, slot := 0, bytes := dsc [(0, 2, 0x0340), (32, 1, 15), (33, 1, 0)] } : Desc).op 32 1) { (s.swg (({ id := 0, ring := 63, slot := 0, bytes := dsc [(0, 2, 0x0340), (32, 1, 15), (33, 1, 0)] } : Desc).op 32 1)) with move := none }; let s : State := s.wr F.SWG_CH_CTL_enable (1) (({ id := 0, ring := 63, slot := 0, bytes := dsc [(0, 2, 0x0340), (32, 1, 15), (33, 1, 0)] } : Desc).op 32 1); let s : State := s.wr F.SWG_CH_STAT_limit_chatter (0) (({ id := 0, ring := 63, slot := 0, bytes := dsc [(0, 2, 0x0340), (32, 1, 15), (33, 1, 0)] } : Desc).op 32 1); let s : State := s.wr F.SWG_CH_STAT_lim_pos (0) (({ id := 0, ring := 63, slot := 0, bytes := dsc [(0, 2, 0x0340), (32, 1, 15), (33, 1, 0)] } : Desc).op 32 1); let s : State := s.wr F.SWG_CH_STAT_lim_neg (0) (({ id := 0, ring := 63, slot := 0, bytes := dsc [(0, 2, 0x0340), (32, 1, 15), (33, 1, 0)] } : Desc).op 32 1); s), 63, ({ id := 0, ring := 63, slot := 0, bytes := dsc [(0, 2, 0x0340), (32, 1, 15), (33, 1, 0)] } : Desc), by decide +kernel⟩,
   ⟨(let s : State := .reset; let s : State := { s with hif.desc := [({ id := 0, ring := 63, slot := 0, bytes := dsc [(0, 2, 0x0340), (36, 4, 0xFFFFFFFF)] } : Desc)] }; s), 63, ({ id := 0, ring := 63, slot := 0, bytes := dsc [(0, 2, 0x0340), (36, 4, 0xFFFFFFFF)] } : Desc), by decide +kernel⟩,
   ⟨(let s : State := .reset; let s : State := { s with hif.desc := [({ id := 0, ring := 63, slot := 0, bytes := dsc [(0, 2, 0x0341)] } : Desc)] }; let s : State := s.setSwg (({ id := 0, ring := 63, slot := 0, bytes := dsc [(0, 2, 0x0341)] } : Desc).op 32 1) { (s.swg (({ id := 0, ring := 63, slot := 0, bytes := dsc [(0, 2, 0x0341)] } : Desc).op 32 1)) with move := none }; s), 63, ({ id := 0, ring := 63, slot := 0, bytes := dsc [(0, 2, 0x0341)] } : Desc), by decide +kernel⟩,
   ⟨(let s : State := .reset; let s : State := { s with hif.desc := [({ id := 0, ring := 63, slot := 0, bytes := dsc [(0, 2, 0x0341)] } : Desc)] }; let s : State := s.setSwg (({ id := 0, ring := 63, slot := 0, bytes := dsc [(0, 2, 0x0341)] } : Desc).op 32 1) { (s.swg (({ id := 0, ring := 63, slot := 0, bytes := dsc [(0, 2, 0x0341)] } : Desc).op 32 1)) with move := some ({} : SwgMove) }; let s : State := s.setSwg (({ id := 0, ring := 63, slot := 0, bytes := dsc [(0, 2, 0x0341)] } : Desc).op 32 1) { (s.swg (({ id := 0, ring := 63, slot := 0, bytes := dsc [(0, 2, 0x0341)] } : Desc).op 32 1)) with halt := none }; s), 63, ({ id := 0, ring := 63, slot := 0, bytes := dsc [(0, 2, 0x0341)] } : Desc), ({} : SwgMove), by decide +kernel⟩,
   ⟨(let s : State := .reset; let s : State := { s with hif.desc := [({ id := 0, ring := 63, slot := 0, bytes := dsc [(0, 2, 0x0342)] } : Desc)] }; let s : State := s.setSwg (({ id := 0, ring := 63, slot := 0, bytes := dsc [(0, 2, 0x0342)] } : Desc).op 32 1) { (s.swg (({ id := 0, ring := 63, slot := 0, bytes := dsc [(0, 2, 0x0342)] } : Desc).op 32 1)) with move := some ({} : SwgMove) }; s), 63, ({ id := 0, ring := 63, slot := 0, bytes := dsc [(0, 2, 0x0342)] } : Desc), ({} : SwgMove), by decide +kernel⟩,
   ⟨(let s : State := .reset; let s : State := { s with hif.desc := [({ id := 0, ring := 63, slot := 0, bytes := dsc [(0, 2, 0x0342)] } : Desc)] }; let s : State := s.setSwg (({ id := 0, ring := 63, slot := 0, bytes := dsc [(0, 2, 0x0342)] } : Desc).op 32 1) { (s.swg (({ id := 0, ring := 63, slot := 0, bytes := dsc [(0, 2, 0x0342)] } : Desc).op 32 1)) with move := none }; let s : State := s.setSwg (({ id := 0, ring := 63, slot := 0, bytes := dsc [(0, 2, 0x0342)] } : Desc).op 32 1) { (s.swg (({ id := 0, ring := 63, slot := 0, bytes := dsc [(0, 2, 0x0342)] } : Desc).op 32 1)) with kept := none }; s), 63, ({ id := 0, ring := 63, slot := 0, bytes := dsc [(0, 2, 0x0342)] } : Desc), by decide +kernel⟩,
   ⟨(let s : State := .reset; let s : State := { s with hif.desc := [({ id := 0, ring := 63, slot := 0, bytes := dsc [(0, 2, 0x0342), (32, 1, 15)] } : Desc)] }; let s : State := s.setSwg (({ id := 0, ring := 63, slot := 0, bytes := dsc [(0, 2, 0x0342), (32, 1, 15)] } : Desc).op 32 1) { (s.swg (({ id := 0, ring := 63, slot := 0, bytes := dsc [(0, 2, 0x0342), (32, 1, 15)] } : Desc).op 32 1)) with move := none }; let s : State := s.setSwg (({ id := 0, ring := 63, slot := 0, bytes := dsc [(0, 2, 0x0342), (32, 1, 15)] } : Desc).op 32 1) { (s.swg (({ id := 0, ring := 63, slot := 0, bytes := dsc [(0, 2, 0x0342), (32, 1, 15)] } : Desc).op 32 1)) with kept := some ({} : SwgMove) }; let s : State := s.wr F.SWG_CH_CTL_enable 1 15; s), 63, ({ id := 0, ring := 63, slot := 0, bytes := dsc [(0, 2, 0x0342), (32, 1, 15)] } : Desc), ({} : SwgMove), by decide +kernel⟩,
   ⟨(let s : State := .reset; let s : State := { s with hif.desc := [({ id := 0, ring := 63, slot := 0, bytes := dsc [(0, 2, 0x0343), (32, 1, 15)] } : Desc)] }; let s : State := s.setSwg (({ id := 0, ring := 63, slot := 0, bytes := dsc [(0, 2, 0x0343), (32, 1, 15)] } : Desc).op 32 1) { (s.swg (({ id := 0, ring := 63, slot := 0, bytes := dsc [(0, 2, 0x0343), (32, 1, 15)] } : Desc).op 32 1)) with move := none }; let s : State := s.wr F.SWG_CH_CTL_enable (1) (({ id := 0, ring := 63, slot := 0, bytes := dsc [(0, 2, 0x0343), (32, 1, 15)] } : Desc).op 32 1); let s : State := s.wr F.SWG_CH_STAT_limit_chatter (0) (({ id := 0, ring := 63, slot := 0, bytes := dsc [(0, 2, 0x0343), (32, 1, 15)] } : Desc).op 32 1); let s : State := s.wr F.SWG_CH_STAT_lim_pos (0) (({ id := 0, ring := 63, slot := 0, bytes := dsc [(0, 2, 0x0343), (32, 1, 15)] } : Desc).op 32 1); let s : State := s.wr F.SWG_CH_STAT_lim_neg (0) (({ id := 0, ring := 63, slot := 0, bytes := dsc [(0, 2, 0x0343), (32, 1, 15)] } : Desc).op 32 1); s), 63, ({ id := 0, ring := 63, slot := 0, bytes := dsc [(0, 2, 0x0343), (32, 1, 15)] } : Desc), by decide +kernel⟩,
   ⟨(let s : State := .reset; let s : State := { s with hif.desc := [({ id := 0, ring := 63, slot := 0, bytes := dsc [(0, 2, 0x0344), (32, 1, 15), (36, 4, 1), (40, 4, 1), (44, 4, 0)] } : Desc)] }; s), 63, ({ id := 0, ring := 63, slot := 0, bytes := dsc [(0, 2, 0x0344), (32, 1, 15), (36, 4, 1), (40, 4, 1), (44, 4, 0)] } : Desc), by decide +kernel⟩,
   ⟨(let s : State := .reset; let s : State := s.setSwg 15 { (s.swg 15) with move := some ({} : SwgMove) }; let s : State := s.setSwg 15 { (s.swg 15) with halt := none }; s), 15, ({} : SwgMove), by decide +kernel⟩,
   ⟨(let s : State := .reset; let s : State := s.setSwg 15 { (s.swg 15) with move := none }; s), 15, by decide +kernel⟩,
   ⟨(let s : State := .reset; let s : State := s.wr F.SWG_CH_CTL_enable (0) 15; let s : State := s.setSwg 15 { (s.swg 15) with move := none }; s), 15, by decide +kernel⟩⟩

theorem witness_SwageOperations_b :
    (∃ (s : State) (c : Fin 16) (m : SwgMove), ((s.swg c).move = some m) ∧ (m.home = some .settle) ∧ ((s.swg c).halt = none))
    ∧ (∃ (s : State) (c : Fin 16), ((s.swg c).move = none) ∧ (s.swgOff c = false))
    ∧ (∃ (s : State) (c : Fin 16), ((s.swg c).move ≠ none ∨ s.swgOff c = true)) :=
  ⟨⟨(let s : State := .reset; let s : State := s.setSwg 15 { (s.swg 15) with move := some ({ home := some .settle } : SwgMove) }; let s : State := s.setSwg 15 { (s.swg 15) with halt := none }; s), 15, ({ home := some .settle } : SwgMove), by decide +kernel⟩,
   ⟨(let s : State := .reset; let s : State := s.setSwg 15 { (s.swg 15) with move := none }; let s : State := s.wr F.SWG_CH_CTL_enable 1 15; s), 15, by decide +kernel⟩,
   ⟨(let s : State := .reset; s), 15, by decide +kernel⟩⟩

end Sys2Proof.Machine
end

