-- ==== Sys2Proof/Tests/Witness3.lean ====
section
/-!
SUPPORT. Tests/Witness3.lean: for the obligations from ScheduleCommands to PairCommands, a state and operands that meet the
hypotheses of each clause together.
-/

set_option Elab.async false
set_option linter.unusedVariables false

namespace Sys2Proof.Machine

theorem witness_ScheduleCommands_a :
    (∃ (s : State) (r : Fin 64) (io : HostIo) (d : Desc), (s.Starts r 0x0501 d) ∧ (io.bodyErr = false) ∧ (bitAt (d.op 33 1) 0 = false) ∧ (d.op 32 1 < 8) ∧ (s.mode = 2) ∧ (s.on F.CMB_SEG_STAT_stopped (d.op 32 1) = true) ∧ ((s.startDesc d).schedCheck (d.op 32 1) false io.body = none))
    ∧ (∃ (s : State) (r : Fin 64) (io : HostIo) (d : Desc), (s.Starts r 0x0501 d) ∧ (io.bodyErr = false) ∧ (bitAt (d.op 33 1) 0 = true) ∧ (d.op 32 1 < 8) ∧ (s.mode = 2 ∨ s.mode = 3) ∧ ((s.seg (d.op 32 1)).sched ≠ none) ∧ ((s.startDesc d).schedCheck (d.op 32 1) true io.body = none))
    ∧ (∃ (s : State) (r : Fin 64) (io : HostIo) (d : Desc) (k : Nat) (i : Nat), (s.Starts r 0x0501 d) ∧ (io.bodyErr = false) ∧ (bitAt (d.op 33 1) 0 = false) ∧ (s.mode = 2) ∧ (s.on F.CMB_SEG_STAT_stopped (d.op 32 1) = true) ∧ (d.op 32 1 < 8) ∧ ((s.startDesc d).schedCheck (d.op 32 1) false io.body = some (k, i)))
    ∧ (∃ (s : State) (r : Fin 64) (io : HostIo) (d : Desc), (s.Starts r 0x0501 d) ∧ (io.bodyErr = false) ∧ (bitAt (d.op 33 1) 0 = false) ∧ (s.mode ≠ 2))
    ∧ (∃ (s : State) (g : Fin 8) (b : List Byte), ((s.seg g).stagedSched = some b) ∧ ((s.seg g).strobed = true) ∧ (s.takesEvent (49 + 2 * g)))
    ∧ (∃ (s : State) (g : Fin 8), ((s.seg g).stagedSched = none ∨ (s.seg g).strobed = false))
    ∧ (∃ (s : State) (m : Master) (g : Fin 8), (s.privileged m = true) ∧ (s.on F.CMB_SEG_STAT_stopped g = true) ∧ (s.mayEnable g = true))
    ∧ (∃ (s : State) (m : Master) (g : Fin 8), (s.privileged m = true) ∧ (s.on F.CMB_SEG_STAT_stopped g = true) ∧ (s.mayEnable g = false))
    ∧ (∃ (s : State) (m : Master) (g : Fin 8), (s.privileged m = false))
    ∧ (∃ (s : State) (m : Master) (g : Fin 8), (s.privileged m = true) ∧ (s.on F.CMB_SEG_STAT_stopped g = false) ∧ (s.running = true))
    ∧ (∃ (s : State) (m : Master) (g : Fin 8), (s.privileged m = true) ∧ (s.on F.CMB_SEG_STAT_stopped g = false) ∧ (s.running = false))
    ∧ (∃ (s : State), (s.running = false)) :=
  ⟨⟨(let s : State := .reset; let s : State := { s with hif.desc := [({ id := 0, ring := 63, slot := 0, bytes := dsc [(0, 2, 0x0501), (32, 1, 0)] } : Desc)] }; let s : State := s.wr F.GLB_STAT_mode (2); let s : State := s.wr F.CMB_SEG_STAT_stopped (1) (({ id := 0, ring := 63, slot := 0, bytes := dsc [(0, 2, 0x0501), (32, 1, 0)] } : Desc).op 32 1); let s : State := s.wr F.TIM_CYCLE_ns 1000000; s), 63, ({ body := schedBody, bodyErr := false } : HostIo), ({ id := 0, ring := 63, slot := 0, bytes := dsc [(0, 2, 0x0501), (32, 1, 0)] } : Desc), by decide +kernel⟩,
   ⟨(let s : State := .reset; let s : State := { s with hif.desc := [({ id := 0, ring := 63, slot := 0, bytes := dsc [(0, 2, 0x0501), (32, 1, 0), (33, 1, 1)] } : Desc)] }; let s : State := s.wr F.GLB_STAT_mode (2); let s : State := s.wr F.TIM_CYCLE_ns 1000000; let s : State := s.setSeg 0 { (s.seg 0) with sched := some schedBody }; s), 63, ({ body := schedBody, bodyErr := false } : HostIo), ({ id := 0, ring := 63, slot := 0, bytes := dsc [(0, 2, 0x0501), (32, 1, 0), (33, 1, 1)] } : Desc), by decide +kernel⟩,
   ⟨(let s : State := .reset; let s : State := { s with hif.desc := [({ id := 0, ring := 63, slot := 0, bytes := dsc [(0, 2, 0x0501), (32, 1, 7)] } : Desc)] }; let s : State := s.wr F.GLB_STAT_mode (2); let s : State := s.wr F.CMB_SEG_STAT_stopped (1) (({ id := 0, ring := 63, slot := 0, bytes := dsc [(0, 2, 0x0501), (32, 1, 7)] } : Desc).op 32 1); s), 63, ({ bodyErr := false } : HostIo), ({ id := 0, ring := 63, slot := 0, bytes := dsc [(0, 2, 0x0501), (32, 1, 7)] } : Desc), 1, 65535, by decide +kernel⟩,
   ⟨(let s : State := .reset; let s : State := { s with hif.desc := [({ id := 0, ring := 63, slot := 0, bytes := dsc [(0, 2, 0x0501)] } : Desc)] }; let s : State := s.wr F.GLB_STAT_mode (0); s), 63, ({ bodyErr := false } : HostIo), ({ id := 0, ring := 63, slot := 0, bytes := dsc [(0, 2, 0x0501)] } : Desc), by decide +kernel⟩,
   ⟨(let s : State := .reset; let s : State := s.setSeg 7 { (s.seg 7) with stagedSched := some [] }; let s : State := s.setSeg 7 { (s.seg 7) with strobed := true }; let s : State := s.wr F.HIF_EVT_MAP_enable (1) (49 + 2 * 7); s), 7, [], by decide +kernel⟩,
   ⟨(let s : State := .reset; let s : State := s.setSeg 7 { (s.seg 7) with stagedSched := none }; s), 7, by decide +kernel⟩,
   ⟨(let s : State := .reset; let s : State := s.wr F.CMB_SEG_STAT_stopped (1) 7; let s : State := s.setSeg 7 { (s.seg 7) with sched := some kindleBody }; let s : State := s.wr F.CMB_SYNC_CFG_timing 1 7; s), .farrier, 7, by decide +kernel⟩,
   ⟨(let s : State := .reset; let s : State := s.wr F.CMB_SEG_STAT_stopped (1) 7; s), .farrier, 7, by decide +kernel⟩,
   ⟨(let s : State := .reset; s), .engine, 7, by decide +kernel⟩,
   ⟨(let s : State := .reset; let s : State := s.wr F.CMB_SEG_STAT_stopped (0) 7; let s : State := s.wr F.GLB_STAT_cycle_run (1); s), .farrier, 7, by decide +kernel⟩,
   ⟨(let s : State := .reset; let s : State := s.wr F.CMB_SEG_STAT_stopped (0) 7; let s : State := s.wr F.GLB_STAT_cycle_run (0); s), .farrier, 7, by decide +kernel⟩,
   ⟨(let s : State := .reset; let s : State := s.wr F.GLB_STAT_cycle_run (0); s), by decide +kernel⟩⟩

theorem witness_ScheduleCommands_b :
    (∃ (s : State), (s.running = true))
    ∧ (∃ (s : State) (g : Fin 8), (s.running = true) ∧ (s.on F.CMB_SEG_STAT_stopped g = false)) :=
  ⟨⟨(let s : State := .reset; let s : State := s.wr F.GLB_STAT_cycle_run (1); s), by decide +kernel⟩,
   ⟨(let s : State := .reset; let s : State := s.wr F.GLB_STAT_cycle_run (1); let s : State := s.wr F.CMB_SEG_STAT_stopped (0) 7; s), 7, by decide +kernel⟩⟩

theorem witness_FrameCommands :
    (∃ (s : State) (g : Fin 8) (k : Option (Fin 64)) (a : Option Copy) (b : Option Copy), (s.on F.CMB_SEG_STAT_stopped g = true))
    ∧ (∃ (s : State) (g : Fin 8) (k : Fin 64) (c : Copy), (s.on F.CMB_SEG_STAT_stopped g = false) ∧ (s.cmbState g = 5) ∧ (s.chanOn g false = true) ∧ (s.chanOn g true = false) ∧ (s.checkCopy g (some k.val) false c = 0) ∧ ((Sched.slot (s.sched g) k).owner ≠ s.ownNode g) ∧ (frameFlag c.bytes 2 = false))
    ∧ (∃ (s : State) (g : Fin 8) (k : Fin 64) (c : Copy), (s.on F.CMB_SEG_STAT_stopped g = false) ∧ (s.cmbState g = 5) ∧ (s.chanOn g false = true) ∧ (c.start = false) ∧ ((Sched.slot (s.sched g) k).owner ≠ s.ownNode g) ∧ ((Sched.slot (s.sched g) k).owner ≠ 0) ∧ (k.val < Sched.slots (s.sched g)) ∧ (bitAt (Sched.slot (s.sched g) k).flags 1 = true) ∧ (s.rd F.CMB_THR_errors g = 0) ∧ (s.takesEvent (49 + 2 * g)))
    ∧ (∃ (s : State) (g : Fin 8), (s.on F.CMB_SEG_STAT_stopped g = false) ∧ ((s.seg g).mini < Sched.minis (s.sched g)) ∧ (0 < (s.seg g).occ))
    ∧ (∃ (s : State) (g : Fin 8) (p : List Byte) (l : List (List Byte)), (s.on F.CMB_SEG_STAT_stopped g = false) ∧ (s.cmbState g = 5) ∧ ((s.seg g).mini = 0) ∧ ((s.seg g).occ = 0) ∧ ((s.seg g).mute = false) ∧ (Sched.ownerOf (s.sched g) 64 = some (s.ownNode g)) ∧ (s.opens g false = true) ∧ ((s.seg g).msgs = []) ∧ (lookup (fun _ => []) (s.seg g).posted 64 = p :: l) ∧ (occupancy (s.sched g) p.length ≤ Sched.minis (s.sched g)) ∧ (0 < Sched.minis (s.sched g)))
    ∧ (∃ (s : State) (g : Fin 8) (i : BitVec 10) (p : List Byte), (s.mode ≠ 5) ∧ (Sched.ownerOf (s.sched g) i.toNat = some (s.ownNode g)) ∧ ((lookup (fun _ => []) (s.seg g).posted i.toNat).length < 4) ∧ (p.length ≤ 254))
    ∧ (∃ (s : State) (g : Fin 8) (i : BitVec 10) (p : List Byte), (s.mode = 5 ∨ Sched.ownerOf (s.sched g) i.toNat ≠ some (s.ownNode g) ∨ 4 ≤ (lookup (fun _ => []) (s.seg g).posted i.toNat).length))
    ∧ (∃ (s : State) (g : Fin 8) (k : Fin 64), (s.on F.CMB_SEG_STAT_stopped g = false) ∧ (k.val < Sched.slots (s.sched g)) ∧ (s.leadEngines g k = []))
    ∧ (∃ (s : State) (g : Fin 8) (k : Fin 64), (s.on F.CMB_SEG_STAT_stopped g = false) ∧ ((Sched.slot (s.sched g) k).owner = s.ownNode g) ∧ (s.mode = 4) ∧ ((∀ p ∈ Sched.txIdx (s.sched g), p.2.slot = k.val → p.2.kind = 1 → (s.txSlot g k).written.contains p.1 = true)))
    ∧ (∃ (s : State) (g : Fin 8) (k : Fin 64) (p : Nat × Place), (s.on F.CMB_SEG_STAT_stopped g = false) ∧ ((Sched.slot (s.sched g) k).owner = s.ownNode g) ∧ (s.mode = 4) ∧ (p ∈ Sched.txIdx (s.sched g)) ∧ (p.2.slot = k.val) ∧ (p.2.kind = 1) ∧ ((s.txSlot g k).written.contains p.1 = false) ∧ ((s.txSlot g k).null = false))
    ∧ (∃ (s : State) (g : Fin 8) (k : Fin 64), (s.on F.CMB_SEG_STAT_stopped g = false) ∧ (s.cmbState g = 5) ∧ (k.val < Sched.slots (s.sched g)) ∧ ((Sched.slot (s.sched g) k).owner = s.ownNode g) ∧ (s.opens g false = true) ∧ (Sched.syncOf (s.sched g) (s.ownNode g) ≠ some k.val) ∧ ((s.txSlot g k).null = false))
    ∧ (∃ (s : State) (g : Fin 8) (k : Fin 64), (s.opens g false = false) ∧ (s.opens g true = false)) :=
  ⟨⟨(let s : State := .reset; let s : State := s.wr F.CMB_SEG_STAT_stopped (1) 7; s), 7, none, none, none, by decide +kernel⟩,
   ⟨(let s : State := .reset; let s : State := s.wr F.CMB_SEG_STAT_stopped (0) 7; let s : State := s.wr F.CMB_SYNC_STAT_state (5) 7; let s : State := s.setSeg 7 { (s.seg 7) with sched := some kindleBody }; let s : State := s.wr F.CMB_SEG_CTL_chan_a_en 1 7; s), 7, 1, ({ start := true, clean := true, complete := true, action := 323200, done := 0, bytes := frameBytes 1 0 0 (List.replicate 28 0) } : Copy), by decide +kernel⟩,
   ⟨(let s : State := .reset; let s : State := s.wr F.CMB_SEG_STAT_stopped (0) 7; let s : State := s.wr F.CMB_SYNC_STAT_state (5) 7; let s : State := s.wr F.CMB_THR_errors (0) 7; let s : State := s.wr F.HIF_EVT_MAP_enable (1) (49 + 2 * 7); let s : State := s.setSeg 7 { (s.seg 7) with sched := some kindleBody }; let s : State := s.wr F.CMB_SEG_CTL_chan_a_en 1 7; s), 7, 8, ({ start := false, clean := false, complete := false, action := 0, done := 0, bytes := [] } : Copy), by decide +kernel⟩,
   ⟨(let s : State := .reset; let s : State := s.wr F.CMB_SEG_STAT_stopped (0) 7; let s : State := s.setSeg 7 { (s.seg 7) with occ := 1 }; let s : State := s.setSeg 7 { (s.seg 7) with sched := some kindleBody }; let s : State := s.setSeg 7 { (s.seg 7) with mini := 79 }; s), 7, by decide +kernel⟩,
   ⟨(let s : State := .reset; let s : State := s.wr F.CMB_SEG_STAT_stopped (0) 7; let s : State := s.wr F.CMB_SYNC_STAT_state (5) 7; let s : State := s.setSeg 7 { (s.seg 7) with mini := 0 }; let s : State := s.setSeg 7 { (s.seg 7) with occ := 0 }; let s : State := s.setSeg 7 { (s.seg 7) with mute := false }; let s : State := s.setSeg 7 { (s.seg 7) with msgs := [] }; let s : State := s.setSeg 7 { (s.seg 7) with sched := some kindleBody }; let s : State := s.wr F.CMB_SEG_CTL_chan_a_en 1 7; let s : State := s.wr F.CMB_GRD_STAT_closed_a 0 7; let s : State := s.setSeg 7 { (s.seg 7) with posted := [(64, [[0]])] }; s), 7, [0], [], by decide +kernel⟩,
   ⟨(let s : State := .reset; let s : State := s.wr F.GLB_STAT_mode (0); let s : State := s.setSeg 7 { (s.seg 7) with sched := some kindleBody }; s), 7, 64, (List.replicate 254 0), by decide +kernel⟩,
   ⟨(let s : State := .reset; let s : State := s.wr F.GLB_STAT_mode (5); s), 7, 0, [], by decide +kernel⟩,
   ⟨(let s : State := .reset; let s : State := s.wr F.CMB_SEG_STAT_stopped (0) 7; let s : State := s.setSeg 7 { (s.seg 7) with sched := some kindleBody }; s), 7, 8, by decide +kernel⟩,
   ⟨(let s : State := .reset; let s : State := s.wr F.CMB_SEG_STAT_stopped (0) 7; let s : State := s.wr F.GLB_STAT_mode (4); s), 7, 63, by decide +kernel⟩,
   ⟨(let s : State := .reset; let s : State := s.setSeg 7 { (s.seg 7) with sched := some kindleBody }; let s : State := s.wr F.CMB_SEG_STAT_stopped (0) 7; let s : State := s.wr F.GLB_STAT_mode (4); let s : State := s.setTxSlot 7 15 { (s.txSlot 7 15) with null := false }; s), 7, 15, (0, { slot := 15, kind := 1, eng := 0, b3 := 0, off := 0, len := 2, arg := 0 }), by decide +kernel⟩,
   ⟨(let s : State := .reset; let s : State := s.setSeg 7 { (s.seg 7) with sched := some kindleBody }; let s : State := s.wr F.CMB_SEG_STAT_stopped (0) 7; let s : State := s.wr F.CMB_SYNC_STAT_state (5) 7; let s : State := s.setTxSlot 7 15 { (s.txSlot 7 15) with null := false }; let s : State := s.wr F.CMB_SEG_CTL_chan_a_en 1 7; let s : State := s.wr F.CMB_GRD_STAT_closed_a 0 7; s), 7, 15, by decide +kernel⟩,
   ⟨(let s : State := .reset; s), 7, 63, by decide +kernel⟩⟩

theorem witness_SyncCommands_a :
    (∃ (s : State) (g : Fin 8), (s.cmbState g = 1) ∧ (s.capable g = true) ∧ (s.takesEvent (48 + 2 * g)))
    ∧ (∃ (s : State) (g : Fin 8), (s.cmbState g ≠ 1 ∨ s.capable g = false))
    ∧ (∃ (s : State) (g : Fin 8), (s.cmbState g = 2) ∧ (4 ≤ (s.seg g).cycles))
    ∧ (∃ (s : State) (g : Fin 8), (s.cmbState g ≠ 2 ∨ (s.seg g).cycles < 4))
    ∧ (∃ (s : State) (g : Fin 8), (s.cmbState g = 3) ∧ (s.capable g = true) ∧ (s.takesEvent (48 + 2 * g)))
    ∧ (∃ (s : State) (g : Fin 8) (m : CmbIn), ((s.seg g).inbox = [m]) ∧ (byteAt m.payload 0 = 0xE2) ∧ (s.cmbState g = 4) ∧ (byteAt m.payload 1 = s.rd F.CMB_SYNC_STAT_master g) ∧ ((s.seg g).timed = false))
    ∧ (∃ (s : State) (g : Fin 8), ((∀ m ∈ (s.seg g).inbox, byteAt m.payload 0 < 0xE0)))
    ∧ (∃ (s : State) (g : Fin 8) (m : CmbIn) (i : Nat), ((s.seg g).inbox = [m]) ∧ (byteAt m.payload 0 = 0xE0) ∧ (s.cmbState g = 5) ∧ (s.on F.CMB_SYNC_STAT_master_self g = true) ∧ (byteAt m.payload 2 = s.ownNode g) ∧ (s.msgId g = some i))
    ∧ (∃ (s : State) (g : Fin 8) (m : CmbIn) (t4 : Nat) (d : Int), ((s.seg g).inbox = [m]) ∧ (byteAt m.payload 0 = 0xE1) ∧ (s.cmbState g = 4) ∧ (byteAt m.payload 1 = s.ownNode g) ∧ (m.atA = some t4) ∧ (m.atB = none) ∧ (field m.payload 16 8 ≠ noTime) ∧ (d = (cellDiff t4 (field m.payload 8 8) - cellDiff (field m.payload 32 8) (field m.payload 16 8)) / 2) ∧ (0 ≤ d) ∧ (d ≤ 3200))
    ∧ (∃ (s : State) (g : Fin 8) (raw : Int) (e : Int) (k : Nat), (s.cmbState g = 4) ∧ ((s.seg g).ready = true) ∧ (s.running = true) ∧ ((s.seg g).masterLast = some (false, raw, e)) ∧ (s.masterSlot g = some k) ∧ (-2400 ≤ raw - ((s.seg g).delayA.or (s.seg g).delayB).getD 0) ∧ (raw - ((s.seg g).delayA.or (s.seg g).delayB).getD 0 ≤ 2400) ∧ (-150 ≤ cellDiff ((s.seg g).timeNs % 2 ^ 64) s.tim.lastInstant) ∧ (cellDiff ((s.seg g).timeNs % 2 ^ 64) s.tim.lastInstant ≤ 150) ∧ (s.takesEvent (48 + 2 * g)))
    ∧ (∃ (s : State) (g : Fin 8), (s.cmbState g ≠ 4 ∨ (s.seg g).ready = false))
    ∧ (∃ (s : State) (g : Fin 8), (s.cmbState g = 4) ∧ (s.rd F.CMB_SYNC_CFG_integ_limit g ≤ (s.seg g).cycles) ∧ (s.takesEvent (48 + 2 * g))) :=
  ⟨⟨(let s : State := .reset; let s : State := s.wr F.CMB_SYNC_STAT_state (1) 7; let s : State := s.wr F.HIF_EVT_MAP_enable (1) (48 + 2 * 7); let s : State := s.setSeg 7 { (s.seg 7) with sched := some kindleBody }; let s : State := s.wr F.CMB_SYNC_CFG_coldstart_en 1 7; s), 7, by decide +kernel⟩,
   ⟨(let s : State := .reset; let s : State := s.wr F.CMB_SYNC_STAT_state (0) 7; s), 7, by decide +kernel⟩,
   ⟨(let s : State := .reset; let s : State := s.wr F.CMB_SYNC_STAT_state (2) 7; let s : State := s.setSeg 7 { (s.seg 7) with cycles := 4 }; s), 7, by decide +kernel⟩,
   ⟨(let s : State := .reset; let s : State := s.wr F.CMB_SYNC_STAT_state (0) 7; s), 7, by decide +kernel⟩,
   ⟨(let s : State := .reset; let s : State := s.wr F.CMB_SYNC_STAT_state (3) 7; let s : State := s.wr F.HIF_EVT_MAP_enable (1) (48 + 2 * 7); let s : State := s.setSeg 7 { (s.seg 7) with sched := some kindleBody }; let s : State := s.wr F.CMB_SYNC_CFG_coldstart_en 1 7; s), 7, by decide +kernel⟩,
   ⟨(let s : State := .reset; let s : State := s.setSeg 7 { (s.seg 7) with inbox := [({ payload := [0xE2, 0], atA := none, atB := none } : CmbIn)] }; let s : State := s.wr F.CMB_SYNC_STAT_state (4) 7; let s : State := s.setSeg 7 { (s.seg 7) with timed := false }; s), 7, ({ payload := [0xE2, 0], atA := none, atB := none } : CmbIn), by decide +kernel⟩,
   ⟨(let s : State := .reset; s), 7, by decide +kernel⟩,
   ⟨(let s : State := .reset; let s : State := s.setSeg 7 { (s.seg 7) with inbox := [({ payload := [0xE0, 0, 1], atA := none, atB := none } : CmbIn)] }; let s : State := s.wr F.CMB_SYNC_STAT_state (5) 7; let s : State := s.wr F.CMB_SYNC_STAT_master_self (1) 7; let s : State := s.setSeg 7 { (s.seg 7) with sched := some kindleBody }; s), 7, ({ payload := [0xE0, 0, 1], atA := none, atB := none } : CmbIn), 64, by decide +kernel⟩,
   ⟨(let s : State := .reset; let s : State := s.setSeg 7 { (s.seg 7) with inbox := [({ payload := bytesOf 40 [(0, 1, 0xE1), (1, 1, 1), (32, 8, 2 ^ 64 - 6400)], atA := some 0, atB := none } : CmbIn)] }; let s : State := s.wr F.CMB_SYNC_STAT_state (4) 7; let s : State := s.setSeg 7 { (s.seg 7) with sched := some kindleBody }; s), 7, ({ payload := bytesOf 40 [(0, 1, 0xE1), (1, 1, 1), (32, 8, 2 ^ 64 - 6400)], atA := some 0, atB := none } : CmbIn), 0, 3200, by decide +kernel⟩,
   ⟨(let s : State := .reset; let s : State := s.wr F.CMB_SYNC_STAT_state (4) 7; let s : State := s.setSeg 7 { (s.seg 7) with ready := true }; let s : State := s.wr F.GLB_STAT_cycle_run (1); let s : State := s.setSeg 7 { (s.seg 7) with masterLast := some (false, 0, 0) }; let s : State := s.wr F.HIF_EVT_MAP_enable (1) (48 + 2 * 7); let s : State := s.setSeg 7 { (s.seg 7) with sched := some kindleBody }; let s : State := s.wr F.CMB_SYNC_STAT_master 1 7; s), 7, 0, 0, 0, by decide +kernel⟩,
   ⟨(let s : State := .reset; let s : State := s.wr F.CMB_SYNC_STAT_state (0) 7; s), 7, by decide +kernel⟩,
   ⟨(let s : State := .reset; let s : State := s.wr F.CMB_SYNC_STAT_state (4) 7; let s : State := s.wr F.HIF_EVT_MAP_enable (1) (48 + 2 * 7); let s : State := s.wr F.CMB_SYNC_CFG_integ_limit 0 7; s), 7, by decide +kernel⟩⟩

theorem witness_SyncCommands_b :
    (∃ (s : State) (g : Fin 8), (s.cmbState g = 6) ∧ (s.rd F.CMB_SYNC_CFG_integ_limit g ≤ (s.seg g).cycles))
    ∧ (∃ (s : State) (g : Fin 8) (b : Bool) (raw : Int) (e : Int), (s.cmbState g = 5) ∧ (s.on F.CMB_SYNC_STAT_master_self g = false) ∧ ((s.seg g).master = some (b, raw, e)) ∧ (-2400 ≤ e) ∧ (e ≤ 2400))
    ∧ (∃ (s : State) (g : Fin 8) (b : Bool) (raw : Int) (e : Int), (s.cmbState g = 5) ∧ (s.on F.CMB_SYNC_STAT_master_self g = false) ∧ ((s.seg g).master = some (b, raw, e)) ∧ (e < -2400 ∨ 2400 < e) ∧ (s.takesEvent (48 + 2 * g)))
    ∧ (∃ (s : State) (g : Fin 8), (s.cmbState g = 6) ∧ (8 ≤ (s.seg g).good) ∧ (s.takesEvent (48 + 2 * g)))
    ∧ (∃ (s : State) (g : Fin 8), (s.cmbState g ≠ 6 ∨ (s.seg g).good < 8))
    ∧ (∃ (s : State) (g : Fin 8) (k : Nat), (s.cmbState g = 5) ∧ (4 ≤ (s.seg g).noMaster) ∧ ((s.seg g).syncLast = [k]) ∧ ((Sched.slot (s.sched g) k).owner ≠ s.rd F.CMB_SYNC_STAT_master g) ∧ (s.isTiming g = false) ∧ (s.takesEvent (48 + 2 * g)))
    ∧ (∃ (s : State) (g : Fin 8), (4 ≤ s.cmbState g) ∧ (16 ≤ (s.seg g).noSync))
    ∧ (∃ (s : State) (g : Fin 8) (n : Fin 32), ((s.seg g).silent.contains (n.val, some 16) = true) ∧ (s.takesEvent (48 + 2 * g))) :=
  ⟨⟨(let s : State := .reset; let s : State := s.wr F.CMB_SYNC_STAT_state (6) 7; let s : State := s.wr F.CMB_SYNC_CFG_integ_limit 0 7; s), 7, by decide +kernel⟩,
   ⟨(let s : State := .reset; let s : State := s.wr F.CMB_SYNC_STAT_state (5) 7; let s : State := s.wr F.CMB_SYNC_STAT_master_self (0) 7; let s : State := s.setSeg 7 { (s.seg 7) with master := some (false, 0, 2400) }; s), 7, false, 0, 2400, by decide +kernel⟩,
   ⟨(let s : State := .reset; let s : State := s.wr F.CMB_SYNC_STAT_state (5) 7; let s : State := s.wr F.CMB_SYNC_STAT_master_self (0) 7; let s : State := s.setSeg 7 { (s.seg 7) with master := some (false, 0, (-2401)) }; let s : State := s.wr F.HIF_EVT_MAP_enable (1) (48 + 2 * 7); s), 7, false, 0, -2401, by decide +kernel⟩,
   ⟨(let s : State := .reset; let s : State := s.wr F.CMB_SYNC_STAT_state (6) 7; let s : State := s.setSeg 7 { (s.seg 7) with good := 8 }; let s : State := s.wr F.HIF_EVT_MAP_enable (1) (48 + 2 * 7); s), 7, by decide +kernel⟩,
   ⟨(let s : State := .reset; let s : State := s.wr F.CMB_SYNC_STAT_state (0) 7; s), 7, by decide +kernel⟩,
   ⟨(let s : State := .reset; let s : State := s.wr F.CMB_SYNC_STAT_state (5) 7; let s : State := s.setSeg 7 { (s.seg 7) with noMaster := 4 }; let s : State := s.setSeg 7 { (s.seg 7) with syncLast := [1] }; let s : State := s.wr F.HIF_EVT_MAP_enable (1) (48 + 2 * 7); let s : State := s.setSeg 7 { (s.seg 7) with sched := some kindleBody }; s), 7, 1, by decide +kernel⟩,
   ⟨(let s : State := .reset; let s : State := s.wr F.CMB_SYNC_STAT_state (4) 7; let s : State := s.setSeg 7 { (s.seg 7) with noSync := 16 }; s), 7, by decide +kernel⟩,
   ⟨(let s : State := .reset; let s : State := s.wr F.HIF_EVT_MAP_enable (1) (48 + 2 * 7); let s : State := s.setSeg 7 { (s.seg 7) with silent := [(31, some 16)] }; s), 7, 31, by decide +kernel⟩⟩

theorem witness_GuardAndWaggle :
    (∃ (s : State) (g : Fin 8) (k : Option (Fin 64)), (s.takesEvent (48 + 2 * g)))
    ∧ (∃ (s : State) (g : Fin 8) (b : Bool) (d : Word), (s.cmbState g ≠ 0) ∧ (d.toInt < -100 ∨ 100 < d.toInt) ∧ (s.guardClosed g b = false) ∧ (s.takesEvent (48 + 2 * g)))
    ∧ (∃ (s : State) (g : Fin 8) (b : Bool) (d : Word), (-100 ≤ d.toInt) ∧ (d.toInt ≤ 100) ∧ (s.guardClosed g b = false))
    ∧ (∃ (s : State) (g : Fin 8), (s.guardClosed g false = false) ∧ (4 ≤ (s.seg g).guardA.missed) ∧ ((s.seg g).guardB.missed < 4))
    ∧ (∃ (s : State) (g : Fin 8), (s.on F.CMB_WGL_STAT_busy g = false) ∧ (s.on F.CMB_WGL_CTL_mode g = false) ∧ (s.cmbState g = 5) ∧ (Sched.mode (s.sched g) ≠ 1) ∧ (Sched.ownerOf (s.sched g) (s.rd F.CMB_WGL_STAT_ident g) = some (s.ownNode g)))
    ∧ (∃ (s : State) (g : Fin 8), (s.on F.CMB_WGL_STAT_busy g = true))
    ∧ (∃ (s : State) (g : Fin 8), (s.on F.CMB_WGL_STAT_busy g = true) ∧ ((s.seg g).wag.ending = none))
    ∧ (∃ (s : State) (g : Fin 8) (c : BitVec 16) (neg : Bool), (s.on F.CMB_WGL_STAT_busy g = true) ∧ (s.on F.CMB_WGL_CTL_mode g = true) ∧ ((s.seg g).wag = {}) ∧ (10 * s.rd F.CMB_WGL_STAT_blank g ≤ c.toNat))
    ∧ (∃ (s : State) (g : Fin 8), (s.on F.CMB_WGL_STAT_busy g = true) ∧ ((s.seg g).wag.ending = some 1) ∧ (s.takesEvent (49 + 2 * g)))
    ∧ (∃ (s : State) (g : Fin 8), (s.on F.CMB_WGL_STAT_busy g = false)) :=
  ⟨⟨(let s : State := .reset; let s : State := s.wr F.HIF_EVT_MAP_enable (1) (48 + 2 * 7); s), 7, none, by decide +kernel⟩,
   ⟨(let s : State := .reset; let s : State := s.wr F.CMB_SYNC_STAT_state (1) 7; let s : State := s.wr F.HIF_EVT_MAP_enable (1) (48 + 2 * 7); let s : State := s.wr F.CMB_SYNC_STAT_state 1 7; let s : State := s.wr F.CMB_GRD_STAT_closed_a 0 7; s), 7, false, (BitVec.ofInt 32 (-101)), by decide +kernel⟩,
   ⟨(let s : State := .reset; let s : State := s.wr F.CMB_GRD_STAT_closed_a 0 7; s), 7, false, (BitVec.ofInt 32 (-100)), by decide +kernel⟩,
   ⟨(let s : State := .reset; let s : State := s.setSeg 7 { (s.seg 7) with guardA := { (s.seg 7).guardA with missed := 4 } }; let s : State := s.setSeg 7 { (s.seg 7) with guardB := { (s.seg 7).guardB with missed := 3 } }; let s : State := s.wr F.CMB_GRD_STAT_closed_a 0 7; s), 7, by decide +kernel⟩,
   ⟨(let s : State := .reset; let s : State := s.wr F.CMB_WGL_STAT_busy (0) 7; let s : State := s.wr F.CMB_WGL_CTL_mode (0) 7; let s : State := s.wr F.CMB_SYNC_STAT_state (5) 7; let s : State := s.setSeg 7 { (s.seg 7) with sched := some kindleBody }; let s : State := s.wr F.CMB_WGL_STAT_ident 64 7; s), 7, by decide +kernel⟩,
   ⟨(let s : State := .reset; let s : State := s.wr F.CMB_WGL_STAT_busy (1) 7; s), 7, by decide +kernel⟩,
   ⟨(let s : State := .reset; let s : State := s.wr F.CMB_WGL_STAT_busy (1) 7; let s : State := s.setSeg 7 { (s.seg 7) with wag := { (s.seg 7).wag with ending := none } }; s), 7, by decide +kernel⟩,
   ⟨(let s : State := .reset; let s : State := s.wr F.CMB_WGL_STAT_busy (1) 7; let s : State := s.wr F.CMB_WGL_CTL_mode (1) 7; let s : State := s.setSeg 7 { (s.seg 7) with wag := {} }; s), 7, 0xFFFF, false, by decide +kernel⟩,
   ⟨(let s : State := .reset; let s : State := s.wr F.CMB_WGL_STAT_busy (1) 7; let s : State := s.setSeg 7 { (s.seg 7) with wag := { (s.seg 7).wag with ending := some 1 } }; let s : State := s.wr F.HIF_EVT_MAP_enable (1) (49 + 2 * 7); s), 7, by decide +kernel⟩,
   ⟨(let s : State := .reset; let s : State := s.wr F.CMB_WGL_STAT_busy (0) 7; s), 7, by decide +kernel⟩⟩

theorem witness_CompareAndCapture_a :
    (∃ (s : State) (u : Fin 32), (2 ≤ u.val) ∧ (s.on F.TIM_CMP_CFG_arm u = false) ∧ (s.cmpDiff u < 0))
    ∧ (∃ (s : State) (u : Fin 32), (2 ≤ u.val) ∧ (s.on F.TIM_CMP_CFG_arm u = false) ∧ (0 ≤ s.cmpDiff u) ∧ (s.rd F.TIM_CMP_PER_period u = 0) ∧ (s.rd F.TIM_CMP_CFG_action u = 0) ∧ (s.takesEvent 69))
    ∧ (∃ (s : State) (u : Fin 32), (u.val < 2 ∨ s.on F.TIM_CMP_CFG_arm u = true))
    ∧ (∃ (s : State) (u : Fin 32), (2 ≤ u.val) ∧ (s.on F.TIM_CMP_CFG_arm u = true) ∧ (s.cmpDiff u < 0))
    ∧ (∃ (s : State) (u : Fin 32), (2 ≤ u.val) ∧ (s.on F.TIM_CMP_CFG_arm u = true) ∧ (0 ≤ s.cmpDiff u) ∧ (s.rd F.TIM_CMP_PER_period u = 0) ∧ (s.rd F.TIM_CMP_CFG_action u = 0))
    ∧ (∃ (s : State) (u : Fin 32), (u.val < 2 ∨ s.on F.TIM_CMP_CFG_arm u = false))
    ∧ (∃ (s : State) (u : Fin 32), (2 ≤ u.val) ∧ (s.on F.TIM_CMP_CFG_arm u = true) ∧ (s.rd F.TIM_CMP_PER_period u = 0) ∧ (s.rd F.TIM_CMP_CFG_action u = 0))
    ∧ (∃ (s : State) (u : Fin 32) (p : Nat), (2 ≤ u.val) ∧ (s.on F.TIM_CMP_CFG_arm u = true) ∧ (s.rd F.TIM_CMP_PER_period u = p) ∧ (100 ≤ p) ∧ (s.rd F.TIM_CMP_CFG_action u = 0) ∧ (cellDiff (s.advanceCell (s.cmpTarget u)).cellNs (uns 64 (s.cmpTarget u + p : Nat)) < 0))
    ∧ (∃ (s : State) (u : Fin 32) (q : Nat), (2 ≤ u.val) ∧ (s.on F.TIM_CMP_CFG_arm u = true) ∧ (s.rd F.TIM_CMP_CFG_action u = 2) ∧ (s.rd F.TIM_CMP_CFG_target u = q) ∧ (q < 2) ∧ (lookup (fun _ => false) s.tim.waked u = false) ∧ (s.on F.ADC_SEQ_CTL_enable q = false))
    ∧ (∃ (s : State) (u : Fin 16) (up : Bool) (te : DWord) (k : Fin 3), (s.on F.TIM_CAP_CFG_enable u = true) ∧ (bitAt (s.rd F.TIM_CAP_CFG_edge u) (if up then 0 else 1) = true) ∧ ((s.capUnit u).queue = []) ∧ ((s.mailbox (128 + u)).st = .empty))
    ∧ (∃ (s : State) (u : Fin 16) (up : Bool) (te : DWord) (k : Fin 3), (s.on F.TIM_CAP_CFG_enable u = true) ∧ (bitAt (s.rd F.TIM_CAP_CFG_edge u) (if up then 0 else 1) = true) ∧ ((s.capUnit u).queue.length < 8) ∧ ((s.mailbox (128 + u)).st ≠ .empty))
    ∧ (∃ (s : State) (u : Fin 16) (up : Bool) (te : DWord) (k : Fin 3), (s.on F.TIM_CAP_CFG_enable u = true) ∧ (bitAt (s.rd F.TIM_CAP_CFG_edge u) (if up then 0 else 1) = true) ∧ (8 ≤ (s.capUnit u).queue.length) ∧ (s.rd F.TIM_CAP_STAT_lost u = 0) ∧ (s.takesEvent 70)) :=
  ⟨⟨(let s : State := .reset; let s : State := s.wr F.TIM_CMP_CFG_arm (0) 2; let s : State := s.wr F.TIM_CMP_T_LO_t 1 2; s), 2, by decide +kernel⟩,
   ⟨(let s : State := .reset; let s : State := s.wr F.TIM_CMP_CFG_arm (0) 2; let s : State := s.wr F.TIM_CMP_PER_period (0) 2; let s : State := s.wr F.TIM_CMP_CFG_action (0) 2; let s : State := s.wr F.HIF_EVT_MAP_enable (1) 69; s), 2, by decide +kernel⟩,
   ⟨(let s : State := .reset; s), 1, by decide +kernel⟩,
   ⟨(let s : State := .reset; let s : State := s.wr F.TIM_CMP_CFG_arm (1) 2; let s : State := s.wr F.TIM_CMP_T_LO_t 1 2; s), 2, by decide +kernel⟩,
   ⟨(let s : State := .reset; let s : State := s.wr F.TIM_CMP_CFG_arm (1) 2; let s : State := s.wr F.TIM_CMP_PER_period (0) 2; let s : State := s.wr F.TIM_CMP_CFG_action (0) 2; s), 2, by decide +kernel⟩,
   ⟨(let s : State := .reset; s), 1, by decide +kernel⟩,
   ⟨(let s : State := .reset; let s : State := s.wr F.TIM_CMP_CFG_arm (1) 2; let s : State := s.wr F.TIM_CMP_PER_period (0) 2; let s : State := s.wr F.TIM_CMP_CFG_action (0) 2; s), 2, by decide +kernel⟩,
   ⟨(let s : State := .reset; let s : State := s.wr F.TIM_CMP_CFG_arm (1) 2; let s : State := s.wr F.TIM_CMP_PER_period (100) 2; let s : State := s.wr F.TIM_CMP_CFG_action (0) 2; s), 2, 100, by decide +kernel⟩,
   ⟨(let s : State := .reset; let s : State := s.wr F.TIM_CMP_CFG_arm (1) 2; let s : State := s.wr F.TIM_CMP_CFG_action (2) 2; let s : State := s.wr F.TIM_CMP_CFG_target (1) 2; let s : State := s.wr F.ADC_SEQ_CTL_enable (0) 1; s), 2, 1, by decide +kernel⟩,
   ⟨(let s : State := .reset; let s : State := s.wr F.TIM_CAP_CFG_enable 1 15; let s : State := s.wr F.TIM_CAP_CFG_edge 2 15; s), 15, false, 0, 2, by decide +kernel⟩,
   ⟨(let s : State := .reset; let s : State := s.wr F.TIM_CAP_CFG_enable 1 15; let s : State := s.wr F.TIM_CAP_CFG_edge 2 15; let s : State := s.setMailbox 143 { (s.mailbox 143) with st := .fresh }; s), 15, false, 0, 2, by decide +kernel⟩,
   ⟨(let s : State := .reset; let s : State := s.wr F.TIM_CAP_CFG_enable 1 15; let s : State := s.wr F.TIM_CAP_CFG_edge 2 15; let s : State := s.wr F.HIF_EVT_MAP_enable 1 70; let s : State := s.setCapUnit 15 { (s.capUnit 15) with queue := List.replicate 8 cap0 }; s), 15, false, 0, 2, by decide +kernel⟩⟩

theorem witness_CompareAndCapture_b :
    (∃ (s : State) (u : Fin 16) (up : Bool) (te : DWord) (k : Fin 3), (s.on F.TIM_CAP_CFG_enable u = false))
    ∧ (∃ (s : State) (m : Master) (v : Word), (s.privileged m = true) ∧ (62500 ≤ v.toNat) ∧ (v.toNat ≤ 4000000) ∧ (v.toNat % 25 = 0) ∧ ((∀ g, g < 8 → s.on F.CMB_SEG_STAT_stopped g = true)))
    ∧ (∃ (s : State) (m : Master) (v : Word) (g : Fin 8), (s.privileged m = true) ∧ (s.on F.CMB_SEG_STAT_stopped g = false))
    ∧ (∃ (s : State) (p : Fin 4) (e : Nat), (lookup (fun _ => none) s.tim.pulse p = some e))
    ∧ (∃ (s : State) (p : Fin 4), (lookup (fun _ => none) s.tim.pulse p = none)) :=
  ⟨⟨(let s : State := .reset; let s : State := s.wr F.TIM_CAP_CFG_enable (0) 15; s), 15, false, 0, 2, by decide +kernel⟩,
   ⟨(let s : State := .reset; s), .farrier, 4000000, by decide +kernel⟩,
   ⟨(let s : State := .reset; let s : State := s.wr F.CMB_SEG_STAT_stopped (0) 7; s), .farrier, 0, 7, by decide +kernel⟩,
   ⟨(let s : State := .reset; let s : State := { s with tim.pulse := [(3, some 0)] }; s), 3, 0, by decide +kernel⟩,
   ⟨(let s : State := .reset; s), 3, by decide +kernel⟩⟩

theorem witness_LineTimeAndEthernet_a :
    (∃ (s : State) (b : Bool) (th : DWord) (r : Word) (sl : Bool), (s.on F.TIM_PTP_enable (b2n b) = false))
    ∧ (∃ (s : State) (th : DWord) (r : Word), (s.on F.TIM_PTP_enable 0 = true))
    ∧ (∃ (s : State) (th : DWord) (r : Word), (s.on F.TIM_PTP_enable 1 = true) ∧ (s.on F.TIM_LINE_STAT_b_valid = true) ∧ (s.takesEvent 67))
    ∧ (∃ (s : State) (b : Bool), (s.domainValid b = true) ∧ (s.takesEvent (if b then 67 else 66)))
    ∧ (∃ (s : State) (b : Bool), (s.domainValid b = false))
    ∧ (∃ (s : State), (s.rd F.TIM_LINE_CFG_select = 0) ∧ (s.rd F.TIM_LINE_STAT_selected = 2) ∧ (s.domainValid false = true) ∧ (s.rd F.TIM_LINE_CFG_revert_log2 ≠ 0) ∧ (s.takesEvent 68))
    ∧ (∃ (s : State), (s.rd F.TIM_LINE_CFG_select ≠ 0 ∨ s.rd F.TIM_LINE_STAT_selected ≠ 2))
    ∧ (∃ (s : State) (n : Fin 2) (f : List Byte) (ok : Bool) (k : Bool), (s.on F.ETH_CTL_enable n = false))
    ∧ (∃ (s : State) (n : Fin 2) (f : List Byte) (k : Bool), (s.on F.ETH_CTL_enable n = true))
    ∧ (∃ (s : State) (n : Fin 2) (f : List Byte), (s.on F.ETH_CTL_enable n = true) ∧ (s.on F.ETH_ZONE_CFG_enable = false) ∧ (etherType f ≠ 0x8808) ∧ (f.length ≤ 1518) ∧ (s.mode ≠ 5) ∧ (ptpEvent f = false))
    ∧ (∃ (s : State) (n : Fin 2) (f : List Byte), (s.on F.ETH_CTL_enable n = true) ∧ (s.mode = 5) ∧ (ptpEvent f = true))
    ∧ (∃ (s : State) (m : Master) (p : BitVec 5) (q : BitVec 5) (c : Bool) (v : BitVec 16), (s.privileged m = true) ∧ (s.on F.ETH_MDIO_STAT_busy = false)) :=
  ⟨⟨(let s : State := .reset; let s : State := s.wr F.TIM_PTP_enable (0) (b2n false); s), false, 0, 0, false, by decide +kernel⟩,
   ⟨(let s : State := .reset; let s : State := s.wr F.TIM_PTP_enable (1) 0; s), 0, 0, by decide +kernel⟩,
   ⟨(let s : State := .reset; let s : State := s.wr F.TIM_PTP_enable (1) 1; let s : State := s.wr F.TIM_LINE_STAT_b_valid (1); let s : State := s.wr F.HIF_EVT_MAP_enable (1) 67; s), 0, 0, by decide +kernel⟩,
   ⟨(let s : State := .reset; let s : State := s.wr F.HIF_EVT_MAP_enable (1) (if false then 67 else 66); let s : State := s.wr F.TIM_LINE_STAT_a_valid 1; s), false, by decide +kernel⟩,
   ⟨(let s : State := .reset; s), false, by decide +kernel⟩,
   ⟨(let s : State := .reset; let s : State := s.wr F.TIM_LINE_CFG_select (0); let s : State := s.wr F.TIM_LINE_STAT_selected (2); let s : State := s.wr F.TIM_LINE_CFG_revert_log2 (1); let s : State := s.wr F.HIF_EVT_MAP_enable (1) 68; let s : State := s.wr F.TIM_LINE_STAT_a_valid 1; s), by decide +kernel⟩,
   ⟨(let s : State := .reset; let s : State := s.wr F.TIM_LINE_CFG_select (1); s), by decide +kernel⟩,
   ⟨(let s : State := .reset; let s : State := s.wr F.ETH_CTL_enable (0) 1; s), 1, [], false, false, by decide +kernel⟩,
   ⟨(let s : State := .reset; let s : State := s.wr F.ETH_CTL_enable (1) 1; s), 1, [], false, by decide +kernel⟩,
   ⟨(let s : State := .reset; let s : State := s.wr F.ETH_CTL_enable (1) 1; let s : State := s.wr F.ETH_ZONE_CFG_enable (0); let s : State := s.wr F.GLB_STAT_mode (0); s), 1, [], by decide +kernel⟩,
   ⟨(let s : State := .reset; let s : State := s.wr F.ETH_CTL_enable (1) 1; let s : State := s.wr F.GLB_STAT_mode (5); s), 1, (bytesOf 64 [(12, 1, 0x88), (13, 1, 0xF7)]), by decide +kernel⟩,
   ⟨(let s : State := .reset; let s : State := s.wr F.ETH_MDIO_STAT_busy (0); s), .farrier, 0, 0, false, 0, by decide +kernel⟩⟩

theorem witness_LineTimeAndEthernet_b :
    (∃ (s : State) (m : Master) (p : BitVec 5) (q : BitVec 5) (c : Bool) (v : BitVec 16), (s.privileged m = true) ∧ (s.on F.ETH_MDIO_STAT_busy = true))
    ∧ (∃ (s : State) (a : Option (BitVec 16)) (w : Nat) (e : Nat), (s.tim.mdio = some { op := 0, cmd := w, endTick := e }))
    ∧ (∃ (s : State) (a : Option (BitVec 16)), (s.tim.mdio = none)) :=
  ⟨⟨(let s : State := .reset; let s : State := s.wr F.ETH_MDIO_STAT_busy (1); s), .farrier, 0, 0, false, 0, by decide +kernel⟩,
   ⟨(let s : State := .reset; let s : State := { s with tim := { s.tim with mdio := some { op := 0, cmd := 0, endTick := 0 } } }; s), none, 0, 0, by decide +kernel⟩,
   ⟨(let s : State := .reset; let s : State := { s with tim := { s.tim with mdio := none } }; s), none, by decide +kernel⟩⟩

theorem witness_QuenchFailures_a :
    (∃ (s : State) (k : Nat), (s.behaviour ≠ 4))
    ∧ (∃ (s : State) (k : Nat) (b : Nat), (s.behaviour ≠ 4) ∧ (b < 16))
    ∧ (∃ (s : State) (k : Nat) (c : Nat), (s.behaviour ≠ 4) ∧ (c < 16))
    ∧ (∃ (s : State) (k : Nat), (s.behaviour = 4))
    ∧ (∃ (s : State), (s.quench.tested = true ∨ s.quench.held = true))
    ∧ (∃ (s : State), (s.quench.tested = false) ∧ (s.quench.held = false) ∧ (s.quench.stored = []))
    ∧ (∃ (s : State), (s.quench.railOut = false))
    ∧ (∃ (s : State), (s.quench.railOut = true))
    ∧ (∃ (s : State), (s.quench.railOut = true) ∧ (s.behaviour = 4))
    ∧ (∃ (s : State) (p : Fin 16), (byteAt (s.qInp p) 0 ≠ 0) ∧ (field (s.qInp p) 6 2 ≤ (s.qPair p).count) ∧ (bitAt (s.rd F.QNC_IN_FLT_disc) p = false) ∧ (s.takesEvent 95))
    ∧ (∃ (s : State) (p : Fin 16), ((s.qPair p).count < field (s.qInp p) 6 2))
    ∧ (∃ (s : State) (k : Fin 16) (low : BitVec 32) (p : Fin 16), (s.quench.held = false) ∧ (s.quench.safStopped = false) ∧ (s.mode ≠ 1) ∧ (s.quench.set ≠ []) ∧ (Sps.pulseUsed s.quench.set k = true) ∧ (byteAt (s.qInp p) 0 ≠ 0) ∧ (byteAt (s.qInp p) 2 = k.val) ∧ (low.getLsbD (2 * p) = false)) :=
  ⟨⟨(let s : State := .reset; let s : State := s.wr F.QNC_STAT_behaviour (0); s), 0, by decide +kernel⟩,
   ⟨(let s : State := .reset; let s : State := s.wr F.QNC_STAT_behaviour (0); s), 0, 15, by decide +kernel⟩,
   ⟨(let s : State := .reset; let s : State := s.wr F.QNC_STAT_behaviour (0); s), 0, 15, by decide +kernel⟩,
   ⟨(let s : State := .reset; let s : State := s.wr F.QNC_STAT_behaviour (4); s), 0, by decide +kernel⟩,
   ⟨(let s : State := .reset; let s : State := { s with quench := { s.quench with tested := true } }; s), by decide +kernel⟩,
   ⟨(let s : State := .reset; let s : State := { s with quench := { s.quench with tested := false } }; let s : State := { s with quench := { s.quench with held := false } }; let s : State := { s with quench := { s.quench with stored := [] } }; s), by decide +kernel⟩,
   ⟨(let s : State := .reset; let s : State := { s with quench := { s.quench with railOut := false } }; s), by decide +kernel⟩,
   ⟨(let s : State := .reset; let s : State := { s with quench := { s.quench with railOut := true } }; s), by decide +kernel⟩,
   ⟨(let s : State := .reset; let s : State := { s with quench := { s.quench with railOut := true } }; let s : State := s.wr F.QNC_STAT_behaviour (4); s), by decide +kernel⟩,
   ⟨(let s : State := .reset; let s : State := s.wr F.HIF_EVT_MAP_enable (1) 95; let s : State := { s with quench.set := bytesOf 200 [(16, 4, 64), (184, 1, 1), (186, 1, 15), (190, 2, 1), (20, 4, 24), (84, 2, 1)] }; let s : State := s.setQPair 15 { (s.qPair 15) with count := 1 }; s), 15, by decide +kernel⟩,
   ⟨(let s : State := .reset; let s : State := { s with quench.set := bytesOf 200 [(16, 4, 64), (184, 1, 1), (186, 1, 15), (190, 2, 1), (20, 4, 24), (84, 2, 1)] }; s), 15, by decide +kernel⟩,
   ⟨(let s : State := .reset; let s : State := { s with quench := { s.quench with held := false } }; let s : State := { s with quench := { s.quench with safStopped := false } }; let s : State := s.wr F.GLB_STAT_mode (0); let s : State := { s with quench.set := bytesOf 200 [(16, 4, 64), (184, 1, 1), (186, 1, 15), (190, 2, 1), (20, 4, 24), (84, 2, 1)] }; s), 15, 0, 15, by decide +kernel⟩⟩

theorem witness_QuenchFailures_b :
    (∃ (s : State) (k : Fin 16), (s.quench.held = false) ∧ (s.quench.safStopped = false) ∧ (s.mode ≠ 1) ∧ (s.quench.set ≠ []) ∧ (Sps.pulseUsed s.quench.set k = true))
    ∧ (∃ (s : State) (k : Fin 8) (w : Bool), (bitAt (s.rd F.QNC_OUT_STAT_on) k = true) ∧ (s.takesEvent 97))
    ∧ (∃ (s : State) (b : Fin 16) (w : Bool), (s.rd F.QNC_BRK_STAT_state b = 2) ∧ (s.on F.QNC_BRK_STAT_fault b = false) ∧ (s.takesEvent 98))
    ∧ (∃ (s : State) (n : Fin 128), (s.rd F.QNC_CONN_STAT_state n = 2) ∧ (byteAt (s.qConnEntry n) 0 = 0) ∧ (((field (s.qConnEntry n) 12 2 * 10000 : Nat) : Int) < cellDiff s.cellNs (s.qConn n).at_) ∧ (s.takesEvent 100))
    ∧ (∃ (s : State) (n : Fin 128), (s.rd F.QNC_CONN_STAT_state n ≠ 2)) :=
  ⟨⟨(let s : State := .reset; let s : State := { s with quench := { s.quench with held := false } }; let s : State := { s with quench := { s.quench with safStopped := false } }; let s : State := s.wr F.GLB_STAT_mode (0); let s : State := { s with quench.set := bytesOf 200 [(16, 4, 64), (184, 1, 1), (186, 1, 15), (190, 2, 1), (20, 4, 24), (84, 2, 1)] }; s), 15, by decide +kernel⟩,
   ⟨(let s : State := .reset; let s : State := s.wr F.QNC_OUT_STAT_on 128; let s : State := s.wr F.HIF_EVT_MAP_enable 1 97; s), 7, false, by decide +kernel⟩,
   ⟨(let s : State := .reset; let s : State := s.wr F.QNC_BRK_STAT_state (2) 15; let s : State := s.wr F.QNC_BRK_STAT_fault (0) 15; let s : State := s.wr F.HIF_EVT_MAP_enable (1) 98; s), 15, false, by decide +kernel⟩,
   ⟨(let s : State := .reset; let s : State := s.wr F.QNC_CONN_STAT_state 2 127; let s : State := s.wr F.HIF_EVT_MAP_enable 1 100; let s : State := s.setQConn 127 { (s.qConn 127) with at_ := 2 ^ 64 - 1 }; s), 127, by decide +kernel⟩,
   ⟨(let s : State := .reset; let s : State := s.wr F.QNC_CONN_STAT_state (0) 127; s), 127, by decide +kernel⟩⟩

theorem witness_QuenchTicks :
    (∃ (s : State) (p : QuenchPins), (s.on F.GLB_STAT_cycle_run = false))
    ∧ (∃ (s : State) (p : QuenchPins), (s.on F.GLB_STAT_cycle_run = true) ∧ (s.quench.held = true))
    ∧ (∃ (s : State) (p : QuenchPins), (s.on F.GLB_STAT_cycle_run = true) ∧ (s.quench.held = false) ∧ (s.quench.safStopped = false) ∧ (s.behaviour = 4) ∧ (s.quench.nextSet = none) ∧ (s.quench.typed = none) ∧ (s.mode ≠ 5))
    ∧ (∃ (s : State) (p : QuenchPins), (s.quench.held = true))
    ∧ (∃ (s : State) (p : Nat), (p < 16) ∧ (byteAt (s.qInp p) 0 ≠ 0) ∧ (0 < field (s.qInp p) 6 2) ∧ (s.active p = (true, true)) ∧ (s.pairFault p = false) ∧ ((s.qPair p).seen = true))
    ∧ (∃ (s : State) (p : Nat), (p < 16) ∧ (byteAt (s.qInp p) 0 ≠ 0) ∧ ((s.active p).1 = false))
    ∧ (∃ (s : State) (c : Nat) (k : Nat), (c < 16) ∧ ((s.qChain c).causes = [k]) ∧ (k ≠ 0) ∧ (k < 15) ∧ (stopOf (Sps.chain s.quench.set c) k = 3) ∧ (s.rd F.QNC_CHAIN_STAT_stop c < 3) ∧ (s.takesEvent 93))
    ∧ (∃ (s : State) (l : BitVec 32), (s.quench.held = true))
    ∧ (∃ (s : State) (l : BitVec 32), (s.quench.held = false) ∧ (s.quench.safStopped = false)) :=
  ⟨⟨(let s : State := .reset; let s : State := s.wr F.GLB_STAT_cycle_run (0); s), ({ outputs := 0, brakes := 0, evalUs := 0, clockOff := false } : QuenchPins), by decide +kernel⟩,
   ⟨(let s : State := .reset; let s : State := s.wr F.GLB_STAT_cycle_run (1); let s : State := { s with quench := { s.quench with held := true } }; s), ({ outputs := 0, brakes := 0, evalUs := 0, clockOff := false } : QuenchPins), by decide +kernel⟩,
   ⟨(let s : State := .reset; let s : State := s.wr F.GLB_STAT_cycle_run (1); let s : State := { s with quench := { s.quench with held := false } }; let s : State := { s with quench := { s.quench with safStopped := false } }; let s : State := s.wr F.QNC_STAT_behaviour (4); let s : State := { s with quench := { s.quench with nextSet := none } }; let s : State := { s with quench := { s.quench with typed := none } }; let s : State := s.wr F.GLB_STAT_mode (0); s), ({ outputs := 0, brakes := 0, evalUs := 0, clockOff := false } : QuenchPins), by decide +kernel⟩,
   ⟨(let s : State := .reset; let s : State := { s with quench := { s.quench with held := true } }; s), ({ outputs := 0, brakes := 0, evalUs := 0, clockOff := false } : QuenchPins), by decide +kernel⟩,
   ⟨(let s : State := .reset; let s : State := { s with quench.set := bytesOf 200 [(16, 4, 64), (184, 1, 1), (186, 1, 15), (190, 2, 1), (20, 4, 24), (84, 2, 1)] }; let s : State := s.setQInput 30 { level := true }; let s : State := s.setQInput 31 { level := true }; let s : State := s.setQPair 15 { (s.qPair 15) with seen := true }; s), 15, by decide +kernel⟩,
   ⟨(let s : State := .reset; let s : State := { s with quench.set := bytesOf 200 [(16, 4, 64), (184, 1, 1), (186, 1, 15), (190, 2, 1), (20, 4, 24), (84, 2, 1)] }; s), 15, by decide +kernel⟩,
   ⟨(let s : State := .reset; let s : State := s.setQChain 15 { (s.qChain 15) with causes := [14] }; let s : State := s.wr F.QNC_CHAIN_STAT_stop (2) 15; let s : State := s.wr F.HIF_EVT_MAP_enable (1) 93; s), 15, 14, by decide +kernel⟩,
   ⟨(let s : State := .reset; let s : State := { s with quench := { s.quench with held := true } }; s), 0, by decide +kernel⟩,
   ⟨(let s : State := .reset; let s : State := { s with quench := { s.quench with held := false } }; let s : State := { s with quench := { s.quench with safStopped := false } }; s), 0, by decide +kernel⟩⟩

theorem witness_SafetyParametersAndStops_a :
    (∃ (s : State) (r : Fin 64) (io : HostIo) (d : Desc), (s.Starts r 0x0401 d) ∧ (io.bodyErr = false) ∧ (s.mode = 2) ∧ (s.on F.QNC_STAT_sto_all = true) ∧ (Sps.check io.body (s.rd F.TIM_CYCLE_ns) = none))
    ∧ (∃ (s : State) (r : Fin 64) (io : HostIo) (d : Desc), (s.Starts r 0x0401 d) ∧ (io.bodyErr = false) ∧ (s.mode ≠ 2 ∨ s.on F.QNC_STAT_sto_all = false))
    ∧ (∃ (s : State) (r : Fin 64) (io : HostIo) (d : Desc) (k : Nat) (i : Nat), (s.Starts r 0x0401 d) ∧ (io.bodyErr = false) ∧ (s.mode = 2) ∧ (s.on F.QNC_STAT_sto_all = true) ∧ (Sps.check io.body (s.rd F.TIM_CYCLE_ns) = some (k, i)))
    ∧ (∃ (s : State) (r : Fin 64) (io : HostIo) (d : Desc), (s.Starts r 0x0402 d) ∧ (io.resultErr = false))
    ∧ (∃ (s : State) (m : Master) (v : Word), (s.privileged m = true) ∧ (s.on F.QNC_STAT_set_present = true))
    ∧ (∃ (s : State) (m : Master) (v : Word), (s.privileged m = false))
    ∧ (∃ (s : State) (m : Master) (v : Word), (s.privileged m = true) ∧ (s.on F.QNC_STAT_set_present = false))
    ∧ (∃ (s : State) (c : Fin 16) (j : Fin 16), (s.quench.set ≠ []) ∧ (Sps.used (Sps.chain s.quench.set c) = true) ∧ (j.val < Sps.axes (Sps.chain s.quench.set c)) ∧ ((s.qChain c).causes.contains 6 = false) ∧ (byteAt (Sps.axis (Sps.chain s.quench.set c) j) 20 < ((s.qChain c).axis j).missA ∨ byteAt (Sps.axis (Sps.chain s.quench.set c) j) 20 < ((s.qChain c).axis j).missB))
    ∧ (∃ (s : State) (c : Fin 16) (j : Fin 16), (s.quench.set = [] ∨ (s.qChain c).causes.contains 6 = true))
    ∧ (∃ (s : State) (c : Fin 16), (s.quench.set ≠ []) ∧ (s.rd F.QNC_CHAIN_STAT_state c = 1) ∧ (s.rd F.QNC_CHAIN_STAT_stop c = 2) ∧ ((s.qChain c).causes.contains 10 = false) ∧ ((∀ k ∈ (s.qChain c).causes, stopOf (Sps.chain s.quench.set c) k ≤ 3)) ∧ (s.takesEvent 93))
    ∧ (∃ (s : State) (c : Fin 16) (k : Nat), (s.quench.set ≠ []) ∧ ((s.qChain c).clear = some k) ∧ (bitAt (byteAt (Sps.chain s.quench.set c) 6) 0 = true) ∧ ((s.qChain c).causes = [2]) ∧ ((s.qChain c).v ≤ (s.qChain c).limit) ∧ ((s.qChain c).stoHold = false) ∧ (s.rd F.QNC_CHAIN_STAT_stop c ≠ 0))
    ∧ (∃ (s : State) (c : Fin 16), ((s.qChain c).clear = none)) :=
  ⟨⟨(let s : State := .reset; let s : State := { s with hif.desc := [({ id := 0, ring := 63, slot := 0, bytes := dsc [(0, 2, 0x0401)] } : Desc)] }; let s : State := s.wr F.GLB_STAT_mode (2); let s : State := s.wr F.QNC_STAT_sto_all (1); s), 63, ({ body := spsBody, bodyErr := false } : HostIo), ({ id := 0, ring := 63, slot := 0, bytes := dsc [(0, 2, 0x0401)] } : Desc), by decide +kernel⟩,
   ⟨(let s : State := .reset; let s : State := { s with hif.desc := [({ id := 0, ring := 63, slot := 0, bytes := dsc [(0, 2, 0x0401)] } : Desc)] }; let s : State := s.wr F.GLB_STAT_mode (0); s), 63, ({ bodyErr := false } : HostIo), ({ id := 0, ring := 63, slot := 0, bytes := dsc [(0, 2, 0x0401)] } : Desc), by decide +kernel⟩,
   ⟨(let s : State := .reset; let s : State := { s with hif.desc := [({ id := 0, ring := 63, slot := 0, bytes := dsc [(0, 2, 0x0401)] } : Desc)] }; let s : State := s.wr F.GLB_STAT_mode (2); let s : State := s.wr F.QNC_STAT_sto_all (1); s), 63, ({ bodyErr := false } : HostIo), ({ id := 0, ring := 63, slot := 0, bytes := dsc [(0, 2, 0x0401)] } : Desc), 1, 65535, by decide +kernel⟩,
   ⟨(let s : State := .reset; let s : State := { s with hif.desc := [({ id := 0, ring := 63, slot := 0, bytes := dsc [(0, 2, 0x0402)] } : Desc)] }; s), 63, ({ resultErr := false } : HostIo), ({ id := 0, ring := 63, slot := 0, bytes := dsc [(0, 2, 0x0402)] } : Desc), by decide +kernel⟩,
   ⟨(let s : State := .reset; let s : State := s.wr F.QNC_STAT_set_present (1); s), .farrier, 0, by decide +kernel⟩,
   ⟨(let s : State := .reset; s), .engine, 0, by decide +kernel⟩,
   ⟨(let s : State := .reset; let s : State := s.wr F.QNC_STAT_set_present (0); s), .farrier, 0, by decide +kernel⟩,
   ⟨(let s : State := .reset; let s : State := { s with quench.set := bytesOf 3000 [(36, 4, 64), (64, 1, 1), (65, 1, 16)] }; let s : State := s.setQChain 0 { (s.qChain 0) with axes := [(15, { missA := 1 })] }; s), 0, 15, by decide +kernel⟩,
   ⟨(let s : State := .reset; let s : State := { s with quench := { s.quench with set := [] } }; s), 15, 15, by decide +kernel⟩,
   ⟨(let s : State := .reset; let s : State := s.wr F.QNC_CHAIN_STAT_state (1) 15; let s : State := s.wr F.QNC_CHAIN_STAT_stop (2) 15; let s : State := s.wr F.HIF_EVT_MAP_enable (1) 93; let s : State := { s with quench.set := [0] }; let s : State := s.setQChain 15 { (s.qChain 15) with causes := [] }; s), 15, by decide +kernel⟩,
   ⟨(let s : State := .reset; let s : State := { s with quench.set := bytesOf 3000 [(36, 4, 64), (64, 1, 1), (70, 1, 1)] }; let s : State := s.setQChain 0 { (s.qChain 0) with clear := some 0 }; let s : State := s.setQChain 0 { (s.qChain 0) with causes := [2] }; let s : State := s.setQChain 0 { (s.qChain 0) with stoHold := false }; let s : State := s.wr F.QNC_CHAIN_STAT_stop (1) 0; s), 0, 0, by decide +kernel⟩,
   ⟨(let s : State := .reset; let s : State := s.setQChain 15 { (s.qChain 15) with clear := none }; s), 15, by decide +kernel⟩⟩

theorem witness_SafetyParametersAndStops_b :
    (∃ (s : State) (c : Fin 16) (j : Nat), (s.rd F.QNC_CHAIN_STAT_state c = 3) ∧ (8 ≤ (s.qChain c).stoTicks) ∧ ((s.qChain c).stoHold = false) ∧ (j < Sps.axes (Sps.chain s.quench.set c)) ∧ (s.driveLive (Sps.axis (Sps.chain s.quench.set c) j) = true) ∧ (s.takesEvent 93))
    ∧ (∃ (s : State) (c : Fin 16), (s.rd F.QNC_CHAIN_STAT_state c ≠ 3 ∨ (s.qChain c).stoTicks < 8))
    ∧ (∃ (s : State) (c : Fin 16), (s.mode ≠ 5) ∧ (byteAt (s.publishedEntry c) 12 = 1 ∨ byteAt (s.publishedEntry c) 12 = 2))
    ∧ (∃ (s : State) (c : Fin 16), (s.mode = 5 ∨ byteAt (s.publishedEntry c) 12 = 0 ∨ byteAt (s.publishedEntry c) 12 = 3)) :=
  ⟨⟨(let s : State := .reset; let s : State := { s with quench.set := bytesOf 3000 [(36, 4, 64), (64, 1, 1), (65, 1, 1), (214, 1, 127)] }; let s : State := s.wr F.QNC_CHAIN_STAT_state (3) 0; let s : State := s.setQChain 0 { (s.qChain 0) with stoTicks := 8 }; let s : State := s.setQChain 0 { (s.qChain 0) with stoHold := false }; let s : State := s.wr F.HIF_EVT_MAP_enable (1) 93; let s : State := s.wr F.QNC_CONN_STAT_state 2 127; let s : State := s.wr F.QNC_CONN_STAT_ack_wait 0 127; let s : State := s.setQConn 127 { (s.qConn 127) with data := [1] }; s), 0, 0, by decide +kernel⟩,
   ⟨(let s : State := .reset; let s : State := s.wr F.QNC_CHAIN_STAT_state (0) 15; s), 15, by decide +kernel⟩,
   ⟨(let s : State := .reset; let s : State := { s with quench.table0 := bytesOf 512 [(492, 1, 1)] }; s), 15, by decide +kernel⟩,
   ⟨(let s : State := .reset; let s : State := s.wr F.GLB_STAT_mode (5); s), 15, by decide +kernel⟩⟩

theorem witness_BrakeTests_a :
    (∃ (s : State) (r : Fin 64) (d : Desc), (s.Starts r 0x0403 d) ∧ (d.op 32 1 < 16) ∧ (s.quench.set ≠ []) ∧ (Sps.used (Sps.brake s.quench.set (d.op 32 1)) = true) ∧ (d.op 33 1 ≤ 2) ∧ (s.mode = 3) ∧ (s.behaviour = 3) ∧ ((s.chain (byteAt (Sps.brake s.quench.set (d.op 32 1)) 2)).state = 0) ∧ (s.rd F.QNC_CHAIN_STAT_stop (byteAt (Sps.brake s.quench.set (d.op 32 1)) 2) = 0) ∧ ((∃ k, (s.qChain (byteAt (Sps.brake s.quench.set (d.op 32 1)) 2)).slow = some k ∧ ms 100 ≤ s.tick - k)) ∧ (s.quench.test = none))
    ∧ (∃ (s : State) (r : Fin 64) (d : Desc), (s.Starts r 0x0403 d) ∧ (d.op 32 1 < 16) ∧ (s.quench.set ≠ []) ∧ (Sps.used (Sps.brake s.quench.set (d.op 32 1)) = true) ∧ (d.op 33 1 ≤ 2) ∧ ((s.mode ≠ 2 ∧ s.mode ≠ 3) ∨ s.quench.test ≠ none))
    ∧ (∃ (s : State), (s.quench.test = none))
    ∧ (∃ (s : State) (q : QTest), (s.quench.test = some q) ∧ (q.phase = 0) ∧ (byteAt (Sps.brake s.quench.set q.brake) 3 = 0xFF) ∧ (q.dir = 0) ∧ (q.second = false))
    ∧ (∃ (s : State) (q : QTest), (s.quench.test = some q) ∧ (q.phase = 1))
    ∧ (∃ (s : State) (q : QTest), (s.quench.test = some q) ∧ (q.phase = 3) ∧ (q.dir ≠ 2))
    ∧ (∃ (s : State) (q : QTest) (u : QTorque), (s.quench.test = some q) ∧ (q.phase = 2) ∧ (q.reached = none) ∧ (s.quench.torque = some u))
    ∧ (∃ (s : State) (q : QTest) (u : QTorque) (a : Nat), (s.quench.test = some q) ∧ (q.phase = 2) ∧ (q.reached = some a) ∧ (s.quench.torque = some u))
    ∧ (∃ (s : State) (q : QTest) (d : Desc), (s.quench.test = some q) ∧ (q.phase = 4) ∧ (q.aborted = false) ∧ (q.res = 0) ∧ (q.brake < 16) ∧ (s.hif.desc.find? (·.id == d.id) = some d) ∧ (q.desc = d.id) ∧ (d.quiet = false) ∧ (s.takesEvent 99))
    ∧ (∃ (s : State) (q : QTest) (d : Desc), (s.quench.test = some q) ∧ (q.phase = 4) ∧ (q.aborted = true) ∧ (s.hif.desc.find? (·.id == d.id) = some d) ∧ (q.desc = d.id))
    ∧ (∃ (s : State) (b : Fin 16), (s.quench.set ≠ []) ∧ (Sps.used (Sps.brake s.quench.set b) = true) ∧ (field (Sps.brake s.quench.set b) 24 2 ≠ 0) ∧ (s.on F.QNC_BRK_STAT_due b = false) ∧ (s.takesEvent 99))
    ∧ (∃ (s : State) (b : Fin 16), (s.quench.set = [] ∨ s.on F.QNC_BRK_STAT_due b = true)) :=
  ⟨⟨(let s : State := .reset; let s : State := { s with quench.set := bytesOf 600 [(32, 4, 64), (544, 1, 1), (546, 1, 15), (547, 1, 0xFF), (568, 2, 1)] }; let s : State := { s with hif.desc := [({ id := 0, ring := 63, slot := 0, bytes := dsc [(0, 2, 0x0403), (32, 1, 15), (33, 1, 2)] } : Desc)] }; let s : State := s.wr F.GLB_STAT_mode (3); let s : State := s.wr F.QNC_STAT_behaviour (3); let s : State := s.setChain (byteAt (Sps.brake s.quench.set (({ id := 0, ring := 63, slot := 0, bytes := dsc [(0, 2, 0x0403), (32, 1, 15), (33, 1, 2)] } : Desc).op 32 1)) 2) { (s.chain (byteAt (Sps.brake s.quench.set (({ id := 0, ring := 63, slot := 0, bytes := dsc [(0, 2, 0x0403), (32, 1, 15), (33, 1, 2)] } : Desc).op 32 1)) 2)) with state := 0 }; let s : State := s.wr F.QNC_CHAIN_STAT_stop (0) (byteAt (Sps.brake s.quench.set (({ id := 0, ring := 63, slot := 0, bytes := dsc [(0, 2, 0x0403), (32, 1, 15), (33, 1, 2)] } : Desc).op 32 1)) 2); let s : State := { s with quench := { s.quench with test := none } }; let s : State := { s with tick := 10 ^ 9 }; let s : State := s.setQChain 15 { (s.qChain 15) with slow := some 0 }; s), 63, ({ id := 0, ring := 63, slot := 0, bytes := dsc [(0, 2, 0x0403), (32, 1, 15), (33, 1, 2)] } : Desc), by decide +kernel, by decide +kernel, by decide +kernel, by decide +kernel, by decide +kernel, by decide +kernel, by decide +kernel, by decide +kernel, by decide +kernel, ⟨0, by decide +kernel⟩, by decide +kernel⟩,
   ⟨(let s : State := .reset; let s : State := { s with quench.set := bytesOf 600 [(32, 4, 64), (544, 1, 1), (546, 1, 15), (547, 1, 0xFF), (568, 2, 1)] }; let s : State := { s with hif.desc := [({ id := 0, ring := 63, slot := 0, bytes := dsc [(0, 2, 0x0403), (32, 1, 15), (33, 1, 2)] } : Desc)] }; let s : State := s.wr F.GLB_STAT_mode (0); let s : State := s.wr F.GLB_STAT_mode (0); s), 63, ({ id := 0, ring := 63, slot := 0, bytes := dsc [(0, 2, 0x0403), (32, 1, 15), (33, 1, 2)] } : Desc), by decide +kernel⟩,
   ⟨(let s : State := .reset; let s : State := { s with quench := { s.quench with test := none } }; s), by decide +kernel⟩,
   ⟨(let s : State := .reset; let s : State := { s with quench.set := bytesOf 600 [(32, 4, 64), (544, 1, 1), (546, 1, 15), (547, 1, 0xFF), (568, 2, 1)] }; let s : State := { s with quench := { s.quench with test := some ({ desc := 0, brake := 15, dir := 0, second := false, phase := 0 } : QTest) } }; s), ({ desc := 0, brake := 15, dir := 0, second := false, phase := 0 } : QTest), by decide +kernel⟩,
   ⟨(let s : State := .reset; let s : State := { s with quench := { s.quench with test := some ({ desc := 0, brake := 0, dir := 0, phase := 1 } : QTest) } }; s), ({ desc := 0, brake := 0, dir := 0, phase := 1 } : QTest), by decide +kernel⟩,
   ⟨(let s : State := .reset; let s : State := { s with quench := { s.quench with test := some ({ desc := 0, brake := 0, dir := 0, phase := 3 } : QTest) } }; s), ({ desc := 0, brake := 0, dir := 0, phase := 3 } : QTest), by decide +kernel⟩,
   ⟨(let s : State := .reset; let s : State := { s with quench := { s.quench with test := some ({ desc := 0, brake := 0, dir := 0, phase := 2, reached := none } : QTest) } }; let s : State := { s with quench := { s.quench with torque := some ({ axis := 0, at_ := 0, start := 0, target := 0, back := false } : QTorque) } }; s), ({ desc := 0, brake := 0, dir := 0, phase := 2, reached := none } : QTest), ({ axis := 0, at_ := 0, start := 0, target := 0, back := false } : QTorque), by decide +kernel⟩,
   ⟨(let s : State := .reset; let s : State := { s with quench := { s.quench with test := some ({ desc := 0, brake := 0, dir := 0, phase := 2, reached := some 0 } : QTest) } }; let s : State := { s with quench := { s.quench with torque := some ({ axis := 0, at_ := 0, start := 0, target := 0, back := false } : QTorque) } }; s), ({ desc := 0, brake := 0, dir := 0, phase := 2, reached := some 0 } : QTest), ({ axis := 0, at_ := 0, start := 0, target := 0, back := false } : QTorque), 0, by decide +kernel⟩,
   ⟨(let s : State := .reset; let s : State := { s with quench := { s.quench with test := some ({ desc := 0, brake := 15, dir := 0, phase := 4, res := 0, aborted := false } : QTest) } }; let s : State := { s with hif := { s.hif with desc := [({ id := 0, ring := 0, slot := 0, bytes := dsc [] } : Desc)] } }; let s : State := s.wr F.HIF_EVT_MAP_enable (1) 99; s), ({ desc := 0, brake := 15, dir := 0, phase := 4, res := 0, aborted := false } : QTest), ({ id := 0, ring := 0, slot := 0, bytes := dsc [] } : Desc), by decide +kernel⟩,
   ⟨(let s : State := .reset; let s : State := { s with quench := { s.quench with test := some ({ desc := 0, brake := 15, dir := 0, phase := 4, aborted := true } : QTest) } }; let s : State := { s with hif := { s.hif with desc := [({ id := 0, ring := 0, slot := 0, bytes := dsc [] } : Desc)] } }; s), ({ desc := 0, brake := 15, dir := 0, phase := 4, aborted := true } : QTest), ({ id := 0, ring := 0, slot := 0, bytes := dsc [] } : Desc), by decide +kernel⟩,
   ⟨(let s : State := .reset; let s : State := { s with quench.set := bytesOf 600 [(32, 4, 64), (544, 1, 1), (546, 1, 15), (547, 1, 0xFF), (568, 2, 1)] }; let s : State := s.wr F.QNC_BRK_STAT_due (0) 15; let s : State := s.wr F.HIF_EVT_MAP_enable (1) 99; s), 15, by decide +kernel⟩,
   ⟨(let s : State := .reset; let s : State := { s with quench := { s.quench with set := [] } }; s), 15, by decide +kernel⟩⟩

theorem witness_BrakeTests_b :
    (∃ (s : State) (b : Fin 16), (s.quench.set ≠ []) ∧ (Sps.used (Sps.brake s.quench.set b) = true) ∧ (field (Sps.brake s.quench.set b) 24 2 ≠ 0) ∧ ((s.qBrake b).overdue = false))
    ∧ (∃ (s : State) (b : Fin 16), ((s.qBrake b).overdue = true)) :=
  ⟨⟨(let s : State := .reset; let s : State := { s with quench.set := bytesOf 600 [(32, 4, 64), (544, 1, 1), (546, 1, 15), (547, 1, 0xFF), (568, 2, 1)] }; let s : State := s.setQBrake 15 { (s.qBrake 15) with overdue := false }; s), 15, by decide +kernel⟩,
   ⟨(let s : State := .reset; let s : State := s.setQBrake 15 { (s.qBrake 15) with overdue := true }; s), 15, by decide +kernel⟩⟩

theorem witness_AdcCommands :
    (∃ (s : State) (q : Fin 2), (s.on F.ADC_SEQ_CTL_enable q = false))
    ∧ (∃ (s : State) (q : Fin 2), (s.on F.ADC_SEQ_CTL_enable q = true) ∧ (s.rd F.ADC_SEQ_CFG_trig q = 0) ∧ ((s.adcSeq q).start ≠ none))
    ∧ (∃ (s : State) (q : Fin 2), (s.on F.ADC_SEQ_CTL_enable q = true) ∧ (s.rd F.ADC_SEQ_CFG_trig q = 0) ∧ ((s.adcSeq q).start = none))
    ∧ (∃ (s : State) (n : Fin 4) (up : Bool), (s.on F.ADC_SEQ_CTL_enable 0 = false) ∧ (s.on F.ADC_SEQ_CTL_enable 1 = false))
    ∧ (∃ (s : State) (n : Fin 4), (s.on F.ADC_SEQ_CTL_enable 1 = false) ∧ (s.on F.ADC_SEQ_CTL_enable 0 = true) ∧ (s.rd F.ADC_SEQ_CFG_trig 0 = 2) ∧ (s.rd F.ADC_SEQ_CFG_tin 0 = n.val) ∧ (s.rd F.ADC_SEQ_CFG_edge 0 = 1) ∧ ((s.adcSeq 0).start = none) ∧ (s.on F.ADC_SEQ_STAT_powered 0 = true) ∧ (cellDiff (s.adcSeq 0).ready (uns 64 (s.cellNs + s.adcDelay 0 : Nat)) ≤ 0))
    ∧ (∃ (s : State) (q : Fin 2) (v : BitVec 16), ((s.adcSeq q).start = none))
    ∧ (∃ (s : State) (q : Fin 2) (v : BitVec 16) (f : Nat), ((s.adcSeq q).start = some f) ∧ (s.rd F.ADC_SEQ_CFG_first q + (s.adcSeq q).taken ≤ s.rd F.ADC_SEQ_CFG_last q))
    ∧ (∃ (s : State) (q : Fin 2), ((s.adcSeq q).pending = []))
    ∧ (∃ (s : State) (q : Fin 2) (r : AdcSampleRec) (l : List AdcSampleRec), ((s.adcSeq q).pending = r :: l) ∧ (getBits r.conf 0 5 < 24) ∧ (getBits r.conf 12 1 = 0) ∧ (s.adc.queue.length < 512))
    ∧ (∃ (s : State) (m : Master), (s.adc.queue = []))
    ∧ (∃ (s : State) (m : Master) (b : List Byte) (l : List (List Byte)), (s.adc.queue = b :: l) ∧ (l.length < 1024)) :=
  ⟨⟨(let s : State := .reset; let s : State := s.wr F.ADC_SEQ_CTL_enable (0) 1; s), 1, by decide +kernel⟩,
   ⟨(let s : State := .reset; let s : State := s.wr F.ADC_SEQ_CTL_enable (1) 1; let s : State := s.wr F.ADC_SEQ_CFG_trig (0) 1; let s : State := s.setAdcSeq 1 { (s.adcSeq 1) with start := some 0 }; s), 1, by decide +kernel⟩,
   ⟨(let s : State := .reset; let s : State := s.wr F.ADC_SEQ_CTL_enable (1) 1; let s : State := s.wr F.ADC_SEQ_CFG_trig (0) 1; let s : State := s.setAdcSeq 1 { (s.adcSeq 1) with start := none }; s), 1, by decide +kernel⟩,
   ⟨(let s : State := .reset; let s : State := s.wr F.ADC_SEQ_CTL_enable (0) 0; let s : State := s.wr F.ADC_SEQ_CTL_enable (0) 1; s), 3, false, by decide +kernel⟩,
   ⟨(let s : State := .reset; let s : State := s.wr F.ADC_SEQ_CTL_enable (0) 1; let s : State := s.wr F.ADC_SEQ_CTL_enable (1) 0; let s : State := s.wr F.ADC_SEQ_CFG_trig (2) 0; let s : State := s.wr F.ADC_SEQ_CFG_tin (3) 0; let s : State := s.wr F.ADC_SEQ_CFG_edge (1) 0; let s : State := s.setAdcSeq 0 { (s.adcSeq 0) with start := none }; let s : State := s.wr F.ADC_SEQ_STAT_powered (1) 0; s), 3, by decide +kernel⟩,
   ⟨(let s : State := .reset; let s : State := s.setAdcSeq 1 { (s.adcSeq 1) with start := none }; s), 1, 0, by decide +kernel⟩,
   ⟨(let s : State := .reset; let s : State := s.setAdcSeq 1 { (s.adcSeq 1) with start := some 0 }; s), 1, 0, 0, by decide +kernel⟩,
   ⟨(let s : State := .reset; let s : State := s.setAdcSeq 1 { (s.adcSeq 1) with pending := [] }; s), 1, by decide +kernel⟩,
   ⟨(let s : State := .reset; let s : State := s.setAdcSeq 1 { (s.adcSeq 1) with pending := ({ entry := 0, conf := 0, code := 0, time := 0, pull := false, ext := false, last := false } : AdcSampleRec) :: [] }; s), 1, ({ entry := 0, conf := 0, code := 0, time := 0, pull := false, ext := false, last := false } : AdcSampleRec), [], by decide +kernel⟩,
   ⟨(let s : State := .reset; let s : State := { s with adc := { s.adc with queue := [] } }; s), .host, by decide +kernel⟩,
   ⟨(let s : State := .reset; let s : State := { s with adc := { s.adc with queue := [] :: [] } }; s), .host, [], [], by decide +kernel⟩⟩

theorem witness_PairCommands_a :
    (∃ (s : State), (s.rd F.GLB_STAT_role ≠ 0 ∨ (s.mode ≠ 3 ∧ s.mode ≠ 4)))
    ∧ (∃ (s : State), (s.rd F.GLB_STAT_role = 0) ∧ (s.mode = 3 ∨ s.mode = 4) ∧ (s.roleChoice = 1))
    ∧ (∃ (s : State), (s.rd F.GLB_STAT_role = 0) ∧ (s.mode = 3 ∨ s.mode = 4) ∧ (s.roleChoice = 2))
    ∧ (∃ (s : State), (s.on F.BLW_CTL_enable = true) ∧ (s.on F.BLW_STAT_link = false) ∧ (s.bellows.timedOut = false) ∧ (s.on F.BLW_CFG_primary = true) ∧ (s.mode = 3) ∧ (s.rd F.GLB_STAT_role = 0))
    ∧ (∃ (s : State), (s.on F.BLW_CTL_enable = true) ∧ (s.on F.BLW_STAT_link = false) ∧ (s.bellows.timedOut = false) ∧ (s.on F.BLW_CFG_primary = false) ∧ (s.takesEvent 110))
    ∧ (∃ (s : State), (s.on F.BLW_CTL_enable = false))
    ∧ (∃ (s : State) (h : Heartbeat), (s.on F.BLW_CTL_enable = false))
    ∧ (∃ (s : State) (m : Master), (s.on F.BLW_CTL_enable = false) ∧ (s.privileged m = true))
    ∧ (∃ (s : State) (m : Master), (s.privileged m = false))
    ∧ (∃ (s : State) (m : Master), (s.privileged m = true) ∧ (s.on F.BLW_CTL_enable = true))
    ∧ (∃ (s : State), (s.on F.BLW_CTL_enable = true) ∧ (s.running = true) ∧ (s.rd F.GLB_STAT_role = 2))
    ∧ (∃ (s : State) (h : Heartbeat), (s.on F.BLW_CTL_enable = true) ∧ (s.on F.BLW_STAT_link = true) ∧ (s.rd F.GLB_STAT_role = 2) ∧ (h.role = 1) ∧ (s.combway.silenced = false) ∧ (s.bellows.lost = none)) :=
  ⟨⟨(let s : State := .reset; let s : State := s.wr F.GLB_STAT_role (1); s), by decide +kernel⟩,
   ⟨(let s : State := .reset; let s : State := s.wr F.GLB_STAT_role (0); let s : State := s.wr F.GLB_STAT_mode (3); let s : State := s.wr F.BLW_CTL_enable 1; let s : State := s.wr F.BLW_STAT_link 1; let s : State := s.wr F.BLW_CFG_primary 1; s), by decide +kernel⟩,
   ⟨(let s : State := .reset; let s : State := s.wr F.GLB_STAT_role (0); let s : State := s.wr F.GLB_STAT_mode (3); let s : State := s.wr F.BLW_CTL_enable 1; let s : State := s.wr F.BLW_STAT_link 1; let s : State := s.wr F.BLW_CFG_primary 1; let s : State := s.wr F.BLW_STAT_partner_role 1; s), by decide +kernel⟩,
   ⟨(let s : State := .reset; let s : State := s.wr F.BLW_CTL_enable (1); let s : State := s.wr F.BLW_STAT_link (0); let s : State := { s with bellows := { s.bellows with timedOut := false } }; let s : State := s.wr F.BLW_CFG_primary (1); let s : State := s.wr F.GLB_STAT_mode (3); let s : State := s.wr F.GLB_STAT_role (0); s), by decide +kernel⟩,
   ⟨(let s : State := .reset; let s : State := s.wr F.BLW_CTL_enable (1); let s : State := s.wr F.BLW_STAT_link (0); let s : State := { s with bellows := { s.bellows with timedOut := false } }; let s : State := s.wr F.BLW_CFG_primary (0); let s : State := s.wr F.HIF_EVT_MAP_enable (1) 110; s), by decide +kernel⟩,
   ⟨(let s : State := .reset; let s : State := s.wr F.BLW_CTL_enable (0); s), by decide +kernel⟩,
   ⟨(let s : State := .reset; let s : State := s.wr F.BLW_CTL_enable (0); s), ({ cycle := 0, role := 0, ready := false, epoch := 0, digest := 0, swap := 0 } : Heartbeat), by decide +kernel⟩,
   ⟨(let s : State := .reset; let s : State := s.wr F.BLW_CTL_enable (0); s), .farrier, by decide +kernel⟩,
   ⟨(let s : State := .reset; s), .engine, by decide +kernel⟩,
   ⟨(let s : State := .reset; let s : State := s.wr F.BLW_CTL_enable (1); s), .farrier, by decide +kernel⟩,
   ⟨(let s : State := .reset; let s : State := s.wr F.BLW_CTL_enable (1); let s : State := s.wr F.GLB_STAT_cycle_run (1); let s : State := s.wr F.GLB_STAT_role (2); s), by decide +kernel⟩,
   ⟨(let s : State := .reset; let s : State := s.wr F.BLW_CTL_enable (1); let s : State := s.wr F.BLW_STAT_link (1); let s : State := s.wr F.GLB_STAT_role (2); let s : State := { s with combway := { s.combway with silenced := false } }; let s : State := { s with bellows := { s.bellows with lost := none } }; s), ({ cycle := 0, role := 1, ready := false, epoch := 0, digest := 0, swap := 0 } : Heartbeat), by decide +kernel⟩⟩

theorem witness_PairCommands_b :
    (∃ (s : State) (h : Heartbeat), (s.on F.BLW_CTL_enable = true) ∧ (s.on F.BLW_STAT_link = true) ∧ (s.rd F.GLB_STAT_role = 1) ∧ (h.role = 1) ∧ (s.combway.silenced = false) ∧ (0 < sgn 16 (uns 16 ((h.epoch.toNat : Int) - s.rd F.BLW_STAT_epoch))))
    ∧ (∃ (s : State), (s.on F.BLW_CTL_enable = true) ∧ (s.running = true) ∧ (s.nextJudged = s.tim.cycle) ∧ (s.rd F.BLW_STAT_hb_lost = 1) ∧ (s.takesEvent 108))
    ∧ (∃ (s : State) (m : Mirror), (s.mode ≠ 6))
    ∧ (∃ (s : State) (m : Mirror), (s.mode = 6) ∧ (s.on F.BLW_CTL_enable = true) ∧ (s.on F.BLW_STAT_link = true) ∧ (m.complete = false))
    ∧ (∃ (s : State) (m : Mirror), (s.mode = 6) ∧ (s.on F.BLW_CTL_enable = true) ∧ (s.on F.BLW_STAT_link = true) ∧ (m.complete = true))
    ∧ (∃ (s : State) (n : Fin 4), (bitAt (s.rd F.BLW_STAT_lanes) n = false))
    ∧ (∃ (s : State) (n : Fin 4), (bitAt (s.rd F.BLW_STAT_lanes) n = true) ∧ (s.takesEvent 110))
    ∧ (∃ (s : State) (n : Fin 4), (s.on F.BLW_CTL_enable = false ∨ bitAt (s.rd F.BLW_STAT_lanes) n = true))
    ∧ (∃ (s : State) (n : Fin 4), (s.on F.BLW_CTL_enable = true) ∧ (bitAt (s.rd F.BLW_STAT_lanes) n = false) ∧ (s.takesEvent 110)) :=
  ⟨⟨(let s : State := .reset; let s : State := s.wr F.BLW_CTL_enable (1); let s : State := s.wr F.BLW_STAT_link (1); let s : State := s.wr F.GLB_STAT_role (1); let s : State := { s with combway := { s.combway with silenced := false } }; s), ({ cycle := 0, role := 1, ready := false, epoch := 1, digest := 0, swap := 0 } : Heartbeat), by decide +kernel⟩,
   ⟨(let s : State := .reset; let s : State := s.wr F.BLW_CTL_enable (1); let s : State := s.wr F.GLB_STAT_cycle_run (1); let s : State := s.wr F.BLW_STAT_hb_lost (1); let s : State := s.wr F.HIF_EVT_MAP_enable (1) 108; s), by decide +kernel⟩,
   ⟨(let s : State := .reset; let s : State := s.wr F.GLB_STAT_mode (0); s), ({ complete := false, kib := 0, mode := 0, counters := [], axes := [], windows := [], chains := [], keepers := [], numbers := [], contexts := [] } : Mirror), by decide +kernel⟩,
   ⟨(let s : State := .reset; let s : State := s.wr F.GLB_STAT_mode (6); let s : State := s.wr F.BLW_CTL_enable (1); let s : State := s.wr F.BLW_STAT_link (1); s), ({ complete := false, kib := 0, mode := 0, counters := [], axes := [], windows := [], chains := [], keepers := [], numbers := [], contexts := [] } : Mirror), by decide +kernel⟩,
   ⟨(let s : State := .reset; let s : State := s.wr F.GLB_STAT_mode (6); let s : State := s.wr F.BLW_CTL_enable (1); let s : State := s.wr F.BLW_STAT_link (1); s), ({ complete := true, kib := 0, mode := 0, counters := [], axes := [], windows := [], chains := [], keepers := [], numbers := [], contexts := [] } : Mirror), by decide +kernel⟩,
   ⟨(let s : State := .reset; s), 3, by decide +kernel⟩,
   ⟨(let s : State := .reset; let s : State := s.wr F.HIF_EVT_MAP_enable (1) 110; let s : State := s.wr F.BLW_STAT_lanes 8; s), 3, by decide +kernel⟩,
   ⟨(let s : State := .reset; let s : State := s.wr F.BLW_CTL_enable (0); s), 3, by decide +kernel⟩,
   ⟨(let s : State := .reset; let s : State := s.wr F.BLW_CTL_enable (1); let s : State := s.wr F.HIF_EVT_MAP_enable (1) 110; s), 3, by decide +kernel⟩⟩

end Sys2Proof.Machine
end

