-- ==== Sys2Proof/Tests/Witness4.lean ====
section
/-!
SUPPORT. Tests/Witness4.lean: for the obligations from TakeoverAndSwap to WaxbookThroughReset, a state and operands that meet the
hypotheses of each clause together.
-/

set_option Elab.async false
set_option linter.unusedVariables false

namespace Sys2Proof.Machine

/-- The two clauses of ImageSlotChoice that rest on a valid signature; whether a signature is valid is an opaque
constant of Config, so the witness is conditional on it. -/
theorem witness_ImageSlotChoice_signed (hv : ∀ k m g, Config.ed25519Verify k m g = true) :
    (∃ s : State, s.upd.boot = 3 ∧ s.upd.kindle = 0 ∧ s.bootCheck s.firstSlot = 0)
    ∧ ∃ (s : State) (k : Nat), s.upd.boot = 3 ∧ s.upd.kindle = 0 ∧ s.bootCheck s.firstSlot = k ∧ k ≠ 0
      ∧ (s.rejectSlot s.firstSlot k).bootCheck (1 - s.firstSlot) = 0 := by
  refine ⟨⟨bootState goodHeader [], rfl, rfl, ?_⟩, bootState [] goodHeader, 2, rfl, rfl, by decide +kernel, by decide, ?_⟩
  · have h : (bootState goodHeader []).firstSlot = 0 := by decide +kernel
    rw [h]; unfold State.bootCheck State.signedBy; simp only [hv]; decide +kernel
  · have h : (bootState [] goodHeader).firstSlot = 0 := by decide +kernel
    rw [h]; unfold State.bootCheck State.signedBy; simp only [hv]; decide +kernel

theorem witness_TakeoverAndSwap :
    (∃ (s : State), (s.mode ≠ 6))
    ∧ (∃ (s : State) (g : Nat) (k : Nat), (s.timingSeg = some g) ∧ ((List.range (Sched.slots (s.sched g))).find? (fun k => (Sched.slot (s.sched g) k).owner == s.ownNode g) = some k) ∧ (s.mode = 6) ∧ (s.on F.BLW_CTL_enable = true) ∧ (s.running = true) ∧ (s.combway.silenced = false) ∧ (2 ≤ s.rd F.BLW_STAT_hb_lost) ∧ (s.bellows.lost = some s.tim.cycle) ∧ (s.frameMissing g k = true) ∧ (s.isReady = true) ∧ ((∀ p ∈ s.bellows.numbers, p.1 < 128)))
    ∧ (∃ (s : State) (g : Nat) (k : Nat), (s.timingSeg = some g) ∧ ((List.range (Sched.slots (s.sched g))).find? (fun k => (Sched.slot (s.sched g) k).owner == s.ownNode g) = some k) ∧ (s.mode = 6) ∧ (s.on F.BLW_CTL_enable = true) ∧ (s.running = true) ∧ (s.combway.silenced = false) ∧ (2 ≤ s.rd F.BLW_STAT_hb_lost) ∧ (s.bellows.lost = some s.tim.cycle) ∧ (s.frameMissing g k = true) ∧ (s.isReady = false) ∧ (s.takesEvent 109))
    ∧ (∃ (s : State) (r : Fin 64) (d : Desc), (s.Starts r 0x0510 d) ∧ (s.mode = 3 ∨ s.mode = 4) ∧ (s.rd F.GLB_STAT_role = 1) ∧ (d.op 32 4 = 0))
    ∧ (∃ (s : State) (r : Fin 64) (d : Desc), (s.Starts r 0x0510 d) ∧ ((s.mode ≠ 3 ∧ s.mode ≠ 4) ∨ s.rd F.GLB_STAT_role ≠ 1))
    ∧ (∃ (s : State) (r : Fin 64) (d : Desc), (s.Starts r 0x0510 d) ∧ (s.mode = 3 ∨ s.mode = 4) ∧ (s.rd F.GLB_STAT_role = 1) ∧ (d.op 32 4 ≠ 0) ∧ (sgn 32 (uns 32 ((d.op 32 4 : Int) - s.tim.cycle)) < 8))
    ∧ (∃ (s : State) (d : Desc) (c : Nat), (s.mode = 3 ∨ s.mode = 4) ∧ (s.rd F.GLB_STAT_role = 1) ∧ (s.bellows.swaps = [(d.id, c)]) ∧ (s.swapDue c = true) ∧ (s.on F.BLW_STAT_partner_ready = true) ∧ (s.rd F.BLW_STAT_hb_lost = 0) ∧ (s.hif.desc = [d]) ∧ (d.quiet = false) ∧ (s.ringClass d.ring ≠ 1))
    ∧ (∃ (s : State) (d : Desc) (c : Nat) (a : Bool) (b : Bool), (s.mode = 3 ∨ s.mode = 4) ∧ (s.rd F.GLB_STAT_role = 1) ∧ (s.bellows.swaps = [(d.id, c)]) ∧ (s.swapDue c = true) ∧ (s.on F.BLW_STAT_partner_ready = false) ∧ (s.hif.desc = [d]) ∧ (d.quiet = false))
    ∧ (∃ (s : State) (a : Bool) (b : Bool), (s.mode = 3 ∨ s.mode = 4) ∧ (s.bellows.swaps = []))
    ∧ (∃ (s : State), (s.mode = 6) ∧ (s.bellows.partnerSwap ≠ 0) ∧ (s.swapDue s.bellows.partnerSwap = true) ∧ (s.isReady = true) ∧ (s.rd F.BLW_STAT_hb_lost = 0) ∧ ((∀ p ∈ s.bellows.numbers, p.1 < 128))) :=
  ⟨⟨(let s : State := .reset; let s : State := s.wr F.GLB_STAT_mode (0); s), by decide +kernel⟩,
   ⟨(let s : State := .reset; let s : State := s.wr F.GLB_STAT_mode (6); let s : State := s.wr F.BLW_CTL_enable (1); let s : State := s.wr F.GLB_STAT_cycle_run (1); let s : State := { s with combway := { s.combway with silenced := false } }; let s : State := s.wr F.BLW_STAT_hb_lost (2); let s : State := { s with bellows := { s.bellows with lost := some s.tim.cycle } }; let s : State := s.wr F.BLW_STAT_link 1; let s : State := { s with bellows.mode := 3 }; let s : State := { s with bellows.mirrorOk := true }; let s : State := s.wr F.CMB_SYNC_STAT_state 5 0; let s : State := s.wr F.QNC_STAT_confirmed 1; let s : State := s.wr F.CMB_SYNC_CFG_timing 1 0; let s : State := s.setSeg 0 { (s.seg 0) with sched := some kindleBody }; s), 0, 0, by decide +kernel⟩,
   ⟨(let s : State := .reset; let s : State := s.wr F.GLB_STAT_mode (6); let s : State := s.wr F.BLW_CTL_enable (1); let s : State := s.wr F.GLB_STAT_cycle_run (1); let s : State := { s with combway := { s.combway with silenced := false } }; let s : State := s.wr F.BLW_STAT_hb_lost (2); let s : State := { s with bellows := { s.bellows with lost := some s.tim.cycle } }; let s : State := s.wr F.HIF_EVT_MAP_enable (1) 109; let s : State := s.wr F.BLW_STAT_link 1; let s : State := { s with bellows.mode := 3 }; let s : State := { s with bellows.mirrorOk := true }; let s : State := s.wr F.CMB_SYNC_STAT_state 5 0; let s : State := s.wr F.QNC_STAT_confirmed 1; let s : State := s.wr F.CMB_SYNC_CFG_timing 1 0; let s : State := s.setSeg 0 { (s.seg 0) with sched := some kindleBody }; let s : State := s.wr F.BLW_STAT_link 0; s), 0, 0, by decide +kernel⟩,
   ⟨(let s : State := .reset; let s : State := { s with hif.desc := [({ id := 0, ring := 63, slot := 0, bytes := dsc [(0, 2, 0x0510), (32, 4, 0)] } : Desc)] }; let s : State := s.wr F.GLB_STAT_mode (3); let s : State := s.wr F.GLB_STAT_role (1); s), 63, ({ id := 0, ring := 63, slot := 0, bytes := dsc [(0, 2, 0x0510), (32, 4, 0)] } : Desc), by decide +kernel⟩,
   ⟨(let s : State := .reset; let s : State := { s with hif.desc := [({ id := 0, ring := 63, slot := 0, bytes := dsc [(0, 2, 0x0510)] } : Desc)] }; let s : State := s.wr F.GLB_STAT_mode (0); let s : State := s.wr F.GLB_STAT_mode (0); s), 63, ({ id := 0, ring := 63, slot := 0, bytes := dsc [(0, 2, 0x0510)] } : Desc), by decide +kernel⟩,
   ⟨(let s : State := .reset; let s : State := { s with hif.desc := [({ id := 0, ring := 63, slot := 0, bytes := dsc [(0, 2, 0x0510), (32, 4, 1)] } : Desc)] }; let s : State := s.wr F.GLB_STAT_mode (3); let s : State := s.wr F.GLB_STAT_role (1); s), 63, ({ id := 0, ring := 63, slot := 0, bytes := dsc [(0, 2, 0x0510), (32, 4, 1)] } : Desc), by decide +kernel⟩,
   ⟨(let s : State := .reset; let s : State := s.wr F.GLB_STAT_mode (3); let s : State := s.wr F.GLB_STAT_role (1); let s : State := { s with bellows := { s.bellows with swaps := [(({ id := 0, ring := 0, slot := 0, bytes := dsc [] } : Desc).id, 0)] } }; let s : State := s.wr F.BLW_STAT_partner_ready (1); let s : State := s.wr F.BLW_STAT_hb_lost (0); let s : State := { s with hif := { s.hif with desc := [({ id := 0, ring := 0, slot := 0, bytes := dsc [] } : Desc)] } }; let s : State := s.wr F.HIF_SQ_CFG_class (0) ({ id := 0, ring := 0, slot := 0, bytes := dsc [] } : Desc).ring; s), ({ id := 0, ring := 0, slot := 0, bytes := dsc [] } : Desc), 0, by decide +kernel⟩,
   ⟨(let s : State := .reset; let s : State := s.wr F.GLB_STAT_mode (3); let s : State := s.wr F.GLB_STAT_role (1); let s : State := { s with bellows := { s.bellows with swaps := [(({ id := 0, ring := 0, slot := 0, bytes := dsc [] } : Desc).id, 0)] } }; let s : State := s.wr F.BLW_STAT_partner_ready (0); let s : State := { s with hif := { s.hif with desc := [({ id := 0, ring := 0, slot := 0, bytes := dsc [] } : Desc)] } }; s), ({ id := 0, ring := 0, slot := 0, bytes := dsc [] } : Desc), 0, false, false, by decide +kernel⟩,
   ⟨(let s : State := .reset; let s : State := s.wr F.GLB_STAT_mode (3); let s : State := { s with bellows := { s.bellows with swaps := [] } }; s), false, false, by decide +kernel⟩,
   ⟨(let s : State := .reset; let s : State := s.wr F.GLB_STAT_mode (6); let s : State := { s with bellows := { s.bellows with partnerSwap := 1 } }; let s : State := s.wr F.BLW_STAT_hb_lost (0); let s : State := s.wr F.BLW_STAT_link 1; let s : State := { s with bellows.mode := 3 }; let s : State := { s with bellows.mirrorOk := true }; let s : State := s.wr F.CMB_SYNC_STAT_state 5 0; let s : State := s.wr F.QNC_STAT_confirmed 1; let s : State := s.wr F.CMB_SYNC_CFG_timing 1 0; let s : State := s.setSeg 0 { (s.seg 0) with sched := some kindleBody }; let s : State := { s with tim.cycle := 1 }; s), by decide +kernel⟩⟩

theorem witness_ModeCommands_a :
    (∃ (s : State) (m : Master) (k : Bool) (c : Instr) (n : Nat), ((c, n) ∈ [(Instr.modeRequestRun m, 3), (.modeRequestHold m, 4), (.modeRequestCommission m, 2), (.modeRequestStage m, 7), (.modeRequestSentinel m, 5), (.modeRequestStandby m, 6), (.modeRequestColdKindle m k, if k then 1 else 0)]) ∧ (s.rd F.GLB_MODE_REQ_status = 1))
    ∧ (∃ (s : State) (m : Master) (k : Bool) (c : Instr) (n : Nat), ((c, n) ∈ [(Instr.modeRequestRun m, 3), (.modeRequestHold m, 4), (.modeRequestCommission m, 2), (.modeRequestStage m, 7), (.modeRequestSentinel m, 5), (.modeRequestStandby m, 6), (.modeRequestColdKindle m k, if k then 1 else 0)]) ∧ (s.rd F.GLB_MODE_REQ_status ≠ 1))
    ∧ (∃ (s : State), (s.glb.modeReq = none))
    ∧ (∃ (s : State) (q : ModeReq), (s.glb.modeReq = some q) ∧ (s.glb.sentinelDue ≠ none))
    ∧ (∃ (s : State) (q : ModeReq), (s.glb.modeReq = some q) ∧ (s.running = true) ∧ (cellDiff s.tim.lastInstant (q.cellAt + 2000) < 0))
    ∧ (∃ (s : State) (q : ModeReq), (s.glb.modeReq = some q) ∧ (s.glb.sentinelDue = none) ∧ (s.running = false) ∧ (needsPriv s.mode q.target = true) ∧ (q.priv = false))
    ∧ (∃ (s : State) (q : ModeReq), (s.glb.modeReq = some q) ∧ (s.glb.sentinelDue = none) ∧ (s.running = false) ∧ (needsPriv s.mode q.target = false ∨ q.priv = true) ∧ (inTable s.mode q.target = false))
    ∧ (∃ (s : State) (q : ModeReq), (s.glb.modeReq = some q) ∧ (s.glb.sentinelDue = none) ∧ (s.running = false) ∧ (s.mode = 2) ∧ (q.target = 3 ∨ q.target = 4) ∧ (s.on F.QNC_STAT_confirmed = false))
    ∧ (∃ (s : State) (q : ModeReq), (s.glb.modeReq = some q) ∧ (s.glb.sentinelDue = none) ∧ (s.running = false) ∧ (s.mode = 2) ∧ (q.target = 3 ∨ q.target = 4) ∧ (s.runWhy = 0) ∧ (s.roleChoice = 0 ∨ s.roleChoice = 5))
    ∧ (∃ (s : State) (q : ModeReq), (s.glb.modeReq = some q) ∧ (s.glb.sentinelDue = none) ∧ (s.running = false) ∧ (s.mode = 3) ∧ (q.target = 4))
    ∧ (∃ (s : State) (q : ModeReq), (s.glb.modeReq = some q) ∧ (s.glb.sentinelDue = none) ∧ (s.running = false) ∧ (s.mode = 3 ∨ s.mode = 4) ∧ (q.target = 2) ∧ (q.priv = true) ∧ ((∀ c, c < 16 → (s.chain c).state = 0 ∨ (s.chain c).state = 4)))
    ∧ (∃ (s : State) (q : ModeReq), (s.glb.modeReq = some q) ∧ (s.glb.sentinelDue = none) ∧ (s.running = false) ∧ (s.mode = 2) ∧ (q.target = 7) ∧ (q.priv = true) ∧ ((∀ c, c < 16 → (s.chain c).state = 0)) ∧ (s.on F.QNC_STAT_sto_all = true)) :=
  ⟨⟨(let s : State := .reset; let s : State := s.wr F.GLB_MODE_REQ_status (1); s), .host, true, (Instr.modeRequestColdKindle .host true), 1, by decide +kernel⟩,
   ⟨(let s : State := .reset; let s : State := s.wr F.GLB_MODE_REQ_status (0); s), .host, true, (Instr.modeRequestColdKindle .host true), 1, by decide +kernel⟩,
   ⟨(let s : State := .reset; let s : State := { s with glb := { s.glb with modeReq := none } }; s), by decide +kernel⟩,
   ⟨(let s : State := .reset; let s : State := { s with glb := { s.glb with modeReq := some ({ target := 0, priv := false, cellAt := 0, tickAt := 0 } : ModeReq) } }; let s : State := { s with glb.sentinelDue := some 0 }; s), ({ target := 0, priv := false, cellAt := 0, tickAt := 0 } : ModeReq), by decide +kernel⟩,
   ⟨(let s : State := .reset; let s : State := { s with glb := { s.glb with modeReq := some ({ target := 0, priv := false, cellAt := 0, tickAt := 0 } : ModeReq) } }; let s : State := s.wr F.GLB_STAT_cycle_run (1); s), ({ target := 0, priv := false, cellAt := 0, tickAt := 0 } : ModeReq), by decide +kernel⟩,
   ⟨(let s : State := .reset; let s : State := { s with glb := { s.glb with modeReq := some ({ target := 2, priv := false, cellAt := 0, tickAt := 0 } : ModeReq) } }; let s : State := { s with glb := { s.glb with sentinelDue := none } }; let s : State := s.wr F.GLB_STAT_cycle_run (0); s), ({ target := 2, priv := false, cellAt := 0, tickAt := 0 } : ModeReq), by decide +kernel⟩,
   ⟨(let s : State := .reset; let s : State := { s with glb := { s.glb with modeReq := some ({ target := 0, priv := false, cellAt := 0, tickAt := 0 } : ModeReq) } }; let s : State := { s with glb := { s.glb with sentinelDue := none } }; let s : State := s.wr F.GLB_STAT_cycle_run (0); s), ({ target := 0, priv := false, cellAt := 0, tickAt := 0 } : ModeReq), by decide +kernel⟩,
   ⟨(let s : State := .reset; let s : State := { s with glb := { s.glb with modeReq := some ({ target := 3, priv := false, cellAt := 0, tickAt := 0 } : ModeReq) } }; let s : State := { s with glb := { s.glb with sentinelDue := none } }; let s : State := s.wr F.GLB_STAT_cycle_run (0); let s : State := s.wr F.GLB_STAT_mode (2); let s : State := s.wr F.QNC_STAT_confirmed (0); s), ({ target := 3, priv := false, cellAt := 0, tickAt := 0 } : ModeReq), by decide +kernel⟩,
   ⟨(let s : State := .reset; let s : State := { s with glb := { s.glb with modeReq := some ({ target := 3, priv := false, cellAt := 0, tickAt := 0 } : ModeReq) } }; let s : State := { s with glb := { s.glb with sentinelDue := none } }; let s : State := s.wr F.GLB_STAT_cycle_run (0); let s : State := s.wr F.GLB_STAT_mode (2); let s : State := s.wr F.QNC_STAT_confirmed 1; let s : State := s.wr F.CMB_SYNC_CFG_timing 1 0; let s : State := s.wr F.CMB_SYNC_STAT_state 5 0; let s : State := s.wr F.GLB_STAT_ddr_ok 1; s), ({ target := 3, priv := false, cellAt := 0, tickAt := 0 } : ModeReq), by decide +kernel⟩,
   ⟨(let s : State := .reset; let s : State := { s with glb := { s.glb with modeReq := some ({ target := 4, priv := false, cellAt := 0, tickAt := 0 } : ModeReq) } }; let s : State := { s with glb := { s.glb with sentinelDue := none } }; let s : State := s.wr F.GLB_STAT_cycle_run (0); let s : State := s.wr F.GLB_STAT_mode (3); s), ({ target := 4, priv := false, cellAt := 0, tickAt := 0 } : ModeReq), by decide +kernel⟩,
   ⟨(let s : State := .reset; let s : State := { s with glb := { s.glb with modeReq := some ({ target := 2, priv := true, cellAt := 0, tickAt := 0 } : ModeReq) } }; let s : State := { s with glb := { s.glb with sentinelDue := none } }; let s : State := s.wr F.GLB_STAT_cycle_run (0); let s : State := s.wr F.GLB_STAT_mode (3); s), ({ target := 2, priv := true, cellAt := 0, tickAt := 0 } : ModeReq), by decide +kernel⟩,
   ⟨(let s : State := .reset; let s : State := { s with glb := { s.glb with modeReq := some ({ target := 7, priv := true, cellAt := 0, tickAt := 0 } : ModeReq) } }; let s : State := { s with glb := { s.glb with sentinelDue := none } }; let s : State := s.wr F.GLB_STAT_cycle_run (0); let s : State := s.wr F.GLB_STAT_mode (2); let s : State := s.wr F.QNC_STAT_sto_all (1); s), ({ target := 7, priv := true, cellAt := 0, tickAt := 0 } : ModeReq), by decide +kernel⟩⟩

theorem witness_ModeCommands_b :
    (∃ (s : State) (q : ModeReq), (s.glb.modeReq = some q) ∧ (s.glb.sentinelDue = none) ∧ (s.running = false) ∧ (sentinelFrom s.mode = true) ∧ (q.target = 5) ∧ (q.priv = true)) :=
  ⟨(let s : State := .reset; let s : State := { s with glb := { s.glb with modeReq := some ({ target := 5, priv := true, cellAt := 0, tickAt := 0 } : ModeReq) } }; let s : State := { s with glb := { s.glb with sentinelDue := none } }; let s : State := s.wr F.GLB_STAT_cycle_run (0); let s : State := s.wr F.GLB_STAT_mode 7; s), ({ target := 5, priv := true, cellAt := 0, tickAt := 0 } : ModeReq), by decide +kernel⟩

theorem witness_SentinelAndDdr :
    (∃ (s : State), (s.glb.sentinelDue = none))
    ∧ (∃ (s : State) (c : Nat), (s.glb.sentinelDue = some c) ∧ (sentinelFrom s.mode = false))
    ∧ (∃ (s : State) (c : Nat), (s.glb.sentinelDue = some c) ∧ (sentinelFrom s.mode = true))
    ∧ (∃ (s : State), (s.glb.sentinelAt = none))
    ∧ (∃ (s : State) (k : Nat), (s.glb.sentinelAt = some k) ∧ (s.running = false ∨ cellDiff s.tim.lastInstant (k + 2000) < 0))
    ∧ (∃ (s : State) (k : Nat), (s.glb.sentinelAt = some k) ∧ (s.running = true) ∧ (0 ≤ cellDiff s.tim.lastInstant (k + 2000)))
    ∧ (∃ (s : State) (m : Master) (v : BitVec 16), ((∀ c, m ≠ .forager c) ∨ v ≠ 0xA5A5))
    ∧ (∃ (s : State), (s.upd.boot < 6 ∨ s.mode = 1 ∨ s.mode = 5))
    ∧ (∃ (s : State), (6 ≤ s.upd.boot) ∧ (sentinelFrom s.mode = true) ∧ (s.mode ≠ 5) ∧ (s.glb.sentinelDue = none))
    ∧ (∃ (s : State) (ch : Fin 2) (a : DWord), (s.takesEvent 15))
    ∧ (∃ (s : State) (ch : Fin 2), (s.takesEvent 15)) :=
  ⟨⟨(let s : State := .reset; let s : State := { s with glb := { s.glb with sentinelDue := none } }; s), by decide +kernel⟩,
   ⟨(let s : State := .reset; let s : State := { s with glb := { s.glb with sentinelDue := some 0 } }; s), 0, by decide +kernel⟩,
   ⟨(let s : State := .reset; let s : State := { s with glb := { s.glb with sentinelDue := some 0 } }; let s : State := s.wr F.GLB_STAT_mode 7; s), 0, by decide +kernel⟩,
   ⟨(let s : State := .reset; let s : State := { s with glb := { s.glb with sentinelAt := none } }; s), by decide +kernel⟩,
   ⟨(let s : State := .reset; let s : State := { s with glb := { s.glb with sentinelAt := some 0 } }; let s : State := s.wr F.GLB_STAT_cycle_run (0); s), 0, by decide +kernel⟩,
   ⟨(let s : State := .reset; let s : State := { s with glb := { s.glb with sentinelAt := some 0 } }; let s : State := s.wr F.GLB_STAT_cycle_run (1); let s : State := { s with tim.lastInstant := 2000 }; s), 0, by decide +kernel⟩,
   ⟨(let s : State := .reset; s), .host, 0, by decide +kernel⟩,
   ⟨(let s : State := .reset; let s : State := { s with upd := { s.upd with boot := 5 } }; s), by decide +kernel⟩,
   ⟨(let s : State := .reset; let s : State := { s with upd := { s.upd with boot := 6 } }; let s : State := s.wr F.GLB_STAT_mode (0); let s : State := { s with glb := { s.glb with sentinelDue := none } }; let s : State := s.wr F.GLB_STAT_mode 7; s), by decide +kernel⟩,
   ⟨(let s : State := .reset; let s : State := s.wr F.HIF_EVT_MAP_enable (1) 15; s), 1, 0, by decide +kernel⟩,
   ⟨(let s : State := .reset; let s : State := s.wr F.HIF_EVT_MAP_enable (1) 15; s), 1, by decide +kernel⟩⟩

theorem witness_ResetsAndPlls :
    (∃ (s : State) (c : Instr) (k : Nat), ((c, k) ∈ [(Instr.farrierWatchdogReset, 4), (.softwareReset .farrier, 3), (.softwareReset .quench, 3), (.pinReset 10000, 2)]) ∧ (s.glb.posted = []))
    ∧ (∃ (s : State) (w : Word), (w.toNat < 1000))
    ∧ (∃ (s : State) (w : Word), (10000 ≤ w.toNat))
    ∧ (∃ (s : State) (w : Word), (1000 ≤ w.toNat) ∧ (w.toNat < 10000))
    ∧ (∃ (s : State) (m : Master), (s.privileged m = false))
    ∧ (∃ (s : State) (m : Master), (s.privileged m = true) ∧ ((∃ p ∈ s.glb.posted, p.off = F.CLK_RST_CTL_dev_reset.addr 0 0)))
    ∧ (∃ (s : State) (k : Fin 7), (k.val = 0 ∨ k.val = 4))
    ∧ (∃ (s : State) (k : Fin 7), (k.val ≠ 0) ∧ (k.val ≠ 4) ∧ (k.val ≠ 3) ∧ (s.takesEvent 127))
    ∧ (∃ (s : State) (k : Fin 7), (k.val = 1 ∨ k.val = 2) ∧ (sentinelFrom s.mode = true) ∧ (s.glb.sentinelDue = none)) :=
  ⟨⟨(let s : State := .reset; let s : State := { s with glb := { s.glb with posted := [] } }; s), (Instr.pinReset 10000), 2, by decide +kernel⟩,
   ⟨(let s : State := .reset; s), 999, by decide +kernel⟩,
   ⟨(let s : State := .reset; s), 10000, by decide +kernel⟩,
   ⟨(let s : State := .reset; s), 9999, by decide +kernel⟩,
   ⟨(let s : State := .reset; s), .engine, by decide +kernel⟩,
   ⟨(let s : State := .reset; let s : State := { s with glb.posted := [{ off := F.CLK_RST_CTL_dev_reset.addr 0 0, value := 0, arrived := 0 }] }; s), .farrier, by decide +kernel⟩,
   ⟨(let s : State := .reset; s), 0, by decide +kernel⟩,
   ⟨(let s : State := .reset; let s : State := s.wr F.HIF_EVT_MAP_enable (1) 127; s), 6, by decide +kernel⟩,
   ⟨(let s : State := .reset; let s : State := { s with glb := { s.glb with sentinelDue := none } }; let s : State := s.wr F.GLB_STAT_mode 7; s), 2, by decide +kernel⟩⟩

theorem witness_BootPhases_a :
    (∃ (s : State), (s.upd.boot = 0) ∧ (s.clk.hot = false) ∧ (s.clk.railHeld = 0))
    ∧ (∃ (s : State), (s.upd.boot ≠ 0 ∨ s.clk.hot = true ∨ s.clk.railHeld ≠ 0))
    ∧ (∃ (s : State), (s.upd.boot = 1))
    ∧ (∃ (s : State), (s.upd.boot ≠ 1))
    ∧ (∃ (s : State) (p : Bool), (s.upd.boot ≠ 2))
    ∧ (∃ (s : State), (s.upd.boot = 2) ∧ (s.on F.CLK_RST_CTL_kindle_next = false))
    ∧ (∃ (s : State) (p : Bool), (s.upd.boot = 2) ∧ (p = true ∨ s.on F.CLK_RST_CTL_kindle_next = true))
    ∧ (∃ (s : State) (ok : Bool), (s.upd.boot ≠ 4))
    ∧ (∃ (s : State), (s.upd.boot = 4))
    ∧ (∃ (s : State) (f : Bool), (s.upd.boot ≠ 5 ∨ f = false))
    ∧ (∃ (s : State), (s.upd.boot = 5))
    ∧ (∃ (s : State) (l : List Byte) (o : Option Word), (s.upd.boot ≠ 6 ∨ s.mode ≠ 0)) :=
  ⟨⟨(let s : State := .reset; let s : State := { s with upd := { s.upd with boot := 0 } }; let s : State := { s with clk := { s.clk with hot := false } }; let s : State := { s with clk := { s.clk with railHeld := 0 } }; s), by decide +kernel⟩,
   ⟨(let s : State := .reset; let s : State := { s with upd := { s.upd with boot := 1 } }; s), by decide +kernel⟩,
   ⟨(let s : State := .reset; let s : State := { s with upd := { s.upd with boot := 1 } }; s), by decide +kernel⟩,
   ⟨(let s : State := .reset; let s : State := { s with upd := { s.upd with boot := 0 } }; s), by decide +kernel⟩,
   ⟨(let s : State := .reset; let s : State := { s with upd := { s.upd with boot := 0 } }; s), false, by decide +kernel⟩,
   ⟨(let s : State := .reset; let s : State := { s with upd := { s.upd with boot := 2 } }; let s : State := s.wr F.CLK_RST_CTL_kindle_next (0); s), by decide +kernel⟩,
   ⟨(let s : State := .reset; let s : State := { s with upd := { s.upd with boot := 2 } }; s), true, by decide +kernel⟩,
   ⟨(let s : State := .reset; let s : State := { s with upd := { s.upd with boot := 0 } }; s), false, by decide +kernel⟩,
   ⟨(let s : State := .reset; let s : State := { s with upd := { s.upd with boot := 4 } }; s), by decide +kernel⟩,
   ⟨(let s : State := .reset; let s : State := { s with upd := { s.upd with boot := 0 } }; s), false, by decide +kernel⟩,
   ⟨(let s : State := .reset; let s : State := { s with upd := { s.upd with boot := 5 } }; s), by decide +kernel⟩,
   ⟨(let s : State := .reset; let s : State := { s with upd := { s.upd with boot := 0 } }; s), [], none, by decide +kernel⟩⟩

theorem witness_BootPhases_b :
    (∃ (s : State) (l : List Byte) (o : Option Word), (s.upd.boot = 6) ∧ (s.mode = 0) ∧ (s.readableSet = none))
    ∧ (∃ (s : State) (l : List Byte) (o : Option Word) (n : Nat), (s.upd.boot = 6) ∧ (s.mode = 0) ∧ (s.readableSet = some n) ∧ ((s.settingsRec n).format = s.imageFormat) ∧ (s.imageFormat < 2 ^ F.UPD_SET_format.width))
    ∧ (∃ (s : State) (l : List Byte) (w : Word) (n : Nat), (s.upd.boot = 6) ∧ (s.mode = 0) ∧ (s.readableSet = some n) ∧ ((s.settingsRec n).format ≠ s.imageFormat))
    ∧ (∃ (s : State) (l : List Byte) (n : Nat), (s.upd.boot = 6) ∧ (s.mode = 0) ∧ (s.readableSet = some n) ∧ ((s.settingsRec n).format ≠ s.imageFormat) ∧ (field (s.ingotHeader s.upd.running) 354 2 ≤ (s.settingsRec n).format))
    ∧ (∃ (s : State) (b : Bool), (s.upd.boot ≠ 7 ∨ s.mode ≠ 0))
    ∧ (∃ (s : State) (b : Bool), (s.upd.boot = 7) ∧ (s.mode = 0) ∧ (b = false ∨ s.on F.QNC_STAT_confirmed = false))
    ∧ (∃ (s : State), (s.upd.boot = 7) ∧ (s.mode = 0) ∧ (s.on F.QNC_STAT_confirmed = true) ∧ (s.roleChoice = 0)) :=
  ⟨⟨(let s : State := .reset; let s : State := { s with upd := { s.upd with boot := 6 } }; let s : State := s.wr F.GLB_STAT_mode (0); s), [], none, by decide +kernel⟩,
   ⟨(let s : State := .reset; let s : State := { s with upd.boot := 6 }; let s : State := s.setSettings 1 { valid := true, format := 0 }; s), [], none, 1, by decide +kernel⟩,
   ⟨(let s : State := .reset; let s : State := { s with upd.boot := 6 }; let s : State := { s with upd.flash0 := [(353, 1)] }; let s : State := s.setSettings 1 { valid := true, format := 0 }; s), [], 0, 1, by decide +kernel⟩,
   ⟨(let s : State := .reset; let s : State := { s with upd.boot := 6 }; let s : State := { s with upd.flash0 := [(352, 1), (354, 0), (355, 0)] }; let s : State := s.setSettings 1 { valid := true, format := 0 }; s), [], 1, by decide +kernel⟩,
   ⟨(let s : State := .reset; let s : State := { s with upd := { s.upd with boot := 0 } }; s), false, by decide +kernel⟩,
   ⟨(let s : State := .reset; let s : State := { s with upd := { s.upd with boot := 7 } }; let s : State := s.wr F.GLB_STAT_mode (0); s), false, by decide +kernel⟩,
   ⟨(let s : State := .reset; let s : State := { s with upd := { s.upd with boot := 7 } }; let s : State := s.wr F.GLB_STAT_mode (0); let s : State := s.wr F.QNC_STAT_confirmed (1); s), by decide +kernel⟩⟩

theorem witness_ImageSlotChoice :
    (∃ (s : State), (s.upd.boot ≠ 3 ∨ s.upd.kindle ≠ 0))
    ∧ (∃ (s : State), (s.upd.boot = 3) ∧ (s.upd.kindle = 0) ∧ (s.bootCheck s.firstSlot ≠ 0) ∧ ((s.rejectSlot s.firstSlot (s.bootCheck s.firstSlot)).bootCheck (1 - s.firstSlot) ≠ 0)) :=
  ⟨⟨(let s : State := .reset; let s : State := { s with upd := { s.upd with boot := 0 } }; s), by decide +kernel⟩,
   ⟨(let s : State := .reset; let s : State := { s with upd := { s.upd with boot := 3 } }; let s : State := { s with upd := { s.upd with kindle := 0 } }; s), by decide +kernel⟩⟩

theorem witness_StagingCommands_a :
    (∃ (s : State) (r : Fin 64) (d : Desc), (s.Starts r 0x0801 d) ∧ (s.mode ≠ 7) ∧ (s.mode ≠ 1))
    ∧ (∃ (s : State) (r : Fin 64) (d : Desc), (s.Starts r 0x0801 d) ∧ (s.mode = 7) ∧ ((s.slotRec s.upd.running).state = 3) ∧ (d.op 36 1 = 0xFF) ∧ (s.rd F.UPD_STAGE_owner = 2))
    ∧ (∃ (s : State) (r : Fin 64) (d : Desc), (s.Starts r 0x0801 d) ∧ (s.mode = 7) ∧ ((s.slotRec s.upd.running).state = 3) ∧ (d.op 36 1 = 0xFF) ∧ (s.rd F.UPD_STAGE_owner = 0) ∧ (100663296 < d.op 32 4))
    ∧ (∃ (s : State) (r : Fin 64) (d : Desc), (s.Starts r 0x0801 d) ∧ (s.mode = 7) ∧ ((s.slotRec s.upd.running).state = 3) ∧ (d.op 36 1 = 0xFF) ∧ (s.rd F.UPD_STAGE_owner = 0) ∧ (640 ≤ d.op 32 4) ∧ (d.op 32 4 ≤ 100663296) ∧ (s.takesEvent 114))
    ∧ (∃ (s : State) (r : Fin 64) (io : HostIo) (d : Desc), (s.Starts r 0x0802 d) ∧ (s.mode = 7) ∧ (s.rd F.UPD_STAGE_owner ≠ 1))
    ∧ (∃ (s : State) (r : Fin 64) (io : HostIo) (d : Desc), (s.Starts r 0x0802 d) ∧ (s.mode = 7) ∧ (s.rd F.UPD_STAGE_owner = 1) ∧ (d.op 32 4 ≠ s.upd.written ∨ s.upd.length < d.op 32 4 + d.op 24 4))
    ∧ (∃ (s : State) (r : Fin 64) (io : HostIo) (d : Desc), (s.Starts r 0x0802 d) ∧ (s.mode = 7) ∧ (s.rd F.UPD_STAGE_owner = 1) ∧ (d.op 32 4 = s.upd.written) ∧ (d.op 32 4 + d.op 24 4 ≤ s.upd.length) ∧ (io.bodyErr = false))
    ∧ (∃ (s : State) (r : Fin 64) (d : Desc), (s.Starts r 0x0803 d) ∧ (s.mode = 7) ∧ (s.rd F.UPD_STAGE_owner = 1) ∧ (s.upd.written < s.upd.length))
    ∧ (∃ (s : State) (r : Fin 64) (d : Desc), (s.Starts r 0x0803 d) ∧ (s.mode = 7) ∧ (s.rd F.UPD_STAGE_owner = 1) ∧ (s.upd.length ≤ s.upd.written) ∧ (s.takesEvent 114) ∧ (s.hif.events.length < 767) ∧ (s.rd F.HIF_EVT_MAP_enable 115 ≠ 0) ∧ (s.on F.WAX_CTL_enable = false))
    ∧ (∃ (s : State) (r : Fin 64) (d : Desc), (s.Starts r 0x0804 d) ∧ (s.mode = 7) ∧ (s.rd F.UPD_STAGE_owner = 1) ∧ (s.takesEvent 114))
    ∧ (∃ (s : State) (op : StageOp), (s.mode ≠ 7))
    ∧ (∃ (s : State) (l : Word), (s.mode = 7) ∧ ((s.slotRec s.upd.running).state = 3) ∧ (s.rd F.UPD_STAGE_owner = 0) ∧ (640 ≤ l.toNat) ∧ (l.toNat ≤ 100663296)) :=
  ⟨⟨(let s : State := .reset; let s : State := { s with hif.desc := [({ id := 0, ring := 63, slot := 0, bytes := dsc [(0, 2, 0x0801)] } : Desc)] }; let s : State := s.wr F.GLB_STAT_mode (0); let s : State := s.wr F.GLB_STAT_mode (0); s), 63, ({ id := 0, ring := 63, slot := 0, bytes := dsc [(0, 2, 0x0801)] } : Desc), by decide +kernel⟩,
   ⟨(let s : State := .reset; let s : State := { s with hif.desc := [({ id := 0, ring := 63, slot := 0, bytes := dsc [(0, 2, 0x0801), (36, 1, 0xFF)] } : Desc)] }; let s : State := s.wr F.GLB_STAT_mode (7); let s : State := s.setSlot s.upd.running { (s.slotRec s.upd.running) with state := 3 }; let s : State := s.wr F.UPD_STAGE_owner (2); s), 63, ({ id := 0, ring := 63, slot := 0, bytes := dsc [(0, 2, 0x0801), (36, 1, 0xFF)] } : Desc), by decide +kernel⟩,
   ⟨(let s : State := .reset; let s : State := { s with hif.desc := [({ id := 0, ring := 63, slot := 0, bytes := dsc [(0, 2, 0x0801), (32, 4, 100663297), (36, 1, 0xFF)] } : Desc)] }; let s : State := s.wr F.GLB_STAT_mode (7); let s : State := s.setSlot s.upd.running { (s.slotRec s.upd.running) with state := 3 }; let s : State := s.wr F.UPD_STAGE_owner (0); s), 63, ({ id := 0, ring := 63, slot := 0, bytes := dsc [(0, 2, 0x0801), (32, 4, 100663297), (36, 1, 0xFF)] } : Desc), by decide +kernel⟩,
   ⟨(let s : State := .reset; let s : State := { s with hif.desc := [({ id := 0, ring := 63, slot := 0, bytes := dsc [(0, 2, 0x0801), (32, 4, 640), (36, 1, 0xFF)] } : Desc)] }; let s : State := s.wr F.GLB_STAT_mode (7); let s : State := s.setSlot s.upd.running { (s.slotRec s.upd.running) with state := 3 }; let s : State := s.wr F.UPD_STAGE_owner (0); let s : State := s.wr F.HIF_EVT_MAP_enable (1) 114; s), 63, ({ id := 0, ring := 63, slot := 0, bytes := dsc [(0, 2, 0x0801), (32, 4, 640), (36, 1, 0xFF)] } : Desc), by decide +kernel⟩,
   ⟨(let s : State := .reset; let s : State := { s with hif.desc := [({ id := 0, ring := 63, slot := 0, bytes := dsc [(0, 2, 0x0802)] } : Desc)] }; let s : State := s.wr F.GLB_STAT_mode (7); let s : State := s.wr F.UPD_STAGE_owner (0); s), 63, ({} : HostIo), ({ id := 0, ring := 63, slot := 0, bytes := dsc [(0, 2, 0x0802)] } : Desc), by decide +kernel⟩,
   ⟨(let s : State := .reset; let s : State := { s with hif.desc := [({ id := 0, ring := 63, slot := 0, bytes := dsc [(0, 2, 0x0802), (32, 4, 1)] } : Desc)] }; let s : State := s.wr F.GLB_STAT_mode (7); let s : State := s.wr F.UPD_STAGE_owner (1); s), 63, ({} : HostIo), ({ id := 0, ring := 63, slot := 0, bytes := dsc [(0, 2, 0x0802), (32, 4, 1)] } : Desc), by decide +kernel⟩,
   ⟨(let s : State := .reset; let s : State := { s with hif.desc := [({ id := 0, ring := 63, slot := 0, bytes := dsc [(0, 2, 0x0802), (32, 4, 0)] } : Desc)] }; let s : State := s.wr F.GLB_STAT_mode (7); let s : State := s.wr F.UPD_STAGE_owner (1); s), 63, ({ bodyErr := false } : HostIo), ({ id := 0, ring := 63, slot := 0, bytes := dsc [(0, 2, 0x0802), (32, 4, 0)] } : Desc), by decide +kernel⟩,
   ⟨(let s : State := .reset; let s : State := { s with hif.desc := [({ id := 0, ring := 63, slot := 0, bytes := dsc [(0, 2, 0x0803)] } : Desc)] }; let s : State := s.wr F.GLB_STAT_mode (7); let s : State := s.wr F.UPD_STAGE_owner (1); let s : State := { s with upd.length := 1 }; s), 63, ({ id := 0, ring := 63, slot := 0, bytes := dsc [(0, 2, 0x0803)] } : Desc), by decide +kernel⟩,
   ⟨(let s : State := .reset; let s : State := { s with hif.desc := [({ id := 0, ring := 63, slot := 0, bytes := dsc [(0, 2, 0x0803)] } : Desc)] }; let s : State := s.wr F.GLB_STAT_mode (7); let s : State := s.wr F.UPD_STAGE_owner (1); let s : State := s.wr F.HIF_EVT_MAP_enable (1) 114; let s : State := s.wr F.HIF_EVT_MAP_enable (1) 115; let s : State := s.wr F.WAX_CTL_enable (0); s), 63, ({ id := 0, ring := 63, slot := 0, bytes := dsc [(0, 2, 0x0803)] } : Desc), by decide +kernel⟩,
   ⟨(let s : State := .reset; let s : State := { s with hif.desc := [({ id := 0, ring := 63, slot := 0, bytes := dsc [(0, 2, 0x0804)] } : Desc)] }; let s : State := s.wr F.GLB_STAT_mode (7); let s : State := s.wr F.UPD_STAGE_owner (1); let s : State := s.wr F.HIF_EVT_MAP_enable (1) 114; s), 63, ({ id := 0, ring := 63, slot := 0, bytes := dsc [(0, 2, 0x0804)] } : Desc), by decide +kernel⟩,
   ⟨(let s : State := .reset; let s : State := s.wr F.GLB_STAT_mode (0); s), .stageCommit, by decide +kernel⟩,
   ⟨(let s : State := .reset; let s : State := s.wr F.GLB_STAT_mode (7); let s : State := s.setSlot s.upd.running { (s.slotRec s.upd.running) with state := 3 }; let s : State := s.wr F.UPD_STAGE_owner (0); s), 100663296, by decide +kernel⟩⟩

theorem witness_StagingCommands_b :
    (∃ (s : State) (o : Word) (l : List Byte), (s.mode = 7) ∧ (s.rd F.UPD_STAGE_owner = 2) ∧ (o.toNat = s.upd.written) ∧ (o.toNat + l.length ≤ s.upd.length))
    ∧ (∃ (s : State), (s.mode = 7) ∧ (s.rd F.UPD_STAGE_owner = 2) ∧ (s.upd.length ≤ s.upd.written))
    ∧ (∃ (s : State), (s.rd F.UPD_STAGE_owner = 0))
    ∧ (∃ (s : State), (s.rd F.UPD_STAGE_owner ≠ 0) ∧ (s.takesEvent 114)) :=
  ⟨⟨(let s : State := .reset; let s : State := s.wr F.GLB_STAT_mode (7); let s : State := s.wr F.UPD_STAGE_owner (2); s), (let s : State := .reset; let s : State := s.wr F.GLB_STAT_mode (7); let s : State := s.wr F.UPD_STAGE_owner (2); s).upd.written, [], by decide +kernel⟩,
   ⟨(let s : State := .reset; let s : State := s.wr F.GLB_STAT_mode (7); let s : State := s.wr F.UPD_STAGE_owner (2); s), by decide +kernel⟩,
   ⟨(let s : State := .reset; let s : State := s.wr F.UPD_STAGE_owner (0); s), by decide +kernel⟩,
   ⟨(let s : State := .reset; let s : State := s.wr F.UPD_STAGE_owner (1); let s : State := s.wr F.HIF_EVT_MAP_enable (1) 114; s), by decide +kernel⟩⟩

theorem witness_FlashAndImages :
    (∃ (s : State) (ok : Bool), (s.upd.jobs = []))
    ∧ (∃ (s : State) (id : Nat) (off : Nat) (d : Desc) (b : List Byte) (l : List FlashJob), (s.upd.jobs = .stage (some id) off b :: l) ∧ (s.hif.desc.find? (·.id == id) = some d) ∧ (d.quiet = false) ∧ (s.rd F.UPD_STAGE_owner = 1))
    ∧ (∃ (s : State) (id : Nat) (d : Desc) (b : List Byte) (l : List FlashJob), (s.upd.jobs = .sps id b :: l) ∧ (s.hif.desc.find? (·.id == id) = some d) ∧ (d.quiet = false))
    ∧ (∃ (s : State) (c : Nat) (l : List FlashJob), (s.upd.jobs = .confirm c :: l) ∧ (c = s.rd F.QNC_SPS_CRC_crc) ∧ (s.on F.QNC_STAT_set_present = true) ∧ (s.takesEvent 106))
    ∧ (∃ (s : State) (id : Nat) (n : Nat) (d : Desc) (b : List Byte) (l : List FlashJob), (s.upd.jobs = .settings id n b :: l) ∧ (n < 2) ∧ (s.hif.desc.find? (·.id == id) = some d) ∧ (d.quiet = false))
    ∧ (∃ (s : State) (r : Fin 64) (d : Desc), (s.Starts r 0x0805 d) ∧ (s.mode ≠ 2) ∧ (s.mode ≠ 3))
    ∧ (∃ (s : State) (r : Fin 64) (d : Desc), (s.Starts r 0x0805 d) ∧ (s.mode = 2 ∨ s.mode = 3) ∧ ((s.slotRec s.upd.running).state = 3))
    ∧ (∃ (s : State) (r : Fin 64) (d : Desc), (s.Starts r 0x0805 d) ∧ (s.mode = 2 ∨ s.mode = 3) ∧ ((s.slotRec s.upd.running).state = 2) ∧ (s.upd.running < 2))
    ∧ (∃ (s : State) (r : Fin 64) (l : List Byte) (d : Desc), (s.Starts r 0x0806 d) ∧ ((s.slotRec s.upd.running).state ≠ 2))
    ∧ (∃ (s : State) (r : Fin 64) (io : HostIo) (d : Desc), (s.Starts r 0x0930 d) ∧ (d.op 24 4 < 304))
    ∧ (∃ (s : State) (r : Fin 64) (io : HostIo) (d : Desc), (s.Starts r 0x0930 d) ∧ (304 ≤ d.op 24 4) ∧ (io.resultErr = false) ∧ (s.takesEvent 119)) :=
  ⟨⟨(let s : State := .reset; let s : State := { s with upd := { s.upd with jobs := [] } }; s), false, by decide +kernel⟩,
   ⟨(let s : State := .reset; let s : State := { s with upd := { s.upd with jobs := .stage (some 0) 0 [] :: [] } }; let s : State := { s with hif := { s.hif with desc := [({ id := 0, ring := 0, slot := 0, bytes := dsc [] } : Desc)] } }; let s : State := s.wr F.UPD_STAGE_owner (1); let s : State := { s with hif.desc := [{ id := 0, ring := 0, slot := 0, bytes := dsc [] }] }; s), 0, 0, ({ id := 0, ring := 0, slot := 0, bytes := dsc [] } : Desc), [], [], by decide +kernel⟩,
   ⟨(let s : State := .reset; let s : State := { s with upd := { s.upd with jobs := .sps 0 [] :: [] } }; let s : State := { s with hif := { s.hif with desc := [({ id := 0, ring := 0, slot := 0, bytes := dsc [] } : Desc)] } }; let s : State := { s with hif.desc := [{ id := 0, ring := 0, slot := 0, bytes := dsc [] }] }; s), 0, ({ id := 0, ring := 0, slot := 0, bytes := dsc [] } : Desc), [], [], by decide +kernel⟩,
   ⟨(let s : State := .reset; let s : State := { s with upd := { s.upd with jobs := .confirm (s.rd F.QNC_SPS_CRC_crc) :: [] } }; let s : State := s.wr F.QNC_STAT_set_present (1); let s : State := s.wr F.HIF_EVT_MAP_enable (1) 106; s), (let s : State := .reset; let s : State := { s with upd := { s.upd with jobs := .confirm (s.rd F.QNC_SPS_CRC_crc) :: [] } }; let s : State := s.wr F.QNC_STAT_set_present (1); let s : State := s.wr F.HIF_EVT_MAP_enable (1) 106; s).rd F.QNC_SPS_CRC_crc, [], by decide +kernel⟩,
   ⟨(let s : State := .reset; let s : State := { s with upd := { s.upd with jobs := .settings 0 1 [] :: [] } }; let s : State := { s with hif := { s.hif with desc := [({ id := 0, ring := 0, slot := 0, bytes := dsc [] } : Desc)] } }; let s : State := { s with hif.desc := [{ id := 0, ring := 0, slot := 0, bytes := dsc [] }] }; s), 0, 1, ({ id := 0, ring := 0, slot := 0, bytes := dsc [] } : Desc), [], [], by decide +kernel⟩,
   ⟨(let s : State := .reset; let s : State := { s with hif.desc := [({ id := 0, ring := 63, slot := 0, bytes := dsc [(0, 2, 0x0805)] } : Desc)] }; let s : State := s.wr F.GLB_STAT_mode (0); let s : State := s.wr F.GLB_STAT_mode (0); s), 63, ({ id := 0, ring := 63, slot := 0, bytes := dsc [(0, 2, 0x0805)] } : Desc), by decide +kernel⟩,
   ⟨(let s : State := .reset; let s : State := { s with hif.desc := [({ id := 0, ring := 63, slot := 0, bytes := dsc [(0, 2, 0x0805)] } : Desc)] }; let s : State := s.wr F.GLB_STAT_mode (2); let s : State := s.setSlot s.upd.running { (s.slotRec s.upd.running) with state := 3 }; s), 63, ({ id := 0, ring := 63, slot := 0, bytes := dsc [(0, 2, 0x0805)] } : Desc), by decide +kernel⟩,
   ⟨(let s : State := .reset; let s : State := { s with hif.desc := [({ id := 0, ring := 63, slot := 0, bytes := dsc [(0, 2, 0x0805)] } : Desc)] }; let s : State := s.wr F.GLB_STAT_mode (2); let s : State := s.setSlot s.upd.running { (s.slotRec s.upd.running) with state := 2 }; let s : State := { s with upd := { s.upd with running := 1 } }; let s : State := { s with upd.running := 1 }; let s : State := s.setSlot 1 { (s.slotRec 1) with state := 2 }; s), 63, ({ id := 0, ring := 63, slot := 0, bytes := dsc [(0, 2, 0x0805)] } : Desc), by decide +kernel⟩,
   ⟨(let s : State := .reset; let s : State := { s with hif.desc := [({ id := 0, ring := 63, slot := 0, bytes := dsc [(0, 2, 0x0806)] } : Desc)] }; let s : State := s.setSlot s.upd.running { (s.slotRec s.upd.running) with state := 0 }; s), 63, [], ({ id := 0, ring := 63, slot := 0, bytes := dsc [(0, 2, 0x0806)] } : Desc), by decide +kernel⟩,
   ⟨(let s : State := .reset; let s : State := { s with hif.desc := [({ id := 0, ring := 63, slot := 0, bytes := dsc [(0, 2, 0x0930), (24, 4, 303)] } : Desc)] }; s), 63, ({} : HostIo), ({ id := 0, ring := 63, slot := 0, bytes := dsc [(0, 2, 0x0930), (24, 4, 303)] } : Desc), by decide +kernel⟩,
   ⟨(let s : State := .reset; let s : State := { s with hif.desc := [({ id := 0, ring := 63, slot := 0, bytes := dsc [(0, 2, 0x0930), (24, 4, 304)] } : Desc)] }; let s : State := s.wr F.HIF_EVT_MAP_enable (1) 119; s), 63, ({ resultErr := false } : HostIo), ({ id := 0, ring := 63, slot := 0, bytes := dsc [(0, 2, 0x0930), (24, 4, 304)] } : Desc), by decide +kernel⟩⟩

theorem witness_WaxbookCommands_a :
    (∃ (s : State) (m : Word), (s.on F.WAX_CTL_enable = false))
    ∧ (∃ (s : State) (k : Fin 32), (s.rd F.WAX_TRIG0_kind k = 3) ∧ (s.trigReady k = true) ∧ (s.inHoldoff k = false) ∧ (s.on F.WAX_STAT_full = false) ∧ (s.wax.queue.length < 8))
    ∧ (∃ (s : State), (s.wax.queue = [] ∨ s.wax.busy ≠ none ∨ s.on F.WAX_STAT_full = true ∨ s.on F.WAX_CTL_enable = false))
    ∧ (∃ (s : State) (f : Firing) (l : List Firing), (s.wax.queue = f :: l) ∧ (s.wax.busy = none) ∧ (s.on F.WAX_STAT_full = false) ∧ (s.on F.WAX_CTL_enable = true) ∧ (s.waxFits (s.waxRecord f).length = true))
    ∧ (∃ (s : State) (f : Firing) (l : List Firing), (s.wax.queue = f :: l) ∧ (s.wax.busy = none) ∧ (s.on F.WAX_STAT_full = false) ∧ (s.on F.WAX_CTL_enable = true) ∧ (s.waxFits (s.waxRecord f).length = false) ∧ (s.takesEvent 121))
    ∧ (∃ (s : State) (e : Bool), (s.wax.busy = none))
    ∧ (∃ (s : State) (e : Bool) (w : WaxRecord), (s.wax.busy = some w) ∧ (s.wax.clearWaiting = false) ∧ (w.at_ + w.bytes.length ≤ 786432))
    ∧ (∃ (s : State) (w : WaxRecord), (s.wax.busy = some w) ∧ (s.wax.clearWaiting = false) ∧ (786432 < w.at_ + w.bytes.length) ∧ (s.wax.failed = false))
    ∧ (∃ (s : State) (m : Master), (s.privileged m = false))
    ∧ (∃ (s : State) (m : Master), (s.privileged m = true) ∧ (s.wax.busy ≠ none))
    ∧ (∃ (s : State) (m : Master), (s.privileged m = true) ∧ (s.wax.busy = none) ∧ (s.takesEvent 123))
    ∧ (∃ (s : State) (m : Master) (w : BitVec 22) (z : BitVec 4), (z ≠ 4 ∨ w.toNat % 4 ≠ 0)) :=
  ⟨⟨(let s : State := .reset; let s : State := s.wr F.WAX_CTL_enable (0); s), 0, by decide +kernel⟩,
   ⟨(let s : State := .reset; let s : State := s.wr F.WAX_TRIG0_kind (3) 31; let s : State := s.wr F.WAX_STAT_full (0); let s : State := s.wr F.WAX_CTL_enable 1; s), 31, by decide +kernel⟩,
   ⟨(let s : State := .reset; let s : State := { s with wax := { s.wax with queue := [] } }; s), by decide +kernel⟩,
   ⟨(let s : State := .reset; let s : State := { s with wax := { s.wax with queue := ({ trig := 0, kind := 0, src := 0, inst := 0, code := 0, time := 0, mode := 0, provisional := false } : Firing) :: [] } }; let s : State := { s with wax := { s.wax with busy := none } }; let s : State := s.wr F.WAX_STAT_full (0); let s : State := s.wr F.WAX_CTL_enable (1); s), ({ trig := 0, kind := 0, src := 0, inst := 0, code := 0, time := 0, mode := 0, provisional := false } : Firing), [], by decide +kernel⟩,
   ⟨(let s : State := .reset; let s : State := { s with wax := { s.wax with queue := ({ trig := 0, kind := 0, src := 0, inst := 0, code := 0, time := 0, mode := 0, provisional := false } : Firing) :: [] } }; let s : State := { s with wax := { s.wax with busy := none } }; let s : State := s.wr F.WAX_STAT_full (0); let s : State := s.wr F.WAX_CTL_enable (1); let s : State := s.wr F.HIF_EVT_MAP_enable (1) 121; let s : State := s.wr F.WAX_FILL_bytes 786432; let s : State := s.wr F.GLB_STAT_mode 5; s), ({ trig := 0, kind := 0, src := 0, inst := 0, code := 0, time := 0, mode := 0, provisional := false } : Firing), [], by decide +kernel⟩,
   ⟨(let s : State := .reset; let s : State := { s with wax := { s.wax with busy := none } }; s), false, by decide +kernel⟩,
   ⟨(let s : State := .reset; let s : State := { s with wax := { s.wax with busy := some ({ bytes := [], at_ := 0 } : WaxRecord) } }; let s : State := { s with wax := { s.wax with clearWaiting := false } }; s), false, ({ bytes := [], at_ := 0 } : WaxRecord), by decide +kernel⟩,
   ⟨(let s : State := .reset; let s : State := { s with wax := { s.wax with busy := some ({ bytes := [0], at_ := 786432 } : WaxRecord) } }; let s : State := { s with wax := { s.wax with clearWaiting := false } }; let s : State := { s with wax := { s.wax with failed := false } }; s), ({ bytes := [0], at_ := 786432 } : WaxRecord), by decide +kernel⟩,
   ⟨(let s : State := .reset; s), .engine, by decide +kernel⟩,
   ⟨(let s : State := .reset; let s : State := { s with wax.busy := some { bytes := [], at_ := 0 } }; s), .farrier, by decide +kernel⟩,
   ⟨(let s : State := .reset; let s : State := { s with wax := { s.wax with busy := none } }; let s : State := s.wr F.HIF_EVT_MAP_enable (1) 123; s), .farrier, by decide +kernel⟩,
   ⟨(let s : State := .reset; s), .host, 0, 0, by decide +kernel⟩⟩

theorem witness_WaxbookCommands_b :
    (∃ (s : State) (m : Master) (w : BitVec 22), (w.toNat % 4 = 0) ∧ (s.rd F.WAX_FILL_bytes ≤ 8 * s.rd F.WAX_CUR_offset + w.toNat))
    ∧ (∃ (s : State) (m : Master) (w : BitVec 22), (w.toNat % 4 = 0) ∧ (8 * s.rd F.WAX_CUR_offset + w.toNat < s.rd F.WAX_FILL_bytes) ∧ (786432 ≤ 8 * s.rd F.WAX_CUR_offset + w.toNat) ∧ (s.on F.WAX_STAT_ext_fault = true ∨ s.mode = 5))
    ∧ (∃ (s : State) (m : Master) (w : BitVec 22), (w.toNat % 4 = 0) ∧ (8 * s.rd F.WAX_CUR_offset + w.toNat + 4 ≤ 786432) ∧ (8 * s.rd F.WAX_CUR_offset + w.toNat < s.rd F.WAX_FILL_bytes) ∧ (s.privileged m = true)) :=
  ⟨⟨(let s : State := .reset; s), .host, 0, by decide +kernel⟩,
   ⟨(let s : State := .reset; let s : State := s.wr F.WAX_STAT_ext_fault (1); let s : State := s.wr F.WAX_FILL_bytes 786440; s), .host, 786432, by decide +kernel⟩,
   ⟨(let s : State := .reset; let s : State := s.wr F.WAX_FILL_bytes 786432; s), .farrier, 786428, by decide +kernel⟩⟩

theorem witness_TraceAndCounters :
    (∃ (s : State) (r : Fin 64) (d : Desc), (s.Starts r 0x0701 d) ∧ (d.op 32 8 % 4096 = 0) ∧ (d.op 40 1 ≤ 8))
    ∧ (∃ (s : State) (r : Fin 64) (d : Desc), (s.Starts r 0x0702 d))
    ∧ (∃ (s : State) (r : Fin 64) (io : HostIo) (d : Desc), (s.Starts r 0x0703 d) ∧ (io.resultErr = false) ∧ (2 ^ (20 + s.rd F.HIV_TRC_CTL_size_log2) < d.op 32 4 + d.op 24 4))
    ∧ (∃ (s : State) (r : Fin 64) (io : HostIo) (d : Desc), (s.Starts r 0x0703 d) ∧ (io.resultErr = false) ∧ (d.op 32 4 + d.op 24 4 ≤ 2 ^ (20 + s.rd F.HIV_TRC_CTL_size_log2)))
    ∧ (∃ (s : State) (r : Fin 64) (io : HostIo) (d : Desc), (s.Starts r 0x0931 d) ∧ (d.op 24 4 < 16))
    ∧ (∃ (s : State) (r : Fin 64) (io : HostIo) (d : Desc), (s.Starts r 0x0931 d) ∧ (io.resultErr = false) ∧ (s.privileged .host = true) ∧ (16 + 8 * counterOffsets.length ≤ d.op 24 4) ∧ (bitAt (d.op 32 1) 0 = false)) :=
  ⟨⟨(let s : State := .reset; let s : State := { s with hif.desc := [({ id := 0, ring := 63, slot := 0, bytes := dsc [(0, 2, 0x0701), (40, 1, 8)] } : Desc)] }; s), 63, ({ id := 0, ring := 63, slot := 0, bytes := dsc [(0, 2, 0x0701), (40, 1, 8)] } : Desc), by decide +kernel⟩,
   ⟨(let s : State := .reset; let s : State := { s with hif.desc := [({ id := 0, ring := 63, slot := 0, bytes := dsc [(0, 2, 0x0702)] } : Desc)] }; s), 63, ({ id := 0, ring := 63, slot := 0, bytes := dsc [(0, 2, 0x0702)] } : Desc), by decide +kernel⟩,
   ⟨(let s : State := .reset; let s : State := { s with hif.desc := [({ id := 0, ring := 63, slot := 0, bytes := dsc [(0, 2, 0x0703), (24, 4, 8), (32, 4, 0xFFFFFFF8)] } : Desc)] }; s), 63, ({ resultErr := false } : HostIo), ({ id := 0, ring := 63, slot := 0, bytes := dsc [(0, 2, 0x0703), (24, 4, 8), (32, 4, 0xFFFFFFF8)] } : Desc), by decide +kernel⟩,
   ⟨(let s : State := .reset; let s : State := { s with hif.desc := [({ id := 0, ring := 63, slot := 0, bytes := dsc [(0, 2, 0x0703)] } : Desc)] }; s), 63, ({ resultErr := false } : HostIo), ({ id := 0, ring := 63, slot := 0, bytes := dsc [(0, 2, 0x0703)] } : Desc), by decide +kernel⟩,
   ⟨(let s : State := .reset; let s : State := { s with hif.desc := [({ id := 0, ring := 63, slot := 0, bytes := dsc [(0, 2, 0x0931), (24, 4, 15)] } : Desc)] }; s), 63, ({} : HostIo), ({ id := 0, ring := 63, slot := 0, bytes := dsc [(0, 2, 0x0931), (24, 4, 15)] } : Desc), by decide +kernel⟩,
   ⟨(let s : State := .reset; let s : State := { s with hif.desc := [({ id := 0, ring := 63, slot := 0, bytes := dsc [(0, 2, 0x0931), (24, 4, 0xFFFFFFFF)] } : Desc)] }; let s : State := s.wr F.HIF_STAT_host_priv 1; s), 63, ({ resultErr := false } : HostIo), ({ id := 0, ring := 63, slot := 0, bytes := dsc [(0, 2, 0x0931), (24, 4, 0xFFFFFFFF)] } : Desc), by decide +kernel⟩⟩

theorem witness_SupplyAndThermal :
    (∃ (s : State) (l : List (BitVec 16)), (s.quench.railOut = false) ∧ ((∀ i, i < 11 → (sgn 16 (l.getD i 0).toNat).natAbs ≤ 50)))
    ∧ (∃ (s : State) (l : List (BitVec 16)) (i : Nat), (i < 11) ∧ (s.quench.railOut = false) ∧ (s.streak i = (2, 0, 0)) ∧ (-80 ≤ sgn 16 (l.getD i 0).toNat) ∧ (sgn 16 (l.getD i 0).toNat < -50) ∧ ((∀ j, j < 11 → j ≠ i → (sgn 16 (l.getD j 0).toNat).natAbs ≤ 50)) ∧ (s.takesEvent 126))
    ∧ (∃ (s : State) (l : List (BitVec 16)) (i : Nat), (i = 3 ∨ i = 4) ∧ (s.quench.railOut = false) ∧ (s.streak i = (2, 0, 2)) ∧ (sgn 16 (l.getD i 0).toNat < -80) ∧ ((∀ j, j < 11 → j ≠ i → (sgn 16 (l.getD j 0).toNat).natAbs ≤ 50)))
    ∧ (∃ (s : State) (l : List (BitVec 16)) (i : Nat), (i < 11) ∧ (i ≠ 3) ∧ (i ≠ 4) ∧ (s.quench.railOut = false) ∧ (s.clk.railHeld = 0) ∧ (s.streak i = (2, 0, 2)) ∧ (sgn 16 (l.getD i 0).toNat < -80) ∧ ((∀ j, j < 11 → j ≠ i → (sgn 16 (l.getD j 0).toNat).natAbs ≤ 50)))
    ∧ (∃ (s : State) (a : BitVec 8) (b : BitVec 8) (c : BitVec 8) (e : BitVec 8) (t : Int) (n : Nat), (hottest [sgn 8 a.toNat, sgn 8 b.toNat, sgn 8 c.toNat, sgn 8 e.toNat] = (t, n)) ∧ (s.clk.hot = true) ∧ (t < 100))
    ∧ (∃ (s : State) (a : BitVec 8) (b : BitVec 8) (c : BitVec 8) (e : BitVec 8) (t : Int) (n : Nat), (hottest [sgn 8 a.toNat, sgn 8 b.toNat, sgn 8 c.toNat, sgn 8 e.toNat] = (t, n)) ∧ (s.clk.hot = true) ∧ (100 ≤ t))
    ∧ (∃ (s : State) (a : BitVec 8) (b : BitVec 8) (c : BitVec 8) (e : BitVec 8) (t : Int) (n : Nat), (hottest [sgn 8 a.toNat, sgn 8 b.toNat, sgn 8 c.toNat, sgn 8 e.toNat] = (t, n)) ∧ (s.clk.hot = false) ∧ (125 ≤ t))
    ∧ (∃ (s : State) (a : BitVec 8) (b : BitVec 8) (c : BitVec 8) (e : BitVec 8) (t : Int) (n : Nat), (hottest [sgn 8 a.toNat, sgn 8 b.toNat, sgn 8 c.toNat, sgn 8 e.toNat] = (t, n)) ∧ (s.clk.hot = false) ∧ (t < 125))
    ∧ (∃ (s : State) (a : BitVec 8) (b : BitVec 8) (c : BitVec 8) (e : BitVec 8) (t : Int) (n : Nat), (hottest [sgn 8 a.toNat, sgn 8 b.toNat, sgn 8 c.toNat, sgn 8 e.toNat] = (t, n)) ∧ (s.clk.hot = false) ∧ (110 ≤ t) ∧ (t < 125) ∧ (s.clk.critical = false) ∧ (s.takesEvent 125) ∧ (sentinelFrom s.mode = true) ∧ (s.glb.sentinelDue = none))
    ∧ (∃ (s : State) (a : BitVec 8) (b : BitVec 8) (c : BitVec 8) (e : BitVec 8) (t : Int) (n : Nat), (hottest [sgn 8 a.toNat, sgn 8 b.toNat, sgn 8 c.toNat, sgn 8 e.toNat] = (t, n)) ∧ (s.clk.hot = false) ∧ (s.warnLevel ≤ t) ∧ (t < 110) ∧ (s.clk.warned = false) ∧ (s.takesEvent 124)) :=
  ⟨⟨(let s : State := .reset; let s : State := { s with quench := { s.quench with railOut := false } }; s), [], by decide +kernel⟩,
   ⟨(let s : State := .reset; let s : State := { s with quench := { s.quench with railOut := false } }; let s : State := s.wr F.HIF_EVT_MAP_enable (1) 126; let s : State := { s with clk.streak := [(10, (2, 0, 0))] }; s), ((List.replicate 11 (0 : BitVec 16)).set 10 (BitVec.ofInt 16 (-80))), 10, by decide +kernel⟩,
   ⟨(let s : State := .reset; let s : State := { s with quench := { s.quench with railOut := false } }; let s : State := { s with clk.streak := [(4, (2, 0, 2))] }; s), ((List.replicate 11 (0 : BitVec 16)).set 4 (BitVec.ofInt 16 (-81))), 4, by decide +kernel⟩,
   ⟨(let s : State := .reset; let s : State := { s with quench := { s.quench with railOut := false } }; let s : State := { s with clk := { s.clk with railHeld := 0 } }; let s : State := { s with clk.streak := [(10, (2, 0, 2))] }; s), ((List.replicate 11 (0 : BitVec 16)).set 10 (BitVec.ofInt 16 (-81))), 10, by decide +kernel⟩,
   ⟨(let s : State := .reset; let s : State := { s with clk := { s.clk with hot := true } }; s), 99, 0, 0, 0, 99, 0, by decide +kernel⟩,
   ⟨(let s : State := .reset; let s : State := { s with clk := { s.clk with hot := true } }; s), 100, 0, 0, 0, 100, 0, by decide +kernel⟩,
   ⟨(let s : State := .reset; let s : State := { s with clk := { s.clk with hot := false } }; s), 125, 0, 0, 0, 125, 0, by decide +kernel⟩,
   ⟨(let s : State := .reset; let s : State := { s with clk := { s.clk with hot := false } }; s), 124, 0, 0, 0, 124, 0, by decide +kernel⟩,
   ⟨(let s : State := .reset; let s : State := { s with clk := { s.clk with hot := false } }; let s : State := { s with clk := { s.clk with critical := false } }; let s : State := s.wr F.HIF_EVT_MAP_enable (1) 125; let s : State := { s with glb := { s.glb with sentinelDue := none } }; let s : State := s.wr F.GLB_STAT_mode 7; s), 124, 0, 0, 0, 124, 0, by decide +kernel⟩,
   ⟨(let s : State := .reset; let s : State := { s with clk := { s.clk with hot := false } }; let s : State := { s with clk := { s.clk with warned := false } }; let s : State := s.wr F.HIF_EVT_MAP_enable (1) 124; s), 109, 0, 0, 0, 109, 0, by decide +kernel⟩⟩

theorem witness_BadAccesses :
    (∃ (s : State) (m : Master) (b : Bar) (off : BitVec 24) (size : BitVec 4) (v : Word), (b = .bar0 ∨ b = .bar2) ∧ (size ≠ 4 ∨ off.toNat % 4 ≠ 0)) :=
  ⟨(let s : State := .reset; s), .host, .bar0, 0, 0, 0, by decide +kernel⟩

theorem witness_AdcTriggersDropped :
    (∃ (s : State) (q : Fin 2), ((s.adcSeq q).start ≠ none))
    ∧ (∃ (s : State) (q : Fin 2), ((s.adcSeq q).start ≠ none) ∧ (s.on F.ADC_SEQ_CTL_enable q = true) ∧ (s.rd F.ADC_SEQ_CFG_trig q = 0))
    ∧ (∃ (s : State) (q : Fin 2), ((s.adcSeq q).start ≠ none) ∧ (s.on F.ADC_SEQ_CTL_enable q = true) ∧ (s.rd F.ADC_SEQ_CFG_trig q = 1))
    ∧ (∃ (s : State) (q : Fin 2) (n : Fin 4) (up : Bool), ((s.adcSeq q).start ≠ none) ∧ (s.on F.ADC_SEQ_CTL_enable q = true) ∧ (s.rd F.ADC_SEQ_CFG_trig q = 2) ∧ (s.rd F.ADC_SEQ_CFG_tin q = n.val) ∧ (s.rd F.ADC_SEQ_CFG_edge q = (if up then 1 else 2)))
    ∧ (∃ (s : State) (q : Fin 2) (n : Fin 4), ((s.adcSeq q).start ≠ none) ∧ (s.on F.ADC_SEQ_CTL_enable q = true) ∧ (s.rd F.ADC_SEQ_CFG_trig q = 2) ∧ (s.rd F.ADC_SEQ_CFG_tin q = n.val) ∧ (s.rd F.ADC_SEQ_CFG_edge q = 3) ∧ ((s.adcSeq q).high ≠ none))
    ∧ (∃ (s : State) (q : Fin 2), ((s.adcSeq q).start ≠ none) ∧ (s.on F.ADC_SEQ_CTL_enable q = false))
    ∧ (∃ (s : State) (q : Fin 2), ((s.adcSeq q).start ≠ none) ∧ (s.on F.ADC_SEQ_CTL_enable q = false) ∧ (s.rd F.ADC_SEQ_CFG_trig q = 1))
    ∧ (∃ (s : State) (q : Fin 2) (n : Fin 4) (up : Bool), ((s.adcSeq q).start ≠ none) ∧ (s.on F.ADC_SEQ_CTL_enable q = false))
    ∧ (∃ (s : State) (q : Fin 2) (r : AdcSampleRec) (l : List AdcSampleRec), ((s.adcSeq q).start ≠ none) ∧ (s.on F.ADC_SEQ_CTL_enable q = false) ∧ ((s.adcSeq q).pending = r :: l) ∧ (r.last = true)) :=
  ⟨⟨(let s : State := .reset; let s : State := s.setAdcSeq 1 { (s.adcSeq 1) with start := some 0 }; s), 1, by decide +kernel⟩,
   ⟨(let s : State := .reset; let s : State := s.wr F.ADC_SEQ_CTL_enable (1) 1; let s : State := s.wr F.ADC_SEQ_CFG_trig (0) 1; let s : State := s.setAdcSeq 1 { (s.adcSeq 1) with start := some 0 }; s), 1, by decide +kernel⟩,
   ⟨(let s : State := .reset; let s : State := s.wr F.ADC_SEQ_CTL_enable (1) 1; let s : State := s.wr F.ADC_SEQ_CFG_trig (1) 1; let s : State := s.setAdcSeq 1 { (s.adcSeq 1) with start := some 0 }; s), 1, by decide +kernel⟩,
   ⟨(let s : State := .reset; let s : State := s.wr F.ADC_SEQ_CTL_enable (1) 1; let s : State := s.wr F.ADC_SEQ_CFG_trig (2) 1; let s : State := s.wr F.ADC_SEQ_CFG_tin (3) 1; let s : State := s.wr F.ADC_SEQ_CFG_edge ((if false then 1 else 2)) 1; let s : State := s.setAdcSeq 1 { (s.adcSeq 1) with start := some 0 }; let s : State := s.wr F.ADC_SEQ_CFG_edge 2 1; s), 1, 3, false, by decide +kernel⟩,
   ⟨(let s : State := .reset; let s : State := s.wr F.ADC_SEQ_CTL_enable (1) 1; let s : State := s.wr F.ADC_SEQ_CFG_trig (2) 1; let s : State := s.wr F.ADC_SEQ_CFG_tin (3) 1; let s : State := s.wr F.ADC_SEQ_CFG_edge (3) 1; let s : State := s.setAdcSeq 1 { (s.adcSeq 1) with start := some 0 }; let s : State := s.setAdcSeq 1 { (s.adcSeq 1) with high := some 0 }; s), 1, 3, by decide +kernel⟩,
   ⟨(let s : State := .reset; let s : State := s.wr F.ADC_SEQ_CTL_enable (0) 1; let s : State := s.setAdcSeq 1 { (s.adcSeq 1) with start := some 0 }; s), 1, by decide +kernel⟩,
   ⟨(let s : State := .reset; let s : State := s.wr F.ADC_SEQ_CTL_enable (0) 1; let s : State := s.wr F.ADC_SEQ_CFG_trig (1) 1; let s : State := s.setAdcSeq 1 { (s.adcSeq 1) with start := some 0 }; s), 1, by decide +kernel⟩,
   ⟨(let s : State := .reset; let s : State := s.wr F.ADC_SEQ_CTL_enable (0) 1; let s : State := s.setAdcSeq 1 { (s.adcSeq 1) with start := some 0 }; s), 1, 3, false, by decide +kernel⟩,
   ⟨(let s : State := .reset; let s : State := s.wr F.ADC_SEQ_CTL_enable (0) 1; let s : State := s.setAdcSeq 1 { (s.adcSeq 1) with pending := ({ entry := 0, conf := 0, code := 0, time := 0, pull := false, ext := false, last := true } : AdcSampleRec) :: [] }; let s : State := s.setAdcSeq 1 { (s.adcSeq 1) with start := some 0 }; s), 1, ({ entry := 0, conf := 0, code := 0, time := 0, pull := false, ext := false, last := true } : AdcSampleRec), [], by decide +kernel⟩⟩

theorem witness_OwnerFuse :
    (∃ (s : State) (r : Fin 64) (io : HostIo) (d : Desc) (ok : Nat), (s.Starts r 0x0808 d) ∧ (s.mode = 2 ∨ s.mode = 3) ∧ (s.otp.owner = true))
    ∧ (∃ (s : State) (r : Fin 64) (io : HostIo) (d : Desc), (s.Starts r 0x0808 d) ∧ (s.mode = 2 ∨ s.mode = 3) ∧ (s.otp.owner = false) ∧ (io.bodyErr = false)) :=
  ⟨⟨(let s : State := .reset; let s : State := { s with hif.desc := [({ id := 0, ring := 63, slot := 0, bytes := dsc [(0, 2, 0x0808)] } : Desc)] }; let s : State := s.wr F.GLB_STAT_mode (2); let s : State := { s with otp := { s.otp with owner := true } }; s), 63, ({} : HostIo), ({ id := 0, ring := 63, slot := 0, bytes := dsc [(0, 2, 0x0808)] } : Desc), 0, by decide +kernel⟩,
   ⟨(let s : State := .reset; let s : State := { s with hif.desc := [({ id := 0, ring := 63, slot := 0, bytes := dsc [(0, 2, 0x0808)] } : Desc)] }; let s : State := s.wr F.GLB_STAT_mode (2); let s : State := { s with otp := { s.otp with owner := false } }; s), 63, ({ bodyErr := false } : HostIo), ({ id := 0, ring := 63, slot := 0, bytes := dsc [(0, 2, 0x0808)] } : Desc), by decide +kernel⟩⟩

theorem witness_WaxbookThroughReset :
    (∃ (s : State) (c : Instr) (k : Nat), ((c, k) ∈ [(Instr.farrierWatchdogReset, 4), (.softwareReset .farrier, 3), (.pinReset 10000, 2)]) ∧ (s.glb.posted = [])) :=
  ⟨(let s : State := .reset; let s : State := { s with glb := { s.glb with posted := [] } }; s), (Instr.pinReset 10000), 2, by decide +kernel⟩

end Sys2Proof.Machine
end

/-! Proofs about the triggers of the ADC (R412, R415): a trigger that comes during a run is dropped and counted, and what one
sequencer does never shows in the other. -/

namespace Sys2Proof.Machine

namespace State

/-! ## The record and the registers of one sequencer -/

@[simp] theorem setAdcSeq_on (s : State) (q : Nat) (v : AdcSeq) (f : Fld) (i j : Nat) :
    (s.setAdcSeq q v).on f i j = s.on f i j := rfl

@[simp] theorem adcSeq_setAdcSeq_same (s : State) (q : Nat) (v : AdcSeq) : (s.setAdcSeq q v).adcSeq q = v := by
  by_cases hq : q = 0 <;> simp [adcSeq, setAdcSeq, hq]

theorem adcSeq_setAdcSeq_ne (s : State) {p q : Nat} (v : AdcSeq) (hp : p < 2) (hq : q < 2) (hpq : p ≠ q) :
    (s.setAdcSeq p v).adcSeq q = s.adcSeq q := by
  obtain ⟨rfl, rfl⟩ | ⟨rfl, rfl⟩ : p = 0 ∧ q = 1 ∨ p = 1 ∧ q = 0 := by omega
  · rfl
  · rfl

@[simp] theorem adcSeq_wr (s : State) (q : Nat) (f : Fld) (v i j : Nat) : (s.wr f v i j).adcSeq q = s.adcSeq q := rfl

@[simp] theorem adcSeq_bump (s : State) (q : Nat) (f : Fld) (i j n : Nat) : (s.bump f i j n).adcSeq q = s.adcSeq q := rfl

theorem on_of_word_eq {s t : State} {f : Fld} {i j : Nat} (h : t.word (f.addr i j) = s.word (f.addr i j)) :
    t.on f i j = s.on f i j := by
  rw [on, on, rd, rd, h]

/-- A saturating counter reads one more, up to its bound (R84). -/
theorem rd_bump_same (s : State) {f : Fld} {i j n : Nat} (hf : f.lo + f.width ≤ 32 := by decide) :
    (s.bump f i j n).rd f i j = min (2 ^ f.width - 1) (s.rd f i j + n) := by
  have hpos : 0 < 2 ^ f.width := Nat.two_pow_pos _
  rw [bump_eq, rd_wr_same _ hf, Nat.mod_eq_of_lt (by omega)]

end State

/-- A field of the registers that each sequencer has for itself: ADC_SEQ_CFGq, ADC_SEQ_CTLq and ADC_SEQ_STATq. -/
abbrev Fld.OfAdcSeq (f : Fld) : Prop := 0x120010 ≤ f.off ∧ f.off < 0x120020 ∧ f.s1 = 0x10

/-- Sequencer `q` is the same in both states, at the same tick: its record and its registers. -/
structure State.SameAdcSeq (q : Nat) (s t : State) : Prop where
  tick : t.tick = s.tick
  seq : t.adcSeq q = s.adcSeq q
  word : ∀ off, 0x120010 + 0x10 * q ≤ off → off < 0x120020 + 0x10 * q → t.word off = s.word off

namespace State.SameAdcSeq

variable {p q : Nat} {s t u : State}

theorem refl (q : Nat) (s : State) : s.SameAdcSeq q s := ⟨rfl, rfl, fun _ _ _ => rfl⟩

theorem trans (h : s.SameAdcSeq q t) (h' : t.SameAdcSeq q u) : s.SameAdcSeq q u where
  tick := h'.tick.trans h.tick
  seq := h'.seq.trans h.seq
  word off hl hu := (h'.word off hl hu).trans (h.word off hl hu)

theorem rd (h : s.SameAdcSeq q t) {f : Fld} (hf : f.OfAdcSeq := by decide) : t.rd f q = s.rd f q := by
  obtain ⟨hl, hu, hs⟩ := hf
  have ha : f.addr q 0 = f.off + 0x10 * q := by simp [Fld.addr, hs]
  rw [State.rd, State.rd, h.word _ (by omega) (by omega)]

theorem on (h : s.SameAdcSeq q t) {f : Fld} (hf : f.OfAdcSeq := by decide) : t.on f q = s.on f q := by
  rw [State.on, State.on, h.rd hf]

theorem wr (hpq : p ≠ q) {f : Fld} (v : Nat) (hf : f.OfAdcSeq := by decide) : s.SameAdcSeq q (s.wr f v p) where
  tick := rfl
  seq := rfl
  word off hl hu := by
    obtain ⟨hfl, hfu, hs⟩ := hf
    have ha : f.addr p 0 = f.off + 0x10 * p := by simp [Fld.addr, hs]
    exact s.word_wr_ne f (by omega)

theorem setAdcSeq (hp : p < 2) (hq : q < 2) (hpq : p ≠ q) (v : AdcSeq) : s.SameAdcSeq q (s.setAdcSeq p v) :=
  ⟨rfl, s.adcSeq_setAdcSeq_ne v hp hq hpq, fun _ _ _ => rfl⟩

/-! ### What sequencer `p` does leaves sequencer `q` as it was -/

section Other
variable (hp : p < 2) (hq : q < 2) (hpq : p ≠ q)
include hp hq hpq

theorem adcWake : s.SameAdcSeq q (s.adcWake p) := (setAdcSeq hp hq hpq _).trans (wr hpq _)

theorem adcRun (first : Nat) (ext : Bool) : s.SameAdcSeq q (s.adcRun p first ext) :=
  ((setAdcSeq hp hq hpq _).trans (wr hpq _)).trans (wr hpq _)

theorem adcTrigger (first : Nat) (ext : Bool) : s.SameAdcSeq q (s.adcTrigger p first ext) := by
  unfold State.adcTrigger
  split
  · exact refl q s
  · split
    · exact wr hpq _
    · exact adcRun hp hq hpq first ext

theorem adcEvent (at_ : Nat) : s.SameAdcSeq q (s.adcEvent p at_) := by
  unfold State.adcEvent
  dsimp only
  split
  · exact adcTrigger hp hq hpq _ _
  · split
    · exact adcTrigger hp hq hpq _ _
    · exact (adcWake hp hq hpq).trans (adcTrigger hp hq hpq _ _)

theorem adcEdge (tin : Nat) (rising : Bool) : s.SameAdcSeq q (s.adcEdge p tin rising) := by
  unfold State.adcEdge
  dsimp only
  split
  · exact refl q s
  · split
    · split
      · split
        · exact (setAdcSeq hp hq hpq _).trans (adcEvent hp hq hpq _)
        · exact setAdcSeq hp hq hpq _
      · exact setAdcSeq hp hq hpq _
    · split
      · exact adcEvent hp hq hpq _
      · exact refl q s

end Other

end State.SameAdcSeq

/-! ## Triggers during a run (R415) -/

namespace State

section Running
variable {s : State} {q : Nat} (hrun : (s.adcSeq q).start ≠ none)
include hrun

theorem adcTrigger_running (hen : s.on F.ADC_SEQ_CTL_enable q = true) (first : Nat) (ext : Bool) :
    s.adcTrigger q first ext = s.bump F.ADC_SEQ_STAT_missed q := by
  simp [adcTrigger, hen, Option.isSome_iff_ne_none.mpr hrun]

theorem adcEvent_running (hen : s.on F.ADC_SEQ_CTL_enable q = true) (at_ : Nat) :
    s.adcEvent q at_ = s.bump F.ADC_SEQ_STAT_missed q := by
  simp [adcEvent, adcTrigger_running hrun hen, Option.isSome_iff_ne_none.mpr hrun]

theorem adcMatch_running (hen : s.on F.ADC_SEQ_CTL_enable q = true) (htrig : s.rd F.ADC_SEQ_CFG_trig q = 1) :
    s.adcMatch q = s.bump F.ADC_SEQ_STAT_missed q := by
  simp [adcMatch, htrig, adcTrigger_running hrun hen, Option.isSome_iff_ne_none.mpr hrun]

/-- The edge that a sequencer is configured for is its trigger. -/
theorem adcEdge_running {tin : Nat} {rising : Bool} (hen : s.on F.ADC_SEQ_CTL_enable q = true)
    (htrig : s.rd F.ADC_SEQ_CFG_trig q = 2) (htin : s.rd F.ADC_SEQ_CFG_tin q = tin)
    (hedge : s.rd F.ADC_SEQ_CFG_edge q = if rising then 1 else 2) :
    s.adcEdge q tin rising = s.bump F.ADC_SEQ_STAT_missed q := by
  cases rising <;> simp [adcEdge, hen, htrig, htin, hedge, adcEvent_running hrun hen]

/-- With pulse centres, a rising edge after a whole pulse is a trigger, and is kept as the beginning of the next pulse. -/
theorem adcEdge_centre_running {tin : Nat} (hen : s.on F.ADC_SEQ_CTL_enable q = true)
    (htrig : s.rd F.ADC_SEQ_CFG_trig q = 2) (htin : s.rd F.ADC_SEQ_CFG_tin q = tin)
    (hedge : s.rd F.ADC_SEQ_CFG_edge q = 3) (hhigh : (s.adcSeq q).high ≠ none) :
    s.adcEdge q tin true
      = (s.setAdcSeq q { s.adcSeq q with rise := some s.tick }).bump F.ADC_SEQ_STAT_missed q := by
  have hrun' : ((s.setAdcSeq q { s.adcSeq q with rise := some s.tick }).adcSeq q).start ≠ none := by simpa using hrun
  unfold adcEdge
  dsimp only
  rw [if_neg (by simp [hen, htrig, htin]), if_pos hedge, if_pos rfl]
  split
  · exact adcEvent_running hrun' hen _
  · exact absurd ‹_› hhigh

end Running

/-! ## A disabled sequencer takes no trigger (R415) -/

section Disabled
variable {s : State} {q : Nat} (hen : s.on F.ADC_SEQ_CTL_enable q = false)
include hen

theorem adcTrigger_disabled (first : Nat) (ext : Bool) : s.adcTrigger q first ext = s := by simp [adcTrigger, hen]

theorem adcMatch_disabled : s.adcMatch q = s := by simp [adcMatch, hen, adcTrigger_disabled hen]

theorem adcEdge_disabled (tin : Nat) (rising : Bool) : s.adcEdge q tin rising = s := by simp [adcEdge, hen]

end Disabled

/-! ## The end of a run (R413, R415) -/

theorem adcRunEnd_start (s : State) (q : Nat) : ((s.adcRunEnd q).adcSeq q).start = none := by
  unfold adcRunEnd
  dsimp only
  split <;> split <;> simp

theorem adcRunEnd_stopped {s : State} {q : Nat} (hen : s.on F.ADC_SEQ_CTL_enable q = false) :
    (s.adcRunEnd q).rd F.ADC_SEQ_STAT_stopped q = 1 := by
  have hkeep (t : State) : (t.wr F.ADC_SEQ_STAT_powered 0 q).on F.ADC_SEQ_CTL_enable q = t.on F.ADC_SEQ_CTL_enable q :=
    on_of_word_eq (t.word_wr_ne _ (by simp [Fld.addr, F.ADC_SEQ_STAT_powered, F.ADC_SEQ_CTL_enable]))
  have hstop (t : State) : (t.wr F.ADC_SEQ_STAT_stopped 1 q).rd F.ADC_SEQ_STAT_stopped q = 1 := t.rd_wr_same
  unfold adcRunEnd
  dsimp only
  split
  · simp [hen, hstop]
  · simp [hkeep, hen, hstop]

/-! ## A result leaves the registers of the sequencers alone -/

section Result
variable {off : Nat} (hoff : 0x120010 ≤ off ∧ off < 0x120040)
include hoff

theorem raise_adcSeqWord (s : State) {src : Nat} (code inst : Nat) (d : DWord) (hsrc : src < 128) :
    (s.raise src code inst d).word off = s.word off := by
  refine s.raise_word code inst d hsrc ?_
  simp only [eventWords, List.mem_cons, List.not_mem_nil, or_false]
  omega

theorem wr_adcSeqWord (s : State) {f : Fld} (v i : Nat) (hf : 0x120040 ≤ f.off) :
    (s.wr f v i).word off = s.word off :=
  s.word_wr_ne f (by unfold Fld.addr; omega)

theorem raiseIf_adcSeqWord (s : State) (c : Prop) [Decidable c] {src : Nat} (code inst : Nat) (d : DWord)
    (hsrc : src < 128) : (if c then s.raise src code inst d else s).word off = s.word off := by
  split
  · exact s.raise_adcSeqWord hoff code inst d hsrc
  · rfl

theorem adcReport_adcSeqWord (s : State) (r : AdcSampleRec) (ow lim : Bool) :
    (s.adcReport r ow lim).word off = s.word off := by
  have htold (t : State) (c : Prop) [Decidable c] (a : Adc) : (if c then t else { t with adc := a }).word off = t.word off := by
    split <;> rfl
  simp only [adcReport]
  rw [raiseIf_adcSeqWord hoff _ _ _ _ _ (by decide), htold, raiseIf_adcSeqWord hoff _ _ _ _ _ (by decide), htold]

theorem adcEnqueue_adcSeqWord (s : State) (bytes : Bool → List Byte) : (s.adcEnqueue bytes).word off = s.word off := by
  simp only [adcEnqueue]
  split
  · have hdrop (t : State) : (t.bump F.ADC_ERR_dropped).word off = t.word off := t.wr_adcSeqWord hoff _ 0 (by decide)
    rw [raiseIf_adcSeqWord hoff _ _ _ _ _ (by decide), hdrop]
    rfl
  · rw [raiseIf_adcSeqWord hoff _ _ _ _ _ (by decide), wr_adcSeqWord hoff _ _ _ (by decide),
      wr_adcSeqWord hoff _ _ _ (by decide)]
    rfl

end Result

end State

/-! ## The commands -/

section RunningCommands
variable {s : State} {q : Fin 2}

theorem execAdcSoftwareTrigger_running (hrun : (s.adcSeq q).start ≠ none) (hen : s.on F.ADC_SEQ_CTL_enable q = true)
    (htrig : s.rd F.ADC_SEQ_CFG_trig q = 0) :
    execAdcSoftwareTrigger q s = .next (s.bump F.ADC_SEQ_STAT_missed q) := by
  simp [execAdcSoftwareTrigger, hen, htrig, Option.isSome_iff_ne_none.mpr hrun]

theorem execAdcSoftwareTrigger_disabled (hen : s.on F.ADC_SEQ_CTL_enable q = false) :
    execAdcSoftwareTrigger q s = .next (s.wrIgnored .adcs q (F.ADC_SEQ_CTL_start.addr q 0)) := by
  simp [execAdcSoftwareTrigger, hen]

theorem execAdcSeqDisable_running (hrun : (s.adcSeq q).start ≠ none) :
    execAdcSeqDisable q s = .next (s.wr F.ADC_SEQ_CTL_enable 0 q) := by
  simp [execAdcSeqDisable, Option.isSome_iff_ne_none.mpr hrun]

end RunningCommands

/-- The last result of a run ends it, in a state in which `enable` is as it was. -/
theorem execAdcResult_last {s : State} {q : Fin 2} {r : AdcSampleRec} {l : List AdcSampleRec}
    (hpend : (s.adcSeq q).pending = r :: l) (hlast : r.last = true) :
    ∃ u : State, execAdcResult q s = .next (u.adcRunEnd q) ∧ u.on F.ADC_SEQ_CTL_enable q = s.on F.ADC_SEQ_CTL_enable q := by
  have hoff : 0x120010 ≤ F.ADC_SEQ_CTL_enable.addr q 0 ∧ F.ADC_SEQ_CTL_enable.addr q 0 < 0x120040 := by
    simp only [Fld.addr, F.ADC_SEQ_CTL_enable]
    omega
  have henq (t : State) (c : Prop) [Decidable c] (bytes : Bool → List Byte) :
      (if c then t else t.adcEnqueue bytes).word (F.ADC_SEQ_CTL_enable.addr q 0)
        = t.word (F.ADC_SEQ_CTL_enable.addr q 0) := by
    split
    · rfl
    · exact t.adcEnqueue_adcSeqWord hoff bytes
  simp only [execAdcResult, hpend, hlast, if_true]
  refine ⟨_, rfl, State.on_of_word_eq ?_⟩
  rw [henq, State.adcReport_adcSeqWord hoff]
  simp (disch := decide) only [State.put_eq, State.wr_adcSeqWord hoff, State.setAdcSeq_word]

/-- An edge of a trigger input as sequencer `q` sees it: what the other sequencer makes of the edge, before or after, leaves `q`
as it was. -/
theorem execAdcTriggerInputEvent_seq (s : State) (q : Fin 2) (n : Fin 4) (up : Bool) :
    ∃ u t : State, execAdcTriggerInputEvent n up s = .next t ∧ s.SameAdcSeq q u ∧ (u.adcEdge q n up).SameAdcSeq q t := by
  match q with
  | 0 => exact ⟨s, _, rfl, .refl 0 s, .adcEdge (by decide) (by decide) (by decide) _ _⟩
  | 1 => exact ⟨_, _, rfl, .adcEdge (p := 0) (by decide) (by decide) (by decide) n up, .refl 1 _⟩

/-- Settles O58: a trigger of the sequencer meets the run (`State.adcTrigger_running` and its companions) or the cleared `enable`,
and the last result ends the run. -/
theorem adcTriggersDropped : Obligations.AdcTriggersDropped := by
  intro s q hrun
  refine ⟨fun hen => ⟨execAdcSoftwareTrigger_running hrun hen, State.adcMatch_running hrun hen, ?_, ?_⟩, ?_,
    fun hen => ⟨execAdcSoftwareTrigger_disabled hen, fun _ => State.adcMatch_disabled hen, ?_, ?_⟩⟩
  · intro n up htrig htin hedge
    obtain ⟨u, t, ht, hsu, hut⟩ := execAdcTriggerInputEvent_seq s q n up
    rw [State.adcEdge_running (by rwa [hsu.seq]) (by rwa [hsu.on]) (by rwa [hsu.rd]) (by rwa [hsu.rd]) (by rwa [hsu.rd])] at hut
    refine ⟨t, ht, hut.seq.trans hsu.seq, ?_⟩
    rw [hut.rd, State.rd_bump_same, hsu.rd]
  · intro n htrig htin hedge hhigh
    obtain ⟨u, t, ht, hsu, hut⟩ := execAdcTriggerInputEvent_seq s q n true
    rw [State.adcEdge_centre_running (by rwa [hsu.seq]) (by rwa [hsu.on]) (by rwa [hsu.rd]) (by rwa [hsu.rd]) (by rwa [hsu.rd])
      (by rwa [hsu.seq])] at hut
    refine ⟨t, ht, ?_, ?_⟩
    · rw [hut.seq, State.adcSeq_bump, State.adcSeq_setAdcSeq_same, hsu.seq, hsu.tick]
    · rw [hut.rd, State.rd_bump_same, State.setAdcSeq_rd, hsu.rd]
  · refine ⟨_, execAdcSeqDisable_running hrun, rfl, State.rd_wr_same s, State.rd_wr_ne s ?_⟩
    simp [Fld.addr, F.ADC_SEQ_STAT_stopped, F.ADC_SEQ_CTL_enable]
  · intro n up
    obtain ⟨u, t, ht, hsu, hut⟩ := execAdcTriggerInputEvent_seq s q n up
    rw [State.adcEdge_disabled (by rwa [hsu.on])] at hut
    exact ⟨t, ht, hut.seq.trans hsu.seq⟩
  · intro r l hpend hlast
    obtain ⟨u, hu, hkeep⟩ := execAdcResult_last hpend hlast
    exact ⟨_, hu, u.adcRunEnd_start q, State.adcRunEnd_stopped (hkeep.trans hen)⟩

end Sys2Proof.Machine

/-! Proofs about OWNER_FUSE (R475): how a descriptor starts and takes its outcome (R56, R58, R61), and what the fuses
make of it. -/

namespace Sys2Proof.Machine

theorem mem_insertCompl_self (c : Compl) (l : List Compl) : c ∈ insertCompl c l := by
  induction l with
  | nil => exact List.mem_singleton_self c
  | cons e l ih =>
    rw [insertCompl]
    split
    · exact List.mem_cons_of_mem e ih
    · exact List.mem_cons_self

namespace State

/-! ## The counters of a submission ring (R80) -/

@[simp] theorem syncRing_hif (s : State) (r : Nat) : (s.syncRing r).hif = s.hif := rfl

@[simp] theorem syncRing_otp (s : State) (r : Nat) : (s.syncRing r).otp = s.otp := rfl

/-- The counters of the rings are HIF registers: every register below them is as before. -/
theorem syncRing_word (s : State) (r : Nat) {off : Nat} (h : off < 0x11000) : (s.syncRing r).word off = s.word off := by
  have hout : off ≠ F.HIF_SQ_STAT_outstanding.addr r 0 := by simp only [Fld.addr, F.HIF_SQ_STAT_outstanding]; omega
  have hstaged : off ≠ F.HIF_SQ_INFO_staged.addr r 0 := by simp only [Fld.addr, F.HIF_SQ_INFO_staged]; omega
  rw [syncRing, word_wr_ne _ _ hstaged, word_wr_ne _ _ hout]

/-! ## The start of a descriptor (R52, R56) -/

@[simp] theorem startDesc_otp (s : State) (d : Desc) : (s.startDesc d).otp = s.otp := rfl

theorem startDesc_rd (s : State) (d : Desc) {f : Fld} {i j : Nat} (h : f.addr i j < 0x11000) :
    (s.startDesc d).rd f i j = s.rd f i j := by
  rw [rd, startDesc, syncRing_word _ _ h]
  rfl

@[simp] theorem startDesc_mode (s : State) (d : Desc) : (s.startDesc d).mode = s.mode := s.startDesc_rd d (by decide)

/-- A descriptor that has started stays outstanding. -/
theorem startDesc_find {s : State} {d : Desc} (h : s.hif.desc.find? (·.id == d.id) = some d) :
    (s.startDesc d).hif.desc.find? (·.id == d.id) = some { d with started := true } := by
  have hid : ((·.id == d.id) ∘ fun e : Desc => if e.id = d.id then { e with started := true } else e) = (·.id == d.id) := by
    funext e
    by_cases he : e.id = d.id <;> simp [he]
  simp only [startDesc, syncRing_hif, List.find?_map, hid, h, Option.map_some, if_true]

theorem Starts.runDesc {s : State} {r opcode : Nat} {d : Desc} (h : s.Starts r opcode d) (f : State → Desc → State) :
    s.runDesc r opcode f = f (s.startDesc d) d := by
  rw [State.runDesc, h.1]

/-! ## The outcome of a descriptor (R58, R61, R71) -/

/-- An outcome without its descriptor does nothing; otherwise it takes the descriptor from the outstanding ones and leaves
completions that wait, and the counters of one ring follow. -/
theorem complete_cases (s : State) (id status notes : Nat) (res : List Byte) (ind : Bool) :
    (s.hif.desc.find? (·.id == id) = none ∧ s.complete id status notes res ind = s)
    ∨ ∃ (ring : Nat) (waiting : List Compl), s.complete id status notes res ind =
        { s with hif := { s.hif with desc := s.hif.desc.filter (·.id != id), compl := waiting } }.syncRing ring := by
  cases hfind : s.hif.desc.find? (·.id == id) with
  | none => exact .inl ⟨rfl, by simp only [complete, hfind]⟩
  | some d =>
    right
    simp only [complete, hfind]
    generalize (if status = 1 ∧ notes ≠ 0 then 2 else status) = st
    split
    · exact ⟨d.ring, s.hif.compl, rfl⟩
    · exact ⟨d.ring, _, rfl⟩

@[simp] theorem complete_otp (s : State) (id status notes : Nat) (res : List Byte) (ind : Bool) :
    (s.complete id status notes res ind).otp = s.otp := by
  obtain ⟨-, h⟩ | ⟨ring, waiting, h⟩ := s.complete_cases id status notes res ind
  · rw [h]
  · rw [h, syncRing_otp]

theorem complete_rd (s : State) (id status notes : Nat) (res : List Byte) (ind : Bool) {f : Fld} {i j : Nat}
    (hf : f.addr i j < 0x11000) : (s.complete id status notes res ind).rd f i j = s.rd f i j := by
  obtain ⟨-, h⟩ | ⟨ring, waiting, h⟩ := s.complete_cases id status notes res ind
  · rw [h]
  · rw [h, rd, syncRing_word _ _ hf]
    rfl

/-- A descriptor that has its outcome is no longer outstanding. -/
theorem complete_desc (s : State) (id status notes : Nat) (res : List Byte) (ind : Bool) :
    ∀ e ∈ (s.complete id status notes res ind).hif.desc, e.id ≠ id := by
  obtain ⟨hnone, h⟩ | ⟨ring, waiting, h⟩ := s.complete_cases id status notes res ind
  · simpa [h] using hnone
  · simp [h]

/-- The completion of an outstanding descriptor without QUIET waits with its status and its result of sixteen bytes. -/
theorem complete_compl {s : State} {d : Desc} (hfind : s.hif.desc.find? (·.id == d.id) = some { d with started := true })
    (hquiet : d.quiet = false) (status : Nat) (res : List Byte) (ind : Bool) :
    ∃ c ∈ (s.complete d.id status 0 res ind).hif.compl, c.id = d.id ∧ c.ring = d.ring ∧ c.cq = d.cq ∧ c.status = status
      ∧ c.result = (res ++ List.replicate 16 0).take 16 := by
  have hbit : bitAt (byteAt d.bytes 2) 0 = false := hquiet
  simp only [complete, hfind, hbit, ne_eq, not_true, and_false, if_false, Bool.false_eq_true, syncRing_hif]
  exact ⟨_, mem_insertCompl_self _ _, rfl, rfl, rfl, rfl, rfl⟩

theorem complete_completed {s : State} {d : Desc} (hfind : s.hif.desc.find? (·.id == d.id) = some { d with started := true })
    (hquiet : d.quiet = false) (status : Nat) (res : List Byte) (ind : Bool) :
    (s.complete d.id status 0 res ind).Completed d status := by
  obtain ⟨c, hc, hid, hring, hcq, hstatus, -⟩ := complete_compl hfind hquiet status res ind
  exact ⟨s.complete_desc d.id status 0 res ind, c, hc, hid, hring, hcq, hstatus⟩

end State

/-! ## OWNER_FUSE by what it finds -/

/-- The state in which the key and then the owner fuse are blown and read back. -/
def State.blowOwner (s : State) (key : List Byte) : State :=
  { s with otp := { s.otp with owner := true, ownerKey := key } }.wr F.GLB_STAT_owned 1

@[simp] theorem State.blowOwner_hif (s : State) (key : List Byte) : (s.blowOwner key).hif = s.hif := rfl

section Fuse
variable {s : State} {r : Fin 64} {d : Desc} (hstart : s.Starts r 0x0808 d) (hmode : s.mode = 2 ∨ s.mode = 3)
include hstart hmode

theorem execOwnerFuse_owned (howner : s.otp.owner = true) (io : HostIo) (readBack : Bool) :
    execOwnerFuse r io readBack s = .next ((s.startDesc d).fail d.id 0x14 0xFFFF 3) := by
  have hpermit : ¬(s.mode ≠ 2 ∧ s.mode ≠ 3) := by omega
  rw [execOwnerFuse, hstart.runDesc]
  simp only [State.startDesc_mode, State.startDesc_otp, if_neg hpermit, howner, if_true]

theorem execOwnerFuse_unowned (howner : s.otp.owner = false) {io : HostIo} (hbody : io.bodyErr = false) (readBack : Bool) :
    execOwnerFuse r io readBack s =
      .next (if readBack then ((s.startDesc d).blowOwner io.body).complete d.id 1 else (s.startDesc d).fail d.id 0x13) := by
  have hpermit : ¬(s.mode ≠ 2 ∧ s.mode ≠ 3) := by omega
  rw [execOwnerFuse, hstart.runDesc]
  simp only [State.startDesc_mode, State.startDesc_otp, if_neg hpermit, howner, State.withBody, hbody,
    Bool.false_eq_true, if_false]
  cases readBack <;> rfl

end Fuse

/-- The grant of R98 is for an unowned device only. -/
theorem execUnownedUnlockGrant_owned {s : State} (h : s.otp.owner = true) : execUnownedUnlockGrant s = .next s := by
  rw [execUnownedUnlockGrant, h, Bool.or_true, if_pos rfl]

/-- Settles O59: the descriptor has started and is outstanding, so its outcome by `execOwnerFuse_owned` or `execOwnerFuse_unowned`
is recorded (`State.complete_completed`); an owner fuse that is set bars the grant of R98. -/
theorem ownerFuse : Obligations.OwnerFuse := by
  intro s r io d hstart hmode
  have hquiet : d.quiet = false := hstart.2.2
  have hfind := State.startDesc_find hstart.2.1
  refine ⟨fun howner ok => ?_, fun howner hbody => ⟨?_, ?_⟩⟩
  · refine ⟨_, execOwnerFuse_owned hstart hmode howner io ok, State.complete_completed hfind hquiet _ _ _,
      State.complete_otp .., ?_⟩
    obtain ⟨c, hc, hid, -, -, -, hresult⟩ := State.complete_compl hfind hquiet 0x14 (errResult 0xFFFF 3 0) false
    exact ⟨c, hc, hid, hresult.trans (by decide)⟩
  · have hotp : (((s.startDesc d).blowOwner io.body).complete d.id 1).otp = { s.otp with owner := true, ownerKey := io.body } :=
      State.complete_otp ..
    refine ⟨((s.startDesc d).blowOwner io.body).complete d.id 1, execOwnerFuse_unowned hstart hmode howner hbody true,
      State.complete_completed ((s.startDesc d).blowOwner_hif io.body ▸ hfind) hquiet _ _ _, hotp, ?_,
      execUnownedUnlockGrant_owned (congrArg (·.owner) hotp)⟩
    calc (((s.startDesc d).blowOwner io.body).complete d.id 1).rd F.GLB_STAT_owned
        = ((s.startDesc d).blowOwner io.body).rd F.GLB_STAT_owned := State.complete_rd _ _ _ _ _ _ (by decide)
      _ = 1 := State.rd_wr_same _
  · refine ⟨(s.startDesc d).fail d.id 0x13, execOwnerFuse_unowned hstart hmode howner hbody false,
      State.complete_completed hfind hquiet _ _ _, State.complete_otp .., ?_⟩
    calc ((s.startDesc d).fail d.id 0x13).rd F.GLB_STAT_owned
        = (s.startDesc d).rd F.GLB_STAT_owned := State.complete_rd _ _ _ _ _ _ (by decide)
      _ = s.rd F.GLB_STAT_owned := s.startDesc_rd d (by decide)

end Sys2Proof.Machine

/-! Proofs about Waxbook and the resets of the device (R489): what a reset other than power-on keeps of the recorder, that a
disabled recorder takes no firing (R482), and the record that a firing leaves (R485 to R487). -/

namespace Sys2Proof.Machine

/-! ## Little-endian fields of a run of bytes (R7) -/

@[simp] theorem length_toBytes (n v : Nat) : (toBytes n v).length = n := by
  induction n generalizing v with
  | zero => rfl
  | succ n ih => rw [toBytes, List.length_cons, ih]

theorem le_toBytes (n v : Nat) : le (toBytes n v) = v % 256 ^ n := by
  induction n generalizing v with
  | zero => rw [toBytes, le, pow_zero, Nat.mod_one]
  | succ n ih => rw [toBytes, le, ih, BitVec.toNat_ofNat, pow_succ' (256 : Nat) n, Nat.mod_mul]

/-- A value laid down at a place of a run is the field that is read there. -/
theorem field_toBytes {pre : List Byte} {i : Nat} (n v : Nat) (post : List Byte) (hi : pre.length = i) :
    field (pre ++ toBytes n v ++ post) i n = v % 256 ^ n := by
  rw [field, List.append_assoc, List.drop_left' hi, List.take_left' (length_toBytes n v), le_toBytes]

namespace State

/-! ## Fields -/

theorem rd_lt (s : State) (f : Fld) (i j : Nat) : s.rd f i j < 2 ^ f.width := Nat.mod_lt _ (Nat.two_pow_pos _)

/-- A flag as a number is its field, where the field has one bit. -/
theorem b2n_on (s : State) {f : Fld} {i j : Nat} (hf : f.width = 1) : b2n (s.on f i j) = s.rd f i j := by
  have hlt : s.rd f i j < 2 := by simpa [hf] using s.rd_lt f i j
  obtain h | h : s.rd f i j = 0 ∨ s.rd f i j = 1 := by omega
  · simp [b2n, on, h]
  · simp [b2n, on, h]

/-! ## A disabled recorder (R482) -/

theorem fireTrigger_disabled {s : State} (h : s.on F.WAX_CTL_enable = false) (t kind src inst code : Nat) :
    s.fireTrigger t kind src inst code = (s, false) := by
  have hready : s.trigReady t = false := by rw [trigReady, h, Bool.false_and]
  rw [fireTrigger, hready, Bool.not_false, if_pos rfl]

/-- While no trigger may fire, an occurrence is staged and nothing else happens. -/
theorem raise_disabled {s : State} {src code inst : Nat} {d : DWord}
    (h : (s.stageEvent src code inst d).on F.WAX_CTL_enable = false) : s.raise src code inst d = s.stageEvent src code inst d := by
  rw [raise, raiseAux]
  generalize s.stageEvent src code inst d = u at h
  refine List.foldlRecOn (motive := (· = u)) (List.range 32) _ rfl ?_
  rintro _ rfl t -
  rw [fireTrigger_disabled h]
  split <;> rfl

end State

/-! ## The same recorder in two states -/

/-- An offset of the WAX block (R19, R494). -/
abbrev InWaxbook (off : Nat) : Prop := 0x1C0000 ≤ off ∧ off < 0x1D0000

/-- Waxbook is the same in both states: its record and its registers. -/
structure State.SameWaxbook (s t : State) : Prop where
  wax : t.wax = s.wax
  word : ∀ off, InWaxbook off → t.word off = s.word off

namespace State

theorem SameWaxbook.rd {s t : State} (h : s.SameWaxbook t) {f : Fld} {i j : Nat} (hf : InWaxbook (f.addr i j) := by decide) :
    t.rd f i j = s.rd f i j := by
  rw [State.rd, State.rd, h.word _ hf]

/-- The staging of an occurrence writes no register but those of HIF_EVT_LOST. -/
theorem stageEvent_sameWaxbook (s : State) {src : Nat} (code inst : Nat) (d : DWord) (hsrc : src < 128) :
    s.SameWaxbook (s.stageEvent src code inst d) := by
  refine ⟨?_, fun off hoff => ?_⟩
  · unfold stageEvent
    repeat' split
    all_goals rfl
  · have hlost : off ≠ F.HIF_EVT_LOST_lost.addr (src / 32) 0 := by simp only [Fld.addr, F.HIF_EVT_LOST_lost]; omega
    have hcount : off ≠ F.HIF_EVT_LOST_CNT_count.addr 0 0 := by simp only [Fld.addr, F.HIF_EVT_LOST_CNT_count]; omega
    unfold stageEvent
    repeat' split
    · rfl
    · rfl
    · rfl
    · exact (word_wr_ne _ _ hcount).trans (word_wr_ne _ _ hlost)

/-- The withdrawal of an unlock finds the recorder disabled, and leaves it as it is. -/
theorem unlockFell_sameWaxbook (old : State) {s : State} (h : s.rd F.WAX_CTL_enable = 0) :
    s.SameWaxbook (State.unlockFell old s) := by
  unfold unlockFell
  split
  · have hstage := s.stageEvent_sameWaxbook (src := 9) 2 0xFFFF (detail [(0, 3)]) (by decide)
    rwa [raise_disabled (by rw [on, hstage.rd, h]; rfl)]
  · exact ⟨rfl, fun _ _ => rfl⟩

/-! ## What a reset keeps of the recorder -/

section KeepWax
variable (old s : State)

theorem keepWax_wax : (keepWax old s).wax = { store := old.wax.store, onChipEnd := old.wax.onChipEnd } := rfl

theorem keepWax_word {off : Nat} (hstat : off ≠ F.WAX_STAT_full.off) (hfill : off ≠ F.WAX_FILL_bytes.off)
    (hseq : off ≠ F.WAX_SEQ_next.off) : (keepWax old s).word off = s.word off := by
  simp only [keepWax, put_eq]
  rw [word_wr_ne _ _ hseq, word_wr_ne _ _ hstat, word_wr_ne _ _ hstat, word_wr_ne _ _ hstat, word_wr_ne _ _ hfill]
  rfl

theorem keepWax_fill : (keepWax old s).rd F.WAX_FILL_bytes =
    (if 786432 < old.rd F.WAX_FILL_bytes then old.wax.onChipEnd else old.rd F.WAX_FILL_bytes) % 2 ^ F.WAX_FILL_bytes.width := by
  simp (disch := decide) only [keepWax, put_eq, rd_wr_ne, rd_wr_same, decide_eq_true_eq]

theorem keepWax_extLost :
    (keepWax old s).rd F.WAX_STAT_ext_lost = if 786432 < old.rd F.WAX_FILL_bytes then 1 else 0 := by
  simp (disch := decide) only [keepWax, put_eq, rd_wr_ne, rd_wr_apart, rd_wr_same, b2n, decide_eq_true_eq]
  split <;> rfl

theorem keepWax_full : (keepWax old s).rd F.WAX_STAT_full = old.rd F.WAX_STAT_full := by
  simp (disch := decide) only [keepWax, put_eq, rd_wr_ne, rd_wr_apart, rd_wr_same, b2n_on]
  exact Nat.mod_eq_of_lt (old.rd_lt ..)

theorem keepWax_lost : (keepWax old s).rd F.WAX_STAT_lost = old.rd F.WAX_STAT_lost := by
  simp (disch := decide) only [keepWax, rd_wr_ne, rd_wr_same]
  exact Nat.mod_eq_of_lt (old.rd_lt ..)

theorem keepWax_seq : (keepWax old s).rd F.WAX_SEQ_next = old.rd F.WAX_SEQ_next := by
  refine (rd_wr_same _).trans ?_
  exact Nat.mod_eq_of_lt (old.rd_lt ..)

/-- The other fields of WAX_STAT. -/
theorem keepWax_stat {f : Fld} (hoff : f.addr 0 0 = F.WAX_STAT_full.off)
    (hbits : 1 ≤ f.lo ∧ f.lo + f.width ≤ 7 ∨ 8 ≤ f.lo ∧ f.lo + f.width ≤ 16) : (keepWax old s).rd f = s.rd f := by
  have hne {g : Fld} (hg : F.WAX_STAT_full.off ≠ g.addr 0 0) : f.addr 0 0 ≠ g.addr 0 0 := hoff ▸ hg
  simp only [keepWax, put_eq]
  rw [rd_wr_ne _ (hne (by decide)), rd_wr_apart _ hoff, rd_wr_apart _ hoff, rd_wr_apart _ hoff, rd_wr_ne _ (hne (by decide))]
  · rfl
  all_goals simp only [F.WAX_STAT_lost, F.WAX_STAT_full, F.WAX_STAT_ext_lost]; omega

end KeepWax

/-! ## A device reset other than power-on (R457, R458, R489) -/

/-- The reset state with the words that every such reset keeps (R458), before Waxbook takes back its store. -/
def restarted (s : State) (cause : Nat) : State :=
  let r := s.cleared.keepWord s F.GLB_DBG_dbg_open |>.keepWord s F.CLK_RST_CAUSE_cause |>.keepWord s F.CLK_PLL_STAT_locked
  let r := r.put F.CLK_RST_CTL_kindle_next (s.on F.CLK_RST_CTL_kindle_next)
  (r.bump F.CLK_RST_CAUSE_warm).wr F.CLK_RST_CAUSE_cause cause

theorem deviceReset_eq (s : State) (cause : Nat) : s.deviceReset cause = unlockFell s (keepWax s (s.restarted cause)) := rfl

theorem restarted_word (s : State) (cause : Nat) {off : Nat} (h : InWaxbook off) :
    (s.restarted cause).word off = resetWord off := by
  have hne {f : Fld} (hf : ¬InWaxbook (f.addr 0 0)) : off ≠ f.addr 0 0 := fun heq => hf (heq ▸ h)
  simp only [restarted, keepWord, put_eq, bump_eq]
  rw [word_wr_ne _ _ (hne (by decide)), word_wr_ne _ _ (hne (by decide)), word_wr_ne _ _ (hne (by decide)),
    word_setWord_ne _ _ (hne (by decide)), word_setWord_ne _ _ (hne (by decide)), word_setWord_ne _ _ (hne (by decide))]
  rfl

theorem restarted_rd (s : State) (cause : Nat) {f : Fld} (hin : InWaxbook (f.addr 0 0) := by decide)
    (hzero : resetWord (f.addr 0 0) = 0 := by decide) : (s.restarted cause).rd f = 0 := by
  simp [rd, restarted_word _ _ hin, hzero, getBits]

/-- The reset leaves Waxbook what `keepWax` kept of it over the reset values. -/
theorem deviceReset_sameWaxbook (s : State) (cause : Nat) : (keepWax s (s.restarted cause)).SameWaxbook (s.deviceReset cause) := by
  rw [deviceReset_eq]
  refine unlockFell_sameWaxbook s ?_
  rw [rd, keepWax_word _ _ (by decide) (by decide) (by decide)]
  exact s.restarted_rd cause

theorem deviceReset_word (s : State) (cause : Nat) {off : Nat} (hin : InWaxbook off) (hstat : off ≠ F.WAX_STAT_full.off)
    (hfill : off ≠ F.WAX_FILL_bytes.off) (hseq : off ≠ F.WAX_SEQ_next.off) : (s.deviceReset cause).word off = resetWord off := by
  rw [(s.deviceReset_sameWaxbook cause).word off hin, keepWax_word _ _ hstat hfill hseq, restarted_word _ _ hin]

theorem deviceReset_stat (s : State) (cause : Nat) {f : Fld} (hoff : f.addr 0 0 = F.WAX_STAT_full.off := by rfl)
    (hbits : 1 ≤ f.lo ∧ f.lo + f.width ≤ 7 ∨ 8 ≤ f.lo ∧ f.lo + f.width ≤ 16 := by decide) : (s.deviceReset cause).rd f = 0 := by
  have hin : InWaxbook (f.addr 0 0) := by rw [hoff]; decide
  rw [(s.deviceReset_sameWaxbook cause).rd hin, keepWax_stat _ _ hoff hbits,
    restarted_rd s cause hin (by rw [hoff]; decide)]

theorem deviceReset_disabled (s : State) (cause : Nat) : (s.deviceReset cause).rd F.WAX_CTL_enable = 0 := by
  rw [rd, deviceReset_word s cause (by decide) (by decide) (by decide) (by decide)]
  decide

/-- A fill within the on-chip store is kept. -/
theorem deviceReset_fill_onChip (s : State) (cause : Nat) (h : s.rd F.WAX_FILL_bytes ≤ 786432) :
    (s.deviceReset cause).rd F.WAX_FILL_bytes = s.rd F.WAX_FILL_bytes ∧ (s.deviceReset cause).rd F.WAX_STAT_ext_lost = 0 := by
  have hsame := s.deviceReset_sameWaxbook cause
  rw [hsame.rd, hsame.rd, keepWax_fill, keepWax_extLost, if_neg (by omega), if_neg (by omega)]
  exact ⟨Nat.mod_eq_of_lt (s.rd_lt ..), rfl⟩

/-- A fill beyond the on-chip store falls back to the end of the last complete record on chip. -/
theorem deviceReset_fill_beyond (s : State) (cause : Nat) (h : 786432 < s.rd F.WAX_FILL_bytes) (hend : s.wax.onChipEnd ≤ 786432) :
    (s.deviceReset cause).rd F.WAX_FILL_bytes = s.wax.onChipEnd ∧ (s.deviceReset cause).rd F.WAX_STAT_ext_lost = 1 := by
  have hsame := s.deviceReset_sameWaxbook cause
  rw [hsame.rd, hsame.rd, keepWax_fill, keepWax_extLost, if_pos h, if_pos h]
  exact ⟨Nat.mod_eq_of_lt (hend.trans_lt (by decide)), rfl⟩

/-! ## Records (R486, R487) -/

/-- Bytes 4 to 7 of a record are its sequence number. -/
theorem field_waxRecord_seq (s : State) (f : Firing) : field (s.waxRecord f) 4 4 = s.rd F.WAX_SEQ_next := by
  have hlayout : ∃ len trig mark post,
      s.waxRecord f = toBytes 2 len ++ toBytes 1 trig ++ toBytes 1 mark ++ toBytes 4 (s.rd F.WAX_SEQ_next) ++ post := by
    simp only [waxRecord, List.append_assoc]
    exact ⟨_, _, _, _, rfl⟩
  obtain ⟨len, trig, mark, post, h⟩ := hlayout
  rw [h, field_toBytes _ _ _ (by simp)]
  exact Nat.mod_eq_of_lt (s.rd_lt ..)

/-- The state in which the first firing has left the queue (R483). -/
def dequeued (s : State) (rest : List Firing) : State :=
  { s with wax := { s.wax with queue := rest } }.wr F.WAX_STAT_pending rest.length

theorem dequeued_rd (s : State) (rest : List Firing) {f : Fld} (hf : f.addr 0 0 ≠ F.WAX_STAT_pending.addr 0 0) :
    (s.dequeued rest).rd f = s.rd f := rd_wr_ne _ hf

/-- The firings that wait do not bear on whether a record fits. -/
theorem dequeued_waxFits (s : State) (rest : List Firing) (len : Nat) : (s.dequeued rest).waxFits len = s.waxFits len := by
  have hfault : (s.dequeued rest).rd F.WAX_STAT_ext_fault = s.rd F.WAX_STAT_ext_fault := rd_wr_apart _ rfl (by decide)
  simp (disch := decide) only [waxFits, storeSize, mode, on, dequeued_rd, hfault]
  rfl

end State

/-! ## The commands -/

theorem execRecordTake_empty {s : State} (h : s.wax.queue = []) : execRecordTake s = .next s := by
  simp only [execRecordTake, h]

/-- A firing that is taken, and fits, becomes the record in progress, at the end of the records before it. -/
theorem execRecordTake_fits {s : State} {f : Firing} {l : List Firing} (hqueue : s.wax.queue = f :: l) (hbusy : s.wax.busy = none)
    (hfull : s.on F.WAX_STAT_full = false) (hen : s.on F.WAX_CTL_enable = true)
    (hfits : s.waxFits (s.waxRecord f).length = true) :
    ∃ t, execRecordTake s = .next t ∧ t.wax.busy = some { bytes := s.waxRecord f, at_ := s.rd F.WAX_FILL_bytes } := by
  have hready : ¬(s.wax.busy.isSome || s.on F.WAX_STAT_full || !s.on F.WAX_CTL_enable) = true := by simp [hbusy, hfull, hen]
  have hroom : ¬(!(s.dequeued l).waxFits (s.waxRecord f).length) = true := by simp [State.dequeued_waxFits, hfits]
  rw [execRecordTake, hqueue]
  refine ⟨_, (if_neg hready).trans (if_neg hroom), ?_⟩
  rw [← s.dequeued_rd l (by decide)]
  rfl

/-- Each reset other than power-on that a command can demand, with its cause (R457). -/
theorem exec_deviceReset {s : State} {c : Instr} {k : Nat}
    (hc : (c, k) ∈ [(Instr.farrierWatchdogReset, 4), (.softwareReset .farrier, 3), (.pinReset 10000, 2)])
    (hposted : s.glb.posted = []) : exec c s = .next (s.deviceReset k) := by
  simp only [List.mem_cons, Prod.mk.injEq, List.not_mem_nil, or_false] at hc
  obtain ⟨rfl, rfl⟩ | ⟨rfl, rfl⟩ | ⟨rfl, rfl⟩ := hc
  · rfl
  · change execSoftwareReset .farrier s = _
    simp [execSoftwareReset, State.privileged, hposted]
  · rfl

/-- Settles O60: the recorder after the reset is the one that `State.keepWax` leaves over the reset values
(`State.deviceReset_sameWaxbook`), with an empty queue and `enable` 0; a firing taken later continues with the fill and the
sequence number it finds. -/
theorem waxbookThroughReset : Obligations.WaxbookThroughReset := by
  refine ⟨fun s c k hc hposted => exec_deviceReset hc hposted, fun s k => ⟨s.deviceReset k, rfl, ?_⟩⟩
  have hsame := s.deviceReset_sameWaxbook k
  have hwax := hsame.wax.trans (State.keepWax_wax ..)
  have hen := s.deviceReset_disabled k
  refine ⟨congrArg (·.store) hwax, congrArg (·.busy) hwax, congrArg (·.queue) hwax, hsame.rd.trans (State.keepWax_seq ..),
    hsame.rd.trans (State.keepWax_full ..), hsame.rd.trans (State.keepWax_lost ..), s.deviceReset_fill_onChip k,
    s.deviceReset_fill_beyond k, fun off hl hu => s.deviceReset_word k ⟨hl, hu⟩, s.deviceReset_stat k, s.deviceReset_stat k,
    s.deviceReset_stat k, s.deviceReset_stat k, hen, execRecordTake_empty (congrArg (·.queue) hwax),
    State.fireTrigger_disabled (by rw [State.on, hen]; rfl), fun u f l hqueue hbusy hfull hon hfits => ?_⟩
  obtain ⟨v, hv, hrecord⟩ := execRecordTake_fits hqueue hbusy hfull hon hfits
  exact ⟨v, _, hv, hrecord, rfl, rfl, u.field_waxRecord_seq f⟩

end Sys2Proof.Machine

/-! What later proofs need of registers and events: a field read through the writes of other fields, the named registers that an
operation changes, and what the raising of an event and the outcome of a descriptor leave alone. -/

namespace Sys2Proof.Machine

/-! ## Fields that share no bits -/

/-- Two fields with the same strides share no bits at one and the same index. -/
abbrev Fld.Sep (g f : Fld) : Prop :=
  g.s1 = f.s1 ∧ g.s2 = f.s2 ∧ (g.off ≠ f.off ∨ f.lo + f.width ≤ g.lo ∨ g.lo + g.width ≤ f.lo)

/-- The registers of two fields are so laid out that different instances never share a register. -/
abbrev Fld.Beside (g f : Fld) : Prop :=
  g.s1 = f.s1 ∧ g.s2 = f.s2 ∧ g.off < f.off + f.s1 ∧ f.off < g.off + f.s1

/-- The first `n` instances of a field lie below those of another, or the first `m` instances of that one below its own. -/
abbrev Fld.Off (g f : Fld) (m n : Nat) : Prop :=
  f.off + f.s1 * (n - 1) < g.off ∨ g.off + g.s1 * (m - 1) < f.off

/-- The first `n` instances of a field are no registers that an event may write. -/
abbrev Fld.NoEvent (f : Fld) (n : Nat) : Prop :=
  f.off + f.s1 * (n - 1) < 0x13200 ∨ 0x13210 < f.off ∧ f.off + f.s1 * (n - 1) < 0x1C0004 ∨ 0x1C0024 < f.off

theorem Fld.addr_ne_of_off {g f : Fld} {m n i j : Nat} (hi : i < m) (hj : j < n) (h : g.Off f m n) :
    g.addr i 0 ≠ f.addr j 0 := by
  have hg : g.s1 * i ≤ g.s1 * (m - 1) := Nat.mul_le_mul_left _ (by omega)
  have hf : f.s1 * j ≤ f.s1 * (n - 1) := Nat.mul_le_mul_left _ (by omega)
  simp only [Fld.addr]
  rcases h with h | h <;> omega

theorem Fld.addr_ne_of_beside {g f : Fld} {i j k : Nat} (hij : i ≠ j) (h : g.Beside f) : g.addr i k ≠ f.addr j k := by
  obtain ⟨h1, h2, hg, hf⟩ := h
  simp only [Fld.addr, h1, h2]
  obtain hlt | hlt : i < j ∨ j < i := by omega
  · obtain ⟨d, rfl⟩ : ∃ d, j = i + 1 + d := ⟨j - i - 1, by omega⟩
    nlinarith [Nat.zero_le (f.s1 * d)]
  · obtain ⟨d, rfl⟩ : ∃ d, i = j + 1 + d := ⟨i - j - 1, by omega⟩
    nlinarith [Nat.zero_le (f.s1 * d)]

/-! ## Single bits -/

/-- Taking away a power of two that is set clears that bit only. -/
theorem testBit_sub_two_pow {x i : Nat} (h : x.testBit i = true) (j : Nat) :
    (x - 2 ^ i).testBit j = (x.testBit j && j != i) := by
  have hodd : x / 2 ^ i % 2 = 1 := by simpa [Nat.testBit_eq_decide_div_mod_eq] using h
  obtain ⟨q, hq⟩ : ∃ q, x / 2 ^ i = 2 * q + 1 := ⟨x / 2 ^ i / 2, by omega⟩
  have hr : x % 2 ^ i < 2 ^ i := Nat.mod_lt _ (Nat.two_pow_pos i)
  have hx : x = 2 ^ i * (2 * q + 1) + x % 2 ^ i := by rw [← hq, Nat.div_add_mod]
  generalize x % 2 ^ i = r at hr hx
  have hsub : x - 2 ^ i = 2 ^ i * (2 * q) + r := by rw [hx, Nat.mul_add, Nat.mul_one]; omega
  rw [hsub, hx, Nat.testBit_two_pow_mul_add _ hr, Nat.testBit_two_pow_mul_add _ hr]
  by_cases hlt : j < i
  · simp [hlt, hlt.ne]
  · obtain ⟨k, rfl⟩ : ∃ k, j = i + k := ⟨j - i, by omega⟩
    cases k with
    | zero => simp [Nat.testBit_zero]
    | succ k =>
      have hdiv : (2 * q + 1) / 2 = q := by omega
      simp [Nat.testBit_succ, hdiv]

theorem testBit_putBit (x i j : Nat) (v : Bool) : (putBit x i v).testBit j = if j = i then v else x.testBit j := by
  unfold putBit
  cases v with
  | true =>
    by_cases hj : j = i
    · simp [hj]
    · simp [hj, Nat.testBit_two_pow_of_ne (Ne.symm hj)]
  | false =>
    by_cases hx : x.testBit i = true
    · by_cases hj : j = i <;> simp [hx, testBit_sub_two_pow hx, hj]
    · by_cases hj : j = i
      · simp [hj, hx]
      · simp [hj, hx]

theorem mem_insertCompl {c e : Compl} {l : List Compl} : c ∈ insertCompl e l ↔ c = e ∨ c ∈ l := by
  induction l with
  | nil => simp [insertCompl]
  | cons a l ih =>
    rw [insertCompl]
    split
    · simp only [List.mem_cons, ih, or_left_comm]
    · simp only [List.mem_cons]

namespace State

variable (s : State)

theorem rd_wr_sep {g f : Fld} {v i j : Nat} (h : g.Sep f) : (s.wr f v i j).rd g i j = s.rd g i j := by
  obtain ⟨h1, h2, h⟩ := h
  refine s.rd_wr ?_
  by_cases hoff : g.off = f.off
  · exact .inr (h.resolve_left (not_not.2 hoff))
  · exact .inl (by simp only [Fld.addr, h1, h2]; omega)

theorem rd_wr_off {g f : Fld} {m n i j v : Nat} (hi : i < m) (hj : j < n) (h : g.Off f m n) :
    (s.wr f v j).rd g i = s.rd g i := s.rd_wr_ne (Fld.addr_ne_of_off hi hj h)

theorem rd_wr_beside {g f : Fld} {v i j k : Nat} (hij : i ≠ j) (h : g.Beside f) : (s.wr f v j k).rd g i k = s.rd g i k :=
  s.rd_wr_ne (Fld.addr_ne_of_beside hij h)

theorem on_wr_sep {g f : Fld} {v i j : Nat} (h : g.Sep f) : (s.wr f v i j).on g i j = s.on g i j := by
  rw [on, on, rd_wr_sep s h]

theorem rd_mod (f : Fld) (i j : Nat) : s.rd f i j % 2 ^ f.width = s.rd f i j := Nat.mod_eq_of_lt (s.rd_lt f i j)

/-- A field takes a value that it has room for. -/
theorem rd_wr_lt {f : Fld} {v i j : Nat} (hv : v < 2 ^ f.width) (hf : f.lo + f.width ≤ 32) :
    (s.wr f v i j).rd f i j = v := (s.rd_wr_same hf).trans (Nat.mod_eq_of_lt hv)

theorem on_eq_true {f : Fld} {i j : Nat} : s.on f i j = true ↔ s.rd f i j ≠ 0 := by simp [on]

theorem on_eq_false {f : Fld} {i j : Nat} : s.on f i j = false ↔ s.rd f i j = 0 := by simp [on]

/-- A bit of a field just set or cleared, and its other bits. -/
theorem bitAt_rd_wrBit {f : Fld} {b c i j : Nat} {v : Bool} (hc : c < f.width) (hf : f.lo + f.width ≤ 32) :
    bitAt ((s.wrBit f b v i j).rd f i j) c = if c = b then v else bitAt (s.rd f i j) c := by
  rw [wrBit_eq, rd_wr_same s hf, bitAt, Nat.testBit_mod_two_pow, testBit_putBit, decide_eq_true hc, Bool.true_and]
  rfl

/-- A flag is 1 or 0. -/
theorem rd_eq_one_of_on {f : Fld} {i j : Nat} (h : s.on f i j = true) (hf : f.width = 1) : s.rd f i j = 1 := by
  have hlt : s.rd f i j < 2 := by simpa [hf] using s.rd_lt f i j
  have hne := s.on_eq_true.1 h
  omega

/-! ## Registers that an operation changes -/

variable {s} {t u : State}

theorem OnlyWords.refl (s : State) (l : List Nat) : s.OnlyWords s l := fun _ _ => rfl

theorem OnlyWords.trans {l : List Nat} (h : s.OnlyWords t l) (h' : t.OnlyWords u l) : s.OnlyWords u l :=
  fun off hoff => (h' off hoff).trans (h off hoff)

theorem OnlyWords.mono {l l' : List Nat} (h : s.OnlyWords t l) (hl : l ⊆ l') : s.OnlyWords t l' :=
  fun off hoff => h off fun hin => hoff (hl hin)

theorem OnlyWords.wr {l : List Nat} {f : Fld} {v i j : Nat} (h : s.OnlyWords t l) (hf : f.addr i j ∈ l) :
    s.OnlyWords (t.wr f v i j) l :=
  fun off hoff => (t.word_wr_ne f (by rintro rfl; exact hoff hf)).trans (h off hoff)

theorem OnlyWords.raise {l : List Nat} {src : Nat} {code inst : Nat} {d : DWord} (h : s.OnlyWords t l) (hsrc : src < 128)
    (hl : eventWords ⊆ l) : s.OnlyWords (t.raise src code inst d) l :=
  fun off hoff => (t.raise_word code inst d hsrc fun hin => hoff (hl hin)).trans (h off hoff)

theorem OnlyWords.rd {l : List Nat} {f : Fld} {i j : Nat} (h : s.OnlyWords t l) (hf : f.addr i j ∉ l) : t.rd f i j = s.rd f i j := by
  rw [State.rd, State.rd, h _ hf]

/-! ## What the raising of an event leaves alone -/

/-- The registers that an event may write lie in these two places. -/
theorem notMem_eventWords {off : Nat} (h : off < 0x13200 ∨ 0x13210 < off ∧ off < 0x1C0004 ∨ 0x1C0024 < off) : off ∉ eventWords := by
  simp only [eventWords, List.mem_cons, List.not_mem_nil, or_false]
  omega

variable (s)

theorem raise_rd_below {src : Nat} (code inst : Nat) (d : DWord) {f : Fld} {n i : Nat} (hsrc : src < 128) (hi : i < n)
    (h : f.NoEvent n) : (s.raise src code inst d).rd f i = s.rd f i := by
  have hf : f.s1 * i ≤ f.s1 * (n - 1) := Nat.mul_le_mul_left _ (by omega)
  refine s.raise_rd code inst d hsrc (notMem_eventWords ?_)
  simp only [Fld.addr]
  rcases h with h | h | h <;> omega

theorem raise_on {src : Nat} (code inst : Nat) (d : DWord) {f : Fld} {i j : Nat} (hsrc : src < 128)
    (h : f.addr i j ∉ eventWords) : (s.raise src code inst d).on f i j = s.on f i j := by
  rw [on, on, s.raise_rd code inst d hsrc h]

@[simp] theorem raise_mode {src : Nat} (code inst : Nat) (d : DWord) (hsrc : src < 128) : (s.raise src code inst d).mode = s.mode :=
  s.raise_rd code inst d hsrc (by decide)

/-! ## The outcome of a descriptor -/

section Complete
variable (id status notes : Nat) (res : List Byte) (ind : Bool)

/-- An outcome leaves alone every block but the host interface. -/
theorem complete_blocks : (s.complete id status notes res ind) =
    { s with regs := (s.complete id status notes res ind).regs,
             glb := { s.glb with t3copies := (s.complete id status notes res ind).glb.t3copies },
             hif := { s.hif with desc := (s.complete id status notes res ind).hif.desc,
                                 compl := (s.complete id status notes res ind).hif.compl } } := by
  obtain ⟨-, h⟩ | ⟨ring, waiting, h⟩ := s.complete_cases id status notes res ind
  · rw [h]
  · rw [h]; rfl

@[simp] theorem complete_pending : (s.complete id status notes res ind).pending = s.pending := by rw [complete_blocks]
@[simp] theorem complete_tick : (s.complete id status notes res ind).tick = s.tick := by rw [complete_blocks]
@[simp] theorem complete_hive : (s.complete id status notes res ind).hive = s.hive := by rw [complete_blocks]
@[simp] theorem complete_anvil : (s.complete id status notes res ind).anvil = s.anvil := by rw [complete_blocks]
@[simp] theorem complete_plan : (s.complete id status notes res ind).plan = s.plan := by rw [complete_blocks]
@[simp] theorem complete_temper : (s.complete id status notes res ind).temper = s.temper := by rw [complete_blocks]
@[simp] theorem complete_combway : (s.complete id status notes res ind).combway = s.combway := by rw [complete_blocks]
@[simp] theorem complete_quench : (s.complete id status notes res ind).quench = s.quench := by rw [complete_blocks]
@[simp] theorem complete_tongs : (s.complete id status notes res ind).tongs = s.tongs := by rw [complete_blocks]
@[simp] theorem complete_swage : (s.complete id status notes res ind).swage = s.swage := by rw [complete_blocks]
@[simp] theorem complete_adc : (s.complete id status notes res ind).adc = s.adc := by rw [complete_blocks]
@[simp] theorem complete_bellows : (s.complete id status notes res ind).bellows = s.bellows := by rw [complete_blocks]
@[simp] theorem complete_sram : (s.complete id status notes res ind).sram = s.sram := by rw [complete_blocks]
@[simp] theorem complete_upd : (s.complete id status notes res ind).upd = s.upd := by rw [complete_blocks]
@[simp] theorem complete_tim : (s.complete id status notes res ind).tim = s.tim := by rw [complete_blocks]
@[simp] theorem complete_wax : (s.complete id status notes res ind).wax = s.wax := by rw [complete_blocks]
@[simp] theorem complete_hostMem : (s.complete id status notes res ind).hostMem = s.hostMem := by rw [complete_blocks]
@[simp] theorem complete_ddr : (s.complete id status notes res ind).ddr = s.ddr := by rw [complete_blocks]
@[simp] theorem complete_rdata : (s.complete id status notes res ind).rdata = s.rdata := by rw [complete_blocks]
@[simp] theorem complete_free : (s.complete id status notes res ind).free = s.free := by rw [complete_blocks]
@[simp] theorem complete_events : (s.complete id status notes res ind).hif.events = s.hif.events := by rw [complete_blocks]

/-- The outcome of an outstanding descriptor, but for the completions that wait. -/
theorem complete_of_find {d : Desc} (h : s.hif.desc.find? (·.id == id) = some d) : ∃ waiting : List Compl,
    s.complete id status notes res ind =
      { s with hif := { s.hif with desc := s.hif.desc.filter (·.id != id), compl := waiting } }.syncRing d.ring := by
  simp only [complete, h]
  generalize (if status = 1 ∧ notes ≠ 0 then 2 else status) = st
  split
  · exact ⟨s.hif.compl, rfl⟩
  · exact ⟨_, rfl⟩

/-- The outstanding descriptors after an outcome. -/
theorem complete_hif_desc : (s.complete id status notes res ind).hif.desc = s.hif.desc.filter (·.id != id) := by
  cases hfind : s.hif.desc.find? (·.id == id) with
  | none =>
    have hne : ∀ e ∈ s.hif.desc, (e.id != id) = true := by simpa using hfind
    simp only [complete, hfind, List.filter_eq_self.2 hne]
  | some d =>
    obtain ⟨waiting, h⟩ := s.complete_of_find id status notes res ind hfind
    rw [h]
    rfl

/-- An outcome writes no register but the two counters of its ring. -/
theorem complete_word {off : Nat}
    (h : ∀ d ∈ s.hif.desc, d.id = id → off ≠ F.HIF_SQ_STAT_outstanding.addr d.ring 0 ∧ off ≠ F.HIF_SQ_INFO_staged.addr d.ring 0) :
    (s.complete id status notes res ind).word off = s.word off := by
  cases hfind : s.hif.desc.find? (·.id == id) with
  | none => simp only [complete, hfind]
  | some d =>
    obtain ⟨hout, hstaged⟩ := h d (List.mem_of_find?_eq_some hfind) (by simpa using List.find?_some hfind)
    obtain ⟨waiting, hcompl⟩ := s.complete_of_find id status notes res ind hfind
    rw [hcompl, syncRing, word_wr_ne _ _ hstaged, word_wr_ne _ _ hout]
    rfl

end Complete

/-- The counters of the 64 rings end below this offset. -/
theorem complete_word_of_le {id : Nat} {off : Nat} (status notes : Nat) (res : List Byte) (ind : Bool)
    (hring : ∀ d ∈ s.hif.desc, d.id = id → d.ring < 64) (hoff : off < 0x11018 ∨ 0x12000 ≤ off) :
    (s.complete id status notes res ind).word off = s.word off := by
  refine s.complete_word _ _ _ _ _ fun d hd hid => ?_
  have hlt := hring d hd hid
  simp only [Fld.addr, F.HIF_SQ_STAT_outstanding, F.HIF_SQ_INFO_staged]
  omega

/-! ## A descriptor that starts -/

@[simp] theorem startDesc_pending (d : Desc) : (s.startDesc d).pending = s.pending := rfl
@[simp] theorem startDesc_tick (d : Desc) : (s.startDesc d).tick = s.tick := rfl
@[simp] theorem startDesc_glb_mailbox (d : Desc) : (s.startDesc d).glb.mailbox = s.glb.mailbox := rfl
@[simp] theorem startDesc_glb_staged (d : Desc) : (s.startDesc d).glb.staged = s.glb.staged := rfl
@[simp] theorem startDesc_glb_posted (d : Desc) : (s.startDesc d).glb.posted = s.glb.posted := rfl
@[simp] theorem startDesc_glb_unlock (d : Desc) : (s.startDesc d).glb.unlock = s.glb.unlock := rfl
@[simp] theorem startDesc_glb_modeReq (d : Desc) : (s.startDesc d).glb.modeReq = s.glb.modeReq := rfl
@[simp] theorem startDesc_glb_sentinelDue (d : Desc) : (s.startDesc d).glb.sentinelDue = s.glb.sentinelDue := rfl
@[simp] theorem startDesc_glb_sentinelAt (d : Desc) : (s.startDesc d).glb.sentinelAt = s.glb.sentinelAt := rfl
@[simp] theorem startDesc_hive (d : Desc) : (s.startDesc d).hive = s.hive := rfl
@[simp] theorem startDesc_anvil (d : Desc) : (s.startDesc d).anvil = s.anvil := rfl
@[simp] theorem startDesc_plan (d : Desc) : (s.startDesc d).plan = s.plan := rfl
@[simp] theorem startDesc_temper (d : Desc) : (s.startDesc d).temper = s.temper := rfl
@[simp] theorem startDesc_combway (d : Desc) : (s.startDesc d).combway = s.combway := rfl
@[simp] theorem startDesc_quench (d : Desc) : (s.startDesc d).quench = s.quench := rfl
@[simp] theorem startDesc_tongs (d : Desc) : (s.startDesc d).tongs = s.tongs := rfl
@[simp] theorem startDesc_swage (d : Desc) : (s.startDesc d).swage = s.swage := rfl
@[simp] theorem startDesc_adc (d : Desc) : (s.startDesc d).adc = s.adc := rfl
@[simp] theorem startDesc_bellows (d : Desc) : (s.startDesc d).bellows = s.bellows := rfl
@[simp] theorem startDesc_sram (d : Desc) : (s.startDesc d).sram = s.sram := rfl
@[simp] theorem startDesc_upd (d : Desc) : (s.startDesc d).upd = s.upd := rfl
@[simp] theorem startDesc_tim (d : Desc) : (s.startDesc d).tim = s.tim := rfl
@[simp] theorem startDesc_wax (d : Desc) : (s.startDesc d).wax = s.wax := rfl
@[simp] theorem startDesc_clk (d : Desc) : (s.startDesc d).clk = s.clk := rfl
@[simp] theorem startDesc_epochs (d : Desc) : (s.startDesc d).epochs = s.epochs := rfl
@[simp] theorem startDesc_hostMem (d : Desc) : (s.startDesc d).hostMem = s.hostMem := rfl
@[simp] theorem startDesc_ddr (d : Desc) : (s.startDesc d).ddr = s.ddr := rfl
@[simp] theorem startDesc_rdata (d : Desc) : (s.startDesc d).rdata = s.rdata := rfl
@[simp] theorem startDesc_free (d : Desc) : (s.startDesc d).free = s.free := rfl
@[simp] theorem startDesc_hif_compl (d : Desc) : (s.startDesc d).hif.compl = s.hif.compl := rfl
@[simp] theorem startDesc_hif_events (d : Desc) : (s.startDesc d).hif.events = s.hif.events := rfl
@[simp] theorem startDesc_hif_sq (d : Desc) : (s.startDesc d).hif.sq = s.hif.sq := rfl
@[simp] theorem startDesc_hif_cq (d : Desc) : (s.startDesc d).hif.cq = s.hif.cq := rfl

/-- The counters of the 64 rings end below this offset. -/
theorem syncRing_word_of_lt {r off : Nat} (hr : r < 64) (hoff : off < 0x11018 ∨ 0x12000 ≤ off) : (s.syncRing r).word off = s.word off := by
  have hout : off ≠ F.HIF_SQ_STAT_outstanding.addr r 0 := by simp only [Fld.addr, F.HIF_SQ_STAT_outstanding]; omega
  have hstaged : off ≠ F.HIF_SQ_INFO_staged.addr r 0 := by simp only [Fld.addr, F.HIF_SQ_INFO_staged]; omega
  rw [syncRing, word_wr_ne _ _ hstaged, word_wr_ne _ _ hout]

variable {s}

theorem Starts.mem {r opcode : Nat} {d : Desc} (h : s.Starts r opcode d) : d ∈ s.hif.desc := List.mem_of_find?_eq_some h.1

theorem Starts.ring {r opcode : Nat} {d : Desc} (h : s.Starts r opcode d) : d.ring = r := by
  have hp := List.find?_some h.1
  simp only [Bool.and_eq_true, beq_iff_eq] at hp
  exact hp.1.1

theorem startDesc_word {d : Desc} (hr : d.ring < 64) {off : Nat} (hoff : off < 0x11018 ∨ 0x12000 ≤ off) :
    (s.startDesc d).word off = s.word off :=
  State.syncRing_word_of_lt _ hr hoff

theorem startDesc_rd_of_lt {d : Desc} (hr : d.ring < 64) {f : Fld} {i j : Nat} (hf : f.addr i j < 0x11018 ∨ 0x12000 ≤ f.addr i j) :
    (s.startDesc d).rd f i j = s.rd f i j := by
  rw [rd, rd, startDesc_word hr hf]

/-! ## Outcomes in sequence -/

/-- The outcome of an outstanding descriptor that does not suppress its completion waits with its status, its notes and its
result. -/
theorem complete_waits {d e : Desc} (hfind : s.hif.desc.find? (·.id == d.id) = some e) (hring : e.ring = d.ring) (hcq : e.cq = d.cq)
    (hquiet : e.quiet = false) (status notes : Nat) (res : List Byte) (ind : Bool) :
    ∃ c ∈ (s.complete d.id status notes res ind).hif.compl, c.id = d.id ∧ c.ring = d.ring ∧ c.cq = d.cq
      ∧ c.status = (if status = 1 ∧ notes ≠ 0 then 2 else status) ∧ c.notes = notes + (if ind then 128 else 0)
      ∧ c.result = (res ++ List.replicate 16 0).take 16 := by
  have hid : e.id = d.id := by simpa using List.find?_some hfind
  have hbit : bitAt (byteAt e.bytes 2) 0 = false := hquiet
  simp only [complete, hfind, hbit, Bool.false_eq_true, and_false, if_false]
  exact ⟨_, mem_insertCompl_self _ _, hid, hring, hcq, rfl, rfl, rfl⟩

/-- An outstanding descriptor that does not suppress its completion has its outcome. -/
theorem complete_completed_of_find {d e : Desc} (hfind : s.hif.desc.find? (·.id == d.id) = some e) (hring : e.ring = d.ring)
    (hcq : e.cq = d.cq) (hquiet : e.quiet = false) {status notes : Nat} {res : List Byte} {ind : Bool} :
    (s.complete d.id status notes res ind).Completed d (if status = 1 ∧ notes ≠ 0 then 2 else status) := by
  obtain ⟨c, hc, hid, hring, hcq, hstatus, -, -⟩ := complete_waits hfind hring hcq hquiet status notes res ind
  exact ⟨s.complete_desc d.id status notes res ind, c, hc, hid, hring, hcq, hstatus⟩

/-- The descriptor that has started has its outcome. -/
theorem Starts.completed {r opcode : Nat} {d : Desc} (h : s.Starts r opcode d) (hdesc : t.hif.desc = (s.startDesc d).hif.desc)
    {status : Nat} {res : List Byte} {ind : Bool} : (t.complete d.id status 0 res ind).Completed d status := by
  have hfind := startDesc_find h.2.1
  rw [← hdesc] at hfind
  exact complete_completed hfind h.2.2 status res ind

/-- An outcome stays, whatever else happens to the state. -/
theorem Completed.of_hif {d : Desc} {status : Nat} (h : t.Completed d status) (hdesc : u.hif.desc = t.hif.desc)
    (hcompl : u.hif.compl = t.hif.compl) : u.Completed d status := by
  rw [Completed, hdesc, hcompl]
  exact h

end State

end Sys2Proof.Machine

/-! Proofs about a step of the machine: the command at the front of the queue, one tick of time, and what every step keeps
(R340, R457, R458). -/

namespace Sys2Proof.Machine

/-- Every command keeps a sound state sound. -/
theorem exec_inv {s : State} (hs : s.Inv) (c : Instr) : SoundOut (exec c s) := by
  unfold exec
  split
  · exact execRegisterWrite_inv _ _ _ _ _ hs
  · exact execRcRead_inv _ _ _ _ hs
  · exact execWpWriteLand_inv _ hs
  · exact execStrobeAtInstant_inv _ hs
  · exact execStrobeNow_inv _ hs
  · exact execStrobeApply_inv hs
  · exact execScrubberVisit_inv _ hs
  · exact execMailboxHeaderRead_inv _ hs
  · exact execMailboxDataRead_inv _ _ hs
  · exact execMailboxTrailerRead_inv _ hs
  · exact execMailboxHoldExpiry_inv _ hs
  · exact execUnlockRequest_inv hs
  · exact execNonceIssued_inv _ hs
  · exact execUnownedUnlockGrant_inv hs
  · exact execUnlockVerify_inv hs
  · exact execVerifyComplete_inv hs
  · exact execNonceExpiry_inv hs
  · exact execUnlockWaitExpiry_inv hs
  · exact execUnlockLock_inv hs
  · exact execHifReset_inv hs
  · exact execD3hotEntry_inv hs
  · exact execD0Return_inv hs
  · exact execPcieLinkChange_inv _ _ _ hs
  · exact execAerError_inv _ _ hs
  · exact execSubmissionDoorbell_inv _ _ hs
  · exact execCompletionDoorbell_inv _ _ hs
  · exact execDescriptorFetch_inv _ _ hs
  · exact execFetchComplete_inv _ _ _ hs
  · exact execCompletionWrite_inv _ _ hs
  · exact execModerationTimerExpiry_inv _ hs
  · exact execEventDelivery_inv _ hs
  · exact execEventsLostReport_inv hs
  · exact execSqEnable_inv _ _ hs
  · exact execSqDisable_inv _ hs
  · exact execSqReset_inv _ hs
  · exact execSqAbortAll_inv _ hs
  · exact execCqEnable_inv _ hs
  · exact execCqDisable_inv _ hs
  · exact execCqReset_inv _ hs
  · exact execNop_inv _ hs
  · exact execAbort_inv _ hs
  · exact execHiveDispatch_inv hs
  · exact execAffinityWaitExpiry_inv _ hs
  · exact execRunLimitExpiry_inv _ hs
  · exact execCoreReset_inv _ hs
  · exact execCoreRejoin_inv _ hs
  · exact execFgrEndDone_inv _ hs
  · exact execFgrEndYield_inv _ hs
  · exact execFgrEndSleep_inv _ _ hs
  · exact execFgrSubmit_inv _ _ _ _ hs
  · exact execTimerArmTimeout_inv _ _ _ _ hs
  · exact execTimerArmGeneral_inv _ _ _ _ hs
  · exact execTimerCancel_inv _ _ hs
  · exact execContextSetFree_inv _ _ hs
  · exact execContextSetActive_inv _ _ hs
  · exact execHiveTick_inv hs
  · exact execSpillRefill_inv _ hs
  · exact execBackpressureTimeout_inv _ hs
  · exact execAnvilSubmit_inv _ _ hs
  · exact execAnvilAbort_inv _ _ hs
  · exact execAnvilReset_inv _ hs
  · exact execAnvilFault_inv _ _ hs
  · exact execAnvilDisable_inv _ hs
  · exact execSolve_inv _ hs
  · exact execWarmClear_inv _ hs
  · exact execAnvilDispatch_inv hs
  · exact execJobLoadComplete_inv _ _ hs
  · exact execFactorisationComplete_inv _ hs
  · exact execIteration_inv _ hs
  · exact execRefactorisationComplete_inv _ hs
  · exact execJobDeadline_inv _ hs
  · exact execJobOutput_inv _ _ hs
  · exact execCommitSignal_inv hs
  · exact execMoveJoint_inv _ _ hs
  · exact execMoveLine_inv _ _ hs
  · exact execMoveArc_inv _ _ hs
  · exact execMoveSpline_inv _ _ hs
  · exact execDwell_inv _ hs
  · exact execHold_inv _ hs
  · exact execStop_inv _ hs
  · exact execResume_inv _ hs
  · exact execCancel_inv _ hs
  · exact execSetAccel_inv _ hs
  · exact execStatus_inv _ hs
  · exact execSegmentComplete_inv _ hs
  · exact execChainStandstill_inv _ _ _ hs
  · exact execPlanningTick_inv _ _ hs
  · exact execPlannerCompletion_inv _ hs
  · exact execZoneRequestForm_inv _ hs
  · exact execKeeperDecision_inv hs
  · exact execZoneWaitExpiry_inv _ _ hs
  · exact execZoneHoldLimitExpiry_inv _ _ hs
  · exact execZoneRequestMsg_inv _ hs
  · exact execZoneReleaseMsg_inv _ hs
  · exact execZoneWithdrawMsg_inv _ hs
  · exact execZoneStateMsg_inv _ hs
  · exact execZoneClaimMsg_inv _ hs
  · exact execKeeperRestartEnd_inv hs
  · exact execPlanCfg_inv _ hs
  · exact execSwarmCfg_inv _ hs
  · exact execChainCfg_inv _ hs
  · exact execZoneTable_inv _ _ hs
  · exact execPlannerSettingApply_inv hs
  · exact execAllowanceTableStop_inv _ hs
  · exact execTemperProgramStart_inv _ _ _ _ hs
  · exact execTemperEnable_inv _ hs
  · exact execTemperDisable_inv _ hs
  · exact execTemperResetWrite_inv _ hs
  · exact execFeClear_inv _ _ hs
  · exact execLawLoad_inv _ _ hs
  · exact execInject_inv _ _ hs
  · exact execCaptureSet_inv _ hs
  · exact execCapture_inv _ hs
  · exact execFra_inv _ hs
  · exact execInjectionStart_inv _ hs
  · exact execInjectionEnd_inv _ hs
  · exact execCaptureDrain_inv _ hs
  · exact execFraStart_inv _ hs
  · exact execFraComplete_inv _ _ hs
  · exact execFraDeadline_inv _ _ hs
  · exact execProgLoad_inv _ _ _ hs
  · exact execProgClear_inv _ hs
  · exact execBgStart_inv _ hs
  · exact execBackgroundPreemption_inv _ hs
  · exact execLdW_inv _ _ _ _ _ _ hs
  · exact execLdD_inv _ _ _ _ _ _ hs
  · exact execLdB_inv _ _ _ _ _ _ hs
  · exact execStW_inv _ _ _ _ _ _ hs
  · exact execStD_inv _ _ _ _ _ _ hs
  · exact execLdxy_inv _ _ _ _ _ _ hs
  · exact execStN_inv _ _ _ _ _ _ hs
  · exact execStNc_inv _ _ _ _ _ _ hs
  · exact execAmod_inv _ _ _ _ _ _ hs
  · exact execMva_inv _ _ _ _ _ _ hs
  · exact execMvm_inv _ _ _ _ _ _ hs
  · exact execMvd_inv _ _ _ _ _ _ hs
  · exact execMvmd_inv _ _ _ _ _ _ hs
  · exact execMvc_inv _ _ _ _ _ _ hs
  · exact execMvcw_inv _ _ _ _ _ _ hs
  · exact execMul_inv _ _ _ _ _ hs
  · exact execMac_inv _ _ _ _ _ hs
  · exact execMsu_inv _ _ _ _ _ hs
  · exact execDmac_inv _ _ _ _ _ hs
  · exact execCmul_inv _ _ _ _ _ hs
  · exact execCmac_inv _ _ _ _ _ hs
  · exact execCmacj_inv _ _ _ _ _ hs
  · exact execAclr_inv _ _ _ _ _ hs
  · exact execNrw_inv _ _ _ _ _ hs
  · exact execAsh_inv _ _ _ _ _ hs
  · exact execAdd_inv _ _ _ _ _ hs
  · exact execSub_inv _ _ _ _ _ hs
  · exact execAdds_inv _ _ _ _ _ hs
  · exact execSubs_inv _ _ _ _ _ hs
  · exact execAnd_inv _ _ _ _ _ hs
  · exact execOr_inv _ _ _ _ _ hs
  · exact execXor_inv _ _ _ _ _ hs
  · exact execShl_inv _ _ _ _ _ hs
  · exact execShr_inv _ _ _ _ _ hs
  · exact execShrr_inv _ _ _ _ _ hs
  · exact execMin_inv _ _ _ _ _ hs
  · exact execMax_inv _ _ _ _ _ hs
  · exact execCls_inv _ _ _ _ _ hs
  · exact execClsa_inv _ _ _ _ _ hs
  · exact execMovi_inv _ _ _ _ _ hs
  · exact execTst_inv _ _ _ _ _ hs
  · exact execBr_inv _ _ _ hs
  · exact execBz_inv _ _ _ hs
  · exact execBnz_inv _ _ _ hs
  · exact execBn_inv _ _ _ hs
  · exact execBnn_inv _ _ _ hs
  · exact execCall_inv _ _ _ hs
  · exact execRet_inv _ _ _ hs
  · exact execEnd_inv _ _ _ hs
  · exact execRbg_inv _ _ _ hs
  · exact execLset_inv _ _ _ hs
  · exact execLoop_inv _ _ _ hs
  · exact execRot_inv _ _ _ hs
  · exact execAtom_inv _ _ _ hs
  · exact execTongsEnable_inv _ _ _ hs
  · exact execTongsDisable_inv _ _ hs
  · exact execQuadratureEdge_inv _ _ _ _ _ hs
  · exact execWireDisagreement_inv _ _ hs
  · exact execIndexEvent_inv _ _ _ hs
  · exact execHallSectorChange_inv _ _ _ _ hs
  · exact execSsiFrameStart_inv _ _ hs
  · exact execSsiFrameEnd_inv _ _ _ hs
  · exact execStandstillTimeout_inv _ hs
  · exact execTongsClear_inv _ hs
  · exact execProbeArm_inv _ hs
  · exact execProbeDisarm_inv _ hs
  · exact execProbeLatch_inv _ _ _ _ hs
  · exact execTngSample_inv _ hs
  · exact execSwageLinkSlot_inv _ hs
  · exact execSwageStatusMessage_inv _ _ hs
  · exact execStatusMessageMissing_inv _ hs
  · exact execProfileTick_inv _ _ hs
  · exact execSwgMove_inv _ hs
  · exact execSwgStop_inv _ hs
  · exact execSwgResume_inv _ hs
  · exact execSwgHome_inv _ hs
  · exact execSwgSetAccel_inv _ hs
  · exact execSwageAccelWrite_inv _ _ _ hs
  · exact execSwageStopRequest_inv _ hs
  · exact execSwageEnable_inv _ hs
  · exact execSwageDisable_inv _ hs
  · exact execSwageClear_inv _ hs
  · exact execHomingSettleEnd_inv _ hs
  · exact execHoldCurrentDelay_inv _ hs
  · exact execSchedLoad_inv _ _ hs
  · exact execStagedScheduleApply_inv _ hs
  · exact execSegmentEnable_inv _ _ hs
  · exact execSegmentDisable_inv _ _ hs
  · exact execCommonInstant_inv hs
  · exact execFeedbackComplete_inv _ hs
  · exact execFrameReception_inv _ _ _ _ hs
  · exact execMinislotBoundary_inv _ hs
  · exact execDynamicFramePost_inv _ _ _ hs
  · exact execTransmitLeadExamination_inv _ _ hs
  · exact execStaticFrameTransmit_inv _ _ hs
  · exact execErrorWindowRollover_inv hs
  · exact execListenTimeout_inv _ hs
  · exact execColdstartComplete_inv _ hs
  · exact execBackoffExpiry_inv _ hs
  · exact execTimeMessage_inv _ hs
  · exact execEchoReq_inv _ hs
  · exact execEchoResp_inv _ hs
  · exact execIntegrationComplete_inv _ hs
  · exact execIntegrationLimitExpiry_inv _ hs
  · exact execClockCorrection_inv _ hs
  · exact execPassiveRecovery_inv _ hs
  · exact execSyncMasterLoss_inv _ hs
  · exact execSyncFrameAbsence_inv _ hs
  · exact execRelearn_inv _ hs
  · exact execNodeLeft_inv _ _ hs
  · exact execGuardCut_inv _ _ hs
  · exact execGuardViewCompare_inv _ _ _ hs
  · exact execGuardSyncLoss_inv _ hs
  · exact execWaggleStart_inv _ hs
  · exact execWaggleStop_inv _ hs
  · exact execWaggleShot_inv _ _ hs
  · exact execWaggleDone_inv _ hs
  · exact execCompareArm_inv _ hs
  · exact execCompareDisarm_inv _ hs
  · exact execCompareMatch_inv _ hs
  · exact execAdcWake_inv _ hs
  · exact execCaptureEdge_inv _ _ _ _ hs
  · exact execCycleWrite_inv _ _ hs
  · exact execTimeSnapshotRead_inv _ hs
  · exact execLineOffsetDelivery_inv _ _ _ _ hs
  · exact execDomainLoss_inv _ hs
  · exact execDomainRevert_inv hs
  · exact execTpoPulseEnd_inv _ hs
  · exact execEthLinkChange_inv _ _ _ _ _ hs
  · exact execEthFrameReceived_inv _ _ _ _ hs
  · exact execMdioRead_inv _ _ _ _ hs
  · exact execMdioWrite_inv _ _ _ _ _ hs
  · exact execMdioAddress_inv _ _ _ _ hs
  · exact execMdioFrameDone_inv _ hs
  · exact execSafetyTick_inv _ hs
  · exact execSafetyTickTimeout_inv _ hs
  · exact execDiscrepancyFault_inv _ hs
  · exact execTestPulse_inv _ _ hs
  · exact execOutputOffTest_inv _ _ _ hs
  · exact execConnectionWatchdogExpiry_inv _ hs
  · exact execSourceMissingLimit_inv _ _ hs
  · exact execSs1LimitTimeExpiry_inv _ hs
  · exact execRestartDelayExpiry_inv _ hs
  · exact execStoFeedbackTimeout_inv _ hs
  · exact execLockstepMismatch_inv _ hs
  · exact execQuenchWatchdogExpiry_inv hs
  · exact execQuenchSramError_inv hs
  · exact execQuenchScrub_inv _ hs
  · exact execCodeCheck_inv _ hs
  · exact execSelfTestComplete_inv _ hs
  · exact execQuenchRailFault_inv hs
  · exact execQuenchRailReturn_inv hs
  · exact execSpsLoad_inv _ _ hs
  · exact execSpsRead_inv _ _ hs
  · exact execSpsConfirmWrite_inv _ _ hs
  · exact execBrakeTest_inv _ hs
  · exact execBrakeEngageTimeExpiry_inv hs
  · exact execTorqueRampEnd_inv hs
  · exact execTorqueReachTimeout_inv hs
  · exact execTestDurationExpiry_inv hs
  · exact execBrakeReleaseTimeExpiry_inv hs
  · exact execBrakeTestDue_inv _ hs
  · exact execBrakeTestOverdue_inv _ hs
  · exact execAdcSoftwareTrigger_inv _ hs
  · exact execAdcTriggerInputEvent_inv _ _ hs
  · exact execAdcSample_inv _ _ hs
  · exact execAdcResult_inv _ hs
  · exact execAdcQueuePop_inv _ hs
  · exact execAdcLastRead_inv _ _ hs
  · exact execAdcSeqDisable_inv _ hs
  · exact execRoleDecision_inv hs
  · exact execBellowsLinkTimeout_inv hs
  · exact execBellowsDisable_inv _ hs
  · exact execHeartbeatSend_inv hs
  · exact execHeartbeatReceived_inv _ hs
  · exact execHeartbeatLost_inv hs
  · exact execMirrorApply_inv _ hs
  · exact execLaneLoss_inv _ hs
  · exact execLaneRestore_inv _ hs
  · exact execTakeover_inv hs
  · exact execPairSwap_inv _ hs
  · exact execSwapExecute_inv _ _ hs
  · exact execModeRequestRun_inv _ hs
  · exact execModeRequestHold_inv _ hs
  · exact execModeRequestCommission_inv _ hs
  · exact execModeRequestStage_inv _ hs
  · exact execModeRequestSentinel_inv _ hs
  · exact execModeRequestStandby_inv _ hs
  · exact execModeRequestColdKindle_inv _ _ hs
  · exact execModeTransition_inv hs
  · exact execSentinelEntry_inv hs
  · exact execSentinelRampSwitch_inv hs
  · exact execFwWatchdogServe_inv _ _ hs
  · exact execFwWatchdogExpiry_inv hs
  · exact execDdrUncorrectableRead_inv _ _ _ hs
  · exact execDdrControllerFault_inv _ hs
  · exact execDdrCorrectableThreshold_inv _ _ hs
  · exact execPowerOnReset_inv hs
  · exact execPinReset_inv _ hs
  · exact execSoftwareReset_inv _ hs
  · exact execFarrierWatchdogReset_inv hs
  · exact execPllUnlock_inv _ hs
  · exact execStaleResponseDiscard_inv hs
  · exact execResetRelease_inv hs
  · exact execPllLock_inv hs
  · exact execOtpReadDone_inv _ hs
  · exact execImageSlotChoice_inv hs
  · exact execDdrTrainingDone_inv _ hs
  · exact execForagerStart_inv _ hs
  · exact execSettingsMigration_inv _ _ hs
  · exact execEndOfBoot_inv _ hs
  · exact execStageOpen_inv _ hs
  · exact execStageWrite_inv _ _ hs
  · exact execStageCommit_inv _ hs
  · exact execStageRelease_inv _ hs
  · exact execEthernetStageRequest_inv _ hs
  · exact execStageLockTimeout_inv hs
  · exact execImageConfirm_inv _ hs
  · exact execOwnerFuse_inv _ _ _ hs
  · exact execSettingsSave_inv _ _ hs
  · exact execAttest_inv _ _ hs
  · exact execSoftwareTrigger_inv _ hs
  · exact execRecordTake_inv hs
  · exact execWaxbookClear_inv _ hs
  · exact execCursorWindowRead_inv _ _ _ hs
  · exact execTrcStart_inv _ hs
  · exact execTrcStop_inv _ hs
  · exact execTrcRead_inv _ _ hs
  · exact execCounters_inv _ _ hs
  · exact execSupplyMonitorSample_inv _ hs
  · exact execThermalSample_inv _ _ _ _ hs
  · exact execSafetyInputSample_inv _ hs
  · exact execFlashProgramComplete_inv _ hs
  · exact execWaxbookRecordComplete_inv _ hs

/-- A sound state is sound without the command at the front of its queue. -/
theorem State.Inv.rest {s : State} {c : Instr} {rest : List Instr} (hs : s.Inv) (h : s.pending = c :: rest) :
    State.Inv { s with pending := rest } := by
  obtain ⟨hregs, hhost, hddr, hstore, h0, h1, hev, hq, htr, hcell, hwf⟩ := hs
  rw [h, List.all_cons, Bool.and_eq_true] at hwf
  exact ⟨hregs, hhost, hddr, hstore, h0, h1, hev, hq, htr, hcell, hwf.2⟩

theorem step_of_pending_cons {s : State} {c : Instr} {rest : List Instr} (h : s.pending = c :: rest) :
    step s = exec c { s with pending := rest } := by
  rw [step, h]

theorem step_of_pending_nil {s : State} (h : s.pending = []) : step s = .next (s.ticks 1) := by
  rw [step, h]

/-- Settles O4: a command keeps a sound state sound (`exec_inv`), and a tick moves cell time within its range. -/
theorem stepKeepsInv : Obligations.StepKeepsInv := by
  intro s t hs hstep
  cases hp : s.pending with
  | nil =>
    rw [step_of_pending_nil hp] at hstep
    cases hstep
    exact State.ticks_inv hs 1
  | cons c rest =>
    rw [step_of_pending_cons hp] at hstep
    exact exec_inv (hs.rest hp) c t hstep

/-- Settles O1, which is `step_of_pending_cons`. -/
theorem stepRunsFront : Obligations.StepRunsFront := fun _ _ _ h => step_of_pending_cons h

/-- Settles O2, with the tick of `step_of_pending_nil`. -/
theorem idleTick : Obligations.IdleTick := by
  intro s h
  refine ⟨s.ticks 1, step_of_pending_nil h, rfl, ?_, rfl⟩
  simp only [State.ticks, Nat.one_mul]

/-- Settles O3: no register is listed apart from its reset value, and the empty memories and stagings are sound. -/
theorem resetState : Obligations.ResetState := by
  refine ⟨fun off => rfl, rfl, ?_, rfl, rfl, rfl, rfl, rfl, ?_⟩
  · decide
  · exact ⟨rfl, rfl, rfl, rfl, rfl, rfl, by decide, by decide, by decide, by decide, rfl⟩

/-! ## No command stops -/

/-- An outcome that is a next state. -/
def Goes (o : Host.Outcome State Fault Refusal) : Prop := ∃ t, o = .next t

theorem Goes.next {s : State} : Goes (.next s) := ⟨s, rfl⟩

theorem Goes.ite {c : Prop} [Decidable c] {a b : Host.Outcome State Fault Refusal} (ha : Goes a) (hb : Goes b) :
    Goes (if c then a else b) := by
  split <;> assumption

/-- Each command's function ends every branch in a next state. -/
theorem exec_goes (c : Instr) (s : State) : Goes (exec c s) := by
  unfold exec
  split
  all_goals
    delta
      execRegisterWrite execRcRead execWpWriteLand execStrobeAtInstant execStrobeNow execStrobeApply execScrubberVisit
      execMailboxHeaderRead execMailboxDataRead execMailboxTrailerRead execMailboxHoldExpiry execUnlockRequest execNonceIssued
      execUnownedUnlockGrant execUnlockVerify execVerifyComplete execNonceExpiry execUnlockWaitExpiry execUnlockLock
      execHifReset execD3hotEntry execD0Return execPcieLinkChange execAerError execSubmissionDoorbell execCompletionDoorbell
      execDescriptorFetch execFetchComplete execCompletionWrite execModerationTimerExpiry execEventDelivery
      execEventsLostReport execSqEnable execSqDisable execSqReset execSqAbortAll execCqEnable execCqDisable execCqReset
      execNop execAbort execHiveDispatch execAffinityWaitExpiry execRunLimitExpiry execCoreReset execCoreRejoin execFgrEndDone
      execFgrEndYield execFgrEndSleep execFgrSubmit execTimerArmTimeout execTimerArmGeneral execTimerCancel execContextSetFree
      execContextSetActive execHiveTick execSpillRefill execBackpressureTimeout execAnvilSubmit execAnvilAbort execAnvilReset
      execAnvilFault execAnvilDisable execSolve execWarmClear execAnvilDispatch execJobLoadComplete execFactorisationComplete
      execIteration execRefactorisationComplete execJobDeadline execJobOutput execCommitSignal execMoveJoint execMoveLine
      execMoveArc execMoveSpline execDwell execHold execStop execResume execCancel execSetAccel execStatus execSegmentComplete
      execChainStandstill execPlanningTick execPlannerCompletion execZoneRequestForm execKeeperDecision execZoneWaitExpiry
      execZoneHoldLimitExpiry execZoneRequestMsg execZoneReleaseMsg execZoneWithdrawMsg execZoneStateMsg execZoneClaimMsg
      execKeeperRestartEnd execPlanCfg execSwarmCfg execChainCfg execZoneTable execPlannerSettingApply execAllowanceTableStop
      execTemperProgramStart execTemperEnable execTemperDisable execTemperResetWrite execFeClear execLawLoad execInject
      execCaptureSet execCapture execFra execInjectionStart execInjectionEnd execCaptureDrain execFraStart execFraComplete
      execFraDeadline execProgLoad execProgClear execBgStart execBackgroundPreemption execLdW execLdD execLdB execStW execStD
      execLdxy execStN execStNc execAmod execMva execMvm execMvd execMvmd execMvc execMvcw execMul execMac execMsu execDmac
      execCmul execCmac execCmacj execAclr execNrw execAsh execAdd execSub execAdds execSubs execAnd execOr execXor execShl
      execShr execShrr execMin execMax execCls execClsa execMovi execTst execBr execBz execBnz execBn execBnn execCall execRet
      execEnd execRbg execLset execLoop execRot execAtom execTongsEnable execTongsDisable execQuadratureEdge
      execWireDisagreement execIndexEvent execHallSectorChange execSsiFrameStart execSsiFrameEnd execStandstillTimeout
      execTongsClear execProbeArm execProbeDisarm execProbeLatch execTngSample execSwageLinkSlot execSwageStatusMessage
      execStatusMessageMissing execProfileTick execSwgMove execSwgStop execSwgResume execSwgHome execSwgSetAccel
      execSwageAccelWrite execSwageStopRequest execSwageEnable execSwageDisable execSwageClear execHomingSettleEnd
      execHoldCurrentDelay execSchedLoad execStagedScheduleApply execSegmentEnable execSegmentDisable execCommonInstant
      execFeedbackComplete execFrameReception execMinislotBoundary execDynamicFramePost execTransmitLeadExamination
      execStaticFrameTransmit execErrorWindowRollover execListenTimeout execColdstartComplete execBackoffExpiry
      execTimeMessage execEchoReq execEchoResp execIntegrationComplete execIntegrationLimitExpiry execClockCorrection
      execPassiveRecovery execSyncMasterLoss execSyncFrameAbsence execRelearn execNodeLeft execGuardCut execGuardViewCompare
      execGuardSyncLoss execWaggleStart execWaggleStop execWaggleShot execWaggleDone execCompareArm execCompareDisarm
      execCompareMatch execAdcWake execCaptureEdge execCycleWrite execTimeSnapshotRead execLineOffsetDelivery execDomainLoss
      execDomainRevert execTpoPulseEnd execEthLinkChange execEthFrameReceived execMdioRead execMdioWrite execMdioAddress
      execMdioFrameDone execSafetyTick execSafetyTickTimeout execDiscrepancyFault execTestPulse execOutputOffTest
      execConnectionWatchdogExpiry execSourceMissingLimit execSs1LimitTimeExpiry execRestartDelayExpiry execStoFeedbackTimeout
      execLockstepMismatch execQuenchWatchdogExpiry execQuenchSramError execQuenchScrub execCodeCheck execSelfTestComplete
      execQuenchRailFault execQuenchRailReturn execSpsLoad execSpsRead execSpsConfirmWrite execBrakeTest
      execBrakeEngageTimeExpiry execTorqueRampEnd execTorqueReachTimeout execTestDurationExpiry execBrakeReleaseTimeExpiry
      execBrakeTestDue execBrakeTestOverdue execAdcSoftwareTrigger execAdcTriggerInputEvent execAdcSample execAdcResult
      execAdcQueuePop execAdcLastRead execAdcSeqDisable execRoleDecision execBellowsLinkTimeout execBellowsDisable
      execHeartbeatSend execHeartbeatReceived execHeartbeatLost execMirrorApply execLaneLoss execLaneRestore execTakeover
      execPairSwap execSwapExecute execModeRequestRun execModeRequestHold execModeRequestCommission execModeRequestStage
      execModeRequestSentinel execModeRequestStandby execModeRequestColdKindle execModeTransition execSentinelEntry
      execSentinelRampSwitch execFwWatchdogServe execFwWatchdogExpiry execDdrUncorrectableRead execDdrControllerFault
      execDdrCorrectableThreshold execPowerOnReset execPinReset execSoftwareReset execFarrierWatchdogReset execPllUnlock
      execStaleResponseDiscard execResetRelease execPllLock execOtpReadDone execImageSlotChoice execDdrTrainingDone
      execForagerStart execSettingsMigration execEndOfBoot execStageOpen execStageWrite execStageCommit execStageRelease
      execEthernetStageRequest execStageLockTimeout execImageConfirm execOwnerFuse execSettingsSave execAttest
      execSoftwareTrigger execRecordTake execWaxbookClear execCursorWindowRead execTrcStart execTrcStop execTrcRead
      execCounters execSupplyMonitorSample execThermalSample execSafetyInputSample execFlashProgramComplete
      execWaxbookRecordComplete
  all_goals repeat' first
    | with_reducible exact Goes.next
    | with_reducible apply Goes.ite
    | split
    | dsimp only

/-- Settles O5, which is `exec_goes`. -/
theorem noCommandStops : Obligations.NoCommandStops := exec_goes

end Sys2Proof.Machine

/-! Proofs about the order of recorded outcomes (R61, R71) and the counts of event staging (R76, R77). -/

namespace Sys2Proof.Machine

/-! ## Recorded outcomes -/

/-- The order in which recorded outcomes wait (R71). -/
abbrev Compl.Before (a b : Compl) : Prop := a.time < b.time ∨ (a.time = b.time ∧ a.ring ≤ b.ring)

theorem length_insertCompl (c : Compl) (l : List Compl) : (insertCompl c l).length = l.length + 1 := by
  induction l with
  | nil => rfl
  | cons a l ih =>
    rw [insertCompl]
    split
    · rw [List.length_cons, ih, List.length_cons]
    · rfl

/-- The place that an outcome takes keeps the order. -/
theorem pairwise_insertCompl {c : Compl} {l : List Compl} (h : l.Pairwise Compl.Before) : (insertCompl c l).Pairwise Compl.Before := by
  induction l with
  | nil => exact List.pairwise_singleton _ c
  | cons a l ih =>
    obtain ⟨ha, hl⟩ := List.pairwise_cons.1 h
    rw [insertCompl]
    split
    · rename_i hac
      refine List.pairwise_cons.2 ⟨fun e he => ?_, ih hl⟩
      obtain rfl | he := mem_insertCompl.1 he
      · exact hac
      · exact ha e he
    · rename_i hac
      have hca : c.Before a := by simp only [Compl.Before]; omega
      refine List.pairwise_cons.2 ⟨fun e he => ?_, h⟩
      obtain rfl | he := List.mem_cons.1 he
      · exact hca
      · have hae := ha e he
        simp only [Compl.Before] at hae hca ⊢
        omega

/-- An outcome leaves the recorded ones as they are, or takes its place among them. -/
theorem State.complete_hif_compl (s : State) (id status notes : Nat) (res : List Byte) (ind : Bool) :
    (s.complete id status notes res ind).hif.compl = s.hif.compl
    ∨ ∃ d ∈ s.hif.desc, d.id = id ∧ ∃ c : Compl, c.id = id ∧ c.ring = d.ring ∧ c.time = s.cellNs
        ∧ (s.complete id status notes res ind).hif.compl = insertCompl c s.hif.compl := by
  cases hfind : s.hif.desc.find? (·.id == id) with
  | none => exact .inl (by simp only [complete, hfind])
  | some d =>
    have hid : d.id = id := by simpa using List.find?_some hfind
    simp only [complete, hfind]
    generalize (if status = 1 ∧ notes ≠ 0 then 2 else status) = st
    split
    · exact .inl rfl
    · exact .inr ⟨d, List.mem_of_find?_eq_some hfind, hid, _, hid, rfl, rfl, rfl⟩

/-- Settles O55: an outcome takes its place among the recorded ones (`pairwise_insertCompl`) or joins none. -/
theorem completionOrder : Obligations.CompletionOrder := by
  intro s id st notes res ind before hsorted
  refine ⟨?_, ?_, s.complete_hif_desc id st notes res ind, ?_⟩
  all_goals obtain h | ⟨d, hd, hid, c, hcid, hring, htime, h⟩ := s.complete_hif_compl id st notes res ind
  · rwa [h]
  · rw [h]
    exact pairwise_insertCompl hsorted
  · exact fun c hc => h ▸ hc
  · exact fun e he => h ▸ mem_insertCompl.2 (.inr he)
  · exact .inl (by rw [h])
  · refine .inr ⟨by rw [h, length_insertCompl], d, hd, hid, c, ?_, hcid, hring, htime⟩
    exact h ▸ mem_insertCompl_self c _

/-! ## Event staging -/

/-- What tells the records of event staging apart (R76). -/
abbrev EventRec.key (e : EventRec) : Nat × Nat × Nat := (e.src, e.code, e.inst)

/-- A record that an occurrence merges into counts it (R76). -/
def EventRec.merged (src code inst : Nat) (e : EventRec) : EventRec :=
  if e.src == src && e.code == code && e.inst == inst then { e with count := e.count + 1 } else e

theorem EventRec.key_merged (src code inst : Nat) (e : EventRec) : (e.merged src code inst).key = e.key := by
  unfold merged
  split <;> rfl

theorem EventRec.key_eq_iff {src code inst : Nat} {e : EventRec} :
    (e.src == src && e.code == code && e.inst == inst) = true ↔ e.key = (src, code, inst) := by
  simp [key, and_assoc]

namespace State
variable {s : State} {src code inst : Nat} {d : DWord}

theorem hasEvent_iff : s.hasEvent src code inst ↔ (src, code, inst) ∈ s.hif.events.map EventRec.key := by
  simp [hasEvent, EventRec.key]

theorem stageEvent_disabled (h : s.rd F.HIF_EVT_MAP_enable src = 0) : s.stageEvent src code inst d = s := by
  rw [stageEvent, if_pos h]

theorem any_of_hasEvent (h : s.hasEvent src code inst) :
    (s.hif.events.any fun e => e.src == src && e.code == code && e.inst == inst) = true := by
  obtain ⟨e, he, hsrc, hcode, hinst⟩ := h
  exact List.any_eq_true.2 ⟨e, he, by simp [hsrc, hcode, hinst]⟩

theorem any_of_not_hasEvent (h : ¬ s.hasEvent src code inst) :
    ¬(s.hif.events.any fun e => e.src == src && e.code == code && e.inst == inst) = true := by
  intro hany
  obtain ⟨e, he, hkey⟩ := List.any_eq_true.1 hany
  obtain ⟨hsrc, hcode, hinst⟩ : e.src = src ∧ e.code = code ∧ e.inst = inst := by simpa [and_assoc] using hkey
  exact h ⟨e, he, hsrc, hcode, hinst⟩

section Enabled
variable (hen : s.rd F.HIF_EVT_MAP_enable src ≠ 0)
include hen

theorem stageEvent_merge (h : s.hasEvent src code inst) :
    s.stageEvent src code inst d = { s with hif := { s.hif with events := s.hif.events.map (EventRec.merged src code inst) } } := by
  rw [stageEvent, if_neg hen, if_pos (any_of_hasEvent h)]
  rfl

theorem stageEvent_record (h : ¬ s.hasEvent src code inst) (hroom : s.hif.events.length < 768) :
    ∃ e : EventRec, e.key = (src, code, inst) ∧ e.count = 1
      ∧ s.stageEvent src code inst d = { s with hif := { s.hif with events := s.hif.events ++ [e] } } := by
  rw [stageEvent, if_neg hen, if_neg (any_of_not_hasEvent h), if_pos hroom]
  exact ⟨_, rfl, rfl, rfl⟩

theorem stageEvent_lost (h : ¬ s.hasEvent src code inst) (hfull : 768 ≤ s.hif.events.length) :
    s.stageEvent src code inst d =
      let t := (s.wrBit F.HIF_EVT_LOST_lost (src % 32) true (src / 32)).bump F.HIF_EVT_LOST_CNT_count
      { t with hif := { t.hif with lostOwed := true } } := by
  rw [stageEvent, if_neg hen, if_neg (any_of_not_hasEvent h), if_neg (by omega)]

end Enabled

theorem map_merged_of_notMem {l : List EventRec} (h : (src, code, inst) ∉ l.map EventRec.key) :
    l.map (EventRec.merged src code inst) = l := by
  refine (List.map_congr_left fun e he => ?_).trans (List.map_id l)
  exact if_neg fun hkey => h (EventRec.key_eq_iff.1 hkey ▸ List.mem_map_of_mem he)

/-- Of records with different keys, one and only one counts the occurrence. -/
theorem sum_count_merged {l : List EventRec} (hnodup : (l.map EventRec.key).Nodup) (h : (src, code, inst) ∈ l.map EventRec.key) :
    ((l.map (EventRec.merged src code inst)).map (·.count)).sum = (l.map (·.count)).sum + 1 := by
  induction l with
  | nil => simp at h
  | cons e l ih =>
    rw [List.map_cons, List.nodup_cons] at hnodup
    obtain ⟨hnot, hnodup⟩ := hnodup
    simp only [List.map_cons, List.sum_cons]
    by_cases hkey : e.key = (src, code, inst)
    · have hcount : (e.merged src code inst).count = e.count + 1 := by rw [EventRec.merged, if_pos (EventRec.key_eq_iff.2 hkey)]
      rw [map_merged_of_notMem (hkey ▸ hnot), hcount]
      omega
    · have hsame : e.merged src code inst = e := if_neg (mt EventRec.key_eq_iff.1 hkey)
      rw [hsame, ih hnodup ((List.mem_cons.1 h).resolve_left (Ne.symm hkey))]
      omega

theorem map_key_merged (l : List EventRec) : (l.map (EventRec.merged src code inst)).map EventRec.key = l.map EventRec.key := by
  rw [List.map_map]
  exact List.map_congr_left fun e _ => EventRec.key_merged src code inst e

/-- The count of lost occurrences of a loss that still fits. -/
theorem lost_count (hsrc : src < 128) (hlt : s.rd F.HIF_EVT_LOST_CNT_count + 1 < 2 ^ F.HIF_EVT_LOST_CNT_count.width) :
    ((s.wrBit F.HIF_EVT_LOST_lost (src % 32) true (src / 32)).bump F.HIF_EVT_LOST_CNT_count).rd F.HIF_EVT_LOST_CNT_count
      = s.rd F.HIF_EVT_LOST_CNT_count + 1 := by
  have hne : F.HIF_EVT_LOST_CNT_count.addr 0 0 ≠ F.HIF_EVT_LOST_lost.addr (src / 32) 0 := by
    simp only [Fld.addr, F.HIF_EVT_LOST_CNT_count, F.HIF_EVT_LOST_lost]
    omega
  rw [rd_bump_same _ (by decide), wrBit_eq, rd_wr_ne _ hne]
  omega

/-- The mark of the source that lost an occurrence. -/
theorem lost_mark (hsrc : src < 128) :
    bitAt (((s.wrBit F.HIF_EVT_LOST_lost (src % 32) true (src / 32)).bump F.HIF_EVT_LOST_CNT_count).rd F.HIF_EVT_LOST_lost (src / 32))
      (src % 32) = true := by
  have hne : F.HIF_EVT_LOST_lost.addr (src / 32) 0 ≠ F.HIF_EVT_LOST_CNT_count.addr 0 0 := by
    simp only [Fld.addr, F.HIF_EVT_LOST_CNT_count, F.HIF_EVT_LOST_lost]
    omega
  have hbit : src % 32 < F.HIF_EVT_LOST_lost.width := Nat.mod_lt _ (by decide)
  rw [bump_eq, rd_wr_ne _ hne, bitAt_rd_wrBit _ hbit (by decide), if_pos rfl]

end State

/-- Settles O56: the occurrence of an enabled source merges into its record (`State.stageEvent_merge`), gets one
(`State.stageEvent_record`) or is lost (`State.stageEvent_lost`). -/
theorem eventStaging : Obligations.EventStaging := by
  intro s src code inst d key counted
  refine ⟨State.stageEvent_disabled, ?_, ?_, ?_⟩
  · intro hnodup
    by_cases hen : s.rd F.HIF_EVT_MAP_enable src = 0
    · rwa [State.stageEvent_disabled hen]
    by_cases hhas : s.hasEvent src code inst
    · rw [State.stageEvent_merge hen hhas]
      exact (State.map_key_merged s.hif.events).symm ▸ hnodup
    obtain hroom | hfull := Nat.lt_or_ge s.hif.events.length 768
    · obtain ⟨e, hkey, -, h⟩ := State.stageEvent_record (d := d) hen hhas hroom
      have hnot : e.key ∉ s.hif.events.map EventRec.key := hkey ▸ mt State.hasEvent_iff.2 hhas
      rw [h]
      exact (List.map_append (f := EventRec.key)).symm ▸ hnodup.append (List.nodup_singleton _) (List.disjoint_singleton.2 hnot)
    · rw [State.stageEvent_lost hen hhas hfull]
      exact hnodup
  · intro hle
    by_cases hen : s.rd F.HIF_EVT_MAP_enable src = 0
    · rwa [State.stageEvent_disabled hen]
    by_cases hhas : s.hasEvent src code inst
    · simpa [State.stageEvent_merge hen hhas] using hle
    obtain hroom | hfull := Nat.lt_or_ge s.hif.events.length 768
    · obtain ⟨e, -, -, h⟩ := State.stageEvent_record (d := d) hen hhas hroom
      simpa [h] using hroom
    · rw [State.stageEvent_lost hen hhas hfull]
      exact hle
  · intro hen hnodup hsrc hlt
    by_cases hhas : s.hasEvent src code inst
    · have h := State.stageEvent_merge (d := d) hen hhas
      refine ⟨?_, fun _ => ⟨?_, by rw [h]⟩, fun hnot => absurd hhas hnot⟩
      · have hsum := State.sum_count_merged hnodup (State.hasEvent_iff.1 hhas)
        simp only [counted, h]
        change _ + s.rd F.HIF_EVT_LOST_CNT_count = _
        omega
      · rw [State.hasEvent_iff, h]
        exact (State.map_key_merged s.hif.events).symm ▸ State.hasEvent_iff.1 hhas
    obtain hroom | hfull := Nat.lt_or_ge s.hif.events.length 768
    · obtain ⟨e, hkey, hcount, h⟩ := State.stageEvent_record (d := d) hen hhas hroom
      refine ⟨?_, fun _ => ⟨?_, by rw [h]⟩, fun _ hge => absurd hroom (by omega)⟩
      · simp only [counted, h, List.map_append, List.sum_append, List.map_cons, List.map_nil, List.sum_cons, List.sum_nil, hcount]
        change _ + s.rd F.HIF_EVT_LOST_CNT_count = _
        omega
      · rw [State.hasEvent_iff, h]
        simp [hkey]
    · have h := State.stageEvent_lost (d := d) hen hhas hfull
      refine ⟨?_, fun hor => absurd hor (by rw [not_or]; exact ⟨hhas, by omega⟩), fun _ _ => ?_⟩
      · simp only [counted, h]
        exact congrArg ((s.hif.events.map (·.count)).sum + ·) (State.lost_count hsrc hlt)
      · rw [h]
        exact ⟨rfl, rfl, State.lost_mark hsrc⟩

end Sys2Proof.Machine

/-! What later proofs need of repeated writes and of the passing of time. -/

namespace Sys2Proof.Machine

/-- What no step of a repetition changes is as before. -/
theorem foldl_keeps {σ α β : Type} {f : σ → α → σ} (P : σ → β) {l : List α} (h : ∀ t, ∀ a ∈ l, P (f t a) = P t) (s : σ) :
    P (l.foldl f s) = P s := by
  induction l generalizing s with
  | nil => rfl
  | cons a l ih =>
    rw [List.foldl_cons, ih fun t b hb => h t b (List.mem_cons_of_mem a hb)]
    exact h s a List.mem_cons_self

/-- A property that every step of a repetition keeps. -/
theorem foldl_holds {σ α : Type} {f : σ → α → σ} {P : σ → Prop} {l : List α} (h : ∀ t, ∀ a ∈ l, P t → P (f t a)) {s : σ} (hs : P s) :
    P (l.foldl f s) := by
  induction l generalizing s with
  | nil => exact hs
  | cons a l ih =>
    exact ih (fun t b hb => h t b (List.mem_cons_of_mem a hb)) (h s a List.mem_cons_self hs)

/-- What one step of a repetition over the numbers below `n` sets and no later one changes. -/
theorem foldl_range_sets {σ β : Type} {f : σ → Nat → σ} (P : σ → β) {n k : Nat} {v : β} (hk : k < n) (hset : ∀ t, P (f t k) = v)
    (hkeep : ∀ t i, i < n → i ≠ k → P (f t i) = P t) (s : σ) : P ((List.range n).foldl f s) = v := by
  obtain ⟨d, rfl⟩ : ∃ d, n = k + 1 + d := ⟨n - (k + 1), by omega⟩
  rw [List.range_add, List.range_succ, List.foldl_append, List.foldl_append,
    foldl_keeps P fun t a ha => ?_]
  · exact hset _
  · obtain ⟨i, hi, rfl⟩ := List.mem_map.1 ha
    have hlt := List.mem_range.1 hi
    exact hkeep t _ (by omega) (by omega)

namespace State

variable (s : State)

/-! ## One field written at every index -/

theorem rd_foldl_wr {f : Fld} (v : Nat → Nat) {n k : Nat} (hk : k < n) (hb : f.Beside f)
    (hf : f.lo + f.width ≤ 32) : ((List.range n).foldl (fun s k => s.wr f (v k) k) s).rd f k = v k % 2 ^ f.width :=
  foldl_range_sets (fun t : State => t.rd f k) hk (fun t => t.rd_wr_same hf) (fun t _ _ hi => t.rd_wr_beside hi.symm hb) s

theorem word_foldl_wr {f : Fld} (v : Nat → Nat) {n off : Nat} (h : ∀ k, k < n → off ≠ f.addr k 0) :
    ((List.range n).foldl (fun s k => s.wr f (v k) k) s).word off = s.word off :=
  foldl_keeps (fun t : State => t.word off) (fun t k hk => t.word_wr_ne f (h k (List.mem_range.1 hk))) s

/-! ## Whole words -/

/-- A field read through the write of one that lies in another register or in other bits. -/
theorem rd_wr_disjoint {f g : Fld} {v i j i' j' : Nat}
    (h : g.addr i' j' ≠ f.addr i j ∨ f.lo + f.width ≤ g.lo ∨ g.lo + g.width ≤ f.lo) : (s.wr f v i j).rd g i' j' = s.rd g i' j' :=
  s.rd_wr h

theorem rd_setWord_ne {f : Fld} {off i j : Nat} (w : Word) (h : f.addr i j ≠ off) : (s.setWord off w).rd f i j = s.rd f i j := by
  rw [rd, rd, s.word_setWord_ne w h]

theorem rd_setWord_same (f : Fld) (w : Word) (i j : Nat) : (s.setWord (f.addr i j) w).rd f i j = getBits w f.lo f.width := by
  rw [rd, s.word_setWord_same]

/-! ## Only registers change -/

/-- Two states differ in their registers alone. -/
def OnlyRegs (s t : State) : Prop := t = { s with regs := t.regs, glb := { s.glb with t3copies := t.glb.t3copies } }

variable {s} {t u : State}

theorem OnlyRegs.refl (s : State) : s.OnlyRegs s := rfl

theorem OnlyRegs.trans (h : s.OnlyRegs t) (h' : t.OnlyRegs u) : s.OnlyRegs u := by
  unfold OnlyRegs at *
  rw [h', h]

theorem OnlyRegs.wr (h : s.OnlyRegs t) (f : Fld) (v i j : Nat) : s.OnlyRegs (t.wr f v i j) := h.trans rfl

theorem OnlyRegs.foldl {α : Type} {l : List α} {f : State → α → State} (h : ∀ (t : State) a, t.OnlyRegs (f t a)) : s.OnlyRegs (l.foldl f s) :=
  foldl_holds (P := s.OnlyRegs) (fun t a _ ht => ht.trans (h t a)) (OnlyRegs.refl s)

/-! ## Events that staging takes -/

theorem takesEvent_of_word {src : Nat} (h : s.takesEvent src) (hword : t.word (F.HIF_EVT_MAP_enable.addr src 0) =
    s.word (F.HIF_EVT_MAP_enable.addr src 0)) (hev : t.hif.events = s.hif.events) : t.takesEvent src := by
  obtain ⟨hon, hroom⟩ := h
  refine ⟨?_, hev ▸ hroom⟩
  rw [State.rd, hword]
  exact hon

theorem takesEvent_wr {src : Nat} (h : s.takesEvent src) {f : Fld} {v i j : Nat} (hf : F.HIF_EVT_MAP_enable.addr src 0 ≠ f.addr i j) :
    (s.wr f v i j).takesEvent src :=
  takesEvent_of_word h (s.word_wr_ne f hf) rfl

/-! ## Completions -/

/-- A completion that waits goes on waiting, whatever outcome joins it. -/
theorem mem_compl_complete {c : Compl} (hc : c ∈ s.hif.compl) (id status notes : Nat) (res : List Byte) (ind : Bool) :
    c ∈ (s.complete id status notes res ind).hif.compl := by
  simp only [complete]
  generalize (if status = 1 ∧ notes ≠ 0 then 2 else status) = st
  split
  · exact hc
  · split
    · exact hc
    · exact mem_insertCompl.2 (.inr hc)

/-! ## Time -/

variable (s)

theorem le_advanceTo_tick (n : Nat) : n ≤ (s.advanceTo n).tick := by
  change n ≤ s.tick + (n - s.tick)
  omega

theorem tick_le_advanceTo (n : Nat) : s.tick ≤ (s.advanceTo n).tick := Nat.le_add_right _ _

end State

end Sys2Proof.Machine

/-! Proofs about register accesses and mailboxes (O6). -/

namespace Sys2Proof.Machine

/-! ## The scratch register and an RC register -/

/-- The row of GLB_SCRATCH. -/
def scratchRow : RegRow := ⟨0x100, 0x0, 1, 0x0, 1, .plain, [⟨F.GLB_SCRATCH_value, [.rw], .any, .k 0⟩]⟩

theorem regRow_scratch : regRow 0x100 = some (scratchRow, 0, 0) := by rfl

/-- The row of HIF_EVT_LOST_CNT. -/
def lostCountRow : RegRow := ⟨0x13210, 0x0, 1, 0x0, 1, .plain, [⟨F.HIF_EVT_LOST_CNT_count, [.rc], .any, .k 0⟩]⟩

theorem regRow_lostCount : regRow 0x13210 = some (lostCountRow, 0, 0) := by rfl

/-- A field of all 32 bits replaces its word. -/
theorem setBits_word (w v : Word) : setBits w 0 32 (getBits v 0 32) = v := by
  have hmask : ~~~(BitVec.ofNat 32 (2 ^ 32 - 1)) = (0 : Word) := by decide
  have hv : v.toNat % 2 ^ 32 = v.toNat := Nat.mod_eq_of_lt v.isLt
  simp only [setBits, getBits, Nat.shiftLeft_zero, Nat.shiftRight_zero, hv, hmask, BitVec.ofNat_toNat, BitVec.setWidth_eq]
  simp

theorem getBits_word (v : Word) : getBits v 0 32 = v.toNat := Nat.mod_eq_of_lt v.isLt

theorem clearBits_zero (w : Word) : clearBits w 0 = w := by
  have hall : ~~~(BitVec.ofNat 32 0) = BitVec.allOnes 32 := by decide
  rw [clearBits, hall, BitVec.and_allOnes]

theorem clearBits_all (w : Word) : clearBits w (2 ^ 32 - 1) = 0 := by
  have hnone : ~~~(BitVec.ofNat 32 (2 ^ 32 - 1)) = 0#32 := by decide
  rw [clearBits, hnone, BitVec.and_zero]
  rfl

namespace State

variable (s : State)

theorem fieldTake_scratch (m : Master) (v : Word) :
    s.fieldTake m scratchRow 0 0 0x100 v ⟨F.GLB_SCRATCH_value, [.rw], .any, .k 0⟩ = .take := by rfl

/-- A write of the scratch register by any master passes every check. -/
theorem writeReg_scratch (m : Master) (v : Word) : s.writeReg m 0x100 v = s.setWord 0x100 v := by
  have hrow : (scratchRow.fields.map fun f => (f, s.fieldTake m scratchRow 0 0 0x100 v f))
    = [(⟨F.GLB_SCRATCH_value, [.rw], .any, .k 0⟩, .take)] := by rfl
  have hmerge : mergeFields (s.word 0x100) v [⟨F.GLB_SCRATCH_value, [.rw], .any, .k 0⟩] = v := setBits_word _ v
  simp only [writeReg, regRow_scratch, hrow]
  change (s.setWord 0x100 (mergeFields (s.word 0x100) v [⟨F.GLB_SCRATCH_value, [.rw], .any, .k 0⟩])) = _
  rw [hmerge]

theorem noteT3_of_none {off : Nat} (h : s.copies off = none) : s.noteT3 off = s := by simp only [noteT3, h]

theorem copies_setWord_same (off : Nat) (w : Word) : (s.setWord off w).copies off = none := lookup_store_same _ _ _

theorem readReg_scratch {m : Master} (hc : s.copies 0x100 = none) (hb : s.busy 0x100 = false) :
    s.readReg m 0x100 = { s with rdata := s.word 0x100 } := by
  have hsp : s.readSpecial m 0x100 = none := by rfl
  have hpv : s.pvMask m scratchRow 0 = 0 := by unfold pvMask; split <;> rfl
  have hview : s.view 0x100 = s.word 0x100 := by simp [view, hb, Fld.addr, F.GLB_UNLOCK_STAT_wait]
  have hrc : scratchRow.maskOf .rc = 0 := by rfl
  simp [readReg, regRow_scratch, s.noteT3_of_none hc, hsp, hpv, hview, hrc, clearBits_zero]

theorem readReg_lostCount {m : Master} (hm : m ≠ .engine) (hc : s.copies 0x13210 = none) (hb : s.busy 0x13210 = false) :
    s.readReg m 0x13210 = { s.setWord 0x13210 0 with rdata := s.word 0x13210 } := by
  have hsp : s.readSpecial m 0x13210 = none := by rfl
  have hpv : s.pvMask m lostCountRow 0 = 0 := by unfold pvMask; split <;> rfl
  have hview : s.view 0x13210 = s.word 0x13210 := by simp [view, hb, Fld.addr, F.GLB_UNLOCK_STAT_wait]
  have hrc : lostCountRow.maskOf .rc = 2 ^ 32 - 1 := by rfl
  have hid : masterId m ≠ 5 := by cases m <;> simp_all [masterId]
  have hall : (BitVec.ofNat 32 (2 ^ 32 - 1) &&& ~~~(BitVec.ofNat 32 0)).toNat = 2 ^ 32 - 1 := by decide
  simp only [readReg, regRow_lostCount, s.noteT3_of_none hc, hsp, hpv, hview, hrc, if_neg hid, hall, clearBits_zero, clearBits_all]
  simp [F.CLK_TEMP_peak]

/-- A posted write that lands in a register without the ADC's `enable`. -/
theorem land_eq {off i j : Nat} {r : RegRow} (hrow : regRow off = some (r, i, j))
    (hadc : (r.fields.any fun f => f.fld == F.ADC_SEQ_CTL_enable) = false) (v : Word) :
    s.land off v = s.setWord off (mergeFields (s.word off) v
      (r.fields.filter fun f => f.acc.contains .wp && !f.fixed r.unit i (getBits v f.fld.lo f.fld.width))) := by
  simp only [land, hrow, hadc, Bool.false_and, Bool.false_eq_true, if_false]

theorem setWord_onlyWords (off : Nat) (w : Word) : s.OnlyWords (s.setWord off w) [off] := fun x hx =>
  s.word_setWord_ne w (by simpa using hx)

theorem mailbox_setMailbox_same (m : Nat) (b : Mailbox) : (s.setMailbox m b).mailbox m = b := lookup_store_same _ _ _

theorem mailbox_setMailbox_ne {m k : Nat} (b : Mailbox) (h : k ≠ m) : (s.setMailbox m b).mailbox k = s.mailbox k :=
  lookup_store_ne _ _ h

end State

/-! ## Mailboxes -/

theorem Mailbox.open_fresh {b : Mailbox} (h : b.st = .fresh) (now : Nat) :
    b.open_ now = { b with st := .held, snapSeq := b.seq, snap := b.data, snapOverrun := b.overrun, heldAt := now } := if_pos h

theorem Mailbox.open_of_ne {b : Mailbox} (h : b.st ≠ .fresh) (now : Nat) : b.open_ now = b := if_neg h

theorem State.readHeader_fresh {s : State} {m : Nat} (hlen : mailboxLen m ≠ none) (hst : (s.mailbox m).st = .fresh)
    (hdata : (s.mailbox m).data ≠ []) : s.readHeader m = { s.setMailbox m ((s.mailbox m).open_ s.tick) with
      rdata := headerWord true (s.mailbox m).overrun true (s.mailbox m).data.length (s.mailbox m).seq } := by
  obtain ⟨len, hlen⟩ := Option.ne_none_iff_exists'.1 hlen
  have hopen := Mailbox.open_fresh hst s.tick
  have hne : (s.mailbox m).open_ s.tick ≠ s.mailbox m := fun h => by
    have hst' := congrArg Mailbox.st h
    rw [hopen, hst] at hst'
    cases hst'
  have hdata' : (s.mailbox m).data.isEmpty = false := by simpa using hdata
  rw [hopen] at hne
  simp only [readHeader, hlen, hopen, Mailbox.shown, if_true, hdata', Bool.false_and, Bool.false_eq_true, if_false, if_neg hne]
  rfl

theorem State.readHeader_of_ne {s : State} {m : Nat} (hst : (s.mailbox m).st ≠ .fresh) :
    s.readHeader m = { s with rdata := (s.readHeader m).rdata, free := (s.readHeader m).free } := by
  cases hlen : mailboxLen m with
  | none => simp only [readHeader, hlen]
  | some len =>
    have hdrawn : s.drawn.mailbox m = s.mailbox m := rfl
    simp only [readHeader, hlen, Mailbox.open_of_ne hst]
    split
    · simp only [hdrawn, if_true]
      rfl
    · simp only [if_true]

theorem State.readTrailer_held {s : State} {m : Nat} (hst : (s.mailbox m).st = .held) (hm : ¬ (128 ≤ m ∧ m < 144)) :
    s.readTrailer m = { s.setMailbox m (s.mailbox m).consume with rdata := (s.readTrailer m).rdata } := by
  simp only [readTrailer, hst, if_true, nextCapture, hm, if_false]

theorem execMailboxHoldExpiry_eq {s : State} {m : Fin 16384} {q : Nat} {d : List Word} (hst : (s.mailbox m).st = .held)
    (hw : (s.mailbox m).waiting = some (q, d)) : ∃ (at_ : Nat) (b : Mailbox), b.st = .fresh ∧ b.overrun = true ∧ b.seq = q ∧ b.data = d
      ∧ execMailboxHoldExpiry m s = .next (((s.advanceTo at_).setMailbox m b).raise 11 1 m (detail [(4, q)])) := by
  simp only [execMailboxHoldExpiry, hst, hw]
  exact ⟨_, _, rfl, rfl, rfl, rfl, rfl⟩

theorem execMailboxHoldExpiry_expires {s : State} {m : Fin 16384} {q : Nat} {d : List Word} (hst : (s.mailbox m).st = .held)
    (hw : (s.mailbox m).waiting = some (q, d)) (hev : s.takesEvent 11) :
    ∃ t, execMailboxHoldExpiry m s = .next t
      ∧ (t.mailbox m).st = .fresh ∧ (t.mailbox m).overrun = true ∧ (t.mailbox m).seq = q ∧ (t.mailbox m).data = d
      ∧ t.hasEvent 11 1 m ∧ s.OnlyWords t eventWords ∧ t.hostMem = s.hostMem ∧ t.ddr = s.ddr := by
  obtain ⟨at_, b, hst', hover, hseq, hdata, heq⟩ := execMailboxHoldExpiry_eq hst hw
  have hbox : (((s.advanceTo at_).setMailbox m b).raise 11 1 m (detail [(4, q)])).mailbox m = b := by
    rw [State.mailbox, State.raise_glb_mailbox]
    exact State.mailbox_setMailbox_same _ m b
  have hev' : ((s.advanceTo at_).setMailbox m b).takesEvent 11 := State.takesEvent_of_word hev rfl rfl
  have hwords : s.OnlyWords ((s.advanceTo at_).setMailbox m b) eventWords := State.OnlyWords.refl s _
  exact ⟨_, heq, (congrArg Mailbox.st hbox).trans hst', (congrArg Mailbox.overrun hbox).trans hover,
    (congrArg Mailbox.seq hbox).trans hseq, (congrArg Mailbox.data hbox).trans hdata, State.raise_hasEvent _ _ _ hev',
    hwords.raise (by decide) (List.Subset.refl _), State.raise_hostMem _ _ _ _ _, State.raise_ddr _ _ _ _ _⟩

/-! ## Accesses of BAR0 -/

theorem execRegisterWrite_bar0 (s : State) (m : Master) {off : BitVec 24} (v : Word) (h : off.toNat % 4 = 0) :
    execRegisterWrite m .bar0 off 4 v s = .next (s.writeReg m off.toNat v) := by
  simp [execRegisterWrite, h]

theorem execRcRead_bar0 (s : State) (m : Master) {off : BitVec 24} (h : off.toNat % 4 = 0) :
    execRcRead m .bar0 off 4 s = .next (s.readReg m off.toNat) := by
  simp [execRcRead, h]

theorem execRegisterWrite_scratch (s : State) (m : Master) (v : Word) :
    execRegisterWrite m .bar0 0x100 4 v s = .next (s.setWord 0x100 v) := by
  rw [execRegisterWrite_bar0 s m v (by decide), ← s.writeReg_scratch m v]
  rfl

theorem execRcRead_scratch {s : State} (m : Master) (hc : s.copies 0x100 = none) (hb : s.busy 0x100 = false) :
    execRcRead m .bar0 0x100 4 s = .next { s with rdata := s.word 0x100 } := by
  rw [execRcRead_bar0 s m (by decide), ← s.readReg_scratch hc hb]
  rfl

theorem execRcRead_lostCount {s : State} {m : Master} (hm : m ≠ .engine) (hc : s.copies 0x13210 = none) (hb : s.busy 0x13210 = false) :
    execRcRead m .bar0 0x13210 4 s = .next { s.setWord 0x13210 0 with rdata := s.word 0x13210 } := by
  rw [execRcRead_bar0 s m (by decide), ← s.readReg_lostCount hm hc hb]
  rfl

theorem execWpWriteLand_lands {s : State} {off : BitVec 24} {p : Posted} {r : RegRow} {i j : Nat}
    (hp : s.glb.posted.find? (·.off == off.toNat) = some p) (hrow : regRow off.toNat = some (r, i, j))
    (hadc : (r.fields.any fun f => f.fld == F.ADC_SEQ_CTL_enable) = false) :
    ∃ t, execWpWriteLand off s = .next t ∧ t.busy off.toNat = false
      ∧ t.word off.toNat = mergeFields (s.word off.toNat) p.value
          (r.fields.filter fun f => f.acc.contains .wp && !f.fixed r.unit i (getBits p.value f.fld.lo f.fld.width))
      ∧ s.OnlyWords t [off.toNat] := by
  simp only [execWpWriteLand, hp, State.land_eq _ hrow hadc]
  refine ⟨_, rfl, ?_, State.word_setWord_same _ _ _, State.setWord_onlyWords s _ _⟩
  change (s.glb.posted.filter (·.off != off.toNat)).any (·.off == off.toNat) = false
  simp

/-! ## The obligation -/

theorem execMailboxHeaderRead_fresh {s : State} {m : Fin 16384} (hlen : mailboxLen m ≠ none) (hst : (s.mailbox m).st = .fresh)
    (hdata : (s.mailbox m).data ≠ []) : ∃ t, execMailboxHeaderRead m s = .next t
      ∧ t.mailbox m = { s.mailbox m with st := .held, snapSeq := (s.mailbox m).seq, snap := (s.mailbox m).data,
                                         snapOverrun := (s.mailbox m).overrun, heldAt := s.tick }
      ∧ t.rdata = headerWord true (s.mailbox m).overrun true (s.mailbox m).data.length (s.mailbox m).seq
      ∧ (∀ k, k ≠ m.val → t.mailbox k = s.mailbox k) ∧ t = { s with glb := t.glb, rdata := t.rdata } := by
  rw [execMailboxHeaderRead, State.readHeader_fresh hlen hst hdata]
  exact ⟨_, rfl, (s.mailbox_setMailbox_same _ _).trans (Mailbox.open_fresh hst _), rfl, fun k hk => s.mailbox_setMailbox_ne _ hk, rfl⟩

theorem execMailboxTrailerRead_held {s : State} {m : Fin 16384} (hst : (s.mailbox m).st = .held) (hm : ¬ (128 ≤ m.val ∧ m.val < 144)) :
    ∃ t, execMailboxTrailerRead m s = .next t
      ∧ ((s.mailbox m).waiting = none → (t.mailbox m).st = .empty)
      ∧ (∀ q d, (s.mailbox m).waiting = some (q, d) →
          (t.mailbox m).st = .fresh ∧ (t.mailbox m).seq = q ∧ (t.mailbox m).data = d ∧ (t.mailbox m).waiting = none)
      ∧ (∀ k, k ≠ m.val → t.mailbox k = s.mailbox k) ∧ t = { s with glb := t.glb, rdata := t.rdata } := by
  have hbox {w : Word} : State.mailbox { s.setMailbox m (s.mailbox m).consume with rdata := w } m = (s.mailbox m).consume :=
    s.mailbox_setMailbox_same m _
  rw [execMailboxTrailerRead, State.readTrailer_held hst hm]
  refine ⟨_, rfl, fun hw => ?_, fun q d hw => ?_, fun k hk => s.mailbox_setMailbox_ne _ hk, rfl⟩
  · rw [hbox]
    simp only [Mailbox.consume, hst, hw]
  · rw [hbox]
    simp only [Mailbox.consume, hst, hw, and_self]

/-- Settles O6: the scratch register, RC and posted accesses, and each read of a mailbox by its state. -/
theorem accessesAndMailboxes : Obligations.AccessesAndMailboxes := by
  unfold Obligations.AccessesAndMailboxes
  refine ⟨⟨fun s m m' v hb => ?_, fun s m hm hc hb => ?_, fun s off p r i j => execWpWriteLand_lands⟩,
    fun s m => execMailboxHeaderRead_fresh, fun s m hlen hst => ⟨_, rfl, State.readHeader_of_ne hst⟩, fun s m i => rfl,
    fun s m => execMailboxTrailerRead_held, fun s m q d => execMailboxHoldExpiry_expires⟩
  · refine ⟨s.setWord 0x100 v, { s.setWord 0x100 v with rdata := v }, execRegisterWrite_scratch s m v, ?_,
      s.setWord_onlyWords _ _, rfl, ?_, rfl⟩
    · exact (congrArg (getBits · 0 32) (s.word_setWord_same 0x100 v)).trans (getBits_word v)
    · refine (execRcRead_scratch m' (s.copies_setWord_same _ _) hb).trans ?_
      rw [s.word_setWord_same]
  · exact ⟨_, execRcRead_lostCount hm hc hb, rfl, s.word_setWord_same _ _, s.setWord_onlyWords _ _⟩

end Sys2Proof.Machine

/-! Proofs about the commissioning unlock (O8). -/

namespace Sys2Proof.Machine

namespace State

variable (s : State)

theorem clearNonce_nonce {k : Nat} (hk : k < 8) : s.clearNonce.rd F.GLB_NONCE_nonce k = 0 := s.rd_foldl_wr (fun _ => 0) hk (by decide) (by decide)

theorem clearNonce_word {off : Nat} (h : off < 0x90 ∨ 0xB0 ≤ off) : s.clearNonce.word off = s.word off :=
  s.word_foldl_wr (fun _ => 0) fun k hk => by simp only [Fld.addr, F.GLB_NONCE_nonce]; omega

theorem clearNonce_rd {f : Fld} {i j : Nat} (h : f.addr i j < 0x90 ∨ 0xB0 ≤ f.addr i j) : s.clearNonce.rd f i j = s.rd f i j := by
  rw [rd, rd, s.clearNonce_word h]

theorem clearNonce_onlyRegs : s.OnlyRegs s.clearNonce := OnlyRegs.foldl fun _ _ => rfl

theorem clearNonce_unlock : s.clearNonce.glb.unlock = s.glb.unlock := by rw [s.clearNonce_onlyRegs]

theorem clearNonce_tick : s.clearNonce.tick = s.tick := by rw [s.clearNonce_onlyRegs]

theorem clearNonce_wr_tick (f : Fld) (v : Nat) : (s.clearNonce.wr f v).tick = s.tick := s.clearNonce_tick

theorem nonceIssued_nonce (x : Nat) {k : Nat} (hk : k < 8) :
    ((List.range 8).foldl (fun s k => s.wr F.GLB_NONCE_nonce (bitsOf x (32 * k) 32) k) s).rd F.GLB_NONCE_nonce k = bitsOf x (32 * k) 32 :=
  (s.rd_foldl_wr (fun k => bitsOf x (32 * k) 32) hk (by decide) (by decide)).trans (Nat.mod_eq_of_lt (Nat.mod_lt _ (by decide)))

/-- The registers of a granted unlock. -/
theorem grantUnlock_registers (how : Nat) : (s.grantUnlock how).rd F.GLB_UNLOCK_STAT_state = 3
    ∧ (s.grantUnlock how).rd F.GLB_UNLOCK_STAT_fails = 0 ∧ (s.grantUnlock how).rd F.HIF_STAT_host_priv = 1 := by
  refine ⟨?_, ?_, ?_⟩ <;> refine (raise_rd _ _ _ _ (by decide) (by decide)).trans ?_
  · rw [rd_wr_ne _ (by decide), rd_wr_sep _ (by decide), rd_wr_same _ (by decide)]; rfl
  · rw [rd_wr_ne _ (by decide), rd_wr_same _ (by decide)]; rfl
  · rw [rd_wr_same _ (by decide)]; rfl

theorem grantUnlock_nonce (how : Nat) {k : Nat} (hk : k < 8) : (s.grantUnlock how).rd F.GLB_NONCE_nonce k = s.rd F.GLB_NONCE_nonce k := by
  have h {f : Fld} (hf : f.Off F.GLB_NONCE_nonce 1 8) : F.GLB_NONCE_nonce.addr k 0 ≠ f.addr 0 0 :=
    (Fld.addr_ne_of_off (by decide) hk hf).symm
  refine (raise_rd_below _ _ _ _ (by decide) hk (by decide)).trans ?_
  rw [rd_wr_ne _ (h (by decide)), rd_wr_ne _ (h (by decide)), rd_wr_ne _ (h (by decide))]

theorem grantUnlock_hasEvent {s : State} (how : Nat) (h : s.takesEvent 9) : (s.grantUnlock how).hasEvent 9 1 0xFFFF := by
  simp only [grantUnlock]
  exact raise_hasEvent _ _ _ (takesEvent_wr (takesEvent_wr (takesEvent_wr h (by decide)) (by decide)) (by decide))

theorem failUnlock_fails : (s.failUnlock).rd F.GLB_UNLOCK_STAT_fails = min 255 (s.rd F.GLB_UNLOCK_STAT_fails + 1) := by
  change ((s.wr F.GLB_UNLOCK_STAT_state 4).bump F.GLB_UNLOCK_STAT_fails).rd F.GLB_UNLOCK_STAT_fails = _
  rw [rd_bump_same _ (by decide), rd_wr_sep _ (by decide)]
  rfl

theorem failUnlock_state : (s.failUnlock).rd F.GLB_UNLOCK_STAT_state = 4 := by
  change ((s.wr F.GLB_UNLOCK_STAT_state 4).bump F.GLB_UNLOCK_STAT_fails).rd F.GLB_UNLOCK_STAT_state = _
  rw [bump_eq, rd_wr_sep _ (by decide), rd_wr_same _ (by decide)]; rfl

theorem failUnlock_nonce {k : Nat} (hk : k < 8) : (s.failUnlock).rd F.GLB_NONCE_nonce k = s.rd F.GLB_NONCE_nonce k := by
  have h {f : Fld} (hf : f.Off F.GLB_NONCE_nonce 1 8) : F.GLB_NONCE_nonce.addr k 0 ≠ f.addr 0 0 :=
    (Fld.addr_ne_of_off (by decide) hk hf).symm
  change ((s.wr F.GLB_UNLOCK_STAT_state 4).bump F.GLB_UNLOCK_STAT_fails).rd F.GLB_NONCE_nonce k = _
  rw [bump_eq, rd_wr_ne _ (h (by decide)), rd_wr_ne _ (h (by decide))]

theorem failUnlock_waitEnd : (s.failUnlock).glb.unlock.waitEnd
    = some (s.tick + if 8 ≤ min 255 (s.rd F.GLB_UNLOCK_STAT_fails + 1) then sec 60 else sec 1) := by
  rw [← failUnlock_fails]
  rfl

end State

theorem execUnlockRequest_waits {s : State} (hst : s.rd F.GLB_UNLOCK_STAT_state = 0 ∨ s.rd F.GLB_UNLOCK_STAT_state = 4)
    (hw : s.unlockWaits = false) : execUnlockRequest s = .next (s.setUnlock { s.glb.unlock with requested := true }) := by
  rcases hst with h | h <;> simp [execUnlockRequest, h, hw]

theorem execNonceIssued_owned {s : State} (nonce : BitVec 256) (hreq : s.glb.unlock.requested = true) (hown : s.otp.owner = true) :
    ∃ t, execNonceIssued nonce s = .next t ∧ t.rd F.GLB_UNLOCK_STAT_state = 1
      ∧ (∀ k, k < 8 → t.rd F.GLB_NONCE_nonce k = bitsOf nonce.toNat (32 * k) 32)
      ∧ t.glb.unlock = { s.glb.unlock with requested := false, nonceAt := s.tick } := by
  simp only [execNonceIssued, hreq, hown, Bool.not_true, Bool.or_self, Bool.false_eq_true, if_false]
  have hregs : s.OnlyRegs ((List.range 8).foldl (fun s k => s.wr F.GLB_NONCE_nonce (bitsOf nonce.toNat (32 * k) 32) k) s) :=
    State.OnlyRegs.foldl fun _ _ => rfl
  refine ⟨_, rfl, State.rd_wr_same _ (by decide), fun k hk => ?_, ?_⟩
  · exact (State.rd_wr_off _ hk (n := 1) (by decide) (by decide)).trans (s.nonceIssued_nonce _ hk)
  · rw [hregs]
    rfl

theorem execUnownedUnlockGrant_grants {s : State} (hreq : s.glb.unlock.requested = true) (hown : s.otp.owner = false)
    (hev : s.takesEvent 9) : ∃ t, execUnownedUnlockGrant s = .next t ∧ t.rd F.GLB_UNLOCK_STAT_state = 3
      ∧ t.rd F.GLB_UNLOCK_STAT_fails = 0 ∧ t.rd F.HIF_STAT_host_priv = 1 ∧ t.hasEvent 9 1 0xFFFF ∧ t.glb.unlock.requested = false := by
  simp only [execUnownedUnlockGrant, hreq, hown, Bool.not_true, Bool.or_self, Bool.false_eq_true, if_false]
  obtain ⟨hstate, hfails, hpriv⟩ := (s.setUnlock { s.glb.unlock with requested := false }).grantUnlock_registers 2
  refine ⟨_, rfl, hstate, hfails, hpriv, State.grantUnlock_hasEvent _ hev, ?_⟩
  simp only [State.grantUnlock, State.raise_glb_unlock]
  rfl

theorem execVerifyComplete_ends {s : State} (hst : s.rd F.GLB_UNLOCK_STAT_state = 2) :
    ∃ t, execVerifyComplete s = .next t ∧ (∀ k, k < 8 → t.rd F.GLB_NONCE_nonce k = 0)
      ∧ (if Config.ed25519Verify (BitVec.ofNat 256 (le s.otp.ownerKey)) s.unlockMessage (BitVec.ofNat 512 s.unlockSignature) then
          t.rd F.GLB_UNLOCK_STAT_state = 3 ∧ t.rd F.GLB_UNLOCK_STAT_fails = 0 ∧ t.rd F.HIF_STAT_host_priv = 1
        else t.rd F.GLB_UNLOCK_STAT_state = 4 ∧ t.rd F.GLB_UNLOCK_STAT_fails = min 255 (s.rd F.GLB_UNLOCK_STAT_fails + 1)
          ∧ t.glb.unlock.waitEnd = some (s.tick + if 8 ≤ min 255 (s.rd F.GLB_UNLOCK_STAT_fails + 1) then sec 60 else sec 1)) := by
  have hfails : s.clearNonce.rd F.GLB_UNLOCK_STAT_fails = s.rd F.GLB_UNLOCK_STAT_fails := s.clearNonce_rd (by decide)
  simp only [execVerifyComplete, hst, ne_eq, not_true_eq_false, if_false]
  split
  · exact ⟨_, rfl, fun k hk => (State.grantUnlock_nonce _ 1 hk).trans (s.clearNonce_nonce hk), State.grantUnlock_registers _ 1⟩
  · refine ⟨_, rfl, fun k hk => (State.failUnlock_nonce _ hk).trans (s.clearNonce_nonce hk), State.failUnlock_state _, ?_, ?_⟩
    · rw [State.failUnlock_fails, hfails]
    · rw [State.failUnlock_waitEnd, hfails, s.clearNonce_tick]

theorem execNonceExpiry_expires {s : State} (hst : s.rd F.GLB_UNLOCK_STAT_state = 1) :
    ∃ t, execNonceExpiry s = .next t ∧ t.rd F.GLB_UNLOCK_STAT_state = 0 ∧ (∀ k, k < 8 → t.rd F.GLB_NONCE_nonce k = 0)
      ∧ s.glb.unlock.nonceAt + sec 1 ≤ t.tick := by
  simp only [execNonceExpiry, hst, ne_eq, not_true_eq_false, if_false]
  generalize s.glb.unlock.nonceAt + sec 1 = w
  refine ⟨_, rfl, State.rd_wr_same _ (by decide), fun k hk => ?_, ?_⟩
  · exact (State.rd_wr_off _ hk (n := 1) (by decide) (by decide)).trans (State.clearNonce_nonce _ hk)
  · rw [State.clearNonce_wr_tick]
    exact s.le_advanceTo_tick w

theorem execUnlockWaitExpiry_ends {s : State} {w : Nat} (hw : s.glb.unlock.waitEnd = some w) :
    ∃ t, execUnlockWaitExpiry s = .next t ∧ t.glb.unlock.waitEnd = none ∧ w ≤ t.tick ∧ t.unlockWaits = false := by
  simp only [execUnlockWaitExpiry, hw]
  exact ⟨_, rfl, rfl, s.le_advanceTo_tick w, rfl⟩

theorem State.withdrawUnlock_withdraws {s : State} (hpriv : s.on F.HIF_STAT_host_priv = true) (cause : Nat) :
    (s.withdrawUnlock cause).rd F.HIF_STAT_host_priv = 0 ∧ (s.withdrawUnlock cause).rd F.GLB_UNLOCK_STAT_state = 0
      ∧ (s.takesEvent 9 → (s.withdrawUnlock cause).hasEvent 9 2 0xFFFF) := by
  simp only [State.withdrawUnlock, hpriv, Bool.not_true, Bool.false_eq_true, if_false]
  refine ⟨?_, ?_, fun h => State.raise_hasEvent _ _ _ (State.takesEvent_wr (State.takesEvent_wr h (by decide)) (by decide))⟩
  · rw [State.raise_rd _ _ _ _ (by decide) (by decide), State.rd_wr_ne _ (by decide), State.rd_wr_same _ (by decide)]; rfl
  · rw [State.raise_rd _ _ _ _ (by decide) (by decide), State.rd_wr_same _ (by decide)]; rfl

/-- Settles O8: each command by the state of the unlock in which it acts. -/
theorem unlockCommands : Obligations.UnlockCommands := by
  unfold Obligations.UnlockCommands
  refine ⟨fun s => execUnlockRequest_waits, fun s n => execNonceIssued_owned n, fun s => execUnownedUnlockGrant_grants, fun s h => ?_,
    fun s => execVerifyComplete_ends, fun s => execNonceExpiry_expires, fun s w => execUnlockWaitExpiry_ends, fun s h hev => ?_⟩
  · change execUnlockVerify s = _
    simp [execUnlockVerify, h]
  · obtain ⟨hpriv, hstate, hevent⟩ := State.withdrawUnlock_withdraws h 1
    exact ⟨_, rfl, hpriv, hstate, hevent hev⟩

end Sys2Proof.Machine

/-! Proofs about the control of rings, NOP and ABORT (O11). -/

namespace Sys2Proof.Machine

namespace State

variable {s : State}

theorem sq_setSq_same (s : State) (r : Nat) (v : Sq) : (s.setSq r v).sq r = v := lookup_store_same _ _ _

theorem sq_setSq_ne (s : State) {r k : Nat} (v : Sq) (h : k ≠ r) : (s.setSq r v).sq k = s.sq k := lookup_store_ne _ _ h

theorem cq_setCq_same (s : State) (q : Nat) (v : Cq) : (s.setCq q v).cq q = v := lookup_store_same _ _ _

theorem cq_setCq_ne (s : State) {q k : Nat} (v : Cq) (h : k ≠ q) : (s.setCq q v).cq k = s.cq k := lookup_store_ne _ _ h

/-- The reason of a refusal is one of six. -/
theorem refuseCode_lt {m : Master} {r c : Nat} (h : s.refuseCode m r = some c) : c < 16 := by
  simp only [refuseCode] at h
  split at h
  · cases h; decide
  split at h
  · cases h; decide
  split at h
  · cases h; decide
  split at h
  · cases h; decide
  split at h
  · cases h; decide
  split at h
  · cases h; decide
  · cases h

/-! ## An abort that reaches a NOP -/

theorem abortDesc_nop {d : Desc} (h : d.opcode = 0x0001) : s.abortDesc d = (s.complete d.id 4, true) := by
  simp [abortDesc, h]

theorem abortAll_nop {d : Desc} (h : d.opcode = 0x0001) : s.abortAll [d] = (s.complete d.id 4, 1) := by
  simp [abortAll, abortDesc_nop h, b2n]

theorem startDesc_hif_desc (d : Desc) : (s.startDesc d).hif.desc =
    s.hif.desc.map fun e => if e.id = d.id then { e with started := true } else e := rfl

end State

theorem execSqEnable_refused {s : State} {m : Master} {r : Fin 64} {c : Nat} (hoff : s.on F.HIF_SQ_CTL_enable r = false)
    (hc : s.refuseCode m r = some c) (hev : s.takesEvent 5) :
    ∃ t, execSqEnable m r s = .next t ∧ t.rd F.HIF_SQ_CTL_enable r = 0 ∧ t.rd F.HIF_SQ_STAT_refused r = 1
      ∧ t.rd F.HIF_SQ_INFO_refuse_code r = c ∧ t.hasEvent 5 1 r := by
  have hlt := State.refuseCode_lt hc
  have hev' : ((s.wr F.HIF_SQ_STAT_refused 1 r).wr F.HIF_SQ_INFO_refuse_code c r).takesEvent 5 := by
    refine State.takesEvent_wr (State.takesEvent_wr hev ?_) ?_ <;>
      exact Fld.addr_ne_of_off (m := 128) (by decide) r.isLt (by decide)
  simp only [execSqEnable, hoff, hc, Bool.false_eq_true, if_false]
  refine ⟨_, rfl, ?_, ?_, ?_, State.raise_hasEvent _ _ _ hev'⟩ <;>
    refine (State.raise_rd_below _ _ _ _ (by decide) r.isLt (by decide)).trans ?_
  · rw [State.rd_wr_sep _ (by decide), State.rd_wr_sep _ (by decide)]
    exact s.on_eq_false.1 hoff
  · rw [State.rd_wr_sep _ (by decide), State.rd_wr_same]
    rfl
  · exact State.rd_wr_lt _ hlt (by decide)

theorem execSqReset_resets {s : State} {r : Fin 64} (hoff : s.on F.HIF_SQ_CTL_enable r = false) (hout : s.outstanding r = 0) :
    ∃ t, execSqReset r s = .next t ∧ t.sq r = {} ∧ t.rd F.HIF_SQ_STAT_head r = 0 ∧ t.rd F.HIF_SQ_INFO_fault r = 0
      ∧ t.hif.desc = s.hif.desc ∧ ∀ k, k ≠ r.val → t.sq k = s.sq k := by
  simp only [execSqReset, hoff, hout, bne_self_eq_false, Bool.or_self, Bool.false_eq_true, if_false]
  refine ⟨_, rfl, s.sq_setSq_same _ _, ?_, State.rd_wr_same _ (by decide), rfl, fun k hk => s.sq_setSq_ne _ hk⟩
  rw [State.rd_wr_sep _ (by decide), State.rd_wr_same _ (by decide)]
  rfl

theorem execSqReset_ignored {s : State} {r : Fin 64} (h : s.on F.HIF_SQ_CTL_enable r = true ∨ s.outstanding r ≠ 0) :
    execSqReset r s = .next (s.wrIgnored .sq r (F.HIF_SQ_CTL_reset.addr r 0)) := by
  have hcond : (s.on F.HIF_SQ_CTL_enable r || s.outstanding r != 0) = true := by simpa using h
  simp only [execSqReset, hcond, if_true]

theorem execCqReset_resets {s : State} {q : Fin 64} (hring : ∀ r, r < 64 → s.rd F.HIF_SQ_CFG_cq r = q.val →
      s.on F.HIF_SQ_CTL_enable r = false ∧ (s.sq r).inFlight = 0) (hdesc : ∀ d ∈ s.hif.desc, d.cq ≠ q.val) :
    ∃ t, execCqReset q s = .next t ∧ t.cq q = {} ∧ t.rd F.HIF_CQ_STAT_tail q = 0 ∧ t.rd F.HIF_CQ_STAT_phase q = 1
      ∧ t.rd F.HIF_CQ_STAT_full q = 0 ∧ t.rd F.HIF_CQ_STAT_fault q = 0 ∧ ∀ k, k ≠ q.val → t.cq k = s.cq k := by
  have hfed : ((List.range 64).any fun r => s.on F.HIF_SQ_CTL_enable r && s.rd F.HIF_SQ_CFG_cq r == q.val) = false := by
    simp only [List.any_eq_false, List.mem_range]
    intro r hr hcon
    simp only [Bool.and_eq_true, beq_iff_eq] at hcon
    simp [hring r hr hcon.2] at hcon
  have hbound : (s.hif.desc.any (·.cq == q.val) || (List.range 64).any fun r =>
      s.rd F.HIF_SQ_CFG_cq r == q.val && (s.sq r).inFlight != 0) = false := by
    simp only [Bool.or_eq_false_iff, List.any_eq_false, List.mem_range, Bool.and_eq_true, beq_iff_eq, bne_iff_ne, ne_eq, not_and,
      not_not]
    exact ⟨hdesc, fun r hr hq => (hring r hr hq).2⟩
  simp only [execCqReset, hfed, hbound, Bool.or_self, Bool.false_eq_true, if_false]
  refine ⟨_, rfl, s.cq_setCq_same _ _, ?_, ?_, ?_, State.rd_wr_same _ (by decide), fun k hk => s.cq_setCq_ne _ hk⟩
  all_goals
    simp (disch := decide) only [State.rd_wr_sep, State.rd_wr_same]
    rfl

theorem execNop_completes {s : State} {r : Fin 64} {d : Desc} (h : s.Starts r 0x0001 d) :
    ∃ t, execNop r s = .next t ∧ t.Completed d 1 ∧ t = { s with regs := t.regs, glb := t.glb, hif := t.hif } := by
  rw [execNop, h.runDesc]
  refine ⟨_, rfl, h.completed rfl, ?_⟩
  rw [State.complete_blocks]
  rfl

theorem execAbort_aborts {s : State} {r : Fin 64} {d e : Desc} (hdesc : s.hif.desc = [e, d]) (hid : d.id ≠ e.id) (hd : d.ring = r.val)
    (he : e.ring = r.val) (hop : d.opcode = 0x0002) (hst : d.started = false) (hq : d.quiet = false) (heop : e.opcode = 0x0001)
    (heq : e.quiet = false) (htag : e.tag = d.op 16 4) (hall : bitAt (d.op 20 1) 0 = false) :
    ∃ t, execAbort r s = .next t ∧ t.Completed d 1 ∧ t.Completed e 4 := by
  have hfind : (s.hif.desc.find? fun x => x.ring == r.val && x.opcode == 0x0002 && !x.started) = some d := by
    simp [hdesc, heop, hd, hop, hst]
  have htargets : s.abortTargets d = [e] := by
    simp [State.abortTargets, hdesc, hall, he, hd, htag, Ne.symm hid]
  have hlist : (s.startDesc d).hif.desc = [e, { d with started := true }] := by
    simp [State.startDesc_hif_desc, hdesc, Ne.symm hid]
  have hrest : ((s.startDesc d).complete e.id 4).hif.desc = [{ d with started := true }] := by
    simp [State.complete_hif_desc, hlist, hid]
  have hfe : (s.startDesc d).hif.desc.find? (·.id == e.id) = some e := by simp [hlist]
  have hfd : ((s.startDesc d).complete e.id 4).hif.desc.find? (·.id == d.id) = some { d with started := true } := by simp [hrest]
  obtain ⟨-, c, hc, hcs⟩ : ((s.startDesc d).complete e.id 4).Completed e 4 := State.complete_completed_of_find hfe rfl rfl heq
  simp only [execAbort, hfind, htargets, State.abortAll_nop heop]
  refine ⟨_, rfl, State.complete_completed hfd hq _ _ _, ?_, c, ?_, hcs⟩
  · simp [State.complete_hif_desc]
  · exact State.mem_compl_complete hc _ _ _ _ _

theorem execAbort_nothing {s : State} {r : Fin 64} {d : Desc} (hdesc : s.hif.desc = [d]) (hd : d.ring = r.val) (hop : d.opcode = 0x0002)
    (hst : d.started = false) (hq : d.quiet = false) : ∃ t, execAbort r s = .next t ∧ t.Completed d 5 := by
  have hfind : (s.hif.desc.find? fun x => x.ring == r.val && x.opcode == 0x0002 && !x.started) = some d := by
    simp [hdesc, hd, hop, hst]
  have htargets : s.abortTargets d = [] := by simp [State.abortTargets, hdesc]
  have hfd : (s.startDesc d).hif.desc.find? (·.id == d.id) = some { d with started := true } :=
    State.startDesc_find (by simp [hdesc])
  simp only [execAbort, hfind, htargets, State.abortAll, List.foldl_nil]
  exact ⟨_, rfl, State.complete_completed hfd hq _ _ _⟩

/-- Settles O11: each control of a ring by the state of the ring, and NOP and ABORT by the descriptors outstanding. -/
theorem ringsNopAndAbort : Obligations.RingsNopAndAbort := by
  unfold Obligations.RingsNopAndAbort
  refine ⟨⟨fun s m r hoff hc => ?_, fun s m r c => execSqEnable_refused, fun s r => rfl, fun s r => execSqReset_resets,
      fun s r => execSqReset_ignored, fun s r d hfilter hop => ?_, fun s q => rfl, fun s q => rfl, fun s q => execCqReset_resets⟩,
    fun s r d => execNop_completes, fun s r d e => execAbort_aborts, fun s r d => execAbort_nothing⟩
  · change execSqEnable m r s = _
    simp only [execSqEnable, hoff, hc, Bool.false_eq_true, if_false]
  · change execSqAbortAll r s = _
    rw [execSqAbortAll, hfilter, State.abortAll_nop hop]

end Sys2Proof.Machine

/-! The registers of the Control block and of HIF_STAT through the aborts of descriptors: none of the units that an abort reaches
writes below the rings of the host interface. -/

namespace Sys2Proof.Machine

namespace State

/-- The registers below the submission rings are the same in two states. -/
def Low (s t : State) : Prop := ∀ off, off < 0x11000 → t.word off = s.word off

variable {s t u : State}

theorem Low.refl (s : State) : s.Low s := fun _ _ => rfl

theorem Low.rd (h : s.Low t) {f : Fld} {i j : Nat} (hf : f.addr i j < 0x11000) : t.rd f i j = s.rd f i j := by
  rw [State.rd, State.rd, h _ hf]

/-- A change outside the registers. -/
theorem Low.same (h : s.Low t) (hregs : u.regs = t.regs) (hcopies : u.glb.t3copies = t.glb.t3copies) : s.Low u := fun off hoff => by
  have hword : u.word off = t.word off := by simp only [word, copies, hregs, hcopies]
  rw [hword, h off hoff]

theorem Low.wr (h : s.Low t) {f : Fld} {v i j : Nat} (hf : 0x11000 ≤ f.off) : s.Low (t.wr f v i j) := fun off hoff =>
  (t.word_wr_ne f (by simp only [Fld.addr]; omega)).trans (h off hoff)

theorem Low.put (h : s.Low t) {f : Fld} {v : Bool} {i j : Nat} (hf : 0x11000 ≤ f.off) : s.Low (t.put f v i j) := h.wr hf

theorem Low.wrS (h : s.Low t) {f : Fld} {v : Int} {i j : Nat} (hf : 0x11000 ≤ f.off) : s.Low (t.wrS f v i j) := h.wr hf

theorem Low.bump (h : s.Low t) {f : Fld} {i j n : Nat} (hf : 0x11000 ≤ f.off) : s.Low (t.bump f i j n) := h.wr hf

theorem Low.wrBit (h : s.Low t) {f : Fld} {b i j : Nat} {v : Bool} (hf : 0x11000 ≤ f.off) :
    s.Low (t.wrBit f b v i j) := h.wr hf

theorem Low.wr64 (h : s.Low t) {lo hi : Fld} {v i : Nat} (hlo : 0x11000 ≤ lo.off)
    (hhi : 0x11000 ≤ hi.off) :
    s.Low (t.wr64 lo hi v i) := (h.wr hlo).wr hhi

theorem Low.foldl {α : Type} {l : List α} {f : State → α → State} (h : s.Low t) (hf : ∀ (t : State) a, s.Low t → s.Low (f t a)) :
    s.Low (l.foldl f t) := foldl_holds (P := s.Low) (fun t a _ ht => hf t a ht) h

theorem Low.ite {c : Prop} [Decidable c] (h : s.Low t) (h' : s.Low u) : s.Low (if c then t else u) := by split <;> assumption

theorem EventKeeps.low (s : State) : EventKeeps (fun _ => True) s.Low where
  wr t f v i hf _ h := by
    simp only [List.mem_cons, List.not_mem_nil, or_false] at hf
    rcases hf with rfl | rfl | rfl | rfl | rfl | rfl <;> exact h.wr (by decide)
  record _ _ _ h := h
  merge _ _ _ _ h := h
  owe _ h := h
  hist _ _ h := h
  queue _ _ _ h := h

theorem Low.raise (h : s.Low t) {src code inst : Nat} {d : DWord} : s.Low (t.raise src code inst d) :=
  (EventKeeps.low s).raise trivial _ _ _ _ trivial h

theorem Low.syncRing (h : s.Low t) {r : Nat} : s.Low (t.syncRing r) := by
  unfold State.syncRing
  exact Low.wr (Low.wr h (by decide)) (by decide)

theorem Low.complete (h : s.Low t) {id status notes : Nat} {res : List Byte} {ind : Bool} :
    s.Low (t.complete id status notes res ind) := by
  obtain ⟨-, heq⟩ | ⟨ring, waiting, heq⟩ := t.complete_cases id status notes res ind
  · rwa [heq]
  · rw [heq]
    exact Low.syncRing (h.same (by rfl) (by rfl))

theorem Low.startDesc (h : s.Low t) {d : Desc} : s.Low (t.startDesc d) := Low.syncRing (h.same (by rfl) (by rfl))

/-! ## Brake tests, flash, tuning, swaps and motor links -/

theorem Low.setBrake (h : s.Low t) {b st : Nat} : s.Low (t.setBrake b st) := by
  unfold State.setBrake
  exact Low.ite h (Low.wr (h.same (by rfl) (by rfl)) (by decide))

theorem Low.releaseBrake (h : s.Low t) {x : QTest} : s.Low (t.releaseBrake x) := by
  have hbrake : s.Low (if (t.setBrake x.brake 1).torqueOn (byteAt (Sps.brake t.quench.set x.brake) 2)
      && (t.setBrake x.brake 1).driveLive (t.testAxis x).2 && (t.setBrake x.brake 1).qDrives
      then (t.setBrake x.brake 1).setBrake x.brake 2 else t.setBrake x.brake 1) := Low.ite h.setBrake.setBrake h.setBrake
  exact hbrake.same (by rfl) (by rfl)

theorem Low.rampBack (h : s.Low t) {x : QTest} : s.Low (t.rampBack x) := by
  unfold State.rampBack
  split
  · exact h.releaseBrake
  · exact h.same (by rfl) (by rfl)

theorem Low.abortBrakeTest (h : s.Low t) {id : Nat} : s.Low (t.abortBrakeTest id) := by
  unfold State.abortBrakeTest
  split
  · exact h
  · exact Low.ite h (Low.ite h.rampBack (h.same (by rfl) (by rfl)))

theorem Low.abortFlash (h : s.Low t) {id : Nat} : s.Low (t.abortFlash id) := by
  unfold State.abortFlash
  exact Low.complete (h.same (by rfl) (by rfl))

theorem Low.syncTune (h : s.Low t) {n : Nat} : s.Low (t.syncTune n) := by
  unfold State.syncTune
  exact h.put (by decide)

theorem Low.stopCapture (h : s.Low t) {k : Option Nat} : s.Low (t.stopCapture k) := by
  cases k with
  | none => exact h
  | some k => exact h.same (by rfl) (by rfl)

theorem Low.endTune (h : s.Low t) {x : Tune} {status : Nat} : s.Low (t.endTune x status) := by
  unfold State.endTune State.tmpEvent
  exact Low.syncTune (Low.complete (Low.raise (Low.ite (Low.stopCapture (h.same (by rfl) (by rfl))) (h.same (by rfl) (by rfl)))))

theorem Low.abortTune (h : s.Low t) {id : Nat} : s.Low (t.abortTune id) := by
  unfold State.abortTune
  split
  · exact h.endTune
  · dsimp only
    split
    · exact Low.syncTune (Low.complete (h.same (by rfl) (by rfl)))
    · exact Low.complete (h.same (by rfl) (by rfl))

theorem Low.abortSwap (h : s.Low t) {id : Nat} : s.Low (t.abortSwap id) := by
  unfold State.abortSwap
  exact Low.complete (h.same (by rfl) (by rfl))

theorem Low.swgSync (h : s.Low t) {c : Nat} : s.Low (t.swgSync c) := by
  unfold State.swgSync
  exact (((h.wr64 (by decide) (by decide)).wr64 (by decide) (by decide)).wrS (by decide)).wr (by decide)

theorem Low.swgStop (h : s.Low t) {c status : Nat} {keep : Bool} : s.Low (t.swgStop c status keep) := by
  unfold State.swgStop
  exact Low.ite h (Low.swgSync (h.same (by rfl) (by rfl)))

theorem Low.swgAbort (h : s.Low t) {id : Nat} : s.Low (t.swgAbort id) := by
  unfold State.swgAbort
  refine h.foldl fun t c h => ?_
  dsimp only
  split
  · exact Low.ite h.swgStop (Low.ite (Low.complete (h.same (by rfl) (by rfl))) h)
  · exact Low.ite (Low.complete (h.same (by rfl) (by rfl))) h

/-! ## Chains -/

theorem Low.commitRamp (h : s.Low t) {c t0 rise : Nat} : s.Low (t.commitRamp c t0 rise) := by
  unfold State.commitRamp
  refine Low.foldl (h.same (by rfl) (by rfl)) fun t n h => ?_
  dsimp only
  split
  · exact h
  · exact h.same (by rfl) (by rfl)

theorem Low.stopRamp (h : s.Low t) {c : Nat} : s.Low (t.stopRamp c) := by
  unfold State.stopRamp
  exact h.commitRamp.same (by rfl) (by rfl)

theorem Low.heldEvent (h : s.Low t) {c cause st : Nat} : s.Low (t.heldEvent c cause st) := by
  unfold State.heldEvent
  exact Low.raise (h.same (by rfl) (by rfl))

theorem Low.holdHere (h : s.Low t) {c cause : Nat} : s.Low (t.holdHere c cause) := by
  unfold State.holdHere
  exact Low.heldEvent (h.same (by rfl) (by rfl))

theorem Low.heldAgain (h : s.Low t) {c cause : Nat} : s.Low (t.heldAgain c cause) := by
  unfold State.heldAgain
  exact Low.ite h (h.same (by rfl) (by rfl))

theorem Low.stopChain (h : s.Low t) {c : Nat} {x : Halt} : s.Low (t.stopChain c x) := by
  unfold State.stopChain
  dsimp only
  split
  · exact Low.foldl (Low.ite h.holdHere (Low.ite h.heldAgain h)) fun _ _ h => h.complete
  · exact Low.foldl (Low.ite h.holdHere (Low.ite h.heldAgain h)) fun _ _ h => h.complete
  · exact Low.ite (h.same (by rfl) (by rfl)) (Low.stopRamp (h.same (by rfl) (by rfl)))

theorem Low.releaseZones (h : s.Low t) {c m : Nat} : s.Low (t.releaseZones c m) := by
  unfold State.releaseZones
  exact Low.foldl (h.same (by rfl) (by rfl)) fun _ _ h => Low.ite (h.same (by rfl) (by rfl)) (h.same (by rfl) (by rfl))

theorem Low.withdraw (h : s.Low t) {c : Nat} : s.Low (t.withdraw c) := by
  unfold State.withdraw
  split
  · exact h
  · exact Low.foldl (h.releaseZones.same (by rfl) (by rfl)) fun _ _ h => Low.ite (h.same (by rfl) (by rfl)) (h.same (by rfl) (by rfl))

theorem Low.startSeg (h : s.Low t) {c : Nat} {g : Seg} {rest : List Seg} : s.Low (t.startSeg c g rest) := by
  unfold State.startSeg
  dsimp only
  split
  · exact Low.startDesc (h.releaseZones.same (by rfl) (by rfl))
  · exact h.releaseZones.same (by rfl) (by rfl)

theorem Low.startNext (h : s.Low t) {c : Nat} : s.Low (t.startNext c) := by
  unfold State.startNext
  dsimp only
  split
  · exact h.same (by rfl) (by rfl)
  · exact Low.ite (h.same (by rfl) (by rfl)) (Low.ite h.startSeg (h.same (by rfl) (by rfl)))

theorem Low.stir (h : s.Low t) {c : Nat} : s.Low (t.stir c) := by
  unfold State.stir
  exact Low.ite h.startNext h

theorem Low.endSeg (h : s.Low t) {g : Seg} {status rem len radius : Nat} : s.Low (t.endSeg g status rem len radius) := by
  unfold State.endSeg
  exact h.complete

theorem Low.abortSeg (h : s.Low t) {c id : Nat} : s.Low (t.abortSeg c id).1 := by
  unfold State.abortSeg
  dsimp only
  split
  · split
    · exact h.stopChain.endSeg
    · split
      · split
        · have hd : s.Low t.drawn := h.same (by rfl) (by rfl)
          exact Low.endSeg (Low.stopChain (hd.same (by rfl) (by rfl)))
        · split
          · exact Low.endSeg (h.same (by rfl) (by rfl))
          · exact h
      · exact h
  · split
    · exact Low.stir (Low.endSeg ((Low.ite h.withdraw h).same (by rfl) (by rfl)))
    · exact h

/-! ## Solver jobs -/

theorem Low.traceLand (h : s.Low t) {r : List Byte} : s.Low (t.traceLand r) := by
  have hmem : s.Low { t with ddr := writeBytes t.ddr (t.rd64 F.HIV_TRC_BASE_LO_addr F.HIV_TRC_BASE_HI_addr
    + t.rd F.HIV_TRC_STAT_offset) r } := h.same (by rfl) (by rfl)
  unfold State.traceLand
  exact Low.ite (hmem.wr (by decide)) (Low.ite (Low.ite (Low.raise ((hmem.wr (by decide)).wr (by decide)))
    ((hmem.wr (by decide)).wr (by decide))) (Low.raise ((hmem.wr (by decide)).wr (by decide))))

theorem Low.traceDrain (h : s.Low t) : s.Low t.traceDrain := by
  unfold State.traceDrain
  exact Low.ite (Low.foldl (h.same (by rfl) (by rfl)) fun _ _ h => h.traceLand) h

theorem Low.trace (h : s.Low t) {kind prio ctx who source extra : Nat} : s.Low (t.trace kind prio ctx who source extra) := by
  unfold State.trace
  exact Low.ite h (Low.ite h (Low.ite (h.bump (by decide)) (Low.traceDrain (h.same (by rfl) (by rfl)))))

theorem Low.syncHive (h : s.Low t) : s.Low t.syncHive := by
  unfold State.syncHive
  iterate 8 refine Low.wr ?_ (by decide)
  exact h

theorem Low.spillOne (h : s.Low t) {ring : Bool} : s.Low (t.spillOne ring) := by
  unfold State.spillOne
  refine Low.ite h ?_
  split
  · exact h
  · exact Low.ite (Low.raise (Low.trace (Low.syncHive (h.same (by rfl) (by rfl))))) (Low.trace (Low.syncHive (h.same (by rfl) (by rfl))))

theorem Low.queueItem (h : s.Low t) {it : Item} : s.Low (t.queueItem it) := by
  unfold State.queueItem
  exact Low.spillOne (Low.trace (Low.syncHive (h.same (by rfl) (by rfl))))

theorem Low.syncAnvil (h : s.Low t) : s.Low t.syncAnvil := by
  unfold State.syncAnvil
  exact Low.wr (Low.wr (Low.foldl h fun _ _ h => ((h.put (by decide)).put (by decide)).wrBit (by decide)) (by decide)) (by decide)

theorem Low.enqueuePlanner (h : s.Low t) {slot : Nat} {line : Option Nat} : s.Low (t.enqueuePlanner slot line) := by
  unfold State.enqueuePlanner
  exact Low.syncAnvil (Low.queueItem (h.same (by rfl) (by rfl)))

theorem Low.plannerDone (h : s.Low t) {j : Job} {slot status byte1 : Nat} : s.Low (t.plannerDone j slot status byte1) := by
  unfold State.plannerDone State.newItem
  exact Low.ite h.queueItem.enqueuePlanner h.queueItem

theorem Low.showSolve (h : s.Low t) {n phase : Nat} : s.Low (t.showSolve n phase) := by
  unfold State.showSolve
  split
  · exact ((h.wr (by decide)).wr (by decide)).wr (by decide)
  · exact h.wr (by decide)

theorem Low.releaseEngine (h : s.Low t) {n : Nat} : s.Low (t.releaseEngine n) := by
  unfold State.releaseEngine
  split
  · exact h
  · exact Low.trace (Low.syncAnvil (Low.showSolve (Low.bump (h.same (by rfl) (by rfl)) (by decide))))

theorem Low.dropJob (h : s.Low t) {n st : Nat} : s.Low (t.dropJob n st) := by
  unfold State.dropJob
  split
  · exact h
  · split
    · exact h.releaseEngine
    · dsimp only
      split
      · exact h.releaseEngine.complete
      · exact h.releaseEngine.plannerDone

theorem Low.showStops (h : s.Low t) : s.Low t.showStops := by
  unfold State.showStops
  exact Low.foldl h fun _ _ h => Low.ite h (h.put (by decide))

theorem Low.refill (h : s.Low t) {it : Item} : s.Low (t.refill it) := by
  unfold State.refill
  exact Low.trace (Low.syncHive (h.same (by rfl) (by rfl)))

theorem Low.returnHeads (h : s.Low t) : s.Low t.returnHeads := by
  unfold State.returnHeads
  exact Low.ite (Low.foldl h fun _ _ h => h.refill) h

theorem Low.pressureOff (h : s.Low t) : s.Low t.pressureOff := by
  unfold State.pressureOff
  exact Low.ite (Low.trace (Low.showStops (h.wr (by decide)))) h

theorem Low.unstall (h : s.Low t) : s.Low t.unstall := by
  unfold State.unstall
  refine Low.foldl h fun t c h => ?_
  split
  · exact h
  · exact Low.ite h (Low.queueItem (Low.ite (Low.wr (h.same (by rfl) (by rfl)) (by decide)) (h.same (by rfl) (by rfl))))

theorem Low.hiveSettle (h : s.Low t) : s.Low t.hiveSettle := by
  unfold State.hiveSettle
  exact h.syncHive.returnHeads.pressureOff.unstall

theorem Low.unqueueJob (h : s.Low t) {slot : Nat} : s.Low (t.unqueueJob slot) := by
  unfold State.unqueueJob
  exact Low.syncAnvil (Low.hiveSettle (h.same (by rfl) (by rfl)))

theorem Low.abortSlot (h : s.Low t) {slot : Nat} : s.Low (t.abortSlot slot).1 := by
  unfold State.abortSlot
  split
  · exact h
  · split
    · dsimp only
      split
      · exact h.unqueueJob.complete
      · exact h.unqueueJob.plannerDone
    · split
      · exact h.dropJob
      · exact h

/-! ## Aborts -/

theorem Low.abortDesc (h : s.Low t) {d : Desc} : s.Low (t.abortDesc d).1 := by
  unfold State.abortDesc State.abortImmediate
  dsimp only
  split
  · have hseg := h.abortSeg (c := d.ring) (id := d.id)
    split
    · next heq => rw [heq] at hseg; exact hseg
    · next heq => rw [heq] at hseg; exact hseg.complete
  split
  · exact Low.complete (h.same (by rfl) (by rfl))
  split
  · split
    · exact h.abortSlot
    · exact h.complete
  split
  · exact Low.complete (h.same (by rfl) (by rfl))
  split
  · exact Low.ite h.swgAbort h.complete
  split
  · exact Low.ite h.abortBrakeTest h.complete
  split
  · exact h.abortSwap
  split
  · exact h.abortTune
  split
  · exact h.abortFlash
  · exact h.complete

/-- Aborts leave the registers of the Control block and HIF_STAT alone. -/
theorem abortAll_low (s : State) (l : List Desc) : s.Low (s.abortAll l).1 :=
  foldl_holds (P := fun p : State × Nat => s.Low p.1) (fun _ _ _ h => h.abortDesc) (Low.refl s)

end State

end Sys2Proof.Machine

/-! Proofs about the reset of the host interface, the link and doorbells (O9). -/

namespace Sys2Proof.Machine

namespace State

variable (s : State)

/-! ## The records of the host interface but for events -/

/-- Only event staging and the owed lost report differ among the records of the host interface. -/
def HifButEvents (s t : State) : Prop := t.hif = { s.hif with events := t.hif.events, lostOwed := t.hif.lostOwed }

variable {s} {t u : State}

theorem HifButEvents.refl (s : State) : s.HifButEvents s := rfl

theorem HifButEvents.trans (h : s.HifButEvents t) (h' : t.HifButEvents u) : s.HifButEvents u := by
  unfold HifButEvents at *
  rw [h', h]

theorem HifButEvents.raise (h : s.HifButEvents t) (src code inst : Nat) (d : DWord) : s.HifButEvents (t.raise src code inst d) := by
  have hblocks := t.raise_blocks (src := src) code inst d
  unfold SameButEvents at hblocks
  refine h.trans ?_
  unfold HifButEvents
  conv_lhs => rw [hblocks]

theorem HifButEvents.ite {c : Prop} [Decidable c] (h : s.HifButEvents t) (h' : s.HifButEvents u) :
    s.HifButEvents (if c then t else u) := by split <;> assumption

theorem HifButEvents.releaseLock (h : s.HifButEvents t) (cause : Nat) : s.HifButEvents (t.releaseLock cause) := by
  unfold State.releaseLock
  exact HifButEvents.ite h (HifButEvents.raise (t := t.wr F.UPD_STAGE_owner 0) h _ _ _ _)

theorem HifButEvents.withdrawUnlock (h : s.HifButEvents t) (cause : Nat) : s.HifButEvents (t.withdrawUnlock cause) := by
  unfold State.withdrawUnlock
  exact HifButEvents.ite h (HifButEvents.raise (t := (t.wr F.HIF_STAT_host_priv 0).wr F.GLB_UNLOCK_STAT_state 0) h _ _ _ _)

/-! ## What a reset of the host interface leaves in its registers -/

theorem Low.setWord (h : s.Low t) {off : Nat} (w : Word) (hoff : 0x11000 ≤ off) : s.Low (t.setWord off w) := fun x hx =>
  (t.word_setWord_ne w (by omega)).trans (h x hx)

theorem Low.clearSq (h : s.Low t) {r : Nat} : s.Low (t.clearSq r) := by
  unfold State.clearSq
  refine Low.wr (Low.wr (Low.setWord (Low.wr h (by decide)) _ ?_) (by decide)) (by decide)
  simp only [Fld.addr, F.HIF_SQ_STAT_head]
  omega

theorem Low.clearCq (h : s.Low t) {r : Nat} : s.Low (t.clearCq r) := by
  unfold State.clearCq
  refine Low.setWord (Low.wr h (by decide)) _ ?_
  simp only [Fld.addr, F.HIF_CQ_STAT_tail]
  omega

theorem Low.clearHifRegs (h : s.Low t) : s.Low t.clearHifRegs := by
  unfold State.clearHifRegs
  exact Low.foldl (Low.foldl (Low.foldl h fun _ _ h => h.clearSq.clearCq) fun _ _ h => h.wr (by decide)) fun _ _ h => h.wr (by decide)

theorem Low.loseStaged (h : s.Low t) : s.Low t.loseStaged := by
  unfold State.loseStaged
  have hlost : s.Low (t.hif.events.foldl (fun s e =>
      (s.wrBit F.HIF_EVT_LOST_lost (e.src % 32) true (e.src / 32)).bump F.HIF_EVT_LOST_CNT_count) t) :=
    Low.foldl h fun _ _ h => (h.wrBit (by decide)).bump (by decide)
  exact hlost.same (by rfl) (by rfl)

theorem Low.releaseLock (h : s.Low t) {cause : Nat} : s.Low (t.releaseLock cause) := by
  unfold State.releaseLock
  exact Low.ite h (Low.raise (h.wr (by decide)))

variable (s)

/-- The registers that the reset of one pair of rings writes. -/
theorem clearRings_word {off r : Nat} (hsq : off ≠ F.HIF_SQ_CTL_enable.addr r 0 ∧ off ≠ F.HIF_SQ_STAT_head.addr r 0
      ∧ off ≠ F.HIF_SQ_INFO_staged.addr r 0) (hcq : off ≠ F.HIF_CQ_CTL_enable.addr r 0 ∧ off ≠ F.HIF_CQ_STAT_tail.addr r 0) :
    ((s.clearSq r).clearCq r).word off = s.word off := by
  obtain ⟨hctl, hhead, hinfo⟩ := hsq
  obtain ⟨hcctl, htail⟩ := hcq
  have hfault : off ≠ F.HIF_SQ_INFO_fault.addr r 0 := hinfo
  rw [clearCq, word_setWord_ne _ _ htail, word_wr_ne _ _ hcctl, clearSq, word_wr_ne _ _ hfault, word_wr_ne _ _ hinfo,
    word_setWord_ne _ _ hhead, word_wr_ne _ _ hctl]

theorem clearRings_rd_other {f : Fld} (hf : f = F.HIF_SQ_CTL_enable ∨ f = F.HIF_CQ_CTL_enable ∨ f = F.HIF_SQ_STAT_head)
    {i r : Nat} (hi : i < 64) (hr : r < 64) (hne : i ≠ r) : ((s.clearSq r).clearCq r).rd f i = s.rd f i := by
  rw [rd, rd, clearRings_word]
  all_goals
    rcases hf with rfl | rfl | rfl <;>
    simp only [Fld.addr, F.HIF_SQ_CTL_enable, F.HIF_SQ_STAT_head, F.HIF_SQ_INFO_staged, F.HIF_CQ_CTL_enable, F.HIF_CQ_STAT_tail] <;>
    omega

/-- What the reset of the rings and vectors leaves in a register that the vectors' own registers do not hold. -/
theorem clearHifRegs_rd_ring {f : Fld} (hf : f = F.HIF_SQ_CTL_enable ∨ f = F.HIF_CQ_CTL_enable ∨ f = F.HIF_SQ_STAT_head)
    {i : Nat} (hi : i < 64) : s.clearHifRegs.rd f i = ((List.range 64).foldl (fun s r => (s.clearSq r).clearCq r) s).rd f i := by
  have hword {t : State} {g : Fld} {m : Nat} (hg : g.off = 0x1800C ∨ g.off = 0x19000) :
      ((List.range m).foldl (fun s k => s.wr g 0 k) t).rd f i = t.rd f i ∧
      ((List.range m).foldl (fun s k => s.wr g 1 k) t).rd f i = t.rd f i := by
    have hne (k : Nat) : f.addr i 0 ≠ g.addr k 0 := by
      rcases hf with rfl | rfl | rfl <;>
        simp only [Fld.addr, F.HIF_SQ_CTL_enable, F.HIF_SQ_STAT_head, F.HIF_CQ_CTL_enable] <;> omega
    constructor
    · rw [rd, rd, word_foldl_wr _ (fun _ => 0) fun k _ => hne k]
    · rw [rd, rd, word_foldl_wr _ (fun _ => 1) fun k _ => hne k]
  rw [clearHifRegs, (hword (.inr rfl)).1, (hword (.inl rfl)).2]

/-- After the reset of the host interface's registers every ring is disabled, and its fetch index is 0. -/
theorem clearHifRegs_ring {f : Fld} (hf : f = F.HIF_SQ_CTL_enable ∨ f = F.HIF_CQ_CTL_enable ∨ f = F.HIF_SQ_STAT_head) {i : Nat}
    (hi : i < 64) : s.clearHifRegs.rd f i = 0 := by
  rw [s.clearHifRegs_rd_ring hf hi]
  refine foldl_range_sets (fun t : State => t.rd f i) hi (fun t => ?_) (fun t r hr hne => t.clearRings_rd_other hf hi hr hne.symm) s
  have htail : F.HIF_SQ_CTL_enable.addr i 0 ≠ F.HIF_CQ_STAT_tail.addr i 0 ∧ F.HIF_SQ_STAT_head.addr i 0 ≠ F.HIF_CQ_STAT_tail.addr i 0
      ∧ F.HIF_CQ_CTL_enable.addr i 0 ≠ F.HIF_CQ_STAT_tail.addr i 0 := by
    simp only [Fld.addr, F.HIF_SQ_CTL_enable, F.HIF_SQ_STAT_head, F.HIF_CQ_CTL_enable, F.HIF_CQ_STAT_tail]
    omega
  have hhead : F.HIF_SQ_CTL_enable.addr i 0 ≠ F.HIF_SQ_STAT_head.addr i 0 := by
    simp only [Fld.addr, F.HIF_SQ_CTL_enable, F.HIF_SQ_STAT_head]
    omega
  obtain ⟨hctl, hstat, hcctl⟩ := htail
  rcases hf with rfl | rfl | rfl
  · rw [clearCq, rd_setWord_ne _ _ hctl, rd_wr_sep _ (by decide), clearSq, rd_wr_sep _ (by decide), rd_wr_sep _ (by decide),
      rd_setWord_ne _ _ hhead, rd_wr_same _ (by decide)]
    rfl
  · rw [clearCq, rd_setWord_ne _ _ hcctl, rd_wr_same _ (by decide)]
    rfl
  · rw [clearCq, rd_setWord_ne _ _ hstat, rd_wr_sep _ (by decide), clearSq, rd_wr_sep _ (by decide), rd_wr_sep _ (by decide),
      rd_setWord_same]
    rfl

theorem clearHifRegs_mask {v : Nat} (hv : v < 128) : s.clearHifRegs.rd F.HIF_MSIX_CTRL_mask v = 1 := by
  rw [clearHifRegs, rd, word_foldl_wr _ (fun _ => 0) fun k hk => ?_]
  · exact rd_foldl_wr _ (fun _ => 1) hv (by decide) (by decide)
  · simp only [Fld.addr, F.HIF_MSIX_CTRL_mask, F.HIF_MSIX_PBA_pending]
    omega

/-! ## Events that are lost -/

/-- A source marked as lost sets a bit of its word and clears none. -/
theorem markLost_mask {v b k : Nat} (h : s.rd F.HIF_MSIX_CTRL_mask v = 1) :
    (s.wrBit F.HIF_EVT_LOST_lost b true k).rd F.HIF_MSIX_CTRL_mask v = 1 := by
  by_cases ha : F.HIF_MSIX_CTRL_mask.addr v 0 = F.HIF_EVT_LOST_lost.addr k 0
  · have hmask (t : State) : t.rd F.HIF_MSIX_CTRL_mask v = t.rd F.HIF_EVT_LOST_lost k % 2 := by
      rw [rd, rd, ha]
      generalize t.word _ = w
      simp only [getBits, F.HIF_MSIX_CTRL_mask, F.HIF_EVT_LOST_lost, Nat.shiftRight_zero]
      omega
    have hbit := s.bitAt_rd_wrBit (f := F.HIF_EVT_LOST_lost) (b := b) (c := 0) (i := k) (j := 0) (v := true) (by decide) (by decide)
    rw [hmask] at h ⊢
    simp only [bitAt, Nat.testBit_zero, h, decide_true] at hbit
    split at hbit <;> simpa using hbit
  · rw [wrBit_eq, rd_wr_ne _ ha, h]

theorem loseStaged_mask {v : Nat} (hv : v < 128) (h : s.rd F.HIF_MSIX_CTRL_mask v = 1) : s.loseStaged.rd F.HIF_MSIX_CTRL_mask v = 1 := by
  refine foldl_holds (P := fun t : State => t.rd F.HIF_MSIX_CTRL_mask v = 1) (fun t e _ ht => ?_) h
  rw [bump_eq, rd_wr_ne]
  · exact t.markLost_mask ht
  · simp only [Fld.addr, F.HIF_MSIX_CTRL_mask, F.HIF_EVT_LOST_CNT_count]
    omega

theorem loseStaged_word {off : Nat} (h : off < 0x13200) : s.loseStaged.word off = s.word off := by
  refine foldl_keeps (fun t : State => t.word off) (fun t e _ => ?_) s
  rw [bump_eq, word_wr_ne, wrBit_eq, word_wr_ne] <;> simp only [Fld.addr, F.HIF_EVT_LOST_lost, F.HIF_EVT_LOST_CNT_count] <;> omega

/-! ## The reset of the host interface -/

/-- The host interface once its rings and vectors are reset and its event staging is lost. -/
def hifStripped : State := (s.abortAll (s.hif.desc.filter fun d => !d.isSegment)).1.clearHifRegs.loseStaged

/-- The records of the host interface reset. -/
def hifCleared : State := { s with hif := s.hif.cleared }

/-- What a reset of the host interface brings about beyond its own rings: the stage lock and source 7. -/
def hifSettled (lost : Bool) (d : DWord) : State :=
  let t := if s.rd F.UPD_STAGE_owner == 1 then s.releaseLock 3 else s
  if lost then t.raise 7 1 0xFFFF d else t

theorem hifReset_eq : ∃ (lost : Bool) (d : DWord), s.hifReset =
    if s.on F.HIF_STAT_host_priv then (s.hifStripped.hifCleared.hifSettled lost d).withdrawUnlock 2
    else s.hifStripped.hifCleared.hifSettled lost d := by
  simp only [hifReset, hifSettled, hifCleared, hifStripped]
  exact ⟨_, _, rfl⟩

theorem hifStripped_low : s.Low s.hifStripped := (s.abortAll_low _).clearHifRegs.loseStaged

theorem hifCleared_word (off : Nat) : s.hifCleared.word off = s.word off := rfl

theorem Low.hifCleared {s t : State} (h : s.Low t) : s.Low t.hifCleared := h

theorem hifSettled_records (lost : Bool) (d : DWord) : s.HifButEvents (s.hifSettled lost d) := by
  have h : s.HifButEvents (if s.rd F.UPD_STAGE_owner == 1 then s.releaseLock 3 else s) :=
    HifButEvents.ite (HifButEvents.releaseLock (HifButEvents.refl s) 3) (HifButEvents.refl s)
  simp only [hifSettled]
  exact HifButEvents.ite (h.raise _ _ _ _) h

theorem Low.hifSettled {s t : State} (h : s.Low t) {lost : Bool} {d : DWord} : s.Low (t.hifSettled lost d) := by
  have hlock : s.Low (if t.rd F.UPD_STAGE_owner == 1 then t.releaseLock 3 else t) := Low.ite h.releaseLock h
  simp only [State.hifSettled]
  exact Low.ite hlock.raise hlock

theorem releaseLock_word (cause : Nat) {off : Nat} (h : off ∉ 0x1E0040 :: eventWords) : (s.releaseLock cause).word off = s.word off := by
  simp only [List.mem_cons, not_or] at h
  simp only [releaseLock]
  split
  · rfl
  · rw [raise_word _ _ _ _ (by decide) h.2, word_wr_ne]
    rintro rfl
    exact h.1 rfl

theorem hifSettled_word (lost : Bool) (d : DWord) {off : Nat} (h : off ∉ 0x1E0040 :: eventWords) :
    (s.hifSettled lost d).word off = s.word off := by
  have hlock : (if s.rd F.UPD_STAGE_owner == 1 then s.releaseLock 3 else s).word off = s.word off := by
    split
    · exact releaseLock_word _ 3 h
    · rfl
  simp only [hifSettled]
  split
  · rw [raise_word _ _ _ _ (by decide) fun hin => h (List.mem_cons_of_mem _ hin), hlock]
  · exact hlock

theorem withdrawUnlock_word (cause : Nat) {off : Nat} (h : off ∉ 0x10004 :: 0x84 :: eventWords) :
    (s.withdrawUnlock cause).word off = s.word off := by
  simp only [List.mem_cons, not_or] at h
  unfold withdrawUnlock
  split
  · rfl
  · rw [raise_word _ _ _ _ (by decide) (by simpa using h.2.2), word_wr_ne, word_wr_ne]
    · rintro rfl
      exact h.1 rfl
    · rintro rfl
      exact h.2.1 rfl

/-- The records of the host interface after its reset. -/
theorem hifReset_records : s.hifStripped.hifCleared.HifButEvents s.hifReset := by
  obtain ⟨lost, d, h⟩ := s.hifReset_eq
  rw [h]
  generalize s.hifStripped.hifCleared = t
  exact HifButEvents.ite ((t.hifSettled_records lost d).withdrawUnlock 2) (t.hifSettled_records lost d)

theorem hifReset_empty : s.hifReset.hif.sq = [] ∧ s.hifReset.hif.cq = [] ∧ s.hifReset.hif.desc = [] ∧ s.hifReset.hif.compl = []
    ∧ s.hifReset.hif.vector = [] ∧ s.hifReset.hif.d3hot = false := by
  have hrecords := s.hifReset_records
  unfold HifButEvents at hrecords
  rw [hrecords]
  exact ⟨rfl, rfl, rfl, rfl, rfl, rfl⟩

theorem hifReset_word {off : Nat} (h : off ∉ 0x10004 :: 0x84 :: 0x1E0040 :: eventWords) : s.hifReset.word off = s.hifStripped.word off := by
  simp only [List.mem_cons, not_or] at h
  obtain ⟨hpriv, hstate, howner, hev⟩ := h
  have hsettled (t : State) (lost : Bool) (d : DWord) : (t.hifSettled lost d).word off = t.word off :=
    t.hifSettled_word lost d (by simpa [howner] using hev)
  obtain ⟨lost, d, heq⟩ := s.hifReset_eq
  rw [heq]
  split
  · rw [withdrawUnlock_word _ _ (by simpa [hpriv, hstate] using hev), hsettled, hifCleared_word]
  · rw [hsettled, hifCleared_word]

/-- The registers of rings and vectors are no others that a reset of the host interface writes. -/
theorem notMem_hifReset {off : Nat} (h : 0x11000 ≤ off ∧ off < 0x13200 ∨ 0x13210 < off ∧ off < 0x1C0000) :
    off ∉ 0x10004 :: 0x84 :: 0x1E0040 :: eventWords := by
  simp only [eventWords, List.mem_cons, List.not_mem_nil, or_false]
  omega

theorem hifReset_ring {f : Fld} (hf : f = F.HIF_SQ_CTL_enable ∨ f = F.HIF_CQ_CTL_enable ∨ f = F.HIF_SQ_STAT_head) {i : Nat}
    (hi : i < 64) : s.hifReset.rd f i = 0 := by
  have haddr : 0x11000 ≤ f.addr i 0 ∧ f.addr i 0 < 0x13200 := by
    rcases hf with rfl | rfl | rfl <;>
      simp only [Fld.addr, F.HIF_SQ_CTL_enable, F.HIF_SQ_STAT_head, F.HIF_CQ_CTL_enable] <;> omega
  rw [rd, s.hifReset_word (notMem_hifReset (.inl haddr)), hifStripped, loseStaged_word _ haddr.2]
  exact clearHifRegs_ring _ hf hi

theorem hifReset_mask {v : Nat} (hv : v < 128) : s.hifReset.rd F.HIF_MSIX_CTRL_mask v = 1 := by
  rw [rd, s.hifReset_word (notMem_hifReset (.inr ?_))]
  · exact loseStaged_mask _ hv (clearHifRegs_mask _ hv)
  · simp only [Fld.addr, F.HIF_MSIX_CTRL_mask]
    omega

theorem hifReset_unlock (h : s.on F.HIF_STAT_host_priv = true) :
    s.hifReset.rd F.HIF_STAT_host_priv = 0 ∧ s.hifReset.rd F.GLB_UNLOCK_STAT_state = 0 := by
  obtain ⟨lost, d, heq⟩ := s.hifReset_eq
  rw [if_pos h] at heq
  have hlow : s.Low (s.hifStripped.hifCleared.hifSettled lost d) := s.hifStripped_low.hifCleared.hifSettled
  have hpriv : (s.hifStripped.hifCleared.hifSettled lost d).on F.HIF_STAT_host_priv = true := by
    rw [on, hlow.rd (by decide)]
    exact h
  obtain ⟨hzero, hstate, -⟩ := withdrawUnlock_withdraws hpriv 2
  rw [heq]
  exact ⟨hzero, hstate⟩

/-! ## The link -/

theorem linkEvent_shows {speed width : Nat} (up : Bool) (code : Nat) (hs : speed < 16) (hw : width < 64) :
    (s.linkEvent up speed width code).rd F.HIF_STAT_link_speed = speed
      ∧ (s.linkEvent up speed width code).rd F.HIF_STAT_link_width = width := by
  unfold linkEvent
  constructor <;> rw [raise_rd _ _ _ _ (by decide) (by decide)]
  · rw [rd_wr_sep _ (by decide)]
    exact rd_wr_lt _ hs (by decide)
  · exact rd_wr_lt _ hw (by decide)

theorem linkEvent_records (up : Bool) (speed width code : Nat) :
    (s.linkEvent up speed width code).hif.linkUp = up ∧ (s.linkEvent up speed width code).hif.desc = s.hif.desc
      ∧ (s.linkEvent up speed width code).hif.compl = s.hif.compl := by
  simp only [linkEvent, raise_hif_linkUp, raise_hif_desc, raise_hif_compl, wr_hif, and_self]

theorem linkEvent_hasEvent {s : State} (h : s.takesEvent 0) (up : Bool) (speed width code : Nat) :
    (s.linkEvent up speed width code).hasEvent 0 code 0xFFFF := by
  have hup : State.takesEvent { s with hif := { s.hif with linkUp := up } } 0 := takesEvent_of_word h rfl rfl
  simp only [linkEvent]
  exact raise_hasEvent _ _ _ (takesEvent_wr (takesEvent_wr hup (by decide)) (by decide))

theorem linkEvent_onlyWords (up : Bool) (speed width code : Nat) :
    s.OnlyWords (s.linkEvent up speed width code) (0x10004 :: eventWords) := by
  simp only [linkEvent]
  refine OnlyWords.raise (OnlyWords.wr (OnlyWords.wr ?_ ?_) ?_) (by decide) (List.subset_cons_self _ _)
  · exact OnlyWords.refl s _
  · exact List.mem_cons_self
  · exact List.mem_cons_self

theorem linkWidth_lt (w : Fin 4) : 2 ^ w.val < 64 :=
  lt_of_le_of_lt (Nat.pow_le_pow_right (by decide) (show w.val ≤ 3 by omega)) (by decide)

end State

theorem execPcieLinkChange_rises {s : State} (sp : Fin 5) (w : Fin 4) (hdown : s.hif.linkUp = false) (hev : s.takesEvent 0) :
    ∃ t, execPcieLinkChange true sp w s = .next t ∧ t.hif.linkUp = true ∧ t.rd F.HIF_STAT_link_speed = sp.val + 1
      ∧ t.rd F.HIF_STAT_link_width = 2 ^ w.val ∧ t.hasEvent 0 1 0xFFFF ∧ s.OnlyWords t (0x10004 :: eventWords) := by
  obtain ⟨hspeed, hwidth⟩ := s.linkEvent_shows true 1 (show sp.val + 1 < 16 by omega) (State.linkWidth_lt w)
  refine ⟨_, ?_, (s.linkEvent_records true _ _ _).1, hspeed, hwidth, State.linkEvent_hasEvent hev _ _ _ _,
    s.linkEvent_onlyWords _ _ _ _⟩
  simp only [execPcieLinkChange, hdown, Bool.not_true, Bool.not_false, Bool.false_eq_true, if_false, if_true]

theorem execPcieLinkChange_changes {s : State} {sp : Fin 5} {w : Fin 4} (hup : s.hif.linkUp = true)
    (hne : s.rd F.HIF_STAT_link_speed ≠ sp.val + 1 ∨ s.rd F.HIF_STAT_link_width ≠ 2 ^ w.val) (hev : s.takesEvent 0) :
    ∃ t, execPcieLinkChange true sp w s = .next t ∧ t.hif.linkUp = true ∧ t.rd F.HIF_STAT_link_speed = sp.val + 1
      ∧ t.rd F.HIF_STAT_link_width = 2 ^ w.val ∧ t.hasEvent 0 3 0xFFFF := by
  obtain ⟨hspeed, hwidth⟩ := s.linkEvent_shows true 3 (show sp.val + 1 < 16 by omega) (State.linkWidth_lt w)
  refine ⟨_, ?_, (s.linkEvent_records true _ _ _).1, hspeed, hwidth, State.linkEvent_hasEvent hev _ _ _ _⟩
  have hsame : ¬ (s.rd F.HIF_STAT_link_speed = sp.val + 1 ∧ s.rd F.HIF_STAT_link_width = 2 ^ w.val) := not_and_or.2 hne
  simp only [execPcieLinkChange, hup, hsame, Bool.not_true, Bool.false_eq_true, if_false]

theorem execPcieLinkChange_falls {s : State} (sp : Fin 5) (w : Fin 4) (hup : s.hif.linkUp = true) :
    ∃ t, execPcieLinkChange false sp w s = .next t ∧ t.hif.linkUp = false ∧ t.rd F.HIF_STAT_link_speed = 0
      ∧ t.rd F.HIF_STAT_link_width = 0 ∧ t.hif.desc = [] ∧ t.hif.compl = [] := by
  obtain ⟨hspeed, hwidth⟩ := s.hifReset.linkEvent_shows (speed := 0) (width := 0) false 2 (by decide) (by decide)
  obtain ⟨hlink, hdesc, hcompl⟩ := s.hifReset.linkEvent_records false 0 0 2
  obtain ⟨-, -, hnodesc, hnocompl, -, -⟩ := s.hifReset_empty
  refine ⟨_, ?_, hlink, hspeed, hwidth, hdesc.trans hnodesc, hcompl.trans hnocompl⟩
  simp only [execPcieLinkChange, hup, Bool.not_false, if_true]

theorem execAerError_correctable {s : State} (bits : Word) (hev : s.takesEvent 1) :
    ∃ t, execAerError 0 bits s = .next t ∧ t.hif.aerCorr = s.hif.aerCorr ||| bits ∧ t.hif.aerUncorr = s.hif.aerUncorr
      ∧ t.hasEvent 1 1 0xFFFF ∧ s.OnlyWords t eventWords := by
  have hev' : State.takesEvent { s with hif := { s.hif with aerCorr := s.hif.aerCorr ||| bits } } 1 :=
    State.takesEvent_of_word hev rfl rfl
  have hwords : s.OnlyWords { s with hif := { s.hif with aerCorr := s.hif.aerCorr ||| bits } } eventWords := State.OnlyWords.refl s _
  simp only [execAerError, if_true]
  exact ⟨_, rfl, State.raise_hif_aerCorr _ _ _ _ _, State.raise_hif_aerUncorr _ _ _ _ _, State.raise_hasEvent _ _ _ hev',
    hwords.raise (by decide) (List.Subset.refl _)⟩

theorem execAerError_uncorrectable {s : State} {kind : Fin 3} (bits : Word) (hk : kind ≠ 0) (hev : s.takesEvent 2) :
    ∃ t, execAerError kind bits s = .next t ∧ t.hif.aerUncorr = s.hif.aerUncorr ||| bits ∧ t.hif.aerCorr = s.hif.aerCorr
      ∧ t.hasEvent 2 kind.val 0xFFFF ∧ s.OnlyWords t eventWords := by
  have hev' : State.takesEvent { s with hif := { s.hif with aerUncorr := s.hif.aerUncorr ||| bits } } 2 :=
    State.takesEvent_of_word hev rfl rfl
  have hwords : s.OnlyWords { s with hif := { s.hif with aerUncorr := s.hif.aerUncorr ||| bits } } eventWords := State.OnlyWords.refl s _
  simp only [execAerError, hk, if_false]
  exact ⟨_, rfl, State.raise_hif_aerUncorr _ _ _ _ _, State.raise_hif_aerCorr _ _ _ _ _, State.raise_hasEvent _ _ _ hev',
    hwords.raise (by decide) (List.Subset.refl _)⟩

/-! ## Doorbells -/

/-- A stale doorbell of a ring whose count lies in one of the 64 registers `f`. -/
theorem State.staleDoorbell_counts {s : State} {f : Fld} {r : Nat} (hr : r < 64) (hf : f.NoEvent 64) (hlo : f.lo + f.width ≤ 32)
    (hw : f.width = 16) (hoff : F.HIF_EVT_MAP_enable.Off f 128 64) (hev : s.takesEvent 3) (code why : Nat) (v : Word) :
    (s.staleDoorbell f r code why v).rd f r = min 65535 (s.rd f r + 1) ∧ (s.staleDoorbell f r code why v).hasEvent 3 code r
      ∧ (s.staleDoorbell f r code why v).hif.sq = s.hif.sq ∧ (s.staleDoorbell f r code why v).hif.cq = s.hif.cq
      ∧ s.OnlyWords (s.staleDoorbell f r code why v) (f.addr r 0 :: eventWords) := by
  unfold State.staleDoorbell
  refine ⟨?_, State.raise_hasEvent _ _ _ ?_, State.raise_hif_sq _ _ _ _ _, State.raise_hif_cq _ _ _ _ _, ?_⟩
  · rw [State.raise_rd_below _ _ _ _ (by decide) hr hf, State.rd_bump_same _ hlo, hw]
    rfl
  · exact State.takesEvent_wr hev (Fld.addr_ne_of_off (by decide) hr hoff)
  · exact State.OnlyWords.raise (State.OnlyWords.wr (State.OnlyWords.refl s _) List.mem_cons_self) (by decide)
      (List.subset_cons_self _ _)

theorem State.badDoorbell_counts {s : State} (r code : Nat) (v : Word) (hev : s.takesEvent 4) :
    (s.badDoorbell r code v).rd F.HIF_ACC_ERR_bad_doorbell = min 65535 (s.rd F.HIF_ACC_ERR_bad_doorbell + 1)
      ∧ (s.badDoorbell r code v).hasEvent 4 code r ∧ (s.badDoorbell r code v).hif.sq = s.hif.sq
      ∧ s.OnlyWords (s.badDoorbell r code v) (0x10008 :: eventWords) := by
  unfold State.badDoorbell
  refine ⟨?_, State.raise_hasEvent _ _ _ (State.takesEvent_wr hev (by decide)), State.raise_hif_sq _ _ _ _ _, ?_⟩
  · rw [State.raise_rd _ _ _ _ (by decide) (by decide), State.rd_bump_same _ (by decide)]
    rfl
  · exact State.OnlyWords.raise (State.OnlyWords.wr (State.OnlyWords.refl s _) List.mem_cons_self) (by decide)
      (List.subset_cons_self _ _)

section Submission
variable {s : State} {r : Fin 64} {v : Word}

theorem execSubmissionDoorbell_stale (h : v.toNat / 2 ^ 16 ≠ s.rd F.HIF_SQ_EPOCH_epoch r ∨ s.on F.HIF_SQ_CTL_enable r = false) :
    ∃ why, execSubmissionDoorbell r v s = .next (s.staleDoorbell F.HIF_SQ_ERR_stale r 1 why v) := by
  unfold execSubmissionDoorbell
  by_cases hepoch : v.toNat / 2 ^ 16 ≠ s.rd F.HIF_SQ_EPOCH_epoch r
  · exact ⟨1, if_pos hepoch⟩
  · have hoff := h.resolve_left hepoch
    exact ⟨2, by simp only [hepoch, hoff, Bool.not_false, if_false, if_true]⟩

variable (hepoch : v.toNat / 2 ^ 16 = s.rd F.HIF_SQ_EPOCH_epoch r) (hon : s.on F.HIF_SQ_CTL_enable r = true)
include hepoch hon

theorem execSubmissionDoorbell_beyond (h : s.sqSize r ≤ v.toNat % 2 ^ 16) :
    execSubmissionDoorbell r v s = .next (s.badDoorbell r 3 v) := by
  simp only [execSubmissionDoorbell, hepoch, hon, h, ne_eq, not_true_eq_false, Bool.not_true, Bool.false_eq_true, if_false, if_true]

theorem execSubmissionDoorbell_back (h : v.toNat % 2 ^ 16 < s.sqSize r)
    (hback : s.sqReady r (v.toNat % 2 ^ 16) < s.sqReady r (s.sq r).producer) :
    execSubmissionDoorbell r v s = .next ((s.bump F.HIF_SQ_ERR_regressive r).badDoorbell r 4 v) := by
  simp only [execSubmissionDoorbell, hepoch, hon, not_le.2 h, hback, ne_eq, not_true_eq_false, Bool.not_true, Bool.false_eq_true,
    if_false, if_true]

theorem execSubmissionDoorbell_forward (h : v.toNat % 2 ^ 16 < s.sqSize r)
    (hfwd : s.sqReady r (s.sq r).producer ≤ s.sqReady r (v.toNat % 2 ^ 16)) :
    execSubmissionDoorbell r v s = .next (s.setSq r { s.sq r with producer := v.toNat % 2 ^ 16 }) := by
  simp only [execSubmissionDoorbell, hepoch, hon, not_le.2 h, not_lt.2 hfwd, ne_eq, not_true_eq_false, Bool.not_true,
    Bool.false_eq_true, if_false]

end Submission

theorem execSubmissionDoorbell_regressive {s : State} {r : Fin 64} {v : Word} (hepoch : v.toNat / 2 ^ 16 = s.rd F.HIF_SQ_EPOCH_epoch r)
    (hon : s.on F.HIF_SQ_CTL_enable r = true) (h : v.toNat % 2 ^ 16 < s.sqSize r)
    (hback : s.sqReady r (v.toNat % 2 ^ 16) < s.sqReady r (s.sq r).producer) (hev : s.takesEvent 4) :
    ∃ t, execSubmissionDoorbell r v s = .next t
      ∧ t.rd F.HIF_SQ_ERR_regressive r = min (2 ^ F.HIF_SQ_ERR_regressive.width - 1) (s.rd F.HIF_SQ_ERR_regressive r + 1)
      ∧ t.rd F.HIF_ACC_ERR_bad_doorbell = min 65535 (s.rd F.HIF_ACC_ERR_bad_doorbell + 1) ∧ t.hasEvent 4 4 r
      ∧ t.hif.sq = s.hif.sq := by
  have hev' : (s.bump F.HIF_SQ_ERR_regressive r).takesEvent 4 :=
    State.takesEvent_wr hev (Fld.addr_ne_of_off (m := 128) (by decide) r.isLt (by decide))
  have hbad : F.HIF_ACC_ERR_bad_doorbell.addr 0 0 ≠ F.HIF_SQ_ERR_regressive.addr r 0 :=
    Fld.addr_ne_of_off (m := 1) (by decide) r.isLt (by decide)
  obtain ⟨hcount, hevent, hsq, hwords⟩ := State.badDoorbell_counts r 4 v hev'
  refine ⟨_, execSubmissionDoorbell_back hepoch hon h hback, ?_, ?_, hevent, hsq⟩
  · rw [hwords.rd, State.rd_bump_same _ (by decide)]
    simp only [Fld.addr, F.HIF_SQ_ERR_regressive, eventWords, List.mem_cons, List.not_mem_nil, or_false]
    omega
  · rw [hcount, State.bump_eq, State.rd_wr_ne _ hbad]

section Completion
variable {s : State} {q : Fin 64} {v : Word}

theorem execCompletionDoorbell_stale (h : v.toNat / 2 ^ 16 ≠ s.rd F.HIF_CQ_EPOCH_epoch q ∨ s.on F.HIF_CQ_CTL_enable q = false) :
    ∃ why, execCompletionDoorbell q v s = .next (s.staleDoorbell F.HIF_CQ_ERR_stale q 2 why v) := by
  unfold execCompletionDoorbell
  by_cases hepoch : v.toNat / 2 ^ 16 ≠ s.rd F.HIF_CQ_EPOCH_epoch q
  · exact ⟨1, if_pos hepoch⟩
  · have hoff := h.resolve_left hepoch
    exact ⟨2, by simp only [hepoch, hoff, Bool.not_false, if_false, if_true]⟩

theorem execCompletionDoorbell_forward (hepoch : v.toNat / 2 ^ 16 = s.rd F.HIF_CQ_EPOCH_epoch q) (hon : s.on F.HIF_CQ_CTL_enable q = true)
    (h : v.toNat % 2 ^ 16 < s.cqSize q) (hfwd : ringDist (s.cqSize q) (s.cq q).consumer (v.toNat % 2 ^ 16) ≤ s.unconsumed q) :
    execCompletionDoorbell q v s =
      .next (((s.setCq q { s.cq q with consumer := v.toNat % 2 ^ 16 }).syncFull q).settleCq q (s.cqBlocked q)) := by
  simp only [execCompletionDoorbell, hepoch, hon, not_le.2 h, not_lt.2 hfwd, ne_eq, not_true_eq_false, Bool.not_true,
    Bool.false_eq_true, if_false]

end Completion

/-- Settles O9: the reset of the host interface through what each of its steps writes, the link by its state, and each doorbell by
what it finds wrong. -/
theorem linkAndDoorbells : Obligations.LinkAndDoorbells := by
  unfold Obligations.LinkAndDoorbells
  refine ⟨⟨fun s => ⟨s.hifReset, rfl, ?_⟩, fun s => rfl, fun s => rfl, fun s sp w => execPcieLinkChange_rises sp w,
      fun s sp w => execPcieLinkChange_changes, fun s sp w => execPcieLinkChange_falls sp w, fun s bits => execAerError_correctable bits,
      fun s kind bits => execAerError_uncorrectable bits⟩,
    fun s r v => execSubmissionDoorbell_forward, fun s r v hstale hev => ?_, fun s r v hepoch hon hbeyond hev => ?_,
    fun s r v => execSubmissionDoorbell_regressive, fun s q v => execCompletionDoorbell_forward, fun s q v hstale hev => ?_⟩
  · obtain ⟨hsq, hcq, hdesc, hcompl, hvector, hd3hot⟩ := s.hifReset_empty
    exact ⟨hsq, hcq, hdesc, hcompl, hvector, hd3hot,
      fun r hr => ⟨s.hifReset_ring (.inl rfl) hr, s.hifReset_ring (.inr (.inl rfl)) hr, s.hifReset_ring (.inr (.inr rfl)) hr⟩,
      fun v hv => s.hifReset_mask hv, s.hifReset_unlock⟩
  · obtain ⟨why, hexec⟩ := execSubmissionDoorbell_stale hstale
    obtain ⟨hcount, hevent, hsq, -, hwords⟩ :=
      State.staleDoorbell_counts (f := F.HIF_SQ_ERR_stale) r.isLt (by decide) (by decide) rfl (by decide) hev 1 why v
    exact ⟨_, hexec, hcount, hevent, hsq, hwords⟩
  · obtain ⟨hcount, hevent, hsq, hwords⟩ := State.badDoorbell_counts r 3 v hev
    exact ⟨_, execSubmissionDoorbell_beyond hepoch hon hbeyond, hcount, hevent, hsq, hwords⟩
  · obtain ⟨why, hexec⟩ := execCompletionDoorbell_stale hstale
    obtain ⟨hcount, hevent, -, hcq, hwords⟩ :=
      State.staleDoorbell_counts (f := F.HIF_CQ_ERR_stale) q.isLt (by decide) (by decide) rfl (by decide) hev 2 why v
    exact ⟨_, hexec, hcount, hevent, hcq, hwords⟩

end Sys2Proof.Machine

/-! What the scheduling trace and the counters of the Hive leave alone. -/

namespace Sys2Proof.Machine

namespace State

variable {s t u : State}

theorem OnlyWords.ite {l : List Nat} {c : Prop} [Decidable c] (h : s.OnlyWords t l) (h' : s.OnlyWords u l) :
    s.OnlyWords (if c then t else u) l := by split <;> assumption

theorem OnlyWords.foldl {α : Type} {l : List Nat} {xs : List α} {f : State → α → State} (h : s.OnlyWords t l)
    (hf : ∀ (t : State) a, s.OnlyWords t l → s.OnlyWords (f t a) l) : s.OnlyWords (xs.foldl f t) l :=
  foldl_holds (P := fun t => s.OnlyWords t l) (fun t a _ ht => hf t a ht) h

/-- A change outside the registers. -/
theorem OnlyWords.same {l : List Nat} (h : s.OnlyWords t l) (hregs : u.regs = t.regs) (hcopies : u.glb.t3copies = t.glb.t3copies) :
    s.OnlyWords u l := fun off hoff => by
  have hword : u.word off = t.word off := by simp only [word, copies, hregs, hcopies]
  rw [hword, h off hoff]

/-! ## The scheduling trace -/

/-- The registers that a trace record may write: HIV_TRC_STAT, HIV_TRC_LOST, and those of source 19. -/
def traceWords : List Nat := 0x2004C :: 0x20050 :: eventWords

/-- Everything is as before but the registers, copies of registers, what events change, trace staging and the trace buffer. -/
def SameButTrace (s t : State) : Prop :=
  t = { s with regs := t.regs, glb := { s.glb with t3copies := t.glb.t3copies },
               hif := { s.hif with events := t.hif.events, lostOwed := t.hif.lostOwed },
               wax := { s.wax with hist := t.wax.hist, queue := t.wax.queue },
               hive := { s.hive with trace := t.hive.trace }, ddr := t.ddr }

theorem SameButTrace.refl (s : State) : s.SameButTrace s := rfl

theorem SameButTrace.trans (h : s.SameButTrace t) (h' : t.SameButTrace u) : s.SameButTrace u := by
  unfold SameButTrace at *
  rw [h', h]

theorem SameButTrace.wr (h : s.SameButTrace t) (f : Fld) (v i j : Nat) : s.SameButTrace (t.wr f v i j) := h.trans rfl

theorem SameButTrace.raise (h : s.SameButTrace t) (src code inst : Nat) (d : DWord) : s.SameButTrace (t.raise src code inst d) := by
  have hblocks := t.raise_blocks (src := src) code inst d
  unfold SameButEvents at hblocks
  refine h.trans ?_
  unfold SameButTrace
  conv_lhs => rw [hblocks]
  rw [raise_hive, raise_ddr]

theorem SameButTrace.ite {c : Prop} [Decidable c] (h : s.SameButTrace t) (h' : s.SameButTrace u) :
    s.SameButTrace (if c then t else u) := by split <;> assumption

theorem SameButTrace.foldl {α : Type} {xs : List α} {f : State → α → State} (h : s.SameButTrace t)
    (hf : ∀ (t : State) a, s.SameButTrace t → s.SameButTrace (f t a)) : s.SameButTrace (xs.foldl f t) :=
  foldl_holds (P := s.SameButTrace) (fun t a _ ht => hf t a ht) h

theorem SameButTrace.traceLand (h : s.SameButTrace t) {r : List Byte} : s.SameButTrace (t.traceLand r) := by
  have hmem : s.SameButTrace { t with
      ddr := writeBytes t.ddr (t.rd64 F.HIV_TRC_BASE_LO_addr F.HIV_TRC_BASE_HI_addr + t.rd F.HIV_TRC_STAT_offset) r } := h.trans rfl
  unfold State.traceLand
  exact SameButTrace.ite (hmem.wr _ _ _ _) (SameButTrace.ite
    (SameButTrace.ite (((hmem.wr _ _ _ _).wr _ _ _ _).raise _ _ _ _) ((hmem.wr _ _ _ _).wr _ _ _ _))
    (((hmem.wr _ _ _ _).wr _ _ _ _).raise _ _ _ _))

variable (s)

theorem trace_blocks (kind prio ctx who source extra : Nat) : s.SameButTrace (s.trace kind prio ctx who source extra) := by
  have hdrain {r : List Byte} : s.SameButTrace (State.traceDrain { s with hive := { s.hive with trace := s.hive.trace ++ [r] } }) := by
    unfold State.traceDrain
    exact SameButTrace.ite (SameButTrace.foldl rfl fun _ _ h => h.traceLand) rfl
  unfold State.trace
  exact SameButTrace.ite rfl (SameButTrace.ite rfl (SameButTrace.ite rfl hdrain))

theorem trace_onlyWords (kind prio ctx who source extra : Nat) : s.OnlyWords (s.trace kind prio ctx who source extra) traceWords := by
  have hstat : ∀ f ∈ [F.HIV_TRC_STAT_offset, F.HIV_TRC_STAT_full, F.HIV_TRC_LOST_count], f.addr 0 0 ∈ traceWords := by decide
  have hev : eventWords ⊆ traceWords := fun _ h => List.mem_cons_of_mem _ (List.mem_cons_of_mem _ h)
  have hland (t : State) (r : List Byte) (h : s.OnlyWords t traceWords) : s.OnlyWords (t.traceLand r) traceWords := by
    have hmem : s.OnlyWords { t with
        ddr := writeBytes t.ddr (t.rd64 F.HIV_TRC_BASE_LO_addr F.HIV_TRC_BASE_HI_addr + t.rd F.HIV_TRC_STAT_offset) r } traceWords := h
    have hboth (v : Nat) := (hmem.wr (f := F.HIV_TRC_STAT_offset) (v := v) (hstat _ (by simp))).wr (f := F.HIV_TRC_STAT_full)
      (v := 1) (hstat _ (by simp))
    unfold State.traceLand
    exact OnlyWords.ite (hmem.wr (hstat _ (by simp))) (OnlyWords.ite (OnlyWords.ite ((hboth _).raise (by decide) hev) (hboth _))
      ((hboth _).raise (by decide) hev))
  have hdrain {r : List Byte} :
      s.OnlyWords (State.traceDrain { s with hive := { s.hive with trace := s.hive.trace ++ [r] } }) traceWords := by
    unfold State.traceDrain
    exact OnlyWords.ite (OnlyWords.foldl (OnlyWords.refl s _) hland) (OnlyWords.refl s _)
  unfold State.trace
  exact OnlyWords.ite (OnlyWords.refl s _) (OnlyWords.ite (OnlyWords.refl s _)
    (OnlyWords.ite (OnlyWords.wr (OnlyWords.refl s _) (hstat _ (by simp))) hdrain))

section
variable (kind prio ctx who source extra : Nat)

theorem trace_hive : (s.trace kind prio ctx who source extra).hive =
    { s.hive with trace := (s.trace kind prio ctx who source extra).hive.trace } := congrArg State.hive (s.trace_blocks kind prio ctx who source extra)

@[simp] theorem trace_tick : (s.trace kind prio ctx who source extra).tick = s.tick := by rw [s.trace_blocks]
@[simp] theorem trace_anvil : (s.trace kind prio ctx who source extra).anvil = s.anvil := by rw [s.trace_blocks]
@[simp] theorem trace_free : (s.trace kind prio ctx who source extra).free = s.free := by rw [s.trace_blocks]
@[simp] theorem trace_desc : (s.trace kind prio ctx who source extra).hif.desc = s.hif.desc := by rw [s.trace_blocks]
@[simp] theorem trace_compl : (s.trace kind prio ctx who source extra).hif.compl = s.hif.compl := by rw [s.trace_blocks]
@[simp] theorem trace_items : (s.trace kind prio ctx who source extra).hive.items = s.hive.items := by rw [s.trace_blocks]
@[simp] theorem trace_timers : (s.trace kind prio ctx who source extra).hive.timers = s.hive.timers := by rw [s.trace_blocks]
@[simp] theorem trace_nextHandle : (s.trace kind prio ctx who source extra).hive.nextHandle = s.hive.nextHandle := by
  rw [s.trace_blocks]
@[simp] theorem trace_hive_core : (s.trace kind prio ctx who source extra).hive.core = s.hive.core := by rw [s.trace_blocks]
@[simp] theorem trace_core (c : Nat) : (s.trace kind prio ctx who source extra).core c = s.core c := by
  rw [core, trace_hive_core, ← core]

theorem trace_word {off : Nat} (h : off ∉ traceWords) : (s.trace kind prio ctx who source extra).word off = s.word off :=
  s.trace_onlyWords kind prio ctx who source extra off h

theorem trace_rd {f : Fld} {i j : Nat} (h : f.addr i j ∉ traceWords) :
    (s.trace kind prio ctx who source extra).rd f i j = s.rd f i j := by rw [rd, rd, s.trace_word _ _ _ _ _ _ h]

/-- Nothing is traced while tracing is off. -/
theorem trace_off (h : s.on F.HIV_TRC_CTL_enable = false) : s.trace kind prio ctx who source extra = s := by
  simp only [trace, h, Bool.not_false, Bool.true_or, if_true]

end

/-- The registers of contexts and engines are none that a trace record writes. -/
theorem notMem_traceWords {off : Nat} (h : off < 0x13200 ∨ 0x13210 < off ∧ off < 0x2004C ∨ 0x20050 < off ∧ off < 0x1C0004 ∨ 0x1C0024 < off) :
    off ∉ traceWords := by
  simp only [traceWords, eventWords, List.mem_cons, List.not_mem_nil, or_false]
  omega

/-! ## The counters of the Hive -/

/-- The registers that show the lists of the Hive. -/
def hiveWords : List Nat := [0x20004, 0x2002C, 0x20034, 0x48004, 0x20030]

theorem syncHive_onlyWords : s.OnlyWords s.syncHive hiveWords := by
  have hmem : ∀ f ∈ [F.HIV_STAT_fw_share, F.HIV_STAT_ring_share, F.HIV_STAT_spilling, F.HIV_SPILL_STAT_count, F.HIV_SPILL_HIGH_high,
    F.ANV_GSTAT_planner_ready, F.HIV_DLY_STAT_used, F.HIV_DLY_STAT_high], f.addr 0 0 ∈ hiveWords := by decide
  unfold syncHive
  iterate 8 refine OnlyWords.wr ?_ (hmem _ (by simp))
  exact OnlyWords.refl s _

theorem syncHive_onlyRegs : s.OnlyRegs s.syncHive := by
  unfold syncHive
  iterate 8 refine OnlyRegs.wr ?_ _ _ _ _
  exact OnlyRegs.refl s

@[simp] theorem syncHive_hive : s.syncHive.hive = s.hive := rfl
@[simp] theorem syncHive_core (c : Nat) : s.syncHive.core c = s.core c := rfl
@[simp] theorem syncHive_hif : s.syncHive.hif = s.hif := rfl
@[simp] theorem syncHive_tick : s.syncHive.tick = s.tick := rfl
@[simp] theorem syncHive_free : s.syncHive.free = s.free := rfl
@[simp] theorem syncHive_anvil : s.syncHive.anvil = s.anvil := rfl

theorem syncHive_rd {f : Fld} {i j : Nat} (h : f.addr i j ∉ hiveWords) : s.syncHive.rd f i j = s.rd f i j :=
  s.syncHive_onlyWords.rd h

/-- The registers of contexts are none that show the lists of the Hive. -/
theorem notMem_hiveWords {off : Nat} (h : off < 0x20004 ∨ 0x20034 < off ∧ off < 0x48004 ∨ 0x48004 < off) : off ∉ hiveWords := by
  simp only [hiveWords, List.mem_cons, List.not_mem_nil, or_false]
  omega

/-! ## Cores -/

@[simp] theorem core_setCore_same (c : Nat) (v : Core) : (s.setCore c v).core c = v := lookup_store_same _ _ _

theorem core_setCore_ne {c k : Nat} (v : Core) (h : k ≠ c) : (s.setCore c v).core k = s.core k := lookup_store_ne _ _ h

theorem core_raise (src code inst : Nat) (d : DWord) (c : Nat) : (s.raise src code inst d).core c = s.core c := by
  rw [core, raise_hive, ← core]

theorem core_wr (f : Fld) (v i j c : Nat) : (s.wr f v i j).core c = s.core c := rfl

end State

end Sys2Proof.Machine

/-! Proofs about the Hive's own commands (O12). -/

namespace Sys2Proof.Machine

theorem execHiveDispatch_dispatches {s : State} {it : Item} {c : Nat} (hon : s.on F.HIV_CTL_enable = true) (hmode : s.mode ≠ 5)
    (horphan : s.dropOrphans = s)
    (hnext : (s.served.filter s.eligible).findSome? (fun it => (s.coreFor it).map fun c => (it, c)) = some (it, c))
    (hchip : it.spilled = false) : execHiveDispatch s = .next (s.dispatchTo it c) := by
  have hcond : (!s.on F.HIV_CTL_enable || s.mode == 5) = false := by simp [hon, hmode]
  simp only [execHiveDispatch, State.dispatch, hcond, horphan, hnext, hchip, Bool.false_eq_true, if_false, Bool.not_false, if_true]

theorem State.dispatch_off {s : State} (h : s.on F.HIV_CTL_enable = false) : s.dispatch = s := by
  simp only [State.dispatch, h, Bool.not_false, Bool.true_or, if_true]

theorem execAffinityWaitExpiry_waits {s : State} {q : Word} {it : Item}
    (hfind : s.hive.items.find? (fun it => it.seq == q.toNat && !it.anvil && !it.waited) = some it) (hcore : s.coreFor it = none)
    (hoff : s.on F.HIV_CTL_enable = false) :
    ∃ t, execAffinityWaitExpiry q s = .next t ∧ it.ready + fab (min 16000 (s.rd F.HIV_AFF_wait)) ≤ t.tick
      ∧ t.hive.items = s.hive.items.map fun j => if j.seq = it.seq then { j with waited := true } else j := by
  simp only [execAffinityWaitExpiry, hfind, hcore, Option.isSome_none, Bool.false_eq_true, if_false]
  generalize it.ready + fab (min 16000 (s.rd F.HIV_AFF_wait)) = w
  generalize hl : (s.hive.items.map fun j => if j.seq = it.seq then { j with waited := true } else j) = l
  have hmapped : ((s.advanceTo w).hive.items.map fun j => if j.seq = it.seq then { j with waited := true } else j) = l := hl
  simp only [hmapped]
  generalize hu : ({ s.advanceTo w with hive := { (s.advanceTo w).hive with items := l } } : State) = u
  have hitems : u.hive.items = l := by rw [← hu]
  have htick : u.tick = (s.advanceTo w).tick := by rw [← hu]
  have hctl : u.on F.HIV_CTL_enable = false := by rw [← hu]; exact hoff
  rw [State.dispatch_off]
  · refine ⟨_, rfl, ?_, ?_⟩
    · rw [State.trace_tick, htick]
      exact s.le_advanceTo_tick w
    · rw [State.trace_items, hitems]
  · rw [State.on, u.trace_rd _ _ _ _ _ _ (by decide)]
    exact hctl

theorem execRunLimitExpiry_interrupts {s : State} {c : Fin 32} {it : Item} (hitem : (s.core c).item = some it)
    (hlimit : (s.core c).limitAt = none) (hanvil : it.anvil = false) :
    ∃ t, execRunLimitExpiry c s = .next t ∧ (t.core c).limitAt = some t.tick ∧ (t.core c).limitIrq = true
      ∧ (t.core c).item = some it ∧ (s.core c).start + us (s.rd F.HIV_CTX9_run_limit it.ctx) ≤ t.tick
      ∧ ∀ k, k ≠ c.val → t.core k = s.core k := by
  simp only [execRunLimitExpiry, hitem, hlimit, hanvil, Option.isSome_none, Bool.false_eq_true, or_self, if_false]
  generalize (s.core c).start + us (s.rd F.HIV_CTX9_run_limit it.ctx) = w
  refine ⟨_, rfl, ?_, ?_, ?_, ?_, fun k hk => ?_⟩
  · simp only [State.trace_core, State.core_raise, State.core_setCore_same, State.trace_tick, State.raise_tick, State.setCore_tick]
  · simp only [State.trace_core, State.core_raise, State.core_setCore_same]
  · simp only [State.trace_core, State.core_raise, State.core_setCore_same]
  · simp only [State.trace_tick, State.raise_tick, State.setCore_tick]
    exact s.le_advanceTo_tick w
  · rw [State.trace_core, State.core_raise, State.core_setCore_ne _ _ hk]
    rfl

theorem State.core_dropStall_ne (s : State) {c k : Nat} (h : k ≠ c) : (s.dropStall c).core k = s.core k := by
  unfold State.dropStall
  rw [State.core_setCore_ne _ _ h]
  split <;> rfl

theorem execCoreReset_resets {s : State} {c : Fin 32} {w : Nat} {it : Item} (hlimit : (s.core c).limitAt = some w)
    (hitem : (s.core c).item = some it) :
    ∃ t, execCoreReset c s = .next t ∧ (t.core c).inReset = true ∧ (t.core c).item = none
      ∧ (t.core c).epoch = ((s.core c).epoch + 1) % 16 ∧ t.rd F.HIV_CTX0_state it.ctx = 3 ∧ w + us 10 ≤ t.tick
      ∧ ∀ k, k ≠ c.val → t.core k = s.core k := by
  simp only [execCoreReset, hlimit]
  generalize w + us 10 = a
  generalize hu : s.advanceTo a = u
  have hcore (k : Nat) : u.core k = s.core k := by rw [← hu]; rfl
  have htick : a ≤ u.tick := by rw [← hu]; exact s.le_advanceTo_tick a
  have hstall : (u.dropStall c).tick = u.tick := by
    unfold State.dropStall
    rw [State.setCore_tick]
    split <;> rfl
  simp only [State.resetCore, hcore, hitem]
  refine ⟨_, rfl, ?_, ?_, ?_, ?_, ?_, fun k hk => ?_⟩
  · rw [State.core_wr, State.core_wr, State.core_setCore_same]
  · rw [State.core_wr, State.core_wr, State.core_setCore_same]
  · rw [State.core_wr, State.core_wr, State.core_setCore_same]
  · rw [State.rd_wr_sep _ (by decide), State.rd_wr_same _ (by decide)]
    rfl
  · rw [State.wr_tick, State.wr_tick, State.setCore_tick, hstall]
    exact htick
  · rw [State.core_wr, State.core_wr, State.core_setCore_ne _ _ hk, State.core_dropStall_ne _ hk, hcore]

theorem State.releaseDue_two {s : State} {t u : Timer} (htimers : s.hive.timers = [t, u]) (ht : 0 ≤ cellDiff s.cellNs t.wake)
    (hu : 0 ≤ cellDiff s.cellNs u.wake) (hlt : u.wake < t.wake) (hroom : s.fwRoom = true) (hroom' : (s.releaseTimer u).fwRoom = true) :
    s.releaseDue = (s.releaseTimer u).releaseTimer t := by
  have hdue : (s.hive.timers.filter fun t => 0 ≤ cellDiff s.cellNs t.wake) = [t, u] := by simp [htimers, ht, hu]
  simp [State.releaseDue, hdue, insertTimer, not_le.2 hlt, hroom, hroom']

/-! ## Refill -/

/-- Only the number `it.seq` returns on chip. -/
def unspill (l : List Item) (it : Item) : List Item := l.map fun j => if j.seq = it.seq then { j with spilled := false } else j

theorem State.refill_untraced {s : State} (h : s.on F.HIV_TRC_CTL_enable = false) (it : Item) :
    s.refill it = State.syncHive { s with hive := { s.hive with items := unspill s.hive.items it } } := by
  have hoff : (State.syncHive { s with hive := { s.hive with items := unspill s.hive.items it } }).on F.HIV_TRC_CTL_enable = false := by
    rw [State.on, State.syncHive_rd _ (by decide)]
    exact h
  exact State.trace_off _ _ _ _ _ _ _ hoff

/-- The items once those of a list have returned on chip. -/
theorem foldl_unspill (back l : List Item) :
    back.foldl unspill l = l.map fun j => if back.any (·.seq == j.seq) then { j with spilled := false } else j := by
  induction back generalizing l with
  | nil => simp
  | cons b back ih =>
    rw [List.foldl_cons, ih, unspill, List.map_map]
    refine List.map_congr_left fun j _ => ?_
    simp only [Function.comp, List.any_cons]
    by_cases hj : j.seq = b.seq
    · simp only [hj, if_true, beq_self_eq_true, Bool.true_or]
      split <;> rfl
    · have hne : (b.seq == j.seq) = false := beq_eq_false_iff_ne.2 (Ne.symm hj)
      simp only [hj, if_false, hne, Bool.false_or]

/-- The counters of the Hive leave back-pressure alone. -/
theorem State.syncHive_backpressure (s : State) : s.syncHive.rd F.HIV_STAT_backpressure = s.rd F.HIV_STAT_backpressure := by
  simp only [State.syncHive, State.put_eq]
  iterate 8 rw [State.rd_wr_disjoint _ (by decide)]

/-- Refills while nothing is traced change the items and the registers that show them. -/
theorem State.foldl_refill {s : State} (back : List Item) (h : s.on F.HIV_TRC_CTL_enable = false) :
    (back.foldl (fun s it => s.refill it) s).hive = { s.hive with items := back.foldl unspill s.hive.items }
    ∧ (back.foldl (fun s it => s.refill it) s).rd F.HIV_STAT_backpressure = s.rd F.HIV_STAT_backpressure := by
  induction back generalizing s with
  | nil => exact ⟨rfl, rfl⟩
  | cons b back ih =>
    rw [List.foldl_cons, State.refill_untraced h, List.foldl_cons]
    generalize hu : ({ s with hive := { s.hive with items := unspill s.hive.items b } } : State) = u
    have hhive : u.hive = { s.hive with items := unspill s.hive.items b } := by rw [← hu]
    have hrd (f : Fld) : u.rd f = s.rd f := by rw [← hu]; rfl
    have hoff : u.syncHive.on F.HIV_TRC_CTL_enable = false := by
      rw [State.on, State.syncHive_rd _ (by decide), hrd]
      exact h
    obtain ⟨hfold, hback⟩ := ih hoff
    rw [hfold, hback, State.syncHive_backpressure, State.syncHive_hive, hhive, hrd]
    exact ⟨rfl, rfl⟩

/-- The Hive settles without a spilled item, without back-pressure and without a stalled submission. -/
theorem State.hiveSettle_quiet {s : State} (hitems : ∀ it ∈ s.hive.items, it.spilled = false)
    (hpressure : s.on F.HIV_STAT_backpressure = false) (hstall : ∀ c, c < 32 → (s.core c).stalled = none) :
    s.hiveSettle = s.syncHive := by
  have hfilter : (s.syncHive.hive.items.filter fun it => it.spilled && s.syncHive.isHead it) = [] :=
    List.filter_eq_nil_iff.2 fun it hit => by simp [hitems it hit]
  have hheads : s.syncHive.returnHeads = s.syncHive := by
    rw [State.returnHeads, hfilter]
    split <;> rfl
  have hback : s.syncHive.on F.HIV_STAT_backpressure = false := by
    rw [State.on, State.syncHive_backpressure]
    exact hpressure
  have hoff : s.syncHive.pressureOff = s.syncHive := by
    rw [State.pressureOff, hback, Bool.false_and, if_neg Bool.false_ne_true]
  have hunstall : s.syncHive.unstall = s.syncHive := by
    refine foldl_holds (P := (· = s.syncHive)) (fun t c hc ht => ?_) rfl
    subst ht
    rw [State.syncHive_core, hstall c (List.mem_range.1 hc)]
  rw [State.hiveSettle, hheads, hoff, hunstall]

theorem execSpillRefill_refills {s : State} {ring : Bool} (hchip : s.onChip ring ≤ 1536) (hddr : s.ddrServes = true)
    (htrc : s.on F.HIV_TRC_CTL_enable = false) (hspill : s.inSpill ring ≤ 512)
    (hseq : ∀ it ∈ s.hive.items, ∀ j ∈ s.hive.items, it.seq = j.seq → it = j)
    (hring : ∀ it ∈ s.hive.items, it.spilled = true → it.ringShare = ring) :
    ∃ t, execSpillRefill ring s = .next t ∧ (s.on F.HIV_STAT_backpressure = false → (∀ c, c < 32 → (s.core c).stalled = none) →
      t.hive.items = s.hive.items.map fun it => if it.ringShare = ring then { it with spilled := false } else it) := by
  have hcond : ¬ (1536 < s.onChip ring ∨ (!s.ddrServes) = true) := by simp [hddr, hchip]
  have hall : ((s.hive.items.filter fun it => it.ringShare == ring && it.spilled).take (2048 - s.onChip ring))
      = s.hive.items.filter fun it => it.ringShare == ring && it.spilled := List.take_of_length_le (by
    have hlen : (s.hive.items.filter fun it => it.ringShare == ring && it.spilled).length ≤ 512 := hspill
    omega)
  simp only [execSpillRefill, hcond, if_false, hall]
  refine ⟨_, rfl, fun hpressure hstall => ?_⟩
  generalize hback : (s.hive.items.filter fun it => it.ringShare == ring && it.spilled) = back
  obtain ⟨hhive, hbp⟩ := State.foldl_refill back htrc
  generalize hu : back.foldl (fun s it => s.refill it) s = u at hhive hbp
  have hany {j : Item} (hj : j ∈ s.hive.items) : back.any (·.seq == j.seq) = (j.ringShare == ring && j.spilled) := by
    rw [Bool.eq_iff_iff]
    constructor
    · intro h
      obtain ⟨b, hb, hbj⟩ := List.any_eq_true.1 h
      obtain ⟨hbin, hbspill⟩ := List.mem_filter.1 (hback ▸ hb)
      exact hseq b hbin j hj (beq_iff_eq.1 hbj) ▸ hbspill
    · exact fun h => List.any_eq_true.2 ⟨j, hback ▸ List.mem_filter.2 ⟨hj, h⟩, beq_self_eq_true _⟩
  have hitems : u.hive.items = s.hive.items.map fun it => if it.ringShare = ring then { it with spilled := false } else it := by
    rw [hhive]
    refine (foldl_unspill back _).trans (List.map_congr_left fun j hj => ?_)
    rw [hany hj]
    by_cases hr : j.ringShare = ring
    · cases hs : j.spilled
      · simp only [hr, Bool.and_false, Bool.false_eq_true, if_false, if_true]
        rw [← hs]
      · simp only [hr, beq_self_eq_true, Bool.and_true, if_true]
    · simp only [hr, beq_eq_false_iff_ne.2 hr, Bool.false_and, Bool.false_eq_true, if_false]
  have hquiet : u.hiveSettle = u.syncHive := by
    refine State.hiveSettle_quiet (fun it hit => ?_) ?_ fun c hc => ?_
    · obtain ⟨j, hj, rfl⟩ := List.mem_map.1 (hitems ▸ hit)
      split
      · rfl
      · next hne => exact Bool.eq_false_iff.2 fun hs => hne (hring j hj hs)
    · rw [State.on, hbp]
      exact hpressure
    · rw [State.core, hhive]
      exact hstall c hc
  rw [hquiet, State.syncHive_hive, hitems]

/-- Settles O12: each command of the Hive by what it finds, and a refill item by item. -/
theorem hiveCommands : Obligations.HiveCommands := by
  unfold Obligations.HiveCommands
  refine ⟨fun s it c => execHiveDispatch_dispatches, fun s q it => execAffinityWaitExpiry_waits,
    fun s c it hitem hlimit hanvil _ => execRunLimitExpiry_interrupts hitem hlimit hanvil, fun s c w it => execCoreReset_resets,
    fun s c hreset hmode => ?_, fun s hon hmode htick => ?_, fun s t u => State.releaseDue_two, fun s ring => execSpillRefill_refills⟩
  · change execCoreRejoin c s = _
    simp [execCoreRejoin, hreset, hmode]
  · change execHiveTick s = _
    simp [execHiveTick, hon, hmode, htick]

end Sys2Proof.Machine

/-! Proofs about the CSRs of a Forager core (O13). -/

namespace Sys2Proof.Machine

namespace State

variable {s : State}

/-! ## The end of an item -/

/-- The registers of a context that the end of its item writes, while nothing is traced. -/
def endedItem (s : State) (c : Nat) (it : Item) (how : Nat) : State :=
  let t := s.setCore c { s.core c with item := none, limitAt := none, dispatchIrq := false, limitIrq := false,
                                       endHow := how, endStatus := 0 }
  ((t.wr F.HIV_CTX0_running (s.rd F.HIV_CTX0_running it.ctx - 1) it.ctx).wr F.HIV_CTX10_runs
    (s.rd F.HIV_CTX10_runs it.ctx + 1) it.ctx)

/-- The end of an item while nothing is traced. -/
theorem endItem_untraced {c : Nat} {it : Item} (hanvil : it.anvil = false) (htrc : s.on F.HIV_TRC_CTL_enable = false)
    (how kind : Nat) : ∃ longest, s.endItem c it how kind = (s.endedItem c it how).wr F.HIV_CTX11_longest longest it.ctx := by
  have hruns (t : State) (v : Nat) : (t.wr F.HIV_CTX0_running v it.ctx).rd F.HIV_CTX10_runs it.ctx = t.rd F.HIV_CTX10_runs it.ctx :=
    t.rd_wr_sep (by decide)
  have hoff {v : Core} : (s.setCore c v).on F.HIV_TRC_CTL_enable = false := htrc
  simp only [endItem, trace_off _ _ _ _ _ _ _ hoff, hanvil, Bool.false_eq_true, if_false, hruns, setCore_rd]
  exact ⟨_, rfl⟩

theorem endedItem_runs (s : State) (c : Nat) (it : Item) (how : Nat) :
    (s.endedItem c it how).rd F.HIV_CTX10_runs it.ctx = (s.rd F.HIV_CTX10_runs it.ctx + 1) % 2 ^ 32 := rd_wr_same _ (by decide)

theorem endedItem_core (s : State) (c : Nat) (it : Item) (how : Nat) : (s.endedItem c it how).core c =
    { s.core c with item := none, limitAt := none, dispatchIrq := false, limitIrq := false, endHow := how, endStatus := 0 } :=
  s.core_setCore_same c _

/-! ## Timers -/

/-- A timer that finds room joins the delay lists. -/
theorem armTimer_room (h : s.hive.timers.length < 2048) (list ctx arg wake : Nat) (line : Option Nat) :
    ∃ h', s.armTimer list ctx arg wake line = (State.syncHive { s with hive := { s.hive with
        timers := s.hive.timers ++ [{ list := list, ctx := ctx, arg := arg, wake := wake, handle := s.hive.nextHandle, line := line }],
        nextHandle := h' } }, 0, s.hive.nextHandle) := by
  simp only [armTimer, not_le.2 h, if_false]
  exact ⟨_, rfl⟩

theorem armTimer_full (h : 2048 ≤ s.hive.timers.length) (list ctx arg wake : Nat) (line : Option Nat) :
    s.armTimer list ctx arg wake line = (s.raise 18 1, 4, 0) := by
  simp only [armTimer, h, if_true]

theorem coreArms_room (h : s.hive.timers.length < 2048) (c list ctx arg wake : Nat) :
    ((s.coreArms c list ctx arg wake).core c).timerStatus = 0
    ∧ ((s.coreArms c list ctx arg wake).core c).timerHandle = s.hive.nextHandle
    ∧ ∃ u, (s.coreArms c list ctx arg wake).hive.timers = s.hive.timers ++ [u] ∧ u.list = list ∧ u.ctx = ctx ∧ u.arg = arg ∧ u.wake = wake
      ∧ u.handle = s.hive.nextHandle := by
  simp only [coreArms]
  generalize (if s.linePriv ((s.core c).item.bind (·.line)) then (s.core c).item.bind (·.line) else none) = line
  obtain ⟨n, harm⟩ := armTimer_room h list ctx arg wake line
  rw [harm]
  dsimp only
  rw [core_setCore_same]
  exact ⟨rfl, rfl, _, rfl, rfl, rfl, rfl, rfl, rfl⟩

theorem coreArms_full (h : 2048 ≤ s.hive.timers.length) (hev : s.takesEvent 18) (c list ctx arg wake : Nat) :
    ((s.coreArms c list ctx arg wake).core c).timerStatus = 4 ∧ (s.coreArms c list ctx arg wake).hive.timers = s.hive.timers
    ∧ (s.coreArms c list ctx arg wake).hasEvent 18 1 0xFFFF := by
  simp only [coreArms, armTimer_full h]
  rw [core_setCore_same]
  generalize hu : s.raise 18 1 = u
  have htimers : u.hive.timers = s.hive.timers := by rw [← hu, raise_hive]
  have hevent : u.hasEvent 18 1 0xFFFF := by
    rw [← hu]
    exact raise_hasEvent _ _ _ hev
  exact ⟨rfl, htimers, hevent⟩

/-- The timers after an attempt to arm one. -/
theorem armTimer_rd {f : Fld} {i j : Nat} (h : f.addr i j ∉ hiveWords ++ eventWords) (list ctx arg wake : Nat) (line : Option Nat) :
    (s.armTimer list ctx arg wake line).1.rd f i j = s.rd f i j := by
  simp only [List.mem_append, not_or] at h
  simp only [armTimer]
  split <;> dsimp only
  · exact raise_rd _ _ _ _ (by decide) h.2
  · rw [syncHive_rd _ h.1]
    rfl

theorem armTimer_core (list ctx arg wake : Nat) (line : Option Nat) (c : Nat) :
    (s.armTimer list ctx arg wake line).1.core c = s.core c := by
  simp only [armTimer]
  split <;> dsimp only
  · exact core_raise _ _ _ _ _ _
  · rfl

theorem armFirst_rd {f : Fld} {i j : Nat} (h : f.addr i j ∉ hiveWords ++ eventWords) (ctx : Nat) :
    (s.armFirst ctx).rd f i j = s.rd f i j := by
  unfold armFirst
  split
  · rfl
  · exact armTimer_rd h _ _ _ _ _

theorem armFirst_core (ctx c : Nat) : (s.armFirst ctx).core c = s.core c := by
  unfold armFirst
  split
  · rfl
  · exact armTimer_core _ _ _ _ _ _

/-- A context that is not PERIODIC arms no release. -/
theorem armFirst_aperiodic {ctx : Nat} (h : s.on F.HIV_CTX0_periodic ctx = false) : s.armFirst ctx = s := by
  simp only [armFirst, h, Bool.not_false, Bool.true_or, if_true]

/-- The registers of a context. -/
theorem notMem_ctx {f : Fld} {x : Nat} (hx : x < 1024) (hf : 0x30000 ≤ f.off ∧ f.off < 0x30040 ∧ f.s1 = 0x40) :
    f.addr x 0 ∉ hiveWords ++ eventWords := by
  obtain ⟨hlo, hhi, hs⟩ := hf
  simp only [List.mem_append, not_or, Fld.addr, hs]
  exact ⟨notMem_hiveWords (by omega), notMem_eventWords (by omega)⟩

end State

/-! ## The commands -/

theorem execFgrEndSleep_sleeps {s : State} {c : Fin 32} {wake : DWord} {it : Item} (hitem : (s.core c).item = some it)
    (hanvil : it.anvil = false) (htrc : s.on F.HIV_TRC_CTL_enable = false) (htimers : s.hive.timers = []) :
    ∃ t, execFgrEndSleep c wake s = .next t ∧ (t.core c).item = none ∧ t.rd F.HIV_CTX0_state it.ctx = 2
      ∧ (∃ u, t.hive.timers = [u] ∧ u.list = 1 ∧ u.ctx = it.ctx ∧ u.wake = wake.toNat ∧ u.handle = s.hive.nextHandle)
      ∧ t.free = s.free + 1 := by
  have hcore {v : Core} : (s.setCore c v).core c = v := s.core_setCore_same c v
  generalize hv : ({ s.core c with wake := wake.toNat } : Core) = v
  have hvitem : v.item = some it := by rw [← hv]; exact hitem
  obtain ⟨longest, hend⟩ := State.endItem_untraced (s := s.setCore c v) (c := c) hanvil htrc 2 5
  generalize hu : ((s.setCore c v).endedItem c it 2).wr F.HIV_CTX11_longest longest it.ctx = u at hend
  have hutimers : u.hive.timers = [] := by rw [← hu]; exact htimers
  have hunext : u.hive.nextHandle = s.hive.nextHandle := by rw [← hu]; rfl
  have hufree : u.free = s.free := by rw [← hu]; rfl
  have huitem : (u.core c).item = none := by
    rw [← hu, State.core_wr, State.endedItem_core]
  simp only [execFgrEndSleep, hv, hcore, hvitem, hend, hutimers, List.any_nil, Bool.false_eq_true, if_false]
  generalize (if u.linePriv it.line then it.line else none) = line
  obtain ⟨n, harm⟩ := State.armTimer_room (s := u) (by rw [hutimers]; decide) 1 it.ctx u.freshDWord.toNat wake.toNat line
  rw [harm, hutimers, hunext]
  simp only [State.wr64]
  refine ⟨_, rfl, ?_, ?_, ⟨_, rfl, rfl, rfl, rfl, rfl⟩, congrArg (· + 1) hufree⟩
  · rw [State.core_wr, State.core_wr, State.core_wr]
    exact huitem
  rw [State.rd_wr_sep _ (by decide), State.rd_wr_sep _ (by decide), State.rd_wr_same _ (by decide)]
  rfl

theorem execFgrSubmit_queues {s : State} (c : Fin 32) {x : Fin 1024} (p : Fin 8) (a : Word) (hfree : s.ctxState x ≠ 0)
    (hfault : s.ctxState x ≠ 3) (hmask : s.rd F.HIV_CTX1_mask x ≠ 0) (hpressure : s.on F.HIV_STAT_backpressure = false)
    (hroom : s.fwRoom = true) : execFgrSubmit c x p a s = .next (State.newItem
      (s.setCore c { s.core c with submit := x.val + p.val * 2 ^ 16 + a.toNat * 2 ^ 32, submitStatus := 0 }) x p 0x40 a.toNat
        (if s.linePriv ((s.core c).item.bind (·.line)) then (s.core c).item.bind (·.line) else none)) := by
  simp only [execFgrSubmit, hfree, hfault, or_self, if_false, hmask, hpressure, hroom, Bool.not_true, Bool.or_self, Bool.false_eq_true]

theorem execFgrSubmit_refused {s : State} (c : Fin 32) {x : Fin 1024} (p : Fin 8) (a : Word)
    (h : s.ctxState x = 0 ∨ s.ctxState x = 3) :
    ∃ t, execFgrSubmit c x p a s = .next t ∧ (t.core c).submitStatus = 1 ∧ t.hive.items = s.hive.items := by
  simp only [execFgrSubmit, h, if_true]
  exact ⟨_, rfl, by rw [State.core_setCore_same], rfl⟩

theorem execTimerCancel_cancels {s : State} (c : Fin 32) {h : BitVec 16} {u : Timer}
    (hfind : s.hive.timers.find? (·.handle == h.toNat) = some u) :
    ∃ t, execTimerCancel c h s = .next t ∧ (t.core c).timerStatus = 0 ∧ t.hive.timers = s.hive.timers.filter (·.handle != u.handle) := by
  simp only [execTimerCancel, hfind]
  refine ⟨_, rfl, ?_, ?_⟩
  · rw [State.trace_core, State.core_setCore_same]
  · rw [State.trace_timers]
    rfl

theorem execTimerCancel_late {s : State} (c : Fin 32) {h : BitVec 16} (hfind : s.hive.timers.find? (·.handle == h.toNat) = none) :
    ∃ t, execTimerCancel c h s = .next t ∧ (t.core c).timerStatus = 5 ∧ t.hive.timers = s.hive.timers := by
  simp only [execTimerCancel, hfind]
  exact ⟨_, rfl, by rw [State.core_setCore_same], rfl⟩

theorem execContextSetFree_frees (s : State) (c : Fin 32) (x : Fin 1024) :
    ∃ t, execContextSetFree c x s = .next t ∧ t.rd F.HIV_CTX0_state x = 0 ∧ (t.core c).ctxsetStatus = 0
      ∧ t.hive.timers = s.hive.timers.filter (·.ctx != x.val) ∧ t.hive.items = s.hive.items := by
  have hne := State.notMem_ctx (f := F.HIV_CTX0_state) x.isLt (by decide)
  simp only [List.mem_append, not_or] at hne
  refine ⟨_, rfl, ?_, ?_, rfl, rfl⟩
  · rw [State.syncHive_rd _ hne.1, State.rd_wr_same _ (by decide)]
    rfl
  · rw [State.syncHive_core, State.core_wr]
    exact congrArg Core.ctxsetStatus (s.core_setCore_same c _)

/-- The state of a context once it is set ACTIVE. -/
theorem execContextSetActive_sets (s : State) (c : Fin 32) (x : Fin 1024) :
    ∃ t, execContextSetActive c x s = .next t
      ∧ t.rd F.HIV_CTX0_state x = (if s.on F.HIV_CTX0_mirrored x = true ∧ s.rd F.GLB_STAT_role = 2 then 4 else 1)
      ∧ (t.core c).ctxsetStatus = 0 ∧ (s.on F.HIV_CTX0_periodic x = false → t.hive.timers = s.hive.timers) := by
  refine ⟨_, rfl, ?_, ?_, fun hp => ?_⟩
  · rw [State.armFirst_rd (State.notMem_ctx x.isLt (by decide))]
    have hlt (b : Bool) : (if b then 4 else 1) < 2 ^ F.HIV_CTX0_state.width := by cases b <;> decide
    refine (State.rd_wr_lt _ (hlt _) (by decide)).trans ?_
    simp only [State.setCore_rd, State.on, Bool.and_eq_true, beq_iff_eq]
    exact if_congr Iff.rfl rfl rfl
  · rw [State.armFirst_core, State.core_wr, State.core_setCore_same]
  · rw [State.armFirst_aperiodic]
    · rfl
    · rw [State.on, State.rd_wr_sep _ (by decide)]
      exact hp

theorem execBackpressureTimeout_refuses {s : State} {c : Fin 32} {x p a : Nat} (h : (s.core c).stalled = some (x, p, a, false)) :
    ∃ t, execBackpressureTimeout c s = .next t ∧ (t.core c).stalled = none ∧ (t.core c).submitStatus = 3
      ∧ (s.core c).stalledAt + us 10 ≤ t.tick ∧ t.hive.items = s.hive.items := by
  simp only [execBackpressureTimeout, h, Bool.false_eq_true, if_false]
  generalize (s.core c).stalledAt + us 10 = w
  refine ⟨_, rfl, ?_, ?_, s.le_advanceTo_tick w, rfl⟩
  · rw [State.core_setCore_same]
  · rw [State.core_setCore_same]

/-- The first release of a PERIODIC context. -/
theorem execContextSetActive_arms {s : State} (c : Fin 32) {x : Fin 1024} (hper : s.on F.HIV_CTX0_periodic x = true)
    (hmir : s.on F.HIV_CTX0_mirrored x = false) (hrun : s.rd F.HIV_CTX0_running x = 0) (htimers : s.hive.timers = [])
    (hitems : s.hive.items = []) : ∃ t u, execContextSetActive c x s = .next t ∧ t.hive.timers = [u] ∧ u.list = 0 ∧ u.ctx = x.val
      ∧ u.wake = s.rd64 F.HIV_CTX6_wake_lo F.HIV_CTX7_wake_hi x ∧ u.handle = s.hive.nextHandle := by
  simp only [execContextSetActive, State.setCore_rd, State.on] at *
  simp only [hmir, Bool.false_and, Bool.false_eq_true, if_false]
  generalize hu : (s.setCore c { s.core c with ctxset := x.val + 2 ^ 12, ctxsetStatus := 0 }).wr F.HIV_CTX0_state 1 x = u
  have hst : u.ctxState x = 1 := by rw [← hu]; exact State.rd_wr_lt (v := 1) _ (by decide) (by decide)
  have hsep {f : Fld} (hf : f.Sep F.HIV_CTX0_state) : u.rd f x = s.rd f x := by rw [← hu, State.rd_wr_sep _ hf, State.setCore_rd]
  have huitems : u.hive.items = [] := by rw [← hu]; exact hitems
  have hutimers : u.hive.timers = [] := by rw [← hu]; exact htimers
  have hunext : u.hive.nextHandle = s.hive.nextHandle := by rw [← hu]; rfl
  have hwake : u.rd64 F.HIV_CTX6_wake_lo F.HIV_CTX7_wake_hi x = s.rd64 F.HIV_CTX6_wake_lo F.HIV_CTX7_wake_hi x := by
    rw [State.rd64, State.rd64, hsep (by decide), hsep (by decide)]
  have hfirst : u.armFirst x = (u.armTimer 0 x u.freshDWord.toNat (s.rd64 F.HIV_CTX6_wake_lo F.HIV_CTX7_wake_hi x) none).1.drawn := by
    simp only [State.armFirst, State.on, hsep (f := F.HIV_CTX0_periodic) (by decide), hper, hst,
      hsep (f := F.HIV_CTX0_running) (by decide), hrun, hutimers, huitems, List.any_nil, hwake]
    rfl
  obtain ⟨n, harm⟩ := State.armTimer_room (s := u) (by rw [hutimers]; decide) 0 x u.freshDWord.toNat
    (s.rd64 F.HIV_CTX6_wake_lo F.HIV_CTX7_wake_hi x) none
  rw [hfirst, harm, hutimers, hunext]
  exact ⟨_, _, rfl, rfl, rfl, rfl, rfl, rfl⟩

/-- Settles O13: each CSR operation of a core by the item it holds, the context it names and the room for its timer. -/
theorem foragerCommands : Obligations.ForagerCommands := by
  unfold Obligations.ForagerCommands
  refine ⟨fun s c it hitem hanvil => ?_, fun s c it hitem => ?_, fun s c it how kind hitem hanvil htrc hctx => ?_,
    fun s c wake hitem => ?_, fun s c wake it hitem hanvil htrc _ => execFgrEndSleep_sleeps hitem hanvil htrc, fun s c x p a => execFgrSubmit_queues c p a,
    fun s c x p a => execFgrSubmit_refused c p a, fun s c x a w hroom => ⟨_, rfl, State.coreArms_room hroom c 2 x a.toNat w.toNat⟩,
    fun s c x a w hroom => ⟨_, rfl, State.coreArms_room hroom c 3 x a.toNat w.toNat⟩,
    fun s c x a w hfull hev => ⟨_, rfl, State.coreArms_full hfull hev c 3 x a.toNat w.toNat⟩,
    fun s c h u => execTimerCancel_cancels c, fun s c h => execTimerCancel_late c, fun s c x => execContextSetFree_frees s c x,
    fun s c x => execContextSetActive_sets s c x, fun s c x => execContextSetActive_arms c, fun s c x p a => execBackpressureTimeout_refuses⟩
  · change execFgrEndDone c s = _
    simp only [execFgrEndDone, hitem, hanvil, Bool.false_eq_true, if_false]
  · change execFgrEndYield c s = _
    simp only [execFgrEndYield, hitem]
  · obtain ⟨longest, hend⟩ := State.endItem_untraced (c := c) hanvil htrc how kind
    rw [hend, State.core_wr, State.endedItem_core, State.rd_wr_sep _ (by decide), State.endedItem_runs]
    exact ⟨rfl, rfl, rfl, rfl⟩
  · have hcore {v : Core} : (s.setCore c v).core c = v := s.core_setCore_same c v
    change ∃ t, execFgrEndSleep c wake s = .next t ∧ _
    simp only [execFgrEndSleep, hcore, hitem, State.endNothing]
    refine ⟨_, rfl, ?_, ?_, ?_, rfl⟩ <;> rw [State.core_setCore_same]

end Sys2Proof.Machine

/-! What the registers of the Anvil engines show and what showing them leaves alone. -/

namespace Sys2Proof.Machine

namespace State

variable (s : State)

/-! ## Jobs and engines -/

@[simp] theorem solve_setSolve_same (n : Nat) (v : Option Solve) : (s.setSolve n v).solve n = v := lookup_store_same _ _ _

theorem solve_setSolve_ne {n k : Nat} (v : Option Solve) (h : k ≠ n) : (s.setSolve n v).solve k = s.solve k := lookup_store_ne _ _ h

@[simp] theorem job_setJob_same (slot : Nat) (j : Option Job) : (s.setJob slot j).job slot = j := lookup_store_same _ _ _

theorem warmSlot_setWarm_same (w : Nat) (v : WarmSlot) : (s.setWarm w v).warmSlot w = v := lookup_store_same _ _ _

theorem warmSlot_setWarm_ne {w k : Nat} (v : WarmSlot) (h : k ≠ w) : (s.setWarm w v).warmSlot k = s.warmSlot k := lookup_store_ne _ _ h

/-- Engines and jobs are looked up in Anvil's own tables. -/
theorem solve_congr {s t : State} (h : t.anvil = s.anvil) (n : Nat) : t.solve n = s.solve n := by rw [solve, solve, h]

theorem job_congr {s t : State} (h : t.anvil = s.anvil) (n : Nat) : t.job n = s.job n := by rw [job, job, h]

@[simp] theorem wr_solve (f : Fld) (v i j n : Nat) : (s.wr f v i j).solve n = s.solve n := rfl
@[simp] theorem wr_job (f : Fld) (v i j slot : Nat) : (s.wr f v i j).job slot = s.job slot := rfl

/-! ## ANV_STAT and ANV_GSTAT -/

theorem syncAnvil_onlyRegs : s.OnlyRegs s.syncAnvil := by
  unfold syncAnvil
  exact OnlyRegs.wr (OnlyRegs.wr (OnlyRegs.foldl fun t _ => (((OnlyRegs.refl t).wr _ _ _ _).wr _ _ _ _).wr _ _ _ _) _ _ _ _) _ _ _ _

@[simp] theorem syncAnvil_hive : s.syncAnvil.hive = s.hive := by rw [syncAnvil_onlyRegs]
@[simp] theorem syncAnvil_anvil : s.syncAnvil.anvil = s.anvil := by rw [syncAnvil_onlyRegs]
@[simp] theorem syncAnvil_hif : s.syncAnvil.hif = s.hif := by rw [syncAnvil_onlyRegs]
@[simp] theorem syncAnvil_free : s.syncAnvil.free = s.free := by rw [syncAnvil_onlyRegs]
@[simp] theorem syncAnvil_hostMem : s.syncAnvil.hostMem = s.hostMem := by rw [syncAnvil_onlyRegs]
@[simp] theorem syncAnvil_ddr : s.syncAnvil.ddr = s.ddr := by rw [syncAnvil_onlyRegs]
@[simp] theorem syncAnvil_core (c : Nat) : s.syncAnvil.core c = s.core c := by rw [core, core, syncAnvil_hive]

/-- Registers outside the Anvil engines. -/
theorem syncAnvil_word {off : Nat} (h : off < 0x40000 ∨ 0x48004 < off) : s.syncAnvil.word off = s.word off := by
  have hengine {n : Nat} (hn : n ∈ List.range 8) : off ≠ F.ANV_STAT_busy.addr n 0 ∧ off ≠ F.ANV_STAT_stopped.addr n 0
      ∧ off ≠ F.ANV_GSTAT_busy.addr 0 0 := by
    have := List.mem_range.1 hn
    simp only [Fld.addr, F.ANV_STAT_busy, F.ANV_STAT_stopped, F.ANV_GSTAT_busy]
    omega
  have hglobal : off ≠ F.ANV_GSTAT_host_running.addr 0 0 ∧ off ≠ F.ANV_GSTAT_planner_ready.addr 0 0 := by
    simp only [Fld.addr, F.ANV_GSTAT_host_running, F.ANV_GSTAT_planner_ready]
    omega
  rw [syncAnvil, word_wr_ne _ _ hglobal.2, word_wr_ne _ _ hglobal.1]
  refine foldl_keeps (fun t : State => t.word off) (fun t n hn => ?_) s
  obtain ⟨hbusy, hstopped, hall⟩ := hengine hn
  rw [wrBit_eq, word_wr_ne _ _ hall, put_eq, word_wr_ne _ _ hstopped, put_eq, word_wr_ne _ _ hbusy]

theorem syncAnvil_rd {f : Fld} {i j : Nat} (h : f.addr i j < 0x40000 ∨ 0x48004 < f.addr i j) : s.syncAnvil.rd f i j = s.rd f i j := by
  rw [rd, rd, s.syncAnvil_word h]

/-- Of ANV_STAT only `busy` and `stopped` follow the engines. -/
theorem syncAnvil_rd_stat {f : Fld} {n : Nat} (hn : n < 8) (hoff : f.off = 0x40004 ∧ f.s1 = 0x1000 ∧ f.s2 = 0) (hlo : 2 ≤ f.lo) :
    s.syncAnvil.rd f n = s.rd f n := by
  obtain ⟨hoff, hs1, hs2⟩ := hoff
  have hglobal : f.addr n 0 ≠ 0x48004 := by simp only [Fld.addr, hoff, hs1, hs2]; omega
  rw [syncAnvil, rd_wr_ne _ hglobal, rd_wr_ne _ hglobal]
  have hbusy : F.ANV_STAT_busy.lo + F.ANV_STAT_busy.width ≤ f.lo := Nat.le_trans (by decide) hlo
  have hstopped : F.ANV_STAT_stopped.lo + F.ANV_STAT_stopped.width ≤ f.lo := hlo
  refine foldl_keeps (fun t : State => t.rd f n) (fun t k _ => ?_) s
  simp only [wrBit_eq, put_eq]
  rw [rd_wr_ne _ hglobal, rd_wr_disjoint _ (.inr (.inl hstopped)), rd_wr_disjoint _ (.inr (.inl hbusy))]

/-! ## ANV_ITER and the phase -/

@[simp] theorem showSolve_anvil (n phase : Nat) : (s.showSolve n phase).anvil = s.anvil := by unfold showSolve; split <;> rfl
@[simp] theorem showSolve_hive (n phase : Nat) : (s.showSolve n phase).hive = s.hive := by unfold showSolve; split <;> rfl
@[simp] theorem showSolve_hif (n phase : Nat) : (s.showSolve n phase).hif = s.hif := by unfold showSolve; split <;> rfl
@[simp] theorem showSolve_free (n phase : Nat) : (s.showSolve n phase).free = s.free := by unfold showSolve; split <;> rfl
@[simp] theorem showSolve_hostMem (n phase : Nat) : (s.showSolve n phase).hostMem = s.hostMem := by unfold showSolve; split <;> rfl
@[simp] theorem showSolve_solve (n phase k : Nat) : (s.showSolve n phase).solve k = s.solve k := solve_congr (s.showSolve_anvil n phase) k
@[simp] theorem showSolve_job (n phase k : Nat) : (s.showSolve n phase).job k = s.job k := job_congr (s.showSolve_anvil n phase) k

theorem showSolve_phase {n : Nat} {v : Solve} (h : s.solve n = some v) {phase : Nat} (hphase : phase < 16) :
    (s.showSolve n phase).rd F.ANV_STAT_phase n = phase := by
  have hiter (f : Fld) (hf : F.ANV_STAT_phase.Sep f) (t : State) (x : Nat) :
      (t.wr f x n).rd F.ANV_STAT_phase n = t.rd F.ANV_STAT_phase n := t.rd_wr_sep hf
  simp only [showSolve, h]
  rw [hiter _ (by decide), hiter _ (by decide), rd_wr_same _ (by decide)]
  exact Nat.mod_eq_of_lt hphase

theorem showSolve_word {n phase off : Nat} (hn : n < 8) (h : off < 0x40000 ∨ 0x48000 ≤ off) :
    (s.showSolve n phase).word off = s.word off := by
  have hne : off ≠ F.ANV_STAT_phase.addr n 0 ∧ off ≠ F.ANV_ITER_iter.addr n 0 ∧ off ≠ F.ANV_ITER_checks.addr n 0 := by
    simp only [Fld.addr, F.ANV_STAT_phase, F.ANV_ITER_iter, F.ANV_ITER_checks]
    omega
  obtain ⟨hstat, hiter, hchecks⟩ := hne
  unfold showSolve
  split
  · rw [word_wr_ne _ _ hchecks, word_wr_ne _ _ hiter, word_wr_ne _ _ hstat]
  · rw [word_wr_ne _ _ hstat]

end State

end Sys2Proof.Machine

/-! Proofs about how Anvil jobs start and end (O14). -/

namespace Sys2Proof.Machine

/-! ## ANV_SUBMIT and ANV_ABORT -/

theorem State.submitCheck_lt (s : State) (slot : Nat) : s.submitCheck slot < 16 := by
  simp only [State.submitCheck]
  split_ifs <;> decide

/-- The reserve of the rings rests on the registers of the rings. -/
theorem State.ringReserve_wr (s : State) {f : Fld} {v i j : Nat} (hf : 0x40000 ≤ f.off) : (s.wr f v i j).ringReserve = s.ringReserve := by
  have hrd {g : Fld} {r : Nat} (hg : g.addr r 0 < 0x40000) : (s.wr f v i j).rd g r = s.rd g r :=
    s.rd_wr_ne (by simp only [Fld.addr] at hg ⊢; omega)
  have hring {r : Nat} (hr : r < 64) : F.HIF_SQ_CTL_enable.addr r 0 < 0x40000 ∧ F.HIF_SQ_CREDIT_credit.addr r 0 < 0x40000 := by
    simp only [Fld.addr, F.HIF_SQ_CTL_enable, F.HIF_SQ_CREDIT_credit]
    omega
  have hrings : ((List.range 64).filter fun r => (s.wr f v i j).on F.HIF_SQ_CTL_enable r || (s.wr f v i j).outstanding r != 0)
      = (List.range 64).filter fun r => s.on F.HIF_SQ_CTL_enable r || s.outstanding r != 0 :=
    List.filter_congr fun r hr => by rw [State.on, State.on, hrd (hring (List.mem_range.1 hr)).1]; rfl
  have hsum := List.foldl_ext (fun a r => a + (s.wr f v i j).rd F.HIF_SQ_CREDIT_credit r) (fun a r => a + s.rd F.HIF_SQ_CREDIT_credit r) 0
    fun a r (hr : r ∈ (List.range 64).filter fun r => s.on F.HIF_SQ_CTL_enable r || s.outstanding r != 0) => by
      rw [hrd (hring (List.mem_range.1 (List.mem_of_mem_filter hr))).2]
  rw [← hrings] at hsum
  unfold State.ringReserve
  rw [← hrings, hsum]

/-- The room of the firmware share rests on the items and on the sizes of the rings and spill rings. -/
theorem State.fwRoom_wr (s : State) {f : Fld} {v i j : Nat} (hf : 0x40000 ≤ f.off) : (s.wr f v i j).fwRoom = s.fwRoom := by
  have hsize : F.HIV_SPILL_SIZE_entries.addr 0 0 ≠ f.addr i j := by simp only [Fld.addr, F.HIV_SPILL_SIZE_entries]; omega
  have hspill : (s.wr f v i j).fwSpill = s.fwSpill := by rw [State.fwSpill, State.fwSpill, s.ringReserve_wr hf, s.rd_wr_ne hsize]
  rw [State.fwRoom, State.fwRoom, hspill]
  rfl

theorem execAnvilSubmit_enqueues {s : State} {c : Fin 32} {slot : BitVec 11}
    (hcheck : (s.wr F.ANV_SUBMIT_slot slot.toNat).submitCheck slot.toNat = 0) (hpressure : s.on F.HIV_STAT_backpressure = false)
    (hroom : s.fwRoom = true) : execAnvilSubmit (.forager c) slot s =
      .next (((s.wr F.ANV_SUBMIT_slot slot.toNat).wr F.ANV_SUBMIT_status 0).enqueuePlanner slot.toNat
        (if s.linePriv ((s.core c).item.bind (·.line)) then (s.core c).item.bind (·.line) else none)) := by
  have hgo : ((s.wr F.ANV_SUBMIT_slot slot.toNat).on F.HIV_STAT_backpressure || !(s.wr F.ANV_SUBMIT_slot slot.toNat).fwRoom) = false := by
    have hshare : (s.wr F.ANV_SUBMIT_slot slot.toNat).fwRoom = s.fwRoom := s.fwRoom_wr (by decide)
    rw [State.on, State.rd_wr_ne _ (by decide), ← State.on, hpressure, hshare, hroom]
    rfl
  simp only [execAnvilSubmit, masterId, ne_eq, not_true_eq_false, false_and, if_false, hcheck, hgo, Bool.false_eq_true]
  rfl

theorem execAnvilSubmit_refuses {s : State} {m : Master} {slot : BitVec 11} (hm : masterId m = 1 ∨ masterId m = 2)
    (hcheck : (s.wr F.ANV_SUBMIT_slot slot.toNat).submitCheck slot.toNat ≠ 0) :
    ∃ t, execAnvilSubmit m slot s = .next t ∧ t.anvil = s.anvil
      ∧ t.rd F.ANV_SUBMIT_status = (s.wr F.ANV_SUBMIT_slot slot.toNat).submitCheck slot.toNat := by
  have hmaster : ¬ (masterId m ≠ 1 ∧ masterId m ≠ 2) := fun ⟨h1, h2⟩ => hm.elim h1 h2
  have hlt := (s.wr F.ANV_SUBMIT_slot slot.toNat).submitCheck_lt slot.toNat
  generalize hr : (s.wr F.ANV_SUBMIT_slot slot.toNat).submitCheck slot.toNat = r at hcheck hlt
  refine ⟨(s.wr F.ANV_SUBMIT_slot slot.toNat).wr F.ANV_SUBMIT_status r, ?_, rfl, ?_⟩
  · simp only [execAnvilSubmit, hmaster, if_false, hr]
  · rw [State.rd_wr_same _ (by decide)]
    exact Nat.mod_eq_of_lt hlt

theorem execAnvilAbort_findsNone {s : State} {c : Fin 32} {slot : BitVec 11} (hjob : s.job slot.toNat = none) :
    ∃ t, execAnvilAbort (.forager c) slot s = .next t ∧ t.rd F.ANV_ABORT_status = 5 ∧ t.anvil = s.anvil := by
  have hnone : (s.wr F.ANV_ABORT_slot slot.toNat).abortSlot slot.toNat = (s.wr F.ANV_ABORT_slot slot.toNat, false) := by
    rw [State.abortSlot, State.wr_job, hjob]
  refine ⟨(s.wr F.ANV_ABORT_slot slot.toNat).wr F.ANV_ABORT_status 5, ?_, ?_, rfl⟩
  · simp only [execAnvilAbort, masterId, ne_eq, not_true_eq_false, false_and, if_false, hnone, ite_self]
  · rw [State.rd_wr_same _ (by decide)]
    rfl

theorem execAnvilAbort_drops {s : State} {c : Fin 32} {slot : BitVec 11} {j : Job} {n : Nat} (hslot : slot.toNat < 1024)
    (hjob : s.job slot.toNat = some j) (hitems : ∀ it ∈ s.hive.items, it.anvil = false) (hengine : s.engineOf slot.toNat = some n) :
    execAnvilAbort (.forager c) slot s = .next (((s.wr F.ANV_ABORT_slot slot.toNat).dropJob n 4).wr F.ANV_ABORT_status 0) := by
  have hqueued : ((s.wr F.ANV_ABORT_slot slot.toNat).hive.items.any fun it => it.anvil && it.ctx == slot.toNat) = false :=
    List.any_eq_false.2 fun it hit => by simp [hitems it hit]
  have hdrop : (s.wr F.ANV_ABORT_slot slot.toNat).abortSlot slot.toNat = ((s.wr F.ANV_ABORT_slot slot.toNat).dropJob n 4, true) := by
    simp only [State.abortSlot, State.wr_job, hjob, hqueued, Bool.false_eq_true,
      if_false]
    change (match s.engineOf slot.toNat with | some n => _ | none => _) = _
    rw [hengine]
  simp only [execAnvilAbort, masterId, ne_eq, not_true_eq_false, false_and, if_false, hslot, if_true, hdrop]

/-! ## Resets -/

theorem execAnvilReset_resets {s : State} {n : Fin 8} (hsolve : s.solve n = none) (hev : s.takesEvent (32 + n)) :
    ∃ t, execAnvilReset n s = .next t ∧ t.rd F.ANV_STAT_epoch n = (s.rd F.ANV_STAT_epoch n + 1) % 2 ^ F.ANV_STAT_epoch.width
      ∧ t.hasEvent (32 + n) 4 n ∧ t.anvil = s.anvil := by
  have hidle : (s.wr F.ANV_STAT_epoch (s.rd F.ANV_STAT_epoch n + 1) n).dropJob n 0xE0
      = s.wr F.ANV_STAT_epoch (s.rd F.ANV_STAT_epoch n + 1) n := by
    rw [State.dropJob, State.wr_solve, hsolve]
  simp only [execAnvilReset, State.resetEngine, State.wr_solve,
    hsolve, Bool.false_eq_true, if_false, hidle]
  generalize hu : s.wr F.ANV_STAT_epoch (s.rd F.ANV_STAT_epoch n + 1) n = u
  have hsrc : 32 + n.val < 128 := by omega
  have htakes : u.syncAnvil.takesEvent (32 + n) := by
    have hmap : F.HIF_EVT_MAP_enable.addr (32 + n) 0 < 0x40000 := by simp only [Fld.addr, F.HIF_EVT_MAP_enable]; omega
    refine State.takesEvent_of_word hev ?_ (by rw [State.syncAnvil_hif, ← hu]; rfl)
    rw [State.syncAnvil_word _ (.inl hmap), ← hu, State.word_wr_ne]
    simp only [Fld.addr, F.ANV_STAT_epoch, F.HIF_EVT_MAP_enable]
    omega
  refine ⟨_, rfl, ?_, State.raise_hasEvent _ _ _ htakes, ?_⟩
  · rw [State.raise_rd_below _ _ _ _ hsrc n.isLt (by decide), State.syncAnvil_rd_stat _ n.isLt (by decide) (by decide), ← hu,
      State.rd_wr_same _ (by decide)]
  · rw [State.raise_anvil, State.syncAnvil_anvil, ← hu]
    rfl

/-! ## Host jobs -/

/-- An item that its share has room for stays on chip. -/
theorem State.spillOne_room {s : State} {ring : Bool} (h : s.onChip ring ≤ 2048) : s.spillOne ring = s := by
  rw [State.spillOne, if_pos h]

theorem State.queueItem_room {s : State} {it : Item} (htrace : s.on F.HIV_TRC_CTL_enable = false) (hroom : s.onChip it.ringShare < 2048) :
    s.queueItem it = State.syncHive { s with hive := { s.hive with
      items := s.hive.items ++ [{ it with seq := s.hive.seq, ready := s.tick }], seq := (s.hive.seq + 1) % 2 ^ 32 } } := by
  simp only [State.queueItem]
  generalize hu : ({ s with hive := { s.hive with items := s.hive.items ++ [{ it with seq := s.hive.seq, ready := s.tick }],
                                                  seq := (s.hive.seq + 1) % 2 ^ 32 } } : State) = u
  have hoff : u.syncHive.on F.HIV_TRC_CTL_enable = false := by
    rw [State.on, State.syncHive_rd _ (by decide), ← hu]
    exact htrace
  have hcount : u.syncHive.onChip it.ringShare ≤ 2048 := by
    have hlen : u.syncHive.onChip it.ringShare ≤ s.onChip it.ringShare + 1 := by
      rw [State.onChip, State.syncHive_hive, ← hu]
      simp only [State.onChip, List.filter_append, List.length_append]
      exact Nat.add_le_add_left (List.length_filter_le _ _) _
    omega
  rw [State.trace_off _ _ _ _ _ _ _ hoff]
  exact State.spillOne_room hcount

theorem execSolve_queues {s : State} {r : Fin 64} {d : Desc} {slot : Nat} (hstart : s.Starts r 0x0201 d)
    (hslot : s.freeHostSlot = some slot) (htrace : s.on F.HIV_TRC_CTL_enable = false) (hroom : s.onChip true < 2048) :
    ∃ t, execSolve r s = .next t ∧ t.anvil.hostSlot = store (fun _ => none) s.anvil.hostSlot slot (some d.id)
      ∧ (∃ j, t.job slot = some j ∧ j.desc = some d.id ∧ j.deadline = d.deadline)
      ∧ ∃ it ∈ t.hive.items, it.anvil = true ∧ it.ctx = slot ∧ it.planner = false ∧ it.source = d.ring ∧ it.prio = d.prio := by
  have hring : d.ring < 64 := by rw [hstart.ring]; exact r.isLt
  unfold execSolve
  rw [hslot]
  dsimp only
  rw [hstart.runDesc]
  generalize hj : ({ bytes := _, desc := some d.id, deadline := d.deadline } : Job) = j
  generalize hu : ({ (s.startDesc d).setJob slot (some j) with
    anvil := { ((s.startDesc d).setJob slot (some j)).anvil with
      hostSlot := store (fun _ => none) ((s.startDesc d).setJob slot (some j)).anvil.hostSlot slot (some d.id) } } : State) = u
  have hquiet : u.on F.HIV_TRC_CTL_enable = false := by
    have hrd : u.rd F.HIV_TRC_CTL_enable = (s.startDesc d).rd F.HIV_TRC_CTL_enable := by rw [← hu]; rfl
    rw [State.on, hrd, State.startDesc_rd_of_lt hring (by decide)]
    exact htrace
  have hchip : u.onChip true = s.onChip true := by rw [← hu]; rfl
  rw [← hchip] at hroom
  generalize hit : ({ ctx := slot, anvil := true, prio := d.prio, source := d.ring, seq := 0, arg := 0, ready := 0, line := none } : Item) = it
  have hshare : it.ringShare = true := by rw [← hit]; rfl
  rw [State.queueItem_room hquiet (hshare ▸ hroom)]
  refine ⟨_, rfl, ?_, ⟨j, ?_, ?_, ?_⟩, ?_⟩
  · rw [State.syncAnvil_anvil, State.syncHive_anvil, ← hu]
    rfl
  · rw [State.job, State.syncAnvil_anvil, State.syncHive_anvil, ← hu]
    exact (s.startDesc d).job_setJob_same slot (some j)
  · rw [← hj]
  · rw [← hj]
  · rw [State.syncAnvil_hive, State.syncHive_hive]
    refine ⟨_, List.mem_append_right _ (List.mem_singleton_self _), ?_⟩
    rw [← hit]
    exact ⟨rfl, rfl, rfl, rfl, rfl⟩

theorem execWarmClear_clears {s : State} {r : Fin 64} {d : Desc} (hstart : s.Starts r 0x0202 d) :
    ∃ t, execWarmClear r s = .next t ∧ (t.warmSlot (byteAt d.bytes 32)).valid = false ∧ t.Completed d 1
      ∧ ∀ w, w ≠ byteAt d.bytes 32 → t.warmSlot w = s.warmSlot w := by
  have hwarm (t : State) (st w : Nat) : (t.complete d.id st).warmSlot w = t.warmSlot w := by
    rw [State.warmSlot, State.warmSlot, State.complete_anvil]
  simp only [execWarmClear, hstart.runDesc]
  refine ⟨_, rfl, ?_, hstart.completed (t := (s.startDesc d).setWarm _ _) rfl, fun w hw => ?_⟩
  · rw [hwarm, State.warmSlot_setWarm_same]
  · rw [hwarm, State.warmSlot_setWarm_ne _ _ hw]
    rfl

/-- Settles O14: each command by the equation of the branch it takes; a host job joins the items of its share while there is room. -/
theorem anvilJobs : Obligations.AnvilJobs := by
  unfold Obligations.AnvilJobs
  refine ⟨fun s c slot => execAnvilSubmit_enqueues, fun s m slot => execAnvilSubmit_refuses, fun s m slot h1 h2 => ⟨?_, ?_⟩,
    fun s c slot _ => execAnvilAbort_findsNone, fun s c slot j n => execAnvilAbort_drops, fun s n => execAnvilReset_resets,
    fun s n => ⟨rfl, rfl⟩, fun s n => rfl, fun s r d slot => execSolve_queues, fun s r d => execWarmClear_clears⟩
  · exact if_pos ⟨h1, h2⟩
  · exact if_pos ⟨h1, h2⟩

end Sys2Proof.Machine

/-! Proofs about the life of an Anvil job (O15). -/

namespace Sys2Proof.Machine

namespace State

/-- Two states show the same jobs, free values and phase of an engine. -/
def SameSolve (n : Nat) (s t : State) : Prop :=
  t.anvil = s.anvil ∧ t.free = s.free ∧ t.rd F.ANV_STAT_phase n = s.rd F.ANV_STAT_phase n

variable {s t u : State} {n : Nat}

theorem SameSolve.refl (n : Nat) (s : State) : SameSolve n s s := ⟨rfl, rfl, rfl⟩

theorem SameSolve.solve (h : SameSolve n s t) (k : Nat) : t.solve k = s.solve k := solve_congr h.1 k

theorem SameSolve.ite {c : Prop} [Decidable c] (h : SameSolve n s t) (h' : SameSolve n s u) : SameSolve n s (if c then t else u) := by
  split <;> assumption

/-- The events of an engine. -/
theorem SameSolve.raise (h : SameSolve n s t) (hn : n < 8) {code inst : Nat} {d : DWord} : SameSolve n s (t.raise (32 + n) code inst d) := by
  have hsrc : 32 + n < 128 := by omega
  obtain ⟨hanvil, hfree, hphase⟩ := h
  exact ⟨by rw [raise_anvil, hanvil], by rw [raise_free, hfree], by rw [raise_rd_below _ _ _ _ hsrc hn (by decide), hphase]⟩

/-- The counters of an engine. -/
theorem SameSolve.bump (h : SameSolve n s t) {f : Fld} (hf : F.ANV_STAT_phase.Sep f) : SameSolve n s (t.bump f n) := by
  obtain ⟨hanvil, hfree, hphase⟩ := h
  exact ⟨hanvil, hfree, (t.rd_wr_sep hf).trans hphase⟩

theorem SameSolve.postResid {v : Solve} {c : Check} : SameSolve n s (s.postResid n v c) := by
  simp only [State.postResid]
  exact SameSolve.ite (SameSolve.refl n s) ⟨rfl, rfl, rfl⟩

/-- Events and counters go with an outcome. -/
theorem sameSolve_recordEnd (s : State) (hn : n < 8) (v : Solve) (e : JobEnd) :
    SameSolve n ((s.setSolve n (some { v with outcome := some { e with time := s.cellNs } })).showSolve n 5) (s.recordEnd n v e) := by
  simp only [recordEnd]
  generalize (s.setSolve n (some { v with outcome := some { e with time := s.cellNs } })).showSolve n 5 = u
  have hcounted {t : State} (h : SameSolve n u t) {c : Prop} [Decidable c] {f : Fld} (hf : F.ANV_STAT_phase.Sep f) :
      SameSolve n u (if c then t.bump f n else t) := SameSolve.ite (h.bump hf) h
  have hnoted {t : State} (h : SameSolve n u t) {c : Prop} [Decidable c] {f : Fld} (hf : F.ANV_STAT_phase.Sep f) (code : Nat) (d : DWord) :
      SameSolve n u (if c then (t.raise (32 + n) code n d).bump f n else t) := SameSolve.ite ((h.raise hn).bump hf) h
  have hinfeasible (d : DWord) : SameSolve n u (if e.status = 0x20 then u.raise (32 + n) 1 n d else u) :=
    SameSolve.ite ((SameSolve.refl n u).raise hn) (SameSolve.refl n u)
  have hnotes (d : DWord) := hcounted (c := v.pivots ≠ 0) (hnoted (c := v.sat = true) (hinfeasible d) (f := F.ANV_CNT_NOTE_sat) (by decide) 2 d)
    (f := F.ANV_CNT_NOTE_pivot_reg) (by decide)
  have hended := (hnotes (detail [(0, v.slot), (4, v.k)])).bump (f := F.ANV_CNT_END_deadline) (by decide)
  exact SameSolve.ite (SameSolve.ite hended ((hended.raise hn).bump (by decide))) (hnotes _)

/-- The engine that has an outcome. -/
theorem recordEnd_shows (s : State) (hn : n < 8) (v : Solve) (e : JobEnd) :
    (s.recordEnd n v e).solve n = some { v with outcome := some { e with time := s.cellNs } }
    ∧ (s.recordEnd n v e).free = s.free ∧ (s.recordEnd n v e).rd F.ANV_STAT_phase n = 5 := by
  obtain ⟨hanvil, hfree, hphase⟩ := sameSolve_recordEnd s hn v e
  refine ⟨?_, ?_, ?_⟩
  · rw [solve_congr hanvil, showSolve_solve, solve_setSolve_same]
  · rw [hfree, showSolve_free]
    rfl
  · rw [hphase, showSolve_phase _ (solve_setSolve_same _ _ _) (by decide)]

theorem recordEnd_job (s : State) (hn : n < 8) (v : Solve) (e : JobEnd) (slot : Nat) : (s.recordEnd n v e).job slot = s.job slot := by
  rw [job_congr (sameSolve_recordEnd s hn v e).1, showSolve_job]
  rfl

/-- What a check leaves of an engine's job. -/
structure Checked (v w : Solve) : Prop where
  slot : w.slot = v.slot
  prob : w.prob = v.prob
  k : w.k = v.k
  pivots : w.pivots = v.pivots
  checks : w.checks = v.checks + 1

theorem checkIterate_checks (s : State) (hn : n < 8) (v : Solve) : ∃ w, (s.checkIterate n v).solve n = some w ∧ Checked v w
    ∧ (s.checkIterate n v).free = s.free ∧ ∀ slot, (s.checkIterate n v).job slot = s.job slot := by
  simp only [checkIterate]
  generalize hw : ({ v with sat := v.sat || v.prob.checkOverflows v.cur, checks := v.checks + 1, best := _, yPrev := some v.cur.y } : Solve) = w
  have hchecked : Checked v w := by rw [← hw]; exact ⟨rfl, rfl, rfl, rfl, rfl⟩
  generalize v.prob.check v.cur v.k (v.sat || v.prob.checkOverflows v.cur) = c
  have hpost : SameSolve n (s.setSolve n (some w)) ((s.setSolve n (some w)).postResid n w c) := SameSolve.postResid
  generalize (s.setSolve n (some w)).postResid n w c = u at hpost
  obtain ⟨hanvil, hfree, -⟩ := hpost
  have hjob (slot : Nat) : u.job slot = s.job slot := (job_congr hanvil slot).trans rfl
  have hended (e : JobEnd) : ∃ w', (u.recordEnd n w e).solve n = some w' ∧ Checked v w' ∧ (u.recordEnd n w e).free = s.free
      ∧ ∀ slot, (u.recordEnd n w e).job slot = s.job slot := by
    obtain ⟨hsolve, hfree', -⟩ := u.recordEnd_shows hn w e
    obtain ⟨hslot, hprob, hk, hpivots, hchecks⟩ := hchecked
    exact ⟨_, hsolve, ⟨hslot, hprob, hk, hpivots, hchecks⟩, hfree'.trans hfree, fun slot => (u.recordEnd_job hn w e slot).trans (hjob slot)⟩
  have hshown (phase : Nat) {t : State} {w' : Solve} (hw' : Checked v w') (ht : t.solve n = some w') (hf : t.free = s.free)
      (hj : ∀ slot, t.job slot = s.job slot) : ∃ w', (t.showSolve n phase).solve n = some w' ∧ Checked v w'
      ∧ (t.showSolve n phase).free = s.free ∧ ∀ slot, (t.showSolve n phase).job slot = s.job slot :=
    ⟨w', by rw [showSolve_solve, ht], hw', by rw [showSolve_free, hf], fun slot => by rw [showSolve_job, hj]⟩
  have hadapted {x : Solve} (hx : Checked v x) := hshown 3 hx (solve_setSolve_same u n (some x)) hfree hjob
  have hkept := hshown 4 hchecked ((solve_congr hanvil n).trans (solve_setSolve_same _ _ _)) hfree hjob
  subst hw
  split
  · exact hended _
  · split
    · split
      · exact hended _
      · split
        · exact hadapted ⟨rfl, rfl, rfl, rfl, rfl⟩
        · exact hkept
    · rw [if_neg Bool.false_ne_true]
      split
      · exact hadapted ⟨rfl, rfl, rfl, rfl, rfl⟩
      · exact hkept

end State

/-! ## Dispatch and loading -/

/-- The job that goes out is one of the items. -/
theorem State.nextJob_mem {s : State} {it : Item} (h : s.nextJob = some it) : it ∈ s.hive.items := by
  simp only [State.nextJob] at h
  generalize hl : (s.hive.items.filter fun it => it.anvil && (it.planner || decide (s.rd F.ANV_GSTAT_host_running < min 8 (s.rd F.ANV_GCTL_host_share)))) = l at h
  have hsub : ∀ a ∈ l, a ∈ s.hive.items := fun a ha => List.mem_of_mem_filter (hl ▸ ha)
  have hfold : ∀ b ∈ l.foldl (fun b it => match b with
      | none => some it
      | some w => if s.jobBefore it w then some it else some w) none, b ∈ s.hive.items := by
    refine foldl_holds (P := fun o : Option Item => ∀ b ∈ o, b ∈ s.hive.items) (fun o a ha ho => ?_) (by simp)
    cases o with
    | none => simpa using hsub a ha
    | some w =>
      dsimp only
      split
      · simpa using hsub a ha
      · exact ho
  exact hfold it h

theorem execAnvilDispatch_dispatches {s : State} {n : Nat} {it : Item} (hmode5 : s.mode ≠ 5) (hmode7 : s.mode ≠ 7)
    (hon : s.on F.HIV_CTL_enable = true) (hidle : (List.range 8).find? (fun n => s.on F.ANV_CTL_enable n && (s.solve n).isNone) = some n)
    (hnext : s.nextJob = some it) (hdeadline : ∀ j, s.job it.ctx = some j → j.deadline = 0)
    (htrace : s.on F.HIV_TRC_CTL_enable = false) (hpressure : s.on F.HIV_STAT_backpressure = false)
    (hstall : ∀ c, c < 32 → (s.core c).stalled = none) (hchip : ∀ j ∈ s.hive.items, j.spilled = false) :
    ∃ t, execAnvilDispatch s = .next t ∧ t.solve n = some { slot := it.ctx } ∧ t.rd F.ANV_STAT_phase n = 1
      ∧ t.hive.items = s.hive.items.filter (·.seq != it.seq) ∧ ∀ k, k ≠ n → t.solve k = s.solve k := by
  have hn : n < 8 := List.mem_range.1 (List.mem_of_find?_eq_some hidle)
  have hgo : ¬ (s.mode = 5 ∨ s.mode = 7 ∨ (!s.on F.HIV_CTL_enable) = true) := by simp [hmode5, hmode7, hon]
  simp only [execAnvilDispatch, hgo, if_false, hidle, hnext, hchip it (State.nextJob_mem hnext), Bool.false_and, Bool.false_eq_true]
  generalize hu : ({ s with hive := { s.hive with items := s.hive.items.filter (·.seq != it.seq) } } : State) = u
  have hrd {f : Fld} {k : Nat} : u.rd f k = s.rd f k := by rw [← hu]; rfl
  have hword (off : Nat) : u.word off = s.word off := by rw [← hu]; rfl
  have hanvil : u.anvil = s.anvil := by rw [← hu]
  have hhive : u.hive = { s.hive with items := s.hive.items.filter (·.seq != it.seq) } := by rw [← hu]
  generalize hv : ({ slot := it.ctx } : Solve) = v
  generalize hshow : ((u.setSolve n (some v)).wr F.ANV_STAT_slot it.ctx n).showSolve n 1 = x
  have hx : x.anvil = (u.setSolve n (some v)).anvil ∧ x.hive = u.hive := by rw [← hshow]; simp
  have hphase : x.rd F.ANV_STAT_phase n = 1 := by
    rw [← hshow]
    exact State.showSolve_phase _ (by rw [State.wr_solve, State.solve_setSolve_same]) (by decide)
  have hlow {off : Nat} (hoff : off < 0x40000) : x.syncAnvil.word off = s.word off := by
    have hne : off ≠ F.ANV_STAT_slot.addr n 0 := by simp only [Fld.addr, F.ANV_STAT_slot]; omega
    rw [State.syncAnvil_word _ (.inl hoff), ← hshow, State.showSolve_word _ hn (.inl hoff), State.word_wr_ne _ _ hne]
    exact hword off
  have hoff : x.syncAnvil.on F.HIV_TRC_CTL_enable = false := by rw [State.on, State.rd, hlow (by decide)]; exact htrace
  have hback : x.syncAnvil.on F.HIV_STAT_backpressure = false := by rw [State.on, State.rd, hlow (by decide)]; exact hpressure
  have hquiet : x.syncAnvil.hiveSettle = x.syncAnvil.syncHive := by
    refine State.hiveSettle_quiet (fun j hj => ?_) hback fun c hc => ?_
    · rw [State.syncAnvil_hive, hx.2, hhive] at hj
      exact hchip j (List.mem_of_mem_filter hj)
    · rw [State.core, State.syncAnvil_hive, hx.2, hhive]
      exact hstall c hc
  have hjobs (slot : Nat) : x.syncAnvil.syncHive.job slot = s.job slot := by
    rw [State.job, State.syncHive_anvil, State.syncAnvil_anvil, hx.1]
    change lookup _ u.anvil.job slot = _
    rw [hanvil]
    rfl
  have hgone : (x.syncAnvil.syncHive).solve n = some v ∧ x.syncAnvil.syncHive.rd F.ANV_STAT_phase n = 1
      ∧ x.syncAnvil.syncHive.hive.items = s.hive.items.filter (·.seq != it.seq)
      ∧ ∀ k, k ≠ n → (x.syncAnvil.syncHive).solve k = s.solve k := by
    refine ⟨?_, ?_, ?_, fun k hk => ?_⟩
    · rw [State.solve, State.syncHive_anvil, State.syncAnvil_anvil, hx.1]
      exact (State.solve_setSolve_same u n (some v))
    · have hhiveWord : F.ANV_STAT_phase.addr n 0 ∉ State.hiveWords :=
        State.notMem_hiveWords (by simp only [Fld.addr, F.ANV_STAT_phase]; omega)
      rw [State.syncHive_rd _ hhiveWord, State.syncAnvil_rd_stat _ hn (by decide) (by decide), hphase]
    · rw [State.syncHive_hive, State.syncAnvil_hive, hx.2, hhive]
    · rw [State.solve, State.syncHive_anvil, State.syncAnvil_anvil, hx.1]
      exact (State.solve_setSolve_ne u (some v) hk).trans (State.solve_congr hanvil k)
  rw [State.trace_off _ _ _ _ _ _ _ hoff, hquiet, hjobs]
  cases hjob : s.job it.ctx with
  | none => exact ⟨_, rfl, hgone⟩
  | some j =>
    simp only [hdeadline j hjob, ne_eq, not_true_eq_false, false_and, if_false]
    exact ⟨_, rfl, hgone⟩

/-- The start of a job sets where it starts from, and nothing that a load has found. -/
theorem State.startSolve_keeps (s : State) (v : Solve) (flags wslot : Nat) : (s.startSolve v flags wslot).slot = v.slot
    ∧ (s.startSolve v flags wslot).prob = v.prob ∧ (s.startSolve v flags wslot).hash = v.hash
    ∧ (s.startSolve v flags wslot).outcome = v.outcome := by
  simp only [State.startSolve]
  split_ifs <;> exact ⟨rfl, rfl, rfl, rfl⟩

section Load
variable {s : State} {n : Fin 8} {io : HostIo} {v : Solve} {j : Job} (hsolve : s.solve n = some v) (hrun : v.outcome = none)
  (hphase : s.rd F.ANV_STAT_phase n = 1) (hjob : s.job v.slot = some j) (hdesc : j.desc.isSome = true) (hbody : io.bodyErr = false)
include hsolve hrun hphase hjob hdesc hbody

theorem execJobLoadComplete_loads
    (hcheck : loadCheck io.body (s.rd F.ANV_GCTL_tau_log2) (field j.bytes 0 2) (field j.bytes 40 4) = 0) :
    ∃ t w, execJobLoadComplete n io s = .next t ∧ t.rd F.ANV_STAT_phase n = 2 ∧ t.solve n = some w ∧ w.slot = v.slot
      ∧ w.prob = parseProb io.body (s.rd F.ANV_GCTL_tau_log2) ∧ w.hash = crc64 (hashBytes io.body) ∧ w.outcome = none := by
  simp only [execJobLoadComplete, hsolve, hrun, hphase, hjob, hdesc, hbody, Option.isSome_none, Bool.false_eq_true, ne_eq,
    not_true_eq_false, or_self, and_false, if_false, if_true, hcheck]
  exact ⟨_, _, rfl, State.showSolve_phase _ (State.solve_setSolve_same _ _ _) (by decide),
    (State.showSolve_solve _ _ _ _).trans (State.solve_setSolve_same _ _ _), s.startSolve_keeps _ _ _⟩

theorem execJobLoadComplete_refuses {c : Nat} (hc : c ≠ 0)
    (hcheck : loadCheck io.body (s.rd F.ANV_GCTL_tau_log2) (field j.bytes 0 2) (field j.bytes 40 4) = c) :
    ∃ t e, execJobLoadComplete n io s = .next t ∧ t.rd F.ANV_STAT_phase n = 5
      ∧ t.solve n = some { v with outcome := some e } ∧ e.status = (if c = 1 then 0x11 else 0x12) ∧ e.ending = 7
      ∧ e.loadCheck = c ∧ e.iterate = none := by
  have hrefused : execJobLoadComplete n io s = .next (s.recordEnd n v { status := loadStatus c, ending := 7, loadCheck := c }) := by
    simp only [execJobLoadComplete, hsolve, hrun, hphase, hjob, hdesc, hbody, Option.isSome_none, Bool.false_eq_true, ne_eq,
      not_true_eq_false, or_self, and_false, if_false, if_true, hcheck]
  obtain ⟨hend, -, hphase'⟩ := s.recordEnd_shows n.isLt v { status := loadStatus c, ending := 7, loadCheck := c }
  exact ⟨_, _, hrefused, hphase', hend, rfl, rfl, rfl, rfl⟩

end Load

/-! ## Factorisation and iteration -/

section Run
variable {s : State} {n : Fin 8} {v : Solve} (hsolve : s.solve n = some v) (hrun : v.outcome = none)
include hsolve hrun

theorem execFactorisationComplete_checks (hphase : s.rd F.ANV_STAT_phase n = 2) :
    ∃ t w, execFactorisationComplete n s = .next t ∧ t.free = s.free + 1 ∧ t.solve n = some w ∧ w.slot = v.slot
      ∧ w.pivots ≤ v.prob.n + v.prob.m ∧ (w.checks = v.checks + 1 ∨ ∃ e, w.outcome = some e ∧ e.status = 0x21 ∧ e.ending = 6) := by
  simp only [execFactorisationComplete, hsolve, hrun, hphase, Option.isSome_none, Bool.false_eq_true, ne_eq, not_true_eq_false,
    or_self, if_false]
  have hpivots : s.freshDWord.toNat % (v.prob.n + v.prob.m + 1) ≤ v.prob.n + v.prob.m :=
    Nat.le_of_lt_succ (Nat.mod_lt _ (Nat.succ_pos _))
  generalize s.freshDWord.toNat % (v.prob.n + v.prob.m + 1) = piv at hpivots
  split
  · obtain ⟨hend, hfree, -⟩ := s.drawn.recordEnd_shows n.isLt _ _
    exact ⟨_, _, rfl, hfree, hend, rfl, hpivots, .inr ⟨_, rfl, rfl, rfl⟩⟩
  · obtain ⟨w, hw, hchecked, hfree, -⟩ := (s.drawn.showSolve n 4).checkIterate_checks n.isLt _
    exact ⟨_, w, rfl, hfree.trans (State.showSolve_free _ _ _), hw, hchecked.slot, hchecked.pivots.trans_le hpivots, .inl hchecked.checks⟩

theorem execIteration_iterates (hphase : s.rd F.ANV_STAT_phase n = 4) :
    ∃ t w, execIteration n s = .next t ∧ t.free = s.free + v.prob.n + v.prob.m + 1 ∧ t.solve n = some w ∧ w.k = v.k + 1
      ∧ (w.checks = v.checks + if (v.k + 1) % v.prob.checkEvery = 0 then 1 else 0)
      ∧ (s.iterLimit v ≤ v.k + 1 → w.outcome ≠ none) := by
  have hlast {t : State} {w : Solve} (ht : t.solve n = some w) (hfree : t.free = s.free + v.prob.n + v.prob.m + 1)
      (hjob : t.job v.slot = s.job v.slot) (hslot : w.slot = v.slot) (hprob : w.prob = v.prob) (hk : w.k = v.k + 1) :
      ∃ t' w', (if w.outcome.isNone = true ∧ t.iterLimit w ≤ w.k then Host.Outcome.next (t.recordEnd n w (w.limitEnd 4)) else .next t)
        = (.next t' : Host.Outcome State Fault Refusal) ∧ t'.free = s.free + v.prob.n + v.prob.m + 1 ∧ t'.solve n = some w' ∧ w'.k = v.k + 1
        ∧ w'.checks = w.checks ∧ (s.iterLimit v ≤ v.k + 1 → w'.outcome ≠ none) := by
    have hlimit : t.iterLimit w = s.iterLimit v := by simp only [State.iterLimit, hslot, hprob, hjob]
    rw [hlimit, hk]
    split
    · obtain ⟨hend, hfree', -⟩ := t.recordEnd_shows n.isLt w (w.limitEnd 4)
      exact ⟨_, _, rfl, hfree'.trans hfree, hend, hk, rfl, fun _ => Option.some_ne_none _⟩
    · next hgo => exact ⟨t, w, rfl, hfree, ht, hk, rfl, fun hle hnone => hgo ⟨Option.isNone_iff_eq_none.2 hnone, hle⟩⟩
  simp only [execIteration, hsolve, hrun, hphase, Option.isSome_none, Bool.false_eq_true, ne_eq, not_true_eq_false, or_self, if_false]
  generalize admmStep v.prob v.rho v.cur _ _ = r
  obtain ⟨it, ov⟩ := r
  dsimp only
  generalize hw : ({ v with cur := it, k := v.k + 1, sat := _, outcome := none } : Solve) = w
  generalize hu : (State.setSolve { s with free := s.free + v.prob.n + v.prob.m + 1 } n (some w)).showSolve n 4 = u
  have hsolved : u.solve n = some w := by rw [← hu, State.showSolve_solve, State.solve_setSolve_same]
  have hfree : u.free = s.free + v.prob.n + v.prob.m + 1 := by rw [← hu, State.showSolve_free]; rfl
  have hjob : u.job v.slot = s.job v.slot := by rw [← hu, State.showSolve_job]; rfl
  have hk : w.k = v.k + 1 := by rw [← hw]
  have hchecks : w.checks = v.checks := by rw [← hw]
  have hslot : w.slot = v.slot := by rw [← hw]
  have hprob : w.prob = v.prob := by rw [← hw]
  by_cases hcheck : (v.k + 1) % v.prob.checkEvery = 0
  · obtain ⟨w', hw', hchecked, hfree', hjob'⟩ := u.checkIterate_checks n.isLt w
    simp only [hcheck, if_true, hw']
    obtain ⟨t, w'', hnext, ht, hs, hk'', hc'', hlim⟩ := hlast hw' (hfree'.trans hfree) ((hjob' _).trans hjob) (hchecked.slot.trans hslot)
      (hchecked.prob.trans hprob) (hchecked.k.trans hk)
    exact ⟨t, w'', hnext, ht, hs, hk'', by rw [hc'', hchecked.checks, hchecks], hlim⟩
  · simp only [hcheck, if_false, hsolved]
    obtain ⟨t, w'', hnext, ht, hs, hk'', hc'', hlim⟩ := hlast hsolved hfree hjob hslot hprob hk
    exact ⟨t, w'', hnext, ht, hs, hk'', hc''.trans hchecks, hlim⟩

theorem execRefactorisationComplete_resumes (hphase : s.rd F.ANV_STAT_phase n = 3) :
    ∃ t w, execRefactorisationComplete n s = .next t ∧ t.free = s.free + 1 ∧ t.solve n = some w ∧ w.cur = v.cur
      ∧ (t.rd F.ANV_STAT_phase n = 4 ∧ w = v ∨ ∃ e, w.outcome = some e ∧ e.status = 0x21 ∧ e.ending = 6) := by
  simp only [execRefactorisationComplete, hsolve, hrun, hphase, Option.isSome_none, Bool.false_eq_true, ne_eq, not_true_eq_false,
    or_self, if_false]
  split
  · obtain ⟨hend, hfree, -⟩ := s.drawn.recordEnd_shows n.isLt _ _
    exact ⟨_, _, rfl, hfree, hend, rfl, .inr ⟨_, rfl, rfl, rfl⟩⟩
  · have hdrawn : s.drawn.solve n = some v := hsolve
    exact ⟨_, v, rfl, State.showSolve_free _ _ _, (State.showSolve_solve _ _ _ _).trans hdrawn, rfl,
      .inl ⟨State.showSolve_phase _ hdrawn (by decide), rfl⟩⟩

theorem execJobDeadline_ends {j : Job} (hjob : s.job v.slot = some j) (hdeadline : j.deadline ≠ 0) :
    ∃ t e, execJobDeadline n s = .next t ∧ t.solve n = some { v with outcome := some e } ∧ t.rd F.ANV_STAT_phase n = 5
      ∧ (v.best = none → e.status = (if v.sat then 0x21 else 0x03) ∧ e.ending = 5 ∧ e.iterate = none)
      ∧ (∀ c it, v.best = some (c, it) → e.ending = 3 ∧ e.iterate = some it ∧ e.usable = c.usable) := by
  have hended : execJobDeadline n s = .next ((s.advanceCell j.deadline).recordEnd n v (v.limitEnd 3)) := by
    simp only [execJobDeadline, hsolve, hjob, hrun, Option.isSome_none, Bool.false_eq_true, hdeadline, or_self, if_false]
  obtain ⟨hend, -, hphase⟩ := (s.advanceCell j.deadline).recordEnd_shows n.isLt v (v.limitEnd 3)
  refine ⟨_, _, hended, hend, hphase, fun hbest => ?_, fun c it hbest => ?_⟩
  · simp only [Solve.limitEnd, hbest, and_self]
  · simp only [Solve.limitEnd, hbest, and_self]

end Run

/-! ## Output -/

theorem State.complete_solve (s : State) (id st notes : Nat) (res : List Byte) (ind : Bool) (n : Nat) :
    (s.complete id st notes res ind).solve n = s.solve n := State.solve_congr (s.complete_anvil id st notes res ind) n

/-- An engine that is released has no job, and its slot neither. -/
theorem State.releaseEngine_releases {s : State} {n : Nat} {v : Solve} (hsolve : s.solve n = some v) :
    (s.releaseEngine n).solve n = none ∧ (s.releaseEngine n).job v.slot = none ∧ (s.releaseEngine n).hostMem = s.hostMem := by
  simp only [State.releaseEngine, hsolve]
  generalize hu : (((s.setSolve n none).setJob v.slot none).bump F.ANV_CNT_JOBS_count n).showSolve n 0 = u
  have hanvil : u.anvil = ((s.setSolve n none).setJob v.slot none).anvil := by rw [← hu, State.showSolve_anvil]; rfl
  have htraced : (u.syncAnvil.trace 12 0 (v.slot + 2 ^ 15) (0x80 + n) 0x40 0).anvil = ((s.setSolve n none).setJob v.slot none).anvil := by
    rw [State.trace_anvil, State.syncAnvil_anvil, hanvil]
  refine ⟨?_, ?_, ?_⟩
  · exact (State.solve_congr htraced n).trans (s.solve_setSolve_same n none)
  · exact (State.job_congr htraced v.slot).trans (State.job_setJob_same _ _ _)
  · rw [State.trace_blocks, State.syncAnvil_hostMem, ← hu, State.showSolve_hostMem]
    rfl

theorem State.updateWarm_keeps (s : State) (v : Solve) (e : JobEnd) (flags w : Nat) :
    (s.updateWarm v e flags w).hostMem = s.hostMem ∧ ∀ n, (s.updateWarm v e flags w).solve n = s.solve n := by
  unfold State.updateWarm
  split
  · exact ⟨rfl, fun _ => rfl⟩
  · split <;> exact ⟨rfl, fun _ => rfl⟩

theorem execJobOutput_writes {s : State} {n : Fin 8} {io : HostIo} {v : Solve} {e : JobEnd} {j : Job} {d : Nat}
    (hsolve : s.solve n = some v) (hout : v.outcome = some e) (hjob : s.job v.slot = some j) (hdesc : j.desc = some d)
    (hend : e.ending ≠ 7) (hwrite : io.resultErr = false) :
    ∃ t, execJobOutput n io s = .next t ∧ t.solve n = none ∧ t.job v.slot = none
      ∧ t.hostMem = writeBytes s.hostMem (field j.bytes 32 8) (s.resultBytes v e (field j.bytes 0 2) true) := by
  simp only [execJobOutput, hsolve, hout, hjob, hdesc, State.hostOutput, hend, if_false, hwrite, Bool.false_eq_true]
  generalize writeBytes s.hostMem (field j.bytes 32 8) (s.resultBytes v e (field j.bytes 0 2) true) = m
  have hreleased {u : State} (hu : u.solve n = some v) (hhost : u.hostMem = m) (st notes : Nat) (res : List Byte) (ind : Bool) :
      ∃ t, Host.Outcome.next ((u.releaseEngine n).complete d st notes res ind) = (.next t : Host.Outcome State Fault Refusal)
      ∧ t.solve n = none ∧ t.job v.slot = none ∧ t.hostMem = m := by
    obtain ⟨hnone, hfree, hsame⟩ := State.releaseEngine_releases hu
    refine ⟨_, rfl, ?_, ?_, ?_⟩
    · rw [State.complete_solve, hnone]
    · rw [State.job, State.complete_anvil]
      exact hfree
    · rw [State.complete_hostMem, hsame, hhost]
  generalize hu : ({ s with hostMem := m } : State) = u
  have hengine : u.solve n = some v := by rw [← hu]; exact hsolve
  have hhost : u.hostMem = m := by rw [← hu]
  split
  · obtain ⟨hsame, hkept⟩ := u.updateWarm_keeps v e (field j.bytes 0 2) (byteAt j.bytes 2)
    exact hreleased ((hkept n).trans hengine) (hsame.trans hhost) _ _ _ _
  · exact hreleased hengine hhost _ _ _ _

/-- Settles O15: a job step by step, each by what the engine's registers and the job's slot hold afterwards. -/
theorem anvilSolve : Obligations.AnvilSolve := by
  unfold Obligations.AnvilSolve
  refine ⟨fun s n it => execAnvilDispatch_dispatches, fun s n io v j hs hr hp hj hd hb => execJobLoadComplete_loads hs hr hp hj hd hb,
    fun s n io v j c hs hr hp hj hd hb => execJobLoadComplete_refuses hs hr hp hj hd hb,
    fun s n v hs hr => execFactorisationComplete_checks hs hr, fun s n v hs hr => execIteration_iterates hs hr,
    fun s n v hs hr => execRefactorisationComplete_resumes hs hr, fun s n v j hs hr => execJobDeadline_ends hs hr,
    fun s n io v e j d => execJobOutput_writes, fun s n io v e j hs ho hj hd => ?_⟩
  change execJobOutput n io s = _
  simp only [execJobOutput, hs, ho, hj, hd]

end Sys2Proof.Machine

/-! What later proofs need of the ring counters that an outcome writes, and of the fields of an inline result. -/

namespace Sys2Proof.Machine

namespace State

variable (s : State)

/-! ## The lowest byte of a register is none of the ring counters -/

theorem syncRing_rd_low {f : Fld} {r i j : Nat} (hf : f.lo + f.width ≤ 8) : (s.syncRing r).rd f i j = s.rd f i j := by
  have hout : f.lo + f.width ≤ F.HIF_SQ_STAT_outstanding.lo := Nat.le_trans hf (by decide)
  have hstaged : f.lo + f.width ≤ F.HIF_SQ_INFO_staged.lo := hf
  rw [syncRing, rd_wr_disjoint _ (.inr (.inr hstaged)), rd_wr_disjoint _ (.inr (.inr hout))]

theorem startDesc_rd_low (d : Desc) {f : Fld} {i j : Nat} (hf : f.lo + f.width ≤ 8) : (s.startDesc d).rd f i j = s.rd f i j :=
  State.syncRing_rd_low _ hf

theorem complete_rd_low (id status notes : Nat) (res : List Byte) (ind : Bool) {f : Fld} {i j : Nat} (hf : f.lo + f.width ≤ 8) :
    (s.complete id status notes res ind).rd f i j = s.rd f i j := by
  obtain ⟨-, heq⟩ | ⟨ring, waiting, heq⟩ := s.complete_cases id status notes res ind
  · rw [heq]
  · rw [heq, syncRing_rd_low _ hf]
    rfl

variable {s}

theorem takesEvent_complete {src : Nat} (h : s.takesEvent src) (id status notes : Nat) (res : List Byte) (ind : Bool) :
    (s.complete id status notes res ind).takesEvent src := by
  obtain ⟨hon, hroom⟩ := h
  exact ⟨by rw [s.complete_rd_low _ _ _ _ _ (by decide)]; exact hon, by rw [complete_events]; exact hroom⟩

theorem takesEvent_startDesc {src : Nat} (h : s.takesEvent src) (d : Desc) : (s.startDesc d).takesEvent src := by
  obtain ⟨hon, hroom⟩ := h
  exact ⟨by rw [s.startDesc_rd_low _ (by decide)]; exact hon, hroom⟩

/-- A change outside the registers and the staging of events. -/
theorem takesEvent_same {t : State} {src : Nat} (h : s.takesEvent src) (hregs : t.regs = s.regs)
    (hcopies : t.glb.t3copies = s.glb.t3copies) (hev : t.hif.events = s.hif.events) : t.takesEvent src :=
  takesEvent_of_word h (by simp only [word, copies, hregs, hcopies]) hev

end State

/-! ## Inline results -/

theorem length_putBytes {l bs : List Byte} {i : Nat} (h : i + bs.length ≤ l.length) : (putBytes l i bs).length = l.length := by
  simp only [putBytes, List.length_append, List.length_take, List.length_drop]
  omega

/-- A byte is a field of one byte. -/
theorem byteAt_eq_field (l : List Byte) (i : Nat) : byteAt l i = field l i 1 := by
  rw [byteAt, field, List.getD_eq_getElem?_getD, ← List.head?_drop]
  cases l.drop i with
  | nil => rfl
  | cons b bs => simp [le]

theorem field_putBytes_same {l : List Byte} {i : Nat} (n v : Nat) (h : i ≤ l.length) :
    field (putBytes l i (toBytes n v)) i n = v % 256 ^ n :=
  field_toBytes n v _ (by rw [List.length_take]; omega)

/-- A field beside the bytes just laid down. -/
theorem field_putBytes_apart {l bs : List Byte} {i j n : Nat} (hj : j + bs.length ≤ l.length) (h : i + n ≤ j ∨ j + bs.length ≤ i) :
    field (putBytes l j bs) i n = field l i n := by
  have hlen : (l.take j).length = j := by rw [List.length_take]; omega
  rw [field, field, putBytes, List.append_assoc]
  rcases h with h | h
  · rw [List.drop_append_of_le_length (by omega), List.take_append_of_le_length (by rw [List.length_drop, hlen]; omega),
      List.drop_take, List.take_take, Nat.min_eq_left (by omega)]
  · rw [← List.append_assoc, List.drop_append, List.drop_of_length_le (by rw [List.length_append, hlen]; omega),
      List.length_append, hlen, List.nil_append, List.drop_drop]
    have hskip : j + bs.length + (i - (j + bs.length)) = i := by omega
    rw [hskip]

/-- Values of an inline result lie inside its sixteen bytes. -/
def ResultFits (l : List (Nat × Nat × Nat)) : Prop := ∀ p ∈ l, p.1 - 16 + p.2.1 ≤ 16

theorem length_result {l : List (Nat × Nat × Nat)} (h : ResultFits l) : (result l).length = 16 := by
  refine foldl_holds (P := fun r : List Byte => r.length = 16) (fun r p hp hr => ?_) (List.length_replicate ..)
  have := h p hp
  rw [length_putBytes (by rw [length_toBytes]; omega), hr]

/-- An inline result of full length is not padded. -/
theorem take_result {l : List (Nat × Nat × Nat)} (h : ResultFits l) : (result l ++ List.replicate 16 0).take 16 = result l :=
  List.take_left' (length_result h)

/-- A value of an inline result is read back where no later one covers it. -/
theorem field_result {pre post : List (Nat × Nat × Nat)} {i n v : Nat} (h : ResultFits (pre ++ (i, n, v) :: post))
    (hpost : ∀ p ∈ post, i - 16 + n ≤ p.1 - 16 ∨ p.1 - 16 + p.2.1 ≤ i - 16) :
    field (result (pre ++ (i, n, v) :: post)) (i - 16) n = v % 256 ^ n := by
  have hpre := length_result (l := pre) fun p hp => h p (List.mem_append_left _ hp)
  have hfit := h (i, n, v) (List.mem_append_right _ List.mem_cons_self)
  have hread : field (putBytes (result pre) (i - 16) (toBytes n v)) (i - 16) n = v % 256 ^ n :=
    field_putBytes_same n v (by rw [hpre]; simp only at hfit; omega)
  have hlen : (putBytes (result pre) (i - 16) (toBytes n v)).length = 16 := by
    rw [length_putBytes (by rw [length_toBytes, hpre]; exact hfit), hpre]
  have hkept : ∀ p ∈ post, p.1 - 16 + p.2.1 ≤ 16 := fun p hp => h p (List.mem_append_right _ (List.mem_cons_of_mem _ hp))
  rw [result, List.foldl_append, List.foldl_cons]
  refine (foldl_holds (P := fun r : List Byte => r.length = 16 ∧ field r (i - 16) n = v % 256 ^ n) (fun r p hp hr => ?_)
    ⟨hlen, hread⟩).2
  obtain ⟨hr, hfield⟩ := hr
  have hp16 : p.1 - 16 + (toBytes p.2.1 p.2.2).length ≤ r.length := by rw [length_toBytes, hr]; exact hkept p hp
  refine ⟨(length_putBytes hp16).trans hr, (field_putBytes_apart hp16 ?_).trans hfield⟩
  rw [length_toBytes]
  exact hpost p hp

end Sys2Proof.Machine

/-! What later proofs need of the chains of the planner: which operations leave them alone, and what ends a segment or holds a
chain. -/

namespace Sys2Proof.Machine

namespace State

variable (s : State)

@[simp] theorem chain_setChain_same (c : Nat) (v : Chain) : (s.setChain c v).chain c = v := lookup_store_same _ _ _

theorem chain_setChain_ne {c k : Nat} (v : Chain) (h : k ≠ c) : (s.setChain c v).chain k = s.chain k := lookup_store_ne _ _ h

/-- Chains are looked up in the planner's own table. -/
theorem chain_congr {t : State} (h : t.plan = s.plan) (c : Nat) : t.chain c = s.chain c := by rw [chain, chain, h]

@[simp] theorem wr_chain (f : Fld) (v i j c : Nat) : (s.wr f v i j).chain c = s.chain c := rfl
@[simp] theorem drawn_chain (c : Nat) : s.drawn.chain c = s.chain c := rfl
@[simp] theorem startDesc_chain (d : Desc) (c : Nat) : (s.startDesc d).chain c = s.chain c := rfl
@[simp] theorem raise_chain (src code inst : Nat) (d : DWord) (c : Nat) : (s.raise src code inst d).chain c = s.chain c :=
  s.chain_congr (s.raise_plan src code inst d) c
@[simp] theorem complete_chain (id status notes : Nat) (res : List Byte) (ind : Bool) (c : Nat) :
    (s.complete id status notes res ind).chain c = s.chain c := s.chain_congr (s.complete_plan id status notes res ind) c
@[simp] theorem endSeg_chain (g : Seg) (st rem len radius c : Nat) : (s.endSeg g st rem len radius).chain c = s.chain c :=
  s.complete_chain _ _ _ _ _ _
@[simp] theorem endSeg_free (g : Seg) (st rem len radius : Nat) : (s.endSeg g st rem len radius).free = s.free :=
  s.complete_free _ _ _ _ _

/-- Descriptors that end leave the planner alone. -/
theorem foldl_complete_plan (l : List Nat) (st : Nat) : (l.foldl (fun s d => s.complete d st) s).plan = s.plan :=
  foldl_keeps (fun t : State => t.plan) (fun t _ _ => t.complete_plan _ _ _ _ _) s

theorem foldl_endSeg_plan (l : List Seg) (st : Nat) : (l.foldl (fun s g => s.endSeg g st 0 0 0) s).plan = s.plan :=
  foldl_keeps (fun t : State => t.plan) (fun t _ _ => t.complete_plan _ _ _ _ _) s

theorem foldl_complete_events (l : List Nat) (st : Nat) : (l.foldl (fun s d => s.complete d st) s).hif.events = s.hif.events :=
  foldl_keeps (fun t : State => t.hif.events) (fun t _ _ => t.complete_events _ _ _ _ _) s

/-- No deceleration was put off. -/
theorem applyLater_none {c : Nat} (h : (s.chain c).later = none) : s.applyLater c = s := by
  simp only [applyLater, h]

/-! ## Holds -/

@[simp] theorem heldEvent_chain_same (c cause st : Nat) : (s.heldEvent c cause st).chain c = { s.chain c with heldCause := cause } := by
  rw [heldEvent, raise_chain, chain_setChain_same]

theorem heldEvent_chain_ne {c k : Nat} (cause st : Nat) (h : k ≠ c) : (s.heldEvent c cause st).chain k = s.chain k := by
  rw [heldEvent, raise_chain, chain_setChain_ne _ _ h]

theorem heldEvent_hasEvent {s : State} (c cause st : Nat) (h : s.takesEvent 23) : (s.heldEvent c cause st).hasEvent 23 cause c := by
  unfold heldEvent
  exact raise_hasEvent _ _ _ (takesEvent_same h (by rfl) (by rfl) (by rfl))

@[simp] theorem holdHere_chain_same (c cause : Nat) : (s.holdHere c cause).chain c =
    { s.chain c with state := 4, heldNext := none, holdDue := false, halt := none, heldCause := cause } := by
  rw [holdHere, heldEvent_chain_same, chain_setChain_same]

theorem holdHere_hasEvent {s : State} (c cause : Nat) (h : s.takesEvent 23) : (s.holdHere c cause).hasEvent 23 cause c := by
  unfold holdHere
  exact heldEvent_hasEvent _ _ _ (takesEvent_same h (by rfl) (by rfl) (by rfl))

/-! ## Ramps -/

/-- A ramp changes windows of engines only. -/
theorem commitRamp_blocks (c t0 rise : Nat) : (s.commitRamp c t0 rise).plan = s.plan ∧ (s.commitRamp c t0 rise).hif = s.hif := by
  unfold commitRamp
  refine foldl_holds (P := fun t : State => t.plan = s.plan ∧ t.hif = s.hif) (fun t n _ h => ?_) ⟨rfl, rfl⟩
  dsimp only
  split
  · exact h
  · exact h

theorem stopRamp_chain_same (c : Nat) : (s.stopRamp c).chain c = { s.chain c with state := 5, holdDue := false } := by
  simp only [stopRamp]
  rw [chain_setChain_same, s.chain_congr (s.commitRamp_blocks c _ 4).1]

theorem stopRamp_hif (c : Nat) : (s.stopRamp c).hif = s.hif := (s.commitRamp_blocks c _ 4).2

/-- A latched following error is a matter of registers. -/
theorem clearFe_onlyRegs (c : Nat) : s.OnlyRegs (s.clearFe c) :=
  OnlyRegs.foldl fun _ _ => OnlyRegs.foldl fun u _ => ((OnlyRegs.refl u).wr _ _ _ _).wr _ _ _ _

/-- A chain that asks for no zone has no request to take back. -/
theorem withdraw_none {c : Nat} (h : (s.chain c).req = none) : s.withdraw c = s := by simp only [withdraw, h]

end State

end Sys2Proof.Machine

/-! Proofs about motion segments (O16). -/

namespace Sys2Proof.Machine

/-- A segment of a body that passes its checks. -/
theorem State.queueSeg_accepts {s : State} {r : Nat} {io : HostIo} {op : Nat} {d : Desc} (hnext : s.nextMotion r op = some d)
    (hop : op ≠ 0x0105) (hbody : io.bodyErr = false) (hcart : op = 0x0104 → byteAt io.body 0 = 1 → Config.cartesian r = true)
    (hjoint : op = 0x0104 → byteAt io.body 0 = 0 → d.op 37 1 = 0) (hres : segReserved op io.body = false)
    (hbad : s.segBad r d io.body = none) :
    s.queueSeg r op io = (s.drawn.setChain r { s.chain r with queue := (s.chain r).queue ++
      [{ desc := d.id, op := op, bytes := d.bytes, body := io.body }] }).stir r := by
  have hunreadable : ¬ (op ≠ 0x0105 ∧ io.bodyErr = true) := by simp [hbody]
  have hplain : ¬ (op = 0x0104 ∧ byteAt io.body 0 = 1 ∧ (!Config.cartesian r) = true) := fun ⟨h4, h1, hc⟩ => by simp [hcart h4 h1] at hc
  have haxis : ¬ (op = 0x0104 ∧ byteAt io.body 0 = 0 ∧ d.op 37 1 ≠ 0) := fun ⟨h4, h0, hd⟩ => hd (hjoint h4 h0)
  have hclear : ¬ (op ≠ 0x0105 ∧ io.body.length = bodyLen op (s.chainAxes r) io.body ∧ segReserved op io.body = true) := by simp [hres]
  simp only [State.queueSeg, hnext, hunreadable, hplain, haxis, hclear, hop, if_false, hbad]

theorem execDwell_queues {s : State} {r : Fin 64} {d : Desc} (hnext : s.nextMotion r 0x0105 = some d)
    (hzones : ((bitsIn (d.op 32 4)).any fun z => (s.zoneEnt z).scope == 0) = false) :
    execDwell r s = .next ((s.drawn.setChain r { s.chain r with queue := (s.chain r).queue ++
      [{ desc := d.id, op := 0x0105, bytes := d.bytes, body := [] }] }).stir r) := by
  simp only [execDwell, State.queueSeg, hnext, ne_eq, not_true_eq_false, false_and, if_false, if_true, hzones, Bool.false_eq_true,
    Nat.reduceEqDiff]

theorem execMoveLine_refuses {s : State} {r : Fin 64} {io : HostIo} {d : Desc} {off : Nat} (hnext : s.nextMotion r 0x0102 = some d)
    (hbody : io.bodyErr = false) (hres : segReserved 0x0102 io.body = false) (hbad : s.segBad r d io.body = some off) :
    execMoveLine r io s = .next (s.drawn.fail d.id 0x12 off) := by
  simp only [execMoveLine, State.queueSeg, hnext, hbody, hres, Bool.false_eq_true, and_false, if_false, Nat.reduceEqDiff, false_and, hbad]

theorem execSegmentComplete_completes {s : State} {c : Fin 16} {g : Seg} (hcur : (s.chain c).cur = some g) (hstate : (s.chain c).state = 1)
    (hop : g.op ≠ 0x0105) (hqueue : (s.chain c).queue = []) (hheld : (s.chain c).heldNext = none) (hhalt : (s.chain c).halt = none)
    (hlater : (s.chain c).later = none) :
    ∃ t, execSegmentComplete c s = .next t ∧ (t.chain c).cur = none ∧ (t.chain c).state = 0 ∧ t.free = s.free + 1
      ∧ t.hif = (s.drawn.endSeg g 1 0 0 0).hif ∧ ∀ k, k ≠ c.val → t.chain k = s.chain k := by
  have hgo : ¬ ((s.chain c).state ≠ 1 ∧ (s.chain c).state ≠ 6) := fun h => h.1 hstate
  simp only [execSegmentComplete, hcur, hgo, if_false, hop, hqueue, List.isEmpty_nil, Bool.not_true, Bool.and_false, Bool.false_and,
    Bool.not_false, if_true, hheld, hhalt]
  generalize hu : s.drawn.endSeg g 1 0 0 0 = u
  have hchain (k : Nat) : u.chain k = s.chain k := by rw [← hu, State.endSeg_chain, State.drawn_chain]
  rw [State.applyLater_none _ (by simp [hlater])]
  simp only [State.startNext, State.chain_setChain_same, Option.isSome_none, Bool.false_eq_true, if_false]
  refine ⟨_, rfl, ?_, ?_, ?_, rfl, fun k hk => ?_⟩
  · rw [State.chain_setChain_same]
  · rw [State.chain_setChain_same]
  · rw [State.setChain_free, State.setChain_free, ← hu, State.endSeg_free]
    rfl
  · rw [State.chain_setChain_ne _ _ hk, State.chain_setChain_ne _ _ hk, hchain]

theorem execChainStandstill_holds {s : State} {c : Fin 16} {rem len : Word} {g : Seg} {h : Halt} (hcur : (s.chain c).cur = some g)
    (hhalt : (s.chain c).halt = some h) (hstate : (s.chain c).state = 3 ∨ (s.chain c).state = 5) (hcancel : h.cancel = false)
    (hdiscard : h.discard = false) (hlater : (s.chain c).later = none) (hresumes : (s.chain c).resumes = []) (hev : s.takesEvent 23) :
    ∃ t, execChainStandstill c rem len s = .next t ∧ (t.chain c).state = 4 ∧ (t.chain c).cur = none
      ∧ (t.chain c).halt = none ∧ (t.chain c).kept = some (g, rem.toNat, len.toNat) ∧ (t.chain c).heldCause = h.cause
      ∧ t.hasEvent 23 h.cause c := by
  have hgo : ¬ ((s.chain c).state ≠ 3 ∧ (s.chain c).state ≠ 5) := fun ⟨h3, h5⟩ => hstate.elim h3 h5
  have hrest {u : State} {v : Chain} (hv : v.state = 4 ∧ v.cur = none ∧ v.halt = none ∧ v.kept = some (g, rem.toNat, len.toNat))
      (hv' : v.later = none) (hu : u.takesEvent 23) :
      ∃ t, Host.Outcome.next (h.waiting.foldl (fun s d => s.complete d 1) (((u.setChain c v).applyLater c).heldEvent c h.cause 4))
        = (.next t : Host.Outcome State Fault Refusal) ∧ (t.chain c).state = 4 ∧ (t.chain c).cur = none ∧ (t.chain c).halt = none
        ∧ (t.chain c).kept = some (g, rem.toNat, len.toNat) ∧ (t.chain c).heldCause = h.cause ∧ t.hasEvent 23 h.cause c := by
    rw [State.applyLater_none _ (by rw [State.chain_setChain_same, hv'])]
    generalize hx : (u.setChain c v).heldEvent c h.cause 4 = x
    have hheld : x.chain c = { v with heldCause := h.cause } := by rw [← hx, State.heldEvent_chain_same, State.chain_setChain_same]
    have hchain : (h.waiting.foldl (fun s d => s.complete d 1) x).chain c = { v with heldCause := h.cause } :=
      (State.chain_congr _ (x.foldl_complete_plan _ _) c).trans hheld
    have hevents : x.hasEvent 23 h.cause c := by
      rw [← hx]
      exact State.heldEvent_hasEvent _ _ _ (State.takesEvent_same hu (by rfl) (by rfl) (by rfl))
    obtain ⟨hstate, hcur, hhalt, hkept⟩ := hv
    refine ⟨_, rfl, ?_, ?_, ?_, ?_, ?_, ?_⟩
    · rw [hchain, hstate]
    · rw [hchain, hcur]
    · rw [hchain, hhalt]
    · rw [hchain, hkept]
    · rw [hchain]
    · rw [State.hasEvent, State.foldl_complete_events]
      exact hevents
  simp only [execChainStandstill, hhalt, hgo, if_false, hcur, hcancel, hdiscard, Bool.false_eq_true, hresumes, List.foldl_nil]
  cases h.status with
  | none => exact hrest ⟨rfl, rfl, rfl, rfl⟩ hlater hev
  | some st => exact hrest ⟨rfl, rfl, rfl, rfl⟩ (by rw [State.endSeg_chain, hlater]) (State.takesEvent_complete hev _ _ _ _ _)

/-- Settles O16: the checks decide whether a segment joins the queue of its chain; the end of one and the standstill of a halted
chain by what the chain holds afterwards. -/
theorem segmentCommands : Obligations.SegmentCommands := by
  unfold Obligations.SegmentCommands
  refine ⟨fun s r io i op d hi hnext hbody hcart hjoint hres hbad => ?_, fun s r d => execDwell_queues,
    fun s r io d off => execMoveLine_refuses, fun s c g => execSegmentComplete_completes, fun s c rem len g h => execChainStandstill_holds⟩
  simp only [List.mem_cons, Prod.mk.injEq, List.not_mem_nil, or_false] at hi
  obtain ⟨rfl, rfl⟩ | ⟨rfl, rfl⟩ | ⟨rfl, rfl⟩ | ⟨rfl, rfl⟩ := hi
  all_goals exact congrArg Host.Outcome.next (State.queueSeg_accepts hnext (by decide) hbody hcart hjoint hres hbad)

end Sys2Proof.Machine

/-! Proofs about the immediate operations of a MOTION ring (O17). -/

namespace Sys2Proof.Machine

namespace State

variable {s : State}

theorem runNow_of_next {r op : Nat} {d : Desc} (h : s.nextMotion r op = some d) (f : State → Desc → State) :
    s.runNow r op f = f (s.startDesc d) d := by
  rw [runNow, h]

theorem nextMotion_ring {r op : Nat} {d : Desc} (h : s.nextMotion r op = some d) : d.ring = r := by
  have hp := List.find?_some h
  simp only [Bool.and_eq_true, beq_iff_eq] at hp
  tauto

theorem holdChain_idle {c cause d : Nat} (hstate : (s.chain c).state = 0) :
    s.holdChain c cause (some d) = (s.holdHere c cause).complete d 1 := by
  simp only [holdChain, hstate]

theorem holdChain_moving {c cause d : Nat} (hstate : (s.chain c).state = 1) (hhalt : (s.chain c).halt = none) :
    s.holdChain c cause (some d) = s.setChain c { s.chain c with halt := some { cause := cause, waiting := [d] }, holdDue := true } := by
  simp [holdChain, hstate, hhalt]

theorem stopChain_moving {c : Nat} {h : Halt} (hstate : (s.chain c).state = 1) (hhalt : (s.chain c).halt = none) :
    s.stopChain c h = (s.setChain c { s.chain c with halt := some h }).stopRamp c := by
  simp [stopChain, hstate, hhalt]

theorem resumeChain_waits {c d : Nat} (hinject : s.injecting c = false) (hstate : (s.chain c).state = 3 ∨ (s.chain c).state = 5) :
    s.resumeChain c d = (s.clearFe c).setChain c { s.chain c with resumes := (s.chain c).resumes ++ [d] } := by
  rcases hstate with hstate | hstate <;> simp [resumeChain, hinject, hstate]

theorem discardAll_chain {c : Nat} (hreq : (s.chain c).req = none) : (s.discardAll c).chain c =
    { s.chain c with queue := [], kept := none, cur := none, state := 0, halt := none, heldNext := none, holdDue := false } := by
  simp only [discardAll, withdraw_none s hreq]
  rw [chain_congr _ (foldl_endSeg_plan _ _ _), chain_setChain_same]

end State

/-- The inline result of STATUS (R182). -/
def statusResult (st where' queued tag rem tokens : Nat) : List Byte :=
  result [(16, 1, st), (17, 1, where'), (18, 2, queued), (20, 4, tag), (24, 4, rem), (28, 4, tokens)]

theorem statusResult_fields (st where' queued tag rem tokens : Nat) :
    (statusResult st where' queued tag rem tokens ++ List.replicate 16 0).take 16 = statusResult st where' queued tag rem tokens
    ∧ byteAt (statusResult st where' queued tag rem tokens) 0 = st % 256
    ∧ field (statusResult st where' queued tag rem tokens) 2 2 = queued % 2 ^ 16
    ∧ field (statusResult st where' queued tag rem tokens) 12 4 = tokens % 2 ^ 32 := by
  have hfits : ResultFits [(16, 1, st), (17, 1, where'), (18, 2, queued), (20, 4, tag), (24, 4, rem), (28, 4, tokens)] := by
    simp [ResultFits]
  refine ⟨take_result hfits, ?_, ?_, ?_⟩
  · rw [byteAt_eq_field]
    exact field_result (pre := []) hfits (by simp)
  · exact field_result (pre := [_, _]) hfits (by simp)
  · exact field_result (pre := [_, _, _, _, _]) hfits (by simp)

theorem execStatus_eq {s : State} {r : Fin 64} {d : Desc} (hnext : s.nextMotion r 0x0115 = some d) :
    ∃ where' tag rem, execStatus r s = .next ((s.startDesc d).drawn.complete d.id 1 0
      (statusResult (s.chain r).state where' (s.chain r).queue.length tag rem (s.chain r).tokens)) :=
  ⟨_, _, _, congrArg Host.Outcome.next (State.runNow_of_next hnext _)⟩

theorem execStatus_completes {s : State} {r : Fin 64} {d : Desc} (hnext : s.nextMotion r 0x0115 = some d)
    (hfind : s.hif.desc.find? (·.id == d.id) = some d) (hquiet : d.quiet = false) :
    ∃ t, execStatus r s = .next t ∧ t.plan = s.plan ∧ ∃ c ∈ t.hif.compl, c.id = d.id ∧ c.status = 1
      ∧ byteAt c.result 0 = (s.chain r).state % 256 ∧ field c.result 2 2 = (s.chain r).queue.length % 2 ^ 16
      ∧ field c.result 12 4 = (s.chain r).tokens % 2 ^ 32 := by
  obtain ⟨where', tag, rem, heq⟩ := execStatus_eq hnext
  obtain ⟨hlen, hstate, hqueue, htokens⟩ :=
    statusResult_fields (s.chain r).state where' (s.chain r).queue.length tag rem (s.chain r).tokens
  generalize statusResult (s.chain r).state where' (s.chain r).queue.length tag rem (s.chain r).tokens = res at heq hlen hstate hqueue htokens
  have hdesc : (s.startDesc d).drawn.hif = (s.startDesc d).hif := rfl
  have hplan : (s.startDesc d).drawn.plan = s.plan := rfl
  generalize (s.startDesc d).drawn = u at heq hdesc hplan
  have hfind' : u.hif.desc.find? (·.id == d.id) = some { d with started := true } := by rw [hdesc, State.startDesc_find hfind]
  obtain ⟨c, hc, hid, -, -, hstatus, -, hresult⟩ := State.complete_waits hfind' rfl rfl hquiet 1 0 res false
  rw [hlen] at hresult
  exact ⟨_, heq, (State.complete_plan _ _ _ _ _ _).trans hplan, c, hc, hid, hstatus, by rw [hresult, hstate], by rw [hresult, hqueue],
    by rw [hresult, htokens]⟩

/-- Settles O17: each operation by the equation of the branch it takes. -/
theorem motionCommands : Obligations.MotionCommands := by
  unfold Obligations.MotionCommands
  refine ⟨fun s r d hnext => ?_, fun s c cause d hstate hev => ?_, fun s c cause d => State.holdChain_moving, fun s r d hnext => ?_,
    fun s c h hstate hhalt => ?_, fun s r d hnext => ?_, fun s c d hinject hstate => ?_, fun s r d hnext hstate => ?_,
    fun s c hreq => ?_, fun s r d hnext => ?_, fun s r d => execStatus_completes⟩
  · exact congrArg Host.Outcome.next (State.runNow_of_next hnext _)
  · rw [State.holdChain_idle hstate]
    refine ⟨?_, ?_, ?_⟩
    · rw [State.complete_chain, State.holdHere_chain_same]
    · rw [State.complete_chain, State.holdHere_chain_same]
    · rw [State.hasEvent, State.complete_events]
      exact State.holdHere_hasEvent _ _ hev
  · exact congrArg Host.Outcome.next (State.runNow_of_next hnext _)
  · rw [State.stopChain_moving hstate hhalt]
    refine ⟨?_, ?_, ?_⟩
    · rw [State.stopRamp_chain_same]
    · rw [State.stopRamp_chain_same, State.chain_setChain_same]
    · rw [State.stopRamp_hif]
      rfl
  · exact congrArg Host.Outcome.next (State.runNow_of_next hnext _)
  · rw [State.resumeChain_waits hinject hstate]
    refine ⟨by rw [State.chain_setChain_same], ?_⟩
    rw [State.setChain_hif, State.clearFe_onlyRegs]
  · refine congrArg Host.Outcome.next ((State.runNow_of_next hnext _).trans ?_)
    exact if_pos hstate
  · rw [State.discardAll_chain hreq]
    exact ⟨rfl, rfl, rfl, rfl⟩
  · refine ⟨_, congrArg Host.Outcome.next (State.runNow_of_next hnext _), ?_, ?_, ?_, rfl⟩
    iterate 3 rw [State.chain_setChain_same]; rfl

end Sys2Proof.Machine

/-! What later proofs need of the engines of Temper: their tables, and what the end of their tuning operations leaves alone. -/

namespace Sys2Proof.Machine

@[simp] theorem Engine.ax_setAx_same (e : Engine) (j : Nat) (v : Slot) : (e.setAx j v).ax j = v := lookup_store_same _ _ _

theorem Engine.ax_setAx_ne (e : Engine) {j k : Nat} (v : Slot) (h : k ≠ j) : (e.setAx j v).ax k = e.ax k := lookup_store_ne _ _ h

@[simp] theorem Engine.chainWin_setChainWin_same (e : Engine) (c : Nat) (v : ChainWin) : (e.setChainWin c v).chainWin c = v :=
  lookup_store_same _ _ _

namespace State

variable (s : State)

/-! ## Tables -/

@[simp] theorem eng_setEng_same (n : Nat) (v : Engine) : (s.setEng n v).eng n = v := lookup_store_same _ _ _

theorem eng_setEng_ne {n k : Nat} (v : Engine) (h : k ≠ n) : (s.setEng n v).eng k = s.eng k := lookup_store_ne _ _ h

@[simp] theorem capset_setCapset_same (k : Nat) (v : CapSet) : (s.setCapset k v).capset k = v := lookup_store_same _ _ _

@[simp] theorem sramOf_setSram_same (n : Nat) (m : List Host.Cell) : (s.setSram n m).sramOf n = m := lookup_store_same _ _ _

theorem eng_congr {t : State} (h : t.temper = s.temper) (n : Nat) : t.eng n = s.eng n := by rw [eng, eng, h]

theorem capset_congr {t : State} (h : t.temper = s.temper) (n : Nat) : t.capset n = s.capset n := by rw [capset, capset, h]

theorem sramOf_congr {t : State} (h : t.sram = s.sram) (n : Nat) : t.sramOf n = s.sramOf n := by rw [sramOf, sramOf, h]

@[simp] theorem wr_eng (f : Fld) (v i j n : Nat) : (s.wr f v i j).eng n = s.eng n := rfl
@[simp] theorem bump_eng (f : Fld) (i j k n : Nat) : (s.bump f i j k).eng n = s.eng n := rfl
@[simp] theorem setCapset_eng (k : Nat) (v : CapSet) (n : Nat) : (s.setCapset k v).eng n = s.eng n := rfl
@[simp] theorem startDesc_eng (d : Desc) (n : Nat) : (s.startDesc d).eng n = s.eng n := rfl
@[simp] theorem startDesc_capset (d : Desc) (n : Nat) : (s.startDesc d).capset n = s.capset n := rfl
@[simp] theorem complete_eng (id status notes : Nat) (res : List Byte) (ind : Bool) (n : Nat) :
    (s.complete id status notes res ind).eng n = s.eng n := s.eng_congr (s.complete_temper id status notes res ind) n
@[simp] theorem complete_capset (id status notes : Nat) (res : List Byte) (ind : Bool) (n : Nat) :
    (s.complete id status notes res ind).capset n = s.capset n := s.capset_congr (s.complete_temper id status notes res ind) n
@[simp] theorem raise_eng (src code inst : Nat) (d : DWord) (n : Nat) : (s.raise src code inst d).eng n = s.eng n :=
  s.eng_congr (s.raise_temper src code inst d) n

/-! ## The lowest byte of a register -/

/-- The lowest bytes of the registers that no event writes are the same in two states: no outcome of a descriptor changes them. -/
def LowBytes (s t : State) : Prop := ∀ (f : Fld) (i j : Nat), f.lo + f.width ≤ 8 → f.addr i j ∉ eventWords → t.rd f i j = s.rd f i j

variable {s} {t u : State}

theorem LowBytes.refl (s : State) : s.LowBytes s := fun _ _ _ _ _ => rfl

theorem LowBytes.trans (h : s.LowBytes t) (h' : t.LowBytes u) : s.LowBytes u :=
  fun f i j hlow hev => (h' f i j hlow hev).trans (h f i j hlow hev)

/-- A change outside the registers. -/
theorem LowBytes.same (h : s.LowBytes t) (hregs : u.regs = t.regs) (hcopies : u.glb.t3copies = t.glb.t3copies) : s.LowBytes u :=
  fun f i j hlow hev => by
    have hword (off : Nat) : u.word off = t.word off := by simp only [word, copies, hregs, hcopies]
    rw [← h f i j hlow hev, rd, rd, hword]

theorem LowBytes.wr (h : s.LowBytes t) {g : Fld} {v i j : Nat} (hg : 8 ≤ g.lo) : s.LowBytes (t.wr g v i j) :=
  fun f i j hlow hev => (t.rd_wr_disjoint (.inr (.inr (Nat.le_trans hlow hg)))).trans (h f i j hlow hev)

theorem LowBytes.raise (h : s.LowBytes t) {src : Nat} (hsrc : src < 128) {code inst : Nat} {d : DWord} :
    s.LowBytes (t.raise src code inst d) :=
  fun f i j hlow hev => (t.raise_rd code inst d hsrc hev).trans (h f i j hlow hev)

theorem LowBytes.complete (h : s.LowBytes t) {id status notes : Nat} {res : List Byte} {ind : Bool} :
    s.LowBytes (t.complete id status notes res ind) :=
  fun f i j hlow hev => (t.complete_rd_low _ _ _ _ _ hlow).trans (h f i j hlow hev)

theorem LowBytes.ite {c : Prop} [Decidable c] (h : s.LowBytes t) (h' : s.LowBytes u) : s.LowBytes (if c then t else u) := by
  split <;> assumption

/-! ## The end of tuning operations -/

/-- Two states show the same engines, free values and lowest bytes of registers. -/
def SameEngines (s t : State) : Prop := t.temper.eng = s.temper.eng ∧ t.free = s.free ∧ s.LowBytes t

theorem SameEngines.eng (h : s.SameEngines t) (n : Nat) : t.eng n = s.eng n := by
  rw [State.eng, State.eng, h.1]

theorem SameEngines.rd (h : s.SameEngines t) {f : Fld} {i j : Nat} (hlow : f.lo + f.width ≤ 8) (hev : f.addr i j ∉ eventWords) :
    t.rd f i j = s.rd f i j := h.2.2 f i j hlow hev

theorem SameEngines.trans (h : s.SameEngines t) (h' : t.SameEngines u) : s.SameEngines u := by
  obtain ⟨heng, hfree, hlow⟩ := h
  obtain ⟨heng', hfree', hlow'⟩ := h'
  exact ⟨heng'.trans heng, hfree'.trans hfree, hlow.trans hlow'⟩

theorem SameEngines.complete (h : s.SameEngines t) {id status notes : Nat} {res : List Byte} {ind : Bool} :
    s.SameEngines (t.complete id status notes res ind) := by
  obtain ⟨heng, hfree, hlow⟩ := h
  exact ⟨by rw [complete_temper]; exact heng, by rw [complete_free]; exact hfree, hlow.complete⟩

theorem SameEngines.tmpEvent (h : s.SameEngines t) {n : Nat} (hn : n < 64) {code slot value : Nat} :
    s.SameEngines (t.tmpEvent n code slot value) := by
  obtain ⟨heng, hfree, hlow⟩ := h
  unfold State.tmpEvent
  exact ⟨by rw [raise_temper]; exact heng, by rw [raise_free]; exact hfree, hlow.raise (by omega)⟩

theorem SameEngines.syncTune (h : s.SameEngines t) {n : Nat} : s.SameEngines (t.syncTune n) := by
  obtain ⟨heng, hfree, hlow⟩ := h
  exact ⟨heng, hfree, hlow.wr (by decide)⟩

theorem SameEngines.stopCapture (h : s.SameEngines t) {k : Option Nat} : s.SameEngines (t.stopCapture k) := by
  obtain ⟨heng, hfree, hlow⟩ := h
  cases k with
  | none => exact ⟨heng, hfree, hlow⟩
  | some k => exact ⟨heng, hfree, hlow⟩

theorem SameEngines.endTune (h : s.SameEngines t) {x : Tune} (hx : x.engine < 64) {status : Nat} : s.SameEngines (t.endTune x status) := by
  obtain ⟨heng, hfree, hlow⟩ := h
  have hfiltered : s.SameEngines { t with temper := { t.temper with tune := t.temper.tune.filter (·.desc != x.desc) } } :=
    ⟨heng, hfree, hlow⟩
  unfold State.endTune
  dsimp only
  refine SameEngines.syncTune (SameEngines.complete (SameEngines.tmpEvent ?_ hx))
  split
  · exact hfiltered.stopCapture
  · exact hfiltered

theorem SameEngines.endTunes (h : s.SameEngines t) {n : Nat} (hn : n < 64) {status : Nat} : s.SameEngines (t.endTunes n status) := by
  have htunes : s.SameEngines ((t.temper.tune.filter (·.engine == n)).foldl (fun s x => s.endTune x status) t) := by
    refine foldl_holds (P := s.SameEngines) (fun u x hx hu => hu.endTune ?_) h
    have heq : x.engine = n := by simpa using (List.mem_filter.1 hx).2
    exact heq ▸ hn
  unfold State.endTunes
  dsimp only
  obtain ⟨heng, hfree, hlow⟩ := htunes
  refine SameEngines.syncTune (foldl_holds (P := s.SameEngines) (fun u x _ hu => hu.complete) ?_)
  exact ⟨heng, hfree, hlow⟩

theorem sameEngines_refl (s : State) : s.SameEngines s := ⟨rfl, rfl, LowBytes.refl s⟩

/-! ## Registers that follow the configuration of an engine -/

variable (s)

@[simp] theorem syncTune_temper (n : Nat) : (s.syncTune n).temper = s.temper := rfl
@[simp] theorem syncTune_hif (n : Nat) : (s.syncTune n).hif = s.hif := rfl
@[simp] theorem syncEngine_temper (n : Nat) : (s.syncEngine n).temper = s.temper := rfl
@[simp] theorem syncEngine_hif (n : Nat) : (s.syncEngine n).hif = s.hif := rfl
@[simp] theorem syncEngine_eng (n k : Nat) : (s.syncEngine n).eng k = s.eng k := rfl
@[simp] theorem syncTune_capset (n k : Nat) : (s.syncTune n).capset k = s.capset k := rfl
@[simp] theorem syncEngine_capset (n k : Nat) : (s.syncEngine n).capset k = s.capset k := rfl

theorem syncEngine_onlyRegs (n : Nat) : s.OnlyRegs (s.syncEngine n) := rfl

theorem syncEngine_rd_low (n : Nat) {f : Fld} {i j : Nat} (hlow : f.lo + f.width ≤ 8)
    (hne : f.addr i j ≠ F.TMP_RUNTIME_declared.addr n 0) : (s.syncEngine n).rd f i j = s.rd f i j := by
  have hcoupled : f.lo + f.width ≤ F.TMP_STAT_coupled.lo := Nat.le_trans hlow (by decide)
  have hslots : f.lo + f.width ≤ F.TMP_STAT_slots.lo := hlow
  simp only [syncEngine]
  rw [rd_wr_ne _ hne, put_eq, rd_wr_disjoint _ (.inr (.inr hcoupled)), rd_wr_disjoint _ (.inr (.inr hslots))]

end State

end Sys2Proof.Machine

/-! Proofs about the commands of a Temper engine (O20). -/

namespace Sys2Proof.Machine

/-- The registers of an engine are none that an event writes. -/
theorem notMem_engineWords {f : Fld} {n : Nat} (hn : n < 64) (hf : f.s1 = 0x1000 ∧ 0x80000 ≤ f.off ∧ f.off < 0x81000) :
    f.addr n 0 ∉ eventWords := by
  obtain ⟨hs1, hlo, hhi⟩ := hf
  refine State.notMem_eventWords ?_
  simp only [Fld.addr, hs1]
  omega

/-! ## Traps -/

/-- The registers of an engine that has trapped, before its tuning operations end. -/
theorem State.trapEngine_shows (s : State) (n : Fin 64) (cause : Nat) : (s.trapEngine n cause).rd F.TMP_STAT_trapped n = 1
    ∧ (s.trapEngine n cause).rd F.TMP_STAT_running n = 0 ∧ (s.trapEngine n cause).rd F.TMP_CTL_enable n = 0
    ∧ (s.trapEngine n cause).rd F.TMP_STAT_stopped n = 1 ∧ (s.trapEngine n cause).rd F.TMP_PROG_bg_active n = 0
    ∧ (s.trapEngine n cause).rd F.TMP_STAT_epoch n = (s.rd F.TMP_STAT_epoch n + 1) % 2 ^ F.TMP_STAT_epoch.width
    ∧ ((s.trapEngine n cause).eng n).out = [] ∧ (s.trapEngine n cause).free = s.free := by
  unfold State.trapEngine
  dsimp only
  generalize hv : State.wr _ F.TMP_PROG_bg_active 0 n = v
  generalize hu : (if cause = 2 then v.wr F.TMP_ERR_trap_ill 1 n else if cause = 3 then v.wr F.TMP_ERR_ecc_uncorr 1 n else v) = u
  have hsame : u.SameEngines ((u.endTunes n 0xE0).tmpEvent n 4 0 cause) := ((State.sameEngines_refl u).endTunes n.isLt).tmpEvent n.isLt
  have herr {f : Fld} (hill : f.Sep F.TMP_ERR_trap_ill) (hecc : f.Sep F.TMP_ERR_ecc_uncorr) : u.rd f n = v.rd f n := by
    rw [← hu]
    split_ifs
    · exact v.rd_wr_sep hill
    · exact v.rd_wr_sep hecc
    · rfl
  have hshow {f : Fld} (hlow : f.lo + f.width ≤ 8) (hf : f.s1 = 0x1000 ∧ 0x80000 ≤ f.off ∧ f.off < 0x81000)
      (hill : f.Sep F.TMP_ERR_trap_ill) (hecc : f.Sep F.TMP_ERR_ecc_uncorr) :
      ((u.endTunes n 0xE0).tmpEvent n 4 0 cause).rd f n = v.rd f n :=
    (hsame.rd hlow (notMem_engineWords n.isLt hf)).trans (herr hill hecc)
  have heng : u.eng n = v.eng n := by rw [← hu]; split_ifs <;> rfl
  have hfree : u.free = v.free := by rw [← hu]; split_ifs <;> rfl
  refine ⟨?_, ?_, ?_, ?_, ?_, ?_, ?_, ?_⟩
  · rw [hshow (by decide) (by decide) (by decide) (by decide), ← hv]
    simp (disch := decide) only [State.rd_wr_sep, State.rd_wr_same]
    rfl
  · rw [hshow (by decide) (by decide) (by decide) (by decide), ← hv]
    simp (disch := decide) only [State.rd_wr_sep, State.rd_wr_same]
    rfl
  · rw [hshow (by decide) (by decide) (by decide) (by decide), ← hv]
    simp (disch := decide) only [State.rd_wr_sep, State.rd_wr_same]
    rfl
  · rw [hshow (by decide) (by decide) (by decide) (by decide), ← hv]
    simp (disch := decide) only [State.rd_wr_sep, State.rd_wr_same]
    rfl
  · rw [hshow (by decide) (by decide) (by decide) (by decide), ← hv]
    simp (disch := decide) only [State.rd_wr_same]
    rfl
  · rw [hshow (by decide) (by decide) (by decide) (by decide), ← hv]
    simp (disch := decide) only [State.rd_wr_sep, State.rd_wr_same]
    rfl
  · rw [hsame.eng, heng, ← hv]
    simp only [State.wr_eng, State.eng_setEng_same]
  · rw [hsame.2.1, hfree, ← hv]
    rfl

theorem execTemperResetWrite_resets (s : State) (n : Fin 64) :
    ∃ t, execTemperResetWrite n s = .next t ∧ t.rd F.TMP_STAT_trapped n = 0 ∧ t.rd F.TMP_CTL_enable n = 0
      ∧ t.rd F.TMP_STAT_stopped n = 1 ∧ t.free = s.free + 89 ∧ (t.eng n).dp.rrb = 0 ∧ (t.eng n).dp.flight = []
      ∧ (t.eng n).saved = none ∧ (t.eng n).ovr = 0 := by
  obtain ⟨-, -, henable, hstopped, -, -, -, hfree⟩ := s.trapEngine_shows n 4
  simp only [execTemperResetWrite]
  generalize s.trapEngine n 4 = u at henable hstopped hfree
  generalize hv : u.wr F.TMP_STAT_trapped 0 n = v
  have hrd {f : Fld} (hf : f.Sep F.TMP_STAT_trapped) : v.rd f n = u.rd f n := by rw [← hv]; exact u.rd_wr_sep hf
  have htrapped : v.rd F.TMP_STAT_trapped n = 0 := by rw [← hv, State.rd_wr_same _ (by decide)]; rfl
  have hfree' : v.free = s.free := by rw [← hv]; exact hfree
  have heng (x : Engine) (k : Nat) : (({ v.setEng n x with free := k } : State).eng n) = x := v.eng_setEng_same n x
  refine ⟨_, rfl, htrapped, (hrd (by decide)).trans henable, (hrd (by decide)).trans hstopped, ?_, ?_, ?_, ?_, ?_⟩
  · rw [hfree']
  all_goals rw [heng]
  all_goals rfl

/-! ## Enable and disable -/

theorem execTemperEnable_enables {s : State} {n : Fin 64} (hoff : s.on F.TMP_CTL_enable n = false)
    (htrap : s.on F.TMP_STAT_trapped n = false) :
    ∃ t, execTemperEnable n s = .next t ∧ t.rd F.TMP_CTL_enable n = 1 ∧ t.rd F.TMP_STAT_stopped n = 0
      ∧ (t.eng n).init = true ∧ ∀ k, k ≠ n.val → t.eng k = s.eng k := by
  simp only [execTemperEnable, hoff, htrap, Bool.false_eq_true, if_false]
  refine ⟨_, rfl, ?_, ?_, ?_, fun k hk => ?_⟩
  · rw [State.setEng_rd, State.rd_wr_sep _ (by decide), State.rd_wr_same _ (by decide)]
    rfl
  · rw [State.setEng_rd, State.rd_wr_same _ (by decide)]
    rfl
  · rw [State.eng_setEng_same]
  · rw [State.eng_setEng_ne _ _ hk]
    rfl

/-- No program of the engine has run to its end. -/
theorem State.endProgram_idle {s : State} {n : Nat} (h : s.on F.TMP_STAT_running n = false) : s.endProgram n = s := by
  simp only [State.endProgram, h, Bool.not_false, true_or, if_true]

theorem State.disableEngine_idle {s : State} {n : Nat} (h : s.on F.TMP_STAT_running n = false) :
    s.disableEngine n = (((s.wr F.TMP_CTL_enable 0 n).wr F.TMP_PROG_bg_active 0 n).setEng n
      { s.eng n with init := false, saved := none, dp := { (s.eng n).dp with run := 0, goal := none } }).wr F.TMP_STAT_stopped 1 n := by
  have hidle : ((s.wr F.TMP_CTL_enable 0 n).wr F.TMP_PROG_bg_active 0 n).on F.TMP_STAT_running n = false := by
    rw [State.on_wr_sep _ (by decide), State.on_wr_sep _ (by decide), h]
  exact if_neg (by rw [State.on, State.setEng_rd, ← State.on, hidle]; exact Bool.false_ne_true)

theorem execTemperDisable_disables {s : State} {n : Fin 64} (hon : s.on F.TMP_CTL_enable n = true) (hsto : s.allSto n = true)
    (hidle : s.on F.TMP_STAT_running n = false) :
    ∃ t, execTemperDisable n s = .next t ∧ t.rd F.TMP_CTL_enable n = 0 ∧ t.rd F.TMP_STAT_stopped n = 1
      ∧ t.rd F.TMP_PROG_bg_active n = 0 ∧ (t.eng n).init = false := by
  simp only [execTemperDisable, hon, hsto, Bool.not_true, Bool.false_eq_true, if_false, if_true, State.disableEngine_idle hidle]
  generalize hx : ({ s.eng n with init := false, saved := none, dp := { (s.eng n).dp with run := 0, goal := none } } : Engine) = x
  generalize hu : (((s.wr F.TMP_CTL_enable 0 n).wr F.TMP_PROG_bg_active 0 n).setEng n x).wr F.TMP_STAT_stopped 1 n = u
  have hrd (f : Fld) (hf : f.Sep F.TMP_STAT_stopped) : u.rd f n = ((s.wr F.TMP_CTL_enable 0 n).wr F.TMP_PROG_bg_active 0 n).rd f n := by
    rw [← hu, State.rd_wr_sep _ hf, State.setEng_rd]
  have hrunning : u.on F.TMP_STAT_running n = false := by
    rw [State.on, hrd _ (by decide), ← State.on, State.on_wr_sep _ (by decide), State.on_wr_sep _ (by decide), hidle]
  rw [State.endProgram_idle hrunning]
  refine ⟨_, rfl, ?_, ?_, ?_, ?_⟩
  · rw [hrd _ (by decide), State.rd_wr_sep _ (by decide), State.rd_wr_same _ (by decide)]
    rfl
  · rw [← hu, State.rd_wr_same _ (by decide)]
    rfl
  · rw [hrd _ (by decide), State.rd_wr_same _ (by decide)]
    rfl
  · rw [← hu, State.wr_eng, State.eng_setEng_same, ← hx]

theorem execFeClear_clears (s : State) (n : Fin 64) (j : Fin 16) :
    ∃ t, execFeClear n j s = .next t ∧ t.rd F.TMP_AX_STAT_fe_fault n j = 0 ∧ t.rd F.TMP_AX_STAT_fe_count n j = 0
      ∧ ((t.eng n).ax j).halted = false ∧ s.OnlyWords t [F.TMP_AX_STAT_fe_fault.addr n j]
      ∧ ∀ i, i ≠ j.val → (t.eng n).ax i = (s.eng n).ax i := by
  simp only [execFeClear]
  refine ⟨_, rfl, ?_, ?_, ?_, ?_, fun i hi => ?_⟩
  · rw [State.setEng_rd, State.rd_wr_sep _ (by decide), State.rd_wr_same _ (by decide)]
    rfl
  · rw [State.setEng_rd, State.rd_wr_same _ (by decide)]
    rfl
  · rw [State.eng_setEng_same, Engine.ax_setAx_same]
  · exact State.OnlyWords.wr (State.OnlyWords.wr (State.OnlyWords.refl s _) (List.mem_singleton_self _)) (List.mem_singleton_self _)
  · rw [State.eng_setEng_same, Engine.ax_setAx_ne _ _ hi]

/-! ## Program start -/

/-- A row of samples goes to the capture sets. -/
theorem State.captureRow_keeps (s : State) (n i : Nat) : (s.captureRow n i).temper.eng = s.temper.eng
    ∧ (s.captureRow n i).regs = s.regs ∧ (s.captureRow n i).glb = s.glb ∧ (s.captureRow n i).tim = s.tim := by
  simp only [State.captureRow]
  split_ifs <;> exact ⟨rfl, rfl, rfl, rfl⟩

theorem execTemperProgramStart_runs {s u : State} {n : Fin 64} {fb : List Meas} {k : BitVec 24} (hend : s.endProgram n = s)
    (hon : s.on F.TMP_CTL_enable n = true) (htrap : s.on F.TMP_STAT_trapped n = false) (hidle : s.on F.TMP_STAT_running n = false)
    (hinit : (s.eng n).init = false) (hdue : s.feedbackDue n = false)
    (hu : u = (((((s.wr F.TMP_STAT_running 1 n).setEng n { s.eng n with out := [], ran := k.toNat, late := false, kick := false }).tngLate
        n).runSlots n fb).tickTunes n)) (hrun : u.on F.TMP_STAT_trapped n = false) :
    ∃ t, execTemperProgramStart n fb k false s = .next t ∧ (t.eng n).endAt = t.cellNs + (t.eng n).ran
      ∧ t.rd F.TMP_STAT_running n = u.rd F.TMP_STAT_running n ∧ (t.eng n).out = (u.eng n).out := by
  have hgo : ¬ ((!s.on F.TMP_CTL_enable n) = true ∨ s.on F.TMP_STAT_trapped n = true ∨ s.on F.TMP_STAT_running n = true
      ∨ (s.eng n).init = true ∨ s.feedbackDue n = true) := by simp [hon, htrap, hidle, hinit, hdue]
  unfold execTemperProgramStart
  rw [hend]
  dsimp only
  rw [if_neg hgo, if_neg Bool.false_ne_true, ← hu, if_neg (by rw [hrun]; exact Bool.false_ne_true)]
  obtain ⟨heng, hregs, hglb, htim⟩ := foldl_holds (P := fun t : State => t.temper.eng = u.temper.eng ∧ t.regs = u.regs ∧ t.glb = u.glb
      ∧ t.tim = u.tim) (f := fun s i => s.captureRow n i) (l := List.range 16) (s := u) (fun t i _ h => by
        obtain ⟨heng, hregs, hglb, htim⟩ := h
        obtain ⟨heng', hregs', hglb', htim'⟩ := t.captureRow_keeps n i
        exact ⟨heng'.trans heng, hregs'.trans hregs, hglb'.trans hglb, htim'.trans htim⟩) ⟨rfl, rfl, rfl, rfl⟩
  generalize (List.range 16).foldl (fun s i => s.captureRow n i) u = v at heng hregs hglb htim
  have hout : v.eng n = u.eng n := by rw [State.eng, State.eng, heng]
  have hword (off : Nat) : v.word off = u.word off := by simp only [State.word, State.copies, hregs, hglb]
  refine ⟨_, rfl, ?_, ?_, ?_⟩
  · rw [State.eng_setEng_same]
    rfl
  · rw [State.setEng_rd, State.rd, hword]
    rfl
  · rw [State.eng_setEng_same, hout]

/-! ## Laws -/

theorem State.lawsOf_startDesc (s : State) (d : Desc) (n : Nat) : (s.startDesc d).lawsOf n = s.lawsOf n := by
  rw [State.lawsOf, State.lawsOf, State.on, State.on, s.startDesc_rd_low d (by decide)]
  rfl

theorem State.on_startDesc_stopped (s : State) (d : Desc) (n : Nat) :
    (s.startDesc d).on F.TMP_STAT_stopped n = s.on F.TMP_STAT_stopped n := by
  rw [State.on, State.on, s.startDesc_rd_low d (by decide)]

section LawLoad
variable {s : State} {r : Fin 64} {io : HostIo} {d : Desc} (hstart : s.Starts r 0x0330 d) (hbody : io.bodyErr = false)
  (hstage : bitAt (d.op 34 1) 0 = false)
include hstart hbody hstage

theorem execLawLoad_loads (hstopped : s.on F.TMP_STAT_stopped (d.op 32 1) = true) (hok : Law.ok io.body = true)
    (huses : usesOk (s.lawsOf (d.op 32 1)) (d.op 33 1) io.body = true)
    (hsize : lawsSize (putLaw (s.lawsOf (d.op 32 1)) (d.op 33 1) io.body) ≤ 32768) :
    ∃ t, execLawLoad r io s = .next t ∧ t.rd F.TMP_STAT_page (d.op 32 1) = 0 ∧ t.Completed d 1
      ∧ t.lawsOf (d.op 32 1) = putLaw (s.lawsOf (d.op 32 1)) (d.op 33 1) io.body := by
  have hfits : ¬ 32768 < lawsSize (putLaw (s.lawsOf (d.op 32 1)) (d.op 33 1) io.body) := not_lt.2 hsize
  simp only [execLawLoad, hstart.runDesc, State.withBody, hbody, hstage, Bool.false_eq_true, if_false, Bool.not_false, if_true,
    State.on_startDesc_stopped, State.lawsOf_startDesc, hstopped, hok, huses, hfits, Bool.not_true, decide_false, Bool.or_self]
  generalize putLaw (s.lawsOf (d.op 32 1)) (d.op 33 1) io.body = l
  generalize d.op 32 1 = n
  generalize hx : ({ ((s.startDesc d).eng n).setStates (d.op 33 1) [] with page0 := l, staged := false } : Engine) = x
  generalize hu : (((s.startDesc d).setEng n x).wr F.TMP_STAT_page 0 n).syncEngine n = u
  have hpage : u.rd F.TMP_STAT_page n = 0 := by
    rw [← hu, State.syncEngine_rd_low _ _ (by decide) (by simp [Fld.addr, F.TMP_STAT_page, F.TMP_RUNTIME_declared]),
      State.rd_wr_same _ (by decide)]
    rfl
  have hpage' : (u.complete d.id 1).rd F.TMP_STAT_page n = 0 := (u.complete_rd_low _ _ _ _ _ (by decide)).trans hpage
  have heng : u.eng n = x := by rw [← hu]; exact (s.startDesc d).eng_setEng_same n x
  refine ⟨_, rfl, hpage', hstart.completed (by rw [← hu]; rfl), ?_⟩
  rw [State.lawsOf, State.on_eq_false .. |>.2 hpage', if_neg Bool.false_ne_true, State.complete_eng, heng, ← hx]

theorem execLawLoad_refuses (hrunning : s.on F.TMP_STAT_stopped (d.op 32 1) = false) :
    ∃ t, execLawLoad r io s = .next t ∧ t.Completed d 0x15 ∧ t.temper = s.temper := by
  simp only [execLawLoad, hstart.runDesc, State.withBody, hbody, hstage, Bool.false_eq_true, if_false, Bool.not_false, if_true,
    State.on_startDesc_stopped, hrunning]
  exact ⟨_, rfl, hstart.completed rfl, State.complete_temper _ _ _ _ _ _⟩

end LawLoad

/-- Settles O20: each command by the equation of the branch it takes, and a trap by what the end of the tuning operations leaves. -/
theorem temperEngine : Obligations.TemperEngine := by
  unfold Obligations.TemperEngine
  refine ⟨fun s u n fb k => execTemperProgramStart_runs, fun s n fb k hend hon htrap hidle hinit hdue => ?_, fun s n cause => ?_,
    fun s n => execTemperEnable_enables, fun s n hoff htrap => ?_, fun s n => execTemperDisable_disables, fun s n hon hsto => ?_,
    fun s n => execTemperResetWrite_resets s n, fun s n j => execFeClear_clears s n j,
    fun s r io d hs hb hst hstop hok hu hl _ => execLawLoad_loads hs hb hst hstop hok hu hl,
    fun s r io d hs hb hst hrun => execLawLoad_refuses hs hb hst hrun⟩
  · change execTemperProgramStart n fb k true s = _
    simp only [execTemperProgramStart, hend, hon, htrap, hidle, hinit, hdue, Bool.not_true, Bool.false_eq_true, or_self, if_false, if_true]
  · obtain ⟨htrapped, hrunning, henable, hstopped, hbg, hepoch, hout, -⟩ := s.trapEngine_shows n cause
    exact ⟨htrapped, hrunning, henable, hstopped, hbg, hepoch, hout⟩
  · change execTemperEnable n s = _
    simp only [execTemperEnable, hoff, htrap, Bool.false_eq_true, if_false, if_true]
  · change execTemperDisable n s = _
    simp only [execTemperDisable, hon, hsto, Bool.not_true, Bool.false_eq_true, if_false]

end Sys2Proof.Machine

/-! Proofs about tuning operations (O21). -/

namespace Sys2Proof.Machine

/-! ## What a start leaves of the configuration of the axes -/

theorem State.startDesc_rd_high {s : State} {d : Desc} (hring : d.ring < 64) {f : Fld} {i j : Nat} (hf : 0x12000 ≤ f.off) :
    (s.startDesc d).rd f i j = s.rd f i j :=
  State.startDesc_rd_of_lt hring (.inr (by simp only [Fld.addr]; omega))

theorem State.slotsOf_startDesc {s : State} {d : Desc} (hring : d.ring < 64) (n : Nat) : (s.startDesc d).slotsOf n = s.slotsOf n := by
  simp only [State.slotsOf, State.on, State.startDesc_rd_high hring (f := F.TMP_AX_CFG_valid) (by decide)]

theorem State.axisHome_startDesc {s : State} {d : Desc} (hring : d.ring < 64) (a : Nat) : (s.startDesc d).axisHome a = s.axisHome a := by
  simp only [State.axisHome, State.slotsOf_startDesc hring, State.startDesc_rd_high hring (f := F.TMP_AX_CFG_axis) (by decide)]

theorem State.Starts.ring_lt {s : State} {r : Fin 64} {opcode : Nat} {d : Desc} (h : s.Starts r opcode d) : d.ring < 64 := by
  rw [h.ring]
  exact r.isLt

/-! ## INJECT, CAPTURE_SET and CAPTURE -/

theorem execInject_waits {s : State} {r : Fin 64} {io : HostIo} {d : Desc} {n j : Nat} (hstart : s.Starts r 0x0601 d)
    (hbody : io.bodyErr = false) (hhome : s.axisHome (d.op 32 1) = some (n, j))
    (hstand : s.on F.TMP_AX_CFG_in_chain n j = true →
      (s.chain (s.rd F.TMP_AX_CFG_chain n j)).state = 0 ∨ (s.chain (s.rd F.TMP_AX_CFG_chain n j)).state = 4)
    (hsine : d.op 34 1 = 2 → 2 * d.op 48 4 * s.tim.cycleNs ≤ 10 ^ 12)
    (hlines : d.op 34 1 = 4 → io.body.length % 8 = 0 ∧ 0 < io.body.length ∧ io.body.length ≤ 256) :
    ∃ t u, execInject r io s = .next t ∧ t.temper.tune = s.temper.tune ++ [u] ∧ u.desc = d.id ∧ u.inject = true ∧ u.engine = n
      ∧ u.slot = j ∧ u.start = (if d.deadline = 0 then s.cellNs + 10000 else d.deadline) ∧ u.started = false
      ∧ t.hif.compl = s.hif.compl := by
  have hring := hstart.ring_lt
  have hread : ¬ (d.ext = true ∧ io.bodyErr = true) := by simp [hbody]
  have hin : (s.startDesc d).on F.TMP_AX_CFG_in_chain n j = s.on F.TMP_AX_CFG_in_chain n j := by
    rw [State.on, State.on, State.startDesc_rd_high hring (by decide)]
  have hmoving : ¬ (s.on F.TMP_AX_CFG_in_chain n j = true ∧ (s.chain (s.rd F.TMP_AX_CFG_chain n j)).state ≠ 0
      ∧ (s.chain (s.rd F.TMP_AX_CFG_chain n j)).state ≠ 4) := fun ⟨hin, h0, h4⟩ => (hstand hin).elim h0 h4
  have hfast : ¬ (d.op 34 1 = 2 ∧ 10 ^ 12 < 2 * d.op 48 4 * (s.startDesc d).tim.cycleNs) :=
    fun ⟨h2, hlt⟩ => absurd (hsine h2) (not_le.2 hlt)
  have hbad : ¬ (d.op 34 1 = 4 ∧ (io.body.length % 8 ≠ 0 ∨ io.body.length = 0 ∨ 256 < io.body.length)) := by
    rintro ⟨h4, h⟩
    obtain ⟨hmod, hpos, hle⟩ := hlines h4
    omega
  unfold execInject
  rw [hstart.runDesc, if_neg hread, State.axisHome_startDesc hring, hhome]
  dsimp only
  rw [hin, State.startDesc_rd_high hring (by decide), State.startDesc_chain, if_neg hmoving, if_neg hfast, if_neg hbad]
  exact ⟨_, _, rfl, rfl, rfl, rfl, rfl, rfl, rfl, rfl, rfl⟩

theorem execCapture_waits {s : State} {r : Fin 64} {d : Desc} (hstart : s.Starts r 0x0603 d)
    (hset : (s.capset (d.op 32 1)).channels ≠ []) :
    ∃ t u, execCapture r s = .next t ∧ t.temper.tune = s.temper.tune ++ [u] ∧ u.desc = d.id ∧ u.inject = false
      ∧ u.engine = (s.capset (d.op 32 1)).engine ∧ u.set = some (d.op 32 1) ∧ u.started = false := by
  have hnonempty : (s.capset (d.op 32 1)).channels.isEmpty = false := by simpa using hset
  simp only [execCapture, hstart.runDesc, State.startDesc_capset, hnonempty, Bool.false_eq_true, if_false]
  exact ⟨_, _, rfl, rfl, rfl, rfl, rfl, rfl, rfl⟩

theorem execCaptureSet_sets {s : State} {r : Fin 64} {d : Desc} {n : Nat} (hstart : s.Starts r 0x0602 d) (hcount : 0 < d.op 33 1)
    (hchannels : ∀ i, i < d.op 33 1 → (s.axisHome (d.op (40 + 2 * i) 1)).map (·.1) = some n ∧ quantityOk (d.op (41 + 2 * i) 1) = true)
    (halign : d.op 56 8 % 64 = 0) :
    ∃ t, execCaptureSet r s = .next t
      ∧ (if Config.tuneBase ≤ d.op 56 8 ∧ d.op 56 8 + 64 + 4 * d.op 33 1 * d.op 36 4 ≤ Config.tuneBase + Config.tuneSize then
          t.Completed d 1 ∧ (t.capset (d.op 32 1)).engine = n
            ∧ (t.capset (d.op 32 1)).channels = (List.range (d.op 33 1)).map (fun i => (d.op (40 + 2 * i) 1, d.op (41 + 2 * i) 1))
            ∧ (t.capset (d.op 32 1)).samples = d.op 36 4 ∧ (t.capset (d.op 32 1)).addr = d.op 56 8
        else t.Completed d 0x12 ∧ t.temper = s.temper) := by
  have hring := hstart.ring_lt
  generalize hchs : (List.range (d.op 33 1)).map (fun i => (d.op (40 + 2 * i) 1, d.op (41 + 2 * i) 1)) = chs
  have hall : ∀ c ∈ chs, (s.axisHome c.1).map (·.1) = some n ∧ quantityOk c.2 = true := by
    rw [← hchs]
    simp only [List.mem_map, List.mem_range]
    rintro c ⟨i, hi, rfl⟩
    exact hchannels i hi
  have hne : chs ≠ [] := by
    rw [← hchs]
    simpa using Nat.pos_iff_ne_zero.1 hcount
  obtain ⟨c, l, rfl⟩ := List.exists_cons_of_ne_nil hne
  have hquant : (c :: l).all (fun c => quantityOk c.2) = true := List.all_eq_true.2 fun c hc => (hall c hc).2
  have hhome : (s.axisHome c.1).map (·.1) = some n := (hall c List.mem_cons_self).1
  have hsame : (l.map fun c => (s.axisHome c.1).map (·.1)).all (· == some n) = true := by
    rw [List.all_map]
    exact List.all_eq_true.2 fun x hx => beq_iff_eq.2 (hall x (List.mem_cons_of_mem _ hx)).1
  simp only [execCaptureSet, hstart.runDesc, State.axisHome_startDesc hring, hchs, List.map_cons, hhome, hsame, hquant, halign, bne_self_eq_false,
    Bool.not_true, Bool.false_or, Bool.or_false, Bool.not_eq_true', Bool.and_eq_false_iff, decide_eq_false_iff_not, ← not_and_or, List.headD_cons,
    Option.getD_some]
  by_cases hfit : Config.tuneBase ≤ d.op 56 8 ∧ d.op 56 8 + 64 + 4 * d.op 33 1 * d.op 36 4 ≤ Config.tuneBase + Config.tuneSize
  · simp only [hfit, not_true_eq_false, if_false, if_true, and_self]
    refine ⟨_, rfl, hstart.completed (t := (s.startDesc d).setCapset _ _) rfl, ?_⟩
    rw [State.complete_capset, State.capset_setCapset_same]
    exact ⟨rfl, rfl, rfl, rfl⟩
  · simp only [hfit, not_false_eq_true, if_false, if_true]
    exact ⟨_, rfl, hstart.completed rfl, State.complete_temper _ _ _ _ _ _⟩

/-! ## Injections that start and end -/

theorem execInjectionStart_starts {s : State} {r : Fin 64} {u : Tune} {k : Nat} (htune : s.temper.tune = [u]) (hwait : u.started = false)
    (hring : (s.hif.desc.any fun d => d.id == u.desc && d.ring == r.val) = true) (hdue : 0 ≤ cellDiff s.tim.lastInstant u.start)
    (hset : u.set = some k) :
    ∃ t, execInjectionStart r s = .next t ∧ t.temper.tune = [{ u with started := true }]
      ∧ (t.capset k).running = true ∧ (t.capset k).taken = 0 ∧ (t.capset k).staging = [] := by
  have hfind : (s.temper.tune.find? fun t => !t.started && s.hif.desc.any fun d => d.id == t.desc && d.ring == r.val) = some u := by
    rw [htune, List.find?_singleton]
    simp [hwait, hring]
  unfold execInjectionStart
  rw [hfind]
  dsimp only
  rw [if_neg (not_lt.2 hdue)]
  rw [hset]
  dsimp only
  generalize hl : (s.temper.tune.map fun x => if x.desc = u.desc then { x with started := true } else x) = l
  have hstarted : l = [{ u with started := true }] := by rw [← hl, htune]; simp
  rw [hset] at hstarted
  generalize hv : ({ s with temper := { s.temper with tune := l } } : State) = v
  have htunes : v.temper.tune = l := by rw [← hv]
  refine ⟨_, rfl, ?_, ?_⟩
  · rw [State.syncEngine_temper, State.syncTune_temper]
    exact htunes.trans hstarted
  · rw [State.syncEngine_capset, State.syncTune_capset, State.capset_setCapset_same]
    exact ⟨rfl, rfl, rfl⟩

theorem State.tuneFind {s : State} {r : Fin 64} {u : Tune} {d : Desc} (htune : s.temper.tune = [u]) (hstarted : u.started = true)
    (hdesc : s.hif.desc = [d]) (hid : d.id = u.desc) (hring : d.ring = r.val) :
    (s.temper.tune.find? fun t => t.started && s.hif.desc.any fun d => d.id == t.desc && d.ring == r.val) = some u := by
  rw [htune, List.find?_singleton]
  simp [hstarted, hdesc, hid, hring]

theorem execInjectionEnd_completes {s : State} {r : Fin 64} {u : Tune} {d : Desc} (htune : s.temper.tune = [u]) (hstarted : u.started = true)
    (hinject : u.inject = true) (hending : u.ending = none) (hset : u.set = none) (hdesc : s.hif.desc = [d]) (hid : d.id = u.desc)
    (hring : d.ring = r.val) (hquiet : d.quiet = false) (hmode : s.mode = 2) (hdone : field u.bytes 40 4 ≤ u.elapsed) :
    ∃ t, execInjectionEnd r s = .next t ∧ t.temper.tune = [] ∧ t.Completed d 1 := by
  have hin : ¬ (s.mode != 2) = true := by simp [hmode]
  unfold execInjectionEnd
  rw [State.tuneFind htune hstarted hdesc hid hring]
  dsimp only
  simp only [hinject, hending, hset, hin, hdone, if_true, Bool.false_eq_true, if_false, decide_true, Bool.not_true, Option.isNone_none, and_self,
    State.stopCapture, State.captureLanded]
  generalize hl : (s.temper.tune.filter (·.desc != u.desc)) = l
  have hnone : l = [] := by rw [← hl, htune]; simp
  generalize hv : ({ s with temper := { s.temper with tune := l } } : State) = v
  have htunes : v.temper.tune = l := by rw [← hv]
  have hfind : v.hif.desc.find? (·.id == d.id) = some d := by rw [← hv]; simp [hdesc]
  refine ⟨_, rfl, ?_, ?_⟩
  · rw [State.syncEngine_temper, State.syncTune_temper, State.complete_temper, htunes, hnone]
  · rw [← hid]
    exact (State.complete_completed_of_find hfind rfl rfl hquiet).of_hif (by rfl) (by rfl)

/-- A descriptor that fails is completed even where it asked for no completion (R56). -/
theorem State.complete_fails {s : State} {d e : Desc} (hfind : s.hif.desc.find? (·.id == d.id) = some e) (hring : e.ring = d.ring)
    (hcq : e.cq = d.cq) {status : Nat} (hstatus : status ≠ 1) {res : List Byte} {ind : Bool} :
    (s.complete d.id status 0 res ind).Completed d status := by
  have hid : e.id = d.id := by simpa using List.find?_some hfind
  refine ⟨s.complete_desc d.id status 0 res ind, ?_⟩
  simp only [State.complete, hfind, hstatus, false_and, if_false]
  exact ⟨_, mem_insertCompl_self _ _, hid, hring, hcq, rfl⟩

theorem execInjectionEnd_aborts {s : State} {r : Fin 64} {u : Tune} {d : Desc} (htune : s.temper.tune = [u]) (hstarted : u.started = true)
    (hinject : u.inject = true) (hdesc : s.hif.desc = [d]) (hid : d.id = u.desc) (hring : d.ring = r.val) (hmode : s.mode ≠ 2) :
    ∃ t, execInjectionEnd r s = .next t ∧ t.temper.tune = [] ∧ t.Completed d 0x15 := by
  have hout : (s.mode != 2) = true := by simp [hmode]
  unfold execInjectionEnd
  rw [State.tuneFind htune hstarted hdesc hid hring]
  dsimp only
  simp only [hinject, hout, if_true, State.endTune, hstarted]
  generalize hl : (s.temper.tune.filter (·.desc != u.desc)) = l
  have hnone : l = [] := by rw [← hl, htune]; simp
  generalize hv : ({ s with temper := { s.temper with tune := l } } : State) = v
  generalize hx : (v.stopCapture u.set).tmpEvent u.engine 6 u.slot 21 = x
  have htunes : x.temper.tune = l := by
    rw [← hx, State.tmpEvent, State.raise_temper, ← hv]
    cases u.set <;> rfl
  have hfind : x.hif.desc.find? (·.id == d.id) = some d := by
    have hkept : (v.stopCapture u.set).hif.desc = s.hif.desc := by rw [← hv]; cases u.set <;> rfl
    rw [← hx, State.tmpEvent, State.raise_hif_desc, hkept, hdesc]
    simp
  refine ⟨_, rfl, ?_, ?_⟩
  · rw [State.syncEngine_temper, State.syncTune_temper, State.complete_temper, htunes, hnone]
  · rw [← hid]
    exact (State.complete_fails hfind rfl rfl (by decide)).of_hif (by rfl) (by rfl)

/-! ## Captures that land -/

theorem length_flatMap_const {α β : Type} {l : List α} {f : α → List β} {k : Nat} (h : ∀ a ∈ l, (f a).length = k) :
    (l.flatMap f).length = l.length * k := by
  rw [List.length_flatMap, List.map_congr_left h, List.map_const', List.sum_replicate, smul_eq_mul]

theorem execCaptureDrain_lands {s : State} {i : Fin 16} (hstaging : (s.capset i).staging ≠ []) (hddr : s.on F.GLB_STAT_ddr_ok = true)
    (hmode : s.mode ≠ 5) :
    ∃ t head, execCaptureDrain i s = .next t ∧ (t.capset i).staging = []
      ∧ (t.capset i).landed = (s.capset i).landed + (s.capset i).staging.length ∧ head.length = 64
      ∧ t.ddr = writeBytes (writeBytes s.ddr (s.capset i).addr head)
          ((s.capset i).addr + 64 + 4 * (s.capset i).channels.length * (s.capset i).landed) ((s.capset i).staging.flatMap id) := by
  have hgo : ¬ ((s.capset i).staging.isEmpty = true ∨ (!s.on F.GLB_STAT_ddr_ok) = true ∨ s.mode = 5) := by
    simp [hstaging, hddr, hmode]
  simp only [execCaptureDrain, hgo, if_false]
  generalize hsel : ((List.range 8).flatMap fun c => toBytes 1 ((s.capset i).channels.getD c (0, 0)).1
    ++ toBytes 1 ((s.capset i).channels.getD c (0, 0)).2) = sel
  have hlen : sel.length = 16 := by
    rw [← hsel]
    exact length_flatMap_const (k := 2) fun c _ => by simp
  refine ⟨_, _, rfl, ?_, ?_, ?_, rfl⟩
  · rw [State.capset_setCapset_same]
  · rw [State.capset_setCapset_same]
  · simp [hlen]

/-! ## FRA -/

theorem State.channels_nonempty {k : CapSet} {i : Nat} (h : i < k.channels.length) : k.channels.isEmpty = false := by
  cases hk : k.channels with
  | nil => simp [hk] at h
  | cons c l => rfl

theorem execFra_waits {s : State} {r : Fin 64} {d : Desc} {n : Nat} (hstart : s.Starts r 0x0604 d)
    (howner : d.op 38 1 = 0xFF ∧ d.op 36 1 ≤ 10 ∧ n = (s.capset (d.op 32 1)).engine ∨ d.op 38 1 = n ∧ n ≠ 0xFF ∧ s.slotsOf n = [])
    (hin : d.op 33 1 < (s.capset (d.op 32 1)).channels.length) (hout : d.op 34 1 < (s.capset (d.op 32 1)).channels.length)
    (hroom : 32 + 16 * (2 ^ d.op 36 1 / 2 - 1) ≤ d.op 56 4) (hlong : d.op 40 4 + 2 ^ d.op 36 1 ≤ (s.capset (d.op 32 1)).samples)
    (hbg : s.on F.TMP_PROG_bg_active n = false) :
    ∃ t, execFra r s = .next t ∧ t.temper.fra = s.temper.fra ++ [{ desc := d.id, bytes := d.bytes, engine := n }]
      ∧ t.hif.compl = s.hif.compl := by
  have hbg' : (s.startDesc d).on F.TMP_PROG_bg_active n = false := by
    rw [State.on, s.startDesc_rd_low d (by decide)]
    exact hbg
  simp only [execFra, hstart.runDesc, State.startDesc_capset, State.slotsOf_startDesc hstart.ring_lt, State.channels_nonempty hin,
    not_lt.2 hroom, not_lt.2 hlong, not_le.2 hin, not_le.2 hout, decide_false, Bool.false_or, Bool.or_false]
  rcases howner with ⟨hown, hshort, rfl⟩ | ⟨rfl, hother, hslots⟩
  · simp only [hown, beq_self_eq_true, if_true, Bool.not_true, Bool.false_and, hbg', not_lt.2 hshort, decide_false, Bool.and_false, Bool.or_self,
      Bool.false_eq_true, if_false]
    exact ⟨_, rfl, rfl, rfl⟩
  · have hne : (d.op 38 1 == 255) = false := beq_eq_false_iff_ne.2 hother
    simp only [hne, Bool.false_eq_true, if_false, hslots, List.isEmpty_nil, Bool.not_true, Bool.and_false, hbg', Bool.false_and, Bool.or_self]
    exact ⟨_, rfl, rfl, rfl⟩

theorem execFraStart_starts {s : State} {r : Fin 64} {f : Fra} (hfra : s.fraOf r = some f) (hwait : f.started = false)
    (hcaptures : ∀ i, i < 16 → (s.capset i).running = false ∨ (s.capset i).engine ≠ f.engine) :
    ∃ t, execFraStart r s = .next t ∧ t.rd F.TMP_STAT_tune f.engine = 1
      ∧ t.temper.fra = s.temper.fra.map fun x => if x.desc = f.desc then { x with started := true } else x := by
  have hended : ((List.range 16).any fun i => (s.capset i).running && (s.capset i).engine == f.engine) = false :=
    List.any_eq_false.2 fun i hi => by
      rcases hcaptures i (List.mem_range.1 hi) with h | h
      · simp [h]
      · simp [h]
  have hmem : f ∈ s.temper.fra := List.mem_of_find?_eq_some hfra
  simp only [execFraStart, hfra, hwait, hended, Bool.false_eq_true, or_self, if_false]
  generalize hl : (s.temper.fra.map fun x => if x.desc = f.desc then { x with started := true } else x) = l
  have hactive : (l.any fun x => x.engine == f.engine && x.started) = true := by
    rw [← hl, List.any_map]
    exact List.any_eq_true.2 ⟨f, hmem, by simp⟩
  refine ⟨_, rfl, ?_, rfl⟩
  rw [State.syncTune, hactive, Bool.or_true, State.put_eq, State.rd_wr_same _ (by decide)]
  rfl

theorem State.endFra_writes {s : State} {f : Fra} {io : HostIo} {d : Desc} {avg st : Nat} (hfind : s.hif.desc.find? (·.id == f.desc) = some d)
    (hquiet : d.quiet = false) (hwrite : io.resultErr = false) :
    (s.endFra f io avg st).hostMem = writeBytes s.hostMem (field f.bytes 48 8) (s.fraBytes f avg)
      ∧ (s.endFra f io avg st).temper.fra = s.temper.fra.filter (·.desc != f.desc)
      ∧ ∃ c ∈ (s.endFra f io avg st).hif.compl, c.id = d.id ∧ c.status = st ∧ c.notes = 128 := by
  have hid : d.id = f.desc := by simpa using List.find?_some hfind
  simp only [State.endFra, hfind, State.hostResult, hwrite, Bool.false_eq_true, if_false]
  generalize s.fraBytes f avg = bytes
  generalize writeBytes s.hostMem (field f.bytes 48 8) bytes = m
  generalize indResult (field f.bytes 48 8) bytes.length = res
  generalize s.temper.fra.filter (·.desc != f.desc) = l
  generalize s.free + 2 * 2 ^ byteAt f.bytes 36 = k
  generalize hv : ({ s with temper := { s.temper with fra := l }, free := k, hostMem := m } : State) = v
  have hmem : v.hostMem = m := by rw [← hv]
  have hfra : v.temper.fra = l := by rw [← hv]
  have hfind' : v.hif.desc.find? (·.id == d.id) = some d := by rw [← hv, hid]; exact hfind
  obtain ⟨c, hc, hcid, -, -, hstatus, hnotes, -⟩ := State.complete_waits hfind' rfl rfl hquiet st 0 res true
  rw [ite_eq_right_iff.2 (fun h => absurd rfl h.2)] at hstatus
  refine ⟨?_, ?_, c, hc, hcid, hstatus, hnotes⟩
  · exact (State.complete_hostMem _ _ _ _ _ _).trans hmem
  · rw [State.syncTune_temper, State.complete_temper, hfra]

theorem execFraDeadline_ends {s : State} {r : Fin 64} {io : HostIo} {f : Fra} (hfra : s.fraOf r = some f) (hdeadline : field f.bytes 8 8 ≠ 0) :
    ∃ u avg, execFraDeadline r io s = .next (u.endFra f io avg 3) ∧ u = (s.advanceCell (field f.bytes 8 8)).drawn
      ∧ avg ≤ u.fraSegments f ∧ (f.started = false → avg = 0) := by
  simp only [execFraDeadline, hfra, hdeadline, if_false]
  generalize s.advanceCell (field f.bytes 8 8) = v
  have hle : v.freshWord.toNat % (v.fraSegments f + 1) ≤ v.fraSegments f := Nat.le_of_lt_succ (Nat.mod_lt _ (Nat.succ_pos _))
  refine ⟨_, _, rfl, rfl, ?_, fun h => by rw [h]; rfl⟩
  have hsame : v.drawn.fraSegments f = v.fraSegments f := rfl
  rw [hsame]
  split
  · exact hle
  · exact Nat.zero_le _

/-- Settles O21: each command by the equation of the branch it takes, and what an outcome leaves of the tuning operations. -/
theorem tuningCommands : Obligations.TuningCommands := by
  unfold Obligations.TuningCommands
  refine ⟨fun s r io d n j => execInject_waits, fun s r d n => execCaptureSet_sets, fun s r d => execCapture_waits,
    fun s r u k => execInjectionStart_starts, fun s r u d => execInjectionEnd_completes, fun s r u d => execInjectionEnd_aborts,
    fun s i => execCaptureDrain_lands, fun s r d n => execFra_waits, fun s r f => execFraStart_starts, fun s r io f hfra hstarted => ?_,
    fun s f io d avg st => State.endFra_writes, fun s r io f => execFraDeadline_ends⟩
  change execFraComplete r io s = _
  simp only [execFraComplete, hfra, hstarted, if_true]

end Sys2Proof.Machine

/-! Proofs about owner programs (O22). -/

namespace Sys2Proof.Machine

/-! ## PROG_LOAD and PROG_CLEAR -/

/-- Nothing stands in a cleared owner area (R226). -/
theorem clearOwner_area {m : List Host.Cell} {a : Nat} (ha : 0x7400 ≤ a ∧ a < 0x7E00 ∨ 0xF000 ≤ a) : ∀ c ∈ clearOwner m, c.1 ≠ a := by
  rintro c hc rfl
  have hout : (c.1 < 0x7400 ∨ 0x7E00 ≤ c.1) ∧ c.1 < 0xF000 := by simpa using (List.mem_filter.1 hc).2
  omega

/-- The registers that follow an engine leave the flag of a loaded program alone. -/
theorem State.rd_loaded_syncEngine (s : State) (n : Nat) : (s.syncEngine n).rd F.TMP_PROG_loaded n = s.rd F.TMP_PROG_loaded n :=
  s.syncEngine_rd_low n (by decide) (by simp [Fld.addr, F.TMP_PROG_loaded, F.TMP_RUNTIME_declared])

section Load
variable {s : State} {r : Fin 64} {io : HostIo} {d : Desc} (hstart : s.Starts r 0x0331 d) (hbody : io.bodyErr = false)
  (hstopped : s.on F.TMP_STAT_stopped (d.op 32 1) = true) (hok : progOk io.body = true)
include hstart hbody hstopped hok

theorem execProgLoad_loads (howner : s.otp.owner = true) :
    ∃ t, execProgLoad r io true s = .next t ∧ t.Completed d 1 ∧ t.rd F.TMP_PROG_loaded (d.op 32 1) = 1
      ∧ (t.eng (d.op 32 1)).code = (List.range (field io.body 12 2)).map (fun i => field io.body (64 + 8 * i) 8)
      ∧ (t.eng (d.op 32 1)).bgEntry = field io.body 14 2 ∧ (t.eng (d.op 32 1)).tHook = field io.body 16 4
      ∧ (∀ a, 0x7400 ≤ a ∧ a < 0x7E00 ∨ 0xF000 ≤ a → (∀ c ∈ t.sramOf (d.op 32 1), c.1 ≠ a)) := by
  have howner' : (s.startDesc d).otp.owner = true := howner
  simp only [execProgLoad, hstart.runDesc, State.withBody, hbody, Bool.false_eq_true, if_false, State.on_startDesc_stopped, hstopped, hok, howner',
    Bool.not_true]
  generalize d.op 32 1 = n
  generalize hx : ({ (s.startDesc d).eng n with code := (List.range (field io.body 12 2)).map fun i => field io.body (64 + 8 * i) 8,
                                                bgEntry := field io.body 14 2, tHook := field io.body 16 4 } : Engine) = x
  generalize hm : clearOwner (((s.startDesc d).setEng n x).sramOf n) = m
  generalize hv : ((s.startDesc d).setEng n x).setSram n m = v
  have heng : v.eng n = x := by rw [← hv]; exact (s.startDesc d).eng_setEng_same n x
  have hsram : v.sramOf n = m := by rw [← hv]; exact State.sramOf_setSram_same _ n m
  generalize hu : ((v.wr F.TMP_PROG_loaded 1 n).wr F.TMP_PROG_version (field io.body 8 2) n).syncEngine n = u
  have hloaded : u.rd F.TMP_PROG_loaded n = 1 := by
    rw [← hu, State.rd_loaded_syncEngine, State.rd_wr_sep _ (by decide), State.rd_wr_same _ (by decide)]
    rfl
  have heng' : u.eng n = x := by rw [← hu]; exact heng
  have hsram' : (u.complete d.id 1).sramOf n = m := by
    rw [State.sramOf, State.complete_sram, ← hu]
    exact hsram
  have hhif : u.hif.desc = (s.startDesc d).hif.desc := by rw [← hu, ← hv]; rfl
  refine ⟨_, rfl, hstart.completed hhif, (u.complete_rd_low _ _ _ _ _ (by decide)).trans hloaded, ?_, ?_, ?_, fun a ha => ?_⟩
  · rw [State.complete_eng, heng', ← hx]
  · rw [State.complete_eng, heng', ← hx]
  · rw [State.complete_eng, heng', ← hx]
  · rw [hsram', ← hm]
    exact clearOwner_area ha

theorem execProgLoad_refuses (howner : s.otp.owner = false) :
    ∃ t, execProgLoad r io true s = .next t ∧ t.Completed d 0x14 ∧ t.temper = s.temper := by
  have howner' : (s.startDesc d).otp.owner = false := howner
  simp only [execProgLoad, hstart.runDesc, State.withBody, hbody, Bool.false_eq_true, if_false, State.on_startDesc_stopped, hstopped, hok, howner',
    Bool.not_true, Bool.not_false, if_true]
  exact ⟨_, rfl, hstart.completed rfl, State.complete_temper _ _ _ _ _ _⟩

end Load

theorem execProgClear_clears {s : State} {r : Fin 64} {d : Desc} (hstart : s.Starts r 0x0332 d)
    (hstopped : s.on F.TMP_STAT_stopped (d.op 32 1) = true) :
    ∃ t, execProgClear r s = .next t ∧ t.Completed d 1 ∧ t.rd F.TMP_PROG_loaded (d.op 32 1) = 0
      ∧ (t.eng (d.op 32 1)).code = [] ∧ (t.eng (d.op 32 1)).bgEntry = 0xFFFF := by
  simp only [execProgClear, hstart.runDesc, State.on_startDesc_stopped, hstopped, Bool.not_true, Bool.false_eq_true, if_false]
  generalize d.op 32 1 = n
  generalize hx : ({ (s.startDesc d).eng n with code := [], bgEntry := 0xFFFF, tHook := 0 } : Engine) = x
  generalize hm : clearOwner (((s.startDesc d).setEng n x).sramOf n) = m
  generalize hv : ((s.startDesc d).setEng n x).setSram n m = v
  have heng : v.eng n = x := by rw [← hv]; exact (s.startDesc d).eng_setEng_same n x
  generalize hu : (v.wr F.TMP_PROG_loaded 0 n).syncEngine n = u
  have hloaded : u.rd F.TMP_PROG_loaded n = 0 := by
    rw [← hu, State.rd_loaded_syncEngine, State.rd_wr_same _ (by decide)]
    rfl
  have heng' : u.eng n = x := by rw [← hu]; exact heng
  have hhif : u.hif.desc = (s.startDesc d).hif.desc := by rw [← hu, ← hv]; rfl
  refine ⟨_, rfl, hstart.completed hhif, (u.complete_rd_low _ _ _ _ _ (by decide)).trans hloaded, ?_, ?_⟩
  · rw [State.complete_eng, heng', ← hx]
  · rw [State.complete_eng, heng', ← hx]

/-! ## The background program -/

theorem execBgStart_starts {s : State} {n : Fin 64} (hidle : s.on F.TMP_PROG_bg_active n = false)
    (hfra : (s.temper.fra.any fun f => f.engine == n.val && f.started) = false) (hloaded : s.on F.TMP_PROG_loaded n = true)
    (hentry : (s.eng n).bgEntry ≠ 0xFFFF) :
    ∃ t, execBgStart n s = .next t ∧ t.rd F.TMP_PROG_bg_active n = 1 ∧ (t.eng n).dp.run = 2
      ∧ (t.eng n).dp.pc = (s.eng n).bgEntry ∧ (t.eng n).dp.d = (s.eng n).dp.d := by
  simp only [execBgStart, hidle, hfra, hloaded, hentry, Bool.not_true, Bool.false_eq_true, or_self, if_false]
  refine ⟨_, rfl, ?_, ?_, ?_, ?_⟩
  · rw [State.setEng_rd, State.rd_wr_same _ (by decide)]
    rfl
  all_goals rw [State.eng_setEng_same]

theorem execBgStart_refuses {s : State} {n : Fin 64} (hloaded : s.on F.TMP_PROG_loaded n = false) :
    execBgStart n s = .next (s.wrIgnored .tmp n (F.TMP_PROG_bg_start.addr n 0)) := by
  simp only [execBgStart, hloaded, Bool.not_false, true_or, or_true, if_true]

/-! ## Results that land -/

/-- What no landing result changes. -/
def Px.SameCourse (p q : Px) : Prop :=
  q.trap = p.trap ∧ q.narrow = p.narrow ∧ q.satEn = p.satEn ∧ q.free = p.free ∧ q.dp.pc = p.dp.pc ∧ q.dp.run = p.dp.run

theorem Px.sameCourse_land (p : Px) (l : Land) : p.SameCourse (p.land l) ∧ (p.land l).dp.flight = p.dp.flight := by
  have hctl (x : Dp) (num v : Nat) : (x.setCtl num v).pc = x.pc ∧ (x.setCtl num v).run = x.run ∧ (x.setCtl num v).flight = x.flight := by
    unfold Dp.setCtl
    split <;> exact ⟨rfl, rfl, rfl⟩
  cases l with
  | ctl num v =>
    obtain ⟨hpc, hrun, hflight⟩ := hctl p.dp num v
    exact ⟨⟨rfl, rfl, rfl, rfl, hpc, hrun⟩, hflight⟩
  | acc k v => simp only [Px.land]; split_ifs <;> exact ⟨⟨rfl, rfl, rfl, rfl, rfl, rfl⟩, rfl⟩
  | accPart k q v => simp only [Px.land]; split_ifs <;> exact ⟨⟨rfl, rfl, rfl, rfl, rfl, rfl⟩, rfl⟩
  | _ => exact ⟨⟨rfl, rfl, rfl, rfl, rfl, rfl⟩, rfl⟩

theorem Px.SameCourse.trans {p q r : Px} (h : p.SameCourse q) (h' : q.SameCourse r) : p.SameCourse r := by
  obtain ⟨h1, h2, h3, h4, h5, h6⟩ := h
  obtain ⟨g1, g2, g3, g4, g5, g6⟩ := h'
  exact ⟨g1.trans h1, g2.trans h2, g3.trans h3, g4.trans h4, g5.trans h5, g6.trans h6⟩

/-- Results that land one after the other. -/
theorem Px.sameCourse_foldl (p : Px) (l : List (Nat × Land)) : p.SameCourse (l.foldl (fun p f => p.land f.2) p)
    ∧ (l.foldl (fun p f => p.land f.2) p).dp.flight = p.dp.flight :=
  foldl_holds (P := fun q : Px => p.SameCourse q ∧ q.dp.flight = p.dp.flight)
    (fun q f _ h => ⟨h.1.trans (q.sameCourse_land f.2).1, (q.sameCourse_land f.2).2.trans h.2⟩) ⟨⟨rfl, rfl, rfl, rfl, rfl, rfl⟩, rfl⟩

theorem Px.drain_course (p : Px) : p.SameCourse p.drain ∧ p.drain.dp.flight = [] := by
  obtain ⟨hcourse, hflight⟩ := Px.sameCourse_foldl { p with dp := { p.dp with flight := [] } } p.dp.flight
  exact ⟨hcourse, hflight⟩

/-- The results due and the end of a code area leave the flag of a narrowing alone. -/
theorem Px.narrow_ofPc (q : Px) (was : Nat) : (if 4096 ≤ (q.landDue q.dp.clock).dp.pc then
      (if 2048 ≤ was then (q.landDue q.dp.clock).ill
        else { q.landDue q.dp.clock with dp := { (q.landDue q.dp.clock).dp with pc := (q.landDue q.dp.clock).dp.pc % 4096 } })
    else q.landDue q.dp.clock).narrow = q.narrow := by
  have hland : (q.landDue q.dp.clock).narrow = q.narrow := (Px.sameCourse_foldl _ _).1.2.1
  split_ifs <;> exact hland

theorem Px.next_narrow (p : Px) : p.next.narrow = p.narrow := by
  unfold Px.next
  dsimp only
  refine (Px.narrow_ofPc _ _).trans ?_
  split
  · rfl
  · rfl
  · split <;> rfl
  · rfl
  · rfl

theorem execBackgroundPreemption_preempts {s : State} {n : Fin 64} (hrun : (s.eng n).dp.run = 2) (htrap : s.on F.TMP_STAT_trapped n = false)
    (hatom : (s.px n).next.dp.atom = 0) (hgoal : (s.px n).next.dp.goal = none) (hentering : (s.px n).next.dp.entering = none)
    (hrun' : (s.px n).next.dp.run = 2) (htrap' : (s.px n).next.trap = false) :
    ∃ t x, execBackgroundPreemption n s = .next t ∧ (t.eng n).dp.run = 1 ∧ (t.eng n).dp.pc = 0 ∧ (t.eng n).dp.rrb = 0
      ∧ (t.eng n).dp.flight = [] ∧ (t.eng n).saved = some x ∧ x.bpc = (s.px n).next.dp.pc
      ∧ t.sramOf n = writeBytes ((s.px n).next.drain).mem 0x7E00 x.saveWords := by
  have hrun2 : (s.px n).dp.run = 2 := hrun
  obtain ⟨⟨hdtrap, hdnarrow, -, -, hdpc, -⟩, hflight⟩ := (s.px n).next.drain_course
  have hnarrow : (s.px n).next.drain.narrow = false := hdnarrow.trans ((s.px n).next_narrow.trans rfl)
  have htrapped : (s.px n).next.drain.trap = false := hdtrap.trans htrap'
  simp only [execBackgroundPreemption, hrun2, htrap, hatom, hgoal, hentering, hrun', htrap', ne_eq, not_true_eq_false, Bool.false_eq_true,
    Option.isSome_none, or_self, if_false]
  generalize (s.px n).next.drain = q at *
  generalize hx : ({ q.dp with bpc := q.dp.pc } : Dp) = x
  generalize hm : writeBytes q.mem 0x7E00 x.saveWords = m
  refine ⟨_, x, rfl, ?_⟩
  have hpc : x.bpc = (s.px n).next.dp.pc := by rw [← hx, ← hdpc]
  have hsram := State.sramOf_setSram_same { s with free := q.free } n m
  simp only [State.setPx, hnarrow, htrapped, Bool.false_eq_true, if_false, Nat.one_ne_zero, false_and, State.bump_eng, State.eng_setEng_same]
  refine ⟨trivial, trivial, trivial, hflight, trivial, hpc, ?_⟩
  rw [hm]
  exact (State.sramOf_congr _ (by rfl) n).trans hsram

/-- Settles O22: loading and clearing by what they leave of the engine and its memory; a preemption after the results in flight have
landed, which change neither course nor traps. -/
theorem ownerPrograms : Obligations.OwnerPrograms := by
  unfold Obligations.OwnerPrograms
  exact ⟨fun s r io d hs hb hst hok ho _ => execProgLoad_loads hs hb hst hok ho,
    fun s r io d hs hb hst hok ho => execProgLoad_refuses hs hb hst hok ho, fun s r d hs hst _ => execProgClear_clears hs hst,
    fun s n => execBgStart_starts, fun s n => execBgStart_refuses, fun s n => execBackgroundPreemption_preempts⟩

end Sys2Proof.Machine

/-! Proofs about the issue of a Temper operation: when it acts, and when it is illegal. -/

namespace Sys2Proof.Machine

variable {p : Px} {bad : Bool} {f : Px → Px}

/-! ## The conditions of an operation -/

theorem Px.unless_ok (h : bad = false) : p.unless bad f = f p := by
  rw [h]
  rfl

theorem Px.unless_bad (h : bad = true) : p.unless bad f = p.ill := by
  rw [h]
  rfl

theorem Px.control_ok (hgoal : p.dp.goal = none) (h : bad = false) : p.control bad f = f p :=
  Px.unless_ok (by rw [hgoal, h]; rfl)

theorem Px.control_bad (h : bad = true) : p.control bad f = p.ill :=
  Px.unless_bad (by rw [h, Bool.or_true])

/-- In a delay slot a control operation is illegal (R239). -/
theorem Px.control_delay (h : p.dp.goal.isSome = true) : p.control bad f = p.ill :=
  Px.unless_bad (by rw [h, Bool.true_or])

theorem Px.transfer_ok (hgoal : p.dp.goal = none) (hlast : p.dp.lastTwo = false) (hatom : p.dp.atom = 0) (h : bad = false) :
    p.transfer bad f = f p :=
  Px.control_ok hgoal (by simp [h, hlast, hatom])

theorem Px.transfer_bad (h : bad = true) : p.transfer bad f = p.ill :=
  Px.control_bad (by simp [h])

theorem incBad_eq_false {mode : BitVec 2} {ext : BitVec 10} (h : mode ≠ 1 → ext = 0) : incBad mode.toNat ext.toNat = false := by
  by_cases hmode : mode = 1
  · rw [hmode]
    rfl
  · rw [h hmode]
    simp [incBad]

/-- A load reaches an aligned address of the map (R226). -/
theorem loadBad_eq_false {a size : Nat} (halign : a % size = 0) (hmap : a < 0x18000) : loadBad a size = false := by
  simp [loadBad, halign, hmap]

theorem Px.fetch_data {a : Nat} (h : a < 0x10000) (size : Nat) : p.fetch a size = (le (readBytes p.mem a size), p) :=
  if_neg (Nat.not_le.2 h)

/-- What coefficient memory holds is free (log entry 16). -/
theorem Px.fetch_coefficients {a : Nat} (h : 0x10000 ≤ a) (size : Nat) :
    p.fetch a size = ((Config.freeDWord p.free).toNat % 2 ^ (8 * size), { p with free := p.free + 1 }) :=
  if_pos h

/-! ## Issue -/

theorem State.issue_trapped {s : State} {n : Fin 64} {gap : BitVec 4} (h : s.on F.TMP_STAT_trapped n = true) : s.issue n gap f = s :=
  if_pos h

/-- An engine that is not trapped issues `gap` bundles after its last operation. -/
theorem State.issue_live {s : State} {n : Fin 64} {gap : BitVec 4} {q : Px} (htrapped : s.on F.TMP_STAT_trapped n = false)
    (hp : p = Px.advance gap.toNat (s.px n)) (hlive : p.trap = false) (hq : f p = q) : s.issue n gap f = s.setPx n q := by
  unfold State.issue
  rw [if_neg (by rw [htrapped]; exact Bool.false_ne_true)]
  simp only [← hp, hlive, Bool.false_eq_true, if_false, hq]

end Sys2Proof.Machine

/-! Proofs about the address slot of a Temper bundle (O23). -/

namespace Sys2Proof.Machine

/-! ## What each operation makes of the datapath -/

namespace Px

section Modified
variable (p : Px) {ax dd : Nat} {mode : BitVec 2} {ext : BitVec 10} (hinc : mode ≠ 1 → ext = 0)
include hinc

theorem ldW_data (halign : p.addr ax % 4 = 0) (hmem : p.addr ax < 0x10000) :
    p.ldW ax mode.toNat dd ext.toNat = (p.later 3 (.data (p.phys dd) (BitVec.ofNat 32 (le (readBytes p.mem (p.addr ax) 4))))).modify
      ax mode.toNat 4 (sgn 10 ext.toNat) := by
  unfold ldW loadOne
  refine (unless_ok ?_).trans ?_
  · rw [loadBad_eq_false halign (by omega), incBad_eq_false hinc]
    rfl
  · rw [fetch_data hmem]
    rfl

theorem ldW_coefficients (halign : p.addr ax % 4 = 0) (hlow : 0x10000 ≤ p.addr ax) (hhigh : p.addr ax < 0x18000) :
    p.ldW ax mode.toNat dd ext.toNat =
      (({ p with free := p.free + 1 }.later 3 (.data (p.phys dd) (BitVec.ofNat 32 ((Config.freeDWord p.free).toNat % 2 ^ 32)))).modify
        ax mode.toNat 4 (sgn 10 ext.toNat)) := by
  unfold ldW loadOne
  refine (unless_ok ?_).trans ?_
  · rw [loadBad_eq_false halign hhigh, incBad_eq_false hinc]
    rfl
  · rw [fetch_coefficients hlow]
    rfl

theorem ldB_data (hmem : p.addr ax < 0x10000) :
    p.ldB ax mode.toNat dd ext.toNat =
      (p.later 3 (.data (p.phys dd) (BitVec.ofNat 32 (uns 32 (sgn 8 (readByte p.mem (p.addr ax)).toNat))))).modify
        ax mode.toNat 1 (sgn 10 ext.toNat) := by
  have hbyte : le (readBytes p.mem (p.addr ax) 1) = (readByte p.mem (p.addr ax)).toNat := by simp [readBytes, le]
  unfold ldB loadOne
  refine (unless_ok ?_).trans ?_
  · rw [loadBad_eq_false (Nat.mod_one _) (by omega), incBad_eq_false hinc]
    rfl
  · rw [fetch_data hmem, hbyte]

theorem ldD_data (halign : p.addr ax % 8 = 0) (hmem : p.addr ax < 0x10000) (hpair : p.pairOk dd = true) :
    p.ldD ax mode.toNat dd ext.toNat =
      (p.loadPair dd (le (readBytes p.mem (p.addr ax) 8))).modify ax mode.toNat 8 (sgn 10 ext.toNat) := by
  unfold ldD
  refine (unless_ok ?_).trans ?_
  · rw [loadBad_eq_false halign (by omega), incBad_eq_false hinc, hpair]
    rfl
  · rw [fetch_data hmem]

theorem stW_stores (hstore : p.storeBad (p.addr ax) 4 = false) :
    p.stW ax mode.toNat dd ext.toNat =
      (p.later 2 (.mem (p.addr ax) (toBytes 4 (p.reg dd).toNat))).modify ax mode.toNat 4 (sgn 10 ext.toNat) := by
  unfold stW
  exact unless_ok (by rw [hstore, incBad_eq_false hinc]; rfl)

theorem stD_stores (hstore : p.storeBad (p.addr ax) 8 = false) (hpair : p.pairOk dd = true) :
    p.stD ax mode.toNat dd ext.toNat =
      (p.later 2 (.mem (p.addr ax) (toBytes 4 (p.reg dd).toNat ++ toBytes 4 (p.dp.dreg (p.upper dd)).toNat))).modify
        ax mode.toNat 8 (sgn 10 ext.toNat) := by
  unfold stD
  exact unless_ok (by rw [hstore, incBad_eq_false hinc, hpair]; rfl)

end Modified

variable (p : Px) {ax mode dd ext : Nat}

theorem ldW_illegal (h : p.addr ax % 4 ≠ 0 ∨ 0x18000 ≤ p.addr ax) : p.ldW ax mode dd ext = p.ill := by
  unfold ldW loadOne
  exact unless_bad (by simp [loadBad, h])

theorem stW_illegal (h : p.storeBad (p.addr ax) 4 = true) : p.stW ax mode dd ext = p.ill := by
  unfold stW
  exact unless_bad (by simp [h])

/-- LDXY takes its first pair from X and its second from Y. -/
theorem ldXY_loads (halign : p.addr ax % 8 = 0) (halign' : p.addr (bitsOf ext 7 3) % 8 = 0) (hx : p.addr ax < 0x8000)
    (hy : 0x8000 ≤ p.addr (bitsOf ext 7 3)) (hy' : p.addr (bitsOf ext 7 3) < 0x10000) (hext : ext % 4 = 0) (hpair : p.pairOk dd = true)
    (hpair' : p.pairOk (2 * bitsOf ext 2 5) = true) :
    p.ldXY ax mode dd ext = (((p.loadPair dd (le (readBytes p.mem (p.addr ax) 8))).loadPair (2 * bitsOf ext 2 5)
      (le (readBytes p.mem (p.addr (bitsOf ext 7 3)) 8))).modify ax mode 8 1).modify (bitsOf ext 7 3) mode 8 1 := by
  unfold ldXY
  refine (unless_ok ?_).trans ?_
  · rw [loadBad_eq_false halign (by omega), loadBad_eq_false halign' (by omega), hpair, hpair', hext]
    simp only [Bool.or_eq_false_iff, Bool.and_eq_false_iff, decide_eq_false_iff_not, Bool.not_true, bne_self_eq_false, and_true, true_and]
    omega
  · dsimp only
    rw [fetch_data hy', fetch_data (a := p.addr ax) (by omega)]

theorem stN_stores {v : Word} {o : Bool} (hstore : p.storeBad (p.addr ax) 4 = false) (hmode : bitsOf ext 2 2 ≠ 3)
    (hv : p.narrowOf (bitsOf ext 1 1) (bitsOf ext 4 6) (bitsOf ext 2 2) (bitAt ext 0) = (v, o)) :
    p.stN ax mode 0 ext = ({ p with narrow := p.narrow || o }.later 2 (.mem (p.addr ax) (toBytes 4 v.toNat))).modifyN ax mode 4 := by
  unfold stN
  refine (unless_ok ?_).trans ?_
  · simp [hstore, hmode]
  · rw [hv]

theorem stNC_stores {v w : Word} {o q : Bool} (hstore : p.storeBad (p.addr ax) 8 = false) (hmode : bitsOf ext 2 2 ≠ 3)
    (hbit : bitAt ext 1 = false) (hv : p.narrowOf 0 (bitsOf ext 4 6) (bitsOf ext 2 2) (bitAt ext 0) = (v, o))
    (hw : p.narrowOf 1 (bitsOf ext 4 6) (bitsOf ext 2 2) (bitAt ext 0) = (w, q)) :
    p.stNC ax mode 0 ext = ({ p with narrow := p.narrow || o || q }.later 2
      (.mem (p.addr ax) (toBytes 4 v.toNat ++ toBytes 4 w.toNat))).modifyN ax mode 8 := by
  unfold stNC
  refine (unless_ok ?_).trans ?_
  · simp [hstore, hmode, hbit]
  · rw [hv, hw]

theorem mvc_reads (hext : ext < 16) : p.mvc 0 0 dd ext = p.later 1 (.data (p.phys dd) (p.dp.ctl ext)) := by
  unfold mvc
  exact unless_ok (by simp [hext])

theorem mvcw_writes (hext : ext < 9) : p.mvcw 0 0 dd ext = p.later 1 (.ctl ext (p.reg dd).toNat) := by
  unfold mvcw
  refine (unless_ok ?_).trans (if_pos (by omega))
  simp only [bne_self_eq_false, Bool.false_or, Bool.or_eq_false_iff, Bool.and_eq_false_iff, decide_eq_false_iff_not, beq_eq_false_iff_ne]
  omega

theorem mvcw_writes_accumulator (hlow : 10 ≤ ext) (hhigh : ext < 16) (h0 : recent p.dp.clock p.dp.accAt0 = false)
    (h1 : recent p.dp.clock p.dp.accAt1 = false) :
    p.mvcw 0 0 dd ext = p.later 1 (.accPart ((ext - 10) / 3) ((ext - 10) % 3) (p.reg dd)) := by
  unfold mvcw
  refine (unless_ok ?_).trans (if_neg (by omega))
  rw [h0, h1]
  simp only [bne_self_eq_false, Bool.false_or, Bool.and_false, Bool.or_false, Bool.or_eq_false_iff, decide_eq_false_iff_not,
    beq_eq_false_iff_ne]
  omega

/-- The control register bpc is read-only (R228). -/
theorem mvcw_bpc : p.mvcw ax mode dd 9 = p.ill := by
  unfold mvcw
  exact unless_bad (by simp)

end Px

/-! ## The obligation -/

/-- Settles O23, operation by operation: none of the conditions that make it illegal holds, or one does. -/
theorem addressSlotOperations : Obligations.AddressSlotOperations := by
  unfold Obligations.AddressSlotOperations
  refine ⟨?_, ?_⟩
  · intro s n gap ax mode dd ext p htrapped hp hlive hinc
    have issues {f : Px → Px} {q : Px} (hq : f p = q) : Host.Outcome.next (s.issue n gap f) = (.next (s.setPx n q) : Host.Outcome State Fault Refusal) :=
      congrArg _ (State.issue_live htrapped hp hlive hq)
    refine ⟨fun ha hm => issues (p.ldW_data hinc ha hm), fun ha hl hh => issues (p.ldW_coefficients hinc ha hl hh),
      fun hm => issues (p.ldB_data hinc hm), fun ha hm hpair => issues (p.ldD_data hinc ha hm hpair),
      fun hs => issues (p.stW_stores hinc hs), fun hs hpair => issues (p.stD_stores hinc hs hpair),
      fun h => issues (p.ldW_illegal h), fun h => issues (p.stW_illegal h), ?_, ?_⟩
    · rintro rfl rfl
      exact issues rfl
    · rintro rfl rfl
      exact ⟨issues rfl, issues rfl, issues rfl, issues rfl⟩
  · intro s n gap ax mode dd ext p htrapped hp hlive
    have issues {f : Px → Px} {q : Px} (hq : f p = q) : Host.Outcome.next (s.issue n gap f) = (.next (s.setPx n q) : Host.Outcome State Fault Refusal) :=
      congrArg _ (State.issue_live htrapped hp hlive hq)
    refine ⟨fun ha hb hx hy hy' hext hpair hpair' => issues (p.ldXY_loads ha hb hx hy hy' hext hpair hpair'), ?_, ?_, ?_, ?_, ?_, ?_⟩
    · rintro v o hs rfl hmode hv
      exact issues (p.stN_stores hs hmode hv)
    · rintro v w o q hs rfl hmode hbit hv hw
      exact issues (p.stNC_stores hs hmode hbit hv hw)
    · rintro rfl rfl hext
      exact issues (p.mvc_reads hext)
    · rintro rfl rfl hext
      exact issues (p.mvcw_writes hext)
    · rintro rfl rfl hlow hhigh h0 h1
      exact issues (p.mvcw_writes_accumulator hlow hhigh h0 h1)
    · intro hext
      refine issues ?_
      rw [hext]
      exact p.mvcw_bpc

end Sys2Proof.Machine

/-! Proofs about the multiply-accumulate slot of a Temper bundle (O24). -/

namespace Sys2Proof.Machine

namespace Px
variable (p : Px) {s1 s2 aux : Nat}

/-! ## Accumulator operations -/

theorem dmac_sums (hbit : bitAt aux 6 = false) (h1 : p.pairOk s1 = true) (h2 : p.pairOk s2 = true) :
    p.dmac s1 s2 aux = (p.accOp 0 fun a => a + alignProd (p.regS s1) (p.regS s2) (p.shiftOf aux)).accOp 1
      fun a => a + alignProd (p.hi s1) (p.hi s2) (p.shiftOf aux) := by
  unfold dmac
  exact unless_ok (by rw [hbit, h1, h2]; rfl)

/-- A complex product with its operands named: `b` is the imaginary part of the second operand, or its negative. -/
theorem complex_sums {cj add : Bool} {b : Int} (hbit : bitAt aux 6 = false) (h1 : p.pairOk s1 = true) (h2 : p.pairOk s2 = true)
    (hb : (if cj then -(p.hi s2) else p.hi s2) = b) :
    p.complex cj add s1 s2 aux =
      (p.accOp 0 fun a => (if add then a else 0) + alignProd (p.regS s1) (p.regS s2) (p.shiftOf aux)
        - alignProd (p.hi s1) b (p.shiftOf aux)).accOp 1
      fun a => (if add then a else 0) + alignProd (p.regS s1) b (p.shiftOf aux) + alignProd (p.hi s1) (p.regS s2) (p.shiftOf aux) := by
  subst hb
  unfold complex
  exact unless_ok (by rw [hbit, h1, h2]; rfl)

theorem nrw_narrows {v : Word} {o : Bool} (haux : aux % 8 = 0) (hmode : bitsOf aux 4 2 ≠ 3)
    (hv : p.narrowOf (aux / 64) s2 (bitsOf aux 4 2) (bitAt aux 3) = (v, o)) :
    p.nrw s1 s2 aux = { p with narrow := p.narrow || o }.later 2 (.data (p.phys s1) v) := by
  unfold nrw
  refine (unless_ok ?_).trans ?_
  · simp [haux, hmode]
  · rw [hv]

theorem ash_shifts (haux : aux % 64 = 0) :
    p.ash 0 s2 aux = p.accOp (aux / 64) fun a =>
      if 0 ≤ sgn 6 s2 then a * (2 ^ (sgn 6 s2).toNat : Nat) else a / (2 ^ (-(sgn 6 s2)).toNat : Nat) := by
  unfold ash
  exact unless_ok (by simp [haux])

theorem clsa_counts (hs2 : s2 < 2) (hbit : bitAt aux 6 = false) :
    p.clsa 0 s2 aux = p.later 2 (.data (p.phys aux) (BitVec.ofNat 32 (redundant (p.acc s2) 79))) := by
  unfold clsa
  exact unless_ok (by simp [hs2, hbit])

/-! ## Register operations -/

theorem alu_result (f : Int → Int → Int) (hbit : bitAt aux 6 = false) :
    p.alu f s1 s2 aux = p.later 1 (.data (p.phys aux) (BitVec.ofInt 32 (f (p.regS s1) (p.regS s2)))) := by
  unfold alu
  exact unless_ok hbit

theorem alu_illegal (f : Int → Int → Int) (hbit : bitAt aux 6 = true) : p.alu f s1 s2 aux = p.ill := by
  unfold alu
  exact unless_bad hbit

theorem bitwise_result (f : Word → Word → Word) (hbit : bitAt aux 6 = false) :
    p.bitwise f s1 s2 aux = p.later 1 (.data (p.phys aux) (f (p.reg s1) (p.reg s2))) := by
  unfold bitwise
  exact unless_ok hbit

theorem cls_counts (hbit : bitAt aux 6 = false) :
    p.cls s1 0 aux = p.later 1 (.data (p.phys aux) (BitVec.ofNat 32 (redundant (p.regS s1) 31))) := by
  unfold cls
  exact unless_ok (by simp [hbit])

/-- A shift uses the low five bits of its second operand, whatever its sign. -/
theorem uns_regS (r : Nat) : uns 5 (p.regS r) = (p.reg r).toNat % 32 := by
  have hlt := (p.reg r).isLt
  unfold uns regS
  rw [BitVec.toInt_eq_toNat_cond]
  split <;> omega

end Px

/-! ## The obligation -/

/-- Settles O24, operation by operation. -/
theorem macSlotOperations : Obligations.MacSlotOperations := by
  unfold Obligations.MacSlotOperations
  refine ⟨?_, ?_⟩
  · intro s n gap s1 s2 aux p htrapped hp hlive
    have issues {f : Px → Px} {q : Px} (hq : f p = q) : Host.Outcome.next (s.issue n gap f) = (.next (s.setPx n q) : Host.Outcome State Fault Refusal) :=
      congrArg _ (State.issue_live htrapped hp hlive hq)
    refine ⟨?_, ?_, ?_, ?_, ?_, fun v o haux hmode hv => issues (p.nrw_narrows haux hmode hv), ?_, ?_⟩
    · rintro q rfl
      exact ⟨issues rfl, issues rfl, issues rfl⟩
    · rintro ar ai br bi k hbit h1 h2 rfl rfl rfl rfl rfl
      exact ⟨issues (p.dmac_sums hbit h1 h2), issues (p.complex_sums hbit h1 h2 rfl), issues (p.complex_sums hbit h1 h2 rfl),
        issues (p.complex_sums hbit h1 h2 rfl)⟩
    all_goals rintro rfl
    · rintro rfl rfl
      exact issues rfl
    · rintro rfl rfl
      exact issues rfl
    · rintro rfl rfl
      exact issues rfl
    · intro haux
      exact issues (p.ash_shifts haux)
    · intro hs2 hbit
      exact issues (p.clsa_counts hs2 hbit)
  · rintro s n gap s1 s2 aux p a b k f htrapped hp hlive rfl rfl rfl rfl
    have issues {f : Px → Px} {q : Px} (hq : f p = q) : Host.Outcome.next (s.issue n gap f) = (.next (s.setPx n q) : Host.Outcome State Fault Refusal) :=
      congrArg _ (State.issue_live htrapped hp hlive hq)
    refine ⟨fun hbit => ?_, ?_, issues rfl, ?_, fun hbit => issues (p.alu_illegal _ hbit)⟩
    · rw [← p.uns_regS]
      exact ⟨issues (p.alu_result _ hbit), issues (p.alu_result _ hbit), issues (p.alu_result _ hbit), issues (p.alu_result _ hbit),
        issues (p.bitwise_result _ hbit), issues (p.bitwise_result _ hbit), issues (p.bitwise_result _ hbit),
        issues (p.alu_result _ hbit), issues (p.alu_result _ hbit), issues (p.alu_result _ hbit), issues (p.alu_result _ hbit),
        issues (p.alu_result _ hbit)⟩
    · rintro hbit rfl
      exact issues (p.cls_counts hbit)
    · rintro rfl rfl
      exact issues rfl

end Sys2Proof.Machine

/-! Proofs about the control slot of a Temper bundle (O25), and about when results land (O26). -/

namespace Sys2Proof.Machine

namespace Px
variable {p : Px} {op : Nat}

/-! ## Transfers -/

section Transfer
variable (hgoal : p.dp.goal = none) (hlast : p.dp.lastTwo = false) (hatom : p.dp.atom = 0)
include hgoal hlast hatom

theorem branch_transfers (c : Bool) (hin : p.escapes (p.target op) = false) :
    p.branch c op = if c then p.goTo (.bundle (p.target op) false) else p := by
  unfold branch
  exact transfer_ok hgoal hlast hatom (by rw [hin, Bool.and_false])

theorem call_transfers (hin : p.escapes (p.target op) = false) :
    p.call op = ({ p with dp := { p.dp with link := (p.dp.pc + 3) % 4096, inHook := p.dp.inHook || (!p.owner && decide (2048 ≤ p.target op)) } }).goTo
      (.bundle (p.target op) false) := by
  unfold call
  exact transfer_ok hgoal hlast hatom hin

/-- RET leaves the owner area only from a hook, outside its loops (R227). -/
theorem ret_transfers (hout : p.escapes p.dp.link = false ∨ p.dp.inHook = true ∧ p.dp.act0 = false ∧ p.dp.act1 = false) :
    p.ret 0 = p.goTo (.bundle p.dp.link (p.escapes p.dp.link)) := by
  unfold ret
  refine transfer_ok hgoal hlast hatom ?_
  obtain hin | ⟨hhook, h0, h1⟩ := hout
  · simp [hin]
  · simp [hhook, h0, h1]

theorem endp_transfers : p.endp 0 = p.goTo .finish := by
  unfold endp
  exact transfer_ok hgoal hlast hatom rfl

theorem rbg_transfers (howner : p.owner = false) : p.rbg 0 = p.goTo .resume := by
  unfold rbg
  exact transfer_ok hgoal hlast hatom (by rw [howner]; rfl)

/-- A loop of level 1 lies inside the open loop of level 0 (R238). -/
theorem loop_opens_inner (hbit : bitAt op 9 = true) (hend : p.dp.pc + bitsOf op 6 3 + 1 + op % 64 < 4096)
    (hsoon : tooSoon p.dp.clock p.dp.lset1 = false)
    (hnest : p.dp.act0 = true → p.dp.ls0 ≤ p.dp.pc + bitsOf op 6 3 + 1 ∧ p.dp.pc + bitsOf op 6 3 + 1 + op % 64 ≤ p.dp.le0) :
    p.loop op = { p with dp := { p.dp with ls1 := p.dp.pc + bitsOf op 6 3 + 1, le1 := p.dp.pc + bitsOf op 6 3 + 1 + op % 64, act1 := true,
                                           entering := some 1 } } := by
  unfold loop
  dsimp only
  rw [if_pos hbit, transfer_ok hgoal hlast hatom]
  rw [hsoon, decide_eq_false (by omega), Bool.false_or, Bool.false_or, Bool.and_eq_false_iff]
  by_cases hact : p.dp.act0 = true
  · obtain ⟨hl, he⟩ := hnest hact
    exact .inr (by rw [decide_eq_false (by omega), decide_eq_false (by omega)]; rfl)
  · exact .inl (Bool.eq_false_of_not_eq_true hact)

theorem loop_opens_outer (hbit : bitAt op 9 = false) (hend : p.dp.pc + bitsOf op 6 3 + 1 + op % 64 < 4096)
    (hsoon : tooSoon p.dp.clock p.dp.lset0 = false) (hact : p.dp.act1 = false) :
    p.loop op = { p with dp := { p.dp with ls0 := p.dp.pc + bitsOf op 6 3 + 1, le0 := p.dp.pc + bitsOf op 6 3 + 1 + op % 64, act0 := true,
                                           entering := some 0 } } := by
  unfold loop
  dsimp only
  rw [if_neg (by rw [hbit]; exact Bool.false_ne_true), transfer_ok hgoal hlast hatom]
  rw [hsoon, hact, decide_eq_false (by omega)]
  rfl

end Transfer

theorem rbg_owner (howner : p.owner = true) : p.rbg op = p.ill := by
  unfold rbg
  exact transfer_bad (by rw [howner, Bool.or_true])

/-! ## The other control operations -/

theorem lset_counts (hgoal : p.dp.goal = none) (hop : bitsOf op 6 3 = 0) :
    p.lset op = if bitAt op 9 then { p with dp := { p.dp with lset1 := some p.dp.clock } }.later 1 (.ctl 1 ((p.reg (op % 64)).toNat % 2 ^ 16))
      else { p with dp := { p.dp with lset0 := some p.dp.clock } }.later 1 (.ctl 0 ((p.reg (op % 64)).toNat % 2 ^ 16)) := by
  unfold lset
  exact control_ok hgoal (by rw [hop]; rfl)

theorem rot_rotates (hgoal : p.dp.goal = none) (hop : bitsOf op 5 4 = 0) :
    p.rot op = p.later 1 (.ctl 6 (if bitAt op 9 then (p.dp.rrb + 32 - op % 32) % 32 else op % 32)) := by
  unfold rot
  exact control_ok hgoal (by rw [hop]; rfl)

theorem atom_opens (hgoal : p.dp.goal = none) (hatom : p.dp.atom = 0) (hop : op < 8) :
    p.atom op = { p with dp := { p.dp with atom := op % 8 + 2 } } := by
  unfold atom
  exact control_ok hgoal (by rw [hatom, decide_eq_false (by omega)]; rfl)

/-! ## Delay slots -/

section Delay
variable (hgoal : p.dp.goal.isSome = true)
include hgoal

theorem transfer_delay {bad : Bool} {f : Px → Px} : p.transfer bad f = p.ill := control_delay hgoal

theorem branch_delay (c : Bool) : p.branch c op = p.ill := by
  unfold branch
  exact control_delay hgoal

theorem loop_delay : p.loop op = p.ill := by
  unfold loop
  dsimp only
  split <;> exact control_delay hgoal

end Delay

/-! ## Landing -/

/-- The registers and the memory that results change, what is in flight, and the time. -/
def SameData (p q : Px) : Prop :=
  q.dp.d = p.dp.d ∧ q.mem = p.mem ∧ q.dp.flight = p.dp.flight ∧ q.dp.clock = p.dp.clock ∧ q.dp.goal = p.dp.goal

theorem SameData.trans {p q r : Px} (h : p.SameData q) (h' : q.SameData r) : p.SameData r := by
  obtain ⟨hd, hmem, hflight, hclock, hgoal⟩ := h
  obtain ⟨hd', hmem', hflight', hclock', hgoal'⟩ := h'
  exact ⟨hd'.trans hd, hmem'.trans hmem, hflight'.trans hflight, hclock'.trans hclock, hgoal'.trans hgoal⟩

theorem setCtl_keeps (x : Dp) (num v : Nat) : (x.setCtl num v).d = x.d ∧ (x.setCtl num v).flight = x.flight
    ∧ (x.setCtl num v).clock = x.clock ∧ (x.setCtl num v).goal = x.goal := by
  unfold Dp.setCtl
  split <;> exact ⟨rfl, rfl, rfl, rfl⟩

/-- A result changes registers and memory by itself, whatever else the engine holds. -/
theorem SameData.land {p q : Px} (h : p.SameData q) (l : Land) : (p.land l).SameData (q.land l) := by
  obtain ⟨hd, hmem, hflight, hclock, hgoal⟩ := h
  cases l with
  | data r v => exact ⟨by simp only [Px.land, hd], hmem, hflight, hclock, hgoal⟩
  | mem a bs => exact ⟨hd, by simp only [Px.land, hmem], hflight, hclock, hgoal⟩
  | ctl num v =>
    obtain ⟨pd, pflight, pclock, pgoal⟩ := setCtl_keeps p.dp num v
    obtain ⟨qd, qflight, qclock, qgoal⟩ := setCtl_keeps q.dp num v
    exact ⟨qd.trans (hd.trans pd.symm), hmem, qflight.trans (hflight.trans pflight.symm), qclock.trans (hclock.trans pclock.symm),
      qgoal.trans (hgoal.trans pgoal.symm)⟩
  | acc k v => simp only [Px.land]; split_ifs <;> exact ⟨hd, hmem, hflight, hclock, hgoal⟩
  | accPart k part v => simp only [Px.land]; split_ifs <;> exact ⟨hd, hmem, hflight, hclock, hgoal⟩
  | _ => exact ⟨hd, hmem, hflight, hclock, hgoal⟩

theorem SameData.landAll {p q : Px} (h : p.SameData q) (due : List (Nat × Land)) :
    (due.foldl (fun p f => p.land f.2) p).SameData (due.foldl (fun p f => p.land f.2) q) := by
  induction due generalizing p q with
  | nil => exact h
  | cons f due ih => exact ih (h.land f.2)

theorem SameData.landDue {p q : Px} (h : p.SameData q) (t : Nat) : (p.landDue t).SameData (q.landDue t) := by
  obtain ⟨hd, hmem, hflight, hclock, hgoal⟩ := h
  unfold Px.landDue
  dsimp only
  rw [hflight]
  refine SameData.landAll ?_ _
  exact ⟨hd, hmem, rfl, hclock, hgoal⟩

/-- The engine one bundle later, but for its flow of control. -/
def landed (p : Px) : Px := { p with dp := { p.dp with clock := p.dp.clock + 1 } }.landDue (p.dp.clock + 1)

theorem SameData.landed {p q : Px} (h : p.SameData q) : p.landed.SameData q.landed := by
  obtain ⟨hd, hmem, hflight, hclock, hgoal⟩ := h
  unfold Px.landed
  rw [hclock]
  refine SameData.landDue ?_ _
  exact ⟨hd, hmem, hflight, rfl, hgoal⟩

/-- The flow from bundle to bundle changes neither registers nor what is in flight. -/
theorem follow_keeps (x : Dp) : x.follow.d = x.d ∧ x.follow.flight = x.flight ∧ x.follow.clock = x.clock ∧ x.follow.goal = x.goal := by
  unfold Dp.follow
  dsimp only
  split_ifs <;> exact ⟨rfl, rfl, rfl, rfl⟩

theorem enter_keeps (x : Dp) : x.enter.d = x.d ∧ x.enter.flight = x.flight ∧ x.enter.clock = x.clock ∧ x.enter.goal = x.goal := by
  unfold Dp.enter
  split
  · split_ifs <;> exact ⟨rfl, rfl, rfl, rfl⟩
  · split_ifs <;> exact ⟨rfl, rfl, rfl, rfl⟩
  · exact ⟨rfl, rfl, rfl, rfl⟩

/-- The end of a code area changes no data. -/
theorem sameData_ofPc (q : Px) (was : Nat) : q.SameData (if 4096 ≤ q.dp.pc then
    (if 2048 ≤ was then q.ill else { q with dp := { q.dp with pc := q.dp.pc % 4096 } }) else q) := by
  split_ifs <;> exact ⟨rfl, rfl, rfl, rfl, rfl⟩

/-- Outside a transfer the next bundle has what has landed by then. -/
theorem landed_next (hgoal : p.dp.goal = none) : p.landed.SameData p.next := by
  unfold next
  simp only [hgoal]
  refine SameData.trans ?_ (sameData_ofPc _ _)
  obtain ⟨fd, fflight, fclock, fgoal⟩ := follow_keeps { p.dp with clock := p.dp.clock + 1, atom := p.dp.atom - 1, goal := none }
  obtain ⟨ed, eflight, eclock, egoal⟩ := enter_keeps { p.dp with clock := p.dp.clock + 1, atom := p.dp.atom - 1, goal := none }.follow
  dsimp only at *
  rw [fd] at ed
  rw [fflight] at eflight
  rw [fclock] at eclock
  rw [fgoal] at egoal
  rw [eclock]
  refine SameData.landDue ?_ _
  exact ⟨ed, rfl, eflight, eclock, egoal.trans hgoal.symm⟩

theorem land_goal (p : Px) (l : Land) : (p.land l).dp.goal = p.dp.goal := by
  cases l with
  | ctl num v => exact (setCtl_keeps p.dp num v).2.2.2
  | acc k v => simp only [land]; split_ifs <;> rfl
  | accPart k q v => simp only [land]; split_ifs <;> rfl
  | _ => rfl

theorem landed_goal (p : Px) : p.landed.dp.goal = p.dp.goal :=
  foldl_holds (P := fun q : Px => q.dp.goal = p.dp.goal) (fun q f _ hq => (q.land_goal f.2).trans hq) rfl

/-- Two and three bundles without a transfer. -/
theorem landed_next_next (hgoal : p.dp.goal = none) : p.landed.landed.SameData p.next.next := by
  have h := landed_next hgoal
  refine h.landed.trans (landed_next ?_)
  rw [h.2.2.2.2, landed_goal, hgoal]

theorem landed_next_next_next (hgoal : p.dp.goal = none) : p.landed.landed.landed.SameData p.next.next.next := by
  have h := landed_next_next hgoal
  refine h.landed.trans (landed_next ?_)
  rw [h.2.2.2.2, landed_goal, landed_goal, hgoal]

theorem dreg_of_sameData {p q : Px} (h : p.SameData q) (r : Nat) : q.dp.dreg r = p.dp.dreg r := by
  rw [Dp.dreg, h.1]
  rfl

/-- The engine `k` bundles later with `fl` in flight. -/
def after (p : Px) (k : Nat) (fl : List (Nat × Land)) : Px := { p with dp := { p.dp with clock := p.dp.clock + k, flight := fl } }

theorem later_eq_after (hflight : p.dp.flight = []) (k : Nat) (l : Land) : p.later k l = p.after 0 [(p.dp.clock + k, l)] := by
  rw [later, after, hflight]
  rfl

/-- A single result in flight: it lands when its time has come. -/
theorem landed_waits {k j : Nat} (l : Land) (h : k + 1 < j) :
    (p.after k [(p.dp.clock + j, l)]).landed = p.after (k + 1) [(p.dp.clock + j, l)] := by
  have hlate : ¬ j ≤ k + 1 := by omega
  simp [landed, landDue, after, hlate, h, Nat.add_assoc]

theorem landed_lands (k : Nat) (l : Land) :
    (p.after k [(p.dp.clock + (k + 1), l)]).landed = (p.after (k + 1) []).land l := by
  simp [landed, landDue, after, Nat.add_assoc]

end Px

/-! ## The obligations -/

/-- Settles O25, operation by operation. -/
theorem controlSlot : Obligations.ControlSlot := by
  unfold Obligations.ControlSlot
  intro s n gap op p htrapped hp hlive
  have issues {f : Px → Px} {q : Px} (hq : f p = q) : Host.Outcome.next (s.issue n gap f) = (.next (s.setPx n q) : Host.Outcome State Fault Refusal) :=
    congrArg _ (State.issue_live htrapped hp hlive hq)
  refine ⟨?_, ?_, ?_, ?_, ?_, ?_, fun hgoal hop => issues (Px.rot_rotates hgoal hop),
    fun hgoal hatom hop => issues (Px.atom_opens hgoal hatom hop), ?_⟩
  · intro hgoal hlast hatom hin
    have branches (c : Bool) : p.branch c op.toNat = if c then p.goTo (.bundle (p.target op.toNat) false) else p :=
      Px.branch_transfers hgoal hlast hatom c hin
    have not_branches (c : Bool) : p.branch (!c) op.toNat = if c then p else p.goTo (.bundle (p.target op.toNat) false) := by
      rw [branches]
      cases c <;> rfl
    exact ⟨issues (branches true), issues (branches p.dp.z), issues (not_branches p.dp.z), issues (branches p.dp.n),
      issues (not_branches p.dp.n), issues (Px.call_transfers hgoal hlast hatom hin)⟩
  · rintro hgoal hlast hatom rfl
    exact ⟨fun hout => issues (Px.ret_transfers hgoal hlast hatom hout), issues (Px.endp_transfers hgoal hlast hatom),
      fun howner => issues (Px.rbg_transfers hgoal hlast hatom howner), fun howner => issues (Px.rbg_owner howner)⟩
  · intro hgoal hop hbit
    exact issues ((Px.lset_counts hgoal hop).trans (if_neg (by rw [hbit]; exact Bool.false_ne_true)))
  · intro hgoal hop hbit
    exact issues ((Px.lset_counts hgoal hop).trans (if_pos hbit))
  · rintro _ _ rfl rfl hgoal hlast hatom hend hbit hsoon hnest
    exact issues (Px.loop_opens_inner hgoal hlast hatom hbit hend hsoon hnest)
  · rintro _ _ rfl rfl hgoal hlast hatom hend hbit hsoon hact
    exact issues (Px.loop_opens_outer hgoal hlast hatom hbit hend hsoon hact)
  · intro i hgoal hi
    simp only [List.mem_cons, List.not_mem_nil, or_false] at hi
    obtain rfl | rfl | rfl | rfl | rfl | rfl | rfl | rfl | rfl | rfl | rfl | rfl | rfl := hi
    all_goals refine issues ?_
    · exact Px.branch_delay hgoal _
    · exact Px.branch_delay hgoal _
    · exact Px.branch_delay hgoal _
    · exact Px.branch_delay hgoal _
    · exact Px.branch_delay hgoal _
    · unfold Px.call
      exact Px.transfer_delay hgoal
    · unfold Px.ret
      exact Px.transfer_delay hgoal
    · unfold Px.endp
      exact Px.transfer_delay hgoal
    · unfold Px.rbg
      exact Px.transfer_delay hgoal
    · exact Px.control_delay hgoal
    · exact Px.loop_delay hgoal
    · exact Px.control_delay hgoal
    · exact Px.control_delay hgoal

section Results
variable (p : Px) (hflight : p.dp.flight = []) (hgoal : p.dp.goal = none)
include hflight hgoal

theorem dreg_later (r : Nat) (v : Word) :
    (p.later 1 (.data r v)).dp.dreg r = p.dp.dreg r ∧ (p.later 1 (.data r v)).next.dp.dreg r = v
    ∧ (p.later 3 (.data r v)).next.next.dp.dreg r = p.dp.dreg r ∧ (p.later 3 (.data r v)).next.next.next.dp.dreg r = v
    ∧ ∀ k, k ≠ r → (p.later 3 (.data r v)).next.next.next.dp.dreg k = p.dp.dreg k := by
  have hone := Px.landed_next (p := p.later 1 (.data r v)) hgoal
  have htwo := Px.landed_next_next (p := p.later 3 (.data r v)) hgoal
  have hthree := Px.landed_next_next_next (p := p.later 3 (.data r v)) hgoal
  rw [Px.later_eq_after hflight, Px.landed_lands] at hone
  rw [Px.later_eq_after hflight, Px.landed_waits _ (by decide), Px.landed_waits _ (by decide)] at htwo
  rw [Px.later_eq_after hflight, Px.landed_waits _ (by decide), Px.landed_waits _ (by decide), Px.landed_lands] at hthree
  rw [Px.later_eq_after hflight, Px.later_eq_after hflight]
  refine ⟨rfl, ?_, Px.dreg_of_sameData htwo r, ?_, fun k hk => ?_⟩
  · rw [Px.dreg_of_sameData hone]
    exact lookup_store_same _ _ _
  · rw [Px.dreg_of_sameData hthree]
    exact lookup_store_same _ _ _
  · rw [Px.dreg_of_sameData hthree]
    exact lookup_store_ne _ _ hk

/-- Both results land in their order of issue. -/
theorem dreg_later_later (r : Nat) (v w : Word) : ((p.later 1 (.data r v)).later 1 (.data r w)).next.dp.dreg r = w := by
  rw [Px.dreg_of_sameData (Px.landed_next (p := (p.later 1 (.data r v)).later 1 (.data r w)) hgoal)]
  simp [Px.landed, Px.landDue, Px.later, hflight, Px.land, Dp.dreg]

theorem mem_later (a : Nat) (bs : List Byte) :
    (p.later 2 (.mem a bs)).next.mem = p.mem ∧ (p.later 2 (.mem a bs)).next.next.mem = writeBytes p.mem a bs := by
  have hone := Px.landed_next (p := p.later 2 (.mem a bs)) hgoal
  have htwo := Px.landed_next_next (p := p.later 2 (.mem a bs)) hgoal
  rw [Px.later_eq_after hflight, Px.landed_waits _ (by decide)] at hone
  rw [Px.later_eq_after hflight, Px.landed_waits _ (by decide), Px.landed_lands] at htwo
  rw [Px.later_eq_after hflight]
  exact ⟨hone.2.1, htwo.2.1⟩

end Results

/-- Settles O26: the bundles in which nothing is due only count, and the last of them lands the result. -/
theorem resultsLandInTime : Obligations.ResultsLandInTime := by
  unfold Obligations.ResultsLandInTime
  exact ⟨fun p r v hflight hgoal => dreg_later p hflight hgoal r v, fun p r v w hflight hgoal => dreg_later_later p hflight hgoal r v w,
    fun p a bs hflight hgoal => mem_later p hflight hgoal a bs, fun s n gap f h => State.issue_trapped h⟩

end Sys2Proof.Machine

/-! What later proofs need of the feedback channels (chapter 9): their table, the passing of cell time, and the standstill flag. -/

namespace Sys2Proof.Machine

/-- What one step of a repetition over the numbers below `n` makes of a view that no other step changes. -/
theorem foldl_range_once {σ β : Type} {f : σ → Nat → σ} (P : σ → β) (g : β → β) {n k : Nat} (hk : k < n)
    (hset : ∀ t, P (f t k) = g (P t)) (hkeep : ∀ t i, i < n → i ≠ k → P (f t i) = P t) (s : σ) :
    P ((List.range n).foldl f s) = g (P s) := by
  obtain ⟨d, rfl⟩ : ∃ d, n = k + 1 + d := ⟨n - (k + 1), by omega⟩
  rw [List.range_add, List.range_succ, List.foldl_append, List.foldl_append, foldl_keeps P fun t a ha => ?_]
  · rw [List.foldl_cons, List.foldl_nil, hset,
      foldl_keeps P fun t a ha => hkeep t a (by have := List.mem_range.1 ha; omega) (by have := List.mem_range.1 ha; omega)]
  · obtain ⟨i, hi, rfl⟩ := List.mem_map.1 ha
    have hlt := List.mem_range.1 hi
    exact hkeep t _ (by omega) (by omega)

namespace State

variable (s : State)

/-! ## The table of channels -/

@[simp] theorem tngCh_setTngCh_same (c : Nat) (v : TngCh) : (s.setTngCh c v).tngCh c = v := lookup_store_same _ _ _

theorem tngCh_setTngCh_ne {c k : Nat} (v : TngCh) (h : k ≠ c) : (s.setTngCh c v).tngCh k = s.tngCh k := lookup_store_ne _ _ h

theorem tngCh_congr {t : State} (h : t.tongs = s.tongs) (c : Nat) : t.tngCh c = s.tngCh c := by rw [tngCh, tngCh, h]

@[simp] theorem wr_tngCh (f : Fld) (v i j c : Nat) : (s.wr f v i j).tngCh c = s.tngCh c := rfl
@[simp] theorem bump_tngCh (f : Fld) (i j n c : Nat) : (s.bump f i j n).tngCh c = s.tngCh c := rfl
@[simp] theorem drawn_tngCh (c : Nat) : s.drawn.tngCh c = s.tngCh c := rfl
@[simp] theorem startDesc_tngCh (d : Desc) (c : Nat) : (s.startDesc d).tngCh c = s.tngCh c := rfl
@[simp] theorem raise_tngCh (src code inst : Nat) (d : DWord) (c : Nat) : (s.raise src code inst d).tngCh c = s.tngCh c :=
  s.tngCh_congr (s.raise_tongs src code inst d) c
@[simp] theorem complete_tngCh (id status notes : Nat) (res : List Byte) (ind : Bool) (c : Nat) :
    (s.complete id status notes res ind).tngCh c = s.tngCh c := s.tngCh_congr (s.complete_tongs id status notes res ind) c

theorem setTngCh_onlyWords (c : Nat) (v : TngCh) (l : List Nat) : s.OnlyWords (s.setTngCh c v) l := fun _ _ => rfl

/-! ## Time -/

/-- The wait for a cell time moves the tick and the cell time, and nothing else. -/
theorem advanceCell_eq (t : Nat) : ∃ k cell, s.tick ≤ k ∧ s.advanceCell t = { s with tick := k, tim := { s.tim with cell := cell } } := by
  unfold advanceCell
  dsimp only
  split
  · exact ⟨_, _, Nat.le_refl _, rfl⟩
  · exact ⟨_, _, Nat.le_add_right _ _, rfl⟩

/-- A cell time that has passed is not waited for. -/
theorem advanceCell_past {t : Nat} (h : cellDiff t s.cellNs ≤ 0) : s.advanceCell t = s := if_pos (.inl h)

/-! ## Standstill -/

/-- Time has passed, and at most the standstill flag of a channel has changed. -/
def SettlesAt (s t : State) (c : Nat) : Prop :=
  (∃ b, t.tngCh c = { s.tngCh c with standstill := b }) ∧ (∀ k, k ≠ c → t.tngCh k = s.tngCh k)
    ∧ ∃ tick tim, t = { s with tick := tick, tim := tim, tongs := t.tongs }

theorem tngStill_cases (c : Nat) : s.tngStill c = s ∨ s.tngStill c = s.setTngCh c { s.tngCh c with standstill := true } := by
  unfold tngStill
  dsimp only
  split
  · split
    · exact .inr rfl
    · exact .inl rfl
  · exact .inl rfl

theorem tngStill_settles (c : Nat) : s.SettlesAt (s.tngStill c) c := by
  obtain h | h := s.tngStill_cases c
  · rw [h]
    exact ⟨⟨_, rfl⟩, fun _ _ => rfl, _, _, rfl⟩
  · rw [h]
    exact ⟨⟨true, s.tngCh_setTngCh_same c _⟩, fun k hk => s.tngCh_setTngCh_ne _ hk, _, _, rfl⟩

theorem filtered_settles (t n c : Nat) : s.SettlesAt ((s.filtered t n).tngStill c) c := by
  obtain ⟨k, cell, -, hk⟩ := s.advanceCell_eq (uns 64 (t + 12 + 4 * n : Nat))
  have h := (s.filtered t n).tngStill_settles c
  rw [filtered, hk] at h ⊢
  exact h

variable {s} {t : State} {c : Nat}

theorem SettlesAt.regs (h : s.SettlesAt t c) : t.regs = s.regs := by
  obtain ⟨-, -, tick, tim, h⟩ := h
  rw [h]

theorem SettlesAt.rd (h : s.SettlesAt t c) (f : Fld) (i j : Nat) : t.rd f i j = s.rd f i j := by
  obtain ⟨-, -, tick, tim, h⟩ := h
  rw [h]
  rfl

theorem SettlesAt.on (h : s.SettlesAt t c) (f : Fld) (i j : Nat) : t.on f i j = s.on f i j := by
  rw [State.on, State.on, h.rd]

theorem SettlesAt.takesEvent (h : s.SettlesAt t c) {src : Nat} (hev : s.takesEvent src) : t.takesEvent src := by
  obtain ⟨-, -, tick, tim, h⟩ := h
  rw [h]
  exact hev

end State

end Sys2Proof.Machine

/-! Proofs about the channels of the feedback interface (O27). -/

namespace Sys2Proof.Machine

/-! ## Enable -/

theorem execTongsEnable_enables {s : State} {m : Master} {c : Fin 32} {l : BitVec 3} (hoff : s.tngOn c = false) (hmay : s.tngMay m c = true) :
    ∃ t, execTongsEnable m c l s = .next t ∧ t.tngOn c = true ∧ (t.tngCh c).levels = l ∧ (t.tngCh c).edges = []
      ∧ (t.tngCh c).referenced = false ∧ (s.tngMode c ≠ 2 → (t.tngCh c).ext = 0 ∧ (t.tngCh c).standstill = true)
      ∧ (s.tngMode c = 2 → (t.tngCh c).ext = (s.tngCh c).ext ∧ (t.tngCh c).frames = [] ∧ (t.tngCh c).prev = none)
      ∧ s.OnlyWords t [F.TNG_CH_CTL_enable.addr c 0] ∧ ∀ k, k ≠ c.val → t.tngCh k = s.tngCh k := by
  simp only [execTongsEnable, hoff, hmay, Bool.not_true, Bool.false_eq_true, if_false]
  have hon (v : TngCh) : ((s.wr F.TNG_CH_CTL_enable 1 c).setTngCh c v).tngOn c = true :=
    (State.on_eq_true _).2 (by rw [State.setTngCh_rd, State.rd_wr_same _ (by decide)]; decide)
  have hond (v : TngCh) : ((s.wr F.TNG_CH_CTL_enable 1 c).setTngCh c v).drawn.tngOn c = true := hon v
  have hwords : s.OnlyWords (s.wr F.TNG_CH_CTL_enable 1 c) [F.TNG_CH_CTL_enable.addr c 0] := (State.OnlyWords.refl s _).wr (by simp)
  by_cases hssi : s.tngMode c = 2
  · simp only [hssi, beq_self_eq_true, if_true]
    refine ⟨_, rfl, hond _, ?_, ?_, ?_, fun h => absurd rfl h, fun _ => ?_, hwords, fun k hk => ?_⟩
    · rw [State.drawn_tngCh, State.tngCh_setTngCh_same]
    · rw [State.drawn_tngCh, State.tngCh_setTngCh_same]
    · rw [State.drawn_tngCh, State.tngCh_setTngCh_same]
    · rw [State.drawn_tngCh, State.tngCh_setTngCh_same]
      exact ⟨rfl, rfl, rfl⟩
    · rw [State.drawn_tngCh, State.tngCh_setTngCh_ne _ _ hk]
      rfl
  · have hssi' : (s.tngMode c == 2) = false := beq_eq_false_iff_ne.2 hssi
    simp only [hssi', Bool.false_eq_true, if_false, Bool.not_false]
    refine ⟨_, rfl, ?_, ?_, ?_, ?_, fun _ => ?_, fun h => absurd h hssi, hwords, fun k hk => ?_⟩
    · exact hon _
    · rw [State.tngCh_setTngCh_same]
    · rw [State.tngCh_setTngCh_same]
    · rw [State.tngCh_setTngCh_same]
    · rw [State.tngCh_setTngCh_same]
      exact ⟨rfl, rfl⟩
    · rw [State.tngCh_setTngCh_ne _ _ hk]
      rfl

theorem execTongsEnable_on {s : State} {m : Master} {c : Fin 32} {l : BitVec 3} (hon : s.tngOn c = true) :
    execTongsEnable m c l s = .next s := by
  simp only [execTongsEnable, hon, if_true]

/-- A channel of the safety processor is left to privileged masters (R268). -/
theorem tngMay_quench {s : State} {m : Master} {c : Nat} (hquench : s.on F.TNG_CH_CFG_quench c = true) (hpriv : s.privileged m = false) :
    s.tngMay m c = false := by
  simp only [State.tngMay, hquench, hpriv, Bool.not_true, Bool.or_self]

theorem tongs_unprivileged {s : State} {m : Master} {c : Fin 32} {l : BitVec 3} (hquench : s.on F.TNG_CH_CFG_quench c = true)
    (hpriv : s.privileged m = false) :
    (s.tngOn c = false → execTongsEnable m c l s = .next (s.pvDropped m false true (F.TNG_CH_CTL_enable.addr c 0)))
      ∧ (s.tngOn c = true → execTongsDisable m c s = .next (s.pvDropped m false true (F.TNG_CH_CTL_enable.addr c 0))) := by
  have hmay := tngMay_quench hquench hpriv
  constructor
  · intro hoff
    simp only [execTongsEnable, hoff, hmay, Bool.not_false, Bool.false_eq_true, if_false, if_true]
  · intro hon
    simp only [execTongsDisable, hon, hmay, Bool.not_true, Bool.not_false, Bool.false_eq_true, if_false, if_true]

/-! ## Disable -/

/-- The probes of channel `c` among the first `n` disarm. -/
def State.disarmOf (s : State) (c n : Nat) : State :=
  (List.range n).foldl (fun s p => if s.rd F.TNG_PRB_CFG_chan p = c ∧ s.on F.TNG_PRB_CFG_arm p then s.disarm p else s) s

namespace State
variable (s : State)

/-- The fields of a probe that its disarming concerns. -/
def probeView (p : Nat) (s : State) : Nat × Nat × Nat := (s.rd F.TNG_PRB_CFG_chan p, s.rd F.TNG_PRB_CFG_arm p, s.rd F.TNG_PRB_STAT_armed p)

/-- What the end of channel `c` makes of a probe. -/
def disarmView (c : Nat) : Nat × Nat × Nat → Nat × Nat × Nat := fun v => if v.1 = c ∧ v.2.1 ≠ 0 then (v.1, 0, 0) else v

theorem disarm_arm (p : Nat) : (s.disarm p).rd F.TNG_PRB_CFG_arm p = 0 := by
  rw [disarm, State.rd_wr_sep _ (by decide), State.rd_wr_same _ (by decide)]
  rfl

theorem disarm_armed (p : Nat) : (s.disarm p).rd F.TNG_PRB_STAT_armed p = 0 := by
  rw [disarm, State.rd_wr_same _ (by decide)]
  rfl

theorem disarm_rd_other {f : Fld} {i p : Nat} (hip : i ≠ p) (hcfg : f.Beside F.TNG_PRB_CFG_arm) (hstat : f.Beside F.TNG_PRB_STAT_armed) :
    (s.disarm p).rd f i = s.rd f i := by
  rw [disarm, State.rd_wr_beside _ hip hstat, State.rd_wr_beside _ hip hcfg]

theorem disarm_rd_chan (p : Nat) : (s.disarm p).rd F.TNG_PRB_CFG_chan p = s.rd F.TNG_PRB_CFG_chan p := by
  rw [disarm, State.rd_wr_sep _ (by decide), State.rd_wr_sep _ (by decide)]

theorem probeView_disarm (p : Nat) : probeView p (s.disarm p) = (s.rd F.TNG_PRB_CFG_chan p, 0, 0) := by
  rw [probeView, disarm_rd_chan, disarm_arm, disarm_armed]

theorem probeView_disarm_ne {i p : Nat} (hip : i ≠ p) : probeView i (s.disarm p) = probeView i s := by
  rw [probeView, s.disarm_rd_other hip (by decide) (by decide), s.disarm_rd_other hip (by decide) (by decide),
    s.disarm_rd_other hip (by decide) (by decide), probeView]

theorem probeView_disarmOf {c p n : Nat} (hp : p < n) : probeView p (s.disarmOf c n) = disarmView c (probeView p s) := by
  refine foldl_range_once (probeView p) (disarmView c) hp (fun t => ?_) (fun t i _ hi => ?_) s
  · simp only [disarmView, probeView, ← State.on_eq_true]
    split
    · exact t.probeView_disarm p
    · rfl
  · split
    · exact t.probeView_disarm_ne hi.symm
    · rfl

/-- The registers of channels lie apart from those of probes. -/
theorem disarmOf_rd {f : Fld} {c i n : Nat} (hi : i < 32) (hn : n ≤ 8) (hcfg : f.Off F.TNG_PRB_CFG_arm 32 8)
    (hstat : f.Off F.TNG_PRB_STAT_armed 32 8) : (s.disarmOf c n).rd f i = s.rd f i :=
  foldl_keeps (fun t : State => t.rd f i) (fun t p hp => by
    have hp' : p < 8 := Nat.lt_of_lt_of_le (List.mem_range.1 hp) hn
    split
    · rw [disarm, State.rd_wr_off _ hi hp' hstat, State.rd_wr_off _ hi hp' hcfg]
    · rfl) s

theorem disarmOf_tngCh (c n k : Nat) : (s.disarmOf c n).tngCh k = s.tngCh k :=
  foldl_keeps (fun t : State => t.tngCh k) (fun t p _ => by split <;> rfl) s

end State

theorem execTongsDisable_disables {s : State} {m : Master} {c : Fin 32} (hon : s.tngOn c = true) (hmay : s.tngMay m c = true) :
    ∃ t, execTongsDisable m c s = .next t ∧ t.tngOn c = false ∧ (t.tngCh c).frame = none
      ∧ t.rd F.TNG_CH_STAT_status c = (s.tngStill c).tngStatus c % 2 ^ F.TNG_CH_STAT_status.width
      ∧ (∀ p, p < 8 → s.rd F.TNG_PRB_CFG_chan p = c.val → s.on F.TNG_PRB_CFG_arm p = true →
          t.rd F.TNG_PRB_CFG_arm p = 0 ∧ t.rd F.TNG_PRB_STAT_armed p = 0)
      ∧ ∀ p, p < 8 → s.rd F.TNG_PRB_CFG_chan p ≠ c.val → t.rd F.TNG_PRB_STAT_armed p = s.rd F.TNG_PRB_STAT_armed p := by
  simp only [execTongsDisable, hon, hmay, Bool.not_true, Bool.false_eq_true, if_false]
  have hstill := s.tngStill_settles c
  generalize s.tngStill c = u at *
  generalize hx : ({ (((u.wr F.TNG_CH_STAT_status (u.tngSample c).2.2 c).wr F.TNG_CH_VEL_vel (u.tngSample c).2.1 c).wr F.TNG_CH_COUNT_ext
    (u.tngExt c).1 c).tngCh c with frame := none } : TngCh) = x
  generalize hv : ((((u.wr F.TNG_CH_STAT_status (u.tngSample c).2.2 c).wr F.TNG_CH_VEL_vel (u.tngSample c).2.1 c).wr F.TNG_CH_COUNT_ext
    (u.tngExt c).1 c).wr F.TNG_CH_CTL_enable 0 c).setTngCh c x = v
  have henable : v.rd F.TNG_CH_CTL_enable c = 0 := by
    rw [← hv, State.setTngCh_rd, State.rd_wr_same _ (by decide)]
    rfl
  have hstatus : v.rd F.TNG_CH_STAT_status c = u.tngStatus c % 2 ^ F.TNG_CH_STAT_status.width := by
    rw [← hv, State.setTngCh_rd, State.rd_wr_sep _ (by decide), State.rd_wr_sep _ (by decide), State.rd_wr_sep _ (by decide),
      State.rd_wr_same _ (by decide)]
    rfl
  have hprobe (f : Fld) (p : Nat) (hp : p < 8) (h1 : f.Off F.TNG_CH_STAT_status 8 32) (h2 : f.Off F.TNG_CH_VEL_vel 8 32)
      (h3 : f.Off F.TNG_CH_COUNT_ext 8 32) (h4 : f.Off F.TNG_CH_CTL_enable 8 32) : v.rd f p = s.rd f p := by
    rw [← hv, State.setTngCh_rd, State.rd_wr_off _ hp c.isLt h4, State.rd_wr_off _ hp c.isLt h3, State.rd_wr_off _ hp c.isLt h2,
      State.rd_wr_off _ hp c.isLt h1, hstill.rd]
  have hview (p : Nat) (hp : p < 8) : State.probeView p (v.disarmOf c 8) = State.disarmView c (State.probeView p s) := by
    rw [v.probeView_disarmOf hp, State.probeView, hprobe _ p hp (by decide) (by decide) (by decide) (by decide),
      hprobe _ p hp (by decide) (by decide) (by decide) (by decide), hprobe _ p hp (by decide) (by decide) (by decide) (by decide)]
    rfl
  refine ⟨_, rfl, ?_, ?_, ?_, fun p hp hchan harm => ?_, fun p hp hchan => ?_⟩
  · exact (State.on_eq_false _).2 ((v.disarmOf_rd c.isLt (Nat.le_refl 8) (by decide) (by decide)).trans henable)
  · refine (congrArg TngCh.frame (v.disarmOf_tngCh c 8 c)).trans ?_
    rw [← hv, State.tngCh_setTngCh_same, ← hx]
  · exact (v.disarmOf_rd c.isLt (Nat.le_refl 8) (by decide) (by decide)).trans hstatus
  · have h := hview p hp
    rw [State.disarmView, if_pos ⟨hchan, (State.on_eq_true _).1 harm⟩] at h
    exact ⟨congrArg (·.2.1) h, congrArg (·.2.2) h⟩
  · have h := hview p hp
    rw [State.disarmView, if_neg fun h => hchan h.1] at h
    exact congrArg (·.2.2) h

theorem execTongsClear_clears (s : State) (c : Fin 32) :
    ∃ t, execTongsClear c s = .next t ∧ t.rd F.TNG_CH_IDXMIS_ext c = 0
      ∧ t.tngCh c = { s.tngCh c with illegal := false, wire := false, mismatch := false, hallIllegal := false }
      ∧ s.OnlyWords t [F.TNG_CH_IDXMIS_ext.addr c 0] ∧ ∀ k, k ≠ c.val → t.tngCh k = s.tngCh k := by
  refine ⟨_, rfl, ?_, ?_, ?_, fun k hk => ?_⟩
  · rw [State.rd_wr_same _ (by decide)]
    rfl
  · rw [State.wr_tngCh, State.tngCh_setTngCh_same]
  · exact (s.setTngCh_onlyWords c _ _).wr (by simp)
  · rw [State.wr_tngCh, State.tngCh_setTngCh_ne _ _ hk]

/-! ## Standstill -/

/-- A time `d` after an edge that lies `d` or more back has passed. -/
theorem cellDiff_passed {e d now : Nat} (he : e < 2 ^ 64) (hd0 : 0 < d) (hd : d < 2 ^ 32) (h : d ≤ edgeSpan now e) :
    cellDiff (uns 64 (e + d : Nat)) now ≤ 0 := by
  unfold edgeSpan cellDiff sgn uns at *
  split at h <;> split <;> omega

theorem execStandstillTimeout_still {s : State} {c : Fin 32} {e : Nat} {l : List Nat} (hedges : (s.tngCh c).edges = e :: l)
    (hon : s.tngOn c = true) (hmode : s.tngMode c ≠ 2) (hmoves : (s.tngCh c).standstill = false) (hst : s.rd F.TNG_CH_SPD_stand c ≠ 0)
    (he : e < 2 ^ 64) (hspan : s.rd F.TNG_CH_SPD_stand c * 10000 ≤ edgeSpan s.cellNs e) :
    execStandstillTimeout c s = .next (s.setTngCh c { s.tngCh c with standstill := true }) := by
  have hmode' : (s.tngMode c != 2) = true := bne_iff_ne.2 hmode
  have htss : s.tss c = some (s.rd F.TNG_CH_SPD_stand c * 10000) := if_pos hst
  have hstands : s.standsStill c (edgeSpan s.cellNs e) = true := (if_pos hst).trans (decide_eq_true hspan)
  have hlt : s.rd F.TNG_CH_SPD_stand c < 2 ^ 16 := s.rd_lt _ _ _
  have hpast := s.advanceCell_past (cellDiff_passed he (by omega) (by omega) hspan)
  simp only [execStandstillTimeout, hedges, htss, hon, hmode', hmoves, Bool.not_false, Bool.and_self, if_true, hpast]
  simp only [State.tngStill, hedges, hon, hmode', hstands, Bool.and_self, if_true]

/-! ## TNG_SAMPLE -/

theorem execTngSample_samples {s : State} {r : Fin 64} {d : Desc} (hstart : s.Starts r 0x0920 d) (hc : d.op 32 1 < 32)
    (hon : s.tngOn (d.op 32 1) = true) :
    ∃ t v, execTngSample r s = .next t ∧ v = ((s.startDesc d).tngStill (d.op 32 1)).tngSample (d.op 32 1)
      ∧ t.Completed d (if (s.tngCh (d.op 32 1)).reversal then 2 else 1)
      ∧ ∃ c ∈ t.hif.compl, c.id = d.id ∧ c.result = result [(16, 8, v.1), (24, 4, v.2.1), (28, 4, v.2.2)] := by
  have hon' : (s.startDesc d).tngOn (d.op 32 1) = true := by
    rw [State.tngOn, State.on, State.startDesc_rd_high hstart.ring_lt (by decide)]
    exact hon
  simp only [execTngSample, hstart.runDesc, hon', Bool.not_true, Bool.false_eq_true, or_false, Nat.not_le.2 hc, if_false]
  obtain ⟨⟨b, hx⟩, -, tick, tim, hblocks⟩ := (s.startDesc d).tngStill_settles (d.op 32 1)
  generalize (s.startDesc d).tngStill (d.op 32 1) = u at *
  generalize hv : u.tngSample (d.op 32 1) = v
  have hhif : u.hif = (s.startDesc d).hif := by rw [hblocks]
  have hfind := State.startDesc_find hstart.2.1
  rw [← hhif] at hfind
  have hrev : (u.tngCh (d.op 32 1)).reversal = (s.tngCh (d.op 32 1)).reversal := by rw [hx, State.startDesc_tngCh]
  rw [hrev]
  generalize hn : (if (s.tngCh (d.op 32 1)).reversal then 16 else 0) = n
  obtain ⟨c, hc, hid, hring, hcq, hstatus, -, hres⟩ := State.complete_waits hfind rfl rfl hstart.2.2 1 n
    (result [(16, 8, v.1), (24, 4, v.2.1), (28, 4, v.2.2)]) false
  refine ⟨_, v, rfl, rfl, ⟨State.complete_desc _ _ _ _ _ _, c, hc, hid, hring, hcq, hstatus.trans ?_⟩, c, hc, hid, hres.trans (take_result ?_)⟩
  · rw [← hn]
    split <;> rfl
  · simp [ResultFits]

theorem execTngSample_fails {s : State} {r : Fin 64} {d : Desc} (hstart : s.Starts r 0x0920 d)
    (h : 32 ≤ d.op 32 1 ∨ s.tngOn (d.op 32 1) = false) :
    ∃ t, execTngSample r s = .next t ∧ t.Completed d 0x12 ∧ t.tongs = s.tongs := by
  have hon : (s.startDesc d).tngOn (d.op 32 1) = s.tngOn (d.op 32 1) := by
    rw [State.tngOn, State.on, State.startDesc_rd_high hstart.ring_lt (by decide)]
    rfl
  have hbad : 32 ≤ d.op 32 1 ∨ (!s.tngOn (d.op 32 1)) = true := h.imp_right fun h => by rw [h]; rfl
  simp only [execTngSample, hstart.runDesc, hon, hbad, if_true]
  exact ⟨_, rfl, hstart.completed rfl, State.complete_tongs _ _ _ _ _ _⟩

/-- Settles O27: each command by what it writes of the channel, its registers and the probes. -/
theorem tongsChannels : Obligations.TongsChannels := by
  unfold Obligations.TongsChannels
  exact ⟨fun s m c l => execTongsEnable_enables, fun s m c l => execTongsEnable_on, fun s m c l => tongs_unprivileged,
    fun s m c => execTongsDisable_disables, execTongsClear_clears, fun s c e l => execStandstillTimeout_still,
    fun s r d => execTngSample_samples, fun s r d => execTngSample_fails⟩

end Sys2Proof.Machine

/-! Proofs about edges at the feedback channels (O28). -/

namespace Sys2Proof.Machine

/-! ## An accepted edge -/

theorem keepEdges_head (avg t : Nat) (l : List Nat) : (keepEdges avg (t :: l)).head? = some t := rfl

/-- An accepted edge moves the count of its channel by one (R252). -/
theorem State.tngEdge_counts (s : State) (c t : Nat) (up : Bool) :
    ((s.tngEdge c t up).tngCh c).ext = uns 48 (((s.tngCh c).ext : Int) + (if up != s.on F.TNG_CH_CFG_dir c then 1 else -1))
      ∧ ((s.tngEdge c t up).tngCh c).levels = (s.tngCh c).levels ∧ ((s.tngEdge c t up).tngCh c).edges.head? = some t
      ∧ (s.tngEdge c t up).regs = s.regs ∧ ∀ k, k ≠ c → (s.tngEdge c t up).tngCh k = s.tngCh k := by
  unfold State.tngEdge
  dsimp only
  split
  · rw [State.tngCh_setTngCh_same]
    exact ⟨rfl, rfl, rfl, rfl, fun k hk => s.tngCh_setTngCh_ne _ hk⟩
  · rw [State.tngCh_setTngCh_same]
    exact ⟨rfl, rfl, keepEdges_head _ _ _, rfl, fun k hk => s.tngCh_setTngCh_ne _ hk⟩

/-! ## Latched errors -/

/-- A channel latches an error: it counts it in its register and raises its source. -/
theorem State.latch_shows {u : State} {c : Fin 32} (y : TngCh) {f : Fld} (code : Nat) (d : DWord) (hev : u.takesEvent (72 + c / 4))
    (hfit : f.lo + f.width ≤ 32) (hno : f.NoEvent 32) (hoff : F.HIF_EVT_MAP_enable.Off f 128 32) :
    (((u.setTngCh c y).bump f c).tngEvent code c d).tngCh c = y
      ∧ (((u.setTngCh c y).bump f c).tngEvent code c d).hasEvent (72 + c / 4) code c
      ∧ (((u.setTngCh c y).bump f c).tngEvent code c d).rd f c = min (u.rd f c + 1) (2 ^ f.width - 1) := by
  have hsrc : 72 + c.val / 4 < 128 := by omega
  have hev' : ((u.setTngCh c y).bump f c).takesEvent (72 + c / 4) :=
    State.takesEvent_wr hev (Fld.addr_ne_of_off hsrc c.isLt hoff)
  unfold State.tngEvent
  refine ⟨?_, State.raise_hasEvent _ _ _ hev', ?_⟩
  · rw [State.raise_tngCh, State.bump_tngCh, State.tngCh_setTngCh_same]
  · rw [State.raise_rd_below _ _ _ _ hsrc c.isLt hno, State.rd_bump_same _ hfit, Nat.min_comm]
    rfl

/-! ## Quadrature edges -/

/-- The levels of A and B after an edge; Z stays. -/
def edgeLevels (l : BitVec 3) (a b : Bool) : BitVec 3 := (l &&& 4) ||| BitVec.ofNat 3 (b2n a + 2 * b2n b)

theorem edgeLevels_bits : ∀ (l : BitVec 3) (a b : Bool), (edgeLevels l a b).getLsbD 0 = a ∧ (edgeLevels l a b).getLsbD 1 = b := by decide

section Quadrature
variable {s : State} {c : Fin 32} {a b : Bool} {te : DWord} {k : Fin 5} (hon : s.tngOn c = true) (hmode : s.tngMode c = 0)
include hon hmode

/-- One of A and B changes. -/
theorem execQuadratureEdge_counts (hchange : ¬ (a = (s.tngCh c).levels.getLsbD 0 ∧ b = (s.tngCh c).levels.getLsbD 1))
    (hone : ¬ (a ≠ (s.tngCh c).levels.getLsbD 0 ∧ b ≠ (s.tngCh c).levels.getLsbD 1)) :
    ∃ t, execQuadratureEdge c a b te k s = .next t
      ∧ (t.tngCh c).ext = uns 48 (((s.tngCh c).ext : Int) + (if ((grayPos ((s.tngCh c).levels.getLsbD 0) ((s.tngCh c).levels.getLsbD 1) + 1) % 4
          == grayPos a b) != s.on F.TNG_CH_CFG_dir c then 1 else -1))
      ∧ (t.tngCh c).levels.getLsbD 0 = a ∧ (t.tngCh c).levels.getLsbD 1 = b ∧ (t.tngCh c).edges.head? = some (stampOf te k)
      ∧ t.regs = s.regs ∧ ∀ i, i ≠ c.val → t.tngCh i = s.tngCh i := by
  have hsettled := s.filtered_settles (stampOf te k) (s.rd F.TNG_CH_FILT_n c) c
  simp only [execQuadratureEdge, hon, hmode, Bool.not_true, Bool.false_eq_true, ne_eq, not_true_eq_false, or_self, if_false]
  generalize (s.filtered (stampOf te k) (s.rd F.TNG_CH_FILT_n c)).tngStill c = u at *
  obtain ⟨still, hx⟩ := hsettled.1
  simp only [hx]
  rw [if_neg hchange, if_neg hone]
  generalize hv : u.setTngCh c _ = v
  obtain ⟨hext, hlevels, hedges, hregs, hne⟩ := v.tngEdge_counts c (stampOf te k)
    ((grayPos ((s.tngCh c).levels.getLsbD 0) ((s.tngCh c).levels.getLsbD 1) + 1) % 4 == grayPos a b)
  have hv' : v.tngCh c = { s.tngCh c with standstill := still, levels := edgeLevels (s.tngCh c).levels a b } := by
    rw [← hv, State.tngCh_setTngCh_same]
    rfl
  have hdir : v.on F.TNG_CH_CFG_dir c = s.on F.TNG_CH_CFG_dir c := by
    rw [← hv]
    exact hsettled.on _ _ _
  obtain ⟨ha, hb⟩ := edgeLevels_bits (s.tngCh c).levels a b
  refine ⟨_, rfl, ?_, ?_, ?_, hedges, ?_, fun i hi => ?_⟩
  · rw [hext, hv', hdir]
  · rw [hlevels, hv']
    exact ha
  · rw [hlevels, hv']
    exact hb
  · rw [hregs, ← hv]
    exact hsettled.regs
  · rw [hne i hi, ← hv, State.tngCh_setTngCh_ne _ _ hi, hsettled.2.1 i hi]

/-- A change of both is illegal (R255). -/
theorem execQuadratureEdge_illegal (ha : a ≠ (s.tngCh c).levels.getLsbD 0) (hb : b ≠ (s.tngCh c).levels.getLsbD 1)
    (hnew : (s.tngCh c).illegal = false) (hev : s.takesEvent (72 + c / 4)) :
    ∃ t, execQuadratureEdge c a b te k s = .next t ∧ (t.tngCh c).ext = (s.tngCh c).ext ∧ (t.tngCh c).illegal = true
      ∧ t.hasEvent (72 + c / 4) 1 c
      ∧ t.rd F.TNG_CH_ERR_illegal c = min (s.rd F.TNG_CH_ERR_illegal c + 1) (2 ^ F.TNG_CH_ERR_illegal.width - 1) := by
  have hsettled := s.filtered_settles (stampOf te k) (s.rd F.TNG_CH_FILT_n c) c
  simp only [execQuadratureEdge, hon, hmode, Bool.not_true, Bool.false_eq_true, ne_eq, not_true_eq_false, or_self, if_false]
  generalize (s.filtered (stampOf te k) (s.rd F.TNG_CH_FILT_n c)).tngStill c = u at *
  obtain ⟨still, hx⟩ := hsettled.1
  simp only [hx]
  rw [if_neg fun h => ha h.1, if_pos ⟨ha, hb⟩, hnew, if_neg Bool.false_ne_true]
  generalize hy : TngCh.mk .. = y
  obtain ⟨hch, hevent, hcount⟩ := State.latch_shows (u := u) (c := c) y (f := F.TNG_CH_ERR_illegal) 1 0
    (hsettled.takesEvent hev) (by decide) (by decide) (by decide)
  refine ⟨_, rfl, ?_, ?_, hevent, hcount.trans ?_⟩
  · rw [hch, ← hy]
  · rw [hch, ← hy]
  · rw [hsettled.rd]

end Quadrature

/-! ## Wires -/

theorem State.tngValid_of_wire {t : State} {c : Nat} (h : (t.tngCh c).wire = true) : t.tngValid c = false := by
  simp [State.tngValid, h]

section Wire
variable {s : State} {c : Fin 32} {p : Fin 3} (hon : s.tngOn c = true) (hmode : s.tngMode c = 0) (hp : p.val < 2)
include hon hmode hp

theorem execWireDisagreement_latches (hnew : (s.tngCh c).wire = false) (hev : s.takesEvent (72 + c / 4)) :
    ∃ t, execWireDisagreement c p s = .next t ∧ (t.tngCh c).wire = true ∧ t.tngValid c = false ∧ t.hasEvent (72 + c / 4) 2 c
      ∧ t.rd F.TNG_CH_ERR_wire c = min (s.rd F.TNG_CH_ERR_wire c + 1) (2 ^ F.TNG_CH_ERR_wire.width - 1) := by
  simp only [execWireDisagreement, hon, hmode, hp, hnew, if_true, decide_true, Bool.true_or, Bool.not_true, Bool.or_self,
    Bool.false_eq_true, if_false]
  generalize hy : ({ s.tngCh c with wire := true } : TngCh) = y
  obtain ⟨hch, hevent, hcount⟩ := State.latch_shows (u := s) (c := c) y (f := F.TNG_CH_ERR_wire) 2 (detail [(0, p)]) hev (by decide)
    (by decide) (by decide)
  have hwire : y.wire = true := by rw [← hy]
  rw [← hch] at hwire
  exact ⟨_, rfl, hwire, State.tngValid_of_wire hwire, hevent, hcount⟩

theorem execWireDisagreement_again (hold : (s.tngCh c).wire = true) :
    ∃ t, execWireDisagreement c p s = .next t ∧ t.hif = s.hif ∧ t.tngCh c = s.tngCh c := by
  simp only [execWireDisagreement, hon, hmode, hp, hold, if_true, decide_true, Bool.true_or, Bool.not_true, Bool.or_self,
    Bool.false_eq_true, if_false]
  refine ⟨_, rfl, rfl, ?_⟩
  rw [State.bump_tngCh, State.tngCh_setTngCh_same, ← hold]

end Wire

/-! ## Index events -/

section Index
variable {s : State} {c : Fin 32} {te : DWord} {k : Fin 5} (hon : s.tngOn c = true) (hmode : s.tngMode c = 0)
  (hgate : s.on F.TNG_CH_IDX_gate_en c = false)
include hon hmode hgate

/-- An index event that its gate lets through acts after the filter. -/
theorem execIndexEvent_acts (hidx : s.rd F.TNG_CH_IDX_mode c ≠ 0) :
    ∃ tick tim, execIndexEvent c te k s = .next (({ s with tick := tick, tim := tim } : State).indexActs c (stampOf te k)) := by
  obtain ⟨tick, cell, -, htime⟩ := s.advanceCell_eq (uns 64 (stampOf te k + 12 + 4 * s.rd F.TNG_CH_FILT_nz c : Nat))
  refine ⟨tick, { s.tim with cell := cell }, ?_⟩
  simp only [execIndexEvent, hon, hmode, Bool.not_true, Bool.false_eq_true, ne_eq, not_true_eq_false, or_self, if_false,
    State.filtered, htime]
  have hgate' : ({ s with tick := tick, tim := { s.tim with cell := cell } } : State).on F.TNG_CH_IDX_gate_en c = false := hgate
  have hidx' : ({ s with tick := tick, tim := { s.tim with cell := cell } } : State).rd F.TNG_CH_IDX_mode c ≠ 0 := hidx
  rw [hgate', if_neg (by simpa using hidx')]

theorem execIndexEvent_latches (hidx : s.rd F.TNG_CH_IDX_mode c = 1) :
    ∃ t, execIndexEvent c te k s = .next t ∧ t.tngCh c = { s.tngCh c with index := true }
      ∧ t.rd F.TNG_CH_IDXLAT_ext c = (s.tngCh c).ext % 2 ^ F.TNG_CH_IDXLAT_ext.width := by
  obtain ⟨tick, tim, h⟩ := execIndexEvent_acts (te := te) (k := k) hon hmode hgate (by rw [hidx]; decide)
  rw [h]
  generalize hu : ({ s with tick := tick, tim := tim } : State) = u
  have hidx' : u.rd F.TNG_CH_IDX_mode c = 1 := by rw [← hu]; exact hidx
  have hm : (if u.rd F.TNG_CH_CPR_cpr c = 0 then min 1 (u.rd F.TNG_CH_IDX_mode c) else u.rd F.TNG_CH_IDX_mode c) = 1 := by
    rw [hidx']
    split <;> rfl
  have hch : u.tngCh c = s.tngCh c := by rw [← hu]; rfl
  simp only [State.indexActs, hm, if_true, hch]
  refine ⟨_, rfl, ?_, ?_⟩
  · rw [State.wr_tngCh, State.tngCh_setTngCh_same]
  · rw [State.rd_wr_same _ (by decide)]

theorem execIndexEvent_references (hidx : s.rd F.TNG_CH_IDX_mode c = 4) (hcpr : s.rd F.TNG_CH_CPR_cpr c ≠ 0)
    (hnew : (s.tngCh c).referenced = false) :
    ∃ t, execIndexEvent c te k s = .next t ∧ (t.tngCh c).referenced = true
      ∧ (t.tngCh c).ext = uns 48 (((s.tngCh c).ext : Int)
          - indexDev (sgn 48 (s.tngCh c).ext) (s.rd F.TNG_CH_CPR_cpr c) (s.rd F.TNG_CH_IDXREF_ref c)) := by
  obtain ⟨tick, tim, h⟩ := execIndexEvent_acts (te := te) (k := k) hon hmode hgate (by rw [hidx]; decide)
  rw [h]
  generalize hu : ({ s with tick := tick, tim := tim } : State) = u
  have hrd (f : Fld) : u.rd f c = s.rd f c := by rw [← hu]; rfl
  have hch : u.tngCh c = s.tngCh c := by rw [← hu]; rfl
  simp only [State.indexActs, hrd, hcpr, hidx, if_false, hch, State.wr_tngCh, State.tngCh_setTngCh_same, hnew, Bool.not_false]
  rw [if_neg (by decide), if_pos (by decide)]
  refine ⟨_, rfl, ?_, ?_⟩
  · rw [State.tngCh_setTngCh_same]
  · rw [State.tngCh_setTngCh_same]

theorem execIndexEvent_mismatch (hidx : s.rd F.TNG_CH_IDX_mode c = 2) (hcpr : s.rd F.TNG_CH_CPR_cpr c ≠ 0)
    (hnew : (s.tngCh c).mismatch = false) (hev : s.takesEvent (72 + c / 4))
    (htol : s.rd F.TNG_CH_IDX_tol c < (indexDev (sgn 48 (s.tngCh c).ext) (s.rd F.TNG_CH_CPR_cpr c) (s.rd F.TNG_CH_IDXREF_ref c)).natAbs) :
    ∃ t, execIndexEvent c te k s = .next t ∧ (t.tngCh c).ext = (s.tngCh c).ext ∧ (t.tngCh c).mismatch = true
      ∧ t.rd F.TNG_CH_IDXMIS_ext c = (s.tngCh c).ext % 2 ^ F.TNG_CH_IDXMIS_ext.width ∧ t.hasEvent (72 + c / 4) 3 c := by
  obtain ⟨tick, tim, h⟩ := execIndexEvent_acts (te := te) (k := k) hon hmode hgate (by rw [hidx]; decide)
  rw [h]
  generalize hu : ({ s with tick := tick, tim := tim } : State) = u
  have hrd (f : Fld) : u.rd f c = s.rd f c := by rw [← hu]; rfl
  have hch : u.tngCh c = s.tngCh c := by rw [← hu]; rfl
  have htol' (v : TngCh) (w : Nat) : ((u.setTngCh c v).wr F.TNG_CH_IDXLAT_ext w c).rd F.TNG_CH_IDX_tol c = s.rd F.TNG_CH_IDX_tol c := by
    rw [State.rd_wr_sep _ (by decide), State.setTngCh_rd, hrd]
  have hsrc : 72 + c.val / 4 < 128 := by omega
  simp only [State.indexActs, hrd, hcpr, hidx, if_false, hch, State.wr_tngCh, State.tngCh_setTngCh_same, hnew, htol']
  rw [if_neg (by decide), if_neg fun h => absurd h.1 (by decide), if_neg (Nat.not_le.2 htol), if_neg Bool.false_ne_true]
  generalize hv : (u.setTngCh c _).wr F.TNG_CH_IDXLAT_ext (s.tngCh c).ext c = v
  have hev' : (v.setTngCh c { s.tngCh c with index := true, mismatch := true }).takesEvent (72 + c / 4) := by
    rw [← hv, ← hu]
    exact State.takesEvent_wr hev (Fld.addr_ne_of_off hsrc c.isLt (by decide))
  refine ⟨_, rfl, ?_, ?_, ?_, ?_⟩
  · rw [State.tngEvent, State.raise_tngCh, State.wr_tngCh, State.tngCh_setTngCh_same]
  · rw [State.tngEvent, State.raise_tngCh, State.wr_tngCh, State.tngCh_setTngCh_same]
  · rw [State.tngEvent, State.raise_rd_below _ _ _ _ hsrc c.isLt (by decide), State.rd_wr_same _ (by decide)]
  · rw [State.tngEvent]
    exact State.raise_hasEvent _ _ _ (State.takesEvent_wr hev' (Fld.addr_ne_of_off hsrc c.isLt (by decide)))

end Index

/-! ## Hall sectors -/

theorem hallPos_lt {h p : Nat} (hp : hallPos h = some p) : p < 6 := by
  unfold hallPos at hp
  split_ifs at hp <;> simp only [Option.some.injEq] at hp <;> omega

section Hall
variable {s : State} {c : Fin 32} {v : BitVec 3} {te : DWord} {k : Fin 5} (hon : s.tngOn c = true) (hmode : s.tngMode c = 1)
include hon hmode

/-- A change to a neighbouring sector; `up` is its direction before the one of the channel. -/
theorem execHallSectorChange_counts {p q : Nat} {up : Bool} (hp : hallPos (s.tngCh c).levels.toNat = some p) (hq : hallPos v.toNat = some q)
    (hup : (p + 1) % 6 = q ∧ up = Config.hallUp ∨ (q + 1) % 6 = p ∧ up = !Config.hallUp) :
    ∃ t, execHallSectorChange c v te k s = .next t ∧ (t.tngCh c).levels = v ∧ t.regs = s.regs
      ∧ (t.tngCh c).ext = uns 48 (((s.tngCh c).ext : Int) + (if up != s.on F.TNG_CH_CFG_dir c then 1 else -1)) := by
  have hp6 := hallPos_lt hp
  have hq6 := hallPos_lt hq
  have hne : (s.tngCh c).levels ≠ v := by
    rintro h
    rw [h, hq] at hp
    cases hp
    omega
  have hsettled := s.filtered_settles (stampOf te k) (s.rd F.TNG_CH_FILT_n c) c
  simp only [execHallSectorChange, hon, hmode, hne, Bool.not_true, Bool.false_eq_true, ne_eq, not_true_eq_false, or_self, if_false]
  generalize (s.filtered (stampOf te k) (s.rd F.TNG_CH_FILT_n c)).tngStill c = u at *
  obtain ⟨still, hx⟩ := hsettled.1
  simp only [hx, hp, hq]
  generalize hw : u.setTngCh c _ = w
  have hw' : w.tngCh c = { s.tngCh c with standstill := still, levels := v } := by rw [← hw, State.tngCh_setTngCh_same]
  have hdir : w.on F.TNG_CH_CFG_dir c = s.on F.TNG_CH_CFG_dir c := by
    rw [← hw]
    exact hsettled.on _ _ _
  obtain ⟨hext, hlevels, -, hregs, -⟩ := w.tngEdge_counts c (stampOf te k) up
  rw [hw'] at hext hlevels
  rw [hdir] at hext
  have hregs' : (w.tngEdge c (stampOf te k) up).regs = s.regs := by
    rw [hregs, ← hw]
    exact hsettled.regs
  obtain ⟨hnext, rfl⟩ | ⟨hnext, rfl⟩ := hup
  · rw [if_pos hnext]
    exact ⟨_, rfl, hlevels, hregs', hext⟩
  · rw [if_neg (by omega), if_pos hnext]
    exact ⟨_, rfl, hlevels, hregs', hext⟩

theorem execHallSectorChange_illegal (hv : v = 0 ∨ v = 7) (hne : (s.tngCh c).levels ≠ v) (hnew : (s.tngCh c).hallIllegal = false)
    (hev : s.takesEvent (72 + c / 4)) :
    ∃ t, execHallSectorChange c v te k s = .next t ∧ (t.tngCh c).hallIllegal = true ∧ (t.tngCh c).ext = (s.tngCh c).ext
      ∧ t.tngValid c = false ∧ t.hasEvent (72 + c / 4) 4 c := by
  have hsettled := s.filtered_settles (stampOf te k) (s.rd F.TNG_CH_FILT_n c) c
  have hpos : hallPos v.toNat = none := by obtain rfl | rfl := hv <;> decide
  simp only [execHallSectorChange, hon, hmode, hne, hpos, Bool.not_true, Bool.false_eq_true, ne_eq, not_true_eq_false, or_self, if_false]
  generalize (s.filtered (stampOf te k) (s.rd F.TNG_CH_FILT_n c)).tngStill c = u at *
  obtain ⟨still, hx⟩ := hsettled.1
  simp only [hx, hnew, Bool.false_eq_true, if_false]
  generalize hy : ({ (s.tngCh c) with levels := v, standstill := still, hallIllegal := true } : TngCh) = y
  have hch : ((u.setTngCh c y).tngEvent 4 c (detail [(0, v.toNat)])).tngCh c = y := by
    rw [State.tngEvent, State.raise_tngCh, State.tngCh_setTngCh_same]
  refine ⟨_, rfl, ?_, ?_, ?_, ?_⟩
  · rw [hch, ← hy]
  · rw [hch, ← hy]
  · rw [State.tngValid, hch, ← hy]
    simp
  · rw [State.tngEvent]
    exact State.raise_hasEvent _ _ _ (hsettled.takesEvent hev)

end Hall

/-- Settles O28: an edge by the count it moves, an error by what it latches, counts and raises. -/
theorem tongsEdges : Obligations.TongsEdges := by
  unfold Obligations.TongsEdges
  refine ⟨?_, ?_, fun s c a b te k => execQuadratureEdge_illegal, fun s c p => execWireDisagreement_latches,
    fun s c p => execWireDisagreement_again, fun s c te k => execIndexEvent_latches, fun s c te k => execIndexEvent_references,
    fun s c te k => execIndexEvent_mismatch, ?_, ?_, fun s c v te k => execHallSectorChange_illegal⟩
  · rintro s c a b te k hon hmode ha rfl
    exact execQuadratureEdge_counts hon hmode (fun h => ha h.1) (fun h => h.2 rfl)
  · rintro s c a b te k hon hmode rfl hb
    obtain ⟨t, ht, hext, ha, hb, -, hregs, -⟩ := execQuadratureEdge_counts (te := te) (k := k) hon hmode (fun h => hb h.2) (fun h => h.1 rfl)
    exact ⟨t, ht, hext, ha, hb, hregs⟩
  · intro s c v te k p q hon hmode hp hq hnext
    exact execHallSectorChange_counts hon hmode hp hq (.inl ⟨hnext, rfl⟩)
  · intro s c v te k p q hon hmode hp hq hnext
    obtain ⟨t, ht, hlevels, -, hext⟩ := execHallSectorChange_counts (te := te) (k := k) hon hmode hp hq (.inr ⟨hnext, rfl⟩)
    exact ⟨t, ht, hlevels, hext⟩

end Sys2Proof.Machine

/-! Proofs about SSI frames and probes (O29). -/

namespace Sys2Proof.Machine

/-! ## Deposits and rejections -/

/-- A deposit moves what memories hold, and clears the index flag of its channel. -/
theorem State.tngDeposit_shows (s : State) (c : Nat) : (∃ b, (s.tngDeposit c).tngCh c = { s.tngCh c with standstill := b, index := false })
    ∧ ∃ sram quench tongs, s.tngDeposit c = { s with sram := sram, quench := quench, tongs := tongs } := by
  obtain ⟨⟨b, hx⟩, -⟩ := s.tngStill_settles c
  obtain ⟨tongs, hu⟩ : ∃ tongs, s.tngStill c = { s with tongs := tongs } := by
    obtain h | h := s.tngStill_cases c
    · exact ⟨_, h⟩
    · exact ⟨_, h⟩
  rw [hu] at hx
  have hclear (sram : List (Nat × List Host.Cell)) (quench : Quench) :
      (({ s with tongs := tongs, sram := sram, quench := quench } : State).setTngCh c
        { ({ s with tongs := tongs, sram := sram, quench := quench } : State).tngCh c with index := false }).tngCh c
        = { s.tngCh c with standstill := b, index := false } := by
    rw [State.tngCh_setTngCh_same]
    exact congrArg (fun x : TngCh => { x with index := false }) hx
  unfold State.tngDeposit
  rw [hu]
  dsimp only
  split
  · split
    · exact ⟨⟨b, hclear _ _⟩, _, _, _, rfl⟩
    · exact ⟨⟨b, hclear _ _⟩, _, _, _, rfl⟩
  · split
    · exact ⟨⟨b, hclear _ _⟩, _, _, _, rfl⟩
    · exact ⟨⟨b, hclear _ _⟩, _, _, _, rfl⟩

/-- A rejected frame (R262). -/
theorem State.ssiReject_shows {s : State} {c : Fin 32} (cause : Nat) (hev : s.takesEvent (72 + c / 4)) :
    ((s.ssiReject c cause).tngCh c).stale = true ∧ ((s.ssiReject c cause).tngCh c).ssiErr = true
      ∧ ((s.ssiReject c cause).tngCh c).rejects = min 2 ((s.tngCh c).rejects + 1) ∧ ((s.ssiReject c cause).tngCh c).frame = none
      ∧ ((s.ssiReject c cause).tngCh c).ext = (s.tngCh c).ext ∧ ((s.ssiReject c cause).tngCh c).prev = (s.tngCh c).prev
      ∧ (s.ssiReject c cause).hasEvent (72 + c / 4) 5 c
      ∧ (s.ssiReject c cause).rd F.TNG_CH_ERR_ssi_err c = min (s.rd F.TNG_CH_ERR_ssi_err c + 1) (2 ^ F.TNG_CH_ERR_ssi_err.width - 1) := by
  unfold State.ssiReject
  dsimp only
  generalize hy : TngCh.mk .. = y
  obtain ⟨hch, hevent, hcount⟩ := State.latch_shows (u := s) (c := c) y (f := F.TNG_CH_ERR_ssi_err) 5 (detail [(0, cause)]) hev (by decide)
    (by decide) (by decide)
  generalize ((s.setTngCh c y).bump F.TNG_CH_ERR_ssi_err c).tngEvent 5 c (detail [(0, cause)]) = u at *
  obtain ⟨⟨b, hx⟩, sram, quench, tongs, hblocks⟩ := u.tngDeposit_shows c
  rw [hx, hch, ← hy]
  refine ⟨rfl, rfl, rfl, rfl, rfl, rfl, ?_, ?_⟩
  · rw [hblocks]
    exact hevent
  · rw [hblocks]
    exact hcount

/-! ## SSI frames -/

section Start
variable {s : State} {c : Fin 32} (hon : s.tngOn c = true) (hmode : s.tngMode c = 2) (hframe : (s.tngCh c).frame = none)
  (hdue : (s.tngCh c).framed ≠ some (uns 64 (s.tim.lastInstant + s.rd F.TNG_CH_SSI3_start c : Nat))) (hmono : (s.tngCh c).monoEnd ≤ s.tick)
include hon hmode hframe hdue hmono

theorem execSsiFrameStart_starts :
    ∃ t, execSsiFrameStart c false s = .next t
      ∧ (t.tngCh c).framed = some (uns 64 (s.tim.lastInstant + s.rd F.TNG_CH_SSI3_start c : Nat))
      ∧ (t.tngCh c).frame = some (uns 64 (s.tim.lastInstant + s.rd F.TNG_CH_SSI3_start c : Nat),
          t.tick + fab (s.rd F.TNG_CH_SSI_len c * 2 * s.rd F.TNG_CH_SSI_half c))
      ∧ t.regs = s.regs ∧ s.tick ≤ t.tick := by
  obtain ⟨tick, cell, hle, htime⟩ := s.advanceCell_eq (uns 64 (s.tim.lastInstant + s.rd F.TNG_CH_SSI3_start c : Nat))
  simp only [execSsiFrameStart, hon, hmode, hframe, hdue, Bool.not_true, Bool.false_eq_true, ne_eq, not_true_eq_false, Option.isSome_none,
    or_self, if_false]
  generalize hat : uns 64 _ = at_ at *
  rw [htime, if_neg (Nat.not_lt.2 (Nat.le_trans hmono hle))]
  refine ⟨_, rfl, ?_, ?_, rfl, hle⟩
  · rw [State.tngCh_setTngCh_same, State.tngCh_setTngCh_same]
  · rw [State.tngCh_setTngCh_same]
    rfl

theorem execSsiFrameStart_low (hev : s.takesEvent (72 + c / 4)) :
    ∃ t, execSsiFrameStart c true s = .next t ∧ (t.tngCh c).stale = true ∧ (t.tngCh c).ssiErr = true
      ∧ (t.tngCh c).rejects = min 2 ((s.tngCh c).rejects + 1) ∧ (t.tngCh c).frame = none ∧ (t.tngCh c).ext = (s.tngCh c).ext
      ∧ t.hasEvent (72 + c / 4) 5 c := by
  obtain ⟨tick, cell, hle, htime⟩ := s.advanceCell_eq (uns 64 (s.tim.lastInstant + s.rd F.TNG_CH_SSI3_start c : Nat))
  simp only [execSsiFrameStart, hon, hmode, hframe, hdue, Bool.not_true, Bool.false_eq_true, ne_eq, not_true_eq_false, Option.isSome_none,
    or_self, if_false, if_true]
  generalize uns 64 _ = at_ at *
  rw [htime, if_neg (Nat.not_lt.2 (Nat.le_trans hmono hle))]
  generalize hv : State.setTngCh _ _ _ = v
  have hev' : v.takesEvent (72 + c / 4) := by
    rw [← hv]
    exact hev
  obtain ⟨hstale, herr, hrejects, hnone, hext, -, hevent, -⟩ := State.ssiReject_shows (c := c) 1 hev'
  refine ⟨_, rfl, hstale, herr, hrejects.trans ?_, hnone, hext.trans ?_, hevent⟩
  · rw [← hv, State.tngCh_setTngCh_same]
  · rw [← hv, State.tngCh_setTngCh_same]

end Start

theorem State.ssiField_congr {s v : State} {c : Nat} (hrd : ∀ f : Fld, v.rd f c = s.rd f c) (frame : Nat) :
    v.ssiField c frame = s.ssiField c frame := by
  have hon (f : Fld) : v.on f c = s.on f c := congrArg (· != 0) (hrd f)
  simp only [State.ssiField, hon, hrd]

theorem State.ssiCause_congr {s v : State} {c : Nat} (hrd : ∀ f : Fld, v.rd f c = s.rd f c) (hprev : (v.tngCh c).prev = (s.tngCh c).prev)
    (frame : Nat) (low : Bool) : v.ssiCause c frame low = s.ssiCause c frame low := by
  have hon (f : Fld) : v.on f c = s.on f c := congrArg (· != 0) (hrd f)
  simp only [State.ssiCause, State.ssiField_congr hrd, hon, hrd, hprev]

section End
variable {s : State} {c : Fin 32} {b : BitVec 40} {low : Bool} {i e : Nat} (hframe : (s.tngCh c).frame = some (i, e))
include hframe

theorem execSsiFrameEnd_accepts (hcause : s.ssiCause c (b.toNat % 2 ^ s.rd F.TNG_CH_SSI_len c) low = none) :
    ∃ t, execSsiFrameEnd c b low s = .next t ∧ (t.tngCh c).frame = none ∧ (t.tngCh c).rejects = 0 ∧ (t.tngCh c).stale = false
      ∧ (t.tngCh c).prev = some (s.ssiField c (b.toNat % 2 ^ s.rd F.TNG_CH_SSI_len c))
      ∧ (∀ p, (s.tngCh c).prev = some p → s.on F.TNG_CH_CFG_dir c = false →
          (t.tngCh c).ext = uns 48 (((s.tngCh c).ext : Int) + sgn (s.rd F.TNG_CH_SSI2_data_w c)
            (uns (s.rd F.TNG_CH_SSI2_data_w c) ((s.ssiField c (b.toNat % 2 ^ s.rd F.TNG_CH_SSI_len c) : Int) - p))))
      ∧ ((s.tngCh c).prev = none → (t.tngCh c).ext = s.ssiField c (b.toNat % 2 ^ s.rd F.TNG_CH_SSI_len c))
      ∧ t.regs = s.regs := by
  have hlen : (s.advanceTo e).rd F.TNG_CH_SSI_len c = s.rd F.TNG_CH_SSI_len c := rfl
  have hch : (s.advanceTo e).tngCh c = s.tngCh c := rfl
  simp only [execSsiFrameEnd, hframe, hlen, hch]
  generalize (s.advanceTo e).tick + us _ = mono
  generalize hx : ({ s.tngCh c with frame := none, monoEnd := mono } : TngCh) = x
  generalize hv : (s.advanceTo e).setTngCh c x = v
  have hvx : v.tngCh c = x := by rw [← hv, State.tngCh_setTngCh_same]
  have hrd (f : Fld) : v.rd f c = s.rd f c := by rw [← hv]; rfl
  have hdir : v.on F.TNG_CH_CFG_dir c = s.on F.TNG_CH_CFG_dir c := congrArg (· != 0) (hrd _)
  have hprev : (v.tngCh c).prev = (s.tngCh c).prev := by rw [hvx, ← hx]
  have hregs : v.regs = s.regs := by rw [← hv]; rfl
  simp only [State.ssiCause_congr hrd hprev, hcause, State.ssiField_congr hrd, hrd, hdir, hprev]
  generalize s.ssiField c (b.toNat % 2 ^ s.rd F.TNG_CH_SSI_len c) = w
  generalize hy : TngCh.mk .. = y
  obtain ⟨⟨still, hu⟩, sram, quench, tongs, hblocks⟩ := (v.setTngCh c y).tngDeposit_shows c
  rw [State.tngCh_setTngCh_same] at hu
  refine ⟨_, rfl, ?_, ?_, ?_, ?_, fun p hp hup => ?_, fun hp => ?_, ?_⟩
  · rw [hu, ← hy, hvx, ← hx]
  · rw [hu, ← hy]
  · rw [hu, ← hy]
  · rw [hu, ← hy]
  · rw [hu, ← hy, hp, hup, hvx, ← hx]
    rfl
  · rw [hu, ← hy, hp]
  · rw [hblocks]
    exact hregs

theorem execSsiFrameEnd_rejects {k : Nat} (hev : s.takesEvent (72 + c / 4))
    (hcause : s.ssiCause c (b.toNat % 2 ^ s.rd F.TNG_CH_SSI_len c) low = some k) :
    ∃ t, execSsiFrameEnd c b low s = .next t ∧ (t.tngCh c).stale = true ∧ (t.tngCh c).ssiErr = true
      ∧ (t.tngCh c).ext = (s.tngCh c).ext ∧ (t.tngCh c).prev = (s.tngCh c).prev ∧ t.hasEvent (72 + c / 4) 5 c
      ∧ t.rd F.TNG_CH_ERR_ssi_err c = min (s.rd F.TNG_CH_ERR_ssi_err c + 1) (2 ^ F.TNG_CH_ERR_ssi_err.width - 1) := by
  have hlen : (s.advanceTo e).rd F.TNG_CH_SSI_len c = s.rd F.TNG_CH_SSI_len c := rfl
  have hch : (s.advanceTo e).tngCh c = s.tngCh c := rfl
  simp only [execSsiFrameEnd, hframe, hlen, hch]
  generalize (s.advanceTo e).tick + us _ = mono
  generalize hv : State.setTngCh _ _ _ = v
  have hvx : v.tngCh c = { s.tngCh c with frame := none, monoEnd := mono } := by rw [← hv, State.tngCh_setTngCh_same]
  have hrd (f : Fld) : v.rd f c = s.rd f c := by rw [← hv]; rfl
  have hev' : v.takesEvent (72 + c / 4) := by rw [← hv]; exact hev
  have hprev : (v.tngCh c).prev = (s.tngCh c).prev := by rw [hvx]
  simp only [State.ssiCause_congr hrd hprev, hcause]
  obtain ⟨hstale, herr, -, -, hext, hprev', hevent, hcount⟩ := State.ssiReject_shows (c := c) k hev'
  rw [hrd] at hcount
  exact ⟨_, rfl, hstale, herr, hext.trans (by rw [hvx]), hprev'.trans hprev, hevent, hcount⟩

end End

/-! ## Probes -/

theorem execProbeArm_arms (s : State) (p : Fin 8) :
    ∃ t, execProbeArm p s = .next t ∧ t.rd F.TNG_PRB_CFG_arm p = 1 ∧ t.rd F.TNG_PRB_STAT_armed p = 1
      ∧ s.OnlyWords t [F.TNG_PRB_CFG_arm.addr p 0, F.TNG_PRB_STAT_armed.addr p 0] := by
  refine ⟨_, rfl, ?_, ?_, ((State.OnlyWords.refl s _).wr (by simp)).wr (by simp)⟩
  · rw [State.rd_wr_sep _ (by decide), State.rd_wr_same _ (by decide)]
    rfl
  · rw [State.rd_wr_same _ (by decide)]
    rfl

theorem execProbeDisarm_disarms (s : State) (p : Fin 8) :
    ∃ t, execProbeDisarm p s = .next t ∧ t.rd F.TNG_PRB_CFG_arm p = 0 ∧ t.rd F.TNG_PRB_STAT_armed p = 0
      ∧ s.OnlyWords t [F.TNG_PRB_CFG_arm.addr p 0, F.TNG_PRB_STAT_armed.addr p 0] :=
  ⟨_, rfl, s.disarm_arm p, s.disarm_armed p, ((State.OnlyWords.refl s _).wr (by simp)).wr (by simp)⟩

theorem length_probeWords (s : State) (c t n : Nat) (rising : Bool) : (s.probeWords c t n rising).length = 6 := rfl

theorem probeWords_time (s : State) (c t n : Nat) (rising : Bool) : ((s.probeWords c t n rising).drop 3).take 2 = words64 t := rfl

theorem execProbeLatch_latches {s : State} {p : Fin 8} {up : Bool} {te : DWord} {k : Fin 5} (harmed : s.on F.TNG_PRB_STAT_armed p = true)
    (hedge : bitAt (s.rd F.TNG_PRB_CFG_edge p) (if up then 0 else 1) = true) (hread : (s.mailbox (96 + p)).unread = false)
    (hev : s.takesEvent (72 + p)) :
    ∃ t w, execProbeLatch p up te k s = .next t ∧ t.mailbox (96 + p) = (s.mailbox (96 + p)).post w ∧ w.length = 6
      ∧ (w.drop 3).take 2 = words64 (stampOf te k) ∧ t.hasEvent (72 + p) 7 (256 + p)
      ∧ (s.on F.TNG_PRB_CFG_cont p = false → t.rd F.TNG_PRB_STAT_armed p = 0)
      ∧ (s.on F.TNG_PRB_CFG_cont p = true → t.rd F.TNG_PRB_STAT_armed p = s.rd F.TNG_PRB_STAT_armed p) := by
  have hsrc : 72 + p.val < 128 := by omega
  obtain ⟨tick, cell, -, htime⟩ := s.advanceCell_eq (uns 64 (stampOf te k + 12 + 4 * s.rd F.TNG_PRB_CFG_filt p : Nat))
  simp only [execProbeLatch, harmed, hedge, Bool.not_true, Bool.or_self, Bool.false_eq_true, if_false, State.filtered, htime]
  generalize ({ s.tongs with count := _ } : Tongs) = tongs
  generalize hu : ({ s with tick := tick, tim := { s.tim with cell := cell }, tongs := tongs } : State) = u
  have hbox : u.mailbox (96 + p) = s.mailbox (96 + p) := by rw [← hu]; rfl
  have hrd (f : Fld) : u.rd f p = s.rd f p := by rw [← hu]; rfl
  have hev' : u.takesEvent (72 + p) := by rw [← hu]; exact hev
  simp only [hbox, hread, Bool.false_eq_true, if_false]
  generalize State.rd _ F.TNG_PRB_CFG_chan p = c
  generalize (lookup _ s.tongs.count p + 1) % 256 = n
  have hlen := length_probeWords u c (stampOf te k) n up
  have htimes := probeWords_time u c (stampOf te k) n up
  generalize u.probeWords c (stampOf te k) n up = w at *
  generalize detail _ = d
  have hposted : ((u.post (96 + p) w).raise (72 + p) 7 (256 + p) d).mailbox (96 + p) = (s.mailbox (96 + p)).post w := by
    rw [State.mailbox, State.raise_glb_mailbox, ← hbox]
    exact State.mailbox_setMailbox_same _ _ _
  have hevent : ((u.post (96 + p) w).raise (72 + p) 7 (256 + p) d).hasEvent (72 + p) 7 (256 + p) :=
    State.raise_hasEvent _ _ _ (State.takesEvent_same hev' (by rfl) (by rfl) (by rfl))
  have hprobe (f : Fld) (hf : f.NoEvent 8) : ((u.post (96 + p) w).raise (72 + p) 7 (256 + p) d).rd f p = s.rd f p := by
    rw [State.raise_rd_below _ _ _ _ hsrc p.isLt hf, ← hrd]
    rfl
  have hcont : ((u.post (96 + p) w).raise (72 + p) 7 (256 + p) d).on F.TNG_PRB_CFG_cont p = s.on F.TNG_PRB_CFG_cont p :=
    congrArg (· != 0) (hprobe _ (by decide))
  rw [hcont]
  generalize (u.post (96 + p) w).raise (72 + p) 7 (256 + p) d = v at *
  by_cases hc : s.on F.TNG_PRB_CFG_cont p = true
  · simp only [hc, if_true]
    exact ⟨_, w, rfl, hposted, hlen, htimes, hevent, fun h => (Bool.noConfusion h), fun _ => hprobe _ (by decide)⟩
  · simp only [hc, Bool.false_eq_true, if_false]
    exact ⟨_, w, rfl, hposted, hlen, htimes, hevent, fun _ => v.disarm_armed p, fun h => absurd h (by decide)⟩

theorem execProbeLatch_unarmed {s : State} {p : Fin 8} {up : Bool} {te : DWord} {k : Fin 5} (harmed : s.on F.TNG_PRB_STAT_armed p = false) :
    execProbeLatch p up te k s = .next s := by
  simp only [execProbeLatch, harmed, Bool.not_false, Bool.true_or, if_true]

/-- Settles O29: a frame by what it leaves of its channel once its record is deposited, a probe by what it posts and raises. -/
theorem tongsFramesAndProbes : Obligations.TongsFramesAndProbes := by
  unfold Obligations.TongsFramesAndProbes
  exact ⟨fun s c => execSsiFrameStart_starts, fun s c hon hmode hframe hev hdue hmono => execSsiFrameStart_low hon hmode hframe hdue hmono hev,
    fun s c b low i e => execSsiFrameEnd_accepts, fun s c b low i e k hframe hev hcause => execSsiFrameEnd_rejects hframe hev hcause, execProbeArm_arms,
    execProbeDisarm_disarms, fun s p up te k => execProbeLatch_latches, fun s p up te k => execProbeLatch_unarmed⟩

end Sys2Proof.Machine

/-! What later proofs need of the local axes (chapter 10): their table, and the registers that follow it. -/

namespace Sys2Proof.Machine

namespace State

variable (s : State)

/-! ## The table of channels -/

@[simp] theorem swg_setSwg_same (c : Nat) (v : SwgCh) : (s.setSwg c v).swg c = v := lookup_store_same _ _ _

theorem swg_setSwg_ne {c k : Nat} (v : SwgCh) (h : k ≠ c) : (s.setSwg c v).swg k = s.swg k := lookup_store_ne _ _ h

theorem swg_congr {t : State} (h : t.swage = s.swage) (c : Nat) : t.swg c = s.swg c := by rw [swg, swg, h]

@[simp] theorem wr_swg (f : Fld) (v i j c : Nat) : (s.wr f v i j).swg c = s.swg c := rfl
@[simp] theorem bump_swg (f : Fld) (i j n c : Nat) : (s.bump f i j n).swg c = s.swg c := rfl
@[simp] theorem startDesc_swg (d : Desc) (c : Nat) : (s.startDesc d).swg c = s.swg c := rfl
@[simp] theorem raise_swg (src code inst : Nat) (d : DWord) (c : Nat) : (s.raise src code inst d).swg c = s.swg c :=
  s.swg_congr (s.raise_swage src code inst d) c
@[simp] theorem complete_swg (id status notes : Nat) (res : List Byte) (ind : Bool) (c : Nat) :
    (s.complete id status notes res ind).swg c = s.swg c := s.swg_congr (s.complete_swage id status notes res ind) c

/-! ## The registers of a channel -/

/-- A field that does not show the state of a channel (R291). -/
abbrev BesideSwg (f : Fld) : Prop :=
  f.s1 = 0x200 ∧ f.s2 = 0 ∧ (f.off < 0x110024 ∨ f.off = 0x110038 ∧ 3 ≤ f.lo ∨ 0x110038 < f.off)

/-- Only registers follow the state of a channel. -/
theorem swgSync_onlyRegs (c : Nat) : s.OnlyRegs (s.swgSync c) :=
  ((((((OnlyRegs.refl s).wr _ _ _ _).wr _ _ _ _).wr _ _ _ _).wr _ _ _ _).wr _ _ _ _).wr _ _ _ _

@[simp] theorem swgSync_swage (c : Nat) : (s.swgSync c).swage = s.swage := rfl
@[simp] theorem swgSync_swg (c k : Nat) : (s.swgSync c).swg k = s.swg k := rfl
@[simp] theorem swgSync_hif (c : Nat) : (s.swgSync c).hif = s.hif := rfl
@[simp] theorem swgSync_tick (c : Nat) : (s.swgSync c).tick = s.tick := rfl

/-- The registers that follow channel `c`. -/
def swgWords (c : Nat) : List Nat := [F.SWG_CH_POS_LO_pos.addr c 0, F.SWG_CH_POS_HI_pos.addr c 0, F.SWG_CH_REM_LO_rem.addr c 0,
  F.SWG_CH_REM_HI_rem.addr c 0, F.SWG_CH_VEL_vel.addr c 0, F.SWG_CH_STAT_state.addr c 0]

/-- The position and the distance left in the registers of a channel. -/
def swgShow (c : Nat) : State :=
  let x := s.swg c
  let rem := uns 64 (x.remaining (if x.move.isSome then x.move else x.kept))
  (s.wr64 F.SWG_CH_POS_LO_pos F.SWG_CH_POS_HI_pos (uns 64 (unitsOf x.pos)) c).wr64 F.SWG_CH_REM_LO_rem F.SWG_CH_REM_HI_rem rem c

theorem swgSync_eq (c : Nat) : s.swgSync c =
    ((s.swgShow c).wrS F.SWG_CH_VEL_vel (asr (s.swg c).vel 28) c).wr F.SWG_CH_STAT_state ((s.swgShow c).swgCode c) c := rfl

theorem swgShow_onlyWords (c : Nat) : s.OnlyWords (s.swgShow c) (swgWords c) :=
  ((((OnlyWords.refl s _).wr (by simp [swgWords])).wr (by simp [swgWords])).wr (by simp [swgWords])).wr (by simp [swgWords])

theorem swgSync_onlyWords (c : Nat) : s.OnlyWords (s.swgSync c) (swgWords c) := ((s.swgShow_onlyWords c).wr (by simp [swgWords])).wr (by simp [swgWords])

theorem swgWords_ge {c off : Nat} (h : off ∈ swgWords c) : 0x110000 ≤ off := by
  simp only [swgWords, Fld.addr, F.SWG_CH_POS_LO_pos, F.SWG_CH_POS_HI_pos, F.SWG_CH_REM_LO_rem, F.SWG_CH_REM_HI_rem, F.SWG_CH_VEL_vel,
    F.SWG_CH_STAT_state, List.mem_cons, List.not_mem_nil, or_false] at h
  omega

/-- Registers below those of the local axes. -/
theorem swgSync_rd_below {f : Fld} {i j : Nat} (c : Nat) (hf : f.addr i j < 0x110000) : (s.swgSync c).rd f i j = s.rd f i j :=
  (s.swgSync_onlyWords c).rd fun h => Nat.not_lt.2 (swgWords_ge h) hf

theorem swgShow_rd {f : Fld} (c : Nat) (hf : BesideSwg f) : (s.swgShow c).rd f c = s.rd f c := by
  obtain ⟨h1, h2, hoff⟩ := hf
  have hsep {g : Fld} (hg : g.s1 = 0x200 ∧ g.s2 = 0) (h : g.off ≠ f.off) : f.Sep g :=
    ⟨h1.trans hg.1.symm, h2.trans hg.2.symm, .inl h.symm⟩
  simp only [swgShow, wr64]
  rw [State.rd_wr_sep _ (hsep (by decide) (by simp only [F.SWG_CH_REM_HI_rem]; omega)),
    State.rd_wr_sep _ (hsep (by decide) (by simp only [F.SWG_CH_REM_LO_rem]; omega)),
    State.rd_wr_sep _ (hsep (by decide) (by simp only [F.SWG_CH_POS_HI_pos]; omega)),
    State.rd_wr_sep _ (hsep (by decide) (by simp only [F.SWG_CH_POS_LO_pos]; omega))]

theorem swgSync_rd {f : Fld} (c : Nat) (hf : BesideSwg f) : (s.swgSync c).rd f c = s.rd f c := by
  obtain ⟨h1, h2, hoff⟩ := hf
  rw [swgSync_eq, State.rd_wr_sep _ ⟨h1, h2, ?_⟩, wrS, State.rd_wr_sep _ ⟨h1, h2, .inl ?_⟩, s.swgShow_rd c ⟨h1, h2, hoff⟩]
  · simp only [F.SWG_CH_VEL_vel]
    omega
  · simp only [F.SWG_CH_STAT_state]
    omega

theorem swgSync_on {f : Fld} (c : Nat) (hf : BesideSwg f) : (s.swgSync c).on f c = s.on f c := congrArg (· != 0) (s.swgSync_rd c hf)

/-- What says whether a channel sends off messages. -/
theorem swgOff_congr {t : State} {c : Nat} (hswg : (t.swg c).move = (s.swg c).move) (hlink : t.rd F.SWG_CH_STAT_link_fault c = s.rd F.SWG_CH_STAT_link_fault c)
    (hstage : t.rd F.SWG_CH_STAT_stage_fault c = s.rd F.SWG_CH_STAT_stage_fault c)
    (henable : t.rd F.SWG_CH_CTL_enable c = s.rd F.SWG_CH_CTL_enable c) (hmode : t.mode = s.mode) : t.swgOff c = s.swgOff c := by
  simp only [swgOff, swgFault, on, hswg, hlink, hstage, henable, hmode]

theorem swgCode_congr {t : State} {c : Nat} (hswg : t.swg c = s.swg c) (hoff : t.swgOff c = s.swgOff c) : t.swgCode c = s.swgCode c := by
  simp only [swgCode, hswg, hoff]

theorem swgCode_lt (c : Nat) : s.swgCode c < 2 ^ 3 := by
  unfold swgCode
  dsimp only
  cases (s.swg c).move with
  | some m => dsimp only; split_ifs <;> decide
  | none => dsimp only; split_ifs <;> decide

/-- The state of a channel as its status register shows it. -/
theorem swgSync_state (c : Nat) : (s.swgSync c).rd F.SWG_CH_STAT_state c = s.swgCode c := by
  have hcode : (s.swgShow c).swgCode c = s.swgCode c :=
    s.swgCode_congr rfl (s.swgOff_congr rfl (s.swgShow_rd c (by decide)) (s.swgShow_rd c (by decide)) (s.swgShow_rd c (by decide))
      ((s.swgShow_onlyWords c).rd fun h => absurd (swgWords_ge h) (by decide)))
  rw [swgSync_eq, State.rd_wr_same _ (by decide), hcode]
  exact Nat.mod_eq_of_lt (s.swgCode_lt c)

end State

end Sys2Proof.Machine

/-! Proofs about the motor links and the profile ticks of the local axes (O30). -/

namespace Sys2Proof.Machine

/-! ## Command messages -/

theorem SwgCh.linkCycle_keeps (x : SwgCh) : x.linkCycle.move = x.move ∧ x.linkCycle.seq = x.seq := by
  unfold SwgCh.linkCycle
  split
  · exact ⟨rfl, rfl⟩
  · dsimp only
    split <;> exact ⟨rfl, rfl⟩

theorem execSwageLinkSlot_sends (s : State) (c : Fin 16) :
    ∃ t b, execSwageLinkSlot c s = .next t ∧ (t.swg c).sent = 0xA5 :: b ++ [BitVec.ofNat 8 (crc8 b)] ∧ b.length = 6
      ∧ byteAt b 0 = c.val % 4 + (if s.swgOff c then 4 else 0) + 16 * (((s.swg c).seq + 1) % 16)
      ∧ (t.swg c).seq = ((s.swg c).seq + 1) % 16 ∧ (t.swg c).pos = (s.swg c).linkCycle.pos ∧ t.hif = s.hif
      ∧ ∀ k, k ≠ c.val → t.swg k = s.swg k := by
  obtain ⟨hmove, hseq⟩ := (s.swg c).linkCycle_keeps
  simp only [execSwageLinkSlot, hseq]
  generalize (s.swg c).linkCycle = x at *
  generalize hbody : ([_, _, _, _, _, _] : List Byte) = body
  refine ⟨_, body, rfl, ?_, ?_, ?_, ?_, ?_, rfl, fun k hk => ?_⟩
  · simp only [State.swgSync_swg, State.wr_swg, State.swg_setSwg_same]
  · rw [← hbody]
    rfl
  · rw [← hbody]
    change (BitVec.ofNat 8 _).toNat = _
    rw [BitVec.toNat_ofNat, Nat.mod_eq_of_lt]
    split <;> omega
  · simp only [State.swgSync_swg, State.wr_swg, State.swg_setSwg_same]
  · simp only [State.swgSync_swg, State.wr_swg, State.swg_setSwg_same]
  · simp only [State.swgSync_swg, State.wr_swg, State.swg_setSwg_ne _ _ hk]

/-! ## Status messages -/

section Message
variable {s : State} {c : Fin 16} {w : Word}

theorem execSwageStatusMessage_crc (h : crc8 (((toBytes 4 w.toNat).drop 1).take 2) ≠ byteAt (toBytes 4 w.toNat) 3) :
    execSwageStatusMessage c w s = .next ((s.bump F.SWG_CH_ERR_crc c).swgMissing c) := by
  simp only [execSwageStatusMessage, h, ne_eq, not_false_eq_true, true_or, or_true, if_true]

theorem execSwageStatusMessage_wrong (hcrc : crc8 (((toBytes 4 w.toNat).drop 1).take 2) = byteAt (toBytes 4 w.toNat) 3)
    (h : byteAt (toBytes 4 w.toNat) 0 ≠ 0x5A ∨ bitsOf (byteAt (toBytes 4 w.toNat) 1) 2 4 ≠ (s.swg c).seq) :
    execSwageStatusMessage c w s = .next (s.swgMissing c) := by
  simp only [execSwageStatusMessage, hcrc, ne_eq, not_true_eq_false, if_false, false_or]
  rw [if_pos]
  exact h.imp_right Or.inr

end Message

/-- The link of a channel whose messages arrive is not down. -/
theorem State.linkReport_up {s : State} (c : Fin 16) (hmissing : (s.swg c).missing < 3) (hdown : s.swage.down = 0) :
    s.linkReport (c / 4) = s := by
  have hall : ((List.range 4).all fun i => decide (3 ≤ (s.swg (4 * (c.val / 4) + i)).missing)) = false := by
    rw [List.all_eq_false]
    refine ⟨c.val % 4, List.mem_range.2 (Nat.mod_lt _ (by decide)), ?_⟩
    rw [Nat.div_add_mod]
    simpa using hmissing
  have hbit : bitAt s.swage.down (c / 4) = false := by
    rw [hdown]
    simp [bitAt]
  simp only [State.linkReport, hall, hbit, if_true]

theorem execStatusMessageMissing_counts {s : State} {c : Fin 16} (hfew : (s.swg c).missing + 1 < 3) (hdown : s.swage.down = 0) :
    ∃ t, execStatusMessageMissing c s = .next t ∧ (t.swg c).missing = (s.swg c).missing + 1 ∧ t.hif = s.hif
      ∧ t.rd F.SWG_CH_ERR_missing c = min (s.rd F.SWG_CH_ERR_missing c + 1) (2 ^ F.SWG_CH_ERR_missing.width - 1)
      ∧ s.OnlyWords t [F.SWG_CH_ERR_missing.addr c 0] := by
  simp only [execStatusMessageMissing, State.swgMissing, Nat.not_le.2 hfew, false_and, if_false]
  generalize hu : (s.setSwg c { s.swg c with missing := min 3 ((s.swg c).missing + 1) }).bump F.SWG_CH_ERR_missing c = u
  have hmissing : (u.swg c).missing = (s.swg c).missing + 1 := by
    rw [← hu, State.bump_swg, State.swg_setSwg_same]
    exact Nat.min_eq_right (by omega)
  rw [State.linkReport_up c (by omega) (by rw [← hu]; exact hdown)]
  refine ⟨_, rfl, hmissing, ?_, ?_, ?_⟩
  · rw [← hu]
    rfl
  · rw [← hu, State.rd_bump_same _ (by decide), Nat.min_comm]
    rfl
  · rw [← hu]
    exact State.OnlyWords.wr (f := F.SWG_CH_ERR_missing) (fun _ _ => rfl) (by simp)

/-! ## Faults of a standing channel -/

namespace State
variable {s : State} {c : Fin 16}

theorem swgFaultEnd_standing (hmove : (s.swg c).move = none) : s.swgFaultEnd c = (s.wr F.SWG_CH_STAT_referenced 0 c).swgSync c := by
  have hmove' : ((s.wr F.SWG_CH_STAT_referenced 0 c).swg c).move = none := hmove
  simp only [swgFaultEnd, swgEnd, hmove']

/-- A fault of a standing channel latches in its register and raises a source. -/
theorem swgFault_latches {f : Fld} (hf : BesideSwg f) (hfit : f.lo = 7 ∧ f.width = 1 ∨ f.lo = 8 ∧ f.width = 1) (hoff : f.off = 0x110038)
    {src code inst : Nat} {d : DWord} (hsrc : src < 128) (hmove : (s.swg c).move = none) (hev : s.takesEvent src) :
    (((s.wr f 1 c).raise src code inst d).swgFaultEnd c).rd f c = 1
      ∧ (((s.wr f 1 c).raise src code inst d).swgFaultEnd c).rd F.SWG_CH_STAT_referenced c = 0
      ∧ (((s.wr f 1 c).raise src code inst d).swgFaultEnd c).hasEvent src code inst
      ∧ (((s.wr f 1 c).raise src code inst d).swgFaultEnd c).swage = s.swage := by
  obtain ⟨hs1, hs2, -⟩ := id hf
  have hev' : (s.wr f 1 c).takesEvent src := by
    refine takesEvent_wr hev ?_
    simp only [Fld.addr, F.HIF_EVT_MAP_enable, hoff, hs1]
    omega
  have hmove' : (((s.wr f 1 c).raise src code inst d).swg c).move = none := by rw [raise_swg]; exact hmove
  have hno : f.addr c 0 ∉ eventWords := notMem_eventWords (by simp only [Fld.addr, hoff, hs1, hs2]; omega)
  have hset : ((s.wr f 1 c).raise src code inst d).rd f c = 1 := by
    rw [State.raise_rd _ _ _ _ hsrc hno, State.rd_wr_same _ (by omega)]
    obtain ⟨-, h⟩ | ⟨-, h⟩ := hfit <;> rw [h] <;> rfl
  have hevent : ((s.wr f 1 c).raise src code inst d).hasEvent src code inst := raise_hasEvent _ _ _ hev'
  have hswage : ((s.wr f 1 c).raise src code inst d).swage = s.swage := raise_swage _ _ _ _ _
  rw [swgFaultEnd_standing hmove']
  generalize (s.wr f 1 c).raise src code inst d = u at *
  refine ⟨?_, ?_, hevent, hswage⟩
  · rw [swgSync_rd _ _ hf, State.rd_wr_sep _ ⟨hs1, hs2, .inr (.inl ?_)⟩, hset]
    simp only [F.SWG_CH_STAT_referenced]
    omega
  · rw [swgSync_rd _ _ (by decide), State.rd_wr_same _ (by decide)]
    rfl

/-- A limit input that is not enabled shows inactive. -/
theorem swgLimit_off {neg level : Bool} (h : s.on (if neg then F.SWG_CH_CFG_lim_neg_en else F.SWG_CH_CFG_lim_pos_en) c = false) :
    s.swgLimit c neg level = s.wr (if neg then F.SWG_CH_STAT_lim_neg else F.SWG_CH_STAT_lim_pos) 0 c := by
  simp only [swgLimit, h, Bool.not_false, if_true]

end State

theorem execSwageStatusMessage_stageFault {s : State} {c : Fin 16} {w : Word}
    (hcrc : crc8 (((toBytes 4 w.toNat).drop 1).take 2) = byteAt (toBytes 4 w.toNat) 3) (hsync : byteAt (toBytes 4 w.toNat) 0 = 0x5A)
    (hslot : byteAt (toBytes 4 w.toNat) 1 % 4 = c.val % 4) (hseq : bitsOf (byteAt (toBytes 4 w.toNat) 1) 2 4 = (s.swg c).seq)
    (hdown : s.swage.down = 0) (hbit : bitAt (byteAt (toBytes 4 w.toNat) 2) 2 = true) (hnew : s.on F.SWG_CH_STAT_stage_fault c = false)
    (hmove : (s.swg c).move = none) (hpos : s.on F.SWG_CH_CFG_lim_pos_en c = false) (hneg : s.on F.SWG_CH_CFG_lim_neg_en c = false)
    (hev : s.takesEvent (80 + c / 4)) :
    ∃ t, execSwageStatusMessage c w s = .next t ∧ (t.swg c).missing = 0 ∧ t.rd F.SWG_CH_STAT_stage_fault c = 1
      ∧ t.rd F.SWG_CH_STAT_referenced c = 0 ∧ t.hasEvent (80 + c / 4) 3 c := by
  have hsrc : 80 + c.val / 4 < 128 := by omega
  simp only [execSwageStatusMessage, hcrc, hsync, hslot, hseq, ne_eq, not_true_eq_false, if_false, or_self]
  generalize hx : ({ s.swg c with missing := 0 } : SwgCh) = x
  have hxm : x.missing = 0 := by rw [← hx]
  have hxv : x.move = none := by rw [← hx]; exact hmove
  generalize hv : s.setSwg c x = v
  have hvx : v.swg c = x := by rw [← hv, State.swg_setSwg_same]
  have hvon (f : Fld) : v.on f c = s.on f c := by rw [← hv]; rfl
  have hev' : v.takesEvent (80 + c / 4) := by rw [← hv]; exact hev
  rw [State.linkReport_up c (by rw [hvx, hxm]; decide) (by rw [← hv]; exact hdown), hvon, hnew, if_pos ⟨hbit, rfl⟩]
  obtain ⟨hfault, href, hevent, hswage⟩ := State.swgFault_latches (s := v) (c := c) (f := F.SWG_CH_STAT_stage_fault) (code := 3) (inst := c)
    (d := 0) (by decide) (by decide) rfl hsrc (by rw [hvx]; exact hxv) hev'
  have hcfg (f : Fld) (h1 : State.BesideSwg f) (h2 : f.Sep F.SWG_CH_STAT_referenced) (h3 : f.Sep F.SWG_CH_STAT_stage_fault)
      (h4 : f.NoEvent 16) : (((v.wr F.SWG_CH_STAT_stage_fault 1 c).swgEvent 3 c 0).swgFaultEnd c).on f c = s.on f c := by
    rw [← hvon, State.swgFaultEnd_standing (by rw [State.swgEvent, State.raise_swg, State.wr_swg, hvx]; exact hxv),
      State.swgSync_on _ _ h1, State.on_wr_sep _ h2, State.swgEvent, State.on, State.raise_rd_below _ _ _ _ hsrc c.isLt h4,
      State.rd_wr_sep _ h3]
    rfl
  generalize hu : ((v.wr F.SWG_CH_STAT_stage_fault 1 c).swgEvent 3 c 0).swgFaultEnd c = u at *
  have hu' : ((v.wr F.SWG_CH_STAT_stage_fault 1 c).raise (80 + c / 4) 3 c 0).swgFaultEnd c = u := hu
  rw [hu'] at hfault href hevent hswage
  have hpos' : u.on F.SWG_CH_CFG_lim_pos_en c = false := (hcfg _ (by decide) (by decide) (by decide) (by decide)).trans hpos
  have hneg' : (u.wr F.SWG_CH_STAT_lim_pos 0 c).on F.SWG_CH_CFG_lim_neg_en c = false :=
    (State.on_wr_sep _ (by decide)).trans ((hcfg _ (by decide) (by decide) (by decide) (by decide)).trans hneg)
  rw [State.swgLimit_off (neg := false) hpos', if_neg Bool.false_ne_true, State.swgLimit_off (neg := true) hneg', if_pos rfl]
  refine ⟨_, rfl, ?_, ?_, ?_, hevent⟩
  · rw [State.wr_swg, State.wr_swg, State.swg_congr _ hswage, hvx, hxm]
  · rw [State.rd_wr_sep _ (by decide), State.rd_wr_sep _ (by decide), hfault]
  · rw [State.rd_wr_sep _ (by decide), State.rd_wr_sep _ (by decide), href]

theorem State.linkReport_cases (s : State) (n : Nat) : s.linkReport n = s ∨
    ∃ w code, s.linkReport n = ({ s with swage := { s.swage with down := w } } : State).raise (84 + n) code 0xFFFF 0 := by
  unfold State.linkReport
  dsimp only
  split
  · exact .inl rfl
  · exact .inr ⟨_, _, rfl⟩

/-- The report of a link leaves its channels and the events already staged. -/
theorem State.linkReport_keeps (s : State) {n : Nat} (hn : n < 4) : (∀ c, (s.linkReport n).swg c = s.swg c)
    ∧ (∀ f : Fld, ∀ c < 16, f.NoEvent 16 → (s.linkReport n).rd f c = s.rd f c)
    ∧ ∀ src code inst, s.hasEvent src code inst → (s.linkReport n).hasEvent src code inst := by
  obtain h | ⟨w, code, h⟩ := s.linkReport_cases n
  · rw [h]
    exact ⟨fun _ => rfl, fun _ _ _ _ => rfl, fun _ _ _ h => h⟩
  · rw [h]
    refine ⟨fun c => ?_, fun f c hc hf => ?_, fun src code' inst hev => State.hasEvent_raise _ _ _ _ hev⟩
    · rw [State.raise_swg]
      rfl
    · rw [State.raise_rd_below _ _ _ _ (by omega) hc hf]
      rfl

theorem execStatusMessageMissing_third {s : State} {c : Fin 16} (htwo : (s.swg c).missing = 2) (hnew : s.on F.SWG_CH_STAT_link_fault c = false)
    (hmove : (s.swg c).move = none) (hev : s.takesEvent (84 + c / 4)) :
    ∃ t, execStatusMessageMissing c s = .next t ∧ t.rd F.SWG_CH_STAT_link_fault c = 1 ∧ t.rd F.SWG_CH_STAT_referenced c = 0
      ∧ t.hasEvent (84 + c / 4) 1 c ∧ (t.swg c).missing = 3 := by
  have hsrc : 84 + c.val / 4 < 128 := by omega
  simp only [execStatusMessageMissing, State.swgMissing]
  generalize hx : ({ s.swg c with missing := min 3 ((s.swg c).missing + 1) } : SwgCh) = x
  have hxm : x.missing = 3 := by
    rw [← hx, htwo]
    rfl
  have hxv : x.move = none := by rw [← hx]; exact hmove
  generalize hv : (s.setSwg c x).bump F.SWG_CH_ERR_missing c = v
  have hvx : v.swg c = x := by rw [← hv, State.bump_swg, State.swg_setSwg_same]
  have hvon : v.on F.SWG_CH_STAT_link_fault c = false := by
    rw [← hnew, ← hv, State.bump_eq, State.on_wr_sep _ (by decide)]
    rfl
  have hev' : v.takesEvent (84 + c / 4) := by
    rw [← hv]
    exact State.takesEvent_wr hev (Fld.addr_ne_of_off (m := 128) hsrc c.isLt (by decide))
  rw [hvon, htwo, if_pos ⟨by decide, rfl⟩]
  obtain ⟨hfault, href, hevent, hswage⟩ := State.swgFault_latches (s := v) (c := c) (f := F.SWG_CH_STAT_link_fault) (code := 1) (inst := c)
    (d := 0) (by decide) (by decide) rfl hsrc (by rw [hvx]; exact hxv) hev'
  generalize ((v.wr F.SWG_CH_STAT_link_fault 1 c).raise (84 + c / 4) 1 c 0).swgFaultEnd c = u at *
  have hmissing : (u.swg c).missing = 3 := by rw [State.swg_congr _ hswage, hvx, hxm]
  obtain ⟨hswg, hrd, hkeep⟩ := u.linkReport_keeps (n := c.val / 4) (by omega)
  exact ⟨_, rfl, (hrd _ c c.isLt (by decide)).trans hfault, (hrd _ c c.isLt (by decide)).trans href, hkeep _ _ _ hevent,
    (congrArg SwgCh.missing (hswg c)).trans hmissing⟩

/-! ## Profile ticks -/

section Tick
variable {s : State} {c : Fin 16} {p : DWord}

/-- No change of acceleration waits. -/
def SwgCh.Settled (x : SwgCh) : Prop := x.left = 0 ∧ x.newAccel = none ∧ x.newDecel = none ∧ x.newJerk = none ∧ x.setting = []

/-- A tick without link cycles left and without a change of acceleration changes nothing before it chooses. -/
theorem swgApply_settled (hx : (s.swg c).Settled) : (s.setSwg c (s.swg c)).swgApply c = (s.setSwg c (s.swg c)).setSwg c (s.swg c) := by
  obtain ⟨-, ha, hd, hj, hs⟩ := hx
  have hsame : (s.setSwg c (s.swg c)).swg c = s.swg c := s.swg_setSwg_same c _
  simp only [State.swgApply, hsame, ha, hd, hj, hs, List.foldl_nil, Option.getD_none]
  congr 1
  generalize s.swg c = x at ha hd hj hs
  obtain ⟨⟩ := x
  subst ha hd hj hs
  rfl

/-- The state on which a tick chooses: nothing has changed. -/
structure TickSame (c : Nat) (s u : State) : Prop where
  swg : u.swg c = s.swg c
  regs : u.regs = s.regs
  hif : u.hif = s.hif
  rd : ∀ f : Fld, u.rd f c = s.rd f c

theorem tickSame (s : State) (c : Nat) : TickSame c s ((s.setSwg c (s.swg c)).setSwg c (s.swg c)) :=
  ⟨State.swg_setSwg_same _ c _, rfl, rfl, fun _ => rfl⟩

theorem execProfileTick_moves {m : SwgMove} (hx : (s.swg c).Settled) (hmove : (s.swg c).move = some m) (hhalt : (s.swg c).halt = none) :
    ∃ u, TickSame c s u ∧ execProfileTick c p s = (if (s.swg c).landing then .next (u.swgArrive c)
      else if m.home = some .settle then .next (u.swgSync c) else .next (u.swgChoose c m p.toInt)) := by
  refine ⟨_, tickSame s c, ?_⟩
  simp only [execProfileTick, hx.1, List.range_zero, List.foldl_nil, swgApply_settled hx, (tickSame s c).swg, hmove, hhalt]

theorem execProfileTick_halts {m : SwgMove} {h : SwgHalt} (hx : (s.swg c).Settled) (hmove : (s.swg c).move = some m)
    (hhalt : (s.swg c).halt = some h) (hlanding : (s.swg c).landing = false) :
    ∃ u, TickSame c s u ∧ execProfileTick c p s = .next (u.swgRamp c h) := by
  refine ⟨_, tickSame s c, ?_⟩
  simp only [execProfileTick, hx.1, List.range_zero, List.foldl_nil, swgApply_settled hx, (tickSame s c).swg, hmove, hhalt, hlanding,
    Bool.false_eq_true, if_false]

/-- The speed of a velocity move from rest: between standstill, its speed and one tick's acceleration. -/
theorem tickSpeed_from_rest (x : SwgCh) {m : SwgMove} (hmode : m.mode = 2) (hjerk : m.jerkLimited = false) (n rem : Nat) (pick : Int) :
    0 ≤ x.tickSpeed m n rem 0 pick ∧ x.tickSpeed m n rem 0 pick ≤ (m.speed * 2 ^ 28 : Nat) ∧ x.tickSpeed m n rem 0 pick ≤ (perTick x.accel n : Nat) := by
  unfold SwgCh.tickSpeed
  simp only [hmode, hjerk, Bool.false_eq_true, if_false, beq_self_eq_true, if_true, Int.lt_irrefl]
  generalize perTick x.accel n = a
  generalize m.speed * 2 ^ 28 = top
  rw [if_pos (Int.natCast_nonneg top)]
  unfold clampI
  split_ifs <;> omega

/-- The direction of a velocity move. -/
theorem natAbs_dir_mul {dir : Int} (h : dir = 1 ∨ dir = -1) (u : Int) : (dir * u).natAbs = u.natAbs := by
  obtain rfl | rfl := h <;> simp

theorem execProfileTick_velocity {m : SwgMove} (hmove : (s.swg c).move = some m) (hhalt : (s.swg c).halt = none)
    (hlanding : (s.swg c).landing = false) (hvel : (s.swg c).vel = 0) (hx : (s.swg c).Settled) (hmode : m.mode = 2) (hhome : m.home = none)
    (hjerk : m.jerkLimited = false) :
    ∃ t, execProfileTick c p s = .next t ∧ (t.swg c).left = s.rd F.SWG_CH_CFG_tick c ∧ (t.swg c).pos = (s.swg c).pos
      ∧ (t.swg c).vel.natAbs ≤ m.speed * 2 ^ 28
      ∧ (t.swg c).vel.natAbs ≤ perTick (s.swg c).accel (s.rd F.SWG_CH_CFG_tick c)
      ∧ (m.negative = false → 0 ≤ (t.swg c).vel) ∧ (m.negative = true → (t.swg c).vel ≤ 0) := by
  obtain ⟨u, hu, htick⟩ := execProfileTick_moves (p := p) hx hmove hhalt
  rw [htick, hlanding, hhome]
  simp only [Bool.false_eq_true, if_false, reduceCtorEq, State.swgChoose, hmode, ne_eq, not_true_eq_false, false_and, if_true, hu.swg, hu.rd,
    hvel, Int.mul_zero]
  generalize (m.target * 2 ^ 32 - (s.swg c).pos).natAbs = rem
  generalize s.rd F.SWG_CH_CFG_tick c = n
  obtain ⟨hlow, htop, hacc⟩ := tickSpeed_from_rest (s.swg c) hmode hjerk n rem p.toInt
  generalize (s.swg c).tickSpeed m n rem 0 p.toInt = v at *
  generalize hdir : (if m.negative = true then -1 else 1 : Int) = dir
  have hunit : dir = 1 ∨ dir = -1 := by
    rw [← hdir]
    split
    · exact .inr rfl
    · exact .inl rfl
  have hup : m.negative = false → 0 ≤ dir * v := fun h => by
    rw [← hdir, h, if_neg Bool.false_ne_true]
    omega
  have hdown : m.negative = true → dir * v ≤ 0 := fun h => by
    rw [← hdir, h, if_pos rfl]
    omega
  have htop' : (dir * v).natAbs ≤ m.speed * 2 ^ 28 := by rw [natAbs_dir_mul hunit]; omega
  have hacc' : (dir * v).natAbs ≤ perTick (s.swg c).accel n := by rw [natAbs_dir_mul hunit]; omega
  generalize dir * v = w at *
  split
  · refine ⟨_, rfl, ?_⟩
    rw [State.swgSync_swg, State.complete_swg, State.swg_setSwg_same]
    exact ⟨rfl, rfl, htop', hacc', hup, hdown⟩
  · refine ⟨_, rfl, ?_⟩
    rw [State.swgSync_swg, State.swg_setSwg_same]
    exact ⟨rfl, rfl, htop', hacc', hup, hdown⟩

/-! ## Ends of motion -/

/-- A channel whose motion has ended (R285). -/
def SwgCh.ended (x : SwgCh) (m : SwgMove) (keep : Bool) (now : Nat) : SwgCh :=
  { x with vel := 0, dv := 0, left := 0, landing := false, move := none, halt := none,
           kept := if keep then some { m with desc := none, home := none, deferred := false } else none,
           decel := x.newDecel.getD x.decel, newDecel := none, stops := [], stood := now }

/-- The registers that follow the end of a motion. -/
def State.swgEnded (s : State) (c : Nat) (homing : Bool) : State :=
  (if s.swgOff c || homing then s.wr F.SWG_CH_STAT_referenced 0 c else s).swgSync c

theorem State.swgEnded_keeps (s : State) (c : Nat) (homing : Bool) : (s.swgEnded c homing).swage = s.swage ∧ (s.swgEnded c homing).hif = s.hif := by
  unfold State.swgEnded
  split <;> exact ⟨rfl, rfl⟩

theorem swgEnd_undescribed {u : State} {m : SwgMove} (hmove : (u.swg c).move = some m) (hdesc : m.desc = none) (hstops : (u.swg c).stops = [])
    (status : Nat) (keep : Bool) : (u.swgEnd c status keep).swg c = (u.swg c).ended m keep u.tick := by
  simp only [State.swgEnd, hmove, hdesc, hstops, List.foldl_nil]
  generalize hy : SwgCh.mk .. = y
  have hy' : y = (u.swg c).ended m keep u.tick := by
    rw [← hy]
    rfl
  rw [← hy']
  generalize hv : (u.setSwg c y).wr F.SWG_CH_STAT_accel_deferred 0 c = v
  have hvy : v.swg c = y := by rw [← hv, State.wr_swg, State.swg_setSwg_same]
  refine (State.swg_congr _ (State.swgEnded_keeps _ c (m.home.isSome && status != 1)).1 c).trans ?_
  split
  · exact hvy
  · rw [State.swgEvent, State.raise_swg, hvy]

theorem swgEnd_completes {u : State} {m : SwgMove} {d : Desc} (hmove : (u.swg c).move = some m) (hdesc : m.desc = some d.id)
    (hdeferred : m.deferred = false) (hstops : (u.swg c).stops = []) (hfind : u.hif.desc.find? (·.id == d.id) = some d) (hquiet : d.quiet = false)
    (keep : Bool) : (u.swgEnd c 1 keep).swg c = (u.swg c).ended m keep u.tick ∧ (u.swgEnd c 1 keep).Completed d 1 := by
  simp only [State.swgEnd, hmove, hdesc, hdeferred, hstops, List.foldl_nil, Bool.false_eq_true, if_false, if_true]
  generalize hy : SwgCh.mk .. = y
  have hy' : y = (u.swg c).ended m keep u.tick := by
    rw [← hy]
    rfl
  rw [← hy']
  generalize hv : (u.setSwg c y).wr F.SWG_CH_STAT_accel_deferred 0 c = v
  have hvy : v.swg c = y := by rw [← hv, State.wr_swg, State.swg_setSwg_same]
  have hvfind : v.hif.desc.find? (·.id == d.id) = some d := by rw [← hv]; exact hfind
  have hdone : (v.complete d.id 1 0 ((u.swg c).result (some m))).Completed d 1 := State.complete_completed_of_find hvfind rfl rfl hquiet
  generalize hw : v.complete d.id 1 0 ((u.swg c).result (some m)) = w at *
  have hwy : w.swg c = y := by rw [← hw, State.complete_swg, hvy]
  obtain ⟨hswage, hhif⟩ := w.swgEnded_keeps c (m.home.isSome && 1 != 1)
  exact ⟨(State.swg_congr _ hswage c).trans hwy, hdone.of_hif (congrArg Hif.desc hhif) (congrArg Hif.compl hhif)⟩

theorem execProfileTick_arrives {m : SwgMove} {d : Desc} (hmove : (s.swg c).move = some m) (hhalt : (s.swg c).halt = none)
    (hlanding : (s.swg c).landing = true) (hx : (s.swg c).Settled) (hhome : m.home = none) (hdesc : m.desc = some d.id)
    (hdeferred : m.deferred = false) (hfind : s.hif.desc.find? (·.id == d.id) = some d) (hquiet : d.quiet = false)
    (hstops : (s.swg c).stops = []) :
    ∃ t, execProfileTick c p s = .next t ∧ (t.swg c).move = none ∧ (t.swg c).vel = 0 ∧ (t.swg c).kept = none
      ∧ t.Completed d 1 ∧ (t.swg c).pos = (s.swg c).pos := by
  obtain ⟨u, hu, htick⟩ := execProfileTick_moves (p := p) hx hmove hhalt
  rw [htick, hlanding, if_pos rfl]
  have hmove' : (u.swg c).move = some m := by rw [hu.swg]; exact hmove
  have hstops' : (u.swg c).stops = [] := by rw [hu.swg]; exact hstops
  simp only [State.swgArrive, hmove', hhome, reduceCtorEq, if_false]
  obtain ⟨hend, hdone⟩ := swgEnd_completes hmove' hdesc hdeferred hstops' (by rw [hu.hif]; exact hfind) hquiet false
  refine ⟨_, rfl, ?_, ?_, ?_, hdone, ?_⟩
  · rw [hend]
    rfl
  · rw [hend]
    rfl
  · rw [hend]
    rfl
  · rw [hend, hu.swg]
    rfl

theorem execProfileTick_stops {m : SwgMove} {h : SwgHalt} (hmove : (s.swg c).move = some m) (hhalt : (s.swg c).halt = some h)
    (hlanding : (s.swg c).landing = false) (hx : (s.swg c).Settled) (hpos : (s.swg c).pos ≠ m.target * 2 ^ 32) (hdesc : m.desc = none)
    (hstops : (s.swg c).stops = [])
    (hslow : (s.swg c).vel.natAbs ≤ perTick (h.begun.getD (max (s.rd F.SWG_CH_STOPDEC_decel c) (s.swg c).decel)) (s.rd F.SWG_CH_CFG_tick c)) :
    ∃ t, execProfileTick c p s = .next t ∧ (t.swg c).move = none ∧ (t.swg c).vel = 0 ∧ (t.swg c).pos = (s.swg c).pos
      ∧ (h.keep = true → (t.swg c).kept = some { m with desc := none, home := none, deferred := false })
      ∧ (h.keep = false → (t.swg c).kept = none) := by
  obtain ⟨u, hu, htick⟩ := execProfileTick_halts (p := p) hx hmove hhalt hlanding
  have hmove' : (u.swg c).move = some m := by rw [hu.swg]; exact hmove
  have hstops' : (u.swg c).stops = [] := by rw [hu.swg]; exact hstops
  have hramp : u.swgRamp c h = u.swgEnd c h.status h.keep := by
    have hzero : (s.swg c).vel.natAbs - perTick (h.begun.getD (max (s.rd F.SWG_CH_STOPDEC_decel c) (s.swg c).decel)) (s.rd F.SWG_CH_CFG_tick c) = 0 :=
      Nat.sub_eq_zero_of_le hslow
    simp only [State.swgRamp, hu.swg, hu.rd, hzero, hmove, hpos, Nat.cast_zero, Int.mul_zero, if_true, and_false, if_false]
  have hend := swgEnd_undescribed hmove' hdesc hstops' h.status h.keep
  rw [htick, hramp]
  refine ⟨_, rfl, ?_, ?_, ?_, fun hkeep => ?_, fun hkeep => ?_⟩
  · rw [hend]
    rfl
  · rw [hend]
    rfl
  · rw [hend, hu.swg]
    rfl
  · rw [hend, hkeep]
    rfl
  · rw [hend, hkeep]
    rfl

end Tick

/-- Settles O30: messages and their absence by the faults they latch, a profile tick by the speed it chooses or the move it ends. -/
theorem swageLinks : Obligations.SwageLinks := by
  unfold Obligations.SwageLinks
  refine ⟨execSwageLinkSlot_sends, fun s c w => execSwageStatusMessage_crc, fun s c w => execSwageStatusMessage_wrong,
    fun s c w => execSwageStatusMessage_stageFault, fun s c => execStatusMessageMissing_counts, fun s c => execStatusMessageMissing_third,
    ?_, ?_, ?_⟩
  · intro s c p m hmove hhalt hlanding hleft hvel ha hd hj hs hmode hhome hjerk
    exact execProfileTick_velocity hmove hhalt hlanding hvel ⟨hleft, ha, hd, hj, hs⟩ hmode hhome hjerk
  · intro s c p m d hmove hhalt hlanding hleft ha hd hj hs hhome hdesc hdeferred hfind hquiet hstops
    exact execProfileTick_arrives hmove hhalt hlanding ⟨hleft, ha, hd, hj, hs⟩ hhome hdesc hdeferred hfind hquiet hstops
  · intro s c p m h hmove hhalt hlanding hleft ha hd hj hs hpos hdesc hstops hslow
    exact execProfileTick_stops hmove hhalt hlanding ⟨hleft, ha, hd, hj, hs⟩ hpos hdesc hstops hslow

end Sys2Proof.Machine

/-! Proofs about the operations and registers of the local axes (O31). -/

namespace Sys2Proof.Machine

/-! ## Starting a motion -/

namespace State
variable {s : State} {c : Nat}

theorem swgRefused_congr {t : State} (hswg : t.swg c = s.swg c) (hrd : ∀ f : Fld, 0x110000 ≤ f.off → t.rd f c = s.rd f c) (m : SwgMove) :
    t.swgRefused c m = s.swgRefused c m := by
  have hon (f : Fld) (hf : 0x110000 ≤ f.off) : t.on f c = s.on f c := congrArg (· != 0) (hrd f hf)
  simp only [swgRefused, swgFault, hswg, hon F.SWG_CH_CTL_enable (by decide), hon F.SWG_CH_STAT_link_fault (by decide),
    hon F.SWG_CH_STAT_stage_fault (by decide), hon F.SWG_CH_STAT_limit_chatter (by decide), hon F.SWG_CH_STAT_lim_pos (by decide),
    hon F.SWG_CH_STAT_lim_neg (by decide)]
  rfl

/-- Nothing of the channel refuses a motion. -/
theorem swgRefused_none (henable : s.on F.SWG_CH_CTL_enable c = true) (hfault : s.swgFault c = false)
    (hchatter : s.on F.SWG_CH_STAT_limit_chatter c = false) (hpos : s.on F.SWG_CH_STAT_lim_pos c = false)
    (hneg : s.on F.SWG_CH_STAT_lim_neg c = false) (m : SwgMove) : s.swgRefused c m = none := by
  simp only [swgRefused, henable, hfault, hchatter, hpos, hneg, Bool.not_true, Bool.or_self, Bool.false_and, Bool.false_eq_true, if_false]

/-- A motion of a standing channel starts. -/
theorem swgStart_starts {m : SwgMove} {current : Nat} (hmove : (s.swg c).move = none) (hgo : s.swgRefused c m = none) :
    (s.swgStart c m current).swg c = { s.swg c with move := some m, kept := none, halt := none, landing := false, current := current }
      ∧ (s.swgStart c m current).hif = s.hif ∧ (m.home.isSome = true → (s.swgStart c m current).rd F.SWG_CH_STAT_referenced c = 0) := by
  simp only [swgStart, hgo, hmove]
  generalize hu : (if m.home.isSome = true then s.wr F.SWG_CH_STAT_referenced 0 c else s) = u
  have hhif : u.hif = s.hif := by
    rw [← hu]
    split <;> rfl
  refine ⟨?_, hhif, fun hhome => ?_⟩
  · rw [swgSync_swg, swg_setSwg_same]
  · rw [swgSync_rd _ _ (by decide), setSwg_rd, ← hu, if_pos hhome, State.rd_wr_same _ (by decide)]
    rfl

/-- A stop request to a moving channel (R285). -/
theorem swgStop_moving {m : SwgMove} (hmove : (s.swg c).move = some m) (hhalt : (s.swg c).halt = none) (status : Nat) (keep : Bool) :
    (s.swgStop c status keep).swg c = { s.swg c with halt := some { status := status, keep := keep } }
      ∧ (s.swgStop c status keep).hif = s.hif ∧ (s.swgStop c status keep).rd F.SWG_CH_STAT_state c = 2
      ∧ (s.swgStop c status keep).rd F.SWG_CH_CTL_enable c = s.rd F.SWG_CH_CTL_enable c := by
  simp only [swgStop, hmove, hhalt, Option.isNone_some, Bool.false_eq_true, if_false]
  refine ⟨?_, rfl, ?_, ?_⟩
  · rw [swgSync_swg, swg_setSwg_same]
  · rw [swgSync_state, swgCode, swg_setSwg_same]
    simp only [Option.isSome_some, if_true]
  · rw [swgSync_rd _ _ (by decide), setSwg_rd]

end State

/-! ## Descriptors -/

section Descriptors
variable {s : State} {r : Fin 64} {d : Desc}

/-- The registers of the local axes when a descriptor has started. -/
theorem swgRd_startDesc {opcode : Nat} (hstart : s.Starts r opcode d) {f : Fld} {i : Nat} (hf : 0x110000 ≤ f.off) :
    (s.startDesc d).rd f i = s.rd f i := State.startDesc_rd_high hstart.ring_lt (Nat.le_trans (by decide) hf)

theorem swgRefused_startDesc {opcode : Nat} (hstart : s.Starts r opcode d) (c : Nat) (m : SwgMove) :
    (s.startDesc d).swgRefused c m = s.swgRefused c m :=
  State.swgRefused_congr (s.startDesc_swg d c) (fun _ hf => swgRd_startDesc hstart hf) m

theorem execSwgMove_starts (hstart : s.Starts r 0x0340 d) (hmode : d.op 33 1 = 0) (hspeed : d.op 36 4 ≤ s.rd F.SWG_CH_VMAX_vmax (d.op 32 1))
    (hjerk : bitAt (d.op 34 1) 0 = false) (hrange : inRange47 (d.opS 40 8) = true) (hmove : (s.swg (d.op 32 1)).move = none)
    (hgo : ∀ m, s.swgRefused (d.op 32 1) m = none) :
    ∃ t m, execSwgMove r s = .next t ∧ (t.swg (d.op 32 1)).move = some m ∧ m.desc = some d.id ∧ m.target = d.opS 40 8
      ∧ m.speed = d.op 36 4 ∧ m.mode = 0 ∧ (t.swg (d.op 32 1)).kept = none ∧ (t.swg (d.op 32 1)).pos = (s.swg (d.op 32 1)).pos
      ∧ (t.swg (d.op 32 1)).current = s.rd F.SWG_CH_CUR_run (d.op 32 1) ∧ t.hif.compl = s.hif.compl := by
  have hvmax := swgRd_startDesc hstart (f := F.SWG_CH_VMAX_vmax) (i := d.op 32 1) (by decide)
  have hrun := swgRd_startDesc hstart (f := F.SWG_CH_CUR_run) (i := d.op 32 1) (by decide)
  simp only [execSwgMove, hstart.runDesc, hmode, hjerk, hvmax, hrun, Nat.not_lt.2 hspeed, hrange, Bool.false_eq_true, Bool.not_true,
    false_and, and_false, if_false, zero_ne_one, (by decide : (0 : Nat) ≠ 2)]
  generalize hm : SwgMove.mk .. = m
  obtain ⟨hswg, hhif, -⟩ := State.swgStart_starts (s := s.startDesc d) (c := d.op 32 1) (current := s.rd F.SWG_CH_CUR_run (d.op 32 1)) hmove
    ((swgRefused_startDesc hstart _ m).trans (hgo m))
  refine ⟨_, m, rfl, ?_, ?_, ?_, ?_, ?_, ?_, ?_, ?_, (congrArg Hif.compl hhif).trans rfl⟩
  · rw [hswg]
  · rw [← hm]
  · rw [← hm]
  · rw [← hm]
  · rw [← hm]
  · rw [hswg]
  · rw [hswg]
    rfl
  · rw [hswg]

theorem execSwgMove_fast (hstart : s.Starts r 0x0340 d) (hspeed : s.rd F.SWG_CH_VMAX_vmax (d.op 32 1) < d.op 36 4) :
    ∃ t, execSwgMove r s = .next t ∧ t.Completed d 0x12 ∧ t.swage = s.swage := by
  have hvmax := swgRd_startDesc hstart (f := F.SWG_CH_VMAX_vmax) (i := d.op 32 1) (by decide)
  simp only [execSwgMove, hstart.runDesc, hvmax, hspeed, if_true]
  exact ⟨_, rfl, hstart.completed rfl, State.complete_swage _ _ _ _ _ _⟩

theorem execSwgStop_standing (hstart : s.Starts r 0x0341 d) (hmove : (s.swg (d.op 32 1)).move = none) :
    ∃ t, execSwgStop r s = .next t ∧ t.Completed d 1 ∧ t.swage = s.swage := by
  simp only [execSwgStop, hstart.runDesc, State.startDesc_swg, hmove, Option.isNone_none, if_true]
  exact ⟨_, rfl, hstart.completed rfl, State.complete_swage _ _ _ _ _ _⟩

theorem execSwgStop_moving {m : SwgMove} (hstart : s.Starts r 0x0341 d) (hmove : (s.swg (d.op 32 1)).move = some m)
    (hhalt : (s.swg (d.op 32 1)).halt = none) :
    ∃ t, execSwgStop r s = .next t ∧ (t.swg (d.op 32 1)).halt = some { status := 6, keep := true }
      ∧ (t.swg (d.op 32 1)).stops = (s.swg (d.op 32 1)).stops ++ [d.id] ∧ t.hif.compl = s.hif.compl := by
  simp only [execSwgStop, hstart.runDesc, State.startDesc_swg, hmove, Option.isNone_some, Bool.false_eq_true, if_false]
  generalize hx : SwgCh.mk .. = x
  generalize hu : (s.startDesc d).setSwg (d.op 32 1) x = u
  have hux : u.swg (d.op 32 1) = x := by rw [← hu, State.swg_setSwg_same]
  have humove : (u.swg (d.op 32 1)).move = some m := by rw [hux, ← hx]
  have huhalt : (u.swg (d.op 32 1)).halt = none := by rw [hux, ← hx]; exact hhalt
  obtain ⟨hswg, hhif, -, -⟩ := State.swgStop_moving humove huhalt 6 true
  refine ⟨_, rfl, ?_, ?_, ?_⟩
  · rw [hswg]
  · rw [hswg, hux, ← hx]
  · rw [hhif, ← hu]
    rfl

theorem execSwgResume_moving {m : SwgMove} (hstart : s.Starts r 0x0342 d) (hmove : (s.swg (d.op 32 1)).move = some m) :
    ∃ t, execSwgResume r s = .next t ∧ t.Completed d 0x15 ∧ t.swage = s.swage := by
  simp only [execSwgResume, hstart.runDesc, State.startDesc_swg, hmove]
  exact ⟨_, rfl, hstart.completed rfl, State.complete_swage _ _ _ _ _ _⟩

theorem execSwgResume_nothing (hstart : s.Starts r 0x0342 d) (hmove : (s.swg (d.op 32 1)).move = none)
    (hkept : (s.swg (d.op 32 1)).kept = none) : ∃ t, execSwgResume r s = .next t ∧ t.Completed d 1 ∧ t.swage = s.swage := by
  simp only [execSwgResume, hstart.runDesc, State.startDesc_swg, hmove, hkept]
  exact ⟨_, rfl, hstart.completed rfl, State.complete_swage _ _ _ _ _ _⟩

theorem execSwgResume_resumes {m : SwgMove} (hstart : s.Starts r 0x0342 d) (hmove : (s.swg (d.op 32 1)).move = none)
    (hkept : (s.swg (d.op 32 1)).kept = some m) (hgo : s.swgRefused (d.op 32 1) m = none) :
    ∃ t, execSwgResume r s = .next t ∧ (t.swg (d.op 32 1)).move = some { m with desc := some d.id }
      ∧ (t.swg (d.op 32 1)).kept = none ∧ t.hif.compl = s.hif.compl := by
  simp only [execSwgResume, hstart.runDesc, State.startDesc_swg, hmove, hkept]
  generalize (s.startDesc d).rd F.SWG_CH_CUR_run (d.op 32 1) = current
  obtain ⟨hswg, hhif, -⟩ := State.swgStart_starts (s := s.startDesc d) (c := d.op 32 1) (current := current) (m := { m with desc := some d.id })
    hmove ((swgRefused_startDesc hstart _ _).trans hgo)
  refine ⟨_, rfl, ?_, ?_, (congrArg Hif.compl hhif).trans rfl⟩
  · rw [hswg]
  · rw [hswg]

theorem execSwgHome_starts (hstart : s.Starts r 0x0343 d) (hspeed : d.op 36 4 ≤ s.rd F.SWG_CH_VMAX_vmax (d.op 32 1))
    (hmove : (s.swg (d.op 32 1)).move = none) (hgo : ∀ m, s.swgRefused (d.op 32 1) m = none) :
    ∃ t m, execSwgHome r s = .next t ∧ (t.swg (d.op 32 1)).move = some m ∧ m.desc = some d.id ∧ m.home = some .travel
      ∧ m.target = unitsOf (s.swg (d.op 32 1)).pos + (if d.op 33 1 = 1 then -(d.op 40 4 : Int) else d.op 40 4)
      ∧ t.rd F.SWG_CH_STAT_referenced (d.op 32 1) = 0 ∧ t.hif.compl = s.hif.compl := by
  have hvmax := swgRd_startDesc hstart (f := F.SWG_CH_VMAX_vmax) (i := d.op 32 1) (by decide)
  simp only [execSwgHome, hstart.runDesc, hvmax, Nat.not_lt.2 hspeed, if_false, beq_iff_eq]
  generalize hm : SwgMove.mk .. = m
  obtain ⟨hswg, hhif, href⟩ := State.swgStart_starts (s := s.startDesc d) (c := d.op 32 1) (current := d.op 34 1) hmove
    ((swgRefused_startDesc hstart _ m).trans (hgo m))
  refine ⟨_, m, rfl, ?_, ?_, ?_, ?_, href ?_, (congrArg Hif.compl hhif).trans rfl⟩
  · rw [hswg]
  · rw [← hm]
  · rw [← hm]
  · rw [← hm]
    rfl
  · rw [← hm]
    rfl

/-- New accelerations are recorded and wait for a profile tick (R289). -/
theorem swgRecord_records {u : State} {c a b : Nat} (ha : a ≠ 0) (hb : b ≠ 0) :
    (u.swgRecord c a b 0).swg c = { u.swg c with newAccel := some a, newDecel := some b }
      ∧ (u.swgRecord c a b 0).rd F.SWG_CH_ACC_accel c = a % 2 ^ F.SWG_CH_ACC_accel.width ∧ (u.swgRecord c a b 0).hif = u.hif := by
  simp only [State.swgRecord, ha, hb, if_false, if_true]
  refine ⟨?_, ?_, rfl⟩
  · rw [State.swg_setSwg_same]
  · rw [State.setSwg_rd, State.rd_wr_sep _ (by decide), State.rd_wr_same _ (by decide)]

theorem execSwgSetAccel_waits (hstart : s.Starts r 0x0344 d) (ha : d.op 36 4 ≠ 0) (hb : d.op 40 4 ≠ 0) (hj : d.op 44 4 = 0) :
    ∃ t, execSwgSetAccel r s = .next t ∧ (t.swg (d.op 32 1)).newAccel = some (d.op 36 4)
      ∧ (t.swg (d.op 32 1)).newDecel = some (d.op 40 4) ∧ (t.swg (d.op 32 1)).newJerk = (s.swg (d.op 32 1)).newJerk
      ∧ (t.swg (d.op 32 1)).accel = (s.swg (d.op 32 1)).accel ∧ (t.swg (d.op 32 1)).setting = (s.swg (d.op 32 1)).setting ++ [d.id]
      ∧ t.rd F.SWG_CH_ACC_accel (d.op 32 1) = d.op 36 4 % 2 ^ F.SWG_CH_ACC_accel.width ∧ t.hif.compl = s.hif.compl := by
  simp only [execSwgSetAccel, hstart.runDesc, hj]
  obtain ⟨hswg, hacc, hhif⟩ := swgRecord_records (u := s.startDesc d) (c := d.op 32 1) ha hb
  generalize (s.startDesc d).swgRecord (d.op 32 1) (d.op 36 4) (d.op 40 4) 0 = u at *
  rw [hswg]
  refine ⟨_, rfl, ?_⟩
  rw [State.swg_setSwg_same]
  exact ⟨rfl, rfl, rfl, rfl, rfl, hacc, (congrArg Hif.compl hhif).trans rfl⟩

end Descriptors

/-! ## Registers -/

section Registers
variable {s : State} {c : Fin 16}

theorem execSwageAccelWrite_records (s : State) (c : Fin 16) (v : Word) :
    execSwageAccelWrite c 0 v s = .next ((s.wr F.SWG_CH_ACC_accel v.toNat c).setSwg c { s.swg c with newAccel := some v.toNat })
      ∧ execSwageAccelWrite c 1 v s = .next ((s.wr F.SWG_CH_DEC_decel v.toNat c).setSwg c { s.swg c with newDecel := some v.toNat })
      ∧ execSwageAccelWrite c 2 v s = .next ((s.wr F.SWG_CH_JERK_jerk v.toNat c).setSwg c { s.swg c with newJerk := some v.toNat }) := by
  have h10 : (1 : Fin 3) ≠ 0 := by decide
  have h20 : (2 : Fin 3) ≠ 0 := by decide
  have h21 : (2 : Fin 3) ≠ 1 := by decide
  simp only [execSwageAccelWrite, h10, h20, h21, if_true, if_false, and_self]

theorem execSwageStopRequest_ramps {m : SwgMove} (hmove : (s.swg c).move = some m) (hhalt : (s.swg c).halt = none) :
    ∃ t, execSwageStopRequest c s = .next t ∧ (t.swg c).halt = some { status := 6, keep := true } ∧ t.hif = s.hif
      ∧ t.rd F.SWG_CH_STAT_state c = 2 := by
  obtain ⟨hswg, hhif, hstate, -⟩ := State.swgStop_moving hmove hhalt 6 true
  exact ⟨_, rfl, by rw [hswg], hhif, hstate⟩

theorem execSwageStopRequest_standing (hmove : (s.swg c).move = none) : execSwageStopRequest c s = .next s := by
  simp only [execSwageStopRequest, State.swgStop, hmove, Option.isNone_none, if_true]

theorem execSwageEnable_enables (hoff : s.on F.SWG_CH_CTL_enable c = false) (hmove : (s.swg c).move = none) :
    ∃ t, execSwageEnable c s = .next t ∧ t.rd F.SWG_CH_CTL_enable c = 1 ∧ (t.swg c).pos = (s.swg c).pos
      ∧ (t.swg c).current = s.rd F.SWG_CH_CUR_hold c ∧ (t.swg c).stood = s.tick
      ∧ (t.swg c).linkPos (s.on F.SWG_CH_CFG_dir c) = (s.swg c).pos := by
  have hhold : (s.wr F.SWG_CH_CTL_enable 1 c).rd F.SWG_CH_CUR_hold c = s.rd F.SWG_CH_CUR_hold c := State.rd_wr_sep _ (by decide)
  have hdir : (s.wr F.SWG_CH_CTL_enable 1 c).on F.SWG_CH_CFG_dir c = s.on F.SWG_CH_CFG_dir c := State.on_wr_sep _ (by decide)
  simp only [execSwageEnable, hoff, hmove, hhold, hdir, Option.isSome_none, Bool.false_eq_true, if_false]
  refine ⟨_, rfl, ?_, ?_⟩
  · rw [State.swgSync_rd _ _ (by decide), State.setSwg_rd, State.rd_wr_same _ (by decide)]
    rfl
  · rw [State.swgSync_swg, State.swg_setSwg_same]
    refine ⟨rfl, rfl, rfl, ?_⟩
    unfold SwgCh.linkPos
    dsimp only
    split <;> omega

theorem execSwageDisable_standing (hmove : (s.swg c).move = none) :
    ∃ t, execSwageDisable c s = .next t ∧ t.rd F.SWG_CH_CTL_enable c = 0 ∧ t.rd F.SWG_CH_STAT_referenced c = 0
      ∧ t.rd F.SWG_CH_STAT_state c = 5 ∧ t.swage = s.swage := by
  simp only [execSwageDisable, State.wr_swg, hmove, Option.isSome_none, Bool.false_eq_true, if_false]
  have henable : ((s.wr F.SWG_CH_CTL_enable 0 c).wr F.SWG_CH_STAT_referenced 0 c).rd F.SWG_CH_CTL_enable c = 0 := by
    rw [State.rd_wr_sep _ (by decide), State.rd_wr_same _ (by decide)]
    rfl
  have href : ((s.wr F.SWG_CH_CTL_enable 0 c).wr F.SWG_CH_STAT_referenced 0 c).rd F.SWG_CH_STAT_referenced c = 0 := by
    rw [State.rd_wr_same _ (by decide)]
    rfl
  have humove : (((s.wr F.SWG_CH_CTL_enable 0 c).wr F.SWG_CH_STAT_referenced 0 c).swg c).move = none := hmove
  have hswage : ((s.wr F.SWG_CH_CTL_enable 0 c).wr F.SWG_CH_STAT_referenced 0 c).swage = s.swage := rfl
  generalize (s.wr F.SWG_CH_CTL_enable 0 c).wr F.SWG_CH_STAT_referenced 0 c = u at *
  have hdisabled : u.on F.SWG_CH_CTL_enable c = false := (State.on_eq_false _).2 henable
  refine ⟨_, rfl, (u.swgSync_rd _ (by decide)).trans henable, (u.swgSync_rd _ (by decide)).trans href, ?_, hswage⟩
  rw [State.swgSync_state, State.swgCode]
  simp only [humove, State.swgOff, hdisabled, Option.isNone_none, Bool.not_false, Bool.true_or, Bool.true_and, Bool.or_true, if_true]

theorem execSwageDisable_moving {m : SwgMove} (hmove : (s.swg c).move = some m) (hhalt : (s.swg c).halt = none) :
    ∃ t, execSwageDisable c s = .next t ∧ t.rd F.SWG_CH_CTL_enable c = 0 ∧ (t.swg c).halt = some { status := 6, keep := true }
      ∧ t.rd F.SWG_CH_STAT_state c = 2 := by
  obtain ⟨hswg, -, hstate, henable⟩ := State.swgStop_moving (s := s.wr F.SWG_CH_CTL_enable 0 c) (c := c) hmove hhalt 6 true
  simp only [execSwageDisable, State.wr_swg, hmove, Option.isSome_some, if_true]
  refine ⟨_, rfl, henable.trans ?_, by rw [hswg], hstate⟩
  rw [State.rd_wr_same _ (by decide)]
  rfl

theorem execSwageClear_clears (s : State) (c : Fin 16) :
    ∃ t, execSwageClear c s = .next t ∧ t.rd F.SWG_CH_STAT_limit_chatter c = 0 ∧ t.rd F.SWG_CH_STAT_link_fault c = 0
      ∧ t.rd F.SWG_CH_STAT_stage_fault c = 0 ∧ t.swage = s.swage ∧ t.hif = s.hif := by
  refine ⟨_, rfl, ?_, ?_, ?_, rfl, rfl⟩
  · rw [State.swgSync_rd _ _ (by decide), State.rd_wr_sep _ (by decide), State.rd_wr_sep _ (by decide), State.rd_wr_same _ (by decide)]
    rfl
  · rw [State.swgSync_rd _ _ (by decide), State.rd_wr_sep _ (by decide), State.rd_wr_same _ (by decide)]
    rfl
  · rw [State.swgSync_rd _ _ (by decide), State.rd_wr_same _ (by decide)]
    rfl

theorem execHomingSettleEnd_references {m : SwgMove} (hmove : (s.swg c).move = some m) (hhome : m.home = some .settle)
    (hhalt : (s.swg c).halt = none) :
    ∃ t, execHomingSettleEnd c s = .next t ∧ (t.swg c).pos = m.reference * 2 ^ 32 ∧ t.rd F.SWG_CH_STAT_referenced c = 1
      ∧ (t.swg c).linkPos (s.on F.SWG_CH_CFG_dir c) = (s.swg c).linkPos (s.on F.SWG_CH_CFG_dir c)
      ∧ (t.swg c).move = some { m with home := some .backoff, target := if m.negative then m.reference + m.backoff else m.reference - m.backoff } := by
  have hgo : ¬ (m.home ≠ some .settle ∨ (s.swg c).halt.isSome = true) := by simp [hhome, hhalt]
  unfold execHomingSettleEnd
  dsimp only
  rw [hmove]
  dsimp only
  rw [if_neg hgo]
  generalize ms m.settleMs = wait
  have hdir : (s.advanceTo ((s.swg c).stood + wait)).on F.SWG_CH_CFG_dir c = s.on F.SWG_CH_CFG_dir c := rfl
  rw [hdir]
  generalize s.advanceTo ((s.swg c).stood + wait) = u
  refine ⟨_, rfl, ?_⟩
  rw [State.swgSync_swg, State.wr_swg, State.swg_setSwg_same, State.swgSync_rd _ _ (by decide), State.rd_wr_same _ (by decide)]
  refine ⟨rfl, rfl, ?_, rfl⟩
  unfold SwgCh.linkPos
  dsimp only
  omega

theorem execHoldCurrentDelay_holds (hmove : (s.swg c).move = none) (hdrive : s.swgOff c = false) :
    ∃ t, execHoldCurrentDelay c s = .next t ∧ (t.swg c).current = s.rd F.SWG_CH_CUR_hold c
      ∧ (s.swg c).stood + ms (s.rd F.SWG_CH_CUR_hold_delay c) ≤ t.tick ∧ t.regs = s.regs := by
  simp only [execHoldCurrentDelay, hmove, hdrive, Option.isSome_none, Bool.false_eq_true, or_self, if_false]
  generalize (s.swg c).stood + ms (s.rd F.SWG_CH_CUR_hold_delay c) = due
  refine ⟨_, rfl, ?_, s.le_advanceTo_tick due, rfl⟩
  rw [State.swg_setSwg_same]
  rfl

theorem execHoldCurrentDelay_nothing (h : (s.swg c).move ≠ none ∨ s.swgOff c = true) : execHoldCurrentDelay c s = .next s := by
  unfold execHoldCurrentDelay
  dsimp only
  rw [if_pos]
  exact h.imp_left Option.isSome_iff_ne_none.2

end Registers

/-- Settles O31: an operation by the motion it starts or stops and its outcome, a register by what it changes of the channel. -/
theorem swageOperations : Obligations.SwageOperations := by
  unfold Obligations.SwageOperations
  refine ⟨?_, fun s r d => execSwgMove_fast, fun s r d => execSwgStop_standing, fun s r d m => execSwgStop_moving,
    fun s r d m => execSwgResume_moving, fun s r d => execSwgResume_nothing, fun s r d m => execSwgResume_resumes, ?_, ?_,
    execSwageAccelWrite_records, fun s c m => execSwageStopRequest_ramps, fun s c => execSwageStopRequest_standing,
    fun s c => execSwageEnable_enables, fun s c => execSwageDisable_standing, fun s c m => execSwageDisable_moving, execSwageClear_clears,
    fun s c m => execHomingSettleEnd_references, fun s c => execHoldCurrentDelay_holds, fun s c => execHoldCurrentDelay_nothing⟩
  · intro s r d hstart hmode hspeed hjerk hrange _ hmove henable hfault hchatter hpos hneg
    exact execSwgMove_starts hstart hmode hspeed hjerk hrange hmove (State.swgRefused_none henable hfault hchatter hpos hneg)
  · intro s r d hstart hspeed _ hmove henable hfault hchatter hpos hneg
    exact execSwgHome_starts hstart hspeed hmove (State.swgRefused_none henable hfault hchatter hpos hneg)
  · intro s r d hstart ha hb hj _
    exact execSwgSetAccel_waits hstart ha hb hj

end Sys2Proof.Machine

/-! Proofs about compare and capture units, the cycle and the snapshots of cell time (chapters 1 and 13). -/

namespace Sys2Proof.Machine

theorem uns_natCast (n x : Nat) : uns n (x : Int) = x % 2 ^ n := by
  rw [uns, ← Int.natCast_emod, Int.toNat_natCast]

namespace State

variable (s : State)

/-! ## Time passes -/

@[simp] theorem ticks_rd (n : Nat) (f : Fld) (i j : Nat) : (s.ticks n).rd f i j = s.rd f i j := rfl
@[simp] theorem ticks_on (n : Nat) (f : Fld) (i j : Nat) : (s.ticks n).on f i j = s.on f i j := rfl
@[simp] theorem ticks_capUnit (n u : Nat) : (s.ticks n).capUnit u = s.capUnit u := rfl
@[simp] theorem ticks_mailbox (n m : Nat) : (s.ticks n).mailbox m = s.mailbox m := rfl
@[simp] theorem ticks_tick (n : Nat) : (s.ticks n).tick = s.tick + n := rfl
@[simp] theorem advanceTo_rd (n : Nat) (f : Fld) (i j : Nat) : (s.advanceTo n).rd f i j = s.rd f i j := rfl
@[simp] theorem advanceTo_on (n : Nat) (f : Fld) (i j : Nat) : (s.advanceTo n).on f i j = s.on f i j := rfl

@[simp] theorem advanceCell_regs (t : Nat) : (s.advanceCell t).regs = s.regs := by
  obtain ⟨k, cell, -, h⟩ := s.advanceCell_eq t
  rw [h]

@[simp] theorem advanceCell_rd (t : Nat) (f : Fld) (i j : Nat) : (s.advanceCell t).rd f i j = s.rd f i j := by
  obtain ⟨k, cell, -, h⟩ := s.advanceCell_eq t
  rw [h]
  rfl

@[simp] theorem advanceCell_on (t : Nat) (f : Fld) (i j : Nat) : (s.advanceCell t).on f i j = s.on f i j := by
  rw [State.on, State.on, advanceCell_rd]

@[simp] theorem advanceCell_hif (t : Nat) : (s.advanceCell t).hif = s.hif := by
  obtain ⟨k, cell, -, h⟩ := s.advanceCell_eq t
  rw [h]

@[simp] theorem advanceCell_adc (t : Nat) : (s.advanceCell t).adc = s.adc := by
  obtain ⟨k, cell, -, h⟩ := s.advanceCell_eq t
  rw [h]

@[simp] theorem advanceCell_capUnit (t u : Nat) : (s.advanceCell t).capUnit u = s.capUnit u := by
  obtain ⟨k, cell, -, h⟩ := s.advanceCell_eq t
  rw [h]
  rfl

@[simp] theorem advanceCell_mailbox (t m : Nat) : (s.advanceCell t).mailbox m = s.mailbox m := by
  obtain ⟨k, cell, -, h⟩ := s.advanceCell_eq t
  rw [h]
  rfl

@[simp] theorem advanceCell_cmpTarget (t u : Nat) : (s.advanceCell t).cmpTarget u = s.cmpTarget u := by
  rw [cmpTarget, cmpTarget, rd64, rd64, advanceCell_rd, advanceCell_rd]

theorem advanceCell_onlyWords (t : Nat) (l : List Nat) : s.OnlyWords (s.advanceCell t) l := by
  obtain ⟨k, cell, -, h⟩ := s.advanceCell_eq t
  rw [h]
  exact fun _ _ => rfl

theorem takesEvent_advanceCell {src : Nat} (h : s.takesEvent src) (t : Nat) : (s.advanceCell t).takesEvent src := by
  obtain ⟨k, cell, -, heq⟩ := s.advanceCell_eq t
  rw [heq]
  exact h

/-! ## Compare units -/

@[simp] theorem unwake_rd (u : Nat) (f : Fld) (i j : Nat) : (s.unwake u).rd f i j = s.rd f i j := rfl
@[simp] theorem unwake_cmpDiff (u k : Nat) : (s.unwake u).cmpDiff k = s.cmpDiff k := rfl

@[simp] theorem unwake_cmpTarget (u k : Nat) : (s.unwake u).cmpTarget k = s.cmpTarget k := rfl
@[simp] theorem unwake_hif (u : Nat) : (s.unwake u).hif = s.hif := rfl

theorem cmpDiff_arm (v u : Nat) : (s.wr F.TIM_CMP_CFG_arm v u).cmpDiff u = s.cmpDiff u := by
  simp (disch := decide) only [cmpDiff, cmpTarget, rd64, rd_wr_sep]
  rfl

/-- A word pair of 64 bits reads back. -/
theorem cmpTarget_set (v u : Nat) : (s.wr64 F.TIM_CMP_T_LO_t F.TIM_CMP_T_HI_t v u).cmpTarget u = v % 2 ^ 64 := by
  have hlo : (s.wr64 F.TIM_CMP_T_LO_t F.TIM_CMP_T_HI_t v u).rd F.TIM_CMP_T_LO_t u = v % 2 ^ 32 := by
    rw [wr64, rd_wr_sep _ (by decide), rd_wr_same _ (by decide)]
    simp only [F.TIM_CMP_T_LO_t]
    omega
  have hhi : (s.wr64 F.TIM_CMP_T_LO_t F.TIM_CMP_T_HI_t v u).rd F.TIM_CMP_T_HI_t u = v / 2 ^ 32 % 2 ^ 32 := by
    rw [wr64, rd_wr_same _ (by decide)]
    exact Nat.mod_mod _ _
  rw [cmpTarget, rd64, hlo, hhi]
  simp only [F.TIM_CMP_T_LO_t]
  omega

/-- A match without an action shows and takes the next target. -/
theorem cmpFire_plain {u : Nat} (hact : s.rd F.TIM_CMP_CFG_action u = 0) : s.cmpFire u = (s.wr F.TIM_CMP_CFG_fired 1 u).cmpReload u := by
  have h : (s.wr F.TIM_CMP_CFG_fired 1 u).cmpAct u = s.wr F.TIM_CMP_CFG_fired 1 u := by
    simp (disch := decide) only [cmpAct, rd_wr_sep, hact]
    rfl
  rw [cmpFire, h]

/-- The next target is ahead: no period is skipped. -/
theorem cmpReload_ahead {u p : Nat} (hper : s.rd F.TIM_CMP_PER_period u = p) (hp : 100 ≤ p)
    (hnext : cellDiff s.cellNs (uns 64 (s.cmpTarget u + p : Nat)) < 0) :
    s.cmpReload u = (s.wr64 F.TIM_CMP_T_LO_t F.TIM_CMP_T_HI_t (uns 64 (uns 64 (s.cmpTarget u + p : Nat) + 0 * p : Nat)) u).unwake u := by
  rw [cmpReload]
  dsimp only
  rw [hper, if_neg (by omega), Nat.max_eq_right hp, if_pos hnext, if_pos rfl]

/-- A match without an action that ends the unit only disarms it. -/
theorem cmpFire_once {u : Nat} (hper : s.rd F.TIM_CMP_PER_period u = 0) (hact : s.rd F.TIM_CMP_CFG_action u = 0) :
    s.cmpFire u = (s.wr F.TIM_CMP_CFG_fired 1 u).wr F.TIM_CMP_CFG_arm 0 u := by
  have hper' : (s.wr F.TIM_CMP_CFG_fired 1 u).rd F.TIM_CMP_PER_period u = 0 := by rw [rd_wr_sep _ (by decide), hper]
  rw [s.cmpFire_plain hact, cmpReload]
  dsimp only
  rw [hper', if_pos rfl]

theorem cmpFire_once_shows {u : Nat} (hper : s.rd F.TIM_CMP_PER_period u = 0) (hact : s.rd F.TIM_CMP_CFG_action u = 0) :
    (s.cmpFire u).rd F.TIM_CMP_CFG_arm u = 0 ∧ (s.cmpFire u).rd F.TIM_CMP_CFG_fired u = 1 := by
  rw [s.cmpFire_once hper hact]
  exact ⟨rd_wr_same _ (by decide), by rw [rd_wr_sep _ (by decide)]; exact rd_wr_same _ (by decide)⟩

end State

variable {s : State}

theorem execCompareArm_ahead {u : Fin 32} (hu : 2 ≤ u.val) (harm : s.on F.TIM_CMP_CFG_arm u = false) (hd : s.cmpDiff u < 0) :
    ∃ t, execCompareArm u s = .next t ∧ t.rd F.TIM_CMP_CFG_arm u = 1 ∧ t.rd F.TIM_CMP_CFG_fired u = s.rd F.TIM_CMP_CFG_fired u
      ∧ s.OnlyWords t [F.TIM_CMP_CFG_arm.addr u 0] ∧ t.hif = s.hif := by
  have hstart : ¬ (u.val < 2 ∨ s.on F.TIM_CMP_CFG_arm u = true) := fun h => h.elim (by omega) (by simp [harm])
  have hahead : ((s.wr F.TIM_CMP_CFG_arm 1 u).unwake u).cmpDiff u < 0 := by rwa [State.unwake_cmpDiff, State.cmpDiff_arm]
  refine ⟨(s.wr F.TIM_CMP_CFG_arm 1 u).unwake u, ?_, State.rd_wr_same _ (by decide), State.rd_wr_sep _ (by decide),
    (State.OnlyWords.refl s _).wr (List.mem_singleton_self _), rfl⟩
  unfold execCompareArm
  rw [if_neg hstart]
  exact if_pos hahead

theorem execCompareArm_late {u : Fin 32} (hu : 2 ≤ u.val) (harm : s.on F.TIM_CMP_CFG_arm u = false) (hd : 0 ≤ s.cmpDiff u)
    (hper : s.rd F.TIM_CMP_PER_period u = 0) (hact : s.rd F.TIM_CMP_CFG_action u = 0) (hev : s.takesEvent 69) :
    ∃ t, execCompareArm u s = .next t ∧ t.rd F.TIM_CMP_CFG_arm u = 0 ∧ t.rd F.TIM_CMP_CFG_fired u = 1
      ∧ (t.rd F.TIM_ERR_cmp_late).testBit u = true ∧ t.hasEvent 69 1 u ∧ t.tick = s.tick + 1 := by
  have hstart : ¬ (u.val < 2 ∨ s.on F.TIM_CMP_CFG_arm u = true) := fun h => h.elim (by omega) (by simp [harm])
  have hlate : ¬ ((s.wr F.TIM_CMP_CFG_arm 1 u).unwake u).cmpDiff u < 0 := by
    rw [State.unwake_cmpDiff, State.cmpDiff_arm]
    omega
  obtain ⟨v, hv⟩ : ∃ v, v = ((s.wr F.TIM_CMP_CFG_arm 1 u).unwake u).ticks 1 := ⟨_, rfl⟩
  have hvrd {f : Fld} (h : f.Sep F.TIM_CMP_CFG_arm) : v.rd f u = s.rd f u := by
    rw [hv]
    exact State.rd_wr_sep _ h
  have hvev : (v.wrBit F.TIM_ERR_cmp_late u true).takesEvent 69 := by
    rw [hv]
    exact State.takesEvent_wr (State.takesEvent_wr hev (Fld.addr_ne_of_off (m := 128) (by decide) u.isLt (by decide))) (by decide)
  obtain ⟨w, hw⟩ : ∃ w, w = (v.wrBit F.TIM_ERR_cmp_late u true).raise 69 1 u (detail [(0, 1)]) := ⟨_, rfl⟩
  have hrd {f : Fld} (h1 : f.Sep F.TIM_CMP_CFG_arm) (h2 : f.Off F.TIM_ERR_cmp_late 32 1) (h3 : f.NoEvent 32) :
      w.rd f u = s.rd f u := by
    rw [hw, State.raise_rd_below _ _ _ _ (by decide) u.isLt h3, State.wrBit_eq,
      State.rd_wr_off (n := 1) _ u.isLt (by decide) h2, hvrd h1]
  have hfire := w.cmpFire_once ((hrd (by decide) (by decide) (by decide)).trans hper) ((hrd (by decide) (by decide) (by decide)).trans hact)
  have hshows := w.cmpFire_once_shows ((hrd (by decide) (by decide) (by decide)).trans hper)
    ((hrd (by decide) (by decide) (by decide)).trans hact)
  refine ⟨w.cmpFire u, ?_, hshows.1, hshows.2, ?_, ?_, ?_⟩
  · unfold execCompareArm
    rw [if_neg hstart]
    refine (if_neg hlate).trans ?_
    rw [hw, hv]
  · have hlo : F.TIM_ERR_cmp_late.addr 0 0 ≠ F.TIM_CMP_CFG_arm.addr u 0 :=
      Fld.addr_ne_of_off (m := 1) (by decide) u.isLt (by decide)
    have hlf : F.TIM_ERR_cmp_late.addr 0 0 ≠ F.TIM_CMP_CFG_fired.addr u 0 :=
      Fld.addr_ne_of_off (m := 1) (by decide) u.isLt (by decide)
    rw [hfire, State.rd_wr_ne _ hlo, State.rd_wr_ne _ hlf, hw, State.raise_rd _ _ _ _ (by decide) (by decide)]
    exact (v.bitAt_rd_wrBit (by exact u.isLt) (by decide)).trans (if_pos rfl)
  · rw [hfire]
    have hraise : w.hasEvent 69 1 u := hw ▸ State.raise_hasEvent _ _ _ hvev
    exact hraise
  · rw [hfire]
    change w.tick = _
    rw [hw, State.raise_tick, hv]
    rfl

theorem execCompareDisarm_ahead {u : Fin 32} (hu : 2 ≤ u.val) (harm : s.on F.TIM_CMP_CFG_arm u = true) (hd : s.cmpDiff u < 0) :
    execCompareDisarm u s = .next (s.wr F.TIM_CMP_CFG_arm 0 u) := by
  have hstart : ¬ (u.val < 2 ∨ (!s.on F.TIM_CMP_CFG_arm u) = true) := fun h => h.elim (by omega) (by simp [harm])
  rw [execCompareDisarm, if_neg hstart, if_neg (by omega)]

/-- A disarming loses to a match that is due. -/
theorem execCompareDisarm_due {u : Fin 32} (hu : 2 ≤ u.val) (harm : s.on F.TIM_CMP_CFG_arm u = true) (hd : 0 ≤ s.cmpDiff u)
    (hper : s.rd F.TIM_CMP_PER_period u = 0) (hact : s.rd F.TIM_CMP_CFG_action u = 0) :
    ∃ t, execCompareDisarm u s = .next t ∧ t.rd F.TIM_CMP_CFG_arm u = 0 ∧ t.rd F.TIM_CMP_CFG_fired u = 1 := by
  have hstart : ¬ (u.val < 2 ∨ (!s.on F.TIM_CMP_CFG_arm u) = true) := fun h => h.elim (by omega) (by simp [harm])
  refine ⟨(s.cmpFire u).wr F.TIM_CMP_CFG_arm 0 u, ?_, State.rd_wr_same _ (by decide), ?_⟩
  · rw [execCompareDisarm, if_neg hstart, if_pos hd]
  · rw [State.rd_wr_sep _ (by decide)]
    exact (s.cmpFire_once_shows hper hact).2

theorem compare_idle {u : Fin 32} (h : u.val < 2 ∨ s.on F.TIM_CMP_CFG_arm u = false) :
    execCompareDisarm u s = .next s ∧ execCompareMatch u s = .next s ∧ execAdcWake u s = .next s := by
  have hstart : u.val < 2 ∨ (!s.on F.TIM_CMP_CFG_arm u) = true := by simpa using h
  refine ⟨?_, ?_, ?_⟩
  · rw [execCompareDisarm, if_pos hstart]
  · rw [execCompareMatch, if_pos hstart]
  · rw [execAdcWake, if_pos (by tauto)]

theorem execCompareMatch_once {u : Fin 32} (hu : 2 ≤ u.val) (harm : s.on F.TIM_CMP_CFG_arm u = true)
    (hper : s.rd F.TIM_CMP_PER_period u = 0) (hact : s.rd F.TIM_CMP_CFG_action u = 0) :
    ∃ t, execCompareMatch u s = .next t ∧ t.rd F.TIM_CMP_CFG_arm u = 0 ∧ t.rd F.TIM_CMP_CFG_fired u = 1
      ∧ s.OnlyWords t [F.TIM_CMP_CFG_arm.addr u 0] ∧ t.tick = (s.advanceCell (s.cmpTarget u)).tick := by
  have hstart : ¬ (u.val < 2 ∨ (!s.on F.TIM_CMP_CFG_arm u) = true) := fun h => h.elim (by omega) (by simp [harm])
  obtain ⟨v, hv⟩ : ∃ v, v = s.advanceCell (s.cmpTarget u) := ⟨_, rfl⟩
  have hrd (f : Fld) : v.rd f u = s.rd f u := by rw [hv, State.advanceCell_rd]
  have hper' := (hrd _).trans hper
  have hact' := (hrd _).trans hact
  have hshows := v.cmpFire_once_shows hper' hact'
  refine ⟨v.cmpFire u, ?_, hshows.1, hshows.2, ?_, ?_⟩
  · rw [execCompareMatch, if_neg hstart, hv]
  · have hsame : s.OnlyWords v [F.TIM_CMP_CFG_arm.addr u 0] := hv ▸ s.advanceCell_onlyWords _ _
    rw [v.cmpFire_once hper' hact']
    exact (hsame.wr (f := F.TIM_CMP_CFG_fired) (List.mem_singleton_self _)).wr (List.mem_singleton_self _)
  · rw [v.cmpFire_once hper' hact', ← hv]
    rfl

theorem execCompareMatch_periodic {u : Fin 32} {p : Nat} (hu : 2 ≤ u.val) (harm : s.on F.TIM_CMP_CFG_arm u = true)
    (hper : s.rd F.TIM_CMP_PER_period u = p) (hp : 100 ≤ p) (hact : s.rd F.TIM_CMP_CFG_action u = 0)
    (hnext : cellDiff (s.advanceCell (s.cmpTarget u)).cellNs (uns 64 (s.cmpTarget u + p : Nat)) < 0) :
    ∃ t, execCompareMatch u s = .next t ∧ t.rd F.TIM_CMP_CFG_arm u = 1 ∧ t.rd F.TIM_CMP_CFG_fired u = 1
      ∧ t.cmpTarget u = (s.cmpTarget u + p) % 2 ^ 64 ∧ t.hif = s.hif := by
  have hstart : ¬ (u.val < 2 ∨ (!s.on F.TIM_CMP_CFG_arm u) = true) := fun h => h.elim (by omega) (by simp [harm])
  obtain ⟨v, hv⟩ : ∃ v, v = s.advanceCell (s.cmpTarget u) := ⟨_, rfl⟩
  obtain ⟨w, hw⟩ : ∃ w, w = v.wr F.TIM_CMP_CFG_fired 1 u := ⟨_, rfl⟩
  have hvrd (f : Fld) : v.rd f u = s.rd f u := by rw [hv, State.advanceCell_rd]
  have hwrd {f : Fld} (h : f.Sep F.TIM_CMP_CFG_fired) : w.rd f u = s.rd f u := by rw [hw, State.rd_wr_sep _ h, hvrd]
  have htarget : w.cmpTarget u = s.cmpTarget u := by
    simp only [State.cmpTarget, State.rd64, hwrd (f := F.TIM_CMP_T_LO_t) (by decide), hwrd (f := F.TIM_CMP_T_HI_t) (by decide)]
  have hcell : w.cellNs = (s.advanceCell (s.cmpTarget u)).cellNs := by
    rw [hw, hv]
    rfl
  have hreload := w.cmpReload_ahead ((hwrd (by decide)).trans hper) hp (by rwa [hcell, htarget])
  have hfire := (v.cmpFire_plain ((hvrd _).trans hact)).trans (by rw [← hw, hreload])
  have hsep (x : Nat) {f : Fld} (h1 : f.Sep F.TIM_CMP_T_LO_t) (h2 : f.Sep F.TIM_CMP_T_HI_t) :
      ((w.wr64 F.TIM_CMP_T_LO_t F.TIM_CMP_T_HI_t x u).unwake u).rd f u = w.rd f u := by
    rw [State.unwake_rd, State.wr64, State.rd_wr_sep _ h2, State.rd_wr_sep _ h1]
  refine ⟨v.cmpFire u, by rw [execCompareMatch, if_neg hstart, hv], ?_, ?_, ?_, ?_⟩
  · rw [hfire, hsep _ (by decide) (by decide), hwrd (by decide)]
    exact State.rd_eq_one_of_on _ harm rfl
  · rw [hfire, hsep _ (by decide) (by decide), hw]
    exact State.rd_wr_same _ (by decide)
  · rw [hfire]
    rw [State.unwake_cmpTarget, State.cmpTarget_set, htarget, Nat.zero_mul, Nat.add_zero, uns_natCast, uns_natCast, Nat.mod_mod, Nat.mod_mod]
  · rw [hfire, State.unwake_hif, State.wr64, State.wr_hif, State.wr_hif, hw, State.wr_hif, hv, State.advanceCell_hif]

theorem execAdcWake_wakes {u : Fin 32} {q : Nat} (hu : 2 ≤ u.val) (harm : s.on F.TIM_CMP_CFG_arm u = true)
    (hact : s.rd F.TIM_CMP_CFG_action u = 2) (htarget : s.rd F.TIM_CMP_CFG_target u = q) (hq : q < 2)
    (hwaked : lookup (fun _ => false) s.tim.waked u = false) (hoff : s.on F.ADC_SEQ_CTL_enable q = false) :
    ∃ t, execAdcWake u s = .next t ∧ lookup (fun _ => false) t.tim.waked u = true ∧ t.regs = s.regs ∧ t.adc = s.adc := by
  have hstart : ¬ (u.val < 2 ∨ (!s.on F.TIM_CMP_CFG_arm u) = true ∨ s.rd F.TIM_CMP_CFG_action u ≠ 2 ∨ 2 ≤ q
      ∨ lookup (fun _ => false) s.tim.waked u = true) := by
    rw [harm, hact, hwaked]
    simp only [Bool.not_true, Bool.false_eq_true, ne_eq, not_true_eq_false, false_or, or_false]
    omega
  obtain ⟨v, hv⟩ : ∃ v, v = s.advanceCell (uns 64 ((s.cmpTarget u : Int) - 2000)) := ⟨_, rfl⟩
  refine ⟨{ v with tim := { v.tim with waked := store (fun _ => false) v.tim.waked u true } }, ?_, lookup_store_same _ _ _,
    by rw [hv, State.advanceCell_regs], by rw [hv, State.advanceCell_adc]⟩
  have hidle (w : State) (hw : w.on F.ADC_SEQ_CTL_enable q = false) :
      ¬ (w.on F.ADC_SEQ_CTL_enable q = true ∧ w.rd F.ADC_SEQ_CFG_trig q = 1) := by simp [hw]
  unfold execAdcWake
  dsimp only
  rw [htarget, if_neg hstart, if_neg, hv]
  exact hidle _ ((s.advanceCell_on _ _ _ _).trans hoff)

/-! ## Capture units -/

namespace State

variable (s : State)

@[simp] theorem capUnit_setCapUnit_same (u : Nat) (v : CapUnit) : (s.setCapUnit u v).capUnit u = v := lookup_store_same _ _ _

/-- The oldest capture is the only one, and its mailbox is Empty: it goes there. -/
theorem capOffer_posts {u : Nat} {c : Capture} (hq : (s.capUnit u).queue = [c]) (hst : (s.mailbox (128 + u)).st = .empty) :
    s.capOffer u = ((s.setCapUnit u { s.capUnit u with queue := [] }).wr F.TIM_CAP_STAT_queued 0 u).post (128 + u)
      (words64 c.time ++ [BitVec.ofNat 32 (b2n c.rising + 256 * min 255 c.lost)]) := by
  have hne : ¬ (s.mailbox (128 + u)).st ≠ .empty := not_not.2 hst
  simp only [capOffer, hq, if_neg hne, List.length_nil]

theorem capOffer_waits {u : Nat} (hst : (s.mailbox (128 + u)).st ≠ .empty) : s.capOffer u = s := by
  unfold capOffer
  dsimp only
  split
  · rfl
  · exact if_pos hst

/-- The state in which an edge is taken: its filter has passed. -/
def edgeSeen (u : Nat) (t : Nat) : State := (s.advanceCell t).ticks (s.rd F.TIM_CAP_CFG_filt u)

@[simp] theorem edgeSeen_capUnit (u t k : Nat) : (s.edgeSeen u t).capUnit k = s.capUnit k := by simp [edgeSeen]
@[simp] theorem edgeSeen_mailbox (u t m : Nat) : (s.edgeSeen u t).mailbox m = s.mailbox m := by simp [edgeSeen]
@[simp] theorem edgeSeen_rd (u t : Nat) (f : Fld) (i j : Nat) : (s.edgeSeen u t).rd f i j = s.rd f i j := by simp [edgeSeen]
@[simp] theorem edgeSeen_on (u t : Nat) (f : Fld) (i j : Nat) : (s.edgeSeen u t).on f i j = s.on f i j := by simp [edgeSeen]

theorem takesEvent_edgeSeen {src : Nat} (h : s.takesEvent src) (u t : Nat) : (s.edgeSeen u t).takesEvent src :=
  s.takesEvent_advanceCell h t

end State

section
variable {u : Fin 16} {up : Bool} {te : DWord} {k : Fin 3}

/-- An edge that the unit does not ignore joins its queue, or is lost when that is full. -/
theorem execCaptureEdge_queues (hen : s.on F.TIM_CAP_CFG_enable u = true)
    (hedge : bitAt (s.rd F.TIM_CAP_CFG_edge u) (if up then 0 else 1) = true) (hq : (s.capUnit u).queue.length < 8) :
    execCaptureEdge u up te k s = .next ((((s.edgeSeen u (uns 64 (te.toNat + k.val : Nat))).setCapUnit u
      { queue := (s.capUnit u).queue ++ [{ time := uns 64 (te.toNat + k.val : Nat), rising := up, lost := (s.capUnit u).lostSince }]
        lostSince := 0, lostReported := (s.capUnit u).lostReported }).wr F.TIM_CAP_STAT_queued ((s.capUnit u).queue.length + 1) u).capOffer u) := by
  have hstart : ¬ ((!s.on F.TIM_CAP_CFG_enable u || !bitAt (s.rd F.TIM_CAP_CFG_edge u) (if up then 0 else 1)) = true) := by
    rw [hen, hedge]
    decide
  unfold execCaptureEdge
  rw [if_neg hstart]
  generalize uns 64 (te.toNat + k.val : Nat) = t
  generalize hv : (s.advanceCell t).ticks (s.rd F.TIM_CAP_CFG_filt u) = v
  have hunit : v.capUnit u = s.capUnit u := by simp [← hv]
  have hseen : s.edgeSeen u t = v := hv
  dsimp only
  rw [hv, hunit, if_neg (by omega), hseen]

theorem execCaptureEdge_loses (hen : s.on F.TIM_CAP_CFG_enable u = true)
    (hedge : bitAt (s.rd F.TIM_CAP_CFG_edge u) (if up then 0 else 1) = true) (hq : 8 ≤ (s.capUnit u).queue.length)
    (hlost : s.rd F.TIM_CAP_STAT_lost u = 0) (hev : s.takesEvent 70) :
    ∃ t, execCaptureEdge u up te k s = .next t ∧ (t.capUnit u).queue = (s.capUnit u).queue ∧ t.rd F.TIM_CAP_STAT_lost u = 1
      ∧ t.hasEvent 70 1 u := by
  have hstart : ¬ ((!s.on F.TIM_CAP_CFG_enable u || !bitAt (s.rd F.TIM_CAP_CFG_edge u) (if up then 0 else 1)) = true) := by
    rw [hen, hedge]
    decide
  obtain ⟨v, hv⟩ : ∃ v, v = s.edgeSeen u (uns 64 (te.toNat + k.val : Nat)) := ⟨_, rfl⟩
  have hunit : v.capUnit u = s.capUnit u := by rw [hv, s.edgeSeen_capUnit]
  have hvlost : v.rd F.TIM_CAP_STAT_lost u = 0 := by rw [hv, s.edgeSeen_rd, hlost]
  have htold : ¬ v.on F.TIM_CAP_STAT_lost u = true := by rw [v.on_eq_false.2 hvlost]; decide
  have hvev : v.takesEvent 70 := hv ▸ s.takesEvent_edgeSeen hev _ _
  obtain ⟨w, hw⟩ : ∃ w, w = (v.setCapUnit u {
    queue := (s.capUnit u).queue, lostSince := (s.capUnit u).lostSince + 1, lostReported := (s.capUnit u).lostReported }).bump F.TIM_CAP_STAT_lost u :=
    ⟨_, rfl⟩
  have hwev : w.takesEvent 70 := by
    rw [hw, State.bump_eq]
    exact State.takesEvent_wr hvev (Fld.addr_ne_of_off (m := 128) (by decide) u.isLt (by decide))
  have hwunit : w.capUnit u = {
    queue := (s.capUnit u).queue, lostSince := (s.capUnit u).lostSince + 1, lostReported := (s.capUnit u).lostReported } := by
    rw [hw]
    exact v.capUnit_setCapUnit_same _ _
  refine ⟨w.raise 70 1 u 0, ?_, ?_, ?_, State.raise_hasEvent _ _ _ hwev⟩
  · unfold execCaptureEdge
    rw [if_neg hstart]
    generalize uns 64 (te.toNat + k.val : Nat) = t at hv
    have hseen : (s.advanceCell t).ticks (s.rd F.TIM_CAP_CFG_filt u) = v := hv.symm
    dsimp only
    rw [hseen, hunit, if_pos hq, if_neg htold, hw]
  · rw [State.capUnit, State.raise_tim]
    change (w.capUnit u).queue = _
    rw [hwunit]
  · rw [State.raise_rd_below _ _ _ _ (by decide) u.isLt (by decide), hw, State.rd_bump_same _ (by decide)]
    change min _ (v.rd F.TIM_CAP_STAT_lost u + 1) = 1
    rw [hvlost]
    rfl

theorem execCaptureEdge_posts (hen : s.on F.TIM_CAP_CFG_enable u = true)
    (hedge : bitAt (s.rd F.TIM_CAP_CFG_edge u) (if up then 0 else 1) = true) (hq : (s.capUnit u).queue = [])
    (hst : (s.mailbox (128 + u)).st = .empty) :
    ∃ t, execCaptureEdge u up te k s = .next t ∧ (t.capUnit u).queue = [] ∧ (t.capUnit u).lostSince = 0
      ∧ t.rd F.TIM_CAP_STAT_queued u = 0
      ∧ t.mailbox (128 + u) = (s.mailbox (128 + u)).post (words64 (uns 64 (te.toNat + k.val : Nat))
          ++ [BitVec.ofNat 32 (b2n up + 256 * min 255 (s.capUnit u).lostSince)]) := by
  have hqueue := execCaptureEdge_queues (te := te) (k := k) hen hedge (by rw [hq]; decide)
  generalize uns 64 (te.toNat + k.val : Nat) = t at *
  obtain ⟨w, hw⟩ : ∃ w, w = ((s.edgeSeen u t).setCapUnit u {
      queue := (s.capUnit u).queue ++ [{ time := t, rising := up, lost := (s.capUnit u).lostSince }]
      lostSince := 0, lostReported := (s.capUnit u).lostReported }).wr F.TIM_CAP_STAT_queued ((s.capUnit u).queue.length + 1) u := ⟨_, rfl⟩
  have hunit : w.capUnit u = {
      queue := (s.capUnit u).queue ++ [{ time := t, rising := up, lost := (s.capUnit u).lostSince }]
      lostSince := 0, lostReported := (s.capUnit u).lostReported } := by
    rw [hw]
    exact State.capUnit_setCapUnit_same _ _ _
  have hbox : w.mailbox (128 + u) = s.mailbox (128 + u) := by
    rw [hw]
    exact s.edgeSeen_mailbox u t _
  have hone : (w.capUnit u).queue = [{ time := t, rising := up, lost := (s.capUnit u).lostSince }] := by rw [hunit, hq, List.nil_append]
  have hoffer := w.capOffer_posts (u := u) hone (by rw [hbox, hst])
  refine ⟨w.capOffer u, hqueue.trans (congrArg (fun v : State => Host.Outcome.next (v.capOffer u)) hw.symm), ?_⟩
  rw [hoffer]
  refine ⟨?_, ?_, State.rd_wr_same _ (by decide), ?_⟩
  · exact congrArg CapUnit.queue (w.capUnit_setCapUnit_same _ _)
  · refine (congrArg CapUnit.lostSince (w.capUnit_setCapUnit_same _ _)).trans ?_
    rw [hunit]
  · rw [State.post, State.mailbox_setMailbox_same]
    change (w.mailbox _).post _ = _
    rw [hbox]

theorem execCaptureEdge_keeps (hen : s.on F.TIM_CAP_CFG_enable u = true)
    (hedge : bitAt (s.rd F.TIM_CAP_CFG_edge u) (if up then 0 else 1) = true) (hq : (s.capUnit u).queue.length < 8)
    (hst : (s.mailbox (128 + u)).st ≠ .empty) :
    ∃ t c, execCaptureEdge u up te k s = .next t ∧ (t.capUnit u).queue = (s.capUnit u).queue ++ [c] ∧ c.rising = up
      ∧ c.time = uns 64 (te.toNat + k.val : Nat) ∧ c.lost = (s.capUnit u).lostSince
      ∧ t.rd F.TIM_CAP_STAT_queued u = ((s.capUnit u).queue.length + 1) % 2 ^ F.TIM_CAP_STAT_queued.width := by
  have hqueue := execCaptureEdge_queues (te := te) (k := k) hen hedge hq
  generalize uns 64 (te.toNat + k.val : Nat) = t at *
  refine ⟨_, { time := t, rising := up, lost := (s.capUnit u).lostSince }, hqueue.trans (congrArg Host.Outcome.next (State.capOffer_waits _ fun h =>
    hst ((congrArg Mailbox.st (s.edgeSeen_mailbox u t _)).symm.trans h))), ?_, rfl, rfl, rfl, State.rd_wr_same _ (by decide)⟩
  exact congrArg CapUnit.queue (State.capUnit_setCapUnit_same _ _ _)

end

/-! ## Cycle, snapshots and pulses -/

theorem execCycleWrite_sets {m : Master} {v : Word} (hm : s.privileged m = true) (hlo : 62500 ≤ v.toNat) (hhi : v.toNat ≤ 4000000)
    (hstep : v.toNat % 25 = 0) (hstop : ∀ g, g < 8 → s.on F.CMB_SEG_STAT_stopped g = true) :
    execCycleWrite m v s = .next (s.wr F.TIM_CYCLE_ns v.toNat) := by
  have hn : v.toNat % 2 ^ 22 = v.toNat := Nat.mod_eq_of_lt (by omega)
  have hany : ¬ (List.range 8).any (fun g => !s.on F.CMB_SEG_STAT_stopped g) = true := by
    rw [List.any_eq_true]
    rintro ⟨g, hg, h⟩
    rw [hstop g (List.mem_range.1 hg)] at h
    exact absurd h (by decide)
  unfold execCycleWrite
  dsimp only
  rw [hm, hn]
  generalize v.toNat = n at *
  rw [if_neg (by decide), if_neg]
  rintro (h | h | h | h)
  exacts [by omega, by omega, h hstep, hany h]

theorem execCycleWrite_running {m : Master} {v : Word} {g : Fin 8} (hm : s.privileged m = true)
    (hrun : s.on F.CMB_SEG_STAT_stopped g = false) : execCycleWrite m v s = .next (s.wrIgnored .plain 0 F.TIM_CYCLE_ns.off) := by
  have hany : (List.range 8).any (fun g => !s.on F.CMB_SEG_STAT_stopped g) = true :=
    List.any_eq_true.2 ⟨g, List.mem_range.2 g.isLt, by rw [hrun]; rfl⟩
  unfold execCycleWrite
  dsimp only
  rw [hm, if_neg (by decide), if_pos (.inr (.inr (.inr hany)))]

theorem execTimeSnapshotRead_keeps (m : Master) :
    ∃ t, execTimeSnapshotRead m s = .next t ∧ t.rdata = BitVec.ofNat 32 s.nowNs ∧ t.regs = s.regs
      ∧ t.snapshotRead m F.TIM_NOW_SEC_LO_sec.off = some (BitVec.ofNat 32 s.nowSec)
      ∧ t.snapshotRead m F.TIM_NOW_FRAC_frac.off = some (BitVec.ofNat 32 s.nowFrac) := by
  refine ⟨_, rfl, rfl, rfl, ?_, ?_⟩
  · rw [State.snapshotRead, lookup_store_same]
    rfl
  · rw [State.snapshotRead, lookup_store_same]
    rfl

theorem execTpoPulseEnd_ends {p : Fin 4} {e : Nat} (h : lookup (fun _ => none) s.tim.pulse p = some e) :
    ∃ t, execTpoPulseEnd p s = .next t ∧ lookup (fun _ => none) t.tim.pulse p = none ∧ e ≤ t.tick ∧ t.regs = s.regs := by
  unfold execTpoPulseEnd
  rw [h]
  exact ⟨_, rfl, lookup_store_same _ _ _, s.le_advanceTo_tick e, rfl⟩

theorem execTpoPulseEnd_none {p : Fin 4} (h : lookup (fun _ => none) s.tim.pulse p = none) : execTpoPulseEnd p s = .next s := by
  unfold execTpoPulseEnd
  rw [h]

/-- Settles O36: a unit's match and its next target (`cmpFire_once`, `cmpReload_ahead`), and an edge's way to the queue or the mailbox
(`execCaptureEdge_queues`, `capOffer_posts`). -/
theorem compareAndCapture : Obligations.CompareAndCapture := by
  unfold Obligations.CompareAndCapture
  refine ⟨fun s u hu harm hd => execCompareArm_ahead hu harm hd,
    fun s u hu harm hd hper hact hev => execCompareArm_late hu harm hd hper hact hev, fun s u h => ?_,
    fun s u hu harm hd => execCompareDisarm_ahead hu harm hd,
    fun s u hu harm hd hper hact => execCompareDisarm_due hu harm hd hper hact, fun s u h => compare_idle h,
    fun s u hu harm hper hact => execCompareMatch_once hu harm hper hact,
    fun s u p hu harm hper hp hact hnext => execCompareMatch_periodic hu harm hper hp hact hnext,
    fun s u q hu harm hact htarget hq hwaked hoff => execAdcWake_wakes hu harm hact htarget hq hwaked hoff,
    fun s u up te k hen hedge hq hst => execCaptureEdge_posts hen hedge hq hst,
    fun s u up te k hen hedge hq hst => execCaptureEdge_keeps hen hedge hq hst,
    fun s u up te k hen hedge hq hlost hev => execCaptureEdge_loses hen hedge hq hlost hev, fun s u up te k hen => ?_,
    fun s m v hm hlo hhi hstep hstop => execCycleWrite_sets hm hlo hhi hstep hstop,
    fun s m v g hm hrun => execCycleWrite_running hm hrun, fun s m => execTimeSnapshotRead_keeps m,
    fun s p e h => execTpoPulseEnd_ends h, fun s p h => execTpoPulseEnd_none h⟩
  · exact if_pos h
  · exact if_pos (by rw [hen]; rfl)

end Sys2Proof.Machine

/-! Proofs about line time, the Ethernet ports and the management frames (chapter 13). -/

namespace Sys2Proof.Machine

namespace State

variable (s : State)

/-! ## The selection of a domain -/

@[simp] theorem syncHoldover_tim : s.syncHoldover.tim = s.tim := rfl
@[simp] theorem syncHoldover_hif : s.syncHoldover.hif = s.hif := rfl
@[simp] theorem syncHoldover_tick : s.syncHoldover.tick = s.tick := rfl

theorem syncHoldover_hasEvent {a b c : Nat} (h : s.hasEvent a b c) : s.syncHoldover.hasEvent a b c := h

theorem syncHoldover_rd {f : Fld} (h : f.Sep F.TIM_STAT_holdover) : s.syncHoldover.rd f = s.rd f 0 0 := s.rd_wr_sep h

@[simp] theorem selectLine_tim (k : Nat) : (s.selectLine k).tim = s.tim := by
  unfold selectLine
  split
  · rfl
  · rw [syncHoldover_tim, raise_tim]
    rfl

@[simp] theorem selectLine_tick (k : Nat) : (s.selectLine k).tick = s.tick := by
  unfold selectLine
  split
  · rfl
  · rw [syncHoldover_tick, raise_tick]
    rfl

theorem selectLine_rd (k : Nat) {f : Fld} (h1 : f.Sep F.TIM_STAT_holdover) (h2 : f.Sep F.TIM_LINE_STAT_selected)
    (h3 : f.addr 0 0 ∉ eventWords) : (s.selectLine k).rd f = s.rd f := by
  unfold selectLine
  split
  · exact s.syncHoldover_rd h1
  · rw [syncHoldover_rd _ h1, raise_rd _ _ _ _ (by decide) h3, rd_wr_sep _ h2]

theorem selectLine_hasEvent (k : Nat) {a b c : Nat} (h : s.hasEvent a b c) : (s.selectLine k).hasEvent a b c := by
  unfold selectLine
  split
  · exact h
  · refine syncHoldover_hasEvent _ (hasEvent_raise _ _ _ _ ?_)
    exact h

/-- The flag that shows whether a domain is valid. -/
def validField (b : Bool) : Fld := if b then F.TIM_LINE_STAT_b_valid else F.TIM_LINE_STAT_a_valid

theorem domainValid_eq (b : Bool) : s.domainValid b = s.on (validField b) := rfl

theorem lineSelect_valid (b : Bool) : s.lineSelect.domainValid b = s.domainValid b := by
  rw [domainValid_eq, domainValid_eq, State.on, State.on, lineSelect]
  cases b
  · rw [s.selectLine_rd _ (by decide) (by decide) (by decide)]
  · rw [s.selectLine_rd _ (by decide) (by decide) (by decide)]

theorem domainDown_of_invalid {b : Bool} (h : s.domainValid b = false) : s.domainDown b = s := by
  rw [domainDown, h]
  rfl

/-- A valid domain that goes shows it and raises its source. -/
theorem domainDown_goes {b : Bool} (h : s.domainValid b = true) (hev : s.takesEvent (if b then 67 else 66)) :
    (s.domainDown b).domainValid b = false ∧ (s.domainDown b).hasEvent (if b then 67 else 66) 1 0xFFFF
      ∧ (s.domainDown b).tick = s.tick := by
  obtain ⟨v, hv⟩ : ∃ v, v = s.wr (validField b) 0 := ⟨_, rfl⟩
  obtain ⟨d, hd⟩ : ∃ d, d = detail [(4, v.thetaOf (if b then 2 else 1))] := ⟨_, rfl⟩
  have hvev : v.takesEvent (if b then 67 else 66) := by
    rw [hv]
    refine takesEvent_wr hev ?_
    cases b <;> decide
  obtain ⟨u, hu⟩ : ∃ u, u = v.raise (if b then 67 else 66) 1 0xFFFF d := ⟨_, rfl⟩
  have hevent : u.hasEvent (if b then 67 else 66) 1 0xFFFF := by
    rw [hu]
    exact raise_hasEvent _ _ _ hvev
  have hdown : s.domainDown b = u.lineSelect := by
    rw [domainDown, h, hu, hd, hv, validField]
    exact if_neg (by decide)
  rw [hdown, lineSelect_valid]
  refine ⟨?_, selectLine_hasEvent _ _ hevent, ?_⟩
  · rw [domainValid_eq, on_eq_false, hu, raise_rd, hv]
    · refine rd_wr_same _ ?_
      cases b <;> decide
    · cases b <;> decide
    · cases b <;> decide
  · rw [lineSelect, selectLine_tick, hu, raise_tick, hv]
    rfl

end State

variable {s : State}

/-- A port in the SLAVE state makes its domain valid. -/
theorem execLineOffsetDelivery_a (th : DWord) (r : Word) (hen : s.on F.TIM_PTP_enable 0 = true) :
    ∃ t, execLineOffsetDelivery false th r true s = .next t ∧ t.rd F.TIM_LINE_STAT_a_valid = 1 ∧ t.tim.domA.last = th.toInt
      ∧ t.tim.domA.rate = r.toInt ∧ t.tim.domA.delivered = s.tick ∧ t.tim.domB = s.tim.domB
      ∧ (s.on F.TIM_LINE_STAT_a_valid = true → t.tim.domA.since = s.tim.domA.since)
      ∧ (s.on F.TIM_LINE_STAT_a_valid = false → t.tim.domA.since = s.tick) := by
  have hstart : ¬ (!s.on F.TIM_PTP_enable (b2n false)) = true := by
    rw [show b2n false = 0 from rfl, hen]
    decide
  unfold execLineOffsetDelivery
  dsimp only
  rw [if_neg hstart, if_pos rfl]
  refine ⟨_, rfl, ?_, ?_⟩
  · rw [State.lineSelect, State.selectLine_rd _ _ (by decide) (by decide) (by decide)]
    exact State.rd_wr_same _ (by decide)
  · rw [State.lineSelect, State.selectLine_tim]
    refine ⟨rfl, rfl, rfl, rfl, fun h => ?_, fun h => ?_⟩
    · exact if_pos h
    · exact if_neg (by rw [State.domainValid_eq, State.validField, if_neg (by decide), h]; decide)

/-- A port that is no slave takes the validity of its domain away. -/
theorem execLineOffsetDelivery_b_lost (th : DWord) (r : Word) (hen : s.on F.TIM_PTP_enable 1 = true)
    (hvalid : s.on F.TIM_LINE_STAT_b_valid = true) (hev : s.takesEvent 67) :
    ∃ t, execLineOffsetDelivery true th r false s = .next t ∧ t.rd F.TIM_LINE_STAT_b_valid = 0 ∧ t.hasEvent 67 1 0xFFFF := by
  have hstart : ¬ (!s.on F.TIM_PTP_enable (b2n true)) = true := by
    rw [show b2n true = 1 from rfl, hen]
    decide
  unfold execLineOffsetDelivery
  dsimp only
  rw [if_neg hstart, if_neg (by decide)]
  generalize (⟨_, _, _, _, _⟩ : Domain) = x
  generalize (s.setDomain true x).thetaOf _ = y
  obtain ⟨v, hv⟩ : ∃ v, v = (s.setDomain true x).wr F.TIM_LINE_OFS_theta y (b2n true) := ⟨_, rfl⟩
  have hvv : v.domainValid true = true := by
    rw [hv, State.domainValid_eq, State.on_eq_true, State.rd_wr_ne _ (by decide)]
    exact (State.on_eq_true _).1 hvalid
  have hvev : v.takesEvent 67 := by
    rw [hv]
    exact State.takesEvent_wr (s := s.setDomain true x) hev (by decide)
  obtain ⟨hoff, hevent, -⟩ := v.domainDown_goes hvv hvev
  rw [← hv]
  exact ⟨_, rfl, (State.on_eq_false _).1 hoff, hevent⟩

theorem execDomainLoss_valid {b : Bool} (h : s.domainValid b = true) (hev : s.takesEvent (if b then 67 else 66)) :
    ∃ t, execDomainLoss b s = .next t ∧ t.domainValid b = false ∧ t.hasEvent (if b then 67 else 66) 1 0xFFFF
      ∧ (s.domain b).delivered + sec (s.rd F.TIM_LINE_CFG_loss) ≤ t.tick := by
  obtain ⟨n, hn⟩ : ∃ n, n = (s.domain b).delivered + sec (s.rd F.TIM_LINE_CFG_loss) := ⟨_, rfl⟩
  obtain ⟨hoff, hevent, htick⟩ := (s.advanceTo n).domainDown_goes (b := b) h hev
  refine ⟨(s.advanceTo n).domainDown b, ?_, hoff, hevent, ?_⟩
  · unfold execDomainLoss
    rw [if_neg (by rw [h]; decide), hn]
  · rw [htick, ← hn]
    exact s.le_advanceTo_tick n

theorem execDomainLoss_invalid {b : Bool} (h : s.domainValid b = false) : execDomainLoss b s = .next s := by
  unfold execDomainLoss
  rw [if_pos (by rw [h]; rfl)]

theorem execDomainRevert_reverts (hsel : s.rd F.TIM_LINE_CFG_select = 0) (hcur : s.rd F.TIM_LINE_STAT_selected = 2)
    (hvalid : s.domainValid false = true) (hlog : s.rd F.TIM_LINE_CFG_revert_log2 ≠ 0) (hev : s.takesEvent 68) :
    ∃ t, execDomainRevert s = .next t ∧ t.rd F.TIM_LINE_STAT_selected = 1 ∧ t.hasEvent 68 1 0xFFFF
      ∧ s.tim.domA.since + sec (2 ^ (s.rd F.TIM_LINE_CFG_revert_log2 + 1)) ≤ t.tick := by
  obtain ⟨n, hn⟩ : ∃ n, n = s.tim.domA.since + sec (2 ^ (s.rd F.TIM_LINE_CFG_revert_log2 + 1)) := ⟨_, rfl⟩
  have hstart : ¬ (s.rd F.TIM_LINE_CFG_select ≠ 0 ∨ s.rd F.TIM_LINE_STAT_selected ≠ 2 ∨ (!s.domainValid false) = true
      ∨ s.rd F.TIM_LINE_CFG_revert_log2 = 0) := by
    rw [hsel, hcur, hvalid]
    simpa using hlog
  have hne : ¬ (s.advanceTo n).rd F.TIM_LINE_STAT_selected = 1 := by rw [State.advanceTo_rd, hcur]; decide
  refine ⟨(s.advanceTo n).selectLine 1, ?_, ?_, ?_, ?_⟩
  · unfold execDomainRevert
    dsimp only
    rw [if_neg hstart, hn]
  · rw [State.selectLine, if_neg hne, State.syncHoldover_rd _ (by decide), State.raise_rd _ _ _ _ (by decide) (by decide)]
    exact State.rd_wr_same _ (by decide)
  · rw [State.selectLine, if_neg hne]
    refine State.syncHoldover_hasEvent _ (State.raise_hasEvent _ _ _ ?_)
    exact State.takesEvent_wr hev (by decide)
  · rw [State.selectLine_tick, ← hn]
    exact s.le_advanceTo_tick n

theorem execDomainRevert_stays (h : s.rd F.TIM_LINE_CFG_select ≠ 0 ∨ s.rd F.TIM_LINE_STAT_selected ≠ 2) : execDomainRevert s = .next s := by
  unfold execDomainRevert
  dsimp only
  rw [if_pos (by tauto)]

/-! ## Links and frames -/

theorem State.on_put_same (s : State) (f : Fld) (b : Bool) (i j : Nat) (hf : f.lo + f.width ≤ 32) (hw : 0 < f.width) :
    (s.put f b i j).on f i j = b := by
  have h : (s.put f b i j).rd f i j = b2n b := (s.rd_wr_same hf).trans (Nat.mod_eq_of_lt (by
    have := Nat.one_lt_two_pow hw.ne'
    cases b
    · simp [b2n]
    · simpa [b2n] using hw.ne'))
  rw [State.on, h]
  cases b <;> rfl

theorem execEthLinkChange_shows (n : Fin 2) (a b c d : Bool) :
    ∃ t, execEthLinkChange n a b c d s = .next t ∧ t.on F.ETH_STAT_link n = a ∧ t.on F.ETH_STAT_lock n = b
      ∧ t.on F.ETH_STAT_los n = c ∧ t.on F.ETH_STAT_present n = d ∧ (a ≠ s.on F.ETH_STAT_link n → t.rd F.ETH_STAT_link_chg n = 1)
      ∧ (a = s.on F.ETH_STAT_link n → t.rd F.ETH_STAT_link_chg n = s.rd F.ETH_STAT_link_chg n)
      ∧ s.OnlyWords t [F.ETH_STAT_link.addr n 0] := by
  obtain ⟨v, hv⟩ : ∃ v, v = (((s.put F.ETH_STAT_link a n).put F.ETH_STAT_lock b n).put F.ETH_STAT_los c n).put F.ETH_STAT_present d n :=
    ⟨_, rfl⟩
  have hlink : v.on F.ETH_STAT_link n = a := by
    rw [hv, State.put_eq, State.on_wr_sep _ (by decide), State.put_eq, State.on_wr_sep _ (by decide), State.put_eq,
      State.on_wr_sep _ (by decide)]
    exact s.on_put_same _ _ _ _ (by decide) (by decide)
  have hlock : v.on F.ETH_STAT_lock n = b := by
    rw [hv, State.put_eq, State.on_wr_sep _ (by decide), State.put_eq, State.on_wr_sep _ (by decide)]
    exact State.on_put_same _ _ _ _ _ (by decide) (by decide)
  have hlos : v.on F.ETH_STAT_los n = c := by
    rw [hv, State.put_eq, State.on_wr_sep _ (by decide)]
    exact State.on_put_same _ _ _ _ _ (by decide) (by decide)
  have hpresent : v.on F.ETH_STAT_present n = d := by
    rw [hv]
    exact State.on_put_same _ _ _ _ _ (by decide) (by decide)
  have hchg : v.rd F.ETH_STAT_link_chg n = s.rd F.ETH_STAT_link_chg n := by
    rw [hv]
    simp (disch := decide) only [State.put_eq, State.rd_wr_sep]
  have hwords : s.OnlyWords v [F.ETH_STAT_link.addr n 0] := by
    rw [hv]
    have hin (f : Fld) (h : f.addr n 0 = F.ETH_STAT_link.addr n 0) : f.addr n 0 ∈ [F.ETH_STAT_link.addr n 0] := List.mem_singleton.2 h
    exact ((((State.OnlyWords.refl s _).wr (hin _ rfl)).wr (hin F.ETH_STAT_lock rfl)).wr (hin F.ETH_STAT_los rfl)).wr
      (hin F.ETH_STAT_present rfl)
  have hexec : execEthLinkChange n a b c d s = .next (if a = s.on F.ETH_STAT_link n then v else v.wr F.ETH_STAT_link_chg 1 n) := by
    rw [hv]
    rfl
  rw [hexec]
  by_cases hsame : a = s.on F.ETH_STAT_link n
  · rw [if_pos hsame]
    exact ⟨v, rfl, hlink, hlock, hlos, hpresent, fun h => absurd hsame h, fun _ => hchg, hwords⟩
  · rw [if_neg hsame]
    refine ⟨_, rfl, ?_, ?_, ?_, ?_, fun _ => State.rd_wr_same _ (by decide), fun h => absurd h hsame,
      hwords.wr (f := F.ETH_STAT_link_chg) (List.mem_singleton_self _)⟩
    · rw [State.on_wr_sep _ (by decide), hlink]
    · rw [State.on_wr_sep _ (by decide), hlock]
    · rw [State.on_wr_sep _ (by decide), hlos]
    · rw [State.on_wr_sep _ (by decide), hpresent]

theorem execEthFrameReceived_bad {n : Fin 2} (f : List Byte) (k : Bool) (hen : s.on F.ETH_CTL_enable n = true) :
    execEthFrameReceived n f false k s = .next (s.bump F.ETH_ERR_fcs n) := by
  unfold execEthFrameReceived
  rw [if_neg (by rw [hen]; decide)]
  rfl

/-- Without zone messages, a frame that is no event message and that firmware takes joins those received. -/
theorem execEthFrameReceived_taken {n : Fin 2} {f : List Byte} (hen : s.on F.ETH_CTL_enable n = true)
    (hzone : s.on F.ETH_ZONE_CFG_enable = false) (htype : etherType f ≠ 0x8808) (hlen : f.length ≤ 1518) (hmode : s.mode ≠ 5)
    (hevent : ptpEvent f = false) :
    execEthFrameReceived n f true true s
      = .next { s.bump F.ETH_RX_FRAMES_count n with tim := { s.tim with ethIn := s.tim.ethIn ++ [f] } } := by
  obtain ⟨v, hv⟩ : ∃ v, v = s.bump F.ETH_RX_FRAMES_count n := ⟨_, rfl⟩
  have hvzone : v.on F.ETH_ZONE_CFG_enable = false := by
    rw [hv, State.bump_eq, State.on_eq_false,
      State.rd_wr_ne _ (Fld.addr_ne_of_off (m := 1) (by decide) n.isLt (by decide))]
    exact (State.on_eq_false _).1 hzone
  have hvmode : v.mode ≠ 5 := by
    rw [hv, State.bump_eq, State.mode, State.rd_wr_ne _ (Fld.addr_ne_of_off (m := 1) (by decide) n.isLt (by decide))]
    exact hmode
  have hkeep : ¬ (etherType f = 0x8808 ∨ (false && !(v.rd F.ETH_ZONE_CFG_port == n.val)) = true ∨ 1518 < f.length ∨ v.mode = 5
      ∨ (!(false && (v.rd F.ETH_ZONE_CFG_port == n.val) && field f 0 6 == v.zoneDst) && !true) = true) := by
    simp only [Bool.false_and, Bool.not_true, Bool.and_false, Bool.false_eq_true, false_or, or_false]
    omega
  unfold execEthFrameReceived
  dsimp only
  rw [if_neg (by rw [hen]; decide), if_neg (by decide), ← hv, hevent, if_neg Bool.false_ne_true, hvzone, Bool.false_and, if_neg hkeep, hv]
  rfl

/-- In SENTINEL an event message is stamped and dropped. -/
theorem execEthFrameReceived_sentinel {n : Fin 2} {f : List Byte} (hen : s.on F.ETH_CTL_enable n = true) (hmode : s.mode = 5)
    (hevent : ptpEvent f = true) :
    ∃ t, execEthFrameReceived n f true true s = .next t ∧ t.tim.ethIn = s.tim.ethIn
      ∧ lookup (fun _ => 0) t.tim.ptp n = uns 64 ((s.cellNs : Int) - (s.rd F.TIM_PTP_LAT_ingress n / 10 : Nat))
      ∧ t.rd F.ETH_ERR_dropped n = min (s.rd F.ETH_ERR_dropped n + 1) (2 ^ F.ETH_ERR_dropped.width - 1) := by
  obtain ⟨v, hv⟩ : ∃ v, v = s.bump F.ETH_RX_FRAMES_count n := ⟨_, rfl⟩
  have hvmode : v.mode = 5 := by
    rw [hv, State.bump_eq, State.mode, State.rd_wr_ne _ (Fld.addr_ne_of_off (m := 1) (by decide) n.isLt (by decide))]
    exact hmode
  have hlat : v.rd F.TIM_PTP_LAT_ingress n = s.rd F.TIM_PTP_LAT_ingress n := by
    rw [hv, State.bump_eq, State.rd_wr_ne _ (Fld.addr_ne_of_off (m := 2) n.isLt n.isLt (by decide))]
  have hcell : v.cellNs = s.cellNs := by rw [hv]; rfl
  have htim : v.tim = s.tim := by rw [hv]; rfl
  have hdropped : v.rd F.ETH_ERR_dropped n = s.rd F.ETH_ERR_dropped n := by rw [hv, State.bump_eq, State.rd_wr_sep _ (by decide)]
  obtain ⟨x, hx⟩ : ∃ x, x = uns 64 ((s.cellNs : Int) - (s.rd F.TIM_PTP_LAT_ingress n / 10 : Nat)) := ⟨_, rfl⟩
  obtain ⟨w, hw⟩ : ∃ w, w = { v with tim := { v.tim with ptp := store (fun _ => 0) v.tim.ptp n x } } := ⟨_, rfl⟩
  have hwmode : w.mode = 5 := by rw [hw]; exact hvmode
  refine ⟨w.bump F.ETH_ERR_dropped n, ?_, ?_, ?_, ?_⟩
  · unfold execEthFrameReceived
    dsimp only
    rw [if_neg (by rw [hen]; decide), if_neg (by decide), ← hv, hevent, if_pos rfl, hcell, hlat, ← hx, ← hw,
      if_pos (.inr (.inr (.inr (.inl hwmode))))]
  · change w.tim.ethIn = _
    rw [hw, htim]
  · change lookup (fun _ => 0) w.tim.ptp n = _
    rw [hw, hx]
    exact lookup_store_same _ _ _
  · rw [State.rd_bump_same _ (by decide), Nat.min_comm]
    rw [hw]
    change min (v.rd F.ETH_ERR_dropped n + 1) _ = _
    rw [hdropped]

/-! ## Management frames -/

/-- The word that a management command writes. -/
def mdioWord (p q : BitVec 5) (op : Nat) (c : Bool) (v : BitVec 16) : Nat :=
  p.toNat + q.toNat * 2 ^ 5 + op * 2 ^ 10 + b2n c * 2 ^ 12 + v.toNat * 2 ^ 16

theorem mdioStart_starts {m : Master} (hm : s.privileged m = true) (hbusy : s.on F.ETH_MDIO_STAT_busy = false) (p q : BitVec 5)
    {op : Nat} (hop : op < 4) (c : Bool) (v : BitVec 16) :
    let t := s.mdioStart m p q op c v
    t.rd F.ETH_MDIO_STAT_busy = 1 ∧ t.tim.mdio = some { op := op, cmd := mdioWord p q op c v, endTick := s.tick + 10240 }
      ∧ t.rd F.ETH_MDIO_CMD_phy = p.toNat ∧ t.rd F.ETH_MDIO_CMD_reg = q.toNat ∧ t.rd F.ETH_MDIO_CMD_c45 = b2n c
      ∧ t.rd F.ETH_MDIO_CMD_data = v.toNat := by
  have hc : b2n c < 2 := by cases c <;> decide
  have hw : (BitVec.ofNat 32 (mdioWord p q op c v)).toNat = mdioWord p q op c v := by
    rw [BitVec.toNat_ofNat]
    refine Nat.mod_eq_of_lt ?_
    have := p.isLt
    have := q.isLt
    have := v.isLt
    simp only [mdioWord]
    omega
  have hstart : s.mdioStart m p q op c v = { (s.setWord F.ETH_MDIO_CMD_phy.off (BitVec.ofNat 32 (mdioWord p q op c v))).wr F.ETH_MDIO_STAT_busy 1
      with tim := { s.tim with mdio := some { op := op, cmd := mdioWord p q op c v, endTick := s.tick + 10240 } } } := by
    unfold State.mdioStart
    rw [if_neg (by rw [hm]; decide), if_neg (by rw [hbusy]; decide)]
    rfl
  have hfield (f : Fld) (h : f.addr 0 0 ≠ F.ETH_MDIO_STAT_busy.addr 0 0) (h' : f.addr 0 0 = F.ETH_MDIO_CMD_phy.off) :
      (s.mdioStart m p q op c v).rd f = mdioWord p q op c v / 2 ^ f.lo % 2 ^ f.width := by
    rw [hstart]
    refine (State.rd_wr_ne _ h).trans ?_
    rw [← h', State.rd_setWord_same, getBits, hw, Nat.shiftRight_eq_div_pow]
  have := p.isLt
  have := q.isLt
  have := v.isLt
  refine ⟨?_, ?_, ?_, ?_, ?_, ?_⟩
  · rw [hstart]
    exact State.rd_wr_same _ (by decide)
  · rw [hstart]
  · rw [hfield _ (by decide) (by decide)]
    simp only [F.ETH_MDIO_CMD_phy, mdioWord]
    omega
  · rw [hfield _ (by decide) (by decide)]
    simp only [F.ETH_MDIO_CMD_reg, mdioWord]
    omega
  · rw [hfield _ (by decide) (by decide)]
    simp only [F.ETH_MDIO_CMD_c45, mdioWord]
    omega
  · rw [hfield _ (by decide) (by decide)]
    simp only [F.ETH_MDIO_CMD_data, mdioWord]
    omega

theorem mdioStart_busy {m : Master} (hm : s.privileged m = true) (hbusy : s.on F.ETH_MDIO_STAT_busy = true) (p q : BitVec 5)
    (op : Nat) (c : Bool) (v : BitVec 16) : s.mdioStart m p q op c v = s.wrIgnored .ethp 0 F.ETH_MDIO_CMD_phy.off := by
  unfold State.mdioStart
  rw [if_neg (by rw [hm]; decide), if_pos hbusy]

theorem execMdioFrameDone_read {w e : Nat} (h : s.tim.mdio = some { op := 0, cmd := w, endTick := e }) (a : Option (BitVec 16)) :
    ∃ t, execMdioFrameDone a s = .next t ∧ t.tim.mdio = none ∧ t.rd F.ETH_MDIO_STAT_busy = 0 ∧ e ≤ t.tick
      ∧ t.rd F.ETH_MDIO_STAT_noresp = b2n a.isNone ∧ ∀ v, a = some v → t.rd F.ETH_MDIO_STAT_data = v.toNat := by
  have htick : e ≤ (s.advanceTo e).tick := s.le_advanceTo_tick e
  unfold execMdioFrameDone
  rw [h]
  dsimp only
  rw [if_neg (by decide)]
  generalize s.advanceTo e = u at htick
  cases a with
  | none =>
    refine ⟨_, rfl, rfl, ?_, htick, State.rd_wr_same _ (by decide), fun v hv => by cases hv⟩
    rw [State.rd_wr_sep _ (by decide)]
    exact State.rd_wr_same u (by decide)
  | some d =>
    refine ⟨_, rfl, rfl, ?_, htick, State.rd_wr_same _ (by decide), fun v hv => ?_⟩
    · rw [State.rd_wr_sep _ (by decide), State.rd_wr_sep _ (by decide)]
      exact State.rd_wr_same u (by decide)
    · cases hv
      rw [State.rd_wr_sep _ (by decide)]
      exact State.rd_wr_lt _ d.isLt (by decide)

theorem execMdioFrameDone_none (h : s.tim.mdio = none) (a : Option (BitVec 16)) : execMdioFrameDone a s = .next s := by
  unfold execMdioFrameDone
  rw [h]

/-- Settles O37: the selection keeps the flags and the events of a domain (`lineSelect_valid`, `selectLine_hasEvent`), and a management
command is one word (`mdioStart_starts`). -/
theorem lineTimeAndEthernet : Obligations.LineTimeAndEthernet := by
  unfold Obligations.LineTimeAndEthernet
  refine ⟨fun s b th r sl h => if_pos (by rw [h]; rfl), fun s th r hen => execLineOffsetDelivery_a th r hen,
    fun s th r hen hv hev => execLineOffsetDelivery_b_lost th r hen hv hev, fun s b hv hev => execDomainLoss_valid hv hev,
    fun s b hv => execDomainLoss_invalid hv, fun s hsel hcur hv hlog hev => execDomainRevert_reverts hsel hcur hv hlog hev,
    fun s h => execDomainRevert_stays h, fun s n a b c d => execEthLinkChange_shows n a b c d,
    fun s n f ok k h => if_pos (by rw [h]; rfl), fun s n f k hen => execEthFrameReceived_bad f k hen,
    fun s n f hen hzone htype hlen hmode hev => execEthFrameReceived_taken hen hzone htype hlen hmode hev,
    fun s n f hen hmode hev => execEthFrameReceived_sentinel hen hmode hev, fun s m p q c v hm hbusy => ⟨?_, ?_, ?_⟩,
    fun s m p q c v hm hbusy => ⟨?_, ?_, ?_⟩, fun s a w e h => execMdioFrameDone_read h a, fun s a h => execMdioFrameDone_none h a⟩
  · obtain ⟨h1, h2, h3, h4, -, -⟩ := mdioStart_starts hm hbusy p q (op := 0) (by decide) c 0
    exact ⟨_, _, rfl, h1, h2, h3, h4⟩
  · obtain ⟨h1, h2, -, -, -, h6⟩ := mdioStart_starts hm hbusy p q (op := 1) (by decide) c v
    exact ⟨_, _, rfl, h1, h2, h6⟩
  · obtain ⟨h1, h2, -, -, h5, h6⟩ := mdioStart_starts hm hbusy p q (op := 2) (by decide) true v
    exact ⟨_, _, rfl, h1, h2, h6, h5⟩
  · exact congrArg Host.Outcome.next (mdioStart_busy hm hbusy p q 0 c 0)
  · exact congrArg Host.Outcome.next (mdioStart_busy hm hbusy p q 1 c v)
  · exact congrArg Host.Outcome.next (mdioStart_busy hm hbusy p q 2 true v)

end Sys2Proof.Machine

/-! Proofs about the commands of the ADC (chapter 16): triggers and runs, samples and results, the queue and its reads. -/

namespace Sys2Proof.Machine

namespace State

variable {s : State} {q : Nat}

/-! ## Runs -/

/-- A trigger that finds the sequencer enabled and without a run starts one. -/
theorem adcTrigger_starts (hen : s.on F.ADC_SEQ_CTL_enable q = true) (hidle : (s.adcSeq q).start = none) (first : Nat) (ext : Bool) :
    s.adcTrigger q first ext = s.adcRun q first ext := by simp [adcTrigger, hen, hidle]

theorem adcRun_shows (first : Nat) (ext : Bool) :
    ((s.adcRun q first ext).adcSeq q).start = some first ∧ ((s.adcRun q first ext).adcSeq q).taken = 0
      ∧ ((s.adcRun q first ext).adcSeq q).ext = ext ∧ (s.adcRun q first ext).rd F.ADC_SEQ_STAT_stopped q = 0
      ∧ (s.adcRun q first ext).rd F.ADC_SEQ_STAT_powered q = s.rd F.ADC_SEQ_STAT_powered q
      ∧ (s.adcRun q first ext).rd F.ADC_SEQ_STAT_runs q = (s.rd F.ADC_SEQ_STAT_runs q + 1) % 2 ^ 16 := by
  have hseq : (s.adcRun q first ext).adcSeq q = { s.adcSeq q with start := some first, taken := 0, ext := ext, stay := false } :=
    s.adcSeq_setAdcSeq_same q _
  rw [hseq]
  refine ⟨rfl, rfl, rfl, rd_wr_same _ (by decide), ?_, ?_⟩
  · rw [adcRun, rd_wr_sep _ (by decide), rd_wr_sep _ (by decide), setAdcSeq_rd]
  · rw [adcRun, rd_wr_sep _ (by decide), rd_wr_same _ (by decide), setAdcSeq_rd]
    rfl

theorem adcWake_shows :
    ((s.adcWake q).adcSeq q).start = (s.adcSeq q).start ∧ (s.adcWake q).rd F.ADC_SEQ_STAT_powered q = 1
      ∧ (s.adcWake q).on F.ADC_SEQ_CTL_enable q = s.on F.ADC_SEQ_CTL_enable q
      ∧ (s.adcWake q).rd F.ADC_SEQ_STAT_runs q = s.rd F.ADC_SEQ_STAT_runs q := by
  refine ⟨?_, rd_wr_same _ (by decide), ?_, ?_⟩
  · rw [adcWake, adcSeq_wr, adcSeq_setAdcSeq_same]
    split
    · rfl
    · rfl
  · rw [adcWake, on_wr_sep _ (by decide), setAdcSeq_on]
  · rw [adcWake, rd_wr_sep _ (by decide), setAdcSeq_rd]

/-! ## Results -/

theorem setAdcSeq_adc (v : AdcSeq) : (s.setAdcSeq q v).adc.queue = s.adc.queue ∧ (s.setAdcSeq q v).adc.lost = s.adc.lost := by
  unfold setAdcSeq
  split
  · exact ⟨rfl, rfl⟩
  · exact ⟨rfl, rfl⟩

/-- The ADC is the same in two states but for what has been told of its inputs. -/
def ToldOf (s t : State) : Prop := ∃ a b, t.adc = { s.adc with owTold := a, limTold := b }

theorem adcReport_told (r : AdcSampleRec) (ow lim : Bool) : s.ToldOf (s.adcReport r ow lim) := by
  have hraise {u : State} (c : Prop) [Decidable c] (src code inst : Nat) (d : DWord) (h : s.ToldOf u) :
      s.ToldOf (if c then u.raise src code inst d else u) := by
    split
    · rwa [ToldOf, raise_adc]
    · exact h
  have how {u : State} (c : Prop) [Decidable c] (x : Nat) (h : s.ToldOf u) :
      s.ToldOf (if c then u else { u with adc := { u.adc with owTold := x } }) := by
    split
    · exact h
    · obtain ⟨a, b, h⟩ := h
      exact ⟨x, b, by rw [h]⟩
  have hlim {u : State} (c : Prop) [Decidable c] (x : Nat) (h : s.ToldOf u) :
      s.ToldOf (if c then u else { u with adc := { u.adc with limTold := x } }) := by
    split
    · exact h
    · obtain ⟨a, b, h⟩ := h
      exact ⟨a, x, by rw [h]⟩
  exact hraise _ _ _ _ _ (hlim _ _ (hraise _ _ _ _ _ (how _ _ ⟨_, _, rfl⟩)))

theorem adcReport_rd (r : AdcSampleRec) (ow lim : Bool) {f : Fld} {i : Nat} (h : f.addr i 0 ∉ eventWords) :
    (s.adcReport r ow lim).rd f i = s.rd f i := by
  have htold (t : State) (c : Prop) [Decidable c] (a : Adc) : (if c then t else { t with adc := a }).rd f i = t.rd f i := by
    split <;> rfl
  have hraise (u : State) (c : Prop) [Decidable c] {src : Nat} (code inst : Nat) (d : DWord) (hsrc : src < 128) :
      (if c then u.raise src code inst d else u).rd f i = u.rd f i := by
    split
    · exact u.raise_rd code inst d hsrc h
    · rfl
  simp only [adcReport]
  rw [hraise _ _ _ _ _ (by decide), htold, hraise _ _ _ _ _ (by decide), htold]

/-- A queue with room takes a result. -/
theorem adcEnqueue_takes (bytes : Bool → List Byte) (hlen : s.adc.queue.length < 512) :
    (s.adcEnqueue bytes).adc = { s.adc with queue := s.adc.queue ++ [bytes s.adc.lost], lost := false }
      ∧ (s.adcEnqueue bytes).rd F.ADC_Q_STAT_count = s.adc.queue.length + 1
      ∧ ∀ f i, (s.adcEnqueue bytes).rd f i = s.rd f i ∨ f.addr i 0 ∈ F.ADC_Q_STAT_count.off :: eventWords := by
  obtain ⟨v, hv⟩ : ∃ v : State, v = { s with adc := { s.adc with queue := s.adc.queue ++ [bytes s.adc.lost], lost := false } } := ⟨_, rfl⟩
  obtain ⟨w, hw⟩ : ∃ w, w = (v.wr F.ADC_Q_STAT_count (s.adc.queue.length + 1)).wr F.ADC_Q_STAT_high
      (max (v.rd F.ADC_Q_STAT_high) (s.adc.queue.length + 1)) := ⟨_, rfl⟩
  have heq : s.adcEnqueue bytes = if s.adc.queue.length + 1 = w.rd F.ADC_Q_CFG_thr then
      w.raise 88 1 0xFFFF (detail [(4, s.adc.queue.length + 1)]) else w := by
    rw [adcEnqueue]
    dsimp only
    rw [if_neg (by omega), ← hv, ← hw]
  have hwadc : w.adc = { s.adc with queue := s.adc.queue ++ [bytes s.adc.lost], lost := false } := by
    rw [hw, wr_adc, wr_adc, hv]
  have hwcount : w.rd F.ADC_Q_STAT_count = s.adc.queue.length + 1 := by
    rw [hw, rd_wr_sep _ (by decide)]
    refine rd_wr_lt _ ?_ (by decide)
    simp only [F.ADC_Q_STAT_count]
    omega
  have hwrd (f : Fld) (i : Nat) (h : f.addr i 0 ∉ F.ADC_Q_STAT_count.off :: eventWords) : w.rd f i = s.rd f i := by
    have hne : f.addr i 0 ≠ F.ADC_Q_STAT_count.addr 0 0 := fun he => h (he ▸ List.mem_cons_self)
    have hne' : f.addr i 0 ≠ F.ADC_Q_STAT_high.addr 0 0 := hne
    rw [hw, rd_wr_ne _ hne', rd_wr_ne _ hne, hv]
    rfl
  have hkeep (f : Fld) (i : Nat) {t : State} (h : f.addr i 0 ∉ F.ADC_Q_STAT_count.off :: eventWords → t.rd f i = s.rd f i) :
      t.rd f i = s.rd f i ∨ f.addr i 0 ∈ F.ADC_Q_STAT_count.off :: eventWords := by
    by_cases hm : f.addr i 0 ∈ F.ADC_Q_STAT_count.off :: eventWords
    · exact .inr hm
    · exact .inl (h hm)
  rw [heq]
  split
  · refine ⟨by rw [raise_adc, hwadc], by rw [raise_rd _ _ _ _ (by decide) (by decide), hwcount], fun f i => hkeep f i fun h => ?_⟩
    rw [raise_rd _ _ _ _ (by decide) (fun hm => h (List.mem_cons_of_mem _ hm)), hwrd f i h]
  · exact ⟨hwadc, hwcount, fun f i => hkeep f i (hwrd f i)⟩

/-- The end of a run touches the record and the status of its sequencer only. -/
theorem adcRunEnd_keeps : ((s.adcRunEnd q).adcSeq q).pending = (s.adcSeq q).pending ∧ (s.adcRunEnd q).adc.queue = s.adc.queue
    ∧ ∀ f i, f.addr i 0 ≠ F.ADC_SEQ_STAT_stopped.addr q 0 → (s.adcRunEnd q).rd f i = s.rd f i := by
  obtain ⟨v, hv⟩ : ∃ v, v = s.setAdcSeq q { s.adcSeq q with start := none, taken := 0, stay := false } := ⟨_, rfl⟩
  have hvseq : (v.adcSeq q).pending = (s.adcSeq q).pending := by rw [hv, adcSeq_setAdcSeq_same]
  have hvqueue : v.adc.queue = s.adc.queue := by rw [hv, (s.setAdcSeq_adc _).1]
  have hwr (u : State) (c : Prop) [Decidable c] (x : Nat) {g : Fld} (hg : g.addr q 0 = F.ADC_SEQ_STAT_stopped.addr q 0) :
      ((if c then u else u.wr g x q).adcSeq q) = u.adcSeq q ∧ (if c then u else u.wr g x q).adc.queue = u.adc.queue
        ∧ ∀ f i, f.addr i 0 ≠ F.ADC_SEQ_STAT_stopped.addr q 0 → (if c then u else u.wr g x q).rd f i = u.rd f i := by
    split
    · exact ⟨rfl, rfl, fun _ _ _ => rfl⟩
    · exact ⟨rfl, rfl, fun f i h => u.rd_wr_ne (by rwa [hg])⟩
  simp only [adcRunEnd, ← hv]
  obtain ⟨h1, h2, h3⟩ := hwr v ((s.adcSeq q).stay = true) 0 (g := F.ADC_SEQ_STAT_powered) rfl
  generalize (if (s.adcSeq q).stay = true then v else v.wr F.ADC_SEQ_STAT_powered 0 q) = w at *
  obtain ⟨h4, h5, h6⟩ := hwr w (w.on F.ADC_SEQ_CTL_enable q = true) 1 (g := F.ADC_SEQ_STAT_stopped) rfl
  refine ⟨by rw [h4, h1, hvseq], by rw [h5, h2, hvqueue], fun f i h => ?_⟩
  rw [h6 f i h, h3 f i h, hv, setAdcSeq_rd]

end State

variable {s : State}

theorem execAdcSoftwareTrigger_starts {q : Fin 2} (hen : s.on F.ADC_SEQ_CTL_enable q = true) (htrig : s.rd F.ADC_SEQ_CFG_trig q = 0)
    (hidle : (s.adcSeq q).start = none) :
    ∃ t, execAdcSoftwareTrigger q s = .next t ∧ (t.adcSeq q).start = some (uns 64 (s.cellNs + s.rd F.ADC_SEQ_CFG_delay q * 40 + 1500 : Nat))
      ∧ (t.adcSeq q).taken = 0 ∧ (t.adcSeq q).ext = true ∧ t.rd F.ADC_SEQ_STAT_powered q = 1 ∧ t.rd F.ADC_SEQ_STAT_stopped q = 0
      ∧ t.rd F.ADC_SEQ_STAT_runs q = (s.rd F.ADC_SEQ_STAT_runs q + 1) % 2 ^ 16 ∧ t.adcSeq (1 - q.val) = s.adcSeq (1 - q.val) := by
  obtain ⟨x, hx⟩ : ∃ x, x = uns 64 (s.cellNs + s.rd F.ADC_SEQ_CFG_delay q * 40 + 1500 : Nat) := ⟨_, rfl⟩
  obtain ⟨hstart, hpow, hon, hruns⟩ := s.adcWake_shows (q := q)
  have htrigger := State.adcTrigger_starts (hon.trans hen) (hstart.trans hidle) x true
  obtain ⟨h1, h2, h3, h4, h5, h6⟩ := (s.adcWake q).adcRun_shows (q := q) x true
  have hother : s.SameAdcSeq (1 - q.val) ((s.adcWake q).adcRun q x true) :=
    (State.SameAdcSeq.adcWake q.isLt (by omega) (by omega)).trans (State.SameAdcSeq.adcRun q.isLt (by omega) (by omega) x true)
  rw [← hx]
  refine ⟨_, ?_, h1, h2, h3, h5.trans hpow, h4, by rw [h6, hruns], hother.seq⟩
  simp only [execAdcSoftwareTrigger, hen, htrig, hidle]
  rw [← htrigger, hx]
  rfl

theorem execAdcTriggerInputEvent_disabled (n : Fin 4) (up : Bool) (h0 : s.on F.ADC_SEQ_CTL_enable 0 = false)
    (h1 : s.on F.ADC_SEQ_CTL_enable 1 = false) : execAdcTriggerInputEvent n up s = .next s := by
  rw [execAdcTriggerInputEvent, State.adcEdge_disabled h0, State.adcEdge_disabled h1]

/-- An edge that finds the converter powered and ready starts a run without a start-up time. -/
theorem execAdcTriggerInputEvent_starts {n : Fin 4} (hoff : s.on F.ADC_SEQ_CTL_enable 1 = false) (hen : s.on F.ADC_SEQ_CTL_enable 0 = true)
    (htrig : s.rd F.ADC_SEQ_CFG_trig 0 = 2) (htin : s.rd F.ADC_SEQ_CFG_tin 0 = n.val) (hedge : s.rd F.ADC_SEQ_CFG_edge 0 = 1)
    (hidle : (s.adcSeq 0).start = none) (hpow : s.on F.ADC_SEQ_STAT_powered 0 = true)
    (hready : cellDiff (s.adcSeq 0).ready (uns 64 (s.cellNs + s.adcDelay 0 : Nat)) ≤ 0) :
    ∃ t, execAdcTriggerInputEvent n true s = .next t ∧ (t.adcSeq 0).start = some (uns 64 (s.cellNs + s.adcDelay 0 : Nat))
      ∧ (t.adcSeq 0).ext = false ∧ t.rd F.ADC_SEQ_STAT_stopped 0 = 0 ∧ t.adcSeq 1 = s.adcSeq 1 := by
  generalize hx : uns 64 (s.cellNs + s.adcDelay 0 : Nat) = x at hready
  obtain ⟨h1, -, h3, h4, -, -⟩ := s.adcRun_shows (q := 0) x false
  have hother : s.SameAdcSeq 1 (s.adcRun 0 x false) := State.SameAdcSeq.adcRun (by decide) (by decide) (by decide) x false
  have hedge0 : s.adcEdge 0 n true = s.adcRun 0 x false := by
    have hgo : ¬ ((!s.on F.ADC_SEQ_CTL_enable 0) = true ∨ s.rd F.ADC_SEQ_CFG_trig 0 ≠ 2 ∨ s.rd F.ADC_SEQ_CFG_tin 0 ≠ n.val) := by
      simp [hen, htrig, htin]
    have hnow : (s.on F.ADC_SEQ_STAT_powered 0 && decide (cellDiff (s.adcSeq 0).ready x ≤ 0)) = true := by
      rw [hpow, decide_eq_true hready]
      rfl
    rw [State.adcEdge]
    dsimp only
    rw [if_neg hgo, hedge, if_neg (by decide), if_pos (by decide), State.adcEvent]
    rw [hx, hidle, if_neg (by decide), if_pos hnow, State.adcTrigger_starts hen hidle]
  refine ⟨s.adcRun 0 x false, ?_, h1, h3, h4, hother.seq⟩
  rw [execAdcTriggerInputEvent, hedge0, State.adcEdge_disabled (by rw [hother.on, hoff])]

theorem execAdcSample_idle {q : Fin 2} (v : BitVec 16) (h : (s.adcSeq q).start = none) : execAdcSample q v s = .next s := by
  simp only [execAdcSample, h]

theorem execAdcSample_samples {q : Fin 2} (v : BitVec 16) {f : Nat} (hstart : (s.adcSeq q).start = some f)
    (hlast : s.rd F.ADC_SEQ_CFG_first q + (s.adcSeq q).taken ≤ s.rd F.ADC_SEQ_CFG_last q) :
    ∃ t r, execAdcSample q v s = .next t ∧ (t.adcSeq q).taken = (s.adcSeq q).taken + 1
      ∧ (t.adcSeq q).pending = (s.adcSeq q).pending ++ [r] ∧ r.code = v ∧ r.entry = s.rd F.ADC_SEQ_CFG_first q + (s.adcSeq q).taken
      ∧ r.time = uns 64 (f + (s.adcSeq q).taken * 1000 : Nat) ∧ r.conf = s.word (F.ADC_ENT_input.addr r.entry 0)
      ∧ (r.last = true ↔ r.entry = s.rd F.ADC_SEQ_CFG_last q) ∧ t.regs = s.regs := by
  unfold execAdcSample
  dsimp only
  rw [hstart]
  dsimp only
  rw [if_neg (by omega)]
  generalize uns 64 (f + (s.adcSeq q).taken * 1000 : Nat) = t
  have hword (off : Nat) : (s.advanceCell t).word off = s.word off := s.advanceCell_onlyWords t [] off (List.not_mem_nil)
  refine ⟨_, _, rfl, congrArg AdcSeq.taken (State.adcSeq_setAdcSeq_same _ _ _), congrArg AdcSeq.pending (State.adcSeq_setAdcSeq_same _ _ _),
    rfl, rfl, rfl, hword _, beq_iff_eq, ?_⟩
  rw [State.setAdcSeq_regs, State.advanceCell_regs]

theorem execAdcResult_none {q : Fin 2} (h : (s.adcSeq q).pending = []) : execAdcResult q s = .next s := by
  simp only [execAdcResult, h]

/-- What the registers of an input take from a result. -/
def State.adcShow (s : State) (r : AdcSampleRec) (ow lim : Bool) : State :=
  let n := getBits r.conf 0 5
  ((((((s.wr F.ADC_LAST_LO_code r.code.toNat n).wr F.ADC_LAST_LO_valid 1 n).put F.ADC_LAST_LO_ow ow n).put F.ADC_LAST_LO_lim lim n).wr
    F.ADC_LAST_LO_diff (getBits r.conf 5 1) n).wr F.ADC_LAST_HI_time r.time n)

theorem State.adcShow_shows (s : State) (r : AdcSampleRec) (ow lim : Bool) :
    (s.adcShow r ow lim).rd F.ADC_LAST_LO_code (getBits r.conf 0 5) = r.code.toNat
      ∧ (s.adcShow r ow lim).rd F.ADC_LAST_LO_valid (getBits r.conf 0 5) = 1
      ∧ (s.adcShow r ow lim).rd F.ADC_LAST_HI_time (getBits r.conf 0 5) = r.time % 2 ^ 32 := by
  refine ⟨?_, ?_, State.rd_wr_same _ (by decide)⟩
  · simp (disch := decide) only [adcShow, State.put_eq, State.rd_wr_sep]
    exact State.rd_wr_lt _ r.code.isLt (by decide)
  · simp (disch := decide) only [adcShow, State.put_eq, State.rd_wr_sep]
    exact State.rd_wr_same _ (by decide)

/-- The oldest pending sample becomes a result that enters the registers of its input and the queue. -/
theorem execAdcResult_enters {q : Fin 2} {r : AdcSampleRec} {l : List AdcSampleRec} (hpend : (s.adcSeq q).pending = r :: l)
    (hn : getBits r.conf 0 5 < 24) (hqueue : getBits r.conf 12 1 = 0) (hlen : s.adc.queue.length < 512) :
    ∃ t, execAdcResult q s = .next t ∧ (t.adcSeq q).pending = l ∧ t.rd F.ADC_LAST_LO_code (getBits r.conf 0 5) = r.code.toNat
      ∧ t.rd F.ADC_LAST_LO_valid (getBits r.conf 0 5) = 1 ∧ t.rd F.ADC_LAST_HI_time (getBits r.conf 0 5) = r.time % 2 ^ 32
      ∧ t.adc.queue = s.adc.queue ++ [r.bytes q (s.rd F.ADC_SEQ_STAT_runs q) (s.adcOw r) (s.adcLim r) s.adc.lost]
      ∧ t.rd F.ADC_Q_STAT_count = s.adc.queue.length + 1 := by
  obtain ⟨v, hv⟩ : ∃ v, v = s.setAdcSeq q { s.adcSeq q with pending := l } := ⟨_, rfl⟩
  obtain ⟨w, hw⟩ : ∃ w, w = v.adcShow r (s.adcOw r) (s.adcLim r) := ⟨_, rfl⟩
  obtain ⟨x, hx⟩ : ∃ x, x = w.adcReport r (s.adcOw r) (s.adcLim r) := ⟨_, rfl⟩
  obtain ⟨bytes, hbytes⟩ : ∃ b, b = fun d => r.bytes q (s.rd F.ADC_SEQ_STAT_runs q) (s.adcOw r) (s.adcLim r) d := ⟨_, rfl⟩
  obtain ⟨y, hy⟩ : ∃ y, y = x.adcEnqueue bytes := ⟨_, rfl⟩
  have hexec : execAdcResult q s = .next (if r.last then y.adcRunEnd q else y) := by
    simp only [execAdcResult, hpend, hqueue]
    rw [hy, hx, hw, hbytes, hv]
    rfl
  have hwadc : w.adc = v.adc := by rw [hw]; rfl
  have hpendv : (v.adcSeq q).pending = l := by rw [hv, State.adcSeq_setAdcSeq_same]
  have hqueuev : v.adc.queue = s.adc.queue ∧ v.adc.lost = s.adc.lost := by rw [hv]; exact s.setAdcSeq_adc _
  obtain ⟨a, b, hxadc⟩ : w.ToldOf x := hx ▸ State.adcReport_told r _ _
  rw [hwadc] at hxadc
  have hxqueue : x.adc.queue = s.adc.queue := by rw [hxadc]; exact hqueuev.1
  have hxlost : x.adc.lost = s.adc.lost := by rw [hxadc]; exact hqueuev.2
  obtain ⟨hyadc, hycount, hyrd⟩ := x.adcEnqueue_takes bytes (by rw [hxqueue]; exact hlen)
  rw [← hy, hxqueue, hxlost] at hyadc
  rw [← hy, hxqueue] at hycount
  have hypend : (y.adcSeq q).pending = l := by
    rw [State.adcSeq, hyadc, hxadc]
    exact hpendv
  have hyqueue : y.adc.queue = s.adc.queue ++ [bytes s.adc.lost] := by rw [hyadc]
  obtain ⟨hcode, hvalid, htime⟩ := v.adcShow_shows r (s.adcOw r) (s.adcLim r)
  rw [← hw] at hcode hvalid htime
  have hlast (f : Fld) (hf : f.off = 0x120200 ∨ f.off = 0x120204) (hs : f.s1 = 8) :
      y.rd f (getBits r.conf 0 5) = w.rd f (getBits r.conf 0 5) := by
    have haddr : f.addr (getBits r.conf 0 5) 0 = f.off + 8 * getBits r.conf 0 5 := by simp [Fld.addr, hs]
    have hev : f.addr (getBits r.conf 0 5) 0 ∉ eventWords := State.notMem_eventWords (by omega)
    rw [hy, ((hyrd f _).resolve_right ?_ : _ = _), hx, State.adcReport_rd _ _ _ hev]
    refine fun h => (List.mem_cons.1 h).elim (fun h => ?_) hev
    rw [haddr] at h
    simp only [F.ADC_Q_STAT_count] at h
    omega
  obtain ⟨hend, hendqueue, hendrd⟩ := y.adcRunEnd_keeps (q := q)
  have hendne (f : Fld) (i : Nat) (hf : 0x120040 ≤ f.off) : f.addr i 0 ≠ F.ADC_SEQ_STAT_stopped.addr q 0 := by
    simp only [Fld.addr, F.ADC_SEQ_STAT_stopped]
    omega
  rw [hexec]
  cases r.last with
  | true =>
    refine ⟨_, rfl, hend.trans hypend, ?_, ?_, ?_, by rw [if_pos rfl, hendqueue, hyqueue, hbytes], ?_⟩
    · rw [if_pos rfl, hendrd _ _ (hendne _ _ (by decide)), hlast _ (by decide) (by decide), hcode]
    · rw [if_pos rfl, hendrd _ _ (hendne _ _ (by decide)), hlast _ (by decide) (by decide), hvalid]
    · rw [if_pos rfl, hendrd _ _ (hendne _ _ (by decide)), hlast _ (by decide) (by decide), htime]
    · rw [if_pos rfl, hendrd _ _ (hendne _ _ (by decide)), hycount]
  | false =>
    refine ⟨_, rfl, hypend, ?_, ?_, ?_, by rw [if_neg (by decide), hyqueue, hbytes], hycount⟩
    · rw [if_neg (by decide), hlast _ (by decide) (by decide), hcode]
    · rw [if_neg (by decide), hlast _ (by decide) (by decide), hvalid]
    · rw [if_neg (by decide), hlast _ (by decide) (by decide), htime]

theorem execAdcQueuePop_empty (m : Master) (h : s.adc.queue = []) :
    ∃ t, execAdcQueuePop m s = .next t ∧ t.rdata.getLsbD 23 = false ∧ t.free = s.free + 1 ∧ t.regs = s.regs ∧ t.adc = s.adc := by
  simp only [execAdcQueuePop, h]
  refine ⟨_, rfl, ?_, rfl, rfl, rfl⟩
  rw [BitVec.getLsbD_and]
  exact Bool.and_false _

theorem execAdcQueuePop_pops (m : Master) {b : List Byte} {l : List (List Byte)} (h : s.adc.queue = b :: l) (hlen : l.length < 1024) :
    ∃ t, execAdcQueuePop m s = .next t ∧ t.rdata = BitVec.ofNat 32 (le (b.take 4)) ∧ t.adc.queue = l
      ∧ lookup (fun _ => []) t.adc.popped (readerKey m) = b.drop 4 ∧ t.rd F.ADC_Q_STAT_count = l.length := by
  simp only [execAdcQueuePop, h]
  exact ⟨_, rfl, rfl, rfl, lookup_store_same _ _ _, State.rd_wr_lt _ hlen (by decide)⟩

theorem execAdcLastRead_copies (m : Master) (n : Fin 24) :
    ∃ t, execAdcLastRead m n s = .next t ∧ t.rdata = s.word (F.ADC_LAST_LO_code.addr n 0) ∧ t.regs = s.regs
      ∧ t.adcCopy m (F.ADC_LAST_HI_time.addr n 0) = some (s.word (F.ADC_LAST_HI_time.addr n 0)) := by
  refine ⟨_, rfl, rfl, rfl, ?_⟩
  have hn := n.isLt
  have hoff : F.ADC_LAST_HI_time.addr n 0 = 0x120204 + 8 * n := by simp [Fld.addr, F.ADC_LAST_HI_time]
  have hpop : ¬ (F.ADC_Q_POP_bytes.off < F.ADC_LAST_HI_time.addr n 0 ∧ (F.ADC_LAST_HI_time.addr n 0 - F.ADC_Q_POP_bytes.off) / 4 < 4
      ∧ F.ADC_LAST_HI_time.addr n 0 % 4 = 0) := by
    rw [hoff]
    simp only [F.ADC_Q_POP_bytes]
    omega
  have hidx : (F.ADC_LAST_HI_time.addr n 0 - F.ADC_LAST_HI_time.off) / 8 = n := by
    rw [hoff]
    simp only [F.ADC_LAST_HI_time]
    omega
  have hlast : F.ADC_LAST_HI_time.off ≤ F.ADC_LAST_HI_time.addr n 0 ∧ n.val < 24 ∧ F.ADC_LAST_HI_time.addr n 0 % 8 = 4 := by
    rw [hoff]
    simp only [F.ADC_LAST_HI_time]
    omega
  unfold State.adcCopy
  dsimp only
  rw [if_neg hpop, hidx, if_pos hlast, lookup_store_same]

/-- A disabled sequencer has stopped when no run is in progress, and otherwise finishes it. -/
theorem execAdcSeqDisable_shows (q : Fin 2) :
    ∃ t, execAdcSeqDisable q s = .next t ∧ t.rd F.ADC_SEQ_CTL_enable q = 0 ∧ t.adc = s.adc
      ∧ ((s.adcSeq q).start = none → t.rd F.ADC_SEQ_STAT_stopped q = 1)
      ∧ ((s.adcSeq q).start ≠ none → t.rd F.ADC_SEQ_STAT_stopped q = s.rd F.ADC_SEQ_STAT_stopped q) := by
  by_cases h : (s.adcSeq q).start = none
  · refine ⟨(s.wr F.ADC_SEQ_CTL_enable 0 q).wr F.ADC_SEQ_STAT_stopped 1 q, ?_, ?_, rfl, fun _ => State.rd_wr_same _ (by decide), fun hn => absurd h hn⟩
    · simp only [execAdcSeqDisable, State.adcSeq_wr, h]
      rfl
    · rw [State.rd_wr_sep _ (by decide)]
      exact State.rd_wr_same _ (by decide)
  · exact ⟨_, execAdcSeqDisable_running h, State.rd_wr_same _ (by decide), rfl, fun hn => absurd hn h, fun _ => State.rd_wr_sep _ (by decide)⟩

/-- Settles O42: a trigger starts a run (`adcTrigger_starts`, `adcRun_shows`), and a sample's way to the registers and the queue
(`execAdcSample_samples`, `execAdcResult_enters`). -/
theorem adcCommands : Obligations.AdcCommands := by
  unfold Obligations.AdcCommands
  exact ⟨fun s q h => execAdcSoftwareTrigger_disabled h, fun s q hen htrig hrun => execAdcSoftwareTrigger_running hrun hen htrig,
    fun s q hen htrig hidle => execAdcSoftwareTrigger_starts hen htrig hidle, fun s n up h0 h1 => execAdcTriggerInputEvent_disabled n up h0 h1,
    fun s n hoff hen htrig htin hedge hidle hpow hready => execAdcTriggerInputEvent_starts hoff hen htrig htin hedge hidle hpow hready,
    fun s q v h => execAdcSample_idle v h, fun s q v f hstart hlast => execAdcSample_samples v hstart hlast,
    fun s q h => execAdcResult_none h, fun s q r l hpend hn hqueue hlen => execAdcResult_enters hpend hn hqueue hlen,
    fun s m h => execAdcQueuePop_empty m h, fun s m b l h hlen => execAdcQueuePop_pops m h hlen, fun s m n => execAdcLastRead_copies m n,
    fun s q => execAdcSeqDisable_shows q⟩

end Sys2Proof.Machine

/-! What later proofs need of Quench (chapters 14 and 15): its behaviour, its safe state, the way to SAFE, and repetitions that set one
entry after another while a fact of the state holds. -/

namespace Sys2Proof.Machine

theorem le_lt (l : List Byte) : le l < 256 ^ l.length := by
  induction l with
  | nil => exact Nat.one_pos
  | cons b l ih =>
    rw [le, List.length_cons, Nat.pow_succ]
    have hb := b.isLt
    omega

theorem field_lt (l : List Byte) (i n : Nat) : field l i n < 256 ^ n :=
  (le_lt _).trans_le (Nat.pow_le_pow_right (by decide) (by simp))

/-- A repetition over the numbers below `n`: while `I` holds, step `k` brings `P` about and no other step ends it. -/
theorem foldl_range_marks {σ : Type} {f : σ → Nat → σ} (I P : σ → Prop) {n k : Nat} (hk : k < n) (hI : ∀ t i, i < n → I t → I (f t i))
    (hset : ∀ t, I t → P (f t k)) (hkeep : ∀ t i, i < n → i ≠ k → I t → P t → P (f t i)) {s : σ} (hs : I s) :
    I ((List.range n).foldl f s) ∧ P ((List.range n).foldl f s) := by
  obtain ⟨d, rfl⟩ : ∃ d, n = k + 1 + d := ⟨n - (k + 1), by omega⟩
  have hfirst : I ((List.range (k + 1)).foldl f s) ∧ P ((List.range (k + 1)).foldl f s) := by
    have hpre : I ((List.range k).foldl f s) := foldl_holds (P := I) (fun t a ha h => hI t a (by have := List.mem_range.1 ha; omega) h) hs
    rw [List.range_succ, List.foldl_append, List.foldl_cons, List.foldl_nil]
    exact ⟨hI _ _ hk hpre, hset _ hpre⟩
  rw [List.range_add, List.foldl_append]
  refine foldl_holds (P := fun t => I t ∧ P t) (fun t a ha h => ?_) hfirst
  obtain ⟨i, hi, rfl⟩ := List.mem_map.1 ha
  have hlt := List.mem_range.1 hi
  exact ⟨hI t _ (by omega) h.1, hkeep t _ (by omega) (by omega) h.1 h.2⟩

namespace State

variable (s : State)

/-! ## The behaviour -/

theorem setBehaviour_word (b : Nat) {off : Nat} (h : off ≠ 0x1A0000) (hev : off ∉ eventWords) : (s.setBehaviour b).word off = s.word off := by
  unfold setBehaviour
  dsimp only
  split
  · rfl
  · rw [raise_word _ _ _ _ (by decide) hev]
    exact s.word_wr_ne F.QNC_STAT_behaviour h

theorem setBehaviour_rd (b : Nat) {f : Fld} {i j : Nat} (h : f.addr i j ≠ 0x1A0000) (hev : f.addr i j ∉ eventWords) :
    (s.setBehaviour b).rd f i j = s.rd f i j := by rw [rd, rd, s.setBehaviour_word b h hev]

/-- The other fields of QNC_STAT. -/
theorem setBehaviour_rd_sep (b : Nat) {f : Fld} (h : f.Sep F.QNC_STAT_behaviour) (hev : f.addr 0 0 ∉ eventWords) :
    (s.setBehaviour b).rd f = s.rd f := by
  unfold setBehaviour
  dsimp only
  split
  · rfl
  · rw [raise_rd _ _ _ _ (by decide) hev, rd_wr_sep _ h]

theorem setBehaviour_behaviour {b : Nat} (hb : b < 8) : (s.setBehaviour b).behaviour = b := by
  unfold setBehaviour
  dsimp only
  split
  · exact Eq.symm ‹_›
  · rw [behaviour, raise_rd _ _ _ _ (by decide) (by decide)]
    exact rd_wr_lt _ hb (by decide)

theorem setBehaviour_same : s.setBehaviour s.behaviour = s := if_pos rfl

@[simp] theorem setBehaviour_quench (b : Nat) : (s.setBehaviour b).quench = s.quench := by
  unfold setBehaviour
  dsimp only
  split
  · rfl
  · rw [raise_quench]
    rfl

@[simp] theorem setBehaviour_upd (b : Nat) : (s.setBehaviour b).upd = s.upd := by
  unfold setBehaviour
  dsimp only
  split
  · rfl
  · rw [raise_upd]
    rfl

@[simp] theorem setBehaviour_tick (b : Nat) : (s.setBehaviour b).tick = s.tick := by
  unfold setBehaviour
  dsimp only
  split
  · rfl
  · rw [raise_tick]
    rfl

theorem dueBehaviour_lt : s.dueBehaviour < 8 := by
  have h : s.dueBehaviour ≤ 4 := by
    unfold dueBehaviour
    dsimp only
    repeat' split
    all_goals omega
  omega

theorem dueBehaviour_safe (h : s.behaviour = 4) : s.dueBehaviour = 4 := if_pos h

/-! ## The safe state -/

/-- The registers that the safe state sets. -/
abbrev SafeWord (off : Nat) : Prop :=
  off = 0x1A0018 ∨ 0x1A0400 ≤ off ∧ off < 0x1A0480 ∨ off = 0x1A0000 ∨ off = F.GLB_KDL_STAT_torque.off

/-- A step of the safe state for one brake. -/
def safeBrake (b : Nat) : State := if s.rd F.QNC_BRK_STAT_state b = 0 then s else s.wr F.QNC_BRK_STAT_state 1 b

/-- A step of the safe state for one chain. -/
def safeChain (c : Nat) : State := ((s.wr F.QNC_CHAIN_STAT_stop 3 c).wr F.QNC_CHAIN_STAT_state 3 c).wr F.QNC_CHAIN_STAT_cause 14 c

theorem safeState_eq : s.safeState = (((List.range 16).foldl safeChain ((List.range 16).foldl safeBrake (s.wr F.QNC_OUT_STAT_on 0))).wr
    F.QNC_STAT_sto_all 1).wr F.GLB_KDL_STAT_torque 0 := rfl

variable {s}

theorem safeBrake_word {b off : Nat} (h : off ≠ 0x1A0440 + 4 * b) : (s.safeBrake b).word off = s.word off := by
  unfold safeBrake
  split
  · rfl
  · exact s.word_wr_ne F.QNC_BRK_STAT_state (by simpa [Fld.addr, F.QNC_BRK_STAT_state] using h)

theorem safeChain_word {c off : Nat} (h : off ≠ 0x1A0400 + 4 * c) : (s.safeChain c).word off = s.word off := by
  have hne (f : Fld) (hf : f.addr c 0 = 0x1A0400 + 4 * c) : off ≠ f.addr c 0 := by rwa [hf]
  rw [safeChain, word_wr_ne _ _ (hne _ (by simp [Fld.addr, F.QNC_CHAIN_STAT_cause])),
    word_wr_ne _ _ (hne _ (by simp [Fld.addr, F.QNC_CHAIN_STAT_state])), word_wr_ne _ _ (hne _ (by simp [Fld.addr, F.QNC_CHAIN_STAT_stop]))]

theorem safeBrakes_word {off : Nat} (h : off < 0x1A0440 ∨ 0x1A0480 ≤ off) : ((List.range 16).foldl safeBrake s).word off = s.word off :=
  foldl_keeps (fun t => t.word off) (fun t b hb => t.safeBrake_word (by have := List.mem_range.1 hb; omega)) s

theorem safeChains_word {off : Nat} (h : off < 0x1A0400 ∨ 0x1A0440 ≤ off) : ((List.range 16).foldl safeChain s).word off = s.word off :=
  foldl_keeps (fun t => t.word off) (fun t c hc => t.safeChain_word (by have := List.mem_range.1 hc; omega)) s

theorem safeState_word {off : Nat} (h : ¬ SafeWord off) : s.safeState.word off = s.word off := by
  have hne (f : Fld) (hf : SafeWord (f.addr 0 0)) : off ≠ f.addr 0 0 := fun he => h (he ▸ hf)
  rw [safeState_eq, word_wr_ne _ _ (hne _ (.inr (.inr (.inr rfl)))), word_wr_ne _ _ (hne _ (.inr (.inr (.inl rfl)))), safeChains_word (by omega),
    safeBrakes_word (by omega), word_wr_ne _ _ (hne _ (.inl rfl))]

/-- The other fields of QNC_STAT. -/
theorem safeState_stat {f : Fld} (h : f.Sep F.QNC_STAT_sto_all) (hoff : f.off = 0x1A0000) : s.safeState.rd f = s.rd f := by
  have haddr : f.addr 0 0 = 0x1A0000 := by simp [Fld.addr, hoff]
  rw [safeState_eq, rd_wr_ne _ (by rw [haddr]; decide), rd_wr_sep _ h, rd, rd, haddr, safeChains_word (by omega), safeBrakes_word (by omega),
    word_wr_ne _ _ (by decide)]

theorem safeState_blocks : s.safeState = { s with regs := s.safeState.regs, glb := { s.glb with t3copies := s.safeState.glb.t3copies } } := by
  have hbrake (t : State) (b : Nat) : t.OnlyRegs (t.safeBrake b) := by
    unfold safeBrake
    split
    · exact .refl t
    · exact (OnlyRegs.refl t).wr _ _ _ _
  have hchain (t : State) (c : Nat) : t.OnlyRegs (t.safeChain c) := (((OnlyRegs.refl t).wr _ _ _ _).wr _ _ _ _).wr _ _ _ _
  rw [safeState_eq]
  exact (((((OnlyRegs.refl s).wr _ _ _ _).trans (OnlyRegs.foldl hbrake)).trans (OnlyRegs.foldl hchain)).wr _ _ _ _).wr _ _ _ _

@[simp] theorem safeState_quench : s.safeState.quench = s.quench := by rw [safeState_blocks]
@[simp] theorem safeState_upd : s.safeState.upd = s.upd := by rw [safeState_blocks]
@[simp] theorem safeState_tick : s.safeState.tick = s.tick := by rw [safeState_blocks]

theorem safeBrake_le (b : Nat) : (s.safeBrake b).rd F.QNC_BRK_STAT_state b ≤ 1 := by
  unfold safeBrake
  split
  · rename_i h
    rw [h]
    exact Nat.zero_le 1
  · exact (rd_wr_same s (by decide)).le

theorem safeChain_shows (c : Nat) : (s.safeChain c).rd F.QNC_CHAIN_STAT_stop c = 3 ∧ (s.safeChain c).rd F.QNC_CHAIN_STAT_state c = 3 := by
  refine ⟨?_, ?_⟩
  · rw [safeChain, rd_wr_sep _ (by decide), rd_wr_sep _ (by decide)]
    exact rd_wr_same _ (by decide)
  · rw [safeChain, rd_wr_sep _ (by decide)]
    exact rd_wr_same _ (by decide)

/-- In the safe state every output and every brake is off, and every chain is in STO. -/
theorem safeState_shows : s.safeState.rd F.QNC_OUT_STAT_on = 0 ∧ s.safeState.rd F.QNC_STAT_sto_all = 1
    ∧ (∀ b, b < 16 → s.safeState.rd F.QNC_BRK_STAT_state b ≤ 1)
    ∧ ∀ c, c < 16 → s.safeState.rd F.QNC_CHAIN_STAT_stop c = 3 ∧ s.safeState.rd F.QNC_CHAIN_STAT_state c = 3 := by
  have hlast (f : Fld) {i : Nat} (h : f.addr i 0 ≠ F.GLB_KDL_STAT_torque.addr 0 0) (h' : f.addr i 0 ≠ F.QNC_STAT_sto_all.addr 0 0) :
      s.safeState.rd f i = ((List.range 16).foldl safeChain ((List.range 16).foldl safeBrake (s.wr F.QNC_OUT_STAT_on 0))).rd f i := by
    rw [safeState_eq, rd_wr_ne _ h, rd_wr_ne _ h']
  have hchains (f : Fld) {i : Nat} (u : State) (h : f.addr i 0 < 0x1A0400 ∨ 0x1A0440 ≤ f.addr i 0) :
      ((List.range 16).foldl safeChain u).rd f i = u.rd f i := by rw [rd, rd, safeChains_word h]
  have hbrakes (f : Fld) {i : Nat} (u : State) (h : f.addr i 0 < 0x1A0440 ∨ 0x1A0480 ≤ f.addr i 0) :
      ((List.range 16).foldl safeBrake u).rd f i = u.rd f i := by rw [rd, rd, safeBrakes_word h]
  refine ⟨?_, ?_, fun b hb => ?_, fun c hc => ?_⟩
  · rw [hlast _ (by decide) (by decide), hchains _ _ (by decide), hbrakes _ _ (by decide)]
    exact rd_wr_same s (by decide)
  · rw [safeState_eq, rd_wr_ne _ (by decide)]
    exact rd_wr_same _ (by decide)
  · have hb' : F.QNC_BRK_STAT_state.addr b 0 = 0x1A0440 + 4 * b := by simp [Fld.addr, F.QNC_BRK_STAT_state]
    rw [hlast _ (Fld.addr_ne_of_off (n := 1) hb (by decide) (by decide)) (Fld.addr_ne_of_off (n := 1) hb (by decide) (by decide)),
      hchains _ _ (by omega)]
    refine (foldl_range_marks (fun _ : State => True) (fun t : State => t.rd F.QNC_BRK_STAT_state b ≤ 1) hb (fun _ _ _ _ => trivial)
      (fun t _ => t.safeBrake_le b) (fun t i _ hne _ h => ?_) trivial).2
    have hword : (t.safeBrake i).word (F.QNC_BRK_STAT_state.addr b 0) = t.word (F.QNC_BRK_STAT_state.addr b 0) := t.safeBrake_word (by omega)
    rwa [rd, hword]
  · have hkeep (f : Fld) (hf : f.addr c 0 = 0x1A0400 + 4 * c) (v : Nat) (hset : ∀ t : State, (t.safeChain c).rd f c = v) :
        s.safeState.rd f c = v := by
      rw [hlast f (by rw [hf]; simp only [Fld.addr, F.GLB_KDL_STAT_torque]; omega) (by rw [hf]; simp only [Fld.addr, F.QNC_STAT_sto_all]; omega)]
      refine foldl_range_sets (fun t : State => t.rd f c) hc hset (fun t i hi hne => ?_) _
      rw [rd, rd, t.safeChain_word (by omega)]
    exact ⟨hkeep _ (by simp [Fld.addr, F.QNC_CHAIN_STAT_stop]) _ fun t => (t.safeChain_shows c).1,
      hkeep _ (by simp [Fld.addr, F.QNC_CHAIN_STAT_state]) _ fun t => (t.safeChain_shows c).2⟩

/-! ## The way to SAFE -/

theorem enterSafe_safe (h : s.behaviour = 4) (k : Nat) : s.enterSafe k = s := if_pos h

/-- A first failure leads to SAFE, and its cause is kept. -/
theorem enterSafe_enters (h : s.behaviour ≠ 4) (k : Nat) : s.enterSafe k = ((s.wr F.QNC_STAT_safe_cause k).setBehaviour 4).safeState := if_neg h

theorem enterSafe_behaviour (k : Nat) : (s.enterSafe k).behaviour = 4 := by
  by_cases h : s.behaviour = 4
  · rw [enterSafe_safe h, h]
  · rw [enterSafe_enters h, behaviour, safeState_stat (by decide) (by decide)]
    exact setBehaviour_behaviour _ (by decide)

@[simp] theorem enterSafe_quench (k : Nat) : (s.enterSafe k).quench = s.quench := by
  by_cases h : s.behaviour = 4
  · rw [enterSafe_safe h]
  · rw [enterSafe_enters h, safeState_quench, setBehaviour_quench, wr_quench]

@[simp] theorem enterSafe_upd (k : Nat) : (s.enterSafe k).upd = s.upd := by
  by_cases h : s.behaviour = 4
  · rw [enterSafe_safe h]
  · rw [enterSafe_enters h, safeState_upd, setBehaviour_upd, wr_upd]

end State

end Sys2Proof.Machine

/-! Proofs about the failures of Quench and of what it watches (chapter 14). -/

namespace Sys2Proof.Machine

namespace State

variable {s : State}

/-! ## SAFE -/

/-- Quench comes to SAFE with its cause and everything in its safe state. -/
theorem enterSafe_shows (h : s.behaviour ≠ 4) (k : Nat) :
    (s.enterSafe k).behaviour = 4 ∧ (s.enterSafe k).rd F.QNC_STAT_safe_cause = k % 2 ^ F.QNC_STAT_safe_cause.width
      ∧ (s.enterSafe k).rd F.QNC_OUT_STAT_on = 0 ∧ (s.enterSafe k).rd F.QNC_STAT_sto_all = 1
      ∧ (∀ b, b < 16 → (s.enterSafe k).rd F.QNC_BRK_STAT_state b ≤ 1)
      ∧ ∀ c, c < 16 → (s.enterSafe k).rd F.QNC_CHAIN_STAT_stop c = 3 ∧ (s.enterSafe k).rd F.QNC_CHAIN_STAT_state c = 3 := by
  refine ⟨s.enterSafe_behaviour k, ?_⟩
  rw [enterSafe_enters h]
  refine ⟨?_, safeState_shows⟩
  rw [safeState_stat (by decide) (by decide), setBehaviour_rd_sep _ _ (by decide) (by decide)]
  exact rd_wr_same s (by decide)

/-! ## Pairs -/

/-- A pair latches a fault: its bit is set, and the pair counts as off. -/
theorem latchPair_shows {f : Fld} (hf : f = F.QNC_IN_FLT_disc ∨ f = F.QNC_IN_FLT_tp) {p : Nat} (hp : p < 16) :
    bitAt (((s.wrBit f p true).wrBit F.QNC_IN_VAL_value p false).rd f) p = true
      ∧ ((s.wrBit f p true).wrBit F.QNC_IN_VAL_value p false).pairOn p = false := by
  refine ⟨?_, ?_⟩
  · have hne : f.addr 0 0 ≠ F.QNC_IN_VAL_value.addr 0 0 := by
      obtain rfl | rfl := hf
      · decide
      · decide
    rw [wrBit_eq, rd_wr_ne _ hne]
    obtain rfl | rfl := hf
    · exact (s.bitAt_rd_wrBit (by exact hp) (by decide)).trans (if_pos rfl)
    · exact (s.bitAt_rd_wrBit (by exact hp) (by decide)).trans (if_pos rfl)
  · exact (bitAt_rd_wrBit _ (by exact hp) (by decide)).trans (if_pos rfl)

end State

variable {s : State}

theorem execSelfTestComplete_again (h : s.quench.tested = true ∨ s.quench.held = true) : execSelfTestComplete none s = .next s := if_pos h

theorem execSelfTestComplete_first (ht : s.quench.tested = false) (hh : s.quench.held = false) (hstored : s.quench.stored = []) :
    ∃ t, execSelfTestComplete none s = .next t ∧ t.quench = { s.quench with tested := true }
      ∧ t.behaviour = { s with quench := { s.quench with tested := true } }.dueBehaviour := by
  have hgo : ¬ (s.quench.tested = true ∨ s.quench.held = true) := by simp [ht, hh]
  obtain ⟨v, hv⟩ : ∃ v, v = { s with quench := { s.quench with tested := true } } := ⟨_, rfl⟩
  have hstart : v.startSet = v := by
    have hnone : v.quench.stored.isEmpty = true := by rw [hv]; exact List.isEmpty_iff.2 hstored
    exact if_pos (.inl hnone)
  rw [← hv]
  refine ⟨v.setBehaviour v.dueBehaviour, ?_, ?_, State.setBehaviour_behaviour _ (State.dueBehaviour_lt _)⟩
  · unfold execSelfTestComplete
    dsimp only
    rw [if_neg hgo, ← hv, hstart]
  · rw [State.setBehaviour_quench, hv]

theorem State.quenchRailFault_holds (h : s.quench.railOut = false) :
    s.quenchRailFault.quench = { s.quench with held := true, railOut := true } ∧ s.quenchRailFault.behaviour = 4
      ∧ s.quenchRailFault.upd = s.upd := by
  obtain ⟨v, hv⟩ : ∃ v, v = s.quenchFail 3 105 1 := ⟨_, rfl⟩
  have hquench : v.quench = s.quench := by rw [hv, State.quenchFail, State.raise_quench, State.enterSafe_quench]
  have hupd : v.upd = s.upd := by rw [hv, State.quenchFail, State.raise_upd, State.enterSafe_upd]
  have hbehaviour : v.behaviour = 4 := by
    rw [hv, State.quenchFail, State.behaviour, State.raise_rd _ _ _ _ (by decide) (by decide)]
    exact s.enterSafe_behaviour 3
  have hfault : s.quenchRailFault = { v with quench := { v.quench with held := true, railOut := true } } := by
    rw [hv]
    exact if_neg (by rw [h]; decide)
  rw [hfault]
  exact ⟨by rw [hquench], hbehaviour, hupd⟩

theorem execQuenchRailFault_again (h : s.quench.railOut = true) : execQuenchRailFault s = .next s := congrArg Host.Outcome.next (if_pos h)

theorem execQuenchRailReturn_safe (h : s.quench.railOut = true) (hb : s.behaviour = 4) :
    execQuenchRailReturn s
      = .next { s with quench := { s.quench with railOut := false, held := false, tickAt := s.tick, sampleAt := s.tick } } := by
  unfold execQuenchRailReturn State.quenchRailReturn
  rw [if_neg (by rw [h]; decide), hb]
  rfl

theorem execQuenchRailReturn_none (h : s.quench.railOut = false) : execQuenchRailReturn s = .next s :=
  congrArg Host.Outcome.next (if_pos (by rw [h]; rfl))

theorem execDiscrepancyFault_latches {p : Fin 16} (hp : byteAt (s.qInp p) 0 ≠ 0) (hcount : field (s.qInp p) 6 2 ≤ (s.qPair p).count)
    (hclear : bitAt (s.rd F.QNC_IN_FLT_disc) p = false) (hev : s.takesEvent 95) :
    ∃ t, execDiscrepancyFault p s = .next t ∧ bitAt (t.rd F.QNC_IN_FLT_disc) p = true ∧ t.pairOn p = false ∧ t.hasEvent 95 1 p := by
  have hgo : ¬ (byteAt (s.qInp p) 0 = 0 ∨ (s.qPair p).count < field (s.qInp p) 6 2 ∨ bitAt (s.rd F.QNC_IN_FLT_disc) p = true) := by
    rw [hclear]
    rintro (h | h | h)
    · exact hp h
    · omega
    · exact absurd h (by decide)
  obtain ⟨v, hv⟩ : ∃ v, v = (s.wrBit F.QNC_IN_FLT_disc p true).wrBit F.QNC_IN_VAL_value p false := ⟨_, rfl⟩
  obtain ⟨hflt, hoff⟩ := State.latchPair_shows (s := s) (.inl rfl) p.isLt
  rw [← hv] at hflt hoff
  have hvev : v.takesEvent 95 := by
    rw [hv]
    exact State.takesEvent_wr (State.takesEvent_wr hev (by decide)) (by decide)
  refine ⟨v.raise 95 1 p, ?_, ?_, ?_, State.raise_hasEvent _ _ _ hvev⟩
  · rw [hv]
    exact congrArg Host.Outcome.next (if_neg hgo)
  · rw [State.raise_rd _ _ _ _ (by decide) (by decide), hflt]
  · rw [State.pairOn, State.raise_rd _ _ _ _ (by decide) (by decide)]
    exact hoff

theorem execDiscrepancyFault_early {p : Fin 16} (h : (s.qPair p).count < field (s.qInp p) 6 2) : execDiscrepancyFault p s = .next s :=
  congrArg Host.Outcome.next (if_pos (.inr (.inl h)))

/-! ## Test pulses -/

/-- What a pulse of a test source finds at a pair. -/
def State.pulsePair (s : State) (k : Nat) (low : BitVec 32) (p : Nat) : State :=
  let e := s.qInp p
  let a := byteAt e 0 != 0 && byteAt e 2 == k && !low.getLsbD (2 * p)
  let b := byteAt e 0 != 0 && byteAt e 3 == k && !low.getLsbD (2 * p + 1)
  if !(a || b) then s
  else ((s.wrBit F.QNC_IN_FLT_tp p true).wrBit F.QNC_IN_VAL_value p false).raise 96 (if a && b then 3 else if a then 1 else 2) p (detail [(0, k)])

theorem State.qInp_congr {t : State} (hmode : t.mode = s.mode) (hset : t.quench.set = s.quench.set) (p : Nat) : t.qInp p = s.qInp p := by
  rw [State.qInp, State.qInp, hmode, hset]

theorem State.pulsePair_cases (k : Nat) (low : BitVec 32) (p : Nat) : s.pulsePair k low p = s
    ∨ ∃ c d, s.pulsePair k low p = ((s.wrBit F.QNC_IN_FLT_tp p true).wrBit F.QNC_IN_VAL_value p false).raise 96 c p d := by
  unfold State.pulsePair
  dsimp only
  split
  · exact .inl rfl
  · exact .inr ⟨_, _, rfl⟩

/-- An input that stays high is found. -/
theorem State.pulsePair_high {k p : Nat} {low : BitVec 32} (hused : byteAt (s.qInp p) 0 ≠ 0) (hsrc : byteAt (s.qInp p) 2 = k)
    (hlow : low.getLsbD (2 * p) = false) :
    ∃ c d, s.pulsePair k low p = ((s.wrBit F.QNC_IN_FLT_tp p true).wrBit F.QNC_IN_VAL_value p false).raise 96 c p d := by
  unfold State.pulsePair
  dsimp only
  have ha : (byteAt (s.qInp p) 0 != 0 && byteAt (s.qInp p) 2 == k && !low.getLsbD (2 * p)) = true := by
    rw [hlow, beq_iff_eq.2 hsrc, bne_iff_ne.2 hused]
    rfl
  rw [ha, if_neg (by simp)]
  exact ⟨_, _, rfl⟩

theorem execTestPulse_eq {k : Fin 16} {low : BitVec 32} (hheld : s.quench.held = false) (hstop : s.quench.safStopped = false) (hmode : s.mode ≠ 1)
    (hset : s.quench.set ≠ []) (hused : Sps.pulseUsed s.quench.set k = true) :
    execTestPulse k low s = .next ((List.range 16).foldl (fun s p => s.pulsePair k low p)
      { s with quench := { s.quench with pulse := store (fun _ => 0) s.quench.pulse k (s.tick + us (10 * byteAt (Sps.pulse s.quench.set k) 2 + 20)) } }) := by
  have hgo : ¬ (s.quench.held || s.quench.safStopped || s.mode == 1 || s.quench.set.isEmpty || !Sps.pulseUsed s.quench.set k) = true := by
    simp [hheld, hstop, hmode, hset, hused]
  unfold execTestPulse
  rw [if_neg hgo]
  rfl

theorem execTestPulse_high {k : Fin 16} {low : BitVec 32} {p : Fin 16} (hheld : s.quench.held = false) (hstop : s.quench.safStopped = false)
    (hmode : s.mode ≠ 1) (hset : s.quench.set ≠ []) (hused : Sps.pulseUsed s.quench.set k = true) (hp : byteAt (s.qInp p) 0 ≠ 0)
    (hsrc : byteAt (s.qInp p) 2 = k.val) (hlow : low.getLsbD (2 * p) = false) :
    ∃ t, execTestPulse k low s = .next t ∧ bitAt (t.rd F.QNC_IN_FLT_tp) p = true ∧ t.pairOn p = false := by
  refine ⟨_, execTestPulse_eq hheld hstop hmode hset hused, ?_⟩
  obtain ⟨u, hu⟩ : ∃ u, u = { s with quench := { s.quench with
      pulse := store (fun _ => 0) s.quench.pulse k (s.tick + us (10 * byteAt (Sps.pulse s.quench.set k) 2 + 20)) } } := ⟨_, rfl⟩
  have hinit : u.mode = s.mode ∧ u.quench.set = s.quench.set := by
    rw [hu]
    exact ⟨rfl, rfl⟩
  rw [← hu]
  refine (foldl_range_marks (fun t : State => t.mode = s.mode ∧ t.quench.set = s.quench.set)
    (fun t => bitAt (t.rd F.QNC_IN_FLT_tp) p = true ∧ t.pairOn p = false) p.isLt (fun t i _ hI => ?_) (fun t hI => ?_)
    (fun t i hi hne _ hP => ?_) hinit).2
  · obtain h | ⟨c, d, h⟩ := t.pulsePair_cases k low i
    · rw [h]
      exact hI
    · rw [h, State.raise_mode _ _ _ _ (by decide), State.raise_quench]
      exact ⟨by rw [← hI.1, State.wrBit_eq, State.wrBit_eq, State.mode, State.rd_wr_ne _ (by decide), State.rd_wr_ne _ (by decide)]; rfl, hI.2⟩
  · have hinp := s.qInp_congr hI.1 hI.2 p
    obtain ⟨c, d, h⟩ := t.pulsePair_high (k := k) (low := low) (p := p) (by rwa [hinp]) (by rw [hinp, hsrc]) hlow
    obtain ⟨hflt, hoff⟩ := State.latchPair_shows (s := t) (.inr rfl) p.isLt
    rw [h, State.pairOn, State.raise_rd _ _ _ _ (by decide) (by decide), State.raise_rd _ _ _ _ (by decide) (by decide)]
    exact ⟨hflt, hoff⟩
  · obtain h | ⟨c, d, h⟩ := t.pulsePair_cases k low i
    · rw [h]
      exact hP
    · rw [h, State.pairOn, State.raise_rd _ _ _ _ (by decide) (by decide), State.raise_rd _ _ _ _ (by decide) (by decide)]
      refine ⟨?_, ?_⟩
      · rw [State.wrBit_eq _ F.QNC_IN_VAL_value, State.rd_wr_ne _ (by decide), State.bitAt_rd_wrBit _ (by exact p.isLt) (by decide),
          if_neg (Ne.symm hne)]
        exact hP.1
      · rw [State.bitAt_rd_wrBit _ (by exact p.isLt) (by decide), if_neg (Ne.symm hne), State.wrBit_eq, State.rd_wr_ne _ (by decide)]
        exact hP.2

/-- Where every input falls, a pulse only starts the time in which samples are left out. -/
theorem execTestPulse_low {k : Fin 16} (hheld : s.quench.held = false) (hstop : s.quench.safStopped = false)
    (hmode : s.mode ≠ 1) (hset : s.quench.set ≠ []) (hused : Sps.pulseUsed s.quench.set k = true) :
    execTestPulse k (BitVec.allOnes 32) s
      = .next { s with quench := { s.quench with pulse := store (fun _ => 0) s.quench.pulse k (s.tick + us (10 * byteAt (Sps.pulse s.quench.set k) 2 + 20)) } } := by
  rw [execTestPulse_eq hheld hstop hmode hset hused]
  generalize { s with quench := _ } = u
  refine congrArg Host.Outcome.next (foldl_holds (P := fun t => t = u) (fun t p hp ht => ?_) rfl)
  have hlt := List.mem_range.1 hp
  rw [ht]
  unfold State.pulsePair
  dsimp only
  rw [BitVec.getLsbD_allOnes, BitVec.getLsbD_allOnes, decide_eq_true (by omega), decide_eq_true (by omega), Bool.not_true, Bool.and_false,
    Bool.and_false]
  rfl

/-! ## Safe outputs and brakes -/

theorem execOutputOffTest_output {k : Fin 8} (w : Bool) (hon : bitAt (s.rd F.QNC_OUT_STAT_on) k = true) (hev : s.takesEvent 97) :
    ∃ t, execOutputOffTest (.output k) w false s = .next t ∧ bitAt (t.rd F.QNC_OUT_STAT_fault) k = true
      ∧ bitAt (t.rd F.QNC_OUT_STAT_on) k = false ∧ t.hasEvent 97 2 k := by
  obtain ⟨v, hv⟩ : ∃ v, v = (s.wrBit F.QNC_OUT_STAT_fault k true).wrBit F.QNC_OUT_STAT_on k false := ⟨_, rfl⟩
  have hvev : v.takesEvent 97 := by
    rw [hv]
    exact State.takesEvent_wr (State.takesEvent_wr hev (by decide)) (by decide)
  refine ⟨v.raise 97 2 k (detail [(0, b2n w)]), ?_, ?_, ?_, State.raise_hasEvent _ _ _ hvev⟩
  · rw [hv]
    exact congrArg Host.Outcome.next (if_neg (by rw [hon]; decide))
  · rw [State.raise_rd _ _ _ _ (by decide) (by decide), hv, State.wrBit_eq _ F.QNC_OUT_STAT_on, State.rd_wr_sep _ (by decide)]
    exact (s.bitAt_rd_wrBit (by exact k.isLt) (by decide)).trans (if_pos rfl)
  · rw [State.raise_rd _ _ _ _ (by decide) (by decide), hv]
    exact (State.bitAt_rd_wrBit _ (by exact k.isLt) (by decide)).trans (if_pos rfl)

theorem execOutputOffTest_brake {b : Fin 16} (w : Bool) (hst : s.rd F.QNC_BRK_STAT_state b = 2) (hfault : s.on F.QNC_BRK_STAT_fault b = false)
    (hev : s.takesEvent 98) :
    ∃ t, execOutputOffTest (.brake b) w false s = .next t ∧ t.rd F.QNC_BRK_STAT_fault b = 1 ∧ t.rd F.QNC_BRK_STAT_state b = 1
      ∧ t.hasEvent 98 3 b := by
  obtain ⟨v, hv⟩ : ∃ v, v = s.wr F.QNC_BRK_STAT_fault 1 b := ⟨_, rfl⟩
  have hvst : v.rd F.QNC_BRK_STAT_state b = 2 := by rw [hv, State.rd_wr_sep _ (by decide), hst]
  obtain ⟨x, hx⟩ : ∃ x : QBrake, v.setBrake b 1 = (v.setQBrake b x).wr F.QNC_BRK_STAT_state 1 b := ⟨_, if_neg (by rw [hvst]; decide)⟩
  have hvev : (v.setBrake b 1).takesEvent 98 := by
    rw [hx, hv]
    exact State.takesEvent_wr (s := (s.wr F.QNC_BRK_STAT_fault 1 b).setQBrake b x)
      (State.takesEvent_wr hev (Fld.addr_ne_of_off (m := 128) (by decide) b.isLt (by decide)))
      (Fld.addr_ne_of_off (m := 128) (by decide) b.isLt (by decide))
  have hfail : s.brakeFault b 3 = (v.setBrake b 1).raise 98 3 b := by
    rw [hv]
    exact if_neg (by rw [hfault]; decide)
  refine ⟨s.brakeFault b 3, ?_, ?_, ?_, ?_⟩
  · exact congrArg Host.Outcome.next (if_neg (by rw [hst]; decide))
  · rw [hfail, State.raise_rd_below _ _ _ _ (by decide) b.isLt (by decide), hx, State.rd_wr_sep _ (by decide), State.setQBrake_rd, hv]
    exact State.rd_wr_same _ (by decide)
  · rw [hfail, State.raise_rd_below _ _ _ _ (by decide) b.isLt (by decide), hx]
    exact State.rd_wr_same _ (by decide)
  · rw [hfail]
    exact State.raise_hasEvent _ _ _ hvev

theorem execOutputOffTest_fell (p : SwitchPair) (w : Bool) : execOutputOffTest p w true s = .next s := by
  cases p with
  | output k => exact congrArg Host.Outcome.next (if_pos rfl)
  | brake b => exact congrArg Host.Outcome.next (if_pos rfl)

/-! ## Connections -/

/-- The instant just after a watchdog's end has passed. -/
theorem watchdog_passed {now e d : Nat} (hd : d < 2 ^ 32) (h : (d : Int) < cellDiff now e) : cellDiff (uns 64 (e + d + 1 : Nat)) now ≤ 0 := by
  unfold cellDiff sgn uns at *
  split at h <;> split <;> omega

theorem execConnectionWatchdogExpiry_expires {n : Fin 128} (hst : s.rd F.QNC_CONN_STAT_state n = 2) (hdir : byteAt (s.qConnEntry n) 0 = 0)
    (hage : ((field (s.qConnEntry n) 12 2 * 10000 : Nat) : Int) < cellDiff s.cellNs (s.qConn n).at_) (hev : s.takesEvent 100) :
    ∃ t, execConnectionWatchdogExpiry n s = .next t ∧ t.rd F.QNC_CONN_STAT_state n = 3 ∧ t.rd F.QNC_CONN_STAT_cause n = 1
      ∧ (t.qConn n).news = 0 ∧ t.hasEvent 100 1 n := by
  have hwd : field (s.qConnEntry n) 12 2 < 256 ^ 2 := field_lt _ _ _
  have hpast := s.advanceCell_past (watchdog_passed (by omega) hage)
  have hgo : ¬ (s.rd F.QNC_CONN_STAT_state n ≠ 2 ∨ byteAt (s.qConnEntry n) 0 ≠ 0) := by simp [hst, hdir]
  have hlate : ¬ (s.rd F.QNC_CONN_STAT_state n ≠ 2 ∨ cellDiff s.cellNs (s.qConn n).at_ ≤ ((field (s.qConnEntry n) 12 2 * 10000 : Nat) : Int)) := by
    rw [hst]
    simpa using hage
  obtain ⟨v, hv⟩ : ∃ v, v = s.failConn n 1 := ⟨_, rfl⟩
  have hvev : v.takesEvent 100 := by
    rw [hv]
    exact State.takesEvent_wr (State.takesEvent_wr hev (Fld.addr_ne_of_off (m := 128) (by decide) n.isLt (by decide)))
      (Fld.addr_ne_of_off (m := 128) (by decide) n.isLt (by decide))
  obtain ⟨d, hexpire⟩ : ∃ d, s.expireConn n = v.raise 100 1 n d := ⟨_, by rw [hv]; exact if_neg hlate⟩
  refine ⟨s.expireConn n, ?_, ?_, ?_, ?_, ?_⟩
  · unfold execConnectionWatchdogExpiry
    rw [if_neg hgo]
    dsimp only
    rw [hpast]
  · rw [hexpire, State.raise_rd_below _ _ _ _ (by decide) n.isLt (by decide), hv, State.failConn, State.setQConn_rd,
      State.rd_wr_sep _ (by decide)]
    exact State.rd_wr_same _ (by decide)
  · rw [hexpire, State.raise_rd_below _ _ _ _ (by decide) n.isLt (by decide), hv]
    exact State.rd_wr_same _ (by decide)
  · rw [hexpire, State.qConn, State.raise_quench, hv]
    exact congrArg QConn.news (lookup_store_same _ _ _)
  · rw [hexpire]
    exact State.raise_hasEvent _ _ _ hvev

theorem execConnectionWatchdogExpiry_stopped {n : Fin 128} (h : s.rd F.QNC_CONN_STAT_state n ≠ 2) : execConnectionWatchdogExpiry n s = .next s :=
  if_pos (.inl h)

/-- Settles O38: every failure enters SAFE (`enterSafe_shows`); a test pulse finds the pairs one after another (`pulsePair_high`), and a
connection fails once its watchdog has passed (`watchdog_passed`). -/
theorem quenchFailures : Obligations.QuenchFailures := by
  unfold Obligations.QuenchFailures
  exact ⟨fun _ _ => rfl, fun _ => ⟨rfl, rfl, rfl, rfl⟩, fun _ _ => rfl, fun s k h => s.enterSafe_shows h k, fun s k h => s.enterSafe_safe h k,
    fun _ _ => rfl, fun s h => execSelfTestComplete_again h, fun s ht hh hs => execSelfTestComplete_first ht hh hs,
    fun s h => ⟨_, rfl, (s.quenchRailFault_holds h).1, (s.quenchRailFault_holds h).2.1⟩, fun s h => execQuenchRailFault_again h,
    fun s h hb => execQuenchRailReturn_safe h hb, fun s h => execQuenchRailReturn_none h,
    fun s p hp hc hclear hev => execDiscrepancyFault_latches hp hc hclear hev, fun s p h => execDiscrepancyFault_early h,
    fun s k low p hheld hstop hmode hset hused hp hsrc hlow => execTestPulse_high hheld hstop hmode hset hused hp hsrc hlow,
    fun s k hheld hstop hmode hset hused => execTestPulse_low hheld hstop hmode hset hused,
    fun s k w hon hev => execOutputOffTest_output w hon hev, fun s b w hst hf hev => execOutputOffTest_brake w hst hf hev,
    fun s p w => execOutputOffTest_fell p w, fun s n hst hdir hage hev => execConnectionWatchdogExpiry_expires hst hdir hage hev,
    fun s n h => execConnectionWatchdogExpiry_stopped h⟩

end Sys2Proof.Machine

/-! Statements that copies of a register refute (R89). The second and third copies of a register, where they disagree with the
first, stand in the record of the Control block, and a write of the register makes the three agree again: it takes them out of
that record. A statement that a command leaves the record as it was but for one part, and that the command writes a register,
therefore fails in every state that holds copies of that register apart. Nothing that the statements suppose, and nothing that a
sound state is, excludes such a state. -/

namespace Sys2Proof.Machine

/-- The copies that differ from their registers in the state that a command leaves. -/
def copiesAfter : Host.Outcome State Fault Refusal → List (Nat × Option (Word × Word × Bool))
  | .next t => t.glb.t3copies
  | _ => []

/-- A state after power-on in which the copies of the register at `off` have been upset, with the event of a source enabled. -/
def upsetAt (off src : Nat) : State :=
  { State.reset with glb := { State.reset.glb with t3copies := [(off, some (0, 0, false))] } }.wr F.HIF_EVT_MAP_enable 1 src

/-- A command that leaves the record of the Control block with the copies of `s` leaves no other copies. -/
theorem copiesAfter_eq {s t : State} {o : Host.Outcome State Fault Refusal} (ho : o = .next t) (hcopies : t.glb.t3copies = s.glb.t3copies) :
    copiesAfter o = s.glb.t3copies := by
  rw [ho]
  exact hcopies

/-- Refutes O45: a mode request writes GLB_MODE_REQ, whose upset copies it drops from the record of the Control block. -/
theorem not_modeCommands : ¬ Obligations.ModeCommands := by
  unfold Obligations.ModeCommands
  intro h
  obtain ⟨t, ht, -, -, -, hglb, -⟩ := (h.1 (upsetAt F.GLB_MODE_REQ_target.off 0) .farrier false (.modeRequestRun .farrier) 3 (by simp)).2
    (by decide +kernel)
  have hsame := copiesAfter_eq (s := upsetAt F.GLB_MODE_REQ_target.off 0) ht (by rw [hglb])
  exact absurd hsame (by decide +kernel)

/-- Refutes O46: a fault of the DDR controller writes GLB_STAT, whose upset copies it drops from the record of the Control block. -/
theorem not_sentinelAndDdr : ¬ Obligations.SentinelAndDdr := by
  unfold Obligations.SentinelAndDdr
  intro h
  obtain ⟨-, -, -, hfault, -⟩ := h
  obtain ⟨t, ht, -, -, -, hglb⟩ := hfault (upsetAt F.GLB_STAT_ddr_ok.off 15) 0 (by decide +kernel)
  have hsame := copiesAfter_eq (s := upsetAt F.GLB_STAT_ddr_ok.off 15) ht (by rw [hglb (by decide +kernel)])
  exact absurd hsame (by decide +kernel)

/-- Refutes O47: the loss of lock of APP writes CLK_PLL_STAT, whose upset copies it drops from the record of the Control block. -/
theorem not_resetsAndPlls : ¬ Obligations.ResetsAndPlls := by
  unfold Obligations.ResetsAndPlls
  intro h
  obtain ⟨-, -, -, happ, -⟩ := h
  obtain ⟨t, ht, hglb⟩ := happ ((upsetAt F.CLK_PLL_STAT_locked.off 0).wr F.GLB_STAT_mode 2) 1 (.inl rfl) (by decide +kernel) (by decide +kernel)
  have hsame := copiesAfter_eq (s := (upsetAt F.CLK_PLL_STAT_locked.off 0).wr F.GLB_STAT_mode 2) ht (by rw [hglb])
  exact absurd hsame (by decide +kernel)

/-- Refutes O54: a sample of 109 °C on every sensor writes CLK_TEMP, whose upset copies it drops from the record of the Control
block. -/
theorem not_supplyAndThermal : ¬ Obligations.SupplyAndThermal := by
  unfold Obligations.SupplyAndThermal
  intro h
  obtain ⟨-, -, -, -, hthermal⟩ := h
  obtain ⟨-, -, -, -, -, hwarn⟩ := hthermal (upsetAt F.CLK_TEMP_now.off 124) 109 109 109 109 109 0 (by decide)
  obtain ⟨t, ht, -, -, hglb⟩ := hwarn (by decide +kernel) (by decide +kernel) (by decide) (by decide +kernel) (by decide +kernel)
  have hsame := copiesAfter_eq (s := upsetAt F.CLK_TEMP_now.off 124) ht (by rw [hglb])
  exact absurd hsame (by decide +kernel)

end Sys2Proof.Machine

/-! Proofs about Waxbook (R481 to R491): triggers, records, the clear and the cursor window. -/

namespace Sys2Proof.Machine

/-! ## What the raising of an event leaves of Waxbook -/

/-- A field of WAX_STAT that no event writes: `full`, `busy`, `ext_fault`, `ext_lost` or `epoch`. -/
abbrev Fld.WaxStat (f : Fld) : Prop :=
  f.off = 0x1C0004 ∧ f.s1 = 0 ∧ f.s2 = 0 ∧ (f.lo + f.width ≤ 2 ∨ 6 ≤ f.lo ∧ f.lo + f.width ≤ 16)

theorem EventKeeps.waxStat (s : State) {f : Fld} (h : f.WaxStat) : EventKeeps (· < 4) fun t => t.rd f = s.rd f where
  wr t g v i hg hi ht := by
    obtain ⟨hoff, hs1, hs2, hbits⟩ := h
    have hi : i < 4 := hi.elim (fun h => by omega) id
    refine (State.rd_wr t ?_).trans ht
    simp only [List.mem_cons, List.not_mem_nil, or_false] at hg
    rcases hg with rfl | rfl | rfl | rfl | rfl | rfl <;>
      simp only [Fld.Apart, Fld.addr, hoff, hs1, hs2, F.HIF_EVT_LOST_lost, F.HIF_EVT_LOST_CNT_count, F.WAX_ERR_suppressed,
        F.WAX_ERR_missed, F.WAX_STAT_lost, F.WAX_STAT_pending] <;> omega
  record _ _ _ h := h
  merge _ _ _ _ h := h
  owe _ h := h
  hist _ _ h := h
  queue _ _ _ h := h

namespace State

theorem raise_waxStat (s : State) {src : Nat} (code inst : Nat) (d : DWord) {f : Fld} (hsrc : src < 128) (h : f.WaxStat) :
    (s.raise src code inst d).rd f = s.rd f :=
  (EventKeeps.waxStat s h).raise (by decide) src code inst d (by simpa using (by omega : src / 32 < 4)) rfl

end State

/-- A firing that waits goes on waiting, and a trigger that has fired has fired. -/
theorem EventKeeps.fired (f : Firing) (k : Nat) :
    EventKeeps (fun _ => True) fun t => f ∈ t.wax.queue ∧ (t.trigHist k).fired = true where
  wr _ _ _ _ _ _ h := h
  record _ _ _ h := h
  merge _ _ _ _ h := h
  owe _ h := h
  hist t i h := by
    refine ⟨h.1, ?_⟩
    obtain rfl | hne := eq_or_ne k i
    · exact congrArg TrigHist.fired (lookup_store_same ..)
    · exact (congrArg TrigHist.fired (lookup_store_ne _ _ hne)).trans h.2
  queue _ _ _ h := ⟨List.mem_append_left _ h.1, h.2⟩

/-! ## The software trigger (R482) -/

/-- The firing of a trigger whose occurrence is no event. -/
def State.firing (s : State) (k kind code : Nat) : Firing :=
  { trig := k, kind := kind, src := 0xFFFF, inst := 0xFFFF, code := code, time := s.cellNs, mode := s.mode,
    provisional := !s.on F.TIM_STAT_locked }

namespace State

/-- A trigger that is ready, and finds the recorder running with room for a firing, fires (R482, R483). -/
theorem fireTrigger_fires {s : State} {k : Nat} (kind code : Nat) (hready : s.trigReady k = true) (hhold : s.inHoldoff k = false)
    (hfull : s.on F.WAX_STAT_full = false) (hroom : s.wax.queue.length < 8) :
    ∃ t, s.fireTrigger k kind 0xFFFF 0xFFFF code = (t, true) ∧ s.firing k kind code ∈ t.wax.queue
      ∧ (t.trigHist k).fired = true ∧ t.wax.store = s.wax.store := by
  rw [fireTrigger, if_neg (by simp [hready]), if_neg (by simp [hhold])]
  obtain ⟨u, hu⟩ : ∃ u, u = { s with wax := { s.wax with
    hist := store (fun _ => {}) s.wax.hist k { fired := true, last := s.tick } } } := ⟨_, rfl⟩
  have hfull' : u.on F.WAX_STAT_full = false := by rw [hu]; exact hfull
  have hroom' : ¬ 8 ≤ u.wax.queue.length := by rw [hu]; exact Nat.not_le.2 hroom
  have hfiring : u.firing k kind code = s.firing k kind code := by rw [hu]; rfl
  have hfired : (u.trigHist k).fired = true := by rw [hu]; exact congrArg TrigHist.fired (lookup_store_same ..)
  have hstore : u.wax.store = s.wax.store := by rw [hu]
  rw [← hu]
  dsimp only
  rw [if_neg (by simp [hfull']), if_neg hroom', ← hfiring]
  exact ⟨_, rfl, List.mem_append_right _ List.mem_cons_self, hfired, hstore⟩

theorem fireOther_disabled {s : State} (h : s.on F.WAX_CTL_enable = false) (k kind code : Nat) :
    s.fireOther k kind code = s := by
  rw [fireOther, fireTrigger_disabled h]

end State

theorem execSoftwareTrigger_zero (s : State) : execSoftwareTrigger 0 s = .next s := by
  rw [execSoftwareTrigger]
  refine congrArg _ (List.foldlRecOn (motive := (· = s)) (List.range 32) _ rfl ?_)
  rintro _ rfl k -
  exact if_neg (by simp)

theorem execSoftwareTrigger_disabled (s : State) (m : Word) (h : s.on F.WAX_CTL_enable = false) :
    execSoftwareTrigger m s = .next s := by
  rw [execSoftwareTrigger]
  refine congrArg _ (List.foldlRecOn (motive := (· = s)) (List.range 32) _ rfl ?_)
  rintro _ rfl k -
  rw [State.fireOther_disabled h, ite_self]

/-- A mask of one bit asks its own trigger only. -/
theorem execSoftwareTrigger_one {s : State} {k : Fin 32} (hkind : s.rd F.WAX_TRIG0_kind k = 3) :
    execSoftwareTrigger (BitVec.twoPow 32 k) s = .next (s.fireOther k 3 0) := by
  have hbit (j : Nat) : (BitVec.twoPow 32 k).getLsbD j = decide (k.val = j) := by
    rw [BitVec.getLsbD_twoPow, decide_eq_true k.isLt, Bool.true_and]
  refine congrArg _ ((foldl_range_once id (fun t => if t.rd F.WAX_TRIG0_kind k = 3 then t.fireOther k 3 0 else t) k.isLt
    (fun t => ?_) (fun t j _ hne => ?_) s).trans (if_pos hkind))
  · simp
  · rw [hbit, decide_eq_false (Ne.symm hne), Bool.false_and, if_neg Bool.false_ne_true]

theorem execSoftwareTrigger_fires {s : State} {k : Fin 32} (hkind : s.rd F.WAX_TRIG0_kind k = 3) (hready : s.trigReady k = true)
    (hhold : s.inHoldoff k = false) (hfull : s.on F.WAX_STAT_full = false) (hroom : s.wax.queue.length < 8) :
    ∃ t, execSoftwareTrigger (BitVec.twoPow 32 k) s = .next t
      ∧ (∃ f ∈ t.wax.queue, f.trig = k.val ∧ f.kind = 3 ∧ f.time = s.cellNs ∧ f.mode = s.mode ∧ f.provisional = !s.on F.TIM_STAT_locked)
      ∧ (t.trigHist k).fired = true ∧ t.wax.store = s.wax.store := by
  obtain ⟨u, hu, hqueue, hfired, hstore⟩ := State.fireTrigger_fires 3 0 hready hhold hfull hroom
  rw [execSoftwareTrigger_one hkind, State.fireOther, hu]
  dsimp only
  generalize detail _ = d
  obtain ⟨hq, hf⟩ := (EventKeeps.fired _ _).raise trivial 120 1 0xFFFF d trivial ⟨hqueue, hfired⟩
  exact ⟨_, rfl, ⟨_, hq, rfl, rfl, rfl, rfl, rfl⟩, hf, (State.raise_wax_store ..).trans hstore⟩

/-! ## Records (R483, R485, R487) -/

namespace State

theorem waxStop_full (s : State) : s.waxStop.rd F.WAX_STAT_full = 1 := by
  rw [waxStop, raise_waxStat _ _ _ _ (by decide) (by decide), bump_eq, rd_wr_sep _ (by decide)]
  exact rd_wr_same ..

/-- The other fields of WAX_STAT that no event writes are as before. -/
theorem waxStop_stat (s : State) {f : Fld} (h : f.WaxStat) (hlo : 1 ≤ f.lo) : s.waxStop.rd f = s.rd f := by
  rw [waxStop, raise_waxStat _ _ _ _ (by decide) h, bump_eq]
  obtain ⟨hoff, hs1, hs2, hbits⟩ := h
  have haddr : f.addr 0 0 = F.WAX_STAT_full.addr 0 0 := by rw [Fld.addr, hoff, hs1, hs2]; rfl
  exact (rd_wr_apart (f := F.WAX_STAT_lost) _ haddr (.inr (show f.lo + f.width ≤ 16 by omega))).trans (rd_wr_apart _ haddr (.inl hlo))

theorem waxStop_rd (s : State) {f : Fld} (hev : f.addr 0 0 ∉ eventWords) (h : f.addr 0 0 ≠ 0x1C0004) : s.waxStop.rd f = s.rd f := by
  rw [waxStop, raise_rd _ _ _ _ (by decide) hev, bump_eq, rd_wr_ne _ h, rd_wr_ne _ h]

theorem waxStop_busy (s : State) : s.waxStop.wax.busy = s.wax.busy := by
  rw [waxStop, raise_wax_busy, bump_eq]
  rfl

theorem waxStop_clearWaiting (s : State) : s.waxStop.wax.clearWaiting = s.wax.clearWaiting := by
  rw [waxStop, raise_wax_clearWaiting, bump_eq]
  rfl

theorem waxStop_hasEvent {s : State} (h : s.takesEvent 121) : s.waxStop.hasEvent 121 1 0xFFFF := by
  rw [waxStop, bump_eq]
  exact raise_hasEvent _ _ _ (takesEvent_wr (takesEvent_wr h (by decide)) (by decide))

end State

theorem execRecordTake_rests {s : State}
    (h : s.wax.queue = [] ∨ s.wax.busy ≠ none ∨ s.on F.WAX_STAT_full = true ∨ s.on F.WAX_CTL_enable = false) :
    execRecordTake s = .next s := by
  cases hq : s.wax.queue with
  | nil => exact execRecordTake_empty hq
  | cons f l =>
    rw [execRecordTake, hq]
    refine if_pos ?_
    rw [hq] at h
    simpa [Option.isSome_iff_ne_none, or_assoc] using h

section
variable {s : State} {f : Firing} {l : List Firing} (hqueue : s.wax.queue = f :: l) (hbusy : s.wax.busy = none)
  (hfull : s.on F.WAX_STAT_full = false) (hen : s.on F.WAX_CTL_enable = true)
include hqueue hbusy hfull hen

/-- A recorder that runs and is not busy takes the first firing out of the queue, and writes its record where the store has room. -/
theorem execRecordTake_eq : execRecordTake s = .next (if s.waxFits (s.waxRecord f).length then
      { s.dequeued l with wax := { s.wax with queue := l, busy := some { bytes := s.waxRecord f, at_ := s.rd F.WAX_FILL_bytes },
                                              failed := false } }.wr F.WAX_STAT_busy 1
    else (s.dequeued l).waxStop) := by
  have hready : ¬(s.wax.busy.isSome || s.on F.WAX_STAT_full || !s.on F.WAX_CTL_enable) = true := by simp [hbusy, hfull, hen]
  rw [execRecordTake, hqueue]
  refine (if_neg hready).trans ?_
  rw [← s.dequeued_waxFits l, ← s.dequeued_rd l (by decide)]
  cases hfits : (s.dequeued l).waxFits (s.waxRecord f).length with
  | true =>
    have hroom : ¬ (!(s.dequeued l).waxFits (s.waxRecord f).length) = true := by simp [hfits]
    exact if_neg hroom
  | false =>
    have hroom : (!(s.dequeued l).waxFits (s.waxRecord f).length) = true := by simp [hfits]
    exact if_pos hroom

theorem execRecordTake_takes (hfits : s.waxFits (s.waxRecord f).length = true) :
    ∃ t, execRecordTake s = .next t ∧ t.rd F.WAX_STAT_busy = 1
      ∧ t.wax = { s.wax with queue := l, busy := some { bytes := s.waxRecord f, at_ := s.rd F.WAX_FILL_bytes }, failed := false }
      ∧ t.rd F.WAX_STAT_pending = l.length % 16 ∧ s.OnlyWords t [F.WAX_STAT_full.off] := by
  refine ⟨_, execRecordTake_eq hqueue hbusy hfull hen, ?_⟩
  rw [if_pos hfits]
  refine ⟨State.rd_wr_same .., rfl, (State.rd_wr_sep _ (by decide)).trans (State.rd_wr_same ..), ?_⟩
  exact ((State.OnlyWords.refl s _).wr (f := F.WAX_STAT_pending) (by decide)).wr (f := F.WAX_STAT_busy) (by decide)

/-- A record for which the store has no room is not written, and recording stops (R487). -/
theorem execRecordTake_stops (hfits : s.waxFits (s.waxRecord f).length = false) (hev : s.takesEvent 121) :
    ∃ t, execRecordTake s = .next t ∧ t.rd F.WAX_STAT_full = 1 ∧ t.wax.busy = none
      ∧ t.rd F.WAX_FILL_bytes = s.rd F.WAX_FILL_bytes ∧ t.hasEvent 121 1 0xFFFF := by
  refine ⟨_, execRecordTake_eq hqueue hbusy hfull hen, ?_⟩
  rw [if_neg (by simp [hfits])]
  exact ⟨State.waxStop_full _, (State.waxStop_busy _).trans hbusy,
    (State.waxStop_rd _ (by decide) (by decide)).trans (s.dequeued_rd l (by decide)),
    State.waxStop_hasEvent (State.takesEvent_wr hev (by decide))⟩
end

/-! ## The end of a record (R487, R488) -/

namespace State

/-- The recorder has no record in progress. -/
def recordOff (s : State) : State :=
  { s with wax := { s.wax with busy := none, failed := false } }.wr F.WAX_STAT_busy 0

/-- The bytes of a record have landed, and the fill and the sequence number stand behind it. -/
def recordStored (s : State) (w : WaxRecord) : State :=
  let s := (s.storeBytes w.at_ w.bytes).wr F.WAX_FILL_bytes (w.at_ + w.bytes.length)
  s.wr F.WAX_SEQ_next (seqAfter (s.rd F.WAX_SEQ_next))

def endOnChip (s : State) (e : Nat) : State := { s with wax := { s.wax with onChipEnd := e } }

/-- How a record ends that lies on chip, or beyond it where the extension is known to have failed or not. -/
def recordFinish (s : State) (w : WaxRecord) (ext : Bool) : State :=
  if ext && s.wax.failed then s.recordOff.waxStop
  else if ext then s.recordOff.recordStored w else (s.recordOff.recordStored w).endOnChip (w.at_ + w.bytes.length)

/-- A clear that waits for the end of a record. -/
def waitingClear (s : State) : State := if s.wax.clearWaiting then s.waxClear else s

theorem recordOff_rd (s : State) {f : Fld} (h : f.Sep F.WAX_STAT_busy) : s.recordOff.rd f = s.rd f := rd_wr_sep _ h

theorem recordStored_fill (s : State) {w : WaxRecord} (h : w.at_ + w.bytes.length < 2 ^ 27) :
    (s.recordStored w).rd F.WAX_FILL_bytes = w.at_ + w.bytes.length :=
  (rd_wr_sep _ (by decide)).trans ((rd_wr_same ..).trans (Nat.mod_eq_of_lt h))

theorem recordStored_seq (s : State) (w : WaxRecord) : (s.recordStored w).rd F.WAX_SEQ_next = seqAfter (s.rd F.WAX_SEQ_next) := by
  have hsame : ((s.storeBytes w.at_ w.bytes).wr F.WAX_FILL_bytes (w.at_ + w.bytes.length)).rd F.WAX_SEQ_next
      = s.rd F.WAX_SEQ_next := rd_wr_sep _ (by decide)
  have hlt : seqAfter (s.rd F.WAX_SEQ_next) < 2 ^ 32 := by
    have hseq : s.rd F.WAX_SEQ_next < 2 ^ 32 := s.rd_lt ..
    rw [seqAfter]
    split <;> omega
  rw [recordStored, rd_wr_same]
  rw [hsame]
  exact Nat.mod_eq_of_lt hlt

theorem recordStored_wax (s : State) (w : WaxRecord) : (s.recordStored w).wax
    = { s.wax with store := writeBytes s.wax.store w.at_ (w.bytes.take (onChipSize - w.at_)) } := rfl

theorem extensionFault_fault (s : State) : s.extensionFault.rd F.WAX_STAT_ext_fault = 1 := by
  rw [extensionFault, raise_waxStat _ _ _ _ (by decide) (by decide)]
  exact rd_wr_same ..

/-- The record in progress has failed where it goes beyond the chip. -/
theorem extensionFault_failed {s : State} {w : WaxRecord} (hbusy : s.wax.busy = some w)
    (hext : 786432 < w.at_ + w.bytes.length) : s.extensionFault.wax.failed = true := by
  rw [extensionFault, raise_wax_failed, hbusy]
  simp [hext]

theorem extensionFault_clearWaiting (s : State) : s.extensionFault.wax.clearWaiting = s.wax.clearWaiting := by
  rw [extensionFault, raise_wax_clearWaiting]
  rfl

theorem extensionFault_rd (s : State) {f : Fld} (hev : f.addr 0 0 ∉ eventWords) (h : f.addr 0 0 ≠ 0x1C0004) :
    s.extensionFault.rd f = s.rd f := by
  rw [extensionFault, raise_rd _ _ _ _ (by decide) hev, rd_wr_ne _ h]
  rfl

end State

theorem execWaxbookRecordComplete_eq {s : State} (e : Bool) {w : WaxRecord} (h : s.wax.busy = some w) :
    execWaxbookRecordComplete e s = .next ((if decide (onChipSize < w.at_ + w.bytes.length) && !s.wax.failed && (e || s.mode == 5)
      then s.extensionFault else s).recordFinish w (decide (onChipSize < w.at_ + w.bytes.length))).waitingClear := by
  rw [execWaxbookRecordComplete, h]
  rfl

theorem execWaxbookRecordComplete_idle {s : State} (e : Bool) (h : s.wax.busy = none) :
    execWaxbookRecordComplete e s = .next s := by
  simp only [execWaxbookRecordComplete, h]

/-- A record that ends on chip is stored, and the recorder goes on behind it. -/
theorem execWaxbookRecordComplete_stores {s : State} (e : Bool) {w : WaxRecord} (hbusy : s.wax.busy = some w)
    (hclear : s.wax.clearWaiting = false) (hon : w.at_ + w.bytes.length ≤ 786432) :
    ∃ t, execWaxbookRecordComplete e s = .next t ∧ t.rd F.WAX_FILL_bytes = w.at_ + w.bytes.length ∧ t.rd F.WAX_STAT_busy = 0
      ∧ t.rd F.WAX_SEQ_next = (if s.rd F.WAX_SEQ_next = 2 ^ 32 - 1 then 1 else s.rd F.WAX_SEQ_next + 1)
      ∧ t.wax = { s.wax with busy := none, failed := false, store := writeBytes s.wax.store w.at_ w.bytes, onChipEnd := w.at_ + w.bytes.length }
      ∧ t.hif = s.hif := by
  have hext : decide (onChipSize < w.at_ + w.bytes.length) = false := decide_eq_false (Nat.not_lt.2 hon)
  have htake : w.bytes.take (onChipSize - w.at_) = w.bytes := List.take_of_length_le (by rw [onChipSize]; omega)
  have hend : (s.recordFinish w false).waitingClear = (s.recordOff.recordStored w).endOnChip (w.at_ + w.bytes.length) :=
    if_neg (by rw [Bool.not_eq_true]; exact hclear)
  rw [execWaxbookRecordComplete_eq e hbusy, hext, Bool.false_and, Bool.false_and, if_neg Bool.false_ne_true, hend]
  refine ⟨_, rfl, State.recordStored_fill _ (by omega), ?_, (State.recordStored_seq ..).trans ?_, ?_, rfl⟩
  · exact (State.rd_wr_sep _ (by decide)).trans ((State.rd_wr_sep _ (by decide)).trans (State.rd_wr_same ..))
  · rw [s.recordOff_rd (by decide), seqAfter]
  · rw [State.endOnChip, State.recordStored_wax, htake]
    rfl

/-- A write to the extension that fails loses the record, and stops recording. -/
theorem execWaxbookRecordComplete_fails {s : State} {w : WaxRecord} (hbusy : s.wax.busy = some w)
    (hclear : s.wax.clearWaiting = false) (hext : 786432 < w.at_ + w.bytes.length) (hfailed : s.wax.failed = false) :
    ∃ t, execWaxbookRecordComplete true s = .next t ∧ t.rd F.WAX_STAT_ext_fault = 1 ∧ t.rd F.WAX_STAT_full = 1 ∧ t.wax.busy = none
      ∧ t.rd F.WAX_FILL_bytes = s.rd F.WAX_FILL_bytes ∧ t.rd F.WAX_SEQ_next = s.rd F.WAX_SEQ_next := by
  obtain ⟨u, hu⟩ : ∃ u, u = s.extensionFault := ⟨_, rfl⟩
  have hfault : u.rd F.WAX_STAT_ext_fault = 1 := hu ▸ s.extensionFault_fault
  have hlost : u.wax.failed = true := hu ▸ State.extensionFault_failed hbusy hext
  have hwaits : u.wax.clearWaiting = false := by rw [hu, s.extensionFault_clearWaiting, hclear]
  have hkept {f : Fld} (hev : f.addr 0 0 ∉ eventWords) (h : f.addr 0 0 ≠ 0x1C0004) : u.rd f = s.rd f :=
    hu ▸ s.extensionFault_rd hev h
  have hext' : decide (onChipSize < w.at_ + w.bytes.length) = true := decide_eq_true hext
  have hend : (u.recordFinish w true).waitingClear = u.recordOff.waxStop := by
    rw [State.recordFinish, Bool.true_and, if_pos hlost]
    exact if_neg (by rw [State.waxStop_clearWaiting, Bool.not_eq_true]; exact hwaits)
  refine ⟨u.recordOff.waxStop, ?_, ?_, State.waxStop_full _, State.waxStop_busy _, ?_, ?_⟩
  · rw [execWaxbookRecordComplete_eq _ hbusy, hext', hfailed, Bool.true_or, Bool.and_true, Bool.not_false, Bool.and_true,
      if_pos rfl, ← hu, hend]
  · rw [State.waxStop_stat _ (by decide) (by decide), State.recordOff_rd _ (by decide), hfault]
  · rw [State.waxStop_rd _ (by decide) (by decide), State.recordOff_rd _ (by decide), hkept (by decide) (by decide)]
  · rw [State.waxStop_rd _ (by decide) (by decide), State.recordOff_rd _ (by decide), hkept (by decide) (by decide)]

/-! ## The clear (R490) -/

namespace State

/-- The registers of an emptied store. -/
def waxEmptied (s : State) : State :=
  let s := (((s.wr F.WAX_FILL_bytes 0).wr F.WAX_CUR_offset 0).wr F.WAX_STAT_full 0).wr F.WAX_STAT_lost 0
  (s.wr F.WAX_STAT_ext_fault 0).wr F.WAX_STAT_ext_lost 0

def storeEmptied (s : State) : State := { s with wax := { s.wax with store := [], onChipEnd := 0, clearWaiting := false } }

/-- An emptied store shows it, keeps its sequence number and is reported, whatever the event's detail says. -/
theorem storeEmptied_shows {s : State} (hev : s.takesEvent 123) (d : DWord) :
    ∃ t, s.waxEmptied.storeEmptied.raise 123 1 0xFFFF d = t ∧ t.rd F.WAX_FILL_bytes = 0 ∧ t.rd F.WAX_CUR_offset = 0
      ∧ t.rd F.WAX_STAT_full = 0 ∧ t.wax.store = [] ∧ t.wax.onChipEnd = 0 ∧ t.hasEvent 123 1 0xFFFF
      ∧ t.rd F.WAX_SEQ_next = s.rd F.WAX_SEQ_next := by
  have hrd (f : Fld) : s.waxEmptied.storeEmptied.rd f = s.waxEmptied.rd f := rfl
  have htakes : s.waxEmptied.storeEmptied.takesEvent 123 := by
    have hfills := takesEvent_wr (takesEvent_wr hev (f := F.WAX_FILL_bytes) (v := 0) (i := 0) (j := 0) (by decide))
      (f := F.WAX_CUR_offset) (v := 0) (i := 0) (j := 0) (by decide)
    exact takesEvent_wr (takesEvent_wr (takesEvent_wr (takesEvent_wr hfills (by decide)) (by decide)) (by decide)) (by decide)
  refine ⟨_, rfl, ?_, ?_, ?_, raise_wax_store .., raise_wax_onChipEnd .., raise_hasEvent _ _ _ htakes, ?_⟩
  · rw [raise_rd _ _ _ _ (by decide) (by decide), hrd]
    simp (disch := decide) only [waxEmptied, rd_wr_sep, rd_wr_same]
    rfl
  · rw [raise_rd _ _ _ _ (by decide) (by decide), hrd]
    simp (disch := decide) only [waxEmptied, rd_wr_sep, rd_wr_same]
    rfl
  · rw [raise_waxStat _ _ _ _ (by decide) (by decide), hrd]
    simp (disch := decide) only [waxEmptied, rd_wr_sep, rd_wr_same]
    rfl
  · rw [raise_rd _ _ _ _ (by decide) (by decide), hrd]
    simp (disch := decide) only [waxEmptied, rd_wr_sep]

end State

theorem execWaxbookClear_refuses {s : State} {m : Master} (h : s.privileged m = false) :
    execWaxbookClear m s = .next (s.pvDropped m false true (F.WAX_CTL_clear.addr 0 0)) :=
  if_pos (by simp [h])

theorem execWaxbookClear_waits {s : State} {m : Master} (h : s.privileged m = true) (hbusy : s.wax.busy ≠ none) :
    execWaxbookClear m s = .next { s with wax := { s.wax with clearWaiting := true } } :=
  (if_neg (by simp [h])).trans (if_pos (Option.isSome_iff_ne_none.2 hbusy))

theorem execWaxbookClear_clears {s : State} {m : Master} (h : s.privileged m = true) (hbusy : s.wax.busy = none)
    (hev : s.takesEvent 123) :
    ∃ t, execWaxbookClear m s = .next t ∧ t.rd F.WAX_FILL_bytes = 0 ∧ t.rd F.WAX_CUR_offset = 0 ∧ t.rd F.WAX_STAT_full = 0
      ∧ t.wax.store = [] ∧ t.wax.onChipEnd = 0 ∧ t.hasEvent 123 1 0xFFFF ∧ t.rd F.WAX_SEQ_next = s.rd F.WAX_SEQ_next := by
  refine ⟨s.waxClear, (if_neg (by simp [h])).trans (if_neg (by simp [hbusy])), ?_⟩
  obtain ⟨u, d, hu, hev', hseq⟩ : ∃ (u : State) (d : DWord), s.waxClear = u.waxEmptied.storeEmptied.raise 123 1 0xFFFF d ∧ u.takesEvent 123
      ∧ u.rd F.WAX_SEQ_next = s.rd F.WAX_SEQ_next := by
    refine ⟨if s.rd F.WAX_FILL_bytes == 0 then s.drawn else s, _, State.waxClear.eq_1 s, ?_⟩
    split
    · exact ⟨hev, rfl⟩
    · exact ⟨hev, rfl⟩
  obtain ⟨t, ht, hall⟩ := State.storeEmptied_shows hev' d
  rw [hu, ht, ← hseq]
  exact hall

/-! ## The cursor window (R491) -/

theorem State.badAccess_counts (s : State) (bar4 write : Bool) (off : Nat) : (s.badAccess bar4 write off).rd F.HIF_ACC_ERR_bad_access
    = min (2 ^ F.HIF_ACC_ERR_bad_access.width - 1) (s.rd F.HIF_ACC_ERR_bad_access + 1) := by
  rw [badAccess, raise_rd _ _ _ _ (by decide) (by decide), rd_bump_same _ (by decide)]

theorem execCursorWindowRead_bad (s : State) (m : Master) {w : BitVec 22} {z : BitVec 4} (h : z ≠ 4 ∨ w.toNat % 4 ≠ 0) :
    ∃ t, execCursorWindowRead m w z s = .next t ∧ t.rdata = 0xFFFFFFFF
      ∧ t.rd F.HIF_ACC_ERR_bad_access = min (2 ^ F.HIF_ACC_ERR_bad_access.width - 1) (s.rd F.HIF_ACC_ERR_bad_access + 1) := by
  have hcount := s.badAccess_counts true false (0x400000 + w.toNat)
  unfold execCursorWindowRead
  dsimp only
  rw [if_pos h]
  generalize s.badAccess true false (0x400000 + w.toNat) = u at hcount
  exact ⟨_, rfl, rfl, hcount⟩

section
variable {s : State} {w : BitVec 22} (hw : w.toNat % 4 = 0)
include hw

theorem execCursorWindowRead_beyond (m : Master) (h : s.rd F.WAX_FILL_bytes ≤ 8 * s.rd F.WAX_CUR_offset + w.toNat) :
    execCursorWindowRead m w 4 s = .next { s with rdata := 0 } :=
  (if_neg (by simp [hw])).trans (if_pos h)

theorem execCursorWindowRead_dark (m : Master) (h : 8 * s.rd F.WAX_CUR_offset + w.toNat < s.rd F.WAX_FILL_bytes)
    (hext : 786432 ≤ 8 * s.rd F.WAX_CUR_offset + w.toNat) (hdark : s.on F.WAX_STAT_ext_fault = true ∨ s.mode = 5) :
    execCursorWindowRead m w 4 s = .next { s with rdata := 0xFFFFFFFF } :=
  (if_neg (by simp [hw])).trans ((if_neg (Nat.not_le.2 h)).trans (if_pos ⟨hext, hdark⟩))

theorem execCursorWindowRead_reads {m : Master} (hon : 8 * s.rd F.WAX_CUR_offset + w.toNat + 4 ≤ 786432)
    (h : 8 * s.rd F.WAX_CUR_offset + w.toNat < s.rd F.WAX_FILL_bytes) (hpriv : s.privileged m = true) :
    execCursorWindowRead m w 4 s
      = .next { s with rdata := BitVec.ofNat 32 (le (readBytes s.wax.store (8 * s.rd F.WAX_CUR_offset + w.toNat) 4)) } := by
  have hbytes : (List.range 4).map (fun i => s.storeByte (8 * s.rd F.WAX_CUR_offset + w.toNat + i))
      = readBytes s.wax.store (8 * s.rd F.WAX_CUR_offset + w.toNat) 4 := by
    refine List.map_congr_left fun i hi => if_pos ?_
    have := List.mem_range.1 hi
    rw [onChipSize]
    omega
  rw [execCursorWindowRead, if_neg (by simp [hw])]
  dsimp only
  rw [if_neg (Nat.not_le.2 h), if_neg (by rw [onChipSize]; omega), if_neg (by simp [hpriv]), hbytes]
end

/-- Settles O52, command by command. -/
theorem waxbookCommands : Obligations.WaxbookCommands := by
  unfold Obligations.WaxbookCommands
  refine ⟨execSoftwareTrigger_zero, execSoftwareTrigger_disabled, fun s k => execSoftwareTrigger_fires, fun s => execRecordTake_rests,
    fun s f l hqueue hbusy hfull hen => ⟨execRecordTake_takes hqueue hbusy hfull hen, execRecordTake_stops hqueue hbusy hfull hen⟩,
    fun s => execWaxbookRecordComplete_idle, fun s e w => execWaxbookRecordComplete_stores e, fun s w => execWaxbookRecordComplete_fails,
    fun s m => execWaxbookClear_refuses, fun s m => execWaxbookClear_waits, fun s m => execWaxbookClear_clears,
    fun s m w z => execCursorWindowRead_bad s m, fun s m w hw => ⟨execCursorWindowRead_beyond hw m, execCursorWindowRead_dark hw m,
      execCursorWindowRead_reads hw⟩⟩

end Sys2Proof.Machine

/-! What later proofs need of a segment (chapters 11 and 12): its record, its registers, its Guards, and the changes of its
state. -/

namespace Sys2Proof.Machine

/-! ## Signed fields -/

/-- A number that has room in two's complement reads back. -/
theorem sgn_uns {n : Nat} {x : Int} (hl : -(2 ^ n : Nat) ≤ x) (hu : x < (2 ^ n : Nat)) : sgn (n + 1) (uns (n + 1) x) = x := by
  have hpow : (2 ^ (n + 1) : Nat) = 2 * 2 ^ n := by rw [pow_succ, Nat.mul_comm]
  rw [sgn, uns, hpow, Nat.add_sub_cancel]
  generalize 2 ^ n = p at *
  obtain h | h : x < 0 ∨ 0 ≤ x := by omega
  · have hmod : x % ((2 * p : Nat) : Int) = x + (2 * p : Nat) := by
      rw [← Int.add_mul_emod_self_left x _ 1, mul_one]
      exact Int.emod_eq_of_lt (by omega) (by omega)
    rw [hmod, Nat.mod_eq_of_lt (by omega), if_neg (by omega)]
    omega
  · rw [Int.emod_eq_of_lt h (by omega), Nat.mod_eq_of_lt (by omega), if_pos (by omega)]
    omega

theorem State.rdS_wrS_same (s : State) {f : Fld} {x : Int} {n i j : Nat} (hw : f.width = n + 1) (hf : f.lo + f.width ≤ 32)
    (hl : -(2 ^ n : Nat) ≤ x) (hu : x < (2 ^ n : Nat)) : (s.wrS f x i j).rdS f i j = x := by
  have hlt : uns f.width x < 2 ^ f.width := by
    have hpos : (0 : Int) < (2 ^ f.width : Nat) := by exact_mod_cast Nat.two_pow_pos _
    have h := Int.emod_lt_of_pos x hpos
    have h' := Int.emod_nonneg x hpos.ne'
    rw [uns]
    omega
  rw [State.rdS, State.wrS_eq, State.rd_wr_lt _ hlt hf, hw, sgn_uns hl hu]

theorem State.rdS_congr {s t : State} {f : Fld} {i j : Nat} (h : t.rd f i j = s.rd f i j) : t.rdS f i j = s.rdS f i j := by
  rw [State.rdS, State.rdS, h]

/-! ## The registers of a segment -/

/-- A field that each segment has for itself. -/
abbrev Fld.OfSegment (f : Fld) : Prop := f.s1 = 0x2000 ∧ 0x140000 ≤ f.off ∧ f.off < 0x142000

theorem Fld.OfSegment.le_addr {f : Fld} (h : f.OfSegment) (g : Nat) : 0x140000 ≤ f.addr g 0 := by
  obtain ⟨hs, hl, -⟩ := h
  simp only [Fld.addr, hs]
  omega

theorem Fld.OfSegment.addr_lt {f : Fld} (h : f.OfSegment) {g : Nat} (hg : g < 8) : f.addr g 0 < 0x150000 := by
  obtain ⟨hs, -, hu⟩ := h
  simp only [Fld.addr, hs]
  omega

theorem Fld.OfSegment.notMem_eventWords {f : Fld} (h : f.OfSegment) {g : Nat} (hg : g < 8) : f.addr g 0 ∉ eventWords := by
  have hl := h.le_addr g
  have hu := h.addr_lt hg
  exact State.notMem_eventWords (.inr (.inl ⟨by omega, by omega⟩))

/-- The registers of two segments are different ones. -/
theorem Fld.OfSegment.addr_ne {f f' : Fld} (h : f.OfSegment) (h' : f'.OfSegment) {g k : Nat} (hgk : g ≠ k) :
    f.addr g 0 ≠ f'.addr k 0 := by
  obtain ⟨hs, hl, hu⟩ := h
  obtain ⟨hs', hl', hu'⟩ := h'
  simp only [Fld.addr, hs, hs']
  omega

namespace State

variable (s : State)

/-! ## The record of a segment -/

@[simp] theorem seg_setSeg_same (g : Nat) (v : Seg8) : (s.setSeg g v).seg g = v := lookup_store_same ..
theorem seg_setSeg_ne {g k : Nat} (v : Seg8) (h : k ≠ g) : (s.setSeg g v).seg k = s.seg k := lookup_store_ne _ _ h
theorem seg_congr {t : State} (h : t.combway = s.combway) (g : Nat) : t.seg g = s.seg g := by rw [seg, seg, h]

@[simp] theorem seg_wr (f : Fld) (v i j g : Nat) : (s.wr f v i j).seg g = s.seg g := rfl
@[simp] theorem seg_put (f : Fld) (v : Bool) (i j g : Nat) : (s.put f v i j).seg g = s.seg g := rfl
@[simp] theorem seg_bump (f : Fld) (i j n g : Nat) : (s.bump f i j n).seg g = s.seg g := rfl
@[simp] theorem seg_raise (src code inst : Nat) (d : DWord) (g : Nat) : (s.raise src code inst d).seg g = s.seg g :=
  s.seg_congr (s.raise_combway ..) g
@[simp] theorem seg_startDesc (d : Desc) (g : Nat) : (s.startDesc d).seg g = s.seg g := rfl
@[simp] theorem seg_complete (id status notes : Nat) (res : List Byte) (ind : Bool) (g : Nat) :
    (s.complete id status notes res ind).seg g = s.seg g := s.seg_congr (s.complete_combway ..) g

/-! ## Events of a segment -/

theorem syncEvent_rd {g : Nat} (hg : g < 8) (code : Nat) (d : DWord) {f : Fld} {i j : Nat} (h : f.addr i j ∉ eventWords) :
    (s.syncEvent g code d).rd f i j = s.rd f i j := s.raise_rd _ _ _ (by omega) h

theorem dataEvent_rd {g : Nat} (hg : g < 8) (code : Nat) (d : DWord) {f : Fld} {i j : Nat} (h : f.addr i j ∉ eventWords) :
    (s.dataEvent g code d).rd f i j = s.rd f i j := s.raise_rd _ _ _ (by omega) h

theorem syncEvent_hasEvent {s : State} {g : Nat} (code : Nat) (d : DWord) (h : s.takesEvent (48 + 2 * g)) :
    (s.syncEvent g code d).hasEvent (48 + 2 * g) code g := by
  rw [syncEvent]
  exact raise_hasEvent _ _ _ h

theorem dataEvent_hasEvent {s : State} {g : Nat} (code : Nat) (d : DWord) (h : s.takesEvent (49 + 2 * g)) :
    (s.dataEvent g code d).hasEvent (49 + 2 * g) code g := by
  rw [dataEvent]
  exact raise_hasEvent _ _ _ h

/-- A write of a segment's register, or of one above, is no write of an event's map. -/
theorem takesEvent_wr_high {s : State} {src : Nat} (h : s.takesEvent src) (hsrc : src < 128) {f : Fld} {v i j : Nat}
    (hf : 0x140000 ≤ f.addr i j) : (s.wr f v i j).takesEvent src :=
  takesEvent_wr h (by simp only [Fld.addr, F.HIF_EVT_MAP_enable] at hf ⊢; omega)

@[simp] theorem syncEvent_seg (g code : Nat) (d : DWord) (k : Nat) : (s.syncEvent g code d).seg k = s.seg k := s.seg_raise ..
@[simp] theorem dataEvent_seg (g code : Nat) (d : DWord) (k : Nat) : (s.dataEvent g code d).seg k = s.seg k := s.seg_raise ..

/-! ## Guards -/

theorem setGuard_seg (g : Nat) (b : Bool) (v : Guard) (c : Bool) : (s.setGuard g b v c).seg g
    = if b then { s.seg g with guardB := v } else { s.seg g with guardA := v } := s.seg_setSeg_same g _

theorem setGuards_seg (g : Nat) (c : Bool) : (s.setGuards g c).seg g = { s.seg g with guardA := {}, guardB := {} } := by
  rw [setGuards, setGuard_seg, setGuard_seg]
  rfl

theorem rd_lt_two {f : Fld} (hf : f.width = 1) (i j : Nat) : s.rd f i j < 2 := by
  simpa [hf] using s.rd_lt f i j

theorem setSeg_guardClosed (g k : Nat) (v : Seg8) (b : Bool) : (s.setSeg g v).guardClosed k b = s.guardClosed k b := rfl

theorem setGuard_rd (g : Nat) (b : Bool) (v : Guard) (c : Bool) {f : Fld} (ha : f.Sep F.CMB_GRD_STAT_closed_a)
    (hb : f.Sep F.CMB_GRD_STAT_closed_b) : (s.setGuard g b v c).rd f g = s.rd f g := by
  cases b with
  | false => exact rd_wr_sep _ ha
  | true => exact rd_wr_sep _ hb

theorem setGuards_rd (g : Nat) (c : Bool) {f : Fld} (ha : f.Sep F.CMB_GRD_STAT_closed_a)
    (hb : f.Sep F.CMB_GRD_STAT_closed_b) : (s.setGuards g c).rd f g = s.rd f g := by
  rw [setGuards, setGuard_rd _ _ _ _ _ ha hb, setGuard_rd _ _ _ _ _ ha hb]

theorem setGuard_takesEvent {s : State} {src : Nat} (h : s.takesEvent src) (hsrc : src < 128) (g : Nat) (b : Bool) (v : Guard) (c : Bool) :
    (s.setGuard g b v c).takesEvent src := by
  have hset (x : Seg8) : (s.setSeg g x).takesEvent src := h
  cases b with
  | false => exact takesEvent_wr_high (f := F.CMB_GRD_STAT_closed_a) (hset _) hsrc (Fld.OfSegment.le_addr (by decide) _)
  | true => exact takesEvent_wr_high (f := F.CMB_GRD_STAT_closed_b) (hset _) hsrc (Fld.OfSegment.le_addr (by decide) _)

theorem setGuard_closed_same (g : Nat) (b : Bool) (v : Guard) (c : Bool) : (s.setGuard g b v c).guardClosed g b = c := by
  have hset (f : Fld) (hf : f.width = 1) (hlo : f.lo + f.width ≤ 32) (t : State) : (t.put f c g).on f g = c := by
    rw [on, put_eq, rd_wr_same _ hlo, hf]
    cases c <;> rfl
  cases b with
  | false => exact hset F.CMB_GRD_STAT_closed_a rfl (by decide) _
  | true => exact hset F.CMB_GRD_STAT_closed_b rfl (by decide) _

theorem setGuard_closed_other (g : Nat) (b : Bool) (v : Guard) (c : Bool) :
    (s.setGuard g b v c).guardClosed g (!b) = s.guardClosed g (!b) := by
  cases b with
  | false => exact on_wr_sep (g := F.CMB_GRD_STAT_closed_b) (f := F.CMB_GRD_STAT_closed_a) _ (by decide)
  | true => exact on_wr_sep (g := F.CMB_GRD_STAT_closed_a) (f := F.CMB_GRD_STAT_closed_b) _ (by decide)

theorem setGuards_closed (g : Nat) (c b : Bool) : (s.setGuards g c).guardClosed g b = (c || s.quench.safStopped) := by
  rw [setGuards]
  cases b with
  | false => exact (setGuard_closed_other _ g true _ _).trans (setGuard_closed_same ..)
  | true => exact setGuard_closed_same ..

variable {s}

/-- The Guards are as before where their flags are. -/
theorem guardClosed_congr {t : State} {g : Nat} (ha : t.rd F.CMB_GRD_STAT_closed_a g = s.rd F.CMB_GRD_STAT_closed_a g)
    (hb : t.rd F.CMB_GRD_STAT_closed_b g = s.rd F.CMB_GRD_STAT_closed_b g) (b : Bool) : t.guardClosed g b = s.guardClosed g b := by
  cases b with
  | false => exact congrArg (· != 0) ha
  | true => exact congrArg (· != 0) hb

theorem syncEvent_guardClosed (s : State) {g : Nat} (code : Nat) (d : DWord) (hg : g < 8) (b : Bool) :
    (s.syncEvent g code d).guardClosed g b = s.guardClosed g b :=
  guardClosed_congr (s.syncEvent_rd hg _ _ (Fld.OfSegment.notMem_eventWords (by decide) hg))
    (s.syncEvent_rd hg _ _ (Fld.OfSegment.notMem_eventWords (by decide) hg)) b

theorem raise_guardClosed (s : State) {src g : Nat} (code inst : Nat) (d : DWord) (hsrc : src < 128) (hg : g < 8) (b : Bool) :
    (s.raise src code inst d).guardClosed g b = s.guardClosed g b :=
  guardClosed_congr (s.raise_rd _ _ _ hsrc (Fld.OfSegment.notMem_eventWords (by decide) hg))
    (s.raise_rd _ _ _ hsrc (Fld.OfSegment.notMem_eventWords (by decide) hg)) b

theorem wr_guardClosed (s : State) {f : Fld} {v g : Nat} (ha : F.CMB_GRD_STAT_closed_a.Sep f) (hb : F.CMB_GRD_STAT_closed_b.Sep f)
    (b : Bool) : (s.wr f v g).guardClosed g b = s.guardClosed g b := guardClosed_congr (rd_wr_sep _ ha) (rd_wr_sep _ hb) b

/-- A write elsewhere leaves a segment's registers alone. -/
theorem rd_wr_outside (s : State) {f f' : Fld} (h : f.OfSegment) {g v i j : Nat} (hg : g < 8)
    (hout : f'.addr i j < 0x140000 ∨ 0x150000 ≤ f'.addr i j) : (s.wr f' v i j).rd f g = s.rd f g := by
  have hl := h.le_addr g
  have hu := h.addr_lt hg
  exact s.rd_wr_ne (by omega)

variable (s)

/-! ## Changes of a segment's state -/

theorem enterCmb_seg (g k : Nat) : (s.enterCmb g k).seg g
    = { s.seg g with since := s.cellNs, cycles := 0, good := 0, ready := false, noMaster := 0, noSync := 0 } := s.seg_setSeg_same g _

theorem enterCmb_state {k : Nat} (g : Nat) (hk : k < 8) : (s.enterCmb g k).cmbState g = k := rd_wr_lt _ hk (by decide)

theorem enterCmb_rd (g k : Nat) {f : Fld} (h : f.Sep F.CMB_SYNC_STAT_state) : (s.enterCmb g k).rd f g = s.rd f g := rd_wr_sep _ h

theorem enterCmb_takesEvent {s : State} {src : Nat} (h : s.takesEvent src) (hsrc : src < 128) (g k : Nat) :
    (s.enterCmb g k).takesEvent src := by
  have hset (x : Seg8) : (s.setSeg g x).takesEvent src := h
  exact takesEvent_wr_high (f := F.CMB_SYNC_STAT_state) (hset _) hsrc (Fld.OfSegment.le_addr (by decide) _)

theorem setGuards_takesEvent {s : State} {src : Nat} (h : s.takesEvent src) (hsrc : src < 128) (g : Nat) (c : Bool) :
    (s.setGuards g c).takesEvent src := setGuard_takesEvent (setGuard_takesEvent h hsrc ..) hsrc ..

/-! ## The sync master -/

/-- The sync master as the segment shows it. -/
def showMaster (s : State) (g node : Nat) : State :=
  (s.wr F.CMB_SYNC_STAT_master node g).put F.CMB_SYNC_STAT_master_self (node == s.ownNode g && node != 0 && s.mode != 6) g

/-- Beside the segment's registers, the timing segment shows its master in TIM_STAT. -/
theorem setMaster_eq (g node : Nat) : s.setMaster g node = s.showMaster g node
    ∨ ∃ u, u = (s.showMaster g node).put F.TIM_STAT_master (node == s.ownNode g && node != 0 && s.mode != 6)
      ∧ s.setMaster g node = u.syncHoldover := by
  unfold setMaster
  dsimp only
  rw [← showMaster]
  split
  · exact .inr ⟨_, rfl, rfl⟩
  · exact .inl rfl

theorem setMaster_combway (g node : Nat) : (s.setMaster g node).combway = s.combway := by
  obtain h | ⟨u, hu, h⟩ := s.setMaster_eq g node
  · rw [h]; rfl
  · rw [h, syncHoldover, put_eq, wr_combway, hu]; rfl

theorem setMaster_quench (g node : Nat) : (s.setMaster g node).quench = s.quench := by
  obtain h | ⟨u, hu, h⟩ := s.setMaster_eq g node
  · rw [h]; rfl
  · rw [h, syncHoldover, put_eq, wr_quench, hu]; rfl

theorem setMaster_seg (g node k : Nat) : (s.setMaster g node).seg k = s.seg k := s.seg_congr (s.setMaster_combway g node) k

theorem setMaster_rd_shown {g : Nat} (hg : g < 8) (node : Nat) {f : Fld} (h : f.OfSegment) :
    (s.setMaster g node).rd f g = (s.showMaster g node).rd f g := by
  obtain h' | ⟨u, hu, h'⟩ := s.setMaster_eq g node
  · rw [h']
  · rw [h', syncHoldover, put_eq, rd_wr_outside _ h hg (by decide), hu, put_eq, rd_wr_outside _ h hg (by decide)]

theorem setMaster_master {g : Nat} (hg : g < 8) (node : Nat) :
    (s.setMaster g node).rd F.CMB_SYNC_STAT_master g = node % 2 ^ F.CMB_SYNC_STAT_master.width := by
  rw [setMaster_rd_shown _ hg _ (by decide), showMaster, put_eq, rd_wr_sep _ (by decide), rd_wr_same _ (by decide)]

theorem setMaster_rd {g : Nat} (hg : g < 8) (node : Nat) {f : Fld} (h : f.OfSegment) (hm : f.Sep F.CMB_SYNC_STAT_master)
    (hs : f.Sep F.CMB_SYNC_STAT_master_self) : (s.setMaster g node).rd f g = s.rd f g := by
  rw [setMaster_rd_shown _ hg _ h, showMaster, put_eq, rd_wr_sep _ hs, rd_wr_sep _ hm]

theorem setMaster_takesEvent {s : State} {src : Nat} (h : s.takesEvent src) (hsrc : src < 128) (g node : Nat) :
    (s.setMaster g node).takesEvent src := by
  have hshow : (s.showMaster g node).takesEvent src := by
    rw [showMaster, put_eq]
    exact takesEvent_wr_high (takesEvent_wr_high h hsrc (Fld.OfSegment.le_addr (by decide) _)) hsrc (Fld.OfSegment.le_addr (by decide) _)
  obtain h' | ⟨u, hu, h'⟩ := s.setMaster_eq g node
  · rw [h']; exact hshow
  · rw [h', syncHoldover, put_eq, hu, put_eq]
    exact takesEvent_wr_high (takesEvent_wr_high hshow hsrc (by decide)) hsrc (by decide)

/-! ## LISTEN -/

theorem dropCycle_combway (g : Nat) : (s.dropCycle g).combway = s.combway := by
  unfold dropCycle
  split <;> rfl

theorem dropCycle_quench (g : Nat) : (s.dropCycle g).quench = s.quench := by
  unfold dropCycle
  split <;> rfl

theorem dropCycle_rd (g : Nat) {k : Nat} (hk : k < 8) {f : Fld} (h : f.OfSegment) : (s.dropCycle g).rd f k = s.rd f k := by
  unfold dropCycle
  split
  · rw [rd_wr_outside _ h hk (by decide), rd_wr_outside _ h hk (by decide)]
  · rfl

theorem dropCycle_takesEvent {s : State} {src : Nat} (h : s.takesEvent src) (hsrc : src < 128) (g : Nat) :
    (s.dropCycle g).takesEvent src := by
  unfold dropCycle
  split
  · exact takesEvent_wr_high (takesEvent_wr h (by simp only [Fld.addr, F.HIF_EVT_MAP_enable, F.GLB_STAT_cycle_run]; omega)) hsrc (by decide)
  · exact h

/-- LISTEN before its sync master is forgotten. -/
def listening (s : State) (g : Nat) : State :=
  let t := ((s.dropCycle g).enterCmb g 1).setGuards g true
  t.setSeg g { t.seg g with attempts := 0, dynId := 64, mini := 0, occ := 0, mute := false }

theorem enterListen_eq (g : Nat) : s.enterListen g = (s.listening g).setMaster g 0 := rfl

theorem enterListen_rd {g : Nat} (hg : g < 8) {f : Fld} (h : f.OfSegment) (hstate : f.Sep F.CMB_SYNC_STAT_state)
    (ha : f.Sep F.CMB_GRD_STAT_closed_a) (hb : f.Sep F.CMB_GRD_STAT_closed_b) (hm : f.Sep F.CMB_SYNC_STAT_master)
    (hs : f.Sep F.CMB_SYNC_STAT_master_self) : (s.enterListen g).rd f g = s.rd f g := by
  rw [enterListen_eq, setMaster_rd _ hg _ h hm hs, listening, setSeg_rd, setGuards_rd _ _ _ ha hb, enterCmb_rd _ _ _ hstate,
    dropCycle_rd _ _ hg h]

theorem enterListen_state {g : Nat} (hg : g < 8) : (s.enterListen g).cmbState g = 1 := by
  rw [cmbState, enterListen_eq, setMaster_rd _ hg _ (by decide) (by decide) (by decide), listening, setSeg_rd,
    setGuards_rd _ _ _ (by decide) (by decide)]
  exact enterCmb_state _ g (by decide)

theorem enterListen_master {g : Nat} (hg : g < 8) : (s.enterListen g).rd F.CMB_SYNC_STAT_master g = 0 := setMaster_master _ hg 0

theorem enterListen_closed {g : Nat} (hg : g < 8) (b : Bool) : (s.enterListen g).guardClosed g b = true := by
  rw [enterListen_eq, guardClosed_congr (setMaster_rd _ hg _ (by decide) (by decide) (by decide))
    (setMaster_rd _ hg _ (by decide) (by decide) (by decide)), listening, setSeg_guardClosed, setGuards_closed, Bool.true_or]

theorem enterListen_sched (g : Nat) : ((s.enterListen g).seg g).sched = (s.seg g).sched := by
  rw [enterListen_eq, setMaster_seg, listening, seg_setSeg_same, setGuards_seg, enterCmb_seg]
  dsimp only
  rw [s.seg_congr (s.dropCycle_combway g) g]

theorem enterListen_takesEvent {s : State} {src : Nat} (h : s.takesEvent src) (hsrc : src < 128) (g : Nat) :
    (s.enterListen g).takesEvent src := by
  rw [enterListen_eq]
  have hset {t : State} (ht : t.takesEvent src) (x : Seg8) : (t.setSeg g x).takesEvent src := ht
  exact setMaster_takesEvent (hset (setGuards_takesEvent (enterCmb_takesEvent (dropCycle_takesEvent h hsrc g) hsrc ..) hsrc ..) _) hsrc ..

/-! ## SYNC -/

theorem enterSync_enters {g : Nat} (hg : g < 8) (own : Bool) : (s.enterSync g own).cmbState g = 5 := by
  rw [enterSync, cmbState, syncEvent_rd _ hg _ _ (Fld.OfSegment.notMem_eventWords (by decide) hg)]
  exact enterCmb_state _ g (by decide)

theorem enterSync_rd {g : Nat} (hg : g < 8) (own : Bool) {f : Fld} (h : f.OfSegment) (hstate : f.Sep F.CMB_SYNC_STAT_state) :
    (s.enterSync g own).rd f g = s.rd f g := by
  rw [enterSync, syncEvent_rd _ hg _ _ (h.notMem_eventWords hg)]
  exact enterCmb_rd _ _ _ hstate

theorem enterSync_hasEvent {s : State} {g : Nat} (hg : g < 8) (own : Bool) (h : s.takesEvent (48 + 2 * g)) :
    (s.enterSync g own).hasEvent (48 + 2 * g) 1 g := by
  rw [enterSync]
  have hset {t : State} (ht : t.takesEvent (48 + 2 * g)) (x : Seg8) : (t.setSeg g x).takesEvent (48 + 2 * g) := ht
  exact syncEvent_hasEvent _ _ (hset (enterCmb_takesEvent h (by omega) g 5) _)

/-- The record of a segment in SYNC but for its Guards and the counts of its states. -/
theorem enterSync_seg (g : Nat) (own : Bool) : ∃ a b, (s.enterSync g own).seg g
    = { s.seg g with since := s.cellNs, cycles := 0, good := 0, ready := false, noMaster := 0, noSync := 0, guardA := a, guardB := b } := by
  rw [enterSync, syncEvent_seg, seg_setSeg_same, enterCmb_seg]
  exact ⟨_, _, rfl⟩

end State

end Sys2Proof.Machine

/-! Proofs about the Guards and Waggle (R332 to R338). -/

namespace Sys2Proof.Machine

/-! ## Guard (R332, R333) -/

theorem execGuardCut_counts {s : State} {g : Fin 8} (k : Option (Fin 64)) (hev : s.takesEvent (48 + 2 * g)) :
    ∃ t, execGuardCut g k s = .next t ∧ t.hasEvent (48 + 2 * g) 8 g
      ∧ t.rd F.CMB_GRD_STAT_cuts g = min (s.rd F.CMB_GRD_STAT_cuts g + 1) (2 ^ F.CMB_GRD_STAT_cuts.width - 1) := by
  obtain ⟨u, hu⟩ : ∃ u, u = s.bump F.CMB_GRD_STAT_cuts g := ⟨_, rfl⟩
  have hcuts : u.rd F.CMB_GRD_STAT_cuts g = min (s.rd F.CMB_GRD_STAT_cuts g + 1) (2 ^ F.CMB_GRD_STAT_cuts.width - 1) := by
    rw [hu, s.rd_bump_same (by decide), min_comm]
  have hev' : u.takesEvent (48 + 2 * g) := by
    rw [hu, State.bump_eq]
    exact State.takesEvent_wr_high hev (by omega) (Fld.OfSegment.le_addr (by decide) _)
  have hexec : execGuardCut g k s = .next (u.syncEvent g 8 (detail [(0, (k.map (·.val)).getD 0xFF)])) := by rw [execGuardCut, hu]
  exact ⟨_, hexec, State.syncEvent_hasEvent _ _ hev', (u.syncEvent_rd g.isLt _ _ (Fld.OfSegment.notMem_eventWords (by decide) g.isLt)).trans hcuts⟩

section View
variable {s : State} {g : Fin 8} {b : Bool} {d : Word}

/-- The difference as shown, in units of 4 ns. -/
def State.viewShown (s : State) (g : Nat) (d : Int) : State := s.wrS F.CMB_GRD_STAT_diff (clampI (-128) 127 (tdiv d 4)) g

theorem State.viewShown_diff (s : State) (g : Nat) (d : Int) :
    (s.viewShown g d).rdS F.CMB_GRD_STAT_diff g = clampI (-128) 127 (tdiv d 4) := by
  refine s.rdS_wrS_same (n := 7) rfl (by decide) ?_ ?_
  · rw [clampI]
    split
    · decide
    · split
      · decide
      · norm_num
        omega
  · rw [clampI]
    split
    · decide
    · split
      · decide
      · norm_num
        omega

theorem State.viewShown_closed (s : State) (g : Nat) (d : Int) (b : Bool) : (s.viewShown g d).guardClosed g b = s.guardClosed g b := by
  rw [viewShown, wrS_eq]
  exact s.wr_guardClosed (by decide) (by decide) b

theorem execGuardViewCompare_differs (hstate : s.cmbState g ≠ 0) (hd : d.toInt < -100 ∨ 100 < d.toInt)
    (hopen : s.guardClosed g b = false) (hev : s.takesEvent (48 + 2 * g)) :
    ∃ t, execGuardViewCompare g b d s = .next t ∧ t.hasEvent (48 + 2 * g) 7 g
      ∧ t.guardClosed g b = !s.on F.CMB_GRD_CTL_trust_star g ∧ t.guardClosed g (!b) = s.guardClosed g (!b)
      ∧ t.rdS F.CMB_GRD_STAT_diff g = clampI (-128) 127 (tdiv d.toInt 4) := by
  obtain ⟨u, hu⟩ : ∃ u, u = s.viewShown g d.toInt := ⟨_, rfl⟩
  have hclosed (b : Bool) : u.guardClosed g b = s.guardClosed g b := hu ▸ s.viewShown_closed g d.toInt b
  have hdiff : u.rdS F.CMB_GRD_STAT_diff g = clampI (-128) 127 (tdiv d.toInt 4) := hu ▸ s.viewShown_diff g d.toInt
  have hstate' : u.cmbState g = s.cmbState g := hu ▸ State.rd_wr_sep _ (by decide)
  have htrust : u.on F.CMB_GRD_CTL_trust_star g = s.on F.CMB_GRD_CTL_trust_star g := hu ▸ State.on_wr_sep _ (by decide)
  have hev' : u.takesEvent (48 + 2 * g) := by
    rw [hu]
    exact State.takesEvent_wr_high hev (by omega) (Fld.OfSegment.le_addr (by decide) _)
  obtain ⟨w, hw, hwev, hwclosed, hwother, hwdiff⟩ : ∃ w : State, w = (if u.on F.CMB_GRD_CTL_trust_star g then u
      else u.setGuard g b { (s.seg g).guard b with fault := true, reentered := false } true) ∧ w.takesEvent (48 + 2 * g)
      ∧ w.guardClosed g b = (!s.on F.CMB_GRD_CTL_trust_star g) ∧ w.guardClosed g (!b) = s.guardClosed g (!b)
      ∧ w.rdS F.CMB_GRD_STAT_diff g = u.rdS F.CMB_GRD_STAT_diff g := by
    refine ⟨_, rfl, ?_⟩
    rw [htrust]
    cases htr : s.on F.CMB_GRD_CTL_trust_star g with
    | true => exact ⟨hev', (hclosed b).trans hopen, hclosed _, rfl⟩
    | false =>
      refine ⟨u.setGuard_takesEvent hev' (by omega) .., u.setGuard_closed_same .., (u.setGuard_closed_other ..).trans (hclosed _), ?_⟩
      exact State.rdS_congr (u.setGuard_rd _ _ _ _ (by decide) (by decide))
  have hexec : execGuardViewCompare g b d s = .next (w.syncEvent g 7 (detail [(0, b2n b), (4, d.toNat)])) := by
    rw [execGuardViewCompare]
    dsimp only
    rw [← State.viewShown, ← hu, hstate', if_neg hstate, if_pos hd, if_neg (by simp [hclosed, hopen]), hw]
  refine ⟨_, hexec, State.syncEvent_hasEvent _ _ hwev, (w.syncEvent_guardClosed _ _ g.isLt _).trans hwclosed,
    (w.syncEvent_guardClosed _ _ g.isLt _).trans hwother, ?_⟩
  rw [State.rdS_congr (w.syncEvent_rd g.isLt _ _ (Fld.OfSegment.notMem_eventWords (by decide) g.isLt)), hwdiff, hdiff]

theorem execGuardViewCompare_agrees (hl : -100 ≤ d.toInt) (hu : d.toInt ≤ 100) (hopen : s.guardClosed g b = false) :
    ∃ t, execGuardViewCompare g b d s = .next t ∧ t.rdS F.CMB_GRD_STAT_diff g = tdiv d.toInt 4
      ∧ s.OnlyWords t [F.CMB_GRD_STAT_diff.addr g 0] ∧ t.guardClosed g b = false ∧ t.combway = s.combway := by
  have hclosed : (s.viewShown g d.toInt).guardClosed g b = false := (s.viewShown_closed ..).trans hopen
  have hexec : execGuardViewCompare g b d s = .next (s.viewShown g d.toInt) := by
    rw [execGuardViewCompare]
    dsimp only
    rw [← State.viewShown]
    split
    · rfl
    · rw [if_neg (by omega), if_neg (by simp [hclosed])]
  have hsame : clampI (-128) 127 (tdiv d.toInt 4) = tdiv d.toInt 4 := by
    have hdiv := Int.mul_tdiv_add_tmod d.toInt 4
    have hlt := Int.tmod_lt_of_pos d.toInt (b := 4) (by decide)
    have hgt := Int.lt_tmod_of_pos d.toInt (b := 4) (by decide)
    rw [tdiv, clampI, if_neg (by omega), if_neg (by omega)]
  exact ⟨_, hexec, (s.viewShown_diff ..).trans hsame, (State.OnlyWords.refl s _).wr (f := F.CMB_GRD_STAT_diff) List.mem_cons_self,
    hclosed, rfl⟩
end View

/-- A Guard that has seen no sync frame for 4 cycles closes. -/
def State.guardMissed (s : State) (g : Nat) (b : Bool) : State :=
  let v := (s.seg g).guard b
  if s.guardClosed g b ∨ v.missed < 4 then s else s.setGuard g b { v with fault := true, reentered := false } true

theorem State.guardMissed_keeps {s : State} {g : Nat} {b : Bool} (h : ((s.seg g).guard b).missed < 4) : s.guardMissed g b = s :=
  if_pos (.inr h)

theorem State.guardMissed_closes {s : State} {g : Nat} {b : Bool} (hopen : s.guardClosed g b = false)
    (h : 4 ≤ ((s.seg g).guard b).missed) :
    s.guardMissed g b = s.setGuard g b { (s.seg g).guard b with fault := true, reentered := false } true :=
  if_neg (by simp only [hopen, Bool.false_eq_true, false_or]; omega)

theorem execGuardSyncLoss_closes {s : State} {g : Fin 8} (hopen : s.guardClosed g false = false) (hA : 4 ≤ (s.seg g).guardA.missed)
    (hB : (s.seg g).guardB.missed < 4) :
    ∃ t, execGuardSyncLoss g s = .next t ∧ t.guardClosed g false = true ∧ (t.seg g).guardA.fault = true
      ∧ t.guardClosed g true = s.guardClosed g true ∧ (t.seg g).guardB = (s.seg g).guardB := by
  obtain ⟨u, hu⟩ : ∃ u, u = s.setGuard g false { (s.seg g).guardA with fault := true, reentered := false } true := ⟨_, rfl⟩
  have hseg : u.seg g = { s.seg g with guardA := { (s.seg g).guardA with fault := true, reentered := false } } :=
    hu ▸ s.setGuard_seg ..
  have hexec : execGuardSyncLoss g s = .next u := by
    change Host.Outcome.next ((s.guardMissed g false).guardMissed g true) = _
    have hfalse : s.guardMissed g false = u := (State.guardMissed_closes hopen hA).trans hu.symm
    rw [hfalse, State.guardMissed_keeps (by rw [hseg]; exact hB)]
  refine ⟨u, hexec, hu ▸ s.setGuard_closed_same .., ?_, hu ▸ s.setGuard_closed_other g false _ _, ?_⟩
  · rw [hseg]
  · rw [hseg]

/-! ## Waggle (R335 to R338) -/

theorem execWaggleStart_starts {s : State} {g : Fin 8} (hbusy : s.on F.CMB_WGL_STAT_busy g = false)
    (hmode : s.on F.CMB_WGL_CTL_mode g = false) (hstate : s.cmbState g = 5) (hsched : Sched.mode (s.sched g) ≠ 1)
    (howner : Sched.ownerOf (s.sched g) (s.rd F.CMB_WGL_STAT_ident g) = some (s.ownNode g)) :
    ∃ t, execWaggleStart g s = .next t ∧ t.rd F.CMB_WGL_STAT_busy g = 1 ∧ (t.seg g).wag = {}
      ∧ s.OnlyWords t [F.CMB_WGL_STAT_busy.addr g 0] := by
  refine ⟨(s.setSeg g { s.seg g with wag := {} }).wr F.CMB_WGL_STAT_busy 1 g, ?_, State.rd_wr_same .., ?_,
    (State.OnlyWords.refl s _).wr (f := F.CMB_WGL_STAT_busy) List.mem_cons_self⟩
  · unfold execWaggleStart
    exact if_neg (by simp [hbusy, hmode, hstate, hsched, howner])
  · rw [State.seg_wr, State.seg_setSeg_same]

theorem execWaggleStart_ignored {s : State} {g : Fin 8} (hbusy : s.on F.CMB_WGL_STAT_busy g = true) :
    execWaggleStart g s = .next (s.wrIgnored .seg g (F.CMB_WGL_CTL_start.addr g 0)) :=
  if_pos (by rw [hbusy, Bool.true_or])

theorem execWaggleStop_stops {s : State} {g : Fin 8} (hbusy : s.on F.CMB_WGL_STAT_busy g = true) (hend : (s.seg g).wag.ending = none) :
    execWaggleStop g s = .next (s.setSeg g { s.seg g with wag := { (s.seg g).wag with ending := some 1 } }) :=
  if_neg (by simp [hbusy, hend])

theorem execWaggleShot_first {s : State} {g : Fin 8} {c : BitVec 16} (neg : Bool) (hbusy : s.on F.CMB_WGL_STAT_busy g = true)
    (hmode : s.on F.CMB_WGL_CTL_mode g = true) (hwag : (s.seg g).wag = {}) (hblank : 10 * s.rd F.CMB_WGL_STAT_blank g ≤ c.toNat) :
    ∃ t, execWaggleShot g [(c, neg)] s = .next t ∧ (t.seg g).wag.shots = 1 ∧ t.regs = s.regs
      ∧ (t.seg g).wag.refl = [{ last := c.toNat, negative := neg, shots := 1, shot := 1, sum := c.toNat }] := by
  have hpow : 0 < 2 ^ s.rd F.CMB_WGL_STAT_shots_log2 g := Nat.two_pow_pos _
  unfold execWaggleShot
  simp only [hbusy, hmode, hwag, Bool.not_true, Option.isSome_none, Bool.false_and, Bool.false_eq_true, hpow.not_ge, or_self, if_false,
    bne_self_eq_false, Bool.and_false]
  refine ⟨_, rfl, ?_, rfl, ?_⟩
  · rw [State.seg_setSeg_same]
  · rw [State.seg_setSeg_same]
    simp [hblank, mergeCrossing]

theorem execWaggleDone_posts {s : State} {g : Fin 8} (hbusy : s.on F.CMB_WGL_STAT_busy g = true)
    (hend : (s.seg g).wag.ending = some 1) (hev : s.takesEvent (49 + 2 * g)) :
    ∃ t w, execWaggleDone g s = .next t ∧ t.rd F.CMB_WGL_STAT_busy g = 0 ∧ t.hasEvent (49 + 2 * g) 8 g
      ∧ t.mailbox (112 + 2 * g + s.rd F.CMB_WGL_CTL_chan g) = (s.mailbox (112 + 2 * g + s.rd F.CMB_WGL_CTL_chan g)).post w
      ∧ w = BitVec.ofNat 32 (((s.seg g).wag.refl.take 16).length + 256 * s.rd F.CMB_WGL_STAT_shots_log2 g + 65536 * s.rd F.CMB_WGL_CFG_vf g)
          :: BitVec.ofNat 32 (s.seg g).wag.shots :: ((s.seg g).wag.refl.take 16).flatMap (reflWords (s.rd F.CMB_WGL_CFG_vf g)) := by
  obtain ⟨w, hw⟩ : ∃ w, w = BitVec.ofNat 32 (((s.seg g).wag.refl.take 16).length + 256 * s.rd F.CMB_WGL_STAT_shots_log2 g
    + 65536 * s.rd F.CMB_WGL_CFG_vf g) :: BitVec.ofNat 32 (s.seg g).wag.shots
      :: ((s.seg g).wag.refl.take 16).flatMap (reflWords (s.rd F.CMB_WGL_CFG_vf g)) := ⟨_, rfl⟩
  obtain ⟨u, hu⟩ : ∃ u, u = (s.wr F.CMB_WGL_STAT_busy 0 g).post (112 + 2 * g + s.rd F.CMB_WGL_CTL_chan g) w := ⟨_, rfl⟩
  have hbusyu : u.rd F.CMB_WGL_STAT_busy g = 0 := hu ▸ State.rd_wr_same ..
  have hev' : u.takesEvent (49 + 2 * g) := by
    rw [hu]
    exact State.takesEvent_wr_high (f := F.CMB_WGL_STAT_busy) (v := 0) hev (by omega) (Fld.OfSegment.le_addr (by decide) _)
  have hmail : u.mailbox (112 + 2 * g + s.rd F.CMB_WGL_CTL_chan g) = (s.mailbox (112 + 2 * g + s.rd F.CMB_WGL_CTL_chan g)).post w := by
    rw [hu]
    exact State.mailbox_setMailbox_same ..
  obtain ⟨d, hexec⟩ : ∃ d, execWaggleDone g s = .next (u.dataEvent g 8 d) := by
    rw [execWaggleDone]
    dsimp only
    rw [hend, hu, hw]
    split
    · next h => split at h <;> cases h
    · exact ⟨_, if_neg (by simp [hbusy])⟩
  refine ⟨_, w, hexec, (u.dataEvent_rd g.isLt _ _ (Fld.OfSegment.notMem_eventWords (by decide) g.isLt)).trans hbusyu,
    State.dataEvent_hasEvent _ _ hev', ?_, hw⟩
  rw [State.dataEvent, State.mailbox, State.raise_glb_mailbox]
  exact hmail

theorem execWaggleDone_idle {s : State} {g : Fin 8} (hbusy : s.on F.CMB_WGL_STAT_busy g = false) : execWaggleDone g s = .next s := by
  rw [execWaggleDone]
  dsimp only
  split
  · rfl
  · exact if_pos (by simp [hbusy])

/-- Settles O35, clause by clause. -/
theorem guardAndWaggle : Obligations.GuardAndWaggle := by
  unfold Obligations.GuardAndWaggle
  exact ⟨fun _ _ => execGuardCut_counts, fun _ _ _ _ => execGuardViewCompare_differs, fun _ _ _ _ => execGuardViewCompare_agrees,
    fun _ _ => execGuardSyncLoss_closes, fun _ _ => execWaggleStart_starts, fun _ _ => execWaggleStart_ignored,
    fun _ _ => execWaggleStop_stops, fun _ _ _ neg => execWaggleShot_first neg, fun _ _ => execWaggleDone_posts,
    fun _ _ => execWaggleDone_idle⟩

end Sys2Proof.Machine

/-! What later proofs need of arrival offsets (R326): the table of a segment, and the registers that show it. -/

namespace Sys2Proof.Machine

namespace Seg8

theorem learn_setLearn_same (x : Seg8) (b : Bool) (k : Nat) (v : Learn) : (x.setLearn b k v).learn b k = v := by
  cases b with
  | false => exact lookup_store_same ..
  | true => exact lookup_store_same ..

theorem learn_setLearn_ne (x : Seg8) {b c : Bool} {k j : Nat} (v : Learn) (h : (j, c) ≠ (k, b)) :
    (x.setLearn b k v).learn c j = x.learn c j := by
  cases b with
  | false =>
    cases c with
    | false => exact lookup_store_ne _ _ fun hjk => h (by rw [hjk])
    | true => rfl
  | true =>
    cases c with
    | false => rfl
    | true => exact lookup_store_ne _ _ fun hjk => h (by rw [hjk])

end Seg8

namespace State

variable (s : State)

theorem setLearn_seg (g : Nat) (b : Bool) (k : Nat) (v : Learn) : (s.setLearn g b k v).seg g = (s.seg g).setLearn b k v := by
  rw [setLearn, seg_put, wrS_eq, seg_wr, seg_setSeg_same]

/-- The registers of an offset lie above those of the segment itself. -/
theorem setLearn_rd {g : Nat} (b : Bool) {k : Nat} (v : Learn) {f : Fld} (h : f.OfSegment) (hoff : f.off < 0x140500) :
    (s.setLearn g b k v).rd f g = s.rd f g := by
  obtain ⟨hs, -, -⟩ := h
  have hne (f' : Fld) (hs1 : f'.s1 = 0x2000) (hle : 0x140500 ≤ f'.off) : f.addr g 0 ≠ f'.addr g k := by
    simp only [Fld.addr, hs, hs1]
    omega
  rw [setLearn, put_eq, wrS_eq]
  cases b with
  | false =>
    exact (rd_wr_ne _ (hne F.CMB_ARR_A_learned rfl (by decide))).trans (rd_wr_ne _ (hne F.CMB_ARR_A_offset rfl (by decide)))
  | true =>
    exact (rd_wr_ne _ (hne F.CMB_ARR_B_learned rfl (by decide))).trans (rd_wr_ne _ (hne F.CMB_ARR_B_offset rfl (by decide)))

theorem setLearn_takesEvent {s : State} {src : Nat} (h : s.takesEvent src) (hsrc : src < 128) (g : Nat) (b : Bool) (k : Nat) (v : Learn) :
    (s.setLearn g b k v).takesEvent src := by
  have hset (x : Seg8) : (s.setSeg g x).takesEvent src := h
  have hle (f : Fld) (hf : 0x140000 ≤ f.off) (i j : Nat) : 0x140000 ≤ f.addr i j := by
    simp only [Fld.addr]
    omega
  rw [setLearn, put_eq, wrS_eq]
  cases b with
  | false =>
    exact takesEvent_wr_high (takesEvent_wr_high (hset _) hsrc (hle F.CMB_ARR_A_offset (by decide) g k)) hsrc
      (hle F.CMB_ARR_A_learned (by decide) g k)
  | true =>
    exact takesEvent_wr_high (takesEvent_wr_high (hset _) hsrc (hle F.CMB_ARR_B_offset (by decide) g k)) hsrc
      (hle F.CMB_ARR_B_learned (by decide) g k)

/-! ## Offsets forgotten -/

theorem forget_rd {g : Nat} (keep : Option Nat) {f : Fld} (h : f.OfSegment) (hoff : f.off < 0x140500) :
    (s.forget g keep).rd f g = s.rd f g := by
  refine foldl_keeps (fun t : State => t.rd f g) (fun t p _ => ?_) s
  split
  · rfl
  · exact t.setLearn_rd _ _ h hoff

/-- Nothing else of a segment's record changes. -/
theorem forget_seg (g : Nat) (keep : Option Nat) :
    (s.forget g keep).seg g = { s.seg g with learnA := ((s.forget g keep).seg g).learnA, learnB := ((s.forget g keep).seg g).learnB } := by
  refine foldl_holds (P := fun t : State => t.seg g = { s.seg g with learnA := (t.seg g).learnA, learnB := (t.seg g).learnB })
    (fun t p _ ht => ?_) rfl
  dsimp only at ht ⊢
  split
  · exact ht
  · rw [setLearn_seg, ht]
    cases p.2 <;> rfl

theorem forget_keeps {g : Nat} {keep : Option Nat} {k : Nat} (h : keep = some k) (c : Bool) :
    ((s.forget g keep).seg g).learn c k = (s.seg g).learn c k := by
  refine foldl_keeps (fun t : State => (t.seg g).learn c k) (fun t p _ => ?_) s
  split
  · rfl
  · next hne => rw [setLearn_seg, Seg8.learn_setLearn_ne _ _ fun hkp => hne (h.trans (congrArg (fun q : Nat × Bool => some q.1) hkp))]

theorem mem_slotChans {k : Nat} (hk : k < 64) (c : Bool) : (k, c) ∈ slotChans := by
  simp only [slotChans, List.mem_flatMap, List.mem_range]
  refine ⟨k, hk, ?_⟩
  cases c <;> simp

theorem forget_forgets {g : Nat} {keep : Option Nat} {k : Nat} (hk : k < 64) (h : keep ≠ some k) (c : Bool) :
    ((s.forget g keep).seg g).learn c k = {} := by
  obtain ⟨l, l', hl⟩ := List.append_of_mem (mem_slotChans hk c)
  rw [forget, hl, List.foldl_append, List.foldl_cons]
  refine foldl_holds (P := fun t : State => (t.seg g).learn c k = {}) (fun t p _ ht => ?_) ?_
  · split
    · exact ht
    · rw [setLearn_seg]
      by_cases hp : (k, c) = p
      · rw [← hp, Seg8.learn_setLearn_same]
      · rw [Seg8.learn_setLearn_ne _ _ hp, ht]
  · rw [if_neg h, setLearn_seg, Seg8.learn_setLearn_same]

end State

end Sys2Proof.Machine

/-! Proofs about the start-up and the synchronisation of a segment (R317 to R330, R339). -/

namespace Sys2Proof.Machine

/-! ## The first lock and the place of the cycle -/

/-- What a segment shows and holds, and the events that have been recorded, are as before. -/
structure State.KeepsSeg (g : Nat) (s t : State) : Prop where
  seg : t.seg g = s.seg g
  quench : t.quench = s.quench
  rd : ∀ {f : Fld}, f.OfSegment → f.off % 64 ≠ 24 → f.off % 64 ≠ 28 → f.Sep F.CMB_SYNC_STAT_locked → f.Sep F.CMB_CYC_CNT_count →
    t.rd f g = s.rd f g
  events : ∀ {a b c}, s.hasEvent a b c → t.hasEvent a b c

namespace State.KeepsSeg

variable {g : Nat} {s t u : State}

theorem refl (g : Nat) (s : State) : s.KeepsSeg g s := ⟨rfl, rfl, fun _ _ _ _ _ => rfl, id⟩

theorem trans (h : s.KeepsSeg g t) (h' : t.KeepsSeg g u) : s.KeepsSeg g u where
  seg := h'.seg.trans h.seg
  quench := h'.quench.trans h.quench
  rd hf h24 h28 hl hc := (h'.rd hf h24 h28 hl hc).trans (h.rd hf h24 h28 hl hc)
  events ha := h'.events (h.events ha)

/-- A change of nothing but time, targets, contexts, chains and jobs. -/
theorem of_word (hword : ∀ off, t.word off = s.word off) (hcmb : t.combway = s.combway) (hquench : t.quench = s.quench)
    (hev : t.hif.events = s.hif.events) : s.KeepsSeg g t where
  seg := State.seg_congr s hcmb g
  quench := hquench
  rd _ _ _ _ _ := by rw [State.rd, State.rd, hword]
  events ha := by
    unfold State.hasEvent at ha ⊢
    rwa [hev]

theorem wr (hg : g < 8) (h : s.KeepsSeg g t) {f : Fld} {v i j : Nat} (hf : f.addr i j < 0x140000 ∨ 0x150000 ≤ f.addr i j) :
    s.KeepsSeg g (t.wr f v i j) :=
  h.trans ⟨rfl, rfl, fun hf' _ _ _ _ => t.rd_wr_outside hf' hg hf, id⟩

theorem raise (hg : g < 8) (h : s.KeepsSeg g t) {src : Nat} (hsrc : src < 128) (code inst : Nat) (d : DWord) :
    s.KeepsSeg g (t.raise src code inst d) :=
  h.trans ⟨t.seg_raise .., t.raise_quench .., fun hf _ _ _ _ => t.raise_rd _ _ _ hsrc (hf.notMem_eventWords hg),
    State.hasEvent_raise _ _ _ _⟩

theorem advanceCell (g : Nat) (s : State) (n : Nat) : s.KeepsSeg g (s.advanceCell n) := by
  obtain ⟨k, cell, -, h⟩ := s.advanceCell_eq n
  rw [h]
  exact .of_word (fun _ => rfl) rfl rfl rfl

end State.KeepsSeg

namespace State

variable {g : Nat} (hg : g < 8) (s : State)
include hg

theorem shiftTargets_keepsSeg (delta : Int) : s.KeepsSeg g (s.shiftTargets delta) := by
  refine foldl_holds (P := s.KeepsSeg g) (fun t u _ ht => ?_) (.refl g s)
  split
  · exact (ht.wr hg (f := F.TIM_CMP_T_LO_t) (.inr (by simp only [Fld.addr, F.TIM_CMP_T_LO_t]; omega))).wr hg (f := F.TIM_CMP_T_HI_t)
      (.inr (by simp only [Fld.addr, F.TIM_CMP_T_HI_t]; omega))
  · exact ht

omit hg in
/-- The wake time of a context lies at bytes 24 to 31 of its 64. -/
theorem shiftWakes_keepsSeg (delta : Int) : s.KeepsSeg g (s.shiftWakes delta) := by
  refine foldl_holds (P := s.KeepsSeg g) (fun t u _ ht => ht.trans ?_) (.refl g s)
  refine ⟨rfl, rfl, fun {f} hf h24 h28 _ _ => ?_, id⟩
  obtain ⟨hs, -, -⟩ := hf
  have hlo : f.addr g 0 ≠ F.HIV_CTX6_wake_lo.addr u.ctx 0 := by simp only [Fld.addr, hs, F.HIV_CTX6_wake_lo]; omega
  have hhi : f.addr g 0 ≠ F.HIV_CTX7_wake_hi.addr u.ctx 0 := by simp only [Fld.addr, hs, F.HIV_CTX7_wake_hi]; omega
  rw [wr64, rd_wr_ne _ hhi, rd_wr_ne _ hlo]

theorem moveTargets_keepsSeg (delta : Int) : s.KeepsSeg g (s.moveTargets delta) := by
  obtain ⟨u, hu⟩ : ∃ u, u = (s.shiftTargets delta).shiftWakes delta := ⟨_, rfl⟩
  have h : s.KeepsSeg g u := hu ▸ (s.shiftTargets_keepsSeg hg delta).trans ((s.shiftTargets delta).shiftWakes_keepsSeg delta)
  unfold moveTargets
  rw [← hu]
  exact h.trans (.of_word (fun _ => rfl) rfl rfl rfl)

omit hg in
/-- A register that shows the same of every segment is written. -/
theorem foldl_wr_keepsSeg {f : Fld} (hf : f.OfSegment) (hsep : ∀ {f' : Fld}, f'.Sep F.CMB_SYNC_STAT_locked → f'.Sep F.CMB_CYC_CNT_count →
    f'.Sep f) (v : Nat) : s.KeepsSeg g ((List.range 8).foldl (fun s k => s.wr f v k) s) := by
  refine foldl_holds (f := fun (t : State) k => t.wr f v k) (P := s.KeepsSeg g) (fun t k _ ht => ht.trans ⟨rfl, rfl, fun hf' _ _ hl hc => ?_, id⟩) (.refl g s)
  by_cases hgk : g = k
  · rw [hgk]
    exact rd_wr_sep _ (hsep hl hc)
  · exact rd_wr_ne _ (hf'.addr_ne hf hgk)

theorem firstLock_keepsSeg (cell : Nat) : s.KeepsSeg g (s.firstLock cell) := by
  unfold firstLock
  split
  · exact .refl g s
  · generalize cellDiff (cell / 2 ^ 32 % 2 ^ 64) s.cellNs = delta
    obtain ⟨u, hu⟩ : ∃ u : State, u = { s with tim := { s.tim with
      cell := cell % cellWrap
      instant := movedTime delta s.tim.instant
      lastInstant := movedTime delta s.tim.lastInstant } } := ⟨_, rfl⟩
    have hsu : s.KeepsSeg g u := hu ▸ .of_word (fun _ => rfl) rfl rfl rfl
    have hmoved := (hsu.trans (u.moveTargets_keepsSeg hg delta)).wr hg (f := F.TIM_STAT_locked) (v := 1) (i := 0) (j := 0) (by decide)
    dsimp only
    rw [← hu]
    exact (hmoved.trans (foldl_wr_keepsSeg _ (by decide) (fun hl _ => hl) 1)).raise hg (by decide) _ _ _

theorem setInstant_keepsSeg (t : Nat) : s.KeepsSeg g (s.setInstant t) := by
  unfold setInstant
  dsimp only
  obtain ⟨u, hu⟩ : ∃ u : State, u = { s with tim := { s.tim with instant := t } } := ⟨_, rfl⟩
  have hsu : s.KeepsSeg g u := hu ▸ .of_word (fun _ => rfl) rfl rfl rfl
  rw [← hu, wr64]
  exact ((((hsu.wr hg (by decide)).wr hg (by decide)).wr hg (by decide)).wr hg (by decide)).wr hg (by decide)

theorem armTick_keepsSeg : s.KeepsSeg g s.armTick := by
  unfold armTick
  dsimp only
  rw [wr64]
  exact ((((KeepsSeg.refl g s).wr hg (by decide)).wr hg (by decide)).wr hg (by decide)).wr hg (by decide)

theorem placeCycle_keepsSeg (t c : Nat) : s.KeepsSeg g (s.placeCycle t c) := by
  unfold placeCycle
  dsimp only
  obtain ⟨u, hu⟩ : ∃ u : State, u = { s with tim := { s.tim with lastInstant := t, cycle := c % 2 ^ 32, cycleNs := s.cycleSet } } := ⟨_, rfl⟩
  have hsu : s.KeepsSeg g u := hu ▸ .of_word (fun _ => rfl) rfl rfl rfl
  rw [← hu]
  exact ((hsu.trans (u.setInstant_keepsSeg hg _)).trans (armTick_keepsSeg hg _)).trans
    (foldl_wr_keepsSeg _ (by decide) (fun _ hc => hc) (c % 2 ^ 32))

omit hg in
/-- A first lock is a lock. -/
theorem firstLock_locked (cell : Nat) : (s.firstLock cell).rd F.TIM_STAT_locked = 1 := by
  unfold firstLock
  split
  · next h => exact s.rd_eq_one_of_on h rfl
  · dsimp only
    rw [raise_rd _ _ _ _ (by decide) (by decide)]
    exact (foldl_keeps (fun t : State => t.rd F.TIM_STAT_locked)
      (fun t k hk => t.rd_wr_ne (by have := List.mem_range.1 hk; simp only [Fld.addr, F.TIM_STAT_locked, F.CMB_SYNC_STAT_locked]; omega)) _).trans
      (rd_wr_same ..)

end State

/-! ## Messages -/

namespace State

variable (s : State)

@[simp] theorem queueMsg_regs (g : Nat) (id : Option Nat) (m : CmbMsg) : (s.queueMsg g id m).regs = s.regs := by
  cases id <;> rfl

@[simp] theorem queueMsg_rd (g : Nat) (id : Option Nat) (m : CmbMsg) (f : Fld) (i j : Nat) :
    (s.queueMsg g id m).rd f i j = s.rd f i j := by
  cases id <;> rfl

@[simp] theorem queueMsg_hif (g : Nat) (id : Option Nat) (m : CmbMsg) : (s.queueMsg g id m).hif = s.hif := by
  cases id <;> rfl

/-- A message joins those that wait, and nothing else of the segment changes. -/
theorem queueMsg_seg (g : Nat) (id : Option Nat) (m : CmbMsg) :
    (s.queueMsg g id m).seg g = { s.seg g with msgs := ((s.queueMsg g id m).seg g).msgs } := by
  cases id with
  | none => rfl
  | some i => simp only [queueMsg, seg_setSeg_same]

theorem mem_queueMsg (g i : Nat) (m : CmbMsg) : m ∈ lookup (fun _ => []) ((s.queueMsg g (some i) m).seg g).msgs i := by
  simp only [queueMsg, seg_setSeg_same]
  rw [lookup_store_same]
  exact List.mem_append_right _ List.mem_cons_self

/-! ## COLDSTART -/

theorem enterColdstart_enters {s : State} {g : Nat} (hg : g < 8) (hev : s.takesEvent (48 + 2 * g)) :
    (s.enterColdstart g).cmbState g = 2 ∧ ((s.enterColdstart g).seg g).cycles = 0 ∧ (s.enterColdstart g).hasEvent (48 + 2 * g) 3 g
      ∧ ∀ b, (s.enterColdstart g).guardClosed g b = s.quench.safStopped := by
  obtain ⟨a, ha⟩ : ∃ a, a = if s.running then s.advanceCell (uns 64 (s.tim.lastInstant
    + Sched.slotStart (s.sched g) ((Sched.syncOf (s.sched g) (s.ownNode g)).getD 0) : Nat)) else s := ⟨_, rfl⟩
  obtain ⟨haq, haev⟩ : a.quench = s.quench ∧ a.takesEvent (48 + 2 * g) := by
    rw [ha]
    split
    · exact ⟨(KeepsSeg.advanceCell g s _).quench, s.takesEvent_advanceCell hev _⟩
    · exact ⟨rfl, hev⟩
  obtain ⟨v, hv⟩ : ∃ v, v = ((a.enterCmb g 2).setGuards g false).syncEvent g 3 := ⟨_, rfl⟩
  have hstate : v.cmbState g = 2 := by
    rw [hv, cmbState, syncEvent_rd _ hg _ _ (Fld.OfSegment.notMem_eventWords (by decide) hg), setGuards_rd _ _ _ (by decide) (by decide)]
    exact enterCmb_state _ g (by decide)
  have hcycles : (v.seg g).cycles = 0 := by rw [hv, syncEvent_seg, setGuards_seg, enterCmb_seg]
  have hevent : v.hasEvent (48 + 2 * g) 3 g := by
    rw [hv]
    exact syncEvent_hasEvent _ _ (setGuards_takesEvent (enterCmb_takesEvent haev (by omega) ..) (by omega) ..)
  have hclosed (b : Bool) : v.guardClosed g b = s.quench.safStopped := by
    rw [hv, syncEvent_guardClosed _ _ _ hg, setGuards_closed, Bool.false_or, ← haq]
    rfl
  obtain ⟨w, hvw, hexec⟩ : ∃ w, v.KeepsSeg g w ∧ s.enterColdstart g = w.queueMsg g (w.msgId g) .time := by
    unfold enterColdstart
    dsimp only
    rw [← ha, ← hv]
    split
    · exact ⟨v, .refl g v, rfl⟩
    · split
      · exact ⟨_, (v.firstLock_keepsSeg hg _).trans (placeCycle_keepsSeg hg _ _ _), rfl⟩
      · exact ⟨_, v.placeCycle_keepsSeg hg _ _, rfl⟩
  have hrd {f : Fld} (h : f.OfSegment) (h24 : f.off % 64 ≠ 24) (h28 : f.off % 64 ≠ 28) (hl : f.Sep F.CMB_SYNC_STAT_locked)
      (hc : f.Sep F.CMB_CYC_CNT_count) : (s.enterColdstart g).rd f g = v.rd f g := by
    rw [hexec, queueMsg_rd, hvw.rd h h24 h28 hl hc]
  refine ⟨(hrd (by decide) (by decide) (by decide) (by decide) (by decide)).trans hstate, ?_, ?_, fun b => ?_⟩
  · rw [hexec, queueMsg_seg, hvw.seg, hcycles]
  · have hw := hvw.events hevent
    rw [hexec]
    unfold hasEvent at hw ⊢
    rwa [queueMsg_hif]
  · rw [guardClosed_congr (hrd (by decide) (by decide) (by decide) (by decide) (by decide))
      (hrd (by decide) (by decide) (by decide) (by decide) (by decide)), hclosed]

end State

theorem execListenTimeout_enters {s : State} {g : Fin 8} (hstate : s.cmbState g = 1) (hcap : s.capable g = true)
    (hev : s.takesEvent (48 + 2 * g)) :
    ∃ t, execListenTimeout g s = .next t ∧ t.cmbState g = 2 ∧ (t.seg g).cycles = 0 ∧ t.hasEvent (48 + 2 * g) 3 g
      ∧ t.guardClosed g false = s.quench.safStopped ∧ t.guardClosed g true = s.quench.safStopped := by
  obtain ⟨n, hexec⟩ : ∃ n, execListenTimeout g s = .next ((s.advanceCell n).enterColdstart g) := by
    unfold execListenTimeout
    exact ⟨_, if_neg (by simp [hstate, hcap])⟩
  obtain ⟨h1, h2, h3, h4⟩ := State.enterColdstart_enters g.isLt (s.takesEvent_advanceCell hev n)
  have hq : (s.advanceCell n).quench = s.quench := (State.KeepsSeg.advanceCell g s n).quench
  rw [hq] at h4
  exact ⟨_, hexec, h1, h2, h3, h4 false, h4 true⟩

theorem execListenTimeout_idle {s : State} {g : Fin 8} (h : s.cmbState g ≠ 1 ∨ s.capable g = false) :
    execListenTimeout g s = .next s := by
  unfold execListenTimeout
  exact if_pos (by simpa using h)

theorem execBackoffExpiry_enters {s : State} {g : Fin 8} (hstate : s.cmbState g = 3) (hcap : s.capable g = true)
    (hev : s.takesEvent (48 + 2 * g)) :
    ∃ t, execBackoffExpiry g s = .next t ∧ t.cmbState g = 2 ∧ (t.seg g).cycles = 0 ∧ t.hasEvent (48 + 2 * g) 3 g := by
  obtain ⟨n, hexec⟩ : ∃ n, execBackoffExpiry g s = .next ((s.advanceCell n).enterColdstart g) := by
    unfold execBackoffExpiry
    exact ⟨_, if_neg (by simp [hstate, hcap])⟩
  obtain ⟨h1, h2, h3, -⟩ := State.enterColdstart_enters g.isLt (s.takesEvent_advanceCell hev n)
  exact ⟨_, hexec, h1, h2, h3⟩

/-- Four clean cycles end the coldstart as sync master. -/
theorem execColdstartComplete_ends {s : State} {g : Fin 8} (hstate : s.cmbState g = 2) (hcycles : 4 ≤ (s.seg g).cycles) :
    ∃ t, execColdstartComplete g s = .next t ∧ t.cmbState g = 5 ∧ (s.isTiming g = true → t.rd F.TIM_STAT_locked = 1)
      ∧ t.rd F.CMB_SYNC_STAT_master g = s.ownNode g % 2 ^ F.CMB_SYNC_STAT_master.width
      ∧ (s.isTiming g = false → s.takesEvent (48 + 2 * g) → t.hasEvent (48 + 2 * g) 1 g) := by
  obtain ⟨u, hu⟩ : ∃ u, u = s.setMaster g (s.ownNode g) := ⟨_, rfl⟩
  have hmaster : u.rd F.CMB_SYNC_STAT_master g = s.ownNode g % 2 ^ F.CMB_SYNC_STAT_master.width := hu ▸ s.setMaster_master g.isLt _
  have htiming : u.isTiming g = s.isTiming g :=
    congrArg (· != 0) (hu ▸ s.setMaster_rd g.isLt _ (f := F.CMB_SYNC_CFG_timing) (by decide) (by decide) (by decide))
  obtain ⟨w, hw⟩ : ∃ w, w = if u.isTiming g then u.firstLock u.tim.cell else u := ⟨_, rfl⟩
  have hexec : execColdstartComplete g s = .next (w.enterSync g true) := by
    unfold execColdstartComplete
    rw [if_neg (by simp [hstate]; omega), hw, hu]
  have hkeep : u.KeepsSeg g w := by
    rw [hw]
    split
    · exact u.firstLock_keepsSeg g.isLt _
    · exact .refl g u
  refine ⟨_, hexec, w.enterSync_enters g.isLt true, fun h => ?_, ?_, fun h hev => ?_⟩
  · have hlock : w.rd F.TIM_STAT_locked = 1 := by
      rw [hw, htiming, if_pos h]
      exact u.firstLock_locked _
    rw [State.enterSync, State.syncEvent_rd _ g.isLt _ _ (by decide)]
    exact (State.rd_wr_ne _ (by simp only [Fld.addr, F.TIM_STAT_locked, F.CMB_SYNC_STAT_state]; omega)).trans hlock
  · rw [w.enterSync_rd g.isLt true (by decide) (by decide), hkeep.rd (by decide) (by decide) (by decide) (by decide) (by decide), hmaster]
  · have hwu : w = u := by rw [hw, htiming, h, if_neg Bool.false_ne_true]
    refine State.enterSync_hasEvent g.isLt true ?_
    rw [hwu, hu]
    exact State.setMaster_takesEvent hev (by omega) _ _

theorem execColdstartComplete_idle {s : State} {g : Fin 8} (h : s.cmbState g ≠ 2 ∨ (s.seg g).cycles < 4) :
    execColdstartComplete g s = .next s := by
  unfold execColdstartComplete
  exact if_pos h

/-! ## Messages of Combway (R322 to R325) -/

/-- A segment's record with an empty inbox. -/
def State.inboxRead (s : State) (g : Nat) : State := s.setSeg g { s.seg g with inbox := [] }

theorem State.takeMsg_single {s : State} {g t : Nat} {m : CmbIn} (hbox : (s.seg g).inbox = [m]) (ht : byteAt m.payload 0 = t) :
    s.takeMsg g t = some (m, s.inboxRead g) := by
  simp only [takeMsg, hbox, List.find?_cons, beq_iff_eq.2 ht, List.erase_cons_head, inboxRead]

theorem State.takeMsg_none {s : State} {g t : Nat} (h : ∀ m ∈ (s.seg g).inbox, byteAt m.payload 0 < 0xE0) (ht : 0xE0 ≤ t) :
    s.takeMsg g t = none := by
  have hfind : (s.seg g).inbox.find? (fun m => byteAt m.payload 0 == t) = none :=
    List.find?_eq_none.2 fun m hm => by have := h m hm; simp; omega
  simp only [takeMsg, hfind]

theorem messages_none {s : State} {g : Fin 8} (h : ∀ m ∈ (s.seg g).inbox, byteAt m.payload 0 < 0xE0) :
    execTimeMessage g s = .next s ∧ execEchoReq g s = .next s ∧ execEchoResp g s = .next s := by
  refine ⟨?_, ?_, ?_⟩
  · rw [execTimeMessage, State.takeMsg_none h (by decide)]
  · rw [execEchoReq, State.takeMsg_none h (by decide)]
  · rw [execEchoResp, State.takeMsg_none h (by decide)]

/-- The first TIME message of the sync master is taken. -/
theorem execTimeMessage_takes {s : State} {g : Fin 8} {m : CmbIn} (hbox : (s.seg g).inbox = [m]) (ht : byteAt m.payload 0 = 0xE2)
    (hstate : s.cmbState g = 4) (hmaster : byteAt m.payload 1 = s.rd F.CMB_SYNC_STAT_master g) (htimed : (s.seg g).timed = false) :
    ∃ t, execTimeMessage g s = .next t ∧ (t.seg g).timed = true ∧ (t.seg g).count = field m.payload 4 4 ∧ (t.seg g).inbox = []
      ∧ (t.seg g).timeNs = field m.payload 8 6 * 1000000000 + field m.payload 14 4 % 2 ^ 30 ∧ t.regs = s.regs := by
  obtain ⟨u, hu⟩ : ∃ u, u = s.inboxRead g := ⟨_, rfl⟩
  have hseg : u.seg g = { s.seg g with inbox := [] } := hu ▸ s.seg_setSeg_same g _
  have hregs : u.regs = s.regs := hu ▸ rfl
  have hrd (f : Fld) : u.rd f g = s.rd f g := hu ▸ s.setSeg_rd g _ f g 0
  have hstate' : u.cmbState g = 4 := (hrd _).trans hstate
  have hgo : ¬ (byteAt m.payload 1 ≠ u.rd F.CMB_SYNC_STAT_master g ∨ u.cmbState g < 4) := by
    rw [hstate', hrd, hmaster]
    simp
  have htake : u.cmbState g = 4 ∧ (!(u.seg g).timed) = true := ⟨hstate', by rw [hseg]; simp [htimed]⟩
  rw [execTimeMessage, State.takeMsg_single hbox ht, ← hu]
  refine ⟨_, (if_neg hgo).trans (if_pos htake), ?_, ?_, ?_, ?_, hregs⟩
  · rw [State.seg_setSeg_same]
  · rw [State.seg_setSeg_same]
  · rw [State.seg_setSeg_same, hseg]
  · rw [State.seg_setSeg_same]

/-- The sync master answers an echo request. -/
theorem execEchoReq_answers {s : State} {g : Fin 8} {m : CmbIn} {i : Nat} (hbox : (s.seg g).inbox = [m]) (ht : byteAt m.payload 0 = 0xE0)
    (hstate : s.cmbState g = 5) (hself : s.on F.CMB_SYNC_STAT_master_self g = true) (hto : byteAt m.payload 2 = s.ownNode g)
    (hid : s.msgId g = some i) :
    ∃ t j, execEchoReq g s = .next t ∧ (t.seg g).inbox = [] ∧ t.regs = s.regs
      ∧ CmbMsg.echoResp (byteAt m.payload 1) (s.ownNode g) (byteAt m.payload 3) (field m.payload 8 8) (m.atA.getD noTime) (m.atB.getD noTime)
          ∈ lookup (fun _ => []) (t.seg g).msgs j := by
  obtain ⟨u, hu⟩ : ∃ u, u = s.inboxRead g := ⟨_, rfl⟩
  have hseg : u.seg g = { s.seg g with inbox := [] } := hu ▸ s.seg_setSeg_same g _
  have hregs : u.regs = s.regs := hu ▸ rfl
  have hsched : u.sched g = s.sched g := by rw [State.sched, hseg, State.sched]
  have hown : u.ownNode g = s.ownNode g := by rw [State.ownNode, hsched, State.ownNode]
  have hid' : u.msgId g = some i := by rw [State.msgId, hsched, hown]; exact hid
  have hstate' : u.cmbState g = 5 := hu ▸ hstate
  have hself' : u.on F.CMB_SYNC_STAT_master_self g = true := hu ▸ hself
  obtain ⟨j, hexec⟩ : ∃ j, execEchoReq g s = .next (u.queueMsg g (some j) (.echoResp (byteAt m.payload 1) (s.ownNode g)
      (byteAt m.payload 3) (field m.payload 8 8) (m.atA.getD noTime) (m.atB.getD noTime))) := by
    rw [execEchoReq, State.takeMsg_single hbox ht, ← hu]
    dsimp only
    rw [hown, hstate', hself', hid', if_neg (by simp [hto])]
    generalize List.foldl _ _ _ = above
    cases above with
    | none => exact ⟨_, rfl⟩
    | some j => exact ⟨_, rfl⟩
  refine ⟨_, j, hexec, ?_, (u.queueMsg_regs ..).trans hregs, u.mem_queueMsg g j _⟩
  rw [State.queueMsg_seg, hseg]

/-- An echo that channel A carried both ways gives the delay of A. -/
theorem execEchoResp_takes {s : State} {g : Fin 8} {m : CmbIn} {t4 : Nat} {d : Int} (hbox : (s.seg g).inbox = [m])
    (ht : byteAt m.payload 0 = 0xE1) (hstate : s.cmbState g = 4) (hto : byteAt m.payload 1 = s.ownNode g) (hA : m.atA = some t4)
    (hB : m.atB = none) (ht2 : field m.payload 16 8 ≠ noTime)
    (hd : d = (cellDiff t4 (field m.payload 8 8) - cellDiff (field m.payload 32 8) (field m.payload 16 8)) / 2) (hl : 0 ≤ d) (hle : d ≤ 3200) :
    ∃ t, execEchoResp g s = .next t ∧ (t.seg g).delayA = some d ∧ (t.seg g).delayB = none ∧ (t.seg g).echoOk = true
      ∧ t.rdS F.CMB_SYNC_DELAY_a g = d := by
  obtain ⟨u, hu⟩ : ∃ u, u = s.inboxRead g := ⟨_, rfl⟩
  have hseg : u.seg g = { s.seg g with inbox := [] } := hu ▸ s.seg_setSeg_same g _
  have hown : u.ownNode g = s.ownNode g := by rw [State.ownNode, State.sched, hseg, State.ownNode, State.sched]
  have hstate' : u.cmbState g = 4 := hu ▸ hstate
  rw [execEchoResp, State.takeMsg_single hbox ht, ← hu]
  dsimp only
  simp only [hA, hB, if_neg ht2, ← cellDiff.eq_1, ← hd]
  generalize (cellDiff (field m.payload 16 8) (field m.payload 8 8) - cellDiff t4 (field m.payload 32 8)) / 2 = theta
  refine ⟨_, if_neg (by simp [hto, hown, hstate', hl, hle]), ?_, ?_, ?_, State.rdS_wrS_same _ (n := 15) rfl (by decide) ?_ ?_⟩
  · rw [State.wrS_eq, State.seg_wr, State.seg_setSeg_same]
    rfl
  · rw [State.wrS_eq, State.seg_wr, State.seg_setSeg_same]
    rfl
  · rw [State.wrS_eq, State.seg_wr, State.seg_setSeg_same]
  · norm_num
    omega
  · norm_num
    omega

/-! ## Integration (R324, R343, R344) -/

section Integration
variable {s : State} {g : Fin 8}

theorem execIntegrationComplete_syncs {raw e : Int} {k : Nat} (hstate : s.cmbState g = 4) (hready : (s.seg g).ready = true)
    (hrun : s.running = true) (hlast : (s.seg g).masterLast = some (false, raw, e)) (hslot : s.masterSlot g = some k)
    (hl : -2400 ≤ raw - ((s.seg g).delayA.or (s.seg g).delayB).getD 0) (hu : raw - ((s.seg g).delayA.or (s.seg g).delayB).getD 0 ≤ 2400)
    (hal : -150 ≤ cellDiff ((s.seg g).timeNs % 2 ^ 64) s.tim.lastInstant) (hau : cellDiff ((s.seg g).timeNs % 2 ^ 64) s.tim.lastInstant ≤ 150)
    (hev : s.takesEvent (48 + 2 * g)) :
    ∃ t, execIntegrationComplete g s = .next t ∧ t.cmbState g = 5 ∧ t.hasEvent (48 + 2 * g) 1 g ∧ t.tim = s.tim
      ∧ ((t.seg g).learn false k).off = some (((s.seg g).delayA.or (s.seg g).delayB).getD 0) := by
  obtain ⟨dA, hdA⟩ : ∃ dA, dA = ((s.seg g).delayA.or (s.seg g).delayB).getD 0 := ⟨_, rfl⟩
  obtain ⟨dB, hdB⟩ : ∃ dB, dB = ((s.seg g).delayB.or (s.seg g).delayA).getD 0 := ⟨_, rfl⟩
  obtain ⟨u, hu'⟩ : ∃ u, u = (s.setLearn g false k { off := some dA }).setLearn g true k { off := some dB } := ⟨_, rfl⟩
  rw [← hdA] at hl hu ⊢
  have hexec : execIntegrationComplete g s = .next (u.enterSync g false) := by
    unfold execIntegrationComplete
    simp only [hlast, hslot]
    rw [if_neg (by simp [hstate, hready]), if_pos hrun, ← hdA, ← hdB, if_neg, hu']
    rw [if_neg Bool.false_ne_true]
    omega
  have hseg : u.seg g = ((s.seg g).setLearn false k { off := some dA }).setLearn true k { off := some dB } := by
    rw [hu', State.setLearn_seg, State.setLearn_seg]
  have hev' : u.takesEvent (48 + 2 * g) := by
    rw [hu']
    exact State.setLearn_takesEvent (State.setLearn_takesEvent hev (by omega) ..) (by omega) ..
  obtain ⟨a, b, hsync⟩ := u.enterSync_seg g false
  refine ⟨_, hexec, u.enterSync_enters g.isLt _, State.enterSync_hasEvent g.isLt _ hev', ?_, ?_⟩
  · rw [State.enterSync, State.syncEvent, State.raise_tim, hu']
    rfl
  · have hlearn : ((u.enterSync g false).seg g).learn false k = (u.seg g).learn false k := by rw [hsync]; rfl
    rw [hlearn, hseg, Seg8.learn_setLearn_ne _ _ (by simp), Seg8.learn_setLearn_same]

theorem execIntegrationComplete_idle (h : s.cmbState g ≠ 4 ∨ (s.seg g).ready = false) : execIntegrationComplete g s = .next s := by
  unfold execIntegrationComplete
  exact if_pos (by simpa using h)

theorem execIntegrationLimitExpiry_listens (hstate : s.cmbState g = 4) (hlimit : s.rd F.CMB_SYNC_CFG_integ_limit g ≤ (s.seg g).cycles)
    (hev : s.takesEvent (48 + 2 * g)) :
    ∃ t, execIntegrationLimitExpiry g s = .next t ∧ t.cmbState g = 1 ∧ t.hasEvent (48 + 2 * g) 5 g ∧ t.guardClosed g false = true := by
  obtain ⟨d, hexec⟩ : ∃ d, execIntegrationLimitExpiry g s = .next ((s.enterListen g).syncEvent g 5 d) := by
    unfold execIntegrationLimitExpiry
    exact ⟨_, (if_neg (by simp [hstate]; omega)).trans (if_neg (by simp [hstate]))⟩
  refine ⟨_, hexec, ?_, State.syncEvent_hasEvent _ _ (State.enterListen_takesEvent hev (by omega) _),
    (State.syncEvent_guardClosed _ _ _ g.isLt _).trans (s.enterListen_closed g.isLt _)⟩
  rw [State.cmbState, State.syncEvent_rd _ g.isLt _ _ (Fld.OfSegment.notMem_eventWords (by decide) g.isLt)]
  exact s.enterListen_state g.isLt

theorem execIntegrationLimitExpiry_passive (hstate : s.cmbState g = 6)
    (hlimit : s.rd F.CMB_SYNC_CFG_integ_limit g ≤ (s.seg g).cycles) : execIntegrationLimitExpiry g s = .next (s.enterListen g) := by
  unfold execIntegrationLimitExpiry
  exact (if_neg (by simp [hstate]; omega)).trans (if_pos hstate)
end Integration

/-! ## Corrections (R328, R329) -/

/-- Before the correction is shown, only the count of clamped ones, the slew and the rate to come have changed. -/
theorem State.correct_eq (s : State) (g : Nat) (e : Int) : ∃ (v : State) (rho : Int),
    s.correct g e = (v.wrS F.CMB_SYNC_DEV_dev (clampI (-32768) 32767 e) g).wrS F.CMB_SYNC_DEV_rate rho g ∧ v.hif = s.hif
      ∧ (∀ {f : Fld}, f.Sep F.CMB_SYNC_CNT_clamped → v.rd f g = s.rd f g)
      ∧ ∀ {src : Nat}, s.takesEvent src → src < 128 → v.takesEvent src := by
  unfold correct
  dsimp only
  generalize clampI (-960) 960 (-e) = c
  generalize rateShown _ = rho
  obtain ⟨u, hu⟩ : ∃ u, u = if c = -e then s else s.bump F.CMB_SYNC_CNT_clamped g := ⟨_, rfl⟩
  obtain ⟨huhif, hurd, huev⟩ : u.hif = s.hif ∧ (∀ {f : Fld}, f.Sep F.CMB_SYNC_CNT_clamped → u.rd f g = s.rd f g)
      ∧ ∀ {src : Nat}, s.takesEvent src → src < 128 → u.takesEvent src := by
    rw [hu]
    split
    · exact ⟨rfl, fun _ => rfl, fun h _ => h⟩
    · exact ⟨rfl, fun h => rd_wr_sep _ h, fun h hsrc => takesEvent_wr_high h hsrc (Fld.OfSegment.le_addr (by decide) _)⟩
  rw [← hu]
  refine ⟨_, rho, rfl, ?_, ?_, ?_⟩
  · split
    · split <;> exact huhif
    · exact huhif
  · intro f h
    split
    · split <;> exact hurd h
    · exact hurd h
  · intro src h hsrc
    split
    · split <;> exact huev h hsrc
    · exact huev h hsrc

section Correction
variable {s : State} {g : Fin 8}

theorem execClockCorrection_corrects {b : Bool} {raw e : Int} (hstate : s.cmbState g = 5)
    (hself : s.on F.CMB_SYNC_STAT_master_self g = false) (hmaster : (s.seg g).master = some (b, raw, e)) (hl : -2400 ≤ e) (hu : e ≤ 2400) :
    ∃ t, execClockCorrection g s = .next t ∧ t.rdS F.CMB_SYNC_DEV_dev g = e ∧ t.cmbState g = 5 ∧ t.hif = s.hif := by
  obtain ⟨v, rho, hcorrect, hhif, hrd, -⟩ := s.correct_eq g e
  have hexec : execClockCorrection g s = .next (s.correct g e) := by
    unfold execClockCorrection
    simp only [hmaster]
    rw [if_neg (by simp [hstate]), if_neg (by simp [hstate, hself]), if_neg (by omega)]
  refine ⟨_, hexec, ?_, ?_, ?_⟩
  · have hclamp : clampI (-32768) 32767 e = e := by rw [clampI, if_neg (by omega), if_neg (by omega)]
    rw [hcorrect, hclamp]
    exact (State.rdS_congr (f := F.CMB_SYNC_DEV_dev) (State.rd_wr_sep (f := F.CMB_SYNC_DEV_rate) _ (by decide))).trans
      (State.rdS_wrS_same _ (n := 15) rfl (by decide) (by norm_num; omega) (by norm_num; omega))
  · rw [State.cmbState, hcorrect, State.wrS_eq, State.wrS_eq, State.rd_wr_sep _ (by decide), State.rd_wr_sep _ (by decide),
      hrd (by decide)]
    exact hstate
  · rw [hcorrect, State.wrS_eq, State.wrS_eq, State.wr_hif, State.wr_hif, hhif]

theorem execClockCorrection_loses {b : Bool} {raw e : Int} (hstate : s.cmbState g = 5)
    (hself : s.on F.CMB_SYNC_STAT_master_self g = false) (hmaster : (s.seg g).master = some (b, raw, e)) (he : e < -2400 ∨ 2400 < e)
    (hev : s.takesEvent (48 + 2 * g)) :
    ∃ t, execClockCorrection g s = .next t ∧ t.cmbState g = 6 ∧ t.hasEvent (48 + 2 * g) 2 g
      ∧ t.rd F.CMB_SYNC_CNT_losses g = min (s.rd F.CMB_SYNC_CNT_losses g + 1) (2 ^ F.CMB_SYNC_CNT_losses.width - 1) := by
  obtain ⟨v, rho, hcorrect, hhif, hrd, hevv⟩ := s.correct_eq g e
  obtain ⟨u, hu⟩ : ∃ u, u = s.correct g e := ⟨_, rfl⟩
  have hlosses : u.rd F.CMB_SYNC_CNT_losses g = s.rd F.CMB_SYNC_CNT_losses g := by
    rw [hu, hcorrect, State.wrS_eq, State.wrS_eq, State.rd_wr_sep _ (by decide), State.rd_wr_sep _ (by decide), hrd (by decide)]
  have hevu : u.takesEvent (48 + 2 * g) := by
    rw [hu, hcorrect, State.wrS_eq, State.wrS_eq]
    exact State.takesEvent_wr_high (State.takesEvent_wr_high (hevv hev (by omega)) (by omega) (Fld.OfSegment.le_addr (by decide) _)) (by omega)
      (Fld.OfSegment.le_addr (by decide) _)
  have hexec : execClockCorrection g s = .next (u.enterPassive g e) := by
    unfold execClockCorrection
    simp only [hmaster]
    rw [if_neg (by simp [hstate]), if_neg (by simp [hstate, hself]), if_pos ⟨hstate, he⟩, hu]
  obtain ⟨w, hw⟩ : ∃ w, w = (u.enterCmb g 6).bump F.CMB_SYNC_CNT_losses g := ⟨_, rfl⟩
  have hstate' : w.cmbState g = 6 := by
    rw [hw, State.bump_eq]
    exact (State.rd_wr_sep _ (by decide)).trans (u.enterCmb_state g (by decide))
  have hcount : w.rd F.CMB_SYNC_CNT_losses g = min (s.rd F.CMB_SYNC_CNT_losses g + 1) (2 ^ F.CMB_SYNC_CNT_losses.width - 1) := by
    rw [hw, State.rd_bump_same _ (by decide), u.enterCmb_rd g 6 (by decide), hlosses, min_comm]
  have hevw : w.takesEvent (48 + 2 * g) := by
    rw [hw, State.bump_eq]
    exact State.takesEvent_wr_high (State.enterCmb_takesEvent hevu (by omega) ..) (by omega) (Fld.OfSegment.le_addr (by decide) _)
  rw [State.enterPassive, ← hw] at hexec
  refine ⟨_, hexec, ?_, State.syncEvent_hasEvent _ _ hevw, ?_⟩
  · exact (w.syncEvent_rd g.isLt _ _ (Fld.OfSegment.notMem_eventWords (by decide) g.isLt)).trans hstate'
  · exact (w.syncEvent_rd g.isLt _ _ (Fld.OfSegment.notMem_eventWords (by decide) g.isLt)).trans hcount

theorem execPassiveRecovery_syncs (hstate : s.cmbState g = 6) (hgood : 8 ≤ (s.seg g).good) (hev : s.takesEvent (48 + 2 * g)) :
    ∃ t, execPassiveRecovery g s = .next t ∧ t.cmbState g = 5 ∧ t.hasEvent (48 + 2 * g) 1 g := by
  have hexec : execPassiveRecovery g s = .next (s.enterSync g false) := by
    unfold execPassiveRecovery
    exact if_neg (by simp [hstate]; omega)
  exact ⟨_, hexec, s.enterSync_enters g.isLt _, State.enterSync_hasEvent g.isLt _ hev⟩

theorem execPassiveRecovery_idle (h : s.cmbState g ≠ 6 ∨ (s.seg g).good < 8) : execPassiveRecovery g s = .next s := by
  unfold execPassiveRecovery
  exact if_pos h
end Correction

/-! ## Lost frames (R330, R339) and offsets learned anew (R326) -/

theorem State.syncEvent_isTiming (s : State) {g : Nat} (code : Nat) (d : DWord) (hg : g < 8) :
    (s.syncEvent g code d).isTiming g = s.isTiming g := by
  rw [isTiming, isTiming, on, on, s.syncEvent_rd hg code d (Fld.OfSegment.notMem_eventWords (by decide) hg)]

section Loss
variable {s : State} {g : Fin 8}

theorem execSyncMasterLoss_replaces {k : Nat} (hstate : s.cmbState g = 5) (hlost : 4 ≤ (s.seg g).noMaster) (hlast : (s.seg g).syncLast = [k])
    (howner : (Sched.slot (s.sched g) k).owner ≠ s.rd F.CMB_SYNC_STAT_master g) (htiming : s.isTiming g = false)
    (hev : s.takesEvent (48 + 2 * g)) :
    ∃ t, execSyncMasterLoss g s = .next t ∧ (t.seg g).noMaster = 0 ∧ t.hasEvent (48 + 2 * g) 6 g ∧ t.cmbState g = 5
      ∧ t.rd F.CMB_SYNC_STAT_master g = (Sched.slot (s.sched g) k).owner % 2 ^ F.CMB_SYNC_STAT_master.width := by
  obtain ⟨u, hu⟩ : ∃ u, u = s.setSeg g { s.seg g with noMaster := 0, prevDev := none } := ⟨_, rfl⟩
  have hseg : (u.seg g).noMaster = 0 := by rw [hu, State.seg_setSeg_same]
  have hrd (f : Fld) : u.rd f g = s.rd f g := hu ▸ s.setSeg_rd g _ f g 0
  have hevu : u.takesEvent (48 + 2 * g) := hu ▸ hev
  obtain ⟨w, hw⟩ : ∃ w, w = u.setMaster g (Sched.slot (s.sched g) k).owner := ⟨_, rfl⟩
  have hmaster : w.rd F.CMB_SYNC_STAT_master g = (Sched.slot (s.sched g) k).owner % 2 ^ F.CMB_SYNC_STAT_master.width :=
    hw ▸ u.setMaster_master g.isLt _
  have hkept {f : Fld} (h : f.OfSegment) (hm : f.Sep F.CMB_SYNC_STAT_master) (hs : f.Sep F.CMB_SYNC_STAT_master_self) :
      w.rd f g = s.rd f g := by rw [hw, u.setMaster_rd g.isLt _ h hm hs, hrd]
  have hevw : w.takesEvent (48 + 2 * g) := hw ▸ State.setMaster_takesEvent hevu (by omega) _ _
  have hwtiming : w.isTiming g = false :=
    (congrArg (· != 0) (hkept (f := F.CMB_SYNC_CFG_timing) (by decide) (by decide) (by decide))).trans htiming
  have hmin : (s.seg g).syncLast.min? = some k := by rw [hlast]; rfl
  obtain ⟨d, hd⟩ : ∃ d, d = detail [(0, (Sched.slot (s.sched g) k).owner)] := ⟨_, rfl⟩
  have hexec : execSyncMasterLoss g s = .next (w.syncEvent g 6 d) := by
    unfold execSyncMasterLoss
    dsimp only
    rw [if_neg (by simp [hstate]; omega), hmin]
    dsimp only
    rw [← hu, hrd, if_neg howner, ← hw, ← hd, if_neg (by rw [State.syncEvent_isTiming _ _ _ g.isLt, hwtiming]; exact Bool.false_ne_true)]
  refine ⟨_, hexec, ?_, State.syncEvent_hasEvent _ _ hevw, ?_, ?_⟩
  · rw [State.syncEvent_seg, hw, State.setMaster_seg, hseg]
  · exact ((w.syncEvent_rd g.isLt 6 d (Fld.OfSegment.notMem_eventWords (by decide) g.isLt)).trans
      (hkept (f := F.CMB_SYNC_STAT_state) (by decide) (by decide) (by decide))).trans hstate
  · exact (w.syncEvent_rd g.isLt 6 d (Fld.OfSegment.notMem_eventWords (by decide) g.isLt)).trans hmaster

theorem execSyncFrameAbsence_listens (hstate : 4 ≤ s.cmbState g) (hlost : 16 ≤ (s.seg g).noSync) :
    ∃ t, execSyncFrameAbsence g s = .next t ∧ t.cmbState g = 1 ∧ t.rd F.CMB_SYNC_STAT_master g = 0 ∧ t.guardClosed g false = true := by
  have hexec : execSyncFrameAbsence g s = .next (s.enterListen g) := by
    unfold execSyncFrameAbsence
    exact if_neg (by omega)
  exact ⟨_, hexec, s.enterListen_state g.isLt, s.enterListen_master g.isLt, s.enterListen_closed g.isLt _⟩

theorem execRelearn_forgets (s : State) (g : Fin 8) :
    ∃ t, execRelearn g s = .next t ∧ (∀ k, k < 64 → s.masterSlot g ≠ some k → (t.seg g).learn false k = {} ∧ (t.seg g).learn true k = {})
      ∧ (∀ k, s.masterSlot g = some k → (t.seg g).learn false k = (s.seg g).learn false k ∧ (t.seg g).learn true k = (s.seg g).learn true k) :=
  ⟨_, rfl, fun _ hk hne => ⟨s.forget_forgets hk hne _, s.forget_forgets hk hne _⟩,
    fun _ hk => ⟨s.forget_keeps hk _, s.forget_keeps hk _⟩⟩

theorem execNodeLeft_tells {n : Fin 32} (hsilent : (s.seg g).silent.contains (n.val, some 16) = true) (hev : s.takesEvent (48 + 2 * g)) :
    ∃ t, execNodeLeft g n s = .next t ∧ t.hasEvent (48 + 2 * g) 10 g
      ∧ (t.seg g).silent = (s.seg g).silent.map fun p => if p.1 = n.val then (p.1, some 17) else p := by
  have hset (x : Seg8) : (s.setSeg g x).takesEvent (48 + 2 * g) := hev
  unfold execNodeLeft
  refine ⟨_, if_neg (by simpa using hsilent), State.syncEvent_hasEvent _ _ (hset _), ?_⟩
  rw [State.syncEvent_seg, State.seg_setSeg_same]
end Loss

/-- Settles O34, clause by clause; what the first lock and the place of the cycle leave of a segment is `State.KeepsSeg`. -/
theorem syncCommands : Obligations.SyncCommands := by
  unfold Obligations.SyncCommands
  exact ⟨fun _ _ => execListenTimeout_enters, fun _ _ => execListenTimeout_idle, fun _ _ => execColdstartComplete_ends,
    fun _ _ => execColdstartComplete_idle, fun _ _ => execBackoffExpiry_enters, fun _ _ _ => execTimeMessage_takes,
    fun _ _ => messages_none, fun _ _ _ _ => execEchoReq_answers, fun _ _ _ _ _ => execEchoResp_takes,
    fun _ _ _ _ _ => execIntegrationComplete_syncs, fun _ _ => execIntegrationComplete_idle,
    fun _ _ => execIntegrationLimitExpiry_listens, fun _ _ => execIntegrationLimitExpiry_passive,
    fun _ _ _ _ _ => execClockCorrection_corrects, fun _ _ _ _ _ => execClockCorrection_loses, fun _ _ => execPassiveRecovery_syncs,
    fun _ _ => execPassiveRecovery_idle, fun _ _ _ => execSyncMasterLoss_replaces, fun _ _ => execSyncFrameAbsence_listens,
    execRelearn_forgets, fun _ _ _ => execNodeLeft_tells⟩

end Sys2Proof.Machine

/-! Proofs about the frames of a segment (R300, R307 to R313). -/

namespace Sys2Proof.Machine

/-! ## Reception (R307 to R311) -/

namespace State

variable {s : State}

theorem freeRx_of_sync {g : Nat} (h : s.cmbState g = 5) : s.freeRx g = false := by
  simp [freeRx, h]

theorem segCount_of_sync {g : Nat} (h : s.cmbState g = 5) : s.segCount g = s.tim.cycle :=
  if_neg (by simp [h])

/-- A copy that passes every check carries the identifier of its slot. -/
theorem checkCopy_id {g k : Nat} {b : Bool} {c : Copy} (hfree : s.freeRx g = false) (h : s.checkCopy g (some k) b c = 0) :
    frameId c.bytes = k := by
  by_contra hne
  revert h
  simp only [checkCopy, hfree, Option.getD_some, bne_iff_ne.2 hne, Bool.not_false, Bool.and_self, Bool.true_or, if_true]
  split
  · simp
  · split
    · simp
    · split <;> simp

theorem checkCopy_start {g : Nat} {k : Option Nat} {b : Bool} {c : Copy} (h : c.start = false) : s.checkCopy g k b c = 1 := by
  unfold checkCopy
  exact if_pos (by simp [h])

variable (s)

/-- Where bytes of a frame enter memory, nothing changes that no deposit changes. -/
theorem depositSlot_view {β : Type} (P : State → β) (hat : ∀ (t : State) g kind eng a bs, P (t.depositAt g kind eng a bs) = P t)
    (hnote : ∀ (t : State) g p, P (t.noteDeposit g p) = P t) (g k : Nat) (r : SlotRx) :
    P (s.depositSlot g k r) = P (s.wr F.CMB_SLOT_STAT_status (s.statusWord g r) g k) := by
  unfold depositSlot
  refine foldl_keeps P (fun t p _ => ?_) _
  dsimp only
  split
  · rfl
  · have hframe : P (match r.frame with
        | some f => if frameFlag f 2 then t
          else (t.depositAt g p.kind p.eng p.arg (((framePayload f).drop p.off).take p.len)).noteDeposit g p
        | none => t) = P t := by
      split
      · split
        · rfl
        · rw [hnote, hat]
      · rfl
    split
    · rw [hat]
      exact hframe
    · exact hframe

theorem depositSlot_rd (g k : Nat) (r : SlotRx) (f : Fld) (i j : Nat) :
    (s.depositSlot g k r).rd f i j = (s.wr F.CMB_SLOT_STAT_status (s.statusWord g r) g k).rd f i j :=
  s.depositSlot_view (fun t : State => t.rd f i j) (fun t g kind eng a bs => by unfold depositAt; split <;> rfl)
    (fun t g p => by unfold noteDeposit; split <;> rfl) g k r

theorem depositSlot_hif (g k : Nat) (r : SlotRx) : (s.depositSlot g k r).hif = s.hif :=
  s.depositSlot_view (fun t : State => t.hif) (fun t g kind eng a bs => by unfold depositAt; split <;> rfl)
    (fun t g p => by unfold noteDeposit; split <;> rfl) g k r

/-- In SYNC a static frame changes the record of its segment only. -/
theorem syncFrame_eq {s : State} {g : Nat} (h : s.cmbState g = 5) (id : Nat) (fr : List Byte) (taken : Bool × DWord)
    (ca cb : Option DWord) : ∃ x, s.syncFrame g id fr taken ca cb = s.setSeg g x := by
  have hite {c : Prop} [Decidable c] {a b : State} (ha : ∃ x, a = s.setSeg g x) (hb : ∃ x, b = s.setSeg g x) :
      ∃ x, (if c then a else b) = s.setSeg g x := by
    split
    · exact ha
    · exact hb
  unfold syncFrame
  dsimp only
  rw [h, if_neg (by simp), if_neg (by simp), if_neg (by decide)]
  exact hite ⟨_, rfl⟩ (hite ⟨_, rfl⟩ ⟨_, rfl⟩)

theorem heardDyn_static (g k : Nat) (a b : Option Copy) : s.heardDyn g (some k) a b = s := by
  unfold heardDyn
  exact if_pos rfl

theorem countCopies_valid (g : Nat) : s.countCopies g 0 8 = s.bump F.CMB_RX_valid g 0 := by
  simp [countCopies]

theorem countCopies_coding (g : Nat) : s.countCopies g 1 8 = s.countError g false 1 := by
  simp [countCopies]

theorem countPair_one {g : Nat} (i : Nat) (h : s.chanOn g true = false) : s.countPair g i true false false = s := by
  simp [countPair, h]

theorem countPair_none (g i : Nat) : s.countPair g i false false false = s := rfl

theorem heard_rd {g : Nat} (hg : g < 8) (node : Nat) {f : Fld} {i j : Nat} (h : f.addr i j ∉ eventWords) :
    (s.heard g node).rd f i j = s.rd f i j := by
  unfold heard
  dsimp only
  split
  · exact syncEvent_rd _ hg _ _ h
  · rfl

theorem heard_tim (g node : Nat) : (s.heard g node).tim = s.tim := by
  unfold heard
  dsimp only
  split
  · exact raise_tim ..
  · rfl

/-- Where no number of errors is told, an error is counted and nothing else. -/
theorem countError_quiet {s : State} {g : Nat} (code : Nat) (h : s.rd F.CMB_THR_errors g = 0) :
    ∃ x, s.countError g false code = (s.bump (errFld code) g 0).setSeg g x := by
  have hoff : 0x140040 ≤ (errFld code).off ∧ (errFld code).s1 = 0x2000 ∧ (errFld code).off < 0x140060 := by
    unfold errFld
    split <;> decide
  have hthr : (s.bump (errFld code) g 0).rd F.CMB_THR_errors g = 0 := by
    rw [bump_eq, rd_wr_ne _ (by simp only [Fld.addr, hoff.2.1, F.CMB_THR_errors]; omega), h]
  unfold countError
  dsimp only
  exact ⟨_, if_neg (by simp [b2n, hthr])⟩

/-- A lost frame of a safety slot is counted and told. -/
theorem countLost_tells {s : State} {g : Nat} (hg : g < 8) (at_ : Nat) (hev : s.takesEvent (49 + 2 * g)) :
    (s.countLost g at_ true).hasEvent (49 + 2 * g) 6 g
      ∧ (s.countLost g at_ true).rd F.CMB_RX_ERR_lost g = min (s.rd F.CMB_RX_ERR_lost g + 1) (2 ^ F.CMB_RX_ERR_lost.width - 1)
      ∧ (∀ {f : Fld}, f.OfSegment → f.off ≠ 0x140068 → (s.countLost g at_ true).rd f g = s.rd f g)
      ∧ (s.countLost g at_ true).tim = s.tim := by
  obtain ⟨x, hx⟩ : ∃ x, s.countLost g at_ true = ((s.bump F.CMB_RX_ERR_lost g).setSeg g x).dataEvent g 6 (detail [(0, at_)]) := by
    unfold countLost
    dsimp only
    exact ⟨_, if_pos (by rw [Bool.true_or])⟩
  have hev' : ((s.bump F.CMB_RX_ERR_lost g).setSeg g x).takesEvent (49 + 2 * g) :=
    takesEvent_wr_high (f := F.CMB_RX_ERR_lost) hev (by omega) (Fld.OfSegment.le_addr (by decide) _)
  rw [hx]
  refine ⟨dataEvent_hasEvent _ _ hev', ?_, fun hf hne => ?_, ?_⟩
  · rw [dataEvent_rd _ hg _ _ (Fld.OfSegment.notMem_eventWords (by decide) hg), setSeg_rd, s.rd_bump_same (by decide), min_comm]
  · rw [dataEvent_rd _ hg _ _ (hf.notMem_eventWords hg), setSeg_rd, bump_eq,
      rd_wr_ne _ (by obtain ⟨hs, -, -⟩ := hf; simp only [Fld.addr, hs, F.CMB_RX_ERR_lost]; omega)]
  · rw [dataEvent, raise_tim]
    rfl

theorem chanOn_congr {t : State} {g : Nat} (b : Bool) (ha : t.rd F.CMB_SEG_CTL_chan_a_en g = s.rd F.CMB_SEG_CTL_chan_a_en g)
    (hb : t.rd F.CMB_SEG_CTL_chan_b_en g = s.rd F.CMB_SEG_CTL_chan_b_en g) (hsched : t.sched g = s.sched g) :
    t.chanOn g b = s.chanOn g b := by
  cases b with
  | false => simp only [chanOn, on, Bool.false_eq_true, if_false, ha, hsched]
  | true => simp only [chanOn, on, if_true, hb, hsched]

end State

/-- A frame of another node is received where both channels carry what they carry. -/
theorem execFrameReception_receives {s : State} {g : Fin 8} {k : Fin 64} {c : Copy} (hon : s.on F.CMB_SEG_STAT_stopped g = false)
    (hA : s.chanOn g false = true) (howner : (Sched.slot (s.sched g) k).owner ≠ s.ownNode g) :
    execFrameReception g (some k) (some c) none s = .next (s.receive g (some k.val) (some c) none) := by
  have hb : (if s.chanOn g true = true then (none : Option Copy) else none) = none := ite_self _
  unfold execFrameReception
  rw [if_neg (by simp [hon]), hA, if_pos rfl]
  dsimp only
  rw [hb]
  refine if_neg ?_
  simp [howner]

theorem execFrameReception_stopped {s : State} {g : Fin 8} (k : Option (Fin 64)) (a b : Option Copy)
    (hstop : s.on F.CMB_SEG_STAT_stopped g = true) : execFrameReception g k a b s = .next s := by
  unfold execFrameReception
  exact if_pos hstop

/-- The valid copy of channel A alone is counted, heard and deposited. -/
theorem State.receive_valid {s : State} {g k : Nat} {c : Copy} (hstate : s.cmbState g = 5) (hB : s.chanOn g true = false)
    (hcheck : s.checkCopy g (some k) false c = 0) (hk : k < 64) :
    ∃ s1, s1 = (s.bump F.CMB_RX_valid g 0).heard g (idOwner (s.sched g) k) ∧ s.receive g (some k) (some c) none
      = (s1.depositSlot g k { a := true, b := false, frame := some c.bytes, mism := false }).syncFrame g k c.bytes (false, c.action)
        (some c.action) none := by
  have hid := checkCopy_id (freeRx_of_sync hstate) hcheck
  have hchan : (s.bump F.CMB_RX_valid g 0).chanOn g true = false := by
    rw [s.chanOn_congr true (t := s.bump F.CMB_RX_valid g 0) ?_ ?_ rfl]
    · exact hB
    · exact rd_wr_ne _ (by simp only [Fld.addr, F.CMB_RX_valid, F.CMB_SEG_CTL_chan_a_en]; omega)
    · exact rd_wr_ne _ (by simp only [Fld.addr, F.CMB_RX_valid, F.CMB_SEG_CTL_chan_b_en]; omega)
  have hdyn := s.heardDyn_static g k (some c) none
  have hpair := (s.bump F.CMB_RX_valid g 0).countPair_one k hchan
  have h0 : ((0 : Nat) == 0) = true := rfl
  have h8 : ((8 : Nat) == 0) = false := rfl
  refine ⟨_, rfl, ?_⟩
  unfold receive
  simp only [hcheck, hid, h0, h8, if_true, Bool.and_false, Bool.false_and, hdyn, countCopies_valid, hpair, if_pos hk, Option.map_some,
    Bool.false_eq_true, if_false]

/-- A copy that fails its first check is counted, and the slot has lost its frame. -/
theorem State.receive_coding {s : State} {g k : Nat} {c : Copy} (hstate : s.cmbState g = 5) (hstart : c.start = false)
    (howner : idOwner (s.sched g) k ≠ 0) :
    s.receive g (some k) (some c) none = ((s.countError g false 1).countLost g k (bitAt (Sched.slot (s.sched g) k).flags 1)).depositSlot g k
      { a := false, b := false, frame := none, mism := false } := by
  have hdyn := s.heardDyn_static g k (some c) none
  have h1 : ((1 : Nat) == 0) = false := rfl
  have h8 : ((8 : Nat) == 0) = false := rfl
  unfold receive
  simp only [checkCopy_start hstart, freeRx_of_sync hstate, h1, h8, Bool.and_false, Bool.false_and, hdyn, countCopies_coding, countPair_none,
    Bool.false_eq_true, if_false, Bool.not_false, Bool.true_and, bne_iff_ne.2 howner, Bool.true_or, if_true]

theorem execFrameReception_valid {s : State} {g : Fin 8} {k : Fin 64} {c : Copy} (hon : s.on F.CMB_SEG_STAT_stopped g = false)
    (hstate : s.cmbState g = 5) (hA : s.chanOn g false = true) (hB : s.chanOn g true = false)
    (hcheck : s.checkCopy g (some k.val) false c = 0) (howner : (Sched.slot (s.sched g) k).owner ≠ s.ownNode g)
    (hnull : frameFlag c.bytes 2 = false) :
    ∃ t, execFrameReception g (some k) (some c) none s = .next t
      ∧ t.rd F.CMB_SLOT_STAT_status g k = s.tim.cycle % 2 ^ 16 + 2 ^ 16 + 2 ^ 17 + 2 ^ 21 * b2n (frameFlag c.bytes 3)
      ∧ t.rd F.CMB_RX_valid g 0 = min (s.rd F.CMB_RX_valid g 0 + 1) (2 ^ F.CMB_RX_valid.width - 1) := by
  obtain ⟨s1, hs1, hreceive⟩ := s.receive_valid hstate hB hcheck k.isLt
  have hstate1 : s1.cmbState g = 5 := by
    rw [hs1, State.cmbState, State.heard_rd _ g.isLt _ (Fld.OfSegment.notMem_eventWords (by decide) g.isLt), State.bump_eq]
    exact (State.rd_wr_ne _ (by simp only [Fld.addr, F.CMB_RX_valid, F.CMB_SYNC_STAT_state]; omega)).trans hstate
  have hcycle : s1.segCount g = s.tim.cycle := by
    rw [State.segCount_of_sync hstate1, hs1, State.heard_tim]
    rfl
  have hvalid : s1.rd F.CMB_RX_valid g 0 = min (s.rd F.CMB_RX_valid g 0 + 1) (2 ^ F.CMB_RX_valid.width - 1) := by
    rw [hs1, State.heard_rd _ g.isLt _ (Fld.OfSegment.notMem_eventWords (by decide) g.isLt), s.rd_bump_same (by decide), min_comm]
  have hstatus : s1.statusWord g { a := true, b := false, frame := some c.bytes, mism := false }
      = s.tim.cycle % 2 ^ 16 + 2 ^ 16 + 2 ^ 17 + 2 ^ 21 * b2n (frameFlag c.bytes 3) := by
    simp [State.statusWord, hcycle, hnull, b2n]
  obtain ⟨u, hu⟩ : ∃ u, u = s1.depositSlot g k { a := true, b := false, frame := some c.bytes, mism := false } := ⟨_, rfl⟩
  have hstateu : u.cmbState g = 5 := by
    rw [hu, State.cmbState, s1.depositSlot_rd]
    exact (State.rd_wr_ne _ (by simp only [Fld.addr, F.CMB_SLOT_STAT_status, F.CMB_SYNC_STAT_state]; omega)).trans hstate1
  obtain ⟨x, hx⟩ := u.syncFrame_eq hstateu k c.bytes (false, c.action) (some c.action) none
  have hexec : execFrameReception g (some k) (some c) none s = .next (u.setSeg g x) := by
    rw [execFrameReception_receives hon hA howner, hreceive, ← hu, hx]
  refine ⟨_, hexec, ?_, ?_⟩
  · rw [State.setSeg_rd, hu, s1.depositSlot_rd, hstatus]
    refine State.rd_wr_lt _ ?_ (by decide)
    have hlt : s.tim.cycle % 2 ^ 16 < 2 ^ 16 := Nat.mod_lt _ (by decide)
    have hle : b2n (frameFlag c.bytes 3) ≤ 1 := by cases frameFlag c.bytes 3 <;> decide
    change _ < 2 ^ 32
    omega
  · rw [State.setSeg_rd, hu, s1.depositSlot_rd]
    exact (State.rd_wr_ne _ (by simp only [Fld.addr, F.CMB_SLOT_STAT_status, F.CMB_RX_valid]; omega)).trans hvalid

theorem execFrameReception_coding {s : State} {g : Fin 8} {k : Fin 64} {c : Copy} (hon : s.on F.CMB_SEG_STAT_stopped g = false)
    (hstate : s.cmbState g = 5) (hA : s.chanOn g false = true) (hstart : c.start = false)
    (hother : (Sched.slot (s.sched g) k).owner ≠ s.ownNode g) (howner : (Sched.slot (s.sched g) k).owner ≠ 0)
    (hk : k.val < Sched.slots (s.sched g)) (hsafety : bitAt (Sched.slot (s.sched g) k).flags 1 = true)
    (hthr : s.rd F.CMB_THR_errors g = 0) (hev : s.takesEvent (49 + 2 * g)) :
    ∃ t, execFrameReception g (some k) (some c) none s = .next t ∧ t.hasEvent (49 + 2 * g) 6 g
      ∧ t.rd F.CMB_ERR0_coding g 0 = min (s.rd F.CMB_ERR0_coding g 0 + 1) (2 ^ F.CMB_ERR0_coding.width - 1)
      ∧ t.rd F.CMB_RX_ERR_lost g = min (s.rd F.CMB_RX_ERR_lost g + 1) (2 ^ F.CMB_RX_ERR_lost.width - 1)
      ∧ t.rd F.CMB_SLOT_STAT_status g k = s.tim.cycle % 2 ^ 16 := by
  have hid : idOwner (s.sched g) k ≠ 0 := by rwa [idOwner, if_pos k.isLt, if_pos hk]
  obtain ⟨u, hu⟩ : ∃ u, u = s.countError g false 1 := ⟨_, rfl⟩
  obtain ⟨x, hx⟩ := s.countError_quiet 1 hthr
  have hurd (f : Fld) (i j : Nat) : u.rd f i j = (s.bump F.CMB_ERR0_coding g 0).rd f i j := by rw [hu, hx]; rfl
  have hutim : u.tim = s.tim := by rw [hu, hx]; rfl
  have huev : u.takesEvent (49 + 2 * g) := by
    rw [hu, hx]
    exact State.takesEvent_wr_high (f := F.CMB_ERR0_coding) hev (by omega) (Fld.OfSegment.le_addr (by decide) _)
  obtain ⟨w, hw⟩ : ∃ w, w = u.countLost g k true := ⟨_, rfl⟩
  obtain ⟨hwev, hwlost, hwrd, hwtim⟩ := State.countLost_tells g.isLt k huev
  rw [← hw] at hwev hwlost hwrd hwtim
  have hexec : execFrameReception g (some k) (some c) none s
      = .next (w.depositSlot g k { a := false, b := false, frame := none, mism := false }) := by
    rw [execFrameReception_receives hon hA hother, State.receive_coding hstate hstart hid, hsafety, hw, hu]
  have hkept {f : Fld} (hf : f.OfSegment) (hlo : f.off < 0x140400) :
      (w.depositSlot g k { a := false, b := false, frame := none, mism := false }).rd f g = w.rd f g := by
    obtain ⟨hs, -, -⟩ := hf
    rw [State.depositSlot_rd]
    exact State.rd_wr_ne _ (by simp only [Fld.addr, hs, F.CMB_SLOT_STAT_status]; omega)
  refine ⟨_, hexec, ?_, ?_, ?_, ?_⟩
  · unfold State.hasEvent at hwev ⊢
    rwa [State.depositSlot_hif]
  · rw [hkept (by decide) (by decide), hwrd (by decide) (by decide), hurd, s.rd_bump_same (by decide), min_comm]
  · rw [hkept (by decide) (by decide), hwlost, hurd, State.bump_eq,
      State.rd_wr_ne _ (by simp only [Fld.addr, F.CMB_RX_ERR_lost, F.CMB_ERR0_coding]; omega)]
  · have hstatew : w.cmbState g = 5 := by
      rw [State.cmbState, hwrd (by decide) (by decide), hurd, State.bump_eq,
        State.rd_wr_ne _ (by simp only [Fld.addr, F.CMB_SYNC_STAT_state, F.CMB_ERR0_coding]; omega)]
      exact hstate
    have hstatus : w.statusWord g { a := false, b := false, frame := none, mism := false } = s.tim.cycle % 2 ^ 16 := by
      simp [State.statusWord, State.segCount_of_sync hstatew, hwtim, hutim, b2n, frameFlag, bitAt, byteAt]
    rw [State.depositSlot_rd, hstatus]
    refine State.rd_wr_lt _ ?_ (by decide)
    have hlt : s.tim.cycle % 2 ^ 16 < 2 ^ 16 := Nat.mod_lt _ (by decide)
    change _ < 2 ^ 32
    omega

/-! ## The dynamic segment (R300, R312) -/

section Dynamic
variable {s : State} {g : Fin 8}

theorem execMinislotBoundary_passes (hon : s.on F.CMB_SEG_STAT_stopped g = false) (hmini : (s.seg g).mini < Sched.minis (s.sched g))
    (hocc : 0 < (s.seg g).occ) :
    execMinislotBoundary g s = .next (s.setSeg g { s.seg g with mini := (s.seg g).mini + 1, occ := (s.seg g).occ - 1 }) := by
  unfold execMinislotBoundary State.boundary
  dsimp only
  rw [if_neg (by simp [hon]; omega), if_pos hocc]

/-- What a segment may drive does not depend on its record but for the schedule. -/
theorem State.opens_setSeg (s : State) (g : Nat) (v : Seg8) (b : Bool) (h : v.sched = (s.seg g).sched) :
    (s.setSeg g v).opens g b = s.opens g b := by
  have hsched : (s.setSeg g v).sched g = s.sched g := by rw [State.sched, State.seg_setSeg_same, h, State.sched]
  have hchan : (s.setSeg g v).chanOn g b = s.chanOn g b := s.chanOn_congr b rfl rfl hsched
  rw [State.opens, State.opens, hchan]
  rfl

/-- In SYNC the oldest posted frame of an identifier goes out where no message waits and the mini-slots suffice. -/
theorem State.sendDyn_posts {u : State} {g id : Nat} {p : List Byte} {l : List (List Byte)} (hstate : u.cmbState g = 5)
    (hopen : u.opens g false = true) (hmsgs : (u.seg g).msgs = []) (hposted : lookup (fun _ => []) (u.seg g).posted id = p :: l)
    (hfit : occupancy (u.sched g) p.length ≤ remaining (u.sched g) (u.seg g)) :
    lookup (fun _ => []) ((u.sendDyn g id).seg g).posted id = l ∧ ((u.sendDyn g id).seg g).dynId = (u.seg g).dynId
      ∧ ((u.sendDyn g id).seg g).mini = (u.seg g).mini ∧ ((u.sendDyn g id).seg g).occ = occupancy (u.sched g) p.length - 1
      ∧ ((u.sendDyn g id).seg g).sent = (u.seg g).sent ++ [(id, frameBytes id (u.tim.cycle % 65536) 0 p)] := by
  have hnone : (lookup (fun _ => []) (u.seg g).msgs id).filter (u.msgAllowed g) = [] := by rw [hmsgs]; rfl
  obtain ⟨v, hv⟩ : ∃ v, v = u.setSeg g { u.seg g with msgs := store (fun _ => []) (u.seg g).msgs id [] } := ⟨_, rfl⟩
  have hseg : v.seg g = { u.seg g with msgs := store (fun _ => []) (u.seg g).msgs id [] } := hv ▸ u.seg_setSeg_same g _
  have hopenv : v.opens g false = true := by
    rw [hv, u.opens_setSeg g _ false]
    · exact hopen
    · rfl
  have hpostedv : lookup (fun _ => []) (v.seg g).posted id = p :: l := by rw [hseg, ← hposted]
  have hstatev : v.cmbState g = 5 := hv ▸ hstate
  have hleft : remaining (u.sched g) (v.seg g) = remaining (u.sched g) (u.seg g) := by rw [hseg]; rfl
  obtain ⟨a, ha⟩ : ∃ a, a = v.setSeg g { v.seg g with posted := store (fun _ => []) (v.seg g).posted id l } := ⟨_, rfl⟩
  have hsega : a.seg g = { v.seg g with posted := store (fun _ => []) (v.seg g).posted id l } := ha ▸ v.seg_setSeg_same g _
  have hsend : u.sendDyn g id = (a.setSeg g { a.seg g with occ := occupancy (u.sched g) p.length - 1 }).sendFrame g id
      (frameBytes id (a.segCount g % 65536) 0 p) := by
    unfold sendDyn
    dsimp only
    rw [hnone, ← hv, if_neg (by simp [hopenv])]
    dsimp only
    rw [hpostedv]
    dsimp only
    rw [if_neg (by rw [hstatev, hleft]; omega), ← ha]
  have hcount : a.segCount g = u.tim.cycle := by
    have hstatea : a.cmbState g = 5 := ha ▸ hstatev
    rw [segCount_of_sync hstatea, ha, hv]
    rfl
  rw [hsend, hcount, sendFrame, seg_setSeg_same, seg_setSeg_same, hsega, hseg]
  exact ⟨lookup_store_same .., rfl, rfl, rfl, rfl⟩

theorem execMinislotBoundary_sends {p : List Byte} {l : List (List Byte)} (hon : s.on F.CMB_SEG_STAT_stopped g = false)
    (hstate : s.cmbState g = 5) (hmini : (s.seg g).mini = 0) (hocc : (s.seg g).occ = 0) (hmute : (s.seg g).mute = false)
    (howner : Sched.ownerOf (s.sched g) 64 = some (s.ownNode g)) (hopen : s.opens g false = true) (hmsgs : (s.seg g).msgs = [])
    (hposted : lookup (fun _ => []) (s.seg g).posted 64 = p :: l) (hfit : occupancy (s.sched g) p.length ≤ Sched.minis (s.sched g))
    (hminis : 0 < Sched.minis (s.sched g)) :
    ∃ t, execMinislotBoundary g s = .next t ∧ lookup (fun _ => []) (t.seg g).posted 64 = l ∧ (t.seg g).dynId = 64
      ∧ (t.seg g).mini = 1 ∧ (t.seg g).occ = occupancy (s.sched g) p.length - 1
      ∧ (t.seg g).sent = (s.seg g).sent ++ [(64, frameBytes 64 (s.tim.cycle % 65536) 0 p)] := by
  obtain ⟨u, hu⟩ : ∃ u, u = s.setSeg g { s.seg g with mini := (s.seg g).mini + 1, dynId := 64 } := ⟨_, rfl⟩
  have hseg : u.seg g = { s.seg g with mini := (s.seg g).mini + 1, dynId := 64 } := hu ▸ s.seg_setSeg_same g _
  have hsched : u.sched g = s.sched g := by rw [State.sched, hseg, State.sched]
  have hopenu : u.opens g false = true := by
    rw [hu, State.opens_setSeg s g _ false]
    · exact hopen
    · rfl
  have hexec : execMinislotBoundary g s = .next (u.sendDyn g 64) := by
    have hown : u.ownNode g = s.ownNode g := by rw [State.ownNode, hsched, State.ownNode]
    unfold execMinislotBoundary State.boundary
    dsimp only
    rw [if_neg (by simp [hon]; omega), if_neg (by omega), if_pos hmini, ← hu, hown, if_neg (by simp [hmute, howner])]
  have hmsgsu : (u.seg g).msgs = [] := by rw [hseg, hmsgs]
  have hpostedu : lookup (fun _ => []) (u.seg g).posted 64 = p :: l := by rw [hseg, ← hposted]
  have hfitu : occupancy (u.sched g) p.length ≤ remaining (u.sched g) (u.seg g) := by
    rw [hsched, hseg, remaining, Nat.add_sub_cancel, hmini]
    exact hfit
  obtain ⟨h1, h2, h3, h4, h5⟩ := State.sendDyn_posts (hu ▸ hstate) hopenu hmsgsu hpostedu hfitu
  rw [hsched] at h4
  rw [show u.tim = s.tim from hu ▸ rfl] at h5
  refine ⟨_, hexec, h1, ?_, ?_, h4, ?_⟩
  · rw [h2, hseg]
  · rw [h3, hseg, hmini]
  · rw [h5, hseg]

theorem execDynamicFramePost_queues {i : BitVec 10} {p : List Byte} (hmode : s.mode ≠ 5)
    (howner : Sched.ownerOf (s.sched g) i.toNat = some (s.ownNode g))
    (hroom : (lookup (fun _ => []) (s.seg g).posted i.toNat).length < 4) (hlen : p.length ≤ 254) :
    ∃ t, execDynamicFramePost g i p s = .next t ∧ t.rdata = 1 ∧ t.regs = s.regs
      ∧ lookup (fun _ => []) (t.seg g).posted i.toNat = lookup (fun _ => []) (s.seg g).posted i.toNat ++ [p] := by
  unfold execDynamicFramePost
  refine ⟨_, if_neg (by simp [hmode, howner]; omega), rfl, rfl, ?_⟩
  change lookup _ ((s.setSeg g _).seg g).posted _ = _
  rw [State.seg_setSeg_same, lookup_store_same]

theorem execDynamicFramePost_refuses {i : BitVec 10} {p : List Byte} (h : s.mode = 5 ∨ Sched.ownerOf (s.sched g) i.toNat ≠ some (s.ownNode g)
    ∨ 4 ≤ (lookup (fun _ => []) (s.seg g).posted i.toNat).length) : execDynamicFramePost g i p s = .next { s with rdata := 0 } := by
  unfold execDynamicFramePost
  exact if_pos (h.imp_right (Or.imp_right .inl))
end Dynamic

/-! ## Static frames (R312, R313) -/

section Static
variable {s : State} {g : Fin 8} {k : Fin 64}

theorem execTransmitLeadExamination_examines (hon : s.on F.CMB_SEG_STAT_stopped g = false) (hk : k.val < Sched.slots (s.sched g))
    (hlead : s.leadEngines g k = []) : execTransmitLeadExamination g k s = .next (s.examine g k) := by
  unfold execTransmitLeadExamination
  rw [if_neg (by simp [hon]; omega), hlead]
  rfl

theorem State.txSlot_setTxSlot_same (s : State) (g k : Nat) (v : TxSlot) : (s.setTxSlot g k v).txSlot g k = v := by
  have hsched : (s.setTxSlot g k v).sched g = s.sched g := by rw [sched, setTxSlot, seg_setSeg_same, sched]
  rw [txSlot, hsched, setTxSlot, seg_setSeg_same]
  exact lookup_store_same _ _ _

theorem State.setEng_txSlot (s : State) (n : Nat) (e : Engine) (g k : Nat) : (s.setEng n e).txSlot g k = s.txSlot g k := rfl

theorem State.countLate_eq (s : State) (g k : Nat) : ∃ w, s.countLate g k = (s.bump F.CMB_TX_ERR_late g).setSeg g { s.seg g with lateW := w }
    ∨ ∃ d, s.countLate g k = ((s.bump F.CMB_TX_ERR_late g).setSeg g { s.seg g with lateW := w }).dataEvent g 1 d := by
  unfold countLate
  dsimp only
  refine ⟨((s.seg g).lateW.hit ((s.bump F.CMB_TX_ERR_late g).rd F.CMB_THR_late g)).1, ?_⟩
  split
  · exact .inr ⟨_, rfl⟩
  · exact .inl rfl

theorem State.countLate_txSlot (s : State) (g k j : Nat) : (s.countLate g k).txSlot g j = s.txSlot g j := by
  have hset (w : WinCount) : ((s.bump F.CMB_TX_ERR_late g).setSeg g { s.seg g with lateW := w }).txSlot g j = s.txSlot g j := by
    rw [txSlot, txSlot, sched, sched, seg_setSeg_same]
  obtain ⟨w, h | ⟨d, h⟩⟩ := s.countLate_eq g k
  · rw [h, hset]
  · rw [h, txSlot, sched, dataEvent_seg]
    exact hset w

theorem State.countLate_counts (s : State) {g : Nat} (hg : g < 8) (k : Nat) : (s.countLate g k).rd F.CMB_TX_ERR_late g
    = min (s.rd F.CMB_TX_ERR_late g + 1) (2 ^ F.CMB_TX_ERR_late.width - 1) := by
  obtain ⟨w, h | ⟨d, h⟩⟩ := s.countLate_eq g k
  · rw [h, setSeg_rd, s.rd_bump_same (by decide), min_comm]
  · rw [h, dataEvent_rd _ hg _ _ (Fld.OfSegment.notMem_eventWords (by decide) hg), setSeg_rd, s.rd_bump_same (by decide), min_comm]

/-- The set-points that go out in a slot. -/
def State.setPoints (s : State) (g k : Nat) : List (Nat × Place) :=
  ((Sched.txIdx (s.sched g)).filter fun p => p.2.slot == k).filter fun p => p.2.kind == 1

theorem State.mem_setPoints {s : State} {g k : Nat} {p : Nat × Place} :
    p ∈ s.setPoints g k ↔ p ∈ Sched.txIdx (s.sched g) ∧ p.2.slot = k ∧ p.2.kind = 1 := by
  simp only [setPoints, List.mem_filter, beq_iff_eq, and_assoc]

/-- An own slot in HOLD, where every engine has its set-points to write. -/
theorem State.examine_eq {s : State} {g k : Nat} (hon : s.on F.CMB_SEG_STAT_stopped g = false)
    (howner : (Sched.slot (s.sched g) k).owner = s.ownNode g) (hmode : s.mode = 4) :
    s.examine g k = if (s.setPoints g k).all fun p => (s.txSlot g k).written.contains p.1 then
        (s.setPoints g k).foldl (fun u p => u.setEng p.2.eng ((u.eng p.2.eng).setAx p.2.b3
          { (u.eng p.2.eng).ax p.2.b3 with sent := fieldS (s.txSlot g k).fill p.2.off 2 }))
          (s.setTxSlot g k { s.txSlot g k with send := (s.txSlot g k).fill, written := [], null := false, rep := false })
      else if (s.txSlot g k).null then s.setTxSlot g k { s.txSlot g k with written := [] }
      else (s.setTxSlot g k { s.txSlot g k with
        send := (((Sched.txIdx (s.sched g)).filter fun p => p.2.slot == k).filter fun p => p.2.kind != 1).foldl
          (fun l p => putBytes l p.2.off (((s.txSlot g k).fill.drop p.2.off).take p.2.len)) (s.txSlot g k).send
        written := [], rep := true }).countLate g k := by
  have hgo : ¬ ((Sched.slot (s.sched g) k).owner ≠ s.ownNode g ∨ s.on F.CMB_SEG_STAT_stopped g = true) := by simp [howner, hon]
  have hrest : (s.mode == 5 || s.mode == 7) = false := by simp [hmode]
  unfold examine
  dsimp only
  rw [if_neg hgo]
  simp only [hrest, Bool.false_and, Bool.false_eq_true, if_false, List.foldl_fixed]
  rfl

theorem examine_swaps (hon : s.on F.CMB_SEG_STAT_stopped g = false) (howner : (Sched.slot (s.sched g) k).owner = s.ownNode g)
    (hmode : s.mode = 4)
    (hall : ∀ p ∈ Sched.txIdx (s.sched g), p.2.slot = k.val → p.2.kind = 1 → (s.txSlot g k).written.contains p.1 = true) :
    (s.examine g k).txSlot g k = { s.txSlot g k with send := (s.txSlot g k).fill, written := [], null := false, rep := false } := by
  rw [State.examine_eq hon howner hmode, if_pos]
  · rw [foldl_keeps (fun t : State => t.txSlot g k) fun t p _ => t.setEng_txSlot .., State.txSlot_setTxSlot_same]
  · refine List.all_eq_true.2 fun p hp => ?_
    obtain ⟨hin, hslot, hkind⟩ := State.mem_setPoints.1 hp
    exact hall p hin hslot hkind

theorem examine_repeats {p : Nat × Place} (hon : s.on F.CMB_SEG_STAT_stopped g = false)
    (howner : (Sched.slot (s.sched g) k).owner = s.ownNode g) (hmode : s.mode = 4) (hp : p ∈ Sched.txIdx (s.sched g))
    (hslot : p.2.slot = k.val) (hkind : p.2.kind = 1) (hunwritten : (s.txSlot g k).written.contains p.1 = false)
    (hnull : (s.txSlot g k).null = false) :
    ((s.examine g k).txSlot g k).rep = true ∧ ((s.examine g k).txSlot g k).written = []
      ∧ (s.examine g k).rd F.CMB_TX_ERR_late g = min (s.rd F.CMB_TX_ERR_late g + 1) (2 ^ F.CMB_TX_ERR_late.width - 1) := by
  have hsome : ¬ ((s.setPoints g k).all fun p => (s.txSlot g k).written.contains p.1) = true := fun h => by
    have hw := List.all_eq_true.1 h p (State.mem_setPoints.2 ⟨hp, hslot, hkind⟩)
    rw [hunwritten] at hw
    exact Bool.false_ne_true hw
  rw [State.examine_eq hon howner hmode, if_neg hsome, hnull, if_neg Bool.false_ne_true, State.countLate_txSlot,
    State.txSlot_setTxSlot_same, State.countLate_counts _ g.isLt]
  exact ⟨rfl, rfl, rfl⟩

theorem execStaticFrameTransmit_sends (hon : s.on F.CMB_SEG_STAT_stopped g = false) (hstate : s.cmbState g = 5)
    (hk : k.val < Sched.slots (s.sched g)) (howner : (Sched.slot (s.sched g) k).owner = s.ownNode g) (hopen : s.opens g false = true)
    (hsync : Sched.syncOf (s.sched g) (s.ownNode g) ≠ some k.val) (hnull : (s.txSlot g k).null = false) :
    execStaticFrameTransmit g k s = .next (s.setSeg g { s.seg g with sent := (s.seg g).sent ++
      [(k.val, frameBytes k (s.tim.cycle % 65536) (8 * b2n (s.txSlot g k).rep) (s.txSlot g k).send)] }) := by
  have hsync' : (Sched.syncOf (s.sched g) (s.ownNode g) == some k.val) = false := by simpa using hsync
  unfold execStaticFrameTransmit State.sendStatic
  dsimp only
  rw [if_neg (by simp [hon]; omega), if_neg (by simp [howner, hstate, hopen])]
  have hflags (n : Nat) : b2n false + 2 * b2n (5 == 2) + 4 * b2n false + n = n := Nat.zero_add n
  simp only [hsync', hstate, hnull, State.sendFrame, hflags, Bool.not_false, if_true, Bool.false_eq_true, if_false]

theorem execStaticFrameTransmit_closed (hA : s.opens g false = false) (hB : s.opens g true = false) :
    execStaticFrameTransmit g k s = .next s := by
  unfold execStaticFrameTransmit State.sendStatic
  dsimp only
  split
  · rfl
  · rw [if_pos (by simp [hA, hB])]
end Static

/-- Settles O33, clause by clause. -/
theorem frameCommands : Obligations.FrameCommands := by
  unfold Obligations.FrameCommands
  exact ⟨fun _ _ => execFrameReception_stopped, fun _ _ _ _ => execFrameReception_valid, fun _ _ _ _ => execFrameReception_coding,
    fun _ _ => execMinislotBoundary_passes, fun _ _ _ _ => execMinislotBoundary_sends, fun _ _ _ _ => execDynamicFramePost_queues,
    fun _ _ _ _ => execDynamicFramePost_refuses, fun _ _ _ => execTransmitLeadExamination_examines, fun _ _ _ => examine_swaps,
    fun _ _ _ _ => examine_repeats, fun _ _ _ => execStaticFrameTransmit_sends, fun _ _ _ => execStaticFrameTransmit_closed⟩

end Sys2Proof.Machine

/-! What the work at a common instant (R35) leaves of the cycle itself: its counter, its instants, the feedback of the segments, and
the flag of compare unit 0. -/

namespace Sys2Proof.Machine

namespace State

/-- The counter of the cycle, its last and its next instant, the segments whose feedback is in, and `fired` of compare unit 0. -/
def clock (s : State) : Nat × Nat × Nat × Nat × Nat :=
  (s.tim.cycle, s.tim.lastInstant, s.tim.instant, s.combway.fbc, s.rd F.TIM_CMP_CFG_fired 0)

theorem clock_ite {c : Prop} [Decidable c] {a b : State} {x : Nat × Nat × Nat × Nat × Nat} (ha : a.clock = x) (hb : b.clock = x) :
    (if c then a else b).clock = x := by
  split
  · exact ha
  · exact hb

variable (s : State)

theorem clock_wr {f : Fld} {v i j : Nat} (h : f.addr i j ≠ 0x180100) : (s.wr f v i j).clock = s.clock := by
  have hrd : (s.wr f v i j).rd F.TIM_CMP_CFG_fired 0 = s.rd F.TIM_CMP_CFG_fired 0 := rd_wr_ne _ fun h' => h h'.symm
  rw [clock, clock, hrd]
  rfl

theorem clock_put {f : Fld} {v : Bool} {i j : Nat} (h : f.addr i j ≠ 0x180100) : (s.put f v i j).clock = s.clock := s.clock_wr h

theorem clock_wrS {f : Fld} {v : Int} {i j : Nat} (h : f.addr i j ≠ 0x180100) : (s.wrS f v i j).clock = s.clock := s.clock_wr h

theorem clock_bump {f : Fld} {i j n : Nat} (h : f.addr i j ≠ 0x180100) : (s.bump f i j n).clock = s.clock := s.clock_wr h

theorem clock_raise {src : Nat} (code inst : Nat) (d : DWord) (hsrc : src < 128) : (s.raise src code inst d).clock = s.clock := by
  rw [clock, clock, raise_tim, raise_combway, raise_rd _ _ _ _ hsrc (by decide)]

/-- A register of a segment is none of compare unit 0. -/
theorem segment_ne_cmp {f : Fld} (h : f.OfSegment) {g : Nat} (hg : g < 8) : f.addr g 0 ≠ 0x180100 := by
  have := h.addr_lt hg
  omega

@[simp] theorem clock_setSeg (g : Nat) (v : Seg8) : (s.setSeg g v).clock = s.clock := rfl
@[simp] theorem clock_setDomain (b : Bool) (d : Domain) : (s.setDomain b d).clock = s.clock := by cases b <;> rfl
@[simp] theorem clock_setEng (n : Nat) (e : Engine) : (s.setEng n e).clock = s.clock := rfl
@[simp] theorem clock_setChain (c : Nat) (v : Chain) : (s.setChain c v).clock = s.clock := rfl
@[simp] theorem clock_setTngCh (c : Nat) (v : TngCh) : (s.setTngCh c v).clock = s.clock := rfl
@[simp] theorem clock_drawn : s.drawn.clock = s.clock := rfl
@[simp] theorem clock_post (m : Nat) (d : List Word) : (s.post m d).clock = s.clock := rfl
@[simp] theorem clock_queueMsg (g : Nat) (id : Option Nat) (m : CmbMsg) : (s.queueMsg g id m).clock = s.clock := by cases id <;> rfl

/-! ## Segments at a common instant -/

theorem clock_setLearn {g : Nat} (hg : g < 8) (b : Bool) {k : Nat} (hk : k < 64) (v : Learn) : (s.setLearn g b k v).clock = s.clock := by
  have hne (f : Fld) (hs1 : f.s1 = 0x2000) (hs2 : f.s2 = 8) (hoff : f.off < 0x140600) : f.addr g k ≠ 0x180100 := by
    simp only [Fld.addr, hs1, hs2]
    omega
  unfold setLearn
  cases b with
  | false => exact (clock_put _ (hne F.CMB_ARR_A_learned rfl rfl (by decide))).trans (clock_wrS _ (hne F.CMB_ARR_A_offset rfl rfl (by decide)))
  | true => exact (clock_put _ (hne F.CMB_ARR_B_learned rfl rfl (by decide))).trans (clock_wrS _ (hne F.CMB_ARR_B_offset rfl rfl (by decide)))

theorem slotChans_lt {p : Nat × Bool} (h : p ∈ slotChans) : p.1 < 64 := by
  simp only [slotChans, List.mem_flatMap, List.mem_range, List.mem_cons, List.not_mem_nil, or_false] at h
  obtain ⟨k, hk, rfl | rfl⟩ := h
  · exact hk
  · exact hk

theorem clock_learnCycle {g : Nat} (hg : g < 8) (all : Bool) : (s.learnCycle g all).clock = s.clock := by
  unfold learnCycle
  dsimp only
  refine (foldl_keeps clock (fun t p hp => ?_) _).trans rfl
  split
  · rfl
  · exact t.clock_setLearn hg _ (slotChans_lt hp) _

theorem clock_cycleEnd {g : Nat} (hg : g < 8) : (s.cycleEnd g).clock = s.clock := by
  unfold cycleEnd
  dsimp only
  exact clock_ite (s.clock_learnCycle hg _) (clock_ite (s.clock_learnCycle hg _) rfl)

theorem clock_cycleStart (g : Nat) : (s.cycleStart g).clock = s.clock := by
  unfold cycleStart
  dsimp only
  split
  · exact clock_queueMsg ..
  · split
    · exact clock_queueMsg ..
    · rfl

theorem clock_enterCmb {g : Nat} (hg : g < 8) (k : Nat) : (s.enterCmb g k).clock = s.clock :=
  clock_wr _ (segment_ne_cmp (by decide) hg)

theorem clock_setGuard {g : Nat} (hg : g < 8) (b : Bool) (v : Guard) (c : Bool) : (s.setGuard g b v c).clock = s.clock := by
  cases b with
  | false => exact clock_put _ (segment_ne_cmp (f := F.CMB_GRD_STAT_closed_a) (by decide) hg)
  | true => exact clock_put _ (segment_ne_cmp (f := F.CMB_GRD_STAT_closed_b) (by decide) hg)

theorem clock_setGuards {g : Nat} (hg : g < 8) (c : Bool) : (s.setGuards g c).clock = s.clock := by
  unfold setGuards
  exact (clock_setGuard _ hg ..).trans (clock_setGuard _ hg ..)

theorem clock_setMaster {g : Nat} (hg : g < 8) (node : Nat) : (s.setMaster g node).clock = s.clock := by
  have hshow : (s.showMaster g node).clock = s.clock := by
    unfold showMaster
    exact (clock_put _ (segment_ne_cmp (by decide) hg)).trans (clock_wr _ (segment_ne_cmp (by decide) hg))
  obtain h | ⟨u, hu, h⟩ := s.setMaster_eq g node
  · rw [h, hshow]
  · rw [h, syncHoldover, clock_put _ (by decide), hu, clock_put _ (by decide), hshow]

theorem clock_segOff {g : Nat} (hg : g < 8) : (s.segOff g).clock = s.clock := by
  unfold segOff
  dsimp only
  rw [clock_wr _ (segment_ne_cmp (by decide) hg), clock_setSeg, clock_setMaster _ hg, clock_setGuards _ hg, clock_enterCmb _ hg]

theorem clock_moveRho (rho : Int) : (s.moveRho rho).clock = s.clock := by
  unfold moveRho
  dsimp only
  rw [clock_wrS _ (by decide), clock_setDomain, clock_setDomain]

theorem clock_segInstant {g : Nat} (hg : g < 8) : (s.segInstant g).clock = s.clock := by
  unfold segInstant
  split
  · rfl
  · split
    · exact s.clock_segOff hg
    · dsimp only
      rw [clock_cycleStart]
      split
      · rw [clock_moveRho, clock_setSeg, clock_cycleEnd _ hg]
      · exact s.clock_cycleEnd hg

/-! ## Time and KINDLE -/

theorem clock_kindleInstant : s.kindleInstant.clock = s.clock := by
  unfold kindleInstant
  split
  · rfl
  · refine foldl_keeps clock (fun t a _ => ?_) s
    rfl

theorem clock_steer : s.steer.clock = s.clock := by
  have htrack (t : State) (b : Bool) (d : Domain) : (if t.domainValid b then t.setDomain b d else t).clock = t.clock :=
    clock_ite (clock_setDomain ..) rfl
  unfold steer
  dsimp only
  refine clock_ite ?_ (clock_ite ?_ ?_)
  · rw [htrack, htrack]
  · rw [clock_raise _ _ _ _ (by decide), clock_put _ (by decide), clock_moveRho, htrack, htrack]
  · rw [clock_put _ (by decide), clock_moveRho, htrack, htrack]

theorem clock_moveTick : s.moveTick.clock = s.clock := by
  unfold moveTick
  split
  · rfl
  · unfold armTick
    dsimp only
    rw [wr64, clock_wr _ (by decide), clock_wr _ (by decide), clock_wr _ (by decide), clock_wr _ (by decide)]

/-! ## Engines -/

theorem clock_writeSetPoint (n idx v : Nat) : (s.writeSetPoint n idx v).clock = s.clock := by
  refine foldl_keeps clock (fun t g _ => foldl_keeps clock (fun u p _ => ?_) t) s
  split
  · rfl
  · rfl

theorem clock_endProgram (n : Nat) : (s.endProgram n).clock = s.clock := by
  have hne (f : Fld) (hs1 : f.s1 = 0x1000) (hlo : 0x80000 ≤ f.off) (hoff : f.off < 0x80100) : f.addr n 0 ≠ 0x180100 := by
    simp only [Fld.addr, hs1]
    omega
  unfold endProgram
  dsimp only
  refine clock_ite rfl (clock_ite ?_ ?_)
  · rw [clock_wr _ (hne F.TMP_STAT_running rfl (by decide) (by decide)), clock_wr _ (hne F.TMP_RUNTIME_longest rfl (by decide) (by decide)),
      clock_setEng, foldl_keeps clock fun t p _ => t.clock_writeSetPoint n _ _]
  · rw [clock_wr _ (hne F.TMP_STAT_stopped rfl (by decide) (by decide)), clock_wr _ (hne F.TMP_STAT_running rfl (by decide) (by decide)),
      clock_wr _ (hne F.TMP_RUNTIME_longest rfl (by decide) (by decide)), clock_setEng,
      foldl_keeps clock fun t p _ => t.clock_writeSetPoint n _ _]

theorem clock_window (n j v : Nat) : (s.wr F.TMP_AX_STAT_window v n j).clock = s.clock :=
  clock_wr _ (by simp only [Fld.addr, F.TMP_AX_STAT_window]; omega)

theorem clock_initEngine (n : Nat) : (s.initEngine n).clock = s.clock := by
  unfold initEngine
  dsimp only
  refine (foldl_keeps clock (fun t c _ => ?_) _).trans (clock_setEng ..)
  split
  · rfl
  · rw [foldl_keeps clock fun u j _ => u.clock_window n j 0, clock_setEng]

theorem clock_rebase (n j : Nat) : (s.rebase n j).clock = s.clock := by
  unfold rebase
  dsimp only
  exact clock_ite rfl (clock_ite rfl (clock_setEng ..))

theorem clock_heldEvent (c cause st : Nat) : (s.heldEvent c cause st).clock = s.clock :=
  (clock_raise _ _ _ _ (by decide)).trans rfl

theorem clock_holdChain (c cause : Nat) : (s.holdChain c cause none).clock = s.clock := by
  unfold holdChain
  dsimp only
  split
  · exact (clock_heldEvent _ c cause 4).trans rfl
  · unfold heldAgain
    split
    · rfl
    · rfl
  · rfl

theorem clock_exhaustCheck {n : Nat} (hn : n < 64) (c t : Nat) : (s.exhaustCheck n c t).clock = s.clock := by
  unfold exhaustCheck
  dsimp only
  split
  · split
    · rfl
    · rw [clock_holdChain, tmpEvent, clock_raise _ _ _ _ (by omega), foldl_keeps clock fun u j _ => u.clock_window n j 3, clock_setEng]
  · rfl

theorem clock_switchWindow {n : Nat} (hn : n < 64) (c t : Nat) : (s.switchWindow n c t).clock = s.clock := by
  unfold switchWindow
  dsimp only
  refine clock_ite rfl ?_
  split
  · refine clock_ite ?_ (s.clock_exhaustCheck hn c t)
    rw [foldl_keeps clock fun u j _ => u.clock_window n j _, clock_setEng]
  · exact s.clock_exhaustCheck hn c t

theorem clock_engineInstant {n : Nat} (hn : n < 64) (t : Nat) : (s.engineInstant n t).clock = s.clock := by
  unfold engineInstant
  dsimp only
  refine clock_ite (s.clock_endProgram n) ?_
  rw [foldl_keeps clock fun u j _ => u.clock_rebase n j, foldl_keeps clock fun u c _ => u.clock_switchWindow hn c t, clock_setEng]
  exact clock_ite ((clock_initEngine _ n).trans (s.clock_endProgram n)) (s.clock_endProgram n)

/-! ## Feedback and the pair -/

theorem clock_tngStill (c : Nat) : (s.tngStill c).clock = s.clock := by
  unfold tngStill
  dsimp only
  split
  · split
    · rfl
    · rfl
  · rfl

theorem clock_tngDeposit (c : Nat) : (s.tngDeposit c).clock = s.clock := by
  unfold tngDeposit
  dsimp only
  rw [clock_setTngCh]
  have hsram (t : State) (a : Option Nat) (n : Nat) (r : List Byte) : (match a with
      | some a => t.setSram n (writeBytes (t.sramOf n) a r)
      | none => t).clock = t.clock := by
    cases a with
    | none => rfl
    | some a => rfl
  refine clock_ite ?_ ?_
  · exact (hsram ..).trans (s.clock_tngStill c)
  · exact (hsram ..).trans (s.clock_tngStill c)

theorem clock_tngInstant : s.tngInstant.clock = s.clock := by
  refine foldl_keeps clock (fun t c _ => ?_) s
  dsimp only
  refine clock_ite rfl (clock_ite ?_ ?_)
  · exact (clock_post ..).trans (t.clock_tngStill c)
  · exact (clock_tngDeposit _ c).trans ((clock_post ..).trans (t.clock_tngStill c))

theorem clock_pairInstant : s.pairInstant.clock = s.clock := by
  have hsync (t : State) : t.syncPair.clock = t.clock := by
    unfold syncPair
    dsimp only
    refine clock_ite rfl ?_
    rw [clock_put _ (by decide), clock_wr _ (by decide)]
  have hage := s.clock_bump (f := F.BLW_MIRROR_age) (i := 0) (j := 0) (n := 1) (by decide)
  unfold pairInstant
  dsimp only
  rw [hsync]
  exact clock_ite hage hage

end State

end Sys2Proof.Machine

/-! Proofs about schedules, the enable of a segment and its cycle (R35, R36, R305, R314, R317). -/

namespace Sys2Proof.Machine

/-! ## Schedules (R305) -/

/-- The outcome of the descriptor that starts writes no register above those of the rings. -/
theorem State.Starts.complete_rd {s u : State} {r : Fin 64} {opcode : Nat} {d : Desc} (h : s.Starts r opcode d)
    (hdesc : u.hif.desc = (s.startDesc d).hif.desc) (status notes : Nat) (res : List Byte) (ind : Bool) {f : Fld} {i j : Nat}
    (hf : 0x12000 ≤ f.off) : (u.complete d.id status notes res ind).rd f i j = u.rd f i j := by
  have hfind := State.startDesc_find h.2.1
  rw [← hdesc] at hfind
  obtain ⟨waiting, hcompl⟩ := u.complete_of_find d.id status notes res ind hfind
  rw [hcompl, State.rd, State.syncRing_word_of_lt _ h.ring_lt (.inr (by simp only [Fld.addr]; omega))]
  rfl

theorem State.seg_installSched (s : State) (g : Nat) (b : List Byte) (k : Nat) :
    (s.installSched g b).seg k = (s.setSeg g { s.seg g with sched := some b }).seg k := by
  unfold installSched
  simp only [seg_wr]

theorem State.installSched_takesEvent {s : State} {src : Nat} (h : s.takesEvent src) (hsrc : src < 128) (g : Nat) (b : List Byte) :
    (s.installSched g b).takesEvent src := by
  have hset {t : State} (ht : t.takesEvent src) (x : Seg8) : (t.setSeg g x).takesEvent src := ht
  have hwr {t : State} {f : Fld} {v : Nat} (ht : t.takesEvent src) (hf : f.OfSegment) : (t.wr f v g).takesEvent src :=
    takesEvent_wr_high ht hsrc (hf.le_addr g)
  unfold installSched
  iterate 11 refine hwr ?_ (by decide)
  exact hset h _

theorem State.installSched_loaded (s : State) (g : Nat) (b : List Byte) : (s.installSched g b).rd F.CMB_SEG_STAT_loaded g = 1 := by
  unfold installSched
  simp (disch := decide) only [rd_wr_sep, rd_wr_same]
  rfl

theorem State.installSched_crc (s : State) (g : Nat) (b : List Byte) :
    (s.installSched g b).rd F.CMB_SCHED_ID_crc g = crc32c b % 2 ^ 32 := by
  unfold installSched
  simp (disch := decide) only [rd_wr_sep, rd_wr_same]
  rfl

theorem State.installSched_cycle (s : State) (g : Nat) (b : List Byte) :
    (s.installSched g b).rd F.CMB_CYCLE_ns g = Sched.cycle b % 2 ^ F.CMB_CYCLE_ns.width := by
  unfold installSched
  simp (disch := decide) only [rd_wr_sep, rd_wr_same]

section SchedLoad
variable {s : State} {r : Fin 64} {io : HostIo} {d : Desc} (hstart : s.Starts r 0x0501 d) (hbody : io.bodyErr = false)
include hstart hbody

theorem execSchedLoad_installs (hstage : bitAt (d.op 33 1) 0 = false) (hmode : s.mode = 2)
    (hstop : s.on F.CMB_SEG_STAT_stopped (d.op 32 1) = true) (hok : (s.startDesc d).schedCheck (d.op 32 1) false io.body = none) :
    ∃ t, execSchedLoad r io s = .next t ∧ t.Completed d 1 ∧ (t.seg (d.op 32 1)).sched = some io.body
      ∧ t.rd F.CMB_SEG_STAT_loaded (d.op 32 1) = 1 ∧ t.rd F.CMB_SCHED_ID_crc (d.op 32 1) = crc32c io.body % 2 ^ 32
      ∧ t.rd F.CMB_CYCLE_ns (d.op 32 1) = Sched.cycle io.body % 2 ^ F.CMB_CYCLE_ns.width
      ∧ ∀ k, k ≠ d.op 32 1 → t.seg k = s.seg k := by
  have hstop' : (s.startDesc d).on F.CMB_SEG_STAT_stopped (d.op 32 1) = true :=
    (congrArg (· != 0) (State.startDesc_rd_high hstart.ring_lt (by decide))).trans hstop
  have hmode' : (s.startDesc d).mode = 2 := (State.startDesc_mode ..).trans hmode
  obtain ⟨u, hu⟩ : ∃ u, u = (s.startDesc d).installSched (d.op 32 1) io.body := ⟨_, rfl⟩
  have hdesc : u.hif.desc = (s.startDesc d).hif.desc := hu ▸ rfl
  have hexec : execSchedLoad r io s = .next (u.complete d.id 1 0 (result [(16, 4, crc32c io.body)])) := by
    unfold execSchedLoad
    rw [hstart.runDesc, State.withBody, hbody, if_neg Bool.false_ne_true]
    dsimp only
    rw [hstage, if_neg Bool.false_ne_true, hmode', hstop', if_neg (by decide), hok, hu]
    rfl
  refine ⟨_, hexec, hstart.completed hdesc, ?_, ?_, ?_, ?_, fun k hk => ?_⟩
  · rw [State.seg_complete, hu, State.seg_installSched, State.seg_setSeg_same]
  · rw [hstart.complete_rd hdesc _ _ _ _ (by decide), hu, State.installSched_loaded]
  · rw [hstart.complete_rd hdesc _ _ _ _ (by decide), hu, State.installSched_crc]
  · rw [hstart.complete_rd hdesc _ _ _ _ (by decide), hu, State.installSched_cycle]
  · rw [State.seg_complete, hu, State.seg_installSched, State.seg_setSeg_ne _ _ hk, State.seg_startDesc]

theorem execSchedLoad_stages (hstage : bitAt (d.op 33 1) 0 = true) (hmode : s.mode = 2 ∨ s.mode = 3)
    (hloaded : (s.seg (d.op 32 1)).sched ≠ none) (hok : (s.startDesc d).schedCheck (d.op 32 1) true io.body = none) :
    ∃ t, execSchedLoad r io s = .next t ∧ t.Completed d 1 ∧ t.rd F.CMB_SEG_STAT_staged (d.op 32 1) = 1
      ∧ t.seg (d.op 32 1) = { s.seg (d.op 32 1) with stagedSched := some io.body, strobed := false } := by
  have hmode' : ((s.startDesc d).mode == 2 || (s.startDesc d).mode == 3) = true := by
    rw [State.startDesc_mode]
    simpa using hmode
  have hloaded' : ((s.startDesc d).seg (d.op 32 1)).sched.isSome = true := Option.isSome_iff_ne_none.2 hloaded
  obtain ⟨x, hx⟩ : ∃ x : Seg8, x = { s.seg (d.op 32 1) with stagedSched := some io.body, strobed := false } := ⟨_, rfl⟩
  obtain ⟨u, hu⟩ : ∃ u, u = ((s.startDesc d).setSeg (d.op 32 1) x).wr F.CMB_SEG_STAT_staged 1 (d.op 32 1) := ⟨_, rfl⟩
  have hdesc : u.hif.desc = (s.startDesc d).hif.desc := hu ▸ rfl
  have hexec : execSchedLoad r io s = .next (u.complete d.id 1 0 (result [(16, 4, crc32c io.body)])) := by
    unfold execSchedLoad
    rw [hstart.runDesc, State.withBody, hbody, if_neg Bool.false_ne_true]
    dsimp only
    rw [hstage, if_pos rfl, hmode', hloaded', if_neg (by decide), hok, hu, hx]
    rfl
  refine ⟨_, hexec, hstart.completed hdesc, ?_, ?_⟩
  · rw [hstart.complete_rd hdesc _ _ _ _ (by decide), hu, State.rd_wr_same _ (by decide)]
    rfl
  · rw [State.seg_complete, hu, State.seg_wr, State.seg_setSeg_same, hx]

theorem execSchedLoad_rejects {k i : Nat} (hstage : bitAt (d.op 33 1) 0 = false) (hmode : s.mode = 2)
    (hstop : s.on F.CMB_SEG_STAT_stopped (d.op 32 1) = true)
    (hbad : (s.startDesc d).schedCheck (d.op 32 1) false io.body = some (k, i)) :
    ∃ t, execSchedLoad r io s = .next t ∧ t.Completed d 0x17 ∧ t.combway = s.combway
      ∧ ∃ c ∈ t.hif.compl, c.id = d.id ∧ c.result = errResult 0xFFFF k i := by
  have hstop' : (s.startDesc d).on F.CMB_SEG_STAT_stopped (d.op 32 1) = true :=
    (congrArg (· != 0) (State.startDesc_rd_high hstart.ring_lt (by decide))).trans hstop
  have hmode' : (s.startDesc d).mode = 2 := (State.startDesc_mode ..).trans hmode
  have hexec : execSchedLoad r io s = .next ((s.startDesc d).fail d.id 0x17 0xFFFF k i) := by
    unfold execSchedLoad
    rw [hstart.runDesc, State.withBody, hbody, if_neg Bool.false_ne_true]
    dsimp only
    rw [hstage, if_neg Bool.false_ne_true, hmode', hstop', if_neg (by decide), hbad]
  obtain ⟨c, hc, hid, -, -, -, -, hresult⟩ := State.complete_waits (State.startDesc_find hstart.2.1) rfl rfl hstart.2.2 0x17 0 (errResult 0xFFFF k i) false
  refine ⟨_, hexec, hstart.completed rfl, State.complete_combway .., c, hc, hid, hresult.trans ?_⟩
  rfl

theorem execSchedLoad_refuses (hstage : bitAt (d.op 33 1) 0 = false) (hmode : s.mode ≠ 2) :
    ∃ t, execSchedLoad r io s = .next t ∧ t.Completed d 0x15 ∧ t.combway = s.combway := by
  have hmode' : ((s.startDesc d).mode == 2) = false := by
    rw [State.startDesc_mode]
    simpa using hmode
  have hexec : execSchedLoad r io s = .next ((s.startDesc d).fail d.id 0x15) := by
    unfold execSchedLoad
    rw [hstart.runDesc, State.withBody, hbody, if_neg Bool.false_ne_true]
    dsimp only
    rw [hstage, if_neg Bool.false_ne_true, hmode', Bool.false_and, if_pos (by decide)]
  exact ⟨_, hexec, hstart.completed rfl, State.complete_combway ..⟩
end SchedLoad

/-! ## A segment goes OFF (R318) -/

section SegOff
variable (s : State) {g : Nat} (hg : g < 8)
include hg

theorem State.segOff_rd {f : Fld} (h : f.OfSegment) (hstate : f.Sep F.CMB_SYNC_STAT_state) (ha : f.Sep F.CMB_GRD_STAT_closed_a)
    (hb : f.Sep F.CMB_GRD_STAT_closed_b) (hm : f.Sep F.CMB_SYNC_STAT_master) (hs : f.Sep F.CMB_SYNC_STAT_master_self)
    (hstop : f.Sep F.CMB_SEG_STAT_stopped) : (s.segOff g).rd f g = s.rd f g := by
  rw [segOff, rd_wr_sep _ hstop, setSeg_rd, setMaster_rd _ hg _ h hm hs, setGuards_rd _ _ _ ha hb, enterCmb_rd _ _ _ hstate]

theorem State.segOff_state : (s.segOff g).cmbState g = 0 := by
  rw [cmbState, segOff, rd_wr_sep _ (by decide), setSeg_rd, setMaster_rd _ hg _ (by decide) (by decide) (by decide),
    setGuards_rd _ _ _ (by decide) (by decide)]
  exact enterCmb_state _ g (by decide)

theorem State.segOff_closed (b : Bool) : (s.segOff g).guardClosed g b = true := by
  rw [segOff, wr_guardClosed _ (by decide) (by decide), setSeg_guardClosed,
    guardClosed_congr (setMaster_rd _ hg _ (by decide) (by decide) (by decide)) (setMaster_rd _ hg _ (by decide) (by decide) (by decide)),
    setGuards_closed, Bool.true_or]
end SegOff

section Segment
variable {s : State} {g : Fin 8}

theorem execStagedScheduleApply_applies {b : List Byte} (hstaged : (s.seg g).stagedSched = some b) (hstrobe : (s.seg g).strobed = true)
    (hev : s.takesEvent (49 + 2 * g)) :
    ∃ t, execStagedScheduleApply g s = .next t ∧ (t.seg g).sched = some b ∧ (t.seg g).stagedSched = none
      ∧ t.rd F.CMB_SEG_STAT_staged g = 0 ∧ t.hasEvent (49 + 2 * g) 9 g := by
  obtain ⟨v, hv⟩ : ∃ v, v = s.setSeg g { s.seg g with stagedSched := none, strobed := false } := ⟨_, rfl⟩
  obtain ⟨u, hu⟩ : ∃ u, u = (v.installSched g b).wr F.CMB_SEG_STAT_staged 0 g := ⟨_, rfl⟩
  obtain ⟨w, hw⟩ : ∃ w, w = detail [(4, crc32c b)] := ⟨_, rfl⟩
  have hexec : execStagedScheduleApply g s = .next (u.dataEvent g 9 w) := by
    unfold execStagedScheduleApply
    dsimp only
    rw [hstaged]
    dsimp only
    rw [hstrobe, if_neg (by decide), hu, hv, hw]
  have hseg : u.seg g = { s.seg g with stagedSched := none, strobed := false, sched := some b } := by
    rw [hu, State.seg_wr, State.seg_installSched, State.seg_setSeg_same, hv, State.seg_setSeg_same]
  have hvev : v.takesEvent (49 + 2 * g) := hv ▸ hev
  have huev : u.takesEvent (49 + 2 * g) := by
    rw [hu]
    exact State.takesEvent_wr_high (State.installSched_takesEvent hvev (by omega) g b) (by omega) (Fld.OfSegment.le_addr (by decide) g)
  refine ⟨_, hexec, ?_, ?_, ?_, State.dataEvent_hasEvent _ _ huev⟩
  · rw [State.dataEvent_seg, hseg]
  · rw [State.dataEvent_seg, hseg]
  · rw [State.dataEvent_rd _ g.isLt _ _ (Fld.OfSegment.notMem_eventWords (by decide) g.isLt), hu, State.rd_wr_same _ (by decide)]
    rfl

theorem execStagedScheduleApply_idle (h : (s.seg g).stagedSched = none ∨ (s.seg g).strobed = false) :
    execStagedScheduleApply g s = .next s := by
  unfold execStagedScheduleApply
  dsimp only
  split
  · next b hb =>
    rw [hb] at h
    exact if_pos (by simpa using h)
  · rfl

/-! ## Enable and disable (R314, R317, R318) -/

theorem execSegmentEnable_starts {m : Master} (hpriv : s.privileged m = true) (hstop : s.on F.CMB_SEG_STAT_stopped g = true)
    (hmay : s.mayEnable g = true) :
    ∃ t, execSegmentEnable m g s = .next t ∧ t.rd F.CMB_SEG_CTL_enable g = 1 ∧ t.rd F.CMB_SEG_STAT_stopped g = 0
      ∧ t.cmbState g = 1 ∧ t.rd F.CMB_SEG_STAT_epoch g = (s.rd F.CMB_SEG_STAT_epoch g + 1) % 2 ^ F.CMB_SEG_STAT_epoch.width
      ∧ (t.seg g).sched = (s.seg g).sched ∧ t.guardClosed g false = true ∧ t.guardClosed g true = true
      ∧ t.rd F.CMB_SYNC_STAT_master g = 0 := by
  have hexec : execSegmentEnable m g s = .next (s.startSegment g) := by
    unfold execSegmentEnable
    rw [if_neg (by simp [hpriv]), if_neg (by simp [hstop]), if_neg (by simp [hmay])]
  obtain ⟨fresh, hfresh, hsched⟩ : ∃ fresh, s.startSegment g = ((((s.setSeg g fresh).wr F.CMB_SEG_CTL_enable 1 g).wr F.CMB_SEG_STAT_stopped 0 g).wr
      F.CMB_SEG_STAT_epoch (s.rd F.CMB_SEG_STAT_epoch g + 1) g |>.forget g none).enterListen g ∧ fresh.sched = (s.seg g).sched := by
    unfold State.startSegment
    dsimp only
    rw [State.rd_wr_sep _ (by decide), State.rd_wr_sep _ (by decide), State.setSeg_rd]
    exact ⟨_, rfl, rfl⟩
  obtain ⟨v, hv⟩ : ∃ v, v = ((s.setSeg g fresh).wr F.CMB_SEG_CTL_enable 1 g).wr F.CMB_SEG_STAT_stopped 0 g := ⟨_, rfl⟩
  obtain ⟨u, hu⟩ : ∃ u, u = v.wr F.CMB_SEG_STAT_epoch (s.rd F.CMB_SEG_STAT_epoch g + 1) g := ⟨_, rfl⟩
  rw [← hv, ← hu] at hfresh
  have hkept {f : Fld} (h : f.OfSegment) (hoff : f.off < 0x140500) (hstate : f.Sep F.CMB_SYNC_STAT_state)
      (ha : f.Sep F.CMB_GRD_STAT_closed_a) (hb : f.Sep F.CMB_GRD_STAT_closed_b) (hm : f.Sep F.CMB_SYNC_STAT_master)
      (hs : f.Sep F.CMB_SYNC_STAT_master_self) : (s.startSegment g).rd f g = u.rd f g := by
    rw [hfresh, State.enterListen_rd _ g.isLt h hstate ha hb hm hs, State.forget_rd _ _ h hoff]
  refine ⟨_, hexec, ?_, ?_, ?_, ?_, ?_, ?_, ?_, ?_⟩
  · rw [hkept (by decide) (by decide) (by decide) (by decide) (by decide) (by decide) (by decide), hu, State.rd_wr_sep _ (by decide), hv,
      State.rd_wr_sep _ (by decide), State.rd_wr_same _ (by decide)]
    rfl
  · rw [hkept (by decide) (by decide) (by decide) (by decide) (by decide) (by decide) (by decide), hu, State.rd_wr_sep _ (by decide), hv,
      State.rd_wr_same _ (by decide)]
    rfl
  · rw [hfresh]
    exact State.enterListen_state _ g.isLt
  · rw [hkept (by decide) (by decide) (by decide) (by decide) (by decide) (by decide) (by decide), hu, State.rd_wr_same _ (by decide)]
  · rw [hfresh, State.enterListen_sched, State.forget_seg, hu, State.seg_wr, hv, State.seg_wr, State.seg_wr, State.seg_setSeg_same]
    exact hsched
  · rw [hfresh]
    exact State.enterListen_closed _ g.isLt _
  · rw [hfresh]
    exact State.enterListen_closed _ g.isLt _
  · rw [hfresh]
    exact State.enterListen_master _ g.isLt

theorem execSegmentEnable_ignored {m : Master} (hpriv : s.privileged m = true) (hstop : s.on F.CMB_SEG_STAT_stopped g = true)
    (hmay : s.mayEnable g = false) : execSegmentEnable m g s = .next (s.wrIgnored .seg g (F.CMB_SEG_CTL_enable.addr g 0)) := by
  unfold execSegmentEnable
  rw [if_neg (by simp [hpriv]), if_neg (by simp [hstop]), if_pos (by simp [hmay])]

theorem execSegment_dropped {m : Master} (hpriv : s.privileged m = false) :
    execSegmentEnable m g s = .next (s.pvDropped m false true (F.CMB_SEG_CTL_enable.addr g 0))
      ∧ execSegmentDisable m g s = .next (s.pvDropped m false true (F.CMB_SEG_CTL_enable.addr g 0)) :=
  ⟨if_pos (by simp [hpriv]), if_pos (by simp [hpriv])⟩

theorem execSegmentDisable_waits {m : Master} (hpriv : s.privileged m = true) (hon : s.on F.CMB_SEG_STAT_stopped g = false)
    (hrun : s.running = true) :
    ∃ t, execSegmentDisable m g s = .next t ∧ t.rd F.CMB_SEG_CTL_enable g = 0 ∧ t.seg g = { s.seg g with stopping := true }
      ∧ s.OnlyWords t [F.CMB_SEG_CTL_enable.addr g 0] := by
  obtain ⟨u, hu⟩ : ∃ u, u = s.wr F.CMB_SEG_CTL_enable 0 g := ⟨_, rfl⟩
  have hrun' : u.running = true := by
    rw [hu, State.running, State.on, State.rd_wr_ne _ (by simp only [Fld.addr, F.GLB_STAT_cycle_run, F.CMB_SEG_CTL_enable]; omega)]
    exact hrun
  have hexec : execSegmentDisable m g s = .next (u.setSeg g { u.seg g with stopping := true }) := by
    unfold execSegmentDisable
    rw [if_neg (by simp [hpriv]), if_neg (by simp [hon])]
    dsimp only
    rw [← hu, if_pos hrun']
  refine ⟨_, hexec, ?_, ?_, ?_⟩
  · rw [State.setSeg_rd, hu, State.rd_wr_same _ (by decide)]
    rfl
  · rw [State.seg_setSeg_same, hu]
    rfl
  · rw [hu]
    exact (State.OnlyWords.refl s _).wr (f := F.CMB_SEG_CTL_enable) List.mem_cons_self

theorem execSegmentDisable_stops {m : Master} (hpriv : s.privileged m = true) (hon : s.on F.CMB_SEG_STAT_stopped g = false)
    (hrun : s.running = false) :
    ∃ t, execSegmentDisable m g s = .next t ∧ t.rd F.CMB_SEG_CTL_enable g = 0 ∧ t.rd F.CMB_SEG_STAT_stopped g = 1
      ∧ t.cmbState g = 0 ∧ t.guardClosed g false = true ∧ t.guardClosed g true = true := by
  obtain ⟨u, hu⟩ : ∃ u, u = s.wr F.CMB_SEG_CTL_enable 0 g := ⟨_, rfl⟩
  have hrun' : u.running = false := by
    rw [hu, State.running, State.on, State.rd_wr_ne _ (by simp only [Fld.addr, F.GLB_STAT_cycle_run, F.CMB_SEG_CTL_enable]; omega)]
    exact hrun
  have hexec : execSegmentDisable m g s = .next (u.segOff g) := by
    unfold execSegmentDisable
    rw [if_neg (by simp [hpriv]), if_neg (by simp [hon])]
    dsimp only
    rw [← hu, if_neg (by simp [hrun'])]
  refine ⟨_, hexec, ?_, ?_, ?_, u.segOff_closed g.isLt _, u.segOff_closed g.isLt _⟩
  · rw [u.segOff_rd g.isLt (by decide) (by decide) (by decide) (by decide) (by decide) (by decide) (by decide), hu, State.rd_wr_same _ (by decide)]
    rfl
  · rw [State.segOff, State.rd_wr_same _ (by decide)]
    rfl
  · exact u.segOff_state g.isLt

/-! ## The cycle (R35, R36, R314) -/

theorem execCommonInstant_idle (h : s.running = false) : execCommonInstant s = .next s := by
  unfold execCommonInstant
  exact if_pos (by simp [h])

/-- The cycle counted at the instant `t`, with the set length `n` and the number `c`. -/
def State.nextCycle (s : State) (t n c : Nat) : State :=
  { s with
    tim := { s.tim with sigma := 0, lastInstant := t, cycle := c, cycleNs := n }
    combway := { s.combway with fbc := 0 } }

theorem execCommonInstant_counts (h : s.running = true) :
    ∃ t, execCommonInstant s = .next t ∧ t.tim.cycle = (s.tim.cycle + 1) % 2 ^ 32 ∧ t.tim.lastInstant = s.tim.instant
      ∧ t.tim.instant = uns 64 (s.tim.instant + s.cycleSet : Nat) ∧ t.combway.fbc = 0 ∧ t.rd F.TIM_CMP_CFG_fired 0 = 1 := by
  obtain ⟨k, cell, -, hadv⟩ := s.advanceCell_eq s.tim.instant
  obtain ⟨a, ha⟩ : ∃ a, a = s.advanceCell s.tim.instant := ⟨_, rfl⟩
  obtain ⟨x, hx⟩ : ∃ x : Nat, x = uns 64 (s.tim.instant + s.cycleSet : Nat) := ⟨_, rfl⟩
  obtain ⟨c, hc⟩ : ∃ c, c = (s.tim.cycle + 1) % 2 ^ 32 := ⟨_, rfl⟩
  have hset : a.cycleSet = s.cycleSet := by rw [ha, hadv]; rfl
  have htim : a.tim.cycle = s.tim.cycle := by rw [ha, hadv]
  obtain ⟨b, hb⟩ : ∃ b, b = State.nextCycle a s.tim.instant s.cycleSet c := ⟨_, rfl⟩
  obtain ⟨d, hd⟩ : ∃ d, d = (b.setInstant x).wr F.TIM_CMP_CFG_fired 1 0 := ⟨_, rfl⟩
  obtain ⟨v, hv⟩ : ∃ v, v = (List.range 8).foldl (fun t g => (t.segInstant g).wr F.CMB_CYC_CNT_count c g) d.moveTick := ⟨_, rfl⟩
  obtain ⟨w, hw⟩ : ∃ w, w = (List.range 64).foldl (fun t e => t.engineInstant e s.tim.instant) v.kindleInstant.steer := ⟨_, rfl⟩
  have hexec : execCommonInstant s = .next w.tngInstant.pairInstant := by
    unfold execCommonInstant
    rw [if_neg (by simp [h])]
    dsimp only
    rw [← ha, hset, htim, ← hx, ← hc, hw, hv, hd, hb]
    rfl
  have hclock : w.tngInstant.pairInstant.clock = d.clock := by
    rw [State.clock_pairInstant, State.clock_tngInstant, hw,
      foldl_keeps State.clock fun t e he => t.clock_engineInstant (List.mem_range.1 he) _, State.clock_steer, State.clock_kindleInstant, hv,
      foldl_keeps State.clock fun t g hg => ?_, State.clock_moveTick]
    have hlt := List.mem_range.1 hg
    rw [State.clock_wr _ (State.segment_ne_cmp (by decide) hlt), t.clock_segInstant hlt]
  have hfired : d.rd F.TIM_CMP_CFG_fired 0 = 1 := by
    rw [hd, State.rd_wr_same _ (by decide)]
    rfl
  have hdclock : d.clock = (c, s.tim.instant, x, 0, 1) := by
    rw [State.clock, hfired, hd, hb]
    rfl
  rw [hdclock] at hclock
  simp only [State.clock, Prod.mk.injEq] at hclock
  obtain ⟨hcycle, hlast, hinstant, hfbc, hfired'⟩ := hclock
  exact ⟨_, hexec, hcycle.trans hc, hlast, hinstant.trans hx, hfbc, hfired'⟩

theorem execFeedbackComplete_notes (hrun : s.running = true) (hon : s.on F.CMB_SEG_STAT_stopped g = false) :
    ∃ t, execFeedbackComplete g s = .next t ∧ t.combway = { s.combway with fbc := putBit s.combway.fbc g true } ∧ t.regs = s.regs := by
  obtain ⟨u, hexec, hu⟩ : ∃ u : State, execFeedbackComplete g s = .next { u with combway := { u.combway with fbc := putBit u.combway.fbc g true } }
      ∧ ∃ n, u = s.advanceCell n := by
    unfold execFeedbackComplete
    exact ⟨_, if_neg (by simp [hrun, hon]), _, rfl⟩
  obtain ⟨n, rfl⟩ := hu
  obtain ⟨k, cell, -, heq⟩ := s.advanceCell_eq n
  refine ⟨_, hexec, ?_, ?_⟩
  · rw [heq]
  · rw [heq]

/-- A segment whose error window starts anew (R314). -/
def Seg8.newWindow (x : Seg8) : Seg8 :=
  { x with lossA := {}, lossB := {}, mism := {}, lateW := {}, lostW := {}, errA := [], errB := [], errToldA := false, errToldB := false }

/-- The error window of segment `g` starts anew. -/
def State.newWindow (s : State) (g : Nat) : State := s.setSeg g (s.seg g).newWindow

theorem execErrorWindowRollover_clears (s : State) : ∃ t, execErrorWindowRollover s = .next t ∧ t.regs = s.regs ∧ t.hif = s.hif
      ∧ ∀ g, g < 8 → t.seg g = { s.seg g with lossA := {}, lossB := {}, mism := {}, lateW := {}, lostW := {}, errA := [], errB := [], errToldA := false, errToldB := false } := by
  obtain ⟨n, hn⟩ : ∃ n, n = uns 64 (s.cellNs + 1000000000 - s.nowNs : Nat) := ⟨_, rfl⟩
  obtain ⟨k, cell, -, hadv⟩ := s.advanceCell_eq n
  obtain ⟨u, hu⟩ : ∃ u, u = s.advanceCell n := ⟨_, rfl⟩
  have hexec : execErrorWindowRollover s = .next ((List.range 8).foldl State.newWindow u) := by
    unfold execErrorWindowRollover
    rw [← hn, ← hu]
    rfl
  refine ⟨_, hexec, ?_, ?_, fun g hg => ?_⟩
  · rw [foldl_keeps (f := State.newWindow) State.regs fun t g _ => rfl, hu, hadv]
  · rw [foldl_keeps (f := State.newWindow) State.hif fun t g _ => rfl, hu, hadv]
  · rw [foldl_range_once (f := State.newWindow) (State.seg · g) Seg8.newWindow hg (fun t => t.seg_setSeg_same g _)
      (fun t i _ hi => t.seg_setSeg_ne _ hi.symm), hu, hadv]
    rfl
end Segment

/-- Settles O32: each clause by the command's own branch; a common instant by what its work leaves of the cycle (`State.clock`). -/
theorem scheduleCommands : Obligations.ScheduleCommands := by
  unfold Obligations.ScheduleCommands
  exact ⟨fun _ _ _ _ hs hb hst _ hm hstop hok => execSchedLoad_installs hs hb hst hm hstop hok,
    fun _ _ _ _ hs hb hst _ hm hl hok => execSchedLoad_stages hs hb hst hm hl hok,
    fun _ _ _ _ _ _ hs hb hst hm hstop _ hbad => execSchedLoad_rejects hs hb hst hm hstop hbad,
    fun _ _ _ _ hs hb hst hm => execSchedLoad_refuses hs hb hst hm,
    fun _ _ _ h hs hev => execStagedScheduleApply_applies h hs hev, fun _ _ h => execStagedScheduleApply_idle h,
    fun _ _ _ hp hs hm => execSegmentEnable_starts hp hs hm, fun _ _ _ hp hs hm => execSegmentEnable_ignored hp hs hm,
    fun _ _ _ hp => execSegment_dropped hp, fun _ _ _ hp hon hr => execSegmentDisable_waits hp hon hr,
    fun _ _ _ hp hon hr => execSegmentDisable_stops hp hon hr, fun _ h => execCommonInstant_idle h, fun _ h => execCommonInstant_counts h,
    fun _ _ hr hon => execFeedbackComplete_notes hr hon, fun s => execErrorWindowRollover_clears s⟩

end Sys2Proof.Machine

/-! Proofs about the safety tick of Quench (R360, R363, R364, R366, R368, R395). -/

namespace Sys2Proof.Machine

/-- A repetition over the numbers below `n` of which only step `k` moves `P`, and moves it by `g`, while `I` holds. -/
theorem foldl_range_moves {σ β : Type} {f : σ → Nat → σ} (I : σ → Prop) (P : σ → β) (g : β → β) {n k : Nat} (hk : k < n)
    (hI : ∀ t i, I t → I (f t i)) (hset : ∀ t, I t → P (f t k) = g (P t)) (hkeep : ∀ t i, i ≠ k → P (f t i) = P t) {s : σ} (hs : I s) :
    P ((List.range n).foldl f s) = g (P s) := by
  obtain ⟨d, rfl⟩ : ∃ d, n = k + 1 + d := ⟨n - (k + 1), by omega⟩
  have hpre : I ((List.range k).foldl f s) := foldl_holds (P := I) (fun t a _ h => hI t a h) hs
  rw [List.range_add, List.range_succ, List.foldl_append, List.foldl_append, foldl_keeps P fun t a ha => ?_]
  · rw [List.foldl_cons, List.foldl_nil, hset _ hpre, foldl_keeps P fun t a ha => hkeep t a (by have := List.mem_range.1 ha; omega)]
  · obtain ⟨i, hi, rfl⟩ := List.mem_map.1 ha
    exact hkeep t _ (by omega)

/-! ## What the tests and the connections of a tick leave -/

/-- From `s` to `t` no time passes, the last tick stays, and no register below those of the brakes changes. -/
structure State.KeepsTick (s t : State) : Prop where
  tick : t.tick = s.tick
  last : t.quench.tickAt = s.quench.tickAt
  low : ∀ off, off < 0x1A0440 → t.word off = s.word off

namespace State

theorem KeepsTick.refl (s : State) : s.KeepsTick s := ⟨rfl, rfl, fun _ _ => rfl⟩

theorem KeepsTick.trans {s t u : State} (h : s.KeepsTick t) (h' : t.KeepsTick u) : s.KeepsTick u :=
  ⟨h'.tick.trans h.tick, h'.last.trans h.last, fun off hoff => (h'.low off hoff).trans (h.low off hoff)⟩

theorem KeepsTick.rd {s t : State} (h : s.KeepsTick t) {f : Fld} {i j : Nat} (hf : f.addr i j < 0x1A0440) : t.rd f i j = s.rd f i j := by
  rw [State.rd, State.rd, h.low _ hf]

variable (s : State)

theorem setBrake_keepsTick (b st : Nat) : s.KeepsTick (s.setBrake b st) := by
  unfold setBrake
  split
  · exact .refl s
  · exact ⟨rfl, rfl, fun off hoff => word_wr_ne _ _ (by simp only [Fld.addr, F.QNC_BRK_STAT_state]; omega)⟩

theorem releaseBrake_keepsTick (t : QTest) : s.KeepsTick (s.releaseBrake t) := by
  have hdone {u : State} (h : s.KeepsTick u) (q : QTest) :
      s.KeepsTick { u with quench := { u.quench with torque := none, test := some q } } := ⟨h.tick, h.last, h.low⟩
  unfold releaseBrake
  dsimp only
  split
  · exact hdone ((s.setBrake_keepsTick _ 1).trans (setBrake_keepsTick _ _ 2)) _
  · exact hdone (s.setBrake_keepsTick _ 1) _

theorem rampBack_keepsTick (t : QTest) : s.KeepsTick (s.rampBack t) := by
  unfold rampBack
  split
  · exact s.releaseBrake_keepsTick t
  · exact ⟨rfl, rfl, fun _ _ => rfl⟩

theorem endRampBack_keepsTick (t : QTest) : s.KeepsTick (s.endRampBack t) := by
  unfold endRampBack
  split
  · exact ⟨rfl, rfl, fun _ _ => rfl⟩
  · exact s.releaseBrake_keepsTick t

theorem tickTest_keepsTick : s.KeepsTick s.tickTest := by
  have hset (q : Option QTest) : s.KeepsTick (s.setTest q) := ⟨rfl, rfl, fun _ _ => rfl⟩
  have hlast (q : QTest) (c : Nat) (far : Prop) [Decidable far] : s.KeepsTick (if (s.setTest (some q)).rd F.QNC_CHAIN_STAT_stop c ≠ 0 then
      (s.setTest (some q)).endTest q 4 else if far then (s.setTest (some q)).endTest q 1 else s.setTest (some q)) := by
    split
    · exact (hset _).trans (rampBack_keepsTick _ _)
    · split
      · exact (hset _).trans (rampBack_keepsTick _ _)
      · exact hset _
  unfold tickTest
  dsimp only
  split
  · exact .refl s
  · split
    · exact .refl s
    · split
      · split
        · exact s.endRampBack_keepsTick _
        · exact .refl s
      · exact hlast _ _ _

theorem sendPdu_keepsTick (e p : List Byte) : s.KeepsTick (s.sendPdu e p) := by
  refine foldl_holds (P := s.KeepsTick) (fun t q _ ht => ?_) (.refl s)
  split
  · exact ⟨ht.tick, ht.last, ht.low⟩
  · exact ht

theorem evalOut_keepsTick (h : s.behaviour = 4) (n : Nat) : s.KeepsTick (s.evalOut n) := by
  unfold evalOut
  dsimp only
  split
  · exact .refl s
  · exact s.sendPdu_keepsTick _ _

theorem publish_keepsTick : s.KeepsTick s.publish := by
  unfold publish
  dsimp only
  split
  · exact ⟨rfl, rfl, fun _ _ => rfl⟩
  · exact ⟨rfl, rfl, fun _ _ => rfl⟩

/-! ## The tick in SAFE (R363) -/

/-- In SAFE a tick puts everything in its safe state, and leaves it so. -/
theorem safeTick_keepsTick (h : s.behaviour = 4) : s.safeState.KeepsTick s.safeTick := by
  have hsafe : s.safeState.behaviour = 4 := (safeState_stat (by decide) (by decide)).trans h
  have htest := s.safeState.tickTest_keepsTick
  unfold safeTick
  dsimp only
  refine KeepsTick.trans ?_ (publish_keepsTick _)
  refine foldl_holds (P := s.safeState.KeepsTick) (fun t n _ ht => ?_) htest
  exact ht.trans (t.evalOut_keepsTick ((ht.rd (f := F.QNC_STAT_behaviour) (by decide)).trans hsafe) n)

variable {s}

/-- A run of Quench in SAFE with no new set and no typed value. -/
theorem runTick_safe {p : QuenchPins} (hheld : s.quench.held = false) (hstop : s.quench.safStopped = false) (hb : s.behaviour = 4)
    (hset : s.quench.nextSet = none) (htyped : s.quench.typed = none) (hmode : s.mode ≠ 5) :
    s.runTick p = (({ s with quench := { s.quench with tickAt := s.tick } }).wr F.QNC_TICK_count (s.rd F.QNC_TICK_count + 1)).safeTick := by
  obtain ⟨u, hu⟩ : ∃ u, u = { s with quench := { s.quench with tickAt := s.tick } } := ⟨_, rfl⟩
  have hub : u.behaviour = 4 := by rw [hu]; exact hb
  obtain ⟨v, hv⟩ : ∃ v, v = u.wr F.QNC_TICK_count (u.rd F.QNC_TICK_count + 1) := ⟨_, rfl⟩
  have hvb : v.behaviour = 4 := by
    rw [hv, behaviour, rd_wr_ne _ (by decide)]
    exact hub
  have hvmode : v.safeTick.mode ≠ 5 := by
    rw [mode, (v.safeTick_keepsTick hvb).rd (by decide), rd, safeState_word (by decide), hv, word_wr_ne _ _ (by decide), hu]
    exact hmode
  have htake : u.takeSet = u := by
    unfold takeSet
    rw [show u.quench.nextSet = none from hu ▸ hset]
  have hcompare : u.compareTyped = u := by
    unfold compareTyped
    rw [show u.quench.typed = none from hu ▸ htyped]
  have hcount : u.countTick = v := by
    rw [countTick, hub, hv]
    exact if_neg (by decide)
  have heval : v.evaluate s p = v.safeTick := by
    rw [evaluate, hvb]
    exact if_pos (by decide)
  have hsame : u.setBehaviour u.dueBehaviour = u := by
    rw [dueBehaviour_safe _ hub, ← hub]
    exact u.setBehaviour_same
  have hrd : s.rd F.QNC_TICK_count = u.rd F.QNC_TICK_count := hu ▸ rfl
  unfold runTick
  dsimp only
  rw [if_neg (by simp [hheld, hstop]), ← hu, hub, show (p.clockOff && (4 : Nat) != 4) = false from Bool.and_false _, if_neg (by decide), htake,
    hcompare, hsame, hcount, heval, sentinelStop, if_pos (by simpa using hvmode), hrd, ← hv]

end State

/-! ## The ticks (R360) -/

section Ticks
variable {s : State} {p : QuenchPins}

theorem execSafetyTick_timer (h : s.on F.GLB_STAT_cycle_run = false) : execSafetyTick p s = .next (s.timerTick p) :=
  if_pos (by rw [h]; rfl)

/-- The match of compare unit 1: the flag is set and the unit armed again. -/
def State.tickMatch (s : State) : State :=
  ((s.advanceCell (s.rd64 F.TIM_CMP_T_LO_t F.TIM_CMP_T_HI_t 1)).wr F.TIM_CMP_CFG_fired 1 1).armTick

theorem State.tickMatch_word {off : Nat} (h : off < 0x180100 ∨ 0x180200 ≤ off) : s.tickMatch.word off = s.word off := by
  obtain ⟨k, cell, -, hadv⟩ := s.advanceCell_eq (s.rd64 F.TIM_CMP_T_LO_t F.TIM_CMP_T_HI_t 1)
  have hne (f : Fld) (hf : 0x180100 ≤ f.addr 1 0 ∧ f.addr 1 0 < 0x180200) : off ≠ f.addr 1 0 := by omega
  rw [tickMatch, armTick, wr64, word_wr_ne _ _ (hne _ (by decide)), word_wr_ne _ _ (hne _ (by decide)), word_wr_ne _ _ (hne _ (by decide)),
    word_wr_ne _ _ (hne _ (by decide)), word_wr_ne _ _ (hne _ (by decide)), hadv]
  rfl

theorem State.tickMatch_rd {f : Fld} {i j : Nat} (h : f.addr i j < 0x180100 ∨ 0x180200 ≤ f.addr i j) :
    s.tickMatch.rd f i j = s.rd f i j := by rw [State.rd, State.rd, State.tickMatch_word h]

theorem State.tickMatch_blocks : s.tickMatch.quench = s.quench ∧ s.tickMatch.hif = s.hif := by
  obtain ⟨k, cell, -, hadv⟩ := s.advanceCell_eq (s.rd64 F.TIM_CMP_T_LO_t F.TIM_CMP_T_HI_t 1)
  rw [tickMatch, armTick, hadv]
  exact ⟨rfl, rfl⟩

theorem execSafetyTick_held (hrun : s.on F.GLB_STAT_cycle_run = true) (hheld : s.quench.held = true) :
    ∃ t, execSafetyTick p s = .next t ∧ t.rd F.TIM_CMP_CFG_fired 1 = 1 ∧ t.rd F.TIM_CMP_CFG_arm 1 = 1
      ∧ t.rd F.TIM_CMP_PER_period 1 = 250000 ∧ t.quench = s.quench ∧ t.hif = s.hif := by
  obtain ⟨hquench, hhif⟩ := s.tickMatch_blocks
  have hexec : execSafetyTick p s = .next s.tickMatch := by
    unfold execSafetyTick
    rw [if_neg (by simp [hrun])]
    dsimp only
    rw [if_pos]
    · rfl
    · rw [show (State.armTick _).quench = s.quench from hquench, hheld]
      rfl
  refine ⟨_, hexec, ?_, ?_, ?_, hquench, hhif⟩
  · rw [State.tickMatch, State.armTick]
    simp (disch := decide) only [State.wr64, State.rd_wr_sep, State.rd_wr_same]
    rfl
  · rw [State.tickMatch, State.armTick, State.rd_wr_same _ (by decide)]
    rfl
  · rw [State.tickMatch, State.armTick, State.rd_wr_sep _ (by decide), State.rd_wr_same _ (by decide)]
    rfl

/-- The ticks come from the cell cycle again. -/
theorem State.tickSource_facts (own : Bool) : (s.tickSource own).quench = s.quench ∧ (s.tickSource own).rd F.QNC_STAT_free_tick = b2n own
    ∧ (∀ f : Fld, f.Sep F.QNC_STAT_free_tick → f.addr 0 0 ∉ eventWords → (s.tickSource own).rd f = s.rd f) := by
  unfold tickSource
  split
  · rename_i h
    refine ⟨rfl, ?_, fun _ _ _ => rfl⟩
    rw [← s.b2n_on (by decide), eq_of_beq h]
  · obtain ⟨v, hv⟩ : ∃ v, v = s.put F.QNC_STAT_free_tick own := ⟨_, rfl⟩
    obtain ⟨d, hd⟩ : ∃ d, d = detail [(0, b2n own)] := ⟨_, rfl⟩
    rw [← hv, ← hd]
    refine ⟨?_, ?_, fun f hf hev => ?_⟩
    · rw [raise_quench, hv]
      rfl
    · rw [raise_rd _ _ _ _ (by decide) (by decide), hv, put_eq, rd_wr_same _ (by decide)]
      cases own with
      | false => rfl
      | true => rfl
    · rw [raise_rd _ _ _ _ (by decide) hev, hv, put_eq, rd_wr_sep _ hf]

theorem execSafetyTick_safe (hrun : s.on F.GLB_STAT_cycle_run = true) (hheld : s.quench.held = false) (hstop : s.quench.safStopped = false)
    (hb : s.behaviour = 4) (hset : s.quench.nextSet = none) (htyped : s.quench.typed = none) (hmode : s.mode ≠ 5) :
    ∃ t, execSafetyTick p s = .next t ∧ t.rd F.QNC_TICK_count = (s.rd F.QNC_TICK_count + 1) % 2 ^ 32 ∧ t.behaviour = 4
      ∧ t.quench.tickAt = t.tick ∧ t.rd F.QNC_STAT_free_tick = 0 ∧ t.rd F.QNC_OUT_STAT_on = 0
      ∧ ∀ c, c < 16 → t.rd F.QNC_CHAIN_STAT_stop c = 3 := by
  obtain ⟨a, ha⟩ : ∃ a, a = s.tickMatch := ⟨_, rfl⟩
  have haq : a.quench = s.quench := ha ▸ s.tickMatch_blocks.1
  have hard {f : Fld} (h : f.addr 0 0 < 0x180100 ∨ 0x180200 ≤ f.addr 0 0) : a.rd f = s.rd f := ha ▸ State.tickMatch_rd h
  obtain ⟨hcq, hfree, hsrc⟩ := State.tickSource_facts (s := a) false
  obtain ⟨c, hc⟩ : ∃ c, c = a.tickSource false := ⟨_, rfl⟩
  rw [← hc] at hcq hfree hsrc
  have hcb : c.behaviour = 4 := (hsrc _ (by decide) (by decide)).trans ((hard (by decide)).trans hb)
  have hcmode : c.mode ≠ 5 := by
    rw [State.mode, hsrc _ (by decide) (by decide), hard (by decide)]
    exact hmode
  have hquench : c.quench = s.quench := hcq.trans haq
  have hexec : execSafetyTick p s = .next (c.runTick p) := by
    unfold execSafetyTick
    rw [if_neg (by simp [hrun])]
    dsimp only
    rw [show State.armTick _ = a from ha.symm, haq, hheld, hstop, if_neg (by decide), ← hc]
  rw [State.runTick_safe (by rw [hquench]; exact hheld) (by rw [hquench]; exact hstop) hcb (by rw [hquench]; exact hset)
    (by rw [hquench]; exact htyped) hcmode] at hexec
  obtain ⟨v, hv⟩ : ∃ v, v = ({ c with quench := { c.quench with tickAt := c.tick } }).wr F.QNC_TICK_count (c.rd F.QNC_TICK_count + 1) := ⟨_, rfl⟩
  rw [← hv] at hexec
  have hvb : v.behaviour = 4 := by
    rw [hv, State.behaviour, State.rd_wr_ne _ (by decide)]
    exact hcb
  have hkeep := v.safeTick_keepsTick hvb
  obtain ⟨hout, -, -, hchains⟩ := State.safeState_shows (s := v)
  refine ⟨_, hexec, ?_, ?_, ?_, ?_, ?_, fun k hk => ?_⟩
  · rw [hkeep.rd (by decide), State.rd, State.safeState_word (by decide), ← State.rd, hv, State.rd_wr_same _ (by decide),
      hsrc _ (by decide) (by decide), hard (by decide)]
    rfl
  · exact (hkeep.rd (f := F.QNC_STAT_behaviour) (by decide)).trans ((State.safeState_stat (by decide) (by decide)).trans hvb)
  · rw [hkeep.last, hkeep.tick, State.safeState_quench, State.safeState_tick, hv]
    rfl
  · rw [hkeep.rd (by decide), State.safeState_stat (by decide) (by decide), hv, State.rd_wr_ne _ (by decide)]
    exact hfree
  · rw [hkeep.rd (by decide), hout]
  · rw [hkeep.rd (by simp only [Fld.addr, F.QNC_CHAIN_STAT_stop]; omega), (hchains k hk).1]

theorem State.timerTick_held (h : s.quench.held = true) :
    ∃ t, s.timerTick p = t ∧ t.quench = s.quench ∧ t.regs = s.regs
      ∧ s.quench.tickAt + us (if s.on F.QNC_STAT_free_tick then 250 else 300) ≤ t.tick := by
  obtain ⟨n, hn⟩ : ∃ n, n = s.quench.tickAt + us (if s.on F.QNC_STAT_free_tick then 250 else 300) := ⟨_, rfl⟩
  have htick : s.timerTick p = s.advanceTo n := by
    unfold timerTick
    dsimp only
    rw [← hn, if_pos]
    rw [show (s.advanceTo n).quench = s.quench from rfl, h]
    rfl
  rw [← hn]
  exact ⟨_, htick, rfl, rfl, s.le_advanceTo_tick n⟩

theorem execSafetyTickTimeout_timer (h : s.on F.GLB_STAT_cycle_run = false) : execSafetyTickTimeout p s = .next (s.timerTick p) := by
  unfold execSafetyTickTimeout
  dsimp only
  rw [h, Bool.false_and, if_neg (by decide)]
end Ticks

/-! ## Pairs (R366) -/

section Pairs
variable {s : State} {p : Nat} (hp : p < 16)

theorem State.qPair_setQPair_same (v : QPair) : (s.setQPair p v).qPair p = v := lookup_store_same ..

include hp in
theorem State.evalPair_turnsOn (hused : byteAt (s.qInp p) 0 ≠ 0) (hdisc : 0 < field (s.qInp p) 6 2) (hact : s.active p = (true, true))
    (hflt : s.pairFault p = false) (hseen : (s.qPair p).seen = true) : (s.evalPair p).pairOn p = true ∧ ((s.evalPair p).qPair p).count = 0 := by
  obtain ⟨x, hx⟩ : ∃ x : QPair, x = { seen := false, gone := false, count := 0, since := if !s.pairOn p then s.tick else (s.qPair p).since } := ⟨_, rfl⟩
  obtain ⟨u, hu⟩ : ∃ u, u = ((s.setQPair p x).wrBit F.QNC_IN_VAL_value p true).wrBit F.QNC_IN_VAL_partial p false := ⟨_, rfl⟩
  have huq : u.quench = (s.setQPair p x).quench := by rw [hu]; rfl
  have hpair : u.qPair p = x := by
    rw [qPair, huq]
    exact State.qPair_setQPair_same x
  have hinp : u.qInp p = s.qInp p := by
    refine qInp_congr ?_ (by rw [huq]; rfl) p
    rw [hu, mode, wrBit_eq, rd_wr_ne _ (by decide), wrBit_eq, rd_wr_ne _ (by decide)]
    rfl
  have hcount : x.count = 0 := by rw [hx]
  have heval : s.evalPair p = u := by
    have hquiet : u.discrepancy p = u := by
      unfold discrepancy
      dsimp only
      rw [hpair, hinp, hcount]
      exact if_pos (.inr (.inl hdisc))
    unfold evalPair
    rw [if_neg hused, hact]
    dsimp only
    rw [hflt, hseen, Bool.or_true]
    simp only [Bool.and_self, Bool.not_false, Bool.not_true, Bool.true_and, Bool.false_and, beq_self_eq_true, if_true]
    rw [← hx, ← hu]
    exact hquiet
  rw [heval]
  refine ⟨?_, by rw [hpair, hcount]⟩
  rw [pairOn, hu, wrBit_eq _ F.QNC_IN_VAL_partial, rd_wr_sep _ (by decide)]
  exact (bitAt_rd_wrBit _ (by exact hp) (by decide)).trans (if_pos rfl)

include hp in
theorem State.discrepancy_off (h : s.pairOn p = false) : (s.discrepancy p).pairOn p = false := by
  unfold discrepancy
  dsimp only
  split
  · exact h
  · rw [pairOn, raise_rd _ _ _ _ (by decide) (by decide)]
    exact (latchPair_shows (.inl rfl) hp).2

include hp in
theorem State.evalPair_off (hused : byteAt (s.qInp p) 0 ≠ 0) (hact : (s.active p).1 = false) : (s.evalPair p).pairOn p = false := by
  obtain ⟨b, hb⟩ : ∃ b, s.active p = (false, b) := ⟨(s.active p).2, by rw [← hact]⟩
  unfold evalPair
  rw [if_neg hused, hb]
  dsimp only
  simp only [Bool.false_and, Bool.false_eq_true, if_false]
  exact discrepancy_off hp ((bitAt_rd_wrBit _ (by exact hp) (by decide)).trans (if_pos rfl))
end Pairs

/-! ## Stops (R395) -/

/-- The strongest stop that the causes of a chain command. -/
def State.dueStop (s : State) (c : Nat) : Nat := (s.qChain c).causes.foldl (fun m k => max m (stopOf (Sps.chain s.quench.set c) k)) 0

/-- The first cause that commands the strongest stop. -/
def State.dueCause (s : State) (c : Nat) : Nat :=
  ((s.qChain c).causes.find? fun k => stopOf (Sps.chain s.quench.set c) k == s.dueStop c).getD 0

/-- A chain whose causes command STO goes there, with the cause shown and source 93 raised. -/
theorem State.applyStop_sto {s : State} {c : Nat} (hc : c < 16) (hdue : s.dueStop c = 3) (hold : s.rd F.QNC_CHAIN_STAT_stop c < 3)
    (hev : s.takesEvent 93) :
    (s.applyStop c).rd F.QNC_CHAIN_STAT_stop c = 3 ∧ (s.applyStop c).rd F.QNC_CHAIN_STAT_state c = 3
      ∧ (s.applyStop c).rd F.QNC_CHAIN_STAT_cause c = s.dueCause c % 2 ^ 4
      ∧ (s.applyStop c).hasEvent 93 (if s.rd F.QNC_CHAIN_STAT_stop c = 0 then 1 else 2) c
      ∧ (s.applyStop c).quench = s.quench ∧ (s.applyStop c).tick = s.tick := by
  obtain ⟨v, hv⟩ : ∃ v, v = ((s.wr F.QNC_CHAIN_STAT_stop 3 c).wr F.QNC_CHAIN_STAT_state 3 c).wr F.QNC_CHAIN_STAT_cause (s.dueCause c) c := ⟨_, rfl⟩
  obtain ⟨d, hd⟩ : ∃ d, d = detail [(0, 3), (1, s.dueCause c)] := ⟨_, rfl⟩
  have happly : s.applyStop c = v.raise 93 (if s.rd F.QNC_CHAIN_STAT_stop c = 0 then 1 else 2) c d := by
    unfold applyStop
    dsimp only
    rw [← dueStop, ← dueCause, hdue, if_neg (by decide), if_pos hold, if_pos (.inl rfl), hd, ← hv]
    rfl
  have hnot {f : Fld} (hf : f.addr c 0 = 0x1A0400 + 4 * c) : f.addr c 0 ∉ eventWords := by
    rw [hf]
    exact notMem_eventWords (.inr (.inl ⟨by omega, by omega⟩))
  have hvev : v.takesEvent 93 := by
    have hwr {t : State} {f : Fld} {n : Nat} (h : t.takesEvent 93) (hf : f.addr c 0 = 0x1A0400 + 4 * c) : (t.wr f n c).takesEvent 93 :=
      takesEvent_wr h (by rw [hf]; simp only [Fld.addr, F.HIF_EVT_MAP_enable]; omega)
    rw [hv]
    exact hwr (hwr (hwr hev rfl) rfl) rfl
  rw [happly]
  refine ⟨?_, ?_, ?_, raise_hasEvent _ _ _ hvev, ?_, ?_⟩
  · rw [raise_rd _ _ _ _ (by decide) (hnot rfl), hv, rd_wr_sep _ (by decide), rd_wr_sep _ (by decide), rd_wr_same _ (by decide)]
    rfl
  · rw [raise_rd _ _ _ _ (by decide) (hnot rfl), hv, rd_wr_sep _ (by decide), rd_wr_same _ (by decide)]
    rfl
  · rw [raise_rd _ _ _ _ (by decide) (hnot rfl), hv, rd_wr_same _ (by decide)]
    rfl
  · rw [raise_quench, hv]
    rfl
  · rw [raise_tick, hv]
    rfl

theorem State.applyStop_single {s : State} {c k : Nat} (hc : c < 16) (hcauses : (s.qChain c).causes = [k]) (hk : k < 15)
    (hstop : stopOf (Sps.chain s.quench.set c) k = 3) (hold : s.rd F.QNC_CHAIN_STAT_stop c < 3) (hev : s.takesEvent 93) :
    (s.applyStop c).rd F.QNC_CHAIN_STAT_stop c = 3 ∧ (s.applyStop c).rd F.QNC_CHAIN_STAT_state c = 3
      ∧ (s.applyStop c).rd F.QNC_CHAIN_STAT_cause c = k
      ∧ (s.applyStop c).hasEvent 93 (if s.rd F.QNC_CHAIN_STAT_stop c = 0 then 1 else 2) c := by
  have hdue : s.dueStop c = 3 := by
    rw [dueStop, hcauses, List.foldl_cons, List.foldl_nil, hstop]
    rfl
  have hcause : s.dueCause c = k := by
    rw [dueCause, hdue, hcauses, List.find?_cons_of_pos (by rw [hstop]; rfl), Option.getD_some]
  obtain ⟨hshown, hstate, hwhy, hhas, -, -⟩ := s.applyStop_sto hc hdue hold hev
  exact ⟨hshown, hstate, hwhy.trans (by rw [hcause]; exact Nat.mod_eq_of_lt (by omega)), hhas⟩

/-! ## Inputs (R364) -/

section Inputs
variable {s : State}

theorem execSafetyInputSample_held {l : BitVec 32} (h : s.quench.held = true) : execSafetyInputSample l s = .next s :=
  if_pos (by rw [h]; rfl)

/-- What the sample `b` makes of an input that needs `n` equal samples. -/
def QInput.sampled (x : QInput) (n : Nat) (b : Bool) : QInput :=
  if b == x.level then { x with streak := 0 }
  else if x.streak + 1 < n then { x with streak := x.streak + 1 }
  else { level := !x.level, streak := 0 }

/-- A sample of input `i`. -/
def State.sampleInput (l : BitVec 32) (s : State) (i : Nat) : State :=
  if byteAt (s.qInp (i / 2)) 0 = 0 ∨ (byteAt (s.qInp (i / 2)) (2 + i % 2) < 16
      ∧ s.tick < lookup (fun _ => 0) s.quench.pulse (byteAt (s.qInp (i / 2)) (2 + i % 2))) then s
  else s.setQInput i ((s.qInput i).sampled (field (s.qInp (i / 2)) 4 2) (l.getLsbD i))

/-- A sample moves no register, and nothing of Quench but its inputs. -/
theorem State.sampleInput_eq (l : BitVec 32) (s : State) (i : Nat) :
    s.sampleInput l i = s ∨ ∃ x, s.sampleInput l i = s.setQInput i x := by
  unfold sampleInput
  split
  · exact .inl rfl
  · exact .inr ⟨_, rfl⟩

theorem execSafetyInputSample_filters {l : BitVec 32} (hheld : s.quench.held = false) (hstop : s.quench.safStopped = false) :
    ∃ t, execSafetyInputSample l s = .next t ∧ t.regs = s.regs ∧ t.quench.sampleAt = t.tick
      ∧ ∀ i, i < 32 → byteAt (s.qInp (i / 2)) 0 ≠ 0 → 16 ≤ byteAt (s.qInp (i / 2)) (2 + i % 2) →
          t.qInput i = (s.qInput i).sampled (field (s.qInp (i / 2)) 4 2) (l.getLsbD i) := by
  obtain ⟨n, hn⟩ : ∃ n, n = s.quench.sampleAt + us 10 := ⟨_, rfl⟩
  obtain ⟨u, hu⟩ : ∃ u, u = { s.advanceTo n with quench := { (s.advanceTo n).quench with sampleAt := (s.advanceTo n).tick } } := ⟨_, rfl⟩
  have hexec : execSafetyInputSample l s = .next ((List.range 32).foldl (State.sampleInput l) u) := by
    unfold execSafetyInputSample
    rw [hheld, hstop, if_neg (by decide)]
    dsimp only
    rw [← hn, ← hu]
    refine congrArg Host.Outcome.next (List.foldl_ext _ _ _ fun t i _ => ?_)
    unfold State.sampleInput QInput.sampled
    split
    · rfl
    · split
      · rfl
      · split
        · rfl
        · rfl
  have hkeeps {β : Type} (P : State → β) (hP : ∀ t i x, P (t.setQInput i x) = P t) :
      P ((List.range 32).foldl (State.sampleInput l) u) = P u := by
    refine foldl_keeps P (fun t i _ => ?_) u
    obtain h | ⟨x, h⟩ := t.sampleInput_eq l i
    · rw [h]
    · rw [h, hP]
  refine ⟨_, hexec, ?_, ?_, fun i hi hused hsrc => ?_⟩
  · rw [hkeeps State.regs fun _ _ _ => rfl, hu]
    rfl
  · rw [hkeeps (fun t => t.quench.sampleAt) fun _ _ _ => rfl, hkeeps State.tick fun _ _ _ => rfl, hu]
  · have huinp : u.qInp (i / 2) = s.qInp (i / 2) := State.qInp_congr (by rw [hu]; rfl) (by rw [hu]; rfl) _
    have huinput : u.qInput i = s.qInput i := by rw [hu]; rfl
    rw [← huinput]
    refine foldl_range_moves (fun t : State => t.qInp (i / 2) = s.qInp (i / 2)) (fun t : State => t.qInput i)
      (QInput.sampled · (field (s.qInp (i / 2)) 4 2) (l.getLsbD i)) hi (fun t k ht => ?_) (fun t ht => ?_) (fun t k hk => ?_) huinp
    · obtain h | ⟨x, h⟩ := t.sampleInput_eq l k
      · rwa [h]
      · rw [h]
        exact (State.qInp_congr rfl rfl _).trans ht
    · rw [State.sampleInput, ht, if_neg (by rintro (h | ⟨h, -⟩); exacts [hused h, absurd h (by omega)])]
      exact lookup_store_same ..
    · obtain h | ⟨x, h⟩ := t.sampleInput_eq l k
      · rw [h]
      · rw [h]
        exact lookup_store_ne _ _ hk.symm

/-- The three outcomes of a sample. -/
theorem QInput.sampled_cases (x : QInput) (n : Nat) (b : Bool) :
    (b = x.level → x.sampled n b = { x with streak := 0 })
      ∧ (b ≠ x.level → x.streak + 1 < n → x.sampled n b = { x with streak := x.streak + 1 })
      ∧ (b ≠ x.level → n ≤ x.streak + 1 → x.sampled n b = { level := !x.level, streak := 0 }) := by
  refine ⟨fun h => ?_, fun h hn => ?_, fun h hn => ?_⟩
  · exact if_pos (beq_iff_eq.2 h)
  · exact (if_neg (fun h' => h (beq_iff_eq.1 h'))).trans (if_pos hn)
  · exact (if_neg (fun h' => h (beq_iff_eq.1 h'))).trans (if_neg (Nat.not_lt.2 hn))
end Inputs

/-- Settles O39: a tick in SAFE keeps what the safe state shows (`State.safeTick_keepsTick`); a sample moves its own input alone. -/
theorem quenchTicks : Obligations.QuenchTicks := by
  unfold Obligations.QuenchTicks
  refine ⟨fun _ _ h => execSafetyTick_timer h, fun _ _ hr hh => execSafetyTick_held hr hh,
    fun _ _ hr hh hs hb hn ht hm => execSafetyTick_safe hr hh hs hb hn ht hm, fun _ _ h => State.timerTick_held h,
    fun _ _ h => execSafetyTickTimeout_timer h, fun _ _ hp hu hd ha hf hs => State.evalPair_turnsOn hp hu hd ha hf hs,
    fun _ _ hp hu ha => State.evalPair_off hp hu ha, fun _ _ _ hc hk _ h15 hs ho hev => State.applyStop_single hc hk h15 hs ho hev,
    fun _ _ h => execSafetyInputSample_held h, fun s l hh hs => ?_⟩
  obtain ⟨t, hexec, hregs, hat, hinput⟩ := execSafetyInputSample_filters (l := l) hh hs
  refine ⟨t, hexec, hregs, hat, fun i hi hu hsrc => ?_⟩
  rw [hinput i hi hu hsrc]
  exact (s.qInput i).sampled_cases _ _

end Sys2Proof.Machine

/-! Proofs about the safety parameter set, and about the limits and the stops of a chain (R378, R379, R384, R393, R394, R396, R397). -/

namespace Sys2Proof.Machine

/-! ## The parameter set (R378, R379) -/

section SpsLoad
variable {s : State} {r : Fin 64} {io : HostIo} {d : Desc} (hstart : s.Starts r 0x0401 d) (hbody : io.bodyErr = false)
include hstart hbody

/-- SPS_LOAD once its body is read. -/
theorem execSpsLoad_eq : execSpsLoad r io s = .next (
    if s.mode ≠ 2 ∨ !s.on F.QNC_STAT_sto_all then (s.startDesc d).fail d.id 0x15
    else match Sps.check io.body (s.rd F.TIM_CYCLE_ns) with
      | some (code, idx) => (s.startDesc d).fail d.id 0x12 0xFFFF code idx
      | none => { s.startDesc d with
        quench := { s.quench with nextSet := some io.body }
        upd := { s.upd with jobs := s.upd.jobs ++ [.sps d.id io.body] } }) := by
  have hring := hstart.ring_lt
  have hon : (s.startDesc d).on F.QNC_STAT_sto_all = s.on F.QNC_STAT_sto_all :=
    congrArg (· != 0) (State.startDesc_rd_high hring (by decide))
  unfold execSpsLoad
  rw [hstart.runDesc, State.withBody, hbody, if_neg Bool.false_ne_true, State.startDesc_mode, hon, State.startDesc_rd_high hring (by decide)]
  rfl

theorem execSpsLoad_takes (hmode : s.mode = 2) (hsto : s.on F.QNC_STAT_sto_all = true)
    (hok : Sps.check io.body (s.rd F.TIM_CYCLE_ns) = none) :
    ∃ t, execSpsLoad r io s = .next t ∧ t.quench = { s.quench with nextSet := some io.body }
      ∧ t.upd.jobs = s.upd.jobs ++ [.sps d.id io.body] ∧ t.hif.compl = s.hif.compl := by
  rw [execSpsLoad_eq hstart hbody, if_neg (by simp [hmode, hsto]), hok]
  exact ⟨_, rfl, rfl, rfl, rfl⟩

theorem execSpsLoad_refuses (h : s.mode ≠ 2 ∨ s.on F.QNC_STAT_sto_all = false) :
    ∃ t, execSpsLoad r io s = .next t ∧ t.Completed d 0x15 ∧ t.quench = s.quench ∧ t.upd = s.upd := by
  rw [execSpsLoad_eq hstart hbody, if_pos (by simpa using h)]
  exact ⟨_, rfl, hstart.completed rfl, State.complete_quench .., State.complete_upd ..⟩

theorem execSpsLoad_rejects {k i : Nat} (hmode : s.mode = 2) (hsto : s.on F.QNC_STAT_sto_all = true)
    (hbad : Sps.check io.body (s.rd F.TIM_CYCLE_ns) = some (k, i)) :
    ∃ t, execSpsLoad r io s = .next t ∧ t.Completed d 0x12 ∧ t.quench = s.quench
      ∧ ∃ c ∈ t.hif.compl, c.id = d.id ∧ c.result = errResult 0xFFFF k i := by
  rw [execSpsLoad_eq hstart hbody, if_neg (by simp [hmode, hsto]), hbad]
  obtain ⟨c, hc, hid, -, -, -, -, hresult⟩ :=
    State.complete_waits (State.startDesc_find hstart.2.1) rfl rfl hstart.2.2 0x12 0 (errResult 0xFFFF k i) false
  exact ⟨_, rfl, hstart.completed rfl, State.complete_quench .., c, hc, hid, hresult.trans rfl⟩
end SpsLoad

section Parameters
variable {s : State}

theorem execSpsRead_writes {r : Fin 64} {io : HostIo} {d : Desc} (hstart : s.Starts r 0x0402 d) (hwrite : io.resultErr = false) :
    ∃ t, execSpsRead r io s = .next t ∧ t.Completed d 1 ∧ t.quench = s.quench
      ∧ t.hostMem = writeBytes s.hostMem (d.op 32 8) (s.quench.set.take (d.op 40 4)) := by
  obtain ⟨l, hl⟩ : ∃ l, l = s.quench.set.take (d.op 40 4) := ⟨_, rfl⟩
  obtain ⟨m, hm⟩ : ∃ m, m = writeBytes s.hostMem (d.op 32 8) l := ⟨_, rfl⟩
  obtain ⟨u, hu⟩ : ∃ u, u = { s.startDesc d with hostMem := m } := ⟨_, rfl⟩
  have hexec : execSpsRead r io s = .next (u.complete d.id 1 0 (indResult (d.op 32 8) l.length) true) := by
    unfold execSpsRead
    rw [hstart.runDesc, show (s.startDesc d).quench.set.take (d.op 40 4) = l from hl.symm, State.hostResult, hwrite, if_neg Bool.false_ne_true,
      State.startDesc_hostMem, ← hm, ← hu]
  have hdesc : u.hif.desc = (s.startDesc d).hif.desc := by rw [hu]
  refine ⟨_, hexec, hstart.completed hdesc, ?_, ?_⟩
  · rw [State.complete_quench, hu]
    rfl
  · rw [State.complete_hostMem, hu, hm, hl]

section Confirm
variable {m : Master} {v : Word}

theorem execSpsConfirmWrite_waits (hpriv : s.privileged m = true) (hset : s.on F.QNC_STAT_set_present = true) :
    ∃ t, execSpsConfirmWrite m v s = .next t ∧ t.rd F.QNC_SPS_CONFIRM_value = v.toNat ∧ t.quench = { s.quench with typed := some v.toNat }
      ∧ s.OnlyWords t [F.QNC_SPS_CONFIRM_value.off] := by
  obtain ⟨u, hu⟩ : ∃ u, u = s.wr F.QNC_SPS_CONFIRM_value v.toNat := ⟨_, rfl⟩
  have hexec : execSpsConfirmWrite m v s = .next { u with quench := { u.quench with typed := some v.toNat } } := by
    unfold execSpsConfirmWrite
    rw [if_neg (by simp [hpriv]), if_neg (by simp [hset]), hu]
  refine ⟨_, hexec, ?_, ?_, ?_⟩
  · have hrd : u.rd F.QNC_SPS_CONFIRM_value = v.toNat := by
      rw [hu]
      exact State.rd_wr_lt _ v.isLt (by decide)
    exact hrd
  · rw [hu]
    rfl
  · have hwords : s.OnlyWords u [F.QNC_SPS_CONFIRM_value.off] := by
      rw [hu]
      exact (State.OnlyWords.refl s _).wr (f := F.QNC_SPS_CONFIRM_value) (by decide)
    exact hwords

theorem execSpsConfirmWrite_dropped (h : s.privileged m = false) :
    execSpsConfirmWrite m v s = .next (s.pvDropped m false true F.QNC_SPS_CONFIRM_value.off) := if_pos (by simp [h])

theorem execSpsConfirmWrite_ignored (hpriv : s.privileged m = true) (hset : s.on F.QNC_STAT_set_present = false) :
    execSpsConfirmWrite m v s = .next (s.wrIgnored .qnc 0 F.QNC_SPS_CONFIRM_value.off) :=
  (if_neg (by simp [hpriv])).trans (if_pos (by simp [hset]))
end Confirm

/-! ## Limits that expire (R384, R394, R397) -/

theorem execSourceMissingLimit_adds {c j : Fin 16} (hset : s.quench.set ≠ []) (hused : Sps.used (Sps.chain s.quench.set c) = true)
    (hj : j.val < Sps.axes (Sps.chain s.quench.set c)) (hnew : (s.qChain c).causes.contains 6 = false)
    (hmiss : byteAt (Sps.axis (Sps.chain s.quench.set c) j) 20 < ((s.qChain c).axis j).missA
        ∨ byteAt (Sps.axis (Sps.chain s.quench.set c) j) 20 < ((s.qChain c).axis j).missB) :
    execSourceMissingLimit c j s = .next ((s.setQChain c { s.qChain c with causes := (s.qChain c).causes ++ [6] }).applyStop c) := by
  have hset' : s.quench.set.isEmpty = false := by simpa using hset
  refine if_neg ?_
  rw [hset', hused, hnew, decide_eq_true hmiss]
  simp only [Bool.not_true, Bool.false_eq_true, or_false, false_or, not_le]
  exact hj

theorem execSourceMissingLimit_again {c j : Fin 16} (h : s.quench.set = [] ∨ (s.qChain c).causes.contains 6 = true) :
    execSourceMissingLimit c j s = .next s := by
  refine if_pos ?_
  obtain h | h := h
  · exact .inl (by rw [h]; rfl)
  · exact .inr (.inr (.inr (.inl h)))

theorem foldl_max_le {l : List Nat} {f : Nat → Nat} {b m : Nat} (h : ∀ k ∈ l, f k ≤ b) (hm : m ≤ b) :
    l.foldl (fun m k => max m (f k)) m ≤ b := by
  induction l generalizing m with
  | nil => exact hm
  | cons k l ih =>
    rw [List.forall_mem_cons] at h
    exact ih h.2 (max_le hm h.1)

theorem State.qChain_setQChain_same (s : State) (c : Nat) (v : QChain) : (s.setQChain c v).qChain c = v := lookup_store_same ..

theorem execSs1LimitTimeExpiry_stops {c : Fin 16} (hset : s.quench.set ≠ []) (hstate : s.rd F.QNC_CHAIN_STAT_state c = 1)
    (hstop : s.rd F.QNC_CHAIN_STAT_stop c = 2) (hnew : (s.qChain c).causes.contains 10 = false)
    (hle : ∀ k ∈ (s.qChain c).causes, stopOf (Sps.chain s.quench.set c) k ≤ 3) (hev : s.takesEvent 93) :
    ∃ t, execSs1LimitTimeExpiry c s = .next t ∧ t.rd F.QNC_CHAIN_STAT_stop c = 3 ∧ t.rd F.QNC_CHAIN_STAT_state c = 3
      ∧ (t.qChain c).causes = (s.qChain c).causes ++ [10] ∧ t.hasEvent 93 2 c
      ∧ (s.qChain c).t0 + ms (field (Sps.chain s.quench.set c) 48 2) < t.tick := by
  obtain ⟨n, hn⟩ : ∃ n, n = (s.qChain c).t0 + ms (field (Sps.chain s.quench.set c) 48 2) := ⟨_, rfl⟩
  obtain ⟨u, hu⟩ : ∃ u, u = (s.advanceTo (n + 1)).setQChain c { s.qChain c with causes := (s.qChain c).causes ++ [10] } := ⟨_, rfl⟩
  have hset' : s.quench.set.isEmpty = false := by simpa using hset
  have hexec : execSs1LimitTimeExpiry c s = .next (u.applyStop c) := by
    rw [hu, hn]
    exact if_neg (by rw [hset', hnew, hstate, hstop]; decide)
  have hchain : u.qChain c = { s.qChain c with causes := (s.qChain c).causes ++ [10] } := by
    rw [hu]
    exact State.qChain_setQChain_same _ c _
  have hsame : u.quench.set = s.quench.set := by rw [hu]; rfl
  have hdue : u.dueStop c = 3 := by
    rw [State.dueStop, hchain, hsame, List.foldl_append, List.foldl_cons, List.foldl_nil]
    exact max_eq_right (foldl_max_le hle (Nat.zero_le 3))
  have hold : u.rd F.QNC_CHAIN_STAT_stop c = 2 := by rw [hu]; exact hstop
  have huev : u.takesEvent 93 := by rw [hu]; exact hev
  obtain ⟨hshown, hst, -, hhas, hquench, htick⟩ := State.applyStop_sto c.isLt hdue (by omega) huev
  rw [hold, if_neg (by decide)] at hhas
  refine ⟨_, hexec, hshown, hst, ?_, hhas, ?_⟩
  · rw [State.qChain, hquench, ← State.qChain, hchain]
  · have hle := s.le_advanceTo_tick (n + 1)
    rw [htick, ← hn]
    refine Nat.lt_of_succ_le (hle.trans_eq ?_)
    rw [hu]
    rfl

/-! ## Restart (R394) -/

/-- The allowance of a chain moves neither its stop nor its causes. -/
theorem State.setAllowance_keeps (s : State) {c : Nat} (hc : c < 16) :
    (s.setAllowance c).rd F.QNC_CHAIN_STAT_stop c = s.rd F.QNC_CHAIN_STAT_stop c
      ∧ (s.setAllowance c).rd F.QNC_CHAIN_STAT_state c = s.rd F.QNC_CHAIN_STAT_state c
      ∧ ((s.setAllowance c).qChain c).causes = (s.qChain c).causes ∧ (s.setAllowance c).tick = s.tick := by
  let P (u : State) : Prop := u.rd F.QNC_CHAIN_STAT_stop c = s.rd F.QNC_CHAIN_STAT_stop c
    ∧ u.rd F.QNC_CHAIN_STAT_state c = s.rd F.QNC_CHAIN_STAT_state c ∧ (u.qChain c).causes = (s.qChain c).causes ∧ u.tick = s.tick
  have hraise {u : State} (h : P u) (code : Nat) (d : DWord) : P (u.raise 94 code c d) := by
    obtain ⟨hstop, hstate, hcauses, htick⟩ := h
    have hnot {f : Fld} (hf : f.addr c 0 = 0x1A0400 + 4 * c) : f.addr c 0 ∉ eventWords := by
      rw [hf]
      exact notMem_eventWords (.inr (.inl ⟨by omega, by omega⟩))
    refine ⟨?_, ?_, ?_, (u.raise_tick ..).trans htick⟩
    · rw [raise_rd _ _ _ _ (by decide) (hnot rfl), hstop]
    · rw [raise_rd _ _ _ _ (by decide) (hnot rfl), hstate]
    · rw [qChain, raise_quench, ← qChain, hcauses]
  have hcore (a al : Nat) (sls deg res : Bool) : P (((((s.setQChain c { s.qChain c with allow := a }).wr F.QNC_CHAIN_STAT_allow al c).put
      F.QNC_CHAIN_STAT_sls sls c).put F.QNC_CHAIN_STAT_degraded deg c).put F.QNC_CHAIN_STAT_restart res c) := by
    refine ⟨?_, ?_, ?_, rfl⟩
    · simp (disch := decide) only [put_eq, rd_wr_sep]
      rfl
    · simp (disch := decide) only [put_eq, rd_wr_sep]
      rfl
    · change ((s.setQChain c _).qChain c).causes = _
      rw [qChain_setQChain_same]
  obtain ⟨a, ha⟩ : ∃ a, a = if s.rd F.QNC_CHAIN_STAT_stop c ≠ 0 ∨ s.brakesReleasing c then 0 else (s.qChain c).free := ⟨_, rfl⟩
  obtain ⟨v, hv⟩ : ∃ v, v = (s.setQChain c { s.qChain c with allow := a }).wr F.QNC_CHAIN_STAT_allow (min 65535 (a / 4096)) c := ⟨_, rfl⟩
  obtain ⟨u, hu⟩ : ∃ u, u = ((v.put F.QNC_CHAIN_STAT_sls (v.slsActive c) c).put F.QNC_CHAIN_STAT_degraded (v.isDegraded c) c).put
      F.QNC_CHAIN_STAT_restart (bitAt (byteAt (Sps.chain s.quench.set c) 6) 0
        && ((s.qChain c).causes.contains 2 || (s.qChain c).causes.contains 3)) c := ⟨_, rfl⟩
  have hshown : P u := by
    rw [hu, hv]
    exact hcore ..
  obtain ⟨d, hd⟩ : ∃ d, d = detail [(4, a)] := ⟨_, rfl⟩
  have hset : s.setAllowance c = if a < field (Sps.chain s.quench.set c) 16 4 ∧ field (Sps.chain s.quench.set c) 16 4 ≤ (s.qChain c).allow then
      u.raise 94 1 c d else if field (Sps.chain s.quench.set c) 16 4 ≤ a ∧ (s.qChain c).allow < field (Sps.chain s.quench.set c) 16 4 then
      u.raise 94 2 c d else u := by
    rw [hd, hu, hv, ha]
    rfl
  rw [hset]
  split
  · exact hraise hshown 1 d
  · split
    · exact hraise hshown 2 d
    · exact hshown

/-- A chain that no cause stops any more goes on. -/
theorem State.applyStop_goes {s : State} {c : Nat} (hc : c < 16) (hcauses : (s.qChain c).causes = []) (hhold : (s.qChain c).stoHold = false)
    (hstop : s.rd F.QNC_CHAIN_STAT_stop c ≠ 0) :
    (s.applyStop c).rd F.QNC_CHAIN_STAT_stop c = 0 ∧ (s.applyStop c).rd F.QNC_CHAIN_STAT_state c = s.rd F.QNC_CHAIN_STAT_state c
      ∧ ((s.applyStop c).qChain c).causes = [] ∧ (s.applyStop c).tick = s.tick := by
  obtain ⟨v, hv⟩ : ∃ v, v = s.setQChain c { s.qChain c with still := 0, stoTicks := 0, sos := [] } := ⟨_, rfl⟩
  obtain ⟨w, hw⟩ : ∃ w, w = ((v.wr F.QNC_CHAIN_STAT_stop 0 c).wr F.QNC_CHAIN_STAT_state (s.rd F.QNC_CHAIN_STAT_state c) c).wr F.QNC_CHAIN_STAT_cause 0 c := ⟨_, rfl⟩
  obtain ⟨d, happly⟩ : ∃ d, s.applyStop c = w.raise 93 3 c d := by
    have h : s.applyStop c = w.stopEvent c 3 (s.rd F.QNC_CHAIN_STAT_stop c) 0 := by
      have hnone : s.dueStop c = 0 := by
        rw [dueStop, hcauses]
        rfl
      unfold applyStop
      dsimp only
      rw [← dueStop, hnone, if_pos rfl, if_neg (by rw [hhold]; decide), if_neg hstop, hw, hv]
    exact ⟨_, h⟩
  have hnot {f : Fld} (hf : f.addr c 0 = 0x1A0400 + 4 * c) : f.addr c 0 ∉ eventWords := by
    rw [hf]
    exact notMem_eventWords (.inr (.inl ⟨by omega, by omega⟩))
  rw [happly]
  refine ⟨?_, ?_, ?_, ?_⟩
  · rw [raise_rd _ _ _ _ (by decide) (hnot rfl), hw, rd_wr_sep _ (by decide), rd_wr_sep _ (by decide), rd_wr_same _ (by decide)]
    rfl
  · rw [raise_rd _ _ _ _ (by decide) (hnot rfl), hw, rd_wr_sep _ (by decide), rd_wr_same _ (by decide)]
    exact s.rd_mod _ _ _
  · rw [qChain, raise_quench, hw, hv]
    exact (congrArg QChain.causes (qChain_setQChain_same s c _)).trans hcauses
  · rw [raise_tick, hw, hv]
    rfl

theorem execRestartDelayExpiry_restarts {c : Fin 16} {k : Nat} (hset : s.quench.set ≠ []) (hclear : (s.qChain c).clear = some k)
    (hauto : bitAt (byteAt (Sps.chain s.quench.set c) 6) 0 = true) (hcauses : (s.qChain c).causes = [2])
    (hslow : (s.qChain c).v ≤ (s.qChain c).limit) (hhold : (s.qChain c).stoHold = false) (hstop : s.rd F.QNC_CHAIN_STAT_stop c ≠ 0) :
    ∃ t, execRestartDelayExpiry c s = .next t ∧ t.rd F.QNC_CHAIN_STAT_stop c = 0
      ∧ t.rd F.QNC_CHAIN_STAT_state c = s.rd F.QNC_CHAIN_STAT_state c
      ∧ (t.qChain c).causes = [] ∧ k + ms (field (Sps.chain s.quench.set c) 50 2) ≤ t.tick := by
  obtain ⟨n, hn⟩ : ∃ n, n = k + ms (field (Sps.chain s.quench.set c) 50 2) := ⟨_, rfl⟩
  obtain ⟨u, hu⟩ : ∃ u, u = (s.advanceTo n).setQChain c { s.qChain c with causes := [] } := ⟨_, rfl⟩
  have hset' : s.quench.set.isEmpty = false := by simpa using hset
  have hends : (s.advanceTo n).condition c false 2 = false := decide_eq_false (Nat.not_lt.2 hslow)
  have hexec : execRestartDelayExpiry c s = .next ((u.applyStop c).setAllowance c) := by
    unfold execRestartDelayExpiry
    dsimp only
    rw [hclear]
    dsimp only
    rw [if_neg (by rw [hset', hauto, hcauses]; decide), ← hn, hcauses, List.filter_cons_of_neg (by rw [hends]; decide), List.filter_nil, hu,
      ← hclear]
  have hchain : u.qChain c = { s.qChain c with causes := [] } := by
    rw [hu]
    exact State.qChain_setQChain_same _ c _
  have hold : u.rd F.QNC_CHAIN_STAT_stop c ≠ 0 := by rw [hu]; exact hstop
  obtain ⟨hgo, hstate, hcauses', htick⟩ := State.applyStop_goes (s := u) c.isLt (by rw [hchain]) (by rw [hchain]; exact hhold) hold
  obtain ⟨hgo', hstate', hcauses'', htick'⟩ := (u.applyStop c).setAllowance_keeps c.isLt
  refine ⟨_, hexec, hgo'.trans hgo, ?_, hcauses''.trans hcauses', ?_⟩
  · rw [hstate', hstate, hu]
    rfl
  · rw [htick', htick, ← hn, hu]
    exact s.le_advanceTo_tick n

theorem execRestartDelayExpiry_none {c : Fin 16} (h : (s.qChain c).clear = none) : execRestartDelayExpiry c s = .next s := by
  unfold execRestartDelayExpiry
  dsimp only
  rw [h]

/-! ## The drives after STO (R396) -/

theorem execStoFeedbackTimeout_reports {c : Fin 16} {j : Nat} (hstate : s.rd F.QNC_CHAIN_STAT_state c = 3) (hticks : 8 ≤ (s.qChain c).stoTicks)
    (hhold : (s.qChain c).stoHold = false) (hj : j < Sps.axes (Sps.chain s.quench.set c))
    (hlive : s.driveLive (Sps.axis (Sps.chain s.quench.set c) j) = true) (hev : s.takesEvent 93) :
    ∃ t, execStoFeedbackTimeout c s = .next t ∧ (t.qChain c).stoHold = true ∧ t.hasEvent 93 4 c := by
  obtain ⟨u, hu⟩ : ∃ u, u = s.setQChain c { s.qChain c with stoHold := true } := ⟨_, rfl⟩
  obtain ⟨d, hexec⟩ : ∃ d, execStoFeedbackTimeout c s = .next (u.raise 93 4 c d) := by
    have hany : ((List.range (Sps.axes (Sps.chain s.quench.set c))).any fun j => s.driveLive (Sps.axis (Sps.chain s.quench.set c) j)) = true :=
      List.any_eq_true.2 ⟨j, List.mem_range.2 hj, hlive⟩
    have hcheck : s.stoCheck c = u.stopEvent c 4 (s.rd F.QNC_CHAIN_STAT_stop c) (s.rd F.QNC_CHAIN_STAT_cause c) := by
      unfold State.stoCheck
      dsimp only
      rw [if_neg (by rw [hany]; simp [hstate, hhold]; omega), hu]
    exact ⟨_, congrArg Host.Outcome.next hcheck⟩
  refine ⟨_, hexec, ?_, State.raise_hasEvent _ _ _ (by rw [hu]; exact hev)⟩
  rw [State.qChain, State.raise_quench, ← State.qChain, hu, State.qChain_setQChain_same]

theorem execStoFeedbackTimeout_quiet {c : Fin 16} (h : s.rd F.QNC_CHAIN_STAT_state c ≠ 3 ∨ (s.qChain c).stoTicks < 8) :
    execStoFeedbackTimeout c s = .next s := by
  refine congrArg Host.Outcome.next (if_pos ?_)
  obtain h | h := h
  · exact .inl h
  · exact .inr (.inl h)

/-! ## The allowance table (R393) -/

theorem execAllowanceTableStop_stops {c : Fin 16} (hmode : s.mode ≠ 5)
    (h : byteAt (s.publishedEntry c) 12 = 1 ∨ byteAt (s.publishedEntry c) 12 = 2) :
    execAllowanceTableStop c s = .next (s.stopChain c { cause := 8 }) := if_neg (by omega)

theorem execAllowanceTableStop_none {c : Fin 16}
    (h : s.mode = 5 ∨ byteAt (s.publishedEntry c) 12 = 0 ∨ byteAt (s.publishedEntry c) 12 = 3) :
    execAllowanceTableStop c s = .next s := if_pos (by omega)
end Parameters

/-- Settles O40. -/
theorem safetyParametersAndStops : Obligations.SafetyParametersAndStops := by
  unfold Obligations.SafetyParametersAndStops
  exact ⟨fun _ _ _ _ hs hb hm hsto hok => execSpsLoad_takes hs hb hm hsto hok, fun _ _ _ _ hs hb h => execSpsLoad_refuses hs hb h,
    fun _ _ _ _ _ _ hs hb hm hsto hbad => execSpsLoad_rejects hs hb hm hsto hbad, fun _ _ _ _ hs hw => execSpsRead_writes hs hw,
    fun _ _ _ hp hset => execSpsConfirmWrite_waits hp hset, fun _ _ _ h => execSpsConfirmWrite_dropped h,
    fun _ _ _ hp hset => execSpsConfirmWrite_ignored hp hset, fun _ _ _ hset hu hj hn hm => execSourceMissingLimit_adds hset hu hj hn hm,
    fun _ _ _ h => execSourceMissingLimit_again h, fun _ _ hset hst hstop hn hle hev => execSs1LimitTimeExpiry_stops hset hst hstop hn hle hev,
    fun _ _ _ hset hcl ha hc hv hh hs => execRestartDelayExpiry_restarts hset hcl ha hc hv hh hs, fun _ _ h => execRestartDelayExpiry_none h,
    fun _ _ _ hst ht hh hj hl hev => execStoFeedbackTimeout_reports hst ht hh hj hl hev, fun _ _ h => execStoFeedbackTimeout_quiet h,
    fun _ _ hm h => execAllowanceTableStop_stops hm h, fun _ _ h => execAllowanceTableStop_none h⟩

end Sys2Proof.Machine

/-! Proofs about brake tests (R403 to R405). -/

namespace Sys2Proof.Machine

section BrakeTest
variable {s : State}

/-! ## What the parts of a test do -/

theorem State.setBrake_shows (s : State) (b : Nat) {st : Nat} (h : st < 4) : (s.setBrake b st).rd F.QNC_BRK_STAT_state b = st
    ∧ (s.setBrake b st).quench.test = s.quench.test ∧ (s.setBrake b st).hif = s.hif := by
  unfold setBrake
  split
  · rename_i hst
    exact ⟨hst, rfl, rfl⟩
  · exact ⟨rd_wr_lt _ h (by decide), rfl, rfl⟩

theorem State.setBrake_tick (s : State) (b st : Nat) : (s.setBrake b st).tick = s.tick := (s.setBrake_keepsTick b st).tick

theorem State.releaseBrake_ends (s : State) (q : QTest) : (s.releaseBrake q).quench.test = some { q with phase := 4, at_ := (s.releaseBrake q).tick }
    ∧ (s.releaseBrake q).quench.torque = none := by
  unfold releaseBrake
  exact ⟨rfl, rfl⟩

theorem State.rampBack_ramps {s : State} {u : QTorque} (h : s.quench.torque = some u) (q : QTest) :
    (s.rampBack q).quench.test = some { q with phase := 3, at_ := (s.rampBack q).tick }
      ∧ (∃ v, (s.rampBack q).quench.torque = some v ∧ v.back = true ∧ v.at_ = (s.rampBack q).tick ∧ v.axis = u.axis)
      ∧ (s.rampBack q).tick = s.tick := by
  unfold rampBack
  rw [h]
  exact ⟨rfl, ⟨_, rfl, rfl, rfl, rfl⟩, rfl⟩

/-- A passed test, and what it leaves on its channel. -/
theorem State.brakeResult_passes {s : State} {b : Nat} (hb : b < 16) (hev : s.takesEvent 99) :
    (s.brakeResult b 0).rd F.QNC_BRK_STAT_result b = 0 ∧ (s.brakeResult b 0).rd F.QNC_BRK_STAT_test_fail b = 0
      ∧ (s.brakeResult b 0).rd F.QNC_BRK_STAT_due b = 0 ∧ (s.brakeResult b 0).hasEvent 99 1 b
      ∧ (s.brakeResult b 0).quench.test = s.quench.test ∧ (s.brakeResult b 0).hif.desc = s.hif.desc := by
  obtain ⟨v, hv⟩ : ∃ v, v = (s.wr F.QNC_BRK_STAT_result 0 b).setQBrake b
      { (s.wr F.QNC_BRK_STAT_result 0 b).qBrake b with passed := (s.wr F.QNC_BRK_STAT_result 0 b).tick, overdue := false } := ⟨_, rfl⟩
  obtain ⟨u, hu⟩ : ∃ u, u = ((v.wr F.QNC_BRK_STAT_test_fail 0 b).wr F.QNC_BRK_STAT_due 0 b).wr F.QNC_BRK_STAT_hours 0 b := ⟨_, rfl⟩
  have hresult : s.brakeResult b 0 = u.raise 99 1 b 0 := by
    unfold brakeResult
    rw [if_pos rfl, hu, hv]
  have hnot {f : Fld} (hf : f.addr b 0 = 0x1A0440 + 4 * b) : f.addr b 0 ∉ eventWords := by
    rw [hf]
    exact notMem_eventWords (.inr (.inl ⟨by omega, by omega⟩))
  have huev : u.takesEvent 99 := by
    have hwr {t : State} {f : Fld} {n : Nat} (h : t.takesEvent 99) (hf : f.addr b 0 = 0x1A0440 + 4 * b) : (t.wr f n b).takesEvent 99 :=
      takesEvent_wr h (by rw [hf]; simp only [Fld.addr, F.HIF_EVT_MAP_enable]; omega)
    have hvev : v.takesEvent 99 := by
      rw [hv]
      exact hwr hev rfl
    rw [hu]
    exact hwr (hwr (hwr hvev rfl) rfl) rfl
  rw [hresult]
  refine ⟨?_, ?_, ?_, raise_hasEvent _ _ _ huev, ?_, ?_⟩
  · rw [raise_rd _ _ _ _ (by decide) (hnot rfl), hu, rd_wr_sep _ (by decide), rd_wr_sep _ (by decide), rd_wr_sep _ (by decide), hv, setQBrake_rd,
      rd_wr_same _ (by decide)]
    rfl
  · rw [raise_rd _ _ _ _ (by decide) (hnot rfl), hu, rd_wr_sep _ (by decide), rd_wr_sep _ (by decide), rd_wr_same _ (by decide)]
    rfl
  · rw [raise_rd _ _ _ _ (by decide) (hnot rfl), hu, rd_wr_sep _ (by decide), rd_wr_same _ (by decide)]
    rfl
  · rw [raise_quench, hu, hv]
    rfl
  · rw [raise_hif_desc, hu, hv]
    rfl

/-! ## The start of a test (R403) -/

section Start
variable {r : Fin 64} {d : Desc} (hstart : s.Starts r 0x0403 d) (hb : d.op 32 1 < 16) (hset : s.quench.set ≠ [])
  (hused : Sps.used (Sps.brake s.quench.set (d.op 32 1)) = true) (hdir : d.op 33 1 ≤ 2)
include hstart hb hset hused hdir

theorem execBrakeTest_starts (hmode : s.mode = 3) (hbehaviour : s.behaviour = 3)
    (hstand : (s.chain (byteAt (Sps.brake s.quench.set (d.op 32 1)) 2)).state = 0)
    (hstop : s.rd F.QNC_CHAIN_STAT_stop (byteAt (Sps.brake s.quench.set (d.op 32 1)) 2) = 0)
    (hslow : ∃ k, (s.qChain (byteAt (Sps.brake s.quench.set (d.op 32 1)) 2)).slow = some k ∧ ms 100 ≤ s.tick - k)
    (hnone : s.quench.test = none) :
    ∃ t q, execBrakeTest r s = .next t ∧ t.quench.test = some q ∧ q.desc = d.id ∧ q.brake = d.op 32 1 ∧ q.dir = d.op 33 1
      ∧ q.phase = 0 ∧ q.at_ = s.tick ∧ t.rd F.QNC_BRK_STAT_state (d.op 32 1) = 3 ∧ t.hif.compl = s.hif.compl := by
  obtain ⟨k, hk, hlong⟩ := hslow
  obtain ⟨q, hq, hdesc, hbrake, hqdir, hphase, hat⟩ : ∃ q : QTest, execBrakeTest r s = .next (((s.startDesc d).setTest (some q)).setBrake (d.op 32 1) 3)
      ∧ q.desc = d.id ∧ q.brake = d.op 32 1 ∧ q.dir = d.op 33 1 ∧ q.phase = 0 ∧ q.at_ = s.tick := by
    have hset' : s.quench.set.isEmpty = false := by simpa using hset
    have hbehaviour' : (s.startDesc d).behaviour = 3 := (State.startDesc_rd_high hstart.ring_lt (by decide)).trans hbehaviour
    have hchain (c : Nat) : (s.startDesc d).qChain c = s.qChain c := rfl
    unfold execBrakeTest
    rw [hstart.runDesc]
    dsimp only
    rw [State.startDesc_quench, State.startDesc_mode, hbehaviour', State.startDesc_chain, State.startDesc_rd_high hstart.ring_lt (by decide), hchain,
      hk, if_neg (by rw [hset', hused]; simp; omega), if_neg (by omega), State.startDesc_tick,
      if_neg (by rw [hmode, hstand, hstop, hnone]; simp [hlong])]
    exact ⟨_, rfl, rfl, rfl, rfl, rfl, rfl⟩
  obtain ⟨hstate, htest, hhif⟩ := ((s.startDesc d).setTest (some q)).setBrake_shows (d.op 32 1) (st := 3) (by decide)
  refine ⟨_, q, hq, htest, hdesc, hbrake, hqdir, hphase, hat, hstate, ?_⟩
  rw [hhif]
  rfl

theorem execBrakeTest_refuses (h : (s.mode ≠ 2 ∧ s.mode ≠ 3) ∨ s.quench.test ≠ none) :
    ∃ t, execBrakeTest r s = .next t ∧ t.Completed d 0x15 ∧ t.quench = s.quench := by
  have hset' : s.quench.set.isEmpty = false := by simpa using hset
  have hexec : execBrakeTest r s = .next ((s.startDesc d).fail d.id 0x15) := by
    unfold execBrakeTest
    rw [hstart.runDesc]
    dsimp only
    rw [State.startDesc_quench, State.startDesc_mode, if_neg (by rw [hset', hused]; simp; omega), if_neg (by omega), if_pos]
    obtain h | h := h
    · exact .inl h
    · exact .inr (.inr (.inr (.inr (.inr (Option.isSome_iff_ne_none.2 h)))))
  exact ⟨_, hexec, hstart.completed rfl, State.complete_quench ..⟩
end Start

/-! ## The phases of a test (R404) -/

section Phases
variable {q : QTest}

theorem exec_noTest (h : s.quench.test = none) : execBrakeEngageTimeExpiry s = .next s ∧ execTorqueRampEnd s = .next s
    ∧ execTorqueReachTimeout s = .next s ∧ execTestDurationExpiry s = .next s ∧ execBrakeReleaseTimeExpiry s = .next s := by
  refine ⟨?_, ?_, ?_, ?_, ?_⟩
  · unfold execBrakeEngageTimeExpiry
    rw [h]
  · unfold execTorqueRampEnd
    rw [h]
  · unfold execTorqueReachTimeout
    rw [h]
  · unfold execTestDurationExpiry
    rw [h]
  · unfold execBrakeReleaseTimeExpiry
    dsimp only
    rw [h]
    dsimp only
    rw [h]

variable (htest : s.quench.test = some q)
include htest

theorem execBrakeEngageTimeExpiry_asks (hphase : q.phase = 0) (hcoil : byteAt (Sps.brake s.quench.set q.brake) 3 = 0xFF) (hdir : q.dir = 0)
    (hfirst : q.second = false) :
    ∃ t u, execBrakeEngageTimeExpiry s = .next t ∧ t.quench.test = some { q with phase := 1, at_ := t.tick, reached := none }
      ∧ t.quench.torque = some u ∧ u.axis = byteAt (Sps.brake s.quench.set q.brake) 1 ∧ u.at_ = t.tick ∧ u.back = false
      ∧ u.target = (testTorque (Sps.brake s.quench.set q.brake) : Int) ∧ t.regs = s.regs
      ∧ q.at_ + ms (field (Sps.brake s.quench.set q.brake) 10 2) ≤ t.tick := by
  obtain ⟨n, hn⟩ : ∃ n, n = q.at_ + ms (field (Sps.brake s.quench.set q.brake) 10 2) := ⟨_, rfl⟩
  have hexec : execBrakeEngageTimeExpiry s = .next ((s.advanceTo n).askTorque q) := by
    unfold execBrakeEngageTimeExpiry
    rw [htest]
    dsimp only
    rw [if_neg (by omega), ← hn, if_neg (fun h => h.1 hcoil)]
  have hplus : (if (q.dir == 1 || q.second) = true then -(testTorque (Sps.brake s.quench.set q.brake) : Int)
      else testTorque (Sps.brake s.quench.set q.brake)) = testTorque (Sps.brake s.quench.set q.brake) := by
    rw [hdir, hfirst]
    exact if_neg (by decide)
  rw [← hn]
  exact ⟨_, _, hexec, rfl, rfl, rfl, rfl, rfl, hplus, rfl, s.le_advanceTo_tick n⟩

theorem execTorqueRampEnd_holds (hphase : q.phase = 1) :
    ∃ t, execTorqueRampEnd s = .next t ∧ (∃ u, t.quench.test = some u ∧ u.phase = 2 ∧ u.at_ = t.tick ∧ u.desc = q.desc)
      ∧ t.quench.torque = s.quench.torque ∧ q.at_ + ms 50 ≤ t.tick := by
  obtain ⟨n, hn⟩ : ∃ n, n = q.at_ + ms 50 := ⟨_, rfl⟩
  obtain ⟨u, hu, hexec⟩ : ∃ u : QTest, (u.phase = 2 ∧ u.at_ = (s.advanceTo n).tick ∧ u.desc = q.desc)
      ∧ execTorqueRampEnd s = .next ((s.advanceTo n).setTest (some u)) := by
    unfold execTorqueRampEnd
    rw [htest]
    dsimp only
    rw [if_neg (by omega), ← hn, if_neg (by omega)]
    refine ⟨_, ?_, rfl⟩
    exact ⟨rfl, rfl, rfl⟩
  rw [← hn]
  exact ⟨_, hexec, ⟨u, rfl, hu⟩, rfl, s.le_advanceTo_tick n⟩

theorem execTorqueRampEnd_releases (hphase : q.phase = 3) (hdir : q.dir ≠ 2) :
    ∃ t, execTorqueRampEnd s = .next t ∧ t.quench.test = some { q with phase := 4, at_ := t.tick } ∧ t.quench.torque = none := by
  obtain ⟨n, hn⟩ : ∃ n, n = q.at_ + ms 50 := ⟨_, rfl⟩
  have hexec : execTorqueRampEnd s = .next ((s.advanceTo n).releaseBrake q) := by
    unfold execTorqueRampEnd
    rw [htest]
    dsimp only
    rw [if_neg (by omega), ← hn, if_pos hphase, State.endRampBack, if_neg (fun h => hdir h.1)]
  obtain ⟨hends, htorque⟩ := (s.advanceTo n).releaseBrake_ends q
  exact ⟨_, hexec, hends, htorque⟩

theorem execTorqueReachTimeout_ends {u : QTorque} (hphase : q.phase = 2) (hreached : q.reached = none) (htorque : s.quench.torque = some u) :
    ∃ t v, execTorqueReachTimeout s = .next t ∧ t.quench.test = some { q with res := 2, phase := 3, at_ := t.tick }
      ∧ t.quench.torque = some v ∧ v.back = true ∧ v.at_ = t.tick ∧ v.axis = u.axis := by
  obtain ⟨n, hn⟩ : ∃ n, n = q.at_ + ms 200 := ⟨_, rfl⟩
  have hexec : execTorqueReachTimeout s = .next ((s.advanceTo n).rampBack { q with res := 2 }) := by
    unfold execTorqueReachTimeout
    rw [htest]
    dsimp only
    rw [hreached, if_neg (by simp [hphase]), ← hn, State.endTest, ← hreached]
  have htorque' : (s.advanceTo n).quench.torque = some u := htorque
  obtain ⟨hramps, ⟨v, hv⟩, -⟩ := State.rampBack_ramps htorque' { q with res := 2 }
  exact ⟨_, v, hexec, hramps, hv⟩

theorem execTestDurationExpiry_ends {u : QTorque} {a : Nat} (hphase : q.phase = 2) (hreached : q.reached = some a)
    (htorque : s.quench.torque = some u) :
    ∃ t v, execTestDurationExpiry s = .next t ∧ t.quench.test = some { q with phase := 3, at_ := t.tick }
      ∧ t.quench.torque = some v ∧ v.back = true ∧ a + ms (field (Sps.brake s.quench.set q.brake) 18 2) ≤ t.tick := by
  obtain ⟨n, hn⟩ : ∃ n, n = a + ms (field (Sps.brake s.quench.set q.brake) 18 2) := ⟨_, rfl⟩
  have hexec : execTestDurationExpiry s = .next ((s.advanceTo n).rampBack q) := by
    unfold execTestDurationExpiry
    rw [htest]
    dsimp only
    rw [hreached]
    dsimp only
    rw [if_neg (by omega), ← hn]
  have htorque' : (s.advanceTo n).quench.torque = some u := htorque
  obtain ⟨hramps, ⟨v, hv, hback, -, -⟩, htick⟩ := State.rampBack_ramps htorque' q
  rw [← hn]
  exact ⟨_, v, hexec, hramps, hv, hback, (s.le_advanceTo_tick n).trans htick.ge⟩

/-! ## The end of a test (R404, R405) -/

section Release
variable {d : Desc} (hphase : q.phase = 4) (hfind : s.hif.desc.find? (·.id == d.id) = some d) (hid : q.desc = d.id)
include hphase hfind hid

theorem execBrakeReleaseTimeExpiry_passes (hgoes : q.aborted = false) (hres : q.res = 0) (hb : q.brake < 16) (hquiet : d.quiet = false)
    (hev : s.takesEvent 99) :
    ∃ t, execBrakeReleaseTimeExpiry s = .next t ∧ t.quench.test = none ∧ t.rd F.QNC_BRK_STAT_result q.brake = 0
      ∧ t.rd F.QNC_BRK_STAT_test_fail q.brake = 0 ∧ t.rd F.QNC_BRK_STAT_due q.brake = 0 ∧ t.Completed d 1 ∧ t.hasEvent 99 1 q.brake := by
  obtain ⟨n, hn⟩ : ∃ n, n = q.at_ + ms (field (Sps.brake s.quench.set q.brake) 12 2) := ⟨_, rfl⟩
  obtain ⟨u, hu⟩ : ∃ u, u = (s.advanceTo n).setTest none := ⟨_, rfl⟩
  obtain ⟨l, hexec⟩ : ∃ l, execBrakeReleaseTimeExpiry s = .next ((u.brakeResult q.brake 0).complete d.id 1 0 l) := by
    unfold execBrakeReleaseTimeExpiry
    dsimp only
    rw [htest]
    dsimp only
    rw [if_neg (by omega), htest]
    dsimp only
    rw [if_neg (by omega), ← hn, ← hu, hgoes, if_neg Bool.false_ne_true, hres, hid]
    exact ⟨_, rfl⟩
  have huev : u.takesEvent 99 := by
    rw [hu]
    exact hev
  obtain ⟨hresult, hfail, hdue, hhas, hnone, hdesc⟩ := State.brakeResult_passes (s := u) hb huev
  have hfind' : (u.brakeResult q.brake 0).hif.desc.find? (·.id == d.id) = some d := by
    rw [hdesc, hu]
    exact hfind
  refine ⟨_, hexec, ?_, ?_, ?_, ?_, State.complete_completed_of_find hfind' rfl rfl hquiet, ?_⟩
  · rw [State.complete_quench, hnone, hu]
    rfl
  · rw [State.complete_rd_low _ _ _ _ _ _ (by decide), hresult]
  · rw [State.complete_rd_low _ _ _ _ _ _ (by decide), hfail]
  · rw [State.complete_rd_low _ _ _ _ _ _ (by decide), hdue]
  · rw [State.hasEvent, State.complete_events]
    exact hhas

theorem execBrakeReleaseTimeExpiry_aborted (habort : q.aborted = true) :
    ∃ t, execBrakeReleaseTimeExpiry s = .next t ∧ t.quench.test = none ∧ t.Completed d 4 := by
  obtain ⟨n, hn⟩ : ∃ n, n = q.at_ + ms (field (Sps.brake s.quench.set q.brake) 12 2) := ⟨_, rfl⟩
  obtain ⟨u, hu⟩ : ∃ u, u = (s.advanceTo n).setTest none := ⟨_, rfl⟩
  have hexec : execBrakeReleaseTimeExpiry s = .next (u.complete d.id 4) := by
    unfold execBrakeReleaseTimeExpiry
    dsimp only
    rw [htest]
    dsimp only
    rw [if_neg (by omega), htest]
    dsimp only
    rw [if_neg (by omega), ← hn, ← hu, habort, if_pos rfl, hid]
  have hfind' : u.hif.desc.find? (·.id == d.id) = some d := by
    rw [hu]
    exact hfind
  refine ⟨_, hexec, ?_, State.complete_fails hfind' rfl rfl (by decide)⟩
  rw [State.complete_quench, hu]
  rfl
end Release
end Phases

/-! ## The interval of a test (R405) -/

section Interval
variable {b : Fin 16}

theorem execBrakeTestDue_raises (hset : s.quench.set ≠ []) (hused : Sps.used (Sps.brake s.quench.set b) = true)
    (hint : field (Sps.brake s.quench.set b) 24 2 ≠ 0) (hdue : s.on F.QNC_BRK_STAT_due b = false) (hev : s.takesEvent 99) :
    ∃ t, execBrakeTestDue b s = .next t ∧ t.rd F.QNC_BRK_STAT_due b = 1 ∧ t.hasEvent 99 3 b
      ∧ (s.qBrake b).passed + sec (3600 * field (Sps.brake s.quench.set b) 24 2) ≤ t.tick := by
  have hset' : s.quench.set.isEmpty = false := by simpa using hset
  obtain ⟨n, hn⟩ : ∃ n, n = (s.qBrake b).passed + sec (3600 * field (Sps.brake s.quench.set b) 24 2) := ⟨_, rfl⟩
  obtain ⟨u, hu⟩ : ∃ u, u = (s.advanceTo n).wr F.QNC_BRK_STAT_due 1 b := ⟨_, rfl⟩
  obtain ⟨w, hw⟩ : ∃ w, w = detail [(0, s.rd F.QNC_BRK_STAT_result b)] := ⟨_, rfl⟩
  have hexec : execBrakeTestDue b s = .next (u.raise 99 3 b w) := by
    unfold execBrakeTestDue
    dsimp only
    rw [if_neg (by rw [hset', hused, hdue]; simp [hint]), ← hn, State.advanceTo_rd, hu, hw]
  have haddr : F.QNC_BRK_STAT_due.addr b 0 = 0x1A0440 + 4 * b.val := by simp [Fld.addr, F.QNC_BRK_STAT_due]
  refine ⟨_, hexec, ?_, State.raise_hasEvent _ _ _ ?_, ?_⟩
  · rw [State.raise_rd _ _ _ _ (by decide) (State.notMem_eventWords (.inr (.inl ⟨by omega, by omega⟩))), hu, State.rd_wr_same _ (by decide)]
    rfl
  · rw [hu]
    exact State.takesEvent_wr (show (s.advanceTo n).takesEvent 99 from hev) (by rw [haddr]; simp only [Fld.addr, F.HIF_EVT_MAP_enable]; omega)
  · rw [State.raise_tick, hu, ← hn]
    exact s.le_advanceTo_tick n

theorem execBrakeTestDue_none (h : s.quench.set = [] ∨ s.on F.QNC_BRK_STAT_due b = true) : execBrakeTestDue b s = .next s := by
  refine if_pos ?_
  obtain h | h := h
  · exact .inl (by rw [h]; rfl)
  · exact .inr (.inr (.inr h))

theorem execBrakeTestOverdue_fails (hset : s.quench.set ≠ []) (hused : Sps.used (Sps.brake s.quench.set b) = true)
    (hint : field (Sps.brake s.quench.set b) 24 2 ≠ 0) (hover : (s.qBrake b).overdue = false) :
    ∃ t, execBrakeTestOverdue b s = .next t ∧ t.rd F.QNC_BRK_STAT_test_fail b = 1 ∧ (t.qBrake b).overdue = true
      ∧ s.OnlyWords t [F.QNC_BRK_STAT_test_fail.addr b 0] := by
  have hset' : s.quench.set.isEmpty = false := by simpa using hset
  obtain ⟨n, hn⟩ : ∃ n, n = (s.qBrake b).passed + sec (5400 * field (Sps.brake s.quench.set b) 24 2) := ⟨_, rfl⟩
  obtain ⟨u, hu⟩ : ∃ u, u = (s.advanceTo n).setQBrake b { s.qBrake b with overdue := true } := ⟨_, rfl⟩
  have hexec : execBrakeTestOverdue b s = .next (u.wr F.QNC_BRK_STAT_test_fail 1 b) := by
    rw [hu, hn]
    exact if_neg (by rw [hset', hused, hover]; simp [hint])
  refine ⟨_, hexec, ?_, ?_, ?_⟩
  · rw [State.rd_wr_same _ (by decide)]
    rfl
  · have hbrake : u.qBrake b = { s.qBrake b with overdue := true } := by
      rw [hu]
      exact lookup_store_same ..
    exact congrArg QBrake.overdue hbrake
  · have hsame : s.OnlyWords u [F.QNC_BRK_STAT_test_fail.addr b 0] := by
      rw [hu]
      exact fun _ _ => rfl
    exact hsame.wr (f := F.QNC_BRK_STAT_test_fail) List.mem_cons_self

theorem execBrakeTestOverdue_none (h : (s.qBrake b).overdue = true) : execBrakeTestOverdue b s = .next s :=
  if_pos (.inr (.inr (.inr h)))
end Interval
end BrakeTest

/-- Settles O41: each clause is one phase of a test. -/
theorem brakeTests : Obligations.BrakeTests := by
  unfold Obligations.BrakeTests
  exact ⟨fun _ _ _ hs hb hset hu hd hm hbh hst hstop hsl hn => execBrakeTest_starts hs hb hset hu hd hm hbh hst hstop hsl hn,
    fun _ _ _ hs hb hset hu hd h => execBrakeTest_refuses hs hb hset hu hd h, fun _ h => exec_noTest h,
    fun _ _ ht hp hc hd hf => execBrakeEngageTimeExpiry_asks ht hp hc hd hf, fun _ _ ht hp => execTorqueRampEnd_holds ht hp,
    fun _ _ ht hp hd => execTorqueRampEnd_releases ht hp hd, fun _ _ _ ht hp hr htq => execTorqueReachTimeout_ends ht hp hr htq,
    fun _ _ _ _ ht hp hr htq => execTestDurationExpiry_ends ht hp hr htq,
    fun _ _ _ ht hp ha hr hb hf hi hq hev => execBrakeReleaseTimeExpiry_passes ht hp hf hi ha hr hb hq hev,
    fun _ _ _ ht hp ha hf hi => execBrakeReleaseTimeExpiry_aborted ht hp hf hi ha,
    fun _ _ hset hu hi hd hev => execBrakeTestDue_raises hset hu hi hd hev, fun _ _ h => execBrakeTestDue_none h,
    fun _ _ hset hu hi ho => execBrakeTestOverdue_fails hset hu hi ho, fun _ _ h => execBrakeTestOverdue_none h⟩

end Sys2Proof.Machine

/-! What a change of the mode (R445) leaves alone, and what the pairing (R425 to R439) reads after it: the role, the mode, the epoch,
the outstanding descriptors and the pairing's own state. -/

namespace Sys2Proof.Machine

/-! ## A change of the mode -/

/-- The registers that a change of the mode writes: GLB_STAT, GLB_MODE_REQ, GLB_MODE_INFO, UPD_STAGE, and those of events. -/
def modeWords : List Nat := 0x20 :: 0x120 :: 0x124 :: 0x1E0040 :: eventWords

/-- Everything but the register file, copies of registers, the mode request, event staging and Waxbook's triggers is as before. -/
def State.SameButMode (s t : State) : Prop :=
  t = { s with regs := t.regs, glb := { s.glb with t3copies := t.glb.t3copies, modeReq := t.glb.modeReq },
               hif := { s.hif with events := t.hif.events, lostOwed := t.hif.lostOwed },
               wax := { s.wax with hist := t.wax.hist, queue := t.wax.queue } }

theorem EventKeeps.modeBlocks (s : State) : EventKeeps (fun _ => True) s.SameButMode where
  wr t f v i _ _ h := by unfold State.SameButMode at h; rw [h]; rfl
  record t _ _ h := by unfold State.SameButMode at h; rw [h]; rfl
  merge t _ _ _ h := by unfold State.SameButMode at h; rw [h]; rfl
  owe t h := by unfold State.SameButMode at h; rw [h]; rfl
  hist t _ h := by unfold State.SameButMode at h; rw [h]; rfl
  queue t _ _ h := by unfold State.SameButMode at h; rw [h]; rfl

namespace State

/-- The mode triggers of a code fire. -/
def fireMode (s : State) (m : Nat) : State :=
  (List.range 32).foldl (fun s t =>
    if s.rd F.WAX_TRIG0_kind t == 2 && s.rd F.WAX_TRIG0_source t == m then s.fireOther t 2 m else s) s

/-- The registers show a mode. -/
def showMode (s : State) (m cause : Nat) : State :=
  ((s.wr F.GLB_MODE_INFO_previous s.mode).wr F.GLB_MODE_INFO_cause cause).wr F.GLB_STAT_mode m

theorem setMode_eq (s : State) (m cause : Nat) : s.setMode m cause = ((s.overtake.releaseLock 4).showMode m cause).fireMode m := rfl

theorem fireMode_holds {B : Nat → Prop} {P : State → Prop} (K : EventKeeps B P) (h3 : B 3) {s : State} (h : P s) (m : Nat) : P (s.fireMode m) := by
  refine foldl_holds (P := P) (fun t k _ ht => ?_) h
  split
  · exact K.fireOther h3 k 2 m ht
  · exact ht

theorem SameButMode.wr {s t : State} (h : s.SameButMode t) (f : Fld) (v i j : Nat) : s.SameButMode (t.wr f v i j) := by
  unfold SameButMode at h
  rw [h]
  rfl

variable (s : State)

theorem overtake_cases : s.overtake = s ∨ s.overtake = { s with glb := { s.glb with modeReq := none } }.wr F.GLB_MODE_REQ_status 5 := by
  unfold overtake
  split
  · exact .inl rfl
  · exact .inr rfl

theorem releaseLock_cases (k : Nat) : s.releaseLock k = s ∨ ∃ d, s.releaseLock k = (s.wr F.UPD_STAGE_owner 0).raise 114 1 0xFFFF d := by
  unfold releaseLock
  dsimp only
  split
  · exact .inl rfl
  · exact .inr ⟨_, rfl⟩

theorem overtake_sameButMode : s.SameButMode s.overtake := by
  obtain h | h := s.overtake_cases
  · rw [h]
    rfl
  · rw [h]
    rfl

theorem releaseLock_holds {B : Nat → Prop} {P : State → Prop} (K : EventKeeps B P) (h3 : B 3) {s : State} (h : P s)
    (hw : P (s.wr F.UPD_STAGE_owner 0)) (k : Nat) : P (s.releaseLock k) := by
  obtain h' | ⟨d, h'⟩ := s.releaseLock_cases k
  · rwa [h']
  · rw [h']
    exact K.raise h3 114 1 0xFFFF d h3 hw

theorem setMode_sameButMode (m cause : Nat) : s.SameButMode (s.setMode m cause) := by
  rw [setMode_eq]
  have hover := s.overtake_sameButMode
  have hlock := releaseLock_holds (.modeBlocks s) trivial hover (hover.wr _ _ _ _) 4
  exact fireMode_holds (.modeBlocks s) trivial (((hlock.wr _ _ _ _).wr _ _ _ _).wr _ _ _ _) m

theorem overtake_word {off : Nat} (h : off ≠ 0x120) : s.overtake.word off = s.word off := by
  obtain h' | h' := s.overtake_cases
  · rw [h']
  · rw [h', word_wr_ne _ _ h]
    rfl

theorem fireMode_word (m : Nat) {off : Nat} (h : off ∉ eventWords) : (s.fireMode m).word off = s.word off :=
  fireMode_holds (P := fun t => t.word off = s.word off) (.word s h) (by decide) rfl m

theorem setMode_word (m cause : Nat) {off : Nat} (h : off ∉ modeWords) : (s.setMode m cause).word off = s.word off := by
  simp only [modeWords, List.mem_cons, not_or] at h
  obtain ⟨hstat, hreq, hinfo, hlock, hev⟩ := h
  rw [setMode_eq, fireMode_word _ _ hev, showMode, word_wr_ne _ _ hstat, word_wr_ne _ _ hinfo, word_wr_ne _ _ hinfo, releaseLock_word _ _ (List.not_mem_cons_of_ne_of_not_mem hlock hev),
    overtake_word _ hreq]

theorem setMode_rd (m cause : Nat) {f : Fld} {i j : Nat} (h : f.addr i j ∉ modeWords) : (s.setMode m cause).rd f i j = s.rd f i j := by
  rw [rd, rd, s.setMode_word m cause h]

/-- The other fields of GLB_STAT. -/
theorem setMode_stat (m cause : Nat) {f : Fld} (h : f.Sep F.GLB_STAT_mode) (hoff : f.addr 0 0 = 0x20) : (s.setMode m cause).rd f = s.rd f := by
  rw [setMode_eq, rd, hoff, fireMode_word _ _ (by decide), ← hoff, ← rd, showMode, rd_wr_sep _ h, rd, hoff, word_wr_ne _ _ (by decide),
    word_wr_ne _ _ (by decide), releaseLock_word _ _ (by decide), overtake_word _ (by decide), ← hoff, ← rd]

theorem setMode_mode {m : Nat} (h : m < 8) (cause : Nat) : (s.setMode m cause).mode = m := by
  rw [mode, setMode_eq, rd, fireMode_word _ _ (by decide), ← rd, showMode]
  exact rd_wr_lt _ h (by decide)

/-! ## What the pairing reads -/

/-- The pairing's own state, the descriptors outstanding, the segments, the mode, the role and the epoch. -/
def pairView : Bellows × List Desc × Nat × Nat × Nat :=
  (s.bellows, s.hif.desc, s.mode, s.rd F.GLB_STAT_role, s.rd F.BLW_STAT_epoch)

/-- A register outside GLB_STAT and BLW_STAT. -/
abbrev Apart (off : Nat) : Prop := off ≠ 0x20 ∧ off ≠ 0x1D0008

theorem pairView_wr {f : Fld} {v i j : Nat} (h : Apart (f.addr i j)) : (s.wr f v i j).pairView = s.pairView := by
  have hrd (f' : Fld) (h' : f'.addr 0 0 ≠ f.addr i j) : (s.wr f v i j).rd f' = s.rd f' := rd_wr_ne _ h'
  have hmode : (s.wr f v i j).mode = s.mode := hrd F.GLB_STAT_mode h.1.symm
  rw [pairView, hmode, hrd F.GLB_STAT_role h.1.symm, hrd F.BLW_STAT_epoch h.2.symm]
  rfl

theorem pairView_put {f : Fld} {v : Bool} {i j : Nat} (h : Apart (f.addr i j)) : (s.put f v i j).pairView = s.pairView := s.pairView_wr h

theorem pairView_raise {src : Nat} (code inst : Nat) (d : DWord) (hsrc : src < 128) : (s.raise src code inst d).pairView = s.pairView := by
  rw [pairView, raise_bellows, raise_hif_desc, raise_mode _ _ _ _ hsrc, raise_rd _ _ _ _ hsrc (by decide), raise_rd _ _ _ _ hsrc (by decide)]
  rfl

@[simp] theorem pairView_setSeg (g : Nat) (v : Seg8) : (s.setSeg g v).pairView = s.pairView := rfl
@[simp] theorem pairView_setEng (n : Nat) (e : Engine) : (s.setEng n e).pairView = s.pairView := rfl
@[simp] theorem pairView_setChain (c : Nat) (v : Chain) : (s.setChain c v).pairView = s.pairView := rfl
@[simp] theorem pairView_drawn : s.drawn.pairView = s.pairView := rfl

theorem pairView_setMode {m : Nat} (h : m < 8) (cause : Nat) :
    (s.setMode m cause).pairView = (s.bellows, s.hif.desc, m, s.rd F.GLB_STAT_role, s.rd F.BLW_STAT_epoch) := by
  have hblocks := s.setMode_sameButMode m cause
  have hbellows : (s.setMode m cause).bellows = s.bellows := by rw [hblocks]
  have hdesc : (s.setMode m cause).hif.desc = s.hif.desc := by rw [hblocks]
  rw [pairView, hbellows, hdesc, s.setMode_mode h, s.setMode_stat m cause (by decide) (by decide), s.setMode_rd m cause (by decide)]

/-- The role as it is shown. -/
theorem pairView_role {r : Nat} (h : r < 4) :
    (s.wr F.GLB_STAT_role r).pairView = (s.bellows, s.hif.desc, s.mode, r, s.rd F.BLW_STAT_epoch) := by
  have hmode : (s.wr F.GLB_STAT_role r).mode = s.mode := rd_wr_sep (g := F.GLB_STAT_mode) _ (by decide)
  rw [pairView, hmode, rd_wr_lt _ h (by decide), rd_wr_sep _ (by decide)]
  rfl

theorem pairView_syncPair : s.syncPair.pairView = s.pairView := by
  have hready (t : State) (b : Bool) : (t.put F.BLW_STAT_ready b).pairView = t.pairView := by
    have hmode : (t.put F.BLW_STAT_ready b).mode = t.mode := rd_wr_sep (g := F.GLB_STAT_mode) _ (by decide)
    rw [pairView, hmode, put_eq, rd_wr_sep _ (by decide), rd_wr_sep _ (by decide)]
    rfl
  unfold syncPair
  dsimp only
  split
  · rfl
  · exact (hready _ _).trans (s.pairView_wr (by decide))

theorem OfSegment_apart {f : Fld} (h : f.OfSegment) {g : Nat} (hg : g < 8) : Apart (f.addr g 0) := by
  have hl := h.le_addr g
  have hu := h.addr_lt hg
  constructor <;> omega

theorem pairView_setMaster {g : Nat} (hg : g < 8) (node : Nat) : (s.setMaster g node).pairView = s.pairView := by
  have hshow : (s.showMaster g node).pairView = s.pairView := by
    unfold showMaster
    exact (pairView_put _ (OfSegment_apart (by decide) hg)).trans (pairView_wr _ (OfSegment_apart (by decide) hg))
  obtain h | ⟨u, hu, h⟩ := s.setMaster_eq g node
  · rw [h, hshow]
  · rw [h, syncHoldover, pairView_put _ (by decide), hu, pairView_put _ (by decide), hshow]

theorem pairView_followPartner : s.followPartner.pairView = s.pairView := by
  refine foldl_keeps pairView (fun t g hg => ?_) s
  split
  · rfl
  · exact pairView_setMaster _ (List.mem_range.1 hg) _

theorem pairView_context {c : Nat} (hc : c < 1024) (v : Nat) : (s.wr F.HIV_CTX0_state v c).pairView = s.pairView :=
  pairView_wr _ (by simp only [Apart, Fld.addr, F.HIV_CTX0_state]; omega)

theorem pairView_shadowContexts : s.shadowContexts.pairView = s.pairView := by
  refine foldl_keeps pairView (fun t c hc => ?_) s
  split
  · exact t.pairView_context (List.mem_range.1 hc) 4
  · rfl

/-- A standby: mode 6 and role 2. -/
theorem pairView_enterStandby (cause : Nat) : (s.enterStandby cause).pairView = (s.bellows, s.hif.desc, 6, 2, s.rd F.BLW_STAT_epoch) := by
  have hmode := s.pairView_setMode (m := 6) (by decide) cause
  simp only [pairView, Prod.mk.injEq] at hmode
  obtain ⟨hb, hd, hm, -, he⟩ := hmode
  rw [enterStandby, pairView_shadowContexts, pairView_followPartner, pairView_role _ (by decide), hb, hd, hm, he]

theorem pairView_syncHive : s.syncHive.pairView = s.pairView := by
  unfold syncHive
  dsimp only
  simp (disch := decide) only [pairView_wr, pairView_put]

theorem pairView_armFirst (c : Nat) : (s.armFirst c).pairView = s.pairView := by
  unfold armFirst armTimer
  split
  · rfl
  · rw [pairView_drawn]
    split
    · dsimp only
      rw [pairView_raise _ _ _ _ (by decide)]
    · exact (pairView_syncHive _).trans rfl

/-- R435: the mode that the partner had, role 1 and the next epoch. -/
theorem pairView_becomeActive (hnum : ∀ p ∈ s.bellows.numbers, p.1 < 128) (cause : Nat) :
    (s.becomeActive cause).pairView
      = (s.bellows, s.hif.desc, if s.bellows.mode = 4 then 4 else 3, 1, (s.rd F.BLW_STAT_epoch + 1) % 2 ^ 16) := by
  obtain ⟨a, ha⟩ : ∃ a, a = s.wr F.BLW_STAT_epoch (s.rd F.BLW_STAT_epoch + 1) := ⟨_, rfl⟩
  obtain ⟨m, hm⟩ : ∃ m, m = if s.bellows.mode = 4 then 4 else 3 := ⟨_, rfl⟩
  have hm8 : m < 8 := by
    rw [hm]
    split
    · decide
    · decide
  obtain ⟨b, hb⟩ : ∃ b, b = (a.setMode m cause).wr F.GLB_STAT_role 1 := ⟨_, rfl⟩
  have hview : b.pairView = (s.bellows, s.hif.desc, m, 1, (s.rd F.BLW_STAT_epoch + 1) % 2 ^ 16) := by
    have hset := a.pairView_setMode hm8 cause
    simp only [pairView, Prod.mk.injEq] at hset
    obtain ⟨hbellows, hdesc, hmode, -, hepoch⟩ := hset
    rw [hb, pairView_role _ (by decide), hbellows, hdesc, hmode, hepoch, ha, rd_wr_same _ (by decide)]
    rfl
  obtain ⟨d, hd⟩ : ∃ d, d = detail [(4, (a.setMode m cause).tim.cycle)] := ⟨_, rfl⟩
  have hactive : s.becomeActive cause = ((List.range 1024).foldl (fun s c =>
      if s.on F.HIV_CTX0_mirrored c && s.ctxState c == 4 then (s.wr F.HIV_CTX0_state 1 c).armFirst c else s)
      ((List.range 8).foldl (fun s g =>
        let m := s.rd F.CMB_SYNC_STAT_master g
        if m != 0 && m == s.ownNode g then s.setMaster g m else s)
      ((b.raise 109 1 0xFFFF d).bellows.numbers.foldl (fun s p => s.wr F.QNC_CONN_STAT_number (numberPlus p.2 15) p.1) (b.raise 109 1 0xFFFF d)))).syncPair := by
    unfold becomeActive
    dsimp only
    rw [← ha, ← hm, blwEvent, ← hd, ← hb]
  have hnum' : ∀ p ∈ (b.raise 109 1 0xFFFF d).bellows.numbers, p.1 < 128 := by
    have hbellows : b.bellows = s.bellows := congrArg Prod.fst hview
    rw [raise_bellows, hbellows]
    exact hnum
  rw [hactive, pairView_syncPair, foldl_keeps pairView fun t c hc => ?_, foldl_keeps pairView fun t g hg => ?_,
    foldl_keeps pairView fun t p hp => ?_, pairView_raise _ _ _ _ (by decide), hview, hm]
  · have hlt := hnum' p hp
    exact t.pairView_wr (by simp only [Apart, Fld.addr, F.QNC_CONN_STAT_number]; omega)
  · dsimp only
    split
    · exact t.pairView_setMaster (List.mem_range.1 hg) _
    · rfl
  · split
    · rw [pairView_armFirst, pairView_context _ (List.mem_range.1 hc)]
    · rfl

theorem pairView_heldEvent (c cause st : Nat) : (s.heldEvent c cause st).pairView = s.pairView :=
  (pairView_raise _ _ _ _ (by decide)).trans rfl

theorem pairView_endMoving (c : Nat) : (s.endMoving c).pairView = s.pairView := by
  have hramp (t : State) (t0 rise : Nat) : (t.commitRamp c t0 rise).pairView = t.pairView := by
    unfold commitRamp
    dsimp only
    refine (foldl_keeps pairView (fun u n _ => ?_) _).trans t.pairView_drawn
    split
    · rfl
    · rfl
  unfold endMoving
  dsimp only
  split
  · rfl
  · rw [pairView_heldEvent, pairView_setChain, hramp, pairView_drawn]

end State

end Sys2Proof.Machine

/-! Proofs about the roles, heartbeats, mirror cycles and lanes of a pair (R425 to R431, R441, R444). -/

namespace Sys2Proof.Machine

section Pair
variable {s : State}

/-! ## What the pairing's own registers follow -/

namespace State

theorem syncPair_word {off : Nat} (h : off ≠ 0x1D0008 ∧ off ≠ 0x1D000C) : s.syncPair.word off = s.word off := by
  unfold syncPair
  dsimp only
  split
  · rfl
  · rw [put_eq, word_wr_ne _ _ h.1, word_wr_ne _ _ h.2]

theorem syncPair_rd {f : Fld} {i j : Nat} (h : f.addr i j ≠ 0x1D0008 ∧ f.addr i j ≠ 0x1D000C) : s.syncPair.rd f i j = s.rd f i j := by
  rw [rd, rd, syncPair_word h]

/-- The other fields of BLW_STAT. -/
theorem syncPair_stat {f : Fld} (h : f.Sep F.BLW_STAT_ready) (hd : f.Sep F.BLW_DIGEST_digest) : s.syncPair.rd f = s.rd f := by
  unfold syncPair
  dsimp only
  split
  · rfl
  · rw [put_eq, rd_wr_sep _ h, rd_wr_sep _ hd]

theorem syncPair_blocks (s : State) : s.OnlyRegs s.syncPair := by
  unfold syncPair
  dsimp only
  split
  · exact .refl s
  · exact ((OnlyRegs.refl s).wr _ _ _ _).wr _ _ _ _

@[simp] theorem syncPair_hif : s.syncPair.hif = s.hif := by rw [s.syncPair_blocks]
@[simp] theorem syncPair_bellows : s.syncPair.bellows = s.bellows := by rw [s.syncPair_blocks]
@[simp] theorem syncPair_combway : s.syncPair.combway = s.combway := by rw [s.syncPair_blocks]
@[simp] theorem syncPair_tim : s.syncPair.tim = s.tim := by rw [s.syncPair_blocks]

theorem blwEvent_rd {src : Nat} (code : Nat) (d : DWord) (hsrc : src < 128) {f : Fld} {i j : Nat} (h : f.addr i j ∉ eventWords) :
    (s.blwEvent src code d).rd f i j = s.rd f i j := s.raise_rd _ _ _ hsrc h

@[simp] theorem blwEvent_bellows (src code : Nat) (d : DWord) : (s.blwEvent src code d).bellows = s.bellows := s.raise_bellows ..
@[simp] theorem blwEvent_combway (src code : Nat) (d : DWord) : (s.blwEvent src code d).combway = s.combway := s.raise_combway ..

/-- The fields of a view of the pairing. -/
theorem pairView_fields {b : Bellows} {l : List Desc} {m r e : Nat} (h : s.pairView = (b, l, m, r, e)) :
    s.bellows = b ∧ s.hif.desc = l ∧ s.mode = m ∧ s.rd F.GLB_STAT_role = r ∧ s.rd F.BLW_STAT_epoch = e := by
  simpa only [pairView, Prod.mk.injEq] using h

end State

/-! ## Roles (R426) -/

theorem execRoleDecision_none (h : s.rd F.GLB_STAT_role ≠ 0 ∨ (s.mode ≠ 3 ∧ s.mode ≠ 4)) : execRoleDecision s = .next s := if_pos (or_comm.1 h)

theorem execRoleDecision_decides (hrole : s.rd F.GLB_STAT_role = 0) (hmode : s.mode = 3 ∨ s.mode = 4) :
    (s.roleChoice = 1 → execRoleDecision s = .next (s.wr F.GLB_STAT_role 1).syncPair)
      ∧ (s.roleChoice = 2 → execRoleDecision s = .next (s.enterStandby 2).syncPair) := by
  have hgo : ¬ ((s.mode ≠ 3 ∧ s.mode ≠ 4) ∨ s.rd F.GLB_STAT_role ≠ 0) := by omega
  unfold execRoleDecision
  rw [if_neg hgo]
  refine ⟨fun h => ?_, fun h => ?_⟩
  · rw [h]
    rfl
  · rw [h]
    rfl

theorem execRoleDecision_active (hrole : s.rd F.GLB_STAT_role = 0) (hmode : s.mode = 3 ∨ s.mode = 4) (h : s.roleChoice = 1) :
    ∃ t, execRoleDecision s = .next t ∧ t.rd F.GLB_STAT_role = 1 ∧ t.mode = s.mode := by
  obtain ⟨-, -, hm, hr, -⟩ := State.pairView_fields (((s.wr F.GLB_STAT_role 1).pairView_syncPair).trans (s.pairView_role (by decide)))
  exact ⟨_, (execRoleDecision_decides hrole hmode).1 h, hr, hm⟩

theorem execRoleDecision_standby (hrole : s.rd F.GLB_STAT_role = 0) (hmode : s.mode = 3 ∨ s.mode = 4) (h : s.roleChoice = 2) :
    ∃ t, execRoleDecision s = .next t ∧ t.rd F.GLB_STAT_role = 2 ∧ t.mode = 6 := by
  obtain ⟨-, -, hm, hr, -⟩ := State.pairView_fields (((s.enterStandby 2).pairView_syncPair).trans (s.pairView_enterStandby 2))
  exact ⟨_, (execRoleDecision_decides hrole hmode).2 h, hr, hm⟩

section LinkTimeout
variable (hen : s.on F.BLW_CTL_enable = true) (hlink : s.on F.BLW_STAT_link = false) (hout : s.bellows.timedOut = false)
include hen hlink hout

theorem execBellowsLinkTimeout_primary (hprimary : s.on F.BLW_CFG_primary = true) (hmode : s.mode = 3) (hrole : s.rd F.GLB_STAT_role = 0) :
    ∃ t, execBellowsLinkTimeout s = .next t ∧ t.rd F.GLB_STAT_role = 1 ∧ t.bellows.timedOut = true
      ∧ s.bellows.enabledAt + sec 1 ≤ t.tick := by
  obtain ⟨n, hn⟩ : ∃ n, n = s.bellows.enabledAt + sec 1 := ⟨_, rfl⟩
  obtain ⟨u, hu⟩ : ∃ u, u = (s.advanceTo n).setBellows { s.bellows with timedOut := true } := ⟨_, rfl⟩
  have hon : u.on F.BLW_CFG_primary = true := by rw [hu]; exact hprimary
  have hexec : execBellowsLinkTimeout s = .next (u.wr F.GLB_STAT_role 1) := by
    have hgo : (u.mode = 3 ∨ u.mode = 4) ∧ u.rd F.GLB_STAT_role = 0 := by
      rw [hu]
      exact ⟨.inl hmode, hrole⟩
    have hu' : u = (s.advanceTo n).setBellows { (s.advanceTo n).bellows with timedOut := true } := hu
    unfold execBellowsLinkTimeout
    rw [hen, hlink, hout, if_neg (by decide)]
    dsimp only
    rw [← hn, ← hu', if_neg (by simp [hon]), if_pos hgo]
  refine ⟨_, hexec, State.rd_wr_lt _ (by decide) (by decide), ?_, ?_⟩
  · rw [hu]
    rfl
  · rw [hu, ← hn]
    exact s.le_advanceTo_tick n

theorem execBellowsLinkTimeout_reports (hprimary : s.on F.BLW_CFG_primary = false) (hev : s.takesEvent 110) :
    ∃ t, execBellowsLinkTimeout s = .next t ∧ t.hasEvent 110 3 0xFFFF ∧ t.bellows.timedOut = true
      ∧ t.rd F.GLB_STAT_role = s.rd F.GLB_STAT_role := by
  obtain ⟨n, hn⟩ : ∃ n, n = s.bellows.enabledAt + sec 1 := ⟨_, rfl⟩
  obtain ⟨u, hu⟩ : ∃ u, u = (s.advanceTo n).setBellows { (s.advanceTo n).bellows with timedOut := true } := ⟨_, rfl⟩
  have hon : u.on F.BLW_CFG_primary = false := by rw [hu]; exact hprimary
  have hexec : execBellowsLinkTimeout s = .next (u.blwEvent 110 3) := by
    unfold execBellowsLinkTimeout
    rw [hen, hlink, hout, if_neg (by decide)]
    dsimp only
    rw [← hn, ← hu, if_pos (by simp [hon])]
  have huev : u.takesEvent 110 := by
    rw [hu]
    exact hev
  refine ⟨_, hexec, ?_, ?_, ?_⟩
  · rw [State.blwEvent]
    exact State.raise_hasEvent _ _ _ huev
  · rw [State.blwEvent_bellows, hu]
    rfl
  · rw [State.blwEvent_rd _ _ (by decide) (by decide), hu]
    rfl
end LinkTimeout

/-! ## Disable (R444) -/

theorem exec_disabled (h : s.on F.BLW_CTL_enable = false) :
    execBellowsLinkTimeout s = .next s ∧ execHeartbeatSend s = .next s ∧ execHeartbeatLost s = .next s
      ∧ (∀ hb, execHeartbeatReceived hb s = .next s) ∧ ∀ m, s.privileged m = true → execBellowsDisable m s = .next s := by
  have hoff : (!s.on F.BLW_CTL_enable) = true := by rw [h]; rfl
  refine ⟨if_pos ?_, if_pos ?_, if_pos ?_, fun hb => if_pos ?_, fun m hm => ?_⟩
  · rw [hoff]; rfl
  · rw [hoff]; rfl
  · rw [hoff]; rfl
  · rw [hoff]; rfl
  · exact (if_neg (by simp [hm])).trans (if_pos hoff)

theorem execBellowsDisable_dropped {m : Master} (h : s.privileged m = false) :
    execBellowsDisable m s = .next (s.pvDropped m false true (F.BLW_CTL_enable.addr 0 0)) := if_pos (by simp [h])

/-- The registers and the state of a pairing that is disabled. -/
def State.unpaired (s : State) : State :=
  let s := ((s.wr F.BLW_CTL_enable 0).wr F.BLW_STAT_link 0).wr F.BLW_STAT_lanes 0
  let s := ((s.wr F.BLW_STAT_partner_role 0).wr F.BLW_STAT_ready 0).wr F.BLW_STAT_partner_ready 0
  ((s.wr F.BLW_STAT_hb_lost 0).wr F.GLB_STAT_role 0).setBellows { swaps := s.bellows.swaps }

theorem State.unpaired_rd {f : Fld} (h : f = F.BLW_CTL_enable ∨ f = F.BLW_STAT_link ∨ f = F.BLW_STAT_lanes ∨ f = F.GLB_STAT_role) :
    s.unpaired.rd f = 0 := by
  unfold unpaired
  dsimp only
  have hset (t : State) (b : Bellows) (f : Fld) : (t.setBellows b).rd f = t.rd f := rfl
  rw [hset]
  obtain rfl | rfl | rfl | rfl := h
  · simp (disch := decide) only [rd_wr_sep, rd_wr_same]
    rfl
  · simp (disch := decide) only [rd_wr_sep, rd_wr_same]
    rfl
  · simp (disch := decide) only [rd_wr_sep, rd_wr_same]
    rfl
  · simp (disch := decide) only [rd_wr_same]
    rfl

theorem State.unpaired_mode : s.unpaired.mode = s.mode := by
  unfold unpaired mode
  dsimp only
  have hset (t : State) (b : Bellows) (f : Fld) : (t.setBellows b).rd f = t.rd f := rfl
  rw [hset]
  simp (disch := decide) only [rd_wr_sep]

theorem execBellowsDisable_disables {m : Master} (hpriv : s.privileged m = true) (hen : s.on F.BLW_CTL_enable = true) :
    ∃ t, execBellowsDisable m s = .next t ∧ t.rd F.BLW_CTL_enable = 0 ∧ t.rd F.BLW_STAT_link = 0 ∧ t.rd F.BLW_STAT_lanes = 0
      ∧ t.rd F.GLB_STAT_role = 0 ∧ t.mode = (if s.mode = 6 then 2 else s.mode) ∧ t.bellows = { swaps := s.bellows.swaps } := by
  obtain ⟨u, hu⟩ : ∃ u, u = s.unpaired := ⟨_, rfl⟩
  have hrd {f : Fld} (h : f = F.BLW_CTL_enable ∨ f = F.BLW_STAT_link ∨ f = F.BLW_STAT_lanes ∨ f = F.GLB_STAT_role) : u.rd f = 0 :=
    hu ▸ s.unpaired_rd h
  have humode : u.mode = s.mode := hu ▸ s.unpaired_mode
  have hbellows : u.bellows = { swaps := s.bellows.swaps } := hu ▸ rfl
  have hexec : execBellowsDisable m s = .next (if u.mode = 6 then u.setMode 2 2 else u) := by
    rw [hu]
    exact (if_neg (by simp [hpriv])).trans (if_neg (by simp [hen]))
  rw [humode] at hexec
  refine ⟨_, hexec, ?_⟩
  by_cases h6 : s.mode = 6
  · rw [if_pos h6, if_pos h6, u.setMode_rd 2 2 (by decide), u.setMode_rd 2 2 (by decide), u.setMode_rd 2 2 (by decide)]
    obtain ⟨hb, -, hm, hr, -⟩ := State.pairView_fields (u.pairView_setMode (m := 2) (by decide) 2)
    exact ⟨hrd (.inl rfl), hrd (.inr (.inl rfl)), hrd (.inr (.inr (.inl rfl))), hr.trans (hrd (.inr (.inr (.inr rfl)))), hm, hb.trans hbellows⟩
  · rw [if_neg h6, if_neg h6]
    exact ⟨hrd (.inl rfl), hrd (.inr (.inl rfl)), hrd (.inr (.inr (.inl rfl))), hrd (.inr (.inr (.inr rfl))), humode, hbellows⟩

/-! ## Heartbeats (R429, R436) -/

/-- The heartbeat that a device would send. -/
def State.heartbeat (s : State) : Heartbeat where
  cycle := BitVec.ofNat 32 (s.tim.cycle + 1)
  role := BitVec.ofNat 2 (s.rd F.GLB_STAT_role)
  ready := s.on F.BLW_STAT_ready
  epoch := BitVec.ofNat 16 (s.rd F.BLW_STAT_epoch)
  digest := BitVec.ofNat 32 (s.rd F.BLW_DIGEST_digest)
  swap := BitVec.ofNat 32 (if s.rd F.GLB_STAT_role = 1 then (s.bellows.swaps.head?.map (·.2)).getD 0 else 0)

theorem execHeartbeatSend_standby (hen : s.on F.BLW_CTL_enable = true) (hrun : s.running = true) (hrole : s.rd F.GLB_STAT_role = 2) :
    ∃ t h, execHeartbeatSend s = .next t ∧ t.bellows.sent = some h ∧ h.cycle = BitVec.ofNat 32 (s.tim.cycle + 1) ∧ h.role = 2
      ∧ h.epoch.toNat = s.rd F.BLW_STAT_epoch ∧ h.swap = 0 := by
  obtain ⟨n, u, hu, hexec⟩ : ∃ n u, u = (s.advanceCell n).syncPair
      ∧ execHeartbeatSend s = .next (u.setBellows { u.bellows with sent := if u.withholds then none else some u.heartbeat }) := by
    unfold execHeartbeatSend
    rw [hen, hrun, if_neg (by decide)]
    exact ⟨_, _, rfl, rfl⟩
  have hur : u.rd F.GLB_STAT_role = 2 := by rw [hu, State.syncPair_rd (by decide), State.advanceCell_rd, hrole]
  have hue : u.rd F.BLW_STAT_epoch = s.rd F.BLW_STAT_epoch := by rw [hu, State.syncPair_stat (by decide) (by decide), State.advanceCell_rd]
  have huc : u.tim.cycle = s.tim.cycle := by
    obtain ⟨k, cell, -, hadv⟩ := s.advanceCell_eq n
    rw [hu, State.syncPair_tim, hadv]
  have hsends : u.withholds = false := by
    rw [State.withholds, hur]
    rfl
  rw [hsends, if_neg Bool.false_ne_true] at hexec
  have hlt : u.rd F.BLW_STAT_epoch < 2 ^ 16 := u.rd_lt F.BLW_STAT_epoch 0 0
  refine ⟨_, u.heartbeat, hexec, rfl, ?_, ?_, ?_, ?_⟩
  · rw [State.heartbeat, huc]
  · rw [State.heartbeat, hur]
    rfl
  · rw [State.heartbeat, ← hue]
    exact (BitVec.toNat_ofNat ..).trans (Nat.mod_eq_of_lt hlt)
  · rw [State.heartbeat, hur, if_neg (by decide)]
    rfl

/-- The difference found in a heartbeat's digest moves only what compares it. -/
theorem State.comparePartner_keeps : (∀ f : Fld, f.addr 0 0 ∉ eventWords → s.comparePartner.rd f = s.rd f)
    ∧ (∃ b, s.comparePartner.bellows = { s.bellows with mismatch := b }) ∧ s.comparePartner.combway = s.combway := by
  have hset (t : State) (ht : (∀ f : Fld, f.addr 0 0 ∉ eventWords → t.rd f = s.rd f) ∧ t.bellows = s.bellows ∧ t.combway = s.combway) (b : Bool) :
      (∀ f : Fld, f.addr 0 0 ∉ eventWords → (t.setBellows { t.bellows with mismatch := b }).rd f = s.rd f)
        ∧ (∃ b', (t.setBellows { t.bellows with mismatch := b }).bellows = { s.bellows with mismatch := b' })
        ∧ (t.setBellows { t.bellows with mismatch := b }).combway = s.combway := by
    obtain ⟨hrd, hbellows, hcombway⟩ := ht
    refine ⟨hrd, ⟨b, ?_⟩, hcombway⟩
    rw [hbellows]
    rfl
  unfold comparePartner
  dsimp only
  split
  · exact hset _ ⟨fun f hf => s.blwEvent_rd (src := 108) 3 _ (by decide) hf, s.blwEvent_bellows .., s.blwEvent_combway ..⟩ _
  · exact hset _ ⟨fun _ _ => rfl, rfl, rfl⟩ _

/-- What a heartbeat shows of the partner. -/
def State.hear (s : State) (h : Heartbeat) : State :=
  let u := ((s.wr F.BLW_STAT_partner_role h.role.toNat).put F.BLW_STAT_partner_ready h.ready).wr F.BLW_PDIGEST_digest h.digest.toNat
  let ok := if u.mode == 6 then u.mirrorsHold else u.bellows.mirrorOk
  u.setBellows { u.bellows with heard := some h.cycle.toNat, partnerSwap := h.swap.toNat, mirrorOk := ok }

/-- A heartbeat in time ends the count of lost ones. -/
def State.hbFound (s : State) (late : Bool) : State :=
  if late then s else (if 2 ≤ s.rd F.BLW_STAT_hb_lost then s.blwEvent 108 2 else s).wr F.BLW_STAT_hb_lost 0

/-- What follows once a heartbeat is noted. -/
def State.hbActs (s : State) (h : Heartbeat) : State :=
  let ahead := decide (0 < sgn 16 (uns 16 ((h.epoch.toNat : Int) - s.rd F.BLW_STAT_epoch)))
  let role := s.rd F.GLB_STAT_role
  if role = 1 ∧ h.role = 1 ∧ ahead then s.fallSilent
  else if role = 2 ∧ h.role = 1 ∧ !s.combway.silenced then (s.wr F.BLW_STAT_epoch h.epoch.toNat).syncPair
  else s.syncPair

theorem execHeartbeatReceived_eq {h : Heartbeat} (hen : s.on F.BLW_CTL_enable = true) (hlink : s.on F.BLW_STAT_link = true) :
    execHeartbeatReceived h s = .next ((((s.hear h).hbFound (s.heartbeatLate h.cycle.toNat)).syncPair.comparePartner).hbActs h) := by
  have hgo : ¬ ((!s.on F.BLW_CTL_enable || !s.on F.BLW_STAT_link) = true) := by simp [hen, hlink]
  unfold State.hbActs
  dsimp only
  rw [apply_ite Host.Outcome.next, apply_ite Host.Outcome.next]
  exact if_neg hgo

theorem State.hbFound_keeps (late : Bool) : (∀ f : Fld, f.Sep F.BLW_STAT_hb_lost → f.addr 0 0 ∉ eventWords → (s.hbFound late).rd f = s.rd f)
    ∧ (late = false → (s.hbFound late).rd F.BLW_STAT_hb_lost = 0) ∧ (s.hbFound late).bellows = s.bellows
    ∧ (s.hbFound late).combway = s.combway := by
  obtain ⟨u, hu⟩ : ∃ u, u = if 2 ≤ s.rd F.BLW_STAT_hb_lost then s.blwEvent 108 2 else s := ⟨_, rfl⟩
  have hkeeps : (∀ f : Fld, f.addr 0 0 ∉ eventWords → u.rd f = s.rd f) ∧ u.bellows = s.bellows ∧ u.combway = s.combway := by
    rw [hu]
    split
    · exact ⟨fun f hf => s.blwEvent_rd 2 _ (by decide) hf, s.blwEvent_bellows .., s.blwEvent_combway ..⟩
    · exact ⟨fun _ _ => rfl, rfl, rfl⟩
  obtain ⟨hrd, hbellows, hcombway⟩ := hkeeps
  unfold hbFound
  rw [← hu]
  split
  · rename_i h
    exact ⟨fun _ _ _ => rfl, fun h' => absurd (h.symm.trans h') (by decide), rfl, rfl⟩
  · exact ⟨fun f hf hev => (rd_wr_sep _ hf).trans (hrd f hev), fun _ => rd_wr_same _ (by decide), hbellows, hcombway⟩

/-- The partner as a heartbeat shows it, on the way to what follows. -/
theorem State.noted_shows (h : Heartbeat) (late : Bool) {v : State} (hv : v = ((s.hear h).hbFound late).syncPair.comparePartner) :
    v.rd F.BLW_STAT_partner_role = h.role.toNat ∧ v.rd F.BLW_PDIGEST_digest = h.digest.toNat
      ∧ v.rd F.GLB_STAT_role = s.rd F.GLB_STAT_role ∧ v.rd F.BLW_STAT_epoch = s.rd F.BLW_STAT_epoch
      ∧ (late = false → v.rd F.BLW_STAT_hb_lost = 0) ∧ v.bellows.heard = some h.cycle.toNat ∧ v.bellows.partnerSwap = h.swap.toNat
      ∧ v.combway = s.combway := by
  obtain ⟨a, ha⟩ : ∃ a, a = s.hear h := ⟨_, rfl⟩
  obtain ⟨b, hb⟩ : ∃ b, b = a.hbFound late := ⟨_, rfl⟩
  rw [← ha, ← hb] at hv
  obtain ⟨hbrd, hblost, hbbellows, hbcombway⟩ := a.hbFound_keeps late
  obtain ⟨hvrd, ⟨m, hvbellows⟩, hvcombway⟩ := b.syncPair.comparePartner_keeps
  rw [← hb] at hbrd hblost hbbellows hbcombway
  rw [← hv] at hvrd hvbellows hvcombway
  have hard (f : Fld) : a.rd f = (((s.wr F.BLW_STAT_partner_role h.role.toNat).put F.BLW_STAT_partner_ready h.ready).wr
      F.BLW_PDIGEST_digest h.digest.toNat).rd f := by rw [ha]; rfl
  have hstat {f : Fld} (h1 : f.Sep F.BLW_STAT_ready) (h2 : f.Sep F.BLW_DIGEST_digest) (h3 : f.Sep F.BLW_STAT_hb_lost)
      (h4 : f.addr 0 0 ∉ eventWords) : v.rd f = a.rd f := by
    rw [hvrd f h4, syncPair_stat h1 h2, hbrd f h3 h4]
  have habellows : a.bellows.heard = some h.cycle.toNat ∧ a.bellows.partnerSwap = h.swap.toNat := by
    rw [ha]
    exact ⟨rfl, rfl⟩
  have hacombway : a.combway = s.combway := by
    rw [ha]
    rfl
  refine ⟨?_, ?_, ?_, ?_, fun hl => ?_, ?_, ?_, ?_⟩
  · rw [hstat (by decide) (by decide) (by decide) (by decide), hard, rd_wr_sep _ (by decide), put_eq, rd_wr_sep _ (by decide)]
    exact rd_wr_lt _ h.role.isLt (by decide)
  · rw [hstat (by decide) (by decide) (by decide) (by decide), hard]
    exact rd_wr_lt _ h.digest.isLt (by decide)
  · rw [hstat (by decide) (by decide) (by decide) (by decide), hard, rd_wr_sep _ (by decide), put_eq, rd_wr_sep _ (by decide), rd_wr_sep _ (by decide)]
  · rw [hstat (by decide) (by decide) (by decide) (by decide), hard, rd_wr_sep _ (by decide), put_eq, rd_wr_sep _ (by decide), rd_wr_sep _ (by decide)]
  · rw [hvrd _ (by decide), syncPair_stat (by decide) (by decide), hblost hl]
  · rw [hvbellows, syncPair_bellows, hbbellows]
    exact habellows.1
  · rw [hvbellows, syncPair_bellows, hbbellows]
    exact habellows.2
  · rw [hvcombway, syncPair_combway, hbcombway, hacombway]

theorem execHeartbeatReceived_follows {h : Heartbeat} (hen : s.on F.BLW_CTL_enable = true) (hlink : s.on F.BLW_STAT_link = true)
    (hrole : s.rd F.GLB_STAT_role = 2) (hactive : h.role = 1) (hloud : s.combway.silenced = false) (hlost : s.bellows.lost = none) :
    ∃ t, execHeartbeatReceived h s = .next t ∧ t.rd F.BLW_STAT_epoch = h.epoch.toNat ∧ t.rd F.BLW_STAT_partner_role = 1
      ∧ t.rd F.BLW_PDIGEST_digest = h.digest.toNat ∧ t.rd F.BLW_STAT_hb_lost = 0 ∧ t.bellows.heard = some h.cycle.toNat
      ∧ t.bellows.partnerSwap = h.swap.toNat := by
  obtain ⟨v, hv⟩ : ∃ v, v = ((s.hear h).hbFound (s.heartbeatLate h.cycle.toNat)).syncPair.comparePartner := ⟨_, rfl⟩
  obtain ⟨hprole, hpdigest, hvrole, -, hzero, hheard, hswap, hcombway⟩ := s.noted_shows h _ hv
  have htime : s.heartbeatLate h.cycle.toNat = false := by
    rw [State.heartbeatLate, hlost]
    rfl
  have hexec : execHeartbeatReceived h s = .next (v.wr F.BLW_STAT_epoch h.epoch.toNat).syncPair := by
    rw [execHeartbeatReceived_eq hen hlink, ← hv, State.hbActs, hvrole, hrole, hcombway, hloud, hactive]
    rfl
  refine ⟨_, hexec, ?_, ?_, ?_, ?_, ?_, ?_⟩
  · rw [State.syncPair_stat (by decide) (by decide)]
    exact State.rd_wr_lt _ h.epoch.isLt (by decide)
  · rw [State.syncPair_stat (by decide) (by decide), State.rd_wr_sep _ (by decide), hprole, hactive]
    rfl
  · rw [State.syncPair_rd (by decide), State.rd_wr_sep _ (by decide), hpdigest]
  · rw [State.syncPair_stat (by decide) (by decide), State.rd_wr_sep _ (by decide), hzero htime]
  · rw [State.syncPair_bellows]
    exact hheard
  · rw [State.syncPair_bellows]
    exact hswap

/-- Every descriptor of a list is completed. -/
theorem State.foldl_complete_desc {l : List Desc} (status : Nat) (h : ∀ d ∈ s.hif.desc, d ∈ l) :
    (l.foldl (fun s d => s.complete d.id status) s).hif.desc = [] := by
  induction l generalizing s with
  | nil => exact List.eq_nil_iff_forall_not_mem.2 fun d hd => absurd (h d hd) List.not_mem_nil
  | cons a l ih =>
    rw [List.foldl_cons]
    refine ih fun d hd => ?_
    rw [complete_hif_desc, List.mem_filter] at hd
    obtain ⟨hmem, hid⟩ := hd
    obtain rfl | hl := List.mem_cons.1 (h d hmem)
    · simp at hid
    · exact hl

theorem State.followPartner_silenced : s.followPartner.combway.silenced = s.combway.silenced := by
  unfold followPartner
  rw [foldl_keeps (fun t : State => t.combway.silenced) fun t g _ => ?_]
  split
  · rfl
  · rw [setMaster_combway]
    rfl

/-- A silent device completes every descriptor. -/
theorem State.fallSilent_silences (h : s.combway.silenced = false) : s.fallSilent.combway.silenced = true ∧ s.fallSilent.hif.desc = [] := by
  obtain ⟨d, hd⟩ : ∃ d, d = detail [(4, s.tim.cycle)] := ⟨_, rfl⟩
  obtain ⟨u, hu⟩ : ∃ u, u = { s with combway := { s.combway with silenced := true } }.raise 109 2 0xFFFF d := ⟨_, rfl⟩
  obtain ⟨v, hv⟩ : ∃ v, v = if u.mode = 3 ∨ u.mode = 4 then ((u.setMode 6 15).wr F.GLB_STAT_role 2).followPartner else u := ⟨_, rfl⟩
  have hsilent : u.combway.silenced = true := by rw [hu, raise_combway]
  have hvsilent : v.combway.silenced = true := by
    have hset : (u.setMode 6 15).combway = u.combway := by rw [u.setMode_sameButMode 6 15]
    rw [hv]
    split
    · rw [followPartner_silenced, wr_combway, hset, hsilent]
    · exact hsilent
  have heq : s.fallSilent = v.hif.desc.foldl (fun s d => s.complete d.id 0xE2) v := by
    unfold fallSilent
    rw [if_neg (by simp [h])]
    dsimp only
    rw [← hd, ← hu, ← hv]
  rw [heq]
  refine ⟨?_, foldl_complete_desc 0xE2 fun d hd => hd⟩
  rw [foldl_keeps (fun t : State => t.combway.silenced) fun t d _ => ?_, hvsilent]
  rw [complete_combway]

theorem execHeartbeatReceived_silences {h : Heartbeat} (hen : s.on F.BLW_CTL_enable = true) (hlink : s.on F.BLW_STAT_link = true)
    (hrole : s.rd F.GLB_STAT_role = 1) (hactive : h.role = 1) (hloud : s.combway.silenced = false)
    (hahead : 0 < sgn 16 (uns 16 ((h.epoch.toNat : Int) - s.rd F.BLW_STAT_epoch))) :
    ∃ t, execHeartbeatReceived h s = .next t ∧ t.combway.silenced = true ∧ t.hif.desc = [] := by
  obtain ⟨v, hv⟩ : ∃ v, v = ((s.hear h).hbFound (s.heartbeatLate h.cycle.toNat)).syncPair.comparePartner := ⟨_, rfl⟩
  obtain ⟨-, -, hvrole, hepoch, -, -, -, hcombway⟩ := s.noted_shows h _ hv
  have hexec : execHeartbeatReceived h s = .next v.fallSilent := by
    rw [execHeartbeatReceived_eq hen hlink, ← hv, State.hbActs, hvrole, hrole, hepoch, decide_eq_true hahead, hactive]
    rfl
  obtain ⟨hs, hd⟩ := v.fallSilent_silences (by rw [hcombway]; exact hloud)
  exact ⟨_, hexec, hs, hd⟩

theorem execHeartbeatLost_finds (hen : s.on F.BLW_CTL_enable = true) (hrun : s.running = true) (hnext : s.nextJudged = s.tim.cycle)
    (hone : s.rd F.BLW_STAT_hb_lost = 1) (hev : s.takesEvent 108) :
    ∃ t, execHeartbeatLost s = .next t ∧ t.rd F.BLW_STAT_hb_lost = 2 ∧ t.bellows.lost = some s.tim.cycle ∧ t.hasEvent 108 1 0xFFFF := by
  obtain ⟨a, v, n, ha, hv, hexec⟩ : ∃ a v n, a = (s.advanceCell n).bump F.BLW_STAT_hb_lost
      ∧ v = a.setBellows { a.bellows with lost := some s.nextJudged }
      ∧ execHeartbeatLost s = .next ((if v.rd F.BLW_STAT_hb_lost = 2 then v.blwEvent 108 1 else v).syncPair) := by
    have hago : sgn 32 (uns 32 ((s.tim.cycle : Int) - s.nextJudged)) = 0 := by
      rw [hnext, Int.sub_self]
      rfl
    have hgo : ¬ ((!s.on F.BLW_CTL_enable || !s.running || decide (sgn 32 (uns 32 ((s.tim.cycle : Int) - s.nextJudged)) < 0)) = true) := by
      rw [hago, hen, hrun]
      decide
    exact ⟨_, _, _, rfl, rfl, if_neg hgo⟩
  have htwo : v.rd F.BLW_STAT_hb_lost = 2 := by
    have hbump : a.rd F.BLW_STAT_hb_lost = 2 := by
      rw [ha, State.rd_bump_same _ (by decide), State.advanceCell_rd, hone]
      rfl
    rw [hv]
    exact hbump
  have hvev : v.takesEvent 108 := by
    have hadv : (s.advanceCell n).takesEvent 108 := s.takesEvent_advanceCell hev n
    have haev : a.takesEvent 108 := by
      rw [ha, State.bump_eq]
      exact State.takesEvent_wr hadv (by decide)
    rw [hv]
    exact haev
  rw [htwo, if_pos rfl] at hexec
  refine ⟨_, hexec, ?_, ?_, ?_⟩
  · rw [State.syncPair_stat (by decide) (by decide), State.blwEvent_rd _ _ (by decide) (by decide), htwo]
  · rw [State.syncPair_bellows, State.blwEvent_bellows, hv, ← hnext]
    rfl
  · rw [State.hasEvent, State.syncPair_hif, State.blwEvent]
    exact State.raise_hasEvent _ _ _ hvev

/-! ## The mirror set (R430) -/

/-- The rings and cell time, which the mirror set leaves alone. -/
def State.outside (s : State) : Hif × Tim := (s.hif, s.tim)

theorem State.mirrorAxes_outside (l : List MirrorAxis) (b : Bool) :
    (l.foldl (fun p a => let (s, f) := p.1.mirrorAxis a; (s, p.2 || f)) (s, b)).1.outside = s.outside :=
  foldl_keeps (f := fun p a => let (s, f) := p.1.mirrorAxis a; (s, p.2 || f)) (fun p : State × Bool => p.1.outside) (fun _ _ _ => rfl) (s, b)

/-- The items of a mirror cycle beside the axes and the pairing's own state. -/
def State.mirrorItems (s : State) (m : Mirror) (far : Bool) : State :=
  let s := if far then s.bump F.BLW_ERR_shadow_diff else s
  let s := m.windows.foldl (fun s w => s.mirrorWindow w) s
  let s := m.chains.foldl (fun s c => s.mirrorChain c) s
  let s := m.keepers.foldl (fun s k => s.mirrorKeeper k) s
  m.contexts.foldl (fun s p => (Mirror.words p.1 p.2 s).wr F.HIV_CTX0_state 4 p.1) s

theorem State.mirrorItems_outside (m : Mirror) (far : Bool) : (s.mirrorItems m far).outside = s.outside := by
  have hwords (t : State) (c : Nat) (l : List Word) : (Mirror.words c l t).outside = t.outside := by
    refine foldl_keeps outside (fun u i _ => ?_) t
    split
    · rfl
    · rfl
  unfold mirrorItems
  dsimp only
  rw [foldl_keeps outside fun t p _ => ?_, foldl_keeps (f := fun s k => s.mirrorKeeper k) outside fun _ _ _ => rfl,
    foldl_keeps (f := fun s c => s.mirrorChain c) outside fun _ _ _ => rfl,
    foldl_keeps (f := fun s w => s.mirrorWindow w) outside fun _ _ _ => rfl]
  · split
    · rfl
    · rfl
  · exact Eq.trans rfl (hwords t p.1 p.2)

theorem execMirrorApply_other {m : Mirror} (h : s.mode ≠ 6) : execMirrorApply m s = .next s := if_pos (.inl h)

section Mirror
variable {m : Mirror} (hmode : s.mode = 6) (hen : s.on F.BLW_CTL_enable = true) (hlink : s.on F.BLW_STAT_link = true)
include hmode hen hlink

theorem execMirrorApply_incomplete (h : m.complete = false) :
    execMirrorApply m s = .next ((s.bump F.BLW_ERR_incomplete).setBellows { s.bellows with mirrors := 0 }) :=
  (if_neg (by simp [hmode, hen, hlink])).trans (if_pos (by simp [h]))

theorem execMirrorApply_applies (h : m.complete = true) :
    ∃ t, execMirrorApply m s = .next t ∧ t.rd F.BLW_MIRROR_age = 0 ∧ t.bellows.mirrorAt = some s.tim.cycle ∧ t.hif = s.hif
      ∧ t.rd F.BLW_MIRROR_kib = m.kib.toNat % 2 ^ 16 := by
  obtain ⟨u, b, hu, hb, happly⟩ : ∃ (u : State) (b : Bellows), u.outside = s.outside ∧ b.mirrorAt = some u.tim.cycle
      ∧ s.applyMirror m = (((u.setBellows b).wr F.BLW_MIRROR_age 0).wr F.BLW_MIRROR_kib m.kib.toNat).syncPair := by
    have hfold := s.mirrorAxes_outside m.axes false
    unfold State.applyMirror
    generalize m.axes.foldl _ (s, false) = p at hfold ⊢
    obtain ⟨a, far⟩ := p
    exact ⟨a.mirrorItems m far, _, (a.mirrorItems_outside m far).trans hfold, rfl, rfl⟩
  have hexec : execMirrorApply m s = .next (s.applyMirror m) := (if_neg (by simp [hmode, hen, hlink])).trans (if_neg (by simp [h]))
  simp only [State.outside, Prod.mk.injEq] at hu
  obtain ⟨hhif, htim⟩ := hu
  rw [happly] at hexec
  refine ⟨_, hexec, ?_, ?_, ?_, ?_⟩
  · rw [State.syncPair_rd (by decide), State.rd_wr_sep _ (by decide), State.rd_wr_same _ (by decide)]
    rfl
  · rw [State.syncPair_bellows, ← htim]
    exact hb
  · rw [State.syncPair_hif, ← hhif]
    rfl
  · rw [State.syncPair_rd (by decide), State.rd_wr_same _ (by decide)]
    rfl
end Mirror

/-! ## Lanes (R428, R441) -/

section Lanes
variable {n : Fin 4}

theorem execLaneLoss_none (h : bitAt (s.rd F.BLW_STAT_lanes) n = false) : execLaneLoss n s = .next s := if_pos (by simp [h])

theorem execLaneLoss_reports (hup : bitAt (s.rd F.BLW_STAT_lanes) n = true) (hev : s.takesEvent 110) :
    ∃ t, execLaneLoss n s = .next t ∧ bitAt (t.rd F.BLW_STAT_lanes) n = false ∧ t.hasEvent 110 1 0xFFFF
      ∧ (∀ k, k < 4 → k ≠ n.val → bitAt (t.rd F.BLW_STAT_lanes) k = bitAt (s.rd F.BLW_STAT_lanes) k)
      ∧ (s.rd F.BLW_STAT_lanes = 2 ^ n.val → t.rd F.BLW_STAT_link = 0) := by
  obtain ⟨v, hv⟩ : ∃ v, v = s.wrBit F.BLW_STAT_lanes n false := ⟨_, rfl⟩
  obtain ⟨d, hd⟩ : ∃ d, d = detail [(0, n.val)] := ⟨_, rfl⟩
  obtain ⟨e, he⟩ : ∃ e, e = v.blwEvent 110 1 d := ⟨_, rfl⟩
  have hexec : execLaneLoss n s = .next (if e.rd F.BLW_STAT_lanes ≠ 0 then e else ((e.wr F.BLW_STAT_link 0).blwEvent 110 3).syncPair) := by
    unfold execLaneLoss
    rw [if_neg (by simp [hup])]
    dsimp only
    rw [← hd, ← hv, ← he, apply_ite Host.Outcome.next]
  have hlanes (k : Nat) (hk : k < 4) : bitAt (e.rd F.BLW_STAT_lanes) k = if k = n.val then false else bitAt (s.rd F.BLW_STAT_lanes) k := by
    rw [he, State.blwEvent_rd _ _ (by decide) (by decide), hv]
    exact State.bitAt_rd_wrBit _ hk (by decide)
  have hevent : e.hasEvent 110 1 0xFFFF := by
    rw [he, State.blwEvent]
    exact State.raise_hasEvent _ _ _ (by rw [hv, State.wrBit_eq]; exact State.takesEvent_wr hev (by decide))
  by_cases hzero : e.rd F.BLW_STAT_lanes = 0
  · rw [if_neg (not_not.2 hzero)] at hexec
    have hsame : (((e.wr F.BLW_STAT_link 0).blwEvent 110 3).syncPair).rd F.BLW_STAT_lanes = e.rd F.BLW_STAT_lanes := by
      rw [State.syncPair_stat (by decide) (by decide), State.blwEvent_rd _ _ (by decide) (by decide), State.rd_wr_sep _ (by decide)]
    refine ⟨_, hexec, ?_, ?_, fun k hk hne => ?_, fun _ => ?_⟩
    · rw [hsame, hlanes n n.isLt, if_pos rfl]
    · have hkept : (e.wr F.BLW_STAT_link 0).hasEvent 110 1 0xFFFF := hevent
      rw [State.hasEvent, State.syncPair_hif, State.blwEvent]
      exact State.hasEvent_raise _ _ _ _ hkept
    · rw [hsame, hlanes k hk, if_neg hne]
    · rw [State.syncPair_stat (by decide) (by decide), State.blwEvent_rd _ _ (by decide) (by decide), State.rd_wr_same _ (by decide)]
      rfl
  · rw [if_pos hzero] at hexec
    refine ⟨_, hexec, ?_, hevent, fun k hk hne => ?_, fun hlast => absurd ?_ hzero⟩
    · rw [hlanes n n.isLt, if_pos rfl]
    · rw [hlanes k hk, if_neg hne]
    · refine Nat.eq_of_testBit_eq fun k => ?_
      rw [Nat.zero_testBit]
      by_cases hk : k < 4
      · refine (hlanes k hk).trans ?_
        split
        · rfl
        · rename_i hne
          rw [hlast, bitAt, Nat.testBit_two_pow_of_ne (Ne.symm hne)]
      · refine Nat.testBit_lt_two_pow ((e.rd_lt F.BLW_STAT_lanes 0 0).trans_le (Nat.pow_le_pow_right (by decide) ?_))
        simp only [F.BLW_STAT_lanes]
        omega


theorem execLaneRestore_none (h : s.on F.BLW_CTL_enable = false ∨ bitAt (s.rd F.BLW_STAT_lanes) n = true) :
    execLaneRestore n s = .next s := if_pos (by simpa using h)

theorem execLaneRestore_joins (hen : s.on F.BLW_CTL_enable = true) (hdown : bitAt (s.rd F.BLW_STAT_lanes) n = false)
    (hev : s.takesEvent 110) :
    ∃ t, execLaneRestore n s = .next t ∧ bitAt (t.rd F.BLW_STAT_lanes) n = true ∧ t.rd F.BLW_STAT_link = 1 ∧ t.hasEvent 110 2 0xFFFF := by
  obtain ⟨v, hv⟩ : ∃ v, v = (s.wrBit F.BLW_STAT_lanes n true).wr F.BLW_STAT_link 1 := ⟨_, rfl⟩
  obtain ⟨d, hd⟩ : ∃ d, d = detail [(0, n.val)] := ⟨_, rfl⟩
  have hexec : execLaneRestore n s = .next (v.blwEvent 110 2 d).syncPair := by
    rw [hd, hv]
    exact if_neg (by simp [hen, hdown])
  have hvev : v.takesEvent 110 := by
    rw [hv, State.wrBit_eq]
    exact State.takesEvent_wr (State.takesEvent_wr hev (by decide)) (by decide)
  refine ⟨_, hexec, ?_, ?_, ?_⟩
  · rw [State.syncPair_stat (by decide) (by decide), State.blwEvent_rd _ _ (by decide) (by decide), hv, State.rd_wr_sep _ (by decide)]
    exact (State.bitAt_rd_wrBit _ n.isLt (by decide)).trans (if_pos rfl)
  · rw [State.syncPair_stat (by decide) (by decide), State.blwEvent_rd _ _ (by decide) (by decide), hv, State.rd_wr_same _ (by decide)]
    rfl
  · rw [State.hasEvent, State.syncPair_hif, State.blwEvent]
    exact State.raise_hasEvent _ _ _ hvev
end Lanes
end Pair

/-- Settles O43. -/
theorem pairCommands : Obligations.PairCommands := by
  unfold Obligations.PairCommands
  exact ⟨fun _ h => execRoleDecision_none h, fun _ hr hm h => execRoleDecision_active hr hm h, fun _ hr hm h => execRoleDecision_standby hr hm h,
    fun _ he hl ho hp hm hr => execBellowsLinkTimeout_primary he hl ho hp hm hr,
    fun _ he hl ho hp hev => execBellowsLinkTimeout_reports he hl ho hp hev, fun _ h => exec_disabled h, fun _ _ h => execBellowsDisable_dropped h,
    fun _ _ hp he => execBellowsDisable_disables hp he, fun _ he hr hrole => execHeartbeatSend_standby he hr hrole,
    fun _ _ he hl hr ha hs hlost => execHeartbeatReceived_follows he hl hr ha hs hlost,
    fun _ _ he hl hr ha hs hahead => execHeartbeatReceived_silences he hl hr ha hs hahead,
    fun _ he hr hn ho hev => execHeartbeatLost_finds he hr hn ho hev, fun _ _ h => execMirrorApply_other h,
    fun _ _ hm he hl h => execMirrorApply_incomplete hm he hl h, fun _ _ hm he hl h => execMirrorApply_applies hm he hl h,
    fun _ _ h => execLaneLoss_none h, fun _ _ hu hev => execLaneLoss_reports hu hev, fun _ _ h => execLaneRestore_none h,
    fun _ _ he hd hev => execLaneRestore_joins he hd hev⟩

end Sys2Proof.Machine

/-! Proofs about takeover and the planned swap (R434 to R439). -/

namespace Sys2Proof.Machine

section Takeover
variable {s : State}

/-! ## What the end of the motions leaves -/

theorem State.foldl_endMoving_view (l : List Nat) : (l.foldl (fun s c => s.endMoving c) s).pairView = s.pairView :=
  foldl_keeps (f := fun (s : State) c => s.endMoving c) State.pairView (fun t c _ => t.pairView_endMoving c) s

/-! ## Takeover (R434, R435) -/

theorem execTakeover_other (h : s.mode ≠ 6) : execTakeover s = .next s := by
  unfold execTakeover
  split
  · rfl
  · dsimp only
    split
    · rfl
    · exact if_pos (.inl h)

theorem State.isReady_advanceCell (n : Nat) : (s.advanceCell n).isReady = s.isReady := by
  obtain ⟨k, cell, -, h⟩ := s.advanceCell_eq n
  rw [h]
  rfl

section Due
variable {g k : Nat} (hg : s.timingSeg = some g)
  (hk : (List.range (Sched.slots (s.sched g))).find? (fun k => (Sched.slot (s.sched g) k).owner == s.ownNode g) = some k)
  (hmode : s.mode = 6) (hen : s.on F.BLW_CTL_enable = true) (hrun : s.running = true) (hloud : s.combway.silenced = false)
  (hlost : 2 ≤ s.rd F.BLW_STAT_hb_lost) (hnow : s.bellows.lost = some s.tim.cycle) (hmiss : s.frameMissing g k = true)
include hg hk hmode hen hrun hloud hlost hnow hmiss

/-- A standby whose active partner is lost, at the end of the pair's first slot. -/
theorem execTakeover_due : ∃ n, execTakeover s = .next (if !(s.advanceCell n).isReady then
      (s.advanceCell n).blwEvent 109 3 (detail [(4, (s.advanceCell n).tim.cycle)])
    else (List.range 16).foldl (fun s c => s.endMoving c) ((s.advanceCell n).becomeActive 3)) := by
  have hgo : ¬ (s.mode ≠ 6 ∨ (!s.on F.BLW_CTL_enable) = true ∨ (!s.running) = true ∨ s.combway.silenced = true ∨ s.rd F.BLW_STAT_hb_lost < 2
      ∨ s.bellows.lost ≠ some s.tim.cycle ∨ (!s.frameMissing g k) = true) := by
    rw [hmode, hen, hrun, hloud, hnow, hmiss]
    simp only [not_or]
    exact ⟨not_not.2 rfl, by decide, by decide, by decide, by omega, not_not.2 rfl, by decide⟩
  unfold execTakeover
  rw [hg]
  dsimp only
  rw [hk]
  dsimp only
  rw [if_neg hgo]
  exact ⟨_, (apply_ite Host.Outcome.next _ _ _).symm⟩

theorem execTakeover_takes (hready : s.isReady = true) (hnum : ∀ p ∈ s.bellows.numbers, p.1 < 128) :
    ∃ t, execTakeover s = .next t ∧ t.rd F.GLB_STAT_role = 1 ∧ t.mode = (if s.bellows.mode = 4 then 4 else 3)
      ∧ t.rd F.BLW_STAT_epoch = (s.rd F.BLW_STAT_epoch + 1) % 2 ^ 16 := by
  obtain ⟨n, hexec⟩ := execTakeover_due hg hk hmode hen hrun hloud hlost hnow hmiss
  rw [State.isReady_advanceCell, hready, if_neg (by decide)] at hexec
  obtain ⟨k', cell, -, hadv⟩ := s.advanceCell_eq n
  have hbellows : (s.advanceCell n).bellows = s.bellows := by rw [hadv]
  have hview := (State.foldl_endMoving_view (s := (s.advanceCell n).becomeActive 3) (List.range 16)).trans
    ((s.advanceCell n).pairView_becomeActive (by rw [hbellows]; exact hnum) 3)
  rw [hbellows, State.advanceCell_rd] at hview
  obtain ⟨-, -, hm, hr, he⟩ := State.pairView_fields hview
  exact ⟨_, hexec, hr, hm, he⟩

theorem execTakeover_unready (hready : s.isReady = false) (hev : s.takesEvent 109) :
    ∃ t, execTakeover s = .next t ∧ t.mode = 6 ∧ t.rd F.GLB_STAT_role = s.rd F.GLB_STAT_role ∧ t.hasEvent 109 3 0xFFFF := by
  obtain ⟨n, hexec⟩ := execTakeover_due hg hk hmode hen hrun hloud hlost hnow hmiss
  rw [State.isReady_advanceCell, hready, if_pos (by decide)] at hexec
  obtain ⟨d, hd⟩ : ∃ d, d = detail [(4, (s.advanceCell n).tim.cycle)] := ⟨_, rfl⟩
  rw [← hd] at hexec
  refine ⟨_, hexec, ?_, ?_, ?_⟩
  · rw [State.mode, State.blwEvent_rd _ _ (by decide) (by decide), State.advanceCell_rd]
    exact hmode
  · rw [State.blwEvent_rd _ _ (by decide) (by decide), State.advanceCell_rd]
  · rw [State.blwEvent]
    exact State.raise_hasEvent _ _ _ (s.takesEvent_advanceCell hev n)
end Due

/-! ## PAIR_SWAP (R438) -/

section PairSwap
variable {r : Fin 64} {d : Desc} (hstart : s.Starts r 0x0510 d)
include hstart

/-- PAIR_SWAP on its descriptor. -/
theorem execPairSwap_eq : execPairSwap r s = .next (
    if (s.mode ≠ 3 ∧ s.mode ≠ 4) ∨ s.rd F.GLB_STAT_role ≠ 1 then (s.startDesc d).fail d.id 0x15
    else if d.op 32 4 ≠ 0 ∧ sgn 32 (uns 32 ((d.op 32 4 : Int) - s.tim.cycle)) < 8 then (s.startDesc d).fail d.id 0x12 32
    else (s.startDesc d).setBellows { s.bellows with
      swaps := s.bellows.swaps ++ [(d.id, if d.op 32 4 = 0 then (s.tim.cycle + 16) % 2 ^ 32 else d.op 32 4)] }) := by
  have hrole : (s.startDesc d).rd F.GLB_STAT_role = s.rd F.GLB_STAT_role := s.startDesc_rd d (by decide)
  unfold execPairSwap
  rw [hstart.runDesc]
  dsimp only
  rw [hrole, State.startDesc_mode, State.startDesc_tim, State.startDesc_bellows]

theorem execPairSwap_accepts (hmode : s.mode = 3 ∨ s.mode = 4) (hrole : s.rd F.GLB_STAT_role = 1) (hsoon : d.op 32 4 = 0) :
    ∃ t, execPairSwap r s = .next t ∧ t.bellows = { s.bellows with swaps := s.bellows.swaps ++ [(d.id, (s.tim.cycle + 16) % 2 ^ 32)] }
      ∧ t.hif.compl = s.hif.compl := by
  rw [execPairSwap_eq hstart, if_neg (by omega), if_neg (fun h => h.1 hsoon), if_pos hsoon]
  exact ⟨_, rfl, rfl, rfl⟩

theorem execPairSwap_refuses (h : (s.mode ≠ 3 ∧ s.mode ≠ 4) ∨ s.rd F.GLB_STAT_role ≠ 1) :
    ∃ t, execPairSwap r s = .next t ∧ t.Completed d 0x15 ∧ t.bellows = s.bellows := by
  rw [execPairSwap_eq hstart, if_pos h]
  exact ⟨_, rfl, hstart.completed rfl, State.complete_bellows ..⟩

theorem execPairSwap_near (hmode : s.mode = 3 ∨ s.mode = 4) (hrole : s.rd F.GLB_STAT_role = 1) (hlater : d.op 32 4 ≠ 0)
    (hnear : sgn 32 (uns 32 ((d.op 32 4 : Int) - s.tim.cycle)) < 8) :
    ∃ t, execPairSwap r s = .next t ∧ t.Completed d 0x12 ∧ t.bellows = s.bellows := by
  rw [execPairSwap_eq hstart, if_neg (by omega), if_pos ⟨hlater, hnear⟩]
  exact ⟨_, rfl, hstart.completed rfl, State.complete_bellows ..⟩
end PairSwap

/-! ## SWAP_EXECUTE (R438, R439) -/

theorem execSwapExecute_none (a b : Bool) (hmode : s.mode = 3 ∨ s.mode = 4) (h : s.bellows.swaps = []) : execSwapExecute a b s = .next s := by
  unfold execSwapExecute
  split
  · rw [h]
    rfl
  · exact if_neg (by omega)

section OldActive
variable {d : Desc} {c : Nat} (hmode : s.mode = 3 ∨ s.mode = 4) (hrole : s.rd F.GLB_STAT_role = 1)
include hmode hrole

theorem execSwapExecute_out (a b : Bool) (hswaps : s.bellows.swaps = [(d.id, c)]) (hdue : s.swapDue c = true) :
    execSwapExecute a b s = .next (s.swapOut d.id c a b) := by
  unfold execSwapExecute
  rw [if_pos ⟨hmode, hrole⟩, hswaps]
  exact if_pos hdue
end OldActive

/-! ## The class of a ring (R159), which no step of a swap moves -/

namespace State

theorem ringClass_wr (s : State) {f : Fld} {v i j : Nat} (h : f.addr i j % 64 ≠ 8) (r : Nat) : (s.wr f v i j).ringClass r = s.ringClass r :=
  rd_wr_ne _ fun he => h (by rw [← he]; simp only [Fld.addr, F.HIF_SQ_CFG_class]; omega)

/-- Sources 96 to 127 leave the class of a ring, whatever the ring's number. -/
theorem ringClass_events (s : State) (r : Nat) : EventKeeps (· = 3) fun t => t.ringClass r = s.ringClass r where
  wr t f v i hf hi ht := by
    have hi : i = 0 ∨ i = 3 := hi
    refine (ringClass_wr t ?_ r).trans ht
    simp only [List.mem_cons, List.not_mem_nil, or_false] at hf
    rcases hf with rfl | rfl | rfl | rfl | rfl | rfl <;> rcases hi with rfl | rfl <;> decide
  record _ _ _ h := h
  merge _ _ _ _ h := h
  owe _ h := h
  hist _ _ h := h
  queue _ _ _ h := h

variable (s : State) (r : Nat)

theorem ringClass_setMode (m cause : Nat) : (s.setMode m cause).ringClass r = s.ringClass r := by
  have hover : s.overtake.ringClass r = s.ringClass r := by
    obtain h | h := s.overtake_cases
    · rw [h]
    · rw [h, ringClass_wr _ (by decide)]
      rfl
  have hlock : (s.overtake.releaseLock 4).ringClass r = s.ringClass r :=
    releaseLock_holds (ringClass_events s r) rfl hover ((ringClass_wr _ (by decide) r).trans hover) 4
  rw [setMode_eq]
  refine fireMode_holds (ringClass_events s r) rfl ?_ m
  rw [showMode, ringClass_wr _ (by decide), ringClass_wr _ (by decide), ringClass_wr _ (by decide), hlock]

theorem ringClass_setMaster (g node : Nat) : (s.setMaster g node).ringClass r = s.ringClass r := by
  have hshow : (s.showMaster g node).ringClass r = s.ringClass r := by
    have h0 : F.CMB_SYNC_STAT_master_self.addr g 0 % 64 ≠ 8 := by simp only [Fld.addr, F.CMB_SYNC_STAT_master_self]; omega
    have h1 : F.CMB_SYNC_STAT_master.addr g 0 % 64 ≠ 8 := h0
    rw [showMaster, put_eq, ringClass_wr _ h0, ringClass_wr _ h1]
  obtain h | ⟨u, hu, h⟩ := s.setMaster_eq g node
  · rw [h, hshow]
  · rw [h, syncHoldover, put_eq, ringClass_wr _ (by decide), hu, put_eq, ringClass_wr _ (by decide), hshow]

theorem ringClass_enterStandby (cause : Nat) : (s.enterStandby cause).ringClass r = s.ringClass r := by
  have hfollow (t : State) : t.followPartner.ringClass r = t.ringClass r := by
    unfold followPartner
    rw [foldl_keeps (fun t : State => t.ringClass r) fun t g _ => ?_]
    split
    · rfl
    · rw [ringClass_setMaster]
      rfl
  have hshadow (t : State) : t.shadowContexts.ringClass r = t.ringClass r := by
    unfold shadowContexts
    rw [foldl_keeps (fun t : State => t.ringClass r) fun t c _ => ?_]
    split
    · exact t.ringClass_wr (by simp only [Fld.addr, F.HIV_CTX0_state]; omega) r
    · rfl
  rw [enterStandby, hshadow, hfollow, ringClass_wr _ (by decide), ringClass_setMode]

/-- What a chain holds of its motions goes. -/
def dropMotion (s : State) (c : Nat) : State :=
  s.setChain c { s.chain c with
    queue := [], cur := none, resumes := [], scales := [], halt := (s.chain c).halt.map fun h => { h with waiting := [] } }

/-- Without a descriptor of a MOTION ring the end of the motions completes nothing. -/
theorem endMotion_view {s : State} (h : ∀ d ∈ s.hif.desc, s.ringClass d.ring ≠ 1) : s.endMotion.pairView = s.pairView := by
  obtain ⟨u, hu⟩ : ∃ u, u = (List.range 16).foldl dropMotion s := ⟨_, rfl⟩
  have hend : s.endMotion = (u.hif.desc.filter fun d => u.ringClass d.ring == 1).foldl (fun s d => s.fail d.id 0x15) u := by
    rw [hu]
    rfl
  have hview : u.pairView = s.pairView := by
    rw [hu]
    exact foldl_keeps (f := dropMotion) pairView (fun _ _ _ => rfl) s
  have hclass (r : Nat) : u.ringClass r = s.ringClass r := by
    rw [hu]
    exact foldl_keeps (f := dropMotion) (fun t : State => t.ringClass r) (fun _ _ _ => rfl) s
  have hdesc : u.hif.desc = s.hif.desc := by
    rw [hu]
    exact foldl_keeps (f := dropMotion) (fun t : State => t.hif.desc) (fun _ _ _ => rfl) s
  have hnone : (u.hif.desc.filter fun d => u.ringClass d.ring == 1) = [] := by
    rw [List.filter_eq_nil_iff, hdesc]
    intro d hd
    rw [hclass]
    simpa using h d hd
  rw [hend, hnone]
  exact hview

end State

/-! ## The swap on the old active (R438) -/

theorem State.swapOut_list {d : Desc} {c : Nat} (hswaps : s.bellows.swaps = [(d.id, c)]) : s.bellows.swaps.filter (·.1 != d.id) = [] := by
  rw [hswaps]
  simp

section OldActive
variable {d : Desc} {c : Nat} (hmode : s.mode = 3 ∨ s.mode = 4) (hrole : s.rd F.GLB_STAT_role = 1) (hswaps : s.bellows.swaps = [(d.id, c)])
  (hdue : s.swapDue c = true) (hquiet : d.quiet = false)
include hmode hrole hswaps hdue hquiet

/-- A swap that has come completes its descriptor with the result of what went before. -/
theorem execSwapExecute_completes {a b : Bool} {u : State} {code : Nat} {m r e : Nat} (hview : u.pairView = ({ s.bellows with swaps := [] }, [d], m, r, e))
    (hexec : ∃ l, s.swapOut d.id c a b = (u.swapEvent code c).complete d.id 1 0 l) :
    ∃ t, execSwapExecute a b s = .next t ∧ t.mode = m ∧ t.rd F.GLB_STAT_role = r ∧ t.bellows.swaps = [] ∧ t.Completed d 1 := by
  obtain ⟨l, hout⟩ := hexec
  obtain ⟨w, hw⟩ : ∃ w, w = detail [(0, code), (4, c)] := ⟨_, rfl⟩
  obtain ⟨v, hv⟩ : ∃ v, v = u.raise 111 1 0xFFFF w := ⟨_, rfl⟩
  have hvview : v.pairView = ({ s.bellows with swaps := [] }, [d], m, r, e) := by
    rw [hv, State.pairView_raise _ _ _ _ (by decide), hview]
  obtain ⟨hb, hd, hm, hr, -⟩ := State.pairView_fields hvview
  have hswap : u.swapEvent code c = v := by
    rw [State.swapEvent, State.blwEvent, ← hw, hv]
  have hfind : v.hif.desc.find? (·.id == d.id) = some d := by
    rw [hd]
    exact List.find?_cons_of_pos (beq_self_eq_true d.id)
  rw [hswap] at hout
  refine ⟨v.complete d.id 1 0 l, ?_, ?_, ?_, ?_, State.complete_completed_of_find hfind rfl rfl hquiet⟩
  · rw [execSwapExecute_out hmode hrole a b hswaps hdue, hout]
  · rw [State.mode, State.complete_rd_low _ _ _ _ _ _ (by decide)]
    exact hm
  · rw [State.complete_rd_low _ _ _ _ _ _ (by decide), hr]
  · rw [State.complete_bellows, hb]

variable (hdesc : s.hif.desc = [d])
include hdesc

theorem execSwapExecute_yields (hpartner : s.on F.BLW_STAT_partner_ready = true) (hlost : s.rd F.BLW_STAT_hb_lost = 0)
    (hclass : s.ringClass d.ring ≠ 1) :
    ∃ t, execSwapExecute true true s = .next t ∧ t.mode = 6 ∧ t.rd F.GLB_STAT_role = 2 ∧ t.bellows.swaps = [] ∧ t.Completed d 1 := by
  obtain ⟨u, hu⟩ : ∃ u, u = s.setBellows { s.bellows with swaps := [] } := ⟨_, rfl⟩
  obtain ⟨v, hv⟩ : ∃ v, v = u.enterStandby 4 := ⟨_, rfl⟩
  have hview : v.pairView = ({ s.bellows with swaps := [] }, [d], 6, 2, s.rd F.BLW_STAT_epoch) := by
    rw [hv, State.pairView_enterStandby, hu, ← hdesc]
    rfl
  have hmotion : v.endMotion.pairView = v.pairView := by
    obtain ⟨-, hd, -, -, -⟩ := State.pairView_fields hview
    refine State.endMotion_view fun e he => ?_
    rw [hd, List.mem_singleton] at he
    rw [he, hv, State.ringClass_enterStandby, hu]
    exact hclass
  refine execSwapExecute_completes hmode hrole hswaps hdue hquiet (u := v.endMotion) (code := 0) (hmotion.trans hview) ?_
  have hlist := State.swapOut_list hswaps
  refine ⟨result [(16, 1, 0), (20, 4, c)], ?_⟩
  unfold State.swapOut
  dsimp only
  rw [hpartner, hlost, hlist, ← hu, ← hv]
  rfl

theorem execSwapExecute_refuses (a b : Bool) (hpartner : s.on F.BLW_STAT_partner_ready = false) :
    ∃ t, execSwapExecute a b s = .next t ∧ t.mode = s.mode ∧ t.rd F.GLB_STAT_role = 1 ∧ t.bellows.swaps = [] ∧ t.Completed d 1 := by
  obtain ⟨u, hu⟩ : ∃ u, u = s.setBellows { s.bellows with swaps := [] } := ⟨_, rfl⟩
  have hview : u.pairView = ({ s.bellows with swaps := [] }, [d], s.mode, 1, s.rd F.BLW_STAT_epoch) := by
    rw [hu, ← hdesc, ← hrole]
    rfl
  refine execSwapExecute_completes hmode hrole hswaps hdue hquiet (u := u) (code := 1) hview ?_
  have hlist := State.swapOut_list hswaps
  refine ⟨result [(16, 1, 1), (20, 4, c)], ?_⟩
  unfold State.swapOut
  dsimp only
  rw [hpartner, hlist, ← hu]
  rfl
end OldActive

/-! ## The swap on the partner (R438, R439) -/

theorem execSwapExecute_takes (hmode : s.mode = 6) (hswap : s.bellows.partnerSwap ≠ 0) (hdue : s.swapDue s.bellows.partnerSwap = true)
    (hready : s.isReady = true) (hlost : s.rd F.BLW_STAT_hb_lost = 0) (hnum : ∀ p ∈ s.bellows.numbers, p.1 < 128) :
    ∃ t, execSwapExecute true true s = .next t ∧ t.rd F.GLB_STAT_role = 1 ∧ t.bellows.partnerSwap = 0
      ∧ t.mode = (if s.bellows.mode = 4 then 4 else 3) := by
  obtain ⟨u, hu⟩ : ∃ u, u = s.setBellows { s.bellows with partnerSwap := 0 } := ⟨_, rfl⟩
  obtain ⟨w, hw⟩ : ∃ w, w = detail [(0, 0), (4, s.bellows.partnerSwap)] := ⟨_, rfl⟩
  have hready' : u.isReady = true := by
    rw [hu]
    exact hready
  have hlost' : u.rd F.BLW_STAT_hb_lost = 0 := by
    rw [hu]
    exact hlost
  have hexec : execSwapExecute true true s = .next ((u.becomeActive 4).raise 111 1 0xFFFF w) := by
    unfold execSwapExecute
    rw [if_neg (by omega), if_pos ⟨hmode, hswap, hdue⟩, State.swapIn]
    dsimp only
    rw [← hu, hready', hlost', if_neg (by decide), hw]
    exact congrArg Host.Outcome.next (if_neg (by decide))
  have hbellows : u.bellows = { s.bellows with partnerSwap := 0 } := by
    rw [hu]
    rfl
  have hview := ((u.becomeActive 4).pairView_raise 1 0xFFFF w (src := 111) (by decide)).trans
    (u.pairView_becomeActive (by rw [hbellows]; exact hnum) 4)
  rw [hbellows] at hview
  obtain ⟨hb, -, hm, hr, -⟩ := State.pairView_fields hview
  exact ⟨_, hexec, hr, by rw [hb], hm⟩
end Takeover

/-- Settles O44: every clause reads the role, the mode and the epoch after it (`State.pairView`). -/
theorem takeoverAndSwap : Obligations.TakeoverAndSwap := by
  unfold Obligations.TakeoverAndSwap
  exact ⟨fun _ h => execTakeover_other h,
    fun _ _ _ hg hk hm he hr hs hl hn hf hready hnum => execTakeover_takes hg hk hm he hr hs hl hn hf hready hnum,
    fun _ _ _ hg hk hm he hr hs hl hn hf hready hev => execTakeover_unready hg hk hm he hr hs hl hn hf hready hev,
    fun _ _ _ hs hm hr h0 => execPairSwap_accepts hs hm hr h0, fun _ _ _ hs h => execPairSwap_refuses hs h,
    fun _ _ _ hs hm hr h0 h8 => execPairSwap_near hs hm hr h0 h8,
    fun _ _ _ hm hr hs hd hp hl hdesc hq hc => execSwapExecute_yields hm hr hs hd hq hdesc hp hl hc,
    fun _ _ _ a b hm hr hs hd hp hdesc hq => execSwapExecute_refuses hm hr hs hd hq hdesc a b hp, fun _ a b hm h => execSwapExecute_none a b hm h,
    fun _ hm hp hd hr hl hn => execSwapExecute_takes hm hp hd hr hl hn⟩

end Sys2Proof.Machine

/-! What later proofs need of images and staging (R464 to R472): the records of the slots and their registers, and the stage lock. -/

namespace Sys2Proof.Machine

namespace State

variable (s : State)

/-! ## Slot records -/

theorem showSlot_onlyRegs (n : Nat) : s.OnlyRegs (s.showSlot n) := by
  unfold showSlot
  exact ((((((OnlyRegs.refl s).wr _ _ _ _).wr _ _ _ _).wr _ _ _ _).wr _ _ _ _).wr _ _ _ _).wr _ _ _ _

@[simp] theorem showSlot_upd (n : Nat) : (s.showSlot n).upd = s.upd := by rw [s.showSlot_onlyRegs n]
@[simp] theorem showSlot_otp (n : Nat) : (s.showSlot n).otp = s.otp := by rw [s.showSlot_onlyRegs n]
@[simp] theorem showSlot_hif (n : Nat) : (s.showSlot n).hif = s.hif := by rw [s.showSlot_onlyRegs n]
@[simp] theorem showSlot_quench (n : Nat) : (s.showSlot n).quench = s.quench := by rw [s.showSlot_onlyRegs n]
@[simp] theorem showSlot_tick (n : Nat) : (s.showSlot n).tick = s.tick := by rw [s.showSlot_onlyRegs n]
@[simp] theorem showSlot_hostMem (n : Nat) : (s.showSlot n).hostMem = s.hostMem := by rw [s.showSlot_onlyRegs n]

theorem showSlot_word {n : Nat} (hn : n < 2) {off : Nat} (h : off < 0x1E0010 ∨ 0x1E0030 ≤ off) : (s.showSlot n).word off = s.word off := by
  have hne (f : Fld) (hs : f.s1 = 0x10) (hf : 0x1E0010 ≤ f.off ∧ f.off < 0x1E0020) : off ≠ f.addr n 0 := by
    simp only [Fld.addr, hs]
    omega
  unfold showSlot
  rw [word_wr_ne _ _ (hne F.UPD_SLOT_REC_rollback rfl (by decide)), word_wr_ne _ _ (hne F.UPD_SLOT_REC_reject rfl (by decide)),
    word_wr_ne _ _ (hne F.UPD_SLOT_REC_trials rfl (by decide)), word_wr_ne _ _ (hne F.UPD_SLOT_REC_state rfl (by decide)),
    word_wr_ne _ _ (hne F.UPD_SLOT_VER_HI_version rfl (by decide)), word_wr_ne _ _ (hne F.UPD_SLOT_VER_LO_version rfl (by decide))]

theorem showSlot_rd {n : Nat} (hn : n < 2) {f : Fld} {i j : Nat} (h : f.addr i j < 0x1E0010 ∨ 0x1E0030 ≤ f.addr i j) :
    (s.showSlot n).rd f i j = s.rd f i j := by rw [rd, rd, s.showSlot_word hn h]

theorem showSlot_state (n : Nat) : (s.showSlot n).rd F.UPD_SLOT_REC_state n = (s.slotRec n).state % 8 := by
  unfold showSlot
  simp (disch := decide) only [rd_wr_sep, rd_wr_same]
  rfl

/-- The state with another record of a slot, before its registers show it. -/
def putSlot (s : State) (n : Nat) (r : SlotRec) : State :=
  { s with upd := if n = 0 then { s.upd with slot0 := r } else { s.upd with slot1 := r } }

theorem setSlot_eq (n : Nat) (r : SlotRec) : s.setSlot n r = (s.putSlot n r).showSlot n := rfl

theorem putSlot_upd (n : Nat) (r : SlotRec) : (s.putSlot n r).upd = { s.upd with slot0 := (s.putSlot n r).upd.slot0, slot1 := (s.putSlot n r).upd.slot1 } := by
  unfold putSlot
  split
  · rfl
  · rfl

/-- A slot's record changes nothing else of the updates. -/
theorem setSlot_upd (n : Nat) (r : SlotRec) : (s.setSlot n r).upd = { s.upd with slot0 := (s.setSlot n r).upd.slot0, slot1 := (s.setSlot n r).upd.slot1 } := by
  rw [setSlot_eq, showSlot_upd]
  exact s.putSlot_upd n r

@[simp] theorem setSlot_otp (n : Nat) (r : SlotRec) : (s.setSlot n r).otp = s.otp := by rw [setSlot_eq, showSlot_otp, putSlot]
@[simp] theorem setSlot_hif (n : Nat) (r : SlotRec) : (s.setSlot n r).hif = s.hif := by rw [setSlot_eq, showSlot_hif, putSlot]
@[simp] theorem setSlot_quench (n : Nat) (r : SlotRec) : (s.setSlot n r).quench = s.quench := by rw [setSlot_eq, showSlot_quench, putSlot]
@[simp] theorem setSlot_tick (n : Nat) (r : SlotRec) : (s.setSlot n r).tick = s.tick := by rw [setSlot_eq, showSlot_tick, putSlot]

theorem slotRec_congr {t : State} (h : t.upd = s.upd) (n : Nat) : t.slotRec n = s.slotRec n := by rw [slotRec, slotRec, h]

@[simp] theorem slotRec_showSlot (n k : Nat) : (s.showSlot n).slotRec k = s.slotRec k := s.slotRec_congr (s.showSlot_upd n) k

theorem slotRec_setSlot_same (n : Nat) (r : SlotRec) : (s.setSlot n r).slotRec n = r := by
  rw [setSlot_eq, slotRec_showSlot, slotRec, putSlot]
  split
  · rfl
  · rfl

theorem slotRec_setSlot_other {n k : Nat} (r : SlotRec) (h : k = 0 ↔ n ≠ 0) : (s.setSlot n r).slotRec k = s.slotRec k := by
  rw [setSlot_eq, slotRec_showSlot, slotRec, slotRec, putSlot]
  by_cases hn : n = 0
  · have hk : k ≠ 0 := by omega
    rw [if_neg hk, if_pos hn, if_neg hk]
  · have hk : k = 0 := by omega
    rw [if_pos hk, if_neg hn, if_pos hk]

theorem setSlot_word {n : Nat} (hn : n < 2) (r : SlotRec) {off : Nat} (h : off < 0x1E0010 ∨ 0x1E0030 ≤ off) :
    (s.setSlot n r).word off = s.word off := (showSlot_word _ hn h).trans rfl

theorem setSlot_rd {n : Nat} (hn : n < 2) (r : SlotRec) {f : Fld} {i j : Nat} (h : f.addr i j < 0x1E0010 ∨ 0x1E0030 ≤ f.addr i j) :
    (s.setSlot n r).rd f i j = s.rd f i j := by rw [rd, rd, s.setSlot_word hn r h]

theorem setSlot_takesEvent {s : State} {src : Nat} (h : s.takesEvent src) (hsrc : src < 128) {n : Nat} (hn : n < 2) (r : SlotRec) :
    (s.setSlot n r).takesEvent src := by
  obtain ⟨hon, hroom⟩ := h
  exact ⟨by rw [s.setSlot_rd hn r (.inl (by simp only [Fld.addr, F.HIF_EVT_MAP_enable]; omega))]; exact hon, by rw [setSlot_hif]; exact hroom⟩

theorem inactiveSlot_lt : s.inactiveSlot < 2 := by
  unfold inactiveSlot
  split
  · decide
  · decide

/-! ## The stage lock -/

theorem releaseLock_sameButEvents (k : Nat) : ∃ u, (u = s ∨ u = s.wr F.UPD_STAGE_owner 0) ∧ u.SameButEvents (s.releaseLock k) := by
  obtain h | ⟨d, h⟩ := s.releaseLock_cases k
  · exact ⟨s, .inl rfl, by rw [h]; rfl⟩
  · exact ⟨_, .inr rfl, by rw [h]; exact raise_blocks ..⟩

theorem releaseLock_owner (k : Nat) : (s.releaseLock k).rd F.UPD_STAGE_owner = 0 := by
  unfold releaseLock
  dsimp only
  split
  · assumption
  · rw [raise_rd _ _ _ _ (by decide) (by decide), rd_wr_same _ (by decide)]
    rfl

theorem releaseLock_hasEvent {s : State} (howned : s.rd F.UPD_STAGE_owner ≠ 0) (h : s.takesEvent 114) (k : Nat) :
    (s.releaseLock k).hasEvent 114 1 0xFFFF := by
  obtain ⟨d, hd⟩ : ∃ d, d = detail [(0, 2), (1, s.rd F.UPD_STAGE_owner), (2, k)] := ⟨_, rfl⟩
  unfold releaseLock
  dsimp only
  rw [if_neg howned, ← hd]
  exact raise_hasEvent _ _ _ (takesEvent_wr h (by decide))

@[simp] theorem releaseLock_upd (k : Nat) : (s.releaseLock k).upd = s.upd := by
  obtain ⟨u, rfl | rfl, h⟩ := s.releaseLock_sameButEvents k
  · rw [h]
  · rw [h]; rfl

@[simp] theorem releaseLock_quench (k : Nat) : (s.releaseLock k).quench = s.quench := by
  obtain ⟨u, rfl | rfl, h⟩ := s.releaseLock_sameButEvents k
  · rw [h]
  · rw [h]; rfl

@[simp] theorem releaseLock_hif_desc (k : Nat) : (s.releaseLock k).hif.desc = s.hif.desc := by
  obtain ⟨u, rfl | rfl, h⟩ := s.releaseLock_sameButEvents k
  · rw [h]
  · rw [h]; rfl

@[simp] theorem releaseLock_tick (k : Nat) : (s.releaseLock k).tick = s.tick := by
  obtain ⟨u, rfl | rfl, h⟩ := s.releaseLock_sameButEvents k
  · rw [h]
  · rw [h]; rfl

/-! ## An event without Waxbook (R77) -/

/-- While Waxbook is off an occurrence enters event staging, and nothing else. -/
theorem raise_eq_stageEvent {s : State} {src : Nat} (h : s.on F.WAX_CTL_enable = false) (hsrc : src < 128) (code inst : Nat) (d : DWord) :
    s.raise src code inst d = s.stageEvent src code inst d :=
  raise_disabled (by rw [on, (s.stageEvent_sameWaxbook code inst d hsrc).rd (by decide), ← on]; exact h)

theorem stageEvent_length_le (src code inst : Nat) (d : DWord) :
    (s.stageEvent src code inst d).hif.events.length ≤ s.hif.events.length + 1 := by
  unfold stageEvent
  split
  · exact Nat.le_succ _
  split
  · simp
  split
  · simp
  · exact Nat.le_succ _

/-- One occurrence leaves room in event staging for another one. -/
theorem takesEvent_raise {s : State} {src src' : Nat} (hwax : s.on F.WAX_CTL_enable = false) (hroom : s.hif.events.length < 767)
    (hsrc : src < 128) (hsrc' : src' < 128) (hen : s.rd F.HIF_EVT_MAP_enable src' ≠ 0) (code inst : Nat) (d : DWord) :
    (s.raise src code inst d).takesEvent src' := by
  have hne : F.HIF_EVT_MAP_enable.addr src' 0 ∉ eventWords :=
    notMem_eventWords (.inl (by simp only [Fld.addr, F.HIF_EVT_MAP_enable]; omega))
  refine ⟨by rw [raise_rd _ _ _ _ hsrc hne]; exact hen, ?_⟩
  rw [raise_eq_stageEvent hwax hsrc]
  exact Nat.lt_of_le_of_lt (s.stageEvent_length_le ..) (Nat.succ_lt_succ hroom)

end State

end Sys2Proof.Machine

/-! Proofs about staging (R468 to R470): what refuses an operation, what an open and a commit leave, and the commands of both sources. -/

namespace Sys2Proof.Machine

namespace State

/-! ## What refuses an operation (R469) -/

section Refusals
variable {s : State}

theorem openRefused_mode (h7 : s.mode ≠ 7) (h1 : s.mode ≠ 1) (src slot len : Nat) : s.openRefused src slot len = some (0x15, 0xFFFF) := by
  unfold openRefused mayStage
  simp [h7, h1]

theorem lockRefused_other (hmode : s.mode = 7) {src : Nat} (h : s.rd F.UPD_STAGE_owner ≠ src) : s.lockRefused src = some (0x42, 0xFFFF) := by
  unfold lockRefused mayStage
  simp [hmode, h]

theorem lockRefused_none (hmode : s.mode = 7) {src : Nat} (h : s.rd F.UPD_STAGE_owner = src) : s.lockRefused src = none := by
  unfold lockRefused mayStage
  simp [hmode, h]

section Locked
variable {src : Nat} (hlock : s.lockRefused src = none)
include hlock

theorem writeRefused_misplaced {off len : Nat} (h : off ≠ s.upd.written ∨ s.upd.length < off + len) : s.writeRefused src off len = some (0x12, 32) := by
  rw [writeRefused, hlock, if_pos h]
  rfl

theorem writeRefused_none {off len : Nat} (hoff : off = s.upd.written) (hfits : off + len ≤ s.upd.length) : s.writeRefused src off len = none := by
  rw [writeRefused, hlock, if_neg (by omega)]
  rfl

theorem commitRefused_early (h : s.upd.written < s.upd.length) : s.commitRefused src = some (0x12, 0xFFFF) := by
  rw [commitRefused, hlock, if_pos h]
  rfl

theorem commitRefused_none (h : s.upd.length ≤ s.upd.written) : s.commitRefused src = none := by
  rw [commitRefused, hlock, if_neg (Nat.not_lt.2 h)]
  rfl
end Locked

section Stage
variable (hmode : s.mode = 7) (hconf : (s.slotRec s.upd.running).state = 3)
include hmode hconf

/-- In STAGE, with a confirmed image, an open of the inactive slot depends on the lock and the length. -/
theorem openRefused_stage (src len : Nat) : s.openRefused src 0xFF len =
    if s.rd F.UPD_STAGE_owner ≠ 0 ∧ s.rd F.UPD_STAGE_owner ≠ src then some (0x40, 0xFFFF)
    else if 100663296 < len then some (0x41, 0xFFFF)
    else if len < 640 then some (0x12, 32)
    else none := by
  unfold openRefused mayStage
  simp [hmode, hconf]

theorem openRefused_owned {src : Nat} (h0 : s.rd F.UPD_STAGE_owner ≠ 0) (hsrc : s.rd F.UPD_STAGE_owner ≠ src) (len : Nat) :
    s.openRefused src 0xFF len = some (0x40, 0xFFFF) := by
  rw [openRefused_stage hmode hconf, if_pos ⟨h0, hsrc⟩]

theorem openRefused_long (howner : s.rd F.UPD_STAGE_owner = 0) {len : Nat} (hlen : 100663296 < len) (src : Nat) :
    s.openRefused src 0xFF len = some (0x41, 0xFFFF) := by
  rw [openRefused_stage hmode hconf, if_neg (fun h => h.1 howner), if_pos hlen]

theorem openRefused_none (howner : s.rd F.UPD_STAGE_owner = 0) {len : Nat} (hlong : 640 ≤ len) (hfits : len ≤ 100663296) (src : Nat) :
    s.openRefused src 0xFF len = none := by
  rw [openRefused_stage hmode hconf, if_neg (fun h => h.1 howner), if_neg (Nat.not_lt.2 hfits), if_neg (Nat.not_lt.2 hlong)]
end Stage
end Refusals

/-! ## What an open and a commit leave (R468, R470) -/

/-- An open of a slot, before the occurrence of source 114. -/
def stageOpened (s : State) (src n len : Nat) : State :=
  let u := (s.setSlot n {}).setWritten 0
  (({ u with upd := { u.upd with length := len, lockTick := u.tick } }).wr F.UPD_STAGE_owner src).wr F.UPD_STAGE_slot n

theorem openStage_inactive {s : State} (howner : s.rd F.UPD_STAGE_owner = 0) (src len : Nat) :
    s.openStage src 0xFF len = (s.stageOpened src s.inactiveSlot len).raise 114 1 0xFFFF (detail [(0, 1), (1, src)]) := by
  unfold openStage
  dsimp only
  rw [if_pos rfl, howner, if_pos (by decide), updEvent]
  rfl

section Opened
variable (s : State) {src n : Nat} (len : Nat)

theorem stageOpened_upd : (s.stageOpened src n len).upd
    = { s.upd with slot0 := (s.setSlot n {}).upd.slot0, slot1 := (s.setSlot n {}).upd.slot1, written := 0, length := len, lockTick := s.tick } := by
  have htick := s.setSlot_tick n {}
  have hupd := s.setSlot_upd n {}
  change { (s.setSlot n {}).upd with written := 0, length := len, lockTick := (s.setSlot n {}).tick } = _
  rw [htick, hupd]

theorem stageOpened_slotRec (k : Nat) : (s.stageOpened src n len).slotRec k = (s.setSlot n {}).slotRec k := by
  rw [slotRec, slotRec, stageOpened_upd]

theorem stageOpened_owner (hsrc : src < 4) : (s.stageOpened src n len).rd F.UPD_STAGE_owner = src := by
  unfold stageOpened
  dsimp only
  rw [rd_wr_sep _ (by decide), rd_wr_lt _ hsrc (by decide)]

theorem stageOpened_slot (hn : n < 2) : (s.stageOpened src n len).rd F.UPD_STAGE_slot = n := rd_wr_lt _ hn (by decide)

theorem stageOpened_written : (s.stageOpened src n len).rd F.UPD_STAGE_written = 0 := by
  unfold stageOpened setWritten
  dsimp only
  rw [rd_wr_sep _ (by decide), rd_wr_sep _ (by decide)]
  exact rd_wr_same _ (by decide)

theorem stageOpened_takesEvent {s : State} (h : s.takesEvent 114) (hn : n < 2) : (s.stageOpened src n len).takesEvent 114 := by
  have hset : (s.setSlot n {}).takesEvent 114 := setSlot_takesEvent h (by decide) hn {}
  have hlen : ((s.setSlot n {}).setWritten 0).takesEvent 114 :=
    takesEvent_wr (takesEvent_same hset rfl rfl rfl) (by decide)
  exact takesEvent_wr (takesEvent_wr (takesEvent_same hlen rfl rfl rfl) (by decide)) (by decide)
end Opened

theorem slotRec_setSlot_running (s : State) (r : SlotRec) : (s.setSlot s.inactiveSlot r).slotRec s.upd.running = s.slotRec s.upd.running :=
  s.slotRec_setSlot_other r (by unfold inactiveSlot; split <;> omega)

/-- A commit, before the occurrence of source 115. -/
def stageCommitted (s : State) : State := (s.setSlot (s.rd F.UPD_STAGE_slot) { state := 1 }).releaseLock 0

theorem commitStage_eq (s : State) : s.commitStage
    = s.stageCommitted.raise 115 1 0xFFFF (detail [(0, s.rd F.UPD_STAGE_slot), (4, s.stageCommitted.upd.length)]) := rfl

section Committed
variable (s : State)

theorem stageSlot_lt : s.rd F.UPD_STAGE_slot < 2 := s.rd_lt F.UPD_STAGE_slot 0 0

theorem commitStage_owner : s.commitStage.rd F.UPD_STAGE_owner = 0 := by
  rw [commitStage_eq, raise_rd _ _ _ _ (by decide) (by decide)]
  exact releaseLock_owner _ 0

theorem commitStage_slotRec : s.commitStage.slotRec (s.rd F.UPD_STAGE_slot) = { state := 1 } := by
  rw [commitStage_eq, slotRec_congr _ (raise_upd ..), stageCommitted, slotRec_congr _ (releaseLock_upd ..), slotRec_setSlot_same]

theorem commitStage_state : s.commitStage.rd F.UPD_SLOT_REC_state (s.rd F.UPD_STAGE_slot) = 1 := by
  obtain ⟨n, hn⟩ : ∃ n, n = s.rd F.UPD_STAGE_slot := ⟨_, rfl⟩
  have hn2 : n < 2 := by rw [hn]; exact s.stageSlot_lt
  have hev : F.UPD_SLOT_REC_state.addr n 0 ∉ 0x1E0040 :: eventWords := by
    simp only [Fld.addr, F.UPD_SLOT_REC_state, eventWords, List.mem_cons, List.not_mem_nil, or_false]
    omega
  rw [commitStage_eq, ← hn, raise_rd _ _ _ _ (by decide) (fun h => hev (List.mem_cons_of_mem _ h)), stageCommitted, ← hn, rd,
    releaseLock_word _ _ hev, ← rd, setSlot_eq, showSlot_state, ← slotRec_showSlot, ← setSlot_eq, slotRec_setSlot_same]
  rfl

theorem commitStage_hif_desc : s.commitStage.hif.desc = s.hif.desc := by
  rw [commitStage_eq, raise_hif_desc, stageCommitted, releaseLock_hif_desc, setSlot_hif]

/-- A commit raises sources 114 and 115, where there is room for both and Waxbook does not record. -/
theorem commitStage_hasEvents {s : State} (howned : s.rd F.UPD_STAGE_owner ≠ 0) (hev : s.takesEvent 114) (hroom : s.hif.events.length < 767)
    (hen : s.rd F.HIF_EVT_MAP_enable 115 ≠ 0) (hwax : s.on F.WAX_CTL_enable = false) :
    s.commitStage.hasEvent 114 1 0xFFFF ∧ s.commitStage.hasEvent 115 1 0xFFFF := by
  have hn := s.stageSlot_lt
  obtain ⟨u, hu⟩ : ∃ u, u = s.setSlot (s.rd F.UPD_STAGE_slot) { state := 1 } := ⟨_, rfl⟩
  have hrd {f : Fld} {i : Nat} (h : f.addr i 0 < 0x1E0010 ∨ 0x1E0030 ≤ f.addr i 0) : u.rd f i = s.rd f i := by rw [hu]; exact s.setSlot_rd hn _ h
  have howned' : u.rd F.UPD_STAGE_owner ≠ 0 := by rw [hrd (by decide)]; exact howned
  have hev' : u.takesEvent 114 := by rw [hu]; exact setSlot_takesEvent hev (by decide) hn _
  have hwax' : (u.wr F.UPD_STAGE_owner 0).on F.WAX_CTL_enable = false := by rw [on, rd_wr_ne _ (by decide), hrd (by decide)]; exact hwax
  have hen' : (u.wr F.UPD_STAGE_owner 0).rd F.HIF_EVT_MAP_enable 115 ≠ 0 := by rw [rd_wr_ne _ (by decide), hrd (by decide)]; exact hen
  have hroom' : (u.wr F.UPD_STAGE_owner 0).hif.events.length < 767 := by rw [hu]; simpa using hroom
  have h115 : (u.releaseLock 0).takesEvent 115 := by
    unfold releaseLock
    dsimp only
    rw [if_neg howned']
    exact takesEvent_raise hwax' hroom' (by decide) (by decide) hen' ..
  rw [commitStage_eq, stageCommitted, ← hu]
  exact ⟨hasEvent_raise _ _ _ _ (releaseLock_hasEvent howned' hev' 0), raise_hasEvent _ _ _ h115⟩
end Committed

/-! ## The start of a descriptor -/

section Started
variable {s : State} {r : Fin 64} {opcode : Nat} {d : Desc} (hstart : s.Starts r opcode d)
include hstart

theorem Starts.stageOwner : (s.startDesc d).rd F.UPD_STAGE_owner = s.rd F.UPD_STAGE_owner := startDesc_rd_high hstart.ring_lt (by decide)

theorem Starts.stageSlot : (s.startDesc d).rd F.UPD_STAGE_slot = s.rd F.UPD_STAGE_slot := startDesc_rd_high hstart.ring_lt (by decide)

theorem Starts.lockHeld (hmode : s.mode = 7) (howner : s.rd F.UPD_STAGE_owner = 1) : (s.startDesc d).lockRefused 1 = none :=
  lockRefused_none (by simpa using hmode) (by rw [hstart.stageOwner]; exact howner)
end Started

end State

/-! ## STAGE_OPEN -/

section Commands
variable {s : State} {r : Fin 64} {d : Desc}

section Open
variable (hstart : s.Starts r 0x0801 d)
include hstart

theorem execStageOpen_fails {st off : Nat} (h : (s.startDesc d).openRefused 1 (d.op 36 1) (d.op 32 4) = some (st, off)) :
    ∃ t, execStageOpen r s = .next t ∧ t.Completed d st ∧ t.upd = s.upd := by
  have hexec : execStageOpen r s = .next ((s.startDesc d).fail d.id st off) := by
    unfold execStageOpen
    rw [hstart.runDesc]
    rw [h]
  exact ⟨_, hexec, hstart.completed rfl, State.complete_upd ..⟩

theorem execStageOpen_mode (h7 : s.mode ≠ 7) (h1 : s.mode ≠ 1) : ∃ t, execStageOpen r s = .next t ∧ t.Completed d 0x15 ∧ t.upd = s.upd :=
  execStageOpen_fails hstart (State.openRefused_mode (by simpa using h7) (by simpa using h1) ..)

section Stage
variable (hmode : s.mode = 7) (hconf : (s.slotRec s.upd.running).state = 3) (hslot : d.op 36 1 = 0xFF)
include hmode hconf hslot

theorem execStageOpen_owned (howner : s.rd F.UPD_STAGE_owner = 2) : ∃ t, execStageOpen r s = .next t ∧ t.Completed d 0x40 ∧ t.upd = s.upd := by
  refine execStageOpen_fails hstart (off := 0xFFFF) ?_
  rw [hslot]
  exact State.openRefused_owned (s := s.startDesc d) (by simpa using hmode) hconf (by rw [hstart.stageOwner, howner]; decide) (by rw [hstart.stageOwner, howner]; decide) _

theorem execStageOpen_long (howner : s.rd F.UPD_STAGE_owner = 0) (hlen : 100663296 < d.op 32 4) :
    ∃ t, execStageOpen r s = .next t ∧ t.Completed d 0x41 ∧ t.upd = s.upd := by
  refine execStageOpen_fails hstart (off := 0xFFFF) ?_
  rw [hslot]
  exact State.openRefused_long (s := s.startDesc d) (by simpa using hmode) hconf (by rw [hstart.stageOwner, howner]) hlen _

theorem execStageOpen_opens (howner : s.rd F.UPD_STAGE_owner = 0) (hlong : 640 ≤ d.op 32 4) (hfits : d.op 32 4 ≤ 100663296) (hev : s.takesEvent 114) :
    ∃ t, execStageOpen r s = .next t ∧ t.Completed d 1 ∧ t.rd F.UPD_STAGE_owner = 1 ∧ t.rd F.UPD_STAGE_slot = s.inactiveSlot
      ∧ t.rd F.UPD_STAGE_written = 0 ∧ t.upd.written = 0 ∧ t.upd.length = d.op 32 4 ∧ t.upd.lockTick = s.tick
      ∧ t.slotRec s.inactiveSlot = {} ∧ t.slotRec s.upd.running = s.slotRec s.upd.running ∧ t.hasEvent 114 1 0xFFFF := by
  have hfree : (s.startDesc d).rd F.UPD_STAGE_owner = 0 := by rw [hstart.stageOwner, howner]
  obtain ⟨a, ha⟩ : ∃ a, a = s.startDesc d := ⟨_, rfl⟩
  obtain ⟨len, hlen⟩ : ∃ len, len = d.op 32 4 := ⟨_, rfl⟩
  obtain ⟨w, hw⟩ : ∃ w, w = detail [(0, 1), (1, 1)] := ⟨_, rfl⟩
  obtain ⟨u, hu⟩ : ∃ u, u = (a.stageOpened 1 s.inactiveSlot len).raise 114 1 0xFFFF w := ⟨_, rfl⟩
  have hexec : execStageOpen r s = .next (u.complete d.id 1) := by
    unfold execStageOpen
    rw [hstart.runDesc]
    rw [hslot, State.openRefused_none (s := s.startDesc d) (by simpa using hmode) hconf hfree hlong hfits]
    dsimp only
    rw [State.openStage_inactive hfree, ← ha, ← hlen, ← hw, hu]
    rw [ha]
    rfl
  have hupd : u.upd = (a.stageOpened 1 s.inactiveSlot len).upd := by rw [hu, State.raise_upd]
  have haupd : a.upd = s.upd := by rw [ha, State.startDesc_upd]
  have hdesc : u.hif.desc = (s.startDesc d).hif.desc := by
    rw [hu, State.raise_hif_desc, ← ha]
    exact congrArg Hif.desc (a.setSlot_hif s.inactiveSlot {})
  have hrd {f : Fld} (hf : 0x12000 ≤ f.off) (hne : f.addr 0 0 ∉ eventWords) : (u.complete d.id 1).rd f = (a.stageOpened 1 s.inactiveSlot len).rd f := by
    rw [hstart.complete_rd hdesc _ _ _ _ hf, hu, State.raise_rd _ _ _ _ (by decide) hne]
  have hrec (k : Nat) : (u.complete d.id 1).slotRec k = (a.setSlot s.inactiveSlot {}).slotRec k := by
    rw [State.slotRec_congr _ (State.complete_upd ..), State.slotRec_congr _ hupd, State.stageOpened_slotRec]
  refine ⟨_, hexec, hstart.completed hdesc, ?_, ?_, ?_, ?_, ?_, ?_, ?_, ?_, ?_⟩
  · rw [hrd (by decide) (by decide), State.stageOpened_owner _ _ (by decide)]
  · rw [hrd (by decide) (by decide), State.stageOpened_slot _ _ s.inactiveSlot_lt]
  · rw [hrd (by decide) (by decide), State.stageOpened_written]
  · rw [State.complete_upd, hupd, State.stageOpened_upd]
  · rw [State.complete_upd, hupd, State.stageOpened_upd]
    exact hlen
  · rw [State.complete_upd, hupd, State.stageOpened_upd, ha, State.startDesc_tick]
  · rw [hrec, State.slotRec_setSlot_same]
  · rw [hrec, ha]
    exact (s.startDesc d).slotRec_setSlot_running {}
  · rw [State.hasEvent, State.complete_events, hu]
    refine State.raise_hasEvent _ _ _ (State.stageOpened_takesEvent _ ?_ s.inactiveSlot_lt)
    rw [ha]
    exact State.takesEvent_startDesc hev d
end Stage
end Open
/-! ## STAGE_WRITE -/

section Write
variable {io : HostIo} (hstart : s.Starts r 0x0802 d) (hmode : s.mode = 7)
include hstart

theorem execStageWrite_fails {st off : Nat} (h : (s.startDesc d).writeRefused 1 (d.op 32 4) (d.op 24 4) = some (st, off)) :
    ∃ t, execStageWrite r io s = .next t ∧ t.Completed d st ∧ t.upd = s.upd := by
  have hexec : execStageWrite r io s = .next ((s.startDesc d).fail d.id st off) := by
    unfold execStageWrite
    rw [hstart.runDesc]
    dsimp only
    rw [h]
  exact ⟨_, hexec, hstart.completed rfl, State.complete_upd ..⟩

include hmode

theorem execStageWrite_foreign (howner : s.rd F.UPD_STAGE_owner ≠ 1) :
    ∃ t, execStageWrite r io s = .next t ∧ t.Completed d 0x42 ∧ t.upd = s.upd := by
  refine execStageWrite_fails hstart (off := 0xFFFF) ?_
  rw [State.writeRefused, State.lockRefused_other (by simpa using hmode) (by rw [hstart.stageOwner]; exact howner)]
  rfl

theorem execStageWrite_misplaced (howner : s.rd F.UPD_STAGE_owner = 1) (h : d.op 32 4 ≠ s.upd.written ∨ s.upd.length < d.op 32 4 + d.op 24 4) :
    ∃ t, execStageWrite r io s = .next t ∧ t.Completed d 0x12 ∧ t.upd = s.upd := by
  refine execStageWrite_fails hstart (off := 32) ?_
  exact State.writeRefused_misplaced (hstart.lockHeld hmode howner) h

theorem execStageWrite_writes (howner : s.rd F.UPD_STAGE_owner = 1) (hoff : d.op 32 4 = s.upd.written)
    (hfits : d.op 32 4 + d.op 24 4 ≤ s.upd.length) (hio : io.bodyErr = false) :
    ∃ t, execStageWrite r io s = .next t ∧ t.hif.compl = s.hif.compl
      ∧ t.upd = { s.upd with jobs := s.upd.jobs ++ [.stage (some d.id) (d.op 32 4) io.body] } := by
  have hgo : (s.startDesc d).writeRefused 1 (d.op 32 4) (d.op 24 4) = none :=
    State.writeRefused_none (hstart.lockHeld hmode howner) hoff hfits
  have hexec : execStageWrite r io s = .next { s.startDesc d with
      upd := { s.upd with jobs := s.upd.jobs ++ [.stage (some d.id) (d.op 32 4) io.body] } } := by
    unfold execStageWrite
    rw [hstart.runDesc]
    dsimp only
    rw [hgo]
    dsimp only
    rw [State.withBody, if_neg (by simp [hio])]
    rfl
  exact ⟨_, hexec, rfl, rfl⟩
end Write

/-! ## STAGE_COMMIT -/

section Commit
variable (hstart : s.Starts r 0x0803 d) (hmode : s.mode = 7) (howner : s.rd F.UPD_STAGE_owner = 1)
include hstart hmode howner

theorem execStageCommit_early (hearly : s.upd.written < s.upd.length) :
    ∃ t, execStageCommit r s = .next t ∧ t.Completed d 0x12 ∧ t.upd = s.upd := by
  have hexec : execStageCommit r s = .next ((s.startDesc d).fail d.id 0x12 0xFFFF) := by
    unfold execStageCommit
    rw [hstart.runDesc]
    rw [State.commitRefused_early (hstart.lockHeld hmode howner) hearly]
  exact ⟨_, hexec, hstart.completed rfl, State.complete_upd ..⟩

theorem execStageCommit_commits (hfull : s.upd.length ≤ s.upd.written) (hev : s.takesEvent 114) (hroom : s.hif.events.length < 767)
    (hen : s.rd F.HIF_EVT_MAP_enable 115 ≠ 0) (hwax : s.on F.WAX_CTL_enable = false) :
    ∃ t, execStageCommit r s = .next t ∧ t.Completed d 1 ∧ t.rd F.UPD_STAGE_owner = 0
      ∧ t.slotRec (s.rd F.UPD_STAGE_slot) = { state := 1 } ∧ t.rd F.UPD_SLOT_REC_state (s.rd F.UPD_STAGE_slot) = 1
      ∧ t.hasEvent 114 1 0xFFFF ∧ t.hasEvent 115 1 0xFFFF := by
  obtain ⟨a, ha⟩ : ∃ a, a = s.startDesc d := ⟨_, rfl⟩
  obtain ⟨res, hres⟩ : ∃ res, res = result [(16, 1, a.rd F.UPD_STAGE_slot)] := ⟨_, rfl⟩
  have hexec : execStageCommit r s = .next (a.commitStage.complete d.id 1 0 res) := by
    unfold execStageCommit
    rw [hstart.runDesc]
    rw [State.commitRefused_none (hstart.lockHeld hmode howner) hfull]
    dsimp only
    rw [← ha, ← hres]
  have hslot : s.rd F.UPD_STAGE_slot = a.rd F.UPD_STAGE_slot := by rw [ha, hstart.stageSlot]
  have hdesc : a.commitStage.hif.desc = (s.startDesc d).hif.desc := by rw [State.commitStage_hif_desc, ha]
  have hevents : a.commitStage.hasEvent 114 1 0xFFFF ∧ a.commitStage.hasEvent 115 1 0xFFFF := by
    refine State.commitStage_hasEvents (by rw [ha, hstart.stageOwner, howner]; decide) ?_ ?_ ?_ ?_
    · rw [ha]
      exact State.takesEvent_startDesc hev d
    · rw [ha]
      exact hroom
    · rw [ha, s.startDesc_rd_low d (by decide)]
      exact hen
    · rw [ha, State.on, State.startDesc_rd_high hstart.ring_lt (by decide)]
      exact hwax
  rw [hslot]
  refine ⟨_, hexec, hstart.completed hdesc, ?_, ?_, ?_, ?_⟩
  · rw [hstart.complete_rd hdesc _ _ _ _ (by decide), State.commitStage_owner]
  · rw [State.slotRec_congr _ (State.complete_upd ..), State.commitStage_slotRec]
  · rw [hstart.complete_rd hdesc _ _ _ _ (by decide), State.commitStage_state]
  · rw [State.hasEvent, State.hasEvent, State.complete_events]
    exact hevents
end Commit

/-! ## STAGE_RELEASE -/

theorem execStageRelease_releases (hstart : s.Starts r 0x0804 d) (hmode : s.mode = 7) (howner : s.rd F.UPD_STAGE_owner = 1) (hev : s.takesEvent 114) :
    ∃ t, execStageRelease r s = .next t ∧ t.Completed d 1 ∧ t.rd F.UPD_STAGE_owner = 0 ∧ t.upd = s.upd ∧ t.hasEvent 114 1 0xFFFF := by
  have hexec : execStageRelease r s = .next (((s.startDesc d).releaseLock 1).complete d.id 1) := by
    unfold execStageRelease
    rw [hstart.runDesc]
    rw [hstart.lockHeld hmode howner]
  have hdesc := (s.startDesc d).releaseLock_hif_desc 1
  refine ⟨_, hexec, hstart.completed hdesc, ?_, ?_, ?_⟩
  · rw [hstart.complete_rd hdesc _ _ _ _ (by decide), State.releaseLock_owner]
  · rw [State.complete_upd, State.releaseLock_upd, State.startDesc_upd]
  · rw [State.hasEvent, State.complete_events]
    exact State.releaseLock_hasEvent (by rw [hstart.stageOwner, howner]; decide) (State.takesEvent_startDesc hev d) 1
end Commands

/-! ## The Ethernet service (R469, R470) -/

section Ethernet
variable {s : State}

theorem execEthernetStageRequest_mode (hmode : s.mode ≠ 7) (op : StageOp) :
    execEthernetStageRequest op s = .next { s with rdata := 0x15 } := by
  have hopen (slot len : Nat) : s.openRefused 2 slot len = some (0x15, 0xFFFF) := by
    unfold State.openRefused State.mayStage
    simp [hmode]
  have hlock : s.lockRefused 2 = some (0x15, 0xFFFF) := by
    unfold State.lockRefused State.mayStage
    simp [hmode]
  cases op with
  | stageOpen len =>
    simp only [execEthernetStageRequest, hopen]
    rfl
  | stageWrite off body =>
    simp only [execEthernetStageRequest, State.writeRefused, hlock]
    rfl
  | stageCommit =>
    simp only [execEthernetStageRequest, State.commitRefused, hlock]
    rfl
  | stageRelease =>
    simp only [execEthernetStageRequest, hlock]
    rfl

variable (hmode : s.mode = 7)
include hmode

theorem execEthernetStageRequest_opens (hconf : (s.slotRec s.upd.running).state = 3) (howner : s.rd F.UPD_STAGE_owner = 0) {l : Word}
    (hlong : 640 ≤ l.toNat) (hfits : l.toNat ≤ 100663296) :
    ∃ t, execEthernetStageRequest (.stageOpen l) s = .next t ∧ t.rdata = 1 ∧ t.rd F.UPD_STAGE_owner = 2 ∧ t.upd.length = l.toNat
      ∧ t.rd F.UPD_STAGE_slot = s.inactiveSlot := by
  obtain ⟨w, hw⟩ : ∃ w, w = detail [(0, 1), (1, 2)] := ⟨_, rfl⟩
  obtain ⟨u, hu⟩ : ∃ u, u = (s.stageOpened 2 s.inactiveSlot l.toNat).raise 114 1 0xFFFF w := ⟨_, rfl⟩
  have hexec : execEthernetStageRequest (.stageOpen l) s = .next { u with rdata := BitVec.ofNat 32 1 } := by
    unfold execEthernetStageRequest
    dsimp only
    rw [State.openRefused_none hmode hconf howner hlong hfits]
    dsimp only
    rw [State.openStage_inactive howner, ← hw, ← hu]
  have hrd {f : Fld} (hne : f.addr 0 0 ∉ eventWords) : u.rd f = (s.stageOpened 2 s.inactiveSlot l.toNat).rd f := by
    rw [hu, State.raise_rd _ _ _ _ (by decide) hne]
  refine ⟨_, hexec, rfl, ?_, ?_, ?_⟩
  · exact (hrd (by decide)).trans (s.stageOpened_owner _ (by decide))
  · change u.upd.length = _
    rw [hu, State.raise_upd, State.stageOpened_upd]
  · exact (hrd (by decide)).trans (s.stageOpened_slot _ s.inactiveSlot_lt)

variable (howner : s.rd F.UPD_STAGE_owner = 2)
include howner

theorem execEthernetStageRequest_writes {o : Word} {l : List Byte} (hoff : o.toNat = s.upd.written) (hfits : o.toNat + l.length ≤ s.upd.length) :
    execEthernetStageRequest (.stageWrite o l) s
      = .next { s with rdata := 0, upd := { s.upd with jobs := s.upd.jobs ++ [.stage none o.toNat l] } } := by
  have hgo := State.writeRefused_none (State.lockRefused_none hmode howner) hoff hfits
  unfold execEthernetStageRequest
  dsimp only
  rw [hgo]
  rfl

theorem execEthernetStageRequest_commits (hfull : s.upd.length ≤ s.upd.written) :
    ∃ t, execEthernetStageRequest .stageCommit s = .next t ∧ t.rdata = 1 ∧ t.rd F.UPD_STAGE_owner = 0
      ∧ t.slotRec (s.rd F.UPD_STAGE_slot) = { state := 1 } := by
  have hlock := s.commitStage_owner
  have hrec := s.commitStage_slotRec
  obtain ⟨u, hu⟩ : ∃ u, u = s.commitStage := ⟨_, rfl⟩
  rw [← hu] at hlock hrec
  have hexec : execEthernetStageRequest .stageCommit s = .next { u with rdata := BitVec.ofNat 32 1 } := by
    unfold execEthernetStageRequest
    dsimp only
    rw [State.commitRefused_none (State.lockRefused_none hmode howner) hfull]
    dsimp only
    rw [← hu]
  exact ⟨_, hexec, rfl, hlock, hrec⟩
end Ethernet

/-! ## The timeout (R470) -/

theorem execStageLockTimeout_free {s : State} (h : s.rd F.UPD_STAGE_owner = 0) : execStageLockTimeout s = .next s := if_pos h

theorem execStageLockTimeout_frees {s : State} (howned : s.rd F.UPD_STAGE_owner ≠ 0) (hev : s.takesEvent 114) :
    ∃ t, execStageLockTimeout s = .next t ∧ t.rd F.UPD_STAGE_owner = 0 ∧ s.upd.lockTick + sec 60 ≤ t.tick ∧ t.upd = s.upd
      ∧ t.hasEvent 114 1 0xFFFF := by
  obtain ⟨n, hn⟩ : ∃ n, n = s.upd.lockTick + sec 60 := ⟨_, rfl⟩
  unfold execStageLockTimeout
  rw [if_neg howned, ← hn]
  refine ⟨_, rfl, State.releaseLock_owner _ _, ?_, State.releaseLock_upd .., State.releaseLock_hasEvent (s := s.advanceTo n) howned hev 2⟩
  rw [State.releaseLock_tick]
  exact s.le_advanceTo_tick n

/-- Settles O50: one lemma per command and outcome. -/
theorem stagingCommands : Obligations.StagingCommands := by
  unfold Obligations.StagingCommands
  exact ⟨fun _ _ _ hstart => ⟨execStageOpen_mode hstart,
      fun hmode hconf hslot => execStageOpen_owned hstart hmode hconf hslot,
      fun hmode hconf hslot => execStageOpen_long hstart hmode hconf hslot,
      fun hmode hconf hslot => execStageOpen_opens hstart hmode hconf hslot⟩,
    fun _ _ _ _ hstart hmode => ⟨execStageWrite_foreign hstart hmode, execStageWrite_misplaced hstart hmode, execStageWrite_writes hstart hmode⟩,
    fun _ _ _ hstart hmode howner => ⟨execStageCommit_early hstart hmode howner, execStageCommit_commits hstart hmode howner⟩,
    fun _ _ _ => execStageRelease_releases,
    fun _ op h => execEthernetStageRequest_mode h op,
    fun _ _ hmode hconf howner => execEthernetStageRequest_opens hmode hconf howner,
    fun _ _ _ hmode howner => execEthernetStageRequest_writes hmode howner,
    fun _ => execEthernetStageRequest_commits,
    fun _ => execStageLockTimeout_free,
    fun _ => execStageLockTimeout_frees⟩

end Sys2Proof.Machine

/-! Proofs about flash programs, the confirmation of images, settings and attestation (R464, R468, R473 to R478). -/

namespace Sys2Proof.Machine

section Flash
variable {s : State}

theorem find_id {l : List Desc} {id : Nat} {d : Desc} (h : l.find? (·.id == id) = some d) : d.id = id := by simpa using List.find?_some h

theorem State.complete_succeeds {d : Desc} (hfind : s.hif.desc.find? (·.id == d.id) = some d) (hquiet : d.quiet = false) (res : List Byte) (ind : Bool) :
    (s.complete d.id 1 0 res ind).Completed d 1 := by
  have h := State.complete_completed_of_find (status := 1) (notes := 0) (res := res) (ind := ind) hfind rfl rfl hquiet
  rwa [if_neg (fun h => h.2 rfl)] at h

/-- The state without the first flash program. -/
def State.popJob (s : State) (l : List FlashJob) : State := { s with upd := { s.upd with jobs := l } }

/-! ## A staged write (R468) -/

/-- A write has landed in a slot, before its source gets the status. -/
def State.landed (s : State) (off : Nat) (bytes : List Byte) : State :=
  let n := s.rd F.UPD_STAGE_slot
  let u := (s.setFlash n (writeBytes (s.flash n) off bytes)).setWritten (off + bytes.length)
  { u with upd := { u.upd with lockTick := u.tick } }

theorem State.landed_upd (s : State) (off : Nat) (bytes : List Byte) : (s.landed off bytes).upd =
    { (s.setFlash (s.rd F.UPD_STAGE_slot) (writeBytes (s.flash (s.rd F.UPD_STAGE_slot)) off bytes)).upd with written := off + bytes.length, lockTick := s.tick } := by
  rfl

theorem State.flash_setFlash_same (s : State) (n : Nat) (m : List Host.Cell) : (s.setFlash n m).flash n = m := by
  unfold State.setFlash State.flash
  split
  · rfl
  · rfl

theorem State.flash_setFlash_other (s : State) {n k : Nat} (h : k = 0 ↔ n ≠ 0) (m : List Host.Cell) : (s.setFlash n m).flash k = s.flash k := by
  unfold State.setFlash State.flash
  by_cases hn : n = 0
  · have hk : k ≠ 0 := by omega
    rw [if_neg hk, if_pos hn, if_neg hk]
  · have hk : k = 0 := by omega
    rw [if_pos hk, if_neg hn, if_pos hk]

theorem State.setFlash_keeps (s : State) (n : Nat) (m : List Host.Cell) : (s.setFlash n m).upd =
    { s.upd with flash0 := (s.setFlash n m).upd.flash0, flash1 := (s.setFlash n m).upd.flash1 } := by
  unfold State.setFlash
  dsimp only
  split
  · rfl
  · rfl

section EndStageWrite
variable (howner : s.rd F.UPD_STAGE_owner = 1) (id off : Nat) (b : List Byte)
include howner

theorem State.endStageWrite_lands : s.endStageWrite true (some id) off b = (s.landed off b).complete id 1 := by
  unfold State.endStageWrite State.stageStatus
  dsimp only [Option.isSome_some]
  rw [if_neg (by decide), if_pos rfl, if_neg (fun h => h howner), if_pos rfl]
  rfl

theorem State.endStageWrite_fails :
    s.endStageWrite false (some id) off b = (s.drawn.releaseLock (s.freshWord.toNat % 256)).fail id 0x13 0xFFFF 1 := by
  unfold State.endStageWrite State.stageStatus
  dsimp only [Option.isSome_some]
  rw [if_pos (by decide), if_pos rfl, if_pos howner, if_neg (by decide)]
end EndStageWrite

section Stage
variable {id off : Nat} {d : Desc} {b : List Byte} {l : List FlashJob} (hjobs : s.upd.jobs = .stage (some id) off b :: l)
  (hfind : s.hif.desc.find? (·.id == id) = some d) (howner : s.rd F.UPD_STAGE_owner = 1)
include hjobs hfind howner

theorem execFlashProgramComplete_lands (hquiet : d.quiet = false) : ∃ t, execFlashProgramComplete true s = .next t ∧ t.Completed d 1 ∧ t.upd.jobs = l
    ∧ t.upd.written = off + b.length ∧ t.flash (s.rd F.UPD_STAGE_slot) = writeBytes (s.flash (s.rd F.UPD_STAGE_slot)) off b
    ∧ t.flash (1 - s.rd F.UPD_STAGE_slot) = s.flash (1 - s.rd F.UPD_STAGE_slot) ∧ t.upd.lockTick = s.tick := by
  obtain rfl := find_id hfind
  have hexec : execFlashProgramComplete true s = .next (((s.popJob l).landed off b).complete d.id 1) := by
    unfold execFlashProgramComplete
    rw [hjobs]
    exact congrArg Host.Outcome.next (State.endStageWrite_lands (s := s.popJob l) howner ..)
  obtain ⟨n, hn⟩ : ∃ n, n = s.rd F.UPD_STAGE_slot := ⟨_, rfl⟩
  have hn2 : n < 2 := by rw [hn]; exact s.stageSlot_lt
  obtain ⟨m, hm⟩ : ∃ m, m = writeBytes (s.flash n) off b := ⟨_, rfl⟩
  have hupd : (((s.popJob l).landed off b).complete d.id 1).upd
      = { ((s.popJob l).setFlash n m).upd with written := off + b.length, lockTick := s.tick } := by
    rw [State.complete_upd, State.landed_upd, hm, hn]
    rfl
  have hflash (k : Nat) : (((s.popJob l).landed off b).complete d.id 1).flash k = ((s.popJob l).setFlash n m).flash k := by
    rw [State.flash, State.flash, hupd]
  have hhif : ((s.popJob l).landed off b).hif = s.hif := by
    rfl
  have hfind' : ((s.popJob l).landed off b).hif.desc.find? (·.id == d.id) = some d := by rw [hhif]; exact hfind
  rw [← hn, ← hm]
  refine ⟨_, hexec, ?_, ?_, ?_, ?_, ?_, ?_⟩
  · exact State.complete_succeeds (s := (s.popJob l).landed off b) hfind' hquiet ..
  · rw [hupd, State.setFlash_keeps]
    rfl
  · rw [hupd]
  · rw [hflash, State.flash_setFlash_same]
  · rw [hflash, State.flash_setFlash_other _ (by omega)]
    rfl
  · rw [hupd]

theorem execFlashProgramComplete_stageFails : ∃ t, execFlashProgramComplete false s = .next t ∧ t.Completed d 0x13
    ∧ t.upd = { s.upd with jobs := l } ∧ t.rd F.UPD_STAGE_owner = 0 := by
  obtain rfl := find_id hfind
  obtain ⟨c, hc⟩ : ∃ c, c = (s.popJob l).freshWord.toNat % 256 := ⟨_, rfl⟩
  have hexec : execFlashProgramComplete false s = .next (((s.popJob l).drawn.releaseLock c).fail d.id 0x13 0xFFFF 1) := by
    unfold execFlashProgramComplete
    rw [hjobs]
    rw [hc]
    exact congrArg Host.Outcome.next (State.endStageWrite_fails (s := s.popJob l) howner ..)
  have hfind' : ((s.popJob l).drawn.releaseLock c).hif.desc.find? (·.id == d.id) = some d := by
    rw [State.releaseLock_hif_desc]
    exact hfind
  refine ⟨_, hexec, State.complete_fails hfind' rfl rfl (by decide), ?_, ?_⟩
  · rw [State.fail, State.complete_upd, State.releaseLock_upd]
    rfl
  · rw [State.fail, State.complete_rd_low _ _ _ _ _ _ (by decide), State.releaseLock_owner]
end Stage

/-! ## A parameter set and its confirmation (R378, R379) -/

section Sps
variable {id : Nat} {d : Desc} {b : List Byte} {l : List FlashJob} (hjobs : s.upd.jobs = .sps id b :: l)
  (hfind : s.hif.desc.find? (·.id == id) = some d)
include hjobs hfind

theorem execFlashProgramComplete_storesSet (hquiet : d.quiet = false) :
    ∃ t, execFlashProgramComplete true s = .next t ∧ t.Completed d 1 ∧ t.quench = { s.quench with stored := b, record := none } := by
  obtain rfl := find_id hfind
  obtain ⟨res, hres⟩ : ∃ res, res = result [(16, 4, setCrc b)] := ⟨_, rfl⟩
  have hexec : execFlashProgramComplete true s
      = .next ({ s.popJob l with quench := { s.quench with stored := b, record := none } }.complete d.id 1 0 res) := by
    unfold execFlashProgramComplete
    rw [hjobs]
    dsimp only
    rw [if_neg (by decide), ← hres]
    rfl
  exact ⟨_, hexec, State.complete_succeeds (s := { s.popJob l with quench := { s.quench with stored := b, record := none } }) hfind hquiet ..,
    State.complete_quench ..⟩

theorem execFlashProgramComplete_setFails :
    ∃ t, execFlashProgramComplete false s = .next t ∧ t.Completed d 0x13 ∧ t.quench = s.quench := by
  obtain rfl := find_id hfind
  have hexec : execFlashProgramComplete false s = .next ((s.popJob l).fail d.id 0x13 0xFFFF 1) := by
    unfold execFlashProgramComplete
    rw [hjobs]
    dsimp only
    rw [if_pos (by decide)]
    rfl
  exact ⟨_, hexec, State.complete_fails (s := s.popJob l) hfind rfl rfl (by decide), State.complete_quench ..⟩
end Sps

theorem execFlashProgramComplete_confirms {c : Nat} {l : List FlashJob} (hjobs : s.upd.jobs = .confirm c :: l) (hcrc : c = s.rd F.QNC_SPS_CRC_crc)
    (hset : s.on F.QNC_STAT_set_present = true) (hev : s.takesEvent 106) :
    ∃ t, execFlashProgramComplete true s = .next t ∧ t.rd F.QNC_STAT_confirmed = 1 ∧ t.quench = { s.quench with record := some c }
      ∧ t.hasEvent 106 2 0xFFFF := by
  obtain ⟨w, hw⟩ : ∃ w, w = detail [(4, c)] := ⟨_, rfl⟩
  obtain ⟨u, hu⟩ : ∃ u : State, u = { s.popJob l with quench := { s.quench with record := some c } } := ⟨_, rfl⟩
  have hexec : execFlashProgramComplete true s = .next ((u.wr F.QNC_STAT_confirmed 1).raise 106 2 0xFFFF w) := by
    have hgo : ¬ (c ≠ u.rd F.QNC_SPS_CRC_crc ∨ (!u.on F.QNC_STAT_set_present) = true) := by
      have hset' : u.on F.QNC_STAT_set_present = true := by rw [hu]; exact hset
      have hcrc' : c = u.rd F.QNC_SPS_CRC_crc := by rw [hu]; exact hcrc
      simp [hset', ← hcrc']
    unfold execFlashProgramComplete
    rw [hjobs]
    dsimp only
    rw [if_neg (by decide), hw]
    rw [hu] at hgo ⊢
    exact if_neg hgo
  refine ⟨_, hexec, ?_, ?_, State.raise_hasEvent _ _ _ (State.takesEvent_wr ?_ (by decide))⟩
  · rw [State.raise_rd _ _ _ _ (by decide) (by decide), State.rd_wr_same _ (by decide)]
    rfl
  · rw [State.raise_quench, hu]
    rfl
  · rw [hu]
    exact hev

/-! ## Saved settings (R476) -/

theorem State.settingsRec_setSettings_same (s : State) (n : Nat) (r : SettingsRec) : (s.setSettings n r).settingsRec n = r := by
  unfold State.setSettings State.settingsRec
  split
  · rfl
  · rfl

theorem State.settingsRec_setSettings_other (s : State) {n k : Nat} (h : k = 0 ↔ n ≠ 0) (r : SettingsRec) :
    (s.setSettings n r).settingsRec k = s.settingsRec k := by
  unfold State.setSettings State.settingsRec
  by_cases hn : n = 0
  · have hk : k ≠ 0 := by omega
    rw [if_neg hk, if_pos hn, if_neg hk]
  · have hk : k = 0 := by omega
    rw [if_pos hk, if_neg hn, if_pos hk]

theorem State.settingsRec_setFlash (s : State) (n k : Nat) (m : List Host.Cell) : (s.setFlash n m).settingsRec k = s.settingsRec k := by
  rw [State.settingsRec, s.setFlash_keeps n m]
  rfl

theorem State.setSettings_keeps (s : State) (n : Nat) (r : SettingsRec) : (s.setSettings n r).upd =
    { s.upd with set0 := (s.setSettings n r).upd.set0, set1 := (s.setSettings n r).upd.set1 } := by
  unfold State.setSettings
  dsimp only
  split
  · rfl
  · rfl

/-- The record of a settings slot that the running image writes. -/
def State.writtenSet (s : State) (format generation : Nat) (content : List Byte) : SettingsRec :=
  { valid := true, format := format, generation := generation, version := s.rd F.GLB_IMG_VER_version, length := content.length }

section WriteSettings
variable (s : State) (format generation : Nat) (content : List Byte)

theorem State.writeSettings_settingsRec_same (n : Nat) :
    (s.writeSettings n format generation content).settingsRec n = s.writtenSet format generation content := by
  unfold State.writeSettings
  exact State.settingsRec_setSettings_same ..

theorem State.writeSettings_settingsRec_other {n k : Nat} (h : k = 0 ↔ n ≠ 0) :
    (s.writeSettings n format generation content).settingsRec k = s.settingsRec k := by
  unfold State.writeSettings
  dsimp only
  rw [State.settingsRec_setSettings_other _ h, State.settingsRec_setFlash]

theorem State.writeSettings_flash_other {n k : Nat} (h : k = 0 ↔ n ≠ 0) :
    (s.writeSettings n format generation content).flash k = s.flash k := by
  unfold State.writeSettings
  dsimp only
  rw [State.flash, State.setSettings_keeps]
  exact State.flash_setFlash_other _ h _
end WriteSettings

theorem State.useSettings_slot (s : State) {n : Nat} (h : n < 2) : (s.useSettings n).rd F.UPD_SET_slot = n := by
  unfold State.useSettings
  rw [State.rd_wr_sep _ (by decide)]
  exact State.rd_wr_lt _ h (by decide)

section Settings
variable {id n : Nat} {d : Desc} {b : List Byte} {l : List FlashJob} (hjobs : s.upd.jobs = .settings id n b :: l)
  (hfind : s.hif.desc.find? (·.id == id) = some d)
include hjobs hfind

theorem execFlashProgramComplete_saves (hn : n < 2) (hquiet : d.quiet = false) :
    ∃ t, execFlashProgramComplete true s = .next t ∧ t.Completed d 1 ∧ t.rd F.UPD_SET_slot = n
      ∧ t.settingsRec n = { valid := true, format := s.imageFormat, generation := (max s.upd.set0.generation s.upd.set1.generation + 1) % 2 ^ 32, version := s.rd F.GLB_IMG_VER_version, length := b.length }
      ∧ t.settingsRec (1 - n) = s.settingsRec (1 - n) := by
  obtain rfl := find_id hfind
  obtain ⟨g, hg⟩ : ∃ g, g = (max s.upd.set0.generation s.upd.set1.generation + 1) % 2 ^ 32 := ⟨_, rfl⟩
  obtain ⟨u, hu⟩ : ∃ u, u = (s.popJob l).writeSettings n s.imageFormat g b := ⟨_, rfl⟩
  have hexec : execFlashProgramComplete true s = .next ((u.useSettings n).complete d.id 1) := by
    unfold execFlashProgramComplete
    rw [hjobs]
    dsimp only
    unfold State.endSettings
    dsimp only
    rw [if_neg (by decide), hu, hg]
    rfl
  have hhif : (u.useSettings n).hif = s.hif := by rw [hu]; rfl
  have hrec (k : Nat) : ((u.useSettings n).complete d.id 1).settingsRec k = u.settingsRec k := by
    rw [State.settingsRec, State.complete_upd]
    rfl
  rw [← hg]
  refine ⟨_, hexec, State.complete_succeeds (by rw [hhif]; exact hfind) hquiet .., ?_, ?_, ?_⟩
  · rw [State.complete_rd_low _ _ _ _ _ _ (by decide), State.useSettings_slot _ hn]
  · rw [hrec, hu, State.writeSettings_settingsRec_same]
    rfl
  · rw [hrec, hu, State.writeSettings_settingsRec_other _ _ _ _ (by omega)]
    rfl

theorem execFlashProgramComplete_saveFails :
    ∃ t, execFlashProgramComplete false s = .next t ∧ t.Completed d 0x13 ∧ t.upd = { s.upd with jobs := l } := by
  obtain rfl := find_id hfind
  have hexec : execFlashProgramComplete false s = .next ((s.popJob l).fail d.id 0x13 0xFFFF 1) := by
    unfold execFlashProgramComplete
    rw [hjobs]
    dsimp only
    unfold State.endSettings
    rw [if_pos (by decide)]
    rfl
  exact ⟨_, hexec, State.complete_fails (s := s.popJob l) hfind rfl rfl (by decide), State.complete_upd ..⟩
end Settings
end Flash

/-! ## The confirmation of an image (R473, R474) -/

namespace State

/-- The record of the running image becomes CONFIRMED. -/
def confirmRecord (s : State) : State :=
  (s.setSlot s.upd.running { s.slotRec s.upd.running with state := 3 }).wr F.UPD_STAT_confirmed 1

/-- The predecessor, where it was CONFIRMED, becomes the BACKUP. -/
def keepBackup (s : State) (o : Nat) : State :=
  if (s.slotRec o).state = 3 then s.setSlot o { s.slotRec o with state := 4 } else s

/-- The rollback count is fused where the image raises it. -/
def fuseRollback (s : State) (n : Nat) : State :=
  if s.otp.rollback < n then { s with otp := { s.otp with rollback := n } }.updEvent 118 (detail [(0, n)]) else s

/-- The key numbers that the image revokes are fused. -/
def fuseRevoked (s : State) (revoke : Nat) : State :=
  { s with otp := { s.otp with revoked := s.otp.revoked ||| revoke } }.showFuses

theorem confirmImage_eq (s : State) : ∃ revoke, s.confirmImage =
    (((s.confirmRecord).keepBackup s.inactiveSlot).fuseRollback (byteAt (s.ingotHeader s.upd.running) 16)).fuseRevoked revoke := ⟨_, rfl⟩

variable (s : State)

theorem keepBackup_cases (o : Nat) : s.keepBackup o = s ∨ ∃ r, s.keepBackup o = s.setSlot o r := by
  unfold keepBackup
  split
  · exact .inr ⟨_, rfl⟩
  · exact .inl rfl

theorem keepBackup_otp (o : Nat) : (s.keepBackup o).otp = s.otp := by
  obtain h | ⟨r, h⟩ := s.keepBackup_cases o
  · rw [h]
  · rw [h, setSlot_otp]

theorem keepBackup_hif (o : Nat) : (s.keepBackup o).hif = s.hif := by
  obtain h | ⟨r, h⟩ := s.keepBackup_cases o
  · rw [h]
  · rw [h, setSlot_hif]

theorem keepBackup_rd {o : Nat} (ho : o < 2) {f : Fld} (h : f.addr 0 0 < 0x1E0010 ∨ 0x1E0030 ≤ f.addr 0 0) : (s.keepBackup o).rd f = s.rd f := by
  obtain h' | ⟨r, h'⟩ := s.keepBackup_cases o
  · rw [h']
  · rw [h', s.setSlot_rd ho r h]

theorem keepBackup_slotRec_other {o k : Nat} (h : k = 0 ↔ o ≠ 0) : (s.keepBackup o).slotRec k = s.slotRec k := by
  obtain h' | ⟨r, h'⟩ := s.keepBackup_cases o
  · rw [h']
  · rw [h', s.slotRec_setSlot_other r h]

theorem keepBackup_state {o : Nat} (h : (s.slotRec o).state = 3) : ((s.keepBackup o).slotRec o).state = 4 := by
  unfold keepBackup
  rw [if_pos h, slotRec_setSlot_same]

theorem fuseRollback_upd (n : Nat) : (s.fuseRollback n).upd = s.upd := by
  unfold fuseRollback
  split
  · rw [updEvent, raise_upd]
  · rfl

theorem fuseRollback_hif_desc (n : Nat) : (s.fuseRollback n).hif.desc = s.hif.desc := by
  unfold fuseRollback
  split
  · rw [updEvent, raise_hif_desc]
  · rfl

theorem fuseRollback_rd (n : Nat) {f : Fld} (h : f.addr 0 0 ∉ eventWords) : (s.fuseRollback n).rd f = s.rd f := by
  unfold fuseRollback
  split
  · rw [updEvent, raise_rd _ _ _ _ (by decide) h]
    rfl
  · rfl

theorem fuseRollback_otp (n : Nat) : (s.fuseRollback n).otp = { s.otp with rollback := max s.otp.rollback n } := by
  unfold fuseRollback
  split
  case isTrue h => rw [updEvent, raise_otp, Nat.max_eq_right h.le]
  case isFalse h => rw [Nat.max_eq_left (Nat.not_lt.1 h)]

theorem fuseRevoked_upd (k : Nat) : (s.fuseRevoked k).upd = s.upd := rfl
theorem fuseRevoked_hif (k : Nat) : (s.fuseRevoked k).hif = s.hif := rfl
theorem fuseRevoked_rollback (k : Nat) : (s.fuseRevoked k).otp.rollback = s.otp.rollback := rfl
theorem fuseRevoked_owner (k : Nat) : (s.fuseRevoked k).otp.owner = s.otp.owner := rfl

theorem fuseRevoked_rd (k : Nat) {f : Fld} (h : f.addr 0 0 ≠ 0x1E0050) : (s.fuseRevoked k).rd f = s.rd f := by
  unfold fuseRevoked showFuses
  rw [rd_wr_ne _ h, rd_wr_ne _ h]
  rfl

theorem confirmImage_facts (hn : s.upd.running < 2) :
    s.confirmImage.hif.desc = s.hif.desc ∧ s.confirmImage.slotRec s.upd.running = { s.slotRec s.upd.running with state := 3 }
      ∧ s.confirmImage.rd F.UPD_STAT_confirmed = 1
      ∧ s.confirmImage.otp.rollback = max s.otp.rollback (byteAt (s.ingotHeader s.upd.running) 16) ∧ s.confirmImage.otp.owner = s.otp.owner
      ∧ ((s.slotRec s.inactiveSlot).state = 3 → (s.confirmImage.slotRec s.inactiveSlot).state = 4) := by
  obtain ⟨revoke, heq⟩ := s.confirmImage_eq
  have hother : s.inactiveSlot = 0 ↔ s.upd.running ≠ 0 := by
    unfold inactiveSlot
    split <;> omega
  have hrec (k : Nat) : s.confirmImage.slotRec k = (s.confirmRecord.keepBackup s.inactiveSlot).slotRec k := by
    rw [heq]
    exact slotRec_congr _ (by rw [fuseRevoked_upd, fuseRollback_upd]) k
  have hconfirmed (k : Nat) : s.confirmRecord.slotRec k = (s.setSlot s.upd.running { s.slotRec s.upd.running with state := 3 }).slotRec k := rfl
  have hotp : s.confirmRecord.otp = s.otp := s.setSlot_otp s.upd.running { s.slotRec s.upd.running with state := 3 }
  have hdesc : s.confirmRecord.hif = s.hif := s.setSlot_hif s.upd.running { s.slotRec s.upd.running with state := 3 }
  have hshown : s.confirmRecord.rd F.UPD_STAT_confirmed = 1 := rd_wr_lt _ (by decide) (by decide)
  refine ⟨?_, ?_, ?_, ?_, ?_, fun h => ?_⟩
  · rw [heq, fuseRevoked_hif, fuseRollback_hif_desc, keepBackup_hif, hdesc]
  · rw [hrec, keepBackup_slotRec_other _ (by omega), hconfirmed, slotRec_setSlot_same]
  · rw [heq, fuseRevoked_rd _ _ (by decide), fuseRollback_rd _ _ (by decide), keepBackup_rd _ s.inactiveSlot_lt (by decide), hshown]
  · rw [heq, fuseRevoked_rollback, fuseRollback_otp, keepBackup_otp, hotp]
  · rw [heq, fuseRevoked_owner, fuseRollback_otp, keepBackup_otp, hotp]
  · rw [hrec, keepBackup_state]
    rw [hconfirmed, slotRec_setSlot_other _ _ hother, h]
end State

section Descriptors
variable {s : State} {r : Fin 64} {d : Desc}

section Confirm
variable (hstart : s.Starts r 0x0805 d)
include hstart

theorem execImageConfirm_mode (h2 : s.mode ≠ 2) (h3 : s.mode ≠ 3) :
    ∃ t, execImageConfirm r s = .next t ∧ t.Completed d 0x15 ∧ t.upd = s.upd ∧ t.otp = s.otp := by
  have hexec : execImageConfirm r s = .next ((s.startDesc d).fail d.id 0x15) := by
    unfold execImageConfirm
    rw [hstart.runDesc]
    exact congrArg _ (if_pos (by rw [State.startDesc_mode]; exact ⟨h2, h3⟩))
  exact ⟨_, hexec, hstart.completed rfl, State.complete_upd .., State.complete_otp ..⟩

variable (hmode : s.mode = 2 ∨ s.mode = 3)
include hmode

theorem execImageConfirm_again (hstate : (s.slotRec s.upd.running).state = 3) :
    ∃ t, execImageConfirm r s = .next t ∧ t.Completed d 1 ∧ t.upd = s.upd ∧ t.otp = s.otp := by
  obtain ⟨res, hres⟩ : ∃ res, res = (s.startDesc d).fuseResult := ⟨_, rfl⟩
  have hexec : execImageConfirm r s = .next ((s.startDesc d).complete d.id 1 0 res) := by
    have hstate' : ((s.startDesc d).slotRec (s.startDesc d).upd.running).state = 3 := hstate
    unfold execImageConfirm
    rw [hstart.runDesc]
    dsimp only
    rw [if_neg (by rw [State.startDesc_mode]; omega), hstate', if_neg (by decide), if_pos rfl, ← hres]
  exact ⟨_, hexec, hstart.completed rfl, State.complete_upd .., State.complete_otp ..⟩

theorem execImageConfirm_confirms (hstate : (s.slotRec s.upd.running).state = 2) (hrun : s.upd.running < 2) :
    ∃ t, execImageConfirm r s = .next t ∧ t.Completed d 1
      ∧ t.slotRec s.upd.running = { s.slotRec s.upd.running with state := 3 } ∧ t.rd F.UPD_STAT_confirmed = 1
      ∧ t.otp.rollback = max s.otp.rollback (byteAt (s.ingotHeader s.upd.running) 16) ∧ t.otp.owner = s.otp.owner
      ∧ ((s.slotRec s.inactiveSlot).state = 3 → (t.slotRec s.inactiveSlot).state = 4) := by
  obtain ⟨hdesc, hrec, hshown, hroll, howner, hbackup⟩ := (s.startDesc d).confirmImage_facts hrun
  obtain ⟨u, hu⟩ : ∃ u, u = (s.startDesc d).confirmImage := ⟨_, rfl⟩
  rw [← hu] at hdesc hrec hshown hroll howner hbackup
  obtain ⟨res, hres⟩ : ∃ res, res = u.fuseResult := ⟨_, rfl⟩
  have hexec : execImageConfirm r s = .next (u.complete d.id 1 0 res) := by
    have hstate' : ((s.startDesc d).slotRec (s.startDesc d).upd.running).state = 2 := hstate
    unfold execImageConfirm
    rw [hstart.runDesc]
    dsimp only
    rw [if_neg (by rw [State.startDesc_mode]; omega), hstate', if_pos rfl, ← hu, ← hres]
  have hcrec (k : Nat) : (u.complete d.id 1 0 res).slotRec k = u.slotRec k := State.slotRec_congr _ (State.complete_upd ..) k
  refine ⟨_, hexec, hstart.completed hdesc, ?_, ?_, ?_, ?_, ?_⟩
  · rw [hcrec]
    exact hrec
  · rw [State.complete_rd_low _ _ _ _ _ _ (by decide), hshown]
  · rw [State.complete_otp]
    exact hroll
  · rw [State.complete_otp]
    exact howner
  · rw [hcrec]
    exact hbackup
end Confirm

/-! ## SETTINGS_SAVE (R476) -/

theorem execSettingsSave_queues (hstart : s.Starts r 0x0806 d) (hstate : (s.slotRec s.upd.running).state ≠ 2) (l : List Byte) :
    ∃ t, execSettingsSave r l s = .next t ∧ t.hif.compl = s.hif.compl
      ∧ t.upd = { s.upd with jobs := s.upd.jobs ++ [.settings d.id (if s.rd F.UPD_SET_slot = 0 then 1 else 0) l] } := by
  have hslot : (s.startDesc d).saveSlot = if s.rd F.UPD_SET_slot = 0 then 1 else 0 := by
    unfold State.saveSlot State.currentSet
    rw [if_neg (show ((s.startDesc d).slotRec (s.startDesc d).upd.running).state ≠ 2 from hstate), State.startDesc_rd_high hstart.ring_lt (by decide)]
  unfold execSettingsSave
  rw [hstart.runDesc, hslot]
  exact ⟨_, rfl, rfl, rfl⟩

/-! ## ATTEST (R478) -/

section Attest
variable (hstart : s.Starts r 0x0930 d)
include hstart

theorem State.Starts.attestBytes (nonce : List Byte) : (s.startDesc d).attestBytes nonce = s.attestBytes nonce := by
  have hrd {f : Fld} (hf : f.addr 0 0 < 0x11018 ∨ 0x12000 ≤ f.addr 0 0) : (s.startDesc d).rd f = s.rd f := State.startDesc_rd_of_lt hstart.ring_lt hf
  unfold State.attestBytes State.currentSet State.on State.mode
  rw [hrd (f := F.UPD_SET_slot) (by decide), hrd (f := F.UPD_STAT_confirmed) (by decide), hrd (f := F.QNC_STAT_confirmed) (by decide),
    hrd (f := F.GLB_ID_part) (by decide), hrd (f := F.GLB_ID_stepping) (by decide), hrd (f := F.GLB_STAT_mode) (by decide),
    hrd (f := F.GLB_IMG_VER_version) (by decide), hrd (f := F.QNC_SPS_CRC_crc) (by decide)]
  rfl

theorem execAttest_short {io : HostIo} (h : d.op 24 4 < 304) : ∃ t, execAttest r io s = .next t ∧ t.Completed d 0x12 ∧ t.hostMem = s.hostMem := by
  have hexec : execAttest r io s = .next ((s.startDesc d).fail d.id 0x12 24) := by
    unfold execAttest
    rw [hstart.runDesc]
    exact congrArg _ (if_pos h)
  exact ⟨_, hexec, hstart.completed rfl, State.complete_hostMem ..⟩

theorem execAttest_reports {io : HostIo} (h : 304 ≤ d.op 24 4) (hio : io.resultErr = false) (hev : s.takesEvent 119) :
    ∃ t b, execAttest r io s = .next t ∧ t.Completed d 1 ∧ t.hasEvent 119 1 0xFFFF ∧ b = s.attestBytes ((d.bytes.drop 32).take 32)
      ∧ t.hostMem = writeBytes s.hostMem (d.op 16 8) (b ++ toBytes 64 (Config.deviceSign b).toNat) ∧ t.upd = s.upd ∧ t.otp = s.otp := by
  obtain ⟨b, hb⟩ : ∃ b, b = s.attestBytes ((d.bytes.drop 32).take 32) := ⟨_, rfl⟩
  obtain ⟨w, hw⟩ : ∃ w, w = detail [(4, d.tag)] := ⟨_, rfl⟩
  obtain ⟨m, hm⟩ : ∃ m, m = writeBytes s.hostMem (d.op 16 8) (b ++ toBytes 64 (Config.deviceSign b).toNat) := ⟨_, rfl⟩
  obtain ⟨res, hres⟩ : ∃ res, res = indResult (d.op 16 8) (b ++ bytes512 (Config.deviceSign b)).length := ⟨_, rfl⟩
  obtain ⟨u, hu⟩ : ∃ u : State, u = { s.startDesc d with hostMem := m } := ⟨_, rfl⟩
  have hexec : execAttest r io s = .next ((u.complete d.id 1 0 res true).raise 119 1 0xFFFF w) := by
    unfold execAttest
    rw [hstart.runDesc]
    dsimp only
    rw [if_neg (Nat.not_lt.2 h), hstart.attestBytes, ← hb, ← hw, State.hostResult, hio, if_neg Bool.false_ne_true, ← hres, State.updEvent, hu, hm]
    rfl
  have hdesc : u.hif.desc = (s.startDesc d).hif.desc := by rw [hu]
  have huev : u.takesEvent 119 := by
    rw [hu]
    exact State.takesEvent_startDesc hev d
  refine ⟨_, b, hexec, ?_, State.raise_hasEvent _ _ _ (State.takesEvent_complete huev ..), hb, ?_, ?_, ?_⟩
  · exact (hstart.completed hdesc (status := 1) (res := res) (ind := true)).of_hif (State.raise_hif_desc ..) (State.raise_hif_compl ..)
  · rw [State.raise_hostMem, State.complete_hostMem, hu, hm]
  · rw [State.raise_upd, State.complete_upd, hu, State.startDesc_upd]
  · rw [State.raise_otp, State.complete_otp, hu, State.startDesc_otp]
end Attest
end Descriptors

/-- Settles O51: one lemma per kind of flash program, and one per outcome of the operations that queue or complete at once. -/
theorem flashAndImages : Obligations.FlashAndImages := by
  unfold Obligations.FlashAndImages
  refine ⟨⟨fun s ok h => ?_,
      fun _ _ _ _ _ _ hjobs hfind hquiet howner => ⟨execFlashProgramComplete_lands hjobs hfind howner hquiet,
        execFlashProgramComplete_stageFails hjobs hfind howner⟩,
      fun _ _ _ _ _ hjobs hfind hquiet => ⟨execFlashProgramComplete_storesSet hjobs hfind hquiet, execFlashProgramComplete_setFails hjobs hfind⟩,
      fun _ _ _ => execFlashProgramComplete_confirms,
      fun _ _ _ _ _ _ hjobs hn hfind hquiet => ⟨execFlashProgramComplete_saves hjobs hfind hn hquiet, execFlashProgramComplete_saveFails hjobs hfind⟩⟩,
    fun _ _ _ hstart => ⟨execImageConfirm_mode hstart, execImageConfirm_again hstart, execImageConfirm_confirms hstart⟩,
    fun _ _ l _ hstart hstate => execSettingsSave_queues hstart hstate l,
    fun _ _ _ _ hstart => ⟨execAttest_short hstart, execAttest_reports hstart⟩⟩
  change execFlashProgramComplete ok s = _
  unfold execFlashProgramComplete
  rw [h]

end Sys2Proof.Machine

/-! What the boot reads of a state, and the entry into KINDLE (R453, R454, R463). -/

namespace Sys2Proof.Machine

namespace State

variable (s : State)

/-! ## What the start of a segment leaves to the boot -/

/-- The updates, Quench, the mode, the enable of Temper engine 0 and the request of KINDLE. -/
def bootView : Upd × Quench × Nat × Nat × Nat :=
  (s.upd, s.quench, s.mode, s.rd F.TMP_CTL_enable, s.rd F.CLK_RST_CTL_kindle_next)

/-- A register of Combway or of the time base. -/
abbrev OfLine (off : Nat) : Prop := 0x140000 ≤ off ∧ off < 0x1A0000

theorem bootView_wr {f : Fld} {v i j : Nat} (h : OfLine (f.addr i j)) : (s.wr f v i j).bootView = s.bootView := by
  have hrd {f' : Fld} (h' : f'.addr 0 0 < 0x140000 ∨ 0x1A0000 ≤ f'.addr 0 0) : (s.wr f v i j).rd f' = s.rd f' := rd_wr_ne _ (by omega)
  have hmode : (s.wr f v i j).mode = s.mode := hrd (f' := F.GLB_STAT_mode) (by decide)
  rw [bootView, hmode, hrd (f' := F.TMP_CTL_enable) (by decide), hrd (f' := F.CLK_RST_CTL_kindle_next) (by decide)]
  rfl

theorem bootView_put {f : Fld} {v : Bool} {i j : Nat} (h : OfLine (f.addr i j)) : (s.put f v i j).bootView = s.bootView := s.bootView_wr h

theorem bootView_wrS {f : Fld} {v : Int} {i j : Nat} (h : OfLine (f.addr i j)) : (s.wrS f v i j).bootView = s.bootView := by
  rw [wrS_eq]
  exact s.bootView_wr h

@[simp] theorem bootView_setSeg (g : Nat) (v : Seg8) : (s.setSeg g v).bootView = s.bootView := rfl

theorem bootView_setLearn {g k : Nat} (hg : g < 8) (hk : k < 64) (b : Bool) (v : Learn) : (s.setLearn g b k v).bootView = s.bootView := by
  unfold setLearn
  cases b with
  | false =>
    exact (bootView_put _ (by simp only [Fld.addr, F.CMB_ARR_A_learned, Bool.false_eq_true, if_false]; omega)).trans
      (bootView_wrS _ (by simp only [Fld.addr, F.CMB_ARR_A_offset, Bool.false_eq_true, if_false]; omega))
  | true =>
    exact (bootView_put _ (by simp only [Fld.addr, F.CMB_ARR_B_learned, if_true]; omega)).trans
      (bootView_wrS _ (by simp only [Fld.addr, F.CMB_ARR_B_offset, if_true]; omega))

theorem bootView_forget {g : Nat} (hg : g < 8) (keep : Option Nat) : (s.forget g keep).bootView = s.bootView := by
  unfold forget
  rw [foldl_keeps bootView fun t p hp => ?_]
  have hk : p.1 < 64 := by
    simp only [slotChans, List.mem_flatMap, List.mem_range, List.mem_cons, List.not_mem_nil, or_false] at hp
    obtain ⟨k, hk, rfl | rfl⟩ := hp
    · exact hk
    · exact hk
  split
  · rfl
  · exact t.bootView_setLearn hg hk p.2 {}

theorem bootView_dropCycle (g : Nat) : (s.dropCycle g).bootView = s.bootView := by
  unfold dropCycle
  split
  · have hmode : (s.wr F.GLB_STAT_cycle_run 0).mode = s.mode := rd_wr_sep s (by decide)
    rw [bootView_wr _ (by decide), bootView, hmode, rd_wr_ne _ (by decide), rd_wr_ne _ (by decide)]
    rfl
  · rfl

section Segment
variable {g : Nat} (hg : g < 8)
include hg

theorem ofLine_segment {f : Fld} (h : f.OfSegment) : OfLine (f.addr g 0) := by
  have hle := h.le_addr g
  have hlt := h.addr_lt hg
  omega

theorem bootView_setGuard (b : Bool) (v : Guard) (c : Bool) : (s.setGuard g b v c).bootView = s.bootView := by
  unfold setGuard
  cases b with
  | false => exact bootView_put _ (ofLine_segment hg (f := F.CMB_GRD_STAT_closed_a) (by decide))
  | true => exact bootView_put _ (ofLine_segment hg (f := F.CMB_GRD_STAT_closed_b) (by decide))

theorem bootView_setMaster (node : Nat) : (s.setMaster g node).bootView = s.bootView := by
  have hshow : (s.showMaster g node).bootView = s.bootView := by
    rw [showMaster, bootView_put _ (ofLine_segment hg (by decide)), bootView_wr _ (ofLine_segment hg (by decide))]
  obtain h | ⟨u, hu, h⟩ := s.setMaster_eq g node
  · rw [h, hshow]
  · rw [h, syncHoldover, bootView_put _ (by decide), hu, bootView_put _ (by decide), hshow]

theorem bootView_enterListen : (s.enterListen g).bootView = s.bootView := by
  rw [enterListen_eq, bootView_setMaster _ hg, listening, bootView_setSeg, setGuards, bootView_setGuard _ hg, bootView_setGuard _ hg, enterCmb,
    bootView_wr _ (ofLine_segment hg (by decide)), bootView_setSeg, bootView_dropCycle]

theorem bootView_startSegment : (s.startSegment g).bootView = s.bootView := by
  have h {f : Fld} (hf : f.OfSegment) : OfLine (f.addr g 0) := ofLine_segment hg hf
  unfold startSegment
  rw [bootView_enterListen _ hg, bootView_forget _ hg, bootView_wr _ (h (by decide)), bootView_wr _ (h (by decide)), bootView_wr _ (h (by decide)),
    bootView_setSeg]

theorem bootView_installSched (b : List Byte) : (s.installSched g b).bootView = s.bootView := by
  have h (t : State) {f : Fld} (v : Nat) (hf : f.OfSegment) : (t.wr f v g).bootView = t.bootView := t.bootView_wr (ofLine_segment hg hf)
  unfold installSched
  rw [h _ _ (by decide), h _ _ (by decide), h _ _ (by decide), h _ _ (by decide), h _ _ (by decide), h _ _ (by decide), h _ _ (by decide),
    h _ _ (by decide), h _ _ (by decide), h _ _ (by decide), h _ _ (by decide), bootView_setSeg]
end Segment

theorem startSegment_sched (g : Nat) : (s.startSegment g).sched g = s.sched g := by
  obtain ⟨u, hsched, heq⟩ : ∃ u : State, (u.seg g).sched = (s.seg g).sched ∧ s.startSegment g = (u.forget g none).enterListen g := by
    unfold startSegment
    exact ⟨_, by rw [seg_wr, seg_wr, seg_wr, seg_setSeg_same], rfl⟩
  rw [sched, heq, enterListen_sched, forget_seg, sched]
  exact congrArg (·.getD []) hsched

/-! ## The entry into KINDLE -/

theorem bootView_setMode {m : Nat} (h : m < 8) (cause : Nat) :
    (s.setMode m cause).bootView = (s.upd, s.quench, m, s.rd F.TMP_CTL_enable, s.rd F.CLK_RST_CTL_kindle_next) := by
  have hblocks := s.setMode_sameButMode m cause
  have hupd : (s.setMode m cause).upd = s.upd := by rw [hblocks]
  have hquench : (s.setMode m cause).quench = s.quench := by rw [hblocks]
  rw [bootView, hupd, hquench, s.setMode_mode h cause, s.setMode_rd m cause (by decide), s.setMode_rd m cause (by decide)]

/-- The mode is KINDLE, and Quench is released with its KINDLE image unless a rail is out. -/
def kindleMode (s : State) (cause : Nat) : State :=
  let u := s.setMode 1 cause
  { u with
    upd := { u.upd with kindle := cause, boot := 8 }
    quench := { u.quench with held := u.quench.railOut, tickAt := u.tick, sampleAt := u.tick } }

/-- Segment 0 has its configuration of KINDLE, and Temper engine 0 runs. -/
def kindleConfig (s : State) : State :=
  let s := ((s.wr F.CMB_SEG_CTL_chan_a_en 1).wr F.CMB_SEG_CTL_chan_b_en 0)
  let s := ((s.wr F.CMB_SYNC_CFG_timing 1).wr F.CMB_SYNC_CFG_coldstart_en 1)
  (s.wr F.TMP_CTL_enable 1).wr F.TMP_STAT_stopped 0

theorem enterKindle_eq (cause : Nat) :
    s.enterKindle cause = (((s.kindleMode cause).installSched 0 kindleBody).kindleConfig).startSegment 0 := rfl

theorem kindleConfig_sched : s.kindleConfig.sched 0 = s.sched 0 := rfl

theorem enterKindle_sched (cause : Nat) : (s.enterKindle cause).sched 0 = kindleBody := by
  rw [enterKindle_eq, startSegment_sched, kindleConfig_sched, sched, seg_installSched, seg_setSeg_same, Option.getD_some]

theorem bootView_kindleConfig :
    s.kindleConfig.bootView = (s.upd, s.quench, s.mode, 1, s.rd F.CLK_RST_CTL_kindle_next) := by
  obtain ⟨u, hu⟩ : ∃ u, u = (((s.wr F.CMB_SEG_CTL_chan_a_en 1).wr F.CMB_SEG_CTL_chan_b_en 0).wr F.CMB_SYNC_CFG_timing 1).wr F.CMB_SYNC_CFG_coldstart_en 1 :=
    ⟨_, rfl⟩
  have hview : u.bootView = s.bootView := by
    rw [hu, bootView_wr _ (by decide), bootView_wr _ (by decide), bootView_wr _ (by decide), bootView_wr _ (by decide)]
  simp only [bootView, Prod.mk.injEq] at hview
  obtain ⟨hupd, hquench, hmode, -, hnext⟩ := hview
  have heq : s.kindleConfig = (u.wr F.TMP_CTL_enable 1).wr F.TMP_STAT_stopped 0 := by rw [hu]; rfl
  have hen : s.kindleConfig.rd F.TMP_CTL_enable = 1 := by
    rw [heq, rd_wr_ne _ (by decide)]
    exact rd_wr_lt _ (by decide) (by decide)
  have hmode' : s.kindleConfig.mode = s.mode := by rw [mode, heq, rd_wr_ne _ (by decide), rd_wr_ne _ (by decide), ← mode, hmode]
  have hnext' : s.kindleConfig.rd F.CLK_RST_CTL_kindle_next = s.rd F.CLK_RST_CTL_kindle_next := by
    rw [heq, rd_wr_ne _ (by decide), rd_wr_ne _ (by decide), hnext]
  have hupd' : s.kindleConfig.upd = s.upd := by rw [heq, wr_upd, wr_upd, hupd]
  have hquench' : s.kindleConfig.quench = s.quench := by rw [heq, wr_quench, wr_quench, hquench]
  rw [bootView, hen, hmode', hnext', hupd', hquench']

theorem bootView_kindleMode (cause : Nat) : (s.kindleMode cause).bootView
    = ({ s.upd with kindle := cause, boot := 8 }, { s.quench with held := s.quench.railOut, tickAt := s.tick, sampleAt := s.tick }, 1,
      s.rd F.TMP_CTL_enable, s.rd F.CLK_RST_CTL_kindle_next) := by
  have hview := s.bootView_setMode (m := 1) (by decide) cause
  have htick : (s.setMode 1 cause).tick = s.tick := by rw [s.setMode_sameButMode 1 cause]
  obtain ⟨u, hu⟩ : ∃ u, u = s.setMode 1 cause := ⟨_, rfl⟩
  rw [← hu] at hview htick
  simp only [bootView, Prod.mk.injEq] at hview
  obtain ⟨hupd, hquench, hmode, hen, hnext⟩ := hview
  have heq : s.kindleMode cause = { u with
      upd := { s.upd with kindle := cause, boot := 8 }, quench := { s.quench with held := s.quench.railOut, tickAt := s.tick, sampleAt := s.tick } } := by
    rw [← hupd, ← hquench, ← htick, hu]
    rfl
  rw [heq, ← hen, ← hnext, ← hmode]
  rfl

/-- KINDLE keeps the images and the request, and enables Temper engine 0. -/
theorem enterKindle_view (cause : Nat) : (s.enterKindle cause).bootView
    = ({ s.upd with kindle := cause, boot := 8 }, { s.quench with held := s.quench.railOut, tickAt := s.tick, sampleAt := s.tick }, 1, 1,
      s.rd F.CLK_RST_CTL_kindle_next) := by
  have hload := ((s.kindleMode cause).bootView_installSched (g := 0) (by decide) kindleBody).trans (s.bootView_kindleMode cause)
  obtain ⟨u, hu⟩ : ∃ u, u = (s.kindleMode cause).installSched 0 kindleBody := ⟨_, rfl⟩
  rw [← hu] at hload
  simp only [bootView, Prod.mk.injEq] at hload
  obtain ⟨hupd, hquench, hmode, -, hnext⟩ := hload
  rw [enterKindle_eq, ← hu, bootView_startSegment _ (by decide), bootView_kindleConfig, hupd, hquench, hmode, hnext]

theorem bootView_fields {v : Upd × Quench × Nat × Nat × Nat} (h : s.bootView = v) : s.upd = v.1 ∧ s.quench = v.2.1 ∧ s.mode = v.2.2.1
    ∧ s.rd F.TMP_CTL_enable = v.2.2.2.1 ∧ s.rd F.CLK_RST_CTL_kindle_next = v.2.2.2.2 := by
  subst h
  exact ⟨rfl, rfl, rfl, rfl, rfl⟩

end State

end Sys2Proof.Machine

/-! Proofs about the choice of the image slot to boot (R462, R471, R472). -/

namespace Sys2Proof.Machine

namespace State

variable (s : State)

/-! ## The checks and the choice -/

theorem bootCheck_le (n : Nat) : s.bootCheck n ≤ 11 := by
  unfold bootCheck
  dsimp only
  repeat' split
  all_goals decide

theorem firstSlot_lt : s.firstSlot < 2 := by
  unfold firstSlot
  dsimp only
  repeat' split
  all_goals decide

/-! ## A slot that boots -/

/-- The record of a slot that boots: one trial more, or as it was. -/
def tryRecord (s : State) (n : Nat) : State :=
  if (s.slotRec n).state = 1 ∨ (s.slotRec n).state = 2 then
    s.setSlot n { s.slotRec n with state := 2, trials := (s.slotRec n).trials + 1 }
  else s.showSlot n

/-- The registers that name the running image. -/
def showRunning (s : State) (n : Nat) (confirmed : Bool) : State :=
  ((s.wr F.UPD_STAT_running n).put F.UPD_STAT_confirmed confirmed).wr F.GLB_IMG_VER_version (field (s.ingotHeader n) 12 4)

/-- The image runs, and Quench leaves reset. -/
def startImage (s : State) (n : Nat) : State :=
  { s with
    upd := { s.upd with running := n, boot := 4, migrated := none }
    quench := { s.quench with held := s.quench.railOut, tickAt := s.tick, sampleAt := s.tick } }

theorem bootSlot_eq (n : Nat) : s.bootSlot n = ((s.tryRecord n).showRunning n ((s.slotRec n).state == 3)).startImage n := rfl

theorem tryRecord_cases (n : Nat) : s.tryRecord n = s.showSlot n ∨ ∃ r, s.tryRecord n = s.setSlot n r := by
  unfold tryRecord
  split
  · exact .inr ⟨_, rfl⟩
  · exact .inl rfl

theorem tryRecord_hif (n : Nat) : (s.tryRecord n).hif = s.hif := by
  obtain h | ⟨r, h⟩ := s.tryRecord_cases n
  · rw [h, showSlot_hif]
  · rw [h, setSlot_hif]

theorem tryRecord_quench (n : Nat) : (s.tryRecord n).quench = s.quench := by
  obtain h | ⟨r, h⟩ := s.tryRecord_cases n
  · rw [h, showSlot_quench]
  · rw [h, setSlot_quench]

theorem tryRecord_rd {n : Nat} (hn : n < 2) {f : Fld} (h : f.addr 0 0 < 0x1E0010 ∨ 0x1E0030 ≤ f.addr 0 0) : (s.tryRecord n).rd f = s.rd f := by
  obtain h' | ⟨r, h'⟩ := s.tryRecord_cases n
  · rw [h', s.showSlot_rd hn h]
  · rw [h', s.setSlot_rd hn r h]

theorem tryRecord_slotRec_other {n k : Nat} (h : k = 0 ↔ n ≠ 0) : (s.tryRecord n).slotRec k = s.slotRec k := by
  obtain h' | ⟨r, h'⟩ := s.tryRecord_cases n
  · rw [h', slotRec_showSlot]
  · rw [h', slotRec_setSlot_other _ r h]

section Boot
variable {n : Nat}

theorem bootSlot_boot : (s.bootSlot n).upd.boot = 4 := rfl
theorem bootSlot_runs : (s.bootSlot n).upd.running = n := rfl

theorem bootSlot_hif : (s.bootSlot n).hif = s.hif := s.tryRecord_hif n

theorem bootSlot_held : (s.bootSlot n).quench.held = s.quench.railOut := by
  rw [bootSlot_eq]
  exact congrArg Quench.railOut (s.tryRecord_quench n)

theorem bootSlot_slotRec (k : Nat) : (s.bootSlot n).slotRec k = (s.tryRecord n).slotRec k := rfl

theorem bootSlot_running (hn : n < 2) : (s.bootSlot n).rd F.UPD_STAT_running = n := by
  rw [bootSlot_eq]
  change (showRunning _ n _).rd F.UPD_STAT_running = n
  rw [showRunning, rd_wr_ne _ (by decide), put_eq, rd_wr_sep _ (by decide), rd_wr_lt _ hn (by decide)]

theorem bootSlot_confirmed : (s.bootSlot n).rd F.UPD_STAT_confirmed = if (s.slotRec n).state = 3 then 1 else 0 := by
  rw [bootSlot_eq]
  change (showRunning _ n _).rd F.UPD_STAT_confirmed = _
  rw [showRunning, rd_wr_ne _ (by decide), put_eq, rd_wr_same _ (by decide)]
  by_cases h : (s.slotRec n).state = 3
  · rw [h, if_pos rfl]
    rfl
  · rw [if_neg h, beq_eq_false_iff_ne.2 h]
    rfl

theorem bootSlot_rd (hn : n < 2) {f : Fld} (h : f.addr 0 0 < 0x1E0010 ∨ 0x1E0030 ≤ f.addr 0 0) (hstat : f.addr 0 0 ≠ 0x1E0000)
    (hver : f.addr 0 0 ≠ 4) : (s.bootSlot n).rd f = s.rd f := by
  rw [bootSlot_eq]
  change (showRunning _ n _).rd f = _
  rw [showRunning, rd_wr_ne _ hver, put_eq, rd_wr_ne _ hstat, rd_wr_ne _ hstat, tryRecord_rd _ hn h]

theorem bootSlot_trial (h : (s.slotRec n).state = 1 ∨ (s.slotRec n).state = 2) :
    (s.bootSlot n).slotRec n = { s.slotRec n with state := 2, trials := (s.slotRec n).trials + 1 } := by
  rw [bootSlot_slotRec, tryRecord, if_pos h, slotRec_setSlot_same]

theorem bootSlot_again (h : (s.slotRec n).state = 3) : (s.bootSlot n).slotRec n = s.slotRec n := by
  rw [bootSlot_slotRec, tryRecord, if_neg (by omega), slotRec_showSlot]
end Boot

/-! ## A slot that fails -/

section Reject
variable (n code : Nat)

theorem rejectSlot_upd : (s.rejectSlot n code).upd = (s.setSlot n { s.slotRec n with state := 5, reject := code }).upd := by
  rw [rejectSlot, updEvent, raise_upd]

theorem rejectSlot_slotRec_same : (s.rejectSlot n code).slotRec n = { s.slotRec n with state := 5, reject := code } := by
  rw [slotRec_congr _ (s.rejectSlot_upd n code), slotRec_setSlot_same]

theorem rejectSlot_slotRec_other {n k : Nat} (h : k = 0 ↔ n ≠ 0) : (s.rejectSlot n code).slotRec k = s.slotRec k := by
  rw [slotRec_congr _ (s.rejectSlot_upd n code), slotRec_setSlot_other _ _ h]
end Reject

/-- The note of a fall back, before the occurrence of source 112. -/
def noted (s : State) (first code : Nat) : State :=
  ((s.wr F.UPD_BOOT_NOTE_fell_back 1).wr F.UPD_BOOT_NOTE_first first).wr F.UPD_BOOT_NOTE_reject code

theorem noteFallback_eq (first booted : Nat) : ∃ d, s.noteFallback first booted = (s.noted first (s.slotRec first).reject).raise 112 1 0xFFFF d := by
  unfold noteFallback updEvent noted
  exact ⟨_, rfl⟩

section Note
variable (first booted : Nat)

theorem noteFallback_upd : (s.noteFallback first booted).upd = s.upd := by
  obtain ⟨d, h⟩ := s.noteFallback_eq first booted
  rw [h, raise_upd]
  rfl

theorem noteFallback_fellBack : (s.noteFallback first booted).rd F.UPD_BOOT_NOTE_fell_back = 1 := by
  obtain ⟨d, h⟩ := s.noteFallback_eq first booted
  rw [h, raise_rd _ _ _ _ (by decide) (by decide), noted, rd_wr_sep _ (by decide), rd_wr_sep _ (by decide), rd_wr_lt _ (by decide) (by decide)]

theorem noteFallback_reject (hcode : (s.slotRec first).reject < 16) : (s.noteFallback first booted).rd F.UPD_BOOT_NOTE_reject = (s.slotRec first).reject := by
  obtain ⟨d, h⟩ := s.noteFallback_eq first booted
  rw [h, raise_rd _ _ _ _ (by decide) (by decide), noted, rd_wr_lt _ hcode (by decide)]
end Note

theorem enterKindle_slotRec (cause k : Nat) : (s.enterKindle cause).slotRec k = s.slotRec k := by
  obtain ⟨hupd, -⟩ := bootView_fields _ (s.enterKindle_view cause)
  rw [slotRec, hupd, slotRec]

end State

/-! ## IMAGE_SLOT_CHOICE -/

section Choice
variable {s : State}

theorem execImageSlotChoice_other (h : s.upd.boot ≠ 3 ∨ s.upd.kindle ≠ 0) : execImageSlotChoice s = .next s := if_pos h

variable (hboot : s.upd.boot = 3) (hkindle : s.upd.kindle = 0)
include hboot hkindle

/-- The choice, on the normal path after OTP. -/
theorem execImageSlotChoice_eq : execImageSlotChoice s =
    if s.bootCheck s.firstSlot = 0 then .next ((s.wr F.UPD_BOOT_NOTE_first s.firstSlot).bootSlot s.firstSlot)
    else if (s.rejectSlot s.firstSlot (s.bootCheck s.firstSlot)).bootCheck (1 - s.firstSlot) = 0 then
      .next (((s.rejectSlot s.firstSlot (s.bootCheck s.firstSlot)).bootSlot (1 - s.firstSlot)).noteFallback s.firstSlot (1 - s.firstSlot))
    else .next (((s.rejectSlot s.firstSlot (s.bootCheck s.firstSlot)).rejectSlot (1 - s.firstSlot)
      ((s.rejectSlot s.firstSlot (s.bootCheck s.firstSlot)).bootCheck (1 - s.firstSlot))).enterKindle 12) := by
  have hother : (if s.firstSlot = 0 then 1 else 0) = 1 - s.firstSlot := by
    have := s.firstSlot_lt
    split <;> omega
  unfold execImageSlotChoice
  dsimp only
  rw [if_neg (by omega), hother]

theorem execImageSlotChoice_first (hok : s.bootCheck s.firstSlot = 0) :
    ∃ t, execImageSlotChoice s = .next t ∧ t.upd.boot = 4 ∧ t.upd.running = s.firstSlot ∧ t.rd F.UPD_STAT_running = s.firstSlot
      ∧ t.rd F.UPD_BOOT_NOTE_first = s.firstSlot ∧ t.quench.held = s.quench.railOut ∧ t.hif = s.hif
      ∧ (let r := s.slotRec s.firstSlot
         (r.state = 1 ∨ r.state = 2 → t.slotRec s.firstSlot = { r with state := 2, trials := r.trials + 1 } ∧ t.rd F.UPD_STAT_confirmed = 0)
         ∧ (r.state = 3 → t.slotRec s.firstSlot = r ∧ t.rd F.UPD_STAT_confirmed = 1)) := by
  have hlt := s.firstSlot_lt
  obtain ⟨a, ha⟩ : ∃ a, a = s.firstSlot := ⟨_, rfl⟩
  obtain ⟨u, hu⟩ : ∃ u, u = s.wr F.UPD_BOOT_NOTE_first a := ⟨_, rfl⟩
  have hrec : u.slotRec a = s.slotRec a := by rw [hu]; rfl
  rw [execImageSlotChoice_eq hboot hkindle, if_pos hok, ← ha, ← hu]
  rw [← ha] at hlt
  refine ⟨_, rfl, u.bootSlot_boot, u.bootSlot_runs, u.bootSlot_running hlt, ?_, ?_, ?_, fun h => ⟨?_, ?_⟩, fun h => ⟨?_, ?_⟩⟩
  · rw [u.bootSlot_rd hlt (by decide) (by decide) (by decide), hu]
    exact State.rd_wr_lt _ hlt (by decide)
  · rw [u.bootSlot_held, hu]
    rfl
  · rw [u.bootSlot_hif, hu]
    rfl
  · rw [u.bootSlot_trial (by rwa [hrec]), hrec]
  · rw [u.bootSlot_confirmed, hrec, if_neg (by omega)]
  · rw [u.bootSlot_again (by rwa [hrec]), hrec]
  · rw [u.bootSlot_confirmed, hrec, if_pos h]

variable (hfail : s.bootCheck s.firstSlot ≠ 0)
include hfail

theorem execImageSlotChoice_second {k : Nat} (hk : s.bootCheck s.firstSlot = k)
    (hok : (s.rejectSlot s.firstSlot k).bootCheck (1 - s.firstSlot) = 0) :
    ∃ t, execImageSlotChoice s = .next t ∧ t.upd.boot = 4 ∧ t.upd.running = 1 - s.firstSlot ∧ t.rd F.UPD_BOOT_NOTE_fell_back = 1
      ∧ t.rd F.UPD_BOOT_NOTE_reject = k ∧ (t.slotRec s.firstSlot).state = 5 ∧ (t.slotRec s.firstSlot).reject = k := by
  have hlt := s.firstSlot_lt
  have hle : k ≤ 11 := hk ▸ s.bootCheck_le _
  rw [execImageSlotChoice_eq hboot hkindle, if_neg hfail, hk, if_pos hok]
  obtain ⟨a, ha⟩ : ∃ a, a = s.firstSlot := ⟨_, rfl⟩
  rw [← ha] at hlt ⊢
  obtain ⟨u, hu⟩ : ∃ u, u = (s.rejectSlot a k).bootSlot (1 - a) := ⟨_, rfl⟩
  have hrec : u.slotRec a = { s.slotRec a with state := 5, reject := k } := by
    rw [hu, State.bootSlot_slotRec, State.tryRecord_slotRec_other _ (by omega), State.rejectSlot_slotRec_same]
  have hreject : (u.slotRec a).reject = k := by rw [hrec]
  rw [← hu]
  refine ⟨_, rfl, ?_, ?_, State.noteFallback_fellBack .., ?_, ?_, ?_⟩
  · rw [State.noteFallback_upd, hu, State.bootSlot_boot]
  · rw [State.noteFallback_upd, hu, State.bootSlot_runs]
  · rw [State.noteFallback_reject _ _ _ (by omega), hreject]
  · rw [State.slotRec_congr _ (State.noteFallback_upd ..), hrec]
  · rw [State.slotRec_congr _ (State.noteFallback_upd ..), hrec]

theorem execImageSlotChoice_kindle (hbad : (s.rejectSlot s.firstSlot (s.bootCheck s.firstSlot)).bootCheck (1 - s.firstSlot) ≠ 0) :
    ∃ t, execImageSlotChoice s = .next t ∧ t.mode = 1 ∧ t.upd.kindle = 12 ∧ (t.slotRec 0).state = 5 ∧ (t.slotRec 1).state = 5 := by
  have hlt := s.firstSlot_lt
  rw [execImageSlotChoice_eq hboot hkindle, if_neg hfail, if_neg hbad]
  obtain ⟨a, ha⟩ : ∃ a, a = s.firstSlot := ⟨_, rfl⟩
  obtain ⟨k, hk⟩ : ∃ k, k = s.bootCheck a := ⟨_, rfl⟩
  rw [← ha] at hlt ⊢
  rw [← hk]
  obtain ⟨v, hv⟩ : ∃ v, v = s.rejectSlot a k := ⟨_, rfl⟩
  obtain ⟨u, hu⟩ : ∃ u, u = v.rejectSlot (1 - a) (v.bootCheck (1 - a)) := ⟨_, rfl⟩
  have hfirst : (u.slotRec a).state = 5 := by rw [hu, State.rejectSlot_slotRec_other _ _ (by omega), hv, State.rejectSlot_slotRec_same]
  have hsecond : (u.slotRec (1 - a)).state = 5 := by rw [hu, State.rejectSlot_slotRec_same]
  have hboth {n : Nat} (hn : n < 2) : (u.slotRec n).state = 5 := by
    obtain rfl | rfl : n = a ∨ n = 1 - a := by omega
    · exact hfirst
    · exact hsecond
  obtain ⟨hupd, -, hmode, -⟩ := State.bootView_fields _ (u.enterKindle_view 12)
  rw [← hv, ← hu]
  refine ⟨_, rfl, hmode, ?_, ?_, ?_⟩
  · rw [hupd]
  · rw [State.enterKindle_slotRec, hboth (by decide)]
  · rw [State.enterKindle_slotRec, hboth (by decide)]
end Choice

/-- Settles O49: by the outcomes of the checks of the slot tried first and of the other. -/
theorem imageSlotChoice : Obligations.ImageSlotChoice := by
  unfold Obligations.ImageSlotChoice
  exact ⟨fun _ => execImageSlotChoice_other, fun _ => execImageSlotChoice_first,
    fun _ _ hboot hkindle hk hne => execImageSlotChoice_second hboot hkindle (hk ▸ hne) hk, fun _ => execImageSlotChoice_kindle⟩

end Sys2Proof.Machine

/-! Proofs about the boot (R444, R453, R462, R463, R477): its phases, the reset into KINDLE, the settings and the end. -/

namespace Sys2Proof.Machine

namespace State

variable (s : State)

/-! ## What a device reset leaves to the boot (R458) -/

theorem unlockFell_cases (old s : State) : unlockFell old s = s ∨ ∃ d, unlockFell old s = s.raise 9 2 0xFFFF d := by
  unfold unlockFell
  split
  · exact .inr ⟨_, rfl⟩
  · exact .inl rfl

theorem unlockFell_upd (old s : State) : (unlockFell old s).upd = s.upd := by
  obtain h | ⟨d, h⟩ := unlockFell_cases old s
  · rw [h]
  · rw [h, raise_upd]

theorem unlockFell_rd (old s : State) {f : Fld} (h : f.addr 0 0 ∉ eventWords) : (unlockFell old s).rd f = s.rd f := by
  obtain h' | ⟨d, h'⟩ := unlockFell_cases old s
  · rw [h']
  · rw [h', raise_rd _ _ _ _ (by decide) h]

theorem deviceReset_upd (cause : Nat) : (s.deviceReset cause).upd =
    { flash0 := s.upd.flash0, flash1 := s.upd.flash1, slot0 := s.upd.slot0, slot1 := s.upd.slot1, set0 := s.upd.set0, set1 := s.upd.set1 } := by
  rw [deviceReset_eq, unlockFell_upd]
  rfl

/-- A register outside Waxbook's that no event writes. -/
theorem deviceReset_rd (cause : Nat) {f : Fld} (hev : f.addr 0 0 ∉ eventWords) (hwax : ¬ InWaxbook (f.addr 0 0)) :
    (s.deviceReset cause).rd f = (s.restarted cause).rd f := by
  rw [deviceReset_eq, unlockFell_rd _ _ hev, rd, rd, keepWax_word]
  · rintro h
    exact hwax (h ▸ by decide)
  · rintro h
    exact hwax (h ▸ by decide)
  · rintro h
    exact hwax (h ▸ by decide)

theorem deviceReset_cause {cause : Nat} (h : cause < 16) : (s.deviceReset cause).rd F.CLK_RST_CAUSE_cause = cause := by
  rw [deviceReset_rd _ _ (by decide) (by decide)]
  exact rd_wr_lt _ h (by decide)

theorem deviceReset_kindleNext (cause : Nat) : (s.deviceReset cause).rd F.CLK_RST_CTL_kindle_next = s.rd F.CLK_RST_CTL_kindle_next := by
  rw [deviceReset_rd _ _ (by decide) (by decide), restarted, rd_wr_ne _ (by decide), bump_eq, rd_wr_ne _ (by decide), put_eq, rd_wr_same _ (by decide),
    s.b2n_on rfl]
  exact Nat.mod_eq_of_lt (s.rd_lt ..)

/-! ## The fused values -/

/-- The identifier of the unit shows. -/
def showUid (s : State) : State :=
  (List.range 4).foldl (fun s k => s.wr F.GLB_UID_uid (Config.uid.toNat / 2 ^ (32 * k) % 2 ^ 32) k) s

/-- The fused values and the slots show. -/
def showOtp (s : State) : State := ((s.showUid.put F.GLB_STAT_owned s.showUid.otp.owner).showFuses.showSlot 0).showSlot 1

theorem showUid_onlyRegs : s.OnlyRegs s.showUid := OnlyRegs.foldl fun t _ => (OnlyRegs.refl t).wr _ _ _ _

theorem showUid_rd {f : Fld} (h : f.addr 0 0 < 0x10 ∨ 0x20 ≤ f.addr 0 0) : s.showUid.rd f = s.rd f := by
  rw [rd, showUid, word_foldl_wr, ← rd]
  intro k hk
  simp only [Fld.addr, F.GLB_UID_uid] at h ⊢
  omega

theorem showFuses_onlyRegs : s.OnlyRegs s.showFuses := ((OnlyRegs.refl s).wr _ _ _ _).wr _ _ _ _

theorem showOtp_onlyRegs : s.OnlyRegs s.showOtp :=
  (((s.showUid_onlyRegs.wr _ _ _ _).trans (showFuses_onlyRegs _)).trans (showSlot_onlyRegs _ 0)).trans (showSlot_onlyRegs _ 1)

theorem showOtp_upd : s.showOtp.upd = s.upd := by rw [s.showOtp_onlyRegs]
theorem showOtp_quench : s.showOtp.quench = s.quench := by rw [s.showOtp_onlyRegs]
theorem showUid_otp : s.showUid.otp = s.otp := by rw [s.showUid_onlyRegs]

/-- Behind the slots' registers, the values show as they were put. -/
theorem showOtp_rd {f : Fld} {i : Nat} (h : f.addr i 0 < 0x1E0010 ∨ 0x1E0030 ≤ f.addr i 0) :
    s.showOtp.rd f i = (s.showUid.put F.GLB_STAT_owned s.otp.owner).showFuses.rd f i := by
  rw [showOtp, showSlot_rd _ (by decide) h, showSlot_rd _ (by decide) h, showUid_otp]

theorem showOtp_owned : s.showOtp.rd F.GLB_STAT_owned = if s.otp.owner then 1 else 0 := by
  rw [showOtp_rd _ (by decide), showFuses, rd_wr_ne _ (by decide), rd_wr_ne _ (by decide), put_eq, rd_wr_same _ (by decide)]
  cases s.otp.owner <;> rfl

theorem showOtp_rollback : s.showOtp.rd F.UPD_FUSE_rollback = s.otp.rollback % 2 ^ F.UPD_FUSE_rollback.width := by
  have hotp : (s.showUid.put F.GLB_STAT_owned s.otp.owner).otp = s.otp := s.showUid_otp
  rw [showOtp_rd _ (by decide), showFuses, rd_wr_sep _ (by decide), rd_wr_same _ (by decide), hotp]

theorem showOtp_mode : s.showOtp.mode = s.mode := by
  rw [mode, showOtp_rd _ (by decide), showFuses, rd_wr_ne _ (by decide), rd_wr_ne _ (by decide), put_eq, rd_wr_sep _ (by decide),
    showUid_rd _ (by decide), mode]

theorem showOtp_kindleNext : s.showOtp.rd F.CLK_RST_CTL_kindle_next = s.rd F.CLK_RST_CTL_kindle_next := by
  rw [showOtp_rd _ (by decide), showFuses, rd_wr_ne _ (by decide), rd_wr_ne _ (by decide), put_eq, rd_wr_ne _ (by decide), showUid_rd _ (by decide)]

theorem showOtp_uid {k : Nat} (hk : k < 4) : s.showOtp.rd F.GLB_UID_uid k = Config.uid.toNat / 2 ^ (32 * k) % 2 ^ 32 := by
  have haddr : F.GLB_UID_uid.addr k 0 < 0x20 := by simp only [Fld.addr, F.GLB_UID_uid]; omega
  rw [showOtp_rd _ (.inl (haddr.trans (by decide))), showFuses, rd_wr_ne _ (haddr.trans (by decide)).ne, rd_wr_ne _ (haddr.trans (by decide)).ne, put_eq,
    rd_wr_ne _ haddr.ne, showUid, rd_foldl_wr _ _ hk (by decide) (by decide)]
  exact Nat.mod_mod _ _

/-! ## Anvil engines, settings and the mode -/

theorem writeSettings_boot (n format generation : Nat) (l : List Byte) : (s.writeSettings n format generation l).upd.boot = s.upd.boot := by
  unfold writeSettings
  dsimp only
  rw [setSettings_keeps, setFlash_keeps]

/-- Anvil's status shows the engines without their enables. -/
theorem syncAnvil_enable {n : Nat} (hn : n < 8) : s.syncAnvil.rd F.ANV_CTL_enable n = s.rd F.ANV_CTL_enable n := by
  have haddr {k : Nat} : F.ANV_CTL_enable.addr n 0 ≠ F.ANV_STAT_busy.addr k 0 ∧ F.ANV_CTL_enable.addr n 0 ≠ F.ANV_STAT_stopped.addr k 0
      ∧ F.ANV_CTL_enable.addr n 0 ≠ F.ANV_GSTAT_busy.addr 0 0 := by
    simp only [Fld.addr, F.ANV_CTL_enable, F.ANV_STAT_busy, F.ANV_STAT_stopped, F.ANV_GSTAT_busy]
    omega
  have hglobal : F.ANV_CTL_enable.addr n 0 ≠ 0x48004 := (haddr (k := 0)).2.2
  rw [syncAnvil, rd_wr_ne _ hglobal, rd_wr_ne _ hglobal]
  refine foldl_keeps (fun t : State => t.rd F.ANV_CTL_enable n) (fun t k _ => ?_) s
  obtain ⟨hbusy, hstopped, hall⟩ := haddr (k := k)
  rw [wrBit_eq, rd_wr_ne _ hall, put_eq, rd_wr_ne _ hstopped, put_eq, rd_wr_ne _ hbusy]

theorem useSettings_format (n : Nat) (h : (s.settingsRec n).format < 2 ^ F.UPD_SET_format.width) :
    (s.useSettings n).rd F.UPD_SET_format = (s.settingsRec n).format := rd_wr_lt _ h (by decide)

theorem readableSet_lt {n : Nat} (h : s.readableSet = some n) : n < 2 := by
  unfold readableSet at h
  dsimp only at h
  split at h
  · cases h
    decide
  split at h
  · cases h
    decide
  · cases h

theorem setMode_cause (m : Nat) {cause : Nat} (h : cause < 16) : (s.setMode m cause).rd F.GLB_MODE_INFO_cause = cause := by
  rw [setMode_eq, rd, fireMode_word _ _ (by decide), ← rd, showMode, rd_wr_ne _ (by decide), rd_wr_lt _ h (by decide)]

theorem setMode_upd (m cause : Nat) : (s.setMode m cause).upd = s.upd := by rw [s.setMode_sameButMode m cause]

end State

section Boot
variable {s : State}

/-! ## The first phases -/

theorem execResetRelease_releases (hboot : s.upd.boot = 0) (hhot : s.clk.hot = false) (hrail : s.clk.railHeld = 0) :
    execResetRelease s = .next { s with upd := { s.upd with boot := 1 } } := by
  unfold execResetRelease
  rw [if_pos (by simp [hboot, hhot, hrail])]
  rfl

theorem execResetRelease_held (h : s.upd.boot ≠ 0 ∨ s.clk.hot = true ∨ s.clk.railHeld ≠ 0) : execResetRelease s = .next s := by
  unfold execResetRelease
  rw [if_neg]
  rintro ⟨hboot, hhot, hrail⟩
  simp [hboot, hrail] at h
  simp [h] at hhot

theorem execPllLock_locks (hboot : s.upd.boot = 1) : ∃ t, execPllLock s = .next t ∧ t.upd.boot = 2 ∧ t.rd F.CLK_PLL_STAT_locked = 127
    ∧ s.OnlyWords t [F.CLK_PLL_STAT_locked.off] := by
  unfold execPllLock
  rw [if_pos hboot]
  exact ⟨_, rfl, rfl, State.rd_wr_lt _ (by decide) (by decide), State.OnlyWords.wr (f := F.CLK_PLL_STAT_locked) (fun _ _ => rfl) (by decide)⟩

theorem execPllLock_other (hboot : s.upd.boot ≠ 1) : execPllLock s = .next s := by
  unfold execPllLock
  rw [if_neg hboot]

/-! ## OTP_READ_DONE (R444, R462) -/

theorem execOtpReadDone_other (hboot : s.upd.boot ≠ 2) (p : Bool) : execOtpReadDone p s = .next s := if_pos hboot

section Otp
variable (hboot : s.upd.boot = 2)
include hboot

theorem execOtpReadDone_boots (hnext : s.on F.CLK_RST_CTL_kindle_next = false) :
    ∃ t, execOtpReadDone false s = .next t ∧ t.upd = { s.upd with boot := 3 } ∧ t.rd F.GLB_STAT_owned = (if s.otp.owner then 1 else 0)
      ∧ t.rd F.UPD_FUSE_rollback = s.otp.rollback % 2 ^ F.UPD_FUSE_rollback.width ∧ t.mode = s.mode
      ∧ ∀ k, k < 4 → t.rd F.GLB_UID_uid k = Config.uid.toNat / 2 ^ (32 * k) % 2 ^ 32 := by
  obtain ⟨u, hu⟩ : ∃ u, u = s.bootTo 3 := ⟨_, rfl⟩
  have hnext' : u.showOtp.on F.CLK_RST_CTL_kindle_next = false := by
    rw [State.on, State.showOtp_kindleNext, hu]
    exact hnext
  have hexec : execOtpReadDone false s = .next u.showOtp := by
    unfold execOtpReadDone
    rw [if_neg (by omega), ← hu]
    dsimp only
    rw [← State.showUid, ← State.showOtp, hnext', if_neg (by decide)]
  refine ⟨_, hexec, ?_, ?_, ?_, ?_, fun k hk => u.showOtp_uid hk⟩
  · rw [u.showOtp_upd, hu, State.bootTo]
  · rw [u.showOtp_owned, hu]
    rfl
  · rw [u.showOtp_rollback, hu]
    rfl
  · rw [u.showOtp_mode, hu]
    rfl

theorem execOtpReadDone_kindle {p : Bool} (h : p = true ∨ s.on F.CLK_RST_CTL_kindle_next = true) :
    ∃ t, execOtpReadDone p s = .next t ∧ t.mode = 1 ∧ t.upd.boot = 8 ∧ t.rd F.CLK_RST_CTL_kindle_next = 0
      ∧ t.upd.kindle = (if p then 11 else if s.upd.ddrFailed then 13 else 14) ∧ t.rd F.TMP_CTL_enable 0 = 1
      ∧ t.sched 0 = kindleBody ∧ t.quench.held = s.quench.railOut := by
  obtain ⟨u, hu⟩ : ∃ u, u = (s.bootTo 3).showOtp := ⟨_, rfl⟩
  obtain ⟨next, hnext⟩ : ∃ next, next = s.on F.CLK_RST_CTL_kindle_next := ⟨_, rfl⟩
  rw [← hnext] at h
  obtain ⟨cause, hcause⟩ : ∃ cause, cause = if p then 11 else if next ∧ s.upd.ddrFailed then 13 else 14 := ⟨_, rfl⟩
  have hcause' : cause = if p then 11 else if s.upd.ddrFailed then 13 else 14 := by
    rw [hcause]
    cases p with
    | true => rfl
    | false => simp [h.resolve_left (by decide)]
  obtain ⟨v, hv⟩ : ∃ v : State, v = { u.wr F.CLK_RST_CTL_kindle_next 0 with upd := { s.upd with boot := 3, ddrFailed := false } } := ⟨_, rfl⟩
  have hnext' : u.on F.CLK_RST_CTL_kindle_next = next := by
    rw [State.on, hu, State.showOtp_kindleNext, hnext]
    rfl
  have hupd : u.upd = { s.upd with boot := 3 } := by rw [hu, State.showOtp_upd, State.bootTo]
  have hexec : execOtpReadDone p s = .next (v.enterKindle cause) := by
    unfold execOtpReadDone
    rw [if_neg (by omega)]
    dsimp only
    rw [← State.showUid, ← State.showOtp, ← hu, hnext', if_pos (by simpa using h), State.wr_upd, hupd, hv, hcause]
  obtain ⟨hkupd, hkquench, hkmode, hken, hknext⟩ := State.bootView_fields _ (v.enterKindle_view cause)
  refine ⟨_, hexec, hkmode, ?_, ?_, ?_, hken, v.enterKindle_sched cause, ?_⟩
  · rw [hkupd]
  · rw [hknext, hv]
    exact State.rd_wr_lt _ (by decide) (by decide)
  · rw [hkupd, ← hcause']
  · rw [hkquench, hv]
    change u.quench.railOut = _
    rw [hu, State.showOtp_quench]
    rfl
end Otp

/-! ## DDR_TRAINING_DONE -/

theorem execDdrTrainingDone_other (hboot : s.upd.boot ≠ 4) (ok : Bool) : execDdrTrainingDone ok s = .next s := if_pos hboot

theorem execDdrTrainingDone_trains (hboot : s.upd.boot = 4) : ∃ t, execDdrTrainingDone true s = .next t ∧ t.upd = { s.upd with boot := 5 }
    ∧ t.rd F.GLB_STAT_ddr_ok = 1 ∧ s.OnlyWords t [F.GLB_STAT_ddr_ok.off] := by
  unfold execDdrTrainingDone
  rw [if_neg (by omega), if_pos rfl]
  exact ⟨_, rfl, rfl, State.rd_wr_lt _ (by decide) (by decide), State.OnlyWords.wr (f := F.GLB_STAT_ddr_ok) (fun _ _ => rfl) (by decide)⟩

theorem execDdrTrainingDone_fails (hboot : s.upd.boot = 4) : ∃ t, execDdrTrainingDone false s = .next t ∧ t.upd.boot = 0 ∧ t.upd.ddrFailed = true
    ∧ t.rd F.CLK_RST_CTL_kindle_next = 1 ∧ t.rd F.CLK_RST_CAUSE_cause = 3 := by
  obtain ⟨u, hu⟩ : ∃ u, u = (s.wr F.CLK_RST_CTL_kindle_next 1).deviceReset 3 := ⟨_, rfl⟩
  have hnext : u.rd F.CLK_RST_CTL_kindle_next = 1 := by
    rw [hu, State.deviceReset_kindleNext]
    exact State.rd_wr_lt _ (by decide) (by decide)
  have hcause : u.rd F.CLK_RST_CAUSE_cause = 3 := by rw [hu, State.deviceReset_cause _ (by decide)]
  have hupd : u.upd.boot = 0 := by rw [hu, State.deviceReset_upd]
  unfold execDdrTrainingDone
  rw [if_neg (by omega), if_neg Bool.false_ne_true, ← hu]
  exact ⟨_, rfl, hupd, rfl, hnext, hcause⟩

/-! ## FORAGER_START -/

theorem execForagerStart_other {f : Bool} (h : s.upd.boot ≠ 5 ∨ f = false) : execForagerStart f s = .next s := if_pos (by simpa using h)

theorem execForagerStart_starts (hboot : s.upd.boot = 5) : ∃ t, execForagerStart true s = .next t ∧ t.upd.boot = 6 ∧ t.rd F.HIV_CTL_enable = 1
    ∧ t.glb.wdtServed = s.tick ∧ ∀ n, n < 8 → t.rd F.ANV_CTL_enable n = 1 := by
  obtain ⟨u, hu⟩ : ∃ u, u = (List.range 8).foldl (fun s n => s.wr F.ANV_CTL_enable 1 n) ((s.bootTo 6).wr F.HIV_CTL_enable 1) := ⟨_, rfl⟩
  obtain ⟨v, hv⟩ : ∃ v : State, v = { u with glb := { u.glb with wdtServed := s.tick } } := ⟨_, rfl⟩
  have hregs : ((s.bootTo 6).wr F.HIV_CTL_enable 1).OnlyRegs u := hu ▸ State.OnlyRegs.foldl fun t _ => (State.OnlyRegs.refl t).wr _ _ _ _
  have hexec : execForagerStart true s = .next v.syncAnvil := by
    have htick : u.tick = s.tick := by rw [hregs]; rfl
    unfold execForagerStart
    rw [if_neg (by simp [hboot])]
    dsimp only
    rw [← hu, hv, ← htick]
  have hsync := v.syncAnvil_onlyRegs
  refine ⟨_, hexec, ?_, ?_, ?_, fun n hn => ?_⟩
  · rw [hsync, hv]
    change u.upd.boot = 6
    rw [hregs]
    rfl
  · rw [State.syncAnvil_rd _ (by decide), hv]
    change u.rd F.HIV_CTL_enable = 1
    rw [hu, State.rd, State.word_foldl_wr _ _ (fun k hk => by simp only [Fld.addr, F.HIV_CTL_enable, F.ANV_CTL_enable]; omega), ← State.rd]
    exact State.rd_wr_lt _ (by decide) (by decide)
  · rw [hsync, hv]
  · rw [State.syncAnvil_enable _ hn, hv]
    change u.rd F.ANV_CTL_enable n = 1
    rw [hu, State.rd_foldl_wr _ (fun _ => 1) hn (by decide) (by decide)]
    rfl

/-! ## SETTINGS_MIGRATION (R477) -/

section Settings
variable {l : List Byte}

theorem execSettingsMigration_other {o : Option Word} (h : s.upd.boot ≠ 6 ∨ s.mode ≠ 0) : execSettingsMigration l o s = .next s := if_pos h

variable (hboot : s.upd.boot = 6) (hmode : s.mode = 0)
include hboot hmode

theorem execSettingsMigration_none {o : Option Word} (hset : s.readableSet = none) :
    execSettingsMigration l o s = .next { s with upd := { s.upd with boot := 7 } } := by
  have hset' : (s.bootTo 7).readableSet = none := hset
  unfold execSettingsMigration
  rw [if_neg (by omega)]
  dsimp only
  rw [hset']
  rfl

variable {n : Nat} (hset : s.readableSet = some n)
include hset

theorem execSettingsMigration_reads {o : Option Word} (hformat : (s.settingsRec n).format = s.imageFormat)
    (hlt : s.imageFormat < 2 ^ F.UPD_SET_format.width) :
    ∃ t, execSettingsMigration l o s = .next t ∧ t.upd.boot = 7 ∧ t.rd F.UPD_SET_slot = n ∧ t.rd F.UPD_SET_format = s.imageFormat
      ∧ t.upd.flash0 = s.upd.flash0 ∧ t.upd.flash1 = s.upd.flash1 := by
  obtain ⟨u, hu⟩ : ∃ u, u = s.bootTo 7 := ⟨_, rfl⟩
  have hset' : u.readableSet = some n := hu ▸ hset
  have hrec : (u.settingsRec n).format = u.imageFormat := hu ▸ hformat
  have hlt' : (u.settingsRec n).format < 2 ^ F.UPD_SET_format.width := by rw [hrec, hu]; exact hlt
  have hslot := u.useSettings_slot (s.readableSet_lt hset)
  have hshown := u.useSettings_format n hlt'
  obtain ⟨v, hv⟩ : ∃ v, v = u.useSettings n := ⟨_, rfl⟩
  rw [← hv] at hslot hshown
  have hupd : v.upd = { s.upd with boot := 7 } := by rw [hv, hu]; rfl
  obtain ⟨m, hexec⟩ : ∃ m, execSettingsMigration l o s = .next { v with upd := { s.upd with boot := 7, migrated := m } } := by
    unfold execSettingsMigration
    rw [if_neg (by omega), ← hu]
    dsimp only
    rw [hset']
    dsimp only
    rw [if_pos hrec, ← hv, hu]
    exact ⟨_, rfl⟩
  exact ⟨_, hexec, rfl, hslot, hshown.trans (hrec.trans (by rw [hu]; rfl)), rfl, rfl⟩

variable (hformat : (s.settingsRec n).format ≠ s.imageFormat)
include hformat

theorem execSettingsMigration_refuses (w : Word) :
    ∃ t, execSettingsMigration l (some w) s = .next t ∧ t.upd.boot = 0 ∧ t.rd F.CLK_RST_CAUSE_cause = 3
      ∧ t.slotRec s.upd.running = { s.slotRec s.upd.running with state := 5, reject := 12, reason := w.toNat }
      ∧ t.upd.flash0 = s.upd.flash0 ∧ t.upd.flash1 = s.upd.flash1 := by
  obtain ⟨u, hu⟩ : ∃ u, u = s.bootTo 7 := ⟨_, rfl⟩
  have hset' : u.readableSet = some n := hu ▸ hset
  have hrec : (u.settingsRec n).format ≠ u.imageFormat := hu ▸ hformat
  have hexec : execSettingsMigration l (some w) s = .next (u.refuseMigration (u.settingsRec n).format w.toNat) := by
    unfold execSettingsMigration
    rw [if_neg (by omega), ← hu]
    dsimp only
    rw [hset']
    dsimp only
    rw [if_neg hrec, Option.isNone_some, Bool.and_false, if_neg Bool.false_ne_true]
    rfl
  obtain ⟨r, hr⟩ : ∃ r, r = { u.slotRec u.upd.running with state := 5, reject := 12, reason := w.toNat } := ⟨_, rfl⟩
  obtain ⟨v, d, hv, hreset⟩ : ∃ v d, v = u.setSlot u.upd.running r
      ∧ u.refuseMigration (u.settingsRec n).format w.toNat = (v.raise 117 1 0xFFFF d).deviceReset 3 := by
    unfold State.refuseMigration
    dsimp only
    rw [← hr]
    exact ⟨_, _, rfl, rfl⟩
  have hvupd : v.upd = { u.upd with slot0 := v.upd.slot0, slot1 := v.upd.slot1 } := by
    rw [hv]
    exact u.setSlot_upd u.upd.running r
  have hupd := (v.raise 117 1 0xFFFF d).deviceReset_upd 3
  rw [State.raise_upd] at hupd
  rw [hexec, hreset]
  refine ⟨_, rfl, ?_, State.deviceReset_cause _ (by decide), ?_, ?_, ?_⟩
  · rw [hupd]
  · have hslot : v.slotRec s.upd.running = r := by
      rw [hv, hu]
      exact State.slotRec_setSlot_same ..
    rw [State.slotRec, hupd, ← State.slotRec, hslot, hr, hu]
    rfl
  · rw [hupd, hvupd, hu]
    rfl
  · rw [hupd, hvupd, hu]
    rfl

theorem execSettingsMigration_converts (hold : field (s.ingotHeader s.upd.running) 354 2 ≤ (s.settingsRec n).format) :
    ∃ t, execSettingsMigration l none s = .next t ∧ t.upd.boot = 7 ∧ t.upd.migrated = some (1 - n) ∧ t.rd F.UPD_SET_slot = 1 - n
      ∧ (t.settingsRec (1 - n)).valid = true ∧ (t.settingsRec (1 - n)).format = s.imageFormat
      ∧ t.settingsRec n = s.settingsRec n ∧ t.flash n = s.flash n := by
  have hn := s.readableSet_lt hset
  obtain ⟨o, ho⟩ : ∃ o, o = 1 - n := ⟨_, rfl⟩
  obtain ⟨u, hu⟩ : ∃ u, u = s.bootTo 7 := ⟨_, rfl⟩
  have hset' : u.readableSet = some n := hu ▸ hset
  have hrec : (u.settingsRec n).format ≠ u.imageFormat := hu ▸ hformat
  have hold' : ¬ (u.settingsRec n).format < field (u.ingotHeader u.upd.running) 354 2 := by
    rw [hu]
    exact Nat.not_lt.2 hold
  have hother : (if n = 0 then 1 else 0) = o := by split <;> omega
  obtain ⟨g, hg⟩ : ∃ g, g = ((u.settingsRec n).generation + 1) % 2 ^ 32 := ⟨_, rfl⟩
  obtain ⟨x, hx⟩ : ∃ x, x = u.writeSettings o u.imageFormat g l := ⟨_, rfl⟩
  obtain ⟨v, hv⟩ : ∃ v : State, v = { x.useSettings o with upd := { x.upd with migrated := some o } } := ⟨_, rfl⟩
  obtain ⟨d, hexec⟩ : ∃ d, execSettingsMigration l none s = .next (v.raise 116 1 0xFFFF d) := by
    unfold execSettingsMigration
    rw [if_neg (by omega), ← hu]
    dsimp only
    rw [hset']
    dsimp only
    rw [if_neg hrec, decide_eq_false hold', Bool.false_and, if_neg Bool.false_ne_true, hother, ← hg, ← hx, hv]
    exact ⟨_, rfl⟩
  have hrd (k : Nat) : (v.raise 116 1 0xFFFF d).settingsRec k = x.settingsRec k := by
    rw [State.settingsRec, State.raise_upd, hv]
    rfl
  have hwritten : x.settingsRec o = u.writtenSet u.imageFormat g l := by rw [hx, State.writeSettings_settingsRec_same]
  rw [hexec, ← ho]
  refine ⟨_, rfl, ?_, ?_, ?_, ?_, ?_, ?_, ?_⟩
  · rw [State.raise_upd, hv]
    change x.upd.boot = 7
    rw [hx, State.writeSettings_boot, hu]
    rfl
  · rw [State.raise_upd, hv]
  · rw [State.raise_rd _ _ _ _ (by decide) (by decide), hv]
    exact x.useSettings_slot (by omega)
  · rw [hrd, hwritten]
    rfl
  · rw [hrd, hwritten, hu]
    rfl
  · rw [hrd, hx, State.writeSettings_settingsRec_other _ _ _ _ (by omega), hu]
    rfl
  · rw [State.flash, State.raise_upd, hv]
    change x.flash n = _
    rw [hx, State.writeSettings_flash_other _ _ _ _ (by omega), hu]
    rfl
end Settings

/-! ## END_OF_BOOT (R444, R462) -/

theorem execEndOfBoot_other (h : s.upd.boot ≠ 7 ∨ s.mode ≠ 0) (b : Bool) : execEndOfBoot b s = .next s := if_pos h

section End
variable (hboot : s.upd.boot = 7) (hmode : s.mode = 0)
include hboot hmode

theorem execEndOfBoot_commission {b : Bool} (h : b = false ∨ s.on F.QNC_STAT_confirmed = false) :
    ∃ t, execEndOfBoot b s = .next t ∧ t.mode = 2 ∧ t.upd.boot = 8 ∧ t.rd F.GLB_MODE_INFO_cause = 1 := by
  obtain ⟨u, hu⟩ : ∃ u, u = s.bootTo 8 := ⟨_, rfl⟩
  have hstay : ¬ (b && u.on F.QNC_STAT_confirmed) = true := by
    have hconf : u.on F.QNC_STAT_confirmed = s.on F.QNC_STAT_confirmed := by rw [hu]; rfl
    rw [hconf]
    obtain h | h := h
    · simp [h]
    · simp [h]
  have hmode' : u.mode = 0 := hu ▸ hmode
  have hexec : execEndOfBoot b s = .next (u.setMode 2 1) := by
    unfold execEndOfBoot
    rw [if_neg (by omega), ← hu]
    dsimp only
    rw [if_neg hstay, if_pos hmode']
  refine ⟨_, hexec, u.setMode_mode (by decide) 1, ?_, u.setMode_cause 2 (by decide)⟩
  rw [u.setMode_upd, hu]
  rfl

theorem execEndOfBoot_runs (hconf : s.on F.QNC_STAT_confirmed = true) (hrole : s.roleChoice = 0) :
    ∃ t, execEndOfBoot true s = .next t ∧ t.mode = 3 ∧ t.upd.boot = 8 ∧ t.rd F.GLB_MODE_INFO_cause = 1 := by
  obtain ⟨u, hu⟩ : ∃ u, u = s.bootTo 8 := ⟨_, rfl⟩
  have hconf' : u.on F.QNC_STAT_confirmed = true := hu ▸ hconf
  have hrole' : u.roleChoice = 0 := hu ▸ hrole
  obtain ⟨v, hv⟩ : ∃ v, v = (u.setMode 3 1).wr F.GLB_STAT_role 0 := ⟨_, rfl⟩
  have htake : u.takeRole 3 1 = v := by
    rw [State.takeRole, hrole', hv]
    rfl
  have hvmode : v.mode = 3 := by rw [State.mode, hv, State.rd_wr_sep _ (by decide), ← State.mode, u.setMode_mode (by decide) 1]
  have hexec : execEndOfBoot true s = .next v := by
    unfold execEndOfBoot
    rw [if_neg (by omega), ← hu]
    dsimp only
    rw [hconf', Bool.and_self, if_pos rfl, htake, if_neg (by omega)]
  refine ⟨_, hexec, hvmode, ?_, ?_⟩
  · rw [hv, State.wr_upd, u.setMode_upd, hu]
    rfl
  · rw [hv, State.rd_wr_ne _ (by decide), u.setMode_cause 3 (by decide)]
end End

end Boot

/-- Settles O48: one lemma per phase and outcome. -/
theorem bootPhases : Obligations.BootPhases := by
  unfold Obligations.BootPhases
  exact ⟨fun _ => execResetRelease_releases, fun _ => execResetRelease_held, fun _ => execPllLock_locks, fun _ => execPllLock_other,
    fun _ p h => execOtpReadDone_other h p, fun _ => execOtpReadDone_boots, fun _ _ hboot => execOtpReadDone_kindle hboot,
    fun _ ok h => execDdrTrainingDone_other h ok, fun _ => execDdrTrainingDone_trains, fun _ => execDdrTrainingDone_fails,
    fun _ _ => execForagerStart_other, fun _ => execForagerStart_starts,
    fun _ _ _ => execSettingsMigration_other,
    fun _ _ _ hboot hmode => execSettingsMigration_none hboot hmode,
    fun _ _ _ _ hboot hmode hset => execSettingsMigration_reads hboot hmode hset,
    fun _ _ w _ hboot hmode hset hformat => execSettingsMigration_refuses hboot hmode hset hformat w,
    fun _ _ _ hboot hmode hset => execSettingsMigration_converts hboot hmode hset,
    fun _ b h => execEndOfBoot_other h b, fun _ _ hboot hmode => execEndOfBoot_commission hboot hmode, fun _ => execEndOfBoot_runs⟩

end Sys2Proof.Machine
